-- ==== Sys2Proof/Word.lean ====
section
/-!
DEFINITION. The word and byte types of the device (R3, R247): values are 64-bit unless a width is named.
-/

namespace Sys2Proof

/-- A 64-bit value: a window register, a CSR, a record word (R247). -/
abbrev Word := BitVec 64

/-- One byte of storage (R3). -/
abbrev Byte := BitVec 8

end Sys2Proof
end

