-- ==== Sys2Proof/Syntax.lean ====
section
/-!
DEFINITION. The instructions of the Torgor Reckoner 800: one constructor per row of the table of
operations and events (opcode_table.json).  The rows of the KN1 instruction set carry the fields of their
encoding (R265, R267), low bits first, as bit vectors.  The rows of the device's own steps (I3C and
management commands, register writes, network stages, home performances, scheduler steps and link
events) carry the unit that takes the step and, where the outside world supplies data, that data.
-/

namespace Sys2Proof

/-- One step of the device: an instruction of KN1, or one indivisible device step. -/
inductive Instr where
  /-- I3C_READ_STATUS (R28). -/
  | i3cReadStatus
  /-- I3C_READ_TEMPERATURES (R28). -/
  | i3cReadTemperatures
  /-- I3C_READ_PACKAGE_POWER (R28). -/
  | i3cReadPackagePower
  /-- I3C_SET_POWER_LIMIT (R25). -/
  | i3cSetPowerLimit (cmd : BitVec 8 × BitVec 16)
  /-- I3C_READ_IDENTITY_KEY (R31). -/
  | i3cReadIdentityKey
  /-- I3C_RESET_PACKAGE (R29). -/
  | i3cResetPackage
  /-- I3C_RESET_DIE (R207). -/
  | i3cResetDie (die : BitVec 2)
  /-- ASSIGN (R57). -/
  | assign
  /-- CTXNEW (R79). -/
  | ctxnew
  /-- CTXEND (R439). -/
  | ctxend
  /-- QBIND (R78). -/
  | qbind
  /-- PEER (R67). -/
  | peer
  /-- KEY_INSTALL (R72). -/
  | keyInstall
  /-- KEY_CLEAR (R72). -/
  | keyClear
  /-- SIGNED (R72). -/
  | signed
  /-- MODE (R74). -/
  | mode
  /-- SHARE (R146). -/
  | share
  /-- TRACE (R209). -/
  | trace
  /-- DRAIN (R209). -/
  | drain
  /-- ATTEST (R32). -/
  | attest
  /-- THREAD (R75). -/
  | thread
  /-- MOVE (R201). -/
  | move
  /-- POSTMAP (R68). -/
  | postmap
  /-- RETRAIN (R29). -/
  | retrain
  /-- RESET_DIE (R207). -/
  | resetDie
  /-- RESET_PACKAGE (R29). -/
  | resetPackage
  /-- POWER (R25). -/
  | power
  /-- DEBUG_HALT (R60). -/
  | debugHalt
  /-- DEBUG_RESUME (R60). -/
  | debugResume
  /-- DEBUG_STEP (R60). -/
  | debugStep
  /-- DEBUG_SET_BREAKPOINT (R60). -/
  | debugSetBreakpoint
  /-- DEBUG_CLEAR_BREAKPOINT (R60). -/
  | debugClearBreakpoint
  /-- DEBUG_COPY_STATE (R60). -/
  | debugCopyState
  /-- REGISTER_WRITE (R61). -/
  | registerWrite (fn : Nat) (bar : Nat) (off : Nat) (bytes : Nat) (v : BitVec 64)
  /-- RINGIDX_WRITE (R62). -/
  | ringidxWrite (fn : Nat) (q : Nat) (v : BitVec 64)
  /-- QUEUE_ENABLE (R62). -/
  | queueEnable (fn : Nat) (q : Nat)
  /-- QUEUE_DISABLE (R61). -/
  | queueDisable (fn : Nat) (q : Nat)
  /-- QUEUE_RESET (R62). -/
  | queueReset (fn : Nat) (q : Nat)
  /-- SCRING_CONFIG (R77). -/
  | scringConfig (fn : Nat) (isLog : Bool) (v : BitVec 64)
  /-- SCHEAD_WRITE (R77). -/
  | scheadWrite (fn : Nat) (v : BitVec 64)
  /-- SYSCALL_REPLY (R76). -/
  | syscallReply (fn : Nat) (v : BitVec 64)
  /-- HOST_WINDOW_ACCESS (R58). -/
  | hostWindowAccess (fn : Nat) (off : Nat) (wr : Bool) (bytes : Nat) (v : BitVec 64)
  /-- ADMIT_ENTRY (R63). -/
  | admitEntry (fn : Nat) (q : Nat × Bool)
  /-- STAMP_RETRY (R63). -/
  | stampRetry (fn : Nat) (q : Nat × Bool)
  /-- ENTRY_START (R81). -/
  | entryStart (fn : Nat) (q : Nat) (seq : Nat)
  /-- IMAGE_LOAD (R438). -/
  | imageLoad (fn : Nat) (q : Nat) (seq : Nat)
  /-- ENTRY_COMPLETE (R66). -/
  | entryComplete (fn : Nat) (q : Nat) (seq : Nat)
  /-- BOOT (R30). -/
  | boot
  /-- SUPPLY_FAULT (R27). -/
  | supplyFault (volts : Nat)
  /-- THERMAL_THROTTLE (R26). -/
  | thermalThrottle (cl : Nat) (temp : Nat)
  /-- THERMAL_SHUTDOWN (R26). -/
  | thermalShutdown (cl : Nat) (temp : Nat)
  /-- POWER_LIMIT_UNMET (R25). -/
  | powerLimitUnmet (watts : Nat)
  /-- POWER_LIMIT_MET (R25). -/
  | powerLimitMet (watts : Nat)
  /-- CLOCK_STEP (R25). -/
  | clockStep (cl : Nat) (up : Bool)
  /-- DIE_RESET_COMPLETE (R207). -/
  | dieResetComplete (die : BitVec 2)
  /-- PACKAGE_RESET_COMPLETE (R29). -/
  | packageResetComplete
  /-- SLACK_TICK (R36). -/
  | slackTick
  /-- PACKET_LATE (R38). -/
  | packetLate (queue : Nat) (idx : Nat)
  /-- ROUTER_FORWARD (R49). -/
  | routerForward (router : Nat) (out : Nat) (net : Nat)
  /-- ROUTER_IDLE (R51). -/
  | routerIdle (router : Nat)
  /-- ROUTER_POWERDOWN_DONE (R51). -/
  | routerPowerdownDone (router : Nat)
  /-- TOKEN_AT_WRITER (R47). -/
  | tokenAtWriter (chan : Nat) (w : Nat)
  /-- TOKEN_AT_HOME (R47). -/
  | tokenAtHome (chan : Nat)
  /-- BRIDGE_FORWARD (R13). -/
  | bridgeForward (die : Nat) (port : Nat) (chan : Nat)
  /-- DIRECT_PATH_FORWARD (R45). -/
  | directPathForward (die : Nat) (inn : Nat) (port : Nat)
  /-- HOME_ENQUEUE (R52). -/
  | homeEnqueue (unit : Nat) (net : Nat)
  /-- HOME_PERFORM (R7). -/
  | homePerform (unit : Nat)
  /-- REPLAY_TIMEOUT (R210). -/
  | replayTimeout (unit : Nat)
  /-- REPLY_DELIVER (R95). -/
  | replyDeliver (unit : Nat)
  /-- LATE_TRAP (R43). -/
  | lateTrap (core : Nat) (slot : Nat)
  /-- ITERATIVE_UNIT_DONE (R279). -/
  | iterativeUnitDone (core : Nat)
  /-- VECTOR_DEFERRED_RESULT (R327). -/
  | vectorDeferredResult (core : Nat) (slot : Nat)
  /-- FABRIC_TRANSMIT (R33). -/
  | fabricTransmit (port : Nat)
  /-- CODEWORD_RECEIVE (R19). -/
  | codewordReceive (port : Nat) (sent : List (BitVec 256)) (got : List (BitVec 256) × BitVec 20) (errors : Nat)
  /-- FLIT_RECEIVE (R20). -/
  | flitReceive (port : Nat) (flit : BitVec 256)
  /-- ACK_RECEIVE (R20). -/
  | ackReceive (port : Nat) (flit : BitVec 256)
  /-- NAK_RECEIVE (R20). -/
  | nakReceive (port : Nat) (flit : BitVec 256)
  /-- TRAINING_FLIT_RECEIVE (R22). -/
  | trainingFlitReceive (port : Nat) (flit : BitVec 256)
  /-- LOCK_HOLD_EXPIRY (R21). -/
  | lockHoldExpiry (port : Nat) (locked : BitVec 4)
  /-- MARKERS_ALIGNED (R21). -/
  | markersAligned (mark : Nat × BitVec 20)
  /-- FEC_CODEWORD_COUNT (R21). -/
  | fecCodewordCount (port : Nat)
  /-- TRAINING_TIMEOUT (R21). -/
  | trainingTimeout (port : Nat)
  /-- FEC_LOCK_LOSS (R23). -/
  | fecLockLoss (port : Nat)
  /-- NAK_RATE_EXCEEDED (R23). -/
  | nakRateExceeded (port : Nat)
  /-- FIBRE_LOCK_LOSS (R23). -/
  | fibreLockLoss (port : Nat) (fibre : Nat)
  /-- SLOT_TAKE (R88). -/
  | slotTake (core : Nat) (slot : Nat)
  /-- STEAL_SEARCH (R91). -/
  | stealSearch (core : Nat)
  /-- STEAL_REQUEST (R90). -/
  | stealRequest (core : Nat)
  /-- STEAL_REPLY (R91). -/
  | stealReply (core : Nat)
  /-- ENQUEUE_CONTINUATION (R88). -/
  | enqueueContinuation (cl : Nat)
  /-- INJECTION_AGE (R88). -/
  | injectionAge (cl : Nat) (idx : Nat)
  /-- URGENT_ARRIVAL (R99). -/
  | urgentArrival (post : Nat × List (BitVec 64))
  /-- EVICT_WRITE (R199). -/
  | evictWrite (core : Nat) (slot : Nat)
  /-- NPOST_WRITE (R68). -/
  | npostWrite (cl : Nat)
  /-- NOTICE_DELIVER (R68). -/
  | noticeDeliver (cl : Nat)
  /-- TRANSLATION_REQUEST (R153). -/
  | translationRequest (cl : Nat)
  /-- TRANSLATION_REPLY (R154). -/
  | translationReply (core : Nat)
  /-- TLB_SHOOTDOWN (R155). -/
  | tlbShootdown (core : Nat)
  /-- CLB_SHOOTDOWN (R169). -/
  | clbShootdown (core : Nat)
  /-- SYNC_ACCESS_AT_OWNER (R308). -/
  | syncAccessAtOwner (unit : Nat)
  /-- SYNC_DEADLINE (R311). -/
  | syncDeadline (unit : Nat) (idx : Nat)
  /-- WITHDRAWAL (R311). -/
  | withdrawal (unit : Nat)
  /-- BAR_ARRIVAL (R318). -/
  | barArrival (unit : Nat)
  /-- BAR_DEADLINE (R318). -/
  | barDeadline (unit : Nat) (idx : Nat)
  /-- PARK_AT_HOME (R356). -/
  | parkAtHome (unit : Nat)
  /-- PARK_DEADLINE (R356). -/
  | parkDeadline (unit : Nat) (idx : Nat)
  /-- LNEXT_CLAIM (R93). -/
  | lnextClaim (unit : Nat)
  /-- JOIN_UPDATE (R354). -/
  | joinUpdate (unit : Nat)
  /-- RESUME_CELL_OP (R357). -/
  | resumeCellOp (unit : Nat)
  /-- MESSAGE_ARRIVAL (R124). -/
  | messageArrival (core : Nat)
  /-- QUEUE_ELEMENT_ARRIVAL (R320). -/
  | queueElementArrival (core : Nat)
  /-- LINK_ELEMENT_TRANSFER (R134). -/
  | linkElementTransfer (core : Nat) (link : Nat)
  /-- PORT_READ_TIMEOUT (R125). -/
  | portReadTimeout (core : Nat) (slot : Nat)
  /-- FORWARD_PACKET (R202). -/
  | forwardPacket (core : Nat)
  /-- FORWARD_EXPIRY (R202). -/
  | forwardExpiry (core : Nat) (idx : Nat)
  /-- MIGRATION_ARRIVAL (R201). -/
  | migrationArrival (core : Nat)
  /-- BEAD_REQUEST (R109). -/
  | beadRequest (unit : Nat)
  /-- SPARK_CLAIM (R114). -/
  | sparkClaim (unit : Nat)
  /-- BEAD_COMPLETION (R109). -/
  | beadCompletion (unit : Nat)
  /-- BEAD_COMPLETION_POISONED (R109). -/
  | beadCompletionPoisoned (unit : Nat)
  /-- BEAD_ENGINE_FAULT (R109). -/
  | beadEngineFault (unit : Nat)
  /-- OPERAND_FAILURE (R112). -/
  | operandFailure (unit : Nat)
  /-- DEATH_NOTICE (R115). -/
  | deathNotice (unit : Nat)
  /-- WAITER_DEADLINE (R110). -/
  | waiterDeadline (cl : Nat) (idx : Nat)
  /-- WAKE_DELIVER (R363). -/
  | wakeDeliver (core : Nat)
  /-- WFC_EDGE (R108). -/
  | wfcEdge (cl : Nat)
  /-- WFC_QUERY (R108). -/
  | wfcQuery (cl : Nat)
  /-- WFC_QUERY_REPLY (R108). -/
  | wfcQueryReply (cl : Nat)
  /-- TILE_EVALUATE (R113). -/
  | tileEvaluate (cl : Nat)
  /-- OPERAND_REPLY (R113). -/
  | operandReply (cl : Nat)
  /-- STAGING_COMPLETE (R371). -/
  | stagingComplete (cl : Nat) (block : Nat × Nat)
  /-- TILE_DISPATCH (R113). -/
  | tileDispatch (cl : Nat)
  /-- TASK_COMPLETE (R373). -/
  | taskComplete (cl : Nat) (engine : Nat)
  /-- TASK_ENGINE_FAULT (R113). -/
  | taskEngineFault (cl : Nat) (engine : Nat) (cause : BitVec 8)
  /-- SPARK_TAKE (R114). -/
  | sparkTake (cl : Nat)
  /-- COORD_AT_AGENT (R171). -/
  | coordAtAgent (cl : Nat)
  /-- CINV_RELOAD (R165). -/
  | cinvReload (cl : Nat)
  /-- ENGINE_TICKET_COMPLETE (R142). -/
  | engineTicketComplete (core : Nat) (idx : Nat)
  /-- ROUTE_PERFORM (R214). -/
  | routePerform (die : Nat)
  /-- PSEL_PERFORM (R224). -/
  | pselPerform (die : Nat)
  /-- RQ_OPERATION (R226). -/
  | rqOperation (cl : Nat)
  /-- RQ_COMMIT_DONE (R226). -/
  | rqCommitDone (cl : Nat) (entry : Nat)
  /-- RQGET_TIMEOUT (R226). -/
  | rqgetTimeout (cl : Nat) (idx : Nat)
  /-- CARRY_ARRIVAL (R218). -/
  | carryArrival (cl : Nat)
  /-- CARRY_DEPOSIT_DONE (R218). -/
  | carryDepositDone (cl : Nat)
  /-- CARRY_COUNT_REPLY (R218). -/
  | carryCountReply (cl : Nat)
  /-- CARRY_RETURN (R220). -/
  | carryReturn (core : Nat)
  /-- CORE_PARITY_ERROR (R205). -/
  | coreParityError (core : Nat)
  /-- ADD (R280). -/
  | add (d : BitVec 7) (a : BitVec 7) (b : BitVec 7)
  /-- SUB (R280). -/
  | sub (d : BitVec 7) (a : BitVec 7) (b : BitVec 7)
  /-- AND (R280). -/
  | and (d : BitVec 7) (a : BitVec 7) (b : BitVec 7)
  /-- OR (R280). -/
  | or (d : BitVec 7) (a : BitVec 7) (b : BitVec 7)
  /-- XOR (R280). -/
  | xor (d : BitVec 7) (a : BitVec 7) (b : BitVec 7)
  /-- ANDN (R280). -/
  | andn (d : BitVec 7) (a : BitVec 7) (b : BitVec 7)
  /-- ORN (R280). -/
  | orn (d : BitVec 7) (a : BitVec 7) (b : BitVec 7)
  /-- XNOR (R280). -/
  | xnor (d : BitVec 7) (a : BitVec 7) (b : BitVec 7)
  /-- SLL (R280). -/
  | sll (d : BitVec 7) (a : BitVec 7) (b : BitVec 7)
  /-- SRL (R280). -/
  | srl (d : BitVec 7) (a : BitVec 7) (b : BitVec 7)
  /-- SRA (R280). -/
  | sra (d : BitVec 7) (a : BitVec 7) (b : BitVec 7)
  /-- ROL (R280). -/
  | rol (d : BitVec 7) (a : BitVec 7) (b : BitVec 7)
  /-- ROR (R280). -/
  | ror (d : BitVec 7) (a : BitVec 7) (b : BitVec 7)
  /-- MIN (R280). -/
  | min (d : BitVec 7) (a : BitVec 7) (b : BitVec 7)
  /-- MAX (R280). -/
  | max (d : BitVec 7) (a : BitVec 7) (b : BitVec 7)
  /-- MINN (R280). -/
  | minn (d : BitVec 7) (a : BitVec 7) (b : BitVec 7)
  /-- MAXN (R280). -/
  | maxn (d : BitVec 7) (a : BitVec 7) (b : BitVec 7)
  /-- MUL (R280). -/
  | mul (d : BitVec 7) (a : BitVec 7) (b : BitVec 7)
  /-- MULH (R280). -/
  | mulh (d : BitVec 7) (a : BitVec 7) (b : BitVec 7)
  /-- MULHN (R280). -/
  | mulhn (d : BitVec 7) (a : BitVec 7) (b : BitVec 7)
  /-- MULHSN (R280). -/
  | mulhsn (d : BitVec 7) (a : BitVec 7) (b : BitVec 7)
  /-- DIV (R281). -/
  | div (d : BitVec 7) (a : BitVec 7) (b : BitVec 7)
  /-- DIVN (R281). -/
  | divn (d : BitVec 7) (a : BitVec 7) (b : BitVec 7)
  /-- REM (R281). -/
  | rem (d : BitVec 7) (a : BitVec 7) (b : BitVec 7)
  /-- REMN (R281). -/
  | remn (d : BitVec 7) (a : BitVec 7) (b : BitVec 7)
  /-- CLZ (R280). -/
  | clz (d : BitVec 7) (a : BitVec 7)
  /-- CTZ (R280). -/
  | ctz (d : BitVec 7) (a : BitVec 7)
  /-- POPC (R280). -/
  | popc (d : BitVec 7) (a : BitVec 7)
  /-- SEXT (R280). -/
  | sext (d : BitVec 7) (a : BitVec 7) (b : BitVec 7)
  /-- ZEXT (R280). -/
  | zext (d : BitVec 7) (a : BitVec 7) (b : BitVec 7)
  /-- ADDW (R280). -/
  | addw (d : BitVec 7) (a : BitVec 7) (b : BitVec 7)
  /-- SUBW (R280). -/
  | subw (d : BitVec 7) (a : BitVec 7) (b : BitVec 7)
  /-- BFX (R282). -/
  | bfx (d : BitVec 7) (a : BitVec 7) (b : BitVec 7)
  /-- BFXN (R282). -/
  | bfxn (d : BitVec 7) (a : BitVec 7) (b : BitVec 7)
  /-- BFI (R282). -/
  | bfi (d : BitVec 7) (a : BitVec 7) (b : BitVec 7)
  /-- SHADD1 (R282). -/
  | shadd1 (d : BitVec 7) (a : BitVec 7) (b : BitVec 7)
  /-- SHADD2 (R282). -/
  | shadd2 (d : BitVec 7) (a : BitVec 7) (b : BitVec 7)
  /-- SHADD3 (R282). -/
  | shadd3 (d : BitVec 7) (a : BitVec 7) (b : BitVec 7)
  /-- HASH (R282). -/
  | hash (d : BitVec 7) (a : BitVec 7) (b : BitVec 7)
  /-- RMAP (R283). -/
  | rmap (d : BitVec 7) (a : BitVec 7) (b : BitVec 7)
  /-- CLIN (R284). -/
  | clin (d : BitVec 7) (a : BitVec 7) (b : BitVec 7)
  /-- CUNL (R284). -/
  | cunl (d : BitVec 7) (a : BitVec 7) (b : BitVec 7)
  /-- CMPEQ (R287). -/
  | cmpeq (k : BitVec 3) (a : BitVec 7) (b : BitVec 7)
  /-- CMPNE (R287). -/
  | cmpne (k : BitVec 3) (a : BitVec 7) (b : BitVec 7)
  /-- CMPLT (R287). -/
  | cmplt (k : BitVec 3) (a : BitVec 7) (b : BitVec 7)
  /-- CMPGE (R287). -/
  | cmpge (k : BitVec 3) (a : BitVec 7) (b : BitVec 7)
  /-- CMPLTN (R287). -/
  | cmpltn (k : BitVec 3) (a : BitVec 7) (b : BitVec 7)
  /-- CMPGEN (R287). -/
  | cmpgen (k : BitVec 3) (a : BitVec 7) (b : BitVec 7)
  /-- BTST (R287). -/
  | btst (k : BitVec 3) (a : BitVec 7) (b : BitVec 7)
  /-- SEL (R288). -/
  | sel (d : BitVec 7) (a : BitVec 7) (b : BitVec 7) (k : BitVec 3) (n : BitVec 1)
  /-- CMPEQI (R287). -/
  | cmpeqi (k : BitVec 3) (a : BitVec 7) (i : BitVec 11)
  /-- CMPNEI (R287). -/
  | cmpnei (k : BitVec 3) (a : BitVec 7) (i : BitVec 11)
  /-- CMPLTI (R287). -/
  | cmplti (k : BitVec 3) (a : BitVec 7) (i : BitVec 11)
  /-- CMPGEI (R287). -/
  | cmpgei (k : BitVec 3) (a : BitVec 7) (i : BitVec 11)
  /-- CMPLTNI (R287). -/
  | cmpltni (k : BitVec 3) (a : BitVec 7) (i : BitVec 11)
  /-- CMPGENI (R287). -/
  | cmpgeni (k : BitVec 3) (a : BitVec 7) (i : BitVec 11)
  /-- BTSTI (R287). -/
  | btsti (k : BitVec 3) (a : BitVec 7) (i : BitVec 6)
  /-- BAR (R318). -/
  | bar (a : BitVec 7) (i : BitVec 11)
  /-- ADDPC (R286). -/
  | addpc (d : BitVec 7) (i : BitVec 11)
  /-- ADDI (R285). -/
  | addi (d : BitVec 7) (a : BitVec 7) (i : BitVec 11)
  /-- ANDI (R285). -/
  | andi (d : BitVec 7) (a : BitVec 7) (i : BitVec 11)
  /-- ORI (R285). -/
  | ori (d : BitVec 7) (a : BitVec 7) (i : BitVec 11)
  /-- XORI (R285). -/
  | xori (d : BitVec 7) (a : BitVec 7) (i : BitVec 11)
  /-- SLLI (R285). -/
  | slli (d : BitVec 7) (a : BitVec 7) (s : BitVec 6)
  /-- SRLI (R285). -/
  | srli (d : BitVec 7) (a : BitVec 7) (s : BitVec 6)
  /-- SRAI (R285). -/
  | srai (d : BitVec 7) (a : BitVec 7) (s : BitVec 6)
  /-- ROLI (R285). -/
  | roli (d : BitVec 7) (a : BitVec 7) (s : BitVec 6)
  /-- MULI (R285). -/
  | muli (d : BitVec 7) (a : BitVec 7) (i : BitVec 11)
  /-- LI (R286). -/
  | li (d : BitVec 7) (i : BitVec 18)
  /-- LIS (R286). -/
  | lis (d : BitVec 7) (i : BitVec 18)
  /-- BEQZ (R295). -/
  | beqz (a : BitVec 7) (o : BitVec 15)
  /-- BNEZ (R295). -/
  | bnez (a : BitVec 7) (o : BitVec 15)
  /-- BLTZ (R295). -/
  | bltz (a : BitVec 7) (o : BitVec 15)
  /-- BGEZ (R295). -/
  | bgez (a : BitVec 7) (o : BitVec 15)
  /-- BGTZ (R295). -/
  | bgtz (a : BitVec 7) (o : BitVec 15)
  /-- BLEZ (R295). -/
  | blez (a : BitVec 7) (o : BitVec 15)
  /-- BK (R296). -/
  | bk (k : BitVec 3) (n : BitVec 1) (o : BitVec 18)
  /-- JAL (R297). -/
  | jal (d : BitVec 7) (o : BitVec 18)
  /-- JALR (R297). -/
  | jalr (d : BitVec 7) (a : BitVec 7) (i : BitVec 11)
  /-- LD (R305). -/
  | ld (t : BitVec 7) (a : BitVec 7) (z : BitVec 2) (k : BitVec 2) (o : BitVec 7)
  /-- LDN (R305). -/
  | ldn (t : BitVec 7) (a : BitVec 7) (z : BitVec 2) (k : BitVec 2) (o : BitVec 7)
  /-- ST (R305). -/
  | st (t : BitVec 7) (a : BitVec 7) (z : BitVec 2) (k : BitVec 2) (o : BitVec 7)
  /-- LDX (R306). -/
  | ldx (t : BitVec 7) (a : BitVec 7) (x : BitVec 7) (r : BitVec 2) (z : BitVec 2)
  /-- LDXN (R306). -/
  | ldxn (t : BitVec 7) (a : BitVec 7) (x : BitVec 7) (r : BitVec 2) (z : BitVec 2)
  /-- STX (R306). -/
  | stx (t : BitVec 7) (a : BitVec 7) (x : BitVec 7) (r : BitVec 2) (z : BitVec 2)
  /-- LDS (R308). -/
  | lds (t : BitVec 7) (a : BitVec 7) (z : BitVec 1) (k : BitVec 2) (m : BitVec 1) (o : BitVec 6)
  /-- STS (R308). -/
  | sts (t : BitVec 7) (a : BitVec 7) (z : BitVec 1) (k : BitVec 2) (o : BitVec 6)
  /-- STSF (R308). -/
  | stsf (t : BitVec 7) (a : BitVec 7) (z : BitVec 1) (k : BitVec 2) (o : BitVec 6)
  /-- AMOADD (R312). -/
  | amoadd (d : BitVec 7) (a : BitVec 7) (b : BitVec 7)
  /-- AMOAND (R312). -/
  | amoand (d : BitVec 7) (a : BitVec 7) (b : BitVec 7)
  /-- AMOOR (R312). -/
  | amoor (d : BitVec 7) (a : BitVec 7) (b : BitVec 7)
  /-- AMOXOR (R312). -/
  | amoxor (d : BitVec 7) (a : BitVec 7) (b : BitVec 7)
  /-- AMOMIN (R312). -/
  | amomin (d : BitVec 7) (a : BitVec 7) (b : BitVec 7)
  /-- AMOMAX (R312). -/
  | amomax (d : BitVec 7) (a : BitVec 7) (b : BitVec 7)
  /-- AMOMINN (R312). -/
  | amominn (d : BitVec 7) (a : BitVec 7) (b : BitVec 7)
  /-- AMOMAXN (R312). -/
  | amomaxn (d : BitVec 7) (a : BitVec 7) (b : BitVec 7)
  /-- AMOSWP (R312). -/
  | amoswp (d : BitVec 7) (a : BitVec 7) (b : BitVec 7)
  /-- AMOCAS (R312). -/
  | amocas (d : BitVec 7) (a : BitVec 7) (b : BitVec 7)
  /-- AMOFADDS (R312). -/
  | amofadds (d : BitVec 7) (a : BitVec 7) (b : BitVec 7)
  /-- AMOFADDD (R312). -/
  | amofaddd (d : BitVec 7) (a : BitVec 7) (b : BitVec 7)
  /-- FEQRY (R312). -/
  | feqry (d : BitVec 7) (a : BitVec 7)
  /-- FESET (R312). -/
  | feset (d : BitVec 7) (a : BitVec 7)
  /-- FECLR (R312). -/
  | feclr (d : BitVec 7) (a : BitVec 7)
  /-- FENCE (R314). -/
  | fence (s : BitVec 3) (k : BitVec 4)
  /-- WAIT (R315). -/
  | wait (l : BitVec 6) (s : BitVec 6) (c : BitVec 7) (t : BitVec 6)
  /-- TLWAIT (R316). -/
  | tlwait (a : BitVec 7) (l : BitVec 4)
  /-- VADD (R329). -/
  | vadd (d : BitVec 4) (a : BitVec 4) (b : BitVec 4) (k : BitVec 3) (z : BitVec 1) (l : BitVec 2)
  /-- VSUB (R329). -/
  | vsub (d : BitVec 4) (a : BitVec 4) (b : BitVec 4) (k : BitVec 3) (z : BitVec 1) (l : BitVec 2)
  /-- VMUL (R329). -/
  | vmul (d : BitVec 4) (a : BitVec 4) (b : BitVec 4) (k : BitVec 3) (z : BitVec 1) (l : BitVec 2)
  /-- VMULH (R329). -/
  | vmulh (d : BitVec 4) (a : BitVec 4) (b : BitVec 4) (k : BitVec 3) (z : BitVec 1) (l : BitVec 2)
  /-- VMULHN (R329). -/
  | vmulhn (d : BitVec 4) (a : BitVec 4) (b : BitVec 4) (k : BitVec 3) (z : BitVec 1) (l : BitVec 2)
  /-- VAND (R329). -/
  | vand (d : BitVec 4) (a : BitVec 4) (b : BitVec 4) (k : BitVec 3) (z : BitVec 1) (l : BitVec 2)
  /-- VOR (R329). -/
  | vor (d : BitVec 4) (a : BitVec 4) (b : BitVec 4) (k : BitVec 3) (z : BitVec 1) (l : BitVec 2)
  /-- VXOR (R329). -/
  | vxor (d : BitVec 4) (a : BitVec 4) (b : BitVec 4) (k : BitVec 3) (z : BitVec 1) (l : BitVec 2)
  /-- VSLL (R329). -/
  | vsll (d : BitVec 4) (a : BitVec 4) (b : BitVec 4) (k : BitVec 3) (z : BitVec 1) (l : BitVec 2)
  /-- VSRL (R329). -/
  | vsrl (d : BitVec 4) (a : BitVec 4) (b : BitVec 4) (k : BitVec 3) (z : BitVec 1) (l : BitVec 2)
  /-- VSRA (R329). -/
  | vsra (d : BitVec 4) (a : BitVec 4) (b : BitVec 4) (k : BitVec 3) (z : BitVec 1) (l : BitVec 2)
  /-- VMIN (R329). -/
  | vmin (d : BitVec 4) (a : BitVec 4) (b : BitVec 4) (k : BitVec 3) (z : BitVec 1) (l : BitVec 2)
  /-- VMAX (R329). -/
  | vmax (d : BitVec 4) (a : BitVec 4) (b : BitVec 4) (k : BitVec 3) (z : BitVec 1) (l : BitVec 2)
  /-- VMINN (R329). -/
  | vminn (d : BitVec 4) (a : BitVec 4) (b : BitVec 4) (k : BitVec 3) (z : BitVec 1) (l : BitVec 2)
  /-- VMAXN (R329). -/
  | vmaxn (d : BitVec 4) (a : BitVec 4) (b : BitVec 4) (k : BitVec 3) (z : BitVec 1) (l : BitVec 2)
  /-- VSADD (R329). -/
  | vsadd (d : BitVec 4) (a : BitVec 4) (b : BitVec 4) (k : BitVec 3) (z : BitVec 1) (l : BitVec 2)
  /-- VSSUB (R329). -/
  | vssub (d : BitVec 4) (a : BitVec 4) (b : BitVec 4) (k : BitVec 3) (z : BitVec 1) (l : BitVec 2)
  /-- VSADDN (R329). -/
  | vsaddn (d : BitVec 4) (a : BitVec 4) (b : BitVec 4) (k : BitVec 3) (z : BitVec 1) (l : BitVec 2)
  /-- VSSUBN (R329). -/
  | vssubn (d : BitVec 4) (a : BitVec 4) (b : BitVec 4) (k : BitVec 3) (z : BitVec 1) (l : BitVec 2)
  /-- VABS (R329). -/
  | vabs (d : BitVec 4) (a : BitVec 4) (k : BitVec 3) (z : BitVec 1) (l : BitVec 2)
  /-- VNEG (R329). -/
  | vneg (d : BitVec 4) (a : BitVec 4) (k : BitVec 3) (z : BitVec 1) (l : BitVec 2)
  /-- VMA (R329). -/
  | vma (d : BitVec 4) (a : BitVec 4) (b : BitVec 4) (k : BitVec 3) (z : BitVec 1) (l : BitVec 2)
  /-- VPOPC (R329). -/
  | vpopc (d : BitVec 4) (a : BitVec 4) (k : BitVec 3) (z : BitVec 1) (l : BitVec 2)
  /-- VCLZ (R329). -/
  | vclz (d : BitVec 4) (a : BitVec 4) (k : BitVec 3) (z : BitVec 1) (l : BitVec 2)
  /-- VFADD (R330). -/
  | vfadd (d : BitVec 4) (a : BitVec 4) (b : BitVec 4) (k : BitVec 3) (z : BitVec 1) (l : BitVec 2)
  /-- VFSUB (R330). -/
  | vfsub (d : BitVec 4) (a : BitVec 4) (b : BitVec 4) (k : BitVec 3) (z : BitVec 1) (l : BitVec 2)
  /-- VFMUL (R330). -/
  | vfmul (d : BitVec 4) (a : BitVec 4) (b : BitVec 4) (k : BitVec 3) (z : BitVec 1) (l : BitVec 2)
  /-- VFMA (R330). -/
  | vfma (d : BitVec 4) (a : BitVec 4) (b : BitVec 4) (k : BitVec 3) (z : BitVec 1) (l : BitVec 2)
  /-- VFMIN (R330). -/
  | vfmin (d : BitVec 4) (a : BitVec 4) (b : BitVec 4) (k : BitVec 3) (z : BitVec 1) (l : BitVec 2)
  /-- VFMAX (R330). -/
  | vfmax (d : BitVec 4) (a : BitVec 4) (b : BitVec 4) (k : BitVec 3) (z : BitVec 1) (l : BitVec 2)
  /-- VFDIV (R330). -/
  | vfdiv (d : BitVec 4) (a : BitVec 4) (b : BitVec 4) (k : BitVec 3) (z : BitVec 1) (l : BitVec 2)
  /-- VFSQRT (R330). -/
  | vfsqrt (d : BitVec 4) (a : BitVec 4) (k : BitVec 3) (z : BitVec 1) (l : BitVec 2)
  /-- VFRCP (R331). -/
  | vfrcp (d : BitVec 4) (a : BitVec 4) (k : BitVec 3) (z : BitVec 1) (l : BitVec 2)
  /-- VFRSQ (R331). -/
  | vfrsq (d : BitVec 4) (a : BitVec 4) (k : BitVec 3) (z : BitVec 1) (l : BitVec 2)
  /-- VFEXP2 (R331). -/
  | vfexp2 (d : BitVec 4) (a : BitVec 4) (k : BitVec 3) (z : BitVec 1) (l : BitVec 2)
  /-- VFLOG2 (R331). -/
  | vflog2 (d : BitVec 4) (a : BitVec 4) (k : BitVec 3) (z : BitVec 1) (l : BitVec 2)
  /-- VFABS (R330). -/
  | vfabs (d : BitVec 4) (a : BitVec 4) (k : BitVec 3) (z : BitVec 1) (l : BitVec 2)
  /-- VFNEG (R330). -/
  | vfneg (d : BitVec 4) (a : BitVec 4) (k : BitVec 3) (z : BitVec 1) (l : BitVec 2)
  /-- VCMPEQ (R332). -/
  | vcmpeq (p : BitVec 3) (a : BitVec 4) (b : BitVec 4) (k : BitVec 3) (z : BitVec 1) (l : BitVec 2)
  /-- VCMPNE (R332). -/
  | vcmpne (p : BitVec 3) (a : BitVec 4) (b : BitVec 4) (k : BitVec 3) (z : BitVec 1) (l : BitVec 2)
  /-- VCMPLT (R332). -/
  | vcmplt (p : BitVec 3) (a : BitVec 4) (b : BitVec 4) (k : BitVec 3) (z : BitVec 1) (l : BitVec 2)
  /-- VCMPGE (R332). -/
  | vcmpge (p : BitVec 3) (a : BitVec 4) (b : BitVec 4) (k : BitVec 3) (z : BitVec 1) (l : BitVec 2)
  /-- VCMPLTN (R332). -/
  | vcmpltn (p : BitVec 3) (a : BitVec 4) (b : BitVec 4) (k : BitVec 3) (z : BitVec 1) (l : BitVec 2)
  /-- VCMPGEN (R332). -/
  | vcmpgen (p : BitVec 3) (a : BitVec 4) (b : BitVec 4) (k : BitVec 3) (z : BitVec 1) (l : BitVec 2)
  /-- VFCMPEQ (R332). -/
  | vfcmpeq (p : BitVec 3) (a : BitVec 4) (b : BitVec 4) (k : BitVec 3) (z : BitVec 1) (l : BitVec 2)
  /-- VFCMPLT (R332). -/
  | vfcmplt (p : BitVec 3) (a : BitVec 4) (b : BitVec 4) (k : BitVec 3) (z : BitVec 1) (l : BitVec 2)
  /-- VFCMPLE (R332). -/
  | vfcmple (p : BitVec 3) (a : BitVec 4) (b : BitVec 4) (k : BitVec 3) (z : BitVec 1) (l : BitVec 2)
  /-- VFCMPUN (R332). -/
  | vfcmpun (p : BitVec 3) (a : BitVec 4) (b : BitVec 4) (k : BitVec 3) (z : BitVec 1) (l : BitVec 2)
  /-- VSEL (R333). -/
  | vsel (d : BitVec 4) (a : BitVec 4) (b : BitVec 4) (k : BitVec 3) (l : BitVec 2)
  /-- VPERM (R333). -/
  | vperm (d : BitVec 4) (a : BitVec 4) (b : BitVec 4) (k : BitVec 3) (z : BitVec 1) (l : BitVec 2)
  /-- VSLIDEUP (R333). -/
  | vslideup (d : BitVec 4) (a : BitVec 4) (b : BitVec 4) (k : BitVec 3) (z : BitVec 1) (l : BitVec 2)
  /-- VSLIDEDN (R333). -/
  | vslidedn (d : BitVec 4) (a : BitVec 4) (b : BitVec 4) (k : BitVec 3) (z : BitVec 1) (l : BitVec 2)
  /-- VCOMPRESS (R333). -/
  | vcompress (d : BitVec 4) (a : BitVec 4) (k : BitVec 3) (l : BitVec 2)
  /-- VEXPAND (R333). -/
  | vexpand (d : BitVec 4) (a : BitVec 4) (k : BitVec 3) (z : BitVec 1) (l : BitVec 2)
  /-- VMOV (R333). -/
  | vmov (d : BitVec 4) (a : BitVec 4) (k : BitVec 3) (z : BitVec 1) (l : BitVec 2)
  /-- VREDADD (R334). -/
  | vredadd (d : BitVec 4) (a : BitVec 4) (k : BitVec 3) (z : BitVec 1) (l : BitVec 2)
  /-- VREDMIN (R334). -/
  | vredmin (d : BitVec 4) (a : BitVec 4) (k : BitVec 3) (z : BitVec 1) (l : BitVec 2)
  /-- VREDMAX (R334). -/
  | vredmax (d : BitVec 4) (a : BitVec 4) (k : BitVec 3) (z : BitVec 1) (l : BitVec 2)
  /-- VREDMINN (R334). -/
  | vredminn (d : BitVec 4) (a : BitVec 4) (k : BitVec 3) (z : BitVec 1) (l : BitVec 2)
  /-- VREDMAXN (R334). -/
  | vredmaxn (d : BitVec 4) (a : BitVec 4) (k : BitVec 3) (z : BitVec 1) (l : BitVec 2)
  /-- VREDFADD (R335). -/
  | vredfadd (d : BitVec 4) (a : BitVec 4) (k : BitVec 3) (z : BitVec 1) (l : BitVec 2)
  /-- VREDFMIN (R334). -/
  | vredfmin (d : BitVec 4) (a : BitVec 4) (k : BitVec 3) (z : BitVec 1) (l : BitVec 2)
  /-- VREDFMAX (R334). -/
  | vredfmax (d : BitVec 4) (a : BitVec 4) (k : BitVec 3) (z : BitVec 1) (l : BitVec 2)
  /-- VSCAN (R334). -/
  | vscan (d : BitVec 4) (a : BitVec 4) (k : BitVec 3) (z : BitVec 1) (l : BitVec 2)
  /-- VFSCAN (R335). -/
  | vfscan (d : BitVec 4) (a : BitVec 4) (k : BitVec 3) (z : BitVec 1) (l : BitVec 2)
  /-- VDOT (R336). -/
  | vdot (d : BitVec 4) (a : BitVec 4) (b : BitVec 4) (k : BitVec 3) (z : BitVec 1) (l : BitVec 1)
  /-- VCVTF2B (R338). -/
  | vcvtf2b (d : BitVec 4) (a : BitVec 4) (s : BitVec 4) (k : BitVec 3) (z : BitVec 1)
  /-- VCVTB2F (R338). -/
  | vcvtb2f (d : BitVec 4) (a : BitVec 4) (s : BitVec 4) (k : BitVec 3) (z : BitVec 1)
  /-- VCVTF2H (R338). -/
  | vcvtf2h (d : BitVec 4) (a : BitVec 4) (s : BitVec 4) (k : BitVec 3) (z : BitVec 1)
  /-- VCVTH2F (R338). -/
  | vcvth2f (d : BitVec 4) (a : BitVec 4) (s : BitVec 4) (k : BitVec 3) (z : BitVec 1)
  /-- VCVTF2E4 (R338). -/
  | vcvtf2e4 (d : BitVec 4) (a : BitVec 4) (s : BitVec 4) (k : BitVec 3) (z : BitVec 1)
  /-- VCVTE42F (R338). -/
  | vcvte42f (d : BitVec 4) (a : BitVec 4) (s : BitVec 4) (k : BitVec 3) (z : BitVec 1)
  /-- VCVTF2E5 (R338). -/
  | vcvtf2e5 (d : BitVec 4) (a : BitVec 4) (s : BitVec 4) (k : BitVec 3) (z : BitVec 1)
  /-- VCVTE52F (R338). -/
  | vcvte52f (d : BitVec 4) (a : BitVec 4) (s : BitVec 4) (k : BitVec 3) (z : BitVec 1)
  /-- VCVTF2W (R338). -/
  | vcvtf2w (d : BitVec 4) (a : BitVec 4) (s : BitVec 4) (k : BitVec 3) (z : BitVec 1)
  /-- VCVTW2F (R338). -/
  | vcvtw2f (d : BitVec 4) (a : BitVec 4) (s : BitVec 4) (k : BitVec 3) (z : BitVec 1)
  /-- VCVTW2I8 (R338). -/
  | vcvtw2i8 (d : BitVec 4) (a : BitVec 4) (s : BitVec 4) (k : BitVec 3) (z : BitVec 1)
  /-- VCVTI82W (R338). -/
  | vcvti82w (d : BitVec 4) (a : BitVec 4) (s : BitVec 4) (k : BitVec 3) (z : BitVec 1)
  /-- VCVTW2I4 (R338). -/
  | vcvtw2i4 (d : BitVec 4) (a : BitVec 4) (s : BitVec 4) (k : BitVec 3) (z : BitVec 1)
  /-- VCVTI42W (R338). -/
  | vcvti42w (d : BitVec 4) (a : BitVec 4) (s : BitVec 4) (k : BitVec 3) (z : BitVec 1)
  /-- VCVTD2F (R338). -/
  | vcvtd2f (d : BitVec 4) (a : BitVec 4) (s : BitVec 4) (k : BitVec 3) (z : BitVec 1)
  /-- VCVTF2D (R338). -/
  | vcvtf2d (d : BitVec 4) (a : BitVec 4) (s : BitVec 4) (k : BitVec 3) (z : BitVec 1)
  /-- VQNT (R339). -/
  | vqnt (d : BitVec 4) (a : BitVec 4) (q : BitVec 4) (k : BitVec 3) (l : BitVec 2)
  /-- VDQNT (R340). -/
  | vdqnt (d : BitVec 4) (a : BitVec 4) (q : BitVec 4) (k : BitVec 3) (z : BitVec 1) (l : BitVec 2)
  /-- BADDQ (R341). -/
  | baddq (d : BitVec 4) (a : BitVec 4) (b : BitVec 4) (l : BitVec 1)
  /-- VBSC (R343). -/
  | vbsc (d : BitVec 4) (a : BitVec 4) (b : BitVec 4) (k : BitVec 3) (z : BitVec 1) (l : BitVec 2)
  /-- VBEXP (R342). -/
  | vbexp (d : BitVec 4) (a : BitVec 4) (b : BitVec 4) (k : BitVec 3) (l : BitVec 2)
  /-- VLD (R344). -/
  | vld (v : BitVec 4) (a : BitVec 7) (k : BitVec 3) (l : BitVec 2) (s : BitVec 2)
  /-- VST (R344). -/
  | vst (v : BitVec 4) (a : BitVec 7) (k : BitVec 3) (l : BitVec 2) (s : BitVec 2)
  /-- VLDS (R344). -/
  | vlds (v : BitVec 4) (a : BitVec 7) (b : BitVec 4) (k : BitVec 3) (l : BitVec 2) (s : BitVec 2)
  /-- VSTS (R344). -/
  | vsts (v : BitVec 4) (a : BitVec 7) (b : BitVec 4) (k : BitVec 3) (l : BitVec 2) (s : BitVec 2)
  /-- VGATH (R344). -/
  | vgath (v : BitVec 4) (a : BitVec 7) (b : BitVec 4) (k : BitVec 3) (l : BitVec 2) (s : BitVec 2)
  /-- VSCAT (R344). -/
  | vscat (v : BitVec 4) (a : BitVec 7) (b : BitVec 4) (k : BitVec 3) (l : BitVec 2) (s : BitVec 2)
  /-- VLDF (R348). -/
  | vldf (v : BitVec 4) (a : BitVec 7) (k : BitVec 3) (l : BitVec 2) (s : BitVec 2)
  /-- KAND (R289). -/
  | kand (d : BitVec 3) (a : BitVec 3) (b : BitVec 3)
  /-- KOR (R289). -/
  | kor (d : BitVec 3) (a : BitVec 3) (b : BitVec 3)
  /-- KXOR (R289). -/
  | kxor (d : BitVec 3) (a : BitVec 3) (b : BitVec 3)
  /-- KANDN (R289). -/
  | kandn (d : BitVec 3) (a : BitVec 3) (b : BitVec 3)
  /-- KNOT (R289). -/
  | knot (d : BitVec 3) (a : BitVec 3)
  /-- KMOV (R289). -/
  | kmov (d : BitVec 3) (a : BitVec 3)
  /-- KPOPC (R289). -/
  | kpopc (d : BitVec 7) (a : BitVec 3)
  /-- KFIRST (R289). -/
  | kfirst (d : BitVec 7) (a : BitVec 3)
  /-- KFROMG (R289). -/
  | kfromg (d : BitVec 3) (a : BitVec 7)
  /-- KTOG (R289). -/
  | ktog (d : BitVec 7) (a : BitVec 3)
  /-- FADD_F32 (R291). -/
  | faddF32 (d : BitVec 7) (a : BitVec 7) (b : BitVec 7)
  /-- FSUB_F32 (R291). -/
  | fsubF32 (d : BitVec 7) (a : BitVec 7) (b : BitVec 7)
  /-- FMUL_F32 (R291). -/
  | fmulF32 (d : BitVec 7) (a : BitVec 7) (b : BitVec 7)
  /-- FDIV_F32 (R291). -/
  | fdivF32 (d : BitVec 7) (a : BitVec 7) (b : BitVec 7)
  /-- FSQRT_F32 (R291). -/
  | fsqrtF32 (d : BitVec 7) (a : BitVec 7)
  /-- FMIN_F32 (R292). -/
  | fminF32 (d : BitVec 7) (a : BitVec 7) (b : BitVec 7)
  /-- FMAX_F32 (R292). -/
  | fmaxF32 (d : BitVec 7) (a : BitVec 7) (b : BitVec 7)
  /-- FMA_F32 (R291). -/
  | fmaF32 (d : BitVec 7) (a : BitVec 7) (b : BitVec 7)
  /-- FABS_F32 (R292). -/
  | fabsF32 (d : BitVec 7) (a : BitVec 7)
  /-- FNEG_F32 (R292). -/
  | fnegF32 (d : BitVec 7) (a : BitVec 7)
  /-- FCLASS_F32 (R292). -/
  | fclassF32 (d : BitVec 7) (a : BitVec 7)
  /-- FADD_F64 (R291). -/
  | faddF64 (d : BitVec 7) (a : BitVec 7) (b : BitVec 7)
  /-- FSUB_F64 (R291). -/
  | fsubF64 (d : BitVec 7) (a : BitVec 7) (b : BitVec 7)
  /-- FMUL_F64 (R291). -/
  | fmulF64 (d : BitVec 7) (a : BitVec 7) (b : BitVec 7)
  /-- FDIV_F64 (R291). -/
  | fdivF64 (d : BitVec 7) (a : BitVec 7) (b : BitVec 7)
  /-- FSQRT_F64 (R291). -/
  | fsqrtF64 (d : BitVec 7) (a : BitVec 7)
  /-- FMIN_F64 (R292). -/
  | fminF64 (d : BitVec 7) (a : BitVec 7) (b : BitVec 7)
  /-- FMAX_F64 (R292). -/
  | fmaxF64 (d : BitVec 7) (a : BitVec 7) (b : BitVec 7)
  /-- FMA_F64 (R291). -/
  | fmaF64 (d : BitVec 7) (a : BitVec 7) (b : BitVec 7)
  /-- FABS_F64 (R292). -/
  | fabsF64 (d : BitVec 7) (a : BitVec 7)
  /-- FNEG_F64 (R292). -/
  | fnegF64 (d : BitVec 7) (a : BitVec 7)
  /-- FCLASS_F64 (R292). -/
  | fclassF64 (d : BitVec 7) (a : BitVec 7)
  /-- FCMPEQ (R293). -/
  | fcmpeq (k : BitVec 3) (a : BitVec 7) (b : BitVec 7) (p : BitVec 1)
  /-- FCMPLT (R293). -/
  | fcmplt (k : BitVec 3) (a : BitVec 7) (b : BitVec 7) (p : BitVec 1)
  /-- FCMPLE (R293). -/
  | fcmple (k : BitVec 3) (a : BitVec 7) (b : BitVec 7) (p : BitVec 1)
  /-- FCMPUN (R293). -/
  | fcmpun (k : BitVec 3) (a : BitVec 7) (b : BitVec 7) (p : BitVec 1)
  /-- FCMPNE (R293). -/
  | fcmpne (k : BitVec 3) (a : BitVec 7) (b : BitVec 7) (p : BitVec 1)
  /-- CVTF2D (R294). -/
  | cvtf2d (d : BitVec 7) (a : BitVec 7)
  /-- CVTD2F (R294). -/
  | cvtd2f (d : BitVec 7) (a : BitVec 7)
  /-- CVTF2W (R294). -/
  | cvtf2w (d : BitVec 7) (a : BitVec 7)
  /-- CVTF2L (R294). -/
  | cvtf2l (d : BitVec 7) (a : BitVec 7)
  /-- CVTD2W (R294). -/
  | cvtd2w (d : BitVec 7) (a : BitVec 7)
  /-- CVTD2L (R294). -/
  | cvtd2l (d : BitVec 7) (a : BitVec 7)
  /-- CVTW2F (R294). -/
  | cvtw2f (d : BitVec 7) (a : BitVec 7)
  /-- CVTL2F (R294). -/
  | cvtl2f (d : BitVec 7) (a : BitVec 7)
  /-- CVTW2D (R294). -/
  | cvtw2d (d : BitVec 7) (a : BitVec 7)
  /-- CVTL2D (R294). -/
  | cvtl2d (d : BitVec 7) (a : BitVec 7)
  /-- CVTF2B (R294). -/
  | cvtf2b (d : BitVec 7) (a : BitVec 7)
  /-- CVTB2F (R294). -/
  | cvtb2f (d : BitVec 7) (a : BitVec 7)
  /-- CVTF2H (R294). -/
  | cvtf2h (d : BitVec 7) (a : BitVec 7)
  /-- CVTH2F (R294). -/
  | cvth2f (d : BitVec 7) (a : BitVec 7)
  /-- VBCAST (R349). -/
  | vbcast (v : BitVec 4) (a : BitVec 7) (b : BitVec 7)
  /-- VEXTR (R349). -/
  | vextr (d : BitVec 7) (v : BitVec 4) (b : BitVec 7)
  /-- VINS (R349). -/
  | vins (v : BitVec 4) (a : BitVec 7) (b : BitVec 7)
  /-- VIOTA (R349). -/
  | viota (v : BitVec 4) (a : BitVec 7) (b : BitVec 7)
  /-- CLD (R381). -/
  | cld (d : BitVec 7) (a : BitVec 7) (b : BitVec 7)
  /-- CST (R381). -/
  | cst (d : BitVec 7) (a : BitVec 7) (b : BitVec 7)
  /-- CADD (R381). -/
  | cadd (d : BitVec 7) (a : BitVec 7) (b : BitVec 7)
  /-- CNEXT (R175). -/
  | cnext (d : BitVec 7) (a : BitVec 7) (b : BitVec 7)
  /-- CDEL (R381). -/
  | cdel (d : BitVec 7) (a : BitVec 7) (b : BitVec 7)
  /-- CALLOC (R381). -/
  | calloc (d : BitVec 7) (a : BitVec 7) (b : BitVec 7)
  /-- CFREE (R172). -/
  | cfree (d : BitVec 7) (a : BitVec 7) (b : BitVec 7)
  /-- CINV (R382). -/
  | cinv (a : BitVec 7)
  /-- CQRY (R381). -/
  | cqry (d : BitVec 7) (a : BitVec 7) (b : BitVec 7)
  /-- SPAWN (R353). -/
  | spawn (a : BitVec 7) (b : BitVec 7)
  /-- SYNC (R354). -/
  | sync
  /-- RETC (R354). -/
  | retc
  /-- YIELD (R355). -/
  | yield
  /-- PARK (R356). -/
  | park (a : BitVec 7) (b : BitVec 7)
  /-- TNEW (R358). -/
  | tnew (a : BitVec 7) (b : BitVec 7)
  /-- TEXIT (R358). -/
  | texit
  /-- SUSP (R357). -/
  | susp (a : BitVec 7)
  /-- RESUME (R357). -/
  | resume (d : BitVec 7) (a : BitVec 7) (b : BitVec 7)
  /-- LSETUP (R359). -/
  | lsetup (a : BitVec 7)
  /-- LNEXT (R359). -/
  | lnext (d : BitVec 7) (a : BitVec 7)
  /-- MIGR (R218). -/
  | migr (d : BitVec 7) (a : BitVec 7) (b : BitVec 7)
  /-- MRET (R220). -/
  | mret (a : BitVec 7) (b : BitVec 7)
  /-- SUSPEND (R362). -/
  | suspend (d : BitVec 7) (a : BitVec 7)
  /-- FORCE (R363). -/
  | force (d : BitVec 7) (a : BitVec 7)
  /-- SPARK (R364). -/
  | spark (a : BitVec 7)
  /-- HWAIT (R363). -/
  | hwait (d : BitVec 7) (a : BitVec 7)
  /-- HSTAT (R365). -/
  | hstat (d : BitVec 7) (a : BitVec 7)
  /-- HBIND (R365). -/
  | hbind (a : BitVec 7) (b : BitVec 7)
  /-- HDROP (R365). -/
  | hdrop (a : BitVec 7)
  /-- TENQ (R362). -/
  | tenq (d : BitVec 7) (a : BitVec 7)
  /-- MPROG (R366). -/
  | mprog (a : BitVec 7) (b : BitVec 7)
  /-- CPY (R389). -/
  | cpy (d : BitVec 7) (a : BitVec 7) (b : BitVec 7)
  /-- PLANE (R390). -/
  | plane (d : BitVec 7) (a : BitVec 7) (b : BitVec 7)
  /-- DENSE (R392). -/
  | dense (d : BitVec 7) (a : BitVec 7) (b : BitVec 7)
  /-- FILL (R391). -/
  | fill (d : BitVec 7) (a : BitVec 7)
  /-- ROUTE (R393). -/
  | route (d : BitVec 7) (a : BitVec 7)
  /-- PSEL (R393). -/
  | psel (d : BitVec 7) (a : BitVec 7)
  /-- RQINIT (R393). -/
  | rqinit (d : BitVec 7) (a : BitVec 7) (b : BitVec 7)
  /-- RQGET (R393). -/
  | rqget (d : BitVec 7) (a : BitVec 7)
  /-- RQDONE (R393). -/
  | rqdone (d : BitVec 7) (a : BitVec 7) (b : BitVec 7)
  /-- SEND (R320). -/
  | send (d : BitVec 7) (a : BitVec 7) (b : BitVec 7)
  /-- QCFG (R321). -/
  | qcfg (d : BitVec 7) (a : BitVec 7) (b : BitVec 7)
  /-- QCTL (R320). -/
  | qctl (d : BitVec 7) (a : BitVec 7) (b : BitVec 7)
  /-- QHND (R322). -/
  | qhnd (d : BitVec 7) (a : BitVec 7) (b : BitVec 7)
  /-- QRET (R322). -/
  | qret
  /-- QSTAT (R323). -/
  | qstat (d : BitVec 7) (a : BitVec 7)
  /-- CSRRD (R394). -/
  | csrrd (d : BitVec 7) (c : BitVec 11)
  /-- CSRWR (R394). -/
  | csrwr (d : BitVec 7) (a : BitVec 7) (c : BitVec 11)
  /-- CSRSET (R394). -/
  | csrset (d : BitVec 7) (a : BitVec 7) (c : BitVec 11)
  /-- TRAP (R395). -/
  | trap (a : BitVec 7)
  /-- SYSCALL (R76). -/
  | syscall
  /-- ERET (R395). -/
  | eret
  /-- BRK (R395). -/
  | brk
  /-- HALT (R395). -/
  | halt
  /-- FEAT (R396). -/
  | feat (d : BitVec 7) (a : BitVec 7)
  /-- TLBW (R397). -/
  | tlbw (a : BitVec 7) (b : BitVec 7)
  /-- TLBI (R397). -/
  | tlbi (d : BitVec 7) (a : BitVec 7) (b : BitVec 7)
  /-- FLUSHI (R398). -/
  | flushi
  /-- UPRET (R395). -/
  | upret
  /-- SEQQ (R399). -/
  | seqq (d : BitVec 7) (a : BitVec 7)
  /-- ADD_FH (R266). -/
  | addFh (d : BitVec 5) (a : BitVec 5)
  /-- SUB_FH (R266). -/
  | subFh (d : BitVec 5) (a : BitVec 5)
  /-- MUL_FH (R266). -/
  | mulFh (d : BitVec 5) (a : BitVec 5)
  /-- AND_FH (R266). -/
  | andFh (d : BitVec 5) (a : BitVec 5)
  /-- OR_FH (R266). -/
  | orFh (d : BitVec 5) (a : BitVec 5)
  /-- XOR_FH (R266). -/
  | xorFh (d : BitVec 5) (a : BitVec 5)
  /-- SLL_FH (R266). -/
  | sllFh (d : BitVec 5) (a : BitVec 5)
  /-- SRL_FH (R266). -/
  | srlFh (d : BitVec 5) (a : BitVec 5)
  /-- SRA_FH (R266). -/
  | sraFh (d : BitVec 5) (a : BitVec 5)
  /-- MIN_FH (R266). -/
  | minFh (d : BitVec 5) (a : BitVec 5)
  /-- MAX_FH (R266). -/
  | maxFh (d : BitVec 5) (a : BitVec 5)
  /-- MOV_FH (R266). -/
  | movFh (d : BitVec 5) (a : BitVec 5)
  /-- ADDI_FH (R299). -/
  | addiFh (d : BitVec 5) (i : BitVec 5)
  /-- SLLI_FH (R299). -/
  | slliFh (d : BitVec 5) (s : BitVec 5)
  /-- FADD_FH (R266). -/
  | faddFh (d : BitVec 5) (a : BitVec 5)
  /-- FMUL_FH (R266). -/
  | fmulFh (d : BitVec 5) (a : BitVec 5)
  /-- VADD_FH (R266). -/
  | vaddFh (d : BitVec 5) (a : BitVec 5)
  /-- VSUB_FH (R266). -/
  | vsubFh (d : BitVec 5) (a : BitVec 5)
  /-- VMUL_FH (R266). -/
  | vmulFh (d : BitVec 5) (a : BitVec 5)
  /-- VAND_FH (R266). -/
  | vandFh (d : BitVec 5) (a : BitVec 5)
  /-- VOR_FH (R266). -/
  | vorFh (d : BitVec 5) (a : BitVec 5)
  /-- VXOR_FH (R266). -/
  | vxorFh (d : BitVec 5) (a : BitVec 5)
  /-- VSLL_FH (R266). -/
  | vsllFh (d : BitVec 5) (a : BitVec 5)
  /-- VSRL_FH (R266). -/
  | vsrlFh (d : BitVec 5) (a : BitVec 5)
  /-- VSRA_FH (R266). -/
  | vsraFh (d : BitVec 5) (a : BitVec 5)
  /-- VMIN_FH (R266). -/
  | vminFh (d : BitVec 5) (a : BitVec 5)
  /-- VMAX_FH (R266). -/
  | vmaxFh (d : BitVec 5) (a : BitVec 5)
  /-- VMOV_FH (R266). -/
  | vmovFh (d : BitVec 5) (a : BitVec 5)
  /-- VFADD_FH (R266). -/
  | vfaddFh (d : BitVec 5) (a : BitVec 5)
  /-- VFMUL_FH (R266). -/
  | vfmulFh (d : BitVec 5) (a : BitVec 5)
  /-- ILLEGAL_INSTRUCTION (R274). -/
  | illegalInstruction (enc : BitVec 32)
  /-- FETCH_FAULT (R263). -/
  | fetchFault (cause : BitVec 8) (addr : BitVec 64)
  deriving DecidableEq, Repr

end Sys2Proof
end

