-- ==== Sys2Proof/Machine/State.lean ====
section
/-!
DEFINITION. The state of the Torgor Reckoner 800, as plain data: cores, slots, clusters, dies, homes, network
queues, ports, functions, contexts, memory, and the outside world's pending turns.  Sparse tables list only
the entries that differ from their default, in rising order of key.
-/

namespace Sys2Proof.Machine

/-- A sparse table with rising keys: a key that it does not list has the table's default. -/
abbrev SMap (α : Type) := List (Nat × α)

/-- A thread slot: the core identifier and the slot number (R9). -/
structure Tid where
  core : Nat := 0
  slot : Nat := 0
  deriving DecidableEq, Repr

/-- A launch entry: the function, its notify queue and the sequence number (R62). -/
structure EntryRef where
  fn  : Nat := 0
  q   : Nat := 0
  seq : Nat := 0
  deriving DecidableEq, Repr

/-! ### Thread state -/

/-- The thread CSRs that a burst or record saves (R86, R394), with their reset values.  `lateTval` names the first late
reply counted since a LATE trap was last taken, and `lateDue` says that such a trap is due (R43). -/
structure Csrs where
  sk0 : BitVec 12 := 0x040
  sk1 : BitVec 12 := 0x200
  sk2 : BitVec 12 := 0x800
  sk3 : BitVec 12 := 0xFFF
  dsk : BitVec 2 := 0
  late : Word := 0
  lateen : Bool := false
  lateTval : Option Word := none
  lateDue : Bool := false
  wlimt : Word := 0
  sbound : Word := 0
  scount : Word := 0
  spolicy : Bool := false
  fbound : Word := 0
  fcount : Word := 0
  remap0 : Word := 0
  remap1 : Word := 0
  remap2 : Word := 0
  remap2n : Word := 0
  fmode : BitVec 4 := 0
  fflags : BitVec 6 := 0
  fseed : BitVec 32 := 0x9E3779B9
  upvec : Word := 0
  upcause : Word := 0
  upaddr : Word := 0
  upseq : Word := 0
  upepc : Word := 0
  trapvec : Word := 0
  tcause : Word := 0
  tval : Word := 0
  tepc : Word := 0
  trapActive : Bool := false
  upcallActive : Bool := false
  spawned : Bool := false
  deriving DecidableEq, Repr

/-- A ticket that has been issued and not yet passed by the completed value (R142, R185).  `ord` is the
place of its operation in the thread's program order (R195). -/
structure Ticket where
  num  : Word := 0
  ord  : Nat := 0
  done : Bool := false
  deriving DecidableEq, Repr

/-- A ticket that completed as faulted and has not been reported (R194, R195). -/
structure TFault where
  num   : Word := 0
  ord   : Nat := 0
  cause : BitVec 8 := 0
  deriving DecidableEq, Repr

/-- One timeline of a thread: issued and completed values, open tickets, unreported faults. -/
structure Timeline where
  issued    : Word := 0
  completed : Word := 0
  opn       : List Ticket := []
  faults    : List TFault := []
  deriving DecidableEq, Repr

/-- The five timelines, in the order of R242. -/
structure Timelines where
  copy   : Timeline := {}
  tile   : Timeline := {}
  route  : Timeline := {}
  msg    : Timeline := {}
  rstore : Timeline := {}
  deriving DecidableEq, Repr

/-- The status of a dispatch ring entry (R137). -/
inductive RingSt where
  | pending
  | done
  | faulted (cause : BitVec 8)
  deriving DecidableEq, Repr

/-- One entry of a slot's dispatch ring (R137). `tile` marks SUSPEND and TENQ, `spark` marks SPARK. -/
structure RingEnt where
  seq   : BitVec 32 := 0
  pc    : Word := 0
  st    : RingSt := .pending
  tile  : Bool := false
  spark : Bool := false
  ord   : Nat := 0
  deriving DecidableEq, Repr

/-- What an outstanding access counts as for FENCE and WAIT (R182, R315). -/
inductive AccKind where
  | vload
  | store
  | send
  deriving DecidableEq, Repr

/-- An access whose reply or acknowledgement has not returned: its home unit, the vector instruction it belongs to
(`op`, 0 for none), the 64-byte line of a vector access and which access of the line it is, and the ticket it completes. -/
structure Infl where
  id   : Nat := 0
  op   : Nat := 0
  kind : AccKind := .store
  home : Nat := 0
  line : Nat := 0
  dup  : Nat := 0
  tick : Option (Nat × Word) := none
  deriving DecidableEq, Repr

/-- One active lane of a vector memory instruction: its number, the key and size in bytes of its element's storage
(S24N: of its group), the nibble of a packed byte, the format code (0: storage bytes), the companion entry's key, the
place in an S24N group, a late fault that its page gives, and which access of its line reads it (R159, R344, R345). -/
structure VLane where
  lane  : Nat := 0
  key   : Nat := 0
  bytes : Nat := 1
  hi    : Bool := false
  code  : Nat := 0
  ent   : Option Nat := none
  pos   : Nat := 0
  pre   : Option (BitVec 8) := none
  dup   : Nat := 0
  deriving DecidableEq, Repr

/-- A vector memory instruction in flight: its ring entry, destination, lanes, the 64-bit words that replies brought and
those that failed (by word and access of its line), its rounding context and its ticket (R347, R194); of a store, also the lines that are still to be
performed, each with its home, key, address and bytes (R194). -/
structure VOp where
  op    : Nat := 0
  seq   : BitVec 32 := 0
  vd    : Nat := 0
  lt    : Nat := 0
  isLd  : Bool := true
  plan  : List VLane := []
  got   : SMap Word := []
  errs  : SMap (BitVec 8) := []
  rm    : Nat := 0
  sat   : Bool := false
  seed  : BitVec 32 := 0
  tick  : Option Word := none
  todo  : List (Nat × Nat × Word × List Host.Cell) := []
  deriving DecidableEq, Repr

/-- A long-latency vector result that is written 16 cycles after issue (R327). -/
structure Deferred where
  seq    : BitVec 32 := 0
  writes : List (Nat × Word) := []
  flags  : BitVec 6 := 0
  deriving DecidableEq, Repr

/-- The nest descriptor that a thread's iteration fetcher holds (R92, R93). -/
structure Nest where
  addr     : Word := 0
  counter  : Word := 0
  ext0     : Nat := 0
  ext1     : Nat := 0
  ext2     : Nat := 0
  rank     : Nat := 0
  minchunk : Nat := 0
  parts    : Nat := 0
  reg0     : Nat := 0
  reg1     : Nat := 0
  reg2     : Nat := 0
  deriving DecidableEq, Repr

/-- A message register with its full bit (R124). -/
structure Mb where
  val  : Word := 0
  full : Bool := false
  deriving DecidableEq, Repr

/-- A carry: its home slot, the descriptor and slot position of its MIGR (R217, R219, R220). A carry that issues MIGR again is
a carry of its slot there: a slot lists the innermost first. -/
structure Carry where
  home : Tid := {}
  desc : Word := 0
  pos  : Word := 0
  deriving DecidableEq, Repr

/-- Why a slot that holds a continuation is out of rotation (R95). -/
inductive Wait where
  | reply
  | miss
  | iter
  | port (n : Nat) (deadline : Option Nat)
  | cond
  | sysc
  deriving DecidableEq, Repr

/-- What a wake, a release or a deadline delivered to a continuation (R110, R112, R356, R363). -/
inductive Deliv where
  | value (v : Word) (poisoned : Bool) (flags : BitVec 6)
  | fail (cause : BitVec 8) (tval : Word)
  | failAt (cause : BitVec 8) (tval : Word) (pc : Word)
  deriving DecidableEq, Repr

/-- The outcome a home gives a request (R109, R171, R303). -/
inductive Res where
  | ok
  | words (l : List Word)
  | fault (cause : BitVec 8) (tval : Word)
  | waits
  | withdrawn
  | value (v : Word) (poisoned : Bool) (flags : BitVec 6)
  | coord (v : Word) (clb : Option (Nat × Nat × Nat × Nat × Nat))
  deriving DecidableEq, Repr, Inhabited

/-- Storage that a continuation holds (R79, R83, R353): a spill area of its context's pool, or a 64 KiB
segment of a core's pool. -/
inductive Area where
  | none
  | spill (ctx : Nat) (base : Word) (kib : Nat)
  | seg (core : Nat) (ctx : Nat) (idx : Nat)
  deriving DecidableEq, Repr

/-- One thread slot. -/
structure Slot where
  uid      : Option Nat := none
  resv     : Option Nat := none
  pc       : Word := 0
  wbase    : Nat := 0
  ctx      : Nat := 0
  steal    : BitVec 2 := 0
  prio     : BitVec 2 := 0
  restart  : Bool := false
  ports    : Bool := false
  wsize    : BitVec 4 := 0
  join     : Word := 0
  spb      : Word := 0
  spl      : Word := 0
  ks       : SMap Word := []
  csr      : Csrs := {}
  tls      : Timelines := {}
  wait     : Option Wait := none
  ph       : List Word := []
  res      : Option Res := none
  xf       : List (BitVec 8 × Word) := []
  awaits   : List Nat := []
  demand   : Option Word := none
  coordHit : Option Nat := none
  toUnit   : Option Nat := none
  deliv    : Option Deliv := none
  handler  : Option Word := none
  wdrawn   : Bool := false
  mb       : SMap Mb := []
  ring     : List RingEnt := []
  seq      : BitVec 32 := 0
  chainSeq : BitVec 31 := 0
  upCount  : Word := 0
  ord      : Nat := 0
  nest     : Option Nest := none
  infl     : List Infl := []
  vops     : List VOp := []
  defer    : List Deferred := []
  priv     : Bool := false
  dev      : Bool := false
  carry    : List Carry := []
  halted   : Bool := false
  stepOne  : Bool := false
  bps      : List Word := []
  evicting : Bool := false
  moveTo   : Option Tid := none
  urgent   : Bool := false
  callSeq  : Word := 0
  deriving DecidableEq, Repr

/-- What the device keeps of a continuation beside its record and burst (R65, R79, R88, R198); `area2` holds the segments
that its carries took at their experts' clusters, the innermost first (R218), `orig` the identifier under which homes record a migrated thread (R202), `bead` the handle
of the bead whose FORCE or HWAIT it left its slot at (R110). -/
structure Cont where
  entry   : Option EntryRef := none
  ctx     : Nat := 0
  root    : Option Nat := none
  pc0     : Word := 0
  arg     : Word := 0
  wsize   : BitVec 4 := 0
  portsA  : Bool := false
  restart : Bool := false
  spillK  : Nat := 0
  parent  : Option Nat := none
  area    : Area := .none
  area2   : List Area := []
  core    : Nat := 0
  priv    : Bool := false
  dev     : Bool := false
  carry   : List Carry := []
  deliv   : Option Deliv := none
  a0      : Option Word := none
  pinned  : Option Tid := none
  bead    : Option Word := none
  orig    : Option Tid := none
  lateT   : Option Word := none
  lateDue : Bool := false
  lateN   : Nat := 0
  alive   : Bool := true
  fresh   : Bool := false
  deriving DecidableEq, Repr

/-- Where the 64-byte record of a waiting continuation lies (R84): with the device, or at a virtual address
of its context. -/
inductive RecSrc where
  | held (ws : List Word)
  | mem (addr : Word)
  deriving DecidableEq, Repr

/-- An injection-queue entry (R81, R88): a range of roots of a launch entry with their entry descriptor (R82), or one
continuation. -/
inductive InjKind where
  | roots (e : EntryRef) (next stride left : Nat) (pc arg desc : Word)
  | cont (uid : Nat) (src : RecSrc)
  deriving DecidableEq, Repr

/-- A place in an injection queue; `urgent` marks a privileged handler (R98, R198), `aged` a wait of more than 1 ms (R88). -/
structure Inj where
  kind    : InjKind := .cont 0 (.held [])
  ctx     : Nat := 0
  tag     : Option Nat := none
  prio    : BitVec 2 := 0
  resumed : Bool := false
  urgent  : Bool := false
  since   : Nat := 0
  aged    : Bool := false
  deriving DecidableEq, Repr

/-- A deque entry: the record's words and the continuation they belong to (R89). -/
structure DqEnt where
  uid  : Nat := 0
  ws   : List Word := []
  deriving DecidableEq, Repr

/-- A block of deque entries in a core's overflow area (R89): its physical address, and the place and continuation of
each record that it still holds, oldest first. -/
structure OvfBlock where
  key  : Nat := 0
  ents : List (Nat × Nat) := []
  deriving DecidableEq, Repr

/-! ### Packets (R33, R34) -/

/-- Who receives a reply.  `thread` is the blocking instruction of a slot, `access` an access that the slot
does not wait for, `task` and `carry` a service core's work, `port` a request that came over a fabric link. -/
inductive Ret where
  | thread (t : Tid) (uid : Nat) (va : Word)
  | access (t : Tid) (uid : Nat) (id : Nat) (lane : Nat) (va : Word)
  | task (cl : Nat) (bead : Nat)
  | carry (cl : Nat) (uid : Nat) (stage : Nat)
  | shoot (cl : Nat) (gen : Nat)
  | port (p : Nat) (id : Nat)
  | none
  deriving DecidableEq, Repr

/-- A synchronising access (R307, R308, R348): kind 0 LDS.keep, 1 LDS.clr, 2 STS, 3 STSF, 4 VLDF. -/
structure SyncOp where
  kind  : Nat := 0
  key   : Nat := 0
  bytes : Nat := 4
  data  : Word := 0
  need  : List Nat := []
  limit : Nat := 65536
  va    : Word := 0
  ret   : Ret := .none
  deriving DecidableEq, Repr

/-- The submission context of SUSPEND and TENQ (R378). -/
structure Sub where
  rm   : BitVec 3 := 0
  sat  : Bool := false
  seed : BitVec 32 := 0x9E3779B9
  tenq : Option Ret := none
  seq  : BitVec 32 := 0
  deriving DecidableEq, Repr

/-- A waiter of a bead (R106): kind 0 FORCE, 1 HWAIT, 2 operand FORCE; `bead` is the key of the bead. -/
structure Waiter where
  addr     : Word := 0
  bead     : Nat := 0
  cont     : Word := 0
  uid      : Nat := 0
  chain    : Word := 0
  deadline : Nat := 0
  next     : Word := 0
  kind     : BitVec 2 := 0
  carry    : Bool := false
  wcore    : Nat := 0
  slack    : Nat := 0
  ret      : Ret := .none
  handle   : Word := 0
  deriving DecidableEq, Repr

/-- The bead operations of R109. -/
inductive BeadOp where
  | force (chain : Word)
  | hwait (chain : Word)
  | spark
  | suspend (ws : List Word) (sub : Sub)
  | tenq (ws : List Word) (sub : Sub) (chain : Word)
  | hbind (v : Word)
  | hdrop
  | hstat
  | claim (chain : Word)
  | completion (v : Word) (flags : BitVec 6)
  | poisoned (v : Word) (flags : BitVec 6)
  | engFault (cause : BitVec 8)
  | opFail (cause : BitVec 8) (handle : Word)
  | death
  deriving DecidableEq, Repr

/-- The address of a bead at its home: storage key, handle and context. -/
structure BeadRef where
  key    : Nat := 0
  handle : Word := 0
  ctx    : Nat := 0
  deriving DecidableEq, Repr

/-- A TLB entry: the three words of R148. -/
structure TlbEnt where
  w0 : Word := 0
  w1 : Word := 0
  w2 : Word := 0
  deriving DecidableEq, Repr

/-- How far an engine's operation has translated its addresses (R151, R152): entries that fills brought for it, pages whose
translation failed with their causes, and the page of the miss that it waits for. -/
structure EngTr where
  ents : List TlbEnt := []
  flts : List (Nat × BitVec 8) := []
  want : Option Nat := none
  deriving DecidableEq, Repr

/-- An engine command of a core (R385): kind 0 CPY, 1 PLANE, 2 DENSE, 3 FILL, 4 ROUTE, 5 PSEL; packets
numbered below `mark` were issued before it (R185). -/
structure EngCmd where
  kind   : Nat := 0
  t      : Tid := {}
  uid    : Nat := 0
  ctx    : Nat := 0
  recA   : Word := 0
  dst    : Word := 0
  p      : Nat := 0
  tl     : Nat := 0
  num    : Word := 0
  rm     : BitVec 3 := 0
  sat    : Bool := false
  slack  : Nat := 0
  mark   : Nat := 0
  entry  : Option EntryRef := none
  tr     : EngTr := {}
  deriving DecidableEq, Repr

/-- A carry's state at its expert's service core, with the slack that its packets had left, the packets of its deposit that are
not acknowledged, and the first fault that one of them met (R218, R440). -/
structure CarryIn where
  uid    : Nat := 0
  ctx    : Nat := 0
  t      : Tid := {}
  ws     : List Word := []
  burst  : List Word := []
  row    : List Byte := []
  marks  : List Nat := []
  desc   : List Word := []
  pos    : Word := 0
  limit  : Word := 0
  slack  : Nat := 0
  acks   : Nat := 0
  fail   : Option (BitVec 8 × Word) := none
  deriving DecidableEq, Repr

/-- A notice record (R68). -/
structure Notice where
  type    : Nat := 0
  status  : Nat := 0
  ctx     : Nat := 0
  seq     : Nat := 0
  subject : Word := 0
  detail  : Word := 0
  tick    : Nat := 0
  deriving DecidableEq, Repr

/-- The contents of a packet. -/
inductive Body where
  | load (key bytes : Nat) (ret : Ret)
  | store (cells : List Host.Cell) (ret : Ret)
  /-- Bytes of a copy at one line, and the keys of those that carry a mark (R34, R203). -/
  | put (cells : List Host.Cell) (marks : List Nat) (ret : Ret)
  | amo (fn : BitVec 4) (key : Nat) (y exp : Word) (ret : Ret)
  | lnext (key n minchunk parts : Nat) (ret : Ret)
  | sync (op : SyncOp)
  | bar (key count wl : Nat) (ret : Ret)
  | withdraw (key : Nat) (ret : Ret)
  | park (key : Nat) (exp : Word) (wl : Nat) (uid ctx : Nat) (recA pc : Word) (ret : Ret)
  | bead (b : BeadRef) (op : BeadOp) (wl : Nat) (wcore : Nat) (cont : Word) (ret : Ret)
  | mprog (slot : Nat) (w0 w1 : Word) (ret : Ret)
  | coord (op : BitVec 4) (ctx region : Nat) (c x : Word) (core : Nat) (ret : Ret)
  | celem (op : BitVec 4) (key fmt : Nat) (x : Word) (ctx region : Nat) (ret : Ret)
  | cinv (ctx region : Nat) (ws : Option (List Word)) (ret : Ret)
  | msg (t : Tid) (m : Nat) (v : Word) (ret : Ret)
  | qelem (q : Nat) (v : Word) (tag : Bool) (ret : Ret)
  | joinInc (key : Nat) (ret : Ret)
  | joinSync (key : Nat) (recA : Word) (uid : Nat) (ret : Ret)
  | joinRet (key ctx : Nat)
  | susp (key : Nat × Nat) (ws : List Word) (uid ctx : Nat) (ret : Ret)
  | resume (key : Nat × Nat) (v : Word) (ctx : Nat) (ret : Ret)
  | steal (thief : Nat)
  | stolen (e : Option DqEnt)
  | stealU (thief : Nat)
  | stolenU (e : Option DqEnt)
  | enqueue (uid : Nat) (ctx : Nat) (src : RecSrc)
  | urgent (uid : Nat) (src : RecSrc)
  | xlat (va : Word) (kind : Nat) (t : Tid) (ctx : Nat) (core : Nat)
  | xrep (va : Word) (kind : Nat) (t : Tid) (ctx : Nat) (e : List Word) (status : BitVec 8) (gen : Nat)
  | tlbi (va : Word) (ctx : Nat) (pages all : Bool) (gen cl : Nat)
  | clbi (ctx region : Nat) (tile : Option Nat) (gen cl : Nat)
  | carry (c : CarryIn)
  | carryBack (uid : Nat) (home : Tid) (ws burst : List Word) (row : List Byte) (marks : List Nat) (dst : Nat)
  | stream (uid : Nat) (old new : Tid) (burst ws : List Word) (mbs : SMap Mb) (sysc : Option Word)
  | rank (c : EngCmd)
  | rq (op : Nat) (entry : Nat) (ws : List Word) (blk : Nat) (kind : Bool) (ctx : Nat) (wl : Nat) (ret : Ret)
  | wake (w : Waiter) (d : Deliv)
  | ringDone (t : Tid) (uid : Nat) (seq : BitVec 32) (st : RingSt) (flags : BitVec 6) (va : Word)
  | wfcEdge (a b handle : Word) (bead : BeadRef)
  | wfcQuery (a b : Word) (hops : Nat) (start : Nat)
  | wfcReply (a : Word) (next : Option Word) (bead : BeadRef) (hops : Nat)
  | notice (n : Notice)
  | reply (ret : Ret) (res : Res)
  | sysrep (fn : Nat) (seq a0 a1 : Word)
  | forward (t : Tid) (b : Body)
  /-- Sixteen flits of a message that the packet behind them in their pair ends (R33). -/
  | frag
  deriving DecidableEq, Repr, Inhabited

/-- A packet in a queue: header (R33), late mark with late age (R38), tick of entry to the queue (R37), the packets combined
with it (R52), its number among the arrivals of a home and among the packets issued, and the remote device and unit to which a
port sends it (R33). -/
structure Packet where
  cls   : Nat := 0
  dst   : Nat := 0
  src   : Nat := 0
  slack : Nat := 0
  late  : Option Nat := none
  since : Nat := 0
  body  : Body := .reply .none .ok
  peers : List (Nat × Nat × Option Nat × Nat × Word × Ret) := []
  arr   : Nat := 0
  num   : Nat := 0
  rdev  : Option (Nat × Nat) := none
  deriving DecidableEq, Repr

/-! ### Core state -/

/-- A CLB entry (R168). -/
structure ClbEnt where
  valid  : Bool := false
  ctx    : Nat := 0
  region : Nat := 0
  tile   : Nat := 0
  frame  : Word := 0
  deriving DecidableEq, Repr

/-- An outstanding translation miss and the slots that wait for it (R152). -/
structure Miss where
  ctx  : Nat := 0
  page : Nat := 0
  kind : Nat := 0
  ts   : List Tid := []
  deriving DecidableEq, Repr

/-- A forwarding entry (R202). `carry` marks one that lives until MRET (R219). -/
structure Fwd where
  old   : Tid := {}
  new   : Tid := {}
  tick  : Nat := 0
  carry : Bool := false
  ctx   : Nat := 0
  deriving DecidableEq, Repr

/-- A queue control word (R133), with its reset value. -/
structure QCtl where
  w0 : Word := 0x300000000
  w1 : Word := 0
  deriving DecidableEq, Repr

/-- A queued operation of the iterative unit with its result (R279). -/
structure IterOp where
  slot  : Nat := 0
  uid   : Nat := 0
  d     : Nat := 0
  v     : Word := 0
  flags : BitVec 6 := 0
  seed  : BitVec 32 := 0
  deriving DecidableEq, Repr

/-- An element in a link between neighbours, which is a queue under R37: its value and tag, the slack and lateness with
which it was written, and its tick of entry (R50). -/
structure LinkEl where
  v     : Word := 0
  tag   : Bool := false
  slack : Nat := 0
  late  : Option Nat := none
  since : Nat := 0
  deriving DecidableEq, Repr

/-- One core: compute (index 0 to 15), service (16) or gateway (17, 18). -/
structure Core where
  regs     : SMap Word := []
  slots    : SMap Slot := []
  tlb      : SMap TlbEnt := []
  tlbNext  : Nat := 0
  tlbGen   : Nat := 0
  clb      : SMap ClbEnt := []
  clbNext  : Nat := 0
  clbGen   : SMap Nat := []
  misses   : List Miss := []
  deque    : List DqEnt := []
  blocks   : List OvfBlock := []
  udeque   : List DqEnt := []
  uinbox   : List Inj := []
  segs     : List (Nat × Nat) := []
  fwd      : List Fwd := []
  qctl     : SMap QCtl := []
  hnd0     : Word := 0
  hnd1     : Word := 0
  link0    : List LinkEl := []
  link1    : List LinkEl := []
  eng      : List EngCmd := []
  iter     : List IterOp := []
  evict    : Word := 0
  evstat   : Word := 0
  icache   : List Host.Cell := []
  stopped  : Bool := false
  asked    : List Nat := []
  stealLvl : Nat := 0
  askedU   : List Nat := []
  lvlU     : Nat := 0
  lastIssue : Nat := 0
  deriving DecidableEq, Repr

/-- What is parked at a home (R309, R318, R356). -/
inductive ParkKind where
  | sync (op : SyncOp)
  | bar (count : Nat) (ret : Ret)
  | park (exp : Word) (uid ctx : Nat) (recA pc : Word)
  deriving DecidableEq, Repr

structure Parked where
  kind     : ParkKind := .bar 0 .none
  key      : Nat := 0
  deadline : Option Nat := none
  src      : Nat := 0
  slack    : Nat := 0
  late     : Option Nat := none
  deriving DecidableEq, Repr

/-- A home unit: its park table, its error count, its trace position and pair sequence numbers, and the count of its
arrivals (R40, R203, R209, R210, R309). -/
structure HomeSt where
  parked   : List Parked := []
  errors   : Nat := 0
  pairSeq  : SMap Nat := []
  replayAt : Nat := 0
  lastRep  : Nat := 0
  free     : Bool := false
  arrivals : Nat := 0
  deriving DecidableEq, Repr

/-! ### Cluster state -/

/-- An entry of a root's wait-for chain table (R108). -/
structure Wfc where
  chain  : Word := 0
  on     : Option Word := none
  handle : Word := 0
  bead   : BeadRef := {}
  deriving DecidableEq, Repr

/-- Where a claimed task stands at its tile scheduler (R113). -/
inductive TaskSt where
  | claimed
  | forcing (i : Nat)
  | staging
  | ready
  | running (engine : Nat)
  deriving DecidableEq, Repr

/-- A task that a tile scheduler holds (R113): the bead, its chain, the record, the operands' word 0 and
value addresses as replied, and the submission context (R378).  `snap` has the operand bytes as they were staged, by the
place that they came from, and `staged` the 64-bit words of scratchpad that the staged blocks take (log 69). -/
structure Task where
  bead     : BeadRef := {}
  chain    : Word := 0
  demanded : Bool := true
  spark    : Bool := false
  st       : TaskSt := .claimed
  ws       : List Word := []
  recA     : Word := 0
  vals     : List Word := []
  w0s      : List Word := []
  poison   : Bool := false
  retried  : Bool := false
  avoid    : Option Nat := none
  sub      : Sub := {}
  prog     : Word × Word := (0, 0)
  snap     : List Host.Cell := []
  staged   : List Nat := []
  tr       : EngTr := {}
  deriving DecidableEq, Repr

/-- A waiting RQGET (R226). -/
structure RqWait where
  src      : Nat := 0
  slack    : Nat := 0
  late     : Option Nat := none
  entry    : Nat := 0
  deadline : Option Nat := none
  ret      : Ret := .none
  deriving DecidableEq, Repr

/-- An entry of a gateway reduction queue (R225, R226): state 0 IDLE, 1 OPEN, 2 COMMITTING, 3 DONE, 4 FAILED;
counts of arrivals per block, blocks assigned, blocks reduced, and for a commit the keys of its bytes in scr and dst. -/
structure RqEnt where
  st       : Nat := 0
  ws       : List Word := []
  ctx      : Nat := 0
  arrived  : SMap Nat := []
  assigned : List Nat := []
  reduced  : List Nat := []
  last     : Option (Nat × Nat × Option Nat × Ret) := none
  keys     : List (Nat × Nat) := []
  deriving DecidableEq, Repr

/-- A coordinate region as its agent has cached it (R163, R165): the descriptor's words, and the free lists
of its shards (or of the volume, as shard 0). -/
structure Region where
  ws   : List Word := []
  free : SMap (List Word) := []
  deriving DecidableEq, Repr

/-- A shoot-down in progress: its generation, the acknowledgements still due, and what waits for it
(R155, R169, R172). -/
structure Shoot where
  gen    : Nat := 0
  clb    : Bool := false
  left   : Nat := 0
  ret    : Ret := .none
  frame  : Option (Nat × Nat × Word) := none
  src    : Nat := 0
  slack  : Nat := 0
  late   : Option Nat := none
  acc    : Nat := 0
  deriving DecidableEq, Repr

/-- One cluster (`sparkCh`: the spark chains that have not ended, each with the key of its spark's bead): its partition, clock and sensor, injection queue, waiter pool, spark pool, tile scheduler,
chain table, tree agent, reduction queue and service-core registers. -/
structure Cluster where
  fn       : Nat := 0
  clock    : Nat := 18
  cyc10    : Nat := 0
  cycTick  : Nat := 0
  temp     : Nat := 25
  throttled : Bool := false
  inj      : List Inj := []
  waiters  : SMap Waiter := []
  sparks   : List BeadRef := []
  sparkCh  : List (Word × Nat) := []
  wfc      : List Wfc := []
  svcSeq   : BitVec 31 := 0
  tasks    : List Task := []
  prog     : SMap Nat := []
  mprog    : SMap (Word × Word) := []
  plate    : Word := 0
  sdrop    : Word := 0
  hsk      : BitVec 12 := 0x200
  npost    : Option Notice := none
  notices  : List Notice := []
  gen      : Nat := 0
  shoots   : List Shoot := []
  agentGen : Nat := 0
  regions  : SMap Region := []
  rq       : SMap RqEnt := []
  rqWaits  : List RqWait := []
  carries  : List CarryIn := []
  enq      : List Inj := []
  deriving DecidableEq, Repr

/-- One die: reset, interleave share in 64 MiB units (R146), ranking-engine commands (R211). -/
structure Die where
  inReset : Bool := false
  since   : Nat := 0
  whole   : Bool := false
  share   : Nat := 0
  rank    : List (EngCmd × Nat × Nat × Option Nat) := []
  deriving DecidableEq, Repr

/-- A cluster router (R51): 0 awake, 1 powering down, 2 off. -/
structure Router where
  st   : Nat := 0
  last : Nat := 0
  idle : Nat := 1000
  deriving DecidableEq, Repr

/-- A reckoning token and its channel's writers (R46 to R48): `lost` counts lost laps, `bids` names the heads bid in the
present or the previous lap, `seen` lists the writers that the token has passed in this lap. -/
structure Token where
  grant  : Nat := 31
  bidder : Nat := 31
  bid    : Nat := 0xFFF
  cnt    : Nat := 0
  rqStop : Bool := false
  rsStop : Bool := false
  lost   : SMap Nat := []
  bids   : SMap Nat := []
  seen   : List Nat := []
  deriving DecidableEq, Repr

/-! ### Links (R14 to R24) -/

/-- The training state of a port (R21). -/
inductive LinkSt where
  | lock
  | align
  | fec
  | version
  | active
  | down
  deriving DecidableEq, Repr

/-- An optical port: its training, the flits sent (`out`, as the outside sees them) and those received and not yet taken
(`rx`), the packet being received, the requesters of inbound requests (identifier, device, unit) and the requests sent
out and not answered (R16 to R24, R33, R208). `locked` has a bit for each fibre that holds lock, `fibres` counts those in
use; both are 0 until the first fibres hold lock (DESIGN CHOICE, log 7). `cwNum` is the number that the next codeword
carries (R16, R19). -/
structure Port where
  st        : LinkSt := .lock
  since     : Nat := 0
  attempts  : Nat := 0
  retrain   : Bool := false
  fibres    : Nat := 0
  locked    : BitVec 4 := 0
  fecGood   : Nat := 0
  ver       : Nat := 0
  failVer   : Bool := false
  txSeq     : Nat := 0
  rxSeq     : Nat := 0
  sinceAck  : Nat := 0
  replayB   : List (Nat × BitVec 256) := []
  out       : List (BitVec 256) := []
  rx        : List (BitVec 256) := []
  part      : List (BitVec 256) := []
  naks      : List Nat := []
  linkErrs  : Nat := 0
  discarded : Nat := 0
  badStores : Nat := 0
  flight    : Nat := 0
  remote    : List (Nat × Nat × Nat) := []
  reqs      : Nat := 0
  await     : List Packet := []
  cwNum     : Nat := 0
  deriving DecidableEq, Repr

/-! ### Host interface -/

/-- A launch entry that the device has admitted (R63 to R66): `live` counts its continuations, roots not yet taken and
engine operations. -/
structure Entry where
  seq    : Nat := 0
  ws     : List Word := []
  start  : Bool := false
  live   : Nat := 0
  status : Option Nat := none
  failed : Option Nat := none
  written : Bool := false
  deriving DecidableEq, Repr

/-- A notify queue and its page (R61): state 0 DISABLED, 1 RUNNING, 2 WAITSTAMP, 3 ERROR.  `stale`: the context to which
it is bound has ended since (R439). -/
structure NQueue where
  ringidx  : Nat := 0
  admitted : Nat := 0
  compcnt  : Nat := 0
  ringbase : Word := 0
  ringlog  : Word := 0
  compaddr : Word := 0
  st       : Nat := 0
  err      : Nat := 0
  awaited  : Nat := 0
  hiver    : Word := 1
  ntcount  : Nat := 0
  nthead   : Nat := 0
  ntlost   : Nat := 0
  area     : SMap (List Word) := []
  qvec     : Word := 0x8000000000000000
  ctx      : Option Nat := none
  stale    : Bool := false
  peer     : Option Nat := none
  retry    : Nat := 64
  draining : Bool := false
  entries  : List Entry := []
  deriving DecidableEq, Repr

/-- A function and its partition (R56 to R60, R72 to R77, R209). -/
structure Fn where
  queues   : SMap NQueue := []
  scbase   : Word := 0
  sclog    : Word := 0
  schead   : Nat := 0
  sctail   : Nat := 0
  scvec    : Word := 0
  held     : List (Tid × List Word) := []
  screply  : SMap Word := []
  scLost   : Nat := 0
  keys     : SMap (List Word) := []
  signed   : Bool := false
  recMode  : Bool := false
  replay   : Bool := false
  hostSh   : Bool := false
  debug    : Bool := false
  urgent   : Bool := false
  halted   : Bool := false
  diverged : Bool := false
  trBase   : Word := 0
  trBytes  : Word := 0
  trStall  : Bool := false
  trHead   : Nat := 0
  trTail   : Nat := 0
  rpBase   : Word := 0
  rpBytes  : Word := 0
  /-- Records of coordinate operations of the replayed trace that operations have taken, and the tick of the last (R190, log 37). -/
  rep5     : List Nat := []
  rep5At   : Nat := 0
  msixTab  : SMap Word := []
  msixPba  : SMap Word := []
  deriving DecidableEq, Repr

/-- A loaded image: its entry table as native code addresses, and its placement table (R69, R70). -/
structure Image where
  handle : Nat := 0
  offs   : List Word := []
  place  : List Word := []
  hasPl  : Bool := false
  deriving DecidableEq, Repr

/-- A context (R78, R79, R160); `segB` is where the device has put its segment pools (log 19). -/
structure Ctx where
  live    : Bool := false
  fn      : Nat := 0
  host    : Bool := false
  levels  : Nat := 4
  posP    : Nat := 0
  posW    : Nat := 0
  posNx   : Nat := 0
  posF    : Nat := 0
  root    : Word := 0
  regTab  : Word := 0
  spill   : Word := 0
  spillK  : Nat := 0
  segs    : Nat := 0
  segB    : Word := 0
  ovfK    : Nat := 0
  steal   : BitVec 2 := 0
  torn    : Option Nat := none
  used    : List (Nat × Nat) := []
  images  : List Image := []
  deriving DecidableEq, Repr

/-- The management function's command block (R59, R60), as 32 words each way; `cmd` is the command in progress. -/
structure Mgmt where
  mcmd   : SMap Word := []
  cmd    : SMap Word := []
  mresp  : SMap Word := []
  busy   : Bool := false
  status : Nat := 0
  tag    : Nat := 0
  deriving DecidableEq, Repr

/-- The I3C side-band port (R28): the last answer, and in-band interrupts raised. -/
structure I3c where
  data : List Byte := []
  nack : Bool := false
  ibis : Nat := 0
  deriving DecidableEq, Repr

/-- Power and thermal state (R25 to R27). -/
structure Power where
  limit    : Nat := 3600
  draw     : Nat := 0
  unmet    : Bool := false
  shutdown : Bool := false
  supplyOk : Bool := true
  supplyFault : Bool := false
  deriving DecidableEq, Repr

/-- A firmware stage as stored in the device (R30). -/
structure Stage where
  image   : List Byte := []
  key     : List Byte := []
  nextKey : List Byte := []
  sig     : List Byte := []
  secVer  : Nat := 0
  deriving DecidableEq, Repr

/-- Boot state (R30): the stage reached, recovery mode, the failing stage, and the firmware stages. -/
structure Boot where
  stage    : Nat := 0
  done     : Bool := false
  recovery : Bool := false
  failing  : Nat := 0
  fw       : List Stage := []
  deriving DecidableEq, Repr

/-- What moves next: a slot issues its next instruction, or a device step is taken. -/
inductive Turn where
  | issue (core slot : Nat)
  | event (i : Instr)
  deriving DecidableEq, Repr, Inhabited

/-! ### The machine -/

/-- The whole package. -/
structure State where
  cores   : SMap Core := []
  clusters : SMap Cluster := []
  dies    : SMap Die := []
  homes   : SMap HomeSt := []
  routers : SMap Router := []
  tokens  : SMap Token := []
  queues  : SMap (List Packet) := []
  ports   : SMap Port := []
  fns     : SMap Fn := []
  ctxs    : SMap Ctx := []
  conts   : SMap Cont := []
  nextUid : Nat := 1
  written : List (Nat × Word × Nat) := []
  subs    : SMap Sub := []
  mem     : List Host.Cell := []
  bad     : List Nat := []
  marks   : List Nat := []
  full    : List Nat := []
  mgmt    : Mgmt := {}
  i3c     : I3c := {}
  power   : Power := {}
  boot    : Boot := {}
  tick    : Word := 0
  driver  : Nat := 0
  msix    : List (Nat × Nat) := []
  hostData : Word := 0
  noticeSeq : Nat := 0
  sent    : Nat := 0
  freeCnt : Nat := 0
  cur     : Tid := {}
  sched   : List Turn := []
  turns   : Nat := 0
  deriving DecidableEq, Repr

/-- The machine at reset (R29, R30, R61, R83, R130, R394): no context, no continuation, every queue and
table empty, every full/empty bit 0, the ports training from LOCK, nothing listed in memory. -/
def State.reset : State := {}

/-- Why the machine stops.  Raised by a thread instruction's meaning when the slot whose turn it is holds no
continuation; `step` never lets that happen, so the stop is safe: no run of the device reaches it. -/
inductive Fault where
  /-- Raised by every thread instruction when the current slot is empty; safe: the device issues nothing from
  an empty slot (R95). -/
  | noContinuation
  deriving DecidableEq, Repr

/-- Why an instruction is turned away. -/
inductive Refusal where
  /-- Raised by `exec` for an instruction whose meaning is not yet written; safe: nothing is claimed of it. -/
  | notModelled (mnemonic : String)
  deriving DecidableEq, Repr

end Sys2Proof.Machine
end

