-- ==== Sys2Proof/Machine/Bits.lean ====
section
/-!
DEFINITION. Bit fields, sign extension, little-endian bytes and sparse tables.
-/

namespace Sys2Proof.Machine

/-! ### Bit fields -/

/-- Field [hi:lo] of a word, as a number (R3). -/
def fld (w : Word) (hi lo : Nat) : Nat := (w.toNat >>> lo) % 2 ^ (hi + 1 - lo)

/-- Bit i of a word. -/
def bitAt (w : Word) (i : Nat) : Bool := w.getLsbD i

/-- A number as a word, modulo 2^64. -/
def wd (n : Nat) : Word := BitVec.ofNat 64 n

/-- An integer as a word, modulo 2^64. -/
def wdInt (i : Int) : Word := BitVec.ofInt 64 i

/-- sext(x, n) of R7 on a bit vector. -/
def sx {n : Nat} (v : BitVec n) : Word := v.signExtend 64

/-- sext(x, n) of R7: the low n bits of a word, sign-extended; the word itself for n = 0. -/
def sextN (n : Nat) (x : Word) : Word := if n = 0 then x else (x.setWidth n).signExtend 64

/-- zext(x, n) of R7: the low n bits of a word; the word itself for n = 0. -/
def zextN (n : Nat) (x : Word) : Word := if n = 0 then x else (x.setWidth n).setWidth 64

/-- A truth value as a word of all ones or all zeros (R287). -/
def allOnes (b : Bool) : Word := if b then BitVec.allOnes 64 else 0

/-- A truth value as 1 or 0. -/
def b2n (b : Bool) : Nat := if b then 1 else 0

/-- Number of set bits among the low n bits of x. -/
def popCount (n : Nat) (x : Nat) : Nat := (List.range n).foldl (fun a i => a + (x >>> i) % 2) 0

/-- Zero bits above the highest set bit of an n-bit number. -/
def clzN (n : Nat) (x : Nat) : Nat := if x = 0 then n else n - 1 - Nat.log2 x

/-- Zero bits below the lowest set bit of an n-bit number. -/
def ctzN : Nat → Nat → Nat
  | 0, _ => 0
  | n + 1, x => if x % 2 = 1 then 0 else 1 + ctzN n (x / 2)

/-- ceil(a / b). -/
def cdiv (a b : Nat) : Nat := (a + b - 1) / b

/-! ### Bytes -/

/-- The number whose little-endian bytes are given (R3). -/
def leNat : List Byte → Nat
  | [] => 0
  | b :: r => b.toNat + 256 * leNat r

/-- n little-endian bytes of a number. -/
def leBytes : Nat → Nat → List Byte
  | 0, _ => []
  | n + 1, v => BitVec.ofNat 8 (v % 256) :: leBytes n (v / 256)

/-- Little-endian words of a byte list. -/
def leWords (l : List Byte) : List Word :=
  (List.range (l.length / 8)).map fun i => wd (leNat ((l.drop (8 * i)).take 8))

/-- Bytes of a list of words. -/
def wordBytes (l : List Word) : List Byte := l.flatMap fun w => leBytes 8 w.toNat

/-- Element i of a list of words, 0 beyond its end. -/
def wAt (l : List Word) (i : Nat) : Word := l.getD i 0

/-! ### Sparse tables and sorted sets -/

/-- The entry of a key; the default for a key that is not listed. -/
def smGet {α : Type} (d : α) : SMap α → Nat → α
  | [], _ => d
  | (k', v) :: r, k => if k = k' then v else smGet d r k

/-- Insertion before the first greater key. -/
def smIns {α : Type} (k : Nat) (v : α) : SMap α → SMap α
  | [] => [(k, v)]
  | (k', v') :: r => if k < k' then (k, v) :: (k', v') :: r else (k', v') :: smIns k v r

/-- The table without a key. -/
def smDel {α : Type} (m : SMap α) (k : Nat) : SMap α := m.filter fun e => e.1 != k

/-- The table with the entry of a key set; the default removes it. -/
def smSet {α : Type} [DecidableEq α] (d : α) (m : SMap α) (k : Nat) (v : α) : SMap α :=
  if v = d then smDel m k else smIns k v (smDel m k)

/-- The table with the entry of a key changed. -/
def smMod {α : Type} [DecidableEq α] (d : α) (m : SMap α) (k : Nat) (f : α → α) : SMap α :=
  smSet d m k (f (smGet d m k))

/-- Insertion into a rising list without repeats. -/
def ssIns (k : Nat) : List Nat → List Nat
  | [] => [k]
  | a :: r => if k < a then k :: a :: r else if k = a then a :: r else a :: ssIns k r

/-- Removal from a list without repeats. -/
def ssDel (k : Nat) (l : List Nat) : List Nat := l.filter fun a => a != k

/-- A set with a member put in or taken out. -/
def ssPut (k : Nat) (b : Bool) (l : List Nat) : List Nat := if b then ssIns k l else ssDel k l

/-- The list with its i-th element removed. -/
def delAt {α : Type} (l : List α) (i : Nat) : List α := l.take i ++ l.drop (i + 1)

/-- The list with its i-th element changed. -/
def modAt {α : Type} (l : List α) (i : Nat) (f : α → α) : List α :=
  match l[i]? with
  | some a => l.take i ++ f a :: l.drop (i + 1)
  | none => l

/-- The index of the first element that satisfies p. -/
def idxOf {α : Type} (p : α → Bool) (l : List α) : Option Nat :=
  let i := l.findIdx p
  if i < l.length then some i else none

/-- Insertion into a list sorted by a strict order, after every element not above the new one. -/
def insBy {α : Type} (lt : α → α → Bool) (a : α) : List α → List α
  | [] => [a]
  | b :: r => if lt a b then a :: b :: r else b :: insBy lt a r

/-- Stable insertion sort. -/
def sortBy {α : Type} (lt : α → α → Bool) (l : List α) : List α := l.foldl (fun r a => insBy lt a r) []

end Sys2Proof.Machine
end

