-- ==== Sys2Proof/Machine/Mem.lean ====
section
/-!
DEFINITION. Bytes of memory, ECC marks and full/empty bits (R130, R203), and the addresses of homes (R9, R10,
R129, R144 to R146).  A memory key is a physical address: ordinary DRAM at slice·2^31 + offset (interleaved
addresses are mapped to it), host memory at 2^50 + bus address, and core c's scratchpad at 2^56 + c·2^20.
-/

namespace Sys2Proof.Machine

/-! ### Plain bytes.  An unlisted byte reads 0 (log 1). -/

/-- What an address that is not listed reads as (DESIGN CHOICE, log 1). -/
def memDefault : Byte := 0

/-- Whether memory is in its canonical form: addresses strictly rising, no byte equal to the default. -/
def Memory.wf : List Host.Cell → Bool
  | [] => true
  | (_, b) :: [] => b != memDefault
  | (a, b) :: (a', b') :: r => a < a' && b != memDefault && Memory.wf ((a', b') :: r)

/-- One byte. -/
def memByte (m : List Host.Cell) (k : Nat) : Byte := smGet memDefault m k

/-- One byte written. -/
def memPut (m : List Host.Cell) (k : Nat) (b : Byte) : List Host.Cell := smSet memDefault m k b

/-- n bytes from k, little-endian. -/
def memRead (m : List Host.Cell) : Nat → Nat → Nat
  | _, 0 => 0
  | k, n + 1 => (memByte m k).toNat + 256 * memRead m (k + 1) n

/-- n bytes of v written from k, little-endian. -/
def memWrite (m : List Host.Cell) : Nat → Nat → Nat → List Host.Cell
  | _, 0, _ => m
  | k, n + 1, v => memWrite (memPut m k (BitVec.ofNat 8 (v % 256))) (k + 1) n (v / 256)

/-- A list of bytes written from k. -/
def memWriteL (m : List Host.Cell) : Nat → List Byte → List Host.Cell
  | _, [] => m
  | k, b :: r => memWriteL (memPut m k b) (k + 1) r

/-- Cells written one by one. -/
def memCells (m : List Host.Cell) (l : List Host.Cell) : List Host.Cell := l.foldl (fun m c => memPut m c.1 c.2) m

/-! ### Identifiers (R9, R10) -/

/-- The global cluster number die·16 + cluster of a core. -/
def coreCl (c : Nat) : Nat := c / 32
def coreIdx (c : Nat) : Nat := c % 32
def coreDie (c : Nat) : Nat := c / 512
def clDie (cl : Nat) : Nat := cl / 16
/-- Whether a cluster is beside an optical port (R9). -/
def edgeCl (cl : Nat) : Bool := [0, 3, 12, 15].contains (cl % 16)
/-- Whether a core identifier names a core (R9). -/
def coreExists (c : Nat) : Bool :=
  c < 2048 && (coreIdx c ≤ 16 || (coreIdx c ≤ 18 && edgeCl (coreCl c)))
def svcCore (cl : Nat) : Nat := cl * 32 + 16
def isSvc (c : Nat) : Bool := coreIdx c == 16
def isGateway (c : Nat) : Bool := coreIdx c == 17 || coreIdx c == 18
/-- A core's unit identifier. -/
def coreUnit (c : Nat) : Nat := coreCl c * 256 + coreIdx c
def unitCl (u : Nat) : Nat := u / 256
def unitDie (u : Nat) : Nat := u / 4096
def unitIdx (u : Nat) : Nat := u % 256
/-- The core of a unit identifier below 0x13. -/
def unitCore (u : Nat) : Nat := unitCl u * 32 + unitIdx u
def isCoreUnit (u : Nat) : Bool := unitIdx u < 0x13
def isSliceUnit (u : Nat) : Bool := 0x20 ≤ unitIdx u && unitIdx u ≤ 0x23
/-- The home agent of global slice g (R44). -/
def sliceUnit (g : Nat) : Nat := (g / 4) * 256 + 0x20 + g % 4
/-- The global slice of a home agent. -/
def unitSlice (u : Nat) : Nat := unitCl u * 4 + (unitIdx u - 0x20)
def treeUnit (cl : Nat) : Nat := cl * 256 + 0x28
def rqUnit (cl : Nat) : Nat := cl * 256 + 0x2C
/-- The edge cluster beside port p (R14). -/
def portCl (p : Nat) : Nat := (p / 4) * 16 + [0, 3, 12, 15].getD (p % 4) 0
def portUnit (p : Nat) : Nat := portCl p * 256 + 0x30 + p % 4
def rankUnit (die : Nat) : Nat := die * 4096 + 0xF8
def tidWord (t : Tid) : Nat := t.core * 64 + t.slot
def wordTid (n : Nat) : Tid := { core := (n / 64) % 2048, slot := n % 64 }

/-! ### Memory keys -/

def hostKey : Nat := 0x4000000000000
def scrBase : Nat := 0x100000000000000
def scrKey (core off : Nat) : Nat := scrBase + core * 0x100000 + off
def isScr (k : Nat) : Bool := k ≥ scrBase
def isHost (k : Nat) : Bool := hostKey ≤ k && k < scrBase
def isDram (k : Nat) : Bool := k < hostKey
def keyCore (k : Nat) : Nat := (k - scrBase) / 0x100000
/-- Bytes of scratchpad of a core (R129). -/
def scrSize (core : Nat) : Nat := if isGateway core then 0x40000 else 0x100000
/-- The home of a key (R7); host memory has no unit (log 4). -/
def homeOf (k : Nat) : Option Nat :=
  if isScr k then some (coreUnit (keyCore k)) else if isDram k then some (sliceUnit (k / 0x80000000)) else none

/-! ### Getters and setters -/

def getCore (s : State) (c : Nat) : Core := smGet {} s.cores c
def setCore (s : State) (c : Nat) (x : Core) : State := { s with cores := smSet {} s.cores c x }
def modCore (s : State) (c : Nat) (f : Core → Core) : State := setCore s c (f (getCore s c))
def getSlot (s : State) (t : Tid) : Slot := smGet {} (getCore s t.core).slots t.slot
def setSlot (s : State) (t : Tid) (x : Slot) : State :=
  modCore s t.core fun c => { c with slots := smSet {} c.slots t.slot x }
def modSlot (s : State) (t : Tid) (f : Slot → Slot) : State := setSlot s t (f (getSlot s t))
def modCsr (s : State) (t : Tid) (f : Csrs → Csrs) : State := modSlot s t fun sl => { sl with csr := f sl.csr }
def getCl (s : State) (c : Nat) : Cluster := smGet {} s.clusters c
def modCl (s : State) (c : Nat) (f : Cluster → Cluster) : State :=
  { s with clusters := smSet {} s.clusters c (f (getCl s c)) }
def getDie (s : State) (d : Nat) : Die := smGet {} s.dies d
def modDie (s : State) (d : Nat) (f : Die → Die) : State := { s with dies := smSet {} s.dies d (f (getDie s d)) }
def getHome (s : State) (u : Nat) : HomeSt := smGet {} s.homes u
def modHome (s : State) (u : Nat) (f : HomeSt → HomeSt) : State :=
  { s with homes := smSet {} s.homes u (f (getHome s u)) }
def getFn (s : State) (n : Nat) : Fn := smGet {} s.fns n
def modFn (s : State) (n : Nat) (f : Fn → Fn) : State := { s with fns := smSet {} s.fns n (f (getFn s n)) }
def getNq (s : State) (fn q : Nat) : NQueue := smGet {} (getFn s fn).queues q
def modNq (s : State) (fn q : Nat) (f : NQueue → NQueue) : State :=
  modFn s fn fun x => { x with queues := smMod {} x.queues q f }
def getCtx (s : State) (n : Nat) : Ctx := smGet {} s.ctxs n
def modCtx (s : State) (n : Nat) (f : Ctx → Ctx) : State := { s with ctxs := smSet {} s.ctxs n (f (getCtx s n)) }
def getCont (s : State) (u : Nat) : Cont := smGet { alive := false } s.conts u
def modCont (s : State) (u : Nat) (f : Cont → Cont) : State :=
  { s with conts := smSet { alive := false } s.conts u (f (getCont s u)) }
def getPort (s : State) (p : Nat) : Port := smGet {} s.ports p
def modPort (s : State) (p : Nat) (f : Port → Port) : State := { s with ports := smSet {} s.ports p (f (getPort s p)) }
def tickN (s : State) : Nat := s.tick.toNat

/-- Whether the package works: the power stages are on, no thermal shutdown holds, and it is not in recovery mode
(R26, R27, R30). -/
def working (s : State) : Bool := s.power.supplyOk && !s.power.shutdown && !s.boot.recovery
/-- Whether the clusters, routers, channels and ports of a die work (R26, R27, R30, R207). -/
def dieRuns (s : State) (d : Nat) : Bool := working s && !(getDie s d).inReset

/-- The function (partition) of a core (R57). -/
def coreFn (s : State) (c : Nat) : Nat := (getCl s (coreCl c)).fn
/-- The clusters of a partition, in ascending order of die, then cluster (R57, R81). -/
def partition (s : State) (fn : Nat) : List Nat := (List.range 64).filter fun c => (getCl s c).fn == fn
/-- The cores of a cluster. -/
def clCores (cl : Nat) : List Nat := (List.range 19).filterMap fun i => if coreExists (cl * 32 + i) then some (cl * 32 + i) else none
/-- Every slot of a list of cores that holds a continuation. -/
def slotsOf (s : State) (cs : List Nat) : List (Tid × Slot) :=
  cs.flatMap fun c => (getCore s c).slots.filterMap fun e =>
    if e.2.uid.isSome then some ({ core := c, slot := e.1 }, e.2) else none
/-- Every core that exists. -/
def allCores : List Nat := (List.range 64).flatMap clCores

/-! ### Physical addresses (R57, R144 to R146) -/

/-- Fold an interleaved line number (R146). -/
def ilvFold (n : Nat) : Nat → Nat → Nat
  | 0, _ => 0
  | k + 1, q => if q = 0 then 0 else (q % 2 ^ n) ^^^ ilvFold n k (q >>> n)

/-- The bytes of the interleave share of a die (R146). -/
def shareBytes (s : State) (die : Nat) : Nat := (getDie s die).share * 0x4000000

/-- The key of a physical address for an issuer of partition fn; none raises PROTECTION. -/
def physKey (s : State) (fn : Nat) (pa : Nat) : Option Nat :=
  if pa < 0x8000000000 then
    let g := pa / 0x80000000
    if pa % 0x80000000 < 0x60000000 - shareBytes s (g / 64) && (getCl s (g / 4)).fn == fn then some pa else none
  else if hostKey ≤ pa && pa < hostKey + 0x1000000000000 then some pa
  else if 0x8000000000000 ≤ pa && pa < 0x10000000000000 then
    let set := (pa >>> 49) % 4
    let die := (pa >>> 47) % 4
    let first := (pa >>> 41) % 64
    let y := pa % 2 ^ 37
    let n := 2 * (set + 1)
    let l := y / 64
    let slice := first + ((l % 2 ^ n) ^^^ ilvFold n 40 (l >>> n))
    let off := (l >>> n) * 64 + y % 64
    if set = 3 || (pa >>> 37) % 16 != 0 || first % 2 ^ n != 0 || off ≥ shareBytes s die then none
    else if (List.range (2 ^ n)).all fun i => (getCl s ((die * 64 + first + i) / 4)).fn == fn then
      some ((die * 64 + slice) * 0x80000000 + (0x60000000 - shareBytes s die) + off)
    else none
  else none

/-! ### ECC and poison (R203, R204) -/

/-- The 64-bit words that n bytes from k touch. -/
def wordsOf (k n : Nat) : List Nat := (List.range (n / 8 + 2)).filterMap fun i =>
  let w := k / 8 + i
  if n > 0 && w * 8 < k + n then some w else none

/-- 0: the words read well; 1: a check fails at this read; 2: a word carries a poison mark. -/
def eccStatus (s : State) (k n : Nat) : Nat :=
  let ws := wordsOf k n
  if ws.any fun w => s.bad.contains w then 1 else if ws.any fun w => s.marks.contains w then 2 else 0

/-- One count of the error counter of the home of a key (R203). -/
def countError (s : State) (k : Nat) : State :=
  match homeOf k with
  | some u => modHome s u fun h => { h with errors := h.errors + 1 }
  | none => s

/-- A word whose check fails when it is read gets a poison mark (R203). -/
def markRead (s : State) (k n : Nat) : State :=
  (wordsOf k n).foldl (fun s w =>
    if s.bad.contains w then
      countError { s with bad := ssDel w s.bad, marks := ssIns w s.marks } (w * 8)
    else s) s

/-- Marks of the words that a store of n bytes at k touches: a whole word clears its mark and its failure, part
of a failing or marked word leaves it marked (R203). -/
def markStore (s : State) (k n : Nat) : State :=
  (wordsOf k n).foldl (fun s w =>
    let whole := k ≤ w * 8 && w * 8 + 8 ≤ k + n
    if whole then { s with bad := ssDel w s.bad, marks := ssDel w s.marks }
    else if s.bad.contains w || s.marks.contains w then
      countError { s with bad := ssDel w s.bad, marks := ssIns w s.marks } (w * 8)
    else s) s

/-- Bytes stored with the rules of R203, and nothing else. -/
def rawStore (s : State) (k n v : Nat) : State :=
  let s := markStore s k n
  { s with mem := memWrite s.mem k n v }

/-! ### Full/empty bits (R130), keyed by 32-bit word -/

def feGet (s : State) (k : Nat) : Bool := s.full.contains (k / 4)
def fePut (s : State) (k : Nat) (b : Bool) : State := { s with full := ssPut (k / 4) b s.full }
/-- The words that n bytes from k touch. -/
def feWords (k n : Nat) : List Nat := (List.range (n / 4 + 2)).filterMap fun i =>
  let w := k / 4 + i
  if n > 0 && w * 4 < k + n then some w else none

end Sys2Proof.Machine
end

