-- ==== Sys2Proof/Machine/Num.lean ====
section
/-!
DEFINITION. Number formats, exact values and rounding (R249, R250, R256 to R260, R291 to R294).
-/

namespace Sys2Proof.Machine

/-- A floating-point format (R249): width, fraction bits, exponent bits. -/
structure Fmt where
  w    : Nat
  fb   : Nat
  eb   : Nat
  e4m3 : Bool := false
  deriving DecidableEq, Repr

def fmtBF16 : Fmt := { w := 16, fb := 7, eb := 8 }
def fmtFP16 : Fmt := { w := 16, fb := 10, eb := 5 }
def fmtFP32 : Fmt := { w := 32, fb := 23, eb := 8 }
def fmtFP64 : Fmt := { w := 64, fb := 52, eb := 11 }
def fmtE4M3 : Fmt := { w := 8, fb := 3, eb := 4, e4m3 := true }
def fmtE5M2 : Fmt := { w := 8, fb := 2, eb := 5 }

/-- The exponent bias (R249). -/
def fmtBias (f : Fmt) : Nat := 2 ^ (f.eb - 1) - 1

/-- The default NaN (R250). -/
def defaultNaN (f : Fmt) : Nat :=
  if f.e4m3 then 0x7F else (2 ^ f.eb - 1) * 2 ^ f.fb + 2 ^ (f.fb - 1)

/-- The largest finite magnitude's encoding (R249). -/
def maxFinite (f : Fmt) : Nat :=
  if f.e4m3 then 0x7E else (2 ^ f.eb - 1) * 2 ^ f.fb - 1

/-- The encoding of +infinity, where the format has one. -/
def infBits (f : Fmt) : Nat := (2 ^ f.eb - 1) * 2 ^ f.fb

/-- The sign bit put on an encoding. -/
def withSign (f : Fmt) (s : Bool) (b : Nat) : Nat := if s then b + 2 ^ (f.w - 1) else b

/-- An exact value: `num s m e st` is (−1)^s·m·2^e, or just above it in magnitude when `st` is set; `nan nv` is
a NaN that sets NV when `nv`; `inf s dz` is an infinity that sets DZ when `dz`. -/
inductive XV where
  | nan (nv : Bool)
  | inf (s dz : Bool)
  | num (s : Bool) (m : Nat) (e : Int) (st : Bool)
  deriving DecidableEq, Repr

/-- The exact value of an encoding (R249). -/
def decodeF (f : Fmt) (b : Nat) : XV :=
  let s := (b >>> (f.w - 1)) % 2 = 1
  let ex := (b >>> f.fb) % 2 ^ f.eb
  let fr := b % 2 ^ f.fb
  if f.e4m3 && ex == 15 && fr == 7 then .nan false
  else if !f.e4m3 && ex == 2 ^ f.eb - 1 then (if fr = 0 then .inf s false else .nan false)
  else if ex = 0 then .num s fr (1 - (fmtBias f : Int) - f.fb) false
  else .num s (2 ^ f.fb + fr) ((ex : Int) - fmtBias f - f.fb) false

/-! ### fflags (R256) -/

def flNX : BitVec 6 := 1
def flUF : BitVec 6 := 2
def flOF : BitVec 6 := 4
def flDZ : BitVec 6 := 8
def flNV : BitVec 6 := 16
def flSA : BitVec 6 := 32

def fl (b : Bool) (f : BitVec 6) : BitVec 6 := if b then f else 0

/-- The rounding context: mode, saturation, generator state (R256, R259). -/
structure RC where
  rm   : Nat := 0
  sat  : Bool := false
  seed : BitVec 32 := 0x9E3779B9
  deriving DecidableEq, Repr

/-- A rounded result: encoding, flags, generator state after. -/
structure FR where
  bits  : Nat := 0
  flags : BitVec 6 := 0
  seed  : BitVec 32 := 0
  deriving DecidableEq, Repr

/-- One step of the generator (R259). -/
def xorshift (x : BitVec 32) : BitVec 32 :=
  let x := x ^^^ (x <<< 13)
  let x := x ^^^ (x >>> 17)
  x ^^^ (x <<< 5)

/-- The generator state after a rounding under the mode (R259). -/
def RC.stepSeed (c : RC) : BitVec 32 := if c.rm = 5 then xorshift c.seed else c.seed

/-- Whether a magnitude t + rem/2^sh (a little more when `st`) rounds away from zero (R257, R259). -/
def roundsUp (rm : Nat) (s : Bool) (t rem sh : Nat) (st : Bool) (u : Nat) : Bool :=
  let half := 2 ^ (sh - 1)
  match rm with
  | 0 => sh != 0 && (rem > half || (rem == half && (st || t % 2 == 1)))
  | 2 => s && (rem != 0 || st)
  | 3 => !s && (rem != 0 || st)
  | 4 => sh != 0 && rem ≥ half
  | 5 => rem * 65536 / 2 ^ sh + u ≥ 65536
  | _ => false

/-- floor of the base-2 logarithm of m·2^e, for m > 0. -/
def expOf (m : Nat) (e : Int) : Int := (Nat.log2 m : Int) + e

/-- A magnitude m·2^e in units of 2^q: quotient, remainder, and the number of bits of the remainder. -/
def alignTo (m : Nat) (e q : Int) : Nat × Nat × Nat :=
  if e ≥ q then (m * 2 ^ (e - q).toNat, 0, 0)
  else
    let sh := (q - e).toNat
    (m / 2 ^ sh, m % 2 ^ sh, sh)

/-- The overflow result (R258). -/
def overflowBits (f : Fmt) (c : RC) (s : Bool) : Nat × BitVec 6 :=
  let inf := if f.e4m3 then defaultNaN f else withSign f s (infBits f)
  let big := withSign f s (maxFinite f)
  if c.sat then (big, flOF ||| flNX ||| flSA)
  else
    let toBig := match c.rm with
      | 1 => true
      | 2 => !s
      | 3 => s
      | _ => false
    (if toBig then big else inf, flOF ||| flNX)

/-- round_to (R257, R258) of an exact nonzero-or-zero magnitude. -/
def roundNum (f : Fmt) (c : RC) (s : Bool) (m0 : Nat) (e0 : Int) (st : Bool) : FR :=
  let seed := c.stepSeed
  if m0 = 0 then { bits := withSign f s 0, seed := seed }
  else
    let m := if st then m0 * 2 ^ 70 else m0
    let e := if st then e0 - 70 else e0
    let emin : Int := 1 - (fmtBias f : Int) - f.fb
    let q := max (expOf m e - f.fb) emin
    let (t, rem, sh) := alignTo m e q
    let inexact := rem != 0 || st
    let u := (seed.toNat >>> 16)
    let t' := if roundsUp c.rm s t rem sh st u then t + 1 else t
    let t2 := if t' = 2 ^ (f.fb + 1) then 2 ^ f.fb else t'
    let q2 := if t' = 2 ^ (f.fb + 1) then q + 1 else q
    let ex := q2 + f.fb + fmtBias f
    let enc := if t2 < 2 ^ f.fb then t2 else ex.toNat * 2 ^ f.fb + (t2 - 2 ^ f.fb)
    if enc > maxFinite f then
      let (b, fs) := overflowBits f c s
      { bits := b, flags := fs, seed := seed }
    else
      let tiny := expOf m e < 1 - (fmtBias f : Int)
      { bits := withSign f s enc, flags := fl inexact flNX ||| fl (inexact && tiny) flUF, seed := seed }

/-- round_to of any exact value, with the special cases of R250 and R258. -/
def roundTo (f : Fmt) (c : RC) : XV → FR
  | .nan nv => { bits := defaultNaN f, flags := fl nv flNV, seed := c.stepSeed }
  | .inf s dz =>
    if f.e4m3 then
      if c.sat then { bits := withSign f s 0x7E, flags := flSA ||| fl dz flDZ, seed := c.stepSeed }
      else { bits := 0x7F, flags := flNV ||| fl dz flDZ, seed := c.stepSeed }
    else { bits := withSign f s (infBits f), flags := fl dz flDZ, seed := c.stepSeed }
  | .num s m e st => roundNum f c s m e st

/-- A magnitude rounded to an integer: the value and whether it is inexact. -/
def roundMag (c : RC) (s : Bool) (m0 : Nat) (e0 : Int) (st : Bool) : Nat × Bool :=
  let m := if st then m0 * 2 ^ 70 else m0
  let e := if st then e0 - 70 else e0
  let (t, rem, sh) := alignTo m e 0
  let u := (c.stepSeed.toNat >>> 16)
  (if roundsUp c.rm s t rem sh st u then t + 1 else t, rem != 0 || st)

/-- Two's complement of w bits. -/
def intBits (w : Nat) (i : Int) : Nat := (i % (2 ^ w : Nat)).toNat

/-- The signed value of w bits. -/
def bitsInt (w : Nat) (b : Nat) : Int :=
  let b := b % 2 ^ w
  if b < 2 ^ (w - 1) then b else (b : Int) - (2 ^ w : Nat)

/-- Clamp to [lo, hi]. -/
def clampI (lo hi x : Int) : Int := if x < lo then lo else if x > hi then hi else x

/-- The limits of a signed integer of w bits. -/
def minInt (w : Nat) : Int := -((2 ^ (w - 1) : Nat) : Int)
def maxInt (w : Nat) : Int := ((2 ^ (w - 1) : Nat) : Int) - 1

/-- Conversion to an integer format of w bits (R258, R294): rounds, saturates with OF, SA and NX, a NaN gives 0
with NV. -/
def roundInt (w : Nat) (c : RC) : XV → Int × BitVec 6 × BitVec 32
  | .nan _ => (0, flNV, c.stepSeed)
  | .inf s _ => (if s then minInt w else maxInt w, flOF ||| flSA ||| flNX, c.stepSeed)
  | .num s m e st =>
    let (t, inx) := roundMag c s m e st
    let v : Int := if s then -(t : Int) else t
    if v < minInt w ∨ v > maxInt w then (clampI (minInt w) (maxInt w) v, flOF ||| flSA ||| flNX, c.stepSeed)
    else (v, fl inx flNX, c.stepSeed)

/-! ### Exact operations (R250, R291) -/

/-- An exact integer as a value. -/
def xvInt (i : Int) : XV := .num (i < 0) i.natAbs 0 false

/-- The signed mantissa in units of 2^q, for q at most the exponent. -/
def scaled (s : Bool) (m : Nat) (e q : Int) : Int :=
  let v : Int := m * 2 ^ (e - q).toNat
  if s then -v else v

/-- The exact sum; `rdn` gives a cancelled zero its negative sign (R291). -/
def xAdd (rdn : Bool) : XV → XV → XV
  | .nan a, .nan b => .nan (a || b)
  | .nan a, _ => .nan a
  | _, .nan b => .nan b
  | .inf s d, .inf s' _ => if s = s' then .inf s d else .nan true
  | .inf s d, .num .. => .inf s d
  | .num .., .inf s d => .inf s d
  | .num s m e _, .num s' m' e' _ =>
    let q := min e e'
    let v := scaled s m e q + scaled s' m' e' q
    if v = 0 then
      if m = 0 ∧ m' = 0 ∧ s = s' then .num s 0 0 false else .num rdn 0 0 false
    else .num (v < 0) v.natAbs q false

/-- The value with its sign inverted. -/
def xNeg : XV → XV
  | .nan a => .nan a
  | .inf s d => .inf (!s) d
  | .num s m e st => .num (!s) m e st

/-- The exact product. -/
def xMul : XV → XV → XV
  | .nan a, .nan b => .nan (a || b)
  | .nan a, _ => .nan a
  | _, .nan b => .nan b
  | .inf s _, .inf s' _ => .inf (s != s') false
  | .inf s _, .num s' m _ _ => if m = 0 then .nan true else .inf (s != s') false
  | .num s m _ _, .inf s' _ => if m = 0 then .nan true else .inf (s != s') false
  | .num s m e st, .num s' m' e' st' => .num (s != s') (m * m') (e + e') (st || st')

/-- A zero without a sign (R250). -/
def plusZero : XV → XV
  | .num s m e st => if m = 0 then .num false 0 0 false else .num s m e st
  | x => x

/-- The quotient, to 128 bits and a sticky bit. -/
def xDiv : XV → XV → XV
  | .nan a, .nan b => .nan (a || b)
  | .nan a, _ => .nan a
  | _, .nan b => .nan b
  | .inf _ _, .inf _ _ => .nan true
  | .inf s _, .num s' _ _ _ => .inf (s != s') false
  | .num s _ _ _, .inf s' _ => .num (s != s') 0 0 false
  | .num s m e _, .num s' m' e' _ =>
    if m' = 0 then (if m = 0 then .nan true else .inf (s != s') true)
    else
      let k := 128 + Nat.log2 m'
      let n := m * 2 ^ k
      .num (s != s') (n / m') (e - e' - k) (n % m' != 0)

/-- Bits of the integer square root, from bit i down. -/
def isqrtGo (n : Nat) : Nat → Nat → Nat
  | 0, r => r
  | i + 1, r =>
    let r' := r + 2 ^ i
    isqrtGo n i (if r' * r' ≤ n then r' else r)

/-- floor of the square root. -/
def isqrt (n : Nat) : Nat := isqrtGo n (Nat.log2 n / 2 + 1) 0

/-- The square root, to 128 bits and a sticky bit. -/
def xSqrt : XV → XV
  | .nan a => .nan a
  | .inf s _ => if s then .nan true else .inf false false
  | .num s m e _ =>
    if m = 0 then .num s 0 0 false
    else if s then .nan true
    else
      let k := 256 + (e % 2).toNat
      let n := m * 2 ^ k
      let r := isqrt n
      .num false r ((e - k) / 2) (r * r != n)

/-- a·b + c, exact (R291); NV for 0 × ∞ even when c is a NaN. -/
def xFma (rdn : Bool) (a b c : XV) : XV := xAdd rdn (xMul a b) c

/-- Multiplication by 2^k. -/
def xScale (k : Int) : XV → XV
  | .num s m e st => .num s m (e + k) st
  | x => x

/-- block_scale (R7) applied to a value. -/
def xBlock (code : Nat) (x : XV) : XV := if code = 0xFF then .nan true else xScale ((code : Int) - 127) x

/-- Order of two numbers; none with a NaN. -1, 0, 1. -/
def xCmp : XV → XV → Option Int
  | .nan _, _ => none
  | _, .nan _ => none
  | .inf s _, .inf s' _ => some (if s = s' then 0 else if s then -1 else 1)
  | .inf s _, .num .. => some (if s then -1 else 1)
  | .num .., .inf s _ => some (if s then 1 else -1)
  | .num s m e _, .num s' m' e' _ =>
    let q := min e e'
    let a := scaled s m e q
    let b := scaled s' m' e' q
    some (if a < b then -1 else if a = b then 0 else 1)

def xSign : XV → Bool
  | .nan _ => false
  | .inf s _ => s
  | .num s _ _ _ => s

def xIsZero : XV → Bool
  | .num _ m _ _ => m == 0
  | _ => false

def xIsNaN : XV → Bool
  | .nan _ => true
  | _ => false

/-- The lesser of two encodings; −0 below +0; a NaN gives the default NaN (R292). -/
def minF (f : Fmt) (a b : Nat) : Nat :=
  match xCmp (decodeF f a) (decodeF f b) with
  | none => defaultNaN f
  | some c => if c < 0 then a else if c > 0 then b else if xSign (decodeF f a) then a else b

/-- The greater of two encodings. -/
def maxF (f : Fmt) (a b : Nat) : Nat :=
  match xCmp (decodeF f a) (decodeF f b) with
  | none => defaultNaN f
  | some c => if c > 0 then a else if c < 0 then b else if xSign (decodeF f a) then b else a

/-- The sign cleared or inverted; a NaN gives the default NaN (R292). -/
def absF (f : Fmt) (a : Nat) : Nat :=
  if xIsNaN (decodeF f a) then defaultNaN f else a % 2 ^ (f.w - 1)
def negF (f : Fmt) (a : Nat) : Nat :=
  if xIsNaN (decodeF f a) then defaultNaN f
  else if a % 2 ^ f.w ≥ 2 ^ (f.w - 1) then a % 2 ^ (f.w - 1) else a % 2 ^ (f.w - 1) + 2 ^ (f.w - 1)

/-- The class mask (R292). -/
def classF (f : Fmt) (a : Nat) : Nat :=
  let s := (a >>> (f.w - 1)) % 2 = 1
  let ex := (a >>> f.fb) % 2 ^ f.eb
  match decodeF f a with
  | .nan _ => 256
  | .inf s _ => if s then 1 else 128
  | .num _ m _ _ =>
    if m = 0 then (if s then 8 else 16)
    else if ex = 0 then (if s then 4 else 32)
    else if s then 2 else 64

/-! ### AX (R260) -/

/-- Rounded RNE to 41 significant bits; zero is +0. -/
def roundAX : XV → XV
  | .num s m e st =>
    if m = 0 then .num false 0 0 false
    else
      let q := expOf m e - 40
      let m1 := if st then m * 2 ^ 64 else m
      let e1 := if st then e - 64 else e
      let (t, rem, sh) := alignTo m1 e1 q
      .num s (if roundsUp 0 s t rem sh st 0 then t + 1 else t) q false
  | x => x

end Sys2Proof.Machine
end

