-- ==== Sys2Proof/Machine/Pages.lean ====
section
/-!
DEFINITION. Pages and their formats (R147 to R150, R248 to R254): page sizes, format codes, scale units and companion entries,
and the check of a TLB entry.
-/

namespace Sys2Proof.Machine

/-- log2 of a page size code (R147). -/
def pageLog (code : Nat) : Nat := [12, 14, 16, 21, 25, 29, 30, 34].getD code 12

/-! ### Format codes (R248 to R254) -/

/-- Bits of an integer format. -/
def fmtInt (c : Nat) : Option Nat :=
  match c with | 1 => some 8 | 2 => some 16 | 3 => some 32 | 4 => some 64 | 5 => some 4 | _ => none

/-- A floating-point format. -/
def fmtFloat (c : Nat) : Option Fmt :=
  match c with
  | 0x08 => some fmtBF16
  | 0x09 => some fmtFP16
  | 0x0A => some fmtFP32
  | 0x0B => some fmtFP64
  | 0x0C => some fmtE4M3
  | 0x0D => some fmtE5M2
  | _ => none

/-- Bits of a block format's element (R251). -/
def bxBits (c : Nat) : Option Nat := match c with | 0x10 => some 8 | 0x11 => some 4 | 0x12 => some 16 | _ => none

/-- Bits of a Q format's element (R252). -/
def qBits (c : Nat) : Option Nat :=
  if 0x18 ≤ c && c ≤ 0x1A then some 8 else if 0x1C ≤ c && c ≤ 0x1E then some 4 else none

/-- Kept values of an S24N format (R253). -/
def s24N (c : Nat) : Option Nat := if 0x31 ≤ c && c ≤ 0x3C then some (c - 0x30) else none

/-- Bits of one stored element, 0 for a format that has none. -/
def elBits (c : Nat) : Nat :=
  match fmtInt c with
  | some b => b
  | none => match fmtFloat c with
    | some f => f.w
    | none => match bxBits c with
      | some b => b
      | none => match qBits c with
        | some b => b
        | none => if (s24N c).isSome then 8 else 0

/-- Whether a code is assigned (R254). -/
def fmtGood (c : Nat) : Bool := c == 0 || c == 0x20 || elBits c != 0

/-- Bytes and elements of the unit of address: a packed byte holds two, an S24N group 24 (R248, R253). -/
def elCell (c : Nat) : Nat × Nat :=
  match s24N c with
  | some n => (n, 24)
  | none => if elBits c = 4 then (1, 2) else (elBits c / 8, 1)

/-- Elements of a scale unit, and bytes of its companion entry (R149). -/
def unitOf (c geom : Nat) : Nat × Nat :=
  if (bxBits c).isSome then (if geom = 1 then 24 else 32, 1)
  else if (qBits c).isSome then (32 * 2 ^ (c % 4), 4)
  else if (s24N c).isSome then (24, 16)
  else (0, 0)

/-- Whether format and geometry agree (R149). -/
def geomOk (c geom : Nat) : Bool :=
  if (bxBits c).isSome then geom == 1 || geom == 2
  else if (qBits c).isSome then geom == 3 + c % 4
  else if (s24N c).isSome then geom == 1
  else geom == 0

/-! ### Fields of a page's entry (R148) -/

def entFmt (e : TlbEnt) : Nat := fld e.w2 63 56
def entGeom (e : TlbEnt) : Nat := fld e.w2 55 53
/-- The page's first virtual address. -/
def entBase (e : TlbEnt) : Nat := fld e.w0 44 0 * 4096
/-- The page's length. -/
def entLen (e : TlbEnt) : Nat := 2 ^ pageLog (fld e.w1 11 9)

/-- The companion entry of element n of a page: its physical address (R149). -/
def companionPa (e : TlbEnt) (n : Nat) : Nat :=
  let (len, sz) := unitOf (entFmt e) (entGeom e)
  fld e.w2 51 6 * 64 + n / len * sz

/-! ### The check of an entry (R147 to R149) -/

/-- Whether a reserved bit or code of an entry is set (R148). -/
def entReserved (x : TlbEnt) : Bool :=
  fld x.w0 47 45 != 0 || fld x.w1 63 52 != 0 || fld x.w1 6 5 != 0 || bitAt x.w1 1 || fld x.w1 8 7 == 3 || bitAt x.w2 52 ||
    fld x.w2 5 0 != 0 || entGeom x ≥ 6

/-- Whether base, size, class and frame go together (R147): both bases multiples of the size, an ordinary page of at most 1 GiB
in ordinary DRAM or host memory, an interleaved page in interleaved space, a coordinate page in either kind of DRAM. -/
def entPlaced (x : TlbEnt) : Bool :=
  let pa := fld x.w1 51 12 * 4096
  let dram := pa < 0x8000000000
  let host := hostKey ≤ pa && pa < hostKey + 0x1000000000000
  entBase x % entLen x == 0 && pa % entLen x == 0 && (match fld x.w1 8 7 with
    | 0 => fld x.w1 11 9 ≤ 6 && (dram || host)
    | 1 => bitAt x.w1 51
    | _ => dram || bitAt x.w1 51)

/-- Whether the companion frame of a page lies in one region of an issuer's DRAM: every unit of its elements has its entry
there (R149). -/
def compPlaced (s : State) (fn : Nat) (x : TlbEnt) : Bool :=
  let (sz, per) := elCell (entFmt x)
  let first := fld x.w2 51 6 * 64
  let last := companionPa x (entLen x / sz * per - 1) + (unitOf (entFmt x) (entGeom x)).2 - 1
  (physKey s fn first).isSome && (physKey s fn last).isSome &&
    ((first / 2 ^ 31 == last / 2 ^ 31 && !isHost first) || (first / 2 ^ 37 == last / 2 ^ 37 && bitAt (wd first) 51))

/-- The cause that a TLB entry is refused with, at TLBW and at a fill of the translation service (R147 to R149, R397; an entry
that breaks R147 counts as one with a reserved field: DESIGN CHOICE, log 70). -/
def tlbCheck (s : State) (fn : Nat) (x : TlbEnt) : Option (BitVec 8) :=
  if entReserved x || !entPlaced x then some 0x12
  else if !fmtGood (entFmt x) || !geomOk (entFmt x) (entGeom x) then some 0x15
  else if entGeom x = 0 then (if fld x.w2 51 6 = 0 then none else some 0x15)
  else if compPlaced s fn x then none else some 0x15

end Sys2Proof.Machine
end

