-- ==== Sys2Proof/Machine/Ops.lean ====
section
/-!
DEFINITION. The named operations that the meanings share: packets and queues (R33 to R41), translation walks
(R144, R153), bursts and records (R84, R86), taking a trap and returning from one (R156, R192, R395), and
discarding a context (R206).
-/

namespace Sys2Proof.Machine

/-! ### Queues and arbitration -/

/-- Key of a queue. Kinds: 0 router input, 1 writer, 2 bridge, 3 direct path, 4 arrivals at a unit, 5 a home's input,
6 a unit's outbound buffer. -/
def qk (kind a b net : Nat) : Nat := ((kind * 0x1000000 + a) * 1024 + b) * 2 + net

def getQ (s : State) (k : Nat) : List Packet := smGet [] s.queues k
def setQ (s : State) (k : Nat) (l : List Packet) : State := { s with queues := smSet [] s.queues k l }

/-- The network of a class: 0 request, 1 response (R34). -/
def netOf (cls : Nat) : Nat := if cls < 16 then 0 else 1

/-- Slack that remains after the ticks spent in this queue (R37); once it is 0 it stays 0 (R38, log 55). -/
def slackLeft (tick : Nat) (p : Packet) : Nat := p.slack - (tick - p.since)

/-- The late age of a packet that is late (R38). -/
def lateAge (tick : Nat) (p : Packet) : Option Nat :=
  match p.late with
  | some a => some a
  | none => if slackLeft tick p = 0 then some (p.since + p.slack) else none

/-- Rank of one packet: late ones by late age, clamped to 2^14 ticks, then by slack (R38, R40). -/
def rankOne (tick : Nat) (late : Option Nat) (slack : Nat) : Nat :=
  match late with
  | some a => max a (tick - 16384)
  | none => 2 ^ 64 + slack

/-- Rank of an entry, the least over its members (R53). -/
def rankPkt (tick : Nat) (p : Packet) : Nat :=
  p.peers.foldl (fun r e => min r (rankOne tick
      (match e.2.2.1 with
        | some a => some a
        | none => if e.2.1 ≤ tick - e.2.2.2.1 then some (e.2.2.2.1 + e.2.1) else none)
      (e.2.1 - (tick - e.2.2.2.1)))) (rankOne tick (lateAge tick p) (slackLeft tick p))

def samePair (p q : Packet) : Bool := p.src == q.src && p.dst == q.dst

/-- The effective rank of a head: the least over its pair in the queue (R39). -/
def effRank (tick : Nat) (q : List Packet) (p : Packet) : Nat :=
  q.foldl (fun r x => if samePair p x then min r (rankPkt tick x) else r) (2 ^ 70)

/-- Whether the packet at index i is the head of its pair stream. -/
def isHead (q : List Packet) (i : Nat) (p : Packet) : Bool := (q.take i).all fun x => !samePair p x

/-- The index of the packet that the arbiter serves among the pair heads that satisfy `ok`, ties to the earlier
arrival (R39, R40); with its effective rank. -/
def arb (tick : Nat) (ok : Packet → Bool) (q : List Packet) : Option (Nat × Nat) :=
  (q.zipIdx).foldl (fun best e =>
    if isHead q e.2 e.1 && ok e.1 then
      let r := effRank tick q e.1
      match best with
      | some (_, r0) => if r < r0 then some (e.2, r) else best
      | none => some (e.2, r)
    else best) none

/-- A packet as it leaves a queue (R37, R38). -/
def depart (tick : Nat) (p : Packet) : Packet :=
  { p with slack := slackLeft tick p, late := lateAge tick p, since := tick }

/-- A packet put at the end of a queue. -/
def pushQ (s : State) (k : Nat) (p : Packet) : State := setQ s k (getQ s k ++ [{ p with since := tickN s }])

/-! ### Sizes of packets (R33; which fields travel: log 22) -/

/-- Bytes of a packet's contents beside its header: an address or target word, and the data that it carries. -/
def bodyBytes : Body → Nat
  | .load _ _ _ => 8
  | .store c _ => 8 + c.length
  | .put c _ _ => 8 + c.length
  | .amo _ _ _ _ _ => 24
  | .carry c => 64 + c.burst.length * 8 + c.row.length
  | .carryBack _ _ _ b r _ _ => 64 + 8 * b.length + r.length
  | .stream _ _ _ b w _ _ => 8 * (b.length + w.length)
  | .stolen _ => 64
  | .stolenU _ => 64
  | .enqueue _ _ _ => 64
  | .urgent _ _ => 64
  | .susp _ _ _ _ _ => 72
  | .bead _ _ _ _ _ _ => 24
  | .mprog _ _ _ _ => 24
  | .rank _ => 64
  | .rq _ _ w _ _ _ _ _ => 16 + 8 * w.length
  | .xlat _ _ _ _ _ => 32
  | .xrep _ _ _ _ _ _ _ => 32
  | .notice _ => 64
  | .reply _ (.words l) => 8 * l.length
  | .frag => 504
  | _ => 16

/-- The packets of 16 flits that go before the one that ends a message: 504 bytes in each (R33). -/
def fragsOf (p : Packet) : Nat := (bodyBytes p.body - 1) / 504

/-- Flits of a packet: 24 bytes of data in the head flit and 32 in each later one, 16 flits at most; of a longer message the
packet that ends it has the rest (R33). -/
def flits (p : Packet) : Nat := 1 + (bodyBytes p.body - 504 * fragsOf p - 24 + 31) / 32

def flitsOf (q : List Packet) : Nat := q.foldl (fun n p => n + flits p) 0

/-! ### Places of units in the mesh (R49; units that R49 does not place: log 3) -/

def routerId (cl x y : Nat) : Nat := cl * 20 + y * 4 + x
def beamRouter (cl : Nat) : Nat := routerId cl 2 0
/-- The router that serves a unit, for units on the mesh. -/
def unitRouter (u : Nat) : Nat :=
  let cl := unitCl u
  let i := unitIdx u
  if i < 16 then routerId cl (i % 4) (i / 4 + 1)
  else if i = 16 || i = 0x28 then routerId cl 0 0
  else if i = 17 || i = 0x2C then routerId cl 1 0
  else if i = 18 || (0x30 ≤ i && i ≤ 0x33) then routerId cl 3 0
  else if i = 0xF8 then routerId cl 0 0
  else beamRouter cl

/-- The channel that carries packets to a unit of its die: slice channels 0 to 63, cluster channels 64 to 79 (R44). -/
def unitChan (u : Nat) : Nat :=
  unitDie u * 128 + (if isSliceUnit u then unitSlice u % 64 else 64 + unitCl u % 16)

/-- The bridge channel of cluster c of a die to a bridge port (R45). -/
def bridgeChan (die port c : Nat) : Nat := die * 128 + 80 + port * 16 + c

/-- A packet handed to the writer of cluster w of a die: for a channel of its die, or for the cluster's bridge channel when
its destination is on another die (R12, R44, R45). -/
def beamOut (s : State) (die w : Nat) (p : Packet) : State :=
  let dd := unitDie p.dst
  let net := netOf p.cls
  if dd = die then pushQ s (qk 1 (unitChan p.dst) w net) p
  else pushQ s (qk 1 (bridgeChan die (if dd % 2 = die % 2 then 1 else 0) w) w net) p

/-- Whether a queue of 32 flits has room for a packet (R49). -/
def flitRoom (q : List Packet) (p : Packet) : Bool := flitsOf q + flits p ≤ 32

def getRouter (s : State) (r : Nat) : Router := smGet {} s.routers r
def modRouter (s : State) (r : Nat) (f : Router → Router) : State := { s with routers := smSet {} s.routers r (f (getRouter s r)) }

/-- The buffer from which a cluster's Beam receiver hands packets to its router, numbered as a unit (log 12). -/
def beamRecv (cl : Nat) : Nat := cl * 256 + 0xFF

/-- The units whose outbound buffers feed the local input of a router. -/
def routerUnits (r : Nat) : List Nat :=
  let cl := r / 20
  ((List.range 19 ++ [0x28, 0x2C, 0x30, 0x31, 0x32, 0x33, 0xF8, 0xFF]).map (cl * 256 + ·)).filter fun u => unitRouter u == r

/-- The outbound buffer that a router serves next, and the place of its packet: the heads of all of them by rank, then the
earlier arrival (R39, R40). -/
def outPick (s : State) (r net : Nat) : Option (Nat × Nat) :=
  ((routerUnits r).foldl (fun (b : Option (Nat × Nat × Nat × Nat)) u =>
    let q := getQ s (qk 6 u 0 net)
    match arb (tickN s) (fun _ => true) q with
    | none => b
    | some (i, rank) =>
      let n := (q[i]?.map (·.num)).getD 0
      match b with
      | some (_, _, r0, n0) => if rank < r0 || (rank == r0 && n < n0) then some (u, i, rank, n) else b
      | none => some (u, i, rank, n)) none).map fun b => (b.1, b.2.1)

/-- The local input of a router filled from the outbound buffers of its units; a router that is powering down takes nothing, and
what waits stays at its sender (R40, R49, R51). -/
def refill (s : State) (r net : Nat) : Nat → State
  | 0 => s
  | n + 1 =>
    if (getRouter s r).st = 1 then s
    else match outPick s r net with
      | none => s
      | some (u, i) =>
        match (getQ s (qk 6 u 0 net))[i]? with
        | none => s
        | some p =>
          if flitRoom (getQ s (qk 0 r 0 net)) p then
            refill (pushQ (setQ s (qk 6 u 0 net) (delAt (getQ s (qk 6 u 0 net)) i)) (qk 0 r 0 net) (depart (tickN s) p)) r net n
          else s

/-- A packet put into the outbound buffer of a unit, from where it enters the local input of its router. -/
def outPut (s : State) (u net : Nat) (p : Packet) : State := refill (pushQ s (qk 6 u 0 net) p) (unitRouter u) net 32

/-- A packet that has come to its unit; the packets that go before the end of a message bring their bytes only. -/
def arrive (s : State) (net : Nat) (p : Packet) : State := if p.body = .frag then s else pushQ s (qk 4 p.dst 0 net) p

/-- One packet issued by its source unit, through its outbound buffer into the local input of its router (R37, R49, log 12).
A packet to its own unit arrives at once. -/
def issueOne (s : State) (p : Packet) : State :=
  let p := { p with num := s.sent }
  let s := { s with sent := s.sent + 1 }
  let net := netOf p.cls
  if p.src = p.dst then arrive s net p
  else if isSliceUnit p.src then beamOut s (unitDie p.src) (unitCl p.src % 16) p
  else outPut s p.src net p

/-- A message issued: in one packet, or in several of one pair where it is longer than 504 bytes (R33). -/
def inject (s : State) (p : Packet) : State :=
  issueOne ((List.range (fragsOf p)).foldl (fun s _ => issueOne s { p with body := .frag }) s) p

/-- A packet made and issued: class, slack, source, destination, contents (R35); slack 0 is late from issue. -/
def send (s : State) (cls slack src dst : Nat) (b : Body) : State :=
  inject s { cls := cls, slack := slack, src := src, dst := dst, body := b,
             late := if slack = 0 then some (tickN s) else none }

/-- A packet that answers a request, with its remaining slack and lateness (R41). -/
def answer (s : State) (cls unit : Nat) (p : Packet) (b : Body) : State :=
  inject s { cls := cls, slack := slackLeft (tickN s) p, late := lateAge (tickN s) p, src := unit, dst := p.src, body := b }

/-- A reply with the request's remaining slack (R41); that of a request that was late is late from issue, with the
request's late age (DESIGN CHOICE, log 57). -/
def reply (s : State) (cls unit : Nat) (p : Packet) (ret : Ret) (r : Res) : State :=
  if ret = .none then s
  else inject s { cls := cls, slack := slackLeft (tickN s) p, late := lateAge (tickN s) p, src := unit, dst := p.src,
                  body := .reply ret r, rdev := p.rdev }

/-- The slack of packets that a cluster's hardware originates (R440). -/
def hskOf (s : State) (unit : Nat) : Nat := (getCl s (unitCl unit)).hsk.toNat

/-! ### Slack of a thread (R35) -/

def skOf (c : Csrs) (k : Nat) : Nat :=
  (match k with | 0 => c.sk0 | 1 => c.sk1 | 2 => c.sk2 | _ => c.sk3).toNat
def dskOf (sl : Slot) : Nat := skOf sl.csr sl.csr.dsk.toNat

/-! ### Walks (R147, R153) -/

/-- The level at which a leaf of a size code stands (R153). -/
def leafLevel (code : Nat) : Nat := if code < 3 then 0 else if code < 6 then 1 else 2

/-- A walk of the native tables from level k: TLB words, or the cause (R153; a malformed table is PROTECTION, log 20). -/
def walkNative (s : State) (fn ctx : Nat) (va : Nat) : Nat → Nat → Except (BitVec 8) TlbEnt
  | 0, _ => .error 0x08
  | k + 1, table =>
    let i := (va >>> (12 + 9 * k)) % 512
    match physKey s fn (table + 16 * i) with
    | none => .error 0x08
    | some key =>
      let w1 := wd (memRead s.mem key 8)
      let w2 := wd (memRead s.mem (key + 8) 8)
      if !bitAt w1 0 then .error 0x07
      else if bitAt w1 1 then walkNative s fn ctx va k (fld w1 51 12 * 4096)
      else
        let code := fld w1 11 9
        if leafLevel code != k then .error 0x08
        else
          let lg := pageLog code
          .ok { w0 := wd (ctx * 2 ^ 48 + (va / 2 ^ lg * 2 ^ lg) / 4096 % 2 ^ 45), w1 := w1, w2 := w2 }

/-- A walk of a host process's radix tables from level k (R153; bit 7 marks a large leaf: PRESUMED, log 21). -/
def walkHost (s : State) (c : Ctx) (ctx va : Nat) : Nat → Nat → Except (BitVec 8) TlbEnt
  | 0, _ => .error 0x08
  | k + 1, table =>
    let i := (va >>> (12 + 9 * k)) % 512
    let e := wd (memRead s.mem (hostKey + (table + 8 * i) % 0x1000000000000) 8)
    let frame := (e.toNat >>> c.posF) % 2 ^ 40
    if !bitAt e c.posP then .error 0x07
    else if k != 0 && !(k ≤ 2 && bitAt e 7) then walkHost s c ctx va k (frame * 4096)
    else
      let code := if k = 0 then 0 else if k = 1 then 3 else 6
      let lg := pageLog code
      let pa := hostKey + (frame * 4096 % 0x1000000000000) / 2 ^ lg * 2 ^ lg
      let x := !bitAt e c.posNx
      let w := bitAt e c.posW
      .ok { w0 := wd (ctx * 2 ^ 48 + (va / 2 ^ lg * 2 ^ lg) / 4096 % 2 ^ 45),
            w1 := wd (pa / 4096 * 4096 + code * 512 + 16 * b2n x + 8 * b2n w + 4 + 1), w2 := 0 }

/-- The translation service's walk for a context (R153); a leaf that TLBW would refuse is none (R148, R149; log 20).
An address beyond a host process's table levels is none of the process, so no page maps it (R143). -/
def walk (s : State) (ctx va : Nat) : Except (BitVec 8) TlbEnt :=
  let c := getCtx s ctx
  if c.host then (if va / 2 ^ (12 + 9 * c.levels) = 0 then walkHost s c ctx va c.levels c.root.toNat else .error 0x07)
  else match walkNative s c.fn ctx va 5 c.root.toNat with
    | .ok e => if (tlbCheck s c.fn e).isSome then .error 0x08 else .ok e
    | .error c => .error c

/-- Permission bits wanted: 1 read, 2 write, 4 fetch (R151). -/
def permOk (w1 : Word) (need : Nat) : Bool :=
  (need % 2 = 0 || bitAt w1 2) && ((need / 2) % 2 = 0 || bitAt w1 3) && ((need / 4) % 2 = 0 || bitAt w1 4)

/-- The physical address of a virtual address under an entry. -/
def entPa (w1 : Word) (va : Nat) : Nat := fld w1 51 12 * 4096 / 2 ^ pageLog (fld w1 11 9) * 2 ^ pageLog (fld w1 11 9) + va % 2 ^ pageLog (fld w1 11 9)

/-- Whether an entry translates an address of a context (R151). -/
def entHit (e : TlbEnt) (ctx va : Nat) : Bool :=
  let lg := pageLog (fld e.w1 11 9)
  bitAt e.w1 0 && fld e.w0 63 48 == ctx && fld e.w0 44 0 / 2 ^ (lg - 12) == va / 2 ^ lg

/-- The TLB entry of a core that translates an address. -/
def tlbFind (s : State) (core ctx va : Nat) : Option TlbEnt :=
  ((getCore s core).tlb.find? fun x => entHit x.2 ctx va).map (·.2)

/-- The scratchpad key of an address in the global aperture, for an issuer of partition fn (R129). -/
def globalScr (s : State) (fn va : Nat) : Option Nat :=
  let core := (va - scrBase) / 0x100000
  let off := va % 0x100000
  if coreExists core && off < scrSize core && coreFn s core == fn then some (scrKey core off) else none

/-- The key of an address under an entry that translates it, with the permission check (R144, R147, R151). -/
def entKey (s : State) (fn : Nat) (e : TlbEnt) (va need : Nat) : Except (BitVec 8) (Nat × TlbEnt) :=
  if !permOk e.w1 need || fld e.w1 8 7 == 2 then .error 0x08
  else match physKey s fn (entPa e.w1 va) with
    | some k => .ok (k, e)
    | none => .error 0x08

/-- The key of a virtual address, within the step, by the entry that a core's TLB holds, else by a walk (R143, R144, R151,
log 11). `core` is the core, whose local aperture it names (none: a unit that has no TLB and to which the aperture names no core). -/
def vkey (s : State) (core : Option Nat) (ctx va need : Nat) : Except (BitVec 8) (Nat × TlbEnt) :=
  let fn := (getCtx s ctx).fn
  if va ≥ 2 ^ 57 then .error 0x08
  else if va < 0x1000000 then
    match core with
    | some c => if va < scrSize c then .ok (scrKey c va, {}) else .error 0x08
    | none => .error 0x08
  else if va < scrBase then do
    let e ← match core.bind fun c => tlbFind s c ctx va with
      | some e => pure e
      | none => walk s ctx va
    entKey s fn e va need
  else if va < scrBase + 0x80000000 then
    match globalScr s fn va with
    | some k => .ok (k, {})
    | none => .error 0x08
  else .error 0x08

/-! ### Translation by an engine (R151, R152) -/

/-- Where a unit's addresses are translated: the core whose local aperture it names, its context, and, for an engine of a core,
the entries that it may use and the pages whose translation failed; with no list of entries, a walk within the step. -/
structure Xl where
  core : Option Nat := none
  ctx  : Nat := 0
  ents : Option (List TlbEnt) := none
  flts : List (Nat × BitVec 8) := []
  deriving DecidableEq, Repr

/-- The entries of a core's TLB. -/
def tlbEnts (s : State) (core : Nat) : List TlbEnt := (getCore s core).tlb.map (·.2)

/-- The translation of an engine of a core: what its operation has been given, then the core's TLB (R151). -/
def engXl (s : State) (local' : Option Nat) (core ctx : Nat) (x : EngTr) : Xl :=
  { core := local', ctx := ctx, ents := some (x.ents ++ tlbEnts s core), flts := x.flts }

/-- The cause by which a translation that is still to be asked for shows: no cause of the device. -/
def needsMiss : BitVec 8 := 0

/-- The key of a virtual address for a unit. -/
def xkey (s : State) (x : Xl) (va need : Nat) : Except (BitVec 8) (Nat × TlbEnt) :=
  match x.ents with
  | none => vkey s x.core x.ctx va need
  | some l =>
    if 0x1000000 ≤ va && va < scrBase then
      match l.find? fun e => entHit e x.ctx va with
      | some e => entKey s (getCtx s x.ctx).fn e va need
      | none => match x.flts.find? fun f => f.1 == va / 4096 with
        | some f => .error f.2
        | none => .error needsMiss
    else vkey s x.core x.ctx va need

/-! ### Registers of a slot -/

/-- The window size W (R120, R122). -/
def winW (sl : Slot) : Nat :=
  let w := (sl.wsize.toNat + 1) * 8
  if sl.ports && w > 120 then 120 else w

/-- Window register gn; g0 reads as zero (R121). -/
def regGet (s : State) (t : Tid) (sl : Slot) (n : Nat) : Word :=
  if n = 0 then 0 else smGet 0 (getCore s t.core).regs (sl.wbase + n)

/-- A write of window register gn; a write of g0 is discarded (R121). -/
def regSet (s : State) (t : Tid) (sl : Slot) (n : Nat) (v : Word) : State :=
  if n = 0 then s else modCore s t.core fun c => { c with regs := smSet 0 c.regs (sl.wbase + n) v }

/-- Predicate kn; k0 reads all ones (R326). -/
def predGet (sl : Slot) (n : Nat) : Word := if n = 0 then BitVec.allOnes 64 else smGet 0 sl.ks n

/-! ### Records and bursts (R84, R86) -/

/-- ksum: bit j−1 set when kj is nonzero (R84). -/
def ksum (sl : Slot) : Nat := (List.range 7).foldl (fun a j => a + (if predGet sl (j + 1) = 0 then 0 else 2 ^ j)) 0

/-- The continuation record of a slot with a given pc (R84); fp is g2 and a0 is g4. -/
def recordOf (s : State) (t : Tid) (sl : Slot) (pc : Word) : List Word :=
  [pc,
   wd (sl.ctx * 65536 + sl.steal.toNat * 256 + sl.prio.toNat * 64 + b2n sl.restart * 32 + b2n sl.ports * 16 + sl.wsize.toNat),
   regGet s t sl 2, sl.join, sl.spb, sl.spl,
   wd (sl.csr.sk3.toNat * 2 ^ 44 + sl.csr.sk2.toNat * 2 ^ 32 + sl.csr.sk1.toNat * 2 ^ 20 + sl.csr.sk0.toNat * 2 ^ 8 + ksum sl),
   regGet s t sl 4]

/-- The priority of a record. -/
def recPrio (ws : List Word) : BitVec 2 := BitVec.ofNat 2 (fld (wAt ws 1) 7 6)

/-- The burst size (R86). -/
def burstSize (w ks : Nat) : Nat := (256 + 8 * (w - 1) + 8 * popCount 7 ks + 63) / 64 * 64

/-- The CSR block (R86). -/
def csrBlock (sl : Slot) : List Word :=
  let c := sl.csr
  [wd (c.dsk.toNat + 4 * b2n c.lateen + 8 * b2n c.spolicy + 16 * c.fmode.toNat + c.fseed.toNat * 2 ^ 32),
   c.wlimt, c.sbound, c.fbound, c.scount, c.fcount, c.fflags.setWidth 64, c.late,
   sl.tls.copy.completed, sl.tls.tile.completed, sl.tls.route.completed, sl.tls.msg.completed, sl.tls.rstore.completed,
   c.remap0, c.remap1, c.remap2, c.remap2n, c.trapvec, c.upvec, c.tcause, c.tval, c.tepc,
   c.upcause, c.upaddr, c.upseq, c.upepc,
   wd (b2n c.trapActive + 2 * b2n c.upcallActive + 4 * b2n c.spawned), 0, 0, 0, 0, 0]

/-- The words of the burst (R86). -/
def burstWords (s : State) (t : Tid) (sl : Slot) : List Word :=
  csrBlock sl ++ (List.range (winW sl - 1)).map (fun i => regGet s t sl (i + 1)) ++
    (List.range 7).filterMap fun j => if predGet sl (j + 1) = 0 then none else some (predGet sl (j + 1))

/-- A timeline as a burst restores it (R87). -/
def tlOf (v : Word) : Timeline := { issued := v, completed := v }

/-- The CSRs that a burst and a record restore (R84, R86). -/
def csrOf (b r : List Word) : Csrs :=
  let w0 := wAt b 0
  let k := wAt r 6
  { sk0 := BitVec.ofNat 12 (fld k 19 8), sk1 := BitVec.ofNat 12 (fld k 31 20), sk2 := BitVec.ofNat 12 (fld k 43 32),
    sk3 := BitVec.ofNat 12 (fld k 55 44), dsk := BitVec.ofNat 2 (fld w0 1 0), lateen := bitAt w0 2, spolicy := bitAt w0 3,
    fmode := BitVec.ofNat 4 (fld w0 7 4), fseed := BitVec.ofNat 32 (fld w0 63 32), wlimt := wAt b 1, sbound := wAt b 2,
    fbound := wAt b 3, scount := wAt b 4, fcount := wAt b 5, fflags := (wAt b 6).setWidth 6, late := wAt b 7,
    remap0 := wAt b 13, remap1 := wAt b 14, remap2 := wAt b 15, remap2n := wAt b 16, trapvec := wAt b 17, upvec := wAt b 18,
    tcause := wAt b 19, tval := wAt b 20, tepc := wAt b 21, upcause := wAt b 22, upaddr := wAt b 23, upseq := wAt b 24,
    upepc := wAt b 25, trapActive := bitAt (wAt b 26) 0, upcallActive := bitAt (wAt b 26) 1, spawned := bitAt (wAt b 26) 2 }

/-- The timelines that a burst restores. -/
def tlsOf (b : List Word) : Timelines :=
  { copy := tlOf (wAt b 8), tile := tlOf (wAt b 9), route := tlOf (wAt b 10), msg := tlOf (wAt b 11), rstore := tlOf (wAt b 12) }

/-! ### Entries, storage, and the end of a continuation (R65, R79) -/

def modEntry (s : State) (e : EntryRef) (f : Entry → Entry) : State :=
  modNq s e.fn e.q fun n => { n with entries := n.entries.map fun x => if x.seq = e.seq then f x else x }

/-- Storage returned to the pool that granted it (R79, R83). -/
def freeArea (s : State) : Area → State
  | .none => s
  | .spill ctx base _ => modCtx s ctx fun c => { c with used := c.used.filter fun u => u.1 != base.toNat }
  | .seg core ctx i => modCore s core fun c => { c with segs := c.segs.filter fun x => x != (ctx, i) }

/-- The segment of a core's pool for a context that is granted next, if any (R79). -/
def freeSeg (s : State) (core ctx : Nat) : Option Nat :=
  (List.range (getCtx s ctx).segs).find? fun i => !(getCore s core).segs.contains (ctx, i)

/-- The address of segment i of a core's pool: the pools of a context lie one after the other, by core number (log 19). -/
def segAddr (s : State) (ctx core i : Nat) : Word := (getCtx s ctx).segB + wd ((core * (getCtx s ctx).segs + i) * 65536)

/-- A continuation that ends: its storage and its share of its launch entry are given back (R65). -/
def endCont (s : State) (uid : Nat) : State :=
  let k := getCont s uid
  let s := k.area2.foldl freeArea (freeArea s k.area)
  let s := match k.entry with
    | some e => modEntry s e fun x => { x with live := x.live - 1 }
    | none => s
  { s with conts := smDel s.conts uid, written := s.written.filter fun w => w.2.2 != uid }

/-- What a slot keeps when its continuation has left it: the ring counter, the chain and upcall counts (R107,
R137, R156). -/
def emptySlot (sl : Slot) : Slot :=
  { seq := sl.seq, chainSeq := sl.chainSeq, upCount := sl.upCount, bps := sl.bps, callSeq := sl.callSeq }

/-! ### Overflow blocks of a deque (R89) -/

/-- The continuations of a core's overflow blocks. -/
def blockUids (l : List OvfBlock) : List Nat := l.flatMap fun b => b.ents.map (·.2)

/-- Overflow blocks without the continuations that a predicate drops; an empty block goes. -/
def keepBlocks (drop : Nat → Bool) (l : List OvfBlock) : List OvfBlock :=
  (l.map fun b => { b with ents := b.ents.filter fun e => !drop e.2 }).filter fun b => !b.ents.isEmpty

/-! ### Discarding a context (R206) -/

/-- The continuation for which an access is parked. -/
def retUid : Ret → Option Nat
  | .thread _ u _ => some u
  | .access _ u _ _ _ => some u
  | .carry _ u _ => some u
  | _ => none

def parkedUid (p : Parked) : Option Nat :=
  match p.kind with
  | .sync op => retUid op.ret
  | .bar _ r => retUid r
  | .park _ u _ _ _ => some u

/-! ### Writes at a home (R203, R356) -/

/-- A continuation sent to the injection queue of the cluster where it last ran, as resumed; R34 lists no class for the
packet, and the model sends it in class 11 (DESIGN CHOICE, log 58). -/
def sendEnqueue (s : State) (unit uid : Nat) (src : RecSrc) : State :=
  let k := getCont s uid
  if k.alive then
    send s 11 (hskOf s unit) unit (coreUnit (svcCore (coreCl k.core))) (.enqueue uid k.ctx src)
  else s

/-- PARKs on a word that its home has written, released in park order (R356). -/
def releaseParks (s : State) (k n : Nat) : State :=
  match homeOf k with
  | none => s
  | some u =>
    (getHome s u).parked.foldl (fun s p =>
      match p.kind with
      | .park e uid _ rec _ =>
        if (wordsOf k n).contains (p.key / 8) && wd (memRead s.mem p.key 8) != e then
          sendEnqueue (modHome s u fun h => { h with parked := h.parked.filter fun x => x != p }) u uid (.mem rec)
        else s
      | _ => s) s

/-- A store at its home: the bytes, the marks, the PARKs that it releases (R203, R356). -/
def homeWrite (s : State) (k n v : Nat) : State := releaseParks (rawStore s k n v) k n

/-- A parked access removed without being performed; a BAR arrival is taken off its word (R311, R318). -/
def unpark (s : State) (u : Nat) (p : Parked) : State :=
  let s := modHome s u fun h => { h with parked := h.parked.filter fun x => x != p }
  match p.kind with
  | .bar _ _ =>
    let w := wd (memRead s.mem p.key 8)
    let a := fld w 15 0 - 1
    let w' := wd (fld w 63 48 * 2 ^ 48 + (if a = 0 then 0 else fld w 47 32 * 2 ^ 32) + fld w 31 16 * 65536 + a)
    homeWrite s p.key 8 w'.toNat
  | _ => s

/-- Status codes of R66. -/
def stFAULT : Nat := 1
def stDISCARDED : Nat := 6

/-- A context discarded (R206), with the status of its incomplete entries. -/
def teardown (s : State) (ctx status : Nat) : State :=
  let mine : Nat → Bool := fun u => (getCont s u).alive && (getCont s u).ctx == ctx
  -- 1: slots stop, parked accesses are withdrawn
  let s1 := allCores.foldl (fun s c =>
    if (getCore s c).slots.any fun e => e.2.uid.isSome && e.2.ctx == ctx || (match e.2.resv with | some u => mine u | none => false) then
      modCore s c fun k => { k with slots := k.slots.foldl (fun m e =>
        if e.2.uid.isSome && e.2.ctx == ctx || (match e.2.resv with | some u => mine u | none => false) then smSet {} m e.1 (emptySlot e.2) else m) k.slots }
    else s) s
  let s1 := s.homes.foldl (fun s1 h => h.2.parked.foldl (fun s1 p =>
    if (match parkedUid p with | some u => mine u | none => false) then unpark s1 h.1 p else s1) s1) s1
  -- 2: deques and injection-queue entries are dropped
  let s2 := s.cores.foldl (fun s1 e => modCore s1 e.1 fun c =>
    let keep := fun (d : DqEnt) => !mine d.uid
    let ids := c.deque.filterMap fun d => if mine d.uid then some d.uid else none
    { c with deque := c.deque.filter keep, udeque := c.udeque.filter keep, uinbox := c.uinbox.filter (fun i => i.ctx != ctx),
             blocks := keepBlocks mine c.blocks, asked := c.asked,
             misses := c.misses.filter (fun m => m.ctx != ctx), eng := c.eng.filter (fun g => g.ctx != ctx),
             iter := c.iter.filter (fun i => !mine i.uid && !ids.contains i.uid),
             -- 5: windows, areas and forwarding entries
             segs := c.segs.filter (fun x => x.1 != ctx), fwd := c.fwd.filter (fun f => f.ctx != ctx) }) s1
  let s3 := (List.range 64).foldl (fun s1 cl =>
    let c := getCl s1 cl
    if c.inj.any (fun i => i.ctx == ctx) || c.enq.any (fun i => i.ctx == ctx) || c.carries.any (fun k => k.ctx == ctx) || c.sparks.any (fun b => b.ctx == ctx) then
      modCl s1 cl fun c => { c with inj := c.inj.filter (fun i => i.ctx != ctx), enq := c.enq.filter (fun i => i.ctx != ctx),
                                    carries := c.carries.filter (fun k => k.ctx != ctx), sparks := c.sparks.filter (fun b => b.ctx != ctx) }
    else s1) s2
  -- 3: claimer death
  let s4 := (List.range 64).foldl (fun s1 cl =>
    (getCl s1 cl).tasks.foldl (fun s1 tk =>
      if tk.bead.ctx = ctx then
        let s1 := modCl s1 cl fun c => { c with tasks := c.tasks.filter fun x => x != tk }
        match homeOf tk.bead.key with
        | some h => send s1 4 (hskOf s1 (coreUnit (svcCore cl))) (coreUnit (svcCore cl)) h
            (.bead tk.bead .death 0 (svcCore cl) 0 .none)
        | none => s1
      else s1) s1) s3
  -- 4: gateway reduction entries become FAILED, with their waiting RQGETs (R227)
  let s5 := (List.range 64).foldl (fun s1 cl =>
    (getCl s1 cl).rq.foldl (fun s1 e =>
      if e.2.st = 1 && (List.range 4).any (fun i => fld (wAt e.2.ws 4) (16 * i + 15) (16 * i) == ctx && ctx != 0) then
        let s1 := (getCl s1 cl).rqWaits.foldl (fun s1 w =>
          if w.entry = e.1 then
            inject s1 { cls := 16, slack := w.slack, late := w.late, src := rqUnit cl, dst := w.src,
                        body := .reply w.ret (.words [0xFFFFFFFE]) }
          else s1) s1
        modCl s1 cl fun c => { c with rq := smSet {} c.rq e.1 { e.2 with st := 4 },
                                      rqWaits := c.rqWaits.filter fun w => w.entry != e.1 }
      else s1) s1) s4
  -- 6: incomplete entries complete with the status
  let s6 := s5.fns.foldl (fun s1 f => f.2.queues.foldl (fun s1 q =>
    if q.2.ctx = some ctx && !q.2.stale then
      modNq s1 f.1 q.1 fun n => { n with entries := n.entries.map fun e =>
        if e.status.isNone then { e with failed := some status, live := 0 } else e }
    else s1) s1) s5
  let s7 := s6.dies.foldl (fun s1 d => modDie s1 d.1 fun x => { x with rank := x.rank.filter fun r => r.1.ctx != ctx }) s6
  let s8 := s7.fns.foldl (fun s1 f => modFn s1 f.1 fun x => { x with held := x.held.filter fun h => fld (wAt h.2 0) 47 32 != ctx }) s7
  let s9 := { s8 with conts := s8.conts.filter fun e => e.2.ctx != ctx }
  modCtx s9 ctx fun c => { c with torn := some status, used := [] }

/-! ### Late operations (R42, R43) -/

/-- n late operations counted for a thread; the first one since a LATE trap was last taken names the next trap's tval, and
the trap is due if lateen is set as late advances. -/
def lateAdd (s : State) (t : Tid) (n : Nat) (va : Word) : State :=
  if n = 0 then s
  else modCsr s t fun c => { c with late := c.late + wd n, lateTval := some (c.lateTval.getD va), lateDue := c.lateDue || c.lateen }

/-- A late reply counts for the service core (R42). -/
def platCount (s : State) (cl : Nat) (p : Packet) : State :=
  if p.late.isSome then modCl s cl fun c => { c with plate := c.plate + 1 } else s

/-! ### Traps (R191, R192) -/

/-- The slot that a taken trap or upcall leaves ready. -/
def readied (sl : Slot) : Slot :=
  { sl with wait := none, ph := [], res := none, xf := [], wdrawn := false, awaits := [], demand := none, coordHit := none, toUnit := none, deliv := none }

/-- Taking a trap: tcause, tval, tepc, trap-active and trapvec, or teardown (R192). -/
def takeTrap (s : State) (t : Tid) (cause : BitVec 8) (tval pc : Word) : State :=
  let sl := getSlot s t
  if sl.csr.trapvec = 0 ∨ sl.csr.trapActive then teardown s sl.ctx stFAULT
  else setSlot s t { readied sl with
    csr := { sl.csr with tcause := cause.setWidth 64, tval := tval, tepc := pc, trapActive := true }, pc := sl.csr.trapvec }

/-- Return from a trap (R192, R395). -/
def trapReturn (s : State) (t : Tid) : State :=
  modSlot s t fun sl => { readied sl with csr := { sl.csr with trapActive := false }, pc := sl.csr.tepc }

/-- A page fault: an upcall, or a trap when one is active or upvec is 0 (R156). -/
def takeUpcall (s : State) (t : Tid) (va pc : Word) : State :=
  let sl := getSlot s t
  if sl.csr.upcallActive ∨ sl.csr.upvec = 0 then takeTrap s t 0x07 va pc
  else setSlot s t { readied sl with
    csr := { sl.csr with upcause := 0x07, upaddr := va, upseq := sl.upCount, upepc := pc, upcallActive := true },
    upCount := sl.upCount + 1, pc := sl.csr.upvec }

/-- Return from an upcall (R156, R395). -/
def upcallReturn (s : State) (t : Tid) : State :=
  modSlot s t fun sl => { readied sl with csr := { sl.csr with upcallActive := false }, pc := sl.csr.upepc }

end Sys2Proof.Machine
end

