-- ==== Sys2Proof/Machine/Homes.lean ====
section
/-!
DEFINITION. What happens within a home's performance of an operation: recording and replay (R190, R209, R210),
the test of parked accesses (R310), the release of PARKs (R356).
-/

namespace Sys2Proof.Machine

/-! ### Recording and replay -/

/-- The partition that a unit belongs to. -/
def unitFn (s : State) (u : Nat) : Nat := (getCl s (unitCl u)).fn

/-- The source field of a trace record: the thread, or the source unit (R209). -/
def retTid : Ret → Option Tid
  | .thread t _ _ => some t
  | .access t _ _ _ _ => some t
  | _ => none

/-- The identifier under which records name a continuation: where it was before it first moved, else the home slot of its
outermost carry (R202, R220). -/
def contTid (s : State) (uid : Nat) : Option Tid :=
  let k := getCont s uid
  match k.orig with
  | some t => some t
  | none => k.carry.getLast?.map (·.home)

/-- The thread whose identifier a record names: the original one of a carry or of a moved thread (R202, R220). -/
def origTid (s : State) (t : Tid) : Tid := ((getSlot s t).uid.bind (contTid s)).getD t

def traceSrc (s : State) (ret : Ret) (src : Nat) : Nat :=
  match ret with
  | .carry _ u _ => ((contTid s u).map fun t => 0x20000 + tidWord t).getD src
  | _ => match retTid ret with
    | some t => 0x20000 + tidWord (origTid s t)
    | none => src

/-- The three words of a trace record (R209). -/
def traceRec (s : State) (addr cls seq src : Nat) : List Word :=
  [wd addr, wd (tickN s % 2 ^ 24 * 2 ^ 40 + cls * 2 ^ 32 + seq % 2 ^ 32), wd src]

/-- Whether the ring of a partition has room for n records under stall (R209). -/
def traceRoomN (s : State) (fn n : Nat) : Bool :=
  let f := getFn s fn
  !f.recMode || !f.trStall || f.trHead + 24 * n ≤ f.trTail + f.trBytes.toNat

/-- Whether the ring of a partition has room for the record of an operation under stall (R209). -/
def traceRoom (s : State) (fn : Nat) : Bool := traceRoomN s fn 1

/-- Bytes of a record written into the ring of a partition. -/
def ringWrite (s : State) (fn : Nat) (ws : List Word) : State :=
  let f := getFn s fn
  let n := f.trBytes.toNat
  if n < 24 then s
  else
    let s := (wordBytes ws).zipIdx.foldl (fun s e =>
      match physKey s fn (f.trBase.toNat + (f.trHead + e.2) % n) with
      | some k => { s with mem := memPut s.mem k e.1 }
      | none => s) s
    modFn s fn fun f => { f with trHead := f.trHead + 24 }

/-- Whether a trace record belongs to a home: by its address, and for a bead operation, whose address is a handle, by
the home to which a context of the partition maps it. Records of coordinate operations are ordered by `coordRec`. -/
def recHere (s : State) (fn unit cls src a : Nat) : Bool :=
  if cls = 4 then
    s.ctxs.any fun c => c.2.fn == fn &&
      match vkey s (if src ≥ 0x20000 then some ((src - 0x20000) / 64) else none) c.1 a 1 with
      | .ok (k, _) => homeOf k == some unit
      | .error _ => false
  else cls != 5 && decide (cls < 32) && homeOf a == some unit

/-- The next record of the replayed trace from index i whose class, source and address have this home (R210), as
(index, class, source, address). -/
def replayNext (s : State) (fn unit : Nat) : Nat → Nat → Option (Nat × Nat × Nat × Nat)
  | 0, _ => none
  | n + 1, i =>
    let f := getFn s fn
    if (i + 1) * 24 > f.rpBytes.toNat then none
    else
      match physKey s fn (f.rpBase.toNat + i * 24) with
      | none => none
      | some k =>
        let a := memRead s.mem k 8
        let cls := memRead s.mem (k + 12) 1
        let src := memRead s.mem (k + 16) 8 % 2 ^ 18
        if recHere s fn unit cls src a then some (i, cls, src, a) else replayNext s fn unit n (i + 1)

/-- The first record of a coordinate operation in the replayed trace, from index i, that no operation has taken and that `ok`
admits, as (index, class, source, address). One ring holds the records of every home, and the address of such a record, a
linear coordinate, names no home: all homes of the partition keep one order of them (R209, log 37). -/
def coordRec (s : State) (fn : Nat) (ok : Nat → Nat → Bool) : Nat → Nat → Option (Nat × Nat × Nat × Nat)
  | 0, _ => none
  | n + 1, i =>
    let f := getFn s fn
    if (i + 1) * 24 > f.rpBytes.toNat then none
    else
      match physKey s fn (f.rpBase.toNat + i * 24) with
      | none => none
      | some k =>
        let a := memRead s.mem k 8
        let src := memRead s.mem (k + 16) 8 % 2 ^ 18
        if memRead s.mem (k + 12) 1 == 5 && !f.rep5.contains i && ok src a then some (i, 5, src, a) else coordRec s fn ok n (i + 1)

/-- The record that the trace of a home holds next for an operation of a class. -/
def replayHead (s : State) (unit cls : Nat) : Option (Nat × Nat × Nat × Nat) :=
  let fn := unitFn s unit
  let n := (getFn s fn).rpBytes.toNat / 24 + 1
  if cls = 5 then coordRec s fn (fun _ _ => true) n 0 else replayNext s fn unit n (getHome s unit).replayAt

/-- Whether a record of the replayed trace from index i matches an operation. -/
def recordLeft (s : State) (fn unit cls src addr : Nat) : Nat → Nat → Bool
  | 0, _ => false
  | n + 1, i =>
    match replayNext s fn unit ((getFn s fn).rpBytes.toNat / 24 + 1) i with
    | some (j, c, sr, a) => (c == cls && sr == src && a == addr) || recordLeft s fn unit cls src addr n (j + 1)
    | none => false

/-- The place of the first record of the replayed trace from index i that matches an operation. -/
def recordIdx (s : State) (fn unit cls src addr : Nat) : Nat → Nat → Option Nat
  | 0, _ => none
  | n + 1, i =>
    match replayNext s fn unit ((getFn s fn).rpBytes.toNat / 24 + 1) i with
    | some (j, c, sr, a) => if c == cls && sr == src && a == addr then some j else recordIdx s fn unit cls src addr n (j + 1)
    | none => none

/-- Whether the rest of a home's trace holds an operation. -/
def inTrace (s : State) (unit cls src addr : Nat) : Bool :=
  let fn := unitFn s unit
  let n := (getFn s fn).rpBytes.toNat / 24 + 1
  if cls = 5 then (coordRec s fn (fun sr a => sr == src && a == addr) n 0).isSome
  else recordLeft s fn unit cls src addr n (getHome s unit).replayAt

/-- Whether replay lets a home perform an operation now: its next record matches, or the home is free (R190, R210). One that the
rest of its trace does not hold is performed too: it leads the home out of its trace, but for urgent work, which runs outside
the enforced order (R74). -/
def replayOk (s : State) (unit cls src addr : Nat) : Bool :=
  if !(getFn s (unitFn s unit)).replay || (getHome s unit).free then true
  else match replayHead s unit cls with
    | some (_, c, sr, a) => (c == cls && sr == src && a == addr) || !inTrace s unit cls src addr
    | none => true

/-- The thread of a return address that runs urgent work, whose operations replay does not order (R74). -/
def retUrgent (s : State) (ret : Ret) : Bool :=
  match retTid ret with
  | some t => (getSlot s t).urgent
  | none => false

/-- A home in replay that an arrival, or a missing arrival, has led out of its trace: the divergence flag is set, the
mismatch written, and the home performs in arrival order from then on (R210). -/
def diverge (s : State) (unit addr cls src : Nat) : State :=
  let fn := unitFn s unit
  let s := ringWrite s fn (traceRec s addr cls 0 src)
  modHome (modFn s fn fun f => { f with diverged := true }) unit fun h => { h with free := true }

/-- The index of the trace record that an operation takes: its home's next one, or for a coordinate operation the first that
matches it. -/
def replayTake (s : State) (unit cls src addr : Nat) : Option Nat :=
  let fn := unitFn s unit
  let f := getFn s fn
  if !f.replay then none
  else if cls = 5 then (coordRec s fn (fun sr a => sr == src && a == addr) (f.rpBytes.toNat / 24 + 1) 0).map (·.1)
  else if (getHome s unit).free then none
  else (replayHead s unit cls).bind fun r => if r.2 == (cls, src, addr) then some r.1 else none

/-- The records of an operation that a home performs: its pair's sequence number, its trace record, and its place in
the replayed trace. One that the trace does not hold leads the home out of it; urgent work that it does not hold runs outside
the enforced order and sets the divergence flag (R74, R190, R209, R210). -/
def homeNote (s : State) (unit cls src srcUnit addr : Nat) (urgent : Bool := false) : State :=
  let fn := unitFn s unit
  let f := getFn s fn
  if !f.recMode && !f.replay then s
  else
    let h := getHome s unit
    let seq := smGet 0 h.pairSeq srcUnit
    let s := if f.recMode then ringWrite s fn (traceRec s addr cls seq src) else s
    let hit := replayTake s unit cls src addr
    let s := if f.replay && !h.free && hit.isNone then
        (if urgent then modFn s fn fun f => { f with diverged := true } else diverge s unit addr cls src) else s
    let s := match hit with
      | some i => if cls = 5 then modFn s fn fun f => { f with rep5 := i :: f.rep5, rep5At := tickN s } else s
      | none => s
    modHome s unit fun h => { h with pairSeq := smSet 0 h.pairSeq srcUnit (seq + 1)
                                     replayAt := (match hit with | some i => if cls = 5 then h.replayAt else i + 1 | none => h.replayAt)
                                     lastRep := if hit.isSome then tickN s else h.lastRep }

/-- An arrival at a home in replay: one that matches no record of its trace leads it out of the trace at once, but for urgent
work (R74, R210). -/
def arrivalNote (s : State) (unit cls src addr : Nat) (urgent : Bool) : State :=
  let f := getFn s (unitFn s unit)
  if f.replay && !(getHome s unit).free && !urgent && !inTrace s unit cls src addr then diverge s unit addr cls src else s

/-! ### Accesses that are performed line by line (R190, R209, R210) -/

/-- The trace records of accesses to 64-byte lines at their homes: `src` is the source that they name, `srcUnit` the unit
that issues them (R209, log 11). -/
def lineNotesOf (s : State) (cls src srcUnit : Nat) (ks : List Nat) (urgent : Bool := false) : State :=
  ks.foldl (fun s k =>
    match homeOf (k * 64) with
    | some h => homeNote s h cls src srcUnit (k * 64) urgent
    | none => s) s

/-- Whether every home concerned may perform such accesses now (R190, R209, R210). -/
def lineGateOf (s : State) (cls src : Nat) (ks : List Nat) : Bool :=
  (ks.all fun k =>
    match homeOf (k * 64) with
    | some h => traceRoomN s (unitFn s h) ks.length && ((ks.find? fun j => homeOf (j * 64) == some h) != some k || replayOk s h cls src (k * 64))
    | none => true)

/-- The same for accesses of a unit, which names itself as their source. -/
def lineNotes (s : State) (cls u : Nat) (ks : List Nat) : State := lineNotesOf s cls u u ks
def lineGate (s : State) (cls u : Nat) (ks : List Nat) : Bool := lineGateOf s cls u ks

/-- The 64-byte lines of a list of keys, each once. -/
def linesOf (ks : List Nat) : List Nat := (ks.map (· / 64)).eraseDups

/-- The homes of lines, without the unit that reads and writes them and host memory, which has none. -/
def lineHomes (u : Nat) (ls : List Nat) : List Nat := (ls.filterMap fun k => homeOf (k * 64)).filter fun h => h != u

/-- Whether a request that a unit issued to a home before packet number `mark` is still under way (R54). -/
def olderUnder (s : State) (u mark h : Nat) : Bool :=
  s.queues.any fun q => q.2.any fun p =>
    netOf p.cls == 0 && p.dst == h && ((p.src == u && decide (p.num < mark)) || p.peers.any fun m => m.1 == u)

/-- Whether a home of some lines has such a request still to perform. -/
def linesWait (s : State) (u mark : Nat) (ks : List Nat) : Bool :=
  ks.any fun k => match homeOf (k * 64) with
    | some h => olderUnder s u mark h
    | none => false

/-- The address under which the operations of a core's deque are recorded (R190, log 37). -/
def dequeKey (core : Nat) : Nat := scrKey core 0

/-- Whether a core's deque may perform an operation of a source now. -/
def dequeGate (s : State) (core src : Nat) : Bool :=
  traceRoom s (coreFn s core) && replayOk s (coreUnit core) 8 src (dequeKey core)

/-- The records of an operation of a core's deque. -/
def dequeNote (s : State) (core src srcUnit : Nat) (urgent : Bool := false) : State :=
  homeNote s (coreUnit core) 8 src srcUnit (dequeKey core) urgent

/-! ### Enqueueing a continuation (R88) -/

/-- The continuation whose record lies at a virtual address of a context. -/
def recUid (s : State) (ctx : Nat) (addr : Word) : Option Nat :=
  (s.written.find? fun w => w.1 == ctx && w.2.1 == addr).map fun w => w.2.2

/-- Note that a continuation's record lies at an address. -/
def noteRec (s : State) (ctx : Nat) (addr : Word) (uid : Nat) : State :=
  { s with written := (ctx, addr, uid) :: s.written.filter fun w => !(w.1 == ctx && w.2.1 == addr) && w.2.2 != uid }

/-! ### Parked accesses (R308 to R311) -/

/-- Whether a synchronising access's condition holds (R308, R348). -/
def syncHolds (s : State) (op : SyncOp) : Bool :=
  match op.kind with
  | 0 | 1 => (feWords op.key op.bytes).all fun w => s.full.contains w
  | 2 => (feWords op.key op.bytes).all fun w => !s.full.contains w
  | 3 => true
  | _ => op.need.all fun w => s.full.contains w

/-- Bits of the words of n bytes set or cleared. -/
def setFull (s : State) (k n : Nat) (b : Bool) : State :=
  { s with full := (feWords k n).foldl (fun l w => ssPut w b l) s.full }

/-- A list of bytes stored at their homes. -/
def homeWriteL (s : State) (k : Nat) (l : List Byte) : State := homeWrite s k l.length (leNat l)

/-- Bytes of rising keys put together into runs of neighbours. -/
def cellRuns : List Host.Cell → List (Nat × List Byte)
  | [] => []
  | (k, b) :: r =>
    match cellRuns r with
    | (k', l) :: rs => if k + 1 = k' then (k, b :: l) :: rs else (k, [b]) :: (k', l) :: rs
    | [] => [(k, [b])]

/-- A store of bytes in rising order of key, at their home (R303, R346). -/
def storeAtHome (s : State) (cells : List Host.Cell) : State :=
  (cellRuns cells).foldl (fun s r => homeWriteL s r.1 r.2) s

/-- The 64-bit words of a line that bit i of a mask names, read at their home: eight words, then the masks of those
whose check fails and of those that carry a mark (R203, R204, R346). -/
def readLine (s : State) (line mask : Nat) : State × Res :=
  let ws := (List.range 8).filter fun i => (mask >>> i) % 2 = 1
  let set := fun (p : Nat → Bool) => wd (ws.foldl (fun m i => if p (line * 8 + i) then m + 2 ^ i else m) 0)
  (ws.foldl (fun s i => markRead s (line * 64 + 8 * i) 8) s,
   .words ((List.range 8).map (fun i => if (mask >>> i) % 2 = 1 then wd (memRead s.mem (line * 64 + 8 * i) 8) else 0) ++
     [set fun w => s.bad.contains w, set fun w => s.marks.contains w]))

/-- A synchronising access acts: the new state and its reply (R308, R313, R348). -/
def syncAct (s : State) (op : SyncOp) : State × Res :=
  match op.kind with
  | 0 | 1 =>
    let e := eccStatus s op.key op.bytes
    if e = 0 then
      let v := wd (memRead s.mem op.key op.bytes)
      (if op.kind = 1 then setFull s op.key op.bytes false else s, .words [v])
    else (markRead s op.key op.bytes, .fault (if e = 1 then 0x18 else 0x14) op.va)
  | 2 | 3 => (setFull (homeWrite s op.key op.bytes op.data.toNat) op.key op.bytes true, .ok)
  | _ =>
    let ws := (List.range 8).map fun i => wd (memRead s.mem (op.key + 8 * i) 8)
    let first := (op.need.map fun w => w / 2).find? fun w => s.bad.contains w || s.marks.contains w
    match first with
    | none => (s, .words (ws ++ [0]))
    | some w =>
      let c := if s.bad.contains w then 0x18 else 0x14
      (op.need.foldl (fun s w => markRead s (w * 4) 4) s, .words (ws ++ [wd (c * 65536 + (w * 8 - op.key))]))

/-- The reply to a parked access, with the slack that remained when it parked (R308). -/
def parkedReply (s : State) (unit cls : Nat) (p : Parked) (ret : Ret) (r : Res) : State :=
  inject s { cls := cls, slack := p.slack, late := p.late, src := unit, dst := p.src, body := .reply ret r }

/-- The class of a synchronising access's reply (R34). -/
def syncCls (op : SyncOp) : Nat := if op.kind = 2 || op.kind = 3 then 17 else 16

/-- One pass over the accesses parked at a core, in park order (R310). -/
def retestPass (s : State) (unit : Nat) : List Parked → State × Bool
  | [] => (s, false)
  | p :: r =>
    match p.kind with
    | .sync op =>
      let src := traceSrc s op.ret p.src
      if syncHolds s op && traceRoom s (unitFn s unit) && replayOk s unit 3 src op.key then
        let s := modHome s unit fun h => { h with parked := h.parked.filter fun x => x != p }
        let (s, res) := syncAct s op
        let s := homeNote s unit 3 src p.src op.key (retUrgent s op.ret)
        let s := parkedReply s unit (syncCls op) p op.ret res
        ((retestPass s unit r).1, true)
      else retestPass s unit r
    | _ => retestPass s unit r

/-- Passes until no parked access acts. -/
def retestGo (unit : Nat) : Nat → State → State
  | 0, s => s
  | n + 1, s =>
    let (s', acted) := retestPass s unit (getHome s unit).parked
    if acted then retestGo unit n s' else s'

/-- The test of the accesses parked at a core after full/empty bits have changed (R310). -/
def retest (s : State) (core : Nat) : State :=
  let u := coreUnit core
  retestGo u ((getHome s u).parked.length + 1) s

/-- Bits changed at a key's core, and the parked accesses tested (R310). -/
def setFullAt (s : State) (k n : Nat) (b : Bool) : State := retest (setFull s k n b) (keyCore k)

/-- A write by an engine, staging or MRET: the bytes at their home; scratchpad words become full (R130, R131). -/
def engineWrite (s : State) (k : Nat) (l : List Byte) : State :=
  let s := homeWriteL s k l
  if isScr k then setFullAt s k l.length true else s

/-- A mark set on each word that bytes from k touch, as a copy carries it (R203). -/
def carryMark (s : State) (k n : Nat) : State :=
  { s with marks := (wordsOf k n).foldl (fun l w => ssIns w l) s.marks,
           bad := (wordsOf k n).foldl (fun l w => ssDel w l) s.bad }

/-- Bytes of a copy at their home, with the marks of the words whose bytes carry one; full/empty bits stay (R130, R203). -/
def putAtHome (s : State) (cells : List Host.Cell) (marks : List Nat) : State :=
  marks.foldl (fun s k => carryMark s k 1) (storeAtHome s cells)

end Sys2Proof.Machine
end

