-- ==== Sys2Proof/Machine/BeadOps.lean ====
section
/-!
DEFINITION. Beads at their homes: the record, waiter entries, wakes, claims, demand chains and the state table
(R104 to R112, R114, R115).
-/

namespace Sys2Proof.Machine

/-! ### The record (R104) -/

/-- Word i of a bead. -/
def bdWord (s : State) (key i : Nat) : Word := wd (memRead s.mem (key + 8 * i) 8)
/-- A word of a bead written. -/
def bdPut (s : State) (key i : Nat) (w : Word) : State := homeWrite s (key + 8 * i) 8 w.toNat
/-- The state code. -/
def bdState (s : State) (key : Nat) : Nat := fld (bdWord s key 0) 3 0
/-- Whether a bead has a reserved state code or a nonzero reserved bit (R105). -/
def bdBad (s : State) (key : Nat) : Bool :=
  let w := bdWord s key 0
  fld w 63 50 != 0 || fld w 7 4 != 0 || decide (fld w 3 0 ≥ 6)
/-- Word 0 with a state and poison bit. -/
def bdW0 (w : Word) (st : Nat) (poison : Bool) : Word :=
  wd (fld w 63 50 * 2 ^ 50 + b2n poison * 2 ^ 49 + fld w 48 4 * 16 + st)

/-! ### Waiter entries (R106) -/

/-- The address of entry i of the waiter pool of a cluster (log 5). -/
def waiterAddr (cl i : Nat) : Word := wd (2 ^ 63 + (cl * 4096 + i) * 64)

/-- A free entry of the pool. -/
def waiterFree (s : State) (cl : Nat) : Option Nat :=
  let ws := (getCl s cl).waiters
  if ws.length < 4096 then (List.range 4096).find? fun i => !ws.any fun w => w.1 == i else none

/-- The entries of a list from its head, as pool indices. -/
def waiterList (ws : SMap Waiter) : Nat → Word → List Nat
  | 0, _ => []
  | n + 1, a =>
    if a = 0 then []
    else match ws.find? fun w => w.2.addr == a with
      | some w => w.1 :: waiterList ws n w.2.next
      | none => []

/-- The waiters of a bead, oldest first, with their pool indices. -/
def waitersOf (s : State) (unit key : Nat) : List (Nat × Waiter) :=
  let ws := (getCl s (unitCl unit)).waiters
  (waiterList ws 4096 (bdWord s key 3)).filterMap fun i => (ws.find? fun w => w.1 == i).map fun w => (i, w.2)

def setWaiters (s : State) (cl : Nat) (f : SMap Waiter → SMap Waiter) : State := modCl s cl fun c => { c with waiters := f c.waiters }

/-- The list of a bead made that of the given entries, in order. -/
def relink (s : State) (unit key : Nat) (l : List (Nat × Waiter)) : State :=
  let cl := unitCl unit
  let s := (l.zipIdx).foldl (fun s e =>
    setWaiters s cl fun m => smSet {} m e.1.1 { e.1.2 with next := match l[e.2 + 1]? with | some n => n.2.addr | none => 0 }) s
  bdPut s key 3 (match l with | e :: _ => e.2.addr | [] => 0)

/-- A waiter appended; `w` is complete but for its address and link. -/
def appendWaiter (s : State) (unit key : Nat) (w : Waiter) : State :=
  let cl := unitCl unit
  match waiterFree s cl with
  | none => s
  | some i => relink s unit key (waitersOf s unit key ++ [(i, { w with addr := waiterAddr cl i, next := 0 })])

/-- A waiter taken off a bead's list and its entry freed. -/
def dropWaiter (s : State) (unit key i : Nat) : State :=
  let l := (waitersOf s unit key).filter fun e => e.1 != i
  relink (setWaiters s (unitCl unit) fun m => smDel m i) unit key l

/-! ### Chains (R107, R108) -/

/-- The thread or service core that a chain identifier names. -/
def chainTid (c : Word) : Tid := wordTid (fld c 16 0)
/-- The cluster of a chain's root. -/
def chainRoot (c : Word) : Nat := coreCl (chainTid c).core
/-- Whether a chain is a spark's that has not ended. -/
def chainSpark (s : State) (c : Word) : Bool := (getCl s (chainRoot c)).sparkCh.any fun e => e.1 == c

/-- A chain that ends: its entry at its root is freed. -/
def wfcFree (s : State) (c : Word) : State :=
  if (getCl s (chainRoot c)).wfc.any fun w => w.chain == c then
    modCl s (chainRoot c) fun x => { x with wfc := x.wfc.filter fun w => w.chain != c }
  else s

/-- A spark's chain ends as its own bead leaves CLAIMED, or as its claim fizzles (R108, R114). -/
def sparkEnd (s : State) (c : Word) (key : Nat) : State :=
  if (getCl s (chainRoot c)).sparkCh.contains (c, key) then
    wfcFree (modCl s (chainRoot c) fun x => { x with sparkCh := x.sparkCh.filter fun e => e != (c, key) }) c
  else s

/-- A chain that no longer waits on a handle. -/
def wfcIdle (s : State) (c h : Word) : State :=
  if (getCl s (chainRoot c)).wfc.any fun w => w.chain == c && w.handle == h then
    modCl s (chainRoot c) fun x => { x with wfc := x.wfc.map fun w => if w.chain = c && w.handle = h then { w with on := none } else w }
  else s

/-! ### Wakes (R106) -/

/-- A waiter, no longer on a list, woken with a delivery. -/
def wakeOne (s : State) (unit : Nat) (w : Waiter) (d : Deliv) : State :=
  let s := if w.kind = 1 then s else wfcIdle s w.chain w.handle
  send s 18 w.slack unit (coreUnit w.wcore) (.wake w d)

/-- Every waiter of a bead woken in list order; the list is emptied. -/
def wakeAll (s : State) (unit key : Nat) (d : Deliv) : State :=
  let l := waitersOf s unit key
  let s := setWaiters s (unitCl unit) fun m => m.filter fun w => !l.any fun e => e.1 == w.1
  l.foldl (fun s e => wakeOne s unit e.2 d) (bdPut s key 3 0)

/-! ### Claims (R109, R113) -/

/-- The submission context of a bead (R378). -/
def bdSub (s : State) (key : Nat) : Sub := smGet {} s.subs key
def setSub (s : State) (key : Nat) (x : Sub) : State := { s with subs := smSet {} s.subs key x }

/-- claim(b, c), and the task handed to the tile scheduler of the home's cluster. -/
def bdClaim (s : State) (unit : Nat) (b : BeadRef) (c : Word) (demanded : Bool) : State :=
  let s := bdPut s b.key 0 (bdW0 (bdWord s b.key 0) 2 (bitAt (bdWord s b.key 0) 49))
  let s := bdPut s b.key 2 c
  modCl s (unitCl unit) fun x => { x with tasks := x.tasks ++
    [{ bead := b, chain := c, demanded := demanded, spark := !demanded, recA := bdWord s b.key 1, sub := bdSub s b.key }] }

/-- The notice to the issuer of a TENQ when its bead leaves CLAIMED (R362). -/
def tenqNotice (s : State) (unit key : Nat) (st : RingSt) (flags : BitVec 6) : State :=
  let sub := bdSub s key
  match sub.tenq with
  | some (.thread t u va) =>
    send (setSub s key { sub with tenq := none }) 18 (hskOf s unit) unit (coreUnit t.core) (.ringDone t u sub.seq st flags va)
  | _ => s

/-- What leaving CLAIMED does beside the bead's words: the notice of a TENQ, the end of the chain of the spark that claimed
this bead, and, but for an operand failure, the end of the submission context. -/
def leaveClaimed (s : State) (unit key : Nat) (st : RingSt) (flags : BitVec 6) (keep : Bool) : State :=
  let c := bdWord s key 2
  let s := tenqNotice s unit key st flags
  let s := sparkEnd s c key
  if keep then s else setSub s key {}

/-- A bead that becomes FAILED with a cause; its waiters are woken with it (R109, R115). -/
def bdFail (s : State) (unit : Nat) (b : BeadRef) (cause : BitVec 8) : State :=
  let s := leaveClaimed s unit b.key (.faulted cause) 0 false
  let s := bdPut s b.key 0 (bdW0 (bdWord s b.key 0) 4 false)
  wakeAll (bdPut s b.key 2 (cause.setWidth 64)) unit b.key (.fail cause b.handle)

/-! ### FORCE and HWAIT (R109 to R111) -/

/-- A reply to a bead operation (class 18). -/
def bdReply (s : State) (unit : Nat) (p : Packet) (ret : Ret) (r : Res) : State := reply s 18 unit p ret r

/-- The edge of a chain that waits on a bead claimed by another chain, sent to its root (R108). -/
def sendEdge (s : State) (unit : Nat) (a c : Word) (b : BeadRef) : State :=
  send s 4 (hskOf s unit) unit (coreUnit (svcCore (chainRoot a))) (.wfcEdge a c b.handle b)

/-- The claimed task that a FORCE meets is demanded from then on (R114). -/
def demandTask (s : State) (unit key : Nat) : State :=
  modCl s (unitCl unit) fun x => { x with tasks := x.tasks.map fun t => if t.bead.key = key then { t with demanded := true } else t }

/-- A FORCE by chain f with the waiter entry that it appends; `out` gives its reply. -/
def bdForce (s : State) (unit : Nat) (b : BeadRef) (f : Word) (w : Waiter) (out : State → Res → State) : State :=
  match bdState s b.key with
  | 0 => out s (.fault 0x08 b.handle)
  | 1 => appendWaiter (out (bdClaim s unit b f true) .waits) unit b.key w
  | 2 =>
    let c := bdWord s b.key 2
    if c = f then
      let s := out s (.fault 0x0B b.handle)
      if chainSpark s f then bdFail s unit b 0x0B else s
    else sendEdge (demandTask (appendWaiter (out s .waits) unit b.key w) unit b.key) unit f c b
  | 4 => out s (.fault (BitVec.ofNat 8 (fld (bdWord s b.key 2) 7 0)) b.handle)
  | st => out s (.value (bdWord s b.key 1) (st == 5) 0)

/-- An HWAIT. -/
def bdHwait (s : State) (unit : Nat) (b : BeadRef) (w : Waiter) (out : State → Res → State) : State :=
  match bdState s b.key with
  | 0 => out s (.fault 0x08 b.handle)
  | 1 | 2 => appendWaiter (out s .waits) unit b.key w
  | 4 => out s (.fault (BitVec.ofNat 8 (fld (bdWord s b.key 2) 7 0)) b.handle)
  | st => out s (.value (bdWord s b.key 1) (st == 5) 0)

/-- The waiter entry of a FORCE or HWAIT (R106): kind 2 for a tile scheduler's operand. -/
def waiterOf (s : State) (b : BeadRef) (p : Packet) (hw : Bool) (chain : Word) (wl wcore : Nat) (cont : Word) (ret : Ret) : Waiter :=
  { bead := b.key
    cont := cont
    uid := (match ret with | .thread _ u _ => u | .carry _ u _ => u | _ => 0)
    chain := chain, deadline := if wl = 0 then 0 else tickN s + wl
    kind := (match ret with | .task _ _ => 2 | _ => if hw then 1 else 0)
    carry := (match ret with | .carry _ _ _ => true | _ => false)
    wcore := wcore, slack := slackLeft (tickN s) p, ret := ret, handle := b.handle }

/-! ### The other rows of the state table (R109) -/

/-- The record of a SUSPEND or TENQ written into a FREE bead. -/
def bdSubmit (s : State) (b : BeadRef) (ws : List Word) (sub : Sub) : State :=
  setSub (ws.zipIdx.foldl (fun s e => bdPut s b.key e.2 e.1) s) b.key sub

/-- A bead that becomes VALUE at v, keeping format, rows and columns. -/
def bdBind (s : State) (key : Nat) (v : Word) : State :=
  let s := bdPut s key 0 (wd (fld (bdWord s key 0) 47 8 * 256 + 3))
  setSub (bdPut (bdPut s key 1 v) key 2 0) key {}

/-- A bead that becomes FREE. -/
def bdFree (s : State) (key : Nat) : State :=
  setSub (bdPut (bdPut s key 0 (bdW0 (bdWord s key 0) 0 false)) key 2 0) key {}

/-- A completion (R109): VALUE, or POISONED, with the task's flags. -/
def bdComplete (s : State) (unit : Nat) (b : BeadRef) (v : Word) (poison : Bool) (flags : BitVec 6) : State :=
  if bdState s b.key != 2 then s
  else
    let s := leaveClaimed s unit b.key .done flags false
    let s := bdPut s b.key 0 (bdW0 (bdWord s b.key 0) (if poison then 5 else 3) poison)
    wakeAll (bdPut (bdPut s b.key 1 v) b.key 2 0) unit b.key (.value v poison flags)

/-- An operand failure (R112): the bead is SUSPENDED again, the first FORCE waiter of another chain claims it for its own
chain and context (R107), and the waiters of the failing chain take the failure. -/
def bdOpFail (s : State) (unit : Nat) (b : BeadRef) (cause : BitVec 8) (handle : Word) : State :=
  if bdState s b.key != 2 then s
  else
    let c := bdWord s b.key 2
    let s := leaveClaimed s unit b.key (.faulted cause) 0 true
    let s := bdPut s b.key 0 (bdW0 (bdWord s b.key 0) 1 (bitAt (bdWord s b.key 0) 49))
    let s := bdPut s b.key 2 0
    let l := waitersOf s unit b.key
    let s := (l.filter fun e => e.2.kind != 1 && e.2.chain == c).foldl (fun s e =>
      wakeOne (dropWaiter s unit b.key e.1) unit e.2 (.fail cause handle)) s
    match (waitersOf s unit b.key).find? fun e => e.2.kind != 1 with
    | none => s
    | some e =>
      let s := dropWaiter s unit b.key e.1
      bdForce s unit { key := b.key, handle := e.2.handle, ctx := fld e.2.chain 63 48 } e.2.chain e.2 fun s _ => s

/-- A SPARK on a SUSPENDED bead: into the spark pool, or dropped and counted (R114). -/
def bdSpark (s : State) (unit : Nat) (b : BeadRef) : State :=
  modCl s (unitCl unit) fun x =>
    if x.sparks.length < 1024 then { x with sparks := x.sparks ++ [b] } else { x with sdrop := x.sdrop + 1 }

/-- Whether the event is one that an issuer sent, to which RESERVED_FIELD can be returned. -/
def bdAsked : BeadOp → Bool
  | .completion _ _ | .poisoned _ _ | .engFault _ | .opFail _ _ | .death => false
  | _ => true

/-- One bead operation at its home (R105, R109). -/
def bdPerform (s : State) (unit : Nat) (p : Packet) (b : BeadRef) (op : BeadOp) (wl wcore : Nat) (cont : Word) (ret : Ret) : State :=
  let out := fun (s : State) (r : Res) => bdReply s unit p ret r
  let st := bdState s b.key
  let prot := out s (.fault 0x08 b.handle)
  if bdBad s b.key then (if bdAsked op then out s (.fault 0x12 b.handle) else s)
  else match op with
    | .force f => bdForce s unit b f (waiterOf s b p false f wl wcore cont ret) out
    | .hwait f => bdHwait s unit b (waiterOf s b p true f wl wcore cont ret) out
    | .spark => if st = 0 then prot else out (if st = 1 then bdSpark s unit b else s) .ok
    | .suspend ws sub => if st = 0 then out (bdSubmit s b ws sub) .ok else prot
    | .tenq ws sub c => if st = 0 then out (bdClaim (bdSubmit s b ws sub) unit b c true) .ok else prot
    | .hbind v =>
      if st = 0 || st = 4 then out (bdBind s b.key v) .ok
      else if st = 1 then wakeAll (out (bdBind s b.key v) .ok) unit b.key (.value v false 0)
      else prot
    | .hdrop =>
      if st = 2 then prot
      else if st = 1 then wakeAll (out (bdFree s b.key) .ok) unit b.key (.fail 0x0E b.handle)
      else out (if st = 0 then s else bdFree s b.key) .ok
    | .hstat => out s (.words [bdWord s b.key 0])
    | .claim c => out (if st = 1 then bdClaim s unit b c false else sparkEnd s c b.key) .ok
    | .completion v f => bdComplete s unit b v false f
    | .poisoned v f => bdComplete s unit b v true f
    | .engFault c => if st = 2 then bdFail s unit b c else s
    | .opFail c h => bdOpFail s unit b c h
    | .death => if st = 2 then bdFail s unit b 0x0E else s

/-- Whether a bead operation would append a waiter, and so waits while the pool has no free entry (R106). -/
def bdAppends (s : State) (b : BeadRef) (op : BeadOp) : Bool :=
  let st := bdState s b.key
  !bdBad s b.key && match op with
    | .force f => st == 1 || (st == 2 && bdWord s b.key 2 != f)
    | .hwait _ => st == 1 || st == 2
    | _ => false

end Sys2Proof.Machine
end

