-- ==== Sys2Proof/Machine/Slolek.lean ====
section
/-!
DEFINITION. Slolek records (R71, R276): reading them, the form that each must have to be a KN1 instruction, the
symbolic queries with their KN1 values, and the instruction that a record is.
-/

namespace Sys2Proof.Machine

/-- An operand of a Slolek record, by its kind, after the replacement of queries (R71). -/
inductive SlOpnd where
  | sreg (n : Nat)
  | vreg (n : Nat)
  | pred (n : Nat)
  | imm (w : Word)
  | block (n : Nat)
  | csr (n : Nat)
  deriving DecidableEq, Repr

/-- A Slolek record: its byte offset in the section, its major and function code, head bits [31:16] and operands. -/
structure SlRec where
  pos  : Nat := 0
  maj  : Nat := 0
  fn   : Nat := 0
  head : Nat := 0
  ops  : List SlOpnd := []
  deriving DecidableEq, Repr

/-- The KN1 value of a symbolic query (R71). -/
def slQuery (q : Nat) : Option Nat :=
  match q with
  | 1 => some 64
  | 2 => some 2048
  | 3 => some 16
  | 4 => some 128
  | 5 => some 1048576
  | 6 => some 16
  | 7 => some 16
  | 8 => some 128
  | _ => none

/-- The operand words at the head of a byte list, with each query replaced by its value as an immediate; none for a
reserved kind or query, or when the section ends before them (R71). -/
def slOps : Nat → List Byte → Option (List SlOpnd × List Byte)
  | 0, l => some ([], l)
  | n + 1, l =>
    if l.length < 8 then none
    else
      let w := wd (leNat (l.take 8))
      let v := fld w 59 0
      let r := l.drop 8
      let one := fun (o : SlOpnd) => (slOps n r).map fun x => (o :: x.1, x.2)
      match fld w 63 60 with
      | 0 => one (.sreg v)
      | 1 => one (.vreg v)
      | 2 => one (.pred v)
      | 3 => if r.length < 8 then none else (slOps n (r.drop 8)).map fun x => (.imm (wd (leNat (r.take 8))) :: x.1, x.2)
      | 4 => one (.block v)
      | 5 => (slQuery v).bind fun q => one (.imm (wd q))
      | 6 => one (.csr v)
      | _ => none

/-- What an operand position of a native format takes (R276). `lane` is the vector field of VXG, which holds a register
number g(8n); `seg` is the second source field of FV where an instruction puts a number there (DEDUCED, log 64). -/
inductive SlKind where
  | s
  | v
  | p
  | i
  | b
  | c
  | lane
  | seg
  deriving DecidableEq, Repr

/-- Whether an operand is of a kind that its position takes. -/
def slTakes : SlKind → SlOpnd → Bool
  | .s, .sreg _ | .v, .vreg _ | .p, .pred _ | .i, .imm _ | .b, .block _ | .c, .csr _ => true
  | .lane, .vreg _ | .lane, .sreg _ | .seg, .vreg _ | .seg, .imm _ => true
  | _, _ => false

/-- The operands, in order, of a record with these codes and head bits; none when they form no KN1 instruction (R269 to
R271, R276). -/
def slForm (maj fn head : Nat) : Option (List SlKind) :=
  let when := fun (ok : Bool) (l : List SlKind) => if ok then some l else none
  let f3 := fun (ok : Bool) (l : List SlKind) => when (ok && fn < 16 && head == 0) l
  let plain := fun (hi : Nat) (l : List SlKind) => when (fn == 0 && head < hi) l
  let z := head % 2
  let lt := head / 2
  let fv := fun (ok : Bool) (l : List SlKind) => when (ok && head < 8) l
  match maj with
  | 0x00 => f3 true [.s, .s, .s]
  | 0x01 => f3 true (if fn = 9 ∨ fn = 10 ∨ fn = 11 then [.s, .s] else [.s, .s, .s])
  | 0x02 => f3 (fn < 10) [.s, .s, .s]
  | 0x03 => f3 (fn < 7) [.p, .s, .s]
  | 0x04 => f3 true [.s, .s, .s]
  | 0x05 => plain 7 [.p, .s, .i]
  | 0x06 => plain 1 [.s, .i]
  | 0x07 => plain 1 [.s, .b]
  | 0x08 | 0x09 | 0x0A | 0x0B | 0x0D | 0x13 => plain 1 [.s, .s, .i]
  | 0x0C => plain 4 [.s, .s, .i]
  | 0x0E | 0x0F => plain 1 [.s, .i]
  | 0x10 => plain 6 [.s, .b]
  | 0x11 => plain 2 [.p, .b]
  | 0x12 => plain 1 [.s, .b]
  | 0x14 | 0x15 | 0x16 => plain 16 [.s, .s, .i]
  | 0x17 | 0x18 | 0x19 => plain 16 [.s, .s, .s]
  | 0x1A | 0x1B => if head % 4 < 2 then none else plain 32 [.s, .s, .i]
  | 0x1C => f3 (fn < 15) (if fn < 12 then [.s, .s, .s] else [.s, .s])
  | 0x1D => if head % 8 = 7 then none else plain 128 []
  | 0x1E => plain 1 [.i, .i, .i, .i]
  | 0x1F => plain 5 [.s]
  | 0x20 => fv (fn < 24) (if fn = 19 ∨ fn = 20 ∨ fn = 22 ∨ fn = 23 then [.v, .v, .p] else [.v, .v, .v, .p])
  | 0x21 => fv (fn < 14 && lt != 0) (if fn < 7 then [.v, .v, .v, .p] else [.v, .v, .p])
  | 0x22 => fv (fn < 10 && (fn < 6 || lt != 0)) [.p, .v, .v, .p]
  | 0x23 => fv (fn < 7 && ((fn != 0 && fn != 4) || z == 0)) (if fn < 4 then [.v, .v, .v, .p] else [.v, .v, .p])
  | 0x24 => fv (fn < 11 && (!(fn == 5 || fn == 6 || fn == 7 || fn == 9) || lt != 0) && (fn != 10 || lt < 2))
      (if fn = 10 then [.v, .v, .v, .p] else [.v, .v, .p])
  | 0x25 =>
    if fn < 16 then fv (lt == 0) (if fn = 8 ∨ fn = 9 then [.v, .v, .p] else [.v, .v, .seg, .p])
    else match fn with
      | 16 => fv (z == 0 && (lt == 1 || lt == 2)) [.v, .v, .seg, .p]
      | 17 => fv (lt == 1 || lt == 2) [.v, .v, .seg, .p]
      | 18 => fv (z == 0 && lt < 2) [.v, .v, .v]
      | 19 => fv (lt != 0) [.v, .v, .v, .p]
      | 20 => fv (z == 0 && (lt == 1 || lt == 2)) (if lt = 1 then [.v, .v, .p] else [.v, .v, .v, .p])
      | _ => none
  | 0x26 => when (fn < 7 && head < 16)
      (if fn = 2 ∨ fn = 3 then [.v, .s, .s, .p] else if fn = 4 ∨ fn = 5 then [.v, .s, .v, .p] else [.v, .s, .p])
  | 0x27 => f3 (fn < 10)
      (if fn < 4 then [.p, .p, .p] else if fn < 6 then [.p, .p] else if fn = 8 then [.p, .s] else [.s, .p])
  | 0x28 | 0x29 => f3 (fn < 11) (if fn = 4 ∨ fn ≥ 8 then [.s, .s] else [.s, .s, .s])
  | 0x2A => f3 (fn % 8 < 5) [.p, .s, .s]
  | 0x2B => f3 (fn < 14) [.s, .s]
  | 0x2C => f3 (fn < 4) (if fn = 1 then [.s, .lane, .s] else [.lane, .s, .s])
  | 0x30 => f3 (fn < 9) (if fn = 7 then [.s] else [.s, .s, .s])
  | 0x34 => f3 (fn < 13)
      (if fn = 1 ∨ fn = 2 ∨ fn = 3 ∨ fn = 6 then [] else if fn = 7 ∨ fn = 9 then [.s]
       else if fn = 8 ∨ fn = 11 then [.s, .s, .s] else [.s, .s])
  | 0x35 => f3 (fn < 9) (if fn = 2 ∨ fn = 6 then [.s] else [.s, .s])
  | 0x38 => f3 (fn < 9) (if fn = 3 ∨ fn = 4 ∨ fn = 5 ∨ fn = 7 then [.s, .s] else [.s, .s, .s])
  | 0x39 => f3 (fn < 6) (if fn < 4 then [.s, .s, .s] else if fn = 4 then [] else [.s, .s])
  | 0x3A => plain 1 [.s, .c]
  | 0x3B | 0x3C => plain 1 [.s, .s, .c]
  | 0x3D => f3 (fn < 11)
      (if fn = 0 then [.s] else if fn = 5 ∨ fn = 6 ∨ fn = 10 then [.s, .s] else if fn = 7 then [.s, .s, .s] else [])
  | _ => none

/-- Whether a record forms a KN1 instruction, apart from register numbers and immediate widths, or is a structure record
(R71, R276). -/
def slLegal (r : SlRec) : Bool :=
  if r.maj = 0x3E then decide (r.fn ≤ 2)
  else match slForm r.maj r.fn r.head with
    | none => false
    | some ks => ks.length == r.ops.length && (ks.zip r.ops).all fun x => slTakes x.1 x.2

/-- The records of a Slolek stream up to its end record; none when one of them is not legal (R71). -/
def slRecs : Nat → Nat → List Byte → Option (List SlRec)
  | 0, _, _ => none
  | n + 1, pos, l =>
    if l.length < 4 then none
    else
      let h := wd (leNat (l.take 4))
      (slOps (fld h 15 13) (l.drop 4)).bind fun x =>
        let r : SlRec := { pos := pos, maj := fld h 5 0, fn := fld h 12 6, head := fld h 31 16, ops := x.1 }
        if !slLegal r then none
        else if r.maj = 0x3E ∧ r.fn = 2 then some [r]
        else (slRecs n (pos + (l.length - x.2.length)) x.2).map fun t => r :: t

/-! ### The native word of a record (R267, R276) -/

/-- The value of a register, predicate or number field; none where the translator must place a temporary. -/
def slVal : SlKind → SlOpnd → Option Nat
  | .s, .sreg n => if n < 128 then some n else none
  | .v, .vreg n => if 1 ≤ n ∧ n < 16 then some n else none
  | .p, .pred n => if n < 8 then some n else none
  | .c, .csr n => if n < 2048 then some n else none
  | .lane, .vreg n => if 1 ≤ n ∧ n < 16 then some (8 * n) else none
  | .lane, .sreg n => if 8 ≤ n ∧ n < 128 ∧ n % 8 = 0 then some n else none
  | .seg, .vreg n => if 1 ≤ n ∧ n < 16 then some n else none
  | .seg, .imm w => if w.toNat < 16 then some w.toNat else none
  | _, _ => none

/-- An immediate in units of `scale` in a field of n bits that holds lo to hi; none where it does not fit. -/
def slImm (n scale : Nat) (lo hi : Int) (o : SlOpnd) : Option Nat :=
  match o with
  | .imm w =>
    let q := w.toInt / scale
    if w.toInt % scale = 0 ∧ lo ≤ q ∧ q ≤ hi then some (q % 2 ^ n).toNat else none
  | _ => none

/-- A signed immediate, and an unsigned one. -/
def slSigned (n scale : Nat) (o : SlOpnd) : Option Nat := slImm n scale (-(2 ^ (n - 1))) (2 ^ (n - 1) - 1) o
def slUnsigned (n scale : Nat) (o : SlOpnd) : Option Nat := slImm n scale 0 (2 ^ n - 1) o

/-- A word from its fields, each with its least bit; none when one of them has no value. -/
def slPut (l : List (Nat × Option Nat)) : Option Nat := l.foldl (fun a f => a.bind fun w => f.2.map fun v => w + v * 2 ^ f.1) (some 0)

/-- Whether an instruction of format F3 has no field d. -/
def slNoD (maj fn : Nat) : Bool :=
  match maj with
  | 0x30 => fn == 7
  | 0x34 => fn == 0 || fn == 4 || fn == 5 || fn == 7 || fn == 9 || fn == 12
  | 0x35 => fn == 2 || fn == 5 || fn == 6 || fn == 8
  | 0x3D => fn == 0 || fn == 6
  | _ => false

/-- The fields of a record beside len and MAJ, from the values of its operands (R267). -/
def slFields (r : SlRec) (ks : List SlKind) : List (Nat × Option Nat) :=
  let v := fun i => (ks[i]?).bind fun k => (r.ops[i]?).bind fun o => slVal k o
  let o := fun i => (r.ops[i]?).getD (.imm 0)
  let h := r.head
  let da := [(7, v 0), (14, v 1)]
  match r.maj with
  | 0x05 => [(7, v 0), (10, some (h % 8)), (14, v 1), (21, slSigned 11 1 (o 2))]
  | 0x06 => [(14, v 0), (21, slImm 11 1 1 1023 (o 1))]
  | 0x0C => da ++ [(21, slUnsigned 6 1 (o 2)), (27, some (h % 4))]
  | 0x08 | 0x09 | 0x0A | 0x0B | 0x0D | 0x13 => da ++ [(21, slSigned 11 1 (o 2))]
  | 0x0E => [(7, v 0), (14, slSigned 18 1 (o 1))]
  | 0x0F => [(7, v 0), (14, slUnsigned 18 1 (o 1))]
  | 0x14 | 0x15 | 0x16 => da ++ [(21, some (h % 16)), (25, slSigned 7 (2 ^ (h % 4)) (o 2))]
  | 0x17 | 0x18 | 0x19 => da ++ [(21, v 2), (28, some (h % 16))]
  | 0x1A | 0x1B => da ++ [(21, some (h % 32)), (26, slUnsigned 6 (2 ^ (h % 4)) (o 2))]
  | 0x1D => [(7, some (h % 128))]
  | 0x1E => [(7, slUnsigned 6 1 (o 0)), (13, slUnsigned 6 1 (o 1)), (19, slUnsigned 7 1 (o 2)), (26, slUnsigned 6 1 (o 3))]
  | 0x1F => [(14, v 0), (21, some (h % 8))]
  | 0x20 | 0x21 | 0x22 | 0x23 | 0x24 | 0x25 =>
    let n := ks.length
    let guarded := ks.getLast? == some .p
    [(7, v 0), (11, v 1), (15, if n = (if guarded then 4 else 3) then v 2 else some 0), (19, if guarded then v (n - 1) else some 0),
     (22, some (h % 2)), (23, some (h / 2 % 4)), (25, some r.fn)]
  | 0x26 =>
    let vb := if ks.length = 3 then some 0 else if r.fn = 2 ∨ r.fn = 3 then (v 2).bind fun n => if n % 8 = 0 then some (n / 8) else none else v 2
    [(7, v 0), (11, v 1), (18, vb), (22, v (ks.length - 1)), (25, some (h % 4)), (27, some r.fn), (30, some (h / 4))]
  | 0x3A => [(7, v 0), (21, v 1)]
  | 0x3B | 0x3C => da ++ [(21, v 2)]
  | _ => ((List.range ks.length).map fun i => (7 * i + (if slNoD r.maj r.fn then 14 else 7), v i)) ++ [(28, some r.fn)]

/-- Whether a record writes a predicate, in the first of its fields. -/
def slToPred (maj fn : Nat) : Bool :=
  maj == 0x03 || maj == 0x05 || maj == 0x22 || maj == 0x2A || (maj == 0x27 && (fn < 6 || fn == 8))

/-- The KN1 instruction of a record whose registers are those of the window and whose immediate fits its field: virtual register
n is gn or vn, and an offset is scaled (R276). None for another record: one with a block, with a temporary or beyond its field. -/
def slWord (r : SlRec) : Option (BitVec 32) :=
  match slForm r.maj r.fn r.head with
  | none => none
  | some ks =>
    if ks.contains .b || (slToPred r.maj r.fn && r.ops.head? == some (.pred 0)) then none
    else (slPut ([(0, some 1), (1, some r.maj)] ++ slFields r ks)).map (BitVec.ofNat 32)

end Sys2Proof.Machine
end

