-- ==== Sys2Proof/Config.lean ====
section
/-!
DEFINITION. What the spec leaves open and what one part fixes, as constants without a body: nothing can be
proved of their values, so a claim holds whatever they are.
-/

namespace Sys2Proof.Config

open Sys2Proof.Machine

/-- DESIGN CHOICE. Which agent moves when `State.sched` names none, as a function of `State.turns` (log 2). -/
opaque turn : Nat → Turn

/-- DESIGN CHOICE. The free choices of R194 and R377 ("any subset"), as a function of `State.freeCnt` (log 24). -/
opaque freeBit : Nat → Bool

/-- DESIGN CHOICE. Values that the spec leaves open, as a function of `State.freeCnt` (logs 42, 46). -/
opaque freeWord : Nat → Word

/-- UNVERIFIED. SHA-512 (R30, R32, R72; log 6). -/
opaque sha512 : List Byte → BitVec 512

/-- UNVERIFIED. Ed25519 verification of a signature of a message by a public key (R30, R72; log 6). -/
opaque ed25519Verify (key msg sig : List Byte) : Bool

/-- UNVERIFIED. The signature by the device identity key (R32; log 6). -/
opaque identitySign : List Byte → BitVec 512

/-- UNVERIFIED. The public half of the device identity key (R31; log 6). -/
opaque identityKey : BitVec 256

/-- UNVERIFIED. The device serial number (R32; log 6). -/
opaque serial : Word

/-- UNVERIFIED. The fused digest of the first firmware key (R30; log 6). -/
opaque fusedDigest : BitVec 512

/-- UNVERIFIED. The fused minimum security version (R30; log 6). -/
opaque minSecurityVersion : Nat

/-- UNVERIFIED. The tags of the measurements of an attestation report (R32), in boot order (log 6). -/
opaque measureTag : Nat → Word

/-- UNVERIFIED. The bytes whose digest measures the partition configuration (R32; log 6): of a function's clusters, the
interleave shares of the dies, its signed-only flag, its modes and its image keys. -/
opaque configBytes (fn : Nat) (clusters shares : List Nat) (flags : List Bool) (keys : SMap (List Word)) : List Byte

/-- UNVERIFIED. The device's own number in the fabric (R18; log 6). -/
opaque deviceNumber : BitVec 16

/-- UNVERIFIED. The instructions that the translator makes of record i of a Slolek section, where R276 gives no one word for it: a
record with temporaries, with an immediate beyond its field or with a block, and a structure record (R71; log 6). -/
opaque expand (records : List SlRec) (i : Nat) : List Byte

/-- UNVERIFIED. The payload of flit i of a packet that leaves by a port (R18 gives its header, not its data;
log 6). -/
opaque fabricData : Packet → Nat → BitVec 224

/-- UNVERIFIED. The request, or other packet, that an inbound fabric packet of a class carries, as read from the payloads
of its flits, and answered as given (R18 gives its header, not its data; log 6). -/
opaque fabricBody : Nat → List (BitVec 224) → Ret → Body

/-- UNVERIFIED. The outcome that an inbound fabric reply carries (log 6). -/
opaque fabricRes : List (BitVec 224) → Res

/-- UNVERIFIED. The notify page that an inbound load or store names, as function, queue and offset (R67; log 6). -/
opaque fabricPage : List (BitVec 224) → Option (Nat × Nat × Nat)

/-- UNVERIFIED. The value that an inbound 64-bit store to a notify page writes (R67; log 6). -/
opaque fabricWord : List (BitVec 224) → Word

/-- DESIGN CHOICE. Where the device puts the segment pools of a context that it makes (R79 names no address; log 19). -/
opaque segBase (ctx : Nat) : Word

/-- DESIGN CHOICE. Where the device puts the deque overflow area of a core for a context, as a physical address in KiB
(R79 and R89 name no address; log 66). -/
opaque ovfBase (ctx core : Nat) : BitVec 29

/-- DESIGN CHOICE. Where the code of an image of a context lies (R82 asks for 64-byte alignment), in units of
64 bytes (log 18). -/
opaque codeLine (ctx handle : Nat) : BitVec 51


end Sys2Proof.Config
end

