-- ==== Sys2Proof/WellFormed.lean ====
section
/-!
DEFINITION. Which instructions are well formed: the field values that R266 to R271 and the instruction chapters
allow.  A field that must be 0 is no operand of its constructor, so only the checks below remain.
-/

namespace Sys2Proof

/-- A vector register field names v1 to v15 (R267, R325). -/
def vecFld (v : BitVec 4) : Bool := v != 0
/-- A vector register field of a 16-bit form (R266). -/
def vecHalf (v : BitVec 5) : Bool := v != 0 && v.ult 16
/-- A destination predicate is not k0 (R271). -/
def predDst (k : BitVec 3) : Bool := k != 0
/-- A float lane type (R330, R332, R334, R343). -/
def fltLane (l : BitVec 2) : Bool := l != 0
/-- A participant count of at least 1 (R269, R317). -/
def barCount (i : BitVec 11) : Bool := (0 : BitVec 11).slt i
/-- A scope code of FENCE (R182). -/
def scopeOk (s : BitVec 3) : Bool := s != 7
/-- A timeline of TLWAIT (R316). -/
def timelineOk (l : BitVec 4) : Bool := l.ult 5
/-- A segment of a conversion with n segments (R337). -/
def segOk (n : Nat) (s : BitVec 4) : Bool := s.toNat < n
/-- Lane type and group kind of VQNT and VDQNT (R339, R340). -/
def groupOk (l : BitVec 2) (q : BitVec 4) : Bool := (l == 1 || l == 2) && (q == 4 || q == 8)
/-- Lane type and second source of VBEXP (R342). -/
def bexpOk (l : BitVec 2) (b : BitVec 4) : Bool := (l == 1 && b == 0) || (l == 2 && b != 0)

/-- Whether an instruction's field values are among those that its encoding admits. -/
def Instr.wf : Instr → Bool
  | .i3cReadStatus | .i3cReadTemperatures | .i3cReadPackagePower | .i3cSetPowerLimit _ | .i3cReadIdentityKey
  | .i3cResetPackage | .i3cResetDie _ | .assign | .ctxnew | .ctxend | .qbind | .peer | .keyInstall
  | .keyClear | .signed | .mode | .share | .trace | .drain | .attest | .thread | .move | .postmap | .retrain
  | .resetDie | .resetPackage | .power | .debugHalt | .debugResume | .debugStep | .debugSetBreakpoint
  | .debugClearBreakpoint | .debugCopyState | .registerWrite _ _ _ _ _ | .ringidxWrite _ _ _
  | .queueEnable _ _ | .queueDisable _ _ | .queueReset _ _ | .scringConfig _ _ _ | .scheadWrite _ _
  | .syscallReply _ _ | .hostWindowAccess _ _ _ _ _ | .admitEntry _ _ | .stampRetry _ _ | .entryStart _ _ _
  | .imageLoad _ _ _ | .entryComplete _ _ _ | .boot | .supplyFault _ | .thermalThrottle _ _
  | .thermalShutdown _ _ | .powerLimitUnmet _ | .powerLimitMet _ | .clockStep _ _ | .dieResetComplete _
  | .packageResetComplete | .slackTick | .packetLate _ _ | .routerForward _ _ _ | .routerIdle _
  | .routerPowerdownDone _ | .tokenAtWriter _ _ | .tokenAtHome _ | .bridgeForward _ _ _
  | .directPathForward _ _ _ | .homeEnqueue _ _ | .homePerform _ | .replayTimeout _ | .replyDeliver _
  | .lateTrap _ _ | .iterativeUnitDone _ | .vectorDeferredResult _ _ | .fabricTransmit _
  | .codewordReceive _ _ _ _ | .flitReceive _ _ | .ackReceive _ _ | .nakReceive _ _
  | .trainingFlitReceive _ _ | .lockHoldExpiry _ _ | .markersAligned _ | .fecCodewordCount _
  | .trainingTimeout _ | .fecLockLoss _ | .nakRateExceeded _ | .fibreLockLoss _ _ | .slotTake _ _
  | .stealSearch _ | .stealRequest _ | .stealReply _ | .enqueueContinuation _ | .injectionAge _ _
  | .urgentArrival _ | .evictWrite _ _ | .npostWrite _ | .noticeDeliver _ | .translationRequest _
  | .translationReply _ | .tlbShootdown _ | .clbShootdown _ | .syncAccessAtOwner _ | .syncDeadline _ _
  | .withdrawal _ | .barArrival _ | .barDeadline _ _ | .parkAtHome _ | .parkDeadline _ _ | .lnextClaim _
  | .joinUpdate _ | .resumeCellOp _ | .messageArrival _ | .queueElementArrival _ | .linkElementTransfer _ _
  | .portReadTimeout _ _ | .forwardPacket _ | .forwardExpiry _ _ | .migrationArrival _ | .beadRequest _
  | .sparkClaim _ | .beadCompletion _ | .beadCompletionPoisoned _ | .beadEngineFault _ | .operandFailure _
  | .deathNotice _ | .waiterDeadline _ _ | .wakeDeliver _ | .wfcEdge _ | .wfcQuery _ | .wfcQueryReply _
  | .tileEvaluate _ | .operandReply _ | .stagingComplete _ _ | .tileDispatch _ | .taskComplete _ _
  | .taskEngineFault _ _ _ | .sparkTake _ | .coordAtAgent _ | .cinvReload _ | .engineTicketComplete _ _
  | .routePerform _ | .pselPerform _ | .rqOperation _ | .rqCommitDone _ _ | .rqgetTimeout _ _
  | .carryArrival _ | .carryDepositDone _ | .carryCountReply _ | .carryReturn _ | .coreParityError _
  | .add _ _ _ | .sub _ _ _ | .and _ _ _ | .or _ _ _ | .xor _ _ _ | .andn _ _ _ | .orn _ _ _ | .xnor _ _ _
  | .sll _ _ _ | .srl _ _ _ | .sra _ _ _ | .rol _ _ _ | .ror _ _ _ | .min _ _ _ | .max _ _ _ | .minn _ _ _
  | .maxn _ _ _ | .mul _ _ _ | .mulh _ _ _ | .mulhn _ _ _ | .mulhsn _ _ _ | .div _ _ _ | .divn _ _ _
  | .rem _ _ _ | .remn _ _ _ | .clz _ _ | .ctz _ _ | .popc _ _ | .sext _ _ _ | .zext _ _ _ | .addw _ _ _
  | .subw _ _ _ | .bfx _ _ _ | .bfxn _ _ _ | .bfi _ _ _ | .shadd1 _ _ _ | .shadd2 _ _ _ | .shadd3 _ _ _
  | .hash _ _ _ | .rmap _ _ _ | .clin _ _ _ | .cunl _ _ _ | .sel _ _ _ _ _ | .addpc _ _ | .addi _ _ _
  | .andi _ _ _ | .ori _ _ _ | .xori _ _ _ | .slli _ _ _ | .srli _ _ _ | .srai _ _ _ | .roli _ _ _
  | .muli _ _ _ | .li _ _ | .lis _ _ | .beqz _ _ | .bnez _ _ | .bltz _ _ | .bgez _ _ | .bgtz _ _ | .blez _ _
  | .bk _ _ _ | .jal _ _ | .jalr _ _ _ | .ld _ _ _ _ _ | .ldn _ _ _ _ _ | .st _ _ _ _ _ | .ldx _ _ _ _ _
  | .ldxn _ _ _ _ _ | .stx _ _ _ _ _ | .lds _ _ _ _ _ _ | .sts _ _ _ _ _ | .stsf _ _ _ _ _ | .amoadd _ _ _
  | .amoand _ _ _ | .amoor _ _ _ | .amoxor _ _ _ | .amomin _ _ _ | .amomax _ _ _ | .amominn _ _ _
  | .amomaxn _ _ _ | .amoswp _ _ _ | .amocas _ _ _ | .amofadds _ _ _ | .amofaddd _ _ _ | .feqry _ _
  | .feset _ _ | .feclr _ _ | .wait _ _ _ _ | .kpopc _ _ | .kfirst _ _ | .ktog _ _ | .faddF32 _ _ _
  | .fsubF32 _ _ _ | .fmulF32 _ _ _ | .fdivF32 _ _ _ | .fsqrtF32 _ _ | .fminF32 _ _ _ | .fmaxF32 _ _ _
  | .fmaF32 _ _ _ | .fabsF32 _ _ | .fnegF32 _ _ | .fclassF32 _ _ | .faddF64 _ _ _ | .fsubF64 _ _ _
  | .fmulF64 _ _ _ | .fdivF64 _ _ _ | .fsqrtF64 _ _ | .fminF64 _ _ _ | .fmaxF64 _ _ _ | .fmaF64 _ _ _
  | .fabsF64 _ _ | .fnegF64 _ _ | .fclassF64 _ _ | .cvtf2d _ _ | .cvtd2f _ _ | .cvtf2w _ _ | .cvtf2l _ _
  | .cvtd2w _ _ | .cvtd2l _ _ | .cvtw2f _ _ | .cvtl2f _ _ | .cvtw2d _ _ | .cvtl2d _ _ | .cvtf2b _ _
  | .cvtb2f _ _ | .cvtf2h _ _ | .cvth2f _ _ | .cld _ _ _ | .cst _ _ _ | .cadd _ _ _ | .cnext _ _ _
  | .cdel _ _ _ | .calloc _ _ _ | .cfree _ _ _ | .cinv _ | .cqry _ _ _ | .spawn _ _ | .sync | .retc | .yield
  | .park _ _ | .tnew _ _ | .texit | .susp _ | .resume _ _ _ | .lsetup _ | .lnext _ _ | .migr _ _ _
  | .mret _ _ | .suspend _ _ | .force _ _ | .spark _ | .hwait _ _ | .hstat _ _ | .hbind _ _ | .hdrop _
  | .tenq _ _ | .mprog _ _ | .cpy _ _ _ | .plane _ _ _ | .dense _ _ _ | .fill _ _ | .route _ _ | .psel _ _
  | .rqinit _ _ _ | .rqget _ _ | .rqdone _ _ _ | .send _ _ _ | .qcfg _ _ _ | .qctl _ _ _ | .qhnd _ _ _
  | .qret | .qstat _ _ | .csrrd _ _ | .csrwr _ _ _ | .csrset _ _ _ | .trap _ | .syscall | .eret | .brk
  | .halt | .feat _ _ | .tlbw _ _ | .tlbi _ _ _ | .flushi | .upret | .seqq _ _ | .addFh _ _ | .subFh _ _
  | .mulFh _ _ | .andFh _ _ | .orFh _ _ | .xorFh _ _ | .sllFh _ _ | .srlFh _ _ | .sraFh _ _ | .minFh _ _
  | .maxFh _ _ | .movFh _ _ | .addiFh _ _ | .slliFh _ _ | .faddFh _ _ | .fmulFh _ _ | .illegalInstruction _
  | .fetchFault _ _ => true
  | .cmpeq k _ _ | .cmpne k _ _ | .cmplt k _ _ | .cmpge k _ _ | .cmpltn k _ _ | .cmpgen k _ _ | .btst k _ _
  | .cmpeqi k _ _ | .cmpnei k _ _ | .cmplti k _ _ | .cmpgei k _ _ | .cmpltni k _ _ | .cmpgeni k _ _
  | .btsti k _ _ | .fcmpeq k _ _ _ | .fcmplt k _ _ _ | .fcmple k _ _ _ | .fcmpun k _ _ _ | .fcmpne k _ _ _ => predDst k
  | .bar _ i => barCount i
  | .fence s _ => scopeOk s
  | .tlwait _ l => timelineOk l
  | .vadd d a b _ _ _ | .vsub d a b _ _ _ | .vmul d a b _ _ _ | .vmulh d a b _ _ _ | .vmulhn d a b _ _ _
  | .vand d a b _ _ _ | .vor d a b _ _ _ | .vxor d a b _ _ _ | .vsll d a b _ _ _ | .vsrl d a b _ _ _
  | .vsra d a b _ _ _ | .vmin d a b _ _ _ | .vmax d a b _ _ _ | .vminn d a b _ _ _ | .vmaxn d a b _ _ _
  | .vsadd d a b _ _ _ | .vssub d a b _ _ _ | .vsaddn d a b _ _ _ | .vssubn d a b _ _ _ | .vma d a b _ _ _
  | .vsel d a b _ _ | .vperm d a b _ _ _ | .vslideup d a b _ _ _ | .vslidedn d a b _ _ _ | .vdot d a b _ _ _
  | .baddq d a b _ => vecFld d && vecFld a && vecFld b
  | .vabs d a _ _ _ | .vneg d a _ _ _ | .vpopc d a _ _ _ | .vclz d a _ _ _ | .vcompress d a _ _
  | .vexpand d a _ _ _ | .vmov d a _ _ _ | .vredadd d a _ _ _ | .vredmin d a _ _ _ | .vredmax d a _ _ _
  | .vredminn d a _ _ _ | .vredmaxn d a _ _ _ | .vscan d a _ _ _ => vecFld d && vecFld a
  | .vfadd d a b _ _ l | .vfsub d a b _ _ l | .vfmul d a b _ _ l | .vfma d a b _ _ l | .vfmin d a b _ _ l
  | .vfmax d a b _ _ l | .vfdiv d a b _ _ l | .vbsc d a b _ _ l => vecFld d && vecFld a && vecFld b && fltLane l
  | .vfsqrt d a _ _ l | .vfrcp d a _ _ l | .vfrsq d a _ _ l | .vfexp2 d a _ _ l | .vflog2 d a _ _ l
  | .vfabs d a _ _ l | .vfneg d a _ _ l | .vredfadd d a _ _ l | .vredfmin d a _ _ l | .vredfmax d a _ _ l
  | .vfscan d a _ _ l => vecFld d && vecFld a && fltLane l
  | .vcmpeq p a b _ _ _ | .vcmpne p a b _ _ _ | .vcmplt p a b _ _ _ | .vcmpge p a b _ _ _
  | .vcmpltn p a b _ _ _ | .vcmpgen p a b _ _ _ => vecFld a && vecFld b && predDst p
  | .vfcmpeq p a b _ _ l | .vfcmplt p a b _ _ l | .vfcmple p a b _ _ l | .vfcmpun p a b _ _ l => vecFld a && vecFld b && predDst p && fltLane l
  | .vcvtf2b d a s _ _ | .vcvtb2f d a s _ _ | .vcvtf2h d a s _ _ | .vcvth2f d a s _ _ | .vcvtd2f d a s _ _
  | .vcvtf2d d a s _ _ => vecFld d && vecFld a && segOk 2 s
  | .vcvtf2e4 d a s _ _ | .vcvte42f d a s _ _ | .vcvtf2e5 d a s _ _ | .vcvte52f d a s _ _
  | .vcvtw2i8 d a s _ _ | .vcvti82w d a s _ _ => vecFld d && vecFld a && segOk 4 s
  | .vcvtf2w d a s _ _ | .vcvtw2f d a s _ _ => vecFld d && vecFld a && segOk 1 s
  | .vcvtw2i4 d a s _ _ | .vcvti42w d a s _ _ => vecFld d && vecFld a && segOk 8 s
  | .vqnt d a q _ l | .vdqnt d a q _ _ l => vecFld d && vecFld a && groupOk l q
  | .vbexp d a b _ l => vecFld d && vecFld a && bexpOk l b
  | .vld v _ _ _ _ | .vst v _ _ _ _ | .vlds v _ _ _ _ _ | .vsts v _ _ _ _ _ | .vldf v _ _ _ _ | .vbcast v _ _
  | .vextr _ v _ | .vins v _ _ | .viota v _ _ => vecFld v
  | .vgath v _ b _ _ _ | .vscat v _ b _ _ _ => vecFld v && vecFld b
  | .kand d _ _ | .kor d _ _ | .kxor d _ _ | .kandn d _ _ | .knot d _ | .kmov d _ | .kfromg d _ => predDst d
  | .vaddFh d a | .vsubFh d a | .vmulFh d a | .vandFh d a | .vorFh d a | .vxorFh d a | .vsllFh d a
  | .vsrlFh d a | .vsraFh d a | .vminFh d a | .vmaxFh d a | .vmovFh d a | .vfaddFh d a | .vfmulFh d a => vecHalf d && vecHalf a

end Sys2Proof
end

