-- ==== Sys2Proof/Decode.lean ====
section
/-!
DEFINITION. Decoding of instruction bytes, total and by name (R263 to R274), and the encoder, from the same
encoding tables.  A compiled value of `Instr` has no room for a tag above 244, so the functions that make a value
of its later constructors are `noncomputable`: the kernel evaluates them, and compiled code does not need them.
-/

namespace Sys2Proof

/-- Why bytes are no instruction (R274). -/
inductive DecodeError where
  /-- The bytes end before the instruction does. -/
  | truncated
  /-- A 16-bit pattern that is no form (R266). -/
  | halfword (enc : BitVec 16)
  /-- A major opcode or function code that is not assigned, or a nonzero reserved field (R268, R269). -/
  | unassigned (enc : BitVec 32)
  /-- A field value that the instruction does not admit (R267 to R271). -/
  | fieldValue (enc : BitVec 32)
  deriving DecidableEq, Repr

/-- Major opcode 0x00 (R269). -/
noncomputable def decMaj00 (w : BitVec 32) : Option Instr :=
  match (w.extractLsb' 28 4).toNat with
  | 0 => some (.add (w.extractLsb' 7 7) (w.extractLsb' 14 7) (w.extractLsb' 21 7))
  | 1 => some (.sub (w.extractLsb' 7 7) (w.extractLsb' 14 7) (w.extractLsb' 21 7))
  | 2 => some (.and (w.extractLsb' 7 7) (w.extractLsb' 14 7) (w.extractLsb' 21 7))
  | 3 => some (.or (w.extractLsb' 7 7) (w.extractLsb' 14 7) (w.extractLsb' 21 7))
  | 4 => some (.xor (w.extractLsb' 7 7) (w.extractLsb' 14 7) (w.extractLsb' 21 7))
  | 5 => some (.andn (w.extractLsb' 7 7) (w.extractLsb' 14 7) (w.extractLsb' 21 7))
  | 6 => some (.orn (w.extractLsb' 7 7) (w.extractLsb' 14 7) (w.extractLsb' 21 7))
  | 7 => some (.xnor (w.extractLsb' 7 7) (w.extractLsb' 14 7) (w.extractLsb' 21 7))
  | 8 => some (.sll (w.extractLsb' 7 7) (w.extractLsb' 14 7) (w.extractLsb' 21 7))
  | 9 => some (.srl (w.extractLsb' 7 7) (w.extractLsb' 14 7) (w.extractLsb' 21 7))
  | 10 => some (.sra (w.extractLsb' 7 7) (w.extractLsb' 14 7) (w.extractLsb' 21 7))
  | 11 => some (.rol (w.extractLsb' 7 7) (w.extractLsb' 14 7) (w.extractLsb' 21 7))
  | 12 => some (.ror (w.extractLsb' 7 7) (w.extractLsb' 14 7) (w.extractLsb' 21 7))
  | 13 => some (.min (w.extractLsb' 7 7) (w.extractLsb' 14 7) (w.extractLsb' 21 7))
  | 14 => some (.max (w.extractLsb' 7 7) (w.extractLsb' 14 7) (w.extractLsb' 21 7))
  | 15 => some (.minn (w.extractLsb' 7 7) (w.extractLsb' 14 7) (w.extractLsb' 21 7))
  | _ => none

/-- Major opcode 0x01 (R269). -/
noncomputable def decMaj01 (w : BitVec 32) : Option Instr :=
  match (w.extractLsb' 28 4).toNat with
  | 0 => some (.maxn (w.extractLsb' 7 7) (w.extractLsb' 14 7) (w.extractLsb' 21 7))
  | 1 => some (.mul (w.extractLsb' 7 7) (w.extractLsb' 14 7) (w.extractLsb' 21 7))
  | 2 => some (.mulh (w.extractLsb' 7 7) (w.extractLsb' 14 7) (w.extractLsb' 21 7))
  | 3 => some (.mulhn (w.extractLsb' 7 7) (w.extractLsb' 14 7) (w.extractLsb' 21 7))
  | 4 => some (.mulhsn (w.extractLsb' 7 7) (w.extractLsb' 14 7) (w.extractLsb' 21 7))
  | 5 => some (.div (w.extractLsb' 7 7) (w.extractLsb' 14 7) (w.extractLsb' 21 7))
  | 6 => some (.divn (w.extractLsb' 7 7) (w.extractLsb' 14 7) (w.extractLsb' 21 7))
  | 7 => some (.rem (w.extractLsb' 7 7) (w.extractLsb' 14 7) (w.extractLsb' 21 7))
  | 8 => some (.remn (w.extractLsb' 7 7) (w.extractLsb' 14 7) (w.extractLsb' 21 7))
  | 9 => if w.extractLsb' 21 7 == 0 then some (.clz (w.extractLsb' 7 7) (w.extractLsb' 14 7)) else none
  | 10 => if w.extractLsb' 21 7 == 0 then some (.ctz (w.extractLsb' 7 7) (w.extractLsb' 14 7)) else none
  | 11 => if w.extractLsb' 21 7 == 0 then some (.popc (w.extractLsb' 7 7) (w.extractLsb' 14 7)) else none
  | 12 => some (.sext (w.extractLsb' 7 7) (w.extractLsb' 14 7) (w.extractLsb' 21 7))
  | 13 => some (.zext (w.extractLsb' 7 7) (w.extractLsb' 14 7) (w.extractLsb' 21 7))
  | 14 => some (.addw (w.extractLsb' 7 7) (w.extractLsb' 14 7) (w.extractLsb' 21 7))
  | 15 => some (.subw (w.extractLsb' 7 7) (w.extractLsb' 14 7) (w.extractLsb' 21 7))
  | _ => none

/-- Major opcode 0x02 (R269). -/
noncomputable def decMaj02 (w : BitVec 32) : Option Instr :=
  match (w.extractLsb' 28 4).toNat with
  | 0 => some (.bfx (w.extractLsb' 7 7) (w.extractLsb' 14 7) (w.extractLsb' 21 7))
  | 1 => some (.bfxn (w.extractLsb' 7 7) (w.extractLsb' 14 7) (w.extractLsb' 21 7))
  | 2 => some (.bfi (w.extractLsb' 7 7) (w.extractLsb' 14 7) (w.extractLsb' 21 7))
  | 3 => some (.shadd1 (w.extractLsb' 7 7) (w.extractLsb' 14 7) (w.extractLsb' 21 7))
  | 4 => some (.shadd2 (w.extractLsb' 7 7) (w.extractLsb' 14 7) (w.extractLsb' 21 7))
  | 5 => some (.shadd3 (w.extractLsb' 7 7) (w.extractLsb' 14 7) (w.extractLsb' 21 7))
  | 6 => some (.hash (w.extractLsb' 7 7) (w.extractLsb' 14 7) (w.extractLsb' 21 7))
  | 7 => some (.rmap (w.extractLsb' 7 7) (w.extractLsb' 14 7) (w.extractLsb' 21 7))
  | 8 => some (.clin (w.extractLsb' 7 7) (w.extractLsb' 14 7) (w.extractLsb' 21 7))
  | 9 => some (.cunl (w.extractLsb' 7 7) (w.extractLsb' 14 7) (w.extractLsb' 21 7))
  | _ => none

/-- Major opcode 0x03 (R269). -/
noncomputable def decMaj03 (w : BitVec 32) : Option Instr :=
  match (w.extractLsb' 28 4).toNat with
  | 0 => if w.extractLsb' 10 4 == 0 then some (.cmpeq (w.extractLsb' 7 3) (w.extractLsb' 14 7) (w.extractLsb' 21 7)) else none
  | 1 => if w.extractLsb' 10 4 == 0 then some (.cmpne (w.extractLsb' 7 3) (w.extractLsb' 14 7) (w.extractLsb' 21 7)) else none
  | 2 => if w.extractLsb' 10 4 == 0 then some (.cmplt (w.extractLsb' 7 3) (w.extractLsb' 14 7) (w.extractLsb' 21 7)) else none
  | 3 => if w.extractLsb' 10 4 == 0 then some (.cmpge (w.extractLsb' 7 3) (w.extractLsb' 14 7) (w.extractLsb' 21 7)) else none
  | 4 => if w.extractLsb' 10 4 == 0 then some (.cmpltn (w.extractLsb' 7 3) (w.extractLsb' 14 7) (w.extractLsb' 21 7)) else none
  | 5 => if w.extractLsb' 10 4 == 0 then some (.cmpgen (w.extractLsb' 7 3) (w.extractLsb' 14 7) (w.extractLsb' 21 7)) else none
  | 6 => if w.extractLsb' 10 4 == 0 then some (.btst (w.extractLsb' 7 3) (w.extractLsb' 14 7) (w.extractLsb' 21 7)) else none
  | _ => none

/-- Major opcode 0x04 (R269). -/
noncomputable def decMaj04 (w : BitVec 32) : Option Instr :=
  some (.sel (w.extractLsb' 7 7) (w.extractLsb' 14 7) (w.extractLsb' 21 7) (w.extractLsb' 28 3) (w.extractLsb' 31 1))

/-- Major opcode 0x05 (R269). -/
noncomputable def decMaj05 (w : BitVec 32) : Option Instr :=
  match (w.extractLsb' 10 4).toNat with
  | 0 => some (.cmpeqi (w.extractLsb' 7 3) (w.extractLsb' 14 7) (w.extractLsb' 21 11))
  | 1 => some (.cmpnei (w.extractLsb' 7 3) (w.extractLsb' 14 7) (w.extractLsb' 21 11))
  | 2 => some (.cmplti (w.extractLsb' 7 3) (w.extractLsb' 14 7) (w.extractLsb' 21 11))
  | 3 => some (.cmpgei (w.extractLsb' 7 3) (w.extractLsb' 14 7) (w.extractLsb' 21 11))
  | 4 => some (.cmpltni (w.extractLsb' 7 3) (w.extractLsb' 14 7) (w.extractLsb' 21 11))
  | 5 => some (.cmpgeni (w.extractLsb' 7 3) (w.extractLsb' 14 7) (w.extractLsb' 21 11))
  | 6 => if w.extractLsb' 27 5 == 0 then some (.btsti (w.extractLsb' 7 3) (w.extractLsb' 14 7) (w.extractLsb' 21 6)) else none
  | _ => none

/-- Major opcode 0x06 (R269). -/
noncomputable def decMaj06 (w : BitVec 32) : Option Instr :=
  if w.extractLsb' 7 7 == 0 then some (.bar (w.extractLsb' 14 7) (w.extractLsb' 21 11)) else none

/-- Major opcode 0x07 (R269). -/
noncomputable def decMaj07 (w : BitVec 32) : Option Instr :=
  if w.extractLsb' 14 7 == 0 then some (.addpc (w.extractLsb' 7 7) (w.extractLsb' 21 11)) else none

/-- Major opcode 0x08 (R269). -/
noncomputable def decMaj08 (w : BitVec 32) : Option Instr :=
  some (.addi (w.extractLsb' 7 7) (w.extractLsb' 14 7) (w.extractLsb' 21 11))

/-- Major opcode 0x09 (R269). -/
noncomputable def decMaj09 (w : BitVec 32) : Option Instr :=
  some (.andi (w.extractLsb' 7 7) (w.extractLsb' 14 7) (w.extractLsb' 21 11))

/-- Major opcode 0x0A (R269). -/
noncomputable def decMaj0A (w : BitVec 32) : Option Instr :=
  some (.ori (w.extractLsb' 7 7) (w.extractLsb' 14 7) (w.extractLsb' 21 11))

/-- Major opcode 0x0B (R269). -/
noncomputable def decMaj0B (w : BitVec 32) : Option Instr :=
  some (.xori (w.extractLsb' 7 7) (w.extractLsb' 14 7) (w.extractLsb' 21 11))

/-- Major opcode 0x0C (R269). -/
noncomputable def decMaj0C (w : BitVec 32) : Option Instr :=
  match (w.extractLsb' 27 2).toNat with
  | 0 => if w.extractLsb' 29 3 == 0 then some (.slli (w.extractLsb' 7 7) (w.extractLsb' 14 7) (w.extractLsb' 21 6)) else none
  | 1 => if w.extractLsb' 29 3 == 0 then some (.srli (w.extractLsb' 7 7) (w.extractLsb' 14 7) (w.extractLsb' 21 6)) else none
  | 2 => if w.extractLsb' 29 3 == 0 then some (.srai (w.extractLsb' 7 7) (w.extractLsb' 14 7) (w.extractLsb' 21 6)) else none
  | 3 => if w.extractLsb' 29 3 == 0 then some (.roli (w.extractLsb' 7 7) (w.extractLsb' 14 7) (w.extractLsb' 21 6)) else none
  | _ => none

/-- Major opcode 0x0D (R269). -/
noncomputable def decMaj0D (w : BitVec 32) : Option Instr :=
  some (.muli (w.extractLsb' 7 7) (w.extractLsb' 14 7) (w.extractLsb' 21 11))

/-- Major opcode 0x0E (R269). -/
noncomputable def decMaj0E (w : BitVec 32) : Option Instr :=
  some (.li (w.extractLsb' 7 7) (w.extractLsb' 14 18))

/-- Major opcode 0x0F (R269). -/
noncomputable def decMaj0F (w : BitVec 32) : Option Instr :=
  some (.lis (w.extractLsb' 7 7) (w.extractLsb' 14 18))

/-- Major opcode 0x10 (R269). -/
noncomputable def decMaj10 (w : BitVec 32) : Option Instr :=
  match (w.extractLsb' 14 3).toNat with
  | 0 => some (.beqz (w.extractLsb' 7 7) (w.extractLsb' 17 15))
  | 1 => some (.bnez (w.extractLsb' 7 7) (w.extractLsb' 17 15))
  | 2 => some (.bltz (w.extractLsb' 7 7) (w.extractLsb' 17 15))
  | 3 => some (.bgez (w.extractLsb' 7 7) (w.extractLsb' 17 15))
  | 4 => some (.bgtz (w.extractLsb' 7 7) (w.extractLsb' 17 15))
  | 5 => some (.blez (w.extractLsb' 7 7) (w.extractLsb' 17 15))
  | _ => none

/-- Major opcode 0x11 (R269). -/
noncomputable def decMaj11 (w : BitVec 32) : Option Instr :=
  if w.extractLsb' 11 3 == 0 then some (.bk (w.extractLsb' 7 3) (w.extractLsb' 10 1) (w.extractLsb' 14 18)) else none

/-- Major opcode 0x12 (R269). -/
noncomputable def decMaj12 (w : BitVec 32) : Option Instr :=
  some (.jal (w.extractLsb' 7 7) (w.extractLsb' 14 18))

/-- Major opcode 0x13 (R269). -/
noncomputable def decMaj13 (w : BitVec 32) : Option Instr :=
  some (.jalr (w.extractLsb' 7 7) (w.extractLsb' 14 7) (w.extractLsb' 21 11))

/-- Major opcode 0x14 (R269). -/
noncomputable def decMaj14 (w : BitVec 32) : Option Instr :=
  some (.ld (w.extractLsb' 7 7) (w.extractLsb' 14 7) (w.extractLsb' 21 2) (w.extractLsb' 23 2) (w.extractLsb' 25 7))

/-- Major opcode 0x15 (R269). -/
noncomputable def decMaj15 (w : BitVec 32) : Option Instr :=
  some (.ldn (w.extractLsb' 7 7) (w.extractLsb' 14 7) (w.extractLsb' 21 2) (w.extractLsb' 23 2) (w.extractLsb' 25 7))

/-- Major opcode 0x16 (R269). -/
noncomputable def decMaj16 (w : BitVec 32) : Option Instr :=
  some (.st (w.extractLsb' 7 7) (w.extractLsb' 14 7) (w.extractLsb' 21 2) (w.extractLsb' 23 2) (w.extractLsb' 25 7))

/-- Major opcode 0x17 (R269). -/
noncomputable def decMaj17 (w : BitVec 32) : Option Instr :=
  some (.ldx (w.extractLsb' 7 7) (w.extractLsb' 14 7) (w.extractLsb' 21 7) (w.extractLsb' 28 2) (w.extractLsb' 30 2))

/-- Major opcode 0x18 (R269). -/
noncomputable def decMaj18 (w : BitVec 32) : Option Instr :=
  some (.ldxn (w.extractLsb' 7 7) (w.extractLsb' 14 7) (w.extractLsb' 21 7) (w.extractLsb' 28 2) (w.extractLsb' 30 2))

/-- Major opcode 0x19 (R269). -/
noncomputable def decMaj19 (w : BitVec 32) : Option Instr :=
  some (.stx (w.extractLsb' 7 7) (w.extractLsb' 14 7) (w.extractLsb' 21 7) (w.extractLsb' 28 2) (w.extractLsb' 30 2))

/-- Major opcode 0x1A (R269). -/
noncomputable def decMaj1A (w : BitVec 32) : Option Instr :=
  if w.extractLsb' 22 1 == 1 then some (.lds (w.extractLsb' 7 7) (w.extractLsb' 14 7) (w.extractLsb' 21 1) (w.extractLsb' 23 2) (w.extractLsb' 25 1) (w.extractLsb' 26 6)) else none

/-- Major opcode 0x1B (R269). -/
noncomputable def decMaj1B (w : BitVec 32) : Option Instr :=
  match (w.extractLsb' 25 1).toNat with
  | 0 => if w.extractLsb' 22 1 == 1 then some (.sts (w.extractLsb' 7 7) (w.extractLsb' 14 7) (w.extractLsb' 21 1) (w.extractLsb' 23 2) (w.extractLsb' 26 6)) else none
  | 1 => if w.extractLsb' 22 1 == 1 then some (.stsf (w.extractLsb' 7 7) (w.extractLsb' 14 7) (w.extractLsb' 21 1) (w.extractLsb' 23 2) (w.extractLsb' 26 6)) else none
  | _ => none

/-- Major opcode 0x1C (R269). -/
noncomputable def decMaj1C (w : BitVec 32) : Option Instr :=
  match (w.extractLsb' 28 4).toNat with
  | 0 => some (.amoadd (w.extractLsb' 7 7) (w.extractLsb' 14 7) (w.extractLsb' 21 7))
  | 1 => some (.amoand (w.extractLsb' 7 7) (w.extractLsb' 14 7) (w.extractLsb' 21 7))
  | 2 => some (.amoor (w.extractLsb' 7 7) (w.extractLsb' 14 7) (w.extractLsb' 21 7))
  | 3 => some (.amoxor (w.extractLsb' 7 7) (w.extractLsb' 14 7) (w.extractLsb' 21 7))
  | 4 => some (.amomin (w.extractLsb' 7 7) (w.extractLsb' 14 7) (w.extractLsb' 21 7))
  | 5 => some (.amomax (w.extractLsb' 7 7) (w.extractLsb' 14 7) (w.extractLsb' 21 7))
  | 6 => some (.amominn (w.extractLsb' 7 7) (w.extractLsb' 14 7) (w.extractLsb' 21 7))
  | 7 => some (.amomaxn (w.extractLsb' 7 7) (w.extractLsb' 14 7) (w.extractLsb' 21 7))
  | 8 => some (.amoswp (w.extractLsb' 7 7) (w.extractLsb' 14 7) (w.extractLsb' 21 7))
  | 9 => some (.amocas (w.extractLsb' 7 7) (w.extractLsb' 14 7) (w.extractLsb' 21 7))
  | 10 => some (.amofadds (w.extractLsb' 7 7) (w.extractLsb' 14 7) (w.extractLsb' 21 7))
  | 11 => some (.amofaddd (w.extractLsb' 7 7) (w.extractLsb' 14 7) (w.extractLsb' 21 7))
  | 12 => if w.extractLsb' 21 7 == 0 then some (.feqry (w.extractLsb' 7 7) (w.extractLsb' 14 7)) else none
  | 13 => if w.extractLsb' 21 7 == 0 then some (.feset (w.extractLsb' 7 7) (w.extractLsb' 14 7)) else none
  | 14 => if w.extractLsb' 21 7 == 0 then some (.feclr (w.extractLsb' 7 7) (w.extractLsb' 14 7)) else none
  | _ => none

/-- Major opcode 0x1D (R269). -/
noncomputable def decMaj1D (w : BitVec 32) : Option Instr :=
  if w.extractLsb' 14 18 == 0 then some (.fence (w.extractLsb' 7 3) (w.extractLsb' 10 4)) else none

/-- Major opcode 0x1E (R269). -/
noncomputable def decMaj1E (w : BitVec 32) : Option Instr :=
  some (.wait (w.extractLsb' 7 6) (w.extractLsb' 13 6) (w.extractLsb' 19 7) (w.extractLsb' 26 6))

/-- Major opcode 0x1F (R269). -/
noncomputable def decMaj1F (w : BitVec 32) : Option Instr :=
  if w.extractLsb' 7 7 == 0 && w.extractLsb' 25 7 == 0 then some (.tlwait (w.extractLsb' 14 7) (w.extractLsb' 21 4)) else none

/-- Major opcode 0x20 (R269). -/
noncomputable def decMaj20 (w : BitVec 32) : Option Instr :=
  match (w.extractLsb' 25 7).toNat with
  | 0 => some (.vadd (w.extractLsb' 7 4) (w.extractLsb' 11 4) (w.extractLsb' 15 4) (w.extractLsb' 19 3) (w.extractLsb' 22 1) (w.extractLsb' 23 2))
  | 1 => some (.vsub (w.extractLsb' 7 4) (w.extractLsb' 11 4) (w.extractLsb' 15 4) (w.extractLsb' 19 3) (w.extractLsb' 22 1) (w.extractLsb' 23 2))
  | 2 => some (.vmul (w.extractLsb' 7 4) (w.extractLsb' 11 4) (w.extractLsb' 15 4) (w.extractLsb' 19 3) (w.extractLsb' 22 1) (w.extractLsb' 23 2))
  | 3 => some (.vmulh (w.extractLsb' 7 4) (w.extractLsb' 11 4) (w.extractLsb' 15 4) (w.extractLsb' 19 3) (w.extractLsb' 22 1) (w.extractLsb' 23 2))
  | 4 => some (.vmulhn (w.extractLsb' 7 4) (w.extractLsb' 11 4) (w.extractLsb' 15 4) (w.extractLsb' 19 3) (w.extractLsb' 22 1) (w.extractLsb' 23 2))
  | 5 => some (.vand (w.extractLsb' 7 4) (w.extractLsb' 11 4) (w.extractLsb' 15 4) (w.extractLsb' 19 3) (w.extractLsb' 22 1) (w.extractLsb' 23 2))
  | 6 => some (.vor (w.extractLsb' 7 4) (w.extractLsb' 11 4) (w.extractLsb' 15 4) (w.extractLsb' 19 3) (w.extractLsb' 22 1) (w.extractLsb' 23 2))
  | 7 => some (.vxor (w.extractLsb' 7 4) (w.extractLsb' 11 4) (w.extractLsb' 15 4) (w.extractLsb' 19 3) (w.extractLsb' 22 1) (w.extractLsb' 23 2))
  | 8 => some (.vsll (w.extractLsb' 7 4) (w.extractLsb' 11 4) (w.extractLsb' 15 4) (w.extractLsb' 19 3) (w.extractLsb' 22 1) (w.extractLsb' 23 2))
  | 9 => some (.vsrl (w.extractLsb' 7 4) (w.extractLsb' 11 4) (w.extractLsb' 15 4) (w.extractLsb' 19 3) (w.extractLsb' 22 1) (w.extractLsb' 23 2))
  | 10 => some (.vsra (w.extractLsb' 7 4) (w.extractLsb' 11 4) (w.extractLsb' 15 4) (w.extractLsb' 19 3) (w.extractLsb' 22 1) (w.extractLsb' 23 2))
  | 11 => some (.vmin (w.extractLsb' 7 4) (w.extractLsb' 11 4) (w.extractLsb' 15 4) (w.extractLsb' 19 3) (w.extractLsb' 22 1) (w.extractLsb' 23 2))
  | 12 => some (.vmax (w.extractLsb' 7 4) (w.extractLsb' 11 4) (w.extractLsb' 15 4) (w.extractLsb' 19 3) (w.extractLsb' 22 1) (w.extractLsb' 23 2))
  | 13 => some (.vminn (w.extractLsb' 7 4) (w.extractLsb' 11 4) (w.extractLsb' 15 4) (w.extractLsb' 19 3) (w.extractLsb' 22 1) (w.extractLsb' 23 2))
  | 14 => some (.vmaxn (w.extractLsb' 7 4) (w.extractLsb' 11 4) (w.extractLsb' 15 4) (w.extractLsb' 19 3) (w.extractLsb' 22 1) (w.extractLsb' 23 2))
  | 15 => some (.vsadd (w.extractLsb' 7 4) (w.extractLsb' 11 4) (w.extractLsb' 15 4) (w.extractLsb' 19 3) (w.extractLsb' 22 1) (w.extractLsb' 23 2))
  | 16 => some (.vssub (w.extractLsb' 7 4) (w.extractLsb' 11 4) (w.extractLsb' 15 4) (w.extractLsb' 19 3) (w.extractLsb' 22 1) (w.extractLsb' 23 2))
  | 17 => some (.vsaddn (w.extractLsb' 7 4) (w.extractLsb' 11 4) (w.extractLsb' 15 4) (w.extractLsb' 19 3) (w.extractLsb' 22 1) (w.extractLsb' 23 2))
  | 18 => some (.vssubn (w.extractLsb' 7 4) (w.extractLsb' 11 4) (w.extractLsb' 15 4) (w.extractLsb' 19 3) (w.extractLsb' 22 1) (w.extractLsb' 23 2))
  | 19 => if w.extractLsb' 15 4 == 0 then some (.vabs (w.extractLsb' 7 4) (w.extractLsb' 11 4) (w.extractLsb' 19 3) (w.extractLsb' 22 1) (w.extractLsb' 23 2)) else none
  | 20 => if w.extractLsb' 15 4 == 0 then some (.vneg (w.extractLsb' 7 4) (w.extractLsb' 11 4) (w.extractLsb' 19 3) (w.extractLsb' 22 1) (w.extractLsb' 23 2)) else none
  | 21 => some (.vma (w.extractLsb' 7 4) (w.extractLsb' 11 4) (w.extractLsb' 15 4) (w.extractLsb' 19 3) (w.extractLsb' 22 1) (w.extractLsb' 23 2))
  | 22 => if w.extractLsb' 15 4 == 0 then some (.vpopc (w.extractLsb' 7 4) (w.extractLsb' 11 4) (w.extractLsb' 19 3) (w.extractLsb' 22 1) (w.extractLsb' 23 2)) else none
  | 23 => if w.extractLsb' 15 4 == 0 then some (.vclz (w.extractLsb' 7 4) (w.extractLsb' 11 4) (w.extractLsb' 19 3) (w.extractLsb' 22 1) (w.extractLsb' 23 2)) else none
  | _ => none

/-- Major opcode 0x21 (R269). -/
noncomputable def decMaj21 (w : BitVec 32) : Option Instr :=
  match (w.extractLsb' 25 7).toNat with
  | 0 => some (.vfadd (w.extractLsb' 7 4) (w.extractLsb' 11 4) (w.extractLsb' 15 4) (w.extractLsb' 19 3) (w.extractLsb' 22 1) (w.extractLsb' 23 2))
  | 1 => some (.vfsub (w.extractLsb' 7 4) (w.extractLsb' 11 4) (w.extractLsb' 15 4) (w.extractLsb' 19 3) (w.extractLsb' 22 1) (w.extractLsb' 23 2))
  | 2 => some (.vfmul (w.extractLsb' 7 4) (w.extractLsb' 11 4) (w.extractLsb' 15 4) (w.extractLsb' 19 3) (w.extractLsb' 22 1) (w.extractLsb' 23 2))
  | 3 => some (.vfma (w.extractLsb' 7 4) (w.extractLsb' 11 4) (w.extractLsb' 15 4) (w.extractLsb' 19 3) (w.extractLsb' 22 1) (w.extractLsb' 23 2))
  | 4 => some (.vfmin (w.extractLsb' 7 4) (w.extractLsb' 11 4) (w.extractLsb' 15 4) (w.extractLsb' 19 3) (w.extractLsb' 22 1) (w.extractLsb' 23 2))
  | 5 => some (.vfmax (w.extractLsb' 7 4) (w.extractLsb' 11 4) (w.extractLsb' 15 4) (w.extractLsb' 19 3) (w.extractLsb' 22 1) (w.extractLsb' 23 2))
  | 6 => some (.vfdiv (w.extractLsb' 7 4) (w.extractLsb' 11 4) (w.extractLsb' 15 4) (w.extractLsb' 19 3) (w.extractLsb' 22 1) (w.extractLsb' 23 2))
  | 7 => if w.extractLsb' 15 4 == 0 then some (.vfsqrt (w.extractLsb' 7 4) (w.extractLsb' 11 4) (w.extractLsb' 19 3) (w.extractLsb' 22 1) (w.extractLsb' 23 2)) else none
  | 8 => if w.extractLsb' 15 4 == 0 then some (.vfrcp (w.extractLsb' 7 4) (w.extractLsb' 11 4) (w.extractLsb' 19 3) (w.extractLsb' 22 1) (w.extractLsb' 23 2)) else none
  | 9 => if w.extractLsb' 15 4 == 0 then some (.vfrsq (w.extractLsb' 7 4) (w.extractLsb' 11 4) (w.extractLsb' 19 3) (w.extractLsb' 22 1) (w.extractLsb' 23 2)) else none
  | 10 => if w.extractLsb' 15 4 == 0 then some (.vfexp2 (w.extractLsb' 7 4) (w.extractLsb' 11 4) (w.extractLsb' 19 3) (w.extractLsb' 22 1) (w.extractLsb' 23 2)) else none
  | 11 => if w.extractLsb' 15 4 == 0 then some (.vflog2 (w.extractLsb' 7 4) (w.extractLsb' 11 4) (w.extractLsb' 19 3) (w.extractLsb' 22 1) (w.extractLsb' 23 2)) else none
  | 12 => if w.extractLsb' 15 4 == 0 then some (.vfabs (w.extractLsb' 7 4) (w.extractLsb' 11 4) (w.extractLsb' 19 3) (w.extractLsb' 22 1) (w.extractLsb' 23 2)) else none
  | 13 => if w.extractLsb' 15 4 == 0 then some (.vfneg (w.extractLsb' 7 4) (w.extractLsb' 11 4) (w.extractLsb' 19 3) (w.extractLsb' 22 1) (w.extractLsb' 23 2)) else none
  | _ => none

/-- Major opcode 0x22 (R269). -/
noncomputable def decMaj22 (w : BitVec 32) : Option Instr :=
  match (w.extractLsb' 25 7).toNat with
  | 0 => if w.extractLsb' 10 1 == 0 then some (.vcmpeq (w.extractLsb' 7 3) (w.extractLsb' 11 4) (w.extractLsb' 15 4) (w.extractLsb' 19 3) (w.extractLsb' 22 1) (w.extractLsb' 23 2)) else none
  | 1 => if w.extractLsb' 10 1 == 0 then some (.vcmpne (w.extractLsb' 7 3) (w.extractLsb' 11 4) (w.extractLsb' 15 4) (w.extractLsb' 19 3) (w.extractLsb' 22 1) (w.extractLsb' 23 2)) else none
  | 2 => if w.extractLsb' 10 1 == 0 then some (.vcmplt (w.extractLsb' 7 3) (w.extractLsb' 11 4) (w.extractLsb' 15 4) (w.extractLsb' 19 3) (w.extractLsb' 22 1) (w.extractLsb' 23 2)) else none
  | 3 => if w.extractLsb' 10 1 == 0 then some (.vcmpge (w.extractLsb' 7 3) (w.extractLsb' 11 4) (w.extractLsb' 15 4) (w.extractLsb' 19 3) (w.extractLsb' 22 1) (w.extractLsb' 23 2)) else none
  | 4 => if w.extractLsb' 10 1 == 0 then some (.vcmpltn (w.extractLsb' 7 3) (w.extractLsb' 11 4) (w.extractLsb' 15 4) (w.extractLsb' 19 3) (w.extractLsb' 22 1) (w.extractLsb' 23 2)) else none
  | 5 => if w.extractLsb' 10 1 == 0 then some (.vcmpgen (w.extractLsb' 7 3) (w.extractLsb' 11 4) (w.extractLsb' 15 4) (w.extractLsb' 19 3) (w.extractLsb' 22 1) (w.extractLsb' 23 2)) else none
  | 6 => if w.extractLsb' 10 1 == 0 then some (.vfcmpeq (w.extractLsb' 7 3) (w.extractLsb' 11 4) (w.extractLsb' 15 4) (w.extractLsb' 19 3) (w.extractLsb' 22 1) (w.extractLsb' 23 2)) else none
  | 7 => if w.extractLsb' 10 1 == 0 then some (.vfcmplt (w.extractLsb' 7 3) (w.extractLsb' 11 4) (w.extractLsb' 15 4) (w.extractLsb' 19 3) (w.extractLsb' 22 1) (w.extractLsb' 23 2)) else none
  | 8 => if w.extractLsb' 10 1 == 0 then some (.vfcmple (w.extractLsb' 7 3) (w.extractLsb' 11 4) (w.extractLsb' 15 4) (w.extractLsb' 19 3) (w.extractLsb' 22 1) (w.extractLsb' 23 2)) else none
  | 9 => if w.extractLsb' 10 1 == 0 then some (.vfcmpun (w.extractLsb' 7 3) (w.extractLsb' 11 4) (w.extractLsb' 15 4) (w.extractLsb' 19 3) (w.extractLsb' 22 1) (w.extractLsb' 23 2)) else none
  | _ => none

/-- Major opcode 0x23 (R269). -/
noncomputable def decMaj23 (w : BitVec 32) : Option Instr :=
  match (w.extractLsb' 25 7).toNat with
  | 0 => if w.extractLsb' 22 1 == 0 then some (.vsel (w.extractLsb' 7 4) (w.extractLsb' 11 4) (w.extractLsb' 15 4) (w.extractLsb' 19 3) (w.extractLsb' 23 2)) else none
  | 1 => some (.vperm (w.extractLsb' 7 4) (w.extractLsb' 11 4) (w.extractLsb' 15 4) (w.extractLsb' 19 3) (w.extractLsb' 22 1) (w.extractLsb' 23 2))
  | 2 => some (.vslideup (w.extractLsb' 7 4) (w.extractLsb' 11 4) (w.extractLsb' 15 4) (w.extractLsb' 19 3) (w.extractLsb' 22 1) (w.extractLsb' 23 2))
  | 3 => some (.vslidedn (w.extractLsb' 7 4) (w.extractLsb' 11 4) (w.extractLsb' 15 4) (w.extractLsb' 19 3) (w.extractLsb' 22 1) (w.extractLsb' 23 2))
  | 4 => if w.extractLsb' 15 4 == 0 && w.extractLsb' 22 1 == 0 then some (.vcompress (w.extractLsb' 7 4) (w.extractLsb' 11 4) (w.extractLsb' 19 3) (w.extractLsb' 23 2)) else none
  | 5 => if w.extractLsb' 15 4 == 0 then some (.vexpand (w.extractLsb' 7 4) (w.extractLsb' 11 4) (w.extractLsb' 19 3) (w.extractLsb' 22 1) (w.extractLsb' 23 2)) else none
  | 6 => if w.extractLsb' 15 4 == 0 then some (.vmov (w.extractLsb' 7 4) (w.extractLsb' 11 4) (w.extractLsb' 19 3) (w.extractLsb' 22 1) (w.extractLsb' 23 2)) else none
  | _ => none

/-- Major opcode 0x24 (R269). -/
noncomputable def decMaj24 (w : BitVec 32) : Option Instr :=
  match (w.extractLsb' 25 7).toNat with
  | 0 => if w.extractLsb' 15 4 == 0 then some (.vredadd (w.extractLsb' 7 4) (w.extractLsb' 11 4) (w.extractLsb' 19 3) (w.extractLsb' 22 1) (w.extractLsb' 23 2)) else none
  | 1 => if w.extractLsb' 15 4 == 0 then some (.vredmin (w.extractLsb' 7 4) (w.extractLsb' 11 4) (w.extractLsb' 19 3) (w.extractLsb' 22 1) (w.extractLsb' 23 2)) else none
  | 2 => if w.extractLsb' 15 4 == 0 then some (.vredmax (w.extractLsb' 7 4) (w.extractLsb' 11 4) (w.extractLsb' 19 3) (w.extractLsb' 22 1) (w.extractLsb' 23 2)) else none
  | 3 => if w.extractLsb' 15 4 == 0 then some (.vredminn (w.extractLsb' 7 4) (w.extractLsb' 11 4) (w.extractLsb' 19 3) (w.extractLsb' 22 1) (w.extractLsb' 23 2)) else none
  | 4 => if w.extractLsb' 15 4 == 0 then some (.vredmaxn (w.extractLsb' 7 4) (w.extractLsb' 11 4) (w.extractLsb' 19 3) (w.extractLsb' 22 1) (w.extractLsb' 23 2)) else none
  | 5 => if w.extractLsb' 15 4 == 0 then some (.vredfadd (w.extractLsb' 7 4) (w.extractLsb' 11 4) (w.extractLsb' 19 3) (w.extractLsb' 22 1) (w.extractLsb' 23 2)) else none
  | 6 => if w.extractLsb' 15 4 == 0 then some (.vredfmin (w.extractLsb' 7 4) (w.extractLsb' 11 4) (w.extractLsb' 19 3) (w.extractLsb' 22 1) (w.extractLsb' 23 2)) else none
  | 7 => if w.extractLsb' 15 4 == 0 then some (.vredfmax (w.extractLsb' 7 4) (w.extractLsb' 11 4) (w.extractLsb' 19 3) (w.extractLsb' 22 1) (w.extractLsb' 23 2)) else none
  | 8 => if w.extractLsb' 15 4 == 0 then some (.vscan (w.extractLsb' 7 4) (w.extractLsb' 11 4) (w.extractLsb' 19 3) (w.extractLsb' 22 1) (w.extractLsb' 23 2)) else none
  | 9 => if w.extractLsb' 15 4 == 0 then some (.vfscan (w.extractLsb' 7 4) (w.extractLsb' 11 4) (w.extractLsb' 19 3) (w.extractLsb' 22 1) (w.extractLsb' 23 2)) else none
  | 10 => if w.extractLsb' 24 1 == 0 then some (.vdot (w.extractLsb' 7 4) (w.extractLsb' 11 4) (w.extractLsb' 15 4) (w.extractLsb' 19 3) (w.extractLsb' 22 1) (w.extractLsb' 23 1)) else none
  | _ => none

/-- Major opcode 0x25 (R269). -/
noncomputable def decMaj25 (w : BitVec 32) : Option Instr :=
  match (w.extractLsb' 25 7).toNat with
  | 0 => if w.extractLsb' 23 2 == 0 then some (.vcvtf2b (w.extractLsb' 7 4) (w.extractLsb' 11 4) (w.extractLsb' 15 4) (w.extractLsb' 19 3) (w.extractLsb' 22 1)) else none
  | 1 => if w.extractLsb' 23 2 == 0 then some (.vcvtb2f (w.extractLsb' 7 4) (w.extractLsb' 11 4) (w.extractLsb' 15 4) (w.extractLsb' 19 3) (w.extractLsb' 22 1)) else none
  | 2 => if w.extractLsb' 23 2 == 0 then some (.vcvtf2h (w.extractLsb' 7 4) (w.extractLsb' 11 4) (w.extractLsb' 15 4) (w.extractLsb' 19 3) (w.extractLsb' 22 1)) else none
  | 3 => if w.extractLsb' 23 2 == 0 then some (.vcvth2f (w.extractLsb' 7 4) (w.extractLsb' 11 4) (w.extractLsb' 15 4) (w.extractLsb' 19 3) (w.extractLsb' 22 1)) else none
  | 4 => if w.extractLsb' 23 2 == 0 then some (.vcvtf2e4 (w.extractLsb' 7 4) (w.extractLsb' 11 4) (w.extractLsb' 15 4) (w.extractLsb' 19 3) (w.extractLsb' 22 1)) else none
  | 5 => if w.extractLsb' 23 2 == 0 then some (.vcvte42f (w.extractLsb' 7 4) (w.extractLsb' 11 4) (w.extractLsb' 15 4) (w.extractLsb' 19 3) (w.extractLsb' 22 1)) else none
  | 6 => if w.extractLsb' 23 2 == 0 then some (.vcvtf2e5 (w.extractLsb' 7 4) (w.extractLsb' 11 4) (w.extractLsb' 15 4) (w.extractLsb' 19 3) (w.extractLsb' 22 1)) else none
  | 7 => if w.extractLsb' 23 2 == 0 then some (.vcvte52f (w.extractLsb' 7 4) (w.extractLsb' 11 4) (w.extractLsb' 15 4) (w.extractLsb' 19 3) (w.extractLsb' 22 1)) else none
  | 8 => if w.extractLsb' 23 2 == 0 then some (.vcvtf2w (w.extractLsb' 7 4) (w.extractLsb' 11 4) (w.extractLsb' 15 4) (w.extractLsb' 19 3) (w.extractLsb' 22 1)) else none
  | 9 => if w.extractLsb' 23 2 == 0 then some (.vcvtw2f (w.extractLsb' 7 4) (w.extractLsb' 11 4) (w.extractLsb' 15 4) (w.extractLsb' 19 3) (w.extractLsb' 22 1)) else none
  | 10 => if w.extractLsb' 23 2 == 0 then some (.vcvtw2i8 (w.extractLsb' 7 4) (w.extractLsb' 11 4) (w.extractLsb' 15 4) (w.extractLsb' 19 3) (w.extractLsb' 22 1)) else none
  | 11 => if w.extractLsb' 23 2 == 0 then some (.vcvti82w (w.extractLsb' 7 4) (w.extractLsb' 11 4) (w.extractLsb' 15 4) (w.extractLsb' 19 3) (w.extractLsb' 22 1)) else none
  | 12 => if w.extractLsb' 23 2 == 0 then some (.vcvtw2i4 (w.extractLsb' 7 4) (w.extractLsb' 11 4) (w.extractLsb' 15 4) (w.extractLsb' 19 3) (w.extractLsb' 22 1)) else none
  | 13 => if w.extractLsb' 23 2 == 0 then some (.vcvti42w (w.extractLsb' 7 4) (w.extractLsb' 11 4) (w.extractLsb' 15 4) (w.extractLsb' 19 3) (w.extractLsb' 22 1)) else none
  | 14 => if w.extractLsb' 23 2 == 0 then some (.vcvtd2f (w.extractLsb' 7 4) (w.extractLsb' 11 4) (w.extractLsb' 15 4) (w.extractLsb' 19 3) (w.extractLsb' 22 1)) else none
  | 15 => if w.extractLsb' 23 2 == 0 then some (.vcvtf2d (w.extractLsb' 7 4) (w.extractLsb' 11 4) (w.extractLsb' 15 4) (w.extractLsb' 19 3) (w.extractLsb' 22 1)) else none
  | 16 => if w.extractLsb' 22 1 == 0 then some (.vqnt (w.extractLsb' 7 4) (w.extractLsb' 11 4) (w.extractLsb' 15 4) (w.extractLsb' 19 3) (w.extractLsb' 23 2)) else none
  | 17 => some (.vdqnt (w.extractLsb' 7 4) (w.extractLsb' 11 4) (w.extractLsb' 15 4) (w.extractLsb' 19 3) (w.extractLsb' 22 1) (w.extractLsb' 23 2))
  | 18 => if w.extractLsb' 19 4 == 0 && w.extractLsb' 24 1 == 0 then some (.baddq (w.extractLsb' 7 4) (w.extractLsb' 11 4) (w.extractLsb' 15 4) (w.extractLsb' 23 1)) else none
  | 19 => some (.vbsc (w.extractLsb' 7 4) (w.extractLsb' 11 4) (w.extractLsb' 15 4) (w.extractLsb' 19 3) (w.extractLsb' 22 1) (w.extractLsb' 23 2))
  | 20 => if w.extractLsb' 22 1 == 0 then some (.vbexp (w.extractLsb' 7 4) (w.extractLsb' 11 4) (w.extractLsb' 15 4) (w.extractLsb' 19 3) (w.extractLsb' 23 2)) else none
  | _ => none

/-- Major opcode 0x26 (R269). -/
noncomputable def decMaj26 (w : BitVec 32) : Option Instr :=
  match (w.extractLsb' 27 3).toNat with
  | 0 => if w.extractLsb' 18 4 == 0 then some (.vld (w.extractLsb' 7 4) (w.extractLsb' 11 7) (w.extractLsb' 22 3) (w.extractLsb' 25 2) (w.extractLsb' 30 2)) else none
  | 1 => if w.extractLsb' 18 4 == 0 then some (.vst (w.extractLsb' 7 4) (w.extractLsb' 11 7) (w.extractLsb' 22 3) (w.extractLsb' 25 2) (w.extractLsb' 30 2)) else none
  | 2 => some (.vlds (w.extractLsb' 7 4) (w.extractLsb' 11 7) (w.extractLsb' 18 4) (w.extractLsb' 22 3) (w.extractLsb' 25 2) (w.extractLsb' 30 2))
  | 3 => some (.vsts (w.extractLsb' 7 4) (w.extractLsb' 11 7) (w.extractLsb' 18 4) (w.extractLsb' 22 3) (w.extractLsb' 25 2) (w.extractLsb' 30 2))
  | 4 => some (.vgath (w.extractLsb' 7 4) (w.extractLsb' 11 7) (w.extractLsb' 18 4) (w.extractLsb' 22 3) (w.extractLsb' 25 2) (w.extractLsb' 30 2))
  | 5 => some (.vscat (w.extractLsb' 7 4) (w.extractLsb' 11 7) (w.extractLsb' 18 4) (w.extractLsb' 22 3) (w.extractLsb' 25 2) (w.extractLsb' 30 2))
  | 6 => if w.extractLsb' 18 4 == 0 then some (.vldf (w.extractLsb' 7 4) (w.extractLsb' 11 7) (w.extractLsb' 22 3) (w.extractLsb' 25 2) (w.extractLsb' 30 2)) else none
  | _ => none

/-- Major opcode 0x27 (R269). -/
noncomputable def decMaj27 (w : BitVec 32) : Option Instr :=
  match (w.extractLsb' 28 4).toNat with
  | 0 => if w.extractLsb' 10 4 == 0 && w.extractLsb' 17 4 == 0 && w.extractLsb' 24 4 == 0 then some (.kand (w.extractLsb' 7 3) (w.extractLsb' 14 3) (w.extractLsb' 21 3)) else none
  | 1 => if w.extractLsb' 10 4 == 0 && w.extractLsb' 17 4 == 0 && w.extractLsb' 24 4 == 0 then some (.kor (w.extractLsb' 7 3) (w.extractLsb' 14 3) (w.extractLsb' 21 3)) else none
  | 2 => if w.extractLsb' 10 4 == 0 && w.extractLsb' 17 4 == 0 && w.extractLsb' 24 4 == 0 then some (.kxor (w.extractLsb' 7 3) (w.extractLsb' 14 3) (w.extractLsb' 21 3)) else none
  | 3 => if w.extractLsb' 10 4 == 0 && w.extractLsb' 17 4 == 0 && w.extractLsb' 24 4 == 0 then some (.kandn (w.extractLsb' 7 3) (w.extractLsb' 14 3) (w.extractLsb' 21 3)) else none
  | 4 => if w.extractLsb' 10 4 == 0 && w.extractLsb' 17 11 == 0 then some (.knot (w.extractLsb' 7 3) (w.extractLsb' 14 3)) else none
  | 5 => if w.extractLsb' 10 4 == 0 && w.extractLsb' 17 11 == 0 then some (.kmov (w.extractLsb' 7 3) (w.extractLsb' 14 3)) else none
  | 6 => if w.extractLsb' 17 11 == 0 then some (.kpopc (w.extractLsb' 7 7) (w.extractLsb' 14 3)) else none
  | 7 => if w.extractLsb' 17 11 == 0 then some (.kfirst (w.extractLsb' 7 7) (w.extractLsb' 14 3)) else none
  | 8 => if w.extractLsb' 10 4 == 0 && w.extractLsb' 21 7 == 0 then some (.kfromg (w.extractLsb' 7 3) (w.extractLsb' 14 7)) else none
  | 9 => if w.extractLsb' 17 11 == 0 then some (.ktog (w.extractLsb' 7 7) (w.extractLsb' 14 3)) else none
  | _ => none

/-- Major opcode 0x28 (R269). -/
noncomputable def decMaj28 (w : BitVec 32) : Option Instr :=
  match (w.extractLsb' 28 4).toNat with
  | 0 => some (.faddF32 (w.extractLsb' 7 7) (w.extractLsb' 14 7) (w.extractLsb' 21 7))
  | 1 => some (.fsubF32 (w.extractLsb' 7 7) (w.extractLsb' 14 7) (w.extractLsb' 21 7))
  | 2 => some (.fmulF32 (w.extractLsb' 7 7) (w.extractLsb' 14 7) (w.extractLsb' 21 7))
  | 3 => some (.fdivF32 (w.extractLsb' 7 7) (w.extractLsb' 14 7) (w.extractLsb' 21 7))
  | 4 => if w.extractLsb' 21 7 == 0 then some (.fsqrtF32 (w.extractLsb' 7 7) (w.extractLsb' 14 7)) else none
  | 5 => some (.fminF32 (w.extractLsb' 7 7) (w.extractLsb' 14 7) (w.extractLsb' 21 7))
  | 6 => some (.fmaxF32 (w.extractLsb' 7 7) (w.extractLsb' 14 7) (w.extractLsb' 21 7))
  | 7 => some (.fmaF32 (w.extractLsb' 7 7) (w.extractLsb' 14 7) (w.extractLsb' 21 7))
  | 8 => if w.extractLsb' 21 7 == 0 then some (.fabsF32 (w.extractLsb' 7 7) (w.extractLsb' 14 7)) else none
  | 9 => if w.extractLsb' 21 7 == 0 then some (.fnegF32 (w.extractLsb' 7 7) (w.extractLsb' 14 7)) else none
  | 10 => if w.extractLsb' 21 7 == 0 then some (.fclassF32 (w.extractLsb' 7 7) (w.extractLsb' 14 7)) else none
  | _ => none

/-- Major opcode 0x29 (R269). -/
noncomputable def decMaj29 (w : BitVec 32) : Option Instr :=
  match (w.extractLsb' 28 4).toNat with
  | 0 => some (.faddF64 (w.extractLsb' 7 7) (w.extractLsb' 14 7) (w.extractLsb' 21 7))
  | 1 => some (.fsubF64 (w.extractLsb' 7 7) (w.extractLsb' 14 7) (w.extractLsb' 21 7))
  | 2 => some (.fmulF64 (w.extractLsb' 7 7) (w.extractLsb' 14 7) (w.extractLsb' 21 7))
  | 3 => some (.fdivF64 (w.extractLsb' 7 7) (w.extractLsb' 14 7) (w.extractLsb' 21 7))
  | 4 => if w.extractLsb' 21 7 == 0 then some (.fsqrtF64 (w.extractLsb' 7 7) (w.extractLsb' 14 7)) else none
  | 5 => some (.fminF64 (w.extractLsb' 7 7) (w.extractLsb' 14 7) (w.extractLsb' 21 7))
  | 6 => some (.fmaxF64 (w.extractLsb' 7 7) (w.extractLsb' 14 7) (w.extractLsb' 21 7))
  | 7 => some (.fmaF64 (w.extractLsb' 7 7) (w.extractLsb' 14 7) (w.extractLsb' 21 7))
  | 8 => if w.extractLsb' 21 7 == 0 then some (.fabsF64 (w.extractLsb' 7 7) (w.extractLsb' 14 7)) else none
  | 9 => if w.extractLsb' 21 7 == 0 then some (.fnegF64 (w.extractLsb' 7 7) (w.extractLsb' 14 7)) else none
  | 10 => if w.extractLsb' 21 7 == 0 then some (.fclassF64 (w.extractLsb' 7 7) (w.extractLsb' 14 7)) else none
  | _ => none

/-- Major opcode 0x2A (R269). -/
noncomputable def decMaj2A (w : BitVec 32) : Option Instr :=
  match (w.extractLsb' 28 3).toNat with
  | 0 => if w.extractLsb' 10 4 == 0 then some (.fcmpeq (w.extractLsb' 7 3) (w.extractLsb' 14 7) (w.extractLsb' 21 7) (w.extractLsb' 31 1)) else none
  | 1 => if w.extractLsb' 10 4 == 0 then some (.fcmplt (w.extractLsb' 7 3) (w.extractLsb' 14 7) (w.extractLsb' 21 7) (w.extractLsb' 31 1)) else none
  | 2 => if w.extractLsb' 10 4 == 0 then some (.fcmple (w.extractLsb' 7 3) (w.extractLsb' 14 7) (w.extractLsb' 21 7) (w.extractLsb' 31 1)) else none
  | 3 => if w.extractLsb' 10 4 == 0 then some (.fcmpun (w.extractLsb' 7 3) (w.extractLsb' 14 7) (w.extractLsb' 21 7) (w.extractLsb' 31 1)) else none
  | 4 => if w.extractLsb' 10 4 == 0 then some (.fcmpne (w.extractLsb' 7 3) (w.extractLsb' 14 7) (w.extractLsb' 21 7) (w.extractLsb' 31 1)) else none
  | _ => none

/-- Major opcode 0x2B (R269). -/
noncomputable def decMaj2B (w : BitVec 32) : Option Instr :=
  match (w.extractLsb' 28 4).toNat with
  | 0 => if w.extractLsb' 21 7 == 0 then some (.cvtf2d (w.extractLsb' 7 7) (w.extractLsb' 14 7)) else none
  | 1 => if w.extractLsb' 21 7 == 0 then some (.cvtd2f (w.extractLsb' 7 7) (w.extractLsb' 14 7)) else none
  | 2 => if w.extractLsb' 21 7 == 0 then some (.cvtf2w (w.extractLsb' 7 7) (w.extractLsb' 14 7)) else none
  | 3 => if w.extractLsb' 21 7 == 0 then some (.cvtf2l (w.extractLsb' 7 7) (w.extractLsb' 14 7)) else none
  | 4 => if w.extractLsb' 21 7 == 0 then some (.cvtd2w (w.extractLsb' 7 7) (w.extractLsb' 14 7)) else none
  | 5 => if w.extractLsb' 21 7 == 0 then some (.cvtd2l (w.extractLsb' 7 7) (w.extractLsb' 14 7)) else none
  | 6 => if w.extractLsb' 21 7 == 0 then some (.cvtw2f (w.extractLsb' 7 7) (w.extractLsb' 14 7)) else none
  | 7 => if w.extractLsb' 21 7 == 0 then some (.cvtl2f (w.extractLsb' 7 7) (w.extractLsb' 14 7)) else none
  | 8 => if w.extractLsb' 21 7 == 0 then some (.cvtw2d (w.extractLsb' 7 7) (w.extractLsb' 14 7)) else none
  | 9 => if w.extractLsb' 21 7 == 0 then some (.cvtl2d (w.extractLsb' 7 7) (w.extractLsb' 14 7)) else none
  | 10 => if w.extractLsb' 21 7 == 0 then some (.cvtf2b (w.extractLsb' 7 7) (w.extractLsb' 14 7)) else none
  | 11 => if w.extractLsb' 21 7 == 0 then some (.cvtb2f (w.extractLsb' 7 7) (w.extractLsb' 14 7)) else none
  | 12 => if w.extractLsb' 21 7 == 0 then some (.cvtf2h (w.extractLsb' 7 7) (w.extractLsb' 14 7)) else none
  | 13 => if w.extractLsb' 21 7 == 0 then some (.cvth2f (w.extractLsb' 7 7) (w.extractLsb' 14 7)) else none
  | _ => none

/-- Major opcode 0x2C (R269). -/
noncomputable def decMaj2C (w : BitVec 32) : Option Instr :=
  match (w.extractLsb' 28 4).toNat with
  | 0 => if w.extractLsb' 7 3 == 0 then some (.vbcast (w.extractLsb' 10 4) (w.extractLsb' 14 7) (w.extractLsb' 21 7)) else none
  | 1 => if w.extractLsb' 14 3 == 0 then some (.vextr (w.extractLsb' 7 7) (w.extractLsb' 17 4) (w.extractLsb' 21 7)) else none
  | 2 => if w.extractLsb' 7 3 == 0 then some (.vins (w.extractLsb' 10 4) (w.extractLsb' 14 7) (w.extractLsb' 21 7)) else none
  | 3 => if w.extractLsb' 7 3 == 0 then some (.viota (w.extractLsb' 10 4) (w.extractLsb' 14 7) (w.extractLsb' 21 7)) else none
  | _ => none

/-- Major opcode 0x30 (R269). -/
noncomputable def decMaj30 (w : BitVec 32) : Option Instr :=
  match (w.extractLsb' 28 4).toNat with
  | 0 => some (.cld (w.extractLsb' 7 7) (w.extractLsb' 14 7) (w.extractLsb' 21 7))
  | 1 => some (.cst (w.extractLsb' 7 7) (w.extractLsb' 14 7) (w.extractLsb' 21 7))
  | 2 => some (.cadd (w.extractLsb' 7 7) (w.extractLsb' 14 7) (w.extractLsb' 21 7))
  | 3 => some (.cnext (w.extractLsb' 7 7) (w.extractLsb' 14 7) (w.extractLsb' 21 7))
  | 4 => some (.cdel (w.extractLsb' 7 7) (w.extractLsb' 14 7) (w.extractLsb' 21 7))
  | 5 => some (.calloc (w.extractLsb' 7 7) (w.extractLsb' 14 7) (w.extractLsb' 21 7))
  | 6 => some (.cfree (w.extractLsb' 7 7) (w.extractLsb' 14 7) (w.extractLsb' 21 7))
  | 7 => if w.extractLsb' 7 7 == 0 && w.extractLsb' 21 7 == 0 then some (.cinv (w.extractLsb' 14 7)) else none
  | 8 => some (.cqry (w.extractLsb' 7 7) (w.extractLsb' 14 7) (w.extractLsb' 21 7))
  | _ => none

/-- Major opcode 0x34 (R269). -/
noncomputable def decMaj34 (w : BitVec 32) : Option Instr :=
  match (w.extractLsb' 28 4).toNat with
  | 0 => if w.extractLsb' 7 7 == 0 then some (.spawn (w.extractLsb' 14 7) (w.extractLsb' 21 7)) else none
  | 1 => if w.extractLsb' 7 21 == 0 then some (.sync) else none
  | 2 => if w.extractLsb' 7 21 == 0 then some (.retc) else none
  | 3 => if w.extractLsb' 7 21 == 0 then some (.yield) else none
  | 4 => if w.extractLsb' 7 7 == 0 then some (.park (w.extractLsb' 14 7) (w.extractLsb' 21 7)) else none
  | 5 => if w.extractLsb' 7 7 == 0 then some (.tnew (w.extractLsb' 14 7) (w.extractLsb' 21 7)) else none
  | 6 => if w.extractLsb' 7 21 == 0 then some (.texit) else none
  | 7 => if w.extractLsb' 7 7 == 0 && w.extractLsb' 21 7 == 0 then some (.susp (w.extractLsb' 14 7)) else none
  | 8 => some (.resume (w.extractLsb' 7 7) (w.extractLsb' 14 7) (w.extractLsb' 21 7))
  | 9 => if w.extractLsb' 7 7 == 0 && w.extractLsb' 21 7 == 0 then some (.lsetup (w.extractLsb' 14 7)) else none
  | 10 => if w.extractLsb' 21 7 == 0 then some (.lnext (w.extractLsb' 7 7) (w.extractLsb' 14 7)) else none
  | 11 => some (.migr (w.extractLsb' 7 7) (w.extractLsb' 14 7) (w.extractLsb' 21 7))
  | 12 => if w.extractLsb' 7 7 == 0 then some (.mret (w.extractLsb' 14 7) (w.extractLsb' 21 7)) else none
  | _ => none

/-- Major opcode 0x35 (R269). -/
noncomputable def decMaj35 (w : BitVec 32) : Option Instr :=
  match (w.extractLsb' 28 4).toNat with
  | 0 => if w.extractLsb' 21 7 == 0 then some (.suspend (w.extractLsb' 7 7) (w.extractLsb' 14 7)) else none
  | 1 => if w.extractLsb' 21 7 == 0 then some (.force (w.extractLsb' 7 7) (w.extractLsb' 14 7)) else none
  | 2 => if w.extractLsb' 7 7 == 0 && w.extractLsb' 21 7 == 0 then some (.spark (w.extractLsb' 14 7)) else none
  | 3 => if w.extractLsb' 21 7 == 0 then some (.hwait (w.extractLsb' 7 7) (w.extractLsb' 14 7)) else none
  | 4 => if w.extractLsb' 21 7 == 0 then some (.hstat (w.extractLsb' 7 7) (w.extractLsb' 14 7)) else none
  | 5 => if w.extractLsb' 7 7 == 0 then some (.hbind (w.extractLsb' 14 7) (w.extractLsb' 21 7)) else none
  | 6 => if w.extractLsb' 7 7 == 0 && w.extractLsb' 21 7 == 0 then some (.hdrop (w.extractLsb' 14 7)) else none
  | 7 => if w.extractLsb' 21 7 == 0 then some (.tenq (w.extractLsb' 7 7) (w.extractLsb' 14 7)) else none
  | 8 => if w.extractLsb' 7 7 == 0 then some (.mprog (w.extractLsb' 14 7) (w.extractLsb' 21 7)) else none
  | _ => none

/-- Major opcode 0x38 (R269). -/
noncomputable def decMaj38 (w : BitVec 32) : Option Instr :=
  match (w.extractLsb' 28 4).toNat with
  | 0 => some (.cpy (w.extractLsb' 7 7) (w.extractLsb' 14 7) (w.extractLsb' 21 7))
  | 1 => some (.plane (w.extractLsb' 7 7) (w.extractLsb' 14 7) (w.extractLsb' 21 7))
  | 2 => some (.dense (w.extractLsb' 7 7) (w.extractLsb' 14 7) (w.extractLsb' 21 7))
  | 3 => if w.extractLsb' 21 7 == 0 then some (.fill (w.extractLsb' 7 7) (w.extractLsb' 14 7)) else none
  | 4 => if w.extractLsb' 21 7 == 0 then some (.route (w.extractLsb' 7 7) (w.extractLsb' 14 7)) else none
  | 5 => if w.extractLsb' 21 7 == 0 then some (.psel (w.extractLsb' 7 7) (w.extractLsb' 14 7)) else none
  | 6 => some (.rqinit (w.extractLsb' 7 7) (w.extractLsb' 14 7) (w.extractLsb' 21 7))
  | 7 => if w.extractLsb' 21 7 == 0 then some (.rqget (w.extractLsb' 7 7) (w.extractLsb' 14 7)) else none
  | 8 => some (.rqdone (w.extractLsb' 7 7) (w.extractLsb' 14 7) (w.extractLsb' 21 7))
  | _ => none

/-- Major opcode 0x39 (R269). -/
noncomputable def decMaj39 (w : BitVec 32) : Option Instr :=
  match (w.extractLsb' 28 4).toNat with
  | 0 => some (.send (w.extractLsb' 7 7) (w.extractLsb' 14 7) (w.extractLsb' 21 7))
  | 1 => some (.qcfg (w.extractLsb' 7 7) (w.extractLsb' 14 7) (w.extractLsb' 21 7))
  | 2 => some (.qctl (w.extractLsb' 7 7) (w.extractLsb' 14 7) (w.extractLsb' 21 7))
  | 3 => some (.qhnd (w.extractLsb' 7 7) (w.extractLsb' 14 7) (w.extractLsb' 21 7))
  | 4 => if w.extractLsb' 7 21 == 0 then some (.qret) else none
  | 5 => if w.extractLsb' 21 7 == 0 then some (.qstat (w.extractLsb' 7 7) (w.extractLsb' 14 7)) else none
  | _ => none

/-- Major opcode 0x3A (R269). -/
noncomputable def decMaj3A (w : BitVec 32) : Option Instr :=
  if w.extractLsb' 14 7 == 0 then some (.csrrd (w.extractLsb' 7 7) (w.extractLsb' 21 11)) else none

/-- Major opcode 0x3B (R269). -/
noncomputable def decMaj3B (w : BitVec 32) : Option Instr :=
  some (.csrwr (w.extractLsb' 7 7) (w.extractLsb' 14 7) (w.extractLsb' 21 11))

/-- Major opcode 0x3C (R269). -/
noncomputable def decMaj3C (w : BitVec 32) : Option Instr :=
  some (.csrset (w.extractLsb' 7 7) (w.extractLsb' 14 7) (w.extractLsb' 21 11))

/-- Major opcode 0x3D (R269). -/
noncomputable def decMaj3D (w : BitVec 32) : Option Instr :=
  match (w.extractLsb' 28 4).toNat with
  | 0 => if w.extractLsb' 7 7 == 0 && w.extractLsb' 21 7 == 0 then some (.trap (w.extractLsb' 14 7)) else none
  | 1 => if w.extractLsb' 7 21 == 0 then some (.syscall) else none
  | 2 => if w.extractLsb' 7 21 == 0 then some (.eret) else none
  | 3 => if w.extractLsb' 7 21 == 0 then some (.brk) else none
  | 4 => if w.extractLsb' 7 21 == 0 then some (.halt) else none
  | 5 => if w.extractLsb' 21 7 == 0 then some (.feat (w.extractLsb' 7 7) (w.extractLsb' 14 7)) else none
  | 6 => if w.extractLsb' 7 7 == 0 then some (.tlbw (w.extractLsb' 14 7) (w.extractLsb' 21 7)) else none
  | 7 => some (.tlbi (w.extractLsb' 7 7) (w.extractLsb' 14 7) (w.extractLsb' 21 7))
  | 8 => if w.extractLsb' 7 21 == 0 then some (.flushi) else none
  | 9 => if w.extractLsb' 7 21 == 0 then some (.upret) else none
  | 10 => if w.extractLsb' 21 7 == 0 then some (.seqq (w.extractLsb' 7 7) (w.extractLsb' 14 7)) else none
  | _ => none

/-- The instruction of a 32-bit word, before the checks of its field values. -/
noncomputable def decodeWord (w : BitVec 32) : Option Instr :=
  match (w.extractLsb' 0 7).toNat with
  | 1 => decMaj00 w
  | 3 => decMaj01 w
  | 5 => decMaj02 w
  | 7 => decMaj03 w
  | 9 => decMaj04 w
  | 11 => decMaj05 w
  | 13 => decMaj06 w
  | 15 => decMaj07 w
  | 17 => decMaj08 w
  | 19 => decMaj09 w
  | 21 => decMaj0A w
  | 23 => decMaj0B w
  | 25 => decMaj0C w
  | 27 => decMaj0D w
  | 29 => decMaj0E w
  | 31 => decMaj0F w
  | 33 => decMaj10 w
  | 35 => decMaj11 w
  | 37 => decMaj12 w
  | 39 => decMaj13 w
  | 41 => decMaj14 w
  | 43 => decMaj15 w
  | 45 => decMaj16 w
  | 47 => decMaj17 w
  | 49 => decMaj18 w
  | 51 => decMaj19 w
  | 53 => decMaj1A w
  | 55 => decMaj1B w
  | 57 => decMaj1C w
  | 59 => decMaj1D w
  | 61 => decMaj1E w
  | 63 => decMaj1F w
  | 65 => decMaj20 w
  | 67 => decMaj21 w
  | 69 => decMaj22 w
  | 71 => decMaj23 w
  | 73 => decMaj24 w
  | 75 => decMaj25 w
  | 77 => decMaj26 w
  | 79 => decMaj27 w
  | 81 => decMaj28 w
  | 83 => decMaj29 w
  | 85 => decMaj2A w
  | 87 => decMaj2B w
  | 89 => decMaj2C w
  | 97 => decMaj30 w
  | 105 => decMaj34 w
  | 107 => decMaj35 w
  | 113 => decMaj38 w
  | 115 => decMaj39 w
  | 117 => decMaj3A w
  | 119 => decMaj3B w
  | 121 => decMaj3C w
  | 123 => decMaj3D w
  | _ => none

/-- The 16-bit form of a halfword (R265, R266), before the checks of its field values. -/
noncomputable def decodeHalf (h : BitVec 16) : Option Instr :=
  match (h.extractLsb' 0 6).toNat with
  | 0 => some (.addFh (h.extractLsb' 6 5) (h.extractLsb' 11 5))
  | 2 => some (.subFh (h.extractLsb' 6 5) (h.extractLsb' 11 5))
  | 4 => some (.mulFh (h.extractLsb' 6 5) (h.extractLsb' 11 5))
  | 6 => some (.andFh (h.extractLsb' 6 5) (h.extractLsb' 11 5))
  | 8 => some (.orFh (h.extractLsb' 6 5) (h.extractLsb' 11 5))
  | 10 => some (.xorFh (h.extractLsb' 6 5) (h.extractLsb' 11 5))
  | 12 => some (.sllFh (h.extractLsb' 6 5) (h.extractLsb' 11 5))
  | 14 => some (.srlFh (h.extractLsb' 6 5) (h.extractLsb' 11 5))
  | 16 => some (.sraFh (h.extractLsb' 6 5) (h.extractLsb' 11 5))
  | 18 => some (.minFh (h.extractLsb' 6 5) (h.extractLsb' 11 5))
  | 20 => some (.maxFh (h.extractLsb' 6 5) (h.extractLsb' 11 5))
  | 22 => some (.movFh (h.extractLsb' 6 5) (h.extractLsb' 11 5))
  | 24 => some (.addiFh (h.extractLsb' 6 5) (h.extractLsb' 11 5))
  | 26 => some (.slliFh (h.extractLsb' 6 5) (h.extractLsb' 11 5))
  | 28 => some (.faddFh (h.extractLsb' 6 5) (h.extractLsb' 11 5))
  | 30 => some (.fmulFh (h.extractLsb' 6 5) (h.extractLsb' 11 5))
  | 32 => some (.vaddFh (h.extractLsb' 6 5) (h.extractLsb' 11 5))
  | 34 => some (.vsubFh (h.extractLsb' 6 5) (h.extractLsb' 11 5))
  | 36 => some (.vmulFh (h.extractLsb' 6 5) (h.extractLsb' 11 5))
  | 38 => some (.vandFh (h.extractLsb' 6 5) (h.extractLsb' 11 5))
  | 40 => some (.vorFh (h.extractLsb' 6 5) (h.extractLsb' 11 5))
  | 42 => some (.vxorFh (h.extractLsb' 6 5) (h.extractLsb' 11 5))
  | 44 => some (.vsllFh (h.extractLsb' 6 5) (h.extractLsb' 11 5))
  | 46 => some (.vsrlFh (h.extractLsb' 6 5) (h.extractLsb' 11 5))
  | 48 => some (.vsraFh (h.extractLsb' 6 5) (h.extractLsb' 11 5))
  | 50 => some (.vminFh (h.extractLsb' 6 5) (h.extractLsb' 11 5))
  | 52 => some (.vmaxFh (h.extractLsb' 6 5) (h.extractLsb' 11 5))
  | 54 => some (.vmovFh (h.extractLsb' 6 5) (h.extractLsb' 11 5))
  | 60 => some (.vfaddFh (h.extractLsb' 6 5) (h.extractLsb' 11 5))
  | 62 => some (.vfmulFh (h.extractLsb' 6 5) (h.extractLsb' 11 5))
  | _ => none

/-- The instruction of a 32-bit word, well formed, or why it is none. -/
noncomputable def decode32 (w : BitVec 32) : Except DecodeError Instr :=
  match decodeWord w with
  | none => .error (.unassigned w)
  | some i => if i.wf then .ok i else .error (.fieldValue w)

/-- The instruction of a halfword, well formed, or why it is none. -/
noncomputable def decode16 (h : BitVec 16) : Except DecodeError Instr :=
  match decodeHalf h with
  | none => .error (.halfword h)
  | some i => if i.wf then .ok i else .error (.halfword h)

/-- The instruction at the head of a byte list and the bytes after it (R263: bit 0 of the first halfword gives
the length). -/
noncomputable def decode : List (BitVec 8) → Except DecodeError (Instr × List (BitVec 8))
  | b0 :: b1 :: r =>
    if b0.getLsbD 0 then
      match r with
      | b2 :: b3 :: r' => (decode32 (b3 ++ b2 ++ b1 ++ b0)).map fun i => (i, r')
      | _ => .error .truncated
    else (decode16 (b1 ++ b0)).map fun i => (i, r)
  | _ => .error .truncated

/-- Whether an instruction has an encoding of its own: a KN1 instruction, not a device step. -/
def Instr.encoded : Instr → Bool
  | .addFh _ _ | .subFh _ _ | .mulFh _ _ | .andFh _ _ | .orFh _ _ | .xorFh _ _ | .sllFh _ _ | .srlFh _ _
  | .sraFh _ _ | .minFh _ _ | .maxFh _ _ | .movFh _ _ | .addiFh _ _ | .slliFh _ _ | .faddFh _ _ | .fmulFh _ _
  | .vaddFh _ _ | .vsubFh _ _ | .vmulFh _ _ | .vandFh _ _ | .vorFh _ _ | .vxorFh _ _ | .vsllFh _ _
  | .vsrlFh _ _ | .vsraFh _ _ | .vminFh _ _ | .vmaxFh _ _ | .vmovFh _ _ | .vfaddFh _ _ | .vfmulFh _ _
  | .add _ _ _ | .sub _ _ _ | .and _ _ _ | .or _ _ _ | .xor _ _ _ | .andn _ _ _ | .orn _ _ _ | .xnor _ _ _
  | .sll _ _ _ | .srl _ _ _ | .sra _ _ _ | .rol _ _ _ | .ror _ _ _ | .min _ _ _ | .max _ _ _ | .minn _ _ _
  | .maxn _ _ _ | .mul _ _ _ | .mulh _ _ _ | .mulhn _ _ _ | .mulhsn _ _ _ | .div _ _ _ | .divn _ _ _
  | .rem _ _ _ | .remn _ _ _ | .clz _ _ | .ctz _ _ | .popc _ _ | .sext _ _ _ | .zext _ _ _ | .addw _ _ _
  | .subw _ _ _ | .bfx _ _ _ | .bfxn _ _ _ | .bfi _ _ _ | .shadd1 _ _ _ | .shadd2 _ _ _ | .shadd3 _ _ _
  | .hash _ _ _ | .rmap _ _ _ | .clin _ _ _ | .cunl _ _ _ | .cmpeq _ _ _ | .cmpne _ _ _ | .cmplt _ _ _
  | .cmpge _ _ _ | .cmpltn _ _ _ | .cmpgen _ _ _ | .btst _ _ _ | .sel _ _ _ _ _ | .cmpeqi _ _ _
  | .cmpnei _ _ _ | .cmplti _ _ _ | .cmpgei _ _ _ | .cmpltni _ _ _ | .cmpgeni _ _ _ | .btsti _ _ _ | .bar _ _
  | .addpc _ _ | .addi _ _ _ | .andi _ _ _ | .ori _ _ _ | .xori _ _ _ | .slli _ _ _ | .srli _ _ _
  | .srai _ _ _ | .roli _ _ _ | .muli _ _ _ | .li _ _ | .lis _ _ | .beqz _ _ | .bnez _ _ | .bltz _ _
  | .bgez _ _ | .bgtz _ _ | .blez _ _ | .bk _ _ _ | .jal _ _ | .jalr _ _ _ | .ld _ _ _ _ _ | .ldn _ _ _ _ _
  | .st _ _ _ _ _ | .ldx _ _ _ _ _ | .ldxn _ _ _ _ _ | .stx _ _ _ _ _ | .lds _ _ _ _ _ _ | .sts _ _ _ _ _
  | .stsf _ _ _ _ _ | .amoadd _ _ _ | .amoand _ _ _ | .amoor _ _ _ | .amoxor _ _ _ | .amomin _ _ _
  | .amomax _ _ _ | .amominn _ _ _ | .amomaxn _ _ _ | .amoswp _ _ _ | .amocas _ _ _ | .amofadds _ _ _
  | .amofaddd _ _ _ | .feqry _ _ | .feset _ _ | .feclr _ _ | .fence _ _ | .wait _ _ _ _ | .tlwait _ _
  | .vadd _ _ _ _ _ _ | .vsub _ _ _ _ _ _ | .vmul _ _ _ _ _ _ | .vmulh _ _ _ _ _ _ | .vmulhn _ _ _ _ _ _
  | .vand _ _ _ _ _ _ | .vor _ _ _ _ _ _ | .vxor _ _ _ _ _ _ | .vsll _ _ _ _ _ _ | .vsrl _ _ _ _ _ _
  | .vsra _ _ _ _ _ _ | .vmin _ _ _ _ _ _ | .vmax _ _ _ _ _ _ | .vminn _ _ _ _ _ _ | .vmaxn _ _ _ _ _ _
  | .vsadd _ _ _ _ _ _ | .vssub _ _ _ _ _ _ | .vsaddn _ _ _ _ _ _ | .vssubn _ _ _ _ _ _ | .vabs _ _ _ _ _
  | .vneg _ _ _ _ _ | .vma _ _ _ _ _ _ | .vpopc _ _ _ _ _ | .vclz _ _ _ _ _ | .vfadd _ _ _ _ _ _
  | .vfsub _ _ _ _ _ _ | .vfmul _ _ _ _ _ _ | .vfma _ _ _ _ _ _ | .vfmin _ _ _ _ _ _ | .vfmax _ _ _ _ _ _
  | .vfdiv _ _ _ _ _ _ | .vfsqrt _ _ _ _ _ | .vfrcp _ _ _ _ _ | .vfrsq _ _ _ _ _ | .vfexp2 _ _ _ _ _
  | .vflog2 _ _ _ _ _ | .vfabs _ _ _ _ _ | .vfneg _ _ _ _ _ | .vcmpeq _ _ _ _ _ _ | .vcmpne _ _ _ _ _ _
  | .vcmplt _ _ _ _ _ _ | .vcmpge _ _ _ _ _ _ | .vcmpltn _ _ _ _ _ _ | .vcmpgen _ _ _ _ _ _
  | .vfcmpeq _ _ _ _ _ _ | .vfcmplt _ _ _ _ _ _ | .vfcmple _ _ _ _ _ _ | .vfcmpun _ _ _ _ _ _
  | .vsel _ _ _ _ _ | .vperm _ _ _ _ _ _ | .vslideup _ _ _ _ _ _ | .vslidedn _ _ _ _ _ _ | .vcompress _ _ _ _
  | .vexpand _ _ _ _ _ | .vmov _ _ _ _ _ | .vredadd _ _ _ _ _ | .vredmin _ _ _ _ _ | .vredmax _ _ _ _ _
  | .vredminn _ _ _ _ _ | .vredmaxn _ _ _ _ _ | .vredfadd _ _ _ _ _ | .vredfmin _ _ _ _ _
  | .vredfmax _ _ _ _ _ | .vscan _ _ _ _ _ | .vfscan _ _ _ _ _ | .vdot _ _ _ _ _ _ | .vcvtf2b _ _ _ _ _
  | .vcvtb2f _ _ _ _ _ | .vcvtf2h _ _ _ _ _ | .vcvth2f _ _ _ _ _ | .vcvtf2e4 _ _ _ _ _ | .vcvte42f _ _ _ _ _
  | .vcvtf2e5 _ _ _ _ _ | .vcvte52f _ _ _ _ _ | .vcvtf2w _ _ _ _ _ | .vcvtw2f _ _ _ _ _ | .vcvtw2i8 _ _ _ _ _
  | .vcvti82w _ _ _ _ _ | .vcvtw2i4 _ _ _ _ _ | .vcvti42w _ _ _ _ _ | .vcvtd2f _ _ _ _ _ | .vcvtf2d _ _ _ _ _
  | .vqnt _ _ _ _ _ | .vdqnt _ _ _ _ _ _ | .baddq _ _ _ _ | .vbsc _ _ _ _ _ _ | .vbexp _ _ _ _ _
  | .vld _ _ _ _ _ | .vst _ _ _ _ _ | .vlds _ _ _ _ _ _ | .vsts _ _ _ _ _ _ | .vgath _ _ _ _ _ _
  | .vscat _ _ _ _ _ _ | .vldf _ _ _ _ _ | .kand _ _ _ | .kor _ _ _ | .kxor _ _ _ | .kandn _ _ _ | .knot _ _
  | .kmov _ _ | .kpopc _ _ | .kfirst _ _ | .kfromg _ _ | .ktog _ _ | .faddF32 _ _ _ | .fsubF32 _ _ _
  | .fmulF32 _ _ _ | .fdivF32 _ _ _ | .fsqrtF32 _ _ | .fminF32 _ _ _ | .fmaxF32 _ _ _ | .fmaF32 _ _ _
  | .fabsF32 _ _ | .fnegF32 _ _ | .fclassF32 _ _ | .faddF64 _ _ _ | .fsubF64 _ _ _ | .fmulF64 _ _ _
  | .fdivF64 _ _ _ | .fsqrtF64 _ _ | .fminF64 _ _ _ | .fmaxF64 _ _ _ | .fmaF64 _ _ _ | .fabsF64 _ _
  | .fnegF64 _ _ | .fclassF64 _ _ | .fcmpeq _ _ _ _ | .fcmplt _ _ _ _ | .fcmple _ _ _ _ | .fcmpun _ _ _ _
  | .fcmpne _ _ _ _ | .cvtf2d _ _ | .cvtd2f _ _ | .cvtf2w _ _ | .cvtf2l _ _ | .cvtd2w _ _ | .cvtd2l _ _
  | .cvtw2f _ _ | .cvtl2f _ _ | .cvtw2d _ _ | .cvtl2d _ _ | .cvtf2b _ _ | .cvtb2f _ _ | .cvtf2h _ _
  | .cvth2f _ _ | .vbcast _ _ _ | .vextr _ _ _ | .vins _ _ _ | .viota _ _ _ | .cld _ _ _ | .cst _ _ _
  | .cadd _ _ _ | .cnext _ _ _ | .cdel _ _ _ | .calloc _ _ _ | .cfree _ _ _ | .cinv _ | .cqry _ _ _
  | .spawn _ _ | .sync | .retc | .yield | .park _ _ | .tnew _ _ | .texit | .susp _ | .resume _ _ _
  | .lsetup _ | .lnext _ _ | .migr _ _ _ | .mret _ _ | .suspend _ _ | .force _ _ | .spark _ | .hwait _ _
  | .hstat _ _ | .hbind _ _ | .hdrop _ | .tenq _ _ | .mprog _ _ | .cpy _ _ _ | .plane _ _ _ | .dense _ _ _
  | .fill _ _ | .route _ _ | .psel _ _ | .rqinit _ _ _ | .rqget _ _ | .rqdone _ _ _ | .send _ _ _
  | .qcfg _ _ _ | .qctl _ _ _ | .qhnd _ _ _ | .qret | .qstat _ _ | .csrrd _ _ | .csrwr _ _ _ | .csrset _ _ _
  | .trap _ | .syscall | .eret | .brk | .halt | .feat _ _ | .tlbw _ _ | .tlbi _ _ _ | .flushi | .upret
  | .seqq _ _ => true
  | .i3cReadStatus | .i3cReadTemperatures | .i3cReadPackagePower | .i3cSetPowerLimit _ | .i3cReadIdentityKey
  | .i3cResetPackage | .i3cResetDie _ | .assign | .ctxnew | .ctxend | .qbind | .peer | .keyInstall
  | .keyClear | .signed | .mode | .share | .trace | .drain | .attest | .thread | .move | .postmap | .retrain
  | .resetDie | .resetPackage | .power | .debugHalt | .debugResume | .debugStep | .debugSetBreakpoint
  | .debugClearBreakpoint | .debugCopyState | .registerWrite _ _ _ _ _ | .ringidxWrite _ _ _
  | .queueEnable _ _ | .queueDisable _ _ | .queueReset _ _ | .scringConfig _ _ _ | .scheadWrite _ _
  | .syscallReply _ _ | .hostWindowAccess _ _ _ _ _ | .admitEntry _ _ | .stampRetry _ _ | .entryStart _ _ _
  | .imageLoad _ _ _ | .entryComplete _ _ _ | .boot | .supplyFault _ | .thermalThrottle _ _
  | .thermalShutdown _ _ | .powerLimitUnmet _ | .powerLimitMet _ | .clockStep _ _ | .dieResetComplete _
  | .packageResetComplete | .slackTick | .packetLate _ _ | .routerForward _ _ _ | .routerIdle _
  | .routerPowerdownDone _ | .tokenAtWriter _ _ | .tokenAtHome _ | .bridgeForward _ _ _
  | .directPathForward _ _ _ | .homeEnqueue _ _ | .homePerform _ | .replayTimeout _ | .replyDeliver _
  | .lateTrap _ _ | .iterativeUnitDone _ | .vectorDeferredResult _ _ | .fabricTransmit _
  | .codewordReceive _ _ _ _ | .flitReceive _ _ | .ackReceive _ _ | .nakReceive _ _
  | .trainingFlitReceive _ _ | .lockHoldExpiry _ _ | .markersAligned _ | .fecCodewordCount _
  | .trainingTimeout _ | .fecLockLoss _ | .nakRateExceeded _ | .fibreLockLoss _ _ | .slotTake _ _
  | .stealSearch _ | .stealRequest _ | .stealReply _ | .enqueueContinuation _ | .injectionAge _ _
  | .urgentArrival _ | .evictWrite _ _ | .npostWrite _ | .noticeDeliver _ | .translationRequest _
  | .translationReply _ | .tlbShootdown _ | .clbShootdown _ | .syncAccessAtOwner _ | .syncDeadline _ _
  | .withdrawal _ | .barArrival _ | .barDeadline _ _ | .parkAtHome _ | .parkDeadline _ _ | .lnextClaim _
  | .joinUpdate _ | .resumeCellOp _ | .messageArrival _ | .queueElementArrival _ | .linkElementTransfer _ _
  | .portReadTimeout _ _ | .forwardPacket _ | .forwardExpiry _ _ | .migrationArrival _ | .beadRequest _
  | .sparkClaim _ | .beadCompletion _ | .beadCompletionPoisoned _ | .beadEngineFault _ | .operandFailure _
  | .deathNotice _ | .waiterDeadline _ _ | .wakeDeliver _ | .wfcEdge _ | .wfcQuery _ | .wfcQueryReply _
  | .tileEvaluate _ | .operandReply _ | .stagingComplete _ _ | .tileDispatch _ | .taskComplete _ _
  | .taskEngineFault _ _ _ | .sparkTake _ | .coordAtAgent _ | .cinvReload _ | .engineTicketComplete _ _
  | .routePerform _ | .pselPerform _ | .rqOperation _ | .rqCommitDone _ _ | .rqgetTimeout _ _
  | .carryArrival _ | .carryDepositDone _ | .carryCountReply _ | .carryReturn _ | .coreParityError _
  | .illegalInstruction _ | .fetchFault _ _ => false

/-- Whether an instruction is a 16-bit form (R265); an undecodable encoding by its bit 0 (R263). -/
def isHalf : Instr → Bool
  | .addFh _ _ | .subFh _ _ | .mulFh _ _ | .andFh _ _ | .orFh _ _ | .xorFh _ _ | .sllFh _ _ | .srlFh _ _
  | .sraFh _ _ | .minFh _ _ | .maxFh _ _ | .movFh _ _ | .addiFh _ _ | .slliFh _ _ | .faddFh _ _ | .fmulFh _ _
  | .vaddFh _ _ | .vsubFh _ _ | .vmulFh _ _ | .vandFh _ _ | .vorFh _ _ | .vxorFh _ _ | .vsllFh _ _
  | .vsrlFh _ _ | .vsraFh _ _ | .vminFh _ _ | .vmaxFh _ _ | .vmovFh _ _ | .vfaddFh _ _ | .vfmulFh _ _ => true
  | .illegalInstruction enc => !enc.getLsbD 0
  | .add _ _ _ | .sub _ _ _ | .and _ _ _ | .or _ _ _ | .xor _ _ _ | .andn _ _ _ | .orn _ _ _ | .xnor _ _ _
  | .sll _ _ _ | .srl _ _ _ | .sra _ _ _ | .rol _ _ _ | .ror _ _ _ | .min _ _ _ | .max _ _ _ | .minn _ _ _
  | .maxn _ _ _ | .mul _ _ _ | .mulh _ _ _ | .mulhn _ _ _ | .mulhsn _ _ _ | .div _ _ _ | .divn _ _ _
  | .rem _ _ _ | .remn _ _ _ | .clz _ _ | .ctz _ _ | .popc _ _ | .sext _ _ _ | .zext _ _ _ | .addw _ _ _
  | .subw _ _ _ | .bfx _ _ _ | .bfxn _ _ _ | .bfi _ _ _ | .shadd1 _ _ _ | .shadd2 _ _ _ | .shadd3 _ _ _
  | .hash _ _ _ | .rmap _ _ _ | .clin _ _ _ | .cunl _ _ _ | .cmpeq _ _ _ | .cmpne _ _ _ | .cmplt _ _ _
  | .cmpge _ _ _ | .cmpltn _ _ _ | .cmpgen _ _ _ | .btst _ _ _ | .sel _ _ _ _ _ | .cmpeqi _ _ _
  | .cmpnei _ _ _ | .cmplti _ _ _ | .cmpgei _ _ _ | .cmpltni _ _ _ | .cmpgeni _ _ _ | .btsti _ _ _ | .bar _ _
  | .addpc _ _ | .addi _ _ _ | .andi _ _ _ | .ori _ _ _ | .xori _ _ _ | .slli _ _ _ | .srli _ _ _
  | .srai _ _ _ | .roli _ _ _ | .muli _ _ _ | .li _ _ | .lis _ _ | .beqz _ _ | .bnez _ _ | .bltz _ _
  | .bgez _ _ | .bgtz _ _ | .blez _ _ | .bk _ _ _ | .jal _ _ | .jalr _ _ _ | .ld _ _ _ _ _ | .ldn _ _ _ _ _
  | .st _ _ _ _ _ | .ldx _ _ _ _ _ | .ldxn _ _ _ _ _ | .stx _ _ _ _ _ | .lds _ _ _ _ _ _ | .sts _ _ _ _ _
  | .stsf _ _ _ _ _ | .amoadd _ _ _ | .amoand _ _ _ | .amoor _ _ _ | .amoxor _ _ _ | .amomin _ _ _
  | .amomax _ _ _ | .amominn _ _ _ | .amomaxn _ _ _ | .amoswp _ _ _ | .amocas _ _ _ | .amofadds _ _ _
  | .amofaddd _ _ _ | .feqry _ _ | .feset _ _ | .feclr _ _ | .fence _ _ | .wait _ _ _ _ | .tlwait _ _
  | .vadd _ _ _ _ _ _ | .vsub _ _ _ _ _ _ | .vmul _ _ _ _ _ _ | .vmulh _ _ _ _ _ _ | .vmulhn _ _ _ _ _ _
  | .vand _ _ _ _ _ _ | .vor _ _ _ _ _ _ | .vxor _ _ _ _ _ _ | .vsll _ _ _ _ _ _ | .vsrl _ _ _ _ _ _
  | .vsra _ _ _ _ _ _ | .vmin _ _ _ _ _ _ | .vmax _ _ _ _ _ _ | .vminn _ _ _ _ _ _ | .vmaxn _ _ _ _ _ _
  | .vsadd _ _ _ _ _ _ | .vssub _ _ _ _ _ _ | .vsaddn _ _ _ _ _ _ | .vssubn _ _ _ _ _ _ | .vabs _ _ _ _ _
  | .vneg _ _ _ _ _ | .vma _ _ _ _ _ _ | .vpopc _ _ _ _ _ | .vclz _ _ _ _ _ | .vfadd _ _ _ _ _ _
  | .vfsub _ _ _ _ _ _ | .vfmul _ _ _ _ _ _ | .vfma _ _ _ _ _ _ | .vfmin _ _ _ _ _ _ | .vfmax _ _ _ _ _ _
  | .vfdiv _ _ _ _ _ _ | .vfsqrt _ _ _ _ _ | .vfrcp _ _ _ _ _ | .vfrsq _ _ _ _ _ | .vfexp2 _ _ _ _ _
  | .vflog2 _ _ _ _ _ | .vfabs _ _ _ _ _ | .vfneg _ _ _ _ _ | .vcmpeq _ _ _ _ _ _ | .vcmpne _ _ _ _ _ _
  | .vcmplt _ _ _ _ _ _ | .vcmpge _ _ _ _ _ _ | .vcmpltn _ _ _ _ _ _ | .vcmpgen _ _ _ _ _ _
  | .vfcmpeq _ _ _ _ _ _ | .vfcmplt _ _ _ _ _ _ | .vfcmple _ _ _ _ _ _ | .vfcmpun _ _ _ _ _ _
  | .vsel _ _ _ _ _ | .vperm _ _ _ _ _ _ | .vslideup _ _ _ _ _ _ | .vslidedn _ _ _ _ _ _ | .vcompress _ _ _ _
  | .vexpand _ _ _ _ _ | .vmov _ _ _ _ _ | .vredadd _ _ _ _ _ | .vredmin _ _ _ _ _ | .vredmax _ _ _ _ _
  | .vredminn _ _ _ _ _ | .vredmaxn _ _ _ _ _ | .vredfadd _ _ _ _ _ | .vredfmin _ _ _ _ _
  | .vredfmax _ _ _ _ _ | .vscan _ _ _ _ _ | .vfscan _ _ _ _ _ | .vdot _ _ _ _ _ _ | .vcvtf2b _ _ _ _ _
  | .vcvtb2f _ _ _ _ _ | .vcvtf2h _ _ _ _ _ | .vcvth2f _ _ _ _ _ | .vcvtf2e4 _ _ _ _ _ | .vcvte42f _ _ _ _ _
  | .vcvtf2e5 _ _ _ _ _ | .vcvte52f _ _ _ _ _ | .vcvtf2w _ _ _ _ _ | .vcvtw2f _ _ _ _ _ | .vcvtw2i8 _ _ _ _ _
  | .vcvti82w _ _ _ _ _ | .vcvtw2i4 _ _ _ _ _ | .vcvti42w _ _ _ _ _ | .vcvtd2f _ _ _ _ _ | .vcvtf2d _ _ _ _ _
  | .vqnt _ _ _ _ _ | .vdqnt _ _ _ _ _ _ | .baddq _ _ _ _ | .vbsc _ _ _ _ _ _ | .vbexp _ _ _ _ _
  | .vld _ _ _ _ _ | .vst _ _ _ _ _ | .vlds _ _ _ _ _ _ | .vsts _ _ _ _ _ _ | .vgath _ _ _ _ _ _
  | .vscat _ _ _ _ _ _ | .vldf _ _ _ _ _ | .kand _ _ _ | .kor _ _ _ | .kxor _ _ _ | .kandn _ _ _ | .knot _ _
  | .kmov _ _ | .kpopc _ _ | .kfirst _ _ | .kfromg _ _ | .ktog _ _ | .faddF32 _ _ _ | .fsubF32 _ _ _
  | .fmulF32 _ _ _ | .fdivF32 _ _ _ | .fsqrtF32 _ _ | .fminF32 _ _ _ | .fmaxF32 _ _ _ | .fmaF32 _ _ _
  | .fabsF32 _ _ | .fnegF32 _ _ | .fclassF32 _ _ | .faddF64 _ _ _ | .fsubF64 _ _ _ | .fmulF64 _ _ _
  | .fdivF64 _ _ _ | .fsqrtF64 _ _ | .fminF64 _ _ _ | .fmaxF64 _ _ _ | .fmaF64 _ _ _ | .fabsF64 _ _
  | .fnegF64 _ _ | .fclassF64 _ _ | .fcmpeq _ _ _ _ | .fcmplt _ _ _ _ | .fcmple _ _ _ _ | .fcmpun _ _ _ _
  | .fcmpne _ _ _ _ | .cvtf2d _ _ | .cvtd2f _ _ | .cvtf2w _ _ | .cvtf2l _ _ | .cvtd2w _ _ | .cvtd2l _ _
  | .cvtw2f _ _ | .cvtl2f _ _ | .cvtw2d _ _ | .cvtl2d _ _ | .cvtf2b _ _ | .cvtb2f _ _ | .cvtf2h _ _
  | .cvth2f _ _ | .vbcast _ _ _ | .vextr _ _ _ | .vins _ _ _ | .viota _ _ _ | .cld _ _ _ | .cst _ _ _
  | .cadd _ _ _ | .cnext _ _ _ | .cdel _ _ _ | .calloc _ _ _ | .cfree _ _ _ | .cinv _ | .cqry _ _ _
  | .spawn _ _ | .sync | .retc | .yield | .park _ _ | .tnew _ _ | .texit | .susp _ | .resume _ _ _
  | .lsetup _ | .lnext _ _ | .migr _ _ _ | .mret _ _ | .suspend _ _ | .force _ _ | .spark _ | .hwait _ _
  | .hstat _ _ | .hbind _ _ | .hdrop _ | .tenq _ _ | .mprog _ _ | .cpy _ _ _ | .plane _ _ _ | .dense _ _ _
  | .fill _ _ | .route _ _ | .psel _ _ | .rqinit _ _ _ | .rqget _ _ | .rqdone _ _ _ | .send _ _ _
  | .qcfg _ _ _ | .qctl _ _ _ | .qhnd _ _ _ | .qret | .qstat _ _ | .csrrd _ _ | .csrwr _ _ _ | .csrset _ _ _
  | .trap _ | .syscall | .eret | .brk | .halt | .feat _ _ | .tlbw _ _ | .tlbi _ _ _ | .flushi | .upret
  | .seqq _ _ | .i3cReadStatus | .i3cReadTemperatures | .i3cReadPackagePower | .i3cSetPowerLimit _
  | .i3cReadIdentityKey | .i3cResetPackage | .i3cResetDie _ | .assign | .ctxnew | .ctxend | .qbind | .peer
  | .keyInstall | .keyClear | .signed | .mode | .share | .trace | .drain | .attest | .thread | .move
  | .postmap | .retrain | .resetDie | .resetPackage | .power | .debugHalt | .debugResume | .debugStep
  | .debugSetBreakpoint | .debugClearBreakpoint | .debugCopyState | .registerWrite _ _ _ _ _
  | .ringidxWrite _ _ _ | .queueEnable _ _ | .queueDisable _ _ | .queueReset _ _ | .scringConfig _ _ _
  | .scheadWrite _ _ | .syscallReply _ _ | .hostWindowAccess _ _ _ _ _ | .admitEntry _ _ | .stampRetry _ _
  | .entryStart _ _ _ | .imageLoad _ _ _ | .entryComplete _ _ _ | .boot | .supplyFault _
  | .thermalThrottle _ _ | .thermalShutdown _ _ | .powerLimitUnmet _ | .powerLimitMet _ | .clockStep _ _
  | .dieResetComplete _ | .packageResetComplete | .slackTick | .packetLate _ _ | .routerForward _ _ _
  | .routerIdle _ | .routerPowerdownDone _ | .tokenAtWriter _ _ | .tokenAtHome _ | .bridgeForward _ _ _
  | .directPathForward _ _ _ | .homeEnqueue _ _ | .homePerform _ | .replayTimeout _ | .replyDeliver _
  | .lateTrap _ _ | .iterativeUnitDone _ | .vectorDeferredResult _ _ | .fabricTransmit _
  | .codewordReceive _ _ _ _ | .flitReceive _ _ | .ackReceive _ _ | .nakReceive _ _
  | .trainingFlitReceive _ _ | .lockHoldExpiry _ _ | .markersAligned _ | .fecCodewordCount _
  | .trainingTimeout _ | .fecLockLoss _ | .nakRateExceeded _ | .fibreLockLoss _ _ | .slotTake _ _
  | .stealSearch _ | .stealRequest _ | .stealReply _ | .enqueueContinuation _ | .injectionAge _ _
  | .urgentArrival _ | .evictWrite _ _ | .npostWrite _ | .noticeDeliver _ | .translationRequest _
  | .translationReply _ | .tlbShootdown _ | .clbShootdown _ | .syncAccessAtOwner _ | .syncDeadline _ _
  | .withdrawal _ | .barArrival _ | .barDeadline _ _ | .parkAtHome _ | .parkDeadline _ _ | .lnextClaim _
  | .joinUpdate _ | .resumeCellOp _ | .messageArrival _ | .queueElementArrival _ | .linkElementTransfer _ _
  | .portReadTimeout _ _ | .forwardPacket _ | .forwardExpiry _ _ | .migrationArrival _ | .beadRequest _
  | .sparkClaim _ | .beadCompletion _ | .beadCompletionPoisoned _ | .beadEngineFault _ | .operandFailure _
  | .deathNotice _ | .waiterDeadline _ _ | .wakeDeliver _ | .wfcEdge _ | .wfcQuery _ | .wfcQueryReply _
  | .tileEvaluate _ | .operandReply _ | .stagingComplete _ _ | .tileDispatch _ | .taskComplete _ _
  | .taskEngineFault _ _ _ | .sparkTake _ | .coordAtAgent _ | .cinvReload _ | .engineTicketComplete _ _
  | .routePerform _ | .pselPerform _ | .rqOperation _ | .rqCommitDone _ _ | .rqgetTimeout _ _
  | .carryArrival _ | .carryDepositDone _ | .carryCountReply _ | .carryReturn _ | .coreParityError _
  | .fetchFault _ _ => false

/-! The word of each instruction, from the encoding tables (R265, R267, R269), written from its high bits down; a
16-bit form in the low half. -/

def Enc.add (d a b : BitVec 7) : BitVec 32 := 0#4 ++ b ++ a ++ d ++ 1#7
def Enc.sub (d a b : BitVec 7) : BitVec 32 := 1#4 ++ b ++ a ++ d ++ 1#7
def Enc.and (d a b : BitVec 7) : BitVec 32 := 2#4 ++ b ++ a ++ d ++ 1#7
def Enc.or (d a b : BitVec 7) : BitVec 32 := 3#4 ++ b ++ a ++ d ++ 1#7
def Enc.xor (d a b : BitVec 7) : BitVec 32 := 4#4 ++ b ++ a ++ d ++ 1#7
def Enc.andn (d a b : BitVec 7) : BitVec 32 := 5#4 ++ b ++ a ++ d ++ 1#7
def Enc.orn (d a b : BitVec 7) : BitVec 32 := 6#4 ++ b ++ a ++ d ++ 1#7
def Enc.xnor (d a b : BitVec 7) : BitVec 32 := 7#4 ++ b ++ a ++ d ++ 1#7
def Enc.sll (d a b : BitVec 7) : BitVec 32 := 8#4 ++ b ++ a ++ d ++ 1#7
def Enc.srl (d a b : BitVec 7) : BitVec 32 := 9#4 ++ b ++ a ++ d ++ 1#7
def Enc.sra (d a b : BitVec 7) : BitVec 32 := 10#4 ++ b ++ a ++ d ++ 1#7
def Enc.rol (d a b : BitVec 7) : BitVec 32 := 11#4 ++ b ++ a ++ d ++ 1#7
def Enc.ror (d a b : BitVec 7) : BitVec 32 := 12#4 ++ b ++ a ++ d ++ 1#7
def Enc.min (d a b : BitVec 7) : BitVec 32 := 13#4 ++ b ++ a ++ d ++ 1#7
def Enc.max (d a b : BitVec 7) : BitVec 32 := 14#4 ++ b ++ a ++ d ++ 1#7
def Enc.minn (d a b : BitVec 7) : BitVec 32 := 15#4 ++ b ++ a ++ d ++ 1#7
def Enc.maxn (d a b : BitVec 7) : BitVec 32 := 0#4 ++ b ++ a ++ d ++ 3#7
def Enc.mul (d a b : BitVec 7) : BitVec 32 := 1#4 ++ b ++ a ++ d ++ 3#7
def Enc.mulh (d a b : BitVec 7) : BitVec 32 := 2#4 ++ b ++ a ++ d ++ 3#7
def Enc.mulhn (d a b : BitVec 7) : BitVec 32 := 3#4 ++ b ++ a ++ d ++ 3#7
def Enc.mulhsn (d a b : BitVec 7) : BitVec 32 := 4#4 ++ b ++ a ++ d ++ 3#7
def Enc.div (d a b : BitVec 7) : BitVec 32 := 5#4 ++ b ++ a ++ d ++ 3#7
def Enc.divn (d a b : BitVec 7) : BitVec 32 := 6#4 ++ b ++ a ++ d ++ 3#7
def Enc.rem (d a b : BitVec 7) : BitVec 32 := 7#4 ++ b ++ a ++ d ++ 3#7
def Enc.remn (d a b : BitVec 7) : BitVec 32 := 8#4 ++ b ++ a ++ d ++ 3#7
def Enc.clz (d a : BitVec 7) : BitVec 32 := 1152#11 ++ a ++ d ++ 3#7
def Enc.ctz (d a : BitVec 7) : BitVec 32 := 1280#11 ++ a ++ d ++ 3#7
def Enc.popc (d a : BitVec 7) : BitVec 32 := 1408#11 ++ a ++ d ++ 3#7
def Enc.sext (d a b : BitVec 7) : BitVec 32 := 12#4 ++ b ++ a ++ d ++ 3#7
def Enc.zext (d a b : BitVec 7) : BitVec 32 := 13#4 ++ b ++ a ++ d ++ 3#7
def Enc.addw (d a b : BitVec 7) : BitVec 32 := 14#4 ++ b ++ a ++ d ++ 3#7
def Enc.subw (d a b : BitVec 7) : BitVec 32 := 15#4 ++ b ++ a ++ d ++ 3#7
def Enc.bfx (d a b : BitVec 7) : BitVec 32 := 0#4 ++ b ++ a ++ d ++ 5#7
def Enc.bfxn (d a b : BitVec 7) : BitVec 32 := 1#4 ++ b ++ a ++ d ++ 5#7
def Enc.bfi (d a b : BitVec 7) : BitVec 32 := 2#4 ++ b ++ a ++ d ++ 5#7
def Enc.shadd1 (d a b : BitVec 7) : BitVec 32 := 3#4 ++ b ++ a ++ d ++ 5#7
def Enc.shadd2 (d a b : BitVec 7) : BitVec 32 := 4#4 ++ b ++ a ++ d ++ 5#7
def Enc.shadd3 (d a b : BitVec 7) : BitVec 32 := 5#4 ++ b ++ a ++ d ++ 5#7
def Enc.hash (d a b : BitVec 7) : BitVec 32 := 6#4 ++ b ++ a ++ d ++ 5#7
def Enc.rmap (d a b : BitVec 7) : BitVec 32 := 7#4 ++ b ++ a ++ d ++ 5#7
def Enc.clin (d a b : BitVec 7) : BitVec 32 := 8#4 ++ b ++ a ++ d ++ 5#7
def Enc.cunl (d a b : BitVec 7) : BitVec 32 := 9#4 ++ b ++ a ++ d ++ 5#7
def Enc.cmpeq (k : BitVec 3) (a b : BitVec 7) : BitVec 32 := 0#4 ++ b ++ a ++ 0#4 ++ k ++ 7#7
def Enc.cmpne (k : BitVec 3) (a b : BitVec 7) : BitVec 32 := 1#4 ++ b ++ a ++ 0#4 ++ k ++ 7#7
def Enc.cmplt (k : BitVec 3) (a b : BitVec 7) : BitVec 32 := 2#4 ++ b ++ a ++ 0#4 ++ k ++ 7#7
def Enc.cmpge (k : BitVec 3) (a b : BitVec 7) : BitVec 32 := 3#4 ++ b ++ a ++ 0#4 ++ k ++ 7#7
def Enc.cmpltn (k : BitVec 3) (a b : BitVec 7) : BitVec 32 := 4#4 ++ b ++ a ++ 0#4 ++ k ++ 7#7
def Enc.cmpgen (k : BitVec 3) (a b : BitVec 7) : BitVec 32 := 5#4 ++ b ++ a ++ 0#4 ++ k ++ 7#7
def Enc.btst (k : BitVec 3) (a b : BitVec 7) : BitVec 32 := 6#4 ++ b ++ a ++ 0#4 ++ k ++ 7#7
def Enc.sel (d a b : BitVec 7) (k : BitVec 3) (n : BitVec 1) : BitVec 32 := n ++ k ++ b ++ a ++ d ++ 9#7
def Enc.cmpeqi (k : BitVec 3) (a : BitVec 7) (i : BitVec 11) : BitVec 32 := i ++ a ++ 0#4 ++ k ++ 11#7
def Enc.cmpnei (k : BitVec 3) (a : BitVec 7) (i : BitVec 11) : BitVec 32 := i ++ a ++ 1#4 ++ k ++ 11#7
def Enc.cmplti (k : BitVec 3) (a : BitVec 7) (i : BitVec 11) : BitVec 32 := i ++ a ++ 2#4 ++ k ++ 11#7
def Enc.cmpgei (k : BitVec 3) (a : BitVec 7) (i : BitVec 11) : BitVec 32 := i ++ a ++ 3#4 ++ k ++ 11#7
def Enc.cmpltni (k : BitVec 3) (a : BitVec 7) (i : BitVec 11) : BitVec 32 := i ++ a ++ 4#4 ++ k ++ 11#7
def Enc.cmpgeni (k : BitVec 3) (a : BitVec 7) (i : BitVec 11) : BitVec 32 := i ++ a ++ 5#4 ++ k ++ 11#7
def Enc.btsti (k : BitVec 3) (a : BitVec 7) (i : BitVec 6) : BitVec 32 := 0#5 ++ i ++ a ++ 6#4 ++ k ++ 11#7
def Enc.bar (a : BitVec 7) (i : BitVec 11) : BitVec 32 := i ++ a ++ 13#14
def Enc.addpc (d : BitVec 7) (i : BitVec 11) : BitVec 32 := i ++ 0#7 ++ d ++ 15#7
def Enc.addi (d a : BitVec 7) (i : BitVec 11) : BitVec 32 := i ++ a ++ d ++ 17#7
def Enc.andi (d a : BitVec 7) (i : BitVec 11) : BitVec 32 := i ++ a ++ d ++ 19#7
def Enc.ori (d a : BitVec 7) (i : BitVec 11) : BitVec 32 := i ++ a ++ d ++ 21#7
def Enc.xori (d a : BitVec 7) (i : BitVec 11) : BitVec 32 := i ++ a ++ d ++ 23#7
def Enc.slli (d a : BitVec 7) (s : BitVec 6) : BitVec 32 := 0#5 ++ s ++ a ++ d ++ 25#7
def Enc.srli (d a : BitVec 7) (s : BitVec 6) : BitVec 32 := 1#5 ++ s ++ a ++ d ++ 25#7
def Enc.srai (d a : BitVec 7) (s : BitVec 6) : BitVec 32 := 2#5 ++ s ++ a ++ d ++ 25#7
def Enc.roli (d a : BitVec 7) (s : BitVec 6) : BitVec 32 := 3#5 ++ s ++ a ++ d ++ 25#7
def Enc.muli (d a : BitVec 7) (i : BitVec 11) : BitVec 32 := i ++ a ++ d ++ 27#7
def Enc.li (d : BitVec 7) (i : BitVec 18) : BitVec 32 := i ++ d ++ 29#7
def Enc.lis (d : BitVec 7) (i : BitVec 18) : BitVec 32 := i ++ d ++ 31#7
def Enc.beqz (a : BitVec 7) (o : BitVec 15) : BitVec 32 := o ++ 0#3 ++ a ++ 33#7
def Enc.bnez (a : BitVec 7) (o : BitVec 15) : BitVec 32 := o ++ 1#3 ++ a ++ 33#7
def Enc.bltz (a : BitVec 7) (o : BitVec 15) : BitVec 32 := o ++ 2#3 ++ a ++ 33#7
def Enc.bgez (a : BitVec 7) (o : BitVec 15) : BitVec 32 := o ++ 3#3 ++ a ++ 33#7
def Enc.bgtz (a : BitVec 7) (o : BitVec 15) : BitVec 32 := o ++ 4#3 ++ a ++ 33#7
def Enc.blez (a : BitVec 7) (o : BitVec 15) : BitVec 32 := o ++ 5#3 ++ a ++ 33#7
def Enc.bk (k : BitVec 3) (n : BitVec 1) (o : BitVec 18) : BitVec 32 := o ++ 0#3 ++ n ++ k ++ 35#7
def Enc.jal (d : BitVec 7) (o : BitVec 18) : BitVec 32 := o ++ d ++ 37#7
def Enc.jalr (d a : BitVec 7) (i : BitVec 11) : BitVec 32 := i ++ a ++ d ++ 39#7
def Enc.ld (t a : BitVec 7) (z k : BitVec 2) (o : BitVec 7) : BitVec 32 := o ++ k ++ z ++ a ++ t ++ 41#7
def Enc.ldn (t a : BitVec 7) (z k : BitVec 2) (o : BitVec 7) : BitVec 32 := o ++ k ++ z ++ a ++ t ++ 43#7
def Enc.st (t a : BitVec 7) (z k : BitVec 2) (o : BitVec 7) : BitVec 32 := o ++ k ++ z ++ a ++ t ++ 45#7
def Enc.ldx (t a x : BitVec 7) (r z : BitVec 2) : BitVec 32 := z ++ r ++ x ++ a ++ t ++ 47#7
def Enc.ldxn (t a x : BitVec 7) (r z : BitVec 2) : BitVec 32 := z ++ r ++ x ++ a ++ t ++ 49#7
def Enc.stx (t a x : BitVec 7) (r z : BitVec 2) : BitVec 32 := z ++ r ++ x ++ a ++ t ++ 51#7
def Enc.lds (t a : BitVec 7) (z : BitVec 1) (k : BitVec 2) (m : BitVec 1) (o : BitVec 6) : BitVec 32 := o ++ m ++ k ++ 1#1 ++ z ++ a ++ t ++ 53#7
def Enc.sts (t a : BitVec 7) (z : BitVec 1) (k : BitVec 2) (o : BitVec 6) : BitVec 32 := o ++ 0#1 ++ k ++ 1#1 ++ z ++ a ++ t ++ 55#7
def Enc.stsf (t a : BitVec 7) (z : BitVec 1) (k : BitVec 2) (o : BitVec 6) : BitVec 32 := o ++ 1#1 ++ k ++ 1#1 ++ z ++ a ++ t ++ 55#7
def Enc.amoadd (d a b : BitVec 7) : BitVec 32 := 0#4 ++ b ++ a ++ d ++ 57#7
def Enc.amoand (d a b : BitVec 7) : BitVec 32 := 1#4 ++ b ++ a ++ d ++ 57#7
def Enc.amoor (d a b : BitVec 7) : BitVec 32 := 2#4 ++ b ++ a ++ d ++ 57#7
def Enc.amoxor (d a b : BitVec 7) : BitVec 32 := 3#4 ++ b ++ a ++ d ++ 57#7
def Enc.amomin (d a b : BitVec 7) : BitVec 32 := 4#4 ++ b ++ a ++ d ++ 57#7
def Enc.amomax (d a b : BitVec 7) : BitVec 32 := 5#4 ++ b ++ a ++ d ++ 57#7
def Enc.amominn (d a b : BitVec 7) : BitVec 32 := 6#4 ++ b ++ a ++ d ++ 57#7
def Enc.amomaxn (d a b : BitVec 7) : BitVec 32 := 7#4 ++ b ++ a ++ d ++ 57#7
def Enc.amoswp (d a b : BitVec 7) : BitVec 32 := 8#4 ++ b ++ a ++ d ++ 57#7
def Enc.amocas (d a b : BitVec 7) : BitVec 32 := 9#4 ++ b ++ a ++ d ++ 57#7
def Enc.amofadds (d a b : BitVec 7) : BitVec 32 := 10#4 ++ b ++ a ++ d ++ 57#7
def Enc.amofaddd (d a b : BitVec 7) : BitVec 32 := 11#4 ++ b ++ a ++ d ++ 57#7
def Enc.feqry (d a : BitVec 7) : BitVec 32 := 1536#11 ++ a ++ d ++ 57#7
def Enc.feset (d a : BitVec 7) : BitVec 32 := 1664#11 ++ a ++ d ++ 57#7
def Enc.feclr (d a : BitVec 7) : BitVec 32 := 1792#11 ++ a ++ d ++ 57#7
def Enc.fence (s : BitVec 3) (k : BitVec 4) : BitVec 32 := 0#18 ++ k ++ s ++ 59#7
def Enc.wait (l s : BitVec 6) (c : BitVec 7) (t : BitVec 6) : BitVec 32 := t ++ c ++ s ++ l ++ 61#7
def Enc.tlwait (a : BitVec 7) (l : BitVec 4) : BitVec 32 := 0#7 ++ l ++ a ++ 63#14
def Enc.vadd (d a b : BitVec 4) (k : BitVec 3) (z : BitVec 1) (l : BitVec 2) : BitVec 32 := 0#7 ++ l ++ z ++ k ++ b ++ a ++ d ++ 65#7
def Enc.vsub (d a b : BitVec 4) (k : BitVec 3) (z : BitVec 1) (l : BitVec 2) : BitVec 32 := 1#7 ++ l ++ z ++ k ++ b ++ a ++ d ++ 65#7
def Enc.vmul (d a b : BitVec 4) (k : BitVec 3) (z : BitVec 1) (l : BitVec 2) : BitVec 32 := 2#7 ++ l ++ z ++ k ++ b ++ a ++ d ++ 65#7
def Enc.vmulh (d a b : BitVec 4) (k : BitVec 3) (z : BitVec 1) (l : BitVec 2) : BitVec 32 := 3#7 ++ l ++ z ++ k ++ b ++ a ++ d ++ 65#7
def Enc.vmulhn (d a b : BitVec 4) (k : BitVec 3) (z : BitVec 1) (l : BitVec 2) : BitVec 32 := 4#7 ++ l ++ z ++ k ++ b ++ a ++ d ++ 65#7
def Enc.vand (d a b : BitVec 4) (k : BitVec 3) (z : BitVec 1) (l : BitVec 2) : BitVec 32 := 5#7 ++ l ++ z ++ k ++ b ++ a ++ d ++ 65#7
def Enc.vor (d a b : BitVec 4) (k : BitVec 3) (z : BitVec 1) (l : BitVec 2) : BitVec 32 := 6#7 ++ l ++ z ++ k ++ b ++ a ++ d ++ 65#7
def Enc.vxor (d a b : BitVec 4) (k : BitVec 3) (z : BitVec 1) (l : BitVec 2) : BitVec 32 := 7#7 ++ l ++ z ++ k ++ b ++ a ++ d ++ 65#7
def Enc.vsll (d a b : BitVec 4) (k : BitVec 3) (z : BitVec 1) (l : BitVec 2) : BitVec 32 := 8#7 ++ l ++ z ++ k ++ b ++ a ++ d ++ 65#7
def Enc.vsrl (d a b : BitVec 4) (k : BitVec 3) (z : BitVec 1) (l : BitVec 2) : BitVec 32 := 9#7 ++ l ++ z ++ k ++ b ++ a ++ d ++ 65#7
def Enc.vsra (d a b : BitVec 4) (k : BitVec 3) (z : BitVec 1) (l : BitVec 2) : BitVec 32 := 10#7 ++ l ++ z ++ k ++ b ++ a ++ d ++ 65#7
def Enc.vmin (d a b : BitVec 4) (k : BitVec 3) (z : BitVec 1) (l : BitVec 2) : BitVec 32 := 11#7 ++ l ++ z ++ k ++ b ++ a ++ d ++ 65#7
def Enc.vmax (d a b : BitVec 4) (k : BitVec 3) (z : BitVec 1) (l : BitVec 2) : BitVec 32 := 12#7 ++ l ++ z ++ k ++ b ++ a ++ d ++ 65#7
def Enc.vminn (d a b : BitVec 4) (k : BitVec 3) (z : BitVec 1) (l : BitVec 2) : BitVec 32 := 13#7 ++ l ++ z ++ k ++ b ++ a ++ d ++ 65#7
def Enc.vmaxn (d a b : BitVec 4) (k : BitVec 3) (z : BitVec 1) (l : BitVec 2) : BitVec 32 := 14#7 ++ l ++ z ++ k ++ b ++ a ++ d ++ 65#7
def Enc.vsadd (d a b : BitVec 4) (k : BitVec 3) (z : BitVec 1) (l : BitVec 2) : BitVec 32 := 15#7 ++ l ++ z ++ k ++ b ++ a ++ d ++ 65#7
def Enc.vssub (d a b : BitVec 4) (k : BitVec 3) (z : BitVec 1) (l : BitVec 2) : BitVec 32 := 16#7 ++ l ++ z ++ k ++ b ++ a ++ d ++ 65#7
def Enc.vsaddn (d a b : BitVec 4) (k : BitVec 3) (z : BitVec 1) (l : BitVec 2) : BitVec 32 := 17#7 ++ l ++ z ++ k ++ b ++ a ++ d ++ 65#7
def Enc.vssubn (d a b : BitVec 4) (k : BitVec 3) (z : BitVec 1) (l : BitVec 2) : BitVec 32 := 18#7 ++ l ++ z ++ k ++ b ++ a ++ d ++ 65#7
def Enc.vabs (d a : BitVec 4) (k : BitVec 3) (z : BitVec 1) (l : BitVec 2) : BitVec 32 := 19#7 ++ l ++ z ++ k ++ 0#4 ++ a ++ d ++ 65#7
def Enc.vneg (d a : BitVec 4) (k : BitVec 3) (z : BitVec 1) (l : BitVec 2) : BitVec 32 := 20#7 ++ l ++ z ++ k ++ 0#4 ++ a ++ d ++ 65#7
def Enc.vma (d a b : BitVec 4) (k : BitVec 3) (z : BitVec 1) (l : BitVec 2) : BitVec 32 := 21#7 ++ l ++ z ++ k ++ b ++ a ++ d ++ 65#7
def Enc.vpopc (d a : BitVec 4) (k : BitVec 3) (z : BitVec 1) (l : BitVec 2) : BitVec 32 := 22#7 ++ l ++ z ++ k ++ 0#4 ++ a ++ d ++ 65#7
def Enc.vclz (d a : BitVec 4) (k : BitVec 3) (z : BitVec 1) (l : BitVec 2) : BitVec 32 := 23#7 ++ l ++ z ++ k ++ 0#4 ++ a ++ d ++ 65#7
def Enc.vfadd (d a b : BitVec 4) (k : BitVec 3) (z : BitVec 1) (l : BitVec 2) : BitVec 32 := 0#7 ++ l ++ z ++ k ++ b ++ a ++ d ++ 67#7
def Enc.vfsub (d a b : BitVec 4) (k : BitVec 3) (z : BitVec 1) (l : BitVec 2) : BitVec 32 := 1#7 ++ l ++ z ++ k ++ b ++ a ++ d ++ 67#7
def Enc.vfmul (d a b : BitVec 4) (k : BitVec 3) (z : BitVec 1) (l : BitVec 2) : BitVec 32 := 2#7 ++ l ++ z ++ k ++ b ++ a ++ d ++ 67#7
def Enc.vfma (d a b : BitVec 4) (k : BitVec 3) (z : BitVec 1) (l : BitVec 2) : BitVec 32 := 3#7 ++ l ++ z ++ k ++ b ++ a ++ d ++ 67#7
def Enc.vfmin (d a b : BitVec 4) (k : BitVec 3) (z : BitVec 1) (l : BitVec 2) : BitVec 32 := 4#7 ++ l ++ z ++ k ++ b ++ a ++ d ++ 67#7
def Enc.vfmax (d a b : BitVec 4) (k : BitVec 3) (z : BitVec 1) (l : BitVec 2) : BitVec 32 := 5#7 ++ l ++ z ++ k ++ b ++ a ++ d ++ 67#7
def Enc.vfdiv (d a b : BitVec 4) (k : BitVec 3) (z : BitVec 1) (l : BitVec 2) : BitVec 32 := 6#7 ++ l ++ z ++ k ++ b ++ a ++ d ++ 67#7
def Enc.vfsqrt (d a : BitVec 4) (k : BitVec 3) (z : BitVec 1) (l : BitVec 2) : BitVec 32 := 7#7 ++ l ++ z ++ k ++ 0#4 ++ a ++ d ++ 67#7
def Enc.vfrcp (d a : BitVec 4) (k : BitVec 3) (z : BitVec 1) (l : BitVec 2) : BitVec 32 := 8#7 ++ l ++ z ++ k ++ 0#4 ++ a ++ d ++ 67#7
def Enc.vfrsq (d a : BitVec 4) (k : BitVec 3) (z : BitVec 1) (l : BitVec 2) : BitVec 32 := 9#7 ++ l ++ z ++ k ++ 0#4 ++ a ++ d ++ 67#7
def Enc.vfexp2 (d a : BitVec 4) (k : BitVec 3) (z : BitVec 1) (l : BitVec 2) : BitVec 32 := 10#7 ++ l ++ z ++ k ++ 0#4 ++ a ++ d ++ 67#7
def Enc.vflog2 (d a : BitVec 4) (k : BitVec 3) (z : BitVec 1) (l : BitVec 2) : BitVec 32 := 11#7 ++ l ++ z ++ k ++ 0#4 ++ a ++ d ++ 67#7
def Enc.vfabs (d a : BitVec 4) (k : BitVec 3) (z : BitVec 1) (l : BitVec 2) : BitVec 32 := 12#7 ++ l ++ z ++ k ++ 0#4 ++ a ++ d ++ 67#7
def Enc.vfneg (d a : BitVec 4) (k : BitVec 3) (z : BitVec 1) (l : BitVec 2) : BitVec 32 := 13#7 ++ l ++ z ++ k ++ 0#4 ++ a ++ d ++ 67#7
def Enc.vcmpeq (p : BitVec 3) (a b : BitVec 4) (k : BitVec 3) (z : BitVec 1) (l : BitVec 2) : BitVec 32 := 0#7 ++ l ++ z ++ k ++ b ++ a ++ 0#1 ++ p ++ 69#7
def Enc.vcmpne (p : BitVec 3) (a b : BitVec 4) (k : BitVec 3) (z : BitVec 1) (l : BitVec 2) : BitVec 32 := 1#7 ++ l ++ z ++ k ++ b ++ a ++ 0#1 ++ p ++ 69#7
def Enc.vcmplt (p : BitVec 3) (a b : BitVec 4) (k : BitVec 3) (z : BitVec 1) (l : BitVec 2) : BitVec 32 := 2#7 ++ l ++ z ++ k ++ b ++ a ++ 0#1 ++ p ++ 69#7
def Enc.vcmpge (p : BitVec 3) (a b : BitVec 4) (k : BitVec 3) (z : BitVec 1) (l : BitVec 2) : BitVec 32 := 3#7 ++ l ++ z ++ k ++ b ++ a ++ 0#1 ++ p ++ 69#7
def Enc.vcmpltn (p : BitVec 3) (a b : BitVec 4) (k : BitVec 3) (z : BitVec 1) (l : BitVec 2) : BitVec 32 := 4#7 ++ l ++ z ++ k ++ b ++ a ++ 0#1 ++ p ++ 69#7
def Enc.vcmpgen (p : BitVec 3) (a b : BitVec 4) (k : BitVec 3) (z : BitVec 1) (l : BitVec 2) : BitVec 32 := 5#7 ++ l ++ z ++ k ++ b ++ a ++ 0#1 ++ p ++ 69#7
def Enc.vfcmpeq (p : BitVec 3) (a b : BitVec 4) (k : BitVec 3) (z : BitVec 1) (l : BitVec 2) : BitVec 32 := 6#7 ++ l ++ z ++ k ++ b ++ a ++ 0#1 ++ p ++ 69#7
def Enc.vfcmplt (p : BitVec 3) (a b : BitVec 4) (k : BitVec 3) (z : BitVec 1) (l : BitVec 2) : BitVec 32 := 7#7 ++ l ++ z ++ k ++ b ++ a ++ 0#1 ++ p ++ 69#7
def Enc.vfcmple (p : BitVec 3) (a b : BitVec 4) (k : BitVec 3) (z : BitVec 1) (l : BitVec 2) : BitVec 32 := 8#7 ++ l ++ z ++ k ++ b ++ a ++ 0#1 ++ p ++ 69#7
def Enc.vfcmpun (p : BitVec 3) (a b : BitVec 4) (k : BitVec 3) (z : BitVec 1) (l : BitVec 2) : BitVec 32 := 9#7 ++ l ++ z ++ k ++ b ++ a ++ 0#1 ++ p ++ 69#7
def Enc.vsel (d a b : BitVec 4) (k : BitVec 3) (l : BitVec 2) : BitVec 32 := 0#7 ++ l ++ 0#1 ++ k ++ b ++ a ++ d ++ 71#7
def Enc.vperm (d a b : BitVec 4) (k : BitVec 3) (z : BitVec 1) (l : BitVec 2) : BitVec 32 := 1#7 ++ l ++ z ++ k ++ b ++ a ++ d ++ 71#7
def Enc.vslideup (d a b : BitVec 4) (k : BitVec 3) (z : BitVec 1) (l : BitVec 2) : BitVec 32 := 2#7 ++ l ++ z ++ k ++ b ++ a ++ d ++ 71#7
def Enc.vslidedn (d a b : BitVec 4) (k : BitVec 3) (z : BitVec 1) (l : BitVec 2) : BitVec 32 := 3#7 ++ l ++ z ++ k ++ b ++ a ++ d ++ 71#7
def Enc.vcompress (d a : BitVec 4) (k : BitVec 3) (l : BitVec 2) : BitVec 32 := 4#7 ++ l ++ 0#1 ++ k ++ 0#4 ++ a ++ d ++ 71#7
def Enc.vexpand (d a : BitVec 4) (k : BitVec 3) (z : BitVec 1) (l : BitVec 2) : BitVec 32 := 5#7 ++ l ++ z ++ k ++ 0#4 ++ a ++ d ++ 71#7
def Enc.vmov (d a : BitVec 4) (k : BitVec 3) (z : BitVec 1) (l : BitVec 2) : BitVec 32 := 6#7 ++ l ++ z ++ k ++ 0#4 ++ a ++ d ++ 71#7
def Enc.vredadd (d a : BitVec 4) (k : BitVec 3) (z : BitVec 1) (l : BitVec 2) : BitVec 32 := 0#7 ++ l ++ z ++ k ++ 0#4 ++ a ++ d ++ 73#7
def Enc.vredmin (d a : BitVec 4) (k : BitVec 3) (z : BitVec 1) (l : BitVec 2) : BitVec 32 := 1#7 ++ l ++ z ++ k ++ 0#4 ++ a ++ d ++ 73#7
def Enc.vredmax (d a : BitVec 4) (k : BitVec 3) (z : BitVec 1) (l : BitVec 2) : BitVec 32 := 2#7 ++ l ++ z ++ k ++ 0#4 ++ a ++ d ++ 73#7
def Enc.vredminn (d a : BitVec 4) (k : BitVec 3) (z : BitVec 1) (l : BitVec 2) : BitVec 32 := 3#7 ++ l ++ z ++ k ++ 0#4 ++ a ++ d ++ 73#7
def Enc.vredmaxn (d a : BitVec 4) (k : BitVec 3) (z : BitVec 1) (l : BitVec 2) : BitVec 32 := 4#7 ++ l ++ z ++ k ++ 0#4 ++ a ++ d ++ 73#7
def Enc.vredfadd (d a : BitVec 4) (k : BitVec 3) (z : BitVec 1) (l : BitVec 2) : BitVec 32 := 5#7 ++ l ++ z ++ k ++ 0#4 ++ a ++ d ++ 73#7
def Enc.vredfmin (d a : BitVec 4) (k : BitVec 3) (z : BitVec 1) (l : BitVec 2) : BitVec 32 := 6#7 ++ l ++ z ++ k ++ 0#4 ++ a ++ d ++ 73#7
def Enc.vredfmax (d a : BitVec 4) (k : BitVec 3) (z : BitVec 1) (l : BitVec 2) : BitVec 32 := 7#7 ++ l ++ z ++ k ++ 0#4 ++ a ++ d ++ 73#7
def Enc.vscan (d a : BitVec 4) (k : BitVec 3) (z : BitVec 1) (l : BitVec 2) : BitVec 32 := 8#7 ++ l ++ z ++ k ++ 0#4 ++ a ++ d ++ 73#7
def Enc.vfscan (d a : BitVec 4) (k : BitVec 3) (z : BitVec 1) (l : BitVec 2) : BitVec 32 := 9#7 ++ l ++ z ++ k ++ 0#4 ++ a ++ d ++ 73#7
def Enc.vdot (d a b : BitVec 4) (k : BitVec 3) (z l : BitVec 1) : BitVec 32 := 20#8 ++ l ++ z ++ k ++ b ++ a ++ d ++ 73#7
def Enc.vcvtf2b (d a s : BitVec 4) (k : BitVec 3) (z : BitVec 1) : BitVec 32 := 0#9 ++ z ++ k ++ s ++ a ++ d ++ 75#7
def Enc.vcvtb2f (d a s : BitVec 4) (k : BitVec 3) (z : BitVec 1) : BitVec 32 := 4#9 ++ z ++ k ++ s ++ a ++ d ++ 75#7
def Enc.vcvtf2h (d a s : BitVec 4) (k : BitVec 3) (z : BitVec 1) : BitVec 32 := 8#9 ++ z ++ k ++ s ++ a ++ d ++ 75#7
def Enc.vcvth2f (d a s : BitVec 4) (k : BitVec 3) (z : BitVec 1) : BitVec 32 := 12#9 ++ z ++ k ++ s ++ a ++ d ++ 75#7
def Enc.vcvtf2e4 (d a s : BitVec 4) (k : BitVec 3) (z : BitVec 1) : BitVec 32 := 16#9 ++ z ++ k ++ s ++ a ++ d ++ 75#7
def Enc.vcvte42f (d a s : BitVec 4) (k : BitVec 3) (z : BitVec 1) : BitVec 32 := 20#9 ++ z ++ k ++ s ++ a ++ d ++ 75#7
def Enc.vcvtf2e5 (d a s : BitVec 4) (k : BitVec 3) (z : BitVec 1) : BitVec 32 := 24#9 ++ z ++ k ++ s ++ a ++ d ++ 75#7
def Enc.vcvte52f (d a s : BitVec 4) (k : BitVec 3) (z : BitVec 1) : BitVec 32 := 28#9 ++ z ++ k ++ s ++ a ++ d ++ 75#7
def Enc.vcvtf2w (d a s : BitVec 4) (k : BitVec 3) (z : BitVec 1) : BitVec 32 := 32#9 ++ z ++ k ++ s ++ a ++ d ++ 75#7
def Enc.vcvtw2f (d a s : BitVec 4) (k : BitVec 3) (z : BitVec 1) : BitVec 32 := 36#9 ++ z ++ k ++ s ++ a ++ d ++ 75#7
def Enc.vcvtw2i8 (d a s : BitVec 4) (k : BitVec 3) (z : BitVec 1) : BitVec 32 := 40#9 ++ z ++ k ++ s ++ a ++ d ++ 75#7
def Enc.vcvti82w (d a s : BitVec 4) (k : BitVec 3) (z : BitVec 1) : BitVec 32 := 44#9 ++ z ++ k ++ s ++ a ++ d ++ 75#7
def Enc.vcvtw2i4 (d a s : BitVec 4) (k : BitVec 3) (z : BitVec 1) : BitVec 32 := 48#9 ++ z ++ k ++ s ++ a ++ d ++ 75#7
def Enc.vcvti42w (d a s : BitVec 4) (k : BitVec 3) (z : BitVec 1) : BitVec 32 := 52#9 ++ z ++ k ++ s ++ a ++ d ++ 75#7
def Enc.vcvtd2f (d a s : BitVec 4) (k : BitVec 3) (z : BitVec 1) : BitVec 32 := 56#9 ++ z ++ k ++ s ++ a ++ d ++ 75#7
def Enc.vcvtf2d (d a s : BitVec 4) (k : BitVec 3) (z : BitVec 1) : BitVec 32 := 60#9 ++ z ++ k ++ s ++ a ++ d ++ 75#7
def Enc.vqnt (d a q : BitVec 4) (k : BitVec 3) (l : BitVec 2) : BitVec 32 := 16#7 ++ l ++ 0#1 ++ k ++ q ++ a ++ d ++ 75#7
def Enc.vdqnt (d a q : BitVec 4) (k : BitVec 3) (z : BitVec 1) (l : BitVec 2) : BitVec 32 := 17#7 ++ l ++ z ++ k ++ q ++ a ++ d ++ 75#7
def Enc.baddq (d a b : BitVec 4) (l : BitVec 1) : BitVec 32 := 36#8 ++ l ++ 0#4 ++ b ++ a ++ d ++ 75#7
def Enc.vbsc (d a b : BitVec 4) (k : BitVec 3) (z : BitVec 1) (l : BitVec 2) : BitVec 32 := 19#7 ++ l ++ z ++ k ++ b ++ a ++ d ++ 75#7
def Enc.vbexp (d a b : BitVec 4) (k : BitVec 3) (l : BitVec 2) : BitVec 32 := 20#7 ++ l ++ 0#1 ++ k ++ b ++ a ++ d ++ 75#7
def Enc.vld (v : BitVec 4) (a : BitVec 7) (k : BitVec 3) (l s : BitVec 2) : BitVec 32 := s ++ 0#3 ++ l ++ k ++ 0#4 ++ a ++ v ++ 77#7
def Enc.vst (v : BitVec 4) (a : BitVec 7) (k : BitVec 3) (l s : BitVec 2) : BitVec 32 := s ++ 1#3 ++ l ++ k ++ 0#4 ++ a ++ v ++ 77#7
def Enc.vlds (v : BitVec 4) (a : BitVec 7) (b : BitVec 4) (k : BitVec 3) (l s : BitVec 2) : BitVec 32 := s ++ 2#3 ++ l ++ k ++ b ++ a ++ v ++ 77#7
def Enc.vsts (v : BitVec 4) (a : BitVec 7) (b : BitVec 4) (k : BitVec 3) (l s : BitVec 2) : BitVec 32 := s ++ 3#3 ++ l ++ k ++ b ++ a ++ v ++ 77#7
def Enc.vgath (v : BitVec 4) (a : BitVec 7) (b : BitVec 4) (k : BitVec 3) (l s : BitVec 2) : BitVec 32 := s ++ 4#3 ++ l ++ k ++ b ++ a ++ v ++ 77#7
def Enc.vscat (v : BitVec 4) (a : BitVec 7) (b : BitVec 4) (k : BitVec 3) (l s : BitVec 2) : BitVec 32 := s ++ 5#3 ++ l ++ k ++ b ++ a ++ v ++ 77#7
def Enc.vldf (v : BitVec 4) (a : BitVec 7) (k : BitVec 3) (l s : BitVec 2) : BitVec 32 := s ++ 6#3 ++ l ++ k ++ 0#4 ++ a ++ v ++ 77#7
def Enc.kand (d a b : BitVec 3) : BitVec 32 := 0#8 ++ b ++ 0#4 ++ a ++ 0#4 ++ d ++ 79#7
def Enc.kor (d a b : BitVec 3) : BitVec 32 := 16#8 ++ b ++ 0#4 ++ a ++ 0#4 ++ d ++ 79#7
def Enc.kxor (d a b : BitVec 3) : BitVec 32 := 32#8 ++ b ++ 0#4 ++ a ++ 0#4 ++ d ++ 79#7
def Enc.kandn (d a b : BitVec 3) : BitVec 32 := 48#8 ++ b ++ 0#4 ++ a ++ 0#4 ++ d ++ 79#7
def Enc.knot (d a : BitVec 3) : BitVec 32 := 8192#15 ++ a ++ 0#4 ++ d ++ 79#7
def Enc.kmov (d a : BitVec 3) : BitVec 32 := 10240#15 ++ a ++ 0#4 ++ d ++ 79#7
def Enc.kpopc (d : BitVec 7) (a : BitVec 3) : BitVec 32 := 12288#15 ++ a ++ d ++ 79#7
def Enc.kfirst (d : BitVec 7) (a : BitVec 3) : BitVec 32 := 14336#15 ++ a ++ d ++ 79#7
def Enc.kfromg (d : BitVec 3) (a : BitVec 7) : BitVec 32 := 1024#11 ++ a ++ 0#4 ++ d ++ 79#7
def Enc.ktog (d : BitVec 7) (a : BitVec 3) : BitVec 32 := 18432#15 ++ a ++ d ++ 79#7
def Enc.faddF32 (d a b : BitVec 7) : BitVec 32 := 0#4 ++ b ++ a ++ d ++ 81#7
def Enc.fsubF32 (d a b : BitVec 7) : BitVec 32 := 1#4 ++ b ++ a ++ d ++ 81#7
def Enc.fmulF32 (d a b : BitVec 7) : BitVec 32 := 2#4 ++ b ++ a ++ d ++ 81#7
def Enc.fdivF32 (d a b : BitVec 7) : BitVec 32 := 3#4 ++ b ++ a ++ d ++ 81#7
def Enc.fsqrtF32 (d a : BitVec 7) : BitVec 32 := 512#11 ++ a ++ d ++ 81#7
def Enc.fminF32 (d a b : BitVec 7) : BitVec 32 := 5#4 ++ b ++ a ++ d ++ 81#7
def Enc.fmaxF32 (d a b : BitVec 7) : BitVec 32 := 6#4 ++ b ++ a ++ d ++ 81#7
def Enc.fmaF32 (d a b : BitVec 7) : BitVec 32 := 7#4 ++ b ++ a ++ d ++ 81#7
def Enc.fabsF32 (d a : BitVec 7) : BitVec 32 := 1024#11 ++ a ++ d ++ 81#7
def Enc.fnegF32 (d a : BitVec 7) : BitVec 32 := 1152#11 ++ a ++ d ++ 81#7
def Enc.fclassF32 (d a : BitVec 7) : BitVec 32 := 1280#11 ++ a ++ d ++ 81#7
def Enc.faddF64 (d a b : BitVec 7) : BitVec 32 := 0#4 ++ b ++ a ++ d ++ 83#7
def Enc.fsubF64 (d a b : BitVec 7) : BitVec 32 := 1#4 ++ b ++ a ++ d ++ 83#7
def Enc.fmulF64 (d a b : BitVec 7) : BitVec 32 := 2#4 ++ b ++ a ++ d ++ 83#7
def Enc.fdivF64 (d a b : BitVec 7) : BitVec 32 := 3#4 ++ b ++ a ++ d ++ 83#7
def Enc.fsqrtF64 (d a : BitVec 7) : BitVec 32 := 512#11 ++ a ++ d ++ 83#7
def Enc.fminF64 (d a b : BitVec 7) : BitVec 32 := 5#4 ++ b ++ a ++ d ++ 83#7
def Enc.fmaxF64 (d a b : BitVec 7) : BitVec 32 := 6#4 ++ b ++ a ++ d ++ 83#7
def Enc.fmaF64 (d a b : BitVec 7) : BitVec 32 := 7#4 ++ b ++ a ++ d ++ 83#7
def Enc.fabsF64 (d a : BitVec 7) : BitVec 32 := 1024#11 ++ a ++ d ++ 83#7
def Enc.fnegF64 (d a : BitVec 7) : BitVec 32 := 1152#11 ++ a ++ d ++ 83#7
def Enc.fclassF64 (d a : BitVec 7) : BitVec 32 := 1280#11 ++ a ++ d ++ 83#7
def Enc.fcmpeq (k : BitVec 3) (a b : BitVec 7) (p : BitVec 1) : BitVec 32 := p ++ 0#3 ++ b ++ a ++ 0#4 ++ k ++ 85#7
def Enc.fcmplt (k : BitVec 3) (a b : BitVec 7) (p : BitVec 1) : BitVec 32 := p ++ 1#3 ++ b ++ a ++ 0#4 ++ k ++ 85#7
def Enc.fcmple (k : BitVec 3) (a b : BitVec 7) (p : BitVec 1) : BitVec 32 := p ++ 2#3 ++ b ++ a ++ 0#4 ++ k ++ 85#7
def Enc.fcmpun (k : BitVec 3) (a b : BitVec 7) (p : BitVec 1) : BitVec 32 := p ++ 3#3 ++ b ++ a ++ 0#4 ++ k ++ 85#7
def Enc.fcmpne (k : BitVec 3) (a b : BitVec 7) (p : BitVec 1) : BitVec 32 := p ++ 4#3 ++ b ++ a ++ 0#4 ++ k ++ 85#7
def Enc.cvtf2d (d a : BitVec 7) : BitVec 32 := 0#11 ++ a ++ d ++ 87#7
def Enc.cvtd2f (d a : BitVec 7) : BitVec 32 := 128#11 ++ a ++ d ++ 87#7
def Enc.cvtf2w (d a : BitVec 7) : BitVec 32 := 256#11 ++ a ++ d ++ 87#7
def Enc.cvtf2l (d a : BitVec 7) : BitVec 32 := 384#11 ++ a ++ d ++ 87#7
def Enc.cvtd2w (d a : BitVec 7) : BitVec 32 := 512#11 ++ a ++ d ++ 87#7
def Enc.cvtd2l (d a : BitVec 7) : BitVec 32 := 640#11 ++ a ++ d ++ 87#7
def Enc.cvtw2f (d a : BitVec 7) : BitVec 32 := 768#11 ++ a ++ d ++ 87#7
def Enc.cvtl2f (d a : BitVec 7) : BitVec 32 := 896#11 ++ a ++ d ++ 87#7
def Enc.cvtw2d (d a : BitVec 7) : BitVec 32 := 1024#11 ++ a ++ d ++ 87#7
def Enc.cvtl2d (d a : BitVec 7) : BitVec 32 := 1152#11 ++ a ++ d ++ 87#7
def Enc.cvtf2b (d a : BitVec 7) : BitVec 32 := 1280#11 ++ a ++ d ++ 87#7
def Enc.cvtb2f (d a : BitVec 7) : BitVec 32 := 1408#11 ++ a ++ d ++ 87#7
def Enc.cvtf2h (d a : BitVec 7) : BitVec 32 := 1536#11 ++ a ++ d ++ 87#7
def Enc.cvth2f (d a : BitVec 7) : BitVec 32 := 1664#11 ++ a ++ d ++ 87#7
def Enc.vbcast (v : BitVec 4) (a b : BitVec 7) : BitVec 32 := 0#4 ++ b ++ a ++ v ++ 89#10
def Enc.vextr (d : BitVec 7) (v : BitVec 4) (b : BitVec 7) : BitVec 32 := 1#4 ++ b ++ v ++ 0#3 ++ d ++ 89#7
def Enc.vins (v : BitVec 4) (a b : BitVec 7) : BitVec 32 := 2#4 ++ b ++ a ++ v ++ 89#10
def Enc.viota (v : BitVec 4) (a b : BitVec 7) : BitVec 32 := 3#4 ++ b ++ a ++ v ++ 89#10
def Enc.cld (d a b : BitVec 7) : BitVec 32 := 0#4 ++ b ++ a ++ d ++ 97#7
def Enc.cst (d a b : BitVec 7) : BitVec 32 := 1#4 ++ b ++ a ++ d ++ 97#7
def Enc.cadd (d a b : BitVec 7) : BitVec 32 := 2#4 ++ b ++ a ++ d ++ 97#7
def Enc.cnext (d a b : BitVec 7) : BitVec 32 := 3#4 ++ b ++ a ++ d ++ 97#7
def Enc.cdel (d a b : BitVec 7) : BitVec 32 := 4#4 ++ b ++ a ++ d ++ 97#7
def Enc.calloc (d a b : BitVec 7) : BitVec 32 := 5#4 ++ b ++ a ++ d ++ 97#7
def Enc.cfree (d a b : BitVec 7) : BitVec 32 := 6#4 ++ b ++ a ++ d ++ 97#7
def Enc.cinv (a : BitVec 7) : BitVec 32 := 896#11 ++ a ++ 97#14
def Enc.cqry (d a b : BitVec 7) : BitVec 32 := 8#4 ++ b ++ a ++ d ++ 97#7
def Enc.spawn (a b : BitVec 7) : BitVec 32 := 0#4 ++ b ++ a ++ 105#14
def Enc.sync : BitVec 32 := 268435561#32
def Enc.retc : BitVec 32 := 536871017#32
def Enc.yield : BitVec 32 := 805306473#32
def Enc.park (a b : BitVec 7) : BitVec 32 := 4#4 ++ b ++ a ++ 105#14
def Enc.tnew (a b : BitVec 7) : BitVec 32 := 5#4 ++ b ++ a ++ 105#14
def Enc.texit : BitVec 32 := 1610612841#32
def Enc.susp (a : BitVec 7) : BitVec 32 := 896#11 ++ a ++ 105#14
def Enc.resume (d a b : BitVec 7) : BitVec 32 := 8#4 ++ b ++ a ++ d ++ 105#7
def Enc.lsetup (a : BitVec 7) : BitVec 32 := 1152#11 ++ a ++ 105#14
def Enc.lnext (d a : BitVec 7) : BitVec 32 := 1280#11 ++ a ++ d ++ 105#7
def Enc.migr (d a b : BitVec 7) : BitVec 32 := 11#4 ++ b ++ a ++ d ++ 105#7
def Enc.mret (a b : BitVec 7) : BitVec 32 := 12#4 ++ b ++ a ++ 105#14
def Enc.suspend (d a : BitVec 7) : BitVec 32 := 0#11 ++ a ++ d ++ 107#7
def Enc.force (d a : BitVec 7) : BitVec 32 := 128#11 ++ a ++ d ++ 107#7
def Enc.spark (a : BitVec 7) : BitVec 32 := 256#11 ++ a ++ 107#14
def Enc.hwait (d a : BitVec 7) : BitVec 32 := 384#11 ++ a ++ d ++ 107#7
def Enc.hstat (d a : BitVec 7) : BitVec 32 := 512#11 ++ a ++ d ++ 107#7
def Enc.hbind (a b : BitVec 7) : BitVec 32 := 5#4 ++ b ++ a ++ 107#14
def Enc.hdrop (a : BitVec 7) : BitVec 32 := 768#11 ++ a ++ 107#14
def Enc.tenq (d a : BitVec 7) : BitVec 32 := 896#11 ++ a ++ d ++ 107#7
def Enc.mprog (a b : BitVec 7) : BitVec 32 := 8#4 ++ b ++ a ++ 107#14
def Enc.cpy (d a b : BitVec 7) : BitVec 32 := 0#4 ++ b ++ a ++ d ++ 113#7
def Enc.plane (d a b : BitVec 7) : BitVec 32 := 1#4 ++ b ++ a ++ d ++ 113#7
def Enc.dense (d a b : BitVec 7) : BitVec 32 := 2#4 ++ b ++ a ++ d ++ 113#7
def Enc.fill (d a : BitVec 7) : BitVec 32 := 384#11 ++ a ++ d ++ 113#7
def Enc.route (d a : BitVec 7) : BitVec 32 := 512#11 ++ a ++ d ++ 113#7
def Enc.psel (d a : BitVec 7) : BitVec 32 := 640#11 ++ a ++ d ++ 113#7
def Enc.rqinit (d a b : BitVec 7) : BitVec 32 := 6#4 ++ b ++ a ++ d ++ 113#7
def Enc.rqget (d a : BitVec 7) : BitVec 32 := 896#11 ++ a ++ d ++ 113#7
def Enc.rqdone (d a b : BitVec 7) : BitVec 32 := 8#4 ++ b ++ a ++ d ++ 113#7
def Enc.send (d a b : BitVec 7) : BitVec 32 := 0#4 ++ b ++ a ++ d ++ 115#7
def Enc.qcfg (d a b : BitVec 7) : BitVec 32 := 1#4 ++ b ++ a ++ d ++ 115#7
def Enc.qctl (d a b : BitVec 7) : BitVec 32 := 2#4 ++ b ++ a ++ d ++ 115#7
def Enc.qhnd (d a b : BitVec 7) : BitVec 32 := 3#4 ++ b ++ a ++ d ++ 115#7
def Enc.qret : BitVec 32 := 1073741939#32
def Enc.qstat (d a : BitVec 7) : BitVec 32 := 640#11 ++ a ++ d ++ 115#7
def Enc.csrrd (d : BitVec 7) (c : BitVec 11) : BitVec 32 := c ++ 0#7 ++ d ++ 117#7
def Enc.csrwr (d a : BitVec 7) (c : BitVec 11) : BitVec 32 := c ++ a ++ d ++ 119#7
def Enc.csrset (d a : BitVec 7) (c : BitVec 11) : BitVec 32 := c ++ a ++ d ++ 121#7
def Enc.trap (a : BitVec 7) : BitVec 32 := 0#11 ++ a ++ 123#14
def Enc.syscall : BitVec 32 := 268435579#32
def Enc.eret : BitVec 32 := 536871035#32
def Enc.brk : BitVec 32 := 805306491#32
def Enc.halt : BitVec 32 := 1073741947#32
def Enc.feat (d a : BitVec 7) : BitVec 32 := 640#11 ++ a ++ d ++ 123#7
def Enc.tlbw (a b : BitVec 7) : BitVec 32 := 6#4 ++ b ++ a ++ 123#14
def Enc.tlbi (d a b : BitVec 7) : BitVec 32 := 7#4 ++ b ++ a ++ d ++ 123#7
def Enc.flushi : BitVec 32 := 2147483771#32
def Enc.upret : BitVec 32 := 2415919227#32
def Enc.seqq (d a : BitVec 7) : BitVec 32 := 1280#11 ++ a ++ d ++ 123#7
def Enc.addFh (d a : BitVec 5) : BitVec 32 := ((a ++ d ++ 0#6 : BitVec 16)).setWidth 32
def Enc.subFh (d a : BitVec 5) : BitVec 32 := ((a ++ d ++ 2#6 : BitVec 16)).setWidth 32
def Enc.mulFh (d a : BitVec 5) : BitVec 32 := ((a ++ d ++ 4#6 : BitVec 16)).setWidth 32
def Enc.andFh (d a : BitVec 5) : BitVec 32 := ((a ++ d ++ 6#6 : BitVec 16)).setWidth 32
def Enc.orFh (d a : BitVec 5) : BitVec 32 := ((a ++ d ++ 8#6 : BitVec 16)).setWidth 32
def Enc.xorFh (d a : BitVec 5) : BitVec 32 := ((a ++ d ++ 10#6 : BitVec 16)).setWidth 32
def Enc.sllFh (d a : BitVec 5) : BitVec 32 := ((a ++ d ++ 12#6 : BitVec 16)).setWidth 32
def Enc.srlFh (d a : BitVec 5) : BitVec 32 := ((a ++ d ++ 14#6 : BitVec 16)).setWidth 32
def Enc.sraFh (d a : BitVec 5) : BitVec 32 := ((a ++ d ++ 16#6 : BitVec 16)).setWidth 32
def Enc.minFh (d a : BitVec 5) : BitVec 32 := ((a ++ d ++ 18#6 : BitVec 16)).setWidth 32
def Enc.maxFh (d a : BitVec 5) : BitVec 32 := ((a ++ d ++ 20#6 : BitVec 16)).setWidth 32
def Enc.movFh (d a : BitVec 5) : BitVec 32 := ((a ++ d ++ 22#6 : BitVec 16)).setWidth 32
def Enc.addiFh (d i : BitVec 5) : BitVec 32 := ((i ++ d ++ 24#6 : BitVec 16)).setWidth 32
def Enc.slliFh (d s : BitVec 5) : BitVec 32 := ((s ++ d ++ 26#6 : BitVec 16)).setWidth 32
def Enc.faddFh (d a : BitVec 5) : BitVec 32 := ((a ++ d ++ 28#6 : BitVec 16)).setWidth 32
def Enc.fmulFh (d a : BitVec 5) : BitVec 32 := ((a ++ d ++ 30#6 : BitVec 16)).setWidth 32
def Enc.vaddFh (d a : BitVec 5) : BitVec 32 := ((a ++ d ++ 32#6 : BitVec 16)).setWidth 32
def Enc.vsubFh (d a : BitVec 5) : BitVec 32 := ((a ++ d ++ 34#6 : BitVec 16)).setWidth 32
def Enc.vmulFh (d a : BitVec 5) : BitVec 32 := ((a ++ d ++ 36#6 : BitVec 16)).setWidth 32
def Enc.vandFh (d a : BitVec 5) : BitVec 32 := ((a ++ d ++ 38#6 : BitVec 16)).setWidth 32
def Enc.vorFh (d a : BitVec 5) : BitVec 32 := ((a ++ d ++ 40#6 : BitVec 16)).setWidth 32
def Enc.vxorFh (d a : BitVec 5) : BitVec 32 := ((a ++ d ++ 42#6 : BitVec 16)).setWidth 32
def Enc.vsllFh (d a : BitVec 5) : BitVec 32 := ((a ++ d ++ 44#6 : BitVec 16)).setWidth 32
def Enc.vsrlFh (d a : BitVec 5) : BitVec 32 := ((a ++ d ++ 46#6 : BitVec 16)).setWidth 32
def Enc.vsraFh (d a : BitVec 5) : BitVec 32 := ((a ++ d ++ 48#6 : BitVec 16)).setWidth 32
def Enc.vminFh (d a : BitVec 5) : BitVec 32 := ((a ++ d ++ 50#6 : BitVec 16)).setWidth 32
def Enc.vmaxFh (d a : BitVec 5) : BitVec 32 := ((a ++ d ++ 52#6 : BitVec 16)).setWidth 32
def Enc.vmovFh (d a : BitVec 5) : BitVec 32 := ((a ++ d ++ 54#6 : BitVec 16)).setWidth 32
def Enc.vfaddFh (d a : BitVec 5) : BitVec 32 := ((a ++ d ++ 60#6 : BitVec 16)).setWidth 32
def Enc.vfmulFh (d a : BitVec 5) : BitVec 32 := ((a ++ d ++ 62#6 : BitVec 16)).setWidth 32

/-- The word of an instruction, from the encoding tables (R265, R267, R269); a 16-bit form in its low half; 0 for a
device step. -/
def encode : Instr → BitVec 32
  | .add d a b => Enc.add d a b
  | .sub d a b => Enc.sub d a b
  | .and d a b => Enc.and d a b
  | .or d a b => Enc.or d a b
  | .xor d a b => Enc.xor d a b
  | .andn d a b => Enc.andn d a b
  | .orn d a b => Enc.orn d a b
  | .xnor d a b => Enc.xnor d a b
  | .sll d a b => Enc.sll d a b
  | .srl d a b => Enc.srl d a b
  | .sra d a b => Enc.sra d a b
  | .rol d a b => Enc.rol d a b
  | .ror d a b => Enc.ror d a b
  | .min d a b => Enc.min d a b
  | .max d a b => Enc.max d a b
  | .minn d a b => Enc.minn d a b
  | .maxn d a b => Enc.maxn d a b
  | .mul d a b => Enc.mul d a b
  | .mulh d a b => Enc.mulh d a b
  | .mulhn d a b => Enc.mulhn d a b
  | .mulhsn d a b => Enc.mulhsn d a b
  | .div d a b => Enc.div d a b
  | .divn d a b => Enc.divn d a b
  | .rem d a b => Enc.rem d a b
  | .remn d a b => Enc.remn d a b
  | .clz d a => Enc.clz d a
  | .ctz d a => Enc.ctz d a
  | .popc d a => Enc.popc d a
  | .sext d a b => Enc.sext d a b
  | .zext d a b => Enc.zext d a b
  | .addw d a b => Enc.addw d a b
  | .subw d a b => Enc.subw d a b
  | .bfx d a b => Enc.bfx d a b
  | .bfxn d a b => Enc.bfxn d a b
  | .bfi d a b => Enc.bfi d a b
  | .shadd1 d a b => Enc.shadd1 d a b
  | .shadd2 d a b => Enc.shadd2 d a b
  | .shadd3 d a b => Enc.shadd3 d a b
  | .hash d a b => Enc.hash d a b
  | .rmap d a b => Enc.rmap d a b
  | .clin d a b => Enc.clin d a b
  | .cunl d a b => Enc.cunl d a b
  | .cmpeq k a b => Enc.cmpeq k a b
  | .cmpne k a b => Enc.cmpne k a b
  | .cmplt k a b => Enc.cmplt k a b
  | .cmpge k a b => Enc.cmpge k a b
  | .cmpltn k a b => Enc.cmpltn k a b
  | .cmpgen k a b => Enc.cmpgen k a b
  | .btst k a b => Enc.btst k a b
  | .sel d a b k n => Enc.sel d a b k n
  | .cmpeqi k a i => Enc.cmpeqi k a i
  | .cmpnei k a i => Enc.cmpnei k a i
  | .cmplti k a i => Enc.cmplti k a i
  | .cmpgei k a i => Enc.cmpgei k a i
  | .cmpltni k a i => Enc.cmpltni k a i
  | .cmpgeni k a i => Enc.cmpgeni k a i
  | .btsti k a i => Enc.btsti k a i
  | .bar a i => Enc.bar a i
  | .addpc d i => Enc.addpc d i
  | .addi d a i => Enc.addi d a i
  | .andi d a i => Enc.andi d a i
  | .ori d a i => Enc.ori d a i
  | .xori d a i => Enc.xori d a i
  | .slli d a s => Enc.slli d a s
  | .srli d a s => Enc.srli d a s
  | .srai d a s => Enc.srai d a s
  | .roli d a s => Enc.roli d a s
  | .muli d a i => Enc.muli d a i
  | .li d i => Enc.li d i
  | .lis d i => Enc.lis d i
  | .beqz a o => Enc.beqz a o
  | .bnez a o => Enc.bnez a o
  | .bltz a o => Enc.bltz a o
  | .bgez a o => Enc.bgez a o
  | .bgtz a o => Enc.bgtz a o
  | .blez a o => Enc.blez a o
  | .bk k n o => Enc.bk k n o
  | .jal d o => Enc.jal d o
  | .jalr d a i => Enc.jalr d a i
  | .ld t a z k o => Enc.ld t a z k o
  | .ldn t a z k o => Enc.ldn t a z k o
  | .st t a z k o => Enc.st t a z k o
  | .ldx t a x r z => Enc.ldx t a x r z
  | .ldxn t a x r z => Enc.ldxn t a x r z
  | .stx t a x r z => Enc.stx t a x r z
  | .lds t a z k m o => Enc.lds t a z k m o
  | .sts t a z k o => Enc.sts t a z k o
  | .stsf t a z k o => Enc.stsf t a z k o
  | .amoadd d a b => Enc.amoadd d a b
  | .amoand d a b => Enc.amoand d a b
  | .amoor d a b => Enc.amoor d a b
  | .amoxor d a b => Enc.amoxor d a b
  | .amomin d a b => Enc.amomin d a b
  | .amomax d a b => Enc.amomax d a b
  | .amominn d a b => Enc.amominn d a b
  | .amomaxn d a b => Enc.amomaxn d a b
  | .amoswp d a b => Enc.amoswp d a b
  | .amocas d a b => Enc.amocas d a b
  | .amofadds d a b => Enc.amofadds d a b
  | .amofaddd d a b => Enc.amofaddd d a b
  | .feqry d a => Enc.feqry d a
  | .feset d a => Enc.feset d a
  | .feclr d a => Enc.feclr d a
  | .fence s k => Enc.fence s k
  | .wait l s c t => Enc.wait l s c t
  | .tlwait a l => Enc.tlwait a l
  | .vadd d a b k z l => Enc.vadd d a b k z l
  | .vsub d a b k z l => Enc.vsub d a b k z l
  | .vmul d a b k z l => Enc.vmul d a b k z l
  | .vmulh d a b k z l => Enc.vmulh d a b k z l
  | .vmulhn d a b k z l => Enc.vmulhn d a b k z l
  | .vand d a b k z l => Enc.vand d a b k z l
  | .vor d a b k z l => Enc.vor d a b k z l
  | .vxor d a b k z l => Enc.vxor d a b k z l
  | .vsll d a b k z l => Enc.vsll d a b k z l
  | .vsrl d a b k z l => Enc.vsrl d a b k z l
  | .vsra d a b k z l => Enc.vsra d a b k z l
  | .vmin d a b k z l => Enc.vmin d a b k z l
  | .vmax d a b k z l => Enc.vmax d a b k z l
  | .vminn d a b k z l => Enc.vminn d a b k z l
  | .vmaxn d a b k z l => Enc.vmaxn d a b k z l
  | .vsadd d a b k z l => Enc.vsadd d a b k z l
  | .vssub d a b k z l => Enc.vssub d a b k z l
  | .vsaddn d a b k z l => Enc.vsaddn d a b k z l
  | .vssubn d a b k z l => Enc.vssubn d a b k z l
  | .vabs d a k z l => Enc.vabs d a k z l
  | .vneg d a k z l => Enc.vneg d a k z l
  | .vma d a b k z l => Enc.vma d a b k z l
  | .vpopc d a k z l => Enc.vpopc d a k z l
  | .vclz d a k z l => Enc.vclz d a k z l
  | .vfadd d a b k z l => Enc.vfadd d a b k z l
  | .vfsub d a b k z l => Enc.vfsub d a b k z l
  | .vfmul d a b k z l => Enc.vfmul d a b k z l
  | .vfma d a b k z l => Enc.vfma d a b k z l
  | .vfmin d a b k z l => Enc.vfmin d a b k z l
  | .vfmax d a b k z l => Enc.vfmax d a b k z l
  | .vfdiv d a b k z l => Enc.vfdiv d a b k z l
  | .vfsqrt d a k z l => Enc.vfsqrt d a k z l
  | .vfrcp d a k z l => Enc.vfrcp d a k z l
  | .vfrsq d a k z l => Enc.vfrsq d a k z l
  | .vfexp2 d a k z l => Enc.vfexp2 d a k z l
  | .vflog2 d a k z l => Enc.vflog2 d a k z l
  | .vfabs d a k z l => Enc.vfabs d a k z l
  | .vfneg d a k z l => Enc.vfneg d a k z l
  | .vcmpeq p a b k z l => Enc.vcmpeq p a b k z l
  | .vcmpne p a b k z l => Enc.vcmpne p a b k z l
  | .vcmplt p a b k z l => Enc.vcmplt p a b k z l
  | .vcmpge p a b k z l => Enc.vcmpge p a b k z l
  | .vcmpltn p a b k z l => Enc.vcmpltn p a b k z l
  | .vcmpgen p a b k z l => Enc.vcmpgen p a b k z l
  | .vfcmpeq p a b k z l => Enc.vfcmpeq p a b k z l
  | .vfcmplt p a b k z l => Enc.vfcmplt p a b k z l
  | .vfcmple p a b k z l => Enc.vfcmple p a b k z l
  | .vfcmpun p a b k z l => Enc.vfcmpun p a b k z l
  | .vsel d a b k l => Enc.vsel d a b k l
  | .vperm d a b k z l => Enc.vperm d a b k z l
  | .vslideup d a b k z l => Enc.vslideup d a b k z l
  | .vslidedn d a b k z l => Enc.vslidedn d a b k z l
  | .vcompress d a k l => Enc.vcompress d a k l
  | .vexpand d a k z l => Enc.vexpand d a k z l
  | .vmov d a k z l => Enc.vmov d a k z l
  | .vredadd d a k z l => Enc.vredadd d a k z l
  | .vredmin d a k z l => Enc.vredmin d a k z l
  | .vredmax d a k z l => Enc.vredmax d a k z l
  | .vredminn d a k z l => Enc.vredminn d a k z l
  | .vredmaxn d a k z l => Enc.vredmaxn d a k z l
  | .vredfadd d a k z l => Enc.vredfadd d a k z l
  | .vredfmin d a k z l => Enc.vredfmin d a k z l
  | .vredfmax d a k z l => Enc.vredfmax d a k z l
  | .vscan d a k z l => Enc.vscan d a k z l
  | .vfscan d a k z l => Enc.vfscan d a k z l
  | .vdot d a b k z l => Enc.vdot d a b k z l
  | .vcvtf2b d a s k z => Enc.vcvtf2b d a s k z
  | .vcvtb2f d a s k z => Enc.vcvtb2f d a s k z
  | .vcvtf2h d a s k z => Enc.vcvtf2h d a s k z
  | .vcvth2f d a s k z => Enc.vcvth2f d a s k z
  | .vcvtf2e4 d a s k z => Enc.vcvtf2e4 d a s k z
  | .vcvte42f d a s k z => Enc.vcvte42f d a s k z
  | .vcvtf2e5 d a s k z => Enc.vcvtf2e5 d a s k z
  | .vcvte52f d a s k z => Enc.vcvte52f d a s k z
  | .vcvtf2w d a s k z => Enc.vcvtf2w d a s k z
  | .vcvtw2f d a s k z => Enc.vcvtw2f d a s k z
  | .vcvtw2i8 d a s k z => Enc.vcvtw2i8 d a s k z
  | .vcvti82w d a s k z => Enc.vcvti82w d a s k z
  | .vcvtw2i4 d a s k z => Enc.vcvtw2i4 d a s k z
  | .vcvti42w d a s k z => Enc.vcvti42w d a s k z
  | .vcvtd2f d a s k z => Enc.vcvtd2f d a s k z
  | .vcvtf2d d a s k z => Enc.vcvtf2d d a s k z
  | .vqnt d a q k l => Enc.vqnt d a q k l
  | .vdqnt d a q k z l => Enc.vdqnt d a q k z l
  | .baddq d a b l => Enc.baddq d a b l
  | .vbsc d a b k z l => Enc.vbsc d a b k z l
  | .vbexp d a b k l => Enc.vbexp d a b k l
  | .vld v a k l s => Enc.vld v a k l s
  | .vst v a k l s => Enc.vst v a k l s
  | .vlds v a b k l s => Enc.vlds v a b k l s
  | .vsts v a b k l s => Enc.vsts v a b k l s
  | .vgath v a b k l s => Enc.vgath v a b k l s
  | .vscat v a b k l s => Enc.vscat v a b k l s
  | .vldf v a k l s => Enc.vldf v a k l s
  | .kand d a b => Enc.kand d a b
  | .kor d a b => Enc.kor d a b
  | .kxor d a b => Enc.kxor d a b
  | .kandn d a b => Enc.kandn d a b
  | .knot d a => Enc.knot d a
  | .kmov d a => Enc.kmov d a
  | .kpopc d a => Enc.kpopc d a
  | .kfirst d a => Enc.kfirst d a
  | .kfromg d a => Enc.kfromg d a
  | .ktog d a => Enc.ktog d a
  | .faddF32 d a b => Enc.faddF32 d a b
  | .fsubF32 d a b => Enc.fsubF32 d a b
  | .fmulF32 d a b => Enc.fmulF32 d a b
  | .fdivF32 d a b => Enc.fdivF32 d a b
  | .fsqrtF32 d a => Enc.fsqrtF32 d a
  | .fminF32 d a b => Enc.fminF32 d a b
  | .fmaxF32 d a b => Enc.fmaxF32 d a b
  | .fmaF32 d a b => Enc.fmaF32 d a b
  | .fabsF32 d a => Enc.fabsF32 d a
  | .fnegF32 d a => Enc.fnegF32 d a
  | .fclassF32 d a => Enc.fclassF32 d a
  | .faddF64 d a b => Enc.faddF64 d a b
  | .fsubF64 d a b => Enc.fsubF64 d a b
  | .fmulF64 d a b => Enc.fmulF64 d a b
  | .fdivF64 d a b => Enc.fdivF64 d a b
  | .fsqrtF64 d a => Enc.fsqrtF64 d a
  | .fminF64 d a b => Enc.fminF64 d a b
  | .fmaxF64 d a b => Enc.fmaxF64 d a b
  | .fmaF64 d a b => Enc.fmaF64 d a b
  | .fabsF64 d a => Enc.fabsF64 d a
  | .fnegF64 d a => Enc.fnegF64 d a
  | .fclassF64 d a => Enc.fclassF64 d a
  | .fcmpeq k a b p => Enc.fcmpeq k a b p
  | .fcmplt k a b p => Enc.fcmplt k a b p
  | .fcmple k a b p => Enc.fcmple k a b p
  | .fcmpun k a b p => Enc.fcmpun k a b p
  | .fcmpne k a b p => Enc.fcmpne k a b p
  | .cvtf2d d a => Enc.cvtf2d d a
  | .cvtd2f d a => Enc.cvtd2f d a
  | .cvtf2w d a => Enc.cvtf2w d a
  | .cvtf2l d a => Enc.cvtf2l d a
  | .cvtd2w d a => Enc.cvtd2w d a
  | .cvtd2l d a => Enc.cvtd2l d a
  | .cvtw2f d a => Enc.cvtw2f d a
  | .cvtl2f d a => Enc.cvtl2f d a
  | .cvtw2d d a => Enc.cvtw2d d a
  | .cvtl2d d a => Enc.cvtl2d d a
  | .cvtf2b d a => Enc.cvtf2b d a
  | .cvtb2f d a => Enc.cvtb2f d a
  | .cvtf2h d a => Enc.cvtf2h d a
  | .cvth2f d a => Enc.cvth2f d a
  | .vbcast v a b => Enc.vbcast v a b
  | .vextr d v b => Enc.vextr d v b
  | .vins v a b => Enc.vins v a b
  | .viota v a b => Enc.viota v a b
  | .cld d a b => Enc.cld d a b
  | .cst d a b => Enc.cst d a b
  | .cadd d a b => Enc.cadd d a b
  | .cnext d a b => Enc.cnext d a b
  | .cdel d a b => Enc.cdel d a b
  | .calloc d a b => Enc.calloc d a b
  | .cfree d a b => Enc.cfree d a b
  | .cinv a => Enc.cinv a
  | .cqry d a b => Enc.cqry d a b
  | .spawn a b => Enc.spawn a b
  | .sync => Enc.sync
  | .retc => Enc.retc
  | .yield => Enc.yield
  | .park a b => Enc.park a b
  | .tnew a b => Enc.tnew a b
  | .texit => Enc.texit
  | .susp a => Enc.susp a
  | .resume d a b => Enc.resume d a b
  | .lsetup a => Enc.lsetup a
  | .lnext d a => Enc.lnext d a
  | .migr d a b => Enc.migr d a b
  | .mret a b => Enc.mret a b
  | .suspend d a => Enc.suspend d a
  | .force d a => Enc.force d a
  | .spark a => Enc.spark a
  | .hwait d a => Enc.hwait d a
  | .hstat d a => Enc.hstat d a
  | .hbind a b => Enc.hbind a b
  | .hdrop a => Enc.hdrop a
  | .tenq d a => Enc.tenq d a
  | .mprog a b => Enc.mprog a b
  | .cpy d a b => Enc.cpy d a b
  | .plane d a b => Enc.plane d a b
  | .dense d a b => Enc.dense d a b
  | .fill d a => Enc.fill d a
  | .route d a => Enc.route d a
  | .psel d a => Enc.psel d a
  | .rqinit d a b => Enc.rqinit d a b
  | .rqget d a => Enc.rqget d a
  | .rqdone d a b => Enc.rqdone d a b
  | .send d a b => Enc.send d a b
  | .qcfg d a b => Enc.qcfg d a b
  | .qctl d a b => Enc.qctl d a b
  | .qhnd d a b => Enc.qhnd d a b
  | .qret => Enc.qret
  | .qstat d a => Enc.qstat d a
  | .csrrd d c => Enc.csrrd d c
  | .csrwr d a c => Enc.csrwr d a c
  | .csrset d a c => Enc.csrset d a c
  | .trap a => Enc.trap a
  | .syscall => Enc.syscall
  | .eret => Enc.eret
  | .brk => Enc.brk
  | .halt => Enc.halt
  | .feat d a => Enc.feat d a
  | .tlbw a b => Enc.tlbw a b
  | .tlbi d a b => Enc.tlbi d a b
  | .flushi => Enc.flushi
  | .upret => Enc.upret
  | .seqq d a => Enc.seqq d a
  | .addFh d a => Enc.addFh d a
  | .subFh d a => Enc.subFh d a
  | .mulFh d a => Enc.mulFh d a
  | .andFh d a => Enc.andFh d a
  | .orFh d a => Enc.orFh d a
  | .xorFh d a => Enc.xorFh d a
  | .sllFh d a => Enc.sllFh d a
  | .srlFh d a => Enc.srlFh d a
  | .sraFh d a => Enc.sraFh d a
  | .minFh d a => Enc.minFh d a
  | .maxFh d a => Enc.maxFh d a
  | .movFh d a => Enc.movFh d a
  | .addiFh d i => Enc.addiFh d i
  | .slliFh d s => Enc.slliFh d s
  | .faddFh d a => Enc.faddFh d a
  | .fmulFh d a => Enc.fmulFh d a
  | .vaddFh d a => Enc.vaddFh d a
  | .vsubFh d a => Enc.vsubFh d a
  | .vmulFh d a => Enc.vmulFh d a
  | .vandFh d a => Enc.vandFh d a
  | .vorFh d a => Enc.vorFh d a
  | .vxorFh d a => Enc.vxorFh d a
  | .vsllFh d a => Enc.vsllFh d a
  | .vsrlFh d a => Enc.vsrlFh d a
  | .vsraFh d a => Enc.vsraFh d a
  | .vminFh d a => Enc.vminFh d a
  | .vmaxFh d a => Enc.vmaxFh d a
  | .vmovFh d a => Enc.vmovFh d a
  | .vfaddFh d a => Enc.vfaddFh d a
  | .vfmulFh d a => Enc.vfmulFh d a
  | .illegalInstruction enc => enc
  | .i3cReadStatus | .i3cReadTemperatures | .i3cReadPackagePower | .i3cSetPowerLimit _ | .i3cReadIdentityKey
  | .i3cResetPackage | .i3cResetDie _ | .assign | .ctxnew | .ctxend | .qbind | .peer | .keyInstall
  | .keyClear | .signed | .mode | .share | .trace | .drain | .attest | .thread | .move | .postmap | .retrain
  | .resetDie | .resetPackage | .power | .debugHalt | .debugResume | .debugStep | .debugSetBreakpoint
  | .debugClearBreakpoint | .debugCopyState | .registerWrite _ _ _ _ _ | .ringidxWrite _ _ _
  | .queueEnable _ _ | .queueDisable _ _ | .queueReset _ _ | .scringConfig _ _ _ | .scheadWrite _ _
  | .syscallReply _ _ | .hostWindowAccess _ _ _ _ _ | .admitEntry _ _ | .stampRetry _ _ | .entryStart _ _ _
  | .imageLoad _ _ _ | .entryComplete _ _ _ | .boot | .supplyFault _ | .thermalThrottle _ _
  | .thermalShutdown _ _ | .powerLimitUnmet _ | .powerLimitMet _ | .clockStep _ _ | .dieResetComplete _
  | .packageResetComplete | .slackTick | .packetLate _ _ | .routerForward _ _ _ | .routerIdle _
  | .routerPowerdownDone _ | .tokenAtWriter _ _ | .tokenAtHome _ | .bridgeForward _ _ _
  | .directPathForward _ _ _ | .homeEnqueue _ _ | .homePerform _ | .replayTimeout _ | .replyDeliver _
  | .lateTrap _ _ | .iterativeUnitDone _ | .vectorDeferredResult _ _ | .fabricTransmit _
  | .codewordReceive _ _ _ _ | .flitReceive _ _ | .ackReceive _ _ | .nakReceive _ _
  | .trainingFlitReceive _ _ | .lockHoldExpiry _ _ | .markersAligned _ | .fecCodewordCount _
  | .trainingTimeout _ | .fecLockLoss _ | .nakRateExceeded _ | .fibreLockLoss _ _ | .slotTake _ _
  | .stealSearch _ | .stealRequest _ | .stealReply _ | .enqueueContinuation _ | .injectionAge _ _
  | .urgentArrival _ | .evictWrite _ _ | .npostWrite _ | .noticeDeliver _ | .translationRequest _
  | .translationReply _ | .tlbShootdown _ | .clbShootdown _ | .syncAccessAtOwner _ | .syncDeadline _ _
  | .withdrawal _ | .barArrival _ | .barDeadline _ _ | .parkAtHome _ | .parkDeadline _ _ | .lnextClaim _
  | .joinUpdate _ | .resumeCellOp _ | .messageArrival _ | .queueElementArrival _ | .linkElementTransfer _ _
  | .portReadTimeout _ _ | .forwardPacket _ | .forwardExpiry _ _ | .migrationArrival _ | .beadRequest _
  | .sparkClaim _ | .beadCompletion _ | .beadCompletionPoisoned _ | .beadEngineFault _ | .operandFailure _
  | .deathNotice _ | .waiterDeadline _ _ | .wakeDeliver _ | .wfcEdge _ | .wfcQuery _ | .wfcQueryReply _
  | .tileEvaluate _ | .operandReply _ | .stagingComplete _ _ | .tileDispatch _ | .taskComplete _ _
  | .taskEngineFault _ _ _ | .sparkTake _ | .coordAtAgent _ | .cinvReload _ | .engineTicketComplete _ _
  | .routePerform _ | .pselPerform _ | .rqOperation _ | .rqCommitDone _ _ | .rqgetTimeout _ _
  | .carryArrival _ | .carryDepositDone _ | .carryCountReply _ | .carryReturn _ | .coreParityError _
  | .fetchFault _ _ => 0#32

/-- The bytes of an instruction as memory holds them (R3, R263). -/
def encodeBytes (i : Instr) : List (BitVec 8) :=
  let w := encode i
  if isHalf i then [w.extractLsb' 0 8, w.extractLsb' 8 8]
  else [w.extractLsb' 0 8, w.extractLsb' 8 8, w.extractLsb' 16 8, w.extractLsb' 24 8]

/-- The instruction that the decoder reads from an encoding numbered as the table of operations numbers it; the bits
above `nbits` are 0. -/
noncomputable def decodeTableWord (nbits w : Nat) : Option Instr :=
  let v := BitVec.ofNat 32 (w % 2 ^ nbits)
  match decode [v.extractLsb' 0 8, v.extractLsb' 8 8, v.extractLsb' 16 8, v.extractLsb' 24 8] with
  | .ok (i, _) => some i
  | .error _ => none

end Sys2Proof
end

