-- ==== Sys2Proof/Machine/Approx.lean ====
section
/-!
DEFINITION. The functions that KN1 gives as the exact value rounded once (R215, R331, R366): the value to
384 fractional bits with a sticky bit, so that one rounding gives the exact function's rounding.
-/

namespace Sys2Proof.Machine

/-- Fractional bits of the fixed-point values below. -/
def fpP : Nat := 384

/-- ln 2, as the sum of 1/(k·2^k). -/
def fpLn2 : Nat := (List.range 400).foldl (fun a k => a + 2 ^ (fpP + 20) / ((k + 1) * 2 ^ (k + 1))) 0 / 2 ^ 20

/-- e^y for a fixed-point y in [0, 1), by its series. -/
def fpExp (y : Nat) : Nat :=
  ((List.range 110).foldl (fun (p : Nat × Nat) k => (p.1 + p.2, p.2 * y / 2 ^ fpP / (k + 1))) (0, 2 ^ fpP)).1

/-- 2^f for a fixed-point f in [0, 1). -/
def fpExp2 (f : Nat) : Nat := fpExp (f * fpLn2 / 2 ^ fpP)

/-- ln y for a fixed-point y in [1, 2], by the series of the inverse hyperbolic tangent. -/
def fpLn (y : Nat) : Nat :=
  let z := (y - 2 ^ fpP) * 2 ^ fpP / (y + 2 ^ fpP)
  let z2 := z * z / 2 ^ fpP
  2 * ((List.range 130).foldl (fun (p : Nat × Nat) k => (p.1 + p.2 / (2 * k + 1), p.2 * z2 / 2 ^ fpP)) (0, z)).1

/-- log2 y for a fixed-point y in [1, 2]. -/
def fpLog2 (y : Nat) : Nat := fpLn y * 2 ^ fpP / fpLn2

/-- The integer part of x·2^384, rounded down, for a dyadic x. -/
def toFixed (s : Bool) (m : Nat) (e : Int) : Int :=
  let k := e + fpP
  if k ≥ 0 then (if s then -((m * 2 ^ k.toNat : Nat) : Int) else (m * 2 ^ k.toNat : Nat))
  else
    let q : Int := ((if s then -(m : Int) else m) : Int)
    q.fdiv (2 ^ (-k).toNat : Nat)

/-- Whether a dyadic is an integer. -/
def isIntXV (m : Nat) (e : Int) : Bool := e ≥ 0 || m % 2 ^ (-e).toNat == 0

/-- 2^x (R331). -/
def xExp2 : XV → XV
  | .nan a => .nan a
  | .inf s _ => if s then .num false 0 0 false else .inf false false
  | .num s m e _ =>
    if m = 0 then .num false 1 0 false
    else if expOf m e ≥ 15 then .num false 1 (if s then -40000 else 40000) true
    else
      let x := toFixed s m e
      let n := x.fdiv (2 ^ fpP : Nat)
      if isIntXV m e then .num false 1 n false
      else .num false (fpExp2 (x - n * (2 ^ fpP : Nat)).toNat) (n - fpP) true

/-- A fixed-point number that the true value exceeds by less than one unit (or equals, when `ex`). -/
def ofFixed (v : Int) (ex : Bool) : XV :=
  if ex then .num (v < 0) v.natAbs (-(fpP : Int)) false
  else if v ≥ 0 then .num false v.natAbs (-(fpP : Int)) true
  else .num true (v.natAbs - 1) (-(fpP : Int)) true

/-- log2 x (R331). -/
def xLog2 : XV → XV
  | .nan a => .nan a
  | .inf s _ => if s then .nan true else .inf false false
  | .num s m e _ =>
    if m = 0 then .inf true true
    else if s then .nan true
    else
      let k := expOf m e
      let l := Nat.log2 m
      let y := m * 2 ^ fpP / 2 ^ l
      if m = 2 ^ l then xvInt k
      else ofFixed (k * (2 ^ fpP : Nat) + fpLog2 y) false

/-- 1 / x (R331). -/
def xRcp (x : XV) : XV := xDiv (.num false 1 0 false) x

/-- 1 / √x (R331). -/
def xRsqrt : XV → XV
  | .nan a => .nan a
  | .inf s _ => if s then .nan true else .num false 0 0 false
  | .num s m e _ =>
    if m = 0 then .inf s true
    else if s then .nan true
    else
      let m1 := if e % 2 = 0 then m else 2 * m
      let e1 := if e % 2 = 0 then e else e - 1
      let k := 200 + Nat.log2 m1
      let n := 2 ^ (2 * k) / m1
      let r := isqrt n
      .num false r (-(e1 / 2) - k) (r * r * m1 != 2 ^ (2 * k))

/-- e^x of an exact x (R215). -/
def xExp : XV → XV
  | .nan a => .nan a
  | .inf s _ => if s then .num false 0 0 false else .inf false false
  | .num s m e _ =>
    if m = 0 then .num false 1 0 false
    else if expOf m e ≥ 14 then .num false 1 (if s then -40000 else 40000) true
    else
      let x := toFixed s m e
      let t := (x * (2 ^ fpP : Nat)).fdiv fpLn2
      let n := t.fdiv (2 ^ fpP : Nat)
      .num false (fpExp2 (t - n * (2 ^ fpP : Nat)).toNat) (n - fpP) true

/-- σ(x) = 1 / (1 + exp(−x)) of an exact x (R215). -/
def xSigmoid (x : XV) : XV :=
  match x with
  | .nan a => .nan a
  | .inf s _ => if s then .num false 0 0 false else .num false 1 0 false
  | .num s m _ _ =>
    if m = 0 then .num false 1 (-1) false
    else
      match xExp (if s then x else xNeg x) with
      | .num _ me ee _ =>
        let d := 2 ^ fpP + (alignTo me ee (-(fpP : Int))).1
        if s then .num false (me * 2 ^ fpP / d) ee true
        else .num false (2 ^ (2 * fpP) / d) (-(fpP : Int)) true
      | y => y

/-- log2(2^u + 2^v) of exact u and v (R366). -/
def xLse2 (u v : XV) : XV :=
  match xCmp u v with
  | none => .nan false
  | some c =>
    let hi := if c < 0 then v else u
    let lo := if c < 0 then u else v
    match hi, lo with
    | .inf s _, _ => .inf s false
    | hi, .inf .. => hi
    | .num s m e _, lo =>
      if c = 0 then xAdd false hi (.num false 1 0 false)
      else
        match xExp2 (xAdd false lo (xNeg hi)) with
        | .num _ md ed _ =>
          let y := 2 ^ fpP + (alignTo md ed (-(fpP : Int))).1
          let l := fpLog2 y
          let q := min e (-(fpP : Int))
          let w := scaled s m e q + scaled false l (-(fpP : Int)) q
          if w ≥ 0 then .num false w.natAbs q true else .num true (w.natAbs - 1) q true
        | _ => hi
    | .nan a, _ => .nan a

end Sys2Proof.Machine
end

