-- ==== Sys2Proof/Machine/Flags.lean ====
section
/-!
DEFINITION. Flags and conditions: fflags and the generator state after a rounding (R256, R259), compare
conditions (R287, R293), branch conditions (R295).
-/

namespace Sys2Proof.Machine

/-- The rounding context of a thread (R256, R259). -/
def rcOf (sl : Slot) : RC :=
  { rm := (sl.csr.fmode.setWidth 3).toNat, sat := sl.csr.fmode.getLsbD 3, seed := sl.csr.fseed }

/-- Flags ORed into fflags, which are sticky (R256). -/
def orFlags (s : State) (t : Tid) (f : BitVec 6) : State := modCsr s t fun c => { c with fflags := c.fflags ||| f }

/-- The generator state written back (R259). -/
def setSeed (s : State) (t : Tid) (x : BitVec 32) : State := modCsr s t fun c => { c with fseed := x }

/-- A write of fseed (R259). -/
def seedOf (v : BitVec 32) : BitVec 32 := if v = 0 then 0x9E3779B9 else v

/-- Integer compare conditions by code (R287). -/
def cmpCond (code : Nat) (x y : Word) : Bool :=
  match code with
  | 0 => x == y
  | 1 => x != y
  | 2 => x.slt y
  | 3 => !x.slt y
  | 4 => x.ult y
  | 5 => !x.ult y
  | _ => bitAt x (fld y 5 0)

/-- Float relations by code: 0 EQ, 1 LT, 2 LE, 3 UNORD, 4 NE (R293). -/
def fcmpCond (code : Nat) (f : Fmt) (a b : Nat) : Bool :=
  match xCmp (decodeF f a) (decodeF f b) with
  | none => code == 3 || code == 4
  | some c =>
    match code with
    | 0 => c == 0
    | 1 => c < 0
    | 2 => c ≤ 0
    | 3 => false
    | _ => c != 0

/-- Branch conditions by code (R295). -/
def brCond (code : Nat) (x : Word) : Bool :=
  match code with
  | 0 => x == 0
  | 1 => x != 0
  | 2 => x.slt 0
  | 3 => !x.slt 0
  | 4 => !x.slt 0 && x != 0
  | _ => x.slt 0 || x == 0

end Sys2Proof.Machine
end

