-- ==== Sys2Proof/Machine/Operands.lean ====
section
/-!
DEFINITION. The scaffold of a thread instruction and its operand forms: window and port checks (R121, R122,
R301), register, port, predicate and vector operands (R134, R135, R138), translation at issue (R128, R143, R151),
the dispatch ring, timelines and late faults (R137, R142, R195).
-/

namespace Sys2Proof.Machine

/-- How an instruction ends otherwise than by completing. -/
inductive Stop where
  /-- A precise fault: nothing of the instruction is written (R192). -/
  | trap (cause : BitVec 8) (tval : Word)
  /-- A trap taken in a changed state, with its tepc (R195, R204, R395). -/
  | trapIn (s : State) (cause : BitVec 8) (tval pc : Word)
  /-- A page fault (R156). -/
  | upcall (va : Word)
  /-- A translation miss (R152): the address, the kind and the slack of the access. -/
  | miss (va : Word) (kind slack : Nat)
  /-- A control value at the head of a port queue: the light handler (R135). -/
  | handler (addr : Word)
  /-- A read of an empty port (R125, R134). -/
  | port (n : Nat)
  /-- A condition that a later turn tests again (R95). -/
  | cond
  /-- The state given, the instruction not yet complete. -/
  | keep (s : State)

abbrev X (α : Type) := Except Stop α

/-- What a thread instruction sees: the state, its thread and slot, its encoding, and the next pc. -/
structure Env where
  s   : State
  t   : Tid
  sl  : Slot
  enc : Word
  npc : Word

/-- Whether a slot waits for something that is brought to it (R95). -/
def parkedSlot (sl : Slot) : Bool :=
  match sl.wait with
  | some .reply | some .miss | some .iter | some .sysc => true
  | _ => false

/-- The kind field of a miss request (R152). -/
def missKind (need : Nat) : Nat := if need ≥ 4 then 2 else if need ≥ 2 then 1 else 0

/-- A miss request, or a join of one that is outstanding; a miss beyond 16 waits (R152). -/
def sendMiss (s : State) (t : Tid) (va : Word) (kind slack : Nat) : State :=
  let sl := getSlot s t
  let c := getCore s t.core
  let page := va.toNat / 4096
  let wait := fun (s : State) => modSlot s t fun sl => { sl with wait := some .miss }
  if c.misses.any fun m => m.ctx == sl.ctx && m.page == page then
    wait (modCore s t.core fun c => { c with misses := c.misses.map fun m =>
      if m.ctx == sl.ctx && m.page == page then { m with ts := m.ts ++ [t] } else m })
  else if c.misses.length < 16 then
    let s := modCore s t.core fun c => { c with misses := c.misses ++ [{ ctx := sl.ctx, page := page, kind := kind, ts := [t] }] }
    wait (send s 9 slack (coreUnit t.core) (coreUnit (svcCore (coreCl t.core))) (.xlat va kind t sl.ctx t.core))
  else modSlot s t fun sl => { sl with wait := some .cond }

/-- The request of an engine's miss, or a join of one that is outstanding: slot 0 and the engine bit (R152). None while 16 are
outstanding. -/
def askMiss (s : State) (core ctx va need slack : Nat) : Option State :=
  let c := getCore s core
  let page := va / 4096
  if c.misses.any fun m => m.ctx == ctx && m.page == page then some s
  else if c.misses.length < 16 then
    let kind := 4 + missKind need
    let s := modCore s core fun c => { c with misses := c.misses ++ [{ ctx := ctx, page := page, kind := kind }] }
    some (send s 9 slack (coreUnit core) (coreUnit (svcCore (coreCl core))) (.xlat (wd va) kind { core := core } ctx core))
  else none

/-- The state after an instruction that does not complete. -/
def applyStop (e : Env) : Stop → State
  | .trap c v => takeTrap e.s e.t c v e.sl.pc
  | .trapIn s c v pc => takeTrap s e.t c v pc
  | .upcall va => takeUpcall e.s e.t va e.sl.pc
  | .miss va k sk => sendMiss e.s e.t va k sk
  | .handler a => modSlot e.s e.t fun sl => { readied sl with handler := some sl.pc, pc := a }
  | .port n => modSlot e.s e.t fun sl => { sl with wait := some (match sl.wait with
      | some (.port m d) => if m = n then .port m d else .port n (if sl.csr.wlimt = 0 then none else some (tickN e.s + sl.csr.wlimt.toNat))
      | _ => .port n (if sl.csr.wlimt = 0 then none else some (tickN e.s + sl.csr.wlimt.toNat))) }
  | .cond => modSlot e.s e.t fun sl => { sl with wait := some .cond }
  | .keep s => s

/-- The environment of an instruction of `len` bytes in the slot whose turn it is. -/
def envOf (len : Word) (enc : BitVec 32) (s : State) : Env :=
  let t := s.cur
  let sl := getSlot s t
  { s := s, t := t, sl := sl, enc := enc.setWidth 64, npc := sl.pc + len }

/-- The scaffold of every thread instruction. A slot that waits is out of rotation, so nothing happens (R95). -/
def thr (len : Word) (enc : BitVec 32) (s : State) (body : Env → X State) : Host.Outcome State Fault Refusal :=
  let e := envOf len enc s
  if e.sl.uid.isNone then .fault .noContinuation
  else if parkedSlot e.sl then .next s
  else .next (match body e with
    | .ok s' => s'
    | .error st => applyStop e st)

/-- The instruction completes and the thread continues at `target`. -/
def jumpTo (e : Env) (s : State) (target : Word) : State :=
  modSlot s e.t fun sl => { readied sl with pc := target, ord := sl.ord + 1 }

/-- The instruction completes and the thread continues at the next instruction. -/
def done (e : Env) (s : State) : State := jumpTo e s e.npc

def trapX {α : Type} (c : BitVec 8) (v : Word) : X α := .error (.trap c v)

/-- ILLEGAL_INSTRUCTION with the encoding (R264). -/
def illegal {α : Type} (e : Env) : X α := trapX 0x01 e.enc

/-- Condition, or a fault. -/
def need (b : Bool) (c : BitVec 8) (v : Word) : X Unit := if b then .ok () else trapX c v

/-- Condition, or a wait. -/
def await (b : Bool) : X Unit := if b then .ok () else .error .cond

/-! ### Register fields (R121, R122, R301) -/

/-- Whether gn lies outside the window and is no port register (R121, R122). -/
def outWindow (sl : Slot) (n : Nat) : Bool := n ≥ winW sl && !(sl.ports && n ≥ 120)

/-- The least register number that lies outside the window, vector registers by their base (R121). -/
def leastOut (sl : Slot) (gs vs : List Nat) : Option Nat :=
  let l := gs.filter (outWindow sl) ++ (vs.map (· * 8)).filter fun n => n + 7 ≥ winW sl
  l.foldl (fun (m : Option Nat) n => match m with | some x => some (min x n) | none => some n) none

/-- Whether an entry of gn awaits a vector load's reply or a deferred result (R327). -/
def outstanding (sl : Slot) (n : Nat) : Bool :=
  n != 0 && ((sl.vops.any fun v => v.isLd && v.vd == n / 8) || (sl.defer.any fun d => d.writes.any fun w => w.1 == n))

/-- The checks of register fields: sources, destinations, fields that may not name a port, vector registers. -/
def chk (e : Env) (rd wr np : List Nat) (vs : List Nat := []) : X Unit :=
  if e.sl.ports && (rd.any (fun n => n == 122 || n == 123) || wr.any (fun n => n == 120 || n == 121) || np.any fun n => decide (n ≥ 120)) then illegal e
  else match leastOut e.sl (rd ++ wr ++ np) vs with
    | some n => trapX 0x02 (wd n)
    | none =>
      if (rd ++ wr ++ np ++ vs.flatMap fun v => (List.range 8).map fun j => 8 * v + j).any (outstanding e.sl) then .error .cond
      else .ok ()

/-! ### Queues of the core's scratchpad (R133) -/

def qGet (s : State) (core q : Nat) : QCtl := smGet {} (getCore s core).qctl q
def qSet (s : State) (core q : Nat) (c : QCtl) : State :=
  modCore s core fun k => { k with qctl := smSet {} k.qctl q c }
def qEn (c : QCtl) : Bool := bitAt c.w0 38
def qDepth (c : QCtl) : Nat := fld c.w0 31 16
def qBase (c : QCtl) : Nat := fld c.w0 15 0 * 8
def qHead (c : QCtl) : Nat := fld c.w1 31 0
def qTail (c : QCtl) : Nat := fld c.w1 63 32
def qCount (c : QCtl) : Nat := (qTail c + 2 ^ 32 - qHead c) % 2 ^ 32
def qFull (c : QCtl) : Bool := qCount c == qDepth c
def qElem (core : Nat) (c : QCtl) (i : Nat) : Nat := scrKey core (qBase c + 8 * (i % qDepth c))
/-- A word 0 that QCFG accepts (R133). -/
def qOk (w : Word) : Bool :=
  fld w 63 39 == 0 && fld w 37 36 == 0 && fld w 35 32 == 3 && fld w 31 16 != 0 &&
    fld w 15 0 * 8 + 8 * fld w 31 16 ≤ 0x100000
/-- An element written: data, tag, occupied, tail (R133). -/
def qPush (s : State) (core q : Nat) (v : Word) (tag : Bool) : State :=
  let c := qGet s core q
  let k := qElem core c (qTail c)
  let s := homeWrite s k 8 v.toNat
  let s := qSet s core q { c with w1 := wd ((qTail c + 1) % 2 ^ 32 * 2 ^ 32 + qHead c) }
  retest (setFull (setFull s (k + 4) 4 tag) k 4 true) core
/-- The head element: data and tag. -/
def qPeek (s : State) (core q : Nat) : Word × Bool :=
  let c := qGet s core q
  let k := qElem core c (qHead c)
  (wd (memRead s.mem k 8), feGet s (k + 4))
/-- The head element taken: both bits cleared, head advanced (R133). -/
def qPop (s : State) (core q : Nat) : State :=
  let c := qGet s core q
  let k := qElem core c (qHead c)
  let s := qSet s core q { c with w1 := wd (qTail c * 2 ^ 32 + (qHead c + 1) % 2 ^ 32) }
  setFullAt s k 8 false

/-! ### Scalar operands -/

/-- The neighbour that reads a core's link (R50). -/
def linkReader (core link : Nat) : Nat :=
  let x := coreIdx core % 4
  let y := coreIdx core / 4
  coreCl core * 32 + (if link = 0 then y * 4 + (x + 1) % 4 else (y + 1) % 4 * 4 + x)

/-- A source register: window register, or a port read that pops (R121, R122, R125, R134, R135). -/
def readR (e : Env) (s : State) (n : Nat) : X (State × Word) :=
  if e.sl.ports && n ≥ 120 then
    if n = 120 || n = 121 then
      let q := n - 120
      let c := qGet s e.t.core q
      if !qEn c || qCount c == 0 then .error (.port n)
      else
        let (v, tag) := qPeek s e.t.core q
        let h := if q = 0 then (getCore s e.t.core).hnd0 else (getCore s e.t.core).hnd1
        if tag && h != 0 && e.sl.handler.isNone then .error (.handler h)
        else .ok (qPop s e.t.core q, v)
    else if n ≥ 124 then
      let m := smGet {} (getSlot s e.t).mb (n - 124)
      if m.full then
        .ok (modSlot s e.t fun sl => { sl with mb := smSet {} sl.mb (n - 124) { m with full := false } }, m.val)
      else .error (.port n)
    else illegal e
  else .ok (s, regGet s e.t e.sl n)

/-- An element as a thread writes it into a link, with its slack; slack 0 is late from issue (R35, R50). -/
def linkEl (e : Env) (v : Word) (tag : Bool) : LinkEl :=
  { v := v, tag := tag, slack := dskOf e.sl, late := if dskOf e.sl = 0 then some (tickN e.s) else none, since := tickN e.s }

/-- A push to the thread's outbound link; a full link buffer takes the thread out of rotation (R134). -/
def pushLink (e : Env) (s : State) (link : Nat) (v : Word) (tag : Bool) : X State :=
  if coreIdx e.t.core ≥ 16 then .error .cond
  else
    let r := linkReader e.t.core link
    let b := if link = 0 then (getCore s r).link0 else (getCore s r).link1
    if b.length ≥ 4 then .error .cond
    else .ok (modCore s r fun c => if link = 0 then { c with link0 := c.link0 ++ [linkEl e v tag] } else { c with link1 := c.link1 ++ [linkEl e v tag] })

/-- A destination register: window register, or a port write (R121, R122, R125, R134). -/
def writeR (e : Env) (s : State) (n : Nat) (v : Word) : X State :=
  if e.sl.ports && n ≥ 120 then
    if n = 122 || n = 123 then pushLink e s (n - 122) v false
    else if n ≥ 124 then
      .ok (modSlot s e.t fun sl => { sl with mb := smSet {} sl.mb (n - 124) { val := v, full := true } })
    else illegal e
  else .ok (regSet s e.t e.sl n v)

/-- A predicate written; k0 cannot be (R271). -/
def predSet (s : State) (t : Tid) (n : Nat) (v : Word) : State := modSlot s t fun sl => { sl with ks := smSet 0 sl.ks n v }

/-! ### Vector operands (R138) -/

/-- vn as a number of 512 bits, g(8n) least significant. -/
def vecGet (e : Env) (s : State) (n : Nat) : Nat :=
  (List.range 8).foldl (fun a j => a + (regGet s e.t e.sl (8 * n + j)).toNat * 2 ^ (64 * j)) 0
/-- vn written. -/
def vecSet (e : Env) (s : State) (n v : Nat) : State :=
  (List.range 8).foldl (fun s j => regSet s e.t e.sl (8 * n + j) (wd (v / 2 ^ (64 * j)))) s
/-- Lane width in bits of an lt code (R325). -/
def laneW (lt : Nat) : Nat := 8 * 2 ^ lt
def lane (w : Nat) (v i : Nat) : Nat := v / 2 ^ (w * i) % 2 ^ w
/-- A vector from its lanes. -/
def ofLanes (w : Nat) (l : List Nat) : Nat := l.zipIdx.foldl (fun a e => a + e.1 % 2 ^ w * 2 ^ (w * e.2)) 0
def lanesOf (w n v : Nat) : List Nat := (List.range n).map (lane w v)
/-- Whether lane i is active under a guard (R326). -/
def active (sl : Slot) (k i : Nat) : Bool := bitAt (predGet sl k) i

/-! ### Translation at issue (R128, R129, R143, R144, R151) -/

/-- Where an address leads. -/
inductive Place where
  | mem (k : Nat) (ent : TlbEnt) (paged : Bool)
  | reg (entry off : Nat)
  | qw (off : Nat)
  | fe (off : Nat)
  deriving DecidableEq, Repr

/-- The fault that a miss of the present instruction brought for an address's page (R152). -/
def missFault (sl : Slot) (va : Nat) : Option (BitVec 8) := (sl.xf.find? fun x => x.2.toNat / 4096 == va / 4096).map (·.1)

/-- Translation of an access (R151): `need` 1 read, 2 write, 3 both, 4 fetch. -/
def place (e : Env) (va : Word) (nd slack : Nat) : X Place :=
  let a := va.toNat
  let fn := (getCtx e.s e.sl.ctx).fn
  if a ≥ 2 ^ 57 then trapX 0x08 va
  else if a < 0x1000000 then
    if a < 0x100000 then (if a < scrSize e.t.core then .ok (.mem (scrKey e.t.core a) {} false) else trapX 0x08 va)
    else if a < 0x104000 then .ok (.reg ((a - 0x100000) / 8) (a % 8))
    else if a < 0x104400 then .ok (.qw (a - 0x104000))
    else if 0x110000 ≤ a && a < 0x118000 then .ok (.fe (a - 0x110000))
    else trapX 0x08 va
  else if a < scrBase then
    match tlbFind e.s e.t.core e.sl.ctx a with
    | some x =>
      if !permOk x.w1 nd || fld x.w1 8 7 == 2 then trapX 0x08 va
      else match physKey e.s fn (entPa x.w1 a) with
        | some k => .ok (.mem k x true)
        | none => trapX 0x08 va
    | none =>
      match missFault e.sl a with
      | some c => if c = 0x07 then .error (.upcall va) else trapX c va
      | none => .error (.miss va (missKind nd) slack)
  else if a < scrBase + 0x80000000 then
    match globalScr e.s fn a with
    | some k => .ok (.mem k {} false)
    | none => trapX 0x08 va
  else trapX 0x08 va

/-- Whether a key's home is the issuing core. -/
def isLocal (e : Env) (k : Nat) : Bool := isScr k && keyCore k == e.t.core

/-! ### Timelines and the ring (R137, R142, R185, R195) -/

def tlGet (x : Timelines) (i : Nat) : Timeline :=
  match i with | 0 => x.copy | 1 => x.tile | 2 => x.route | 3 => x.msg | _ => x.rstore
def tlMod (x : Timelines) (i : Nat) (f : Timeline → Timeline) : Timelines :=
  match i with
  | 0 => { x with copy := f x.copy }
  | 1 => { x with tile := f x.tile }
  | 2 => { x with route := f x.route }
  | 3 => { x with msg := f x.msg }
  | _ => { x with rstore := f x.rstore }

/-- The next ticket on a timeline. -/
def takeTicket (s : State) (t : Tid) (i : Nat) : State × Word :=
  let sl := getSlot s t
  let n := (tlGet sl.tls i).issued + 1
  (setSlot s t { sl with tls := tlMod sl.tls i fun l => { l with issued := n, opn := l.opn ++ [{ num := n, ord := sl.ord }] } }, n)

/-- The completed value advances over done tickets in order (R142). -/
def advance (l : Timeline) : Nat → Timeline
  | 0 => l
  | n + 1 =>
    match l.opn with
    | k :: r => if k.done then advance { l with completed := k.num, opn := r } n else l
    | [] => { l with completed := l.issued }

/-- A ticket completes, or completes as faulted with a cause (R142, R194). -/
def ticketDone (num : Word) (cause : Option (BitVec 8)) (l : Timeline) : Timeline :=
  let ord := ((l.opn.find? fun k => k.num == num).map (·.ord)).getD 0
  let opn := l.opn.map fun k => if k.num = num then { k with done := true } else k
  let faults := match cause with
    | some c => l.faults ++ [{ num := num, ord := ord, cause := c }]
    | none => l.faults
  advance { l with opn := opn, faults := faults } (opn.length + 1)

def completeTicket (s : State) (t : Tid) (i : Nat) (num : Word) (cause : Option (BitVec 8)) : State :=
  modSlot s t fun sl => { sl with tls := tlMod sl.tls i (ticketDone num cause) }

def ringPending (sl : Slot) : Bool := sl.ring.any fun r => r.st == .pending

/-- Whether a ring entry has completed as faulted. -/
def isFaulted : RingSt → Bool
  | .faulted _ => true
  | _ => false

/-- tval of ENGINE_FAULT (R195). -/
def efTval (source : Nat) (cause : BitVec 8) (num : Nat) : Word := wd (source * 2 ^ 40 + cause.toNat * 2 ^ 32 + num % 2 ^ 32)

/-- The late faults that a reporting instruction covers, as (order, source, cause, number). -/
def covered (sl : Slot) (ring : Bool) (cover : Nat → TFault → Bool) : List (Nat × Nat × BitVec 8 × Word) :=
  (if ring then sl.ring.filterMap fun r => match r.st with
    | .faulted c => some (r.ord, 8, c, r.seq.setWidth 64)
    | _ => none else []) ++
  (List.range 5).flatMap fun i => ((tlGet sl.tls i).faults.filter (cover i)).map fun f => (f.ord, i, f.cause, f.num)

/-- The oldest of a list of late faults (R195). -/
def oldest (l : List (Nat × Nat × BitVec 8 × Word)) : Option (Nat × Nat × BitVec 8 × Word) :=
  l.foldl (fun m x => match m with | some y => if x.1 < y.1 then some x else m | none => some x) none

/-- The slot with a reported fault cleared. -/
def clearFault (sl : Slot) (src : Nat) (num : Word) : Slot :=
  if src = 8 then { sl with ring := sl.ring.map fun r => if r.seq.setWidth 64 = num then { r with st := .done } else r }
  else { sl with tls := tlMod sl.tls src fun l => { l with faults := l.faults.filter fun f => f.num != num } }

/-- Report of late faults: ENGINE_FAULT for the oldest covered one (R195). -/
def report (e : Env) (s : State) (ring : Bool) (cover : Nat → TFault → Bool) : X Unit :=
  match oldest (covered (getSlot s e.t) ring cover) with
  | none => .ok ()
  | some (_, src, c, num) =>
    .error (.trapIn (modSlot s e.t fun sl => clearFault sl src num) 0x13 (efTval src c num.toNat) e.sl.pc)

/-- Report of late faults by an instruction that first waits for older ring entries (R195). -/
def reportAfterRing (e : Env) (cover : Nat → TFault → Bool) : X Unit := do
  await (!ringPending e.sl)
  report e e.s true cover

/-- The report of the ring's late faults by an instruction whose entry would overwrite an unreported faulted one (R137, R195):
before any other fault of the instruction (R193), and before anything is read from a port. -/
def ringGate (e : Env) : X Unit :=
  if e.sl.ring.any fun r => r.seq.toNat % 64 == e.sl.seq.toNat % 64 && isFaulted r.st then do
    await (!ringPending e.sl)
    report e e.s true fun _ _ => false
  else .ok ()

/-- A dispatch ring entry with its sequence number; an entry that would overwrite a pending one waits (R137). -/
def takeRing (e : Env) (s : State) (tile spark : Bool) : X (State × BitVec 32) := do
  ringGate e
  let sl := getSlot s e.t
  let n := sl.seq
  let same := fun (r : RingEnt) => r.seq.toNat % 64 == n.toNat % 64
  if sl.ring.any fun r => same r && r.st == .pending then .error .cond
  else
    let ent : RingEnt := { seq := n, pc := e.sl.pc, st := .pending, tile := tile, spark := spark, ord := sl.ord }
    .ok (setSlot s e.t { sl with seq := n + 1, ring := (sl.ring.filter fun r => !same r) ++ [ent] }, n)

/-- The status of a ring entry. -/
def setRing (s : State) (t : Tid) (seq : BitVec 32) (st : RingSt) : State :=
  modSlot s t fun sl => { sl with ring := sl.ring.map fun r => if r.seq = seq then { r with st := st } else r }

/-- Whether every access of a thread is complete (R180, R189). -/
def allComplete (sl : Slot) : Bool := sl.infl.isEmpty && sl.vops.isEmpty && sl.defer.isEmpty

/-- Whether every prior store, send and push of a thread is complete (R183). -/
def storesDone (sl : Slot) : Bool :=
  (sl.infl.all fun i => i.kind == .vload) && (sl.vops.all fun v => v.isLd)

/-- The wait of a release (R183). -/
def release (e : Env) : X Unit := await (storesDone e.sl)

/-- The drain before a burst: ring, timelines, accesses, then the late faults (R87, R137, R189, R195). -/
def drain (e : Env) : X Unit := do
  await (!ringPending e.sl)
  await ((List.range 5).all fun i => (tlGet e.sl.tls i).completed == (tlGet e.sl.tls i).issued)
  await (allComplete e.sl)
  report e e.s true fun _ _ => true

/-- A late fault that is pending when an instruction that drains issues is taken before any other of its faults (R193). -/
def drainLate (e : Env) : X Unit := if (covered e.sl true fun _ _ => true).isEmpty then .ok () else drain e

/-- Whether an instruction is at its first issue: no phase of it is over and nothing has been delivered. -/
def firstIssue (e : Env) : Bool := e.sl.deliv.isNone && e.sl.res.isNone && e.sl.ph.isEmpty

/-- The first checks of an instruction that leaves its slot: pending late faults where it always drains, then the
light-handler state (R136, R193, R352). -/
def suspendFirst (e : Env) (late : Bool := true) : X Unit :=
  if firstIssue e then do
    if late then drainLate e
    if e.sl.handler.isSome then illegal e
  else .ok ()

/-! ### Free choices -/

/-- n free choices (R194, R377), and the state past them. -/
def freeBits (s : State) (n : Nat) : State × List Bool :=
  ({ s with freeCnt := s.freeCnt + n }, (List.range n).map fun i => Config.freeBit (s.freeCnt + i))

/-- How many of n packets of a slack come back late: with slack 0 every one is late from issue (R35, R42), else a free number
of them, since their way is no step of its own (log 72). -/
def lateOfN (s : State) (slack n : Nat) : State × Nat :=
  if slack = 0 then (s, n) else ({ s with freeCnt := s.freeCnt + 1 }, (Config.freeWord s.freeCnt).toNat % (n + 1))

/-! ### Words in memory reached by a walk (log 11) -/

/-- A fault of a walk, as a thread takes it. -/
def walkStop {α : Type} (c : BitVec 8) (va : Word) : X α := if c = 0x07 then .error (.upcall va) else trapX c va

/-- Keys of n words from a virtual address. -/
def wordKeys (s : State) (core : Option Nat) (ctx : Nat) (va : Word) (nd n : Nat) : Except (BitVec 8 × Word) (List Nat) :=
  (List.range n).mapM fun i =>
    match vkey s core ctx (va + wd (8 * i)).toNat nd with
    | .ok (k, _) => .ok k
    | .error c => .error (c, va + wd (8 * i))

/-- Words stored from a virtual address, all or none. -/
def storeWords (s : State) (core : Option Nat) (ctx : Nat) (va : Word) (ws : List Word) : Except (BitVec 8 × Word) State :=
  if va.toNat % 8 != 0 then .error (0x03, va)
  else do
    let ks ← wordKeys s core ctx va 2 ws.length
    return (ks.zip ws).foldl (fun s e => homeWrite s e.1 8 e.2.toNat) s

/-- Words read from a virtual address; a failing or marked word is a fault (R204). -/
def loadWords (s : State) (core : Option Nat) (ctx : Nat) (va : Word) (n : Nat) : Except (BitVec 8 × Word) (List Word) :=
  if va.toNat % 8 != 0 then .error (0x03, va)
  else do
    let ks ← wordKeys s core ctx va 1 n
    match ks.find? fun k => eccStatus s k 8 != 0 with
    | some k => .error (if eccStatus s k 8 = 1 then 0x18 else 0x14, va)
    | none => return ks.map fun k => wd (memRead s.mem k 8)

/-- The key of a word of a thread's record, burst, frame or bead: in scratchpad or memory, through its core's TLB (R151). -/
def wordKey (e : Env) (va : Word) (nd : Nat) : X Nat := do
  match ← place e va nd (dskOf e.sl) with
  | .mem k _ _ => return k
  | _ => trapX 0x08 va

/-- The same for a word that a home unit holds: host memory has none. -/
def homeKey (e : Env) (va : Word) (nd : Nat) : X Nat := do
  let k ← wordKey e va nd
  need (!isHost k) 0x08 va
  return k

/-- The source of a thread's records. -/
def thrSrc (e : Env) : Nat := 0x20000 + tidWord (origTid e.s e.t)

/-- The keys of n words from a virtual address, when replay and the trace rings of their homes let the thread access them. -/
def keysX (e : Env) (s : State) (va : Word) (nd cls n : Nat) : X (List Nat) := do
  need (va.toNat % 8 == 0) 0x03 va
  let ks ← (List.range n).mapM fun i => wordKey e (va + wd (8 * i)) nd
  await (lineGateOf s cls (thrSrc e) (linesOf ks))
  return ks

/-- Words stored as a precise part of an instruction, all or none, recorded by line (R190). -/
def storeX (e : Env) (s : State) (va : Word) (ws : List Word) : X State := do
  let ks ← keysX e s va 2 1 ws.length
  let s := lineNotesOf s 1 (thrSrc e) (coreUnit e.t.core) (linesOf ks) e.sl.urgent
  return (ks.zip ws).foldl (fun s e => homeWrite s e.1 8 e.2.toNat) s

/-! ### Leaving the slot (R87, R352) -/

/-- Size of the slot's burst. -/
def burstOf (sl : Slot) : Nat := burstSize (winW sl) (ksum sl)

/-- SPILL_OVERFLOW when the burst has no room (R87). -/
def roomX (e : Env) : X Unit :=
  need (e.sl.spb.toNat + burstOf e.sl ≤ e.sl.spl.toNat) 0x0D (wd (burstOf e.sl))

/-- The burst written at spb and the record at fp + 64 (R352). The record's spb lies above the burst. -/
def writeOut (e : Env) (s : State) (pc0 : Word) : X State := do
  let sl := getSlot s e.t
  let size := burstOf sl
  let s ← storeX e s sl.spb (burstWords s e.t sl)
  let sl' := { sl with spb := sl.spb + wd size }
  storeX e s (regGet s e.t sl 2 + 64) (recordOf s e.t sl' pc0)

/-- The address of the record that a suspension writes. -/
def recAddr (e : Env) : Word := regGet e.s e.t e.sl 2 + 64

/-- What the device keeps of a continuation that leaves its slot. -/
def noteCont (s : State) (t : Tid) (sl : Slot) : State :=
  match sl.uid with
  | none => s
  | some u =>
    modCont s u fun k => { k with core := t.core, priv := sl.priv, dev := sl.dev, carry := sl.carry, lateT := sl.csr.lateTval, lateDue := sl.csr.lateDue,
                                  fresh := false, bead := sl.demand, pinned := if sl.ports then some t else none }

/-- Note in the device's own tables where a continuation's record lies, and what resumes it. -/
def noteLeft (s : State) (t : Tid) (sl : Slot) (addr : Word) : State :=
  match sl.uid with
  | none => s
  | some u => noteCont (noteRec s sl.ctx addr u) t sl

/-- The slot freed; a ports thread keeps it reserved (R123). -/
def freeSlot (s : State) (t : Tid) : State :=
  modSlot s t fun sl =>
    match sl.uid with
    | some u =>
      if sl.ports then { sl with uid := none, resv := some u, wait := none, ph := [], res := none, xf := [], demand := none, deliv := none }
      else emptySlot sl
    | none => sl

end Sys2Proof.Machine
end

