-- ==== Sys2Proof/Machine/Elem.lean ====
section
/-!
DEFINITION. The exact value of an element of a page by its format (R248 to R254).
-/

namespace Sys2Proof.Machine

/-! ### Values -/

/-- A Q element with its companion entry; the limit of the zero point is `zmax` (R252). -/
def qElement (q ent zmax : Nat) : Except (BitVec 8) XV :=
  let s := decodeF fmtFP16 (ent % 65536)
  let z := ent / 65536 % 256
  if ent / 2 ^ 24 % 256 != 0 || z > zmax then .error 0x15
  else match s with
    | .num .. => .ok (plusZero (xMul (xvInt ((q : Int) - z)) s))
    | _ => .error 0x15

/-- Whether an S24N companion entry is well formed (R253). -/
def s24Ok (n ent : Nat) : Bool :=
  let ix := fun j => ent / 2 ^ (8 + 5 * j) % 32
  ent / 2 ^ 68 == 0 && (List.range 12).all fun j =>
    if j < n then ix j ≤ 23 && (j == 0 || ix (j - 1) < ix j) else ix j == 0

/-- Logical element i of an S24N group (R253). -/
def s24Element (n raw ent i : Nat) : Except (BitVec 8) XV :=
  if !s24Ok n ent then .error 0x15
  else match (List.range n).find? fun j => ent / 2 ^ (8 + 5 * j) % 32 == i with
    | some j => .ok (plusZero (xBlock (ent % 256) (xvInt (bitsInt 8 (raw / 2 ^ (8 * j))))))
    | none => .ok (.num false 0 0 false)

/-- The exact value of an element from its storage, its companion entry and its place in a group (R150). -/
def elemVal (c raw pos ent : Nat) : Except (BitVec 8) XV :=
  match fmtInt c with
  | some b => .ok (xvInt (bitsInt b raw))
  | none => match fmtFloat c with
    | some f => .ok (decodeF f (raw % 2 ^ f.w))
    | none => match bxBits c with
      | some b => .ok (plusZero (xBlock (ent % 256) (xvInt (bitsInt b raw))))
      | none => match qBits c with
        | some b => qElement (raw % 2 ^ b) ent (if b = 4 then 15 else 255)
        | none => match s24N c with
          | some n => s24Element n raw ent pos
          | none => .error 0x15

end Sys2Proof.Machine
end

