-- ==== Sys2Proof/Machine/Access.lean ====
section
/-!
DEFINITION. One access of a thread to memory, apertures included (R126 to R132, R158, R302, R303), the atomic
functions (R312).
-/

namespace Sys2Proof.Machine

/-- Whether a core's outbound buffer accepts a store's packet (R95; it holds 32 flits a network, log 12). -/
def outRoom (s : State) (core net : Nat) : Bool := flitsOf (getQ s (qk 6 (coreUnit core) 0 net)) < 32

/-! ### Atomic functions (R312) -/

/-- The new memory value of function fn on 64 bits (32 for function 10): m the old value, y the operand, x the
expected value of AMOCAS. -/
def amoNew (fn : Nat) (m y x : Word) : Word :=
  match fn with
  | 0 => m + y
  | 1 => m &&& y
  | 2 => m ||| y
  | 3 => m ^^^ y
  | 4 => if m.slt y then m else y
  | 5 => if m.slt y then y else m
  | 6 => if m.ult y then m else y
  | 7 => if m.ult y then y else m
  | 8 => y
  | 9 => if m = x then y else m
  | 10 => wd (roundTo fmtFP32 {} (plusZero (xAdd false (decodeF fmtFP32 m.toNat) (decodeF fmtFP32 (y.toNat % 2 ^ 32))))).bits
  | _ => wd (roundTo fmtFP64 {} (plusZero (xAdd false (decodeF fmtFP64 m.toNat) (decodeF fmtFP64 y.toNat)))).bits

/-- Bytes that an atomic function acts on. -/
def amoBytes (fn : Nat) : Nat := if fn = 10 || fn ≥ 12 then 4 else 8

/-- An atomic performed whole at its home (R313): the new state and the reply. -/
def amoAt (s : State) (fn k : Nat) (y x va : Word) : State × Res :=
  let n := amoBytes fn
  if fn ≥ 12 then
    let b := feGet s k
    (if fn = 12 then s else setFullAt s k 4 (fn = 13), .words [wd (b2n b)])
  else
    match eccStatus s k n with
    | 0 =>
      let m := wd (memRead s.mem k n)
      (homeWrite s k n (amoNew fn m y x).toNat, .words [m])
    | 1 => (markRead s k n, .fault 0x18 va)
    | _ => (s, .fault 0x14 va)

/-! ### Gates and records of an access performed at the issuing core (R190, R209, R210) -/

/-- Whether a local operation may be performed: its home's ring has room under stall, and replay does not hold it. -/
def localFree (e : Env) (s : State) (cls k : Nat) : Bool :=
  traceRoom s (coreFn s e.t.core) && replayOk s (coreUnit e.t.core) cls (thrSrc e) k

/-- A local operation waits while it may not be performed. -/
def localGate (e : Env) (s : State) (cls k : Nat) : X Unit := await (localFree e s cls k)

/-- The records of a local operation. -/
def localNote (e : Env) (s : State) (cls k : Nat) : State := homeNote s (coreUnit e.t.core) cls (thrSrc e) (coreUnit e.t.core) k e.sl.urgent

/-! ### Reads -/

/-- The slot waits for a reply; `acc` holds what earlier replies brought, `dst` the registers that the reply writes. -/
def sendWait (e : Env) (s : State) (acc : List Word) (dst : List Nat) (cls slack unit : Nat) (b : Body) : Stop :=
  .keep (modSlot (send s cls slack (coreUnit e.t.core) unit b) e.t fun sl =>
    { sl with wait := some .reply, ph := acc, res := none, awaits := dst, toUnit := some unit })

/-- How a reply of this thread is addressed. -/
def retOf (e : Env) (va : Word) : Ret := .thread e.t (e.sl.uid.getD 0) va

/-- The reply that the instruction's present phase has received, if any. -/
def gotReply (e : Env) (acc : List Word) : Option Res := if acc.length = e.sl.ph.length then e.sl.res else none

/-- The slot whose window holds a register file entry, with the register number; a slot that is kept reserved keeps its
window (R123, R126, R219). -/
def windowOf (s : State) (core entry : Nat) : Option (Slot × Nat) :=
  ((getCore s core).slots.find? fun x => (x.2.uid.isSome || x.2.resv.isSome) && x.2.wbase ≤ entry && entry < x.2.wbase + winW x.2).map
    fun x => (x.2, entry - x.2.wbase)

/-- The window of the same context that an aperture access may touch (R126); a register that awaits a reply makes the
access wait (R127). -/
def mapped (e : Env) (s : State) (entry : Nat) (va : Word) : X Nat :=
  match windowOf s e.t.core entry with
  | some (sl, n) =>
    if sl.ctx != e.sl.ctx then trapX 0x08 va
    else if sl.awaits.contains n || outstanding sl n then .error .cond
    else .ok n
  | none => trapX 0x08 va

/-- Bytes off to off + n − 1 of a word. -/
def partGet (v : Word) (off n : Nat) : Word := wd (v.toNat >>> (8 * off) % 2 ^ (8 * n))
/-- A word with n bytes at off replaced. -/
def partSet (v : Word) (off n : Nat) (x : Word) : Word :=
  wd (v.toNat - (v.toNat >>> (8 * off) % 2 ^ (8 * n)) * 2 ^ (8 * off) + x.toNat % 2 ^ (8 * n) * 2 ^ (8 * off))

/-- A word of the queue control words: word 0 or 1 of queue off / 16. -/
def qwGet (s : State) (core off : Nat) : Word :=
  let c := qGet s core (off / 16)
  if off / 8 % 2 = 0 then c.w0 else c.w1

/-- The key under which an access to the control words of a queue, or to the full/empty view, is recorded (log 37). -/
def qwKey (core off : Nat) : Nat := scrKey core off
def feKey (core off : Nat) : Nat := scrKey core (32 * off)

/-- Bits of the full/empty view from byte off, n bytes. -/
def feView (s : State) (core off n : Nat) : Word :=
  wd ((List.range (8 * n)).foldl (fun a i => a + b2n (feGet s (scrKey core (4 * (8 * off + i)))) * 2 ^ i) 0)

/-- A scalar read of n bytes at a place, performed at once (apertures, own scratchpad, host memory: log 4), or none
when its home is elsewhere. -/
def readNow (e : Env) (s : State) (p : Place) (n : Nat) (va : Word) : X (Option (State × Word)) :=
  match p with
  | .reg ent off => do
    let r ← mapped e s ent va
    return some (s, if r = 0 then 0 else partGet (smGet 0 (getCore s e.t.core).regs ent) off n)
  | .qw off => do
    localGate e s 0 (qwKey e.t.core off)
    return some (localNote e s 0 (qwKey e.t.core off), partGet (qwGet s e.t.core off) (off % 8) n)
  | .fe off => do
    need (32 * (off + n) ≤ scrSize e.t.core) 0x08 va
    localGate e s 0 (feKey e.t.core off)
    return some (localNote e s 0 (feKey e.t.core off), feView s e.t.core off n)
  | .mem k _ _ =>
    if isLocal e k || isHost k then
      match eccStatus s k n with
      | 0 => do
        if isHost k then return some (s, wd (memRead s.mem k n))
        localGate e s 0 k
        return some (localNote e s 0 k, wd (memRead s.mem k n))
      | 1 => .error (.trapIn (markRead s k n) 0x18 va e.sl.pc)
      | _ => trapX 0x14 va
    else return none

/-- A place that an instruction other than a load or store may name: the register-file aperture is none (R126). -/
def noReg (p : Place) (va : Word) : X Unit :=
  match p with
  | .reg _ _ => trapX 0x08 va
  | _ => .ok ()

/-- One read of n bytes as a precise phase of an instruction: the value is put at the end of `acc`. Only the load that `ld`
marks may name the register-file aperture (R126). -/
def phaseRead (e : Env) (s : State) (acc : List Word) (dst : List Nat) (va : Word) (n slack : Nat) (ld : Bool := false) :
    X (State × List Word) :=
  match e.sl.ph[acc.length]? with
  | some v => .ok (s, acc ++ [v])
  | none =>
    match gotReply e acc with
    | some (.words l) => .ok (s, acc ++ [l.headD 0])
    | some (.fault c v) => trapX c v
    | some _ => .error .cond
    | none => do
      let p ← place e va 1 slack
      if !ld then noReg p va
      match ← readNow e s p n va with
      | some (s, v) => return (s, acc ++ [v])
      | none =>
        match p with
        | .mem k _ _ => .error (sendWait e s acc dst 0 slack ((homeOf k).getD 0) (.load k n (retOf e va)))
        | _ => .error .cond

/-! ### Stores -/

/-- An identifier for an access that is sent: above every outstanding one. -/
def nextAcc (sl : Slot) : Nat := sl.infl.foldl (fun m i => max m i.id) 0 + 1

/-- The bytes of a store. -/
def storeCells (k n : Nat) (v : Word) : List Host.Cell := (List.range n).map fun i => (k + i, BitVec.ofNat 8 (v.toNat >>> (8 * i)))

/-- A store to the full/empty view: the bits as data, then the retest (R130, R132). -/
def feStore (s : State) (core off n : Nat) (v : Word) : State :=
  retest ((List.range (8 * n)).foldl (fun s i => fePut s (scrKey core (4 * (8 * off + i))) (bitAt v i)) s) core

/-- A store to a queue control word; a word 0 that QCFG would refuse is left disabled (R133). -/
def qwStore (s : State) (core off n : Nat) (v : Word) : State :=
  let w := partSet (qwGet s core off) (off % 8) n v
  let c := qGet s core (off / 16)
  qSet s core (off / 16)
    (if off / 8 % 2 = 0 then { c with w0 := if qOk w then w else w &&& ~~~(wd (2 ^ 38)) } else { c with w1 := w })

/-- Stores, sends and vector stores in flight, a vector store counted once (R315). -/
def storesInFlight (sl : Slot) : Nat :=
  (sl.infl.filter fun i => i.op == 0 && i.kind != .vload).length + (sl.vops.filter fun v => !v.isLd).length

/-- At most 1,023 stores in flight, and room in the outbound buffer (R95, R315). -/
def storeRoom (e : Env) : X Unit := await (storesInFlight e.sl < 1023 && outRoom e.s e.t.core 0)

/-- The checks of a scalar store's place that come before its data register is read: the window that the register-file
aperture names, and the bound of the full/empty view (R126, R301). -/
def storeChk (e : Env) (s : State) (p : Place) (n : Nat) (va : Word) : X Unit :=
  match p with
  | .reg ent _ => do
    let _ ← mapped e s ent va
    return ()
  | .fe off => need (32 * (off + n) ≤ scrSize e.t.core) 0x08 va
  | _ => .ok ()

/-- A scalar store of n bytes at a place (R303): at once at the issuing core, in its apertures and in host memory; a
packet elsewhere. -/
def storeAt (e : Env) (s : State) (p : Place) (n : Nat) (va v : Word) (slack : Nat) : X State :=
  match p with
  | .reg ent off => do
    let r ← mapped e s ent va
    return if r = 0 then s else
      modCore s e.t.core fun c => { c with regs := smMod 0 c.regs ent fun w => partSet w off n v }
  | .qw off => do
    localGate e s 1 (qwKey e.t.core off)
    return qwStore (localNote e s 1 (qwKey e.t.core off)) e.t.core off n v
  | .fe off => do
    need (32 * (off + n) ≤ scrSize e.t.core) 0x08 va
    localGate e s 1 (feKey e.t.core off)
    return feStore (localNote e s 1 (feKey e.t.core off)) e.t.core off n v
  | .mem k _ _ =>
    if isLocal e k then do
      localGate e s 1 k
      return homeWrite (localNote e s 1 k) k n v.toNat
    else if isHost k then
      let (s, num) := takeTicket s e.t 4
      return completeTicket (homeWrite s k n v.toNat) e.t 4 num none
    else do
      storeRoom e
      let (s, num) := takeTicket s e.t 4
      let id := nextAcc (getSlot s e.t)
      let h := (homeOf k).getD 0
      let s := modSlot s e.t fun sl => { sl with infl := sl.infl ++ [{ id := id, kind := .store, home := h, tick := some (4, num) }] }
      return send s 1 slack (coreUnit e.t.core) h (.store (storeCells k n v) (.access e.t (e.sl.uid.getD 0) id 0 va))

/-- The alignment check of an address (R302). -/
def aligned (va : Word) (n : Nat) : X Unit := need (va.toNat % n == 0) 0x03 va

/-! ### The index remap stage (R158) -/

/-- The remapped index; table mode reads its entry as a phase of the instruction. -/
def remapIdx (e : Env) (s : State) (acc : List Word) (dst : List Nat) (mode : Nat) (x : Word) : X (State × List Word × Word) :=
  let c := e.sl.csr
  match mode with
  | 0 => return (s, acc, x)
  | 1 => return (s, acc, if c.remap0 = 0 then x else x % c.remap0)
  | 2 =>
    let h := (x ^^^ c.remap1) * 0x9E3779B97F4A7C15
    let i := h ^^^ (h >>> 32)
    return (s, acc, if c.remap0 = 0 then i else i % c.remap0)
  | _ => do
    need (c.remap2.toNat % 4 == 0) 0x03 c.remap2
    need (x.ult c.remap2n) 0x08 x
    let (s, acc) ← phaseRead e s acc dst (c.remap2 + 4 * x) 4 (dskOf e.sl)
    return (s, acc, acc.getLastD 0)

end Sys2Proof.Machine
end

