-- ==== Sys2Proof/Machine/Scalar.lean ====
section
/-!
DEFINITION. Integer operations, compares, predicates and selects (R280 to R290), and their 16-bit forms (R266, R299).
-/

namespace Sys2Proof.Machine

/-! ### Integer functions of two operands (R280 to R282) -/

/-- sh of R280. -/
def shAmt (y : Word) : Nat := fld y 5 0
def rolW (x : Word) (n : Nat) : Word := if n = 0 then x else (x <<< n) ||| (x >>> (64 - n))
def rorW (x : Word) (n : Nat) : Word := if n = 0 then x else (x >>> n) ||| (x <<< (64 - n))
def minS (x y : Word) : Word := if x.slt y then x else y
def maxS (x y : Word) : Word := if x.slt y then y else x
def minU (x y : Word) : Word := if x.ult y then x else y
def maxU (x y : Word) : Word := if x.ult y then y else x
/-- Bits [127:64] of a product of 128-bit extensions. -/
def highW (x y : BitVec 128) : Word := (x * y).extractLsb' 64 64
def mulhS (x y : Word) : Word := highW (x.signExtend 128) (y.signExtend 128)
def mulhU (x y : Word) : Word := highW (x.setWidth 128) (y.setWidth 128)
def mulhSU (x y : Word) : Word := highW (x.signExtend 128) (y.setWidth 128)
/-- Quotient and remainder (R281). -/
def divS (x y : Word) : Word :=
  if y = 0 then BitVec.allOnes 64
  else if x = 0x8000000000000000 ∧ y = BitVec.allOnes 64 then x else wdInt (x.toInt.tdiv y.toInt)
def remS (x y : Word) : Word :=
  if y = 0 then x
  else if x = 0x8000000000000000 ∧ y = BitVec.allOnes 64 then 0 else wdInt (x.toInt.tmod y.toInt)
def divU (x y : Word) : Word := if y = 0 then BitVec.allOnes 64 else x / y
def remU (x y : Word) : Word := if y = 0 then x else x % y
/-- The field of R282: position and length. -/
def bfPos (y : Word) : Nat := fld y 5 0
def bfLen (y : Word) : Nat := if fld y 13 8 = 0 then 64 else fld y 13 8
def bfGet (x y : Word) : Word := wd (x.toNat >>> bfPos y % 2 ^ bfLen y)
def bfx (x y : Word) : Word := sextN (bfLen y % 64) (bfGet x y)
/-- g with the field replaced by the low bits of x. -/
def bfi (g x y : Word) : Word :=
  let m : Word := wd ((2 ^ bfLen y - 1) * 2 ^ bfPos y)
  (g &&& ~~~m) ||| ((x <<< bfPos y) &&& m)
/-- HASH (R282). -/
def hashW (x y : Word) : Word :=
  let h := (x ^^^ y) * 0x9E3779B97F4A7C15
  h ^^^ (h >>> 32)

/-! ### Operand forms -/

/-- g[d] := f(g[a], g[b]). -/
def alu2 (len : Word) (enc : BitVec 32) (d a b : Nat) (s : State) (f : Word → Word → Word) : Host.Outcome State Fault Refusal :=
  thr len enc s fun e => do
    chk e [a, b] [d] []
    let (s, x) ← readR e e.s a
    let (s, y) ← readR e s b
    let s ← writeR e s d (f x y)
    return done e s

/-- g[d] := f(g[a]). -/
def alu1 (len : Word) (enc : BitVec 32) (d a : Nat) (s : State) (f : Word → Word) : Host.Outcome State Fault Refusal :=
  thr len enc s fun e => do
    chk e [a] [d] []
    let (s, x) ← readR e e.s a
    let s ← writeR e s d (f x)
    return done e s

/-- g[d] := f(g[d], g[a], g[b]): d is also a source. -/
def alu3 (len : Word) (enc : BitVec 32) (d a b : Nat) (s : State) (f : Word → Word → Word → Word) : Host.Outcome State Fault Refusal :=
  thr len enc s fun e => do
    chk e [a, b, d] [d] []
    let (s, x) ← readR e e.s a
    let (s, y) ← readR e s b
    let (s, g) ← readR e s d
    let s ← writeR e s d (f g x y)
    return done e s

/-- g[d] := a value that no register gives. -/
def alu0 (len : Word) (enc : BitVec 32) (d : Nat) (s : State) (v : Word) : Host.Outcome State Fault Refusal :=
  thr len enc s fun e => do
    chk e [] [d] []
    let s ← writeR e e.s d v
    return done e s

/-- k[d] := the truth of c(g[a], g[b]), in every bit (R287). -/
def cmp2 (enc : BitVec 32) (k a b : Nat) (s : State) (c : Word → Word → Bool) : Host.Outcome State Fault Refusal :=
  thr 4 enc s fun e => do
    chk e [a, b] [] []
    let (s, x) ← readR e e.s a
    let (s, y) ← readR e s b
    return done e (predSet s e.t k (allOnes (c x y)))

/-- k[d] := the truth of c(g[a]). -/
def cmp1 (enc : BitVec 32) (k a : Nat) (s : State) (c : Word → Bool) : Host.Outcome State Fault Refusal :=
  thr 4 enc s fun e => do
    chk e [a] [] []
    let (s, x) ← readR e e.s a
    return done e (predSet s e.t k (allOnes (c x)))

/-- k[d] := f(k[a], k[b]) (R289). -/
def kop (enc : BitVec 32) (d a b : Nat) (s : State) (f : Word → Word → Word) : Host.Outcome State Fault Refusal :=
  thr 4 enc s fun e => return done e (predSet e.s e.t d (f (predGet e.sl a) (predGet e.sl b)))

/-- An operation of the iterative unit (R279): the sources are read now, the result is written by the unit. -/
def iterIssue (e : Env) (s : State) (d : Nat) (v : Word) (flags : BitVec 6) (seed : BitVec 32) : State :=
  let s := modCore s e.t.core fun c => { c with
    iter := c.iter ++ [{ slot := e.t.slot, uid := e.sl.uid.getD 0, d := d, v := v, flags := flags, seed := seed }] }
  modSlot s e.t fun sl => { sl with wait := some .iter, awaits := [d] }

/-- An integer division (R279, R281). -/
def divOp (enc : BitVec 32) (d a b : Nat) (s : State) (f : Word → Word → Word) : Host.Outcome State Fault Refusal :=
  thr 4 enc s fun e => do
    chk e [a, b] [d] []
    let (s, x) ← readR e e.s a
    let (s, y) ← readR e s b
    return iterIssue e s d (f x y) 0 e.sl.csr.fseed

/-! ### Meanings -/

/-- ADD (R280). -/
def execAdd (d a b : BitVec 7) (s : State) : Host.Outcome State Fault Refusal :=
  alu2 4 (Enc.add d a b) d.toNat a.toNat b.toNat s fun x y => x + y

/-- SUB (R280). -/
def execSub (d a b : BitVec 7) (s : State) : Host.Outcome State Fault Refusal :=
  alu2 4 (Enc.sub d a b) d.toNat a.toNat b.toNat s fun x y => x - y

/-- AND (R280). -/
def execAnd (d a b : BitVec 7) (s : State) : Host.Outcome State Fault Refusal :=
  alu2 4 (Enc.and d a b) d.toNat a.toNat b.toNat s fun x y => x &&& y

/-- OR (R280). -/
def execOr (d a b : BitVec 7) (s : State) : Host.Outcome State Fault Refusal :=
  alu2 4 (Enc.or d a b) d.toNat a.toNat b.toNat s fun x y => x ||| y

/-- XOR (R280). -/
def execXor (d a b : BitVec 7) (s : State) : Host.Outcome State Fault Refusal :=
  alu2 4 (Enc.xor d a b) d.toNat a.toNat b.toNat s fun x y => x ^^^ y

/-- ANDN (R280). -/
def execAndn (d a b : BitVec 7) (s : State) : Host.Outcome State Fault Refusal :=
  alu2 4 (Enc.andn d a b) d.toNat a.toNat b.toNat s fun x y => x &&& ~~~y

/-- ORN (R280). -/
def execOrn (d a b : BitVec 7) (s : State) : Host.Outcome State Fault Refusal :=
  alu2 4 (Enc.orn d a b) d.toNat a.toNat b.toNat s fun x y => x ||| ~~~y

/-- XNOR (R280). -/
def execXnor (d a b : BitVec 7) (s : State) : Host.Outcome State Fault Refusal :=
  alu2 4 (Enc.xnor d a b) d.toNat a.toNat b.toNat s fun x y => ~~~(x ^^^ y)

/-- SLL (R280). -/
def execSll (d a b : BitVec 7) (s : State) : Host.Outcome State Fault Refusal :=
  alu2 4 (Enc.sll d a b) d.toNat a.toNat b.toNat s fun x y => x <<< shAmt y

/-- SRL (R280). -/
def execSrl (d a b : BitVec 7) (s : State) : Host.Outcome State Fault Refusal :=
  alu2 4 (Enc.srl d a b) d.toNat a.toNat b.toNat s fun x y => x >>> shAmt y

/-- SRA (R280). -/
def execSra (d a b : BitVec 7) (s : State) : Host.Outcome State Fault Refusal :=
  alu2 4 (Enc.sra d a b) d.toNat a.toNat b.toNat s fun x y => x.sshiftRight (shAmt y)

/-- ROL (R280). -/
def execRol (d a b : BitVec 7) (s : State) : Host.Outcome State Fault Refusal :=
  alu2 4 (Enc.rol d a b) d.toNat a.toNat b.toNat s fun x y => rolW x (shAmt y)

/-- ROR (R280). -/
def execRor (d a b : BitVec 7) (s : State) : Host.Outcome State Fault Refusal :=
  alu2 4 (Enc.ror d a b) d.toNat a.toNat b.toNat s fun x y => rorW x (shAmt y)

/-- MIN (R280). -/
def execMin (d a b : BitVec 7) (s : State) : Host.Outcome State Fault Refusal :=
  alu2 4 (Enc.min d a b) d.toNat a.toNat b.toNat s fun x y => minS x y

/-- MAX (R280). -/
def execMax (d a b : BitVec 7) (s : State) : Host.Outcome State Fault Refusal :=
  alu2 4 (Enc.max d a b) d.toNat a.toNat b.toNat s fun x y => maxS x y

/-- MINN (R280). -/
def execMinn (d a b : BitVec 7) (s : State) : Host.Outcome State Fault Refusal :=
  alu2 4 (Enc.minn d a b) d.toNat a.toNat b.toNat s fun x y => minU x y

/-- MAXN (R280). -/
def execMaxn (d a b : BitVec 7) (s : State) : Host.Outcome State Fault Refusal :=
  alu2 4 (Enc.maxn d a b) d.toNat a.toNat b.toNat s fun x y => maxU x y

/-- MUL (R280). -/
def execMul (d a b : BitVec 7) (s : State) : Host.Outcome State Fault Refusal :=
  alu2 4 (Enc.mul d a b) d.toNat a.toNat b.toNat s fun x y => x * y

/-- MULH (R280). -/
def execMulh (d a b : BitVec 7) (s : State) : Host.Outcome State Fault Refusal :=
  alu2 4 (Enc.mulh d a b) d.toNat a.toNat b.toNat s fun x y => mulhS x y

/-- MULHN (R280). -/
def execMulhn (d a b : BitVec 7) (s : State) : Host.Outcome State Fault Refusal :=
  alu2 4 (Enc.mulhn d a b) d.toNat a.toNat b.toNat s fun x y => mulhU x y

/-- MULHSN (R280). -/
def execMulhsn (d a b : BitVec 7) (s : State) : Host.Outcome State Fault Refusal :=
  alu2 4 (Enc.mulhsn d a b) d.toNat a.toNat b.toNat s fun x y => mulhSU x y

/-- SEXT (R280). -/
def execSext (d a b : BitVec 7) (s : State) : Host.Outcome State Fault Refusal :=
  alu2 4 (Enc.sext d a b) d.toNat a.toNat b.toNat s fun x y => sextN (fld y 5 0) x

/-- ZEXT (R280). -/
def execZext (d a b : BitVec 7) (s : State) : Host.Outcome State Fault Refusal :=
  alu2 4 (Enc.zext d a b) d.toNat a.toNat b.toNat s fun x y => zextN (fld y 5 0) x

/-- ADDW (R280). -/
def execAddw (d a b : BitVec 7) (s : State) : Host.Outcome State Fault Refusal :=
  alu2 4 (Enc.addw d a b) d.toNat a.toNat b.toNat s fun x y => sextN 32 (x + y)

/-- SUBW (R280). -/
def execSubw (d a b : BitVec 7) (s : State) : Host.Outcome State Fault Refusal :=
  alu2 4 (Enc.subw d a b) d.toNat a.toNat b.toNat s fun x y => sextN 32 (x - y)

/-- BFX (R282). -/
def execBfx (d a b : BitVec 7) (s : State) : Host.Outcome State Fault Refusal :=
  alu2 4 (Enc.bfx d a b) d.toNat a.toNat b.toNat s fun x y => bfx x y

/-- BFXN (R282). -/
def execBfxn (d a b : BitVec 7) (s : State) : Host.Outcome State Fault Refusal :=
  alu2 4 (Enc.bfxn d a b) d.toNat a.toNat b.toNat s fun x y => bfGet x y

/-- SHADD1 (R282). -/
def execShadd1 (d a b : BitVec 7) (s : State) : Host.Outcome State Fault Refusal :=
  alu2 4 (Enc.shadd1 d a b) d.toNat a.toNat b.toNat s fun x y => (x <<< 1) + y

/-- SHADD2 (R282). -/
def execShadd2 (d a b : BitVec 7) (s : State) : Host.Outcome State Fault Refusal :=
  alu2 4 (Enc.shadd2 d a b) d.toNat a.toNat b.toNat s fun x y => (x <<< 2) + y

/-- SHADD3 (R282). -/
def execShadd3 (d a b : BitVec 7) (s : State) : Host.Outcome State Fault Refusal :=
  alu2 4 (Enc.shadd3 d a b) d.toNat a.toNat b.toNat s fun x y => (x <<< 3) + y

/-- HASH (R282). -/
def execHash (d a b : BitVec 7) (s : State) : Host.Outcome State Fault Refusal :=
  alu2 4 (Enc.hash d a b) d.toNat a.toNat b.toNat s fun x y => hashW x y

/-- CLZ (R280). -/
def execClz (d a : BitVec 7) (s : State) : Host.Outcome State Fault Refusal :=
  alu1 4 (Enc.clz d a) d.toNat a.toNat s fun x => wd (clzN 64 x.toNat)

/-- CTZ (R280). -/
def execCtz (d a : BitVec 7) (s : State) : Host.Outcome State Fault Refusal :=
  alu1 4 (Enc.ctz d a) d.toNat a.toNat s fun x => wd (ctzN 64 x.toNat)

/-- POPC (R280). -/
def execPopc (d a : BitVec 7) (s : State) : Host.Outcome State Fault Refusal :=
  alu1 4 (Enc.popc d a) d.toNat a.toNat s fun x => wd (popCount 64 x.toNat)

/-- DIV (R281). -/
def execDiv (d a b : BitVec 7) (s : State) : Host.Outcome State Fault Refusal :=
  divOp (Enc.div d a b) d.toNat a.toNat b.toNat s divS

/-- DIVN (R281). -/
def execDivn (d a b : BitVec 7) (s : State) : Host.Outcome State Fault Refusal :=
  divOp (Enc.divn d a b) d.toNat a.toNat b.toNat s divU

/-- REM (R281). -/
def execRem (d a b : BitVec 7) (s : State) : Host.Outcome State Fault Refusal :=
  divOp (Enc.rem d a b) d.toNat a.toNat b.toNat s remS

/-- REMN (R281). -/
def execRemn (d a b : BitVec 7) (s : State) : Host.Outcome State Fault Refusal :=
  divOp (Enc.remn d a b) d.toNat a.toNat b.toNat s remU

/-- BFI (R282). -/
def execBfi (d a b : BitVec 7) (s : State) : Host.Outcome State Fault Refusal :=
  alu3 4 (Enc.bfi d a b) d.toNat a.toNat b.toNat s bfi

/-- ADDI (R285). -/
def execAddi (d a : BitVec 7) (i : BitVec 11) (s : State) : Host.Outcome State Fault Refusal :=
  alu1 4 (Enc.addi d a i) d.toNat a.toNat s fun x => x + sx i

/-- ANDI (R285). -/
def execAndi (d a : BitVec 7) (i : BitVec 11) (s : State) : Host.Outcome State Fault Refusal :=
  alu1 4 (Enc.andi d a i) d.toNat a.toNat s fun x => x &&& sx i

/-- ORI (R285). -/
def execOri (d a : BitVec 7) (i : BitVec 11) (s : State) : Host.Outcome State Fault Refusal :=
  alu1 4 (Enc.ori d a i) d.toNat a.toNat s fun x => x ||| sx i

/-- XORI (R285). -/
def execXori (d a : BitVec 7) (i : BitVec 11) (s : State) : Host.Outcome State Fault Refusal :=
  alu1 4 (Enc.xori d a i) d.toNat a.toNat s fun x => x ^^^ sx i

/-- MULI (R285). -/
def execMuli (d a : BitVec 7) (i : BitVec 11) (s : State) : Host.Outcome State Fault Refusal :=
  alu1 4 (Enc.muli d a i) d.toNat a.toNat s fun x => x * sx i

/-- SLLI (R285). -/
def execSlli (d a : BitVec 7) (s6 : BitVec 6) (s : State) : Host.Outcome State Fault Refusal :=
  alu1 4 (Enc.slli d a s6) d.toNat a.toNat s fun x => x <<< s6.toNat

/-- SRLI (R285). -/
def execSrli (d a : BitVec 7) (s6 : BitVec 6) (s : State) : Host.Outcome State Fault Refusal :=
  alu1 4 (Enc.srli d a s6) d.toNat a.toNat s fun x => x >>> s6.toNat

/-- SRAI (R285). -/
def execSrai (d a : BitVec 7) (s6 : BitVec 6) (s : State) : Host.Outcome State Fault Refusal :=
  alu1 4 (Enc.srai d a s6) d.toNat a.toNat s fun x => x.sshiftRight s6.toNat

/-- ROLI (R285). -/
def execRoli (d a : BitVec 7) (s6 : BitVec 6) (s : State) : Host.Outcome State Fault Refusal :=
  alu1 4 (Enc.roli d a s6) d.toNat a.toNat s fun x => rolW x s6.toNat

/-- LI (R286). -/
def execLi (d : BitVec 7) (i : BitVec 18) (s : State) : Host.Outcome State Fault Refusal :=
  alu0 4 (Enc.li d i) d.toNat s (sx i)

/-- LIS (R286). -/
def execLis (d : BitVec 7) (i : BitVec 18) (s : State) : Host.Outcome State Fault Refusal :=
  thr 4 (Enc.lis d i) s fun e => do
    chk e [d.toNat] [d.toNat] []
    let (s, g) ← readR e e.s d.toNat
    let s ← writeR e s d.toNat ((g <<< 18) ||| i.setWidth 64)
    return done e s

/-- ADDPC (R286). -/
def execAddpc (d : BitVec 7) (i : BitVec 11) (s : State) : Host.Outcome State Fault Refusal :=
  alu0 4 (Enc.addpc d i) d.toNat s ((getSlot s s.cur).pc + sx i * 16)

/-- CMPEQ (R287). -/
def execCmpeq (k : BitVec 3) (a b : BitVec 7) (s : State) : Host.Outcome State Fault Refusal :=
  cmp2 (Enc.cmpeq k a b) k.toNat a.toNat b.toNat s (cmpCond 0)

/-- CMPNE (R287). -/
def execCmpne (k : BitVec 3) (a b : BitVec 7) (s : State) : Host.Outcome State Fault Refusal :=
  cmp2 (Enc.cmpne k a b) k.toNat a.toNat b.toNat s (cmpCond 1)

/-- CMPLT (R287). -/
def execCmplt (k : BitVec 3) (a b : BitVec 7) (s : State) : Host.Outcome State Fault Refusal :=
  cmp2 (Enc.cmplt k a b) k.toNat a.toNat b.toNat s (cmpCond 2)

/-- CMPGE (R287). -/
def execCmpge (k : BitVec 3) (a b : BitVec 7) (s : State) : Host.Outcome State Fault Refusal :=
  cmp2 (Enc.cmpge k a b) k.toNat a.toNat b.toNat s (cmpCond 3)

/-- CMPLTN (R287). -/
def execCmpltn (k : BitVec 3) (a b : BitVec 7) (s : State) : Host.Outcome State Fault Refusal :=
  cmp2 (Enc.cmpltn k a b) k.toNat a.toNat b.toNat s (cmpCond 4)

/-- CMPGEN (R287). -/
def execCmpgen (k : BitVec 3) (a b : BitVec 7) (s : State) : Host.Outcome State Fault Refusal :=
  cmp2 (Enc.cmpgen k a b) k.toNat a.toNat b.toNat s (cmpCond 5)

/-- BTST (R287). -/
def execBtst (k : BitVec 3) (a b : BitVec 7) (s : State) : Host.Outcome State Fault Refusal :=
  cmp2 (Enc.btst k a b) k.toNat a.toNat b.toNat s (cmpCond 6)

/-- CMPEQI (R287). -/
def execCmpeqi (k : BitVec 3) (a : BitVec 7) (i : BitVec 11) (s : State) : Host.Outcome State Fault Refusal :=
  cmp1 (Enc.cmpeqi k a i) k.toNat a.toNat s fun x => cmpCond 0 x (sx i)

/-- CMPNEI (R287). -/
def execCmpnei (k : BitVec 3) (a : BitVec 7) (i : BitVec 11) (s : State) : Host.Outcome State Fault Refusal :=
  cmp1 (Enc.cmpnei k a i) k.toNat a.toNat s fun x => cmpCond 1 x (sx i)

/-- CMPLTI (R287). -/
def execCmplti (k : BitVec 3) (a : BitVec 7) (i : BitVec 11) (s : State) : Host.Outcome State Fault Refusal :=
  cmp1 (Enc.cmplti k a i) k.toNat a.toNat s fun x => cmpCond 2 x (sx i)

/-- CMPGEI (R287). -/
def execCmpgei (k : BitVec 3) (a : BitVec 7) (i : BitVec 11) (s : State) : Host.Outcome State Fault Refusal :=
  cmp1 (Enc.cmpgei k a i) k.toNat a.toNat s fun x => cmpCond 3 x (sx i)

/-- CMPLTNI (R287). -/
def execCmpltni (k : BitVec 3) (a : BitVec 7) (i : BitVec 11) (s : State) : Host.Outcome State Fault Refusal :=
  cmp1 (Enc.cmpltni k a i) k.toNat a.toNat s fun x => cmpCond 4 x (sx i)

/-- CMPGENI (R287). -/
def execCmpgeni (k : BitVec 3) (a : BitVec 7) (i : BitVec 11) (s : State) : Host.Outcome State Fault Refusal :=
  cmp1 (Enc.cmpgeni k a i) k.toNat a.toNat s fun x => cmpCond 5 x (sx i)

/-- BTSTI (R287). -/
def execBtsti (k : BitVec 3) (a : BitVec 7) (i : BitVec 6) (s : State) : Host.Outcome State Fault Refusal :=
  cmp1 (Enc.btsti k a i) k.toNat a.toNat s fun x => cmpCond 6 x (i.setWidth 64)

/-- SEL (R288). -/
def execSel (d a b : BitVec 7) (k : BitVec 3) (n : BitVec 1) (s : State) : Host.Outcome State Fault Refusal :=
  thr 4 (Enc.sel d a b k n) s fun e => do
    chk e [a.toNat, b.toNat] [d.toNat] []
    let (s, x) ← readR e e.s a.toNat
    let (s, y) ← readR e s b.toNat
    let s ← writeR e s d.toNat (if (predGet e.sl k.toNat != 0) != (n == 1) then x else y)
    return done e s

/-- KAND (R289). -/
def execKand (d a b : BitVec 3) (s : State) : Host.Outcome State Fault Refusal :=
  kop (Enc.kand d a b) d.toNat a.toNat b.toNat s fun p q => p &&& q

/-- KOR (R289). -/
def execKor (d a b : BitVec 3) (s : State) : Host.Outcome State Fault Refusal :=
  kop (Enc.kor d a b) d.toNat a.toNat b.toNat s fun p q => p ||| q

/-- KXOR (R289). -/
def execKxor (d a b : BitVec 3) (s : State) : Host.Outcome State Fault Refusal :=
  kop (Enc.kxor d a b) d.toNat a.toNat b.toNat s fun p q => p ^^^ q

/-- KANDN (R289). -/
def execKandn (d a b : BitVec 3) (s : State) : Host.Outcome State Fault Refusal :=
  kop (Enc.kandn d a b) d.toNat a.toNat b.toNat s fun p q => p &&& ~~~q

/-- KNOT (R289). -/
def execKnot (d a : BitVec 3) (s : State) : Host.Outcome State Fault Refusal :=
  kop (Enc.knot d a) d.toNat a.toNat 0 s fun p _ => ~~~p

/-- KMOV (R289). -/
def execKmov (d a : BitVec 3) (s : State) : Host.Outcome State Fault Refusal :=
  kop (Enc.kmov d a) d.toNat a.toNat 0 s fun p _ => p

/-- KPOPC (R289). -/
def execKpopc (d : BitVec 7) (a : BitVec 3) (s : State) : Host.Outcome State Fault Refusal :=
  thr 4 (Enc.kpopc d a) s fun e => do
    chk e [] [d.toNat] []
    let p := predGet e.sl a.toNat
    let s ← writeR e e.s d.toNat (wd (popCount 64 p.toNat))
    return done e s

/-- KFIRST (R289). -/
def execKfirst (d : BitVec 7) (a : BitVec 3) (s : State) : Host.Outcome State Fault Refusal :=
  thr 4 (Enc.kfirst d a) s fun e => do
    chk e [] [d.toNat] []
    let p := predGet e.sl a.toNat
    let s ← writeR e e.s d.toNat (wd (ctzN 64 p.toNat))
    return done e s

/-- KTOG (R289). -/
def execKtog (d : BitVec 7) (a : BitVec 3) (s : State) : Host.Outcome State Fault Refusal :=
  thr 4 (Enc.ktog d a) s fun e => do
    chk e [] [d.toNat] []
    let p := predGet e.sl a.toNat
    let s ← writeR e e.s d.toNat (p)
    return done e s

/-- KFROMG (R289). -/
def execKfromg (d : BitVec 3) (a : BitVec 7) (s : State) : Host.Outcome State Fault Refusal :=
  thr 4 (Enc.kfromg d a) s fun e => do
    chk e [a.toNat] [] []
    let (s, x) ← readR e e.s a.toNat
    return done e (predSet s e.t d.toNat x)

/-- ADD_FH (R266, R299). -/
def execAddFh (d a : BitVec 5) (s : State) : Host.Outcome State Fault Refusal :=
  alu2 2 (Enc.addFh d a) d.toNat d.toNat a.toNat s fun x y => x + y

/-- SUB_FH (R266, R299). -/
def execSubFh (d a : BitVec 5) (s : State) : Host.Outcome State Fault Refusal :=
  alu2 2 (Enc.subFh d a) d.toNat d.toNat a.toNat s fun x y => x - y

/-- MUL_FH (R266, R299). -/
def execMulFh (d a : BitVec 5) (s : State) : Host.Outcome State Fault Refusal :=
  alu2 2 (Enc.mulFh d a) d.toNat d.toNat a.toNat s fun x y => x * y

/-- AND_FH (R266, R299). -/
def execAndFh (d a : BitVec 5) (s : State) : Host.Outcome State Fault Refusal :=
  alu2 2 (Enc.andFh d a) d.toNat d.toNat a.toNat s fun x y => x &&& y

/-- OR_FH (R266, R299). -/
def execOrFh (d a : BitVec 5) (s : State) : Host.Outcome State Fault Refusal :=
  alu2 2 (Enc.orFh d a) d.toNat d.toNat a.toNat s fun x y => x ||| y

/-- XOR_FH (R266, R299). -/
def execXorFh (d a : BitVec 5) (s : State) : Host.Outcome State Fault Refusal :=
  alu2 2 (Enc.xorFh d a) d.toNat d.toNat a.toNat s fun x y => x ^^^ y

/-- SLL_FH (R266, R299). -/
def execSllFh (d a : BitVec 5) (s : State) : Host.Outcome State Fault Refusal :=
  alu2 2 (Enc.sllFh d a) d.toNat d.toNat a.toNat s fun x y => x <<< shAmt y

/-- SRL_FH (R266, R299). -/
def execSrlFh (d a : BitVec 5) (s : State) : Host.Outcome State Fault Refusal :=
  alu2 2 (Enc.srlFh d a) d.toNat d.toNat a.toNat s fun x y => x >>> shAmt y

/-- SRA_FH (R266, R299). -/
def execSraFh (d a : BitVec 5) (s : State) : Host.Outcome State Fault Refusal :=
  alu2 2 (Enc.sraFh d a) d.toNat d.toNat a.toNat s fun x y => x.sshiftRight (shAmt y)

/-- MIN_FH (R266, R299). -/
def execMinFh (d a : BitVec 5) (s : State) : Host.Outcome State Fault Refusal :=
  alu2 2 (Enc.minFh d a) d.toNat d.toNat a.toNat s fun x y => minS x y

/-- MAX_FH (R266, R299). -/
def execMaxFh (d a : BitVec 5) (s : State) : Host.Outcome State Fault Refusal :=
  alu2 2 (Enc.maxFh d a) d.toNat d.toNat a.toNat s fun x y => maxS x y

/-- MOV_FH (R266, R299). -/
def execMovFh (d a : BitVec 5) (s : State) : Host.Outcome State Fault Refusal :=
  alu1 2 (Enc.movFh d a) d.toNat a.toNat s fun x => x

/-- ADDI_FH (R266, R299). -/
def execAddiFh (d i : BitVec 5) (s : State) : Host.Outcome State Fault Refusal :=
  alu1 2 (Enc.addiFh d i) d.toNat d.toNat s fun x => x + sx i

/-- SLLI_FH (R266, R299). -/
def execSlliFh (d s5 : BitVec 5) (s : State) : Host.Outcome State Fault Refusal :=
  alu1 2 (Enc.slliFh d s5) d.toNat d.toNat s fun x => x <<< s5.toNat

end Sys2Proof.Machine
end

