-- ==== Sys2Proof/Machine/Memory.lean ====
section
/-!
DEFINITION. Scalar memory accesses, synchronising accesses, atomics, fences and waits, barriers, messages and queues (R301 to R324), and RMAP (R283).
-/

namespace Sys2Proof.Machine

/-- A base register, which is no port (R301). -/
def baseReg (e : Env) (n : Nat) : Word := regGet e.s e.t e.sl n

/-- A base or index value of an instruction of several phases, at place i of `ph`: read at issue, and no later write of
the register is seen (R127). -/
def latch (e : Env) (i : Nat) (v : Word) : Word := (e.sl.ph[i]?).getD v

/-- A load of n bytes (R305): complete before the next issue. `acc` begins with what the issue read. -/
def loadTo (e : Env) (t : Nat) (ea : Word) (n slack : Nat) (ext : Word → Word) (s : State) (acc : List Word) : X State := do
  aligned ea n
  let (s, acc) ← phaseRead e s acc [t] ea n slack true
  let s ← writeR e s t (ext (acc.getLastD 0))
  return done e s

/-- A store of n bytes (R305): the data register is read after the checks (R301), unless its value is `held` since the issue. -/
def storeFrom (e : Env) (t : Nat) (ea : Word) (n slack : Nat) (s : State) (held : Option Word := none) : X State := do
  aligned ea n
  let p ← place e ea 2 slack
  storeChk e s p n ea
  let (s, v) ← match held with
    | some v => pure (s, v)
    | none => readR e s t
  let s ← storeAt e s p n ea v slack
  return done e s

/-- LD and LDN (R305). -/
def ldOp (enc : BitVec 32) (t a z k : Nat) (off : Word) (signed : Bool) (s : State) : Host.Outcome State Fault Refusal :=
  thr 4 enc s fun e => do
    chk e [] [t] [a]
    let ea := latch e 0 (baseReg e a + off * wd (2 ^ z))
    loadTo e t ea (2 ^ z) (skOf e.sl.csr k) (fun v => if signed then sextN (8 * 2 ^ z % 64) v else v) e.s [ea]

/-- The address of an indexed access (R158), after its table read; `ph` begins with the base, the index and `more` as
issued. -/
def indexed (e : Env) (dst : List Nat) (a x r z : Nat) (more : List Word := []) : X (State × List Word × Word) := do
  let base := latch e 0 (baseReg e a)
  let idx := latch e 1 (baseReg e x)
  let (s, acc, i) ← remapIdx e e.s ([base, idx] ++ more) dst r idx
  return (s, acc, base + i * wd (2 ^ z))

/-- LDX and LDXN (R306). -/
def ldxOp (enc : BitVec 32) (t a x r z : Nat) (signed : Bool) (s : State) : Host.Outcome State Fault Refusal :=
  thr 4 enc s fun e => do
    chk e [] [t] [a, x]
    let (s, acc, ea) ← indexed e [t] a x r z
    loadTo e t ea (2 ^ z) (dskOf e.sl) (fun v => if signed then sextN (8 * 2 ^ z % 64) v else v) s acc

/-- The place of an access that must lie in scratchpad (R302, R307). -/
def scrPlace (e : Env) (ea : Word) (slack : Nat) : X Nat := do
  match ← place e ea 3 slack with
  | .mem k _ _ => if isScr k then return k else trapX 0x08 ea
  | _ => trapX 0x08 ea

/-- Ticks that a parked synchronising access waits (R311). -/
def syncLimit (sl : Slot) : Nat :=
  if sl.csr.wlimt != 0 && sl.csr.wlimt.toNat < 65536 then sl.csr.wlimt.toNat else 65536

/-- LDS (R307, R308): kind 0 .keep, 1 .clr. -/
def ldsOp (enc : BitVec 32) (t a n sk kind : Nat) (off : Word) (s : State) : Host.Outcome State Fault Refusal :=
  thr 4 enc s fun e => do
    chk e [] [t] [a]
    let ea := baseReg e a + off * wd n
    match gotReply e [] with
    | some (.words l) => do
      let s ← writeR e e.s t (sextN (8 * n % 64) (l.headD 0))
      return done e s
    | some (.fault c v) => trapX c v
    | some _ => .error .cond
    | none => do
      aligned ea n
      let slack := skOf e.sl.csr sk
      let k ← scrPlace e ea slack
      .error (sendWait e e.s [] [t] 3 slack ((homeOf k).getD 0)
        (.sync { kind := kind, key := k, bytes := n, limit := syncLimit e.sl, va := ea, ret := retOf e ea }))

/-- STS and STSF (R307, R308): kind 2 waits for empty, 3 writes unconditionally. -/
def stsOp (enc : BitVec 32) (t a n sk kind : Nat) (off : Word) (s : State) : Host.Outcome State Fault Refusal :=
  thr 4 enc s fun e => do
    chk e [t] [] [a]
    let ea := baseReg e a + off * wd n
    match gotReply e [] with
    | some (.fault c v) => trapX c v
    | some _ => return done e e.s
    | none => do
      aligned ea n
      let slack := skOf e.sl.csr sk
      let k ← scrPlace e ea slack
      release e
      let (s, v) ← readR e e.s t
      let h := (homeOf k).getD 0
      let op : SyncOp := { kind := kind, key := k, bytes := n, data := v, limit := syncLimit e.sl, va := ea }
      if kind = 3 && !isLocal e k then do
        storeRoom e
        let (s, num) := takeTicket s e.t 4
        let id := nextAcc (getSlot s e.t)
        let s := modSlot s e.t fun sl => { sl with infl := sl.infl ++ [{ id := id, kind := .store, home := h, tick := some (4, num) }] }
        let s := send s 3 slack (coreUnit e.t.core) h (.sync { op with ret := .access e.t (e.sl.uid.getD 0) id 0 ea })
        return done e s
      else .error (sendWait e s [] [] 3 slack h (.sync { op with ret := retOf e ea }))

/-- AMO (R312, R313). -/
def amoOp (enc : BitVec 32) (d a b fn : Nat) (s : State) : Host.Outcome State Fault Refusal :=
  thr 4 enc s fun e => do
    chk e (if fn ≥ 12 then [] else if fn = 9 then [b, d] else [b]) [d] [a]
    let ea := baseReg e a
    let n := amoBytes fn
    match gotReply e [] with
    | some (.words l) => do
      let s ← writeR e e.s d (l.headD 0)
      return done e s
    | some (.fault c v) => trapX c v
    | some _ => .error .cond
    | none => do
      aligned ea n
      let slack := dskOf e.sl
      match ← place e ea 3 slack with
      | .mem k _ _ =>
        if isHost k || (fn ≥ 12 && !isScr k) then trapX 0x08 ea
        else do
          let (s, y) ← if fn ≥ 12 then pure (e.s, 0) else readR e e.s b
          let (s, x) ← if fn = 9 then readR e s d else pure (s, 0)
          if isLocal e k then do
            localGate e s 2 k
            let (s, r) := amoAt s fn k y x ea
            match r with
            | .words l => do
              let s ← writeR e (localNote e s 2 k) d (l.headD 0)
              return done e s
            | .fault c v => .error (.trapIn s c v e.sl.pc)
            | _ => .error .cond
          else .error (sendWait e s [] [d] 2 slack ((homeOf k).getD 0) (.amo (BitVec.ofNat 4 fn) k y x (retOf e ea)))
      | _ => trapX 0x08 ea

/-- Whether a home lies within a scope of the thread (R181). -/
def inScope (e : Env) (scope home : Nat) : Bool :=
  match scope with
  | 0 => false
  | 1 => home == coreUnit e.t.core
  | 2 => unitCl home == coreCl e.t.core
  | 3 => unitDie home == coreDie e.t.core
  | _ => true

/-! ### Messages and queues -/

/-- The target word's fields (R319): kind, message register, target; or RESERVED_FIELD. -/
def targetOk (tw : Word) : Bool :=
  let kind := fld tw 21 20
  fld tw 63 22 == 0 && !bitAt tw 19 && kind != 3 && (kind == 0 || fld tw 18 17 == 0) &&
    (kind != 1 || fld tw 5 0 ≥ 2) && (kind != 2 || fld tw 16 1 == 0)

/-- A thread without the ports attribute names a link of its core (R319): ILLEGAL_INSTRUCTION, before the window check of its
other registers (R193, R320). The target word is read only where its register lies in the window. -/
def linkChk (e : Env) (a : Nat) : X Unit :=
  if e.sl.ports || outWindow e.sl a then .ok ()
  else if outstanding e.sl a then .error .cond
  else if targetOk (baseReg e a) && fld (baseReg e a) 21 20 == 2 then illegal e
  else .ok ()

/-- SEND and QCTL (R320). -/
def sendOp (enc : BitVec 32) (d a b : Nat) (tag : Bool) (s : State) : Host.Outcome State Fault Refusal :=
  thr 4 enc s fun e => do
    linkChk e a
    chk e [b] [d] [a]
    let tw := baseReg e a
    let kind := fld tw 21 20
    need (targetOk tw) 0x12 tw
    need (!(kind == 0 && tag)) 0x12 0
    if kind = 2 then
      if !e.sl.ports then illegal e
      else do
        let (s, v) ← readR e e.s b
        let s ← pushLink e s (fld tw 0 0) v tag
        let s ← writeR e s d 0
        return done e s
    else do
      let core := fld tw 16 6
      need (coreExists core && coreFn e.s core == coreFn e.s e.t.core) 0x08 tw
      storeRoom e
      let (s, v) ← readR e e.s b
      let (s, num) := takeTicket s e.t 3
      let id := nextAcc (getSlot s e.t)
      let h := coreUnit core
      let ret := Ret.access e.t (e.sl.uid.getD 0) id 0 0
      let s := modSlot s e.t fun sl => { sl with infl := sl.infl ++ [{ id := id, kind := .send, home := h, tick := some (3, num) }] }
      let body := if kind = 0 then Body.msg (wordTid (fld tw 16 0)) (fld tw 18 17) v ret
        else Body.qelem (fld tw 5 0) v tag ret
      let s ← writeR e (send s 6 (dskOf e.sl) (coreUnit e.t.core) h body) d num
      return done e s

/-- LD (R305). -/
def execLd (t a : BitVec 7) (z k : BitVec 2) (o : BitVec 7) (s : State) : Host.Outcome State Fault Refusal :=
  ldOp (Enc.ld t a z k o) t.toNat a.toNat z.toNat k.toNat (sx o) true s

/-- LDN (R305). -/
def execLdn (t a : BitVec 7) (z k : BitVec 2) (o : BitVec 7) (s : State) : Host.Outcome State Fault Refusal :=
  ldOp (Enc.ldn t a z k o) t.toNat a.toNat z.toNat k.toNat (sx o) false s

/-- ST (R305). -/
def execSt (t a : BitVec 7) (z k : BitVec 2) (o : BitVec 7) (s : State) : Host.Outcome State Fault Refusal :=
  thr 4 (Enc.st t a z k o) s fun e => do
    chk e [t.toNat] [] [a.toNat]
    storeFrom e t.toNat (baseReg e a.toNat + sx o * wd (2 ^ z.toNat)) (2 ^ z.toNat) (skOf e.sl.csr k.toNat) e.s

/-- LDX (R306). -/
def execLdx (t a x : BitVec 7) (r z : BitVec 2) (s : State) : Host.Outcome State Fault Refusal :=
  ldxOp (Enc.ldx t a x r z) t.toNat a.toNat x.toNat r.toNat z.toNat true s

/-- LDXN (R306). -/
def execLdxn (t a x : BitVec 7) (r z : BitVec 2) (s : State) : Host.Outcome State Fault Refusal :=
  ldxOp (Enc.ldxn t a x r z) t.toNat a.toNat x.toNat r.toNat z.toNat false s

/-- STX (R306). A data register of the window is read at issue: no later write of it is seen (R127); a port at the end. -/
def execStx (t a x : BitVec 7) (r z : BitVec 2) (s : State) : Host.Outcome State Fault Refusal :=
  thr 4 (Enc.stx t a x r z) s fun e => do
    chk e [t.toNat] [] [a.toNat, x.toNat]
    let held := if e.sl.ports && t.toNat ≥ 120 then none else some (latch e 2 (regGet e.s e.t e.sl t.toNat))
    let (s, _, ea) ← indexed e [] a.toNat x.toNat r.toNat z.toNat held.toList
    storeFrom e t.toNat ea (2 ^ z.toNat) (dskOf e.sl) s held

/-- LDS (R307, R308). -/
def execLds (t a : BitVec 7) (z : BitVec 1) (k : BitVec 2) (m : BitVec 1) (o : BitVec 6) (s : State) : Host.Outcome State Fault Refusal :=
  ldsOp (Enc.lds t a z k m o) t.toNat a.toNat (if z = 0 then 4 else 8) k.toNat m.toNat (o.setWidth 64) s

/-- STS (R307, R308). -/
def execSts (t a : BitVec 7) (z : BitVec 1) (k : BitVec 2) (o : BitVec 6) (s : State) : Host.Outcome State Fault Refusal :=
  stsOp (Enc.sts t a z k o) t.toNat a.toNat (if z = 0 then 4 else 8) k.toNat 2 (o.setWidth 64) s

/-- STSF (R307, R308). -/
def execStsf (t a : BitVec 7) (z : BitVec 1) (k : BitVec 2) (o : BitVec 6) (s : State) : Host.Outcome State Fault Refusal :=
  stsOp (Enc.stsf t a z k o) t.toNat a.toNat (if z = 0 then 4 else 8) k.toNat 3 (o.setWidth 64) s

/-- AMOADD (R312, R313). -/
def execAmoadd (d a b : BitVec 7) (s : State) : Host.Outcome State Fault Refusal :=
  amoOp (Enc.amoadd d a b) d.toNat a.toNat b.toNat 0 s

/-- AMOAND (R312, R313). -/
def execAmoand (d a b : BitVec 7) (s : State) : Host.Outcome State Fault Refusal :=
  amoOp (Enc.amoand d a b) d.toNat a.toNat b.toNat 1 s

/-- AMOOR (R312, R313). -/
def execAmoor (d a b : BitVec 7) (s : State) : Host.Outcome State Fault Refusal :=
  amoOp (Enc.amoor d a b) d.toNat a.toNat b.toNat 2 s

/-- AMOXOR (R312, R313). -/
def execAmoxor (d a b : BitVec 7) (s : State) : Host.Outcome State Fault Refusal :=
  amoOp (Enc.amoxor d a b) d.toNat a.toNat b.toNat 3 s

/-- AMOMIN (R312, R313). -/
def execAmomin (d a b : BitVec 7) (s : State) : Host.Outcome State Fault Refusal :=
  amoOp (Enc.amomin d a b) d.toNat a.toNat b.toNat 4 s

/-- AMOMAX (R312, R313). -/
def execAmomax (d a b : BitVec 7) (s : State) : Host.Outcome State Fault Refusal :=
  amoOp (Enc.amomax d a b) d.toNat a.toNat b.toNat 5 s

/-- AMOMINN (R312, R313). -/
def execAmominn (d a b : BitVec 7) (s : State) : Host.Outcome State Fault Refusal :=
  amoOp (Enc.amominn d a b) d.toNat a.toNat b.toNat 6 s

/-- AMOMAXN (R312, R313). -/
def execAmomaxn (d a b : BitVec 7) (s : State) : Host.Outcome State Fault Refusal :=
  amoOp (Enc.amomaxn d a b) d.toNat a.toNat b.toNat 7 s

/-- AMOSWP (R312, R313). -/
def execAmoswp (d a b : BitVec 7) (s : State) : Host.Outcome State Fault Refusal :=
  amoOp (Enc.amoswp d a b) d.toNat a.toNat b.toNat 8 s

/-- AMOCAS (R312, R313). -/
def execAmocas (d a b : BitVec 7) (s : State) : Host.Outcome State Fault Refusal :=
  amoOp (Enc.amocas d a b) d.toNat a.toNat b.toNat 9 s

/-- AMOFADDS (R312, R313). -/
def execAmofadds (d a b : BitVec 7) (s : State) : Host.Outcome State Fault Refusal :=
  amoOp (Enc.amofadds d a b) d.toNat a.toNat b.toNat 10 s

/-- AMOFADDD (R312, R313). -/
def execAmofaddd (d a b : BitVec 7) (s : State) : Host.Outcome State Fault Refusal :=
  amoOp (Enc.amofaddd d a b) d.toNat a.toNat b.toNat 11 s

/-- FEQRY (R312, R313). -/
def execFeqry (d a : BitVec 7) (s : State) : Host.Outcome State Fault Refusal :=
  amoOp (Enc.feqry d a) d.toNat a.toNat 0 12 s

/-- FESET (R312, R313). -/
def execFeset (d a : BitVec 7) (s : State) : Host.Outcome State Fault Refusal :=
  amoOp (Enc.feset d a) d.toNat a.toNat 0 13 s

/-- FECLR (R312, R313). -/
def execFeclr (d a : BitVec 7) (s : State) : Host.Outcome State Fault Refusal :=
  amoOp (Enc.feclr d a) d.toNat a.toNat 0 14 s

/-- FENCE (R182, R195, R314). -/
def execFence (sv : BitVec 3) (k : BitVec 4) (s : State) : Host.Outcome State Fault Refusal :=
  thr 4 (Enc.fence sv k) s fun e => do
    await (!ringPending e.sl)
    let scope := sv.toNat
    await (!k.getLsbD 0 || e.sl.infl.all fun i => i.kind != .vload || !inScope e scope i.home)
    await (!k.getLsbD 1 || e.sl.infl.all fun i => i.kind == .vload || !inScope e scope i.home)
    await (!k.getLsbD 2 || (List.range 5).all fun i => (tlGet e.sl.tls i).completed == (tlGet e.sl.tls i).issued)
    await (!k.getLsbD 3 || !e.sl.ring.any fun r => r.spark && r.st == .pending)
    report e e.s true fun _ _ => k.getLsbD 2
    return done e e.s

/-- WAIT (R195, R315). -/
def execWait (l sv : BitVec 6) (c : BitVec 7) (t : BitVec 6) (s : State) : Host.Outcome State Fault Refusal :=
  thr 4 (Enc.wait l sv c t) s fun e => do
    await ((e.sl.vops.filter fun v => v.isLd).length ≤ l.toNat && storesInFlight e.sl ≤ sv.toNat &&
      (e.sl.tls.copy.opn.filter fun k => !k.done).length ≤ c.toNat &&
      (e.sl.ring.filter fun r => r.tile && r.st == .pending).length ≤ t.toNat)
    report e e.s true fun i _ => i == 0 || i == 4
    return done e e.s

/-- Whether a check traps. -/
def isTrap : X Unit → Bool
  | .error (.trap _ _) => true
  | _ => false

/-- The report of faulted ring entries, which an instruction that covers them makes before its own faults (R193). -/
def ringLate (e : Env) : X Unit :=
  if e.sl.ring.any fun r => isFaulted r.st then do
    await (!ringPending e.sl)
    report e e.s true fun _ _ => false
  else .ok ()

/-- TLWAIT (R195, R197, R316). -/
def execTlwait (a : BitVec 7) (l : BitVec 4) (s : State) : Host.Outcome State Fault Refusal :=
  thr 4 (Enc.tlwait a l) s fun e => do
    if isTrap (chk e [] [] [a.toNat]) then ringLate e
    chk e [] [] [a.toNat]
    let n := baseReg e a.toNat
    let tl := tlGet e.sl.tls l.toNat
    let cover := fun (i : Nat) (f : TFault) => i == l.toNat && f.num.toNat ≤ n.toNat
    await (!ringPending e.sl)
    if tl.issued.ult n then do
      report e e.s true cover
      trapX 0x0E n
    else do
      await (n.toNat ≤ tl.completed.toNat)
      report e e.s true cover
      return done e e.s

/-- BAR (R317, R318). -/
def execBar (a : BitVec 7) (i : BitVec 11) (s : State) : Host.Outcome State Fault Refusal :=
  thr 4 (Enc.bar a i) s fun e => do
    chk e [] [] [a.toNat]
    let ea := baseReg e a.toNat
    match gotReply e [] with
    | some (.fault c v) => trapX c v
    | some _ => return done e e.s
    | none => do
      aligned ea 8
      match ← place e ea 3 (dskOf e.sl) with
      | .mem k _ _ =>
        if isHost k then trapX 0x08 ea
        else do
          release e
          .error (sendWait e e.s [] [] 3 (dskOf e.sl) ((homeOf k).getD 0) (.bar k i.toNat e.sl.csr.wlimt.toNat (retOf e ea)))
      | _ => trapX 0x08 ea

/-- SEND (R319, R320). -/
def execSend (d a b : BitVec 7) (s : State) : Host.Outcome State Fault Refusal :=
  sendOp (Enc.send d a b) d.toNat a.toNat b.toNat false s

/-- QCTL (R319, R320). -/
def execQctl (d a b : BitVec 7) (s : State) : Host.Outcome State Fault Refusal :=
  sendOp (Enc.qctl d a b) d.toNat a.toNat b.toNat true s

/-- QCFG (R321). -/
def execQcfg (d a b : BitVec 7) (s : State) : Host.Outcome State Fault Refusal :=
  thr 4 (Enc.qcfg d a b) s fun e => do
    chk e [b.toNat] [d.toNat] [a.toNat]
    let q := (baseReg e a.toNat).toNat
    need (q ≤ 63) 0x12 0
    let (s, w) ← readR e e.s b.toNat
    need (qOk w) 0x12 0
    let old := (qGet s e.t.core q).w0
    let s := qSet s e.t.core q { w0 := w, w1 := 0 }
    let s := if bitAt w 38 then setFullAt s (scrKey e.t.core (fld w 15 0 * 8)) (8 * fld w 31 16) false else s
    let s ← writeR e s d.toNat old
    return done e s

/-- QHND (R135, R322). -/
def execQhnd (d a b : BitVec 7) (s : State) : Host.Outcome State Fault Refusal :=
  thr 4 (Enc.qhnd d a b) s fun e => do
    chk e [b.toNat] [d.toNat] [a.toNat]
    let q := (baseReg e a.toNat).toNat
    need (q ≤ 1) 0x12 0
    let (s, v) ← readR e e.s b.toNat
    need (!bitAt v 0) 0x03 0
    let c := getCore s e.t.core
    let s := modCore s e.t.core fun c => if q = 0 then { c with hnd0 := v } else { c with hnd1 := v }
    let s ← writeR e s d.toNat (if q = 0 then c.hnd0 else c.hnd1)
    return done e s

/-- QRET (R135, R322). -/
def execQret (s : State) : Host.Outcome State Fault Refusal :=
  thr 4 Enc.qret s fun e =>
    match e.sl.handler with
    | none => illegal e
    | some p => return jumpTo e (modSlot e.s e.t fun sl => { sl with handler := none }) p

/-- QSTAT (R323). -/
def execQstat (d a : BitVec 7) (s : State) : Host.Outcome State Fault Refusal :=
  thr 4 (Enc.qstat d a) s fun e => do
    chk e [] [d.toNat] [a.toNat]
    let q := (baseReg e a.toNat).toNat
    need (q ≤ 63) 0x12 0
    let c := qGet e.s e.t.core q
    let k := qElem e.t.core c (qHead c)
    let ctl := feGet e.s k && feGet e.s (k + 4)
    let s ← writeR e e.s d.toNat (wd (b2n ctl * 2 ^ 49 + b2n (qEn c) * 2 ^ 48 + qDepth c * 2 ^ 32 + qCount c))
    return done e s

/-- RMAP (R283). -/
def execRmap (d a b : BitVec 7) (s : State) : Host.Outcome State Fault Refusal :=
  thr 4 (Enc.rmap d a b) s fun e => do
    chk e [a.toNat, b.toNat] [d.toNat] []
    let (s, x, y) ← match e.sl.ph with
      | x :: y :: _ => pure (e.s, x, y)
      | _ => do
        let (s, x) ← readR e e.s a.toNat
        let (s, y) ← readR e s b.toNat
        pure (s, x, y)
    let (s, _, i) ← remapIdx e s [x, y] [d.toNat] (fld y 1 0) x
    let s ← writeR e s d.toNat i
    return done e s

end Sys2Proof.Machine
end

