-- ==== Sys2Proof/Machine/Task.lean ====
section
/-!
DEFINITION. TASK instructions but for carries (R351 to R359): fork and join, leaving the slot, resume cells, new continuations, loops.
-/

namespace Sys2Proof.Machine

/-! ### Shared parts (R352) -/

/-- The home unit of a key of scratchpad or DRAM. -/
def unitOf' (k : Nat) : Nat := (homeOf k).getD 0

/-- A register operand of an instruction of several phases: read once and kept at place i of `ph`. -/
def opnd (e : Env) (s : State) (i n : Nat) : X (State × Word) :=
  match e.sl.ph[i]? with
  | some v => .ok (s, v)
  | none => readR e s n

/-- The checks before a suspension sends or writes anything (R136, R352). -/
def suspendChecks (e : Env) : X Unit := do
  suspendFirst e
  roomX e

/-- The slot freed, its continuation left in memory (R352). -/
def leave (e : Env) (s : State) : State := freeSlot (noteLeft s e.t (getSlot s e.t) (recAddr e)) e.t

/-- A carry's home slots and forwarding entries given up (R219). -/
def dropCarry (s : State) (uid : Nat) (l : List Carry) : State :=
  l.foldl (fun s c =>
    let s := modSlot s c.home fun sl => if sl.resv = some uid then emptySlot sl else sl
    modCore s c.home.core fun k => { k with fwd := k.fwd.filter fun f => !(f.carry && f.old == c.home) }) s

/-- The continuation of a slot ends (R354, R358): storage, entry share, window. -/
def endSlot (s : State) (t : Tid) : State :=
  let sl := getSlot s t
  match sl.uid with
  | none => s
  | some u => setSlot (dropCarry (endCont s u) u sl.carry) t (emptySlot sl)

/-- SYNC up to its outcome (R354); `pc0` is where a wake resumes. The flag spawned stands in `ph` for a fault. -/
def syncBody (e : Env) (pc0 : Word) (go : State → X State) : X State :=
  match e.sl.res with
  | some .ok => go e.s
  | some .waits => return leave e e.s
  | some (.fault c v) => .error (.trapIn (modCsr e.s e.t fun r => { r with spawned := wAt e.sl.ph 0 != 0 }) c v e.sl.pc)
  | some _ => .error .cond
  | none => do
    drainLate e
    if e.sl.handler.isSome then illegal e
    roomX e
    drain e
    let fp := regGet e.s e.t e.sl 2
    let k ← homeKey e fp 3
    let s ← writeOut e (modCsr e.s e.t fun r => { r with spawned := false }) pc0
    let s := noteLeft s e.t (getSlot s e.t) (recAddr e)
    .error (sendWait e s [wd (b2n e.sl.csr.spawned)] [] 11 (dskOf e.sl) (unitOf' k)
      (.joinSync k (recAddr e) (e.sl.uid.getD 0) (retOf e fp)))

/-- A late fault that is pending when RETC or TEXIT issues is taken before any other of its faults (R193, R195). -/
def exitLate (e : Env) : X Unit :=
  if firstIssue e && !(covered e.sl true fun _ _ => true).isEmpty then reportAfterRing e fun _ _ => true else .ok ()

/-- The late faults that RETC and TEXIT report, and their release (R195, R196, R354). -/
def exitChecks (e : Env) : X Unit := do
  await (!ringPending e.sl)
  report e e.s true fun _ _ => true
  release e

/-- Whether an instruction that performs SYNC first is still in its SYNC (R354). -/
def syncing (e : Env) : Bool := e.sl.csr.spawned || e.sl.res.isSome

/-- An access whose acknowledgement the slot does not wait for, counted as a store. -/
def sendInfl (e : Env) (s : State) (cls slack unit op : Nat) (va : Word) (body : Ret → Body) : State :=
  let sl := getSlot s e.t
  let id := nextAcc sl
  let s := setSlot s e.t { sl with infl := sl.infl ++ [{ id := id, op := op, kind := .store, home := unit }] }
  send s cls slack (coreUnit e.t.core) unit (body (.access e.t (sl.uid.getD 0) id 0 va))

/-- The first free 1 KiB block of a core's overflow area for a context (R79, R89). -/
def ovfRoom (s : State) (core ctx : Nat) : Option Nat :=
  ((List.range (getCtx s ctx).ovfK).map fun i => ((Config.ovfBase ctx core).toNat + i) * 1024).find? fun k =>
    (getCore s core).blocks.all fun b => b.key != k

/-- Whether a push would not overflow (R89, R99). -/
def pushOk (s : State) (t : Tid) (sl : Slot) (urg : Bool) : Bool :=
  let c := getCore s t.core
  if urg then c.udeque.length < 8
  else c.deque.length < 32 || (ovfRoom s t.core sl.ctx).isSome

/-- A push at the owner end, the end of the list; a full deque first writes its 16 oldest records as one 1 KiB block to the
overflow area of the pushed record's context (R89, R99). With no room there, which SPAWN has excluded, the entry stays on
chip: none is lost (R101). -/
def dequePush (s : State) (core : Nat) (urg : Bool) (d : DqEnt) : State :=
  let c := getCore s core
  if urg then setCore s core { c with udeque := c.udeque ++ [d] }
  else match (if c.deque.length < 32 then none else ovfRoom s core (fld (wAt d.ws 1) 31 16)) with
    | none => setCore s core { c with deque := c.deque ++ [d] }
    | some k =>
      let old := c.deque.take 16
      let s := storeAtHome s ((wordBytes (old.flatMap fun x => (List.range 8).map (wAt x.ws))).zipIdx.map fun b => (k + b.2, b.1))
      setCore s core { c with deque := c.deque.drop 16 ++ [d], blocks := { key := k, ents := old.zipIdx.map fun x => (x.2, x.1.uid) } :: c.blocks }

/-- Whether a slot runs urgent work (R98). -/
def urgentSlot (s : State) (t : Tid) (sl : Slot) : Bool := t.slot == 63 && sl.urgent && (getFn s (coreFn s t.core)).urgent

/-- A continuation that a thread creates: its launch entry's share and its segment (R65, R79, R198). -/
def newCont (s : State) (t : Tid) (sl : Slot) (i : Nat) : State × Nat :=
  let u := s.nextUid
  let k := getCont s (sl.uid.getD 0)
  let s := { s with nextUid := u + 1 }
  let s := modCont s u fun _ => { entry := k.entry, ctx := sl.ctx, wsize := sl.wsize, parent := sl.uid,
                                  area := .seg t.core sl.ctx i, core := t.core, priv := sl.priv, fresh := true, alive := true }
  let s := modCore s t.core fun c => { c with segs := c.segs ++ [(sl.ctx, i)] }
  (match k.entry with | some e => modEntry s e fun x => { x with live := x.live + 1 } | none => s, u)

/-! ### Nest descriptors (R92, R93) -/

/-- The descriptor in four words. -/
def nestOf (addr : Word) (ws : List Word) : Nest :=
  { addr := addr, counter := wAt ws 0, ext0 := fld (wAt ws 1) 31 0, ext1 := fld (wAt ws 1) 63 32, ext2 := fld (wAt ws 2) 31 0,
    rank := fld (wAt ws 2) 63 56, minchunk := fld (wAt ws 2) 55 48, parts := fld (wAt ws 2) 47 32,
    reg0 := fld (wAt ws 3) 6 0, reg1 := fld (wAt ws 3) 14 8, reg2 := fld (wAt ws 3) 22 16 }

/-- The extents within rank. -/
def nestExts (n : Nest) : List Nat := [n.ext0, n.ext1, n.ext2].take n.rank
/-- The index registers within rank. -/
def nestRegs (n : Nest) : List Nat := [n.reg0, n.reg1, n.reg2].take n.rank
/-- N of R92. -/
def nestTotal (n : Nest) : Nat := (nestExts n).foldl (· * ·) 1

/-- The rules of R92 that the descriptor itself can break. -/
def nestOk (n : Nest) (w3 : Word) : Bool :=
  1 ≤ n.rank && n.rank ≤ 3 && n.parts != 0 && (nestExts n).all (· != 0) && n.counter.toNat % 8 == 0 &&
    fld w3 63 24 == 0 && !bitAt w3 7 && !bitAt w3 15 && !bitAt w3 23

/-- The descriptor loaded into the iteration fetcher, its reads precise parts of the instruction (R359). -/
def loadNest (e : Env) (s0 : State) (a : Word) : X (State × List Word) := do
  aligned a 8
  let mut s := s0
  let mut acc := [a]
  for i in [0, 1, 2, 3] do
    let (s', acc') ← phaseRead e s acc [] (a + wd (8 * i)) 8 (dskOf e.sl)
    s := s'
    acc := acc'
  let n := nestOf a (acc.drop 1)
  need (nestOk n (wAt acc 4) && (nestRegs n).all fun r => r != 0 && decide (r < winW e.sl)) 0x12 a
  return (modSlot s e.t fun sl => { sl with nest := some n }, acc)

/-- The claim performed at the counter's home (R93): the counter before, and the chunk. -/
def lnextAt (s : State) (k total minchunk parts : Nat) (va : Word) : State × Res :=
  match eccStatus s k 8 with
  | 0 =>
    let c := memRead s.mem k 8
    let left := total - c
    let chunk := min left (max (max minchunk 1) (cdiv left parts))
    (homeWrite s k 8 (c + chunk), .words [wd c, wd chunk])
  | 1 => (markRead s k 8, .fault 0x18 va)
  | _ => (s, .fault 0x14 va)

/-- The index registers unpacked in row-major order (R93). -/
def unpackNest (e : Env) (n : Nest) (c : Nat) (s : State) : State :=
  let xs := nestExts n
  ((nestRegs n).zipIdx).foldl (fun s r =>
    regSet s e.t e.sl r.1 (wd (c / (xs.drop (r.2 + 1)).foldl (· * ·) 1 % xs.getD r.2 1))) s

/-- The end of an LNEXT. -/
def nestClaim (e : Env) (d : Nat) (n : Nest) (s : State) (l : List Word) : X State := do
  let s ← writeR e s d (wAt l 1)
  return done e (if wAt l 1 = 0 then s else unpackNest e n (wAt l 0).toNat s)

/-- SPAWN (R353). -/
def execSpawn (a b : BitVec 7) (s : State) : Host.Outcome State Fault Refusal :=
  thr 4 (Enc.spawn a b) s fun e => do
    drainLate e
    if e.sl.ports || e.sl.handler.isSome then illegal e
    chk e [a.toNat, b.toNat] [] []
    let target := regGet e.s e.t e.sl a.toNat
    let v := regGet e.s e.t e.sl b.toNat
    need (!bitAt target 0) 0x03 target
    roomX e
    let urg := urgentSlot e.s e.t e.sl
    match freeSeg e.s e.t.core e.sl.ctx with
    | none => trapX 0x0D 65536
    | some i => do
      need (pushOk e.s e.t e.sl urg) 0x0D 1
      drain e
      await (dequeGate e.s e.t.core (thrSrc e))
      let fp := regGet e.s e.t e.sl 2
      let seg := segAddr e.s e.sl.ctx e.t.core i
      let k ← homeKey e fp 3
      -- the parent's burst and record, with its spawned flag set
      let s := modCsr e.s e.t fun r => { r with spawned := true }
      let p := getSlot s e.t
      let s ← storeX e s p.spb (burstWords s e.t p)
      let s ← storeX e s seg [0, 0]
      let d : DqEnt := { uid := p.uid.getD 0, ws := recordOf s e.t { p with spb := p.spb + wd (burstOf p) } e.npc }
      let s := dequeNote (dequePush (noteCont s e.t p) e.t.core urg d) e.t.core (thrSrc e) (coreUnit e.t.core) urg
      -- the child
      let (s, u) := newCont s e.t p i
      let s := modCont s u fun k => { k with fresh := false, dev := p.dev }
      let s := modSlot s e.t fun sl => { sl with
        uid := some u, join := fp, spb := seg + 128, spl := seg + 65536, carry := [], nest := none,
        csr := { sl.csr with spawned := false } }
      let s := regSet (regSet s e.t e.sl 2 seg) e.t e.sl 4 v
      let s := sendInfl e s 11 (dskOf e.sl) (unitOf' k) (2 ^ 40) fp fun r => .joinInc k r
      return jumpTo e s target

/-- SYNC (R354). -/
def execSync (s : State) : Host.Outcome State Fault Refusal :=
  thr 4 Enc.sync s fun e => syncBody e e.npc fun s => return done e s

/-- RETC (R354). -/
def execRetc (s : State) : Host.Outcome State Fault Refusal :=
  thr 4 Enc.retc s fun e => do
    let fin := fun (s : State) => do
      exitChecks e
      if e.sl.join = 0 then return endSlot s e.t
      else
        let k ← homeKey e e.sl.join 3
        return endSlot (send s 11 (dskOf e.sl) (coreUnit e.t.core) (unitOf' k) (.joinRet k e.sl.ctx)) e.t
    if syncing e then syncBody e e.sl.pc fin else fin e.s

/-- YIELD (R355). -/
def execYield (s : State) : Host.Outcome State Fault Refusal :=
  thr 4 Enc.yield s fun e => do
    suspendChecks e
    drain e
    let s ← writeOut e e.s e.npc
    if e.sl.ports then return done e s
    else
      let s := leave e s
      return sendEnqueue s (coreUnit e.t.core) (e.sl.uid.getD 0) (.mem (recAddr e))

/-- PARK (R356). -/
def execPark (a b : BitVec 7) (s : State) : Host.Outcome State Fault Refusal :=
  thr 4 (Enc.park a b) s fun e => do
    suspendFirst e
    chk e [a.toNat, b.toNat] [] []
    match e.sl.res with
    | some .ok => return done e e.s
    | some .waits => return leave e e.s
    | some (.fault c v) => trapX c v
    | some _ => .error .cond
    | none => do
      let (s, ea) ← readR e e.s a.toNat
      aligned ea 8
      match ← place e ea 1 (dskOf e.sl) with
      | .mem k _ _ => do
        if isHost k then trapX 0x08 ea
        roomX e
        drain e
        let (s, x) ← readR e s b.toNat
        let s ← writeOut e s e.npc
        let s := noteLeft s e.t (getSlot s e.t) (recAddr e)
        .error (sendWait e s [] [] 11 (dskOf e.sl) (unitOf' k)
          (.park k x e.sl.csr.wlimt.toNat (e.sl.uid.getD 0) e.sl.ctx (recAddr e) e.sl.pc (retOf e ea)))
      | _ => trapX 0x08 ea

/-- TNEW (R358). -/
def execTnew (a b : BitVec 7) (s : State) : Host.Outcome State Fault Refusal :=
  thr 4 (Enc.tnew a b) s fun e => do
    chk e [a.toNat, b.toNat] [] []
    let (s, target) ← readR e e.s a.toNat
    let (s, v) ← readR e s b.toNat
    need (!bitAt target 0) 0x03 0
    match freeSeg e.s e.t.core e.sl.ctx with
    | none => trapX 0x0D 65536
    | some i => do
      let seg := segAddr e.s e.sl.ctx e.t.core i
      let s ← storeX e s seg (List.replicate 16 0)
      let c := e.sl.csr
      let r := [target, wd (e.sl.ctx * 65536 + e.sl.steal.toNat * 256 + e.sl.prio.toNat * 64 + e.sl.wsize.toNat), seg, 0, seg + 128, seg + 65536,
        wd (c.sk3.toNat * 2 ^ 44 + c.sk2.toNat * 2 ^ 32 + c.sk1.toNat * 2 ^ 20 + c.sk0.toNat * 2 ^ 8), v]
      let (s, u) := newCont s e.t e.sl i
      return done e (sendEnqueue s (coreUnit e.t.core) u (.held r))

/-- TEXIT (R358). -/
def execTexit (s : State) : Host.Outcome State Fault Refusal :=
  thr 4 Enc.texit s fun e => do
    exitLate e
    if syncing e && firstIssue e && e.sl.handler.isSome then illegal e
    need (e.sl.join == 0) 0x08 e.sl.join
    let fin := fun (s : State) => do
      exitChecks e
      return endSlot s e.t
    if syncing e then syncBody e e.sl.pc fin else fin e.s

/-- SUSP (R357). -/
def execSusp (a : BitVec 7) (s : State) : Host.Outcome State Fault Refusal :=
  thr 4 (Enc.susp a) s fun e => do
    suspendFirst e
    chk e [a.toNat] [] []
    match e.sl.res with
    | some (.words l) => return done e (regSet e.s e.t e.sl 4 (l.headD 0))
    | some .waits => return leave e e.s
    | some (.fault c v) => trapX c v
    | some _ => .error .cond
    | none => do
      let (s, ea) ← readR e e.s a.toNat
      aligned ea 64
      match ← place e ea 3 (dskOf e.sl) with
      | .mem k _ _ => do
        if isHost k then trapX 0x08 ea
        let kr ← homeKey e (ea + 64) 3
        roomX e
        drain e
        let s ← writeOut e s e.npc
        let sl := getSlot s e.t
        let s := noteLeft s e.t sl (recAddr e)
        let r := recordOf s e.t { sl with spb := sl.spb + wd (burstOf sl) } e.npc
        .error (sendWait e s [] [4] 11 (dskOf e.sl) (unitOf' k) (.susp (k, kr) r (e.sl.uid.getD 0) e.sl.ctx (retOf e ea)))
      | _ => trapX 0x08 ea

/-- RESUME (R357). -/
def execResume (d a b : BitVec 7) (s : State) : Host.Outcome State Fault Refusal :=
  thr 4 (Enc.resume d a b) s fun e => do
    chk e [a.toNat, b.toNat] [d.toNat] []
    match e.sl.res with
    | some (.words l) => do
      let s ← writeR e e.s d.toNat (l.headD 0)
      return done e s
    | some (.fault c v) => trapX c v
    | some _ => .error .cond
    | none => do
      let (s, ea) ← readR e e.s a.toNat
      aligned ea 64
      match ← place e ea 3 (dskOf e.sl) with
      | .mem k _ _ => do
        if isHost k then trapX 0x08 ea
        let kr ← homeKey e (ea + 64) 3
        release e
        let (s, v) ← readR e s b.toNat
        .error (sendWait e s [] [d.toNat] 11 (dskOf e.sl) (unitOf' k) (.resume (k, kr) v e.sl.ctx (retOf e ea)))
      | _ => trapX 0x08 ea

/-- LSETUP (R359). -/
def execLsetup (a : BitVec 7) (s : State) : Host.Outcome State Fault Refusal :=
  thr 4 (Enc.lsetup a) s fun e => do
    chk e [a.toNat] [] []
    let (s, addr) ← opnd e e.s 0 a.toNat
    let (s, _) ← loadNest e s addr
    return done e s

/-- LNEXT (R93, R359). -/
def execLnext (d a : BitVec 7) (s : State) : Host.Outcome State Fault Refusal :=
  thr 4 (Enc.lnext d a) s fun e => do
    chk e [a.toNat] [d.toNat] []
    let (s0, addr) ← opnd e e.s 0 a.toNat
    let held := match e.sl.nest with | some n => n.addr == addr | none => false
    let s ← if held then pure s0 else do
      let (s, _) ← loadNest e s0 addr
      pure s
    let n := ((getSlot s e.t).nest).getD {}
    chk e [] (nestRegs n) []
    match (if held then gotReply e [addr] else none) with
    | some (.words l) => nestClaim e d.toNat n s l
    | some (.fault c v) => trapX c v
    | some _ => .error .cond
    | none => do
      match ← place { e with s := s } n.counter 3 (dskOf e.sl) with
      | .mem k _ _ =>
        if isHost k then trapX 0x08 n.counter
        else if isLocal e k then do
          localGate e s 2 k
          match lnextAt s k (nestTotal n) n.minchunk n.parts n.counter with
          | (s, .words l) => nestClaim e d.toNat n (localNote e s 2 k) l
          | (s, .fault c v) => .error (.trapIn s c v e.sl.pc)
          | _ => .error .cond
        else .error (sendWait e s [addr] (d.toNat :: nestRegs n) 2 (dskOf e.sl) (unitOf' k)
          (.lnext k (nestTotal n) n.minchunk n.parts (retOf e n.counter)))
      | _ => trapX 0x08 n.counter

end Sys2Proof.Machine
end

