-- ==== Sys2Proof/Machine/Coord.lean ====
section
/-!
DEFINITION. Coordinates (R160, R161, R163, R166, R168) and the COORD instructions (R380 to R383), CLIN and CUNL (R284).
-/

namespace Sys2Proof.Machine

/-! ### Region descriptors (R160) -/

def rgClass (w : List Word) : Nat := fld (wAt w 0) 1 0
def rgPack (w : List Word) : Nat := fld (wAt w 0) 5 4
def rgFmt (w : List Word) : Nat := fld (wAt w 0) 15 8
def rgLeafcap (w : List Word) : Nat := fld (wAt w 0) 55 52
def rgShards (w : List Word) : Nat := fld (wAt w 0) 63 56
def rgMax (w : List Word) : Word := wAt w 1
def rgBack (w : List Word) : Word := wAt w 2
def rgPool (w : List Word) : Word := wAt w 3
def rgUnits (w : List Word) : Nat := fld (wAt w 4) 31 0
def rgRoot (w : List Word) : Word := wAt w 5
def rgSpan (w : List Word) : Nat := fld (wAt w 6) 47 0

/-! ### Packing (R161) -/

/-- The axes of a packing: least bit and width. -/
def packAxes (p : Nat) : List (Nat × Nat) :=
  match p with
  | 0 => [(0, 16), (16, 16), (32, 16), (48, 16)]
  | 1 => [(0, 21), (21, 21), (42, 21)]
  | 2 => [(0, 32), (32, 32)]
  | _ => [(0, 48)]

/-- The coordinates of a packed value. -/
def unpackC (p : Nat) (c : Word) : List Nat := (packAxes p).map fun a => c.toNat / 2 ^ a.1 % 2 ^ a.2
/-- A packed value from coordinates. -/
def packC (p : Nat) (l : List Nat) : Word := wd (((packAxes p).zip l).foldl (fun n a => n + a.2 * 2 ^ a.1.1) 0)
/-- Whether the bits that the packing gives as zero are zero. -/
def packZeros (p : Nat) (c : Word) : Bool := match p with | 1 => !bitAt c 63 | 3 => fld c 63 48 == 0 | _ => true
/-- The extents Ei. -/
def rgExts (w : List Word) : List Nat := (unpackC (rgPack w) (rgMax w)).map (· + 1)
/-- The product of the Ei. -/
def rgTotal (w : List Word) : Nat := (rgExts w).foldl (· * ·) 1
/-- Row-major index, axis 0 slowest. -/
def linIdx (exts l : List Nat) : Nat := (exts.zip l).foldl (fun n a => n * a.1 + a.2) 0
/-- The inverse of `linIdx`. -/
def unlinIdx (exts : List Nat) (n : Nat) : List Nat :=
  (exts.foldr (fun e (p : Nat × List Nat) => (p.1 / e, p.1 % e :: p.2)) (n, [])).2
/-- Whether a packed value is a coordinate of the region (R162). -/
def coordIn (w : List Word) (c : Word) : Bool :=
  packZeros (rgPack w) c && ((unpackC (rgPack w) c).zip (rgExts w)).all fun a => decide (a.1 < a.2)
/-- The linear coordinate. -/
def linOf (w : List Word) (c : Word) : Nat := linIdx (rgExts w) (unpackC (rgPack w) c)
/-- The packed coordinate of a linear one. -/
def unlinOf (w : List Word) (n : Nat) : Word := packC (rgPack w) (unlinIdx (rgExts w) n)

/-! ### Elements (R160, R171) -/

/-- Bytes of an element. -/
def elBytes (w : List Word) : Nat := elBits (rgFmt w) / 8

/-- An element as a register value: integers sign-extended, floats zero-extended. -/
def elExt (fmt : Nat) (v : Nat) : Word :=
  match fmtInt fmt with
  | some b => wdInt (bitsInt b v)
  | none => wd (v % 2 ^ elBits fmt)

/-- The sum at the home: integers wrap, floats round RNE with no flags (R171). -/
def elAdd (fmt : Nat) (v x : Nat) : Nat :=
  match fmtFloat fmt with
  | some f => (roundTo f {} (plusZero (xAdd false (decodeF f (v % 2 ^ f.w)) (decodeF f (x % 2 ^ f.w))))).bits
  | none => (v + x) % 2 ^ elBits fmt

/-- Whether an element counts as zero (R171). -/
def elZero (fmt : Nat) (v : Nat) : Bool :=
  match fmtFloat fmt with
  | some f => xIsZero (decodeF f (v % 2 ^ f.w))
  | none => v % 2 ^ elBits fmt == 0

/-- An element access at its home (R171): op 0 CLD, 1 CST, 2 CADD, 4 CDEL with the background as x. -/
def elemAccess (s : State) (op k fmt : Nat) (x va : Word) : State × Res :=
  let n := elBits fmt / 8
  let st := eccStatus s k n
  if op = 1 then (homeWrite s k n x.toNat, .coord 0 none)
  else if op = 4 then (homeWrite s k n x.toNat, .coord 1 none)
  else if st = 1 then (markRead s k n, .fault 0x18 va)
  else if st = 2 then (s, .fault 0x14 va)
  else
    let v := memRead s.mem k n
    if op = 2 then (homeWrite s k n (elAdd fmt v x.toNat), .coord (elExt fmt v) none) else (s, .coord (elExt fmt v) none)

/-! ### Tiles (R166) -/

def rgT (w : List Word) (i : Nat) : Nat := fld (wAt w 0) (39 + 4 * i) (36 + 4 * i)
/-- Tile exponents of the axes of the packing. -/
def rgTs (w : List Word) : List Nat := (List.range (packAxes (rgPack w)).length).map (rgT w)
/-- Extents of the tile grid. -/
def tileGrid (w : List Word) : List Nat := ((rgExts w).zip (rgTs w)).map fun a => cdiv a.1 (2 ^ a.2)
/-- The tile index of a coordinate. -/
def tileOf (w : List Word) (l : List Nat) : Nat := linIdx (tileGrid w) ((l.zip (rgTs w)).map fun a => a.1 / 2 ^ a.2)
/-- The element's byte offset in its frame. -/
def tileOff (w : List Word) (l : List Nat) : Nat :=
  elBytes w * linIdx ((rgTs w).map fun t => 2 ^ t) ((l.zip (rgTs w)).map fun a => a.1 % 2 ^ a.2)
/-- The frame size. -/
def frameBytes (w : List Word) : Nat := max 4096 (2 ^ (rgTs w).foldl (· + ·) 0 * elBytes w)

/-! ### Agents (R163) -/

/-- The cluster whose agent serves shard sh of region g. -/
def agentCl (s : State) (fn g sh : Nat) : Nat :=
  let p := partition s fn
  p.getD ((g + sh) % p.length) 0

def regionKey (ctx g : Nat) : Nat := ctx * 4096 + g
/-- The descriptor as an agent has cached it. -/
def regionAt (s : State) (cl ctx g : Nat) : Region := smGet {} (getCl s cl).regions (regionKey ctx g)

/-- The key of a byte of a pool: a page of class coordinate with the permissions wanted (R147, R162). -/
def poolKey (s : State) (ctx va need : Nat) : Except (BitVec 8) Nat := do
  let e ← walk s ctx va
  if !permOk e.w1 need || fld e.w1 8 7 != 2 then .error 0x08
  else match physKey s (getCtx s ctx).fn (entPa e.w1 va) with
    | some k => .ok k
    | none => .error 0x08

/-- The CLB entry of a core for a tile (R168). -/
def clbFind (s : State) (core ctx g tile : Nat) : Option Word :=
  ((getCore s core).clb.find? fun x => x.2.valid && x.2.ctx == ctx && x.2.region == g && x.2.tile == tile).map (·.2.frame)

/-- The shard that an operation goes to (R173, R175): none where the coordinate is not one of the region. -/
def shardOf (w : List Word) (op : Nat) (c : Word) : Option Nat :=
  if op = 3 then
    if c = BitVec.allOnes 64 then some 0
    else if coordIn w c then some ((linOf w c + 1) / rgSpan w) else none
  else if coordIn w c then some (linOf w c / rgSpan w) else none

/-- COORD instructions but CINV (R164, R168, R381). -/
def coordOp (enc : BitVec 32) (op d a b : Nat) (s : State) : Host.Outcome State Fault Refusal :=
  thr 4 enc s fun e => do
    let rdD := op = 1 || op = 2
    chk e ([a, b] ++ if rdD then [d] else []) (if op = 1 then [] else [d]) []
    match e.sl.res with
    | some (.coord v _) => do
      let s ← if op = 1 then pure e.s else writeR e e.s d v
      return done e s
    | some (.fault c v) => walkStop c v
    | some _ => .error .cond
    | none => do
      let (s, g) ← opnd e e.s 0 a
      let (s, c) ← opnd e s 1 b
      let (s, x) ← if rdD then opnd e s 2 d else pure (s, 0)
      let ph := [g, c, x]
      need (decide (g.toNat < 4096)) 0x11 g
      let g := g.toNat
      let fn := (getCtx e.s e.sl.ctx).fn
      let cl := agentCl e.s fn g 0
      let w := (regionAt e.s cl e.sl.ctx g).ws
      let ask := fun (cl : Nat) => (.error (sendWait e s ph (if op = 1 then [] else [d]) 5 (dskOf e.sl) (treeUnit cl)
        (.coord (BitVec.ofNat 4 op) e.sl.ctx g c x e.t.core (retOf e c))) : X State)
      if rgClass w = 2 then
        match shardOf w op c with
        | some sh => if sh ≤ rgShards w then ask (agentCl e.s fn g sh) else ask cl
        | none => ask cl
      else if rgClass w = 1 && coordIn w c && (op == 0 || op == 1 || op == 2 || op == 4) then
        let l := unpackC (rgPack w) c
        match clbFind e.s e.t.core e.sl.ctx g (tileOf w l) with
        | none => ask cl
        | some fr =>
          let va := fr + wd (tileOff w l)
          match poolKey e.s e.sl.ctx va.toNat (if op = 0 then 1 else 3) with
          | .error c => walkStop c (if c = 0x08 then wd g else va)
          | .ok k => do
            let x := if op = 4 then rgBack w else x
            let st := sendWait e s ph (if op = 1 then [] else [d]) 5 (dskOf e.sl) (unitOf' k)
              (.celem (BitVec.ofNat 4 op) k (rgFmt w) x e.sl.ctx g (retOf e c))
            match st with
            | .keep s => .error (.keep (modSlot s e.t fun sl => { sl with coordHit := some g }))
            | st => .error st
      else ask cl

/-- The descriptor's words 0 and 1 as stored, for CLIN and CUNL (R284). -/
def descRead (e : Env) (s : State) (acc : List Word) (d : Nat) (g : Word) : X (State × List Word) := do
  need (decide (g.toNat < 4096)) 0x11 g
  let va := (getCtx e.s e.sl.ctx).regTab + 64 * g
  let (s, acc) ← phaseRead e s acc [d] va 8 (dskOf e.sl)
  let (s, acc) ← phaseRead e s acc [d] (va + 8) 8 (dskOf e.sl)
  need (rgClass (acc.drop 2) == 1 || rgClass (acc.drop 2) == 2) 0x11 g
  return (s, acc.drop 2)

/-- CLIN and CUNL (R284). -/
def linOp (enc : BitVec 32) (d a b : Nat) (f : List Word → Word → Option Word) (s : State) : Host.Outcome State Fault Refusal :=
  thr 4 enc s fun e => do
    chk e [a, b] [d] []
    let (s, g) ← opnd e e.s 0 a
    let (s, y) ← opnd e s 1 b
    let (s, w) ← descRead e s [g, y] d g
    match f w y with
    | none => trapX 0x11 y
    | some v => do
      let s ← writeR e s d v
      return done e s

/-- CLIN (R284). -/
def execClin (d a b : BitVec 7) (s : State) : Host.Outcome State Fault Refusal :=
  linOp (Enc.clin d a b) d.toNat a.toNat b.toNat (fun w y => if coordIn w y then some (wd (linOf w y)) else none) s

/-- CUNL (R284). -/
def execCunl (d a b : BitVec 7) (s : State) : Host.Outcome State Fault Refusal :=
  linOp (Enc.cunl d a b) d.toNat a.toNat b.toNat (fun w y => if y.toNat < rgTotal w then some (unlinOf w y.toNat) else none) s

/-- CLD (R164, R168, R171, R381). -/
def execCld (d a b : BitVec 7) (s : State) : Host.Outcome State Fault Refusal :=
  coordOp (Enc.cld d a b) 0 d.toNat a.toNat b.toNat s

/-- CST (R164, R168, R171, R381). -/
def execCst (d a b : BitVec 7) (s : State) : Host.Outcome State Fault Refusal :=
  coordOp (Enc.cst d a b) 1 d.toNat a.toNat b.toNat s

/-- CADD (R164, R168, R171, R381). -/
def execCadd (d a b : BitVec 7) (s : State) : Host.Outcome State Fault Refusal :=
  coordOp (Enc.cadd d a b) 2 d.toNat a.toNat b.toNat s

/-- CNEXT (R164, R168, R171, R381). -/
def execCnext (d a b : BitVec 7) (s : State) : Host.Outcome State Fault Refusal :=
  coordOp (Enc.cnext d a b) 3 d.toNat a.toNat b.toNat s

/-- CDEL (R164, R168, R171, R381). -/
def execCdel (d a b : BitVec 7) (s : State) : Host.Outcome State Fault Refusal :=
  coordOp (Enc.cdel d a b) 4 d.toNat a.toNat b.toNat s

/-- CALLOC (R164, R168, R171, R381). -/
def execCalloc (d a b : BitVec 7) (s : State) : Host.Outcome State Fault Refusal :=
  coordOp (Enc.calloc d a b) 5 d.toNat a.toNat b.toNat s

/-- CFREE (R164, R168, R171, R381). -/
def execCfree (d a b : BitVec 7) (s : State) : Host.Outcome State Fault Refusal :=
  coordOp (Enc.cfree d a b) 6 d.toNat a.toNat b.toNat s

/-- CINV (R165, R382). -/
def execCinv (a : BitVec 7) (s : State) : Host.Outcome State Fault Refusal :=
  thr 4 (Enc.cinv a) s fun e => do
    chk e [a.toNat] [] []
    match e.sl.res with
    | some .ok => return done e e.s
    | some (.fault c v) => walkStop c v
    | some _ => .error .cond
    | none => do
      let (s, g) ← readR e e.s a.toNat
      need (decide (g.toNat < 4096)) 0x11 g
      let cl := agentCl e.s (getCtx e.s e.sl.ctx).fn g.toNat 0
      .error (sendWait e s [] [] 5 (dskOf e.sl) (treeUnit cl) (.cinv e.sl.ctx g.toNat none (retOf e g)))

/-- CQRY (R164, R168, R171, R381). -/
def execCqry (d a b : BitVec 7) (s : State) : Host.Outcome State Fault Refusal :=
  coordOp (Enc.cqry d a b) 8 d.toNat a.toNat b.toNat s

end Sys2Proof.Machine
end

