-- ==== Sys2Proof/Machine/HostOps.lean ====
section
/-!
DEFINITION. What the device does on its host link: interrupts (R59, R66), words of host memory, the system-call
ring (R76, R77), notices posted to service cores (R68).
-/

namespace Sys2Proof.Machine

/-! ### MSI-X (R59) -/

/-- The reset value of a word of the MSI-X table: the mask bit of its vector is set (log 27). -/
def msixDefault (i : Nat) : Word := if i % 2 = 1 then 0x100000000 else 0

/-- Word i of the MSI-X table: two words a vector. -/
def msixGet (f : Fn) (i : Nat) : Word := smGet (msixDefault i) f.msixTab i
def msixSet (f : Fn) (i : Nat) (v : Word) : Fn := { f with msixTab := smSet (msixDefault i) f.msixTab i v }
/-- Vectors of a function. -/
def msixCount (fn : Nat) : Nat := if fn = 0 then 2048 else 256

/-- A vector raised: an interrupt message, or its pending bit while it is masked. -/
def raise (s : State) (fn vec : Nat) : State :=
  if vec ≥ msixCount fn then s
  else if bitAt (msixGet (getFn s fn) (2 * vec + 1)) 32 then
    modFn s fn fun f => { f with msixPba := smMod 0 f.msixPba (vec / 64) fun w => w ||| wd (2 ^ (vec % 64)) }
  else { s with msix := s.msix ++ [(fn, vec)] }

/-- The vector that a register names, unless its bit 63 is set. -/
def raiseReg (s : State) (fn : Nat) (r : Word) : State := if bitAt r 63 then s else raise s fn (fld r 10 0)

/-! ### Host memory (R144) -/

/-- The key of a host bus address, of its low 48 bits. -/
def hostAt (a : Nat) : Nat := hostKey + a % 0x1000000000000

/-- Words written to host memory. -/
def hostWrite (s : State) (a : Nat) (ws : List Word) : State := homeWriteL s (hostAt a) (wordBytes ws)

/-! ### Completion of launch entries (R61, R65, R66) -/

/-- A draining queue is DISABLED once its in-flight entries have completed (R61). -/
def settle (n : NQueue) : NQueue :=
  if n.draining && n.entries.all (fun e => e.written) then { n with st := 0, draining := false } else n

/-- A flag of a launch entry (R64). -/
def enFlag (ws : List Word) (i : Nat) : Bool := bitAt (wAt ws 6) i

/-- The final status of an entry that has completed (R65). -/
def entryStatus (x : Entry) : Option Nat :=
  match x.failed, x.status with
  | some st, _ => some st
  | none, some st => some st
  | none, none => if x.start && x.live = 0 then some 0 else none

/-- compcnt advances over completed entries in sequence order, each with its interrupt after it (R66). -/
def advanceComp (s : State) (fn q : Nat) : Nat → State
  | 0 => s
  | k + 1 =>
    let n := getNq s fn q
    match n.entries.find? fun x => x.seq = n.compcnt with
    | some x =>
      if x.written then
        let s := modNq s fn q fun n => { n with compcnt := n.compcnt + 1, entries := n.entries.filter fun y => y.seq != x.seq }
        advanceComp (if enFlag x.ws 2 then raiseReg s fn (getNq s fn q).qvec else s) fn q k
      else s
    | none => s

/-- An entry that has completed: its completion word, then compcnt, then the interrupt; one that a queue reset has left
behind goes without a word (R65, R66; log 25). -/
def completeEntry (s : State) (fn q seq : Nat) : State :=
  let n := getNq s fn q
  match n.entries.find? fun x => x.seq = seq with
  | none => s
  | some x =>
    match entryStatus x with
    | none => s
    | some st =>
      if x.written then s
      else if seq ≥ 2 ^ 64 then modNq s fn q fun n => { n with entries := n.entries.filter fun y => y.seq != seq }
      else
        let s := if enFlag x.ws 1 && n.compaddr != 0 then
            hostWrite s n.compaddr.toNat [wd (seq % 2 ^ 48 + st % 256 * 2 ^ 48)] else s
        let s := modNq s fn q fun n => { n with entries := n.entries.map fun y => if y.seq = seq then { y with written := true } else y }
        let s := advanceComp s fn q n.entries.length
        modNq s fn q settle

/-! ### The system-call ring (R76, R77) -/

/-- Slots of the ring; 0 when there is none. An sclog outside 4 to 16 gives none, so that calls are held (DESIGN CHOICE,
log 79). -/
def scSlots (f : Fn) : Nat :=
  if f.scbase = 0 || fld f.sclog 4 0 < 4 || fld f.sclog 4 0 > 16 then 0 else 2 ^ fld f.sclog 4 0

/-- Whether the ring has room. -/
def scRoom (f : Fn) : Bool := decide ((f.sctail - f.schead) < scSlots f)

/-- A message written into its slot; sctail advances, then the vector is raised. -/
def scWrite (s : State) (fn : Nat) (ws : List Word) : State :=
  let f := getFn s fn
  let s := hostWrite s (f.scbase.toNat + 64 * (f.sctail % scSlots f)) ws
  let s := modFn s fn fun f => { f with sctail := f.sctail + 1 }
  raiseReg s fn f.scvec

/-- Held messages sent while the ring has room, in the order in which their calls parked. -/
def scDrain (s : State) (fn : Nat) : Nat → State
  | 0 => s
  | n + 1 =>
    let f := getFn s fn
    match f.held with
    | [] => s
    | (_, ws) :: r => if scRoom f then scDrain (scWrite (modFn s fn fun f => { f with held := r }) fn ws) fn n else s

/-- A message sent, or held behind those that wait for room. -/
def scPost (s : State) (fn : Nat) (t : Tid) (ws : List Word) : State :=
  let s := modFn s fn fun f => { f with held := f.held ++ [(t, ws)] }
  scDrain s fn (getFn s fn).held.length

/-! ### System-call replies in a trace (R74, R210; the layout: log 28) -/

/-- The classes of the two records of a reply. -/
def scCls0 : Nat := 0xFE
def scCls1 : Nat := 0xFF

/-- The records of a reply appended in recording mode; a full ring under stall makes the reply wait (R209). -/
def scRecord (s : State) (fn : Nat) (t : Tid) (seq a0 a1 : Word) : State :=
  if (getFn s fn).recMode then
    let src := 0x20000 + tidWord t
    let s := ringWrite s fn (traceRec s a0.toNat scCls0 seq.toNat src)
    ringWrite s fn (traceRec s a1.toNat scCls1 seq.toNat src)
  else s

/-- The word of a replayed trace that holds a reply of a call, from record i. -/
def scReplay (s : State) (fn cls seq src : Nat) : Nat → Nat → Option Word
  | 0, _ => none
  | n + 1, i =>
    let f := getFn s fn
    if (i + 1) * 24 > f.rpBytes.toNat then none
    else match physKey s fn (f.rpBase.toNat + i * 24) with
      | none => none
      | some k =>
        let w1 := wd (memRead s.mem (k + 8) 8)
        if fld w1 39 32 = cls && fld w1 31 0 = seq && memRead s.mem (k + 16) 8 = src then some (wd (memRead s.mem k 8))
        else scReplay s fn cls seq src n (i + 1)

/-! ### Notices (R68) -/

/-- The bytes of a notice record, as words. -/
def noticeWords (n : Notice) : List Word :=
  [wd (n.type + n.status * 256 + n.ctx * 65536), wd n.seq, n.subject, n.detail, wd n.tick, 0, 0, 0]

/-- A notice sent by the unit that posts it to a service core as a class 21 packet, with the slack of the posting cluster; it
waits in the response network while the notice queue is full (R68, R440). -/
def noticeTo (src : Nat) (n : Notice) (s : State) (cl : Nat) : State := send s 21 (hskOf s src) src (coreUnit (svcCore cl)) (.notice n)

/-- The service core of a partition's lowest-numbered cluster, which posts what no unit of the partition does (log 83). -/
def firstSvc (s : State) (fn : Nat) : Nat := coreUnit (svcCore ((partition s fn).headD 0))

/-- A notice written to the notice area of queue 0 of a partition. -/
def noticeArea (n : Notice) (s : State) (fn : Nat) : State :=
  modNq s fn 0 fun q =>
    if q.ntcount - q.nthead < 32 then
      { q with ntcount := q.ntcount + 1, area := smSet [] q.area (q.ntcount % 32) (noticeWords n) }
    else { q with ntlost := q.ntlost + 1 }

/-- A notice posted by a unit: seq and tick filled in, sent to the service cores of the clusters concerned, and for a
link-retrained or die-reset notice written to the areas of their partitions. -/
def postNotice (s : State) (src : Nat) (n : Notice) (cls : List Nat) : State :=
  let n := { n with seq := s.noticeSeq, tick := tickN s }
  let s := { s with noticeSeq := s.noticeSeq + 1 }
  let s := cls.foldl (noticeTo src n) s
  if n.type = 1 then s
  else ((cls.map fun c => (getCl s c).fn).eraseDups).foldl (noticeArea n) s

end Sys2Proof.Machine
end

