-- ==== Sys2Proof/Machine/Reset.lean ====
section
/-!
DEFINITION. Hardware errors and resets (R29, R30, R205 to R207), and the boot sequence.
-/

namespace Sys2Proof.Machine

/-! ### Answers to requests that cannot be performed -/

/-- Where the reply of a request goes. -/
def bodyRet : Body → Ret
  | .load _ _ r => r
  | .store _ r => r
  | .put _ _ r => r
  | .amo _ _ _ _ r => r
  | .lnext _ _ _ _ r => r
  | .sync op => op.ret
  | .bar _ _ _ r => r
  | .withdraw _ r => r
  | .park _ _ _ _ _ _ _ r => r
  | .bead _ _ _ _ _ r => r
  | .mprog _ _ _ r => r
  | .coord _ _ _ _ _ _ r => r
  | .celem _ _ _ _ _ _ r => r
  | .cinv _ _ _ r => r
  | .msg _ _ _ r => r
  | .qelem _ _ _ r => r
  | .joinInc _ r => r
  | .joinSync _ _ _ r => r
  | .susp _ _ _ _ r => r
  | .resume _ _ _ r => r
  | .rq _ _ _ _ _ _ _ r => r
  | .tlbi _ _ _ _ gen cl => .shoot cl gen
  | .clbi _ _ _ gen cl => .shoot cl gen
  | .reply r _ => r
  | _ => .none

/-- The address that a fault of a request names. -/
def retVa : Ret → Word
  | .thread _ _ va => va
  | .access _ _ _ _ va => va
  | _ => 0

/-- The class of the reply to a request (R34). -/
def replyCls (cls : Nat) : Nat :=
  if cls = 1 || cls = 6 || cls = 7 then 17 else if cls = 4 then 18 else if cls = 5 then 19 else if cls = 9 then 20 else 16

/-- A request answered UNCORRECTABLE without reaching its home (R207, R208): the answer is at its issuer at once; a steal
request is answered EMPTY. -/
def answerLost (s : State) (p : Packet) : State :=
  let one := fun (s : State) (dst : Nat) (r : Ret) =>
    if r = .none then s
    else pushQ s (qk 4 dst 0 1) { cls := replyCls p.cls, slack := slackLeft (tickN s) p, late := lateAge (tickN s) p, src := p.dst, dst := dst,
                                  body := .reply r (.fault 0x18 (retVa r)) }
  match p.body with
  | .steal _ => pushQ s (qk 4 p.src 0 0) { cls := 8, slack := 0x200, src := p.dst, dst := p.src, body := .stolen none }
  | .stealU _ => pushQ s (qk 4 p.src 0 0) { cls := 8, slack := 0x200, src := p.dst, dst := p.src, body := .stolenU none }
  | _ =>
  if netOf p.cls = 0 then p.peers.foldl (fun s e => one s e.1 e.2.2.2.2.2) (one s p.src (bodyRet p.body))
  else match p.body with
    | .reply r _ => one s p.dst r
    | _ => s

/-! ### Die reset (R207) -/

/-- The die whose queue a key names. -/
def qDie (k : Nat) : Nat :=
  let kind := k / 2048 / 0x1000000
  let a := k / 2048 % 0x1000000
  if kind = 0 then a / 20 / 16 else if kind = 1 then a / 128 else if kind ≤ 3 then a else a / 4096

/-- The context of a continuation that a packet carries. -/
def flightCtx (s : State) (p : Packet) : Option Nat :=
  match p.body with
  | .stolen (some d) | .stolenU (some d) => some (getCont s d.uid).ctx
  | .enqueue u _ _ | .urgent u _ | .carryBack u _ _ _ _ _ _ | .stream u _ _ _ _ _ _ => some (getCont s u).ctx
  | .carry c => some c.ctx
  | _ => none

/-- The contexts with a thread, a claim or an agent on a die, threads on their way through it included. -/
def dieCtxs (s : State) (die : Nat) : List Nat :=
  let cores := s.cores.filter fun e => coreDie e.1 = die
  let slots := cores.flatMap fun e => e.2.slots.filterMap fun x =>
    match x.2.uid, x.2.resv with
    | some _, _ => some x.2.ctx
    | none, some u => some (getCont s u).ctx
    | none, none => none
  let deqs := cores.flatMap fun e => ((e.2.deque ++ e.2.udeque).map (·.uid) ++ blockUids e.2.blocks).map fun u => (getCont s u).ctx
  let ins := cores.flatMap fun e => e.2.uinbox.map (·.ctx)
  let cls := (s.clusters.filter fun e => clDie e.1 = die).flatMap fun e =>
    (e.2.inj ++ e.2.enq).map (·.ctx) ++ e.2.tasks.map (·.bead.ctx) ++ e.2.carries.map (·.ctx) ++ e.2.regions.map fun r => r.1 / 4096
  let fly := (s.queues.filter fun q => qDie q.1 = die).flatMap fun q => q.2.filterMap (flightCtx s)
  (slots ++ deqs ++ ins ++ cls ++ fly).eraseDups

/-- The lowest-numbered die that is not in reset drives the tick count (R36). -/
def pickDriver (s : State) : State :=
  match (List.range 4).find? fun d => !(getDie s d).inReset with
  | some d => { s with driver := d }
  | none => s

/-- Whether a key lies in a scratchpad of a die. -/
def scrOn (die k : Nat) : Bool := isScr k && coreDie (keyCore k) == die

/-- The cluster state that a reset leaves: its partition, its sensor and its clock, and the waiters of the beads of its
homes, whose pool lies beside the home agents (R106). -/
def clReset (tick : Nat) (c : Cluster) : Cluster :=
  { fn := c.fn, clock := c.clock, temp := c.temp, throttled := c.throttled, cycTick := tick,
    waiters := c.waiters.filter fun w => isDram w.2.bead, sparkCh := c.sparkCh.filter fun e => isDram e.2 }

/-- A death notice, which outlives the reset of the die that sends or receives it (R115; DESIGN CHOICE, log 50). -/
def isDeath (p : Packet) : Bool := match p.body with | .bead _ .death _ _ _ _ => true | _ => false

/-- An answer to an issuer elsewhere for what it waits for on dies that enter reset (R207). -/
def lostAt (s : State) (dies : List Nat) (cls slack : Nat) (late : Option Nat) (src dst : Nat) (r : Ret) : State :=
  if dies.contains (unitDie dst) || r = .none then s
  else pushQ s (qk 4 dst 0 1) { cls := cls, slack := slack, late := late, src := src, dst := dst, body := .reply r (.fault 0x18 (retVa r)) }

/-- The waiters of the beads in the scratchpads of dies that enter reset, which the reset clears, are woken where they wait
elsewhere; their wait ends as one whose bead's claimer has died, with ORPHAN_WAIT (R115, R197). -/
def wakeLost (s : State) (dies : List Nat) : State :=
  ((s.clusters.filter fun e => dies.contains (clDie e.1)).flatMap fun e => e.2.waiters.filter fun w => isScr w.2.bead).foldl
    (fun s w => if dies.contains (coreDie w.2.wcore) then s
      else pushQ s (qk 4 (coreUnit w.2.wcore) 0 1)
        { cls := 18, slack := w.2.slack, src := coreUnit (keyCore w.2.bead), dst := coreUnit w.2.wcore, body := .wake w.2 (.fail 0x0E w.2.handle) }) s

/-- Dies enter reset at once: contexts discarded, the dies' state cleared, DRAM kept; `whole` marks a package reset. -/
def resetDies (s : State) (dies : List Nat) (whole : Bool) : State :=
  let s := (dies.flatMap (dieCtxs s)).eraseDups.foldl (fun s c => teardown s c stDISCARDED) s
  let on := fun d => dies.contains d
  let scr := fun k => dies.any fun d => scrOn d k
  -- accesses parked on the dies, and packets in their queues, of issuers elsewhere
  let lost := ((s.queues.filter fun q => on (qDie q.1)).flatMap (·.2)).filter (fun p => !isDeath p) ++ (s.ports.filter fun p => on (p.1 / 4)).flatMap (·.2.await)
  let parked := (s.homes.filter fun h => on (unitDie h.1)).flatMap fun h => h.2.parked.map fun p => (h.1, p)
  let waits := (s.clusters.filter fun e => on (clDie e.1)).flatMap fun e => e.2.rqWaits.map fun w => (rqUnit e.1, w)
  let s := wakeLost s dies
  let s := { s with
    queues := (s.queues.map fun (q : Nat × List Packet) => if on (qDie q.1) then (q.1, q.2.filter isDeath) else q).filter fun q => !q.2.isEmpty
    homes := s.homes.filter fun h => !on (unitDie h.1)
    cores := s.cores.filter fun e => !on (coreDie e.1)
    routers := s.routers.filter fun r => !on (r.1 / 320)
    tokens := s.tokens.filter fun t => !on (t.1 / 128)
    mem := s.mem.filter fun e => !scr e.1
    bad := s.bad.filter fun w => !scr (w * 8)
    marks := s.marks.filter fun w => !scr (w * 8)
    full := s.full.filter fun w => !scr (w * 4)
    clusters := s.clusters.map fun (e : Nat × Cluster) => if on (clDie e.1) then (e.1, clReset (tickN s) e.2) else e
    ports := s.ports.map fun (p : Nat × Port) => if on (p.1 / 4) then (p.1, { p.2 with rx := [], part := [], remote := [], await := [] }) else p }
  let s := ((dies.flatMap fun die => (List.range 16).map fun c => (getCl s (die * 16 + c)).fn).eraseDups).foldl
    (fun s f => modFn s f fun f => { f with trHead := 0, trTail := 0 }) s
  let s := lost.foldl (fun s p =>
    let dst := if netOf p.cls = 0 then p.src else p.dst
    if on (unitDie dst) then s else answerLost s p) s
  let s := parked.foldl (fun s e =>
    let r := match e.2.kind with | .sync op => op.ret | .bar _ r => r | .park _ _ _ _ _ => .none
    lostAt s dies 16 e.2.slack e.2.late e.1 e.2.src r) s
  let s := waits.foldl (fun s w => lostAt s dies 16 w.2.slack w.2.late w.1 w.2.src w.2.ret) s
  pickDriver (dies.foldl (fun s die => modDie s die fun d => { d with inReset := true, since := tickN s, whole := whole, rank := [] }) s)

/-- A reset of one die (R207). -/
def dieReset (s : State) (die : Nat) (whole : Bool) : State := resetDies s [die] whole

/-- A port starts a training sequence (R21, R23, R29). -/
def startTraining (tick : Nat) (p : Port) : Port :=
  { p with st := .lock, since := tick, attempts := 0, retrain := p.retrain || p.st == .active, fecGood := 0, naks := [] }

/-- Every entry of every queue that has not completed completes with DISCARDED, in sequence order (R206, R66). -/
def discardEntries (s : State) : State :=
  s.fns.foldl (fun s f => f.2.queues.foldl (fun s q =>
    q.2.entries.foldl (fun s e => completeEntry s f.1 q.1 e.seq)
      (modNq s f.1 q.1 fun n => { n with entries := n.entries.map fun e =>
        if (entryStatus e).isNone then { e with failed := some stDISCARDED, live := 0 } else e })) s) s

/-- A package reset (R29): the reset of all four dies at once, every context, image, trace ring and notify queue. Of a queue's
counters ringidx, admitted and compcnt go to 0, and the counts of its notice area stay (DESIGN CHOICE, log 51). What is in
neither list of R29 stays: queue bindings and peers, qvec, the system-call ring's registers, the signed-only flag and the
power limit (DESIGN CHOICE, log 77). -/
def packageReset (s : State) : State :=
  let s := resetDies s [0, 1, 2, 3] true
  let s := discardEntries (s.ctxs.foldl (fun s c => teardown s c.1 stDISCARDED) s)
  let s := { s with
    ctxs := [], conts := [], written := [], subs := [], boot := { fw := s.boot.fw },
    power := { s.power with shutdown := false },
    fns := s.fns.map fun (f : Nat × Fn) => (f.1, { f.2 with
      trBase := 0, trBytes := 0, trStall := false, trHead := 0, trTail := 0, rpBase := 0, rpBytes := 0, rep5 := [], rep5At := 0, held := [],
      halted := false, diverged := false,
      queues := f.2.queues.map fun (q : Nat × NQueue) => (q.1, { q.2 with
        ringidx := 0, admitted := 0, compcnt := 0, st := 0, err := 0, awaited := 0, draining := false, entries := [] }) }) }
  (List.range 16).foldl (fun s p => modPort s p (startTraining (tickN s))) s

/-- The clusters of every partition that holds a cluster of a die (log 26). -/
def dieConcerns (s : State) (die : Nat) : List Nat :=
  let fs := (List.range 16).map fun c => (getCl s (die * 16 + c)).fn
  (List.range 64).filter fun c => fs.contains (getCl s c).fn

/-- A die out of reset, with its notice, which the service core of its first cluster posts (R68, R207; log 83). -/
def dieBack (s : State) (die : Nat) : State :=
  let s := pickDriver (modDie s die fun d => { d with inReset := false, whole := false })
  postNotice s (coreUnit (svcCore (die * 16))) { type := 3, subject := wd die } (dieConcerns s die)

/-- DIE_RESET_COMPLETE (R207, R36). -/
def execDieResetComplete (die : BitVec 2) (s : State) : Host.Outcome State Fault Refusal :=
  let d := getDie s die.toNat
  .next (if d.inReset && !d.whole then dieBack s die.toNat else s)

/-- Whether a package reset is in progress. -/
def wholeReset (s : State) : Bool := (List.range 4).all fun d => (getDie s d).inReset && (getDie s d).whole

/-- PACKAGE_RESET_COMPLETE (R29): after the boot sequence of R30 the dies come back, each with its notice. -/
def execPackageResetComplete (s : State) : Host.Outcome State Fault Refusal :=
  .next (if wholeReset s && s.boot.done then (List.range 4).foldl dieBack s else s)

/-! ### Boot (R30) -/

/-- The index of the first firmware stage that is rejected. -/
def bootCheck (key : List Byte) : List Stage → Nat → Option Nat
  | [], _ => none
  | st :: r, i =>
    if st.secVer < Config.minSecurityVersion || !Config.ed25519Verify key st.image st.sig then some i
    else bootCheck st.nextKey r (i + 1)

/-- BOOT (R29, R30): every stage is verified before it runs; a rejection leaves the device in recovery mode. A package reset
boots while its dies are in reset. A device that holds
no firmware boots with nothing verified (DESIGN CHOICE, log 48). -/
def execBoot (s : State) : Host.Outcome State Fault Refusal :=
  let key := match s.boot.fw with | st :: _ => st.key | [] => []
  .next (
    if s.boot.done || s.boot.recovery || !s.power.supplyOk || s.power.shutdown || !wholeReset s && (List.range 4).any (fun d => (getDie s d).inReset) then s
    else
      let bad := if !s.boot.fw.isEmpty && Config.sha512 key != Config.fusedDigest then some 0 else bootCheck key s.boot.fw 0
      match bad with
      | none => { s with boot := { s.boot with done := true, stage := s.boot.fw.length } }
      | some i => { s with boot := { s.boot with recovery := true, failing := i, stage := i }, i3c := { s.i3c with ibis := s.i3c.ibis + 1 } })

/-! ### A core's parity error (R205) -/

/-- Whether a continuation descends from a member of a list. -/
def descends (s : State) (l : List Nat) : Nat → Nat → Bool
  | 0, _ => false
  | n + 1, u =>
    match (getCont s u).parent with
    | some p => l.contains p || descends s l n p
    | none => false

/-- Whether a list names the continuation of an optional identifier. -/
def namesOpt (l : List Nat) (o : Option Nat) : Bool :=
  match o with
  | some u => l.contains u
  | none => false

/-- Whether an injection-queue entry holds none of a list of continuations. -/
def injKeep (l : List Nat) (i : Inj) : Bool :=
  match i.kind with
  | .cont u _ => !l.contains u
  | _ => true

/-- A core without a list of continuations. -/
def dropCore (l : List Nat) (c : Core) : Core :=
  { c with
    slots := c.slots.foldl (fun m x => if namesOpt l x.2.uid || namesOpt l x.2.resv then smSet {} m x.1 (emptySlot x.2) else m) c.slots,
    deque := c.deque.filter (fun d => !l.contains d.uid),
    udeque := c.udeque.filter (fun d => !l.contains d.uid),
    uinbox := c.uinbox.filter (injKeep l),
    blocks := keepBlocks l.contains c.blocks }

/-- A cluster without a list of continuations. -/
def dropCluster (l : List Nat) (c : Cluster) : Cluster :=
  { c with inj := c.inj.filter (injKeep l), enq := c.enq.filter (injKeep l), carries := c.carries.filter (fun k => !l.contains k.uid) }

/-- Continuations dropped wherever they stand. -/
def dropConts (s : State) (l : List Nat) : State :=
  let s := { s with cores := s.cores.map (fun (e : Nat × Core) => (e.1, dropCore l e.2)), clusters := s.clusters.map (fun (e : Nat × Cluster) => (e.1, dropCluster l e.2)) }
  let s := s.homes.foldl (fun (s : State) (h : Nat × HomeSt) => h.2.parked.foldl (fun s p => if namesOpt l (parkedUid p) then unpark s h.1 p else s) s) s
  l.foldl endCont s

end Sys2Proof.Machine
end

