-- ==== Sys2Proof/Machine/Home.lean ====
section
/-!
DEFINITION. A home's input queue: arrival and combining (R52, R53), arbitration (R39, R40), and the performance of
each request whole (R7), with parked accesses (R308 to R311, R318, R356), join records (R354), resume cells (R357),
nest counters (R93) and bead operations (R109).
-/

namespace Sys2Proof.Machine

/-! ### Requests that a home performs -/

/-- The row of the step table that performs a request at a home. -/
def homeKind : Body → Option Nat
  | .load _ _ _ | .store _ _ | .put _ _ _ | .amo _ _ _ _ _ | .celem _ _ _ _ _ _ _ => some 0
  | .sync _ => some 1
  | .withdraw _ _ => some 2
  | .bar _ _ _ _ => some 3
  | .park _ _ _ _ _ _ _ _ => some 4
  | .lnext _ _ _ _ _ => some 5
  | .joinInc _ _ | .joinSync _ _ _ _ | .joinRet _ _ => some 6
  | .susp _ _ _ _ _ | .resume _ _ _ _ => some 7
  | .bead _ op _ _ _ _ => some (match op with
    | .claim _ => 9
    | .completion _ _ => 10
    | .poisoned _ _ => 11
    | .engFault _ => 12
    | .opFail _ _ => 13
    | .death => 14
    | _ => 8)
  | .mprog _ _ _ _ => some 8
  | _ => none

/-- The bytes that a request names at its home, as key and count. -/
def bodySpan : Body → Nat × Nat
  | .load k n _ => (k, n)
  | .store c _ | .put c _ _ => ((c.headD (0, 0)).1, c.length)
  | .amo fn k _ _ _ => (k, amoBytes fn.toNat)
  | .celem _ k _ _ _ _ _ => (k, 8)
  | .sync op => (op.key, op.bytes)
  | .withdraw k _ => (k, 8)
  | .bar k _ _ _ => (k, 8)
  | .park k _ _ _ _ _ _ _ => (k, 8)
  | .lnext k _ _ _ _ => (k, 8)
  | .joinInc k _ => (k, 16)
  | .joinSync k _ _ _ => (k, 16)
  | .joinRet k _ => (k, 16)
  | .susp k _ _ _ _ => (k.1, 64)
  | .resume k _ _ _ => (k.1, 64)
  | .bead b _ _ _ _ _ => (b.key, 64)
  | .mprog n _ _ _ => (n, 0)
  | _ => (0, 0)

/-- The 64-bit words that a request touches at its home. -/
def bodyWords : Body → List Nat
  | .store c _ | .put c _ _ => (c.map fun x => x.1 / 8).eraseDups
  | .mprog _ _ _ _ => []
  | .susp k _ _ _ _ | .resume k _ _ _ => wordsOf k.1 64 ++ wordsOf k.2 64
  | b => wordsOf (bodySpan b).1 (bodySpan b).2

/-- Whether two requests touch a 64-bit word in common. -/
def sameWord (a b : Body) : Bool := (bodyWords a).any fun w => (bodyWords b).contains w

/-- The address of a request's trace record: the handle of a bead operation, else the physical address (R209); for a
microprogram, the service core's first scratchpad address plus its slot (log 37). -/
def bodyAddr : Body → Nat
  | .bead b _ _ _ _ _ => b.handle.toNat
  | .mprog n _ _ ret => scrKey (svcCore (coreCl (((retTid ret).map (·.core)).getD 0))) n
  | b => (bodySpan b).1

/-! ### Combined entries (R52, R53) -/

/-- The source units of an entry's members. -/
def srcsOf (p : Packet) : List Nat := p.src :: p.peers.map (·.1)

/-- Whether two entries have a member of one source. -/
def meetSrc (p q : Packet) : Bool := (srcsOf p).any fun a => (srcsOf q).contains a

/-- The operand and return address that a member keeps. -/
def memberOf (p : Packet) : Nat × Nat × Option Nat × Nat × Word × Ret :=
  (p.src, p.slack, p.late, p.since, (match p.body with | .amo _ _ y _ _ => y | _ => 0), bodyRet p.body)

/-- Whether two requests are of a kind that combines: loads of one word and size, or AMO ADD of one word. -/
def combines (a b : Packet) : Bool :=
  match a.body, b.body with
  | .load k n _, .load k' n' _ => k == k' && n == n' && a.cls == 0 && b.cls == 0
  | .amo fn k _ _ _, .amo fn' k' _ _ _ => fn == 0 && fn' == 0 && k == k'
  | _, _ => false

/-- The entry of a home's queue that a request joins, if the requests that arrived after it let it. -/
def joinAt (q : List Packet) (p : Packet) : Option Nat :=
  idxOf (fun (e : Packet × Nat) => combines e.1 p &&
    (q.drop (e.2 + 1)).all fun x => !sameWord x.body p.body && !meetSrc x e.1 && !meetSrc x p) q.zipIdx

/-- The members of an entry in order of arrival, each as a request of its own. -/
def members (p : Packet) : List Packet :=
  p.peers.map (fun m => { p with
    src := m.1, slack := m.2.1, late := m.2.2.1, since := m.2.2.2.1, peers := []
    body := match p.body with
      | .load k n _ => .load k n m.2.2.2.2.2
      | .amo fn k _ x _ => .amo fn k m.2.2.2.2.1 x m.2.2.2.2.2
      | b => b }) ++ [{ p with peers := [] }]

/-! ### Arrivals -/

/-- The index of the arrived packet that a unit takes next among those that satisfy `ok`: a pair head, with no packet
of its pair before it in the home's queue (R40, R54). -/
def arrivedIdx (s : State) (unit net : Nat) (ok : Packet → Bool) : Option Nat :=
  let h := if net = 0 then getQ s (qk 5 unit 0 0) else []
  (arb (tickN s) (fun p => ok p && h.all fun x => !(srcsOf x).contains p.src) (getQ s (qk 4 unit 0 net))).map (·.1)

/-- The packet taken off the arrivals of a unit, and the state without it; nothing is taken on a die that does not work. -/
def takeArrived (s : State) (unit net : Nat) (ok : Packet → Bool) : Option (Packet × State) :=
  if !dieRuns s (unitDie unit) then none
  else match arrivedIdx s unit net ok with
  | none => none
  | some i =>
    let q := getQ s (qk 4 unit 0 net)
    match q[i]? with
    | none => none
    | some p => some (depart (tickN s) p, setQ s (qk 4 unit 0 net) (delAt q i))

/-- The packet taken off the arrivals of a unit in order of arrival (R90), a pair's older packets before its younger ones. -/
def takeOldest (s : State) (unit net : Nat) (ok : Packet → Bool) : Option (Packet × State) :=
  let q := getQ s (qk 4 unit 0 net)
  let h := if net = 0 then getQ s (qk 5 unit 0 0) else []
  if !dieRuns s (unitDie unit) then none
  else match q.zipIdx.find? fun e => isHead q e.2 e.1 && ok e.1 && h.all fun x => !(srcsOf x).contains e.1.src with
    | none => none
    | some (p, i) => some (depart (tickN s) p, setQ s (qk 4 unit 0 net) (delAt q i))

/-- Whether a packet is a request to an agent. -/
def isAgentReq (p : Packet) : Bool := match p.body with | .coord _ _ _ _ _ _ _ | .cinv _ _ _ _ => true | _ => false

/-- The address of a request's trace record at a home or at a tree agent: there the linear coordinate, and for CINV the region;
none for an operation that the agent refuses before it performs anything (R162, R173, R209). -/
def agentAddr (s : State) (unit : Nat) (p : Packet) : Option Nat :=
  match p.body with
  | .coord op ctx g c _ _ _ =>
    let w := (regionAt s (unitCl unit) ctx g).ws
    if rgClass w != 1 && rgClass w != 2 then none
    else if op == 3 && c == BitVec.allOnes 64 then some 0
    else if coordIn w c && !(op == 3 && rgClass w == 2 && decide (linOf w c / rgSpan w > rgShards w)) then some (linOf w c)
    else none
  | .cinv _ g _ _ => some g
  | b => some (bodyAddr b)

/-- The source field of the trace record of a request. -/
def pktSrc (s : State) (p : Packet) : Nat := traceSrc s (bodyRet p.body) p.src

/-- Whether a request is performed as soon as it is served: not one that may park first. -/
def replayed (p : Packet) : Bool :=
  match p.body with
  | .sync _ => false
  | _ => true

/-- Whether replay lets a request join an entry: the enforced trace performs it right after the entry's last member (R52,
R210). -/
def joinReplay (s : State) (unit : Nat) (e p : Packet) : Bool :=
  let fn := unitFn s unit
  let f := getFn s fn
  let n := f.rpBytes.toNat / 24 + 1
  !f.replay || (getHome s unit).free ||
    match recordIdx s fn unit e.cls (pktSrc s e) (bodyAddr e.body) n (getHome s unit).replayAt with
    | none => false
    | some j => match replayNext s fn unit n (j + 1) with
      | some (_, c, sr, a) => c == p.cls && sr == pktSrc s p && a == bodyAddr p.body
      | none => false

/-- A request put into a home's queue, combined where R52 allows. A combined entry stands at the place of its last member
and counts as arriving with its first (R40, R52). -/
def enterHome (s : State) (unit : Nat) (p : Packet) : State :=
  let k := qk 5 unit 0 0
  let q := getQ s k
  let n := (getHome s unit).arrivals
  let p := { p with since := tickN s, arr := n }
  let s' := modHome s unit fun h => { h with arrivals := n + 1 }
  match joinAt q p with
  | some i =>
    match q[i]? with
    | some e =>
      if joinReplay s unit e p then setQ s' k (delAt q i ++ [{ p with arr := e.arr, peers := e.peers ++ [memberOf e] }])
      else setQ s' k (q ++ [p])
    | none => setQ s' k (q ++ [p])
  | none => setQ s' k (q ++ [p])

/-- HOME_ENQUEUE (R52, R207, R210): the next request that has arrived enters its home's input queue; on a die in reset it
is answered, and a death notice waits for the die (log 50). -/
def execHomeEnqueue (unit : Nat) (net : Nat) (s : State) : Host.Outcome State Fault Refusal :=
  let q := getQ s (qk 4 unit 0 0)
  .next (
    if net != 0 then s
    else if !(getDie s (unitDie unit)).inReset && !dieRuns s (unitDie unit) then s
    else match (q.zipIdx.find? fun e => isHead q e.2 e.1 && (homeKind e.1.body).isSome && !((getDie s (unitDie unit)).inReset && isDeath e.1)).map (·.2) with
      | none => s
      | some i =>
        match q[i]? with
        | none => s
        | some p =>
          let s' := setQ s (qk 4 unit 0 0) (delAt q i)
          let p := depart (tickN s) p
          if (getDie s (unitDie unit)).inReset then answerLost s' p
          else if (getQ s (qk 5 unit 0 0)).length ≥ 32 then s
          else
            enterHome (arrivalNote s' unit p.cls (pktSrc s p) (bodyAddr p.body) (retUrgent s (bodyRet p.body))) unit p)

/-! ### Parked accesses -/

/-- Entries of a unit's park table (R309). -/
def parkMax (unit : Nat) : Nat := if isSliceUnit unit then 1024 else 256

/-- Whether a barrier arrival parks rather than closes its episode or is refused (R318). -/
def barParks (s : State) (key count : Nat) : Bool :=
  let w := wd (memRead s.mem key 8)
  let bad := fld w 31 16 != 0 || (fld w 47 32 == 0 && fld w 15 0 != 0)
  let c := if fld w 15 0 = 0 then count else fld w 47 32
  !bad && (fld w 15 0 == 0 || count == fld w 47 32) && fld w 15 0 + 1 != c

/-- Whether a request would park. -/
def wouldPark (s : State) (b : Body) : Bool :=
  match b with
  | .sync op => !syncHolds s op
  | .bar k n _ _ => barParks s k n
  | .park k e _ _ _ _ _ _ => wd (memRead s.mem k 8) == e
  | _ => false

/-- Whether an entry cannot be performed now: the trace ring has no room for the records of its members under stall, replay
holds its first member, it would park in a full table, or it would append to a full waiter pool (R106, R190, R209, R309). -/
def heldPkt (s : State) (unit : Nat) (p : Packet) : Bool :=
  let m := (members p).headD p
  !traceRoomN s (unitFn s unit) (p.peers.length + 1) ||
  (wouldPark s p.body && decide ((getHome s unit).parked.length ≥ parkMax unit)) ||
  (match p.body with
    | .bead b op _ _ _ _ => bdAppends s b op && (waiterFree s (unitCl unit)).isNone
    | _ => false) ||
  ((replayed p || (match p.body with | .sync op => syncHolds s op | _ => false)) &&
    !replayOk s unit m.cls (pktSrc s m) (bodyAddr m.body))

/-- Whether an entry waits for the waiter pool: later bead operations wait behind it (R106). -/
def poolHeld (s : State) (unit : Nat) (p : Packet) : Bool :=
  match p.body with
  | .bead b op _ _ _ _ => bdAppends s b op && (waiterFree s (unitCl unit)).isNone
  | _ => false

def isBead (p : Packet) : Bool := match p.body with | .bead _ _ _ _ _ _ => true | _ => false

/-- Whether an entry may be performed with others queued ahead of it: none has a member of its sources, and none that could
be performed touches its word, so each source's and each word's order is kept (R39, R52). -/
def mayPass (s : State) (unit : Nat) (ahead : List Packet) (e : Packet) : Bool :=
  (ahead.all fun x => !meetSrc x e && (!sameWord x.body e.body || heldPkt s unit x)) && !(isBead e && ahead.any (poolHeld s unit))

/-- The index of the entry that a home performs next, ties to the earlier arrival (R39, R40, R53). -/
def homeArb (s : State) (unit : Nat) : Option Nat :=
  let q := getQ s (qk 5 unit 0 0)
  ((q.zipIdx).foldl (fun (best : Option (Nat × Nat × Nat)) e =>
    if mayPass s unit (q.take e.2) e.1 && !heldPkt s unit e.1 then
      let r := q.foldl (fun r x => if meetSrc x e.1 then min r (rankPkt (tickN s) x) else r) (2 ^ 70)
      match best with
      | some (_, r0, a0) => if r < r0 || (r == r0 && e.1.arr < a0) then some (e.2, r, e.1.arr) else best
      | none => some (e.2, r, e.1.arr)
    else best) none).map (·.1)

/-! ### Performance -/

/-- An access parked at its home. -/
def parkAt (s : State) (unit : Nat) (p : Packet) (kind : ParkKind) (key : Nat) (ticks : Option Nat) : State :=
  modHome s unit fun h => { h with parked := h.parked ++
    [{ kind := kind, key := key, deadline := ticks.map (tickN s + ·), src := p.src, slack := slackLeft (tickN s) p,
       late := lateAge (tickN s) p }] }

/-- Ticks of a wait bounded by wlimt. -/
def wlTicks (wl : Nat) : Option Nat := if wl = 0 then none else some wl

/-- The records of a request performed. -/
def noteOf (s : State) (unit : Nat) (p : Packet) : State := homeNote s unit p.cls (pktSrc s p) p.src (bodyAddr p.body) (retUrgent s (bodyRet p.body))

/-- A load at its home (R203, R204). -/
def loadAt (s : State) (key n : Nat) (ret : Ret) : State × Res :=
  match ret with
  | .access _ _ _ m _ => readLine s (key / 64) m
  | _ =>
    match eccStatus s key n with
    | 0 => (s, .words (if n ≤ 8 then [wd (memRead s.mem key n)] else (List.range (n / 8)).map fun i => wd (memRead s.mem (key + 8 * i) 8)))
    | 1 => (markRead s key n, .fault 0x18 (retVa ret))
    | _ => (s, .fault 0x14 (retVa ret))

/-- HOME_PERFORM's requests: load, store, atomic, coordinate element. -/
def memPerform (s : State) (unit : Nat) (p : Packet) : State :=
  match p.body with
  | .load k n r => let (s, v) := loadAt (noteOf s unit p) k n r; reply s 16 unit p r v
  | .store c r => reply (storeAtHome (noteOf s unit p) c) 17 unit p r .ok
  | .put c m r => reply (putAtHome (noteOf s unit p) c m) 17 unit p r .ok
  | .amo fn k y x r => let (s, v) := amoAt (noteOf s unit p) fn.toNat k y x (retVa r); reply s 16 unit p r v
  | .celem op k fmt x _ _ r => let (s, v) := elemAccess (noteOf s unit p) op.toNat k fmt x (retVa r); reply s 19 unit p r v
  | _ => s

/-- A synchronising access acts, or parks (R308). -/
def syncPerform (s : State) (unit : Nat) (p : Packet) (op : SyncOp) : State :=
  if syncHolds s op then
    let (s, r) := syncAct (noteOf s unit p) op
    reply s (syncCls op) unit p op.ret r
  else parkAt s unit p (.sync op) op.key (some op.limit)

/-- A withdrawal (R311, R318): the access or arrival that its thread has parked from the same core is removed; one that has
acted keeps its reply. -/
def withdrawPerform (s : State) (unit : Nat) (p : Packet) (ret : Ret) : State :=
  let s := noteOf s unit p
  match (getHome s unit).parked.find? fun x => (match x.kind with | .park _ _ _ _ _ => false | _ => true) && x.src == p.src &&
      (retUid ret).isSome && parkedUid x == retUid ret with
  | some x => reply (unpark s unit x) 16 unit p ret .withdrawn
  | none => s

/-- A BAR arrival (R318). -/
def barPerform (s : State) (unit : Nat) (p : Packet) (k n wl : Nat) (ret : Ret) : State :=
  let s := markRead (noteOf s unit p) k 8
  let w := wd (memRead s.mem k 8)
  if fld w 31 16 != 0 || (fld w 47 32 == 0 && fld w 15 0 != 0) then reply s 16 unit p ret (.fault 0x12 (retVa ret))
  else if fld w 15 0 != 0 && n != fld w 47 32 then reply s 16 unit p ret (.fault 0x08 (retVa ret))
  else
    let c := if fld w 15 0 = 0 then n else fld w 47 32
    let a := fld w 15 0 + 1
    if a = c then
      let s := (getHome s unit).parked.foldl (fun s x =>
        match x.kind with
        | .bar _ r => if x.key = k then
            parkedReply (modHome s unit fun h => { h with parked := h.parked.filter fun y => y != x }) unit 16 x r .ok
          else s
        | _ => s) s
      homeWrite (reply s 16 unit p ret .ok) k 8 ((fld w 63 48 + 1) % 2 ^ 16 * 2 ^ 48)
    else homeWrite (parkAt s unit p (.bar n ret) k (wlTicks wl)) k 8 (fld w 63 48 * 2 ^ 48 + c * 2 ^ 32 + a)

/-- A PARK (R356). -/
def parkPerform (s : State) (unit : Nat) (p : Packet) (k : Nat) (e : Word) (wl uid ctx : Nat) (recA pc : Word) (ret : Ret) : State :=
  let s := markRead (noteOf s unit p) k 8
  if wd (memRead s.mem k 8) != e then reply s 16 unit p ret .ok
  else reply (parkAt s unit p (.park e uid ctx recA pc) k (wlTicks wl)) 16 unit p ret .waits

/-- The record at an address enqueued: the continuation that left it there, or one that no slot has left (R88). -/
def enqueueRec (s : State) (unit ctx : Nat) (addr : Word) : State :=
  match recUid s ctx addr with
  | some u => sendEnqueue s unit u (.mem addr)
  | none =>
    let u := s.nextUid
    let s := modCont { s with nextUid := u + 1 } u fun _ => { ctx := ctx, core := svcCore (unitCl unit) }
    sendEnqueue s unit u (.mem addr)

/-- The join record's operations (R353, R354). -/
def joinPerform (s : State) (unit : Nat) (p : Packet) : State :=
  let s := noteOf s unit p
  match p.body with
  | .joinInc k r => reply (homeWrite s k 8 (memRead s.mem k 8 + 1)) 16 unit p r .ok
  | .joinSync k a _ r =>
    if memRead s.mem k 8 = 0 then reply s 16 unit p r .ok
    else reply (homeWrite s (k + 8) 8 a.toNat) 16 unit p r .waits
  | .joinRet k ctx =>
    let n := memRead s.mem k 8 + 2 ^ 64 - 1
    let s := homeWrite s k 8 n
    let c := wd (memRead s.mem (k + 8) 8)
    if n % 2 ^ 64 = 0 && c != 0 then enqueueRec (homeWrite s (k + 8) 8 0) unit ctx c else s
  | _ => s

/-- Whether a resume cell has a reserved state or a nonzero reserved bit (R357). -/
def cellBad (s : State) (k : Nat) : Bool :=
  let w := memRead s.mem k 8
  w / 4 != 0 || w % 4 == 3 || (List.range 6).any fun i => memRead s.mem (k + 16 + 8 * i) 8 != 0

/-- The continuation that a cell's record belongs to is noted under the cell's key, apart from virtual addresses. -/
def cellTag (ctx : Nat) : Nat := ctx + 2 ^ 20

/-- The resume cell's operations (R357); a request names the key of the cell and the one of its record, at cell + 64. -/
def cellPerform (s : State) (unit : Nat) (p : Packet) : State :=
  let s := noteOf s unit p
  match p.body with
  | .susp (k, kr) ws uid ctx r =>
    let s := markRead s k 64
    if cellBad s k then reply s 16 unit p r (.fault 0x12 (retVa r))
    else match memRead s.mem k 8 with
      | 2 => reply (homeWrite s k 8 0) 16 unit p r (.words [wd (memRead s.mem (k + 8) 8)])
      | 0 =>
        let s := homeWriteL s kr (wordBytes ws)
        reply (noteRec (homeWrite s k 8 1) (cellTag ctx) (wd kr) uid) 16 unit p r .waits
      | _ => reply s 16 unit p r (.fault 0x08 (retVa r))
  | .resume (k, kr) v ctx r =>
    let s := markRead s k 64
    if cellBad s k then reply s 16 unit p r (.fault 0x12 (retVa r))
    else match memRead s.mem k 8 with
      | 0 => reply (homeWrite (homeWrite s k 8 2) (k + 8) 8 v.toNat) 16 unit p r (.words [0])
      | 1 =>
        let ws := (List.range 8).map fun i => wd (memRead s.mem (kr + 8 * i) 8)
        if fld (wAt ws 1) 31 16 != ctx then reply s 16 unit p r (.fault 0x08 (retVa r))
        else
          let ws := if eccStatus s kr 64 = 0 then ws else []
          let s := homeWrite (markRead s kr 64) k 8 0
          let (s, u) := match recUid s (cellTag ctx) (wd kr) with
            | some u => (s, u)
            | none => (modCont { s with nextUid := s.nextUid + 1 } s.nextUid fun _ => { ctx := ctx, core := svcCore (unitCl unit) }, s.nextUid)
          let s := modCont s u fun c => { c with a0 := some v }
          sendEnqueue (reply s 16 unit p r (.words [1])) unit u (.held ws)
      | _ => reply (homeWrite s (k + 8) 8 v.toNat) 16 unit p r (.words [2])
  | _ => s

/-- A microprogram loaded at the tile scheduler of a cluster (R366). -/
def mprogPerform (s : State) (unit : Nat) (p : Packet) (n : Nat) (w0 w1 : Word) (ret : Ret) : State :=
  reply (modCl s (unitCl unit) fun c => { c with mprog := smSet (0, 0) c.mprog n (w0, w1) }) 18 unit p ret .ok

/-- One request performed whole. -/
def perform (s : State) (unit : Nat) (p : Packet) : State :=
  match p.body with
  | .sync op => syncPerform s unit p op
  | .withdraw _ r => withdrawPerform s unit p r
  | .bar k n wl r => barPerform s unit p k n wl r
  | .park k e wl u ctx a pc r => parkPerform s unit p k e wl u ctx a pc r
  | .lnext k n mc pt r => let (s, v) := lnextAt (noteOf s unit p) k n mc pt (retVa r); reply s 16 unit p r v
  | .joinInc _ _ | .joinSync _ _ _ _ | .joinRet _ _ => joinPerform s unit p
  | .susp _ _ _ _ _ | .resume _ _ _ _ => cellPerform s unit p
  | .bead b op wl wc c r => bdPerform (noteOf s unit p) unit p b op wl wc c r
  | .mprog n w0 w1 r => mprogPerform (noteOf s unit p) unit p n w0 w1 r
  | _ => memPerform s unit p

/-- The accesses parked at a core are tested after an operation there (R310). -/
def afterHome (s : State) (unit : Nat) : State := if isCoreUnit unit then retest s (unitCore unit) else s

/-- A home's next entry performed, member by member in order of arrival, when it is one of a row of the step table. -/
def homeServe (s : State) (unit kind : Nat) : State :=
  if !dieRuns s (unitDie unit) then s
  else match homeArb s unit with
    | none => s
    | some i =>
      let k := qk 5 unit 0 0
      match (getQ s k)[i]? with
      | none => s
      | some p =>
        if homeKind p.body != some kind then s
        else afterHome ((members p).foldl (fun s m => perform s unit m) (setQ s k (delAt (getQ s k) i))) unit

/-- HOME_PERFORM (R7, R37, R41, R52, R53, R203). -/
def execHomePerform (unit : Nat) (s : State) : Host.Outcome State Fault Refusal := .next (homeServe s unit 0)

/-- SYNC_ACCESS_AT_OWNER (R308 to R310). -/
def execSyncAccessAtOwner (unit : Nat) (s : State) : Host.Outcome State Fault Refusal := .next (homeServe s unit 1)

/-- WITHDRAWAL (R311, R318). -/
def execWithdrawal (unit : Nat) (s : State) : Host.Outcome State Fault Refusal := .next (homeServe s unit 2)

/-- BAR_ARRIVAL (R317, R318). -/
def execBarArrival (unit : Nat) (s : State) : Host.Outcome State Fault Refusal := .next (homeServe s unit 3)

/-- PARK_AT_HOME (R356). -/
def execParkAtHome (unit : Nat) (s : State) : Host.Outcome State Fault Refusal := .next (homeServe s unit 4)

/-- LNEXT_CLAIM (R93). -/
def execLnextClaim (unit : Nat) (s : State) : Host.Outcome State Fault Refusal := .next (homeServe s unit 5)

/-- JOIN_UPDATE (R85, R353, R354). -/
def execJoinUpdate (unit : Nat) (s : State) : Host.Outcome State Fault Refusal := .next (homeServe s unit 6)

/-- RESUME_CELL_OP (R357). -/
def execResumeCellOp (unit : Nat) (s : State) : Host.Outcome State Fault Refusal := .next (homeServe s unit 7)

/-- BEAD_REQUEST (R34, R109, R366). -/
def execBeadRequest (unit : Nat) (s : State) : Host.Outcome State Fault Refusal := .next (homeServe s unit 8)

/-- SPARK_CLAIM (R114). -/
def execSparkClaim (unit : Nat) (s : State) : Host.Outcome State Fault Refusal := .next (homeServe s unit 9)

/-- BEAD_COMPLETION (R109). -/
def execBeadCompletion (unit : Nat) (s : State) : Host.Outcome State Fault Refusal := .next (homeServe s unit 10)

/-- BEAD_COMPLETION_POISONED (R109). -/
def execBeadCompletionPoisoned (unit : Nat) (s : State) : Host.Outcome State Fault Refusal := .next (homeServe s unit 11)

/-- BEAD_ENGINE_FAULT (R109). -/
def execBeadEngineFault (unit : Nat) (s : State) : Host.Outcome State Fault Refusal := .next (homeServe s unit 12)

/-- OPERAND_FAILURE (R112). -/
def execOperandFailure (unit : Nat) (s : State) : Host.Outcome State Fault Refusal := .next (homeServe s unit 13)

/-- DEATH_NOTICE (R115). -/
def execDeathNotice (unit : Nat) (s : State) : Host.Outcome State Fault Refusal := .next (homeServe s unit 14)

/-! ### Deadlines -/

/-- A parked entry whose deadline has come. -/
def dueAt (s : State) (unit idx : Nat) : Option Parked :=
  match (getHome s unit).parked[idx]? with
  | some p => (match p.deadline with | some d => if d ≤ tickN s then some p else none | none => none)
  | none => none

/-- SYNC_DEADLINE (R311): the access is removed with SYNC_RETRY_LIMIT. -/
def execSyncDeadline (unit : Nat) (idx : Nat) (s : State) : Host.Outcome State Fault Refusal :=
  .next (match dueAt s unit idx with
    | some p => (match p.kind with
      | .sync op => parkedReply (unpark s unit p) unit (syncCls op) p op.ret (.fault 0x09 op.va)
      | _ => s)
    | none => s)

/-- BAR_DEADLINE (R318): the arrival is removed with WAIT_TIMEOUT. -/
def execBarDeadline (unit : Nat) (idx : Nat) (s : State) : Host.Outcome State Fault Refusal :=
  .next (match dueAt s unit idx with
    | some p => (match p.kind with
      | .bar _ r => parkedReply (unpark s unit p) unit 16 p r (.fault 0x0A 0)
      | _ => s)
    | none => s)

/-- PARK_DEADLINE (R356): the thread is enqueued, and takes WAIT_TIMEOUT at its PARK. -/
def execParkDeadline (unit : Nat) (idx : Nat) (s : State) : Host.Outcome State Fault Refusal :=
  .next (match dueAt s unit idx with
    | some p => (match p.kind with
      | .park _ uid _ a pc =>
        sendEnqueue (modCont (unpark s unit p) uid fun k => { k with deliv := some (.failAt 0x0A 0 pc) }) unit uid (.mem a)
      | _ => s)
    | none => s)

/-- The requests that wait at a home or at a tree agent. -/
def waitingAt (s : State) (unit : Nat) : List Packet := getQ s (qk 5 unit 0 0) ++ (getQ s (qk 4 unit 0 0)).filter isAgentReq

/-- The recorded operation that a home has waited for past 65,536 ticks: the next of its trace or, at a home where a coordinate
operation waits, the partition's next of these (R210, log 37). -/
def overdue (s : State) (unit : Nat) : Option (Nat × Nat × Nat × Nat) :=
  let h := getHome s unit
  let ws := waitingAt s unit
  let late := fun (t : Nat) (r : Nat × Nat × Nat × Nat) =>
    decide (h.lastRep + 65536 ≤ tickN s) && decide (t + 65536 ≤ tickN s) &&
      !ws.any fun p => agentAddr s unit p == some r.2.2.2 && p.cls == r.2.1 && pktSrc s p == r.2.2.1
  match (replayHead s unit 0).filter (late 0) with
  | some r => some r
  | none => if ws.any fun p => p.cls == 5 then (replayHead s unit 5).filter (late (getFn s (unitFn s unit)).rep5At) else none

/-- REPLAY_TIMEOUT (R210): the next recorded operation has not come within 65,536 ticks. -/
def execReplayTimeout (unit : Nat) (s : State) : Host.Outcome State Fault Refusal :=
  .next (
    if !(getFn s (unitFn s unit)).replay || (getHome s unit).free then s
    else match overdue s unit with
      | none => s
      | some (_, c, sr, a) => afterHome (diverge s unit a c sr) unit)

end Sys2Proof.Machine
end

