-- ==== Sys2Proof/Machine/Agent.lean ====
section
/-!
DEFINITION. Tree agents: region descriptors and CINV (R160 to R165, R382), tile-sparse volumes (R166 to R172),
element-sparse tensors (R173 to R175), and shoot-downs of CLB entries (R169).
-/

namespace Sys2Proof.Machine

/-- What an agent's operation comes to: a fault with its tval, or a result. -/
abbrev AX (α : Type) := Except (BitVec 8 × Word) α

/-! ### Words of a pool -/

/-- The key of a pool byte; PROTECTION names the region, a page fault the address. -/
def agKey (s : State) (ctx g : Nat) (va : Word) (nd : Nat) : AX Nat :=
  match poolKey s ctx va.toNat nd with
  | .ok k => .ok k
  | .error c => .error (c, if c = 0x08 then wd g else va)

def agRead (s : State) (ctx g : Nat) (va : Word) : AX Word := do
  let k ← agKey s ctx g va 1
  match eccStatus s k 8 with
  | 0 => return wd (memRead s.mem k 8)
  | 1 => .error (0x18, va)
  | _ => .error (0x14, va)

def agWrite (s : State) (ctx g : Nat) (va w : Word) : AX State := do
  let k ← agKey s ctx g va 3
  return homeWrite s k 8 w.toNat

/-- Words written from an address. -/
def agWriteL (s : State) (ctx g : Nat) (va : Word) (ws : List Word) : AX State :=
  ws.zipIdx.foldlM (fun s e => agWrite s ctx g (va + wd (8 * e.2)) e.1) s

/-! ### Tile-sparse volumes (R166, R167, R170) -/

/-- The entries on the path of a tile, as far as tables stand, and the frame, 0 for an absent tile. -/
def tilePath (s : State) (ctx g : Nat) (T : Nat) : List Nat → Word → AX (Word × List Word)
  | [], a => .ok (a, [])
  | sh :: r, a => do
    let ea := a + wd (8 * (T >>> sh % 512))
    let n ← agRead s ctx g ea
    if n = 0 then return (0, [ea])
    else
      let (f, es) ← tilePath s ctx g T r n
      return (f, ea :: es)

/-- The frame of a tile and its path from the root table. -/
def tileFind (s : State) (ctx g : Nat) (w : List Word) (T : Nat) : AX (Word × List Word) :=
  tilePath s ctx g T [18, 9, 0] (rgRoot w)

/-- The background element of a region. -/
def rgBackEl (w : List Word) : Nat := (rgBack w).toNat % 2 ^ (8 * elBytes w)

/-- A word of elements that are all the background. -/
def backWord (w : List Word) : Word := wd ((List.range (8 / elBytes w)).foldl (fun a i => a + rgBackEl w * 2 ^ (8 * elBytes w * i)) 0)

/-- Elements of a new frame, all the background. -/
def fillFrame (s : State) (ctx g : Nat) (w : List Word) (fr : Word) : AX State :=
  let n := 2 ^ (rgTs w).foldl (· + ·) 0
  let b := elBytes w
  if n * b % 8 = 0 then
    (List.range (n * b / 8)).foldlM (fun s i => agWrite s ctx g (fr + wd (8 * i)) (backWord w)) s
  else
    (List.range n).foldlM (fun s i => do
      let k ← agKey s ctx g (fr + wd (b * i)) 3
      return homeWrite s k b (rgBackEl w)) s

/-- Tables linked on the way to a leaf entry (R170): the state, the leaf entry and the free list left. -/
def linkTables (s : State) (ctx g T : Nat) : List Nat → Word → List Word → AX (State × Word × List Word)
  | [], ea, fl => .ok (s, ea, fl)
  | sh :: r, ea, fl =>
    match fl with
    | [] => .error (0x10, 0)
    | t :: fl => do
      let s ← agWriteL s ctx g t (List.replicate 512 0)
      let s ← agWrite s ctx g ea t
      linkTables s ctx g T r (t + wd (8 * (T >>> sh % 512))) fl

/-- An allocation (R170): every frame is checked for first; the frame, the state and the free list left. -/
def tileAlloc (s : State) (ctx g : Nat) (w : List Word) (T : Nat) (es : List Word) (fl : List Word) (c : Word) : AX (State × Word × List Word) :=
  if fl.length < 4 - es.length then .error (0x10, c)
  else do
    let (s, ea, fl) ← linkTables s ctx g T ([18, 9, 0].drop es.length) (es.getLastD 0) fl
    match fl with
    | [] => .error (0x10, c)
    | fr :: fl => do
      let s ← fillFrame s ctx g w fr
      return (← agWrite s ctx g ea fr, fr, fl)

/-- Indices of a table's entries that are not 0, with the entries. -/
def tableEnts (s : State) (ctx g : Nat) (a : Word) : AX (List (Nat × Word)) := do
  let l ← (List.range 512).mapM fun i => do return (i, ← agRead s ctx g (a + wd (8 * i)))
  return l.filter fun e => e.2 != 0

/-- The present tiles in ascending order, with their frames. -/
def tilesOf (s : State) (ctx g : Nat) (w : List Word) : AX (List (Nat × Word)) := do
  let r ← tableEnts s ctx g (rgRoot w)
  let l ← r.mapM fun a => do
    let m ← tableEnts s ctx g a.2
    let l ← m.mapM fun b => do
      let f ← tableEnts s ctx g b.2
      return f.map fun c => ((a.1 * 512 + b.1) * 512 + c.1, c.2)
    return l.flatten
  return l.flatten

/-- The least point of a box above a point, axis 0 slowest. -/
def boxNext : List (Nat × Nat) → List Nat → Option (List Nat)
  | (lo, hi) :: r, c :: cs =>
    let low := r.map (·.1)
    if hi < lo || hi < c then none
    else if c < lo then some (lo :: low)
    else match boxNext r cs with
      | some t => some (c :: t)
      | none => if c < hi then some ((c + 1) :: low) else none
  | _, _ => none

/-- The box of a tile of the grid. -/
def tileBox (w : List Word) (T : Nat) : List (Nat × Nat) :=
  ((unlinIdx (tileGrid w) T).zip ((rgTs w).zip (rgExts w))).map fun a =>
    (a.1 * 2 ^ a.2.1, min (a.2.2 - 1) (a.1 * 2 ^ a.2.1 + 2 ^ a.2.1 - 1))

/-- CNEXT on a volume (R171): the least linear coordinate above the cursor in a present tile. A tile that a lowered max has
left outside the grid holds no coordinate of the region. -/
def tsvNext (s : State) (ctx g : Nat) (w : List Word) (c : Word) : AX Word := do
  let all ← tilesOf s ctx g w
  let ts := all.filter fun t => t.1 < (tileGrid w).foldl (· * ·) 1
  let cand := ts.filterMap fun t =>
    let box := tileBox w t.1
    (if c = BitVec.allOnes 64 then some (box.map (·.1)) else boxNext box (unpackC (rgPack w) c)).map (linIdx (rgExts w))
  match cand with
  | [] => return BitVec.allOnes 64
  | x :: r => return unlinOf w (r.foldl min x)

/-! ### Element-sparse tensors (R173 to R175) -/

/-- A node as its words say. -/
structure EstNode where
  addr  : Word := 0
  level : Nat := 0
  keys  : List Nat := []
  vals  : List Word := []
  next  : Word := 0
  kids  : List Word := []

/-- A word of a region as it stands, whether or not its check holds. -/
def agRaw (s : State) (ctx g : Nat) (a : Word) : AX Word := do
  let k ← agKey s ctx g a 1
  return wd (memRead s.mem k 8)

/-- A node read by an agent. DENSE, which carries marks, reads the values of a leaf as they stand (`raw`, R203). -/
def nodeRead (s : State) (ctx g : Nat) (a : Word) (raw : Bool := false) : AX EstNode := do
  let w0 ← agRead s ctx g a
  let n := fld w0 15 8
  let isVal := fun (i : Nat) => raw && fld w0 7 0 == 0 && i % 2 == 1 && 3 ≤ i && i < 2 * n + 2
  let ws ← (List.range 32).mapM fun i => if isVal i then agRaw s ctx g (a + wd (8 * i)) else agRead s ctx g (a + wd (8 * i))
  if fld (wAt ws 0) 7 0 = 0 then
    return { addr := a, next := wAt ws 1, keys := (List.range n).map (fun i => fld (wAt ws (2 + 2 * i)) 47 0),
             vals := (List.range n).map fun i => wAt ws (3 + 2 * i) }
  else
    return { addr := a, level := fld (wAt ws 0) 7 0, keys := (List.range (n - 1)).map (fun i => (wAt ws (2 + i)).toNat),
             kids := (List.range n).map fun i => wAt ws (16 + i) }

/-- The words of a node. -/
def nodeWords (n : EstNode) : List Word :=
  let pad := fun (k : Nat) (l : List Word) => (l ++ List.replicate k 0).take k
  if n.level = 0 then
    wd (n.keys.length * 256) :: n.next :: pad 30 ((n.keys.zip n.vals).flatMap fun e => [wd e.1, e.2])
  else wd (n.level + n.kids.length * 256) :: 0 :: pad 14 (n.keys.map wd) ++ pad 16 n.kids

def nodePut (s : State) (ctx g : Nat) (n : EstNode) : AX State := agWriteL s ctx g n.addr (nodeWords n)

/-- The address of a shard's root entry. -/
def rootEnt (w : List Word) (sh : Nat) : Word := rgRoot w + wd (8 * sh)

/-- The child that holds a key. -/
def childOf (n : EstNode) (L : Nat) : Nat := (n.keys.filter fun k => k ≤ L).length

/-- The path of inner nodes and children taken, from the root, and the leaf. -/
def estPath (s : State) (ctx g L : Nat) (raw : Bool) : Nat → Word → AX (List (EstNode × Nat) × EstNode)
  | 0, a => do return ([], ← nodeRead s ctx g a raw)
  | k + 1, a => do
    let n ← nodeRead s ctx g a raw
    if n.level = 0 then return ([], n)
    else
      let j := childOf n L
      let (p, lf) ← estPath s ctx g L raw k (wAt n.kids j)
      return ((n, j) :: p, lf)

def estFind (s : State) (ctx g : Nat) (w : List Word) (sh L : Nat) (raw : Bool := false) : AX (List (EstNode × Nat) × EstNode) := do
  let r ← agRead s ctx g (rootEnt w sh)
  estPath s ctx g L raw 8 r

/-- The list with an element put before place i. -/
def putAt {α : Type} (l : List α) (i : Nat) (a : α) : List α := l.take i ++ a :: l.drop i

/-- The nodes that an insertion needs (R174). -/
def estNeed (cap : Nat) (lf : EstNode) (path : List (EstNode × Nat)) : Nat :=
  if lf.keys.length < cap then 0
  else
    let full := path.reverse.takeWhile fun p => p.1.kids.length ≥ 15
    1 + full.length + (if full.length = path.length then 1 else 0)

/-- What a split passes up: a separator and the new node. -/
abbrev Split := Option (Nat × Word)

/-- An inner node with a split child below it: itself, with a new node beside it where it was full. -/
def innerSplit (s : State) (ctx g : Nat) (n : EstNode) (j : Nat) (up : Nat × Word) (fl : List Word) : AX (State × Split × List Word) :=
  let keys := putAt n.keys j up.1
  let kids := putAt n.kids (j + 1) up.2
  if kids.length ≤ 15 then do return (← nodePut s ctx g { n with keys := keys, kids := kids }, none, fl)
  else match fl with
    | [] => .error (0x0F, 0)
    | a :: fl => do
      let s ← nodePut s ctx g { addr := a, level := n.level, keys := keys.drop 8, kids := kids.drop 8 }
      let s ← nodePut s ctx g { n with keys := keys.take 7, kids := kids.take 8 }
      return (s, some (keys.getD 7 0, a), fl)

/-- Splits passed up the path, the nearest parent first. -/
def splitUp (ctx g : Nat) : List (EstNode × Nat) → State → Split → List Word → AX (State × Split × List Word)
  | [], s, up, fl => .ok (s, up, fl)
  | p :: r, s, up, fl =>
    match up with
    | none => .ok (s, none, fl)
    | some u => do
      let (s, up, fl) ← innerSplit s ctx g p.1 p.2 u fl
      splitUp ctx g r s up fl

/-- An insertion (R174): the state and the free list left. -/
def estInsert (s : State) (ctx g : Nat) (w : List Word) (sh L : Nat) (v : Word) (path : List (EstNode × Nat)) (lf : EstNode)
    (fl : List Word) (c : Word) : AX (State × List Word) :=
  let cap := rgLeafcap w
  let nd := estNeed cap lf path
  let root := match path with | p :: _ => p.1 | [] => lf
  let levels := root.level + 1 + (if nd = path.length + 2 then 1 else 0)
  if fl.length < nd || levels > 8 then .error (0x0F, c)
  else do
    let i := (lf.keys.filter fun k => k < L).length
    let keys := putAt lf.keys i L
    let vals := putAt lf.vals i v
    if nd = 0 then return (← nodePut s ctx g { lf with keys := keys, vals := vals }, fl)
    else match fl with
      | [] => .error (0x0F, c)
      | a :: fl => do
        let m := (cap + 2) / 2
        let s ← nodePut s ctx g { addr := a, keys := keys.drop m, vals := vals.drop m, next := lf.next }
        let s ← nodePut s ctx g { lf with keys := keys.take m, vals := vals.take m, next := a }
        let (s, up, fl) ← splitUp ctx g path.reverse s (some (keys.getD m 0, a)) fl
        match up, fl with
        | none, _ => return (s, fl)
        | some _, [] => .error (0x0F, c)
        | some u, r :: fl => do
          let old := match path with | p :: _ => p.1 | [] => lf
          let s ← nodePut s ctx g { addr := r, level := old.level + 1, keys := [u.1], kids := [old.addr, u.2] }
          return (← agWrite s ctx g (rootEnt w sh) r, fl)

/-- The leaf before a leaf, from the shard's first. -/
def leafBefore (s : State) (ctx g : Nat) (a : Word) : Nat → EstNode → AX (Option EstNode)
  | 0, _ => .ok none
  | n + 1, lf =>
    if lf.next = a then .ok (some lf)
    else if lf.next = 0 then .ok none
    else do leafBefore s ctx g a n (← nodeRead s ctx g lf.next)

/-- The first leaf below a node. -/
def firstLeaf (s : State) (ctx g : Nat) : Nat → Word → AX EstNode
  | 0, a => nodeRead s ctx g a
  | k + 1, a => do
    let n ← nodeRead s ctx g a
    if n.level = 0 then return n else firstLeaf s ctx g k (wAt n.kids 0)

/-- The leaves of a shard in key order, from one on; there are at most as many as the pool has nodes. -/
def leavesFrom (s : State) (ctx g : Nat) : Nat → EstNode → AX (List EstNode)
  | 0, lf => .ok [lf]
  | n + 1, lf => do
    if lf.next = 0 then return [lf]
    else return lf :: (← leavesFrom s ctx g n (← nodeRead s ctx g lf.next))

def leavesOf (s : State) (ctx g : Nat) (w : List Word) (sh : Nat) : AX (List EstNode) := do
  let r ← agRead s ctx g (rootEnt w sh)
  leavesFrom s ctx g (rgUnits w) (← firstLeaf s ctx g 8 r)

/-- A deletion (R174): the state and the free list left; a freed node is put at the list's head (log 34). -/
def estDelete (s : State) (ctx g : Nat) (w : List Word) (sh i : Nat) (path : List (EstNode × Nat)) (lf : EstNode) (fl : List Word) :
    AX (State × List Word) := do
  let lf' := { lf with keys := delAt lf.keys i, vals := delAt lf.vals i }
  match path.reverse with
  | [] => return (← nodePut s ctx g lf', fl)
  | p :: up =>
    if !lf'.keys.isEmpty then return (← nodePut s ctx g lf', fl)
    else
      let r ← agRead s ctx g (rootEnt w sh)
      let f ← firstLeaf s ctx g 8 r
      let s ← (do match ← leafBefore s ctx g lf.addr (rgUnits w) f with
        | some b => nodePut s ctx g { b with next := lf.next }
        | none => return s)
      let kids := delAt p.1.kids p.2
      let keys := delAt p.1.keys (p.2 - 1)
      if kids.length > 1 then return (← nodePut s ctx g { p.1 with keys := keys, kids := kids }, lf.addr :: fl)
      else
        let only := wAt kids 0
        let fl := p.1.addr :: lf.addr :: fl
        match up with
        | q :: _ => return (← nodePut s ctx g { q.1 with kids := modAt q.1.kids q.2 fun _ => only }, fl)
        | [] => return (← agWrite s ctx g (rootEnt w sh) only, fl)

/-! ### The agent's tables -/

/-- The agent's cached region changed. -/
def modRegion (s : State) (cl ctx g : Nat) (f : Region → Region) : State :=
  modCl s cl fun c => { c with regions := smSet {} c.regions (regionKey ctx g) (f (smGet {} c.regions (regionKey ctx g))) }

def freeList (r : Region) (sh : Nat) : List Word := smGet [] r.free sh
def setFree (s : State) (cl ctx g sh : Nat) (l : List Word) : State := modRegion s cl ctx g fun r => { r with free := smSet [] r.free sh l }

/-- The virtual address of a region's descriptor. -/
def descVa (s : State) (ctx g : Nat) : Word := (getCtx s ctx).regTab + wd (64 * g)

/-- A word of the stored descriptor written by the agent. -/
def descPut (s : State) (ctx g i : Nat) (v : Word) : State :=
  match vkey s none ctx (descVa s ctx g + wd (8 * i)).toNat 2 with
  | .ok (k, _) => homeWrite s k 8 v.toNat
  | .error _ => s

/-- A word of the stored descriptor as it stands. -/
def descGet (s : State) (ctx g i : Nat) : Word :=
  match vkey s none ctx (descVa s ctx g + wd (8 * i)).toNat 1 with
  | .ok (k, _) => wd (memRead s.mem k 8)
  | .error _ => 0

/-- The sharers word with a core's cluster (R168), in the agent's copy and in the stored descriptor, where the bit may be
missing after a CINV whose word 7 named fewer clusters. -/
def shareCore (s : State) (cl ctx g core : Nat) : State :=
  let w := (regionAt s cl ctx g).ws
  let v := wAt w 7 ||| wd (2 ^ coreCl core)
  let s := if v = wAt w 7 then s else modRegion s cl ctx g fun r => { r with ws := w.take 7 ++ [v] }
  let m := descGet s ctx g 7
  if bitAt m (coreCl core) then s else descPut s ctx g 7 (m ||| wd (2 ^ coreCl core))

/-! ### Shoot-downs (R169) -/

/-- The cores of the clusters that a sharers word names. -/
def sharerCores (v : Word) : List Nat := ((List.range 64).filter fun c => bitAt v c).flatMap clCores

/-- What follows a shoot-down, or the last acknowledgement of a CINV: a frame returned, and the reply (R172, R382). -/
def shootDone (s : State) (cl : Nat) (h : Shoot) : State :=
  let s := match h.frame with
    | some (ctx, g, fr) => setFree s cl ctx g 0 (fr :: freeList (regionAt s cl ctx g) 0)
    | none => s
  if h.ret = .none then s
  else inject s { cls := 19, slack := h.slack, late := h.late, src := treeUnit cl, dst := h.src,
                  body := .reply h.ret (if h.frame.isSome then .coord 1 none else .ok) }

/-- A shoot-down of a region's entries, or of one tile's, started by an agent; `h` says what follows it. -/
def startShoot (s : State) (cl ctx g : Nat) (tile : Option Nat) (cores : List Nat) (h : Shoot) : State :=
  let gen := ((getCl s cl).agentGen + 1) % 2 ^ 32
  let s := modCl s cl fun c => { c with agentGen := gen }
  let h := { h with gen := gen, clb := true, left := h.left + cores.length }
  if h.left = 0 then shootDone s cl h
  else
    let s := modCl s cl fun c => { c with shoots := c.shoots ++ [h] }
    cores.foldl (fun s c => send s 9 (hskOf s (treeUnit cl)) (treeUnit cl) (coreUnit c) (.clbi ctx g tile gen cl)) s

/-- An acknowledgement that an agent or a service core awaited (R155, R169, R382); TLBI is a late operation when one of its
acknowledgements came late (R42). -/
def shootAck (s : State) (cl gen : Nat) (clb : Bool) (p : Packet) : State :=
  match (getCl s cl).shoots.find? fun h => h.gen == gen && h.clb == clb with
  | none => s
  | some h =>
    if h.left ≤ 1 then
      let s := modCl s cl fun c => { c with shoots := c.shoots.filter fun x => x != h }
      if clb then shootDone s cl h
      else match h.ret with
        | .thread t _ _ => pushQ s (qk 4 (coreUnit t.core) 0 1)
            { cls := 20, slack := p.slack, late := h.late.or p.late, src := coreUnit t.core, dst := coreUnit t.core, body := .reply h.ret .ok }
        | _ => s
    else modCl s cl fun c => { c with shoots := c.shoots.map fun x => if x = h then { x with left := x.left - 1, late := if clb then x.late else x.late.or p.late } else x }

/-- CLB_SHOOTDOWN (R169): the entries are removed and the generation recorded; the acknowledgement waits for every access
that was made through a removed entry. -/
def execClbShootdown (core : Nat) (s : State) : Host.Outcome State Fault Refusal :=
  let u := coreUnit core
  .next (
    match takeArrived s u 0 (fun p => match p.body with | .clbi _ _ _ _ _ => true | _ => false) with
    | none => s
    | some (p, s') =>
      match p.body with
      | .clbi ctx g tile gen cl =>
        let hit := fun (e : ClbEnt) => e.valid && e.ctx == ctx && e.region == g && (match tile with | some t => e.tile == t | none => true)
        let upd := fun (s : State) => modCore s core fun c => { c with
          clb := c.clb.filter (fun e => !hit e.2), clbGen := smMod 0 c.clbGen cl fun x => max x gen }
        if (getCore s core).slots.any fun x => x.2.uid.isSome && x.2.ctx == ctx && x.2.coordHit == some g then upd s
        else reply (upd s') 20 u p (.shoot cl gen) .ok
      | _ => s)

/-! ### Operations (R171) -/

/-- One operation on a volume: the state and the reply, none when the reply follows a shoot-down. -/
def tsvOp (s : State) (cl ctx g op : Nat) (w : List Word) (c x : Word) (core : Nat) (p : Packet) (ret : Ret) : AX (State × Option Res) := do
  let l := unpackC (rgPack w) c
  let T := tileOf w l
  if T ≥ 2 ^ 27 && !(op == 3 && c == BitVec.allOnes 64) then .error (0x11, c)
  if op = 3 then return (s, some (.coord (← tsvNext s ctx g w c) none))
  let (fr, es) ← tileFind s ctx g w T
  if op = 6 then
    if fr = 0 then return (s, some (.coord 0 none))
    else
      let s ← agWrite s ctx g (es.getLastD 0) 0
      let h : Shoot := { ret := ret, frame := some (ctx, g, fr), src := p.src, slack := slackLeft (tickN s) p, late := lateAge (tickN s) p }
      return (startShoot s cl ctx g (some T) (sharerCores (wAt w 7)) h, none)
  if fr = 0 && (op = 0 || op = 4 || op = 8) then
    return (s, some (.coord (if op = 0 then elExt (rgFmt w) (rgBackEl w) else 0) none))
  let new := fr = 0
  let (s, fr) ← (if new then do
      let (s, fr, fl) ← tileAlloc s ctx g w T es (freeList (regionAt s cl ctx g) 0) c
      return (setFree s cl ctx g 0 fl, fr)
    else return (s, fr) : AX (State × Word))
  let s := shareCore s cl ctx g core
  let fill := some (ctx, g, T, fr.toNat, (getCl s cl).agentGen)
  if op = 5 then return (s, some (.coord (wd (b2n new)) fill))
  if op = 8 then return (s, some (.coord 1 fill))
  let k ← agKey s ctx g (fr + wd (tileOff w l)) (if op = 0 then 1 else 3)
  let (s, r) := elemAccess s op k (rgFmt w) (if op = 4 then rgBack w else x) c
  return (s, some (match r with | .coord v _ => .coord v fill | r => r))

/-- An operation on a shard of a tensor, but for CNEXT. -/
def estOp (s : State) (cl ctx g op : Nat) (w : List Word) (c x : Word) : AX (State × Res) := do
  let L := linOf w c
  let sh := L / rgSpan w
  if sh > rgShards w then .error (0x11, c)
  let fl := freeList (regionAt s cl ctx g) sh
  let (path, lf) ← estFind s ctx g w sh L
  let i := idxOf (· == L) lf.keys
  let fmt := rgFmt w
  let m := 2 ^ elBits fmt
  let old := match i with | some i => (wAt lf.vals i).toNat % m | none => 0
  if op = 0 then return (s, .coord (match i with | some _ => elExt fmt old | none => 0) none)
  if op = 8 then return (s, .coord (wd (b2n i.isSome)) none)
  let drop := fun (i : Nat) => do
    let (s, fl) ← estDelete s ctx g w sh i path lf fl
    return setFree s cl ctx g sh fl
  if op = 4 then
    match i with
    | some i => return (← drop i, .coord 1 none)
    | none => return (s, .coord 0 none)
  let v := if op = 1 then x.toNat % m else elAdd fmt old x.toNat
  let out : Res := .coord (if op = 2 then (if i.isSome then elExt fmt old else 0) else 0) none
  match i with
  | some i =>
    if elZero fmt v then return (← drop i, out)
    else return (← nodePut s ctx g { lf with vals := modAt lf.vals i fun _ => wd v }, out)
  | none =>
    if elZero fmt v then return (s, out)
    else
      let (s, fl) ← estInsert s ctx g w sh L (wd v) path lf fl c
      return (setFree s cl ctx g sh fl, out)

/-- CNEXT at a shard (R175): the least key above the cursor, none when the shard holds none. A key that a lowered extent has left
at or above the product of the extents is no coordinate (R162, R171). -/
def estNext (s : State) (ctx g : Nat) (w : List Word) (sh : Nat) (c : Word) : AX (Option Word) := do
  let ls ← leavesOf s ctx g w sh
  let above := fun (k : Nat) => decide (k < (rgExts w).foldl (· * ·) 1) && (c == BitVec.allOnes 64 || decide (linOf w c < k))
  return ((ls.flatMap (·.keys)).find? above).map (unlinOf w)

/-- The request of a CNEXT passed to a shard's agent: `x` names the shard, plus 1. -/
def passNext (s : State) (cl g sh : Nat) (p : Packet) (b : Body) : State :=
  let fn := (getCl s cl).fn
  inject s { p with slack := slackLeft (tickN s) p, late := lateAge (tickN s) p, since := tickN s, dst := treeUnit (agentCl s fn g sh), body := b }

/-- One request at an agent. -/
def agentOp (s : State) (cl : Nat) (p : Packet) (op ctx g : Nat) (c x : Word) (core : Nat) (ret : Ret) : State :=
  let out := fun (s : State) (r : Res) => reply s 19 (treeUnit cl) p ret r
  let w := (regionAt s cl ctx g).ws
  let fin := fun (r : AX (State × Option Res)) => match r with
    | .ok (s, some r) => out s r
    | .ok (s, none) => s
    | .error (c, v) => out s (.fault c v)
  if rgClass w != 1 && rgClass w != 2 then out s (.fault 0x11 (wd g))
  else match agentAddr s (treeUnit cl) p with
  | none => out s (.fault 0x11 c)
  | some a =>
    let s := homeNote s (treeUnit cl) 5 (pktSrc s p) p.src a (retUrgent s ret)
    if rgClass w = 1 then fin (tsvOp s cl ctx g op w c x core p ret)
    else if op = 5 || op = 6 then out s (.fault 0x08 (wd g))
    else if op = 3 then
      let sh := if x = 0 then (shardOf w 3 c).getD 0 else x.toNat - 1
      if sh > rgShards w then out s (.coord (BitVec.allOnes 64) none)
      else match estNext s ctx g w sh c with
        | .error (c, v) => out s (.fault c v)
        | .ok (some v) => out s (.coord v none)
        | .ok none =>
          if sh = rgShards w then out s (.coord (BitVec.allOnes 64) none)
          else passNext s cl g (sh + 1) p (.coord 3 ctx g c (wd (sh + 2)) core ret)
    else fin (do
      let (s, r) ← estOp s cl ctx g op w c x
      return (s, some r))

/-- Whether replay lets an agent perform a request now (R190, R210). -/
def agentOk (s : State) (cl : Nat) (p : Packet) : Bool :=
  match agentAddr s (treeUnit cl) p with
  | some a => replayOk s (treeUnit cl) 5 (pktSrc s p) a
  | none => true

/-- The request that an agent performs next: one that the replayed order admits (R190, R209, R210). -/
def agentNext (s : State) (cl : Nat) : Option (Packet × State) :=
  if (getDie s (clDie cl)).inReset || !traceRoomN s (getCl s cl).fn 2 then none
  else takeArrived s (treeUnit cl) 0 fun p => isAgentReq p && agentOk s cl p

/-- COORD_AT_AGENT (R163, R164, R171, R175). -/
def execCoordAtAgent (cl : Nat) (s : State) : Host.Outcome State Fault Refusal :=
  .next (match agentNext s cl with
    | some (p, s') => (match p.body with
      | .coord op ctx g c x core ret => agentOp s' cl p op.toNat ctx g c x core ret
      | _ => s)
    | none => s)

/-! ### CINV (R160 to R162, R165, R382) -/

/-- Pages of a pool, each of class coordinate with r and w. -/
def poolMapped (s : State) (ctx : Nat) (last : Nat) : Nat → Nat → Bool
  | 0, _ => true
  | n + 1, va =>
    if va ≥ last then true
    else match walk s ctx va with
      | .error _ => false
      | .ok e =>
        let lg := pageLog (fld e.w1 11 9)
        permOk e.w1 3 && fld e.w1 8 7 == 2 && (physKey s (getCtx s ctx).fn (entPa e.w1 va)).isSome &&
          poolMapped s ctx last n ((va / 2 ^ lg + 1) * 2 ^ lg)

/-- The element formats of a region. -/
def rgFmtOk (f : Nat) : Bool := (1 ≤ f && f ≤ 4) || (8 ≤ f && f ≤ 13)

/-- Nodes of 256 bytes that a root table of the shards takes. -/
def rootNodes (shards : Nat) : Nat := cdiv (8 * (shards + 1)) 256

/-- Whether a reserved bit of a descriptor of any class is set (R160). -/
def rgReserved (w : List Word) : Bool :=
  fld (wAt w 0) 35 16 != 0 || fld (wAt w 0) 7 6 != 0 || fld (wAt w 0) 3 2 != 0 || fld (wAt w 4) 63 32 != 0 || fld (wAt w 6) 63 48 != 0

/-- Whether a descriptor of class 1, 2 or 3 breaks R160, R161 or R166. -/
def rgBad (w : List Word) : Bool :=
  let axes := packAxes (rgPack w)
  let mx := unpackC (rgPack w) (rgMax w)
  let b := if rgFmtOk (rgFmt w) then elBytes w else 8
  let ts := (List.range 4).map (rgT w)
  rgClass w == 3 || rgReserved w || !packZeros (rgPack w) (rgMax w) || (mx.zip axes).any (fun a => a.1 + 1 == 2 ^ a.2.2) ||
    decide (rgTotal w > 2 ^ 48) || (rgPool w).toNat % 4096 != 0 || rgUnits w == 0 ||
    (if rgClass w = 1 then
      rgShards w != 0 || rgLeafcap w != 0 || rgSpan w != 0 || decide (ts.foldl (· + ·) 0 > 16) ||
        (ts.drop axes.length).any (· != 0) || (ts.zip axes).any (fun a => decide (a.1 > a.2.2)) || (rgBack w).toNat >>> (8 * b) != 0
    else
      ts.any (· != 0) || rgBack w != 0 || decide (rgLeafcap w < 4) || rgSpan w == 0 || wAt w 7 != 0 ||
        decide (rgUnits w / (rgShards w + 1) ≤ rootNodes (rgShards w)))

/-- The refusal of a descriptor, if any (R162). One of class 0, which retires the region, is held to the reserved bits alone. -/
def rgRefuse (s : State) (ctx : Nat) (w : List Word) : Option (BitVec 8) :=
  if rgClass w = 0 then (if rgReserved w then some 0x12 else none)
  else if rgBad w then some 0x12
  else if !rgFmtOk (rgFmt w) then some 0x15
  else
    let n := rgUnits w * (if rgClass w = 1 then frameBytes w else 256)
    if poolMapped s ctx ((rgPool w).toNat + n) (n / 4096 + 1) (rgPool w).toNat then none else some 0x08

/-- The free list of a shard, or of a volume, in a new region. -/
def newFree (w : List Word) (sh : Nat) : List Word :=
  if rgClass w = 1 then (List.range (rgUnits w - 1)).map fun i => rgPool w + wd ((i + 1) * frameBytes w)
  else
    let q := rgUnits w / (rgShards w + 1)
    let root := if sh = 0 then rootNodes (rgShards w) else sh * q
    (List.range ((sh + 1) * q - root - 1)).map fun i => rgPool w + wd (256 * (root + 1 + i))

/-- A region built in its pool (R165): the root table, and an empty leaf for each shard. -/
def rgBuild (s : State) (ctx g : Nat) (w : List Word) : AX State :=
  if rgClass w = 1 then agWriteL s ctx g (rgPool w) (List.replicate 512 0)
  else do
    let q := rgUnits w / (rgShards w + 1)
    let root := fun (sh : Nat) => rgPool w + wd (256 * (if sh = 0 then rootNodes (rgShards w) else sh * q))
    let s ← agWriteL s ctx g (rgPool w) (List.replicate (32 * rootNodes (rgShards w)) 0)
    (List.range (rgShards w + 1)).foldlM (fun s sh => do
      let s ← agWriteL s ctx g (root sh) (List.replicate 32 0)
      agWrite s ctx g (rgPool w + wd (8 * sh)) (root sh)) s

/-- The clusters whose agents serve a region. -/
def agentsOf (s : State) (fn g : Nat) (w : List Word) : List Nat :=
  if rgClass w = 1 then [agentCl s fn g 0]
  else if rgClass w = 2 then ((List.range (rgShards w + 1)).map (agentCl s fn g)).eraseDups
  else []

/-- The shards that an agent serves. -/
def shardsAt (s : State) (fn g cl : Nat) (w : List Word) : List Nat :=
  if rgClass w = 1 then (if agentCl s fn g 0 = cl then [0] else [])
  else if rgClass w = 2 then (List.range (rgShards w + 1)).filter fun sh => agentCl s fn g sh == cl
  else []

/-- A descriptor taken into an agent's cache; `built` marks a new region, whose free lists start anew. -/
def rgInstall (s : State) (cl ctx g : Nat) (w : List Word) (built : Bool) : State :=
  if rgClass w = 0 then modRegion s cl ctx g fun _ => {}
  else
    let fn := (getCl s cl).fn
    modRegion s cl ctx g fun r => { ws := w, free := if built then (shardsAt s fn g cl w).foldl (fun m sh => smSet [] m sh (newFree w sh)) [] else r.free }

/-- The eight words of the stored descriptor. -/
def descLoad (s : State) (ctx g : Nat) : AX (List Word) :=
  match loadWords s none ctx (descVa s ctx g) 8 with
  | .ok l => .ok l
  | .error e => .error e

/-- A CINV at the region's first agent: checks, the build, the other agents' reloads and the shoot-down. -/
def cinvOp (s : State) (cl ctx g : Nat) (p : Packet) (ret : Ret) : AX State := do
  let fn := (getCl s cl).fn
  let old := (regionAt s cl ctx g).ws
  let w ← descLoad s ctx g
  match rgRefuse s ctx w with
  | some c => .error (c, wd g)
  | none => .ok ()
  let held := rgClass old != 0
  if rgClass w != 0 && wAt w 5 != 0 && !(held && [0, 3, 4, 5, 6].all fun i => wAt old i == wAt w i) then .error (0x12, wd g)
  let built := rgClass w != 0 && wAt w 5 == 0
  let w := if rgClass w = 1 then w.take 7 ++ [wAt old 7 ||| wAt w 7] else w
  let (s, w) ← (if built then do
      let s ← rgBuild s ctx g w
      let w := w.take 5 ++ [rgPool w] ++ w.drop 6
      return (descPut s ctx g 5 (rgPool w), w)
    else return (s, w) : AX (State × List Word))
  let s := rgInstall s cl ctx g w built
  let others := (agentsOf s fn g old ++ agentsOf s fn g w).eraseDups.filter (· != cl)
  let h : Shoot := { ret := ret, clb := true, src := p.src, slack := slackLeft (tickN s) p, late := lateAge (tickN s) p, left := others.length }
  let tsv := rgClass old == 1 || rgClass w == 1
  let gen := if tsv then ((getCl s cl).agentGen + 1) % 2 ^ 32 else (getCl s cl).shoots.foldl (fun m x => max m x.gen) (2 ^ 33) + 1
  let s := others.foldl (fun s a => send s 5 (hskOf s (treeUnit cl)) (treeUnit cl) (treeUnit a)
    (.cinv ctx g (some (w ++ [wd (b2n built)])) (.shoot cl gen))) s
  if tsv then return startShoot s cl ctx g none (sharerCores (wAt old 7 ||| wAt w 7)) h
  else if others.isEmpty then return shootDone s cl h
  else return modCl s cl fun c => { c with shoots := c.shoots ++ [{ h with gen := gen }] }

/-- CINV_RELOAD (R165, R382): the first agent of the region checks, builds and passes the reload on; another agent takes
the descriptor at its place in its own order. -/
def execCinvReload (cl : Nat) (s : State) : Host.Outcome State Fault Refusal :=
  .next (match agentNext s cl with
    | some (p, s') => (match p.body with
      | .cinv ctx g none ret =>
        let s' := homeNote s' (treeUnit cl) 5 (pktSrc s' p) p.src g (retUrgent s' ret)
        (match cinvOp s' cl ctx g p ret with
          | .ok s => s
          | .error (c, v) => reply s' 19 (treeUnit cl) p ret (.fault c v))
      | .cinv ctx g (some ws) ret =>
        let s' := homeNote s' (treeUnit cl) 5 (pktSrc s' p) p.src g
        reply (rgInstall s' cl ctx g (ws.take 8) (wAt ws 8 != 0)) 19 (treeUnit cl) p ret .ok
      | _ => s)
    | none => s)

end Sys2Proof.Machine
end

