-- ==== Sys2Proof/Machine/TileRec.lean ====
section
/-!
DEFINITION. Tile-task records (R273, R367), output formats (R369), footprints (R117), and microprogram records (R366).
-/

namespace Sys2Proof.Machine

/-! ### Fields of a record (R367) -/

def trOp (r : List Word) : Nat := fld (wAt r 0) 7 0
def trSat (r : List Word) : Bool := bitAt (wAt r 0) 8
def trRestart (r : List Word) : Bool := bitAt (wAt r 0) 9
def trAcc (r : List Word) : Bool := bitAt (wAt r 0) 10
def trAfmt (r : List Word) : Nat := fld (wAt r 0) 23 16
def trBfmt (r : List Word) : Nat := fld (wAt r 0) 31 24
def trM (r : List Word) : Nat := fld (wAt r 0) 47 32
def trN (r : List Word) : Nat := fld (wAt r 0) 63 48
def trK (r : List Word) : Nat := fld (wAt r 1) 31 0
def trP (r : List Word) : Nat := fld (wAt r 1) 39 32
def trSlot (r : List Word) : Nat := fld (wAt r 1) 47 40
def trDest (r : List Word) : Word := wAt r 5
def trTable (r : List Word) : Word := wAt r 6
def trResult (r : List Word) : Word := wAt r 7

/-- Whether an operation is one of the matrix operations. -/
def isMatrix (op : Nat) : Bool := 1 ≤ op && op ≤ 3

/-! ### Output format (R369) -/

/-- The default output format, none for TCVT and for a reserved operation. -/
def defaultOut (op afmt : Nat) : Option Nat :=
  if (1 ≤ op && op ≤ 4) || op == 11 then some 0x0A
  else if (5 ≤ op && op ≤ 8) || op == 10 || op == 12 then some afmt
  else none

/-- An output format that R369 accepts: `geom` is that of the destination's page. -/
def outAccepted (op c geom : Nat) : Bool :=
  (1 ≤ c && c ≤ 4) || (8 ≤ c && c ≤ 13) || (op == 9 && (bxBits c).isSome && geom == 2)

/-- The output format of a record whose destination lies in a page of format c, or none where R369 gives none. -/
def outFormat (op afmt c geom : Nat) : Option Nat :=
  let f := if c = 0 then defaultOut op afmt else if op = 10 && c != afmt then none else some c
  match f with
  | some x => if outAccepted op x geom then some x else none
  | none => none

/-- Element width for the footprint (R117). -/
def footBits (c : Nat) : Nat := if (s24N c).isSome || elBits c = 0 then 8 else elBits c

/-- The footprint of M × N elements (R117, R362). -/
def footprint (m n : Nat) (f : Option Nat) : Nat := 64 + cdiv (m * n * (match f with | some c => footBits c | none => 8)) 8

/-! ### Microprogram records (R366) -/

/-- Fields of a micro-operation. -/
def uopCode (u : Nat) : Nat := u / 4096 % 16
def uopDst (u : Nat) : Nat := u / 512 % 8
def uopSrc1 (u : Nat) : Nat := u / 64 % 8
def uopSrc2 (u : Nat) : Nat := u / 8 % 8

/-- Whether a micro-operation keeps the rules of R366. -/
def uopOk (u : Nat) : Bool :=
  uopCode u ≤ 8 && [0, 3, 4].contains (uopDst u) && u % 8 == 0 && (uopSrc2 u == 0 || !([0, 6, 7].contains (uopCode u)))

def mpCount (w1 : Word) : Nat := fld w1 7 0
def mpInit (w1 : Word) : Nat := fld w1 15 8
def mpOp (w0 : Word) (j : Nat) : Nat := fld w0 (16 * j + 15) (16 * j)

/-- Whether a microprogram record keeps the rules of R366. -/
def mprogOk (w0 w1 : Word) : Bool :=
  fld w1 63 16 == 0 && mpInit w1 ≤ 3 && 1 ≤ mpCount w1 && mpCount w1 ≤ 4 &&
    (List.range 4).all fun j => if j < mpCount w1 then uopOk (mpOp w0 j) else mpOp w0 j == 0

end Sys2Proof.Machine
end

