-- ==== Sys2Proof/Machine/Thunk.lean ====
section
/-!
DEFINITION. THUNK instructions (R361 to R366).
-/

namespace Sys2Proof.Machine

/-! ### Shared parts (R361) -/

/-- The bead that a handle names: alignment, and its home in the partition (R105, R361). -/
def beadAt (e : Env) (h : Word) : X BeadRef := do
  aligned h 64
  match ← place e h 1 (dskOf e.sl) with
  | .mem k _ _ => if isHost k then trapX 0x08 h else return { key := k, handle := h, ctx := e.sl.ctx }
  | _ => trapX 0x08 h

/-- A chain identifier (R107): context, sequence number, thread identifier. -/
def chainWord (ctx : Nat) (seq : BitVec 31) (t : Tid) : Word := wd (ctx % 65536 * 2 ^ 48 + seq.toNat * 2 ^ 17 + tidWord t)

/-- A chain identifier of the thread (R107). -/
def chainId (e : Env) (seq : BitVec 31) : Word := chainWord e.sl.ctx seq e.t

/-- A new root chain: the sequence number advances (R107). -/
def newChain (e : Env) (s : State) : State × Word :=
  let n := (getSlot s e.t).chainSeq + 1
  (modSlot s e.t fun sl => { sl with chainSeq := n }, chainId e n)

/-- A bead operation sent; the slot waits for its reply. -/
def beadWait (e : Env) (s : State) (acc : List Word) (dst : List Nat) (b : BeadRef) (op : BeadOp) : Stop :=
  sendWait e s acc dst 4 (dskOf e.sl) (unitOf' b.key)
    (.bead b op e.sl.csr.wlimt.toNat e.t.core (recAddr e) (retOf e b.handle))

/-- A FORCE or HWAIT takes its outcome (R110, R204, R363). -/
def takeOutcome (e : Env) (d : Nat) : Deliv → X State
  | .value v p f => do
    let s ← writeR e (orFlags e.s e.t f) d v
    if p then .error (.trapIn s 0x14 0 e.npc) else return done e s
  | .fail c v => trapX c v
  | .failAt c v pc => .error (.trapIn e.s c v pc)

/-- FORCE and HWAIT (R363). -/
def demandOp (enc : BitVec 32) (d a : Nat) (hw : Bool) (s : State) : Host.Outcome State Fault Refusal :=
  thr 4 enc s fun e => do
    suspendFirst e (!hw)
    chk e [a] [d] []
    match e.sl.deliv with
    | some x => takeOutcome e d x
    | none =>
      match e.sl.res with
      | some (.value v p f) => takeOutcome e d (.value v p f)
      | some (.fault c v) => trapX c v
      | some .waits => do
        if hw then drain e
        let s ← writeOut e e.s e.sl.pc
        return leave e s
      | some _ => .error .cond
      | none => do
        let (s, h) ← opnd e e.s 0 a
        let b ← beadAt e h
        roomX e
        if !hw then drain e
        let (s, c) := if hw then (s, chainId e e.sl.chainSeq) else newChain e s
        let s := modSlot s e.t fun sl => { sl with demand := some h }
        .error (beadWait e s [h] [d] b (if hw then .hwait c else .force c))

/-- A read of 64 bytes as a precise phase of an instruction (R362). -/
def phaseRead64 (e : Env) (s : State) (acc : List Word) (va : Word) (slack : Nat) : X (State × List Word) :=
  if acc.length + 8 ≤ e.sl.ph.length then .ok (s, acc ++ (e.sl.ph.drop acc.length).take 8)
  else match gotReply e acc with
    | some (.words l) => .ok (s, acc ++ l.take 8)
    | some (.fault c v) => trapX c v
    | some _ => .error .cond
    | none => do
      match ← place e va 1 slack with
      | .mem k _ _ =>
        if isLocal e k || isHost k then
          match eccStatus s k 64 with
          | 0 => do
            let l := (List.range 8).map fun i => wd (memRead s.mem (k + 8 * i) 8)
            if isHost k then return (s, acc ++ l)
            localGate e s 0 k
            return (localNote e s 0 k, acc ++ l)
          | 1 => .error (.trapIn (markRead s k 64) 0x18 va e.sl.pc)
          | _ => trapX 0x14 va
        else .error (sendWait e s acc [] 0 slack (unitOf' k) (.load k 64 (retOf e va)))
      | _ => trapX 0x08 va

/-! ### SUSPEND and TENQ (R118, R362, R378) -/

/-- Whether a submission is over its bounds (R118). -/
def overBound (c : Csrs) (foot : Nat) : Bool :=
  (c.sbound != 0 && decide (c.scount.toNat + 1 > c.sbound.toNat)) || (c.fbound != 0 && decide (c.fcount.toNat + foot > c.fbound.toNat))

/-- The bead's words as a submission writes them (R104, R362). -/
def beadWords (r : List Word) (recA : Word) (f : Option Nat) (foot : Nat) : List Word :=
  [wd (b2n (trRestart r) * 2 ^ 48 + trN r * 2 ^ 32 + trM r * 65536 + f.getD 0 * 256 + 1), recA, 0, 0, wd foot, wAt r 2, wAt r 3, wAt r 4]

/-- A check whose fault is taken in a state that the instruction has already changed. -/
def faultIn {α : Type} (e : Env) (s : State) (x : X α) : X α :=
  match x with
  | .error (.trap c v) => .error (.trapIn s c v e.sl.pc)
  | .error (.upcall va) => .error (.keep (takeUpcall s e.t va e.sl.pc))
  | r => r

/-- A submission completes: its sequence number is written to g[d] and the counts are moved (R118, R362). -/
def submitted (e : Env) (s : State) (d : Nat) (acc : List Word) (f : Csrs → Csrs) : X State := do
  let s ← writeR e s d (wAt acc 9)
  return done e (modCsr s e.t f)

/-- A collapse: FORCE of the operands from index i on, each in a new root chain (R118). -/
def collapse (e : Env) (s : State) (d : Nat) (r : List Word) (acc : List Word) (foot : Word) : Nat → Nat → X State
  | 0, _ => submitted e s d acc fun c => { c with scount := 1, fcount := foot }
  | n + 1, i =>
    let h := wAt r (2 + i)
    if h = 0 then collapse e s d r acc foot n (i + 1)
    else do
      let b ← faultIn e s (beadAt e h)
      let (s, c) := newChain e s
      let s := modSlot s e.t fun sl => { sl with demand := some h, deliv := none }
      .error (beadWait e s (acc ++ [wd i]) [d] b (.force c))

/-- The outcome of an operand's FORCE in a collapse. -/
def collapseNext (e : Env) (s : State) (d : Nat) (r : List Word) (acc : List Word) (foot : Word) (i : Nat) (f : BitVec 6) : X State :=
  collapse { e with s := orFlags s e.t f } (orFlags s e.t f) d r acc foot (2 - i) (i + 1)

/-- SUSPEND and TENQ. `ph` holds the record's address, its eight words, then sequence number, footprint, over, then the
operand that a collapse forces. g[d] is written when the instruction completes: a precise fault of the home or of a forced operand
leaves it (R191). -/
def submitOp (enc : BitVec 32) (d a : Nat) (tenq : Bool) (s : State) : Host.Outcome State Fault Refusal :=
  thr 4 enc s fun e => do
    if e.sl.ph.length < 12 then ringGate e
    chk e [a] [d] []
    let (s, recA) ← opnd e e.s 0 a
    if e.sl.ph.length < 12 then
      aligned recA 64
      let (s, acc) ← phaseRead64 e s [recA] recA (dskOf e.sl)
      let r := acc.drop 1
      let b ← beadAt e (trResult r)
      let dest := trDest r
      need (0x1000000 ≤ dest.toNat) 0x08 dest
      let (c, g) ← (do
        match ← place e dest 2 (dskOf e.sl) with
        | .mem _ x true => return (entFmt x, entGeom x)
        | .mem _ _ false => return (0, 0)
        | _ => trapX 0x08 dest : X (Nat × Nat))
      let f := outFormat (trOp r) (trAfmt r) c g
      let foot := footprint (trM r) (trN r) f
      let ovr := !tenq && overBound e.sl.csr foot
      need (!(ovr && e.sl.csr.spolicy)) 0x0C b.handle
      release e
      let (s, n) ← takeRing e s true false
      -- the submission step of the generator (R259)
      let x := xorshift e.sl.csr.fseed
      let s := setSeed s e.t x
      let rc := rcOf e.sl
      let sub : Sub := { rm := BitVec.ofNat 3 rc.rm, sat := rc.sat, seed := x, seq := n, tenq := if tenq then some (retOf e b.handle) else none }
      let ws := beadWords r recA f foot
      let (s, ch) := if tenq then newChain e s else (s, 0)
      .error (beadWait e s (acc ++ [n.setWidth 64, wd foot, wd (b2n ovr)]) [d] b
        (if tenq then .tenq ws sub ch else .suspend ws sub))
    else
      let r := (e.sl.ph.drop 1).take 8
      let acc := e.sl.ph.take 12
      let n : BitVec 32 := (wAt e.sl.ph 9).setWidth 32
      let foot := wAt e.sl.ph 10
      if e.sl.ph.length = 12 then
        match e.sl.res with
        | some .ok =>
          let s := if tenq then e.s else setRing e.s e.t n .done
          if tenq then submitted e s d acc id
          else if wAt e.sl.ph 11 != 0 then collapse { e with s := s } s d r acc foot 3 0
          else submitted e s d acc fun c => { c with scount := c.scount + 1, fcount := c.fcount + foot }
        | some (.fault c v) => .error (.trapIn (setRing e.s e.t n .done) c v e.sl.pc)
        | _ => .error .cond
      else
        let i := (wAt e.sl.ph 12).toNat
        match e.sl.deliv, e.sl.res with
        | some (.value _ _ f), _ => collapseNext e e.s d r acc foot i f
        | some (.fail c v), _ => trapX c v
        | some (.failAt c v pc), _ => .error (.trapIn e.s c v pc)
        | none, some (.value _ _ f) => collapseNext e e.s d r acc foot i f
        | none, some (.fault c v) => trapX c v
        | none, some .waits => .error (.keep (modSlot e.s e.t fun sl => { sl with wait := some .reply }))
        | _, _ => .error .cond

/-- HSTAT, HBIND and HDROP: one bead operation whose reply completes the instruction (R365). -/
def beadOnce (e : Env) (s : State) (h : Word) (dst : List Nat) (op : BeadOp) (fin : List Word → X State) : X State :=
  match e.sl.res with
  | some .ok => fin []
  | some (.words l) => fin l
  | some (.fault c v) => trapX c v
  | some _ => .error .cond
  | none => do
    let b ← beadAt e h
    .error (beadWait e s [h] dst b op)

/-- SUSPEND (R118, R362, R378). -/
def execSuspend (d a : BitVec 7) (s : State) : Host.Outcome State Fault Refusal :=
  submitOp (Enc.suspend d a) d.toNat a.toNat false s

/-- TENQ (R362, R378). -/
def execTenq (d a : BitVec 7) (s : State) : Host.Outcome State Fault Refusal :=
  submitOp (Enc.tenq d a) d.toNat a.toNat true s

/-- FORCE (R110, R363). -/
def execForce (d a : BitVec 7) (s : State) : Host.Outcome State Fault Refusal :=
  demandOp (Enc.force d a) d.toNat a.toNat false s

/-- HWAIT (R110, R363). -/
def execHwait (d a : BitVec 7) (s : State) : Host.Outcome State Fault Refusal :=
  demandOp (Enc.hwait d a) d.toNat a.toNat true s

/-- SPARK (R114, R364). -/
def execSpark (a : BitVec 7) (s : State) : Host.Outcome State Fault Refusal :=
  thr 4 (Enc.spark a) s fun e => do
    ringGate e
    chk e [a.toNat] [] []
    let (s, h) ← readR e e.s a.toNat
    let b ← beadAt e h
    let (s, n) ← takeRing e s false true
    let body := Body.bead b .spark 0 e.t.core 0 (.access e.t (e.sl.uid.getD 0) (2 ^ 40 + n.toNat) 0 h)
    return done e (send s 4 (dskOf e.sl) (coreUnit e.t.core) (unitOf' b.key) body)

/-- HSTAT (R365). -/
def execHstat (d a : BitVec 7) (s : State) : Host.Outcome State Fault Refusal :=
  thr 4 (Enc.hstat d a) s fun e => do
    chk e [a.toNat] [d.toNat] []
    let (s, h) ← opnd e e.s 0 a.toNat
    beadOnce e s h [d.toNat] .hstat fun l => do
      let s ← writeR e s d.toNat (l.headD 0)
      return done e s

/-- HBIND (R365). -/
def execHbind (a b : BitVec 7) (s : State) : Host.Outcome State Fault Refusal :=
  thr 4 (Enc.hbind a b) s fun e => do
    chk e [a.toNat, b.toNat] [] []
    let (s, h) ← opnd e e.s 0 a.toNat
    if e.sl.res.isSome then beadOnce e s h [] .hdrop fun _ => return done e s
    else do
      aligned h 64
      let (s, v) ← readR e s b.toNat
      aligned v 64
      need (0x1000000 ≤ v.toNat) 0x08 v
      release e
      beadOnce e s h [] (.hbind v) fun _ => return done e s

/-- HDROP (R365). -/
def execHdrop (a : BitVec 7) (s : State) : Host.Outcome State Fault Refusal :=
  thr 4 (Enc.hdrop a) s fun e => do
    chk e [a.toNat] [] []
    let (s, h) ← opnd e e.s 0 a.toNat
    beadOnce e s h [] .hdrop fun _ => return done e s

/-- MPROG: the record is read and checked, then the slot loaded at the cluster's tile scheduler by one request (R34, R366). -/
def execMprog (a b : BitVec 7) (s : State) : Host.Outcome State Fault Refusal :=
  thr 4 (Enc.mprog a b) s fun e => do
    chk e [a.toNat, b.toNat] [] []
    let (s, n) ← opnd e e.s 0 a.toNat
    let (s, va) ← opnd e s 1 b.toNat
    need (1 ≤ n.toNat && n.toNat ≤ 15) 0x12 0
    aligned va 16
    let (s, acc) ← phaseRead e s [n, va] [] va 8 (dskOf e.sl)
    let (s, acc) ← phaseRead e s acc [] (va + 8) 8 (dskOf e.sl)
    match gotReply e acc with
    | some .ok => return done e s
    | some (.fault c v) => trapX c v
    | some _ => .error .cond
    | none =>
      need (mprogOk (wAt acc 2) (wAt acc 3)) 0x12 0
      .error (sendWait e s acc [] 4 (dskOf e.sl) (coreUnit (svcCore (coreCl e.t.core))) (.mprog n.toNat (wAt acc 2) (wAt acc 3) (retOf e va)))

end Sys2Proof.Machine
end

