-- ==== Sys2Proof/Machine/Carry.lean ====
section
/-!
DEFINITION. Carries: MIGR and MRET (R217 to R220, R360).
-/

namespace Sys2Proof.Machine

/-! ### Carry descriptors (R217) -/

def cdSrc (d : List Word) : Nat := fld (wAt d 1) 19 0
def cdIn (d : List Word) : Nat := (fld (wAt d 2) 7 0 + 1) * 64
def cdOut (d : List Word) : Nat := (fld (wAt d 2) 23 16 + 1) * 64

/-- Whether the reserved fields are 0. -/
def cdOk (d : List Word) : Bool := fld (wAt d 1) 63 20 == 0 && fld (wAt d 2) 63 24 == 0 && fld (wAt d 2) 15 8 == 0 && wAt d 6 == 0 && wAt d 7 == 0

/-- The descriptor at the address in `ph`, with the checks of R360. -/
def cdRead (e : Env) (s : State) (acc : List Word) (a : Word) : X (State × List Word) := do
  aligned a 64
  let (s, l) ← phaseRead64 e s acc a (dskOf e.sl)
  need (cdOk (l.drop acc.length)) 0x12 0
  return (s, l.drop acc.length)

/-- Bytes of a row from their keys, and the places of its marked words; a word whose check fails is marked as it is
read (R203). -/
def rowRead (s : State) (k n : Nat) : State × List Byte × List Nat :=
  let s := markRead s k n
  (s, (List.range n).map (fun i => memByte s.mem (k + i)), (List.range (n / 8)).filter fun i => s.marks.contains (k / 8 + i))

/-- The keys of a row's bytes in a carry's buffer, which need not be aligned. -/
def rowKeys (s : State) (core : Option Nat) (ctx : Nat) (va : Word) (need n : Nat) : Except (BitVec 8 × Word) (List Nat) :=
  (List.range n).mapM fun i =>
    match vkey s core ctx (va + wd i).toNat need with
    | .ok (k, _) => .ok k
    | .error c => .error (c, va + wd i)

/-- A row gathered from the keys of its bytes; a word of it is marked when a word that a byte of it lies in is (R203). -/
def rowGather (s : State) (ks : List Nat) : State × List Byte × List Nat :=
  let s := (ks.map (· / 8)).eraseDups.foldl (fun s w => markRead s (8 * w) 8) s
  (s, ks.map (memByte s.mem), (List.range (ks.length / 8)).filter fun i => ((ks.drop (8 * i)).take 8).any fun k => s.marks.contains (k / 8))

/-- MIGR (R217 to R219). -/
def execMigr (d a b : BitVec 7) (s : State) : Host.Outcome State Fault Refusal :=
  thr 4 (Enc.migr d a b) s fun e => do
    suspendFirst e
    chk e [a.toNat, b.toNat] [d.toNat] []
    match e.sl.deliv with
    | some x => takeOutcome e d.toNat x
    | none => do
      need (!e.sl.ports) 0x1A 0
      let (s, desc) ← opnd e e.s 0 a.toNat
      let (s, pos) ← opnd e s 1 b.toNat
      let (s, r) ← cdRead e s [desc, pos] desc
      let src := cdSrc r
      need (src % 64 == 0) 0x03 (wd src)
      need (src + max (cdIn r) (cdOut r) ≤ 0x100000 && src + max (cdIn r) (cdOut r) ≤ scrSize e.t.core) 0x08 (wd src)
      need (decide (pos.toNat < 0xFFFE)) 0x1A pos
      need (decide ((getCore e.s e.t.core).fwd.length < 16)) 0x1A 0
      drain e
      let bead ← beadAt e (wAt r 0)
      let ls := linesOf ((List.range (cdIn r)).map (scrKey e.t.core src + ·))
      await (lineGateOf s 7 (thrSrc e) ls)
      let s := lineNotesOf s 7 (thrSrc e) (coreUnit e.t.core) ls e.sl.urgent
      let cl := unitCl (unitOf' bead.key)
      let uid := e.sl.uid.getD 0
      let (s, row, marks) := rowRead s (scrKey e.t.core src) (cdIn r)
      let sl := getSlot s e.t
      let ci : CarryIn := { uid := uid, ctx := sl.ctx, t := e.t, ws := recordOf s e.t sl sl.pc, burst := burstWords s e.t sl, row := row,
                            marks := marks, desc := r, pos := pos, limit := sl.csr.wlimt }
      let s := noteCont s e.t sl
      let s := modCont s uid fun k => { k with carry := { home := e.t, desc := desc, pos := pos } :: sl.carry }
      let s := modCore s e.t.core fun c => { c with fwd := c.fwd ++ [{ old := e.t, new := e.t, tick := tickN s, carry := true, ctx := sl.ctx }] }
      let s := setSlot s e.t { readied sl with uid := none, resv := some uid }
      return send s 8 (dskOf e.sl) (coreUnit e.t.core) (coreUnit (svcCore cl)) (.carry ci)

/-- MRET (R220). -/
def execMret (a b : BitVec 7) (s : State) : Host.Outcome State Fault Refusal :=
  thr 4 (Enc.mret a b) s fun e => do
    if firstIssue e then drainLate e
    match e.sl.carry with
    | [] => illegal e
    | c :: _ => do
      chk e [a.toNat, b.toNat] [] []
      let (s, desc) ← opnd e e.s 0 a.toNat
      let (s, pos) ← opnd e s 1 b.toNat
      if desc != c.desc || pos != c.pos then illegal e
      let (s, r) ← cdRead e s [desc, pos] desc
      drain e
      let n := cdOut r
      let va := wAt r 4 + pos * wd n
      match rowKeys s (some e.t.core) e.sl.ctx va 1 n with
      | .error (c, v) => walkStop c v
      | .ok ks => do
        await (lineGateOf s 7 (thrSrc e) (linesOf ks))
        let s := lineNotesOf s 7 (thrSrc e) (coreUnit e.t.core) (linesOf ks) e.sl.urgent
        let (s, row, marks) := rowGather s ks
        let sl := getSlot s e.t
        let uid := sl.uid.getD 0
        let s := noteCont s e.t sl
        let s := ((getCont s uid).area2.take 1).foldl freeArea s
        let s := modCont s uid fun k => { k with area2 := k.area2.drop 1, core := c.home.core }
        let body := Body.carryBack uid c.home (recordOf s e.t sl e.npc) (burstWords s e.t sl) row marks (cdSrc r)
        let s := send s 8 (dskOf e.sl) (coreUnit e.t.core) (coreUnit c.home.core) body
        return setSlot s e.t (emptySlot sl)

end Sys2Proof.Machine
end

