-- ==== Sys2Proof/Machine/Engine.lean ====
section
/-!
DEFINITION. The ENG group (R384 to R393): copy-engine, ranking-engine and reduction-queue instructions.
-/

namespace Sys2Proof.Machine

/-! ### Engine commands (R385) -/

/-- A command issued: the next ticket of its timeline, and the command as the engine will see it. -/
def engCmd (e : Env) (s : State) (kind tl : Nat) (recA dst : Word) (p : Nat) : State × EngCmd :=
  let sl := getSlot s e.t
  let (s, num) := takeTicket s e.t tl
  let rm := sl.csr.fmode.setWidth 3
  let ent := (getCont s (sl.uid.getD 0)).entry
  let s := match ent with | some x => modEntry s x fun n => { n with live := n.live + 1 } | none => s
  (s, { kind := kind, t := e.t, uid := e.sl.uid.getD 0, ctx := sl.ctx, recA := recA, dst := dst, p := p, tl := tl, num := num,
        rm := if rm = 5 then 0 else rm, sat := sl.csr.fmode.getLsbD 3, slack := dskOf sl, mark := s.sent, entry := ent })

/-- A copy-engine command; a 129th in flight waits (R142). -/
def copyCmd (e : Env) (s : State) (kind : Nat) (d : BitVec 7) (recA dst : Word) (p : Nat) : X State := do
  await ((getCore s e.t.core).eng.length < 128)
  let (s, c) := engCmd e s kind 0 recA dst p
  let s := modCore s e.t.core fun k => { k with eng := k.eng ++ [c] }
  return done e (← writeR e s d.toNat c.num)

/-- A ranking-engine command, sent to the engine of the die (R211). -/
def rankCmd (e : Env) (s : State) (kind : Nat) (d : BitVec 7) (recA : Word) : X State := do
  await (outRoom s e.t.core 0)
  let (s, c) := engCmd e s kind 2 recA 0 0
  let s := send s 10 (dskOf e.sl) (coreUnit e.t.core) (rankUnit (coreDie e.t.core)) (.rank c)
  return done e (← writeR e s d.toNat c.num)

/-! ### Reduction queues (R393) -/

/-- The entry and the cluster that an entry word names. -/
def rqWord (e : Env) (w : Word) : X (Nat × Nat) := do
  need (fld w 63 15 == 0) 0x12 0
  let g := fld w 14 4
  need (isGateway g && coreExists g && coreFn e.s g == (getCtx e.s e.sl.ctx).fn) 0x08 0
  return (fld w 3 0, coreCl g)

/-- Whether a reduction descriptor has a nonzero reserved bit or a field out of range (R225). -/
def rqDescOk (ws : List Word) : Bool :=
  let w0 := wAt ws 0
  fld w0 63 32 == 0 && (fld w0 31 24 == 0x10 || fld w0 31 24 == 0x11) && fld w0 23 16 ≥ 2 && fld w0 15 0 ≥ 1 &&
    wAt ws 5 == 0 && wAt ws 6 == 0 && wAt ws 7 == 0

/-- The reply of a queue operation, written to g[d]. -/
def rqReply (e : Env) (d : BitVec 7) : Res → X State
  | .words l => do return done e (← writeR e e.s d.toNat (l.headD 0))
  | .fault c v => trapX c v
  | _ => .error .cond

/-- The operation sent to the queue of a cluster. -/
def rqSend {α : Type} (e : Env) (s : State) (acc : List Word) (d : BitVec 7) (cl op entry : Nat) (ws : List Word) (blk : Nat)
    (kind : Bool) (va : Word) : X α :=
  .error (sendWait e s acc [d.toNat] 10 (dskOf e.sl) (rqUnit cl)
    (.rq op entry ws blk kind e.sl.ctx e.sl.csr.wlimt.toNat (retOf e va)))

/-- CPY (R384, R385, R389). -/
def execCpy (d a b : BitVec 7) (s : State) : Host.Outcome State Fault Refusal :=
  thr 4 (Enc.cpy d a b) s fun e => do
    chk e [a.toNat, b.toNat] [d.toNat] []
    let (s, x) ← readR e e.s a.toNat
    let (s, y) ← readR e s b.toNat
    copyCmd e s 0 d x y 0

/-- PLANE (R384, R385, R390). -/
def execPlane (d a b : BitVec 7) (s : State) : Host.Outcome State Fault Refusal :=
  thr 4 (Enc.plane d a b) s fun e => do
    chk e [a.toNat, b.toNat, d.toNat] [d.toNat] []
    let (s, x) ← readR e e.s a.toNat
    let (s, y) ← readR e s b.toNat
    let (s, p) ← readR e s d.toNat
    copyCmd e s 1 d x y (fld p 4 0)

/-- DENSE (R384, R385, R392). -/
def execDense (d a b : BitVec 7) (s : State) : Host.Outcome State Fault Refusal :=
  thr 4 (Enc.dense d a b) s fun e => do
    chk e [a.toNat, b.toNat] [d.toNat] []
    let (s, x) ← readR e e.s a.toNat
    let (s, y) ← readR e s b.toNat
    copyCmd e s 2 d x y 0

/-- FILL (R384, R385, R391). -/
def execFill (d a : BitVec 7) (s : State) : Host.Outcome State Fault Refusal :=
  thr 4 (Enc.fill d a) s fun e => do
    chk e [a.toNat] [d.toNat] []
    let (s, x) ← readR e e.s a.toNat
    copyCmd e s 3 d x 0 0

/-- ROUTE (R384, R385, R211, R393). -/
def execRoute (d a : BitVec 7) (s : State) : Host.Outcome State Fault Refusal :=
  thr 4 (Enc.route d a) s fun e => do
    chk e [a.toNat] [d.toNat] []
    let (s, x) ← readR e e.s a.toNat
    rankCmd e s 4 d x

/-- PSEL (R384, R385, R211, R393). -/
def execPsel (d a : BitVec 7) (s : State) : Host.Outcome State Fault Refusal :=
  thr 4 (Enc.psel d a) s fun e => do
    chk e [a.toNat] [d.toNat] []
    let (s, x) ← readR e e.s a.toNat
    rankCmd e s 5 d x

/-- RQINIT (R225, R393). -/
def execRqinit (d a b : BitVec 7) (s : State) : Host.Outcome State Fault Refusal :=
  thr 4 (Enc.rqinit d a b) s fun e => do
    chk e [a.toNat, b.toNat] [d.toNat] []
    let (s, x) ← opnd e e.s 0 a.toNat
    let (s, y) ← opnd e s 1 b.toNat
    aligned x 64
    let (entry, cl) ← rqWord e y
    let (s, acc) ← phaseRead64 e s [x, y] x (dskOf e.sl)
    match gotReply e acc with
    | some r => rqReply e d r
    | none =>
      need (rqDescOk (acc.drop 2)) 0x12 0
      rqSend e s acc d cl 0 entry (acc.drop 2) 0 false y

/-- RQGET (R226, R393). -/
def execRqget (d a : BitVec 7) (s : State) : Host.Outcome State Fault Refusal :=
  thr 4 (Enc.rqget d a) s fun e => do
    chk e [a.toNat] [d.toNat] []
    let (s, x) ← opnd e e.s 0 a.toNat
    match gotReply e [x] with
    | some r => rqReply e d r
    | none =>
      let (entry, cl) ← rqWord e x
      rqSend e s [x] d cl 1 entry [] 0 false x

/-- RQDONE (R226, R393). -/
def execRqdone (d a b : BitVec 7) (s : State) : Host.Outcome State Fault Refusal :=
  thr 4 (Enc.rqdone d a b) s fun e => do
    chk e [a.toNat, b.toNat] [d.toNat] []
    let (s, x) ← opnd e e.s 0 a.toNat
    let (s, y) ← opnd e s 1 b.toNat
    match gotReply e [x, y] with
    | some r => rqReply e d r
    | none =>
      let (entry, cl) ← rqWord e x
      need (fld y 63 17 == 0) 0x12 0
      release e
      rqSend e s [x, y] d cl 2 entry [] (fld y 15 0) (bitAt y 16) x

end Sys2Proof.Machine
end

