-- ==== Sys2Proof/Machine/Power.lean ====
section
/-!
DEFINITION. The I3C side-band port, power limits, clocks and thermal state (R25 to R28).
-/

namespace Sys2Proof.Machine

/-! ### Operations shared with the management commands -/

/-- A power limit as the device takes it (R25). -/
def clampLimit (w : Nat) : Nat := if w > 3600 then 3600 else if w < 500 then 500 else w

def setLimit (s : State) (w : Nat) : State := { s with power := { s.power with limit := clampLimit w } }

/-- An in-band interrupt (R25, R28). -/
def raiseIbi (s : State) : State := { s with i3c := { s.i3c with ibis := s.i3c.ibis + 1 } }

/-- The I3C port acknowledges nothing. -/
def i3cNack (s : State) : State := { s with i3c := { s.i3c with data := [], nack := true } }
/-- An answer of the I3C port; with the power stages off no target answers (R27). -/
def i3cAnswer (s : State) (l : List Byte) : State :=
  if s.power.supplyOk then { s with i3c := { s.i3c with data := l, nack := false } } else i3cNack s
/-- An I3C command that changes the device; with the power stages off it is not answered and changes nothing (R27). -/
def i3cDo (s : State) (f : State → State) : State := if s.power.supplyOk then i3cAnswer (f s) [] else i3cNack s

/-- Whether some cluster is throttled (R26). -/
def someThrottled (s : State) : Bool := (List.range 64).any fun c => (getCl s c).throttled

/-- The thermal flags byte (R25). -/
def thermalFlags (s : State) : Nat := b2n (someThrottled s) + 2 * b2n s.power.shutdown + 4 * b2n s.power.unmet

/-- Whether a port is down: after its training or retrain failed, or with no fibre locked (R16, R21, R24). -/
def portDown (k : Port) : Bool := k.st == .down || k.fibres == 0

/-- The link-down mask of ports 0 to 15. -/
def linkDown (s : State) : Nat := (List.range 16).foldl (fun a p => a + (if portDown (getPort s p) then 2 ^ p else 0)) 0

/-- Whether thermal shutdown holds off a package reset (R29). -/
def resetHeld (s : State) : Bool := s.power.shutdown && (List.range 64).any fun c => decide ((getCl s c).temp ≥ 85)

/-- A cluster's clock changed: the cycles counted so far are kept (log 9). -/
def setClock (s : State) (cl clk : Nat) : State :=
  modCl s cl fun c => { c with cyc10 := c.cyc10 + (tickN s - c.cycTick) * 2 * c.clock, cycTick := tickN s, clock := clk }

/-! ### I3C commands (R28) -/

/-- The boot stage byte (R28, R30): the failing stage in recovery mode, else the stages that have run, both counted from 0
(DESIGN CHOICE, log 48). -/
def bootByte (s : State) : Nat := if s.boot.recovery then s.boot.failing else s.boot.stage

/-- I3C_READ_STATUS (R28). -/
def execI3cReadStatus (s : State) : Host.Outcome State Fault Refusal :=
  let d := linkDown s
  .next (i3cAnswer s ([bootByte s, d % 256, d / 256, thermalFlags s].map (BitVec.ofNat 8)))

/-- I3C_READ_TEMPERATURES (R28). -/
def execI3cReadTemperatures (s : State) : Host.Outcome State Fault Refusal :=
  .next (i3cAnswer s ((List.range 64).map fun c => BitVec.ofNat 8 (getCl s c).temp))

/-- I3C_READ_PACKAGE_POWER (R28). -/
def execI3cReadPackagePower (s : State) : Host.Outcome State Fault Refusal := .next (i3cAnswer s (leBytes 2 s.power.draw))

/-- I3C_SET_POWER_LIMIT (R25, R28): `cmd` is the command's code and its two bytes. Code 0x04 sets the limit; the codes 0x01
to 0x06 beside it have rows of their own, and any other code is answered with a NACK. -/
def execI3cSetPowerLimit (cmd : BitVec 8 × BitVec 16) (s : State) : Host.Outcome State Fault Refusal :=
  .next (
    if cmd.1 = 4 then i3cDo s fun s => setLimit s cmd.2.toNat
    else if cmd.1.toNat ≤ 6 && cmd.1 != 0 then s
    else i3cNack s)

/-- I3C_READ_IDENTITY_KEY (R28, R31). -/
def execI3cReadIdentityKey (s : State) : Host.Outcome State Fault Refusal := .next (i3cAnswer s (leBytes 32 Config.identityKey.toNat))

/-- I3C_RESET_PACKAGE (R28, R29). -/
def execI3cResetPackage (s : State) : Host.Outcome State Fault Refusal :=
  .next (if resetHeld s then i3cNack s else i3cDo s packageReset)

/-- I3C_RESET_DIE (R28, R207). -/
def execI3cResetDie (die : BitVec 2) (s : State) : Host.Outcome State Fault Refusal :=
  .next (i3cDo s fun s => if (getDie s die.toNat).inReset then s else dieReset s die.toNat false)

/-! ### Supply, temperature, power and clocks (R25 to R27) -/

/-- SUPPLY_FAULT (R27): a supply outside 48 to 60 V; the power stages stay off and the fault is reported. A supply that
returns lets the package start, or go on as it stood (DESIGN CHOICE, log 49). -/
def execSupplyFault (volts : Nat) (s : State) : Host.Outcome State Fault Refusal :=
  .next (if 48 ≤ volts && volts ≤ 60 then { s with power := { s.power with supplyOk := true, supplyFault := false } }
    else { s with power := { s.power with supplyOk := false, supplyFault := true } })

/-- Thermal shutdown: every cluster halts, the lasers stop and THERMAL is reported (R26). -/
def thermalStop (s : State) : State :=
  let s := raiseIbi { s with power := { s.power with shutdown := true } }
  (List.range 16).foldl (fun s p => modPort s p fun p => { p with st := .down, attempts := 3 }) s

/-- A cluster's sensor reads a temperature: from 95 °C on its clock is throttled, at 115 °C the package shuts down (R26). -/
def sensorRead (s : State) (cl temp : Nat) : State :=
  let hot := decide (temp ≥ 95)
  let s' := modCl s cl fun c => { c with temp := temp, throttled := hot }
  if temp ≥ 115 then (if s.power.shutdown then s' else thermalStop s')
  else if hot && !(getCl s cl).throttled then raiseIbi s' else s'

/-- THERMAL_THROTTLE (R26): a cluster's sensor reading. -/
def execThermalThrottle (cl : Nat) (temp : Nat) (s : State) : Host.Outcome State Fault Refusal :=
  .next (if cl ≥ 64 then s else sensorRead s cl temp)

/-- THERMAL_SHUTDOWN (R26): a sensor reading of 115 °C or more. -/
def execThermalShutdown (cl : Nat) (temp : Nat) (s : State) : Host.Outcome State Fault Refusal :=
  .next (if cl ≥ 64 || temp < 115 then s else sensorRead s cl temp)

/-- POWER_LIMIT_UNMET (R25): the package draws more than the limit with every cluster at 0.6 GHz. -/
def execPowerLimitUnmet (watts : Nat) (s : State) : Host.Outcome State Fault Refusal :=
  let s := { s with power := { s.power with draw := watts } }
  .next (if watts > s.power.limit && (List.range 64).all (fun c => decide ((getCl s c).clock ≤ 6)) && !s.power.unmet then
      raiseIbi { s with power := { s.power with unmet := true } }
    else s)

/-- POWER_LIMIT_MET (R25): the draw falls below the limit. -/
def execPowerLimitMet (watts : Nat) (s : State) : Host.Outcome State Fault Refusal :=
  let s := { s with power := { s.power with draw := watts } }
  .next (if watts < s.power.limit then { s with power := { s.power with unmet := false } } else s)

/-- CLOCK_STEP (R25, R26): one step of 0.1 GHz within 0.6 to 2.0 GHz; down while a limit or the throttle acts, up
while neither does. -/
def execClockStep (cl : Nat) (up : Bool) (s : State) : Host.Outcome State Fault Refusal :=
  let c := getCl s cl
  let held := c.throttled || decide (s.power.draw > s.power.limit)
  .next (
    if cl ≥ 64 then s
    else if up then (if c.clock < 20 && !held then setClock s cl (c.clock + 1) else s)
    else if 6 < c.clock && held then setClock s cl (c.clock - 1) else s)

end Sys2Proof.Machine
end

