-- ==== Sys2Proof/Machine/HostQueue.lean ====
section
/-!
DEFINITION. The host's registers and windows, notify queues, launch entries and image loads (R56 to R73, R76 to R82,
R438, R439).
-/

namespace Sys2Proof.Machine

/-- Whether a function answers the host: in recovery mode only the management function does (R30). -/
def hostUp (s : State) (fn : Nat) : Bool := fn < 32 && s.power.supplyOk && (fn == 0 || s.boot.done)

/-- Notify queues of a function (R58). -/
def nqCount (fn : Nat) : Nat := if fn = 0 then 256 else 64

/-! ### Management commands end (R60) -/

/-- Byte i of the command in progress. -/
def cmdByte (s : State) (i : Nat) : Nat := fld (smGet 0 s.mgmt.cmd (i / 8)) (8 * (i % 8) + 7) (8 * (i % 8))
/-- n bytes of the command in progress from byte i. -/
def cmdNat (s : State) (i n : Nat) : Nat := (List.range n).foldl (fun a j => a + cmdByte s (i + j) * 256 ^ j) 0

/-- The end of a command: its response, status and tag, busy clear, vector 0 of function 0. -/
def mgmtEnd (s : State) (status : Nat) (resp : List Word) : State :=
  let m := s.mgmt
  raise { s with mgmt := { m with mresp := (resp.zipIdx.map fun e => (e.2, e.1)), busy := false, status := status, tag := cmdNat s 4 4 } } 0 0

/-- Whether the command's op and sub-operation name a row of the command table. -/
def cmdKnown (s : State) : Bool :=
  let op := cmdByte s 0
  1 ≤ op && op ≤ 0x13 && (op != 0x06 || cmdByte s 9 ≤ 1) && (op != 0x11 || cmdByte s 8 ≤ 4) && (op != 0x13 || cmdByte s 8 ≤ 5)

/-! ### Registers (R59, R61) -/

/-- A vector's pending bit sent when its mask is clear (R59). -/
def msixFlush (s : State) (fn vec : Nat) : State :=
  let f := getFn s fn
  if bitAt (smGet 0 f.msixPba (vec / 64)) (vec % 64) && !bitAt (msixGet f (2 * vec + 1)) 32 then
    let s := modFn s fn fun f => { f with msixPba := smMod 0 f.msixPba (vec / 64) fun w => w &&& ~~~(wd (2 ^ (vec % 64))) }
    { s with msix := s.msix ++ [(fn, vec)] }
  else s

/-- A write to the MSI-X table, of 32 or 64 bits. -/
def msixWrite (s : State) (fn o bytes : Nat) (v : Word) : State :=
  let i := o / 8
  let f := getFn s fn
  let w := if bytes = 8 then v
    else if o % 8 = 0 then wd (fld (msixGet f i) 63 32 * 2 ^ 32 + fld v 31 0)
    else wd (fld (msixGet f i) 31 0 + fld v 31 0 * 2 ^ 32)
  if bytes = 8 && o % 8 = 0 || bytes = 4 && o % 4 = 0 then msixFlush (modFn s fn fun f => msixSet f i w) fn (i / 2) else s

/-- A 64-bit write to the control block; reserved bits of a vector register are not kept (DESIGN CHOICE, log 61). -/
def ctlWrite (s : State) (fn off : Nat) (v : Word) : State :=
  let vecReg := v &&& 0x80000000000007FF
  if 0x100 ≤ off && off < 0x900 then
    (if (off - 0x100) / 8 < nqCount fn then modNq s fn ((off - 0x100) / 8) fun q => { q with qvec := vecReg } else s)
  else if off = 0x1028 then modFn s fn fun f => { f with scvec := vecReg }
  else if 0x2000 ≤ off && off < 0x2018 then modFn s fn fun f => { f with screply := smSet 0 f.screply ((off - 0x2000) / 8) v }
  else if fn = 0 && 0x4000 ≤ off && off < 0x4100 then { s with mgmt := { s.mgmt with mcmd := smSet 0 s.mgmt.mcmd ((off - 0x4000) / 8) v } }
  else if fn = 0 && off = 0x4100 then
    if s.mgmt.busy then s
    else
      let s := { s with mgmt := { s.mgmt with busy := true, cmd := s.mgmt.mcmd } }
      if cmdKnown s then s else mgmtEnd s 2 []
  else s

/-- Whether an offset of a notify page lies in a listed field (R61). -/
def pageListed (o : Nat) : Bool := decide (o < 0x60) || decide (0x800 ≤ o)

/-- A 64-bit write to a notify-page field that has no row of its own; the low bits of an address that is not aligned as R61
asks are dropped (DESIGN CHOICE, log 59). -/
def pageWrite (s : State) (fn q o : Nat) (v : Word) : State :=
  modNq s fn q fun n =>
    match o with
    | 0x018 => { n with ringbase := v &&& 0xFFFFFFFFFFFFFFC0 }
    | 0x020 => { n with ringlog := v }
    | 0x028 => { n with compaddr := v &&& 0xFFFFFFFFFFFFFFF8 }
    | 0x040 => { n with hiver := v }
    | 0x050 => { n with nthead := v.toNat }
    | _ => n

/-- REGISTER_WRITE (R58, R59, R61): a host write to a register without a row of its own; `bar` is the first BAR of the pair.
A 64-bit write to a listed field that is not aligned counts as a narrower one and sets WIDTH (DESIGN CHOICE, log 78). -/
def execRegisterWrite (fn : Nat) (bar : Nat) (off : Nat) (bytes : Nat) (v : BitVec 64) (s : State) : Host.Outcome State Fault Refusal :=
  .next (
    if !hostUp s fn then s
    else if bar = 0 then
      if 0x10000 ≤ off && off < 0x10000 + 16 * msixCount fn then msixWrite s fn (off - 0x10000) bytes v
      else if bytes = 8 && off % 8 = 0 then ctlWrite s fn off v else s
    else if bar = 2 && off / 4096 < nqCount fn then
      let o := off % 4096
      if bytes = 8 && o % 8 = 0 then pageWrite s fn (off / 4096) o v
      else if pageListed o then modNq s fn (off / 4096) fun n => { n with err := 2 }
      else s
    else s)

/-! ### Notify queues (R61 to R63) -/

def ringSlots (n : NQueue) : Nat := 2 ^ fld n.ringlog 4 0

/-- RINGIDX_WRITE (R62). -/
def ringidxPut (s : State) (fn q : Nat) (v : Word) : State :=
  modNq s fn q fun n =>
    if v.toNat ≤ n.ringidx then n
    else if v.toNat > n.admitted + ringSlots n then { n with err := 1 }
    else { n with ringidx := v.toNat }

def execRingidxWrite (fn : Nat) (q : Nat) (v : BitVec 64) (s : State) : Host.Outcome State Fault Refusal :=
  .next (if hostUp s fn && q < nqCount fn then ringidxPut s fn q v else s)

/-- QUEUE_ENABLE (R62): from DISABLED, or from an enable that was refused; in any other state the write is ignored, and
where both ringlog and hiver are bad the error is RINGCFG (DESIGN CHOICE, log 60). -/
def execQueueEnable (fn : Nat) (q : Nat) (s : State) : Host.Outcome State Fault Refusal :=
  let n := getNq s fn q
  .next (
    if !(hostUp s fn && q < nqCount fn) then s
    else if !(n.st = 0 || n.st = 3 && (n.err = 3 || n.err = 4)) then s
    else modNq s fn q fun n =>
      if fld n.ringlog 63 5 != 0 || fld n.ringlog 4 0 < 4 || fld n.ringlog 4 0 > 16 then { n with st := 3, err := 3 }
      else if n.hiver != 1 then { n with st := 3, err := 4 }
      else { n with st := 1, err := 0, draining := false })

/-- QUEUE_DISABLE (R61). -/
def execQueueDisable (fn : Nat) (q : Nat) (s : State) : Host.Outcome State Fault Refusal :=
  .next (if hostUp s fn && q < nqCount fn then
      modNq s fn q fun n => if n.st = 1 || n.st = 2 then settle { n with draining := true } else n
    else s)

/-- A sequence number that no later entry of the queue has: entries in flight at a reset run on under it (log 25). -/
def orphanSeq (n : Nat) : Nat := n + 2 ^ 64

/-- QUEUE_RESET (R62): ringidx, admitted and compcnt go to 0, and the counts of the notice area stay (DESIGN CHOICE,
log 51). -/
def execQueueReset (fn : Nat) (q : Nat) (s : State) : Host.Outcome State Fault Refusal :=
  let ren : EntryRef → EntryRef := fun e => if e.fn = fn ∧ e.q = q then { e with seq := orphanSeq e.seq } else e
  let renI : Inj → Inj := fun i => match i.kind with
    | .roots e n st l pc a d => { i with kind := .roots (ren e) n st l pc a d }
    | _ => i
  let renE : EngCmd → EngCmd := fun c => { c with entry := c.entry.map ren }
  .next (
    if !(hostUp s fn && q < nqCount fn) then s
    else
      let s := modNq s fn q fun n =>
        { n with ringidx := 0, admitted := 0, compcnt := 0, st := 0, err := 0, awaited := 0, retry := 64, draining := false,
                 entries := n.entries.filterMap fun e => if e.written then none else some { e with seq := orphanSeq e.seq } }
      { s with conts := s.conts.map (fun (e : Nat × Cont) => (e.1, { e.2 with entry := e.2.entry.map ren })),
               clusters := s.clusters.map (fun (e : Nat × Cluster) => (e.1, { e.2 with inj := e.2.inj.map renI })),
               cores := s.cores.map (fun (e : Nat × Core) => (e.1, { e.2 with uinbox := e.2.uinbox.map renI, eng := e.2.eng.map renE })),
               dies := s.dies.map (fun (e : Nat × Die) => (e.1, { e.2 with rank := e.2.rank.map fun r => (renE r.1, r.2) })) })

/-- The 64 bytes of the slot of the next entry to admit, or none when the read cannot be performed (R63); `err` says that
the host link answers the read of a host address with an error. -/
def readSlot (s : State) (n : NQueue) (err : Bool) : Option (List Word) :=
  let a := n.ringbase + wd (64 * (n.admitted % ringSlots n))
  if bitAt n.ringbase 63 then (if err then none else some ((List.range 8).map fun i => wd (memRead s.mem (hostAt (a.toNat + 8 * i)) 8)))
  else match n.ctx with
    | none => none
    | some c => if !(getCtx s c).live || n.stale then none else match loadWords s none c a 8 with | .ok l => some l | .error _ => none

/-- A read of the slot: admission, WAITSTAMP with the given interval, or RINGFAULT (R63). -/
def tryAdmit (s : State) (fn q retry : Nat) (err : Bool) : State :=
  let n := getNq s fn q
  match readSlot s n err with
  | none => modNq s fn q fun n => { n with st := 3, err := 5 }
  | some ws =>
    if wAt ws 0 = wd n.admitted then
      modNq s fn q fun n => { n with st := 1, admitted := n.admitted + 1, retry := 64, entries := n.entries ++ [{ seq := n.admitted, ws := ws }] }
    else modNq s fn q fun n => { n with st := 2, awaited := n.admitted, retry := retry }

/-- ADMIT_ENTRY (R63): `q` is the queue, and whether the host link answers the read of its slot with an error. -/
def execAdmitEntry (fn : Nat) (q : Nat × Bool) (s : State) : Host.Outcome State Fault Refusal :=
  let n := getNq s fn q.1
  .next (if hostUp s fn && working s && s.boot.done && q.1 < nqCount fn && n.st = 1 && n.admitted < n.ringidx && !n.draining then tryAdmit s fn q.1 64 q.2 else s)

/-- STAMP_RETRY (R63): the interval in nanoseconds doubles up to 8,192; `q` as in ADMIT_ENTRY. -/
def execStampRetry (fn : Nat) (q : Nat × Bool) (s : State) : Host.Outcome State Fault Refusal :=
  let n := getNq s fn q.1
  .next (if hostUp s fn && working s && s.boot.done && q.1 < nqCount fn && n.st = 2 && !n.draining then tryAdmit s fn q.1 (min (2 * n.retry) 8192) q.2 else s)

/-! ### The system-call ring (R76, R77) -/

/-- SCRING_CONFIG (R77). A base that is not a multiple of 64 is kept as written (DESIGN CHOICE, log 79). -/
def execScringConfig (fn : Nat) (isLog : Bool) (v : BitVec 64) (s : State) : Host.Outcome State Fault Refusal :=
  .next (if hostUp s fn then
      let s := modFn s fn fun f => if isLog then { f with sclog := v, sctail := 0, schead := 0 } else { f with scbase := v, sctail := 0, schead := 0 }
      scDrain s fn (getFn s fn).held.length
    else s)

/-- SCHEAD_WRITE (R77). -/
def execScheadWrite (fn : Nat) (v : BitVec 64) (s : State) : Host.Outcome State Fault Refusal :=
  .next (if hostUp s fn then
      let s := modFn s fn fun f => { f with schead := v.toNat }
      scDrain s fn (getFn s fn).held.length
    else s)

/-- A parked system call receives its reply: recorded in recording mode, a0 and a1 written, the slot back in rotation. -/
def sysDeliver (s : State) (t : Tid) (a0 a1 : Word) : State :=
  let sl := getSlot s t
  let s := scRecord s (coreFn s t.core) (origTid s t) sl.callSeq a0 a1
  modSlot (regSet (regSet s t sl 4 a0) t sl 5 a1) t fun sl => { sl with wait := none, res := none }

/-- Whether the reply of a thread's call waits: its thread or partition is halted, or the trace ring has no room for the
reply's two records under stall (R74, R209). -/
def sysHeld (s : State) (t : Tid) : Bool :=
  (getFn s (coreFn s t.core)).halted || (getSlot s t).halted || !traceRoomN s (coreFn s t.core) 2

/-- Whether a system-call reply names a call that is parked at a place. -/
def callParked (s : State) (fn : Nat) (t : Tid) (seq : Word) : Bool :=
  let sl := getSlot s t
  coreFn s t.core = fn && sl.uid.isSome && sl.wait = some .sysc && sl.res.isNone && sl.callSeq = seq

/-- A reply at the place that it names: the parked call receives it, or keeps it while it must wait; one that names no parked
call is discarded and counted (R74, R76, R209). -/
def sysAnswer (s : State) (fn : Nat) (t : Tid) (seq a0 a1 : Word) : State :=
  if callParked s fn t seq then
    if sysHeld s t then modSlot s t fun sl => { sl with res := some (.words [a0, a1]) } else sysDeliver s t a0 a1
  else modFn s fn fun f => { f with scLost := f.scLost + 1 }

/-- The forwarding entry for a thread identifier at its core. -/
def fwdOf (s : State) (t : Tid) : Option Fwd := (getCore s t.core).fwd.find? fun f => f.old == t

/-- A packet that names an old place goes on to the new one as a class 22 packet, and the entry counts as used (R202). -/
def forwardTo (s : State) (f : Fwd) (slack : Nat) (late : Option Nat) (b : Body) : State :=
  let core := f.old.core
  let s := modCore s core fun c => { c with fwd := c.fwd.map fun x => if x = f then { x with tick := tickN s } else x }
  inject s { cls := 22, slack := slack, late := late, src := coreUnit core, dst := coreUnit f.new.core, body := .forward f.new b }

/-- SYSCALL_REPLY (R26, R76, R202): the reply in screply delivered, or sent after a thread that has moved; with the clusters
halted it reaches no thread. The device's host
interface has no unit identifier (R9), so the message and the reply are in no queue but for the forwarding (log 56). -/
def execSyscallReply (fn : Nat) (v : BitVec 64) (s : State) : Host.Outcome State Fault Refusal :=
  .next (
    if !hostUp s fn then s
    else
      let s := modFn s fn fun f => { f with screply := smSet 0 f.screply 3 v }
      if !working s then s else
      let w := fun i => smGet 0 (getFn s fn).screply i
      let t := wordTid (fld (w 0) 16 0)
      match fwdOf s t with
      | some f =>
        if f.new = t then sysAnswer s fn t (w 1) (w 2) v
        else forwardTo s f (hskOf s (coreUnit t.core)) (if hskOf s (coreUnit t.core) = 0 then some (tickN s) else none) (.sysrep fn (w 1) (w 2) v)
      | none => sysAnswer s fn t (w 1) (w 2) v)

/-! ### The device memory window (R58) -/

/-- The key of an offset of a function's window. -/
def windowKey (s : State) (fn off : Nat) : Option Nat :=
  let k := off / 0x60000000
  let cl := (partition s fn).getD (k / 4) 64
  if cl < 64 then some ((cl * 4 + k % 4) * 0x80000000 + off % 0x60000000) else none

/-- The bytes that a read of a function's window gives; offsets beyond the last slice read as zero (R58). -/
def windowWord (s : State) (fn off n : Nat) : Word :=
  wd (leNat ((List.range n).map fun i => match windowKey s fn (off + i) with | some k => memByte s.mem k | none => 0))

/-- HOST_WINDOW_ACCESS (R58): a read gives the host the bytes, and a word whose check fails takes its mark; a write is
performed at the slice's home. -/
def execHostWindowAccess (fn : Nat) (off : Nat) (wr : Bool) (bytes : Nat) (v : BitVec 64) (s : State) : Host.Outcome State Fault Refusal :=
  let cells := (List.range (min bytes 8)).filterMap fun i => (windowKey s fn (off + i)).map fun k => (k, BitVec.ofNat 8 (v.toNat >>> (8 * i)))
  .next (
    if !(hostUp s fn && s.boot.done) then s
    else if wr then storeAtHome s cells
    else
      let s := match windowKey s fn off with
        | some k => markRead s k (min bytes 8)
        | none => s
      { s with hostData := windowWord s fn off (min bytes 8) })

/-! ### Launch entries (R64, R65, R78, R81, R82) -/

def enImage (ws : List Word) : Nat := fld (wAt ws 1) 31 0
def enIndex (ws : List Word) : Nat := fld (wAt ws 1) 47 32
def enArg (ws : List Word) : Word := wAt ws 2
def enCount (ws : List Word) : Word := wAt ws 3
def enSteal (ws : List Word) : Nat := fld (wAt ws 4) 1 0
def enPrio (ws : List Word) : Nat := fld (wAt ws 4) 3 2
def enTarget (ws : List Word) : Nat := (wAt ws 5).toNat
/-- The words of a launch entry that the device holds. -/
def entryWords (s : State) (e : EntryRef) : List Word :=
  match (getNq s e.fn e.q).entries.find? fun x => x.seq == e.seq with
  | some x => x.ws
  | none => []
/-- Whether a reserved bit of an entry is set (R64). -/
def enReserved (ws : List Word) : Bool :=
  fld (wAt ws 1) 63 48 != 0 || fld (wAt ws 4) 15 4 != 0 || fld (wAt ws 6) 63 5 != 0 || wAt ws 7 != 0

/-- An entry that completes without running. -/
def refuse (s : State) (e : EntryRef) (status : Nat) : State :=
  modEntry s e fun x => { x with start := true, live := 0, status := some status }

/-- The status with which an entry completes at once whatever it asks for: a reserved bit, a target above its own number,
a torn or discarded context, one that has ended since its queue was bound (R65, R439). -/
def earlyStatus (s : State) (n : NQueue) (x : Entry) : Option Nat :=
  if enReserved x.ws then some 2
  else if enTarget x.ws > x.seq then some 7
  else match n.ctx with
    | none => some 6
    | some c => if !(getCtx s c).live || n.stale then some 6 else (getCtx s c).torn

/-- Whether an entry's target is met, or it completes without waiting for it. -/
def targetMet (n : NQueue) (x : Entry) : Bool :=
  enTarget x.ws = 0 || n.compcnt ≥ enTarget x.ws || enReserved x.ws || enTarget x.ws > x.seq

/-- An entry descriptor that is accepted (R82). -/
def descOk (d : Word) : Bool := fld d 63 32 == 0 && fld d 15 6 == 0 && fld d 31 16 != 0

/-- Put into an injection queue. -/
def injPush (s : State) (cl : Nat) (i : Inj) : State := modCl s cl fun c => { c with inj := c.inj ++ [{ i with since := tickN s }] }

/-- Roots 0 to n − 1 distributed over the partition's clusters (R81). -/
def spreadRoots (s : State) (fn : Nat) (e : EntryRef) (ctx n : Nat) (pc arg desc : Word) (prio : BitVec 2) : State :=
  let cls := partition s fn
  let c := cls.length
  cls.zipIdx.foldl (fun s x =>
    if x.2 < n then
      injPush s x.1 { kind := .roots e x.2 c ((n - x.2 + c - 1) / c) pc arg desc, ctx := ctx, prio := prio }
    else s) s

/-- The cores that a placement table names, in order, with their entry index; none when it names a core that may not be
named (R65, R69, R81). -/
def placedCores (s : State) (fn : Nat) (im : Image) : Option (List (Nat × Nat)) :=
  (List.range (im.place.length / 2)).foldlM (init := []) fun acc i =>
    let w := im.place.getD (2 * i) 0
    let first := fld w 10 0
    let n := fld w 31 16
    let idx := fld w 47 32
    let cs := (List.range n).map fun j => first + j
    if idx < im.offs.length && cs.all (fun c => coreExists c && coreCl c == coreCl first && coreFn s c == fn) then
      some (acc ++ cs.map fun c => (c, idx))
    else none

/-- The descriptor of an entry index: its words in memory, or the status of an entry that has none usable (R82, R83). -/
def descAt (s : State) (ctx : Nat) (im : Image) (idx : Nat) : Except Nat (Word × Word) :=
  let a := wAt im.offs idx
  match loadWords s none ctx a 1 with
  | .error _ => .error 3
  | .ok l =>
    let d := l.headD 0
    if !descOk d then .error 3 else if fld d 31 16 > (getCtx s ctx).spillK then .error 1 else .ok (a + 8, d)

/-- The nest descriptor of an entry, checked, its counter set to 0; the participant count (R81, R92). -/
def startNest (s : State) (ctx : Nat) (a desc : Word) : Except Nat (State × Nat) :=
  match loadWords s none ctx a 4 with
  | .error _ => .error 9
  | .ok ws =>
    let n := nestOf a ws
    let w := winW { wsize := BitVec.ofNat 4 (fld desc 3 0), ports := bitAt desc 4 }
    if nestOk n (wAt ws 3) && (nestRegs n).all (fun r => r != 0 && decide (r < w)) then
      match storeWords s none ctx n.counter [0] with
      | .ok s => .ok (s, n.parts)
      | .error _ => .error 9
    else .error 9

/-- The start of an entry whose context and image are usable. A chain entry whose placement table is empty completes DONE
(DESIGN CHOICE, log 62). An entry with both the nest and the chain flag places its roots as a chain entry does (DESIGN
CHOICE, log 82). -/
def startRun (s : State) (e : EntryRef) (ctx : Nat) (ws : List Word) (im : Image) : State :=
  let fn := (getCtx s ctx).fn
  let prio : BitVec 2 := BitVec.ofNat 2 (enPrio ws)
  let begun := fun (s : State) (n : Nat) => modEntry s e fun x => { x with start := true, live := n }
  let nest := enFlag ws 0
  let chain := enFlag ws 3
  if enIndex ws ≥ im.offs.length then refuse s e 3
  else if !nest && ((enCount ws).toNat = 0 || (enCount ws).toNat > 2 ^ 32) then refuse s e 9
  else if chain && !im.hasPl then refuse s e 9
  else if chain then
    match placedCores s fn im with
    | none => refuse s e 9
    | some cs =>
      match cs.mapM fun x => (descAt s ctx im x.2).toOption.map fun d => (x.1, d) with
      | none => refuse s e ((cs.findSome? fun x => match descAt s ctx im x.2 with | .error st => some st | .ok _ => none).getD 3)
      | some l =>
        match if nest then (startNest s ctx (enCount ws) (match l with | x :: _ => x.2.2 | [] => 0)).map (·.1) else .ok s with
        | .error st => refuse s e st
        | .ok s =>
          if l.isEmpty then refuse s e 0
          else l.zipIdx.foldl (fun s x =>
            injPush s (coreCl x.1.1) { kind := .roots e x.2 1 1 x.1.2.1 (enArg ws) x.1.2.2, ctx := ctx, tag := some x.1.1, prio := prio }) (begun s l.length)
  else match descAt s ctx im (enIndex ws) with
    | .error st => refuse s e st
    | .ok (pc, d) =>
      match if nest then startNest s ctx (enCount ws) d else .ok (s, (enCount ws).toNat) with
      | .error st => refuse s e st
      | .ok (s, n) => spreadRoots (begun s n) fn e ctx n pc (enArg ws) d prio

/-- Whether the service core that reads a function's entries runs: that of its partition's lowest cluster (R26, R27, R81). -/
def entryCore (s : State) (fn : Nat) : Bool :=
  working s && (partition s fn).head?.all fun c => dieRuns s (clDie c) && !(getCore s (svcCore c)).stopped

/-- ENTRY_START (R65, R81). -/
def execEntryStart (fn : Nat) (q : Nat) (seq : Nat) (s : State) : Host.Outcome State Fault Refusal :=
  let n := getNq s fn q
  let e : EntryRef := { fn := fn, q := q, seq := seq }
  .next (
    match n.entries.find? fun x => x.seq = seq with
    | none => s
    | some x =>
      if x.start || x.status.isSome || x.failed.isSome || !targetMet n x || !s.boot.done || !entryCore s fn then s
      else match earlyStatus s n x with
        | some st => refuse s e st
        | none =>
          let ctx := n.ctx.getD 0
          if enFlag x.ws 4 then s
          else match (getCtx s ctx).images.find? fun i => i.handle = enImage x.ws with
            | none => refuse s e 8
            | some im => startRun s e ctx x.ws im)

/-- ENTRY_COMPLETE (R65, R66). -/
def execEntryComplete (fn : Nat) (q : Nat) (seq : Nat) (s : State) : Host.Outcome State Fault Refusal :=
  .next (completeEntry s fn q seq)

/-! ### Image loads (R69 to R72, R438) -/

/-- Bytes read from a virtual address of a context. -/
def readBytes (s : State) (ctx : Nat) (va : Word) (n : Nat) : Option (List Byte) :=
  (List.range n).mapM fun i =>
    match vkey s none ctx (va + wd i).toNat 1 with
    | .ok (k, _) => if eccStatus s k 1 = 0 then some (memByte s.mem k) else none
    | .error _ => none

/-- Bytes written to a virtual address of a context with a permission; none when one cannot be reached. -/
def writeBytes (s : State) (ctx : Nat) (va : Word) (need : Nat) (l : List Byte) : Option State :=
  ((List.range l.length).mapM fun i =>
    match vkey s none ctx (va + wd i).toNat need with
    | .ok (k, _) => some k
    | .error _ => none).map fun (ks : List Nat) => storeAtHome s (ks.zip l)

/-- A section descriptor. -/
structure Section where
  type : Nat := 0
  tag  : Nat := 0
  resv : Nat := 0
  off  : Nat := 0
  len  : Nat := 0
  addr : Word := 0
  deriving DecidableEq, Repr

def leAt (l : List Byte) (i n : Nat) : Nat := leNat ((l.drop i).take n)

def sectionAt (l : List Byte) (i : Nat) : Section :=
  let b := 32 + 32 * i
  { type := leAt l b 2, tag := leAt l (b + 2) 2, resv := leAt l (b + 4) 4, off := leAt l (b + 8) 8, len := leAt l (b + 16) 8,
    addr := wd (leAt l (b + 24) 8) }

/-- Bytes of a section in an image. -/
def secBytes (im : List Byte) (x : Section) : List Byte := (im.drop x.off).take x.len

/-- Whether two sections overlap. -/
def secOverlap (x y : Section) : Bool := x.off < y.off + y.len && y.off < x.off + x.len && x.len != 0 && y.len != 0

/-- Whether the section table makes an image malformed (R438). -/
def malformed (im : List Byte) (xs : List Section) (len flags nentry : Nat) : Bool :=
  let stored := xs.filter fun x => x.type != 5
  let sigs := xs.filter fun x => x.type == 6
  let pls := xs.filter fun x => x.type == 3
  let offsOk := fun (x : Section) => x.len ≥ 4 * nentry && (List.range nentry).all fun i =>
    let o := leAt im (x.off + 4 * i) 4
    o < x.len && (x.type != 2 || o % 8 == 0)
  flags / 4 != 0 || xs.any (fun x => x.type = 0 || x.type > 6 || x.resv != 0) || stored.any (fun x => x.off + x.len > len) ||
    stored.zipIdx.any (fun a => stored.zipIdx.any fun b => a.2 < b.2 && secOverlap a.1 b.1) ||
    sigs.length > 1 || (sigs.length = 1 && (xs.getLast?.map (·.type)) != some 6) ||
    (flags / 2 % 2 = 1) != !pls.isEmpty || pls.length > 1 || pls.any (fun x => x.len % 16 != 0) ||
    xs.any fun x => (x.type = 1 || x.type = 2) && !offsOk x

/-- The instructions of record i of a Slolek section: the one word that R276 gives it, else what the translator makes of it. -/
def slPiece (rs : List SlRec) (i : Nat) : List Byte :=
  match (rs[i]?).bind slWord with
  | some w => leBytes 4 w.toNat
  | none => Config.expand rs i

/-- The native section that the translator makes of a Slolek section: the instructions of its records in order, after the offset of
each entry index (R70, R71, R276, log 64). -/
def slCode (entries : List Nat) (rs : List SlRec) : List Byte :=
  let ps := rs.zipIdx.map fun (x : SlRec × Nat) => (x.1.pos, slPiece rs x.2)
  let at' := fun (e : Nat) => 4 * entries.length + ((ps.filter fun (p : Nat × List Byte) => p.1 < e).map fun (p : Nat × List Byte) => p.2.length).sum
  entries.flatMap (fun e => leBytes 4 (at' e)) ++ ps.flatMap fun (p : Nat × List Byte) => p.2

/-- The native section that runs (R70): its bytes, or the status of the load. Of several sections of one kind and tag the first
in the table is taken (DESIGN CHOICE, log 81). -/
def pickCode (im : List Byte) (xs : List Section) (nentry : Nat) : Except Nat (List Byte) :=
  match xs.find? fun x => x.type = 2 && x.tag = 1 with
  | some x => .ok (secBytes im x)
  | none => match xs.find? fun x => x.type = 2 && x.tag = 0 with
    | some x => .ok (secBytes im x)
    | none => match xs.find? fun x => x.type = 1 with
      | none => .error 3
      | some x =>
        let b := secBytes im x
        if x.tag != 1 then .error 5
        else match slRecs b.length (4 * nentry) (b.drop (4 * nentry)) with
          | none => .error 3
          | some rs => .ok (slCode ((List.range nentry).map fun i => leAt b (4 * i) 4) rs)

/-- Whether the signature rule lets an image load (R72). -/
def sigOk (s : State) (fn : Nat) (im : List Byte) (xs : List Section) : Bool :=
  let f := getFn s fn
  match xs.find? fun x => x.type = 6 with
  | none => !f.signed
  | some x =>
    let digest := leBytes 64 (Config.sha512 (im.take x.off)).toNat
    f.keys.any fun k => Config.ed25519Verify (wordBytes k.2) digest (secBytes im x)

/-- Data and zero-fill sections written in order; none when one cannot be written, with the state so far. A section that
cannot be written whole leaves none of its own bytes (DESIGN CHOICE, log 80). -/
def loadSections (s : State) (ctx : Nat) (im : List Byte) : List Section → State × Bool
  | [] => (s, true)
  | x :: r =>
    if x.type = 4 || x.type = 5 then
      match writeBytes s ctx x.addr 2 (if x.type = 4 then secBytes im x else List.replicate x.len 0) with
      | some s => loadSections s ctx im r
      | none => (s, false)
    else loadSections s ctx im r

/-- The load of an image at a virtual address of a context under a handle: the state and the load's status. A load under a
handle in use replaces the image (DESIGN CHOICE, log 63). -/
def loadImage (s : State) (ctx handle : Nat) (va : Word) : State × Nat :=
  match readBytes s ctx va 32 with
  | none => (s, 9)
  | some hd =>
    let nsec := leAt hd 6 2
    let len := leAt hd 8 8
    let nentry := leAt hd 24 8
    if leAt hd 0 4 != 0x4D494B5A then (s, 3)
    else if leAt hd 4 2 != 1 then (s, 5)
    else if nsec = 0 || nsec > 64 || len < 32 + 32 * nsec then (s, 3)
    else match readBytes s ctx va len with
      | none => (s, 9)
      | some im =>
        let xs := (List.range nsec).map (sectionAt im)
        if malformed im xs len (leAt hd 16 8) nentry then (s, 3)
        else if !sigOk s (getCtx s ctx).fn im xs then (s, 4)
        else match pickCode im xs nentry with
          | .error st => (s, st)
          | .ok code =>
            let base : Word := wd ((Config.codeLine ctx handle).toNat * 64)
            let (s, ok) := loadSections s ctx im xs
            if !ok then (s, 9)
            else match writeBytes s ctx base 0 code with
              | none => (s, 9)
              | some s =>
                let place := match xs.find? fun x => x.type = 3 with | some x => leWords (secBytes im x) | none => []
                let img : Image := { handle := handle, offs := (List.range nentry).map fun i => base + wd (leAt code (4 * i) 4),
                                     place := place, hasPl := leAt hd 16 8 / 2 % 2 = 1 }
                (modCtx s ctx fun c => { c with images := c.images.filter (fun i => i.handle != handle) ++ [img] }, 0)

/-- IMAGE_LOAD (R72, R438); the count of a load entry is not checked (DESIGN CHOICE, log 62). -/
def execImageLoad (fn : Nat) (q : Nat) (seq : Nat) (s : State) : Host.Outcome State Fault Refusal :=
  let n := getNq s fn q
  let e : EntryRef := { fn := fn, q := q, seq := seq }
  .next (
    match n.entries.find? fun x => x.seq = seq with
    | none => s
    | some x =>
      if x.start || x.status.isSome || x.failed.isSome || !enFlag x.ws 4 || !targetMet n x || !s.boot.done || !entryCore s fn then s
      else match earlyStatus s n x with
        | some st => refuse s e st
        | none =>
          let (s, st) := loadImage s (n.ctx.getD 0) (enImage x.ws) (enArg x.ws)
          refuse s e st)

end Sys2Proof.Machine
end

