-- ==== Sys2Proof/Machine/Slots.lean ====
section
/-!
DEFINITION. Slots that may take a continuation, and the windows they give it (R83, R120, R123, R202).
-/

namespace Sys2Proof.Machine

/-- The windows of a core that are allocated, as (base, size): those of its continuations and of its reserved slots. -/
def windows (c : Core) : List (Nat × Nat) :=
  c.slots.filterMap fun x => if x.2.uid.isSome || x.2.resv.isSome then some (x.2.wbase, winW x.2) else none

/-- The first free base, a multiple of 8, for a window of w entries (R83, R120). -/
def fitWindow (c : Core) (w : Nat) : Option Nat :=
  let ws := windows c
  ((List.range 256).map (· * 8)).find? fun b => b + w ≤ 2048 && ws.all fun x => b + w ≤ x.1 || x.1 + x.2 ≤ b

/-- Whether a forwarding entry keeps a slot from being used again (R202). -/
def fwdHolds (s : State) (t : Tid) : Bool := (getCore s t.core).fwd.any fun f => f.old == t

/-- Whether a slot holds nothing and is not reserved. -/
def slotFree (s : State) (t : Tid) : Bool :=
  let sl := getSlot s t
  sl.uid.isNone && sl.resv.isNone && !fwdHolds s t

/-- Whether a core runs: it exists, has not stopped, and its die works. -/
def coreRuns (s : State) (c : Nat) : Bool := coreExists c && !(getCore s c).stopped && dieRuns s (coreDie c)

/-- A new identifier of a continuation, with what the device keeps of it. -/
def freshUid (s : State) (k : Cont) : State × Nat := (modCont { s with nextUid := s.nextUid + 1 } s.nextUid fun _ => k, s.nextUid)

/-- A slot as a continuation enters it: counters of the slot stay (R107, R137, R156), registers and predicates are
clear. -/
def openSlot (s : State) (t : Tid) (uid base : Nat) (f : Slot → Slot) : State :=
  let sl := f { emptySlot (getSlot s t) with uid := some uid, wbase := base }
  let s := setSlot s t sl
  (List.range (winW sl)).foldl (fun s i => modCore s t.core fun c => { c with regs := smSet 0 c.regs (base + i) 0 }) s

end Sys2Proof.Machine
end

