-- ==== Sys2Proof/Machine/TileOps.lean ====
section
/-!
DEFINITION. What a matrix engine computes (R139, R255, R260 to R262, R366, R368 to R377): operand elements and
K blocks, the sums in AX, microprograms, element operations, the output roundings.
-/

namespace Sys2Proof.Machine

/-- A result of an engine's read: a cause, or a value. -/
abbrev TX (α : Type) := Except (BitVec 8) α

/-! ### Formats that an operation accepts (R369) -/

def isScalar (c : Nat) : Bool := (1 ≤ c && c ≤ 5) || (8 ≤ c && c ≤ 13)
def isBX (c : Nat) : Bool := (bxBits c).isSome
def isQ (c : Nat) : Bool := (qBits c).isSome
def isS24 (c : Nat) : Bool := (s24N c).isSome
def fmtPLANE : Nat := 0x20
def isDecodable (c : Nat) : Bool := isScalar c || isBX c || isQ c || isS24 c

/-- Formats of a B operand of MATMUL. -/
def mmB (c : Nat) : Bool := c == 5 || c == 1 || c == 2 || c == 8 || isBX c

def aFormatOk (op c : Nat) : Bool :=
  match op with
  | 1 => mmB c || c == fmtPLANE
  | 2 => isQ c || c == fmtPLANE
  | 3 => isS24 c
  | 5 | 6 | 7 | 8 | 9 => isDecodable c
  | 12 => 8 ≤ c && c ≤ 13
  | _ => isScalar c

def bFormatOk (op c : Nat) : Bool :=
  match op with
  | 1 | 2 => mmB c
  | 3 => c == 1 || c == 2 || c == 8 || isBX c
  | 4 => isScalar c
  | _ => isDecodable c

/-- Whether K, p, microprogram slot and table are what an operation allows; `loaded` tells loaded slots (R369). -/
def limitsOk (r : List Word) (loaded : Nat → Bool) : Bool :=
  let k := trK r
  let p := trP r
  let tab := trTable r != 0
  match trOp r with
  | 1 => 32 ≤ k && k ≤ 2 ^ 20 && k % 32 == 0 && 1 ≤ p && p ≤ 16 && trSlot r == 0 && !tab
  | 2 => 32 ≤ k && k ≤ 2 ^ 20 && k % 32 == 0 && (!isQ (trAfmt r) || k % (unitOf (trAfmt r) 0).1 == 0) && 1 ≤ p && p ≤ 8 &&
      trSlot r == 0 && tab == (trAfmt r == fmtPLANE)
  | 3 => 24 ≤ k && k ≤ 2 ^ 20 && k % 24 == 0 && 1 ≤ p && p ≤ 8 && trSlot r == 0 && !tab
  | 4 => 1 ≤ k && k ≤ 2 ^ 20 && p == 0 && 1 ≤ trSlot r && trSlot r ≤ 15 && loaded (trSlot r) && !tab
  | 11 => 1 ≤ k && k ≤ 128 && p == 0 && trSlot r == 0 && !tab
  | op => k == 0 && p == 0 && trSlot r == 0 && tab == (op == 8)

/-- Rows and columns of operand i (0 A, 1 B, 2 C), where the operation has it (R273, R370). -/
def opndShape (r : List Word) (i : Nat) : Option (Nat × Nat) :=
  let op := trOp r
  let m := trM r
  let n := trN r
  let k := trK r
  match i with
  | 0 => some (if op ≤ 4 || op == 11 then (m, k) else if op = 10 then (n, m) else (m, n))
  | 1 => if op ≤ 4 then some (n, k) else if op ≤ 7 then some (m, n) else none
  | _ => if op ≤ 4 && trAcc r then some (m, n) else none

/-- The check of a claimed task (R368): `bead` its handle, `w0` word 0 of an operand's bead, `out` the output format.
The cause of the failure, if any. -/
def taskCheck (r : List Word) (bead : Word) (w0 : Word → Word) (out : Option Nat) (loaded : Nat → Bool) : Option (BitVec 8) :=
  let op := trOp r
  let h := fun i => wAt r (2 + i)
  let shapeOk := fun (i : Nat) => match opndShape r i with
    | some (a, b) => h i != 0 && fld (w0 (h i)) 31 16 == a && fld (w0 (h i)) 47 32 == b
    | none => h i == 0
  if !(1 ≤ op && op ≤ 12) || fld (wAt r 0) 15 11 != 0 || fld (wAt r 1) 63 48 != 0 || !(1 ≤ trM r && trM r ≤ 128) ||
      !(1 ≤ trN r && trN r ≤ 128) || !limitsOk r loaded || (trAcc r && op > 4) || (op == 11 && trN r != 1) ||
      trResult r != bead || (trDest r).toNat % 64 != 0 || !((List.range 3).all shapeOk) then some 0x12
  else if !aFormatOk op (trAfmt r) || fld (w0 (h 0)) 15 8 != trAfmt r ||
      (op ≤ 7 && (!bFormatOk op (trBfmt r) || fld (w0 (h 1)) 15 8 != trBfmt r)) || out.isNone then some 0x15
  else none

/-! ### Bytes that the engine reads -/

/-- A byte of a task's operand: the staged copy's, or memory's (R113, R371). -/
def tkByte (s : State) (tk : Task) (k : Nat) : Nat :=
  match tk.snap.find? fun c => c.1 == k with
  | some c => c.2.toNat
  | none => (memByte s.mem k).toNat

/-- The translation of a task's operands: by the scheduler that staged them, and without a page in the cluster's scratchpads. -/
def opXl (tk : Task) : Xl := { ctx := tk.bead.ctx }

/-- The translation of a task's table and destination: by the engine that runs it (R151). -/
def tkXl (tk : Task) : Xl :=
  { ctx := tk.bead.ctx, ents := match tk.st with | .running _ => some tk.tr.ents | _ => none, flts := tk.tr.flts }

/-- A little-endian number of n bytes from a virtual address. -/
def tNum (s : State) (x : Xl) (tk : Task) (va : Word) (n : Nat) : TX Nat :=
  (List.range n).foldlM (fun a i => do
    let (k, _) ← xkey s x (va + wd i).toNat 1
    return a + tkByte s tk k * 256 ^ i) 0

/-- A number of a task's table; a failing or marked word of it poisons the task and never fails it (R377). -/
def tTab (s : State) (tk : Task) (va : Word) (n : Nat) : TX Nat := tNum s (tkXl tk) { tk with snap := [] } va n

/-- Where element n of a dense value of format c lies: its bytes' address and its place there. -/
def elPlace (c : Nat) (base : Word) (n : Nat) : Word × Nat :=
  let (sz, per) := elCell c
  (base + wd (n / per * sz), n % per)

/-- The companion entry of element n: its key and size, and the length of its unit; size 0 for none (R149). A page whose own
format is another cannot be decoded as c: FORMAT (R150; log 71). -/
def elEntry (s : State) (x : Xl) (c : Nat) (base : Word) (n : Nat) : TX (Nat × Nat × Nat) := do
  let (va, pos) := elPlace c base n
  let (_, e) ← xkey s x va.toNat 0
  let (len, sz) := unitOf c (entGeom e)
  if entFmt e != 0 && entFmt e != c then .error 0x15
  else if sz = 0 then return (0, 0, 0)
  else if !geomOk c (entGeom e) then .error 0x15
  else
    let num := (va.toNat - entBase e) / (elCell c).1 * (elCell c).2 + pos
    match physKey s (getCtx s x.ctx).fn (fld e.w2 51 6 * 64 + num / len * sz) with
    | some k => return (k, sz, len)
    | none => .error 0x08

/-- Storage, companion entry, place in its group and unit length of element n of a value. -/
def tElem (s : State) (tk : Task) (c : Nat) (base : Word) (n : Nat) : TX (Nat × Nat × Nat × Nat) := do
  if elBits c = 0 then .error 0x15
  let (va, pos) := elPlace c base n
  let raw ← tNum s (opXl tk) tk va (elCell c).1
  let (k, sz, len) ← elEntry s (opXl tk) c base n
  let ent := (List.range sz).foldl (fun a i => a + tkByte s tk (k + i) * 256 ^ i) 0
  return (if elBits c = 4 then raw / 16 ^ pos % 16 else raw, ent, pos, len)

/-- The exact value of element n. -/
def tVal (s : State) (tk : Task) (c : Nat) (base : Word) (n : Nat) : TX XV := do
  let (raw, ent, pos, _) ← tElem s tk c base n
  elemVal c raw pos ent

/-! ### K blocks (R255, R262, R371, R372) -/

/-- A row's or column's block as the array reads it: mantissas, scale, zero point. -/
abbrev KBlock := List Int × XV × Int

/-- The low p planes of a mantissa, the top one negative (R139); p = 0 keeps it. -/
def lowPlanes (p : Nat) (m : Int) : Int := if p = 0 then m else bitsInt p (intBits p m)

/-- Scale and mantissas of a block of BF16 values (R262), rounded by a context: RNE in staging (R371). -/
def bx16Of (rc : RC) (xs : List XV) : List Int × Nat :=
  if xs.any fun x => match x with | .num .. => false | _ => true then (xs.map fun _ => 0, 0xFF)
  else
    let es := xs.filterMap fun x => match x with | .num _ m e _ => if m = 0 then none else some (expOf m e) | _ => none
    match es with
    | [] => (xs.map fun _ => 0, 0)
    | a :: r =>
      let e := max 0 (r.foldl max a + 113)
      (xs.map fun x => (roundInt 16 rc (xScale (127 - e) x)).1, e.toNat)

/-- block_scale as a value. -/
def scaleOf (code : Nat) : XV := xBlock code (xvInt 1)

/-- A row-table or companion entry of the Q kind: scale and zero point (R252). -/
def qScale (ent zmax : Nat) : TX (XV × Int) :=
  let s := decodeF fmtFP16 (ent % 65536)
  let z := ent / 65536 % 256
  if ent / 2 ^ 24 % 256 != 0 || z > zmax then .error 0x15
  else match s with
    | .num .. => .ok (s, z)
    | _ => .error 0x15

/-- The values of a K block of kw elements from element n of a value of format c, at p planes (0: all), the code of its scale
(0x7F where it has none), and its companion entry; a block format's unit must be kw long (R371). -/
def kRaw (s : State) (tk : Task) (c : Nat) (base : Word) (n kw p : Nat) : TX (List Int × Nat × Nat) := do
  if isS24 c then
    let (raw, ent, _, _) ← tElem s tk c base n
    let kept := (s24N c).getD 0
    if !s24Ok kept ent then .error 0x15
    let at' := fun (i : Nat) => match (List.range kept).find? fun j => ent / 2 ^ (8 + 5 * j) % 32 == i with
      | some j => lowPlanes p (bitsInt 8 (raw / 2 ^ (8 * j)))
      | none => 0
    return ((List.range 24).map at', ent % 256, ent)
  let els ← (List.range kw).mapM fun k => tElem s tk c base (n + k)
  let raws := els.map (·.1)
  let ent := match els with | e :: _ => e.2.1 | [] => 0
  let len := match els with | e :: _ => e.2.2.2 | [] => 0
  if isQ c then return (raws.map fun q => ((q % 2 ^ p : Nat) : Int), 0x7F, ent)
  else if c = 8 then
    let (ms, e) := bx16Of {} (raws.map (decodeF fmtBF16))
    return (ms.map (lowPlanes p), e, ent)
  else match bxBits c, fmtInt c with
    | some b, _ => if len != kw then .error 0x15 else return (raws.map fun x => lowPlanes p (bitsInt b x), ent % 256, ent)
    | none, some b => return (raws.map fun x => lowPlanes p (bitsInt b x), 0x7F, ent)
    | none, none => .error 0x15

/-- A K block as the array reads it: the Q kind takes scale and zero point from its companion entry. -/
def kBlock (s : State) (tk : Task) (c : Nat) (base : Word) (n kw p : Nat) : TX KBlock := do
  let (ms, code, ent) ← kRaw s tk c base n kw p
  if isQ c then
    let (sc, z) ← qScale ent (if qBits c = some 4 then 15 else 255)
    return (ms, sc, z)
  else return (ms, scaleOf code, 0)

/-- A number of a PLANE block; a page whose own format is another is a FORMAT fault (R150; log 71). -/
def planeNum (s : State) (tk : Task) (va : Word) (n : Nat) : TX Nat := do
  let (_, e) ← xkey s (opXl tk) va.toNat 0
  if entFmt e != 0 && entFmt e != fmtPLANE then .error 0x15
  tNum s (opXl tk) tk va n

/-- Row i of block b of an A value in PLANE form; the Q kind takes its scale from the row table (R255, R369). -/
def planeBlock (s : State) (tk : Task) (base : Word) (p b i : Nat) (q : Bool) (table : Word) : TX KBlock := do
  let a := base + wd (b * (512 * p + 128))
  let ws ← (List.range p).mapM fun j => planeNum s tk (a + wd (512 * j + 4 * i)) 4
  let raw := fun (k : Nat) => (ws.zipIdx).foldl (fun (v : Nat) w => v + w.1 / 2 ^ k % 2 * 2 ^ w.2) 0
  if q then
    let (sc, z) ← qScale (← tTab s tk (table + wd (4 * (128 * b + i))) 4) (2 ^ p - 1)
    return ((List.range 32).map fun k => (raw k : Int), sc, z)
  else
    return ((List.range 32).map fun k => bitsInt p (raw k), scaleOf (← planeNum s tk (a + wd (512 * p + i)) 1), 0)

/-! ### The matrix operations (R261, R373) -/

/-- AX after one block: the block's sum, scaled and rounded once, is added (R261). -/
def axFold (ax : XV) (a b : KBlock) : XV :=
  let sum := (a.1.zip b.1).foldl (fun v x => v + x.1 * x.2) 0 - a.2.2 * b.1.foldl (· + ·) 0
  roundAX (xAdd false ax (roundAX (xMul (xMul (xvInt sum) a.2.1) b.2.1)))

/-- An output element before its rounding, or one that is not rounded: its bits and flags. -/
inductive TOut where
  | val (x : XV)
  | raw (bits : Nat) (flags : BitVec 6)
  deriving DecidableEq, Repr

/-- Value address of operand i, as its bead replied. -/
def opndVal (tk : Task) (i : Nat) : Word := wAt tk.vals i

/-- Format of operand i: the record's for A and B, its bead's for C. -/
def opndFmt (tk : Task) (i : Nat) : Nat :=
  match i with | 0 => trAfmt tk.ws | 1 => trBfmt tk.ws | _ => fld (wAt tk.w0s 2) 15 8

/-- Row i of A, block by block. -/
def aRow (s : State) (tk : Task) (i : Nat) : TX (List KBlock) :=
  let r := tk.ws
  let kw := if trOp r = 3 then 24 else 32
  (List.range (trK r / kw)).mapM fun b =>
    if trAfmt r = fmtPLANE then planeBlock s tk (opndVal tk 0) (trP r) b i (trOp r == 2) (trTable r)
    else kBlock s tk (trAfmt r) (opndVal tk 0) (i * trK r + b * kw) kw (trP r)

/-- Column j of B, which is stored transposed. -/
def bCol (s : State) (tk : Task) (j : Nat) : TX (List KBlock) :=
  let r := tk.ws
  let kw := if trOp r = 3 then 24 else 32
  (List.range (trK r / kw)).mapM fun b => kBlock s tk (trBfmt r) (opndVal tk 1) (j * trK r + b * kw) kw 0

/-- Elements of MATMUL, MATMULQ and MATMULS, row-major. -/
def matOuts (s : State) (tk : Task) : List (TX TOut) :=
  let r := tk.ws
  let as := (List.range (trM r)).map (aRow s tk)
  let bs := (List.range (trN r)).map (bCol s tk)
  as.zipIdx.flatMap fun a => bs.zipIdx.map fun b => do
    let ax ← if trAcc r then (do return roundAX (← tVal s tk (opndFmt tk 2) (opndVal tk 2) (a.2 * trN r + b.2))) else pure (.num false 0 0 false)
    return .val (((← a.1).zip (← b.1)).foldl (fun ax p => axFold ax p.1 p.2) ax)

/-! ### RECUR (R366, R374) -/

/-- An exact value rounded RNE to FP32. -/
def toF32 (x : XV) : Nat := (roundTo fmtFP32 {} x).bits

/-- One micro-operation on FP32 patterns (R366). -/
def uopRun (code a b : Nat) : Nat :=
  let x := decodeF fmtFP32 a
  let y := decodeF fmtFP32 b
  match code with
  | 1 => toF32 (plusZero (xAdd false x y))
  | 2 => toF32 (plusZero (xAdd false x (xNeg y)))
  | 3 => toF32 (plusZero (xMul x y))
  | 4 => maxF fmtFP32 a b
  | 5 => minF fmtFP32 a b
  | 6 => toF32 (xExp2 x)
  | 7 => toF32 (xLog2 x)
  | _ => toF32 (xLse2 x y)

/-- The program of a slot run once: registers S, X, Y, T0, T1 and the constants, by their source codes. -/
def uprogRun (prog : Word × Word) (regs : List Nat) : List Nat :=
  (List.range (mpCount prog.2)).foldl (fun r j =>
    let u := mpOp prog.1 j
    if uopCode u = 0 then r
    else modAt r (uopDst u) fun _ => uopRun (uopCode u) (r.getD (uopSrc1 u) 0) (r.getD (uopSrc2 u) 0)) regs

/-- S at the start without accumulate. -/
def uprogInit (prog : Word × Word) : Nat := [0, 0x3F800000, 0xFF800000, 0x7F800000].getD (mpInit prog.2) 0

/-- Elements of RECUR. -/
def recurOuts (s : State) (tk : Task) : List (TX TOut) :=
  let r := tk.ws
  (List.range (trM r)).flatMap fun i => (List.range (trN r)).map fun j => do
    let s0 ← if trAcc r then (do return toF32 (← tVal s tk (opndFmt tk 2) (opndVal tk 2) (i * trN r + j))) else pure (uprogInit tk.prog)
    let sEnd ← (List.range (trK r)).foldlM (fun (sv : Nat) k => do
      let x ← tVal s tk (trAfmt r) (opndVal tk 0) (i * trK r + k)
      let y ← tVal s tk (trBfmt r) (opndVal tk 1) (j * trK r + k)
      return (uprogRun tk.prog [sv, toF32 x, toF32 y, 0, 0, 0, 0x3F800000, 0xFF800000]).getD 0 0) s0
    return TOut.val (decodeF fmtFP32 sEnd)

/-! ### Element operations (R375) -/

/-- The integer of an exact integer value. -/
def xInt : XV → Int
  | .num s m e _ => scaled s m e 0
  | _ => 0

/-- An integer sum or product on an integer output of w bits: it wraps, or clamps and sets SA. -/
def intOut (w : Nat) (sat : Bool) (v : Int) : TOut :=
  if sat && (v < minInt w || v > maxInt w) then .raw (intBits w (clampI (minInt w) (maxInt w) v)) flSA
  else .raw (intBits w v) 0

/-- The greater of two values, −0 below +0; a NaN gives a NaN, with the flag of the operation that made it (R250). -/
def tileMax (a b : XV) : XV :=
  match xCmp a b with
  | none => .nan ((match a with | .nan f => f | _ => false) || (match b with | .nan f => f | _ => false))
  | some c => if c > 0 then a else if c < 0 then b else if xSign a then b else a

/-- The greatest of a list; a NaN where the list holds one. -/
def greatest : List XV → Option XV
  | [] => none
  | a :: r => some (r.foldl (fun y x =>
    match xCmp y x with
    | none => .nan false
    | some c => if c < 0 then x else y) a)

/-- The elements of a TSOFTMAX row (R215, R375). -/
def softRow (xs : List XV) : List XV :=
  let m := greatest xs
  match m with
  | some (.nan _) | some (.inf true _) | none => xs.map fun _ => .nan true
  | some m =>
    let es := xs.map fun x => toF32 (xExp (xAdd false x (xNeg m)))
    let sum := es.foldl (fun a e => toF32 (xAdd false (decodeF fmtFP32 a) (decodeF fmtFP32 e))) 0
    let bad := match m with | .inf .. => true | _ => false
    es.map fun e => if bad then .nan true else xDiv (decodeF fmtFP32 e) (decodeF fmtFP32 sum)

/-- Elements of the element operations for an output format. -/
def elemOuts (s : State) (tk : Task) (out : Nat) (sat : Bool) : List (TX TOut) :=
  let r := tk.ws
  let m := trM r
  let n := trN r
  let k := trK r
  let a := fun (i : Nat) => tVal s tk (trAfmt r) (opndVal tk 0) i
  let b := fun (i : Nat) => tVal s tk (trBfmt r) (opndVal tk 1) i
  let ints := (fmtInt (trAfmt r)).isSome && (fmtInt (trBfmt r)).isSome && (fmtInt out).isSome
  let w := (fmtInt out).getD 0
  (List.range m).flatMap fun i =>
    match trOp r with
    | 11 => [do
        let ax ← (List.range k).foldlM (fun ax j => do return roundAX (xAdd false ax (← a (i * k + j)))) (.num false 0 0 false)
        return .val ax]
    | 12 =>
      match (List.range n).mapM fun j => a (i * n + j) with
      | .ok xs => (softRow xs).map fun x => .ok (.val x)
      | .error c => (List.range n).map fun _ => .error c
    | op => (List.range n).map fun j =>
      let e := i * n + j
      match op with
      | 5 => do
        let x ← a e
        let y ← b e
        return if ints then intOut w sat (xInt x + xInt y) else .val (plusZero (xAdd false x y))
      | 6 => do
        let x ← a e
        let y ← b e
        return if ints then intOut w sat (xInt x * xInt y) else .val (plusZero (xMul x y))
      | 7 => do return .val (tileMax (← a e) (← b e))
      | 8 => do
        let f ← tTab s tk (trTable r + wd (4 * i)) 4
        return .val (plusZero (xMul (← a e) (decodeF fmtFP32 f)))
      | 10 => do
        let (raw, _, _, _) ← tElem s tk (trAfmt r) (opndVal tk 0) (j * m + i)
        return .raw raw 0
      | _ => do return .val (← a e)

/-- The output elements of a task, row-major. -/
def tileOuts (s : State) (tk : Task) (out : Nat) : List (TX TOut) :=
  let sat := trSat tk.ws || tk.sub.sat
  if isMatrix (trOp tk.ws) then matOuts s tk
  else if trOp tk.ws = 4 then recurOuts s tk
  else elemOuts s tk out sat

/-! ### Output -/

/-- round_to an output format (R257, R258). -/
def roundOut (f : Nat) (c : RC) (x : XV) : FR :=
  match fmtInt f, fmtFloat f with
  | some b, _ => let (v, fl, seed) := roundInt b c x; { bits := intBits b v, flags := fl, seed := seed }
  | none, some g => roundTo g c x
  | none, none => { seed := c.seed }

/-- The scale of a block that TCVT writes, by the table of R342 (R262 for BX16; log 30). -/
def blockCode (f : Nat) (xs : List XV) : Nat :=
  if xs.any fun x => match x with | .num .. => false | _ => true then 0xFF
  else
    let es := xs.filterMap fun x => match x with | .num _ m e _ => if m = 0 then none else some (expOf m e) | _ => none
    let c : Int := match bxBits f with | some 16 => 14 | some 8 => 6 | _ => 2
    match es with
    | [] => 0
    | a :: r => (min 254 (max 0 (r.foldl max a + 127 - c))).toNat

/-- An element of a block with its scale code: a NaN block holds 0 and sets NV. -/
def roundBlock (f code : Nat) (c : RC) (x : XV) : FR :=
  if code = 0xFF then { bits := 0, flags := flNV, seed := c.stepSeed }
  else
    let w := (bxBits f).getD 8
    let (v, fl, seed) := roundInt w c (xScale (127 - code) x)
    { bits := intBits w v, flags := fl, seed := seed }

/-- Every output element in row-major order: its bits where it has a value, and the flags; `code` gives the block scale of
an element. -/
def roundAll (f : Nat) (c : RC) (code : Nat → Nat) (l : List (TX TOut)) : List (Option Nat) × BitVec 6 :=
  let r := l.zipIdx.foldl (fun (p : List (Option Nat) × BitVec 6 × BitVec 32) e =>
    let c := { c with seed := p.2.2 }
    match e.1 with
    | .ok (.val x) =>
      let y := if isBX f then roundBlock f (code e.2) c x else roundOut f c x
      (some y.bits :: p.1, p.2.1 ||| y.flags, y.seed)
    | .ok (.raw b fl) => (some b :: p.1, p.2.1 ||| fl, c.stepSeed)
    | .error _ => (none :: p.1, p.2)) ([], 0, c.seed)
  (r.1.reverse, r.2.1)

/-- Bytes of dense elements of b bits. -/
def packEls : Nat → List Nat → List Byte
  | 4, [] => []
  | 4, [a] => [BitVec.ofNat 8 (a % 16)]
  | 4, a :: b :: r => BitVec.ofNat 8 (a % 16 + b % 16 * 16) :: packEls 4 r
  | b, l => l.flatMap (leBytes (b / 8))

end Sys2Proof.Machine
end

