-- ==== Sys2Proof/Machine/Copies.lean ====
section
/-!
DEFINITION. What the copy engine does (R142, R176, R385 to R392): layout records, element reads, the writes of CPY, PLANE,
FILL and DENSE, and the completion of a command's ticket.
-/

namespace Sys2Proof.Machine

/-- A result of an engine command: a cause, with the key and size of the read that met it where there is one (R203), or
with the address and the need of a translation that is still to be asked for (cause `needsMiss`). -/
abbrev EX (α : Type) := Except (BitVec 8 × Option (Nat × Nat)) α

def exFail {α : Type} (c : BitVec 8) : EX α := .error (c, none)
def exNeed (b : Bool) (c : BitVec 8) : EX Unit := if b then .ok () else exFail c
/-- A result without the place of its read. -/
def exOf {α : Type} (r : Except (BitVec 8) α) : EX α := match r with | .ok a => .ok a | .error c => exFail c

/-! ### Layout records (R386, R387) -/

/-- The bits of a record, numbered across it. -/
def recBits (ws : List Word) (hi lo : Nat) : Nat :=
  ((ws.zipIdx).foldl (fun (a : Nat) w => a + w.1.toNat * 2 ^ (64 * w.2)) 0 >>> lo) % 2 ^ (hi + 1 - lo)

/-- A layout record's fields. -/
structure Lay where
  base   : Word := 0
  fmt    : Nat := 0
  rank   : Nat := 1
  gran   : Nat := 0
  cls    : Nat := 0
  fill   : Nat := 0
  exts   : List Nat := []
  strs   : List Int := []
  wins   : List Nat := []
  edge   : Bool := false
  planes : Bool := false
  decode : Bool := false
  deriving DecidableEq, Repr

/-- Whether every reserved bit and every field beyond rank is 0, and the granule is one of R386. -/
def layBitsOk (ws : List Word) (window : Bool) : Bool :=
  let r := recBits ws 74 72 + 1
  let gran := recBits ws 83 80
  recBits ws 767 720 == 0 && recBits ws 719 707 == 0 && recBits ws 95 88 == 0 && recBits ws 79 75 == 0 && r ≤ 6 &&
    ((List.range 6).all fun j => j < r || (recBits ws (159 + 32 * j) (128 + 32 * j) == 0 && recBits ws (367 + 48 * j) (320 + 48 * j) == 0)) &&
    (!window || ((List.range 6).all fun j => (recBits ws (623 + 16 * j) (608 + 16 * j) == 0) == decide (r ≤ j))) &&
    (!window || (!(1 ≤ gran && gran ≤ 5) && (gran != 0 || recBits ws 87 84 == 0)))

def layOf (ws : List Word) : Lay :=
  let r := recBits ws 74 72 + 1
  { base := wAt ws 0, fmt := recBits ws 71 64, rank := r, gran := recBits ws 83 80, cls := recBits ws 87 84, fill := recBits ws 127 96
    exts := (List.range r).map fun j => recBits ws (159 + 32 * j) (128 + 32 * j)
    strs := (List.range r).map fun j => bitsInt 48 (recBits ws (367 + 48 * j) (320 + 48 * j))
    wins := (List.range r).map fun j => recBits ws (623 + 16 * j) (608 + 16 * j)
    edge := bitAt (wAt ws 11) 0, planes := bitAt (wAt ws 11) 1, decode := bitAt (wAt ws 11) 2 }

/-- The key of an address as an engine reaches it. -/
def exKey (s : State) (x : Xl) (va : Word) (need : Nat) : EX (Nat × TlbEnt) :=
  match xkey s x va.toNat need with
  | .ok r => .ok r
  | .error c => .error (c, if c = needsMiss then some (va.toNat, need) else none)

/-- A read of n bytes from a key: a failing or marked word is a fault (R204). -/
def exRead (s : State) (k n : Nat) : EX Unit :=
  match eccStatus s k n with
  | 0 => .ok ()
  | 1 => .error (0x18, some (k, n))
  | _ => exFail 0x14

/-- Words of a record, read by an engine. -/
def exWords (s : State) (x : Xl) (va : Word) (n al : Nat) : EX (List Word) := do
  exNeed (va.toNat % al == 0) 0x03
  (List.range n).mapM fun i => do
    let (k, _) ← exKey s x (va + wd (8 * i)) 1
    exRead s k 8
    return wd (memRead s.mem k 8)

/-- The indices of a window in row-major order. -/
def winIdx : List Nat → List (List Nat)
  | [] => [[]]
  | w :: r => (List.range w).flatMap fun i => (winIdx r).map fun l => i :: l

/-- Whether an index lies within the extents. -/
def inExts (exts ix : List Nat) : Bool := (ix.zip exts).all fun p => p.1 < p.2

/-- The element number of an index, in elements from base. -/
def idxSum (strs : List Int) (ix : List Nat) : Int := (ix.zip strs).foldl (fun a p => a + (p.1 : Int) * p.2) 0

/-- Bytes of an element of a format that is written as storage bytes. -/
def laySize (c : Nat) : Nat := if c = 0 then 1 else (elCell c).1

/-- The fill value as bits of an element (R388). -/
def fillBits (c fill : Nat) : Nat :=
  if c = 4 then intBits 64 (bitsInt 32 fill)
  else if c = 0x0B then (roundTo fmtFP64 {} (decodeF fmtFP32 fill)).bits
  else fill % 2 ^ (8 * laySize c)

/-- A value converted to a record's format (R385, R388). -/
def convBits (c : Nat) (rc : RC) (x : XV) : Nat :=
  match fmtInt c, fmtFloat c with
  | some w, _ => intBits w (roundInt w rc x).1
  | none, some f => (roundTo f rc x).bits
  | none, none => 0

/-! ### Element reads (R149, R150, R203) -/

/-- An element as it is read: storage, companion entry, place in its group, length of its unit, whether a word of it or of
its entry is marked, and the keys that were read. -/
structure EgEl where
  raw  : Nat := 0
  ent  : Nat := 0
  pos  : Nat := 0
  len  : Nat := 0
  mark : Bool := false
  keys : List (Nat × Nat) := []
  deriving DecidableEq, Repr

/-- n bytes at a virtual address, with their keys. -/
def egBytes (s : State) (x : Xl) (va : Word) (n : Nat) : EX (Nat × List (Nat × Nat)) :=
  (List.range n).foldlM (fun a i => do
    let (k, _) ← exKey s x (va + wd i) 1
    return (a.1 + (memByte s.mem k).toNat * 256 ^ i, a.2 ++ [(k, 1)])) (0, [])

/-- Whether two pages have one format and geometry (R150). -/
def sameFmt (a b : TlbEnt) : Bool := entFmt a == entFmt b && entGeom a == entGeom b

/-- Element n (signed) of a view of format c at base. Under decode, `page` is the page at base, and an element that lies in a
page of another format or geometry is a FORMAT fault, as in a vector load (R150, R344; log 71). -/
def egElem (s : State) (x : Xl) (page : Option TlbEnt) (c : Nat) (base : Word) (n : Int) : EX EgEl := do
  let (sz, per) := elCell c
  let va := base + wdInt (n.fdiv per * sz)
  let pos := (n.fmod per).toNat
  let (raw, ks) ← egBytes s x va sz
  let (_, e) ← exKey s x va 1
  exNeed (match page with | some p => sameFmt p e | none => true) 0x15
  let (k, esz, len) ← if (unitOf c 1).2 = 0 then pure (0, 0, 0) else exOf (elEntry s x c va pos)
  let ent := memRead s.mem k esz
  let ks := if esz = 0 then ks else ks ++ [(k, esz)]
  return { raw := if elBits c = 4 then raw / 16 ^ pos % 16 else raw, ent := ent, pos := pos, len := len
           mark := ks.any fun x => eccStatus s x.1 x.2 != 0, keys := ks }

/-- The format by which a record's elements are read: the record's own, or under decode that of the page at base, which
comes with it. -/
def readFmt (s : State) (x : Xl) (l : Lay) : EX (Nat × Option TlbEnt) :=
  if l.decode then do
    let (_, e) ← exKey s x l.base 1
    return (entFmt e, some e)
  else return (l.fmt, none)

/-- Whether base stands at the start of an element of the page or of the format that is read (R388). -/
def baseOk (c : Nat) (page : Option TlbEnt) (l : Lay) : Bool :=
  let sz := if c = 0 then 1 else (elCell c).1
  sz == 0 || (match page with
    | some e => (l.base.toNat - entBase e) % sz == 0
    | none => l.base.toNat % sz == 0)

/-! ### Writes (R131, R194, R203) -/

/-- One write of a command: address, bytes, whether they carry a mark, and the keys that were read for it. -/
structure EgWrite where
  va    : Word := 0
  bytes : List Byte := []
  mark  : Bool := false
  keys  : List (Nat × Nat) := []
  deriving DecidableEq, Repr

/-- The key of a write. -/
def egKey (s : State) (x : Xl) (w : EgWrite) : EX (Nat × EgWrite) := do
  let (k, _) ← exKey s x w.va 2
  return (k, w)

/-- Writes performed: runs of neighbouring bytes at their homes, then the marks; scratchpad words become full where `full`
says that the writer sets their bits (R130). -/
def egPut (full : Bool) (s : State) (l : List (Nat × EgWrite)) : State :=
  let s := l.foldl (fun s w => w.2.keys.foldl (fun s k => markRead s k.1 k.2) s) s
  let s := (cellRuns (l.flatMap fun w => w.2.bytes.zipIdx.map fun b => (w.1 + b.2, b.1))).foldl
    (fun s r => if full then engineWrite s r.1 r.2 else homeWriteL s r.1 r.2) s
  l.foldl (fun s w => if w.2.mark then carryMark s w.1 w.2.bytes.length else s) s

/-- The writes that a command does: all; or, when one of them meets a fault, a free subset of the others, and the cause of
the first fault met (R194, log 24). -/
def egChoose (s : State) (x : Xl) (l : List (EX EgWrite)) : State × List (Nat × EgWrite) × Option (BitVec 8) :=
  let r := l.map fun w => do egKey s x (← w)
  let good := r.filterMap fun x => x.toOption
  match r.findSome? fun x => match x with | .error e => some e | .ok _ => none with
  | none => (s, good, none)
  | some (c, k) =>
    let s := match k with | some (k, n) => markRead s k n | none => s
    let (s, bs) := freeBits s good.length
    (s, (good.zip bs).filterMap (fun x => if x.2 then some x.1 else none), some c)

/-- The 64-byte lines of a list of writes. -/
def egLines (l : List (Nat × EgWrite)) : List Nat := (l.map fun w => w.1 / 64).eraseDups

/-! ### Commands -/

/-- A record of CPY, PLANE or FILL that passes what they check alike (R388). -/
def layRead (s : State) (x : Xl) (c : EngCmd) (planes : Bool) : EX Lay := do
  let ws ← exWords s x c.recA 12 64
  exNeed (layBitsOk ws true && bitAt (wAt ws 11) 1 == planes) 0x12
  return layOf ws

def rcOfCmd (c : EngCmd) : RC := { rm := c.rm.toNat, sat := c.sat }

/-- The writes of a CPY (R389). -/
def cpyPlan (s : State) (x : Xl) (c : EngCmd) : EX (List (EX EgWrite)) := do
  let l ← layRead s x c false
  let out := l.fmt
  exNeed ((out ≤ 4 || (8 ≤ out && out ≤ 13)) && !(l.decode && out == 0)) 0x15
  let e := laySize out
  exNeed (c.dst.toNat % e == 0 && (l.decode || l.base.toNat % e == 0)) 0x03
  let ixs := (winIdx l.wins).zipIdx
  let place := fun (n : Nat) => c.dst + wd (n * e + (if l.gran = 0 then 0 else n * e / 2 ^ l.gran * (64 * l.cls)))
  let src := readFmt s x l
  match src with
  | .ok (f, p) => do
    exNeed (!l.decode || elBits f != 0) 0x15
    exNeed (baseOk f p l) 0x03
  | .error _ => pure ()
  let rc := rcOfCmd c
  return ixs.filterMap fun i =>
    if inExts l.exts i.1 then some (do
      let n := idxSum l.strs i.1
      if l.decode then
        let (f, p) ← src
        let el ← egElem s x p f l.base n
        let v ← exOf (elemVal f el.raw el.pos el.ent)
        return { va := place i.2, bytes := leBytes e (convBits out rc v), mark := el.mark, keys := el.keys }
      else
        let (v, ks) ← egBytes s x (l.base + wdInt (n * e)) e
        return { va := place i.2, bytes := leBytes e v, mark := ks.any fun k => eccStatus s k.1 k.2 != 0, keys := ks })
    else if l.edge then some (.ok { va := place i.2, bytes := leBytes e (fillBits out l.fill) })
    else none

/-- The writes of a FILL (R391). -/
def fillPlan (s : State) (x : Xl) (c : EngCmd) : EX (List (EX EgWrite)) := do
  let l ← layRead s x c false
  exNeed (!l.decode && l.gran == 0 && l.cls == 0) 0x12
  exNeed (l.fmt ≤ 4 || (8 ≤ l.fmt && l.fmt ≤ 13)) 0x15
  let e := laySize l.fmt
  exNeed (l.base.toNat % e == 0) 0x03
  return ((winIdx l.wins).filter (inExts l.exts)).map fun ix =>
    .ok { va := l.base + wdInt (idxSum l.strs ix * e), bytes := leBytes e (fillBits l.fmt l.fill) }

/-- A row of a K block in PLANE form: the low p bits of each column, the row's scale, and its elements (R255, R371). -/
def planeRow (rm f p : Nat) (els : List (Option EgEl)) : EX (List Nat × Nat) :=
  let some1 := els.findSome? id
  let mant := fun (g : EgEl → Int) => els.map fun x => match x with | some e => intBits p (g e) | none => 0
  if isQ f then do
    for e in els.filterMap id do
      exNeed (e.ent / 2 ^ 24 % 256 == 0 && (qBits f != some 4 || e.ent / 65536 % 256 ≤ 15) &&
        (match decodeF fmtFP16 (e.ent % 65536) with | .num .. => true | _ => false)) 0x15
    return (els.map fun x => match x with | some e => e.raw % 2 ^ p | none => 0, 0x7F)
  else if f = 8 then
    let (ms, sc) := bx16Of { rm := rm } (els.map fun x => match x with | some e => decodeF fmtBF16 e.raw | none => .num false 0 0 false)
    return (ms.map (intBits p), sc)
  else match bxBits f, fmtInt f with
    | some b, _ => do
      let sc := match some1 with | some e => e.ent % 256 | none => 0
      exNeed (els.all fun x => match x with | some e => e.len == 32 && e.ent % 256 == sc | none => true) 0x15
      return (mant fun e => bitsInt b e.raw, sc)
    | none, some b => return (mant fun e => bitsInt b e.raw, 0x7F)
    | none, none => exFail 0x15

/-- A K block of a PLANE command as writes: the rows' words plane by plane, then the scales. -/
def planeBlockWrites (dst : Word) (p b : Nat) (rows : List (EX (List Nat × Nat × Bool × List (Nat × Nat)))) : List (EX EgWrite) :=
  let a := dst + wd (b * (512 * p + 128))
  (List.range p).flatMap (fun q => rows.zipIdx.map fun r => do
    let (ms, _, mk, ks) ← r.1
    let w := ms.zipIdx.foldl (fun (v : Nat) m => v + m.1 / 2 ^ q % 2 * 2 ^ m.2) 0
    return { va := a + wd (512 * q + 4 * r.2), bytes := leBytes 4 w, mark := mk, keys := ks }) ++
  rows.zipIdx.map fun r => do
    let (_, sc, mk, _) ← r.1
    return { va := a + wd (512 * p + r.2), bytes := leBytes 1 sc, mark := mk }

/-- The writes of a PLANE (R390). -/
def planePlan (s : State) (x : Xl) (c : EngCmd) : EX (List (EX EgWrite)) := do
  exNeed (1 ≤ c.p && c.p ≤ 16) 0x12
  let l ← layRead s x c true
  let m := l.wins.getD 0 0
  let k := l.wins.getD 1 0
  exNeed (l.rank == 2 && l.gran == 0 && l.cls == 0 && m ≤ 128 && k % 32 == 0) 0x12
  exNeed (c.dst.toNat % 64 == 0) 0x03
  let ok := fun (f : Nat) => if l.decode then isBX f || isQ f else f == 5 || f == 1 || f == 2 || f == 8
  let src := readFmt s x l
  match src with
  | .ok (f, p) => do
    exNeed (ok f) 0x15
    exNeed (baseOk f p l) 0x03
  | .error _ => pure ()
  let zeroRow : EX (List Nat × Nat × Bool × List (Nat × Nat)) := do
    let (f, _) ← src
    return (List.replicate 32 0, if isQ f || (fmtInt f).isSome then 0x7F else 0, false, [])
  let row := fun (b i : Nat) => if i < m then (do
      let (f, p) ← src
      let els ← (List.range 32).mapM fun j =>
        let ix := [i, 32 * b + j]
        if inExts l.exts ix then (do return some (← egElem s x p f l.base (idxSum l.strs ix)))
        else pure none
      let (ms, sc) ← planeRow c.rm.toNat f c.p els
      let got := els.filterMap id
      return (ms, sc, got.any (·.mark), got.flatMap (·.keys))) else zeroRow
  return (List.range (k / 32)).flatMap fun b => planeBlockWrites c.dst c.p b ((List.range 128).map (row b))

/-- A result of an agent's read as an engine meets it. -/
def exAg {α : Type} (r : AX α) : EX α := match r with | .ok a => .ok a | .error (c, _) => exFail c

/-- An element of a volume or tensor as DENSE reads it (R176): its bits, its mark, and the keys that were read. -/
def denseElem (s : State) (ctx g : Nat) (w : List Word) (l : List Nat) : EX (Nat × Bool × List (Nat × Nat)) := do
  let b := elBytes w
  if rgClass w = 1 then
    let T := tileOf w l
    let (fr, _) ← exAg (tileFind s ctx g w T)
    if fr = 0 then return (rgBackEl w, false, [])
    else
      let k ← exAg (agKey s ctx g (fr + wd (tileOff w l)) 1)
      return (memRead s.mem k b, eccStatus s k b != 0, [(k, b)])
  else
    let L := linIdx (rgExts w) l
    let (_, lf) ← exAg (estFind s ctx g w (L / rgSpan w) L true)
    match idxOf (· == L) lf.keys with
    | some i =>
      let k ← exAg (agKey s ctx g (lf.addr + wd (24 + 16 * i)) 1)
      return ((wAt lf.vals i).toNat % 2 ^ (8 * b), eccStatus s k 8 != 0, [(k, 8)])
    | none => return (0, false, [])

/-- Whether a coordinate has a tile or a shard: one that has none is COORD_RANGE, and nothing is written (R173, R177). -/
def denseIn (w : List Word) (l : List Nat) : Bool :=
  if rgClass w = 1 then decide (tileOf w l < 2 ^ 27) else decide (linIdx (rgExts w) l / rgSpan w ≤ rgShards w)

/-- The writes of a DENSE (R176, R392). -/
def densePlan (s : State) (x : Xl) (c : EngCmd) : EX (List (EX EgWrite)) := do
  let r ← exWords s x c.recA 4 32
  exNeed (wAt r 3 == 0 && fld (wAt r 0) 63 12 == 0) 0x12
  let g := fld (wAt r 0) 11 0
  let w := (regionAt s (agentCl s (getCtx s c.ctx).fn g 0) c.ctx g).ws
  exNeed (rgClass w == 1 || rgClass w == 2) 0x11
  let n := (packAxes (rgPack w)).length
  let wext := (List.range 4).map fun i => fld (wAt r 2) (16 * i + 15) (16 * i)
  exNeed (((wext.take n).all (· != 0)) && (wext.drop n).all (· == 0)) 0x12
  let o := unpackC (rgPack w) (wAt r 1)
  exNeed (coordIn w (wAt r 1) && ((o.zip (wext.take n)).zip (rgExts w)).all fun x => x.1.1 + x.1.2 ≤ x.2) 0x11
  exNeed ((winIdx (wext.take n)).all fun i => denseIn w ((o.zip i).map fun y => y.1 + y.2)) 0x11
  let b := elBytes w
  exNeed (c.dst.toNat % b == 0) 0x03
  return (winIdx (wext.take n)).zipIdx.map fun i => do
    let (v, mk, ks) ← denseElem s c.ctx g w ((o.zip i.1).map fun y => y.1 + y.2)
    return { va := c.dst + wd (i.2 * b), bytes := leBytes b v, mark := mk, keys := ks }

/-- A command's writes, or the cause for which its record is refused. -/
def copyPlan (s : State) (x : Xl) (c : EngCmd) : EX (List (EX EgWrite)) :=
  match c.kind with
  | 0 => cpyPlan s x c
  | 1 => planePlan s x c
  | 2 => densePlan s x c
  | _ => fillPlan s x c

/-- The first translation that a plan still asks for, where it is the first thing that the plan meets (R152). -/
def planMiss (s : State) (x : Xl) (p : EX (List (EX EgWrite))) : Option (Nat × Nat) :=
  let first : Option (BitVec 8 × Option (Nat × Nat)) := match p with
    | .error e => some e
    | .ok l => l.findSome? fun w => match (do egKey s x (← w) : EX (Nat × EgWrite)) with | .error e => some e | .ok _ => none
  match first with
  | some (c, m) => if c = needsMiss then m else none
  | none => none

/-- The writes of a plan with the cause of its fault, in the state that its choices leave. -/
def planDo (s : State) (x : Xl) (p : EX (List (EX EgWrite))) : State × List (Nat × EgWrite) × Option (BitVec 8) :=
  match p with
  | .error (c, k) => ((match k with | some (k, n) => markRead s k n | none => s), [], some c)
  | .ok l => egChoose s x l

/-- The 64-byte lines of n bytes from an address, where they can be reached. -/
def spanLines (s : State) (x : Xl) (va : Word) (n : Nat) : List Nat :=
  linesOf ((List.range n).filterMap fun i => match xkey s x (va + wd i).toNat 1 with | .ok (k, _) => some k | .error _ => none)

/-- Bytes of the record of a command (R212, R223, R386, R392). -/
def recLen (kind : Nat) : Nat := match kind with | 2 => 32 | 4 => 128 | 5 => 64 | _ => 96

/-- The 64-byte lines that a command reads and writes, its record's among them; each is one packet to its home (DESIGN CHOICE,
log 72). `rs` are the lines that its plan reads beside those of its writes. -/
def cmdLines (s : State) (x : Xl) (c : EngCmd) (rs : List Nat) (l : List (Nat × EgWrite)) : List Nat × List Nat :=
  ((spanLines s x c.recA (recLen c.kind) ++ rs ++ l.flatMap fun (w : Nat × EgWrite) => w.2.keys.map fun (k : Nat × Nat) => k.1 / 64).eraseDups, egLines l)

/-- The late packets of a command. -/
def cmdLate (s : State) (c : EngCmd) (u : Nat) (ls : List Nat × List Nat) : State × Nat :=
  lateOfN s c.slack ((lineHomes u ls.1).length + (lineHomes u ls.2).length)

/-- A command performed by a unit: the state, its late packets and the cause of its fault; none while a home holds it back. The
copy engine sets the full bits of what it writes, a ranking engine does not (R130). -/
def runPlan (s : State) (cls u : Nat) (x : Xl) (c : EngCmd) (rs : List Nat) (p : EX (List (EX EgWrite))) :
    Option ((State × Nat) × Option (BitVec 8)) :=
  let r := planDo s x p
  let ls := cmdLines r.1 x c rs r.2.1
  if lineGate r.1 cls u (ls.1 ++ ls.2) then
    some (cmdLate (lineNotes (egPut (cls == 7) r.1 r.2.1) cls u (ls.1 ++ ls.2)) c u ls, r.2.2)
  else none

/-- The end of a command: its ticket, its late packets, and its share of its launch entry (R42, R65, R142). -/
def cmdEnd (s : State) (c : EngCmd) (cause : Option (BitVec 8)) (late : Nat) : State :=
  let s := match c.entry with
    | some e => modEntry s e fun x => { x with live := x.live - 1 }
    | none => s
  if (getSlot s c.t).uid != some c.uid then s
  else lateAdd (completeTicket s c.t c.tl c.num cause) c.t late c.recA

/-- Whether a command waits: each home that it touches first performs what the command's core sent there before (R54, R185). -/
def cmdWaits (s : State) (x : Xl) (c : EngCmd) (rs : List Nat) (p : EX (List (EX EgWrite))) : Bool :=
  let l := match p with
    | .ok l => l.filterMap fun w => (do egKey s x (← w) : EX (Nat × EgWrite)).toOption
    | .error _ => []
  let ls := cmdLines s x c rs l
  linesWait s (coreUnit c.t.core) c.mark (ls.1 ++ ls.2)

/-- The miss of a copy engine: its command waits for the fill (R152). -/
def cmdMiss (s : State) (core idx : Nat) (c : EngCmd) (va need : Nat) : State :=
  if c.tr.want.isSome then s
  else match askMiss s core c.ctx va need c.slack with
    | some s => modCore s core fun k => { k with eng := modAt k.eng idx fun c => { c with tr := { c.tr with want := some (va / 4096) } } }
    | none => s

/-- ENGINE_TICKET_COMPLETE (R142, R151, R152, R185, R194, R385 to R392): one copy-engine command performed whole, once its
pages are translated. -/
def execEngineTicketComplete (core : Nat) (idx : Nat) (s : State) : Host.Outcome State Fault Refusal :=
  .next (
    if !coreRuns s core then s
    else match (getCore s core).eng[idx]? with
      | none => s
      | some c =>
        let x := engXl s (some core) core c.ctx c.tr
        let p := copyPlan s x c
        match planMiss s x p with
        | some (va, need) => cmdMiss s core idx c va need
        | none =>
          if cmdWaits s x c [] p then s
          else match runPlan (modCore s core fun k => { k with eng := delAt k.eng idx }) 7 (coreUnit core) x c [] p with
            | some ((s, late), cause) => cmdEnd s c cause late
            | none => s)

end Sys2Proof.Machine
end

