-- ==== Sys2Proof/Machine/Fetch.lean ====
section
/-!
DEFINITION. Which slots may issue (R94, R95, R191, R199, R205), and fetching an instruction's bytes
(R151, R178, R263, R398).
-/

namespace Sys2Proof.Machine

/-- What a slot's turn comes to before its instruction is decoded. -/
inductive Fetched where
  /-- The slot issues nothing now. -/
  | idle
  /-- A LATE trap is due (R43). -/
  | late
  /-- A breakpoint stands at pc (R191). -/
  | brk
  /-- A miss of the fetch, in the state given (R152). -/
  | stall (s : State)
  /-- A fetch fault (R263). -/
  | fault (s : State) (cause : BitVec 8) (addr : Word)
  /-- The instruction's bytes, in the state that holds them in the core. -/
  | bytes (s : State) (l : List Byte)

/-- Whether an instruction has begun and not yet completed: a slot that is evicted finishes it (R199). -/
def midway (sl : Slot) : Bool := !sl.ph.isEmpty || sl.res.isSome || sl.deliv.isSome

/-- Whether a slot may issue: it holds a continuation that is in rotation and that nothing holds back. -/
def mayIssue (s : State) (t : Tid) : Bool :=
  let c := getCore s t.core
  let sl := getSlot s t
  sl.uid.isSome && !parkedSlot sl && !c.stopped && dieRuns s (coreDie t.core) &&
    (!((getFn s (coreFn s t.core)).halted || sl.halted) || sl.stepOne) &&
    (!sl.evicting || sl.handler.isSome || midway sl)

/-- Where one halfword of an instruction lies, or why it cannot be fetched. -/
inductive HalfAt where
  | at (k : Nat)
  | miss
  | bad (cause : BitVec 8)
  deriving DecidableEq, Repr

/-- Translation of a fetch (R143, R151, R263). -/
def halfAt (s : State) (t : Tid) (sl : Slot) (va : Word) : HalfAt :=
  let a := va.toNat
  if a < 0x1000000 || a ≥ scrBase then .bad 0x08
  else match tlbFind s t.core sl.ctx a with
    | some x =>
      if !permOk x.w1 4 || fld x.w1 8 7 == 2 then .bad 0x08
      else match physKey s (getCtx s sl.ctx).fn (entPa x.w1 a) with
        | some k => .at k
        | none => .bad 0x08
    | none =>
      match missFault sl a with
      | some c => .bad c
      | none => .miss

/-- A byte that the core holds as fetched (R178). -/
def heldByte (c : Core) (k : Nat) : Option Byte := (c.icache.find? fun e => e.1 == k).map (·.2)

/-- A byte as the core fetches it: the one it holds, or memory's. -/
def codeByte (s : State) (core k : Nat) : Byte := (heldByte (getCore s core) k).getD (memByte s.mem k)

/-- The bytes of a halfword held by the core from now on. -/
def holdHalf (s : State) (core k : Nat) : State :=
  [k, k + 1].foldl (fun s j =>
    modCore s core fun c => if (heldByte c j).isSome then c else { c with icache := smIns j (memByte s.mem j) c.icache }) s

/-- A halfword fetched: its bytes and the state that holds them. -/
inductive HalfGot where
  | got (s : State) (b0 b1 : Byte)
  | stall (s : State)
  | fault (s : State) (cause : BitVec 8)

def fetchHalf (s : State) (t : Tid) (va : Word) : HalfGot :=
  let sl := getSlot s t
  match halfAt s t sl va with
  | .miss => .stall (sendMiss s t va 2 (dskOf sl))
  | .bad c => .fault s c
  | .at k =>
    let held := (heldByte (getCore s t.core) k).isSome && (heldByte (getCore s t.core) (k + 1)).isSome
    let e := if held then 0 else eccStatus s k 2
    if e = 1 then .fault (markRead s k 2) 0x18
    else if e = 2 then .fault s 0x14
    else .got (holdHalf s t.core k) (codeByte s t.core k) (codeByte s t.core (k + 1))

/-- The turn of a slot up to its instruction's bytes (R263). -/
def fetch (s : State) (t : Tid) : Fetched :=
  let sl := getSlot s t
  if !mayIssue s t then .idle
  else if sl.csr.lateDue && !midway sl then .late
  else if !sl.stepOne && sl.bps.contains sl.pc then .brk
  else match fetchHalf s t sl.pc with
    | .stall s => .stall s
    | .fault s c => .fault s c sl.pc
    | .got s b0 b1 =>
      if !b0.getLsbD 0 then .bytes s [b0, b1]
      else match fetchHalf s t (sl.pc + 2) with
        | .stall s => .stall s
        | .fault s c => .fault s c (sl.pc + 2)
        | .got s b2 b3 => .bytes s [b0, b1, b2, b3]

/-- The encoding that an undecodable pattern reports (R264). -/
def errEnc : DecodeError → BitVec 32
  | .truncated => 0
  | .halfword h => h.setWidth 32
  | .unassigned w => w
  | .fieldValue w => w

/-- A breakpoint or BRK: debug halt of the slot, or the trap (R191, R395). -/
def hitBreak (s : State) (t : Tid) : State :=
  if (getFn s (coreFn s t.core)).debug then modSlot s t fun sl => { sl with halted := true, stepOne := false }
  else takeTrap s t 0x1B 0 (getSlot s t).pc

/-- After the one instruction of a debug step the slot is halted again (R60). -/
def afterStep (t : Tid) (s : State) : State :=
  if (getSlot s t).stepOne && (getSlot s t).wait.isNone then modSlot s t fun sl => { sl with stepOne := false } else s

/-- The turn that comes next: the head of the schedule, or a free choice (log 2). -/
def nextTurn (s : State) : State × Turn :=
  match s.sched with
  | t :: r => ({ s with sched := r }, t)
  | [] => ({ s with turns := s.turns + 1 }, Config.turn s.turns)

/-- Whether a constructor is a device step that a turn may name by itself. -/
def isEvent (i : Instr) : Bool :=
  match i with
  | .illegalInstruction _ => false
  | .fetchFault _ _ => false
  | i => !i.encoded

/-- The slot whose turn it is. -/
def turnTo (s : State) (t : Tid) : State :=
  { modCore s t.core fun c => { c with lastIssue := t.slot } with cur := t }

/-! ### An instruction placed where the next step fetches it (log 14) -/

/-- The virtual address and the page at which `placeCode` puts an instruction. -/
def codeVa : Word := 0x2000000

/-- A context, a continuation in slot 0 of core 0, a TLB entry and the bytes: everything that a fetch at `codeVa` needs. -/
def placeCode (s : State) (l : List Byte) : State :=
  let u := s.nextUid
  let e : TlbEnt := { w0 := wd (2 ^ 48 + 0x2000), w1 := 0x1D, w2 := 0 }
  let s := { s with mem := memWriteL s.mem 0 l, nextUid := u + 1,
                    bad := s.bad.filter (fun w => w != 0), marks := s.marks.filter (fun w => w != 0),
                    power := { s.power with shutdown := false, supplyOk := true }, boot := { s.boot with recovery := false }, cur := {}, sched := [.issue 0 0] }
  let s := modCtx s 1 fun c => { c with live := true, fn := coreFn s 0 }
  let s := modCont s u fun _ => { ctx := 1, wsize := 15, spillK := 64, pc0 := codeVa }
  let s := modDie s 0 fun d => { d with inReset := false }
  let s := modFn s (coreFn s 0) fun f => { f with halted := false }
  let s := modCore s 0 fun c => { c with stopped := false, icache := [], tlb := smSet {} [] 0 e }
  setSlot s {} { uid := some u, pc := codeVa, ctx := 1, wsize := 15 }

end Sys2Proof.Machine
end

