-- ==== Sys2Proof/Machine/Tiles.lean ====
section
/-!
DEFINITION. The tile scheduler of a cluster (R112 to R114, R368, R371, R377, R378): checks, operand demands, staging,
dispatch, completions, engine faults and sparks.
-/

namespace Sys2Proof.Machine

/-! ### Tasks -/

/-- Whether a cluster's hardware runs: its die works, and its service core has not stopped (R205). -/
def clRuns (s : State) (cl : Nat) : Bool := decide (cl < 64) && dieRuns s (clDie cl) && !(getCore s (svcCore cl)).stopped

def modTask (s : State) (cl key : Nat) (f : Task → Task) : State :=
  modCl s cl fun c => { c with tasks := c.tasks.map fun t => if t.bead.key = key then f t else t }

def dropTask (s : State) (cl key : Nat) : State := modCl s cl fun c => { c with tasks := c.tasks.filter fun t => t.bead.key != key }

/-- An event of a bead that its tile scheduler sends to the bead's home; `cont` is the handle of the bead whose task waits
for it (R106). -/
def tellBead (s : State) (cl : Nat) (b : BeadRef) (op : BeadOp) (cont : Word) (ret : Ret) : State :=
  let u := coreUnit (svcCore cl)
  match homeOf b.key with
  | some h => send s 4 (hskOf s u) u h (.bead b op 0 (svcCore cl) cont ret)
  | none => s

/-- A task that ends with an event of its bead. -/
def endTask (s : State) (cl : Nat) (tk : Task) (op : BeadOp) : State := tellBead (dropTask s cl tk.bead.key) cl tk.bead op 0 .none

/-- The bead that a handle of a task names, where it can be reached. -/
def opndBead (s : State) (ctx : Nat) (h : Word) : Option BeadRef :=
  match vkey s none ctx h.toNat 1 with
  | .ok (k, _) => if isHost k then none else some { key := k, handle := h, ctx := ctx }
  | .error _ => none

/-- Word 0 of the bead that a handle names, 0 where there is none. -/
def opndW0 (s : State) (ctx : Nat) (h : Word) : Word :=
  match opndBead s ctx h with
  | some b => bdWord s b.key 0
  | none => 0

/-- Format and geometry of the page of an address. -/
def pageFmt (s : State) (x : Xl) (va : Word) : Nat × Nat :=
  match xkey s x va.toNat 0 with
  | .ok (_, e) => (entFmt e, entGeom e)
  | .error _ => (0, 0)

/-- The output format of a task (R369). -/
def tkOut (s : State) (tk : Task) : Option Nat :=
  let (c, g) := pageFmt s (tkXl tk) (trDest tk.ws)
  outFormat (trOp tk.ws) (trAfmt tk.ws) c g

/-- The FORCE of the next operand from index i on, or the task ready to be staged (R113); a handle that is not 64-byte
aligned fails (R105). -/
def forceNext (s : State) (cl key : Nat) : Nat → Nat → State
  | 0, _ => modTask s cl key fun t => { t with st := .staging }
  | n + 1, i =>
    match (getCl s cl).tasks.find? fun t => t.bead.key == key with
    | none => s
    | some tk =>
      let h := wAt tk.ws (2 + i)
      if h = 0 then forceNext (modTask s cl key fun t => { t with vals := t.vals ++ [0], w0s := t.w0s ++ [0] }) cl key n (i + 1)
      else if h.toNat % 64 != 0 then endTask s cl tk (.opFail 0x03 h)
      else match opndBead s tk.bead.ctx h with
        | some b => tellBead (modTask s cl key fun t => { t with st := .forcing i }) cl b (.force tk.chain) tk.bead.handle (.task cl key)
        | none => endTask s cl tk (.opFail 0x08 h)

/-- TILE_EVALUATE (R113, R368): the oldest claimed task's record is read and checked, and its first operand demanded. -/
def execTileEvaluate (cl : Nat) (s : State) : Host.Outcome State Fault Refusal :=
  .next (
    if !clRuns s cl then s
    else match (getCl s cl).tasks.find? fun t => t.st == .claimed with
      | none => s
      | some tk =>
        match loadWords s none tk.bead.ctx tk.recA 8 with
        | .error (c, _) => endTask s cl tk (.engFault c)
        | .ok ws =>
          let loaded := fun (n : Nat) => (getCl s cl).mprog.any fun m => m.1 == n
          match taskCheck ws tk.bead.handle (opndW0 s tk.bead.ctx) (tkOut s { tk with ws := ws }) loaded with
          | some c => endTask s cl tk (.engFault c)
          | none => forceNext (modTask s cl tk.bead.key fun t => { t with ws := ws, vals := [], w0s := [] }) cl tk.bead.key 3 0)

/-- The outcome of a task's operand demand (R112, R113). -/
def operandGot (s : State) (cl key : Nat) (d : Deliv) : State :=
  match (getCl s cl).tasks.find? fun t => t.bead.key == key with
  | none => s
  | some tk =>
    match tk.st, d with
    | .forcing i, .value v p _ =>
      let w := opndW0 s tk.bead.ctx (wAt tk.ws (2 + i))
      forceNext (modTask s cl key fun t => { t with vals := t.vals ++ [v], w0s := t.w0s ++ [w], poison := t.poison || p }) cl key (2 - i) (i + 1)
    | .forcing _, .fail c h | .forcing _, .failAt c h _ => endTask s cl tk (.opFail c h)
    | _, _ => s

/-- Whether a packet is the reply of an operand's demand. -/
def isOpndReply (p : Packet) : Bool :=
  match p.body with
  | .reply (.task _ _) r => r != .ok
  | _ => false

/-- OPERAND_REPLY (R112, R113): the next operand is demanded, or the task is ready to be staged. -/
def execOperandReply (cl : Nat) (s : State) : Host.Outcome State Fault Refusal :=
  .next (
    if !clRuns s cl then s
    else match takeArrived s (coreUnit (svcCore cl)) 1 isOpndReply with
      | none => s
      | some (p, s) =>
        let s := platCount s cl p
        match p.body with
        | .reply (.task _ key) (.value v b f) => operandGot s cl key (.value v b f)
        | .reply (.task _ key) (.fault c h) => operandGot s cl key (.fail c h)
        | _ => s)

/-! ### Staging (R113, R371, R378) -/

/-- Elements of operand i. -/
def opndCount (r : List Word) (i : Nat) : Nat := match opndShape r i with | some (a, b) => a * b | none => 0

/-- Bytes of operand i from its value address (R370). -/
def opndBytes (tk : Task) (i : Nat) : Nat :=
  let c := opndFmt tk i
  if c = fmtPLANE then cdiv (trK tk.ws) 32 * (512 * trP tk.ws + 128)
  else cdiv (opndCount tk.ws i) (elCell c).2 * (elCell c).1

/-- The keys of the bytes that are read of operand i, companion entries among them, where they can be reached. -/
def opndKeys (s : State) (tk : Task) (i : Nat) : List Nat :=
  let c := opndFmt tk i
  let ctx := tk.bead.ctx
  let data := (List.range (opndBytes tk i)).filterMap fun j =>
    match vkey s none ctx (opndVal tk i + wd j).toNat 1 with
    | .ok (k, _) => some k
    | .error _ => none
  let ents := if isScalar c || c = fmtPLANE then [] else (List.range (opndCount tk.ws i)).flatMap fun n =>
    match elEntry s (opXl tk) c (opndVal tk i) n with
    | .ok (k, sz, _) => (List.range sz).map (k + ·)
    | .error _ => []
  (data ++ ents).eraseDups

/-- The operands that a task has. -/
def opnds (tk : Task) : List Nat := (List.range 3).filter fun i => (opndShape tk.ws i).isSome

/-- Whether a byte lies in a scratchpad of a cluster. -/
def inCluster (cl k : Nat) : Bool := isScr k && coreCl (keyCore k) == cl

/-- Words of a list of bytes whose check fails get their marks as they are read (R203). -/
def markKeys (s : State) (ks : List Nat) : State := ks.foldl (fun s k => markRead s k 1) s

/-- The keys of the bytes of m elements of operand i from element n, companion entries among them. -/
def spanKeys (s : State) (tk : Task) (i n m : Nat) : List Nat :=
  let c := opndFmt tk i
  (List.range m).flatMap fun j =>
    let (va, _) := elPlace c (opndVal tk i) (n + j)
    ((List.range (elCell c).1).filterMap fun d => match vkey s none tk.bead.ctx (va + wd d).toNat 1 with | .ok (k, _) => some k | .error _ => none) ++
      (match elEntry s (opXl tk) c (opndVal tk i) (n + j) with
        | .ok (k, sz, _) => (List.range sz).map (k + ·)
        | .error _ => [])

/-- A block of 128 rows of p-bit values in PLANE form: the planes, then the row scales (R255, R371). -/
def planeForm (p : Nat) (rows : List (List Int × Nat)) : List Byte :=
  (List.range p).flatMap (fun q => rows.flatMap fun r =>
    leBytes 4 (r.1.zipIdx.foldl (fun (v : Nat) m => v + intBits p m.1 / 2 ^ q % 2 * 2 ^ m.2) 0)) ++ rows.map fun r => BitVec.ofNat 8 r.2

/-- A block of 128 columns as 16-bit words, column by column, then the column scales (R371; the order: log 69). -/
def wordForm (cols : List (List Int × Nat)) : List Byte :=
  cols.flatMap (fun c => c.1.flatMap fun m => leBytes 2 (intBits 16 m)) ++ cols.map fun c => BitVec.ofNat 8 c.2

/-- A block of 128 rows of kept values with their companion entries as an S24N plane block (R372). -/
def s24Form (kept p : Nat) (rows : List (Nat × Nat)) : List Byte :=
  (List.range p).flatMap (fun q => rows.flatMap fun r =>
    leBytes 4 ((List.range kept).foldl (fun (v : Nat) j => v + r.1 / 2 ^ (8 * j + q) % 2 * 2 ^ j) 0)) ++
    rows.flatMap (fun r => leBytes 8 ((List.range kept).foldl (fun (v : Nat) j => v + r.2 / 2 ^ (8 + 5 * j) % 32 * 2 ^ (5 * j)) 0)) ++
    rows.map fun r => BitVec.ofNat 8 (r.2 % 256)

/-- 128 rows of a block: those of the operand, then rows of zeros. -/
def padRows {α : Type} (zero : α) (l : List α) : List α := l ++ List.replicate (128 - l.length) zero

/-- K block b of operand A or B of a matrix operation as it is staged (R371, R372); a row that cannot be decoded is staged as
zeros, and its task fails when it is evaluated. -/
def stageBlock (s : State) (tk : Task) (i b : Nat) : List Byte :=
  let r := tk.ws
  let c := opndFmt tk i
  let kw := if trOp r = 3 then 24 else 32
  let at' := fun (j : Nat) => j * trK r + b * kw
  let raw := fun (j p : Nat) => match kRaw s tk c (opndVal tk i) (at' j) kw p with
    | .ok (ms, e, _) => (ms, e)
    | .error _ => (List.replicate kw 0, 0)
  if i = 1 then wordForm (padRows (List.replicate kw 0, 0) ((List.range (trN r)).map fun j => raw j 0))
  else if trOp r = 3 then
    s24Form ((s24N c).getD 0) (trP r) (padRows (0, 0) ((List.range (trM r)).map fun j =>
      match tElem s tk c (opndVal tk i) (at' j) with
      | .ok (v, e, _, _) => (v, e)
      | .error _ => (0, 0)))
  else planeForm (trP r) (padRows (List.replicate kw 0, 0) ((List.range (trM r)).map fun j => raw j (trP r)))

/-- The bytes that an operand is staged as, each with the mark that it carries: A and B of a matrix operation by K blocks, a block
marked where a word that is read for it is (R222); what is in PLANE form already, and other operands, as they stand. -/
def stageForm (s : State) (tk : Task) (i : Nat) : List (Byte × Bool) :=
  let r := tk.ws
  let c := opndFmt tk i
  if isMatrix (trOp r) && i < 2 && c != fmtPLANE then
    let kw := if trOp r = 3 then 24 else 32
    (List.range (trK r / kw)).flatMap fun b =>
      let bad := (List.range (if i = 0 then trM r else trN r)).any fun j =>
        (spanKeys s tk i (j * trK r + b * kw) kw).any fun k => s.marks.contains (k / 8)
      (stageBlock s tk i b).map fun x => (x, bad)
  else (opndKeys s tk i).map fun k => (BitVec.ofNat 8 (tkByte s tk k), s.marks.contains (k / 8))

/-- Bytes written into a service core's scratchpad from an offset, with their full bits and marks, and the words that they
take; those that do not fit are passed on without it (R113, R130, R222). -/
def stageAt (s : State) (cl base : Nat) (l : List (Byte × Bool)) : State × List Nat :=
  let k := scrKey (svcCore cl) base
  let fit := l.take (0x100000 - base)
  let s := engineWrite s k (fit.map (·.1))
  ((fit.zipIdx.filter (·.1.2)).foldl (fun s x => carryMark s (k + x.2) 1) s, wordsOf k fit.length)

/-- n late packets of a cluster's hardware counted (R42). -/
def platAdd (s : State) (cl n : Nat) : State := if n = 0 then s else modCl s cl fun c => { c with plate := c.plate + n }

/-- STAGING_COMPLETE (R42, R54, R113, R203, R222, R371, R372): the operands that lie outside the cluster's scratchpads are written
into the service core's scratchpad in the form that the engine reads, marks with them, once each home concerned has performed
what the service core sent there before. `block` is the task's place in the scheduler's list, and where the scheduler's
firmware puts the blocks (log 69). -/
def execStagingComplete (cl : Nat) (block : Nat × Nat) (s : State) : Host.Outcome State Fault Refusal :=
  let u := coreUnit (svcCore cl)
  .next (
    if !clRuns s cl then s
    else match (getCl s cl).tasks[block.1]? with
      | none => s
      | some tk =>
        if tk.st != .staging then s
        else
          let far := (opnds tk).filter fun i => (opndKeys s tk i).any fun k => !inCluster cl k
          let ks := (far.flatMap (opndKeys s tk)).filter fun k => !inCluster cl k
          let ls := linesOf ks
          if !lineGate s 7 u ls || linesWait s u s.sent ls then s else
          let s := markKeys (lineNotes s 7 u ls) ks
          let (s, late) := lateOfN s (hskOf s u) (lineHomes u ls).length
          let s := platAdd s cl late
          let tk := { tk with snap := ks.map fun k => (k, memByte s.mem k) }
          let marked := ks.any fun k => s.marks.contains (k / 8)
          let (s, staged) := stageAt s cl (block.2 % 0x100000 / 64 * 64) (far.flatMap (stageForm s tk))
          modTask s cl tk.bead.key fun t => { t with st := .ready, snap := tk.snap, staged := staged, poison := t.poison || marked })

/-! ### Dispatch (R113) -/

def isRunning (t : Task) : Bool := match t.st with | .running _ => true | _ => false

/-- The matrix engines of a cluster that work: those of its compute cores that have not stopped (R205). -/
def engines (s : State) (cl : Nat) : List Nat := (List.range 16).filter fun e => !(getCore s (svcCore cl - 16 + e)).stopped

/-- The lowest-numbered free matrix engine of a list but one. -/
def freeEngine (es : List Nat) (ts : List Task) (avoid : Option Nat) : Option Nat :=
  es.find? fun e => (ts.all fun t => t.st != .running e) && avoid != some e

/-- The next ready task with its engine: demanded tasks in claim order, then sparks. -/
def nextTask (es : List Nat) (ts : List Task) : Option (Task × Nat) :=
  let pick := fun (l : List Task) => l.findSome? fun t =>
    if t.st == .ready then (freeEngine es ts t.avoid).map fun e => (t, e) else none
  match pick (ts.filter (·.demanded)) with
  | some x => some x
  | none => pick (ts.filter fun t => !t.demanded)

/-- TILE_DISPATCH (R113, R366): the task keeps the microprogram that its slot holds now. -/
def execTileDispatch (cl : Nat) (s : State) : Host.Outcome State Fault Refusal :=
  .next (
    if !clRuns s cl then s
    else match nextTask (engines s cl) (getCl s cl).tasks with
      | none => s
      | some (tk, e) =>
        let slot := trSlot tk.ws
        let s := modTask s cl tk.bead.key fun t => { t with st := .running e, prog := smGet (0, 0) (getCl s cl).mprog slot }
        if trOp tk.ws = 4 then modCl s cl fun c => { c with prog := smSet 0 c.prog e slot } else s)

/-! ### Completion -/

/-- The rounding context of a task (R373, R378). -/
def tkRC (tk : Task) : RC := { rm := tk.sub.rm.toNat, sat := trSat tk.ws || tk.sub.sat, seed := tk.sub.seed }

/-- The unit of its page in which an element of a block output lies. -/
def blockUnit (s : State) (tk : Task) (f n : Nat) : Nat :=
  let (va, pos) := elPlace f (trDest tk.ws) n
  match xkey s (tkXl tk) va.toNat 2 with
  | .ok (_, e) => ((va.toNat - entBase e) / (elCell f).1 * (elCell f).2 + pos) / 32
  | .error _ => 0

/-- The output of a task: elements where they have a value, flags, and the scale code of each element. -/
def tkResult (s : State) (tk : Task) (f : Nat) : List (Option Nat) × BitVec 6 × (Nat → Nat) :=
  let outs := tileOuts s tk f
  let units := if isBX f then (List.range outs.length).map (blockUnit s tk f) else []
  let vals := outs.map fun x => match x with | .ok (.val v) => v | _ => .num false 0 0 false
  let code := fun (n : Nat) => blockCode f (((vals.zip units).filter fun p => p.2 == units.getD n 0).map (·.1))
  let (l, fl) := roundAll f (tkRC tk) code outs
  (l, fl, code)

/-- One byte run written in a task's destination, whose full/empty bits stay (R130); it carries a mark when the task is poisoned
(R377). -/
def destPut (s : State) (tk : Task) (va : Word) (l : List Byte) (poison : Bool) : TX State := do
  let (k, _) ← xkey s (tkXl tk) va.toNat 2
  let s := homeWriteL s k l
  return if poison then carryMark s k l.length else s

/-- A list in runs of n. -/
def chunks {α : Type} (n : Nat) : Nat → List α → List (List α)
  | 0, _ => []
  | k + 1, l => if l.isEmpty then [] else l.take n :: chunks n k (l.drop n)

/-- The whole destination written, line by line, and a block format's scales (R149). -/
def destAll (s : State) (tk : Task) (f : Nat) (l : List Nat) (code : Nat → Nat) (poison : Bool) : TX State := do
  let bytes := packEls (elBits f) l
  let lines := chunks 64 (bytes.length / 64 + 1) bytes
  let s ← lines.zipIdx.foldlM (fun s x => destPut s tk (trDest tk.ws + wd (64 * x.2)) x.1 poison) s
  if !isBX f then return s
  (List.range l.length).foldlM (fun s n => do
    let (k, _, _) ← elEntry s (tkXl tk) f (trDest tk.ws) n
    let s := homeWriteL s k [BitVec.ofNat 8 (code n)]
    return if poison then carryMark s k 1 else s) s

/-- The byte runs of an output in rising order: one for each element, or for two of 4 bits; none where a value is missing. -/
def outRuns (f : Nat) (l : List (Option Nat)) : List (Option (List Byte)) :=
  (chunks (if elBits f = 4 then 2 else 1) l.length l).map fun g => (g.mapM id).map (packEls (elBits f))

/-- A free subset of the destination written (R377). -/
def destSome (s : State) (tk : Task) (f : Nat) (l : List (Option Nat)) (poison : Bool) : State :=
  let runs := outRuns f l
  let (s, free) := freeBits s runs.length
  let n := max 1 (elBits f / 8)
  ((runs.zip free).zipIdx).foldl (fun s x =>
    match x.1 with
    | (some b, true) =>
      match destPut s tk (trDest tk.ws + wd (n * x.2)) b poison with
      | .ok s => s
      | .error _ => s
    | _ => s) s

/-- Bytes of a task's table (R369). -/
def tabBytes (r : List Word) : Nat := if trTable r = 0 then 0 else if trOp r = 8 then 4 * trM r else 512 * cdiv (trK r) 32

/-- The keys of the bytes that are read of a task's table: of a row table, those of the rows below M (R369). -/
def tabKeys (s : State) (tk : Task) : List Nat :=
  let r := tk.ws
  ((List.range (tabBytes r)).filter fun j => trOp r == 8 || decide (j % 512 < 4 * trM r)).filterMap fun j =>
    match xkey s (tkXl tk) (trTable r + wd j).toNat 1 with
    | .ok (k, _) => some k
    | .error _ => none

/-- The marks that a running task meets in its table and in the cluster's scratchpads, its staged blocks among them, as it reads
its operands (R203, R222, R377). -/
def tkReads (s : State) (tk : Task) : State × Bool :=
  let ks := (((opnds tk).flatMap (opndKeys s tk)).filter fun k => !tk.snap.any fun c => c.1 == k) ++ tabKeys s tk
  let s := markKeys s ks
  (s, tk.poison || (ks.any fun k => s.marks.contains (k / 8)) || tk.staged.any s.marks.contains)

/-- An engine fault (R113, R119): a restartable task is staged again, from what memory then holds, and dispatched once more, to
another engine; else its bead becomes FAILED. -/
def taskFault (s : State) (cl : Nat) (tk : Task) (engine : Nat) (cause : BitVec 8) : State :=
  if trRestart tk.ws && !tk.retried then
    modTask s cl tk.bead.key fun t => { t with st := .staging, snap := [], staged := [], tr := {}, retried := true, avoid := some engine }
  else endTask s cl tk (.engFault cause)

/-- The task that an engine runs. -/
def taskOn (s : State) (cl engine : Nat) : Option Task := (getCl s cl).tasks.find? fun t => t.st == .running engine

/-- The first cause among the elements that have no value. -/
def firstCause (l : List (TX TOut)) : Option (BitVec 8) := l.findSome? fun x => match x with | .error c => some c | .ok _ => none

/-! ### Translation by a matrix engine (R151, R152) -/

/-- The core whose matrix engine has a number in its cluster. -/
def engCore (cl engine : Nat) : Nat := svcCore cl - 16 + engine

/-- A running task as its engine sees it: with the entries of its core's TLB. -/
def withTlb (s : State) (cl engine : Nat) (tk : Task) : Task :=
  { tk with tr := { tk.tr with ents := tk.tr.ents ++ tlbEnts s (engCore cl engine) } }

/-- One address in each page of n bytes from an address. -/
def spanVas (va : Word) (n : Nat) : List Nat :=
  if n = 0 then [] else (List.range ((va.toNat + n - 1) / 4096 - va.toNat / 4096 + 1)).map fun i => max va.toNat ((va.toNat / 4096 + i) * 4096)

/-- The first address of a span that is still to be translated. -/
def spanMiss (s : State) (x : Xl) (va : Word) (n need : Nat) : Option (Nat × Nat) :=
  ((spanVas va n).find? fun a => match xkey s x a need with | .error c => c == needsMiss | .ok _ => false).map fun a => (a, need)

/-- The first address of a task's table and destination that is still to be translated. -/
def tkMiss (s : State) (tk : Task) : Option (Nat × Nat) :=
  let x := tkXl tk
  let dst := trDest tk.ws
  (spanMiss s x dst 1 2).or ((spanMiss s x (trTable tk.ws) (tabBytes tk.ws) 1).or
    (match tkOut s tk with
      | some f => spanMiss s x dst (cdiv (trM tk.ws * trN tk.ws * elBits f) 8) 2
      | none => none))

/-- The miss of a matrix engine: its task waits for the fill. -/
def taskMiss (s : State) (cl engine : Nat) (tk : Task) (va need : Nat) : State :=
  if tk.tr.want.isSome then s
  else match askMiss s (engCore cl engine) tk.bead.ctx va need (hskOf s (coreUnit (svcCore cl))) with
    | some s => modTask s cl tk.bead.key fun t => { t with tr := { t.tr with want := some (va / 4096) } }
    | none => s

/-- The lines that a running task touches: of its table and of the operands that it reads in the cluster, and of its destination
with its scales (R190, log 37). -/
def tkLines (s : State) (tk : Task) (f : Nat) : List Nat :=
  let n := trM tk.ws * trN tk.ws
  let ks := (((opnds tk).flatMap (opndKeys s tk)).filter fun k => !tk.snap.any fun c => c.1 == k) ++ tabKeys s tk
  let out := (List.range (cdiv (n * elBits f) 8)).filterMap fun i => match xkey s (tkXl tk) (trDest tk.ws + wd i).toNat 2 with
    | .ok (k, _) => some k
    | .error _ => none
  let scs := if isBX f then (List.range n).filterMap (fun i => match elEntry s (tkXl tk) f (trDest tk.ws) i with
    | .ok (k, _, _) => some k
    | .error _ => none) else []
  linesOf (ks ++ out ++ scs)

/-- TASK_COMPLETE (R373 to R378): the destination is written, then the completion sent; a fault that the engine meets is an
engine fault. -/
def execTaskComplete (cl : Nat) (engine : Nat) (s : State) : Host.Outcome State Fault Refusal :=
  let u := coreUnit (engCore cl engine)
  .next (
    if !clRuns s cl then s
    else match taskOn s cl engine with
      | none => s
      | some tk =>
        let tk := withTlb s cl engine tk
        match tkMiss s tk with
        | some (va, need) => taskMiss s cl engine tk va need
        | none =>
        match tkOut s tk with
        | none => taskFault (tkReads s tk).1 cl tk engine 0x15
        | some f =>
          let ls := tkLines s tk f
          if !lineGate s 7 u ls then s else
          let (s, poison) := tkReads (lineNotes s 7 u ls) tk
          let (l, fl, code) := tkResult s tk f
          let fail := fun (c : BitVec 8) => taskFault (destSome s tk f l poison) cl tk engine c
          match firstCause (tileOuts s tk f) with
          | some c => fail c
          | none =>
            match destAll s tk f (l.map (·.getD 0)) code poison with
            | .error c => fail c
            | .ok s => endTask s cl tk (if poison then .poisoned (trDest tk.ws) fl else .completion (trDest tk.ws) fl))

/-- TASK_ENGINE_FAULT (R113, R377): an engine that fails in a task; some subset of the destination is written. -/
def execTaskEngineFault (cl : Nat) (engine : Nat) (cause : BitVec 8) (s : State) : Host.Outcome State Fault Refusal :=
  let u := coreUnit (engCore cl engine)
  .next (
    if !clRuns s cl then s
    else match taskOn s cl engine with
      | none => s
      | some tk =>
        let tk := withTlb s cl engine tk
        match tkOut s tk with
        | none => taskFault (tkReads s tk).1 cl tk engine cause
        | some f =>
          let ls := tkLines s tk f
          if !lineGate s 7 u ls then s else
          let (s, poison) := tkReads (lineNotes s 7 u ls) tk
          taskFault (destSome s tk f (tkResult s tk f).1 poison) cl tk engine cause)

/-- SPARK_TAKE (R107, R114): with no demanded task waiting and an engine free, the oldest spark is claimed for a spark chain. -/
def execSparkTake (cl : Nat) (s : State) : Host.Outcome State Fault Refusal :=
  let c := getCl s cl
  .next (
    if !clRuns s cl || (c.tasks.any fun t => t.demanded && !isRunning t) || (freeEngine (engines s cl) c.tasks none).isNone then s
    else match c.sparks with
      | [] => s
      | b :: r =>
        let n := c.svcSeq + 1
        let chain := wd (b.ctx % 65536 * 2 ^ 48 + n.toNat * 2 ^ 17 + tidWord { core := svcCore cl })
        tellBead (modCl s cl fun c => { c with sparks := r, svcSeq := n, sparkCh := c.sparkCh ++ [(chain, b.key)] }) cl b (.claim chain) 0 (.task cl b.key))

/-! ### A core that stops (R205) -/

/-- Every continuation that a core holds: in its slots, its deques and their blocks, and its urgent inbox. -/
def coreConts (c : Core) : List Nat :=
  c.slots.filterMap (fun x => match x.2.uid with | some u => some u | none => x.2.resv) ++
    (c.deque ++ c.udeque).map (·.uid) ++ blockUids c.blocks ++
    c.uinbox.filterMap fun i => match i.kind with | .cont u _ => some u | .roots _ _ _ _ _ _ _ => none

/-- The entry descriptor of a root (R82). -/
def descOf (k : Cont) : Word := wd (k.spillK * 65536 + 32 * b2n k.restart + 16 * b2n k.portsA + k.wsize.toNat)

/-- A restartable root is run again from its start on another core of the cluster, with the same a0 and a1 and its entry's
priority. -/
def rerunRoot (s : State) (cl : Nat) (u : Nat) (k : Cont) : State :=
  match k.entry, k.root with
  | some e, some n =>
    let s := modEntry (endCont s u) e fun x => { x with live := x.live + 1 }
    modCl s cl fun c => { c with inj := c.inj ++
      [{ kind := .roots e n 1 1 k.pc0 k.arg (descOf k), ctx := k.ctx,
         prio := BitVec.ofNat 2 (enPrio (entryWords s e)), resumed := false, since := tickN s }] }
  | _, _ => endCont s u

/-- The tile task on a stopped core's matrix engine is dispatched again by R113, or fails with cause 0x18 (log 67). -/
def redispatch (s : State) (core : Nat) : State :=
  if coreIdx core < 16 then
    match taskOn s (coreCl core) (coreIdx core) with
    | some tk => taskFault s (coreCl core) tk (coreIdx core) 0x18
    | none => s
  else s

/-- CORE_PARITY_ERROR (R205, R206): the core stops; its restartable roots run again elsewhere in the cluster, the roots in its
urgent inbox go back to the injection queue, the other contexts on it are discarded, and its tile task is dispatched again. -/
def execCoreParityError (core : Nat) (s : State) : Host.Outcome State Fault Refusal :=
  .next (
    if !coreExists core || (getCore s core).stopped then s
    else
      let us := coreConts (getCore s core)
      let fuel := s.conts.length
      let roots := us.filter fun u => (getCont s u).restart && (getCont s u).root.isSome
      let others := us.filter fun u => !roots.contains u && !descends s roots fuel u
      let bad := (others.map fun u => (getCont s u).ctx).eraseDups
      let s := modCore s core fun c => { c with stopped := true }
      let s := bad.foldl (fun s c => teardown s c stDISCARDED) s
      let again := roots.filter fun u => (getCont s u).alive
      let ks := again.map fun u => (u, getCont s u)
      let s := dropConts s ((s.conts.map (·.1)).filter fun u => descends s again fuel u)
      let s := ks.foldl (fun s k => rerunRoot s (coreCl core) k.1 k.2) s
      let s := (getCore s core).uinbox.foldl (fun s i => injPush s (coreCl core) { i with prio := 3, urgent := false }) s
      redispatch (modCore s core fun c =>
        { c with slots := c.slots.map fun x => (x.1, emptySlot x.2), deque := [], udeque := [], blocks := [], uinbox := [] }) core)

end Sys2Proof.Machine
end

