-- ==== Sys2Proof/Machine/FloatScalar.lean ====
section
/-!
DEFINITION. Scalar floating point and conversions (R291 to R294), the 16-bit forms of FADD and FMUL (R299), and the iterative unit (R279).
-/

namespace Sys2Proof.Machine

/-- Flags, generator state and result of a rounding, as a thread's instruction leaves them (R256, R259, R278). -/
def putFR (e : Env) (s : State) (d : Nat) (r : FR) : X State := do
  let s ← writeR e s d (wd r.bits)
  return done e (setSeed (orFlags s e.t r.flags) e.t r.seed)

/-- Whether a thread rounds toward minus infinity, for the sign of a cancelled zero (R291). -/
def rdn (e : Env) : Bool := e.sl.csr.fmode.toNat % 8 == 2

/-- An encoding of format f in the low bits of a register (R278). -/
def fIn (f : Fmt) (x : Word) : Nat := x.toNat % 2 ^ f.w

/-- g[d] := f(g[a], g[b]), rounded once (R291). -/
def fop2 (len : Word) (enc : BitVec 32) (d a b : Nat) (s : State) (fm : Fmt) (f : Bool → XV → XV → XV) : Host.Outcome State Fault Refusal :=
  thr len enc s fun e => do
    chk e [a, b] [d] []
    let (s, x) ← readR e e.s a
    let (s, y) ← readR e s b
    putFR e s d (roundTo fm (rcOf e.sl) (f (rdn e) (decodeF fm (fIn fm x)) (decodeF fm (fIn fm y))))

/-- FDIV and FSQRT run in the iterative unit (R279). -/
def fiter2 (enc : BitVec 32) (d a b : Nat) (s : State) (fm : Fmt) (f : XV → XV → XV) : Host.Outcome State Fault Refusal :=
  thr 4 enc s fun e => do
    chk e [a, b] [d] []
    let (s, x) ← readR e e.s a
    let (s, y) ← readR e s b
    let r := roundTo fm (rcOf e.sl) (f (decodeF fm (fIn fm x)) (decodeF fm (fIn fm y)))
    return iterIssue e s d (wd r.bits) r.flags r.seed

def fiter1 (enc : BitVec 32) (d a : Nat) (s : State) (fm : Fmt) (f : XV → XV) : Host.Outcome State Fault Refusal :=
  thr 4 enc s fun e => do
    chk e [a] [d] []
    let (s, x) ← readR e e.s a
    let r := roundTo fm (rcOf e.sl) (f (decodeF fm (fIn fm x)))
    return iterIssue e s d (wd r.bits) r.flags r.seed

/-- a × b + g[d], rounded once (R291). -/
def fmaOp (enc : BitVec 32) (d a b : Nat) (s : State) (fm : Fmt) : Host.Outcome State Fault Refusal :=
  thr 4 enc s fun e => do
    chk e [a, b, d] [d] []
    let (s, x) ← readR e e.s a
    let (s, y) ← readR e s b
    let (s, g) ← readR e s d
    putFR e s d (roundTo fm (rcOf e.sl) (xFma (rdn e) (decodeF fm (fIn fm x)) (decodeF fm (fIn fm y)) (decodeF fm (fIn fm g))))

/-- A float function that rounds nothing and sets no flag (R292). -/
def fsel2 (enc : BitVec 32) (d a b : Nat) (s : State) (fm : Fmt) (f : Fmt → Nat → Nat → Nat) : Host.Outcome State Fault Refusal :=
  alu2 4 enc d a b s fun x y => wd (f fm (fIn fm x) (fIn fm y))
def fsel1 (enc : BitVec 32) (d a : Nat) (s : State) (fm : Fmt) (f : Fmt → Nat → Nat) : Host.Outcome State Fault Refusal :=
  alu1 4 enc d a s fun x => wd (f fm (fIn fm x))

/-- FCMP (R293): relation code, precision bit. -/
def fcmp (enc : BitVec 32) (k a b : Nat) (s : State) (code p : Nat) : Host.Outcome State Fault Refusal :=
  let fm := if p = 1 then fmtFP64 else fmtFP32
  cmp2 enc k a b s fun x y => fcmpCond code fm (fIn fm x) (fIn fm y)

/-- A conversion between float formats that is exact (R294): no rounding step, no flag. -/
def cvtWide (enc : BitVec 32) (d a : Nat) (s : State) (src dst : Fmt) : Host.Outcome State Fault Refusal :=
  alu1 4 enc d a s fun x => wd (roundTo dst {} (decodeF src (fIn src x))).bits

/-- A conversion that rounds to a float format (R294): a NaN gives the default NaN and no flag. -/
def cvtRound (enc : BitVec 32) (d a : Nat) (s : State) (dst : Fmt) (val : Word → XV) : Host.Outcome State Fault Refusal :=
  thr 4 enc s fun e => do
    chk e [a] [d] []
    let (s, x) ← readR e e.s a
    putFR e s d (roundTo dst (rcOf e.sl) (val x))

/-- A conversion to a signed integer of w bits (R294), written sign-extended. -/
def cvtInt (enc : BitVec 32) (d a : Nat) (s : State) (src : Fmt) (w : Nat) : Host.Outcome State Fault Refusal :=
  thr 4 enc s fun e => do
    chk e [a] [d] []
    let (s, x) ← readR e e.s a
    let (i, fs, seed) := roundInt w (rcOf e.sl) (decodeF src (fIn src x))
    let s ← writeR e s d (wdInt i)
    return done e (setSeed (orFlags s e.t fs) e.t seed)

/-- FADD_F32 (R291). -/
def execFaddF32 (d a b : BitVec 7) (s : State) : Host.Outcome State Fault Refusal :=
  fop2 4 (Enc.faddF32 d a b) d.toNat a.toNat b.toNat s fmtFP32 (fun r x y => xAdd r x y)

/-- FSUB_F32 (R291). -/
def execFsubF32 (d a b : BitVec 7) (s : State) : Host.Outcome State Fault Refusal :=
  fop2 4 (Enc.fsubF32 d a b) d.toNat a.toNat b.toNat s fmtFP32 (fun r x y => xAdd r x (xNeg y))

/-- FMUL_F32 (R291). -/
def execFmulF32 (d a b : BitVec 7) (s : State) : Host.Outcome State Fault Refusal :=
  fop2 4 (Enc.fmulF32 d a b) d.toNat a.toNat b.toNat s fmtFP32 (fun _ x y => xMul x y)

/-- FDIV_F32 (R279, R291). -/
def execFdivF32 (d a b : BitVec 7) (s : State) : Host.Outcome State Fault Refusal :=
  fiter2 (Enc.fdivF32 d a b) d.toNat a.toNat b.toNat s fmtFP32 xDiv

/-- FSQRT_F32 (R279, R291). -/
def execFsqrtF32 (d a : BitVec 7) (s : State) : Host.Outcome State Fault Refusal :=
  fiter1 (Enc.fsqrtF32 d a) d.toNat a.toNat s fmtFP32 xSqrt

/-- FMIN_F32 (R292). -/
def execFminF32 (d a b : BitVec 7) (s : State) : Host.Outcome State Fault Refusal :=
  fsel2 (Enc.fminF32 d a b) d.toNat a.toNat b.toNat s fmtFP32 minF

/-- FMAX_F32 (R292). -/
def execFmaxF32 (d a b : BitVec 7) (s : State) : Host.Outcome State Fault Refusal :=
  fsel2 (Enc.fmaxF32 d a b) d.toNat a.toNat b.toNat s fmtFP32 maxF

/-- FMA_F32 (R291). -/
def execFmaF32 (d a b : BitVec 7) (s : State) : Host.Outcome State Fault Refusal :=
  fmaOp (Enc.fmaF32 d a b) d.toNat a.toNat b.toNat s fmtFP32

/-- FABS_F32 (R292). -/
def execFabsF32 (d a : BitVec 7) (s : State) : Host.Outcome State Fault Refusal :=
  fsel1 (Enc.fabsF32 d a) d.toNat a.toNat s fmtFP32 absF

/-- FNEG_F32 (R292). -/
def execFnegF32 (d a : BitVec 7) (s : State) : Host.Outcome State Fault Refusal :=
  fsel1 (Enc.fnegF32 d a) d.toNat a.toNat s fmtFP32 negF

/-- FCLASS_F32 (R292). -/
def execFclassF32 (d a : BitVec 7) (s : State) : Host.Outcome State Fault Refusal :=
  fsel1 (Enc.fclassF32 d a) d.toNat a.toNat s fmtFP32 classF

/-- FADD_F64 (R291). -/
def execFaddF64 (d a b : BitVec 7) (s : State) : Host.Outcome State Fault Refusal :=
  fop2 4 (Enc.faddF64 d a b) d.toNat a.toNat b.toNat s fmtFP64 (fun r x y => xAdd r x y)

/-- FSUB_F64 (R291). -/
def execFsubF64 (d a b : BitVec 7) (s : State) : Host.Outcome State Fault Refusal :=
  fop2 4 (Enc.fsubF64 d a b) d.toNat a.toNat b.toNat s fmtFP64 (fun r x y => xAdd r x (xNeg y))

/-- FMUL_F64 (R291). -/
def execFmulF64 (d a b : BitVec 7) (s : State) : Host.Outcome State Fault Refusal :=
  fop2 4 (Enc.fmulF64 d a b) d.toNat a.toNat b.toNat s fmtFP64 (fun _ x y => xMul x y)

/-- FDIV_F64 (R279, R291). -/
def execFdivF64 (d a b : BitVec 7) (s : State) : Host.Outcome State Fault Refusal :=
  fiter2 (Enc.fdivF64 d a b) d.toNat a.toNat b.toNat s fmtFP64 xDiv

/-- FSQRT_F64 (R279, R291). -/
def execFsqrtF64 (d a : BitVec 7) (s : State) : Host.Outcome State Fault Refusal :=
  fiter1 (Enc.fsqrtF64 d a) d.toNat a.toNat s fmtFP64 xSqrt

/-- FMIN_F64 (R292). -/
def execFminF64 (d a b : BitVec 7) (s : State) : Host.Outcome State Fault Refusal :=
  fsel2 (Enc.fminF64 d a b) d.toNat a.toNat b.toNat s fmtFP64 minF

/-- FMAX_F64 (R292). -/
def execFmaxF64 (d a b : BitVec 7) (s : State) : Host.Outcome State Fault Refusal :=
  fsel2 (Enc.fmaxF64 d a b) d.toNat a.toNat b.toNat s fmtFP64 maxF

/-- FMA_F64 (R291). -/
def execFmaF64 (d a b : BitVec 7) (s : State) : Host.Outcome State Fault Refusal :=
  fmaOp (Enc.fmaF64 d a b) d.toNat a.toNat b.toNat s fmtFP64

/-- FABS_F64 (R292). -/
def execFabsF64 (d a : BitVec 7) (s : State) : Host.Outcome State Fault Refusal :=
  fsel1 (Enc.fabsF64 d a) d.toNat a.toNat s fmtFP64 absF

/-- FNEG_F64 (R292). -/
def execFnegF64 (d a : BitVec 7) (s : State) : Host.Outcome State Fault Refusal :=
  fsel1 (Enc.fnegF64 d a) d.toNat a.toNat s fmtFP64 negF

/-- FCLASS_F64 (R292). -/
def execFclassF64 (d a : BitVec 7) (s : State) : Host.Outcome State Fault Refusal :=
  fsel1 (Enc.fclassF64 d a) d.toNat a.toNat s fmtFP64 classF

/-- FCMPEQ (R293). -/
def execFcmpeq (k : BitVec 3) (a b : BitVec 7) (p : BitVec 1) (s : State) : Host.Outcome State Fault Refusal :=
  fcmp (Enc.fcmpeq k a b p) k.toNat a.toNat b.toNat s 0 p.toNat

/-- FCMPLT (R293). -/
def execFcmplt (k : BitVec 3) (a b : BitVec 7) (p : BitVec 1) (s : State) : Host.Outcome State Fault Refusal :=
  fcmp (Enc.fcmplt k a b p) k.toNat a.toNat b.toNat s 1 p.toNat

/-- FCMPLE (R293). -/
def execFcmple (k : BitVec 3) (a b : BitVec 7) (p : BitVec 1) (s : State) : Host.Outcome State Fault Refusal :=
  fcmp (Enc.fcmple k a b p) k.toNat a.toNat b.toNat s 2 p.toNat

/-- FCMPUN (R293). -/
def execFcmpun (k : BitVec 3) (a b : BitVec 7) (p : BitVec 1) (s : State) : Host.Outcome State Fault Refusal :=
  fcmp (Enc.fcmpun k a b p) k.toNat a.toNat b.toNat s 3 p.toNat

/-- FCMPNE (R293). -/
def execFcmpne (k : BitVec 3) (a b : BitVec 7) (p : BitVec 1) (s : State) : Host.Outcome State Fault Refusal :=
  fcmp (Enc.fcmpne k a b p) k.toNat a.toNat b.toNat s 4 p.toNat

/-- CVTF2D (R294). -/
def execCvtf2d (d a : BitVec 7) (s : State) : Host.Outcome State Fault Refusal :=
  cvtWide (Enc.cvtf2d d a) d.toNat a.toNat s fmtFP32 fmtFP64

/-- CVTB2F (R294). -/
def execCvtb2f (d a : BitVec 7) (s : State) : Host.Outcome State Fault Refusal :=
  cvtWide (Enc.cvtb2f d a) d.toNat a.toNat s fmtBF16 fmtFP32

/-- CVTH2F (R294). -/
def execCvth2f (d a : BitVec 7) (s : State) : Host.Outcome State Fault Refusal :=
  cvtWide (Enc.cvth2f d a) d.toNat a.toNat s fmtFP16 fmtFP32

/-- CVTD2F (R294). -/
def execCvtd2f (d a : BitVec 7) (s : State) : Host.Outcome State Fault Refusal :=
  cvtRound (Enc.cvtd2f d a) d.toNat a.toNat s fmtFP32 fun x => decodeF fmtFP64 (fIn fmtFP64 x)

/-- CVTF2B (R294). -/
def execCvtf2b (d a : BitVec 7) (s : State) : Host.Outcome State Fault Refusal :=
  cvtRound (Enc.cvtf2b d a) d.toNat a.toNat s fmtBF16 fun x => decodeF fmtFP32 (fIn fmtFP32 x)

/-- CVTF2H (R294). -/
def execCvtf2h (d a : BitVec 7) (s : State) : Host.Outcome State Fault Refusal :=
  cvtRound (Enc.cvtf2h d a) d.toNat a.toNat s fmtFP16 fun x => decodeF fmtFP32 (fIn fmtFP32 x)

/-- CVTF2W (R294). -/
def execCvtf2w (d a : BitVec 7) (s : State) : Host.Outcome State Fault Refusal :=
  cvtInt (Enc.cvtf2w d a) d.toNat a.toNat s fmtFP32 32

/-- CVTF2L (R294). -/
def execCvtf2l (d a : BitVec 7) (s : State) : Host.Outcome State Fault Refusal :=
  cvtInt (Enc.cvtf2l d a) d.toNat a.toNat s fmtFP32 64

/-- CVTD2W (R294). -/
def execCvtd2w (d a : BitVec 7) (s : State) : Host.Outcome State Fault Refusal :=
  cvtInt (Enc.cvtd2w d a) d.toNat a.toNat s fmtFP64 32

/-- CVTD2L (R294). -/
def execCvtd2l (d a : BitVec 7) (s : State) : Host.Outcome State Fault Refusal :=
  cvtInt (Enc.cvtd2l d a) d.toNat a.toNat s fmtFP64 64

/-- CVTW2F (R294). -/
def execCvtw2f (d a : BitVec 7) (s : State) : Host.Outcome State Fault Refusal :=
  cvtRound (Enc.cvtw2f d a) d.toNat a.toNat s fmtFP32 fun x => xvInt (sextN 32 x).toInt

/-- CVTL2F (R294). -/
def execCvtl2f (d a : BitVec 7) (s : State) : Host.Outcome State Fault Refusal :=
  cvtRound (Enc.cvtl2f d a) d.toNat a.toNat s fmtFP32 fun x => xvInt x.toInt

/-- CVTL2D (R294). -/
def execCvtl2d (d a : BitVec 7) (s : State) : Host.Outcome State Fault Refusal :=
  cvtRound (Enc.cvtl2d d a) d.toNat a.toNat s fmtFP64 fun x => xvInt x.toInt

/-- CVTW2D (R294). -/
def execCvtw2d (d a : BitVec 7) (s : State) : Host.Outcome State Fault Refusal :=
  alu1 4 (Enc.cvtw2d d a) d.toNat a.toNat s fun x => wd (roundTo fmtFP64 {} (xvInt (sextN 32 x).toInt)).bits

/-- FADD_FH (R266, R291, R299). -/
def execFaddFh (d a : BitVec 5) (s : State) : Host.Outcome State Fault Refusal :=
  fop2 2 (Enc.faddFh d a) d.toNat d.toNat a.toNat s fmtFP64 (fun r x y => xAdd r x y)

/-- FMUL_FH (R266, R291, R299). -/
def execFmulFh (d a : BitVec 5) (s : State) : Host.Outcome State Fault Refusal :=
  fop2 2 (Enc.fmulFh d a) d.toNat d.toNat a.toNat s fmtFP64 (fun _ x y => xMul x y)

/-- An environment for a result that a unit of the core brings to a slot. -/
def unitEnv (s : State) (t : Tid) : Env :=
  let sl := getSlot s t
  { s := s, t := t, sl := sl, enc := 0, npc := sl.pc + 4 }

/-- ITERATIVE_UNIT_DONE (R279). -/
def execIterativeUnitDone (core : Nat) (s : State) : Host.Outcome State Fault Refusal :=
  .next <|
  match (getCore s core).iter with
  | [] => s
  | op :: r =>
    let t : Tid := { core := core, slot := op.slot }
    let e := unitEnv s t
    let popped := modCore s core fun c => { c with iter := r }
    if e.sl.uid != some op.uid || e.sl.wait != some .iter then popped
    else match writeR e popped op.d op.v with
      | .ok s => done e (setSeed (orFlags s t op.flags) t op.seed)
      | .error _ => s

end Sys2Proof.Machine
end

