-- ==== Sys2Proof/Machine/Vector.lean ====
section
/-!
DEFINITION. Vector instructions without memory (R325 to R343, R349), their 16-bit forms (R299), and results written 16 cycles after issue (R327).
-/

namespace Sys2Proof.Machine

/-! ### The scaffold of a vector instruction (R327, R328) -/

/-- Checks, then a ring entry that is done at once, then the body in the state that holds it. -/
def vthr (len : Word) (enc : BitVec 32) (vs : List Nat) (s : State) (body : Env → State → State) : Host.Outcome State Fault Refusal :=
  thr len enc s fun e => do
    ringGate e
    chk e [] [] [] vs
    let (s, n) ← takeRing e e.s false false
    return done e (body e (setRing s e.t n .done))

/-- The lanes of a result: f where the guard is set, elsewhere the old lane or 0 (R326). -/
def mergeLanes (e : Env) (w n old k : Nat) (z : Bool) (f : Nat → Nat) : List Nat :=
  (List.range n).map fun i => if active e.sl k i then f i else if z then 0 else lane w old i

/-- Lanes per register at a lane width. -/
def laneN (w : Nat) : Nat := 512 / w

/-! ### VINT (R329) -/

/-- A lane function: width, x, y, old destination lane; the result and whether it was clamped. -/
abbrev LaneFn := Nat → Nat → Nat → Nat → Nat × Bool

def vint (len : Word) (enc : BitVec 32) (vs : List Nat) (d a b k : Nat) (z : Bool) (lt : Nat) (s : State) (f : LaneFn) : Host.Outcome State Fault Refusal :=
  vthr len enc vs s fun e s =>
    let w := laneW lt
    let va := vecGet e s a
    let vb := vecGet e s b
    let old := vecGet e s d
    let r := fun i => f w (lane w va i) (lane w vb i) (lane w old i)
    let sat := (List.range (laneN w)).any fun i => active e.sl k i && (r i).2
    orFlags (vecSet e s d (ofLanes w (mergeLanes e w (laneN w) old k z fun i => (r i).1))) e.t (fl sat flSA)

/-- A result that no clamp touches. -/
def plainL (f : Nat → Nat → Nat → Nat) : LaneFn := fun w x y _ => (f w x y % 2 ^ w, false)
/-- A clamped result. -/
def satL (lo hi : Nat → Int) (f : Nat → Nat → Nat → Int) : LaneFn := fun w x y _ =>
  let v := f w x y
  (intBits w (clampI (lo w) (hi w) v), v < lo w || v > hi w)
def zeroI (_ : Nat) : Int := 0
def maxU' (w : Nat) : Int := ((2 ^ w - 1 : Nat) : Int)
/-- Signed comparison of lanes. -/
def sltL (w x y : Nat) : Bool := bitsInt w x < bitsInt w y
/-- Bits [2w−1:w] of a product. -/
def highL (w : Nat) (p : Int) : Nat := intBits w (p.fdiv (2 ^ w : Nat))
def sraL (w x n : Nat) : Nat := intBits w ((bitsInt w x).fdiv (2 ^ n : Nat))

/-! ### VFLT (R330, R331) -/

/-- The float format of a lane type (R325). -/
def laneFmt (lt : Nat) : Fmt := match lt with | 1 => fmtBF16 | 2 => fmtFP32 | _ => fmtFP64

/-- Lanes rounded in ascending order: the results of the active ones, the flags, the generator state. -/
def roundLanes (e : Env) (k n : Nat) (seed : BitVec 32) (f : BitVec 32 → Nat → FR) : List Nat × BitVec 6 × BitVec 32 :=
  (List.range n).foldl (fun (p : List Nat × BitVec 6 × BitVec 32) i =>
    if active e.sl k i then
      let r := f p.2.2 i
      (p.1 ++ [r.bits], p.2.1 ||| r.flags, r.seed)
    else (p.1 ++ [0], p.2.1, p.2.2)) ([], 0, seed)

/-- Rounded lanes as an instruction leaves them. -/
def putLanes (e : Env) (s : State) (d w n k : Nat) (z : Bool) (r : List Nat × BitVec 6 × BitVec 32) : State :=
  let old := vecGet e s d
  setSeed (orFlags (vecSet e s d (ofLanes w (mergeLanes e w n old k z fun i => r.1.getD i 0))) e.t r.2.1) e.t r.2.2

/-- A float lane function: rounding context, format, x, y, old lane. -/
abbrev FLaneFn := RC → Fmt → Nat → Nat → Nat → FR

/-- The rounded lanes of a float instruction. -/
def fLanes (e : Env) (s : State) (d a b k lt : Nat) (f : FLaneFn) : List Nat × BitVec 6 × BitVec 32 :=
  let fm := laneFmt lt
  let w := laneW lt
  let va := vecGet e s a
  let vb := vecGet e s b
  let old := vecGet e s d
  roundLanes e k (laneN w) e.sl.csr.fseed fun seed i =>
    f { rcOf e.sl with seed := seed } fm (lane w va i) (lane w vb i) (lane w old i)

def vflt (len : Word) (enc : BitVec 32) (vs : List Nat) (d a b k : Nat) (z : Bool) (lt : Nat) (s : State) (f : FLaneFn) : Host.Outcome State Fault Refusal :=
  vthr len enc vs s fun e s => putLanes e s d (laneW lt) (laneN (laneW lt)) k z (fLanes e s d a b k lt f)

/-- A function that writes its destination and flags 16 cycles after issue (R327): the ring entry stays pending. -/
def vdefer (enc : BitVec 32) (vs : List Nat) (d a b k : Nat) (z : Bool) (lt : Nat) (s : State) (f : FLaneFn) : Host.Outcome State Fault Refusal :=
  thr 4 enc s fun e => do
    ringGate e
    chk e [] [] [] vs
    let (s, n) ← takeRing e e.s false false
    let w := laneW lt
    let r := fLanes e s d a b k lt f
    let v := ofLanes w (mergeLanes e w (laneN w) (vecGet e s d) k z fun i => r.1.getD i 0)
    let ws := (List.range 8).map fun j => (8 * d + j, wd (v / 2 ^ (64 * j)))
    let s := modSlot (setSeed s e.t r.2.2) e.t fun sl => { sl with defer := sl.defer ++ [{ seq := n, writes := ws, flags := r.2.1 }] }
    return done e s

/-- A lane rounded from an exact function of exact operands. -/
def roundL (f : Bool → XV → XV → XV → XV) : FLaneFn := fun c fm x y o =>
  roundTo fm c (f (c.rm == 2) (decodeF fm x) (decodeF fm y) (decodeF fm o))
/-- A lane that rounds nothing. -/
def keepL (f : Fmt → Nat → Nat → Nat) : FLaneFn := fun c fm x y _ => { bits := f fm x y, seed := c.seed }
/-- A lane of an approximate function: RNE, no generator step (R331). -/
def approxL (f : XV → XV) : FLaneFn := fun c fm x _ _ =>
  { roundTo fm { rm := 0, sat := c.sat, seed := c.seed } (f (decodeF fm x)) with seed := c.seed }

/-! ### VCMP (R332) -/

/-- A compare into a predicate: bits at and above the lane count are 0. -/
def vcmp (enc : BitVec 32) (p a b k : Nat) (z : Bool) (lt : Nat) (s : State) (c : Nat → Nat → Nat → Bool) : Host.Outcome State Fault Refusal :=
  vthr 4 enc [a, b] s fun e s =>
    let w := laneW lt
    let va := vecGet e s a
    let vb := vecGet e s b
    let old := predGet e.sl p
    let bit := fun i => if active e.sl k i then c w (lane w va i) (lane w vb i) else !z && bitAt old i
    predSet s e.t p (wd ((List.range (laneN w)).foldl (fun x i => x + b2n (bit i) * 2 ^ i) 0))

/-! ### VMOVE (R333) -/

/-- Active lanes chosen from the sources; inactive ones by R326. -/
def vmove (len : Word) (enc : BitVec 32) (vs : List Nat) (d a b k : Nat) (z : Bool) (lt : Nat) (s : State)
    (f : (Nat → Nat) → (Nat → Nat) → (Nat → Nat) → Nat → Nat → Nat) : Host.Outcome State Fault Refusal :=
  vthr len enc vs s fun e s =>
    let w := laneW lt
    let va := vecGet e s a
    let vb := vecGet e s b
    let old := vecGet e s d
    vecSet e s d (ofLanes w (mergeLanes e w (laneN w) old k z fun i => f (lane w va) (lane w vb) (lane w old) (laneN w) i))

/-! ### VRED (R334 to R336) -/

/-- The lanes that a reduction combines: under merge the active ones, under .z zeros for the others. -/
def redLanes (e : Env) (w va k : Nat) (z : Bool) : List Nat :=
  (List.range (laneN w)).filterMap fun i => if active e.sl k i then some (lane w va i) else if z then some 0 else none

/-- A reduction into lane 0. -/
def vred (enc : BitVec 32) (d a k : Nat) (z : Bool) (lt : Nat) (s : State) (unit : Nat → Nat) (f : Nat → Nat → Nat → Nat) : Host.Outcome State Fault Refusal :=
  vthr 4 enc [d, a] s fun e s =>
    let w := laneW lt
    vecSet e s d ((redLanes e w (vecGet e s a) k z).foldl (f w) (unit w))

/-- One level of the tree of R335. -/
def treeLevel (fm : Fmt) (c : RC) : List Nat → BitVec 6 → BitVec 32 → List Nat × BitVec 6 × BitVec 32
  | x :: y :: r, fs, seed =>
    let q := roundTo fm { c with seed := seed } (xAdd (c.rm == 2) (decodeF fm x) (decodeF fm y))
    let (l, fs, seed) := treeLevel fm c r (fs ||| q.flags) q.seed
    (q.bits :: l, fs, seed)
  | l, fs, seed => (l, fs, seed)

/-- The whole tree. -/
def treeSum (fm : Fmt) (c : RC) : Nat → List Nat → BitVec 6 → BitVec 32 → Nat × BitVec 6 × BitVec 32
  | 0, l, fs, seed => (l.headD 0, fs, seed)
  | n + 1, l, fs, seed =>
    let (l, fs, seed) := treeLevel fm c l fs seed
    treeSum fm c n l fs seed

/-! ### VCVT (R337, R338) -/

/-- One converted element: rounding context, source bits. -/
abbrev CvtFn := RC → Nat → FR

/-- A conversion of n elements of sw bits to dw bits at a segment. -/
def vcvt (enc : BitVec 32) (d a seg k : Nat) (z : Bool) (n sw dw : Nat) (s : State) (f : CvtFn) : Host.Outcome State Fault Refusal :=
  vthr 4 enc [d, a] s fun e s =>
    let va := vecGet e s a
    let old := vecGet e s d
    let src := fun i => va / 2 ^ ((if dw > sw then seg * n * sw else 0) + i * sw) % 2 ^ sw
    let base := if dw < sw then seg * n * dw else 0
    let r := roundLanes e k n e.sl.csr.fseed fun seed i => f { rcOf e.sl with seed := seed } (src i)
    let part := ofLanes dw ((List.range n).map fun i =>
      if active e.sl k i then r.1.getD i 0 else if z then 0 else old / 2 ^ (base + i * dw) % 2 ^ dw)
    let v := old - old / 2 ^ base % 2 ^ (n * dw) * 2 ^ base + part * 2 ^ base
    setSeed (orFlags (vecSet e s d v) e.t r.2.1) e.t r.2.2

/-- Exact widening: no flag, no generator step. -/
def wideC (f : Nat → Nat) : CvtFn := fun c x => { bits := f x, seed := c.seed }
def floatC (src dst : Fmt) : CvtFn := fun c x => roundTo dst c (decodeF src x)
def wideF (src dst : Fmt) : CvtFn := wideC fun x => (roundTo dst {} (decodeF src x)).bits
def narrowC (w : Nat) : CvtFn := fun c x =>
  let v := bitsInt 32 x
  let v' := clampI (minInt w) (maxInt w) v
  { bits := intBits w v', flags := fl (v != v') (flSA ||| flOF), seed := c.seed }

/-! ### Groups and blocks (R339 to R343) -/

/-- round_RNE of an exact value to an integer. -/
def rneInt : XV → Int
  | .num s m e st =>
    let (t, _) := roundMag {} s m e st
    if s then -(t : Int) else t
  | _ => 0

/-- A finite value? -/
def xFinite : XV → Bool
  | .num .. => true
  | _ => false

def xMin (a b : XV) : XV := if xCmp b a = some (-1) then b else a
def xMax (a b : XV) : XV := if xCmp b a = some 1 then b else a
def xZero : XV := .num false 0 0 false

/-- A group quantised (R339): the 32-bit entry, the q values, the flags; `act` tells the active elements. -/
def quantise (qmax : Nat) (xs : List (Bool × XV)) : Nat × List Nat × BitVec 6 :=
  if xs.any fun x => x.1 && !xFinite x.2 then (0x7E00, xs.map fun _ => 0, flNV)
  else
    let vs := xs.map fun x => if x.1 then x.2 else xZero
    let lo := vs.foldl xMin xZero
    let hi := vs.foldl xMax xZero
    let same := xCmp lo hi == some 0
    let r := roundTo fmtFP16 { sat := true } (xDiv (xAdd false hi (xNeg lo)) (xvInt qmax))
    let s := if same then 0x3C00 else if r.bits = 0 then 1 else r.bits
    let fs := if same then 0 else if r.flags &&& flOF != 0 then r.flags else 0
    let xs' := decodeF fmtFP16 s
    let z : Int := if same then 0 else clampI 0 qmax (rneInt (xDiv (xNeg lo) xs'))
    let qs := vs.zip xs |>.map fun p =>
      if p.2.1 then
        let v := rneInt (xDiv p.1 xs') + z
        let q := clampI 0 qmax v
        (q, v != q, xCmp p.1 (xMul (xvInt (q - z)) xs') != some 0)
      else (z, false, false)
    (z.toNat * 65536 + s, qs.map fun q => q.1.toNat,
      fs ||| fl (qs.any fun q => q.2.1) flSA ||| fl (qs.any fun q => q.2.2) flNX)

/-- Whether a companion entry of a Q format is well formed (R252), with the greatest zero point. -/
def qEntryOk (entry zmax : Nat) : Bool :=
  entry / 2 ^ 24 % 256 == 0 && xFinite (decodeF fmtFP16 (entry % 65536)) && entry / 65536 % 256 ≤ zmax

/-- The value (q − z) × s of a Q element. -/
def qValue (entry q : Nat) : XV :=
  plusZero (xMul (xvInt ((q : Int) - (entry / 65536 % 256 : Nat))) (decodeF fmtFP16 (entry % 65536)))

/-- The unbiased exponent of a finite nonzero encoding, a subnormal as the least (R342). -/
def blockExp (fm : Fmt) (b : Nat) : Int :=
  let ex := (b >>> fm.fb) % 2 ^ fm.eb
  if ex = 0 then 1 - (fmtBias fm : Int) else (ex : Int) - fmtBias fm

/-- One rounding pass of BADDQ: integers before saturation, inexactness, generator state. -/
def bxRound (c : RC) (e : Int) (xs : List XV) : List Int × Bool × BitVec 32 :=
  xs.foldl (fun (p : List Int × Bool × BitVec 32) x =>
    let c := { c with seed := p.2.2 }
    match xScale (127 - e) x with
    | .num s m ex st =>
      let (t, inx) := roundMag c s m ex st
      (p.1 ++ [if s then -(t : Int) else t], p.2.1 || inx, c.stepSeed)
    | _ => (p.1 ++ [0], p.2.1, c.stepSeed)) ([], false, c.seed)

/-- Two blocks of 32 elements of w bits added (R341): the packed result, the flags, the generator state. -/
def baddq (w : Nat) (c : RC) (va vb : Nat) : Nat × BitVec 6 × BitVec 32 :=
  let sa := va / 2 ^ 256 % 256
  let sb := vb / 2 ^ 256 % 256
  if sa = 0xFF || sb = 0xFF then (0xFF * 2 ^ 256, flNV, c.seed)
  else
    let xs := (List.range 32).map fun i =>
      xAdd false (xBlock sa (xvInt (bitsInt w (lane w va i)))) (xBlock sb (xvInt (bitsInt w (lane w vb i))))
    if xs.all xIsZero then (0, 0, c.seed)
    else
      let es := xs.filterMap fun x => match x with | .num _ m e _ => if m = 0 then none else some (expOf m e) | _ => none
      let em := es.foldl max (es.headD 0)
      let cc : Int := if w = 8 then 6 else 2
      let e := min 254 (max 0 (em - cc + 127))
      let r := bxRound c e xs
      let bump := (r.1.any fun m => m > maxInt w) && e < 254
      let e2 := if bump then e + 1 else e
      let r2 := if bump then bxRound c e2 xs else r
      let clamped := r2.1.any fun m => m > maxInt w || m < minInt w
      (ofLanes w (r2.1.map fun m => intBits w (clampI (minInt w) (maxInt w) m)) + e2.toNat * 2 ^ 256,
        fl r2.2.1 flNX ||| fl clamped (flOF ||| flSA), r2.2.2)

/-! ### VXG (R349) -/

/-- Lane width and index of a control value. -/
def ctlW (c : Word) : Nat := laneW (fld c 9 8)
def ctlI (c : Word) : Nat := fld c 5 0 % laneN (ctlW c)

/-- A vector written from g[a], the control value and the old vector. -/
def vxg (enc : BitVec 32) (v a b : Nat) (s : State) (f : Word → Word → Nat → Nat) : Host.Outcome State Fault Refusal :=
  thr 4 enc s fun e => do
    ringGate e
    chk e [a, b] [] [] [v]
    let (s, n) ← takeRing e e.s false false
    let (s, x) ← readR e s a
    let (s, c) ← readR e s b
    return done e (vecSet e (setRing s e.t n .done) v (f x c (vecGet e s v)))

/-- VADD (R329). -/
def execVadd (d a b : BitVec 4) (k : BitVec 3) (z : BitVec 1) (l : BitVec 2) (s : State) : Host.Outcome State Fault Refusal :=
  vint 4 (Enc.vadd d a b k z l) [d.toNat, a.toNat, b.toNat] d.toNat a.toNat b.toNat k.toNat (z == 1) l.toNat s (plainL fun _ x y => x + y)

/-- VSUB (R329). -/
def execVsub (d a b : BitVec 4) (k : BitVec 3) (z : BitVec 1) (l : BitVec 2) (s : State) : Host.Outcome State Fault Refusal :=
  vint 4 (Enc.vsub d a b k z l) [d.toNat, a.toNat, b.toNat] d.toNat a.toNat b.toNat k.toNat (z == 1) l.toNat s (plainL fun w x y => x + 2 ^ w - y)

/-- VMUL (R329). -/
def execVmul (d a b : BitVec 4) (k : BitVec 3) (z : BitVec 1) (l : BitVec 2) (s : State) : Host.Outcome State Fault Refusal :=
  vint 4 (Enc.vmul d a b k z l) [d.toNat, a.toNat, b.toNat] d.toNat a.toNat b.toNat k.toNat (z == 1) l.toNat s (plainL fun _ x y => x * y)

/-- VMULH (R329). -/
def execVmulh (d a b : BitVec 4) (k : BitVec 3) (z : BitVec 1) (l : BitVec 2) (s : State) : Host.Outcome State Fault Refusal :=
  vint 4 (Enc.vmulh d a b k z l) [d.toNat, a.toNat, b.toNat] d.toNat a.toNat b.toNat k.toNat (z == 1) l.toNat s (plainL fun w x y => highL w (bitsInt w x * bitsInt w y))

/-- VMULHN (R329). -/
def execVmulhn (d a b : BitVec 4) (k : BitVec 3) (z : BitVec 1) (l : BitVec 2) (s : State) : Host.Outcome State Fault Refusal :=
  vint 4 (Enc.vmulhn d a b k z l) [d.toNat, a.toNat, b.toNat] d.toNat a.toNat b.toNat k.toNat (z == 1) l.toNat s (plainL fun w x y => x * y / 2 ^ w)

/-- VAND (R329). -/
def execVand (d a b : BitVec 4) (k : BitVec 3) (z : BitVec 1) (l : BitVec 2) (s : State) : Host.Outcome State Fault Refusal :=
  vint 4 (Enc.vand d a b k z l) [d.toNat, a.toNat, b.toNat] d.toNat a.toNat b.toNat k.toNat (z == 1) l.toNat s (plainL fun _ x y => x &&& y)

/-- VOR (R329). -/
def execVor (d a b : BitVec 4) (k : BitVec 3) (z : BitVec 1) (l : BitVec 2) (s : State) : Host.Outcome State Fault Refusal :=
  vint 4 (Enc.vor d a b k z l) [d.toNat, a.toNat, b.toNat] d.toNat a.toNat b.toNat k.toNat (z == 1) l.toNat s (plainL fun _ x y => x ||| y)

/-- VXOR (R329). -/
def execVxor (d a b : BitVec 4) (k : BitVec 3) (z : BitVec 1) (l : BitVec 2) (s : State) : Host.Outcome State Fault Refusal :=
  vint 4 (Enc.vxor d a b k z l) [d.toNat, a.toNat, b.toNat] d.toNat a.toNat b.toNat k.toNat (z == 1) l.toNat s (plainL fun _ x y => x ^^^ y)

/-- VSLL (R329). -/
def execVsll (d a b : BitVec 4) (k : BitVec 3) (z : BitVec 1) (l : BitVec 2) (s : State) : Host.Outcome State Fault Refusal :=
  vint 4 (Enc.vsll d a b k z l) [d.toNat, a.toNat, b.toNat] d.toNat a.toNat b.toNat k.toNat (z == 1) l.toNat s (plainL fun w x y => x <<< (y % w))

/-- VSRL (R329). -/
def execVsrl (d a b : BitVec 4) (k : BitVec 3) (z : BitVec 1) (l : BitVec 2) (s : State) : Host.Outcome State Fault Refusal :=
  vint 4 (Enc.vsrl d a b k z l) [d.toNat, a.toNat, b.toNat] d.toNat a.toNat b.toNat k.toNat (z == 1) l.toNat s (plainL fun w x y => x >>> (y % w))

/-- VSRA (R329). -/
def execVsra (d a b : BitVec 4) (k : BitVec 3) (z : BitVec 1) (l : BitVec 2) (s : State) : Host.Outcome State Fault Refusal :=
  vint 4 (Enc.vsra d a b k z l) [d.toNat, a.toNat, b.toNat] d.toNat a.toNat b.toNat k.toNat (z == 1) l.toNat s (plainL fun w x y => sraL w x (y % w))

/-- VMIN (R329). -/
def execVmin (d a b : BitVec 4) (k : BitVec 3) (z : BitVec 1) (l : BitVec 2) (s : State) : Host.Outcome State Fault Refusal :=
  vint 4 (Enc.vmin d a b k z l) [d.toNat, a.toNat, b.toNat] d.toNat a.toNat b.toNat k.toNat (z == 1) l.toNat s (plainL fun w x y => if sltL w x y then x else y)

/-- VMAX (R329). -/
def execVmax (d a b : BitVec 4) (k : BitVec 3) (z : BitVec 1) (l : BitVec 2) (s : State) : Host.Outcome State Fault Refusal :=
  vint 4 (Enc.vmax d a b k z l) [d.toNat, a.toNat, b.toNat] d.toNat a.toNat b.toNat k.toNat (z == 1) l.toNat s (plainL fun w x y => if sltL w x y then y else x)

/-- VMINN (R329). -/
def execVminn (d a b : BitVec 4) (k : BitVec 3) (z : BitVec 1) (l : BitVec 2) (s : State) : Host.Outcome State Fault Refusal :=
  vint 4 (Enc.vminn d a b k z l) [d.toNat, a.toNat, b.toNat] d.toNat a.toNat b.toNat k.toNat (z == 1) l.toNat s (plainL fun _ x y => min x y)

/-- VMAXN (R329). -/
def execVmaxn (d a b : BitVec 4) (k : BitVec 3) (z : BitVec 1) (l : BitVec 2) (s : State) : Host.Outcome State Fault Refusal :=
  vint 4 (Enc.vmaxn d a b k z l) [d.toNat, a.toNat, b.toNat] d.toNat a.toNat b.toNat k.toNat (z == 1) l.toNat s (plainL fun _ x y => max x y)

/-- VSADD (R329). -/
def execVsadd (d a b : BitVec 4) (k : BitVec 3) (z : BitVec 1) (l : BitVec 2) (s : State) : Host.Outcome State Fault Refusal :=
  vint 4 (Enc.vsadd d a b k z l) [d.toNat, a.toNat, b.toNat] d.toNat a.toNat b.toNat k.toNat (z == 1) l.toNat s (satL minInt maxInt fun w x y => bitsInt w x + bitsInt w y)

/-- VSSUB (R329). -/
def execVssub (d a b : BitVec 4) (k : BitVec 3) (z : BitVec 1) (l : BitVec 2) (s : State) : Host.Outcome State Fault Refusal :=
  vint 4 (Enc.vssub d a b k z l) [d.toNat, a.toNat, b.toNat] d.toNat a.toNat b.toNat k.toNat (z == 1) l.toNat s (satL minInt maxInt fun w x y => bitsInt w x - bitsInt w y)

/-- VSADDN (R329). -/
def execVsaddn (d a b : BitVec 4) (k : BitVec 3) (z : BitVec 1) (l : BitVec 2) (s : State) : Host.Outcome State Fault Refusal :=
  vint 4 (Enc.vsaddn d a b k z l) [d.toNat, a.toNat, b.toNat] d.toNat a.toNat b.toNat k.toNat (z == 1) l.toNat s (satL zeroI maxU' fun _ x y => (x : Int) + y)

/-- VSSUBN (R329). -/
def execVssubn (d a b : BitVec 4) (k : BitVec 3) (z : BitVec 1) (l : BitVec 2) (s : State) : Host.Outcome State Fault Refusal :=
  vint 4 (Enc.vssubn d a b k z l) [d.toNat, a.toNat, b.toNat] d.toNat a.toNat b.toNat k.toNat (z == 1) l.toNat s (satL zeroI maxU' fun _ x y => (x : Int) - y)

/-- VMA (R329). -/
def execVma (d a b : BitVec 4) (k : BitVec 3) (z : BitVec 1) (l : BitVec 2) (s : State) : Host.Outcome State Fault Refusal :=
  vint 4 (Enc.vma d a b k z l) [d.toNat, a.toNat, b.toNat] d.toNat a.toNat b.toNat k.toNat (z == 1) l.toNat s (fun w x y o => ((o + x * y) % 2 ^ w, false))

/-- VABS (R329). -/
def execVabs (d a : BitVec 4) (k : BitVec 3) (z : BitVec 1) (l : BitVec 2) (s : State) : Host.Outcome State Fault Refusal :=
  vint 4 (Enc.vabs d a k z l) [d.toNat, a.toNat] d.toNat a.toNat 0 k.toNat (z == 1) l.toNat s (plainL fun w x _ => (bitsInt w x).natAbs)

/-- VNEG (R329). -/
def execVneg (d a : BitVec 4) (k : BitVec 3) (z : BitVec 1) (l : BitVec 2) (s : State) : Host.Outcome State Fault Refusal :=
  vint 4 (Enc.vneg d a k z l) [d.toNat, a.toNat] d.toNat a.toNat 0 k.toNat (z == 1) l.toNat s (plainL fun w x _ => 2 ^ w - x)

/-- VPOPC (R329). -/
def execVpopc (d a : BitVec 4) (k : BitVec 3) (z : BitVec 1) (l : BitVec 2) (s : State) : Host.Outcome State Fault Refusal :=
  vint 4 (Enc.vpopc d a k z l) [d.toNat, a.toNat] d.toNat a.toNat 0 k.toNat (z == 1) l.toNat s (plainL fun w x _ => popCount w x)

/-- VCLZ (R329). -/
def execVclz (d a : BitVec 4) (k : BitVec 3) (z : BitVec 1) (l : BitVec 2) (s : State) : Host.Outcome State Fault Refusal :=
  vint 4 (Enc.vclz d a k z l) [d.toNat, a.toNat] d.toNat a.toNat 0 k.toNat (z == 1) l.toNat s (plainL fun w x _ => clzN w x)

/-- VFADD (R330). -/
def execVfadd (d a b : BitVec 4) (k : BitVec 3) (z : BitVec 1) (l : BitVec 2) (s : State) : Host.Outcome State Fault Refusal :=
  vflt 4 (Enc.vfadd d a b k z l) [d.toNat, a.toNat, b.toNat] d.toNat a.toNat b.toNat k.toNat (z == 1) l.toNat s (roundL fun r x y _ => xAdd r x y)

/-- VFSUB (R330). -/
def execVfsub (d a b : BitVec 4) (k : BitVec 3) (z : BitVec 1) (l : BitVec 2) (s : State) : Host.Outcome State Fault Refusal :=
  vflt 4 (Enc.vfsub d a b k z l) [d.toNat, a.toNat, b.toNat] d.toNat a.toNat b.toNat k.toNat (z == 1) l.toNat s (roundL fun r x y _ => xAdd r x (xNeg y))

/-- VFMUL (R330). -/
def execVfmul (d a b : BitVec 4) (k : BitVec 3) (z : BitVec 1) (l : BitVec 2) (s : State) : Host.Outcome State Fault Refusal :=
  vflt 4 (Enc.vfmul d a b k z l) [d.toNat, a.toNat, b.toNat] d.toNat a.toNat b.toNat k.toNat (z == 1) l.toNat s (roundL fun _ x y _ => xMul x y)

/-- VFMA (R330). -/
def execVfma (d a b : BitVec 4) (k : BitVec 3) (z : BitVec 1) (l : BitVec 2) (s : State) : Host.Outcome State Fault Refusal :=
  vflt 4 (Enc.vfma d a b k z l) [d.toNat, a.toNat, b.toNat] d.toNat a.toNat b.toNat k.toNat (z == 1) l.toNat s (roundL fun r x y o => xFma r x y o)

/-- VFMIN (R330). -/
def execVfmin (d a b : BitVec 4) (k : BitVec 3) (z : BitVec 1) (l : BitVec 2) (s : State) : Host.Outcome State Fault Refusal :=
  vflt 4 (Enc.vfmin d a b k z l) [d.toNat, a.toNat, b.toNat] d.toNat a.toNat b.toNat k.toNat (z == 1) l.toNat s (keepL minF)

/-- VFMAX (R330). -/
def execVfmax (d a b : BitVec 4) (k : BitVec 3) (z : BitVec 1) (l : BitVec 2) (s : State) : Host.Outcome State Fault Refusal :=
  vflt 4 (Enc.vfmax d a b k z l) [d.toNat, a.toNat, b.toNat] d.toNat a.toNat b.toNat k.toNat (z == 1) l.toNat s (keepL maxF)

/-- VFDIV (R327, R330). -/
def execVfdiv (d a b : BitVec 4) (k : BitVec 3) (z : BitVec 1) (l : BitVec 2) (s : State) : Host.Outcome State Fault Refusal :=
  vdefer (Enc.vfdiv d a b k z l) [d.toNat, a.toNat, b.toNat] d.toNat a.toNat b.toNat k.toNat (z == 1) l.toNat s (roundL fun _ x y _ => xDiv x y)

/-- VFSQRT (R327, R330). -/
def execVfsqrt (d a : BitVec 4) (k : BitVec 3) (z : BitVec 1) (l : BitVec 2) (s : State) : Host.Outcome State Fault Refusal :=
  vdefer (Enc.vfsqrt d a k z l) [d.toNat, a.toNat] d.toNat a.toNat 0 k.toNat (z == 1) l.toNat s (roundL fun _ x _ _ => xSqrt x)

/-- VFRCP (R327, R331). -/
def execVfrcp (d a : BitVec 4) (k : BitVec 3) (z : BitVec 1) (l : BitVec 2) (s : State) : Host.Outcome State Fault Refusal :=
  vdefer (Enc.vfrcp d a k z l) [d.toNat, a.toNat] d.toNat a.toNat 0 k.toNat (z == 1) l.toNat s (approxL xRcp)

/-- VFRSQ (R327, R331). -/
def execVfrsq (d a : BitVec 4) (k : BitVec 3) (z : BitVec 1) (l : BitVec 2) (s : State) : Host.Outcome State Fault Refusal :=
  vdefer (Enc.vfrsq d a k z l) [d.toNat, a.toNat] d.toNat a.toNat 0 k.toNat (z == 1) l.toNat s (approxL xRsqrt)

/-- VFEXP2 (R327, R331). -/
def execVfexp2 (d a : BitVec 4) (k : BitVec 3) (z : BitVec 1) (l : BitVec 2) (s : State) : Host.Outcome State Fault Refusal :=
  vdefer (Enc.vfexp2 d a k z l) [d.toNat, a.toNat] d.toNat a.toNat 0 k.toNat (z == 1) l.toNat s (approxL xExp2)

/-- VFLOG2 (R327, R331). -/
def execVflog2 (d a : BitVec 4) (k : BitVec 3) (z : BitVec 1) (l : BitVec 2) (s : State) : Host.Outcome State Fault Refusal :=
  vdefer (Enc.vflog2 d a k z l) [d.toNat, a.toNat] d.toNat a.toNat 0 k.toNat (z == 1) l.toNat s (approxL xLog2)

/-- VFABS (R330). -/
def execVfabs (d a : BitVec 4) (k : BitVec 3) (z : BitVec 1) (l : BitVec 2) (s : State) : Host.Outcome State Fault Refusal :=
  vflt 4 (Enc.vfabs d a k z l) [d.toNat, a.toNat] d.toNat a.toNat 0 k.toNat (z == 1) l.toNat s (keepL fun fm x _ => absF fm x)

/-- VFNEG (R330). -/
def execVfneg (d a : BitVec 4) (k : BitVec 3) (z : BitVec 1) (l : BitVec 2) (s : State) : Host.Outcome State Fault Refusal :=
  vflt 4 (Enc.vfneg d a k z l) [d.toNat, a.toNat] d.toNat a.toNat 0 k.toNat (z == 1) l.toNat s (keepL fun fm x _ => negF fm x)

/-- VCMPEQ (R332). -/
def execVcmpeq (p : BitVec 3) (a b : BitVec 4) (k : BitVec 3) (z : BitVec 1) (l : BitVec 2) (s : State) : Host.Outcome State Fault Refusal :=
  vcmp (Enc.vcmpeq p a b k z l) p.toNat a.toNat b.toNat k.toNat (z == 1) l.toNat s (fun _ x y => x == y)

/-- VCMPNE (R332). -/
def execVcmpne (p : BitVec 3) (a b : BitVec 4) (k : BitVec 3) (z : BitVec 1) (l : BitVec 2) (s : State) : Host.Outcome State Fault Refusal :=
  vcmp (Enc.vcmpne p a b k z l) p.toNat a.toNat b.toNat k.toNat (z == 1) l.toNat s (fun _ x y => x != y)

/-- VCMPLT (R332). -/
def execVcmplt (p : BitVec 3) (a b : BitVec 4) (k : BitVec 3) (z : BitVec 1) (l : BitVec 2) (s : State) : Host.Outcome State Fault Refusal :=
  vcmp (Enc.vcmplt p a b k z l) p.toNat a.toNat b.toNat k.toNat (z == 1) l.toNat s (fun w x y => sltL w x y)

/-- VCMPGE (R332). -/
def execVcmpge (p : BitVec 3) (a b : BitVec 4) (k : BitVec 3) (z : BitVec 1) (l : BitVec 2) (s : State) : Host.Outcome State Fault Refusal :=
  vcmp (Enc.vcmpge p a b k z l) p.toNat a.toNat b.toNat k.toNat (z == 1) l.toNat s (fun w x y => !sltL w x y)

/-- VCMPLTN (R332). -/
def execVcmpltn (p : BitVec 3) (a b : BitVec 4) (k : BitVec 3) (z : BitVec 1) (l : BitVec 2) (s : State) : Host.Outcome State Fault Refusal :=
  vcmp (Enc.vcmpltn p a b k z l) p.toNat a.toNat b.toNat k.toNat (z == 1) l.toNat s (fun _ x y => decide (x < y))

/-- VCMPGEN (R332). -/
def execVcmpgen (p : BitVec 3) (a b : BitVec 4) (k : BitVec 3) (z : BitVec 1) (l : BitVec 2) (s : State) : Host.Outcome State Fault Refusal :=
  vcmp (Enc.vcmpgen p a b k z l) p.toNat a.toNat b.toNat k.toNat (z == 1) l.toNat s (fun _ x y => decide (y ≤ x))

/-- VFCMPEQ (R332). -/
def execVfcmpeq (p : BitVec 3) (a b : BitVec 4) (k : BitVec 3) (z : BitVec 1) (l : BitVec 2) (s : State) : Host.Outcome State Fault Refusal :=
  vcmp (Enc.vfcmpeq p a b k z l) p.toNat a.toNat b.toNat k.toNat (z == 1) l.toNat s (fun _ x y => fcmpCond 0 (laneFmt l.toNat) x y)

/-- VFCMPLT (R332). -/
def execVfcmplt (p : BitVec 3) (a b : BitVec 4) (k : BitVec 3) (z : BitVec 1) (l : BitVec 2) (s : State) : Host.Outcome State Fault Refusal :=
  vcmp (Enc.vfcmplt p a b k z l) p.toNat a.toNat b.toNat k.toNat (z == 1) l.toNat s (fun _ x y => fcmpCond 1 (laneFmt l.toNat) x y)

/-- VFCMPLE (R332). -/
def execVfcmple (p : BitVec 3) (a b : BitVec 4) (k : BitVec 3) (z : BitVec 1) (l : BitVec 2) (s : State) : Host.Outcome State Fault Refusal :=
  vcmp (Enc.vfcmple p a b k z l) p.toNat a.toNat b.toNat k.toNat (z == 1) l.toNat s (fun _ x y => fcmpCond 2 (laneFmt l.toNat) x y)

/-- VFCMPUN (R332). -/
def execVfcmpun (p : BitVec 3) (a b : BitVec 4) (k : BitVec 3) (z : BitVec 1) (l : BitVec 2) (s : State) : Host.Outcome State Fault Refusal :=
  vcmp (Enc.vfcmpun p a b k z l) p.toNat a.toNat b.toNat k.toNat (z == 1) l.toNat s (fun _ x y => fcmpCond 3 (laneFmt l.toNat) x y)

/-- VSEL (R333). -/
def execVsel (d a b : BitVec 4) (k : BitVec 3) (l : BitVec 2) (s : State) : Host.Outcome State Fault Refusal :=
  vthr 4 (Enc.vsel d a b k l) [d.toNat, a.toNat, b.toNat] s fun e s =>
    let w := laneW l.toNat
    let va := vecGet e s a.toNat
    let vb := vecGet e s b.toNat
    vecSet e s d.toNat (ofLanes w ((List.range (laneN w)).map fun i => if active e.sl k.toNat i then lane w va i else lane w vb i))

/-- VPERM (R333). -/
def execVperm (d a b : BitVec 4) (k : BitVec 3) (z : BitVec 1) (l : BitVec 2) (s : State) : Host.Outcome State Fault Refusal :=
  vmove 4 (Enc.vperm d a b k z l) [d.toNat, a.toNat, b.toNat] d.toNat a.toNat b.toNat k.toNat (z == 1) l.toNat s fun a b _ n i => a (b i % n)

/-- VSLIDEUP (R333). -/
def execVslideup (d a b : BitVec 4) (k : BitVec 3) (z : BitVec 1) (l : BitVec 2) (s : State) : Host.Outcome State Fault Refusal :=
  vmove 4 (Enc.vslideup d a b k z l) [d.toNat, a.toNat, b.toNat] d.toNat a.toNat b.toNat k.toNat (z == 1) l.toNat s fun a b o _ i => if b 0 ≤ i then a (i - b 0) else o i

/-- VSLIDEDN (R333). -/
def execVslidedn (d a b : BitVec 4) (k : BitVec 3) (z : BitVec 1) (l : BitVec 2) (s : State) : Host.Outcome State Fault Refusal :=
  vmove 4 (Enc.vslidedn d a b k z l) [d.toNat, a.toNat, b.toNat] d.toNat a.toNat b.toNat k.toNat (z == 1) l.toNat s fun a b _ n i => if i + b 0 < n then a (i + b 0) else 0

/-- VCOMPRESS (R333). -/
def execVcompress (d a : BitVec 4) (k : BitVec 3) (l : BitVec 2) (s : State) : Host.Outcome State Fault Refusal :=
  vthr 4 (Enc.vcompress d a k l) [d.toNat, a.toNat] s fun e s =>
    let w := laneW l.toNat
    vecSet e s d.toNat (ofLanes w (redLanes e w (vecGet e s a.toNat) k.toNat false))

/-- VEXPAND (R333). -/
def execVexpand (d a : BitVec 4) (k : BitVec 3) (z : BitVec 1) (l : BitVec 2) (s : State) : Host.Outcome State Fault Refusal :=
  vthr 4 (Enc.vexpand d a k z l) [d.toNat, a.toNat] s fun e s =>
    let w := laneW l.toNat
    let va := vecGet e s a.toNat
    let old := vecGet e s d.toNat
    vecSet e s d.toNat (ofLanes w (mergeLanes e w (laneN w) old k.toNat (z == 1) fun i =>
      lane w va ((List.range i).filter (active e.sl k.toNat)).length))

/-- VMOV (R333). -/
def execVmov (d a : BitVec 4) (k : BitVec 3) (z : BitVec 1) (l : BitVec 2) (s : State) : Host.Outcome State Fault Refusal :=
  vmove 4 (Enc.vmov d a k z l) [d.toNat, a.toNat] d.toNat a.toNat 0 k.toNat (z == 1) l.toNat s fun a _ _ _ i => a i

/-- VREDADD (R334). -/
def execVredadd (d a : BitVec 4) (k : BitVec 3) (z : BitVec 1) (l : BitVec 2) (s : State) : Host.Outcome State Fault Refusal :=
  vred (Enc.vredadd d a k z l) d.toNat a.toNat k.toNat (z == 1) l.toNat s (fun _ => 0) fun w x y => (x + y) % 2 ^ w

/-- VREDMIN (R334). -/
def execVredmin (d a : BitVec 4) (k : BitVec 3) (z : BitVec 1) (l : BitVec 2) (s : State) : Host.Outcome State Fault Refusal :=
  vred (Enc.vredmin d a k z l) d.toNat a.toNat k.toNat (z == 1) l.toNat s (fun w => 2 ^ (w - 1) - 1) fun w x y => if sltL w y x then y else x

/-- VREDMAX (R334). -/
def execVredmax (d a : BitVec 4) (k : BitVec 3) (z : BitVec 1) (l : BitVec 2) (s : State) : Host.Outcome State Fault Refusal :=
  vred (Enc.vredmax d a k z l) d.toNat a.toNat k.toNat (z == 1) l.toNat s (fun w => 2 ^ (w - 1)) fun w x y => if sltL w x y then y else x

/-- VREDMINN (R334). -/
def execVredminn (d a : BitVec 4) (k : BitVec 3) (z : BitVec 1) (l : BitVec 2) (s : State) : Host.Outcome State Fault Refusal :=
  vred (Enc.vredminn d a k z l) d.toNat a.toNat k.toNat (z == 1) l.toNat s (fun w => 2 ^ w - 1) fun _ x y => min x y

/-- VREDMAXN (R334). -/
def execVredmaxn (d a : BitVec 4) (k : BitVec 3) (z : BitVec 1) (l : BitVec 2) (s : State) : Host.Outcome State Fault Refusal :=
  vred (Enc.vredmaxn d a k z l) d.toNat a.toNat k.toNat (z == 1) l.toNat s (fun _ => 0) fun _ x y => max x y

/-- VREDFADD (R334, R335). -/
def execVredfadd (d a : BitVec 4) (k : BitVec 3) (z : BitVec 1) (l : BitVec 2) (s : State) : Host.Outcome State Fault Refusal :=
  vthr 4 (Enc.vredfadd d a k z l) [d.toNat, a.toNat] s fun e s =>
    let fm := laneFmt l.toNat
    let w := laneW l.toNat
    let va := vecGet e s a.toNat
    let xs := (List.range (laneN w)).map fun i =>
      if active e.sl k.toNat i then lane w va i else if z = 1 then 0 else withSign fm true 0
    let r := treeSum fm (rcOf e.sl) 6 xs 0 e.sl.csr.fseed
    setSeed (orFlags (vecSet e s d.toNat r.1) e.t r.2.1) e.t r.2.2

/-- VREDFMIN (R334). -/
def execVredfmin (d a : BitVec 4) (k : BitVec 3) (z : BitVec 1) (l : BitVec 2) (s : State) : Host.Outcome State Fault Refusal :=
  vred (Enc.vredfmin d a k z l) d.toNat a.toNat k.toNat (z == 1) l.toNat s (fun _ => infBits (laneFmt l.toNat)) fun _ x y => minF (laneFmt l.toNat) x y

/-- VREDFMAX (R334). -/
def execVredfmax (d a : BitVec 4) (k : BitVec 3) (z : BitVec 1) (l : BitVec 2) (s : State) : Host.Outcome State Fault Refusal :=
  vred (Enc.vredfmax d a k z l) d.toNat a.toNat k.toNat (z == 1) l.toNat s (fun _ => withSign (laneFmt l.toNat) true (infBits (laneFmt l.toNat))) fun _ x y => maxF (laneFmt l.toNat) x y

/-- VSCAN (R334). -/
def execVscan (d a : BitVec 4) (k : BitVec 3) (z : BitVec 1) (l : BitVec 2) (s : State) : Host.Outcome State Fault Refusal :=
  vthr 4 (Enc.vscan d a k z l) [d.toNat, a.toNat] s fun e s =>
    let w := laneW l.toNat
    let va := vecGet e s a.toNat
    let old := vecGet e s d.toNat
    vecSet e s d.toNat (ofLanes w (mergeLanes e w (laneN w) old k.toNat (z == 1) fun i =>
      ((List.range (i + 1)).filter (active e.sl k.toNat)).foldl (fun x j => (x + lane w va j) % 2 ^ w) 0))

/-- VFSCAN (R334, R335). -/
def execVfscan (d a : BitVec 4) (k : BitVec 3) (z : BitVec 1) (l : BitVec 2) (s : State) : Host.Outcome State Fault Refusal :=
  vthr 4 (Enc.vfscan d a k z l) [d.toNat, a.toNat] s fun e s =>
    let fm := laneFmt l.toNat
    let w := laneW l.toNat
    let va := vecGet e s a.toNat
    let r := (List.range (laneN w)).foldl (fun (p : Nat × List Nat × BitVec 6 × BitVec 32) i =>
      if active e.sl k.toNat i then
        let q := roundTo fm { rcOf e.sl with seed := p.2.2.2 } (xAdd (rdn e) (decodeF fm p.1) (decodeF fm (lane w va i)))
        (q.bits, p.2.1 ++ [q.bits], p.2.2.1 ||| q.flags, q.seed)
      else (p.1, p.2.1 ++ [0], p.2.2)) (withSign fm true 0, [], 0, e.sl.csr.fseed)
    putLanes e s d.toNat w (laneN w) k.toNat (z == 1) r.2

/-- VDOT (R336). -/
def execVdot (d a b : BitVec 4) (k : BitVec 3) (z l : BitVec 1) (s : State) : Host.Outcome State Fault Refusal :=
  vthr 4 (Enc.vdot d a b k z l) [d.toNat, a.toNat, b.toNat] s fun e s =>
    let w := laneW l.toNat
    let r := 32 / w
    let va := vecGet e s a.toNat
    let vb := vecGet e s b.toNat
    let old := vecGet e s d.toNat
    vecSet e s d.toNat (ofLanes 32 (mergeLanes e 32 16 old k.toNat (z == 1) fun i =>
      intBits 32 ((List.range r).foldl (fun x j =>
        x + bitsInt w (lane w va (r * i + j)) * bitsInt w (lane w vb (r * i + j))) (lane 32 old i : Int))))

/-- VCVTF2B (R337, R338). -/
def execVcvtf2b (d a sv : BitVec 4) (k : BitVec 3) (z : BitVec 1) (s : State) : Host.Outcome State Fault Refusal :=
  vcvt (Enc.vcvtf2b d a sv k z) d.toNat a.toNat sv.toNat k.toNat (z == 1) 16 32 16 s (floatC fmtFP32 fmtBF16)

/-- VCVTB2F (R337, R338). -/
def execVcvtb2f (d a sv : BitVec 4) (k : BitVec 3) (z : BitVec 1) (s : State) : Host.Outcome State Fault Refusal :=
  vcvt (Enc.vcvtb2f d a sv k z) d.toNat a.toNat sv.toNat k.toNat (z == 1) 16 16 32 s (wideF fmtBF16 fmtFP32)

/-- VCVTF2H (R337, R338). -/
def execVcvtf2h (d a sv : BitVec 4) (k : BitVec 3) (z : BitVec 1) (s : State) : Host.Outcome State Fault Refusal :=
  vcvt (Enc.vcvtf2h d a sv k z) d.toNat a.toNat sv.toNat k.toNat (z == 1) 16 32 16 s (floatC fmtFP32 fmtFP16)

/-- VCVTH2F (R337, R338). -/
def execVcvth2f (d a sv : BitVec 4) (k : BitVec 3) (z : BitVec 1) (s : State) : Host.Outcome State Fault Refusal :=
  vcvt (Enc.vcvth2f d a sv k z) d.toNat a.toNat sv.toNat k.toNat (z == 1) 16 16 32 s (wideF fmtFP16 fmtFP32)

/-- VCVTF2E4 (R337, R338). -/
def execVcvtf2e4 (d a sv : BitVec 4) (k : BitVec 3) (z : BitVec 1) (s : State) : Host.Outcome State Fault Refusal :=
  vcvt (Enc.vcvtf2e4 d a sv k z) d.toNat a.toNat sv.toNat k.toNat (z == 1) 16 32 8 s (floatC fmtFP32 fmtE4M3)

/-- VCVTE42F (R337, R338). -/
def execVcvte42f (d a sv : BitVec 4) (k : BitVec 3) (z : BitVec 1) (s : State) : Host.Outcome State Fault Refusal :=
  vcvt (Enc.vcvte42f d a sv k z) d.toNat a.toNat sv.toNat k.toNat (z == 1) 16 8 32 s (wideF fmtE4M3 fmtFP32)

/-- VCVTF2E5 (R337, R338). -/
def execVcvtf2e5 (d a sv : BitVec 4) (k : BitVec 3) (z : BitVec 1) (s : State) : Host.Outcome State Fault Refusal :=
  vcvt (Enc.vcvtf2e5 d a sv k z) d.toNat a.toNat sv.toNat k.toNat (z == 1) 16 32 8 s (floatC fmtFP32 fmtE5M2)

/-- VCVTE52F (R337, R338). -/
def execVcvte52f (d a sv : BitVec 4) (k : BitVec 3) (z : BitVec 1) (s : State) : Host.Outcome State Fault Refusal :=
  vcvt (Enc.vcvte52f d a sv k z) d.toNat a.toNat sv.toNat k.toNat (z == 1) 16 8 32 s (wideF fmtE5M2 fmtFP32)

/-- VCVTF2W (R337, R338). -/
def execVcvtf2w (d a sv : BitVec 4) (k : BitVec 3) (z : BitVec 1) (s : State) : Host.Outcome State Fault Refusal :=
  vcvt (Enc.vcvtf2w d a sv k z) d.toNat a.toNat sv.toNat k.toNat (z == 1) 16 32 32 s (fun c x =>
    let r := roundInt 32 c (decodeF fmtFP32 x)
    { bits := intBits 32 r.1, flags := r.2.1, seed := r.2.2 })

/-- VCVTW2F (R337, R338). -/
def execVcvtw2f (d a sv : BitVec 4) (k : BitVec 3) (z : BitVec 1) (s : State) : Host.Outcome State Fault Refusal :=
  vcvt (Enc.vcvtw2f d a sv k z) d.toNat a.toNat sv.toNat k.toNat (z == 1) 16 32 32 s (fun c x => roundTo fmtFP32 c (xvInt (bitsInt 32 x)))

/-- VCVTW2I8 (R337, R338). -/
def execVcvtw2i8 (d a sv : BitVec 4) (k : BitVec 3) (z : BitVec 1) (s : State) : Host.Outcome State Fault Refusal :=
  vcvt (Enc.vcvtw2i8 d a sv k z) d.toNat a.toNat sv.toNat k.toNat (z == 1) 16 32 8 s (narrowC 8)

/-- VCVTI82W (R337, R338). -/
def execVcvti82w (d a sv : BitVec 4) (k : BitVec 3) (z : BitVec 1) (s : State) : Host.Outcome State Fault Refusal :=
  vcvt (Enc.vcvti82w d a sv k z) d.toNat a.toNat sv.toNat k.toNat (z == 1) 16 8 32 s (wideC fun x => intBits 32 (bitsInt 8 x))

/-- VCVTW2I4 (R337, R338). -/
def execVcvtw2i4 (d a sv : BitVec 4) (k : BitVec 3) (z : BitVec 1) (s : State) : Host.Outcome State Fault Refusal :=
  vcvt (Enc.vcvtw2i4 d a sv k z) d.toNat a.toNat sv.toNat k.toNat (z == 1) 16 32 4 s (narrowC 4)

/-- VCVTI42W (R337, R338). -/
def execVcvti42w (d a sv : BitVec 4) (k : BitVec 3) (z : BitVec 1) (s : State) : Host.Outcome State Fault Refusal :=
  vcvt (Enc.vcvti42w d a sv k z) d.toNat a.toNat sv.toNat k.toNat (z == 1) 16 4 32 s (wideC fun x => intBits 32 (bitsInt 4 x))

/-- VCVTD2F (R337, R338). -/
def execVcvtd2f (d a sv : BitVec 4) (k : BitVec 3) (z : BitVec 1) (s : State) : Host.Outcome State Fault Refusal :=
  vcvt (Enc.vcvtd2f d a sv k z) d.toNat a.toNat sv.toNat k.toNat (z == 1) 8 64 32 s (floatC fmtFP64 fmtFP32)

/-- VCVTF2D (R337, R338). -/
def execVcvtf2d (d a sv : BitVec 4) (k : BitVec 3) (z : BitVec 1) (s : State) : Host.Outcome State Fault Refusal :=
  vcvt (Enc.vcvtf2d d a sv k z) d.toNat a.toNat sv.toNat k.toNat (z == 1) 8 32 64 s (wideF fmtFP32 fmtFP64)

/-- VQNT (R339). -/
def execVqnt (d a q : BitVec 4) (k : BitVec 3) (l : BitVec 2) (s : State) : Host.Outcome State Fault Refusal :=
  vthr 4 (Enc.vqnt d a q k l) [d.toNat, a.toNat] s fun e s =>
    let w := laneW l.toNat
    let qw := q.toNat
    let va := vecGet e s a.toNat
    let r := quantise (2 ^ qw - 1) ((List.range (laneN w)).map fun i => (active e.sl k.toNat i, decodeF (laneFmt l.toNat) (lane w va i)))
    orFlags (vecSet e s d.toNat (ofLanes qw r.2.1 + r.1 * 2 ^ 480)) e.t r.2.2

/-- VDQNT (R252, R340). -/
def execVdqnt (d a q : BitVec 4) (k : BitVec 3) (z : BitVec 1) (l : BitVec 2) (s : State) : Host.Outcome State Fault Refusal :=
  thr 4 (Enc.vdqnt d a q k z l) s fun e => do
    ringGate e
    chk e [] [] [] [d.toNat, a.toNat]
    let (s, n) ← takeRing e e.s false false
    let w := laneW l.toNat
    let va := vecGet e s a.toNat
    let entry := va / 2 ^ 480
    if qEntryOk entry (if q = 4 then 15 else 255) then
      return done e (putLanes e (setRing s e.t n .done) d.toNat w (laneN w) k.toNat (z == 1)
        (roundLanes e k.toNat (laneN w) e.sl.csr.fseed fun seed i =>
          roundTo (laneFmt l.toNat) { rcOf e.sl with seed := seed } (qValue entry (lane q.toNat va i))))
    else return done e (setRing s e.t n (.faulted 0x15))

/-- BADDQ (R341). -/
def execBaddq (d a b : BitVec 4) (l : BitVec 1) (s : State) : Host.Outcome State Fault Refusal :=
  vthr 4 (Enc.baddq d a b l) [d.toNat, a.toNat, b.toNat] s fun e s =>
    let r := baddq (if l = 0 then 8 else 4) (rcOf e.sl) (vecGet e s a.toNat) (vecGet e s b.toNat)
    setSeed (orFlags (vecSet e s d.toNat r.1) e.t r.2.1) e.t r.2.2

/-- VBEXP (R342). -/
def execVbexp (d a b : BitVec 4) (k : BitVec 3) (l : BitVec 2) (s : State) : Host.Outcome State Fault Refusal :=
  vthr 4 (Enc.vbexp d a b k l) ([d.toNat, a.toNat] ++ if l = 1 then [] else [b.toNat]) s fun e s =>
    let fm := laneFmt l.toNat
    let va := vecGet e s a.toNat
    let vb := vecGet e s b.toNat
    let elems := (List.range 32).filterMap fun i =>
      if active e.sl k.toNat i then some (if l = 1 then lane 16 va i else if i < 16 then lane 32 va i else lane 32 vb (i - 16)) else none
    let es := elems.filterMap fun b => if xIsZero (decodeF fm b) then none else some (blockExp fm b)
    let code : Nat := if elems.any fun b => !xFinite (decodeF fm b) then 0xFF
      else if es.isEmpty then 0 else (es.foldl max (es.headD 0) + 127).toNat
    vecSet e s d.toNat code

/-- VBSC (R343). -/
def execVbsc (d a b : BitVec 4) (k : BitVec 3) (z : BitVec 1) (l : BitVec 2) (s : State) : Host.Outcome State Fault Refusal :=
  vthr 4 (Enc.vbsc d a b k z l) [d.toNat, a.toNat, b.toNat] s fun e s =>
    let w := laneW l.toNat
    let va := vecGet e s a.toNat
    let c := vecGet e s b.toNat % 256
    putLanes e s d.toNat w (laneN w) k.toNat (z == 1) (roundLanes e k.toNat (laneN w) e.sl.csr.fseed fun seed i =>
      roundTo (laneFmt l.toNat) { rcOf e.sl with seed := seed } (plusZero (xBlock c (decodeF (laneFmt l.toNat) (lane w va i)))))

/-- VBCAST (R349). -/
def execVbcast (v : BitVec 4) (a b : BitVec 7) (s : State) : Host.Outcome State Fault Refusal :=
  vxg (Enc.vbcast v a b) v.toNat a.toNat b.toNat s fun x c _ =>
    ofLanes (ctlW c) ((List.range (laneN (ctlW c))).map fun _ => x.toNat)

/-- VEXTR (R349). -/
def execVextr (d : BitVec 7) (v : BitVec 4) (b : BitVec 7) (s : State) : Host.Outcome State Fault Refusal :=
  thr 4 (Enc.vextr d v b) s fun e => do
    ringGate e
    chk e [b.toNat] [d.toNat] [] [v.toNat]
    let (s, n) ← takeRing e e.s false false
    let (s, c) ← readR e s b.toNat
    let s ← writeR e (setRing s e.t n .done) d.toNat (wd (lane (ctlW c) (vecGet e s v.toNat) (ctlI c)))
    return done e s

/-- VINS (R349). -/
def execVins (v : BitVec 4) (a b : BitVec 7) (s : State) : Host.Outcome State Fault Refusal :=
  vxg (Enc.vins v a b) v.toNat a.toNat b.toNat s fun x c old =>
    let w := ctlW c
    ofLanes w ((List.range (laneN w)).map fun i => if i = ctlI c then x.toNat else lane w old i)

/-- VIOTA (R349). -/
def execViota (v : BitVec 4) (a b : BitVec 7) (s : State) : Host.Outcome State Fault Refusal :=
  vxg (Enc.viota v a b) v.toNat a.toNat b.toNat s fun x c _ =>
    ofLanes (ctlW c) ((List.range (laneN (ctlW c))).map fun i => x.toNat + i)

/-- VADD_FH (R266, R299, R329). -/
def execVaddFh (d a : BitVec 5) (s : State) : Host.Outcome State Fault Refusal :=
  vint 2 (Enc.vaddFh d a) [d.toNat, a.toNat] d.toNat d.toNat a.toNat 0 false 2 s (plainL fun _ x y => x + y)

/-- VSUB_FH (R266, R299, R329). -/
def execVsubFh (d a : BitVec 5) (s : State) : Host.Outcome State Fault Refusal :=
  vint 2 (Enc.vsubFh d a) [d.toNat, a.toNat] d.toNat d.toNat a.toNat 0 false 2 s (plainL fun w x y => x + 2 ^ w - y)

/-- VMUL_FH (R266, R299, R329). -/
def execVmulFh (d a : BitVec 5) (s : State) : Host.Outcome State Fault Refusal :=
  vint 2 (Enc.vmulFh d a) [d.toNat, a.toNat] d.toNat d.toNat a.toNat 0 false 2 s (plainL fun _ x y => x * y)

/-- VAND_FH (R266, R299, R329). -/
def execVandFh (d a : BitVec 5) (s : State) : Host.Outcome State Fault Refusal :=
  vint 2 (Enc.vandFh d a) [d.toNat, a.toNat] d.toNat d.toNat a.toNat 0 false 2 s (plainL fun _ x y => x &&& y)

/-- VOR_FH (R266, R299, R329). -/
def execVorFh (d a : BitVec 5) (s : State) : Host.Outcome State Fault Refusal :=
  vint 2 (Enc.vorFh d a) [d.toNat, a.toNat] d.toNat d.toNat a.toNat 0 false 2 s (plainL fun _ x y => x ||| y)

/-- VXOR_FH (R266, R299, R329). -/
def execVxorFh (d a : BitVec 5) (s : State) : Host.Outcome State Fault Refusal :=
  vint 2 (Enc.vxorFh d a) [d.toNat, a.toNat] d.toNat d.toNat a.toNat 0 false 2 s (plainL fun _ x y => x ^^^ y)

/-- VSLL_FH (R266, R299, R329). -/
def execVsllFh (d a : BitVec 5) (s : State) : Host.Outcome State Fault Refusal :=
  vint 2 (Enc.vsllFh d a) [d.toNat, a.toNat] d.toNat d.toNat a.toNat 0 false 2 s (plainL fun w x y => x <<< (y % w))

/-- VSRL_FH (R266, R299, R329). -/
def execVsrlFh (d a : BitVec 5) (s : State) : Host.Outcome State Fault Refusal :=
  vint 2 (Enc.vsrlFh d a) [d.toNat, a.toNat] d.toNat d.toNat a.toNat 0 false 2 s (plainL fun w x y => x >>> (y % w))

/-- VSRA_FH (R266, R299, R329). -/
def execVsraFh (d a : BitVec 5) (s : State) : Host.Outcome State Fault Refusal :=
  vint 2 (Enc.vsraFh d a) [d.toNat, a.toNat] d.toNat d.toNat a.toNat 0 false 2 s (plainL fun w x y => sraL w x (y % w))

/-- VMIN_FH (R266, R299, R329). -/
def execVminFh (d a : BitVec 5) (s : State) : Host.Outcome State Fault Refusal :=
  vint 2 (Enc.vminFh d a) [d.toNat, a.toNat] d.toNat d.toNat a.toNat 0 false 2 s (plainL fun w x y => if sltL w x y then x else y)

/-- VMAX_FH (R266, R299, R329). -/
def execVmaxFh (d a : BitVec 5) (s : State) : Host.Outcome State Fault Refusal :=
  vint 2 (Enc.vmaxFh d a) [d.toNat, a.toNat] d.toNat d.toNat a.toNat 0 false 2 s (plainL fun w x y => if sltL w x y then y else x)

/-- VMOV_FH (R266, R299, R333). -/
def execVmovFh (d a : BitVec 5) (s : State) : Host.Outcome State Fault Refusal :=
  vmove 2 (Enc.vmovFh d a) [d.toNat, a.toNat] d.toNat a.toNat 0 0 false 2 s fun a _ _ _ i => a i

/-- VFADD_FH (R266, R299, R330). -/
def execVfaddFh (d a : BitVec 5) (s : State) : Host.Outcome State Fault Refusal :=
  vflt 2 (Enc.vfaddFh d a) [d.toNat, a.toNat] d.toNat d.toNat a.toNat 0 false 2 s (roundL fun r x y _ => xAdd r x y)

/-- VFMUL_FH (R266, R299, R330). -/
def execVfmulFh (d a : BitVec 5) (s : State) : Host.Outcome State Fault Refusal :=
  vflt 2 (Enc.vfmulFh d a) [d.toNat, a.toNat] d.toNat d.toNat a.toNat 0 false 2 s (roundL fun _ x y _ => xMul x y)

/-- VECTOR_DEFERRED_RESULT (R327). -/
def execVectorDeferredResult (core slot : Nat) (s : State) : Host.Outcome State Fault Refusal :=
  .next <|
  let t : Tid := { core := core, slot := slot }
  let e := unitEnv s t
  match e.sl.defer with
  | [] => s
  | v :: r =>
    let s := modSlot s t fun sl => { sl with defer := r }
    let s := v.writes.foldl (fun s w => regSet s t e.sl w.1 w.2) s
    orFlags (setRing s t v.seq .done) t v.flags

end Sys2Proof.Machine
end

