-- ==== Sys2Proof/Machine/VectorMem.lean ====
section
/-!
DEFINITION. Vector memory instructions (R344 to R348).
-/

namespace Sys2Proof.Machine

/-! ### Lanes (R344, R345) -/

/-- How a page's format is delivered at a lane width (R345): 0 storage bytes, 1 sign-extended integer, 2 float lane,
3 FORMAT. A format of exactly w bits is storage bytes, also for lt 0 (log 36). -/
def laneKind (c lt : Nat) : Nat :=
  let w := laneW lt
  if c = 0 then 0
  else match fmtInt c with
    | some b => if b = w then 0 else if b < w then 1 else 3
    | none => match fmtFloat c with
      | some f => if f.w = w && (w != 16 || c == 0x08) then 0 else if lt = 0 then 3 else 2
      | none => if lt = 0 || elBits c = 0 then 3 else 2

/-- Whether an address is translated by a page. -/
def isPaged (va : Word) : Bool := 0x1000000 ≤ va.toNat && va.toNat < scrBase

/-- The page that governs an address, as a format and an alignment need it: none where it has no page or its translation
faults. The fault itself is a later check; a page that the core does not know yet is asked for (R152, R193, R346). -/
def pageKnown (e : Env) (va : Word) (slack : Nat) : X (Option TlbEnt) :=
  if !isPaged va then .ok none
  else match tlbFind e.s e.t.core e.sl.ctx va.toNat with
    | some x => .ok (some x)
    | none => if (missFault e.sl va.toNat).isSome then .ok none else .error (.miss va 0 slack)

/-- The format that decides how elements are counted: that of the page, 0 where it is not converted. -/
def countFmt (x : Option TlbEnt) (lt : Nat) : Nat :=
  match x with
  | some x => if laneKind (entFmt x) lt = 3 then 0 else entFmt x
  | none => 0

/-- Bytes and elements of the unit of address of a lane. -/
def laneCell (c lt : Nat) : Nat × Nat := if laneKind c lt = 0 then (laneW lt / 8, 1) else elCell c

/-- Whether an address is aligned for its lane (R346): the element size; for S24N the first byte of a group. -/
def laneAligned (x : Option TlbEnt) (lt : Nat) (va : Word) : Bool :=
  let c := countFmt x lt
  let (cb, per) := laneCell c lt
  if per = 24 then (va.toNat - (x.map entBase).getD 0) % cb == 0 else va.toNat % cb == 0

/-- The address of lane i and the place of its element in its unit of address (R344): `mode` 0 counts from base, 1 is
strided, 2 indexed. -/
def laneAddr (e : Env) (mode b lt : Nat) (ld : Bool) (base : Word) (page : Option TlbEnt) (i : Nat) : Word × Nat :=
  let w := laneW lt
  if mode = 1 then (base + wd i * regGet e.s e.t e.sl (8 * b), 0)
  else
    let j := if mode = 2 then lane w (vecGet e e.s b) i else i
    if !ld then (base + wd (j * (w / 8)), 0)
    else
      let (cb, per) := laneCell (countFmt page lt) lt
      (base + wd (j / per * cb), j % per)

/-- Where a lane's element lies, and the late fault that its page gives (R344, R345). -/
def lanePlan (e : Env) (mode lt : Nat) (ld : Bool) (page : Option TlbEnt) (i : Nat) (va : Word) (sub : Nat) (k : Nat) (ent : TlbEnt) (paged : Bool) : VLane :=
  let w := laneW lt
  let raw : VLane := { lane := i, key := k, bytes := w / 8 }
  if !ld then raw
  else
    let id := fun (p : Option TlbEnt) => match p with | some x => (entFmt x, entGeom x) | none => (0, 0)
    let own := if paged then some ent else none
    let c := (id own).1
    if mode != 1 && id own != id page then { raw with pre := some 0x15 }
    else match laneKind c lt with
      | 0 => raw
      | 3 => { raw with pre := some 0x15 }
      | _ =>
        let (cb, per) := elCell c
        let off := va.toNat - entBase ent
        let n := off / cb * per + sub
        let l : VLane := { lane := i, key := k, bytes := cb, hi := per == 2 && sub == 1, code := c, pos := if per = 24 then sub else 0 }
        if off + cb > entLen ent then { l with pre := some 0x15 }
        else if (unitOf c (entGeom ent)).2 = 0 then l
        else match physKey e.s (getCtx e.s e.sl.ctx).fn (companionPa ent n) with
          | some q => { l with ent := some q }
          | none => { l with pre := some 0x08 }

/-- A lane's alignment, by the page that governs it (R344, R346): the base's for a counted load, the lane's own for a strided
one, none for a store. -/
def laneCheck (e : Env) (mode lt slack : Nat) (ld : Bool) (page : Option TlbEnt) (va : Word) : X Unit := do
  let p ← if ld && mode = 1 then pageKnown e va slack else pure page
  need (laneAligned p lt va) 0x03 va

/-- The lanes of an instruction after its precise checks (R193, R346): alignment of every active lane, then translation of the
pages that active lanes touch. -/
def vplan (e : Env) (mode a b k lt slack : Nat) (ld : Bool) : X (List (VLane × Word)) := do
  let base := regGet e.s e.t e.sl a
  let act := (List.range (laneN (laneW lt))).filter (active e.sl k)
  if act.isEmpty then return []
  let page ← if ld && mode != 1 then pageKnown e base slack else pure none
  let at' := act.map fun i => (i, laneAddr e mode b lt ld base page i)
  let _ ← at'.mapM fun x => laneCheck e mode lt slack ld page x.2.1
  at'.mapM fun x => do
    match ← place e x.2.1 (if ld then 1 else 2) slack with
    | .mem q ent paged => return (lanePlan e mode lt ld page x.1 x.2.1 x.2.2 q ent paged, x.2.1)
    | _ => trapX 0x08 x.2.1

/-! ### Completion (R194, R347) -/

/-- A word as an access of its line reads it: several accesses of one gather may read it (R159). -/
def accWord (dup w : Nat) : Nat := dup * 2 ^ 64 + w

/-- Bytes that the replies to an access have brought, from key k. -/
def gotBytes (got : SMap Word) (dup k n : Nat) : Nat :=
  leNat ((List.range n).map fun i => BitVec.ofNat 8 ((smGet 0 got (accWord dup ((k + i) / 8))).toNat >>> (8 * ((k + i) % 8))))

/-- The words of the companion entry that a lane reads. -/
def laneEnt (l : VLane) : List Nat := match l.ent with | some q => wordsOf q (unitOf l.code 0).2 | none => []

/-- The words that a lane reads, by access. -/
def laneWords (l : VLane) : List Nat := (wordsOf l.key l.bytes).map (accWord l.dup) ++ (laneEnt l).map (accWord 0)

/-- The late fault of a lane. -/
def laneFault (v : VOp) (l : VLane) : Option (BitVec 8) :=
  match l.pre with
  | some c => some c
  | none => (laneWords l).findSome? fun w => (v.errs.find? fun e => e.1 == w).map (·.2)

/-- A loaded lane: its bits, flags, and the generator state, or the late fault (R345). -/
def laneValue (v : VOp) (seed : BitVec 32) (l : VLane) : Except (BitVec 8) FR :=
  match laneFault v l with
  | some c => .error c
  | none =>
    let raw := gotBytes v.got l.dup l.key l.bytes
    let w := laneW v.lt
    match laneKind l.code v.lt with
    | 0 => .ok { bits := raw, seed := seed }
    | 1 =>
      let b := (fmtInt l.code).getD w
      .ok { bits := intBits w (bitsInt b (if l.hi then raw / 16 else raw)), seed := seed }
    | _ =>
      match elemVal l.code (if l.hi then raw / 16 else raw) l.pos (match l.ent with | some q => gotBytes v.got 0 q (unitOf l.code 0).2 | none => 0) with
      | .error c => .error c
      | .ok x => .ok (roundTo (laneFmt v.lt) { rm := v.rm, sat := v.sat, seed := seed } x)

/-- Lanes delivered in ascending order up to the first that faults: lanes, flags, cause (R194). -/
def deliverLanes (v : VOp) : List VLane → BitVec 32 → List (Nat × Nat) × BitVec 6 × Option (BitVec 8)
  | [], _ => ([], 0, none)
  | l :: r, seed =>
    match laneValue v seed l with
    | .error c => ([], 0, some c)
    | .ok x =>
      let (ls, f, c) := deliverLanes v r x.seed
      ((l.lane, x.bits) :: ls, x.flags ||| f, c)

/-- The least late fault of a store's lanes. -/
def storeFault (v : VOp) : Option (BitVec 8) := v.plan.findSome? (laneFault v)

/-- The window register group with lanes replaced. -/
def lanesPut (w old : Nat) (ls : List (Nat × Nat)) : Nat :=
  ofLanes w ((List.range (512 / w)).map fun i => match ls.find? fun x => x.1 == i with | some x => x.2 | none => lane w old i)

/-- The instruction ends when no access of it is outstanding and none is still to be made: lanes, flags, ring entry, ticket
(R347). -/
def vopEnd (s : State) (t : Tid) (op : Nat) : State :=
  let sl := getSlot s t
  match sl.vops.find? fun v => v.op == op with
  | none => s
  | some v =>
    if !v.todo.isEmpty || sl.infl.any fun i => i.op == op then s
    else
      let s := setSlot s t { sl with vops := sl.vops.filter fun x => x.op != op }
      let (s, c) :=
        if v.isLd then
          let (ls, f, c) := deliverLanes v v.plan v.seed
          let e : Env := { s := s, t := t, sl := sl, enc := 0, npc := 0 }
          (orFlags (vecSet e s v.vd (lanesPut (laneW v.lt) (vecGet e s v.vd) ls)) t f, c)
        else (s, storeFault v)
      let s := setRing s t v.seq (match c with | some c => .faulted c | none => .done)
      match v.tick with
      | some n => completeTicket s t 4 n none
      | none => s

/-- What a reply to a vector access brings: words of a line with their failures, or a fault of the whole access. -/
def vopReply (s : State) (t : Tid) (op dup line mask : Nat) (r : Res) : State :=
  let ws := (List.range 8).filter fun i => (mask >>> i) % 2 = 1
  let key := fun i => accWord dup (line * 8 + i)
  modSlot s t fun sl => { sl with vops := sl.vops.map fun v =>
    if v.op != op then v
    else match r with
      | .words l =>
        { v with got := ws.foldl (fun m i => smIns (key i) (wAt l i) (smDel m (key i))) v.got,
                 errs := ws.foldl (fun m i =>
                   if bitAt (wAt l 8) i then smIns (key i) 0x18 (smDel m (key i))
                   else if bitAt (wAt l 9) i then smIns (key i) 0x14 (smDel m (key i)) else m) v.errs }
      | .fault c _ => { v with errs := ws.foldl (fun m i => smIns (key i) c (smDel m (key i))) v.errs }
      | _ => v }

/-! ### Issue -/

/-- An access of a vector instruction: its line and which access of it, the mask of words, the address of its first byte. -/
structure LineAcc where
  dup  : Nat := 0
  line : Nat := 0
  mask : Nat := 0
  va   : Word := 0
  deriving DecidableEq, Repr

/-- The lesser of two addresses: the first byte of a merged access (R43). -/
def minVa (a b : Word) : Word := if b.ult a then b else a

/-- A word put to the accesses of an instruction, merged with those of its line (R346). -/
def addWord (l : List LineAcc) (dup w : Nat) (va : Word) : List LineAcc :=
  if l.any fun x => x.dup == dup && x.line == w / 8 then
    l.map fun x => if x.dup = dup ∧ x.line = w / 8 then { x with mask := x.mask ||| 2 ^ (w % 8), va := minVa x.va va } else x
  else l ++ [{ dup := dup, line := w / 8, mask := 2 ^ (w % 8), va := va }]

/-- The accesses of a load's lanes; a lane of a gather that names a word which an earlier lane names reads it in an access of
its own (R159, R347). -/
def loadLanes (gather : Bool) (plan : List (VLane × Word)) : List (VLane × Word) × List LineAcc :=
  plan.foldl (fun r p =>
    let ws := wordsOf p.1.key p.1.bytes
    let free := fun d => !(ws.any fun w => r.2.any fun x => x.dup == d && x.line == w / 8 && (x.mask >>> (w % 8)) % 2 == 1)
    let d := if gather then ((List.range 64).find? free).getD 0 else 0
    let acc := ws.foldl (fun l w => addWord l d w (if w * 8 ≤ p.1.key then p.2 else p.2 + wd (w * 8 - p.1.key))) r.2
    (r.1 ++ [({ p.1 with dup := d }, p.2)], (laneEnt p.1).foldl (fun l w => addWord l 0 w p.2) acc)) ([], [])

/-- An access sent to the home of its line. -/
def vsend (e : Env) (s : State) (op : Nat) (ld : Bool) (dup line mask slack : Nat) (va : Word) (cells : List Host.Cell) : State :=
  let id := nextAcc (getSlot s e.t)
  let h := (homeOf (line * 64)).getD 0
  let s := modSlot s e.t fun sl => { sl with infl := sl.infl ++ [{ id := id, op := op, kind := if ld then .vload else .store, home := h, line := line, dup := dup }] }
  let ret := Ret.access e.t (e.sl.uid.getD 0) id mask va
  send s (if ld then 0 else 1) slack (coreUnit e.t.core) h (if ld then .load (line * 64) 64 ret else .store cells ret)

/-- One line of a load: read at once at the issuing core and in host memory, sent elsewhere. -/
def loadLine (e : Env) (op slack : Nat) (s : State) (x : LineAcc) : X State :=
  let k := x.line * 64
  if isLocal e k || isHost k then do
    if isLocal e k then localGate e s 0 k
    let (s, r) := readLine s x.line x.mask
    let s := vopReply s e.t op x.dup x.line x.mask r
    return if isLocal e k then localNote e s 0 k else s
  else return vsend e s op true x.dup x.line x.mask slack x.va []

/-- The lines of a store: line, mask of the words touched, first address, bytes in rising order; a later lane's byte
stands (R179). -/
def storeLines (w v : Nat) (plan : List (VLane × Word)) : List (Nat × Nat × Word × List Host.Cell) :=
  plan.foldl (fun ls p =>
    let line := p.1.key / 64
    let cells := (List.range (w / 8)).map fun j => (p.1.key + j, BitVec.ofNat 8 (lane w v p.1.lane >>> (8 * j)))
    let put := fun (m : List Host.Cell) => cells.foldl (fun m c => smIns c.1 c.2 (smDel m c.1)) m
    if ls.any fun x => x.1 == line then
      ls.map fun x => if x.1 = line then (x.1, x.2.1 ||| 2 ^ (p.1.key / 8 % 8), minVa x.2.2.1 p.2, put x.2.2.2) else x
    else ls ++ [(line, 2 ^ (p.1.key / 8 % 8), p.2, put [])]) []

/-- The accesses of a vector store in order, each made when those before it are complete, since a fault of one ends the store
below it (R194, R347, log 36): what is still to be made. An access stays while the home's ring, replay or the outbound buffer
does not let it go (R95, R190, R209). -/
def storeGo (e : Env) (op slack : Nat) : List (Nat × Nat × Word × List Host.Cell) → State → State × List (Nat × Nat × Word × List Host.Cell)
  | [], s => (s, [])
  | x :: r, s =>
    let k := x.1 * 64
    if (getSlot s e.t).infl.any fun i => i.op == op then (s, x :: r)
    else if isLocal e k then
      if localFree e s 1 k then storeGo e op slack r (storeAtHome (localNote e s 1 k) x.2.2.2) else (s, x :: r)
    else if isHost k then storeGo e op slack r (storeAtHome s x.2.2.2)
    else if outRoom s e.t.core 0 then storeGo e op slack r (vsend e s op false 0 x.1 x.2.1 slack x.2.2.1 x.2.2.2)
    else (s, x :: r)

/-- A vector store carried on: the instruction is over when its last access is made, or an earlier one faulted. -/
def storeOn (e : Env) (op slack : Nat) (s : State) : X State :=
  match (getSlot s e.t).vops.find? fun v => v.op == op with
  | none => return done e s
  | some v =>
    let (s, left) := if (storeFault v).isSome then (s, []) else storeGo e op slack v.todo s
    let s := modSlot s e.t fun sl => { sl with vops := sl.vops.map fun v => if v.op = op then { v with todo := left } else v }
    if left.isEmpty then return done e (vopEnd s e.t op)
    else .error (.keep (modSlot s e.t fun sl => { sl with wait := some .cond, ph := [wd op] }))

/-- The generator after the lanes that round (R259, log 36). -/
def seedAfter (n rm : Nat) (x : BitVec 32) : BitVec 32 := if rm = 5 then (List.range n).foldl (fun x _ => xorshift x) x else x

/-- VLD, VLDS and VGATH: mode 0 counts, 1 strided, 2 indexed. -/
def vloadOp (enc : BitVec 32) (mode v a b k lt sk : Nat) (s : State) : Host.Outcome State Fault Refusal :=
  thr 4 enc s fun e => do
    ringGate e
    chk e [] [] (if mode = 1 then [a, 8 * b] else [a]) (if mode = 2 then [v, b] else [v])
    let slack := skOf e.sl.csr sk
    let plan ← vplan e mode a b k lt slack true
    let (s, n) ← takeRing e e.s false false
    let c := rcOf e.sl
    let good := plan.takeWhile fun p => p.1.pre.isNone
    let (lanes, lines) := loadLanes (mode == 2) good
    let op := n.toNat + 1
    let vop : VOp := { op := op, seq := n, vd := v, lt := lt, plan := (lanes ++ plan.drop good.length).map (·.1), rm := c.rm, sat := c.sat, seed := c.seed }
    let s := setSeed s e.t (seedAfter (good.filter fun p => laneKind p.1.code lt == 2).length c.rm c.seed)
    let s := modSlot s e.t fun sl => { sl with vops := sl.vops ++ [vop] }
    let s ← lines.foldlM (loadLine e op slack) s
    return done e (vopEnd s e.t op)

/-- VST, VSTS and VSCAT. The number of a store that has begun stands in `ph`. -/
def vstoreOp (enc : BitVec 32) (mode v a b k lt sk : Nat) (s : State) : Host.Outcome State Fault Refusal :=
  thr 4 enc s fun e => do
    let slack := skOf e.sl.csr sk
    match e.sl.ph with
    | op :: _ => storeOn e op.toNat slack e.s
    | [] => do
      ringGate e
      chk e [] [] (if mode = 1 then [a, 8 * b] else [a]) (if mode = 2 then [v, b] else [v])
      let plan ← vplan e mode a b k lt slack false
      let (s, n) ← takeRing e e.s false false
      let lines := storeLines (laneW lt) (vecGet e e.s v) plan
      await (storesInFlight e.sl < 1023)
      let op := n.toNat + 1
      let away := lines.any fun x => !isLocal e (x.1 * 64)
      let (s, num) := if away then takeTicket s e.t 4 else (s, 0)
      let vop : VOp := { op := op, seq := n, vd := v, lt := lt, isLd := false, plan := plan.map (·.1), tick := if away then some num else none, todo := lines }
      storeOn e op slack (modSlot s e.t fun sl => { sl with vops := sl.vops ++ [vop] })

/-! ### VLDF (R348) -/

/-- A ring entry removed: a VLDF that is withdrawn or that faults precisely (R348). -/
def dropRing (s : State) (t : Tid) (seq : BitVec 32) : State :=
  modSlot s t fun sl => { sl with ring := sl.ring.filter fun r => r.seq != seq }

/-- The 64 bytes delivered: lanes below the first failing byte, if any (R347). -/
def vldfLanes (e : Env) (k lt : Nat) (l : List Word) : List (Nat × Nat) :=
  let w := laneW lt
  let bad := if wAt l 8 = 0 then 64 else fld (wAt l 8) 15 0
  let v := (List.range 8).foldl (fun a j => a + (wAt l j).toNat * 2 ^ (64 * j)) 0
  let act := (List.range (laneN w)).filter (active e.sl k)
  (act.takeWhile fun i => (i + 1) * (w / 8) ≤ bad).map fun i => (i, lane w v i)

/-- The 32-bit words of 64 bytes from a key that active lanes touch, ascending. -/
def vldfNeed (e : Env) (k lt key : Nat) : List Nat :=
  let w := laneW lt
  ((List.range 16).filter fun j => (List.range (laneN w)).any fun i =>
    active e.sl k i && decide (i * (w / 8) < 4 * j + 4 && 4 * j < (i + 1) * (w / 8))).map fun j => key / 4 + j

/-- VLDF. A home in reset answers with UNCORRECTABLE, which is late with no lane written (R207, R347); a deadline or a lost wait
is precise (R348). -/
def vldfOp (enc : BitVec 32) (v a k lt sk : Nat) (s : State) : Host.Outcome State Fault Refusal :=
  thr 4 enc s fun e => do
    if e.sl.ph.isEmpty then ringGate e
    chk e [] [] [a] [v]
    let ea := regGet e.s e.t e.sl a
    match e.sl.ph with
    | q :: _ => do
      let seq : BitVec 32 := q.setWidth 32
      match gotReply e [q] with
      | some (.words l) => do
        let s := vecSet e e.s v (lanesPut (laneW lt) (vecGet e e.s v) (vldfLanes e k lt l))
        let s := setRing s e.t seq (if wAt l 8 = 0 then .done else .faulted (BitVec.ofNat 8 (fld (wAt l 8) 23 16)))
        return done e s
      | some (.fault c va) =>
        if c = 0x18 then return done e (setRing e.s e.t seq (.faulted c))
        else .error (.trapIn (dropRing e.s e.t seq) c va e.sl.pc)
      | _ => .error .cond
    | [] => do
      aligned ea 4
      let slack := skOf e.sl.csr sk
      let key ← (do
        match ← place e ea 1 slack with
        | .mem q _ _ => if isScr q && (q - scrBase) % 0x100000 + 64 ≤ scrSize (keyCore q) then return q else trapX 0x08 ea
        | _ => trapX 0x08 ea : X Nat)
      let (s, n) ← takeRing e e.s false false
      let op : SyncOp := { kind := 4, key := key, bytes := 64, need := vldfNeed e k lt key, limit := syncLimit e.sl, va := ea, ret := retOf e ea }
      .error (sendWait e s [n.setWidth 64] ((List.range 8).map fun j => 8 * v + j) 3 slack ((homeOf key).getD 0) (.sync op))

/-- VLD (R344 to R347). -/
def execVld (v : BitVec 4) (a : BitVec 7) (k : BitVec 3) (l sv : BitVec 2) (s : State) : Host.Outcome State Fault Refusal :=
  vloadOp (Enc.vld v a k l sv) 0 v.toNat a.toNat 0 k.toNat l.toNat sv.toNat s

/-- VST (R344 to R347). -/
def execVst (v : BitVec 4) (a : BitVec 7) (k : BitVec 3) (l sv : BitVec 2) (s : State) : Host.Outcome State Fault Refusal :=
  vstoreOp (Enc.vst v a k l sv) 0 v.toNat a.toNat 0 k.toNat l.toNat sv.toNat s

/-- VLDS (R344 to R347). -/
def execVlds (v : BitVec 4) (a : BitVec 7) (b : BitVec 4) (k : BitVec 3) (l sv : BitVec 2) (s : State) : Host.Outcome State Fault Refusal :=
  vloadOp (Enc.vlds v a b k l sv) 1 v.toNat a.toNat b.toNat k.toNat l.toNat sv.toNat s

/-- VSTS (R344 to R347). -/
def execVsts (v : BitVec 4) (a : BitVec 7) (b : BitVec 4) (k : BitVec 3) (l sv : BitVec 2) (s : State) : Host.Outcome State Fault Refusal :=
  vstoreOp (Enc.vsts v a b k l sv) 1 v.toNat a.toNat b.toNat k.toNat l.toNat sv.toNat s

/-- VGATH (R344 to R347). -/
def execVgath (v : BitVec 4) (a : BitVec 7) (b : BitVec 4) (k : BitVec 3) (l sv : BitVec 2) (s : State) : Host.Outcome State Fault Refusal :=
  vloadOp (Enc.vgath v a b k l sv) 2 v.toNat a.toNat b.toNat k.toNat l.toNat sv.toNat s

/-- VSCAT (R344 to R347). -/
def execVscat (v : BitVec 4) (a : BitVec 7) (b : BitVec 4) (k : BitVec 3) (l sv : BitVec 2) (s : State) : Host.Outcome State Fault Refusal :=
  vstoreOp (Enc.vscat v a b k l sv) 2 v.toNat a.toNat b.toNat k.toNat l.toNat sv.toNat s

/-- VLDF (R344, R348). -/
def execVldf (v : BitVec 4) (a : BitVec 7) (k : BitVec 3) (l sv : BitVec 2) (s : State) : Host.Outcome State Fault Refusal :=
  vldfOp (Enc.vldf v a k l sv) v.toNat a.toNat k.toNat l.toNat sv.toNat s

end Sys2Proof.Machine
end

