-- ==== Sys2Proof/Machine/Deliver.lean ====
section
/-!
DEFINITION. What arrives at a core or service core: replies (R42, R43, R95, R168), wakes (R106, R110, R363), translations
and shoot-downs (R152 to R155), notices (R68), messages, queue elements and links (R124, R134, R320), forwarding (R202).
-/

namespace Sys2Proof.Machine

/-! ### Late replies (R42, R43) -/

/-- A late reply counted for a thread (R42). -/
def lateCount (s : State) (t : Tid) (p : Packet) (va : Word) : State := if p.late.isNone then s else lateAdd s t 1 va

/-- A late packet counted for a continuation that holds no slot: it counts where the thread is next. -/
def lateOff (s : State) (uid : Nat) (p : Packet) (va : Word) : State :=
  if p.late.isNone then s
  else modCont s uid fun k => { k with lateN := k.lateN + 1, lateT := match k.lateT with | some v => some v | none => some va }

/-- LATE_TRAP (R43): the thread takes the trap before its next instruction. -/
def execLateTrap (core : Nat) (slot : Nat) (s : State) : Host.Outcome State Fault Refusal :=
  let t : Tid := { core := core, slot := slot }
  let sl := getSlot s t
  .next (if sl.csr.lateDue && mayIssue s t && !midway sl then
      takeTrap (modCsr s t fun c => { c with lateTval := none, lateDue := false }) t 0x16 (sl.csr.lateTval.getD 0) sl.pc
    else s)

/-! ### Replies (R95) -/

/-- Whether a core may take a coordinate fill: none of a generation below the greatest that its agent shot down (R169). -/
def fillStale (s : State) (core cl gen : Nat) : Bool := decide (gen < smGet 0 (getCore s core).clbGen cl)

/-- A CLB entry installed, victims round-robin (R168). -/
def clbInstall (s : State) (core ctx g tile frame : Nat) : State :=
  modCore s core fun c => { c with
    clb := smSet {} (c.clb.filter fun e => !(e.2.valid && e.2.ctx == ctx && e.2.region == g && e.2.tile == tile)) c.clbNext
      { valid := true, ctx := ctx, region := g, tile := tile, frame := wd frame }
    clbNext := (c.clbNext + 1) % 64 }

/-- A slot whose blocking instruction has its reply: it is back in rotation. -/
def slotReply (s : State) (t : Tid) (r : Option Res) : State :=
  modSlot s t fun sl => { sl with wait := none, res := r, wdrawn := false, coordHit := none, toUnit := none }

/-- A withdrawn access: the slot is ready to issue it anew; a VLDF's ring entry is removed (R137, R189, R348). -/
def slotWithdrawn (s : State) (t : Tid) : State :=
  modSlot s t fun sl => { readied sl with ring := sl.ring.filter fun r => !(r.pc == sl.pc && r.st == .pending) }

/-- The reply of a blocking instruction. -/
def threadReply (s : State) (t : Tid) (uid : Nat) (src : Nat) (r : Res) : State :=
  let sl := getSlot s t
  if sl.uid != some uid || sl.wait != some .reply || sl.res.isSome then s
  else match r with
    | .withdrawn => slotWithdrawn s t
    | .coord _ (some (ctx, g, tile, fr, gen)) =>
      if fillStale s t.core (unitCl src) gen then slotReply s t none
      else slotReply (clbInstall s t.core ctx g tile fr) t (some r)
    | _ => slotReply s t (some r)

/-- The cause that a result gives a ticket. -/
def resCause : Res → Option (BitVec 8)
  | .fault c _ => some c
  | _ => none

/-- The acknowledgement of an access that its slot did not wait for: its ticket, its vector instruction, its ring entry. -/
def accessReply (s : State) (t : Tid) (uid id m : Nat) (r : Res) : State :=
  let sl := getSlot s t
  if sl.uid != some uid then s
  else if id ≥ 2 ^ 40 then
    setRing s t (BitVec.ofNat 32 (id - 2 ^ 40)) (match resCause r with | some c => .faulted c | none => .done)
  else match sl.infl.find? fun i => i.id == id with
    | none => s
    | some i =>
      let s := modSlot s t fun sl => { sl with infl := sl.infl.filter fun x => x.id != id }
      let s := match i.tick with
        | some (tl, n) => completeTicket s t tl n (resCause r)
        | none => s
      if 0 < i.op && i.op < 2 ^ 32 then vopEnd (vopReply s t i.op i.dup i.line m r) t i.op else s

/-- Whether a packet is one that REPLY_DELIVER takes. -/
def isReply (p : Packet) : Bool :=
  match p.body with
  | .reply (.thread _ _ _) _ | .reply (.access _ _ _ _ _) _ | .reply (.shoot _ _) _ | .reply .none _ => true
  | .reply (.task _ _) r => r == .ok
  | .ringDone _ _ _ _ _ _ => true
  | _ => false

/-- REPLY_DELIVER (R42, R95, R154, R168, R362). -/
def execReplyDeliver (unit : Nat) (s : State) : Host.Outcome State Fault Refusal :=
  .next (match takeArrived s unit 1 isReply with
    | none => s
    | some (p, s) =>
      match p.body with
      | .reply (.thread t u va) r => if (getSlot s t).uid = some u then threadReply (lateCount s t p va) t u p.src r else s
      | .reply (.access t u id m va) r => if (getSlot s t).uid = some u then accessReply (lateCount s t p va) t u id m r else s
      | .reply (.shoot cl gen) _ =>
        if unit = treeUnit cl then shootAck (platCount s cl p) cl gen true p else shootAck s cl gen false p
      | .reply (.task cl _) _ => platCount s cl p
      | .ringDone t u seq st f va => if (getSlot s t).uid = some u then orFlags (setRing (lateCount s t p va) t seq st) t f else s
      | _ => s)

/-! ### Wakes (R106, R108, R110, R218, R363) -/

/-- A carry woken: it enters the injection queue of its expert's cluster, untagged, as resumed, at its record's priority (R80,
R88). -/
def wakeCarry (s : State) (cl uid : Nat) (d : Deliv) : State :=
  match (getCl s cl).carries.find? fun c => c.uid == uid with
  | none => s
  | some c =>
    let s := modCont s uid fun k => { k with deliv := some d }
    modCl s cl fun x => { x with inj := x.inj ++ [{ kind := .cont uid (.held c.ws), ctx := c.ctx, prio := recPrio c.ws, resumed := true, since := tickN s }] }

/-- A thread woken: in the slot that it has not yet left, or through the injection queue. The wake of a waiter whose thread took a
fault before it left its slot finds no wait, and has no effect (log 85). -/
def wakeThread (s : State) (core : Nat) (w : Waiter) (p : Packet) (d : Deliv) : State :=
  let t := (retTid w.ret).getD {}
  let sl := getSlot s t
  if sl.uid = some w.uid && sl.demand = some w.handle then
    modSlot (lateCount s t p w.handle) t fun sl => { sl with deliv := some d, wait := none, toUnit := none }
  else if (getCont s w.uid).alive && (getCont s w.uid).bead = some w.handle then
    sendEnqueue (modCont (lateOff s w.uid p w.handle) w.uid fun k => { k with deliv := some d, bead := none }) (coreUnit core) w.uid (.mem w.cont)
  else s

/-- One wake performed; the chain of a root FORCE ends with it. -/
def wakeOf (s : State) (core : Nat) (w : Waiter) (p : Packet) (d : Deliv) : State :=
  if w.kind = 2 then
    match w.ret with
    | .task cl key => operandGot (platCount s cl p) cl key d
    | _ => s
  else
    let s := if w.kind = 0 then wfcFree s w.chain else s
    if w.carry then
      let desc := match (getCont s w.uid).carry with | c :: _ => c.desc | [] => 0
      wakeCarry (lateOff s w.uid p desc) (coreCl core) w.uid d
    else wakeThread s core w p d

/-- WAKE_DELIVER (R106, R110, R113, R363). -/
def execWakeDeliver (core : Nat) (s : State) : Host.Outcome State Fault Refusal :=
  .next (match takeArrived s (coreUnit core) 1 (fun p => match p.body with | .wake _ _ => true | _ => false) with
    | none => s
    | some (p, s) =>
      match p.body with
      | .wake w d => wakeOf s core w p d
      | _ => s)

/-! ### Translation (R151 to R156) -/

/-- TRANSLATION_REQUEST (R152 to R154): the walk, and the fill with the generation at its beginning. -/
def execTranslationRequest (cl : Nat) (s : State) : Host.Outcome State Fault Refusal :=
  let u := coreUnit (svcCore cl)
  .next (
    if !clRuns s cl then s
    else match takeArrived s u 0 (fun p => match p.body with | .xlat _ _ _ _ _ => true | _ => false) with
      | none => s
      | some (p, s) =>
        match p.body with
        | .xlat va kind t ctx _ =>
          let (ws, st) : List Word × BitVec 8 := match walk s ctx va.toNat with
            | .ok e => ([e.w0, e.w1, e.w2], 0)
            | .error c => ([0, 0, 0], c)
          inject s { cls := 20, slack := slackLeft (tickN s) p, late := lateAge (tickN s) p, src := u, dst := p.src,
                     body := .xrep va kind t ctx ws st (getCl s cl).gen }
        | _ => s)

/-- The lengths of two pages of one context overlap. -/
def pagesMeet (a b : TlbEnt) : Bool :=
  let base := fun (e : TlbEnt) => fld e.w0 44 0 * 4096
  let len := fun (e : TlbEnt) => 2 ^ pageLog (fld e.w1 11 9)
  fld a.w0 63 48 == fld b.w0 63 48 && decide (base a < base b + len b) && decide (base b < base a + len a)

/-- A TLB entry installed: overlapping entries of its context go, victims round-robin (R151). -/
def tlbInstall (s : State) (core : Nat) (e : TlbEnt) : State :=
  modCore s core fun c => { c with
    tlb := smSet {} (c.tlb.filter fun x => !pagesMeet x.2 e) c.tlbNext e
    tlbNext := (c.tlbNext + 1) % 256 }

/-- The operations that a core's engines run: its copy commands, and the task of its matrix engine, with their contexts (R142,
R113). -/
def engWants (s : State) (core ctx : Nat) (hit : Nat → Bool) : List EngCmd :=
  (getCore s core).eng.filter fun c => c.ctx == ctx && (match c.tr.want with | some p => hit p | none => false)

/-- The engines of a core that wait for one of the pages take what its translation gave (R152). -/
def engFill (s : State) (core ctx : Nat) (hit : Nat → Bool) (f : EngTr → Nat → EngTr) : State :=
  let up := fun (c : Nat) (x : EngTr) => match x.want with
    | some p => if c == ctx && hit p then { (f x p) with want := none } else x
    | none => x
  let s := modCore s core fun k => { k with eng := k.eng.map fun c => { c with tr := up c.ctx c.tr } }
  modCl s (coreCl core) fun k => { k with tasks := k.tasks.map fun t =>
    if t.st == (.running (coreIdx core)) then { t with tr := up t.bead.ctx t.tr } else t }

/-- The misses of a context in pages that `hit` names are over: their slots are back in rotation, with the fault that the
translation gave. -/
def missDone (s : State) (core ctx : Nat) (hit : Nat → Bool) (xf : Option (BitVec 8 × Word)) : State :=
  let mine := fun (m : Miss) => m.ctx == ctx && hit m.page
  let ts := ((getCore s core).misses.filter mine).flatMap (·.ts)
  let s := modCore s core fun c => { c with misses := c.misses.filter fun m => !mine m }
  ts.foldl (fun s t => modSlot s t fun sl =>
    if sl.uid.isSome && sl.ctx == ctx && sl.wait == some .miss then
      { sl with wait := none, xf := sl.xf ++ xf.toList }
    else sl) s

/-- A late translation reply counted: for the thread whose miss it answers, or for that of the command whose engine missed
(R42). -/
def xrepLate (s : State) (core kind ctx page : Nat) (t : Tid) (p : Packet) (va : Word) : State :=
  if kind < 4 then (if (getSlot s t).uid.isSome && t.core = core then lateCount s t p va else s)
  else match engWants s core ctx (· == page) with
    | c :: _ => lateCount s c.t p c.recA
    | [] => s

/-- TRANSLATION_REPLY (R151, R152, R154, R156, R157): a fill of a stale generation is discarded, and the access misses again. An
entry ends every miss within its page. -/
def execTranslationReply (core : Nat) (s : State) : Host.Outcome State Fault Refusal :=
  .next (match takeArrived s (coreUnit core) 1 (fun p => match p.body with | .xrep _ _ _ _ _ _ _ => true | _ => false) with
    | none => s
    | some (p, s) =>
      match p.body with
      | .xrep va kind t ctx ws st gen =>
        let page := va.toNat / 4096
        let s := xrepLate s core kind ctx page t p va
        let one := fun (n : Nat) => n == page
        if gen < (getCore s core).tlbGen then missDone (engFill s core ctx one fun x _ => x) core ctx one none
        else if st = 0 then
          let e : TlbEnt := { w0 := wAt ws 0, w1 := wAt ws 1, w2 := wAt ws 2 }
          let hit := fun (n : Nat) => n == page || entHit e ctx (n * 4096)
          missDone (engFill (tlbInstall s core e) core ctx hit fun x _ => { x with ents := x.ents ++ [e] }) core ctx hit none
        else missDone (engFill s core ctx one fun x n => { x with flts := x.flts ++ [(n, st)] }) core ctx one (some (st, va))
      | _ => s)

/-- Whether a TLBI removes an entry (R397). -/
def tlbiHits (va : Word) (ctx : Nat) (pages all : Bool) (e : TlbEnt) : Bool :=
  all || (fld e.w0 63 48 == ctx && (pages || entHit e ctx va.toNat))

/-- Whether a slot has an access to memory behind the TLB that has not returned, a spark among them (R155; log 31). -/
def slotBusy (sl : Slot) : Bool :=
  (sl.infl.any fun i => isSliceUnit i.home) || (sl.wait == some .reply && match sl.toUnit with | some u => isSliceUnit u | none => false) ||
    sl.ring.any fun r => r.spark && r.st == .pending

/-- Whether a request to a slice is still under way whose slot a core no longer holds for it: the join of a thread that has
ended, or an access of a continuation that has been discarded, whatever its context was (R155, R206, R354). -/
def joinUnder (s : State) (core ctx : Nat) (all : Bool) : Bool :=
  let gone := fun (r : Ret) => match retUid r with | some u => !(getCont s u).alive | none => false
  s.queues.any fun q => q.2.any fun p => isSliceUnit p.dst &&
    ((p.src == coreUnit core && (match p.body with | .joinRet _ c => all || c == ctx | b => gone (bodyRet b))) ||
      p.peers.any fun m => m.1 == coreUnit core && gone m.2.2.2.2.2)

/-- Whether the reduction queue of a service core's cluster is copying blocks of a context to places that it has translated
(R155, R226). -/
def commitUnder (s : State) (core ctx : Nat) (all : Bool) : Bool :=
  core == svcCore (coreCl core) && (getCl s (coreCl core)).rq.any fun e => e.2.st == 2 && (all || e.2.ctx == ctx)

/-- The entries that a TLBI removes, in a core's TLB and with the operations of its engines, and the generation recorded (R154,
R155). -/
def tlbiTake (s : State) (core gen : Nat) (hits : TlbEnt → Bool) : State :=
  let drop := fun (x : EngTr) => { x with ents := x.ents.filter fun e => !hits e }
  let s := modCore s core fun c => { c with
    tlb := c.tlb.filter fun e => !hits e.2, tlbGen := max c.tlbGen gen, eng := c.eng.map fun g => { g with tr := drop g.tr } }
  modCl s (coreCl core) fun k => { k with tasks := k.tasks.map fun t => if t.st == .running (coreIdx core) then { t with tr := drop t.tr } else t }

/-- TLB_SHOOTDOWN (R154, R155, R397): the entries are removed and the generation recorded; the acknowledgement waits for
the accesses that were translated through them. -/
def execTlbShootdown (core : Nat) (s : State) : Host.Outcome State Fault Refusal :=
  let u := coreUnit core
  .next (match takeArrived s u 0 (fun p => match p.body with | .tlbi _ _ _ _ _ _ => true | _ => false) with
    | none => s
    | some (p, s') =>
      match p.body with
      | .tlbi va ctx pages all gen cl =>
        let upd := fun (s : State) => tlbiTake s core gen (tlbiHits va ctx pages all)
        if ((getCore s core).slots.any fun x => x.2.uid.isSome && (all || x.2.ctx == ctx) && slotBusy x.2) || joinUnder s core ctx all || commitUnder s core ctx all then upd s
        else reply (upd s') 20 u p (.shoot cl gen) .ok
      | _ => s)

/-! ### Notices (R68) -/

/-- NOTICE_DELIVER (R42, R68): a notice enters its service core's queue when there is room; a late one is counted there. -/
def execNoticeDeliver (cl : Nat) (s : State) : Host.Outcome State Fault Refusal :=
  .next (
    if (getCl s cl).notices.length ≥ 256 then s
    else match takeArrived s (coreUnit (svcCore cl)) 1 (fun p => match p.body with | .notice _ => true | _ => false) with
      | none => s
      | some (p, s) =>
        match p.body with
        | .notice n => modCl (platCount s cl p) cl fun c => { c with notices := c.notices ++ [n] }
        | _ => s)

/-- NPOST_WRITE: the notice that a write of npost named is posted to every cluster of its context's partition. -/
def execNpostWrite (cl : Nat) (s : State) : Host.Outcome State Fault Refusal :=
  .next (match (getCl s cl).npost with
    | none => s
    | some n => postNotice (modCl s cl fun c => { c with npost := none }) (coreUnit (svcCore cl)) n (partition s (getCtx s n.ctx).fn))

/-! ### Messages and queue elements (R124, R133, R134, R320) -/

/-- Whether a slot holds a ports thread, in its slot or suspended from it (R123). -/
def portsThread (sl : Slot) : Bool := sl.ports && (sl.uid.isSome || sl.resv.isSome)

/-- The address under which a message register's operations are recorded (log 37). -/
def mbKey (t : Tid) (m : Nat) : Nat := scrKey t.core (t.slot * 4 + m)

/-- Whether a home's records let it perform an operation of class 6 now (R190, R209). -/
def msgGate (s : State) (core key : Nat) (p : Packet) : Bool :=
  traceRoom s (coreFn s core) && replayOk s (coreUnit core) 6 (pktSrc s p) key

/-- Whether a message can be performed now: not while its register is full, nor while its thread's place is elsewhere. -/
def msgReady (s : State) (p : Packet) : Bool :=
  match p.body with
  | .msg t m _ _ =>
    let sl := getSlot s t
    (fwdOf s t).isNone && (!portsThread sl || (!(smGet {} sl.mb m).full && msgGate s t.core (mbKey t m) p))
  | _ => false

/-- MESSAGE_ARRIVAL (R124): the register is filled, or the message is refused with NOPORT. -/
def execMessageArrival (core : Nat) (s : State) : Host.Outcome State Fault Refusal :=
  let u := coreUnit core
  .next (match takeArrived s u 0 (msgReady s) with
    | none => s
    | some (p, s) =>
      match p.body with
      | .msg t m v r =>
        if portsThread (getSlot s t) then
          let s := homeNote s u 6 (pktSrc s p) p.src (mbKey t m) (retUrgent s (bodyRet p.body))
          reply (modSlot s t fun sl => { sl with mb := smSet {} sl.mb m { val := v, full := true } }) 17 u p r .ok
        else reply s 17 u p r (.fault 0x08 0)
      | _ => s)

/-- The key of the element that a queue's next write takes. -/
def qNextKey (s : State) (core q : Nat) : Nat := qElem core (qGet s core q) (qTail (qGet s core q))

/-- Whether a queue element can be performed now: not while its queue is full. -/
def elemReady (s : State) (core : Nat) (p : Packet) : Bool :=
  match p.body with
  | .qelem q _ _ _ => !qEn (qGet s core q) || (!qFull (qGet s core q) && msgGate s core (qNextKey s core q) p)
  | _ => false

/-- QUEUE_ELEMENT_ARRIVAL (R133, R320): the element is written, or refused with NOQUEUE. -/
def execQueueElementArrival (core : Nat) (s : State) : Host.Outcome State Fault Refusal :=
  let u := coreUnit core
  .next (match takeArrived s u 0 (elemReady s core) with
    | none => s
    | some (p, s) =>
      match p.body with
      | .qelem q v tag r =>
        if qEn (qGet s core q) then
          reply (qPush (homeNote s u 6 (pktSrc s p) p.src (qNextKey s core q) (retUrgent s (bodyRet p.body))) core q v tag) 17 u p r .ok
        else reply s 17 u p r (.fault 0x08 0)
      | _ => s)

/-- LINK_ELEMENT_TRANSFER (R134): the oldest element of a link buffer enters inbound queue 0 or 1. -/
def execLinkElementTransfer (core : Nat) (link : Nat) (s : State) : Host.Outcome State Fault Refusal :=
  let c := getCore s core
  .next (
    if link ≥ 2 || !dieRuns s (coreDie core) then s
    else match (if link = 0 then c.link0 else c.link1) with
      | [] => s
      | x :: r =>
        if !qEn (qGet s core link) || qFull (qGet s core link) then s
        else qPush (modCore s core fun c => if link = 0 then { c with link0 := r } else { c with link1 := r }) core link x.v x.tag)

/-- Whether the port that a slot reads is still empty. -/
def portEmpty (s : State) (t : Tid) (n : Nat) : Bool :=
  if n ≥ 124 then !(smGet {} (getSlot s t).mb (n - 124)).full
  else !qEn (qGet s t.core (n - 120)) || qCount (qGet s t.core (n - 120)) == 0

/-- PORT_READ_TIMEOUT (R125, R134): WAIT_TIMEOUT, the register unchanged. -/
def execPortReadTimeout (core : Nat) (slot : Nat) (s : State) : Host.Outcome State Fault Refusal :=
  let t : Tid := { core := core, slot := slot }
  let sl := getSlot s t
  .next (match sl.uid, sl.wait with
    | some _, some (.port n (some d)) => if d ≤ tickN s && portEmpty s t n then takeTrap s t 0x0A 0 sl.pc else s
    | _, _ => s)

/-! ### Forwarding (R202) -/

/-- Whether a packet names a thread that a forwarding entry of its core can follow, or has come to its place; a system-call
reply waits there for the thread's stream (R201). -/
def fwdReady (s : State) (p : Packet) : Bool :=
  match p.body with
  | .msg t _ _ _ | .forward t _ => (match fwdOf s t with
    | some f => f.new != f.old
    | none => (match p.body with
      | .forward t (.sysrep _ _ _ _) => !((getSlot s t).uid.isNone && (getSlot s t).resv.isSome)
      | .forward _ _ => true
      | _ => false))
  | _ => false

/-- A forwarded packet performed where its thread is now: a system call receives its reply, and a late one is counted there; a
message finds no ports there, so the sender is told NOPORT (R42, R76, R124). -/
def forwardEnd (s : State) (unit : Nat) (p : Packet) (t : Tid) (b : Body) : State :=
  match b with
  | .sysrep fn seq a0 a1 => sysAnswer (if callParked s fn t seq then lateCount s t p 0 else s) fn t seq a0 a1
  | .msg _ _ _ r =>
    match retTid r with
    | some t => inject s { cls := 17, slack := slackLeft (tickN s) p, late := lateAge (tickN s) p, src := unit, dst := coreUnit t.core,
                           body := .reply r (.fault 0x08 0) }
    | none => s
  | _ => s

/-- FORWARD_PACKET (R202): a message or class 22 packet goes on to its thread's new place, or is performed there. -/
def execForwardPacket (core : Nat) (s : State) : Host.Outcome State Fault Refusal :=
  let u := coreUnit core
  let go := fun (s : State) (p : Packet) =>
    match p.body with
    | .msg t _ _ _ | .forward t _ =>
      let inner := match p.body with | .forward _ b => b | b => b
      (match fwdOf s t with
        | some f => forwardTo s f (slackLeft (tickN s) p) (lateAge (tickN s) p) inner
        | none => forwardEnd s u p t inner)
    | _ => s
  .next (match takeArrived s u 0 (fwdReady s) with
    | some (p, s) => go s p
    | none => (match takeArrived s u 1 (fwdReady s) with
      | some (p, s) => go s p
      | none => s))

/-- FORWARD_EXPIRY (R202, R219): 65,536 ticks after it was installed or last used; a carry's entry lives until MRET. -/
def execForwardExpiry (core : Nat) (idx : Nat) (s : State) : Host.Outcome State Fault Refusal :=
  .next (match (getCore s core).fwd[idx]? with
    | some f => if f.carry || tickN s < f.tick + 65536 then s else modCore s core fun c => { c with fwd := delAt c.fwd idx }
    | none => s)

end Sys2Proof.Machine
end

