-- ==== Sys2Proof/Machine/Sched.lean ====
section
/-!
DEFINITION. How slots get work: the order of search (R88), roots (R83), records and bursts restored (R84, R86), the deque
unit and steals (R89 to R91), urgent service (R98, R99), eviction (R199) and the arrival of a moved thread (R201).
-/

namespace Sys2Proof.Machine

/-! ### Records (R84) -/

/-- Whether a core is a compute core (R9). -/
def isCompute (c : Nat) : Bool := decide (coreIdx c < 16)

/-- The window size code of a thread: with the ports attribute 15 is taken as 14 (R122). -/
def portSize (ports : Bool) (n : BitVec 4) : BitVec 4 := if ports && n == 15 then 14 else n
/-- The steal level of a thread: that of a ports thread is taken as core (R123). -/
def portSteal (ports : Bool) (l : BitVec 2) : BitVec 2 := if ports then 0 else l
/-- The window size code of a record. -/
def recSize (ws : List Word) : BitVec 4 := portSize (bitAt (wAt ws 1) 4) (BitVec.ofNat 4 (fld (wAt ws 1) 3 0))
/-- The window size that a record gives (R84, R122). -/
def recW (ws : List Word) : Nat := winW { wsize := recSize ws, ports := bitAt (wAt ws 1) 4 }
/-- The steal level of a record. -/
def recSteal (ws : List Word) : BitVec 2 := portSteal (bitAt (wAt ws 1) 4) (BitVec.ofNat 2 (fld (wAt ws 1) 9 8))
/-- The size of the burst that a record restores (R86). -/
def recBurst (ws : List Word) : Nat := burstSize (recW ws) (fld (wAt ws 6) 6 0)

/-- Whether a record can be used: whole, of its context, its reserved bits 0 (R84). -/
def recOk (ctx : Nat) (ws : List Word) : Bool :=
  ws.length == 8 && fld (wAt ws 1) 63 32 == 0 && fld (wAt ws 1) 15 10 == 0 && fld (wAt ws 6) 63 56 == 0 && !bitAt (wAt ws 6) 7 &&
    fld (wAt ws 1) 31 16 == ctx

/-- Words whose check fails, marked as they are read (R203). -/
def markWords (s : State) (core : Option Nat) (ctx : Nat) (va : Word) (n : Nat) : State :=
  match wordKeys s core ctx va 1 n with
  | .ok ks => ks.foldl (fun s k => markRead s k 8) s
  | .error _ => s

/-- The pages of n words from an address in a core's TLB: an entry that it lacks is filled by a walk within the step (R151,
log 11). -/
def tlbFill (s : State) (core ctx : Nat) (va : Word) (n : Nat) : State :=
  (List.range n).foldl (fun s i =>
    let a := (va + wd (8 * i)).toNat
    if a < 0x1000000 || a ≥ scrBase || (tlbFind s core ctx a).isSome then s
    else match walk s ctx a with
      | .ok x => tlbInstall s core x
      | .error _ => s) s

/-- The words of memory that a slot reads as it takes a continuation: through its core's TLB (R151), recorded at their homes
(R190). None while replay or a full ring holds them back. -/
def slotReads (s : State) (t : Tid) (uid : Nat) (va : Word) (n : Nat) : Option State :=
  let ctx := (getCont s uid).ctx
  let s := tlbFill s t.core ctx va n
  let ls := match wordKeys s (some t.core) ctx va 1 n with | .ok ks => linesOf ks | .error _ => []
  let src := 0x20000 + tidWord ((getCont s uid).orig.getD t)
  if lineGateOf s 0 src ls then some (lineNotesOf s 0 src (coreUnit t.core) ls ((getFn s (coreFn s t.core)).urgent && t.slot == 63)) else none

/-- The reads of the record of a continuation that waits in memory. -/
def recordReads (s : State) (t : Tid) (uid : Nat) (src : RecSrc) : Option State :=
  match src with
  | .held _ => some s
  | .mem a => slotReads s t uid a 8

/-- The record of a waiting continuation, where its slot's core can read it. -/
def recordAt (s : State) (core ctx : Nat) (src : RecSrc) : Option (List Word) :=
  match src with
  | .held ws => some ws
  | .mem a => (loadWords s (some core) ctx a 8).toOption

/-- The predicates k1 to k7 of a burst, from the word after the registers (R86). -/
def burstPreds (w ks : Nat) (b : List Word) : SMap Word :=
  (List.range 7).foldl (fun m j => if (ks >>> j) % 2 = 1 then smSet 0 m (j + 1) (wAt b (31 + w + popCount j ks)) else m) []

/-- A slot as a record and a burst restore it (R84, R86, R87); what the device keeps of the continuation beside them. -/
def restored (k : Cont) (ws b : List Word) (spb spl : Word) (x : Slot) : Slot :=
  let w1 := wAt ws 1
  let c := csrOf b ws
  let c := { c with late := c.late + wd k.lateN, lateTval := k.lateT, lateDue := k.lateDue || (c.lateen && k.lateN != 0) }
  { x with
    pc := wAt ws 0, ctx := k.ctx, steal := recSteal ws, prio := BitVec.ofNat 2 (fld w1 7 6), restart := bitAt w1 5
    ports := bitAt w1 4, wsize := recSize ws, join := wAt ws 3, spb := spb, spl := spl
    ks := burstPreds (recW ws) (fld (wAt ws 6) 6 0) b, csr := c, tls := tlsOf b, priv := k.priv, dev := k.dev, carry := k.carry
    deliv := k.deliv }

/-- A new continuation as its record alone gives it: every CSR but the slack classes at its reset value (R358). -/
def started (k : Cont) (ws : List Word) (x : Slot) : Slot :=
  let w1 := wAt ws 1
  let c := csrOf [] ws
  { x with
    pc := wAt ws 0, ctx := k.ctx, steal := recSteal ws, prio := BitVec.ofNat 2 (fld w1 7 6), restart := bitAt w1 5
    ports := bitAt w1 4, wsize := recSize ws, join := wAt ws 3, spb := wAt ws 4, spl := wAt ws 5
    csr := { sk0 := c.sk0, sk1 := c.sk1, sk2 := c.sk2, sk3 := c.sk3 }, priv := k.priv, dev := k.dev, carry := k.carry, deliv := k.deliv }

/-- Window registers g1 on, from a list. -/
def putRegs (s : State) (core base : Nat) (l : List Word) : State :=
  modCore s core fun c => { c with regs := l.zipIdx.foldl (fun m e => smSet 0 m (base + e.2 + 1) e.1) c.regs }

/-- What the device forgets of a continuation that has taken a slot. -/
def taken (s : State) (uid : Nat) (t : Tid) : State :=
  modCont { s with written := s.written.filter fun w => w.2.2 != uid } uid fun k =>
    { k with deliv := none, a0 := none, lateT := none, lateDue := false, lateN := 0, core := t.core, fresh := false }

/-- A delivery that traps at once is taken (R356). -/
def delivTrap (s : State) (t : Tid) (d : Option Deliv) : State :=
  match d with
  | some (.failAt c v pc) => takeTrap (modSlot s t fun sl => { sl with deliv := none }) t c v pc
  | _ => s

/-- A continuation put into a slot from its record and burst; fp is the record's, a0 the record's or the value that
resumed it (R84, R357). -/
def intoSlot (s : State) (t : Tid) (uid base : Nat) (ws : List Word) (b : Option (List Word)) (spb spl : Word) : State :=
  let k := getCont s uid
  let s := openSlot s t uid base (match b with | some b => restored k ws b spb spl | none => started k ws)
  let s := match b with | some b => putRegs s t.core base ((b.drop 32).take (recW ws - 1)) | none => s
  let sl := getSlot s t
  let s := regSet (regSet s t sl 2 (wAt ws 2)) t sl 4 (k.a0.getD (wAt ws 7))
  delivTrap (taken s uid t) t k.deliv

/-- The forwarding entry of a carry names the slot where it now runs (R218, R219). -/
def carryTo (s : State) (t : Tid) (l : List Carry) : State :=
  match l with
  | [] => s
  | c :: _ => modCore s c.home.core fun k => { k with fwd := k.fwd.map fun f => if f.carry && f.old == c.home then { f with new := t } else f }

/-- A carry's first slot on its expert's cluster: a segment of the core's pool (R218). -/
def takeCarry (s : State) (t : Tid) (uid base : Nat) (ci : CarryIn) (ws : List Word) : Option State :=
  match freeSeg s t.core ci.ctx with
  | none => none
  | some i =>
    let seg := segAddr s ci.ctx t.core i
    let s := modCore s t.core fun c => { c with segs := c.segs ++ [(ci.ctx, i)] }
    let s := modCont s uid fun k => { k with area2 := .seg t.core ci.ctx i :: k.area2 }
    let s := modCl s (coreCl t.core) fun c => { c with carries := c.carries.filter fun x => x.uid != uid }
    some (intoSlot s t uid base ws (some ci.burst) (seg + 128) (seg + 65536))

/-- A slot takes a continuation at a base that its window fits; an unusable record or burst tears the context down (R84).
None when a carry finds no segment, or the burst cannot be read yet. -/
def takeAt (s : State) (t : Tid) (uid base : Nat) (ws : List Word) : Option State :=
  let k := getCont s uid
  let s := carryTo s t k.carry
  match (getCl s (coreCl t.core)).carries.find? fun c => c.uid == uid with
  | some ci => takeCarry s t uid base ci ws
  | none =>
    if k.fresh then some (intoSlot s t uid base ws none 0 0)
    else
      let spb := wAt ws 4 - wd (recBurst ws)
      (slotReads s t uid spb (recBurst ws / 8)).map fun s => match loadWords s (some t.core) k.ctx spb (recBurst ws / 8) with
        | .ok b => intoSlot s t uid base ws (some b) spb (wAt ws 5)
        | .error _ => teardown (markWords s (some t.core) k.ctx spb (recBurst ws / 8)) k.ctx stFAULT

/-- A slot takes a waiting continuation; none when its window does not fit, a slot still holds it or its record cannot be read
yet. -/
def takeCont (s : State) (t : Tid) (uid : Nat) (src : RecSrc) : Option State :=
  let k := getCont s uid
  if (getCore s k.core).slots.any fun x => x.2.uid == some uid then none
  else (recordReads s t uid src).bind fun s => match recordAt s t.core k.ctx src with
    | none => some (teardown (match src with | .mem a => markWords s (some t.core) k.ctx a 8 | .held _ => s) k.ctx stFAULT)
    | some ws =>
      if !recOk k.ctx ws then some (teardown s k.ctx stFAULT)
      else match fitWindow (getCore s t.core) (recW ws) with
        | none => none
        | some b => takeAt s t uid b ws

/-! ### Roots (R83) -/

/-- The first place in a context's spill pool for an area of kib KiB. -/
def fitSpill (c : Ctx) (kib : Nat) : Option Nat :=
  let fits := fun b => b + kib * 1024 ≤ c.spill.toNat + c.spillK * 1024 && c.used.all fun u => b + kib * 1024 ≤ u.1 || u.1 + u.2 * 1024 ≤ b
  ((c.spill.toNat :: c.used.map fun u => u.1 + u.2 * 1024).filter fits).foldl
    (fun m b => match m with | some x => some (min x b) | none => some b) none

/-- The slack classes of a launch entry (R65). -/
def entryCsrs (ws : List Word) : Csrs :=
  let w := wAt ws 4
  { sk0 := BitVec.ofNat 12 (fld w 27 16), sk1 := BitVec.ofNat 12 (fld w 39 28), sk2 := BitVec.ofNat 12 (fld w 51 40),
    sk3 := BitVec.ofNat 12 (fld w 63 52) }

/-- A slot takes root n of an entry; none when its window or its spill area is not available. -/
def takeRoot (s : State) (t : Tid) (e : EntryRef) (n ctx : Nat) (pc arg desc : Word) (prio : BitVec 2) : Option State :=
  let c := getCtx s ctx
  let kib := fld desc 31 16
  let x0 : Slot := { wsize := portSize (bitAt desc 4) (BitVec.ofNat 4 (fld desc 3 0)), ports := bitAt desc 4 }
  match fitWindow (getCore s t.core) (winW x0), fitSpill c kib with
  | some b, some a =>
    let ws := entryWords s e
    let s := modCtx s ctx fun c => { c with used := c.used ++ [(a, kib)] }
    let (s, u) := freshUid s { entry := some e, ctx := ctx, root := some n, pc0 := pc, arg := arg, wsize := x0.wsize, portsA := x0.ports,
                               restart := bitAt desc 5, spillK := kib, area := .spill ctx (wd a) kib, core := t.core }
    let s := openSlot s t u b fun sl => { sl with
      pc := pc, ctx := ctx, steal := portSteal x0.ports (BitVec.ofNat 2 (min (enSteal ws) c.steal.toNat)), prio := prio, restart := bitAt desc 5
      ports := x0.ports, wsize := x0.wsize, spb := wd a + 128, spl := wd a + wd (kib * 1024), csr := entryCsrs ws }
    let sl := getSlot s t
    some (regSet (regSet (regSet s t sl 2 (wd a)) t sl 4 arg) t sl 5 (wd n))
  | _, _ => none

/-! ### The injection queue (R88) -/

/-- Ticks of 1 ms. -/
def ageTicks : Nat := 500000

/-- Whether an entry has waited more than 1 ms. -/
def isAged (tick : Nat) (i : Inj) : Bool := i.aged || decide (tick - i.since > ageTicks)

/-- Rank of an entry: aged ones first, then resumed ones before roots, then by priority. -/
def injRank (tick : Nat) (i : Inj) : Nat := if isAged tick i then 0 else 1 + (if i.resumed then 0 else 4) + (3 - i.prio.toNat)

/-- Whether an entry is urgent work (R98). -/
def injUrgent (i : Inj) : Bool := i.urgent || i.prio == 3

/-- Whether a core's slot may look at an entry: its tag, and, for an untagged one, a compute core. -/
def injFor (core : Nat) (i : Inj) : Bool := match i.tag with | some c => c == core | none => isCompute core

/-- The entries of a cluster's queue in the order in which they are served, with their places. -/
def injOrder (s : State) (cl : Nat) (ok : Inj → Bool) : List (Inj × Nat) :=
  sortBy (fun a b => decide (injRank (tickN s) a.1 < injRank (tickN s) b.1)) ((getCl s cl).inj.zipIdx.filter fun e => ok e.1)

/-- The entry at a place after one continuation has been taken from it. -/
def injAfter (l : List Inj) (i : Nat) : List Inj :=
  match l[i]? with
  | some x => (match x.kind with
    | .roots e n st left pc arg d =>
      if left > 1 then l.take i ++ { x with kind := .roots e (n + st) st (left - 1) pc arg d } :: l.drop (i + 1) else delAt l i
    | .cont _ _ => delAt l i)
  | none => l

/-- A slot takes an entry's next continuation. -/
def takeInj (s : State) (t : Tid) (i : Inj) : Option State :=
  match i.kind with
  | .roots e n _ _ pc arg d => takeRoot s t e n i.ctx pc arg d i.prio
  | .cont u src => takeCont s t u src

/-- A slot takes the first entry of its cluster's queue that it can. -/
def takeFromInj (s : State) (t : Tid) (ok : Inj → Bool) : Option State :=
  let cl := coreCl t.core
  (injOrder s cl ok).findSome? fun e => takeInj (modCl s cl fun c => { c with inj := injAfter c.inj e.2 }) t e.1

/-! ### The deque unit (R89, R90) -/

/-- An entry of an overflow block as it is read back from its area; a record that meets an uncorrectable or poisoned word has
no words, and cannot be used (R84). -/
def blockEnt (s : State) (b : OvfBlock) (e : Nat × Nat) : DqEnt :=
  let k := b.key + 64 * e.1
  { uid := e.2, ws := if eccStatus s k 64 = 0 then (List.range 8).map fun i => wd (memRead s.mem (k + 8 * i) 8) else [] }

/-- The records of a block, as they are read back. -/
def blockEnts (s : State) (b : OvfBlock) : List DqEnt := b.ents.map (blockEnt s b)

/-- Words of a record read back whose check fails get their marks (R203). -/
def markBlock (s : State) (b : OvfBlock) (e : Nat × Nat) : State :=
  (List.range 8).foldl (fun s i => markRead s (b.key + 64 * e.1 + 8 * i) 8) s

/-- A core's deque with its newest block reloaded when the on-chip part is empty. -/
def dequeLoad (s : State) (core : Nat) : State :=
  let c := getCore s core
  match c.deque.isEmpty, c.blocks with
  | true, b :: r => b.ents.foldl (fun s e => markBlock s b e) (setCore s core { c with deque := blockEnts s b, blocks := r })
  | _, _ => s

/-- The far end: the oldest entry of the oldest block, else of the on-chip part. -/
def dequeFar (s : State) (core : Nat) : Option DqEnt :=
  match (getCore s core).blocks.getLast? with
  | some b => (blockEnts s b).head?
  | none => (getCore s core).deque.head?

/-- A core without its far-end entry. -/
def dequeDropFar (c : Core) : Core :=
  match c.blocks.getLast? with
  | some b => { c with blocks := if b.ents.length ≤ 1 then c.blocks.dropLast else c.blocks.dropLast ++ [{ b with ents := b.ents.drop 1 }] }
  | none => { c with deque := c.deque.drop 1 }

/-- An owner pop by a slot; nothing while its continuation does not fit. -/
def takeFromDeque (s : State) (t : Tid) : Option State :=
  if !dequeGate s t.core (0x20000 + tidWord t) then none
  else
    let s := dequeLoad s t.core
    match (getCore s t.core).deque.getLast? with
    | none => none
    | some d =>
      let s := dequeNote (modCore s t.core fun c => { c with deque := c.deque.dropLast }) t.core (0x20000 + tidWord t) (coreUnit t.core)
      takeCont s t d.uid (.held d.ws)

/-- The urgent slot's work: its deque, its inbox, then its cluster's queue (R98, R99). -/
def takeUrgent (s : State) (t : Tid) : Option State :=
  let c := getCore s t.core
  let r := match c.udeque.getLast? with
    | some d =>
      let src := 0x20000 + tidWord t
      if !dequeGate s t.core src then none
      else takeCont (dequeNote (modCore s t.core fun c => { c with udeque := c.udeque.dropLast }) t.core src (coreUnit t.core) true) t d.uid (.held d.ws)
    | none => (match c.uinbox with
      | i :: r => takeInj (modCore s t.core fun c => { c with uinbox := r }) t i
      | [] => takeFromInj s t fun i => injFor t.core i && injUrgent i)
  r.map fun s => modSlot s t fun sl => if sl.uid.isSome then { sl with urgent := true } else sl

/-- A reserved slot's own continuation, come back (R123). -/
def takeOwn (s : State) (t : Tid) (uid : Nat) : Option State :=
  let cl := coreCl t.core
  match (getCl s cl).enq.find? fun i => (match i.kind with | .cont u _ => u == uid | _ => false) with
  | none => none
  | some i =>
    let k := getCont s uid
    let old := getSlot s t
    let src := match i.kind with | .cont _ src => src | _ => .held []
    if k.pinned != some t then none
    else
      let s := modCl s cl fun c => { c with enq := c.enq.filter fun x => x != i }
      (recordReads s t uid src).bind fun s => match recordAt s t.core k.ctx src with
      | none => some (teardown s k.ctx stFAULT)
      | some ws =>
        if !recOk k.ctx ws || recW ws != winW old || !bitAt (wAt ws 1) 4 then some (teardown s k.ctx stFAULT)
        else (takeAt s t uid old.wbase ws).map fun s => modSlot s t fun sl => if sl.uid = some uid then { sl with mb := old.mb } else sl

/-- SLOT_TAKE (R83, R84, R88, R98, R123). -/
def execSlotTake (core : Nat) (slot : Nat) (s : State) : Host.Outcome State Fault Refusal :=
  let t : Tid := { core := core, slot := slot }
  let urg := (getFn s (coreFn s core)).urgent
  .next (
    if slot > 63 || !coreRuns s core || (getSlot s t).uid.isSome then s
    else match (getSlot s t).resv with
      | some u => (takeOwn s t u).getD s
      | none =>
        if fwdHolds s t then s
        else if urg && slot == 63 then (takeUrgent s t).getD s
        else
          let c := getCore s core
          if isCompute core && !(c.deque.isEmpty && c.blocks.isEmpty) then (takeFromDeque s t).getD s
          else (takeFromInj s t fun i => injFor core i && !(urg && injUrgent i)).getD s)

/-! ### Steals (R90, R91) -/

/-- The compute cores after a core in ascending order with wrap, that a predicate keeps. -/
def coresAfter (core : Nat) (keep : Nat → Bool) : List Nat :=
  (List.range 2048).filterMap fun i =>
    let c := (core + 1 + i) % 2048
    if c != core && coreExists c && isCompute c && keep c then some c else none

/-- The victims of a search, level by level, within the partition. -/
def victims (s : State) (core : Nat) : List Nat :=
  let mine := fun c => coreFn s c == coreFn s core
  coresAfter core (fun c => mine c && coreCl c == coreCl core) ++
    coresAfter core (fun c => mine c && coreCl c != coreCl core && coreDie c == coreDie core) ++
    coresAfter core (fun c => mine c && coreDie c != coreDie core)

/-- Whether a core has an idle ordinary slot and no work of its own. -/
def wantsWork (s : State) (core : Nat) : Bool :=
  let c := getCore s core
  let urg := (getFn s (coreFn s core)).urgent
  c.deque.isEmpty && c.blocks.isEmpty && ((getCl s (coreCl core)).inj.all fun i => !injFor core i || (urg && injUrgent i)) &&
    (List.range (if urg then 63 else 64)).any fun i => slotFree s { core := core, slot := i }

/-- Whether a core's slot 63 is idle under urgent service, with no urgent work of its own (R98, R99). -/
def wantsUrgent (s : State) (core : Nat) : Bool :=
  let c := getCore s core
  (getFn s (coreFn s core)).urgent && slotFree s { core := core, slot := 63 } && c.udeque.isEmpty && c.uinbox.isEmpty &&
    (getCl s (coreCl core)).inj.all fun i => !(injFor core i && injUrgent i)

/-- The next victim of the search for ordinary work asked, at most four requests at a time. -/
def askWork (s : State) (core : Nat) : State :=
  let c := getCore s core
  if c.asked.length + c.askedU.length ≥ 4 then s
  else match (victims s core)[c.stealLvl]? with
    | none => modCore s core fun c => { c with stealLvl := 0 }
    | some v =>
      if c.asked.contains v then s
      else send (modCore s core fun c => { c with asked := c.asked ++ [v], stealLvl := c.stealLvl + 1 }) 8 0x200 (coreUnit core) (coreUnit v) (.steal core)

/-- The next victim of slot 63's search for urgent work asked. -/
def askUrgent (s : State) (core : Nat) : State :=
  let c := getCore s core
  if c.asked.length + c.askedU.length ≥ 4 then s
  else match (victims s core)[c.lvlU]? with
    | none => modCore s core fun c => { c with lvlU := 0 }
    | some v =>
      if c.askedU.contains v then s
      else send (modCore s core fun c => { c with askedU := c.askedU ++ [v], lvlU := c.lvlU + 1 }) 8 0x200 (coreUnit core) (coreUnit v) (.stealU core)

/-- STEAL_SEARCH (R91, R99): a core without work asks its next victim, and an idle slot 63 its own. -/
def execStealSearch (core : Nat) (s : State) : Host.Outcome State Fault Refusal :=
  .next (
    if !coreRuns s core || !isCompute core then s
    else
      let u := wantsUrgent s core
      let s := if wantsWork s core then askWork s core else s
      if u then askUrgent s core else s)

/-- Whether a record's steal level admits a thief (R91). -/
def stealAdmits (ws : List Word) (victim thief : Nat) : Bool :=
  match (recSteal ws).toNat with
  | 0 => false
  | 1 => coreCl victim == coreCl thief
  | 2 => coreDie victim == coreDie thief
  | _ => true

/-- Whether a slot of a core is about to pop its deque: an owner pop comes before a steal of the same cycle (R90). -/
def popDue (s : State) (core : Nat) : Bool :=
  let c := getCore s core
  !(c.deque.isEmpty && c.blocks.isEmpty) && (List.range (if (getFn s (coreFn s core)).urgent then 63 else 64)).any fun i => slotFree s { core := core, slot := i }

/-- A steal request that the deque unit of a core performs next; one that comes with an owner pop waits for it. -/
def stealReady (s : State) (core : Nat) (p : Packet) : Bool :=
  match p.body with
  | .steal _ => dequeGate s core p.src && !(p.since = tickN s && popDue s core)
  | .stealU _ => dequeGate s core p.src
  | _ => false

/-- A stolen record, or EMPTY, that a core takes next: an urgent one while its urgent deque has room. -/
def stolenReady (s : State) (core : Nat) (p : Packet) : Bool :=
  match p.body with
  | .stolen _ => dequeGate s core (coreUnit core)
  | .stolenU none => true
  | .stolenU (some _) => decide ((getCore s core).udeque.length < 8) && dequeGate s core (coreUnit core)
  | _ => false

/-- STEAL_REQUEST (R90, R91, R99): steals are performed in arrival order; the far-end entry, of the urgent deque for a slot 63,
if it admits the thief, else EMPTY. -/
def execStealRequest (core : Nat) (s : State) : Host.Outcome State Fault Refusal :=
  let u := coreUnit core
  .next (match takeOldest s u 0 (stealReady s core) with
    | none => s
    | some (p, s) =>
      match p.body with
      | .steal thief =>
        let s := dequeNote s core p.src p.src
        let e := (dequeFar s core).filter fun d => stealAdmits d.ws core thief
        let s := if e.isSome then modCore s core dequeDropFar else s
        send s 8 0x200 u p.src (.stolen e)
      | .stealU thief =>
        let s := dequeNote s core p.src p.src true
        let e := (getCore s core).udeque.head?.filter fun d => stealAdmits d.ws core thief
        let s := if e.isSome then modCore s core fun c => { c with udeque := c.udeque.drop 1 } else s
        send s 8 0x200 u p.src (.stolenU e)
      | _ => s)

/-- STEAL_REPLY (R91, R99): a stolen record is put at the owner end of the thief's deque, or of its urgent deque while
urgent service is enabled (R101). -/
def execStealReply (core : Nat) (s : State) : Host.Outcome State Fault Refusal :=
  let u := coreUnit core
  .next (match takeArrived s u 0 (stolenReady s core) with
    | none => s
    | some (p, s) =>
      match p.body with
      | .stolen e =>
        let s := modCore s core fun c => { c with asked := c.asked.erase (unitCore p.src) }
        (match e with
          | some d =>
            if (getCont s d.uid).alive then
              dequeNote (dequePush (modCore s core fun c => { c with stealLvl := 0 }) core false d) core u u
            else s
          | none => s)
      | .stolenU e =>
        let s := modCore s core fun c => { c with askedU := c.askedU.erase (unitCore p.src) }
        (match e with
          | some d =>
            if (getCont s d.uid).alive then
              dequeNote (dequePush (modCore s core fun c => { c with lvlU := 0 }) core (getFn s (coreFn s core)).urgent d) core u u true
            else s
          | none => s)
      | _ => s)

/-! ### Continuations that become ready (R88, R99) -/

/-- The tag and priority of a resumed continuation, from its record as the core where it last ran reads it. -/
def injOf (s : State) (uid : Nat) (src : RecSrc) : Inj :=
  let k := getCont s uid
  let ws := (recordAt s k.core k.ctx src).getD []
  { kind := .cont uid src, ctx := k.ctx, tag := if k.carry.isEmpty && recSteal ws == 0 then some k.core else none, prio := recPrio ws,
    resumed := !k.fresh, urgent := k.priv }

/-- ENQUEUE_CONTINUATION (R88, R123). -/
def execEnqueueContinuation (cl : Nat) (s : State) : Host.Outcome State Fault Refusal :=
  .next (match takeArrived s (coreUnit (svcCore cl)) 0 (fun p => match p.body with | .enqueue _ _ _ => true | _ => false) with
    | none => s
    | some (p, s) =>
      match p.body with
      | .enqueue uid _ src =>
        let k := getCont s uid
        if !k.alive then s
        else if k.pinned.isSome then modCl s cl fun c => { c with enq := c.enq ++ [{ injOf s uid src with since := tickN s }] }
        else injPush s cl (injOf s uid src)
      | _ => s)

/-- INJECTION_AGE (R88); nothing while the cluster is halted or without power (R26, R27). -/
def execInjectionAge (cl : Nat) (idx : Nat) (s : State) : Host.Outcome State Fault Refusal :=
  .next (if !dieRuns s (clDie cl) then s else modCl s cl fun c => { c with inj := modAt c.inj idx fun i => { i with aged := isAged (tickN s) i } })

/-- An urgent continuation at a core: slot 63 takes it if it is free, else the inbox holds it, else the cluster's queue. -/
def urgentAt (s : State) (core : Nat) (i : Inj) : State :=
  let t : Tid := { core := core, slot := 63 }
  let c := getCore s core
  let wait := if c.uinbox.length < 4 then modCore s core fun c => { c with uinbox := c.uinbox ++ [i] } else injPush s (coreCl core) { i with prio := 3, urgent := true }
  if slotFree s t && c.udeque.isEmpty && c.uinbox.isEmpty then
    match takeInj s t i with
    | some s => modSlot s t fun sl => if sl.uid.isSome then { sl with urgent := true } else sl
    | none => wait
  else wait

/-- The oldest urgent entry of a cluster's queue that a core may take. -/
def urgentNext (s : State) (core : Nat) : Option (Inj × Nat) :=
  (injOrder s (coreCl core) fun i => injFor core i && injUrgent i).head?

/-- The context of a record that firmware posts, when the record is a whole one of a context of the core's partition (R84). -/
def postCtx (s : State) (core : Nat) (ws : List Word) : Option Nat :=
  let c := fld (wAt ws 1) 31 16
  if recOk c ws && (getCtx s c).live && (getCtx s c).fn = coreFn s core then some c else none

/-- A privileged handler that the firmware of a cluster's service core posts to a compute core's slot 63, from the record of
its continuation (R98, R198; the packet's class: DESIGN CHOICE, log 68). -/
def postHandler (s : State) (core ctx : Nat) (ws : List Word) : State :=
  let svc := coreUnit (svcCore (coreCl core))
  let (s, u) := freshUid s { ctx := ctx, wsize := recSize ws, core := core, priv := true, fresh := true }
  send s 11 (hskOf s svc) svc (coreUnit core) (.urgent u (.held ws))

/-- A privileged firmware thread that a service core starts on itself, from the record of its continuation (R198). -/
def startFirmware (s : State) (core ctx : Nat) (ws : List Word) : State :=
  let (s, u) := freshUid s { ctx := ctx, wsize := recSize ws, core := core, priv := true, fresh := true }
  injPush s (coreCl core) { kind := .cont u (.held ws), ctx := ctx, tag := some core, prio := recPrio ws }

/-- URGENT_ARRIVAL (R98, R99, R101): a posted handler, or the next urgent entry of the cluster's queue. A handler under way
when urgent service was disabled goes to the queue at priority 3. `post` is the core, and the record that service-core
firmware posts to it at this step, empty for none: firmware is outside the spec (log 68). A record posted to a service core
starts a firmware thread there (R198). -/
def execUrgentArrival (post : Nat × List (BitVec 64)) (s : State) : Host.Outcome State Fault Refusal :=
  let core := post.1
  .next (
    if !coreRuns s core then s
    else match takeArrived s (coreUnit core) 0 (fun p => match p.body with | .urgent _ _ => true | _ => false) with
      | some (p, s) => (match p.body with
        | .urgent uid src =>
          if !(getCont s uid).alive then s
          else if (getFn s (coreFn s core)).urgent then urgentAt s core { injOf s uid src with urgent := true, since := tickN s }
          else injPush s (coreCl core) { injOf s uid src with prio := 3 }
        | _ => s)
      | none =>
        if core = svcCore (coreCl core) then (match postCtx s core post.2 with
          | some c => startFirmware s core c post.2
          | none => s)
        else if !(getFn s (coreFn s core)).urgent || !isCompute core then s
        else if !post.2.isEmpty then (match postCtx s core post.2 with
          | some c => postHandler s core c post.2
          | none => s)
        else if (getCore s core).uinbox.length ≥ 4 then s
        else match urgentNext s core with
          | none => s
          | some (i, j) =>
            let s := modCl s (coreCl core) fun c => { c with inj := injAfter c.inj j }
            let one := match i.kind with
              | .roots e n st _ pc arg d => { i with kind := InjKind.roots e n st 1 pc arg d }
              | .cont _ _ => i
            urgentAt s core one)

/-! ### Eviction (R199) -/

/-- The environment of work that the slot's own hardware does for it. -/
def slotEnv (s : State) (t : Tid) : Env := { s := s, t := t, sl := getSlot s t, enc := 0, npc := (getSlot s t).pc }

/-- The eviction of a slot is over: its bit in evict is clear, and set in evstat if it was refused. -/
def evictEnd (s : State) (t : Tid) (refused : Bool) : State :=
  modCore (modSlot s t fun sl => { sl with evicting := false }) t.core fun c => { c with
    evict := c.evict &&& ~~~(wd (2 ^ t.slot)), evstat := if refused then c.evstat ||| wd (2 ^ t.slot) else c.evstat }

/-- The parked access of a continuation, with its home (R189). -/
def parkedOf (s : State) (uid : Nat) : Option (Nat × Parked) :=
  s.homes.findSome? fun h => (h.2.parked.find? fun p => (match p.kind with | .park _ _ _ _ _ => false | _ => true) && parkedUid p == some uid).map fun p => (h.1, p)

/-- The withdrawal of the parked access that a slot waits for (R189, R199). -/
def evictWithdraw (s : State) (t : Tid) (uid : Nat) : State :=
  match parkedOf s uid with
  | none => s
  | some (u, p) =>
    send (modSlot s t fun sl => { sl with wdrawn := true }) 3 (hskOf s (coreUnit t.core)) (coreUnit t.core) u
      (.withdraw p.key (.thread t uid 0))

/-- Whether a slot's operations are all complete (R87, R189). -/
def slotDrained (sl : Slot) : Bool :=
  !ringPending sl && ((List.range 5).all fun i => (tlGet sl.tls i).completed == (tlGet sl.tls i).issued) && allComplete sl

/-- A drained slot writes its burst and record and enters its cluster's injection queue; a fault of the write is the
thread's, and the eviction is refused (log 32); a translation that misses is brought first, and a home that is held back is
waited for. -/
def evictOut (s : State) (t : Tid) (uid : Nat) : State :=
  let e := slotEnv s t
  match (do roomX e; writeOut e s e.sl.pc : X State) with
  | .error (.miss va k sk) => sendMiss s t va k sk
  | .error .cond => s
  | .error st => evictEnd (applyStop e st) t true
  | .ok s =>
    let s := freeSlot (noteLeft s t (getSlot s t) (recAddr e)) t
    evictEnd (sendEnqueue s (coreUnit t.core) uid (.mem (recAddr e))) t false

/-- A drained slot streams its state to the place to which it moves (R201, R202). -/
def moveOut (s : State) (t d : Tid) (uid : Nat) : State :=
  let sl := getSlot s t
  if (getCore s t.core).fwd.length ≥ 16 then s
  else
    let s' := { s with cores := s.cores.map fun (e : Nat × Core) => (e.1, { e.2 with
      fwd := e.2.fwd.map fun f => if f.new == t then { f with new := d } else f }) }
    let s' := modCont s' uid fun k => { k with
      core := d.core, priv := sl.priv, dev := sl.dev, carry := sl.carry, lateT := sl.csr.lateTval, lateDue := sl.csr.lateDue, fresh := false, orig := some ((contTid s uid).getD t) }
    let s' := modCore s' t.core fun c => { c with fwd := c.fwd ++ [{ old := t, new := d, tick := tickN s, ctx := sl.ctx }] }
    let body := Body.stream uid t d (burstWords s t sl) (recordOf s t sl sl.pc) sl.mb (if sl.wait = some .sysc then some sl.callSeq else none)
    let s' := send s' 8 (hskOf s' (coreUnit t.core)) (coreUnit t.core) (coreUnit d.core) body
    evictEnd (setSlot s' t (emptySlot sl)) t false

/-- EVICT_WRITE (R199, R201): one step of a slot's eviction or move. -/
def execEvictWrite (core : Nat) (slot : Nat) (s : State) : Host.Outcome State Fault Refusal :=
  let t : Tid := { core := core, slot := slot }
  let sl := getSlot s t
  .next (match sl.uid with
    | none => s
    | some uid =>
      if !sl.evicting || sl.handler.isSome || !coreRuns s core then s
      else if sl.wait = some .reply && !sl.wdrawn && (parkedOf s uid).isSome then evictWithdraw s t uid
      else if (sl.wait = some .reply || sl.wait = some .miss || sl.wait = some .iter) || (sl.wait = some .sysc && sl.moveTo.isNone) || midway sl ||
          !slotDrained sl then s
      else match oldest (covered sl true fun _ _ => true) with
        | some (_, src, c, num) => takeTrap (modSlot s t fun sl => clearFault sl src num) t 0x13 (efTval src c num.toNat) sl.pc
        | none => (match sl.moveTo with
          | some d => moveOut s t d uid
          | none => evictOut s t uid))

/-- MIGRATION_ARRIVAL (R201): the arrival is acknowledged, and the thread resumes in the slot that was reserved for it, or
goes on waiting there for the reply to its system call. -/
def execMigrationArrival (core : Nat) (s : State) : Host.Outcome State Fault Refusal :=
  .next (match takeArrived s (coreUnit core) 0 (fun p => match p.body with | .stream _ _ _ _ _ _ _ => true | _ => false) with
    | none => s
    | some (p, s) =>
      match p.body with
      | .stream uid _ d b ws mbs sysc =>
        let x := getSlot s d
        if x.resv != some uid || !(getCont s uid).alive then s
        else
          let s := answer (intoSlot s d uid x.wbase ws (some b) (wAt ws 4) (wAt ws 5)) 17 (coreUnit core) p (.reply .none .ok)
          modSlot s d fun sl => { sl with mb := mbs, wait := if sysc.isSome then some .sysc else sl.wait, callSeq := sysc.getD sl.callSeq }
      | _ => s)

end Sys2Proof.Machine
end

