-- ==== Sys2Proof/Machine/Carries.lean ====
section
/-!
DEFINITION. A carry at its expert's cluster: the deposit of its row, the count of arrivals, the batch bead, and the
return to its home slot (R218 to R220, R440).
-/

namespace Sys2Proof.Machine

/-- The carry of a continuation at a cluster. -/
def carryAt (s : State) (cl uid : Nat) : Option CarryIn := (getCl s cl).carries.find? fun c => c.uid == uid

/-- The bytes of a carry's row with their keys at its place in the input buffer, or the cause and address of the first that
cannot be written (R218). -/
def depositKeys (s : State) (cl : Nat) (ci : CarryIn) : Except (BitVec 8 × Word) (List Nat) :=
  rowKeys s (some (svcCore cl)) ci.ctx (wAt ci.desc 3 + ci.pos * wd (cdIn ci.desc)) 2 ci.row.length

/-- The packets of a deposit: the bytes of each 64-byte line, and the keys of those whose word carries a mark (R34, R203). -/
def depositLines (ci : CarryIn) (ks : List Nat) : List (List Host.Cell × List Nat) :=
  let cells := (ks.zip ci.row).zipIdx
  (linesOf ks).map fun l =>
    let mine := cells.filter fun c => c.1.1 / 64 == l
    (mine.map (·.1), (mine.filter fun c => ci.marks.contains (c.2 / 8)).map (·.1.1))

/-- One line of a deposit: a packet of class 7 to its home, with the slack that the carry's packets had left (R440). A line of
host memory is written at once and acknowledged here (log 4). -/
def depositLine (cl : Nat) (ci : CarryIn) (s : State) (l : List Host.Cell × List Nat) : State :=
  let u := coreUnit (svcCore cl)
  match homeOf (l.1.headD (0, 0)).1 with
  | some h => send s 7 ci.slack u h (.put l.1 l.2 (.carry cl ci.uid 0))
  | none => send (putAtHome s l.1 l.2) 17 ci.slack u u (.reply (.carry cl ci.uid 0) .ok)

/-- A carry's state at its expert's service core replaced. -/
def setCarry (s : State) (cl : Nat) (ci : CarryIn) : State :=
  modCl s cl fun c => { c with carries := c.carries.map fun x => if x.uid = ci.uid then ci else x }

/-- The deposit of a carry's row under way; a fault of its translation is the carry's, and its arrival is not counted (R218). -/
def carryDeposit (s : State) (cl : Nat) (ci : CarryIn) : State :=
  match depositKeys s cl ci with
  | .error (c, va) => wakeCarry s cl ci.uid (.fail c va)
  | .ok ks =>
    let ls := depositLines ci ks
    ls.foldl (depositLine cl ci) (setCarry s cl { ci with acks := ls.length })

/-- CARRY_ARRIVAL (R218): the record, the burst and the row are taken, and the row is sent to its place. -/
def execCarryArrival (cl : Nat) (s : State) : Host.Outcome State Fault Refusal :=
  .next (
    if !clRuns s cl then s
    else match takeArrived s (coreUnit (svcCore cl)) 0 (fun p => match p.body with | .carry _ => true | _ => false) with
      | none => s
      | some (p, s) =>
        match p.body with
        | .carry ci =>
          if !(getCont s ci.uid).alive then s
          else
            let ci := { ci with slack := slackLeft (tickN s) p }
            carryDeposit (modCl s cl fun c => { c with carries := c.carries ++ [ci] }) cl ci
        | _ => s)

/-- Whether a packet is a reply to a stage of a carry: 0 the deposit, 1 the counter, 2 the batch bead. -/
def isCarryReply (stage : Nat) (p : Packet) : Bool :=
  match p.body with
  | .reply (.carry _ _ n) _ => n == stage
  | _ => false

/-- The arrival counted: AMO ADD of −1 at the counter, or the fault of its address (R218). -/
def carryCount (s : State) (cl : Nat) (ci : CarryIn) : State :=
  let a := wAt ci.desc 5
  if a.toNat % 8 != 0 then wakeCarry s cl ci.uid (.fail 0x03 a)
  else match vkey s (some (svcCore cl)) ci.ctx a.toNat 3 with
    | .error c => wakeCarry s cl ci.uid (.fail c a)
    | .ok (k, _) =>
      match homeOf k with
      | none => wakeCarry s cl ci.uid (.fail 0x08 a)
      | some h => send s 2 ci.slack (coreUnit (svcCore cl)) h (.amo 0 k (BitVec.allOnes 64) 0 (.carry cl ci.uid 1))

/-- The address of the first byte of a carry's row that a home holds. -/
def depositVa (s : State) (cl : Nat) (ci : CarryIn) (home : Nat) : Word :=
  let a := wAt ci.desc 3 + ci.pos * wd (cdIn ci.desc)
  match depositKeys s cl ci with
  | .ok ks => a + wd ((idxOf (fun k => homeOf k == some home) ks).getD 0)
  | .error _ => a

/-- An acknowledgement of a carry's deposit: after the last one the arrival is counted, or the carry takes the first fault that
a home answered (R218). -/
def depositAck (s : State) (cl : Nat) (ci : CarryIn) (home : Nat) (r : Res) : State :=
  let f := ci.fail.or ((resCause r).map fun c => (c, depositVa s cl ci home))
  let ci := { ci with acks := ci.acks - 1, fail := f }
  let s := setCarry s cl ci
  if ci.acks != 0 then s
  else match f with
    | some (c, v) => wakeCarry s cl ci.uid (.fail c v)
    | none => carryCount s cl ci

/-- CARRY_DEPOSIT_DONE (R218): the count follows the acknowledgement of the deposit. -/
def execCarryDepositDone (cl : Nat) (s : State) : Host.Outcome State Fault Refusal :=
  .next (
    if !clRuns s cl then s
    else match takeArrived s (coreUnit (svcCore cl)) 1 (isCarryReply 0) with
      | none => s
      | some (p, s) =>
        match p.body with
        | .reply (.carry _ uid _) r =>
          let s := platCount s cl p
          (match carryAt s cl uid with
            | some ci => depositAck s cl ci p.src r
            | none => s)
        | _ => s)

/-- The carry's FORCE of its batch bead, in a new chain of its home slot, or its HWAIT, whose chain is not advanced; `old` is
the counter as the AMO found it (R107, R218). -/
def carryDemand (s : State) (cl : Nat) (ci : CarryIn) (old : Word) : State :=
  let h := wAt ci.desc 0
  let force := decide ((old - 1).toInt ≤ 0)
  let s := if force then modSlot s ci.t fun sl => { sl with chainSeq := sl.chainSeq + 1 } else s
  let c := chainWord ci.ctx (getSlot s ci.t).chainSeq ci.t
  let op := if force then BeadOp.force c else .hwait c
  match vkey s (some (svcCore cl)) ci.ctx h.toNat 1 with
  | .error c => wakeCarry s cl ci.uid (.fail c h)
  | .ok (k, _) =>
    match homeOf k with
    | none => wakeCarry s cl ci.uid (.fail 0x08 h)
    | some u =>
      send s 4 ci.slack (coreUnit (svcCore cl)) u
        (.bead { key := k, handle := h, ctx := ci.ctx } op ci.limit.toNat (svcCore cl) (wAt ci.ws 2 + 64) (.carry cl ci.uid 2))

/-- What the reply of the batch bead gives a carry at once; one that waits is woken later (R109, R218). -/
def carryBead (s : State) (cl uid : Nat) (r : Res) : State :=
  match r with
  | .value v p f => wakeCarry s cl uid (.value v p f)
  | .fault c v => wakeCarry s cl uid (.fail c v)
  | _ => s

/-- CARRY_COUNT_REPLY (R218): the last carry forces the batch bead, every other waits on it; the bead's reply is taken
here too. -/
def execCarryCountReply (cl : Nat) (s : State) : Host.Outcome State Fault Refusal :=
  .next (
    if !clRuns s cl then s
    else match takeArrived s (coreUnit (svcCore cl)) 1 (fun p => isCarryReply 1 p || isCarryReply 2 p) with
      | none => s
      | some (p, s) =>
        match p.body with
        | .reply (.carry _ uid stage) r =>
          let s := platCount s cl p
          (match carryAt s cl uid with
            | none => s
            | some ci =>
              if stage = 2 then carryBead s cl uid r
              else match r with
                | .words l => carryDemand s cl ci (wAt l 0)
                | .fault c _ => wakeCarry s cl uid (.fail c (wAt ci.desc 5))
                | _ => s)
        | _ => s)

/-- The output row written at home, its marks with it (R203, R220). -/
def carryRow (s : State) (core dst : Nat) (row : List Byte) (marks : List Nat) : State :=
  let k := scrKey core dst
  marks.foldl (fun s i => carryMark s (k + 8 * i) 8) (engineWrite s k row)

/-- Whether the home core may take a carry's return now: its records have room, and replay lets it write the row (R190). -/
def backReady (s : State) (core : Nat) (p : Packet) : Bool :=
  match p.body with
  | .carryBack uid _ _ _ row _ dst => lineGateOf s 7 (traceSrc s (.carry 0 uid 0) p.src) (linesOf ((List.range row.length).map (scrKey core dst + ·)))
  | _ => false

/-- CARRY_RETURN (R219, R220): the row and the burst are home, and the thread goes on there. -/
def execCarryReturn (core : Nat) (s : State) : Host.Outcome State Fault Refusal :=
  .next (
    if !coreRuns s core then s
    else match takeArrived s (coreUnit core) 0 (backReady s core) with
      | none => s
      | some (p, s) =>
        match p.body with
        | .carryBack uid t ws b row marks dst =>
          let x := getSlot s t
          if x.resv != some uid || !(getCont s uid).alive then s
          else
            let s := lineNotesOf s 7 (traceSrc s (.carry 0 uid 0) p.src) p.src (linesOf ((List.range row.length).map (scrKey core dst + ·)))
            let s := carryRow s core dst row marks
            let s := modCore s t.core fun c => { c with fwd := c.fwd.filter fun f => !(f.carry && f.old == t) }
            let s := modCont s uid fun k => { k with carry := k.carry.drop 1 }
            intoSlot s t uid x.wbase ws (some b) x.spb x.spl
        | _ => s)

end Sys2Proof.Machine
end

