-- ==== Sys2Proof/Machine/Chains.lean ====
section
/-!
DEFINITION. Deadlines of waiters (R110), and the wait-for chain tables of the roots (R108, R111).
-/

namespace Sys2Proof.Machine

/-- WAITER_DEADLINE (R110): the waiter leaves its list, and its thread takes WAIT_TIMEOUT. -/
def execWaiterDeadline (cl : Nat) (idx : Nat) (s : State) : Host.Outcome State Fault Refusal :=
  .next (match (getCl s cl).waiters.find? fun w => w.1 == idx with
    | none => s
    | some (_, w) =>
      match homeOf w.bead with
      | none => s
      | some unit =>
        if w.deadline = 0 || tickN s < w.deadline || unitCl unit != cl then s
        else wakeOne (dropWaiter s unit w.bead idx) unit w (.fail 0x0A 0))

/-- The FORCE waiters of a chain on a bead, with their pool indices. -/
def forcersOf (s : State) (b : BeadRef) (a : Word) : List (Nat × Waiter) :=
  match homeOf b.key with
  | some unit => (waitersOf s unit b.key).filter fun e => e.2.kind != 1 && e.2.chain == a
  | none => []

/-- The edge of a chain in its root's table, in place of an older one. -/
def wfcPut (s : State) (cl : Nat) (e : Wfc) : State :=
  modCl s cl fun c => { c with wfc := (c.wfc.filter fun w => w.chain != e.chain) ++ [e] }

/-- Whether a root's table can hold the edge of a chain (R108). -/
def wfcRoom (s : State) (cl : Nat) (a : Word) : Bool :=
  let t := (getCl s cl).wfc
  t.length < 1024 || t.any fun w => w.chain == a

/-- The question for the edge of chain b, asked on behalf of chain a. -/
def wfcAsk (s : State) (cl : Nat) (a b : Word) (hops : Nat) : State :=
  let u := coreUnit (svcCore cl)
  send s 4 (hskOf s u) u (coreUnit (svcCore (chainRoot b))) (.wfcQuery a b hops cl)

/-- WFC_EDGE (R108): the edge is recorded and followed. An edge whose wait has already ended is dropped (log 35). -/
def execWfcEdge (cl : Nat) (s : State) : Host.Outcome State Fault Refusal :=
  .next (match takeArrived s (coreUnit (svcCore cl)) 0 (fun p => match p.body with | .wfcEdge a _ _ _ => wfcRoom s cl a | _ => false) with
    | none => s
    | some (p, s) =>
      match p.body with
      | .wfcEdge a b h bead =>
        if (forcersOf s bead a).isEmpty then s else wfcAsk (wfcPut s cl { chain := a, on := some b, handle := h, bead := bead }) cl a b 1
      | _ => s)

/-- The edge of a chain at its root. -/
def wfcFind (s : State) (cl : Nat) (a : Word) : Option Wfc := (getCl s cl).wfc.find? fun w => w.chain == a

/-- WFC_QUERY (R41, R108): the chain that a chain waits for, or none; the answer is a reply. -/
def execWfcQuery (cl : Nat) (s : State) : Host.Outcome State Fault Refusal :=
  let u := coreUnit (svcCore cl)
  .next (match takeArrived s u 0 (fun p => match p.body with | .wfcQuery _ _ _ _ => true | _ => false) with
    | none => s
    | some (p, s) =>
      match p.body with
      | .wfcQuery a b hops _ =>
        let e := wfcFind s cl b
        answer s 18 u p (.wfcReply a (e.bind (·.on)) ((e.map (·.bead)).getD {}) hops)
      | _ => s)

/-- A chain that has closed a cycle fails (R111): its FORCE is withdrawn and takes SELF_DEPENDENCE with bit 0 of its handle
set; the bead at which a spark chain's claim was met becomes FAILED. -/
def wfcCycle (s : State) (e : Wfc) (met : BeadRef) : State :=
  let s := match homeOf met.key with
    | some unit => if chainSpark s e.chain && bdState s met.key == 2 && bdWord s met.key 2 == e.chain then bdFail s unit met 0x0B else s
    | none => s
  match homeOf e.bead.key with
  | none => s
  | some unit => (forcersOf s e.bead e.chain).foldl (fun s w =>
      wakeOne (dropWaiter s unit e.bead.key w.1) unit w.2 (.fail 0x0B (e.handle ||| 1))) s

/-- WFC_QUERY_REPLY (R42, R108, R111): the path is followed for up to 8 hops; a late reply is counted at the service core. -/
def execWfcQueryReply (cl : Nat) (s : State) : Host.Outcome State Fault Refusal :=
  .next (match takeArrived s (coreUnit (svcCore cl)) 1 (fun p => match p.body with | .wfcReply _ _ _ _ => true | _ => false) with
    | none => s
    | some (p, s) =>
      let s := platCount s cl p
      match p.body with
      | .wfcReply a (some x) bead hops =>
        (match wfcFind s cl a with
          | some e =>
            if e.on.isNone then s
            else if x = a then wfcCycle s e bead
            else if hops < 8 then wfcAsk s cl a x (hops + 1)
            else s
          | none => s)
      | _ => s)

end Sys2Proof.Machine
end

