-- ==== Sys2Proof/Machine/Control.lean ====
section
/-!
DEFINITION. Control flow (R295 to R298), undecodable patterns (R264, R274) and fetch faults (R263).
-/

namespace Sys2Proof.Machine

/-- A conditional branch on g[a] (R295). -/
def branch (enc : BitVec 32) (code a : Nat) (off : Word) (s : State) : Host.Outcome State Fault Refusal :=
  thr 4 enc s fun e => do
    chk e [a] [] []
    let (s, x) ← readR e e.s a
    return if brCond code x then jumpTo e s (e.sl.pc + off) else done e s

/-- BEQZ (R295). -/
def execBeqz (a : BitVec 7) (o : BitVec 15) (s : State) : Host.Outcome State Fault Refusal :=
  branch (Enc.beqz a o) 0 a.toNat (sx o * 2) s

/-- BNEZ (R295). -/
def execBnez (a : BitVec 7) (o : BitVec 15) (s : State) : Host.Outcome State Fault Refusal :=
  branch (Enc.bnez a o) 1 a.toNat (sx o * 2) s

/-- BLTZ (R295). -/
def execBltz (a : BitVec 7) (o : BitVec 15) (s : State) : Host.Outcome State Fault Refusal :=
  branch (Enc.bltz a o) 2 a.toNat (sx o * 2) s

/-- BGEZ (R295). -/
def execBgez (a : BitVec 7) (o : BitVec 15) (s : State) : Host.Outcome State Fault Refusal :=
  branch (Enc.bgez a o) 3 a.toNat (sx o * 2) s

/-- BGTZ (R295). -/
def execBgtz (a : BitVec 7) (o : BitVec 15) (s : State) : Host.Outcome State Fault Refusal :=
  branch (Enc.bgtz a o) 4 a.toNat (sx o * 2) s

/-- BLEZ (R295). -/
def execBlez (a : BitVec 7) (o : BitVec 15) (s : State) : Host.Outcome State Fault Refusal :=
  branch (Enc.blez a o) 5 a.toNat (sx o * 2) s

/-- BK (R296). -/
def execBk (k : BitVec 3) (n : BitVec 1) (o : BitVec 18) (s : State) : Host.Outcome State Fault Refusal :=
  thr 4 (Enc.bk k n o) s fun e =>
    return if (predGet e.sl k.toNat != 0) != (n == 1) then jumpTo e e.s (e.sl.pc + sx o * 2) else done e e.s

/-- JAL (R297). -/
def execJal (d : BitVec 7) (o : BitVec 18) (s : State) : Host.Outcome State Fault Refusal :=
  thr 4 (Enc.jal d o) s fun e => do
    chk e [] [d.toNat] []
    let s ← writeR e e.s d.toNat e.npc
    return jumpTo e s (e.sl.pc + sx o * 2)

/-- JALR (R297, R298). -/
def execJalr (d a : BitVec 7) (i : BitVec 11) (s : State) : Host.Outcome State Fault Refusal :=
  thr 4 (Enc.jalr d a i) s fun e => do
    chk e [a.toNat] [d.toNat] []
    let (s, x) ← readR e e.s a.toNat
    let target := x + sx i
    need (!bitAt target 0) 0x03 target
    let s ← writeR e s d.toNat e.npc
    return jumpTo e s target

/-- ILLEGAL_INSTRUCTION (R264, R274). -/
def execIllegalInstruction (enc : BitVec 32) (s : State) : Host.Outcome State Fault Refusal :=
  thr 4 enc s fun e => illegal e

/-- FETCH_FAULT (R263, R298). -/
def execFetchFault (cause : BitVec 8) (addr : BitVec 64) (s : State) : Host.Outcome State Fault Refusal :=
  thr 4 0 s fun _ => if cause = 0x07 then .error (.upcall addr) else trapX cause addr

end Sys2Proof.Machine
end

