-- ==== Sys2Proof/Machine/Network.lean ====
section
/-!
DEFINITION. The fabrics on the die and between dies: ticks and lateness (R36 to R40), cluster routers (R49, R51),
the Beam and its tokens (R44 to R48), bridges and the direct path (R11 to R13, R45).
-/

namespace Sys2Proof.Machine

/-! ### Ticks (R36, R38) -/

/-- SLACK_TICK (R36): the driving die's generator counts; with every die in reset no generator runs. -/
def execSlackTick (s : State) : Host.Outcome State Fault Refusal :=
  .next (if !s.power.supplyOk || (List.range 4).all fun d => (getDie s d).inReset then s else { pickDriver s with tick := s.tick + 1 })

/-- PACKET_LATE (R38): a packet whose remaining slack has reached zero is marked, with its late age. Every arbiter and every
departure takes it as late from that tick on, marked or not. -/
def execPacketLate (queue : Nat) (idx : Nat) (s : State) : Host.Outcome State Fault Refusal :=
  .next (setQ s queue (modAt (getQ s queue) idx fun p => { p with late := lateAge (tickN s) p }))

/-! ### Routers (R49, R51) -/

/-- The die of a router. -/
def routerDie (r : Nat) : Nat := r / 320

/-- Whether the router has a neighbour in a direction, and which (1 north, 2 east, 3 south, 4 west). -/
def neighbour (r out : Nat) : Option Nat :=
  let x := r % 20 % 4
  let y := r % 20 / 4
  match out with
  | 1 => if y = 0 then none else some (r - 4)
  | 2 => if x = 3 then none else some (r + 1)
  | 3 => if y = 4 then none else some (r + 4)
  | 4 => if x = 0 then none else some (r - 1)
  | _ => none

/-- The direction from which a neighbour sees what leaves in a direction. -/
def opposite (out : Nat) : Nat := match out with | 1 => 3 | 2 => 4 | 3 => 1 | 4 => 2 | _ => 0

/-- The router where a packet leaves the mesh of a cluster: its destination's, or the Beam writer's. -/
def meshExit (cl : Nat) (p : Packet) : Nat := if unitCl p.dst = cl && !isSliceUnit p.dst then unitRouter p.dst else beamRouter cl

/-- The output that a packet takes at a router: X, then Y (R49). -/
def routeOut (r : Nat) (p : Packet) : Nat :=
  let d := meshExit (r / 20) p
  let x := r % 20 % 4
  let y := r % 20 / 4
  let dx := d % 20 % 4
  let dy := d % 20 / 4
  if dx > x then 2 else if dx < x then 4 else if dy > y then 3 else if dy < y then 1 else 0

/-- The winner among the inputs of a router for an output: the input, the index in its queue (R40, R49). -/
def routerPick (s : State) (r out net : Nat) : Option (Nat × Nat) :=
  ((List.range 5).foldl (fun (best : Option (Nat × Nat × Nat)) dir =>
    match arb (tickN s) (fun p => routeOut r p == out) (getQ s (qk 0 r dir net)) with
    | some (i, rank) => (match best with
      | some (_, _, r0) => if rank < r0 then some (dir, i, rank) else best
      | none => some (dir, i, rank))
    | none => best) none).map fun b => (b.1, b.2.1)

/-- Whether a router input has room for a packet (R49). -/
def routerRoom (s : State) (r dir net : Nat) (p : Packet) : Bool := flitRoom (getQ s (qk 0 r dir net)) p

/-- Whether a packet that leaves the mesh at a router is for a unit there; else it goes to the Beam writer. -/
def meshHere (r : Nat) (p : Packet) : Bool := unitCl p.dst == r / 20 && !isSliceUnit p.dst

/-- Whether a unit is an optical port (R9). -/
def isPortUnit (u : Nat) : Bool := decide (0x30 ≤ unitIdx u) && decide (unitIdx u ≤ 0x33)

/-- Whether the input queue of a home has room for one more packet: 32 a network; a port's queues have no limit of their
own. -/
def homeRoom (s : State) (u net : Nat) : Bool :=
  isPortUnit u || (getQ s (qk 4 u 0 net)).length + (if net = 0 then (getQ s (qk 5 u 0 0)).length else 0) < 32

/-- A packet that leaves the mesh at a router: to its unit, or to the Beam writer. -/
def meshLeave (s : State) (r net : Nat) (p : Packet) : State :=
  if meshHere r p then arrive s net p else beamOut s (clDie (r / 20)) (r / 20 % 16) p

/-- A router that passes a flit is awake, and its idle timer starts again. -/
def routerUsed (s : State) (r : Nat) : State := modRouter s r fun x => { x with st := 0, last := tickN s }

/-- A packet taken off a router's input: the router is awake, and its local input is refilled. -/
def routerTake (s : State) (r dir net i : Nat) : State :=
  let k := qk 0 r dir net
  let s := routerUsed (setQ s k (delAt (getQ s k) i)) r
  if dir = 0 then refill s r net 32 else s

/-- ROUTER_FORWARD (R37, R40, R49): one packet passes an output; a router that is powering down passes none, and one that
is off wakes (R51). -/
def execRouterForward (router : Nat) (out : Nat) (net : Nat) (s : State) : Host.Outcome State Fault Refusal :=
  .next (
    if router ≥ 1280 || net ≥ 2 || !dieRuns s (routerDie router) || (getRouter s router).st = 1 then s
    else match routerPick s router out net with
      | none => s
      | some (dir, i) =>
        let k := qk 0 router dir net
        match (getQ s k)[i]? with
        | none => s
        | some p =>
          let p := depart (tickN s) p
          if out = 0 then
            if meshHere router p && !homeRoom s p.dst net then s else meshLeave (routerTake s router dir net i) router net p
          else match neighbour router out with
            | none => s
            | some n =>
              if (getRouter s n).st = 1 || !routerRoom s n (opposite out) net p then s
              else pushQ (routerUsed (routerTake s router dir net i) n) (qk 0 n (opposite out) net) p)

/-- Whether a flit waits at a router's inputs, at a unit of the router, or at a neighbour for it. -/
def flitWaits (s : State) (r : Nat) : Bool :=
  (List.range 2).any fun net =>
    ((List.range 5).any fun dir => !(getQ s (qk 0 r dir net)).isEmpty) || ((routerUnits r).any fun u => !(getQ s (qk 6 u 0 net)).isEmpty) ||
      [1, 2, 3, 4].any fun d => match neighbour r d with
        | some n => (routerPick s n (opposite d) net).isSome
        | none => false

/-- ROUTER_IDLE (R51): after its idle time a router powers down, unless a flit's wake wins. -/
def execRouterIdle (router : Nat) (s : State) : Host.Outcome State Fault Refusal :=
  let x := getRouter s router
  .next (
    if router ≥ 1280 || x.st != 0 || tickN s < x.last + x.idle then s
    else if flitWaits s router then modRouter s router fun x => { x with last := tickN s }
    else modRouter s router fun x => { x with st := 1 })

/-- ROUTER_POWERDOWN_DONE (R51): a flit that waits restarts the router at once. -/
def execRouterPowerdownDone (router : Nat) (s : State) : Host.Outcome State Fault Refusal :=
  .next (
    if (getRouter s router).st != 1 then s
    else if flitWaits s router then
      let s := routerUsed s router
      refill (refill s router 0 32) router 1 32
    else modRouter s router fun x => { x with st := 2 })

/-! ### The reckoning token (R46 to R48) -/

def getToken (s : State) (c : Nat) : Token := smGet {} s.tokens c
def modToken (s : State) (c : Nat) (f : Token → Token) : State := { s with tokens := smSet {} s.tokens c (f (getToken s c)) }

/-- The name of the pair stream that a writer bid, with its network. -/
def bidName (net : Nat) (p : Packet) : Nat := net * 2 ^ 28 + p.src * 2 ^ 14 + p.dst + 1

/-- The head that a writer ranks first of two queues, of the request and of the response network: network, index and
effective rank; the response network before the request network on equal rank (R40, R47). -/
def rankTwo (rq rs : Option (Nat × Nat)) : Option (Nat × Nat × Nat) :=
  match rs, rq with
  | some (i, a), some (j, b) => if b < a then some (0, j, b) else some (1, i, a)
  | some (i, a), none => some (1, i, a)
  | none, some (j, b) => some (0, j, b)
  | none, none => none

/-- The candidate of a writer for a channel, a stopped network left out. -/
def writerPick (s : State) (chan w : Nat) (t : Token) : Option (Nat × Nat × Nat) :=
  rankTwo (if t.rqStop then none else arb (tickN s) (fun _ => true) (getQ s (qk 1 chan w 0)))
    (if t.rsStop then none else arb (tickN s) (fun _ => true) (getQ s (qk 1 chan w 1)))

/-- A packet at the end of a channel: a slice's arrivals, or the buffer of a cluster's Beam receiver and the local input of its
router, where the router takes it (R49, R51). -/
def chanPut (s : State) (chan net : Nat) (p : Packet) : State :=
  let die := chan / 128
  let c := chan % 128
  if c < 64 then pushQ s (qk 4 p.dst 0 net) p else outPut s (beamRecv (die * 16 + (c - 64))) net p

/-- What a writer does on seeing GRANT (R48): the head that it bid is transmitted, or its lost-lap count changes. -/
def tokenGrant (s : State) (chan w : Nat) : State :=
  let t := getToken s chan
  let bid := smGet 0 t.bids w
  let empty := (getQ s (qk 1 chan w 0)).isEmpty && (getQ s (qk 1 chan w 1)).isEmpty
  let s' := modToken s chan fun t => { t with bids := smSet 0 t.bids w 0 }
  if bid != 0 && t.grant = w then
    let net := (bid - 1) / 2 ^ 28
    let k := qk 1 chan w net
    let s' := modToken s' chan fun t => { t with lost := smSet 0 t.lost w 0 }
    match idxOf (fun p => bidName net p == bid) (getQ s k) with
    | none => s'
    | some i =>
      match (getQ s k)[i]? with
      | none => s'
      | some p => chanPut (setQ s' k (delAt (getQ s k) i)) chan net (depart (tickN s) p)
  else if bid != 0 then modToken s' chan fun t => { t with lost := smMod 0 t.lost w (· + 1) }
  else if empty then modToken s' chan fun t => { t with lost := smSet 0 t.lost w 0 }
  else s'

/-- Whether a bid beats the token's (R47): lost laps n, effective slack sl, writer w. -/
def bidWins (n sl w : Nat) (t : Token) : Bool :=
  let tie := n > t.cnt || (n == t.cnt && w < t.bidder)
  if decide (n ≥ 16) != decide (t.cnt ≥ 16) then n ≥ 16
  else if n ≥ 16 then tie
  else sl < t.bid || (sl == t.bid && tie)

/-- A writer's bid (R47): the effective slack of its candidate, 0 when it is late. -/
def tokenBid (s : State) (chan w : Nat) : State :=
  let t := getToken s chan
  match writerPick s chan w t with
  | none => s
  | some (net, i, rank) =>
    match (getQ s (qk 1 chan w net))[i]? with
    | none => s
    | some p =>
      let n := min (smGet 0 t.lost w) 63
      let sl := if rank < 2 ^ 64 then 0 else rank - 2 ^ 64
      modToken s chan fun t =>
        let t := { t with bids := smSet 0 t.bids w (bidName net p) }
        if bidWins n sl w t then { t with bidder := w, bid := sl, cnt := n } else t

/-- Whether a channel of a die's Beam is a home channel whose token circulates. -/
def chanRuns (s : State) (chan : Nat) : Bool := decide (chan / 128 < 4) && decide (chan % 128 < 80) && dieRuns s (chan / 128)

/-- TOKEN_AT_WRITER (R47, R48): the token passes a writer, once in a lap. -/
def execTokenAtWriter (chan : Nat) (w : Nat) (s : State) : Host.Outcome State Fault Refusal :=
  .next (if !chanRuns s chan || w ≥ 18 || (getToken s chan).seen.contains w then s
    else modToken (tokenBid (tokenGrant s chan w) chan w) chan fun t => { t with seen := t.seen ++ [w] })

/-- Whether a home's input has no room for a 16-flit packet beyond the one that it keeps room for (R47; sizes: log 22). -/
def homeStop (s : State) (chan net : Nat) : Bool :=
  let die := chan / 128
  let c := chan % 128
  if c < 64 then
    let u := sliceUnit (die * 64 + c)
    decide ((getQ s (qk 4 u 0 net)).length + (if net = 0 then (getQ s (qk 5 u 0 0)).length else 0) ≥ 31)
  else !(getQ s (qk 0 (beamRouter (die * 16 + (c - 64))) 0 net)).isEmpty || !(getQ s (qk 6 (beamRecv (die * 16 + (c - 64))) 0 net)).isEmpty

/-- TOKEN_AT_HOME (R47): the token has passed every writer; the best bidder is granted the next lap, and the stop flags are
set for it. -/
def execTokenAtHome (chan : Nat) (s : State) : Host.Outcome State Fault Refusal :=
  .next (if !chanRuns s chan || !((List.range 18).all fun w => (getToken s chan).seen.contains w) then s
    else modToken s chan fun t =>
      { t with grant := t.bidder, bidder := 31, bid := 0xFFF, cnt := 0, rqStop := homeStop s chan 0, rsStop := homeStop s chan 1, seen := [] })

/-! ### Bridges (R11 to R13, R45) -/

/-- The die beyond a bridge port of a die: 0 its column boundary, 1 its row boundary (R8). -/
def bridgePeer (die port : Nat) : Nat := if port = 0 then die ^^^ 1 else die ^^^ 2

/-- A packet that arrives over a bridge: to the Beam of its die, or to the direct path of a diagonal route. -/
def bridgeArrive (s : State) (nd port net : Nat) (p : Packet) : State :=
  if unitDie p.dst = nd then pushQ s (qk 1 (unitChan p.dst) (16 + port) net) p
  else pushQ s (qk 3 nd 1 net) p

/-- The packet at a place of a queue as it leaves, and the state without it. -/
def leaveQ (s : State) (k i : Nat) : Option (Packet × State) :=
  ((getQ s k)[i]?).map fun p => (depart (tickN s) p, setQ s k (delAt (getQ s k) i))

/-- Whether a packet may cross to the die beyond a bridge: to a die in reset only what is for it. -/
def mayCross (s : State) (nd : Nat) (p : Packet) : Bool := !(getDie s nd).inReset || unitDie p.dst == nd

/-- The packet that a cluster's writer sends next over its bridge channel to a port's queue (R45, R47). -/
def chanForward (s : State) (die port c : Nat) : State :=
  let k := fun (net : Nat) => qk 1 (bridgeChan die port c) c net
  match rankTwo (arb (tickN s) (fun _ => true) (getQ s (k 0))) (arb (tickN s) (fun _ => true) (getQ s (k 1))) with
  | none => s
  | some (net, i, _) =>
    match leaveQ s (k net) i with
    | none => s
    | some (p, s) => pushQ s (qk 2 die port net) p

/-- The packet that a bridge port serves next crosses (R11 to R13). Requests to a die in reset are answered (R207); what only
passes through it waits. -/
def bridgeCross (s : State) (die port : Nat) : State :=
  let nd := bridgePeer die port
  let k := fun (net : Nat) => qk 2 die port net
  match rankTwo (arb (tickN s) (mayCross s nd) (getQ s (k 0))) (arb (tickN s) (mayCross s nd) (getQ s (k 1))) with
  | none => s
  | some (net, i, _) =>
    match leaveQ s (k net) i with
    | none => s
    | some (p, s) => if (getDie s nd).inReset && !isDeath p then answerLost s p else bridgeArrive s nd port net p

/-- BRIDGE_FORWARD (R11 to R13, R45): with chan below 16, the writer of that cluster sends a packet over its bridge channel;
with 16, the bridge port sends one across. Either serves the heads of both networks as a Beam writer ranks them. -/
def execBridgeForward (die : Nat) (port : Nat) (chan : Nat) (s : State) : Host.Outcome State Fault Refusal :=
  .next (
    if die ≥ 4 || port ≥ 2 || chan > 16 || !dieRuns s die then s
    else if chan < 16 then chanForward s die port chan else bridgeCross s die port)

/-- The head served next of two queues, one a network: the least rank, ties to the earlier arrival (R40). -/
def rankEarly (s : State) (k : Nat → Nat) : Option (Nat × Nat × Packet) :=
  let of := fun (net : Nat) => match arb (tickN s) (fun _ => true) (getQ s (k net)) with
    | some (i, r) => ((getQ s (k net))[i]?).map fun x => (net, i, r, x)
    | none => none
  match of 0, of 1 with
  | some (n, i, r, x), some (m, j, q, y) => if q < r || (q == r && y.since < x.since) then some (m, j, y) else some (n, i, x)
  | some (n, i, _, x), none => some (n, i, x)
  | none, some (m, j, _, y) => some (m, j, y)
  | none, none => none

/-- DIRECT_PATH_FORWARD (R45): from bridge port `inn` of a die over the direct path to the queue of its other bridge port. -/
def execDirectPathForward (die : Nat) (inn : Nat) (port : Nat) (s : State) : Host.Outcome State Fault Refusal :=
  .next (
    if die ≥ 4 || port ≥ 2 || inn + port != 1 || !dieRuns s die then s
    else match rankEarly s (qk 3 die port) with
      | none => s
      | some (net, i, _) =>
        match leaveQ s (qk 3 die port net) i with
        | none => s
        | some (p, s) => pushQ s (qk 2 die port net) p)

end Sys2Proof.Machine
end

