-- ==== Sys2Proof/Machine/Link.lean ====
section
/-!
DEFINITION. The optical ports: flits and codewords, go-back-N replay, training and retraining, and the packets of the
fabric (R14 to R24, R33, R34, R67, R208).
-/

namespace Sys2Proof.Machine

/-! ### Flits (R17, R20) -/

/-- One bit of a CRC-16 with polynomial 0x1021. -/
def crcBit (c : BitVec 16) (b : Bool) : BitVec 16 :=
  if c.msb != b then (c <<< 1) ^^^ 0x1021 else c <<< 1

/-- The CRC of bits [255:16] of a flit, most significant bit first, from 0xFFFF. -/
def flitCrc (f : BitVec 256) : BitVec 16 := (List.range 240).foldl (fun c i => crcBit c (f.getLsbD (255 - i))) 0xFFFF

def flitType (f : BitVec 256) : Nat := f.toNat / 2 ^ 252
def flitSeq (f : BitVec 256) : Nat := f.toNat / 2 ^ 240 % 4096
def flitPay (f : BitVec 256) : BitVec 224 := f.extractLsb' 16 224

/-- A flit of a type, with its CRC. -/
def mkFlit (typ seq : Nat) (pay : BitVec 224) : BitVec 256 :=
  let f : BitVec 256 := BitVec.ofNat 256 (typ * 2 ^ 252 + seq * 2 ^ 240 + pay.toNat * 2 ^ 16)
  f ||| (flitCrc f).setWidth 256

/-- Whether a received flit is kept: its CRC holds and its type is not reserved (R17). -/
def flitGood (f : BitVec 256) : Bool := flitCrc f == f.setWidth 16 && decide (flitType f < 8)

/-- The number of an ACK or NAK flit: payload bits [239:228] of the flit (R20). -/
def flitNum (f : BitVec 256) : Nat := f.toNat / 2 ^ 228 % 4096

/-- An ACK (5) or NAK (6) of a number. -/
def ackFlit (typ n : Nat) : BitVec 256 := mkFlit typ 0 (BitVec.ofNat 224 (n * 2 ^ 212))

/-- Fabric versions that the device supports (R22). -/
def verLow : Nat := 1
def verHigh : Nat := 1

/-- A training flit: state, fibres, versions, capabilities 0 (R20). -/
def trainFlit (st fibres : Nat) : BitVec 256 :=
  mkFlit 7 0 (BitVec.ofNat 224 (st * 2 ^ 220 + fibres * 2 ^ 217 + verLow * 2 ^ 208 + verHigh * 2 ^ 200))

/-- A flit sent. -/
def flitOut (p : Port) (f : BitVec 256) : Port := { p with out := p.out ++ [f] }

/-- The idle flit (R15, R20). -/
def idleFlit : BitVec 256 := mkFlit 0 0 0

/-- The alignment field of a codeword: the marker 0x6A3C above the codeword's number (R19). -/
def alignField (n : Nat) : BitVec 20 := BitVec.ofNat 20 (0x6A3C * 16 + n % 16)
/-- Whether an alignment field carries the marker. -/
def alignMark (f : BitVec 20) : Bool := f.toNat / 16 == 0x6A3C

/-- The message of codeword i of those that the port sends: 20 flits in their order and the alignment field (R19). -/
def codeword (k : Port) (i : Nat) : Option (List (BitVec 256) × BitVec 20) :=
  let fs := (k.out.drop (20 * i)).take 20
  if fs.length = 20 then some (fs, alignField i) else none

/-- Whether a port works: its die works, so its lasers are on. -/
def portRuns (s : State) (p : Nat) : Bool := decide (p < 16) && dieRuns s (p / 4)

/-- A flit taken from those that the last codewords passed on; one that comes while none waits is taken as it comes. -/
def flitIn (p : Port) (f : BitVec 256) : Option Port :=
  match p.rx with
  | [] => some p
  | g :: r => if g = f then some { p with rx := r } else none

/-- A NAK for the number that the port expects next; `err` counts a link error (R17, R20). -/
def sendNak (p : Port) (err : Bool) : Port :=
  { flitOut p (ackFlit 6 p.rxSeq) with linkErrs := p.linkErrs + (if err then 1 else 0) }

/-- A flit accepted: the next number is expected, and every 64th is acknowledged (R20). -/
def acceptFlit (p : Port) : Port :=
  let p := { p with rxSeq := (p.rxSeq + 1) % 4096, sinceAck := p.sinceAck + 1 }
  if p.sinceAck ≥ 64 then { flitOut p (ackFlit 5 ((p.rxSeq + 4095) % 4096)) with sinceAck := 0 } else p

/-! ### Packets of the fabric (R18, R33) -/

/-- A field of the header of a packet's first flit. -/
def hdFld (f : BitVec 256) (hi lo : Nat) : Nat := (flitPay f).toNat / 2 ^ lo % 2 ^ (hi + 1 - lo)

/-- The payload of a packet's first flit: the fabric header, with data above it (R18). -/
def headPay (x : Packet) (dev unit src slack : Nat) : BitVec 224 :=
  BitVec.ofNat 224 ((Config.fabricData x 0).toNat % 2 ^ 96 * 2 ^ 128 + dev % 65536 * 2 ^ 112 + unit * 2 ^ 98 + src * 2 ^ 84 +
    (flits x - 1) * 2 ^ 80 + slack % 4096 * 2 ^ 68 + x.cls * 2 ^ 63 + Config.deviceNumber.toNat)

/-- The flits of an outbound packet, numbered from seq. -/
def packetFlits (x : Packet) (dev unit src slack seq : Nat) : List (Nat × BitVec 256) :=
  let n := flits x
  (List.range n).map fun i =>
    let typ := if n = 1 then 4 else if i = 0 then 1 else if i = n - 1 then 3 else 2
    let sq := (seq + i) % 4096
    (sq, mkFlit typ sq (if i = 0 then headPay x dev unit src slack else Config.fabricData x i))

/-- The queue and place of the packet that a port serves next (R40). -/
def portPick (s : State) (u : Nat) : Option (Nat × Nat × Packet) := rankEarly s (qk 4 u 0)

/-- The remote device and unit to which an outbound packet goes, and its local unit: a reply to the requester that the port
has kept, a request to the device that it names (R33). -/
def remoteOf (p : Port) (x : Packet) : Option (Nat × Nat × Nat) :=
  match x.body with
  | .reply (.port _ id) _ => (p.remote.find? fun r => r.1 == id).map fun r => (r.2.1, r.2.2, x.src)
  | _ => x.rdev.map fun d => (d.1, d.2, x.src)

/-- The record of an inbound request that a reply ends. -/
def dropRemote (p : Port) (x : Packet) : Port :=
  match x.body with
  | .reply (.port _ id) _ => { p with remote := p.remote.filter fun r => r.1 != id }
  | _ => p

/-- A packet that cannot leave is discarded and counted; a request is answered UNCORRECTABLE (R24, R208). -/
def portDiscard (s : State) (p : Nat) (x : Packet) : State :=
  let s := if netOf x.cls = 0 then answerLost s x else s
  modPort s p fun k => { dropRemote k x with discarded := k.discarded + 1 }

/-- FABRIC_TRANSMIT (R15, R18, R20, R24, R33, R37, R40, R208): the next packet of a port's queues leaves with its fabric
header; with none, or with 2,048 flits unacknowledged, an idle flit leaves; a port that is down discards the packet. -/
def execFabricTransmit (port : Nat) (s : State) : Host.Outcome State Fault Refusal :=
  let u := portUnit port
  let k := getPort s port
  let idle := if k.st = .active then modPort s port fun k => flitOut k idleFlit else s
  .next (
    if !portRuns s port then s
    else match portPick s u with
      | none => idle
      | some (net, i, x0) =>
        let s' := setQ s (qk 4 u 0 net) (delAt (getQ s (qk 4 u 0 net)) i)
        let x := depart (tickN s) x0
        if k.st = .down then portDiscard s' port x
        else if k.st != .active || k.replayB.length + flits x > 2048 then idle
        else match remoteOf k x with
          | none => portDiscard s' port x
          | some (dev, ru, lu) =>
            let fs := packetFlits x dev ru lu (x.slack - k.flight) k.txSeq
            modPort s' port fun k => { dropRemote k x with
              txSeq := (k.txSeq + fs.length) % 4096, replayB := k.replayB ++ fs, out := k.out ++ fs.map (·.2)
              await := if net = 0 && bodyRet x.body != .none then k.await ++ [x] else k.await })

/-! ### Arrival of packets -/

/-- A peer's access to a notify page: its bound device writes ringidx and reads compcnt and qstat (R67); any other store is
discarded and counted. The reply has the request's slack and lateness (R41). -/
def pageAccess (s : State) (port id cls dev slack : Nat) (pg : Nat × Nat × Nat) (v : Word) : State :=
  let (fn, q, off) := pg
  let n := getNq s fn q
  let answer := fun (s : State) (c : Nat) (r : Res) => pushQ s (qk 4 (portUnit port) 0 1)
    { cls := c, src := portUnit port, dst := portUnit port, slack := slack, late := if slack = 0 then some (tickN s) else none,
      body := .reply (.port port id) r }
  if n.peer != some dev || q ≥ nqCount fn then
    if cls = 1 then modPort s port fun k => { k with badStores := k.badStores + 1, remote := k.remote.filter fun r => r.1 != id }
    else answer s 16 (.fault 0x08 0)
  else if cls = 1 then answer (if off = 0 then ringidxPut s fn q v else s) 17 .ok
  else answer s 16 (.words [if off = 0x10 then wd n.compcnt else if off = 0x30 then wd (n.awaited % 2 ^ 48 * 65536 + n.err * 256 + n.st) else 0])

/-- A packet that has come in whole, from the flits that carried it: the on-die header is written with the port as the
source (R18, R33, R34). -/
def packetIn (s : State) (port : Nat) (fs : List (BitVec 256)) : State :=
  let h := fs.headD 0
  let cls := hdFld h 67 63
  let slack := hdFld h 79 68
  let dev := hdFld h 15 0
  let runit := hdFld h 97 84
  let dst := hdFld h 111 98
  let pays := fs.map flitPay
  let u := portUnit port
  let mk : Body → Packet := fun b => { cls := cls, slack := slack, src := u, dst := dst, body := b, late := if slack = 0 then some (tickN s) else none }
  if (12 ≤ cls && cls ≤ 15) || cls ≥ 23 then modPort s port fun k => { k with linkErrs := k.linkErrs + 1 }
  else if cls < 16 then
    let id := (getPort s port).reqs
    let s := modPort s port fun k => { k with reqs := id + 1, remote := k.remote ++ [(id, dev, runit)] }
    match Config.fabricPage pays with
    | some pg => if cls ≤ 1 then pageAccess s port id cls dev slack pg (Config.fabricWord pays) else inject s (mk (Config.fabricBody cls pays (.port port id)))
    | none => inject s (mk (Config.fabricBody cls pays (.port port id)))
  else if cls ≤ 20 then
    match (getPort s port).await.find? fun w => w.src == dst && replyCls w.cls == cls && w.rdev == some (dev, runit) with
    | some w => inject (modPort s port fun k => { k with await := k.await.erase w }) (mk (.reply (bodyRet w.body) (Config.fabricRes pays)))
    | none => s
  else inject s (mk (Config.fabricBody cls pays .none))

/-- An accepted data flit joins its packet; the last one completes it (R17). -/
def flitJoin (s : State) (port : Nat) (f : BitVec 256) : State :=
  let k := getPort s port
  match flitType f with
  | 1 => modPort s port fun k => { k with part := [f] }
  | 2 => if k.part.isEmpty then s else modPort s port fun k => { k with part := k.part ++ [f] }
  | 3 => if k.part.isEmpty then s else packetIn (modPort s port fun k => { k with part := [] }) port (k.part ++ [f])
  | _ => packetIn (modPort s port fun k => { k with part := [] }) port [f]

/-- Whether the codewords of a port are aligned, so that flits come in. -/
def flitsFlow (k : Port) : Bool := k.st == .fec || k.st == .version || k.st == .active

/-- FLIT_RECEIVE (R17, R18, R20): the next data flit in order is accepted; a flit whose CRC fails or whose type is reserved
is discarded and counted, one out of order is discarded, and an active port answers either with a NAK. Before the link is
active data flits are discarded, to be sent again (log 52). -/
def execFlitReceive (port : Nat) (flit : BitVec 256) (s : State) : Host.Outcome State Fault Refusal :=
  .next (
    if !portRuns s port || !flitsFlow (getPort s port) then s
    else match flitIn (getPort s port) flit with
      | none => s
      | some k =>
        if !flitGood flit then modPort s port fun _ => if k.st = .active then sendNak k true else { k with linkErrs := k.linkErrs + 1 }
        else if flitType flit = 0 then modPort s port fun _ => k
        else if flitType flit ≥ 5 then s
        else if k.st != .active then modPort s port fun _ => k
        else if flitSeq flit != k.rxSeq then modPort s port fun _ => sendNak k false
        else flitJoin (modPort s port fun _ => acceptFlit k) port flit)

/-- The replay buffer after a cumulative acknowledgement. -/
def ackDrop (n : Nat) (l : List (Nat × BitVec 256)) : List (Nat × BitVec 256) :=
  match idxOf (fun e => e.1 == n) l with
  | some i => l.drop (i + 1)
  | none => l

/-- ACK_RECEIVE (R20). Before the link is active an ACK or NAK flit is discarded (log 52). -/
def execAckReceive (port : Nat) (flit : BitVec 256) (s : State) : Host.Outcome State Fault Refusal :=
  .next (
    if !portRuns s port || !flitsFlow (getPort s port) || !flitGood flit || flitType flit != 5 then s
    else match flitIn (getPort s port) flit with
      | none => s
      | some k => modPort s port fun _ => if k.st = .active then { k with replayB := ackDrop (flitNum flit) k.replayB } else k)

/-- NAK_RECEIVE (R20, R23): the flits from the named one on are sent again, and the NAK is counted. -/
def execNakReceive (port : Nat) (flit : BitVec 256) (s : State) : Host.Outcome State Fault Refusal :=
  .next (
    if !portRuns s port || !flitsFlow (getPort s port) || !flitGood flit || flitType flit != 6 then s
    else match flitIn (getPort s port) flit with
      | none => s
      | some k =>
        if k.st != .active then modPort s port fun _ => k else
        let again := match idxOf (fun e => e.1 == flitNum flit) k.replayB with
          | some i => (k.replayB.drop i).map (·.2)
          | none => []
        modPort s port fun _ => { k with out := k.out ++ again, naks := k.naks ++ [tickN s] })

/-- CODEWORD_RECEIVE (R19): up to 15 symbol errors are corrected; the flits of a codeword that cannot be corrected are
passed on as they came. `sent` are the flits as they were sent, `got` the flits as they came with the codeword's alignment
field. A codeword whose alignment field is not the one due counts as one that cannot be corrected (DESIGN CHOICE, log 52). -/
def execCodewordReceive (port : Nat) (sent : List (BitVec 256)) (got : List (BitVec 256) × BitVec 20) (errors : Nat) (s : State) :
    Host.Outcome State Fault Refusal :=
  .next (
    if !portRuns s port || !flitsFlow (getPort s port) || sent.length != 20 || got.1.length != 20 then s
    else modPort s port fun k =>
      let ok := decide (errors ≤ 15) && got.2 == alignField k.cwNum
      { k with rx := k.rx ++ ((if ok then sent else got.1).filter fun f => !(flitGood f && flitType f == 0))
               fecGood := if ok then k.fecGood + 1 else 0, cwNum := (k.cwNum + 1) % 16 })

/-! ### Training (R16, R21 to R24) -/

/-- Ticks of 1 ms and of 10 ms (R36). -/
def ms1 : Nat := 500000
def ms10 : Nat := 5000000

/-- Whether a port is in a training attempt. -/
def training (k : Port) : Bool := k.st == .lock || k.st == .align || k.st == .fec || k.st == .version

/-- A link-retrained notice to the clusters of the port's partition (R23, R24; log 26). -/
def linkNotice (s : State) (port status detail : Nat) : State :=
  postNotice s (portUnit port) { type := 2, status := status, subject := wd port, detail := wd detail } (partition s (getCl s (portCl port)).fn)

/-- Packets whose last flit stands in a replay buffer. -/
def replayPkts (k : Port) : Nat := (k.replayB.filter fun e => flitType e.2 == 3 || flitType e.2 == 4).length

/-- A port that goes down after a failed retrain (R24, R208): the replay buffer and the queued packets are discarded, and
the outstanding and discarded requests answered. The notice counts the queued packets and those whose last flit the replay
buffer holds (DESIGN CHOICE, log 53). The next sequence numbers to send and to expect stay (DESIGN CHOICE, log 76). -/
def retrainFailed (s : State) (port : Nat) : State :=
  let u := portUnit port
  let k := getPort s port
  let q := getQ s (qk 4 u 0 0) ++ getQ s (qk 4 u 0 1)
  let s := setQ (setQ s (qk 4 u 0 0) []) (qk 4 u 0 1) []
  let s := modPort s port fun k => { k with st := .down, retrain := false, replayB := [], part := [], rx := [], await := [], remote := [] }
  let s := k.await.foldl answerLost s
  let s := q.foldl (fun s x => portDiscard s port (depart (tickN s) x)) s
  linkNotice s port 1 (q.length + replayPkts k)

/-- An attempt that has failed: the next one starts, or the port goes down (R21, R24). -/
def attemptFailed (s : State) (port : Nat) (ver : Bool) : State :=
  let k := getPort s port
  let s := modPort s port fun k => { k with attempts := k.attempts + 1, failVer := ver, fecGood := 0, rx := [] }
  if k.attempts + 1 < 3 then modPort s port fun k => { k with st := .lock, since := tickN s }
  else if k.retrain then retrainFailed s port
  else modPort s port fun k => { k with st := .down }

/-- The link is up: its flight time is measured; a retrained link sends its unacknowledged flits again and its notice is
posted (R23, R37; the flight time is a free value). -/
def linkUp (s : State) (port : Nat) : State :=
  let k := getPort s port
  let fl := (Config.freeWord s.freeCnt).toNat % 4096
  let s := { s with freeCnt := s.freeCnt + 1 }
  let s := modPort s port fun k => { k with st := .active, ver := verHigh, failVer := false, retrain := false, flight := fl,
                                            out := k.out ++ k.replayB.map (·.2), naks := [] }
  if k.retrain then linkNotice s port 0 k.fibres else s

/-- TRAINING_FLIT_RECEIVE (R20 to R23): in VERSION the peer's range of versions is compared with the device's; an attempt
that has lasted 10 ms fails. With no fibre locked the port is down and its attempt goes no further (R16). -/
def execTrainingFlitReceive (port : Nat) (flit : BitVec 256) (s : State) : Host.Outcome State Fault Refusal :=
  let pay := (flitPay flit).toNat
  .next (
    if !portRuns s port || !flitGood flit || flitType flit != 7 then s
    else match flitIn (getPort s port) flit with
      | none => s
      | some k =>
        let s := modPort s port fun _ => k
        if k.st != .version || k.fibres = 0 || pay / 2 ^ 220 != 3 then s
        else if tickN s ≥ k.since + ms10 then attemptFailed s port false
        else if max verLow (pay / 2 ^ 208 % 256) ≤ min verHigh (pay / 2 ^ 200 % 256) then linkUp s port
        else attemptFailed s port true)

/-- The fibres in use of those that hold lock: 4, 2 or 1, the others mapped out (R16). -/
def fibresUsed (locked : BitVec 4) : Nat :=
  let n := popCount 4 locked.toNat
  if n = 4 then 4 else if n ≥ 2 then 2 else n

/-- LOCK_HOLD_EXPIRY (R16, R21): the fibres that held lock for 1 ms, by their bits; with none the port is down, and the
attempt goes no further. -/
def execLockHoldExpiry (port : Nat) (locked : BitVec 4) (s : State) : Host.Outcome State Fault Refusal :=
  let k := getPort s port
  let n := fibresUsed locked
  .next (
    if !portRuns s port || k.st != .lock || tickN s < k.since + ms1 then s
    else if n = 0 then modPort s port fun k => { k with locked := 0, fibres := 0 }
    else modPort s port fun k => { flitOut k (trainFlit 1 n) with st := .align, fibres := n, locked := locked })

/-- MARKERS_ALIGNED (R19, R21): ALIGN locks on the alignment field that has come in on all active fibres; the next codeword
carries the number after it. `mark` is the port and that field. A port with no fibre locked goes no further (R16). -/
def execMarkersAligned (mark : Nat × BitVec 20) (s : State) : Host.Outcome State Fault Refusal :=
  .next (if !portRuns s mark.1 || (getPort s mark.1).st != .align || (getPort s mark.1).fibres = 0 || !alignMark mark.2 then s
    else modPort s mark.1 fun k => { flitOut k (trainFlit 2 k.fibres) with st := .fec, fecGood := 0, cwNum := (mark.2.toNat + 1) % 16 })

/-- FEC_CODEWORD_COUNT (R16, R21): 64 consecutive codewords have been corrected, on the fibres that hold lock. -/
def execFecCodewordCount (port : Nat) (s : State) : Host.Outcome State Fault Refusal :=
  .next (if !portRuns s port || (getPort s port).st != .fec || (getPort s port).fibres = 0 || (getPort s port).fecGood < 64 then s
    else modPort s port fun k => { flitOut k (trainFlit 3 k.fibres) with st := .version })

/-- TRAINING_TIMEOUT (R21): 10 ms from the entry into LOCK. -/
def execTrainingTimeout (port : Nat) (s : State) : Host.Outcome State Fault Refusal :=
  .next (if !portRuns s port || !training (getPort s port) || tickN s < (getPort s port).since + ms10 then s
    else attemptFailed s port false)

/-- An active link that retrains (R23). -/
def retrain (s : State) (port : Nat) : State :=
  if !portRuns s port || (getPort s port).st != .active then s
  else modPort s port fun k => flitOut (startTraining (tickN s) k) (trainFlit 0 k.fibres)

/-- FEC_LOCK_LOSS (R23). -/
def execFecLockLoss (port : Nat) (s : State) : Host.Outcome State Fault Refusal := .next (retrain s port)

/-- NAK_RATE_EXCEEDED (R23): more than 16 NAKs have come within 1 ms. -/
def execNakRateExceeded (port : Nat) (s : State) : Host.Outcome State Fault Refusal :=
  .next (if ((getPort s port).naks.filter fun t => tickN s < t + ms1).length > 16 then retrain s port else s)

/-- FIBRE_LOCK_LOSS (R16, R23): a fibre that held lock loses it and is mapped out, so that 4, 2 or 1 of those left are in
use, and an active link retrains; with no fibre left the port is down. -/
def execFibreLockLoss (port : Nat) (fibre : Nat) (s : State) : Host.Outcome State Fault Refusal :=
  .next (
    if fibre ≥ 4 || !portRuns s port || !(getPort s port).locked.getLsbD fibre then s
    else
      let s := modPort s port fun k =>
        let l := k.locked &&& ~~~(BitVec.ofNat 4 (2 ^ fibre))
        { k with locked := l, fibres := fibresUsed l }
      retrain s port)

end Sys2Proof.Machine
end

