-- ==== Sys2Proof/Machine/Mgmt.lean ====
section
/-!
DEFINITION. The management commands (R60): partitions, contexts, queues, keys, modes, traces, attestation, device
threads, resets and debugging.
-/

namespace Sys2Proof.Machine

/-- The function that the command concerns. -/
def cmdFn (s : State) : Nat := cmdNat s 2 2

/-- A management command performed: its op and sub-operation must be those of the row; a reserved or unused byte that is
not 0, or a function above 31, makes it INVALID, and a refused command changes nothing (R60). `used` lists the operand
bytes as (first, count). -/
def mgmtCmd (s : State) (op : Nat) (sub : Bool) (used : List (Nat × Nat)) (f : State → State × Nat × List Word) : Host.Outcome State Fault Refusal :=
  .next (
    if !s.mgmt.busy || !s.power.supplyOk || cmdByte s 0 != op || !sub then s
    else if cmdByte s 1 != 0 || cmdFn s ≥ 32 ||
        (List.range 248).any (fun i => cmdByte s (i + 8) != 0 && !(used.any fun u => u.1 ≤ i + 8 && i + 8 < u.1 + u.2)) then mgmtEnd s 2 []
    else
      let (s', st, resp) := f s
      mgmtEnd (if st = 0 then s' else s) st resp)

/-- A refused command. -/
def no (s : State) (st : Nat) : State × Nat × List Word := (s, st, [])
/-- A command performed. -/
def yes (s : State) : State × Nat × List Word := (s, 0, [])

/-- Whether a partition is idle: no admitted launch of it is incomplete (R57, R74). -/
def fnIdle (s : State) (fn : Nat) : Bool := (getFn s fn).queues.all fun q => q.2.entries.all fun e => e.written

/-- The partitions with a cluster on a die. -/
def dieFns (s : State) (die : Nat) : List Nat := ((List.range 16).map fun c => (getCl s (die * 16 + c)).fn).eraseDups

/-! ### Partitions, contexts and queues -/

/-- ASSIGN (R57). -/
def execAssign (s : State) : Host.Outcome State Fault Refusal :=
  mgmtCmd s 0x01 true [(8, 8)] fun s =>
    let fn := cmdFn s
    let mask := wd (cmdNat s 8 8)
    let cls := (List.range 64).filter fun c => bitAt mask c
    if fn = 0 then no s 2
    else if !fnIdle s fn || !(cls.all fun c => fnIdle s (getCl s c).fn) then no s 1
    else yes (cls.foldl (fun s c => modCl s c fun k => { k with fn := fn }) s)

/-- Bytes of DRAM that a context's storage takes (R79). -/
def storageBytes (s : State) (fn : Nat) (c : Ctx) : Nat :=
  let cores := ((partition s fn).flatMap clCores).length
  c.spillK * 1024 + cores * (c.segs * 65536 + c.ovfK * 1024)

/-- The 4 KiB pages of storage in which a context's spill pool lies. -/
def poolPages (s : State) (n : Nat) (c : Ctx) : List Nat :=
  (List.range ((c.spillK + 3) / 4)).filterMap fun i =>
    match vkey s none n (c.spill.toNat + 4096 * i) 0 with
    | .ok (k, _) => some (k / 4096)
    | .error _ => none

/-- The limits that CTXNEW checks (R79, R160): the pool's place and size, the segments, the overflow area, the region
table, overlap, and the partition's DRAM.  The pool of a native context must be mapped into DRAM when it is checked; segment
pools and overflow areas are given no address, and the device keeps them apart (log 19). -/
def ctxOk (s : State) (n : Nat) (c : Ctx) : Bool :=
  let fn := c.fn
  let lo := c.spill.toNat
  let hi := lo + c.spillK * 1024
  let mine := s.ctxs.filter fun e => e.2.live && e.2.fn = fn
  let s' := { s with ctxs := smSet {} s.ctxs n c }
  let others := mine.flatMap fun e => poolPages s e.1 e.2
  lo % 4096 = 0 && 64 ≤ c.spillK && c.spillK ≤ 2 ^ 30 && 64 ≤ c.segs && c.segs ≤ 4096 && 64 ≤ c.ovfK && c.ovfK ≤ 16384 &&
    hi ≤ 2 ^ 57 && c.regTab.toNat % 0x40000 = 0 &&
    mine.all (fun e => e.2.root != c.root || e.2.host != c.host || hi ≤ e.2.spill.toNat || e.2.spill.toNat + e.2.spillK * 1024 ≤ lo) &&
    mine.foldl (fun a e => a + storageBytes s fn e.2) (storageBytes s fn c) ≤ (partition s fn).length * 4 * 0x60000000 &&
    (c.host || (List.range ((c.spillK + 3) / 4)).all fun i =>
      match vkey s' none n (lo + 4096 * i) 0 with
      | .ok (k, _) => isDram k && !others.contains (k / 4096)
      | .error _ => false)

/-- CTXNEW (R78, R79, R160). -/
def execCtxnew (s : State) : Host.Outcome State Fault Refusal :=
  mgmtCmd s 0x02 true [(8, 45)] fun s =>
    let n := cmdNat s 8 2
    let c : Ctx := { live := true, fn := cmdFn s, host := cmdByte s 10 == 1, levels := cmdByte s 11, posP := cmdByte s 12, posW := cmdByte s 13,
                     posNx := cmdByte s 14, posF := cmdByte s 15, root := wd (cmdNat s 16 8), regTab := wd (cmdNat s 24 8),
                     spill := wd (cmdNat s 32 8), spillK := cmdNat s 40 8, segs := cmdNat s 48 2, segB := Config.segBase n, ovfK := cmdNat s 50 2,
                     steal := BitVec.ofNat 2 (cmdByte s 52) }
    if cmdByte s 10 > 1 || cmdByte s 52 > 3 || (getCtx s n).live ||
        (c.host && (c.levels < 4 || c.levels > 5 || c.posP ≥ 64 || c.posW ≥ 64 || c.posNx ≥ 64 || c.posF ≥ 64)) || !ctxOk s n c then no s 2
    else yes { s with ctxs := smSet {} s.ctxs n c }

/-- What the device has cached for a context, dropped when the context ends (log 25). -/
def dropCaches (s : State) (ctx : Nat) : State :=
  { s with
    cores := s.cores.map (fun (e : Nat × Core) => (e.1, { e.2 with tlb := e.2.tlb.filter (fun x => fld x.2.w0 63 48 != ctx),
                                                                   clb := e.2.clb.filter (fun x => x.2.ctx != ctx) })),
    clusters := s.clusters.map (fun (e : Nat × Cluster) => (e.1, { e.2 with regions := e.2.regions.filter fun r => r.1 / 4096 != ctx })) }

/-- CTXEND (R206, R439). -/
def execCtxend (s : State) : Host.Outcome State Fault Refusal :=
  mgmtCmd s 0x03 true [(8, 2)] fun s =>
    let n := cmdNat s 8 2
    if !(getCtx s n).live || (getCtx s n).fn != cmdFn s then no s 2
    else
      let s := dropCaches (teardown s n stDISCARDED) n
      let mark := fun (q : Nat × NQueue) => (q.1, { q.2 with stale := q.2.stale || q.2.ctx == some n })
      yes { s with ctxs := smDel s.ctxs n, fns := s.fns.map fun (f : Nat × Fn) => (f.1, { f.2 with queues := f.2.queues.map mark }) }

/-- QBIND (R78). -/
def execQbind (s : State) : Host.Outcome State Fault Refusal :=
  mgmtCmd s 0x04 true [(8, 4)] fun s =>
    let fn := cmdFn s
    let q := cmdNat s 8 2
    let c := cmdNat s 10 2
    if q ≥ nqCount fn || !(getCtx s c).live || (getCtx s c).fn != fn then no s 2
    else if (getNq s fn q).st != 0 then no s 1
    else yes (modNq s fn q fun n => { n with ctx := some c, stale := false })

/-- PEER (R67). -/
def execPeer (s : State) : Host.Outcome State Fault Refusal :=
  mgmtCmd s 0x05 true [(8, 4)] fun s =>
    let fn := cmdFn s
    let q := cmdNat s 8 2
    let d := cmdNat s 10 2
    if q ≥ nqCount fn then no s 2
    else yes (modNq s fn q fun n => { n with peer := if d = 0xFFFF then none else some d })

/-- KEY with byte 9 = 1 (R72). -/
def execKeyInstall (s : State) : Host.Outcome State Fault Refusal :=
  mgmtCmd s 0x06 (cmdByte s 9 == 1) [(8, 2), (16, 32)] fun s =>
    if cmdByte s 8 ≥ 8 then no s 2
    else yes (modFn s (cmdFn s) fun f =>
      { f with keys := smSet [] f.keys (cmdByte s 8) ((List.range 4).map fun i => wd (cmdNat s (16 + 8 * i) 8)) })

/-- KEY with byte 9 = 0 (R72). -/
def execKeyClear (s : State) : Host.Outcome State Fault Refusal :=
  mgmtCmd s 0x06 (cmdByte s 9 == 0) [(8, 2), (16, 32)] fun s =>
    if cmdByte s 8 ≥ 8 then no s 2 else yes (modFn s (cmdFn s) fun f => { f with keys := smDel f.keys (cmdByte s 8) })

/-- SIGNED (R72). -/
def execSigned (s : State) : Host.Outcome State Fault Refusal :=
  mgmtCmd s 0x07 true [(8, 1)] fun s =>
    if cmdByte s 8 > 1 then no s 2 else yes (modFn s (cmdFn s) fun f => { f with signed := cmdByte s 8 == 1 })

/-! ### Modes (R74, R101) -/

/-- The entries of a core's urgent inbox and urgent deque moved when urgent service is disabled (R101). -/
def urgentOff (s : State) (core : Nat) : State :=
  let c := getCore s core
  let s := c.uinbox.foldl (fun s i => injPush s (coreCl core) { i with prio := 3, urgent := false }) s
  let s := c.udeque.foldl (fun s d => dequePush s core false d) s
  modCore s core fun c => { c with uinbox := [], udeque := [] }

/-- MODE (R74, R101). -/
def execMode (s : State) : Host.Outcome State Fault Refusal :=
  mgmtCmd s 0x08 true [(8, 1)] fun s =>
    let fn := cmdFn s
    let m := wd (cmdByte s 8)
    let f := getFn s fn
    if cmdByte s 8 ≥ 32 then no s 2
    else if (f.recMode != bitAt m 0 || f.replay != bitAt m 1 || f.hostSh != bitAt m 2) && !fnIdle s fn then no s 1
    else
      let s' := if f.urgent && !bitAt m 4 then ((partition s fn).flatMap clCores).foldl urgentOff s else s
      yes (modFn s' fn fun f => { f with recMode := bitAt m 0, replay := bitAt m 1, hostSh := bitAt m 2, debug := bitAt m 3, urgent := bitAt m 4 })

/-- SHARE (R146). -/
def execShare (s : State) : Host.Outcome State Fault Refusal :=
  mgmtCmd s 0x09 true [(8, 2)] fun s =>
    let die := cmdByte s 8
    if die > 3 || cmdByte s 9 > 24 then no s 2
    else if !((dieFns s die).all fun f => fnIdle s f) then no s 1
    else yes (modDie s die fun d => { d with share := cmdByte s 9 })

/-! ### Recording and replay (R209, R210) -/

/-- TRACE (R209, R210): the ring, its policy, and the trace to replay; its homes start at the beginning. -/
def execTrace (s : State) : Host.Outcome State Fault Refusal :=
  mgmtCmd s 0x0A true [(8, 17), (32, 16)] fun s =>
    let fn := cmdFn s
    if cmdByte s 24 > 1 then no s 2
    else if !fnIdle s fn then no s 1
    else
      let s := modFn s fn fun f =>
        { f with trBase := wd (cmdNat s 8 8), trBytes := wd (cmdNat s 16 8), trStall := cmdByte s 24 == 1, trHead := 0, trTail := 0,
                 rpBase := wd (cmdNat s 32 8), rpBytes := wd (cmdNat s 40 8), rep5 := [], rep5At := tickN s, diverged := false }
      let fresh : Nat × HomeSt → Nat × HomeSt := fun h =>
        if unitFn s h.1 = fn then (h.1, { h.2 with replayAt := 0, free := false, lastRep := tickN s, pairSeq := [] }) else h
      yes { s with homes := s.homes.map fresh }

/-- A system-call reply that came during a halt, or while the trace ring was full under stall, is taken once neither holds it
(R74, R209). -/
def resumeCall (s : State) (t : Tid) : State :=
  let sl := getSlot s t
  match sl.wait, sl.res with
  | some .sysc, some (.words [a0, a1]) => if sysHeld s t then s else sysDeliver s t a0 a1
  | _, _ => s

/-- The replies that the parked calls of a partition have kept, taken where nothing holds them. -/
def resumeCalls (s : State) (fn : Nat) : State :=
  (slotsOf s ((partition s fn).flatMap clCores)).foldl (fun s x => resumeCall s x.1) s

/-- DRAIN (R209): the ring has room, and the homes that stopped for want of it resume, their parked accesses and the system-call
replies included. -/
def execDrain (s : State) : Host.Outcome State Fault Refusal :=
  mgmtCmd s 0x0B true [(8, 8)] fun s =>
    let fn := cmdFn s
    let f := getFn s fn
    if f.trTail + cmdNat s 8 8 > f.trHead then no s 2
    else yes (resumeCalls (((partition s fn).flatMap clCores).foldl retest (modFn s fn fun f => { f with trTail := f.trTail + cmdNat s 8 8 })) fn)

/-! ### Attestation (R32) -/

/-- The bytes of a partition's configuration. -/
def partConfig (s : State) (fn : Nat) : List Byte :=
  let f := getFn s fn
  Config.configBytes fn (partition s fn) ((List.range 4).map fun d => (getDie s d).share)
    [f.signed, f.recMode, f.replay, f.hostSh, f.debug, f.urgent] f.keys

/-- The bytes of a report before its signature. -/
def reportBody (s : State) (fn : Nat) (nonce : List Byte) : List Byte :=
  let f := getFn s fn
  let digests := s.boot.fw.map (fun st => Config.sha512 st.image) ++ [Config.sha512 (partConfig s fn)]
  let flags := b2n f.debug + 2 * b2n f.recMode + 4 * b2n f.replay + 8 * b2n ((List.range 64).any fun c => (getCl s c).fn != 0)
  leBytes 2 1 ++ leBytes 2 digests.length ++ leBytes 4 flags ++ nonce ++ leBytes 8 Config.serial.toNat ++
    digests.zipIdx.flatMap fun d => leBytes 8 (Config.measureTag d.2).toNat ++ leBytes 64 d.1.toNat

/-- ATTEST (R31, R32, R73). mresp bytes 8 to 39 give the public half of the identity key, which R31 makes readable over the
host link and R60 gives no command of its own (DESIGN CHOICE, log 54). -/
def execAttest (s : State) : Host.Outcome State Fault Refusal :=
  mgmtCmd s 0x0C true [(8, 2), (16, 40)] fun s =>
    if cmdNat s 8 2 != 1 then no s 4
    else
      let body := reportBody s (cmdFn s) ((List.range 32).map fun i => BitVec.ofNat 8 (cmdByte s (16 + i)))
      let report := body ++ leBytes 64 (Config.identitySign body).toNat
      (homeWriteL s (hostAt (cmdNat s 48 8)) report, 0, wd report.length :: leWords (leBytes 32 Config.identityKey.toNat))

/-! ### Device threads (R75) -/

/-- THREAD (R75): the context of the process is the one whose translation root is given. -/
def execThread (s : State) : Host.Outcome State Fault Refusal :=
  mgmtCmd s 0x0D true [(8, 17), (26, 3)] fun s =>
    let fn := cmdFn s
    let root := wd (cmdNat s 8 8)
    let w := cmdByte s 24
    let t : Tid := { core := cmdNat s 26 2, slot := cmdByte s 28 }
    match s.ctxs.find? fun c => c.2.live && c.2.host && c.2.fn = fn && c.2.root = root && c.2.torn.isNone with
    | none => no s 2
    | some (ctx, _) =>
      if !(getFn s fn).hostSh || w % 8 != 0 || w = 0 || w > 128 || !coreExists t.core || coreFn s t.core != fn || t.slot > 63 then no s 2
      else if t.slot = 63 && (getFn s fn).urgent then no s 3
      else if !slotFree s t || !coreRuns s t.core then no s 1
      else match fitWindow (getCore s t.core) w with
        | none => no s 1
        | some b =>
          let ws : BitVec 4 := BitVec.ofNat 4 (w / 8 - 1)
          let pc := wd (cmdNat s 16 8)
          let (s, u) := freshUid s { ctx := ctx, pc0 := pc, wsize := ws, core := t.core, dev := true }
          (openSlot s t u b fun sl => { sl with pc := pc, ctx := ctx, wsize := ws, dev := true }, 0, [wd (tidWord t)])

/-- MOVE (R75, R201): the place is reserved and the forwarding entry installed; the stream follows when the slot has
drained. -/
def execMove (s : State) : Host.Outcome State Fault Refusal :=
  mgmtCmd s 0x0E true [(8, 7)] fun s =>
    let fn := cmdFn s
    let t := wordTid (cmdNat s 8 4)
    let d : Tid := { core := cmdNat s 12 2, slot := cmdByte s 14 }
    let sl := getSlot s t
    match sl.uid with
    | none => no s 2
    | some u =>
      if cmdNat s 8 4 ≥ 2 ^ 17 || coreFn s t.core != fn || !coreExists d.core || coreFn s d.core != fn || d.slot > 63 then no s 2
      else if sl.ports then no s 3
      else if !sl.dev then no s 2
      else if d.slot = 63 && (getFn s fn).urgent then no s 3
      else if d = t || sl.moveTo.isSome || sl.evicting || !slotFree s d || !coreRuns s d.core || (getCore s t.core).fwd.length ≥ 16 then no s 1
      else match fitWindow (getCore s d.core) (winW sl) with
        | none => no s 1
        | some b =>
          let s := modSlot s d fun x => { emptySlot x with resv := some u, wbase := b, wsize := sl.wsize }
          yes (modSlot s t fun sl => { sl with evicting := true, moveTo := some d })

/-- POSTMAP (R68). -/
def execPostmap (s : State) : Host.Outcome State Fault Refusal :=
  mgmtCmd s 0x0F true [(8, 2), (16, 9)] fun s =>
    let c := cmdNat s 8 2
    if !(getCtx s c).live || (getCtx s c).fn != cmdFn s || cmdByte s 24 > 7 then no s 2
    else yes (postNotice s (firstSvc s (cmdFn s)) { type := 1, ctx := c, subject := wd (cmdNat s 16 8), detail := wd (cmdByte s 24) } (partition s (cmdFn s)))

/-! ### Links, resets and power -/

/-- RETRAIN (R29). -/
def execRetrain (s : State) : Host.Outcome State Fault Refusal :=
  mgmtCmd s 0x10 true [(8, 1)] fun s =>
    if cmdByte s 8 > 15 then no s 2 else if s.power.shutdown then yes s else yes (modPort s (cmdByte s 8) (startTraining (tickN s)))

/-- RESET with die 0 to 3 (R207). -/
def execResetDie (s : State) : Host.Outcome State Fault Refusal :=
  mgmtCmd s 0x11 (cmdByte s 8 ≤ 3) [(8, 1)] fun s =>
    yes (if (getDie s (cmdByte s 8)).inReset then s else dieReset s (cmdByte s 8) false)

/-- RESET with die 4 (R29): turned away while thermal shutdown holds it off. -/
def execResetPackage (s : State) : Host.Outcome State Fault Refusal :=
  mgmtCmd s 0x11 (cmdByte s 8 == 4) [(8, 1)] fun s => if s.power.shutdown then no s 3 else yes (packageReset s)

/-- POWER (R25). -/
def execPower (s : State) : Host.Outcome State Fault Refusal :=
  mgmtCmd s 0x12 true [(8, 2)] fun s => yes (setLimit s (cmdNat s 8 2))

/-! ### Debugging (R60, R74) -/

/-- A DEBUG command on a thread of the partition; with debug off it is refused. -/
def debugCmd (s : State) (action : Nat) (f : State → Tid → Slot → State × Nat × List Word) : Host.Outcome State Fault Refusal :=
  mgmtCmd s 0x13 (cmdByte s 8 == action) [(8, 1), (16, 4), (24, 8)] fun s =>
    let t := wordTid (cmdNat s 16 4)
    if cmdNat s 16 4 ≥ 2 ^ 17 || !coreExists t.core || coreFn s t.core != cmdFn s then no s 2
    else if !(getFn s (cmdFn s)).debug then no s 3
    else f s t (getSlot s t)

/-- DEBUG action 0 (R60). -/
def execDebugHalt (s : State) : Host.Outcome State Fault Refusal :=
  debugCmd s 0 fun s t sl => if sl.uid.isNone then no s 2 else yes (modSlot s t fun sl => { sl with halted := true, stepOne := false })

/-- DEBUG action 1 (R60): the thread, and a partition that HALT has stopped, run on. -/
def execDebugResume (s : State) : Host.Outcome State Fault Refusal :=
  debugCmd s 1 fun s t _ =>
    let s := modFn (modSlot s t fun sl => { sl with halted := false, stepOne := false }) (cmdFn s) fun f => { f with halted := false }
    yes (resumeCalls s (cmdFn s))

/-- DEBUG action 2 (R60). -/
def execDebugStep (s : State) : Host.Outcome State Fault Refusal :=
  debugCmd s 2 fun s t sl =>
    if sl.uid.isNone || !(sl.halted || (getFn s (cmdFn s)).halted) then no s 2
    else yes (modSlot s t fun sl => { sl with halted := true, stepOne := true })

/-- DEBUG action 3 (R60, R191). -/
def execDebugSetBreakpoint (s : State) : Host.Outcome State Fault Refusal :=
  debugCmd s 3 fun s t sl =>
    yes (modSlot s t fun x => { x with bps := if sl.bps.contains (wd (cmdNat s 24 8)) then sl.bps else sl.bps ++ [wd (cmdNat s 24 8)] })

/-- DEBUG action 4 (R60). -/
def execDebugClearBreakpoint (s : State) : Host.Outcome State Fault Refusal :=
  debugCmd s 4 fun s t _ => yes (modSlot s t fun x => { x with bps := x.bps.filter fun p => p != wd (cmdNat s 24 8) })

/-- DEBUG action 5 (R60): the continuation record and the burst, with its CSR block, to host memory (R84, R86). -/
def execDebugCopyState (s : State) : Host.Outcome State Fault Refusal :=
  debugCmd s 5 fun s t sl =>
    if sl.uid.isNone then no s 2
    else yes (hostWrite s (cmdNat s 24 8) (recordOf s t sl sl.pc ++ burstWords s t sl))

end Sys2Proof.Machine
end

