-- ==== Sys2Proof/Machine/Ranking.lean ====
section
/-!
DEFINITION. The ranking engine of a die (R211 to R216, R223, R224).
-/

namespace Sys2Proof.Machine

/-! ### Inputs (R213) -/

/-- A score as the engine reads it; a word that fails its check or is marked is a fault (R204). -/
def rkElem (s : State) (ctx : Nat) (l : Lay) (f : Nat × Option TlbEnt) (n : Int) : EX XV := do
  let el ← egElem s { ctx := ctx } f.2 f.1 l.base n
  match el.keys.find? fun k => eccStatus s k.1 k.2 == 1 with
  | some k => .error (0x18, some k)
  | none =>
    if el.mark then exFail 0x14
    else exOf (elemVal f.1 el.raw el.pos el.ent)

/-- A tensor's layout record and the format by which it is read: BF16, FP16 or FP32. -/
def rkLay (s : State) (ctx : Nat) (va : Word) (rank : Nat) : EX (Lay × Nat × Option TlbEnt) := do
  let ws ← exWords s { ctx := ctx } va 12 64
  exNeed (layBitsOk ws false && !bitAt (wAt ws 11) 1) 0x12
  let l := layOf ws
  exNeed (l.rank == rank) 0x12
  let (f, p) ← readFmt s { ctx := ctx } l
  exNeed (f == 8 || f == 9 || f == 10) 0x15
  exNeed (baseOk f p l) 0x03
  return (l, f, p)

/-- A value below every finite one. -/
def minusInf : XV := .inf true false

/-- NaN counts as −∞. -/
def nanLow (x : XV) : XV := if xIsNaN x then minusInf else x

/-- Whether a score is finite. -/
def isFinite (x : XV) : Bool := match x with | .num .. => true | _ => false

/-- Descending order of scores. -/
def scoreGt (a b : XV) : Bool := match xCmp a b with | some c => decide (c > 0) | none => false

/-- The status word (R216). -/
def rkStatus (short drops code : Nat) : Word := wd (short % 2 ^ 24 * 2 ^ 32 + drops % 2 ^ 24 * 256 + code)

/-- Values of n bytes each from an address, as writes. -/
def rkArray (va : Word) (n : Nat) (l : List Nat) : List (EX EgWrite) :=
  l.zipIdx.map fun x => .ok { va := va + wd (x.2 * n), bytes := leBytes n x.1 }

/-! ### ROUTE (R212 to R216) -/

/-- A slot of a row: the expert's index or a mark, its slot position, and its score. -/
abbrev RouteSlot := Nat × Nat × Option XV

/-- The first place in a ranked list, from one on, whose expert has room. -/
def withRoom (h : List Nat) (cap : Nat) : Nat → List Nat → Nat → Nat
  | 0, _, pos => pos
  | n + 1, l, pos => match l[pos]? with
    | some e => if h.getD e 0 ≥ cap then withRoom h cap n l (pos + 1) else pos
    | none => pos

/-- Slots j to k − 1 of a row: `list` its ranked experts, `count` its candidates. -/
def rowSlots (list : List (Nat × XV)) (count cap : Nat) : Nat → Nat → Nat → List Nat → List RouteSlot × List Nat
  | 0, _, _, h => ([], h)
  | n + 1, j, pos, h =>
    if j ≥ count then
      let (r, h) := rowSlots list count cap n (j + 1) pos h
      ((0xFFFF, 0xFFFF, none) :: r, h)
    else
      let pos := withRoom h cap list.length (list.map (·.1)) pos
      match list[pos]? with
      | none =>
        let (r, h) := rowSlots list count cap n (j + 1) pos h
        ((0xFFFE, 0xFFFF, none) :: r, h)
      | some (e, x) =>
        let at' := h.getD e 0
        let (r, h) := rowSlots list count cap n (j + 1) (pos + 1) (modAt h e (· + 1))
        ((e, at', some x) :: r, h)

/-- The weights of a row's assigned slots (R215), as FP32. -/
def rowWeights (norm : Nat) (xs : List XV) : List Nat :=
  let quot := fun (es : List Nat) =>
    let sum := es.foldl (fun a e => toF32 (xAdd false (decodeF fmtFP32 a) (decodeF fmtFP32 e))) 0
    es.map fun e => toF32 (xDiv (decodeF fmtFP32 e) (decodeF fmtFP32 sum))
  match norm with
  | 0 => xs.map toF32
  | 1 =>
    let m := xs.foldl (fun a x => if scoreGt x a then x else a) (xs.headD minusInf)
    quot (xs.map fun x => toF32 (xExp (xAdd false x (xNeg m))))
  | _ => quot (xs.map fun x => toF32 (xSigmoid x))

/-- The weights of a row's slots, 0 for one that has no expert. -/
def slotWeights : List RouteSlot → List Nat → List Nat
  | [], _ => []
  | (_, _, some _) :: r, w :: ws => w :: slotWeights r ws
  | (_, _, _) :: r, ws => 0 :: slotWeights r ws

/-- What one row adds: its outputs, the counts, the drops and the short rows. -/
def routeRow (k L cap norm : Nat) (scores : List (Nat × XV)) (h : List Nat) : List (Nat × Nat × Nat) × List Nat × Nat × Nat :=
  let cand := sortBy (fun a b => scoreGt a.2 b.2) (scores.filter fun x => isFinite x.2)
  let list := cand.take (min L cand.length)
  let (sl, h) := rowSlots list cand.length cap k 0 0 h
  let ws := slotWeights sl (rowWeights norm (sl.filterMap (·.2.2)))
  ((sl.zip ws).map fun x => (x.1.1, x.1.2.1, x.2), h, (sl.filter fun x => x.1 == 0xFFFE).length, b2n (decide (cand.length < k)))

/-- The bitmap of disabled experts; a word of it that fails its check or is marked is a fault (R204, R211). -/
def disBits (s : State) (ctx : Nat) (va : Word) : EX Nat := do
  let (v, ks) ← egBytes s { ctx := ctx } va 128
  let _ ← ks.mapM fun k => exRead s k.1 k.2
  return v

/-- Whether a ROUTE's sizes are out of their ranges (R212, R216). -/
def routeBad (w : List Word) (l : Lay) : Bool :=
  let w1 := wAt w 1
  let (cap, L, k) := (fld w1 63 32, fld w1 15 8, fld w1 7 0)
  let T := l.exts.getD 0 0
  let E := l.exts.getD 1 0
  k = 0 || k > 16 || L < k || L > 32 || k > E || E > 1024 || T = 0 || T > 65536 || cap = 0 || cap > 65535

/-- The lines of a tensor's elements. -/
def rkLines (s : State) (ctx : Nat) (l : Lay) (f : Nat × Option TlbEnt) : List Nat :=
  linesOf ((winIdx l.exts).flatMap fun ix => match egElem s { ctx := ctx } f.2 f.1 l.base (idxSum l.strs ix) with
    | .ok el => el.keys.map (·.1)
    | .error _ => [])

/-- The lines that a ROUTE reads beside its record: the scores' layout record, the bitmap and the scores (R211, R213). -/
def routeReads (s : State) (c : EngCmd) : List Nat :=
  match exWords s { ctx := c.ctx } c.recA 16 64 with
  | .error _ => []
  | .ok w => spanLines s { ctx := c.ctx } (wAt w 0) 96 ++
    match rkLay s c.ctx (wAt w 0) 2 with
    | .error _ => []
    | .ok (l, f) => if routeBad w l then [] else
        (if wAt w 7 = 0 then [] else spanLines s { ctx := c.ctx } (wAt w 7) 128) ++ rkLines s c.ctx l f

/-- A command's writes (ROUTE). -/
def routePlan (s : State) (c : EngCmd) : EX (List (EX EgWrite)) := do
  let w ← exWords s { ctx := c.ctx } c.recA 16 64
  let w1 := wAt w 1
  let (cap, norm, L, k) := (fld w1 63 32, fld w1 19 16, fld w1 15 8, fld w1 7 0)
  exNeed ((wAt w 2).toNat % 2 == 0 && (wAt w 3).toNat % 4 == 0 && (wAt w 4).toNat % 4 == 0 && (wAt w 5).toNat % 2 == 0 && (wAt w 6).toNat % 8 == 0) 0x03
  exNeed (fld w1 31 20 == 0 && norm ≤ 2 && (List.range 8).all fun i => wAt w (8 + i) == 0) 0x12
  let (l, f) ← rkLay s c.ctx (wAt w 0) 2
  let T := l.exts.getD 0 0
  let E := l.exts.getD 1 0
  if routeBad w l then
    return rkArray (wAt w 6) 8 [(rkStatus 0 0 1).toNat]
  let dis ← if wAt w 7 = 0 then pure 0 else disBits s c.ctx (wAt w 7)
  let rows ← (List.range T).mapM fun t => (List.range E).mapM fun e => do
    let x ← rkElem s c.ctx l f (idxSum l.strs [t, e])
    return (e, if dis / 2 ^ e % 2 = 1 then minusInf else nanLow x)
  let (out, h, drops, short) := rows.foldl (fun (a : List (Nat × Nat × Nat) × List Nat × Nat × Nat) r =>
    let (o, h, d, m) := routeRow k L cap norm r a.2.1
    (a.1 ++ o, h, a.2.2.1 + d, a.2.2.2 + m)) ([], List.replicate E 0, 0, 0)
  return rkArray (wAt w 2) 2 (out.map (·.1)) ++ rkArray (wAt w 3) 4 (out.map (·.2.2)) ++ rkArray (wAt w 5) 2 (out.map (·.2.1)) ++
    rkArray (wAt w 4) 4 h ++ rkArray (wAt w 6) 8 [(rkStatus short drops 0).toNat]

/-! ### PSEL (R223, R224) -/

/-- The score of a page: a sum in FP32, each step of exact product and sum rounded once RNE. -/
def pageScore (q r : List XV) : XV :=
  nanLow ((q.zip r).foldl (fun a x => decodeF fmtFP32 (toF32 (xFma false x.1 x.2 a))) (.num false 0 0 false))

/-- The pages chosen, in ascending order. -/
def pickPages (first last n P : Nat) (scores : List XV) : List Nat :=
  let kept := (List.range P).filter fun i => i < first || i + last ≥ P
  let rest := (scores.zipIdx.filter fun x => !(x.2 < first || x.2 + last ≥ P))
  let best := (sortBy (fun a b => scoreGt a.1 b.1) rest).map (·.2)
  let sel := kept ++ best.take (n - kept.length)
  (List.range P).filter sel.contains

/-- Whether a PSEL's sizes are out of their ranges (R223). -/
def pselBad (w : List Word) (q m : Lay) : Bool :=
  let w2 := wAt w 2
  fld w2 39 36 + fld w2 43 40 > fld w2 25 16 || m.exts.getD 0 0 = 0 || m.exts.getD 0 0 > 2 ^ 24 || m.exts.getD 1 0 != q.exts.getD 0 0

/-- The lines that a PSEL reads beside its record: the layout records of query and summaries, and their elements (R211, R223). -/
def pselReads (s : State) (c : EngCmd) : List Nat :=
  match exWords s { ctx := c.ctx } c.recA 8 64 with
  | .error _ => []
  | .ok w => spanLines s { ctx := c.ctx } (wAt w 0) 96 ++ spanLines s { ctx := c.ctx } (wAt w 1) 96 ++
    match rkLay s c.ctx (wAt w 0) 1, rkLay s c.ctx (wAt w 1) 2 with
    | .ok (q, fq), .ok (m, fm) => if pselBad w q m || q.exts.getD 0 0 > 1024 then [] else rkLines s c.ctx q fq ++ rkLines s c.ctx m fm
    | _, _ => []

/-- A command's writes (PSEL). -/
def pselPlan (s : State) (c : EngCmd) : EX (List (EX EgWrite)) := do
  let w ← exWords s { ctx := c.ctx } c.recA 8 64
  let w2 := wAt w 2
  let (last, first, n) := (fld w2 43 40, fld w2 39 36, fld w2 25 16)
  exNeed ((wAt w 3).toNat % 4 == 0 && (wAt w 4).toNat % 8 == 0) 0x03
  exNeed (fld w2 63 44 == 0 && fld w2 35 26 == 0 && fld w2 15 0 == 0 && n != 0 && wAt w 5 == 0 && wAt w 6 == 0 && wAt w 7 == 0) 0x12
  let (q, fq) ← rkLay s c.ctx (wAt w 0) 1
  let (m, fm) ← rkLay s c.ctx (wAt w 1) 2
  let D := q.exts.getD 0 0
  let P := m.exts.getD 0 0
  exNeed (1 ≤ D && D ≤ 1024) 0x12
  if pselBad w q m then return rkArray (wAt w 4) 8 [(rkStatus 0 0 1).toNat]
  let qs ← (List.range D).mapM fun i => rkElem s c.ctx q fq (idxSum q.strs [i])
  let scores ← (List.range P).mapM fun p => do
    let r ← (List.range D).mapM fun i => rkElem s c.ctx m fm (idxSum m.strs [p, i])
    return pageScore qs r
  let sel := pickPages first last n P scores
  let pad := n - sel.length
  return rkArray (wAt w 3) 4 (sel ++ List.replicate pad 0xFFFFFFFF) ++ rkArray (wAt w 4) 8 [(rkStatus 0 pad 0).toNat]

/-! ### The engine (R211) -/

/-- The commands that have arrived enter the engine's queue in arrival order. -/
def rankLoad (s : State) (die : Nat) : State :=
  let k := qk 4 (rankUnit die) 0 0
  let got := (getQ s k).filterMap fun p => match p.body with
    | .rank c => some (c, p.src, slackLeft (tickN s) p, lateAge (tickN s) p)
    | _ => none
  modDie (setQ s k ((getQ s k).filter fun p => match p.body with | .rank _ => false | _ => true)) die fun d => { d with rank := d.rank ++ got }

/-- Whether a command's context still stands. -/
def cmdLive (s : State) (c : EngCmd) : Bool := (getCtx s c.ctx).live && (getCtx s c.ctx).torn.isNone

/-- The oldest command of an engine performed, if it is of a kind. -/
def rankRun (s : State) (die kind : Nat) (reads : State → EngCmd → List Nat) (plan : State → EngCmd → EX (List (EX EgWrite))) : State :=
  if die ≥ 4 || !dieRuns s die then s
  else
    let s := rankLoad s die
    match (getDie s die).rank with
    | [] => s
    | (c, _, _, late) :: r =>
      let x : Xl := { ctx := c.ctx }
      let p := plan s c
      let s1 := modDie s die fun d => { d with rank := r }
      if c.kind != kind then s
      else if !cmdLive s c then s1
      else if cmdWaits s x c (reads s c) p then s
      else match runPlan s1 10 (rankUnit die) x c (reads s c) p with
        | some ((s, n), cause) => cmdEnd s c cause (n + b2n late.isSome)
        | none => s

/-- ROUTE_PERFORM (R211 to R216). -/
def execRoutePerform (die : Nat) (s : State) : Host.Outcome State Fault Refusal := .next (rankRun s die 4 routeReads routePlan)

/-- PSEL_PERFORM (R211, R223, R224). -/
def execPselPerform (die : Nat) (s : State) : Host.Outcome State Fault Refusal := .next (rankRun s die 5 pselReads pselPlan)

end Sys2Proof.Machine
end

