-- ==== Sys2Proof/Machine/Reduce.lean ====
section
/-!
DEFINITION. The reduction queues beside the gateway cores (R225 to R227, R393).
-/

namespace Sys2Proof.Machine

/-- An entry of a cluster's queue. -/
def rqEnt (s : State) (cl i : Nat) : RqEnt := smGet {} (getCl s cl).rq i
def modRq (s : State) (cl i : Nat) (f : RqEnt → RqEnt) : State := modCl s cl fun c => { c with rq := smMod {} c.rq i f }

def rdNblk (ws : List Word) : Nat := fld (wAt ws 0) 15 0
def rdNcon (ws : List Word) : Nat := fld (wAt ws 0) 23 16
def rdLand (ws : List Word) : Word := wAt ws 1
def rdScr (ws : List Word) : Word := wAt ws 2
def rdDst (ws : List Word) : Word := wAt ws 3
/-- Whether a context is one of a descriptor's contributors; 0 is none. -/
def rdLists (ws : List Word) (ctx : Nat) : Bool := ctx != 0 && (List.range 4).any fun i => fld (wAt ws 4) (16 * i + 15) (16 * i) == ctx

/-- The first arrived packet of a unit that satisfies `ok`, in arrival order. -/
def takeFirst (s : State) (unit net : Nat) (ok : Packet → Bool) : Option (Packet × State) :=
  let q := getQ s (qk 4 unit 0 net)
  match idxOf ok q with
  | none => none
  | some i => (q[i]?).map fun p => (depart (tickN s) p, setQ s (qk 4 unit 0 net) (delAt q i))

/-- The least ready block that is not yet assigned. -/
def rqReady (e : RqEnt) : Option Nat :=
  (e.arrived.find? fun a => a.2 ≥ rdNcon e.ws && !e.assigned.contains a.1).map (·.1)

/-- Whether every block has been assigned. -/
def rqAllAssigned (e : RqEnt) : Bool := decide (e.assigned.length ≥ rdNblk e.ws)

/-- A reply to a waiting RQGET. -/
def rqAnswer (s : State) (cl : Nat) (w : RqWait) (r : Res) : State :=
  inject s { cls := 16, slack := w.slack, late := w.late, src := rqUnit cl, dst := w.src, body := .reply w.ret r }

/-- Waiting RQGETs of an entry served in arrival order, while a block is ready or none is left. -/
def rqServe (cl i : Nat) : Nat → State → State
  | 0, s => s
  | n + 1, s =>
    let e := rqEnt s cl i
    match (getCl s cl).rqWaits.find? fun w => w.entry == i with
    | none => s
    | some w =>
      let s' := modCl s cl fun c => { c with rqWaits := c.rqWaits.filter fun x => x != w }
      match rqReady e with
      | some b => rqServe cl i n (rqAnswer (modRq s' cl i fun e => { e with assigned := ssIns b e.assigned }) cl w (.words [wd b]))
      | none => if rqAllAssigned e then rqServe cl i n (rqAnswer s' cl w (.words [0xFFFFFFFF])) else s

/-- The waiting RQGETs of an entry after it has changed. -/
def rqWake (s : State) (cl i : Nat) : State := rqServe cl i ((getCl s cl).rqWaits.length) s

/-- RQINIT at the queue. -/
def rqInit (s : State) (cl : Nat) (p : Packet) (i : Nat) (ws : List Word) (ctx : Nat) (ret : Ret) : State :=
  let st := (rqEnt s cl i).st
  if st = 1 || st = 2 then reply s 16 (rqUnit cl) p ret (.fault 0x08 0)
  else reply (modRq s cl i fun _ => { st := 1, ws := ws, ctx := ctx }) 16 (rqUnit cl) p ret (.words [0])

/-- RQGET at the queue. -/
def rqGet (s : State) (cl : Nat) (p : Packet) (i wl : Nat) (ret : Ret) : State :=
  let e := rqEnt s cl i
  let out := fun (s : State) (v : Word) => reply s 16 (rqUnit cl) p ret (.words [v])
  match e.st with
  | 0 => out s 0xFFFFFFFD
  | 1 =>
    (match rqReady e with
      | some b => rqWake (out (modRq s cl i fun e => { e with assigned := ssIns b e.assigned }) (wd b)) cl i
      | none =>
        if rqAllAssigned e then out s 0xFFFFFFFF
        else modCl s cl fun c => { c with rqWaits := c.rqWaits ++
          [{ src := p.src, slack := slackLeft (tickN s) p, late := lateAge (tickN s) p, entry := i,
             deadline := if wl = 0 then none else some (tickN s + wl), ret := ret }] })
  | 4 => out s 0xFFFFFFFE
  | _ => out s 0xFFFFFFFF

/-- The places of a commit's bytes in scr and in dst, as the queue translates them when the commit begins: it then needs the
context no longer (R226, R227). None where one of them cannot be reached. -/
def rqKeys (s : State) (e : RqEnt) : List (Nat × Nat) :=
  let key := fun (va : Word) (nd : Nat) => (vkey s none e.ctx va.toNat nd).map (·.1)
  (((List.range (rdNblk e.ws * 64)).mapM fun i => do
    let a ← key (rdScr e.ws + wd i) 1
    let b ← key (rdDst e.ws + wd i) 2
    return (a, b) : Except (BitVec 8) (List (Nat × Nat))).toOption).getD []

/-- A block reported reduced; the last one starts the commit, and its reply follows DONE. -/
def rqReduced (s : State) (cl : Nat) (p : Packet) (i b : Nat) (ret : Ret) : State :=
  let s := modRq s cl i fun e => { e with reduced := ssIns b e.reduced }
  let e := rqEnt s cl i
  if e.reduced.length < rdNblk e.ws then reply s 16 (rqUnit cl) p ret (.words [0])
  else rqWake (modRq s cl i fun e => { e with
    st := 2, keys := rqKeys s e, assigned := List.range (rdNblk e.ws), last := some (p.src, slackLeft (tickN s) p, lateAge (tickN s) p, ret) }) cl i

/-- RQDONE at the queue. -/
def rqDone (s : State) (cl : Nat) (p : Packet) (i b : Nat) (kind : Bool) (ctx : Nat) (ret : Ret) : State :=
  let e := rqEnt s cl i
  let out := fun (s : State) (v : Word) => reply s 16 (rqUnit cl) p ret (.words [v])
  if e.st = 4 then out s 1
  else if e.st != 1 then out s 2
  else if !rdLists e.ws ctx then reply s 16 (rqUnit cl) p ret (.fault 0x08 0)
  else if b ≥ rdNblk e.ws then out s 2
  else if kind then rqReduced s cl p i b ret
  else rqWake (out (modRq s cl i fun e => { e with arrived := smMod 0 e.arrived b (· + 1) }) 0) cl i

/-- RQ_OPERATION (R225 to R227): the queue performs operations in arrival order. -/
def execRqOperation (cl : Nat) (s : State) : Host.Outcome State Fault Refusal :=
  .next (
    if !dieRuns s (clDie cl) then s
    else match takeFirst s (rqUnit cl) 0 (fun p => match p.body with | .rq _ _ _ _ _ _ _ _ => true | _ => false) with
      | none => s
      | some (p, s) =>
        match p.body with
        | .rq op i ws b kind ctx wl ret =>
          (match op with
            | 0 => rqInit s cl p i ws ctx ret
            | 1 => rqGet s cl p i wl ret
            | _ => rqDone s cl p i b kind ctx ret)
        | _ => s)

/-- The blocks of a commit as writes, byte by byte from scr to dst, with their marks. -/
def rqCopies (s : State) (e : RqEnt) : List (Nat × EgWrite) :=
  e.keys.map fun k => (k.2, { bytes := [memByte s.mem k.1], mark := eccStatus s k.1 1 != 0, keys := [(k.1, 1)] })

/-- RQ_COMMIT_DONE (R226, R227): the reduced blocks are copied and the entry is DONE. A commit whose addresses cannot be
reached leaves dst unchanged and the entry FAILED (log 33). -/
def execRqCommitDone (cl : Nat) (entry : Nat) (s : State) : Host.Outcome State Fault Refusal :=
  let e := rqEnt s cl entry
  let l := rqCopies s e
  let ks := (l.flatMap fun w => w.2.keys.map fun k => k.1 / 64).eraseDups ++ egLines l
  let st := if l.isEmpty then 4 else 3
  .next (
    if e.st != 2 || !dieRuns s (clDie cl) || !lineGate s 10 (rqUnit cl) ks then s
    else
      let s := lineNotes (egPut false s l) 10 (rqUnit cl) ks
      let s := modRq s cl entry fun e => { e with st := st, last := none }
      match e.last with
      | some (src, slack, late, ret) =>
        inject s { cls := 16, slack := slack, late := late, src := rqUnit cl, dst := src,
                   body := .reply ret (.words [if st = 3 then 0 else 1]) }
      | none => s)

/-- RQGET_TIMEOUT (R197, R226): a waiting RQGET takes WAIT_TIMEOUT at its deadline. -/
def execRqgetTimeout (cl : Nat) (idx : Nat) (s : State) : Host.Outcome State Fault Refusal :=
  .next (match (getCl s cl).rqWaits[idx]? with
    | none => s
    | some w =>
      match w.deadline with
      | some d =>
        if tickN s < d then s
        else rqAnswer (modCl s cl fun c => { c with rqWaits := delAt c.rqWaits idx }) cl w (.fault 0x0A 0)
      | none => s)

end Sys2Proof.Machine
end

