-- ==== Sys2Proof/Machine/System.lean ====
section
/-!
DEFINITION. The CSR and SYS groups (R394 to R399): control and status registers, traps and their returns, features, translation.
-/

namespace Sys2Proof.Machine

/-! ### Control and status registers (R394, R272, R120) -/

/-- The CSR numbers below 0x400 that are assigned. -/
def csrLow (n : Nat) : Bool :=
  n ≤ 5 || (0x10 ≤ n && n ≤ 0x17) || (0x20 ≤ n && n ≤ 0x24) || (0x30 ≤ n && n ≤ 0x33) || (0x40 ≤ n && n ≤ 0x42) ||
    (0x50 ≤ n && n ≤ 0x54) || (0x58 ≤ n && n ≤ 0x5C) || (0x60 ≤ n && n ≤ 0x64) || (0x70 ≤ n && n ≤ 0x73) || n == 0x80 || n == 0x81 ||
    n == 0xA0 || n == 0xA1

/-- Read-only CSRs. -/
def csrRO (n : Nat) : Bool :=
  n ≤ 5 || (0x50 ≤ n && n ≤ 0x54) || (0x58 ≤ n && n ≤ 0x5C) || n == 0x80 || n == 0x81 || n == 0x402

/-- tattr of a slot. -/
def tattrOf (sl : Slot) : Word :=
  wd (sl.wsize.toNat + 16 * b2n sl.ports + 32 * b2n sl.restart + 64 * sl.prio.toNat + 256 * sl.steal.toNat + 2 ^ 10 * b2n sl.csr.trapActive +
    2 ^ 11 * b2n sl.csr.upcallActive + 2 ^ 12 * b2n sl.handler.isSome + 2 ^ 13 * b2n sl.priv + 2 ^ 14 * b2n (!sl.carry.isEmpty) +
    2 ^ 15 * b2n sl.csr.spawned)

/-- The slots of a core that are being evicted: one that is empty, or whose continuation is out of rotation, is not (R199). -/
def evicting (s : State) (core : Nat) : Word :=
  wd (((List.range 63).map fun i =>
    let sl := getSlot s { core := core, slot := i }
    if sl.evicting && sl.uid.isSome && sl.moveTo.isNone then 2 ^ i else 0).sum)

/-- Core cycles since core reset, from the tick of 2 ns and the clock in units of 100 MHz (log 9). -/
def cycNow (s : State) (core : Nat) : Nat :=
  let c := getCl s (coreCl core)
  (c.cyc10 + (tickN s - c.cycTick) * 2 * c.clock) / 10

/-- The value of a CSR. -/
def csrGet (e : Env) (s : State) (n : Nat) : Word :=
  let sl := getSlot s e.t
  let c := sl.csr
  let cl := getCl s (coreCl e.t.core)
  match n with
  | 0x000 => wd (tidWord e.t)
  | 0x001 => wd e.t.core
  | 0x002 => wd sl.wbase
  | 0x003 => wd (winW sl)
  | 0x004 => tattrOf sl
  | 0x005 => wd sl.ctx
  | 0x010 => c.sk0.setWidth 64
  | 0x011 => c.sk1.setWidth 64
  | 0x012 => c.sk2.setWidth 64
  | 0x013 => c.sk3.setWidth 64
  | 0x014 => c.dsk.setWidth 64
  | 0x015 => c.late
  | 0x016 => wd (b2n c.lateen)
  | 0x017 => c.wlimt
  | 0x020 => c.sbound
  | 0x021 => c.scount
  | 0x022 => wd (b2n c.spolicy)
  | 0x023 => c.fbound
  | 0x024 => c.fcount
  | 0x030 => c.remap0
  | 0x031 => c.remap1
  | 0x032 => c.remap2
  | 0x033 => c.remap2n
  | 0x040 => c.fmode.setWidth 64
  | 0x041 => c.fflags.setWidth 64
  | 0x042 => c.fseed.setWidth 64
  | 0x050 => sl.tls.copy.completed
  | 0x051 => sl.tls.tile.completed
  | 0x052 => sl.tls.route.completed
  | 0x053 => sl.tls.msg.completed
  | 0x054 => sl.tls.rstore.completed
  | 0x058 => sl.tls.copy.issued
  | 0x059 => sl.tls.tile.issued
  | 0x05A => sl.tls.route.issued
  | 0x05B => sl.tls.msg.issued
  | 0x05C => sl.tls.rstore.issued
  | 0x060 => c.upvec
  | 0x061 => c.upcause
  | 0x062 => c.upaddr
  | 0x063 => c.upseq
  | 0x064 => c.upepc
  | 0x070 => c.trapvec
  | 0x071 => c.tcause
  | 0x072 => c.tval
  | 0x073 => c.tepc
  | 0x080 => wd (cycNow s e.t.core)
  | 0x081 => s.tick
  | 0x0A0 => sl.spb
  | 0x0A1 => sl.spl
  | 0x400 => (getCore s e.t.core).evict &&& evicting s e.t.core
  | 0x401 => (getCore s e.t.core).evstat
  | 0x402 => cl.plate
  | 0x403 => cl.sdrop
  | 0x404 => Config.freeWord s.freeCnt
  | 0x405 => cl.hsk.setWidth 64
  | _ => 0

/-- Whether a value sets no reserved bit and no reserved code of a CSR. -/
def csrOk (n : Nat) (v : Word) : Bool :=
  if 0x10 ≤ n && n ≤ 0x13 || n = 0x405 then fld v 63 12 == 0
  else if n = 0x14 then fld v 63 2 == 0
  else if n = 0x16 || n = 0x22 then fld v 63 1 == 0
  else if n = 0x40 then fld v 63 4 == 0 && fld v 2 0 ≤ 5
  else if n = 0x41 then fld v 63 6 == 0
  else if n = 0x42 then fld v 63 32 == 0
  else if n = 0x60 || n = 0x70 then !bitAt v 0
  else if n = 0xA0 || n = 0xA1 then fld v 5 0 == 0
  else if n = 0x400 || n = 0x401 then !bitAt v 63
  else true

/-- The write of evict (R198, R199): empty slots have nothing to do, ports threads are refused, the others drain. -/
def evictWrite (s : State) (core : Nat) (v : Word) : State :=
  let s := modCore s core fun c => { c with evstat := 0 }
  (List.range 63).foldl (fun s i =>
    let t : Tid := { core := core, slot := i }
    let sl := getSlot s t
    if !bitAt v i || sl.uid.isNone then s
    else if sl.ports then modCore s core fun c => { c with evstat := c.evstat ||| wd (2 ^ i) }
    else modSlot (modCore s core fun c => { c with evict := c.evict ||| wd (2 ^ i) }) t fun sl => { sl with evicting := true }) s

/-- A CSR written. -/
def csrPut (s : State) (t : Tid) (n : Nat) (v : Word) : State :=
  let c := fun (f : Csrs → Csrs) => modCsr s t f
  let cl := coreCl t.core
  match n with
  | 0x010 => c fun c => { c with sk0 := v.setWidth 12 }
  | 0x011 => c fun c => { c with sk1 := v.setWidth 12 }
  | 0x012 => c fun c => { c with sk2 := v.setWidth 12 }
  | 0x013 => c fun c => { c with sk3 := v.setWidth 12 }
  | 0x014 => c fun c => { c with dsk := v.setWidth 2 }
  | 0x015 => c fun c => { c with late := v }
  | 0x016 => c fun c => { c with lateen := bitAt v 0 }
  | 0x017 => c fun c => { c with wlimt := v }
  | 0x020 => c fun c => { c with sbound := v }
  | 0x021 => c fun c => { c with scount := v }
  | 0x022 => c fun c => { c with spolicy := bitAt v 0 }
  | 0x023 => c fun c => { c with fbound := v }
  | 0x024 => c fun c => { c with fcount := v }
  | 0x030 => c fun c => { c with remap0 := v }
  | 0x031 => c fun c => { c with remap1 := v }
  | 0x032 => c fun c => { c with remap2 := v }
  | 0x033 => c fun c => { c with remap2n := v }
  | 0x040 => c fun c => { c with fmode := v.setWidth 4 }
  | 0x041 => c fun c => { c with fflags := v.setWidth 6 }
  | 0x042 => c fun c => { c with fseed := seedOf (v.setWidth 32) }
  | 0x060 => c fun c => { c with upvec := v }
  | 0x061 => c fun c => { c with upcause := v }
  | 0x062 => c fun c => { c with upaddr := v }
  | 0x063 => c fun c => { c with upseq := v }
  | 0x064 => c fun c => { c with upepc := v }
  | 0x070 => c fun c => { c with trapvec := v }
  | 0x071 => c fun c => { c with tcause := v }
  | 0x072 => c fun c => { c with tval := v }
  | 0x073 => c fun c => { c with tepc := v }
  | 0x0A0 => modSlot s t fun sl => { sl with spb := v }
  | 0x0A1 => modSlot s t fun sl => { sl with spl := v }
  | 0x400 => evictWrite s t.core v
  | 0x401 => modCore s t.core fun k => { k with evstat := v }
  | 0x403 => modCl s cl fun k => { k with sdrop := v }
  | 0x405 => modCl s cl fun k => { k with hsk := v.setWidth 12 }
  | _ => s

/-- Whether a CSR number is one that ILLEGAL_INSTRUCTION answers: below 0x400 an unassigned one, above 0x405 any for a
privileged thread (R272). -/
def csrGone (e : Env) (n : Nat) : Bool := (decide (n < 0x400) && !csrLow n) || (e.sl.priv && decide (n > 0x405))

/-- Whether an access to an assigned CSR is allowed (R198, R272): a privileged one, a service core's, and for a write a
read-only one. -/
def csrAllowed (e : Env) (n : Nat) (wr : Bool) : X Unit := do
  if n ≥ 0x400 then
    need e.sl.priv 0x04 0
    need ((n != 0x404 && n != 0x405) || isSvc e.t.core) 0x04 0
  need (!(wr && csrRO n)) 0x04 0

/-- The wait of an access to fflags (R327). -/
def csrWait (e : Env) (n : Nat) : X Unit := await (n != 0x41 || (e.sl.defer.isEmpty && !(e.sl.vops.any fun v => v.isLd)))

/-- The key of n bytes of the service core's own scratchpad that an address names through either aperture (R128, R129). -/
def svcKey (e : Env) (va : Word) (n : Nat) : X Nat :=
  if 0x1000000 ≤ va.toNat && va.toNat < scrBase then trapX 0x08 va
  else do
    match ← place e va 1 (dskOf e.sl) with
    | .mem k _ _ => if isLocal e k && (k - scrBase) % 0x100000 + n ≤ scrSize e.t.core then return k else trapX 0x08 va
    | _ => trapX 0x08 va

/-- A notice record named by a write of npost (R68, R394). -/
def npostPut (e : Env) (s : State) (v : Word) : X State := do
  aligned v 64
  let k ← svcKey e v 64
  match eccStatus s k 64 with
  | 1 => .error (.trapIn (markRead s k 64) 0x18 v e.sl.pc)
  | 2 => trapX 0x14 v
  | _ => do
    let w := fun i => wd (memRead s.mem (k + 8 * i) 8)
    need (fld (w 0) 7 0 == 1) 0x12 0
    await (getCl s (coreCl e.t.core)).npost.isNone
    return modCl s (coreCl e.t.core) fun c =>
      { c with npost := some { type := 1, status := fld (w 0) 15 8, ctx := fld (w 0) 31 16, subject := w 2, detail := w 3 } }

/-- CSRWR and CSRSET: the new value is checked, then the old one is written to g[d] and the new one to the CSR. -/
def csrWrite (e : Env) (d a : BitVec 7) (n : Nat) (f : Word → Word → Word) : X State := do
  if csrGone e n then illegal e
  chk e [a.toNat] [d.toNat] []
  csrAllowed e n true
  csrWait e n
  let (s, x) ← readR e e.s a.toNat
  let old := csrGet e s n
  let v := f old x
  need (csrOk n v) 0x12 0
  let s := if n = 0x404 then { s with freeCnt := s.freeCnt + 1 } else s
  let s ← if n = 0x404 then npostPut e s v else pure (csrPut s e.t n v)
  return done e (← writeR e s d.toNat old)

/-! ### Feature words (R396) -/

/-- The assigned function codes of the majors that have them (R269). -/
def featFns (m : Nat) : Nat :=
  match m with
  | 0x00 => 0xFFFF | 0x01 => 0xFFFF | 0x02 => 0x3FF | 0x03 => 0x7F | 0x04 => 0xFFFF | 0x1C => 0x7FFF | 0x20 => 0xFFFFFF
  | 0x21 => 0x3FFF | 0x22 => 0x3FF | 0x23 => 0x7F | 0x24 => 0x7FF | 0x25 => 0x1FFFFF | 0x26 => 0x7F | 0x27 => 0x3FF
  | 0x28 => 0x7FF | 0x29 => 0x7FF | 0x2A => 0x1F1F | 0x2B => 0x3FFF | 0x2C => 0xF | 0x30 => 0x1FF | 0x34 => 0x1FFF
  | 0x35 => 0x1FF | 0x38 => 0x1FF | 0x39 => 0x3F | 0x3D => 0x7FF
  | _ => 1

/-- Feature word 1. -/
def featMaj : Word := 0x3F311FFFFFFFFFFF

def featWord (s : State) (core : Nat) (n : Word) : Word :=
  let f := getFn s (coreFn s core)
  if n = 0 then 0x0000010101010101
  else if n = 1 then featMaj
  else if n = 2 then 0x1FFE
  else if n = 3 then
    wd (b2n f.recMode + 2 * b2n f.replay + 4 * b2n f.debug + 8 * b2n f.urgent + 16 * b2n f.hostSh +
      32 * b2n ((List.range 64).any fun c => (getCl s c).fn != 0))
  else if n = 8 then 0x1FFE000177073F3F
  else match n.toNat with
    | 17 => 64 | 18 => 2048 | 19 => 16 | 20 => 128 | 21 => 1048576 | 22 => 16 | 23 => 16 | 24 => 128
    | m => if 64 ≤ m && m < 128 && bitAt featMaj (m - 64) then wd (featFns (m - 64)) else 0

/-! ### System calls (R76) -/

/-- A system call's outcome: the message sent, or in replay the reply that the trace holds (R74). -/
def sysCall (e : Env) (s : State) (seq : Word) (ws : List Word) : State :=
  let fn := coreFn s e.t.core
  let f := getFn s fn
  let wait := fun (s : State) => modSlot s e.t fun sl => { readied sl with wait := some .sysc, callSeq := seq, pc := e.npc, ord := sl.ord + 1 }
  if f.replay then
    let src := 0x20000 + tidWord (origTid s e.t)
    let n := f.rpBytes.toNat / 24
    match scReplay s fn scCls0 (seq.toNat % 2 ^ 32) src n 0, scReplay s fn scCls1 (seq.toNat % 2 ^ 32) src n 0 with
    | some a0, some a1 =>
      let s := scRecord (modSlot s e.t fun sl => { sl with callSeq := seq }) fn (origTid s e.t) seq a0 a1
      done e (regSet (regSet s e.t e.sl 4 a0) e.t e.sl 5 a1)
    | _, _ => wait (modFn s fn fun f => { f with diverged := true })
  else scPost (wait s) fn e.t ws

/-! ### The dispatch ring as SEQQ shows it (R399) -/

/-- The status word of an entry. -/
def ringWord (n : BitVec 32) : Option RingEnt → Word
  | none => n.setWidth 64
  | some r =>
    match r.st with
    | .pending => wd (n.toNat + 2 ^ 40)
    | .done => wd (n.toNat + 2 * 2 ^ 40)
    | .faulted c => wd (n.toNat + c.toNat * 2 ^ 32 + 3 * 2 ^ 40)

def seqEntry (sl : Slot) (n : BitVec 32) : Option RingEnt := sl.ring.find? fun r => r.seq == n

/-- The oldest faulted entry at or after n. -/
def seqFault (sl : Slot) (n : BitVec 32) : Option RingEnt :=
  sl.ring.foldl (fun m r =>
    match r.st with
    | .faulted _ =>
      if (r.seq - n).toNat ≥ 2 ^ 31 then m
      else match m with
        | some x => if (r.seq - n).toNat < (x.seq - n).toNat then some r else m
        | none => some r
    | _ => m) none

/-! ### TLB maintenance (R148, R149, R397) -/

/-- A privileged instruction of a service core. -/
def svcOnly (e : Env) : X Unit := need (e.sl.priv && isSvc e.t.core) 0x04 0

/-- CSRRD (R394, R272). -/
def execCsrrd (d : BitVec 7) (c : BitVec 11) (s : State) : Host.Outcome State Fault Refusal :=
  thr 4 (Enc.csrrd d c) s fun e => do
    if csrGone e c.toNat then illegal e
    chk e [] [d.toNat] []
    csrAllowed e c.toNat false
    csrWait e c.toNat
    let v := csrGet e e.s c.toNat
    let s := if c.toNat = 0x404 then { e.s with freeCnt := e.s.freeCnt + 1 } else e.s
    return done e (← writeR e s d.toNat v)

/-- CSRWR (R394, R272). -/
def execCsrwr (d a : BitVec 7) (c : BitVec 11) (s : State) : Host.Outcome State Fault Refusal :=
  thr 4 (Enc.csrwr d a c) s fun e => csrWrite e d a c.toNat fun _ x => x

/-- CSRSET (R394, R272). -/
def execCsrset (d a : BitVec 7) (c : BitVec 11) (s : State) : Host.Outcome State Fault Refusal :=
  thr 4 (Enc.csrset d a c) s fun e => csrWrite e d a c.toNat fun old x => old ||| x

/-- TRAP (R395, R192). -/
def execTrap (a : BitVec 7) (s : State) : Host.Outcome State Fault Refusal :=
  thr 4 (Enc.trap a) s fun e => do
    chk e [a.toNat] [] []
    let (s, x) ← readR e e.s a.toNat
    .error (.trapIn (modSlot s e.t fun sl => { sl with ord := sl.ord + 1 }) 0x1D x e.npc)

/-- SYSCALL (R395, R76, R77). -/
def execSyscall (s : State) : Host.Outcome State Fault Refusal :=
  thr 4 Enc.syscall s fun e => do
    chk e (if e.sl.dev then [11, 4, 5, 6, 7, 8] else [11]) [] []
    let g := regGet e.s e.t e.sl
    if e.sl.dev then
      release e
      let seq := e.sl.callSeq + 1
      await (!(getFn e.s (coreFn e.s e.t.core)).replay || traceRoomN e.s (coreFn e.s e.t.core) 2)
      return sysCall e e.s seq ([wd (tidWord e.t + e.sl.ctx % 65536 * 2 ^ 32), seq, g 11] ++ [g 4, g 5, g 6, g 7, g 8])
    else .error (.trapIn (modSlot e.s e.t fun sl => { sl with ord := sl.ord + 1 }) 0x1C (g 11) e.npc)

/-- ERET (R395, R136, R192). -/
def execEret (s : State) : Host.Outcome State Fault Refusal :=
  thr 4 Enc.eret s fun e => do
    if !e.sl.csr.trapActive then illegal e
    return modSlot (trapReturn e.s e.t) e.t fun sl => { sl with ord := sl.ord + 1 }

/-- BRK (R395, R191). -/
def execBrk (s : State) : Host.Outcome State Fault Refusal :=
  thr 4 Enc.brk s fun e =>
    if (getFn e.s (coreFn e.s e.t.core)).debug then .error (.keep (hitBreak e.s e.t)) else trapX 0x1B 0

/-- HALT (R395, R74). -/
def execHalt (s : State) : Host.Outcome State Fault Refusal :=
  thr 4 Enc.halt s fun e => do
    need (e.sl.priv && (getFn e.s (coreFn e.s e.t.core)).debug) 0x04 0
    return modFn (done e e.s) (coreFn e.s e.t.core) fun f => { f with halted := true }

/-- FEAT (R395, R396). -/
def execFeat (d a : BitVec 7) (s : State) : Host.Outcome State Fault Refusal :=
  thr 4 (Enc.feat d a) s fun e => do
    chk e [a.toNat] [d.toNat] []
    let (s, x) ← readR e e.s a.toNat
    return done e (← writeR e s d.toNat (featWord s e.t.core x))

/-- The oldest translation request at a service core that a TLBW answers, by the request's word 1: its place, and its address
(R152, R397). -/
def tlbwFor (s : State) (core : Nat) (y : Word) : Option (Nat × Packet × Word) :=
  (getQ s (qk 4 (coreUnit core) 0 0)).zipIdx.findSome? fun x =>
    match x.1.body with
    | .xlat va kind t ctx _ => if tidWord t = fld y 16 0 && kind = fld y 19 17 && ctx = fld y 47 32 then some (x.2, x.1, va) else none
    | _ => none

/-- TLBW (R397, R148, R149). -/
def execTlbw (a b : BitVec 7) (s : State) : Host.Outcome State Fault Refusal :=
  thr 4 (Enc.tlbw a b) s fun e => do
    chk e [a.toNat, b.toNat] [] []
    svcOnly e
    let (s, x) ← readR e e.s a.toNat
    let (s, y) ← readR e s b.toNat
    aligned x 32
    let k ← svcKey e x 32
    match eccStatus s k 32 with
    | 1 => .error (.trapIn (markRead s k 32) 0x18 x e.sl.pc)
    | 2 => trapX 0x14 x
    | _ => do
      let w := fun i => wd (memRead s.mem (k + 8 * i) 8)
      let ent : TlbEnt := { w0 := w 0, w1 := w 1, w2 := w 2 }
      let t := wordTid (fld y 16 0)
      let st : BitVec 8 := BitVec.ofNat 8 (fld (w 3) 7 0)
      if st = 0 then
        match tlbCheck s (getCtx s (fld y 47 32)).fn ent with
        | some c => trapX c 0
        | none => .ok ()
      await (outRoom s e.t.core 1)
      let rep := fun (va : Word) => Body.xrep va (fld y 19 17) t (fld y 47 32) [w 0, w 1, w 2] st (fld (w 3) 63 32)
      match tlbwFor s e.t.core y with
      | some (i, p, va) =>
        let s := setQ s (qk 4 (coreUnit e.t.core) 0 0) (delAt (getQ s (qk 4 (coreUnit e.t.core) 0 0)) i)
        return done e (inject s { cls := 20, slack := slackLeft (tickN s) p, late := lateAge (tickN s) p, src := coreUnit e.t.core,
                                  dst := coreUnit t.core, body := rep va })
      | none => return done e (send s 20 (dskOf e.sl) (coreUnit e.t.core) (coreUnit t.core) (rep (wd (entBase ent))))

/-- TLBI (R397, R154, R155). -/
def execTlbi (d a b : BitVec 7) (s : State) : Host.Outcome State Fault Refusal :=
  thr 4 (Enc.tlbi d a b) s fun e => do
    chk e [a.toNat, b.toNat] [d.toNat] []
    svcOnly e
    match e.sl.res with
    | some _ => return done e (← writeR e e.s d.toNat (wAt e.sl.ph 0))
    | none => do
      let (s, x) ← readR e e.s a.toNat
      let (s, y) ← readR e s b.toNat
      need (fld y 63 18 == 0) 0x12 0
      let cl := coreCl e.t.core
      let gen := ((getCl s cl).gen + 1) % 2 ^ 32
      let s := modCl s cl fun c => { c with gen := gen, shoots := c.shoots ++ [{ gen := gen, left := (clCores cl).length, ret := retOf e x }] }
      let s := (clCores cl).foldl (fun s c => send s 9 (dskOf e.sl) (coreUnit e.t.core) (coreUnit c)
        (.tlbi x (fld y 15 0) (bitAt y 16) (bitAt y 17) gen cl)) s
      .error (.keep (modSlot s e.t fun sl => { sl with wait := some .reply, ph := [wd gen], res := none, awaits := [d.toNat] }))

/-- FLUSHI (R398). -/
def execFlushi (s : State) : Host.Outcome State Fault Refusal :=
  thr 4 Enc.flushi s fun e => do
    release e
    return done e (modCore e.s e.t.core fun c => { c with icache := [] })

/-- UPRET (R395, R156). -/
def execUpret (s : State) : Host.Outcome State Fault Refusal :=
  thr 4 Enc.upret s fun e => do
    if !e.sl.csr.upcallActive then illegal e
    return modSlot e.s e.t fun sl =>
      { readied sl with csr := { sl.csr with upcallActive := false }, pc := sl.csr.upepc, ord := sl.ord + 1 }

/-- SEQQ (R399, R137). -/
def execSeqq (d a : BitVec 7) (s : State) : Host.Outcome State Fault Refusal :=
  thr 4 (Enc.seqq d a) s fun e => do
    chk e [a.toNat] [d.toNat] []
    let (s, x) ← readR e e.s a.toNat
    need (fld x 63 34 == 0 && fld x 33 32 != 3) 0x12 0
    let n : BitVec 32 := x.setWidth 32
    let ent := seqEntry e.sl n
    let v := match fld x 33 32 with
      | 0 => ringWord n ent
      | 1 => (match ent with | some r => r.pc | none => BitVec.allOnes 64)
      | _ => (match seqFault e.sl n with | some r => ringWord r.seq (some r) | none => BitVec.allOnes 64)
    return done e (← writeR e s d.toNat v)

end Sys2Proof.Machine
end

