-- ==== Sys2Proof/Machine/Dispatch.lean ====
section
/-!
DEFINITION. One arm per instruction: a call of its meaning.
-/

namespace Sys2Proof.Machine

/-- The meaning of every instruction. -/
def exec (i : Instr) (s : State) : Host.Outcome State Fault Refusal :=
  match i with
  | .i3cReadStatus => Sys2Proof.Machine.execI3cReadStatus s
  | .i3cReadTemperatures => Sys2Proof.Machine.execI3cReadTemperatures s
  | .i3cReadPackagePower => Sys2Proof.Machine.execI3cReadPackagePower s
  | .i3cSetPowerLimit cmd => Sys2Proof.Machine.execI3cSetPowerLimit cmd s
  | .i3cReadIdentityKey => Sys2Proof.Machine.execI3cReadIdentityKey s
  | .i3cResetPackage => Sys2Proof.Machine.execI3cResetPackage s
  | .i3cResetDie die => Sys2Proof.Machine.execI3cResetDie die s
  | .assign => Sys2Proof.Machine.execAssign s
  | .ctxnew => Sys2Proof.Machine.execCtxnew s
  | .ctxend => Sys2Proof.Machine.execCtxend s
  | .qbind => Sys2Proof.Machine.execQbind s
  | .peer => Sys2Proof.Machine.execPeer s
  | .keyInstall => Sys2Proof.Machine.execKeyInstall s
  | .keyClear => Sys2Proof.Machine.execKeyClear s
  | .signed => Sys2Proof.Machine.execSigned s
  | .mode => Sys2Proof.Machine.execMode s
  | .share => Sys2Proof.Machine.execShare s
  | .trace => Sys2Proof.Machine.execTrace s
  | .drain => Sys2Proof.Machine.execDrain s
  | .attest => Sys2Proof.Machine.execAttest s
  | .thread => Sys2Proof.Machine.execThread s
  | .move => Sys2Proof.Machine.execMove s
  | .postmap => Sys2Proof.Machine.execPostmap s
  | .retrain => Sys2Proof.Machine.execRetrain s
  | .resetDie => Sys2Proof.Machine.execResetDie s
  | .resetPackage => Sys2Proof.Machine.execResetPackage s
  | .power => Sys2Proof.Machine.execPower s
  | .debugHalt => Sys2Proof.Machine.execDebugHalt s
  | .debugResume => Sys2Proof.Machine.execDebugResume s
  | .debugStep => Sys2Proof.Machine.execDebugStep s
  | .debugSetBreakpoint => Sys2Proof.Machine.execDebugSetBreakpoint s
  | .debugClearBreakpoint => Sys2Proof.Machine.execDebugClearBreakpoint s
  | .debugCopyState => Sys2Proof.Machine.execDebugCopyState s
  | .registerWrite fn bar off bytes v => Sys2Proof.Machine.execRegisterWrite fn bar off bytes v s
  | .ringidxWrite fn q v => Sys2Proof.Machine.execRingidxWrite fn q v s
  | .queueEnable fn q => Sys2Proof.Machine.execQueueEnable fn q s
  | .queueDisable fn q => Sys2Proof.Machine.execQueueDisable fn q s
  | .queueReset fn q => Sys2Proof.Machine.execQueueReset fn q s
  | .scringConfig fn isLog v => Sys2Proof.Machine.execScringConfig fn isLog v s
  | .scheadWrite fn v => Sys2Proof.Machine.execScheadWrite fn v s
  | .syscallReply fn v => Sys2Proof.Machine.execSyscallReply fn v s
  | .hostWindowAccess fn off wr bytes v => Sys2Proof.Machine.execHostWindowAccess fn off wr bytes v s
  | .admitEntry fn q => Sys2Proof.Machine.execAdmitEntry fn q s
  | .stampRetry fn q => Sys2Proof.Machine.execStampRetry fn q s
  | .entryStart fn q seq => Sys2Proof.Machine.execEntryStart fn q seq s
  | .imageLoad fn q seq => Sys2Proof.Machine.execImageLoad fn q seq s
  | .entryComplete fn q seq => Sys2Proof.Machine.execEntryComplete fn q seq s
  | .boot => Sys2Proof.Machine.execBoot s
  | .supplyFault volts => Sys2Proof.Machine.execSupplyFault volts s
  | .thermalThrottle cl temp => Sys2Proof.Machine.execThermalThrottle cl temp s
  | .thermalShutdown cl temp => Sys2Proof.Machine.execThermalShutdown cl temp s
  | .powerLimitUnmet watts => Sys2Proof.Machine.execPowerLimitUnmet watts s
  | .powerLimitMet watts => Sys2Proof.Machine.execPowerLimitMet watts s
  | .clockStep cl up => Sys2Proof.Machine.execClockStep cl up s
  | .dieResetComplete die => Sys2Proof.Machine.execDieResetComplete die s
  | .packageResetComplete => Sys2Proof.Machine.execPackageResetComplete s
  | .slackTick => Sys2Proof.Machine.execSlackTick s
  | .packetLate queue idx => Sys2Proof.Machine.execPacketLate queue idx s
  | .routerForward router out net => Sys2Proof.Machine.execRouterForward router out net s
  | .routerIdle router => Sys2Proof.Machine.execRouterIdle router s
  | .routerPowerdownDone router => Sys2Proof.Machine.execRouterPowerdownDone router s
  | .tokenAtWriter chan w => Sys2Proof.Machine.execTokenAtWriter chan w s
  | .tokenAtHome chan => Sys2Proof.Machine.execTokenAtHome chan s
  | .bridgeForward die port chan => Sys2Proof.Machine.execBridgeForward die port chan s
  | .directPathForward die inn port => Sys2Proof.Machine.execDirectPathForward die inn port s
  | .homeEnqueue unit net => Sys2Proof.Machine.execHomeEnqueue unit net s
  | .homePerform unit => Sys2Proof.Machine.execHomePerform unit s
  | .replayTimeout unit => Sys2Proof.Machine.execReplayTimeout unit s
  | .replyDeliver unit => Sys2Proof.Machine.execReplyDeliver unit s
  | .lateTrap core slot => Sys2Proof.Machine.execLateTrap core slot s
  | .iterativeUnitDone core => Sys2Proof.Machine.execIterativeUnitDone core s
  | .vectorDeferredResult core slot => Sys2Proof.Machine.execVectorDeferredResult core slot s
  | .fabricTransmit port => Sys2Proof.Machine.execFabricTransmit port s
  | .codewordReceive port sent got errors => Sys2Proof.Machine.execCodewordReceive port sent got errors s
  | .flitReceive port flit => Sys2Proof.Machine.execFlitReceive port flit s
  | .ackReceive port flit => Sys2Proof.Machine.execAckReceive port flit s
  | .nakReceive port flit => Sys2Proof.Machine.execNakReceive port flit s
  | .trainingFlitReceive port flit => Sys2Proof.Machine.execTrainingFlitReceive port flit s
  | .lockHoldExpiry port locked => Sys2Proof.Machine.execLockHoldExpiry port locked s
  | .markersAligned mark => Sys2Proof.Machine.execMarkersAligned mark s
  | .fecCodewordCount port => Sys2Proof.Machine.execFecCodewordCount port s
  | .trainingTimeout port => Sys2Proof.Machine.execTrainingTimeout port s
  | .fecLockLoss port => Sys2Proof.Machine.execFecLockLoss port s
  | .nakRateExceeded port => Sys2Proof.Machine.execNakRateExceeded port s
  | .fibreLockLoss port fibre => Sys2Proof.Machine.execFibreLockLoss port fibre s
  | .slotTake core slot => Sys2Proof.Machine.execSlotTake core slot s
  | .stealSearch core => Sys2Proof.Machine.execStealSearch core s
  | .stealRequest core => Sys2Proof.Machine.execStealRequest core s
  | .stealReply core => Sys2Proof.Machine.execStealReply core s
  | .enqueueContinuation cl => Sys2Proof.Machine.execEnqueueContinuation cl s
  | .injectionAge cl idx => Sys2Proof.Machine.execInjectionAge cl idx s
  | .urgentArrival post => Sys2Proof.Machine.execUrgentArrival post s
  | .evictWrite core slot => Sys2Proof.Machine.execEvictWrite core slot s
  | .npostWrite cl => Sys2Proof.Machine.execNpostWrite cl s
  | .noticeDeliver cl => Sys2Proof.Machine.execNoticeDeliver cl s
  | .translationRequest cl => Sys2Proof.Machine.execTranslationRequest cl s
  | .translationReply core => Sys2Proof.Machine.execTranslationReply core s
  | .tlbShootdown core => Sys2Proof.Machine.execTlbShootdown core s
  | .clbShootdown core => Sys2Proof.Machine.execClbShootdown core s
  | .syncAccessAtOwner unit => Sys2Proof.Machine.execSyncAccessAtOwner unit s
  | .syncDeadline unit idx => Sys2Proof.Machine.execSyncDeadline unit idx s
  | .withdrawal unit => Sys2Proof.Machine.execWithdrawal unit s
  | .barArrival unit => Sys2Proof.Machine.execBarArrival unit s
  | .barDeadline unit idx => Sys2Proof.Machine.execBarDeadline unit idx s
  | .parkAtHome unit => Sys2Proof.Machine.execParkAtHome unit s
  | .parkDeadline unit idx => Sys2Proof.Machine.execParkDeadline unit idx s
  | .lnextClaim unit => Sys2Proof.Machine.execLnextClaim unit s
  | .joinUpdate unit => Sys2Proof.Machine.execJoinUpdate unit s
  | .resumeCellOp unit => Sys2Proof.Machine.execResumeCellOp unit s
  | .messageArrival core => Sys2Proof.Machine.execMessageArrival core s
  | .queueElementArrival core => Sys2Proof.Machine.execQueueElementArrival core s
  | .linkElementTransfer core link => Sys2Proof.Machine.execLinkElementTransfer core link s
  | .portReadTimeout core slot => Sys2Proof.Machine.execPortReadTimeout core slot s
  | .forwardPacket core => Sys2Proof.Machine.execForwardPacket core s
  | .forwardExpiry core idx => Sys2Proof.Machine.execForwardExpiry core idx s
  | .migrationArrival core => Sys2Proof.Machine.execMigrationArrival core s
  | .beadRequest unit => Sys2Proof.Machine.execBeadRequest unit s
  | .sparkClaim unit => Sys2Proof.Machine.execSparkClaim unit s
  | .beadCompletion unit => Sys2Proof.Machine.execBeadCompletion unit s
  | .beadCompletionPoisoned unit => Sys2Proof.Machine.execBeadCompletionPoisoned unit s
  | .beadEngineFault unit => Sys2Proof.Machine.execBeadEngineFault unit s
  | .operandFailure unit => Sys2Proof.Machine.execOperandFailure unit s
  | .deathNotice unit => Sys2Proof.Machine.execDeathNotice unit s
  | .waiterDeadline cl idx => Sys2Proof.Machine.execWaiterDeadline cl idx s
  | .wakeDeliver core => Sys2Proof.Machine.execWakeDeliver core s
  | .wfcEdge cl => Sys2Proof.Machine.execWfcEdge cl s
  | .wfcQuery cl => Sys2Proof.Machine.execWfcQuery cl s
  | .wfcQueryReply cl => Sys2Proof.Machine.execWfcQueryReply cl s
  | .tileEvaluate cl => Sys2Proof.Machine.execTileEvaluate cl s
  | .operandReply cl => Sys2Proof.Machine.execOperandReply cl s
  | .stagingComplete cl block => Sys2Proof.Machine.execStagingComplete cl block s
  | .tileDispatch cl => Sys2Proof.Machine.execTileDispatch cl s
  | .taskComplete cl engine => Sys2Proof.Machine.execTaskComplete cl engine s
  | .taskEngineFault cl engine cause => Sys2Proof.Machine.execTaskEngineFault cl engine cause s
  | .sparkTake cl => Sys2Proof.Machine.execSparkTake cl s
  | .coordAtAgent cl => Sys2Proof.Machine.execCoordAtAgent cl s
  | .cinvReload cl => Sys2Proof.Machine.execCinvReload cl s
  | .engineTicketComplete core idx => Sys2Proof.Machine.execEngineTicketComplete core idx s
  | .routePerform die => Sys2Proof.Machine.execRoutePerform die s
  | .pselPerform die => Sys2Proof.Machine.execPselPerform die s
  | .rqOperation cl => Sys2Proof.Machine.execRqOperation cl s
  | .rqCommitDone cl entry => Sys2Proof.Machine.execRqCommitDone cl entry s
  | .rqgetTimeout cl idx => Sys2Proof.Machine.execRqgetTimeout cl idx s
  | .carryArrival cl => Sys2Proof.Machine.execCarryArrival cl s
  | .carryDepositDone cl => Sys2Proof.Machine.execCarryDepositDone cl s
  | .carryCountReply cl => Sys2Proof.Machine.execCarryCountReply cl s
  | .carryReturn core => Sys2Proof.Machine.execCarryReturn core s
  | .coreParityError core => Sys2Proof.Machine.execCoreParityError core s
  | .add d a b => Sys2Proof.Machine.execAdd d a b s
  | .sub d a b => Sys2Proof.Machine.execSub d a b s
  | .and d a b => Sys2Proof.Machine.execAnd d a b s
  | .or d a b => Sys2Proof.Machine.execOr d a b s
  | .xor d a b => Sys2Proof.Machine.execXor d a b s
  | .andn d a b => Sys2Proof.Machine.execAndn d a b s
  | .orn d a b => Sys2Proof.Machine.execOrn d a b s
  | .xnor d a b => Sys2Proof.Machine.execXnor d a b s
  | .sll d a b => Sys2Proof.Machine.execSll d a b s
  | .srl d a b => Sys2Proof.Machine.execSrl d a b s
  | .sra d a b => Sys2Proof.Machine.execSra d a b s
  | .rol d a b => Sys2Proof.Machine.execRol d a b s
  | .ror d a b => Sys2Proof.Machine.execRor d a b s
  | .min d a b => Sys2Proof.Machine.execMin d a b s
  | .max d a b => Sys2Proof.Machine.execMax d a b s
  | .minn d a b => Sys2Proof.Machine.execMinn d a b s
  | .maxn d a b => Sys2Proof.Machine.execMaxn d a b s
  | .mul d a b => Sys2Proof.Machine.execMul d a b s
  | .mulh d a b => Sys2Proof.Machine.execMulh d a b s
  | .mulhn d a b => Sys2Proof.Machine.execMulhn d a b s
  | .mulhsn d a b => Sys2Proof.Machine.execMulhsn d a b s
  | .div d a b => Sys2Proof.Machine.execDiv d a b s
  | .divn d a b => Sys2Proof.Machine.execDivn d a b s
  | .rem d a b => Sys2Proof.Machine.execRem d a b s
  | .remn d a b => Sys2Proof.Machine.execRemn d a b s
  | .clz d a => Sys2Proof.Machine.execClz d a s
  | .ctz d a => Sys2Proof.Machine.execCtz d a s
  | .popc d a => Sys2Proof.Machine.execPopc d a s
  | .sext d a b => Sys2Proof.Machine.execSext d a b s
  | .zext d a b => Sys2Proof.Machine.execZext d a b s
  | .addw d a b => Sys2Proof.Machine.execAddw d a b s
  | .subw d a b => Sys2Proof.Machine.execSubw d a b s
  | .bfx d a b => Sys2Proof.Machine.execBfx d a b s
  | .bfxn d a b => Sys2Proof.Machine.execBfxn d a b s
  | .bfi d a b => Sys2Proof.Machine.execBfi d a b s
  | .shadd1 d a b => Sys2Proof.Machine.execShadd1 d a b s
  | .shadd2 d a b => Sys2Proof.Machine.execShadd2 d a b s
  | .shadd3 d a b => Sys2Proof.Machine.execShadd3 d a b s
  | .hash d a b => Sys2Proof.Machine.execHash d a b s
  | .rmap d a b => Sys2Proof.Machine.execRmap d a b s
  | .clin d a b => Sys2Proof.Machine.execClin d a b s
  | .cunl d a b => Sys2Proof.Machine.execCunl d a b s
  | .cmpeq k a b => Sys2Proof.Machine.execCmpeq k a b s
  | .cmpne k a b => Sys2Proof.Machine.execCmpne k a b s
  | .cmplt k a b => Sys2Proof.Machine.execCmplt k a b s
  | .cmpge k a b => Sys2Proof.Machine.execCmpge k a b s
  | .cmpltn k a b => Sys2Proof.Machine.execCmpltn k a b s
  | .cmpgen k a b => Sys2Proof.Machine.execCmpgen k a b s
  | .btst k a b => Sys2Proof.Machine.execBtst k a b s
  | .sel d a b k n => Sys2Proof.Machine.execSel d a b k n s
  | .cmpeqi k a iv => Sys2Proof.Machine.execCmpeqi k a iv s
  | .cmpnei k a iv => Sys2Proof.Machine.execCmpnei k a iv s
  | .cmplti k a iv => Sys2Proof.Machine.execCmplti k a iv s
  | .cmpgei k a iv => Sys2Proof.Machine.execCmpgei k a iv s
  | .cmpltni k a iv => Sys2Proof.Machine.execCmpltni k a iv s
  | .cmpgeni k a iv => Sys2Proof.Machine.execCmpgeni k a iv s
  | .btsti k a iv => Sys2Proof.Machine.execBtsti k a iv s
  | .bar a iv => Sys2Proof.Machine.execBar a iv s
  | .addpc d iv => Sys2Proof.Machine.execAddpc d iv s
  | .addi d a iv => Sys2Proof.Machine.execAddi d a iv s
  | .andi d a iv => Sys2Proof.Machine.execAndi d a iv s
  | .ori d a iv => Sys2Proof.Machine.execOri d a iv s
  | .xori d a iv => Sys2Proof.Machine.execXori d a iv s
  | .slli d a sv => Sys2Proof.Machine.execSlli d a sv s
  | .srli d a sv => Sys2Proof.Machine.execSrli d a sv s
  | .srai d a sv => Sys2Proof.Machine.execSrai d a sv s
  | .roli d a sv => Sys2Proof.Machine.execRoli d a sv s
  | .muli d a iv => Sys2Proof.Machine.execMuli d a iv s
  | .li d iv => Sys2Proof.Machine.execLi d iv s
  | .lis d iv => Sys2Proof.Machine.execLis d iv s
  | .beqz a o => Sys2Proof.Machine.execBeqz a o s
  | .bnez a o => Sys2Proof.Machine.execBnez a o s
  | .bltz a o => Sys2Proof.Machine.execBltz a o s
  | .bgez a o => Sys2Proof.Machine.execBgez a o s
  | .bgtz a o => Sys2Proof.Machine.execBgtz a o s
  | .blez a o => Sys2Proof.Machine.execBlez a o s
  | .bk k n o => Sys2Proof.Machine.execBk k n o s
  | .jal d o => Sys2Proof.Machine.execJal d o s
  | .jalr d a iv => Sys2Proof.Machine.execJalr d a iv s
  | .ld t a z k o => Sys2Proof.Machine.execLd t a z k o s
  | .ldn t a z k o => Sys2Proof.Machine.execLdn t a z k o s
  | .st t a z k o => Sys2Proof.Machine.execSt t a z k o s
  | .ldx t a x r z => Sys2Proof.Machine.execLdx t a x r z s
  | .ldxn t a x r z => Sys2Proof.Machine.execLdxn t a x r z s
  | .stx t a x r z => Sys2Proof.Machine.execStx t a x r z s
  | .lds t a z k m o => Sys2Proof.Machine.execLds t a z k m o s
  | .sts t a z k o => Sys2Proof.Machine.execSts t a z k o s
  | .stsf t a z k o => Sys2Proof.Machine.execStsf t a z k o s
  | .amoadd d a b => Sys2Proof.Machine.execAmoadd d a b s
  | .amoand d a b => Sys2Proof.Machine.execAmoand d a b s
  | .amoor d a b => Sys2Proof.Machine.execAmoor d a b s
  | .amoxor d a b => Sys2Proof.Machine.execAmoxor d a b s
  | .amomin d a b => Sys2Proof.Machine.execAmomin d a b s
  | .amomax d a b => Sys2Proof.Machine.execAmomax d a b s
  | .amominn d a b => Sys2Proof.Machine.execAmominn d a b s
  | .amomaxn d a b => Sys2Proof.Machine.execAmomaxn d a b s
  | .amoswp d a b => Sys2Proof.Machine.execAmoswp d a b s
  | .amocas d a b => Sys2Proof.Machine.execAmocas d a b s
  | .amofadds d a b => Sys2Proof.Machine.execAmofadds d a b s
  | .amofaddd d a b => Sys2Proof.Machine.execAmofaddd d a b s
  | .feqry d a => Sys2Proof.Machine.execFeqry d a s
  | .feset d a => Sys2Proof.Machine.execFeset d a s
  | .feclr d a => Sys2Proof.Machine.execFeclr d a s
  | .fence sv k => Sys2Proof.Machine.execFence sv k s
  | .wait l sv c t => Sys2Proof.Machine.execWait l sv c t s
  | .tlwait a l => Sys2Proof.Machine.execTlwait a l s
  | .vadd d a b k z l => Sys2Proof.Machine.execVadd d a b k z l s
  | .vsub d a b k z l => Sys2Proof.Machine.execVsub d a b k z l s
  | .vmul d a b k z l => Sys2Proof.Machine.execVmul d a b k z l s
  | .vmulh d a b k z l => Sys2Proof.Machine.execVmulh d a b k z l s
  | .vmulhn d a b k z l => Sys2Proof.Machine.execVmulhn d a b k z l s
  | .vand d a b k z l => Sys2Proof.Machine.execVand d a b k z l s
  | .vor d a b k z l => Sys2Proof.Machine.execVor d a b k z l s
  | .vxor d a b k z l => Sys2Proof.Machine.execVxor d a b k z l s
  | .vsll d a b k z l => Sys2Proof.Machine.execVsll d a b k z l s
  | .vsrl d a b k z l => Sys2Proof.Machine.execVsrl d a b k z l s
  | .vsra d a b k z l => Sys2Proof.Machine.execVsra d a b k z l s
  | .vmin d a b k z l => Sys2Proof.Machine.execVmin d a b k z l s
  | .vmax d a b k z l => Sys2Proof.Machine.execVmax d a b k z l s
  | .vminn d a b k z l => Sys2Proof.Machine.execVminn d a b k z l s
  | .vmaxn d a b k z l => Sys2Proof.Machine.execVmaxn d a b k z l s
  | .vsadd d a b k z l => Sys2Proof.Machine.execVsadd d a b k z l s
  | .vssub d a b k z l => Sys2Proof.Machine.execVssub d a b k z l s
  | .vsaddn d a b k z l => Sys2Proof.Machine.execVsaddn d a b k z l s
  | .vssubn d a b k z l => Sys2Proof.Machine.execVssubn d a b k z l s
  | .vabs d a k z l => Sys2Proof.Machine.execVabs d a k z l s
  | .vneg d a k z l => Sys2Proof.Machine.execVneg d a k z l s
  | .vma d a b k z l => Sys2Proof.Machine.execVma d a b k z l s
  | .vpopc d a k z l => Sys2Proof.Machine.execVpopc d a k z l s
  | .vclz d a k z l => Sys2Proof.Machine.execVclz d a k z l s
  | .vfadd d a b k z l => Sys2Proof.Machine.execVfadd d a b k z l s
  | .vfsub d a b k z l => Sys2Proof.Machine.execVfsub d a b k z l s
  | .vfmul d a b k z l => Sys2Proof.Machine.execVfmul d a b k z l s
  | .vfma d a b k z l => Sys2Proof.Machine.execVfma d a b k z l s
  | .vfmin d a b k z l => Sys2Proof.Machine.execVfmin d a b k z l s
  | .vfmax d a b k z l => Sys2Proof.Machine.execVfmax d a b k z l s
  | .vfdiv d a b k z l => Sys2Proof.Machine.execVfdiv d a b k z l s
  | .vfsqrt d a k z l => Sys2Proof.Machine.execVfsqrt d a k z l s
  | .vfrcp d a k z l => Sys2Proof.Machine.execVfrcp d a k z l s
  | .vfrsq d a k z l => Sys2Proof.Machine.execVfrsq d a k z l s
  | .vfexp2 d a k z l => Sys2Proof.Machine.execVfexp2 d a k z l s
  | .vflog2 d a k z l => Sys2Proof.Machine.execVflog2 d a k z l s
  | .vfabs d a k z l => Sys2Proof.Machine.execVfabs d a k z l s
  | .vfneg d a k z l => Sys2Proof.Machine.execVfneg d a k z l s
  | .vcmpeq p a b k z l => Sys2Proof.Machine.execVcmpeq p a b k z l s
  | .vcmpne p a b k z l => Sys2Proof.Machine.execVcmpne p a b k z l s
  | .vcmplt p a b k z l => Sys2Proof.Machine.execVcmplt p a b k z l s
  | .vcmpge p a b k z l => Sys2Proof.Machine.execVcmpge p a b k z l s
  | .vcmpltn p a b k z l => Sys2Proof.Machine.execVcmpltn p a b k z l s
  | .vcmpgen p a b k z l => Sys2Proof.Machine.execVcmpgen p a b k z l s
  | .vfcmpeq p a b k z l => Sys2Proof.Machine.execVfcmpeq p a b k z l s
  | .vfcmplt p a b k z l => Sys2Proof.Machine.execVfcmplt p a b k z l s
  | .vfcmple p a b k z l => Sys2Proof.Machine.execVfcmple p a b k z l s
  | .vfcmpun p a b k z l => Sys2Proof.Machine.execVfcmpun p a b k z l s
  | .vsel d a b k l => Sys2Proof.Machine.execVsel d a b k l s
  | .vperm d a b k z l => Sys2Proof.Machine.execVperm d a b k z l s
  | .vslideup d a b k z l => Sys2Proof.Machine.execVslideup d a b k z l s
  | .vslidedn d a b k z l => Sys2Proof.Machine.execVslidedn d a b k z l s
  | .vcompress d a k l => Sys2Proof.Machine.execVcompress d a k l s
  | .vexpand d a k z l => Sys2Proof.Machine.execVexpand d a k z l s
  | .vmov d a k z l => Sys2Proof.Machine.execVmov d a k z l s
  | .vredadd d a k z l => Sys2Proof.Machine.execVredadd d a k z l s
  | .vredmin d a k z l => Sys2Proof.Machine.execVredmin d a k z l s
  | .vredmax d a k z l => Sys2Proof.Machine.execVredmax d a k z l s
  | .vredminn d a k z l => Sys2Proof.Machine.execVredminn d a k z l s
  | .vredmaxn d a k z l => Sys2Proof.Machine.execVredmaxn d a k z l s
  | .vredfadd d a k z l => Sys2Proof.Machine.execVredfadd d a k z l s
  | .vredfmin d a k z l => Sys2Proof.Machine.execVredfmin d a k z l s
  | .vredfmax d a k z l => Sys2Proof.Machine.execVredfmax d a k z l s
  | .vscan d a k z l => Sys2Proof.Machine.execVscan d a k z l s
  | .vfscan d a k z l => Sys2Proof.Machine.execVfscan d a k z l s
  | .vdot d a b k z l => Sys2Proof.Machine.execVdot d a b k z l s
  | .vcvtf2b d a sv k z => Sys2Proof.Machine.execVcvtf2b d a sv k z s
  | .vcvtb2f d a sv k z => Sys2Proof.Machine.execVcvtb2f d a sv k z s
  | .vcvtf2h d a sv k z => Sys2Proof.Machine.execVcvtf2h d a sv k z s
  | .vcvth2f d a sv k z => Sys2Proof.Machine.execVcvth2f d a sv k z s
  | .vcvtf2e4 d a sv k z => Sys2Proof.Machine.execVcvtf2e4 d a sv k z s
  | .vcvte42f d a sv k z => Sys2Proof.Machine.execVcvte42f d a sv k z s
  | .vcvtf2e5 d a sv k z => Sys2Proof.Machine.execVcvtf2e5 d a sv k z s
  | .vcvte52f d a sv k z => Sys2Proof.Machine.execVcvte52f d a sv k z s
  | .vcvtf2w d a sv k z => Sys2Proof.Machine.execVcvtf2w d a sv k z s
  | .vcvtw2f d a sv k z => Sys2Proof.Machine.execVcvtw2f d a sv k z s
  | .vcvtw2i8 d a sv k z => Sys2Proof.Machine.execVcvtw2i8 d a sv k z s
  | .vcvti82w d a sv k z => Sys2Proof.Machine.execVcvti82w d a sv k z s
  | .vcvtw2i4 d a sv k z => Sys2Proof.Machine.execVcvtw2i4 d a sv k z s
  | .vcvti42w d a sv k z => Sys2Proof.Machine.execVcvti42w d a sv k z s
  | .vcvtd2f d a sv k z => Sys2Proof.Machine.execVcvtd2f d a sv k z s
  | .vcvtf2d d a sv k z => Sys2Proof.Machine.execVcvtf2d d a sv k z s
  | .vqnt d a q k l => Sys2Proof.Machine.execVqnt d a q k l s
  | .vdqnt d a q k z l => Sys2Proof.Machine.execVdqnt d a q k z l s
  | .baddq d a b l => Sys2Proof.Machine.execBaddq d a b l s
  | .vbsc d a b k z l => Sys2Proof.Machine.execVbsc d a b k z l s
  | .vbexp d a b k l => Sys2Proof.Machine.execVbexp d a b k l s
  | .vld v a k l sv => Sys2Proof.Machine.execVld v a k l sv s
  | .vst v a k l sv => Sys2Proof.Machine.execVst v a k l sv s
  | .vlds v a b k l sv => Sys2Proof.Machine.execVlds v a b k l sv s
  | .vsts v a b k l sv => Sys2Proof.Machine.execVsts v a b k l sv s
  | .vgath v a b k l sv => Sys2Proof.Machine.execVgath v a b k l sv s
  | .vscat v a b k l sv => Sys2Proof.Machine.execVscat v a b k l sv s
  | .vldf v a k l sv => Sys2Proof.Machine.execVldf v a k l sv s
  | .kand d a b => Sys2Proof.Machine.execKand d a b s
  | .kor d a b => Sys2Proof.Machine.execKor d a b s
  | .kxor d a b => Sys2Proof.Machine.execKxor d a b s
  | .kandn d a b => Sys2Proof.Machine.execKandn d a b s
  | .knot d a => Sys2Proof.Machine.execKnot d a s
  | .kmov d a => Sys2Proof.Machine.execKmov d a s
  | .kpopc d a => Sys2Proof.Machine.execKpopc d a s
  | .kfirst d a => Sys2Proof.Machine.execKfirst d a s
  | .kfromg d a => Sys2Proof.Machine.execKfromg d a s
  | .ktog d a => Sys2Proof.Machine.execKtog d a s
  | .faddF32 d a b => Sys2Proof.Machine.execFaddF32 d a b s
  | .fsubF32 d a b => Sys2Proof.Machine.execFsubF32 d a b s
  | .fmulF32 d a b => Sys2Proof.Machine.execFmulF32 d a b s
  | .fdivF32 d a b => Sys2Proof.Machine.execFdivF32 d a b s
  | .fsqrtF32 d a => Sys2Proof.Machine.execFsqrtF32 d a s
  | .fminF32 d a b => Sys2Proof.Machine.execFminF32 d a b s
  | .fmaxF32 d a b => Sys2Proof.Machine.execFmaxF32 d a b s
  | .fmaF32 d a b => Sys2Proof.Machine.execFmaF32 d a b s
  | .fabsF32 d a => Sys2Proof.Machine.execFabsF32 d a s
  | .fnegF32 d a => Sys2Proof.Machine.execFnegF32 d a s
  | .fclassF32 d a => Sys2Proof.Machine.execFclassF32 d a s
  | .faddF64 d a b => Sys2Proof.Machine.execFaddF64 d a b s
  | .fsubF64 d a b => Sys2Proof.Machine.execFsubF64 d a b s
  | .fmulF64 d a b => Sys2Proof.Machine.execFmulF64 d a b s
  | .fdivF64 d a b => Sys2Proof.Machine.execFdivF64 d a b s
  | .fsqrtF64 d a => Sys2Proof.Machine.execFsqrtF64 d a s
  | .fminF64 d a b => Sys2Proof.Machine.execFminF64 d a b s
  | .fmaxF64 d a b => Sys2Proof.Machine.execFmaxF64 d a b s
  | .fmaF64 d a b => Sys2Proof.Machine.execFmaF64 d a b s
  | .fabsF64 d a => Sys2Proof.Machine.execFabsF64 d a s
  | .fnegF64 d a => Sys2Proof.Machine.execFnegF64 d a s
  | .fclassF64 d a => Sys2Proof.Machine.execFclassF64 d a s
  | .fcmpeq k a b p => Sys2Proof.Machine.execFcmpeq k a b p s
  | .fcmplt k a b p => Sys2Proof.Machine.execFcmplt k a b p s
  | .fcmple k a b p => Sys2Proof.Machine.execFcmple k a b p s
  | .fcmpun k a b p => Sys2Proof.Machine.execFcmpun k a b p s
  | .fcmpne k a b p => Sys2Proof.Machine.execFcmpne k a b p s
  | .cvtf2d d a => Sys2Proof.Machine.execCvtf2d d a s
  | .cvtd2f d a => Sys2Proof.Machine.execCvtd2f d a s
  | .cvtf2w d a => Sys2Proof.Machine.execCvtf2w d a s
  | .cvtf2l d a => Sys2Proof.Machine.execCvtf2l d a s
  | .cvtd2w d a => Sys2Proof.Machine.execCvtd2w d a s
  | .cvtd2l d a => Sys2Proof.Machine.execCvtd2l d a s
  | .cvtw2f d a => Sys2Proof.Machine.execCvtw2f d a s
  | .cvtl2f d a => Sys2Proof.Machine.execCvtl2f d a s
  | .cvtw2d d a => Sys2Proof.Machine.execCvtw2d d a s
  | .cvtl2d d a => Sys2Proof.Machine.execCvtl2d d a s
  | .cvtf2b d a => Sys2Proof.Machine.execCvtf2b d a s
  | .cvtb2f d a => Sys2Proof.Machine.execCvtb2f d a s
  | .cvtf2h d a => Sys2Proof.Machine.execCvtf2h d a s
  | .cvth2f d a => Sys2Proof.Machine.execCvth2f d a s
  | .vbcast v a b => Sys2Proof.Machine.execVbcast v a b s
  | .vextr d v b => Sys2Proof.Machine.execVextr d v b s
  | .vins v a b => Sys2Proof.Machine.execVins v a b s
  | .viota v a b => Sys2Proof.Machine.execViota v a b s
  | .cld d a b => Sys2Proof.Machine.execCld d a b s
  | .cst d a b => Sys2Proof.Machine.execCst d a b s
  | .cadd d a b => Sys2Proof.Machine.execCadd d a b s
  | .cnext d a b => Sys2Proof.Machine.execCnext d a b s
  | .cdel d a b => Sys2Proof.Machine.execCdel d a b s
  | .calloc d a b => Sys2Proof.Machine.execCalloc d a b s
  | .cfree d a b => Sys2Proof.Machine.execCfree d a b s
  | .cinv a => Sys2Proof.Machine.execCinv a s
  | .cqry d a b => Sys2Proof.Machine.execCqry d a b s
  | .spawn a b => Sys2Proof.Machine.execSpawn a b s
  | .sync => Sys2Proof.Machine.execSync s
  | .retc => Sys2Proof.Machine.execRetc s
  | .yield => Sys2Proof.Machine.execYield s
  | .park a b => Sys2Proof.Machine.execPark a b s
  | .tnew a b => Sys2Proof.Machine.execTnew a b s
  | .texit => Sys2Proof.Machine.execTexit s
  | .susp a => Sys2Proof.Machine.execSusp a s
  | .resume d a b => Sys2Proof.Machine.execResume d a b s
  | .lsetup a => Sys2Proof.Machine.execLsetup a s
  | .lnext d a => Sys2Proof.Machine.execLnext d a s
  | .migr d a b => Sys2Proof.Machine.execMigr d a b s
  | .mret a b => Sys2Proof.Machine.execMret a b s
  | .suspend d a => Sys2Proof.Machine.execSuspend d a s
  | .force d a => Sys2Proof.Machine.execForce d a s
  | .spark a => Sys2Proof.Machine.execSpark a s
  | .hwait d a => Sys2Proof.Machine.execHwait d a s
  | .hstat d a => Sys2Proof.Machine.execHstat d a s
  | .hbind a b => Sys2Proof.Machine.execHbind a b s
  | .hdrop a => Sys2Proof.Machine.execHdrop a s
  | .tenq d a => Sys2Proof.Machine.execTenq d a s
  | .mprog a b => Sys2Proof.Machine.execMprog a b s
  | .cpy d a b => Sys2Proof.Machine.execCpy d a b s
  | .plane d a b => Sys2Proof.Machine.execPlane d a b s
  | .dense d a b => Sys2Proof.Machine.execDense d a b s
  | .fill d a => Sys2Proof.Machine.execFill d a s
  | .route d a => Sys2Proof.Machine.execRoute d a s
  | .psel d a => Sys2Proof.Machine.execPsel d a s
  | .rqinit d a b => Sys2Proof.Machine.execRqinit d a b s
  | .rqget d a => Sys2Proof.Machine.execRqget d a s
  | .rqdone d a b => Sys2Proof.Machine.execRqdone d a b s
  | .send d a b => Sys2Proof.Machine.execSend d a b s
  | .qcfg d a b => Sys2Proof.Machine.execQcfg d a b s
  | .qctl d a b => Sys2Proof.Machine.execQctl d a b s
  | .qhnd d a b => Sys2Proof.Machine.execQhnd d a b s
  | .qret => Sys2Proof.Machine.execQret s
  | .qstat d a => Sys2Proof.Machine.execQstat d a s
  | .csrrd d c => Sys2Proof.Machine.execCsrrd d c s
  | .csrwr d a c => Sys2Proof.Machine.execCsrwr d a c s
  | .csrset d a c => Sys2Proof.Machine.execCsrset d a c s
  | .trap a => Sys2Proof.Machine.execTrap a s
  | .syscall => Sys2Proof.Machine.execSyscall s
  | .eret => Sys2Proof.Machine.execEret s
  | .brk => Sys2Proof.Machine.execBrk s
  | .halt => Sys2Proof.Machine.execHalt s
  | .feat d a => Sys2Proof.Machine.execFeat d a s
  | .tlbw a b => Sys2Proof.Machine.execTlbw a b s
  | .tlbi d a b => Sys2Proof.Machine.execTlbi d a b s
  | .flushi => Sys2Proof.Machine.execFlushi s
  | .upret => Sys2Proof.Machine.execUpret s
  | .seqq d a => Sys2Proof.Machine.execSeqq d a s
  | .addFh d a => Sys2Proof.Machine.execAddFh d a s
  | .subFh d a => Sys2Proof.Machine.execSubFh d a s
  | .mulFh d a => Sys2Proof.Machine.execMulFh d a s
  | .andFh d a => Sys2Proof.Machine.execAndFh d a s
  | .orFh d a => Sys2Proof.Machine.execOrFh d a s
  | .xorFh d a => Sys2Proof.Machine.execXorFh d a s
  | .sllFh d a => Sys2Proof.Machine.execSllFh d a s
  | .srlFh d a => Sys2Proof.Machine.execSrlFh d a s
  | .sraFh d a => Sys2Proof.Machine.execSraFh d a s
  | .minFh d a => Sys2Proof.Machine.execMinFh d a s
  | .maxFh d a => Sys2Proof.Machine.execMaxFh d a s
  | .movFh d a => Sys2Proof.Machine.execMovFh d a s
  | .addiFh d iv => Sys2Proof.Machine.execAddiFh d iv s
  | .slliFh d sv => Sys2Proof.Machine.execSlliFh d sv s
  | .faddFh d a => Sys2Proof.Machine.execFaddFh d a s
  | .fmulFh d a => Sys2Proof.Machine.execFmulFh d a s
  | .vaddFh d a => Sys2Proof.Machine.execVaddFh d a s
  | .vsubFh d a => Sys2Proof.Machine.execVsubFh d a s
  | .vmulFh d a => Sys2Proof.Machine.execVmulFh d a s
  | .vandFh d a => Sys2Proof.Machine.execVandFh d a s
  | .vorFh d a => Sys2Proof.Machine.execVorFh d a s
  | .vxorFh d a => Sys2Proof.Machine.execVxorFh d a s
  | .vsllFh d a => Sys2Proof.Machine.execVsllFh d a s
  | .vsrlFh d a => Sys2Proof.Machine.execVsrlFh d a s
  | .vsraFh d a => Sys2Proof.Machine.execVsraFh d a s
  | .vminFh d a => Sys2Proof.Machine.execVminFh d a s
  | .vmaxFh d a => Sys2Proof.Machine.execVmaxFh d a s
  | .vmovFh d a => Sys2Proof.Machine.execVmovFh d a s
  | .vfaddFh d a => Sys2Proof.Machine.execVfaddFh d a s
  | .vfmulFh d a => Sys2Proof.Machine.execVfmulFh d a s
  | .illegalInstruction enc => Sys2Proof.Machine.execIllegalInstruction enc s
  | .fetchFault cause addr => Sys2Proof.Machine.execFetchFault cause addr s

end Sys2Proof.Machine
end

