-- ==== Sys2Proof/Machine/Step.lean ====
section
/-!
DEFINITION. One step of the machine: the turn that the schedule names next is taken whole.  A slot's turn issues
its next instruction; a device step is performed by its meaning.
-/

namespace Sys2Proof.Machine

/-- The instruction that a slot's turn runs, and the state in which it runs; none when the slot issues nothing. -/
noncomputable def issueOf (s : State) (t : Tid) : State × Option Instr :=
  match fetch s t with
  | .idle => (s, none)
  | .late => (turnTo s t, some (.lateTrap t.core t.slot))
  | .brk => (hitBreak s t, none)
  | .stall s => (s, none)
  | .fault s c a => (turnTo s t, some (.fetchFault c a))
  | .bytes s l =>
    match decode l with
    | .ok (i, _) => (turnTo s t, some i)
    | .error e => (turnTo s t, some (.illegalInstruction (errEnc e)))

/-- A slot's turn. -/
noncomputable def issue (s : State) (t : Tid) : Host.Outcome State Fault Refusal :=
  match issueOf s t with
  | (s, none) => .next s
  | (s, some i) =>
    match exec i s with
    | .next s => .next (afterStep t s)
    | r => r

/-- One step. -/
noncomputable def step (s : State) : Host.Outcome State Fault Refusal :=
  match nextTurn s with
  | (s, .issue core slot) => issue s { core := core, slot := slot }
  | (s, .event i) => if isEvent i then exec i s else .next s

/-- The state with an instruction stored where the next step fetches it: its bits above `nbits` are 0, and its first
word lies at the lowest address. -/
def State.withFetchWord (s : State) (nbits w : Nat) : State := placeCode s (leBytes 4 (w % 2 ^ nbits))

end Sys2Proof.Machine
end

