-- ==== Sys2Proof/Machine/HostRead.lean ====
section
/-!
DEFINITION. What the host reads from the registers, notify pages and windows of a function (R58, R59, R61, R73).
-/

namespace Sys2Proof.Machine

/-- The bytes of a function's BAR pair, `bar` its first BAR; the window has the partition's DRAM rounded up to a power of
two (R58). -/
def barBytes (s : State) (fn bar : Nat) : Nat :=
  match bar with
  | 0 => if fn = 0 then 0x4000000 else 0x100000
  | 2 => 4096 * nqCount fn
  | 4 => if fn = 0 then 0x8000000000 else
      let n := (partition s fn).length * 4 * 0x60000000
      if n = 0 then 0 else 2 ^ (Nat.log2 (n - 1) + 1)
  | _ => 0

/-- fnid (R59). -/
def fnidWord (s : State) (fn : Nat) : Word := wd (0x0800 + fn % 32 * 2 ^ 16 + (partition s fn).length % 256 * 2 ^ 24)

/-- fnstat (R59). -/
def fnstatWord (s : State) (fn : Nat) : Word :=
  let f := getFn s fn
  wd (([fnIdle s fn, f.recMode, f.replay, f.halted, f.urgent, f.hostSh, f.diverged].zipIdx.map fun x =>
    if x.1 then 2 ^ x.2 else 0).sum)

/-- mstat (R59). -/
def mstatWord (m : Mgmt) : Word := wd ((if m.busy then 1 else 0) + m.status % 256 * 2 ^ 8 + m.tag % 2 ^ 32 * 2 ^ 16)

/-- qstat (R61). -/
def qstatWord (n : NQueue) : Word := wd (n.st % 16 + n.err % 256 * 2 ^ 8 + n.awaited % 2 ^ 48 * 2 ^ 16)

/-- The 64-bit word at an offset of the control block; an offset not listed reads as zero (R59). -/
def ctlRead (s : State) (fn off : Nat) : Word :=
  let f := getFn s fn
  if 0x100 ≤ off && off < 0x900 then (if (off - 0x100) / 8 < nqCount fn then (getNq s fn ((off - 0x100) / 8)).qvec else 0)
  else if 0x2000 ≤ off && off < 0x2020 then smGet 0 f.screply ((off - 0x2000) / 8)
  else if 0x10000 ≤ off && off < 0x10000 + 16 * msixCount fn then msixGet f ((off - 0x10000) / 8)
  else if 0x18000 ≤ off && off < 0x18100 then smGet 0 f.msixPba ((off - 0x18000) / 8)
  else if fn = 0 && 0x4000 ≤ off && off < 0x4100 then smGet 0 s.mgmt.mcmd ((off - 0x4000) / 8)
  else if fn = 0 && 0x4200 ≤ off && off < 0x4300 then smGet 0 s.mgmt.mresp ((off - 0x4200) / 8)
  else match off with
    | 0x0000 => fnidWord s fn
    | 0x0008 => fnstatWord s fn
    | 0x1000 => f.scbase
    | 0x1008 => f.sclog
    | 0x1010 => wd f.schead
    | 0x1018 => wd f.sctail
    | 0x1020 => wd f.held.length
    | 0x1028 => f.scvec
    | 0x4108 => if fn = 0 then mstatWord s.mgmt else 0
    | _ => 0

/-- The 64-bit word at an offset of a notify page; hiver reads the version agreed, which is 1 (R61, R73). -/
def pageRead (n : NQueue) (o : Nat) : Word :=
  if 0x800 ≤ o && o < 0x1000 then wAt (smGet [] n.area ((o - 0x800) / 64)) ((o - 0x800) % 64 / 8)
  else match o with
    | 0x000 => wd n.ringidx
    | 0x008 => wd n.admitted
    | 0x010 => wd n.compcnt
    | 0x018 => n.ringbase
    | 0x020 => n.ringlog
    | 0x028 => n.compaddr
    | 0x030 => qstatWord n
    | 0x040 => 1
    | 0x048 => wd n.ntcount
    | 0x050 => wd n.nthead
    | 0x058 => wd n.ntlost
    | _ => 0

/-- What a host read of a register or a notify page gives, of 4 or 8 bytes at their alignment; a narrower one reads as zero,
and so does any other (R58; DESIGN CHOICE for those, log 65). None: the function does not answer (R27, R30). -/
def hostRead (s : State) (fn bar off bytes : Nat) : Option Word :=
  if !hostUp s fn then none
  else
    let w := if off ≥ barBytes s fn bar then 0
      else if bar = 0 then ctlRead s fn (off / 8 * 8)
      else if bar = 2 then pageRead (getNq s fn (off / 4096)) (off % 4096 / 8 * 8)
      else 0
    some (if bytes = 8 && off % 8 = 0 then w else if bytes = 4 && off % 4 = 0 then wd (fld w (8 * (off % 8) + 31) (8 * (off % 8))) else 0)

end Sys2Proof.Machine
end

