-- ==== Sys2Proof/Safety.lean ====
section
/-!
DEFINITION. What counts as a safe run: every step answers a next state.
-/

namespace Sys2Proof

/-- A step that neither faults nor is refused. -/
def SafeStep (s : Machine.State) : Prop := ∃ s', Machine.step s = .next s'

/-- The states that n steps reach, if each is safe. -/
def SafeFor : Nat → Machine.State → Prop
  | 0, _ => True
  | n + 1, s => ∃ s', Machine.step s = .next s' ∧ SafeFor n s'

end Sys2Proof
end

