-- ==== Sys2Proof/Certificates/Slice0/Obligations.lean ====
section
/-!
DEFINITION. The statements for the provers.  Each is about the machine, over all states and operands that meet its
hypotheses; the rules of spec/ that it rests on are named in its docstring.
-/

namespace Sys2Proof.Claim

open Sys2Proof.Machine

/-! ### Words that the statements share -/

/-- The slot whose turn it is holds a continuation, and nothing keeps it out of rotation (R95). -/
def Runs (s : State) : Prop := (getSlot s s.cur).uid.isSome = true ∧ parkedSlot (getSlot s s.cur) = false

/-- What instruction i of len bytes sees in the slot whose turn it is. -/
def envFor (len : Word) (i : Instr) (s : State) : Env := envOf len (encode i) s

/-- g[d] := f(g[a], g[b]) and on to the next instruction, for every kind of register: operands are read in the order
a, b, each window register or port as `readR` reads it, and d is written as `writeR` writes it. -/
def Writes2 (len : Word) (i : Instr) (d a b : Nat) (f : Word → Word → Word) : Prop :=
  ∀ s s1 s2 s3 x y, Runs s → chk (envFor len i s) [a, b] [d] [] = .ok () →
    readR (envFor len i s) s a = .ok (s1, x) → readR (envFor len i s) s1 b = .ok (s2, y) →
    writeR (envFor len i s) s2 d (f x y) = .ok s3 → exec i s = .next (done (envFor len i s) s3)

/-- g[d] := f(g[a]) and on to the next instruction. -/
def Writes1 (len : Word) (i : Instr) (d a : Nat) (f : Word → Word) : Prop :=
  ∀ s s1 s2 x, Runs s → chk (envFor len i s) [a] [d] [] = .ok () →
    readR (envFor len i s) s a = .ok (s1, x) →
    writeR (envFor len i s) s1 d (f x) = .ok s2 → exec i s = .next (done (envFor len i s) s2)

/-- g[d] := v, where v depends on the pc alone, and on to the next instruction. -/
def Writes0 (len : Word) (i : Instr) (d : Nat) (v : Word → Word) : Prop :=
  ∀ s s1, Runs s → chk (envFor len i s) [] [d] [] = .ok () →
    writeR (envFor len i s) s d (v (getSlot s s.cur).pc) = .ok s1 → exec i s = .next (done (envFor len i s) s1)

/-- k[d] := all ones if c(g[a], g[b]), else all zeros, and on to the next instruction. -/
def Compares2 (i : Instr) (d a b : Nat) (c : Word → Word → Prop) [DecidableRel c] : Prop :=
  ∀ s s1 s2 x y, Runs s → chk (envFor 4 i s) [a, b] [] [] = .ok () →
    readR (envFor 4 i s) s a = .ok (s1, x) → readR (envFor 4 i s) s1 b = .ok (s2, y) →
    exec i s = .next (done (envFor 4 i s) (predSet s2 s.cur d (if c x y then 0xFFFFFFFFFFFFFFFF else 0)))

/-- k[d] := all ones if c(g[a]), else all zeros, and on to the next instruction. -/
def Compares1 (i : Instr) (d a : Nat) (c : Word → Prop) [DecidablePred c] : Prop :=
  ∀ s s1 x, Runs s → chk (envFor 4 i s) [a] [] [] = .ok () → readR (envFor 4 i s) s a = .ok (s1, x) →
    exec i s = .next (done (envFor 4 i s) (predSet s1 s.cur d (if c x then 0xFFFFFFFFFFFFFFFF else 0)))

/-- The number of bits of x, from bit 0 up, below the first that is 1; 64 for 0. -/
def lowZeros (x : Word) : Nat := ((List.range 64).find? fun i => x.getLsbD i).getD 64
/-- The number of bits of x that are 1. -/
def ones (x : Word) : Nat := ((List.range 64).filter fun i => x.getLsbD i).length
/-- The low n bits of x read as a signed number; x itself for n = 0 (R7). -/
def signedLow (n : Nat) (x : Word) : Word := if n = 0 then x else BitVec.ofInt 64 (Int.bmod x.toNat (2 ^ n))
/-- The low n bits of x read as an unsigned number; x itself for n = 0 (R7). -/
def unsignedLow (n : Nat) (x : Word) : Word := if n = 0 then x else BitVec.ofNat 64 (x.toNat % 2 ^ n)
/-- len of a bit field: y[13:8], where 0 means 64 (R282). -/
def fieldLen (y : Word) : Nat := if y.toNat / 256 % 64 = 0 then 64 else y.toNat / 256 % 64
/-- f of BFX and BFXN: x from bit y[5:0] on, fieldLen bits (R282). -/
def fieldOf (x y : Word) : Nat := x.toNat / 2 ^ (y.toNat % 64) % 2 ^ fieldLen y
/-- Quotient and remainder (R281), on the operands as integers. -/
def quot (sgn : Bool) (x y : Word) : Word :=
  if y = 0 then 0xFFFFFFFFFFFFFFFF
  else if sgn then BitVec.ofInt 64 (x.toInt.tdiv y.toInt) else BitVec.ofNat 64 (x.toNat / y.toNat)
def rmdr (sgn : Bool) (x y : Word) : Word :=
  if y = 0 then x
  else if sgn then BitVec.ofInt 64 (x.toInt.tmod y.toInt) else BitVec.ofNat 64 (x.toNat % y.toNat)

/-! ### Values of float formats -/

/-- (−1)^s · m · 2^e. -/
def signedQ (s : Bool) (m : Nat) (e : Int) : ℚ := (if s then -1 else 1) * m * 2 ^ e
/-- The rational value of an exact finite result. -/
def exactValue : XV → Option ℚ
  | .num s m e false => some (signedQ s m e)
  | _ => none
/-- Sign, exponent field and fraction field of an encoding (R249). -/
def signOf (f : Fmt) (b : Nat) : Bool := b / 2 ^ (f.w - 1) % 2 = 1
def exponentOf (f : Fmt) (b : Nat) : Nat := b / 2 ^ f.fb % 2 ^ f.eb
def fractionOf (f : Fmt) (b : Nat) : Nat := b % 2 ^ f.fb
/-- Whether an encoding is a NaN or finite (R249): E4M3 has one NaN pattern of each sign and no infinity. -/
def isNaN (f : Fmt) (b : Nat) : Bool :=
  exponentOf f b = 2 ^ f.eb - 1 && if f.e4m3 then fractionOf f b = 2 ^ f.fb - 1 else fractionOf f b ≠ 0
def formatFinite (f : Fmt) (b : Nat) : Bool :=
  if f.e4m3 then !(exponentOf f b = 15 && fractionOf f b = 7) else exponentOf f b ≠ 2 ^ f.eb - 1
/-- The value of a finite encoding (R249). -/
def formatValue (f : Fmt) (b : Nat) : ℚ :=
  if exponentOf f b = 0 then signedQ (signOf f b) (fractionOf f b) (1 - (2 ^ (f.eb - 1) - 1) - f.fb)
  else signedQ (signOf f b) (2 ^ f.fb + fractionOf f b) (exponentOf f b - (2 ^ (f.eb - 1) - 1) - f.fb)
/-- The default NaNs of FP32 and FP64 (R250). -/
def nanOf (f : Fmt) : Nat := if f.w = 32 then 0x7FC00000 else 0x7FF8000000000000
/-- An integer that orders encodings that are no NaN, −0 below +0. -/
def signOrder (f : Fmt) (b : Nat) : Int := if b < 2 ^ (f.w - 1) then b else 2 ^ (f.w - 1) - 1 - (b : Int)
/-- An integer that orders them by value, −0 equal to +0. -/
def valueOrder (f : Fmt) (b : Nat) : Int := if b < 2 ^ (f.w - 1) then b else 2 ^ (f.w - 1) - (b : Int)
/-- A relation on values; its answer where an operand is a NaN is given (R293). -/
def floatRel (f : Fmt) (r : Int → Int → Bool) (nan : Bool) (u v : Nat) : Bool :=
  if isNaN f u || isNaN f v then nan else r (valueOrder f u) (valueOrder f v)
/-- The number of the class bit (R292). -/
def classNo (f : Fmt) (b : Nat) : Nat :=
  let inf := exponentOf f b = 2 ^ f.eb - 1
  let zero := exponentOf f b = 0 ∧ fractionOf f b = 0
  if inf ∧ fractionOf f b ≠ 0 then 8
  else if signOf f b then (if inf then 0 else if zero then 3 else if exponentOf f b = 0 then 2 else 1)
  else (if inf then 7 else if zero then 4 else if exponentOf f b = 0 then 5 else 6)
/-- A rational rounded to an integer: nearest even, toward zero, down, up, nearest away (R256, R257). -/
def roundedInt (rm : Nat) (x : ℚ) : Int :=
  match rm with
  | 1 => if 0 ≤ x then ⌊x⌋ else ⌈x⌉
  | 2 => ⌊x⌋
  | 3 => ⌈x⌉
  | 4 => if 0 ≤ x then ⌊x + 1 / 2⌋ else ⌈x - 1 / 2⌉
  | _ => if x - ⌊x⌋ < 1 / 2 ∨ (x - ⌊x⌋ = 1 / 2 ∧ ⌊x⌋ % 2 = 0) then ⌊x⌋ else ⌊x⌋ + 1
/-- Whether the thread's rounding mode is RDN. -/
def roundsDown (s : State) : Bool := (getSlot s s.cur).csr.fmode.toNat % 8 = 2

/-- g[d] := f(g[a], g[b]) rounded once to format fm, flags and generator state kept. -/
def Rounds2 (len : Word) (i : Instr) (d a b : Nat) (fm : Fmt) (f : Bool → XV → XV → XV) : Prop :=
  ∀ s s1 s2 s3 x y, Runs s → chk (envFor len i s) [a, b] [d] [] = .ok () →
    readR (envFor len i s) s a = .ok (s1, x) → readR (envFor len i s) s1 b = .ok (s2, y) →
    let r := roundTo fm (rcOf (getSlot s s.cur)) (f (roundsDown s) (decodeF fm (x.toNat % 2 ^ fm.w)) (decodeF fm (y.toNat % 2 ^ fm.w)))
    writeR (envFor len i s) s2 d (BitVec.ofNat 64 r.bits) = .ok s3 →
    exec i s = .next (done (envFor len i s) (setSeed (orFlags s3 s.cur r.flags) s.cur r.seed))
/-- g[d] := the value that v gives for g[a], rounded once to format fm. -/
def Rounds1 (i : Instr) (d a : Nat) (fm : Fmt) (v : Word → XV) : Prop :=
  ∀ s s1 s2 x, Runs s → chk (envFor 4 i s) [a] [d] [] = .ok () → readR (envFor 4 i s) s a = .ok (s1, x) →
    let r := roundTo fm (rcOf (getSlot s s.cur)) (v x)
    writeR (envFor 4 i s) s1 d (BitVec.ofNat 64 r.bits) = .ok s2 →
    exec i s = .next (done (envFor 4 i s) (setSeed (orFlags s2 s.cur r.flags) s.cur r.seed))
/-- An operation put at the end of the core's iterative unit, for the slot whose turn it is in s; s' is the state after
its operands were read. -/
def toUnitList (s s' : State) (d : Nat) (r : FR) : State :=
  modSlot (modCore s' s.cur.core fun c => { c with iter := c.iter ++ [{ slot := s.cur.slot, uid := (getSlot s s.cur).uid.getD 0, d := d, v := BitVec.ofNat 64 r.bits, flags := r.flags, seed := r.seed }] })
    s.cur fun sl => { sl with wait := some .iter, awaits := [d] }

/-! ### Program order, control and status registers -/

/-- The state s1 that an instruction of s's current slot leaves, the instruction counted in its program order (R195). -/
def counted (s s1 : State) : State := modSlot s1 s.cur fun sl => { sl with ord := sl.ord + 1 }

/-- g[d] := f(g[a]) where f may read the state after the operand is read. -/
def Writes1S (len : Word) (i : Instr) (d a : Nat) (f : State → Word → Word) : Prop :=
  ∀ s s1 s2 x, Runs s → chk (envFor len i s) [a] [d] [] = .ok () → readR (envFor len i s) s a = .ok (s1, x) → s1.cur = s.cur →
    writeR (envFor len i s) s1 d (f s1 x) = .ok s2 → exec i s = .next (done (envFor len i s) s2)

def bit (b : Bool) : Nat := if b then 1 else 0

/-- The registers below 0x400 and their values in the slot whose turn it is (R394). -/
def csrTable (s : State) : List (Nat × Word) :=
  let t := s.cur
  let sl := getSlot s t
  let c := sl.csr
  let n := BitVec.ofNat 64
  [(0x000, n (t.core * 64 + t.slot)), (0x001, n t.core), (0x002, n sl.wbase), (0x003, n (winW sl)),
   (0x004, n (sl.wsize.toNat + 16 * bit sl.ports + 32 * bit sl.restart + 64 * sl.prio.toNat + 256 * sl.steal.toNat + 1024 * bit c.trapActive +
      2048 * bit c.upcallActive + 4096 * bit sl.handler.isSome + 8192 * bit sl.priv + 16384 * bit (!sl.carry.isEmpty) + 32768 * bit c.spawned)),
   (0x005, n sl.ctx), (0x010, n c.sk0.toNat), (0x011, n c.sk1.toNat), (0x012, n c.sk2.toNat), (0x013, n c.sk3.toNat),
   (0x014, n c.dsk.toNat), (0x015, c.late), (0x016, n (bit c.lateen)), (0x017, c.wlimt), (0x020, c.sbound), (0x021, c.scount),
   (0x022, n (bit c.spolicy)), (0x023, c.fbound), (0x024, c.fcount), (0x030, c.remap0), (0x031, c.remap1), (0x032, c.remap2),
   (0x033, c.remap2n), (0x040, n c.fmode.toNat), (0x041, n c.fflags.toNat), (0x042, n c.fseed.toNat),
   (0x050, sl.tls.copy.completed), (0x051, sl.tls.tile.completed), (0x052, sl.tls.route.completed), (0x053, sl.tls.msg.completed),
   (0x054, sl.tls.rstore.completed), (0x058, sl.tls.copy.issued), (0x059, sl.tls.tile.issued), (0x05A, sl.tls.route.issued),
   (0x05B, sl.tls.msg.issued), (0x05C, sl.tls.rstore.issued), (0x060, c.upvec), (0x061, c.upcause), (0x062, c.upaddr), (0x063, c.upseq),
   (0x064, c.upepc), (0x070, c.trapvec), (0x071, c.tcause), (0x072, c.tval), (0x073, c.tepc), (0x080, n (cycNow s t.core)),
   (0x081, s.tick), (0x0A0, sl.spb), (0x0A1, sl.spl)]

/-- The writable thread registers and the bits of each that are reserved (R394). -/
def csrWritable : List (Nat × Word) :=
  [(0x010, ~~~0xFFF), (0x011, ~~~0xFFF), (0x012, ~~~0xFFF), (0x013, ~~~0xFFF), (0x014, ~~~3), (0x015, 0), (0x016, ~~~1), (0x017, 0),
   (0x020, 0), (0x021, 0), (0x022, ~~~1), (0x023, 0), (0x024, 0), (0x030, 0), (0x031, 0), (0x032, 0), (0x033, 0), (0x040, ~~~0xF),
   (0x041, ~~~0x3F), (0x042, ~~~0xFFFFFFFF), (0x060, 1), (0x061, 0), (0x062, 0), (0x063, 0), (0x064, 0), (0x070, 1), (0x071, 0),
   (0x072, 0), (0x073, 0), (0x0A0, 0x3F), (0x0A1, 0x3F)]

/-! ### Requests, atomics, faults that a wait covers -/

/-- Value i that an instruction of several phases read at its issue; v while it is at its issue (R127). -/
def issued (s : State) (i : Nat) (v : Word) : Word := ((getSlot s s.cur).ph[i]?).getD v
/-- No reply of a blocking access has come to the slot whose turn it is, and none is due. -/
def noReply (s : State) : Prop := (getSlot s s.cur).res = none ∧ (getSlot s s.cur).ph = []
/-- The state s' with a request sent by the slot whose turn it is in s, which waits for the reply (R95, R303). -/
def requestSent (s s' : State) (acc : List Word) (dst : List Nat) (cls slack unit : Nat) (b : Body) : State :=
  modSlot (send s' cls slack (coreUnit s.cur.core) unit b) s.cur fun sl =>
    { sl with wait := some .reply, ph := acc, res := none, awaits := dst, toUnit := some unit }
/-- Ticks that a parked synchronising access waits (R311). -/
def syncTicks (s : State) : Nat :=
  if (getSlot s s.cur).csr.wlimt = 0 then 65536 else min 65536 (getSlot s s.cur).csr.wlimt.toNat
/-- Function code, bytes and new memory value of the atomics on data: m the old value, y the operand, x the old g[d] (R312). -/
noncomputable def amoTable (d a b : BitVec 7) : List (Instr × Nat × Nat × (Word → Word → Word → Word)) :=
  [(.amoadd d a b, 0, 8, fun m y _ => m + y), (.amoand d a b, 1, 8, fun m y _ => m &&& y), (.amoor d a b, 2, 8, fun m y _ => m ||| y),
   (.amoxor d a b, 3, 8, fun m y _ => m ^^^ y), (.amomin d a b, 4, 8, fun m y _ => BitVec.ofInt 64 (min m.toInt y.toInt)),
   (.amomax d a b, 5, 8, fun m y _ => BitVec.ofInt 64 (max m.toInt y.toInt)), (.amominn d a b, 6, 8, fun m y _ => BitVec.ofNat 64 (min m.toNat y.toNat)),
   (.amomaxn d a b, 7, 8, fun m y _ => BitVec.ofNat 64 (max m.toNat y.toNat)), (.amoswp d a b, 8, 8, fun _ y _ => y),
   (.amocas d a b, 9, 8, fun m y x => if m = x then y else m),
   (.amofadds d a b, 10, 4, fun m y _ => BitVec.ofNat 64 (roundTo fmtFP32 {} (plusZero (xAdd false (decodeF fmtFP32 m.toNat) (decodeF fmtFP32 (y.toNat % 2 ^ 32))))).bits),
   (.amofaddd d a b, 11, 8, fun m y _ => BitVec.ofNat 64 (roundTo fmtFP64 {} (plusZero (xAdd false (decodeF fmtFP64 m.toNat) (decodeF fmtFP64 y.toNat)))).bits)]
/-- No ring entry stands as faulted, and no fault of a timeline is covered (R195). -/
def noFault (sl : Slot) (cover : Nat → TFault → Bool) : Prop :=
  (∀ r ∈ sl.ring, ∀ c, r.st ≠ .faulted c) ∧ ∀ i, i < 5 → ∀ f ∈ (tlGet sl.tls i).faults, cover i f = false

/-! ### Vectors -/

/-- Bits p to p + n − 1 of vector v, in the window that the slot whose turn it is in `b` has, with the registers of s;
a piece that lies within one register (R138). -/
def bitsAt (s b : State) (v p n : Nat) : Nat := (regGet s b.cur (getSlot b b.cur) (8 * v + p / 64)).toNat / 2 ^ (p % 64) % 2 ^ n
/-- Lane i of vector v at width w (R138). -/
def laneAt (s b : State) (w v i : Nat) : Nat := bitsAt s b v (w * i) w
/-- Vector v as one number, g(8v) least significant. -/
def wholeVec (s : State) (v : Nat) : Nat := ((List.range 8).map fun j => (regGet s s.cur (getSlot s s.cur) (8 * v + j)).toNat * 2 ^ (64 * j)).sum
/-- Whether lane i is active under guard k (R326). -/
def laneOn (s : State) (k i : Nat) : Bool := (predGet (getSlot s s.cur) k).getLsbD i
/-- A lane's result under the guard: f's where active, else the old lane or 0 under .z (R326). -/
def guarded (s : State) (k : Nat) (z : BitVec 1) (w d : Nat) (f : Nat → Nat) (i : Nat) : Nat :=
  if laneOn s k i then f i else if z = 1 then 0 else laneAt s s w d i
/-- The signed value of a lane, and the lane of an integer. -/
def signedLane (w x : Nat) : Int := if x < 2 ^ (w - 1) then x else (x : Int) - 2 ^ w
def toLane (w : Nat) (v : Int) : Nat := (v % 2 ^ w).toNat
/-- The ring with one entry done. -/
def doneRing (l : List RingEnt) (n : BitVec 32) : List RingEnt := l.map fun r => if r.seq = n then { r with st := .done } else r
/-- What a vector instruction of len bytes leaves beside its lanes: other registers, predicates and memory as they were,
flags ORed, the generator state, the ring entry n (taken in s1) done, the next pc. -/
def Settled (len : Word) (s s1 : State) (n : BitVec 32) (d : Nat) (t : State) (flags : BitVec 6) (seed : BitVec 32) : Prop :=
  (∀ r, ¬ (8 * d ≤ r ∧ r < 8 * d + 8) → regGet t s.cur (getSlot s s.cur) r = regGet s s.cur (getSlot s s.cur) r) ∧
  (getSlot t s.cur).csr = { (getSlot s s.cur).csr with fflags := (getSlot s s.cur).csr.fflags ||| flags, fseed := seed } ∧
  (getSlot t s.cur).ks = (getSlot s s.cur).ks ∧ (getSlot t s.cur).ring = doneRing (getSlot s1 s.cur).ring n ∧
  (getSlot t s.cur).pc = (getSlot s s.cur).pc + len ∧ t.mem = s.mem
/-- A vector instruction i of len bytes that uses vectors vs writes `lane s j` to each lane j of width w of vector d. -/
def VecDone (len : Word) (i : Instr) (vs : List Nat) (d w : Nat) (flags : State → BitVec 6) (seed : State → BitVec 32)
    (lane : State → Nat → Nat) : Prop :=
  i.wf = true → ∀ s s1 n, Runs s → chk (envFor len i s) [] [] [] vs = .ok () → takeRing (envFor len i s) s false false = .ok (s1, n) →
    ∃ t, exec i s = .next t ∧ (∀ j, j < 512 / w → laneAt t s w d j = lane s j) ∧ Settled len s s1 n d t (flags s) (seed s)
/-- n generator steps (R259). -/
def stepsOf : Nat → BitVec 32 → BitVec 32
  | 0, x => x
  | n + 1, x => stepsOf n (let a := x ^^^ (x <<< 13); let b := a ^^^ (a >>> 17); b ^^^ (b <<< 5))
/-- The generator state before lane i of an instruction in which each active lane rounds. -/
def seedBefore (s : State) (k i : Nat) : BitVec 32 :=
  if (getSlot s s.cur).csr.fmode.toNat % 8 = 5 then stepsOf ((List.range i).filter (laneOn s k)).length (getSlot s s.cur).csr.fseed
  else (getSlot s s.cur).csr.fseed
/-- The flags of the active lanes. -/
def laneFlags (s : State) (k n : Nat) (f : Nat → BitVec 6) : BitVec 6 := ((List.range n).filter (laneOn s k)).foldl (fun x i => x ||| f i) 0
/-- The float format of a lane type code (R325). -/
def laneFormat (l : Nat) : Fmt := if l = 1 then fmtBF16 else if l = 2 then fmtFP32 else fmtFP64
/-- A vector instruction whose active lanes hold v s i rounded once to the format of lane type l (R330). -/
def VecRounds (len : Word) (i : Instr) (vs : List Nat) (d k : Nat) (z : BitVec 1) (l : Nat) (v : State → Nat → XV) : Prop :=
  let r := fun (s : State) (j : Nat) => roundTo (laneFormat l) { rcOf (getSlot s s.cur) with seed := seedBefore s k j } (v s j)
  VecDone len i vs d (8 * 2 ^ l) (fun s => laneFlags s k (64 / 2 ^ l) fun j => (r s j).flags) (fun s => seedBefore s k (64 / 2 ^ l))
    (fun s => guarded s k z (8 * 2 ^ l) d fun j => (r s j).bits)
/-- SA when some lane below n was clamped. -/
def clampFlag (c : Nat → Bool) (n : Nat) : BitVec 6 := if (List.range n).any c then 0b100000 else 0
/-- The two-source functions of VINT: the lane result from w, x, y and the old lane, and whether it was clamped (R329). -/
noncomputable def vintTable (d a b : BitVec 4) (k : BitVec 3) (z : BitVec 1) (l : BitVec 2) :
    List (Instr × (Nat → Nat → Nat → Nat → Nat) × (Nat → Nat → Nat → Bool)) :=
  let no : Nat → Nat → Nat → Bool := fun _ _ _ => false
  let clampS := fun (w : Nat) (v : Int) => toLane w (max (-(2 ^ (w - 1))) (min (2 ^ (w - 1) - 1) v))
  let clampU := fun (w : Nat) (v : Int) => toLane w (max 0 (min (2 ^ w - 1) v))
  let outS := fun (w : Nat) (v : Int) => decide (v < -(2 ^ (w - 1)) ∨ 2 ^ (w - 1) - 1 < v)
  let outU := fun (w : Nat) (v : Int) => decide (v < 0 ∨ 2 ^ w - 1 < v)
  [(.vadd d a b k z l, fun w x y _ => toLane w (x + y), no), (.vsub d a b k z l, fun w x y _ => toLane w (x - y), no),
   (.vmul d a b k z l, fun w x y _ => toLane w (x * y), no),
   (.vmulh d a b k z l, fun w x y _ => toLane w (signedLane w x * signedLane w y / 2 ^ w), no),
   (.vmulhn d a b k z l, fun w x y _ => x * y / 2 ^ w, no), (.vand d a b k z l, fun _ x y _ => x &&& y, no),
   (.vor d a b k z l, fun _ x y _ => x ||| y, no), (.vxor d a b k z l, fun _ x y _ => x ^^^ y, no),
   (.vsll d a b k z l, fun w x y _ => toLane w (x * 2 ^ (y % w)), no), (.vsrl d a b k z l, fun w x y _ => x / 2 ^ (y % w), no),
   (.vsra d a b k z l, fun w x y _ => toLane w (signedLane w x / 2 ^ (y % w)), no),
   (.vmin d a b k z l, fun w x y _ => toLane w (min (signedLane w x) (signedLane w y)), no),
   (.vmax d a b k z l, fun w x y _ => toLane w (max (signedLane w x) (signedLane w y)), no),
   (.vminn d a b k z l, fun _ x y _ => min x y, no), (.vmaxn d a b k z l, fun _ x y _ => max x y, no),
   (.vsadd d a b k z l, fun w x y _ => clampS w (signedLane w x + signedLane w y), fun w x y => outS w (signedLane w x + signedLane w y)),
   (.vssub d a b k z l, fun w x y _ => clampS w (signedLane w x - signedLane w y), fun w x y => outS w (signedLane w x - signedLane w y)),
   (.vsaddn d a b k z l, fun w x y _ => clampU w (x + y), fun w x y => outU w (x + y)),
   (.vssubn d a b k z l, fun w x y _ => clampU w (x - y), fun w x y => outU w (x - y)),
   (.vma d a b k z l, fun w x y o => toLane w (o + x * y), no)]
/-- The lanes that a reduction combines (R334). -/
def takenLanes (s : State) (k : Nat) (z : BitVec 1) (w a n : Nat) : List Nat :=
  if z = 1 then (List.range n).map fun i => if laneOn s k i then laneAt s s w a i else 0
  else ((List.range n).filter (laneOn s k)).map (laneAt s s w a)
/-- One rounded addition of two encodings. -/
def addOnce (fm : Fmt) (c : RC) (seed : BitVec 32) (x y : Nat) : FR :=
  roundTo fm { c with seed := seed } (xAdd (c.rm = 2) (decodeF fm x) (decodeF fm y))
/-- One level of the tree of R335: adjacent pairs in ascending order. -/
def sumLevel (fm : Fmt) (c : RC) : List Nat → BitVec 32 → List Nat × BitVec 6 × BitVec 32
  | x :: y :: r, seed =>
    let q := addOnce fm c seed x y
    let p := sumLevel fm c r q.seed
    (q.bits :: p.1, q.flags ||| p.2.1, p.2.2)
  | l, seed => (l, 0, seed)
/-- The tree of R335, up to n levels: the sum, the flags, the generator state. -/
def sumTree (fm : Fmt) (c : RC) : Nat → List Nat → BitVec 32 → Nat × BitVec 6 × BitVec 32
  | 0, l, seed => (l.headD 0, 0, seed)
  | n + 1, l, seed =>
    let p := sumLevel fm c l seed
    let q := sumTree fm c n p.1 p.2.2
    (q.1, p.2.1 ||| q.2.1, q.2.2)
/-- The running sum of R335 from −0 over a list of encodings. -/
def runningSum (s : State) (fm : Fmt) (l : List Nat) : Nat × BitVec 6 × BitVec 32 :=
  l.foldl (fun p x =>
    let q := addOnce fm (rcOf (getSlot s s.cur)) p.2.2 p.1 x
    (q.bits, p.2.1 ||| q.flags, q.seed)) (2 ^ (fm.w - 1), 0, (getSlot s s.cur).csr.fseed)
/-- The conversions of R337: elements, source width, target width, whether the code rounds, and the element's result. -/
noncomputable def cvtTable (d a sv : BitVec 4) (k : BitVec 3) (z : BitVec 1) : List (Instr × Nat × Nat × Nat × Bool × (RC → Nat → FR)) :=
  let round := fun (src dst : Fmt) (c : RC) (x : Nat) => roundTo dst c (decodeF src x)
  let exact := fun (f : Nat → Nat) (c : RC) (x : Nat) => ({ bits := f x, flags := 0, seed := c.seed } : FR)
  let widen := fun (src dst : Fmt) => exact fun x => (roundTo dst {} (decodeF src x)).bits
  let narrow := fun (w : Nat) (c : RC) (x : Nat) =>
    let v := max (-(2 ^ (w - 1))) (min (2 ^ (w - 1) - 1) (signedLane 32 x))
    ({ bits := toLane w v, flags := if v = signedLane 32 x then 0 else 0b100100, seed := c.seed } : FR)
  [(.vcvtf2b d a sv k z, 16, 32, 16, true, round fmtFP32 fmtBF16), (.vcvtb2f d a sv k z, 16, 16, 32, false, widen fmtBF16 fmtFP32),
   (.vcvtf2h d a sv k z, 16, 32, 16, true, round fmtFP32 fmtFP16), (.vcvth2f d a sv k z, 16, 16, 32, false, widen fmtFP16 fmtFP32),
   (.vcvtf2e4 d a sv k z, 16, 32, 8, true, round fmtFP32 fmtE4M3), (.vcvte42f d a sv k z, 16, 8, 32, false, widen fmtE4M3 fmtFP32),
   (.vcvtf2e5 d a sv k z, 16, 32, 8, true, round fmtFP32 fmtE5M2), (.vcvte52f d a sv k z, 16, 8, 32, false, widen fmtE5M2 fmtFP32),
   (.vcvtf2w d a sv k z, 16, 32, 32, true, fun c x =>
      let r := roundInt 32 c (decodeF fmtFP32 x)
      { bits := toLane 32 r.1, flags := r.2.1, seed := r.2.2 }),
   (.vcvtw2f d a sv k z, 16, 32, 32, true, fun c x => roundTo fmtFP32 c (xvInt (signedLane 32 x))),
   (.vcvtw2i8 d a sv k z, 16, 32, 8, false, narrow 8), (.vcvti82w d a sv k z, 16, 8, 32, false, exact fun x => toLane 32 (signedLane 8 x)),
   (.vcvtw2i4 d a sv k z, 16, 32, 4, false, narrow 4), (.vcvti42w d a sv k z, 16, 4, 32, false, exact fun x => toLane 32 (signedLane 4 x)),
   (.vcvtd2f d a sv k z, 8, 64, 32, true, round fmtFP64 fmtFP32), (.vcvtf2d d a sv k z, 8, 32, 64, false, widen fmtFP32 fmtFP64)]

/-! ### Leaving and taking slots -/

/-- Nothing of the thread is pending and no late fault stands (R87, R137, R189, R195). -/
def Drained (sl : Slot) : Prop :=
  (∀ r ∈ sl.ring, r.st = .done) ∧ (∀ i, i < 5 → (tlGet sl.tls i).completed = (tlGet sl.tls i).issued ∧ (tlGet sl.tls i).faults = []) ∧
  sl.infl = [] ∧ sl.vops = [] ∧ sl.defer = []
/-- The thread may be suspended: no light handler runs, the burst fits, all is drained (R87, R352). -/
def MaySuspend (s : State) : Prop :=
  let sl := getSlot s s.cur
  sl.handler = none ∧ sl.spb.toNat + burstOf sl ≤ sl.spl.toNat ∧ Drained sl
/-- No late fault of the thread stands unreported (R193, R195). -/
def NoLate (s : State) : Prop := noFault (getSlot s s.cur) fun _ _ => true
/-- The frame pointer g2 of the slot whose turn it is. -/
def framePtr (s : State) : Word := regGet s s.cur (getSlot s s.cur) 2
/-- The state s1, written by the thread, with the device's note that its record lies at fp + 64. -/
def noted (s s1 : State) : State := noteLeft s1 s.cur (getSlot s1 s.cur) (framePtr s + 64)
/-- The continuation of the slot whose turn it is. -/
def uidOf (s : State) : Nat := (getSlot s s.cur).uid.getD 0
/-- What an emptied slot keeps. -/
def emptied (sl : Slot) : Slot := { seq := sl.seq, chainSeq := sl.chainSeq, upCount := sl.upCount, bps := sl.bps, callSeq := sl.callSeq }
/-- The thread may end: no ring entry is pending, prior stores are complete and no late fault stands (R195, R354). -/
def MayEnd (s : State) : Prop :=
  ringPending (getSlot s s.cur) = false ∧ noFault (getSlot s s.cur) (fun _ _ => true) ∧ storesDone (getSlot s s.cur) = true
/-- Extents and index registers of a nest within its rank. -/
def extents (n : Nest) : List Nat := [n.ext0, n.ext1, n.ext2].take n.rank
def indexRegs (n : Nest) : List Nat := [n.reg0, n.reg1, n.reg2].take n.rank
/-- Index i of flat index c, row-major, the last varying fastest (R93). -/
def indexAt (n : Nest) (c i : Nat) : Nat := c / ((extents n).drop (i + 1)).prod % (extents n).getD i 1
/-- A nest claimed with the reply c and chunk: the chunk to d, the index registers when it is not 0 (R93). -/
def NestClaimed (e : Env) (n : Nest) (d c chunk : Nat) (s t : State) : Prop :=
  ∃ s1 s2, writeR e s d (BitVec.ofNat 64 chunk) = .ok s1 ∧ t = done e s2 ∧ (chunk = 0 → s2 = s1) ∧
    (chunk ≠ 0 → ∀ i r, (indexRegs n)[i]? = some r → r ≠ 0 → (∀ j, i < j → (indexRegs n)[j]? ≠ some r) →
      regGet s2 e.t e.sl r = BitVec.ofNat 64 (indexAt n c i)) ∧
    (∀ r, r ∉ indexRegs n → regGet s2 e.t e.sl r = regGet s1 e.t e.sl r) ∧ s2.mem = s1.mem

/-! ### Vector memory -/

/-- The address of lane i (R344): counted from g[a], strided by g(8b), or indexed by lane i of vb. -/
def laneEA (s : State) (mode a b l i : Nat) : Word :=
  let base := regGet s s.cur (getSlot s s.cur) a
  if mode = 1 then base + BitVec.ofNat 64 i * regGet s s.cur (getSlot s s.cur) (8 * b)
  else base + BitVec.ofNat 64 ((if mode = 2 then laneAt s s (8 * 2 ^ l) b i else i) * 2 ^ l)
/-- The key of a byte of the scratchpad of the core whose turn it is. -/
def ownKey (s : State) (va : Word) : Nat := 0x100000000000000 + s.cur.core * 0x100000 + va.toNat
/-- Register fields of the six forms: scalar ones and vectors. -/
def vmFields (mode v a b : Nat) : List Nat × List Nat := (if mode = 1 then [a, 8 * b] else [a], if mode = 2 then [v, b] else [v])
/-- Every active lane lies, aligned, in the scratchpad of the core whose turn it is, which records and replays nothing;
no operation of the thread bears the number of the ring entry n. -/
def OwnLanes (s : State) (mode a b k l : Nat) (n : BitVec 32) : Prop :=
  (mode ≠ 1 → (regGet s s.cur (getSlot s s.cur) a).toNat < 0x1000000) ∧
  (∀ i, i < 64 / 2 ^ l → laneOn s k i = true → (laneEA s mode a b l i).toNat % 2 ^ l = 0 ∧ (laneEA s mode a b l i).toNat + 2 ^ l ≤ scrSize s.cur.core) ∧
  (getFn s (coreFn s s.cur.core)).recMode = false ∧ (getFn s (coreFn s s.cur.core)).replay = false ∧
  (∀ x ∈ (getSlot s s.cur).infl, x.op ≠ n.toNat + 1) ∧ (∀ x ∈ (getSlot s s.cur).vops, x.op ≠ n.toNat + 1)

/-! ### Beads, coordinates, engines -/

/-- The state with the thread's chain sequence number advanced, and the new chain's identifier (R107). -/
def chainOf (s : State) (seq : BitVec 31) : Word :=
  BitVec.ofNat 64 ((getSlot s s.cur).ctx % 65536 * 2 ^ 48 + seq.toNat * 2 ^ 17 + s.cur.core * 64 + s.cur.slot)
def advanced (s s1 : State) : State := modSlot s1 s.cur fun sl => { sl with chainSeq := (getSlot s1 s.cur).chainSeq + 1 }
/-- The handle h names a bead with key k whose home is unit u (R105, R361). -/
def NamesBead (s : State) (e : Env) (h : Word) (k u : Nat) : Prop :=
  h.toNat % 64 = 0 ∧ (∃ x pg, place e h 1 (dskOf (getSlot s s.cur)) = .ok (.mem k x pg)) ∧ isHost k = false ∧ homeOf k = some u
/-- A bead operation of the slot whose turn it is. -/
def beadBody (s : State) (k : Nat) (h : Word) (op : BeadOp) : Body :=
  .bead { key := k, handle := h, ctx := (getSlot s s.cur).ctx } op (getSlot s s.cur).csr.wlimt.toNat s.cur.core (framePtr s + 64)
    (.thread s.cur (uidOf s) h)
/-- The fault of a reply, or of a delivered outcome, trapped at the instruction. -/
def FaultsAt (i : Instr) (s : State) : Prop :=
  ∀ c v, (getSlot s s.cur).res = some (.fault c v) → exec i s = .next (takeTrap s s.cur c v (getSlot s s.cur).pc)
/-- A coordinate instruction's fault: a page fault is an upcall. -/
def FaultsOrUpcalls (i : Instr) (s : State) : Prop :=
  ∀ c v, (getSlot s s.cur).res = some (.fault c v) → exec i s = .next (if c = 0x07 then takeUpcall s s.cur v (getSlot s s.cur).pc
    else takeTrap s s.cur c v (getSlot s s.cur).pc)

/-- The axes of a packing code, as least bit and width, and the coordinates of a packed value (R161). -/
def axesOf (p : Nat) : List (Nat × Nat) :=
  match p with | 0 => [(0, 16), (16, 16), (32, 16), (48, 16)] | 1 => [(0, 21), (21, 21), (42, 21)] | 2 => [(0, 32), (32, 32)] | _ => [(0, 48)]
def coordsOf (p : Nat) (c : Word) : List Nat := (axesOf p).map fun a => c.toNat / 2 ^ a.1 % 2 ^ a.2
/-- The extents that a packed greatest coordinate gives. -/
def extentsOf (p : Nat) (m : Word) : List Nat := (coordsOf p m).map (· + 1)
/-- The linear coordinate: axis 0 slowest. -/
def rowMajor (exts cs : List Nat) : Nat := (exts.zip cs).foldl (fun n x => n * x.1 + x.2) 0
/-- Whether c is a coordinate of a region of packing p and greatest coordinate m. -/
def isCoord (p : Nat) (m c : Word) : Prop :=
  (p = 1 → c.getLsbD 63 = false) ∧ (p = 3 → c.toNat < 2 ^ 48) ∧ ∀ x ∈ (extentsOf p m).zip (coordsOf p c), x.2 < x.1
/-- An engine command of the slot whose turn it is (R385). -/
def IsCommand (s : State) (c : EngCmd) (kind : Nat) (recA dst : Word) (p tl : Nat) (num : Word) : Prop :=
  let sl := getSlot s s.cur
  c.kind = kind ∧ c.t = s.cur ∧ c.uid = uidOf s ∧ c.ctx = sl.ctx ∧ c.recA = recA ∧ c.dst = dst ∧ c.p = p ∧ c.tl = tl ∧ c.num = num ∧
  c.rm = (if sl.csr.fmode.toNat % 8 = 5 then 0 else sl.csr.fmode.setWidth 3) ∧ c.sat = sl.csr.fmode.getLsbD 3 ∧ c.slack = dskOf sl
/-- The instruction i takes the next ticket of timeline tl in s1, adds a copy-engine command, and writes the ticket to d. -/
def IssuesCopy (s s1 : State) (i : Instr) (d kind : Nat) (recA dst : Word) (p : Nat) : Prop :=
  (getCore s1 s.cur.core).eng.length < 128 → ∃ s2 c, IsCommand s c kind recA dst p 0 ((getSlot s1 s.cur).tls.copy.issued + 1) ∧
    (getCore s2 s.cur.core).eng = (getCore s1 s.cur.core).eng ++ [c] ∧ (getSlot s2 s.cur).tls.copy.issued = (getSlot s1 s.cur).tls.copy.issued + 1 ∧
    s2.mem = s1.mem ∧ ∀ s3, writeR (envFor 4 i s) s2 d c.num = .ok s3 → exec i s = .next (done (envFor 4 i s) s3)

/-! ### Steps of the device -/

/-- A management command of op in progress, its function below 32 and its reserved and unused bytes 0 (R60); `used` names
the operand bytes as first and count. -/
def Command (s : State) (op : Nat) (used : List (Nat × Nat)) : Prop :=
  s.mgmt.busy = true ∧ s.power.supplyOk = true ∧ cmdByte s 0 = op ∧ cmdByte s 1 = 0 ∧ cmdFn s < 32 ∧
  ∀ i, 8 ≤ i → i < 256 → (∀ u ∈ used, ¬ (u.1 ≤ i ∧ i < u.1 + u.2)) → cmdByte s i = 0
/-- A command that is INVALID for its function or for a reserved or unused byte that is not 0 (R60). -/
def BadCommand (s : State) (used : List (Nat × Nat)) : Prop :=
  cmdByte s 1 ≠ 0 ∨ 32 ≤ cmdFn s ∨ ∃ i, 8 ≤ i ∧ i < 256 ∧ (∀ u ∈ used, ¬ (u.1 ≤ i ∧ i < u.1 + u.2)) ∧ cmdByte s i ≠ 0
/-- Commands whose effect is one update: the command, its op, its operand bytes, the condition under which it succeeds, the
state that it makes and its response (R57, R60, R67, R72, R74, R78, R146, R209). -/
noncomputable def mgmtTable (s : State) : List (Instr × Nat × List (Nat × Nat) × Prop × State × List Word) :=
  let fn := cmdFn s
  let b := cmdByte s
  let n := cmdNat s
  let w := fun i => BitVec.ofNat 64 (n i 8)
  let idle := fun f => ∀ q ∈ (getFn s f).queues, ∀ e ∈ q.2.entries, e.written = true
  let cls := (List.range 64).filter fun c => (w 8).getLsbD c
  let body := reportBody s fn ((List.range 32).map fun i => BitVec.ofNat 8 (b (16 + i)))
  let report := body ++ leBytes 64 (Config.identitySign body).toNat
  [(.assign, 0x01, [(8, 8)], fn ≠ 0 ∧ idle fn ∧ ∀ c ∈ cls, idle (getCl s c).fn, cls.foldl (fun s c => modCl s c fun k => { k with fn := fn }) s, []),
   (.qbind, 0x04, [(8, 4)], n 8 2 < nqCount fn ∧ (getCtx s (n 10 2)).live = true ∧ (getCtx s (n 10 2)).fn = fn ∧ (getNq s fn (n 8 2)).st = 0,
      modNq s fn (n 8 2) fun q => { q with ctx := some (n 10 2), stale := false }, []),
   (.peer, 0x05, [(8, 4)], n 8 2 < nqCount fn, modNq s fn (n 8 2) fun q => { q with peer := if n 10 2 = 0xFFFF then none else some (n 10 2) }, []),
   (.keyInstall, 0x06, [(8, 2), (16, 32)], b 9 = 1 ∧ b 8 < 8, modFn s fn fun f => { f with keys := smSet [] f.keys (b 8) [w 16, w 24, w 32, w 40] }, []),
   (.keyClear, 0x06, [(8, 2), (16, 32)], b 9 = 0 ∧ b 8 < 8, modFn s fn fun f => { f with keys := smDel f.keys (b 8) }, []),
   (.signed, 0x07, [(8, 1)], b 8 ≤ 1, modFn s fn fun f => { f with signed := decide (b 8 = 1) }, []),
   (.mode, 0x08, [(8, 1)], b 8 < 32 ∧ idle fn ∧ (getFn s fn).urgent = false,
      modFn s fn fun f => { f with recMode := (b 8).testBit 0, replay := (b 8).testBit 1, hostSh := (b 8).testBit 2, debug := (b 8).testBit 3, urgent := (b 8).testBit 4 }, []),
   (.share, 0x09, [(8, 2)], b 8 ≤ 3 ∧ b 9 ≤ 24 ∧ ∀ c, c < 16 → idle (getCl s (b 8 * 16 + c)).fn, modDie s (b 8) fun d => { d with share := b 9 }, []),
   (.drain, 0x0B, [(8, 8)], (getFn s fn).trTail + n 8 8 ≤ (getFn s fn).trHead,
      resumeCalls (((partition s fn).flatMap clCores).foldl retest (modFn s fn fun f => { f with trTail := f.trTail + n 8 8 })) fn, []),
   (.attest, 0x0C, [(8, 2), (16, 40)], n 8 2 = 1, homeWriteL s (hostAt (n 48 8)) report, BitVec.ofNat 64 report.length :: leWords (leBytes 32 Config.identityKey.toNat)),
   (.postmap, 0x0F, [(8, 2), (16, 9)], (getCtx s (n 8 2)).live = true ∧ (getCtx s (n 8 2)).fn = fn ∧ b 24 ≤ 7,
      postNotice s (firstSvc s fn) { type := 1, ctx := n 8 2, subject := w 16, detail := BitVec.ofNat 64 (b 24) } (partition s fn), []),
   (.retrain, 0x10, [(8, 1)], b 8 ≤ 15 ∧ s.power.shutdown = false, modPort s (b 8) fun p =>
      { p with st := .lock, since := s.tick.toNat, attempts := 0, retrain := p.retrain || p.st == .active, fecGood := 0, naks := [] }, []),
   (.resetDie, 0x11, [(8, 1)], b 8 ≤ 3, if (getDie s (b 8)).inReset then s else dieReset s (b 8) false, []),
   (.resetPackage, 0x11, [(8, 1)], b 8 = 4 ∧ s.power.shutdown = false, packageReset s, []),
   (.power, 0x12, [(8, 2)], True, { s with power := { s.power with limit := max 500 (min 3600 (n 8 2)) } }, [])]
/-- The thread that a DEBUG command names, on a core of its partition with debug on (R60, R74). -/
def Debugged (s : State) (action : Nat) (t : Tid) : Prop :=
  Command s 0x13 [(8, 1), (16, 4), (24, 8)] ∧ cmdByte s 8 = action ∧ t = { core := cmdNat s 16 4 / 64 % 2048, slot := cmdNat s 16 4 % 64 } ∧
  cmdNat s 16 4 < 2 ^ 17 ∧ coreExists t.core = true ∧ coreFn s t.core = cmdFn s ∧ (getFn s (cmdFn s)).debug = true

/-- Whether a function answers the host: in recovery mode and before boot only function 0 does, and none with the power stages
off (R27, R30). -/
def Up (s : State) (fn : Nat) : Prop := fn < 32 ∧ s.power.supplyOk = true ∧ (fn = 0 ∨ s.boot.done = true)
/-- A launch entry in the queue of n. -/
def Admitted (s : State) (e : EntryRef) (x : Entry) : Prop := (getNq s e.fn e.q).entries.find? (fun y => y.seq = e.seq) = some x
/-- An entry that has not started, whose target is met, and whose service core runs (R65, R78, R81). -/
def MayStart (s : State) (e : EntryRef) (x : Entry) : Prop :=
  Admitted s e x ∧ x.start = false ∧ x.status = none ∧ x.failed = none ∧ s.boot.done = true ∧ entryCore s e.fn = true ∧
  ((wAt x.ws 5).toNat = 0 ∨ (wAt x.ws 5).toNat ≤ (getNq s e.fn e.q).compcnt)

/-- A late reply counted for a thread whose reply address is va (R42, R43). -/
def lateCounted (s : State) (t : Tid) (p : Packet) (va : Word) : State :=
  if p.late = none then s else modCsr s t fun c => { c with late := c.late + 1, lateTval := some (c.lateTval.getD va), lateDue := c.lateDue || c.lateen }
/-- A reply of the unit u to the request p (R41). -/
def replied (s : State) (cls u : Nat) (p : Packet) (r : Ret) (x : Res) : State :=
  inject s { cls := cls, slack := slackLeft s.tick.toNat p, late := lateAge s.tick.toNat p, src := u, dst := p.src, body := .reply r x, rdev := p.rdev }

/-! ### Frames -/

/-- The scalar instructions that use registers and predicates alone: the instruction, the general register and the predicate
that it may write (0 for none), and whether it may change the rounding flags and the generator state. -/
noncomputable def scalarForms (d a b : BitVec 7) (k p q : BitVec 3) (i : BitVec 11) (n : BitVec 6) (w : BitVec 18) (o : BitVec 15) (z : BitVec 1)
    (e f : BitVec 5) (v : BitVec 4) : List (Instr × Nat × Nat × Bool) :=
  (([.add d a b, .sub d a b, .and d a b, .or d a b, .xor d a b, .andn d a b, .orn d a b, .xnor d a b, .sll d a b, .srl d a b, .sra d a b,
     .rol d a b, .ror d a b, .min d a b, .max d a b, .minn d a b, .maxn d a b, .mul d a b, .mulh d a b, .mulhn d a b, .mulhsn d a b, .div d a b,
     .divn d a b, .rem d a b, .remn d a b, .sext d a b, .zext d a b, .addw d a b, .subw d a b, .bfx d a b, .bfxn d a b, .bfi d a b, .shadd1 d a b,
     .shadd2 d a b, .shadd3 d a b, .hash d a b, .clz d a, .ctz d a, .popc d a, .feat d a, .seqq d a, .csrrd d i, .addi d a i, .andi d a i,
     .ori d a i, .xori d a i, .muli d a i, .jalr d a i, .slli d a n, .srli d a n, .srai d a n, .roli d a n, .li d w, .lis d w, .jal d w,
     .addpc d i, .sel d a b k z, .kpopc d p, .kfirst d p, .ktog d p, .fminF32 d a b, .fmaxF32 d a b, .fabsF32 d a, .fnegF32 d a, .fclassF32 d a,
     .fminF64 d a b, .fmaxF64 d a b, .fabsF64 d a, .fnegF64 d a, .fclassF64 d a, .cvtf2d d a, .cvtw2d d a, .cvtb2f d a, .cvth2f d a, .vextr d v b] : List Instr).map fun x => (x, d.toNat, 0, false)) ++
  (([.cmpeq k a b, .cmpne k a b, .cmplt k a b, .cmpge k a b, .cmpltn k a b, .cmpgen k a b, .btst k a b, .cmpeqi k a i, .cmpnei k a i,
     .cmplti k a i, .cmpgei k a i, .cmpltni k a i, .cmpgeni k a i, .btsti k a n, .kand k p q, .kor k p q, .kxor k p q, .kandn k p q, .knot k p,
     .kmov k p, .kfromg k a, .fcmpeq k a b z, .fcmplt k a b z, .fcmple k a b z, .fcmpun k a b z, .fcmpne k a b z] : List Instr).map fun x => (x, 0, k.toNat, false)) ++
  (([.faddF32 d a b, .fsubF32 d a b, .fmulF32 d a b, .fdivF32 d a b, .fmaF32 d a b, .fsqrtF32 d a, .faddF64 d a b, .fsubF64 d a b, .fmulF64 d a b,
     .fdivF64 d a b, .fmaF64 d a b, .fsqrtF64 d a, .cvtd2f d a, .cvtf2w d a, .cvtf2l d a, .cvtd2w d a, .cvtd2l d a, .cvtw2f d a, .cvtl2f d a,
     .cvtl2d d a, .cvtf2b d a, .cvtf2h d a] : List Instr).map fun x => (x, d.toNat, 0, true)) ++
  (([.beqz a o, .bnez a o, .bltz a o, .bgez a o, .bgtz a o, .blez a o, .bk k z w] : List Instr).map fun x => (x, 0, 0, false)) ++
  (([.addFh e f, .subFh e f, .mulFh e f, .andFh e f, .orFh e f, .xorFh e f, .sllFh e f, .srlFh e f, .sraFh e f, .minFh e f, .maxFh e f,
     .movFh e f, .addiFh e f, .slliFh e f] : List Instr).map fun x => (x, e.toNat, 0, false)) ++
  (([.faddFh e f, .fmulFh e f] : List Instr).map fun x => (x, e.toNat, 0, true))
/-- A trap of the slot whose turn it is would be taken by its handler, and it uses no ports. -/
def Handled (s : State) : Prop :=
  (getSlot s s.cur).csr.trapvec ≠ 0 ∧ (getSlot s s.cur).csr.trapActive = false ∧ (getSlot s s.cur).ports = false
/-- c with what taking a trap writes, as it stands in c'; `flags` also the rounding flags and the generator state. -/
def trapped (c c' : Csrs) (flags : Bool) : Csrs :=
  { c with tcause := c'.tcause, tval := c'.tval, tepc := c'.tepc, trapActive := c'.trapActive
           fflags := if flags then c'.fflags else c.fflags, fseed := if flags then c'.fseed else c.fseed }
/-- c with what taking a trap or an upcall writes, as it stands in c'. -/
def excepted (c c' : Csrs) : Csrs :=
  { trapped c c' false with upcause := c'.upcause, upaddr := c'.upaddr, upseq := c'.upseq, upepc := c'.upepc, upcallActive := c'.upcallActive }
/-- The partition of the core whose turn it is neither records nor replays. -/
def Untraced (s : State) : Prop := (getFn s (coreFn s s.cur.core)).recMode = false ∧ (getFn s (coreFn s s.cur.core)).replay = false
/-- In t every general register of the slot but d and every predicate but k is as in s, and so is every other slot. -/
def OthersKept (s t : State) (d k : Nat) : Prop :=
  (∀ r, r ≠ d → regGet t s.cur (getSlot s s.cur) r = regGet s s.cur (getSlot s s.cur) r) ∧
  (∀ m, m ≠ k → predGet (getSlot t s.cur) m = predGet (getSlot s s.cur) m) ∧ (∀ x, x ≠ s.cur → getSlot t x = getSlot s x)
/-- The vector instructions that use registers and predicates alone: the instruction, the vector register that it may write,
and the predicate (0 for none). -/
noncomputable def vectorForms (d a b : BitVec 4) (k p : BitVec 3) (z m : BitVec 1) (l : BitVec 2) (e f : BitVec 5) (g h : BitVec 7) : List (Instr × Option Nat × Nat) :=
  ((vintTable d a b k z l).map fun x => (x.1, some d.toNat, 0)) ++ ((cvtTable d a b k z).map fun x => (x.1, some d.toNat, 0)) ++
  (([.vfadd d a b k z l, .vfsub d a b k z l, .vfmul d a b k z l, .vfma d a b k z l, .vfmin d a b k z l, .vfmax d a b k z l, .vfdiv d a b k z l,
     .vperm d a b k z l, .vslideup d a b k z l, .vslidedn d a b k z l, .vbsc d a b k z l, .vabs d a k z l, .vneg d a k z l, .vpopc d a k z l,
     .vclz d a k z l, .vfsqrt d a k z l, .vfrcp d a k z l, .vfrsq d a k z l, .vfexp2 d a k z l, .vflog2 d a k z l, .vfabs d a k z l, .vfneg d a k z l,
     .vexpand d a k z l, .vmov d a k z l, .vredadd d a k z l, .vredmin d a k z l, .vredmax d a k z l, .vredminn d a k z l, .vredmaxn d a k z l,
     .vredfadd d a k z l, .vredfmin d a k z l, .vredfmax d a k z l, .vscan d a k z l, .vfscan d a k z l, .vsel d a b k l, .vcompress d a k l,
     .vdot d a b k z m, .vqnt d a b k l, .vdqnt d a b k z l, .baddq d a b m, .vbexp d a b k l,
     .vbcast d g h, .vins d g h, .viota d g h] : List Instr).map fun x => (x, some d.toNat, 0)) ++
  (([.vcmpeq p a b k z l, .vcmpne p a b k z l, .vcmplt p a b k z l, .vcmpge p a b k z l, .vcmpltn p a b k z l, .vcmpgen p a b k z l, .vfcmpeq p a b k z l,
     .vfcmplt p a b k z l, .vfcmple p a b k z l, .vfcmpun p a b k z l] : List Instr).map fun x => (x, none, p.toNat)) ++
  (([.vaddFh e f, .vsubFh e f, .vmulFh e f, .vandFh e f, .vorFh e f, .vxorFh e f, .vsllFh e f, .vsrlFh e f, .vsraFh e f, .vminFh e f, .vmaxFh e f,
     .vmovFh e f, .vfaddFh e f, .vfmulFh e f] : List Instr).map fun x => (x, some e.toNat, 0))

end Sys2Proof.Claim

open Sys2Proof Sys2Proof.Machine Sys2Proof.Claim

/-! ### Encoding, fetch and step -/

/-- R263 to R274: no bit of an encoding is dropped. -/
def Obligations.DecodeInvertsEncode : Prop :=
  ∀ i : Instr, i.encoded = true → i.wf = true → ∀ r, decode (encodeBytes i ++ r) = .ok (i, r)

/-- R263 to R274: no bit of a pattern is ignored. -/
def Obligations.EncodeInvertsDecode : Prop :=
  ∀ l i r, decode l = .ok (i, r) → i.encoded = true ∧ i.wf = true ∧ l = encodeBytes i ++ r

/-- The words that the chapters give in their examples. -/
def Obligations.DecodedWords : Prop :=
  decodeTableWord 32 0x00E18281 = some (.add 5 6 7) ∧
  decodeTableWord 32 0x62C54A03 = some (.divn 20 21 22) ∧
  decodeTableWord 32 0x17810199 = some (.srai 3 4 60) ∧
  decodeTableWord 32 0x0001061D = some (.li 12 4) ∧
  decodeTableWord 32 0xFFF843A1 = some (.bnez 7 (-4)) ∧
  decodeTableWord 32 0x00004027 = some (.jalr 0 1 0) ∧
  decodeTableWord 32 0x0264C8AD = some (.st 17 19 3 0 1) ∧
  decodeTableWord 32 0x90C14239 = some (.amocas 4 5 6) ∧
  decodeTableWord 32 0x00001D3B = some (.fence 2 7) ∧
  decodeTableWord 32 0x0003803F = some (.tlwait 14 0) ∧
  decodeTableWord 32 0x0085000D = some (.bar 20 4) ∧
  decodeTableWord 32 0x0203C773 = some (.send 14 15 16) ∧
  decodeTableWord 32 0x40000073 = some .qret ∧
  decodeTableWord 32 0x2000007B = some .eret ∧
  decodeTableWord 16 0x1940 = some (.addFh 5 3)

/-- R263: the instruction at pc is fetched by halfwords, translated each on its own (R151); a byte that the core does
not hold as fetched is memory's (R178). -/
def Obligations.StepRunsDecoded : Prop :=
  (∀ (s : State) (t : Tid) (rest : List Turn) (k : Nat) (i : Instr) r,
    s.sched = .issue t.core t.slot :: rest →
    let s0 := { s with sched := rest }
    let sl := getSlot s t
    mayIssue s t = true → (sl.csr.lateDue = false ∨ midway sl = true) → (sl.stepOne = true ∨ sl.pc ∉ sl.bps) →
    halfAt s t sl sl.pc = .at k → eccStatus s k 2 = 0 →
    ((codeByte s t.core k).getLsbD 0 = false → decode [codeByte s t.core k, codeByte s t.core (k + 1)] = .ok (i, r) →
      step s = (match exec i (turnTo (holdHalf s0 t.core k) t) with | .next x => .next (afterStep t x) | x => x)) ∧
    (∀ k', (codeByte s t.core k).getLsbD 0 = true →
      let s1 := holdHalf s0 t.core k
      halfAt s1 t (getSlot s1 t) (sl.pc + 2) = .at k' → eccStatus s1 k' 2 = 0 →
      decode [codeByte s t.core k, codeByte s t.core (k + 1), codeByte s1 t.core k', codeByte s1 t.core (k' + 1)] = .ok (i, r) →
      step s = (match exec i (turnTo (holdHalf s1 t.core k') t) with | .next x => .next (afterStep t x) | x => x))) ∧
  (∀ (s : State) (core k : Nat), heldByte (getCore s core) k = none → codeByte s core k = memByte s.mem k) ∧
  (∀ (s : State) (t : Tid) (rest : List Turn), s.sched = .issue t.core t.slot :: rest → mayIssue s t = false →
    step s = .next { s with sched := rest }) ∧
  (∀ (s : State) (i : Instr) (rest : List Turn), s.sched = .event i :: rest → isEvent i = true → step s = exec i { s with sched := rest })

/-- R263, R264 and R274. -/
def Obligations.UndecodableTraps : Prop :=
  (∀ (w : BitVec 32) (s : State), Runs s →
    exec (.illegalInstruction w) s = .next (takeTrap s s.cur 0x01 (w.setWidth 64) (getSlot s s.cur).pc)) ∧
  (∀ (c : BitVec 8) (a : Word) (s : State), Runs s →
    exec (.fetchFault c a) s = .next (if c = 0x07 then takeUpcall s s.cur a (getSlot s s.cur).pc
      else takeTrap s s.cur c a (getSlot s s.cur).pc)) ∧
  (∀ b0 b1 b2 b3 : BitVec 8, b0.getLsbD 0 = true → ∀ r x, decode (b0 :: b1 :: b2 :: b3 :: r) = .error x → errEnc x = b3 ++ b2 ++ b1 ++ b0) ∧
  (∀ b0 b1 : BitVec 8, b0.getLsbD 0 = false → ∀ r x, decode (b0 :: b1 :: r) = .error x → errEnc x = (b1 ++ b0).setWidth 32)

/-- R29, R83, R130, R133, R135 and R394; the register file's zeros rest on assumption 7. -/
def Obligations.ResetState : Prop :=
  (∀ t : Tid, getSlot State.reset t = {}) ∧
  (∀ t : Tid, (getSlot State.reset t).uid = none ∧ (getSlot State.reset t).csr.sk0 = 0x040 ∧ (getSlot State.reset t).csr.sk1 = 0x200 ∧
    (getSlot State.reset t).csr.sk2 = 0x800 ∧ (getSlot State.reset t).csr.sk3 = 0xFFF ∧ (getSlot State.reset t).csr.fseed = 0x9E3779B9 ∧
    (getSlot State.reset t).csr.fmode = 0 ∧ (getSlot State.reset t).csr.trapvec = 0 ∧ (getSlot State.reset t).csr.upvec = 0) ∧
  (∀ k, feGet State.reset k = false) ∧ (∀ k n, eccStatus State.reset k n = 0) ∧ (∀ k, getQ State.reset k = []) ∧
  (∀ c q, qGet State.reset c q = { w0 := 0x300000000, w1 := 0 } ∧ qEn (qGet State.reset c q) = false) ∧
  (∀ n, (getCtx State.reset n).live = false) ∧ (∀ c, (getCl State.reset c).hsk = 0x200) ∧
  (∀ c, (getCore State.reset c).hnd0 = 0 ∧ (getCore State.reset c).hnd1 = 0) ∧ (∀ t sl n, regGet State.reset t sl n = 0)

/-- The invariant of StepKeepsMemoryCanonical at reset; an unlisted byte reads 0 (assumption 1). -/
def Obligations.ResetMemoryCanonical : Prop :=
  Memory.wf State.reset.mem = true ∧ State.reset.mem = [] ∧ (∀ n w, Memory.wf (State.reset.withFetchWord n w).mem = true)

/-- The canonical form of memory (assumption 1), over every thread instruction and every device step. -/
def Obligations.StepKeepsMemoryCanonical : Prop :=
  ∀ s s', Memory.wf s.mem = true → step s = .next s' → Memory.wf s'.mem = true

/-- R95: the device issues nothing from an empty slot, so a turn never reaches the model's fault noContinuation. -/
def Obligations.EveryStepIsSafe : Prop := ∀ s : State, SafeStep s

/-! ### Integer instructions -/

/-- The integer functions of R280 on registers of every kind (window registers and ports). -/
def Sys2Proof.Claim.IntegerRegisterResults : Prop :=
  ∀ d a b : BitVec 7,
    Writes2 4 (.add d a b) d.toNat a.toNat b.toNat (fun x y => x + y) ∧
    Writes2 4 (.sub d a b) d.toNat a.toNat b.toNat (fun x y => x - y) ∧
    Writes2 4 (.and d a b) d.toNat a.toNat b.toNat (fun x y => x &&& y) ∧
    Writes2 4 (.or d a b) d.toNat a.toNat b.toNat (fun x y => x ||| y) ∧
    Writes2 4 (.xor d a b) d.toNat a.toNat b.toNat (fun x y => x ^^^ y) ∧
    Writes2 4 (.andn d a b) d.toNat a.toNat b.toNat (fun x y => x &&& ~~~y) ∧
    Writes2 4 (.orn d a b) d.toNat a.toNat b.toNat (fun x y => x ||| ~~~y) ∧
    Writes2 4 (.xnor d a b) d.toNat a.toNat b.toNat (fun x y => ~~~(x ^^^ y)) ∧
    Writes2 4 (.sll d a b) d.toNat a.toNat b.toNat (fun x y => BitVec.ofNat 64 (x.toNat * 2 ^ (y.toNat % 64))) ∧
    Writes2 4 (.srl d a b) d.toNat a.toNat b.toNat (fun x y => BitVec.ofNat 64 (x.toNat / 2 ^ (y.toNat % 64))) ∧
    Writes2 4 (.sra d a b) d.toNat a.toNat b.toNat (fun x y => BitVec.ofInt 64 (x.toInt / 2 ^ (y.toNat % 64))) ∧
    Writes2 4 (.rol d a b) d.toNat a.toNat b.toNat (fun x y => x.rotateLeft (y.toNat % 64)) ∧
    Writes2 4 (.ror d a b) d.toNat a.toNat b.toNat (fun x y => x.rotateRight (y.toNat % 64)) ∧
    Writes2 4 (.min d a b) d.toNat a.toNat b.toNat (fun x y => BitVec.ofInt 64 (min x.toInt y.toInt)) ∧
    Writes2 4 (.max d a b) d.toNat a.toNat b.toNat (fun x y => BitVec.ofInt 64 (max x.toInt y.toInt)) ∧
    Writes2 4 (.minn d a b) d.toNat a.toNat b.toNat (fun x y => BitVec.ofNat 64 (min x.toNat y.toNat)) ∧
    Writes2 4 (.maxn d a b) d.toNat a.toNat b.toNat (fun x y => BitVec.ofNat 64 (max x.toNat y.toNat)) ∧
    Writes2 4 (.mul d a b) d.toNat a.toNat b.toNat (fun x y => x * y) ∧
    Writes2 4 (.mulh d a b) d.toNat a.toNat b.toNat (fun x y => BitVec.ofInt 64 (x.toInt * y.toInt / 2 ^ 64)) ∧
    Writes2 4 (.mulhn d a b) d.toNat a.toNat b.toNat (fun x y => BitVec.ofNat 64 (x.toNat * y.toNat / 2 ^ 64)) ∧
    Writes2 4 (.mulhsn d a b) d.toNat a.toNat b.toNat (fun x y => BitVec.ofInt 64 (x.toInt * y.toNat / 2 ^ 64)) ∧
    Writes2 4 (.sext d a b) d.toNat a.toNat b.toNat (fun x y => signedLow (y.toNat % 64) x) ∧
    Writes2 4 (.zext d a b) d.toNat a.toNat b.toNat (fun x y => unsignedLow (y.toNat % 64) x) ∧
    Writes2 4 (.addw d a b) d.toNat a.toNat b.toNat (fun x y => signedLow 32 (x + y)) ∧
    Writes2 4 (.subw d a b) d.toNat a.toNat b.toNat (fun x y => signedLow 32 (x - y)) ∧
    Writes1 4 (.clz d a) d.toNat a.toNat (fun x => BitVec.ofNat 64 (if x = 0 then 64 else 63 - Nat.log2 x.toNat)) ∧
    Writes1 4 (.ctz d a) d.toNat a.toNat (fun x => BitVec.ofNat 64 (lowZeros x)) ∧
    Writes1 4 (.popc d a) d.toNat a.toNat (fun x => BitVec.ofNat 64 (ones x))

/-- R282. BFI reads d after a and b; bit i of its result is bit i − pos of x inside the field and bit i of the old g[d]
outside it. -/
def Sys2Proof.Claim.BitFieldResults : Prop :=
  ∀ d a b : BitVec 7,
    Writes2 4 (.bfx d a b) d.toNat a.toNat b.toNat
      (fun x y => signedLow (fieldLen y % 64) (BitVec.ofNat 64 (fieldOf x y))) ∧
    Writes2 4 (.bfxn d a b) d.toNat a.toNat b.toNat (fun x y => BitVec.ofNat 64 (fieldOf x y)) ∧
    Writes2 4 (.shadd1 d a b) d.toNat a.toNat b.toNat (fun x y => 2 * x + y) ∧
    Writes2 4 (.shadd2 d a b) d.toNat a.toNat b.toNat (fun x y => 4 * x + y) ∧
    Writes2 4 (.shadd3 d a b) d.toNat a.toNat b.toNat (fun x y => 8 * x + y) ∧
    Writes2 4 (.hash d a b) d.toNat a.toNat b.toNat
      (fun x y => let h := (x ^^^ y) * 0x9E3779B97F4A7C15; h ^^^ BitVec.ofNat 64 (h.toNat / 2 ^ 32)) ∧
    ∀ s s1 s2 s3 x y g, Runs s → chk (envFor 4 (.bfi d a b) s) [a.toNat, b.toNat, d.toNat] [d.toNat] [] = .ok () →
      readR (envFor 4 (.bfi d a b) s) s a.toNat = .ok (s1, x) → readR (envFor 4 (.bfi d a b) s) s1 b.toNat = .ok (s2, y) →
      readR (envFor 4 (.bfi d a b) s) s2 d.toNat = .ok (s3, g) →
      ∀ v : Word, (∀ i, i < 64 → v.getLsbD i =
          if y.toNat % 64 ≤ i ∧ i < y.toNat % 64 + fieldLen y then x.getLsbD (i - y.toNat % 64) else g.getLsbD i) →
        ∀ s4, writeR (envFor 4 (.bfi d a b) s) s3 d.toNat v = .ok s4 →
          exec (.bfi d a b) s = .next (done (envFor 4 (.bfi d a b) s) s4)

/-- R285 and R286. -/
def Sys2Proof.Claim.IntegerImmediateResults : Prop :=
  (∀ (d a : BitVec 7) (i : BitVec 11),
    Writes1 4 (.addi d a i) d.toNat a.toNat (fun x => x + BitVec.ofInt 64 i.toInt) ∧
    Writes1 4 (.andi d a i) d.toNat a.toNat (fun x => x &&& BitVec.ofInt 64 i.toInt) ∧
    Writes1 4 (.ori d a i) d.toNat a.toNat (fun x => x ||| BitVec.ofInt 64 i.toInt) ∧
    Writes1 4 (.xori d a i) d.toNat a.toNat (fun x => x ^^^ BitVec.ofInt 64 i.toInt) ∧
    Writes1 4 (.muli d a i) d.toNat a.toNat (fun x => x * BitVec.ofInt 64 i.toInt)) ∧
  (∀ (d a : BitVec 7) (n : BitVec 6),
    Writes1 4 (.slli d a n) d.toNat a.toNat (fun x => BitVec.ofNat 64 (x.toNat * 2 ^ n.toNat)) ∧
    Writes1 4 (.srli d a n) d.toNat a.toNat (fun x => BitVec.ofNat 64 (x.toNat / 2 ^ n.toNat)) ∧
    Writes1 4 (.srai d a n) d.toNat a.toNat (fun x => BitVec.ofInt 64 (x.toInt / 2 ^ n.toNat)) ∧
    Writes1 4 (.roli d a n) d.toNat a.toNat (fun x => x.rotateLeft n.toNat)) ∧
  (∀ (d : BitVec 7) (i : BitVec 18),
    Writes0 4 (.li d i) d.toNat (fun _ => BitVec.ofInt 64 i.toInt) ∧
    ∀ s s1 s2 g, Runs s → chk (envFor 4 (.lis d i) s) [d.toNat] [d.toNat] [] = .ok () →
      readR (envFor 4 (.lis d i) s) s d.toNat = .ok (s1, g) →
      writeR (envFor 4 (.lis d i) s) s1 d.toNat (BitVec.ofNat 64 (g.toNat * 2 ^ 18 + i.toNat)) = .ok s2 →
      exec (.lis d i) s = .next (done (envFor 4 (.lis d i) s) s2)) ∧
  (∀ (d : BitVec 7) (i : BitVec 11), Writes0 4 (.addpc d i) d.toNat (fun pc => pc + BitVec.ofInt 64 (i.toInt * 16)))

/-- R279 and R281. -/
def Sys2Proof.Claim.DivisionResults : Prop :=
  (∀ (d a b : BitVec 7), ∀ p ∈ [(Instr.div d a b, quot true), (.divn d a b, quot false), (.rem d a b, rmdr true), (.remn d a b, rmdr false)],
    ∀ s s1 s2 x y, Runs s → chk (envFor 4 p.1 s) [a.toNat, b.toNat] [d.toNat] [] = .ok () →
      readR (envFor 4 p.1 s) s a.toNat = .ok (s1, x) → readR (envFor 4 p.1 s) s1 b.toNat = .ok (s2, y) →
      exec p.1 s = .next (modSlot
        (modCore s2 s.cur.core fun c => { c with iter := c.iter ++ [{ slot := s.cur.slot, uid := (getSlot s s.cur).uid.getD 0, d := d.toNat, v := p.2 x y, flags := 0, seed := (getSlot s s.cur).csr.fseed }] })
        s.cur fun sl => { sl with wait := some .iter, awaits := [d.toNat] })) ∧
  (∀ core s op r s1, (getCore s core).iter = op :: r →
    (getSlot s { core := core, slot := op.slot }).uid = some op.uid → (getSlot s { core := core, slot := op.slot }).wait = some .iter →
    writeR (unitEnv s { core := core, slot := op.slot }) (modCore s core fun c => { c with iter := r }) op.d op.v = .ok s1 →
    exec (.iterativeUnitDone core) s =
      .next (done (unitEnv s { core := core, slot := op.slot })
        (setSeed (orFlags s1 { core := core, slot := op.slot } op.flags) { core := core, slot := op.slot } op.seed)))

/-- R287. The predicate k0 is no destination: the encoding refuses it (R271). -/
def Sys2Proof.Claim.CompareResults : Prop :=
  (∀ (k : BitVec 3) (a b : BitVec 7),
    Compares2 (.cmpeq k a b) k.toNat a.toNat b.toNat (fun x y => x = y) ∧
    Compares2 (.cmpne k a b) k.toNat a.toNat b.toNat (fun x y => ¬ x = y) ∧
    Compares2 (.cmplt k a b) k.toNat a.toNat b.toNat (fun x y => x.toInt < y.toInt) ∧
    Compares2 (.cmpge k a b) k.toNat a.toNat b.toNat (fun x y => y.toInt ≤ x.toInt) ∧
    Compares2 (.cmpltn k a b) k.toNat a.toNat b.toNat (fun x y => x.toNat < y.toNat) ∧
    Compares2 (.cmpgen k a b) k.toNat a.toNat b.toNat (fun x y => y.toNat ≤ x.toNat) ∧
    Compares2 (.btst k a b) k.toNat a.toNat b.toNat (fun x y => x.getLsbD (y.toNat % 64) = true)) ∧
  (∀ (k : BitVec 3) (a : BitVec 7) (i : BitVec 11),
    Compares1 (.cmpeqi k a i) k.toNat a.toNat (fun x => x.toInt = i.toInt) ∧
    Compares1 (.cmpnei k a i) k.toNat a.toNat (fun x => ¬ x.toInt = i.toInt) ∧
    Compares1 (.cmplti k a i) k.toNat a.toNat (fun x => x.toInt < i.toInt) ∧
    Compares1 (.cmpgei k a i) k.toNat a.toNat (fun x => i.toInt ≤ x.toInt) ∧
    Compares1 (.cmpltni k a i) k.toNat a.toNat (fun x => x.toNat < (BitVec.ofInt 64 i.toInt).toNat) ∧
    Compares1 (.cmpgeni k a i) k.toNat a.toNat (fun x => (BitVec.ofInt 64 i.toInt).toNat ≤ x.toNat)) ∧
  (∀ (k : BitVec 3) (a : BitVec 7) (n : BitVec 6), Compares1 (.btsti k a n) k.toNat a.toNat (fun x => x.getLsbD n.toNat = true))

/-- R289; a predicate source is read by `predGet`, which gives all ones for k0 (R326). -/
def Sys2Proof.Claim.PredicateResults : Prop :=
  (∀ (d a b : BitVec 3), ∀ p ∈ [(Instr.kand d a b, fun (p q : Word) => p &&& q), (.kor d a b, fun p q => p ||| q),
      (.kxor d a b, fun p q => p ^^^ q), (.kandn d a b, fun p q => p &&& ~~~q)],
    ∀ s, Runs s → exec p.1 s = .next (done (envFor 4 p.1 s)
      (predSet s s.cur d.toNat (p.2 (predGet (getSlot s s.cur) a.toNat) (predGet (getSlot s s.cur) b.toNat))))) ∧
  (∀ (d a : BitVec 3), ∀ p ∈ [(Instr.knot d a, fun (p : Word) => ~~~p), (.kmov d a, fun p => p)],
    ∀ s, Runs s → exec p.1 s = .next (done (envFor 4 p.1 s) (predSet s s.cur d.toNat (p.2 (predGet (getSlot s s.cur) a.toNat))))) ∧
  (∀ (d : BitVec 3) (a : BitVec 7) s s1 x, Runs s → chk (envFor 4 (.kfromg d a) s) [a.toNat] [] [] = .ok () →
    readR (envFor 4 (.kfromg d a) s) s a.toNat = .ok (s1, x) →
    exec (.kfromg d a) s = .next (done (envFor 4 (.kfromg d a) s) (predSet s1 s.cur d.toNat x))) ∧
  (∀ (d : BitVec 7) (a : BitVec 3), ∀ p ∈ [(Instr.kpopc d a, fun (p : Word) => BitVec.ofNat 64 (ones p)),
      (.kfirst d a, fun p => BitVec.ofNat 64 (lowZeros p)), (.ktog d a, fun p => p)],
    ∀ s s1, Runs s → chk (envFor 4 p.1 s) [] [d.toNat] [] = .ok () →
      writeR (envFor 4 p.1 s) s d.toNat (p.2 (predGet (getSlot s s.cur) a.toNat)) = .ok s1 →
      exec p.1 s = .next (done (envFor 4 p.1 s) s1)) ∧
  (∀ sl : Slot, predGet sl 0 = 0xFFFFFFFFFFFFFFFF)

/-- Scalar compares and predicate operations: the statements CompareResults, PredicateResults. -/
def Obligations.CompareAndPredicateResults : Prop :=
  Claim.CompareResults ∧ Claim.PredicateResults

/-- R288. The predicate k[n] stands in fn[2:0] (bits 30 to 28 of the word) and the invert bit in fn[3] (bit 31); MAJ is
0x04. -/
def Obligations.SelectByPredicate : Prop :=
  (∀ (d a b : BitVec 7) (k : BitVec 3) (n : BitVec 1) s s1 s2 s3 x y, Runs s →
    chk (envFor 4 (.sel d a b k n) s) [a.toNat, b.toNat] [d.toNat] [] = .ok () →
    readR (envFor 4 (.sel d a b k n) s) s a.toNat = .ok (s1, x) → readR (envFor 4 (.sel d a b k n) s) s1 b.toNat = .ok (s2, y) →
    writeR (envFor 4 (.sel d a b k n) s) s2 d.toNat
      (if xor (decide (predGet (getSlot s s.cur) k.toNat ≠ 0)) (decide (n = 1)) then x else y) = .ok s3 →
    exec (.sel d a b k n) s = .next (done (envFor 4 (.sel d a b k n) s) s3)) ∧
  (∀ sl : Slot, predGet sl 0 ≠ 0) ∧
  (∀ (d a b : BitVec 7) (f : BitVec 4) r,
    decode ([(f ++ b ++ a ++ d ++ 9#7 : BitVec 32)].flatMap fun w =>
      [w.extractLsb' 0 8, w.extractLsb' 8 8, w.extractLsb' 16 8, w.extractLsb' 24 8] ++ r) =
    .ok (.sel d a b (f.extractLsb' 0 3) (f.extractLsb' 3 1), r))

/-- R265, R266 and R299: the 16-bit form has the effect of its 32-bit counterpart with d as the first source, and its
next instruction lies 2 bytes on. -/
def Sys2Proof.Claim.ShortFormResults : Prop :=
  (∀ d a : BitVec 5,
    Writes2 2 (.addFh d a) d.toNat d.toNat a.toNat (fun x y => x + y) ∧
    Writes2 2 (.subFh d a) d.toNat d.toNat a.toNat (fun x y => x - y) ∧
    Writes2 2 (.mulFh d a) d.toNat d.toNat a.toNat (fun x y => x * y) ∧
    Writes2 2 (.andFh d a) d.toNat d.toNat a.toNat (fun x y => x &&& y) ∧
    Writes2 2 (.orFh d a) d.toNat d.toNat a.toNat (fun x y => x ||| y) ∧
    Writes2 2 (.xorFh d a) d.toNat d.toNat a.toNat (fun x y => x ^^^ y) ∧
    Writes2 2 (.sllFh d a) d.toNat d.toNat a.toNat (fun x y => BitVec.ofNat 64 (x.toNat * 2 ^ (y.toNat % 64))) ∧
    Writes2 2 (.srlFh d a) d.toNat d.toNat a.toNat (fun x y => BitVec.ofNat 64 (x.toNat / 2 ^ (y.toNat % 64))) ∧
    Writes2 2 (.sraFh d a) d.toNat d.toNat a.toNat (fun x y => BitVec.ofInt 64 (x.toInt / 2 ^ (y.toNat % 64))) ∧
    Writes2 2 (.minFh d a) d.toNat d.toNat a.toNat (fun x y => BitVec.ofInt 64 (min x.toInt y.toInt)) ∧
    Writes2 2 (.maxFh d a) d.toNat d.toNat a.toNat (fun x y => BitVec.ofInt 64 (max x.toInt y.toInt)) ∧
    Writes1 2 (.movFh d a) d.toNat a.toNat (fun x => x)) ∧
  (∀ d i : BitVec 5,
    Writes1 2 (.addiFh d i) d.toNat d.toNat (fun x => x + BitVec.ofInt 64 i.toInt) ∧
    Writes1 2 (.slliFh d i) d.toNat d.toNat (fun x => BitVec.ofNat 64 (x.toNat * 2 ^ i.toNat)))

/-- Integer register, immediate, bit-field, 16-bit and division instructions: the statements IntegerRegisterResults, BitFieldResults, IntegerImmediateResults, DivisionResults, ShortFormResults. -/
def Obligations.IntegerResults : Prop :=
  Claim.IntegerRegisterResults ∧ Claim.BitFieldResults ∧ Claim.IntegerImmediateResults ∧ Claim.DivisionResults ∧ Claim.ShortFormResults

/-! ### Scalar floating point -/

/-- R250 and R291, before the one rounding. -/
def Sys2Proof.Claim.ExactOperations : Prop :=
  (∀ rdn s m e s' m' e', exactValue (xAdd rdn (.num s m e false) (.num s' m' e' false)) =
      some (signedQ s m e + signedQ s' m' e')) ∧
  (∀ rdn s m e s' m' e', signedQ s m e + signedQ s' m' e' = 0 →
      xSign (xAdd rdn (.num s m e false) (.num s' m' e' false)) = if m = 0 ∧ m' = 0 ∧ s = s' then s else rdn) ∧
  (∀ s m e s' m' e', exactValue (xMul (.num s m e false) (.num s' m' e' false)) = some (signedQ s m e * signedQ s' m' e') ∧
      xSign (xMul (.num s m e false) (.num s' m' e' false)) = (s != s')) ∧
  (∀ s m e s' m' e', m' ≠ 0 → ∃ q k st, xDiv (.num s m e false) (.num s' m' e' false) = .num (s != s') q k st ∧
      (q : ℚ) * 2 ^ k ≤ signedQ false m e / signedQ false m' e' ∧ signedQ false m e / signedQ false m' e' < ((q : ℚ) + 1) * 2 ^ k ∧
      (st = false ↔ (q : ℚ) * 2 ^ k = signedQ false m e / signedQ false m' e') ∧ (m ≠ 0 → 2 ^ 128 ≤ q)) ∧
  (∀ m e, m ≠ 0 → ∃ q k st, xSqrt (.num false m e false) = .num false q k st ∧
      ((q : ℚ) * 2 ^ k) ^ 2 ≤ signedQ false m e ∧ signedQ false m e < (((q : ℚ) + 1) * 2 ^ k) ^ 2 ∧
      (st = false ↔ ((q : ℚ) * 2 ^ k) ^ 2 = signedQ false m e) ∧ 2 ^ 128 ≤ q) ∧
  (∀ s s' m e, m ≠ 0 → xAdd false (.inf s false) (.inf (!s) false) = .nan true ∧ xAdd false (.inf s false) (.inf s false) = .inf s false ∧
      xMul (.inf s false) (.num s' 0 e false) = .nan true ∧ xMul (.inf s false) (.num s' m e false) = .inf (s != s') false ∧
      xDiv (.num s 0 e false) (.num s' 0 e false) = .nan true ∧ xDiv (.num s m e false) (.num s' 0 e false) = .inf (s != s') true ∧
      xDiv (.inf s false) (.inf s' false) = .nan true ∧ xDiv (.num s m e false) (.inf s' false) = .num (s != s') 0 0 false ∧
      xSqrt (.num true m e false) = .nan true ∧ xSqrt (.num s 0 e false) = .num s 0 0 false ∧ xSqrt (.inf true false) = .nan true)

/-- R257, over every representable value b of the format. -/
def Obligations.RoundingLaw : Prop :=
  ∀ f ∈ [fmtBF16, fmtFP16, fmtFP32, fmtFP64, fmtE4M3, fmtE5M2], ∀ (c : RC) s m e, c.rm < 5 → m ≠ 0 →
    |signedQ s m e| ≤ formatValue f (maxFinite f) →
    let x := signedQ s m e
    let r := roundTo f c (.num s m e false)
    let v := formatValue f r.bits
    formatFinite f r.bits ∧ r.bits < 2 ^ f.w ∧ (r.flags.getLsbD 0 = true ↔ v ≠ x) ∧
    (r.flags.getLsbD 1 = true ↔ v ≠ x ∧ |x| < 2 ^ (1 - (fmtBias f : Int))) ∧
    ∀ b, b < 2 ^ f.w → formatFinite f b →
      (c.rm = 1 → |v| ≤ |x| ∧ (|formatValue f b| ≤ |x| → |formatValue f b| ≤ |v|)) ∧
      (c.rm = 2 → v ≤ x ∧ (formatValue f b ≤ x → formatValue f b ≤ v)) ∧
      (c.rm = 3 → x ≤ v ∧ (x ≤ formatValue f b → v ≤ formatValue f b)) ∧
      (c.rm = 0 ∨ c.rm = 4 → |v - x| ≤ |formatValue f b - x|) ∧
      (|formatValue f b - x| = |v - x| → formatValue f b ≠ v →
        (c.rm = 0 → r.bits % 2 = 0) ∧ (c.rm = 4 → |formatValue f b| < |v|))

/-- R258. -/
def Sys2Proof.Claim.OverflowResults : Prop :=
  (∀ f ∈ [fmtBF16, fmtFP16, fmtFP32, fmtFP64, fmtE4M3, fmtE5M2], ∀ (c : RC) s m e,
    2 * formatValue f (maxFinite f) ≤ |signedQ s m e| →
    let top := maxFinite f + (if s then 2 ^ (f.w - 1) else 0)
    let inf := if f.e4m3 then 0x7F else (2 ^ f.eb - 1) * 2 ^ f.fb + (if s then 2 ^ (f.w - 1) else 0)
    let r := roundTo f c (.num s m e false)
    r.flags = (if c.sat then 0b100101 else 0b000101) ∧
    r.bits = (if c.sat = true ∨ c.rm = 1 ∨ (c.rm = 2 ∧ s = false) ∨ (c.rm = 3 ∧ s = true) then top else inf)) ∧
  (∀ p ∈ [(fmtBF16, 0x7FC0), (fmtFP16, 0x7E00), (fmtFP32, 0x7FC00000), (fmtFP64, 0x7FF8000000000000), (fmtE4M3, 0x7F), (fmtE5M2, 0x7E)],
    ∀ (c : RC) nv, (roundTo p.1 c (.nan nv)).bits = p.2 ∧ (roundTo p.1 c (.nan nv)).flags = if nv then 0b010000 else 0) ∧
  (∀ (c : RC) s, (roundTo fmtE4M3 c (.inf s false)).bits = (if c.sat then (if s then 0xFE else 0x7E) else 0x7F) ∧
    (roundTo fmtE4M3 c (.inf s false)).flags = if c.sat then 0b100000 else 0b010000)

/-- R259; state 1 steps to 0x00042021. -/
def Sys2Proof.Claim.StochasticRounding : Prop :=
  (∀ (f : Fmt) (c : RC) (v : XV), (roundTo f c v).seed = if c.rm = 5 then
      (let a := c.seed ^^^ (c.seed <<< 13); let b := a ^^^ (a >>> 17); b ^^^ (b <<< 5)) else c.seed) ∧
  (∀ f ∈ [fmtBF16, fmtFP16, fmtFP32, fmtFP64], ∀ (c : RC) s m e, c.rm = 5 →
    2 ^ (1 - (fmtBias f : Int)) ≤ signedQ false m e → signedQ false m e < formatValue f (maxFinite f) →
    ∃ t : Nat, formatFinite f t ∧ formatFinite f (t + 1) ∧ t < maxFinite f ∧
      formatValue f t ≤ signedQ false m e ∧ signedQ false m e < formatValue f (t + 1) ∧
      let r := ⌊(signedQ false m e - formatValue f t) / (formatValue f (t + 1) - formatValue f t) * 65536⌋
      (roundTo f c (.num s m e false)).bits % 2 ^ (f.w - 1) =
        if 65536 ≤ r + ((roundTo f c (.num s m e false)).seed.toNat / 65536 : Int) then t + 1 else t) ∧
  xorshift 1 = 0x00042021 ∧ seedOf 0 = 0x9E3779B9 ∧ (∀ v, v ≠ 0 → seedOf v = v)

/-- Float results before rounding, overflow and stochastic rounding: the statements ExactOperations, OverflowResults, StochasticRounding. -/
def Obligations.FloatExactAndBounds : Prop :=
  Claim.ExactOperations ∧ Claim.OverflowResults ∧ Claim.StochasticRounding

/-- R278, R291 and R299; the operations are those of ExactOperations, the rounding that of RoundingLaw. -/
def Sys2Proof.Claim.FloatArithmeticResults : Prop :=
  (∀ d a b : BitVec 7,
    Rounds2 4 (.faddF32 d a b) d.toNat a.toNat b.toNat fmtFP32 (fun r x y => xAdd r x y) ∧
    Rounds2 4 (.fsubF32 d a b) d.toNat a.toNat b.toNat fmtFP32 (fun r x y => xAdd r x (xNeg y)) ∧
    Rounds2 4 (.fmulF32 d a b) d.toNat a.toNat b.toNat fmtFP32 (fun _ x y => xMul x y) ∧
    Rounds2 4 (.faddF64 d a b) d.toNat a.toNat b.toNat fmtFP64 (fun r x y => xAdd r x y) ∧
    Rounds2 4 (.fsubF64 d a b) d.toNat a.toNat b.toNat fmtFP64 (fun r x y => xAdd r x (xNeg y)) ∧
    Rounds2 4 (.fmulF64 d a b) d.toNat a.toNat b.toNat fmtFP64 (fun _ x y => xMul x y)) ∧
  (∀ d a : BitVec 5,
    Rounds2 2 (.faddFh d a) d.toNat d.toNat a.toNat fmtFP64 (fun r x y => xAdd r x y) ∧
    Rounds2 2 (.fmulFh d a) d.toNat d.toNat a.toNat fmtFP64 (fun _ x y => xMul x y)) ∧
  (∀ d a b : BitVec 7, ∀ p ∈ [(Instr.fmaF32 d a b, fmtFP32), (.fmaF64 d a b, fmtFP64)],
    ∀ s s1 s2 s3 s4 x y g, Runs s → chk (envFor 4 p.1 s) [a.toNat, b.toNat, d.toNat] [d.toNat] [] = .ok () →
      readR (envFor 4 p.1 s) s a.toNat = .ok (s1, x) → readR (envFor 4 p.1 s) s1 b.toNat = .ok (s2, y) →
      readR (envFor 4 p.1 s) s2 d.toNat = .ok (s3, g) →
      let r := roundTo p.2 (rcOf (getSlot s s.cur)) (xAdd (roundsDown s)
        (xMul (decodeF p.2 (x.toNat % 2 ^ p.2.w)) (decodeF p.2 (y.toNat % 2 ^ p.2.w))) (decodeF p.2 (g.toNat % 2 ^ p.2.w)))
      writeR (envFor 4 p.1 s) s3 d.toNat (BitVec.ofNat 64 r.bits) = .ok s4 →
      exec p.1 s = .next (done (envFor 4 p.1 s) (setSeed (orFlags s4 s.cur r.flags) s.cur r.seed)))

/-- R279 and R291. -/
def Sys2Proof.Claim.FloatIterativeResults : Prop :=
  (∀ d a b : BitVec 7, ∀ p ∈ [(Instr.fdivF32 d a b, fmtFP32), (.fdivF64 d a b, fmtFP64)],
    ∀ s s1 s2 x y, Runs s → chk (envFor 4 p.1 s) [a.toNat, b.toNat] [d.toNat] [] = .ok () →
      readR (envFor 4 p.1 s) s a.toNat = .ok (s1, x) → readR (envFor 4 p.1 s) s1 b.toNat = .ok (s2, y) →
      exec p.1 s = .next (toUnitList s s2 d.toNat (roundTo p.2 (rcOf (getSlot s s.cur))
        (xDiv (decodeF p.2 (x.toNat % 2 ^ p.2.w)) (decodeF p.2 (y.toNat % 2 ^ p.2.w)))))) ∧
  (∀ d a : BitVec 7, ∀ p ∈ [(Instr.fsqrtF32 d a, fmtFP32), (.fsqrtF64 d a, fmtFP64)],
    ∀ s s1 x, Runs s → chk (envFor 4 p.1 s) [a.toNat] [d.toNat] [] = .ok () → readR (envFor 4 p.1 s) s a.toNat = .ok (s1, x) →
      exec p.1 s = .next (toUnitList s s1 d.toNat (roundTo p.2 (rcOf (getSlot s s.cur)) (xSqrt (decodeF p.2 (x.toNat % 2 ^ p.2.w))))))

/-- R292, with the order and signs of R291's table; the encodings are taken apart by their fields (R249). -/
def Obligations.FloatSelectsAndClasses : Prop :=
  (∀ d a b : BitVec 7, ∀ p ∈ [(Instr.fminF32 d a b, fmtFP32, true), (.fminF64 d a b, fmtFP64, true), (.fmaxF32 d a b, fmtFP32, false), (.fmaxF64 d a b, fmtFP64, false)],
    Writes2 4 p.1 d.toNat a.toNat b.toNat (fun x y =>
      let u := x.toNat % 2 ^ p.2.1.w
      let v := y.toNat % 2 ^ p.2.1.w
      BitVec.ofNat 64 (if isNaN p.2.1 u || isNaN p.2.1 v then nanOf p.2.1
        else if (signOrder p.2.1 u ≤ signOrder p.2.1 v) = (p.2.2 = true) then u else v))) ∧
  (∀ d a : BitVec 7, ∀ p ∈ [(Instr.fabsF32 d a, fmtFP32, false), (.fabsF64 d a, fmtFP64, false), (.fnegF32 d a, fmtFP32, true), (.fnegF64 d a, fmtFP64, true)],
    Writes1 4 p.1 d.toNat a.toNat (fun x =>
      let u := x.toNat % 2 ^ p.2.1.w
      BitVec.ofNat 64 (if isNaN p.2.1 u then nanOf p.2.1
        else u % 2 ^ (p.2.1.w - 1) + if p.2.2 ∧ u < 2 ^ (p.2.1.w - 1) then 2 ^ (p.2.1.w - 1) else 0))) ∧
  (∀ d a : BitVec 7, ∀ p ∈ [(Instr.fclassF32 d a, fmtFP32), (.fclassF64 d a, fmtFP64)],
    Writes1 4 p.1 d.toNat a.toNat (fun x => BitVec.ofNat 64 (2 ^ classNo p.2 (x.toNat % 2 ^ p.2.w))))

/-- R293; p is the precision bit. -/
def Sys2Proof.Claim.FloatCompareResults : Prop :=
  ∀ (k : BitVec 3) (a b : BitVec 7) (p : BitVec 1),
    let f := if p = 1 then fmtFP64 else fmtFP32
    Compares2 (.fcmpeq k a b p) k.toNat a.toNat b.toNat (fun x y => floatRel f (fun u v => u = v) false (x.toNat % 2 ^ f.w) (y.toNat % 2 ^ f.w) = true) ∧
    Compares2 (.fcmplt k a b p) k.toNat a.toNat b.toNat (fun x y => floatRel f (fun u v => decide (u < v)) false (x.toNat % 2 ^ f.w) (y.toNat % 2 ^ f.w) = true) ∧
    Compares2 (.fcmple k a b p) k.toNat a.toNat b.toNat (fun x y => floatRel f (fun u v => decide (u ≤ v)) false (x.toNat % 2 ^ f.w) (y.toNat % 2 ^ f.w) = true) ∧
    Compares2 (.fcmpun k a b p) k.toNat a.toNat b.toNat (fun x y => floatRel f (fun _ _ => false) true (x.toNat % 2 ^ f.w) (y.toNat % 2 ^ f.w) = true) ∧
    Compares2 (.fcmpne k a b p) k.toNat a.toNat b.toNat (fun x y => floatRel f (fun u v => u ≠ v) true (x.toNat % 2 ^ f.w) (y.toNat % 2 ^ f.w) = true)

/-- Scalar float arithmetic, the iterative unit and compares: the statements FloatArithmeticResults, FloatIterativeResults, FloatCompareResults. -/
def Obligations.FloatResults : Prop :=
  Claim.FloatArithmeticResults ∧ Claim.FloatIterativeResults ∧ Claim.FloatCompareResults

/-- R294; W forms read a[31:0] as signed. -/
def Obligations.ConversionResults : Prop :=
  (∀ d a : BitVec 7, ∀ p ∈ [(Instr.cvtf2d d a, fmtFP32, fmtFP64), (.cvtb2f d a, fmtBF16, fmtFP32), (.cvth2f d a, fmtFP16, fmtFP32)],
    Writes1 4 p.1 d.toNat a.toNat (fun x => BitVec.ofNat 64 (roundTo p.2.2 {} (decodeF p.2.1 (x.toNat % 2 ^ p.2.1.w))).bits)) ∧
  (∀ b, b < 2 ^ 32 → (roundTo fmtFP64 {} (decodeF fmtFP32 b)).flags = 0 ∧ (formatFinite fmtFP32 b →
    formatValue fmtFP64 (roundTo fmtFP64 {} (decodeF fmtFP32 b)).bits = formatValue fmtFP32 b)) ∧
  (∀ d a : BitVec 7, Writes1 4 (.cvtw2d d a) d.toNat a.toNat
    (fun x => BitVec.ofNat 64 (roundTo fmtFP64 {} (xvInt (signedLow 32 x).toInt)).bits)) ∧
  (∀ d a : BitVec 7, ∀ p ∈ [(Instr.cvtd2f d a, fmtFP32, fun (x : Word) => decodeF fmtFP64 x.toNat),
      (.cvtf2b d a, fmtBF16, fun x => decodeF fmtFP32 (x.toNat % 2 ^ 32)), (.cvtf2h d a, fmtFP16, fun x => decodeF fmtFP32 (x.toNat % 2 ^ 32)),
      (.cvtw2f d a, fmtFP32, fun x => xvInt (signedLow 32 x).toInt), (.cvtl2f d a, fmtFP32, fun x => xvInt x.toInt),
      (.cvtl2d d a, fmtFP64, fun x => xvInt x.toInt)],
    Rounds1 p.1 d.toNat a.toNat p.2.1 p.2.2) ∧
  (∀ d a : BitVec 7, ∀ p ∈ [(Instr.cvtf2w d a, fmtFP32, 32), (.cvtf2l d a, fmtFP32, 64), (.cvtd2w d a, fmtFP64, 32), (.cvtd2l d a, fmtFP64, 64)],
    ∀ s s1 s2 x, Runs s → chk (envFor 4 p.1 s) [a.toNat] [d.toNat] [] = .ok () → readR (envFor 4 p.1 s) s a.toNat = .ok (s1, x) →
      let r := roundInt p.2.2 (rcOf (getSlot s s.cur)) (decodeF p.2.1 (x.toNat % 2 ^ p.2.1.w))
      writeR (envFor 4 p.1 s) s1 d.toNat (BitVec.ofInt 64 r.1) = .ok s2 →
      exec p.1 s = .next (done (envFor 4 p.1 s) (setSeed (orFlags s2 s.cur r.2.1) s.cur r.2.2))) ∧
  (∀ w ∈ [32, 64], ∀ (c : RC) s m e, c.rm < 5 →
    let v := roundedInt c.rm (signedQ s m e)
    let lo : Int := -(2 ^ (w - 1))
    let hi : Int := 2 ^ (w - 1) - 1
    roundInt w c (.num s m e false) = (max lo (min hi v),
      (if v < lo ∨ hi < v then 0b100101 else if (v : ℚ) = signedQ s m e then 0 else 0b000001), c.seed) ∧
    (∀ nv, (roundInt w c (.nan nv)).1 = 0 ∧ (roundInt w c (.nan nv)).2.1 = 0b010000))

/-! ### Registers, control flow, traps -/

/-- R121, R122, R125, R134 and R135. -/
def Sys2Proof.Claim.RegisterOperands : Prop :=
  (∀ e s n, (e.sl.ports = false ∨ n < 120) → readR e s n = .ok (s, regGet s e.t e.sl n)) ∧
  (∀ e s n v, (e.sl.ports = false ∨ n < 120) → writeR e s n v = .ok (regSet s e.t e.sl n v)) ∧
  (∀ s t sl v, regGet s t sl 0 = 0 ∧ regSet s t sl 0 v = s) ∧
  (∀ s t sl n v, n ≠ 0 → regGet (regSet s t sl n v) t sl n = v ∧ ∀ m, m ≠ n → regGet (regSet s t sl n v) t sl m = regGet s t sl m) ∧
  (∀ (e : Env) s m, e.sl.ports = true → m < 4 →
    let b := smGet {} (getSlot s e.t).mb m
    (b.full = true → ∃ s', readR e s (124 + m) = .ok (s', b.val) ∧ smGet {} (getSlot s' e.t).mb m = { b with full := false }) ∧
    (b.full = false → readR e s (124 + m) = .error (.port (124 + m))) ∧
    (∀ v, ∃ s', writeR e s (124 + m) v = .ok s' ∧ smGet {} (getSlot s' e.t).mb m = { val := v, full := true } ∧
      ∀ m', m' ≠ m → smGet {} (getSlot s' e.t).mb m' = smGet {} (getSlot s e.t).mb m')) ∧
  (∀ (e : Env) s v, e.sl.ports = true → coreIdx e.t.core < 16 →
    let east := coreCl e.t.core * 32 + (coreIdx e.t.core / 4 * 4 + (coreIdx e.t.core % 4 + 1) % 4)
    let south := coreCl e.t.core * 32 + ((coreIdx e.t.core / 4 + 1) % 4 * 4 + coreIdx e.t.core % 4)
    let el : LinkEl := { v := v, tag := false, slack := dskOf e.sl, late := if dskOf e.sl = 0 then some e.s.tick.toNat else none, since := e.s.tick.toNat }
    ((getCore s east).link0.length < 4 → ∃ s', writeR e s 122 v = .ok s' ∧ (getCore s' east).link0 = (getCore s east).link0 ++ [el]) ∧
    ((getCore s south).link1.length < 4 → ∃ s', writeR e s 123 v = .ok s' ∧ (getCore s' south).link1 = (getCore s south).link1 ++ [el]) ∧
    (4 ≤ (getCore s east).link0.length → writeR e s 122 v = .error .cond)) ∧
  (∀ (e : Env) s q, e.sl.ports = true → q < 2 →
    let c := qGet s e.t.core q
    let h := if q = 0 then (getCore s e.t.core).hnd0 else (getCore s e.t.core).hnd1
    ((qEn c = false ∨ qCount c = 0) → readR e s (120 + q) = .error (.port (120 + q))) ∧
    (qEn c = true → qCount c ≠ 0 → (qPeek s e.t.core q).2 = true → h ≠ 0 → e.sl.handler = none → readR e s (120 + q) = .error (.handler h)) ∧
    (qEn c = true → qCount c ≠ 0 → ((qPeek s e.t.core q).2 = false ∨ h = 0 ∨ e.sl.handler.isSome = true) →
      readR e s (120 + q) = .ok (qPop s e.t.core q, (qPeek s e.t.core q).1)))

/-- R121: tval is the least of the register numbers at or above W. -/
def Sys2Proof.Claim.WindowViolation : Prop :=
  (∀ (d a b : BitVec 7) s, Runs s → (getSlot s s.cur).ports = false →
    let w := winW (getSlot s s.cur)
    (w ≤ d.toNat ∨ w ≤ a.toNat ∨ w ≤ b.toNat) →
    ∃ n, n ∈ [d.toNat, a.toNat, b.toNat] ∧ w ≤ n ∧ (∀ m ∈ [d.toNat, a.toNat, b.toNat], w ≤ m → n ≤ m) ∧
      ∀ i ∈ [Instr.add d a b, .mulh d a b, .sext d a b, .bfx d a b, .faddF32 d a b],
        exec i s = .next (takeTrap s s.cur 0x02 (BitVec.ofNat 64 n) (getSlot s s.cur).pc)) ∧
  (∀ (k : BitVec 3) (a b : BitVec 7) s, Runs s → (getSlot s s.cur).ports = false → winW (getSlot s s.cur) ≤ a.toNat →
    (b.toNat < winW (getSlot s s.cur) ∨ a.toNat ≤ b.toNat) →
    exec (.cmplt k a b) s = .next (takeTrap s s.cur 0x02 (BitVec.ofNat 64 a.toNat) (getSlot s s.cur).pc)) ∧
  (∀ (d a : BitVec 4) (k : BitVec 3) (z : BitVec 1) (l : BitVec 2) s, Runs s → (getSlot s s.cur).ports = false →
    winW (getSlot s s.cur) ≤ 8 * d.toNat → (8 * a.toNat < winW (getSlot s s.cur) ∨ d.toNat ≤ a.toNat) →
    exec (.vmov d a k z l) s = .next (takeTrap s s.cur 0x02 (BitVec.ofNat 64 (8 * d.toNat)) (getSlot s s.cur).pc))

/-- Register operands and window violations: the statements RegisterOperands, WindowViolation. -/
def Obligations.RegisterRules : Prop :=
  Claim.RegisterOperands ∧ Claim.WindowViolation

/-- R156 and R192. -/
def Sys2Proof.Claim.TrapEntry : Prop :=
  (∀ s t c v pc, (getSlot s t).csr.trapvec ≠ 0 → (getSlot s t).csr.trapActive = false →
    let s' := takeTrap s t c v pc
    (getSlot s' t).csr = { (getSlot s t).csr with tcause := c.setWidth 64, tval := v, tepc := pc, trapActive := true } ∧
    (getSlot s' t).pc = (getSlot s t).csr.trapvec ∧ (getSlot s' t).wait = none ∧ (getSlot s' t).ks = (getSlot s t).ks ∧
    (getSlot s' t).uid = (getSlot s t).uid ∧ (getSlot s' t).handler = (getSlot s t).handler ∧
    (∀ sl n, regGet s' t sl n = regGet s t sl n) ∧ (∀ t', t' ≠ t → getSlot s' t' = getSlot s t') ∧ s' = { s with cores := s'.cores }) ∧
  (∀ s t c v pc, (getSlot s t).csr.trapvec = 0 ∨ (getSlot s t).csr.trapActive = true →
    takeTrap s t c v pc = teardown s (getSlot s t).ctx 1) ∧
  (∀ s t a pc, (getSlot s t).csr.upvec ≠ 0 → (getSlot s t).csr.upcallActive = false →
    let s' := takeUpcall s t a pc
    (getSlot s' t).csr = { (getSlot s t).csr with upcause := 7, upaddr := a, upseq := (getSlot s t).upCount, upepc := pc, upcallActive := true } ∧
    (getSlot s' t).pc = (getSlot s t).csr.upvec ∧ (getSlot s' t).upCount = (getSlot s t).upCount + 1 ∧
    (∀ sl n, regGet s' t sl n = regGet s t sl n) ∧ s' = { s with cores := s'.cores }) ∧
  (∀ s t a pc, (getSlot s t).csr.upcallActive = true ∨ (getSlot s t).csr.upvec = 0 → takeUpcall s t a pc = takeTrap s t 0x07 a pc)

/-- R206. -/
def Sys2Proof.Claim.TeardownDiscards : Prop :=
  ∀ s ctx st,
    let s' := teardown s ctx st
    (∀ c ∈ allCores, ∀ e ∈ (getCore s' c).slots, ¬ (e.2.uid.isSome = true ∧ e.2.ctx = ctx)) ∧
    (∀ c ∈ s'.cores, (∀ d ∈ c.2.deque ++ c.2.udeque, ¬ ((getCont s d.uid).alive = true ∧ (getCont s d.uid).ctx = ctx)) ∧ (∀ m ∈ c.2.misses, m.ctx ≠ ctx) ∧ (∀ g ∈ c.2.eng, g.ctx ≠ ctx) ∧ (∀ i ∈ c.2.uinbox, i.ctx ≠ ctx)) ∧
    (∀ cl, cl < 64 → (∀ i ∈ (getCl s' cl).inj, i.ctx ≠ ctx) ∧ (∀ b ∈ (getCl s' cl).sparks, b.ctx ≠ ctx)) ∧
    (∀ e ∈ s'.conts, e.2.ctx ≠ ctx) ∧ (getCtx s' ctx).torn = some st

/-- Taking a trap or an upcall, and discarding a context: the statements TrapEntry, TeardownDiscards. -/
def Obligations.ExceptionRules : Prop :=
  Claim.TrapEntry ∧ Claim.TeardownDiscards

/-- R295. -/
def Sys2Proof.Claim.BranchResults : Prop :=
  ∀ (a : BitVec 7) (o : BitVec 15), ∀ p ∈ [(Instr.beqz a o, fun (x : Int) => decide (x = 0)), (.bnez a o, fun x => decide (x ≠ 0)),
      (.bltz a o, fun x => decide (x < 0)), (.bgez a o, fun x => decide (0 ≤ x)), (.bgtz a o, fun x => decide (0 < x)), (.blez a o, fun x => decide (x ≤ 0))],
    ∀ s s1 x, Runs s → chk (envFor 4 p.1 s) [a.toNat] [] [] = .ok () → readR (envFor 4 p.1 s) s a.toNat = .ok (s1, x) →
      exec p.1 s = .next (jumpTo (envFor 4 p.1 s) s1
        (if p.2 x.toInt then (getSlot s s.cur).pc + BitVec.ofInt 64 (o.toInt * 2) else (getSlot s s.cur).pc + 4))

/-- R296: MAJ 0x11 makes the low seven bits 0x23; k stands in bits 9 to 7, neg in bit 10, the offset in bits 31 to 14. -/
def Obligations.PredicateBranch : Prop :=
  (∀ (k : BitVec 3) (n : BitVec 1) (o : BitVec 18) s, Runs s →
    exec (.bk k n o) s = .next (jumpTo (envFor 4 (.bk k n o) s) s
      (if xor (decide (predGet (getSlot s s.cur) k.toNat ≠ 0)) (decide (n = 1)) then (getSlot s s.cur).pc + BitVec.ofInt 64 (o.toInt * 2)
       else (getSlot s s.cur).pc + 4))) ∧
  (∀ o : BitVec 18, -262144 ≤ o.toInt * 2 ∧ o.toInt * 2 ≤ 262142) ∧
  (∀ sl : Slot, predGet sl 0 ≠ 0) ∧
  (∀ (o : BitVec 18) (z : BitVec 3) (n : BitVec 1) (k : BitVec 3),
    decode32 (o ++ z ++ n ++ k ++ 0x23#7 : BitVec 32) = if z = 0 then .ok (.bk k n o) else .error (.unassigned (o ++ z ++ n ++ k ++ 0x23#7)))

/-- R297. -/
def Sys2Proof.Claim.JumpResults : Prop :=
  (∀ (d : BitVec 7) (o : BitVec 18) s s1, Runs s → chk (envFor 4 (.jal d o) s) [] [d.toNat] [] = .ok () →
    writeR (envFor 4 (.jal d o) s) s d.toNat ((getSlot s s.cur).pc + 4) = .ok s1 →
    exec (.jal d o) s = .next (jumpTo (envFor 4 (.jal d o) s) s1 ((getSlot s s.cur).pc + BitVec.ofInt 64 (o.toInt * 2)))) ∧
  (∀ (d a : BitVec 7) (i : BitVec 11) s s1 x, Runs s → chk (envFor 4 (.jalr d a i) s) [a.toNat] [d.toNat] [] = .ok () →
    readR (envFor 4 (.jalr d a i) s) s a.toNat = .ok (s1, x) →
    let target := x + BitVec.ofInt 64 i.toInt
    (target.getLsbD 0 = false → ∀ s2, writeR (envFor 4 (.jalr d a i) s) s1 d.toNat ((getSlot s s.cur).pc + 4) = .ok s2 →
      exec (.jalr d a i) s = .next (jumpTo (envFor 4 (.jalr d a i) s) s2 target)) ∧
    (target.getLsbD 0 = true → exec (.jalr d a i) s = .next (takeTrap s s.cur 0x03 target (getSlot s s.cur).pc)))

/-- Branches on a register and jumps: the statements BranchResults, JumpResults. -/
def Obligations.BranchAndJumpResults : Prop :=
  Claim.BranchResults ∧ Claim.JumpResults

/-- R395. -/
def Sys2Proof.Claim.TrapInstructions : Prop :=
  (∀ (a : BitVec 7) s s1 x, Runs s → chk (envFor 4 (.trap a) s) [a.toNat] [] [] = .ok () →
    readR (envFor 4 (.trap a) s) s a.toNat = .ok (s1, x) →
    exec (.trap a) s = .next (takeTrap (counted s s1) s.cur 0x1D x ((getSlot s s.cur).pc + 4))) ∧
  (∀ s, Runs s → (getSlot s s.cur).dev = false → chk (envFor 4 .syscall s) [11] [] [] = .ok () →
    exec .syscall s = .next (takeTrap (counted s s) s.cur 0x1C (regGet s s.cur (getSlot s s.cur) 11) ((getSlot s s.cur).pc + 4))) ∧
  (∀ s, Runs s → (getFn s (coreFn s s.cur.core)).debug = false → exec .brk s = .next (takeTrap s s.cur 0x1B 0 (getSlot s s.cur).pc)) ∧
  (∀ s, Runs s → (getFn s (coreFn s s.cur.core)).debug = true →
    exec .brk s = .next (modSlot s s.cur fun sl => { sl with halted := true, stepOne := false }))

/-- R76. That the message stands in the ring after the very step that issues the call is the model's choice (log 56). -/
def Sys2Proof.Claim.DeviceSystemCall : Prop :=
  ∀ s, Runs s → (getSlot s s.cur).dev = true → chk (envFor 4 .syscall s) [11, 4, 5, 6, 7, 8] [] [] = .ok () →
    let sl := getSlot s s.cur
    let g := regGet s s.cur sl
    (storesDone sl = true → (getFn s (coreFn s s.cur.core)).replay = false →
      exec .syscall s = .next (scPost (modSlot s s.cur fun sl => { readied sl with wait := some .sysc, callSeq := sl.callSeq + 1, pc := sl.pc + 4, ord := sl.ord + 1 })
        (coreFn s s.cur.core) s.cur
        [BitVec.ofNat 64 (s.cur.core * 64 + s.cur.slot + sl.ctx % 65536 * 2 ^ 32), sl.callSeq + 1, g 11, g 4, g 5, g 6, g 7, g 8])) ∧
    (storesDone sl = false → exec .syscall s = .next (modSlot s s.cur fun sl => { sl with wait := some .cond }))

/-- R135, R156, R192, R395. -/
def Sys2Proof.Claim.TrapReturns : Prop :=
  ∀ s, Runs s →
    let sl := getSlot s s.cur
    (sl.csr.trapActive = true → exec .eret s = .next (modSlot s s.cur fun sl =>
      { readied sl with csr := { sl.csr with trapActive := false }, pc := sl.csr.tepc, ord := sl.ord + 1 })) ∧
    (sl.csr.trapActive = false → exec .eret s = .next (takeTrap s s.cur 0x01 0x2000007B sl.pc)) ∧
    (sl.csr.upcallActive = true → exec .upret s = .next (modSlot s s.cur fun sl =>
      { readied sl with csr := { sl.csr with upcallActive := false }, pc := sl.csr.upepc, ord := sl.ord + 1 })) ∧
    (sl.csr.upcallActive = false → exec .upret s = .next (takeTrap s s.cur 0x01 0x9000007B sl.pc)) ∧
    (∀ p, sl.handler = some p → exec .qret s = .next (modSlot s s.cur fun sl => { readied sl with handler := none, pc := p, ord := sl.ord + 1 })) ∧
    (sl.handler = none → exec .qret s = .next (takeTrap s s.cur 0x01 0x40000073 sl.pc))

/-- TRAP, SYSCALL, BRK and the returns: the statements TrapInstructions, DeviceSystemCall, TrapReturns. -/
def Obligations.TrapInstructionResults : Prop :=
  Claim.TrapInstructions ∧ Claim.DeviceSystemCall ∧ Claim.TrapReturns

/-- R395 and R396. -/
def Sys2Proof.Claim.HaltAndFeature : Prop :=
  (∀ s, Runs s →
    let fn := coreFn s s.cur.core
    ((getSlot s s.cur).priv = true → (getFn s fn).debug = true →
      exec .halt s = .next (modFn (done (envFor 4 .halt s) s) fn fun f => { f with halted := true })) ∧
    (¬ ((getSlot s s.cur).priv = true ∧ (getFn s fn).debug = true) → exec .halt s = .next (takeTrap s s.cur 0x04 0 (getSlot s s.cur).pc))) ∧
  (∀ (d a : BitVec 7), Writes1S 4 (.feat d a) d.toNat a.toNat (fun s x => featWord s s.cur.core x)) ∧
  (∀ s core, featWord s core 0 = 0x0000010101010101 ∧ featWord s core 1 = 0x3F311FFFFFFFFFFF ∧ featWord s core 2 = 0x1FFE ∧
    featWord s core 8 = 0x1FFE000177073F3F ∧ featWord s core 9 = 0 ∧ featWord s core 10 = 0 ∧ featWord s core 11 = 0 ∧
    (∀ m, 0x80 ≤ m → m < 0x100 → featWord s core (BitVec.ofNat 64 m) = 0) ∧ featWord s core 0x40 = 0xFFFF ∧ featWord s core 0x7D = 0x7FF ∧
    (featWord s core 3).getLsbD 0 = (getFn s (coreFn s core)).recMode ∧ (featWord s core 3).getLsbD 1 = (getFn s (coreFn s core)).replay ∧
    (featWord s core 3).getLsbD 2 = (getFn s (coreFn s core)).debug ∧ (featWord s core 3).getLsbD 3 = (getFn s (coreFn s core)).urgent ∧
    (featWord s core 3).getLsbD 4 = (getFn s (coreFn s core)).hostSh ∧
    ∀ p ∈ [(17, 64), (18, 2048), (19, 16), (20, 128), (21, 1048576), (22, 16), (23, 16), (24, 128)],
      featWord s core (BitVec.ofNat 64 p.1) = BitVec.ofNat 64 p.2)

/-- R272 and R394. -/
def Sys2Proof.Claim.CsrReads : Prop :=
  (∀ (d : BitVec 7) (c : BitVec 11) s s1, Runs s → chk (envFor 4 (.csrrd d c) s) [] [d.toNat] [] = .ok () →
    ∀ p ∈ csrTable s, p.1 = c.toNat →
      (c.toNat = 0x41 → (getSlot s s.cur).defer = [] ∧ ∀ v ∈ (getSlot s s.cur).vops, v.isLd = false) →
      writeR (envFor 4 (.csrrd d c) s) s d.toNat p.2 = .ok s1 →
      exec (.csrrd d c) s = .next (done (envFor 4 (.csrrd d c) s) s1)) ∧
  (∀ (d : BitVec 7) (c : BitVec 11) s, Runs s → c.toNat < 0x400 → c.toNat ∉ (csrTable s).map (·.1) →
    exec (.csrrd d c) s = .next (takeTrap s s.cur 0x01 ((encode (.csrrd d c)).setWidth 64) (getSlot s s.cur).pc)) ∧
  (∀ (d : BitVec 7) (c : BitVec 11) s, Runs s → chk (envFor 4 (.csrrd d c) s) [] [d.toNat] [] = .ok () → 0x400 ≤ c.toNat →
    (getSlot s s.cur).priv = false → exec (.csrrd d c) s = .next (takeTrap s s.cur 0x04 0 (getSlot s s.cur).pc)) ∧
  (∀ (d : BitVec 7) (c : BitVec 11) s, Runs s → 0x405 < c.toNat → (getSlot s s.cur).priv = true →
    exec (.csrrd d c) s = .next (takeTrap s s.cur 0x01 ((encode (.csrrd d c)).setWidth 64) (getSlot s s.cur).pc))

/-- R394: the new value is checked before anything is written. -/
def Sys2Proof.Claim.CsrWrites : Prop :=
  (∀ (d a : BitVec 7) (c : BitVec 11) (i : Instr) (f : Word → Word → Word),
    (i, f) ∈ [(Instr.csrwr d a c, fun _ x => x), (.csrset d a c, fun old x => old ||| x)] →
    ∀ s s1 x, Runs s → chk (envFor 4 i s) [a.toNat] [d.toNat] [] = .ok () → readR (envFor 4 i s) s a.toNat = .ok (s1, x) →
    ∀ p ∈ csrWritable, p.1 = c.toNat →
      (c.toNat = 0x41 → (getSlot s s.cur).defer = [] ∧ ∀ v ∈ (getSlot s s.cur).vops, v.isLd = false) →
      let old := csrGet (envFor 4 i s) s1 c.toNat
      let v := f old x
      (v &&& p.2 = 0 → (c.toNat = 0x40 → v.toNat % 8 ≤ 5) →
        ∀ s2, writeR (envFor 4 i s) (csrPut s1 s.cur c.toNat v) d.toNat old = .ok s2 →
          exec i s = .next (done (envFor 4 i s) s2) ∧
          csrGet (envFor 4 i s) (csrPut s1 s.cur c.toNat v) c.toNat = if c.toNat = 0x42 ∧ v = 0 then 0x9E3779B9 else v) ∧
      (v &&& p.2 ≠ 0 ∨ (c.toNat = 0x40 ∧ 5 < v.toNat % 8) → exec i s = .next (takeTrap s s.cur 0x12 0 (getSlot s s.cur).pc))) ∧
  (∀ (d a : BitVec 7) (c : BitVec 11), ∀ i ∈ [Instr.csrwr d a c, .csrset d a c], ∀ s, Runs s →
    chk (envFor 4 i s) [a.toNat] [d.toNat] [] = .ok () →
    c.toNat ∈ [0, 1, 2, 3, 4, 5, 0x50, 0x51, 0x52, 0x53, 0x54, 0x58, 0x59, 0x5A, 0x5B, 0x5C, 0x80, 0x81] →
    exec i s = .next (takeTrap s s.cur 0x04 0 (getSlot s s.cur).pc))

/-- R198, R199, R394 and R440. That a read of npost gives a free value (log 46), and through which aperture npost names its
record (log 75), are the model's readings. -/
def Obligations.PrivilegedRegisters : Prop :=
  (∀ (d : BitVec 7) (c : BitVec 11) s s1, Runs s → chk (envFor 4 (.csrrd d c) s) [] [d.toNat] [] = .ok () → (getSlot s s.cur).priv = true →
    let k := getCore s s.cur.core
    let cl := getCl s (coreCl s.cur.core)
    (∀ p ∈ [(0x400, k.evict &&& evicting s s.cur.core), (0x401, k.evstat), (0x402, cl.plate), (0x403, cl.sdrop), (0x405, cl.hsk.setWidth 64)],
      p.1 = c.toNat → (c.toNat = 0x405 → coreIdx s.cur.core = 16) → writeR (envFor 4 (.csrrd d c) s) s d.toNat p.2 = .ok s1 →
      exec (.csrrd d c) s = .next (done (envFor 4 (.csrrd d c) s) s1)) ∧
    (c.toNat = 0x404 → coreIdx s.cur.core = 16 →
      writeR (envFor 4 (.csrrd d c) s) { s with freeCnt := s.freeCnt + 1 } d.toNat (Config.freeWord s.freeCnt) = .ok s1 →
      exec (.csrrd d c) s = .next (done (envFor 4 (.csrrd d c) s) s1)) ∧
    ((c.toNat = 0x404 ∨ c.toNat = 0x405) → coreIdx s.cur.core ≠ 16 → exec (.csrrd d c) s = .next (takeTrap s s.cur 0x04 0 (getSlot s s.cur).pc))) ∧
  (∀ (d a : BitVec 7) (c : BitVec 11) (i : Instr) (f : Word → Word → Word),
    (i, f) ∈ [(Instr.csrwr d a c, fun _ x => x), (.csrset d a c, fun old x => old ||| x)] →
    ∀ s s1 x, Runs s → chk (envFor 4 i s) [a.toNat] [d.toNat] [] = .ok () → (getSlot s s.cur).priv = true →
    readR (envFor 4 i s) s a.toNat = .ok (s1, x) →
    let e := envFor 4 i s
    let old := csrGet e s1 c.toNat
    let v := f old x
    let trap := fun (n : BitVec 8) => exec i s = .next (takeTrap s s.cur n 0 (getSlot s s.cur).pc)
    ((c.toNat = 0x402 ∨ ((c.toNat = 0x404 ∨ c.toNat = 0x405) ∧ coreIdx s.cur.core ≠ 16)) → trap 0x04) ∧
    (∀ p ∈ [(0x401, 2 ^ 63), (0x403, 0), (0x405, ~~~0xFFF)], p.1 = c.toNat → (c.toNat = 0x405 → coreIdx s.cur.core = 16) →
      (v &&& p.2 = 0 → ∀ s2, writeR e (csrPut s1 s.cur c.toNat v) d.toNat old = .ok s2 →
        exec i s = .next (done e s2) ∧ csrGet e (csrPut s1 s.cur c.toNat v) c.toNat = v) ∧
      (v &&& p.2 ≠ 0 → trap 0x12)) ∧
    (c.toNat = 0x400 →
      (v.getLsbD 63 = true → trap 0x12) ∧
      (v.getLsbD 63 = false → ∀ s2, writeR e (csrPut s1 s.cur 0x400 v) d.toNat old = .ok s2 → exec i s = .next (done e s2) ∧
        ∀ j, j < 63 →
          let t : Tid := { core := s.cur.core, slot := j }
          let named := v.getLsbD j && (getSlot s1 t).uid.isSome
          let s3 := csrPut s1 s.cur 0x400 v
          (getSlot s3 t).evicting = ((getSlot s1 t).evicting || (named && !(getSlot s1 t).ports)) ∧
          (getCore s3 s.cur.core).evict.getLsbD j = ((getCore s1 s.cur.core).evict.getLsbD j || (named && !(getSlot s1 t).ports)) ∧
          (getCore s3 s.cur.core).evstat.getLsbD j = (named && (getSlot s1 t).ports))) ∧
    (c.toNat = 0x404 → coreIdx s.cur.core = 16 → v.toNat % 64 = 0 → ∀ off : Nat, off % 64 = 0 → off + 64 ≤ 0x100000 →
      (v.toNat = off ∨ v.toNat = scrKey s.cur.core off ∧ coreExists s.cur.core = true ∧ coreFn s s.cur.core = (getCtx s (getSlot s s.cur).ctx).fn) →
      let k := scrKey s.cur.core off
      let w := fun (j : Nat) => memRead s1.mem (k + 8 * j) 8
      eccStatus s1 k 64 = 0 →
      (w 0 % 256 ≠ 1 → trap 0x12) ∧
      (w 0 % 256 = 1 → (getCl s1 (coreCl s.cur.core)).npost = none → ∀ s2,
        writeR e (modCl { s1 with freeCnt := s1.freeCnt + 1 } (coreCl s.cur.core) fun k => { k with
          npost := some { type := 1, status := w 0 / 2 ^ 8 % 2 ^ 8, ctx := w 0 / 2 ^ 16 % 2 ^ 16, subject := BitVec.ofNat 64 (w 2), detail := BitVec.ofNat 64 (w 3) } })
          d.toNat old = .ok s2 → exec i s = .next (done e s2))))

/-- R399, on the ring as it stands. -/
def Sys2Proof.Claim.RingQuery : Prop :=
  ∀ (d a : BitVec 7) s s1 x, Runs s → chk (envFor 4 (.seqq d a) s) [a.toNat] [d.toNat] [] = .ok () →
    readR (envFor 4 (.seqq d a) s) s a.toNat = .ok (s1, x) →
    let ring := (getSlot s s.cur).ring
    let n : BitVec 32 := x.setWidth 32
    (3 * 2 ^ 32 ≤ x.toNat → exec (.seqq d a) s = .next (takeTrap s s.cur 0x12 0 (getSlot s s.cur).pc)) ∧
    (∀ v, (x.toNat / 2 ^ 32 = 0 → v = match ring.find? (fun r => r.seq = n) with
          | none => BitVec.ofNat 64 n.toNat
          | some r => BitVec.ofNat 64 (n.toNat + 2 ^ 32 * (match r.st with | .pending => 256 | .done => 512 | .faulted c => 768 + c.toNat))) →
      (x.toNat / 2 ^ 32 = 1 → v = ((ring.find? fun r => r.seq = n).map (·.pc)).getD 0xFFFFFFFFFFFFFFFF) →
      (x.toNat / 2 ^ 32 = 2 → v = match seqFault (getSlot s s.cur) n with | some r => ringWord r.seq (some r) | none => 0xFFFFFFFFFFFFFFFF) →
      x.toNat / 2 ^ 32 ≤ 2 → ∀ s2, writeR (envFor 4 (.seqq d a) s) s1 d.toNat v = .ok s2 →
      exec (.seqq d a) s = .next (done (envFor 4 (.seqq d a) s) s2))

/-- CSR reads and writes, HALT, FEAT and SEQQ: the statements HaltAndFeature, CsrReads, CsrWrites, RingQuery. -/
def Obligations.SystemRegisterResults : Prop :=
  Claim.HaltAndFeature ∧ Claim.CsrReads ∧ Claim.CsrWrites ∧ Claim.RingQuery

/-- R398. -/
def Obligations.InstructionFlush : Prop :=
  ∀ s, Runs s →
    (storesDone (getSlot s s.cur) = false → exec .flushi s = .next (modSlot s s.cur fun sl => { sl with wait := some .cond })) ∧
    (storesDone (getSlot s s.cur) = true → ∃ t, exec .flushi s = .next t ∧ (getCore t s.cur.core).icache = [] ∧
      (∀ k, codeByte t s.cur.core k = memByte t.mem k) ∧ (∀ c, c ≠ s.cur.core → (getCore t c).icache = (getCore s c).icache) ∧
      t.mem = s.mem ∧ (getSlot t s.cur).pc = (getSlot s s.cur).pc + 4)

/-- R397. A reply to no request that waits is the model's choice (log 44), and so is the
aperture by which a service core may name a TLBW record (log 75). -/
def Sys2Proof.Claim.TranslationMaintenance : Prop :=
  (∀ (d a b : BitVec 7), ∀ p ∈ [(Instr.tlbw a b, []), (.tlbi d a b, [d.toNat])], ∀ s, Runs s →
    chk (envFor 4 p.1 s) [a.toNat, b.toNat] p.2 [] = .ok () → ¬ ((getSlot s s.cur).priv = true ∧ coreIdx s.cur.core = 16) →
    exec p.1 s = .next (takeTrap s s.cur 0x04 0 (getSlot s s.cur).pc)) ∧
  (∀ (a b : BitVec 7) s s1 s2 x y, Runs s → chk (envFor 4 (.tlbw a b) s) [a.toNat, b.toNat] [] [] = .ok () →
    (getSlot s s.cur).priv = true → coreIdx s.cur.core = 16 →
    readR (envFor 4 (.tlbw a b) s) s a.toNat = .ok (s1, x) → readR (envFor 4 (.tlbw a b) s) s1 b.toNat = .ok (s2, y) →
    ∀ off : Nat, off % 32 = 0 → off + 32 ≤ 0x100000 →
    -- through the local aperture, or the global one
    (x.toNat = off ∨ x.toNat = scrKey s.cur.core off ∧ coreExists s.cur.core = true ∧ coreFn s s.cur.core = (getCtx s (getSlot s s.cur).ctx).fn) →
    let k := scrKey s.cur.core off
    let w := fun i => BitVec.ofNat 64 (memRead s2.mem (k + 8 * i) 8)
    let ent : TlbEnt := { w0 := w 0, w1 := w 1, w2 := w 2 }
    let st : BitVec 8 := (w 3).setWidth 8
    let t : Tid := { core := y.toNat / 64 % 2048, slot := y.toNat % 64 }
    eccStatus s2 k 32 = 0 →
    (∀ c, st = 0 → tlbCheck s2 (getCtx s2 (y.toNat / 2 ^ 32 % 65536)).fn ent = some c → exec (.tlbw a b) s = .next (takeTrap s s.cur c 0 (getSlot s s.cur).pc)) ∧
    ((st ≠ 0 ∨ tlbCheck s2 (getCtx s2 (y.toNat / 2 ^ 32 % 65536)).fn ent = none) → outRoom s2 s.cur.core 1 = true →
      let q := qk 4 (coreUnit s.cur.core) 0 0
      let rep := fun (va : Word) => Body.xrep va (y.toNat / 2 ^ 17 % 8) t (y.toNat / 2 ^ 32 % 65536) [w 0, w 1, w 2] st ((w 3).toNat / 2 ^ 32)
      -- a request that this TLBW answers
      let mine := fun (p : Packet) (va : Word) => ∃ t' c, p.body = .xlat va (y.toNat / 2 ^ 17 % 8) t' (y.toNat / 2 ^ 32 % 65536) c ∧ tidWord t' = y.toNat % 2 ^ 17
      (∀ (i : Nat) p va, (getQ s2 q)[i]? = some p → mine p va → (∀ (j : Nat) p' va', j < i → (getQ s2 q)[j]? = some p' → ¬ mine p' va') →
        exec (.tlbw a b) s = .next (done (envFor 4 (.tlbw a b) s) (inject (setQ s2 q (delAt (getQ s2 q) i))
          { cls := 20, slack := slackLeft s2.tick.toNat p, late := lateAge s2.tick.toNat p, src := coreUnit s.cur.core, dst := coreUnit t.core, body := rep va }))) ∧
      ((∀ p ∈ getQ s2 q, ∀ va, ¬ mine p va) →
        exec (.tlbw a b) s = .next (done (envFor 4 (.tlbw a b) s) (send s2 20 (dskOf (getSlot s s.cur)) (coreUnit s.cur.core) (coreUnit t.core)
          (rep (BitVec.ofNat 64 (entBase ent)))))))) ∧
  (∀ (d a b : BitVec 7) s s1 s2 x y, Runs s → chk (envFor 4 (.tlbi d a b) s) [a.toNat, b.toNat] [d.toNat] [] = .ok () →
    (getSlot s s.cur).priv = true → coreIdx s.cur.core = 16 → (getSlot s s.cur).res = none →
    readR (envFor 4 (.tlbi d a b) s) s a.toNat = .ok (s1, x) → readR (envFor 4 (.tlbi d a b) s) s1 b.toNat = .ok (s2, y) →
    (2 ^ 18 ≤ y.toNat → exec (.tlbi d a b) s = .next (takeTrap s s.cur 0x12 0 (getSlot s s.cur).pc)) ∧
    (y.toNat < 2 ^ 18 → ∃ t, exec (.tlbi d a b) s = .next t ∧
      (getCl t (coreCl s.cur.core)).gen = ((getCl s2 (coreCl s.cur.core)).gen + 1) % 2 ^ 32 ∧
      (getSlot t s.cur).wait = some .reply ∧ (getSlot t s.cur).ph = [BitVec.ofNat 64 (((getCl s2 (coreCl s.cur.core)).gen + 1) % 2 ^ 32)] ∧
      (getCl t (coreCl s.cur.core)).shoots.length = (getCl s2 (coreCl s.cur.core)).shoots.length + 1)) ∧
  (∀ (d a b : BitVec 7) s s1 r g rest, Runs s → chk (envFor 4 (.tlbi d a b) s) [a.toNat, b.toNat] [d.toNat] [] = .ok () →
    (getSlot s s.cur).priv = true → coreIdx s.cur.core = 16 → (getSlot s s.cur).res = some r → (getSlot s s.cur).ph = g :: rest →
    writeR (envFor 4 (.tlbi d a b) s) s d.toNat g = .ok s1 → exec (.tlbi d a b) s = .next (done (envFor 4 (.tlbi d a b) s) s1))

/-! ### Memory, synchronisation and messages -/

/-- R127, R305 and R306: n bytes, n = 2^sz. That a load from host memory reads its bytes in the step that issues
it is the model's choice (log 4). -/
def Sys2Proof.Claim.LoadResults : Prop :=
  (∀ (t a : BitVec 7) (z k : BitVec 2) (o : BitVec 7), ∀ p ∈ [(Instr.ld t a z k o, true), (.ldn t a z k o, false)],
    ∀ s, Runs s → chk (envFor 4 p.1 s) [] [t.toNat] [a.toNat] = .ok () →
      let n : Nat := 2 ^ z.toNat
      let ea := issued s 0 (regGet s s.cur (getSlot s s.cur) a.toNat + BitVec.ofInt 64 (o.toInt * n))
      (ea.toNat % n ≠ 0 → exec p.1 s = .next (takeTrap s s.cur 0x03 ea (getSlot s s.cur).pc)) ∧
      (ea.toNat % n = 0 → ∀ s1 s2 v, phaseRead (envFor 4 p.1 s) s [ea] [t.toNat] ea n (skOf (getSlot s s.cur).csr k.toNat) true = .ok (s1, [ea, v]) →
        writeR (envFor 4 p.1 s) s1 t.toNat (if p.2 ∧ n < 8 then signedLow (8 * n) v else v) = .ok s2 →
        exec p.1 s = .next (done (envFor 4 p.1 s) s2))) ∧
  (∀ (t a x : BitVec 7) (r z : BitVec 2), ∀ p ∈ [(Instr.ldx t a x r z, true), (.ldxn t a x r z, false)],
    ∀ s, Runs s → chk (envFor 4 p.1 s) [] [t.toNat] [a.toNat, x.toNat] = .ok () →
      let n : Nat := 2 ^ z.toNat
      let base := issued s 0 (regGet s s.cur (getSlot s s.cur) a.toNat)
      let idx := issued s 1 (regGet s s.cur (getSlot s s.cur) x.toNat)
      ∀ s1 acc i, remapIdx (envFor 4 p.1 s) s [base, idx] [t.toNat] r.toNat idx = .ok (s1, acc, i) →
      let ea := base + i * BitVec.ofNat 64 n
      (ea.toNat % n ≠ 0 → exec p.1 s = .next (takeTrap s s.cur 0x03 ea (getSlot s s.cur).pc)) ∧
      (ea.toNat % n = 0 → ∀ s2 s3 v, phaseRead (envFor 4 p.1 s) s1 acc [t.toNat] ea n (dskOf (getSlot s s.cur)) true = .ok (s2, acc ++ [v]) →
        writeR (envFor 4 p.1 s) s2 t.toNat (if p.2 ∧ n < 8 then signedLow (8 * n) v else v) = .ok s3 →
        exec p.1 s = .next (done (envFor 4 p.1 s) s3)))

/-- R303 and R204, through the place that R151 gives an address. That a read of host memory is made in the step that
issues it is the model's choice (log 4). -/
def Sys2Proof.Claim.MemoryReads : Prop :=
  (∀ (e : Env) s acc dst va n slack ld k x pg, e.sl.ph.length ≤ acc.length → e.sl.res = none → place e va 1 slack = .ok (.mem k x pg) →
    (isScr k = true → keyCore k = e.t.core → traceRoom s (coreFn s e.t.core) = true →
      replayOk s (coreUnit e.t.core) 0 (thrSrc e) k = true → eccStatus s k n = 0 →
      phaseRead e s acc dst va n slack ld = .ok (localNote e s 0 k, acc ++ [BitVec.ofNat 64 (memRead s.mem k n)])) ∧
    (isHost k = true → eccStatus s k n = 0 → phaseRead e s acc dst va n slack ld = .ok (s, acc ++ [BitVec.ofNat 64 (memRead s.mem k n)])) ∧
    (isHost k = false → ¬ (isScr k = true ∧ keyCore k = e.t.core) → ∀ h, homeOf k = some h →
      phaseRead e s acc dst va n slack ld = .error (.keep (modSlot
        (send s 0 slack (coreUnit e.t.core) h (.load k n (.thread e.t (e.sl.uid.getD 0) va)))
        e.t fun sl => { sl with wait := some .reply, ph := acc, res := none, awaits := dst, toUnit := some h }))) ∧
    (isScr k = true → keyCore k = e.t.core → eccStatus s k n = 2 → phaseRead e s acc dst va n slack ld = .error (.trap 0x14 va))) ∧
  (∀ (e : Env) s acc dst va n slack ent off, e.sl.ph.length ≤ acc.length → e.sl.res = none → place e va 1 slack = .ok (.reg ent off) →
    phaseRead e s acc dst va n slack = .error (.trap 0x08 va)) ∧
  (∀ (e : Env) s acc dst va n slack ld v l, acc.length = e.sl.ph.length → e.sl.res = some (.words (v :: l)) →
    phaseRead e s acc dst va n slack ld = .ok (s, acc ++ [v])) ∧
  (∀ (e : Env) s acc dst va n slack ld c w, acc.length = e.sl.ph.length → e.sl.res = some (.fault c w) →
    phaseRead e s acc dst va n slack ld = .error (.trap c w)) ∧
  (∀ m k, memRead m k 0 = 0 ∧ ∀ n, memRead m k (n + 1) = (memByte m k).toNat + 256 * memRead m (k + 1) n)

/-- R305 and R306. A store to host memory is made in the step that issues it, which is the model's choice (log 4). -/
def Sys2Proof.Claim.StoreResults : Prop :=
  (∀ (t a : BitVec 7) (z k : BitVec 2) (o : BitVec 7) s, Runs s → chk (envFor 4 (.st t a z k o) s) [t.toNat] [] [a.toNat] = .ok () →
    let e := envFor 4 (.st t a z k o) s
    let n : Nat := 2 ^ z.toNat
    let ea := regGet s s.cur (getSlot s s.cur) a.toNat + BitVec.ofInt 64 (o.toInt * n)
    (ea.toNat % n ≠ 0 → exec (.st t a z k o) s = .next (takeTrap s s.cur 0x03 ea (getSlot s s.cur).pc)) ∧
    (ea.toNat % n = 0 → ∀ p, place e ea 2 (skOf (getSlot s s.cur).csr k.toNat) = .ok p →
      (∀ c v, storeChk e s p n ea = .error (.trap c v) → exec (.st t a z k o) s = .next (takeTrap s s.cur c v (getSlot s s.cur).pc)) ∧
      (storeChk e s p n ea = .ok () → ∀ s1 s2 v, readR e s t.toNat = .ok (s1, v) →
        storeAt e s1 p n ea v (skOf (getSlot s s.cur).csr k.toNat) = .ok s2 → exec (.st t a z k o) s = .next (done e s2)))) ∧
  (∀ (t a x : BitVec 7) (r z : BitVec 2) s, Runs s → chk (envFor 4 (.stx t a x r z) s) [t.toNat] [] [a.toNat, x.toNat] = .ok () →
    let e := envFor 4 (.stx t a x r z) s
    let n : Nat := 2 ^ z.toNat
    let base := issued s 0 (regGet s s.cur (getSlot s s.cur) a.toNat)
    let idx := issued s 1 (regGet s s.cur (getSlot s s.cur) x.toNat)
    let port := (getSlot s s.cur).ports && t.toNat ≥ 120
    let data := issued s 2 (regGet s s.cur (getSlot s s.cur) t.toNat)
    ∀ s1 acc i, remapIdx e s ([base, idx] ++ if port then [] else [data]) [] r.toNat idx = .ok (s1, acc, i) →
    let ea := base + i * BitVec.ofNat 64 n
    (ea.toNat % n ≠ 0 → exec (.stx t a x r z) s = .next (takeTrap s s.cur 0x03 ea (getSlot s s.cur).pc)) ∧
    (ea.toNat % n = 0 → ∀ p, place e ea 2 (dskOf (getSlot s s.cur)) = .ok p →
      (∀ c v, storeChk e s1 p n ea = .error (.trap c v) → exec (.stx t a x r z) s = .next (takeTrap s s.cur c v (getSlot s s.cur).pc)) ∧
      (storeChk e s1 p n ea = .ok () → ∀ s2 s3 v, (if port then readR e s1 t.toNat else .ok (s1, data)) = .ok (s2, v) →
        storeAt e s2 p n ea v (dskOf (getSlot s s.cur)) = .ok s3 → exec (.stx t a x r z) s = .next (done e s3))))

/-- R303 and R203: where the store goes is `place`'s key k. That a store to host memory is performed in the step
that issues it is the model's choice (log 4). -/
def Sys2Proof.Claim.StorePlaces : Prop :=
  (∀ (e : Env) s k x pg n va v slack s2, isScr k = true → keyCore k = e.t.core → (getFn s (coreFn s e.t.core)).recMode = false →
    (getFn s (coreFn s e.t.core)).replay = false → storeAt e s (.mem k x pg) n va v slack = .ok s2 →
    (∀ a, k ≤ a → a < k + n → memByte s2.mem a = BitVec.ofNat 8 (v.toNat / 2 ^ (8 * (a - k)))) ∧
    (∀ a, (a < k ∨ k + n ≤ a) → memByte s2.mem a = memByte s.mem a) ∧ s2.full = s.full ∧
    (∀ w, k ≤ w * 8 → w * 8 + 8 ≤ k + n → s2.marks.contains w = false) ∧
    (∀ w, s.marks.contains w = true → (k < w * 8 + 8 ∧ w * 8 < k + n → ¬ (k ≤ w * 8 ∧ w * 8 + 8 ≤ k + n)) → s2.marks.contains w = true)) ∧
  (∀ (e : Env) s k x pg n va v slack, isScr k = true → keyCore k = e.t.core → traceRoom s (coreFn s e.t.core) = true →
    replayOk s (coreUnit e.t.core) 1 (thrSrc e) k = true →
    storeAt e s (.mem k x pg) n va v slack = .ok (homeWrite (localNote e s 1 k) k n v.toNat)) ∧
  (∀ (e : Env) s k x pg n va v slack, isHost k = true → ∃ s2, storeAt e s (.mem k x pg) n va v slack = .ok s2 ∧
    (∀ a, k ≤ a → a < k + n → memByte s2.mem a = BitVec.ofNat 8 (v.toNat / 2 ^ (8 * (a - k)))) ∧
    (∀ a, (a < k ∨ k + n ≤ a) → memByte s2.mem a = memByte s.mem a) ∧
    (getSlot s2 e.t).tls.rstore.issued = (getSlot s e.t).tls.rstore.issued + 1) ∧
  (∀ (e : Env) s k x pg n va v slack h, isHost k = false → ¬ (isScr k = true ∧ keyCore k = e.t.core) → homeOf k = some h →
    storesInFlight e.sl < 1023 → outRoom e.s e.t.core 0 = true →
    ∃ s1 id, storeAt e s (.mem k x pg) n va v slack = .ok (send s1 1 slack (coreUnit e.t.core) h
        (.store ((List.range n).map fun i => (k + i, BitVec.ofNat 8 (v.toNat / 2 ^ (8 * i)))) (.access e.t (e.sl.uid.getD 0) id 0 va))) ∧
      s1.mem = s.mem ∧ (getSlot s1 e.t).tls.rstore.issued = (getSlot s e.t).tls.rstore.issued + 1 ∧
      (getSlot s1 e.t).infl = (getSlot s e.t).infl ++ [{ id := id, kind := .store, home := h, tick := some (4, (getSlot s e.t).tls.rstore.issued + 1) }])

/-- R126, R128, R129. -/
def Sys2Proof.Claim.ApertureAccesses : Prop :=
  (∀ (e : Env) va nd slack, va.toNat < 0x1000000 →
    place e va nd slack =
      if va.toNat < scrSize e.t.core then .ok (.mem (0x100000000000000 + e.t.core * 0x100000 + va.toNat) {} false)
      else if 0x100000 ≤ va.toNat ∧ va.toNat < 0x104000 then .ok (.reg ((va.toNat - 0x100000) / 8) (va.toNat % 8))
      else if 0x104000 ≤ va.toNat ∧ va.toNat < 0x104400 then .ok (.qw (va.toNat - 0x104000))
      else if 0x110000 ≤ va.toNat ∧ va.toNat < 0x118000 then .ok (.fe (va.toNat - 0x110000))
      else .error (.trap 0x08 va)) ∧
  (∀ (e : Env) va nd slack, 0x100000000000000 ≤ va.toNat → va.toNat < 2 ^ 57 →
    let c := (va.toNat - 0x100000000000000) / 0x100000
    place e va nd slack = if coreExists c = true ∧ va.toNat % 0x100000 < scrSize c ∧ (getCl e.s (c / 32)).fn = (getCtx e.s e.sl.ctx).fn
      then .ok (.mem va.toNat {} false) else .error (.trap 0x08 va)) ∧
  (∀ (e : Env) s ent off n va sl r, windowOf s e.t.core ent = some (sl, r) →
    (sl.ctx ≠ e.sl.ctx → readNow e s (.reg ent off) n va = .error (.trap 0x08 va)) ∧
    (sl.ctx = e.sl.ctx → r ∉ sl.awaits → outstanding sl r = false →
      readNow e s (.reg ent off) n va = .ok (some (s, if r = 0 then 0 else
        BitVec.ofNat 64 ((smGet 0 (getCore s e.t.core).regs ent).toNat / 2 ^ (8 * off) % 2 ^ (8 * n)))) ∧
      (r = 0 → ∀ v slack, storeAt e s (.reg ent off) n va v slack = .ok s) ∧
      (r ≠ 0 → ∀ v slack, ∃ s2, storeAt e s (.reg ent off) n va v slack = .ok s2 ∧
        (off + n ≤ 8 → ∀ i, i < 64 → (smGet 0 (getCore s2 e.t.core).regs ent).getLsbD i =
          if 8 * off ≤ i ∧ i < 8 * (off + n) then v.getLsbD (i - 8 * off) else (smGet 0 (getCore s e.t.core).regs ent).getLsbD i) ∧
        (∀ j, j ≠ ent → smGet 0 (getCore s2 e.t.core).regs j = smGet 0 (getCore s e.t.core).regs j) ∧ s2.mem = s.mem)))

/-- Stores, what they change, and the apertures: the statements StoreResults, StorePlaces, ApertureAccesses. -/
def Obligations.StoreRules : Prop :=
  Claim.StoreResults ∧ Claim.StorePlaces ∧ Claim.ApertureAccesses

/-- R158 and R283. -/
def Sys2Proof.Claim.RemapResults : Prop :=
  (∀ (e : Env) s acc dst x,
    let c := e.sl.csr
    let h := (x ^^^ c.remap1) * 0x9E3779B97F4A7C15
    let i := h ^^^ BitVec.ofNat 64 (h.toNat / 2 ^ 32)
    let red := fun (w : Word) => if c.remap0 = 0 then w else BitVec.ofNat 64 (w.toNat % c.remap0.toNat)
    remapIdx e s acc dst 0 x = .ok (s, acc, x) ∧ remapIdx e s acc dst 1 x = .ok (s, acc, red x) ∧ remapIdx e s acc dst 2 x = .ok (s, acc, red i) ∧
    (c.remap2.toNat % 4 ≠ 0 → remapIdx e s acc dst 3 x = .error (.trap 0x03 c.remap2)) ∧
    (c.remap2.toNat % 4 = 0 → c.remap2n.toNat ≤ x.toNat → remapIdx e s acc dst 3 x = .error (.trap 0x08 x)) ∧
    (c.remap2.toNat % 4 = 0 → x.toNat < c.remap2n.toNat → ∀ s1 v, phaseRead e s acc dst (c.remap2 + 4 * x) 4 (dskOf e.sl) = .ok (s1, acc ++ [v]) →
      remapIdx e s acc dst 3 x = .ok (s1, acc ++ [v], v))) ∧
  (∀ (d a b : BitVec 7) s s1 s2 x y, Runs s → chk (envFor 4 (.rmap d a b) s) [a.toNat, b.toNat] [d.toNat] [] = .ok () → (getSlot s s.cur).ph = [] →
    readR (envFor 4 (.rmap d a b) s) s a.toNat = .ok (s1, x) → readR (envFor 4 (.rmap d a b) s) s1 b.toNat = .ok (s2, y) →
    ∀ s3 acc i s4, remapIdx (envFor 4 (.rmap d a b) s) s2 [x, y] [d.toNat] (y.toNat % 4) x = .ok (s3, acc, i) →
      writeR (envFor 4 (.rmap d a b) s) s3 d.toNat i = .ok s4 → exec (.rmap d a b) s = .next (done (envFor 4 (.rmap d a b) s) s4))

/-- Loads, reads of memory and the index remap: the statements LoadResults, MemoryReads, RemapResults. -/
def Obligations.LoadRules : Prop :=
  Claim.LoadResults ∧ Claim.MemoryReads ∧ Claim.RemapResults

/-- R307 and R308; the size is 4 or 8 bytes. -/
def Sys2Proof.Claim.SyncResults : Prop :=
  (∀ (t a : BitVec 7) (z : BitVec 1) (k : BitVec 2) (m : BitVec 1) (o : BitVec 6) s, Runs s →
    let i := Instr.lds t a z k m o
    let e := envFor 4 i s
    chk e [] [t.toNat] [a.toNat] = .ok () →
    let n := if z = 0 then 4 else 8
    let ea := regGet s s.cur (getSlot s s.cur) a.toNat + BitVec.ofNat 64 (o.toNat * n)
    let slack := skOf (getSlot s s.cur).csr k.toNat
    (noReply s → ea.toNat % n ≠ 0 → exec i s = .next (takeTrap s s.cur 0x03 ea (getSlot s s.cur).pc)) ∧
    (noReply s → ea.toNat % n = 0 → ∀ key x pg h, place e ea 3 slack = .ok (.mem key x pg) → isScr key = true → homeOf key = some h →
      exec i s = .next (requestSent s s [] [t.toNat] 3 slack h (.sync { kind := m.toNat, key := key, bytes := n, limit := syncTicks s, va := ea, ret := .thread s.cur ((getSlot s s.cur).uid.getD 0) ea }))) ∧
    (∀ v l, (getSlot s s.cur).ph = [] → (getSlot s s.cur).res = some (.words (v :: l)) → ∀ s1, writeR e s t.toNat (signedLow (8 * n % 64) v) = .ok s1 →
      exec i s = .next (done e s1)) ∧
    (∀ c v, (getSlot s s.cur).ph = [] → (getSlot s s.cur).res = some (.fault c v) → exec i s = .next (takeTrap s s.cur c v (getSlot s s.cur).pc))) ∧
  (∀ (t a : BitVec 7) (z : BitVec 1) (k : BitVec 2) (o : BitVec 6), ∀ p ∈ [(Instr.sts t a z k o, 2), (.stsf t a z k o, 3)], ∀ s, Runs s →
    let e := envFor 4 p.1 s
    chk e [t.toNat] [] [a.toNat] = .ok () →
    let n := if z = 0 then 4 else 8
    let ea := regGet s s.cur (getSlot s s.cur) a.toNat + BitVec.ofNat 64 (o.toNat * n)
    let slack := skOf (getSlot s s.cur).csr k.toNat
    (noReply s → ea.toNat % n ≠ 0 → exec p.1 s = .next (takeTrap s s.cur 0x03 ea (getSlot s s.cur).pc)) ∧
    (noReply s → ea.toNat % n = 0 → ∀ key x pg h, place e ea 3 slack = .ok (.mem key x pg) → isScr key = true → homeOf key = some h →
      (storesDone (getSlot s s.cur) = false → exec p.1 s = .next (modSlot s s.cur fun sl => { sl with wait := some .cond })) ∧
      (storesDone (getSlot s s.cur) = true → ∀ s1 v, readR e s t.toNat = .ok (s1, v) →
        let op : SyncOp := { kind := p.2, key := key, bytes := n, data := v, limit := syncTicks s, va := ea }
        (p.2 = 2 ∨ keyCore key = s.cur.core →
          exec p.1 s = .next (requestSent s s1 [] [] 3 slack h (.sync { op with ret := .thread s.cur ((getSlot s s.cur).uid.getD 0) ea }))) ∧
        (p.2 = 3 → keyCore key ≠ s.cur.core → storesInFlight (getSlot s s.cur) < 1023 → outRoom s s.cur.core 0 = true →
          ∃ s2 id, exec p.1 s = .next (done e (send s2 3 slack (coreUnit s.cur.core) h (.sync { op with ret := .access s.cur ((getSlot s s.cur).uid.getD 0) id 0 ea }))) ∧
            s2.mem = s1.mem ∧ (getSlot s2 s.cur).tls.rstore.issued = (getSlot s1 s.cur).tls.rstore.issued + 1))) ∧
    (∀ l, (getSlot s s.cur).ph = [] → (getSlot s s.cur).res = some (.words l) → exec p.1 s = .next (done e s)) ∧
    (∀ c v, (getSlot s s.cur).ph = [] → (getSlot s s.cur).res = some (.fault c v) → exec p.1 s = .next (takeTrap s s.cur c v (getSlot s s.cur).pc)))

/-- R312 and R313: function code, bytes and new value. -/
def Sys2Proof.Claim.AtomicResults : Prop :=
  (∀ (d a b : BitVec 7), ∀ p ∈ amoTable d a b, ∀ s, Runs s →
    let e := envFor 4 p.1 s
    chk e (if p.2.1 = 9 then [b.toNat, d.toNat] else [b.toNat]) [d.toNat] [a.toNat] = .ok () →
    let ea := regGet s s.cur (getSlot s s.cur) a.toNat
    let n := p.2.2.1
    (noReply s → ea.toNat % n ≠ 0 → exec p.1 s = .next (takeTrap s s.cur 0x03 ea (getSlot s s.cur).pc)) ∧
    (noReply s → ea.toNat % n = 0 → ∀ k x pg s1 y s2 old, place e ea 3 (dskOf (getSlot s s.cur)) = .ok (.mem k x pg) → isHost k = false →
      readR e s b.toNat = .ok (s1, y) → (if p.2.1 = 9 then readR e s1 d.toNat = .ok (s2, old) else s2 = s1 ∧ old = 0) →
      (isScr k = true → keyCore k = s.cur.core → traceRoom s2 (coreFn s2 s.cur.core) = true →
        replayOk s2 (coreUnit s.cur.core) 2 (thrSrc e) k = true → eccStatus s2 k n = 0 →
        let m := BitVec.ofNat 64 (memRead s2.mem k n)
        ∀ s3, writeR e (localNote e (homeWrite s2 k n (p.2.2.2 m y old).toNat) 2 k) d.toNat m = .ok s3 → exec p.1 s = .next (done e s3)) ∧
      (¬ (isScr k = true ∧ keyCore k = s.cur.core) → ∀ h, homeOf k = some h →
        exec p.1 s = .next (requestSent s s2 [] [d.toNat] 2 (dskOf (getSlot s s.cur)) h
          (.amo (BitVec.ofNat 4 p.2.1) k y old (.thread s.cur ((getSlot s s.cur).uid.getD 0) ea))))) ∧
    (∀ v l, (getSlot s s.cur).ph = [] → (getSlot s s.cur).res = some (.words (v :: l)) → ∀ s1, writeR e s d.toNat v = .ok s1 → exec p.1 s = .next (done e s1))) ∧
  (∀ (d a : BitVec 7), ∀ p ∈ [(Instr.feqry d a, none, 12), (.feset d a, some true, 13), (.feclr d a, some false, 14)], ∀ s, Runs s →
    let e := envFor 4 p.1 s
    chk e [] [d.toNat] [a.toNat] = .ok () →
    let ea := regGet s s.cur (getSlot s s.cur) a.toNat
    (noReply s → ea.toNat % 4 ≠ 0 → exec p.1 s = .next (takeTrap s s.cur 0x03 ea (getSlot s s.cur).pc)) ∧
    (noReply s → ea.toNat % 4 = 0 → ∀ k x pg, place e ea 3 (dskOf (getSlot s s.cur)) = .ok (.mem k x pg) → isScr k = true →
      (keyCore k = s.cur.core → traceRoom s (coreFn s s.cur.core) = true →
        replayOk s (coreUnit s.cur.core) 2 (thrSrc e) k = true →
        ∀ s3, writeR e (localNote e (match p.2.1 with | none => s | some v => setFullAt s k 4 v) 2 k) d.toNat (BitVec.ofNat 64 (bit (feGet s k))) = .ok s3 →
          exec p.1 s = .next (done e s3)) ∧
      (keyCore k ≠ s.cur.core → ∀ h, homeOf k = some h →
        exec p.1 s = .next (requestSent s s [] [d.toNat] 2 (dskOf (getSlot s s.cur)) h
          (.amo (BitVec.ofNat 4 p.2.2) k 0 0 (.thread s.cur ((getSlot s s.cur).uid.getD 0) ea))))) ∧
    (∀ v l, (getSlot s s.cur).ph = [] → (getSlot s s.cur).res = some (.words (v :: l)) → ∀ s1, writeR e s d.toNat v = .ok s1 → exec p.1 s = .next (done e s1))) ∧
  (∀ s k b, feGet (fePut s k b) k = b ∧ ∀ k', k' / 4 ≠ k / 4 → feGet (fePut s k b) k' = feGet s k')

/-- Synchronising accesses and atomics: the statements SyncResults, AtomicResults. -/
def Obligations.SyncAndAtomicResults : Prop :=
  Claim.SyncResults ∧ Claim.AtomicResults

/-- R314 to R318, with R195's late faults. -/
def Obligations.FencesAndWaits : Prop :=
  let first := fun (s : State) (cover : Nat → TFault → Bool) (src : Nat) (c : BitVec 8) (num : Word) =>
    ∃ o rest, covered (getSlot s s.cur) true cover = (o, src, c, num) :: rest ∧ ∀ x ∈ rest, o ≤ x.1
  let reported := fun (s : State) (src : Nat) (c : BitVec 8) (num : Word) => takeTrap (modSlot s s.cur fun sl => clearFault sl src num) s.cur 0x13
    (BitVec.ofNat 64 (src * 2 ^ 40 + c.toNat * 2 ^ 32 + num.toNat % 2 ^ 32)) (getSlot s s.cur).pc
  (∀ (sv : BitVec 3) (k : BitVec 4) s, Runs s →
    let sl := getSlot s s.cur
    let e := envFor 4 (.fence sv k) s
    let within := fun (u : Nat) => match sv.toNat with | 0 => False | 1 => u = coreUnit s.cur.core | 2 => u / 256 = s.cur.core / 32 | 3 => u / 4096 = s.cur.core / 512 | _ => True
    let ready := (∀ r ∈ sl.ring, r.st ≠ .pending) ∧ (k.getLsbD 0 = true → ∀ i ∈ sl.infl, i.kind = .vload → ¬ within i.home) ∧
      (k.getLsbD 1 = true → ∀ i ∈ sl.infl, i.kind ≠ .vload → ¬ within i.home) ∧
      (k.getLsbD 2 = true → ∀ n, n < 5 → (tlGet sl.tls n).completed = (tlGet sl.tls n).issued)
    (ready → noFault sl (fun _ _ => k.getLsbD 2) → exec (.fence sv k) s = .next (done e s)) ∧
    (∀ src c num, ready → first s (fun _ _ => k.getLsbD 2) src c num → exec (.fence sv k) s = .next (reported s src c num)) ∧
    (¬ ready → exec (.fence sv k) s = .next (modSlot s s.cur fun sl => { sl with wait := some .cond }))) ∧
  (∀ (l sv : BitVec 6) (c : BitVec 7) (t : BitVec 6) s, Runs s →
    let sl := getSlot s s.cur
    let ready := (sl.vops.filter fun v => v.isLd).length ≤ l.toNat ∧
      (sl.infl.filter fun i => i.op = 0 ∧ i.kind ≠ .vload).length + (sl.vops.filter fun v => !v.isLd).length ≤ sv.toNat ∧
      (sl.tls.copy.opn.filter fun k => !k.done).length ≤ c.toNat ∧ (sl.ring.filter fun r => r.tile ∧ r.st = .pending).length ≤ t.toNat
    (ready → noFault sl (fun i _ => i = 0 || i = 4) → exec (.wait l sv c t) s = .next (done (envFor 4 (.wait l sv c t) s) s)) ∧
    (∀ src x num, ready → first s (fun i _ => i == 0 || i == 4) src x num → exec (.wait l sv c t) s = .next (reported s src x num)) ∧
    (¬ ready → exec (.wait l sv c t) s = .next (modSlot s s.cur fun sl => { sl with wait := some .cond }))) ∧
  (∀ (a : BitVec 7) (l : BitVec 4) s, Runs s → chk (envFor 4 (.tlwait a l) s) [] [] [a.toNat] = .ok () →
    let sl := getSlot s s.cur
    let n := regGet s s.cur sl a.toNat
    let tl := tlGet sl.tls l.toNat
    let cover := fun (i : Nat) (f : TFault) => i = l.toNat && f.num.toNat ≤ n.toNat
    (ringPending sl = true → exec (.tlwait a l) s = .next (modSlot s s.cur fun sl => { sl with wait := some .cond })) ∧
    (∀ src c num, ringPending sl = false → tl.issued.toNat < n.toNat ∨ n.toNat ≤ tl.completed.toNat → first s cover src c num →
      exec (.tlwait a l) s = .next (reported s src c num)) ∧
    (ringPending sl = false → noFault sl cover →
      (tl.issued.toNat < n.toNat → exec (.tlwait a l) s = .next (takeTrap s s.cur 0x0E n sl.pc)) ∧
      (n.toNat ≤ tl.issued.toNat → n.toNat ≤ tl.completed.toNat → exec (.tlwait a l) s = .next (done (envFor 4 (.tlwait a l) s) s)) ∧
      (n.toNat ≤ tl.issued.toNat → tl.completed.toNat < n.toNat → exec (.tlwait a l) s = .next (modSlot s s.cur fun sl => { sl with wait := some .cond })))) ∧
  (∀ (a : BitVec 7) (i : BitVec 11) s, Runs s → chk (envFor 4 (.bar a i) s) [] [] [a.toNat] = .ok () →
    let ea := regGet s s.cur (getSlot s s.cur) a.toNat
    (noReply s → ea.toNat % 8 ≠ 0 → exec (.bar a i) s = .next (takeTrap s s.cur 0x03 ea (getSlot s s.cur).pc)) ∧
    (noReply s → ea.toNat % 8 = 0 → ∀ k x pg h, place (envFor 4 (.bar a i) s) ea 3 (dskOf (getSlot s s.cur)) = .ok (.mem k x pg) → isHost k = false →
      homeOf k = some h → storesDone (getSlot s s.cur) = true →
      exec (.bar a i) s = .next (requestSent s s [] [] 3 (dskOf (getSlot s s.cur)) h
        (.bar k i.toNat (getSlot s s.cur).csr.wlimt.toNat (.thread s.cur ((getSlot s s.cur).uid.getD 0) ea)))) ∧
    (∀ l, (getSlot s s.cur).ph = [] → (getSlot s s.cur).res = some (.words l) → exec (.bar a i) s = .next (done (envFor 4 (.bar a i) s) s)) ∧
    (∀ c v, (getSlot s s.cur).ph = [] → (getSlot s s.cur).res = some (.fault c v) → exec (.bar a i) s = .next (takeTrap s s.cur c v (getSlot s s.cur).pc)))

/-- R319 to R323. -/
def Obligations.MessagesAndQueues : Prop :=
  (∀ (d a b : BitVec 7), ∀ p ∈ [(Instr.send d a b, false), (.qctl d a b, true)], ∀ s, Runs s →
    let e := envFor 4 p.1 s
    chk e [b.toNat] [d.toNat] [a.toNat] = .ok () →
    let tw := regGet s s.cur (getSlot s s.cur) a.toNat
    let kind := tw.toNat / 2 ^ 20 % 4
    let fields := tw.toNat < 2 ^ 22 ∧ tw.getLsbD 19 = false ∧ kind ≠ 3 ∧ (kind = 0 ∨ tw.toNat / 2 ^ 17 % 4 = 0) ∧
      (kind = 1 → 2 ≤ tw.toNat % 64) ∧ (kind = 2 → tw.toNat % 2 ^ 17 < 2)
    (¬ fields → exec p.1 s = .next (takeTrap s s.cur 0x12 tw (getSlot s s.cur).pc)) ∧
    (fields → kind = 0 → p.2 = true → exec p.1 s = .next (takeTrap s s.cur 0x12 0 (getSlot s s.cur).pc)) ∧
    (fields → ¬ (kind = 0 ∧ p.2 = true) → kind ≠ 2 →
      let core := tw.toNat / 64 % 2048
      (¬ (coreExists core = true ∧ coreFn s core = coreFn s s.cur.core) → exec p.1 s = .next (takeTrap s s.cur 0x08 tw (getSlot s s.cur).pc)) ∧
      (coreExists core = true → coreFn s core = coreFn s s.cur.core → storesInFlight (getSlot s s.cur) < 1023 →
        outRoom s s.cur.core 0 = true → ∀ s1 v, readR e s b.toNat = .ok (s1, v) →
        ∃ s2 id, s2.mem = s1.mem ∧ (getSlot s2 s.cur).tls.msg.issued = (getSlot s1 s.cur).tls.msg.issued + 1 ∧
          ∀ s3, writeR e (send s2 6 (dskOf (getSlot s s.cur)) (coreUnit s.cur.core) (coreUnit core)
              (if kind = 0 then .msg { core := core, slot := tw.toNat % 64 } (tw.toNat / 2 ^ 17 % 4) v (.access s.cur ((getSlot s s.cur).uid.getD 0) id 0 0)
               else .qelem (tw.toNat % 64) v p.2 (.access s.cur ((getSlot s s.cur).uid.getD 0) id 0 0)))
            d.toNat ((getSlot s1 s.cur).tls.msg.issued + 1) = .ok s3 → exec p.1 s = .next (done e s3))) ∧
    (fields → kind = 2 →
      ((getSlot s s.cur).ports = false → exec p.1 s = .next (takeTrap s s.cur 0x01 ((encode p.1).setWidth 64) (getSlot s s.cur).pc)) ∧
      ((getSlot s s.cur).ports = true → ∀ s1 s2 s3 v, readR e s b.toNat = .ok (s1, v) → pushLink e s1 (tw.toNat % 2) v p.2 = .ok s2 →
        writeR e s2 d.toNat 0 = .ok s3 → exec p.1 s = .next (done e s3)))) ∧
  (∀ (d a b : BitVec 7) s s1 w, Runs s → chk (envFor 4 (.qcfg d a b) s) [b.toNat] [d.toNat] [a.toNat] = .ok () →
    let q := (regGet s s.cur (getSlot s s.cur) a.toNat).toNat
    (63 < q → exec (.qcfg d a b) s = .next (takeTrap s s.cur 0x12 0 (getSlot s s.cur).pc)) ∧
    (q ≤ 63 → readR (envFor 4 (.qcfg d a b) s) s b.toNat = .ok (s1, w) →
      let ok := w.toNat / 2 ^ 39 = 0 ∧ w.toNat / 2 ^ 32 % 64 = 3 ∧ w.toNat / 2 ^ 16 % 2 ^ 16 ≠ 0 ∧
        w.toNat % 2 ^ 16 * 8 + 8 * (w.toNat / 2 ^ 16 % 2 ^ 16) ≤ 0x100000
      (¬ ok → exec (.qcfg d a b) s = .next (takeTrap s s.cur 0x12 0 (getSlot s s.cur).pc)) ∧
      (ok → let s2 := qSet s1 s.cur.core q { w0 := w, w1 := 0 }
        ∀ s3, writeR (envFor 4 (.qcfg d a b) s)
            (if w.getLsbD 38 then setFullAt s2 (scrKey s.cur.core (w.toNat % 2 ^ 16 * 8)) (8 * (w.toNat / 2 ^ 16 % 2 ^ 16)) false else s2) d.toNat (qGet s1 s.cur.core q).w0 = .ok s3 →
          exec (.qcfg d a b) s = .next (done (envFor 4 (.qcfg d a b) s) s3)))) ∧
  (∀ (d a b : BitVec 7) s s1 v, Runs s → chk (envFor 4 (.qhnd d a b) s) [b.toNat] [d.toNat] [a.toNat] = .ok () →
    let q := (regGet s s.cur (getSlot s s.cur) a.toNat).toNat
    (1 < q → exec (.qhnd d a b) s = .next (takeTrap s s.cur 0x12 0 (getSlot s s.cur).pc)) ∧
    (q ≤ 1 → readR (envFor 4 (.qhnd d a b) s) s b.toNat = .ok (s1, v) →
      (v.getLsbD 0 = true → exec (.qhnd d a b) s = .next (takeTrap s s.cur 0x03 0 (getSlot s s.cur).pc)) ∧
      (v.getLsbD 0 = false → ∀ s2, writeR (envFor 4 (.qhnd d a b) s)
          (modCore s1 s.cur.core fun c => if q = 0 then { c with hnd0 := v } else { c with hnd1 := v }) d.toNat
          (if q = 0 then (getCore s1 s.cur.core).hnd0 else (getCore s1 s.cur.core).hnd1) = .ok s2 →
        exec (.qhnd d a b) s = .next (done (envFor 4 (.qhnd d a b) s) s2)))) ∧
  (∀ (d a : BitVec 7) s, Runs s → chk (envFor 4 (.qstat d a) s) [] [d.toNat] [a.toNat] = .ok () →
    let q := (regGet s s.cur (getSlot s s.cur) a.toNat).toNat
    let c := qGet s s.cur.core q
    (63 < q → exec (.qstat d a) s = .next (takeTrap s s.cur 0x12 0 (getSlot s s.cur).pc)) ∧
    (q ≤ 63 → ∀ s1, writeR (envFor 4 (.qstat d a) s) s d.toNat (BitVec.ofNat 64
        (bit (feGet s (qElem s.cur.core c (qHead c)) && feGet s (qElem s.cur.core c (qHead c) + 4)) * 2 ^ 49 + bit (qEn c) * 2 ^ 48 +
          c.w0.toNat / 2 ^ 16 % 2 ^ 16 * 2 ^ 32 + (c.w1.toNat / 2 ^ 32 + 2 ^ 32 - c.w1.toNat % 2 ^ 32) % 2 ^ 32)) = .ok s1 →
      exec (.qstat d a) s = .next (done (envFor 4 (.qstat d a) s) s1)))

/-! ### Vector instructions -/

/-- R325 to R329. -/
def Sys2Proof.Claim.VectorIntegerResults : Prop :=
  (∀ (d a b : BitVec 4) (k : BitVec 3) (z : BitVec 1) (l : BitVec 2), ∀ p ∈ vintTable d a b k z l,
    VecDone 4 p.1 [d.toNat, a.toNat, b.toNat] d.toNat (8 * 2 ^ l.toNat)
      (fun s => clampFlag (fun i => laneOn s k.toNat i && p.2.2 (8 * 2 ^ l.toNat) (laneAt s s (8 * 2 ^ l.toNat) a.toNat i) (laneAt s s (8 * 2 ^ l.toNat) b.toNat i)) (64 / 2 ^ l.toNat))
      (fun s => (getSlot s s.cur).csr.fseed)
      (fun s => guarded s k.toNat z (8 * 2 ^ l.toNat) d.toNat fun i =>
        p.2.1 (8 * 2 ^ l.toNat) (laneAt s s (8 * 2 ^ l.toNat) a.toNat i) (laneAt s s (8 * 2 ^ l.toNat) b.toNat i) (laneAt s s (8 * 2 ^ l.toNat) d.toNat i))) ∧
  (∀ (d a : BitVec 4) (k : BitVec 3) (z : BitVec 1) (l : BitVec 2), ∀ p ∈ [(Instr.vabs d a k z l, fun (w x : Nat) => toLane w (signedLane w x).natAbs),
      (.vneg d a k z l, fun w x => toLane w (-(x : Int))), (.vpopc d a k z l, fun w x => ((List.range w).filter fun i => x.testBit i).length),
      (.vclz d a k z l, fun w x => if x = 0 then w else w - 1 - Nat.log2 x)],
    VecDone 4 p.1 [d.toNat, a.toNat] d.toNat (8 * 2 ^ l.toNat) (fun _ => 0) (fun s => (getSlot s s.cur).csr.fseed)
      (fun s => guarded s k.toNat z (8 * 2 ^ l.toNat) d.toNat fun i => p.2 (8 * 2 ^ l.toNat) (laneAt s s (8 * 2 ^ l.toNat) a.toNat i)))

/-- R266 and R299: lanes of 32 bits, no guard. -/
def Sys2Proof.Claim.VectorShortForms : Prop :=
  (∀ d a : BitVec 5, ∀ p ∈ [(Instr.vaddFh d a, fun (x y : Nat) => toLane 32 (x + y)), (.vsubFh d a, fun x y => toLane 32 (x - y)),
      (.vmulFh d a, fun x y => toLane 32 (x * y)), (.vandFh d a, fun x y => x &&& y), (.vorFh d a, fun x y => x ||| y), (.vxorFh d a, fun x y => x ^^^ y),
      (.vsllFh d a, fun x y => toLane 32 (x * 2 ^ (y % 32))), (.vsrlFh d a, fun x y => x / 2 ^ (y % 32)),
      (.vsraFh d a, fun x y => toLane 32 (signedLane 32 x / 2 ^ (y % 32))),
      (.vminFh d a, fun x y => toLane 32 (min (signedLane 32 x) (signedLane 32 y))), (.vmaxFh d a, fun x y => toLane 32 (max (signedLane 32 x) (signedLane 32 y))),
      (.vmovFh d a, fun _ y => y)],
    VecDone 2 p.1 [d.toNat, a.toNat] d.toNat 32 (fun _ => 0) (fun s => (getSlot s s.cur).csr.fseed)
      (fun s i => p.2 (laneAt s s 32 d.toNat i) (laneAt s s 32 a.toNat i))) ∧
  (∀ d a : BitVec 5, ∀ p ∈ [(Instr.vfaddFh d a, fun (s : State) x y => xAdd (roundsDown s) x y), (.vfmulFh d a, fun _ x y => xMul x y)],
    VecRounds 2 p.1 [d.toNat, a.toNat] d.toNat 0 0 2 fun s i =>
      p.2 s (decodeF fmtFP32 (laneAt s s 32 d.toNat i)) (decodeF fmtFP32 (laneAt s s 32 a.toNat i)))

/-- R330: fm is the lane format of the lt code. -/
def Sys2Proof.Claim.VectorFloatResults : Prop :=
  (∀ (d a b : BitVec 4) (k : BitVec 3) (z : BitVec 1) (l : BitVec 2),
    let fm := laneFormat l.toNat
    let w := 8 * 2 ^ l.toNat
    ∀ p ∈ [(Instr.vfadd d a b k z l, fun (s : State) x y (_ : XV) => xAdd (roundsDown s) x y), (.vfsub d a b k z l, fun s x y _ => xAdd (roundsDown s) x (xNeg y)),
        (.vfmul d a b k z l, fun _ x y _ => xMul x y), (.vfma d a b k z l, fun s x y o => xAdd (roundsDown s) (xMul x y) o)],
      VecRounds 4 p.1 [d.toNat, a.toNat, b.toNat] d.toNat k.toNat z l.toNat fun s i =>
        p.2 s (decodeF fm (laneAt s s w a.toNat i)) (decodeF fm (laneAt s s w b.toNat i)) (decodeF fm (laneAt s s w d.toNat i))) ∧
  (∀ (d a b : BitVec 4) (k : BitVec 3) (z : BitVec 1) (l : BitVec 2),
    let w := 8 * 2 ^ l.toNat
    ∀ p ∈ [(Instr.vfmin d a b k z l, minF), (.vfmax d a b k z l, maxF)],
      VecDone 4 p.1 [d.toNat, a.toNat, b.toNat] d.toNat w (fun _ => 0) (fun s => (getSlot s s.cur).csr.fseed)
        (fun s => guarded s k.toNat z w d.toNat fun i => p.2 (laneFormat l.toNat) (laneAt s s w a.toNat i) (laneAt s s w b.toNat i))) ∧
  (∀ (d a : BitVec 4) (k : BitVec 3) (z : BitVec 1) (l : BitVec 2),
    let w := 8 * 2 ^ l.toNat
    ∀ p ∈ [(Instr.vfabs d a k z l, absF), (.vfneg d a k z l, negF)],
      VecDone 4 p.1 [d.toNat, a.toNat] d.toNat w (fun _ => 0) (fun s => (getSlot s s.cur).csr.fseed)
        (fun s => guarded s k.toNat z w d.toNat fun i => p.2 (laneFormat l.toNat) (laneAt s s w a.toNat i)))

/-- R327, R330, R331. -/
def Sys2Proof.Claim.VectorDeferredResults : Prop :=
  (∀ (d a b : BitVec 4) (k : BitVec 3) (z : BitVec 1) (l : BitVec 2) (i : Instr) (vs : List Nat) (rne : Bool) (f : XV → XV → XV),
    (i, vs, rne, f) ∈ [(Instr.vfdiv d a b k z l, [d.toNat, a.toNat, b.toNat], false, xDiv), (.vfsqrt d a k z l, [d.toNat, a.toNat], false, fun x _ => xSqrt x),
      (.vfrcp d a k z l, [d.toNat, a.toNat], true, fun x _ => xRcp x), (.vfrsq d a k z l, [d.toNat, a.toNat], true, fun x _ => xRsqrt x),
      (.vfexp2 d a k z l, [d.toNat, a.toNat], true, fun x _ => xExp2 x), (.vflog2 d a k z l, [d.toNat, a.toNat], true, fun x _ => xLog2 x)] →
    i.wf = true → ∀ s s1 n, Runs s → chk (envFor 4 i s) [] [] [] vs = .ok () → takeRing (envFor 4 i s) s false false = .ok (s1, n) →
      let fm := laneFormat l.toNat
      let w := 8 * 2 ^ l.toNat
      let c := rcOf (getSlot s s.cur)
      let r := fun j => roundTo fm { c with rm := if rne then 0 else c.rm, seed := if rne then c.seed else seedBefore s k.toNat j }
        (f (decodeF fm (laneAt s s w a.toNat j)) (decodeF fm (laneAt s s w b.toNat j)))
      ∃ t ws, exec i s = .next t ∧
        (getSlot t s.cur).defer = (getSlot s s.cur).defer ++ [{ seq := n, writes := ws, flags := laneFlags s k.toNat (64 / 2 ^ l.toNat) fun j => (r j).flags }] ∧
        ws.length = 8 ∧ (∀ j, j < 8 → ∃ v, ws[j]? = some (8 * d.toNat + j, v) ∧ ∀ x, x < 64 → v.getLsbD x =
          (guarded s k.toNat z w d.toNat (fun q => (r q).bits) ((64 * j + x) / w)).testBit ((64 * j + x) % w)) ∧
        (∀ q, regGet t s.cur (getSlot s s.cur) q = regGet s s.cur (getSlot s s.cur) q) ∧ (getSlot t s.cur).ring = (getSlot s1 s.cur).ring ∧
        (getSlot t s.cur).csr = { (getSlot s s.cur).csr with fseed := if rne then (getSlot s s.cur).csr.fseed else seedBefore s k.toNat (64 / 2 ^ l.toNat) } ∧ (getSlot t s.cur).pc = (getSlot s s.cur).pc + 4 ∧ t.mem = s.mem) ∧
  (∀ core slot s v r, (getSlot s { core := core, slot := slot }).defer = v :: r →
    let t : Tid := { core := core, slot := slot }
    ∃ s', exec (.vectorDeferredResult core slot) s = .next s' ∧ (getSlot s' t).defer = r ∧
      (getSlot s' t).csr.fflags = (getSlot s t).csr.fflags ||| v.flags ∧
      (getSlot s' t).ring = (getSlot s t).ring.map (fun x => if x.seq = v.seq then { x with st := .done } else x) ∧
      (∀ n, (∀ p ∈ v.writes, p.1 ≠ n) → regGet s' t (getSlot s t) n = regGet s t (getSlot s t) n) ∧
      (∀ n x, n ≠ 0 → (v.writes.map (·.1)).Nodup → (n, x) ∈ v.writes → regGet s' t (getSlot s t) n = x) ∧ s'.mem = s.mem) ∧
  (∀ (s : Bool) (m : Nat) (e : Int) (n : Nat), xRcp (.num s 0 e false) = .inf s true ∧ xRsqrt (.num s 0 e false) = .inf s true ∧ xExp2 (.num s 0 e false) = .num false 1 0 false ∧
    xLog2 (.num s 0 e false) = .inf true true ∧ xRcp (.inf s false) = .num s 0 0 false ∧ xRsqrt (.inf false false) = .num false 0 0 false ∧
    xRsqrt (.inf true false) = .nan true ∧ xLog2 (.inf true false) = .nan true ∧ xExp2 (.inf true false) = .num false 0 0 false ∧
    xExp2 (.inf false false) = .inf false false ∧ xLog2 (.inf false false) = .inf false false ∧
    (m ≠ 0 → xRsqrt (.num true m e false) = .nan true ∧ xLog2 (.num true m e false) = .nan true) ∧
    exactValue (xLog2 (.num false (2 ^ n) e false)) = some (n + e : ℚ) ∧
    exactValue (xRcp (.num s (2 ^ n) e false)) = some ((if s then -1 else 1) * (2 : ℚ) ^ (-(n + e)))) ∧
  (∀ n : Int, -1000 ≤ n → n ≤ 1000 → exactValue (xExp2 (xvInt n)) = some ((2 : ℚ) ^ n))

/-- Vector float instructions, at once and deferred: the statements VectorFloatResults, VectorDeferredResults. -/
def Obligations.VectorFloatRules : Prop :=
  Claim.VectorFloatResults ∧ Claim.VectorDeferredResults

/-- R332. -/
def Sys2Proof.Claim.VectorCompareResults : Prop :=
  ∀ (p : BitVec 3) (a b : BitVec 4) (k : BitVec 3) (z : BitVec 1) (l : BitVec 2),
    let w := 8 * 2 ^ l.toNat
    let fm := laneFormat l.toNat
    ∀ q ∈ [(Instr.vcmpeq p a b k z l, fun (x y : Nat) => decide (x = y)), (.vcmpne p a b k z l, fun x y => decide (x ≠ y)),
        (.vcmplt p a b k z l, fun x y => decide (signedLane w x < signedLane w y)), (.vcmpge p a b k z l, fun x y => decide (signedLane w y ≤ signedLane w x)),
        (.vcmpltn p a b k z l, fun x y => decide (x < y)), (.vcmpgen p a b k z l, fun x y => decide (y ≤ x)),
        (.vfcmpeq p a b k z l, floatRel fm (fun u v => u = v) false), (.vfcmplt p a b k z l, floatRel fm (fun u v => decide (u < v)) false),
        (.vfcmple p a b k z l, floatRel fm (fun u v => decide (u ≤ v)) false), (.vfcmpun p a b k z l, floatRel fm (fun _ _ => false) true)],
      q.1.wf = true → ∀ s s1 n, Runs s → chk (envFor 4 q.1 s) [] [] [] [a.toNat, b.toNat] = .ok () → takeRing (envFor 4 q.1 s) s false false = .ok (s1, n) →
      ∃ t, exec q.1 s = .next t ∧ (∀ i, i < 64 → (predGet (getSlot t s.cur) p.toNat).getLsbD i =
          if 64 / 2 ^ l.toNat ≤ i then false else if laneOn s k.toNat i then q.2 (laneAt s s w a.toNat i) (laneAt s s w b.toNat i)
          else z = 0 && laneOn s p.toNat i) ∧
        (∀ m, m ≠ p.toNat → predGet (getSlot t s.cur) m = predGet (getSlot s s.cur) m) ∧
        (∀ r, regGet t s.cur (getSlot s s.cur) r = regGet s s.cur (getSlot s s.cur) r) ∧ (getSlot t s.cur).csr = (getSlot s s.cur).csr ∧
        (getSlot t s.cur).ring = doneRing (getSlot s1 s.cur).ring n ∧ (getSlot t s.cur).pc = (getSlot s s.cur).pc + 4 ∧ t.mem = s.mem

/-- R333. -/
def Sys2Proof.Claim.VectorMoveResults : Prop :=
  ∀ (d a b : BitVec 4) (k : BitVec 3) (z : BitVec 1) (l : BitVec 2),
    let w := 8 * 2 ^ l.toNat
    let n := 64 / 2 ^ l.toNat
    let same := fun (s : State) => (getSlot s s.cur).csr.fseed
    VecDone 4 (.vsel d a b k l) [d.toNat, a.toNat, b.toNat] d.toNat w (fun _ => 0) same
      (fun s i => if laneOn s k.toNat i then laneAt s s w a.toNat i else laneAt s s w b.toNat i) ∧
    VecDone 4 (.vperm d a b k z l) [d.toNat, a.toNat, b.toNat] d.toNat w (fun _ => 0) same
      (fun s => guarded s k.toNat z w d.toNat fun i => laneAt s s w a.toNat (laneAt s s w b.toNat i % n)) ∧
    VecDone 4 (.vslideup d a b k z l) [d.toNat, a.toNat, b.toNat] d.toNat w (fun _ => 0) same
      (fun s => guarded s k.toNat z w d.toNat fun i =>
        if laneAt s s w b.toNat 0 ≤ i then laneAt s s w a.toNat (i - laneAt s s w b.toNat 0) else laneAt s s w d.toNat i) ∧
    VecDone 4 (.vslidedn d a b k z l) [d.toNat, a.toNat, b.toNat] d.toNat w (fun _ => 0) same
      (fun s => guarded s k.toNat z w d.toNat fun i =>
        if i + laneAt s s w b.toNat 0 < n then laneAt s s w a.toNat (i + laneAt s s w b.toNat 0) else 0) ∧
    VecDone 4 (.vmov d a k z l) [d.toNat, a.toNat] d.toNat w (fun _ => 0) same
      (fun s => guarded s k.toNat z w d.toNat fun i => laneAt s s w a.toNat i) ∧
    VecDone 4 (.vexpand d a k z l) [d.toNat, a.toNat] d.toNat w (fun _ => 0) same
      (fun s => guarded s k.toNat z w d.toNat fun i => laneAt s s w a.toNat ((List.range i).filter (laneOn s k.toNat)).length) ∧
    VecDone 4 (.vcompress d a k l) [d.toNat, a.toNat] d.toNat w (fun _ => 0) same
      (fun s i => (((List.range n).filter (laneOn s k.toNat)).map (laneAt s s w a.toNat)).getD i 0)

/-- R334 to R336. -/
def Sys2Proof.Claim.VectorReduceResults : Prop :=
  (∀ (d a : BitVec 4) (k : BitVec 3) (z : BitVec 1) (l : BitVec 2),
    let w := 8 * 2 ^ l.toNat
    let fm := laneFormat l.toNat
    ∀ p ∈ [(Instr.vredadd d a k z l, 0, fun (x y : Nat) => toLane w (x + y)),
        (.vredmin d a k z l, 2 ^ (w - 1) - 1, fun x y => toLane w (min (signedLane w x) (signedLane w y))),
        (.vredmax d a k z l, 2 ^ (w - 1), fun x y => toLane w (max (signedLane w x) (signedLane w y))),
        (.vredminn d a k z l, 2 ^ w - 1, fun x y => min x y), (.vredmaxn d a k z l, 0, fun x y => max x y),
        (.vredfmin d a k z l, (2 ^ fm.eb - 1) * 2 ^ fm.fb, minF fm), (.vredfmax d a k z l, (2 ^ fm.eb - 1) * 2 ^ fm.fb + 2 ^ (w - 1), maxF fm)],
      VecDone 4 p.1 [d.toNat, a.toNat] d.toNat w (fun _ => 0) (fun s => (getSlot s s.cur).csr.fseed)
        (fun s i => if i = 0 then (takenLanes s k.toNat z w a.toNat (64 / 2 ^ l.toNat)).foldl p.2.2 p.2.1 else 0)) ∧
  (∀ (d a : BitVec 4) (k : BitVec 3) (z : BitVec 1) (l : BitVec 2),
    let w := 8 * 2 ^ l.toNat
    VecDone 4 (.vscan d a k z l) [d.toNat, a.toNat] d.toNat w (fun _ => 0) (fun s => (getSlot s s.cur).csr.fseed)
      (fun s => guarded s k.toNat z w d.toNat fun i => (((List.range (i + 1)).filter (laneOn s k.toNat)).map (laneAt s s w a.toNat)).sum % 2 ^ w)) ∧
  (∀ (d a b : BitVec 4) (k : BitVec 3) (z l : BitVec 1),
    let w := 8 * 2 ^ l.toNat
    VecDone 4 (.vdot d a b k z l) [d.toNat, a.toNat, b.toNat] d.toNat 32 (fun _ => 0) (fun s => (getSlot s s.cur).csr.fseed)
      (fun s => guarded s k.toNat z 32 d.toNat fun i => toLane 32 (laneAt s s 32 d.toNat i +
        ((List.range (32 / w)).map fun j => signedLane w (laneAt s s w a.toNat (32 / w * i + j)) * signedLane w (laneAt s s w b.toNat (32 / w * i + j))).sum))) ∧
  (∀ (d a : BitVec 4) (k : BitVec 3) (z : BitVec 1) (l : BitVec 2),
    let w := 8 * 2 ^ l.toNat
    let fm := laneFormat l.toNat
    let tree := fun (s : State) => sumTree fm (rcOf (getSlot s s.cur)) 6
      ((List.range (64 / 2 ^ l.toNat)).map fun i => if laneOn s k.toNat i then laneAt s s w a.toNat i else if z = 1 then 0 else 2 ^ (w - 1)) (getSlot s s.cur).csr.fseed
    VecDone 4 (.vredfadd d a k z l) [d.toNat, a.toNat] d.toNat w (fun s => (tree s).2.1) (fun s => (tree s).2.2)
      (fun s i => if i = 0 then (tree s).1 else 0)) ∧
  (∀ (d a : BitVec 4) (k : BitVec 3) (z : BitVec 1) (l : BitVec 2),
    let w := 8 * 2 ^ l.toNat
    let fm := laneFormat l.toNat
    let run := fun (s : State) (i : Nat) => runningSum s fm (((List.range i).filter (laneOn s k.toNat)).map (laneAt s s w a.toNat))
    VecDone 4 (.vfscan d a k z l) [d.toNat, a.toNat] d.toNat w (fun s => (run s (64 / 2 ^ l.toNat)).2.1) (fun s => (run s (64 / 2 ^ l.toNat)).2.2)
      (fun s => guarded s k.toNat z w d.toNat fun i => (run s (i + 1)).1))

/-- Vector compares, moves and reductions: the statements VectorCompareResults, VectorMoveResults, VectorReduceResults. -/
def Obligations.VectorLaneRules : Prop :=
  Claim.VectorCompareResults ∧ Claim.VectorMoveResults ∧ Claim.VectorReduceResults

/-- R337 and R338: n elements of sw bits to dw bits. -/
def Sys2Proof.Claim.VectorConvertResults : Prop :=
  ∀ (d a sv : BitVec 4) (k : BitVec 3) (z : BitVec 1), ∀ p ∈ cvtTable d a sv k z,
    let n := p.2.1
    let sw := p.2.2.1
    let dw := p.2.2.2.1
    let f := p.2.2.2.2.2
    let seg := sv.toNat
    let src := fun (s : State) (i : Nat) => bitsAt s s a.toNat ((if sw < dw then seg * n * sw else 0) + i * sw) sw
    let base := if dw < sw then seg * n * dw else 0
    let r := fun (s : State) (i : Nat) => f { rcOf (getSlot s s.cur) with seed := if p.2.2.2.2.1 then seedBefore s k.toNat i else (getSlot s s.cur).csr.fseed } (src s i)
    p.1.wf = true → ∀ s s1 m, Runs s → chk (envFor 4 p.1 s) [] [] [] [d.toNat, a.toNat] = .ok () → takeRing (envFor 4 p.1 s) s false false = .ok (s1, m) →
      ∃ t, exec p.1 s = .next t ∧
        (∀ i, i < n → bitsAt t s d.toNat (base + i * dw) dw = if laneOn s k.toNat i then (r s i).bits else if z = 1 then 0 else bitsAt s s d.toNat (base + i * dw) dw) ∧
        (∀ x, x < 512 → (x < base ∨ base + n * dw ≤ x) → bitsAt t s d.toNat x 1 = bitsAt s s d.toNat x 1) ∧
        Settled 4 s s1 m d.toNat t (laneFlags s k.toNat n fun i => (r s i).flags)
          (if p.2.2.2.2.1 then seedBefore s k.toNat n else (getSlot s s.cur).csr.fseed)

/-- R339 to R343. -/
def Sys2Proof.Claim.VectorBlockResults : Prop :=
  (∀ (d a q : BitVec 4) (k : BitVec 3) (l : BitVec 2),
    let w := 8 * 2 ^ l.toNat
    let n := 64 / 2 ^ l.toNat
    let g := fun (s : State) => quantise (2 ^ q.toNat - 1) ((List.range n).map fun i => (laneOn s k.toNat i, decodeF (laneFormat l.toNat) (laneAt s s w a.toNat i)))
    (.vqnt d a q k l : Instr).wf = true → ∀ s s1 m, Runs s → chk (envFor 4 (.vqnt d a q k l) s) [] [] [] [d.toNat, a.toNat] = .ok () →
      takeRing (envFor 4 (.vqnt d a q k l) s) s false false = .ok (s1, m) →
      ∃ t, exec (.vqnt d a q k l) s = .next t ∧ (∀ i, i < n → bitsAt t s d.toNat (i * q.toNat) q.toNat = (g s).2.1.getD i 0) ∧
        bitsAt t s d.toNat 480 32 = (g s).1 ∧ (∀ x, n * q.toNat ≤ x → x < 480 → bitsAt t s d.toNat x 1 = 0) ∧
        Settled 4 s s1 m d.toNat t (g s).2.2 (getSlot s s.cur).csr.fseed) ∧
  (∀ (d a q : BitVec 4) (k : BitVec 3) (z : BitVec 1) (l : BitVec 2),
    let w := 8 * 2 ^ l.toNat
    let n := 64 / 2 ^ l.toNat
    let entry := fun (s : State) => bitsAt s s a.toNat 480 32
    let good := fun (s : State) => entry s / 2 ^ 24 = 0 ∧ formatFinite fmtFP16 (entry s % 65536) = true ∧ (q.toNat = 4 → entry s / 65536 % 256 ≤ 15)
    let r := fun (s : State) (i : Nat) => roundTo (laneFormat l.toNat) { rcOf (getSlot s s.cur) with seed := seedBefore s k.toNat i }
      (plusZero (xMul (xvInt ((bitsAt s s a.toNat (i * q.toNat) q.toNat : Int) - (entry s / 65536 % 256 : Nat))) (decodeF fmtFP16 (entry s % 65536))))
    (.vdqnt d a q k z l : Instr).wf = true → ∀ s s1 m, Runs s → chk (envFor 4 (.vdqnt d a q k z l) s) [] [] [] [d.toNat, a.toNat] = .ok () →
      takeRing (envFor 4 (.vdqnt d a q k z l) s) s false false = .ok (s1, m) →
      (good s → ∃ t, exec (.vdqnt d a q k z l) s = .next t ∧ (∀ i, i < n → laneAt t s w d.toNat i = guarded s k.toNat z w d.toNat (fun i => (r s i).bits) i) ∧
        Settled 4 s s1 m d.toNat t (laneFlags s k.toNat n fun i => (r s i).flags) (seedBefore s k.toNat n)) ∧
      (¬ good s → exec (.vdqnt d a q k z l) s = .next (done (envFor 4 (.vdqnt d a q k z l) s) (setRing s1 s.cur m (.faulted 0x15))))) ∧
  (∀ (d a b : BitVec 4) (l : BitVec 1),
    let w := if l = 0 then 8 else 4
    let g := fun (s : State) => baddq w (rcOf (getSlot s s.cur)) (wholeVec s a.toNat) (wholeVec s b.toNat)
    (.baddq d a b l : Instr).wf = true → ∀ s s1 m, Runs s → chk (envFor 4 (.baddq d a b l) s) [] [] [] [d.toNat, a.toNat, b.toNat] = .ok () →
      takeRing (envFor 4 (.baddq d a b l) s) s false false = .ok (s1, m) →
      ∃ t, exec (.baddq d a b l) s = .next t ∧ (∀ i, i < 32 → bitsAt t s d.toNat (i * w) w = (g s).1 / 2 ^ (i * w) % 2 ^ w) ∧
        bitsAt t s d.toNat 256 8 = (g s).1 / 2 ^ 256 ∧ Settled 4 s s1 m d.toNat t (g s).2.1 (g s).2.2) ∧
  (∀ (d a b : BitVec 4) (k : BitVec 3) (l : BitVec 2),
    let fm := laneFormat l.toNat
    let elem := fun (s : State) (i : Nat) => if l = 1 then laneAt s s 16 a.toNat i else if i < 16 then laneAt s s 32 a.toNat i else laneAt s s 32 b.toNat (i - 16)
    let on := fun (s : State) => (List.range 32).filter (laneOn s k.toNat)
    let vs := [d.toNat, a.toNat] ++ if l = 1 then [] else [b.toNat]
    VecDone 4 (.vbexp d a b k l) vs d.toNat 32 (fun _ => 0) (fun s => (getSlot s s.cur).csr.fseed)
      (fun s i => if i ≠ 0 then 0 else if (on s).any (fun j => !formatFinite fm (elem s j)) then 0xFF
        else (((on s).filter fun j => elem s j % 2 ^ (fm.w - 1) ≠ 0).map fun j => if exponentOf fm (elem s j) = 0 then 1 else exponentOf fm (elem s j)).foldl max 0)) ∧
  (∀ (d a b : BitVec 4) (k : BitVec 3) (z : BitVec 1) (l : BitVec 2),
    let fm := laneFormat l.toNat
    VecRounds 4 (.vbsc d a b k z l) [d.toNat, a.toNat, b.toNat] d.toNat k.toNat z l.toNat fun s i =>
      if bitsAt s s b.toNat 0 8 = 0xFF then .nan true
      else plusZero (xScale ((bitsAt s s b.toNat 0 8 : Int) - 127) (decodeF fm (laneAt s s (8 * 2 ^ l.toNat) a.toNat i))))

/-- Vector conversions and block formats: the statements VectorConvertResults, VectorBlockResults. -/
def Obligations.VectorFormatRules : Prop :=
  Claim.VectorConvertResults ∧ Claim.VectorBlockResults

/-- R349. -/
def Sys2Proof.Claim.VectorScalarMoves : Prop :=
  (∀ (v : BitVec 4) (a b : BitVec 7), v ≠ 0 → ∀ p ∈ [(Instr.vbcast v a b, fun (x : Word) (_ _ _ : Nat) => x.toNat),
      (.vins v a b, fun x j i old => if i = j then x.toNat else old), (.viota v a b, fun x _ i _ => x.toNat + i)],
    ∀ s s1 n s2 s3 x c, Runs s → chk (envFor 4 p.1 s) [a.toNat, b.toNat] [] [] [v.toNat] = .ok () → takeRing (envFor 4 p.1 s) s false false = .ok (s1, n) →
      readR (envFor 4 p.1 s) s1 a.toNat = .ok (s2, x) → readR (envFor 4 p.1 s) s2 b.toNat = .ok (s3, c) →
      let w := 8 * 2 ^ (c.toNat / 256 % 4)
      ∃ t, exec p.1 s = .next t ∧ (∀ i, i < 512 / w → laneAt t s w v.toNat i = p.2 x (c.toNat % 64 % (512 / w)) i (laneAt s3 s w v.toNat i) % 2 ^ w) ∧
        (∀ r, ¬ (8 * v.toNat ≤ r ∧ r < 8 * v.toNat + 8) → regGet t s.cur (getSlot s s.cur) r = regGet s3 s.cur (getSlot s s.cur) r) ∧
        (getSlot t s.cur).pc = (getSlot s s.cur).pc + 4 ∧ t.mem = s3.mem) ∧
  (∀ (d : BitVec 7) (v : BitVec 4) (b : BitVec 7) s s1 n s2 c, v ≠ 0 → Runs s → chk (envFor 4 (.vextr d v b) s) [b.toNat] [d.toNat] [] [v.toNat] = .ok () →
    takeRing (envFor 4 (.vextr d v b) s) s false false = .ok (s1, n) → readR (envFor 4 (.vextr d v b) s) s1 b.toNat = .ok (s2, c) →
    let w := 8 * 2 ^ (c.toNat / 256 % 4)
    ∀ s3, writeR (envFor 4 (.vextr d v b) s) (setRing s2 s.cur n .done) d.toNat (BitVec.ofNat 64 (laneAt s2 s w v.toNat (c.toNat % 64 % (512 / w)))) = .ok s3 →
      exec (.vextr d v b) s = .next (done (envFor 4 (.vextr d v b) s) s3))

/-- Vector integer, 16-bit and scalar-move instructions: the statements VectorIntegerResults, VectorShortForms, VectorScalarMoves. -/
def Obligations.VectorIntegerRules : Prop :=
  Claim.VectorIntegerResults ∧ Claim.VectorShortForms ∧ Claim.VectorScalarMoves

/-! ### Tasks -/

/-- R352 and R353. -/
def Sys2Proof.Claim.ForkResults : Prop :=
  ∀ (a b : BitVec 7) s, Runs s →
    let e := envFor 4 (.spawn a b) s
    let sl := getSlot s s.cur
    let target := regGet s s.cur sl a.toNat
    let burst := burstOf sl
    let h := fun k : Nat => (homeOf k).getD 0
    (NoLate s → (sl.ports = true ∨ sl.handler ≠ none) → exec (.spawn a b) s = .next (takeTrap s s.cur 0x01 ((encode (.spawn a b)).setWidth 64) sl.pc)) ∧
    (sl.ports = false → sl.handler = none → chk e [a.toNat, b.toNat] [] [] = .ok () →
      (NoLate s → target.getLsbD 0 = true → exec (.spawn a b) s = .next (takeTrap s s.cur 0x03 target sl.pc)) ∧
      (NoLate s → target.getLsbD 0 = false → sl.spb.toNat + burst ≤ sl.spl.toNat → freeSeg s s.cur.core sl.ctx = none →
        exec (.spawn a b) s = .next (takeTrap s s.cur 0x0D 65536 sl.pc)) ∧
      (target.getLsbD 0 = false → MaySuspend s → ∀ i, freeSeg s s.cur.core sl.ctx = some i → urgentSlot s s.cur sl = false →
        (getCore s s.cur.core).deque.length < 32 → dequeGate s s.cur.core (thrSrc e) = true →
        ∀ k s1 s2, homeKey e (framePtr s) 3 = .ok k →
        let seg := segAddr s sl.ctx s.cur.core i
        let s0 := modSlot s s.cur fun sl => { sl with csr := { sl.csr with spawned := true } }
        let parent := { sl with csr := { sl.csr with spawned := true } }
        storeX e s0 sl.spb (burstWords s s.cur parent) = .ok s1 → storeX e s1 seg [0, 0] = .ok s2 →
        ∃ s3 id, exec (.spawn a b) s = .next (jumpTo e (send s3 11 (dskOf sl) (coreUnit s.cur.core) (h k)
            (.joinInc k (.access s.cur s2.nextUid id 0 (framePtr s)))) target) ∧
          (getCore s3 s.cur.core).deque = (getCore s s.cur.core).deque ++
            [{ uid := uidOf s, ws := recordOf s s.cur { sl with spb := sl.spb + BitVec.ofNat 64 burst } (sl.pc + 4) }] ∧
          (getSlot s3 s.cur).uid = some s2.nextUid ∧ (getSlot s3 s.cur).join = framePtr s ∧ (getSlot s3 s.cur).spb = seg + 128 ∧
          (getSlot s3 s.cur).spl = seg + 65536 ∧ (getSlot s3 s.cur).csr = { sl.csr with spawned := false } ∧ (getSlot s3 s.cur).ks = sl.ks ∧
          regGet s3 s.cur sl 2 = seg ∧ regGet s3 s.cur sl 4 = regGet s s.cur sl b.toNat ∧
          (∀ r, r ≠ 2 → r ≠ 4 → regGet s3 s.cur sl r = regGet s s.cur sl r) ∧ (getCore s3 s.cur.core).segs = (getCore s s.cur.core).segs ++ [(sl.ctx, i)]))

/-- R352, R354 and R358. -/
def Sys2Proof.Claim.JoinResults : Prop :=
  (∀ s, Runs s →
    let sl := getSlot s s.cur
    let e := fun i : Instr => envFor 4 i s
    let asks := fun (i : Instr) (pc0 : Word) => sl.res = none → MaySuspend s → ∀ k h s1, homeKey (e i) (framePtr s) 3 = .ok k →
      homeOf k = some h → writeOut (e i) (modSlot s s.cur fun sl => { sl with csr := { sl.csr with spawned := false } }) pc0 = .ok s1 →
      exec i s = .next (requestSent s (noted s s1) [BitVec.ofNat 64 (bit sl.csr.spawned)] [] 11 (dskOf sl) h
        (.joinSync k (framePtr s + 64) (uidOf s) (.thread s.cur (uidOf s) (framePtr s))))
    let waits := fun i : Instr => sl.res = some .waits → exec i s = .next (leave (e i) s)
    let fails := fun i : Instr => ∀ c v, sl.res = some (.fault c v) → exec i s = .next (takeTrap
      (modSlot s s.cur fun sl => { sl with csr := { sl.csr with spawned := decide (sl.ph.getD 0 0 ≠ 0) } }) s.cur c v sl.pc)
    let ready := (sl.res = some .ok ∨ (sl.res = none ∧ sl.csr.spawned = false)) ∧ MayEnd s
    asks .sync (sl.pc + 4) ∧ waits .sync ∧ fails .sync ∧ (sl.res = some .ok → exec .sync s = .next (done (e .sync) s)) ∧
    (sl.csr.spawned = true → asks .retc sl.pc) ∧ waits .retc ∧ fails .retc ∧
    (ready → sl.join = 0 → exec .retc s = .next (endSlot s s.cur)) ∧
    (ready → sl.join ≠ 0 → ∀ k h, homeKey (e .retc) sl.join 3 = .ok k → homeOf k = some h →
      exec .retc s = .next (endSlot (send s 11 (dskOf sl) (coreUnit s.cur.core) h (.joinRet k sl.ctx)) s.cur)) ∧
    (NoLate s → sl.csr.spawned = true → sl.res = none → sl.deliv = none → sl.ph = [] → sl.handler ≠ none →
      exec .texit s = .next (takeTrap s s.cur 0x01 ((encode .texit).setWidth 64) sl.pc)) ∧
    (NoLate s → sl.join ≠ 0 → sl.handler = none → exec .texit s = .next (takeTrap s s.cur 0x08 sl.join sl.pc)) ∧
    (sl.join = 0 → (sl.csr.spawned = true → asks .texit sl.pc) ∧ waits .texit ∧ fails .texit ∧ (ready → exec .texit s = .next (endSlot s s.cur)))) ∧
  (∀ s t, (getSlot s t).uid.isSome = true → getSlot (endSlot s t) t = emptied (getSlot s t)) ∧
  (∀ e : Env, e.sl = getSlot e.s e.t → e.sl.uid.isSome = true → e.sl.ports = false → getSlot (leave e e.s) e.t = emptied e.sl) ∧
  (∀ e : Env, e.sl = getSlot e.s e.t → ∀ u, e.sl.uid = some u → e.sl.ports = true → (getSlot (leave e e.s) e.t).uid = none ∧
    (getSlot (leave e e.s) e.t).resv = some u)

/-- R355 to R357. The tval of a misaligned SUSP or RESUME is the model's choice (log 74). -/
def Sys2Proof.Claim.SuspensionResults : Prop :=
  (∀ s, Runs s → MaySuspend s → ∀ s1, writeOut (envFor 4 .yield s) s ((getSlot s s.cur).pc + 4) = .ok s1 →
    ((getSlot s s.cur).ports = true → exec .yield s = .next (done (envFor 4 .yield s) s1)) ∧
    ((getSlot s s.cur).ports = false → exec .yield s = .next (sendEnqueue (freeSlot (noted s s1) s.cur) (coreUnit s.cur.core) (uidOf s) (.mem (framePtr s + 64))))) ∧
  (∀ (a b : BitVec 7) s, Runs s →
    let i := Instr.park a b
    let e := envFor 4 i s
    let sl := getSlot s s.cur
    chk e [a.toNat, b.toNat] [] [] = .ok () →
    (sl.res = none → sl.handler = none → ∀ s1 ea, readR e s a.toNat = .ok (s1, ea) →
      (NoLate s → ea.toNat % 8 ≠ 0 → exec i s = .next (takeTrap s s.cur 0x03 ea sl.pc)) ∧
      (ea.toNat % 8 = 0 → MaySuspend s → ∀ k x pg h s2 v s3, place e ea 1 (dskOf sl) = .ok (.mem k x pg) → isHost k = false → homeOf k = some h →
        readR e s1 b.toNat = .ok (s2, v) → writeOut e s2 (sl.pc + 4) = .ok s3 →
        exec i s = .next (requestSent s (noted s s3) [] [] 11 (dskOf sl) h
          (.park k v sl.csr.wlimt.toNat (uidOf s) sl.ctx (framePtr s + 64) sl.pc (.thread s.cur (uidOf s) ea))))) ∧
    (sl.res = some .ok → exec i s = .next (done e s)) ∧ (sl.res = some .waits → exec i s = .next (leave e s)) ∧
    (∀ c v, sl.res = some (.fault c v) → exec i s = .next (takeTrap s s.cur c v sl.pc))) ∧
  (∀ (a : BitVec 7) s, Runs s →
    let i := Instr.susp a
    let e := envFor 4 i s
    let sl := getSlot s s.cur
    chk e [a.toNat] [] [] = .ok () →
    (sl.res = none → sl.handler = none → ∀ s1 ea, readR e s a.toNat = .ok (s1, ea) →
      (NoLate s → ea.toNat % 64 ≠ 0 → exec i s = .next (takeTrap s s.cur 0x03 ea sl.pc)) ∧
      (ea.toNat % 64 = 0 → MaySuspend s → ∀ k kr x pg h s2, place e ea 3 (dskOf sl) = .ok (.mem k x pg) → isHost k = false → homeKey e (ea + 64) 3 = .ok kr → homeOf k = some h →
        writeOut e s1 (sl.pc + 4) = .ok s2 →
        let w := getSlot s2 s.cur
        exec i s = .next (requestSent s (noted s s2) [] [4] 11 (dskOf sl) h
          (.susp (k, kr) (recordOf (noted s s2) s.cur { w with spb := w.spb + BitVec.ofNat 64 (burstOf w) } (sl.pc + 4)) (uidOf s) sl.ctx (.thread s.cur (uidOf s) ea))))) ∧
    (∀ v l, sl.res = some (.words (v :: l)) → exec i s = .next (done e (regSet s s.cur sl 4 v))) ∧
    (sl.res = some .waits → exec i s = .next (leave e s)) ∧ (∀ c v, sl.res = some (.fault c v) → exec i s = .next (takeTrap s s.cur c v sl.pc))) ∧
  (∀ (d a b : BitVec 7) s, Runs s →
    let i := Instr.resume d a b
    let e := envFor 4 i s
    let sl := getSlot s s.cur
    chk e [a.toNat, b.toNat] [d.toNat] [] = .ok () →
    (sl.res = none → ∀ s1 ea, readR e s a.toNat = .ok (s1, ea) →
      (ea.toNat % 64 ≠ 0 → exec i s = .next (takeTrap s s.cur 0x03 ea sl.pc)) ∧
      (ea.toNat % 64 = 0 → storesDone sl = true → ∀ k kr x pg h s2 v, place e ea 3 (dskOf sl) = .ok (.mem k x pg) → isHost k = false → homeKey e (ea + 64) 3 = .ok kr → homeOf k = some h →
        readR e s1 b.toNat = .ok (s2, v) →
        exec i s = .next (requestSent s s2 [] [d.toNat] 11 (dskOf sl) h (.resume (k, kr) v sl.ctx (.thread s.cur (uidOf s) ea))))) ∧
    (∀ v l s1, sl.res = some (.words (v :: l)) → writeR e s d.toNat v = .ok s1 → exec i s = .next (done e s1)) ∧
    (∀ c v, sl.res = some (.fault c v) → exec i s = .next (takeTrap s s.cur c v sl.pc)))

/-- R84, R86 and R87; R122 and R123 of a ports thread. -/
def Sys2Proof.Claim.RecordRestores : Prop :=
  (∀ (s : State) (t : Tid) (pc : Word), let sl := getSlot s t
    (recordOf s t sl pc).length = 8 ∧ (burstWords s t sl).length * 8 ≤ burstOf sl ∧ burstOf sl % 64 = 0) ∧
  (∀ (s s' : State) (t t' : Tid) (uid base : Nat) (pc spb : Word),
    let sl := getSlot s t
    let k := getCont s' uid
    k.deliv = none → k.lateN = 0 → k.ctx = sl.ctx → sl.wsize = portSize sl.ports sl.wsize → sl.steal = portSteal sl.ports sl.steal →
    let r := intoSlot s' t' uid base (recordOf s t sl pc) (some (burstWords s t sl)) spb sl.spl
    let x := getSlot r t'
    x.uid = some uid ∧ x.pc = pc ∧ x.ctx = sl.ctx ∧ x.wbase = base ∧ x.wsize = sl.wsize ∧ x.ports = sl.ports ∧ x.restart = sl.restart ∧
    x.prio = sl.prio ∧ x.steal = sl.steal ∧ x.join = sl.join ∧ x.spb = spb ∧ x.spl = sl.spl ∧
    x.csr = { sl.csr with lateTval := k.lateT, lateDue := k.lateDue } ∧
    (∀ i, i < 5 → (tlGet x.tls i).completed = (tlGet sl.tls i).completed) ∧ (∀ n, 1 ≤ n → n ≤ 7 → predGet x n = predGet sl n) ∧
    (∀ n, 1 ≤ n → n < winW sl → n ≠ 4 → regGet r t' x n = regGet s t sl n) ∧ regGet r t' x 4 = k.a0.getD (regGet s t sl 4))

/-- Suspension and restoring a record: the statements SuspensionResults, RecordRestores. -/
def Obligations.SuspensionRules : Prop :=
  Claim.SuspensionResults ∧ Claim.RecordRestores

/-- R92, R93, R358 and R359. -/
def Sys2Proof.Claim.NewContinuationResults : Prop :=
  (∀ (a b : BitVec 7) s, Runs s →
    let e := envFor 4 (.tnew a b) s
    let sl := getSlot s s.cur
    let c := sl.csr
    chk e [a.toNat, b.toNat] [] [] = .ok () → ∀ s1 target s2 v, readR e s a.toNat = .ok (s1, target) → readR e s1 b.toNat = .ok (s2, v) →
    (target.getLsbD 0 = true → exec (.tnew a b) s = .next (takeTrap s s.cur 0x03 0 sl.pc)) ∧
    (target.getLsbD 0 = false → freeSeg s s.cur.core sl.ctx = none → exec (.tnew a b) s = .next (takeTrap s s.cur 0x0D 65536 sl.pc)) ∧
    (target.getLsbD 0 = false → ∀ n s3, freeSeg s s.cur.core sl.ctx = some n →
      let seg := segAddr s sl.ctx s.cur.core n
      storeX e s2 seg (List.replicate 16 0) = .ok s3 →
      exec (.tnew a b) s = .next (done e (sendEnqueue (newCont s3 s.cur sl n).1 (coreUnit s.cur.core) s3.nextUid
        (.held [target, BitVec.ofNat 64 (sl.ctx * 2 ^ 16 + sl.steal.toNat * 2 ^ 8 + sl.prio.toNat * 2 ^ 6 + sl.wsize.toNat), seg, 0, seg + 128, seg + 65536,
          BitVec.ofNat 64 (c.sk3.toNat * 2 ^ 44 + c.sk2.toNat * 2 ^ 32 + c.sk1.toNat * 2 ^ 20 + c.sk0.toNat * 2 ^ 8), v]))))) ∧
  (∀ (a : BitVec 7) s, Runs s →
    let e := envFor 4 (.lsetup a) s
    let sl := getSlot s s.cur
    chk e [a.toNat] [] [] = .ok () → ∀ s0 addr, opnd e s 0 a.toNat = .ok (s0, addr) →
    (addr.toNat % 8 ≠ 0 → exec (.lsetup a) s = .next (takeTrap s s.cur 0x03 addr sl.pc)) ∧
    (addr.toNat % 8 = 0 → ∀ s1 s2 s3 s4 w0 w1 w2 w3, phaseRead e s0 [addr] [] addr 8 (dskOf sl) = .ok (s1, [addr, w0]) →
      phaseRead e s1 [addr, w0] [] (addr + 8) 8 (dskOf sl) = .ok (s2, [addr, w0, w1]) →
      phaseRead e s2 [addr, w0, w1] [] (addr + 16) 8 (dskOf sl) = .ok (s3, [addr, w0, w1, w2]) →
      phaseRead e s3 [addr, w0, w1, w2] [] (addr + 24) 8 (dskOf sl) = .ok (s4, [addr, w0, w1, w2, w3]) →
      let n : Nest :=
        { addr := addr, counter := w0, ext0 := w1.toNat % 2 ^ 32, ext1 := w1.toNat / 2 ^ 32, ext2 := w2.toNat % 2 ^ 32
          rank := w2.toNat / 2 ^ 56, minchunk := w2.toNat / 2 ^ 48 % 256, parts := w2.toNat / 2 ^ 32 % 2 ^ 16
          reg0 := w3.toNat % 128, reg1 := w3.toNat / 2 ^ 8 % 128, reg2 := w3.toNat / 2 ^ 16 % 128 }
      let good := 1 ≤ n.rank ∧ n.rank ≤ 3 ∧ n.parts ≠ 0 ∧ (∀ x ∈ extents n, x ≠ 0) ∧ w0.toNat % 8 = 0 ∧ w3.toNat < 2 ^ 24 ∧
        w3.getLsbD 7 = false ∧ w3.getLsbD 15 = false ∧ w3.getLsbD 23 = false ∧ (∀ r ∈ indexRegs n, r ≠ 0 ∧ r < winW sl)
      (good → exec (.lsetup a) s = .next (done e (modSlot s4 s.cur fun sl => { sl with nest := some n }))) ∧
      (¬ good → exec (.lsetup a) s = .next (takeTrap s s.cur 0x12 addr sl.pc)))) ∧
  (∀ (d a : BitVec 7) s, Runs s →
    let e := envFor 4 (.lnext d a) s
    let sl := getSlot s s.cur
    chk e [a.toNat] [d.toNat] [] = .ok () → ∀ s0 addr n, opnd e s 0 a.toNat = .ok (s0, addr) → sl.nest = some n → n.addr = addr →
      (getSlot s0 s.cur).nest = some n → chk e [] (indexRegs n) [] = .ok () →
    let total := (extents n).prod
    total < 2 ^ 64 →
    (sl.res = none → ∀ k x pg, place { e with s := s0 } n.counter 3 (dskOf sl) = .ok (.mem k x pg) →
      (isScr k = true → keyCore k = s.cur.core → traceRoom s0 (coreFn s0 s.cur.core) = true →
        replayOk s0 (coreUnit s.cur.core) 2 (thrSrc e) k = true → eccStatus s0 k 8 = 0 →
        let c := memRead s0.mem k 8
        let chunk := min (total - c) (max (max n.minchunk 1) ((total - c + n.parts - 1) / n.parts))
        (sl.ports = false → ∃ t, exec (.lnext d a) s = .next t ∧ NestClaimed e n d.toNat c chunk (localNote e (homeWrite s0 k 8 (c + chunk)) 2 k) t)) ∧
      (isHost k = false → ¬ (isScr k = true ∧ keyCore k = s.cur.core) → ∀ h, homeOf k = some h →
        exec (.lnext d a) s = .next (requestSent s s0 [addr] (d.toNat :: indexRegs n) 2 (dskOf sl) h
          (.lnext k total n.minchunk n.parts (.thread s.cur (uidOf s) n.counter))))) ∧
    (sl.ports = false → ∀ c chunk l, sl.ph = [addr] → sl.res = some (.words (c :: chunk :: l)) →
      ∃ t, exec (.lnext d a) s = .next t ∧ NestClaimed e n d.toNat c.toNat chunk.toNat s0 t))

/-- Forks, joins, new continuations and nests: the statements ForkResults, JoinResults, NewContinuationResults. -/
def Obligations.ThreadLifeResults : Prop :=
  Claim.ForkResults ∧ Claim.JoinResults ∧ Claim.NewContinuationResults

/-- R344 to R347, for storage bytes: lanes of 2^l bytes. -/
def Sys2Proof.Claim.VectorMemoryResults : Prop :=
  ∀ (v b : BitVec 4) (a : BitVec 7) (k : BitVec 3) (l sv : BitVec 2),
    let w := 8 * 2 ^ l.toNat
    (∀ p ∈ [(Instr.vld v a k l sv, 0), (.vlds v a b k l sv, 1), (.vgath v a b k l sv, 2)], p.1.wf = true → ∀ s s1 n, Runs s →
      let ea := fun i => laneEA s p.2 a.toNat b.toNat l.toNat i
      chk (envFor 4 p.1 s) [] [] (vmFields p.2 v.toNat a.toNat b.toNat).1 (vmFields p.2 v.toNat a.toNat b.toNat).2 = .ok () →
      takeRing (envFor 4 p.1 s) s false false = .ok (s1, n) → OwnLanes s p.2 a.toNat b.toNat k.toNat l.toNat n →
      (∀ i, i < 512 / w → laneOn s k.toNat i = true → eccStatus s (ownKey s (ea i)) (2 ^ l.toNat) = 0) →
      ∃ t, exec p.1 s = .next t ∧ (∀ i, i < 512 / w → laneAt t s w v.toNat i =
          if laneOn s k.toNat i then memRead s.mem (ownKey s (ea i)) (2 ^ l.toNat) else laneAt s s w v.toNat i) ∧
        Settled 4 s s1 n v.toNat t 0 (getSlot s s.cur).csr.fseed) ∧
    (∀ p ∈ [(Instr.vst v a k l sv, 0), (.vsts v a b k l sv, 1), (.vscat v a b k l sv, 2)], p.1.wf = true → ∀ s s1 n, Runs s →
      let ea := fun i => laneEA s p.2 a.toNat b.toNat l.toNat i
      let covers := fun i x => laneOn s k.toNat i = true ∧ ownKey s (ea i) ≤ x ∧ x < ownKey s (ea i) + 2 ^ l.toNat
      chk (envFor 4 p.1 s) [] [] (vmFields p.2 v.toNat a.toNat b.toNat).1 (vmFields p.2 v.toNat a.toNat b.toNat).2 = .ok () →
      takeRing (envFor 4 p.1 s) s false false = .ok (s1, n) → OwnLanes s p.2 a.toNat b.toNat k.toNat l.toNat n → storesInFlight (getSlot s s.cur) < 1023 → (getSlot s s.cur).ph = [] →
      ∃ t, exec p.1 s = .next t ∧
        (∀ i x, i < 512 / w → covers i x → (∀ j, i < j → j < 512 / w → ¬ covers j x) →
          memByte t.mem x = BitVec.ofNat 8 (laneAt s s w v.toNat i / 2 ^ (8 * (x - ownKey s (ea i))))) ∧
        (∀ x, (∀ i, i < 512 / w → ¬ covers i x) → memByte t.mem x = memByte s.mem x) ∧ t.full = s.full ∧
        (∀ r, regGet t s.cur (getSlot s s.cur) r = regGet s s.cur (getSlot s s.cur) r) ∧ (getSlot t s.cur).csr = (getSlot s s.cur).csr ∧
        (getSlot t s.cur).ks = (getSlot s s.cur).ks ∧ (getSlot t s.cur).tls = (getSlot s s.cur).tls ∧
        (getSlot t s.cur).ring = doneRing (getSlot s1 s.cur).ring n ∧ (getSlot t s.cur).pc = (getSlot s s.cur).pc + 4) ∧
    (∀ p ∈ [(Instr.vld v a k l sv, 0), (.vlds v a b k l sv, 1), (.vgath v a b k l sv, 2), (.vst v a k l sv, 0), (.vsts v a b k l sv, 1), (.vscat v a b k l sv, 2)],
      p.1.wf = true → ∀ s i, Runs s → (getSlot s s.cur).ph = [] → ringGate (envFor 4 p.1 s) = .ok () →
      let ea := fun i => laneEA s p.2 a.toNat b.toNat l.toNat i
      chk (envFor 4 p.1 s) [] [] (vmFields p.2 v.toNat a.toNat b.toNat).1 (vmFields p.2 v.toNat a.toNat b.toNat).2 = .ok () →
      (p.2 ≠ 1 → (regGet s s.cur (getSlot s s.cur) a.toNat).toNat < 0x1000000) → i < 512 / w → laneOn s k.toNat i = true →
      (∀ j, j ≤ i → laneOn s k.toNat j = true → (ea j).toNat < 0x1000000) → (∀ j, j < i → laneOn s k.toNat j = true → (ea j).toNat % 2 ^ l.toNat = 0) →
      (ea i).toNat % 2 ^ l.toNat ≠ 0 → exec p.1 s = .next (takeTrap s s.cur 0x03 (ea i) (getSlot s s.cur).pc))

/-- R348: lanes of w bits, one reply of eight words and a failure word. -/
def Sys2Proof.Claim.VectorLoadFullResults : Prop :=
  ∀ (v : BitVec 4) (a : BitVec 7) (k : BitVec 3) (l sv : BitVec 2) s, Runs s →
    let i := Instr.vldf v a k l sv
    let e := envFor 4 i s
    let sl := getSlot s s.cur
    let w := 8 * 2 ^ l.toNat
    let ea := regGet s s.cur sl a.toNat
    let slack := skOf sl.csr sv.toNat
    i.wf = true → chk e [] [] [a.toNat] [v.toNat] = .ok () →
    (sl.ph = [] → ringGate e = .ok () → ea.toNat % 4 ≠ 0 → exec i s = .next (takeTrap s s.cur 0x03 ea sl.pc)) ∧
    (sl.ph = [] → ea.toNat % 4 = 0 → ∀ q x pg s1 n, place e ea 1 slack = .ok (.mem q x pg) → isScr q = true →
      q % 0x100000 + 64 ≤ scrSize (keyCore q) → takeRing e s false false = .ok (s1, n) →
      exec i s = .next (requestSent s s1 [n.setWidth 64] ((List.range 8).map fun j => 8 * v.toNat + j) 3 slack (coreUnit (keyCore q))
        (.sync { kind := 4, key := q, bytes := 64, need := vldfNeed e k.toNat l.toNat q, limit := syncTicks s, va := ea, ret := .thread s.cur (uidOf s) ea }))) ∧
    (∀ q x, x ∈ vldfNeed e k.toNat l.toNat q ↔ ∃ j, j < 16 ∧ x = q / 4 + j ∧
      ∃ i, i < 512 / w ∧ laneOn s k.toNat i = true ∧ i * 2 ^ l.toNat < 4 * j + 4 ∧ 4 * j < (i + 1) * 2 ^ l.toNat) ∧
    (∀ (n : Word) (ws : List Word) (f : Word), sl.ph = [n] → ws.length = 8 → sl.res = some (.words (ws ++ [f])) →
      let good := fun i => laneOn s k.toNat i = true ∧ (f = 0 ∨ ∀ j, j ≤ i → laneOn s k.toNat j = true → (j + 1) * 2 ^ l.toNat ≤ f.toNat % 65536)
      ∃ t, exec i s = .next t ∧
        (∀ i, i < 512 / w → (good i → laneAt t s w v.toNat i = (ws.getD (w * i / 64) 0).toNat / 2 ^ (w * i % 64) % 2 ^ w) ∧
          (¬ good i → laneAt t s w v.toNat i = laneAt s s w v.toNat i)) ∧
        (∀ r, ¬ (8 * v.toNat ≤ r ∧ r < 8 * v.toNat + 8) → regGet t s.cur sl r = regGet s s.cur sl r) ∧
        (getSlot t s.cur).ring = sl.ring.map (fun r => if r.seq.toNat = n.toNat % 2 ^ 32 then
          { r with st := if f = 0 then .done else .faulted (BitVec.ofNat 8 (f.toNat / 65536 % 256)) } else r) ∧
        (getSlot t s.cur).pc = sl.pc + 4 ∧ t.mem = s.mem) ∧
    (∀ (n : Word) va, sl.ph = [n] → sl.res = some (.fault 0x18 va) →
      exec i s = .next (done e (setRing s s.cur (n.setWidth 32) (.faulted 0x18)))) ∧
    (∀ (n : Word) c va, sl.ph = [n] → c ≠ 0x18 → sl.res = some (.fault c va) →
      exec i s = .next (takeTrap (modSlot s s.cur fun x => { x with ring := x.ring.filter fun r => r.seq.toNat != n.toNat % 2 ^ 32 }) s.cur c va sl.pc))

/-- Vector loads and stores: the statements VectorMemoryResults, VectorLoadFullResults. -/
def Obligations.VectorMemoryRules : Prop :=
  Claim.VectorMemoryResults ∧ Claim.VectorLoadFullResults

/-! ### Thunks -/

/-- R361 and R363. The tval of a misaligned handle is the model's choice (log 74). -/
def Sys2Proof.Claim.DemandResults : Prop :=
  ∀ (d a : BitVec 7), ∀ p ∈ [(Instr.force d a, false), (.hwait d a, true)], ∀ s, Runs s →
    let e := envFor 4 p.1 s
    let sl := getSlot s s.cur
    chk e [a.toNat] [d.toNat] [] = .ok () →
    (sl.deliv = none → sl.res = none → sl.handler = none → sl.spb.toNat + burstOf sl ≤ sl.spl.toNat → (p.2 = false → Drained sl) →
      ∀ s1 h k u, opnd e s 0 a.toNat = .ok (s1, h) → NamesBead s e h k u →
      exec p.1 s = .next (requestSent s (modSlot (if p.2 then s1 else advanced s s1) s.cur fun x => { x with demand := some h }) [h] [d.toNat] 4 (dskOf sl) u
        (beadBody s k h (if p.2 then .hwait (chainOf s sl.chainSeq) else .force (chainOf s ((getSlot s1 s.cur).chainSeq + 1)))))) ∧
    (∀ v f, (sl.deliv = some (.value v false f) ∨ (sl.deliv = none ∧ sl.res = some (.value v false f))) → ∀ s1,
      writeR e (orFlags s s.cur f) d.toNat v = .ok s1 → exec p.1 s = .next (done e s1)) ∧
    (∀ v f, (sl.deliv = some (.value v true f) ∨ (sl.deliv = none ∧ sl.res = some (.value v true f))) → ∀ s1,
      writeR e (orFlags s s.cur f) d.toNat v = .ok s1 → exec p.1 s = .next (takeTrap s1 s.cur 0x14 0 (sl.pc + 4))) ∧
    (∀ c v, (sl.deliv = some (.fail c v) ∨ (sl.deliv = none ∧ sl.res = some (.fault c v))) → exec p.1 s = .next (takeTrap s s.cur c v sl.pc)) ∧
    (sl.deliv = none → sl.res = some .waits → (p.2 = true → Drained sl) → ∀ s1, writeOut e s sl.pc = .ok s1 → exec p.1 s = .next (leave e s1))

/-- R118, R362 and R378: r is the record, foot its footprint. That d is written when the instruction completes, and the tval of a
misaligned record, are the model's choice (logs 86 and 74). -/
def Sys2Proof.Claim.SubmitResults : Prop :=
  ∀ (d a : BitVec 7), ∀ p ∈ [(Instr.suspend d a, false), (.tenq d a, true)], ∀ s, Runs s →
    let e := envFor 4 p.1 s
    let sl := getSlot s s.cur
    chk e [a.toNat] [d.toNat] [] = .ok () →
    (∀ s1 recA, opnd e s 0 a.toNat = .ok (s1, recA) → sl.ph.length < 12 →
      (ringGate e = .ok () → recA.toNat % 64 ≠ 0 → exec p.1 s = .next (takeTrap s s.cur 0x03 recA sl.pc)) ∧
      (recA.toNat % 64 = 0 → ∀ s2 r k u dk dx pg, phaseRead64 e s1 [recA] recA (dskOf sl) = .ok (s2, recA :: r) → r.length = 8 →
        NamesBead s e (r.getD 7 0) k u → 0x1000000 ≤ (r.getD 5 0).toNat → place e (r.getD 5 0) 2 (dskOf sl) = .ok (.mem dk dx pg) →
        let f := outFormat ((r.getD 0 0).toNat % 256) ((r.getD 0 0).toNat / 2 ^ 16 % 256) (if pg then entFmt dx else 0) (if pg then entGeom dx else 0)
        let m := (r.getD 0 0).toNat / 2 ^ 32 % 2 ^ 16
        let n := (r.getD 0 0).toNat / 2 ^ 48
        let foot := footprint m n f
        let ovr := p.2 = false ∧ ((sl.csr.sbound ≠ 0 ∧ sl.csr.sbound.toNat < sl.csr.scount.toNat + 1) ∨ (sl.csr.fbound ≠ 0 ∧ sl.csr.fbound.toNat < sl.csr.fcount.toNat + foot))
        (ringGate e = .ok () → ovr → sl.csr.spolicy = true → exec p.1 s = .next (takeTrap s s.cur 0x0C (r.getD 7 0) sl.pc)) ∧
        (¬ (ovr ∧ sl.csr.spolicy = true) → storesDone sl = true → ∀ s3 q, takeRing e s2 true false = .ok (s3, q) →
          ∃ s5 o, exec p.1 s = .next (requestSent s s5 (recA :: r ++ [q.setWidth 64, BitVec.ofNat 64 foot, o]) [d.toNat] 4 (dskOf sl) u
            (let ws := [BitVec.ofNat 64 ((r.getD 0 0).toNat / 512 % 2 * 2 ^ 48 + n * 2 ^ 32 + m * 2 ^ 16 + f.getD 0 * 2 ^ 8 + 1), recA, 0, 0, BitVec.ofNat 64 foot, r.getD 2 0, r.getD 3 0, r.getD 4 0]
             let sub : Sub := { rm := sl.csr.fmode.setWidth 3, sat := sl.csr.fmode.getLsbD 3, seed := stepsOf 1 sl.csr.fseed, seq := q, tenq := if p.2 then some (.thread s.cur (uidOf s) (r.getD 7 0)) else none }
             beadBody s k (r.getD 7 0) (if p.2 then .tenq ws sub (chainOf s (sl.chainSeq + 1)) else .suspend ws sub))) ∧
          (o ≠ 0 ↔ ovr) ∧ (getSlot s5 s.cur).csr.fseed = stepsOf 1 sl.csr.fseed))) ∧
    (∀ recA r q foot o, r.length = 8 → sl.ph = recA :: r ++ [q, foot, o] →
      let fin := fun s : State => setRing s s.cur (q.setWidth 32) .done
      (∀ s1, sl.res = some .ok → p.2 = true → writeR e s d.toNat q = .ok s1 → exec p.1 s = .next (done e s1)) ∧
      (∀ s1, sl.res = some .ok → p.2 = false → o = 0 → writeR e (fin s) d.toNat q = .ok s1 → exec p.1 s = .next (done e
        (modSlot s1 s.cur fun x => { x with csr := { x.csr with scount := x.csr.scount + 1, fcount := x.csr.fcount + foot } }))) ∧
      (sl.res = some .ok → p.2 = false → o ≠ 0 →
        (∀ s1, (∀ j, j < 3 → r.getD (2 + j) 0 = 0) → writeR { e with s := fin s } (fin s) d.toNat q = .ok s1 → exec p.1 s = .next (done e (modSlot s1 s.cur fun x => { x with csr := { x.csr with scount := 1, fcount := foot } }))) ∧
        (∀ j k u, j < 3 → (∀ i, i < j → r.getD (2 + i) 0 = 0) → r.getD (2 + j) 0 ≠ 0 → NamesBead s { e with s := fin s } (r.getD (2 + j) 0) k u →
          exec p.1 s = .next (requestSent s (modSlot (advanced s (fin s)) s.cur fun x => { x with demand := some (r.getD (2 + j) 0), deliv := none })
            (recA :: r ++ [q, foot, o, BitVec.ofNat 64 j]) [d.toNat] 4 (dskOf sl) u (beadBody s k (r.getD (2 + j) 0) (.force (chainOf s (sl.chainSeq + 1))))))) ∧
      (∀ c v, sl.res = some (.fault c v) → exec p.1 s = .next (takeTrap (fin s) s.cur c v sl.pc)))

/-- R364 to R366. The tval of a misaligned handle or record is the model's choice (log 74). -/
def Sys2Proof.Claim.HandleResults : Prop :=
  (∀ (a : BitVec 7) s, Runs s →
    let e := envFor 4 (.spark a) s
    let sl := getSlot s s.cur
    chk e [a.toNat] [] [] = .ok () → ∀ s1 h, readR e s a.toNat = .ok (s1, h) →
    (ringGate e = .ok () → h.toNat % 64 ≠ 0 → exec (.spark a) s = .next (takeTrap s s.cur 0x03 h sl.pc)) ∧
    (∀ k u s2 n, NamesBead s e h k u → takeRing e s1 false true = .ok (s2, n) →
      exec (.spark a) s = .next (done e (send s2 4 (dskOf sl) (coreUnit s.cur.core) u
        (.bead { key := k, handle := h, ctx := sl.ctx } .spark 0 s.cur.core 0 (.access s.cur (uidOf s) (2 ^ 40 + n.toNat) 0 h)))))) ∧
  (∀ (d a : BitVec 7), ∀ p ∈ [(Instr.hstat d a, [d.toNat], BeadOp.hstat), (.hdrop a, [], .hdrop)], ∀ s, Runs s →
    let e := envFor 4 p.1 s
    let sl := getSlot s s.cur
    chk e [a.toNat] p.2.1 [] = .ok () → ∀ s1 h, opnd e s 0 a.toNat = .ok (s1, h) →
    (sl.res = none → h.toNat % 64 ≠ 0 → exec p.1 s = .next (takeTrap s s.cur 0x03 h sl.pc)) ∧
    (sl.res = none → ∀ k u, NamesBead s e h k u → exec p.1 s = .next (requestSent s s1 [h] p.2.1 4 (dskOf sl) u (beadBody s k h p.2.2))) ∧
    (∀ v l, sl.res = some (.words (v :: l)) → ∀ s2, (if p.2.1 = [] then s2 = s1 else writeR e s1 d.toNat v = .ok s2) → exec p.1 s = .next (done e s2)) ∧
    (p.2.1 = [] → sl.res = some .ok → exec p.1 s = .next (done e s1)) ∧ FaultsAt p.1 s) ∧
  (∀ (a b : BitVec 7) s, Runs s →
    let e := envFor 4 (.hbind a b) s
    let sl := getSlot s s.cur
    chk e [a.toNat, b.toNat] [] [] = .ok () → ∀ s1 h, opnd e s 0 a.toNat = .ok (s1, h) →
    (sl.res = none → h.toNat % 64 ≠ 0 → exec (.hbind a b) s = .next (takeTrap s s.cur 0x03 h sl.pc)) ∧
    (sl.res = none → h.toNat % 64 = 0 → ∀ s2 v, readR e s1 b.toNat = .ok (s2, v) →
      (v.toNat % 64 ≠ 0 → exec (.hbind a b) s = .next (takeTrap s s.cur 0x03 v sl.pc)) ∧
      (v.toNat % 64 = 0 → v.toNat < 0x1000000 → exec (.hbind a b) s = .next (takeTrap s s.cur 0x08 v sl.pc)) ∧
      (v.toNat % 64 = 0 → 0x1000000 ≤ v.toNat → storesDone sl = true → ∀ k u, NamesBead s e h k u →
        exec (.hbind a b) s = .next (requestSent s s2 [h] [] 4 (dskOf sl) u (beadBody s k h (.hbind v))))) ∧
    (sl.res = some .ok → exec (.hbind a b) s = .next (done e s1)) ∧ FaultsAt (.hbind a b) s) ∧
  (∀ (a b : BitVec 7) s, Runs s →
    let e := envFor 4 (.mprog a b) s
    let sl := getSlot s s.cur
    chk e [a.toNat, b.toNat] [] [] = .ok () → ∀ s1 n s2 va, opnd e s 0 a.toNat = .ok (s1, n) → opnd e s1 1 b.toNat = .ok (s2, va) →
    (¬ (1 ≤ n.toNat ∧ n.toNat ≤ 15) → exec (.mprog a b) s = .next (takeTrap s s.cur 0x12 0 sl.pc)) ∧
    (1 ≤ n.toNat → n.toNat ≤ 15 → va.toNat % 16 ≠ 0 → exec (.mprog a b) s = .next (takeTrap s s.cur 0x03 va sl.pc)) ∧
    (1 ≤ n.toNat → n.toNat ≤ 15 → va.toNat % 16 = 0 → ∀ s3 s4 w0 w1, phaseRead e s2 [n, va] [] va 8 (dskOf sl) = .ok (s3, [n, va, w0]) →
      phaseRead e s3 [n, va, w0] [] (va + 8) 8 (dskOf sl) = .ok (s4, [n, va, w0, w1]) →
      let op := fun j => w0.toNat / 2 ^ (16 * j) % 2 ^ 16
      let count := w1.toNat % 256
      let good := w1.toNat < 2 ^ 16 ∧ w1.toNat / 256 ≤ 3 ∧ 1 ≤ count ∧ count ≤ 4 ∧ (∀ j, count ≤ j → j < 4 → op j = 0) ∧
        (∀ j, j < count → op j / 2 ^ 12 ≤ 8 ∧ (op j / 2 ^ 9 % 8 = 0 ∨ op j / 2 ^ 9 % 8 = 3 ∨ op j / 2 ^ 9 % 8 = 4) ∧ op j % 8 = 0 ∧
          (op j / 2 ^ 12 = 0 ∨ op j / 2 ^ 12 = 6 ∨ op j / 2 ^ 12 = 7 → op j / 8 % 8 = 0))
      (gotReply e [n, va, w0, w1] = none → good → exec (.mprog a b) s = .next (requestSent s s4 [n, va, w0, w1] [] 4 (dskOf sl) (coreUnit (svcCore (coreCl s.cur.core)))
        (.mprog n.toNat w0 w1 (.thread s.cur (uidOf s) va)))) ∧
      (gotReply e [n, va, w0, w1] = none → ¬ good → exec (.mprog a b) s = .next (takeTrap s s.cur 0x12 0 sl.pc)) ∧
      (gotReply e [n, va, w0, w1] = some .ok → exec (.mprog a b) s = .next (done e s4)))) ∧
  (∀ s (unit : Nat) p (n : Nat) w0 w1 r, p.body = .mprog n w0 w1 r →
    perform s unit p = reply (modCl (noteOf s unit p) (unitCl unit) fun c => { c with mprog := smSet (0, 0) c.mprog n (w0, w1) }) 18 unit p r .ok)

/-- Bead instructions: SUSPEND, FORCE, SPARK, the handle operations, TENQ and MPROG: the statements DemandResults, SubmitResults, HandleResults. -/
def Obligations.BeadInstructionResults : Prop :=
  Claim.DemandResults ∧ Claim.SubmitResults ∧ Claim.HandleResults

/-! ### Coordinates -/

/-- R164, R168, R381 and R382: agentCl gives the cluster of an agent, shardOf the shard of a coordinate. -/
def Sys2Proof.Claim.CoordinateResults : Prop :=
  (∀ (d a b : BitVec 7), ∀ p ∈ [(Instr.cld d a b, 0), (.cst d a b, 1), (.cadd d a b, 2), (.cnext d a b, 3), (.cdel d a b, 4), (.calloc d a b, 5), (.cfree d a b, 6), (.cqry d a b, 8)],
    ∀ s, Runs s →
    let e := envFor 4 p.1 s
    let sl := getSlot s s.cur
    let dst := if p.2 = 1 then [] else [d.toNat]
    let fn := (getCtx s sl.ctx).fn
    chk e ([a.toNat, b.toNat] ++ if p.2 = 1 ∨ p.2 = 2 then [d.toNat] else []) dst [] = .ok () →
    (sl.res = none → ∀ s1 g s2 c s3 x, opnd e s 0 a.toNat = .ok (s1, g) → opnd e s1 1 b.toNat = .ok (s2, c) →
      (if p.2 = 1 ∨ p.2 = 2 then opnd e s2 2 d.toNat = .ok (s3, x) else s3 = s2 ∧ x = 0) →
      (4096 ≤ g.toNat → exec p.1 s = .next (takeTrap s s.cur 0x11 g sl.pc)) ∧
      (g.toNat < 4096 →
        let desc := (regionAt s (agentCl s fn g.toNat 0) sl.ctx g.toNat).ws
        let kind := (desc.getD 0 0).toNat % 4
        let asks := fun sh => exec p.1 s = .next (requestSent s s3 [g, c, x] dst 5 (dskOf sl) (treeUnit (agentCl s fn g.toNat sh))
          (.coord (BitVec.ofNat 4 p.2) sl.ctx g.toNat c x s.cur.core (.thread s.cur (uidOf s) c)))
        let tiled := kind = 1 ∧ coordIn desc c = true ∧ (p.2 = 0 ∨ p.2 = 1 ∨ p.2 = 2 ∨ p.2 = 4)
        let tile := tileOf desc (coordsOf ((desc.getD 0 0).toNat / 16 % 4) c)
        (∀ sh, kind = 2 → shardOf desc p.2 c = some sh → sh ≤ (desc.getD 0 0).toNat / 2 ^ 56 → asks sh) ∧
        (kind = 2 → (∀ sh, shardOf desc p.2 c = some sh → (desc.getD 0 0).toNat / 2 ^ 56 < sh) → asks 0) ∧
        (kind ≠ 2 → ¬ tiled → asks 0) ∧ (tiled → clbFind s s.cur.core sl.ctx g.toNat tile = none → asks 0) ∧
        (tiled → ∀ fr k h, clbFind s s.cur.core sl.ctx g.toNat tile = some fr →
          poolKey s sl.ctx (fr + BitVec.ofNat 64 (tileOff desc (coordsOf ((desc.getD 0 0).toNat / 16 % 4) c))).toNat (if p.2 = 0 then 1 else 3) = .ok k → homeOf k = some h →
          exec p.1 s = .next (modSlot (requestSent s s3 [g, c, x] dst 5 (dskOf sl) h
            (.celem (BitVec.ofNat 4 p.2) k ((desc.getD 0 0).toNat / 256 % 256) (if p.2 = 4 then desc.getD 2 0 else x) sl.ctx g.toNat (.thread s.cur (uidOf s) c)))
            s.cur fun x => { x with coordHit := some g.toNat })))) ∧
    (∀ v u s1, sl.res = some (.coord v u) → (if p.2 = 1 then s1 = s else writeR e s d.toNat v = .ok s1) → exec p.1 s = .next (done e s1)) ∧
    FaultsOrUpcalls p.1 s) ∧
  (∀ (a : BitVec 7) s, Runs s →
    let e := envFor 4 (.cinv a) s
    let sl := getSlot s s.cur
    chk e [a.toNat] [] [] = .ok () →
    (sl.res = none → ∀ s1 g, readR e s a.toNat = .ok (s1, g) →
      (4096 ≤ g.toNat → exec (.cinv a) s = .next (takeTrap s s.cur 0x11 g sl.pc)) ∧
      (g.toNat < 4096 → exec (.cinv a) s = .next (requestSent s s1 [] [] 5 (dskOf sl) (treeUnit (agentCl s (getCtx s sl.ctx).fn g.toNat 0))
        (.cinv sl.ctx g.toNat none (.thread s.cur (uidOf s) g))))) ∧
    (sl.res = some .ok → exec (.cinv a) s = .next (done e s)) ∧ FaultsOrUpcalls (.cinv a) s)

/-- R161 and R284. -/
def Sys2Proof.Claim.LinearCoordinates : Prop :=
  ∀ (d a b : BitVec 7), ∀ p ∈ [(Instr.clin d a b, true), (.cunl d a b, false)], ∀ s, Runs s →
    let e := envFor 4 p.1 s
    let sl := getSlot s s.cur
    chk e [a.toNat, b.toNat] [d.toNat] [] = .ok () → ∀ s1 g s2 y, opnd e s 0 a.toNat = .ok (s1, g) → opnd e s1 1 b.toNat = .ok (s2, y) →
    (4096 ≤ g.toNat → exec p.1 s = .next (takeTrap s s.cur 0x11 g sl.pc)) ∧
    (g.toNat < 4096 → ∀ s3 s4 w0 w1,
      let va := (getCtx s sl.ctx).regTab + 64 * g
      phaseRead e s2 [g, y] [d.toNat] va 8 (dskOf sl) = .ok (s3, [g, y, w0]) →
      phaseRead e s3 [g, y, w0] [d.toNat] (va + 8) 8 (dskOf sl) = .ok (s4, [g, y, w0, w1]) →
      let kind := w0.toNat % 4
      let pk := w0.toNat / 16 % 4
      ((kind = 0 ∨ kind = 3) → exec p.1 s = .next (takeTrap s s.cur 0x11 g sl.pc)) ∧
      ((kind = 1 ∨ kind = 2) → p.2 = true → isCoord pk w1 y → ∀ s5, writeR e s4 d.toNat (BitVec.ofNat 64 (rowMajor (extentsOf pk w1) (coordsOf pk y))) = .ok s5 →
        exec p.1 s = .next (done e s5)) ∧
      ((kind = 1 ∨ kind = 2) → p.2 = true → ¬ isCoord pk w1 y → exec p.1 s = .next (takeTrap s s.cur 0x11 y sl.pc)) ∧
      ((kind = 1 ∨ kind = 2) → p.2 = false → y.toNat < (extentsOf pk w1).prod → ∃ c, isCoord pk w1 c ∧ rowMajor (extentsOf pk w1) (coordsOf pk c) = y.toNat ∧
        ∀ s5, writeR e s4 d.toNat c = .ok s5 → exec p.1 s = .next (done e s5)) ∧
      ((kind = 1 ∨ kind = 2) → p.2 = false → (extentsOf pk w1).prod ≤ y.toNat → exec p.1 s = .next (takeTrap s s.cur 0x11 y sl.pc)))

/-- Coordinate instructions and linear coordinates: the statements CoordinateResults, LinearCoordinates. -/
def Obligations.CoordinateRules : Prop :=
  Claim.CoordinateResults ∧ Claim.LinearCoordinates

/-! ### Engines and carries -/

/-- R142, R384 and R385. -/
def Sys2Proof.Claim.EngineResults : Prop :=
  (∀ (d a b : BitVec 7) s s1 x s2 y, Runs s →
    (∀ p ∈ [(Instr.cpy d a b, 0), (.dense d a b, 2)], chk (envFor 4 p.1 s) [a.toNat, b.toNat] [d.toNat] [] = .ok () →
      readR (envFor 4 p.1 s) s a.toNat = .ok (s1, x) → readR (envFor 4 p.1 s) s1 b.toNat = .ok (s2, y) → IssuesCopy s s2 p.1 d.toNat p.2 x y 0 ∧
      (128 ≤ (getCore s2 s.cur.core).eng.length → exec p.1 s = .next (modSlot s s.cur fun sl => { sl with wait := some .cond }))) ∧
    (chk (envFor 4 (.plane d a b) s) [a.toNat, b.toNat, d.toNat] [d.toNat] [] = .ok () →
      readR (envFor 4 (.plane d a b) s) s a.toNat = .ok (s1, x) → readR (envFor 4 (.plane d a b) s) s1 b.toNat = .ok (s2, y) →
      ∀ s3 c, readR (envFor 4 (.plane d a b) s) s2 d.toNat = .ok (s3, c) → IssuesCopy s s3 (.plane d a b) d.toNat 1 x y (c.toNat % 32)) ∧
    (chk (envFor 4 (.fill d a) s) [a.toNat] [d.toNat] [] = .ok () → readR (envFor 4 (.fill d a) s) s a.toNat = .ok (s1, x) →
      IssuesCopy s s1 (.fill d a) d.toNat 3 x 0 0) ∧
    (∀ p ∈ [(Instr.route d a, 4), (.psel d a, 5)], chk (envFor 4 p.1 s) [a.toNat] [d.toNat] [] = .ok () → readR (envFor 4 p.1 s) s a.toNat = .ok (s1, x) →
      outRoom s1 s.cur.core 0 = true → ∃ s3 c, IsCommand s c p.2 x 0 0 2 ((getSlot s1 s.cur).tls.route.issued + 1) ∧
        (getSlot s3 s.cur).tls.route.issued = (getSlot s1 s.cur).tls.route.issued + 1 ∧ s3.mem = s1.mem ∧
        ∀ s4, writeR (envFor 4 p.1 s) (send s3 10 (dskOf (getSlot s s.cur)) (coreUnit s.cur.core) (rankUnit (s.cur.core / 512)) (.rank c)) d.toNat c.num = .ok s4 →
          exec p.1 s = .next (done (envFor 4 p.1 s) s4)))

/-- R225, R226 and R393: w is the entry word. The tval of a misaligned descriptor is the model's choice (log 74). -/
def Sys2Proof.Claim.ReductionQueueResults : Prop :=
  ∀ (d a b : BitVec 7) s, Runs s →
    let sl := getSlot s s.cur
    let gate := fun w : Word => w.toNat / 16
    let reach := fun w : Word => gate w < 2048 ∧ (gate w % 32 = 17 ∨ gate w % 32 = 18) ∧ coreExists (gate w) = true ∧ coreFn s (gate w) = (getCtx s sl.ctx).fn
    let rq := fun (w : Word) op ws blk kind => Body.rq op (w.toNat % 16) ws blk kind sl.ctx sl.csr.wlimt.toNat (.thread s.cur (uidOf s) w)
    let unit := fun w : Word => gate w / 32 * 256 + 0x2C
    let asks := fun (i : Instr) (s' : State) acc w op ws blk kind => exec i s = .next (requestSent s s' acc [d.toNat] 10 (dskOf sl) (unit w) (rq w op ws blk kind))
    (chk (envFor 4 (.rqinit d a b) s) [a.toNat, b.toNat] [d.toNat] [] = .ok () → ∀ s1 x s2 w, opnd (envFor 4 (.rqinit d a b) s) s 0 a.toNat = .ok (s1, x) →
      opnd (envFor 4 (.rqinit d a b) s) s1 1 b.toNat = .ok (s2, w) →
      (x.toNat % 64 ≠ 0 → exec (.rqinit d a b) s = .next (takeTrap s s.cur 0x03 x sl.pc)) ∧
      (x.toNat % 64 = 0 → 2 ^ 15 ≤ w.toNat → exec (.rqinit d a b) s = .next (takeTrap s s.cur 0x12 0 sl.pc)) ∧
      (x.toNat % 64 = 0 → w.toNat < 2 ^ 15 → ¬ reach w → exec (.rqinit d a b) s = .next (takeTrap s s.cur 0x08 0 sl.pc)) ∧
      (x.toNat % 64 = 0 → w.toNat < 2 ^ 15 → reach w → ∀ s3 r, phaseRead64 (envFor 4 (.rqinit d a b) s) s2 [x, w] x (dskOf sl) = .ok (s3, [x, w] ++ r) → r.length = 8 →
        let w0 := (r.getD 0 0).toNat
        let good := w0 < 2 ^ 32 ∧ (w0 / 2 ^ 24 = 0x10 ∨ w0 / 2 ^ 24 = 0x11) ∧ 2 ≤ w0 / 2 ^ 16 % 256 ∧ 1 ≤ w0 % 2 ^ 16 ∧ r.getD 5 0 = 0 ∧ r.getD 6 0 = 0 ∧ r.getD 7 0 = 0
        (sl.ph.length ≠ 10 ∨ sl.res = none → good → asks (.rqinit d a b) s3 ([x, w] ++ r) w 0 r 0 false) ∧
        (sl.ph.length ≠ 10 ∨ sl.res = none → ¬ good → exec (.rqinit d a b) s = .next (takeTrap s s.cur 0x12 0 sl.pc)) ∧
        (sl.ph.length = 10 → ∀ v l s4, sl.res = some (.words (v :: l)) → writeR (envFor 4 (.rqinit d a b) s) s d.toNat v = .ok s4 →
          exec (.rqinit d a b) s = .next (done (envFor 4 (.rqinit d a b) s) s4)) ∧
        (sl.ph.length = 10 → FaultsAt (.rqinit d a b) s))) ∧
    (chk (envFor 4 (.rqget d a) s) [a.toNat] [d.toNat] [] = .ok () → ∀ s1 w, opnd (envFor 4 (.rqget d a) s) s 0 a.toNat = .ok (s1, w) →
      (sl.res = none → 2 ^ 15 ≤ w.toNat → exec (.rqget d a) s = .next (takeTrap s s.cur 0x12 0 sl.pc)) ∧
      (sl.res = none → w.toNat < 2 ^ 15 → ¬ reach w → exec (.rqget d a) s = .next (takeTrap s s.cur 0x08 0 sl.pc)) ∧
      (sl.res = none → w.toNat < 2 ^ 15 → reach w → asks (.rqget d a) s1 [w] w 1 [] 0 false) ∧
      (sl.ph.length = 1 → ∀ v l s2, sl.res = some (.words (v :: l)) → writeR (envFor 4 (.rqget d a) s) s d.toNat v = .ok s2 →
        exec (.rqget d a) s = .next (done (envFor 4 (.rqget d a) s) s2)) ∧
      (sl.ph.length = 1 → FaultsAt (.rqget d a) s)) ∧
    (chk (envFor 4 (.rqdone d a b) s) [a.toNat, b.toNat] [d.toNat] [] = .ok () → ∀ s1 w s2 y, opnd (envFor 4 (.rqdone d a b) s) s 0 a.toNat = .ok (s1, w) →
      opnd (envFor 4 (.rqdone d a b) s) s1 1 b.toNat = .ok (s2, y) →
      (sl.res = none → 2 ^ 15 ≤ w.toNat → exec (.rqdone d a b) s = .next (takeTrap s s.cur 0x12 0 sl.pc)) ∧
      (sl.res = none → w.toNat < 2 ^ 15 → ¬ reach w → exec (.rqdone d a b) s = .next (takeTrap s s.cur 0x08 0 sl.pc)) ∧
      (sl.res = none → w.toNat < 2 ^ 15 → reach w → 2 ^ 17 ≤ y.toNat → exec (.rqdone d a b) s = .next (takeTrap s s.cur 0x12 0 sl.pc)) ∧
      (sl.res = none → w.toNat < 2 ^ 15 → reach w → y.toNat < 2 ^ 17 → storesDone sl = true → asks (.rqdone d a b) s2 [w, y] w 2 [] (y.toNat % 2 ^ 16) (y.getLsbD 16)) ∧
      (sl.ph.length = 2 → ∀ v l s3, sl.res = some (.words (v :: l)) → writeR (envFor 4 (.rqdone d a b) s) s d.toNat v = .ok s3 →
        exec (.rqdone d a b) s = .next (done (envFor 4 (.rqdone d a b) s) s3)) ∧
      (sl.ph.length = 2 → FaultsAt (.rqdone d a b) s))

/-- Copy, ranking and reduction-queue instructions: the statements EngineResults, ReductionQueueResults. -/
def Obligations.EngineInstructionResults : Prop :=
  Claim.EngineResults ∧ Claim.ReductionQueueResults

/-- R217 to R220 and R360: r is the descriptor. That MIGR in a light handler traps, and the order of its refusals, are the model's choice
(log 73), and so is the record of the row's read (log 84), which a machine that records and replays nothing does not make. -/
def Sys2Proof.Claim.CarryResults : Prop :=
  (∀ (d a b : BitVec 7) s, Runs s →
    let i := Instr.migr d a b
    let e := envFor 4 i s
    let sl := getSlot s s.cur
    chk e [a.toNat, b.toNat] [d.toNat] [] = .ok () →
    (sl.deliv = none → sl.res = none → sl.ph = [] → NoLate s → sl.handler ≠ none → exec i s = .next (takeTrap s s.cur 0x01 ((encode i).setWidth 64) sl.pc)) ∧
    (sl.deliv = none → NoLate s → sl.handler = none → sl.ports = true → exec i s = .next (takeTrap s s.cur 0x1A 0 sl.pc)) ∧
    (sl.deliv = none → NoLate s → sl.ports = false → sl.handler = none → ∀ s1 desc s2 pos s3 r,
      opnd e s 0 a.toNat = .ok (s1, desc) → opnd e s1 1 b.toNat = .ok (s2, pos) → cdRead e s2 [desc, pos] desc = .ok (s3, r) →
      let src := (r.getD 1 0).toNat % 2 ^ 20
      let rows := max ((r.getD 2 0).toNat % 256 + 1) ((r.getD 2 0).toNat / 2 ^ 16 % 256 + 1) * 64
      let inSize := ((r.getD 2 0).toNat % 256 + 1) * 64
      let room := src + rows ≤ 2 ^ 20 ∧ src + rows ≤ scrSize s.cur.core
      (src % 64 ≠ 0 → exec i s = .next (takeTrap s s.cur 0x03 (BitVec.ofNat 64 src) sl.pc)) ∧
      (src % 64 = 0 → ¬ room → exec i s = .next (takeTrap s s.cur 0x08 (BitVec.ofNat 64 src) sl.pc)) ∧
      (src % 64 = 0 → room → 0xFFFE ≤ pos.toNat → exec i s = .next (takeTrap s s.cur 0x1A pos sl.pc)) ∧
      (src % 64 = 0 → room → pos.toNat < 0xFFFE → 16 ≤ (getCore s s.cur.core).fwd.length → exec i s = .next (takeTrap s s.cur 0x1A 0 sl.pc)) ∧
      (src % 64 = 0 → room → pos.toNat < 0xFFFE → (getCore s s.cur.core).fwd.length < 16 → Drained sl → ∀ k u, NamesBead s e (r.getD 0 0) k u →
        eccStatus s3 (0x100000000000000 + s.cur.core * 0x100000 + src) inSize = 0 → (∀ f, (getFn s3 f).recMode = false ∧ (getFn s3 f).replay = false) →
        ∃ s4 ci, exec i s = .next (send s4 8 (dskOf sl) (coreUnit s.cur.core) (coreUnit (u / 256 * 32 + 16)) (.carry ci)) ∧
          ci.uid = uidOf s ∧ ci.ctx = sl.ctx ∧ ci.t = s.cur ∧ ci.ws = recordOf s s.cur sl sl.pc ∧ ci.burst = burstWords s s.cur sl ∧
          ci.row = (List.range inSize).map (fun j => memByte s3.mem (0x100000000000000 + s.cur.core * 0x100000 + src + j)) ∧ ci.marks = [] ∧
          ci.desc = r ∧ ci.pos = pos ∧ ci.limit = sl.csr.wlimt ∧ s4.mem = s3.mem ∧
          (getSlot s4 s.cur).uid = none ∧ (getSlot s4 s.cur).resv = some (uidOf s) ∧ (getCont s4 (uidOf s)).carry = { home := s.cur, desc := desc, pos := pos } :: sl.carry ∧
          (getCore s4 s.cur.core).fwd = (getCore s s.cur.core).fwd ++ [{ old := s.cur, new := s.cur, tick := tickN s, carry := true, ctx := sl.ctx }])) ∧
    (∀ v f s1, sl.deliv = some (.value v false f) → writeR e (orFlags s s.cur f) d.toNat v = .ok s1 → exec i s = .next (done e s1)) ∧
    (∀ v f s1, sl.deliv = some (.value v true f) → writeR e (orFlags s s.cur f) d.toNat v = .ok s1 → exec i s = .next (takeTrap s1 s.cur 0x14 0 (sl.pc + 4))) ∧
    (∀ c v, sl.deliv = some (.fail c v) → exec i s = .next (takeTrap s s.cur c v sl.pc))) ∧
  (∀ (a b : BitVec 7) s, Runs s →
    let i := Instr.mret a b
    let e := envFor 4 i s
    let sl := getSlot s s.cur
    (NoLate s → sl.carry = [] → exec i s = .next (takeTrap s s.cur 0x01 ((encode i).setWidth 64) sl.pc)) ∧
    (∀ cr rest s1 desc s2 pos, NoLate s → sl.carry = cr :: rest → chk e [a.toNat, b.toNat] [] [] = .ok () → opnd e s 0 a.toNat = .ok (s1, desc) → opnd e s1 1 b.toNat = .ok (s2, pos) →
      ((desc ≠ cr.desc ∨ pos ≠ cr.pos) → exec i s = .next (takeTrap s s.cur 0x01 ((encode i).setWidth 64) sl.pc)) ∧
      (desc = cr.desc → pos = cr.pos → ∀ s3 r ks, cdRead e s2 [desc, pos] desc = .ok (s3, r) → Drained sl →
        let outSize := ((r.getD 2 0).toNat / 2 ^ 16 % 256 + 1) * 64
        rowKeys s3 (some s.cur.core) sl.ctx (r.getD 4 0 + pos * BitVec.ofNat 64 outSize) 1 outSize = .ok ks →
        (∀ k ∈ ks, eccStatus s3 k 1 = 0) → (∀ f, (getFn s3 f).recMode = false ∧ (getFn s3 f).replay = false) →
        ∃ s4, exec i s = .next (setSlot (send s4 8 (dskOf sl) (coreUnit s.cur.core) (coreUnit cr.home.core)
            (.carryBack (uidOf s) cr.home (recordOf s s.cur sl (sl.pc + 4)) (burstWords s s.cur sl)
              (ks.map (memByte s3.mem)) [] ((r.getD 1 0).toNat % 2 ^ 20))) s.cur (emptied sl)) ∧
          s4.mem = s3.mem)))

/-! ### The device: management, side band, power -/

/-- R60: each row of the command table. What ASSIGN leaves in the clusters that change hands is the model's choice (log 39). The bytes after the report's length in ATTEST's answer are the model's choice (log 54). -/
def Sys2Proof.Claim.ManagementResults : Prop :=
  (∀ s, ∀ r ∈ mgmtTable s,
    (Command s r.2.1 r.2.2.1 → r.2.2.2.1 → exec r.1 s = .next (mgmtEnd r.2.2.2.2.1 0 r.2.2.2.2.2)) ∧
    (s.mgmt.busy = true → s.power.supplyOk = true → cmdByte s 0 = r.2.1 → r.2.2.2.1 → BadCommand s r.2.2.1 → exec r.1 s = .next (mgmtEnd s 2 []))) ∧
  (∀ s st resp, (mgmtEnd s st resp).mgmt.busy = false ∧ (mgmtEnd s st resp).mgmt.status = st ∧ (mgmtEnd s st resp).mgmt.tag = cmdNat s 4 4 ∧
    ∀ i v, resp[i]? = some v → smGet 0 (mgmtEnd s st resp).mgmt.mresp i = v)

/-- R78, R79, R206 and R209. That CTXEND drops what the context has in TLBs and caches at once is the model's choice (log 25). -/
def Sys2Proof.Claim.ContextAndTraceCommands : Prop :=
  (∀ s, Command s 0x02 [(8, 45)] →
    let b := cmdByte s
    let w := fun i => BitVec.ofNat 64 (cmdNat s i 8)
    let c : Ctx := { live := true, fn := cmdFn s, host := decide (b 10 = 1), levels := b 11, posP := b 12, posW := b 13, posNx := b 14, posF := b 15
                     root := w 16, regTab := w 24, spill := w 32, spillK := cmdNat s 40 8, segs := cmdNat s 48 2, segB := Config.segBase (cmdNat s 8 2), ovfK := cmdNat s 50 2, steal := BitVec.ofNat 2 (b 52) }
    b 10 ≤ 1 → b 52 ≤ 3 → (getCtx s (cmdNat s 8 2)).live = false → (b 10 = 1 → (b 11 = 4 ∨ b 11 = 5) ∧ b 12 < 64 ∧ b 13 < 64 ∧ b 14 < 64 ∧ b 15 < 64) →
    ctxOk s (cmdNat s 8 2) c = true → exec .ctxnew s = .next (mgmtEnd { s with ctxs := smSet {} s.ctxs (cmdNat s 8 2) c } 0 [])) ∧
  (∀ s, Command s 0x03 [(8, 2)] → (getCtx s (cmdNat s 8 2)).live = true → (getCtx s (cmdNat s 8 2)).fn = cmdFn s →
    let t := dropCaches (teardown s (cmdNat s 8 2) 6) (cmdNat s 8 2)
    exec .ctxend s = .next (mgmtEnd { t with
      ctxs := smDel t.ctxs (cmdNat s 8 2)
      fns := t.fns.map fun f => (f.1, { f.2 with queues := f.2.queues.map fun q =>
        (q.1, { q.2 with stale := q.2.stale || q.2.ctx == some (cmdNat s 8 2) }) }) } 0 [])) ∧
  (∀ s, Command s 0x0A [(8, 17), (32, 16)] → cmdByte s 24 ≤ 1 → (∀ q ∈ (getFn s (cmdFn s)).queues, ∀ e ∈ q.2.entries, e.written = true) →
    ∃ t, exec .trace s = .next (mgmtEnd t 0 []) ∧
      getFn t (cmdFn s) = { getFn s (cmdFn s) with trBase := BitVec.ofNat 64 (cmdNat s 8 8), trBytes := BitVec.ofNat 64 (cmdNat s 16 8), trStall := decide (cmdByte s 24 = 1), trHead := 0, trTail := 0, rpBase := BitVec.ofNat 64 (cmdNat s 32 8), rpBytes := BitVec.ofNat 64 (cmdNat s 40 8), rep5 := [], rep5At := s.tick.toNat, diverged := false } ∧
      ∀ h ∈ t.homes, (getCl s (h.1 / 256)).fn = cmdFn s → h.2.replayAt = 0 ∧ h.2.free = false ∧ h.2.pairSeq = []) ∧
  (∀ s, ∀ r ∈ [(Instr.ctxnew, 0x02, [(8, 45)]), (.ctxend, 0x03, [(8, 2)]), (.trace, 0x0A, [(8, 17), (32, 16)])],
    s.mgmt.busy = true → s.power.supplyOk = true → cmdByte s 0 = r.2.1 → BadCommand s r.2.2 → exec r.1 s = .next (mgmtEnd s 2 []))

/-- R60, R75 and R201. The readings of THREAD's window byte and of a MOVE done once it is taken are the model's choice (log 39). -/
def Sys2Proof.Claim.ThreadCommands : Prop :=
  (∀ s, Command s 0x0D [(8, 17), (26, 3)] →
    let fn := cmdFn s
    let w := cmdByte s 24
    let t : Tid := { core := cmdNat s 26 2, slot := cmdByte s 28 }
    ∀ ctx c b, s.ctxs.find? (fun c => c.2.live && c.2.host && c.2.fn = fn && c.2.root = BitVec.ofNat 64 (cmdNat s 8 8) && c.2.torn.isNone) = some (ctx, c) →
    (getFn s fn).hostSh = true → (getFn s fn).urgent = false → w % 8 = 0 → 8 ≤ w → w ≤ 128 → coreRuns s t.core = true → coreFn s t.core = fn → t.slot < 64 →
    slotFree s t = true → fitWindow (getCore s t.core) w = some b →
    let k : Cont := { ctx := ctx, pc0 := BitVec.ofNat 64 (cmdNat s 16 8), wsize := BitVec.ofNat 4 (w / 8 - 1), core := t.core, dev := true }
    exec .thread s = .next (mgmtEnd (openSlot (freshUid s k).1 t s.nextUid b fun sl =>
      { sl with pc := k.pc0, ctx := ctx, wsize := k.wsize, dev := true }) 0 [BitVec.ofNat 64 (t.core * 64 + t.slot)])) ∧
  (∀ s, Command s 0x0E [(8, 7)] →
    let fn := cmdFn s
    let t : Tid := { core := cmdNat s 8 4 / 64 % 2048, slot := cmdNat s 8 4 % 64 }
    let d : Tid := { core := cmdNat s 12 2, slot := cmdByte s 14 }
    let sl := getSlot s t
    ∀ u b, cmdNat s 8 4 < 2 ^ 17 → sl.uid = some u → coreFn s t.core = fn → coreRuns s d.core = true → coreFn s d.core = fn → d.slot < 64 → sl.ports = false → sl.dev = true →
    (getFn s fn).urgent = false → d ≠ t → sl.moveTo = none → sl.evicting = false → slotFree s d = true → (getCore s t.core).fwd.length < 16 →
    fitWindow (getCore s d.core) (winW sl) = some b →
    exec .move s = .next (mgmtEnd (modSlot (modSlot s d fun x => { emptied x with resv := some u, wbase := b, wsize := sl.wsize }) t fun x =>
      { x with evicting := true, moveTo := some d }) 0 [])) ∧
  (∀ s t,
    let sl := getSlot s t
    let a := BitVec.ofNat 64 (cmdNat s 24 8)
    (Debugged s 0 t → sl.uid.isSome = true → exec .debugHalt s = .next (mgmtEnd (modSlot s t fun x => { x with halted := true, stepOne := false }) 0 [])) ∧
    (Debugged s 1 t → (∀ x ∈ slotsOf s ((partition s (cmdFn s)).flatMap clCores), x.2.wait ≠ some .sysc) →
      exec .debugResume s = .next (mgmtEnd (modFn (modSlot s t fun x => { x with halted := false, stepOne := false }) (cmdFn s) fun f => { f with halted := false }) 0 [])) ∧
    (Debugged s 2 t → sl.uid.isSome = true → sl.halted = true ∨ (getFn s (cmdFn s)).halted = true →
      exec .debugStep s = .next (mgmtEnd (modSlot s t fun x => { x with halted := true, stepOne := true }) 0 [])) ∧
    (Debugged s 3 t → a ∉ sl.bps → exec .debugSetBreakpoint s = .next (mgmtEnd (modSlot s t fun x => { x with bps := sl.bps ++ [a] }) 0 [])) ∧
    (Debugged s 4 t → exec .debugClearBreakpoint s = .next (mgmtEnd (modSlot s t fun x => { x with bps := x.bps.filter (· ≠ a) }) 0 [])) ∧
    (Debugged s 5 t → sl.uid.isSome = true → exec .debugCopyState s =
      .next (mgmtEnd (homeWriteL s (0x4000000000000 + cmdNat s 24 8 % 2 ^ 48) (wordBytes (recordOf s t sl sl.pc ++ burstWords s t sl))) 0 []))) ∧
  (∀ s, s.mgmt.busy = true → s.power.supplyOk = true →
    (∀ r ∈ [(Instr.thread, 0x0D, [(8, 17), (26, 3)]), (.move, 0x0E, [(8, 7)])], cmdByte s 0 = r.2.1 → BadCommand s r.2.2 → exec r.1 s = .next (mgmtEnd s 2 [])) ∧
    ∀ r ∈ [(Instr.debugHalt, 0), (.debugResume, 1), (.debugStep, 2), (.debugSetBreakpoint, 3), (.debugClearBreakpoint, 4), (.debugCopyState, 5)],
      cmdByte s 0 = 0x13 → cmdByte s 8 = r.2 →
      (BadCommand s [(8, 1), (16, 4), (24, 8)] → exec r.1 s = .next (mgmtEnd s 2 [])) ∧
      (¬ BadCommand s [(8, 1), (16, 4), (24, 8)] → cmdNat s 16 4 < 2 ^ 17 → coreExists (cmdNat s 16 4 / 64 % 2048) = true →
        coreFn s (cmdNat s 16 4 / 64 % 2048) = cmdFn s → (getFn s (cmdFn s)).debug = false → exec r.1 s = .next (mgmtEnd s 3 [])))

/-- Management commands: the statements ManagementResults, ContextAndTraceCommands, ThreadCommands. -/
def Obligations.ManagementRules : Prop :=
  Claim.ManagementResults ∧ Claim.ContextAndTraceCommands ∧ Claim.ThreadCommands

/-- R28. The number that the boot stage byte gives is the model's choice (log 48). -/
def Sys2Proof.Claim.SideBandResults : Prop :=
  ∀ s, s.power.supplyOk = true →
    let ans := fun (t : State) (l : List Byte) => (Host.Outcome.next { t with i3c := { t.i3c with data := l, nack := false } } : Host.Outcome State Fault Refusal)
    let down := ((List.range 16).map fun p => if (getPort s p).st = .down ∨ (getPort s p).fibres = 0 then 2 ^ p else 0).sum
    let flags := bit ((List.range 64).any fun c => (getCl s c).throttled) + 2 * bit s.power.shutdown + 4 * bit s.power.unmet
    let nack : Host.Outcome State Fault Refusal := .next { s with i3c := { s.i3c with data := [], nack := true } }
    (∀ (code : BitVec 8) (w : BitVec 16), code = 0 ∨ 7 ≤ code.toNat → exec (.i3cSetPowerLimit (code, w)) s = nack) ∧
    exec .i3cReadStatus s = ans s ([if s.boot.recovery then s.boot.failing else s.boot.stage, down % 256, down / 256, flags].map (BitVec.ofNat 8)) ∧
    exec .i3cReadTemperatures s = ans s ((List.range 64).map fun c => BitVec.ofNat 8 (getCl s c).temp) ∧
    exec .i3cReadPackagePower s = ans s [BitVec.ofNat 8 s.power.draw, BitVec.ofNat 8 (s.power.draw / 256)] ∧
    exec .i3cReadIdentityKey s = ans s ((List.range 32).map fun i => BitVec.ofNat 8 (Config.identityKey.toNat / 256 ^ i)) ∧
    (∀ w : BitVec 16, exec (.i3cSetPowerLimit (4, w)) s = ans { s with power := { s.power with limit := max 500 (min 3600 w.toNat) } } []) ∧
    ((s.power.shutdown = true ∧ ∃ c, c < 64 ∧ 85 ≤ (getCl s c).temp) → exec .i3cResetPackage s = nack) ∧
    (¬ (s.power.shutdown = true ∧ ∃ c, c < 64 ∧ 85 ≤ (getCl s c).temp) → exec .i3cResetPackage s = ans (packageReset s) []) ∧
    (∀ d : BitVec 2, exec (.i3cResetDie d) s = ans (if (getDie s d.toNat).inReset then s else dieReset s d.toNat false) [])

/-- R25 to R30 and R207. That firmware held empty boots, and the numbering of the stages, are the model's choice (log 48);
so is that a reading within limits clears the fault and the package goes on as it stood (log 49). -/
def Sys2Proof.Claim.PowerAndBootEvents : Prop :=
  ∀ s,
    let ibi := fun (t : State) => { t with i3c := { t.i3c with ibis := t.i3c.ibis + 1 } }
    (∀ v : Nat, exec (.supplyFault v) s = .next { s with power := { s.power with supplyOk := decide (48 ≤ v ∧ v ≤ 60), supplyFault := !decide (48 ≤ v ∧ v ≤ 60) } }) ∧
    (∀ c temp : Nat, c < 64 → temp < 115 →
      let t := modCl s c fun k => { k with temp := temp, throttled := decide (95 ≤ temp) }
      exec (.thermalThrottle c temp) s = .next (if 95 ≤ temp ∧ (getCl s c).throttled = false then ibi t else t)) ∧
    (∀ c temp : Nat, c < 64 → 115 ≤ temp → s.power.shutdown = false → ∀ i ∈ [Instr.thermalShutdown c temp, .thermalThrottle c temp], ∃ t, exec i s = .next t ∧
      t.power.shutdown = true ∧ t.i3c.ibis = s.i3c.ibis + 1 ∧
      (getCl t c).temp = temp ∧ ∀ p, p < 16 → (getPort t p).st = .down) ∧
    (∀ c temp : Nat, c < 64 → 115 ≤ temp → s.power.shutdown = true →
      exec (.thermalShutdown c temp) s = .next (modCl s c fun k => { k with temp := temp, throttled := true })) ∧
    (∀ w : Nat, s.power.limit < w → s.power.unmet = false → (∀ c, c < 64 → (getCl s c).clock ≤ 6) →
      exec (.powerLimitUnmet w) s = .next (ibi { s with power := { s.power with draw := w, unmet := true } })) ∧
    (∀ w : Nat, w < s.power.limit → exec (.powerLimitMet w) s = .next { s with power := { s.power with draw := w, unmet := false } }) ∧
    (∀ c : Nat, c < 64 →
      let held := (getCl s c).throttled = true ∨ s.power.limit < s.power.draw
      let stepped := fun clk => modCl s c fun k => { k with cyc10 := k.cyc10 + (s.tick.toNat - k.cycTick) * 2 * k.clock, cycTick := s.tick.toNat, clock := clk }
      (¬ held → (getCl s c).clock < 20 → exec (.clockStep c true) s = .next (stepped ((getCl s c).clock + 1))) ∧
      (held → 6 < (getCl s c).clock → exec (.clockStep c false) s = .next (stepped ((getCl s c).clock - 1))) ∧
      (held → exec (.clockStep c true) s = .next s) ∧ (¬ held → exec (.clockStep c false) s = .next s)) ∧
    (s.boot.done = false → s.boot.recovery = false → s.power.supplyOk = true → s.power.shutdown = false → ((∀ d, d < 4 → (getDie s d).inReset = false) ∨ ∀ d, d < 4 → (getDie s d).inReset = true ∧ (getDie s d).whole = true) →
      (s.boot.fw = [] ∨ Config.sha512 ((s.boot.fw.map (·.key)).headD []) = Config.fusedDigest) →
      let key := fun i => if i = 0 then (s.boot.fw.map (·.key)).headD [] else ((s.boot.fw.map (·.nextKey)).getD (i - 1) [])
      let good := fun (i : Nat) (f : Stage) => Config.minSecurityVersion ≤ f.secVer ∧ Config.ed25519Verify (key i) f.image f.sig = true
      ((∀ i f, s.boot.fw[i]? = some f → good i f) → exec .boot s = .next { s with boot := { s.boot with done := true, stage := s.boot.fw.length } }) ∧
      (∀ i f, s.boot.fw[i]? = some f → ¬ good i f → (∀ j g, j < i → s.boot.fw[j]? = some g → good j g) →
        exec .boot s = .next (ibi { s with boot := { s.boot with recovery := true, failing := i, stage := i } }))) ∧
    (s.boot.done = false → s.boot.recovery = false → s.power.supplyOk = true → s.power.shutdown = false → ((∀ d, d < 4 → (getDie s d).inReset = false) ∨ ∀ d, d < 4 → (getDie s d).inReset = true ∧ (getDie s d).whole = true) →
      ∀ f r, s.boot.fw = f :: r → Config.sha512 f.key ≠ Config.fusedDigest →
      exec .boot s = .next (ibi { s with boot := { s.boot with recovery := true, failing := 0, stage := 0 } })) ∧
    (∀ d : BitVec 2, (getDie s d.toNat).inReset = true → (getDie s d.toNat).whole = false → exec (.dieResetComplete d) s = .next (dieBack s d.toNat)) ∧
    ((∀ d, d < 4 → (getDie s d).inReset = true ∧ (getDie s d).whole = true) → (s.boot.done = false → exec .packageResetComplete s = .next s) ∧ (s.boot.done = true →
      exec .packageResetComplete s = .next (dieBack (dieBack (dieBack (dieBack s 0) 1) 2) 3))) ∧
    (∀ d : Nat, d < 4 → (getDie (dieBack s d) d).inReset = false ∧ (dieBack s d).noticeSeq = s.noticeSeq + 1)

/-- Side-band commands, power, boot and resets: the statements SideBandResults, PowerAndBootEvents. -/
def Obligations.PackageEvents : Prop :=
  Claim.SideBandResults ∧ Claim.PowerAndBootEvents

/-! ### The host -/

/-- R59 and R61. The bits of qvec and scvec that are not kept (log 61) and the dropped low bits of ringbase and compaddr (log 59)
are the model's choice. -/
def Sys2Proof.Claim.RegisterWriteResults : Prop :=
  ∀ s (fn : Nat) (v : BitVec 64), Up s fn →
    let vec := v &&& 0x80000000000007FF
    (∀ q : Nat, q < nqCount fn → exec (.registerWrite fn 0 (0x100 + 8 * q) 8 v) s = .next (modNq s fn q fun n => { n with qvec := vec })) ∧
    exec (.registerWrite fn 0 0x1028 8 v) s = .next (modFn s fn fun f => { f with scvec := vec }) ∧
    (∀ i : Nat, i < 3 → exec (.registerWrite fn 0 (0x2000 + 8 * i) 8 v) s = .next (modFn s fn fun f => { f with screply := smSet 0 f.screply i v })) ∧
    (∀ i : Nat, fn = 0 → i < 32 → exec (.registerWrite fn 0 (0x4000 + 8 * i) 8 v) s = .next { s with mgmt := { s.mgmt with mcmd := smSet 0 s.mgmt.mcmd i v } }) ∧
    (fn = 0 → s.mgmt.busy = true → exec (.registerWrite fn 0 0x4100 8 v) s = .next s) ∧
    (fn = 0 → s.mgmt.busy = false →
      let t : State := { s with mgmt := { s.mgmt with busy := true, cmd := s.mgmt.mcmd } }
      let op := cmdByte t 0
      (1 ≤ op ∧ op ≤ 0x13 ∧ (op = 0x06 → cmdByte t 9 ≤ 1) ∧ (op = 0x11 → cmdByte t 8 ≤ 4) ∧ (op = 0x13 → cmdByte t 8 ≤ 5) → exec (.registerWrite fn 0 0x4100 8 v) s = .next t) ∧
      (op = 0 ∨ 0x13 < op → exec (.registerWrite fn 0 0x4100 8 v) s = .next (mgmtEnd t 2 []))) ∧
    (∀ i : Nat, i < 2 * msixCount fn →
      let t := modFn s fn fun f => msixSet f i v
      let pend := (smGet 0 (getFn s fn).msixPba (i / 2 / 64)).getLsbD (i / 2 % 64)
      (pend = false ∨ (msixGet (getFn t fn) (2 * (i / 2) + 1)).getLsbD 32 = true → exec (.registerWrite fn 0 (0x10000 + 8 * i) 8 v) s = .next t) ∧
      (pend = true → (msixGet (getFn t fn) (2 * (i / 2) + 1)).getLsbD 32 = false → exec (.registerWrite fn 0 (0x10000 + 8 * i) 8 v) s = .next
        { modFn t fn (fun f => { f with msixPba := smMod 0 f.msixPba (i / 2 / 64) fun w => w &&& ~~~(BitVec.ofNat 64 (2 ^ (i / 2 % 64))) }) with msix := s.msix ++ [(fn, i / 2)] })) ∧
    (∀ q : Nat, q < nqCount fn →
      exec (.registerWrite fn 2 (4096 * q + 0x18) 8 v) s = .next (modNq s fn q fun n => { n with ringbase := v &&& 0xFFFFFFFFFFFFFFC0 }) ∧
      exec (.registerWrite fn 2 (4096 * q + 0x20) 8 v) s = .next (modNq s fn q fun n => { n with ringlog := v }) ∧
      exec (.registerWrite fn 2 (4096 * q + 0x28) 8 v) s = .next (modNq s fn q fun n => { n with compaddr := v &&& 0xFFFFFFFFFFFFFFF8 }) ∧
      exec (.registerWrite fn 2 (4096 * q + 0x40) 8 v) s = .next (modNq s fn q fun n => { n with hiver := v }) ∧
      exec (.registerWrite fn 2 (4096 * q + 0x50) 8 v) s = .next (modNq s fn q fun n => { n with nthead := v.toNat }) ∧
      ∀ b o : Nat, b ≠ 8 → o < 0x60 ∨ (0x800 ≤ o ∧ o < 0x1000) → exec (.registerWrite fn 2 (4096 * q + o) b v) s = .next (modNq s fn q fun n => { n with err := 2 }))

/-- R61 to R63. An enable that is tried again after it was refused (log 60), the counters that a reset clears (log 51) and the
entries in flight at a reset (log 25) are the model's choice. -/
def Sys2Proof.Claim.QueueResults : Prop :=
  ∀ s (fn q : Nat), Up s fn → q < nqCount fn →
    let n := getNq s fn q
    (∀ v : BitVec 64, exec (.ringidxWrite fn q v) s = .next (modNq s fn q fun m =>
      if v.toNat ≤ n.ringidx then m else if n.admitted + 2 ^ (n.ringlog.toNat % 32) < v.toNat then { m with err := 1 } else { m with ringidx := v.toNat })) ∧
    (n.st = 0 ∨ (n.st = 3 ∧ (n.err = 3 ∨ n.err = 4)) → exec (.queueEnable fn q) s = .next (modNq s fn q fun m =>
      if n.ringlog.toNat < 4 ∨ 16 < n.ringlog.toNat then { m with st := 3, err := 3 } else if n.hiver ≠ 1 then { m with st := 3, err := 4 }
      else { m with st := 1, err := 0, draining := false })) ∧
    (n.st = 1 ∨ n.st = 2 →
      ((∀ e ∈ n.entries, e.written = true) → exec (.queueDisable fn q) s = .next (modNq s fn q fun m => { m with st := 0, draining := false })) ∧
      (∀ e ∈ n.entries, e.written = false → exec (.queueDisable fn q) s = .next (modNq s fn q fun m => { m with draining := true }))) ∧
    (∃ t, exec (.queueReset fn q) s = .next t ∧
      getNq t fn q = { n with ringidx := 0, admitted := 0, compcnt := 0, st := 0, err := 0, awaited := 0, retry := 64, draining := false, entries := (getNq t fn q).entries } ∧
      (∀ x ∈ (getNq t fn q).entries, 2 ^ 64 ≤ x.seq) ∧ t.mem = s.mem) ∧
    (s.boot.done = true → working s = true → n.draining = false → ∀ err : Bool, ∀ p ∈ [(Instr.admitEntry fn (q, err), 1, 64), (.stampRetry fn (q, err), 2, min (2 * n.retry) 8192)], n.st = p.2.1 → (p.2.1 = 1 → n.admitted < n.ringidx) →
      (∀ ws, readSlot s n err = some ws →
        (wAt ws 0 = BitVec.ofNat 64 n.admitted → exec p.1 s = .next (modNq s fn q fun m =>
          { m with st := 1, admitted := n.admitted + 1, retry := 64, entries := m.entries ++ [{ seq := n.admitted, ws := ws }] })) ∧
        (wAt ws 0 ≠ BitVec.ofNat 64 n.admitted → exec p.1 s = .next (modNq s fn q fun m => { m with st := 2, awaited := n.admitted, retry := p.2.2 }))) ∧
      (readSlot s n err = none → exec p.1 s = .next (modNq s fn q fun m => { m with st := 3, err := 5 }))) ∧
    (n.ringbase.getLsbD 63 = true → readSlot s n true = none ∧ readSlot s n false = some ((List.range 8).map fun i =>
      BitVec.ofNat 64 (memRead s.mem (0x4000000000000 + ((n.ringbase + BitVec.ofNat 64 (64 * (n.admitted % 2 ^ (n.ringlog.toNat % 32)))).toNat + 8 * i) % 2 ^ 48) 8)))

/-- R58, R59, R61 and R73. Narrow reads of other registers giving 0 is the model's choice (log 65). -/
def Sys2Proof.Claim.HostReadResults : Prop :=
  ∀ s (fn : Nat), Up s fn →
    let f := getFn s fn
    hostRead s fn 0 0 8 = some (BitVec.ofNat 64 (0x0800 + fn * 2 ^ 16 + (partition s fn).length * 2 ^ 24)) ∧
    (∃ w, hostRead s fn 0 8 8 = some w ∧ (w.toNat < 128) ∧ ∀ i b, [fnIdle s fn, f.recMode, f.replay, f.halted, f.urgent, f.hostSh, f.diverged][i]? = some b → w.getLsbD i = b) ∧
    (∀ q, q < nqCount fn → hostRead s fn 0 (0x100 + 8 * q) 8 = some (getNq s fn q).qvec) ∧
    (fn = 0 → hostRead s fn 0 0x4108 8 = some (BitVec.ofNat 64 (bit s.mgmt.busy + s.mgmt.status % 256 * 2 ^ 8 + s.mgmt.tag % 2 ^ 32 * 2 ^ 16))) ∧
    (∀ q, q < nqCount fn →
      let n := getNq s fn q
      (∀ r ∈ [(0x00, n.ringidx), (0x08, n.admitted), (0x10, n.compcnt), (0x18, n.ringbase.toNat), (0x20, n.ringlog.toNat), (0x28, n.compaddr.toNat),
          (0x30, n.st % 16 + n.err % 256 * 2 ^ 8 + n.awaited % 2 ^ 48 * 2 ^ 16), (0x40, 1), (0x48, n.ntcount), (0x50, n.nthead), (0x58, n.ntlost)],
        hostRead s fn 2 (4096 * q + r.1) 8 = some (BitVec.ofNat 64 r.2)) ∧
      (∀ i j, i < 32 → j < 8 → hostRead s fn 2 (4096 * q + 0x800 + 64 * i + 8 * j) 8 = some (wAt (smGet [] n.area i) j))) ∧
    (∀ bar off bytes, bytes < 4 ∨ barBytes s fn bar ≤ off → hostRead s fn bar off bytes = some 0)

/-- R58, R76 and R77. A reply delivered in the step in which the host writes it (log 56), a scbase kept as it is written (log 79)
and the bits of sclog that are kept (log 61) are the model's choice. -/
def Sys2Proof.Claim.CallRingAndWindow : Prop :=
  ∀ s (fn : Nat) (v : BitVec 64), Up s fn →
    (∀ p ∈ [(Instr.scringConfig fn false v, modFn s fn fun f => { f with scbase := v, sctail := 0, schead := 0 }),
        (.scringConfig fn true v, modFn s fn fun f => { f with sclog := v, sctail := 0, schead := 0 }),
        (.scheadWrite fn v, modFn s fn fun f => { f with schead := v.toNat })],
      let f := getFn p.2 fn
      (f.held = [] → exec p.1 s = .next p.2) ∧
      (∀ t ws, f.held = [(t, ws)] → f.scbase ≠ 0 → 4 ≤ f.sclog.toNat % 32 → f.sclog.toNat % 32 ≤ 16 → f.sctail - f.schead < 2 ^ (f.sclog.toNat % 32) →
        exec p.1 s = .next (raiseReg (modFn (homeWriteL (modFn p.2 fn fun f => { f with held := [] })
          (0x4000000000000 + (f.scbase.toNat + 64 * (f.sctail % 2 ^ (f.sclog.toNat % 32))) % 2 ^ 48) (wordBytes ws)) fn
          fun f => { f with sctail := f.sctail + 1 }) fn f.scvec))) ∧
    (working s = false → exec (.syscallReply fn v) s = .next (modFn s fn fun f => { f with screply := smSet 0 f.screply 3 v })) ∧
    (working s = true →
     let w := fun i => smGet 0 (getFn s fn).screply i
     let t : Tid := { core := (w 0).toNat / 64 % 2048, slot := (w 0).toNat % 64 }
     let s1 := modFn s fn fun f => { f with screply := smSet 0 f.screply 3 v }
     let sl := getSlot s t
     (∀ f, (getCore s t.core).fwd.find? (fun f => f.old = t) = some f → f.new ≠ t → exec (.syscallReply fn v) s =
       .next (forwardTo s1 f (hskOf s (coreUnit t.core)) (if hskOf s (coreUnit t.core) = 0 then some s.tick.toNat else none) (.sysrep fn (w 1) (w 2) v))) ∧
     ((∀ f ∈ (getCore s t.core).fwd, f.old ≠ t) →
     (coreFn s t.core = fn → sl.uid.isSome = true → sl.wait = some .sysc → sl.res = none → sl.callSeq = w 1 → (getFn s fn).recMode = false →
       ((getFn s fn).halted = false → sl.halted = false → exec (.syscallReply fn v) s =
         .next (modSlot (regSet (regSet s1 t sl 4 (w 2)) t sl 5 v) t fun x => { x with wait := none, res := none })) ∧
       ((getFn s fn).halted = true ∨ sl.halted = true → exec (.syscallReply fn v) s = .next (modSlot s1 t fun x => { x with res := some (.words [w 2, v]) }))) ∧
     (coreFn s t.core ≠ fn ∨ sl.uid = none ∨ sl.wait ≠ some .sysc ∨ sl.res ≠ none ∨ sl.callSeq ≠ w 1 →
       exec (.syscallReply fn v) s = .next (modFn s1 fn fun f => { f with scLost := f.scLost + 1 })))) ∧
    (∀ i c r n : Nat, s.boot.done = true → (partition s fn)[i / 4]? = some c → r + n ≤ 0x60000000 → 1 ≤ n → n ≤ 8 →
      let key := (c * 4 + i % 4) * 0x80000000 + r
      exec (.hostWindowAccess fn (i * 0x60000000 + r) true n v) s =
        .next (storeAtHome s ((List.range n).map fun j => (key + j, BitVec.ofNat 8 (v.toNat / 256 ^ j)))) ∧
      exec (.hostWindowAccess fn (i * 0x60000000 + r) false n v) s =
        .next { markRead s key n with hostData := BitVec.ofNat 64 (memRead s.mem key n) }) ∧
    (∀ i r n : Nat, s.boot.done = true → 4 * (partition s fn).length ≤ i → r + n ≤ 0x60000000 → n ≤ 8 →
      exec (.hostWindowAccess fn (i * 0x60000000 + r) false n v) s = .next { s with hostData := 0 })

/-- Host registers, queues, the call ring and the window: the statements RegisterWriteResults, HostReadResults, QueueResults, CallRingAndWindow. -/
def Obligations.HostRegisterResults : Prop :=
  Claim.RegisterWriteResults ∧ Claim.HostReadResults ∧ Claim.QueueResults ∧ Claim.CallRingAndWindow

/-- R64 to R66 and R81. -/
def Obligations.LaunchResults : Prop :=
  ∀ s (fn q seq : Nat) (x : Entry),
    let e : EntryRef := { fn := fn, q := q, seq := seq }
    let n := getNq s fn q
    let ctx := n.ctx.getD 0
    let cls := partition s (getCtx s ctx).fn
    let stopped := fun (s : State) (st : Nat) => modEntry s e fun y => { y with start := true, live := 0, status := some st }
    (MayStart s e x → ∀ st, earlyStatus s n x = some st → exec (.entryStart fn q seq) s = .next (stopped s st)) ∧
    (MayStart s e x → earlyStatus s n x = none → (wAt x.ws 6).getLsbD 0 = false → (wAt x.ws 6).getLsbD 3 = false → (wAt x.ws 6).getLsbD 4 = false →
      ((∀ im ∈ (getCtx s ctx).images, im.handle ≠ (wAt x.ws 1).toNat % 2 ^ 32) → exec (.entryStart fn q seq) s = .next (stopped s 8)) ∧
      (∀ im a d, (getCtx s ctx).images.find? (fun i => i.handle = (wAt x.ws 1).toNat % 2 ^ 32) = some im → im.offs[(wAt x.ws 1).toNat / 2 ^ 32 % 2 ^ 16]? = some a →
        loadWords s none ctx a 1 = .ok [d] → descOk d = true → d.toNat / 2 ^ 16 % 2 ^ 16 ≤ (getCtx s ctx).spillK → 1 ≤ (wAt x.ws 3).toNat → (wAt x.ws 3).toNat ≤ 2 ^ 32 →
        ∃ t, exec (.entryStart fn q seq) s = .next t ∧
          (∀ j k, cls[j]? = some k → (getCl t k).inj = (getCl s k).inj ++ if j < (wAt x.ws 3).toNat then
            [{ kind := .roots e j cls.length (((wAt x.ws 3).toNat - j + cls.length - 1) / cls.length) (a + 8) (wAt x.ws 2) d, ctx := ctx, prio := BitVec.ofNat 2 ((wAt x.ws 4).toNat / 4), since := s.tick.toNat }] else []) ∧
          t.fns = (modEntry s e fun y => { y with start := true, live := (wAt x.ws 3).toNat }).fns ∧ t.mem = s.mem)) ∧
    (MayStart s e x → earlyStatus s n x = none → (wAt x.ws 6).getLsbD 4 = true →
      exec (.imageLoad fn q seq) s = .next (let r := loadImage s ctx ((wAt x.ws 1).toNat % 2 ^ 32) (wAt x.ws 2); stopped r.1 r.2)) ∧
    (∀ st, Admitted s e x → x.written = false → n.entries = [x] → n.compcnt = seq → seq < 2 ^ 64 → n.draining = false →
      (x.failed = some st ∨ (x.failed = none ∧ x.status = some st) ∨ (x.failed = none ∧ x.status = none ∧ x.start = true ∧ x.live = 0 ∧ st = 0)) →
      let rep := (wAt x.ws 6).getLsbD 1 = true ∧ n.compaddr ≠ 0
      let key := 0x4000000000000 + n.compaddr.toNat % 2 ^ 48
      let vec := n.qvec.toNat % 2 ^ 11
      ∃ t, exec (.entryComplete fn q seq) s = .next t ∧ (getNq t fn q).compcnt = seq + 1 ∧ (getNq t fn q).entries = [] ∧
        (rep → st < 256 → key + 8 ≤ 0x4000000000000 + 2 ^ 48 → memRead t.mem key 8 = seq % 2 ^ 48 + st * 2 ^ 48) ∧ (¬ rep → t.mem = s.mem) ∧
        ((wAt x.ws 6).getLsbD 2 = true → n.qvec.getLsbD 63 = false → vec < msixCount fn → (msixGet (getFn s fn) (2 * vec + 1)).getLsbD 32 = false → t.msix = s.msix ++ [(fn, vec)]) ∧
        ((wAt x.ws 6).getLsbD 2 = false → t.msix = s.msix))
/-! ### The fabrics -/

/-- R39 and R40. -/
def Sys2Proof.Claim.ArbitrationRule : Prop :=
  ∀ (tick : Nat) (ok : Packet → Bool) (q : List Packet),
    (∀ i r, arb tick ok q = some (i, r) → ∃ p, q[i]? = some p ∧ isHead q i p = true ∧ ok p = true ∧ r = effRank tick q p ∧
      ∀ (j : Nat) p', q[j]? = some p' → isHead q j p' = true → ok p' = true → r < effRank tick q p' ∨ (r = effRank tick q p' ∧ i ≤ j)) ∧
    (∀ (j : Nat) p, q[j]? = some p → isHead q j p = true → ok p = true → arb tick ok q ≠ none)

/-- R36 to R38. -/
def Sys2Proof.Claim.TickResults : Prop :=
  ∀ s,
    (∀ d, d < 4 → s.power.supplyOk = true → (getDie s d).inReset = false → (∀ e, e < d → (getDie s e).inReset = true) → exec .slackTick s = .next { s with driver := d, tick := s.tick + 1 }) ∧
    (s.power.supplyOk = false ∨ (∀ d, d < 4 → (getDie s d).inReset = true) → exec .slackTick s = .next s) ∧
    (∀ (k i : Nat) p, (getQ s k)[i]? = some p → exec (.packetLate k i) s = .next (setQ s k ((getQ s k).set i
      { p with late := if p.late.isSome then p.late else if p.slack ≤ s.tick.toNat - p.since then some (p.since + p.slack) else none })))

/-- R49 and R51. -/
def Sys2Proof.Claim.RouterResults : Prop :=
  ∀ s (r : Nat), r < 1280 →
    let used := fun (t : State) (n : Nat) => modRouter t n fun x => { x with st := 0, last := t.tick.toNat }
    (∀ (out net dir i : Nat) p, net < 2 → dieRuns s (r / 320) = true → (getRouter s r).st ≠ 1 → routerPick s r out net = some (dir, i) →
      (getQ s (qk 0 r dir net))[i]? = some p →
      let s0 := used (setQ s (qk 0 r dir net) (delAt (getQ s (qk 0 r dir net)) i)) r
      let s1 := if dir = 0 then refill s0 r net 32 else s0
      let p' := depart s.tick.toNat p
      (out = 0 → unitCl p.dst = r / 20 ∧ isSliceUnit p.dst = false →
        (homeRoom s p.dst net = true → exec (.routerForward r out net) s = .next (arrive s1 net p')) ∧
        (homeRoom s p.dst net = false → exec (.routerForward r out net) s = .next s)) ∧
      (out = 0 → ¬ (unitCl p.dst = r / 20 ∧ isSliceUnit p.dst = false) → exec (.routerForward r out net) s = .next (beamOut s1 (r / 320) (r / 20 % 16) p')) ∧
      (∀ n, out ≠ 0 → neighbour r out = some n → (getRouter s n).st ≠ 1 → routerRoom s n (opposite out) net p' = true →
        exec (.routerForward r out net) s = .next (pushQ (used s1 n) (qk 0 n (opposite out) net) p'))) ∧
    (∀ net, net < 2 → (∀ u, u ∈ routerUnits r → getQ s (qk 6 u 0 net) = []) → refill s r net 32 = s) ∧
    ((getRouter s r).st = 0 → (getRouter s r).last + (getRouter s r).idle ≤ s.tick.toNat →
      exec (.routerIdle r) s = .next (modRouter s r fun x => if flitWaits s r then { x with last := s.tick.toNat } else { x with st := 1 })) ∧
    ((getRouter s r).st = 1 → exec (.routerPowerdownDone r) s = .next (
      if flitWaits s r then refill (refill (used s r) r 0 32) r 1 32 else modRouter s r fun x => { x with st := 2 })) ∧
    ((getRouter s r).st = 1 → ∀ net, refill s r net 32 = s) ∧
    (∀ p, let d := meshExit (r / 20) p
      routeOut r p = if r % 4 < d % 4 then 2 else if d % 4 < r % 4 then 4 else if r % 20 / 4 < d % 20 / 4 then 3 else if d % 20 / 4 < r % 20 / 4 then 1 else 0)

/-- R46 to R48. -/
def Sys2Proof.Claim.TokenResults : Prop :=
  ∀ s (chan w : Nat), chan / 128 < 4 → chan % 128 < 80 → dieRuns s (chan / 128) = true →
    let t := getToken s chan
    let b := smGet 0 t.bids w
    ((∀ w, w < 18 → w ∈ t.seen) → exec (.tokenAtHome chan) s = .next (modToken s chan fun t =>
      { t with grant := t.bidder, bidder := 31, bid := 0xFFF, cnt := 0, rqStop := homeStop s chan 0, rsStop := homeStop s chan 1, seen := [] })) ∧
    ((∃ w, w < 18 ∧ w ∉ t.seen) → exec (.tokenAtHome chan) s = .next s) ∧
    (w < 18 → w ∉ t.seen → exec (.tokenAtWriter chan w) s = .next (modToken (tokenBid (tokenGrant s chan w) chan w) chan fun t => { t with seen := t.seen ++ [w] })) ∧
    (w ∈ t.seen → exec (.tokenAtWriter chan w) s = .next s) ∧
    (∀ (i : Nat) p, b ≠ 0 → t.grant = w →
      let net := (b - 1) / 2 ^ 28
      idxOf (fun p => bidName net p == b) (getQ s (qk 1 chan w net)) = some i → (getQ s (qk 1 chan w net))[i]? = some p →
      tokenGrant s chan w = chanPut (setQ (modToken s chan fun t => { t with bids := smSet 0 t.bids w 0, lost := smSet 0 t.lost w 0 })
        (qk 1 chan w net) (delAt (getQ s (qk 1 chan w net)) i)) chan net (depart s.tick.toNat p)) ∧
    (b ≠ 0 → t.grant ≠ w → tokenGrant s chan w = modToken s chan fun t => { t with bids := smSet 0 t.bids w 0, lost := smSet 0 t.lost w (smGet 0 t.lost w + 1) }) ∧
    (∀ (net i rank : Nat) p, writerPick s chan w t = some (net, i, rank) → (getQ s (qk 1 chan w net))[i]? = some p →
      let n := min (smGet 0 t.lost w) 63
      let sl := rank - 2 ^ 64
      let tie := t.cnt < n ∨ (n = t.cnt ∧ w < t.bidder)
      let wins := if 16 ≤ n then t.cnt < 16 ∨ tie else t.cnt < 16 ∧ (sl < t.bid ∨ (sl = t.bid ∧ tie))
      tokenBid s chan w = modToken s chan fun t =>
        { t with bids := smSet 0 t.bids w (bidName net p), bidder := if wins then w else t.bidder, bid := if wins then sl else t.bid, cnt := if wins then n else t.cnt })

/-- Routers and beam tokens: the statements RouterResults, TokenResults. -/
def Obligations.FabricRouteResults : Prop :=
  Claim.RouterResults ∧ Claim.TokenResults

/-- R11 to R13 and R45. A death notice is delivered to a die in reset; that is the model's choice (log 50). -/
def Sys2Proof.Claim.BridgeResults : Prop :=
  ∀ s (die port net i r : Nat) p, die < 4 → port < 2 → net < 2 → dieRuns s die = true →
    let nd := if port = 0 then die ^^^ 1 else die ^^^ 2
    let left := fun k => setQ s k (delAt (getQ s k) i)
    let p' := depart s.tick.toNat p
    let head := fun (ok : Packet → Bool) (k : Nat → Nat) (net : Nat) => arb s.tick.toNat ok (getQ s (k net))
    -- network net has the head (i, r), and the other network none that ranks before it
    let first := fun (ok : Packet → Bool) (k : Nat → Nat) =>
      head ok k net = some (i, r) ∧ (getQ s (k net))[i]? = some p ∧
        ∀ j q, head ok k (1 - net) = some (j, q) → if net = 1 then r ≤ q else r < q
    (∀ c, c < 16 → first (fun _ => true) (qk 1 (die * 128 + 80 + port * 16 + c) c) →
      exec (.bridgeForward die port c) s = .next (pushQ (left (qk 1 (die * 128 + 80 + port * 16 + c) c net)) (qk 2 die port net) p')) ∧
    (first (fun p => !(getDie s nd).inReset || unitDie p.dst == nd) (qk 2 die port) →
      ((getDie s nd).inReset = false ∨ isDeath p = true →
        (unitDie p.dst = nd → exec (.bridgeForward die port 16) s = .next (pushQ (left (qk 2 die port net)) (qk 1 (unitChan p.dst) (16 + port) net) p')) ∧
        (unitDie p.dst ≠ nd → exec (.bridgeForward die port 16) s = .next (pushQ (left (qk 2 die port net)) (qk 3 nd 1 net) p'))) ∧
      ((getDie s nd).inReset = true → isDeath p = false → exec (.bridgeForward die port 16) s = .next (answerLost (left (qk 2 die port net)) p'))) ∧
    (head (fun _ => true) (qk 3 die port) net = some (i, r) → (getQ s (qk 3 die port net))[i]? = some p →
      (∀ j q y, head (fun _ => true) (qk 3 die port) (1 - net) = some (j, q) → (getQ s (qk 3 die port (1 - net)))[j]? = some y →
        r < q ∨ (r = q ∧ if net = 0 then p.since ≤ y.since else p.since < y.since)) →
      exec (.directPathForward die (1 - port) port) s = .next (pushQ (left (qk 3 die port net)) (qk 2 die port net) p'))

/-- Arbitration, slack ticks and the bridges between dies: the statements ArbitrationRule, TickResults, BridgeResults. -/
def Obligations.FabricTimeResults : Prop :=
  Claim.ArbitrationRule ∧ Claim.TickResults ∧ Claim.BridgeResults

/-! ### Homes -/

/-- R7, R52, R53 and R210. One order of the coordinate operations of a partition is the model's choice (log 37). -/
def Sys2Proof.Claim.HomeServes : Prop :=
  ∀ (unit : Nat) s,
    let k := qk 5 unit 0 0
    (∀ r ∈ [(Instr.homePerform unit, 0), (.syncAccessAtOwner unit, 1), (.withdrawal unit, 2), (.barArrival unit, 3), (.parkAtHome unit, 4), (.lnextClaim unit, 5),
        (.joinUpdate unit, 6), (.resumeCellOp unit, 7), (.beadRequest unit, 8), (.sparkClaim unit, 9), (.beadCompletion unit, 10), (.beadCompletionPoisoned unit, 11),
        (.beadEngineFault unit, 12), (.operandFailure unit, 13), (.deathNotice unit, 14)], ∀ (i : Nat) p,
      dieRuns s (unitDie unit) = true → homeArb s unit = some i → (getQ s k)[i]? = some p → homeKind p.body = some r.2 →
      let t := (members p).foldl (fun s m => perform s unit m) (setQ s k (delAt (getQ s k) i))
      exec r.1 s = .next (if isCoreUnit unit then retest t (unitCore unit) else t)) ∧
    (∀ (i : Nat) p, (getQ s (qk 4 unit 0 0)).zipIdx.find? (fun e => isHead (getQ s (qk 4 unit 0 0)) e.2 e.1 && (homeKind e.1.body).isSome &&
        !((getDie s (unitDie unit)).inReset && isDeath e.1)) = some (p, i) →
      let s1 := setQ s (qk 4 unit 0 0) (delAt (getQ s (qk 4 unit 0 0)) i)
      let n := (getHome s unit).arrivals
      let s2 := modHome s1 unit fun h => { h with arrivals := n + 1 }
      let p' := { depart s.tick.toNat p with arr := n }
      ((getDie s (unitDie unit)).inReset = true → exec (.homeEnqueue unit 0) s = .next (answerLost s1 (depart s.tick.toNat p))) ∧
      (dieRuns s (unitDie unit) = true → (getQ s k).length < 32 → (getFn s (unitFn s unit)).replay = false →
        (joinAt (getQ s k) p' = none → exec (.homeEnqueue unit 0) s = .next (setQ s2 k (getQ s k ++ [p']))) ∧
        (∀ j e, joinAt (getQ s k) p' = some j → (getQ s k)[j]? = some e →
          exec (.homeEnqueue unit 0) s = .next (setQ s2 k (delAt (getQ s k) j ++ [{ p' with arr := e.arr, peers := e.peers ++ [memberOf e] }]))))) ∧
    (∀ j c sr a, (getFn s (unitFn s unit)).replay = true → (getHome s unit).free = false → (getHome s unit).lastRep + 65536 ≤ s.tick.toNat →
      (∀ p ∈ waitingAt s unit, ¬ (p.cls = c ∧ pktSrc s p = sr ∧ agentAddr s unit p = some a)) →
      (replayHead s unit 0 = some (j, c, sr, a) ∨
        (replayHead s unit 0 = none ∧ (∃ p ∈ waitingAt s unit, p.cls = 5) ∧ replayHead s unit 5 = some (j, c, sr, a) ∧
          (getFn s (unitFn s unit)).rep5At + 65536 ≤ s.tick.toNat)) →
      let t := diverge s unit a c sr
      exec (.replayTimeout unit) s = .next (afterHome t unit) ∧ (getFn t (unitFn s unit)).diverged = true ∧ (getHome t unit).free = true)

/-- R203, R303, R308, R312 and R313. -/
def Sys2Proof.Claim.HomeMemory : Prop :=
  ∀ s (unit : Nat) p,
    let s1 := noteOf s unit p
    let out := fun (t : State) (c : Nat) (r : Ret) (x : Res) => perform s unit p = reply t c unit p r x
    let n64 := BitVec.ofNat 64
    (∀ k n t u va, p.body = .load k n (.thread t u va) → n ≤ 8 →
      (eccStatus s1 k n = 0 → out s1 16 (.thread t u va) (.words [n64 (memRead s1.mem k n)])) ∧
      (eccStatus s1 k n = 1 → out (markRead s1 k n) 16 (.thread t u va) (.fault 0x18 va)) ∧
      (eccStatus s1 k n = 2 → out s1 16 (.thread t u va) (.fault 0x14 va))) ∧
    (∀ c r, p.body = .store c r → out (storeAtHome s1 c) 17 r .ok) ∧ (∀ c m r, p.body = .put c m r → out (putAtHome s1 c m) 17 r .ok) ∧
    (∀ fn k y x r, p.body = .amo fn k y x r → fn.toNat < 10 →
      let m := n64 (memRead s1.mem k 8)
      (eccStatus s1 k 8 = 0 → out (homeWrite s1 k 8 (amoNew fn.toNat m y x).toNat) 16 r (.words [m])) ∧
      (eccStatus s1 k 8 = 1 → out (markRead s1 k 8) 16 r (.fault 0x18 (retVa r))) ∧ (eccStatus s1 k 8 = 2 → out s1 16 r (.fault 0x14 (retVa r)))) ∧
    (∀ fn k y x r, p.body = .amo fn k y x r →
      (fn = 12 → out s1 16 r (.words [n64 (bit (s1.full.contains (k / 4)))])) ∧
      (fn = 13 ∨ fn = 14 → out (setFullAt s1 k 4 (decide (fn = 13))) 16 r (.words [n64 (bit (s1.full.contains (k / 4)))]))) ∧
    (∀ op, p.body = .sync op →
      let full := ∀ w ∈ feWords op.key op.bytes, w ∈ s.full
      let empty := ∀ w ∈ feWords op.key op.bytes, w ∉ s.full
      let parked := perform s unit p = modHome s unit fun h => { h with parked := h.parked ++
        [{ kind := .sync op, key := op.key, deadline := some (s.tick.toNat + op.limit), src := p.src, slack := slackLeft s.tick.toNat p, late := lateAge s.tick.toNat p }] }
      (op.kind ≤ 1 → full → eccStatus s1 op.key op.bytes = 0 →
        out (if op.kind = 1 then setFull s1 op.key op.bytes false else s1) 16 op.ret (.words [n64 (memRead s1.mem op.key op.bytes)])) ∧
      (op.kind ≤ 1 → ¬ full → parked) ∧ (op.kind = 2 → ¬ empty → parked) ∧
      ((op.kind = 2 ∧ empty) ∨ op.kind = 3 → out (setFull (homeWrite s1 op.key op.bytes op.data.toNat) op.key op.bytes true) 17 op.ret .ok)) ∧
    (∀ k r u x, p.body = .withdraw k r → retUid r = some u →
      (getHome s1 unit).parked.find? (fun x => (match x.kind with | .park _ _ _ _ _ => false | _ => true) && x.src == p.src && (retUid r).isSome && parkedUid x == retUid r) = some x →
      out (unpark s1 unit x) 16 r .withdrawn) ∧
    (∀ k n mc parts r, p.body = .lnext k n mc parts r → eccStatus s1 k 8 = 0 → parts ≠ 0 →
      let c := memRead s1.mem k 8
      let chunk := min (n - c) (max (max mc 1) ((n - c + parts - 1) / parts))
      out (homeWrite s1 k 8 (c + chunk)) 16 r (.words [n64 c, n64 chunk]))

/-- Homes: enqueueing, serving and memory operations: the statements HomeServes, HomeMemory. -/
def Obligations.HomeAccessResults : Prop :=
  Claim.HomeServes ∧ Claim.HomeMemory

/-- R308 to R318 and R354 to R357. -/
def Obligations.HomeWaits : Prop :=
  ∀ s (unit : Nat) p,
    let s1 := noteOf s unit p
    let out := fun (t : State) (r : Ret) (x : Res) => reply t 16 unit p r x
    let word := fun k => memRead s1.mem k 8
    let park := fun (t : State) (kind : ParkKind) (k wl : Nat) => modHome t unit fun h => { h with parked := h.parked ++
      [{ kind := kind, key := k, deadline := if wl = 0 then none else some (s.tick.toNat + wl), src := p.src, slack := slackLeft s.tick.toNat p, late := lateAge s.tick.toNat p }] }
    (∀ k n wl r, p.body = .bar k n wl r →
      let s1 := markRead s1 k 8
      let phase := word k / 2 ^ 48
      let c := word k / 2 ^ 32 % 2 ^ 16
      let a := word k % 2 ^ 16
      let bad := word k / 2 ^ 16 % 2 ^ 16 ≠ 0 ∨ (c = 0 ∧ a ≠ 0)
      let size := if a = 0 then n else c
      (bad → perform s unit p = out s1 r (.fault 0x12 (retVa r))) ∧
      (¬ bad → a ≠ 0 → n ≠ c → perform s unit p = out s1 r (.fault 0x08 (retVa r))) ∧
      (¬ bad → a = 0 ∨ n = c → a + 1 ≠ size → perform s unit p = homeWrite (park s1 (.bar n r) k wl) k 8 (phase * 2 ^ 48 + size * 2 ^ 32 + (a + 1))) ∧
      (¬ bad → a = 0 ∨ n = c → a + 1 = size → (∀ x ∈ (getHome s1 unit).parked, x.key ≠ k) →
        perform s unit p = homeWrite (out s1 r .ok) k 8 ((phase + 1) % 2 ^ 16 * 2 ^ 48)) ∧
      (∀ m r' x, ¬ bad → n = c → a + 1 = size → (getHome s1 unit).parked = [x] → x.kind = .bar m r' → x.key = k →
        perform s unit p = homeWrite (out (parkedReply (modHome s1 unit fun h => { h with parked := [] }) unit 16 x r' .ok) r .ok) k 8 ((phase + 1) % 2 ^ 16 * 2 ^ 48))) ∧
    (∀ k e wl u ctx a pc r, p.body = .park k e wl u ctx a pc r →
      let s1 := markRead s1 k 8
      (BitVec.ofNat 64 (word k) ≠ e → perform s unit p = out s1 r .ok) ∧
      (BitVec.ofNat 64 (word k) = e → perform s unit p = out (park s1 (.park e u ctx a pc) k wl) r .waits)) ∧
    (∀ k r, p.body = .joinInc k r → perform s unit p = out (homeWrite s1 k 8 (word k + 1)) r .ok) ∧
    (∀ k a u r, p.body = .joinSync k a u r → (word k = 0 → perform s unit p = out s1 r .ok) ∧
      (word k ≠ 0 → perform s unit p = out (homeWrite s1 (k + 8) 8 a.toNat) r .waits)) ∧
    (∀ k ctx, p.body = .joinRet k ctx → (1 < word k → perform s unit p = homeWrite s1 k 8 (word k - 1 + 2 ^ 64)) ∧
      (word k = 1 →
        let t := homeWrite s1 k 8 (2 ^ 64)
        let a := BitVec.ofNat 64 (memRead t.mem (k + 8) 8)
        perform s unit p = if a = 0 then t else enqueueRec (homeWrite t (k + 8) 8 0) unit ctx a)) ∧
    (∀ k kr ws u ctx r, p.body = .susp (k, kr) ws u ctx r → cellBad (markRead s1 k 64) k = false →
      let s1 := markRead s1 k 64
      (word k = 2 → perform s unit p = out (homeWrite s1 k 8 0) r (.words [BitVec.ofNat 64 (word (k + 8))])) ∧
      (word k = 0 → perform s unit p = out (noteRec (homeWrite (homeWriteL s1 kr (wordBytes ws)) k 8 1) (cellTag ctx) (BitVec.ofNat 64 kr) u) r .waits) ∧
      (word k = 1 → perform s unit p = out s1 r (.fault 0x08 (retVa r)))) ∧
    (∀ k kr v ctx r, p.body = .resume (k, kr) v ctx r → cellBad (markRead s1 k 64) k = false →
      let s1 := markRead s1 k 64
      (word k = 0 → perform s unit p = out (homeWrite (homeWrite s1 k 8 2) (k + 8) 8 v.toNat) r (.words [0])) ∧
      (word k = 2 → perform s unit p = out (homeWrite s1 (k + 8) 8 v.toNat) r (.words [2])) ∧
      (word k = 1 →
        let ws := (List.range 8).map fun i => BitVec.ofNat 64 (memRead s1.mem (kr + 8 * i) 8)
        let t := homeWrite (markRead s1 kr 64) k 8 0
        (fld (wAt ws 1) 31 16 ≠ ctx → perform s unit p = out s1 r (.fault 0x08 (retVa r))) ∧
        (∀ u, fld (wAt ws 1) 31 16 = ctx → eccStatus s1 kr 64 = 0 → recUid t (cellTag ctx) (BitVec.ofNat 64 kr) = some u →
          perform s unit p = sendEnqueue (out (modCont t u fun c => { c with a0 := some v }) r (.words [1])) unit u (.held ws)))) ∧
    (∀ (i : Nat) x, (getHome s unit).parked[i]? = some x → ∀ d, x.deadline = some d → d ≤ s.tick.toNat →
      let gone := unpark s unit x
      (∀ op, x.kind = .sync op → exec (.syncDeadline unit i) s = .next (parkedReply gone unit (if op.kind = 2 ∨ op.kind = 3 then 17 else 16) x op.ret (.fault 0x09 op.va))) ∧
      (∀ n r, x.kind = .bar n r → exec (.barDeadline unit i) s = .next (parkedReply gone unit 16 x r (.fault 0x0A 0))) ∧
      (∀ e u ctx a pc, x.kind = .park e u ctx a pc → exec (.parkDeadline unit i) s =
        .next (sendEnqueue (modCont gone u fun k => { k with deliv := some (.failAt 0x0A 0 pc) }) unit u (.mem a))))

/-- R109. What the model chose in the table's open places is in log 35. -/
def Sys2Proof.Claim.BeadTable : Prop :=
  ∀ s (unit : Nat) p b op wl wc cont r, p.body = .bead b op wl wc cont r →
    let s1 := noteOf s unit p
    let w0 := BitVec.ofNat 64 (memRead s1.mem b.key 8)
    let w := fun i => BitVec.ofNat 64 (memRead s1.mem (b.key + 8 * i) 8)
    let st := w0.toNat % 16
    let ok := w0.toNat / 2 ^ 50 = 0 ∧ w0.toNat / 16 % 16 = 0 ∧ st < 6
    let out := fun (t : State) (x : Res) => reply t 18 unit p r x
    let is := fun (t : State) => perform s unit p = t
    (¬ ok → bdAsked op = true → is (out s1 (.fault 0x12 b.handle))) ∧
    (ok → ∀ f, op = .force f →
      let waiter := waiterOf s1 b p false f wl wc cont r
      (st = 0 → is (out s1 (.fault 0x08 b.handle))) ∧ (st = 1 → is (appendWaiter (out (bdClaim s1 unit b f true) .waits) unit b.key waiter)) ∧
      (st = 2 → w 2 ≠ f → is (sendEdge (demandTask (appendWaiter (out s1 .waits) unit b.key waiter) unit b.key) unit f (w 2) b)) ∧
      (st = 2 → w 2 = f → chainSpark s1 f = false → is (out s1 (.fault 0x0B b.handle))) ∧
      (st = 2 → w 2 = f → chainSpark s1 f = true → is (bdFail (out s1 (.fault 0x0B b.handle)) unit b 0x0B)) ∧
      (st = 3 → is (out s1 (.value (w 1) false 0))) ∧ (st = 5 → is (out s1 (.value (w 1) true 0))) ∧ (st = 4 → is (out s1 (.fault ((w 2).setWidth 8) b.handle)))) ∧
    (ok → ∀ f, op = .hwait f →
      (st = 0 → is (out s1 (.fault 0x08 b.handle))) ∧ (st = 1 ∨ st = 2 → is (appendWaiter (out s1 .waits) unit b.key (waiterOf s1 b p true f wl wc cont r))) ∧
      (st = 3 → is (out s1 (.value (w 1) false 0))) ∧ (st = 5 → is (out s1 (.value (w 1) true 0))) ∧ (st = 4 → is (out s1 (.fault ((w 2).setWidth 8) b.handle)))) ∧
    (ok → op = .spark →
      (st = 0 → is (out s1 (.fault 0x08 b.handle))) ∧ (2 ≤ st → is (out s1 .ok)) ∧
      (st = 1 → is (out (modCl s1 (unitCl unit) fun x => if x.sparks.length < 1024 then { x with sparks := x.sparks ++ [b] } else { x with sdrop := x.sdrop + 1 }) .ok))) ∧
    (ok → ∀ ws sub, op = .suspend ws sub → (st = 0 → is (out (bdSubmit s1 b ws sub) .ok)) ∧ (st ≠ 0 → is (out s1 (.fault 0x08 b.handle)))) ∧
    (ok → ∀ ws sub c, op = .tenq ws sub c → (st = 0 → is (out (bdClaim (bdSubmit s1 b ws sub) unit b c true) .ok)) ∧ (st ≠ 0 → is (out s1 (.fault 0x08 b.handle)))) ∧
    (ok → ∀ v, op = .hbind v →
      let bound := setSub (bdPut (bdPut (bdPut s1 b.key 0 (BitVec.ofNat 64 (w0.toNat / 2 ^ 8 % 2 ^ 40 * 2 ^ 8 + 3))) b.key 1 v) b.key 2 0) b.key {}
      (st = 0 ∨ st = 4 → is (out bound .ok)) ∧ (st = 1 → is (wakeAll (out bound .ok) unit b.key (.value v false 0))) ∧
      (st = 2 ∨ st = 3 ∨ st = 5 → is (out s1 (.fault 0x08 b.handle)))) ∧
    (ok → op = .hdrop →
      (st = 2 → is (out s1 (.fault 0x08 b.handle))) ∧ (st = 1 → is (wakeAll (out (bdFree s1 b.key) .ok) unit b.key (.fail 0x0E b.handle))) ∧
      (st = 0 → is (out s1 .ok)) ∧ (3 ≤ st → is (out (bdFree s1 b.key) .ok))) ∧
    (ok → op = .hstat → is (out s1 (.words [w0]))) ∧
    (ok → ∀ c, op = .claim c → (st = 1 → is (out (bdClaim s1 unit b c false) .ok)) ∧ (st ≠ 1 → is (out (sparkEnd s1 c b.key) .ok))) ∧
    (ok → st ≠ 2 → (bdAsked op = false → is s1)) ∧
    (ok → st = 2 → ∀ v f, (op = .completion v f ∨ op = .poisoned v f) →
      let bad := decide (op = .poisoned v f)
      let t := leaveClaimed s1 unit b.key .done f false
      is (wakeAll (bdPut (bdPut (bdPut t b.key 0 (bdW0 (bdWord t b.key 0) (if bad then 5 else 3) bad)) b.key 1 v) b.key 2 0) unit b.key (.value v bad f))) ∧
    (ok → st = 2 → ∀ c, (op = .engFault c ∨ (op = .death ∧ c = 0x0E)) → is (bdFail s1 unit b c)) ∧
    (ok → st = 2 → ∀ c h, op = .opFail c h → (w 3 = 0) →
      let t := leaveClaimed s1 unit b.key (.faulted c) 0 true
      is (bdPut (bdPut t b.key 0 (bdW0 (bdWord t b.key 0) 1 (bitAt (bdWord t b.key 0) 49))) b.key 2 0))

/-- R108, R110 and R111. That an edge whose wait has ended is dropped, and that the chain whose root finds the cycle fails with the handle
of its own recorded wait, are the model's choice (log 35). -/
def Sys2Proof.Claim.ChainResults : Prop :=
  (∀ s (cl i unit : Nat) w, (getCl s cl).waiters.find? (fun w => w.1 == i) = some (i, w) → homeOf w.bead = some unit → unitCl unit = cl → w.deadline ≠ 0 → w.deadline ≤ s.tick.toNat →
    exec (.waiterDeadline cl i) s = .next (wakeOne (dropWaiter s unit w.bead i) unit w (.fail 0x0A 0))) ∧
  (∀ s (cl : Nat) p s1,
    let u := coreUnit (svcCore cl)
    let ask := fun (t : State) (a b : Word) (hops : Nat) => send t 4 (getCl t (unitCl u)).hsk.toNat u (coreUnit (svcCore (chainRoot b))) (.wfcQuery a b hops cl)
    (∀ a b h bead, takeArrived s u 0 (fun p => match p.body with | .wfcEdge a _ _ _ => wfcRoom s cl a | _ => false) = some (p, s1) → p.body = .wfcEdge a b h bead →
      (forcersOf s1 bead a ≠ [] → exec (.wfcEdge cl) s = .next (ask (modCl s1 cl fun c =>
        { c with wfc := (c.wfc.filter fun w => w.chain != a) ++ [{ chain := a, on := some b, handle := h, bead := bead }] }) a b 1)) ∧
      (forcersOf s1 bead a = [] → exec (.wfcEdge cl) s = .next s1)) ∧
    (∀ a b hops start, takeArrived s u 0 (fun p => match p.body with | .wfcQuery _ _ _ _ => true | _ => false) = some (p, s1) → p.body = .wfcQuery a b hops start →
      let e := (getCl s1 cl).wfc.find? fun w => w.chain == b
      exec (.wfcQuery cl) s = .next (Machine.answer s1 18 u p (.wfcReply a (e.bind (·.on)) ((e.map (·.bead)).getD {}) hops))) ∧
    (∀ a x bead hops e, takeArrived s u 1 (fun p => match p.body with | .wfcReply _ _ _ _ => true | _ => false) = some (p, s1) → p.body = .wfcReply a x bead hops →
      let s2 := platCount s1 cl p
      (getCl s1 cl).wfc.find? (fun w => w.chain == a) = some e → e.on.isSome = true →
      (x = none → exec (.wfcQueryReply cl) s = .next s2) ∧
      (∀ c, x = some c → c ≠ a → hops < 8 → exec (.wfcQueryReply cl) s = .next (ask s2 a c (hops + 1))) ∧
      (∀ c, x = some c → c ≠ a → 8 ≤ hops → exec (.wfcQueryReply cl) s = .next s2) ∧
      (∀ unit, x = some a → chainSpark s2 a = false → homeOf e.bead.key = some unit → exec (.wfcQueryReply cl) s =
        .next ((forcersOf s2 e.bead e.chain).foldl (fun s w => wakeOne (dropWaiter s unit e.bead.key w.1) unit w.2 (.fail 0x0B (e.handle ||| 1))) s2))))

/-- The bead table and demand chains: the statements BeadTable, ChainResults. -/
def Obligations.BeadTableResults : Prop :=
  Claim.BeadTable ∧ Claim.ChainResults

/-! ### Arrivals at cores -/

/-- R42, R43, R95, R106 and R168. The addresses that lateness counts with, the retry of a withdrawn access and the wake that finds no
wait are the model's choice (logs 38 and 85). -/
def Sys2Proof.Claim.ReplyResults : Prop :=
  (∀ s (u : Nat) p s1, takeArrived s u 1 isReply = some (p, s1) →
    (∀ t id va r, p.body = .reply (.thread t id va) r →
      let sl := getSlot s1 t
      let s2 := lateCounted s1 t p va
      let ready := fun (t' : State) (x : Option Res) => exec (.replyDeliver u) s = .next (modSlot t' t fun sl => { sl with wait := none, res := x, wdrawn := false, coordHit := none, toUnit := none })
      (sl.uid ≠ some id → exec (.replyDeliver u) s = .next s1) ∧
      (sl.uid = some id → sl.wait = some .reply → sl.res = none →
        (r ≠ .withdrawn → (∀ v c, r ≠ .coord v (some c)) → ready s2 (some r)) ∧
        (r = .withdrawn → exec (.replyDeliver u) s = .next (modSlot s2 t fun sl => { readied sl with ring := sl.ring.filter fun r => ¬ (r.pc = sl.pc ∧ r.st = .pending) })) ∧
        (∀ v ctx g tile fr gen, r = .coord v (some (ctx, g, tile, fr, gen)) →
          let seen := smGet 0 (getCore s2 t.core).clbGen (unitCl p.src)
          (seen ≤ gen → ready (clbInstall s2 t.core ctx g tile fr) (some r)) ∧
          (gen < seen → ready s2 none)))) ∧
    (∀ t id n m va r, p.body = .reply (.access t id n m va) r → (getSlot s1 t).uid = some id →
      let s2 := lateCounted s1 t p va
      (2 ^ 40 ≤ n → exec (.replyDeliver u) s = .next (setRing s2 t (BitVec.ofNat 32 (n - 2 ^ 40)) (match r with | .fault c _ => .faulted c | _ => .done))) ∧
      (∀ i, n < 2 ^ 40 → (getSlot s1 t).infl.find? (fun i => i.id == n) = some i → i.op = 0 ∨ 2 ^ 32 ≤ i.op →
        let s3 := modSlot s2 t fun sl => { sl with infl := sl.infl.filter fun x => x.id ≠ n }
        exec (.replyDeliver u) s = .next (match i.tick with | some (tl, k) => completeTicket s3 t tl k (match r with | .fault c _ => some c | _ => none) | none => s3))) ∧
    (∀ t id seq st f va, p.body = .ringDone t id seq st f va → (getSlot s1 t).uid = some id → exec (.replyDeliver u) s = .next (orFlags (setRing (lateCounted s1 t p va) t seq st) t f))) ∧
  (∀ s (core : Nat) p s1 w d, takeArrived s (coreUnit core) 1 (fun p => match p.body with | .wake _ _ => true | _ => false) = some (p, s1) → p.body = .wake w d →
    let s2 := if w.kind = 0 then wfcFree s1 w.chain else s1
    (∀ t v, w.kind ≠ 2 → w.carry = false → w.ret = .thread t w.uid v →
      ((getSlot s2 t).uid = some w.uid → (getSlot s2 t).demand = some w.handle →
        exec (.wakeDeliver core) s = .next (modSlot (lateCounted s2 t p w.handle) t fun sl => { sl with deliv := some d, wait := none, toUnit := none })) ∧
      ((getSlot s2 t).uid ≠ some w.uid → (getCont s2 w.uid).alive = true → (getCont s2 w.uid).bead = some w.handle → p.late = none →
        exec (.wakeDeliver core) s = .next (sendEnqueue (modCont s2 w.uid fun k => { k with deliv := some d, bead := none }) (coreUnit core) w.uid (.mem w.cont))) ∧
      ((getSlot s2 t).demand ≠ some w.handle → (getCont s2 w.uid).bead ≠ some w.handle → exec (.wakeDeliver core) s = .next s2)) ∧
    (∀ cl key, w.kind = 2 → w.ret = .task cl key → p.late = none → exec (.wakeDeliver core) s = .next (operandGot s1 cl key d)) ∧
    (∀ c, w.kind ≠ 2 → w.carry = true → p.late = none → (getCl s2 (coreCl core)).carries.find? (fun c => c.uid == w.uid) = some c →
      exec (.wakeDeliver core) s = .next (modCl (modCont s2 w.uid fun k => { k with deliv := some d }) (coreCl core) fun x =>
        { x with inj := x.inj ++ [{ kind := .cont w.uid (.held c.ws), ctx := c.ctx, prio := recPrio c.ws, resumed := true, since := s.tick.toNat }] }))) ∧
  (∀ s (core slot : Nat),
    let t : Tid := { core := core, slot := slot }
    (getSlot s t).csr.lateDue = true → mayIssue s t = true → midway (getSlot s t) = false →
    exec (.lateTrap core slot) s = .next (takeTrap (modCsr s t fun c => { c with lateTval := none, lateDue := false }) t 0x16 ((getSlot s t).csr.lateTval.getD 0) (getSlot s t).pc))

/-- R68, R151 to R156 and R169. Which accesses hold a shoot-down's acknowledgement back is the model's choice (log 31), and so is the
aperture of a TLBW record (log 75). -/
def Sys2Proof.Claim.TranslationResults : Prop :=
  (∀ s (cl : Nat) p s1 va kind t ctx core, clRuns s cl = true →
    takeArrived s (coreUnit (svcCore cl)) 0 (fun p => match p.body with | .xlat _ _ _ _ _ => true | _ => false) = some (p, s1) → p.body = .xlat va kind t ctx core →
    let out := fun (ws : List Word) (st : BitVec 8) => exec (.translationRequest cl) s =
      .next (inject s1 { cls := 20, slack := slackLeft s1.tick.toNat p, late := lateAge s1.tick.toNat p, src := coreUnit (svcCore cl), dst := p.src, body := .xrep va kind t ctx ws st (getCl s1 cl).gen })
    (∀ e, walk s1 ctx va.toNat = .ok e → out [e.w0, e.w1, e.w2] 0) ∧ (∀ c, walk s1 ctx va.toNat = .error c → out [0, 0, 0] c)) ∧
  (∀ s (core : Nat) p s1 va kind t ctx ws st gen,
    takeArrived s (coreUnit core) 1 (fun p => match p.body with | .xrep _ _ _ _ _ _ _ => true | _ => false) = some (p, s1) → p.body = .xrep va kind t ctx ws st gen → p.late = none →
    let page := va.toNat / 4096
    let e : TlbEnt := { w0 := wAt ws 0, w1 := wAt ws 1, w2 := wAt ws 2 }
    let filled := modCore s1 core fun c => { c with tlb := smSet {} (c.tlb.filter fun x => !pagesMeet x.2 e) c.tlbNext e, tlbNext := (c.tlbNext + 1) % 256 }
    let one := fun (n : Nat) => n == page
    let hit := fun (n : Nat) => n == page || entHit e ctx (n * 4096)
    (gen < (getCore s1 core).tlbGen → exec (.translationReply core) s = .next (missDone (engFill s1 core ctx one fun x _ => x) core ctx one none)) ∧
    ((getCore s1 core).tlbGen ≤ gen → st = 0 → exec (.translationReply core) s =
      .next (missDone (engFill filled core ctx hit fun x _ => { x with ents := x.ents ++ [e] }) core ctx hit none)) ∧
    ((getCore s1 core).tlbGen ≤ gen → st ≠ 0 → exec (.translationReply core) s =
      .next (missDone (engFill s1 core ctx one fun x n => { x with flts := x.flts ++ [(n, st)] }) core ctx one (some (st, va))))) ∧
  (∀ s (core ctx : Nat) (hit : Nat → Bool) xf (t : Tid),
    let sl := getSlot s t
    t ∈ ((getCore s core).misses.filter fun m => m.ctx == ctx && hit m.page).flatMap (·.ts) → sl.uid.isSome = true → sl.ctx = ctx → sl.wait = some .miss →
    getSlot (missDone s core ctx hit xf) t = { sl with wait := none, xf := sl.xf ++ xf.toList }) ∧
  (∀ s (core : Nat) p s1,
    let u := coreUnit core
    (∀ va ctx pages all gen cl, takeArrived s u 0 (fun p => match p.body with | .tlbi _ _ _ _ _ _ => true | _ => false) = some (p, s1) → p.body = .tlbi va ctx pages all gen cl →
      let upd := fun (t : State) => tlbiTake t core gen (tlbiHits va ctx pages all)
      let busy := (∃ x ∈ (getCore s1 core).slots, x.2.uid.isSome = true ∧ (all = true ∨ x.2.ctx = ctx) ∧ slotBusy x.2 = true) ∨ joinUnder s core ctx all = true ∨ commitUnder s core ctx all = true
      (¬ busy → exec (.tlbShootdown core) s = .next (replied (upd s1) 20 u p (.shoot cl gen) .ok)) ∧ (busy → exec (.tlbShootdown core) s = .next (upd s))) ∧
    (∀ ctx g tile gen cl, takeArrived s u 0 (fun p => match p.body with | .clbi _ _ _ _ _ => true | _ => false) = some (p, s1) → p.body = .clbi ctx g tile gen cl →
      let upd := fun (t : State) => modCore t core fun c => { c with
        clb := c.clb.filter fun e => !(e.2.valid && e.2.ctx == ctx && e.2.region == g && (match tile with | some t => e.2.tile == t | none => true))
        clbGen := smMod 0 c.clbGen cl fun x => max x gen }
      let busy := ∃ x ∈ (getCore s1 core).slots, x.2.uid.isSome = true ∧ x.2.ctx = ctx ∧ x.2.coordHit = some g
      (¬ busy → exec (.clbShootdown core) s = .next (replied (upd s1) 20 u p (.shoot cl gen) .ok)) ∧ (busy → exec (.clbShootdown core) s = .next (upd s)))) ∧
  (∀ s (core gen : Nat) (hits : TlbEnt → Bool),
    let c := getCore s core
    let c' := getCore (tlbiTake s core gen hits) core
    c'.tlb = c.tlb.filter (fun e => !hits e.2) ∧ c'.tlbGen = max c.tlbGen gen ∧ ∀ g ∈ c'.eng, ∀ e ∈ g.tr.ents, hits e = false) ∧
  (∀ s (cl : Nat) p s1 n, (getCl s cl).notices.length < 256 →
    takeArrived s (coreUnit (svcCore cl)) 1 (fun p => match p.body with | .notice _ => true | _ => false) = some (p, s1) → p.body = .notice n →
    exec (.noticeDeliver cl) s = .next (modCl (platCount s1 cl p) cl fun c => { c with notices := c.notices ++ [n] })) ∧
  (∀ s (cl : Nat) n, (getCl s cl).npost = some n →
    exec (.npostWrite cl) s = .next (postNotice (modCl s cl fun c => { c with npost := none }) (coreUnit (svcCore cl)) n (partition s (getCtx s n.ctx).fn)))

/-- Translation: TLBW, TLBI, misses, replies and shoot-downs: the statements TranslationMaintenance, TranslationResults. -/
def Obligations.TranslationRules : Prop :=
  Claim.TranslationMaintenance ∧ Claim.TranslationResults

/-- R124, R133, R134 and R202. -/
def Sys2Proof.Claim.PortDeliveries : Prop :=
  (∀ s (core : Nat) p s1,
    let u := coreUnit core
    (∀ t m v r, takeArrived s u 0 (msgReady s) = some (p, s1) → p.body = .msg t m v r → r ≠ .none → (getFn s1 (unitFn s1 u)).recMode = false → (getFn s1 (unitFn s1 u)).replay = false →
      ((getSlot s1 t).ports = true → (getSlot s1 t).uid.isSome = true ∨ (getSlot s1 t).resv.isSome = true →
        exec (.messageArrival core) s = .next (replied (modSlot s1 t fun sl => { sl with mb := smSet {} sl.mb m { val := v, full := true } }) 17 u p r .ok)) ∧
      ((getSlot s1 t).ports = false → exec (.messageArrival core) s = .next (replied s1 17 u p r (.fault 0x08 0)))) ∧
    (∀ q v tag r, takeArrived s u 0 (elemReady s core) = some (p, s1) → p.body = .qelem q v tag r → r ≠ .none → (getFn s1 (unitFn s1 u)).recMode = false → (getFn s1 (unitFn s1 u)).replay = false →
      (qEn (qGet s1 core q) = true → exec (.queueElementArrival core) s = .next (replied (qPush s1 core q v tag) 17 u p r .ok)) ∧
      (qEn (qGet s1 core q) = false → exec (.queueElementArrival core) s = .next (replied s1 17 u p r (.fault 0x08 0)))) ∧
    let comes := takeArrived s u 0 (fwdReady s) = some (p, s1) ∨ (takeArrived s u 0 (fwdReady s) = none ∧ takeArrived s u 1 (fwdReady s) = some (p, s1))
    (∀ t (b : Body) f, comes → t.core = core → (p.body = b ∧ (∃ m v r, b = .msg t m v r)) ∨ p.body = .forward t b → fwdOf s1 t = some f →
      exec (.forwardPacket core) s = .next (inject (modCore s1 core fun c => { c with fwd := c.fwd.map fun x => if x = f then { x with tick := s.tick.toNat } else x })
        { cls := 22, slack := slackLeft s1.tick.toNat p, late := lateAge s1.tick.toNat p, src := u, dst := coreUnit f.new.core, body := .forward f.new b })) ∧
    (∀ fn t seq a0 a1, comes → p.body = .forward t (.sysrep fn seq a0 a1) → fwdOf s1 t = none →
      exec (.forwardPacket core) s = .next (sysAnswer (if callParked s1 fn t seq then lateCounted s1 t p 0 else s1) fn t seq a0 a1)) ∧
    (∀ t m v from' id va, comes → p.body = .forward t (.msg t m v (.thread from' id va)) → fwdOf s1 t = none →
      exec (.forwardPacket core) s = .next (inject s1 { cls := 17, slack := slackLeft s1.tick.toNat p, late := lateAge s1.tick.toNat p, src := u, dst := coreUnit from'.core, body := .reply (.thread from' id va) (.fault 0x08 0) })) ∧
    (∀ (i : Nat) f, (getCore s core).fwd[i]? = some f → exec (.forwardExpiry core i) s =
      .next (if f.carry = true ∨ s.tick.toNat < f.tick + 65536 then s else modCore s core fun c => { c with fwd := delAt c.fwd i }))) ∧
  (∀ s (core link : Nat) (x : LinkEl) rest, dieRuns s (coreDie core) = true → qEn (qGet s core link) = true → qFull (qGet s core link) = false →
    (link = 0 → (getCore s core).link0 = x :: rest → exec (.linkElementTransfer core link) s = .next (qPush (modCore s core fun c => { c with link0 := rest }) core link x.v x.tag)) ∧
    (link = 1 → (getCore s core).link1 = x :: rest → exec (.linkElementTransfer core link) s = .next (qPush (modCore s core fun c => { c with link1 := rest }) core link x.v x.tag))) ∧
  (∀ s (core slot n d : Nat),
    let t : Tid := { core := core, slot := slot }
    (getSlot s t).uid.isSome = true → (getSlot s t).wait = some (.port n (some d)) → d ≤ s.tick.toNat → portEmpty s t n = true →
    exec (.portReadTimeout core slot) s = .next (takeTrap s t 0x0A 0 (getSlot s t).pc)) ∧
  (∀ s (core q : Nat) (v : Word) (tag : Bool), let c := qGet s core q
    qGet (qPush s core q v tag) core q = { c with w1 := BitVec.ofNat 64 ((qTail c + 1) % 2 ^ 32 * 2 ^ 32 + qHead c) })

/-- Replies, messages, queue elements and links: the statements ReplyResults, PortDeliveries. -/
def Obligations.DeliveryResults : Prop :=
  Claim.ReplyResults ∧ Claim.PortDeliveries

/-! ### Slots get and lose work -/

/-- R83, R84, R88 and R98. That a slot's reads fill its core's TLB within the step is the model's choice (log 11). -/
def Sys2Proof.Claim.SlotTakeResults : Prop :=
  ∀ s (core slot : Nat),
    let t : Tid := { core := core, slot := slot }
    let urg := (getFn s (coreFn s core)).urgent
    let c := getCore s core
    let plain := (getFn s (coreFn s core)).recMode = false ∧ (getFn s (coreFn s core)).replay = false
    (slot < 64 → coreRuns s core = true → (getSlot s t).uid = none →
      (∀ u t2, (getSlot s t).resv = some u → takeOwn s t u = some t2 → exec (.slotTake core slot) s = .next t2) ∧
      ((getSlot s t).resv = none → (∀ f ∈ c.fwd, f.old ≠ t) →
        (∀ t2, urg = true → slot = 63 → takeUrgent s t = some t2 → exec (.slotTake core slot) s = .next t2) ∧
        (urg = false ∨ slot ≠ 63 →
          (∀ d rest t2, core % 32 < 16 → c.deque = rest ++ [d] → plain → takeCont (setCore s core { c with deque := rest }) t d.uid (.held d.ws) = some t2 →
            exec (.slotTake core slot) s = .next t2) ∧
          (∀ d rest t2, core % 32 < 16 → c.deque = [] → c.blocks ≠ [] → (getCore (dequeLoad s core) core).deque = rest ++ [d] → plain →
            takeCont (modCore (dequeLoad s core) core fun c => { c with deque := rest }) t d.uid (.held d.ws) = some t2 → exec (.slotTake core slot) s = .next t2) ∧
          (∀ i j rest t2, (16 ≤ core % 32 ∨ (c.deque = [] ∧ c.blocks = [])) →
            injOrder s (coreCl core) (fun i => injFor core i && !(urg && injUrgent i)) = (i, j) :: rest →
            takeInj (modCl s (coreCl core) fun k => { k with inj := injAfter k.inj j }) t i = some t2 → exec (.slotTake core slot) s = .next t2)))) ∧
    (∀ b rest, c.deque = [] → c.blocks = b :: rest →
      let x := getCore (dequeLoad s core) core
      let words := fun (k : Nat) => if eccStatus s k 64 = 0 then (List.range 8).map fun i => BitVec.ofNat 64 (memRead s.mem (k + 8 * i) 8) else []
      x.blocks = rest ∧ x.deque = b.ents.map fun e => { uid := e.2, ws := words (b.key + 64 * e.1) }) ∧
    (∀ e n ctx pc arg desc prio b a, fitWindow c (winW { wsize := BitVec.ofNat 4 (fld desc 3 0), ports := bitAt desc 4 }) = some b → fitSpill (getCtx s ctx) (fld desc 31 16) = some a →
      ∃ t2, takeRoot s t e n ctx pc arg desc prio = some t2 ∧
        let x := getSlot t2 t
        let w := (entryWords s e).getD 4 0
        x.uid = some s.nextUid ∧ x.pc = pc ∧ x.ctx = ctx ∧ x.prio = prio ∧ x.wbase = b ∧ x.restart = desc.getLsbD 5 ∧ x.ports = desc.getLsbD 4 ∧
        x.wsize = (if desc.getLsbD 4 = true ∧ fld desc 3 0 = 15 then 14 else BitVec.ofNat 4 (fld desc 3 0)) ∧
        x.steal = (if desc.getLsbD 4 = true then 0 else BitVec.ofNat 2 (min (w.toNat % 4) (getCtx s ctx).steal.toNat)) ∧
        x.spb = BitVec.ofNat 64 a + 128 ∧ x.spl = BitVec.ofNat 64 a + BitVec.ofNat 64 (fld desc 31 16 * 1024) ∧
        x.csr = { sk0 := w.extractLsb' 16 12, sk1 := w.extractLsb' 28 12, sk2 := w.extractLsb' 40 12, sk3 := w.extractLsb' 52 12 } ∧
        regGet t2 t x 2 = BitVec.ofNat 64 a ∧ regGet t2 t x 4 = arg ∧ regGet t2 t x 5 = BitVec.ofNat 64 n ∧
        (∀ r, r < winW x → r ≠ 2 → r ≠ 4 → r ≠ 5 → regGet t2 t x r = 0) ∧ t2.mem = s.mem) ∧
    (∀ u ws b base, (∀ x ∈ (getCore s (getCont s u).core).slots, x.2.uid ≠ some u) → recOk (getCont s u).ctx ws = true → fitWindow c (recW ws) = some base →
      (getCont s u).carry = [] → (getCont s u).fresh = false → (∀ k ∈ (getCl s (coreCl core)).carries, k.uid ≠ u) →
      let spb := wAt ws 4 - BitVec.ofNat 64 (recBurst ws)
      let s1 := tlbFill s core (getCont s u).ctx spb (recBurst ws / 8)
      loadWords s1 (some core) (getCont s u).ctx spb (recBurst ws / 8) = .ok b → (∀ f, (getFn s f).recMode = false ∧ (getFn s f).replay = false) →
      takeCont s t u (.held ws) = some (intoSlot s1 t u base ws (some b) spb (wAt ws 5)))

/-- R88, R90, R91, R98, R99, R101 and R198. The class of a posted handler's packet and how a firmware thread is started are the model's
choice (log 68), and so are slot 63's own search for urgent entries and the place of one that comes when urgent service has ended (log
23). -/
def Sys2Proof.Claim.StealAndQueueResults : Prop :=
  ∀ s (core : Nat),
    let c := getCore s core
    let u := coreUnit core
    let plain := (getFn s (coreFn s core)).recMode = false ∧ (getFn s (coreFn s core)).replay = false
    let idle := fun (w x : Bool) => coreRuns s core = true ∧ core % 32 < 16 ∧ wantsWork s core = w ∧ wantsUrgent s core = x ∧ c.asked.length + c.askedU.length < 4
    (∀ v, idle true false → (victims s core)[c.stealLvl]? = some v → v ∉ c.asked →
      exec (.stealSearch core) s = .next (send (modCore s core fun c => { c with asked := c.asked ++ [v], stealLvl := c.stealLvl + 1 }) 8 0x200 u (coreUnit v) (.steal core))) ∧
    (idle true false → (victims s core).length ≤ c.stealLvl → exec (.stealSearch core) s = .next (modCore s core fun c => { c with stealLvl := 0 })) ∧
    (∀ v, idle false true → (victims s core)[c.lvlU]? = some v → v ∉ c.askedU →
      exec (.stealSearch core) s = .next (send (modCore s core fun c => { c with askedU := c.askedU ++ [v], lvlU := c.lvlU + 1 }) 8 0x200 u (coreUnit v) (.stealU core))) ∧
    (idle false true → (victims s core).length ≤ c.lvlU → exec (.stealSearch core) s = .next (modCore s core fun c => { c with lvlU := 0 })) ∧
    (idle true true → exec (.stealSearch core) s = .next (askUrgent (askWork s core) core)) ∧
    (∀ p s1 thief, plain → takeOldest s u 0 (stealReady s core) = some (p, s1) → p.body = .stealU thief →
      (∀ d, c.udeque.head? = some d → stealAdmits d.ws core thief = true →
        exec (.stealRequest core) s = .next (send (modCore s1 core fun c => { c with udeque := c.udeque.drop 1 }) 8 0x200 u p.src (.stolenU (some d)))) ∧
      ((c.udeque = [] ∨ ∃ d, c.udeque.head? = some d ∧ stealAdmits d.ws core thief = false) → exec (.stealRequest core) s = .next (send s1 8 0x200 u p.src (.stolenU none)))) ∧
    (∀ p s1, plain → takeArrived s u 0 (stolenReady s core) = some (p, s1) →
      let s2 := modCore s1 core fun c => { c with askedU := c.askedU.erase (unitCore p.src) }
      (∀ d, p.body = .stolenU (some d) → (getCont s1 d.uid).alive = true → exec (.stealReply core) s = .next (dequePush (modCore s2 core fun c => { c with lvlU := 0 }) core (getFn s (coreFn s core)).urgent d)) ∧
      (p.body = .stolenU none → exec (.stealReply core) s = .next s2)) ∧
    (∀ p s1 thief, plain → takeOldest s u 0 (stealReady s core) = some (p, s1) → p.body = .steal thief →
      (∀ d, dequeFar s1 core = some d → stealAdmits d.ws core thief = true → exec (.stealRequest core) s = .next (send (modCore s1 core dequeDropFar) 8 0x200 u p.src (.stolen (some d)))) ∧
      ((dequeFar s1 core = none ∨ ∃ d, dequeFar s1 core = some d ∧ stealAdmits d.ws core thief = false) → exec (.stealRequest core) s = .next (send s1 8 0x200 u p.src (.stolen none)))) ∧
    (∀ p s1, plain → takeArrived s u 0 (stolenReady s core) = some (p, s1) →
      let s2 := modCore s1 core fun c => { c with asked := c.asked.erase (unitCore p.src) }
      (∀ d, p.body = .stolen (some d) → (getCont s1 d.uid).alive = true → exec (.stealReply core) s = .next (dequePush (modCore s2 core fun c => { c with stealLvl := 0 }) core false d)) ∧
      (p.body = .stolen none → exec (.stealReply core) s = .next s2)) ∧
    (∀ (cl : Nat) p s1 uid ctx src, takeArrived s (coreUnit (svcCore cl)) 0 (fun p => match p.body with | .enqueue _ _ _ => true | _ => false) = some (p, s1) → p.body = .enqueue uid ctx src →
      (getCont s1 uid).alive = true →
      let i : Inj := { injOf s1 uid src with since := s1.tick.toNat }
      ((getCont s1 uid).pinned = none → exec (.enqueueContinuation cl) s = .next (modCl s1 cl fun c => { c with inj := c.inj ++ [i] })) ∧
      ((getCont s1 uid).pinned ≠ none → exec (.enqueueContinuation cl) s = .next (modCl s1 cl fun c => { c with enq := c.enq ++ [i] }))) ∧
    (∀ (cl i : Nat) x, dieRuns s (clDie cl) = true → (getCl s cl).inj[i]? = some x →
      exec (.injectionAge cl i) s = .next (modCl s cl fun c => { c with inj := c.inj.set i { x with aged := x.aged || decide (500000 < s.tick.toNat - x.since) } })) ∧
    (∀ post c, coreRuns s core = true → (getFn s (coreFn s core)).urgent = true → core % 32 < 16 → takeArrived s u 0 (fun p => match p.body with | .urgent _ _ => true | _ => false) = none →
      postCtx s core post = some c → post ≠ [] → exec (.urgentArrival (core, post)) s = .next (postHandler s core c post) ∧ (getCont (postHandler s core c post) s.nextUid).priv = true) ∧
    (∀ post c, coreRuns s core = true → core = svcCore (coreCl core) → takeArrived s u 0 (fun p => match p.body with | .urgent _ _ => true | _ => false) = none →
      postCtx s core post = some c → let t := startFirmware s core c post
      exec (.urgentArrival (core, post)) s = .next t ∧ (getCont t s.nextUid).priv = true ∧ (getCl t (coreCl core)).inj = (getCl s (coreCl core)).inj ++
        [{ kind := .cont s.nextUid (.held post), ctx := c, tag := some core, prio := recPrio post, since := s.tick.toNat }]) ∧
    (∀ post p s1 uid src, coreRuns s core = true → (getFn s (coreFn s core)).urgent = false → takeArrived s u 0 (fun p => match p.body with | .urgent _ _ => true | _ => false) = some (p, s1) →
      p.body = .urgent uid src → (getCont s1 uid).alive = true → exec (.urgentArrival (core, post)) s =
        .next (modCl s1 (coreCl core) fun k => { k with inj := k.inj ++ [{ injOf s1 uid src with prio := 3, since := s1.tick.toNat }] })) ∧
    (∀ post p s1 uid src, coreRuns s core = true → (getFn s (coreFn s core)).urgent = true → takeArrived s u 0 (fun p => match p.body with | .urgent _ _ => true | _ => false) = some (p, s1) →
      p.body = .urgent uid src → (getCont s1 uid).alive = true →
      let i : Inj := { injOf s1 uid src with urgent := true, since := s1.tick.toNat }
      let t : Tid := { core := core, slot := 63 }
      let free := slotFree s1 t = true ∧ c.udeque = [] ∧ c.uinbox = []
      (∀ t2, free → takeInj s1 t i = some t2 → (getSlot t2 t).uid.isSome = true → exec (.urgentArrival (core, post)) s = .next (modSlot t2 t fun sl => { sl with urgent := true })) ∧
      (¬ free → c.uinbox.length < 4 → exec (.urgentArrival (core, post)) s = .next (modCore s1 core fun c => { c with uinbox := c.uinbox ++ [i] })) ∧
      (¬ free → 4 ≤ c.uinbox.length → exec (.urgentArrival (core, post)) s = .next (modCl s1 (coreCl core) fun k => { k with inj := k.inj ++ [{ i with prio := 3 }] })))

/-- R199 and R201. -/
def Sys2Proof.Claim.EvictionResults : Prop :=
  (∀ s (core slot uid : Nat),
    let t : Tid := { core := core, slot := slot }
    let sl := getSlot s t
    let e := slotEnv s t
    let ended := fun (s' : State) => modCore (modSlot s' t fun sl => { sl with evicting := false }) core fun c => { c with evict := c.evict &&& ~~~(BitVec.ofNat 64 (2 ^ slot)) }
    sl.uid = some uid → sl.evicting = true → sl.handler = none → coreRuns s core = true →
    (∀ unit x, sl.wait = some .reply → sl.wdrawn = false → parkedOf s uid = some (unit, x) → exec (.evictWrite core slot) s =
      .next (send (modSlot s t fun sl => { sl with wdrawn := true }) 3 (getCl s (unitCl (coreUnit core))).hsk.toNat (coreUnit core) unit (.withdraw x.key (.thread t uid 0)))) ∧
    (sl.wait = none ∨ sl.wait = some .cond → midway sl = false → ringPending sl = false → allComplete sl = true → (∀ i, i < 5 → (tlGet sl.tls i).completed = (tlGet sl.tls i).issued) →
      (∀ n src c num, oldest (covered sl true fun _ _ => true) = some (n, src, c, num) →
        exec (.evictWrite core slot) s = .next (takeTrap (modSlot s t fun sl => clearFault sl src num) t 0x13 (efTval src c num.toNat) sl.pc)) ∧
      (oldest (covered sl true fun _ _ => true) = none →
        (∀ s1, sl.moveTo = none → sl.spb.toNat + burstOf sl ≤ sl.spl.toNat → writeOut e s sl.pc = .ok s1 →
          let s2 := freeSlot (noteLeft s1 t (getSlot s1 t) (regGet s t sl 2 + 64)) t
          exec (.evictWrite core slot) s = .next (ended (sendEnqueue s2 (coreUnit core) uid (.mem (regGet s t sl 2 + 64))))) ∧
        (∀ d, sl.moveTo = some d → (getCore s core).fwd.length < 16 → ∃ t2, exec (.evictWrite core slot) s = .next t2 ∧
          (getSlot t2 t).uid = none ∧ (getCont t2 uid).core = d.core ∧ (getCore t2 core).evict = (getCore s core).evict &&& ~~~(BitVec.ofNat 64 (2 ^ slot)) ∧
          { old := t, new := d, tick := s.tick.toNat, ctx := sl.ctx } ∈ (getCore t2 core).fwd)))) ∧
  (∀ s (core : Nat) p s1 uid o d b ws mbs sysc, takeArrived s (coreUnit core) 0 (fun p => match p.body with | .stream _ _ _ _ _ _ _ => true | _ => false) = some (p, s1) →
    p.body = .stream uid o d b ws mbs sysc → (getSlot s1 d).resv = some uid → (getCont s1 uid).alive = true →
    exec (.migrationArrival core) s = .next (modSlot (Machine.answer (intoSlot s1 d uid (getSlot s1 d).wbase ws (some b) (wAt ws 4) (wAt ws 5)) 17 (coreUnit core) p (.reply .none .ok)) d fun sl =>
      { sl with mb := mbs, wait := if sysc.isSome then some .sysc else sl.wait, callSeq := sysc.getD sl.callSeq }))

/-- Slots, stealing, injection and eviction: the statements SlotTakeResults, StealAndQueueResults, EvictionResults. -/
def Obligations.SchedulerResults : Prop :=
  Claim.SlotTakeResults ∧ Claim.StealAndQueueResults ∧ Claim.EvictionResults

/-! ### Tile schedulers -/

/-- R112 to R114, R368, R371 and R372. The place of a staged block is the model's input and the order of B's words its choice (log 69); a
record that cannot be read failing the bead is its choice too (log 35), and so is the number of late packets (log 72). -/
def Sys2Proof.Claim.TileSchedulerResults : Prop :=
  ∀ s (cl : Nat), clRuns s cl = true →
    let c := getCl s cl
    let hsk := fun (t : State) => (getCl t (unitCl (coreUnit (svcCore cl)))).hsk.toNat
    let tell := fun (t : State) (b : BeadRef) (op : BeadOp) (cont : Word) (r : Ret) (h : Nat) => send t 4 (hsk t) (coreUnit (svcCore cl)) h (.bead b op 0 (svcCore cl) cont r)
    let drop := fun (t : State) (tk : Task) => modCl t cl fun c => { c with tasks := c.tasks.filter fun x => x.bead.key ≠ tk.bead.key }
    let change := fun (t : State) (tk : Task) (f : Task → Task) => modCl t cl fun c => { c with tasks := c.tasks.map fun x => if x.bead.key = tk.bead.key then f x else x }
    (∀ tk h, c.tasks.find? (fun t => t.st == .claimed) = some tk → homeOf tk.bead.key = some h →
      (∀ cause va, loadWords s none tk.bead.ctx tk.recA 8 = .error (cause, va) → exec (.tileEvaluate cl) s = .next (tell (drop s tk) tk.bead (.engFault cause) 0 .none h)) ∧
      (∀ ws, loadWords s none tk.bead.ctx tk.recA 8 = .ok ws →
        let check := taskCheck ws tk.bead.handle (opndW0 s tk.bead.ctx) (tkOut s { tk with ws := ws }) fun n => c.mprog.any fun m => m.1 == n
        (∀ cause, check = some cause → exec (.tileEvaluate cl) s = .next (tell (drop s tk) tk.bead (.engFault cause) 0 .none h)) ∧
        let begun := change s tk fun t => { t with ws := ws, vals := [], w0s := [] }
        (check = none → (wAt ws 2).toNat % 64 ≠ 0 → (∀ x ∈ c.tasks, x.bead.key = tk.bead.key → x = tk) →
          exec (.tileEvaluate cl) s = .next (tell (drop begun tk) tk.bead (.opFail 0x03 (wAt ws 2)) 0 .none h)) ∧
        (∀ b g, check = none → wAt ws 2 ≠ 0 → (wAt ws 2).toNat % 64 = 0 → opndBead s tk.bead.ctx (wAt ws 2) = some b → homeOf b.key = some g → (∀ x ∈ c.tasks, x.bead.key = tk.bead.key → x = tk) →
          exec (.tileEvaluate cl) s = .next (tell (change s tk fun t => { t with ws := ws, vals := [], w0s := [], st := .forcing 0 }) b (.force tk.chain) tk.bead.handle (.task cl tk.bead.key) g)))) ∧
    (∀ p s1 key tk i, takeArrived s (coreUnit (svcCore cl)) 1 isOpndReply = some (p, s1) → p.late = none → (getCl s1 cl).tasks.find? (fun t => t.bead.key == key) = some tk → tk.st = .forcing i →
      (∀ v b f, i = 2 → p.body = .reply (.task cl key) (.value v b f) → exec (.operandReply cl) s =
        .next (change s1 tk fun t => { t with vals := t.vals ++ [v], w0s := t.w0s ++ [opndW0 s1 tk.bead.ctx (wAt tk.ws 4)], poison := t.poison || b, st := .staging })) ∧
      (∀ cause v h, p.body = .reply (.task cl key) (.fault cause v) → homeOf tk.bead.key = some h →
        exec (.operandReply cl) s = .next (tell (drop s1 tk) tk.bead (.opFail cause v) 0 .none h))) ∧
    (∀ (i base : Nat) tk, c.tasks[i]? = some tk → tk.st = .staging → (∀ fn, (getFn s fn).recMode = false ∧ (getFn s fn).replay = false) →
      let u := coreUnit (svcCore cl)
      let far := (opnds tk).filter fun i => (opndKeys s tk i).any fun k => !inCluster cl k
      let ks := (far.flatMap (opndKeys s tk)).filter fun k => !inCluster cl k
      let s1 := ks.foldl (fun s k => markRead s k 1) s
      let d := lateOfN s1 (hsk s1) (lineHomes u (linesOf ks)).length
      let s2 := if d.2 = 0 then d.1 else modCl d.1 cl fun c => { c with plate := c.plate + d.2 }
      let tk1 := { tk with snap := ks.map fun k => (k, memByte s1.mem k) }
      let l := far.flatMap (stageForm s2 tk1)
      let off := base % 0x100000 / 64 * 64
      let st := stageAt s2 cl off l
      (linesWait s u s.sent (linesOf ks) = true → exec (.stagingComplete cl (i, base)) s = .next s) ∧
      (linesWait s u s.sent (linesOf ks) = false → exec (.stagingComplete cl (i, base)) s = .next (change st.1 tk fun t =>
        { t with st := .ready, snap := tk1.snap, staged := st.2, poison := t.poison || ks.any fun k => s1.marks.contains (k / 8) })) ∧
      ((getHome s2 u).parked = [] → ∀ (j : Nat) b m, l[j]? = some (b, m) → off + j < 0x100000 →
        memByte st.1.mem (scrKey (svcCore cl) off + j) = b ∧ (scrKey (svcCore cl) off + j) / 4 ∈ st.1.full)) ∧
    (∀ tk, opndFmt tk 0 ≠ fmtPLANE → trM tk.ws ≤ 128 → let op := trOp tk.ws
      (op = 1 ∨ op = 2 → (stageForm s tk 0).length = trK tk.ws / 32 * (512 * trP tk.ws + 128)) ∧
      (op = 3 → (stageForm s tk 0).length = trK tk.ws / 24 * (512 * trP tk.ws + 1152))) ∧
    (∀ tk e, nextTask (engines s cl) c.tasks = some (tk, e) →
      let s1 := change s tk fun t => { t with st := .running e, prog := smGet (0, 0) c.mprog (trSlot tk.ws) }
      exec (.tileDispatch cl) s = .next (if (wAt tk.ws 0).toNat % 256 = 4 then modCl s1 cl fun c => { c with prog := smSet 0 c.prog e (trSlot tk.ws) } else s1)) ∧
    (∀ b r h, (∀ t ∈ c.tasks, t.demanded = true → isRunning t = true) → (∃ e ∈ engines s cl, ∀ t ∈ c.tasks, t.st ≠ .running e) → c.sparks = b :: r → homeOf b.key = some h →
      exec (.sparkTake cl) s = (let chain := BitVec.ofNat 64 (b.ctx % 65536 * 2 ^ 48 + (c.svcSeq + 1).toNat * 2 ^ 17 + svcCore cl * 64)
        .next (tell (modCl s cl fun c => { c with sparks := r, svcSeq := c.svcSeq + 1, sparkCh := c.sparkCh ++ [(chain, b.key)] }) b (.claim chain) 0 (.task cl b.key) h)))

/-- R113, R151, R152 and R373 to R378. The first cause in element order and a free subset of the destination are the model's choice (log
24). The machine records and replays nothing. -/
def Sys2Proof.Claim.TileCompletionResults : Prop :=
  (∀ s (cl engine : Nat) tk h, clRuns s cl = true → (∀ fn, (getFn s fn).recMode = false ∧ (getFn s fn).replay = false) → (getCl s cl).tasks.find? (fun t => t.st == .running engine) = some tk → homeOf tk.bead.key = some h →
    let tk' := withTlb s cl engine tk
    let r := tkReads s tk'
    let tell := fun (t : State) (op : BeadOp) =>
      let t := modCl t cl fun c => { c with tasks := c.tasks.filter fun x => x.bead.key ≠ tk.bead.key }
      Host.Outcome.next (φ := Fault) (ρ := Refusal) (send t 4 (getCl t (unitCl (coreUnit (svcCore cl)))).hsk.toNat (coreUnit (svcCore cl)) h (.bead tk.bead op 0 (svcCore cl) 0 .none))
    let failed := fun (t : State) (cause : BitVec 8) =>
      if trRestart tk.ws = true ∧ tk.retried = false then .next (modCl t cl fun c => { c with tasks := c.tasks.map fun x =>
        if x.bead.key = tk.bead.key then { x with st := .staging, snap := [], staged := [], tr := {}, retried := true, avoid := some engine } else x })
      else tell t (.engFault cause)
    (∀ va need, tkMiss s tk' = some (va, need) → exec (.taskComplete cl engine) s = .next (taskMiss s cl engine tk' va need)) ∧
    (∀ f, tkOut s tk' = some f →
      let res := tkResult r.1 tk' f
      (∀ t, tkMiss s tk' = none → (∀ x ∈ tileOuts r.1 tk' f, ∃ y, x = .ok y) → destAll r.1 tk' f (res.1.map (·.getD 0)) res.2.2 r.2 = .ok t →
        exec (.taskComplete cl engine) s = tell t (if r.2 then .poisoned (trDest tk.ws) res.2.1 else .completion (trDest tk.ws) res.2.1)) ∧
      (∀ c, tkMiss s tk' = none → firstCause (tileOuts r.1 tk' f) = some c → exec (.taskComplete cl engine) s = failed (destSome r.1 tk' f res.1 r.2) c) ∧
      (∀ c, exec (.taskEngineFault cl engine c) s = failed (destSome r.1 tk' f res.1 r.2) c)) ∧
    (tkMiss s tk' = none → tkOut s tk' = none → exec (.taskComplete cl engine) s = failed r.1 0x15)) ∧
  (∀ s tk f (i j : Nat), i < trM tk.ws → j < trN tk.ws → fmtInt f = none →
    let a := tVal s tk (trAfmt tk.ws) (opndVal tk 0)
    let b := tVal s tk (trBfmt tk.ws) (opndVal tk 1)
    let n := i * trN tk.ws + j
    ∀ x, a n = .ok x → (trOp tk.ws = 9 → (tileOuts s tk f)[n]? = some (.ok (.val x))) ∧ ∀ y, b n = .ok y →
      (trOp tk.ws = 5 → (tileOuts s tk f)[n]? = some (.ok (.val (plusZero (xAdd false x y))))) ∧
      (trOp tk.ws = 6 → (tileOuts s tk f)[n]? = some (.ok (.val (plusZero (xMul x y))))) ∧
      (trOp tk.ws = 7 → (tileOuts s tk f)[n]? = some (.ok (.val (tileMax x y))))) ∧
  (∀ s tk f (i j : Nat) as bs, 1 ≤ trOp tk.ws → trOp tk.ws ≤ 3 → trAcc tk.ws = false → i < trM tk.ws → j < trN tk.ws → aRow s tk i = .ok as → bCol s tk j = .ok bs →
    (tileOuts s tk f)[i * trN tk.ws + j]? = some (.ok (.val ((as.zip bs).foldl (fun ax p => axFold ax p.1 p.2) (.num false 0 0 false)))))

/-- The tile scheduler from ring entry to completion: the statements TileSchedulerResults, TileCompletionResults. -/
def Obligations.TileResults : Prop :=
  Claim.TileSchedulerResults ∧ Claim.TileCompletionResults

/-! ### Engines, agents, reduction queues, carries, parity errors -/

/-- R42, R142, R151, R152, R185, R211 and R385 to R391. One packet a line, and a free number of late ones where the slack is not 0, are
the model's choice (log 72). -/
def Sys2Proof.Claim.CopyAndRankResults : Prop :=
  (∀ s (core i : Nat) c, coreRuns s core = true → (getCore s core).eng[i]? = some c →
    let x := engXl s (some core) core c.ctx c.tr
    let p := copyPlan s x c
    let r := planDo (modCore s core fun k => { k with eng := delAt k.eng i }) x p
    let ls := cmdLines r.1 x c [] r.2.1
    let gate := lineGate r.1 7 (coreUnit core) (ls.1 ++ ls.2)
    let d := cmdLate (lineNotes (egPut true r.1 r.2.1) 7 (coreUnit core) (ls.1 ++ ls.2)) c (coreUnit core) ls
    (∀ va need, planMiss s x p = some (va, need) → exec (.engineTicketComplete core i) s = .next (cmdMiss s core i c va need)) ∧
    (planMiss s x p = none → cmdWaits s x c [] p = true ∨ gate = false → exec (.engineTicketComplete core i) s = .next s) ∧
    (planMiss s x p = none → cmdWaits s x c [] p = false → gate = true → exec (.engineTicketComplete core i) s = .next (cmdEnd d.1 c r.2.2 d.2))) ∧
  (∀ s (die : Nat), die < 4 → dieRuns s die = true → ∀ k ∈ [(Instr.routePerform die, 4, routeReads, routePlan), (.pselPerform die, 5, pselReads, pselPlan)],
    let s1 := rankLoad s die
    ∀ c a b late rest, (getDie s1 die).rank = (c, a, b, late) :: rest → c.kind = k.2.1 → (getCtx s1 c.ctx).live = true → (getCtx s1 c.ctx).torn = none →
      let x : Xl := { ctx := c.ctx }
      let rs := k.2.2.1 s1 c
      let p := k.2.2.2 s1 c
      let r := planDo (modDie s1 die fun d => { d with rank := rest }) x p
      let ls := cmdLines r.1 x c rs r.2.1
      let gate := lineGate r.1 10 (rankUnit die) (ls.1 ++ ls.2)
      let d := cmdLate (lineNotes (egPut false r.1 r.2.1) 10 (rankUnit die) (ls.1 ++ ls.2)) c (rankUnit die) ls
      (cmdWaits s1 x c rs p = true ∨ gate = false → exec k.1 s = .next s1) ∧
      (cmdWaits s1 x c rs p = false → gate = true → exec k.1 s = .next (cmdEnd d.1 c r.2.2 (d.2 + bit late.isSome)))) ∧
  (∀ s c u ls, let n := (lineHomes u ls.1).length + (lineHomes u ls.2).length
    (c.slack = 0 → cmdLate s c u ls = (s, n)) ∧ (cmdLate s c u ls).2 ≤ n) ∧
  (∀ s l, (egPut false s l).full = s.full) ∧
  (∀ s x (l : List (EX EgWrite)) (ks : List (Nat × EgWrite)), l.mapM (fun w => do egKey s x (← w)) = .ok ks → planDo s x (.ok l) = (s, ks, none)) ∧
  (∀ s x cause, planDo s x (.error (cause, none)) = (s, [], some cause)) ∧
  (∀ s cls u l, (∀ f, (getFn s f).recMode = false ∧ (getFn s f).replay = false) → lineGate s cls u l = true ∧ lineNotes s cls u l = s) ∧
  (∀ s c cause late, c.entry = none →
    ((getSlot s c.t).uid ≠ some c.uid → cmdEnd s c cause late = s) ∧
    ((getSlot s c.t).uid = some c.uid → cmdEnd s c cause late = lateAdd (completeTicket s c.t c.tl c.num cause) c.t late c.recA)) ∧
  (∀ s t n va, lateAdd s t 0 va = s ∧ (n ≠ 0 → (getSlot (lateAdd s t n va) t).csr.late = (getSlot s t).csr.late + BitVec.ofNat 64 n)) ∧
  (∀ s x c l, layRead s x c false = .ok l → l.decode = false → l.gran = 0 → l.cls = 0 →
    let at' := fun (base : Word) (n : Int) => base + BitVec.ofInt 64 n
    (l.fmt ≤ 4 ∨ (8 ≤ l.fmt ∧ l.fmt ≤ 13) → l.base.toNat % laySize l.fmt = 0 → fillPlan s x c = .ok (((winIdx l.wins).filter (inExts l.exts)).map fun ix =>
      .ok { va := at' l.base (idxSum l.strs ix * laySize l.fmt), bytes := leBytes (laySize l.fmt) (fillBits l.fmt l.fill) })) ∧
    (l.fmt ≤ 4 ∨ (8 ≤ l.fmt ∧ l.fmt ≤ 13) → l.base.toNat % laySize l.fmt = 0 → c.dst.toNat % laySize l.fmt = 0 → (∀ ix ∈ winIdx l.wins, inExts l.exts ix = true) →
      ∃ ws, cpyPlan s x c = .ok ws ∧ ws.length = l.wins.prod ∧ ∀ (n : Nat) ix v ks, (winIdx l.wins)[n]? = some ix →
        egBytes s x (at' l.base (idxSum l.strs ix * laySize l.fmt)) (laySize l.fmt) = .ok (v, ks) →
        ∃ w, ws[n]? = some (.ok w) ∧ w.va = c.dst + BitVec.ofNat 64 (n * laySize l.fmt) ∧ w.bytes = leBytes (laySize l.fmt) v))

/-- R163 to R175 and R382. That a tensor answers a store of 0 follows R171 where R383 has CST raise PROTECTION on
one: the model's choice (log 34). -/
def Obligations.AgentResults : Prop :=
  (∀ s (cl : Nat) p s1, agentNext s cl = some (p, s1) →
    let u := treeUnit cl
    (∀ op ctx g c x core r, p.body = .coord op ctx g c x core r → r ≠ .none → exec (.coordAtAgent cl) s = .next (agentOp s1 cl p op.toNat ctx g c x core r)) ∧
    (∀ ctx g r, p.body = .cinv ctx g none r → r ≠ .none →
      let s2 := homeNote s1 u 5 (pktSrc s1 p) p.src g (retUrgent s1 r)
      (∀ t, cinvOp s2 cl ctx g p r = .ok t → exec (.cinvReload cl) s = .next t) ∧
      (∀ c v, cinvOp s2 cl ctx g p r = .error (c, v) → exec (.cinvReload cl) s = .next (replied s2 19 u p r (.fault c v)))) ∧
    (∀ ctx g ws r, p.body = .cinv ctx g (some ws) r → r ≠ .none → exec (.cinvReload cl) s = .next (replied (rgInstall (homeNote s1 u 5 (pktSrc s1 p) p.src g) cl ctx g (ws.take 8) (decide (wAt ws 8 ≠ 0))) 19 u p r .ok))) ∧
  (∀ s (cl : Nat) p (op : BitVec 4) ctx g c x core r, p.body = .coord op ctx g c x core r → r ≠ .none →
    let u := treeUnit cl
    let w := (regionAt s cl ctx g).ws
    let T := tileOf w (unpackC (rgPack w) c)
    let plain := (getFn s (unitFn s u)).recMode = false ∧ (getFn s (unitFn s u)).replay = false
    let out := fun (t : State) (v : Res) => agentOp s cl p op.toNat ctx g c x core r = replied t 19 u p r v
    (rgClass w ≠ 1 → rgClass w ≠ 2 → out s (.fault 0x11 (BitVec.ofNat 64 g))) ∧
    ((rgClass w = 1 ∨ rgClass w = 2) → c ≠ BitVec.allOnes 64 → coordIn w c = false → out s (.fault 0x11 c)) ∧
    (rgClass w = 2 → plain → coordIn w c = true → op = 5 ∨ op = 6 → out s (.fault 0x08 (BitVec.ofNat 64 g))) ∧
    (∀ es, rgClass w = 1 → plain → coordIn w c = true → T < 2 ^ 27 → tileFind s ctx g w T = .ok (0, es) →
      (op = 0 → out s (.coord (elExt (rgFmt w) (rgBackEl w)) none)) ∧ (op = 4 ∨ op = 6 ∨ op = 8 → out s (.coord 0 none))) ∧
    (∀ fr es t fl, rgClass w = 1 → plain → coordIn w c = true → T < 2 ^ 27 → op = 5 → tileFind s ctx g w T = .ok (0, es) →
      tileAlloc s ctx g w T es (freeList (regionAt s cl ctx g) 0) c = .ok (t, fr, fl) →
      out (shareCore (setFree t cl ctx g 0 fl) cl ctx g core)
        (.coord 1 (some (ctx, g, T, fr.toNat, (getCl (shareCore (setFree t cl ctx g 0 fl) cl ctx g core) cl).agentGen)))) ∧
    (∀ path lf, rgClass w = 2 → plain → coordIn w c = true → linOf w c / rgSpan w ≤ rgShards w → estFind s ctx g w (linOf w c / rgSpan w) (linOf w c) = .ok (path, lf) →
      (linOf w c ∉ lf.keys → (op = 0 → out s (.coord 0 none)) ∧ (op = 8 → out s (.coord 0 none)) ∧ (op = 4 → out s (.coord 0 none)) ∧
        (op = 1 → elZero (rgFmt w) (x.toNat % 2 ^ elBits (rgFmt w)) = true → out s (.coord 0 none))) ∧
      (∀ (i : Nat), idxOf (· == linOf w c) lf.keys = some i → (op = 0 → out s (.coord (elExt (rgFmt w) ((wAt lf.vals i).toNat % 2 ^ elBits (rgFmt w))) none)) ∧ (op = 8 → out s (.coord 1 none)))))

/-- R225 to R227. An entry that FAILED for an address that cannot be reached is the model's choice (log 33). -/
def Sys2Proof.Claim.ReductionResults : Prop :=
  (∀ s (cl : Nat) p s1 op i ws b kind ctx wl r, dieRuns s (clDie cl) = true →
    takeFirst s (rqUnit cl) 0 (fun p => match p.body with | .rq _ _ _ _ _ _ _ _ => true | _ => false) = some (p, s1) → p.body = .rq op i ws b kind ctx wl r → r ≠ .none →
    let e := smGet {} (getCl s1 cl).rq i
    let set := fun (f : RqEnt → RqEnt) => modCl s1 cl fun c => { c with rq := smMod {} c.rq i f }
    let n := (wAt e.ws 0).toNat % 2 ^ 16
    let out := fun (t : State) (v : Res) => exec (.rqOperation cl) s = .next (replied t 16 (rqUnit cl) p r v)
    (op = 0 → (e.st = 1 ∨ e.st = 2 → out s1 (.fault 0x08 0)) ∧ (e.st ≠ 1 → e.st ≠ 2 → out (set fun _ => { st := 1, ws := ws, ctx := ctx }) (.words [0]))) ∧
    (op = 1 →
      (e.st = 0 → out s1 (.words [0xFFFFFFFD])) ∧ (e.st = 4 → out s1 (.words [0xFFFFFFFE])) ∧ (e.st = 2 ∨ e.st = 3 → out s1 (.words [0xFFFFFFFF])) ∧
      (∀ k, e.st = 1 → rqReady e = some k → (∀ w ∈ (getCl s1 cl).rqWaits, w.entry ≠ i) → out (set fun e => { e with assigned := ssIns k e.assigned }) (.words [BitVec.ofNat 64 k])) ∧
      (e.st = 1 → rqReady e = none → n ≤ e.assigned.length → out s1 (.words [0xFFFFFFFF])) ∧
      (e.st = 1 → rqReady e = none → e.assigned.length < n → exec (.rqOperation cl) s = .next (modCl s1 cl fun c => { c with rqWaits := c.rqWaits ++
        [{ src := p.src, slack := slackLeft s1.tick.toNat p, late := lateAge s1.tick.toNat p, entry := i, deadline := if wl = 0 then none else some (s1.tick.toNat + wl), ret := r }] }))) ∧
    (op = 2 →
      (e.st = 4 → out s1 (.words [1])) ∧ (e.st ≠ 1 → e.st ≠ 4 → out s1 (.words [2])) ∧ (e.st = 1 → rdLists e.ws ctx = false → out s1 (.fault 0x08 0)) ∧
      (e.st = 1 → rdLists e.ws ctx = true → n ≤ b → out s1 (.words [2])) ∧
      (e.st = 1 → rdLists e.ws ctx = true → b < n → kind = false → (∀ w ∈ (getCl s1 cl).rqWaits, w.entry ≠ i) →
        out (set fun e => { e with arrived := smMod 0 e.arrived b (· + 1) }) (.words [0])) ∧
      (e.st = 1 → rdLists e.ws ctx = true → b < n → kind = true → (ssIns b e.reduced).length < n → out (set fun e => { e with reduced := ssIns b e.reduced }) (.words [0])) ∧
      (e.st = 1 → rdLists e.ws ctx = true → b < n → kind = true → n ≤ (ssIns b e.reduced).length → (∀ w ∈ (getCl s1 cl).rqWaits, w.entry ≠ i) →
        let s2 := set fun e => { e with reduced := ssIns b e.reduced }
        exec (.rqOperation cl) s = .next (set fun e => { e with
          reduced := ssIns b e.reduced, st := 2, keys := rqKeys s2 (smGet {} (getCl s2 cl).rq i), assigned := List.range n, last := some (p.src, slackLeft s1.tick.toNat p, lateAge s1.tick.toNat p, r) })))) ∧
  (∀ s (cl i : Nat) src slack late r, dieRuns s (clDie cl) = true →
    let e := smGet {} (getCl s cl).rq i
    let l := rqCopies s e
    let ks := (l.flatMap fun w => w.2.keys.map fun k => k.1 / 64).eraseDups ++ egLines l
    e.st = 2 → e.last = some (src, slack, late, r) → lineGate s 10 (rqUnit cl) ks = true →
    exec (.rqCommitDone cl i) s = .next (inject (modCl (lineNotes (egPut false s l) 10 (rqUnit cl) ks) cl fun c => { c with rq := smMod {} c.rq i fun e => { e with st := if e.keys = [] then 4 else 3, last := none } })
      { cls := 16, slack := slack, late := late, src := rqUnit cl, dst := src, body := .reply r (.words [if e.keys = [] then 1 else 0]) })) ∧
  (∀ s e, (rqCopies s e).length = e.keys.length ∧ ∀ (j : Nat) k, e.keys[j]? = some k → ∃ w, (rqCopies s e)[j]? = some (k.2, w) ∧ w.bytes = [memByte s.mem k.1]) ∧
  (∀ s (cl i : Nat) w d, (getCl s cl).rqWaits[i]? = some w → w.deadline = some d → d ≤ s.tick.toNat →
    exec (.rqgetTimeout cl i) s = .next (inject (modCl s cl fun c => { c with rqWaits := delAt c.rqWaits i })
      { cls := 16, slack := w.slack, late := w.late, src := rqUnit cl, dst := w.src, body := .reply w.ret (.fault 0x0A 0) }))

/-- Copy and ranking engines and reduction queues: the statements CopyAndRankResults, ReductionResults. -/
def Obligations.EngineResultsAtHomes : Prop :=
  Claim.CopyAndRankResults ∧ Claim.ReductionResults

/-- R205 and R218 to R220. One packet a line for the deposit, the first of its faults and the records of a return are the model's choice
(logs 38, 73 and 84). -/
def Sys2Proof.Claim.CarryAndParityResults : Prop :=
  (∀ s (cl : Nat) p s1, clRuns s cl = true →
    let u := coreUnit (svcCore cl)
    let core := svcCore cl
    let woken := fun (t : State) (uid : Nat) (ci : CarryIn) (d : Deliv) => modCl (modCont t uid fun k => { k with deliv := some d }) cl fun x =>
      { x with inj := x.inj ++ [{ kind := .cont uid (.held ci.ws), ctx := ci.ctx, prio := recPrio ci.ws, resumed := true, since := t.tick.toNat }] }
    (∀ ci, takeArrived s u 0 (fun p => match p.body with | .carry _ => true | _ => false) = some (p, s1) → p.body = .carry ci → (getCont s1 ci.uid).alive = true →
      let ci' := { ci with slack := slackLeft s1.tick.toNat p }
      let s2 := modCl s1 cl fun c => { c with carries := c.carries ++ [ci'] }
      (∀ ks, depositKeys s2 cl ci' = .ok ks → exec (.carryArrival cl) s =
        .next ((depositLines ci' ks).foldl (depositLine cl ci') (setCarry s2 cl { ci' with acks := (depositLines ci' ks).length }))) ∧
      (∀ c v, depositKeys s2 cl ci' = .error (c, v) → (∀ x ∈ (getCl s1 cl).carries, x.uid ≠ ci.uid) → exec (.carryArrival cl) s = .next (woken s2 ci.uid ci' (.fail c v)))) ∧
    (∀ uid ci r, takeArrived s u 1 (isCarryReply 0) = some (p, s1) → p.late = none → p.body = .reply (.carry cl uid 0) r → (getCl s1 cl).carries.find? (fun c => c.uid == uid) = some ci →
      let f := ci.fail.or (match r with | .fault c _ => some (c, depositVa s1 cl ci p.src) | _ => none)
      let s2 := setCarry s1 cl { ci with acks := ci.acks - 1, fail := f }
      let c := wAt ci.desc 5
      (2 ≤ ci.acks → exec (.carryDepositDone cl) s = .next s2) ∧
      (∀ x v, ci.acks = 1 → f = some (x, v) → exec (.carryDepositDone cl) s = .next (woken s2 uid ci (.fail x v))) ∧
      (∀ k h pg, ci.acks = 1 → f = none → c.toNat % 8 = 0 → vkey s2 (some core) ci.ctx c.toNat 3 = .ok (k, pg) → homeOf k = some h →
        exec (.carryDepositDone cl) s = .next (send s2 2 ci.slack u h (.amo 0 k (BitVec.allOnes 64) 0 (.carry cl uid 1))))) ∧
    (∀ uid ci n, takeArrived s u 1 (fun p => isCarryReply 1 p || isCarryReply 2 p) = some (p, s1) → p.late = none → (getCl s1 cl).carries.find? (fun c => c.uid == uid) = some ci →
      (∀ k h pg, p.body = .reply (.carry cl uid 1) (.words [n]) →
        let last := n.toInt ≤ 1 ∧ n ≠ 0x8000000000000000
        let s2 := if last then modSlot s1 ci.t fun sl => { sl with chainSeq := sl.chainSeq + 1 } else s1
        let chain := BitVec.ofNat 64 (ci.ctx % 65536 * 2 ^ 48 + (getSlot s2 ci.t).chainSeq.toNat * 2 ^ 17 + ci.t.core * 64 + ci.t.slot)
        vkey s2 (some core) ci.ctx (wAt ci.desc 0).toNat 1 = .ok (k, pg) → homeOf k = some h →
        exec (.carryCountReply cl) s = .next (send s2 4 ci.slack u h (.bead { key := k, handle := wAt ci.desc 0, ctx := ci.ctx } (if last then .force chain else .hwait chain)
          ci.limit.toNat core (wAt ci.ws 2 + 64) (.carry cl uid 2)))) ∧
      (∀ v b f, p.body = .reply (.carry cl uid 2) (.value v b f) → exec (.carryCountReply cl) s = .next (woken s1 uid ci (.value v b f))) ∧
      (∀ c v, p.body = .reply (.carry cl uid 2) (.fault c v) → exec (.carryCountReply cl) s = .next (woken s1 uid ci (.fail c v))))) ∧
  (∀ (cl : Nat) ci s (k0 : Nat) b0 cells ms, let u := coreUnit (svcCore cl)
    (∀ h, homeOf k0 = some h → depositLine cl ci s ((k0, b0) :: cells, ms) = send s 7 ci.slack u h (.put ((k0, b0) :: cells) ms (.carry cl ci.uid 0))) ∧
    (homeOf k0 = none → depositLine cl ci s ((k0, b0) :: cells, ms) = send (putAtHome s ((k0, b0) :: cells) ms) 17 ci.slack u u (.reply (.carry cl ci.uid 0) .ok))) ∧
  (∀ ci (ks : List Nat), ks.length = ci.row.length → (∀ c, c ∈ ks.zip ci.row ↔ ∃ l ∈ depositLines ci ks, c ∈ l.1) ∧
    ∀ l ∈ depositLines ci ks, ∀ c ∈ l.1, ∀ d ∈ l.1, c.1 / 64 = d.1 / 64) ∧
  (∀ s (core : Nat) p s1 uid t ws b row marks dst, coreRuns s core = true → (∀ f, (getFn s f).recMode = false ∧ (getFn s f).replay = false) →
    takeArrived s (coreUnit core) 0 (backReady s core) = some (p, s1) → p.body = .carryBack uid t ws b row marks dst → (getSlot s1 t).resv = some uid → (getCont s1 uid).alive = true →
    let x := getSlot s1 t
    exec (.carryReturn core) s = .next (intoSlot (modCont (modCore (carryRow s1 core dst row marks) t.core fun c => { c with fwd := c.fwd.filter fun f => !(f.carry && f.old == t) }) uid
      fun k => { k with carry := k.carry.drop 1 }) t uid x.wbase ws (some b) x.spb x.spl)) ∧
  (∀ s (core : Nat), coreExists core = true → (getCore s core).stopped = false → ∃ t, exec (.coreParityError core) s = .next t ∧
    (getCore t core).stopped = true ∧ (getCore t core).deque = [] ∧ (getCore t core).blocks = [] ∧ (getCore t core).uinbox = [] ∧ ∀ i, (getSlot t { core := core, slot := i }).uid = none)

/-- Carries, deposits, returns and core parity: the statements CarryResults, CarryAndParityResults. -/
def Obligations.CarryRules : Prop :=
  Claim.CarryResults ∧ Claim.CarryAndParityResults

/-! ### Links -/

/-- R15, R17 to R20, R24 and R33. A codeword with another alignment field counts as one that cannot be corrected; that is the
model's choice, and so is what an ACK or NAK does before the link is active (log 52). -/
def Sys2Proof.Claim.LinkTrafficResults : Prop :=
  ∀ s (port : Nat), port < 16 → dieRuns s (port / 4) = true →
    let k := getPort s port
    let u := portUnit port
    (k.st = .active → (portPick s u = none ∨ ∃ net i x, portPick s u = some (net, i, x) ∧ 2048 < k.replayB.length + flits x) →
      exec (.fabricTransmit port) s = .next (modPort s port fun _ => { k with out := k.out ++ [mkFlit 0 0 0] })) ∧
    (∀ (net i : Nat) x0 x, portPick s u = some (net, i, x0) → x = depart s.tick.toNat x0 →
      let s1 := setQ s (qk 4 u 0 net) (delAt (getQ s (qk 4 u 0 net)) i)
      (∀ dev ru lu, k.st = .active → k.replayB.length + flits x ≤ 2048 → remoteOf k x = some (dev, ru, lu) →
        let fs := packetFlits x dev ru lu (x.slack - k.flight) k.txSeq
        ∃ t, exec (.fabricTransmit port) s = .next t ∧ getQ t (qk 4 u 0 net) = getQ s1 (qk 4 u 0 net) ∧ (getPort t port).txSeq = (k.txSeq + fs.length) % 4096 ∧
          (getPort t port).replayB = k.replayB ++ fs ∧ (getPort t port).out = k.out ++ fs.map (·.2) ∧ t.mem = s.mem) ∧
      (k.st = .down → exec (.fabricTransmit port) s = .next (portDiscard s1 port x))) ∧
    (∀ f : BitVec 256, k.st = .active → k.rx = [] →
      let n := fun (e : Bool) => { k with out := k.out ++ [ackFlit 6 k.rxSeq], linkErrs := k.linkErrs + bit e }
      (flitGood f = false → exec (.flitReceive port f) s = .next (modPort s port fun _ => n true)) ∧
      (flitGood f = true → flitType f = 0 → exec (.flitReceive port f) s = .next (modPort s port fun k => k)) ∧
      (flitGood f = true → 1 ≤ flitType f → flitType f ≤ 4 → flitSeq f ≠ k.rxSeq → exec (.flitReceive port f) s = .next (modPort s port fun _ => n false)) ∧
      (flitGood f = true → flitType f = 1 → flitSeq f = k.rxSeq → k.sinceAck + 1 < 64 →
        exec (.flitReceive port f) s = .next (modPort s port fun _ => { k with rxSeq := (k.rxSeq + 1) % 4096, sinceAck := k.sinceAck + 1, part := [f] })) ∧
      (flitGood f = true → flitType f = 2 → flitSeq f = k.rxSeq → k.sinceAck + 1 < 64 → k.part ≠ [] →
        exec (.flitReceive port f) s = .next (modPort s port fun _ => { k with rxSeq := (k.rxSeq + 1) % 4096, sinceAck := k.sinceAck + 1, part := k.part ++ [f] })) ∧
      (flitGood f = true → flitType f = 5 → exec (.ackReceive port f) s = .next (modPort s port fun _ => { k with replayB := ackDrop (flitNum f) k.replayB })) ∧
      (∀ j, flitGood f = true → flitType f = 6 → idxOf (fun e => e.1 == flitNum f) k.replayB = some j →
        exec (.nakReceive port f) s = .next (modPort s port fun _ => { k with out := k.out ++ (k.replayB.drop j).map (·.2), naks := k.naks ++ [s.tick.toNat] }))) ∧
    (∀ f : BitVec 256, (k.st = .fec ∨ k.st = .version) → k.rx = [f] → flitGood f = true → (flitType f = 5 → exec (.ackReceive port f) s = .next (modPort s port fun _ => { k with rx := [] })) ∧
      (flitType f = 6 → exec (.nakReceive port f) s = .next (modPort s port fun _ => { k with rx := [] }))) ∧
    (∀ f : BitVec 256, (k.st = .fec ∨ k.st = .version) → k.rx = [] → flitGood f = false →
      exec (.flitReceive port f) s = .next (modPort s port fun _ => { k with linkErrs := k.linkErrs + 1 })) ∧
    (∀ (sent got : List (BitVec 256)) (field : BitVec 20) (e : Nat), (k.st = .fec ∨ k.st = .version ∨ k.st = .active) → sent.length = 20 → got.length = 20 →
      let ok := e ≤ 15 ∧ field.toNat = 0x6A3C * 16 + k.cwNum % 16
      exec (.codewordReceive port sent (got, field) e) s = .next (modPort s port fun k => { k with
        rx := k.rx ++ (if ok then sent else got).filter fun f => !(flitGood f && decide (flitType f = 0))
        fecGood := if ok then k.fecGood + 1 else 0, cwNum := (k.cwNum + 1) % 16 }))

/-- R16 and R21 to R24. NAKs are counted when they come in, only an active port retrains, and a first training that fails
posts no notice; these are the model's choice (log 42). -/
def Sys2Proof.Claim.LinkTrainingResults : Prop :=
  ∀ s (port : Nat), port < 16 → dieRuns s (port / 4) = true →
    let k := getPort s port
    let send1 := fun (st n : Nat) => k.out ++ [trainFlit st n]
    let again : Port := { k with st := .lock, since := s.tick.toNat, attempts := 0, retrain := true, fecGood := 0, naks := [], out := send1 0 k.fibres }
    (∀ l : BitVec 4, k.st = .lock → k.since + 500000 ≤ s.tick.toNat →
      let n := ((List.range 4).filter fun i => l.getLsbD i).length
      let m := if n = 4 then 4 else if 2 ≤ n then 2 else 1
      (n ≠ 0 → exec (.lockHoldExpiry port l) s = .next (modPort s port fun _ => { k with st := .align, fibres := m, locked := l, out := send1 1 m })) ∧
      (n = 0 → exec (.lockHoldExpiry port l) s = .next (modPort s port fun _ => { k with fibres := 0, locked := 0 }) ∧
        ∀ t, exec (.lockHoldExpiry port l) s = .next t → (linkDown t).testBit port = true)) ∧
    (∀ f : BitVec 20, k.st = .align → f.toNat / 16 = 0x6A3C → k.fibres ≠ 0 →
      exec (.markersAligned (port, f)) s = .next (modPort s port fun _ => { k with st := .fec, fecGood := 0, cwNum := (f.toNat + 1) % 16, out := send1 2 k.fibres })) ∧
    (k.fibres = 0 → (∀ f : BitVec 20, exec (.markersAligned (port, f)) s = .next s) ∧ exec (.fecCodewordCount port) s = .next s) ∧
    (k.st = .fec → 64 ≤ k.fecGood → k.fibres ≠ 0 → exec (.fecCodewordCount port) s = .next (modPort s port fun _ => { k with st := .version, out := send1 3 k.fibres })) ∧
    (∀ f : BitVec 256, k.st = .version → k.rx = [] → flitGood f = true → flitType f = 7 → (flitPay f).toNat / 2 ^ 220 = 3 → k.fibres ≠ 0 →
      s.tick.toNat < k.since + 5000000 →
      let low := (flitPay f).toNat / 2 ^ 208 % 256
      let high := (flitPay f).toNat / 2 ^ 200 % 256
      (low ≤ 1 → 1 ≤ high → ∃ t, exec (.trainingFlitReceive port f) s = .next t ∧ (getPort t port).st = .active ∧ (getPort t port).ver = 1 ∧ (getPort t port).retrain = false ∧
        (getPort t port).out = k.out ++ k.replayB.map (·.2) ∧ (k.retrain = true → t.noticeSeq = s.noticeSeq + 1) ∧ (k.retrain = false → t.noticeSeq = s.noticeSeq)) ∧
      ((1 < low ∨ high < 1) → k.attempts + 1 < 3 → exec (.trainingFlitReceive port f) s = .next (modPort s port fun _ =>
        { k with st := .lock, since := s.tick.toNat, attempts := k.attempts + 1, failVer := true, fecGood := 0, rx := [] }))) ∧
    ((k.st = .lock ∨ k.st = .align ∨ k.st = .fec ∨ k.st = .version) → k.since + 5000000 ≤ s.tick.toNat →
      (k.attempts + 1 < 3 → exec (.trainingTimeout port) s = .next (modPort s port fun _ =>
        { k with st := .lock, since := s.tick.toNat, attempts := k.attempts + 1, failVer := false, fecGood := 0, rx := [] })) ∧
      (3 ≤ k.attempts + 1 → k.retrain = false → exec (.trainingTimeout port) s = .next (modPort s port fun _ =>
        { k with st := .down, attempts := k.attempts + 1, failVer := false, fecGood := 0, rx := [] }))) ∧
    (∀ f : Nat, f < 4 → k.locked.getLsbD f = true → k.st ≠ .active →
      let l := k.locked &&& ~~~(1#4 <<< f)
      let n := ((List.range 4).filter fun i => l.getLsbD i).length
      exec (.fibreLockLoss port f) s = .next (modPort s port fun _ => { k with locked := l, fibres := if n = 4 then 4 else if 2 ≤ n then 2 else n })) ∧
    (k.st = .active → exec (.fecLockLoss port) s = .next (modPort s port fun _ => again) ∧
      (16 < (k.naks.filter fun t => decide (s.tick.toNat < t + 500000)).length → exec (.nakRateExceeded port) s = .next (modPort s port fun _ => again)) ∧
      (∀ f : Nat, f < 4 → k.locked.getLsbD f = true → ∃ t, exec (.fibreLockLoss port f) s = .next t ∧ (getPort t port).st = .lock ∧ (getPort t port).retrain = true ∧
        (getPort t port).locked = k.locked &&& ~~~(1#4 <<< f) ∧ (getPort t port).since = s.tick.toNat ∧ (getPort t port).attempts = 0))

/-- Optical links: traffic and training: the statements LinkTrafficResults, LinkTrainingResults. -/
def Obligations.LinkResults : Prop :=
  Claim.LinkTrafficResults ∧ Claim.LinkTrainingResults

/-! ### Frames -/

/-- R121 and R192 with the effects of R280 to R299. -/
def Sys2Proof.Claim.ScalarFrame : Prop :=
  ∀ (d a b : BitVec 7) (k p q : BitVec 3) (i : BitVec 11) (n : BitVec 6) (w : BitVec 18) (o : BitVec 15) (z : BitVec 1) (e f : BitVec 5) (v : BitVec 4),
    ∀ x ∈ scalarForms d a b k p q i n w o z e f v, ∀ s t, Runs s → Handled s → exec x.1 s = .next t →
      OthersKept s t x.2.1 x.2.2.1 ∧ (getSlot t s.cur).csr = trapped (getSlot s s.cur).csr (getSlot t s.cur).csr x.2.2.2 ∧
      (∀ y, memByte t.mem y = memByte s.mem y) ∧ t = { s with cores := t.cores, freeCnt := t.freeCnt } ∧
      (∀ c, c ≠ s.cur.core → getCore t c = getCore s c)

/-- R326 to R328. -/
def Obligations.VectorFrame : Prop :=
  ∀ (d a b : BitVec 4) (k p : BitVec 3) (z m : BitVec 1) (l : BitVec 2) (e f : BitVec 5) (g h : BitVec 7),
    ∀ x ∈ vectorForms d a b k p z m l e f g h, ∀ s t, Runs s → Handled s → exec x.1 s = .next t →
      (∀ r, (∀ v ∈ x.2.1, ¬ (8 * v ≤ r ∧ r < 8 * v + 8)) → regGet t s.cur (getSlot s s.cur) r = regGet s s.cur (getSlot s s.cur) r) ∧
      (∀ q, q ≠ x.2.2 → predGet (getSlot t s.cur) q = predGet (getSlot s s.cur) q) ∧ (∀ y, y ≠ s.cur → getSlot t y = getSlot s y) ∧
      (getSlot t s.cur).csr = trapped (getSlot s s.cur).csr (getSlot t s.cur).csr true ∧
      (∀ y, memByte t.mem y = memByte s.mem y) ∧ t = { s with cores := t.cores } ∧ (∀ c, c ≠ s.cur.core → getCore t c = getCore s c)

/-- R303, R305, R306, R312 and R313. -/
def Obligations.MemoryFrame : Prop :=
  (∀ (t a x : BitVec 7) (z k r : BitVec 2) (o : BitVec 7), ∀ i ∈ [Instr.ld t a z k o, .ldn t a z k o, .ldx t a x r z, .ldxn t a x r z, .feqry t a],
    ∀ s s', Runs s → Handled s → Untraced s → exec i s = .next s' →
      OthersKept s s' t.toNat 0 ∧ (getSlot s' s.cur).csr = excepted (getSlot s s.cur).csr (getSlot s' s.cur).csr ∧
      ∀ y, memByte s'.mem y = memByte s.mem y) ∧
  (∀ (t a : BitVec 7) (z k : BitVec 2) (o : BitVec 7) s s', Runs s → Handled s → Untraced s →
    exec (.st t a z k o) s = .next s' →
    let n : Nat := 2 ^ z.toNat
    let ea := regGet s s.cur (getSlot s s.cur) a.toNat + BitVec.ofInt 64 (o.toInt * n)
    let at_ := place (envFor 4 (.st t a z k o) s) ea 2 (skOf (getSlot s s.cur).csr k.toNat)
    (getSlot s' s.cur).csr = excepted (getSlot s s.cur).csr (getSlot s' s.cur).csr ∧
    ((∀ ent off, at_ ≠ .ok (.reg ent off)) → (∀ off, at_ ≠ .ok (.fe off)) → OthersKept s s' 0 0) ∧
    ∀ y, (∀ off, at_ ≠ .ok (.fe off)) → (∀ key ent pg, at_ = .ok (.mem key ent pg) → y < key ∨ key + n ≤ y) → memByte s'.mem y = memByte s.mem y) ∧
  (∀ (t a x : BitVec 7) (r z : BitVec 2) s s', Runs s → Handled s → Untraced s →
    exec (.stx t a x r z) s = .next s' →
    let n : Nat := 2 ^ z.toNat
    let e := envFor 4 (.stx t a x r z) s
    let base := issued s 0 (regGet s s.cur (getSlot s s.cur) a.toNat)
    let x0 := issued s 1 (regGet s s.cur (getSlot s s.cur) x.toNat)
    let held := if (getSlot s s.cur).ports && t.toNat ≥ 120 then [] else [issued s 2 (regGet s s.cur (getSlot s s.cur) t.toNat)]
    let idx := remapIdx e s ([base, x0] ++ held) [] r.toNat x0
    let at_ := fun (i : Word) => place e (base + i * BitVec.ofNat 64 n) 2 (dskOf (getSlot s s.cur))
    (getSlot s' s.cur).csr = excepted (getSlot s s.cur).csr (getSlot s' s.cur).csr ∧
    ((∀ s1 acc i ent off, idx = .ok (s1, acc, i) → at_ i ≠ .ok (.reg ent off) ∧ at_ i ≠ .ok (.fe off)) → OthersKept s s' 0 0) ∧
    ∀ y, (∀ s1 acc i off, idx = .ok (s1, acc, i) → at_ i ≠ .ok (.fe off)) →
      (∀ s1 acc i key ent pg, idx = .ok (s1, acc, i) → at_ i = .ok (.mem key ent pg) → y < key ∨ key + n ≤ y) → memByte s'.mem y = memByte s.mem y) ∧
  (∀ (d a b : BitVec 7), ∀ p ∈ amoTable d a b, ∀ s s', Runs s → Handled s → Untraced s → exec p.1 s = .next s' →
    OthersKept s s' d.toNat 0 ∧ (getSlot s' s.cur).csr = excepted (getSlot s s.cur).csr (getSlot s' s.cur).csr ∧
    ∀ y, (∀ key ent pg, place (envFor 4 p.1 s) (regGet s s.cur (getSlot s s.cur) a.toNat) 3 (dskOf (getSlot s s.cur)) = .ok (.mem key ent pg) →
      y < key ∨ key + p.2.2.1 ≤ y) → memByte s'.mem y = memByte s.mem y)

/-- R272 and R394. -/
def Sys2Proof.Claim.CsrFrame : Prop :=
  ∀ (d a : BitVec 7) (c : BitVec 11), ∀ i ∈ [Instr.csrwr d a c, .csrset d a c], c.toNat ∈ csrWritable.map (·.1) →
    ∀ s t, Runs s → Handled s → exec i s = .next t →
      (∀ m ∈ (csrTable s).map (·.1), m ≠ c.toNat → m ∉ [0x004, 0x071, 0x072, 0x073] → csrGet (envFor 4 i s) t m = csrGet (envFor 4 i s) s m) ∧
      OthersKept s t d.toNat 0 ∧ (∀ y, memByte t.mem y = memByte s.mem y) ∧ t = { s with cores := t.cores } ∧
      (∀ c, c ≠ s.cur.core → getCore t c = getCore s c)

/-- What scalar register and CSR instructions leave unchanged: the statements ScalarFrame, CsrFrame. -/
def Obligations.ScalarAndCsrFrame : Prop :=
  Claim.ScalarFrame ∧ Claim.CsrFrame
end

