-- ==== Sys2Proof/Laws/Table.lean ====
section
/-!
SUPPORT. Sparse tables: reading after writing, rising keys, and entries that are never the default.
-/

namespace Sys2Proof.Laws

open Sys2Proof.Machine

variable {α : Type} (d : α)

/-- The canonical form of a sparse table: rising keys, and no entry equal to the default. -/
def Canonical (m : SMap α) : Prop := m.Pairwise (fun a b => a.1 < b.1) ∧ ∀ e ∈ m, e.2 ≠ d

theorem smGet_smDel_same (m : SMap α) (k : Nat) : smGet d (smDel m k) k = d := by
  induction m with
  | nil => rfl
  | cons e r ih =>
    unfold smDel at ih ⊢
    by_cases h : e.1 = k
    · rw [List.filter_cons_of_neg (by simp [h])]
      exact ih
    · rw [List.filter_cons_of_pos (by simp [h])]
      simp only [smGet, if_neg (Ne.symm h)]
      exact ih

theorem smGet_smDel_other (m : SMap α) {k j : Nat} (h : j ≠ k) : smGet d (smDel m k) j = smGet d m j := by
  induction m with
  | nil => rfl
  | cons e r ih =>
    unfold smDel at ih ⊢
    by_cases he : e.1 = k
    · rw [List.filter_cons_of_neg (by simp [he])]
      simp only [smGet, if_neg (show ¬ j = e.1 from fun hj => h (hj.trans he))]
      exact ih
    · rw [List.filter_cons_of_pos (by simp [he])]
      simp only [smGet, ih]

theorem smGet_smIns_same (m : SMap α) (k : Nat) (v : α) (hm : ∀ e ∈ m, e.1 ≠ k) : smGet d (smIns k v m) k = v := by
  induction m with
  | nil => simp [smIns, smGet]
  | cons e r ih =>
    have he : ¬ k = e.1 := fun h => hm e (by simp) h.symm
    simp only [smIns]
    split
    · simp [smGet]
    · simp only [smGet, if_neg he]
      exact ih fun x hx => hm x (by simp [hx])

theorem smGet_smIns_other (m : SMap α) {k j : Nat} (v : α) (h : j ≠ k) : smGet d (smIns k v m) j = smGet d m j := by
  induction m with
  | nil => simp [smIns, smGet, h]
  | cons e r ih =>
    simp only [smIns]
    split
    · simp [smGet, h]
    · simp only [smGet, ih]

theorem smDel_ne (m : SMap α) (k : Nat) : ∀ e ∈ smDel m k, e.1 ≠ k := by
  intro e he
  simpa using (List.mem_filter.mp he).2

section
variable [DecidableEq α]

/-- A key that has just been set reads as what was set. -/
@[simp] theorem smGet_smSet_same (m : SMap α) (k : Nat) (v : α) : smGet d (smSet d m k v) k = v := by
  unfold smSet
  split
  next h => rw [h]; exact smGet_smDel_same d m k
  next => exact smGet_smIns_same d _ k v (smDel_ne m k)

/-- Every other key reads as before. -/
theorem smGet_smSet_other (m : SMap α) {k j : Nat} (v : α) (h : j ≠ k) : smGet d (smSet d m k v) j = smGet d m j := by
  unfold smSet
  split
  · exact smGet_smDel_other d m h
  · rw [smGet_smIns_other d _ v h, smGet_smDel_other d m h]

end

theorem mem_smIns (m : SMap α) (k : Nat) (v : α) (e : Nat × α) : e ∈ smIns k v m ↔ e = (k, v) ∨ e ∈ m := by
  induction m with
  | nil => simp [smIns]
  | cons x r ih =>
    simp only [smIns]
    split
    · simp
    · simp only [List.mem_cons, ih]
      tauto

theorem smIns_rising (m : SMap α) (k : Nat) (v : α) (hm : m.Pairwise (fun a b => a.1 < b.1)) (hk : ∀ e ∈ m, e.1 ≠ k) :
    (smIns k v m).Pairwise (fun a b => a.1 < b.1) := by
  induction m with
  | nil => simp [smIns]
  | cons x r ih =>
    rw [List.pairwise_cons] at hm
    simp only [smIns]
    split
    next h =>
      refine List.pairwise_cons.mpr ⟨fun e he => ?_, List.pairwise_cons.mpr hm⟩
      rcases List.mem_cons.mp he with rfl | he
      · exact h
      · exact Nat.lt_trans h (hm.1 e he)
    next h =>
      refine List.pairwise_cons.mpr ⟨fun e he => ?_, ih hm.2 fun e he => hk e (by simp [he])⟩
      rcases (mem_smIns r k v e).mp he with rfl | he
      · have := hk x (by simp)
        omega
      · exact hm.1 e he

theorem smDel_canonical {m : SMap α} (k : Nat) (h : Canonical d m) : Canonical d (smDel m k) :=
  ⟨h.1.filter _, fun e he => h.2 e (List.mem_filter.mp he).1⟩

/-- Setting a key keeps the canonical form. -/
theorem smSet_canonical [DecidableEq α] {m : SMap α} (k : Nat) (v : α) (h : Canonical d m) : Canonical d (smSet d m k v) := by
  unfold smSet
  split
  next => exact smDel_canonical d k h
  next hv =>
    refine ⟨smIns_rising _ k v (smDel_canonical d k h).1 (smDel_ne m k), fun e he => ?_⟩
    rcases (mem_smIns _ k v e).mp he with rfl | he
    · exact hv
    · exact (smDel_canonical d k h).2 e he

theorem nil_canonical : Canonical d ([] : SMap α) := ⟨List.Pairwise.nil, fun _ h => nomatch h⟩

/-- A table in canonical form is determined by what its keys read as. -/
theorem canonical_ext {m n : SMap α} (hm : Canonical d m) (hn : Canonical d n) (h : ∀ k, smGet d m k = smGet d n k) : m = n := by
  have low : ∀ (l : SMap α) (k : Nat), (∀ e ∈ l, k < e.1) → smGet d l k = d := by
    intro l
    induction l with
    | nil => intros; rfl
    | cons e r ih =>
      intro k hk
      have := hk e (by simp)
      simp only [smGet, if_neg (show ¬ k = e.1 by omega)]
      exact ih k fun x hx => hk x (by simp [hx])
  induction m generalizing n with
  | nil =>
    cases n with
    | nil => rfl
    | cons e r =>
      have := h e.1
      simp only [smGet, if_true] at this
      exact absurd this.symm (hn.2 e (by simp))
  | cons e r ih =>
    cases n with
    | nil =>
      have := h e.1
      simp only [smGet, if_true] at this
      exact absurd this (hm.2 e (by simp))
    | cons f t =>
      have hr := List.pairwise_cons.mp hm.1
      have ht := List.pairwise_cons.mp hn.1
      have hk : e.1 = f.1 := by
        rcases Nat.lt_trichotomy e.1 f.1 with hl | he | hl
        · have hh := h e.1
          rw [low (f :: t) e.1 (fun x hx => by
            rcases List.mem_cons.mp hx with rfl | hx
            · exact hl
            · exact Nat.lt_trans hl (ht.1 x hx))] at hh
          simp only [smGet, if_true] at hh
          exact absurd hh (hm.2 e (by simp))
        · exact he
        · have hh := h f.1
          rw [low (e :: r) f.1 (fun x hx => by
            rcases List.mem_cons.mp hx with rfl | hx
            · exact hl
            · exact Nat.lt_trans hl (hr.1 x hx))] at hh
          simp only [smGet, if_true] at hh
          exact absurd hh.symm (hn.2 f (by simp))
      have hv : e.2 = f.2 := by
        have hh := h e.1
        simpa only [smGet, if_true, hk] using hh
      have hef : e = f := Prod.ext hk hv
      subst hef
      congr 1
      refine ih ⟨hr.2, fun x hx => hm.2 x (by simp [hx])⟩ ⟨ht.2, fun x hx => hn.2 x (by simp [hx])⟩ fun k => ?_
      by_cases hke : k = e.1
      · subst hke
        rw [low r e.1 hr.1, low t e.1 ht.1]
      · have hh := h k
        simpa only [smGet, if_neg hke] using hh

end Sys2Proof.Laws
end

