-- ==== Sys2Proof/Laws/State.lean ====
section
/-!
SUPPORT. What each named update of the state leaves alone, field by field, and what a read after a write of a core, a
slot, a register, a predicate, a cluster, a home, a context, a continuation or a queue gives.
-/

namespace Sys2Proof.Machine

open Sys2Proof.Laws

/-! ### setCore -/

@[simp] theorem setCore_clusters (s : State) (c : Nat) (x : Core) : (setCore s c x).clusters = s.clusters := rfl
@[simp] theorem setCore_dies (s : State) (c : Nat) (x : Core) : (setCore s c x).dies = s.dies := rfl
@[simp] theorem setCore_homes (s : State) (c : Nat) (x : Core) : (setCore s c x).homes = s.homes := rfl
@[simp] theorem setCore_routers (s : State) (c : Nat) (x : Core) : (setCore s c x).routers = s.routers := rfl
@[simp] theorem setCore_tokens (s : State) (c : Nat) (x : Core) : (setCore s c x).tokens = s.tokens := rfl
@[simp] theorem setCore_queues (s : State) (c : Nat) (x : Core) : (setCore s c x).queues = s.queues := rfl
@[simp] theorem setCore_ports (s : State) (c : Nat) (x : Core) : (setCore s c x).ports = s.ports := rfl
@[simp] theorem setCore_fns (s : State) (c : Nat) (x : Core) : (setCore s c x).fns = s.fns := rfl
@[simp] theorem setCore_ctxs (s : State) (c : Nat) (x : Core) : (setCore s c x).ctxs = s.ctxs := rfl
@[simp] theorem setCore_conts (s : State) (c : Nat) (x : Core) : (setCore s c x).conts = s.conts := rfl
@[simp] theorem setCore_nextUid (s : State) (c : Nat) (x : Core) : (setCore s c x).nextUid = s.nextUid := rfl
@[simp] theorem setCore_written (s : State) (c : Nat) (x : Core) : (setCore s c x).written = s.written := rfl
@[simp] theorem setCore_subs (s : State) (c : Nat) (x : Core) : (setCore s c x).subs = s.subs := rfl
@[simp] theorem setCore_mem (s : State) (c : Nat) (x : Core) : (setCore s c x).mem = s.mem := rfl
@[simp] theorem setCore_bad (s : State) (c : Nat) (x : Core) : (setCore s c x).bad = s.bad := rfl
@[simp] theorem setCore_marks (s : State) (c : Nat) (x : Core) : (setCore s c x).marks = s.marks := rfl
@[simp] theorem setCore_full (s : State) (c : Nat) (x : Core) : (setCore s c x).full = s.full := rfl
@[simp] theorem setCore_mgmt (s : State) (c : Nat) (x : Core) : (setCore s c x).mgmt = s.mgmt := rfl
@[simp] theorem setCore_i3c (s : State) (c : Nat) (x : Core) : (setCore s c x).i3c = s.i3c := rfl
@[simp] theorem setCore_power (s : State) (c : Nat) (x : Core) : (setCore s c x).power = s.power := rfl
@[simp] theorem setCore_boot (s : State) (c : Nat) (x : Core) : (setCore s c x).boot = s.boot := rfl
@[simp] theorem setCore_tick (s : State) (c : Nat) (x : Core) : (setCore s c x).tick = s.tick := rfl
@[simp] theorem setCore_driver (s : State) (c : Nat) (x : Core) : (setCore s c x).driver = s.driver := rfl
@[simp] theorem setCore_msix (s : State) (c : Nat) (x : Core) : (setCore s c x).msix = s.msix := rfl
@[simp] theorem setCore_hostData (s : State) (c : Nat) (x : Core) : (setCore s c x).hostData = s.hostData := rfl
@[simp] theorem setCore_noticeSeq (s : State) (c : Nat) (x : Core) : (setCore s c x).noticeSeq = s.noticeSeq := rfl
@[simp] theorem setCore_sent (s : State) (c : Nat) (x : Core) : (setCore s c x).sent = s.sent := rfl
@[simp] theorem setCore_freeCnt (s : State) (c : Nat) (x : Core) : (setCore s c x).freeCnt = s.freeCnt := rfl
@[simp] theorem setCore_cur (s : State) (c : Nat) (x : Core) : (setCore s c x).cur = s.cur := rfl
@[simp] theorem setCore_sched (s : State) (c : Nat) (x : Core) : (setCore s c x).sched = s.sched := rfl
@[simp] theorem setCore_turns (s : State) (c : Nat) (x : Core) : (setCore s c x).turns = s.turns := rfl

/-! ### modCore -/

@[simp] theorem modCore_clusters (s : State) (c : Nat) (f : Core → Core) : (modCore s c f).clusters = s.clusters := rfl
@[simp] theorem modCore_dies (s : State) (c : Nat) (f : Core → Core) : (modCore s c f).dies = s.dies := rfl
@[simp] theorem modCore_homes (s : State) (c : Nat) (f : Core → Core) : (modCore s c f).homes = s.homes := rfl
@[simp] theorem modCore_routers (s : State) (c : Nat) (f : Core → Core) : (modCore s c f).routers = s.routers := rfl
@[simp] theorem modCore_tokens (s : State) (c : Nat) (f : Core → Core) : (modCore s c f).tokens = s.tokens := rfl
@[simp] theorem modCore_queues (s : State) (c : Nat) (f : Core → Core) : (modCore s c f).queues = s.queues := rfl
@[simp] theorem modCore_ports (s : State) (c : Nat) (f : Core → Core) : (modCore s c f).ports = s.ports := rfl
@[simp] theorem modCore_fns (s : State) (c : Nat) (f : Core → Core) : (modCore s c f).fns = s.fns := rfl
@[simp] theorem modCore_ctxs (s : State) (c : Nat) (f : Core → Core) : (modCore s c f).ctxs = s.ctxs := rfl
@[simp] theorem modCore_conts (s : State) (c : Nat) (f : Core → Core) : (modCore s c f).conts = s.conts := rfl
@[simp] theorem modCore_nextUid (s : State) (c : Nat) (f : Core → Core) : (modCore s c f).nextUid = s.nextUid := rfl
@[simp] theorem modCore_written (s : State) (c : Nat) (f : Core → Core) : (modCore s c f).written = s.written := rfl
@[simp] theorem modCore_subs (s : State) (c : Nat) (f : Core → Core) : (modCore s c f).subs = s.subs := rfl
@[simp] theorem modCore_mem (s : State) (c : Nat) (f : Core → Core) : (modCore s c f).mem = s.mem := rfl
@[simp] theorem modCore_bad (s : State) (c : Nat) (f : Core → Core) : (modCore s c f).bad = s.bad := rfl
@[simp] theorem modCore_marks (s : State) (c : Nat) (f : Core → Core) : (modCore s c f).marks = s.marks := rfl
@[simp] theorem modCore_full (s : State) (c : Nat) (f : Core → Core) : (modCore s c f).full = s.full := rfl
@[simp] theorem modCore_mgmt (s : State) (c : Nat) (f : Core → Core) : (modCore s c f).mgmt = s.mgmt := rfl
@[simp] theorem modCore_i3c (s : State) (c : Nat) (f : Core → Core) : (modCore s c f).i3c = s.i3c := rfl
@[simp] theorem modCore_power (s : State) (c : Nat) (f : Core → Core) : (modCore s c f).power = s.power := rfl
@[simp] theorem modCore_boot (s : State) (c : Nat) (f : Core → Core) : (modCore s c f).boot = s.boot := rfl
@[simp] theorem modCore_tick (s : State) (c : Nat) (f : Core → Core) : (modCore s c f).tick = s.tick := rfl
@[simp] theorem modCore_driver (s : State) (c : Nat) (f : Core → Core) : (modCore s c f).driver = s.driver := rfl
@[simp] theorem modCore_msix (s : State) (c : Nat) (f : Core → Core) : (modCore s c f).msix = s.msix := rfl
@[simp] theorem modCore_hostData (s : State) (c : Nat) (f : Core → Core) : (modCore s c f).hostData = s.hostData := rfl
@[simp] theorem modCore_noticeSeq (s : State) (c : Nat) (f : Core → Core) : (modCore s c f).noticeSeq = s.noticeSeq := rfl
@[simp] theorem modCore_sent (s : State) (c : Nat) (f : Core → Core) : (modCore s c f).sent = s.sent := rfl
@[simp] theorem modCore_freeCnt (s : State) (c : Nat) (f : Core → Core) : (modCore s c f).freeCnt = s.freeCnt := rfl
@[simp] theorem modCore_cur (s : State) (c : Nat) (f : Core → Core) : (modCore s c f).cur = s.cur := rfl
@[simp] theorem modCore_sched (s : State) (c : Nat) (f : Core → Core) : (modCore s c f).sched = s.sched := rfl
@[simp] theorem modCore_turns (s : State) (c : Nat) (f : Core → Core) : (modCore s c f).turns = s.turns := rfl

/-! ### setSlot -/

@[simp] theorem setSlot_clusters (s : State) (t : Tid) (x : Slot) : (setSlot s t x).clusters = s.clusters := rfl
@[simp] theorem setSlot_dies (s : State) (t : Tid) (x : Slot) : (setSlot s t x).dies = s.dies := rfl
@[simp] theorem setSlot_homes (s : State) (t : Tid) (x : Slot) : (setSlot s t x).homes = s.homes := rfl
@[simp] theorem setSlot_routers (s : State) (t : Tid) (x : Slot) : (setSlot s t x).routers = s.routers := rfl
@[simp] theorem setSlot_tokens (s : State) (t : Tid) (x : Slot) : (setSlot s t x).tokens = s.tokens := rfl
@[simp] theorem setSlot_queues (s : State) (t : Tid) (x : Slot) : (setSlot s t x).queues = s.queues := rfl
@[simp] theorem setSlot_ports (s : State) (t : Tid) (x : Slot) : (setSlot s t x).ports = s.ports := rfl
@[simp] theorem setSlot_fns (s : State) (t : Tid) (x : Slot) : (setSlot s t x).fns = s.fns := rfl
@[simp] theorem setSlot_ctxs (s : State) (t : Tid) (x : Slot) : (setSlot s t x).ctxs = s.ctxs := rfl
@[simp] theorem setSlot_conts (s : State) (t : Tid) (x : Slot) : (setSlot s t x).conts = s.conts := rfl
@[simp] theorem setSlot_nextUid (s : State) (t : Tid) (x : Slot) : (setSlot s t x).nextUid = s.nextUid := rfl
@[simp] theorem setSlot_written (s : State) (t : Tid) (x : Slot) : (setSlot s t x).written = s.written := rfl
@[simp] theorem setSlot_subs (s : State) (t : Tid) (x : Slot) : (setSlot s t x).subs = s.subs := rfl
@[simp] theorem setSlot_mem (s : State) (t : Tid) (x : Slot) : (setSlot s t x).mem = s.mem := rfl
@[simp] theorem setSlot_bad (s : State) (t : Tid) (x : Slot) : (setSlot s t x).bad = s.bad := rfl
@[simp] theorem setSlot_marks (s : State) (t : Tid) (x : Slot) : (setSlot s t x).marks = s.marks := rfl
@[simp] theorem setSlot_full (s : State) (t : Tid) (x : Slot) : (setSlot s t x).full = s.full := rfl
@[simp] theorem setSlot_mgmt (s : State) (t : Tid) (x : Slot) : (setSlot s t x).mgmt = s.mgmt := rfl
@[simp] theorem setSlot_i3c (s : State) (t : Tid) (x : Slot) : (setSlot s t x).i3c = s.i3c := rfl
@[simp] theorem setSlot_power (s : State) (t : Tid) (x : Slot) : (setSlot s t x).power = s.power := rfl
@[simp] theorem setSlot_boot (s : State) (t : Tid) (x : Slot) : (setSlot s t x).boot = s.boot := rfl
@[simp] theorem setSlot_tick (s : State) (t : Tid) (x : Slot) : (setSlot s t x).tick = s.tick := rfl
@[simp] theorem setSlot_driver (s : State) (t : Tid) (x : Slot) : (setSlot s t x).driver = s.driver := rfl
@[simp] theorem setSlot_msix (s : State) (t : Tid) (x : Slot) : (setSlot s t x).msix = s.msix := rfl
@[simp] theorem setSlot_hostData (s : State) (t : Tid) (x : Slot) : (setSlot s t x).hostData = s.hostData := rfl
@[simp] theorem setSlot_noticeSeq (s : State) (t : Tid) (x : Slot) : (setSlot s t x).noticeSeq = s.noticeSeq := rfl
@[simp] theorem setSlot_sent (s : State) (t : Tid) (x : Slot) : (setSlot s t x).sent = s.sent := rfl
@[simp] theorem setSlot_freeCnt (s : State) (t : Tid) (x : Slot) : (setSlot s t x).freeCnt = s.freeCnt := rfl
@[simp] theorem setSlot_cur (s : State) (t : Tid) (x : Slot) : (setSlot s t x).cur = s.cur := rfl
@[simp] theorem setSlot_sched (s : State) (t : Tid) (x : Slot) : (setSlot s t x).sched = s.sched := rfl
@[simp] theorem setSlot_turns (s : State) (t : Tid) (x : Slot) : (setSlot s t x).turns = s.turns := rfl

/-! ### modSlot -/

@[simp] theorem modSlot_clusters (s : State) (t : Tid) (f : Slot → Slot) : (modSlot s t f).clusters = s.clusters := rfl
@[simp] theorem modSlot_dies (s : State) (t : Tid) (f : Slot → Slot) : (modSlot s t f).dies = s.dies := rfl
@[simp] theorem modSlot_homes (s : State) (t : Tid) (f : Slot → Slot) : (modSlot s t f).homes = s.homes := rfl
@[simp] theorem modSlot_routers (s : State) (t : Tid) (f : Slot → Slot) : (modSlot s t f).routers = s.routers := rfl
@[simp] theorem modSlot_tokens (s : State) (t : Tid) (f : Slot → Slot) : (modSlot s t f).tokens = s.tokens := rfl
@[simp] theorem modSlot_queues (s : State) (t : Tid) (f : Slot → Slot) : (modSlot s t f).queues = s.queues := rfl
@[simp] theorem modSlot_ports (s : State) (t : Tid) (f : Slot → Slot) : (modSlot s t f).ports = s.ports := rfl
@[simp] theorem modSlot_fns (s : State) (t : Tid) (f : Slot → Slot) : (modSlot s t f).fns = s.fns := rfl
@[simp] theorem modSlot_ctxs (s : State) (t : Tid) (f : Slot → Slot) : (modSlot s t f).ctxs = s.ctxs := rfl
@[simp] theorem modSlot_conts (s : State) (t : Tid) (f : Slot → Slot) : (modSlot s t f).conts = s.conts := rfl
@[simp] theorem modSlot_nextUid (s : State) (t : Tid) (f : Slot → Slot) : (modSlot s t f).nextUid = s.nextUid := rfl
@[simp] theorem modSlot_written (s : State) (t : Tid) (f : Slot → Slot) : (modSlot s t f).written = s.written := rfl
@[simp] theorem modSlot_subs (s : State) (t : Tid) (f : Slot → Slot) : (modSlot s t f).subs = s.subs := rfl
@[simp] theorem modSlot_mem (s : State) (t : Tid) (f : Slot → Slot) : (modSlot s t f).mem = s.mem := rfl
@[simp] theorem modSlot_bad (s : State) (t : Tid) (f : Slot → Slot) : (modSlot s t f).bad = s.bad := rfl
@[simp] theorem modSlot_marks (s : State) (t : Tid) (f : Slot → Slot) : (modSlot s t f).marks = s.marks := rfl
@[simp] theorem modSlot_full (s : State) (t : Tid) (f : Slot → Slot) : (modSlot s t f).full = s.full := rfl
@[simp] theorem modSlot_mgmt (s : State) (t : Tid) (f : Slot → Slot) : (modSlot s t f).mgmt = s.mgmt := rfl
@[simp] theorem modSlot_i3c (s : State) (t : Tid) (f : Slot → Slot) : (modSlot s t f).i3c = s.i3c := rfl
@[simp] theorem modSlot_power (s : State) (t : Tid) (f : Slot → Slot) : (modSlot s t f).power = s.power := rfl
@[simp] theorem modSlot_boot (s : State) (t : Tid) (f : Slot → Slot) : (modSlot s t f).boot = s.boot := rfl
@[simp] theorem modSlot_tick (s : State) (t : Tid) (f : Slot → Slot) : (modSlot s t f).tick = s.tick := rfl
@[simp] theorem modSlot_driver (s : State) (t : Tid) (f : Slot → Slot) : (modSlot s t f).driver = s.driver := rfl
@[simp] theorem modSlot_msix (s : State) (t : Tid) (f : Slot → Slot) : (modSlot s t f).msix = s.msix := rfl
@[simp] theorem modSlot_hostData (s : State) (t : Tid) (f : Slot → Slot) : (modSlot s t f).hostData = s.hostData := rfl
@[simp] theorem modSlot_noticeSeq (s : State) (t : Tid) (f : Slot → Slot) : (modSlot s t f).noticeSeq = s.noticeSeq := rfl
@[simp] theorem modSlot_sent (s : State) (t : Tid) (f : Slot → Slot) : (modSlot s t f).sent = s.sent := rfl
@[simp] theorem modSlot_freeCnt (s : State) (t : Tid) (f : Slot → Slot) : (modSlot s t f).freeCnt = s.freeCnt := rfl
@[simp] theorem modSlot_cur (s : State) (t : Tid) (f : Slot → Slot) : (modSlot s t f).cur = s.cur := rfl
@[simp] theorem modSlot_sched (s : State) (t : Tid) (f : Slot → Slot) : (modSlot s t f).sched = s.sched := rfl
@[simp] theorem modSlot_turns (s : State) (t : Tid) (f : Slot → Slot) : (modSlot s t f).turns = s.turns := rfl

/-! ### modCsr -/

@[simp] theorem modCsr_clusters (s : State) (t : Tid) (f : Csrs → Csrs) : (modCsr s t f).clusters = s.clusters := rfl
@[simp] theorem modCsr_dies (s : State) (t : Tid) (f : Csrs → Csrs) : (modCsr s t f).dies = s.dies := rfl
@[simp] theorem modCsr_homes (s : State) (t : Tid) (f : Csrs → Csrs) : (modCsr s t f).homes = s.homes := rfl
@[simp] theorem modCsr_routers (s : State) (t : Tid) (f : Csrs → Csrs) : (modCsr s t f).routers = s.routers := rfl
@[simp] theorem modCsr_tokens (s : State) (t : Tid) (f : Csrs → Csrs) : (modCsr s t f).tokens = s.tokens := rfl
@[simp] theorem modCsr_queues (s : State) (t : Tid) (f : Csrs → Csrs) : (modCsr s t f).queues = s.queues := rfl
@[simp] theorem modCsr_ports (s : State) (t : Tid) (f : Csrs → Csrs) : (modCsr s t f).ports = s.ports := rfl
@[simp] theorem modCsr_fns (s : State) (t : Tid) (f : Csrs → Csrs) : (modCsr s t f).fns = s.fns := rfl
@[simp] theorem modCsr_ctxs (s : State) (t : Tid) (f : Csrs → Csrs) : (modCsr s t f).ctxs = s.ctxs := rfl
@[simp] theorem modCsr_conts (s : State) (t : Tid) (f : Csrs → Csrs) : (modCsr s t f).conts = s.conts := rfl
@[simp] theorem modCsr_nextUid (s : State) (t : Tid) (f : Csrs → Csrs) : (modCsr s t f).nextUid = s.nextUid := rfl
@[simp] theorem modCsr_written (s : State) (t : Tid) (f : Csrs → Csrs) : (modCsr s t f).written = s.written := rfl
@[simp] theorem modCsr_subs (s : State) (t : Tid) (f : Csrs → Csrs) : (modCsr s t f).subs = s.subs := rfl
@[simp] theorem modCsr_mem (s : State) (t : Tid) (f : Csrs → Csrs) : (modCsr s t f).mem = s.mem := rfl
@[simp] theorem modCsr_bad (s : State) (t : Tid) (f : Csrs → Csrs) : (modCsr s t f).bad = s.bad := rfl
@[simp] theorem modCsr_marks (s : State) (t : Tid) (f : Csrs → Csrs) : (modCsr s t f).marks = s.marks := rfl
@[simp] theorem modCsr_full (s : State) (t : Tid) (f : Csrs → Csrs) : (modCsr s t f).full = s.full := rfl
@[simp] theorem modCsr_mgmt (s : State) (t : Tid) (f : Csrs → Csrs) : (modCsr s t f).mgmt = s.mgmt := rfl
@[simp] theorem modCsr_i3c (s : State) (t : Tid) (f : Csrs → Csrs) : (modCsr s t f).i3c = s.i3c := rfl
@[simp] theorem modCsr_power (s : State) (t : Tid) (f : Csrs → Csrs) : (modCsr s t f).power = s.power := rfl
@[simp] theorem modCsr_boot (s : State) (t : Tid) (f : Csrs → Csrs) : (modCsr s t f).boot = s.boot := rfl
@[simp] theorem modCsr_tick (s : State) (t : Tid) (f : Csrs → Csrs) : (modCsr s t f).tick = s.tick := rfl
@[simp] theorem modCsr_driver (s : State) (t : Tid) (f : Csrs → Csrs) : (modCsr s t f).driver = s.driver := rfl
@[simp] theorem modCsr_msix (s : State) (t : Tid) (f : Csrs → Csrs) : (modCsr s t f).msix = s.msix := rfl
@[simp] theorem modCsr_hostData (s : State) (t : Tid) (f : Csrs → Csrs) : (modCsr s t f).hostData = s.hostData := rfl
@[simp] theorem modCsr_noticeSeq (s : State) (t : Tid) (f : Csrs → Csrs) : (modCsr s t f).noticeSeq = s.noticeSeq := rfl
@[simp] theorem modCsr_sent (s : State) (t : Tid) (f : Csrs → Csrs) : (modCsr s t f).sent = s.sent := rfl
@[simp] theorem modCsr_freeCnt (s : State) (t : Tid) (f : Csrs → Csrs) : (modCsr s t f).freeCnt = s.freeCnt := rfl
@[simp] theorem modCsr_cur (s : State) (t : Tid) (f : Csrs → Csrs) : (modCsr s t f).cur = s.cur := rfl
@[simp] theorem modCsr_sched (s : State) (t : Tid) (f : Csrs → Csrs) : (modCsr s t f).sched = s.sched := rfl
@[simp] theorem modCsr_turns (s : State) (t : Tid) (f : Csrs → Csrs) : (modCsr s t f).turns = s.turns := rfl

/-! ### predSet -/

@[simp] theorem predSet_clusters (s : State) (t : Tid) (n : Nat) (v : Word) : (predSet s t n v).clusters = s.clusters := rfl
@[simp] theorem predSet_dies (s : State) (t : Tid) (n : Nat) (v : Word) : (predSet s t n v).dies = s.dies := rfl
@[simp] theorem predSet_homes (s : State) (t : Tid) (n : Nat) (v : Word) : (predSet s t n v).homes = s.homes := rfl
@[simp] theorem predSet_routers (s : State) (t : Tid) (n : Nat) (v : Word) : (predSet s t n v).routers = s.routers := rfl
@[simp] theorem predSet_tokens (s : State) (t : Tid) (n : Nat) (v : Word) : (predSet s t n v).tokens = s.tokens := rfl
@[simp] theorem predSet_queues (s : State) (t : Tid) (n : Nat) (v : Word) : (predSet s t n v).queues = s.queues := rfl
@[simp] theorem predSet_ports (s : State) (t : Tid) (n : Nat) (v : Word) : (predSet s t n v).ports = s.ports := rfl
@[simp] theorem predSet_fns (s : State) (t : Tid) (n : Nat) (v : Word) : (predSet s t n v).fns = s.fns := rfl
@[simp] theorem predSet_ctxs (s : State) (t : Tid) (n : Nat) (v : Word) : (predSet s t n v).ctxs = s.ctxs := rfl
@[simp] theorem predSet_conts (s : State) (t : Tid) (n : Nat) (v : Word) : (predSet s t n v).conts = s.conts := rfl
@[simp] theorem predSet_nextUid (s : State) (t : Tid) (n : Nat) (v : Word) : (predSet s t n v).nextUid = s.nextUid := rfl
@[simp] theorem predSet_written (s : State) (t : Tid) (n : Nat) (v : Word) : (predSet s t n v).written = s.written := rfl
@[simp] theorem predSet_subs (s : State) (t : Tid) (n : Nat) (v : Word) : (predSet s t n v).subs = s.subs := rfl
@[simp] theorem predSet_mem (s : State) (t : Tid) (n : Nat) (v : Word) : (predSet s t n v).mem = s.mem := rfl
@[simp] theorem predSet_bad (s : State) (t : Tid) (n : Nat) (v : Word) : (predSet s t n v).bad = s.bad := rfl
@[simp] theorem predSet_marks (s : State) (t : Tid) (n : Nat) (v : Word) : (predSet s t n v).marks = s.marks := rfl
@[simp] theorem predSet_full (s : State) (t : Tid) (n : Nat) (v : Word) : (predSet s t n v).full = s.full := rfl
@[simp] theorem predSet_mgmt (s : State) (t : Tid) (n : Nat) (v : Word) : (predSet s t n v).mgmt = s.mgmt := rfl
@[simp] theorem predSet_i3c (s : State) (t : Tid) (n : Nat) (v : Word) : (predSet s t n v).i3c = s.i3c := rfl
@[simp] theorem predSet_power (s : State) (t : Tid) (n : Nat) (v : Word) : (predSet s t n v).power = s.power := rfl
@[simp] theorem predSet_boot (s : State) (t : Tid) (n : Nat) (v : Word) : (predSet s t n v).boot = s.boot := rfl
@[simp] theorem predSet_tick (s : State) (t : Tid) (n : Nat) (v : Word) : (predSet s t n v).tick = s.tick := rfl
@[simp] theorem predSet_driver (s : State) (t : Tid) (n : Nat) (v : Word) : (predSet s t n v).driver = s.driver := rfl
@[simp] theorem predSet_msix (s : State) (t : Tid) (n : Nat) (v : Word) : (predSet s t n v).msix = s.msix := rfl
@[simp] theorem predSet_hostData (s : State) (t : Tid) (n : Nat) (v : Word) : (predSet s t n v).hostData = s.hostData := rfl
@[simp] theorem predSet_noticeSeq (s : State) (t : Tid) (n : Nat) (v : Word) : (predSet s t n v).noticeSeq = s.noticeSeq := rfl
@[simp] theorem predSet_sent (s : State) (t : Tid) (n : Nat) (v : Word) : (predSet s t n v).sent = s.sent := rfl
@[simp] theorem predSet_freeCnt (s : State) (t : Tid) (n : Nat) (v : Word) : (predSet s t n v).freeCnt = s.freeCnt := rfl
@[simp] theorem predSet_cur (s : State) (t : Tid) (n : Nat) (v : Word) : (predSet s t n v).cur = s.cur := rfl
@[simp] theorem predSet_sched (s : State) (t : Tid) (n : Nat) (v : Word) : (predSet s t n v).sched = s.sched := rfl
@[simp] theorem predSet_turns (s : State) (t : Tid) (n : Nat) (v : Word) : (predSet s t n v).turns = s.turns := rfl

/-! ### modCl -/

@[simp] theorem modCl_cores (s : State) (c : Nat) (f : Cluster → Cluster) : (modCl s c f).cores = s.cores := rfl
@[simp] theorem modCl_dies (s : State) (c : Nat) (f : Cluster → Cluster) : (modCl s c f).dies = s.dies := rfl
@[simp] theorem modCl_homes (s : State) (c : Nat) (f : Cluster → Cluster) : (modCl s c f).homes = s.homes := rfl
@[simp] theorem modCl_routers (s : State) (c : Nat) (f : Cluster → Cluster) : (modCl s c f).routers = s.routers := rfl
@[simp] theorem modCl_tokens (s : State) (c : Nat) (f : Cluster → Cluster) : (modCl s c f).tokens = s.tokens := rfl
@[simp] theorem modCl_queues (s : State) (c : Nat) (f : Cluster → Cluster) : (modCl s c f).queues = s.queues := rfl
@[simp] theorem modCl_ports (s : State) (c : Nat) (f : Cluster → Cluster) : (modCl s c f).ports = s.ports := rfl
@[simp] theorem modCl_fns (s : State) (c : Nat) (f : Cluster → Cluster) : (modCl s c f).fns = s.fns := rfl
@[simp] theorem modCl_ctxs (s : State) (c : Nat) (f : Cluster → Cluster) : (modCl s c f).ctxs = s.ctxs := rfl
@[simp] theorem modCl_conts (s : State) (c : Nat) (f : Cluster → Cluster) : (modCl s c f).conts = s.conts := rfl
@[simp] theorem modCl_nextUid (s : State) (c : Nat) (f : Cluster → Cluster) : (modCl s c f).nextUid = s.nextUid := rfl
@[simp] theorem modCl_written (s : State) (c : Nat) (f : Cluster → Cluster) : (modCl s c f).written = s.written := rfl
@[simp] theorem modCl_subs (s : State) (c : Nat) (f : Cluster → Cluster) : (modCl s c f).subs = s.subs := rfl
@[simp] theorem modCl_mem (s : State) (c : Nat) (f : Cluster → Cluster) : (modCl s c f).mem = s.mem := rfl
@[simp] theorem modCl_bad (s : State) (c : Nat) (f : Cluster → Cluster) : (modCl s c f).bad = s.bad := rfl
@[simp] theorem modCl_marks (s : State) (c : Nat) (f : Cluster → Cluster) : (modCl s c f).marks = s.marks := rfl
@[simp] theorem modCl_full (s : State) (c : Nat) (f : Cluster → Cluster) : (modCl s c f).full = s.full := rfl
@[simp] theorem modCl_mgmt (s : State) (c : Nat) (f : Cluster → Cluster) : (modCl s c f).mgmt = s.mgmt := rfl
@[simp] theorem modCl_i3c (s : State) (c : Nat) (f : Cluster → Cluster) : (modCl s c f).i3c = s.i3c := rfl
@[simp] theorem modCl_power (s : State) (c : Nat) (f : Cluster → Cluster) : (modCl s c f).power = s.power := rfl
@[simp] theorem modCl_boot (s : State) (c : Nat) (f : Cluster → Cluster) : (modCl s c f).boot = s.boot := rfl
@[simp] theorem modCl_tick (s : State) (c : Nat) (f : Cluster → Cluster) : (modCl s c f).tick = s.tick := rfl
@[simp] theorem modCl_driver (s : State) (c : Nat) (f : Cluster → Cluster) : (modCl s c f).driver = s.driver := rfl
@[simp] theorem modCl_msix (s : State) (c : Nat) (f : Cluster → Cluster) : (modCl s c f).msix = s.msix := rfl
@[simp] theorem modCl_hostData (s : State) (c : Nat) (f : Cluster → Cluster) : (modCl s c f).hostData = s.hostData := rfl
@[simp] theorem modCl_noticeSeq (s : State) (c : Nat) (f : Cluster → Cluster) : (modCl s c f).noticeSeq = s.noticeSeq := rfl
@[simp] theorem modCl_sent (s : State) (c : Nat) (f : Cluster → Cluster) : (modCl s c f).sent = s.sent := rfl
@[simp] theorem modCl_freeCnt (s : State) (c : Nat) (f : Cluster → Cluster) : (modCl s c f).freeCnt = s.freeCnt := rfl
@[simp] theorem modCl_cur (s : State) (c : Nat) (f : Cluster → Cluster) : (modCl s c f).cur = s.cur := rfl
@[simp] theorem modCl_sched (s : State) (c : Nat) (f : Cluster → Cluster) : (modCl s c f).sched = s.sched := rfl
@[simp] theorem modCl_turns (s : State) (c : Nat) (f : Cluster → Cluster) : (modCl s c f).turns = s.turns := rfl

/-! ### modDie -/

@[simp] theorem modDie_cores (s : State) (d : Nat) (f : Die → Die) : (modDie s d f).cores = s.cores := rfl
@[simp] theorem modDie_clusters (s : State) (d : Nat) (f : Die → Die) : (modDie s d f).clusters = s.clusters := rfl
@[simp] theorem modDie_homes (s : State) (d : Nat) (f : Die → Die) : (modDie s d f).homes = s.homes := rfl
@[simp] theorem modDie_routers (s : State) (d : Nat) (f : Die → Die) : (modDie s d f).routers = s.routers := rfl
@[simp] theorem modDie_tokens (s : State) (d : Nat) (f : Die → Die) : (modDie s d f).tokens = s.tokens := rfl
@[simp] theorem modDie_queues (s : State) (d : Nat) (f : Die → Die) : (modDie s d f).queues = s.queues := rfl
@[simp] theorem modDie_ports (s : State) (d : Nat) (f : Die → Die) : (modDie s d f).ports = s.ports := rfl
@[simp] theorem modDie_fns (s : State) (d : Nat) (f : Die → Die) : (modDie s d f).fns = s.fns := rfl
@[simp] theorem modDie_ctxs (s : State) (d : Nat) (f : Die → Die) : (modDie s d f).ctxs = s.ctxs := rfl
@[simp] theorem modDie_conts (s : State) (d : Nat) (f : Die → Die) : (modDie s d f).conts = s.conts := rfl
@[simp] theorem modDie_nextUid (s : State) (d : Nat) (f : Die → Die) : (modDie s d f).nextUid = s.nextUid := rfl
@[simp] theorem modDie_written (s : State) (d : Nat) (f : Die → Die) : (modDie s d f).written = s.written := rfl
@[simp] theorem modDie_subs (s : State) (d : Nat) (f : Die → Die) : (modDie s d f).subs = s.subs := rfl
@[simp] theorem modDie_mem (s : State) (d : Nat) (f : Die → Die) : (modDie s d f).mem = s.mem := rfl
@[simp] theorem modDie_bad (s : State) (d : Nat) (f : Die → Die) : (modDie s d f).bad = s.bad := rfl
@[simp] theorem modDie_marks (s : State) (d : Nat) (f : Die → Die) : (modDie s d f).marks = s.marks := rfl
@[simp] theorem modDie_full (s : State) (d : Nat) (f : Die → Die) : (modDie s d f).full = s.full := rfl
@[simp] theorem modDie_mgmt (s : State) (d : Nat) (f : Die → Die) : (modDie s d f).mgmt = s.mgmt := rfl
@[simp] theorem modDie_i3c (s : State) (d : Nat) (f : Die → Die) : (modDie s d f).i3c = s.i3c := rfl
@[simp] theorem modDie_power (s : State) (d : Nat) (f : Die → Die) : (modDie s d f).power = s.power := rfl
@[simp] theorem modDie_boot (s : State) (d : Nat) (f : Die → Die) : (modDie s d f).boot = s.boot := rfl
@[simp] theorem modDie_tick (s : State) (d : Nat) (f : Die → Die) : (modDie s d f).tick = s.tick := rfl
@[simp] theorem modDie_driver (s : State) (d : Nat) (f : Die → Die) : (modDie s d f).driver = s.driver := rfl
@[simp] theorem modDie_msix (s : State) (d : Nat) (f : Die → Die) : (modDie s d f).msix = s.msix := rfl
@[simp] theorem modDie_hostData (s : State) (d : Nat) (f : Die → Die) : (modDie s d f).hostData = s.hostData := rfl
@[simp] theorem modDie_noticeSeq (s : State) (d : Nat) (f : Die → Die) : (modDie s d f).noticeSeq = s.noticeSeq := rfl
@[simp] theorem modDie_sent (s : State) (d : Nat) (f : Die → Die) : (modDie s d f).sent = s.sent := rfl
@[simp] theorem modDie_freeCnt (s : State) (d : Nat) (f : Die → Die) : (modDie s d f).freeCnt = s.freeCnt := rfl
@[simp] theorem modDie_cur (s : State) (d : Nat) (f : Die → Die) : (modDie s d f).cur = s.cur := rfl
@[simp] theorem modDie_sched (s : State) (d : Nat) (f : Die → Die) : (modDie s d f).sched = s.sched := rfl
@[simp] theorem modDie_turns (s : State) (d : Nat) (f : Die → Die) : (modDie s d f).turns = s.turns := rfl

/-! ### modHome -/

@[simp] theorem modHome_cores (s : State) (u : Nat) (f : HomeSt → HomeSt) : (modHome s u f).cores = s.cores := rfl
@[simp] theorem modHome_clusters (s : State) (u : Nat) (f : HomeSt → HomeSt) : (modHome s u f).clusters = s.clusters := rfl
@[simp] theorem modHome_dies (s : State) (u : Nat) (f : HomeSt → HomeSt) : (modHome s u f).dies = s.dies := rfl
@[simp] theorem modHome_routers (s : State) (u : Nat) (f : HomeSt → HomeSt) : (modHome s u f).routers = s.routers := rfl
@[simp] theorem modHome_tokens (s : State) (u : Nat) (f : HomeSt → HomeSt) : (modHome s u f).tokens = s.tokens := rfl
@[simp] theorem modHome_queues (s : State) (u : Nat) (f : HomeSt → HomeSt) : (modHome s u f).queues = s.queues := rfl
@[simp] theorem modHome_ports (s : State) (u : Nat) (f : HomeSt → HomeSt) : (modHome s u f).ports = s.ports := rfl
@[simp] theorem modHome_fns (s : State) (u : Nat) (f : HomeSt → HomeSt) : (modHome s u f).fns = s.fns := rfl
@[simp] theorem modHome_ctxs (s : State) (u : Nat) (f : HomeSt → HomeSt) : (modHome s u f).ctxs = s.ctxs := rfl
@[simp] theorem modHome_conts (s : State) (u : Nat) (f : HomeSt → HomeSt) : (modHome s u f).conts = s.conts := rfl
@[simp] theorem modHome_nextUid (s : State) (u : Nat) (f : HomeSt → HomeSt) : (modHome s u f).nextUid = s.nextUid := rfl
@[simp] theorem modHome_written (s : State) (u : Nat) (f : HomeSt → HomeSt) : (modHome s u f).written = s.written := rfl
@[simp] theorem modHome_subs (s : State) (u : Nat) (f : HomeSt → HomeSt) : (modHome s u f).subs = s.subs := rfl
@[simp] theorem modHome_mem (s : State) (u : Nat) (f : HomeSt → HomeSt) : (modHome s u f).mem = s.mem := rfl
@[simp] theorem modHome_bad (s : State) (u : Nat) (f : HomeSt → HomeSt) : (modHome s u f).bad = s.bad := rfl
@[simp] theorem modHome_marks (s : State) (u : Nat) (f : HomeSt → HomeSt) : (modHome s u f).marks = s.marks := rfl
@[simp] theorem modHome_full (s : State) (u : Nat) (f : HomeSt → HomeSt) : (modHome s u f).full = s.full := rfl
@[simp] theorem modHome_mgmt (s : State) (u : Nat) (f : HomeSt → HomeSt) : (modHome s u f).mgmt = s.mgmt := rfl
@[simp] theorem modHome_i3c (s : State) (u : Nat) (f : HomeSt → HomeSt) : (modHome s u f).i3c = s.i3c := rfl
@[simp] theorem modHome_power (s : State) (u : Nat) (f : HomeSt → HomeSt) : (modHome s u f).power = s.power := rfl
@[simp] theorem modHome_boot (s : State) (u : Nat) (f : HomeSt → HomeSt) : (modHome s u f).boot = s.boot := rfl
@[simp] theorem modHome_tick (s : State) (u : Nat) (f : HomeSt → HomeSt) : (modHome s u f).tick = s.tick := rfl
@[simp] theorem modHome_driver (s : State) (u : Nat) (f : HomeSt → HomeSt) : (modHome s u f).driver = s.driver := rfl
@[simp] theorem modHome_msix (s : State) (u : Nat) (f : HomeSt → HomeSt) : (modHome s u f).msix = s.msix := rfl
@[simp] theorem modHome_hostData (s : State) (u : Nat) (f : HomeSt → HomeSt) : (modHome s u f).hostData = s.hostData := rfl
@[simp] theorem modHome_noticeSeq (s : State) (u : Nat) (f : HomeSt → HomeSt) : (modHome s u f).noticeSeq = s.noticeSeq := rfl
@[simp] theorem modHome_sent (s : State) (u : Nat) (f : HomeSt → HomeSt) : (modHome s u f).sent = s.sent := rfl
@[simp] theorem modHome_freeCnt (s : State) (u : Nat) (f : HomeSt → HomeSt) : (modHome s u f).freeCnt = s.freeCnt := rfl
@[simp] theorem modHome_cur (s : State) (u : Nat) (f : HomeSt → HomeSt) : (modHome s u f).cur = s.cur := rfl
@[simp] theorem modHome_sched (s : State) (u : Nat) (f : HomeSt → HomeSt) : (modHome s u f).sched = s.sched := rfl
@[simp] theorem modHome_turns (s : State) (u : Nat) (f : HomeSt → HomeSt) : (modHome s u f).turns = s.turns := rfl

/-! ### modFn -/

@[simp] theorem modFn_cores (s : State) (n : Nat) (f : Fn → Fn) : (modFn s n f).cores = s.cores := rfl
@[simp] theorem modFn_clusters (s : State) (n : Nat) (f : Fn → Fn) : (modFn s n f).clusters = s.clusters := rfl
@[simp] theorem modFn_dies (s : State) (n : Nat) (f : Fn → Fn) : (modFn s n f).dies = s.dies := rfl
@[simp] theorem modFn_homes (s : State) (n : Nat) (f : Fn → Fn) : (modFn s n f).homes = s.homes := rfl
@[simp] theorem modFn_routers (s : State) (n : Nat) (f : Fn → Fn) : (modFn s n f).routers = s.routers := rfl
@[simp] theorem modFn_tokens (s : State) (n : Nat) (f : Fn → Fn) : (modFn s n f).tokens = s.tokens := rfl
@[simp] theorem modFn_queues (s : State) (n : Nat) (f : Fn → Fn) : (modFn s n f).queues = s.queues := rfl
@[simp] theorem modFn_ports (s : State) (n : Nat) (f : Fn → Fn) : (modFn s n f).ports = s.ports := rfl
@[simp] theorem modFn_ctxs (s : State) (n : Nat) (f : Fn → Fn) : (modFn s n f).ctxs = s.ctxs := rfl
@[simp] theorem modFn_conts (s : State) (n : Nat) (f : Fn → Fn) : (modFn s n f).conts = s.conts := rfl
@[simp] theorem modFn_nextUid (s : State) (n : Nat) (f : Fn → Fn) : (modFn s n f).nextUid = s.nextUid := rfl
@[simp] theorem modFn_written (s : State) (n : Nat) (f : Fn → Fn) : (modFn s n f).written = s.written := rfl
@[simp] theorem modFn_subs (s : State) (n : Nat) (f : Fn → Fn) : (modFn s n f).subs = s.subs := rfl
@[simp] theorem modFn_mem (s : State) (n : Nat) (f : Fn → Fn) : (modFn s n f).mem = s.mem := rfl
@[simp] theorem modFn_bad (s : State) (n : Nat) (f : Fn → Fn) : (modFn s n f).bad = s.bad := rfl
@[simp] theorem modFn_marks (s : State) (n : Nat) (f : Fn → Fn) : (modFn s n f).marks = s.marks := rfl
@[simp] theorem modFn_full (s : State) (n : Nat) (f : Fn → Fn) : (modFn s n f).full = s.full := rfl
@[simp] theorem modFn_mgmt (s : State) (n : Nat) (f : Fn → Fn) : (modFn s n f).mgmt = s.mgmt := rfl
@[simp] theorem modFn_i3c (s : State) (n : Nat) (f : Fn → Fn) : (modFn s n f).i3c = s.i3c := rfl
@[simp] theorem modFn_power (s : State) (n : Nat) (f : Fn → Fn) : (modFn s n f).power = s.power := rfl
@[simp] theorem modFn_boot (s : State) (n : Nat) (f : Fn → Fn) : (modFn s n f).boot = s.boot := rfl
@[simp] theorem modFn_tick (s : State) (n : Nat) (f : Fn → Fn) : (modFn s n f).tick = s.tick := rfl
@[simp] theorem modFn_driver (s : State) (n : Nat) (f : Fn → Fn) : (modFn s n f).driver = s.driver := rfl
@[simp] theorem modFn_msix (s : State) (n : Nat) (f : Fn → Fn) : (modFn s n f).msix = s.msix := rfl
@[simp] theorem modFn_hostData (s : State) (n : Nat) (f : Fn → Fn) : (modFn s n f).hostData = s.hostData := rfl
@[simp] theorem modFn_noticeSeq (s : State) (n : Nat) (f : Fn → Fn) : (modFn s n f).noticeSeq = s.noticeSeq := rfl
@[simp] theorem modFn_sent (s : State) (n : Nat) (f : Fn → Fn) : (modFn s n f).sent = s.sent := rfl
@[simp] theorem modFn_freeCnt (s : State) (n : Nat) (f : Fn → Fn) : (modFn s n f).freeCnt = s.freeCnt := rfl
@[simp] theorem modFn_cur (s : State) (n : Nat) (f : Fn → Fn) : (modFn s n f).cur = s.cur := rfl
@[simp] theorem modFn_sched (s : State) (n : Nat) (f : Fn → Fn) : (modFn s n f).sched = s.sched := rfl
@[simp] theorem modFn_turns (s : State) (n : Nat) (f : Fn → Fn) : (modFn s n f).turns = s.turns := rfl

/-! ### modNq -/

@[simp] theorem modNq_cores (s : State) (n q : Nat) (f : NQueue → NQueue) : (modNq s n q f).cores = s.cores := rfl
@[simp] theorem modNq_clusters (s : State) (n q : Nat) (f : NQueue → NQueue) : (modNq s n q f).clusters = s.clusters := rfl
@[simp] theorem modNq_dies (s : State) (n q : Nat) (f : NQueue → NQueue) : (modNq s n q f).dies = s.dies := rfl
@[simp] theorem modNq_homes (s : State) (n q : Nat) (f : NQueue → NQueue) : (modNq s n q f).homes = s.homes := rfl
@[simp] theorem modNq_routers (s : State) (n q : Nat) (f : NQueue → NQueue) : (modNq s n q f).routers = s.routers := rfl
@[simp] theorem modNq_tokens (s : State) (n q : Nat) (f : NQueue → NQueue) : (modNq s n q f).tokens = s.tokens := rfl
@[simp] theorem modNq_queues (s : State) (n q : Nat) (f : NQueue → NQueue) : (modNq s n q f).queues = s.queues := rfl
@[simp] theorem modNq_ports (s : State) (n q : Nat) (f : NQueue → NQueue) : (modNq s n q f).ports = s.ports := rfl
@[simp] theorem modNq_ctxs (s : State) (n q : Nat) (f : NQueue → NQueue) : (modNq s n q f).ctxs = s.ctxs := rfl
@[simp] theorem modNq_conts (s : State) (n q : Nat) (f : NQueue → NQueue) : (modNq s n q f).conts = s.conts := rfl
@[simp] theorem modNq_nextUid (s : State) (n q : Nat) (f : NQueue → NQueue) : (modNq s n q f).nextUid = s.nextUid := rfl
@[simp] theorem modNq_written (s : State) (n q : Nat) (f : NQueue → NQueue) : (modNq s n q f).written = s.written := rfl
@[simp] theorem modNq_subs (s : State) (n q : Nat) (f : NQueue → NQueue) : (modNq s n q f).subs = s.subs := rfl
@[simp] theorem modNq_mem (s : State) (n q : Nat) (f : NQueue → NQueue) : (modNq s n q f).mem = s.mem := rfl
@[simp] theorem modNq_bad (s : State) (n q : Nat) (f : NQueue → NQueue) : (modNq s n q f).bad = s.bad := rfl
@[simp] theorem modNq_marks (s : State) (n q : Nat) (f : NQueue → NQueue) : (modNq s n q f).marks = s.marks := rfl
@[simp] theorem modNq_full (s : State) (n q : Nat) (f : NQueue → NQueue) : (modNq s n q f).full = s.full := rfl
@[simp] theorem modNq_mgmt (s : State) (n q : Nat) (f : NQueue → NQueue) : (modNq s n q f).mgmt = s.mgmt := rfl
@[simp] theorem modNq_i3c (s : State) (n q : Nat) (f : NQueue → NQueue) : (modNq s n q f).i3c = s.i3c := rfl
@[simp] theorem modNq_power (s : State) (n q : Nat) (f : NQueue → NQueue) : (modNq s n q f).power = s.power := rfl
@[simp] theorem modNq_boot (s : State) (n q : Nat) (f : NQueue → NQueue) : (modNq s n q f).boot = s.boot := rfl
@[simp] theorem modNq_tick (s : State) (n q : Nat) (f : NQueue → NQueue) : (modNq s n q f).tick = s.tick := rfl
@[simp] theorem modNq_driver (s : State) (n q : Nat) (f : NQueue → NQueue) : (modNq s n q f).driver = s.driver := rfl
@[simp] theorem modNq_msix (s : State) (n q : Nat) (f : NQueue → NQueue) : (modNq s n q f).msix = s.msix := rfl
@[simp] theorem modNq_hostData (s : State) (n q : Nat) (f : NQueue → NQueue) : (modNq s n q f).hostData = s.hostData := rfl
@[simp] theorem modNq_noticeSeq (s : State) (n q : Nat) (f : NQueue → NQueue) : (modNq s n q f).noticeSeq = s.noticeSeq := rfl
@[simp] theorem modNq_sent (s : State) (n q : Nat) (f : NQueue → NQueue) : (modNq s n q f).sent = s.sent := rfl
@[simp] theorem modNq_freeCnt (s : State) (n q : Nat) (f : NQueue → NQueue) : (modNq s n q f).freeCnt = s.freeCnt := rfl
@[simp] theorem modNq_cur (s : State) (n q : Nat) (f : NQueue → NQueue) : (modNq s n q f).cur = s.cur := rfl
@[simp] theorem modNq_sched (s : State) (n q : Nat) (f : NQueue → NQueue) : (modNq s n q f).sched = s.sched := rfl
@[simp] theorem modNq_turns (s : State) (n q : Nat) (f : NQueue → NQueue) : (modNq s n q f).turns = s.turns := rfl

/-! ### modCtx -/

@[simp] theorem modCtx_cores (s : State) (n : Nat) (f : Ctx → Ctx) : (modCtx s n f).cores = s.cores := rfl
@[simp] theorem modCtx_clusters (s : State) (n : Nat) (f : Ctx → Ctx) : (modCtx s n f).clusters = s.clusters := rfl
@[simp] theorem modCtx_dies (s : State) (n : Nat) (f : Ctx → Ctx) : (modCtx s n f).dies = s.dies := rfl
@[simp] theorem modCtx_homes (s : State) (n : Nat) (f : Ctx → Ctx) : (modCtx s n f).homes = s.homes := rfl
@[simp] theorem modCtx_routers (s : State) (n : Nat) (f : Ctx → Ctx) : (modCtx s n f).routers = s.routers := rfl
@[simp] theorem modCtx_tokens (s : State) (n : Nat) (f : Ctx → Ctx) : (modCtx s n f).tokens = s.tokens := rfl
@[simp] theorem modCtx_queues (s : State) (n : Nat) (f : Ctx → Ctx) : (modCtx s n f).queues = s.queues := rfl
@[simp] theorem modCtx_ports (s : State) (n : Nat) (f : Ctx → Ctx) : (modCtx s n f).ports = s.ports := rfl
@[simp] theorem modCtx_fns (s : State) (n : Nat) (f : Ctx → Ctx) : (modCtx s n f).fns = s.fns := rfl
@[simp] theorem modCtx_conts (s : State) (n : Nat) (f : Ctx → Ctx) : (modCtx s n f).conts = s.conts := rfl
@[simp] theorem modCtx_nextUid (s : State) (n : Nat) (f : Ctx → Ctx) : (modCtx s n f).nextUid = s.nextUid := rfl
@[simp] theorem modCtx_written (s : State) (n : Nat) (f : Ctx → Ctx) : (modCtx s n f).written = s.written := rfl
@[simp] theorem modCtx_subs (s : State) (n : Nat) (f : Ctx → Ctx) : (modCtx s n f).subs = s.subs := rfl
@[simp] theorem modCtx_mem (s : State) (n : Nat) (f : Ctx → Ctx) : (modCtx s n f).mem = s.mem := rfl
@[simp] theorem modCtx_bad (s : State) (n : Nat) (f : Ctx → Ctx) : (modCtx s n f).bad = s.bad := rfl
@[simp] theorem modCtx_marks (s : State) (n : Nat) (f : Ctx → Ctx) : (modCtx s n f).marks = s.marks := rfl
@[simp] theorem modCtx_full (s : State) (n : Nat) (f : Ctx → Ctx) : (modCtx s n f).full = s.full := rfl
@[simp] theorem modCtx_mgmt (s : State) (n : Nat) (f : Ctx → Ctx) : (modCtx s n f).mgmt = s.mgmt := rfl
@[simp] theorem modCtx_i3c (s : State) (n : Nat) (f : Ctx → Ctx) : (modCtx s n f).i3c = s.i3c := rfl
@[simp] theorem modCtx_power (s : State) (n : Nat) (f : Ctx → Ctx) : (modCtx s n f).power = s.power := rfl
@[simp] theorem modCtx_boot (s : State) (n : Nat) (f : Ctx → Ctx) : (modCtx s n f).boot = s.boot := rfl
@[simp] theorem modCtx_tick (s : State) (n : Nat) (f : Ctx → Ctx) : (modCtx s n f).tick = s.tick := rfl
@[simp] theorem modCtx_driver (s : State) (n : Nat) (f : Ctx → Ctx) : (modCtx s n f).driver = s.driver := rfl
@[simp] theorem modCtx_msix (s : State) (n : Nat) (f : Ctx → Ctx) : (modCtx s n f).msix = s.msix := rfl
@[simp] theorem modCtx_hostData (s : State) (n : Nat) (f : Ctx → Ctx) : (modCtx s n f).hostData = s.hostData := rfl
@[simp] theorem modCtx_noticeSeq (s : State) (n : Nat) (f : Ctx → Ctx) : (modCtx s n f).noticeSeq = s.noticeSeq := rfl
@[simp] theorem modCtx_sent (s : State) (n : Nat) (f : Ctx → Ctx) : (modCtx s n f).sent = s.sent := rfl
@[simp] theorem modCtx_freeCnt (s : State) (n : Nat) (f : Ctx → Ctx) : (modCtx s n f).freeCnt = s.freeCnt := rfl
@[simp] theorem modCtx_cur (s : State) (n : Nat) (f : Ctx → Ctx) : (modCtx s n f).cur = s.cur := rfl
@[simp] theorem modCtx_sched (s : State) (n : Nat) (f : Ctx → Ctx) : (modCtx s n f).sched = s.sched := rfl
@[simp] theorem modCtx_turns (s : State) (n : Nat) (f : Ctx → Ctx) : (modCtx s n f).turns = s.turns := rfl

/-! ### modCont -/

@[simp] theorem modCont_cores (s : State) (u : Nat) (f : Cont → Cont) : (modCont s u f).cores = s.cores := rfl
@[simp] theorem modCont_clusters (s : State) (u : Nat) (f : Cont → Cont) : (modCont s u f).clusters = s.clusters := rfl
@[simp] theorem modCont_dies (s : State) (u : Nat) (f : Cont → Cont) : (modCont s u f).dies = s.dies := rfl
@[simp] theorem modCont_homes (s : State) (u : Nat) (f : Cont → Cont) : (modCont s u f).homes = s.homes := rfl
@[simp] theorem modCont_routers (s : State) (u : Nat) (f : Cont → Cont) : (modCont s u f).routers = s.routers := rfl
@[simp] theorem modCont_tokens (s : State) (u : Nat) (f : Cont → Cont) : (modCont s u f).tokens = s.tokens := rfl
@[simp] theorem modCont_queues (s : State) (u : Nat) (f : Cont → Cont) : (modCont s u f).queues = s.queues := rfl
@[simp] theorem modCont_ports (s : State) (u : Nat) (f : Cont → Cont) : (modCont s u f).ports = s.ports := rfl
@[simp] theorem modCont_fns (s : State) (u : Nat) (f : Cont → Cont) : (modCont s u f).fns = s.fns := rfl
@[simp] theorem modCont_ctxs (s : State) (u : Nat) (f : Cont → Cont) : (modCont s u f).ctxs = s.ctxs := rfl
@[simp] theorem modCont_nextUid (s : State) (u : Nat) (f : Cont → Cont) : (modCont s u f).nextUid = s.nextUid := rfl
@[simp] theorem modCont_written (s : State) (u : Nat) (f : Cont → Cont) : (modCont s u f).written = s.written := rfl
@[simp] theorem modCont_subs (s : State) (u : Nat) (f : Cont → Cont) : (modCont s u f).subs = s.subs := rfl
@[simp] theorem modCont_mem (s : State) (u : Nat) (f : Cont → Cont) : (modCont s u f).mem = s.mem := rfl
@[simp] theorem modCont_bad (s : State) (u : Nat) (f : Cont → Cont) : (modCont s u f).bad = s.bad := rfl
@[simp] theorem modCont_marks (s : State) (u : Nat) (f : Cont → Cont) : (modCont s u f).marks = s.marks := rfl
@[simp] theorem modCont_full (s : State) (u : Nat) (f : Cont → Cont) : (modCont s u f).full = s.full := rfl
@[simp] theorem modCont_mgmt (s : State) (u : Nat) (f : Cont → Cont) : (modCont s u f).mgmt = s.mgmt := rfl
@[simp] theorem modCont_i3c (s : State) (u : Nat) (f : Cont → Cont) : (modCont s u f).i3c = s.i3c := rfl
@[simp] theorem modCont_power (s : State) (u : Nat) (f : Cont → Cont) : (modCont s u f).power = s.power := rfl
@[simp] theorem modCont_boot (s : State) (u : Nat) (f : Cont → Cont) : (modCont s u f).boot = s.boot := rfl
@[simp] theorem modCont_tick (s : State) (u : Nat) (f : Cont → Cont) : (modCont s u f).tick = s.tick := rfl
@[simp] theorem modCont_driver (s : State) (u : Nat) (f : Cont → Cont) : (modCont s u f).driver = s.driver := rfl
@[simp] theorem modCont_msix (s : State) (u : Nat) (f : Cont → Cont) : (modCont s u f).msix = s.msix := rfl
@[simp] theorem modCont_hostData (s : State) (u : Nat) (f : Cont → Cont) : (modCont s u f).hostData = s.hostData := rfl
@[simp] theorem modCont_noticeSeq (s : State) (u : Nat) (f : Cont → Cont) : (modCont s u f).noticeSeq = s.noticeSeq := rfl
@[simp] theorem modCont_sent (s : State) (u : Nat) (f : Cont → Cont) : (modCont s u f).sent = s.sent := rfl
@[simp] theorem modCont_freeCnt (s : State) (u : Nat) (f : Cont → Cont) : (modCont s u f).freeCnt = s.freeCnt := rfl
@[simp] theorem modCont_cur (s : State) (u : Nat) (f : Cont → Cont) : (modCont s u f).cur = s.cur := rfl
@[simp] theorem modCont_sched (s : State) (u : Nat) (f : Cont → Cont) : (modCont s u f).sched = s.sched := rfl
@[simp] theorem modCont_turns (s : State) (u : Nat) (f : Cont → Cont) : (modCont s u f).turns = s.turns := rfl

/-! ### modPort -/

@[simp] theorem modPort_cores (s : State) (p : Nat) (f : Port → Port) : (modPort s p f).cores = s.cores := rfl
@[simp] theorem modPort_clusters (s : State) (p : Nat) (f : Port → Port) : (modPort s p f).clusters = s.clusters := rfl
@[simp] theorem modPort_dies (s : State) (p : Nat) (f : Port → Port) : (modPort s p f).dies = s.dies := rfl
@[simp] theorem modPort_homes (s : State) (p : Nat) (f : Port → Port) : (modPort s p f).homes = s.homes := rfl
@[simp] theorem modPort_routers (s : State) (p : Nat) (f : Port → Port) : (modPort s p f).routers = s.routers := rfl
@[simp] theorem modPort_tokens (s : State) (p : Nat) (f : Port → Port) : (modPort s p f).tokens = s.tokens := rfl
@[simp] theorem modPort_queues (s : State) (p : Nat) (f : Port → Port) : (modPort s p f).queues = s.queues := rfl
@[simp] theorem modPort_fns (s : State) (p : Nat) (f : Port → Port) : (modPort s p f).fns = s.fns := rfl
@[simp] theorem modPort_ctxs (s : State) (p : Nat) (f : Port → Port) : (modPort s p f).ctxs = s.ctxs := rfl
@[simp] theorem modPort_conts (s : State) (p : Nat) (f : Port → Port) : (modPort s p f).conts = s.conts := rfl
@[simp] theorem modPort_nextUid (s : State) (p : Nat) (f : Port → Port) : (modPort s p f).nextUid = s.nextUid := rfl
@[simp] theorem modPort_written (s : State) (p : Nat) (f : Port → Port) : (modPort s p f).written = s.written := rfl
@[simp] theorem modPort_subs (s : State) (p : Nat) (f : Port → Port) : (modPort s p f).subs = s.subs := rfl
@[simp] theorem modPort_mem (s : State) (p : Nat) (f : Port → Port) : (modPort s p f).mem = s.mem := rfl
@[simp] theorem modPort_bad (s : State) (p : Nat) (f : Port → Port) : (modPort s p f).bad = s.bad := rfl
@[simp] theorem modPort_marks (s : State) (p : Nat) (f : Port → Port) : (modPort s p f).marks = s.marks := rfl
@[simp] theorem modPort_full (s : State) (p : Nat) (f : Port → Port) : (modPort s p f).full = s.full := rfl
@[simp] theorem modPort_mgmt (s : State) (p : Nat) (f : Port → Port) : (modPort s p f).mgmt = s.mgmt := rfl
@[simp] theorem modPort_i3c (s : State) (p : Nat) (f : Port → Port) : (modPort s p f).i3c = s.i3c := rfl
@[simp] theorem modPort_power (s : State) (p : Nat) (f : Port → Port) : (modPort s p f).power = s.power := rfl
@[simp] theorem modPort_boot (s : State) (p : Nat) (f : Port → Port) : (modPort s p f).boot = s.boot := rfl
@[simp] theorem modPort_tick (s : State) (p : Nat) (f : Port → Port) : (modPort s p f).tick = s.tick := rfl
@[simp] theorem modPort_driver (s : State) (p : Nat) (f : Port → Port) : (modPort s p f).driver = s.driver := rfl
@[simp] theorem modPort_msix (s : State) (p : Nat) (f : Port → Port) : (modPort s p f).msix = s.msix := rfl
@[simp] theorem modPort_hostData (s : State) (p : Nat) (f : Port → Port) : (modPort s p f).hostData = s.hostData := rfl
@[simp] theorem modPort_noticeSeq (s : State) (p : Nat) (f : Port → Port) : (modPort s p f).noticeSeq = s.noticeSeq := rfl
@[simp] theorem modPort_sent (s : State) (p : Nat) (f : Port → Port) : (modPort s p f).sent = s.sent := rfl
@[simp] theorem modPort_freeCnt (s : State) (p : Nat) (f : Port → Port) : (modPort s p f).freeCnt = s.freeCnt := rfl
@[simp] theorem modPort_cur (s : State) (p : Nat) (f : Port → Port) : (modPort s p f).cur = s.cur := rfl
@[simp] theorem modPort_sched (s : State) (p : Nat) (f : Port → Port) : (modPort s p f).sched = s.sched := rfl
@[simp] theorem modPort_turns (s : State) (p : Nat) (f : Port → Port) : (modPort s p f).turns = s.turns := rfl

/-! ### setQ -/

@[simp] theorem setQ_cores (s : State) (k : Nat) (l : List Packet) : (setQ s k l).cores = s.cores := rfl
@[simp] theorem setQ_clusters (s : State) (k : Nat) (l : List Packet) : (setQ s k l).clusters = s.clusters := rfl
@[simp] theorem setQ_dies (s : State) (k : Nat) (l : List Packet) : (setQ s k l).dies = s.dies := rfl
@[simp] theorem setQ_homes (s : State) (k : Nat) (l : List Packet) : (setQ s k l).homes = s.homes := rfl
@[simp] theorem setQ_routers (s : State) (k : Nat) (l : List Packet) : (setQ s k l).routers = s.routers := rfl
@[simp] theorem setQ_tokens (s : State) (k : Nat) (l : List Packet) : (setQ s k l).tokens = s.tokens := rfl
@[simp] theorem setQ_ports (s : State) (k : Nat) (l : List Packet) : (setQ s k l).ports = s.ports := rfl
@[simp] theorem setQ_fns (s : State) (k : Nat) (l : List Packet) : (setQ s k l).fns = s.fns := rfl
@[simp] theorem setQ_ctxs (s : State) (k : Nat) (l : List Packet) : (setQ s k l).ctxs = s.ctxs := rfl
@[simp] theorem setQ_conts (s : State) (k : Nat) (l : List Packet) : (setQ s k l).conts = s.conts := rfl
@[simp] theorem setQ_nextUid (s : State) (k : Nat) (l : List Packet) : (setQ s k l).nextUid = s.nextUid := rfl
@[simp] theorem setQ_written (s : State) (k : Nat) (l : List Packet) : (setQ s k l).written = s.written := rfl
@[simp] theorem setQ_subs (s : State) (k : Nat) (l : List Packet) : (setQ s k l).subs = s.subs := rfl
@[simp] theorem setQ_mem (s : State) (k : Nat) (l : List Packet) : (setQ s k l).mem = s.mem := rfl
@[simp] theorem setQ_bad (s : State) (k : Nat) (l : List Packet) : (setQ s k l).bad = s.bad := rfl
@[simp] theorem setQ_marks (s : State) (k : Nat) (l : List Packet) : (setQ s k l).marks = s.marks := rfl
@[simp] theorem setQ_full (s : State) (k : Nat) (l : List Packet) : (setQ s k l).full = s.full := rfl
@[simp] theorem setQ_mgmt (s : State) (k : Nat) (l : List Packet) : (setQ s k l).mgmt = s.mgmt := rfl
@[simp] theorem setQ_i3c (s : State) (k : Nat) (l : List Packet) : (setQ s k l).i3c = s.i3c := rfl
@[simp] theorem setQ_power (s : State) (k : Nat) (l : List Packet) : (setQ s k l).power = s.power := rfl
@[simp] theorem setQ_boot (s : State) (k : Nat) (l : List Packet) : (setQ s k l).boot = s.boot := rfl
@[simp] theorem setQ_tick (s : State) (k : Nat) (l : List Packet) : (setQ s k l).tick = s.tick := rfl
@[simp] theorem setQ_driver (s : State) (k : Nat) (l : List Packet) : (setQ s k l).driver = s.driver := rfl
@[simp] theorem setQ_msix (s : State) (k : Nat) (l : List Packet) : (setQ s k l).msix = s.msix := rfl
@[simp] theorem setQ_hostData (s : State) (k : Nat) (l : List Packet) : (setQ s k l).hostData = s.hostData := rfl
@[simp] theorem setQ_noticeSeq (s : State) (k : Nat) (l : List Packet) : (setQ s k l).noticeSeq = s.noticeSeq := rfl
@[simp] theorem setQ_sent (s : State) (k : Nat) (l : List Packet) : (setQ s k l).sent = s.sent := rfl
@[simp] theorem setQ_freeCnt (s : State) (k : Nat) (l : List Packet) : (setQ s k l).freeCnt = s.freeCnt := rfl
@[simp] theorem setQ_cur (s : State) (k : Nat) (l : List Packet) : (setQ s k l).cur = s.cur := rfl
@[simp] theorem setQ_sched (s : State) (k : Nat) (l : List Packet) : (setQ s k l).sched = s.sched := rfl
@[simp] theorem setQ_turns (s : State) (k : Nat) (l : List Packet) : (setQ s k l).turns = s.turns := rfl

/-! ### pushQ -/

@[simp] theorem pushQ_cores (s : State) (k : Nat) (p : Packet) : (pushQ s k p).cores = s.cores := rfl
@[simp] theorem pushQ_clusters (s : State) (k : Nat) (p : Packet) : (pushQ s k p).clusters = s.clusters := rfl
@[simp] theorem pushQ_dies (s : State) (k : Nat) (p : Packet) : (pushQ s k p).dies = s.dies := rfl
@[simp] theorem pushQ_homes (s : State) (k : Nat) (p : Packet) : (pushQ s k p).homes = s.homes := rfl
@[simp] theorem pushQ_routers (s : State) (k : Nat) (p : Packet) : (pushQ s k p).routers = s.routers := rfl
@[simp] theorem pushQ_tokens (s : State) (k : Nat) (p : Packet) : (pushQ s k p).tokens = s.tokens := rfl
@[simp] theorem pushQ_ports (s : State) (k : Nat) (p : Packet) : (pushQ s k p).ports = s.ports := rfl
@[simp] theorem pushQ_fns (s : State) (k : Nat) (p : Packet) : (pushQ s k p).fns = s.fns := rfl
@[simp] theorem pushQ_ctxs (s : State) (k : Nat) (p : Packet) : (pushQ s k p).ctxs = s.ctxs := rfl
@[simp] theorem pushQ_conts (s : State) (k : Nat) (p : Packet) : (pushQ s k p).conts = s.conts := rfl
@[simp] theorem pushQ_nextUid (s : State) (k : Nat) (p : Packet) : (pushQ s k p).nextUid = s.nextUid := rfl
@[simp] theorem pushQ_written (s : State) (k : Nat) (p : Packet) : (pushQ s k p).written = s.written := rfl
@[simp] theorem pushQ_subs (s : State) (k : Nat) (p : Packet) : (pushQ s k p).subs = s.subs := rfl
@[simp] theorem pushQ_mem (s : State) (k : Nat) (p : Packet) : (pushQ s k p).mem = s.mem := rfl
@[simp] theorem pushQ_bad (s : State) (k : Nat) (p : Packet) : (pushQ s k p).bad = s.bad := rfl
@[simp] theorem pushQ_marks (s : State) (k : Nat) (p : Packet) : (pushQ s k p).marks = s.marks := rfl
@[simp] theorem pushQ_full (s : State) (k : Nat) (p : Packet) : (pushQ s k p).full = s.full := rfl
@[simp] theorem pushQ_mgmt (s : State) (k : Nat) (p : Packet) : (pushQ s k p).mgmt = s.mgmt := rfl
@[simp] theorem pushQ_i3c (s : State) (k : Nat) (p : Packet) : (pushQ s k p).i3c = s.i3c := rfl
@[simp] theorem pushQ_power (s : State) (k : Nat) (p : Packet) : (pushQ s k p).power = s.power := rfl
@[simp] theorem pushQ_boot (s : State) (k : Nat) (p : Packet) : (pushQ s k p).boot = s.boot := rfl
@[simp] theorem pushQ_tick (s : State) (k : Nat) (p : Packet) : (pushQ s k p).tick = s.tick := rfl
@[simp] theorem pushQ_driver (s : State) (k : Nat) (p : Packet) : (pushQ s k p).driver = s.driver := rfl
@[simp] theorem pushQ_msix (s : State) (k : Nat) (p : Packet) : (pushQ s k p).msix = s.msix := rfl
@[simp] theorem pushQ_hostData (s : State) (k : Nat) (p : Packet) : (pushQ s k p).hostData = s.hostData := rfl
@[simp] theorem pushQ_noticeSeq (s : State) (k : Nat) (p : Packet) : (pushQ s k p).noticeSeq = s.noticeSeq := rfl
@[simp] theorem pushQ_sent (s : State) (k : Nat) (p : Packet) : (pushQ s k p).sent = s.sent := rfl
@[simp] theorem pushQ_freeCnt (s : State) (k : Nat) (p : Packet) : (pushQ s k p).freeCnt = s.freeCnt := rfl
@[simp] theorem pushQ_cur (s : State) (k : Nat) (p : Packet) : (pushQ s k p).cur = s.cur := rfl
@[simp] theorem pushQ_sched (s : State) (k : Nat) (p : Packet) : (pushQ s k p).sched = s.sched := rfl
@[simp] theorem pushQ_turns (s : State) (k : Nat) (p : Packet) : (pushQ s k p).turns = s.turns := rfl

/-! ### A register write changes nothing but the core's registers -/

@[simp] theorem regSet_clusters (s : State) (t : Tid) (sl : Slot) (n : Nat) (v : Word) : (regSet s t sl n v).clusters = s.clusters := by unfold regSet; split <;> rfl
@[simp] theorem regSet_dies (s : State) (t : Tid) (sl : Slot) (n : Nat) (v : Word) : (regSet s t sl n v).dies = s.dies := by unfold regSet; split <;> rfl
@[simp] theorem regSet_homes (s : State) (t : Tid) (sl : Slot) (n : Nat) (v : Word) : (regSet s t sl n v).homes = s.homes := by unfold regSet; split <;> rfl
@[simp] theorem regSet_routers (s : State) (t : Tid) (sl : Slot) (n : Nat) (v : Word) : (regSet s t sl n v).routers = s.routers := by unfold regSet; split <;> rfl
@[simp] theorem regSet_tokens (s : State) (t : Tid) (sl : Slot) (n : Nat) (v : Word) : (regSet s t sl n v).tokens = s.tokens := by unfold regSet; split <;> rfl
@[simp] theorem regSet_queues (s : State) (t : Tid) (sl : Slot) (n : Nat) (v : Word) : (regSet s t sl n v).queues = s.queues := by unfold regSet; split <;> rfl
@[simp] theorem regSet_ports (s : State) (t : Tid) (sl : Slot) (n : Nat) (v : Word) : (regSet s t sl n v).ports = s.ports := by unfold regSet; split <;> rfl
@[simp] theorem regSet_fns (s : State) (t : Tid) (sl : Slot) (n : Nat) (v : Word) : (regSet s t sl n v).fns = s.fns := by unfold regSet; split <;> rfl
@[simp] theorem regSet_ctxs (s : State) (t : Tid) (sl : Slot) (n : Nat) (v : Word) : (regSet s t sl n v).ctxs = s.ctxs := by unfold regSet; split <;> rfl
@[simp] theorem regSet_conts (s : State) (t : Tid) (sl : Slot) (n : Nat) (v : Word) : (regSet s t sl n v).conts = s.conts := by unfold regSet; split <;> rfl
@[simp] theorem regSet_nextUid (s : State) (t : Tid) (sl : Slot) (n : Nat) (v : Word) : (regSet s t sl n v).nextUid = s.nextUid := by unfold regSet; split <;> rfl
@[simp] theorem regSet_written (s : State) (t : Tid) (sl : Slot) (n : Nat) (v : Word) : (regSet s t sl n v).written = s.written := by unfold regSet; split <;> rfl
@[simp] theorem regSet_subs (s : State) (t : Tid) (sl : Slot) (n : Nat) (v : Word) : (regSet s t sl n v).subs = s.subs := by unfold regSet; split <;> rfl
@[simp] theorem regSet_mem (s : State) (t : Tid) (sl : Slot) (n : Nat) (v : Word) : (regSet s t sl n v).mem = s.mem := by unfold regSet; split <;> rfl
@[simp] theorem regSet_bad (s : State) (t : Tid) (sl : Slot) (n : Nat) (v : Word) : (regSet s t sl n v).bad = s.bad := by unfold regSet; split <;> rfl
@[simp] theorem regSet_marks (s : State) (t : Tid) (sl : Slot) (n : Nat) (v : Word) : (regSet s t sl n v).marks = s.marks := by unfold regSet; split <;> rfl
@[simp] theorem regSet_full (s : State) (t : Tid) (sl : Slot) (n : Nat) (v : Word) : (regSet s t sl n v).full = s.full := by unfold regSet; split <;> rfl
@[simp] theorem regSet_mgmt (s : State) (t : Tid) (sl : Slot) (n : Nat) (v : Word) : (regSet s t sl n v).mgmt = s.mgmt := by unfold regSet; split <;> rfl
@[simp] theorem regSet_i3c (s : State) (t : Tid) (sl : Slot) (n : Nat) (v : Word) : (regSet s t sl n v).i3c = s.i3c := by unfold regSet; split <;> rfl
@[simp] theorem regSet_power (s : State) (t : Tid) (sl : Slot) (n : Nat) (v : Word) : (regSet s t sl n v).power = s.power := by unfold regSet; split <;> rfl
@[simp] theorem regSet_boot (s : State) (t : Tid) (sl : Slot) (n : Nat) (v : Word) : (regSet s t sl n v).boot = s.boot := by unfold regSet; split <;> rfl
@[simp] theorem regSet_tick (s : State) (t : Tid) (sl : Slot) (n : Nat) (v : Word) : (regSet s t sl n v).tick = s.tick := by unfold regSet; split <;> rfl
@[simp] theorem regSet_driver (s : State) (t : Tid) (sl : Slot) (n : Nat) (v : Word) : (regSet s t sl n v).driver = s.driver := by unfold regSet; split <;> rfl
@[simp] theorem regSet_msix (s : State) (t : Tid) (sl : Slot) (n : Nat) (v : Word) : (regSet s t sl n v).msix = s.msix := by unfold regSet; split <;> rfl
@[simp] theorem regSet_hostData (s : State) (t : Tid) (sl : Slot) (n : Nat) (v : Word) : (regSet s t sl n v).hostData = s.hostData := by unfold regSet; split <;> rfl
@[simp] theorem regSet_noticeSeq (s : State) (t : Tid) (sl : Slot) (n : Nat) (v : Word) : (regSet s t sl n v).noticeSeq = s.noticeSeq := by unfold regSet; split <;> rfl
@[simp] theorem regSet_sent (s : State) (t : Tid) (sl : Slot) (n : Nat) (v : Word) : (regSet s t sl n v).sent = s.sent := by unfold regSet; split <;> rfl
@[simp] theorem regSet_freeCnt (s : State) (t : Tid) (sl : Slot) (n : Nat) (v : Word) : (regSet s t sl n v).freeCnt = s.freeCnt := by unfold regSet; split <;> rfl
@[simp] theorem regSet_cur (s : State) (t : Tid) (sl : Slot) (n : Nat) (v : Word) : (regSet s t sl n v).cur = s.cur := by unfold regSet; split <;> rfl
@[simp] theorem regSet_sched (s : State) (t : Tid) (sl : Slot) (n : Nat) (v : Word) : (regSet s t sl n v).sched = s.sched := by unfold regSet; split <;> rfl
@[simp] theorem regSet_turns (s : State) (t : Tid) (sl : Slot) (n : Nat) (v : Word) : (regSet s t sl n v).turns = s.turns := by unfold regSet; split <;> rfl

/-! ### Reads after writes -/

@[simp] theorem getCore_setCore_same (s : State) (c : Nat) (x : Core) : getCore (setCore s c x) c = x := smGet_smSet_same _ _ _ _
theorem getCore_setCore_other (s : State) {c c' : Nat} (x : Core) (h : c' ≠ c) : getCore (setCore s c x) c' = getCore s c' :=
  smGet_smSet_other _ _ _ h
@[simp] theorem getCore_modCore_same (s : State) (c : Nat) (f : Core → Core) : getCore (modCore s c f) c = f (getCore s c) :=
  smGet_smSet_same _ _ _ _
theorem getCore_modCore_other (s : State) {c c' : Nat} (f : Core → Core) (h : c' ≠ c) : getCore (modCore s c f) c' = getCore s c' :=
  smGet_smSet_other _ _ _ h
@[simp] theorem getSlot_setSlot_same (s : State) (t : Tid) (x : Slot) : getSlot (setSlot s t x) t = x := by
  simp [getSlot, setSlot]
theorem getSlot_setSlot_other (s : State) {t t' : Tid} (x : Slot) (h : t' ≠ t) : getSlot (setSlot s t x) t' = getSlot s t' := by
  unfold getSlot setSlot
  by_cases hc : t'.core = t.core
  · have hs : t'.slot ≠ t.slot := fun hs => h (by cases t; cases t'; simp_all)
    rw [hc, getCore_modCore_same]
    exact smGet_smSet_other _ _ _ hs
  · rw [getCore_modCore_other _ _ hc]
@[simp] theorem getSlot_modSlot_same (s : State) (t : Tid) (f : Slot → Slot) : getSlot (modSlot s t f) t = f (getSlot s t) :=
  getSlot_setSlot_same _ _ _
theorem getSlot_modSlot_other (s : State) {t t' : Tid} (f : Slot → Slot) (h : t' ≠ t) : getSlot (modSlot s t f) t' = getSlot s t' :=
  getSlot_setSlot_other _ _ h
@[simp] theorem getSlot_modCsr_same (s : State) (t : Tid) (f : Csrs → Csrs) :
    getSlot (modCsr s t f) t = { getSlot s t with csr := f (getSlot s t).csr } := getSlot_setSlot_same _ _ _
/-- A write of a core that leaves its slots alone leaves every slot alone. -/
theorem getSlot_modCore (s : State) (c : Nat) (f : Core → Core) (hf : ∀ x, (f x).slots = x.slots) (t : Tid) :
    getSlot (modCore s c f) t = getSlot s t := by
  unfold getSlot
  by_cases hc : t.core = c
  · rw [hc, getCore_modCore_same, hf]
  · rw [getCore_modCore_other _ _ hc]
@[simp] theorem getSlot_regSet (s : State) (t t' : Tid) (sl : Slot) (n : Nat) (v : Word) : getSlot (regSet s t sl n v) t' = getSlot s t' := by
  unfold regSet
  split
  · rfl
  · exact getSlot_modCore s t.core (fun c => { c with regs := smSet 0 c.regs (sl.wbase + n) v }) (fun _ => rfl) t'
/-- The registers of every core, after a write of a slot. -/
@[simp] theorem regs_setSlot (s : State) (t : Tid) (x : Slot) (c : Nat) : (getCore (setSlot s t x) c).regs = (getCore s c).regs := by
  unfold setSlot
  by_cases hc : c = t.core
  · subst hc; rw [getCore_modCore_same]
  · rw [getCore_modCore_other _ _ hc]
@[simp] theorem regs_modSlot (s : State) (t : Tid) (f : Slot → Slot) (c : Nat) : (getCore (modSlot s t f) c).regs = (getCore s c).regs :=
  regs_setSlot _ _ _ _
@[simp] theorem regGet_setSlot (s : State) (t t' : Tid) (x sl : Slot) (n : Nat) : regGet (setSlot s t x) t' sl n = regGet s t' sl n := by
  simp [regGet]
@[simp] theorem regGet_modSlot (s : State) (t t' : Tid) (f : Slot → Slot) (sl : Slot) (n : Nat) :
    regGet (modSlot s t f) t' sl n = regGet s t' sl n := regGet_setSlot _ _ _ _ _ _
@[simp] theorem regGet_zero (s : State) (t : Tid) (sl : Slot) : regGet s t sl 0 = 0 := rfl
@[simp] theorem regSet_zero (s : State) (t : Tid) (sl : Slot) (v : Word) : regSet s t sl 0 v = s := rfl
/-- A register other than g0 reads back what was written. -/
theorem regGet_regSet_same (s : State) (t : Tid) (sl : Slot) {n : Nat} (v : Word) (h : n ≠ 0) : regGet (regSet s t sl n v) t sl n = v := by
  simp [regGet, regSet, h]
/-- A write of one register of a window leaves the window's others alone. -/
theorem regGet_regSet_other (s : State) (t : Tid) (sl : Slot) {n m : Nat} (v : Word) (h : m ≠ n) :
    regGet (regSet s t sl n v) t sl m = regGet s t sl m := by
  unfold regGet regSet
  by_cases hn : n = 0
  · rw [if_pos hn]
  · rw [if_neg hn, getCore_modCore_same]
    split
    · rfl
    · exact smGet_smSet_other _ _ _ (by omega)
@[simp] theorem predGet_zero (sl : Slot) : predGet sl 0 = BitVec.allOnes 64 := rfl
theorem predGet_predSet_same (s : State) (t : Tid) {n : Nat} (v : Word) (h : n ≠ 0) : predGet (getSlot (predSet s t n v) t) n = v := by
  simp [predGet, predSet, h]
theorem predGet_predSet_other (s : State) (t : Tid) {n m : Nat} (v : Word) (h : m ≠ n) :
    predGet (getSlot (predSet s t n v) t) m = predGet (getSlot s t) m := by
  unfold predGet predSet
  split
  · rfl
  · simp only [getSlot_modSlot_same]
    exact smGet_smSet_other _ _ _ h
@[simp] theorem getCl_modCl_same (s : State) (c : Nat) (f : Cluster → Cluster) : getCl (modCl s c f) c = f (getCl s c) := smGet_smSet_same _ _ _ _
@[simp] theorem getDie_modDie_same (s : State) (d : Nat) (f : Die → Die) : getDie (modDie s d f) d = f (getDie s d) := smGet_smSet_same _ _ _ _
@[simp] theorem getHome_modHome_same (s : State) (u : Nat) (f : HomeSt → HomeSt) : getHome (modHome s u f) u = f (getHome s u) := smGet_smSet_same _ _ _ _
@[simp] theorem getFn_modFn_same (s : State) (n : Nat) (f : Fn → Fn) : getFn (modFn s n f) n = f (getFn s n) := smGet_smSet_same _ _ _ _
@[simp] theorem getCtx_modCtx_same (s : State) (n : Nat) (f : Ctx → Ctx) : getCtx (modCtx s n f) n = f (getCtx s n) := smGet_smSet_same _ _ _ _
@[simp] theorem getCont_modCont_same (s : State) (u : Nat) (f : Cont → Cont) : getCont (modCont s u f) u = f (getCont s u) := smGet_smSet_same _ _ _ _
@[simp] theorem getPort_modPort_same (s : State) (p : Nat) (f : Port → Port) : getPort (modPort s p f) p = f (getPort s p) := smGet_smSet_same _ _ _ _
@[simp] theorem getQ_setQ_same (s : State) (k : Nat) (l : List Packet) : getQ (setQ s k l) k = l := smGet_smSet_same _ _ _ _
theorem getQ_setQ_other (s : State) {k j : Nat} (l : List Packet) (h : j ≠ k) : getQ (setQ s k l) j = getQ s j := smGet_smSet_other _ _ _ h

end Sys2Proof.Machine
end

