-- ==== Sys2Proof/Laws/Exec.lean ====
section
/-!
SUPPORT. What the shared operations of a thread instruction can do: how the scaffold ends, which register fields are
refused, what a register read or write gives, how a trap, an upcall and a return leave the slot, and the operand forms
of the scalar instructions.
-/

namespace Sys2Proof.Laws

open Sys2Proof.Machine

variable {len : Word} {enc : BitVec 32} {s t s1 s2 s3 s4 : State} {e : Env}

/-! ### The scaffold -/

@[simp] theorem envOf_s (len : Word) (enc : BitVec 32) (s : State) : (envOf len enc s).s = s := rfl
@[simp] theorem envOf_t (len : Word) (enc : BitVec 32) (s : State) : (envOf len enc s).t = s.cur := rfl
@[simp] theorem envOf_sl (len : Word) (enc : BitVec 32) (s : State) : (envOf len enc s).sl = getSlot s s.cur := rfl
@[simp] theorem envOf_enc (len : Word) (enc : BitVec 32) (s : State) : (envOf len enc s).enc = enc.setWidth 64 := rfl
@[simp] theorem envOf_npc (len : Word) (enc : BitVec 32) (s : State) : (envOf len enc s).npc = (getSlot s s.cur).pc + len := rfl

/-- A thread instruction of a slot in rotation answers what its body answers, or the state that its stop leaves. -/
theorem thr_eq {body : Env → X State} (hu : (getSlot s s.cur).uid.isSome = true) (hp : parkedSlot (getSlot s s.cur) = false) :
    thr len enc s body = .next (match body (envOf len enc s) with
      | .ok t => t
      | .error st => applyStop (envOf len enc s) st) := by
  have hu' : (envOf len enc s).sl.uid.isNone = false := by simpa using hu
  have hp' : parkedSlot (envOf len enc s).sl = false := hp
  unfold thr
  simp only [hu', hp', Bool.false_eq_true, if_false]
  all_goals rfl

theorem thr_next {body : Env → X State} (hu : (getSlot s s.cur).uid.isSome = true) (hp : parkedSlot (getSlot s s.cur) = false)
    (hb : body (envOf len enc s) = .ok t) : thr len enc s body = .next t := by
  rw [thr_eq hu hp, hb]

theorem thr_stop {body : Env → X State} {st : Stop} (hu : (getSlot s s.cur).uid.isSome = true)
    (hp : parkedSlot (getSlot s s.cur) = false) (hb : body (envOf len enc s) = .error st) :
    thr len enc s body = .next (applyStop (envOf len enc s) st) := by
  rw [thr_eq hu hp, hb]

/-- A thread instruction of a slot that waits for something that is brought to it changes nothing (R95). -/
theorem thr_parked {body : Env → X State} (hu : (getSlot s s.cur).uid.isSome = true) (hp : parkedSlot (getSlot s s.cur) = true) :
    thr len enc s body = .next s := by
  have hu' : (envOf len enc s).sl.uid.isNone = false := by simpa using hu
  have hp' : parkedSlot (envOf len enc s).sl = true := hp
  unfold thr
  simp only [hu', hp', Bool.false_eq_true, if_false, if_true]

/-- A thread instruction ends in the fault exactly where the slot holds no continuation. -/
theorem thr_empty {body : Env → X State} (hu : (getSlot s s.cur).uid = none) : thr len enc s body = .fault .noContinuation := by
  have hu' : (envOf len enc s).sl.uid.isNone = true := by simp [hu]
  unfold thr
  simp only [hu', if_true]

/-- The slot after an instruction that completes (R95): in rotation, at the target. -/
theorem getSlot_jumpTo (e : Env) (s : State) (target : Word) :
    getSlot (jumpTo e s target) e.t = { readied (getSlot s e.t) with pc := target, ord := (getSlot s e.t).ord + 1 } :=
  getSlot_modSlot_same _ _ _
theorem getSlot_done (e : Env) (s : State) :
    getSlot (done e s) e.t = { readied (getSlot s e.t) with pc := e.npc, ord := (getSlot s e.t).ord + 1 } := getSlot_jumpTo _ _ _
@[simp] theorem done_mem (e : Env) (s : State) : (done e s).mem = s.mem := rfl
@[simp] theorem jumpTo_mem (e : Env) (s : State) (target : Word) : (jumpTo e s target).mem = s.mem := rfl
@[simp] theorem regGet_done (e : Env) (s : State) (t : Tid) (sl : Slot) (n : Nat) : regGet (done e s) t sl n = regGet s t sl n :=
  regGet_modSlot _ _ _ _ _ _
@[simp] theorem regGet_jumpTo (e : Env) (s : State) (target : Word) (t : Tid) (sl : Slot) (n : Nat) :
    regGet (jumpTo e s target) t sl n = regGet s t sl n := regGet_modSlot _ _ _ _ _ _

/-! ### Traps (R156, R192, R395) -/

/-- A trap taken while a handler is set and no trap is active. -/
theorem takeTrap_handler {x : Tid} {c : BitVec 8} {v pc : Word} (hv : (getSlot s x).csr.trapvec ≠ 0)
    (ha : (getSlot s x).csr.trapActive = false) :
    takeTrap s x c v pc = setSlot s x { readied (getSlot s x) with
      csr := { (getSlot s x).csr with tcause := c.setWidth 64, tval := v, tepc := pc, trapActive := true },
      pc := (getSlot s x).csr.trapvec } := by
  exact if_neg (not_or.mpr ⟨hv, by simp [ha]⟩)

/-- A trap with no handler, or inside one, discards the context (R192, R206). -/
theorem takeTrap_teardown {x : Tid} {c : BitVec 8} {v pc : Word}
    (h : (getSlot s x).csr.trapvec = 0 ∨ (getSlot s x).csr.trapActive = true) :
    takeTrap s x c v pc = teardown s (getSlot s x).ctx stFAULT := by
  exact if_pos h

theorem takeUpcall_upcall {x : Tid} {va pc : Word} (hv : (getSlot s x).csr.upvec ≠ 0) (ha : (getSlot s x).csr.upcallActive = false) :
    takeUpcall s x va pc = setSlot s x { readied (getSlot s x) with
      csr := { (getSlot s x).csr with upcause := 0x07, upaddr := va, upseq := (getSlot s x).upCount, upepc := pc, upcallActive := true },
      upCount := (getSlot s x).upCount + 1, pc := (getSlot s x).csr.upvec } := by
  exact if_neg (not_or.mpr ⟨by simp [ha], hv⟩)

theorem takeUpcall_trap {x : Tid} {va pc : Word} (h : (getSlot s x).csr.upcallActive = true ∨ (getSlot s x).csr.upvec = 0) :
    takeUpcall s x va pc = takeTrap s x 0x07 va pc := by
  exact if_pos h

/-! ### Register fields (R121, R122) -/

/-- Window registers that await nothing pass the checks of a thread without ports. -/
theorem chk_ok {rd wr np vs : List Nat} (hp : e.sl.ports = false) (hw : leastOut e.sl (rd ++ wr ++ np) vs = none)
    (ho : ∀ n ∈ rd ++ wr ++ np ++ vs.flatMap (fun v => (List.range 8).map fun j => 8 * v + j), outstanding e.sl n = false) :
    chk e rd wr np vs = .ok () := by
  have ha : (rd ++ wr ++ np ++ vs.flatMap fun v => (List.range 8).map fun j => 8 * v + j).any (outstanding e.sl) = false := by
    rw [List.any_eq_false]
    intro n hn
    simp [ho n hn]
  simp only [chk, hp, hw, ha, Bool.false_and, Bool.false_eq_true, if_false]

/-- A register outside the window raises WINDOW with the least such number (R121). -/
theorem chk_window {rd wr np vs : List Nat} {n : Nat} (hp : e.sl.ports = false) (hw : leastOut e.sl (rd ++ wr ++ np) vs = some n) :
    chk e rd wr np vs = .error (.trap 0x02 (wd n)) := by
  simp only [chk, hp, hw, Bool.false_and, Bool.false_eq_true, if_false]
  rfl

/-- A source register of a thread without ports is read, and nothing changes. -/
theorem readR_window {n : Nat} (hp : e.sl.ports = false ∨ n < 120) : readR e s n = .ok (s, regGet s e.t e.sl n) := by
  have h : (e.sl.ports && decide (n ≥ 120)) = false := by
    rcases hp with h | h
    · simp [h]
    · simp [Nat.not_le.mpr h]
  simp only [readR, h, Bool.false_eq_true, if_false]

theorem writeR_window {n : Nat} {v : Word} (hp : e.sl.ports = false ∨ n < 120) : writeR e s n v = .ok (regSet s e.t e.sl n v) := by
  have h : (e.sl.ports && decide (n ≥ 120)) = false := by
    rcases hp with h | h
    · simp [h]
    · simp [Nat.not_le.mpr h]
  simp only [writeR, h, Bool.false_eq_true, if_false]

/-! ### Operand forms of the scalar instructions -/

theorem alu2_next {d a b : Nat} {f : Word → Word → Word} {x y : Word}
    (hu : (getSlot s s.cur).uid.isSome = true) (hp : parkedSlot (getSlot s s.cur) = false)
    (hc : chk (envOf len enc s) [a, b] [d] [] = .ok ()) (ha : readR (envOf len enc s) s a = .ok (s1, x))
    (hb : readR (envOf len enc s) s1 b = .ok (s2, y)) (hw : writeR (envOf len enc s) s2 d (f x y) = .ok s3) :
    alu2 len enc d a b s f = .next (done (envOf len enc s) s3) := by
  refine thr_next hu hp ?_
  simp only [hc, envOf_s, ha, hb, hw, Bind.bind, Except.bind, pure, Except.pure]

theorem alu1_next {d a : Nat} {f : Word → Word} {x : Word}
    (hu : (getSlot s s.cur).uid.isSome = true) (hp : parkedSlot (getSlot s s.cur) = false)
    (hc : chk (envOf len enc s) [a] [d] [] = .ok ()) (ha : readR (envOf len enc s) s a = .ok (s1, x))
    (hw : writeR (envOf len enc s) s1 d (f x) = .ok s2) : alu1 len enc d a s f = .next (done (envOf len enc s) s2) := by
  refine thr_next hu hp ?_
  simp only [hc, envOf_s, ha, hw, Bind.bind, Except.bind, pure, Except.pure]

theorem alu0_next {d : Nat} {v : Word} (hu : (getSlot s s.cur).uid.isSome = true) (hp : parkedSlot (getSlot s s.cur) = false)
    (hc : chk (envOf len enc s) [] [d] [] = .ok ()) (hw : writeR (envOf len enc s) s d v = .ok s1) :
    alu0 len enc d s v = .next (done (envOf len enc s) s1) := by
  refine thr_next hu hp ?_
  simp only [hc, envOf_s, hw, Bind.bind, Except.bind, pure, Except.pure]

theorem alu3_next {d a b : Nat} {f : Word → Word → Word → Word} {x y g : Word}
    (hu : (getSlot s s.cur).uid.isSome = true) (hp : parkedSlot (getSlot s s.cur) = false)
    (hc : chk (envOf len enc s) [a, b, d] [d] [] = .ok ()) (ha : readR (envOf len enc s) s a = .ok (s1, x))
    (hb : readR (envOf len enc s) s1 b = .ok (s2, y)) (hg : readR (envOf len enc s) s2 d = .ok (s3, g))
    (hw : writeR (envOf len enc s) s3 d (f g x y) = .ok s4) : alu3 len enc d a b s f = .next (done (envOf len enc s) s4) := by
  refine thr_next hu hp ?_
  simp only [hc, envOf_s, ha, hb, hg, hw, Bind.bind, Except.bind, pure, Except.pure]

theorem cmp2_next {k a b : Nat} {c : Word → Word → Bool} {x y : Word}
    (hu : (getSlot s s.cur).uid.isSome = true) (hp : parkedSlot (getSlot s s.cur) = false)
    (hc : chk (envOf 4 enc s) [a, b] [] [] = .ok ()) (ha : readR (envOf 4 enc s) s a = .ok (s1, x))
    (hb : readR (envOf 4 enc s) s1 b = .ok (s2, y)) :
    cmp2 enc k a b s c = .next (done (envOf 4 enc s) (predSet s2 s.cur k (allOnes (c x y)))) := by
  refine thr_next hu hp ?_
  simp only [hc, envOf_s, envOf_t, ha, hb, Bind.bind, Except.bind, pure, Except.pure]

theorem cmp1_next {k a : Nat} {c : Word → Bool} {x : Word}
    (hu : (getSlot s s.cur).uid.isSome = true) (hp : parkedSlot (getSlot s s.cur) = false)
    (hc : chk (envOf 4 enc s) [a] [] [] = .ok ()) (ha : readR (envOf 4 enc s) s a = .ok (s1, x)) :
    cmp1 enc k a s c = .next (done (envOf 4 enc s) (predSet s1 s.cur k (allOnes (c x)))) := by
  refine thr_next hu hp ?_
  simp only [hc, envOf_s, envOf_t, ha, Bind.bind, Except.bind, pure, Except.pure]

theorem kop_next {d a b : Nat} {f : Word → Word → Word} (hu : (getSlot s s.cur).uid.isSome = true)
    (hp : parkedSlot (getSlot s s.cur) = false) :
    kop enc d a b s f = .next (done (envOf 4 enc s)
      (predSet s s.cur d (f (predGet (getSlot s s.cur) a) (predGet (getSlot s s.cur) b)))) := thr_next hu hp rfl

/-- A branch on a register (R295). -/
theorem branch_next {code a : Nat} {off x : Word} (hu : (getSlot s s.cur).uid.isSome = true)
    (hp : parkedSlot (getSlot s s.cur) = false) (hc : chk (envOf 4 enc s) [a] [] [] = .ok ())
    (ha : readR (envOf 4 enc s) s a = .ok (s1, x)) :
    branch enc code a off s = .next (if brCond code x then jumpTo (envOf 4 enc s) s1 ((getSlot s s.cur).pc + off)
      else done (envOf 4 enc s) s1) := by
  refine thr_next hu hp ?_
  simp only [hc, envOf_s, envOf_sl, ha, Bind.bind, Except.bind, pure, Except.pure]

/-- A float operation of two operands, rounded once (R291). -/
theorem fop2_next {d a b : Nat} {fm : Fmt} {f : Bool → XV → XV → XV} {x y : Word} {r : FR}
    (hu : (getSlot s s.cur).uid.isSome = true) (hp : parkedSlot (getSlot s s.cur) = false)
    (hc : chk (envOf len enc s) [a, b] [d] [] = .ok ()) (ha : readR (envOf len enc s) s a = .ok (s1, x))
    (hb : readR (envOf len enc s) s1 b = .ok (s2, y))
    (hr : roundTo fm (rcOf (getSlot s s.cur)) (f (rdn (envOf len enc s)) (decodeF fm (fIn fm x)) (decodeF fm (fIn fm y))) = r)
    (hw : writeR (envOf len enc s) s2 d (wd r.bits) = .ok s3) :
    fop2 len enc d a b s fm f = .next (done (envOf len enc s) (setSeed (orFlags s3 s.cur r.flags) s.cur r.seed)) := by
  refine thr_next hu hp ?_
  simp only [hc, envOf_s, envOf_sl, envOf_t, ha, hb, hr, putFR, hw, Bind.bind, Except.bind, pure, Except.pure]

end Sys2Proof.Laws
end

