-- ==== Sys2Proof/Laws/Extract.lean ====
section
/-!
SUPPORT. Slices of concatenations of bit vectors, and the bytes of a word joined again.
-/

namespace Sys2Proof.Laws

/-- A slice that lies inside the low part of a concatenation. -/
theorem extract_low {w v n s : Nat} (x : BitVec w) (y : BitVec v) (h : s + n ≤ v) :
    (x ++ y).extractLsb' s n = y.extractLsb' s n := by
  ext i hi
  simp [BitVec.getLsbD_append]
  omega

/-- A slice that lies inside the high part of a concatenation. -/
theorem extract_high {w v n s : Nat} (x : BitVec w) (y : BitVec v) (h : v ≤ s) :
    (x ++ y).extractLsb' s n = x.extractLsb' (s - v) n := by
  ext i hi
  have h1 : ¬ s + i < v := by omega
  have h2 : s + i - v = s - v + i := by omega
  simp [BitVec.getLsbD_append, h1, h2]

/-- The slice that is the whole. -/
theorem extract_all {w : Nat} (x : BitVec w) : x.extractLsb' 0 w = x := by
  ext i hi
  simp

/-- A slice of a slice. -/
theorem extract_sub {v n a : Nat} {w : BitVec v} {x : BitVec n} (h : w.extractLsb' a n = x) (b m : Nat)
    (hb : b + m ≤ n := by decide) : w.extractLsb' (a + b) m = x.extractLsb' b m := by
  rw [← h]
  ext i hi
  simp [Nat.add_assoc]
  omega

/-- The four bytes of a word, joined again. -/
theorem join_bytes (w : BitVec 32) :
    w.extractLsb' 24 8 ++ w.extractLsb' 16 8 ++ w.extractLsb' 8 8 ++ w.extractLsb' 0 8 = w := by
  ext i hi
  simp
  grind

/-- The two bytes of a halfword that a word carries, joined again. -/
theorem join_half (h : BitVec 16) :
    (h.setWidth 32).extractLsb' 8 8 ++ (h.setWidth 32).extractLsb' 0 8 = h := by
  ext i hi
  simp
  grind

end Sys2Proof.Laws
end

