-- ==== Sys2Proof/Laws/Memory.lean ====
section
/-!
SUPPORT. Memory: every operation keeps the canonical form, a read after a write gives what was written, and a write
leaves every other byte alone.
-/

namespace Sys2Proof.Laws

open Sys2Proof.Machine

theorem memory_wf_cons (c : Host.Cell) (r : List Host.Cell) :
    Memory.wf (c :: r) = true ↔ (∀ e ∈ r.head?, c.1 < e.1) ∧ c.2 ≠ memDefault ∧ Memory.wf r = true := by
  cases r with
  | nil => simp [Memory.wf]
  | cons f t => simp [Memory.wf, and_assoc]

/-- The check of the canonical form says what it means. -/
theorem memory_wf_iff (m : List Host.Cell) : Memory.wf m = true ↔ Canonical memDefault m := by
  induction m with
  | nil => simp [Memory.wf, nil_canonical]
  | cons c r ih =>
    rw [memory_wf_cons, ih]
    constructor
    · rintro ⟨h1, h2, h3⟩
      refine ⟨List.pairwise_cons.mpr ⟨?_, h3.1⟩, fun e he => ?_⟩
      · intro e he
        cases r with
        | nil => exact absurd he (by simp)
        | cons f t =>
          have hf := h1 f (by simp)
          rcases List.mem_cons.mp he with rfl | he
          · exact hf
          · exact Nat.lt_trans hf ((List.pairwise_cons.mp h3.1).1 e he)
      · rcases List.mem_cons.mp he with rfl | he
        · exact h2
        · exact h3.2 e he
    · rintro ⟨h1, h2⟩
      rw [List.pairwise_cons] at h1
      refine ⟨fun e he => h1.1 e ?_, h2 c (by simp), h1.2, fun e he => h2 e (by simp [he])⟩
      cases r with
      | nil => simp at he
      | cons f t =>
        simp only [List.head?_cons, Option.mem_def, Option.some.injEq] at he
        simp [he]

/-- Equal bytes at every address make equal memories. -/
theorem memory_ext {m n : List Host.Cell} (hm : Memory.wf m = true) (hn : Memory.wf n = true)
    (h : ∀ k, memByte m k = memByte n k) : m = n :=
  canonical_ext memDefault ((memory_wf_iff m).mp hm) ((memory_wf_iff n).mp hn) h

theorem memPut_wf {m : List Host.Cell} (k : Nat) (b : Byte) (h : Memory.wf m = true) : Memory.wf (memPut m k b) = true :=
  (memory_wf_iff _).mpr (smSet_canonical memDefault k b ((memory_wf_iff m).mp h))

theorem memWrite_wf {m : List Host.Cell} (k n v : Nat) (h : Memory.wf m = true) : Memory.wf (memWrite m k n v) = true := by
  induction n generalizing m k v with
  | zero => exact h
  | succ n ih => exact ih _ _ (memPut_wf _ _ h)

theorem memWriteL_wf {m : List Host.Cell} (k : Nat) (l : List Byte) (h : Memory.wf m = true) :
    Memory.wf (memWriteL m k l) = true := by
  induction l generalizing m k with
  | nil => exact h
  | cons b r ih => exact ih _ (memPut_wf _ _ h)

theorem memCells_wf {m : List Host.Cell} (l : List Host.Cell) (h : Memory.wf m = true) : Memory.wf (memCells m l) = true := by
  unfold memCells
  induction l generalizing m with
  | nil => exact h
  | cons c r ih => exact ih (memPut_wf _ _ h)

@[simp] theorem memByte_memPut_same (m : List Host.Cell) (k : Nat) (b : Byte) : memByte (memPut m k b) k = b :=
  smGet_smSet_same memDefault m k b

theorem memByte_memPut_other (m : List Host.Cell) {k j : Nat} (b : Byte) (h : j ≠ k) : memByte (memPut m k b) j = memByte m j :=
  smGet_smSet_other memDefault m b h

/-- A write leaves every byte outside its range alone. -/
theorem memByte_memWrite_outside (m : List Host.Cell) (k n v j : Nat) (h : j < k ∨ k + n ≤ j) :
    memByte (memWrite m k n v) j = memByte m j := by
  induction n generalizing m k v with
  | zero => rfl
  | succ n ih =>
    rw [memWrite, ih _ _ _ (by omega), memByte_memPut_other _ _ (by omega)]

/-- Byte i of what was written. -/
theorem memByte_memWrite_inside (m : List Host.Cell) (k n v i : Nat) (h : i < n) :
    memByte (memWrite m k n v) (k + i) = BitVec.ofNat 8 (v / 256 ^ i % 256) := by
  induction n generalizing m k v i with
  | zero => omega
  | succ n ih =>
    rw [memWrite]
    cases i with
    | zero => rw [memByte_memWrite_outside _ _ _ _ _ (by omega)]; simp
    | succ i =>
      have := ih (memPut m k (BitVec.ofNat 8 (v % 256))) (k + 1) (v / 256) i (by omega)
      rw [show k + (i + 1) = k + 1 + i by omega, this, Nat.div_div_eq_div_mul, pow_succ, Nat.mul_comm]

/-- Reading back what was written gives its low n bytes. -/
theorem memRead_memWrite_same (m : List Host.Cell) (k n v : Nat) : memRead (memWrite m k n v) k n = v % 256 ^ n := by
  induction n generalizing m k v with
  | zero => simp [memRead, Nat.mod_one]
  | succ n ih =>
    have h0 : memByte (memWrite m k (n + 1) v) k = BitVec.ofNat 8 (v % 256) := by
      have := memByte_memWrite_inside m k (n + 1) v 0 (by omega)
      simpa using this
    rw [memRead, h0, memWrite, ih]
    have h1 : (BitVec.ofNat 8 (v % 256)).toNat = v % 256 := by simp
    rw [h1, Nat.pow_succ, Nat.mul_comm (256 ^ n) 256, Nat.mod_mul]

/-- A read of bytes that a write does not touch. -/
theorem memRead_memWrite_apart (m : List Host.Cell) (k n v j l : Nat) (h : j + l ≤ k ∨ k + n ≤ j) :
    memRead (memWrite m k n v) j l = memRead m j l := by
  induction l generalizing j with
  | zero => rfl
  | succ l ih => rw [memRead, memRead, memByte_memWrite_outside _ _ _ _ _ (by omega), ih (j + 1) (by omega)]

/-- What is read depends on the bytes alone. -/
theorem memRead_congr {m m' : List Host.Cell} (k n : Nat) (h : ∀ i, i < n → memByte m (k + i) = memByte m' (k + i)) :
    memRead m k n = memRead m' k n := by
  induction n generalizing k with
  | zero => rfl
  | succ n ih =>
    have h0 := h 0 (by omega)
    rw [Nat.add_zero] at h0
    rw [memRead, memRead, h0, ih (k + 1) fun i hi => by
      rw [show k + 1 + i = k + (i + 1) by omega]
      exact h (i + 1) (by omega)]

end Sys2Proof.Laws
end

