-- ==== Sys2Proof/Laws/PerInstr.lean ====
section
/-!
SUPPORT. For every instruction that has an encoding, decoding what the encoder writes gives the instruction back
(R263 to R271): one lemma per constructor, over the slices of each layout of fields.
-/

namespace Sys2Proof.Laws

set_option Elab.async false

/-- The round trip of one instruction, in front of any other bytes. -/
def RoundTrip.Statement (i : Instr) : Prop :=
  i.encoded = true → i.wf = true → ∀ r, decode (encodeBytes i ++ r) = .ok (i, r)

/-- Bit 0 of a word whose low seven bits are odd. -/
theorem full_bit {w : BitVec 32} {m : BitVec 7} (h : w.extractLsb' 0 7 = m) (hm : m.getLsbD 0 = true := by rfl) :
    w.getLsbD 0 = true := by
  rw [← hm, ← h]
  simp

/-- Bit 0 of a halfword whose low six bits are even. -/
theorem half_bit {w : BitVec 16} {m : BitVec 6} (h : w.extractLsb' 0 6 = m) (hm : m.getLsbD 0 = false := by rfl) :
    w.getLsbD 0 = false := by
  rw [← hm, ← h]
  simp

/-- A 32-bit form comes back when its word decodes to it. -/
theorem roundTrip_full {i : Instr} (hh : isHalf i = false) (hb : (encode i).getLsbD 0 = true)
    (hd : decodeWord (encode i) = some i) : RoundTrip.Statement i := by
  intro _ hw r
  have hb0 : ((encode i).extractLsb' 0 8).getLsbD 0 = true := by simpa using hb
  simp only [encodeBytes, hh, Bool.false_eq_true, if_false, List.cons_append, List.nil_append, decode, hb0, if_true,
    join_bytes (encode i), decode32, hd, hw]
  rfl

/-- A 16-bit form comes back when its halfword decodes to it. -/
theorem roundTrip_half {i : Instr} (h : BitVec 16) (hh : isHalf i = true) (he : encode i = h.setWidth 32)
    (hb : h.getLsbD 0 = false) (hd : decodeHalf h = some i) : RoundTrip.Statement i := by
  intro _ hw r
  have hb0 : ((h.setWidth 32).extractLsb' 0 8).getLsbD 0 = false := by simpa using hb
  simp only [encodeBytes, hh, if_true, List.cons_append, List.nil_append, decode, he, hb0, Bool.false_eq_true, if_false,
    join_half h, decode16, hd, hw]
  rfl

/-! ### The fields of each layout -/

theorem slices_4_7_7_7_7 (x0 : BitVec 4) (x1 : BitVec 7) (x2 : BitVec 7) (x3 : BitVec 7) (x4 : BitVec 7) :
    let w : BitVec 32 := x0 ++ x1 ++ x2 ++ x3 ++ x4
    w.extractLsb' 28 4 = x0 ∧ w.extractLsb' 21 7 = x1 ∧ w.extractLsb' 14 7 = x2 ∧ w.extractLsb' 7 7 = x3 ∧ w.extractLsb' 0 7 = x4 :=
  ⟨(extract_high (x0 ++ x1 ++ x2 ++ x3) x4 (by decide)).trans ((extract_high (x0 ++ x1 ++ x2) x3 (by decide)).trans ((extract_high (x0 ++ x1) x2 (by decide)).trans ((extract_high (x0) x1 (by decide)).trans (extract_all x0)))),
   (extract_high (x0 ++ x1 ++ x2 ++ x3) x4 (by decide)).trans ((extract_high (x0 ++ x1 ++ x2) x3 (by decide)).trans ((extract_high (x0 ++ x1) x2 (by decide)).trans ((extract_low (x0) x1 (by decide)).trans (extract_all x1)))),
   (extract_high (x0 ++ x1 ++ x2 ++ x3) x4 (by decide)).trans ((extract_high (x0 ++ x1 ++ x2) x3 (by decide)).trans ((extract_low (x0 ++ x1) x2 (by decide)).trans (extract_all x2))),
   (extract_high (x0 ++ x1 ++ x2 ++ x3) x4 (by decide)).trans ((extract_low (x0 ++ x1 ++ x2) x3 (by decide)).trans (extract_all x3)),
   (extract_low (x0 ++ x1 ++ x2 ++ x3) x4 (by decide)).trans (extract_all x4)⟩

theorem slices_11_7_7_7 (x0 : BitVec 11) (x1 : BitVec 7) (x2 : BitVec 7) (x3 : BitVec 7) :
    let w : BitVec 32 := x0 ++ x1 ++ x2 ++ x3
    w.extractLsb' 21 11 = x0 ∧ w.extractLsb' 14 7 = x1 ∧ w.extractLsb' 7 7 = x2 ∧ w.extractLsb' 0 7 = x3 :=
  ⟨(extract_high (x0 ++ x1 ++ x2) x3 (by decide)).trans ((extract_high (x0 ++ x1) x2 (by decide)).trans ((extract_high (x0) x1 (by decide)).trans (extract_all x0))),
   (extract_high (x0 ++ x1 ++ x2) x3 (by decide)).trans ((extract_high (x0 ++ x1) x2 (by decide)).trans ((extract_low (x0) x1 (by decide)).trans (extract_all x1))),
   (extract_high (x0 ++ x1 ++ x2) x3 (by decide)).trans ((extract_low (x0 ++ x1) x2 (by decide)).trans (extract_all x2)),
   (extract_low (x0 ++ x1 ++ x2) x3 (by decide)).trans (extract_all x3)⟩

theorem slices_4_7_7_4_3_7 (x0 : BitVec 4) (x1 : BitVec 7) (x2 : BitVec 7) (x3 : BitVec 4) (x4 : BitVec 3) (x5 : BitVec 7) :
    let w : BitVec 32 := x0 ++ x1 ++ x2 ++ x3 ++ x4 ++ x5
    w.extractLsb' 28 4 = x0 ∧ w.extractLsb' 21 7 = x1 ∧ w.extractLsb' 14 7 = x2 ∧ w.extractLsb' 10 4 = x3 ∧ w.extractLsb' 7 3 = x4 ∧ w.extractLsb' 0 7 = x5 :=
  ⟨(extract_high (x0 ++ x1 ++ x2 ++ x3 ++ x4) x5 (by decide)).trans ((extract_high (x0 ++ x1 ++ x2 ++ x3) x4 (by decide)).trans ((extract_high (x0 ++ x1 ++ x2) x3 (by decide)).trans ((extract_high (x0 ++ x1) x2 (by decide)).trans ((extract_high (x0) x1 (by decide)).trans (extract_all x0))))),
   (extract_high (x0 ++ x1 ++ x2 ++ x3 ++ x4) x5 (by decide)).trans ((extract_high (x0 ++ x1 ++ x2 ++ x3) x4 (by decide)).trans ((extract_high (x0 ++ x1 ++ x2) x3 (by decide)).trans ((extract_high (x0 ++ x1) x2 (by decide)).trans ((extract_low (x0) x1 (by decide)).trans (extract_all x1))))),
   (extract_high (x0 ++ x1 ++ x2 ++ x3 ++ x4) x5 (by decide)).trans ((extract_high (x0 ++ x1 ++ x2 ++ x3) x4 (by decide)).trans ((extract_high (x0 ++ x1 ++ x2) x3 (by decide)).trans ((extract_low (x0 ++ x1) x2 (by decide)).trans (extract_all x2)))),
   (extract_high (x0 ++ x1 ++ x2 ++ x3 ++ x4) x5 (by decide)).trans ((extract_high (x0 ++ x1 ++ x2 ++ x3) x4 (by decide)).trans ((extract_low (x0 ++ x1 ++ x2) x3 (by decide)).trans (extract_all x3))),
   (extract_high (x0 ++ x1 ++ x2 ++ x3 ++ x4) x5 (by decide)).trans ((extract_low (x0 ++ x1 ++ x2 ++ x3) x4 (by decide)).trans (extract_all x4)),
   (extract_low (x0 ++ x1 ++ x2 ++ x3 ++ x4) x5 (by decide)).trans (extract_all x5)⟩

theorem slices_1_3_7_7_7_7 (x0 : BitVec 1) (x1 : BitVec 3) (x2 : BitVec 7) (x3 : BitVec 7) (x4 : BitVec 7) (x5 : BitVec 7) :
    let w : BitVec 32 := x0 ++ x1 ++ x2 ++ x3 ++ x4 ++ x5
    w.extractLsb' 31 1 = x0 ∧ w.extractLsb' 28 3 = x1 ∧ w.extractLsb' 21 7 = x2 ∧ w.extractLsb' 14 7 = x3 ∧ w.extractLsb' 7 7 = x4 ∧ w.extractLsb' 0 7 = x5 :=
  ⟨(extract_high (x0 ++ x1 ++ x2 ++ x3 ++ x4) x5 (by decide)).trans ((extract_high (x0 ++ x1 ++ x2 ++ x3) x4 (by decide)).trans ((extract_high (x0 ++ x1 ++ x2) x3 (by decide)).trans ((extract_high (x0 ++ x1) x2 (by decide)).trans ((extract_high (x0) x1 (by decide)).trans (extract_all x0))))),
   (extract_high (x0 ++ x1 ++ x2 ++ x3 ++ x4) x5 (by decide)).trans ((extract_high (x0 ++ x1 ++ x2 ++ x3) x4 (by decide)).trans ((extract_high (x0 ++ x1 ++ x2) x3 (by decide)).trans ((extract_high (x0 ++ x1) x2 (by decide)).trans ((extract_low (x0) x1 (by decide)).trans (extract_all x1))))),
   (extract_high (x0 ++ x1 ++ x2 ++ x3 ++ x4) x5 (by decide)).trans ((extract_high (x0 ++ x1 ++ x2 ++ x3) x4 (by decide)).trans ((extract_high (x0 ++ x1 ++ x2) x3 (by decide)).trans ((extract_low (x0 ++ x1) x2 (by decide)).trans (extract_all x2)))),
   (extract_high (x0 ++ x1 ++ x2 ++ x3 ++ x4) x5 (by decide)).trans ((extract_high (x0 ++ x1 ++ x2 ++ x3) x4 (by decide)).trans ((extract_low (x0 ++ x1 ++ x2) x3 (by decide)).trans (extract_all x3))),
   (extract_high (x0 ++ x1 ++ x2 ++ x3 ++ x4) x5 (by decide)).trans ((extract_low (x0 ++ x1 ++ x2 ++ x3) x4 (by decide)).trans (extract_all x4)),
   (extract_low (x0 ++ x1 ++ x2 ++ x3 ++ x4) x5 (by decide)).trans (extract_all x5)⟩

theorem slices_11_7_4_3_7 (x0 : BitVec 11) (x1 : BitVec 7) (x2 : BitVec 4) (x3 : BitVec 3) (x4 : BitVec 7) :
    let w : BitVec 32 := x0 ++ x1 ++ x2 ++ x3 ++ x4
    w.extractLsb' 21 11 = x0 ∧ w.extractLsb' 14 7 = x1 ∧ w.extractLsb' 10 4 = x2 ∧ w.extractLsb' 7 3 = x3 ∧ w.extractLsb' 0 7 = x4 :=
  ⟨(extract_high (x0 ++ x1 ++ x2 ++ x3) x4 (by decide)).trans ((extract_high (x0 ++ x1 ++ x2) x3 (by decide)).trans ((extract_high (x0 ++ x1) x2 (by decide)).trans ((extract_high (x0) x1 (by decide)).trans (extract_all x0)))),
   (extract_high (x0 ++ x1 ++ x2 ++ x3) x4 (by decide)).trans ((extract_high (x0 ++ x1 ++ x2) x3 (by decide)).trans ((extract_high (x0 ++ x1) x2 (by decide)).trans ((extract_low (x0) x1 (by decide)).trans (extract_all x1)))),
   (extract_high (x0 ++ x1 ++ x2 ++ x3) x4 (by decide)).trans ((extract_high (x0 ++ x1 ++ x2) x3 (by decide)).trans ((extract_low (x0 ++ x1) x2 (by decide)).trans (extract_all x2))),
   (extract_high (x0 ++ x1 ++ x2 ++ x3) x4 (by decide)).trans ((extract_low (x0 ++ x1 ++ x2) x3 (by decide)).trans (extract_all x3)),
   (extract_low (x0 ++ x1 ++ x2 ++ x3) x4 (by decide)).trans (extract_all x4)⟩

theorem slices_5_6_7_4_3_7 (x0 : BitVec 5) (x1 : BitVec 6) (x2 : BitVec 7) (x3 : BitVec 4) (x4 : BitVec 3) (x5 : BitVec 7) :
    let w : BitVec 32 := x0 ++ x1 ++ x2 ++ x3 ++ x4 ++ x5
    w.extractLsb' 27 5 = x0 ∧ w.extractLsb' 21 6 = x1 ∧ w.extractLsb' 14 7 = x2 ∧ w.extractLsb' 10 4 = x3 ∧ w.extractLsb' 7 3 = x4 ∧ w.extractLsb' 0 7 = x5 :=
  ⟨(extract_high (x0 ++ x1 ++ x2 ++ x3 ++ x4) x5 (by decide)).trans ((extract_high (x0 ++ x1 ++ x2 ++ x3) x4 (by decide)).trans ((extract_high (x0 ++ x1 ++ x2) x3 (by decide)).trans ((extract_high (x0 ++ x1) x2 (by decide)).trans ((extract_high (x0) x1 (by decide)).trans (extract_all x0))))),
   (extract_high (x0 ++ x1 ++ x2 ++ x3 ++ x4) x5 (by decide)).trans ((extract_high (x0 ++ x1 ++ x2 ++ x3) x4 (by decide)).trans ((extract_high (x0 ++ x1 ++ x2) x3 (by decide)).trans ((extract_high (x0 ++ x1) x2 (by decide)).trans ((extract_low (x0) x1 (by decide)).trans (extract_all x1))))),
   (extract_high (x0 ++ x1 ++ x2 ++ x3 ++ x4) x5 (by decide)).trans ((extract_high (x0 ++ x1 ++ x2 ++ x3) x4 (by decide)).trans ((extract_high (x0 ++ x1 ++ x2) x3 (by decide)).trans ((extract_low (x0 ++ x1) x2 (by decide)).trans (extract_all x2)))),
   (extract_high (x0 ++ x1 ++ x2 ++ x3 ++ x4) x5 (by decide)).trans ((extract_high (x0 ++ x1 ++ x2 ++ x3) x4 (by decide)).trans ((extract_low (x0 ++ x1 ++ x2) x3 (by decide)).trans (extract_all x3))),
   (extract_high (x0 ++ x1 ++ x2 ++ x3 ++ x4) x5 (by decide)).trans ((extract_low (x0 ++ x1 ++ x2 ++ x3) x4 (by decide)).trans (extract_all x4)),
   (extract_low (x0 ++ x1 ++ x2 ++ x3 ++ x4) x5 (by decide)).trans (extract_all x5)⟩

theorem slices_11_7_14 (x0 : BitVec 11) (x1 : BitVec 7) (x2 : BitVec 14) :
    let w : BitVec 32 := x0 ++ x1 ++ x2
    w.extractLsb' 21 11 = x0 ∧ w.extractLsb' 14 7 = x1 ∧ w.extractLsb' 0 14 = x2 :=
  ⟨(extract_high (x0 ++ x1) x2 (by decide)).trans ((extract_high (x0) x1 (by decide)).trans (extract_all x0)),
   (extract_high (x0 ++ x1) x2 (by decide)).trans ((extract_low (x0) x1 (by decide)).trans (extract_all x1)),
   (extract_low (x0 ++ x1) x2 (by decide)).trans (extract_all x2)⟩

theorem slices_5_6_7_7_7 (x0 : BitVec 5) (x1 : BitVec 6) (x2 : BitVec 7) (x3 : BitVec 7) (x4 : BitVec 7) :
    let w : BitVec 32 := x0 ++ x1 ++ x2 ++ x3 ++ x4
    w.extractLsb' 27 5 = x0 ∧ w.extractLsb' 21 6 = x1 ∧ w.extractLsb' 14 7 = x2 ∧ w.extractLsb' 7 7 = x3 ∧ w.extractLsb' 0 7 = x4 :=
  ⟨(extract_high (x0 ++ x1 ++ x2 ++ x3) x4 (by decide)).trans ((extract_high (x0 ++ x1 ++ x2) x3 (by decide)).trans ((extract_high (x0 ++ x1) x2 (by decide)).trans ((extract_high (x0) x1 (by decide)).trans (extract_all x0)))),
   (extract_high (x0 ++ x1 ++ x2 ++ x3) x4 (by decide)).trans ((extract_high (x0 ++ x1 ++ x2) x3 (by decide)).trans ((extract_high (x0 ++ x1) x2 (by decide)).trans ((extract_low (x0) x1 (by decide)).trans (extract_all x1)))),
   (extract_high (x0 ++ x1 ++ x2 ++ x3) x4 (by decide)).trans ((extract_high (x0 ++ x1 ++ x2) x3 (by decide)).trans ((extract_low (x0 ++ x1) x2 (by decide)).trans (extract_all x2))),
   (extract_high (x0 ++ x1 ++ x2 ++ x3) x4 (by decide)).trans ((extract_low (x0 ++ x1 ++ x2) x3 (by decide)).trans (extract_all x3)),
   (extract_low (x0 ++ x1 ++ x2 ++ x3) x4 (by decide)).trans (extract_all x4)⟩

theorem slices_18_7_7 (x0 : BitVec 18) (x1 : BitVec 7) (x2 : BitVec 7) :
    let w : BitVec 32 := x0 ++ x1 ++ x2
    w.extractLsb' 14 18 = x0 ∧ w.extractLsb' 7 7 = x1 ∧ w.extractLsb' 0 7 = x2 :=
  ⟨(extract_high (x0 ++ x1) x2 (by decide)).trans ((extract_high (x0) x1 (by decide)).trans (extract_all x0)),
   (extract_high (x0 ++ x1) x2 (by decide)).trans ((extract_low (x0) x1 (by decide)).trans (extract_all x1)),
   (extract_low (x0 ++ x1) x2 (by decide)).trans (extract_all x2)⟩

theorem slices_15_3_7_7 (x0 : BitVec 15) (x1 : BitVec 3) (x2 : BitVec 7) (x3 : BitVec 7) :
    let w : BitVec 32 := x0 ++ x1 ++ x2 ++ x3
    w.extractLsb' 17 15 = x0 ∧ w.extractLsb' 14 3 = x1 ∧ w.extractLsb' 7 7 = x2 ∧ w.extractLsb' 0 7 = x3 :=
  ⟨(extract_high (x0 ++ x1 ++ x2) x3 (by decide)).trans ((extract_high (x0 ++ x1) x2 (by decide)).trans ((extract_high (x0) x1 (by decide)).trans (extract_all x0))),
   (extract_high (x0 ++ x1 ++ x2) x3 (by decide)).trans ((extract_high (x0 ++ x1) x2 (by decide)).trans ((extract_low (x0) x1 (by decide)).trans (extract_all x1))),
   (extract_high (x0 ++ x1 ++ x2) x3 (by decide)).trans ((extract_low (x0 ++ x1) x2 (by decide)).trans (extract_all x2)),
   (extract_low (x0 ++ x1 ++ x2) x3 (by decide)).trans (extract_all x3)⟩

theorem slices_18_3_1_3_7 (x0 : BitVec 18) (x1 : BitVec 3) (x2 : BitVec 1) (x3 : BitVec 3) (x4 : BitVec 7) :
    let w : BitVec 32 := x0 ++ x1 ++ x2 ++ x3 ++ x4
    w.extractLsb' 14 18 = x0 ∧ w.extractLsb' 11 3 = x1 ∧ w.extractLsb' 10 1 = x2 ∧ w.extractLsb' 7 3 = x3 ∧ w.extractLsb' 0 7 = x4 :=
  ⟨(extract_high (x0 ++ x1 ++ x2 ++ x3) x4 (by decide)).trans ((extract_high (x0 ++ x1 ++ x2) x3 (by decide)).trans ((extract_high (x0 ++ x1) x2 (by decide)).trans ((extract_high (x0) x1 (by decide)).trans (extract_all x0)))),
   (extract_high (x0 ++ x1 ++ x2 ++ x3) x4 (by decide)).trans ((extract_high (x0 ++ x1 ++ x2) x3 (by decide)).trans ((extract_high (x0 ++ x1) x2 (by decide)).trans ((extract_low (x0) x1 (by decide)).trans (extract_all x1)))),
   (extract_high (x0 ++ x1 ++ x2 ++ x3) x4 (by decide)).trans ((extract_high (x0 ++ x1 ++ x2) x3 (by decide)).trans ((extract_low (x0 ++ x1) x2 (by decide)).trans (extract_all x2))),
   (extract_high (x0 ++ x1 ++ x2 ++ x3) x4 (by decide)).trans ((extract_low (x0 ++ x1 ++ x2) x3 (by decide)).trans (extract_all x3)),
   (extract_low (x0 ++ x1 ++ x2 ++ x3) x4 (by decide)).trans (extract_all x4)⟩

theorem slices_7_2_2_7_7_7 (x0 : BitVec 7) (x1 : BitVec 2) (x2 : BitVec 2) (x3 : BitVec 7) (x4 : BitVec 7) (x5 : BitVec 7) :
    let w : BitVec 32 := x0 ++ x1 ++ x2 ++ x3 ++ x4 ++ x5
    w.extractLsb' 25 7 = x0 ∧ w.extractLsb' 23 2 = x1 ∧ w.extractLsb' 21 2 = x2 ∧ w.extractLsb' 14 7 = x3 ∧ w.extractLsb' 7 7 = x4 ∧ w.extractLsb' 0 7 = x5 :=
  ⟨(extract_high (x0 ++ x1 ++ x2 ++ x3 ++ x4) x5 (by decide)).trans ((extract_high (x0 ++ x1 ++ x2 ++ x3) x4 (by decide)).trans ((extract_high (x0 ++ x1 ++ x2) x3 (by decide)).trans ((extract_high (x0 ++ x1) x2 (by decide)).trans ((extract_high (x0) x1 (by decide)).trans (extract_all x0))))),
   (extract_high (x0 ++ x1 ++ x2 ++ x3 ++ x4) x5 (by decide)).trans ((extract_high (x0 ++ x1 ++ x2 ++ x3) x4 (by decide)).trans ((extract_high (x0 ++ x1 ++ x2) x3 (by decide)).trans ((extract_high (x0 ++ x1) x2 (by decide)).trans ((extract_low (x0) x1 (by decide)).trans (extract_all x1))))),
   (extract_high (x0 ++ x1 ++ x2 ++ x3 ++ x4) x5 (by decide)).trans ((extract_high (x0 ++ x1 ++ x2 ++ x3) x4 (by decide)).trans ((extract_high (x0 ++ x1 ++ x2) x3 (by decide)).trans ((extract_low (x0 ++ x1) x2 (by decide)).trans (extract_all x2)))),
   (extract_high (x0 ++ x1 ++ x2 ++ x3 ++ x4) x5 (by decide)).trans ((extract_high (x0 ++ x1 ++ x2 ++ x3) x4 (by decide)).trans ((extract_low (x0 ++ x1 ++ x2) x3 (by decide)).trans (extract_all x3))),
   (extract_high (x0 ++ x1 ++ x2 ++ x3 ++ x4) x5 (by decide)).trans ((extract_low (x0 ++ x1 ++ x2 ++ x3) x4 (by decide)).trans (extract_all x4)),
   (extract_low (x0 ++ x1 ++ x2 ++ x3 ++ x4) x5 (by decide)).trans (extract_all x5)⟩

theorem slices_2_2_7_7_7_7 (x0 : BitVec 2) (x1 : BitVec 2) (x2 : BitVec 7) (x3 : BitVec 7) (x4 : BitVec 7) (x5 : BitVec 7) :
    let w : BitVec 32 := x0 ++ x1 ++ x2 ++ x3 ++ x4 ++ x5
    w.extractLsb' 30 2 = x0 ∧ w.extractLsb' 28 2 = x1 ∧ w.extractLsb' 21 7 = x2 ∧ w.extractLsb' 14 7 = x3 ∧ w.extractLsb' 7 7 = x4 ∧ w.extractLsb' 0 7 = x5 :=
  ⟨(extract_high (x0 ++ x1 ++ x2 ++ x3 ++ x4) x5 (by decide)).trans ((extract_high (x0 ++ x1 ++ x2 ++ x3) x4 (by decide)).trans ((extract_high (x0 ++ x1 ++ x2) x3 (by decide)).trans ((extract_high (x0 ++ x1) x2 (by decide)).trans ((extract_high (x0) x1 (by decide)).trans (extract_all x0))))),
   (extract_high (x0 ++ x1 ++ x2 ++ x3 ++ x4) x5 (by decide)).trans ((extract_high (x0 ++ x1 ++ x2 ++ x3) x4 (by decide)).trans ((extract_high (x0 ++ x1 ++ x2) x3 (by decide)).trans ((extract_high (x0 ++ x1) x2 (by decide)).trans ((extract_low (x0) x1 (by decide)).trans (extract_all x1))))),
   (extract_high (x0 ++ x1 ++ x2 ++ x3 ++ x4) x5 (by decide)).trans ((extract_high (x0 ++ x1 ++ x2 ++ x3) x4 (by decide)).trans ((extract_high (x0 ++ x1 ++ x2) x3 (by decide)).trans ((extract_low (x0 ++ x1) x2 (by decide)).trans (extract_all x2)))),
   (extract_high (x0 ++ x1 ++ x2 ++ x3 ++ x4) x5 (by decide)).trans ((extract_high (x0 ++ x1 ++ x2 ++ x3) x4 (by decide)).trans ((extract_low (x0 ++ x1 ++ x2) x3 (by decide)).trans (extract_all x3))),
   (extract_high (x0 ++ x1 ++ x2 ++ x3 ++ x4) x5 (by decide)).trans ((extract_low (x0 ++ x1 ++ x2 ++ x3) x4 (by decide)).trans (extract_all x4)),
   (extract_low (x0 ++ x1 ++ x2 ++ x3 ++ x4) x5 (by decide)).trans (extract_all x5)⟩

theorem slices_6_1_2_1_1_7_7_7 (x0 : BitVec 6) (x1 : BitVec 1) (x2 : BitVec 2) (x3 : BitVec 1) (x4 : BitVec 1) (x5 : BitVec 7) (x6 : BitVec 7) (x7 : BitVec 7) :
    let w : BitVec 32 := x0 ++ x1 ++ x2 ++ x3 ++ x4 ++ x5 ++ x6 ++ x7
    w.extractLsb' 26 6 = x0 ∧ w.extractLsb' 25 1 = x1 ∧ w.extractLsb' 23 2 = x2 ∧ w.extractLsb' 22 1 = x3 ∧ w.extractLsb' 21 1 = x4 ∧ w.extractLsb' 14 7 = x5 ∧ w.extractLsb' 7 7 = x6 ∧ w.extractLsb' 0 7 = x7 :=
  ⟨(extract_high (x0 ++ x1 ++ x2 ++ x3 ++ x4 ++ x5 ++ x6) x7 (by decide)).trans ((extract_high (x0 ++ x1 ++ x2 ++ x3 ++ x4 ++ x5) x6 (by decide)).trans ((extract_high (x0 ++ x1 ++ x2 ++ x3 ++ x4) x5 (by decide)).trans ((extract_high (x0 ++ x1 ++ x2 ++ x3) x4 (by decide)).trans ((extract_high (x0 ++ x1 ++ x2) x3 (by decide)).trans ((extract_high (x0 ++ x1) x2 (by decide)).trans ((extract_high (x0) x1 (by decide)).trans (extract_all x0))))))),
   (extract_high (x0 ++ x1 ++ x2 ++ x3 ++ x4 ++ x5 ++ x6) x7 (by decide)).trans ((extract_high (x0 ++ x1 ++ x2 ++ x3 ++ x4 ++ x5) x6 (by decide)).trans ((extract_high (x0 ++ x1 ++ x2 ++ x3 ++ x4) x5 (by decide)).trans ((extract_high (x0 ++ x1 ++ x2 ++ x3) x4 (by decide)).trans ((extract_high (x0 ++ x1 ++ x2) x3 (by decide)).trans ((extract_high (x0 ++ x1) x2 (by decide)).trans ((extract_low (x0) x1 (by decide)).trans (extract_all x1))))))),
   (extract_high (x0 ++ x1 ++ x2 ++ x3 ++ x4 ++ x5 ++ x6) x7 (by decide)).trans ((extract_high (x0 ++ x1 ++ x2 ++ x3 ++ x4 ++ x5) x6 (by decide)).trans ((extract_high (x0 ++ x1 ++ x2 ++ x3 ++ x4) x5 (by decide)).trans ((extract_high (x0 ++ x1 ++ x2 ++ x3) x4 (by decide)).trans ((extract_high (x0 ++ x1 ++ x2) x3 (by decide)).trans ((extract_low (x0 ++ x1) x2 (by decide)).trans (extract_all x2)))))),
   (extract_high (x0 ++ x1 ++ x2 ++ x3 ++ x4 ++ x5 ++ x6) x7 (by decide)).trans ((extract_high (x0 ++ x1 ++ x2 ++ x3 ++ x4 ++ x5) x6 (by decide)).trans ((extract_high (x0 ++ x1 ++ x2 ++ x3 ++ x4) x5 (by decide)).trans ((extract_high (x0 ++ x1 ++ x2 ++ x3) x4 (by decide)).trans ((extract_low (x0 ++ x1 ++ x2) x3 (by decide)).trans (extract_all x3))))),
   (extract_high (x0 ++ x1 ++ x2 ++ x3 ++ x4 ++ x5 ++ x6) x7 (by decide)).trans ((extract_high (x0 ++ x1 ++ x2 ++ x3 ++ x4 ++ x5) x6 (by decide)).trans ((extract_high (x0 ++ x1 ++ x2 ++ x3 ++ x4) x5 (by decide)).trans ((extract_low (x0 ++ x1 ++ x2 ++ x3) x4 (by decide)).trans (extract_all x4)))),
   (extract_high (x0 ++ x1 ++ x2 ++ x3 ++ x4 ++ x5 ++ x6) x7 (by decide)).trans ((extract_high (x0 ++ x1 ++ x2 ++ x3 ++ x4 ++ x5) x6 (by decide)).trans ((extract_low (x0 ++ x1 ++ x2 ++ x3 ++ x4) x5 (by decide)).trans (extract_all x5))),
   (extract_high (x0 ++ x1 ++ x2 ++ x3 ++ x4 ++ x5 ++ x6) x7 (by decide)).trans ((extract_low (x0 ++ x1 ++ x2 ++ x3 ++ x4 ++ x5) x6 (by decide)).trans (extract_all x6)),
   (extract_low (x0 ++ x1 ++ x2 ++ x3 ++ x4 ++ x5 ++ x6) x7 (by decide)).trans (extract_all x7)⟩

theorem slices_18_4_3_7 (x0 : BitVec 18) (x1 : BitVec 4) (x2 : BitVec 3) (x3 : BitVec 7) :
    let w : BitVec 32 := x0 ++ x1 ++ x2 ++ x3
    w.extractLsb' 14 18 = x0 ∧ w.extractLsb' 10 4 = x1 ∧ w.extractLsb' 7 3 = x2 ∧ w.extractLsb' 0 7 = x3 :=
  ⟨(extract_high (x0 ++ x1 ++ x2) x3 (by decide)).trans ((extract_high (x0 ++ x1) x2 (by decide)).trans ((extract_high (x0) x1 (by decide)).trans (extract_all x0))),
   (extract_high (x0 ++ x1 ++ x2) x3 (by decide)).trans ((extract_high (x0 ++ x1) x2 (by decide)).trans ((extract_low (x0) x1 (by decide)).trans (extract_all x1))),
   (extract_high (x0 ++ x1 ++ x2) x3 (by decide)).trans ((extract_low (x0 ++ x1) x2 (by decide)).trans (extract_all x2)),
   (extract_low (x0 ++ x1 ++ x2) x3 (by decide)).trans (extract_all x3)⟩

theorem slices_6_7_6_6_7 (x0 : BitVec 6) (x1 : BitVec 7) (x2 : BitVec 6) (x3 : BitVec 6) (x4 : BitVec 7) :
    let w : BitVec 32 := x0 ++ x1 ++ x2 ++ x3 ++ x4
    w.extractLsb' 26 6 = x0 ∧ w.extractLsb' 19 7 = x1 ∧ w.extractLsb' 13 6 = x2 ∧ w.extractLsb' 7 6 = x3 ∧ w.extractLsb' 0 7 = x4 :=
  ⟨(extract_high (x0 ++ x1 ++ x2 ++ x3) x4 (by decide)).trans ((extract_high (x0 ++ x1 ++ x2) x3 (by decide)).trans ((extract_high (x0 ++ x1) x2 (by decide)).trans ((extract_high (x0) x1 (by decide)).trans (extract_all x0)))),
   (extract_high (x0 ++ x1 ++ x2 ++ x3) x4 (by decide)).trans ((extract_high (x0 ++ x1 ++ x2) x3 (by decide)).trans ((extract_high (x0 ++ x1) x2 (by decide)).trans ((extract_low (x0) x1 (by decide)).trans (extract_all x1)))),
   (extract_high (x0 ++ x1 ++ x2 ++ x3) x4 (by decide)).trans ((extract_high (x0 ++ x1 ++ x2) x3 (by decide)).trans ((extract_low (x0 ++ x1) x2 (by decide)).trans (extract_all x2))),
   (extract_high (x0 ++ x1 ++ x2 ++ x3) x4 (by decide)).trans ((extract_low (x0 ++ x1 ++ x2) x3 (by decide)).trans (extract_all x3)),
   (extract_low (x0 ++ x1 ++ x2 ++ x3) x4 (by decide)).trans (extract_all x4)⟩

theorem slices_7_4_7_14 (x0 : BitVec 7) (x1 : BitVec 4) (x2 : BitVec 7) (x3 : BitVec 14) :
    let w : BitVec 32 := x0 ++ x1 ++ x2 ++ x3
    w.extractLsb' 25 7 = x0 ∧ w.extractLsb' 21 4 = x1 ∧ w.extractLsb' 14 7 = x2 ∧ w.extractLsb' 0 14 = x3 :=
  ⟨(extract_high (x0 ++ x1 ++ x2) x3 (by decide)).trans ((extract_high (x0 ++ x1) x2 (by decide)).trans ((extract_high (x0) x1 (by decide)).trans (extract_all x0))),
   (extract_high (x0 ++ x1 ++ x2) x3 (by decide)).trans ((extract_high (x0 ++ x1) x2 (by decide)).trans ((extract_low (x0) x1 (by decide)).trans (extract_all x1))),
   (extract_high (x0 ++ x1 ++ x2) x3 (by decide)).trans ((extract_low (x0 ++ x1) x2 (by decide)).trans (extract_all x2)),
   (extract_low (x0 ++ x1 ++ x2) x3 (by decide)).trans (extract_all x3)⟩

theorem slices_7_2_1_3_4_4_4_7 (x0 : BitVec 7) (x1 : BitVec 2) (x2 : BitVec 1) (x3 : BitVec 3) (x4 : BitVec 4) (x5 : BitVec 4) (x6 : BitVec 4) (x7 : BitVec 7) :
    let w : BitVec 32 := x0 ++ x1 ++ x2 ++ x3 ++ x4 ++ x5 ++ x6 ++ x7
    w.extractLsb' 25 7 = x0 ∧ w.extractLsb' 23 2 = x1 ∧ w.extractLsb' 22 1 = x2 ∧ w.extractLsb' 19 3 = x3 ∧ w.extractLsb' 15 4 = x4 ∧ w.extractLsb' 11 4 = x5 ∧ w.extractLsb' 7 4 = x6 ∧ w.extractLsb' 0 7 = x7 :=
  ⟨(extract_high (x0 ++ x1 ++ x2 ++ x3 ++ x4 ++ x5 ++ x6) x7 (by decide)).trans ((extract_high (x0 ++ x1 ++ x2 ++ x3 ++ x4 ++ x5) x6 (by decide)).trans ((extract_high (x0 ++ x1 ++ x2 ++ x3 ++ x4) x5 (by decide)).trans ((extract_high (x0 ++ x1 ++ x2 ++ x3) x4 (by decide)).trans ((extract_high (x0 ++ x1 ++ x2) x3 (by decide)).trans ((extract_high (x0 ++ x1) x2 (by decide)).trans ((extract_high (x0) x1 (by decide)).trans (extract_all x0))))))),
   (extract_high (x0 ++ x1 ++ x2 ++ x3 ++ x4 ++ x5 ++ x6) x7 (by decide)).trans ((extract_high (x0 ++ x1 ++ x2 ++ x3 ++ x4 ++ x5) x6 (by decide)).trans ((extract_high (x0 ++ x1 ++ x2 ++ x3 ++ x4) x5 (by decide)).trans ((extract_high (x0 ++ x1 ++ x2 ++ x3) x4 (by decide)).trans ((extract_high (x0 ++ x1 ++ x2) x3 (by decide)).trans ((extract_high (x0 ++ x1) x2 (by decide)).trans ((extract_low (x0) x1 (by decide)).trans (extract_all x1))))))),
   (extract_high (x0 ++ x1 ++ x2 ++ x3 ++ x4 ++ x5 ++ x6) x7 (by decide)).trans ((extract_high (x0 ++ x1 ++ x2 ++ x3 ++ x4 ++ x5) x6 (by decide)).trans ((extract_high (x0 ++ x1 ++ x2 ++ x3 ++ x4) x5 (by decide)).trans ((extract_high (x0 ++ x1 ++ x2 ++ x3) x4 (by decide)).trans ((extract_high (x0 ++ x1 ++ x2) x3 (by decide)).trans ((extract_low (x0 ++ x1) x2 (by decide)).trans (extract_all x2)))))),
   (extract_high (x0 ++ x1 ++ x2 ++ x3 ++ x4 ++ x5 ++ x6) x7 (by decide)).trans ((extract_high (x0 ++ x1 ++ x2 ++ x3 ++ x4 ++ x5) x6 (by decide)).trans ((extract_high (x0 ++ x1 ++ x2 ++ x3 ++ x4) x5 (by decide)).trans ((extract_high (x0 ++ x1 ++ x2 ++ x3) x4 (by decide)).trans ((extract_low (x0 ++ x1 ++ x2) x3 (by decide)).trans (extract_all x3))))),
   (extract_high (x0 ++ x1 ++ x2 ++ x3 ++ x4 ++ x5 ++ x6) x7 (by decide)).trans ((extract_high (x0 ++ x1 ++ x2 ++ x3 ++ x4 ++ x5) x6 (by decide)).trans ((extract_high (x0 ++ x1 ++ x2 ++ x3 ++ x4) x5 (by decide)).trans ((extract_low (x0 ++ x1 ++ x2 ++ x3) x4 (by decide)).trans (extract_all x4)))),
   (extract_high (x0 ++ x1 ++ x2 ++ x3 ++ x4 ++ x5 ++ x6) x7 (by decide)).trans ((extract_high (x0 ++ x1 ++ x2 ++ x3 ++ x4 ++ x5) x6 (by decide)).trans ((extract_low (x0 ++ x1 ++ x2 ++ x3 ++ x4) x5 (by decide)).trans (extract_all x5))),
   (extract_high (x0 ++ x1 ++ x2 ++ x3 ++ x4 ++ x5 ++ x6) x7 (by decide)).trans ((extract_low (x0 ++ x1 ++ x2 ++ x3 ++ x4 ++ x5) x6 (by decide)).trans (extract_all x6)),
   (extract_low (x0 ++ x1 ++ x2 ++ x3 ++ x4 ++ x5 ++ x6) x7 (by decide)).trans (extract_all x7)⟩

theorem slices_7_2_1_3_4_4_1_3_7 (x0 : BitVec 7) (x1 : BitVec 2) (x2 : BitVec 1) (x3 : BitVec 3) (x4 : BitVec 4) (x5 : BitVec 4) (x6 : BitVec 1) (x7 : BitVec 3) (x8 : BitVec 7) :
    let w : BitVec 32 := x0 ++ x1 ++ x2 ++ x3 ++ x4 ++ x5 ++ x6 ++ x7 ++ x8
    w.extractLsb' 25 7 = x0 ∧ w.extractLsb' 23 2 = x1 ∧ w.extractLsb' 22 1 = x2 ∧ w.extractLsb' 19 3 = x3 ∧ w.extractLsb' 15 4 = x4 ∧ w.extractLsb' 11 4 = x5 ∧ w.extractLsb' 10 1 = x6 ∧ w.extractLsb' 7 3 = x7 ∧ w.extractLsb' 0 7 = x8 :=
  ⟨(extract_high (x0 ++ x1 ++ x2 ++ x3 ++ x4 ++ x5 ++ x6 ++ x7) x8 (by decide)).trans ((extract_high (x0 ++ x1 ++ x2 ++ x3 ++ x4 ++ x5 ++ x6) x7 (by decide)).trans ((extract_high (x0 ++ x1 ++ x2 ++ x3 ++ x4 ++ x5) x6 (by decide)).trans ((extract_high (x0 ++ x1 ++ x2 ++ x3 ++ x4) x5 (by decide)).trans ((extract_high (x0 ++ x1 ++ x2 ++ x3) x4 (by decide)).trans ((extract_high (x0 ++ x1 ++ x2) x3 (by decide)).trans ((extract_high (x0 ++ x1) x2 (by decide)).trans ((extract_high (x0) x1 (by decide)).trans (extract_all x0)))))))),
   (extract_high (x0 ++ x1 ++ x2 ++ x3 ++ x4 ++ x5 ++ x6 ++ x7) x8 (by decide)).trans ((extract_high (x0 ++ x1 ++ x2 ++ x3 ++ x4 ++ x5 ++ x6) x7 (by decide)).trans ((extract_high (x0 ++ x1 ++ x2 ++ x3 ++ x4 ++ x5) x6 (by decide)).trans ((extract_high (x0 ++ x1 ++ x2 ++ x3 ++ x4) x5 (by decide)).trans ((extract_high (x0 ++ x1 ++ x2 ++ x3) x4 (by decide)).trans ((extract_high (x0 ++ x1 ++ x2) x3 (by decide)).trans ((extract_high (x0 ++ x1) x2 (by decide)).trans ((extract_low (x0) x1 (by decide)).trans (extract_all x1)))))))),
   (extract_high (x0 ++ x1 ++ x2 ++ x3 ++ x4 ++ x5 ++ x6 ++ x7) x8 (by decide)).trans ((extract_high (x0 ++ x1 ++ x2 ++ x3 ++ x4 ++ x5 ++ x6) x7 (by decide)).trans ((extract_high (x0 ++ x1 ++ x2 ++ x3 ++ x4 ++ x5) x6 (by decide)).trans ((extract_high (x0 ++ x1 ++ x2 ++ x3 ++ x4) x5 (by decide)).trans ((extract_high (x0 ++ x1 ++ x2 ++ x3) x4 (by decide)).trans ((extract_high (x0 ++ x1 ++ x2) x3 (by decide)).trans ((extract_low (x0 ++ x1) x2 (by decide)).trans (extract_all x2))))))),
   (extract_high (x0 ++ x1 ++ x2 ++ x3 ++ x4 ++ x5 ++ x6 ++ x7) x8 (by decide)).trans ((extract_high (x0 ++ x1 ++ x2 ++ x3 ++ x4 ++ x5 ++ x6) x7 (by decide)).trans ((extract_high (x0 ++ x1 ++ x2 ++ x3 ++ x4 ++ x5) x6 (by decide)).trans ((extract_high (x0 ++ x1 ++ x2 ++ x3 ++ x4) x5 (by decide)).trans ((extract_high (x0 ++ x1 ++ x2 ++ x3) x4 (by decide)).trans ((extract_low (x0 ++ x1 ++ x2) x3 (by decide)).trans (extract_all x3)))))),
   (extract_high (x0 ++ x1 ++ x2 ++ x3 ++ x4 ++ x5 ++ x6 ++ x7) x8 (by decide)).trans ((extract_high (x0 ++ x1 ++ x2 ++ x3 ++ x4 ++ x5 ++ x6) x7 (by decide)).trans ((extract_high (x0 ++ x1 ++ x2 ++ x3 ++ x4 ++ x5) x6 (by decide)).trans ((extract_high (x0 ++ x1 ++ x2 ++ x3 ++ x4) x5 (by decide)).trans ((extract_low (x0 ++ x1 ++ x2 ++ x3) x4 (by decide)).trans (extract_all x4))))),
   (extract_high (x0 ++ x1 ++ x2 ++ x3 ++ x4 ++ x5 ++ x6 ++ x7) x8 (by decide)).trans ((extract_high (x0 ++ x1 ++ x2 ++ x3 ++ x4 ++ x5 ++ x6) x7 (by decide)).trans ((extract_high (x0 ++ x1 ++ x2 ++ x3 ++ x4 ++ x5) x6 (by decide)).trans ((extract_low (x0 ++ x1 ++ x2 ++ x3 ++ x4) x5 (by decide)).trans (extract_all x5)))),
   (extract_high (x0 ++ x1 ++ x2 ++ x3 ++ x4 ++ x5 ++ x6 ++ x7) x8 (by decide)).trans ((extract_high (x0 ++ x1 ++ x2 ++ x3 ++ x4 ++ x5 ++ x6) x7 (by decide)).trans ((extract_low (x0 ++ x1 ++ x2 ++ x3 ++ x4 ++ x5) x6 (by decide)).trans (extract_all x6))),
   (extract_high (x0 ++ x1 ++ x2 ++ x3 ++ x4 ++ x5 ++ x6 ++ x7) x8 (by decide)).trans ((extract_low (x0 ++ x1 ++ x2 ++ x3 ++ x4 ++ x5 ++ x6) x7 (by decide)).trans (extract_all x7)),
   (extract_low (x0 ++ x1 ++ x2 ++ x3 ++ x4 ++ x5 ++ x6 ++ x7) x8 (by decide)).trans (extract_all x8)⟩

theorem slices_8_1_1_3_4_4_4_7 (x0 : BitVec 8) (x1 : BitVec 1) (x2 : BitVec 1) (x3 : BitVec 3) (x4 : BitVec 4) (x5 : BitVec 4) (x6 : BitVec 4) (x7 : BitVec 7) :
    let w : BitVec 32 := x0 ++ x1 ++ x2 ++ x3 ++ x4 ++ x5 ++ x6 ++ x7
    w.extractLsb' 24 8 = x0 ∧ w.extractLsb' 23 1 = x1 ∧ w.extractLsb' 22 1 = x2 ∧ w.extractLsb' 19 3 = x3 ∧ w.extractLsb' 15 4 = x4 ∧ w.extractLsb' 11 4 = x5 ∧ w.extractLsb' 7 4 = x6 ∧ w.extractLsb' 0 7 = x7 :=
  ⟨(extract_high (x0 ++ x1 ++ x2 ++ x3 ++ x4 ++ x5 ++ x6) x7 (by decide)).trans ((extract_high (x0 ++ x1 ++ x2 ++ x3 ++ x4 ++ x5) x6 (by decide)).trans ((extract_high (x0 ++ x1 ++ x2 ++ x3 ++ x4) x5 (by decide)).trans ((extract_high (x0 ++ x1 ++ x2 ++ x3) x4 (by decide)).trans ((extract_high (x0 ++ x1 ++ x2) x3 (by decide)).trans ((extract_high (x0 ++ x1) x2 (by decide)).trans ((extract_high (x0) x1 (by decide)).trans (extract_all x0))))))),
   (extract_high (x0 ++ x1 ++ x2 ++ x3 ++ x4 ++ x5 ++ x6) x7 (by decide)).trans ((extract_high (x0 ++ x1 ++ x2 ++ x3 ++ x4 ++ x5) x6 (by decide)).trans ((extract_high (x0 ++ x1 ++ x2 ++ x3 ++ x4) x5 (by decide)).trans ((extract_high (x0 ++ x1 ++ x2 ++ x3) x4 (by decide)).trans ((extract_high (x0 ++ x1 ++ x2) x3 (by decide)).trans ((extract_high (x0 ++ x1) x2 (by decide)).trans ((extract_low (x0) x1 (by decide)).trans (extract_all x1))))))),
   (extract_high (x0 ++ x1 ++ x2 ++ x3 ++ x4 ++ x5 ++ x6) x7 (by decide)).trans ((extract_high (x0 ++ x1 ++ x2 ++ x3 ++ x4 ++ x5) x6 (by decide)).trans ((extract_high (x0 ++ x1 ++ x2 ++ x3 ++ x4) x5 (by decide)).trans ((extract_high (x0 ++ x1 ++ x2 ++ x3) x4 (by decide)).trans ((extract_high (x0 ++ x1 ++ x2) x3 (by decide)).trans ((extract_low (x0 ++ x1) x2 (by decide)).trans (extract_all x2)))))),
   (extract_high (x0 ++ x1 ++ x2 ++ x3 ++ x4 ++ x5 ++ x6) x7 (by decide)).trans ((extract_high (x0 ++ x1 ++ x2 ++ x3 ++ x4 ++ x5) x6 (by decide)).trans ((extract_high (x0 ++ x1 ++ x2 ++ x3 ++ x4) x5 (by decide)).trans ((extract_high (x0 ++ x1 ++ x2 ++ x3) x4 (by decide)).trans ((extract_low (x0 ++ x1 ++ x2) x3 (by decide)).trans (extract_all x3))))),
   (extract_high (x0 ++ x1 ++ x2 ++ x3 ++ x4 ++ x5 ++ x6) x7 (by decide)).trans ((extract_high (x0 ++ x1 ++ x2 ++ x3 ++ x4 ++ x5) x6 (by decide)).trans ((extract_high (x0 ++ x1 ++ x2 ++ x3 ++ x4) x5 (by decide)).trans ((extract_low (x0 ++ x1 ++ x2 ++ x3) x4 (by decide)).trans (extract_all x4)))),
   (extract_high (x0 ++ x1 ++ x2 ++ x3 ++ x4 ++ x5 ++ x6) x7 (by decide)).trans ((extract_high (x0 ++ x1 ++ x2 ++ x3 ++ x4 ++ x5) x6 (by decide)).trans ((extract_low (x0 ++ x1 ++ x2 ++ x3 ++ x4) x5 (by decide)).trans (extract_all x5))),
   (extract_high (x0 ++ x1 ++ x2 ++ x3 ++ x4 ++ x5 ++ x6) x7 (by decide)).trans ((extract_low (x0 ++ x1 ++ x2 ++ x3 ++ x4 ++ x5) x6 (by decide)).trans (extract_all x6)),
   (extract_low (x0 ++ x1 ++ x2 ++ x3 ++ x4 ++ x5 ++ x6) x7 (by decide)).trans (extract_all x7)⟩

theorem slices_9_1_3_4_4_4_7 (x0 : BitVec 9) (x1 : BitVec 1) (x2 : BitVec 3) (x3 : BitVec 4) (x4 : BitVec 4) (x5 : BitVec 4) (x6 : BitVec 7) :
    let w : BitVec 32 := x0 ++ x1 ++ x2 ++ x3 ++ x4 ++ x5 ++ x6
    w.extractLsb' 23 9 = x0 ∧ w.extractLsb' 22 1 = x1 ∧ w.extractLsb' 19 3 = x2 ∧ w.extractLsb' 15 4 = x3 ∧ w.extractLsb' 11 4 = x4 ∧ w.extractLsb' 7 4 = x5 ∧ w.extractLsb' 0 7 = x6 :=
  ⟨(extract_high (x0 ++ x1 ++ x2 ++ x3 ++ x4 ++ x5) x6 (by decide)).trans ((extract_high (x0 ++ x1 ++ x2 ++ x3 ++ x4) x5 (by decide)).trans ((extract_high (x0 ++ x1 ++ x2 ++ x3) x4 (by decide)).trans ((extract_high (x0 ++ x1 ++ x2) x3 (by decide)).trans ((extract_high (x0 ++ x1) x2 (by decide)).trans ((extract_high (x0) x1 (by decide)).trans (extract_all x0)))))),
   (extract_high (x0 ++ x1 ++ x2 ++ x3 ++ x4 ++ x5) x6 (by decide)).trans ((extract_high (x0 ++ x1 ++ x2 ++ x3 ++ x4) x5 (by decide)).trans ((extract_high (x0 ++ x1 ++ x2 ++ x3) x4 (by decide)).trans ((extract_high (x0 ++ x1 ++ x2) x3 (by decide)).trans ((extract_high (x0 ++ x1) x2 (by decide)).trans ((extract_low (x0) x1 (by decide)).trans (extract_all x1)))))),
   (extract_high (x0 ++ x1 ++ x2 ++ x3 ++ x4 ++ x5) x6 (by decide)).trans ((extract_high (x0 ++ x1 ++ x2 ++ x3 ++ x4) x5 (by decide)).trans ((extract_high (x0 ++ x1 ++ x2 ++ x3) x4 (by decide)).trans ((extract_high (x0 ++ x1 ++ x2) x3 (by decide)).trans ((extract_low (x0 ++ x1) x2 (by decide)).trans (extract_all x2))))),
   (extract_high (x0 ++ x1 ++ x2 ++ x3 ++ x4 ++ x5) x6 (by decide)).trans ((extract_high (x0 ++ x1 ++ x2 ++ x3 ++ x4) x5 (by decide)).trans ((extract_high (x0 ++ x1 ++ x2 ++ x3) x4 (by decide)).trans ((extract_low (x0 ++ x1 ++ x2) x3 (by decide)).trans (extract_all x3)))),
   (extract_high (x0 ++ x1 ++ x2 ++ x3 ++ x4 ++ x5) x6 (by decide)).trans ((extract_high (x0 ++ x1 ++ x2 ++ x3 ++ x4) x5 (by decide)).trans ((extract_low (x0 ++ x1 ++ x2 ++ x3) x4 (by decide)).trans (extract_all x4))),
   (extract_high (x0 ++ x1 ++ x2 ++ x3 ++ x4 ++ x5) x6 (by decide)).trans ((extract_low (x0 ++ x1 ++ x2 ++ x3 ++ x4) x5 (by decide)).trans (extract_all x5)),
   (extract_low (x0 ++ x1 ++ x2 ++ x3 ++ x4 ++ x5) x6 (by decide)).trans (extract_all x6)⟩

theorem slices_8_1_4_4_4_4_7 (x0 : BitVec 8) (x1 : BitVec 1) (x2 : BitVec 4) (x3 : BitVec 4) (x4 : BitVec 4) (x5 : BitVec 4) (x6 : BitVec 7) :
    let w : BitVec 32 := x0 ++ x1 ++ x2 ++ x3 ++ x4 ++ x5 ++ x6
    w.extractLsb' 24 8 = x0 ∧ w.extractLsb' 23 1 = x1 ∧ w.extractLsb' 19 4 = x2 ∧ w.extractLsb' 15 4 = x3 ∧ w.extractLsb' 11 4 = x4 ∧ w.extractLsb' 7 4 = x5 ∧ w.extractLsb' 0 7 = x6 :=
  ⟨(extract_high (x0 ++ x1 ++ x2 ++ x3 ++ x4 ++ x5) x6 (by decide)).trans ((extract_high (x0 ++ x1 ++ x2 ++ x3 ++ x4) x5 (by decide)).trans ((extract_high (x0 ++ x1 ++ x2 ++ x3) x4 (by decide)).trans ((extract_high (x0 ++ x1 ++ x2) x3 (by decide)).trans ((extract_high (x0 ++ x1) x2 (by decide)).trans ((extract_high (x0) x1 (by decide)).trans (extract_all x0)))))),
   (extract_high (x0 ++ x1 ++ x2 ++ x3 ++ x4 ++ x5) x6 (by decide)).trans ((extract_high (x0 ++ x1 ++ x2 ++ x3 ++ x4) x5 (by decide)).trans ((extract_high (x0 ++ x1 ++ x2 ++ x3) x4 (by decide)).trans ((extract_high (x0 ++ x1 ++ x2) x3 (by decide)).trans ((extract_high (x0 ++ x1) x2 (by decide)).trans ((extract_low (x0) x1 (by decide)).trans (extract_all x1)))))),
   (extract_high (x0 ++ x1 ++ x2 ++ x3 ++ x4 ++ x5) x6 (by decide)).trans ((extract_high (x0 ++ x1 ++ x2 ++ x3 ++ x4) x5 (by decide)).trans ((extract_high (x0 ++ x1 ++ x2 ++ x3) x4 (by decide)).trans ((extract_high (x0 ++ x1 ++ x2) x3 (by decide)).trans ((extract_low (x0 ++ x1) x2 (by decide)).trans (extract_all x2))))),
   (extract_high (x0 ++ x1 ++ x2 ++ x3 ++ x4 ++ x5) x6 (by decide)).trans ((extract_high (x0 ++ x1 ++ x2 ++ x3 ++ x4) x5 (by decide)).trans ((extract_high (x0 ++ x1 ++ x2 ++ x3) x4 (by decide)).trans ((extract_low (x0 ++ x1 ++ x2) x3 (by decide)).trans (extract_all x3)))),
   (extract_high (x0 ++ x1 ++ x2 ++ x3 ++ x4 ++ x5) x6 (by decide)).trans ((extract_high (x0 ++ x1 ++ x2 ++ x3 ++ x4) x5 (by decide)).trans ((extract_low (x0 ++ x1 ++ x2 ++ x3) x4 (by decide)).trans (extract_all x4))),
   (extract_high (x0 ++ x1 ++ x2 ++ x3 ++ x4 ++ x5) x6 (by decide)).trans ((extract_low (x0 ++ x1 ++ x2 ++ x3 ++ x4) x5 (by decide)).trans (extract_all x5)),
   (extract_low (x0 ++ x1 ++ x2 ++ x3 ++ x4 ++ x5) x6 (by decide)).trans (extract_all x6)⟩

theorem slices_2_3_2_3_4_7_4_7 (x0 : BitVec 2) (x1 : BitVec 3) (x2 : BitVec 2) (x3 : BitVec 3) (x4 : BitVec 4) (x5 : BitVec 7) (x6 : BitVec 4) (x7 : BitVec 7) :
    let w : BitVec 32 := x0 ++ x1 ++ x2 ++ x3 ++ x4 ++ x5 ++ x6 ++ x7
    w.extractLsb' 30 2 = x0 ∧ w.extractLsb' 27 3 = x1 ∧ w.extractLsb' 25 2 = x2 ∧ w.extractLsb' 22 3 = x3 ∧ w.extractLsb' 18 4 = x4 ∧ w.extractLsb' 11 7 = x5 ∧ w.extractLsb' 7 4 = x6 ∧ w.extractLsb' 0 7 = x7 :=
  ⟨(extract_high (x0 ++ x1 ++ x2 ++ x3 ++ x4 ++ x5 ++ x6) x7 (by decide)).trans ((extract_high (x0 ++ x1 ++ x2 ++ x3 ++ x4 ++ x5) x6 (by decide)).trans ((extract_high (x0 ++ x1 ++ x2 ++ x3 ++ x4) x5 (by decide)).trans ((extract_high (x0 ++ x1 ++ x2 ++ x3) x4 (by decide)).trans ((extract_high (x0 ++ x1 ++ x2) x3 (by decide)).trans ((extract_high (x0 ++ x1) x2 (by decide)).trans ((extract_high (x0) x1 (by decide)).trans (extract_all x0))))))),
   (extract_high (x0 ++ x1 ++ x2 ++ x3 ++ x4 ++ x5 ++ x6) x7 (by decide)).trans ((extract_high (x0 ++ x1 ++ x2 ++ x3 ++ x4 ++ x5) x6 (by decide)).trans ((extract_high (x0 ++ x1 ++ x2 ++ x3 ++ x4) x5 (by decide)).trans ((extract_high (x0 ++ x1 ++ x2 ++ x3) x4 (by decide)).trans ((extract_high (x0 ++ x1 ++ x2) x3 (by decide)).trans ((extract_high (x0 ++ x1) x2 (by decide)).trans ((extract_low (x0) x1 (by decide)).trans (extract_all x1))))))),
   (extract_high (x0 ++ x1 ++ x2 ++ x3 ++ x4 ++ x5 ++ x6) x7 (by decide)).trans ((extract_high (x0 ++ x1 ++ x2 ++ x3 ++ x4 ++ x5) x6 (by decide)).trans ((extract_high (x0 ++ x1 ++ x2 ++ x3 ++ x4) x5 (by decide)).trans ((extract_high (x0 ++ x1 ++ x2 ++ x3) x4 (by decide)).trans ((extract_high (x0 ++ x1 ++ x2) x3 (by decide)).trans ((extract_low (x0 ++ x1) x2 (by decide)).trans (extract_all x2)))))),
   (extract_high (x0 ++ x1 ++ x2 ++ x3 ++ x4 ++ x5 ++ x6) x7 (by decide)).trans ((extract_high (x0 ++ x1 ++ x2 ++ x3 ++ x4 ++ x5) x6 (by decide)).trans ((extract_high (x0 ++ x1 ++ x2 ++ x3 ++ x4) x5 (by decide)).trans ((extract_high (x0 ++ x1 ++ x2 ++ x3) x4 (by decide)).trans ((extract_low (x0 ++ x1 ++ x2) x3 (by decide)).trans (extract_all x3))))),
   (extract_high (x0 ++ x1 ++ x2 ++ x3 ++ x4 ++ x5 ++ x6) x7 (by decide)).trans ((extract_high (x0 ++ x1 ++ x2 ++ x3 ++ x4 ++ x5) x6 (by decide)).trans ((extract_high (x0 ++ x1 ++ x2 ++ x3 ++ x4) x5 (by decide)).trans ((extract_low (x0 ++ x1 ++ x2 ++ x3) x4 (by decide)).trans (extract_all x4)))),
   (extract_high (x0 ++ x1 ++ x2 ++ x3 ++ x4 ++ x5 ++ x6) x7 (by decide)).trans ((extract_high (x0 ++ x1 ++ x2 ++ x3 ++ x4 ++ x5) x6 (by decide)).trans ((extract_low (x0 ++ x1 ++ x2 ++ x3 ++ x4) x5 (by decide)).trans (extract_all x5))),
   (extract_high (x0 ++ x1 ++ x2 ++ x3 ++ x4 ++ x5 ++ x6) x7 (by decide)).trans ((extract_low (x0 ++ x1 ++ x2 ++ x3 ++ x4 ++ x5) x6 (by decide)).trans (extract_all x6)),
   (extract_low (x0 ++ x1 ++ x2 ++ x3 ++ x4 ++ x5 ++ x6) x7 (by decide)).trans (extract_all x7)⟩

theorem slices_8_3_4_3_4_3_7 (x0 : BitVec 8) (x1 : BitVec 3) (x2 : BitVec 4) (x3 : BitVec 3) (x4 : BitVec 4) (x5 : BitVec 3) (x6 : BitVec 7) :
    let w : BitVec 32 := x0 ++ x1 ++ x2 ++ x3 ++ x4 ++ x5 ++ x6
    w.extractLsb' 24 8 = x0 ∧ w.extractLsb' 21 3 = x1 ∧ w.extractLsb' 17 4 = x2 ∧ w.extractLsb' 14 3 = x3 ∧ w.extractLsb' 10 4 = x4 ∧ w.extractLsb' 7 3 = x5 ∧ w.extractLsb' 0 7 = x6 :=
  ⟨(extract_high (x0 ++ x1 ++ x2 ++ x3 ++ x4 ++ x5) x6 (by decide)).trans ((extract_high (x0 ++ x1 ++ x2 ++ x3 ++ x4) x5 (by decide)).trans ((extract_high (x0 ++ x1 ++ x2 ++ x3) x4 (by decide)).trans ((extract_high (x0 ++ x1 ++ x2) x3 (by decide)).trans ((extract_high (x0 ++ x1) x2 (by decide)).trans ((extract_high (x0) x1 (by decide)).trans (extract_all x0)))))),
   (extract_high (x0 ++ x1 ++ x2 ++ x3 ++ x4 ++ x5) x6 (by decide)).trans ((extract_high (x0 ++ x1 ++ x2 ++ x3 ++ x4) x5 (by decide)).trans ((extract_high (x0 ++ x1 ++ x2 ++ x3) x4 (by decide)).trans ((extract_high (x0 ++ x1 ++ x2) x3 (by decide)).trans ((extract_high (x0 ++ x1) x2 (by decide)).trans ((extract_low (x0) x1 (by decide)).trans (extract_all x1)))))),
   (extract_high (x0 ++ x1 ++ x2 ++ x3 ++ x4 ++ x5) x6 (by decide)).trans ((extract_high (x0 ++ x1 ++ x2 ++ x3 ++ x4) x5 (by decide)).trans ((extract_high (x0 ++ x1 ++ x2 ++ x3) x4 (by decide)).trans ((extract_high (x0 ++ x1 ++ x2) x3 (by decide)).trans ((extract_low (x0 ++ x1) x2 (by decide)).trans (extract_all x2))))),
   (extract_high (x0 ++ x1 ++ x2 ++ x3 ++ x4 ++ x5) x6 (by decide)).trans ((extract_high (x0 ++ x1 ++ x2 ++ x3 ++ x4) x5 (by decide)).trans ((extract_high (x0 ++ x1 ++ x2 ++ x3) x4 (by decide)).trans ((extract_low (x0 ++ x1 ++ x2) x3 (by decide)).trans (extract_all x3)))),
   (extract_high (x0 ++ x1 ++ x2 ++ x3 ++ x4 ++ x5) x6 (by decide)).trans ((extract_high (x0 ++ x1 ++ x2 ++ x3 ++ x4) x5 (by decide)).trans ((extract_low (x0 ++ x1 ++ x2 ++ x3) x4 (by decide)).trans (extract_all x4))),
   (extract_high (x0 ++ x1 ++ x2 ++ x3 ++ x4 ++ x5) x6 (by decide)).trans ((extract_low (x0 ++ x1 ++ x2 ++ x3 ++ x4) x5 (by decide)).trans (extract_all x5)),
   (extract_low (x0 ++ x1 ++ x2 ++ x3 ++ x4 ++ x5) x6 (by decide)).trans (extract_all x6)⟩

theorem slices_15_3_4_3_7 (x0 : BitVec 15) (x1 : BitVec 3) (x2 : BitVec 4) (x3 : BitVec 3) (x4 : BitVec 7) :
    let w : BitVec 32 := x0 ++ x1 ++ x2 ++ x3 ++ x4
    w.extractLsb' 17 15 = x0 ∧ w.extractLsb' 14 3 = x1 ∧ w.extractLsb' 10 4 = x2 ∧ w.extractLsb' 7 3 = x3 ∧ w.extractLsb' 0 7 = x4 :=
  ⟨(extract_high (x0 ++ x1 ++ x2 ++ x3) x4 (by decide)).trans ((extract_high (x0 ++ x1 ++ x2) x3 (by decide)).trans ((extract_high (x0 ++ x1) x2 (by decide)).trans ((extract_high (x0) x1 (by decide)).trans (extract_all x0)))),
   (extract_high (x0 ++ x1 ++ x2 ++ x3) x4 (by decide)).trans ((extract_high (x0 ++ x1 ++ x2) x3 (by decide)).trans ((extract_high (x0 ++ x1) x2 (by decide)).trans ((extract_low (x0) x1 (by decide)).trans (extract_all x1)))),
   (extract_high (x0 ++ x1 ++ x2 ++ x3) x4 (by decide)).trans ((extract_high (x0 ++ x1 ++ x2) x3 (by decide)).trans ((extract_low (x0 ++ x1) x2 (by decide)).trans (extract_all x2))),
   (extract_high (x0 ++ x1 ++ x2 ++ x3) x4 (by decide)).trans ((extract_low (x0 ++ x1 ++ x2) x3 (by decide)).trans (extract_all x3)),
   (extract_low (x0 ++ x1 ++ x2 ++ x3) x4 (by decide)).trans (extract_all x4)⟩

theorem slices_1_3_7_7_4_3_7 (x0 : BitVec 1) (x1 : BitVec 3) (x2 : BitVec 7) (x3 : BitVec 7) (x4 : BitVec 4) (x5 : BitVec 3) (x6 : BitVec 7) :
    let w : BitVec 32 := x0 ++ x1 ++ x2 ++ x3 ++ x4 ++ x5 ++ x6
    w.extractLsb' 31 1 = x0 ∧ w.extractLsb' 28 3 = x1 ∧ w.extractLsb' 21 7 = x2 ∧ w.extractLsb' 14 7 = x3 ∧ w.extractLsb' 10 4 = x4 ∧ w.extractLsb' 7 3 = x5 ∧ w.extractLsb' 0 7 = x6 :=
  ⟨(extract_high (x0 ++ x1 ++ x2 ++ x3 ++ x4 ++ x5) x6 (by decide)).trans ((extract_high (x0 ++ x1 ++ x2 ++ x3 ++ x4) x5 (by decide)).trans ((extract_high (x0 ++ x1 ++ x2 ++ x3) x4 (by decide)).trans ((extract_high (x0 ++ x1 ++ x2) x3 (by decide)).trans ((extract_high (x0 ++ x1) x2 (by decide)).trans ((extract_high (x0) x1 (by decide)).trans (extract_all x0)))))),
   (extract_high (x0 ++ x1 ++ x2 ++ x3 ++ x4 ++ x5) x6 (by decide)).trans ((extract_high (x0 ++ x1 ++ x2 ++ x3 ++ x4) x5 (by decide)).trans ((extract_high (x0 ++ x1 ++ x2 ++ x3) x4 (by decide)).trans ((extract_high (x0 ++ x1 ++ x2) x3 (by decide)).trans ((extract_high (x0 ++ x1) x2 (by decide)).trans ((extract_low (x0) x1 (by decide)).trans (extract_all x1)))))),
   (extract_high (x0 ++ x1 ++ x2 ++ x3 ++ x4 ++ x5) x6 (by decide)).trans ((extract_high (x0 ++ x1 ++ x2 ++ x3 ++ x4) x5 (by decide)).trans ((extract_high (x0 ++ x1 ++ x2 ++ x3) x4 (by decide)).trans ((extract_high (x0 ++ x1 ++ x2) x3 (by decide)).trans ((extract_low (x0 ++ x1) x2 (by decide)).trans (extract_all x2))))),
   (extract_high (x0 ++ x1 ++ x2 ++ x3 ++ x4 ++ x5) x6 (by decide)).trans ((extract_high (x0 ++ x1 ++ x2 ++ x3 ++ x4) x5 (by decide)).trans ((extract_high (x0 ++ x1 ++ x2 ++ x3) x4 (by decide)).trans ((extract_low (x0 ++ x1 ++ x2) x3 (by decide)).trans (extract_all x3)))),
   (extract_high (x0 ++ x1 ++ x2 ++ x3 ++ x4 ++ x5) x6 (by decide)).trans ((extract_high (x0 ++ x1 ++ x2 ++ x3 ++ x4) x5 (by decide)).trans ((extract_low (x0 ++ x1 ++ x2 ++ x3) x4 (by decide)).trans (extract_all x4))),
   (extract_high (x0 ++ x1 ++ x2 ++ x3 ++ x4 ++ x5) x6 (by decide)).trans ((extract_low (x0 ++ x1 ++ x2 ++ x3 ++ x4) x5 (by decide)).trans (extract_all x5)),
   (extract_low (x0 ++ x1 ++ x2 ++ x3 ++ x4 ++ x5) x6 (by decide)).trans (extract_all x6)⟩

theorem slices_4_7_7_4_10 (x0 : BitVec 4) (x1 : BitVec 7) (x2 : BitVec 7) (x3 : BitVec 4) (x4 : BitVec 10) :
    let w : BitVec 32 := x0 ++ x1 ++ x2 ++ x3 ++ x4
    w.extractLsb' 28 4 = x0 ∧ w.extractLsb' 21 7 = x1 ∧ w.extractLsb' 14 7 = x2 ∧ w.extractLsb' 10 4 = x3 ∧ w.extractLsb' 0 10 = x4 :=
  ⟨(extract_high (x0 ++ x1 ++ x2 ++ x3) x4 (by decide)).trans ((extract_high (x0 ++ x1 ++ x2) x3 (by decide)).trans ((extract_high (x0 ++ x1) x2 (by decide)).trans ((extract_high (x0) x1 (by decide)).trans (extract_all x0)))),
   (extract_high (x0 ++ x1 ++ x2 ++ x3) x4 (by decide)).trans ((extract_high (x0 ++ x1 ++ x2) x3 (by decide)).trans ((extract_high (x0 ++ x1) x2 (by decide)).trans ((extract_low (x0) x1 (by decide)).trans (extract_all x1)))),
   (extract_high (x0 ++ x1 ++ x2 ++ x3) x4 (by decide)).trans ((extract_high (x0 ++ x1 ++ x2) x3 (by decide)).trans ((extract_low (x0 ++ x1) x2 (by decide)).trans (extract_all x2))),
   (extract_high (x0 ++ x1 ++ x2 ++ x3) x4 (by decide)).trans ((extract_low (x0 ++ x1 ++ x2) x3 (by decide)).trans (extract_all x3)),
   (extract_low (x0 ++ x1 ++ x2 ++ x3) x4 (by decide)).trans (extract_all x4)⟩

theorem slices_4_7_4_3_7_7 (x0 : BitVec 4) (x1 : BitVec 7) (x2 : BitVec 4) (x3 : BitVec 3) (x4 : BitVec 7) (x5 : BitVec 7) :
    let w : BitVec 32 := x0 ++ x1 ++ x2 ++ x3 ++ x4 ++ x5
    w.extractLsb' 28 4 = x0 ∧ w.extractLsb' 21 7 = x1 ∧ w.extractLsb' 17 4 = x2 ∧ w.extractLsb' 14 3 = x3 ∧ w.extractLsb' 7 7 = x4 ∧ w.extractLsb' 0 7 = x5 :=
  ⟨(extract_high (x0 ++ x1 ++ x2 ++ x3 ++ x4) x5 (by decide)).trans ((extract_high (x0 ++ x1 ++ x2 ++ x3) x4 (by decide)).trans ((extract_high (x0 ++ x1 ++ x2) x3 (by decide)).trans ((extract_high (x0 ++ x1) x2 (by decide)).trans ((extract_high (x0) x1 (by decide)).trans (extract_all x0))))),
   (extract_high (x0 ++ x1 ++ x2 ++ x3 ++ x4) x5 (by decide)).trans ((extract_high (x0 ++ x1 ++ x2 ++ x3) x4 (by decide)).trans ((extract_high (x0 ++ x1 ++ x2) x3 (by decide)).trans ((extract_high (x0 ++ x1) x2 (by decide)).trans ((extract_low (x0) x1 (by decide)).trans (extract_all x1))))),
   (extract_high (x0 ++ x1 ++ x2 ++ x3 ++ x4) x5 (by decide)).trans ((extract_high (x0 ++ x1 ++ x2 ++ x3) x4 (by decide)).trans ((extract_high (x0 ++ x1 ++ x2) x3 (by decide)).trans ((extract_low (x0 ++ x1) x2 (by decide)).trans (extract_all x2)))),
   (extract_high (x0 ++ x1 ++ x2 ++ x3 ++ x4) x5 (by decide)).trans ((extract_high (x0 ++ x1 ++ x2 ++ x3) x4 (by decide)).trans ((extract_low (x0 ++ x1 ++ x2) x3 (by decide)).trans (extract_all x3))),
   (extract_high (x0 ++ x1 ++ x2 ++ x3 ++ x4) x5 (by decide)).trans ((extract_low (x0 ++ x1 ++ x2 ++ x3) x4 (by decide)).trans (extract_all x4)),
   (extract_low (x0 ++ x1 ++ x2 ++ x3 ++ x4) x5 (by decide)).trans (extract_all x5)⟩

theorem slices_4_7_7_14 (x0 : BitVec 4) (x1 : BitVec 7) (x2 : BitVec 7) (x3 : BitVec 14) :
    let w : BitVec 32 := x0 ++ x1 ++ x2 ++ x3
    w.extractLsb' 28 4 = x0 ∧ w.extractLsb' 21 7 = x1 ∧ w.extractLsb' 14 7 = x2 ∧ w.extractLsb' 0 14 = x3 :=
  ⟨(extract_high (x0 ++ x1 ++ x2) x3 (by decide)).trans ((extract_high (x0 ++ x1) x2 (by decide)).trans ((extract_high (x0) x1 (by decide)).trans (extract_all x0))),
   (extract_high (x0 ++ x1 ++ x2) x3 (by decide)).trans ((extract_high (x0 ++ x1) x2 (by decide)).trans ((extract_low (x0) x1 (by decide)).trans (extract_all x1))),
   (extract_high (x0 ++ x1 ++ x2) x3 (by decide)).trans ((extract_low (x0 ++ x1) x2 (by decide)).trans (extract_all x2)),
   (extract_low (x0 ++ x1 ++ x2) x3 (by decide)).trans (extract_all x3)⟩

theorem slices_5_5_6 (x0 : BitVec 5) (x1 : BitVec 5) (x2 : BitVec 6) :
    let w : BitVec 16 := x0 ++ x1 ++ x2
    w.extractLsb' 11 5 = x0 ∧ w.extractLsb' 6 5 = x1 ∧ w.extractLsb' 0 6 = x2 :=
  ⟨(extract_high (x0 ++ x1) x2 (by decide)).trans ((extract_high (x0) x1 (by decide)).trans (extract_all x0)),
   (extract_high (x0 ++ x1) x2 (by decide)).trans ((extract_low (x0) x1 (by decide)).trans (extract_all x1)),
   (extract_low (x0 ++ x1) x2 (by decide)).trans (extract_all x2)⟩

/-! ### The major opcode selects the decoder of its group -/

theorem word_decMaj00 {w : BitVec 32} (h : w.extractLsb' 0 7 = 1#7) : decodeWord w = decMaj00 w := by unfold decodeWord; rw [h]; rfl
theorem word_decMaj01 {w : BitVec 32} (h : w.extractLsb' 0 7 = 3#7) : decodeWord w = decMaj01 w := by unfold decodeWord; rw [h]; rfl
theorem word_decMaj02 {w : BitVec 32} (h : w.extractLsb' 0 7 = 5#7) : decodeWord w = decMaj02 w := by unfold decodeWord; rw [h]; rfl
theorem word_decMaj03 {w : BitVec 32} (h : w.extractLsb' 0 7 = 7#7) : decodeWord w = decMaj03 w := by unfold decodeWord; rw [h]; rfl
theorem word_decMaj04 {w : BitVec 32} (h : w.extractLsb' 0 7 = 9#7) : decodeWord w = decMaj04 w := by unfold decodeWord; rw [h]; rfl
theorem word_decMaj05 {w : BitVec 32} (h : w.extractLsb' 0 7 = 11#7) : decodeWord w = decMaj05 w := by unfold decodeWord; rw [h]; rfl
theorem word_decMaj06 {w : BitVec 32} (h : w.extractLsb' 0 7 = 13#7) : decodeWord w = decMaj06 w := by unfold decodeWord; rw [h]; rfl
theorem word_decMaj07 {w : BitVec 32} (h : w.extractLsb' 0 7 = 15#7) : decodeWord w = decMaj07 w := by unfold decodeWord; rw [h]; rfl
theorem word_decMaj08 {w : BitVec 32} (h : w.extractLsb' 0 7 = 17#7) : decodeWord w = decMaj08 w := by unfold decodeWord; rw [h]; rfl
theorem word_decMaj09 {w : BitVec 32} (h : w.extractLsb' 0 7 = 19#7) : decodeWord w = decMaj09 w := by unfold decodeWord; rw [h]; rfl
theorem word_decMaj0A {w : BitVec 32} (h : w.extractLsb' 0 7 = 21#7) : decodeWord w = decMaj0A w := by unfold decodeWord; rw [h]; rfl
theorem word_decMaj0B {w : BitVec 32} (h : w.extractLsb' 0 7 = 23#7) : decodeWord w = decMaj0B w := by unfold decodeWord; rw [h]; rfl
theorem word_decMaj0C {w : BitVec 32} (h : w.extractLsb' 0 7 = 25#7) : decodeWord w = decMaj0C w := by unfold decodeWord; rw [h]; rfl
theorem word_decMaj0D {w : BitVec 32} (h : w.extractLsb' 0 7 = 27#7) : decodeWord w = decMaj0D w := by unfold decodeWord; rw [h]; rfl
theorem word_decMaj0E {w : BitVec 32} (h : w.extractLsb' 0 7 = 29#7) : decodeWord w = decMaj0E w := by unfold decodeWord; rw [h]; rfl
theorem word_decMaj0F {w : BitVec 32} (h : w.extractLsb' 0 7 = 31#7) : decodeWord w = decMaj0F w := by unfold decodeWord; rw [h]; rfl
theorem word_decMaj10 {w : BitVec 32} (h : w.extractLsb' 0 7 = 33#7) : decodeWord w = decMaj10 w := by unfold decodeWord; rw [h]; rfl
theorem word_decMaj11 {w : BitVec 32} (h : w.extractLsb' 0 7 = 35#7) : decodeWord w = decMaj11 w := by unfold decodeWord; rw [h]; rfl
theorem word_decMaj12 {w : BitVec 32} (h : w.extractLsb' 0 7 = 37#7) : decodeWord w = decMaj12 w := by unfold decodeWord; rw [h]; rfl
theorem word_decMaj13 {w : BitVec 32} (h : w.extractLsb' 0 7 = 39#7) : decodeWord w = decMaj13 w := by unfold decodeWord; rw [h]; rfl
theorem word_decMaj14 {w : BitVec 32} (h : w.extractLsb' 0 7 = 41#7) : decodeWord w = decMaj14 w := by unfold decodeWord; rw [h]; rfl
theorem word_decMaj15 {w : BitVec 32} (h : w.extractLsb' 0 7 = 43#7) : decodeWord w = decMaj15 w := by unfold decodeWord; rw [h]; rfl
theorem word_decMaj16 {w : BitVec 32} (h : w.extractLsb' 0 7 = 45#7) : decodeWord w = decMaj16 w := by unfold decodeWord; rw [h]; rfl
theorem word_decMaj17 {w : BitVec 32} (h : w.extractLsb' 0 7 = 47#7) : decodeWord w = decMaj17 w := by unfold decodeWord; rw [h]; rfl
theorem word_decMaj18 {w : BitVec 32} (h : w.extractLsb' 0 7 = 49#7) : decodeWord w = decMaj18 w := by unfold decodeWord; rw [h]; rfl
theorem word_decMaj19 {w : BitVec 32} (h : w.extractLsb' 0 7 = 51#7) : decodeWord w = decMaj19 w := by unfold decodeWord; rw [h]; rfl
theorem word_decMaj1A {w : BitVec 32} (h : w.extractLsb' 0 7 = 53#7) : decodeWord w = decMaj1A w := by unfold decodeWord; rw [h]; rfl
theorem word_decMaj1B {w : BitVec 32} (h : w.extractLsb' 0 7 = 55#7) : decodeWord w = decMaj1B w := by unfold decodeWord; rw [h]; rfl
theorem word_decMaj1C {w : BitVec 32} (h : w.extractLsb' 0 7 = 57#7) : decodeWord w = decMaj1C w := by unfold decodeWord; rw [h]; rfl
theorem word_decMaj1D {w : BitVec 32} (h : w.extractLsb' 0 7 = 59#7) : decodeWord w = decMaj1D w := by unfold decodeWord; rw [h]; rfl
theorem word_decMaj1E {w : BitVec 32} (h : w.extractLsb' 0 7 = 61#7) : decodeWord w = decMaj1E w := by unfold decodeWord; rw [h]; rfl
theorem word_decMaj1F {w : BitVec 32} (h : w.extractLsb' 0 7 = 63#7) : decodeWord w = decMaj1F w := by unfold decodeWord; rw [h]; rfl
theorem word_decMaj20 {w : BitVec 32} (h : w.extractLsb' 0 7 = 65#7) : decodeWord w = decMaj20 w := by unfold decodeWord; rw [h]; rfl
theorem word_decMaj21 {w : BitVec 32} (h : w.extractLsb' 0 7 = 67#7) : decodeWord w = decMaj21 w := by unfold decodeWord; rw [h]; rfl
theorem word_decMaj22 {w : BitVec 32} (h : w.extractLsb' 0 7 = 69#7) : decodeWord w = decMaj22 w := by unfold decodeWord; rw [h]; rfl
theorem word_decMaj23 {w : BitVec 32} (h : w.extractLsb' 0 7 = 71#7) : decodeWord w = decMaj23 w := by unfold decodeWord; rw [h]; rfl
theorem word_decMaj24 {w : BitVec 32} (h : w.extractLsb' 0 7 = 73#7) : decodeWord w = decMaj24 w := by unfold decodeWord; rw [h]; rfl
theorem word_decMaj25 {w : BitVec 32} (h : w.extractLsb' 0 7 = 75#7) : decodeWord w = decMaj25 w := by unfold decodeWord; rw [h]; rfl
theorem word_decMaj26 {w : BitVec 32} (h : w.extractLsb' 0 7 = 77#7) : decodeWord w = decMaj26 w := by unfold decodeWord; rw [h]; rfl
theorem word_decMaj27 {w : BitVec 32} (h : w.extractLsb' 0 7 = 79#7) : decodeWord w = decMaj27 w := by unfold decodeWord; rw [h]; rfl
theorem word_decMaj28 {w : BitVec 32} (h : w.extractLsb' 0 7 = 81#7) : decodeWord w = decMaj28 w := by unfold decodeWord; rw [h]; rfl
theorem word_decMaj29 {w : BitVec 32} (h : w.extractLsb' 0 7 = 83#7) : decodeWord w = decMaj29 w := by unfold decodeWord; rw [h]; rfl
theorem word_decMaj2A {w : BitVec 32} (h : w.extractLsb' 0 7 = 85#7) : decodeWord w = decMaj2A w := by unfold decodeWord; rw [h]; rfl
theorem word_decMaj2B {w : BitVec 32} (h : w.extractLsb' 0 7 = 87#7) : decodeWord w = decMaj2B w := by unfold decodeWord; rw [h]; rfl
theorem word_decMaj2C {w : BitVec 32} (h : w.extractLsb' 0 7 = 89#7) : decodeWord w = decMaj2C w := by unfold decodeWord; rw [h]; rfl
theorem word_decMaj30 {w : BitVec 32} (h : w.extractLsb' 0 7 = 97#7) : decodeWord w = decMaj30 w := by unfold decodeWord; rw [h]; rfl
theorem word_decMaj34 {w : BitVec 32} (h : w.extractLsb' 0 7 = 105#7) : decodeWord w = decMaj34 w := by unfold decodeWord; rw [h]; rfl
theorem word_decMaj35 {w : BitVec 32} (h : w.extractLsb' 0 7 = 107#7) : decodeWord w = decMaj35 w := by unfold decodeWord; rw [h]; rfl
theorem word_decMaj38 {w : BitVec 32} (h : w.extractLsb' 0 7 = 113#7) : decodeWord w = decMaj38 w := by unfold decodeWord; rw [h]; rfl
theorem word_decMaj39 {w : BitVec 32} (h : w.extractLsb' 0 7 = 115#7) : decodeWord w = decMaj39 w := by unfold decodeWord; rw [h]; rfl
theorem word_decMaj3A {w : BitVec 32} (h : w.extractLsb' 0 7 = 117#7) : decodeWord w = decMaj3A w := by unfold decodeWord; rw [h]; rfl
theorem word_decMaj3B {w : BitVec 32} (h : w.extractLsb' 0 7 = 119#7) : decodeWord w = decMaj3B w := by unfold decodeWord; rw [h]; rfl
theorem word_decMaj3C {w : BitVec 32} (h : w.extractLsb' 0 7 = 121#7) : decodeWord w = decMaj3C w := by unfold decodeWord; rw [h]; rfl
theorem word_decMaj3D {w : BitVec 32} (h : w.extractLsb' 0 7 = 123#7) : decodeWord w = decMaj3D w := by unfold decodeWord; rw [h]; rfl

/-! ### One lemma per constructor -/

theorem RoundTrip.i3cReadStatus : RoundTrip.Statement (.i3cReadStatus) := fun h => nomatch h
theorem RoundTrip.i3cReadTemperatures : RoundTrip.Statement (.i3cReadTemperatures) := fun h => nomatch h
theorem RoundTrip.i3cReadPackagePower : RoundTrip.Statement (.i3cReadPackagePower) := fun h => nomatch h
theorem RoundTrip.i3cSetPowerLimit (cmd : BitVec 8 × BitVec 16) : RoundTrip.Statement (.i3cSetPowerLimit cmd) := fun h => nomatch h
theorem RoundTrip.i3cReadIdentityKey : RoundTrip.Statement (.i3cReadIdentityKey) := fun h => nomatch h
theorem RoundTrip.i3cResetPackage : RoundTrip.Statement (.i3cResetPackage) := fun h => nomatch h
theorem RoundTrip.i3cResetDie (die : BitVec 2) : RoundTrip.Statement (.i3cResetDie die) := fun h => nomatch h
theorem RoundTrip.assign : RoundTrip.Statement (.assign) := fun h => nomatch h
theorem RoundTrip.ctxnew : RoundTrip.Statement (.ctxnew) := fun h => nomatch h
theorem RoundTrip.ctxend : RoundTrip.Statement (.ctxend) := fun h => nomatch h
theorem RoundTrip.qbind : RoundTrip.Statement (.qbind) := fun h => nomatch h
theorem RoundTrip.peer : RoundTrip.Statement (.peer) := fun h => nomatch h
theorem RoundTrip.keyInstall : RoundTrip.Statement (.keyInstall) := fun h => nomatch h
theorem RoundTrip.keyClear : RoundTrip.Statement (.keyClear) := fun h => nomatch h
theorem RoundTrip.signed : RoundTrip.Statement (.signed) := fun h => nomatch h
theorem RoundTrip.mode : RoundTrip.Statement (.mode) := fun h => nomatch h
theorem RoundTrip.share : RoundTrip.Statement (.share) := fun h => nomatch h
theorem RoundTrip.trace : RoundTrip.Statement (.trace) := fun h => nomatch h
theorem RoundTrip.drain : RoundTrip.Statement (.drain) := fun h => nomatch h
theorem RoundTrip.attest : RoundTrip.Statement (.attest) := fun h => nomatch h
theorem RoundTrip.thread : RoundTrip.Statement (.thread) := fun h => nomatch h
theorem RoundTrip.move : RoundTrip.Statement (.move) := fun h => nomatch h
theorem RoundTrip.postmap : RoundTrip.Statement (.postmap) := fun h => nomatch h
theorem RoundTrip.retrain : RoundTrip.Statement (.retrain) := fun h => nomatch h
theorem RoundTrip.resetDie : RoundTrip.Statement (.resetDie) := fun h => nomatch h
theorem RoundTrip.resetPackage : RoundTrip.Statement (.resetPackage) := fun h => nomatch h
theorem RoundTrip.power : RoundTrip.Statement (.power) := fun h => nomatch h
theorem RoundTrip.debugHalt : RoundTrip.Statement (.debugHalt) := fun h => nomatch h
theorem RoundTrip.debugResume : RoundTrip.Statement (.debugResume) := fun h => nomatch h
theorem RoundTrip.debugStep : RoundTrip.Statement (.debugStep) := fun h => nomatch h
theorem RoundTrip.debugSetBreakpoint : RoundTrip.Statement (.debugSetBreakpoint) := fun h => nomatch h
theorem RoundTrip.debugClearBreakpoint : RoundTrip.Statement (.debugClearBreakpoint) := fun h => nomatch h
theorem RoundTrip.debugCopyState : RoundTrip.Statement (.debugCopyState) := fun h => nomatch h
theorem RoundTrip.registerWrite (fn bar off bytes : Nat) (v : BitVec 64) : RoundTrip.Statement (.registerWrite fn bar off bytes v) := fun h => nomatch h
theorem RoundTrip.ringidxWrite (fn q : Nat) (v : BitVec 64) : RoundTrip.Statement (.ringidxWrite fn q v) := fun h => nomatch h
theorem RoundTrip.queueEnable (fn q : Nat) : RoundTrip.Statement (.queueEnable fn q) := fun h => nomatch h
theorem RoundTrip.queueDisable (fn q : Nat) : RoundTrip.Statement (.queueDisable fn q) := fun h => nomatch h
theorem RoundTrip.queueReset (fn q : Nat) : RoundTrip.Statement (.queueReset fn q) := fun h => nomatch h
theorem RoundTrip.scringConfig (fn : Nat) (isLog : Bool) (v : BitVec 64) : RoundTrip.Statement (.scringConfig fn isLog v) := fun h => nomatch h
theorem RoundTrip.scheadWrite (fn : Nat) (v : BitVec 64) : RoundTrip.Statement (.scheadWrite fn v) := fun h => nomatch h
theorem RoundTrip.syscallReply (fn : Nat) (v : BitVec 64) : RoundTrip.Statement (.syscallReply fn v) := fun h => nomatch h
theorem RoundTrip.hostWindowAccess (fn off : Nat) (wr : Bool) (bytes : Nat) (v : BitVec 64) : RoundTrip.Statement (.hostWindowAccess fn off wr bytes v) := fun h => nomatch h
theorem RoundTrip.admitEntry (fn : Nat) (q : Nat × Bool) : RoundTrip.Statement (.admitEntry fn q) := fun h => nomatch h
theorem RoundTrip.stampRetry (fn : Nat) (q : Nat × Bool) : RoundTrip.Statement (.stampRetry fn q) := fun h => nomatch h
theorem RoundTrip.entryStart (fn q seq : Nat) : RoundTrip.Statement (.entryStart fn q seq) := fun h => nomatch h
theorem RoundTrip.imageLoad (fn q seq : Nat) : RoundTrip.Statement (.imageLoad fn q seq) := fun h => nomatch h
theorem RoundTrip.entryComplete (fn q seq : Nat) : RoundTrip.Statement (.entryComplete fn q seq) := fun h => nomatch h
theorem RoundTrip.boot : RoundTrip.Statement (.boot) := fun h => nomatch h
theorem RoundTrip.supplyFault (volts : Nat) : RoundTrip.Statement (.supplyFault volts) := fun h => nomatch h
theorem RoundTrip.thermalThrottle (cl temp : Nat) : RoundTrip.Statement (.thermalThrottle cl temp) := fun h => nomatch h
theorem RoundTrip.thermalShutdown (cl temp : Nat) : RoundTrip.Statement (.thermalShutdown cl temp) := fun h => nomatch h
theorem RoundTrip.powerLimitUnmet (watts : Nat) : RoundTrip.Statement (.powerLimitUnmet watts) := fun h => nomatch h
theorem RoundTrip.powerLimitMet (watts : Nat) : RoundTrip.Statement (.powerLimitMet watts) := fun h => nomatch h
theorem RoundTrip.clockStep (cl : Nat) (up : Bool) : RoundTrip.Statement (.clockStep cl up) := fun h => nomatch h
theorem RoundTrip.dieResetComplete (die : BitVec 2) : RoundTrip.Statement (.dieResetComplete die) := fun h => nomatch h
theorem RoundTrip.packageResetComplete : RoundTrip.Statement (.packageResetComplete) := fun h => nomatch h
theorem RoundTrip.slackTick : RoundTrip.Statement (.slackTick) := fun h => nomatch h
theorem RoundTrip.packetLate (queue idx : Nat) : RoundTrip.Statement (.packetLate queue idx) := fun h => nomatch h
theorem RoundTrip.routerForward (router out net : Nat) : RoundTrip.Statement (.routerForward router out net) := fun h => nomatch h
theorem RoundTrip.routerIdle (router : Nat) : RoundTrip.Statement (.routerIdle router) := fun h => nomatch h
theorem RoundTrip.routerPowerdownDone (router : Nat) : RoundTrip.Statement (.routerPowerdownDone router) := fun h => nomatch h
theorem RoundTrip.tokenAtWriter (chan w : Nat) : RoundTrip.Statement (.tokenAtWriter chan w) := fun h => nomatch h
theorem RoundTrip.tokenAtHome (chan : Nat) : RoundTrip.Statement (.tokenAtHome chan) := fun h => nomatch h
theorem RoundTrip.bridgeForward (die port chan : Nat) : RoundTrip.Statement (.bridgeForward die port chan) := fun h => nomatch h
theorem RoundTrip.directPathForward (die inn port : Nat) : RoundTrip.Statement (.directPathForward die inn port) := fun h => nomatch h
theorem RoundTrip.homeEnqueue (unit net : Nat) : RoundTrip.Statement (.homeEnqueue unit net) := fun h => nomatch h
theorem RoundTrip.homePerform (unit : Nat) : RoundTrip.Statement (.homePerform unit) := fun h => nomatch h
theorem RoundTrip.replayTimeout (unit : Nat) : RoundTrip.Statement (.replayTimeout unit) := fun h => nomatch h
theorem RoundTrip.replyDeliver (unit : Nat) : RoundTrip.Statement (.replyDeliver unit) := fun h => nomatch h
theorem RoundTrip.lateTrap (core slot : Nat) : RoundTrip.Statement (.lateTrap core slot) := fun h => nomatch h
theorem RoundTrip.iterativeUnitDone (core : Nat) : RoundTrip.Statement (.iterativeUnitDone core) := fun h => nomatch h
theorem RoundTrip.vectorDeferredResult (core slot : Nat) : RoundTrip.Statement (.vectorDeferredResult core slot) := fun h => nomatch h
theorem RoundTrip.fabricTransmit (port : Nat) : RoundTrip.Statement (.fabricTransmit port) := fun h => nomatch h
theorem RoundTrip.codewordReceive (port : Nat) (sent : List (BitVec 256)) (got : List (BitVec 256) × BitVec 20) (errors : Nat) : RoundTrip.Statement (.codewordReceive port sent got errors) := fun h => nomatch h
theorem RoundTrip.flitReceive (port : Nat) (flit : BitVec 256) : RoundTrip.Statement (.flitReceive port flit) := fun h => nomatch h
theorem RoundTrip.ackReceive (port : Nat) (flit : BitVec 256) : RoundTrip.Statement (.ackReceive port flit) := fun h => nomatch h
theorem RoundTrip.nakReceive (port : Nat) (flit : BitVec 256) : RoundTrip.Statement (.nakReceive port flit) := fun h => nomatch h
theorem RoundTrip.trainingFlitReceive (port : Nat) (flit : BitVec 256) : RoundTrip.Statement (.trainingFlitReceive port flit) := fun h => nomatch h
theorem RoundTrip.lockHoldExpiry (port : Nat) (locked : BitVec 4) : RoundTrip.Statement (.lockHoldExpiry port locked) := fun h => nomatch h
theorem RoundTrip.markersAligned (mark : Nat × BitVec 20) : RoundTrip.Statement (.markersAligned mark) := fun h => nomatch h
theorem RoundTrip.fecCodewordCount (port : Nat) : RoundTrip.Statement (.fecCodewordCount port) := fun h => nomatch h
theorem RoundTrip.trainingTimeout (port : Nat) : RoundTrip.Statement (.trainingTimeout port) := fun h => nomatch h
theorem RoundTrip.fecLockLoss (port : Nat) : RoundTrip.Statement (.fecLockLoss port) := fun h => nomatch h
theorem RoundTrip.nakRateExceeded (port : Nat) : RoundTrip.Statement (.nakRateExceeded port) := fun h => nomatch h
theorem RoundTrip.fibreLockLoss (port fibre : Nat) : RoundTrip.Statement (.fibreLockLoss port fibre) := fun h => nomatch h
theorem RoundTrip.slotTake (core slot : Nat) : RoundTrip.Statement (.slotTake core slot) := fun h => nomatch h
theorem RoundTrip.stealSearch (core : Nat) : RoundTrip.Statement (.stealSearch core) := fun h => nomatch h
theorem RoundTrip.stealRequest (core : Nat) : RoundTrip.Statement (.stealRequest core) := fun h => nomatch h
theorem RoundTrip.stealReply (core : Nat) : RoundTrip.Statement (.stealReply core) := fun h => nomatch h
theorem RoundTrip.enqueueContinuation (cl : Nat) : RoundTrip.Statement (.enqueueContinuation cl) := fun h => nomatch h
theorem RoundTrip.injectionAge (cl idx : Nat) : RoundTrip.Statement (.injectionAge cl idx) := fun h => nomatch h
theorem RoundTrip.urgentArrival (post : Nat × List (BitVec 64)) : RoundTrip.Statement (.urgentArrival post) := fun h => nomatch h
theorem RoundTrip.evictWrite (core slot : Nat) : RoundTrip.Statement (.evictWrite core slot) := fun h => nomatch h
theorem RoundTrip.npostWrite (cl : Nat) : RoundTrip.Statement (.npostWrite cl) := fun h => nomatch h
theorem RoundTrip.noticeDeliver (cl : Nat) : RoundTrip.Statement (.noticeDeliver cl) := fun h => nomatch h
theorem RoundTrip.translationRequest (cl : Nat) : RoundTrip.Statement (.translationRequest cl) := fun h => nomatch h
theorem RoundTrip.translationReply (core : Nat) : RoundTrip.Statement (.translationReply core) := fun h => nomatch h
theorem RoundTrip.tlbShootdown (core : Nat) : RoundTrip.Statement (.tlbShootdown core) := fun h => nomatch h
theorem RoundTrip.clbShootdown (core : Nat) : RoundTrip.Statement (.clbShootdown core) := fun h => nomatch h
theorem RoundTrip.syncAccessAtOwner (unit : Nat) : RoundTrip.Statement (.syncAccessAtOwner unit) := fun h => nomatch h
theorem RoundTrip.syncDeadline (unit idx : Nat) : RoundTrip.Statement (.syncDeadline unit idx) := fun h => nomatch h
theorem RoundTrip.withdrawal (unit : Nat) : RoundTrip.Statement (.withdrawal unit) := fun h => nomatch h
theorem RoundTrip.barArrival (unit : Nat) : RoundTrip.Statement (.barArrival unit) := fun h => nomatch h
theorem RoundTrip.barDeadline (unit idx : Nat) : RoundTrip.Statement (.barDeadline unit idx) := fun h => nomatch h
theorem RoundTrip.parkAtHome (unit : Nat) : RoundTrip.Statement (.parkAtHome unit) := fun h => nomatch h
theorem RoundTrip.parkDeadline (unit idx : Nat) : RoundTrip.Statement (.parkDeadline unit idx) := fun h => nomatch h
theorem RoundTrip.lnextClaim (unit : Nat) : RoundTrip.Statement (.lnextClaim unit) := fun h => nomatch h
theorem RoundTrip.joinUpdate (unit : Nat) : RoundTrip.Statement (.joinUpdate unit) := fun h => nomatch h
theorem RoundTrip.resumeCellOp (unit : Nat) : RoundTrip.Statement (.resumeCellOp unit) := fun h => nomatch h
theorem RoundTrip.messageArrival (core : Nat) : RoundTrip.Statement (.messageArrival core) := fun h => nomatch h
theorem RoundTrip.queueElementArrival (core : Nat) : RoundTrip.Statement (.queueElementArrival core) := fun h => nomatch h
theorem RoundTrip.linkElementTransfer (core link : Nat) : RoundTrip.Statement (.linkElementTransfer core link) := fun h => nomatch h
theorem RoundTrip.portReadTimeout (core slot : Nat) : RoundTrip.Statement (.portReadTimeout core slot) := fun h => nomatch h
theorem RoundTrip.forwardPacket (core : Nat) : RoundTrip.Statement (.forwardPacket core) := fun h => nomatch h
theorem RoundTrip.forwardExpiry (core idx : Nat) : RoundTrip.Statement (.forwardExpiry core idx) := fun h => nomatch h
theorem RoundTrip.migrationArrival (core : Nat) : RoundTrip.Statement (.migrationArrival core) := fun h => nomatch h
theorem RoundTrip.beadRequest (unit : Nat) : RoundTrip.Statement (.beadRequest unit) := fun h => nomatch h
theorem RoundTrip.sparkClaim (unit : Nat) : RoundTrip.Statement (.sparkClaim unit) := fun h => nomatch h
theorem RoundTrip.beadCompletion (unit : Nat) : RoundTrip.Statement (.beadCompletion unit) := fun h => nomatch h
theorem RoundTrip.beadCompletionPoisoned (unit : Nat) : RoundTrip.Statement (.beadCompletionPoisoned unit) := fun h => nomatch h
theorem RoundTrip.beadEngineFault (unit : Nat) : RoundTrip.Statement (.beadEngineFault unit) := fun h => nomatch h
theorem RoundTrip.operandFailure (unit : Nat) : RoundTrip.Statement (.operandFailure unit) := fun h => nomatch h
theorem RoundTrip.deathNotice (unit : Nat) : RoundTrip.Statement (.deathNotice unit) := fun h => nomatch h
theorem RoundTrip.waiterDeadline (cl idx : Nat) : RoundTrip.Statement (.waiterDeadline cl idx) := fun h => nomatch h
theorem RoundTrip.wakeDeliver (core : Nat) : RoundTrip.Statement (.wakeDeliver core) := fun h => nomatch h
theorem RoundTrip.wfcEdge (cl : Nat) : RoundTrip.Statement (.wfcEdge cl) := fun h => nomatch h
theorem RoundTrip.wfcQuery (cl : Nat) : RoundTrip.Statement (.wfcQuery cl) := fun h => nomatch h
theorem RoundTrip.wfcQueryReply (cl : Nat) : RoundTrip.Statement (.wfcQueryReply cl) := fun h => nomatch h
theorem RoundTrip.tileEvaluate (cl : Nat) : RoundTrip.Statement (.tileEvaluate cl) := fun h => nomatch h
theorem RoundTrip.operandReply (cl : Nat) : RoundTrip.Statement (.operandReply cl) := fun h => nomatch h
theorem RoundTrip.stagingComplete (cl : Nat) (block : Nat × Nat) : RoundTrip.Statement (.stagingComplete cl block) := fun h => nomatch h
theorem RoundTrip.tileDispatch (cl : Nat) : RoundTrip.Statement (.tileDispatch cl) := fun h => nomatch h
theorem RoundTrip.taskComplete (cl engine : Nat) : RoundTrip.Statement (.taskComplete cl engine) := fun h => nomatch h
theorem RoundTrip.taskEngineFault (cl engine : Nat) (cause : BitVec 8) : RoundTrip.Statement (.taskEngineFault cl engine cause) := fun h => nomatch h
theorem RoundTrip.sparkTake (cl : Nat) : RoundTrip.Statement (.sparkTake cl) := fun h => nomatch h
theorem RoundTrip.coordAtAgent (cl : Nat) : RoundTrip.Statement (.coordAtAgent cl) := fun h => nomatch h
theorem RoundTrip.cinvReload (cl : Nat) : RoundTrip.Statement (.cinvReload cl) := fun h => nomatch h
theorem RoundTrip.engineTicketComplete (core idx : Nat) : RoundTrip.Statement (.engineTicketComplete core idx) := fun h => nomatch h
theorem RoundTrip.routePerform (die : Nat) : RoundTrip.Statement (.routePerform die) := fun h => nomatch h
theorem RoundTrip.pselPerform (die : Nat) : RoundTrip.Statement (.pselPerform die) := fun h => nomatch h
theorem RoundTrip.rqOperation (cl : Nat) : RoundTrip.Statement (.rqOperation cl) := fun h => nomatch h
theorem RoundTrip.rqCommitDone (cl entry : Nat) : RoundTrip.Statement (.rqCommitDone cl entry) := fun h => nomatch h
theorem RoundTrip.rqgetTimeout (cl idx : Nat) : RoundTrip.Statement (.rqgetTimeout cl idx) := fun h => nomatch h
theorem RoundTrip.carryArrival (cl : Nat) : RoundTrip.Statement (.carryArrival cl) := fun h => nomatch h
theorem RoundTrip.carryDepositDone (cl : Nat) : RoundTrip.Statement (.carryDepositDone cl) := fun h => nomatch h
theorem RoundTrip.carryCountReply (cl : Nat) : RoundTrip.Statement (.carryCountReply cl) := fun h => nomatch h
theorem RoundTrip.carryReturn (core : Nat) : RoundTrip.Statement (.carryReturn core) := fun h => nomatch h
theorem RoundTrip.coreParityError (core : Nat) : RoundTrip.Statement (.coreParityError core) := fun h => nomatch h
theorem RoundTrip.add (d a b : BitVec 7) : RoundTrip.Statement (.add d a b) := by
  obtain ⟨h28, h21, h14, h7, h0⟩ := slices_4_7_7_7_7 0#4 b a d 1#7
  exact roundTrip_full rfl (full_bit h0) ((word_decMaj00 h0).trans (by unfold decMaj00; rw [h28, h7, h14, h21]; rfl))
theorem RoundTrip.sub (d a b : BitVec 7) : RoundTrip.Statement (.sub d a b) := by
  obtain ⟨h28, h21, h14, h7, h0⟩ := slices_4_7_7_7_7 1#4 b a d 1#7
  exact roundTrip_full rfl (full_bit h0) ((word_decMaj00 h0).trans (by unfold decMaj00; rw [h28, h7, h14, h21]; rfl))
theorem RoundTrip.and (d a b : BitVec 7) : RoundTrip.Statement (.and d a b) := by
  obtain ⟨h28, h21, h14, h7, h0⟩ := slices_4_7_7_7_7 2#4 b a d 1#7
  exact roundTrip_full rfl (full_bit h0) ((word_decMaj00 h0).trans (by unfold decMaj00; rw [h28, h7, h14, h21]; rfl))
theorem RoundTrip.or (d a b : BitVec 7) : RoundTrip.Statement (.or d a b) := by
  obtain ⟨h28, h21, h14, h7, h0⟩ := slices_4_7_7_7_7 3#4 b a d 1#7
  exact roundTrip_full rfl (full_bit h0) ((word_decMaj00 h0).trans (by unfold decMaj00; rw [h28, h7, h14, h21]; rfl))
theorem RoundTrip.xor (d a b : BitVec 7) : RoundTrip.Statement (.xor d a b) := by
  obtain ⟨h28, h21, h14, h7, h0⟩ := slices_4_7_7_7_7 4#4 b a d 1#7
  exact roundTrip_full rfl (full_bit h0) ((word_decMaj00 h0).trans (by unfold decMaj00; rw [h28, h7, h14, h21]; rfl))
theorem RoundTrip.andn (d a b : BitVec 7) : RoundTrip.Statement (.andn d a b) := by
  obtain ⟨h28, h21, h14, h7, h0⟩ := slices_4_7_7_7_7 5#4 b a d 1#7
  exact roundTrip_full rfl (full_bit h0) ((word_decMaj00 h0).trans (by unfold decMaj00; rw [h28, h7, h14, h21]; rfl))
theorem RoundTrip.orn (d a b : BitVec 7) : RoundTrip.Statement (.orn d a b) := by
  obtain ⟨h28, h21, h14, h7, h0⟩ := slices_4_7_7_7_7 6#4 b a d 1#7
  exact roundTrip_full rfl (full_bit h0) ((word_decMaj00 h0).trans (by unfold decMaj00; rw [h28, h7, h14, h21]; rfl))
theorem RoundTrip.xnor (d a b : BitVec 7) : RoundTrip.Statement (.xnor d a b) := by
  obtain ⟨h28, h21, h14, h7, h0⟩ := slices_4_7_7_7_7 7#4 b a d 1#7
  exact roundTrip_full rfl (full_bit h0) ((word_decMaj00 h0).trans (by unfold decMaj00; rw [h28, h7, h14, h21]; rfl))
theorem RoundTrip.sll (d a b : BitVec 7) : RoundTrip.Statement (.sll d a b) := by
  obtain ⟨h28, h21, h14, h7, h0⟩ := slices_4_7_7_7_7 8#4 b a d 1#7
  exact roundTrip_full rfl (full_bit h0) ((word_decMaj00 h0).trans (by unfold decMaj00; rw [h28, h7, h14, h21]; rfl))
theorem RoundTrip.srl (d a b : BitVec 7) : RoundTrip.Statement (.srl d a b) := by
  obtain ⟨h28, h21, h14, h7, h0⟩ := slices_4_7_7_7_7 9#4 b a d 1#7
  exact roundTrip_full rfl (full_bit h0) ((word_decMaj00 h0).trans (by unfold decMaj00; rw [h28, h7, h14, h21]; rfl))
theorem RoundTrip.sra (d a b : BitVec 7) : RoundTrip.Statement (.sra d a b) := by
  obtain ⟨h28, h21, h14, h7, h0⟩ := slices_4_7_7_7_7 10#4 b a d 1#7
  exact roundTrip_full rfl (full_bit h0) ((word_decMaj00 h0).trans (by unfold decMaj00; rw [h28, h7, h14, h21]; rfl))
theorem RoundTrip.rol (d a b : BitVec 7) : RoundTrip.Statement (.rol d a b) := by
  obtain ⟨h28, h21, h14, h7, h0⟩ := slices_4_7_7_7_7 11#4 b a d 1#7
  exact roundTrip_full rfl (full_bit h0) ((word_decMaj00 h0).trans (by unfold decMaj00; rw [h28, h7, h14, h21]; rfl))
theorem RoundTrip.ror (d a b : BitVec 7) : RoundTrip.Statement (.ror d a b) := by
  obtain ⟨h28, h21, h14, h7, h0⟩ := slices_4_7_7_7_7 12#4 b a d 1#7
  exact roundTrip_full rfl (full_bit h0) ((word_decMaj00 h0).trans (by unfold decMaj00; rw [h28, h7, h14, h21]; rfl))
theorem RoundTrip.min (d a b : BitVec 7) : RoundTrip.Statement (.min d a b) := by
  obtain ⟨h28, h21, h14, h7, h0⟩ := slices_4_7_7_7_7 13#4 b a d 1#7
  exact roundTrip_full rfl (full_bit h0) ((word_decMaj00 h0).trans (by unfold decMaj00; rw [h28, h7, h14, h21]; rfl))
theorem RoundTrip.max (d a b : BitVec 7) : RoundTrip.Statement (.max d a b) := by
  obtain ⟨h28, h21, h14, h7, h0⟩ := slices_4_7_7_7_7 14#4 b a d 1#7
  exact roundTrip_full rfl (full_bit h0) ((word_decMaj00 h0).trans (by unfold decMaj00; rw [h28, h7, h14, h21]; rfl))
theorem RoundTrip.minn (d a b : BitVec 7) : RoundTrip.Statement (.minn d a b) := by
  obtain ⟨h28, h21, h14, h7, h0⟩ := slices_4_7_7_7_7 15#4 b a d 1#7
  exact roundTrip_full rfl (full_bit h0) ((word_decMaj00 h0).trans (by unfold decMaj00; rw [h28, h7, h14, h21]; rfl))
theorem RoundTrip.maxn (d a b : BitVec 7) : RoundTrip.Statement (.maxn d a b) := by
  obtain ⟨h28, h21, h14, h7, h0⟩ := slices_4_7_7_7_7 0#4 b a d 3#7
  exact roundTrip_full rfl (full_bit h0) ((word_decMaj01 h0).trans (by unfold decMaj01; rw [h28, h7, h14, h21]; rfl))
theorem RoundTrip.mul (d a b : BitVec 7) : RoundTrip.Statement (.mul d a b) := by
  obtain ⟨h28, h21, h14, h7, h0⟩ := slices_4_7_7_7_7 1#4 b a d 3#7
  exact roundTrip_full rfl (full_bit h0) ((word_decMaj01 h0).trans (by unfold decMaj01; rw [h28, h7, h14, h21]; rfl))
theorem RoundTrip.mulh (d a b : BitVec 7) : RoundTrip.Statement (.mulh d a b) := by
  obtain ⟨h28, h21, h14, h7, h0⟩ := slices_4_7_7_7_7 2#4 b a d 3#7
  exact roundTrip_full rfl (full_bit h0) ((word_decMaj01 h0).trans (by unfold decMaj01; rw [h28, h7, h14, h21]; rfl))
theorem RoundTrip.mulhn (d a b : BitVec 7) : RoundTrip.Statement (.mulhn d a b) := by
  obtain ⟨h28, h21, h14, h7, h0⟩ := slices_4_7_7_7_7 3#4 b a d 3#7
  exact roundTrip_full rfl (full_bit h0) ((word_decMaj01 h0).trans (by unfold decMaj01; rw [h28, h7, h14, h21]; rfl))
theorem RoundTrip.mulhsn (d a b : BitVec 7) : RoundTrip.Statement (.mulhsn d a b) := by
  obtain ⟨h28, h21, h14, h7, h0⟩ := slices_4_7_7_7_7 4#4 b a d 3#7
  exact roundTrip_full rfl (full_bit h0) ((word_decMaj01 h0).trans (by unfold decMaj01; rw [h28, h7, h14, h21]; rfl))
theorem RoundTrip.div (d a b : BitVec 7) : RoundTrip.Statement (.div d a b) := by
  obtain ⟨h28, h21, h14, h7, h0⟩ := slices_4_7_7_7_7 5#4 b a d 3#7
  exact roundTrip_full rfl (full_bit h0) ((word_decMaj01 h0).trans (by unfold decMaj01; rw [h28, h7, h14, h21]; rfl))
theorem RoundTrip.divn (d a b : BitVec 7) : RoundTrip.Statement (.divn d a b) := by
  obtain ⟨h28, h21, h14, h7, h0⟩ := slices_4_7_7_7_7 6#4 b a d 3#7
  exact roundTrip_full rfl (full_bit h0) ((word_decMaj01 h0).trans (by unfold decMaj01; rw [h28, h7, h14, h21]; rfl))
theorem RoundTrip.rem (d a b : BitVec 7) : RoundTrip.Statement (.rem d a b) := by
  obtain ⟨h28, h21, h14, h7, h0⟩ := slices_4_7_7_7_7 7#4 b a d 3#7
  exact roundTrip_full rfl (full_bit h0) ((word_decMaj01 h0).trans (by unfold decMaj01; rw [h28, h7, h14, h21]; rfl))
theorem RoundTrip.remn (d a b : BitVec 7) : RoundTrip.Statement (.remn d a b) := by
  obtain ⟨h28, h21, h14, h7, h0⟩ := slices_4_7_7_7_7 8#4 b a d 3#7
  exact roundTrip_full rfl (full_bit h0) ((word_decMaj01 h0).trans (by unfold decMaj01; rw [h28, h7, h14, h21]; rfl))
theorem RoundTrip.clz (d a : BitVec 7) : RoundTrip.Statement (.clz d a) := by
  obtain ⟨h21, h14, h7, h0⟩ := slices_11_7_7_7 1152#11 a d 3#7
  have e28 : (1152#11 ++ a ++ d ++ 3#7 : BitVec 32).extractLsb' 28 4 = 9#4 := extract_sub h21 7 4
  have e21 : (1152#11 ++ a ++ d ++ 3#7 : BitVec 32).extractLsb' 21 7 = 0#7 := extract_sub h21 0 7
  exact roundTrip_full rfl (full_bit h0) ((word_decMaj01 h0).trans (by unfold decMaj01; rw [e28, e21, h7, h14]; rfl))
theorem RoundTrip.ctz (d a : BitVec 7) : RoundTrip.Statement (.ctz d a) := by
  obtain ⟨h21, h14, h7, h0⟩ := slices_11_7_7_7 1280#11 a d 3#7
  have e28 : (1280#11 ++ a ++ d ++ 3#7 : BitVec 32).extractLsb' 28 4 = 10#4 := extract_sub h21 7 4
  have e21 : (1280#11 ++ a ++ d ++ 3#7 : BitVec 32).extractLsb' 21 7 = 0#7 := extract_sub h21 0 7
  exact roundTrip_full rfl (full_bit h0) ((word_decMaj01 h0).trans (by unfold decMaj01; rw [e28, e21, h7, h14]; rfl))
theorem RoundTrip.popc (d a : BitVec 7) : RoundTrip.Statement (.popc d a) := by
  obtain ⟨h21, h14, h7, h0⟩ := slices_11_7_7_7 1408#11 a d 3#7
  have e28 : (1408#11 ++ a ++ d ++ 3#7 : BitVec 32).extractLsb' 28 4 = 11#4 := extract_sub h21 7 4
  have e21 : (1408#11 ++ a ++ d ++ 3#7 : BitVec 32).extractLsb' 21 7 = 0#7 := extract_sub h21 0 7
  exact roundTrip_full rfl (full_bit h0) ((word_decMaj01 h0).trans (by unfold decMaj01; rw [e28, e21, h7, h14]; rfl))
theorem RoundTrip.sext (d a b : BitVec 7) : RoundTrip.Statement (.sext d a b) := by
  obtain ⟨h28, h21, h14, h7, h0⟩ := slices_4_7_7_7_7 12#4 b a d 3#7
  exact roundTrip_full rfl (full_bit h0) ((word_decMaj01 h0).trans (by unfold decMaj01; rw [h28, h7, h14, h21]; rfl))
theorem RoundTrip.zext (d a b : BitVec 7) : RoundTrip.Statement (.zext d a b) := by
  obtain ⟨h28, h21, h14, h7, h0⟩ := slices_4_7_7_7_7 13#4 b a d 3#7
  exact roundTrip_full rfl (full_bit h0) ((word_decMaj01 h0).trans (by unfold decMaj01; rw [h28, h7, h14, h21]; rfl))
theorem RoundTrip.addw (d a b : BitVec 7) : RoundTrip.Statement (.addw d a b) := by
  obtain ⟨h28, h21, h14, h7, h0⟩ := slices_4_7_7_7_7 14#4 b a d 3#7
  exact roundTrip_full rfl (full_bit h0) ((word_decMaj01 h0).trans (by unfold decMaj01; rw [h28, h7, h14, h21]; rfl))
theorem RoundTrip.subw (d a b : BitVec 7) : RoundTrip.Statement (.subw d a b) := by
  obtain ⟨h28, h21, h14, h7, h0⟩ := slices_4_7_7_7_7 15#4 b a d 3#7
  exact roundTrip_full rfl (full_bit h0) ((word_decMaj01 h0).trans (by unfold decMaj01; rw [h28, h7, h14, h21]; rfl))
theorem RoundTrip.bfx (d a b : BitVec 7) : RoundTrip.Statement (.bfx d a b) := by
  obtain ⟨h28, h21, h14, h7, h0⟩ := slices_4_7_7_7_7 0#4 b a d 5#7
  exact roundTrip_full rfl (full_bit h0) ((word_decMaj02 h0).trans (by unfold decMaj02; rw [h28, h7, h14, h21]; rfl))
theorem RoundTrip.bfxn (d a b : BitVec 7) : RoundTrip.Statement (.bfxn d a b) := by
  obtain ⟨h28, h21, h14, h7, h0⟩ := slices_4_7_7_7_7 1#4 b a d 5#7
  exact roundTrip_full rfl (full_bit h0) ((word_decMaj02 h0).trans (by unfold decMaj02; rw [h28, h7, h14, h21]; rfl))
theorem RoundTrip.bfi (d a b : BitVec 7) : RoundTrip.Statement (.bfi d a b) := by
  obtain ⟨h28, h21, h14, h7, h0⟩ := slices_4_7_7_7_7 2#4 b a d 5#7
  exact roundTrip_full rfl (full_bit h0) ((word_decMaj02 h0).trans (by unfold decMaj02; rw [h28, h7, h14, h21]; rfl))
theorem RoundTrip.shadd1 (d a b : BitVec 7) : RoundTrip.Statement (.shadd1 d a b) := by
  obtain ⟨h28, h21, h14, h7, h0⟩ := slices_4_7_7_7_7 3#4 b a d 5#7
  exact roundTrip_full rfl (full_bit h0) ((word_decMaj02 h0).trans (by unfold decMaj02; rw [h28, h7, h14, h21]; rfl))
theorem RoundTrip.shadd2 (d a b : BitVec 7) : RoundTrip.Statement (.shadd2 d a b) := by
  obtain ⟨h28, h21, h14, h7, h0⟩ := slices_4_7_7_7_7 4#4 b a d 5#7
  exact roundTrip_full rfl (full_bit h0) ((word_decMaj02 h0).trans (by unfold decMaj02; rw [h28, h7, h14, h21]; rfl))
theorem RoundTrip.shadd3 (d a b : BitVec 7) : RoundTrip.Statement (.shadd3 d a b) := by
  obtain ⟨h28, h21, h14, h7, h0⟩ := slices_4_7_7_7_7 5#4 b a d 5#7
  exact roundTrip_full rfl (full_bit h0) ((word_decMaj02 h0).trans (by unfold decMaj02; rw [h28, h7, h14, h21]; rfl))
theorem RoundTrip.hash (d a b : BitVec 7) : RoundTrip.Statement (.hash d a b) := by
  obtain ⟨h28, h21, h14, h7, h0⟩ := slices_4_7_7_7_7 6#4 b a d 5#7
  exact roundTrip_full rfl (full_bit h0) ((word_decMaj02 h0).trans (by unfold decMaj02; rw [h28, h7, h14, h21]; rfl))
theorem RoundTrip.rmap (d a b : BitVec 7) : RoundTrip.Statement (.rmap d a b) := by
  obtain ⟨h28, h21, h14, h7, h0⟩ := slices_4_7_7_7_7 7#4 b a d 5#7
  exact roundTrip_full rfl (full_bit h0) ((word_decMaj02 h0).trans (by unfold decMaj02; rw [h28, h7, h14, h21]; rfl))
theorem RoundTrip.clin (d a b : BitVec 7) : RoundTrip.Statement (.clin d a b) := by
  obtain ⟨h28, h21, h14, h7, h0⟩ := slices_4_7_7_7_7 8#4 b a d 5#7
  exact roundTrip_full rfl (full_bit h0) ((word_decMaj02 h0).trans (by unfold decMaj02; rw [h28, h7, h14, h21]; rfl))
theorem RoundTrip.cunl (d a b : BitVec 7) : RoundTrip.Statement (.cunl d a b) := by
  obtain ⟨h28, h21, h14, h7, h0⟩ := slices_4_7_7_7_7 9#4 b a d 5#7
  exact roundTrip_full rfl (full_bit h0) ((word_decMaj02 h0).trans (by unfold decMaj02; rw [h28, h7, h14, h21]; rfl))
theorem RoundTrip.cmpeq (k : BitVec 3) (a b : BitVec 7) : RoundTrip.Statement (.cmpeq k a b) := by
  obtain ⟨h28, h21, h14, h10, h7, h0⟩ := slices_4_7_7_4_3_7 0#4 b a 0#4 k 7#7
  exact roundTrip_full rfl (full_bit h0) ((word_decMaj03 h0).trans (by unfold decMaj03; rw [h28, h10, h7, h14, h21]; rfl))
theorem RoundTrip.cmpne (k : BitVec 3) (a b : BitVec 7) : RoundTrip.Statement (.cmpne k a b) := by
  obtain ⟨h28, h21, h14, h10, h7, h0⟩ := slices_4_7_7_4_3_7 1#4 b a 0#4 k 7#7
  exact roundTrip_full rfl (full_bit h0) ((word_decMaj03 h0).trans (by unfold decMaj03; rw [h28, h10, h7, h14, h21]; rfl))
theorem RoundTrip.cmplt (k : BitVec 3) (a b : BitVec 7) : RoundTrip.Statement (.cmplt k a b) := by
  obtain ⟨h28, h21, h14, h10, h7, h0⟩ := slices_4_7_7_4_3_7 2#4 b a 0#4 k 7#7
  exact roundTrip_full rfl (full_bit h0) ((word_decMaj03 h0).trans (by unfold decMaj03; rw [h28, h10, h7, h14, h21]; rfl))
theorem RoundTrip.cmpge (k : BitVec 3) (a b : BitVec 7) : RoundTrip.Statement (.cmpge k a b) := by
  obtain ⟨h28, h21, h14, h10, h7, h0⟩ := slices_4_7_7_4_3_7 3#4 b a 0#4 k 7#7
  exact roundTrip_full rfl (full_bit h0) ((word_decMaj03 h0).trans (by unfold decMaj03; rw [h28, h10, h7, h14, h21]; rfl))
theorem RoundTrip.cmpltn (k : BitVec 3) (a b : BitVec 7) : RoundTrip.Statement (.cmpltn k a b) := by
  obtain ⟨h28, h21, h14, h10, h7, h0⟩ := slices_4_7_7_4_3_7 4#4 b a 0#4 k 7#7
  exact roundTrip_full rfl (full_bit h0) ((word_decMaj03 h0).trans (by unfold decMaj03; rw [h28, h10, h7, h14, h21]; rfl))
theorem RoundTrip.cmpgen (k : BitVec 3) (a b : BitVec 7) : RoundTrip.Statement (.cmpgen k a b) := by
  obtain ⟨h28, h21, h14, h10, h7, h0⟩ := slices_4_7_7_4_3_7 5#4 b a 0#4 k 7#7
  exact roundTrip_full rfl (full_bit h0) ((word_decMaj03 h0).trans (by unfold decMaj03; rw [h28, h10, h7, h14, h21]; rfl))
theorem RoundTrip.btst (k : BitVec 3) (a b : BitVec 7) : RoundTrip.Statement (.btst k a b) := by
  obtain ⟨h28, h21, h14, h10, h7, h0⟩ := slices_4_7_7_4_3_7 6#4 b a 0#4 k 7#7
  exact roundTrip_full rfl (full_bit h0) ((word_decMaj03 h0).trans (by unfold decMaj03; rw [h28, h10, h7, h14, h21]; rfl))
theorem RoundTrip.sel (d a b : BitVec 7) (k : BitVec 3) (n : BitVec 1) : RoundTrip.Statement (.sel d a b k n) := by
  obtain ⟨h31, h28, h21, h14, h7, h0⟩ := slices_1_3_7_7_7_7 n k b a d 9#7
  exact roundTrip_full rfl (full_bit h0) ((word_decMaj04 h0).trans (by unfold decMaj04; rw [h7, h14, h21, h28, h31]))
theorem RoundTrip.cmpeqi (k : BitVec 3) (a : BitVec 7) (iv : BitVec 11) : RoundTrip.Statement (.cmpeqi k a iv) := by
  obtain ⟨h21, h14, h10, h7, h0⟩ := slices_11_7_4_3_7 iv a 0#4 k 11#7
  exact roundTrip_full rfl (full_bit h0) ((word_decMaj05 h0).trans (by unfold decMaj05; rw [h10, h7, h14, h21]; rfl))
theorem RoundTrip.cmpnei (k : BitVec 3) (a : BitVec 7) (iv : BitVec 11) : RoundTrip.Statement (.cmpnei k a iv) := by
  obtain ⟨h21, h14, h10, h7, h0⟩ := slices_11_7_4_3_7 iv a 1#4 k 11#7
  exact roundTrip_full rfl (full_bit h0) ((word_decMaj05 h0).trans (by unfold decMaj05; rw [h10, h7, h14, h21]; rfl))
theorem RoundTrip.cmplti (k : BitVec 3) (a : BitVec 7) (iv : BitVec 11) : RoundTrip.Statement (.cmplti k a iv) := by
  obtain ⟨h21, h14, h10, h7, h0⟩ := slices_11_7_4_3_7 iv a 2#4 k 11#7
  exact roundTrip_full rfl (full_bit h0) ((word_decMaj05 h0).trans (by unfold decMaj05; rw [h10, h7, h14, h21]; rfl))
theorem RoundTrip.cmpgei (k : BitVec 3) (a : BitVec 7) (iv : BitVec 11) : RoundTrip.Statement (.cmpgei k a iv) := by
  obtain ⟨h21, h14, h10, h7, h0⟩ := slices_11_7_4_3_7 iv a 3#4 k 11#7
  exact roundTrip_full rfl (full_bit h0) ((word_decMaj05 h0).trans (by unfold decMaj05; rw [h10, h7, h14, h21]; rfl))
theorem RoundTrip.cmpltni (k : BitVec 3) (a : BitVec 7) (iv : BitVec 11) : RoundTrip.Statement (.cmpltni k a iv) := by
  obtain ⟨h21, h14, h10, h7, h0⟩ := slices_11_7_4_3_7 iv a 4#4 k 11#7
  exact roundTrip_full rfl (full_bit h0) ((word_decMaj05 h0).trans (by unfold decMaj05; rw [h10, h7, h14, h21]; rfl))
theorem RoundTrip.cmpgeni (k : BitVec 3) (a : BitVec 7) (iv : BitVec 11) : RoundTrip.Statement (.cmpgeni k a iv) := by
  obtain ⟨h21, h14, h10, h7, h0⟩ := slices_11_7_4_3_7 iv a 5#4 k 11#7
  exact roundTrip_full rfl (full_bit h0) ((word_decMaj05 h0).trans (by unfold decMaj05; rw [h10, h7, h14, h21]; rfl))
theorem RoundTrip.btsti (k : BitVec 3) (a : BitVec 7) (iv : BitVec 6) : RoundTrip.Statement (.btsti k a iv) := by
  obtain ⟨h27, h21, h14, h10, h7, h0⟩ := slices_5_6_7_4_3_7 0#5 iv a 6#4 k 11#7
  exact roundTrip_full rfl (full_bit h0) ((word_decMaj05 h0).trans (by unfold decMaj05; rw [h10, h27, h7, h14, h21]; rfl))
theorem RoundTrip.bar (a : BitVec 7) (iv : BitVec 11) : RoundTrip.Statement (.bar a iv) := by
  obtain ⟨h21, h14, h0⟩ := slices_11_7_14 iv a 13#14
  have e0 : (iv ++ a ++ 13#14 : BitVec 32).extractLsb' 0 7 = 13#7 := extract_sub h0 0 7
  have e7 : (iv ++ a ++ 13#14 : BitVec 32).extractLsb' 7 7 = 0#7 := extract_sub h0 7 7
  exact roundTrip_full rfl (full_bit e0) ((word_decMaj06 e0).trans (by unfold decMaj06; rw [e7, h14, h21]; rfl))
theorem RoundTrip.addpc (d : BitVec 7) (iv : BitVec 11) : RoundTrip.Statement (.addpc d iv) := by
  obtain ⟨h21, h14, h7, h0⟩ := slices_11_7_7_7 iv 0#7 d 15#7
  exact roundTrip_full rfl (full_bit h0) ((word_decMaj07 h0).trans (by unfold decMaj07; rw [h14, h7, h21]; rfl))
theorem RoundTrip.addi (d a : BitVec 7) (iv : BitVec 11) : RoundTrip.Statement (.addi d a iv) := by
  obtain ⟨h21, h14, h7, h0⟩ := slices_11_7_7_7 iv a d 17#7
  exact roundTrip_full rfl (full_bit h0) ((word_decMaj08 h0).trans (by unfold decMaj08; rw [h7, h14, h21]))
theorem RoundTrip.andi (d a : BitVec 7) (iv : BitVec 11) : RoundTrip.Statement (.andi d a iv) := by
  obtain ⟨h21, h14, h7, h0⟩ := slices_11_7_7_7 iv a d 19#7
  exact roundTrip_full rfl (full_bit h0) ((word_decMaj09 h0).trans (by unfold decMaj09; rw [h7, h14, h21]))
theorem RoundTrip.ori (d a : BitVec 7) (iv : BitVec 11) : RoundTrip.Statement (.ori d a iv) := by
  obtain ⟨h21, h14, h7, h0⟩ := slices_11_7_7_7 iv a d 21#7
  exact roundTrip_full rfl (full_bit h0) ((word_decMaj0A h0).trans (by unfold decMaj0A; rw [h7, h14, h21]))
theorem RoundTrip.xori (d a : BitVec 7) (iv : BitVec 11) : RoundTrip.Statement (.xori d a iv) := by
  obtain ⟨h21, h14, h7, h0⟩ := slices_11_7_7_7 iv a d 23#7
  exact roundTrip_full rfl (full_bit h0) ((word_decMaj0B h0).trans (by unfold decMaj0B; rw [h7, h14, h21]))
theorem RoundTrip.slli (d a : BitVec 7) (sv : BitVec 6) : RoundTrip.Statement (.slli d a sv) := by
  obtain ⟨h27, h21, h14, h7, h0⟩ := slices_5_6_7_7_7 0#5 sv a d 25#7
  have e27 : (0#5 ++ sv ++ a ++ d ++ 25#7 : BitVec 32).extractLsb' 27 2 = 0#2 := extract_sub h27 0 2
  have e29 : (0#5 ++ sv ++ a ++ d ++ 25#7 : BitVec 32).extractLsb' 29 3 = 0#3 := extract_sub h27 2 3
  exact roundTrip_full rfl (full_bit h0) ((word_decMaj0C h0).trans (by unfold decMaj0C; rw [e27, e29, h7, h14, h21]; rfl))
theorem RoundTrip.srli (d a : BitVec 7) (sv : BitVec 6) : RoundTrip.Statement (.srli d a sv) := by
  obtain ⟨h27, h21, h14, h7, h0⟩ := slices_5_6_7_7_7 1#5 sv a d 25#7
  have e27 : (1#5 ++ sv ++ a ++ d ++ 25#7 : BitVec 32).extractLsb' 27 2 = 1#2 := extract_sub h27 0 2
  have e29 : (1#5 ++ sv ++ a ++ d ++ 25#7 : BitVec 32).extractLsb' 29 3 = 0#3 := extract_sub h27 2 3
  exact roundTrip_full rfl (full_bit h0) ((word_decMaj0C h0).trans (by unfold decMaj0C; rw [e27, e29, h7, h14, h21]; rfl))
theorem RoundTrip.srai (d a : BitVec 7) (sv : BitVec 6) : RoundTrip.Statement (.srai d a sv) := by
  obtain ⟨h27, h21, h14, h7, h0⟩ := slices_5_6_7_7_7 2#5 sv a d 25#7
  have e27 : (2#5 ++ sv ++ a ++ d ++ 25#7 : BitVec 32).extractLsb' 27 2 = 2#2 := extract_sub h27 0 2
  have e29 : (2#5 ++ sv ++ a ++ d ++ 25#7 : BitVec 32).extractLsb' 29 3 = 0#3 := extract_sub h27 2 3
  exact roundTrip_full rfl (full_bit h0) ((word_decMaj0C h0).trans (by unfold decMaj0C; rw [e27, e29, h7, h14, h21]; rfl))
theorem RoundTrip.roli (d a : BitVec 7) (sv : BitVec 6) : RoundTrip.Statement (.roli d a sv) := by
  obtain ⟨h27, h21, h14, h7, h0⟩ := slices_5_6_7_7_7 3#5 sv a d 25#7
  have e27 : (3#5 ++ sv ++ a ++ d ++ 25#7 : BitVec 32).extractLsb' 27 2 = 3#2 := extract_sub h27 0 2
  have e29 : (3#5 ++ sv ++ a ++ d ++ 25#7 : BitVec 32).extractLsb' 29 3 = 0#3 := extract_sub h27 2 3
  exact roundTrip_full rfl (full_bit h0) ((word_decMaj0C h0).trans (by unfold decMaj0C; rw [e27, e29, h7, h14, h21]; rfl))
theorem RoundTrip.muli (d a : BitVec 7) (iv : BitVec 11) : RoundTrip.Statement (.muli d a iv) := by
  obtain ⟨h21, h14, h7, h0⟩ := slices_11_7_7_7 iv a d 27#7
  exact roundTrip_full rfl (full_bit h0) ((word_decMaj0D h0).trans (by unfold decMaj0D; rw [h7, h14, h21]))
theorem RoundTrip.li (d : BitVec 7) (iv : BitVec 18) : RoundTrip.Statement (.li d iv) := by
  obtain ⟨h14, h7, h0⟩ := slices_18_7_7 iv d 29#7
  exact roundTrip_full rfl (full_bit h0) ((word_decMaj0E h0).trans (by unfold decMaj0E; rw [h7, h14]))
theorem RoundTrip.lis (d : BitVec 7) (iv : BitVec 18) : RoundTrip.Statement (.lis d iv) := by
  obtain ⟨h14, h7, h0⟩ := slices_18_7_7 iv d 31#7
  exact roundTrip_full rfl (full_bit h0) ((word_decMaj0F h0).trans (by unfold decMaj0F; rw [h7, h14]))
theorem RoundTrip.beqz (a : BitVec 7) (o : BitVec 15) : RoundTrip.Statement (.beqz a o) := by
  obtain ⟨h17, h14, h7, h0⟩ := slices_15_3_7_7 o 0#3 a 33#7
  exact roundTrip_full rfl (full_bit h0) ((word_decMaj10 h0).trans (by unfold decMaj10; rw [h14, h7, h17]; rfl))
theorem RoundTrip.bnez (a : BitVec 7) (o : BitVec 15) : RoundTrip.Statement (.bnez a o) := by
  obtain ⟨h17, h14, h7, h0⟩ := slices_15_3_7_7 o 1#3 a 33#7
  exact roundTrip_full rfl (full_bit h0) ((word_decMaj10 h0).trans (by unfold decMaj10; rw [h14, h7, h17]; rfl))
theorem RoundTrip.bltz (a : BitVec 7) (o : BitVec 15) : RoundTrip.Statement (.bltz a o) := by
  obtain ⟨h17, h14, h7, h0⟩ := slices_15_3_7_7 o 2#3 a 33#7
  exact roundTrip_full rfl (full_bit h0) ((word_decMaj10 h0).trans (by unfold decMaj10; rw [h14, h7, h17]; rfl))
theorem RoundTrip.bgez (a : BitVec 7) (o : BitVec 15) : RoundTrip.Statement (.bgez a o) := by
  obtain ⟨h17, h14, h7, h0⟩ := slices_15_3_7_7 o 3#3 a 33#7
  exact roundTrip_full rfl (full_bit h0) ((word_decMaj10 h0).trans (by unfold decMaj10; rw [h14, h7, h17]; rfl))
theorem RoundTrip.bgtz (a : BitVec 7) (o : BitVec 15) : RoundTrip.Statement (.bgtz a o) := by
  obtain ⟨h17, h14, h7, h0⟩ := slices_15_3_7_7 o 4#3 a 33#7
  exact roundTrip_full rfl (full_bit h0) ((word_decMaj10 h0).trans (by unfold decMaj10; rw [h14, h7, h17]; rfl))
theorem RoundTrip.blez (a : BitVec 7) (o : BitVec 15) : RoundTrip.Statement (.blez a o) := by
  obtain ⟨h17, h14, h7, h0⟩ := slices_15_3_7_7 o 5#3 a 33#7
  exact roundTrip_full rfl (full_bit h0) ((word_decMaj10 h0).trans (by unfold decMaj10; rw [h14, h7, h17]; rfl))
theorem RoundTrip.bk (k : BitVec 3) (n : BitVec 1) (o : BitVec 18) : RoundTrip.Statement (.bk k n o) := by
  obtain ⟨h14, h11, h10, h7, h0⟩ := slices_18_3_1_3_7 o 0#3 n k 35#7
  exact roundTrip_full rfl (full_bit h0) ((word_decMaj11 h0).trans (by unfold decMaj11; rw [h11, h7, h10, h14]; rfl))
theorem RoundTrip.jal (d : BitVec 7) (o : BitVec 18) : RoundTrip.Statement (.jal d o) := by
  obtain ⟨h14, h7, h0⟩ := slices_18_7_7 o d 37#7
  exact roundTrip_full rfl (full_bit h0) ((word_decMaj12 h0).trans (by unfold decMaj12; rw [h7, h14]))
theorem RoundTrip.jalr (d a : BitVec 7) (iv : BitVec 11) : RoundTrip.Statement (.jalr d a iv) := by
  obtain ⟨h21, h14, h7, h0⟩ := slices_11_7_7_7 iv a d 39#7
  exact roundTrip_full rfl (full_bit h0) ((word_decMaj13 h0).trans (by unfold decMaj13; rw [h7, h14, h21]))
theorem RoundTrip.ld (t a : BitVec 7) (z k : BitVec 2) (o : BitVec 7) : RoundTrip.Statement (.ld t a z k o) := by
  obtain ⟨h25, h23, h21, h14, h7, h0⟩ := slices_7_2_2_7_7_7 o k z a t 41#7
  exact roundTrip_full rfl (full_bit h0) ((word_decMaj14 h0).trans (by unfold decMaj14; rw [h7, h14, h21, h23, h25]))
theorem RoundTrip.ldn (t a : BitVec 7) (z k : BitVec 2) (o : BitVec 7) : RoundTrip.Statement (.ldn t a z k o) := by
  obtain ⟨h25, h23, h21, h14, h7, h0⟩ := slices_7_2_2_7_7_7 o k z a t 43#7
  exact roundTrip_full rfl (full_bit h0) ((word_decMaj15 h0).trans (by unfold decMaj15; rw [h7, h14, h21, h23, h25]))
theorem RoundTrip.st (t a : BitVec 7) (z k : BitVec 2) (o : BitVec 7) : RoundTrip.Statement (.st t a z k o) := by
  obtain ⟨h25, h23, h21, h14, h7, h0⟩ := slices_7_2_2_7_7_7 o k z a t 45#7
  exact roundTrip_full rfl (full_bit h0) ((word_decMaj16 h0).trans (by unfold decMaj16; rw [h7, h14, h21, h23, h25]))
theorem RoundTrip.ldx (t a x : BitVec 7) (r z : BitVec 2) : RoundTrip.Statement (.ldx t a x r z) := by
  obtain ⟨h30, h28, h21, h14, h7, h0⟩ := slices_2_2_7_7_7_7 z r x a t 47#7
  exact roundTrip_full rfl (full_bit h0) ((word_decMaj17 h0).trans (by unfold decMaj17; rw [h7, h14, h21, h28, h30]))
theorem RoundTrip.ldxn (t a x : BitVec 7) (r z : BitVec 2) : RoundTrip.Statement (.ldxn t a x r z) := by
  obtain ⟨h30, h28, h21, h14, h7, h0⟩ := slices_2_2_7_7_7_7 z r x a t 49#7
  exact roundTrip_full rfl (full_bit h0) ((word_decMaj18 h0).trans (by unfold decMaj18; rw [h7, h14, h21, h28, h30]))
theorem RoundTrip.stx (t a x : BitVec 7) (r z : BitVec 2) : RoundTrip.Statement (.stx t a x r z) := by
  obtain ⟨h30, h28, h21, h14, h7, h0⟩ := slices_2_2_7_7_7_7 z r x a t 51#7
  exact roundTrip_full rfl (full_bit h0) ((word_decMaj19 h0).trans (by unfold decMaj19; rw [h7, h14, h21, h28, h30]))
theorem RoundTrip.lds (t a : BitVec 7) (z : BitVec 1) (k : BitVec 2) (m : BitVec 1) (o : BitVec 6) : RoundTrip.Statement (.lds t a z k m o) := by
  obtain ⟨h26, h25, h23, h22, h21, h14, h7, h0⟩ := slices_6_1_2_1_1_7_7_7 o m k 1#1 z a t 53#7
  exact roundTrip_full rfl (full_bit h0) ((word_decMaj1A h0).trans (by unfold decMaj1A; rw [h22, h7, h14, h21, h23, h25, h26]; rfl))
theorem RoundTrip.sts (t a : BitVec 7) (z : BitVec 1) (k : BitVec 2) (o : BitVec 6) : RoundTrip.Statement (.sts t a z k o) := by
  obtain ⟨h26, h25, h23, h22, h21, h14, h7, h0⟩ := slices_6_1_2_1_1_7_7_7 o 0#1 k 1#1 z a t 55#7
  exact roundTrip_full rfl (full_bit h0) ((word_decMaj1B h0).trans (by unfold decMaj1B; rw [h25, h22, h7, h14, h21, h23, h26]; rfl))
theorem RoundTrip.stsf (t a : BitVec 7) (z : BitVec 1) (k : BitVec 2) (o : BitVec 6) : RoundTrip.Statement (.stsf t a z k o) := by
  obtain ⟨h26, h25, h23, h22, h21, h14, h7, h0⟩ := slices_6_1_2_1_1_7_7_7 o 1#1 k 1#1 z a t 55#7
  exact roundTrip_full rfl (full_bit h0) ((word_decMaj1B h0).trans (by unfold decMaj1B; rw [h25, h22, h7, h14, h21, h23, h26]; rfl))
theorem RoundTrip.amoadd (d a b : BitVec 7) : RoundTrip.Statement (.amoadd d a b) := by
  obtain ⟨h28, h21, h14, h7, h0⟩ := slices_4_7_7_7_7 0#4 b a d 57#7
  exact roundTrip_full rfl (full_bit h0) ((word_decMaj1C h0).trans (by unfold decMaj1C; rw [h28, h7, h14, h21]; rfl))
theorem RoundTrip.amoand (d a b : BitVec 7) : RoundTrip.Statement (.amoand d a b) := by
  obtain ⟨h28, h21, h14, h7, h0⟩ := slices_4_7_7_7_7 1#4 b a d 57#7
  exact roundTrip_full rfl (full_bit h0) ((word_decMaj1C h0).trans (by unfold decMaj1C; rw [h28, h7, h14, h21]; rfl))
theorem RoundTrip.amoor (d a b : BitVec 7) : RoundTrip.Statement (.amoor d a b) := by
  obtain ⟨h28, h21, h14, h7, h0⟩ := slices_4_7_7_7_7 2#4 b a d 57#7
  exact roundTrip_full rfl (full_bit h0) ((word_decMaj1C h0).trans (by unfold decMaj1C; rw [h28, h7, h14, h21]; rfl))
theorem RoundTrip.amoxor (d a b : BitVec 7) : RoundTrip.Statement (.amoxor d a b) := by
  obtain ⟨h28, h21, h14, h7, h0⟩ := slices_4_7_7_7_7 3#4 b a d 57#7
  exact roundTrip_full rfl (full_bit h0) ((word_decMaj1C h0).trans (by unfold decMaj1C; rw [h28, h7, h14, h21]; rfl))
theorem RoundTrip.amomin (d a b : BitVec 7) : RoundTrip.Statement (.amomin d a b) := by
  obtain ⟨h28, h21, h14, h7, h0⟩ := slices_4_7_7_7_7 4#4 b a d 57#7
  exact roundTrip_full rfl (full_bit h0) ((word_decMaj1C h0).trans (by unfold decMaj1C; rw [h28, h7, h14, h21]; rfl))
theorem RoundTrip.amomax (d a b : BitVec 7) : RoundTrip.Statement (.amomax d a b) := by
  obtain ⟨h28, h21, h14, h7, h0⟩ := slices_4_7_7_7_7 5#4 b a d 57#7
  exact roundTrip_full rfl (full_bit h0) ((word_decMaj1C h0).trans (by unfold decMaj1C; rw [h28, h7, h14, h21]; rfl))
theorem RoundTrip.amominn (d a b : BitVec 7) : RoundTrip.Statement (.amominn d a b) := by
  obtain ⟨h28, h21, h14, h7, h0⟩ := slices_4_7_7_7_7 6#4 b a d 57#7
  exact roundTrip_full rfl (full_bit h0) ((word_decMaj1C h0).trans (by unfold decMaj1C; rw [h28, h7, h14, h21]; rfl))
theorem RoundTrip.amomaxn (d a b : BitVec 7) : RoundTrip.Statement (.amomaxn d a b) := by
  obtain ⟨h28, h21, h14, h7, h0⟩ := slices_4_7_7_7_7 7#4 b a d 57#7
  exact roundTrip_full rfl (full_bit h0) ((word_decMaj1C h0).trans (by unfold decMaj1C; rw [h28, h7, h14, h21]; rfl))
theorem RoundTrip.amoswp (d a b : BitVec 7) : RoundTrip.Statement (.amoswp d a b) := by
  obtain ⟨h28, h21, h14, h7, h0⟩ := slices_4_7_7_7_7 8#4 b a d 57#7
  exact roundTrip_full rfl (full_bit h0) ((word_decMaj1C h0).trans (by unfold decMaj1C; rw [h28, h7, h14, h21]; rfl))
theorem RoundTrip.amocas (d a b : BitVec 7) : RoundTrip.Statement (.amocas d a b) := by
  obtain ⟨h28, h21, h14, h7, h0⟩ := slices_4_7_7_7_7 9#4 b a d 57#7
  exact roundTrip_full rfl (full_bit h0) ((word_decMaj1C h0).trans (by unfold decMaj1C; rw [h28, h7, h14, h21]; rfl))
theorem RoundTrip.amofadds (d a b : BitVec 7) : RoundTrip.Statement (.amofadds d a b) := by
  obtain ⟨h28, h21, h14, h7, h0⟩ := slices_4_7_7_7_7 10#4 b a d 57#7
  exact roundTrip_full rfl (full_bit h0) ((word_decMaj1C h0).trans (by unfold decMaj1C; rw [h28, h7, h14, h21]; rfl))
theorem RoundTrip.amofaddd (d a b : BitVec 7) : RoundTrip.Statement (.amofaddd d a b) := by
  obtain ⟨h28, h21, h14, h7, h0⟩ := slices_4_7_7_7_7 11#4 b a d 57#7
  exact roundTrip_full rfl (full_bit h0) ((word_decMaj1C h0).trans (by unfold decMaj1C; rw [h28, h7, h14, h21]; rfl))
theorem RoundTrip.feqry (d a : BitVec 7) : RoundTrip.Statement (.feqry d a) := by
  obtain ⟨h21, h14, h7, h0⟩ := slices_11_7_7_7 1536#11 a d 57#7
  have e28 : (1536#11 ++ a ++ d ++ 57#7 : BitVec 32).extractLsb' 28 4 = 12#4 := extract_sub h21 7 4
  have e21 : (1536#11 ++ a ++ d ++ 57#7 : BitVec 32).extractLsb' 21 7 = 0#7 := extract_sub h21 0 7
  exact roundTrip_full rfl (full_bit h0) ((word_decMaj1C h0).trans (by unfold decMaj1C; rw [e28, e21, h7, h14]; rfl))
theorem RoundTrip.feset (d a : BitVec 7) : RoundTrip.Statement (.feset d a) := by
  obtain ⟨h21, h14, h7, h0⟩ := slices_11_7_7_7 1664#11 a d 57#7
  have e28 : (1664#11 ++ a ++ d ++ 57#7 : BitVec 32).extractLsb' 28 4 = 13#4 := extract_sub h21 7 4
  have e21 : (1664#11 ++ a ++ d ++ 57#7 : BitVec 32).extractLsb' 21 7 = 0#7 := extract_sub h21 0 7
  exact roundTrip_full rfl (full_bit h0) ((word_decMaj1C h0).trans (by unfold decMaj1C; rw [e28, e21, h7, h14]; rfl))
theorem RoundTrip.feclr (d a : BitVec 7) : RoundTrip.Statement (.feclr d a) := by
  obtain ⟨h21, h14, h7, h0⟩ := slices_11_7_7_7 1792#11 a d 57#7
  have e28 : (1792#11 ++ a ++ d ++ 57#7 : BitVec 32).extractLsb' 28 4 = 14#4 := extract_sub h21 7 4
  have e21 : (1792#11 ++ a ++ d ++ 57#7 : BitVec 32).extractLsb' 21 7 = 0#7 := extract_sub h21 0 7
  exact roundTrip_full rfl (full_bit h0) ((word_decMaj1C h0).trans (by unfold decMaj1C; rw [e28, e21, h7, h14]; rfl))
theorem RoundTrip.fence (sv : BitVec 3) (k : BitVec 4) : RoundTrip.Statement (.fence sv k) := by
  obtain ⟨h14, h10, h7, h0⟩ := slices_18_4_3_7 0#18 k sv 59#7
  exact roundTrip_full rfl (full_bit h0) ((word_decMaj1D h0).trans (by unfold decMaj1D; rw [h14, h7, h10]; rfl))
theorem RoundTrip.wait (l sv : BitVec 6) (c : BitVec 7) (t : BitVec 6) : RoundTrip.Statement (.wait l sv c t) := by
  obtain ⟨h26, h19, h13, h7, h0⟩ := slices_6_7_6_6_7 t c sv l 61#7
  exact roundTrip_full rfl (full_bit h0) ((word_decMaj1E h0).trans (by unfold decMaj1E; rw [h7, h13, h19, h26]))
theorem RoundTrip.tlwait (a : BitVec 7) (l : BitVec 4) : RoundTrip.Statement (.tlwait a l) := by
  obtain ⟨h25, h21, h14, h0⟩ := slices_7_4_7_14 0#7 l a 63#14
  have e0 : (0#7 ++ l ++ a ++ 63#14 : BitVec 32).extractLsb' 0 7 = 63#7 := extract_sub h0 0 7
  have e7 : (0#7 ++ l ++ a ++ 63#14 : BitVec 32).extractLsb' 7 7 = 0#7 := extract_sub h0 7 7
  exact roundTrip_full rfl (full_bit e0) ((word_decMaj1F e0).trans (by unfold decMaj1F; rw [e7, h25, h14, h21]; rfl))
theorem RoundTrip.vadd (d a b : BitVec 4) (k : BitVec 3) (z : BitVec 1) (l : BitVec 2) : RoundTrip.Statement (.vadd d a b k z l) := by
  obtain ⟨h25, h23, h22, h19, h15, h11, h7, h0⟩ := slices_7_2_1_3_4_4_4_7 0#7 l z k b a d 65#7
  exact roundTrip_full rfl (full_bit h0) ((word_decMaj20 h0).trans (by unfold decMaj20; rw [h25, h7, h11, h15, h19, h22, h23]; rfl))
theorem RoundTrip.vsub (d a b : BitVec 4) (k : BitVec 3) (z : BitVec 1) (l : BitVec 2) : RoundTrip.Statement (.vsub d a b k z l) := by
  obtain ⟨h25, h23, h22, h19, h15, h11, h7, h0⟩ := slices_7_2_1_3_4_4_4_7 1#7 l z k b a d 65#7
  exact roundTrip_full rfl (full_bit h0) ((word_decMaj20 h0).trans (by unfold decMaj20; rw [h25, h7, h11, h15, h19, h22, h23]; rfl))
theorem RoundTrip.vmul (d a b : BitVec 4) (k : BitVec 3) (z : BitVec 1) (l : BitVec 2) : RoundTrip.Statement (.vmul d a b k z l) := by
  obtain ⟨h25, h23, h22, h19, h15, h11, h7, h0⟩ := slices_7_2_1_3_4_4_4_7 2#7 l z k b a d 65#7
  exact roundTrip_full rfl (full_bit h0) ((word_decMaj20 h0).trans (by unfold decMaj20; rw [h25, h7, h11, h15, h19, h22, h23]; rfl))
theorem RoundTrip.vmulh (d a b : BitVec 4) (k : BitVec 3) (z : BitVec 1) (l : BitVec 2) : RoundTrip.Statement (.vmulh d a b k z l) := by
  obtain ⟨h25, h23, h22, h19, h15, h11, h7, h0⟩ := slices_7_2_1_3_4_4_4_7 3#7 l z k b a d 65#7
  exact roundTrip_full rfl (full_bit h0) ((word_decMaj20 h0).trans (by unfold decMaj20; rw [h25, h7, h11, h15, h19, h22, h23]; rfl))
theorem RoundTrip.vmulhn (d a b : BitVec 4) (k : BitVec 3) (z : BitVec 1) (l : BitVec 2) : RoundTrip.Statement (.vmulhn d a b k z l) := by
  obtain ⟨h25, h23, h22, h19, h15, h11, h7, h0⟩ := slices_7_2_1_3_4_4_4_7 4#7 l z k b a d 65#7
  exact roundTrip_full rfl (full_bit h0) ((word_decMaj20 h0).trans (by unfold decMaj20; rw [h25, h7, h11, h15, h19, h22, h23]; rfl))
theorem RoundTrip.vand (d a b : BitVec 4) (k : BitVec 3) (z : BitVec 1) (l : BitVec 2) : RoundTrip.Statement (.vand d a b k z l) := by
  obtain ⟨h25, h23, h22, h19, h15, h11, h7, h0⟩ := slices_7_2_1_3_4_4_4_7 5#7 l z k b a d 65#7
  exact roundTrip_full rfl (full_bit h0) ((word_decMaj20 h0).trans (by unfold decMaj20; rw [h25, h7, h11, h15, h19, h22, h23]; rfl))
theorem RoundTrip.vor (d a b : BitVec 4) (k : BitVec 3) (z : BitVec 1) (l : BitVec 2) : RoundTrip.Statement (.vor d a b k z l) := by
  obtain ⟨h25, h23, h22, h19, h15, h11, h7, h0⟩ := slices_7_2_1_3_4_4_4_7 6#7 l z k b a d 65#7
  exact roundTrip_full rfl (full_bit h0) ((word_decMaj20 h0).trans (by unfold decMaj20; rw [h25, h7, h11, h15, h19, h22, h23]; rfl))
theorem RoundTrip.vxor (d a b : BitVec 4) (k : BitVec 3) (z : BitVec 1) (l : BitVec 2) : RoundTrip.Statement (.vxor d a b k z l) := by
  obtain ⟨h25, h23, h22, h19, h15, h11, h7, h0⟩ := slices_7_2_1_3_4_4_4_7 7#7 l z k b a d 65#7
  exact roundTrip_full rfl (full_bit h0) ((word_decMaj20 h0).trans (by unfold decMaj20; rw [h25, h7, h11, h15, h19, h22, h23]; rfl))
theorem RoundTrip.vsll (d a b : BitVec 4) (k : BitVec 3) (z : BitVec 1) (l : BitVec 2) : RoundTrip.Statement (.vsll d a b k z l) := by
  obtain ⟨h25, h23, h22, h19, h15, h11, h7, h0⟩ := slices_7_2_1_3_4_4_4_7 8#7 l z k b a d 65#7
  exact roundTrip_full rfl (full_bit h0) ((word_decMaj20 h0).trans (by unfold decMaj20; rw [h25, h7, h11, h15, h19, h22, h23]; rfl))
theorem RoundTrip.vsrl (d a b : BitVec 4) (k : BitVec 3) (z : BitVec 1) (l : BitVec 2) : RoundTrip.Statement (.vsrl d a b k z l) := by
  obtain ⟨h25, h23, h22, h19, h15, h11, h7, h0⟩ := slices_7_2_1_3_4_4_4_7 9#7 l z k b a d 65#7
  exact roundTrip_full rfl (full_bit h0) ((word_decMaj20 h0).trans (by unfold decMaj20; rw [h25, h7, h11, h15, h19, h22, h23]; rfl))
theorem RoundTrip.vsra (d a b : BitVec 4) (k : BitVec 3) (z : BitVec 1) (l : BitVec 2) : RoundTrip.Statement (.vsra d a b k z l) := by
  obtain ⟨h25, h23, h22, h19, h15, h11, h7, h0⟩ := slices_7_2_1_3_4_4_4_7 10#7 l z k b a d 65#7
  exact roundTrip_full rfl (full_bit h0) ((word_decMaj20 h0).trans (by unfold decMaj20; rw [h25, h7, h11, h15, h19, h22, h23]; rfl))
theorem RoundTrip.vmin (d a b : BitVec 4) (k : BitVec 3) (z : BitVec 1) (l : BitVec 2) : RoundTrip.Statement (.vmin d a b k z l) := by
  obtain ⟨h25, h23, h22, h19, h15, h11, h7, h0⟩ := slices_7_2_1_3_4_4_4_7 11#7 l z k b a d 65#7
  exact roundTrip_full rfl (full_bit h0) ((word_decMaj20 h0).trans (by unfold decMaj20; rw [h25, h7, h11, h15, h19, h22, h23]; rfl))
theorem RoundTrip.vmax (d a b : BitVec 4) (k : BitVec 3) (z : BitVec 1) (l : BitVec 2) : RoundTrip.Statement (.vmax d a b k z l) := by
  obtain ⟨h25, h23, h22, h19, h15, h11, h7, h0⟩ := slices_7_2_1_3_4_4_4_7 12#7 l z k b a d 65#7
  exact roundTrip_full rfl (full_bit h0) ((word_decMaj20 h0).trans (by unfold decMaj20; rw [h25, h7, h11, h15, h19, h22, h23]; rfl))
theorem RoundTrip.vminn (d a b : BitVec 4) (k : BitVec 3) (z : BitVec 1) (l : BitVec 2) : RoundTrip.Statement (.vminn d a b k z l) := by
  obtain ⟨h25, h23, h22, h19, h15, h11, h7, h0⟩ := slices_7_2_1_3_4_4_4_7 13#7 l z k b a d 65#7
  exact roundTrip_full rfl (full_bit h0) ((word_decMaj20 h0).trans (by unfold decMaj20; rw [h25, h7, h11, h15, h19, h22, h23]; rfl))
theorem RoundTrip.vmaxn (d a b : BitVec 4) (k : BitVec 3) (z : BitVec 1) (l : BitVec 2) : RoundTrip.Statement (.vmaxn d a b k z l) := by
  obtain ⟨h25, h23, h22, h19, h15, h11, h7, h0⟩ := slices_7_2_1_3_4_4_4_7 14#7 l z k b a d 65#7
  exact roundTrip_full rfl (full_bit h0) ((word_decMaj20 h0).trans (by unfold decMaj20; rw [h25, h7, h11, h15, h19, h22, h23]; rfl))
theorem RoundTrip.vsadd (d a b : BitVec 4) (k : BitVec 3) (z : BitVec 1) (l : BitVec 2) : RoundTrip.Statement (.vsadd d a b k z l) := by
  obtain ⟨h25, h23, h22, h19, h15, h11, h7, h0⟩ := slices_7_2_1_3_4_4_4_7 15#7 l z k b a d 65#7
  exact roundTrip_full rfl (full_bit h0) ((word_decMaj20 h0).trans (by unfold decMaj20; rw [h25, h7, h11, h15, h19, h22, h23]; rfl))
theorem RoundTrip.vssub (d a b : BitVec 4) (k : BitVec 3) (z : BitVec 1) (l : BitVec 2) : RoundTrip.Statement (.vssub d a b k z l) := by
  obtain ⟨h25, h23, h22, h19, h15, h11, h7, h0⟩ := slices_7_2_1_3_4_4_4_7 16#7 l z k b a d 65#7
  exact roundTrip_full rfl (full_bit h0) ((word_decMaj20 h0).trans (by unfold decMaj20; rw [h25, h7, h11, h15, h19, h22, h23]; rfl))
theorem RoundTrip.vsaddn (d a b : BitVec 4) (k : BitVec 3) (z : BitVec 1) (l : BitVec 2) : RoundTrip.Statement (.vsaddn d a b k z l) := by
  obtain ⟨h25, h23, h22, h19, h15, h11, h7, h0⟩ := slices_7_2_1_3_4_4_4_7 17#7 l z k b a d 65#7
  exact roundTrip_full rfl (full_bit h0) ((word_decMaj20 h0).trans (by unfold decMaj20; rw [h25, h7, h11, h15, h19, h22, h23]; rfl))
theorem RoundTrip.vssubn (d a b : BitVec 4) (k : BitVec 3) (z : BitVec 1) (l : BitVec 2) : RoundTrip.Statement (.vssubn d a b k z l) := by
  obtain ⟨h25, h23, h22, h19, h15, h11, h7, h0⟩ := slices_7_2_1_3_4_4_4_7 18#7 l z k b a d 65#7
  exact roundTrip_full rfl (full_bit h0) ((word_decMaj20 h0).trans (by unfold decMaj20; rw [h25, h7, h11, h15, h19, h22, h23]; rfl))
theorem RoundTrip.vabs (d a : BitVec 4) (k : BitVec 3) (z : BitVec 1) (l : BitVec 2) : RoundTrip.Statement (.vabs d a k z l) := by
  obtain ⟨h25, h23, h22, h19, h15, h11, h7, h0⟩ := slices_7_2_1_3_4_4_4_7 19#7 l z k 0#4 a d 65#7
  exact roundTrip_full rfl (full_bit h0) ((word_decMaj20 h0).trans (by unfold decMaj20; rw [h25, h15, h7, h11, h19, h22, h23]; rfl))
theorem RoundTrip.vneg (d a : BitVec 4) (k : BitVec 3) (z : BitVec 1) (l : BitVec 2) : RoundTrip.Statement (.vneg d a k z l) := by
  obtain ⟨h25, h23, h22, h19, h15, h11, h7, h0⟩ := slices_7_2_1_3_4_4_4_7 20#7 l z k 0#4 a d 65#7
  exact roundTrip_full rfl (full_bit h0) ((word_decMaj20 h0).trans (by unfold decMaj20; rw [h25, h15, h7, h11, h19, h22, h23]; rfl))
theorem RoundTrip.vma (d a b : BitVec 4) (k : BitVec 3) (z : BitVec 1) (l : BitVec 2) : RoundTrip.Statement (.vma d a b k z l) := by
  obtain ⟨h25, h23, h22, h19, h15, h11, h7, h0⟩ := slices_7_2_1_3_4_4_4_7 21#7 l z k b a d 65#7
  exact roundTrip_full rfl (full_bit h0) ((word_decMaj20 h0).trans (by unfold decMaj20; rw [h25, h7, h11, h15, h19, h22, h23]; rfl))
theorem RoundTrip.vpopc (d a : BitVec 4) (k : BitVec 3) (z : BitVec 1) (l : BitVec 2) : RoundTrip.Statement (.vpopc d a k z l) := by
  obtain ⟨h25, h23, h22, h19, h15, h11, h7, h0⟩ := slices_7_2_1_3_4_4_4_7 22#7 l z k 0#4 a d 65#7
  exact roundTrip_full rfl (full_bit h0) ((word_decMaj20 h0).trans (by unfold decMaj20; rw [h25, h15, h7, h11, h19, h22, h23]; rfl))
theorem RoundTrip.vclz (d a : BitVec 4) (k : BitVec 3) (z : BitVec 1) (l : BitVec 2) : RoundTrip.Statement (.vclz d a k z l) := by
  obtain ⟨h25, h23, h22, h19, h15, h11, h7, h0⟩ := slices_7_2_1_3_4_4_4_7 23#7 l z k 0#4 a d 65#7
  exact roundTrip_full rfl (full_bit h0) ((word_decMaj20 h0).trans (by unfold decMaj20; rw [h25, h15, h7, h11, h19, h22, h23]; rfl))
theorem RoundTrip.vfadd (d a b : BitVec 4) (k : BitVec 3) (z : BitVec 1) (l : BitVec 2) : RoundTrip.Statement (.vfadd d a b k z l) := by
  obtain ⟨h25, h23, h22, h19, h15, h11, h7, h0⟩ := slices_7_2_1_3_4_4_4_7 0#7 l z k b a d 67#7
  exact roundTrip_full rfl (full_bit h0) ((word_decMaj21 h0).trans (by unfold decMaj21; rw [h25, h7, h11, h15, h19, h22, h23]; rfl))
theorem RoundTrip.vfsub (d a b : BitVec 4) (k : BitVec 3) (z : BitVec 1) (l : BitVec 2) : RoundTrip.Statement (.vfsub d a b k z l) := by
  obtain ⟨h25, h23, h22, h19, h15, h11, h7, h0⟩ := slices_7_2_1_3_4_4_4_7 1#7 l z k b a d 67#7
  exact roundTrip_full rfl (full_bit h0) ((word_decMaj21 h0).trans (by unfold decMaj21; rw [h25, h7, h11, h15, h19, h22, h23]; rfl))
theorem RoundTrip.vfmul (d a b : BitVec 4) (k : BitVec 3) (z : BitVec 1) (l : BitVec 2) : RoundTrip.Statement (.vfmul d a b k z l) := by
  obtain ⟨h25, h23, h22, h19, h15, h11, h7, h0⟩ := slices_7_2_1_3_4_4_4_7 2#7 l z k b a d 67#7
  exact roundTrip_full rfl (full_bit h0) ((word_decMaj21 h0).trans (by unfold decMaj21; rw [h25, h7, h11, h15, h19, h22, h23]; rfl))
theorem RoundTrip.vfma (d a b : BitVec 4) (k : BitVec 3) (z : BitVec 1) (l : BitVec 2) : RoundTrip.Statement (.vfma d a b k z l) := by
  obtain ⟨h25, h23, h22, h19, h15, h11, h7, h0⟩ := slices_7_2_1_3_4_4_4_7 3#7 l z k b a d 67#7
  exact roundTrip_full rfl (full_bit h0) ((word_decMaj21 h0).trans (by unfold decMaj21; rw [h25, h7, h11, h15, h19, h22, h23]; rfl))
theorem RoundTrip.vfmin (d a b : BitVec 4) (k : BitVec 3) (z : BitVec 1) (l : BitVec 2) : RoundTrip.Statement (.vfmin d a b k z l) := by
  obtain ⟨h25, h23, h22, h19, h15, h11, h7, h0⟩ := slices_7_2_1_3_4_4_4_7 4#7 l z k b a d 67#7
  exact roundTrip_full rfl (full_bit h0) ((word_decMaj21 h0).trans (by unfold decMaj21; rw [h25, h7, h11, h15, h19, h22, h23]; rfl))
theorem RoundTrip.vfmax (d a b : BitVec 4) (k : BitVec 3) (z : BitVec 1) (l : BitVec 2) : RoundTrip.Statement (.vfmax d a b k z l) := by
  obtain ⟨h25, h23, h22, h19, h15, h11, h7, h0⟩ := slices_7_2_1_3_4_4_4_7 5#7 l z k b a d 67#7
  exact roundTrip_full rfl (full_bit h0) ((word_decMaj21 h0).trans (by unfold decMaj21; rw [h25, h7, h11, h15, h19, h22, h23]; rfl))
theorem RoundTrip.vfdiv (d a b : BitVec 4) (k : BitVec 3) (z : BitVec 1) (l : BitVec 2) : RoundTrip.Statement (.vfdiv d a b k z l) := by
  obtain ⟨h25, h23, h22, h19, h15, h11, h7, h0⟩ := slices_7_2_1_3_4_4_4_7 6#7 l z k b a d 67#7
  exact roundTrip_full rfl (full_bit h0) ((word_decMaj21 h0).trans (by unfold decMaj21; rw [h25, h7, h11, h15, h19, h22, h23]; rfl))
theorem RoundTrip.vfsqrt (d a : BitVec 4) (k : BitVec 3) (z : BitVec 1) (l : BitVec 2) : RoundTrip.Statement (.vfsqrt d a k z l) := by
  obtain ⟨h25, h23, h22, h19, h15, h11, h7, h0⟩ := slices_7_2_1_3_4_4_4_7 7#7 l z k 0#4 a d 67#7
  exact roundTrip_full rfl (full_bit h0) ((word_decMaj21 h0).trans (by unfold decMaj21; rw [h25, h15, h7, h11, h19, h22, h23]; rfl))
theorem RoundTrip.vfrcp (d a : BitVec 4) (k : BitVec 3) (z : BitVec 1) (l : BitVec 2) : RoundTrip.Statement (.vfrcp d a k z l) := by
  obtain ⟨h25, h23, h22, h19, h15, h11, h7, h0⟩ := slices_7_2_1_3_4_4_4_7 8#7 l z k 0#4 a d 67#7
  exact roundTrip_full rfl (full_bit h0) ((word_decMaj21 h0).trans (by unfold decMaj21; rw [h25, h15, h7, h11, h19, h22, h23]; rfl))
theorem RoundTrip.vfrsq (d a : BitVec 4) (k : BitVec 3) (z : BitVec 1) (l : BitVec 2) : RoundTrip.Statement (.vfrsq d a k z l) := by
  obtain ⟨h25, h23, h22, h19, h15, h11, h7, h0⟩ := slices_7_2_1_3_4_4_4_7 9#7 l z k 0#4 a d 67#7
  exact roundTrip_full rfl (full_bit h0) ((word_decMaj21 h0).trans (by unfold decMaj21; rw [h25, h15, h7, h11, h19, h22, h23]; rfl))
theorem RoundTrip.vfexp2 (d a : BitVec 4) (k : BitVec 3) (z : BitVec 1) (l : BitVec 2) : RoundTrip.Statement (.vfexp2 d a k z l) := by
  obtain ⟨h25, h23, h22, h19, h15, h11, h7, h0⟩ := slices_7_2_1_3_4_4_4_7 10#7 l z k 0#4 a d 67#7
  exact roundTrip_full rfl (full_bit h0) ((word_decMaj21 h0).trans (by unfold decMaj21; rw [h25, h15, h7, h11, h19, h22, h23]; rfl))
theorem RoundTrip.vflog2 (d a : BitVec 4) (k : BitVec 3) (z : BitVec 1) (l : BitVec 2) : RoundTrip.Statement (.vflog2 d a k z l) := by
  obtain ⟨h25, h23, h22, h19, h15, h11, h7, h0⟩ := slices_7_2_1_3_4_4_4_7 11#7 l z k 0#4 a d 67#7
  exact roundTrip_full rfl (full_bit h0) ((word_decMaj21 h0).trans (by unfold decMaj21; rw [h25, h15, h7, h11, h19, h22, h23]; rfl))
theorem RoundTrip.vfabs (d a : BitVec 4) (k : BitVec 3) (z : BitVec 1) (l : BitVec 2) : RoundTrip.Statement (.vfabs d a k z l) := by
  obtain ⟨h25, h23, h22, h19, h15, h11, h7, h0⟩ := slices_7_2_1_3_4_4_4_7 12#7 l z k 0#4 a d 67#7
  exact roundTrip_full rfl (full_bit h0) ((word_decMaj21 h0).trans (by unfold decMaj21; rw [h25, h15, h7, h11, h19, h22, h23]; rfl))
theorem RoundTrip.vfneg (d a : BitVec 4) (k : BitVec 3) (z : BitVec 1) (l : BitVec 2) : RoundTrip.Statement (.vfneg d a k z l) := by
  obtain ⟨h25, h23, h22, h19, h15, h11, h7, h0⟩ := slices_7_2_1_3_4_4_4_7 13#7 l z k 0#4 a d 67#7
  exact roundTrip_full rfl (full_bit h0) ((word_decMaj21 h0).trans (by unfold decMaj21; rw [h25, h15, h7, h11, h19, h22, h23]; rfl))
theorem RoundTrip.vcmpeq (p : BitVec 3) (a b : BitVec 4) (k : BitVec 3) (z : BitVec 1) (l : BitVec 2) : RoundTrip.Statement (.vcmpeq p a b k z l) := by
  obtain ⟨h25, h23, h22, h19, h15, h11, h10, h7, h0⟩ := slices_7_2_1_3_4_4_1_3_7 0#7 l z k b a 0#1 p 69#7
  exact roundTrip_full rfl (full_bit h0) ((word_decMaj22 h0).trans (by unfold decMaj22; rw [h25, h10, h7, h11, h15, h19, h22, h23]; rfl))
theorem RoundTrip.vcmpne (p : BitVec 3) (a b : BitVec 4) (k : BitVec 3) (z : BitVec 1) (l : BitVec 2) : RoundTrip.Statement (.vcmpne p a b k z l) := by
  obtain ⟨h25, h23, h22, h19, h15, h11, h10, h7, h0⟩ := slices_7_2_1_3_4_4_1_3_7 1#7 l z k b a 0#1 p 69#7
  exact roundTrip_full rfl (full_bit h0) ((word_decMaj22 h0).trans (by unfold decMaj22; rw [h25, h10, h7, h11, h15, h19, h22, h23]; rfl))
theorem RoundTrip.vcmplt (p : BitVec 3) (a b : BitVec 4) (k : BitVec 3) (z : BitVec 1) (l : BitVec 2) : RoundTrip.Statement (.vcmplt p a b k z l) := by
  obtain ⟨h25, h23, h22, h19, h15, h11, h10, h7, h0⟩ := slices_7_2_1_3_4_4_1_3_7 2#7 l z k b a 0#1 p 69#7
  exact roundTrip_full rfl (full_bit h0) ((word_decMaj22 h0).trans (by unfold decMaj22; rw [h25, h10, h7, h11, h15, h19, h22, h23]; rfl))
theorem RoundTrip.vcmpge (p : BitVec 3) (a b : BitVec 4) (k : BitVec 3) (z : BitVec 1) (l : BitVec 2) : RoundTrip.Statement (.vcmpge p a b k z l) := by
  obtain ⟨h25, h23, h22, h19, h15, h11, h10, h7, h0⟩ := slices_7_2_1_3_4_4_1_3_7 3#7 l z k b a 0#1 p 69#7
  exact roundTrip_full rfl (full_bit h0) ((word_decMaj22 h0).trans (by unfold decMaj22; rw [h25, h10, h7, h11, h15, h19, h22, h23]; rfl))
theorem RoundTrip.vcmpltn (p : BitVec 3) (a b : BitVec 4) (k : BitVec 3) (z : BitVec 1) (l : BitVec 2) : RoundTrip.Statement (.vcmpltn p a b k z l) := by
  obtain ⟨h25, h23, h22, h19, h15, h11, h10, h7, h0⟩ := slices_7_2_1_3_4_4_1_3_7 4#7 l z k b a 0#1 p 69#7
  exact roundTrip_full rfl (full_bit h0) ((word_decMaj22 h0).trans (by unfold decMaj22; rw [h25, h10, h7, h11, h15, h19, h22, h23]; rfl))
theorem RoundTrip.vcmpgen (p : BitVec 3) (a b : BitVec 4) (k : BitVec 3) (z : BitVec 1) (l : BitVec 2) : RoundTrip.Statement (.vcmpgen p a b k z l) := by
  obtain ⟨h25, h23, h22, h19, h15, h11, h10, h7, h0⟩ := slices_7_2_1_3_4_4_1_3_7 5#7 l z k b a 0#1 p 69#7
  exact roundTrip_full rfl (full_bit h0) ((word_decMaj22 h0).trans (by unfold decMaj22; rw [h25, h10, h7, h11, h15, h19, h22, h23]; rfl))
theorem RoundTrip.vfcmpeq (p : BitVec 3) (a b : BitVec 4) (k : BitVec 3) (z : BitVec 1) (l : BitVec 2) : RoundTrip.Statement (.vfcmpeq p a b k z l) := by
  obtain ⟨h25, h23, h22, h19, h15, h11, h10, h7, h0⟩ := slices_7_2_1_3_4_4_1_3_7 6#7 l z k b a 0#1 p 69#7
  exact roundTrip_full rfl (full_bit h0) ((word_decMaj22 h0).trans (by unfold decMaj22; rw [h25, h10, h7, h11, h15, h19, h22, h23]; rfl))
theorem RoundTrip.vfcmplt (p : BitVec 3) (a b : BitVec 4) (k : BitVec 3) (z : BitVec 1) (l : BitVec 2) : RoundTrip.Statement (.vfcmplt p a b k z l) := by
  obtain ⟨h25, h23, h22, h19, h15, h11, h10, h7, h0⟩ := slices_7_2_1_3_4_4_1_3_7 7#7 l z k b a 0#1 p 69#7
  exact roundTrip_full rfl (full_bit h0) ((word_decMaj22 h0).trans (by unfold decMaj22; rw [h25, h10, h7, h11, h15, h19, h22, h23]; rfl))
theorem RoundTrip.vfcmple (p : BitVec 3) (a b : BitVec 4) (k : BitVec 3) (z : BitVec 1) (l : BitVec 2) : RoundTrip.Statement (.vfcmple p a b k z l) := by
  obtain ⟨h25, h23, h22, h19, h15, h11, h10, h7, h0⟩ := slices_7_2_1_3_4_4_1_3_7 8#7 l z k b a 0#1 p 69#7
  exact roundTrip_full rfl (full_bit h0) ((word_decMaj22 h0).trans (by unfold decMaj22; rw [h25, h10, h7, h11, h15, h19, h22, h23]; rfl))
theorem RoundTrip.vfcmpun (p : BitVec 3) (a b : BitVec 4) (k : BitVec 3) (z : BitVec 1) (l : BitVec 2) : RoundTrip.Statement (.vfcmpun p a b k z l) := by
  obtain ⟨h25, h23, h22, h19, h15, h11, h10, h7, h0⟩ := slices_7_2_1_3_4_4_1_3_7 9#7 l z k b a 0#1 p 69#7
  exact roundTrip_full rfl (full_bit h0) ((word_decMaj22 h0).trans (by unfold decMaj22; rw [h25, h10, h7, h11, h15, h19, h22, h23]; rfl))
theorem RoundTrip.vsel (d a b : BitVec 4) (k : BitVec 3) (l : BitVec 2) : RoundTrip.Statement (.vsel d a b k l) := by
  obtain ⟨h25, h23, h22, h19, h15, h11, h7, h0⟩ := slices_7_2_1_3_4_4_4_7 0#7 l 0#1 k b a d 71#7
  exact roundTrip_full rfl (full_bit h0) ((word_decMaj23 h0).trans (by unfold decMaj23; rw [h25, h22, h7, h11, h15, h19, h23]; rfl))
theorem RoundTrip.vperm (d a b : BitVec 4) (k : BitVec 3) (z : BitVec 1) (l : BitVec 2) : RoundTrip.Statement (.vperm d a b k z l) := by
  obtain ⟨h25, h23, h22, h19, h15, h11, h7, h0⟩ := slices_7_2_1_3_4_4_4_7 1#7 l z k b a d 71#7
  exact roundTrip_full rfl (full_bit h0) ((word_decMaj23 h0).trans (by unfold decMaj23; rw [h25, h7, h11, h15, h19, h22, h23]; rfl))
theorem RoundTrip.vslideup (d a b : BitVec 4) (k : BitVec 3) (z : BitVec 1) (l : BitVec 2) : RoundTrip.Statement (.vslideup d a b k z l) := by
  obtain ⟨h25, h23, h22, h19, h15, h11, h7, h0⟩ := slices_7_2_1_3_4_4_4_7 2#7 l z k b a d 71#7
  exact roundTrip_full rfl (full_bit h0) ((word_decMaj23 h0).trans (by unfold decMaj23; rw [h25, h7, h11, h15, h19, h22, h23]; rfl))
theorem RoundTrip.vslidedn (d a b : BitVec 4) (k : BitVec 3) (z : BitVec 1) (l : BitVec 2) : RoundTrip.Statement (.vslidedn d a b k z l) := by
  obtain ⟨h25, h23, h22, h19, h15, h11, h7, h0⟩ := slices_7_2_1_3_4_4_4_7 3#7 l z k b a d 71#7
  exact roundTrip_full rfl (full_bit h0) ((word_decMaj23 h0).trans (by unfold decMaj23; rw [h25, h7, h11, h15, h19, h22, h23]; rfl))
theorem RoundTrip.vcompress (d a : BitVec 4) (k : BitVec 3) (l : BitVec 2) : RoundTrip.Statement (.vcompress d a k l) := by
  obtain ⟨h25, h23, h22, h19, h15, h11, h7, h0⟩ := slices_7_2_1_3_4_4_4_7 4#7 l 0#1 k 0#4 a d 71#7
  exact roundTrip_full rfl (full_bit h0) ((word_decMaj23 h0).trans (by unfold decMaj23; rw [h25, h15, h22, h7, h11, h19, h23]; rfl))
theorem RoundTrip.vexpand (d a : BitVec 4) (k : BitVec 3) (z : BitVec 1) (l : BitVec 2) : RoundTrip.Statement (.vexpand d a k z l) := by
  obtain ⟨h25, h23, h22, h19, h15, h11, h7, h0⟩ := slices_7_2_1_3_4_4_4_7 5#7 l z k 0#4 a d 71#7
  exact roundTrip_full rfl (full_bit h0) ((word_decMaj23 h0).trans (by unfold decMaj23; rw [h25, h15, h7, h11, h19, h22, h23]; rfl))
theorem RoundTrip.vmov (d a : BitVec 4) (k : BitVec 3) (z : BitVec 1) (l : BitVec 2) : RoundTrip.Statement (.vmov d a k z l) := by
  obtain ⟨h25, h23, h22, h19, h15, h11, h7, h0⟩ := slices_7_2_1_3_4_4_4_7 6#7 l z k 0#4 a d 71#7
  exact roundTrip_full rfl (full_bit h0) ((word_decMaj23 h0).trans (by unfold decMaj23; rw [h25, h15, h7, h11, h19, h22, h23]; rfl))
theorem RoundTrip.vredadd (d a : BitVec 4) (k : BitVec 3) (z : BitVec 1) (l : BitVec 2) : RoundTrip.Statement (.vredadd d a k z l) := by
  obtain ⟨h25, h23, h22, h19, h15, h11, h7, h0⟩ := slices_7_2_1_3_4_4_4_7 0#7 l z k 0#4 a d 73#7
  exact roundTrip_full rfl (full_bit h0) ((word_decMaj24 h0).trans (by unfold decMaj24; rw [h25, h15, h7, h11, h19, h22, h23]; rfl))
theorem RoundTrip.vredmin (d a : BitVec 4) (k : BitVec 3) (z : BitVec 1) (l : BitVec 2) : RoundTrip.Statement (.vredmin d a k z l) := by
  obtain ⟨h25, h23, h22, h19, h15, h11, h7, h0⟩ := slices_7_2_1_3_4_4_4_7 1#7 l z k 0#4 a d 73#7
  exact roundTrip_full rfl (full_bit h0) ((word_decMaj24 h0).trans (by unfold decMaj24; rw [h25, h15, h7, h11, h19, h22, h23]; rfl))
theorem RoundTrip.vredmax (d a : BitVec 4) (k : BitVec 3) (z : BitVec 1) (l : BitVec 2) : RoundTrip.Statement (.vredmax d a k z l) := by
  obtain ⟨h25, h23, h22, h19, h15, h11, h7, h0⟩ := slices_7_2_1_3_4_4_4_7 2#7 l z k 0#4 a d 73#7
  exact roundTrip_full rfl (full_bit h0) ((word_decMaj24 h0).trans (by unfold decMaj24; rw [h25, h15, h7, h11, h19, h22, h23]; rfl))
theorem RoundTrip.vredminn (d a : BitVec 4) (k : BitVec 3) (z : BitVec 1) (l : BitVec 2) : RoundTrip.Statement (.vredminn d a k z l) := by
  obtain ⟨h25, h23, h22, h19, h15, h11, h7, h0⟩ := slices_7_2_1_3_4_4_4_7 3#7 l z k 0#4 a d 73#7
  exact roundTrip_full rfl (full_bit h0) ((word_decMaj24 h0).trans (by unfold decMaj24; rw [h25, h15, h7, h11, h19, h22, h23]; rfl))
theorem RoundTrip.vredmaxn (d a : BitVec 4) (k : BitVec 3) (z : BitVec 1) (l : BitVec 2) : RoundTrip.Statement (.vredmaxn d a k z l) := by
  obtain ⟨h25, h23, h22, h19, h15, h11, h7, h0⟩ := slices_7_2_1_3_4_4_4_7 4#7 l z k 0#4 a d 73#7
  exact roundTrip_full rfl (full_bit h0) ((word_decMaj24 h0).trans (by unfold decMaj24; rw [h25, h15, h7, h11, h19, h22, h23]; rfl))
theorem RoundTrip.vredfadd (d a : BitVec 4) (k : BitVec 3) (z : BitVec 1) (l : BitVec 2) : RoundTrip.Statement (.vredfadd d a k z l) := by
  obtain ⟨h25, h23, h22, h19, h15, h11, h7, h0⟩ := slices_7_2_1_3_4_4_4_7 5#7 l z k 0#4 a d 73#7
  exact roundTrip_full rfl (full_bit h0) ((word_decMaj24 h0).trans (by unfold decMaj24; rw [h25, h15, h7, h11, h19, h22, h23]; rfl))
theorem RoundTrip.vredfmin (d a : BitVec 4) (k : BitVec 3) (z : BitVec 1) (l : BitVec 2) : RoundTrip.Statement (.vredfmin d a k z l) := by
  obtain ⟨h25, h23, h22, h19, h15, h11, h7, h0⟩ := slices_7_2_1_3_4_4_4_7 6#7 l z k 0#4 a d 73#7
  exact roundTrip_full rfl (full_bit h0) ((word_decMaj24 h0).trans (by unfold decMaj24; rw [h25, h15, h7, h11, h19, h22, h23]; rfl))
theorem RoundTrip.vredfmax (d a : BitVec 4) (k : BitVec 3) (z : BitVec 1) (l : BitVec 2) : RoundTrip.Statement (.vredfmax d a k z l) := by
  obtain ⟨h25, h23, h22, h19, h15, h11, h7, h0⟩ := slices_7_2_1_3_4_4_4_7 7#7 l z k 0#4 a d 73#7
  exact roundTrip_full rfl (full_bit h0) ((word_decMaj24 h0).trans (by unfold decMaj24; rw [h25, h15, h7, h11, h19, h22, h23]; rfl))
theorem RoundTrip.vscan (d a : BitVec 4) (k : BitVec 3) (z : BitVec 1) (l : BitVec 2) : RoundTrip.Statement (.vscan d a k z l) := by
  obtain ⟨h25, h23, h22, h19, h15, h11, h7, h0⟩ := slices_7_2_1_3_4_4_4_7 8#7 l z k 0#4 a d 73#7
  exact roundTrip_full rfl (full_bit h0) ((word_decMaj24 h0).trans (by unfold decMaj24; rw [h25, h15, h7, h11, h19, h22, h23]; rfl))
theorem RoundTrip.vfscan (d a : BitVec 4) (k : BitVec 3) (z : BitVec 1) (l : BitVec 2) : RoundTrip.Statement (.vfscan d a k z l) := by
  obtain ⟨h25, h23, h22, h19, h15, h11, h7, h0⟩ := slices_7_2_1_3_4_4_4_7 9#7 l z k 0#4 a d 73#7
  exact roundTrip_full rfl (full_bit h0) ((word_decMaj24 h0).trans (by unfold decMaj24; rw [h25, h15, h7, h11, h19, h22, h23]; rfl))
theorem RoundTrip.vdot (d a b : BitVec 4) (k : BitVec 3) (z l : BitVec 1) : RoundTrip.Statement (.vdot d a b k z l) := by
  obtain ⟨h24, h23, h22, h19, h15, h11, h7, h0⟩ := slices_8_1_1_3_4_4_4_7 20#8 l z k b a d 73#7
  have e25 : (20#8 ++ l ++ z ++ k ++ b ++ a ++ d ++ 73#7 : BitVec 32).extractLsb' 25 7 = 10#7 := extract_sub h24 1 7
  have e24 : (20#8 ++ l ++ z ++ k ++ b ++ a ++ d ++ 73#7 : BitVec 32).extractLsb' 24 1 = 0#1 := extract_sub h24 0 1
  exact roundTrip_full rfl (full_bit h0) ((word_decMaj24 h0).trans (by unfold decMaj24; rw [e25, e24, h7, h11, h15, h19, h22, h23]; rfl))
theorem RoundTrip.vcvtf2b (d a sv : BitVec 4) (k : BitVec 3) (z : BitVec 1) : RoundTrip.Statement (.vcvtf2b d a sv k z) := by
  obtain ⟨h23, h22, h19, h15, h11, h7, h0⟩ := slices_9_1_3_4_4_4_7 0#9 z k sv a d 75#7
  have e25 : (0#9 ++ z ++ k ++ sv ++ a ++ d ++ 75#7 : BitVec 32).extractLsb' 25 7 = 0#7 := extract_sub h23 2 7
  have e23 : (0#9 ++ z ++ k ++ sv ++ a ++ d ++ 75#7 : BitVec 32).extractLsb' 23 2 = 0#2 := extract_sub h23 0 2
  exact roundTrip_full rfl (full_bit h0) ((word_decMaj25 h0).trans (by unfold decMaj25; rw [e25, e23, h7, h11, h15, h19, h22]; rfl))
theorem RoundTrip.vcvtb2f (d a sv : BitVec 4) (k : BitVec 3) (z : BitVec 1) : RoundTrip.Statement (.vcvtb2f d a sv k z) := by
  obtain ⟨h23, h22, h19, h15, h11, h7, h0⟩ := slices_9_1_3_4_4_4_7 4#9 z k sv a d 75#7
  have e25 : (4#9 ++ z ++ k ++ sv ++ a ++ d ++ 75#7 : BitVec 32).extractLsb' 25 7 = 1#7 := extract_sub h23 2 7
  have e23 : (4#9 ++ z ++ k ++ sv ++ a ++ d ++ 75#7 : BitVec 32).extractLsb' 23 2 = 0#2 := extract_sub h23 0 2
  exact roundTrip_full rfl (full_bit h0) ((word_decMaj25 h0).trans (by unfold decMaj25; rw [e25, e23, h7, h11, h15, h19, h22]; rfl))
theorem RoundTrip.vcvtf2h (d a sv : BitVec 4) (k : BitVec 3) (z : BitVec 1) : RoundTrip.Statement (.vcvtf2h d a sv k z) := by
  obtain ⟨h23, h22, h19, h15, h11, h7, h0⟩ := slices_9_1_3_4_4_4_7 8#9 z k sv a d 75#7
  have e25 : (8#9 ++ z ++ k ++ sv ++ a ++ d ++ 75#7 : BitVec 32).extractLsb' 25 7 = 2#7 := extract_sub h23 2 7
  have e23 : (8#9 ++ z ++ k ++ sv ++ a ++ d ++ 75#7 : BitVec 32).extractLsb' 23 2 = 0#2 := extract_sub h23 0 2
  exact roundTrip_full rfl (full_bit h0) ((word_decMaj25 h0).trans (by unfold decMaj25; rw [e25, e23, h7, h11, h15, h19, h22]; rfl))
theorem RoundTrip.vcvth2f (d a sv : BitVec 4) (k : BitVec 3) (z : BitVec 1) : RoundTrip.Statement (.vcvth2f d a sv k z) := by
  obtain ⟨h23, h22, h19, h15, h11, h7, h0⟩ := slices_9_1_3_4_4_4_7 12#9 z k sv a d 75#7
  have e25 : (12#9 ++ z ++ k ++ sv ++ a ++ d ++ 75#7 : BitVec 32).extractLsb' 25 7 = 3#7 := extract_sub h23 2 7
  have e23 : (12#9 ++ z ++ k ++ sv ++ a ++ d ++ 75#7 : BitVec 32).extractLsb' 23 2 = 0#2 := extract_sub h23 0 2
  exact roundTrip_full rfl (full_bit h0) ((word_decMaj25 h0).trans (by unfold decMaj25; rw [e25, e23, h7, h11, h15, h19, h22]; rfl))
theorem RoundTrip.vcvtf2e4 (d a sv : BitVec 4) (k : BitVec 3) (z : BitVec 1) : RoundTrip.Statement (.vcvtf2e4 d a sv k z) := by
  obtain ⟨h23, h22, h19, h15, h11, h7, h0⟩ := slices_9_1_3_4_4_4_7 16#9 z k sv a d 75#7
  have e25 : (16#9 ++ z ++ k ++ sv ++ a ++ d ++ 75#7 : BitVec 32).extractLsb' 25 7 = 4#7 := extract_sub h23 2 7
  have e23 : (16#9 ++ z ++ k ++ sv ++ a ++ d ++ 75#7 : BitVec 32).extractLsb' 23 2 = 0#2 := extract_sub h23 0 2
  exact roundTrip_full rfl (full_bit h0) ((word_decMaj25 h0).trans (by unfold decMaj25; rw [e25, e23, h7, h11, h15, h19, h22]; rfl))
theorem RoundTrip.vcvte42f (d a sv : BitVec 4) (k : BitVec 3) (z : BitVec 1) : RoundTrip.Statement (.vcvte42f d a sv k z) := by
  obtain ⟨h23, h22, h19, h15, h11, h7, h0⟩ := slices_9_1_3_4_4_4_7 20#9 z k sv a d 75#7
  have e25 : (20#9 ++ z ++ k ++ sv ++ a ++ d ++ 75#7 : BitVec 32).extractLsb' 25 7 = 5#7 := extract_sub h23 2 7
  have e23 : (20#9 ++ z ++ k ++ sv ++ a ++ d ++ 75#7 : BitVec 32).extractLsb' 23 2 = 0#2 := extract_sub h23 0 2
  exact roundTrip_full rfl (full_bit h0) ((word_decMaj25 h0).trans (by unfold decMaj25; rw [e25, e23, h7, h11, h15, h19, h22]; rfl))
theorem RoundTrip.vcvtf2e5 (d a sv : BitVec 4) (k : BitVec 3) (z : BitVec 1) : RoundTrip.Statement (.vcvtf2e5 d a sv k z) := by
  obtain ⟨h23, h22, h19, h15, h11, h7, h0⟩ := slices_9_1_3_4_4_4_7 24#9 z k sv a d 75#7
  have e25 : (24#9 ++ z ++ k ++ sv ++ a ++ d ++ 75#7 : BitVec 32).extractLsb' 25 7 = 6#7 := extract_sub h23 2 7
  have e23 : (24#9 ++ z ++ k ++ sv ++ a ++ d ++ 75#7 : BitVec 32).extractLsb' 23 2 = 0#2 := extract_sub h23 0 2
  exact roundTrip_full rfl (full_bit h0) ((word_decMaj25 h0).trans (by unfold decMaj25; rw [e25, e23, h7, h11, h15, h19, h22]; rfl))
theorem RoundTrip.vcvte52f (d a sv : BitVec 4) (k : BitVec 3) (z : BitVec 1) : RoundTrip.Statement (.vcvte52f d a sv k z) := by
  obtain ⟨h23, h22, h19, h15, h11, h7, h0⟩ := slices_9_1_3_4_4_4_7 28#9 z k sv a d 75#7
  have e25 : (28#9 ++ z ++ k ++ sv ++ a ++ d ++ 75#7 : BitVec 32).extractLsb' 25 7 = 7#7 := extract_sub h23 2 7
  have e23 : (28#9 ++ z ++ k ++ sv ++ a ++ d ++ 75#7 : BitVec 32).extractLsb' 23 2 = 0#2 := extract_sub h23 0 2
  exact roundTrip_full rfl (full_bit h0) ((word_decMaj25 h0).trans (by unfold decMaj25; rw [e25, e23, h7, h11, h15, h19, h22]; rfl))
theorem RoundTrip.vcvtf2w (d a sv : BitVec 4) (k : BitVec 3) (z : BitVec 1) : RoundTrip.Statement (.vcvtf2w d a sv k z) := by
  obtain ⟨h23, h22, h19, h15, h11, h7, h0⟩ := slices_9_1_3_4_4_4_7 32#9 z k sv a d 75#7
  have e25 : (32#9 ++ z ++ k ++ sv ++ a ++ d ++ 75#7 : BitVec 32).extractLsb' 25 7 = 8#7 := extract_sub h23 2 7
  have e23 : (32#9 ++ z ++ k ++ sv ++ a ++ d ++ 75#7 : BitVec 32).extractLsb' 23 2 = 0#2 := extract_sub h23 0 2
  exact roundTrip_full rfl (full_bit h0) ((word_decMaj25 h0).trans (by unfold decMaj25; rw [e25, e23, h7, h11, h15, h19, h22]; rfl))
theorem RoundTrip.vcvtw2f (d a sv : BitVec 4) (k : BitVec 3) (z : BitVec 1) : RoundTrip.Statement (.vcvtw2f d a sv k z) := by
  obtain ⟨h23, h22, h19, h15, h11, h7, h0⟩ := slices_9_1_3_4_4_4_7 36#9 z k sv a d 75#7
  have e25 : (36#9 ++ z ++ k ++ sv ++ a ++ d ++ 75#7 : BitVec 32).extractLsb' 25 7 = 9#7 := extract_sub h23 2 7
  have e23 : (36#9 ++ z ++ k ++ sv ++ a ++ d ++ 75#7 : BitVec 32).extractLsb' 23 2 = 0#2 := extract_sub h23 0 2
  exact roundTrip_full rfl (full_bit h0) ((word_decMaj25 h0).trans (by unfold decMaj25; rw [e25, e23, h7, h11, h15, h19, h22]; rfl))
theorem RoundTrip.vcvtw2i8 (d a sv : BitVec 4) (k : BitVec 3) (z : BitVec 1) : RoundTrip.Statement (.vcvtw2i8 d a sv k z) := by
  obtain ⟨h23, h22, h19, h15, h11, h7, h0⟩ := slices_9_1_3_4_4_4_7 40#9 z k sv a d 75#7
  have e25 : (40#9 ++ z ++ k ++ sv ++ a ++ d ++ 75#7 : BitVec 32).extractLsb' 25 7 = 10#7 := extract_sub h23 2 7
  have e23 : (40#9 ++ z ++ k ++ sv ++ a ++ d ++ 75#7 : BitVec 32).extractLsb' 23 2 = 0#2 := extract_sub h23 0 2
  exact roundTrip_full rfl (full_bit h0) ((word_decMaj25 h0).trans (by unfold decMaj25; rw [e25, e23, h7, h11, h15, h19, h22]; rfl))
theorem RoundTrip.vcvti82w (d a sv : BitVec 4) (k : BitVec 3) (z : BitVec 1) : RoundTrip.Statement (.vcvti82w d a sv k z) := by
  obtain ⟨h23, h22, h19, h15, h11, h7, h0⟩ := slices_9_1_3_4_4_4_7 44#9 z k sv a d 75#7
  have e25 : (44#9 ++ z ++ k ++ sv ++ a ++ d ++ 75#7 : BitVec 32).extractLsb' 25 7 = 11#7 := extract_sub h23 2 7
  have e23 : (44#9 ++ z ++ k ++ sv ++ a ++ d ++ 75#7 : BitVec 32).extractLsb' 23 2 = 0#2 := extract_sub h23 0 2
  exact roundTrip_full rfl (full_bit h0) ((word_decMaj25 h0).trans (by unfold decMaj25; rw [e25, e23, h7, h11, h15, h19, h22]; rfl))
theorem RoundTrip.vcvtw2i4 (d a sv : BitVec 4) (k : BitVec 3) (z : BitVec 1) : RoundTrip.Statement (.vcvtw2i4 d a sv k z) := by
  obtain ⟨h23, h22, h19, h15, h11, h7, h0⟩ := slices_9_1_3_4_4_4_7 48#9 z k sv a d 75#7
  have e25 : (48#9 ++ z ++ k ++ sv ++ a ++ d ++ 75#7 : BitVec 32).extractLsb' 25 7 = 12#7 := extract_sub h23 2 7
  have e23 : (48#9 ++ z ++ k ++ sv ++ a ++ d ++ 75#7 : BitVec 32).extractLsb' 23 2 = 0#2 := extract_sub h23 0 2
  exact roundTrip_full rfl (full_bit h0) ((word_decMaj25 h0).trans (by unfold decMaj25; rw [e25, e23, h7, h11, h15, h19, h22]; rfl))
theorem RoundTrip.vcvti42w (d a sv : BitVec 4) (k : BitVec 3) (z : BitVec 1) : RoundTrip.Statement (.vcvti42w d a sv k z) := by
  obtain ⟨h23, h22, h19, h15, h11, h7, h0⟩ := slices_9_1_3_4_4_4_7 52#9 z k sv a d 75#7
  have e25 : (52#9 ++ z ++ k ++ sv ++ a ++ d ++ 75#7 : BitVec 32).extractLsb' 25 7 = 13#7 := extract_sub h23 2 7
  have e23 : (52#9 ++ z ++ k ++ sv ++ a ++ d ++ 75#7 : BitVec 32).extractLsb' 23 2 = 0#2 := extract_sub h23 0 2
  exact roundTrip_full rfl (full_bit h0) ((word_decMaj25 h0).trans (by unfold decMaj25; rw [e25, e23, h7, h11, h15, h19, h22]; rfl))
theorem RoundTrip.vcvtd2f (d a sv : BitVec 4) (k : BitVec 3) (z : BitVec 1) : RoundTrip.Statement (.vcvtd2f d a sv k z) := by
  obtain ⟨h23, h22, h19, h15, h11, h7, h0⟩ := slices_9_1_3_4_4_4_7 56#9 z k sv a d 75#7
  have e25 : (56#9 ++ z ++ k ++ sv ++ a ++ d ++ 75#7 : BitVec 32).extractLsb' 25 7 = 14#7 := extract_sub h23 2 7
  have e23 : (56#9 ++ z ++ k ++ sv ++ a ++ d ++ 75#7 : BitVec 32).extractLsb' 23 2 = 0#2 := extract_sub h23 0 2
  exact roundTrip_full rfl (full_bit h0) ((word_decMaj25 h0).trans (by unfold decMaj25; rw [e25, e23, h7, h11, h15, h19, h22]; rfl))
theorem RoundTrip.vcvtf2d (d a sv : BitVec 4) (k : BitVec 3) (z : BitVec 1) : RoundTrip.Statement (.vcvtf2d d a sv k z) := by
  obtain ⟨h23, h22, h19, h15, h11, h7, h0⟩ := slices_9_1_3_4_4_4_7 60#9 z k sv a d 75#7
  have e25 : (60#9 ++ z ++ k ++ sv ++ a ++ d ++ 75#7 : BitVec 32).extractLsb' 25 7 = 15#7 := extract_sub h23 2 7
  have e23 : (60#9 ++ z ++ k ++ sv ++ a ++ d ++ 75#7 : BitVec 32).extractLsb' 23 2 = 0#2 := extract_sub h23 0 2
  exact roundTrip_full rfl (full_bit h0) ((word_decMaj25 h0).trans (by unfold decMaj25; rw [e25, e23, h7, h11, h15, h19, h22]; rfl))
theorem RoundTrip.vqnt (d a q : BitVec 4) (k : BitVec 3) (l : BitVec 2) : RoundTrip.Statement (.vqnt d a q k l) := by
  obtain ⟨h25, h23, h22, h19, h15, h11, h7, h0⟩ := slices_7_2_1_3_4_4_4_7 16#7 l 0#1 k q a d 75#7
  exact roundTrip_full rfl (full_bit h0) ((word_decMaj25 h0).trans (by unfold decMaj25; rw [h25, h22, h7, h11, h15, h19, h23]; rfl))
theorem RoundTrip.vdqnt (d a q : BitVec 4) (k : BitVec 3) (z : BitVec 1) (l : BitVec 2) : RoundTrip.Statement (.vdqnt d a q k z l) := by
  obtain ⟨h25, h23, h22, h19, h15, h11, h7, h0⟩ := slices_7_2_1_3_4_4_4_7 17#7 l z k q a d 75#7
  exact roundTrip_full rfl (full_bit h0) ((word_decMaj25 h0).trans (by unfold decMaj25; rw [h25, h7, h11, h15, h19, h22, h23]; rfl))
theorem RoundTrip.baddq (d a b : BitVec 4) (l : BitVec 1) : RoundTrip.Statement (.baddq d a b l) := by
  obtain ⟨h24, h23, h19, h15, h11, h7, h0⟩ := slices_8_1_4_4_4_4_7 36#8 l 0#4 b a d 75#7
  have e25 : (36#8 ++ l ++ 0#4 ++ b ++ a ++ d ++ 75#7 : BitVec 32).extractLsb' 25 7 = 18#7 := extract_sub h24 1 7
  have e24 : (36#8 ++ l ++ 0#4 ++ b ++ a ++ d ++ 75#7 : BitVec 32).extractLsb' 24 1 = 0#1 := extract_sub h24 0 1
  exact roundTrip_full rfl (full_bit h0) ((word_decMaj25 h0).trans (by unfold decMaj25; rw [e25, h19, e24, h7, h11, h15, h23]; rfl))
theorem RoundTrip.vbsc (d a b : BitVec 4) (k : BitVec 3) (z : BitVec 1) (l : BitVec 2) : RoundTrip.Statement (.vbsc d a b k z l) := by
  obtain ⟨h25, h23, h22, h19, h15, h11, h7, h0⟩ := slices_7_2_1_3_4_4_4_7 19#7 l z k b a d 75#7
  exact roundTrip_full rfl (full_bit h0) ((word_decMaj25 h0).trans (by unfold decMaj25; rw [h25, h7, h11, h15, h19, h22, h23]; rfl))
theorem RoundTrip.vbexp (d a b : BitVec 4) (k : BitVec 3) (l : BitVec 2) : RoundTrip.Statement (.vbexp d a b k l) := by
  obtain ⟨h25, h23, h22, h19, h15, h11, h7, h0⟩ := slices_7_2_1_3_4_4_4_7 20#7 l 0#1 k b a d 75#7
  exact roundTrip_full rfl (full_bit h0) ((word_decMaj25 h0).trans (by unfold decMaj25; rw [h25, h22, h7, h11, h15, h19, h23]; rfl))
theorem RoundTrip.vld (v : BitVec 4) (a : BitVec 7) (k : BitVec 3) (l sv : BitVec 2) : RoundTrip.Statement (.vld v a k l sv) := by
  obtain ⟨h30, h27, h25, h22, h18, h11, h7, h0⟩ := slices_2_3_2_3_4_7_4_7 sv 0#3 l k 0#4 a v 77#7
  exact roundTrip_full rfl (full_bit h0) ((word_decMaj26 h0).trans (by unfold decMaj26; rw [h27, h18, h7, h11, h22, h25, h30]; rfl))
theorem RoundTrip.vst (v : BitVec 4) (a : BitVec 7) (k : BitVec 3) (l sv : BitVec 2) : RoundTrip.Statement (.vst v a k l sv) := by
  obtain ⟨h30, h27, h25, h22, h18, h11, h7, h0⟩ := slices_2_3_2_3_4_7_4_7 sv 1#3 l k 0#4 a v 77#7
  exact roundTrip_full rfl (full_bit h0) ((word_decMaj26 h0).trans (by unfold decMaj26; rw [h27, h18, h7, h11, h22, h25, h30]; rfl))
theorem RoundTrip.vlds (v : BitVec 4) (a : BitVec 7) (b : BitVec 4) (k : BitVec 3) (l sv : BitVec 2) : RoundTrip.Statement (.vlds v a b k l sv) := by
  obtain ⟨h30, h27, h25, h22, h18, h11, h7, h0⟩ := slices_2_3_2_3_4_7_4_7 sv 2#3 l k b a v 77#7
  exact roundTrip_full rfl (full_bit h0) ((word_decMaj26 h0).trans (by unfold decMaj26; rw [h27, h7, h11, h18, h22, h25, h30]; rfl))
theorem RoundTrip.vsts (v : BitVec 4) (a : BitVec 7) (b : BitVec 4) (k : BitVec 3) (l sv : BitVec 2) : RoundTrip.Statement (.vsts v a b k l sv) := by
  obtain ⟨h30, h27, h25, h22, h18, h11, h7, h0⟩ := slices_2_3_2_3_4_7_4_7 sv 3#3 l k b a v 77#7
  exact roundTrip_full rfl (full_bit h0) ((word_decMaj26 h0).trans (by unfold decMaj26; rw [h27, h7, h11, h18, h22, h25, h30]; rfl))
theorem RoundTrip.vgath (v : BitVec 4) (a : BitVec 7) (b : BitVec 4) (k : BitVec 3) (l sv : BitVec 2) : RoundTrip.Statement (.vgath v a b k l sv) := by
  obtain ⟨h30, h27, h25, h22, h18, h11, h7, h0⟩ := slices_2_3_2_3_4_7_4_7 sv 4#3 l k b a v 77#7
  exact roundTrip_full rfl (full_bit h0) ((word_decMaj26 h0).trans (by unfold decMaj26; rw [h27, h7, h11, h18, h22, h25, h30]; rfl))
theorem RoundTrip.vscat (v : BitVec 4) (a : BitVec 7) (b : BitVec 4) (k : BitVec 3) (l sv : BitVec 2) : RoundTrip.Statement (.vscat v a b k l sv) := by
  obtain ⟨h30, h27, h25, h22, h18, h11, h7, h0⟩ := slices_2_3_2_3_4_7_4_7 sv 5#3 l k b a v 77#7
  exact roundTrip_full rfl (full_bit h0) ((word_decMaj26 h0).trans (by unfold decMaj26; rw [h27, h7, h11, h18, h22, h25, h30]; rfl))
theorem RoundTrip.vldf (v : BitVec 4) (a : BitVec 7) (k : BitVec 3) (l sv : BitVec 2) : RoundTrip.Statement (.vldf v a k l sv) := by
  obtain ⟨h30, h27, h25, h22, h18, h11, h7, h0⟩ := slices_2_3_2_3_4_7_4_7 sv 6#3 l k 0#4 a v 77#7
  exact roundTrip_full rfl (full_bit h0) ((word_decMaj26 h0).trans (by unfold decMaj26; rw [h27, h18, h7, h11, h22, h25, h30]; rfl))
theorem RoundTrip.kand (d a b : BitVec 3) : RoundTrip.Statement (.kand d a b) := by
  obtain ⟨h24, h21, h17, h14, h10, h7, h0⟩ := slices_8_3_4_3_4_3_7 0#8 b 0#4 a 0#4 d 79#7
  have e28 : (0#8 ++ b ++ 0#4 ++ a ++ 0#4 ++ d ++ 79#7 : BitVec 32).extractLsb' 28 4 = 0#4 := extract_sub h24 4 4
  have e24 : (0#8 ++ b ++ 0#4 ++ a ++ 0#4 ++ d ++ 79#7 : BitVec 32).extractLsb' 24 4 = 0#4 := extract_sub h24 0 4
  exact roundTrip_full rfl (full_bit h0) ((word_decMaj27 h0).trans (by unfold decMaj27; rw [e28, h10, h17, e24, h7, h14, h21]; rfl))
theorem RoundTrip.kor (d a b : BitVec 3) : RoundTrip.Statement (.kor d a b) := by
  obtain ⟨h24, h21, h17, h14, h10, h7, h0⟩ := slices_8_3_4_3_4_3_7 16#8 b 0#4 a 0#4 d 79#7
  have e28 : (16#8 ++ b ++ 0#4 ++ a ++ 0#4 ++ d ++ 79#7 : BitVec 32).extractLsb' 28 4 = 1#4 := extract_sub h24 4 4
  have e24 : (16#8 ++ b ++ 0#4 ++ a ++ 0#4 ++ d ++ 79#7 : BitVec 32).extractLsb' 24 4 = 0#4 := extract_sub h24 0 4
  exact roundTrip_full rfl (full_bit h0) ((word_decMaj27 h0).trans (by unfold decMaj27; rw [e28, h10, h17, e24, h7, h14, h21]; rfl))
theorem RoundTrip.kxor (d a b : BitVec 3) : RoundTrip.Statement (.kxor d a b) := by
  obtain ⟨h24, h21, h17, h14, h10, h7, h0⟩ := slices_8_3_4_3_4_3_7 32#8 b 0#4 a 0#4 d 79#7
  have e28 : (32#8 ++ b ++ 0#4 ++ a ++ 0#4 ++ d ++ 79#7 : BitVec 32).extractLsb' 28 4 = 2#4 := extract_sub h24 4 4
  have e24 : (32#8 ++ b ++ 0#4 ++ a ++ 0#4 ++ d ++ 79#7 : BitVec 32).extractLsb' 24 4 = 0#4 := extract_sub h24 0 4
  exact roundTrip_full rfl (full_bit h0) ((word_decMaj27 h0).trans (by unfold decMaj27; rw [e28, h10, h17, e24, h7, h14, h21]; rfl))
theorem RoundTrip.kandn (d a b : BitVec 3) : RoundTrip.Statement (.kandn d a b) := by
  obtain ⟨h24, h21, h17, h14, h10, h7, h0⟩ := slices_8_3_4_3_4_3_7 48#8 b 0#4 a 0#4 d 79#7
  have e28 : (48#8 ++ b ++ 0#4 ++ a ++ 0#4 ++ d ++ 79#7 : BitVec 32).extractLsb' 28 4 = 3#4 := extract_sub h24 4 4
  have e24 : (48#8 ++ b ++ 0#4 ++ a ++ 0#4 ++ d ++ 79#7 : BitVec 32).extractLsb' 24 4 = 0#4 := extract_sub h24 0 4
  exact roundTrip_full rfl (full_bit h0) ((word_decMaj27 h0).trans (by unfold decMaj27; rw [e28, h10, h17, e24, h7, h14, h21]; rfl))
theorem RoundTrip.knot (d a : BitVec 3) : RoundTrip.Statement (.knot d a) := by
  obtain ⟨h17, h14, h10, h7, h0⟩ := slices_15_3_4_3_7 8192#15 a 0#4 d 79#7
  have e28 : (8192#15 ++ a ++ 0#4 ++ d ++ 79#7 : BitVec 32).extractLsb' 28 4 = 4#4 := extract_sub h17 11 4
  have e17 : (8192#15 ++ a ++ 0#4 ++ d ++ 79#7 : BitVec 32).extractLsb' 17 11 = 0#11 := extract_sub h17 0 11
  exact roundTrip_full rfl (full_bit h0) ((word_decMaj27 h0).trans (by unfold decMaj27; rw [e28, h10, e17, h7, h14]; rfl))
theorem RoundTrip.kmov (d a : BitVec 3) : RoundTrip.Statement (.kmov d a) := by
  obtain ⟨h17, h14, h10, h7, h0⟩ := slices_15_3_4_3_7 10240#15 a 0#4 d 79#7
  have e28 : (10240#15 ++ a ++ 0#4 ++ d ++ 79#7 : BitVec 32).extractLsb' 28 4 = 5#4 := extract_sub h17 11 4
  have e17 : (10240#15 ++ a ++ 0#4 ++ d ++ 79#7 : BitVec 32).extractLsb' 17 11 = 0#11 := extract_sub h17 0 11
  exact roundTrip_full rfl (full_bit h0) ((word_decMaj27 h0).trans (by unfold decMaj27; rw [e28, h10, e17, h7, h14]; rfl))
theorem RoundTrip.kpopc (d : BitVec 7) (a : BitVec 3) : RoundTrip.Statement (.kpopc d a) := by
  obtain ⟨h17, h14, h7, h0⟩ := slices_15_3_7_7 12288#15 a d 79#7
  have e28 : (12288#15 ++ a ++ d ++ 79#7 : BitVec 32).extractLsb' 28 4 = 6#4 := extract_sub h17 11 4
  have e17 : (12288#15 ++ a ++ d ++ 79#7 : BitVec 32).extractLsb' 17 11 = 0#11 := extract_sub h17 0 11
  exact roundTrip_full rfl (full_bit h0) ((word_decMaj27 h0).trans (by unfold decMaj27; rw [e28, e17, h7, h14]; rfl))
theorem RoundTrip.kfirst (d : BitVec 7) (a : BitVec 3) : RoundTrip.Statement (.kfirst d a) := by
  obtain ⟨h17, h14, h7, h0⟩ := slices_15_3_7_7 14336#15 a d 79#7
  have e28 : (14336#15 ++ a ++ d ++ 79#7 : BitVec 32).extractLsb' 28 4 = 7#4 := extract_sub h17 11 4
  have e17 : (14336#15 ++ a ++ d ++ 79#7 : BitVec 32).extractLsb' 17 11 = 0#11 := extract_sub h17 0 11
  exact roundTrip_full rfl (full_bit h0) ((word_decMaj27 h0).trans (by unfold decMaj27; rw [e28, e17, h7, h14]; rfl))
theorem RoundTrip.kfromg (d : BitVec 3) (a : BitVec 7) : RoundTrip.Statement (.kfromg d a) := by
  obtain ⟨h21, h14, h10, h7, h0⟩ := slices_11_7_4_3_7 1024#11 a 0#4 d 79#7
  have e28 : (1024#11 ++ a ++ 0#4 ++ d ++ 79#7 : BitVec 32).extractLsb' 28 4 = 8#4 := extract_sub h21 7 4
  have e21 : (1024#11 ++ a ++ 0#4 ++ d ++ 79#7 : BitVec 32).extractLsb' 21 7 = 0#7 := extract_sub h21 0 7
  exact roundTrip_full rfl (full_bit h0) ((word_decMaj27 h0).trans (by unfold decMaj27; rw [e28, h10, e21, h7, h14]; rfl))
theorem RoundTrip.ktog (d : BitVec 7) (a : BitVec 3) : RoundTrip.Statement (.ktog d a) := by
  obtain ⟨h17, h14, h7, h0⟩ := slices_15_3_7_7 18432#15 a d 79#7
  have e28 : (18432#15 ++ a ++ d ++ 79#7 : BitVec 32).extractLsb' 28 4 = 9#4 := extract_sub h17 11 4
  have e17 : (18432#15 ++ a ++ d ++ 79#7 : BitVec 32).extractLsb' 17 11 = 0#11 := extract_sub h17 0 11
  exact roundTrip_full rfl (full_bit h0) ((word_decMaj27 h0).trans (by unfold decMaj27; rw [e28, e17, h7, h14]; rfl))
theorem RoundTrip.faddF32 (d a b : BitVec 7) : RoundTrip.Statement (.faddF32 d a b) := by
  obtain ⟨h28, h21, h14, h7, h0⟩ := slices_4_7_7_7_7 0#4 b a d 81#7
  exact roundTrip_full rfl (full_bit h0) ((word_decMaj28 h0).trans (by unfold decMaj28; rw [h28, h7, h14, h21]; rfl))
theorem RoundTrip.fsubF32 (d a b : BitVec 7) : RoundTrip.Statement (.fsubF32 d a b) := by
  obtain ⟨h28, h21, h14, h7, h0⟩ := slices_4_7_7_7_7 1#4 b a d 81#7
  exact roundTrip_full rfl (full_bit h0) ((word_decMaj28 h0).trans (by unfold decMaj28; rw [h28, h7, h14, h21]; rfl))
theorem RoundTrip.fmulF32 (d a b : BitVec 7) : RoundTrip.Statement (.fmulF32 d a b) := by
  obtain ⟨h28, h21, h14, h7, h0⟩ := slices_4_7_7_7_7 2#4 b a d 81#7
  exact roundTrip_full rfl (full_bit h0) ((word_decMaj28 h0).trans (by unfold decMaj28; rw [h28, h7, h14, h21]; rfl))
theorem RoundTrip.fdivF32 (d a b : BitVec 7) : RoundTrip.Statement (.fdivF32 d a b) := by
  obtain ⟨h28, h21, h14, h7, h0⟩ := slices_4_7_7_7_7 3#4 b a d 81#7
  exact roundTrip_full rfl (full_bit h0) ((word_decMaj28 h0).trans (by unfold decMaj28; rw [h28, h7, h14, h21]; rfl))
theorem RoundTrip.fsqrtF32 (d a : BitVec 7) : RoundTrip.Statement (.fsqrtF32 d a) := by
  obtain ⟨h21, h14, h7, h0⟩ := slices_11_7_7_7 512#11 a d 81#7
  have e28 : (512#11 ++ a ++ d ++ 81#7 : BitVec 32).extractLsb' 28 4 = 4#4 := extract_sub h21 7 4
  have e21 : (512#11 ++ a ++ d ++ 81#7 : BitVec 32).extractLsb' 21 7 = 0#7 := extract_sub h21 0 7
  exact roundTrip_full rfl (full_bit h0) ((word_decMaj28 h0).trans (by unfold decMaj28; rw [e28, e21, h7, h14]; rfl))
theorem RoundTrip.fminF32 (d a b : BitVec 7) : RoundTrip.Statement (.fminF32 d a b) := by
  obtain ⟨h28, h21, h14, h7, h0⟩ := slices_4_7_7_7_7 5#4 b a d 81#7
  exact roundTrip_full rfl (full_bit h0) ((word_decMaj28 h0).trans (by unfold decMaj28; rw [h28, h7, h14, h21]; rfl))
theorem RoundTrip.fmaxF32 (d a b : BitVec 7) : RoundTrip.Statement (.fmaxF32 d a b) := by
  obtain ⟨h28, h21, h14, h7, h0⟩ := slices_4_7_7_7_7 6#4 b a d 81#7
  exact roundTrip_full rfl (full_bit h0) ((word_decMaj28 h0).trans (by unfold decMaj28; rw [h28, h7, h14, h21]; rfl))
theorem RoundTrip.fmaF32 (d a b : BitVec 7) : RoundTrip.Statement (.fmaF32 d a b) := by
  obtain ⟨h28, h21, h14, h7, h0⟩ := slices_4_7_7_7_7 7#4 b a d 81#7
  exact roundTrip_full rfl (full_bit h0) ((word_decMaj28 h0).trans (by unfold decMaj28; rw [h28, h7, h14, h21]; rfl))
theorem RoundTrip.fabsF32 (d a : BitVec 7) : RoundTrip.Statement (.fabsF32 d a) := by
  obtain ⟨h21, h14, h7, h0⟩ := slices_11_7_7_7 1024#11 a d 81#7
  have e28 : (1024#11 ++ a ++ d ++ 81#7 : BitVec 32).extractLsb' 28 4 = 8#4 := extract_sub h21 7 4
  have e21 : (1024#11 ++ a ++ d ++ 81#7 : BitVec 32).extractLsb' 21 7 = 0#7 := extract_sub h21 0 7
  exact roundTrip_full rfl (full_bit h0) ((word_decMaj28 h0).trans (by unfold decMaj28; rw [e28, e21, h7, h14]; rfl))
theorem RoundTrip.fnegF32 (d a : BitVec 7) : RoundTrip.Statement (.fnegF32 d a) := by
  obtain ⟨h21, h14, h7, h0⟩ := slices_11_7_7_7 1152#11 a d 81#7
  have e28 : (1152#11 ++ a ++ d ++ 81#7 : BitVec 32).extractLsb' 28 4 = 9#4 := extract_sub h21 7 4
  have e21 : (1152#11 ++ a ++ d ++ 81#7 : BitVec 32).extractLsb' 21 7 = 0#7 := extract_sub h21 0 7
  exact roundTrip_full rfl (full_bit h0) ((word_decMaj28 h0).trans (by unfold decMaj28; rw [e28, e21, h7, h14]; rfl))
theorem RoundTrip.fclassF32 (d a : BitVec 7) : RoundTrip.Statement (.fclassF32 d a) := by
  obtain ⟨h21, h14, h7, h0⟩ := slices_11_7_7_7 1280#11 a d 81#7
  have e28 : (1280#11 ++ a ++ d ++ 81#7 : BitVec 32).extractLsb' 28 4 = 10#4 := extract_sub h21 7 4
  have e21 : (1280#11 ++ a ++ d ++ 81#7 : BitVec 32).extractLsb' 21 7 = 0#7 := extract_sub h21 0 7
  exact roundTrip_full rfl (full_bit h0) ((word_decMaj28 h0).trans (by unfold decMaj28; rw [e28, e21, h7, h14]; rfl))
theorem RoundTrip.faddF64 (d a b : BitVec 7) : RoundTrip.Statement (.faddF64 d a b) := by
  obtain ⟨h28, h21, h14, h7, h0⟩ := slices_4_7_7_7_7 0#4 b a d 83#7
  exact roundTrip_full rfl (full_bit h0) ((word_decMaj29 h0).trans (by unfold decMaj29; rw [h28, h7, h14, h21]; rfl))
theorem RoundTrip.fsubF64 (d a b : BitVec 7) : RoundTrip.Statement (.fsubF64 d a b) := by
  obtain ⟨h28, h21, h14, h7, h0⟩ := slices_4_7_7_7_7 1#4 b a d 83#7
  exact roundTrip_full rfl (full_bit h0) ((word_decMaj29 h0).trans (by unfold decMaj29; rw [h28, h7, h14, h21]; rfl))
theorem RoundTrip.fmulF64 (d a b : BitVec 7) : RoundTrip.Statement (.fmulF64 d a b) := by
  obtain ⟨h28, h21, h14, h7, h0⟩ := slices_4_7_7_7_7 2#4 b a d 83#7
  exact roundTrip_full rfl (full_bit h0) ((word_decMaj29 h0).trans (by unfold decMaj29; rw [h28, h7, h14, h21]; rfl))
theorem RoundTrip.fdivF64 (d a b : BitVec 7) : RoundTrip.Statement (.fdivF64 d a b) := by
  obtain ⟨h28, h21, h14, h7, h0⟩ := slices_4_7_7_7_7 3#4 b a d 83#7
  exact roundTrip_full rfl (full_bit h0) ((word_decMaj29 h0).trans (by unfold decMaj29; rw [h28, h7, h14, h21]; rfl))
theorem RoundTrip.fsqrtF64 (d a : BitVec 7) : RoundTrip.Statement (.fsqrtF64 d a) := by
  obtain ⟨h21, h14, h7, h0⟩ := slices_11_7_7_7 512#11 a d 83#7
  have e28 : (512#11 ++ a ++ d ++ 83#7 : BitVec 32).extractLsb' 28 4 = 4#4 := extract_sub h21 7 4
  have e21 : (512#11 ++ a ++ d ++ 83#7 : BitVec 32).extractLsb' 21 7 = 0#7 := extract_sub h21 0 7
  exact roundTrip_full rfl (full_bit h0) ((word_decMaj29 h0).trans (by unfold decMaj29; rw [e28, e21, h7, h14]; rfl))
theorem RoundTrip.fminF64 (d a b : BitVec 7) : RoundTrip.Statement (.fminF64 d a b) := by
  obtain ⟨h28, h21, h14, h7, h0⟩ := slices_4_7_7_7_7 5#4 b a d 83#7
  exact roundTrip_full rfl (full_bit h0) ((word_decMaj29 h0).trans (by unfold decMaj29; rw [h28, h7, h14, h21]; rfl))
theorem RoundTrip.fmaxF64 (d a b : BitVec 7) : RoundTrip.Statement (.fmaxF64 d a b) := by
  obtain ⟨h28, h21, h14, h7, h0⟩ := slices_4_7_7_7_7 6#4 b a d 83#7
  exact roundTrip_full rfl (full_bit h0) ((word_decMaj29 h0).trans (by unfold decMaj29; rw [h28, h7, h14, h21]; rfl))
theorem RoundTrip.fmaF64 (d a b : BitVec 7) : RoundTrip.Statement (.fmaF64 d a b) := by
  obtain ⟨h28, h21, h14, h7, h0⟩ := slices_4_7_7_7_7 7#4 b a d 83#7
  exact roundTrip_full rfl (full_bit h0) ((word_decMaj29 h0).trans (by unfold decMaj29; rw [h28, h7, h14, h21]; rfl))
theorem RoundTrip.fabsF64 (d a : BitVec 7) : RoundTrip.Statement (.fabsF64 d a) := by
  obtain ⟨h21, h14, h7, h0⟩ := slices_11_7_7_7 1024#11 a d 83#7
  have e28 : (1024#11 ++ a ++ d ++ 83#7 : BitVec 32).extractLsb' 28 4 = 8#4 := extract_sub h21 7 4
  have e21 : (1024#11 ++ a ++ d ++ 83#7 : BitVec 32).extractLsb' 21 7 = 0#7 := extract_sub h21 0 7
  exact roundTrip_full rfl (full_bit h0) ((word_decMaj29 h0).trans (by unfold decMaj29; rw [e28, e21, h7, h14]; rfl))
theorem RoundTrip.fnegF64 (d a : BitVec 7) : RoundTrip.Statement (.fnegF64 d a) := by
  obtain ⟨h21, h14, h7, h0⟩ := slices_11_7_7_7 1152#11 a d 83#7
  have e28 : (1152#11 ++ a ++ d ++ 83#7 : BitVec 32).extractLsb' 28 4 = 9#4 := extract_sub h21 7 4
  have e21 : (1152#11 ++ a ++ d ++ 83#7 : BitVec 32).extractLsb' 21 7 = 0#7 := extract_sub h21 0 7
  exact roundTrip_full rfl (full_bit h0) ((word_decMaj29 h0).trans (by unfold decMaj29; rw [e28, e21, h7, h14]; rfl))
theorem RoundTrip.fclassF64 (d a : BitVec 7) : RoundTrip.Statement (.fclassF64 d a) := by
  obtain ⟨h21, h14, h7, h0⟩ := slices_11_7_7_7 1280#11 a d 83#7
  have e28 : (1280#11 ++ a ++ d ++ 83#7 : BitVec 32).extractLsb' 28 4 = 10#4 := extract_sub h21 7 4
  have e21 : (1280#11 ++ a ++ d ++ 83#7 : BitVec 32).extractLsb' 21 7 = 0#7 := extract_sub h21 0 7
  exact roundTrip_full rfl (full_bit h0) ((word_decMaj29 h0).trans (by unfold decMaj29; rw [e28, e21, h7, h14]; rfl))
theorem RoundTrip.fcmpeq (k : BitVec 3) (a b : BitVec 7) (p : BitVec 1) : RoundTrip.Statement (.fcmpeq k a b p) := by
  obtain ⟨h31, h28, h21, h14, h10, h7, h0⟩ := slices_1_3_7_7_4_3_7 p 0#3 b a 0#4 k 85#7
  exact roundTrip_full rfl (full_bit h0) ((word_decMaj2A h0).trans (by unfold decMaj2A; rw [h28, h10, h7, h14, h21, h31]; rfl))
theorem RoundTrip.fcmplt (k : BitVec 3) (a b : BitVec 7) (p : BitVec 1) : RoundTrip.Statement (.fcmplt k a b p) := by
  obtain ⟨h31, h28, h21, h14, h10, h7, h0⟩ := slices_1_3_7_7_4_3_7 p 1#3 b a 0#4 k 85#7
  exact roundTrip_full rfl (full_bit h0) ((word_decMaj2A h0).trans (by unfold decMaj2A; rw [h28, h10, h7, h14, h21, h31]; rfl))
theorem RoundTrip.fcmple (k : BitVec 3) (a b : BitVec 7) (p : BitVec 1) : RoundTrip.Statement (.fcmple k a b p) := by
  obtain ⟨h31, h28, h21, h14, h10, h7, h0⟩ := slices_1_3_7_7_4_3_7 p 2#3 b a 0#4 k 85#7
  exact roundTrip_full rfl (full_bit h0) ((word_decMaj2A h0).trans (by unfold decMaj2A; rw [h28, h10, h7, h14, h21, h31]; rfl))
theorem RoundTrip.fcmpun (k : BitVec 3) (a b : BitVec 7) (p : BitVec 1) : RoundTrip.Statement (.fcmpun k a b p) := by
  obtain ⟨h31, h28, h21, h14, h10, h7, h0⟩ := slices_1_3_7_7_4_3_7 p 3#3 b a 0#4 k 85#7
  exact roundTrip_full rfl (full_bit h0) ((word_decMaj2A h0).trans (by unfold decMaj2A; rw [h28, h10, h7, h14, h21, h31]; rfl))
theorem RoundTrip.fcmpne (k : BitVec 3) (a b : BitVec 7) (p : BitVec 1) : RoundTrip.Statement (.fcmpne k a b p) := by
  obtain ⟨h31, h28, h21, h14, h10, h7, h0⟩ := slices_1_3_7_7_4_3_7 p 4#3 b a 0#4 k 85#7
  exact roundTrip_full rfl (full_bit h0) ((word_decMaj2A h0).trans (by unfold decMaj2A; rw [h28, h10, h7, h14, h21, h31]; rfl))
theorem RoundTrip.cvtf2d (d a : BitVec 7) : RoundTrip.Statement (.cvtf2d d a) := by
  obtain ⟨h21, h14, h7, h0⟩ := slices_11_7_7_7 0#11 a d 87#7
  have e28 : (0#11 ++ a ++ d ++ 87#7 : BitVec 32).extractLsb' 28 4 = 0#4 := extract_sub h21 7 4
  have e21 : (0#11 ++ a ++ d ++ 87#7 : BitVec 32).extractLsb' 21 7 = 0#7 := extract_sub h21 0 7
  exact roundTrip_full rfl (full_bit h0) ((word_decMaj2B h0).trans (by unfold decMaj2B; rw [e28, e21, h7, h14]; rfl))
theorem RoundTrip.cvtd2f (d a : BitVec 7) : RoundTrip.Statement (.cvtd2f d a) := by
  obtain ⟨h21, h14, h7, h0⟩ := slices_11_7_7_7 128#11 a d 87#7
  have e28 : (128#11 ++ a ++ d ++ 87#7 : BitVec 32).extractLsb' 28 4 = 1#4 := extract_sub h21 7 4
  have e21 : (128#11 ++ a ++ d ++ 87#7 : BitVec 32).extractLsb' 21 7 = 0#7 := extract_sub h21 0 7
  exact roundTrip_full rfl (full_bit h0) ((word_decMaj2B h0).trans (by unfold decMaj2B; rw [e28, e21, h7, h14]; rfl))
theorem RoundTrip.cvtf2w (d a : BitVec 7) : RoundTrip.Statement (.cvtf2w d a) := by
  obtain ⟨h21, h14, h7, h0⟩ := slices_11_7_7_7 256#11 a d 87#7
  have e28 : (256#11 ++ a ++ d ++ 87#7 : BitVec 32).extractLsb' 28 4 = 2#4 := extract_sub h21 7 4
  have e21 : (256#11 ++ a ++ d ++ 87#7 : BitVec 32).extractLsb' 21 7 = 0#7 := extract_sub h21 0 7
  exact roundTrip_full rfl (full_bit h0) ((word_decMaj2B h0).trans (by unfold decMaj2B; rw [e28, e21, h7, h14]; rfl))
theorem RoundTrip.cvtf2l (d a : BitVec 7) : RoundTrip.Statement (.cvtf2l d a) := by
  obtain ⟨h21, h14, h7, h0⟩ := slices_11_7_7_7 384#11 a d 87#7
  have e28 : (384#11 ++ a ++ d ++ 87#7 : BitVec 32).extractLsb' 28 4 = 3#4 := extract_sub h21 7 4
  have e21 : (384#11 ++ a ++ d ++ 87#7 : BitVec 32).extractLsb' 21 7 = 0#7 := extract_sub h21 0 7
  exact roundTrip_full rfl (full_bit h0) ((word_decMaj2B h0).trans (by unfold decMaj2B; rw [e28, e21, h7, h14]; rfl))
theorem RoundTrip.cvtd2w (d a : BitVec 7) : RoundTrip.Statement (.cvtd2w d a) := by
  obtain ⟨h21, h14, h7, h0⟩ := slices_11_7_7_7 512#11 a d 87#7
  have e28 : (512#11 ++ a ++ d ++ 87#7 : BitVec 32).extractLsb' 28 4 = 4#4 := extract_sub h21 7 4
  have e21 : (512#11 ++ a ++ d ++ 87#7 : BitVec 32).extractLsb' 21 7 = 0#7 := extract_sub h21 0 7
  exact roundTrip_full rfl (full_bit h0) ((word_decMaj2B h0).trans (by unfold decMaj2B; rw [e28, e21, h7, h14]; rfl))
theorem RoundTrip.cvtd2l (d a : BitVec 7) : RoundTrip.Statement (.cvtd2l d a) := by
  obtain ⟨h21, h14, h7, h0⟩ := slices_11_7_7_7 640#11 a d 87#7
  have e28 : (640#11 ++ a ++ d ++ 87#7 : BitVec 32).extractLsb' 28 4 = 5#4 := extract_sub h21 7 4
  have e21 : (640#11 ++ a ++ d ++ 87#7 : BitVec 32).extractLsb' 21 7 = 0#7 := extract_sub h21 0 7
  exact roundTrip_full rfl (full_bit h0) ((word_decMaj2B h0).trans (by unfold decMaj2B; rw [e28, e21, h7, h14]; rfl))
theorem RoundTrip.cvtw2f (d a : BitVec 7) : RoundTrip.Statement (.cvtw2f d a) := by
  obtain ⟨h21, h14, h7, h0⟩ := slices_11_7_7_7 768#11 a d 87#7
  have e28 : (768#11 ++ a ++ d ++ 87#7 : BitVec 32).extractLsb' 28 4 = 6#4 := extract_sub h21 7 4
  have e21 : (768#11 ++ a ++ d ++ 87#7 : BitVec 32).extractLsb' 21 7 = 0#7 := extract_sub h21 0 7
  exact roundTrip_full rfl (full_bit h0) ((word_decMaj2B h0).trans (by unfold decMaj2B; rw [e28, e21, h7, h14]; rfl))
theorem RoundTrip.cvtl2f (d a : BitVec 7) : RoundTrip.Statement (.cvtl2f d a) := by
  obtain ⟨h21, h14, h7, h0⟩ := slices_11_7_7_7 896#11 a d 87#7
  have e28 : (896#11 ++ a ++ d ++ 87#7 : BitVec 32).extractLsb' 28 4 = 7#4 := extract_sub h21 7 4
  have e21 : (896#11 ++ a ++ d ++ 87#7 : BitVec 32).extractLsb' 21 7 = 0#7 := extract_sub h21 0 7
  exact roundTrip_full rfl (full_bit h0) ((word_decMaj2B h0).trans (by unfold decMaj2B; rw [e28, e21, h7, h14]; rfl))
theorem RoundTrip.cvtw2d (d a : BitVec 7) : RoundTrip.Statement (.cvtw2d d a) := by
  obtain ⟨h21, h14, h7, h0⟩ := slices_11_7_7_7 1024#11 a d 87#7
  have e28 : (1024#11 ++ a ++ d ++ 87#7 : BitVec 32).extractLsb' 28 4 = 8#4 := extract_sub h21 7 4
  have e21 : (1024#11 ++ a ++ d ++ 87#7 : BitVec 32).extractLsb' 21 7 = 0#7 := extract_sub h21 0 7
  exact roundTrip_full rfl (full_bit h0) ((word_decMaj2B h0).trans (by unfold decMaj2B; rw [e28, e21, h7, h14]; rfl))
theorem RoundTrip.cvtl2d (d a : BitVec 7) : RoundTrip.Statement (.cvtl2d d a) := by
  obtain ⟨h21, h14, h7, h0⟩ := slices_11_7_7_7 1152#11 a d 87#7
  have e28 : (1152#11 ++ a ++ d ++ 87#7 : BitVec 32).extractLsb' 28 4 = 9#4 := extract_sub h21 7 4
  have e21 : (1152#11 ++ a ++ d ++ 87#7 : BitVec 32).extractLsb' 21 7 = 0#7 := extract_sub h21 0 7
  exact roundTrip_full rfl (full_bit h0) ((word_decMaj2B h0).trans (by unfold decMaj2B; rw [e28, e21, h7, h14]; rfl))
theorem RoundTrip.cvtf2b (d a : BitVec 7) : RoundTrip.Statement (.cvtf2b d a) := by
  obtain ⟨h21, h14, h7, h0⟩ := slices_11_7_7_7 1280#11 a d 87#7
  have e28 : (1280#11 ++ a ++ d ++ 87#7 : BitVec 32).extractLsb' 28 4 = 10#4 := extract_sub h21 7 4
  have e21 : (1280#11 ++ a ++ d ++ 87#7 : BitVec 32).extractLsb' 21 7 = 0#7 := extract_sub h21 0 7
  exact roundTrip_full rfl (full_bit h0) ((word_decMaj2B h0).trans (by unfold decMaj2B; rw [e28, e21, h7, h14]; rfl))
theorem RoundTrip.cvtb2f (d a : BitVec 7) : RoundTrip.Statement (.cvtb2f d a) := by
  obtain ⟨h21, h14, h7, h0⟩ := slices_11_7_7_7 1408#11 a d 87#7
  have e28 : (1408#11 ++ a ++ d ++ 87#7 : BitVec 32).extractLsb' 28 4 = 11#4 := extract_sub h21 7 4
  have e21 : (1408#11 ++ a ++ d ++ 87#7 : BitVec 32).extractLsb' 21 7 = 0#7 := extract_sub h21 0 7
  exact roundTrip_full rfl (full_bit h0) ((word_decMaj2B h0).trans (by unfold decMaj2B; rw [e28, e21, h7, h14]; rfl))
theorem RoundTrip.cvtf2h (d a : BitVec 7) : RoundTrip.Statement (.cvtf2h d a) := by
  obtain ⟨h21, h14, h7, h0⟩ := slices_11_7_7_7 1536#11 a d 87#7
  have e28 : (1536#11 ++ a ++ d ++ 87#7 : BitVec 32).extractLsb' 28 4 = 12#4 := extract_sub h21 7 4
  have e21 : (1536#11 ++ a ++ d ++ 87#7 : BitVec 32).extractLsb' 21 7 = 0#7 := extract_sub h21 0 7
  exact roundTrip_full rfl (full_bit h0) ((word_decMaj2B h0).trans (by unfold decMaj2B; rw [e28, e21, h7, h14]; rfl))
theorem RoundTrip.cvth2f (d a : BitVec 7) : RoundTrip.Statement (.cvth2f d a) := by
  obtain ⟨h21, h14, h7, h0⟩ := slices_11_7_7_7 1664#11 a d 87#7
  have e28 : (1664#11 ++ a ++ d ++ 87#7 : BitVec 32).extractLsb' 28 4 = 13#4 := extract_sub h21 7 4
  have e21 : (1664#11 ++ a ++ d ++ 87#7 : BitVec 32).extractLsb' 21 7 = 0#7 := extract_sub h21 0 7
  exact roundTrip_full rfl (full_bit h0) ((word_decMaj2B h0).trans (by unfold decMaj2B; rw [e28, e21, h7, h14]; rfl))
theorem RoundTrip.vbcast (v : BitVec 4) (a b : BitVec 7) : RoundTrip.Statement (.vbcast v a b) := by
  obtain ⟨h28, h21, h14, h10, h0⟩ := slices_4_7_7_4_10 0#4 b a v 89#10
  have e0 : (0#4 ++ b ++ a ++ v ++ 89#10 : BitVec 32).extractLsb' 0 7 = 89#7 := extract_sub h0 0 7
  have e7 : (0#4 ++ b ++ a ++ v ++ 89#10 : BitVec 32).extractLsb' 7 3 = 0#3 := extract_sub h0 7 3
  exact roundTrip_full rfl (full_bit e0) ((word_decMaj2C e0).trans (by unfold decMaj2C; rw [h28, e7, h10, h14, h21]; rfl))
theorem RoundTrip.vextr (d : BitVec 7) (v : BitVec 4) (b : BitVec 7) : RoundTrip.Statement (.vextr d v b) := by
  obtain ⟨h28, h21, h17, h14, h7, h0⟩ := slices_4_7_4_3_7_7 1#4 b v 0#3 d 89#7
  exact roundTrip_full rfl (full_bit h0) ((word_decMaj2C h0).trans (by unfold decMaj2C; rw [h28, h14, h7, h17, h21]; rfl))
theorem RoundTrip.vins (v : BitVec 4) (a b : BitVec 7) : RoundTrip.Statement (.vins v a b) := by
  obtain ⟨h28, h21, h14, h10, h0⟩ := slices_4_7_7_4_10 2#4 b a v 89#10
  have e0 : (2#4 ++ b ++ a ++ v ++ 89#10 : BitVec 32).extractLsb' 0 7 = 89#7 := extract_sub h0 0 7
  have e7 : (2#4 ++ b ++ a ++ v ++ 89#10 : BitVec 32).extractLsb' 7 3 = 0#3 := extract_sub h0 7 3
  exact roundTrip_full rfl (full_bit e0) ((word_decMaj2C e0).trans (by unfold decMaj2C; rw [h28, e7, h10, h14, h21]; rfl))
theorem RoundTrip.viota (v : BitVec 4) (a b : BitVec 7) : RoundTrip.Statement (.viota v a b) := by
  obtain ⟨h28, h21, h14, h10, h0⟩ := slices_4_7_7_4_10 3#4 b a v 89#10
  have e0 : (3#4 ++ b ++ a ++ v ++ 89#10 : BitVec 32).extractLsb' 0 7 = 89#7 := extract_sub h0 0 7
  have e7 : (3#4 ++ b ++ a ++ v ++ 89#10 : BitVec 32).extractLsb' 7 3 = 0#3 := extract_sub h0 7 3
  exact roundTrip_full rfl (full_bit e0) ((word_decMaj2C e0).trans (by unfold decMaj2C; rw [h28, e7, h10, h14, h21]; rfl))
theorem RoundTrip.cld (d a b : BitVec 7) : RoundTrip.Statement (.cld d a b) := by
  obtain ⟨h28, h21, h14, h7, h0⟩ := slices_4_7_7_7_7 0#4 b a d 97#7
  exact roundTrip_full rfl (full_bit h0) ((word_decMaj30 h0).trans (by unfold decMaj30; rw [h28, h7, h14, h21]; rfl))
theorem RoundTrip.cst (d a b : BitVec 7) : RoundTrip.Statement (.cst d a b) := by
  obtain ⟨h28, h21, h14, h7, h0⟩ := slices_4_7_7_7_7 1#4 b a d 97#7
  exact roundTrip_full rfl (full_bit h0) ((word_decMaj30 h0).trans (by unfold decMaj30; rw [h28, h7, h14, h21]; rfl))
theorem RoundTrip.cadd (d a b : BitVec 7) : RoundTrip.Statement (.cadd d a b) := by
  obtain ⟨h28, h21, h14, h7, h0⟩ := slices_4_7_7_7_7 2#4 b a d 97#7
  exact roundTrip_full rfl (full_bit h0) ((word_decMaj30 h0).trans (by unfold decMaj30; rw [h28, h7, h14, h21]; rfl))
theorem RoundTrip.cnext (d a b : BitVec 7) : RoundTrip.Statement (.cnext d a b) := by
  obtain ⟨h28, h21, h14, h7, h0⟩ := slices_4_7_7_7_7 3#4 b a d 97#7
  exact roundTrip_full rfl (full_bit h0) ((word_decMaj30 h0).trans (by unfold decMaj30; rw [h28, h7, h14, h21]; rfl))
theorem RoundTrip.cdel (d a b : BitVec 7) : RoundTrip.Statement (.cdel d a b) := by
  obtain ⟨h28, h21, h14, h7, h0⟩ := slices_4_7_7_7_7 4#4 b a d 97#7
  exact roundTrip_full rfl (full_bit h0) ((word_decMaj30 h0).trans (by unfold decMaj30; rw [h28, h7, h14, h21]; rfl))
theorem RoundTrip.calloc (d a b : BitVec 7) : RoundTrip.Statement (.calloc d a b) := by
  obtain ⟨h28, h21, h14, h7, h0⟩ := slices_4_7_7_7_7 5#4 b a d 97#7
  exact roundTrip_full rfl (full_bit h0) ((word_decMaj30 h0).trans (by unfold decMaj30; rw [h28, h7, h14, h21]; rfl))
theorem RoundTrip.cfree (d a b : BitVec 7) : RoundTrip.Statement (.cfree d a b) := by
  obtain ⟨h28, h21, h14, h7, h0⟩ := slices_4_7_7_7_7 6#4 b a d 97#7
  exact roundTrip_full rfl (full_bit h0) ((word_decMaj30 h0).trans (by unfold decMaj30; rw [h28, h7, h14, h21]; rfl))
theorem RoundTrip.cinv (a : BitVec 7) : RoundTrip.Statement (.cinv a) := by
  obtain ⟨h21, h14, h0⟩ := slices_11_7_14 896#11 a 97#14
  have e0 : (896#11 ++ a ++ 97#14 : BitVec 32).extractLsb' 0 7 = 97#7 := extract_sub h0 0 7
  have e28 : (896#11 ++ a ++ 97#14 : BitVec 32).extractLsb' 28 4 = 7#4 := extract_sub h21 7 4
  have e7 : (896#11 ++ a ++ 97#14 : BitVec 32).extractLsb' 7 7 = 0#7 := extract_sub h0 7 7
  have e21 : (896#11 ++ a ++ 97#14 : BitVec 32).extractLsb' 21 7 = 0#7 := extract_sub h21 0 7
  exact roundTrip_full rfl (full_bit e0) ((word_decMaj30 e0).trans (by unfold decMaj30; rw [e28, e7, e21, h14]; rfl))
theorem RoundTrip.cqry (d a b : BitVec 7) : RoundTrip.Statement (.cqry d a b) := by
  obtain ⟨h28, h21, h14, h7, h0⟩ := slices_4_7_7_7_7 8#4 b a d 97#7
  exact roundTrip_full rfl (full_bit h0) ((word_decMaj30 h0).trans (by unfold decMaj30; rw [h28, h7, h14, h21]; rfl))
theorem RoundTrip.spawn (a b : BitVec 7) : RoundTrip.Statement (.spawn a b) := by
  obtain ⟨h28, h21, h14, h0⟩ := slices_4_7_7_14 0#4 b a 105#14
  have e0 : (0#4 ++ b ++ a ++ 105#14 : BitVec 32).extractLsb' 0 7 = 105#7 := extract_sub h0 0 7
  have e7 : (0#4 ++ b ++ a ++ 105#14 : BitVec 32).extractLsb' 7 7 = 0#7 := extract_sub h0 7 7
  exact roundTrip_full rfl (full_bit e0) ((word_decMaj34 e0).trans (by unfold decMaj34; rw [h28, e7, h14, h21]; rfl))
theorem RoundTrip.sync : RoundTrip.Statement (.sync) := by
  have e0 : (Enc.sync).extractLsb' 0 7 = 105#7 := rfl
  have e28 : (Enc.sync).extractLsb' 28 4 = 1#4 := rfl
  have e7 : (Enc.sync).extractLsb' 7 21 = 0#21 := rfl
  exact roundTrip_full rfl (full_bit e0) ((word_decMaj34 e0).trans (by unfold decMaj34; rw [e28, e7]; rfl))
theorem RoundTrip.retc : RoundTrip.Statement (.retc) := by
  have e0 : (Enc.retc).extractLsb' 0 7 = 105#7 := rfl
  have e28 : (Enc.retc).extractLsb' 28 4 = 2#4 := rfl
  have e7 : (Enc.retc).extractLsb' 7 21 = 0#21 := rfl
  exact roundTrip_full rfl (full_bit e0) ((word_decMaj34 e0).trans (by unfold decMaj34; rw [e28, e7]; rfl))
theorem RoundTrip.yield : RoundTrip.Statement (.yield) := by
  have e0 : (Enc.yield).extractLsb' 0 7 = 105#7 := rfl
  have e28 : (Enc.yield).extractLsb' 28 4 = 3#4 := rfl
  have e7 : (Enc.yield).extractLsb' 7 21 = 0#21 := rfl
  exact roundTrip_full rfl (full_bit e0) ((word_decMaj34 e0).trans (by unfold decMaj34; rw [e28, e7]; rfl))
theorem RoundTrip.park (a b : BitVec 7) : RoundTrip.Statement (.park a b) := by
  obtain ⟨h28, h21, h14, h0⟩ := slices_4_7_7_14 4#4 b a 105#14
  have e0 : (4#4 ++ b ++ a ++ 105#14 : BitVec 32).extractLsb' 0 7 = 105#7 := extract_sub h0 0 7
  have e7 : (4#4 ++ b ++ a ++ 105#14 : BitVec 32).extractLsb' 7 7 = 0#7 := extract_sub h0 7 7
  exact roundTrip_full rfl (full_bit e0) ((word_decMaj34 e0).trans (by unfold decMaj34; rw [h28, e7, h14, h21]; rfl))
theorem RoundTrip.tnew (a b : BitVec 7) : RoundTrip.Statement (.tnew a b) := by
  obtain ⟨h28, h21, h14, h0⟩ := slices_4_7_7_14 5#4 b a 105#14
  have e0 : (5#4 ++ b ++ a ++ 105#14 : BitVec 32).extractLsb' 0 7 = 105#7 := extract_sub h0 0 7
  have e7 : (5#4 ++ b ++ a ++ 105#14 : BitVec 32).extractLsb' 7 7 = 0#7 := extract_sub h0 7 7
  exact roundTrip_full rfl (full_bit e0) ((word_decMaj34 e0).trans (by unfold decMaj34; rw [h28, e7, h14, h21]; rfl))
theorem RoundTrip.texit : RoundTrip.Statement (.texit) := by
  have e0 : (Enc.texit).extractLsb' 0 7 = 105#7 := rfl
  have e28 : (Enc.texit).extractLsb' 28 4 = 6#4 := rfl
  have e7 : (Enc.texit).extractLsb' 7 21 = 0#21 := rfl
  exact roundTrip_full rfl (full_bit e0) ((word_decMaj34 e0).trans (by unfold decMaj34; rw [e28, e7]; rfl))
theorem RoundTrip.susp (a : BitVec 7) : RoundTrip.Statement (.susp a) := by
  obtain ⟨h21, h14, h0⟩ := slices_11_7_14 896#11 a 105#14
  have e0 : (896#11 ++ a ++ 105#14 : BitVec 32).extractLsb' 0 7 = 105#7 := extract_sub h0 0 7
  have e28 : (896#11 ++ a ++ 105#14 : BitVec 32).extractLsb' 28 4 = 7#4 := extract_sub h21 7 4
  have e7 : (896#11 ++ a ++ 105#14 : BitVec 32).extractLsb' 7 7 = 0#7 := extract_sub h0 7 7
  have e21 : (896#11 ++ a ++ 105#14 : BitVec 32).extractLsb' 21 7 = 0#7 := extract_sub h21 0 7
  exact roundTrip_full rfl (full_bit e0) ((word_decMaj34 e0).trans (by unfold decMaj34; rw [e28, e7, e21, h14]; rfl))
theorem RoundTrip.resume (d a b : BitVec 7) : RoundTrip.Statement (.resume d a b) := by
  obtain ⟨h28, h21, h14, h7, h0⟩ := slices_4_7_7_7_7 8#4 b a d 105#7
  exact roundTrip_full rfl (full_bit h0) ((word_decMaj34 h0).trans (by unfold decMaj34; rw [h28, h7, h14, h21]; rfl))
theorem RoundTrip.lsetup (a : BitVec 7) : RoundTrip.Statement (.lsetup a) := by
  obtain ⟨h21, h14, h0⟩ := slices_11_7_14 1152#11 a 105#14
  have e0 : (1152#11 ++ a ++ 105#14 : BitVec 32).extractLsb' 0 7 = 105#7 := extract_sub h0 0 7
  have e28 : (1152#11 ++ a ++ 105#14 : BitVec 32).extractLsb' 28 4 = 9#4 := extract_sub h21 7 4
  have e7 : (1152#11 ++ a ++ 105#14 : BitVec 32).extractLsb' 7 7 = 0#7 := extract_sub h0 7 7
  have e21 : (1152#11 ++ a ++ 105#14 : BitVec 32).extractLsb' 21 7 = 0#7 := extract_sub h21 0 7
  exact roundTrip_full rfl (full_bit e0) ((word_decMaj34 e0).trans (by unfold decMaj34; rw [e28, e7, e21, h14]; rfl))
theorem RoundTrip.lnext (d a : BitVec 7) : RoundTrip.Statement (.lnext d a) := by
  obtain ⟨h21, h14, h7, h0⟩ := slices_11_7_7_7 1280#11 a d 105#7
  have e28 : (1280#11 ++ a ++ d ++ 105#7 : BitVec 32).extractLsb' 28 4 = 10#4 := extract_sub h21 7 4
  have e21 : (1280#11 ++ a ++ d ++ 105#7 : BitVec 32).extractLsb' 21 7 = 0#7 := extract_sub h21 0 7
  exact roundTrip_full rfl (full_bit h0) ((word_decMaj34 h0).trans (by unfold decMaj34; rw [e28, e21, h7, h14]; rfl))
theorem RoundTrip.migr (d a b : BitVec 7) : RoundTrip.Statement (.migr d a b) := by
  obtain ⟨h28, h21, h14, h7, h0⟩ := slices_4_7_7_7_7 11#4 b a d 105#7
  exact roundTrip_full rfl (full_bit h0) ((word_decMaj34 h0).trans (by unfold decMaj34; rw [h28, h7, h14, h21]; rfl))
theorem RoundTrip.mret (a b : BitVec 7) : RoundTrip.Statement (.mret a b) := by
  obtain ⟨h28, h21, h14, h0⟩ := slices_4_7_7_14 12#4 b a 105#14
  have e0 : (12#4 ++ b ++ a ++ 105#14 : BitVec 32).extractLsb' 0 7 = 105#7 := extract_sub h0 0 7
  have e7 : (12#4 ++ b ++ a ++ 105#14 : BitVec 32).extractLsb' 7 7 = 0#7 := extract_sub h0 7 7
  exact roundTrip_full rfl (full_bit e0) ((word_decMaj34 e0).trans (by unfold decMaj34; rw [h28, e7, h14, h21]; rfl))
theorem RoundTrip.suspend (d a : BitVec 7) : RoundTrip.Statement (.suspend d a) := by
  obtain ⟨h21, h14, h7, h0⟩ := slices_11_7_7_7 0#11 a d 107#7
  have e28 : (0#11 ++ a ++ d ++ 107#7 : BitVec 32).extractLsb' 28 4 = 0#4 := extract_sub h21 7 4
  have e21 : (0#11 ++ a ++ d ++ 107#7 : BitVec 32).extractLsb' 21 7 = 0#7 := extract_sub h21 0 7
  exact roundTrip_full rfl (full_bit h0) ((word_decMaj35 h0).trans (by unfold decMaj35; rw [e28, e21, h7, h14]; rfl))
theorem RoundTrip.force (d a : BitVec 7) : RoundTrip.Statement (.force d a) := by
  obtain ⟨h21, h14, h7, h0⟩ := slices_11_7_7_7 128#11 a d 107#7
  have e28 : (128#11 ++ a ++ d ++ 107#7 : BitVec 32).extractLsb' 28 4 = 1#4 := extract_sub h21 7 4
  have e21 : (128#11 ++ a ++ d ++ 107#7 : BitVec 32).extractLsb' 21 7 = 0#7 := extract_sub h21 0 7
  exact roundTrip_full rfl (full_bit h0) ((word_decMaj35 h0).trans (by unfold decMaj35; rw [e28, e21, h7, h14]; rfl))
theorem RoundTrip.spark (a : BitVec 7) : RoundTrip.Statement (.spark a) := by
  obtain ⟨h21, h14, h0⟩ := slices_11_7_14 256#11 a 107#14
  have e0 : (256#11 ++ a ++ 107#14 : BitVec 32).extractLsb' 0 7 = 107#7 := extract_sub h0 0 7
  have e28 : (256#11 ++ a ++ 107#14 : BitVec 32).extractLsb' 28 4 = 2#4 := extract_sub h21 7 4
  have e7 : (256#11 ++ a ++ 107#14 : BitVec 32).extractLsb' 7 7 = 0#7 := extract_sub h0 7 7
  have e21 : (256#11 ++ a ++ 107#14 : BitVec 32).extractLsb' 21 7 = 0#7 := extract_sub h21 0 7
  exact roundTrip_full rfl (full_bit e0) ((word_decMaj35 e0).trans (by unfold decMaj35; rw [e28, e7, e21, h14]; rfl))
theorem RoundTrip.hwait (d a : BitVec 7) : RoundTrip.Statement (.hwait d a) := by
  obtain ⟨h21, h14, h7, h0⟩ := slices_11_7_7_7 384#11 a d 107#7
  have e28 : (384#11 ++ a ++ d ++ 107#7 : BitVec 32).extractLsb' 28 4 = 3#4 := extract_sub h21 7 4
  have e21 : (384#11 ++ a ++ d ++ 107#7 : BitVec 32).extractLsb' 21 7 = 0#7 := extract_sub h21 0 7
  exact roundTrip_full rfl (full_bit h0) ((word_decMaj35 h0).trans (by unfold decMaj35; rw [e28, e21, h7, h14]; rfl))
theorem RoundTrip.hstat (d a : BitVec 7) : RoundTrip.Statement (.hstat d a) := by
  obtain ⟨h21, h14, h7, h0⟩ := slices_11_7_7_7 512#11 a d 107#7
  have e28 : (512#11 ++ a ++ d ++ 107#7 : BitVec 32).extractLsb' 28 4 = 4#4 := extract_sub h21 7 4
  have e21 : (512#11 ++ a ++ d ++ 107#7 : BitVec 32).extractLsb' 21 7 = 0#7 := extract_sub h21 0 7
  exact roundTrip_full rfl (full_bit h0) ((word_decMaj35 h0).trans (by unfold decMaj35; rw [e28, e21, h7, h14]; rfl))
theorem RoundTrip.hbind (a b : BitVec 7) : RoundTrip.Statement (.hbind a b) := by
  obtain ⟨h28, h21, h14, h0⟩ := slices_4_7_7_14 5#4 b a 107#14
  have e0 : (5#4 ++ b ++ a ++ 107#14 : BitVec 32).extractLsb' 0 7 = 107#7 := extract_sub h0 0 7
  have e7 : (5#4 ++ b ++ a ++ 107#14 : BitVec 32).extractLsb' 7 7 = 0#7 := extract_sub h0 7 7
  exact roundTrip_full rfl (full_bit e0) ((word_decMaj35 e0).trans (by unfold decMaj35; rw [h28, e7, h14, h21]; rfl))
theorem RoundTrip.hdrop (a : BitVec 7) : RoundTrip.Statement (.hdrop a) := by
  obtain ⟨h21, h14, h0⟩ := slices_11_7_14 768#11 a 107#14
  have e0 : (768#11 ++ a ++ 107#14 : BitVec 32).extractLsb' 0 7 = 107#7 := extract_sub h0 0 7
  have e28 : (768#11 ++ a ++ 107#14 : BitVec 32).extractLsb' 28 4 = 6#4 := extract_sub h21 7 4
  have e7 : (768#11 ++ a ++ 107#14 : BitVec 32).extractLsb' 7 7 = 0#7 := extract_sub h0 7 7
  have e21 : (768#11 ++ a ++ 107#14 : BitVec 32).extractLsb' 21 7 = 0#7 := extract_sub h21 0 7
  exact roundTrip_full rfl (full_bit e0) ((word_decMaj35 e0).trans (by unfold decMaj35; rw [e28, e7, e21, h14]; rfl))
theorem RoundTrip.tenq (d a : BitVec 7) : RoundTrip.Statement (.tenq d a) := by
  obtain ⟨h21, h14, h7, h0⟩ := slices_11_7_7_7 896#11 a d 107#7
  have e28 : (896#11 ++ a ++ d ++ 107#7 : BitVec 32).extractLsb' 28 4 = 7#4 := extract_sub h21 7 4
  have e21 : (896#11 ++ a ++ d ++ 107#7 : BitVec 32).extractLsb' 21 7 = 0#7 := extract_sub h21 0 7
  exact roundTrip_full rfl (full_bit h0) ((word_decMaj35 h0).trans (by unfold decMaj35; rw [e28, e21, h7, h14]; rfl))
theorem RoundTrip.mprog (a b : BitVec 7) : RoundTrip.Statement (.mprog a b) := by
  obtain ⟨h28, h21, h14, h0⟩ := slices_4_7_7_14 8#4 b a 107#14
  have e0 : (8#4 ++ b ++ a ++ 107#14 : BitVec 32).extractLsb' 0 7 = 107#7 := extract_sub h0 0 7
  have e7 : (8#4 ++ b ++ a ++ 107#14 : BitVec 32).extractLsb' 7 7 = 0#7 := extract_sub h0 7 7
  exact roundTrip_full rfl (full_bit e0) ((word_decMaj35 e0).trans (by unfold decMaj35; rw [h28, e7, h14, h21]; rfl))
theorem RoundTrip.cpy (d a b : BitVec 7) : RoundTrip.Statement (.cpy d a b) := by
  obtain ⟨h28, h21, h14, h7, h0⟩ := slices_4_7_7_7_7 0#4 b a d 113#7
  exact roundTrip_full rfl (full_bit h0) ((word_decMaj38 h0).trans (by unfold decMaj38; rw [h28, h7, h14, h21]; rfl))
theorem RoundTrip.plane (d a b : BitVec 7) : RoundTrip.Statement (.plane d a b) := by
  obtain ⟨h28, h21, h14, h7, h0⟩ := slices_4_7_7_7_7 1#4 b a d 113#7
  exact roundTrip_full rfl (full_bit h0) ((word_decMaj38 h0).trans (by unfold decMaj38; rw [h28, h7, h14, h21]; rfl))
theorem RoundTrip.dense (d a b : BitVec 7) : RoundTrip.Statement (.dense d a b) := by
  obtain ⟨h28, h21, h14, h7, h0⟩ := slices_4_7_7_7_7 2#4 b a d 113#7
  exact roundTrip_full rfl (full_bit h0) ((word_decMaj38 h0).trans (by unfold decMaj38; rw [h28, h7, h14, h21]; rfl))
theorem RoundTrip.fill (d a : BitVec 7) : RoundTrip.Statement (.fill d a) := by
  obtain ⟨h21, h14, h7, h0⟩ := slices_11_7_7_7 384#11 a d 113#7
  have e28 : (384#11 ++ a ++ d ++ 113#7 : BitVec 32).extractLsb' 28 4 = 3#4 := extract_sub h21 7 4
  have e21 : (384#11 ++ a ++ d ++ 113#7 : BitVec 32).extractLsb' 21 7 = 0#7 := extract_sub h21 0 7
  exact roundTrip_full rfl (full_bit h0) ((word_decMaj38 h0).trans (by unfold decMaj38; rw [e28, e21, h7, h14]; rfl))
theorem RoundTrip.route (d a : BitVec 7) : RoundTrip.Statement (.route d a) := by
  obtain ⟨h21, h14, h7, h0⟩ := slices_11_7_7_7 512#11 a d 113#7
  have e28 : (512#11 ++ a ++ d ++ 113#7 : BitVec 32).extractLsb' 28 4 = 4#4 := extract_sub h21 7 4
  have e21 : (512#11 ++ a ++ d ++ 113#7 : BitVec 32).extractLsb' 21 7 = 0#7 := extract_sub h21 0 7
  exact roundTrip_full rfl (full_bit h0) ((word_decMaj38 h0).trans (by unfold decMaj38; rw [e28, e21, h7, h14]; rfl))
theorem RoundTrip.psel (d a : BitVec 7) : RoundTrip.Statement (.psel d a) := by
  obtain ⟨h21, h14, h7, h0⟩ := slices_11_7_7_7 640#11 a d 113#7
  have e28 : (640#11 ++ a ++ d ++ 113#7 : BitVec 32).extractLsb' 28 4 = 5#4 := extract_sub h21 7 4
  have e21 : (640#11 ++ a ++ d ++ 113#7 : BitVec 32).extractLsb' 21 7 = 0#7 := extract_sub h21 0 7
  exact roundTrip_full rfl (full_bit h0) ((word_decMaj38 h0).trans (by unfold decMaj38; rw [e28, e21, h7, h14]; rfl))
theorem RoundTrip.rqinit (d a b : BitVec 7) : RoundTrip.Statement (.rqinit d a b) := by
  obtain ⟨h28, h21, h14, h7, h0⟩ := slices_4_7_7_7_7 6#4 b a d 113#7
  exact roundTrip_full rfl (full_bit h0) ((word_decMaj38 h0).trans (by unfold decMaj38; rw [h28, h7, h14, h21]; rfl))
theorem RoundTrip.rqget (d a : BitVec 7) : RoundTrip.Statement (.rqget d a) := by
  obtain ⟨h21, h14, h7, h0⟩ := slices_11_7_7_7 896#11 a d 113#7
  have e28 : (896#11 ++ a ++ d ++ 113#7 : BitVec 32).extractLsb' 28 4 = 7#4 := extract_sub h21 7 4
  have e21 : (896#11 ++ a ++ d ++ 113#7 : BitVec 32).extractLsb' 21 7 = 0#7 := extract_sub h21 0 7
  exact roundTrip_full rfl (full_bit h0) ((word_decMaj38 h0).trans (by unfold decMaj38; rw [e28, e21, h7, h14]; rfl))
theorem RoundTrip.rqdone (d a b : BitVec 7) : RoundTrip.Statement (.rqdone d a b) := by
  obtain ⟨h28, h21, h14, h7, h0⟩ := slices_4_7_7_7_7 8#4 b a d 113#7
  exact roundTrip_full rfl (full_bit h0) ((word_decMaj38 h0).trans (by unfold decMaj38; rw [h28, h7, h14, h21]; rfl))
theorem RoundTrip.send (d a b : BitVec 7) : RoundTrip.Statement (.send d a b) := by
  obtain ⟨h28, h21, h14, h7, h0⟩ := slices_4_7_7_7_7 0#4 b a d 115#7
  exact roundTrip_full rfl (full_bit h0) ((word_decMaj39 h0).trans (by unfold decMaj39; rw [h28, h7, h14, h21]; rfl))
theorem RoundTrip.qcfg (d a b : BitVec 7) : RoundTrip.Statement (.qcfg d a b) := by
  obtain ⟨h28, h21, h14, h7, h0⟩ := slices_4_7_7_7_7 1#4 b a d 115#7
  exact roundTrip_full rfl (full_bit h0) ((word_decMaj39 h0).trans (by unfold decMaj39; rw [h28, h7, h14, h21]; rfl))
theorem RoundTrip.qctl (d a b : BitVec 7) : RoundTrip.Statement (.qctl d a b) := by
  obtain ⟨h28, h21, h14, h7, h0⟩ := slices_4_7_7_7_7 2#4 b a d 115#7
  exact roundTrip_full rfl (full_bit h0) ((word_decMaj39 h0).trans (by unfold decMaj39; rw [h28, h7, h14, h21]; rfl))
theorem RoundTrip.qhnd (d a b : BitVec 7) : RoundTrip.Statement (.qhnd d a b) := by
  obtain ⟨h28, h21, h14, h7, h0⟩ := slices_4_7_7_7_7 3#4 b a d 115#7
  exact roundTrip_full rfl (full_bit h0) ((word_decMaj39 h0).trans (by unfold decMaj39; rw [h28, h7, h14, h21]; rfl))
theorem RoundTrip.qret : RoundTrip.Statement (.qret) := by
  have e0 : (Enc.qret).extractLsb' 0 7 = 115#7 := rfl
  have e28 : (Enc.qret).extractLsb' 28 4 = 4#4 := rfl
  have e7 : (Enc.qret).extractLsb' 7 21 = 0#21 := rfl
  exact roundTrip_full rfl (full_bit e0) ((word_decMaj39 e0).trans (by unfold decMaj39; rw [e28, e7]; rfl))
theorem RoundTrip.qstat (d a : BitVec 7) : RoundTrip.Statement (.qstat d a) := by
  obtain ⟨h21, h14, h7, h0⟩ := slices_11_7_7_7 640#11 a d 115#7
  have e28 : (640#11 ++ a ++ d ++ 115#7 : BitVec 32).extractLsb' 28 4 = 5#4 := extract_sub h21 7 4
  have e21 : (640#11 ++ a ++ d ++ 115#7 : BitVec 32).extractLsb' 21 7 = 0#7 := extract_sub h21 0 7
  exact roundTrip_full rfl (full_bit h0) ((word_decMaj39 h0).trans (by unfold decMaj39; rw [e28, e21, h7, h14]; rfl))
theorem RoundTrip.csrrd (d : BitVec 7) (c : BitVec 11) : RoundTrip.Statement (.csrrd d c) := by
  obtain ⟨h21, h14, h7, h0⟩ := slices_11_7_7_7 c 0#7 d 117#7
  exact roundTrip_full rfl (full_bit h0) ((word_decMaj3A h0).trans (by unfold decMaj3A; rw [h14, h7, h21]; rfl))
theorem RoundTrip.csrwr (d a : BitVec 7) (c : BitVec 11) : RoundTrip.Statement (.csrwr d a c) := by
  obtain ⟨h21, h14, h7, h0⟩ := slices_11_7_7_7 c a d 119#7
  exact roundTrip_full rfl (full_bit h0) ((word_decMaj3B h0).trans (by unfold decMaj3B; rw [h7, h14, h21]))
theorem RoundTrip.csrset (d a : BitVec 7) (c : BitVec 11) : RoundTrip.Statement (.csrset d a c) := by
  obtain ⟨h21, h14, h7, h0⟩ := slices_11_7_7_7 c a d 121#7
  exact roundTrip_full rfl (full_bit h0) ((word_decMaj3C h0).trans (by unfold decMaj3C; rw [h7, h14, h21]))
theorem RoundTrip.trap (a : BitVec 7) : RoundTrip.Statement (.trap a) := by
  obtain ⟨h21, h14, h0⟩ := slices_11_7_14 0#11 a 123#14
  have e0 : (0#11 ++ a ++ 123#14 : BitVec 32).extractLsb' 0 7 = 123#7 := extract_sub h0 0 7
  have e28 : (0#11 ++ a ++ 123#14 : BitVec 32).extractLsb' 28 4 = 0#4 := extract_sub h21 7 4
  have e7 : (0#11 ++ a ++ 123#14 : BitVec 32).extractLsb' 7 7 = 0#7 := extract_sub h0 7 7
  have e21 : (0#11 ++ a ++ 123#14 : BitVec 32).extractLsb' 21 7 = 0#7 := extract_sub h21 0 7
  exact roundTrip_full rfl (full_bit e0) ((word_decMaj3D e0).trans (by unfold decMaj3D; rw [e28, e7, e21, h14]; rfl))
theorem RoundTrip.syscall : RoundTrip.Statement (.syscall) := by
  have e0 : (Enc.syscall).extractLsb' 0 7 = 123#7 := rfl
  have e28 : (Enc.syscall).extractLsb' 28 4 = 1#4 := rfl
  have e7 : (Enc.syscall).extractLsb' 7 21 = 0#21 := rfl
  exact roundTrip_full rfl (full_bit e0) ((word_decMaj3D e0).trans (by unfold decMaj3D; rw [e28, e7]; rfl))
theorem RoundTrip.eret : RoundTrip.Statement (.eret) := by
  have e0 : (Enc.eret).extractLsb' 0 7 = 123#7 := rfl
  have e28 : (Enc.eret).extractLsb' 28 4 = 2#4 := rfl
  have e7 : (Enc.eret).extractLsb' 7 21 = 0#21 := rfl
  exact roundTrip_full rfl (full_bit e0) ((word_decMaj3D e0).trans (by unfold decMaj3D; rw [e28, e7]; rfl))
theorem RoundTrip.brk : RoundTrip.Statement (.brk) := by
  have e0 : (Enc.brk).extractLsb' 0 7 = 123#7 := rfl
  have e28 : (Enc.brk).extractLsb' 28 4 = 3#4 := rfl
  have e7 : (Enc.brk).extractLsb' 7 21 = 0#21 := rfl
  exact roundTrip_full rfl (full_bit e0) ((word_decMaj3D e0).trans (by unfold decMaj3D; rw [e28, e7]; rfl))
theorem RoundTrip.halt : RoundTrip.Statement (.halt) := by
  have e0 : (Enc.halt).extractLsb' 0 7 = 123#7 := rfl
  have e28 : (Enc.halt).extractLsb' 28 4 = 4#4 := rfl
  have e7 : (Enc.halt).extractLsb' 7 21 = 0#21 := rfl
  exact roundTrip_full rfl (full_bit e0) ((word_decMaj3D e0).trans (by unfold decMaj3D; rw [e28, e7]; rfl))
theorem RoundTrip.feat (d a : BitVec 7) : RoundTrip.Statement (.feat d a) := by
  obtain ⟨h21, h14, h7, h0⟩ := slices_11_7_7_7 640#11 a d 123#7
  have e28 : (640#11 ++ a ++ d ++ 123#7 : BitVec 32).extractLsb' 28 4 = 5#4 := extract_sub h21 7 4
  have e21 : (640#11 ++ a ++ d ++ 123#7 : BitVec 32).extractLsb' 21 7 = 0#7 := extract_sub h21 0 7
  exact roundTrip_full rfl (full_bit h0) ((word_decMaj3D h0).trans (by unfold decMaj3D; rw [e28, e21, h7, h14]; rfl))
theorem RoundTrip.tlbw (a b : BitVec 7) : RoundTrip.Statement (.tlbw a b) := by
  obtain ⟨h28, h21, h14, h0⟩ := slices_4_7_7_14 6#4 b a 123#14
  have e0 : (6#4 ++ b ++ a ++ 123#14 : BitVec 32).extractLsb' 0 7 = 123#7 := extract_sub h0 0 7
  have e7 : (6#4 ++ b ++ a ++ 123#14 : BitVec 32).extractLsb' 7 7 = 0#7 := extract_sub h0 7 7
  exact roundTrip_full rfl (full_bit e0) ((word_decMaj3D e0).trans (by unfold decMaj3D; rw [h28, e7, h14, h21]; rfl))
theorem RoundTrip.tlbi (d a b : BitVec 7) : RoundTrip.Statement (.tlbi d a b) := by
  obtain ⟨h28, h21, h14, h7, h0⟩ := slices_4_7_7_7_7 7#4 b a d 123#7
  exact roundTrip_full rfl (full_bit h0) ((word_decMaj3D h0).trans (by unfold decMaj3D; rw [h28, h7, h14, h21]; rfl))
theorem RoundTrip.flushi : RoundTrip.Statement (.flushi) := by
  have e0 : (Enc.flushi).extractLsb' 0 7 = 123#7 := rfl
  have e28 : (Enc.flushi).extractLsb' 28 4 = 8#4 := rfl
  have e7 : (Enc.flushi).extractLsb' 7 21 = 0#21 := rfl
  exact roundTrip_full rfl (full_bit e0) ((word_decMaj3D e0).trans (by unfold decMaj3D; rw [e28, e7]; rfl))
theorem RoundTrip.upret : RoundTrip.Statement (.upret) := by
  have e0 : (Enc.upret).extractLsb' 0 7 = 123#7 := rfl
  have e28 : (Enc.upret).extractLsb' 28 4 = 9#4 := rfl
  have e7 : (Enc.upret).extractLsb' 7 21 = 0#21 := rfl
  exact roundTrip_full rfl (full_bit e0) ((word_decMaj3D e0).trans (by unfold decMaj3D; rw [e28, e7]; rfl))
theorem RoundTrip.seqq (d a : BitVec 7) : RoundTrip.Statement (.seqq d a) := by
  obtain ⟨h21, h14, h7, h0⟩ := slices_11_7_7_7 1280#11 a d 123#7
  have e28 : (1280#11 ++ a ++ d ++ 123#7 : BitVec 32).extractLsb' 28 4 = 10#4 := extract_sub h21 7 4
  have e21 : (1280#11 ++ a ++ d ++ 123#7 : BitVec 32).extractLsb' 21 7 = 0#7 := extract_sub h21 0 7
  exact roundTrip_full rfl (full_bit h0) ((word_decMaj3D h0).trans (by unfold decMaj3D; rw [e28, e21, h7, h14]; rfl))
theorem RoundTrip.addFh (d a : BitVec 5) : RoundTrip.Statement (.addFh d a) := by
  obtain ⟨h11, h6, h0⟩ := slices_5_5_6 a d 0#6
  exact roundTrip_half (a ++ d ++ 0#6 : BitVec 16) rfl rfl (half_bit h0) (by unfold decodeHalf; rw [h0, h6, h11]; rfl)
theorem RoundTrip.subFh (d a : BitVec 5) : RoundTrip.Statement (.subFh d a) := by
  obtain ⟨h11, h6, h0⟩ := slices_5_5_6 a d 2#6
  exact roundTrip_half (a ++ d ++ 2#6 : BitVec 16) rfl rfl (half_bit h0) (by unfold decodeHalf; rw [h0, h6, h11]; rfl)
theorem RoundTrip.mulFh (d a : BitVec 5) : RoundTrip.Statement (.mulFh d a) := by
  obtain ⟨h11, h6, h0⟩ := slices_5_5_6 a d 4#6
  exact roundTrip_half (a ++ d ++ 4#6 : BitVec 16) rfl rfl (half_bit h0) (by unfold decodeHalf; rw [h0, h6, h11]; rfl)
theorem RoundTrip.andFh (d a : BitVec 5) : RoundTrip.Statement (.andFh d a) := by
  obtain ⟨h11, h6, h0⟩ := slices_5_5_6 a d 6#6
  exact roundTrip_half (a ++ d ++ 6#6 : BitVec 16) rfl rfl (half_bit h0) (by unfold decodeHalf; rw [h0, h6, h11]; rfl)
theorem RoundTrip.orFh (d a : BitVec 5) : RoundTrip.Statement (.orFh d a) := by
  obtain ⟨h11, h6, h0⟩ := slices_5_5_6 a d 8#6
  exact roundTrip_half (a ++ d ++ 8#6 : BitVec 16) rfl rfl (half_bit h0) (by unfold decodeHalf; rw [h0, h6, h11]; rfl)
theorem RoundTrip.xorFh (d a : BitVec 5) : RoundTrip.Statement (.xorFh d a) := by
  obtain ⟨h11, h6, h0⟩ := slices_5_5_6 a d 10#6
  exact roundTrip_half (a ++ d ++ 10#6 : BitVec 16) rfl rfl (half_bit h0) (by unfold decodeHalf; rw [h0, h6, h11]; rfl)
theorem RoundTrip.sllFh (d a : BitVec 5) : RoundTrip.Statement (.sllFh d a) := by
  obtain ⟨h11, h6, h0⟩ := slices_5_5_6 a d 12#6
  exact roundTrip_half (a ++ d ++ 12#6 : BitVec 16) rfl rfl (half_bit h0) (by unfold decodeHalf; rw [h0, h6, h11]; rfl)
theorem RoundTrip.srlFh (d a : BitVec 5) : RoundTrip.Statement (.srlFh d a) := by
  obtain ⟨h11, h6, h0⟩ := slices_5_5_6 a d 14#6
  exact roundTrip_half (a ++ d ++ 14#6 : BitVec 16) rfl rfl (half_bit h0) (by unfold decodeHalf; rw [h0, h6, h11]; rfl)
theorem RoundTrip.sraFh (d a : BitVec 5) : RoundTrip.Statement (.sraFh d a) := by
  obtain ⟨h11, h6, h0⟩ := slices_5_5_6 a d 16#6
  exact roundTrip_half (a ++ d ++ 16#6 : BitVec 16) rfl rfl (half_bit h0) (by unfold decodeHalf; rw [h0, h6, h11]; rfl)
theorem RoundTrip.minFh (d a : BitVec 5) : RoundTrip.Statement (.minFh d a) := by
  obtain ⟨h11, h6, h0⟩ := slices_5_5_6 a d 18#6
  exact roundTrip_half (a ++ d ++ 18#6 : BitVec 16) rfl rfl (half_bit h0) (by unfold decodeHalf; rw [h0, h6, h11]; rfl)
theorem RoundTrip.maxFh (d a : BitVec 5) : RoundTrip.Statement (.maxFh d a) := by
  obtain ⟨h11, h6, h0⟩ := slices_5_5_6 a d 20#6
  exact roundTrip_half (a ++ d ++ 20#6 : BitVec 16) rfl rfl (half_bit h0) (by unfold decodeHalf; rw [h0, h6, h11]; rfl)
theorem RoundTrip.movFh (d a : BitVec 5) : RoundTrip.Statement (.movFh d a) := by
  obtain ⟨h11, h6, h0⟩ := slices_5_5_6 a d 22#6
  exact roundTrip_half (a ++ d ++ 22#6 : BitVec 16) rfl rfl (half_bit h0) (by unfold decodeHalf; rw [h0, h6, h11]; rfl)
theorem RoundTrip.addiFh (d iv : BitVec 5) : RoundTrip.Statement (.addiFh d iv) := by
  obtain ⟨h11, h6, h0⟩ := slices_5_5_6 iv d 24#6
  exact roundTrip_half (iv ++ d ++ 24#6 : BitVec 16) rfl rfl (half_bit h0) (by unfold decodeHalf; rw [h0, h6, h11]; rfl)
theorem RoundTrip.slliFh (d sv : BitVec 5) : RoundTrip.Statement (.slliFh d sv) := by
  obtain ⟨h11, h6, h0⟩ := slices_5_5_6 sv d 26#6
  exact roundTrip_half (sv ++ d ++ 26#6 : BitVec 16) rfl rfl (half_bit h0) (by unfold decodeHalf; rw [h0, h6, h11]; rfl)
theorem RoundTrip.faddFh (d a : BitVec 5) : RoundTrip.Statement (.faddFh d a) := by
  obtain ⟨h11, h6, h0⟩ := slices_5_5_6 a d 28#6
  exact roundTrip_half (a ++ d ++ 28#6 : BitVec 16) rfl rfl (half_bit h0) (by unfold decodeHalf; rw [h0, h6, h11]; rfl)
theorem RoundTrip.fmulFh (d a : BitVec 5) : RoundTrip.Statement (.fmulFh d a) := by
  obtain ⟨h11, h6, h0⟩ := slices_5_5_6 a d 30#6
  exact roundTrip_half (a ++ d ++ 30#6 : BitVec 16) rfl rfl (half_bit h0) (by unfold decodeHalf; rw [h0, h6, h11]; rfl)
theorem RoundTrip.vaddFh (d a : BitVec 5) : RoundTrip.Statement (.vaddFh d a) := by
  obtain ⟨h11, h6, h0⟩ := slices_5_5_6 a d 32#6
  exact roundTrip_half (a ++ d ++ 32#6 : BitVec 16) rfl rfl (half_bit h0) (by unfold decodeHalf; rw [h0, h6, h11]; rfl)
theorem RoundTrip.vsubFh (d a : BitVec 5) : RoundTrip.Statement (.vsubFh d a) := by
  obtain ⟨h11, h6, h0⟩ := slices_5_5_6 a d 34#6
  exact roundTrip_half (a ++ d ++ 34#6 : BitVec 16) rfl rfl (half_bit h0) (by unfold decodeHalf; rw [h0, h6, h11]; rfl)
theorem RoundTrip.vmulFh (d a : BitVec 5) : RoundTrip.Statement (.vmulFh d a) := by
  obtain ⟨h11, h6, h0⟩ := slices_5_5_6 a d 36#6
  exact roundTrip_half (a ++ d ++ 36#6 : BitVec 16) rfl rfl (half_bit h0) (by unfold decodeHalf; rw [h0, h6, h11]; rfl)
theorem RoundTrip.vandFh (d a : BitVec 5) : RoundTrip.Statement (.vandFh d a) := by
  obtain ⟨h11, h6, h0⟩ := slices_5_5_6 a d 38#6
  exact roundTrip_half (a ++ d ++ 38#6 : BitVec 16) rfl rfl (half_bit h0) (by unfold decodeHalf; rw [h0, h6, h11]; rfl)
theorem RoundTrip.vorFh (d a : BitVec 5) : RoundTrip.Statement (.vorFh d a) := by
  obtain ⟨h11, h6, h0⟩ := slices_5_5_6 a d 40#6
  exact roundTrip_half (a ++ d ++ 40#6 : BitVec 16) rfl rfl (half_bit h0) (by unfold decodeHalf; rw [h0, h6, h11]; rfl)
theorem RoundTrip.vxorFh (d a : BitVec 5) : RoundTrip.Statement (.vxorFh d a) := by
  obtain ⟨h11, h6, h0⟩ := slices_5_5_6 a d 42#6
  exact roundTrip_half (a ++ d ++ 42#6 : BitVec 16) rfl rfl (half_bit h0) (by unfold decodeHalf; rw [h0, h6, h11]; rfl)
theorem RoundTrip.vsllFh (d a : BitVec 5) : RoundTrip.Statement (.vsllFh d a) := by
  obtain ⟨h11, h6, h0⟩ := slices_5_5_6 a d 44#6
  exact roundTrip_half (a ++ d ++ 44#6 : BitVec 16) rfl rfl (half_bit h0) (by unfold decodeHalf; rw [h0, h6, h11]; rfl)
theorem RoundTrip.vsrlFh (d a : BitVec 5) : RoundTrip.Statement (.vsrlFh d a) := by
  obtain ⟨h11, h6, h0⟩ := slices_5_5_6 a d 46#6
  exact roundTrip_half (a ++ d ++ 46#6 : BitVec 16) rfl rfl (half_bit h0) (by unfold decodeHalf; rw [h0, h6, h11]; rfl)
theorem RoundTrip.vsraFh (d a : BitVec 5) : RoundTrip.Statement (.vsraFh d a) := by
  obtain ⟨h11, h6, h0⟩ := slices_5_5_6 a d 48#6
  exact roundTrip_half (a ++ d ++ 48#6 : BitVec 16) rfl rfl (half_bit h0) (by unfold decodeHalf; rw [h0, h6, h11]; rfl)
theorem RoundTrip.vminFh (d a : BitVec 5) : RoundTrip.Statement (.vminFh d a) := by
  obtain ⟨h11, h6, h0⟩ := slices_5_5_6 a d 50#6
  exact roundTrip_half (a ++ d ++ 50#6 : BitVec 16) rfl rfl (half_bit h0) (by unfold decodeHalf; rw [h0, h6, h11]; rfl)
theorem RoundTrip.vmaxFh (d a : BitVec 5) : RoundTrip.Statement (.vmaxFh d a) := by
  obtain ⟨h11, h6, h0⟩ := slices_5_5_6 a d 52#6
  exact roundTrip_half (a ++ d ++ 52#6 : BitVec 16) rfl rfl (half_bit h0) (by unfold decodeHalf; rw [h0, h6, h11]; rfl)
theorem RoundTrip.vmovFh (d a : BitVec 5) : RoundTrip.Statement (.vmovFh d a) := by
  obtain ⟨h11, h6, h0⟩ := slices_5_5_6 a d 54#6
  exact roundTrip_half (a ++ d ++ 54#6 : BitVec 16) rfl rfl (half_bit h0) (by unfold decodeHalf; rw [h0, h6, h11]; rfl)
theorem RoundTrip.vfaddFh (d a : BitVec 5) : RoundTrip.Statement (.vfaddFh d a) := by
  obtain ⟨h11, h6, h0⟩ := slices_5_5_6 a d 60#6
  exact roundTrip_half (a ++ d ++ 60#6 : BitVec 16) rfl rfl (half_bit h0) (by unfold decodeHalf; rw [h0, h6, h11]; rfl)
theorem RoundTrip.vfmulFh (d a : BitVec 5) : RoundTrip.Statement (.vfmulFh d a) := by
  obtain ⟨h11, h6, h0⟩ := slices_5_5_6 a d 62#6
  exact roundTrip_half (a ++ d ++ 62#6 : BitVec 16) rfl rfl (half_bit h0) (by unfold decodeHalf; rw [h0, h6, h11]; rfl)
theorem RoundTrip.illegalInstruction (enc : BitVec 32) : RoundTrip.Statement (.illegalInstruction enc) := fun h => nomatch h
theorem RoundTrip.fetchFault (cause : BitVec 8) (addr : BitVec 64) : RoundTrip.Statement (.fetchFault cause addr) := fun h => nomatch h

end Sys2Proof.Laws
end

