-- ==== Sys2Proof/Laws/Update.lean ====
section
/-!
SUPPORT. Two updates of the same part of the state are one update: tables, cores, slots, clusters, dies, homes, functions,
contexts, continuations, ports and packet queues.
-/

namespace Sys2Proof.Laws

open Sys2Proof.Machine

variable {α : Type} {d : α}

@[simp] theorem smDel_smDel (m : SMap α) (k : Nat) : smDel (smDel m k) k = smDel m k := by
  simp [smDel]

theorem smDel_smIns (m : SMap α) (k : Nat) (v : α) : smDel (smIns k v m) k = smDel m k := by
  induction m with
  | nil => simp [smIns, smDel]
  | cons e r ih =>
    obtain ⟨a, w⟩ := e
    unfold smIns
    split
    · simp [smDel]
    · simp only [smDel, List.filter_cons] at *
      rw [ih]

@[simp] theorem smDel_smSet [DecidableEq α] (m : SMap α) (k : Nat) (v : α) : smDel (smSet d m k v) k = smDel m k := by
  unfold smSet
  split
  · exact smDel_smDel m k
  · rw [smDel_smIns, smDel_smDel]

@[simp] theorem smSet_smSet [DecidableEq α] (m : SMap α) (k : Nat) (v w : α) : smSet d (smSet d m k v) k w = smSet d m k w := by
  conv_lhs => unfold smSet
  rw [show smDel (if v = d then smDel m k else smIns k v (smDel m k)) k = smDel m k from smDel_smSet (d := d) m k v]
  rfl

@[simp] theorem setCore_setCore (s : State) (c : Nat) (x y : Core) : setCore (setCore s c x) c y = setCore s c y := by
  simp [setCore]
@[simp] theorem modCore_modCore (s : State) (c : Nat) (f g : Core → Core) : modCore (modCore s c f) c g = modCore s c (g ∘ f) := by
  simp [modCore]
@[simp] theorem modCl_modCl (s : State) (c : Nat) (f g : Cluster → Cluster) : modCl (modCl s c f) c g = modCl s c (g ∘ f) := by
  simp [modCl, getCl]
@[simp] theorem modDie_modDie (s : State) (c : Nat) (f g : Die → Die) : modDie (modDie s c f) c g = modDie s c (g ∘ f) := by
  simp [modDie, getDie]
@[simp] theorem modHome_modHome (s : State) (c : Nat) (f g : HomeSt → HomeSt) : modHome (modHome s c f) c g = modHome s c (g ∘ f) := by
  simp [modHome, getHome]
@[simp] theorem modFn_modFn (s : State) (c : Nat) (f g : Fn → Fn) : modFn (modFn s c f) c g = modFn s c (g ∘ f) := by
  simp [modFn, getFn]
@[simp] theorem modCtx_modCtx (s : State) (c : Nat) (f g : Ctx → Ctx) : modCtx (modCtx s c f) c g = modCtx s c (g ∘ f) := by
  simp [modCtx, getCtx]
@[simp] theorem modCont_modCont (s : State) (c : Nat) (f g : Cont → Cont) : modCont (modCont s c f) c g = modCont s c (g ∘ f) := by
  simp [modCont, getCont]
@[simp] theorem modPort_modPort (s : State) (c : Nat) (f g : Port → Port) : modPort (modPort s c f) c g = modPort s c (g ∘ f) := by
  simp [modPort, getPort]
@[simp] theorem setQ_setQ (s : State) (k : Nat) (l m : List Packet) : setQ (setQ s k l) k m = setQ s k m := by
  simp [setQ]
@[simp] theorem setSlot_setSlot (s : State) (t : Tid) (x y : Slot) : setSlot (setSlot s t x) t y = setSlot s t y := by
  unfold setSlot modCore
  simp only [setCore_setCore, getCore_setCore_same, smSet_smSet]
@[simp] theorem modSlot_modSlot (s : State) (t : Tid) (f g : Slot → Slot) : modSlot (modSlot s t f) t g = modSlot s t (g ∘ f) := by
  simp [modSlot]

end Sys2Proof.Laws
end

