-- ==== Sys2Proof/Tests/Slice0.lean ====
section
/-!
SUPPORT. Tests: a term that each check of well-formedness refuses, words of the spec's encodings that decode, worked examples
of the spec, and, for the statements of Certificates/Slice0, states and operands that meet their hypotheses.
-/

namespace Sys2Proof.Tests

set_option Elab.async false

open Sys2Proof Sys2Proof.Machine Sys2Proof.Claim

/-! ### States -/

/-- A slot in rotation whose traps and upcalls have a handler, with 128 registers. -/
def runSlot : Slot := { uid := some 1, ctx := 3, pc := 0x2000000, wsize := 15, csr := { trapvec := 0x100, upvec := 0x200 } }
/-- The machine after reset with a slot as slot 0 of core 0. -/
def withSlot (sl : Slot) : State := setSlot State.reset {} sl
def s0 : State := withSlot runSlot
/-- The same with g[n] = v. -/
def s0g (l : List (Nat × Word)) : State := l.foldl (fun s p => regSet s {} runSlot p.1 p.2) s0
/-- A slot with ports, its first message register full. -/
def portSlot : Slot := { runSlot with ports := true, mb := [(0, { val := 9, full := true })] }
def sPort : State := withSlot portSlot

/-- A computation that answers; one that answers a state and one value. -/
def answers {α : Type} : X α → Bool
  | .ok _ => true
  | .error _ => false
def answersOne : X (State × List Word) → Bool
  | .ok (_, [_]) => true
  | _ => false
/-- A computation that answers one value after those that it was given. -/
def answersAfter (l : List Word) : X (State × List Word) → Bool
  | .ok (_, m) => m.length == l.length + 1 && m.take l.length == l
  | _ => false
theorem of_answersAfter {l : List Word} {x : X (State × List Word)} (h : answersAfter l x = true) : ∃ s v, x = .ok (s, l ++ [v]) := by
  cases x with
  | error e => cases h
  | ok p =>
    obtain ⟨s, m⟩ := p
    simp only [answersAfter, Bool.and_eq_true, beq_iff_eq] at h
    obtain ⟨hl, ht⟩ := h
    match hd : m.drop l.length, (by simp [hl] : (m.drop l.length).length = 1) with
    | [v], _ => exact ⟨s, v, by rw [← List.take_append_drop l.length m, ht, hd]⟩
theorem of_answers {α : Type} {x : X α} (h : answers x = true) : ∃ a, x = .ok a := by
  cases x with
  | ok a => exact ⟨a, rfl⟩
  | error e => cases h
theorem of_answersOne {x : X (State × List Word)} (h : answersOne x = true) : ∃ s v, x = .ok (s, [v]) := by
  cases x with
  | error e => cases h
  | ok p =>
    obtain ⟨s, l⟩ := p
    match l, h with
    | [v], _ => exact ⟨s, v, rfl⟩

theorem runs_s0 : Runs s0 ∧ Handled s0 := ⟨⟨rfl, rfl⟩, by decide, rfl, rfl⟩
theorem runs_sPort : Runs sPort := ⟨rfl, rfl⟩

/-! ### Witnesses: encoding, fetch and step -/

theorem witness_DecodeInvertsEncode : (Instr.add 5 6 127).encoded = true ∧ (Instr.add 5 6 127).wf = true ∧
    (Instr.slliFh 31 31).encoded = true ∧ (Instr.slliFh 31 31).wf = true := ⟨rfl, rfl, rfl, rfl⟩

theorem witness_EncodeInvertsDecode : ∃ i r, decode [0x81, 0x82, 0xE1, 0x00, 7] = .ok (i, r) := ⟨_, _, rfl⟩

/-- The two fetches: a halfword of 16 bits, and the two halves of a word. -/
theorem witness_StepRunsDecoded_short :
    let s := State.reset.withFetchWord 16 0x1940
    let sl := getSlot s {}
    s.sched = .issue 0 0 :: [] ∧ mayIssue s {} = true ∧ sl.csr.lateDue = false ∧ sl.pc ∉ sl.bps ∧ halfAt s {} sl sl.pc = .at 0 ∧
    eccStatus s 0 2 = 0 ∧ (codeByte s 0 0).getLsbD 0 = false ∧ decode [codeByte s 0 0, codeByte s 0 1] = .ok (.addFh 5 3, []) :=
  ⟨rfl, rfl, rfl, by decide, rfl, rfl, rfl, rfl⟩

theorem witness_StepRunsDecoded_long :
    let s := State.reset.withFetchWord 32 0x00E18281
    let s1 := holdHalf { s with sched := [] } 0 0
    halfAt s {} (getSlot s {}) (getSlot s {}).pc = .at 0 ∧ (codeByte s 0 0).getLsbD 0 = true ∧
    halfAt s1 {} (getSlot s1 {}) ((getSlot s {}).pc + 2) = .at 2 ∧ eccStatus s1 2 2 = 0 ∧
    decode [codeByte s 0 0, codeByte s 0 1, codeByte s1 0 2, codeByte s1 0 3] = .ok (.add 5 6 7, []) :=
  ⟨rfl, rfl, rfl, rfl, rfl⟩

theorem witness_StepRunsDecoded_other : heldByte (getCore State.reset 0) 5 = none ∧
    mayIssue { State.reset with sched := [.issue 3 4] } { core := 3, slot := 4 } = false ∧ isEvent .slackTick = true := ⟨rfl, rfl, rfl⟩

theorem witness_UndecodableTraps : Runs s0 ∧ (∃ x, decode [0xFF, 0xFF, 0xFF, 0xFF] = .error x) ∧ (∃ x, decode [0xFE, 0xFF] = .error x) :=
  ⟨runs_s0.1, ⟨_, rfl⟩, ⟨_, rfl⟩⟩

theorem witness_StepKeepsMemoryCanonical : ∃ s s', Memory.wf s.mem = true ∧ s.mem ≠ [] ∧ step s = .next s' :=
  ⟨{ State.reset with mem := [(8, 1)], sched := [.event .slackTick] }, _, rfl, by decide, rfl⟩

/-! ### Witnesses: scalar instructions -/

/-- The operands of the two- and three-operand forms, in the window of 128 registers, up to g127. -/
theorem witness_registers (len : Word) (i : Instr) (f : Word → Word → Word) : Runs s0 ∧
    chk (envFor len i s0) [127, 7] [5] [] = .ok () ∧ chk (envFor len i s0) [127, 7, 5] [5] [] = .ok () ∧
    ∃ s1 x s2 y s3 g s4, readR (envFor len i s0) s0 127 = .ok (s1, x) ∧ readR (envFor len i s0) s1 7 = .ok (s2, y) ∧
      readR (envFor len i s0) s2 5 = .ok (s3, g) ∧ writeR (envFor len i s0) s3 5 (f x y) = .ok s4 :=
  ⟨runs_s0.1, rfl, rfl, _, _, _, _, _, _, _, rfl, rfl, rfl, rfl⟩

/-- The same with a source and a destination that are message registers of a thread with ports. -/
theorem witness_ports (i : Instr) (f : Word → Word → Word) : Runs sPort ∧ chk (envFor 4 i sPort) [124, 7] [125] [] = .ok () ∧
    ∃ s1 x s2 y s3, readR (envFor 4 i sPort) sPort 124 = .ok (s1, x) ∧ readR (envFor 4 i sPort) s1 7 = .ok (s2, y) ∧
      writeR (envFor 4 i sPort) s2 125 (f x y) = .ok s3 := ⟨runs_sPort, rfl, _, _, _, _, _, rfl, rfl, rfl⟩

theorem witness_IntegerResults : Runs s0 ∧ chk (envFor 4 (.div 5 6 7) s0) [6, 7] [5] [] = .ok () ∧
    (let op : IterOp := { slot := 0, uid := 1, d := 5, v := 8, flags := 0, seed := 1 }
     let s := modCore (withSlot { runSlot with wait := some .iter }) 0 fun c => { c with iter := [op] }
     (getCore s 0).iter = op :: [] ∧ (getSlot s { core := 0, slot := op.slot }).uid = some op.uid ∧
       (getSlot s { core := 0, slot := op.slot }).wait = some .iter ∧
       ∃ s1, writeR (unitEnv s { core := 0, slot := op.slot }) (modCore s 0 fun c => { c with iter := [] }) op.d op.v = .ok s1) :=
  ⟨runs_s0.1, rfl, rfl, rfl, rfl, _, rfl⟩

theorem witness_SelectByPredicate : Runs s0 ∧ chk (envFor 4 (.sel 5 6 7 7 1) s0) [6, 7] [5] [] = .ok () := ⟨runs_s0.1, rfl⟩

/-! ### Witnesses: floats -/

/-- A zero sum, a quotient, a root, and a value at least twice the greatest binade. -/
theorem witness_FloatExactAndBounds : signedQ true 0 3 + signedQ false 0 5 = 0 ∧ (3 : Nat) ≠ 0 ∧ fmtE4M3 ∈ [fmtBF16, fmtFP16, fmtFP32, fmtFP64, fmtE4M3, fmtE5M2] ∧
    2 * formatValue fmtE4M3 (maxFinite fmtE4M3) ≤ |signedQ true 1 10| := by
  refine ⟨by norm_num [signedQ], by decide, by decide, ?_⟩
  have h : formatValue fmtE4M3 (maxFinite fmtE4M3) = signedQ false 14 5 := by
    have h1 : exponentOf fmtE4M3 (maxFinite fmtE4M3) = 15 := by decide
    have h2 : fractionOf fmtE4M3 (maxFinite fmtE4M3) = 6 := by decide
    have h3 : signOf fmtE4M3 (maxFinite fmtE4M3) = false := by decide
    unfold formatValue
    rw [h1, h2, h3]
    norm_num [signedQ, fmtE4M3]
  rw [h]
  norm_num [signedQ]

/-- A value of FP16's normal range, with 1.5, under stochastic rounding. -/
theorem witness_StochasticRounding : fmtFP16 ∈ [fmtBF16, fmtFP16, fmtFP32, fmtFP64] ∧ ({ rm := 5 } : RC).rm = 5 ∧
    (2 : ℚ) ^ (1 - (fmtBias fmtFP16 : Int)) ≤ signedQ false 3 (-1) ∧ signedQ false 3 (-1) < formatValue fmtFP16 (maxFinite fmtFP16) := by
  have h1 : exponentOf fmtFP16 (maxFinite fmtFP16) = 30 := by decide
  have h2 : fractionOf fmtFP16 (maxFinite fmtFP16) = 1023 := by decide
  have h3 : signOf fmtFP16 (maxFinite fmtFP16) = false := by decide
  have h4 : fmtBias fmtFP16 = 15 := by decide
  refine ⟨by decide, rfl, ?_, ?_⟩
  · rw [h4]
    norm_num [signedQ]
  · unfold formatValue
    rw [h1, h2, h3]
    norm_num [signedQ, fmtFP16]

theorem witness_RoundingLaw : fmtE4M3 ∈ [fmtBF16, fmtFP16, fmtFP32, fmtFP64, fmtE4M3, fmtE5M2] ∧ ({ rm := 4 } : RC).rm < 5 ∧ (449 : Nat) ≠ 0 ∧
    |signedQ true 449 (-10)| ≤ formatValue fmtE4M3 (maxFinite fmtE4M3) := by
  have h1 : exponentOf fmtE4M3 (maxFinite fmtE4M3) = 15 := by decide
  have h2 : fractionOf fmtE4M3 (maxFinite fmtE4M3) = 6 := by decide
  have h3 : signOf fmtE4M3 (maxFinite fmtE4M3) = false := by decide
  refine ⟨by decide, by decide, by decide, ?_⟩
  unfold formatValue
  rw [h1, h2, h3]
  norm_num [signedQ, fmtE4M3]

theorem witness_FloatSelectsAndClasses : Runs s0 ∧ chk (envFor 4 (.fminF32 5 6 7) s0) [6, 7] [5] [] = .ok () ∧
    chk (envFor 4 (.fclassF64 5 6) s0) [6] [5] [] = .ok () := ⟨runs_s0.1, rfl, rfl⟩

/-! ### Witnesses: registers, exceptions, control flow -/

/-- A thread with ports whose queue 0 holds one control value that a handler takes; queue 1 is disabled. -/
def sQueue : State :=
  setFull (modCore (qSet sPort 0 0 { w0 := 0x4300040000, w1 := 0x100000000 }) 0 fun c => { c with hnd0 := 0x4000 }) (scrKey 0 4) 4 true

theorem witness_RegisterRules_ports : (envFor 4 .eret sQueue).sl.ports = true ∧ coreIdx (envFor 4 .eret sQueue).t.core < 16 ∧
    (getCore sQueue 1).link0.length < 4 ∧ qEn (qGet sQueue 0 0) = true ∧ qCount (qGet sQueue 0 0) ≠ 0 ∧ (qPeek sQueue 0 0).2 = true ∧
    (getCore sQueue 0).hnd0 ≠ 0 ∧ (envFor 4 .eret sQueue).sl.handler = none ∧ qEn (qGet sQueue 0 1) = false := by decide

/-- A window of 8 registers, of which a two-operand form names g8 and g127, a vector form v1. -/
theorem witness_RegisterRules_window : let s := withSlot { runSlot with wsize := 0 }
    Runs s ∧ (getSlot s s.cur).ports = false ∧ winW (getSlot s s.cur) = 8 ∧ winW (getSlot s s.cur) ≤ (8 : BitVec 7).toNat ∧
    winW (getSlot s s.cur) ≤ 8 * (1 : BitVec 4).toNat := ⟨⟨rfl, rfl⟩, rfl, rfl, by decide, by decide⟩

theorem witness_ExceptionRules : (getSlot s0 {}).csr.trapvec ≠ 0 ∧ (getSlot s0 {}).csr.trapActive = false ∧ (getSlot s0 {}).csr.upvec ≠ 0 ∧
    (getSlot s0 {}).csr.upcallActive = false ∧ (getSlot State.reset {}).csr.trapvec = 0 ∧ (getSlot State.reset {}).csr.upvec = 0 := by decide

theorem witness_BranchAndJumpResults : Runs s0 ∧ chk (envFor 4 (.jalr 5 6 1) s0) [6] [5] [] = .ok () ∧
    (∃ s1 x, readR (envFor 4 (.jalr 5 6 1) s0) s0 6 = .ok (s1, x) ∧ (x + BitVec.ofInt 64 (1 : BitVec 11).toInt).getLsbD 0 = true ∧
      (x + BitVec.ofInt 64 (2 : BitVec 11).toInt).getLsbD 0 = false) := ⟨runs_s0.1, rfl, _, _, rfl, by decide, by decide⟩

theorem witness_PredicateBranch : Runs s0 := runs_s0.1

/-- A device thread with and without a store in flight. -/
theorem witness_TrapInstructionResults_call :
    let s := withSlot { runSlot with dev := true }
    let s' := withSlot { runSlot with dev := true, infl := [{ id := 1, kind := .store, home := 0 }] }
    Runs s ∧ (getSlot s s.cur).dev = true ∧ chk (envFor 4 .syscall s) [11, 4, 5, 6, 7, 8] [] [] = .ok () ∧ storesDone (getSlot s s.cur) = true ∧
    (getFn s (coreFn s s.cur.core)).replay = false ∧ storesDone (getSlot s' s'.cur) = false ∧
    (getSlot s0 s0.cur).dev = false ∧ chk (envFor 4 .syscall s0) [11] [] [] = .ok () := ⟨⟨rfl, rfl⟩, rfl, rfl, rfl, rfl, rfl, rfl, rfl⟩

/-- The debug unit on, a trap active, an upcall active, a light handler running. -/
theorem witness_TrapInstructionResults_return :
    let s := modFn (withSlot { runSlot with csr := { runSlot.csr with trapActive := true, upcallActive := true }, handler := some 16 }) 0
      fun f => { f with debug := true }
    Runs s ∧ (getFn s (coreFn s s.cur.core)).debug = true ∧ (getSlot s s.cur).csr.trapActive = true ∧ (getSlot s s.cur).csr.upcallActive = true ∧
    (getSlot s s.cur).handler = some 16 ∧ (getFn s0 (coreFn s0 s0.cur.core)).debug = false ∧ (getSlot s0 s0.cur).handler = none :=
  ⟨⟨rfl, rfl⟩, rfl, rfl, rfl, rfl, rfl, rfl⟩

/-- fflags read while nothing is outstanding; a number that is not assigned; one from 0x400 up; a privileged HALT. -/
theorem witness_SystemRegisterResults_reads :
    let s := modFn (withSlot { runSlot with priv := true }) 0 fun f => { f with debug := true }
    Runs s0 ∧ chk (envFor 4 (.csrrd 5 0x41) s0) [] [5] [] = .ok () ∧ (0x041, 0) ∈ csrTable s0 ∧ (getSlot s0 s0.cur).defer = [] ∧
    (getSlot s0 s0.cur).vops = [] ∧ 0x006 ∉ (csrTable s0).map (·.1) ∧ (getSlot s0 s0.cur).priv = false ∧
    (getSlot s s.cur).priv = true ∧ (getFn s (coreFn s s.cur.core)).debug = true := by
  refine ⟨runs_s0.1, rfl, by decide, rfl, rfl, by decide, rfl, rfl, rfl⟩

/-- fmode takes the rounding codes 0 to 5; bit 4 is reserved; ctid is read-only. -/
theorem witness_SystemRegisterResults_writes : let s := s0g [(6, 5), (7, 6)]
    Runs s ∧ chk (envFor 4 (.csrwr 5 6 0x40) s) [6] [5] [] = .ok () ∧ (0x040, ~~~0xF) ∈ csrWritable ∧
    (∃ s1 x, readR (envFor 4 (.csrwr 5 6 0x40) s) s 6 = .ok (s1, x) ∧ x &&& ~~~0xF = 0 ∧ x.toNat % 8 ≤ 5) ∧
    (∃ s1 x, readR (envFor 4 (.csrwr 5 7 0x40) s) s 7 = .ok (s1, x) ∧ 5 < x.toNat % 8) := by
  refine ⟨⟨rfl, rfl⟩, rfl, by decide, ⟨_, _, rfl, by decide, by decide⟩, ⟨_, _, rfl, by decide⟩⟩

theorem witness_SystemRegisterResults_ring : let s := s0g [(6, 0x200000000), (7, 0x300000000)]
    Runs s ∧ chk (envFor 4 (.seqq 5 6) s) [6] [5] [] = .ok () ∧ (∃ s1 x, readR (envFor 4 (.seqq 5 6) s) s 6 = .ok (s1, x) ∧ x.toNat / 2 ^ 32 = 2) ∧
    (∃ s1 x, readR (envFor 4 (.seqq 5 7) s) s 7 = .ok (s1, x) ∧ 3 * 2 ^ 32 ≤ x.toNat) := ⟨⟨rfl, rfl⟩, rfl, ⟨_, _, rfl, by decide⟩, ⟨_, _, rfl, by decide⟩⟩

theorem witness_InstructionFlush : Runs s0 ∧ storesDone (getSlot s0 s0.cur) = true ∧
    storesDone { runSlot with infl := [{ id := 1, kind := .store, home := 0 }] } = false := ⟨runs_s0.1, rfl, rfl⟩

/-! ### Witnesses: memory -/

/-- g20 = 16 in the own scratchpad, g21 = host memory (a context's page that the TLB maps), g22 = the scratchpad of core 1. -/
def sMem : State :=
  let e : TlbEnt := { w0 := BitVec.ofNat 64 (3 * 2 ^ 48 + 0x2000), w1 := 0x1F, w2 := 0 }
  modCtx (modCore (s0g [(20, 16), (21, 0x2000000), (22, 0x100000000100010), (23, 17), (24, 0x2000001), (25, 0x100010)]) 0 fun c =>
    { c with tlb := smSet {} [] 0 e }) 3 fun c => { c with live := true }

/-- The key of the page that sMem maps. -/
def pageKey : Nat := match place (envFor 4 .eret sMem) 0x2000000 3 0 with | .ok (.mem k _ _) => k | _ => 0

theorem witness_LoadRules_ld : Runs sMem ∧ chk (envFor 4 (.ld 5 20 3 0 0) sMem) [] [5] [20] = .ok () ∧
    regGet sMem sMem.cur (getSlot sMem sMem.cur) 20 = 16 ∧ regGet sMem sMem.cur (getSlot sMem sMem.cur) 23 = 17 ∧
    (∃ s1 v, phaseRead (envFor 4 (.ld 5 20 3 0 0) sMem) sMem [16] [5] 16 8 (skOf (getSlot sMem sMem.cur).csr 0) true = .ok (s1, [16] ++ [v])) ∧
    issued sMem 0 16 = 16 ∧
    (∃ s2, writeR (envFor 4 (.ld 5 20 3 0 0) sMem) sMem 5 0 = .ok s2) ∧
    (∃ s1 acc i, remapIdx (envFor 4 (.ldx 5 20 23 0 3) sMem) sMem [16, 17] [5] 0 17 = .ok (s1, acc, i)) :=
  ⟨⟨rfl, rfl⟩, rfl, rfl, rfl, of_answersAfter (by decide +kernel), rfl, ⟨_, rfl⟩, _, _, _, rfl⟩

/-- The three kinds of place of a read, a reply, a fault, and a word with a mark. -/
theorem witness_LoadRules_reads :
    let e := envFor 4 .eret sMem
    let marked := { sMem with marks := [scrKey 0 16 / 8] }
    e.sl.ph = [] ∧ e.sl.res = none ∧ (∃ x pg, place e 16 1 0 = .ok (.mem (scrKey 0 16) x pg)) ∧ isScr (scrKey 0 16) = true ∧ keyCore (scrKey 0 16) = 0 ∧
    traceRoom sMem 0 = true ∧ replayOk sMem (coreUnit 0) 0 (thrSrc e) (scrKey 0 16) = true ∧ eccStatus sMem (scrKey 0 16) 8 = 0 ∧
    eccStatus marked (scrKey 0 16) 8 = 2 ∧ (∃ x pg, place e 0x2000000 1 0 = .ok (.mem pageKey x pg)) ∧
    (∃ ent off, place e 0x100000 1 0 = .ok (.reg ent off)) ∧
    (∃ x pg, place e 0x100000000100010 1 0 = .ok (.mem (scrKey 1 16) x pg)) ∧ isHost (scrKey 1 16) = false ∧ homeOf (scrKey 1 16) = some (coreUnit 1) :=
  ⟨rfl, rfl, ⟨_, _, rfl⟩, rfl, rfl, rfl, rfl, rfl, rfl, ⟨_, _, rfl⟩, ⟨_, _, rfl⟩, ⟨_, _, rfl⟩, rfl, rfl⟩

/-- The remap bounds: remap2 misaligned, the index at the bound and below it. -/
theorem witness_LoadRules_remap : (2 : Word).toNat % 4 ≠ 0 ∧ (16 : Word).toNat % 4 = 0 ∧ (4 : Word).toNat ≤ (4 : Word).toNat ∧
    (∃ s1 v, phaseRead (envFor 4 .eret sMem) sMem [16, 0] [5] (16 + 4 * 0) 4 0 = .ok (s1, [16, 0] ++ [v])) ∧
    Runs sMem ∧ (getSlot sMem sMem.cur).ph = [] ∧ chk (envFor 4 (.rmap 5 6 7) sMem) [6, 7] [5] [] = .ok () := ⟨by decide, by decide, by decide, of_answersAfter (by decide +kernel), ⟨rfl, rfl⟩, rfl, rfl⟩

theorem witness_StoreRules_st : Runs sMem ∧ chk (envFor 4 (.st 6 20 3 0 0) sMem) [6] [] [20] = .ok () ∧
    place (envFor 4 (.st 6 20 3 0 0) sMem) 16 2 (skOf (getSlot sMem sMem.cur).csr 0) = .ok (.mem (scrKey 0 16) {} false) ∧
    storeChk (envFor 4 (.st 6 20 3 0 0) sMem) sMem (.mem (scrKey 0 16) {} false) 8 16 = .ok () ∧
    (∃ c v, storeChk (envFor 4 (.st 6 20 3 0 0) sMem) (setSlot sMem { core := 0, slot := 1 } { uid := some 2, ctx := 4, wbase := 200 }) (.reg 200 0) 8 0x100640 = .error (.trap c v)) ∧
    readR (envFor 4 (.st 6 20 3 0 0) sMem) sMem 6 = .ok (sMem, 0) ∧
    ∃ s2, storeAt (envFor 4 (.st 6 20 3 0 0) sMem) sMem (.mem (scrKey 0 16) {} false) 8 16 0 (skOf (getSlot sMem sMem.cur).csr 0) = .ok s2 :=
  ⟨⟨rfl, rfl⟩, rfl, rfl, rfl, ⟨_, _, rfl⟩, rfl, of_answers (by decide +kernel)⟩

/-- A store whose home is another core, with room; host memory is the home of no unit of the package. -/
theorem witness_StoreRules_places : let e := envFor 4 .eret sMem
    (getFn sMem (coreFn sMem 0)).recMode = false ∧ (getFn sMem (coreFn sMem 0)).replay = false ∧
    replayOk sMem (coreUnit 0) 1 (thrSrc e) (scrKey 0 16) = true ∧ isHost (hostKey + 8) = true ∧
    storesInFlight e.sl < 1023 ∧ outRoom e.s 0 0 = true ∧ homeOf (scrKey 1 16) = some (coreUnit 1) :=
  ⟨rfl, rfl, rfl, by decide, by decide, rfl, rfl⟩

/-- The ends of each part of the local aperture, of the global one, and a register of the own window and of another context's. -/
theorem witness_StoreRules_apertures :
    let e := envFor 4 .eret sMem
    (∃ p, place e (BitVec.ofNat 64 (scrSize 0 - 1)) 1 0 = .ok p) ∧ (∃ p, place e 0x100000 1 0 = .ok p) ∧ (∃ p, place e 0x103FFF 1 0 = .ok p) ∧
    (∃ p, place e 0x104000 1 0 = .ok p) ∧ (∃ p, place e 0x1043FF 1 0 = .ok p) ∧ (∃ p, place e 0x110000 1 0 = .ok p) ∧
    (∃ p, place e 0x117FFF 1 0 = .ok p) ∧ (∃ v, place e 0xFFFFFF 1 0 = .error v) ∧ (∃ p, place e 0x100000000000000 1 0 = .ok p) ∧
    (∃ sl, windowOf sMem 0 2 = some (sl, 2) ∧ sl.ctx = 3 ∧ 2 ∉ sl.awaits ∧ outstanding sl 2 = false) ∧
    (∃ sl, windowOf (setSlot sMem { core := 0, slot := 1 } { uid := some 2, ctx := 4, wbase := 200 }) 0 200 = some (sl, 0) ∧ sl.ctx ≠ e.sl.ctx) := by
  refine ⟨⟨_, rfl⟩, ⟨_, rfl⟩, ⟨_, rfl⟩, ⟨_, rfl⟩, ⟨_, rfl⟩, ⟨_, rfl⟩, ⟨_, rfl⟩, ⟨_, rfl⟩, ⟨_, rfl⟩, ⟨_, rfl, rfl, by decide, by decide⟩, ⟨_, rfl, by decide⟩⟩

/-- A slot that has its reply. -/
def answered (r : Res) : State := withSlot { runSlot with res := some r }

theorem witness_SyncAndAtomicResults : let e := envFor 4 (.lds 5 20 1 0 0 0) sMem
    Runs sMem ∧ noReply sMem ∧ chk e [] [5] [20] = .ok () ∧ (∃ x pg, place e 16 3 0x040 = .ok (.mem (scrKey 0 16) x pg)) ∧
    homeOf (scrKey 0 16) = some (coreUnit 0) ∧ storesDone (getSlot sMem sMem.cur) = true ∧ storesInFlight (getSlot sMem sMem.cur) < 1023 ∧ outRoom sMem 0 0 = true ∧
    keyCore (scrKey 1 16) ≠ sMem.cur.core ∧ chk (envFor 4 (.sts 6 20 1 0 0) sMem) [6] [] [20] = .ok () ∧
    chk (envFor 4 (.amocas 5 20 6) sMem) [6, 5] [5] [20] = .ok () ∧ chk (envFor 4 (.amoadd 5 20 6) sMem) [6] [5] [20] = .ok () ∧
    isHost (scrKey 0 16) = false ∧ replayOk sMem (coreUnit 0) 2 (thrSrc e) (scrKey 0 16) = true ∧
    Runs (answered (.words [7])) ∧ (getSlot (answered (.words [7])) {}).ph = [] ∧ (getSlot (answered (.words [7])) {}).res = some (.words [7]) ∧
    Runs (answered (.fault 0x08 1)) ∧ (getSlot (answered (.fault 0x08 1)) {}).res = some (.fault 0x08 1) := by
  refine ⟨⟨rfl, rfl⟩, ⟨rfl, rfl⟩, rfl, ⟨_, _, rfl⟩, rfl, rfl, by decide, rfl, by decide, rfl, rfl, rfl, rfl, rfl, ⟨rfl, rfl⟩, rfl, rfl, ⟨rfl, rfl⟩, rfl⟩

/-- A fence that is ready and one that is not; a wait at its bounds; a timeline wait at, below and above the issued value;
a covered fault. -/
theorem witness_FencesAndWaits :
    let late := withSlot { runSlot with ring := [{ seq := 4, st := .faulted 0x15, ord := 2 }] }
    let tl := withSlot { runSlot with tls := { copy := { issued := 5, completed := 3, opn := [{ num := 4 }, { num := 5 }] } } }
    Runs s0 ∧ (getSlot s0 {}).ring = [] ∧ (getSlot s0 {}).infl = [] ∧ noFault runSlot (fun _ _ => true) ∧
    (∃ o src c num, covered (getSlot late {}) true (fun _ _ => false) = (o, src, c, num) :: []) ∧
    ringPending (getSlot tl {}) = false ∧ noFault (getSlot tl {}) (fun _ _ => true) ∧ (tlGet (getSlot tl {}).tls 0).issued.toNat = 5 ∧
    (tlGet (getSlot tl {}).tls 0).completed.toNat = 3 ∧ ringPending { runSlot with ring := [{ seq := 4, st := .pending }] } = true ∧
    chk (envFor 4 (.bar 20 1) sMem) [] [] [20] = .ok () := by
  refine ⟨runs_s0.1, rfl, rfl, ⟨by intro r h; exact absurd h (List.not_mem_nil), by decide⟩, ⟨_, _, _, _, rfl⟩, rfl,
    ⟨by intro r h; exact absurd h (List.not_mem_nil), by decide⟩, rfl, rfl, rfl, rfl⟩

/-- Target words: message register 3 of slot 2, queue 63 of core 0, and, malformed, kind 3; the registers of the queue
instructions at their bounds. -/
theorem witness_MessagesAndQueues : let s := s0g [(20, 3 * 2 ^ 17 + 2), (21, 2 ^ 20 + 63), (22, 3 * 2 ^ 20), (23, 63), (24, 64), (25, 1), (26, 2), (27, 0x300010000)]
    Runs s ∧ chk (envFor 4 (.send 5 20 6) s) [6] [5] [20] = .ok () ∧ (3 * 2 ^ 17 + 2 : Word).toNat / 2 ^ 20 % 4 = 0 ∧
    (2 ^ 20 + 63 : Word).toNat / 2 ^ 20 % 4 = 1 ∧ (3 * 2 ^ 20 : Word).toNat / 2 ^ 20 % 4 = 3 ∧ coreExists 0 = true ∧ outRoom s 0 0 = true ∧ storesInFlight (getSlot s s.cur) < 1023 ∧
    chk (envFor 4 (.qcfg 5 23 27) s) [27] [5] [23] = .ok () ∧ regGet s {} runSlot 23 = 63 ∧ regGet s {} runSlot 24 = 64 ∧ regGet s {} runSlot 25 = 1 ∧
    regGet s {} runSlot 26 = 2 ∧ chk (envFor 4 (.qstat 5 24) s) [] [5] [24] = .ok () :=
  ⟨⟨rfl, rfl⟩, rfl, by decide, by decide, by decide, rfl, rfl, by decide, rfl, rfl, rfl, rfl, rfl, rfl⟩

/-! ### Witnesses: vectors -/

/-- The vector forms take their fields and a ring entry; every lane is active under k0. -/
theorem witness_vectors (len : Word) (i : Instr) : Runs s0 ∧ chk (envFor len i s0) [] [] [] [15, 1, 2] = .ok () ∧
    chk (envFor len i s0) [] [] [] [15, 1] = .ok () ∧ (∃ s1 n, takeRing (envFor len i s0) s0 false false = .ok (s1, n)) ∧
    laneOn s0 0 63 = true ∧ laneOn s0 1 0 = false := ⟨runs_s0.1, rfl, rfl, ⟨_, _, rfl⟩, rfl, rfl⟩

theorem witness_vectors_wf : (Instr.vadd 15 1 2 7 1 3).wf = true ∧ (Instr.vfdiv 15 1 2 7 1 3).wf = true ∧ (Instr.vcmpeq 7 1 2 7 1 3).wf = true ∧
    (Instr.vcvtf2b 1 2 1 7 1).wf = true ∧ (Instr.vqnt 1 2 4 0 2).wf = true ∧ (Instr.vdqnt 1 2 4 0 0 2).wf = true ∧ (Instr.baddq 1 2 3 0).wf = true ∧
    (Instr.vsel 1 2 3 7 2).wf = true ∧ (Instr.vredfadd 1 2 7 1 2).wf = true ∧ (Instr.vaddFh 15 15).wf = true := ⟨rfl, rfl, rfl, rfl, rfl, rfl, rfl, rfl, rfl, rfl⟩

/-- A thread with a deferred result of two registers. -/
theorem witness_VectorFloatRules :
    let v : Deferred := { seq := 3, writes := [(8, 1), (9, 2)], flags := 1 }
    let s := withSlot { runSlot with defer := [v] }
    (getSlot s { core := 0, slot := 0 }).defer = v :: [] ∧ (v.writes.map (·.1)).Nodup ∧ (8, 1) ∈ v.writes := ⟨rfl, by decide, by decide⟩

/-- A companion entry that is good, the scale FP16 one and the zero point at its bound, and one whose byte 3 is not 0. -/
theorem witness_VectorFormatRules :
    let s := s0g [(15, 0x000F3C0000000000), (23, 0x01003C0000000000)]
    bitsAt s s 1 480 32 / 2 ^ 24 = 0 ∧ formatFinite fmtFP16 (bitsAt s s 1 480 32 % 65536) = true ∧ bitsAt s s 1 480 32 / 65536 % 256 ≤ 15 ∧
    bitsAt s s 2 480 32 / 2 ^ 24 = 1 := by decide +kernel

theorem witness_VectorIntegerRules : chk (envFor 4 (.vins 1 127 2) s0) [127, 2] [] [] [1] = .ok () ∧ chk (envFor 4 (.vextr 5 1 2) s0) [2] [5] [] [1] = .ok () ∧
    (1 : BitVec 4) ≠ 0 := ⟨rfl, rfl, by decide⟩

/-- Lanes in the own scratchpad from g20, one misaligned start, and for the last bytes of the scratchpad. -/
theorem witness_VectorMemoryRules : let s := s0g [(20, 64), (21, 65), (22, BitVec.ofNat 64 (scrSize 0 - 64))]
    (Instr.vld 1 20 0 2 0).wf = true ∧ (Instr.vscat 1 20 2 0 2 0).wf = true ∧ chk (envFor 4 (.vld 1 20 0 2 0) s) [] [] [20] [1] = .ok () ∧
    (∀ i, i < 16 → (laneEA s 0 20 0 2 i).toNat % 4 = 0 ∧ (laneEA s 0 20 0 2 i).toNat + 4 ≤ scrSize 0) ∧
    (∀ i, i < 16 → (laneEA s 0 22 0 2 i).toNat + 4 ≤ scrSize 0) ∧ (∀ i, i < 16 → eccStatus s (ownKey s (laneEA s 0 20 0 2 i)) 4 = 0) ∧
    (laneEA s 0 21 0 2 0).toNat % 4 ≠ 0 ∧ (getFn s (coreFn s 0)).recMode = false ∧ (getFn s (coreFn s 0)).replay = false ∧
    storesInFlight (getSlot s s.cur) < 1023 ∧ ringGate (envFor 4 (.vld 1 20 0 2 0) s) = .ok () ∧ (∃ s1 n, takeRing (envFor 4 (.vld 1 20 0 2 0) s) s false false = .ok (s1, n)) := by
  refine ⟨rfl, rfl, rfl, by decide +kernel, by decide +kernel, by decide +kernel, by decide +kernel, rfl, rfl, by decide, rfl, ⟨_, _, rfl⟩⟩

theorem witness_VectorMemoryRules_full :
    let s := s0g [(20, 64), (21, 65)]
    let s' := withSlot { runSlot with ph := [3], res := some (.words [1, 2, 3, 4, 5, 6, 7, 8, 0x150010]) }
    (Instr.vldf 1 20 0 2 0).wf = true ∧ (getSlot s {}).ph = [] ∧ ringGate (envFor 4 (.vldf 1 20 0 2 0) s) = .ok () ∧ (∃ x pg, place (envFor 4 (.vldf 1 20 0 2 0) s) 64 1 0x040 = .ok (.mem (scrKey 0 64) x pg)) ∧
    scrKey 0 64 % 0x100000 + 64 ≤ scrSize (keyCore (scrKey 0 64)) ∧ Runs s' ∧ (getSlot s' {}).res = some (.words ([1, 2, 3, 4, 5, 6, 7, 8] ++ [0x150010])) := by
  refine ⟨rfl, rfl, rfl, ⟨_, _, rfl⟩, by decide +kernel, ⟨rfl, rfl⟩, rfl⟩

/-! ### Witnesses: tasks and thunks -/

/-- A thread whose frame g2 and spill area lie in its own scratchpad, with storage for one segment there; the TLB maps a page; g20 is
even, g21 odd, g22 a bead's handle, g23 a misaligned one. -/
def taskSlot : Slot := { runSlot with spb := 0x2000, spl := 0x3000 }
def sTask : State :=
  let e : TlbEnt := { w0 := BitVec.ofNat 64 (3 * 2 ^ 48 + 0x2000), w1 := 0x1F, w2 := 0 }
  let s := setSlot State.reset {} taskSlot
  let s := modCtx (modCore s 0 fun c => { c with tlb := smSet {} [] 0 e }) 3 fun c => { c with live := true, segs := 1, segB := 0x8000 }
  [(2, 0x1000), (20, 0x2000100), (21, 0x2000101), (22, 0x2000200), (23, 0x2000201)].foldl (fun s p => regSet s {} taskSlot p.1 p.2) s

theorem drained_runSlot : Drained taskSlot := ⟨by intro r h; exact absurd h List.not_mem_nil, by decide, rfl, rfl, rfl⟩

theorem noLate_sTask : NoLate sTask := ⟨by intro r h; exact absurd h List.not_mem_nil, by decide⟩

theorem witness_ThreadLifeResults_fork : Runs sTask ∧ MaySuspend sTask ∧ NoLate sTask ∧ chk (envFor 4 (.spawn 20 6) sTask) [20, 6] [] [] = .ok () ∧
    freeSeg sTask 0 3 = some 0 ∧ freeSeg s0 0 3 = none ∧ urgentSlot sTask {} taskSlot = false ∧ (getCore sTask 0).deque.length < 32 ∧
    dequeGate sTask 0 (thrSrc (envFor 4 (.spawn 20 6) sTask)) = true ∧ framePtr sTask = 0x1000 ∧
    (∃ k, homeKey (envFor 4 (.spawn 20 6) sTask) 0x1000 3 = .ok k) ∧
    (∃ s1, storeX (envFor 4 (.spawn 20 6) sTask) sTask 0x2000 (burstWords sTask {} taskSlot) = .ok s1) ∧
    (∃ s2, storeX (envFor 4 (.spawn 20 6) sTask) sTask (segAddr sTask 3 0 0) [0, 0] = .ok s2) :=
  ⟨⟨rfl, rfl⟩, ⟨rfl, by decide +kernel, drained_runSlot⟩, noLate_sTask, rfl, rfl, rfl, rfl, by decide, rfl, rfl, of_answers (by decide +kernel), of_answers (by decide +kernel), of_answers (by decide +kernel)⟩

/-- The pending and the two final states of a join, with and without a frame to return to. -/
theorem witness_ThreadLifeResults_join :
    let back := fun r => withSlot { taskSlot with res := some r }
    let child := withSlot { taskSlot with join := 0x1000 }
    Runs (back .ok) ∧ (getSlot (back .ok) {}).res = some .ok ∧ MayEnd (back .ok) ∧ (getSlot (back .waits) {}).res = some .waits ∧
    (getSlot (back (.fault 0x12 5)) {}).res = some (.fault 0x12 5) ∧ (getSlot sTask {}).res = none ∧ (getSlot sTask {}).csr.spawned = false ∧
    (getSlot sTask {}).join = 0 ∧ (getSlot child {}).join ≠ 0 ∧ MayEnd sTask := by
  refine ⟨⟨rfl, rfl⟩, rfl, ⟨rfl, ⟨by intro r h; exact absurd h List.not_mem_nil, by decide⟩, rfl⟩, rfl, rfl, rfl, rfl, rfl, by decide,
    ⟨rfl, ⟨by intro r h; exact absurd h List.not_mem_nil, by decide⟩, rfl⟩⟩

theorem witness_ThreadLifeResults_leave :
    let t := withSlot { taskSlot with csr := { taskSlot.csr with spawned := true } }
    let p := withSlot { taskSlot with ports := true }
    (getSlot t {}).csr.spawned = true ∧ (envFor 4 .sync sTask).sl = getSlot (envFor 4 .sync sTask).s (envFor 4 .sync sTask).t ∧
    (envFor 4 .sync p).sl.ports = true ∧ (envFor 4 .sync p).sl.uid = some 1 := ⟨rfl, rfl, rfl, rfl⟩

/-- A nest in the own scratchpad: counter, extents 10 by 20, rank 2, 4 parts, index registers g10 and g11. -/
def sNest : State :=
  let n : Nest := { addr := 64, counter := 128, ext0 := 10, ext1 := 20, ext2 := 0, rank := 2, minchunk := 0, parts := 4, reg0 := 10, reg1 := 11, reg2 := 0 }
  regSet (withSlot { runSlot with nest := some n }) {} runSlot 20 64

theorem witness_ThreadLifeResults_nest : Runs sNest ∧ chk (envFor 4 (.lsetup 20) sNest) [20] [] [] = .ok () ∧ chk (envFor 4 (.lnext 5 20) sNest) [20] [5] [] = .ok () ∧
    (∃ s1, opnd (envFor 4 (.lnext 5 20) sNest) sNest 0 20 = .ok (s1, 64)) ∧ (∃ n, (getSlot sNest {}).nest = some n ∧ n.addr = 64 ∧ (extents n).prod = 200 ∧
      chk (envFor 4 (.lnext 5 20) sNest) [] (indexRegs n) [] = .ok () ∧ ∃ x pg, place (envFor 4 (.lnext 5 20) sNest) n.counter 3 0 = .ok (.mem (scrKey 0 128) x pg)) ∧
    replayOk sNest (coreUnit 0) 2 (thrSrc (envFor 4 (.lnext 5 20) sNest)) (scrKey 0 128) = true ∧ eccStatus sNest (scrKey 0 128) 8 = 0 :=
  ⟨⟨rfl, rfl⟩, rfl, rfl, ⟨_, rfl⟩, ⟨_, rfl, rfl, rfl, rfl, _, _, rfl⟩, rfl, rfl⟩

theorem witness_SuspensionRules : chk (envFor 4 (.park 20 6) sTask) [20, 6] [] [] = .ok () ∧ chk (envFor 4 (.susp 22) sTask) [22] [] [] = .ok () ∧
    chk (envFor 4 (.resume 5 22 6) sTask) [22, 6] [5] [] = .ok () ∧ (∃ s1, writeOut (envFor 4 .yield sTask) sTask (0x2000000 + 4) = .ok s1) ∧
    (∃ x pg, place (envFor 4 (.park 20 6) sTask) 0x2000100 1 0 = .ok (.mem 0x100 x pg)) ∧ isHost 0x100 = false ∧ (homeOf 0x100).isSome = true ∧
    (∃ x pg, place (envFor 4 (.susp 22) sTask) 0x2000200 3 0 = .ok (.mem 0x200 x pg)) ∧ storesDone taskSlot = true ∧
    NoLate sTask ∧ portSize taskSlot.ports taskSlot.wsize = taskSlot.wsize ∧ portSteal taskSlot.ports taskSlot.steal = taskSlot.steal ∧
    (getCont State.reset 9).deliv = none ∧ (getCont State.reset 9).lateN = 0 ∧ (getCont State.reset 9).ctx = (getSlot State.reset {}).ctx :=
  ⟨rfl, rfl, rfl, of_answers (by decide +kernel), ⟨_, _, rfl⟩, rfl, rfl, ⟨_, _, rfl⟩, rfl, noLate_sTask, rfl, rfl, rfl, rfl, rfl⟩

/-- The handle g22 names a bead in the mapped page. -/
theorem bead_sTask : ∃ u, NamesBead sTask (envFor 4 .eret sTask) 0x2000200 0x200 u :=
  ⟨_, by decide, ⟨_, _, rfl⟩, rfl, rfl⟩

theorem witness_BeadInstructionResults_demand :
    let back := withSlot { taskSlot with deliv := some (.value 7 true 1) }
    chk (envFor 4 (.force 5 22) sTask) [22] [5] [] = .ok () ∧ (getSlot sTask {}).deliv = none ∧ taskSlot.spb.toNat + burstOf taskSlot ≤ taskSlot.spl.toNat ∧
    (∃ s1, opnd (envFor 4 (.force 5 22) sTask) sTask 0 22 = .ok (s1, 0x2000200)) ∧ Runs back ∧ (getSlot back {}).deliv = some (.value 7 true 1) ∧
    (∃ s1, writeR (envFor 4 (.force 5 22) back) (orFlags back {} 1) 5 7 = .ok s1) ∧ (∃ s1, writeOut (envFor 4 (.force 5 22) sTask) sTask 0x2000000 = .ok s1) :=
  ⟨rfl, rfl, by decide +kernel, ⟨_, rfl⟩, ⟨rfl, rfl⟩, rfl, ⟨_, rfl⟩, of_answers (by decide +kernel)⟩

/-- A tile-task record at 0x2000300: kind 1, M and N 1, operands none, destination 0x2000380, handle 0x2000200. -/
def sTile : State :=
  [(0, 0x0001000100000001), (5, 0x2000380), (7, 0x2000200)].foldl (fun s (p : Nat × Nat) => homeWrite s (0x300 + 8 * p.1) 8 p.2)
    (regSet sTask {} taskSlot 24 0x2000300)

theorem witness_BeadInstructionResults_submit : Runs sTile ∧ chk (envFor 4 (.suspend 5 24) sTile) [24] [5] [] = .ok () ∧
    (∃ s1, opnd (envFor 4 (.suspend 5 24) sTile) sTile 0 24 = .ok (s1, 0x2000300)) ∧ ringGate (envFor 4 (.suspend 5 24) sTile) = .ok () ∧ (getSlot sTile {}).ph.length < 12 ∧ (0x2000300 : Word).toNat % 64 = 0 ∧
    (∃ s2 n, takeRing (envFor 4 (.suspend 5 24) sTile) sTile true false = .ok (s2, n)) ∧
    (∃ dk x pg, place (envFor 4 (.suspend 5 24) sTile) 0x2000380 2 0 = .ok (.mem dk x pg)) ∧ storesDone taskSlot = true ∧
    memRead sTile.mem (0x300 + 56) 8 = 0x2000200 :=
  ⟨⟨rfl, rfl⟩, rfl, ⟨_, rfl⟩, rfl, by decide, by decide, ⟨_, _, rfl⟩, ⟨_, _, _, rfl⟩, rfl, by decide +kernel⟩

/-- SUSPEND's reply within its bound and beyond it, and its fault. -/
theorem witness_BeadInstructionResults_replies :
    let r : List Word := [0x0001000100000001, 0, 0, 0, 0, 0x2000380, 0, 0x2000200]
    let s := fun o res => withSlot { taskSlot with ph := 0x2000300 :: r ++ [4, 16, o], res := some res }
    r.length = 8 ∧ Runs (s 0 .ok) ∧ (getSlot (s 0 .ok) {}).ph = 0x2000300 :: r ++ [4, 16, 0] ∧ (getSlot (s 1 .ok) {}).res = some .ok ∧
    (∀ j, j < 3 → r.getD (2 + j) 0 = 0) ∧ (getSlot (s 0 (.fault 0x0D 64)) {}).res = some (.fault 0x0D 64) := by
  refine ⟨rfl, ⟨rfl, rfl⟩, rfl, rfl, by decide, rfl⟩

/-- Handles and values, aligned and not; microprogram slots 1 and 15, 0 and 16. -/
theorem witness_BeadInstructionResults_handles :
    chk (envFor 4 (.spark 22) sTask) [22] [] [] = .ok () ∧ chk (envFor 4 (.hbind 22 20) sTask) [22, 20] [] [] = .ok () ∧
    (∃ s1, readR (envFor 4 (.spark 23) sTask) sTask 23 = .ok (s1, 0x2000201)) ∧ (0x2000201 : Word).toNat % 64 ≠ 0 ∧ (0x2000100 : Word).toNat % 64 = 0 ∧
    (∃ s2 n, takeRing (envFor 4 (.spark 22) sTask) sTask false true = .ok (s2, n)) ∧ ringGate (envFor 4 (.spark 22) sTask) = .ok () ∧ chk (envFor 4 (.mprog 6 20) sTask) [6, 20] [] [] = .ok () ∧
    (∃ s1, opnd (envFor 4 (.mprog 6 20) (regSet sTask {} taskSlot 6 15)) (regSet sTask {} taskSlot 6 15) 0 6 = .ok (s1, 15)) ∧
    ¬ (1 ≤ (16 : Word).toNat ∧ (16 : Word).toNat ≤ 15) ∧
    (let s := withSlot { taskSlot with ph := [15, 0x100, 0x40181650, 0x202], res := some .ok }
     let e := envFor 4 (.mprog 6 20) s
     chk e [6, 20] [] [] = .ok () ∧ opnd e s 0 6 = .ok (s, 15) ∧ opnd e s 1 20 = .ok (s, 0x100) ∧ (0x100 : Word).toNat % 16 = 0 ∧
       phaseRead e s [15, 0x100] [] 0x100 8 (dskOf taskSlot) = .ok (s, [15, 0x100, 0x40181650]) ∧
       phaseRead e s [15, 0x100, 0x40181650] [] (0x100 + 8) 8 (dskOf taskSlot) = .ok (s, [15, 0x100, 0x40181650, 0x202]) ∧
       gotReply e [15, 0x100, 0x40181650, 0x202] = some .ok ∧
       gotReply { e with sl := { taskSlot with ph := [15, 0x100, 0x40181650, 0x202] } } [15, 0x100, 0x40181650, 0x202] = none) :=
  ⟨rfl, rfl, ⟨_, rfl⟩, by decide, by decide, ⟨_, _, rfl⟩, rfl, rfl, ⟨_, rfl⟩, by decide, rfl, rfl, rfl, by decide, rfl, rfl, rfl, rfl⟩

/-! ### Witnesses: coordinates, engines, carries -/

/-- A region of class 1, cached by its agent, with a CLB entry for tile 0; and the bounds of the region number. -/
theorem witness_CoordinateRules : Runs s0 ∧ chk (envFor 4 (.cld 5 6 7) s0) [6, 7] [5] [] = .ok () ∧ chk (envFor 4 (.cst 5 6 7) s0) [6, 7, 5] [] [] = .ok () ∧
    (∃ s1, opnd (envFor 4 (.cld 5 6 7) s0) s0 0 6 = .ok (s1, 0)) ∧ (4096 : Word).toNat = 4096 ∧ ¬ 4096 ≤ (4095 : Word).toNat ∧
    Runs (answered (.coord 7 none)) ∧ (getSlot (answered (.coord 7 none)) {}).res = some (.coord 7 none) ∧ chk (envFor 4 (.cinv 6) s0) [6] [] [] = .ok () :=
  ⟨runs_s0.1, rfl, rfl, ⟨_, rfl⟩, by decide, by decide, ⟨rfl, rfl⟩, rfl, rfl⟩

/-- Packing 2, extents 100 by 100: the last coordinate and the first that is none. -/
theorem witness_CoordinateRules_linear : isCoord 2 0x0000006300000063 0x0000006300000063 ∧ ¬ isCoord 2 0x0000006300000063 0x0000006400000000 ∧
    (9999 : Word).toNat < (extentsOf 2 0x0000006300000063).prod ∧ (extentsOf 2 0x0000006300000063).prod ≤ (10000 : Word).toNat := by
  refine ⟨⟨by decide, by decide, by decide⟩, ?_, by decide, by decide⟩
  rintro ⟨-, -, h⟩
  exact absurd (h (100, 100) (by decide)) (by decide)

theorem witness_EngineInstructionResults : Runs s0 ∧ chk (envFor 4 (.cpy 5 6 7) s0) [6, 7] [5] [] = .ok () ∧
    chk (envFor 4 (.plane 5 6 7) s0) [6, 7, 5] [5] [] = .ok () ∧ (getCore s0 0).eng.length < 128 ∧ outRoom s0 0 0 = true ∧
    128 ≤ (getCore (modCore s0 0 fun c => { c with eng := List.replicate 128 {} }) 0).eng.length :=
  ⟨runs_s0.1, rfl, rfl, by decide, rfl, by decide +kernel⟩

/-- The entry word of entry 15 of the gateway core 17; core 16 is none. -/
theorem witness_EngineInstructionResults_queue : coreExists 17 = true ∧ 17 % 32 = 17 ∧ ((17 * 16 + 15 : Nat) : Nat) < 2 ^ 15 ∧
    coreFn s0 17 = (getCtx s0 (getSlot s0 {}).ctx).fn ∧ chk (envFor 4 (.rqinit 5 6 7) s0) [6, 7] [5] [] = .ok () ∧
    (∃ s1, opnd (envFor 4 (.rqget 5 6) (s0g [(6, 287)])) (s0g [(6, 287)]) 0 6 = .ok (s1, 287)) ∧ storesDone runSlot = true ∧
    Runs (withSlot { runSlot with ph := [287], res := some (.words [3]) }) := ⟨rfl, rfl, by decide, rfl, rfl, ⟨_, rfl⟩, rfl, ⟨rfl, rfl⟩⟩

/-- The conditions of MIGR and MRET, one by one. -/
theorem witness_CarryRules : Runs sTask ∧ NoLate sTask ∧ (getSlot sTask {}).res = none ∧ (getSlot sTask {}).ph = [] ∧ chk (envFor 4 (.migr 5 24 6) sTask) [24, 6] [5] [] = .ok () ∧ (getSlot sTask {}).deliv = none ∧
    (getSlot sTask {}).ports = false ∧ (getSlot sTask {}).carry = [] ∧ (getSlot sTask {}).handler = none ∧ (getCore sTask 0).fwd.length < 16 ∧
    Drained taskSlot ∧ (0xFFFD : Word).toNat < 0xFFFE ∧ 0xFFFE ≤ (0xFFFE : Word).toNat ∧
    (∃ cr, (getSlot (withSlot { runSlot with carry := [{ home := {}, desc := 64, pos := 0 }] }) {}).carry = cr :: [] ∧ cr.desc = 64 ∧ cr.pos = 0) ∧
    chk (envFor 4 (.mret 20 6) sTask) [20, 6] [] [] = .ok () :=
  ⟨⟨rfl, rfl⟩, noLate_sTask, rfl, rfl, rfl, rfl, rfl, rfl, rfl, by decide, drained_runSlot, by decide, by decide, ⟨_, rfl, rfl, rfl⟩, rfl⟩

/-! ### Witnesses: translation -/

/-- A privileged thread in slot 0 of the service core of cluster 0, whose g16 and g17 are 32 and 0. -/
def svcSlot : Slot := { runSlot with priv := true }
def svcAt (g : List (Nat × Word)) (m : List Host.Cell) : State :=
  g.foldl (fun s p => regSet s { core := 16 } svcSlot p.1 p.2) { setSlot State.reset { core := 16 } svcSlot with cur := { core := 16 }, mem := m }
/-- Entry words in scratchpad from its byte 32 on: a page of context 1 with all permissions at the given status. -/
def entryBytes (w0 w1 st : Word) : List Host.Cell := memCells [] (((wordBytes [w0, w1, 0, st]).zipIdx).map fun b => (scrKey 16 32 + b.2, b.1))

theorem witness_TranslationRules_privilege : Runs s0 ∧ chk (envFor 4 (.tlbi 5 16 17) s0) [16, 17] [5] [] = .ok () ∧
    chk (envFor 4 (.tlbw 16 17) s0) [16, 17] [] [] = .ok () ∧ ¬ ((getSlot s0 s0.cur).priv = true ∧ coreIdx s0.cur.core = 16) :=
  ⟨runs_s0.1, rfl, rfl, by decide⟩

/-- Each privileged register read and written by a privileged thread of a service core, hsk at its greatest value; a reserved
bit; bit 63 of evict; and a compute core. -/
theorem witness_PrivilegedRegisters_registers :
    let s := svcAt [(6, 0xFFF), (7, 0x1000), (8, 0x8000000000000000), (9, 0x7FFFFFFFFFFFFFFF)] []
    let r := fun (a : BitVec 7) (c : BitVec 11) => readR (envFor 4 (.csrwr 5 a c) s) s a.toNat
    let p := withSlot { runSlot with priv := true }
    Runs s ∧ (getSlot s s.cur).priv = true ∧ coreIdx s.cur.core = 16 ∧ chk (envFor 4 (.csrrd 5 0x405) s) [] [5] [] = .ok () ∧
      chk (envFor 4 (.csrwr 5 6 0x405) s) [6] [5] [] = .ok () ∧ chk (envFor 4 (.csrset 5 6 0x401) s) [6] [5] [] = .ok () ∧
      r 6 0x405 = .ok (s, 0xFFF) ∧ (0xFFF : Word) &&& ~~~0xFFF = 0 ∧ r 7 0x405 = .ok (s, 0x1000) ∧ (0x1000 : Word) &&& ~~~0xFFF ≠ 0 ∧
      r 8 0x400 = .ok (s, 0x8000000000000000) ∧ r 9 0x400 = .ok (s, 0x7FFFFFFFFFFFFFFF) ∧
      Runs p ∧ (getSlot p p.cur).priv = true ∧ coreIdx p.cur.core ≠ 16 ∧ chk (envFor 4 (.csrrd 5 0x404) p) [] [5] [] = .ok () ∧
      chk (envFor 4 (.csrwr 5 6 0x402) p) [6] [5] [] = .ok () :=
  ⟨⟨rfl, rfl⟩, rfl, rfl, rfl, rfl, rfl, rfl, by decide, rfl, by decide, rfl, rfl, ⟨rfl, rfl⟩, rfl, by decide, rfl, rfl⟩

/-- A write of evict on a core whose slot 1 holds a continuation and slot 2 a ports thread: one is marked, one refused. -/
theorem witness_PrivilegedRegisters_evict :
    let s := setSlot (setSlot (svcAt [] []) { core := 16, slot := 1 } runSlot) { core := 16, slot := 2 } { runSlot with ports := true }
    let s3 := csrPut s s.cur 0x400 6
    (getSlot s3 { core := 16, slot := 1 }).evicting = true ∧ (getSlot s3 { core := 16, slot := 2 }).evicting = false ∧
      (getCore s3 16).evict = 2 ∧ (getCore s3 16).evstat = 4 := by decide +kernel

/-- Notice records at the least and the greatest place, the second named through the global aperture: of type 1 and of type 2. -/
theorem witness_PrivilegedRegisters_npost :
    let rec0 := fun (t off : Nat) => memCells [] ((wordBytes [BitVec.ofNat 64 (0x10100 + t), 0, 5, 6]).zipIdx.map fun b => (scrKey 16 off + b.2, b.1))
    let x := BitVec.ofNat 64 (scrKey 16 0xFFFC0)
    let s := svcAt [(6, 0)] (rec0 1 0)
    let u := svcAt [(6, x)] (rec0 2 0xFFFC0)
    readR (envFor 4 (.csrwr 5 6 0x404) s) s 6 = .ok (s, 0) ∧ eccStatus s (scrKey 16 0) 64 = 0 ∧ memRead s.mem (scrKey 16 0) 8 % 256 = 1 ∧ (getCl s 0).npost = none ∧
      readR (envFor 4 (.csrwr 5 6 0x404) u) u 6 = .ok (u, x) ∧ x.toNat = scrKey 16 0xFFFC0 ∧ coreExists 16 = true ∧
      coreFn u u.cur.core = (getCtx u (getSlot u u.cur).ctx).fn ∧ eccStatus u (scrKey 16 0xFFFC0) 64 = 0 ∧ memRead u.mem (scrKey 16 0xFFFC0) 8 % 256 ≠ 1 :=
  ⟨rfl, by decide +kernel, by decide +kernel, by decide +kernel, rfl, by decide +kernel, by decide +kernel, by decide +kernel, by decide +kernel, by decide +kernel⟩

/-- An entry that is taken, one that sets a reserved bit, and one with a status. -/
theorem witness_TranslationRules_tlbw :
    let s := fun st w1 => svcAt [(16, 32)] (entryBytes 0x1000000002000 w1 st)
    let e := fun st w1 => envFor 4 (.tlbw 16 17) (s st w1)
    let ent := fun st w1 => ({ w0 := BitVec.ofNat 64 (memRead (s st w1).mem (scrKey 16 32) 8), w1 := BitVec.ofNat 64 (memRead (s st w1).mem (scrKey 16 40) 8) } : TlbEnt)
    Runs (s 0 0x1D) ∧ chk (e 0 0x1D) [16, 17] [] [] = .ok () ∧ (getSlot (s 0 0x1D) (s 0 0x1D).cur).priv = true ∧ coreIdx (s 0 0x1D).cur.core = 16 ∧
      readR (e 0 0x1D) (s 0 0x1D) 16 = .ok (s 0 0x1D, 32) ∧ readR (e 0 0x1D) (s 0 0x1D) 17 = .ok (s 0 0x1D, 0) ∧
      eccStatus (s 0 0x1D) (scrKey 16 32) 32 = 0 ∧ tlbCheck (s 0 0x1D) 0 (ent 0 0x1D) = none ∧ outRoom (s 0 0x1D) 16 1 = true ∧
      tlbCheck (s 0 0x1F) 0 (ent 0 0x1F) = some 0x12 ∧ memRead (s 7 0).mem (scrKey 16 56) 8 = 7 :=
  ⟨⟨rfl, rfl⟩, rfl, rfl, rfl, rfl, rfl, by decide +kernel, by decide +kernel, by decide +kernel, by decide +kernel, by decide +kernel⟩

/-- The greatest record address, through the global aperture. -/
theorem witness_TranslationRules_global :
    let x := BitVec.ofNat 64 (scrKey 16 0xFFFE0)
    let s := svcAt [(16, x)] []
    readR (envFor 4 (.tlbw 16 17) s) s 16 = .ok (s, x) ∧ x.toNat = scrKey 16 0xFFFE0 ∧ 0xFFFE0 % 32 = 0 ∧ 0xFFFE0 + 32 ≤ 0x100000 ∧
      coreExists s.cur.core = true ∧ coreFn s s.cur.core = (getCtx s (getSlot s s.cur).ctx).fn :=
  ⟨rfl, by decide +kernel, by decide, by decide, by decide +kernel, by decide +kernel⟩

/-- A request that waits at the service for the TLBW of its thread, kind and context; and a machine in which none does. -/
theorem witness_TranslationRules_request :
    let s := svcAt [(16, 32)] (entryBytes 0x1000000002000 0x1D 0)
    let q := qk 4 (coreUnit s.cur.core) 0 0
    let p : Packet := { body := .xlat 0x2000 0 {} 0 0 }
    let t := setQ s q [p]
    (getQ t q)[0]? = some p ∧ p.body = .xlat 0x2000 ((0 : Word).toNat / 2 ^ 17 % 8) {} ((0 : Word).toNat / 2 ^ 32 % 65536) 0 ∧
      tidWord {} = (0 : Word).toNat % 2 ^ 17 ∧ getQ s q = [] ∧ outRoom t 16 1 = true ∧ tlbCheck t 0 { w0 := 0x1000000002000, w1 := 0x1D } = none := by
  decide +kernel

/-- TLBI with the greatest y that it takes, and the least that it does not; and its end. -/
theorem witness_TranslationRules_tlbi :
    let s := fun y => svcAt [(16, 0x2000), (17, y)] []
    let e := fun y => envFor 4 (.tlbi 5 16 17) (s y)
    Runs (s 0x3FFFF) ∧ chk (e 0x3FFFF) [16, 17] [5] [] = .ok () ∧ (getSlot (s 0x3FFFF) { core := 16 }).res = none ∧
      readR (e 0x3FFFF) (s 0x3FFFF) 16 = .ok (s 0x3FFFF, 0x2000) ∧ readR (e 0x3FFFF) (s 0x3FFFF) 17 = .ok (s 0x3FFFF, 0x3FFFF) ∧
      readR (e 0x40000) (s 0x40000) 17 = .ok (s 0x40000, 0x40000) ∧
      (let t := { setSlot State.reset { core := 16 } { svcSlot with res := some .ok, ph := [9] } with cur := { core := 16 } }
       Runs t ∧ (getSlot t t.cur).res = some .ok ∧ (getSlot t t.cur).ph = [9] ∧ ∃ t1, writeR (envFor 4 (.tlbi 5 16 17) t) t 5 9 = .ok t1) :=
  ⟨⟨rfl, rfl⟩, rfl, rfl, rfl, rfl, rfl, ⟨rfl, rfl⟩, rfl, rfl, _, rfl⟩

/-- A state in whose unit u one packet has arrived on a network. -/
def arrived (s : State) (u net : Nat) (p : Packet) : State := setQ s (qk 4 u 0 net) [p]
/-- A packet with slack, from a core of cluster 1. -/
def pkt (b : Body) : Packet := { slack := 9, src := 256, dst := 16, body := b }

/-- A request that arrives at the service, with a walk that fails, and one of a single level that answers. -/
theorem witness_TranslationRules_service :
    let b := Body.xlat 0x2000 0 {} 1 0
    let t := { s0 with ctxs := [(1, { live := true, host := true, levels := 1, root := 0x1000 })], mem := [(0x4000000001010, 1)] }
    clRuns s0 0 = true ∧ takeArrived (arrived s0 16 0 (pkt b)) 16 0 (fun p => match p.body with | .xlat _ _ _ _ _ => true | _ => false) = some (pkt b, s0) ∧
      (∃ c, walk s0 1 0x2000 = .error c) ∧ (∃ e, walk t 1 0x2000 = .ok e) :=
  ⟨by decide +kernel, by decide +kernel, ⟨_, rfl⟩, _, rfl⟩

theorem witness_TranslationRules_fill :
    let b := fun st => Body.xrep 0x2000 0 {} 1 [0x1000000002000, 0x1D, 0] st 5
    let s := modCore s0 0 fun c => { c with tlbGen := 6 }
    (∀ t ∈ [s, s0], ∀ st ∈ [(0 : BitVec 8), 7],
      takeArrived (arrived t 0 1 (pkt (b st))) 0 1 (fun p => match p.body with | .xrep _ _ _ _ _ _ _ => true | _ => false) = some (pkt (b st), t)) ∧
      (pkt (b 0)).late = none ∧ 5 < (getCore s 0).tlbGen ∧ (getCore s0 0).tlbGen ≤ 5 := ⟨by decide +kernel, rfl, by decide +kernel, by decide +kernel⟩

/-- Shoot-downs with and without an access in flight through the entries. -/
theorem witness_TranslationRules_shootdown :
    let b := Body.tlbi 0x2000 3 false false 4 0
    let c := Body.clbi 3 7 none 4 0
    let s := withSlot { runSlot with infl := [{ id := 1, home := 0x20 }], coordHit := some 7 }
    (∀ t ∈ [s0, s], takeArrived (arrived t 0 0 (pkt b)) 0 0 (fun p => match p.body with | .tlbi _ _ _ _ _ _ => true | _ => false) = some (pkt b, t) ∧
      takeArrived (arrived t 0 0 (pkt c)) 0 0 (fun p => match p.body with | .clbi _ _ _ _ _ => true | _ => false) = some (pkt c, t)) ∧
      (∃ x ∈ (getCore s 0).slots, x.2.uid.isSome = true ∧ (false = true ∨ x.2.ctx = 3) ∧ slotBusy x.2 = true) ∧
      (∃ x ∈ (getCore s 0).slots, x.2.uid.isSome = true ∧ x.2.ctx = 3 ∧ x.2.coordHit = some 7) ∧
      (¬ ∃ x ∈ (getCore s0 0).slots, x.2.uid.isSome = true ∧ (false = true ∨ x.2.ctx = 3) ∧ slotBusy x.2 = true) ∧
      joinUnder s0 0 3 false = false ∧ joinUnder (setQ s0 (qk 6 0 0 0) [{ src := 0, dst := 0x20, body := .joinRet 64 3 }]) 0 3 false = true := by
  decide +kernel

theorem witness_TranslationRules_notices : (getCl s0 0).notices.length < 256 ∧
    takeArrived (arrived s0 16 1 (pkt (.notice {}))) 16 1 (fun p => match p.body with | .notice _ => true | _ => false) = some (pkt (.notice {}), s0) ∧
    (getCl (modCl s0 0 fun c => { c with npost := some { type := 1 } }) 0).npost = some { type := 1 } := by
  decide +kernel

/-! ### Witnesses: the device -/

/-- A command in progress with the given words; the others are 0. -/
def cmdState (ws : List (Nat × Word)) (s : State) : State := { s with mgmt := { s.mgmt with busy := true, cmd := ws } }

/-- A command that concerns function 1, with its operand bytes within those that it uses. -/
theorem witness_ManagementRules_qbind :
    let s := { cmdState [(0, 0x10004), (1, 0x3003F)] State.reset with ctxs := [(3, { live := true, fn := 1 })] }
    Command s 0x04 [(8, 4)] ∧ cmdNat s 8 2 < nqCount (cmdFn s) ∧ (getCtx s (cmdNat s 10 2)).live = true ∧ (getCtx s (cmdNat s 10 2)).fn = cmdFn s ∧
      (getNq s (cmdFn s) (cmdNat s 8 2)).st = 0 := by
  unfold Command; decide +kernel

theorem witness_ManagementRules_mode :
    let s := cmdState [(0, 0x10008), (1, 0x1F)] State.reset
    Command s 0x08 [(8, 1)] ∧ cmdByte s 8 < 32 ∧ (getFn s (cmdFn s)).urgent = false ∧ ∀ q ∈ (getFn s (cmdFn s)).queues, ∀ e ∈ q.2.entries, e.written = true := by
  unfold Command; decide +kernel

/-- A command with the given first two words. -/
def twoWords (w0 w1 : Word) : State := cmdState [(0, w0), (1, w1)] State.reset

/-- The other rows' commands, each with its condition. -/
theorem witness_ManagementRules_rows :
    (Command (twoWords 0x10001 0xFF) 0x01 [(8, 8)] ∧ cmdFn (twoWords 0x10001 0xFF) ≠ 0) ∧
    ((Command (twoWords 0x10005 0xFFFF003F) 0x05 [(8, 4)] ∧ cmdNat (twoWords 0x10005 0xFFFF003F) 8 2 < nqCount 1) ∧
    (Command (twoWords 6 0x0107) 0x06 [(8, 2), (16, 32)] ∧ cmdByte (twoWords 6 0x0107) 9 = 1 ∧ cmdByte (twoWords 6 0x0107) 8 < 8)) := by
  unfold Command; decide +kernel

theorem witness_ManagementRules_rows2 :
    (Command (twoWords 6 7) 0x06 [(8, 2), (16, 32)] ∧ cmdByte (twoWords 6 7) 9 = 0) ∧ (Command (twoWords 7 1) 0x07 [(8, 1)] ∧ cmdByte (twoWords 7 1) 8 ≤ 1) ∧
    (Command (twoWords 9 0x1803) 0x09 [(8, 2)] ∧ cmdByte (twoWords 9 0x1803) 8 ≤ 3 ∧ cmdByte (twoWords 9 0x1803) 9 ≤ 24) := by
  unfold Command; decide +kernel

theorem witness_ManagementRules_drain : Command (twoWords 0xB 0) 0x0B [(8, 8)] ∧ cmdNat (twoWords 0xB 0) 8 8 = 0 := by
  unfold Command; decide +kernel

theorem witness_ManagementRules_more :
    (Command (twoWords 0xC 1) 0x0C [(8, 2), (16, 40)] ∧ cmdNat (twoWords 0xC 1) 8 2 = 1) ∧ (Command (twoWords 0x10 15) 0x10 [(8, 1)] ∧ cmdByte (twoWords 0x10 15) 8 ≤ 15) := by
  unfold Command; decide +kernel

theorem witness_ManagementRules_reset : (Command (twoWords 0x11 3) 0x11 [(8, 1)] ∧ cmdByte (twoWords 0x11 3) 8 ≤ 3) ∧ (Command (twoWords 0x11 4) 0x11 [(8, 1)] ∧ cmdByte (twoWords 0x11 4) 8 = 4) ∧
    Command (twoWords 0x12 3600) 0x12 [(8, 2)] ∧ (twoWords 0xFF01 0).mgmt.busy = true ∧ cmdByte (twoWords 0xFF01 0) 0 = 1 ∧ cmdByte (twoWords 0xFF01 0) 1 ≠ 0 := by
  unfold Command; decide +kernel

theorem witness_ManagementRules_postmap :
    let s := { cmdState [(0, 0x1000F), (1, 3), (3, 7)] State.reset with ctxs := [(3, { live := true, fn := 1 })] }
    Command s 0x0F [(8, 2), (16, 9)] ∧ (getCtx s (cmdNat s 8 2)).live = true ∧ (getCtx s (cmdNat s 8 2)).fn = cmdFn s ∧ cmdByte s 24 ≤ 7 := by
  unfold Command; decide +kernel

/-- CTXNEW of a host context with the smallest pools, for a partition of one cluster. -/
theorem witness_ManagementRules_ctxnew :
    let s := modCl (cmdState [(0, 0x10002), (1, 0x080706050401000A), (2, 0x1000), (3, 0x40000), (4, 0x10000000), (5, 64), (6, 0x300400040)] State.reset) 0 fun c => { c with fn := 1 }
    let c : Ctx := { live := true, fn := 1, host := true, levels := 4, posP := 5, posW := 6, posNx := 7, posF := 8, root := 0x1000, regTab := 0x40000, spill := 0x10000000,
                     spillK := 64, segs := 64, segB := Config.segBase 10, ovfK := 64, steal := 3 }
    Command s 0x02 [(8, 45)] ∧ cmdByte s 10 ≤ 1 ∧ cmdByte s 52 ≤ 3 ∧ (getCtx s (cmdNat s 8 2)).live = false ∧ cmdByte s 11 = 4 ∧ cmdByte s 12 < 64 ∧ cmdByte s 13 < 64 ∧
      cmdByte s 14 < 64 ∧ cmdByte s 15 < 64 ∧ ctxOk s (cmdNat s 8 2) c = true := by
  unfold Command; decide +kernel

theorem witness_ManagementRules_trace :
    let s := { cmdState [(0, 0x10003), (1, 3)] State.reset with ctxs := [(3, { live := true, fn := 1 })] }
    let r := cmdState [(0, 0x1000A), (1, 0x10000), (2, 48), (3, 1), (4, 0x20000), (5, 24)] State.reset
    Command s 0x03 [(8, 2)] ∧ (getCtx s (cmdNat s 8 2)).live = true ∧ (getCtx s (cmdNat s 8 2)).fn = cmdFn s ∧
      Command r 0x0A [(8, 17), (32, 16)] ∧ cmdByte r 24 ≤ 1 ∧ ∀ q ∈ (getFn r (cmdFn r)).queues, ∀ e ∈ q.2.entries, e.written = true := by
  unfold Command; decide +kernel

/-- THREAD of 128 registers in slot 63 of core 0, in a partition of one cluster. -/
theorem witness_ManagementRules_thread :
    let s := { modFn (cmdState [(0, 0xD), (1, 0x1000), (2, 0x400), (3, 0x3F00000080)] State.reset) 0 (fun f => { f with hostSh := true }) with
      ctxs := [(3, { live := true, host := true, root := 0x1000 })] }
    let t : Tid := { core := cmdNat s 26 2, slot := cmdByte s 28 }
    Command s 0x0D [(8, 17), (26, 3)] ∧
      s.ctxs.find? (fun c => c.2.live && c.2.host && c.2.fn = cmdFn s && c.2.root = BitVec.ofNat 64 (cmdNat s 8 8) && c.2.torn.isNone) = some (3, { live := true, host := true, root := 0x1000 }) ∧
      (getFn s (cmdFn s)).hostSh = true ∧ (getFn s (cmdFn s)).urgent = false ∧ cmdByte s 24 = 128 ∧ coreRuns s t.core = true ∧ coreFn s t.core = cmdFn s ∧ t.slot = 63 ∧
      slotFree s t = true ∧ fitWindow (getCore s t.core) 128 = some 0 := by
  unfold Command; decide +kernel

theorem witness_ManagementRules_move :
    let s := setSlot (cmdState [(0, 0xE), (1, 0x3F000000000000)] State.reset) {} { runSlot with dev := true }
    let d : Tid := { core := cmdNat s 12 2, slot := cmdByte s 14 }
    Command s 0x0E [(8, 7)] ∧ cmdNat s 8 4 = 0 ∧ (getSlot s {}).uid = some 1 ∧ coreFn s 0 = cmdFn s ∧ coreRuns s d.core = true ∧ coreFn s d.core = cmdFn s ∧ d.slot < 64 ∧
      (getSlot s {}).ports = false ∧ (getSlot s {}).dev = true ∧ (getFn s (cmdFn s)).urgent = false ∧ d ≠ {} ∧ (getSlot s {}).moveTo = none ∧ (getSlot s {}).evicting = false ∧
      slotFree s d = true ∧ (getCore s 0).fwd.length < 16 ∧ fitWindow (getCore s d.core) (winW (getSlot s {})) = some 128 := by
  unfold Command; decide +kernel

theorem witness_ManagementRules_debug :
    let s := fun (a : Word) => modFn (setSlot (cmdState [(0, 0x13), (1, a), (3, 0x4000)] State.reset) {} { runSlot with halted := true }) 0 (fun f => { f with debug := true })
    (∀ a, a < 6 → Debugged (s (BitVec.ofNat 64 a)) a {}) ∧ (getSlot (s 0) {}).uid.isSome = true ∧ (getSlot (s 2) {}).halted = true ∧
      BitVec.ofNat 64 (cmdNat (s 3) 24 8) ∉ (getSlot (s 3) {}).bps ∧
      ∀ x ∈ slotsOf (s 1) ((partition (s 1) (cmdFn (s 1))).flatMap clCores), x.2.wait ≠ some .sysc := by
  unfold Debugged Command; decide +kernel

/-- Boot from a part with no firmware; a first stage whose key is not the fused one, or is; a shutdown package that is hot, or cold. -/
theorem witness_PackageEvents :
    let s := State.reset
    let hot := { modCl s 0 (fun k => { k with temp := 85 }) with power := { s.power with shutdown := true } }
    (s.boot.done = false ∧ s.boot.recovery = false ∧ s.power.supplyOk = true ∧ s.power.shutdown = false ∧ (∀ d, d < 4 → (getDie s d).inReset = false) ∧ s.boot.fw = []) ∧
      hot.power.shutdown = true ∧ 85 ≤ (getCl hot 0).temp ∧ ¬ (s.power.shutdown = true) ∧ s.power.limit < 3601 ∧ s.power.unmet = false ∧
      (∀ c, c < 64 → (getCl { s with clusters := (List.range 64).map fun c => (c, { clock := 6 }) } c).clock ≤ 6) ∧ (getCl s 0).clock < 20 ∧
      (getDie (modDie s 3 fun d => { d with inReset := true }) 3).inReset = true ∧
      (∀ d, d < 4 → (getDie { s with dies := (List.range 4).map fun d => (d, { inReset := true, whole := true }) } d).whole = true) := by
  decide +kernel

/-! ### Witnesses: the host and launches -/

/-- A booted machine whose function 0 has the given notify queue 0. -/
def hostState (n : NQueue) : State := modNq { State.reset with boot := { State.reset.boot with done := true } } 0 0 fun _ => n
/-- A pending vector that is not masked, one that is, and a busy command block. -/
theorem witness_HostRegisterResults_writes :
    let s := hostState {}
    let p := modFn s 0 fun f => { f with msixPba := [(0, 1)] }
    let clear := fun (s : State) v => (msixGet (getFn (modFn s 0 fun f => msixSet f 1 v) 0) (2 * (1 / 2) + 1)).getLsbD 32
    Up s 0 ∧ Up State.reset 0 ∧ 0 < nqCount 0 ∧ 1 < 2 * msixCount 0 ∧ s.mgmt.busy = false ∧ { s.mgmt with busy := true }.busy = true ∧
      (smGet 0 (getFn p 0).msixPba (1 / 2 / 64)).getLsbD (1 / 2 % 64) = true ∧ clear p 0 = false ∧ clear p (2 ^ 32) = true ∧
      (smGet 0 (getFn s 0).msixPba 0).getLsbD 0 = false ∧
      (let op := fun (w : Word) => cmdByte { s with mgmt := { s.mgmt with busy := true, cmd := [(0, w)] } } 0
       op 1 = 1 ∧ op 0x13 = 0x13 ∧ op 0x14 = 0x14 ∧ op 0 = 0) := by
  unfold Up; decide +kernel

/-- Each state of a queue, an entry in flight, and slots that hold their stamp, hold another, and cannot be read. -/
theorem witness_HostRegisterResults_queue :
    let ring : NQueue := { ringbase := 0x8000000000001000, ringlog := 16, ringidx := 5, st := 1 }
    let other : State := { hostState ring with mem := [(0x4000000001000, 1)] }
    Up (hostState ring) 0 ∧ 0 < nqCount 0 ∧ (getNq (hostState {}) 0 0).st = 0 ∧ (getNq (hostState { st := 3, err := 3 }) 0 0).err = 3 ∧
      (getNq (hostState { st := 3, err := 4 }) 0 0).err = 4 ∧ (getNq (hostState ring) 0 0).st = 1 ∧ (getNq (hostState { ring with st := 2 }) 0 0).st = 2 ∧
      (∀ e ∈ (getNq (hostState ring) 0 0).entries, e.written = true) ∧ (∀ e ∈ [({} : Entry)], e.written = false) ∧
      (hostState ring).boot.done = true ∧ ring.draining = false ∧ ring.admitted < ring.ringidx ∧ ring.ringbase.getLsbD 63 = true ∧
      (∃ ws, readSlot (hostState ring) ring false = some ws ∧ wAt ws 0 = BitVec.ofNat 64 ring.admitted) ∧
      (∃ ws, readSlot other ring false = some ws ∧ wAt ws 0 ≠ BitVec.ofNat 64 ring.admitted) ∧ readSlot (hostState ring) { ring with ringbase := 0 } false = none ∧ readSlot (hostState ring) ring true = none ∧
      (∃ ws, readSlot (hostState ring) { ring with st := 2 } false = some ws) :=
  ⟨⟨by decide, rfl, .inl rfl⟩, by decide, rfl, rfl, rfl, rfl, rfl, by decide +kernel, by decide, rfl, rfl, by decide, rfl, ⟨_, rfl, rfl⟩, ⟨_, rfl, by decide +kernel⟩, rfl, rfl, _, rfl⟩

/-- Function 0 answers reads, of every register of its first and last queue. -/
theorem witness_HostRegisterResults_reads : Up State.reset 0 ∧ 0 < nqCount 0 ∧ (3 : Nat) < 4 ∧ barBytes State.reset 0 0 ≤ barBytes State.reset 0 0 ∧
    [fnIdle State.reset 0, false][0]? = some (fnIdle State.reset 0) := by
  unfold Up; decide +kernel

/-- A held message with room in the ring; a thread that waits for the call replied to, in a partition that runs and in one that
is halted; a reply to another call; and the last byte of a window. -/
theorem witness_HostRegisterResults_ring :
    let s := modFn (hostState {}) 0 fun f => { f with held := [({}, [])], scbase := 64, sclog := 16, sctail := 65535 }
    let w := modFn (setSlot (hostState {}) {} { runSlot with wait := some .sysc, callSeq := 7 }) 0 fun f => { f with screply := [(1, 7)] }
    let h := modFn w 0 fun f => { f with halted := true }
    let moved := modCore w 0 fun c => { c with fwd := [{ old := {}, new := { core := 1 } }] }
    Up s 0 ∧ (getFn s 0).held = [({}, [])] ∧ (getFn s 0).scbase ≠ 0 ∧ 4 ≤ (getFn s 0).sclog.toNat % 32 ∧ (getFn s 0).sclog.toNat % 32 ≤ 16 ∧
      (getFn s 0).sctail - (getFn s 0).schead < 2 ^ ((getFn s 0).sclog.toNat % 32) ∧ (getFn (hostState {}) 0).held = [] ∧
      (∀ t ∈ [w, h], (∀ f ∈ (getCore t 0).fwd, f.old ≠ {}) ∧ coreFn t 0 = 0 ∧ (getSlot t {}).uid.isSome = true ∧ (getSlot t {}).wait = some .sysc ∧
        (getSlot t {}).res = none ∧ (getSlot t {}).halted = false ∧ (getSlot t {}).callSeq = smGet 0 (getFn t 0).screply 1 ∧ (getFn t 0).recMode = false) ∧
      (getCore moved 0).fwd.find? (fun f => f.old = {}) = some { old := {}, new := { core := 1 } } ∧ (getFn w 0).halted = false ∧ (getFn h 0).halted = true ∧ (getSlot s {}).uid = none ∧
      (partition s 0)[7 / 4]? = some 1 ∧ 0x5FFFFFFF + 1 ≤ 0x60000000 := by
  unfold Up; decide +kernel

/-- An entry with a program counter in its image, and one of each other kind. -/
def launchWords (flags : Word) : List Word := [0, 1, 5, 3, 0, 0, flags, 0]
def launchState (x : Entry) : State :=
  { hostState { ctx := some 3, entries := [x] } with
    ctxs := [(3, { live := true, host := true, levels := 2, root := 0x1000, posF := 12, images := [{ handle := 1, offs := [0x1002000] }] })],
    mem := [(0x4000000001040, 1), (0x4000000001041, 0x60), (0x4000000005002, 1), (0x4000000006010, 1), (0x4000000006011, 0x50)] }

theorem witness_LaunchResults_start :
    let e : EntryRef := { fn := 0, q := 0, seq := 0 }
    let x : Entry := { ws := launchWords 0 }
    let s := launchState x
    let none2 := { s with ctxs := [(3, { live := true, host := true, levels := 2, root := 0x1000, posF := 12 })] }
    let y : Entry := { ws := launchWords 0x20 }
    let z : Entry := { ws := launchWords 0x10 }
    MayStart s e x ∧ earlyStatus s (getNq s 0 0) x = none ∧ (wAt x.ws 6).getLsbD 0 = false ∧ (wAt x.ws 6).getLsbD 3 = false ∧ (wAt x.ws 6).getLsbD 4 = false ∧
      (∃ im, (getCtx s 3).images.find? (fun i => i.handle = (wAt x.ws 1).toNat % 2 ^ 32) = some im ∧ im.offs[(wAt x.ws 1).toNat / 2 ^ 32 % 2 ^ 16]? = some 0x1002000) ∧
      loadWords s none 3 0x1002000 1 = .ok [0x10000] ∧ descOk 0x10000 = true ∧ (0x10000 : Word).toNat / 2 ^ 16 % 2 ^ 16 ≤ ({ (getCtx s 3) with spillK := 1 } : Ctx).spillK ∧
      1 ≤ (wAt x.ws 3).toNat ∧ (wAt x.ws 3).toNat ≤ 2 ^ 32 ∧
      MayStart none2 e x ∧ (∀ im ∈ (getCtx none2 3).images, im.handle ≠ (wAt x.ws 1).toNat % 2 ^ 32) ∧
      MayStart (launchState y) e y ∧ earlyStatus (launchState y) (getNq (launchState y) 0 0) y = some 2 ∧
      MayStart (launchState z) e z ∧ earlyStatus (launchState z) (getNq (launchState z) 0 0) z = none ∧ (wAt z.ws 6).getLsbD 4 = true :=
  ⟨⟨rfl, rfl, rfl, rfl, rfl, rfl, .inl rfl⟩, rfl, rfl, rfl, rfl, ⟨_, rfl, rfl⟩, by decide +kernel, by decide, by decide, by decide, by decide,
    ⟨rfl, rfl, rfl, rfl, rfl, rfl, .inl rfl⟩, by decide +kernel, ⟨rfl, rfl, rfl, rfl, rfl, rfl, .inl rfl⟩, rfl, ⟨rfl, rfl, rfl, rfl, rfl, rfl, .inl rfl⟩, rfl, rfl⟩

/-- Three entries that complete: with nothing alive, with a status, and with a failure. -/
theorem witness_LaunchResults_complete :
    let e : EntryRef := { fn := 0, q := 0, seq := 0 }
    let x : Entry := { ws := launchWords 6, start := true }
    ∀ y ∈ [x, { x with status := some 255 }, { x with failed := some 3 }],
      let s := hostState { entries := [y], qvec := 0, compaddr := 0x40 }
      Admitted s e y ∧ y.written = false ∧ (getNq s 0 0).entries = [y] ∧ (getNq s 0 0).compcnt = 0 ∧ (getNq s 0 0).draining = false ∧
        (wAt y.ws 6).getLsbD 1 = true ∧ (getNq s 0 0).compaddr ≠ 0 ∧ (wAt y.ws 6).getLsbD 2 = true ∧ (getNq s 0 0).qvec.getLsbD 63 = false ∧
        (msixGet (getFn { s with fns := s.fns.map fun p => (p.1, msixSet p.2 1 0) } 0) 1).getLsbD 32 = false ∧
        0x4000000000000 + (getNq s 0 0).compaddr.toNat % 2 ^ 48 + 8 ≤ 0x4000000000000 + 2 ^ 48 := by
  unfold Admitted; decide +kernel

/-! ### Witnesses: the fabrics -/

theorem witness_FabricTimeResults_ticks :
    let q := [pkt (.load 0 8 (.none)), pkt (.load 8 8 (.none))]
    let s := modDie State.reset 0 fun d => { d with inReset := true }
    (∃ i r, arb 5 (fun _ => true) q = some (i, r)) ∧ q[0]? = some (pkt (.load 0 8 (.none))) ∧ isHead q 0 (pkt (.load 0 8 (.none))) = true ∧
      State.reset.power.supplyOk = true ∧ { State.reset with power := { State.reset.power with supplyOk := false } }.power.supplyOk = false ∧
      (getDie s 1).inReset = false ∧ (∀ e, e < 1 → (getDie s e).inReset = true) ∧
      (∀ d, d < 4 → (getDie ((List.range 4).foldl (fun s d => modDie s d fun x => { x with inReset := true }) s) d).inReset = true) ∧
      (getQ (setQ s 5 q) 5)[1]? = some (pkt (.load 8 8 (.none))) := ⟨⟨_, _, rfl⟩, rfl, rfl, rfl, rfl, rfl, by decide +kernel, by decide +kernel, rfl⟩

/-- Bridge channels and bridges to the die beyond, to the diagonal die, to a die in reset; and a direct path. -/
theorem witness_FabricTimeResults_bridges :
    let dest := fun (d : Nat) => { pkt (.load 0 8 (.none)) with dst := d * 4096 }
    let s := fun (d : Nat) => setQ (setQ (setQ State.reset (qk 2 0 0 0) [dest d]) (qk 3 0 0 0) [dest d]) (qk 1 95 15 0) [dest d]
    let lost := modDie (s 1) 1 fun d => { d with inReset := true }
    (∀ d ∈ [1, 3], dieRuns (s d) 0 = true ∧ (getQ (s d) (qk 1 (0 * 128 + 80 + 0 * 16 + 15) 15 0))[0]? = some (dest d) ∧
      (arb 0 (fun _ => true) (getQ (s d) (qk 1 95 15 0))).map (·.1) = some 0 ∧ (∀ k ∈ [qk 1 95 15 1, qk 2 0 0 1, qk 3 0 0 1], arb 0 (fun _ => true) (getQ (s d) k) = none) ∧ (getDie (s d) (0 ^^^ 1)).inReset = false ∧ (getQ (s d) (qk 2 0 0 0))[0]? = some (dest d) ∧
      (arb 0 (fun _ => true) (getQ (s d) (qk 2 0 0 0))).map (·.1) = some 0 ∧ (arb 0 (fun _ => true) (getQ (s d) (qk 3 0 0 0))).map (·.1) = some 0) ∧
      unitDie (dest 1).dst = 0 ^^^ 1 ∧ unitDie (dest 3).dst ≠ 0 ^^^ 1 ∧
      isDeath (dest 1) = false ∧ isDeath { dest 1 with body := .bead {} .death 0 0 0 .none } = true ∧ (getDie lost (0 ^^^ 1)).inReset = true ∧ (arb 0 (fun p => unitDie p.dst == 0 ^^^ 1) (getQ lost (qk 2 0 0 0))).map (·.1) = some 0 := by
  decide +kernel

/-- Packets that leave the mesh at their unit and at the beam, and one that goes on to a neighbour; a router that idles, and one
that powers down. -/
theorem witness_FabricRouteResults_routers :
    let dest := fun (d : Nat) => { pkt (.load 0 8 .none) with dst := d }
    let s := fun (r d : Nat) => setQ State.reset (qk 0 r 0 0) [dest d]
    (∀ x ∈ [(0, 0, 16), (2, 0, 256), (0, 2, 256)], routerPick (s x.1 x.2.2) x.1 x.2.1 0 = some (0, 0) ∧ (getQ (s x.1 x.2.2) (qk 0 x.1 0 0))[0]? = some (dest x.2.2) ∧
      (getRouter (s x.1 x.2.2) x.1).st ≠ 1 ∧ dieRuns (s x.1 x.2.2) (x.1 / 320) = true) ∧ homeRoom State.reset 16 0 = true ∧
      homeRoom (setQ State.reset (qk 4 16 0 0) (List.replicate 32 (dest 16))) 16 0 = false ∧
      (unitCl (dest 16).dst = 0 / 20 ∧ isSliceUnit (dest 16).dst = false) ∧ ¬ (unitCl (dest 256).dst = 2 / 20 ∧ isSliceUnit (dest 256).dst = false) ∧
      neighbour 0 2 = some 1 ∧ (getRouter State.reset 1).st ≠ 1 ∧ routerRoom State.reset 1 (opposite 2) 0 (dest 256) = true ∧
      (let idle := modRouter State.reset 1279 fun x => { x with st := 0, last := 0, idle := 0 }
       (getRouter idle 1279).st = 0 ∧ (getRouter idle 1279).last + (getRouter idle 1279).idle ≤ idle.tick.toNat) ∧
      (getRouter (modRouter State.reset 1279 fun x => { x with st := 1 }) 1279).st = 1 := by
  decide +kernel

/-- A writer that is granted its bid, one that is not, and one that bids. -/
theorem witness_FabricRouteResults_tokens :
    let s := setQ State.reset (qk 1 79 17 0) [pkt (.load 0 8 .none)]
    let p := pkt (.load 0 8 .none)
    let won := fun (g : Nat) => modToken s 79 fun t => { t with bids := [(17, bidName 0 p)], grant := g }
    79 / 128 < 4 ∧ 79 % 128 < 80 ∧ dieRuns s 0 = true ∧ 17 ∉ (getToken s 79).seen ∧ (∃ w, w < 18 ∧ w ∉ (getToken s 79).seen) ∧
      (∀ w, w < 18 → w ∈ (getToken (modToken s 79 fun t => { t with seen := List.range 18 }) 79).seen) ∧ smGet 0 (getToken (won 17) 79).bids 17 ≠ 0 ∧ (getToken (won 17) 79).grant = 17 ∧
      idxOf (fun x => bidName ((smGet 0 (getToken (won 17) 79).bids 17 - 1) / 2 ^ 28) x == smGet 0 (getToken (won 17) 79).bids 17)
        (getQ (won 17) (qk 1 79 17 ((smGet 0 (getToken (won 17) 79).bids 17 - 1) / 2 ^ 28))) = some 0 ∧
      (getQ s (qk 1 79 17 0))[0]? = some p ∧ (getToken (won 31) 79).grant ≠ 17 ∧
      (writerPick s 79 17 (getToken s 79)).map (fun x => (x.1, x.2.1)) = some (0, 0) := by
  decide +kernel

/-! ### Witnesses: homes -/

/-- A state with the given words in memory, from key 0. -/
def memWords (ws : List Word) : State :=
  { State.reset with mem := memCells [] (((wordBytes ws).zipIdx).map fun b => (b.2, b.1)) }

/-- One request of each kind in a home's queue. -/
theorem witness_HomeAccessResults_serves :
    let bead := fun op => Body.bead {} op 0 0 0 .none
    ∀ r ∈ [(Body.load 0 8 .none, 0), (.put [] [] .none, 0), (.sync {}, 1), (.withdraw 0 .none, 2), (.bar 0 1 0 .none, 3), (.park 0 0 0 0 0 0 0 .none, 4), (.lnext 0 1 1 1 .none, 5), (.joinRet 0 0, 6),
      (.resume (0, 64) 0 0 .none, 7), (bead .hstat, 8), (bead (.claim 0), 9), (bead (.completion 0 0), 10), (bead (.poisoned 0 0), 11), (bead (.engFault 0x15), 12), (bead (.opFail 8 0), 13), (bead .death, 14)],
      let s := setQ State.reset (qk 5 0x20 0 0) [pkt r.1]
      dieRuns s (unitDie 0x20) = true ∧ homeArb s 0x20 = some 0 ∧ (getQ s (qk 5 0x20 0 0))[0]? = some (pkt r.1) ∧ homeKind (pkt r.1).body = some r.2 := by
  decide +kernel

/-- Arrived requests that join an entry and that do not, and a replaying home. -/
theorem witness_HomeAccessResults_arrivals :
    let p := pkt (.load 0 8 .none)
    let s := fun (l : List Packet) => setQ (arrived State.reset 0x20 0 p) (qk 5 0x20 0 0) l
    let rec0 := modFn (memWords [0x40, 0x0000000000000000, 5]) 0 fun f => { f with replay := true, rpBytes := 24 }
    let late : State := { rec0 with tick := 65536 }
    let rec5 : State := { arrived (modFn (memWords [0x40, 0x0000000500000000, 5]) 0 fun f => { f with replay := true, rpBytes := 24 }) 40 0 { pkt (.coord 0 3 0 0 0 0 .none) with cls := 5 } with tick := 65536 }
    (∀ l ∈ [[], [p]], (getQ (s l) (qk 4 0x20 0 0)).zipIdx.find? (fun e => isHead (getQ (s l) (qk 4 0x20 0 0)) e.2 e.1 && (homeKind e.1.body).isSome &&
        !((getDie (s l) (unitDie 0x20)).inReset && isDeath e.1)) = some (p, 0) ∧ dieRuns (s l) 0 = true ∧ l.length < 32 ∧ (getFn (s l) (unitFn (s l) 0x20)).replay = false) ∧
      joinAt [] { depart 0 p with arr := 0 } = none ∧ joinAt [p] { depart 0 p with arr := 0 } = some 0 ∧ (getDie (modDie (s []) 0 fun d => { d with inReset := true }) (unitDie 0x20)).inReset = true ∧
      (getFn late (unitFn late 0x20)).replay = true ∧ (getHome late 0x20).free = false ∧ (getHome late 0x20).lastRep + 65536 ≤ late.tick.toNat ∧
      replayHead late 0x20 0 = some (0, 0, 5, 0x40) ∧ (∀ p ∈ waitingAt late 0x20, ¬ (p.cls = 0 ∧ pktSrc late p = 5 ∧ agentAddr late 0x20 p = some 0x40)) ∧
      replayHead rec5 40 0 = none ∧ (∃ p ∈ waitingAt rec5 40, p.cls = 5) ∧ replayHead rec5 40 5 = some (0, 5, 5, 0x40) ∧ (getFn rec5 (unitFn rec5 40)).rep5At + 65536 ≤ rec5.tick.toNat ∧
      (∀ p ∈ waitingAt rec5 40, ¬ (p.cls = 5 ∧ pktSrc rec5 p = 5 ∧ agentAddr rec5 40 p = some 0x40)) := by
  decide +kernel

/-- Words whose check passes, fails and is marked; full and empty words; a parked access to withdraw; a nest with chunks left. -/
theorem witness_HomeAccessResults_memory :
    let p := fun (b : Body) => pkt b
    let s := memWords [5]
    let st := fun (s : State) => eccStatus (noteOf s 0x20 (p (.load 0 8 .none))) 0 8
    let op := fun (k : Nat) => { kind := k, key := 0, bytes := 8, ret := .thread {} 1 0 : SyncOp }
    let waits := modHome s 0x20 fun h => { h with parked := [{ kind := .sync (op 0), key := 0, src := 256 }] }
    st s = 0 ∧ st { s with bad := [0] } = 1 ∧ st { s with marks := [0] } = 2 ∧ (9 : BitVec 4).toNat < 10 ∧
      (∀ w ∈ feWords 0 8, w ∈ { s with full := [0, 1] }.full) ∧ ¬ (∀ w ∈ feWords 0 8, w ∈ { s with full := [0] }.full) ∧ ¬ (∀ w ∈ feWords 0 8, w ∉ { s with full := [0] }.full) ∧
      (∀ w ∈ feWords 0 8, w ∉ s.full) ∧ retUid (.thread {} 1 0) = some 1 ∧
      (getHome waits 0x20).parked.find? (fun x => (match x.kind with | .park _ _ _ _ _ => false | _ => true) && x.src == (pkt (.withdraw 0 .none)).src && (retUid (.thread {} 1 0)).isSome && parkedUid x == retUid (.thread {} 1 0)) =
        some { kind := .sync (op 0), key := 0, src := 256 } ∧
      eccStatus (noteOf s 0x20 (p (.lnext 0 100 8 4 .none))) 0 8 = 0 ∧ (4 : Nat) ≠ 0 := by
  decide +kernel

/-- Barrier words: an empty one, one of four with the first three in, one with another count and bad ones; a parked arrival. -/
theorem witness_HomeWaits_bar :
    let word := fun (w : Word) => memRead (memWords [w]).mem 0 8
    let bad := fun (w : Nat) => w / 2 ^ 16 % 2 ^ 16 ≠ 0 ∨ (w / 2 ^ 32 % 2 ^ 16 = 0 ∧ w % 2 ^ 16 ≠ 0)
    let two := modHome (memWords [0x200000001]) 0x20 fun h => { h with parked := [{ kind := .bar 2 .none, key := 0 }] }
    bad (word 0x10000) ∧ bad (word 1) ∧ ¬ bad (word 0) ∧ ¬ bad (word 0xFFFF000400000003) ∧ word 0xFFFF000400000003 / 2 ^ 32 % 2 ^ 16 = 4 ∧ word 0xFFFF000400000003 % 2 ^ 16 + 1 = 4 ∧
      word 0x400000002 % 2 ^ 16 + 1 ≠ 4 ∧ word 0 % 2 ^ 16 = 0 ∧ (∀ x ∈ (getHome (noteOf (memWords [0]) 0x20 (pkt (.bar 0 1 0 .none))) 0x20).parked, x.key ≠ 0) ∧
      (getHome (noteOf two 0x20 (pkt (.bar 0 2 0 .none))) 0x20).parked = [{ kind := .bar 2 .none, key := 0 }] ∧ memRead two.mem 0 8 % 2 ^ 16 + 1 = 2 := by
  decide +kernel

/-- A PARK word, a join record with two children, one and none, and a cell in each state. -/
theorem witness_HomeWaits_words :
    let word := fun (w : Word) => memRead (memWords [w]).mem 0 8
    word 5 = 5 ∧ word 0 = 0 ∧ word 1 = 1 ∧ word 2 = 2 ∧ BitVec.ofNat 64 5 ≠ (6 : Word) := by
  decide +kernel
theorem witness_HomeWaits_cells : cellBad (memWords [0]) 0 = false ∧ cellBad (memWords [1]) 0 = false ∧ cellBad (memWords [2]) 0 = false := by
  decide +kernel

/-- A cell that holds a record of context 3. -/
def heldCell : State := { memWords [1, 0, 0, 0, 0, 0, 0, 0, 0, 0x30000] with written := [(cellTag 3, 64, 7)] }
theorem witness_HomeWaits_record :
    let res := noteOf heldCell 0x20 (pkt (.resume (0, 64) 5 3 .none))
    cellBad res 0 = false ∧ memRead res.mem 0 8 = 1 ∧ fld (BitVec.ofNat 64 (memRead res.mem (64 + 8 * 1) 8)) 31 16 = 3 ∧
      eccStatus res 64 64 = 0 := by
  decide +kernel
theorem witness_HomeWaits_record_owner :
    recUid (homeWrite (markRead (noteOf heldCell 0x20 (pkt (.resume (0, 64) 5 3 .none))) 64 64) 0 8 0) (cellTag 3) (BitVec.ofNat 64 64) = some 7 := by
  decide +kernel

/-- A parked access of each kind whose deadline has come. -/
theorem witness_HomeWaits_deadlines :
    ∀ k ∈ [ParkKind.sync { kind := 0 }, .sync { kind := 3 }, .bar 2 .none, .park 0 1 3 0 0],
      let x : Parked := { kind := k, deadline := some 9 }
      let s : State := { modHome State.reset 0x20 (fun h => { h with parked := [x] }) with tick := 9 }
      (getHome s 0x20).parked[0]? = some x ∧ x.deadline = some 9 ∧ 9 ≤ s.tick.toNat := by
  decide +kernel

/-! ### Witnesses: beads -/

/-- A bead at key 0 in each state, for every operation. -/
theorem witness_BeadTableResults :
    let ok := fun (w0 : Word) => w0.toNat / 2 ^ 50 = 0 ∧ w0.toNat / 16 % 16 = 0 ∧ w0.toNat % 16 < 6
    let s := fun (w0 : Word) => noteOf (memWords [w0, 9, 0x15]) 0x20 (pkt (.bead {} .hstat 0 0 0 .none))
    let w0 := fun (w : Word) => BitVec.ofNat 64 (memRead (s w).mem 0 8)
    (∀ st, st < 6 → ok (w0 (BitVec.ofNat 64 st)) ∧ (w0 (BitVec.ofNat 64 st)).toNat % 16 = st) ∧ ok (w0 0x0003FFFFFFFFFF05) ∧
      ¬ ok (w0 6) ∧ ¬ ok (w0 0x10) ∧ ¬ ok (w0 0x4000000000000) ∧
      bdAsked .hstat = true ∧ bdAsked (.completion 0 0) = false ∧ (7 : Word) ≠ 9 ∧
      BitVec.ofNat 64 (memRead (s 2).mem (0 + 8 * 2) 8) = 0x15 ∧ BitVec.ofNat 64 (memRead (s 2).mem (0 + 8 * 3) 8) = 0 ∧ chainSpark (s 2) 0x15 = false ∧
      chainSpark (modCl State.reset 0 fun c => { c with sparkCh := [(0x15, 0)] }) 0x15 = true := by
  decide +kernel

/-- A waiter whose deadline has come. -/
theorem witness_BeadTableResults_deadline :
    let w : Waiter := { bead := 0, deadline := 9 }
    let s : State := { modCl State.reset 0 (fun c => { c with waiters := [(5, w)] }) with tick := 9 }
    (getCl s 0).waiters.find? (fun w => w.1 == 5) = some (5, w) ∧ homeOf w.bead = some 0x20 ∧ unitCl 0x20 = 0 ∧ w.deadline ≠ 0 ∧ w.deadline ≤ s.tick.toNat := by
  decide +kernel

/-- Edges of a wait that stands and of one that has ended; a question; and answers of each kind. -/
theorem witness_BeadTableResults_chains :
    let u := coreUnit (svcCore 0)
    let edge := pkt (.wfcEdge 7 8 0 {})
    let ends := arrived State.reset u 0 edge
    let stands := modCl { (memWords [2, 0, 0, 0x8000000000000000]) with queues := ends.queues } 0 fun c => { c with waiters := [(4095, { addr := 0x8000000000000000, chain := 7 })] }
    let reply := fun (x : Option Word) (h : Nat) => pkt (.wfcReply 7 x {} h)
    let e : Wfc := { chain := 7, on := some 8 }
    let known := fun (x : Option Word) (h : Nat) => arrived (modCl State.reset 0 fun c => { c with wfc := [e] }) u 1 (reply x h)
    (takeArrived ends u 0 (fun p => match p.body with | .wfcEdge a _ _ _ => wfcRoom ends 0 a | _ => false)).map (·.1) = some (depart 0 edge) ∧ forcersOf State.reset {} 7 = [] ∧
      (takeArrived stands u 0 (fun p => match p.body with | .wfcEdge a _ _ _ => wfcRoom stands 0 a | _ => false)).map (·.1) = some (depart 0 edge) ∧ forcersOf stands {} 7 ≠ [] ∧
      (takeArrived (arrived State.reset u 0 (pkt (.wfcQuery 7 8 1 0))) u 0 (fun p => match p.body with | .wfcQuery _ _ _ _ => true | _ => false)).map (·.1) = some (depart 0 (pkt (.wfcQuery 7 8 1 0))) ∧
      (∀ r ∈ [(none, 1), (some 9, 7), (some 9, 8), (some 7, 8)], (takeArrived (known r.1 r.2) u 1 (fun p => match p.body with | .wfcReply _ _ _ _ => true | _ => false)).map (·.1) = some (depart 0 (reply r.1 r.2))) ∧
      (getCl (known none 1) 0).wfc.find? (fun w => w.chain == 7) = some e ∧ e.on.isSome = true ∧ chainSpark (known none 1) 7 = false ∧ homeOf e.bead.key = some 0x20 := by
  decide +kernel

/-! ### Witnesses: deliveries -/

/-- Replies that a slot waits for, with each outcome, one for another continuation, and acknowledgements. -/
theorem witness_DeliveryResults_replies :
    let s := withSlot { runSlot with wait := some .reply, infl := [{ id := 7 }, { id := 9, tick := some (4, 1) }] }
    let coord := fun gen => Res.coord 5 (some (3, 7, 0, 0, gen))
    let g := modCore s 0 fun c => { c with clbGen := [(1, 6)] }
    (∀ t ∈ [s, g], ∀ b ∈ [Body.reply (.thread {} 1 0x40) .ok, .reply (.thread {} 1 0) (.fault 8 0), .reply (.thread {} 1 0) .withdrawn, .reply (.thread {} 1 0) (coord 5), .reply (.thread {} 1 0) (coord 6),
        .reply (.thread {} 2 0) .ok, .reply (.access {} 1 7 0 0) .ok, .reply (.access {} 1 9 0 0) (.fault 8 0), .reply (.access {} 1 (2 ^ 40 + 3) 0 0) .ok, .ringDone {} 1 3 .done 1 0x40],
      takeArrived (arrived t 0 1 (pkt b)) 0 1 isReply = some (pkt b, t)) ∧
      (getSlot s {}).uid = some 1 ∧ (getSlot s {}).uid ≠ some 2 ∧ (getSlot s {}).wait = some .reply ∧ (getSlot s {}).res = none ∧
      5 < smGet 0 (getCore g 0).clbGen (unitCl (pkt (.joinRet 0 0)).src) ∧ smGet 0 (getCore g 0).clbGen (unitCl (pkt (.joinRet 0 0)).src) ≤ 6 % 2 ^ 32 ∧
      (getSlot s {}).infl.find? (fun i => i.id == 7) = some { id := 7 } ∧ (getSlot s {}).infl.find? (fun i => i.id == 9) = some { id := 9, tick := some (4, 1) } := by
  decide +kernel

/-- Wakes of a thread in its slot, of one that has left, of a task and of a carry; a late trap. -/
theorem witness_DeliveryResults_wakes :
    let w : Waiter := { uid := 1, handle := 5, ret := .thread {} 1 0 }
    let s := withSlot { runSlot with demand := some 5 }
    let left := { State.reset with conts := [(1, { alive := true, bead := some 5 })] }
    let task : Waiter := { kind := 2, ret := .task 0 64 }
    let carry : Waiter := { uid := 1, carry := true }
    let held := modCl State.reset 0 fun c => { c with carries := [{ uid := 1 }] }
    (∀ x ∈ [(s, w), (left, w), (left, task), (held, carry)],
      takeArrived (arrived x.1 0 1 (pkt (.wake x.2 (.value 3 false 0)))) 0 1 (fun p => match p.body with | .wake _ _ => true | _ => false) = some (pkt (.wake x.2 (.value 3 false 0)), x.1)) ∧
      (getSlot (wfcFree s 0) {}).uid = some w.uid ∧ (getSlot (wfcFree s 0) {}).demand = some w.handle ∧ (getSlot (wfcFree left 0) {}).uid ≠ some w.uid ∧ (getCont (wfcFree left 0) 1).alive = true ∧ (getCont (wfcFree left 0) 1).bead = some w.handle ∧
      (getSlot (wfcFree State.reset 0) {}).demand ≠ some w.handle ∧ (getCont (wfcFree State.reset 0) 1).bead ≠ some w.handle ∧
      (pkt (.wake w (.value 3 false 0))).late = none ∧ (getCl (wfcFree held 0) (coreCl 0)).carries.find? (fun c => c.uid == 1) = some { uid := 1 } ∧
      (let t := modCsr s0 {} fun c => { c with lateTval := some 8, lateDue := true }
       (getSlot t {}).csr.lateDue = true ∧ mayIssue t {} = true ∧ midway (getSlot t {}) = false) := by
  decide +kernel

/-- A message for a thread with ports and for one without; an element for a queue that is enabled and for one that is not. -/
theorem witness_DeliveryResults_messages :
    let b := Body.msg {} 1 5 (.thread {} 1 0)
    let q := fun n => Body.qelem n 5 false (.thread {} 1 0)
    (∀ s ∈ [sPort, s0], takeArrived (arrived s 0 0 (pkt b)) 0 0 (msgReady (arrived s 0 0 (pkt b))) = some (pkt b, s)) ∧ (getSlot sPort {}).ports = true ∧ (getSlot sPort {}).uid.isSome = true ∧
      (getSlot s0 {}).ports = false ∧ (getFn sPort (unitFn sPort 0)).recMode = false ∧ (getFn sPort (unitFn sPort 0)).replay = false ∧
      (∀ n ∈ [0, 1], takeArrived (arrived sQueue 0 0 (pkt (q n))) 0 0 (elemReady (arrived sQueue 0 0 (pkt (q n))) 0) = some (pkt (q n), sQueue)) ∧
      qEn (qGet sQueue 0 0) = true ∧ qEn (qGet sQueue 0 1) = false := by
  decide +kernel

/-- Packets for a thread that has moved; one forwarded to a thread without ports; expiries; a link; and a port read. -/
theorem witness_DeliveryResults_ports :
    let f : Fwd := { old := {}, new := { core := 1 } }
    let s := modCore s0 0 fun c => { c with fwd := [f] }
    let m := Body.msg {} 1 5 (.thread {} 1 0)
    let link := modCore (modCore (qSet sQueue 0 1 { w0 := 0x4300040000, w1 := 0x100000000 }) 0 fun c => { c with link0 := [{ v := 5, tag := true }] }) 0 fun c => { c with link1 := [{ v := 6 }] }
    let slow : State := { withSlot { portSlot with wait := some (.port 127 (some 9)) } with tick := 9 }
    (∀ b ∈ [m, .forward {} m], takeArrived (arrived s 0 0 (pkt b)) 0 0 (fwdReady (arrived s 0 0 (pkt b))) = some (pkt b, s)) ∧ fwdOf s {} = some f ∧
      takeArrived (arrived s0 0 0 (pkt (.forward {} m))) 0 0 (fwdReady (arrived s0 0 0 (pkt (.forward {} m)))) = some (pkt (.forward {} m), s0) ∧ fwdOf s0 {} = none ∧
      (let r := pkt (.forward {} (.sysrep 0 7 1 2))
       takeArrived (arrived s0 0 1 r) 0 0 (fwdReady (arrived s0 0 1 r)) = none ∧ takeArrived (arrived s0 0 1 r) 0 1 (fwdReady (arrived s0 0 1 r)) = some (r, s0)) ∧
      (getCore s 0).fwd[0]? = some f ∧ (getDie link (coreDie 0)).inReset = false ∧ qEn (qGet link 0 0) = true ∧ qFull (qGet link 0 0) = false ∧ qEn (qGet link 0 1) = true ∧ qFull (qGet link 0 1) = false ∧ (getCore link 0).link0 = { v := 5, tag := true } :: [] ∧
      (getCore link 0).link1 = { v := 6 } :: [] ∧ dieRuns link (coreDie 0) = true ∧
      (getSlot slow {}).uid.isSome = true ∧ (getSlot slow {}).wait = some (.port 127 (some 9)) ∧ 9 ≤ slow.tick.toNat ∧ portEmpty slow {} 127 = true := by
  decide +kernel

/-! ### Witnesses: slots get and lose work -/

/-- A record of context 3 with a window of 8 registers and its burst below 0x1000 of the core's scratchpad. -/
def freeRecord : List Word := [0x4000, 0x30000, 0, 0, 0x1000, 0x2000, 0, 0]
/-- A device with the continuation 2 of context 3, and a launch entry 0. -/
def workState : State :=
  { modNq State.reset 0 0 fun n => { n with entries := [{ seq := 0, ws := [0, 0, 0, 1, 0xABC000, 0, 0, 0] }] } with
    ctxs := [(3, { live := true, spill := 0x1000, spillK := 64 })], conts := [(2, { alive := true, ctx := 3 })] }

/-- Slots that take a record of the deque, of its blocks, and an entry of the queue. -/
theorem witness_SchedulerResults_take :
    let d : DqEnt := { uid := 2, ws := freeRecord }
    let i : Inj := { kind := .cont 2 (.held freeRecord), ctx := 3 }
    let deq := modCore workState 0 fun c => { c with deque := [d] }
    let b : OvfBlock := { key := scrKey 0 0x4000, ents := [(0, 2)] }
    let blk := homeWriteL (modCore workState 0 fun c => { c with blocks := [b] }) b.key (wordBytes freeRecord)
    let inj := modCl workState 0 fun c => { c with inj := [i] }
    (∀ s ∈ [deq, blk, inj], coreRuns s 0 = true ∧ (getSlot s {}).uid = none ∧ (getSlot s {}).resv = none ∧ (∀ f ∈ (getCore s 0).fwd, f.old ≠ {}) ∧ (getFn s (coreFn s 0)).urgent = false ∧
      (getFn s (coreFn s 0)).recMode = false ∧ (getFn s (coreFn s 0)).replay = false) ∧
      (getCore deq 0).deque = [] ++ [d] ∧ (takeCont (setCore deq 0 { getCore deq 0 with deque := [] }) {} d.uid (.held d.ws)).isSome = true ∧
      (getCore blk 0).deque = [] ∧ (getCore blk 0).blocks = b :: [] ∧ (getCore (dequeLoad blk 0) 0).deque = [] ++ [d] ∧
      (takeCont (modCore (dequeLoad blk 0) 0 fun c => { c with deque := [] }) {} d.uid (.held d.ws)).isSome = true ∧
      (getCore inj 0).blocks = [] ∧ injOrder inj (coreCl 0) (fun i => injFor 0 i && !(false && injUrgent i)) = (i, 0) :: [] ∧
      (takeInj (modCl inj (coreCl 0) fun k => { k with inj := injAfter k.inj 0 }) {} i).isSome = true := by
  decide +kernel

/-- A slot that is reserved and takes its own continuation, and slot 63 under urgent service. -/
theorem witness_SchedulerResults_own :
    let ws : List Word := [0x4000, 0x30010, 0, 0, 0x1000, 0x2000, 0, 0]
    let i : Inj := { kind := .cont 2 (.held ws), ctx := 3 }
    let own := modCl (setSlot (modCont workState 2 fun c => { c with pinned := some {} }) {} { resv := some 2, ports := true }) 0 fun c => { c with enq := [i] }
    let urg := modCore (modFn workState 0 fun f => { f with urgent := true }) 0 fun c => { c with uinbox := [{ kind := .cont 2 (.held freeRecord), ctx := 3, urgent := true }] }
    coreRuns own 0 = true ∧ (getSlot own {}).uid = none ∧ (getSlot own {}).resv = some 2 ∧ (takeOwn own {} 2).isSome = true ∧
      (getSlot urg { core := 0, slot := 63 }).resv = none ∧ (getFn urg (coreFn urg 0)).urgent = true ∧ (takeUrgent urg { core := 0, slot := 63 }).isSome = true := by
  decide +kernel

/-- A root and a record that fit. -/
theorem witness_SchedulerResults_fit :
    let c := getCore workState 0
    fitWindow c (winW { wsize := BitVec.ofNat 4 (fld 0x40010 3 0), ports := bitAt 0x40010 4 }) = some 0 ∧ fitSpill (getCtx workState 3) (fld 0x40010 31 16) = some 0x1000 ∧
      (∀ x ∈ (getCore workState (getCont workState 2).core).slots, x.2.uid ≠ some 2) ∧ recOk (getCont workState 2).ctx freeRecord = true ∧ fitWindow c (recW freeRecord) = some 0 ∧
      (getCont workState 2).carry = [] ∧ (getCont workState 2).fresh = false ∧ (∀ k ∈ (getCl workState (coreCl 0)).carries, k.uid ≠ 2) ∧
      ∃ b, loadWords workState (some 0) (getCont workState 2).ctx (wAt freeRecord 4 - BitVec.ofNat 64 (recBurst freeRecord)) (recBurst freeRecord / 8) = .ok b :=
  ⟨by decide +kernel, by decide +kernel, by decide +kernel, by decide +kernel, by decide +kernel, rfl, rfl, by decide +kernel, _, rfl⟩

/-- A core that wants work, before its first victim and after its last; a victim with a record that admits the thief, one that does
not, and none; the replies. -/
theorem witness_SchedulerResults_steal :
    let s := workState
    let d := fun (lvl : Word) => { uid := 2, ws := [0x4000, 0x30000 + lvl * 256, 0, 0, 0x1000, 0x2000, 0, 0] : DqEnt }
    let v := fun (lvl : Word) => modCore { s with tick := 1 } 0 fun c => { c with deque := [d lvl] }
    let ask := pkt (.steal 1)
    let got := fun (e : Option DqEnt) => pkt (.stolen e)
    coreRuns s 0 = true ∧ wantsWork s 0 = true ∧ wantsUrgent s 0 = false ∧ (getCore s 0).asked.length + (getCore s 0).askedU.length < 4 ∧ (victims s 0)[(getCore s 0).stealLvl]? = some 1 ∧ 1 ∉ (getCore s 0).asked ∧
      (∀ t ∈ [v 0, v 1, s], takeOldest (arrived t 0 0 ask) 0 0 (stealReady (arrived t 0 0 ask) 0) = some (depart t.tick.toNat ask, t)) ∧
      dequeFar (v 0) 0 = some (d 0) ∧ stealAdmits (d 0).ws 0 1 = false ∧ dequeFar (v 1) 0 = some (d 1) ∧ stealAdmits (d 1).ws 0 1 = true ∧ dequeFar s 0 = none ∧
      (∀ e ∈ [some (d 1), none], takeArrived (arrived s 0 0 (got e)) 0 0 (stolenReady (arrived s 0 0 (got e)) 0) = some (got e, s)) ∧
      (getCont s 2).alive = true := by
  decide +kernel
theorem witness_SchedulerResults_steal_last :
    let s := modCore (modCl workState 0 fun c => { c with fn := 1 }) 0 fun c => { c with stealLvl := 15 }
    coreRuns s 0 = true ∧ wantsWork s 0 = true ∧ wantsUrgent s 0 = false ∧ (getCore s 0).asked.length + (getCore s 0).askedU.length < 4 ∧ (victims s 0).length ≤ (getCore s 0).stealLvl := by
  decide +kernel

/-- The same of an idle slot 63 under urgent service, where slots 0 to 62 are idle too and where they hold threads. -/
theorem witness_SchedulerResults_urgent_steal :
    let d := fun (lvl : Word) => { uid := 2, ws := [0x4000, 0x30000 + lvl * 256, 0, 0, 0x1000, 0x2000, 0, 0] : DqEnt }
    let s := modFn workState 0 fun f => { f with urgent := true }
    let taken := modCore s 0 fun c => { c with slots := (List.range 63).map fun i => (i, { uid := some 2 }) }
    let last := modCore (modCl taken 0 fun c => { c with fn := 1 }) 0 fun c => { c with lvlU := 15 }
    let last := modFn last 1 fun f => { f with urgent := true }
    let v := fun (lvl : Word) => modCore s 0 fun c => { c with udeque := [d lvl] }
    let ask := pkt (.stealU 1)
    let got := fun (e : Option DqEnt) => pkt (.stolenU e)
    (∀ t ∈ [s, taken, last], coreRuns t 0 = true ∧ wantsUrgent t 0 = true ∧ (getCore t 0).asked.length + (getCore t 0).askedU.length < 4) ∧
      wantsWork s 0 = true ∧ wantsWork taken 0 = false ∧ wantsWork last 0 = false ∧ (victims taken 0)[(getCore taken 0).lvlU]? = some 1 ∧ 1 ∉ (getCore taken 0).askedU ∧
      (victims last 0).length ≤ (getCore last 0).lvlU ∧
      (∀ t ∈ [v 0, v 1, s], takeOldest (arrived t 0 0 ask) 0 0 (stealReady (arrived t 0 0 ask) 0) = some (ask, t)) ∧
      (getCore (v 0) 0).udeque.head? = some (d 0) ∧ stealAdmits (d 0).ws 0 1 = false ∧ (getCore (v 1) 0).udeque.head? = some (d 1) ∧ stealAdmits (d 1).ws 0 1 = true ∧
      (getCore s 0).udeque = [] ∧
      (∀ e ∈ [some (d 1), none], takeArrived (arrived s 0 0 (got e)) 0 0 (stolenReady (arrived s 0 0 (got e)) 0) = some (got e, s)) ∧ (getCont s 2).alive = true := by
  decide +kernel

/-- Continuations that are ready, pinned or not; an entry of the queue; and urgent work with slot 63 free, taken, and a full inbox. -/
theorem witness_SchedulerResults_queue :
    let s := workState
    let pin := modCont s 2 fun c => { c with pinned := some {} }
    let b := pkt (.enqueue 2 3 (.mem 0x4000))
    let i : Inj := { kind := .cont 2 (.held freeRecord), ctx := 3 }
    let urg := modFn s 0 fun f => { f with urgent := true }
    let u := pkt (.urgent 2 (.held freeRecord))
    let off := modFn urg 0 fun f => { f with urgent := false }
    let taken := setSlot urg { core := 0, slot := 63 } runSlot
    let full := modCore taken 0 fun c => { c with uinbox := [i, i, i, i] }
    (∀ t ∈ [s, pin], takeArrived (arrived t 16 0 b) (coreUnit (svcCore 0)) 0 (fun p => match p.body with | .enqueue _ _ _ => true | _ => false) = some (b, t) ∧ (getCont t 2).alive = true) ∧
      (getCont s 2).pinned = none ∧ (getCont pin 2).pinned ≠ none ∧ (getCl (modCl s 0 fun c => { c with inj := [i] }) 0).inj[0]? = some i ∧
      (∀ t ∈ [urg, taken, full], coreRuns t 0 = true ∧ (getFn t (coreFn t 0)).urgent = true ∧
        takeArrived (arrived t 0 0 u) 0 0 (fun p => match p.body with | .urgent _ _ => true | _ => false) = some (u, t) ∧ (getCont t 2).alive = true) ∧
      (getFn off (coreFn off 0)).urgent = false ∧ takeArrived (arrived off 0 0 u) 0 0 (fun p => match p.body with | .urgent _ _ => true | _ => false) = some (u, off) ∧
      takeArrived urg 0 0 (fun p => match p.body with | .urgent _ _ => true | _ => false) = none ∧ postCtx urg 0 freeRecord = some 3 ∧ freeRecord ≠ [] ∧
      (slotFree urg { core := 0, slot := 63 } = true ∧ (getCore urg 0).udeque = [] ∧ (getCore urg 0).uinbox = []) ∧
      (takeInj urg { core := 0, slot := 63 } { injOf urg 2 (.held freeRecord) with urgent := true, since := urg.tick.toNat }).any (fun t => (getSlot t { core := 0, slot := 63 }).uid.isSome) = true ∧
      slotFree taken { core := 0, slot := 63 } = false ∧ (getCore taken 0).uinbox.length < 4 ∧ 4 ≤ (getCore full 0).uinbox.length := by
  decide +kernel

/-- Slots under eviction: with a parked access, with a late fault, and one that is written out or moves. -/
theorem witness_SchedulerResults_evict :
    let s := setSlot workState {} { taskSlot with evicting := true }
    let parked := modHome (setSlot workState {} { taskSlot with evicting := true, wait := some .reply }) 0x20 fun h => { h with parked := [{ kind := .sync { ret := .thread {} 1 0 } }] }
    let sl := getSlot s {}
    sl.uid = some 1 ∧ sl.evicting = true ∧ sl.handler = none ∧ coreRuns s 0 = true ∧ (getSlot parked {}).wait = some .reply ∧ (getSlot parked {}).wdrawn = false ∧
      parkedOf parked 1 = some (0x20, { kind := .sync { ret := .thread {} 1 0 } }) ∧
      sl.wait = none ∧ midway sl = false ∧ ringPending sl = false ∧ allComplete sl = true ∧ (∀ i, i < 5 → (tlGet sl.tls i).completed = (tlGet sl.tls i).issued) ∧
      oldest (covered sl true fun _ _ => true) = none ∧ sl.moveTo = none ∧ sl.spb.toNat + burstOf sl ≤ sl.spl.toNat ∧ (getCore s 0).fwd.length < 16 := by
  decide +kernel
theorem witness_SchedulerResults_written :
    let s := setSlot workState {} { taskSlot with evicting := true }
    answers (writeOut (slotEnv s {}) s (getSlot s {}).pc) = true := by
  decide +kernel
/-- A late fault under eviction. -/
theorem witness_SchedulerResults_late :
    let sl : Slot := { taskSlot with evicting := true, tls := { copy := { issued := 1, completed := 1, faults := [{ num := 1, ord := 3, cause := 8 }] } } }
    (oldest (covered sl true fun _ _ => true)).isSome = true := by
  decide +kernel

theorem witness_SchedulerResults_stream :
    let s := setSlot workState {} { resv := some 2 }
    let b := pkt (.stream 2 { core := 1 } {} [] freeRecord [] none)
    takeArrived (arrived s 0 0 b) 0 0 (fun p => match p.body with | .stream _ _ _ _ _ _ _ => true | _ => false) = some (b, s) ∧ (getSlot s {}).resv = some 2 ∧ (getCont s 2).alive = true := by
  decide +kernel

/-! ### Witnesses: tile tasks -/

/-- A task of cluster 0, in the scratchpad of core 1 as every cluster sees it: TADD of two FP32 values of one element, 1 and 2. -/
def tileBase : Nat := 0x100000000100000
def tileRec (w0 w1 : Word) : List Word :=
  [w0, w1, BitVec.ofNat 64 (tileBase + 0x100), BitVec.ofNat 64 (tileBase + 0x140), 0, BitVec.ofNat 64 (tileBase + 0x180), 0, BitVec.ofNat 64 (tileBase + 0x80)]
def tileTask (st : TaskSt) (ws : List Word) : Task :=
  { bead := { key := tileBase + 0x80, handle := BitVec.ofNat 64 (tileBase + 0x80), ctx := 3 }, chain := 9, st := st, recA := BitVec.ofNat 64 tileBase, ws := ws,
    vals := [BitVec.ofNat 64 (tileBase + 0x200), BitVec.ofNat 64 (tileBase + 0x240)] }
def tileState (tk : Task) (ws : List Word) : State :=
  let cells : Nat → List Word → List Host.Cell := fun a l => ((wordBytes l).zipIdx).map fun b => (tileBase + a + b.2, b.1)
  modCl { State.reset with
    ctxs := [(3, { live := true })]
    mem := memCells [] (cells 0 ws ++ cells 0x100 [0x100010A03] ++ cells 0x140 [0x100010A03] ++ cells 0x200 [0x3F800000] ++ cells 0x240 [0x40000000]) } 0 fun c => { c with tasks := [tk] }

/-- A claimed task whose record passes the check; one whose record fails it; and one whose record cannot be read. -/
theorem witness_TileResults_evaluate :
    let ws := tileRec 0x000100010A0A0005 0
    let tk := tileTask .claimed []
    let s := tileState tk ws
    let check := fun ws => taskCheck ws tk.bead.handle (opndW0 s tk.bead.ctx) (tkOut s { tk with ws := ws }) fun n => (getCl s 0).mprog.any fun m => m.1 == n
    clRuns s 0 = true ∧ (getCl s 0).tasks.find? (fun t => t.st == .claimed) = some tk ∧ homeOf tk.bead.key = some 1 ∧ loadWords s none tk.bead.ctx tk.recA 8 = .ok ws ∧
      check ws = none ∧ wAt ws 2 ≠ 0 ∧ (opndBead s tk.bead.ctx (wAt ws 2)).map (fun b => homeOf b.key) = some (some 1) ∧ (∀ x ∈ (getCl s 0).tasks, x.bead.key = tk.bead.key → x = tk) ∧
      check (tileRec 0x000100010A0A0805 0) = some 0x12 ∧ check (tileRec 0x000100010B0A0005 0) = some 0x15 ∧
      (loadWords s none tk.bead.ctx (tk.recA + 4) 8).toOption = none := by
  decide +kernel

/-- A value and a failure of an operand; staging; dispatch; a spark with an engine free. -/
theorem witness_TileResults_stages :
    let ws := tileRec 0x000100010A0A0005 0
    let tk := tileTask (.forcing 2) ws
    let ready := tileTask .ready ws
    let s := tileState tk ws
    let op := fun (r : Res) => pkt (.reply (.task 0 (tileBase + 0x80)) r)
    (∀ r ∈ [Res.value 5 false 0, .fault 0x15 7], takeArrived (arrived s 16 1 (op r)) (coreUnit (svcCore 0)) 1 isOpndReply = some (op r, s)) ∧
      (getCl s 0).tasks.find? (fun t => t.bead.key == tileBase + 0x80) = some tk ∧ tk.st = .forcing 2 ∧ homeOf tk.bead.key = some 1 ∧
      (getCl (tileState (tileTask .staging ws) ws) 0).tasks[0]? = some (tileTask .staging ws) ∧ nextTask (engines s 0) [ready] = some (ready, 0) ∧ (∃ e ∈ engines s 0, ∀ t ∈ [ready], t.st ≠ .running e) ∧
      (wAt ws 2).toNat % 64 = 0 ∧ (1 : Word).toNat % 64 ≠ 0 ∧ (getHome s (coreUnit 16)).parked = [] ∧
      (let b : BeadRef := { key := tileBase, handle := 0, ctx := 3 }
       let t := modCl State.reset 0 fun c => { c with sparks := [b] }
       clRuns t 0 = true ∧ (∀ x ∈ (getCl t 0).tasks, x.demanded = true → isRunning x = true) ∧ (getCl t 0).sparks = b :: [] ∧ homeOf b.key = some 1) := by
  decide +kernel

/-- A task that runs on engine 0: its element, its destination, and one whose operand has no value. -/
theorem witness_TileResults_complete :
    let ws := tileRec 0x000100010A0A0005 0
    let tk := tileTask (.running 0) ws
    let s := tileState tk ws
    let tk' := withTlb s 0 0 tk
    let r := tkReads s tk'
    clRuns s 0 = true ∧ tkMiss s tk' = none ∧ (tkMiss s { tk' with ws := [0, 0, 0, 0, 0, 0x2000000] }).isSome = true ∧ (getCl s 0).tasks.find? (fun t => t.st == .running 0) = some tk ∧ tkOut s tk' = some 0x0A ∧
      (∀ x ∈ tileOuts r.1 tk' 0x0A, x.toOption.isSome = true) ∧
      (destAll r.1 tk' 0x0A ((tkResult r.1 tk' 0x0A).1.map (·.getD 0)) (tkResult r.1 tk' 0x0A).2.2 r.2).toOption.isSome = true := by
  decide +kernel
theorem witness_TileResults_fails :
    let ws := tileRec 0x000100010A0A0205 0
    let tk := { tileTask (.running 0) ws with vals := [0, 0] }
    let tk' := withTlb (tileState tk ws) 0 0 tk
    tkMiss (tileState tk ws) tk' = none ∧ (firstCause (tileOuts (tkReads (tileState tk ws) tk').1 tk' 0x0A)).isSome = true ∧ trRestart tk.ws = true ∧ tk.retried = false ∧
      (let raw := { tk with ws := tileRec 0x000100010A0A0009 0 }
       let raw' := withTlb (tileState raw raw.ws) 0 0 raw
       tkMiss (tileState raw raw.ws) raw' = none ∧ tkOut (tileState raw raw.ws) raw' = none) := by
  decide +kernel

/-- Elements of the element operations, and a row and a column of MATMUL. -/
theorem witness_TileResults_elements :
    let tk := tileTask (.running 0) (tileRec 0x000100010A0A0005 0)
    let s := tileState tk tk.ws
    let mm := tileTask (.running 0) (tileRec 0x0001000101010001 0x100000020)
    0 < trM tk.ws ∧ 0 < trN tk.ws ∧ fmtInt 0x0A = none ∧ (tVal s tk (trAfmt tk.ws) (opndVal tk 0) 0).toOption.isSome = true ∧ (tVal s tk (trBfmt tk.ws) (opndVal tk 1) 0).toOption.isSome = true ∧
      trOp tk.ws = 5 ∧ 1 ≤ trOp mm.ws ∧ trOp mm.ws ≤ 3 ∧ trAcc mm.ws = false ∧ (aRow s mm 0).toOption.isSome = true ∧ (bCol s mm 0).toOption.isSome = true := by
  decide +kernel

/-! ### Witnesses: engines, agents -/

/-- A context whose pages of 1 GiB from 0x40000000 are device memory of class coordinate from address 0, with words there. -/
def poolState (ws : List (Nat × Word)) : State :=
  let cells := fun (p : Nat × Word) => ((wordBytes [p.2]).zipIdx).map fun b => (p.1 + b.2, b.1)
  { State.reset with
    ctxs := [(3, { live := true, root := 0x10000, regTab := 0x100000000100000 })]
    mem := memCells [] (((0x10000, 0x11003) :: (0x11000, 0x12003) :: (0x12010, 0xD0D) :: ws).flatMap cells) }

/-- A FILL and a CPY of one FP32 element, whose record lies at 0x1000 of core 0's scratchpad; a command that waits for none. -/
def engRecord : State :=
  let cells := fun (p : Nat × Word) => ((wordBytes [p.2]).zipIdx).map fun b => (scrKey 0 0x1000 + p.1 + b.2, b.1)
  { State.reset with mem := memCells [] ([(0, (0x2000 : Word)), (8, 0x0A), (16, 1), (40, 0x1), (72, 0x100000000), (80, 0)].flatMap cells), ctxs := [(3, { live := true })] }

theorem witness_EngineResultsAtHomes_commands :
    let c : EngCmd := { kind := 3, ctx := 3, recA := 0x1000 }
    let s := modCore engRecord 0 fun k => { k with eng := [c] }
    let far : EngCmd := { c with recA := 0x2000000 }
    let x := engXl s (some 0) 0 3 {}
    coreRuns s 0 = true ∧ (getCore s 0).eng[0]? = some c ∧ planMiss s x (copyPlan s x c) = none ∧ cmdWaits s x c [] (copyPlan s x c) = false ∧
      planMiss s x (copyPlan s x far) = some (0x2000000, 1) ∧
      (let held := setQ s (qk 5 0x20 0 0) [{ src := 0, dst := 0x20, body := .store [(0, 1)] .none }]
       cmdWaits held x { c with mark := 1 } [] (.ok [.ok { va := 0, keys := [(0, 1)] }]) = true) ∧
      (copyPlan s x { c with recA := 0x1001 }).toOption.isNone = true ∧ (copyPlan s x c).toOption.isSome = true ∧ c.entry = none ∧ (getSlot s c.t).uid ≠ some 1 ∧
      (∃ cause, copyPlan s x { c with recA := 0x1001 } = .error (cause, none)) ∧ (getSlot s0 c.t).uid = some 1 :=
  ⟨rfl, rfl, by decide +kernel, by decide +kernel, by decide +kernel, by decide +kernel, by decide +kernel, by decide +kernel, rfl, by decide, ⟨_, rfl⟩, rfl⟩

/-- Homes that let a command's writes pass, and one whose trace ring stalls. -/
theorem witness_EngineResultsAtHomes_gate :
    let c : EngCmd := { kind := 3, ctx := 3, recA := 0x1000 }
    let stall := fun (s : State) => modFn s 0 fun f => { f with recMode := true, trStall := true }
    let x := engXl engRecord (some 0) 0 3 {}
    let y : Xl := { ctx := 3 }
    let pass := fun (s : State) (x : Xl) (c : EngCmd) (rs : List Nat) (p : EX (List (EX EgWrite))) (cls u : Nat) =>
      let r := planDo s x p
      let ls := cmdLines r.1 x c rs r.2.1
      lineGate r.1 cls u (ls.1 ++ ls.2)
    let ranked := poolState [(tileBase + 0x1000, 0x100000000102000), (tileBase + 0x1008, 0), (tileBase + 0x1030, 0x100000000106000), (tileBase + 0x2000, 0x100000000104000), (tileBase + 0x2008, 0x10A), (tileBase + 0x2010, 0x100000001)]
    let r : EngCmd := { kind := 4, ctx := 3, recA := 0x100000000101000 }
    pass engRecord x c [] (copyPlan engRecord x c) 7 0 = true ∧ pass (stall engRecord) x c [] (copyPlan (stall engRecord) x c) 7 0 = false ∧
      pass ranked y r (routeReads ranked r) (routePlan ranked r) 10 (rankUnit 0) = true ∧ pass (stall ranked) y r (routeReads (stall ranked) r) (routePlan (stall ranked) r) 10 (rankUnit 0) = false := by
  decide +kernel

/-- Without recording and replay no home holds a write back. -/
theorem witness_EngineResultsAtHomes_plain : ∀ f, (getFn State.reset f).recMode = false ∧ (getFn State.reset f).replay = false := by
  intro f; exact ⟨rfl, rfl⟩

theorem witness_EngineResultsAtHomes_records :
    let c : EngCmd := { kind := 0, ctx := 3, recA := 0x1000, dst := 0x3000 }
    let x := engXl engRecord (some 0) 0 3 {}
    (layRead engRecord x c false).toOption.any (fun l => !l.decode && l.gran = 0 && l.cls = 0 && decide (l.fmt = 10) && decide (l.base = 0x2000) && decide (l.wins = [1]) &&
      (winIdx l.wins).all (inExts l.exts)) = true ∧ laySize 10 = 4 ∧ c.dst.toNat % 4 = 0 ∧ (egBytes engRecord x 0x2000 4).toOption.isSome = true := by
  decide +kernel

/-- The oldest command of a ranking engine: a ROUTE and a PSEL whose records are misaligned, and a ROUTE that ranks nothing. -/
theorem witness_EngineResultsAtHomes_ranking :
    let r : EngCmd := { kind := 4, ctx := 3, recA := 0x40000001 }
    let s := fun (c : EngCmd) => modDie (poolState []) 0 fun d => { d with rank := [(c, 0, 0, none)] }
    (∀ c ∈ [r, { r with kind := 5 }], (getDie (rankLoad (s c) 0) 0).rank = (c, 0, 0, none) :: [] ∧ cmdWaits (rankLoad (s c) 0) { ctx := 3 } c (routeReads (rankLoad (s c) 0) c) (routePlan (rankLoad (s c) 0) c) = false ∧ cmdWaits (rankLoad (s c) 0) { ctx := 3 } c (pselReads (rankLoad (s c) 0) c) (pselPlan (rankLoad (s c) 0) c) = false ∧ (getCtx (rankLoad (s c) 0) c.ctx).live = true ∧
      (getCtx (rankLoad (s c) 0) c.ctx).torn = none) ∧
      (routePlan (modDie (rankLoad (s r) 0) 0 fun d => { d with rank := [] }) r).toOption.isNone = true ∧
      (pselPlan (modDie (rankLoad (s r) 0) 0 fun d => { d with rank := [] }) { r with kind := 5 }).toOption.isNone = true ∧
      (routePlan (poolState [(tileBase + 0x1000, 0x100000000102000), (tileBase + 0x1008, 0), (tileBase + 0x1030, 0x40003000), (tileBase + 0x2000, 0x100000000104000), (tileBase + 0x2008, 0x10A), (tileBase + 0x2010, 0x100000001)]) { r with recA := 0x100000000101000 }).toOption.isSome = true := by
  decide +kernel

/-- Requests of each kind at an agent. -/
theorem witness_AgentResults_requests :
    let load := pkt (.coord 0 3 0 0 0 0 (.thread {} 1 0))
    let inv := fun ws => pkt (.cinv 3 0 ws (.thread {} 1 0))
    let s := poolState []
    let bad := poolState [(tileBase, 3)]
    (∀ p ∈ [load, inv none, inv (some [])], (agentNext (arrived s (treeUnit 0) 0 p) 0) = some (p, s)) ∧ (cinvOp s 0 3 0 (inv none) (.thread {} 1 0)).toOption.isSome = true ∧
      (cinvOp bad 0 3 0 (inv none) (.thread {} 1 0)).toOption.isNone = true := by
  decide +kernel

/-- A region of class 1 of 100 by 100 bytes and one of class 2 of 100 bytes, as their agent holds them. -/
def agentState (w : List Word) (ws : List (Nat × Word)) : State :=
  modCl (poolState ws) 0 fun c => { c with regions := [(regionKey 3 0, { ws := w, free := [(0, [0x40023000])] })] }
def volume : List Word := [0x121, 0x6300000063, 7, 0x40020000, 8, 0x40020000, 0, 0]
def tensor : List Word := [0x40000000000132, 99, 0, 0x40020000, 8, 0x40020000, 100, 0]

theorem witness_AgentResults_volume :
    let s := agentState volume [(0x20000, 0x40021000), (0x21000, 0x40022000)]
    let w := (regionAt s 0 3 0).ws
    rgClass w = 1 ∧ (getFn s (unitFn s (treeUnit 0))).recMode = false ∧ (getFn s (unitFn s (treeUnit 0))).replay = false ∧ coordIn w 0 = true ∧ coordIn w 0x6300000063 = true ∧
      coordIn w 0x64 = false ∧ (0x64 : Word) ≠ BitVec.allOnes 64 ∧ tileOf w (unpackC (rgPack w) 0x6300000063) < 2 ^ 27 ∧
      tileFind s 3 0 w (tileOf w (unpackC (rgPack w) 0)) = .ok (0, [0x40020000, 0x40021000, 0x40022000]) ∧
      (tileAlloc s 3 0 w (tileOf w (unpackC (rgPack w) 0)) [0x40020000, 0x40021000, 0x40022000] (freeList (regionAt s 0 3 0) 0) 0).toOption.isSome = true ∧
      rgClass (regionAt s 0 3 1).ws = 0 := by
  decide +kernel

theorem witness_AgentResults_tensor :
    let s := agentState tensor [(0x20000, 0x40021000), (0x21000, 0x100), (0x21010, 5), (0x21018, 9)]
    let w := (regionAt s 0 3 0).ws
    rgClass w = 2 ∧ coordIn w 5 = true ∧ coordIn w 99 = true ∧ linOf w 99 / rgSpan w ≤ rgShards w ∧ elZero (rgFmt w) ((0x100 : Word).toNat % 2 ^ elBits (rgFmt w)) = true ∧
      (estFind s 3 0 w (linOf w 5 / rgSpan w) (linOf w 5)).toOption.any (fun r => decide (idxOf (· == linOf w 5) r.2.keys = some 0)) = true ∧
      (estFind s 3 0 w (linOf w 99 / rgSpan w) (linOf w 99)).toOption.any (fun r => !(r.2.keys.contains (linOf w 99))) = true := by
  decide +kernel

/-! ### Witnesses: reduction queues, carries, links, frames -/

/-- Queue operations on entries in each state. -/
theorem witness_EngineResultsAtHomes_queues :
    let p := fun (op b : Nat) (k : Bool) => pkt (.rq op 15 [] b k 3 0 (.thread {} 1 0))
    let s := fun (e : RqEnt) => modCl State.reset 0 fun c => { c with rq := [(15, e)] }
    let ws : List Word := [0x0000000000010002, 0, 0, 0, 3]
    let e : RqEnt := { st := 1, ws := ws, ctx := 3 }
    (∀ x ∈ [p 0 0 false, p 1 0 false, p 2 1 false, p 2 1 true, p 2 2 true], takeFirst (arrived (s e) (rqUnit 0) 0 x) (rqUnit 0) 0 (fun p => match p.body with | .rq _ _ _ _ _ _ _ _ => true | _ => false) =
      some (x, s e)) ∧ dieRuns (s e) (clDie 0) = true ∧
      (∀ n, n < 5 → (smGet {} (getCl (s { e with st := n }) 0).rq 15).st = n) ∧ (wAt ws 0).toNat % 2 ^ 16 = 2 ∧ (∀ w ∈ (getCl (s e) 0).rqWaits, w.entry ≠ 15) ∧
      rqReady { e with arrived := [(1, 1)] } = some 1 ∧ rqReady e = none ∧ e.assigned.length < 2 ∧ 2 ≤ { e with assigned := [0, 1] }.assigned.length ∧
      rdLists ws 3 = true ∧ rdLists ws 4 = false ∧ (ssIns 1 e.reduced).length < 2 ∧ 2 ≤ (ssIns 1 { e with reduced := [0] }.reduced).length := by
  decide +kernel

/-- A commit whose blocks are copied within core 1's scratchpad, and one that found no places; a waiting RQGET past its deadline. -/
theorem witness_EngineResultsAtHomes_commit :
    let e : RqEnt := { st := 2, ws := [0x0000000000010001, 0, 0x100000000100000, 0x100000000102000, 3], ctx := 3, last := some (256, 9, none, .thread {} 1 0) }
    let s := modCl { State.reset with ctxs := [(3, { live := true })] } 0 fun c => { c with rq := [(15, e)] }
    let w : RqWait := { deadline := some 9 }
    let e' := { e with keys := rqKeys s e }
    let s' := modCl s 0 fun c => { c with rq := [(15, e')] }
    smGet {} (getCl s' 0).rq 15 = e' ∧ e'.keys.length = 64 ∧ lineGate s' 10 (rqUnit 0) (((rqCopies s' e').flatMap fun w => w.2.keys.map fun k => k.1 / 64).eraseDups ++ egLines (rqCopies s' e')) = true ∧
      lineGate s 10 (rqUnit 0) (((rqCopies s e).flatMap fun w => w.2.keys.map fun k => k.1 / 64).eraseDups ++ egLines (rqCopies s e)) = true ∧
      (getCl (modCl State.reset 0 fun c => { c with rqWaits := [w] }) 0).rqWaits[0]? = some w ∧ (9 : Nat) ≤ { State.reset with tick := 9 }.tick.toNat := by
  decide +kernel

/-- Carries that arrive, whose deposit is done, that are counted (last and not), and whose bead answers; a row that comes home; a
core with a parity error. -/
theorem witness_CarryRules_home :
    let ci : CarryIn := { uid := 2, ctx := 3, ws := freeRecord, row := [1, 2], desc := [0x100000000100080, 0, 0, 0x100000000100100, 0, 0x100000000100000] }
    let held := modCl workState 0 fun c => { c with carries := [ci] }
    let r := fun (n : Nat) (x : Res) => pkt (.reply (.carry 0 2 n) x)
    clRuns workState 0 = true ∧
      takeArrived (arrived workState 16 0 (pkt (.carry ci))) (coreUnit (svcCore 0)) 0 (fun p => match p.body with | .carry _ => true | _ => false) = some (pkt (.carry ci), workState) ∧
      (getCont workState 2).alive = true ∧ (depositKeys workState 0 ci).toOption.isSome = true ∧
      (depositKeys workState 0 { ci with desc := [0, 0, 0, 0x7000000000000, 0, 0] }).toOption.isNone = true ∧ (∀ x ∈ (getCl workState 0).carries, x.uid ≠ 2) ∧ { ci with acks := 2 }.acks = 2 ∧ (pkt (.carry ci)).late = none ∧
      (depositKeys workState 0 ci).toOption.map List.length = some ci.row.length ∧ homeOf (scrKey 1 0) = some 1 ∧ homeOf 0x4000000000000 = none ∧
      takeArrived (arrived held 16 1 (r 0 .ok)) 16 1 (isCarryReply 0) = some (r 0 .ok, held) ∧ (getCl held 0).carries.find? (fun c => c.uid == 2) = some ci ∧
      (wAt ci.desc 5).toNat % 8 = 0 ∧ (vkey held (some 16) 3 (wAt ci.desc 5).toNat 3).toOption.map (fun k => homeOf k.1) = some (some 1) ∧
      (∀ x ∈ [r 1 (.words [1]), r 1 (.words [2]), r 1 (.words [0x8000000000000000]), r 2 (.value 7 false 0), r 2 (.fault 8 0)],
        takeArrived (arrived held 16 1 x) 16 1 (fun p => isCarryReply 1 p || isCarryReply 2 p) = some (x, held)) ∧
      (vkey held (some 16) 3 (wAt ci.desc 0).toNat 1).toOption.map (fun k => homeOf k.1) = some (some 1) ∧
      (let b := pkt (.carryBack 2 {} freeRecord [] [1] [] 0)
       let t := setSlot workState {} { resv := some 2 }
       coreRuns t 0 = true ∧ takeArrived (arrived t 0 0 b) 0 0 (backReady (arrived t 0 0 b) 0) = some (b, t) ∧ (getSlot t {}).resv = some 2 ∧ (getCont t 2).alive = true) ∧
      coreExists 0 = true ∧ (getCore workState 0).stopped = false := by
  decide +kernel

set_option maxRecDepth 20000 in
/-- A port in each state, packets to send, and flits of each type, in order and not, good and not. -/
theorem witness_LinkResults_traffic :
    let s := fun (k : Port) (x : Packet) => modPort (arrived State.reset (portUnit 0) 0 x) 0 fun _ => k
    let x : Packet := { pkt (.load 0 8 (.thread {} 1 0)) with rdev := some (5, 7) }
    let act : Port := { st := .active }
    dieRuns (s act x) (0 / 4) = true ∧ portPick (modPort State.reset 0 fun _ => act) (portUnit 0) = none ∧ 2048 < { act with replayB := List.replicate 2048 (0, 1) }.replayB.length + flits x ∧ portPick (s act x) (portUnit 0) = some (0, 0, x) ∧ (getPort (s act x) 0).st = .active ∧
      act.replayB.length + flits (depart 0 x) ≤ 2048 ∧ (remoteOf act (depart 0 x)).isSome = true ∧ (getPort (s { st := .down } x) 0).st = .down ∧ act.rx = [] ∧
      (∀ n, n < 8 → flitGood (mkFlit n 4095 0) = true ∧ flitType (mkFlit n 4095 0) = n ∧ flitSeq (mkFlit n 4095 0) = 4095) ∧ flitGood 1 = false ∧
      flitSeq (mkFlit 1 0 0) = act.rxSeq ∧ act.sinceAck + 1 < 64 ∧ { act with part := [mkFlit 1 0 0] }.part ≠ [] ∧
      idxOf (fun (e : Nat × BitVec 256) => e.1 == flitNum (ackFlit 6 3)) [(2, 0), (3, 0)] = some 1 ∧ (List.replicate 20 (1 : BitVec 256)).length = 20 ∧
      (∀ n, n < 16 → (BitVec.ofNat 20 (0x6A3C * 16 + n)).toNat = 0x6A3C * 16 + { act with cwNum := n }.cwNum % 16) ∧
      ¬ (BitVec.ofNat 20 0x6A3C1).toNat = 0x6A3C * 16 + act.cwNum % 16 ∧ (getPort (s { st := .fec } x) 0).st = .fec ∧
      { act with st := .fec, rx := [ackFlit 5 3] }.rx = [ackFlit 5 3] ∧ flitGood (ackFlit 5 3) = true ∧ flitType (ackFlit 5 3) = 5 ∧ flitType (ackFlit 6 3) = 6 := by
  decide +kernel

set_option maxRecDepth 20000 in
/-- Each training state at its time, versions in common and not, and losses of an active link. -/
theorem witness_LinkResults_training :
    let f := fun (lo hi : Nat) => mkFlit 7 0 (BitVec.ofNat 224 (3 * 2 ^ 220 + lo * 2 ^ 208 + hi * 2 ^ 200))
    let k := getPort State.reset 0
    dieRuns State.reset (0 / 4) = true ∧ (∀ l, l < 16 → l ≠ 0 → ((List.range 4).filter fun i => (BitVec.ofNat 4 l).getLsbD i).length ≠ 0) ∧
      ((List.range 4).filter fun i => (0#4).getLsbD i).length = 0 ∧ (∀ n, n < 16 → (BitVec.ofNat 20 (0x6A3C * 16 + n)).toNat / 16 = 0x6A3C) ∧
      (∀ n, n < 4 → { k with locked := 15 }.locked.getLsbD n = true) ∧ k.st ≠ .active ∧ k.fibres = 0 ∧ { k with fibres := 4 }.fibres ≠ 0 ∧ 64 ≤ { k with fecGood := 64 }.fecGood ∧ State.reset.tick.toNat < k.since + 5000000 ∧ k.st = .lock ∧ k.since + 500000 ≤ { State.reset with tick := 5000000 }.tick.toNat ∧ k.since + 5000000 ≤ { State.reset with tick := 5000000 }.tick.toNat ∧ k.rx = [] ∧ k.attempts + 1 < 3 ∧
      3 ≤ { k with attempts := 2 }.attempts + 1 ∧ k.retrain = false ∧
      (∀ v ∈ [(1, 1), (0, 255), (2, 3), (0, 0)], flitGood (f v.1 v.2) = true ∧ flitType (f v.1 v.2) = 7 ∧ (flitPay (f v.1 v.2)).toNat / 2 ^ 220 = 3 ∧
        (flitPay (f v.1 v.2)).toNat / 2 ^ 208 % 256 = v.1 ∧ (flitPay (f v.1 v.2)).toNat / 2 ^ 200 % 256 = v.2) ∧
      16 < ((List.replicate 17 1).filter fun t => decide (State.reset.tick.toNat < t + 500000)).length := by
  decide +kernel

/-- A thread whose traps are handled runs one instruction of each frame to a next state. -/
theorem witness_frames : Runs s0 ∧ Handled s0 ∧ (∃ t, exec (.add 5 6 7) s0 = .next t) ∧ (∃ t, exec (.vadd 1 2 3 0 0 0) s0 = .next t) ∧
    (getFn s0 (coreFn s0 s0.cur.core)).recMode = false ∧ (∃ t, exec (.st 5 6 3 0 0) s0 = .next t) ∧ (∃ t, exec (.csrwr 5 6 0x030) s0 = .next t) :=
  ⟨runs_s0.1, runs_s0.2, ⟨_, rfl⟩, ⟨_, rfl⟩, by decide +kernel, ⟨_, rfl⟩, ⟨_, rfl⟩⟩

/-! ### Further witnesses -/

theorem not_bad {s : State} {op : Nat} {used : List (Nat × Nat)} (h : Command s op used) : ¬ BadCommand s used := by
  rintro (g | g | ⟨i, a, b, c, d⟩)
  · exact g h.2.2.2.1
  · exact absurd h.2.2.2.2.1 (by omega)
  · exact d (h.2.2.2.2.2 i a b c)

/-- A command with an unused byte that is not 0, one with a reserved one, one of function 32; and a DEBUG with debug off. -/
theorem witness_ManagementRules_refused :
    let s := twoWords 0x12 0x10000
    let d := cmdState [(0, 0x13), (3, 0x4000)] State.reset
    s.mgmt.busy = true ∧ s.power.supplyOk = true ∧ cmdByte s 0 = 0x12 ∧ BadCommand s [(8, 2)] ∧ BadCommand (twoWords 0x112 0) [(8, 2)] ∧
      BadCommand (twoWords 0x200012 0) [(8, 2)] ∧
      cmdByte d 0 = 0x13 ∧ cmdByte d 8 = 0 ∧ ¬ BadCommand d [(8, 1), (16, 4), (24, 8)] ∧ cmdNat d 16 4 < 2 ^ 17 ∧ coreExists (cmdNat d 16 4 / 64 % 2048) = true ∧
      coreFn d (cmdNat d 16 4 / 64 % 2048) = cmdFn d ∧ (getFn d (cmdFn d)).debug = false :=
  ⟨rfl, rfl, by decide +kernel, .inr (.inr ⟨10, by decide, by decide, by decide, by decide +kernel⟩), .inl (by decide +kernel), .inr (.inl (by decide +kernel)),
    by decide +kernel, by decide +kernel, not_bad (op := 0x13) (by unfold Command; decide +kernel), by decide +kernel, by decide +kernel, by decide +kernel, by decide +kernel⟩

/-- Covered faults of a WAIT and of a TLWAIT at its bounds. -/
theorem witness_FencesAndWaits_faults :
    let late := withSlot { runSlot with ring := [{ seq := 4, st := .faulted 0x15, ord := 2 }] }
    let tl := withSlot { runSlot with tls := { copy := { issued := 5, completed := 5, faults := [{ num := 4, ord := 3, cause := 8 }] } } }
    (∃ o src c num, covered (getSlot late {}) true (fun i _ => i == 0 || i == 4) = (o, src, c, num) :: []) ∧
      (∃ o src c num, covered (getSlot tl {}) true (fun i f => i = 0 && f.num.toNat ≤ 4) = (o, src, c, num) :: []) ∧
      ringPending (getSlot tl {}) = false ∧ (4 : Word).toNat ≤ (tlGet (getSlot tl {}).tls 0).completed.toNat :=
  ⟨⟨_, _, _, _, rfl⟩, ⟨_, _, _, _, rfl⟩, rfl, by decide⟩

/-- STX of a register of the window, which stands after the base and the index, and of a port. -/
theorem witness_StoreRules_stx : Runs sMem ∧ chk (envFor 4 (.stx 6 20 23 0 0) sMem) [6] [] [20, 23] = .ok () ∧ issued sMem 2 0 = 0 ∧
    (∃ s1 acc i, remapIdx (envFor 4 (.stx 6 20 23 0 0) sMem) sMem ([16, 17] ++ [0]) [] 0 17 = .ok (s1, acc, i)) ∧
    (getSlot sPort {}).ports = true ∧ (124 : BitVec 7).toNat ≥ 120 ∧ ∃ s1 v, readR (envFor 4 (.stx 124 20 23 0 0) sPort) sPort 124 = .ok (s1, v) :=
  ⟨⟨rfl, rfl⟩, rfl, rfl, ⟨_, _, _, rfl⟩, rfl, by decide, _, _, rfl⟩

theorem witness_ThreadLifeResults_keys :
    (homeKey (envFor 4 .sync sTask) 0x1000 3).toOption.any (fun k => (homeOf k).isSome) = true ∧
      (homeKey (envFor 4 .retc (withSlot { taskSlot with join := 0x1000 })) 0x1000 3).toOption.any (fun k => (homeOf k).isSome) = true := by
  decide +kernel

/-- TEXIT of a thread with a join, and of a light handler with a spawned child. -/
theorem witness_ThreadLifeResults_texit :
    let child := withSlot { taskSlot with join := 0x1000 }
    let light := withSlot { taskSlot with handler := some 0, csr := { taskSlot.csr with spawned := true } }
    NoLate child ∧ (getSlot child {}).join ≠ 0 ∧ (getSlot child {}).handler = none ∧ NoLate light ∧ (getSlot light {}).csr.spawned = true ∧ (getSlot light {}).res = none ∧
      (getSlot light {}).deliv = none ∧ (getSlot light {}).ph = [] ∧ (getSlot light {}).handler ≠ none :=
  ⟨⟨by intro r h; exact absurd h List.not_mem_nil, by decide⟩, by decide, rfl, ⟨by intro r h; exact absurd h List.not_mem_nil, by decide⟩, rfl, rfl, rfl, rfl, by decide⟩

/-- The address of a cell's record has a place. -/
theorem witness_SuspensionRules_record :
    (homeKey (envFor 4 (.susp 22) sTask) (0x2000200 + 64) 3).toOption.isSome = true ∧ (homeKey (envFor 4 (.resume 5 22 6) sTask) (0x2000200 + 64) 3).toOption.isSome = true := by
  decide +kernel

/-- A reply that says that the line cannot be read, and another fault, to a VLDF. -/
theorem witness_VectorMemoryRules_faults : ∀ c ∈ [(0x18 : BitVec 8), 8],
    let s := withSlot { runSlot with ph := [3], res := some (.fault c 64) }
    Runs s ∧ (getSlot s {}).ph = [3] ∧ (getSlot s {}).res = some (.fault c 64) := fun _ _ => ⟨⟨rfl, rfl⟩, rfl, rfl⟩

theorem witness_BeadInstructionResults_written :
    let r : List Word := [0x0001000100000001, 0, 0, 0, 0, 0x2000380, 0, 0x2000200]
    let s := withSlot { taskSlot with ph := 0x2000300 :: r ++ [4, 16, 0], res := some .ok }
    ∃ s1, writeR (envFor 4 (.suspend 5 24) s) s 5 4 = .ok s1 := ⟨_, rfl⟩

/-- A package reset: every die is in reset until the boot, and the completion comes after it. -/
theorem witness_PackageEvents_reset :
    let s := { State.reset with dies := (List.range 4).map fun d => (d, { inReset := true, whole := true }) }
    (∀ d, d < 4 → (getDie s d).inReset = true ∧ (getDie s d).whole = true) ∧ s.boot.done = false ∧ { s.boot with done := true }.done = true ∧
      { State.reset.power with supplyOk := false, supplyFault := true }.supplyOk = false := by
  decide +kernel

/-- The clusters halt with the package. -/
theorem witness_HostRegisterResults_halted : working (hostState {}) = true ∧
    (let s := { hostState {} with power := { State.reset.power with shutdown := true } }
     Up s 0 ∧ working s = false) := by
  unfold Up; decide +kernel

theorem witness_TranslationRules_commit : commitUnder s0 0 3 false = false ∧ commitUnder s0 16 3 false = false ∧
    commitUnder (modCl s0 0 fun c => { c with rq := [(0, { st := 2, ctx := 3 })] }) 16 3 false = true := by
  decide +kernel

/-- A record whose burst the core's own TLB serves. -/
theorem witness_SchedulerResults_fill :
    (loadWords (tlbFill workState 0 3 (wAt freeRecord 4 - BitVec.ofNat 64 (recBurst freeRecord)) (recBurst freeRecord / 8)) (some 0) 3
      (wAt freeRecord 4 - BitVec.ofNat 64 (recBurst freeRecord)) (recBurst freeRecord / 8)).toOption.isSome = true := by
  decide +kernel

/-- Operands of a MATMUL with 32 and of a sparse one with 24 columns; a request that staging waits for, and none. -/
theorem witness_TileResults_staging :
    let a := tileTask .staging (tileRec 0x0001000101010001 0x100000020)
    let b := tileTask .staging (tileRec 0x0001000101010003 0x100000018)
    let s := tileState a a.ws
    trOp a.ws = 1 ∧ trK a.ws / 32 = 1 ∧ opndFmt a 0 ≠ fmtPLANE ∧ trM a.ws ≤ 128 ∧ trOp b.ws = 3 ∧ trK b.ws / 24 = 1 ∧
      linesWait s (coreUnit 16) s.sent [0] = false ∧
      linesWait (setQ s (qk 5 0x20 0 0) [{ src := coreUnit 16, dst := 0x20, body := .store [(0, 1)] .none }]) (coreUnit 16) 1 [0] = true := by
  decide +kernel

/-- A record of a call that waits, of one that does not. -/
theorem witness_DeliveryResults_calls :
    let s := withSlot { runSlot with wait := some .sysc, callSeq := 7 }
    callParked s 0 {} 7 = true ∧ callParked s 0 {} 8 = false := by
  decide +kernel

/-- A router that powers down with a flit at its neighbour and with none. -/
theorem witness_FabricRouteResults_power :
    let down := modRouter State.reset 0 fun x => { x with st := 1 }
    flitWaits down 0 = false ∧ flitWaits (setQ down (qk 6 16 0 0) [pkt (.load 0 8 .none)]) 0 = true := by
  decide +kernel

/-- R276's example: ADDI's record with registers 18 and 16 and the immediate 4 gives the native word. -/
theorem test_slolek_word : slWord { maj := 0x14, fn := 0, head := 6, ops := [.sreg 18, .sreg 16, .imm 4] } = some 0x02C40929#32 := by
  decide +kernel

/-! ### Well-formedness: a term that each check refuses, beside one that it takes -/

theorem wf_vecFld : (Instr.vadd 0 1 2 0 0 0).wf = false ∧ (Instr.vadd 1 15 2 0 0 0).wf = true := by decide
theorem wf_vecHalf : (Instr.vaddFh 16 1).wf = false ∧ (Instr.vaddFh 0 1).wf = false ∧ (Instr.vaddFh 15 1).wf = true := by decide
theorem wf_predDst : (Instr.cmpeq 0 5 6).wf = false ∧ (Instr.kand 0 1 2).wf = false ∧ (Instr.kand 7 0 0).wf = true := by decide
theorem wf_fltLane : (Instr.vfadd 1 2 3 0 0 0).wf = false ∧ (Instr.vfadd 1 2 3 0 0 3).wf = true := by decide
theorem wf_barCount : (Instr.bar 20 0).wf = false ∧ (Instr.bar 20 (-1)).wf = false ∧ (Instr.bar 20 1023).wf = true := by decide
theorem wf_scopeOk : (Instr.fence 7 15).wf = false ∧ (Instr.fence 6 15).wf = true := by decide
theorem wf_timelineOk : (Instr.tlwait 5 5).wf = false ∧ (Instr.tlwait 5 4).wf = true := by decide
theorem wf_segOk : (Instr.vcvtf2b 1 2 2 0 0).wf = false ∧ (Instr.vcvtf2e4 1 2 3 0 0).wf = true ∧ (Instr.vcvtf2w 1 2 1 0 0).wf = false ∧ (Instr.vcvtw2i4 1 2 8 0 0).wf = false := by decide
theorem wf_groupOk : (Instr.vqnt 1 2 5 0 1).wf = false ∧ (Instr.vqnt 1 2 4 0 0).wf = false ∧ (Instr.vqnt 1 2 8 0 2).wf = true := by decide
theorem wf_bexpOk : (Instr.vbexp 1 2 3 0 1).wf = false ∧ (Instr.vbexp 1 2 0 0 2).wf = false ∧ (Instr.vbexp 1 2 0 0 1).wf = true ∧ (Instr.vbexp 1 2 3 0 2).wf = true := by decide

/-! ### Decoding: words worked out from the format tables of R265 to R271, most of them the chapters' own examples -/

theorem test_decode_control : decodeTableWord 32 0x17810199 = some (.srai 3 4 60) ∧ decodeTableWord 32 0x00018523 = some (.bk 2 1 6) ∧ decodeTableWord 32 0xFFF843A1 = some (.bnez 7 (-4)) ∧
    decodeTableWord 32 0xFF62498B = some (.cmplti 3 9 (-5)) ∧ decodeTableWord 32 0xB0C14209 = some (.sel 4 5 6 3 1) := by decide
theorem test_decode_predicates : decodeTableWord 32 0x006080CF = some (.kand 1 2 3) ∧ decodeTableWord 32 0x71424451 = some (.fmaF32 8 9 10) ∧ decodeTableWord 32 0x90A100D5 = some (.fcmplt 1 4 5 1) ∧
    decodeTableWord 32 0xA00203D7 = some (.cvtf2b 7 8) := by decide
theorem test_decode_vectors : decodeTableWord 32 0x000090CB = some (.vcvtf2b 1 2 1 0 0) ∧ decodeTableWord 32 0x01121941 = some (.vadd 2 3 4 2 0 2) ∧ decodeTableWord 32 0x0703B2C3 = some (.vfma 5 6 7 0 0 2) ∧
    decodeTableWord 32 0x051909C5 = some (.vcmplt 3 1 2 3 0 2) ∧ decodeTableWord 32 0x00C14859 = some (.vbcast 2 5 6) := by decide
theorem test_decode_memory : decodeTableWord 32 0x0264C8AD = some (.st 17 19 3 0 1) ∧ decodeTableWord 32 0xFE0182AB = some (.ldn 5 6 0 0 (-1)) ∧ decodeTableWord 32 0xE12203AF = some (.ldx 7 8 9 2 3) ∧
    decodeTableWord 32 0x0A42C535 = some (.lds 10 11 0 0 1 2) ∧ decodeTableWord 32 0x0242C637 = some (.stsf 12 11 0 0 0) := by decide
theorem test_decode_vector_memory : decodeTableWord 32 0x0400814D = some (.vld 2 16 0 2 0) ∧ decodeTableWord 32 0xA450A1CD = some (.vgath 3 20 4 1 2 2) ∧
    decodeTableWord 32 0xFFF8003D = some (.wait 0 0 127 63) := by decide
theorem test_decode_tasks : decodeTableWord 32 0x000204EB = some (.suspend 9 8) ∧ decodeTableWord 32 0xA0054A69 = some (.lnext 20 21) ∧ decodeTableWord 32 0xB0E182E9 = some (.migr 5 6 7) ∧
    decodeTableWord 32 0x00E182E1 = some (.cld 5 6 7) ∧ decodeTableWord 32 0x10E18461 = some (.cst 8 6 7) ∧ decodeTableWord 32 0x314184E1 = some (.cnext 9 6 10) ∧ decodeTableWord 32 0x70018061 = some (.cinv 6) := by decide
theorem test_decode_engines : decodeTableWord 32 0x0203C771 = some (.cpy 14 15 16) ∧ decodeTableWord 32 0x400182F1 = some (.route 5 6) ∧ decodeTableWord 32 0x700284F1 = some (.rqget 9 10) ∧
    decodeTableWord 32 0x0001407B = some (.trap 5) ∧ decodeTableWord 32 0x500203FB = some (.feat 7 8) ∧ decodeTableWord 32 0xA00284FB = some (.seqq 9 10) := by decide
/-- A compare whose d[6:3] is not 0, a format's unused code, and a destination k0 are no instruction. -/
theorem test_decode_refuses : decodeTableWord 32 0x00E18487 = none ∧ decodeTableWord 32 0xFFFFFFFF = none ∧ decodeTableWord 32 0x006080CF ≠ none ∧ decodeTableWord 32 0x0060804F = none := by decide

/-! ### Worked examples of the spec -/

/-- What register d holds after an instruction, and the flags. -/
def after (i : Instr) (s : State) (d : Nat) : Word × BitVec 6 :=
  match exec i s with
  | .next t => (regGet t t.cur (getSlot t t.cur) d, (getSlot t t.cur).csr.fflags)
  | _ => (0, 0)
/-- Vector register d after an instruction, and the flags. -/
def afterV (i : Instr) (s : State) (d : Nat) : Nat × BitVec 6 :=
  match exec i s with
  | .next t => (vecGet (envOf 4 0 t) t d, (getSlot t t.cur).csr.fflags)
  | _ => (0, 0)

/-- R282's examples. -/
theorem test_bfx : (after (.bfx 5 6 7) (s0g [(6, 0xF50), (7, 0x0804)]) 5).1 = 0xFFFFFFFFFFFFFFF5 ∧ (after (.bfxn 5 6 7) (s0g [(6, 0xF50), (7, 0x0804)]) 5).1 = 0xF5 := by decide +kernel
theorem test_bfi : (after (.bfi 5 6 7) (s0g [(5, 0x1234), (6, 0xAB), (7, 0x0804)]) 5).1 = 0x1AB4 := by decide +kernel
theorem test_hash : (after (.hash 5 6 7) (s0g [(6, 1)]) 5).1 = 0x9E3779B9E17D05AC := by decide +kernel
/-- R287's note: CMPLTN with −1 holds for every x but the greatest. -/
theorem test_cmpltni : (match exec (.cmpltni 1 4 (-1)) (s0g [(4, 0xFFFFFFFFFFFFFFFF)]) with | .next t => predGet (getSlot t {}) 1 | _ => 5) = 0 ∧
    (match exec (.cmpltni 1 4 (-1)) (s0g [(4, 7)]) with | .next t => predGet (getSlot t {}) 1 | _ => 5) = BitVec.allOnes 64 := by decide +kernel

/-- A thread that rounds in a mode. -/
def rounding (rm : BitVec 3) (sat : Bool) (x : Word) : State := regSet (withSlot { runSlot with csr := { runSlot.csr with fmode := BitVec.ofNat 4 (rm.toNat + if sat then 8 else 0) } }) {} runSlot 6 x
/-- R294's worked conversions (NX 1, OF 4, NV 16, SA 32). -/
theorem test_cvtf2w : (([(0, 0x40200000), (4, 0x40200000), (0, 0x4F800000), (0, 0x7FC00000)] : List (BitVec 3 × Word)).map fun p => after (.cvtf2w 5 6) (rounding p.1 false p.2) 5) =
    [(2, 1), (3, 1), (0x7FFFFFFF, 37), (0, 16)] := by decide +kernel
theorem test_cvtf2b : after (.cvtf2b 5 6) (rounding 0 false 0x3F808000) 5 = (0x3F80, 1) ∧ after (.cvtf2b 5 6) (rounding 4 false 0x3F808000) 5 = (0x3F81, 1) := by decide +kernel
theorem test_cvtf2h : after (.cvtf2h 5 6) (rounding 0 false 0x47800000) 5 = (0x7C00, 5) ∧ after (.cvtf2h 5 6) (rounding 0 true 0x47800000) 5 = (0x7BFF, 37) := by decide +kernel
theorem test_cvtd2f : after (.cvtd2f 5 6) (rounding 1 false 0x3FF0000000000001) 5 = (0x3F800000, 1) := by decide +kernel

/-- v2 with the given lanes of 32 bits. -/
def lanes32 (l : List Nat) : State := (List.range 8).foldl (fun s j => regSet s {} runSlot (16 + j) (BitVec.ofNat 64 (ofLanes 32 l / 2 ^ (64 * j)))) s0
/-- R335's sums of 2^24, 1, 1, −2^24 and zeros. -/
theorem test_vredfadd : afterV (.vredfadd 1 2 0 0 2) (lanes32 [0x4B800000, 0x3F800000, 0x3F800000, 0xCB800000]) 1 = (0x3F800000, 1) := by decide +kernel
theorem test_vfscan : (let r := afterV (.vfscan 1 2 0 0 2) (lanes32 [0x4B800000, 0x3F800000, 0x3F800000, 0xCB800000]) 1; (lane 32 r.1 2, lane 32 r.1 3, lane 32 r.1 15, r.2)) = (0x4B800000, 0, 0, 1) := by decide +kernel
/-- R340's group of −1, 2, 0.5 and zeros, and its lanes back. -/
theorem test_vqnt : (let r := afterV (.vqnt 1 2 4 0 2) (lanes32 [0xBF800000, 0x40000000, 0x3F000000]) 1; (r.1 % 2 ^ 64, r.1 / 2 ^ 480, r.2)) = (0x55555555555558F0, 0x00053266, 1) := by decide +kernel
theorem test_vdqnt : (let s := lanes32 ([0x555558F0, 0x55555555] ++ List.replicate 13 0 ++ [0x00053266])
    let r := afterV (.vdqnt 1 2 4 0 0 2) s 1; (decodeF fmtFP32 (lane 32 r.1 0), r.2)) = (decodeF fmtFP32 0xBF7FF000, 0) := by decide +kernel
/-- R341's sum of two BX8 blocks. -/
theorem test_baddq : baddq 8 {} (100 + 3 * 256 + 0x7F * 2 ^ 256) (50 + 255 * 256 + 0x80 * 2 ^ 256) = (0x64 + 0x80 * 2 ^ 256, 1, ({} : RC).seed) := by decide +kernel

/-- R261's group product: S = 11 at scale 0.5 gives 5.5; R262's block: 1.5, −0.25, 3 and 2^−7. -/
theorem test_group_product : roundTo fmtBF16 {} (axFold (.num false 0 0 false) ([9, 7, 15, 8] ++ List.replicate 28 8, decodeF fmtFP16 0x3800, 8)
    ([10, 20, 3, 5] ++ List.replicate 28 1, scaleOf 0x7F, 0)) = { bits := 0x40B0, seed := ({} : RC).stepSeed } := by decide +kernel
theorem test_block_scale : bx16Of {} ([0x3FC0, 0xBE80, 0x4040, 0x3C00].map (decodeF fmtBF16)) = ([12288, -2048, 24576, 64], 0x72) := by decide +kernel

/-- R146's interleave: die 1, 4 slices from slice 8, a share of 64 MiB. -/
theorem test_interleave : ([0, 0xC0, 0x100, 0x140, 0x180, 0x1C0].map fun y => physKey (modDie State.reset 1 fun d => { d with share := 1 }) 0 (0x8900000000000 + y)) =
    ([(8, 0x5C000000), (11, 0x5C000000), (9, 0x5C000040), (8, 0x5C000040), (11, 0x5C000040), (10, 0x5C000040)].map fun p : Nat × Nat => some ((64 + p.1) * 0x80000000 + p.2)) := by
  decide +kernel

/-- R161's coordinate (37, 12) of extents 100 by 100. -/
theorem test_linear : linOf volume 0xC00000025 = 3712 ∧ unlinOf volume 3712 = 0xC00000025 := by decide +kernel

/-- R93's claims of a nest of 100 indices in 4 parts. -/
theorem test_claims : ((List.range 14).foldl (fun (a : State × List Nat) _ =>
    let c := memRead a.1.mem 0 8
    (perform a.1 0x20 (pkt (.lnext 0 100 0 4 .none)), a.2 ++ [c])) (State.reset, [])).2 = [0, 25, 44, 58, 69, 77, 83, 88, 91, 94, 96, 97, 98, 99] := by decide +kernel

/-- R53's second case: two AMO ADDs of one word, which holds 100. -/
theorem test_combined : (match exec (.homePerform 0x20) (setQ (memWords [100]) (qk 5 0x20 0 0) [{ pkt (.amo 0 0 7 0 (.thread {} 2 0)) with peers := [memberOf (pkt (.amo 0 0 5 0 (.thread {} 1 0)))] }]) with
    | .next t => memRead t.mem 0 8 | _ => 0) = 112 := by decide +kernel

/-- R216's ranking of four rows of three experts. -/
theorem test_route :
    let f := fun (l : List Nat) => l.zipIdx.map fun p => (p.2, nanLow (decodeF fmtFP32 p.1))
    let r := ([[0x3F666666, 0x3F000000, 0x3DCCCCCD], [0x3F4CCCCD, 0x3F4CCCCD, 0x3E4CCCCD], [0x3F333333, 0x3F19999A, 0x3E99999A], [0x7FC00000, 0x3ECCCCCD, 0x7FC00000]].foldl
      (fun (a : List (Nat × Nat × Nat) × List Nat × Nat × Nat) r => let (o, h, d, m) := routeRow 2 3 2 0 (f r) a.2.1; (a.1 ++ o, h, a.2.2.1 + d, a.2.2.2 + m)) ([], [0, 0, 0], 0, 0))
    r.1 = [(0, 0, 0x3F666666), (1, 0, 0x3F000000), (0, 1, 0x3F4CCCCD), (1, 1, 0x3F4CCCCD), (2, 0, 0x3E99999A), (0xFFFE, 0xFFFF, 0), (0xFFFE, 0xFFFF, 0), (0xFFFF, 0xFFFF, 0)] ∧
      r.2 = ([2, 2, 1], 2, 1) := by decide +kernel

/-- R378's record: the footprint of a row of two INT32 sums. -/
theorem test_record : (let r : List Word := [0x0002000103030205, 0, 0x4000000100, 0x4000000140, 0, 0x4000000080, 0, 0x4000000180]
    (trOp r, trRestart r, trM r, trN r, outFormat (trOp r) (trAfmt r) 0 0, footprint (trM r) (trN r) (outFormat (trOp r) (trAfmt r) 0 0))) = (5, true, 1, 2, some 3, 72) := by decide +kernel

/-! ### One word for every constructor, each composed from the row's fixed bits and field places (R265 to R271) -/

/-- Whether each word decodes to the instruction beside it. -/
noncomputable def decodes (bits : Nat) (l : List (Nat × Instr)) : Bool := l.all fun p => decide (decodeTableWord bits p.1 = some p.2)

theorem words_1 : decodes 32 [
    (0x0969B081, .add 97 38 75), (0x1969B081, .sub 97 38 75), (0x2969B081, .and 97 38 75), (0x3969B081, .or 97 38 75), (0x4969B081, .xor 97 38 75),
    (0x5969B081, .andn 97 38 75), (0x6969B081, .orn 97 38 75), (0x7969B081, .xnor 97 38 75), (0x8969B081, .sll 97 38 75), (0x9969B081, .srl 97 38 75),
    (0xA969B081, .sra 97 38 75), (0xB969B081, .rol 97 38 75), (0xC969B081, .ror 97 38 75), (0xD969B081, .min 97 38 75), (0xE969B081, .max 97 38 75),
    (0xF969B081, .minn 97 38 75), (0x0969B083, .maxn 97 38 75), (0x1969B083, .mul 97 38 75), (0x2969B083, .mulh 97 38 75),
    (0x3969B083, .mulhn 97 38 75), (0x4969B083, .mulhsn 97 38 75), (0x5969B083, .div 97 38 75), (0x6969B083, .divn 97 38 75),
    (0x7969B083, .rem 97 38 75), (0x8969B083, .remn 97 38 75), (0x9009B083, .clz 97 38), (0xA009B083, .ctz 97 38), (0xB009B083, .popc 97 38),
    (0xC969B083, .sext 97 38 75), (0xD969B083, .zext 97 38 75), (0xE969B083, .addw 97 38 75), (0xF969B083, .subw 97 38 75),
    (0x0969B085, .bfx 97 38 75), (0x1969B085, .bfxn 97 38 75), (0x2969B085, .bfi 97 38 75), (0x3969B085, .shadd1 97 38 75),
    (0x4969B085, .shadd2 97 38 75), (0x5969B085, .shadd3 97 38 75), (0x6969B085, .hash 97 38 75), (0x7969B085, .rmap 97 38 75)] = true := by decide +kernel

theorem words_2 : decodes 32 [
    (0x8969B085, .clin 97 38 75), (0x9969B085, .cunl 97 38 75), (0x04D84287, .cmpeq 5 97 38), (0x14D84287, .cmpne 5 97 38),
    (0x24D84287, .cmplt 5 97 38), (0x34D84287, .cmpge 5 97 38), (0x44D84287, .cmpltn 5 97 38), (0x54D84287, .cmpgen 5 97 38),
    (0x64D84287, .btst 5 97 38), (0xD969B089, .sel 97 38 75 5 1), (0xAAB8428B, .cmpeqi 5 97 1365), (0xAAB8468B, .cmpnei 5 97 1365),
    (0xAAB84A8B, .cmplti 5 97 1365), (0xAAB84E8B, .cmpgei 5 97 1365), (0xAAB8528B, .cmpltni 5 97 1365), (0xAAB8568B, .cmpgeni 5 97 1365),
    (0x05785A8B, .btsti 5 97 43), (0x4CB8400D, .bar 97 613), (0xAAA0308F, .addpc 97 1365), (0xAAA9B091, .addi 97 38 1365),
    (0xAAA9B093, .andi 97 38 1365), (0xAAA9B095, .ori 97 38 1365), (0xAAA9B097, .xori 97 38 1365), (0x0569B099, .slli 97 38 43),
    (0x0D69B099, .srli 97 38 43), (0x1569B099, .srai 97 38 43), (0x1D69B099, .roli 97 38 43), (0xAAA9B09B, .muli 97 38 1365),
    (0xAAAAB09D, .li 97 174762), (0xAAAAB09F, .lis 97 174762), (0xAAAA30A1, .beqz 97 21845), (0xAAAA70A1, .bnez 97 21845),
    (0xAAAAB0A1, .bltz 97 21845), (0xAAAAF0A1, .bgez 97 21845), (0xAAAB30A1, .bgtz 97 21845), (0xAAAB70A1, .blez 97 21845),
    (0xAAAA86A3, .bk 5 1 174762), (0xAAAAB0A5, .jal 97 174762), (0xAAA9B0A7, .jalr 97 38 1365), (0x96C9B0A9, .ld 97 38 2 1 75)] = true := by decide +kernel

theorem words_3 : decodes 32 [
    (0x96C9B0AB, .ldn 97 38 2 1 75), (0x96C9B0AD, .st 97 38 2 1 75), (0x6969B0AF, .ldx 97 38 75 2 1), (0x6969B0B1, .ldxn 97 38 75 2 1),
    (0x6969B0B3, .stx 97 38 75 2 1), (0xAF69B0B5, .lds 97 38 1 2 1 43), (0xAD69B0B7, .sts 97 38 1 2 43), (0xAF69B0B7, .stsf 97 38 1 2 43),
    (0x0969B0B9, .amoadd 97 38 75), (0x1969B0B9, .amoand 97 38 75), (0x2969B0B9, .amoor 97 38 75), (0x3969B0B9, .amoxor 97 38 75),
    (0x4969B0B9, .amomin 97 38 75), (0x5969B0B9, .amomax 97 38 75), (0x6969B0B9, .amominn 97 38 75), (0x7969B0B9, .amomaxn 97 38 75),
    (0x8969B0B9, .amoswp 97 38 75), (0x9969B0B9, .amocas 97 38 75), (0xA969B0B9, .amofadds 97 38 75), (0xB969B0B9, .amofaddd 97 38 75),
    (0xC009B0B9, .feqry 97 38), (0xD009B0B9, .feset 97 38), (0xE009B0B9, .feclr 97 38), (0x000026BB, .fence 5 9), (0xEB0AB5BD, .wait 43 21 97 58),
    (0x0078403F, .tlwait 97 3), (0x016EB4C1, .vadd 9 6 13 5 1 2), (0x036EB4C1, .vsub 9 6 13 5 1 2), (0x056EB4C1, .vmul 9 6 13 5 1 2),
    (0x076EB4C1, .vmulh 9 6 13 5 1 2), (0x096EB4C1, .vmulhn 9 6 13 5 1 2), (0x0B6EB4C1, .vand 9 6 13 5 1 2), (0x0D6EB4C1, .vor 9 6 13 5 1 2),
    (0x0F6EB4C1, .vxor 9 6 13 5 1 2), (0x116EB4C1, .vsll 9 6 13 5 1 2), (0x136EB4C1, .vsrl 9 6 13 5 1 2), (0x156EB4C1, .vsra 9 6 13 5 1 2),
    (0x176EB4C1, .vmin 9 6 13 5 1 2), (0x196EB4C1, .vmax 9 6 13 5 1 2), (0x1B6EB4C1, .vminn 9 6 13 5 1 2)] = true := by decide +kernel

theorem words_4 : decodes 32 [
    (0x1D6EB4C1, .vmaxn 9 6 13 5 1 2), (0x1F6EB4C1, .vsadd 9 6 13 5 1 2), (0x216EB4C1, .vssub 9 6 13 5 1 2), (0x236EB4C1, .vsaddn 9 6 13 5 1 2),
    (0x256EB4C1, .vssubn 9 6 13 5 1 2), (0x276834C1, .vabs 9 6 5 1 2), (0x296834C1, .vneg 9 6 5 1 2), (0x2B6EB4C1, .vma 9 6 13 5 1 2),
    (0x2D6834C1, .vpopc 9 6 5 1 2), (0x2F6834C1, .vclz 9 6 5 1 2), (0x016EB4C3, .vfadd 9 6 13 5 1 2), (0x036EB4C3, .vfsub 9 6 13 5 1 2),
    (0x056EB4C3, .vfmul 9 6 13 5 1 2), (0x076EB4C3, .vfma 9 6 13 5 1 2), (0x096EB4C3, .vfmin 9 6 13 5 1 2), (0x0B6EB4C3, .vfmax 9 6 13 5 1 2),
    (0x0D6EB4C3, .vfdiv 9 6 13 5 1 2), (0x0F6834C3, .vfsqrt 9 6 5 1 2), (0x116834C3, .vfrcp 9 6 5 1 2), (0x136834C3, .vfrsq 9 6 5 1 2),
    (0x156834C3, .vfexp2 9 6 5 1 2), (0x176834C3, .vflog2 9 6 5 1 2), (0x196834C3, .vfabs 9 6 5 1 2), (0x1B6834C3, .vfneg 9 6 5 1 2),
    (0x015B4AC5, .vcmpeq 5 9 6 3 1 2), (0x035B4AC5, .vcmpne 5 9 6 3 1 2), (0x055B4AC5, .vcmplt 5 9 6 3 1 2), (0x075B4AC5, .vcmpge 5 9 6 3 1 2),
    (0x095B4AC5, .vcmpltn 5 9 6 3 1 2), (0x0B5B4AC5, .vcmpgen 5 9 6 3 1 2), (0x0D5B4AC5, .vfcmpeq 5 9 6 3 1 2), (0x0F5B4AC5, .vfcmplt 5 9 6 3 1 2),
    (0x115B4AC5, .vfcmple 5 9 6 3 1 2), (0x135B4AC5, .vfcmpun 5 9 6 3 1 2), (0x012EB4C7, .vsel 9 6 13 5 2), (0x036EB4C7, .vperm 9 6 13 5 1 2),
    (0x056EB4C7, .vslideup 9 6 13 5 1 2), (0x076EB4C7, .vslidedn 9 6 13 5 1 2), (0x092834C7, .vcompress 9 6 5 2), (0x0B6834C7, .vexpand 9 6 5 1 2)] = true := by decide +kernel

theorem words_5 : decodes 32 [
    (0x0D6834C7, .vmov 9 6 5 1 2), (0x016834C9, .vredadd 9 6 5 1 2), (0x036834C9, .vredmin 9 6 5 1 2), (0x056834C9, .vredmax 9 6 5 1 2),
    (0x076834C9, .vredminn 9 6 5 1 2), (0x096834C9, .vredmaxn 9 6 5 1 2), (0x0B6834C9, .vredfadd 9 6 5 1 2), (0x0D6834C9, .vredfmin 9 6 5 1 2),
    (0x0F6834C9, .vredfmax 9 6 5 1 2), (0x116834C9, .vscan 9 6 5 1 2), (0x136834C9, .vfscan 9 6 5 1 2), (0x14EEB4C9, .vdot 9 6 13 5 1 1),
    (0x0068B4CB, .vcvtf2b 9 6 1 5 1), (0x0268B4CB, .vcvtb2f 9 6 1 5 1), (0x0468B4CB, .vcvtf2h 9 6 1 5 1), (0x0668B4CB, .vcvth2f 9 6 1 5 1),
    (0x0869B4CB, .vcvtf2e4 9 6 3 5 1), (0x0A69B4CB, .vcvte42f 9 6 3 5 1), (0x0C69B4CB, .vcvtf2e5 9 6 3 5 1), (0x0E69B4CB, .vcvte52f 9 6 3 5 1),
    (0x106834CB, .vcvtf2w 9 6 0 5 1), (0x126834CB, .vcvtw2f 9 6 0 5 1), (0x1469B4CB, .vcvtw2i8 9 6 3 5 1), (0x1669B4CB, .vcvti82w 9 6 3 5 1),
    (0x186BB4CB, .vcvtw2i4 9 6 7 5 1), (0x1A6BB4CB, .vcvti42w 9 6 7 5 1), (0x1C68B4CB, .vcvtd2f 9 6 1 5 1), (0x1E68B4CB, .vcvtf2d 9 6 1 5 1),
    (0x212A34CB, .vqnt 9 6 4 5 2), (0x236A34CB, .vdqnt 9 6 4 5 1 2), (0x2486B4CB, .baddq 9 6 13 1), (0x276EB4CB, .vbsc 9 6 13 5 1 2),
    (0x292EB4CB, .vbexp 9 6 13 5 2), (0x45430CCD, .vld 9 97 5 2 1), (0x4D430CCD, .vst 9 97 5 2 1), (0x555B0CCD, .vlds 9 97 6 5 2 1),
    (0x5D5B0CCD, .vsts 9 97 6 5 2 1), (0x655B0CCD, .vgath 9 97 6 5 2 1), (0x6D5B0CCD, .vscat 9 97 6 5 2 1), (0x75430CCD, .vldf 9 97 5 2 1)] = true := by decide +kernel

theorem words_6 : decodes 32 [
    (0x00C0C2CF, .kand 5 3 6), (0x10C0C2CF, .kor 5 3 6), (0x20C0C2CF, .kxor 5 3 6), (0x30C0C2CF, .kandn 5 3 6), (0x4000C2CF, .knot 5 3),
    (0x5000C2CF, .kmov 5 3), (0x600170CF, .kpopc 97 5), (0x700170CF, .kfirst 97 5), (0x801842CF, .kfromg 5 97), (0x900170CF, .ktog 97 5),
    (0x0969B0D1, .faddF32 97 38 75), (0x1969B0D1, .fsubF32 97 38 75), (0x2969B0D1, .fmulF32 97 38 75), (0x3969B0D1, .fdivF32 97 38 75),
    (0x4009B0D1, .fsqrtF32 97 38), (0x5969B0D1, .fminF32 97 38 75), (0x6969B0D1, .fmaxF32 97 38 75), (0x7969B0D1, .fmaF32 97 38 75),
    (0x8009B0D1, .fabsF32 97 38), (0x9009B0D1, .fnegF32 97 38), (0xA009B0D1, .fclassF32 97 38), (0x0969B0D3, .faddF64 97 38 75),
    (0x1969B0D3, .fsubF64 97 38 75), (0x2969B0D3, .fmulF64 97 38 75), (0x3969B0D3, .fdivF64 97 38 75), (0x4009B0D3, .fsqrtF64 97 38),
    (0x5969B0D3, .fminF64 97 38 75), (0x6969B0D3, .fmaxF64 97 38 75), (0x7969B0D3, .fmaF64 97 38 75), (0x8009B0D3, .fabsF64 97 38),
    (0x9009B0D3, .fnegF64 97 38), (0xA009B0D3, .fclassF64 97 38), (0x84D842D5, .fcmpeq 5 97 38 1), (0x94D842D5, .fcmplt 5 97 38 1),
    (0xA4D842D5, .fcmple 5 97 38 1), (0xB4D842D5, .fcmpun 5 97 38 1), (0xC4D842D5, .fcmpne 5 97 38 1), (0x0009B0D7, .cvtf2d 97 38),
    (0x1009B0D7, .cvtd2f 97 38), (0x2009B0D7, .cvtf2w 97 38)] = true := by decide +kernel

theorem words_7 : decodes 32 [
    (0x3009B0D7, .cvtf2l 97 38), (0x4009B0D7, .cvtd2w 97 38), (0x5009B0D7, .cvtd2l 97 38), (0x6009B0D7, .cvtw2f 97 38), (0x7009B0D7, .cvtl2f 97 38),
    (0x8009B0D7, .cvtw2d 97 38), (0x9009B0D7, .cvtl2d 97 38), (0xA009B0D7, .cvtf2b 97 38), (0xB009B0D7, .cvtb2f 97 38), (0xC009B0D7, .cvtf2h 97 38),
    (0xD009B0D7, .cvth2f 97 38), (0x04D86459, .vbcast 9 97 38), (0x14D230D9, .vextr 97 9 38), (0x24D86459, .vins 9 97 38),
    (0x34D86459, .viota 9 97 38), (0x0969B0E1, .cld 97 38 75), (0x1969B0E1, .cst 97 38 75), (0x2969B0E1, .cadd 97 38 75),
    (0x3969B0E1, .cnext 97 38 75), (0x4969B0E1, .cdel 97 38 75), (0x5969B0E1, .calloc 97 38 75), (0x6969B0E1, .cfree 97 38 75),
    (0x70184061, .cinv 97), (0x8969B0E1, .cqry 97 38 75), (0x04D84069, .spawn 97 38), (0x10000069, .sync), (0x20000069, .retc), (0x30000069, .yield),
    (0x44D84069, .park 97 38), (0x54D84069, .tnew 97 38), (0x60000069, .texit), (0x70184069, .susp 97), (0x8969B0E9, .resume 97 38 75),
    (0x90184069, .lsetup 97), (0xA009B0E9, .lnext 97 38), (0xB969B0E9, .migr 97 38 75), (0xC4D84069, .mret 97 38), (0x0009B0EB, .suspend 97 38),
    (0x1009B0EB, .force 97 38), (0x2018406B, .spark 97)] = true := by decide +kernel

theorem words_8 : decodes 32 [
    (0x3009B0EB, .hwait 97 38), (0x4009B0EB, .hstat 97 38), (0x54D8406B, .hbind 97 38), (0x6018406B, .hdrop 97), (0x7009B0EB, .tenq 97 38),
    (0x84D8406B, .mprog 97 38), (0x0969B0F1, .cpy 97 38 75), (0x1969B0F1, .plane 97 38 75), (0x2969B0F1, .dense 97 38 75), (0x3009B0F1, .fill 97 38),
    (0x4009B0F1, .route 97 38), (0x5009B0F1, .psel 97 38), (0x6969B0F1, .rqinit 97 38 75), (0x7009B0F1, .rqget 97 38), (0x8969B0F1, .rqdone 97 38 75),
    (0x0969B0F3, .send 97 38 75), (0x1969B0F3, .qcfg 97 38 75), (0x2969B0F3, .qctl 97 38 75), (0x3969B0F3, .qhnd 97 38 75), (0x40000073, .qret),
    (0x5009B0F3, .qstat 97 38), (0xAAA030F5, .csrrd 97 1365), (0xAAA9B0F7, .csrwr 97 38 1365), (0xAAA9B0F9, .csrset 97 38 1365),
    (0x0018407B, .trap 97), (0x1000007B, .syscall), (0x2000007B, .eret), (0x3000007B, .brk), (0x4000007B, .halt), (0x5009B0FB, .feat 97 38),
    (0x64D8407B, .tlbw 97 38), (0x7969B0FB, .tlbi 97 38 75), (0x8000007B, .flushi), (0x9000007B, .upret), (0xA009B0FB, .seqq 97 38)] = true := by decide +kernel

theorem words_short : decodes 16 [
    (0x3340, .addFh 13 6), (0x3342, .subFh 13 6), (0x3344, .mulFh 13 6), (0x3346, .andFh 13 6), (0x3348, .orFh 13 6), (0x334A, .xorFh 13 6),
    (0x334C, .sllFh 13 6), (0x334E, .srlFh 13 6), (0x3350, .sraFh 13 6), (0x3352, .minFh 13 6), (0x3354, .maxFh 13 6), (0x3356, .movFh 13 6),
    (0x3358, .addiFh 13 6), (0x335A, .slliFh 13 6), (0x335C, .faddFh 13 6), (0x335E, .fmulFh 13 6), (0x3360, .vaddFh 13 6), (0x3362, .vsubFh 13 6),
    (0x3364, .vmulFh 13 6), (0x3366, .vandFh 13 6), (0x3368, .vorFh 13 6), (0x336A, .vxorFh 13 6), (0x336C, .vsllFh 13 6), (0x336E, .vsrlFh 13 6),
    (0x3370, .vsraFh 13 6), (0x3372, .vminFh 13 6), (0x3374, .vmaxFh 13 6), (0x3376, .vmovFh 13 6), (0x337C, .vfaddFh 13 6), (0x337E, .vfmulFh 13 6)] = true := by decide +kernel

end Sys2Proof.Tests
end

section
/-!
PROOFS. Rules about tables and named updates of the state that several statements share: a table written twice at one
key, a list of updates that each keep a part of the state, and the updates that move packets and nothing else.
-/

namespace Sys2Proof.Proofs

open Sys2Proof.Machine Sys2Proof.Laws

/-! ### Tables written twice -/

theorem smDel_smDel {α : Type} (m : SMap α) (k : Nat) : smDel (smDel m k) k = smDel m k := by
  simp [smDel]

theorem smDel_smIns {α : Type} (m : SMap α) (k : Nat) (v : α) : smDel (smIns k v m) k = smDel m k := by
  induction m with
  | nil => simp [smIns, smDel]
  | cons e r ih =>
    simp only [smIns]
    split
    · simp [smDel]
    · simpa only [smDel, List.filter_cons] using congrArg (fun t => if e.1 != k then e :: t else t) ih

/-- Of two writes at one key the second stands. -/
theorem smSet_smSet {α : Type} [DecidableEq α] (d : α) (m : SMap α) (k : Nat) (v w : α) :
    smSet d (smSet d m k v) k w = smSet d m k w := by
  have h : smDel (smSet d m k v) k = smDel m k := by
    unfold smSet
    split
    · exact smDel_smDel m k
    · rw [smDel_smIns, smDel_smDel]
  rw [smSet, h, ← smSet]

theorem modPort_modPort (s : State) (p : Nat) (f g : Port → Port) :
    modPort (modPort s p f) p g = modPort s p fun k => g (f k) := by
  unfold modPort
  simp only [getPort, smGet_smSet_same, smSet_smSet]

/-- An update of a port depends on the port's present state alone. -/
theorem modPort_congr {s : State} {p : Nat} {f g : Port → Port} (h : f (getPort s p) = g (getPort s p)) :
    modPort s p f = modPort s p g := by
  simp only [modPort, h]

theorem getPort_modPort_other (s : State) {p q : Nat} (f : Port → Port) (h : q ≠ p) : getPort (modPort s p f) q = getPort s q :=
  smGet_smSet_other _ _ _ h

@[simp] theorem getToken_modToken_same (s : State) (c : Nat) (f : Token → Token) : getToken (modToken s c f) c = f (getToken s c) :=
  smGet_smSet_same _ _ _ _

theorem modToken_modToken (s : State) (c : Nat) (f g : Token → Token) :
    modToken (modToken s c f) c g = modToken s c fun t => g (f t) := by
  unfold modToken
  simp only [getToken, smGet_smSet_same, smSet_smSet]

/-- An update of a token depends on the token's present state alone. -/
theorem modToken_congr {s : State} {c : Nat} {f g : Token → Token} (h : f (getToken s c) = g (getToken s c)) :
    modToken s c f = modToken s c g := by
  simp only [modToken, h]

/-! ### Lists of updates -/

/-- What every update of a list keeps, the list keeps. -/
theorem foldl_keeps {σ β γ : Type} (part : σ → γ) {f : σ → β → σ} (h : ∀ s b, part (f s b) = part s) (l : List β) (s : σ) :
    part (l.foldl f s) = part s := by
  induction l generalizing s with
  | nil => rfl
  | cons b r ih => rw [List.foldl_cons, ih, h]

/-- A value that no element of a list changes. -/
theorem foldl_stays {α β : Type} {f : α → β → α} {a : α} {l : List β} (h : ∀ b ∈ l, f a b = a) : l.foldl f a = a := by
  induction l with
  | nil => rfl
  | cons b r ih => rw [List.foldl_cons, h b (by simp), ih fun c hc => h c (by simp [hc])]

/-! ### Updates that move packets and nothing else -/

/-- Nothing but the queues and the count of packets sent differs. -/
def TrafficOnly (s t : State) : Prop := t = { s with queues := t.queues, sent := t.sent }

namespace TrafficOnly

variable {s t u : State}

theorem refl (s : State) : TrafficOnly s s := rfl

theorem trans (h : TrafficOnly s t) (h' : TrafficOnly t u) : TrafficOnly s u := by
  unfold TrafficOnly at *
  rw [h', h]

theorem foldl {β : Type} {f : State → β → State} (h : ∀ s b, TrafficOnly s (f s b)) (l : List β) (s : State) :
    TrafficOnly s (l.foldl f s) := by
  induction l generalizing s with
  | nil => exact refl s
  | cons b r ih => exact (h s b).trans (ih _)

theorem ports (h : TrafficOnly s t) : t.ports = s.ports := (congrArg State.ports h).trans rfl
theorem dies (h : TrafficOnly s t) : t.dies = s.dies := (congrArg State.dies h).trans rfl
theorem power (h : TrafficOnly s t) : t.power = s.power := (congrArg State.power h).trans rfl
theorem noticeSeq (h : TrafficOnly s t) : t.noticeSeq = s.noticeSeq := (congrArg State.noticeSeq h).trans rfl

end TrafficOnly

theorem setQ_trafficOnly (s : State) (k : Nat) (l : List Packet) : TrafficOnly s (setQ s k l) := rfl

theorem pushQ_trafficOnly (s : State) (k : Nat) (p : Packet) : TrafficOnly s (pushQ s k p) := rfl

theorem refill_trafficOnly (s : State) (r net n : Nat) : TrafficOnly s (refill s r net n) := by
  induction n generalizing s with
  | zero => exact .refl s
  | succ n ih =>
    unfold refill
    split
    · exact .refl s
    · split
      · exact .refl s
      · split
        · exact .refl s
        · split
          · exact ((setQ_trafficOnly _ _ _).trans (pushQ_trafficOnly _ _ _)).trans (ih _)
          · exact .refl s

theorem outPut_trafficOnly (s : State) (u net : Nat) (p : Packet) : TrafficOnly s (outPut s u net p) :=
  (pushQ_trafficOnly _ _ _).trans (refill_trafficOnly _ _ _ _)

theorem arrive_trafficOnly (s : State) (net : Nat) (p : Packet) : TrafficOnly s (arrive s net p) := by
  unfold arrive
  split
  · exact .refl s
  · exact pushQ_trafficOnly _ _ _

theorem beamOut_trafficOnly (s : State) (die w : Nat) (p : Packet) : TrafficOnly s (beamOut s die w p) := by
  unfold beamOut
  simp only
  split <;> exact pushQ_trafficOnly _ _ _

theorem issueOne_trafficOnly (s : State) (p : Packet) : TrafficOnly s (issueOne s p) := by
  have count : TrafficOnly s { s with sent := s.sent + 1 } := rfl
  unfold issueOne
  simp only
  split
  · exact count.trans (arrive_trafficOnly _ _ _)
  · split
    · exact count.trans (beamOut_trafficOnly _ _ _ _)
    · exact count.trans (outPut_trafficOnly _ _ _ _)

theorem inject_trafficOnly (s : State) (p : Packet) : TrafficOnly s (inject s p) :=
  (TrafficOnly.foldl (fun _ _ => issueOne_trafficOnly _ _) _ _).trans (issueOne_trafficOnly _ _)

theorem send_trafficOnly (s : State) (cls slack src dst : Nat) (b : Body) : TrafficOnly s (send s cls slack src dst b) :=
  inject_trafficOnly _ _

/-! ### Notices (R68) -/

theorem noticeArea_fns (n : Notice) (s : State) (fn : Nat) : noticeArea n s fn = { s with fns := (noticeArea n s fn).fns } := rfl

/-- A posted notice counts, sends packets and writes the notice areas of functions; it leaves the rest alone. -/
theorem postNotice_frame (s : State) (src : Nat) (n : Notice) (cls : List Nat) :
    postNotice s src n cls = { s with queues := (postNotice s src n cls).queues, sent := (postNotice s src n cls).sent
                                      fns := (postNotice s src n cls).fns, noticeSeq := s.noticeSeq + 1 } := by
  have sends : ∀ (n : Notice) (t : State), TrafficOnly t (cls.foldl (noticeTo src n) t) := fun n t =>
    TrafficOnly.foldl (fun s _ => send_trafficOnly s _ _ _ _ _) _ _
  have areas : ∀ (n : Notice) (l : List Nat) (t : State), l.foldl (noticeArea n) t = { t with fns := (l.foldl (noticeArea n) t).fns } := by
    intro n l
    induction l with
    | nil => exact fun _ => rfl
    | cons f r ih => exact fun t => ih (noticeArea n t f)
  unfold postNotice
  extract_lets n' s1 s2
  have h2 : s2 = { s1 with queues := s2.queues, sent := s2.sent } := sends n' s1
  split
  · rw [h2]
  · rw [areas, h2]

@[simp] theorem postNotice_ports (s : State) (src : Nat) (n : Notice) (cls : List Nat) : (postNotice s src n cls).ports = s.ports := by
  rw [postNotice_frame]
@[simp] theorem postNotice_dies (s : State) (src : Nat) (n : Notice) (cls : List Nat) : (postNotice s src n cls).dies = s.dies := by
  rw [postNotice_frame]
@[simp] theorem postNotice_noticeSeq (s : State) (src : Nat) (n : Notice) (cls : List Nat) :
    (postNotice s src n cls).noticeSeq = s.noticeSeq + 1 := by
  rw [postNotice_frame]

end Sys2Proof.Proofs
end

section
/-!
PROOFS. What reset leaves (R29, R61, R83, R130, R133, R135, R394), and the canonical form of its memory.
-/

namespace Sys2Proof.Proofs

open Sys2Proof.Machine Sys2Proof.Laws

/-! ### Reset -/

/-- A word reads well where nothing is marked and no check fails. -/
theorem eccStatus_clean {s : State} (hb : s.bad = []) (hm : s.marks = []) (k n : Nat) : eccStatus s k n = 0 := by
  simp [eccStatus, hb, hm]

/-- The reset value of a queue's control word has its enable bit clear. -/
theorem qEn_reset (c q : Nat) : qEn (qGet State.reset c q) = false :=
  show qEn {} = false by decide

/-- Settles O6: the state at reset lists nothing, so every read gives its default. -/
theorem resetState : Obligations.ResetState := by
  unfold Obligations.ResetState
  refine ⟨fun _ => rfl, fun _ => ⟨rfl, rfl, rfl, rfl, rfl, rfl, rfl, rfl, rfl⟩, fun _ => rfl, fun k n => eccStatus_clean rfl rfl k n,
    fun _ => rfl, fun _ _ => ⟨rfl, qEn_reset _ _⟩, fun _ => rfl, fun _ => rfl, fun _ => ⟨rfl, rfl⟩, fun t sl n => ?_⟩
  unfold regGet
  split <;> rfl

/-! ### Memory at reset -/

theorem withFetchWord_mem (s : State) (n w : Nat) : (s.withFetchWord n w).mem = memWriteL s.mem 0 (leBytes 4 (w % 2 ^ n)) := rfl

/-- Settles O7: the empty memory is canonical, and placing a word is a write of bytes, which keeps the form. -/
theorem resetMemoryCanonical : Obligations.ResetMemoryCanonical := by
  unfold Obligations.ResetMemoryCanonical
  refine ⟨rfl, rfl, fun n w => ?_⟩
  rw [withFetchWord_mem]
  exact memWriteL_wf 0 _ rfl

end Sys2Proof.Proofs
end

section
/-!
PROOFS. The power state through a reset: nothing that a reset does touches it, but that a package reset ends a thermal
shutdown (R29, R207).
-/

namespace Sys2Proof.Proofs

open Sys2Proof.Machine Sys2Proof.Laws

/-! ### Lists of updates and choices -/

/-- A list of updates that each keep the power state keeps it. -/
theorem power_foldl {β : Type} {f : State → β → State} (h : ∀ s b, (f s b).power = s.power) (l : List β) (s : State) :
    (l.foldl f s).power = s.power := foldl_keeps State.power h l s

theorem power_ite {c : Prop} [Decidable c] {s t u : State} (ht : t.power = s.power) (hu : u.power = s.power) :
    (if c then t else u).power = s.power := by
  split
  · exact ht
  · exact hu

/-! ### Packets, stores at a home, and the end of a context -/

@[simp] theorem inject_power (s : State) (p : Packet) : (inject s p).power = s.power := (inject_trafficOnly s p).power
@[simp] theorem send_power (s : State) (cls slack src dst : Nat) (b : Body) : (send s cls slack src dst b).power = s.power :=
  (send_trafficOnly s cls slack src dst b).power

@[simp] theorem countError_power (s : State) (k : Nat) : (countError s k).power = s.power := by
  unfold countError
  split <;> rfl

@[simp] theorem rawStore_power (s : State) (k n v : Nat) : (rawStore s k n v).power = s.power := by
  refine power_foldl (fun t w => ?_) (wordsOf k n) s
  simp only
  split
  · rfl
  · split
    · exact countError_power _ _
    · rfl

@[simp] theorem sendEnqueue_power (s : State) (unit uid : Nat) (src : RecSrc) : (sendEnqueue s unit uid src).power = s.power := by
  unfold sendEnqueue
  simp only
  split
  · exact send_power _ _ _ _ _ _
  · rfl

@[simp] theorem releaseParks_power (s : State) (k n : Nat) : (releaseParks s k n).power = s.power := by
  unfold releaseParks
  split
  · rfl
  · refine power_foldl (fun t p => ?_) _ _
    split
    · split
      · exact sendEnqueue_power _ _ _ _
      · rfl
    · rfl

@[simp] theorem homeWrite_power (s : State) (k n v : Nat) : (homeWrite s k n v).power = s.power :=
  (releaseParks_power _ _ _).trans (rawStore_power _ _ _ _)

@[simp] theorem hostWrite_power (s : State) (a : Nat) (ws : List Word) : (hostWrite s a ws).power = s.power :=
  homeWrite_power _ _ _ _

@[simp] theorem unpark_power (s : State) (u : Nat) (p : Parked) : (unpark s u p).power = s.power := by
  unfold unpark
  simp only
  split
  · exact homeWrite_power _ _ _ _
  · rfl

/-- The passes of `teardown`, from the last back to the first: none of them touches the power state. -/
@[simp] theorem teardown_power (s : State) (ctx status : Nat) : (teardown s ctx status).power = s.power := by
  simp only [teardown, modCtx_power]
  rw [power_foldl, power_foldl, power_foldl, power_foldl, power_foldl, power_foldl, power_foldl, power_foldl, power_foldl]
  · exact fun t c => power_ite (modCore_power t c _) rfl
  · exact fun t h => power_foldl (fun t p => power_ite (unpark_power t h.1 p) rfl) h.2.parked t
  · exact fun t e => modCore_power t e.1 _
  · exact fun t cl => power_ite (modCl_power t cl _) rfl
  · refine fun t cl => power_foldl (fun t k => power_ite ?_ rfl) (getCl t cl).tasks t
    split <;> simp
  · refine fun t cl => power_foldl (fun t e => power_ite ?_ rfl) (getCl t cl).rq t
    exact power_foldl (fun t w => power_ite (inject_power t _) rfl) (getCl t cl).rqWaits t
  · exact fun t f => power_foldl (fun t q => power_ite (modNq_power t f.1 q.1 _) rfl) f.2.queues t
  · exact fun t d => modDie_power t d.1 _
  · exact fun t f => modFn_power t f.1 _

/-! ### Completion of entries -/

@[simp] theorem raiseReg_power (s : State) (fn : Nat) (r : Word) : (raiseReg s fn r).power = s.power := by
  unfold raiseReg raise
  split
  · rfl
  · split
    · rfl
    · split <;> rfl

@[simp] theorem advanceComp_power (s : State) (fn q n : Nat) : (advanceComp s fn q n).power = s.power := by
  induction n generalizing s with
  | zero => rfl
  | succ n ih =>
    unfold advanceComp
    simp only
    split
    · split
      · rw [ih]
        split
        · exact raiseReg_power _ _ _
        · rfl
      · rfl
    · rfl

@[simp] theorem completeEntry_power (s : State) (fn q seq : Nat) : (completeEntry s fn q seq).power = s.power := by
  unfold completeEntry
  simp only
  split
  · rfl
  · split
    · rfl
    · split
      · rfl
      · split
        · rfl
        · rw [modNq_power, advanceComp_power, modNq_power]
          split
          · exact hostWrite_power _ _ _
          · rfl

@[simp] theorem discardEntries_power (s : State) : (discardEntries s).power = s.power := by
  refine power_foldl (fun t f => ?_) s.fns s
  refine power_foldl (fun t q => ?_) f.2.queues t
  exact (power_foldl (fun t e => completeEntry_power t f.1 q.1 _) q.2.entries _).trans (modNq_power t f.1 q.1 _)

/-! ### Resets -/

@[simp] theorem answerLost_power (s : State) (p : Packet) : (answerLost s p).power = s.power := by
  unfold answerLost
  extract_lets one
  have answered : ∀ t dst r, (one t dst r).power = t.power := fun t dst r => by
    simp only [one]
    split <;> rfl
  split
  · rfl
  · rfl
  · split
    · refine Eq.trans (power_foldl (fun t e => ?_) p.peers _) (answered s p.src _)
      exact answered t e.1 _
    · split
      · exact answered _ _ _
      · rfl

@[simp] theorem lostAt_power (s : State) (dies : List Nat) (cls slack : Nat) (late : Option Nat) (src dst : Nat) (r : Ret) :
    (lostAt s dies cls slack late src dst r).power = s.power := by
  unfold lostAt
  split <;> rfl

@[simp] theorem wakeLost_power (s : State) (dies : List Nat) : (wakeLost s dies).power = s.power :=
  power_foldl (fun t _ => power_ite rfl (pushQ_power t _ _)) _ _

@[simp] theorem pickDriver_power (s : State) : (pickDriver s).power = s.power := by
  unfold pickDriver
  split <;> rfl

@[simp] theorem resetDies_power (s : State) (dies : List Nat) (whole : Bool) : (resetDies s dies whole).power = s.power := by
  simp only [resetDies, pickDriver_power]
  rw [power_foldl, power_foldl, power_foldl, power_foldl, power_foldl]
  · exact (wakeLost_power _ dies).trans (power_foldl (fun t c => teardown_power t c _) _ s)
  · exact fun t f => modFn_power t f _
  · exact fun t p => power_ite rfl (answerLost_power t p)
  · exact fun t e => lostAt_power t dies 16 _ _ _ _ _
  · exact fun t _ => lostAt_power t dies 16 _ _ _ _ _
  · exact fun t d => modDie_power t d _

theorem packageReset_power (s : State) : (packageReset s).power = { s.power with shutdown := false } := by
  simp only [packageReset]
  rw [power_foldl fun t p => modPort_power t p _]
  simp only [discardEntries_power, power_foldl fun t (c : Nat × Ctx) => teardown_power t c.1 _, resetDies_power]

end Sys2Proof.Proofs
end

section
/-!
PROOFS. The side band, supply, temperature, power limits, clocks, boot and resets (R25 to R31, R207).
-/

namespace Sys2Proof.Proofs

open Sys2Proof.Machine Sys2Proof.Laws

variable {s : State}

/-! ### The arms of these device steps -/

theorem exec_i3cReadStatus (s : State) : exec .i3cReadStatus s = execI3cReadStatus s := rfl
theorem exec_i3cReadTemperatures (s : State) : exec .i3cReadTemperatures s = execI3cReadTemperatures s := rfl
theorem exec_i3cReadPackagePower (s : State) : exec .i3cReadPackagePower s = execI3cReadPackagePower s := rfl
theorem exec_i3cReadIdentityKey (s : State) : exec .i3cReadIdentityKey s = execI3cReadIdentityKey s := rfl
theorem exec_i3cSetPowerLimit (c : BitVec 8 × BitVec 16) (s : State) : exec (.i3cSetPowerLimit c) s = execI3cSetPowerLimit c s := rfl
theorem exec_i3cResetPackage (s : State) : exec .i3cResetPackage s = execI3cResetPackage s := rfl
theorem exec_i3cResetDie (d : BitVec 2) (s : State) : exec (.i3cResetDie d) s = execI3cResetDie d s := rfl
theorem exec_supplyFault (v : Nat) (s : State) : exec (.supplyFault v) s = execSupplyFault v s := rfl
theorem exec_thermalThrottle (c temp : Nat) (s : State) : exec (.thermalThrottle c temp) s = execThermalThrottle c temp s := rfl
theorem exec_thermalShutdown (c temp : Nat) (s : State) : exec (.thermalShutdown c temp) s = execThermalShutdown c temp s := rfl
theorem exec_powerLimitUnmet (w : Nat) (s : State) : exec (.powerLimitUnmet w) s = execPowerLimitUnmet w s := rfl
theorem exec_powerLimitMet (w : Nat) (s : State) : exec (.powerLimitMet w) s = execPowerLimitMet w s := rfl
theorem exec_clockStep (c : Nat) (up : Bool) (s : State) : exec (.clockStep c up) s = execClockStep c up s := rfl
theorem exec_boot (s : State) : exec .boot s = execBoot s := rfl
theorem exec_dieResetComplete (d : BitVec 2) (s : State) : exec (.dieResetComplete d) s = execDieResetComplete d s := rfl
theorem exec_packageResetComplete (s : State) : exec .packageResetComplete s = execPackageResetComplete s := rfl

/-! ### The I3C port (R28) -/

/-- The answer of a powered port. -/
theorem i3cAnswer_powered (h : s.power.supplyOk = true) (l : List Byte) :
    i3cAnswer s l = { s with i3c := { s.i3c with data := l, nack := false } } := if_pos h

/-- A command that a powered device takes and that leaves it powered. -/
theorem i3cDo_powered {f : State → State} (h : s.power.supplyOk = true) (hf : (f s).power.supplyOk = true) :
    i3cDo s f = { f s with i3c := { (f s).i3c with data := [], nack := false } } :=
  (if_pos h).trans (i3cAnswer_powered hf [])

theorem leBytes_eq_map (n v : Nat) : leBytes n v = (List.range n).map fun i => BitVec.ofNat 8 (v / 256 ^ i) := by
  induction n generalizing v with
  | zero => rfl
  | succ n ih =>
    have low : BitVec.ofNat 8 (v % 256) = BitVec.ofNat 8 v := BitVec.eq_of_toNat_eq (by simp)
    rw [leBytes, ih, List.range_succ_eq_map, low]
    simp [Nat.div_div_eq_div_mul, pow_succ']

theorem portDown_iff (k : Port) : portDown k = true ↔ k.st = .down ∨ k.fibres = 0 := by
  simp [portDown]

/-- The link-down mask as a sum. -/
theorem linkDown_eq_sum (s : State) :
    linkDown s = ((List.range 16).map fun p => if (getPort s p).st = .down ∨ (getPort s p).fibres = 0 then 2 ^ p else 0).sum := by
  simp only [linkDown, portDown_iff, List.sum_eq_foldl, List.foldl_map]

theorem clampLimit_eq (w : Nat) : clampLimit w = max 500 (min 3600 w) := by
  unfold clampLimit
  split
  · omega
  · split <;> omega

/-- Whether a thermal shutdown holds off a package reset (R29). -/
theorem resetHeld_iff (s : State) : resetHeld s = true ↔ s.power.shutdown = true ∧ ∃ c, c < 64 ∧ 85 ≤ (getCl s c).temp := by
  simp [resetHeld]

theorem i3cResetPackage_held (h : resetHeld s = true) : exec .i3cResetPackage s = .next (i3cNack s) := by
  simp only [exec_i3cResetPackage, execI3cResetPackage, if_pos h]

theorem i3cResetPackage_starts (h : resetHeld s = false) (hp : s.power.supplyOk = true) :
    exec .i3cResetPackage s = .next { packageReset s with i3c := { (packageReset s).i3c with data := [], nack := false } } := by
  have kept : (packageReset s).power.supplyOk = true := by
    rw [packageReset_power]
    exact hp
  rw [exec_i3cResetPackage, execI3cResetPackage, h, i3cDo_powered (f := packageReset) hp kept]
  rfl

/-- A die reset that starts, or has started already, leaves the device powered. -/
theorem dieResetOnce_supplyOk (hp : s.power.supplyOk = true) (d : Nat) :
    (if (getDie s d).inReset then s else dieReset s d false).power.supplyOk = true := by
  split
  · exact hp
  · rw [dieReset, resetDies_power]
    exact hp

theorem i3cResetDie_powered (hp : s.power.supplyOk = true) (d : BitVec 2) :
    let t := if (getDie s d.toNat).inReset then s else dieReset s d.toNat false
    exec (.i3cResetDie d) s = .next { t with i3c := { t.i3c with data := [], nack := false } } :=
  congrArg Host.Outcome.next
    (i3cDo_powered (f := fun s => if (getDie s d.toNat).inReset then s else dieReset s d.toNat false) hp (dieResetOnce_supplyOk hp d.toNat))

/-- A code that names no command is answered with a NACK. -/
theorem i3cSetPowerLimit_unknown {code : BitVec 8} (hc : code = 0 ∨ 7 ≤ code.toNat) (w : BitVec 16) :
    exec (.i3cSetPowerLimit (code, w)) s = .next (i3cNack s) := by
  have other : code ≠ 4 := by rintro rfl; simp at hc
  have own : (decide (code.toNat ≤ 6) && code != 0) = false := by
    rcases hc with rfl | hc
    · rfl
    · simp [Nat.not_le.mpr hc]
  simp only [exec_i3cSetPowerLimit, execI3cSetPowerLimit, if_neg other, own, Bool.false_eq_true, if_false]

/-- A power limit is taken within 500 W to 3,600 W (R25). -/
theorem i3cSetPowerLimit_sets (hp : s.power.supplyOk = true) (w : BitVec 16) :
    exec (.i3cSetPowerLimit (4, w)) s = .next { s with
      power := { s.power with limit := max 500 (min 3600 w.toNat) }, i3c := { s.i3c with data := [], nack := false } } := by
  rw [exec_i3cSetPowerLimit, execI3cSetPowerLimit, if_pos rfl, i3cDo_powered (f := fun s => setLimit s w.toNat) hp hp, setLimit, clampLimit_eq]

theorem sideBandResults : Claim.SideBandResults := by
  unfold Claim.SideBandResults
  intro s hp
  refine ⟨fun code w hc => i3cSetPowerLimit_unknown hc w, ?status, ?temperatures, ?draw, ?identity, i3cSetPowerLimit_sets hp,
    fun h => i3cResetPackage_held ((resetHeld_iff s).mpr h),
    fun h => i3cResetPackage_starts (Bool.eq_false_iff.mpr fun hh => h ((resetHeld_iff s).mp hh)) hp, i3cResetDie_powered hp⟩
  case status =>
    simp only [exec_i3cReadStatus, execI3cReadStatus, i3cAnswer_powered hp, linkDown_eq_sum]
    rfl
  case temperatures => simp only [exec_i3cReadTemperatures, execI3cReadTemperatures, i3cAnswer_powered hp]
  case draw =>
    simp only [exec_i3cReadPackagePower, execI3cReadPackagePower, i3cAnswer_powered hp, leBytes_eq_map]
    simp [List.range_succ]
  case identity => simp only [exec_i3cReadIdentityKey, execI3cReadIdentityKey, i3cAnswer_powered hp, leBytes_eq_map]

/-! ### Temperature (R26) -/

/-- One update of the first n ports. -/
theorem getPort_foldl_modPort (f : Port → Port) (s : State) (n p : Nat) :
    getPort ((List.range n).foldl (fun s p => modPort s p f) s) p = if p < n then f (getPort s p) else getPort s p := by
  induction n with
  | zero => rfl
  | succ n ih =>
    rw [List.range_succ, List.foldl_append, List.foldl_cons, List.foldl_nil]
    by_cases hp : p = n
    · subst hp
      simp [ih]
    · rw [getPort_modPort_other _ _ hp, ih]
      simp only [show p < n + 1 ↔ p < n by omega]

/-- A thermal shutdown is reported once and puts every port down. -/
theorem thermalStop_spec (s : State) :
    (thermalStop s).power.shutdown = true ∧ (thermalStop s).i3c.ibis = s.i3c.ibis + 1 ∧ (thermalStop s).clusters = s.clusters ∧
      ∀ p, p < 16 → (getPort (thermalStop s) p).st = .down := by
  unfold thermalStop
  refine ⟨?_, ?_, ?_, fun p hp => ?_⟩
  · exact congrArg Power.shutdown (foldl_keeps State.power (fun t p => modPort_power t p _) _ _)
  · exact congrArg I3c.ibis (foldl_keeps State.i3c (fun t p => modPort_i3c t p _) _ _)
  · exact foldl_keeps State.clusters (fun t p => modPort_clusters t p _) _ _
  · exact congrArg Port.st ((getPort_foldl_modPort (fun k => { k with st := .down, attempts := 3 }) _ 16 p).trans (if_pos hp))

theorem sensorRead_warm {c temp : Nat} (h : temp < 115) :
    sensorRead s c temp = (if 95 ≤ temp ∧ (getCl s c).throttled = false then raiseIbi (modCl s c fun k => { k with temp := temp, throttled := decide (95 ≤ temp) })
      else modCl s c fun k => { k with temp := temp, throttled := decide (95 ≤ temp) }) := by
  simp [sensorRead, Nat.not_le.mpr h]

theorem sensorRead_hot {c temp : Nat} (h : 115 ≤ temp) :
    sensorRead s c temp = (if s.power.shutdown then modCl s c fun k => { k with temp := temp, throttled := true }
      else thermalStop (modCl s c fun k => { k with temp := temp, throttled := true })) := by
  simp [sensorRead, h, show 95 ≤ temp by omega]

theorem thermalThrottle_next {c temp : Nat} (hc : c < 64) : exec (.thermalThrottle c temp) s = .next (sensorRead s c temp) := by
  simp only [exec_thermalThrottle, execThermalThrottle, ge_iff_le, if_neg (Nat.not_le.mpr hc)]

theorem thermalShutdown_next {c temp : Nat} (hc : c < 64) (ht : 115 ≤ temp) :
    exec (.thermalShutdown c temp) s = .next (sensorRead s c temp) := by
  simp [exec_thermalShutdown, execThermalShutdown, Nat.not_le.mpr hc, Nat.not_lt.mpr ht]

/-- A reading of 115 °C or more shuts a package down that has not shut down. -/
theorem sensorRead_shutdown {c temp : Nat} (ht : 115 ≤ temp) (hs : s.power.shutdown = false) :
    let t := sensorRead s c temp
    t.power.shutdown = true ∧ t.i3c.ibis = s.i3c.ibis + 1 ∧ (getCl t c).temp = temp ∧ ∀ p, p < 16 → (getPort t p).st = .down := by
  rw [sensorRead_hot ht, hs]
  simp only [Bool.false_eq_true, if_false]
  obtain ⟨hoff, hibi, hcl, hports⟩ := thermalStop_spec (modCl s c fun k => { k with temp := temp, throttled := true })
  refine ⟨hoff, hibi, ?_, hports⟩
  rw [getCl, hcl]
  exact congrArg Cluster.temp (getCl_modCl_same s c _)

/-! ### Supply, power limits and clocks (R25 to R27) -/

theorem supplyFault_next (v : Nat) : exec (.supplyFault v) s = .next { s with
    power := { s.power with supplyOk := decide (48 ≤ v ∧ v ≤ 60), supplyFault := !decide (48 ≤ v ∧ v ≤ 60) } } := by
  by_cases h : 48 ≤ v ∧ v ≤ 60
  · simp [exec_supplyFault, execSupplyFault, h]
  · simp [exec_supplyFault, execSupplyFault, h]

/-- A draw above the limit with every clock at its lowest is reported. -/
theorem powerLimitUnmet_reports {w : Nat} (hw : s.power.limit < w) (hu : s.power.unmet = false)
    (slow : ∀ c, c < 64 → (getCl { s with power := { s.power with draw := w } } c).clock ≤ 6) :
    exec (.powerLimitUnmet w) s = .next (raiseIbi { s with power := { s.power with draw := w, unmet := true } }) := by
  simpa [exec_powerLimitUnmet, execPowerLimitUnmet, hw, hu, raiseIbi] using slow

theorem powerLimitMet_clears {w : Nat} (hw : w < s.power.limit) :
    exec (.powerLimitMet w) s = .next { s with power := { s.power with draw := w, unmet := false } } := by
  simp [exec_powerLimitMet, execPowerLimitMet, hw]


theorem clockStep_up {c : Nat} (hc : c < 64) : exec (.clockStep c true) s =
    .next (if (getCl s c).clock < 20 ∧ ¬ ((getCl s c).throttled = true ∨ s.power.limit < s.power.draw)
      then setClock s c ((getCl s c).clock + 1) else s) := by
  simp [exec_clockStep, execClockStep, Nat.not_le.mpr hc]

theorem clockStep_down {c : Nat} (hc : c < 64) : exec (.clockStep c false) s =
    .next (if 6 < (getCl s c).clock ∧ ((getCl s c).throttled = true ∨ s.power.limit < s.power.draw)
      then setClock s c ((getCl s c).clock - 1) else s) := by
  simp [exec_clockStep, execClockStep, Nat.not_le.mpr hc]

/-! ### Boot (R30) -/

/-- The key under which stage i is verified: the first stage's own, then each stage's next key. -/
def stageKey (key : List Byte) (fw : List Stage) (i : Nat) : List Byte :=
  if i = 0 then key else (fw.map (·.nextKey)).getD (i - 1) []

/-- A stage passes its verification. -/
def Accepted (key : List Byte) (f : Stage) : Prop :=
  Config.minSecurityVersion ≤ f.secVer ∧ Config.ed25519Verify key f.image f.sig = true

theorem stageKey_succ (key : List Byte) (f : Stage) (r : List Stage) (i : Nat) :
    stageKey key (f :: r) (i + 1) = stageKey f.nextKey r i := by
  cases i <;> simp [stageKey]

theorem bootCheck_accepted {key : List Byte} {f : Stage} (h : Accepted key f) (r : List Stage) (n : Nat) :
    bootCheck key (f :: r) n = bootCheck f.nextKey r (n + 1) := by
  obtain ⟨hv, hs⟩ := h
  simp [bootCheck, hs, Nat.not_lt.mpr hv]

theorem bootCheck_rejected {key : List Byte} {f : Stage} (h : ¬ Accepted key f) (r : List Stage) (n : Nat) :
    bootCheck key (f :: r) n = some n := by
  unfold bootCheck
  refine if_pos ?_
  by_contra hn
  simp only [Bool.or_eq_true, decide_eq_true_eq, Bool.not_eq_true', not_or, Nat.not_lt, Bool.not_eq_false] at hn
  exact h hn

/-- Stages that all pass leave no failing stage. -/
theorem bootCheck_none {fw : List Stage} {key : List Byte} (n : Nat)
    (h : ∀ i f, fw[i]? = some f → Accepted (stageKey key fw i) f) : bootCheck key fw n = none := by
  induction fw generalizing key n with
  | nil => rfl
  | cons f r ih =>
    have first : Accepted key f := h 0 f rfl
    rw [bootCheck_accepted first]
    exact ih _ fun i g hg => by simpa only [stageKey_succ] using h (i + 1) g hg

/-- The failing stage is the first that does not pass. -/
theorem bootCheck_some {fw : List Stage} {key : List Byte} (n : Nat) {i : Nat} {f : Stage} (hf : fw[i]? = some f)
    (bad : ¬ Accepted (stageKey key fw i) f) (good : ∀ j g, j < i → fw[j]? = some g → Accepted (stageKey key fw j) g) :
    bootCheck key fw n = some (n + i) := by
  induction fw generalizing key n i with
  | nil => simp at hf
  | cons a r ih =>
    cases i with
    | zero =>
      obtain rfl : a = f := by simpa using hf
      exact bootCheck_rejected bad r n
    | succ i =>
      have first : Accepted key a := good 0 a (by omega) rfl
      rw [bootCheck_accepted first, ih (i := i) (n + 1) hf (by simpa only [stageKey_succ] using bad)
        fun j g hj hg => by simpa only [stageKey_succ] using good (j + 1) g (by omega) hg]
      congr 1
      omega

/-- The boot sequence may run: not booted, powered, and on dies that are all out of reset or all in a package reset. -/
structure BootReady (s : State) : Prop where
  fresh : s.boot.done = false
  sound : s.boot.recovery = false
  supply : s.power.supplyOk = true
  cool : s.power.shutdown = false
  dies : (∀ d, d < 4 → (getDie s d).inReset = false) ∨ ∀ d, d < 4 → (getDie s d).inReset = true ∧ (getDie s d).whole = true

/-- The key of the first stage. -/
def firstKey (fw : List Stage) : List Byte := (fw.map (·.key)).headD []

/-- What boot leaves: the stages run, or recovery mode at the failing stage. -/
def bootLeaves (s : State) : Option Nat → State
  | none => { s with boot := { s.boot with done := true, stage := s.boot.fw.length } }
  | some i => raiseIbi { s with boot := { s.boot with recovery := true, failing := i, stage := i } }

theorem wholeReset_iff (s : State) : wholeReset s = true ↔ ∀ d, d < 4 → (getDie s d).inReset = true ∧ (getDie s d).whole = true := by
  simp [wholeReset]

/-- BOOT of a device that may boot: the first key against the fuses, then the stages in order. -/
theorem boot_next (h : BootReady s) :
    exec .boot s = .next (bootLeaves s (if s.boot.fw ≠ [] ∧ Config.sha512 (firstKey s.boot.fw) ≠ Config.fusedDigest then some 0
      else bootCheck (firstKey s.boot.fw) s.boot.fw 0)) := by
  have out : (!wholeReset s && (List.range 4).any fun d => (getDie s d).inReset) = false := by
    rcases h.dies with hd | hd
    · have : ((List.range 4).any fun d => (getDie s d).inReset) = false := by
        simpa [List.any_eq_false] using hd
      rw [this, Bool.and_false]
    · rw [(wholeReset_iff s).mpr hd]; rfl
  have guard : (s.boot.done || s.boot.recovery || !s.power.supplyOk || s.power.shutdown ||
      !wholeReset s && (List.range 4).any fun d => (getDie s d).inReset) = false := by
    rw [h.fresh, h.sound, h.supply, h.cool, out]
    rfl
  rw [exec_boot, execBoot]
  simp only [guard, Bool.false_eq_true, if_false]
  cases hfw : s.boot.fw with
  | nil => simp [bootCheck, bootLeaves, hfw]
  | cons f r =>
    by_cases hk : Config.sha512 f.key = Config.fusedDigest
    · cases hv : bootCheck f.key (f :: r) 0 <;> simp [firstKey, hk, hv, bootLeaves, hfw, raiseIbi]
    · simp [firstKey, hk, bootLeaves, hfw, raiseIbi]

theorem boot_passes (h : BootReady s) (hk : s.boot.fw = [] ∨ Config.sha512 (firstKey s.boot.fw) = Config.fusedDigest)
    (good : ∀ i f, s.boot.fw[i]? = some f → Accepted (stageKey (firstKey s.boot.fw) s.boot.fw i) f) :
    exec .boot s = .next (bootLeaves s none) := by
  rw [boot_next h, if_neg (by tauto), bootCheck_none 0 good]

theorem boot_stops (h : BootReady s) (hk : s.boot.fw = [] ∨ Config.sha512 (firstKey s.boot.fw) = Config.fusedDigest) {i : Nat} {f : Stage}
    (hf : s.boot.fw[i]? = some f) (bad : ¬ Accepted (stageKey (firstKey s.boot.fw) s.boot.fw i) f)
    (good : ∀ j g, j < i → s.boot.fw[j]? = some g → Accepted (stageKey (firstKey s.boot.fw) s.boot.fw j) g) :
    exec .boot s = .next (bootLeaves s (some i)) := by
  rw [boot_next h, if_neg (by tauto), bootCheck_some 0 hf bad good, Nat.zero_add]

theorem boot_wrongKey (h : BootReady s) (hk : s.boot.fw ≠ [] ∧ Config.sha512 (firstKey s.boot.fw) ≠ Config.fusedDigest) :
    exec .boot s = .next (bootLeaves s (some 0)) := by
  rw [boot_next h, if_pos hk]

/-! ### Dies that come back (R29, R207) -/

@[simp] theorem pickDriver_dies (s : State) : (pickDriver s).dies = s.dies := by
  unfold pickDriver
  split <;> rfl

@[simp] theorem pickDriver_noticeSeq (s : State) : (pickDriver s).noticeSeq = s.noticeSeq := by
  unfold pickDriver
  split <;> rfl

/-- A die that comes back is out of reset, and its notice is posted. -/
theorem dieBack_spec (s : State) (d : Nat) :
    (getDie (dieBack s d) d).inReset = false ∧ (dieBack s d).noticeSeq = s.noticeSeq + 1 := by
  refine ⟨?_, by simp [dieBack]⟩
  have dies : (dieBack s d).dies = (modDie s d fun d => { d with inReset := false, whole := false }).dies := by simp [dieBack]
  rw [getDie, dies]
  exact congrArg Die.inReset (getDie_modDie_same s d _)

theorem dieResetComplete_back {d : BitVec 2} (hr : (getDie s d.toNat).inReset = true) (hw : (getDie s d.toNat).whole = false) :
    exec (.dieResetComplete d) s = .next (dieBack s d.toNat) := by
  simp [exec_dieResetComplete, execDieResetComplete, hr, hw]

/-- A package reset waits for its boot. -/
theorem packageResetComplete_waits (hb : s.boot.done = false) : exec .packageResetComplete s = .next s := by
  simp [exec_packageResetComplete, execPackageResetComplete, hb]

/-- A package reset that has booted brings the four dies back. -/
theorem packageResetComplete_back (hw : wholeReset s = true) (hb : s.boot.done = true) :
    exec .packageResetComplete s = .next (dieBack (dieBack (dieBack (dieBack s 0) 1) 2) 3) := by
  simp [exec_packageResetComplete, execPackageResetComplete, hw, hb, List.range_succ]

theorem powerAndBootEvents : Claim.PowerAndBootEvents := by
  unfold Claim.PowerAndBootEvents
  intro s
  refine ⟨supplyFault_next, fun c temp hc ht => ?warm, fun c temp hc ht hs i hi => ?hot, fun c temp hc ht hs => ?stopped,
    fun w hw hu slow => powerLimitUnmet_reports hw hu slow, fun w hw => powerLimitMet_clears hw, fun c hc => ?clock,
    fun h1 h2 h3 h4 h5 hk => ?boot, fun h1 h2 h3 h4 h5 f r hf hk => ?wrongKey, fun d hr hw => dieResetComplete_back hr hw,
    fun h => ⟨packageResetComplete_waits, packageResetComplete_back ((wholeReset_iff s).mpr h)⟩, fun d _ => dieBack_spec s d⟩
  case warm => rw [thermalThrottle_next hc, sensorRead_warm ht]; rfl
  case hot =>
    have reads : exec i s = .next (sensorRead s c temp) := by
      rcases List.mem_pair.mp hi with rfl | rfl
      · exact thermalShutdown_next hc ht
      · exact thermalThrottle_next hc
    exact ⟨_, reads, sensorRead_shutdown ht hs⟩
  case stopped => rw [thermalShutdown_next hc ht, sensorRead_hot ht, if_pos hs]
  case clock =>
    refine ⟨fun free low => ?_, fun held high => ?_, fun held => ?_, fun free => ?_⟩
    · rw [clockStep_up hc, if_pos ⟨low, free⟩]; rfl
    · rw [clockStep_down hc, if_pos ⟨high, held⟩]; rfl
    · rw [clockStep_up hc, if_neg fun h => h.2 held]
    · rw [clockStep_down hc, if_neg fun h => free h.2]
  case boot =>
    have ready : BootReady s := ⟨h1, h2, h3, h4, h5⟩
    exact ⟨fun good => boot_passes ready hk good, fun i f hf bad good => boot_stops ready hk hf bad good⟩
  case wrongKey => exact boot_wrongKey ⟨h1, h2, h3, h4, h5⟩ (by simpa [hf, firstKey] using hk)

/-- Settles O42, from the side band's answers and the events of power, boot and reset. -/
theorem packageEvents : Obligations.PackageEvents := ⟨sideBandResults, powerAndBootEvents⟩

end Sys2Proof.Proofs
end

section
/-!
PROOFS. Cluster routers and the reckoning tokens of the Beam (R46 to R51).
-/

namespace Sys2Proof.Proofs

open Sys2Proof.Machine Sys2Proof.Laws

variable {s : State}

/-! ### The arms of these device steps -/

theorem exec_routerForward (r out net : Nat) (s : State) : exec (.routerForward r out net) s = execRouterForward r out net s := rfl
theorem exec_routerIdle (r : Nat) (s : State) : exec (.routerIdle r) s = execRouterIdle r s := rfl
theorem exec_routerPowerdownDone (r : Nat) (s : State) : exec (.routerPowerdownDone r) s = execRouterPowerdownDone r s := rfl
theorem exec_tokenAtWriter (chan w : Nat) (s : State) : exec (.tokenAtWriter chan w) s = execTokenAtWriter chan w s := rfl
theorem exec_tokenAtHome (chan : Nat) (s : State) : exec (.tokenAtHome chan) s = execTokenAtHome chan s := rfl

/-! ### Routers (R49, R51) -/

/-- A router that is powering down takes nothing from its units. -/
theorem refill_poweringDown {r : Nat} (h : (getRouter s r).st = 1) (net n : Nat) : refill s r net n = s := by
  cases n with
  | zero => rfl
  | succ n => rw [refill, if_pos h]

/-- No outbound buffer has a packet for the router. -/
theorem outPick_empty {r net : Nat} (h : ∀ u, u ∈ routerUnits r → getQ s (qk 6 u 0 net) = []) : outPick s r net = none := by
  rw [outPick, foldl_stays]
  · rfl
  · intro u hu
    simp [h u hu, arb]

theorem refill_empty {r net : Nat} (h : ∀ u, u ∈ routerUnits r → getQ s (qk 6 u 0 net) = []) (n : Nat) : refill s r net n = s := by
  cases n with
  | zero => rfl
  | succ n =>
    rw [refill, outPick_empty h]
    exact ite_self s

/-- The arbiter of a router that runs has picked a packet for an output. -/
structure Picked (s : State) (r out net dir i : Nat) (p : Packet) : Prop where
  router : r < 1280
  network : net < 2
  runs : dieRuns s (r / 320) = true
  awake : (getRouter s r).st ≠ 1
  pick : routerPick s r out net = some (dir, i)
  packet : (getQ s (qk 0 r dir net))[i]? = some p

variable {r out net dir i n : Nat} {p : Packet}

/-- What ROUTER_FORWARD asks of a router before it looks for a packet. -/
theorem Picked.guard (h : Picked s r out net dir i p) :
    ¬ (decide (r ≥ 1280) || decide (net ≥ 2) || !dieRuns s (routerDie r) || decide ((getRouter s r).st = 1)) = true := by
  have runs : dieRuns s (routerDie r) = true := h.runs
  simp [runs, h.awake, h.router, h.network]

/-- A picked packet leaves the mesh, unless its unit's input is full. -/
theorem routerForward_leaves (h : Picked s r 0 net dir i p) :
    exec (.routerForward r 0 net) s = .next (
      if meshHere r p && !homeRoom s p.dst net then s else meshLeave (routerTake s r dir net i) r net (depart (tickN s) p)) := by
  rw [exec_routerForward, execRouterForward, if_neg h.guard, h.pick]
  simp only [h.packet, if_true]
  rfl

/-- A picked packet goes on to a neighbour that has room and is not powering down. -/
theorem routerForward_goesOn (h : Picked s r out net dir i p) (ho : out ≠ 0) (hn : neighbour r out = some n)
    (hs : (getRouter s n).st ≠ 1) (room : routerRoom s n (opposite out) net (depart (tickN s) p) = true) :
    exec (.routerForward r out net) s = .next (
      pushQ (routerUsed (routerTake s r dir net i) n) (qk 0 n (opposite out) net) (depart (tickN s) p)) := by
  rw [exec_routerForward, execRouterForward, if_neg h.guard, h.pick]
  simp only [h.packet, if_neg ho, hn, hs, room]
  rfl

theorem meshHere_iff (r : Nat) (p : Packet) : meshHere r p = true ↔ unitCl p.dst = r / 20 ∧ isSliceUnit p.dst = false := by
  simp [meshHere]

/-- The die of a router and the number of its cluster on it, from its number. -/
theorem clDie_router (r : Nat) : clDie (r / 20) = r / 320 := by
  rw [clDie, Nat.div_div_eq_div_mul]

/-- An idle router powers down after its idle time, unless a flit waits for it. -/
theorem routerIdle_timed (hr : r < 1280) (hs : (getRouter s r).st = 0) (ht : (getRouter s r).last + (getRouter s r).idle ≤ tickN s) :
    exec (.routerIdle r) s = .next (modRouter s r fun x => if flitWaits s r then { x with last := tickN s } else { x with st := 1 }) := by
  rw [exec_routerIdle, execRouterIdle, if_neg (by simp [hr, hs, ht])]
  split <;> rfl

theorem routerPowerdownDone_ends (hs : (getRouter s r).st = 1) :
    exec (.routerPowerdownDone r) s = .next (if flitWaits s r then refill (refill (routerUsed s r) r 0 32) r 1 32
      else modRouter s r fun x => { x with st := 2 }) := by
  rw [exec_routerPowerdownDone, execRouterPowerdownDone, if_neg (by simp [hs])]

/-- X first, then Y (R49), on the places of the routers of a cluster. -/
theorem routeOut_eq (r : Nat) (p : Packet) : routeOut r p =
    if r % 4 < meshExit (r / 20) p % 4 then 2 else if meshExit (r / 20) p % 4 < r % 4 then 4
    else if r % 20 / 4 < meshExit (r / 20) p % 20 / 4 then 3 else if meshExit (r / 20) p % 20 / 4 < r % 20 / 4 then 1 else 0 := by
  have column : ∀ x : Nat, x % 20 % 4 = x % 4 := fun x => Nat.mod_mod_of_dvd x (by decide)
  simp only [routeOut, column, gt_iff_lt]

theorem routerResults : Claim.RouterResults := by
  unfold Claim.RouterResults
  intro s r hr
  refine ⟨fun out net dir i p hn hd hs hp hq => ?_, fun net _ h => refill_empty h 32, routerIdle_timed hr, routerPowerdownDone_ends,
    fun h net => refill_poweringDown h net 32, routeOut_eq r⟩
  have picked : Picked s r out net dir i p := ⟨hr, hn, hd, hs, hp, hq⟩
  refine ⟨fun ho here => ?_, fun ho away => ?_, fun n ho hn hs room => routerForward_goesOn picked ho hn hs room⟩
  · subst ho
    have unit := (meshHere_iff r p).mpr here
    refine ⟨fun room => ?_, fun full => ?_⟩
    · rw [routerForward_leaves picked, unit, room]
      exact congrArg Host.Outcome.next (if_pos unit)
    · rw [routerForward_leaves picked, unit, full]
      rfl
  · subst ho
    have beam : meshHere r p = false := Bool.eq_false_iff.mpr fun h => away ((meshHere_iff r p).mp h)
    have leave : ∀ t, meshLeave t r net (depart (tickN s) p) = beamOut t (clDie (r / 20)) (r / 20 % 16) (depart (tickN s) p) := fun t =>
      if_neg (show ¬ meshHere r p = true by simp [beam])
    rw [routerForward_leaves picked, beam, leave, clDie_router]
    rfl

/-! ### Beam tokens (R46 to R48) -/

variable {chan w : Nat}

theorem chanRuns_of (h4 : chan / 128 < 4) (h80 : chan % 128 < 80) (hd : dieRuns s (chan / 128) = true) : chanRuns s chan = true := by
  simp [chanRuns, h4, h80, hd]

/-- At its home a token that every writer has seen grants the best bidder the next lap. -/
theorem tokenAtHome_lapped (hc : chanRuns s chan = true) (h : ∀ w, w < 18 → w ∈ (getToken s chan).seen) :
    exec (.tokenAtHome chan) s = .next (modToken s chan fun t =>
      { t with grant := t.bidder, bidder := 31, bid := 0xFFF, cnt := 0, rqStop := homeStop s chan 0, rsStop := homeStop s chan 1, seen := [] }) := by
  rw [exec_tokenAtHome, execTokenAtHome, if_neg (by simpa [hc] using h)]

theorem tokenAtHome_early (h : ∃ w, w < 18 ∧ w ∉ (getToken s chan).seen) : exec (.tokenAtHome chan) s = .next s := by
  rw [exec_tokenAtHome, execTokenAtHome, if_pos (by simp [h])]

theorem tokenAtWriter_first (hc : chanRuns s chan = true) (hw : w < 18) (h : w ∉ (getToken s chan).seen) :
    exec (.tokenAtWriter chan w) s = .next (modToken (tokenBid (tokenGrant s chan w) chan w) chan fun t => { t with seen := t.seen ++ [w] }) := by
  rw [exec_tokenAtWriter, execTokenAtWriter, if_neg (by simp [hc, hw, h])]

theorem tokenAtWriter_again (h : w ∈ (getToken s chan).seen) : exec (.tokenAtWriter chan w) s = .next s := by
  rw [exec_tokenAtWriter, execTokenAtWriter, if_pos (by simp [h])]

/-- The writer that holds the grant transmits the head that it bid, and its lost laps are 0. -/
theorem tokenGrant_won {b : Nat} (hb : smGet 0 (getToken s chan).bids w = b) (h0 : b ≠ 0) (hg : (getToken s chan).grant = w)
    (hi : idxOf (fun p => bidName ((b - 1) / 2 ^ 28) p == b) (getQ s (qk 1 chan w ((b - 1) / 2 ^ 28))) = some i)
    (hp : (getQ s (qk 1 chan w ((b - 1) / 2 ^ 28)))[i]? = some p) :
    tokenGrant s chan w = chanPut (setQ (modToken s chan fun t => { t with bids := smSet 0 t.bids w 0, lost := smSet 0 t.lost w 0 })
      (qk 1 chan w ((b - 1) / 2 ^ 28)) (delAt (getQ s (qk 1 chan w ((b - 1) / 2 ^ 28))) i)) chan ((b - 1) / 2 ^ 28) (depart (tickN s) p) := by
  have granted : (b != 0 && decide ((getToken s chan).grant = w)) = true := by simp [h0, hg]
  simp only [tokenGrant, hb, granted, if_true, hi, hp, modToken_modToken]

/-- A writer that bid and does not hold the grant counts a lost lap. -/
theorem tokenGrant_lost (h0 : smGet 0 (getToken s chan).bids w ≠ 0) (hg : (getToken s chan).grant ≠ w) :
    tokenGrant s chan w = modToken s chan fun t => { t with bids := smSet 0 t.bids w 0, lost := smSet 0 t.lost w (smGet 0 t.lost w + 1) } := by
  simp [tokenGrant, h0, hg, modToken_modToken, smMod]

/-- When a bid beats the token's: starved writers first, then less slack, then more lost laps and the lower number (R47). -/
theorem bidWins_iff (n sl w : Nat) (t : Token) : bidWins n sl w t = true ↔
    if 16 ≤ n then t.cnt < 16 ∨ t.cnt < n ∨ (n = t.cnt ∧ w < t.bidder)
    else t.cnt < 16 ∧ (sl < t.bid ∨ (sl = t.bid ∧ (t.cnt < n ∨ (n = t.cnt ∧ w < t.bidder)))) := by
  by_cases hn : 16 ≤ n <;> by_cases hc : 16 ≤ t.cnt
  · simp [bidWins, hn, hc, Nat.not_lt.mpr hc]
  · simp [bidWins, hn, hc, Nat.not_le.mp hc]
  · simp [bidWins, hn, hc, Nat.not_lt.mpr hc]
  · simp [bidWins, hn, hc, Nat.not_le.mp hc]

/-- What a writer with a candidate leaves on the token. -/
theorem tokenBid_candidate {rank : Nat} (hw : writerPick s chan w (getToken s chan) = some (net, i, rank))
    (hp : (getQ s (qk 1 chan w net))[i]? = some p) :
    tokenBid s chan w = modToken s chan fun t =>
      let u := { t with bids := smSet 0 t.bids w (bidName net p) }
      if bidWins (min (smGet 0 (getToken s chan).lost w) 63) (rank - 2 ^ 64) w u then
        { u with bidder := w, bid := rank - 2 ^ 64, cnt := min (smGet 0 (getToken s chan).lost w) 63 } else u := by
  have late : (if rank < 2 ^ 64 then 0 else rank - 2 ^ 64) = rank - 2 ^ 64 := by split <;> omega
  simp only [tokenBid, hw, hp, late]

theorem tokenResults : Claim.TokenResults := by
  unfold Claim.TokenResults
  intro s chan w h4 h80 hd
  have runs := chanRuns_of h4 h80 hd
  refine ⟨tokenAtHome_lapped runs, tokenAtHome_early, tokenAtWriter_first runs, tokenAtWriter_again,
    fun i p h0 hg hi hp => tokenGrant_won rfl h0 hg hi hp, tokenGrant_lost, fun net i rank p hw hp => ?_⟩
  rw [tokenBid_candidate hw hp]
  refine modToken_congr ?_
  simp only [bidWins_iff]
  split
  next starved => split <;> rfl
  next fed => split <;> rfl

/-- Settles O45, from what routers forward and what tokens leave at homes and writers. -/
theorem fabricRouteResults : Obligations.FabricRouteResults := ⟨routerResults, tokenResults⟩

end Sys2Proof.Proofs
end

section
/-!
PROOFS. The optical ports: flits and codewords, replay, training and retraining (R14 to R24, R33).
-/

namespace Sys2Proof.Proofs

open Sys2Proof.Machine Sys2Proof.Laws

variable {s : State} {port : Nat} {k : Port} {f : BitVec 256}

/-! ### The arms of these device steps -/

theorem exec_fabricTransmit (p : Nat) (s : State) : exec (.fabricTransmit p) s = execFabricTransmit p s := rfl
theorem exec_flitReceive (p : Nat) (f : BitVec 256) (s : State) : exec (.flitReceive p f) s = execFlitReceive p f s := rfl
theorem exec_ackReceive (p : Nat) (f : BitVec 256) (s : State) : exec (.ackReceive p f) s = execAckReceive p f s := rfl
theorem exec_nakReceive (p : Nat) (f : BitVec 256) (s : State) : exec (.nakReceive p f) s = execNakReceive p f s := rfl
theorem exec_codewordReceive (p : Nat) (sent : List (BitVec 256)) (got : List (BitVec 256) × BitVec 20) (e : Nat) (s : State) :
    exec (.codewordReceive p sent got e) s = execCodewordReceive p sent got e s := rfl
theorem exec_lockHoldExpiry (p : Nat) (l : BitVec 4) (s : State) : exec (.lockHoldExpiry p l) s = execLockHoldExpiry p l s := rfl
theorem exec_markersAligned (m : Nat × BitVec 20) (s : State) : exec (.markersAligned m) s = execMarkersAligned m s := rfl
theorem exec_fecCodewordCount (p : Nat) (s : State) : exec (.fecCodewordCount p) s = execFecCodewordCount p s := rfl
theorem exec_trainingFlitReceive (p : Nat) (f : BitVec 256) (s : State) :
    exec (.trainingFlitReceive p f) s = execTrainingFlitReceive p f s := rfl
theorem exec_trainingTimeout (p : Nat) (s : State) : exec (.trainingTimeout p) s = execTrainingTimeout p s := rfl
theorem exec_fibreLockLoss (p f : Nat) (s : State) : exec (.fibreLockLoss p f) s = execFibreLockLoss p f s := rfl
theorem exec_fecLockLoss (p : Nat) (s : State) : exec (.fecLockLoss p) s = execFecLockLoss p s := rfl
theorem exec_nakRateExceeded (p : Nat) (s : State) : exec (.nakRateExceeded p) s = execNakRateExceeded p s := rfl

/-! ### Ports -/

theorem portRuns_of (hp : port < 16) (hd : dieRuns s (port / 4) = true) : portRuns s port = true := by
  simp [portRuns, hp, hd]

/-- An update of a port leaves it at work. -/
theorem portRuns_modPort (s : State) (q : Nat) (g : Port → Port) (port : Nat) : portRuns (modPort s q g) port = portRuns s port := rfl

theorem flitsFlow_iff (k : Port) : flitsFlow k = true ↔ k.st = .fec ∨ k.st = .version ∨ k.st = .active := by
  simp [flitsFlow, or_assoc]

/-- A flit that comes while none waits is taken as it comes. -/
theorem flitIn_nil (h : k.rx = []) (f : BitVec 256) : flitIn k f = some k := by
  simp [flitIn, h]

/-- The flit that waits first is taken. -/
theorem flitIn_head {r : List (BitVec 256)} (h : k.rx = f :: r) : flitIn k f = some { k with rx := r } := by
  simp [flitIn, h]

/-! ### Sending (R15, R18, R20, R24) -/

theorem flits_depart (tick : Nat) (p : Packet) : flits (depart tick p) = flits p := rfl

/-- An active port with nothing that it may send sends the idle flit. -/
theorem fabricTransmit_idle (hr : portRuns s port = true) (ha : (getPort s port).st = .active)
    (h : portPick s (portUnit port) = none ∨ ∃ net i x, portPick s (portUnit port) = some (net, i, x) ∧
      2048 < (getPort s port).replayB.length + flits x) :
    exec (.fabricTransmit port) s = .next (modPort s port fun k => flitOut k idleFlit) := by
  rcases h with h | ⟨net, i, x, h, full⟩
  · simp [exec_fabricTransmit, execFabricTransmit, hr, h, ha]
  · simp [exec_fabricTransmit, execFabricTransmit, hr, h, ha, flits_depart, full]

/-- A port that is down discards the packet that it picks. -/
theorem fabricTransmit_down (hr : portRuns s port = true) (hd : (getPort s port).st = .down) {net i : Nat} {x : Packet}
    (h : portPick s (portUnit port) = some (net, i, x)) :
    exec (.fabricTransmit port) s = .next (portDiscard (setQ s (qk 4 (portUnit port) 0 net)
      (delAt (getQ s (qk 4 (portUnit port) 0 net)) i)) port (depart (tickN s) x)) := by
  simp [exec_fabricTransmit, execFabricTransmit, hr, h, hd]

/-- The port after it has sent a packet of network `net` as flits numbered from its next number. -/
def sentPort (k : Port) (net : Nat) (x : Packet) (fs : List (Nat × BitVec 256)) : Port :=
  { dropRemote k x with
    txSeq := (k.txSeq + fs.length) % 4096, replayB := k.replayB ++ fs, out := k.out ++ fs.map (·.2)
    await := if net = 0 && bodyRet x.body != .none then k.await ++ [x] else k.await }

/-- An active port with room in its replay buffer sends the packet that it picks and keeps its flits. -/
theorem fabricTransmit_sends (hr : portRuns s port = true) (ha : (getPort s port).st = .active) {net i dev ru lu : Nat} {x : Packet}
    (h : portPick s (portUnit port) = some (net, i, x)) (room : (getPort s port).replayB.length + flits x ≤ 2048)
    (hx : remoteOf (getPort s port) (depart (tickN s) x) = some (dev, ru, lu)) :
    exec (.fabricTransmit port) s = .next (modPort (setQ s (qk 4 (portUnit port) 0 net)
      (delAt (getQ s (qk 4 (portUnit port) 0 net)) i)) port fun k => sentPort k net (depart (tickN s) x)
        (packetFlits (depart (tickN s) x) dev ru lu ((depart (tickN s) x).slack - (getPort s port).flight) (getPort s port).txSeq)) := by
  simp [exec_fabricTransmit, execFabricTransmit, hr, h, ha, hx, flits_depart, Nat.not_lt.mpr room, sentPort]

/-! ### Flits that come in (R17, R20) -/

/-- FLIT_RECEIVE at a port that takes the flit. -/
theorem flitReceive_taken (hr : portRuns s port = true) (hf : flitsFlow (getPort s port) = true) (ht : flitIn (getPort s port) f = some k) :
    exec (.flitReceive port f) s = .next (
      if flitGood f = false then modPort s port fun _ => if k.st = .active then sendNak k true else { k with linkErrs := k.linkErrs + 1 }
      else if flitType f = 0 then modPort s port fun _ => k
      else if 5 ≤ flitType f then s
      else if k.st ≠ .active then modPort s port fun _ => k
      else if flitSeq f ≠ k.rxSeq then modPort s port fun _ => sendNak k false
      else flitJoin (modPort s port fun _ => acceptFlit k) port f) := by
  simp [exec_flitReceive, execFlitReceive, hr, hf, ht]

/-- The next data flit in order is accepted and joins its packet. -/
theorem flitReceive_inOrder (hr : portRuns s port = true) (hf : flitsFlow (getPort s port) = true) (ht : flitIn (getPort s port) f = some k)
    (hg : flitGood f = true) (ha : k.st = .active) (h0 : flitType f ≠ 0) (h5 : flitType f < 5) (hq : flitSeq f = k.rxSeq) :
    exec (.flitReceive port f) s = .next (flitJoin (modPort s port fun _ => acceptFlit k) port f) := by
  rw [flitReceive_taken hr hf ht, if_neg (by simp [hg]), if_neg h0, if_neg (Nat.not_le.mpr h5), if_neg (by simp [ha]), if_neg (by simp [hq])]

theorem ackReceive_taken (hr : portRuns s port = true) (hf : flitsFlow (getPort s port) = true) (ht : flitIn (getPort s port) f = some k)
    (hg : flitGood f = true) (h5 : flitType f = 5) :
    exec (.ackReceive port f) s = .next (modPort s port fun _ => if k.st = .active then { k with replayB := ackDrop (flitNum f) k.replayB } else k) := by
  simp [exec_ackReceive, execAckReceive, hr, hf, ht, hg, h5]

theorem nakReceive_inactive (hr : portRuns s port = true) (hf : flitsFlow (getPort s port) = true) (ht : flitIn (getPort s port) f = some k)
    (hg : flitGood f = true) (h6 : flitType f = 6) (ha : k.st ≠ .active) : exec (.nakReceive port f) s = .next (modPort s port fun _ => k) := by
  simp [exec_nakReceive, execNakReceive, hr, hf, ht, hg, h6, ha]

/-- A NAK has the flits from its number on sent again, and it is counted. -/
theorem nakReceive_active (hr : portRuns s port = true) (hf : flitsFlow (getPort s port) = true) (ht : flitIn (getPort s port) f = some k)
    (hg : flitGood f = true) (h6 : flitType f = 6) (ha : k.st = .active) {j : Nat} (hj : idxOf (fun e => e.1 == flitNum f) k.replayB = some j) :
    exec (.nakReceive port f) s = .next (modPort s port fun _ =>
      { k with out := k.out ++ (k.replayB.drop j).map (·.2), naks := k.naks ++ [tickN s] }) := by
  simp [exec_nakReceive, execNakReceive, hr, hf, ht, hg, h6, ha, hj]

/-- A flit accepted that is not the 64th since the last acknowledgement. -/
theorem acceptFlit_unacknowledged (h : k.sinceAck + 1 < 64) :
    acceptFlit k = { k with rxSeq := (k.rxSeq + 1) % 4096, sinceAck := k.sinceAck + 1 } :=
  if_neg (Nat.not_le.mpr h)

/-- The first flit of a packet opens it, and a middle one joins what is open. -/
theorem flitJoin_first (h : flitType f = 1) : flitJoin s port f = modPort s port fun k => { k with part := [f] } := by
  simp [flitJoin, h]

theorem flitJoin_middle (h : flitType f = 2) (hp : (getPort s port).part ≠ []) :
    flitJoin s port f = modPort s port fun k => { k with part := k.part ++ [f] } := by
  simp [flitJoin, h, hp]

/-! ### Codewords (R19) -/

theorem alignField_eq_iff (field : BitVec 20) (n : Nat) : field = alignField n ↔ field.toNat = 0x6A3C * 16 + n % 16 := by
  have small : 0x6A3C * 16 + n % 16 < 2 ^ 20 := by omega
  rw [← BitVec.toNat_inj, alignField, BitVec.toNat_ofNat, Nat.mod_eq_of_lt small]

theorem codewordReceive_taken (hr : portRuns s port = true) (hf : flitsFlow (getPort s port) = true) {sent got : List (BitVec 256)}
    {field : BitVec 20} {e : Nat} (hs : sent.length = 20) (hg : got.length = 20) :
    exec (.codewordReceive port sent (got, field) e) s = .next (modPort s port fun k =>
      let ok := e ≤ 15 ∧ field.toNat = 0x6A3C * 16 + k.cwNum % 16
      { k with
        rx := k.rx ++ (if ok then sent else got).filter fun f => !(flitGood f && decide (flitType f = 0))
        fecGood := if ok then k.fecGood + 1 else 0, cwNum := (k.cwNum + 1) % 16 }) := by
  simp [exec_codewordReceive, execCodewordReceive, hr, hf, hs, hg, alignField_eq_iff]
  rfl

theorem linkTrafficResults : Claim.LinkTrafficResults := by
  unfold Claim.LinkTrafficResults
  intro s port hp hd
  have runs := portRuns_of hp hd
  refine ⟨fabricTransmit_idle runs, fun net i x0 x hpick hx => ⟨fun dev ru lu ha room hrem => ?sends, fun hdown => ?discards⟩,
    fun f ha hrx => ?active, fun f hst hrx hg => ?early, fun f hst hrx hg => ?earlyBad,
    fun sent got field e hst hs hg => codewordReceive_taken runs ((flitsFlow_iff _).mpr hst) hs hg⟩
  case sends =>
    subst hx
    refine ⟨_, fabricTransmit_sends runs ha hpick room hrem, rfl, ?_, ?_, ?_, rfl⟩ <;> rw [getPort_modPort_same] <;> rfl
  case discards =>
    subst hx
    exact fabricTransmit_down runs hdown hpick
  case active =>
    have flow : flitsFlow (getPort s port) = true := (flitsFlow_iff _).mpr (.inr (.inr ha))
    have whole : flitIn (getPort s port) f = some (getPort s port) := flitIn_nil hrx f
    refine ⟨fun hg => ?_, fun hg h0 => ?_, fun hg h1 h4 hq => ?_, fun hg h1 hq hack => ?_, fun hg h2 hq hack hpart => ?_, fun hg h5 => ?_,
      fun j hg h6 hj => nakReceive_active runs flow whole hg h6 ha hj⟩
    · rw [flitReceive_taken runs flow whole, if_pos hg, if_pos ha]; rfl
    · rw [flitReceive_taken runs flow whole, if_neg (by simp [hg]), if_pos h0]; rfl
    · rw [flitReceive_taken runs flow whole, if_neg (by simp [hg]), if_neg (by omega), if_neg (by omega), if_neg (by simp [ha]), if_pos hq]; rfl
    · rw [flitReceive_inOrder runs flow whole hg ha (by omega) (by omega) hq, flitJoin_first h1, modPort_modPort,
        acceptFlit_unacknowledged hack]
    · have opened : (getPort (modPort s port fun _ => acceptFlit (getPort s port)) port).part ≠ [] := by
        rw [getPort_modPort_same, acceptFlit_unacknowledged hack]
        exact hpart
      rw [flitReceive_inOrder runs flow whole hg ha (by omega) (by omega) hq, flitJoin_middle h2 opened, modPort_modPort,
        acceptFlit_unacknowledged hack]
    · rw [ackReceive_taken runs flow whole hg h5, if_pos ha]
  case early =>
    have flow : flitsFlow (getPort s port) = true := (flitsFlow_iff _).mpr (hst.imp_right .inl)
    have idle : (getPort s port).st ≠ .active := by rcases hst with h | h <;> simp [h]
    refine ⟨fun h5 => ?_, fun h6 => nakReceive_inactive runs flow (flitIn_head hrx) hg h6 idle⟩
    rw [ackReceive_taken runs flow (flitIn_head hrx) hg h5, if_neg idle]
  case earlyBad =>
    have flow : flitsFlow (getPort s port) = true := (flitsFlow_iff _).mpr (hst.imp_right .inl)
    have idle : (getPort s port).st ≠ .active := by rcases hst with h | h <;> simp [h]
    rw [flitReceive_taken runs flow (flitIn_nil hrx f), if_pos hg, if_neg idle]

/-! ### Training (R16, R21 to R24) -/

theorem popCount_eq_length (l : BitVec 4) : popCount 4 l.toNat = ((List.range 4).filter fun i => l.getLsbD i).length := by
  revert l
  decide

theorem fibresUsed_eq (l : BitVec 4) : fibresUsed l =
    if ((List.range 4).filter fun i => l.getLsbD i).length = 4 then 4 else if 2 ≤ ((List.range 4).filter fun i => l.getLsbD i).length then 2
    else ((List.range 4).filter fun i => l.getLsbD i).length := by
  simp only [fibresUsed, popCount_eq_length, ge_iff_le]

/-- No fibre is in use exactly where none holds lock. -/
theorem fibresUsed_eq_zero_iff (l : BitVec 4) : fibresUsed l = 0 ↔ ((List.range 4).filter fun i => l.getLsbD i).length = 0 := by
  rw [fibresUsed_eq]
  split
  · omega
  · split <;> omega

/-- Of fibres that hold lock, 4, 2 or 1 are in use. -/
theorem fibresUsed_some {l : BitVec 4} (h : ((List.range 4).filter fun i => l.getLsbD i).length ≠ 0) : fibresUsed l =
    if ((List.range 4).filter fun i => l.getLsbD i).length = 4 then 4 else if 2 ≤ ((List.range 4).filter fun i => l.getLsbD i).length then 2
    else 1 := by
  rw [fibresUsed_eq]
  split
  · rfl
  · split <;> omega

/-- The sum of the powers of two below n whose exponents satisfy b. -/
def bitSum (b : Nat → Bool) (n : Nat) : Nat := (List.range n).foldl (fun a i => a + if b i then 2 ^ i else 0) 0

theorem bitSum_succ (b : Nat → Bool) (n : Nat) : bitSum b (n + 1) = bitSum b n + if b n then 2 ^ n else 0 := by
  simp [bitSum, List.range_succ]

theorem bitSum_lt (b : Nat → Bool) (n : Nat) : bitSum b n < 2 ^ n := by
  induction n with
  | zero => exact Nat.one_pos
  | succ n ih =>
    rw [bitSum_succ]
    split <;> omega

/-- Bit p of the sum says whether p is one of the exponents. -/
theorem testBit_bitSum (b : Nat → Bool) {n p : Nat} (hp : p < n) : (bitSum b n).testBit p = b p := by
  induction n with
  | zero => exact absurd hp (Nat.not_lt_zero p)
  | succ n ih =>
    have top : (bitSum b n).testBit n = false := Nat.testBit_lt_two_pow (bitSum_lt b n)
    rw [bitSum_succ]
    rcases Nat.lt_succ_iff_lt_or_eq.mp hp with hp | rfl
    · rw [← ih hp]
      split
      · rw [Nat.add_comm, Nat.testBit_two_pow_add_gt hp]
      · rfl
    · split
      next hb => rw [Nat.add_comm, Nat.testBit_two_pow_add_eq, top, hb]; rfl
      next hb => rw [Nat.add_zero, top, Bool.eq_false_iff.mpr hb]

/-- Bit p of the link-down mask says whether port p is down. -/
theorem linkDown_testBit (s : State) {p : Nat} (hp : p < 16) : (linkDown s).testBit p = portDown (getPort s p) :=
  testBit_bitSum (fun p => portDown (getPort s p)) hp

/-! #### An attempt that goes on -/

theorem lockHoldExpiry_holds {l : BitVec 4} (hr : portRuns s port = true) (hs : (getPort s port).st = .lock)
    (ht : (getPort s port).since + 500000 ≤ tickN s) (hl : fibresUsed l ≠ 0) :
    exec (.lockHoldExpiry port l) s = .next (modPort s port fun k =>
      { k with st := .align, fibres := fibresUsed l, locked := l, out := k.out ++ [trainFlit 1 (fibresUsed l)] }) := by
  simp [exec_lockHoldExpiry, execLockHoldExpiry, hr, hs, hl, ms1, Nat.not_lt.mpr ht, flitOut]

theorem lockHoldExpiry_none {l : BitVec 4} (hr : portRuns s port = true) (hs : (getPort s port).st = .lock)
    (ht : (getPort s port).since + 500000 ≤ tickN s) (hl : fibresUsed l = 0) :
    exec (.lockHoldExpiry port l) s = .next (modPort s port fun k => { k with fibres := 0, locked := 0 }) := by
  simp [exec_lockHoldExpiry, execLockHoldExpiry, hr, hs, hl, ms1, Nat.not_lt.mpr ht]

theorem markersAligned_locks {field : BitVec 20} (hr : portRuns s port = true) (hs : (getPort s port).st = .align)
    (hm : field.toNat / 16 = 0x6A3C) (hf : (getPort s port).fibres ≠ 0) :
    exec (.markersAligned (port, field)) s = .next (modPort s port fun k =>
      { k with st := .fec, fecGood := 0, cwNum := (field.toNat + 1) % 16, out := k.out ++ [trainFlit 2 k.fibres] }) := by
  simp [exec_markersAligned, execMarkersAligned, hr, hs, hf, alignMark, hm, flitOut]

theorem fecCodewordCount_locks (hr : portRuns s port = true) (hs : (getPort s port).st = .fec) (hg : 64 ≤ (getPort s port).fecGood)
    (hf : (getPort s port).fibres ≠ 0) :
    exec (.fecCodewordCount port) s = .next (modPort s port fun k => { k with st := .version, out := k.out ++ [trainFlit 3 k.fibres] }) := by
  simp [exec_fecCodewordCount, execFecCodewordCount, hr, hs, hf, Nat.not_lt.mpr hg, flitOut]

/-- A port with no fibre locked goes no further (R16). -/
theorem markersAligned_dark (hf : (getPort s port).fibres = 0) (field : BitVec 20) : exec (.markersAligned (port, field)) s = .next s := by
  simp [exec_markersAligned, execMarkersAligned, hf]

theorem fecCodewordCount_dark (hf : (getPort s port).fibres = 0) : exec (.fecCodewordCount port) s = .next s := by
  simp [exec_fecCodewordCount, execFecCodewordCount, hf]

/-! #### Versions, and attempts that fail -/

/-- A failed attempt that is not the third starts again from LOCK. -/
theorem attemptFailed_again (h : (getPort s port).attempts + 1 < 3) (ver : Bool) :
    attemptFailed s port ver = modPort s port fun k =>
      { k with st := .lock, since := tickN s, attempts := k.attempts + 1, failVer := ver, fecGood := 0, rx := [] } := by
  rw [attemptFailed, if_pos h, modPort_modPort]
  rfl

/-- The third failure of a first training leaves the port down. -/
theorem attemptFailed_down (h : 3 ≤ (getPort s port).attempts + 1) (hr : (getPort s port).retrain = false) (ver : Bool) :
    attemptFailed s port ver = modPort s port fun k =>
      { k with st := .down, attempts := k.attempts + 1, failVer := ver, fecGood := 0, rx := [] } := by
  rw [attemptFailed, if_neg (Nat.not_lt.mpr h), if_neg (by simp [hr]), modPort_modPort]

theorem trainingTimeout_fails (hr : portRuns s port = true)
    (hs : (getPort s port).st = .lock ∨ (getPort s port).st = .align ∨ (getPort s port).st = .fec ∨ (getPort s port).st = .version)
    (ht : (getPort s port).since + 5000000 ≤ tickN s) :
    exec (.trainingTimeout port) s = .next (attemptFailed s port false) := by
  have trains : training (getPort s port) = true := by simpa [training, or_assoc] using hs
  simp [exec_trainingTimeout, execTrainingTimeout, hr, trains, ms10, Nat.not_lt.mpr ht]

/-- The peer's versions, read in VERSION before the attempt has lasted 10 ms: one in common makes the link active. -/
theorem trainingFlitReceive_version (hr : portRuns s port = true) (hs : (getPort s port).st = .version) (hx : (getPort s port).rx = [])
    (hg : flitGood f = true) (h7 : flitType f = 7) (h3 : (flitPay f).toNat / 2 ^ 220 = 3) (hf : (getPort s port).fibres ≠ 0)
    (ht : tickN s < (getPort s port).since + 5000000) :
    exec (.trainingFlitReceive port f) s = .next (
      if (flitPay f).toNat / 2 ^ 208 % 256 ≤ 1 ∧ 1 ≤ (flitPay f).toNat / 2 ^ 200 % 256 then linkUp (modPort s port fun k => k) port
      else attemptFailed (modPort s port fun k => k) port true) := by
  have same : (modPort s port fun _ => getPort s port) = modPort s port fun k => k := modPort_congr rfl
  have common : max verLow ((flitPay f).toNat / 2 ^ 208 % 256) ≤ min verHigh ((flitPay f).toNat / 2 ^ 200 % 256) ↔
      (flitPay f).toNat / 2 ^ 208 % 256 ≤ 1 ∧ 1 ≤ (flitPay f).toNat / 2 ^ 200 % 256 := by
    simp only [verLow, verHigh]
    omega
  have early : ¬ tickN (modPort s port fun k => k) ≥ (getPort s port).since + ms10 := Nat.not_le.mpr ht
  have due : (!portRuns s port || !flitGood f || flitType f != 7) = false := by simp [hr, hg, h7]
  have going : ((getPort s port).st != .version || decide ((getPort s port).fibres = 0) || (flitPay f).toNat / 2 ^ 220 != 3) = false := by
    rw [hs, h3, decide_eq_false hf]
    rfl
  simp only [exec_trainingFlitReceive, execTrainingFlitReceive, due, going, flitIn_nil hx, same, common, if_neg early, Bool.false_eq_true,
    if_false]

/-- The port of a link that has come up, with its flight time. -/
def upPort (flight : Nat) (k : Port) : Port :=
  { k with st := .active, ver := verHigh, failVer := false, retrain := false, flight := flight, out := k.out ++ k.replayB.map (·.2), naks := [] }

@[simp] theorem linkNotice_ports (s : State) (port status detail : Nat) : (linkNotice s port status detail).ports = s.ports :=
  postNotice_ports _ _ _ _

@[simp] theorem linkNotice_noticeSeq (s : State) (port status detail : Nat) :
    (linkNotice s port status detail).noticeSeq = s.noticeSeq + 1 := postNotice_noticeSeq _ _ _ _

theorem getPort_linkUp (s : State) (port : Nat) :
    getPort (linkUp s port) port = upPort ((Config.freeWord s.freeCnt).toNat % 4096) (getPort s port) := by
  unfold linkUp
  simp only
  split
  · rw [getPort, linkNotice_ports]
    exact getPort_modPort_same _ _ _
  · exact getPort_modPort_same _ _ _

/-- A link that comes up after a retrain posts its notice, and only such a one (R23). -/
theorem linkUp_noticeSeq (s : State) (port : Nat) :
    (linkUp s port).noticeSeq = if (getPort s port).retrain then s.noticeSeq + 1 else s.noticeSeq := by
  unfold linkUp
  simp only
  split
  · exact linkNotice_noticeSeq _ _ _ _
  · rfl

/-! #### Locks that are lost (R16, R23) -/

/-- The port of a link that retrains. -/
def retrained (tick : Nat) (k : Port) : Port :=
  { k with st := .lock, since := tick, attempts := 0, retrain := true, fecGood := 0, naks := [], out := k.out ++ [trainFlit 0 k.fibres] }

theorem retrain_active (hr : portRuns s port = true) (ha : (getPort s port).st = .active) :
    retrain s port = modPort s port (retrained (tickN s)) := by
  rw [retrain, if_neg (by simp [hr, ha])]
  exact modPort_congr (by simp [retrained, startTraining, flitOut, ha])

theorem retrain_inactive (ha : (getPort s port).st ≠ .active) : retrain s port = s := if_pos (by simp [ha])

theorem nakRateExceeded_over (h : 16 < ((getPort s port).naks.filter fun t => decide (tickN s < t + 500000)).length) :
    exec (.nakRateExceeded port) s = .next (retrain s port) := by
  rw [exec_nakRateExceeded, execNakRateExceeded]
  exact congrArg _ (if_pos h)

/-- The port of a link that has lost a fibre: it is mapped out. -/
def withoutFibre (fibre : Nat) (k : Port) : Port :=
  { k with locked := k.locked &&& ~~~(1#4 <<< fibre), fibres := fibresUsed (k.locked &&& ~~~(1#4 <<< fibre)) }

theorem fibreLockLoss_held {fibre : Nat} (hr : portRuns s port = true) (hf : fibre < 4) (hl : (getPort s port).locked.getLsbD fibre = true) :
    exec (.fibreLockLoss port fibre) s = .next (retrain (modPort s port (withoutFibre fibre)) port) := by
  have bit : ∀ i, i < 4 → BitVec.ofNat 4 (2 ^ i) = 1#4 <<< i := by decide
  have lost : (decide (fibre ≥ 4) || !portRuns s port || !(getPort s port).locked.getLsbD fibre) = false := by
    rw [hr, hl, decide_eq_false (Nat.not_le.mpr hf)]
    rfl
  simp only [exec_fibreLockLoss, execFibreLockLoss, lost, bit fibre hf, Bool.false_eq_true, if_false]
  rfl

theorem linkTrainingResults : Claim.LinkTrainingResults := by
  unfold Claim.LinkTrainingResults
  intro s port hp hd
  have runs := portRuns_of hp hd
  refine ⟨fun l hs ht => ⟨fun hn => ?held, fun hn => ?dark⟩, fun field hs hm hf => markersAligned_locks runs hs hm hf,
    fun hf => ⟨markersAligned_dark hf, fecCodewordCount_dark hf⟩, fun hs hg hf => fecCodewordCount_locks runs hs hg hf,
    fun f hs hx hg h7 h3 hf ht => ?versions, fun hs ht => ⟨fun hatt => ?again, fun hatt first => ?down⟩, fun fibre hf hl ha => ?mapped,
    fun ha => ⟨?fecLost, fun hn => ?naks, fun fibre hf hl => ?fibreLost⟩⟩
  case held =>
    have used := fibresUsed_some hn
    rw [lockHoldExpiry_holds runs hs ht (fibresUsed_eq_zero_iff l |>.not.mpr hn), used]
    rfl
  case dark =>
    have dark := lockHoldExpiry_none runs hs ht ((fibresUsed_eq_zero_iff l).mpr hn)
    refine ⟨dark, fun t h => ?_⟩
    obtain rfl : _ = t := Host.Outcome.next.inj (dark.symm.trans h)
    rw [linkDown_testBit _ hp, getPort_modPort_same]
    exact (portDown_iff _).mpr (.inr rfl)
  case versions =>
    have answer := trainingFlitReceive_version runs hs hx hg h7 h3 hf ht
    refine ⟨fun hlow hhigh => ⟨_, answer.trans (congrArg _ (if_pos ⟨hlow, hhigh⟩)), ?_⟩, fun apart hatt => ?_⟩
    · simp only [getPort_linkUp, linkUp_noticeSeq, getPort_modPort_same]
      exact ⟨rfl, rfl, rfl, rfl, fun h => if_pos h, fun h => if_neg (by simp [h])⟩
    · have again : (getPort (modPort s port fun k => k) port).attempts + 1 < 3 := by
        rw [getPort_modPort_same]
        exact hatt
      rw [answer, if_neg (by omega), attemptFailed_again again, modPort_modPort]
      rfl
  case again => rw [trainingTimeout_fails runs hs ht, attemptFailed_again hatt]; rfl
  case down => rw [trainingTimeout_fails runs hs ht, attemptFailed_down hatt first]; rfl
  case mapped =>
    have inactive : (getPort (modPort s port (withoutFibre fibre)) port).st ≠ .active := by
      rw [getPort_modPort_same]
      exact ha
    rw [fibreLockLoss_held runs hf hl, retrain_inactive inactive]
    exact congrArg _ (modPort_congr (by simp only [withoutFibre, fibresUsed_eq]))
  case fecLost => rw [exec_fecLockLoss, execFecLockLoss, retrain_active runs ha]; rfl
  case naks => rw [nakRateExceeded_over hn, retrain_active runs ha]; rfl
  case fibreLost =>
    have active : (getPort (modPort s port (withoutFibre fibre)) port).st = .active := by
      rw [getPort_modPort_same]
      exact ha
    refine ⟨_, fibreLockLoss_held runs hf hl, ?_⟩
    rw [retrain_active ((portRuns_modPort _ _ _ _).trans runs) active, modPort_modPort, getPort_modPort_same]
    exact ⟨rfl, rfl, rfl, rfl, rfl⟩

/-- Settles O57, from what ports send, take in and retrain on. -/
theorem linkResults : Obligations.LinkResults := ⟨linkTrafficResults, linkTrainingResults⟩

end Sys2Proof.Proofs
end

section
/-!
PROOFS. Window violations of vector instructions (R121, R137, R193, R195): an unreported late fault whose ring entry the
instruction would overwrite is reported first, so a register beyond the window does not always raise WINDOW.
-/

namespace Sys2Proof.Proofs

open Sys2Proof.Machine Sys2Proof.Laws

variable {s : State}

theorem exec_vmov (d a : BitVec 4) (k : BitVec 3) (z : BitVec 1) (l : BitVec 2) (s : State) :
    exec (.vmov d a k z l) s = execVmov d a k z l s := rfl

/-- The ring entry that the thread's next one would overwrite is faulted and unreported, and none is pending: the oldest late
fault of the ring is the report (R195). -/
theorem ringGate_reports {e : Env} {o n : Nat} {c : BitVec 8} {num : Word}
    (faulted : (e.sl.ring.any fun r => r.seq.toNat % 64 == e.sl.seq.toNat % 64 && isFaulted r.st) = true)
    (idle : ringPending e.sl = false) (first : oldest (covered (getSlot e.s e.t) true fun _ _ => false) = some (o, n, c, num)) :
    ringGate e = .error (.trapIn (modSlot e.s e.t fun sl => clearFault sl n num) 0x13 (efTval n c num.toNat) e.sl.pc) := by
  simp only [ringGate, faulted, idle, report, first, await, Bool.not_false, if_true]
  rfl

/-- A vector instruction makes that report before it checks a register field. -/
theorem vthr_reports {len : Word} {enc : BitVec 32} {vs : List Nat} {body : Env → State → State} {st : Stop}
    (hs : Claim.Runs s) (gate : ringGate (envOf len enc s) = .error st) :
    vthr len enc vs s body = .next (applyStop (envOf len enc s) st) := by
  obtain ⟨hu, hp⟩ := hs
  refine thr_stop hu hp ?_
  simp only [gate, Bind.bind, Except.bind]

/-- A slot with a window of eight registers and a trap handler, whose ring holds one entry, faulted with FORMAT and not yet
reported, in the place that its next entry takes. -/
def lateFaultSlot : Slot :=
  { uid := some 1, wsize := 0, csr := { trapvec := 0x100 }, ring := [{ st := .faulted 0x15 }] }

def lateFaultState : State := setSlot State.reset {} lateFaultSlot

theorem getSlot_lateFaultState : getSlot lateFaultState {} = lateFaultSlot := getSlot_setSlot_same _ _ _

/-- VMOV of v1 takes ENGINE_FAULT there, though v1 lies beyond the window. -/
theorem vmov_lateFaultState : exec (.vmov 1 0 0 0 0) lateFaultState =
    .next (takeTrap (modSlot lateFaultState {} fun sl => clearFault sl 8 0) {} 0x13 (efTval 8 0x15 0) 0) := by
  have gate : ringGate (envOf 4 (Enc.vmov 1 0 0 0 0) lateFaultState) = _ :=
    ringGate_reports (o := 0) (n := 8) (c := 0x15) (num := 0) (by decide) (by decide) (by decide)
  rw [exec_vmov, execVmov, vmove, vthr_reports ⟨rfl, rfl⟩ gate]
  rfl

/-- Refutes O18: VMOV of a vector register beyond the window reports an earlier late fault (cause 0x13) and not the window
violation (cause 0x02), where the ring entry that it would overwrite is faulted. -/
theorem not_registerRules : ¬ Obligations.RegisterRules := by
  unfold Obligations.RegisterRules Claim.WindowViolation
  rintro ⟨-, -, -, vector⟩
  have window := vector 1 0 0 0 0 lateFaultState ⟨rfl, rfl⟩ rfl (by decide) (.inl (by decide))
  rw [vmov_lateFaultState] at window
  have cause := congrArg (fun t => (getSlot t {}).csr.tcause) (Host.Outcome.next.inj window)
  exact absurd cause (by decide)

end Sys2Proof.Proofs
end

section
/-!
PROOFS. Arbitration, slack ticks, and the bridges between dies (R11 to R13, R36 to R40, R45).
-/

namespace Sys2Proof.Proofs

open Sys2Proof.Machine Sys2Proof.Laws

variable {s : State}

/-! ### The arms of these device steps -/

theorem exec_slackTick (s : State) : exec .slackTick s = execSlackTick s := rfl
theorem exec_packetLate (k i : Nat) (s : State) : exec (.packetLate k i) s = execPacketLate k i s := rfl
theorem exec_bridgeForward (die port chan : Nat) (s : State) : exec (.bridgeForward die port chan) s = execBridgeForward die port chan s := rfl
theorem exec_directPathForward (die inn port : Nat) (s : State) :
    exec (.directPathForward die inn port) s = execDirectPathForward die inn port s := rfl

/-! ### Arbitration (R39, R40) -/

/-- Whether the arbiter may serve the packet at a place: it is the head of its pair, and admitted. -/
def candidate (ok : Packet → Bool) (q : List Packet) (e : Packet × Nat) : Bool := isHead q e.2 e.1 && ok e.1

/-- The better of the arbiter's best so far and the packet at a place; the earlier one on a tie. -/
def arbStep (tick : Nat) (ok : Packet → Bool) (q : List Packet) (best : Option (Nat × Nat)) (e : Packet × Nat) : Option (Nat × Nat) :=
  if candidate ok q e then
    match best with
    | some (_, r0) => if effRank tick q e.1 < r0 then some (e.2, effRank tick q e.1) else best
    | none => some (e.2, effRank tick q e.1)
  else best

theorem arb_eq_foldl (tick : Nat) (ok : Packet → Bool) (q : List Packet) : arb tick ok q = q.zipIdx.foldl (arbStep tick ok q) none := rfl

/-- Entry (i, r) is the arbiter's choice among the packets of l: a candidate of rank r, none of a lesser rank beside it and none
of the same rank before it. -/
def IsBest (tick : Nat) (ok : Packet → Bool) (q : List Packet) (l : List (Packet × Nat)) (i r : Nat) : Prop :=
  (∃ p, (p, i) ∈ l ∧ candidate ok q (p, i) = true ∧ r = effRank tick q p) ∧
    ∀ e ∈ l, candidate ok q e = true → r < effRank tick q e.1 ∨ (r = effRank tick q e.1 ∧ i ≤ e.2)

/-- What the arbiter has found in l: its choice, or nothing where l has no candidate. -/
def Found (tick : Nat) (ok : Packet → Bool) (q : List Packet) (l : List (Packet × Nat)) : Option (Nat × Nat) → Prop
  | some (i, r) => IsBest tick ok q l i r
  | none => ∀ e ∈ l, candidate ok q e = false

variable {tick : Nat} {ok : Packet → Bool} {q : List Packet} {l : List (Packet × Nat)}

theorem arbStep_other {e : Packet × Nat} (h : candidate ok q e = false) (best : Option (Nat × Nat)) : arbStep tick ok q best e = best := by
  simp [arbStep, h]

/-- One more packet, at a later place than those before it. -/
theorem Found.step {best : Option (Nat × Nat)} {e : Packet × Nat} (h : Found tick ok q l best) (later : ∀ x ∈ l, x.2 < e.2) :
    Found tick ok q (l ++ [e]) (arbStep tick ok q best e) := by
  cases hc : candidate ok q e with
  | false =>
    rw [arbStep_other hc]
    match best, h with
    | none, h =>
      intro x hx
      rcases List.mem_append.mp hx with hx | hx
      · exact h x hx
      · rwa [List.mem_singleton.mp hx]
    | some (i, r), ⟨⟨p, hp, hpc, hr⟩, least⟩ =>
      refine ⟨⟨p, List.mem_append_left _ hp, hpc, hr⟩, fun x hx hxc => ?_⟩
      rcases List.mem_append.mp hx with hx | hx
      · exact least x hx hxc
      · rw [List.mem_singleton.mp hx, hc] at hxc
        cases hxc
  | true =>
    have newest : ∃ p, (p, e.2) ∈ l ++ [e] ∧ candidate ok q (p, e.2) = true ∧ effRank tick q e.1 = effRank tick q p := ⟨e.1, by simp, hc, rfl⟩
    match best, h with
    | none, h =>
      simp only [arbStep, hc, if_true]
      refine ⟨newest, fun x hx hxc => ?_⟩
      rcases List.mem_append.mp hx with hx | hx
      · rw [h x hx] at hxc
        cases hxc
      · rw [List.mem_singleton.mp hx]
        exact .inr ⟨rfl, le_rfl⟩
    | some (i, r), ⟨⟨p, hp, hpc, hr⟩, least⟩ =>
      simp only [arbStep, hc, if_true]
      split
      next lower =>
        refine ⟨newest, fun x hx hxc => ?_⟩
        rcases List.mem_append.mp hx with hx | hx
        · rcases least x hx hxc with h | ⟨h, -⟩ <;> exact .inl (by omega)
        · rw [List.mem_singleton.mp hx]
          exact .inr ⟨rfl, le_rfl⟩
      next notLower =>
        refine ⟨⟨p, List.mem_append_left _ hp, hpc, hr⟩, fun x hx hxc => ?_⟩
        rcases List.mem_append.mp hx with hx | hx
        · exact least x hx hxc
        · have := later _ hp
          rw [List.mem_singleton.mp hx]
          omega

theorem Found.foldl (l' : List (Packet × Nat)) {best : Option (Nat × Nat)} (h : Found tick ok q l best)
    (rising : (l ++ l').Pairwise fun a b => a.2 < b.2) : Found tick ok q (l ++ l') (l'.foldl (arbStep tick ok q) best) := by
  induction l' generalizing l best with
  | nil => simpa using h
  | cons e r ih =>
    have later : ∀ x ∈ l, x.2 < e.2 := fun x hx => (List.pairwise_append.mp rising).2.2 x hx e (by simp)
    have next := ih (h.step later) (by simpa using rising)
    simpa using next

theorem zipIdx_rising (q : List Packet) : q.zipIdx.Pairwise fun a b => a.2 < b.2 := by
  have h : (q.zipIdx.map Prod.snd).Pairwise (· < ·) := by
    rw [List.zipIdx_map_snd]
    exact List.pairwise_lt_range'
  exact List.pairwise_map.mp h

theorem arb_found (tick : Nat) (ok : Packet → Bool) (q : List Packet) : Found tick ok q q.zipIdx (arb tick ok q) := by
  rw [arb_eq_foldl]
  exact Found.foldl (l := []) _ (by simp [Found]) (zipIdx_rising q)

theorem candidate_iff (p : Packet) (i : Nat) : candidate ok q (p, i) = true ↔ isHead q i p = true ∧ ok p = true := by
  simp [candidate]

theorem arbitrationRule : Claim.ArbitrationRule := by
  unfold Claim.ArbitrationRule
  intro tick ok q
  have found := arb_found tick ok q
  refine ⟨fun i r h => ?_, fun j p hp hh ha h => ?_⟩
  · rw [h] at found
    obtain ⟨⟨p, hp, hc, hr⟩, least⟩ := found
    obtain ⟨hh, ha⟩ := (candidate_iff p i).mp hc
    exact ⟨p, List.mem_zipIdx_iff_getElem?.mp hp, hh, ha, hr, fun j p' hp' hh' ha' =>
      least (p', j) (List.mem_zipIdx_iff_getElem?.mpr hp') ((candidate_iff p' j).mpr ⟨hh', ha'⟩)⟩
  · rw [h] at found
    have := found (p, j) (List.mem_zipIdx_iff_getElem?.mpr hp)
    rw [(candidate_iff p j).mpr ⟨hh, ha⟩] at this
    cases this

/-! ### Slack ticks (R36 to R38) -/

/-- The lowest-numbered die that is not in reset drives the tick count. -/
theorem pickDriver_first {d : Nat} (h4 : d < 4) (hd : (getDie s d).inReset = false) (lower : ∀ e, e < d → (getDie s e).inReset = true) :
    pickDriver s = { s with driver := d } := by
  have first : (List.range 4).find? (fun d => !(getDie s d).inReset) = some d := by
    rw [List.find?_range_eq_some]
    exact ⟨by simp [hd], by simpa using h4, fun e he => by simp [lower e he]⟩
  simp only [pickDriver, first]

theorem modAt_eq_set {α : Type} {l : List α} {i : Nat} {a : α} (h : l[i]? = some a) (f : α → α) : modAt l i f = l.set i (f a) := by
  obtain ⟨hi, -⟩ := List.getElem?_eq_some_iff.mp h
  simp only [modAt, h, List.set_eq_take_append_cons_drop, if_pos hi]

/-- A packet that is not late becomes late with the tick at which the ticks spent in its queue used up its slack (R38). -/
theorem lateAge_eq (tick : Nat) (p : Packet) :
    lateAge tick p = if p.late.isSome then p.late else if p.slack ≤ tick - p.since then some (p.since + p.slack) else none := by
  unfold lateAge
  split
  next h => simp [h]
  next h => simp [h, slackLeft, Nat.sub_eq_zero_iff_le]

theorem tickResults : Claim.TickResults := by
  unfold Claim.TickResults
  intro s
  refine ⟨fun d h4 power hd lower => ?_, fun h => ?_, fun k i p hp => ?_⟩
  · have runs : ¬ (!s.power.supplyOk || (List.range 4).all fun d => (getDie s d).inReset) = true := by
      simp only [power, Bool.not_true, Bool.false_or, List.all_eq_true, List.mem_range, not_forall]
      exact ⟨d, h4, by simp [hd]⟩
    rw [exec_slackTick, execSlackTick, if_neg runs, pickDriver_first h4 hd lower]
  · have still : (!s.power.supplyOk || (List.range 4).all fun d => (getDie s d).inReset) = true := by
      rcases h with h | h
      · simp [h]
      · simpa using .inr h
    rw [exec_slackTick, execSlackTick, if_pos still]
  · rw [exec_packetLate, execPacketLate, modAt_eq_set hp, lateAge_eq]
    rfl

/-! ### Bridges (R11 to R13, R45) -/

variable {die port c net i r : Nat} {p : Packet}

/-- The head that ranks first of two queues, the response network first on a tie. -/
theorem rankTwo_first {a : Nat → Option (Nat × Nat)} (hn : net < 2) (h : a net = some (i, r))
    (first : ∀ j q, a (1 - net) = some (j, q) → if net = 1 then r ≤ q else r < q) : rankTwo (a 0) (a 1) = some (net, i, r) := by
  match net, hn with
  | 0, _ =>
    cases ho : a 1 with
    | none => rw [h]; rfl
    | some x =>
      have := first x.1 x.2 ho
      rw [h]
      exact if_pos this
  | 1, _ =>
    cases ho : a 0 with
    | none => rw [h]; rfl
    | some x =>
      have : r ≤ x.2 := first x.1 x.2 ho
      rw [h]
      exact if_neg (Nat.not_lt.mpr this)

theorem leaveQ_some {k : Nat} (h : (getQ s k)[i]? = some p) : leaveQ s k i = some (depart (tickN s) p, setQ s k (delAt (getQ s k) i)) := by
  simp [leaveQ, h]

/-- The writer of a cluster sends what ranks first on its bridge channel to the port's queue. -/
theorem bridgeForward_channel (hd : die < 4) (hport : port < 2) (hr : dieRuns s die = true) (hc : c < 16)
    (pick : rankTwo (arb (tickN s) (fun _ => true) (getQ s (qk 1 (bridgeChan die port c) c 0)))
      (arb (tickN s) (fun _ => true) (getQ s (qk 1 (bridgeChan die port c) c 1))) = some (net, i, r))
    (hp : (getQ s (qk 1 (bridgeChan die port c) c net))[i]? = some p) :
    exec (.bridgeForward die port c) s = .next (pushQ (setQ s (qk 1 (bridgeChan die port c) c net)
      (delAt (getQ s (qk 1 (bridgeChan die port c) c net)) i)) (qk 2 die port net) (depart (tickN s) p)) := by
  have guard : ¬ (decide (die ≥ 4) || decide (port ≥ 2) || decide (c > 16) || !dieRuns s die) = true := by
    simp [hr]
    omega
  rw [exec_bridgeForward, execBridgeForward, if_neg guard, if_pos hc, chanForward]
  simp only [pick, leaveQ_some hp]

/-- A bridge port serves what ranks first of its queues: it crosses, or is answered when the die beyond is in reset. -/
theorem bridgeForward_port (hd : die < 4) (hport : port < 2) (hr : dieRuns s die = true)
    (pick : rankTwo (arb (tickN s) (mayCross s (bridgePeer die port)) (getQ s (qk 2 die port 0)))
      (arb (tickN s) (mayCross s (bridgePeer die port)) (getQ s (qk 2 die port 1))) = some (net, i, r))
    (hp : (getQ s (qk 2 die port net))[i]? = some p) :
    exec (.bridgeForward die port 16) s = .next (
      if (getDie s (bridgePeer die port)).inReset && !isDeath p then
        answerLost (setQ s (qk 2 die port net) (delAt (getQ s (qk 2 die port net)) i)) (depart (tickN s) p)
      else bridgeArrive (setQ s (qk 2 die port net) (delAt (getQ s (qk 2 die port net)) i)) (bridgePeer die port) port net (depart (tickN s) p)) := by
  have guard : ¬ (decide (die ≥ 4) || decide (port ≥ 2) || decide (16 > 16) || !dieRuns s die) = true := by
    simp [hr]
    omega
  rw [exec_bridgeForward, execBridgeForward, if_neg guard, if_neg (by decide), bridgeCross]
  simp only [pick, leaveQ_some hp]
  rfl

/-- The head that the direct path serves: the least rank of both networks, the earlier arrival on a tie. -/
theorem rankEarly_first {k : Nat → Nat} (hn : net < 2) (h : arb (tickN s) (fun _ => true) (getQ s (k net)) = some (i, r))
    (hp : (getQ s (k net))[i]? = some p)
    (first : ∀ j q y, arb (tickN s) (fun _ => true) (getQ s (k (1 - net))) = some (j, q) → (getQ s (k (1 - net)))[j]? = some y →
      r < q ∨ (r = q ∧ if net = 0 then p.since ≤ y.since else p.since < y.since)) : rankEarly s k = some (net, i, p) := by
  match net, hn with
  | 0, _ =>
    cases ho : arb (tickN s) (fun _ => true) (getQ s (k 1)) with
    | none => simp [rankEarly, h, hp, ho]
    | some x =>
      cases hy : (getQ s (k 1))[x.1]? with
      | none => simp [rankEarly, h, hp, ho, hy]
      | some y =>
        have later : ¬ (x.2 < r ∨ (x.2 = r ∧ y.since < p.since)) := by
          rcases first x.1 x.2 y ho hy with h | ⟨h, h'⟩
          · omega
          · have : p.since ≤ y.since := h'
            omega
        simp [rankEarly, h, hp, ho, hy, later]
  | 1, _ =>
    cases ho : arb (tickN s) (fun _ => true) (getQ s (k 0)) with
    | none => simp [rankEarly, h, hp, ho]
    | some x =>
      cases hy : (getQ s (k 0))[x.1]? with
      | none => simp [rankEarly, h, hp, ho, hy]
      | some y =>
        have sooner : r < x.2 ∨ (r = x.2 ∧ p.since < y.since) := first x.1 x.2 y ho hy
        simp [rankEarly, h, hp, ho, hy, sooner]

theorem directPathForward_serves (hd : die < 4) (hport : port < 2) (hr : dieRuns s die = true)
    (pick : rankEarly s (qk 3 die port) = some (net, i, p)) (hp : (getQ s (qk 3 die port net))[i]? = some p) :
    exec (.directPathForward die (1 - port) port) s = .next (pushQ (setQ s (qk 3 die port net) (delAt (getQ s (qk 3 die port net)) i))
      (qk 2 die port net) (depart (tickN s) p)) := by
  have guard : ¬ (decide (die ≥ 4) || decide (port ≥ 2) || 1 - port + port != 1 || !dieRuns s die) = true := by
    simp [hr]
    omega
  rw [exec_directPathForward, execDirectPathForward, if_neg guard]
  simp only [pick, leaveQ_some hp]

theorem bridgeResults : Claim.BridgeResults := by
  unfold Claim.BridgeResults
  intro s die port net i r p hd hport hn hr
  refine ⟨fun c hc ⟨h, hp, first⟩ => ?_, fun ⟨h, hp, first⟩ => ?_, fun h hp first =>
    directPathForward_serves hd hport hr (rankEarly_first hn h hp first) hp⟩
  · exact bridgeForward_channel hd hport hr hc
      (rankTwo_first (a := fun net => arb (tickN s) (fun _ => true) (getQ s (qk 1 (bridgeChan die port c) c net))) hn h first) hp
  · have served := bridgeForward_port hd hport hr
      (rankTwo_first (a := fun net => arb (tickN s) (mayCross s (bridgePeer die port)) (getQ s (qk 2 die port net))) hn h first) hp
    refine ⟨fun crosses => ?_, fun closed hdeath => ?_⟩
    · have goes : ¬ ((getDie s (bridgePeer die port)).inReset && !isDeath p) = true := by
        rcases crosses with h | h
        · simp [show (getDie s (bridgePeer die port)).inReset = false from h]
        · simp [h]
      rw [if_neg goes] at served
      exact ⟨fun here => served.trans (congrArg _ (if_pos here)), fun beyond => served.trans (congrArg _ (if_neg beyond))⟩
    · have lost : ((getDie s (bridgePeer die port)).inReset && !isDeath p) = true := by
        simp [show (getDie s (bridgePeer die port)).inReset = true from closed, hdeath]
      exact served.trans (congrArg _ (if_pos lost))

/-- Settles O46, from the arbiter's choice, what a tick counts and what bridges send on. -/
theorem fabricTimeResults : Obligations.FabricTimeResults := ⟨arbitrationRule, tickResults, bridgeResults⟩

end Sys2Proof.Proofs
end

section
/-!
PROOFS. Homes: what enters a queue, what is served, and what memory operations do there (R7, R52, R53, R203, R210, R303,
R308 to R313).
-/

namespace Sys2Proof.Proofs

open Sys2Proof.Machine Sys2Proof.Laws

variable {s : State} {unit i : Nat} {p : Packet}

/-! ### The arms of these device steps -/

theorem exec_homeEnqueue (unit net : Nat) (s : State) : exec (.homeEnqueue unit net) s = execHomeEnqueue unit net s := rfl
theorem exec_replayTimeout (unit : Nat) (s : State) : exec (.replayTimeout unit) s = execReplayTimeout unit s := rfl

/-- The rows of the step table that serve a home's queue, with the kind of request that each performs. -/
def servingRows (unit : Nat) : List (Instr × Nat) :=
  [(.homePerform unit, 0), (.syncAccessAtOwner unit, 1), (.withdrawal unit, 2), (.barArrival unit, 3), (.parkAtHome unit, 4), (.lnextClaim unit, 5),
   (.joinUpdate unit, 6), (.resumeCellOp unit, 7), (.beadRequest unit, 8), (.sparkClaim unit, 9), (.beadCompletion unit, 10),
   (.beadCompletionPoisoned unit, 11), (.beadEngineFault unit, 12), (.operandFailure unit, 13), (.deathNotice unit, 14)]

theorem exec_servingRow {r : Instr × Nat} (h : r ∈ servingRows unit) (s : State) : exec r.1 s = .next (homeServe s unit r.2) := by
  simp only [servingRows, List.mem_cons, List.not_mem_nil, or_false] at h
  rcases h with rfl | rfl | rfl | rfl | rfl | rfl | rfl | rfl | rfl | rfl | rfl | rfl | rfl | rfl | rfl <;> rfl

/-! ### Service (R7, R52, R53) -/

/-- The entry that the arbiter picks leaves the queue, and its members are performed one by one. -/
theorem homeServe_picked {kind : Nat} (hr : dieRuns s (unitDie unit) = true) (pick : homeArb s unit = some i)
    (hp : (getQ s (qk 5 unit 0 0))[i]? = some p) (hk : homeKind p.body = some kind) :
    homeServe s unit kind = afterHome ((members p).foldl (fun s m => perform s unit m)
      (setQ s (qk 5 unit 0 0) (delAt (getQ s (qk 5 unit 0 0)) i))) unit := by
  simp [homeServe, hr, pick, hp, hk]

/-! ### Arrivals (R52, R207, R210) -/

/-- Whether a request that has arrived at a place of a home's arrivals is one that may enter: a pair head that a home performs,
and on a die in reset no death notice. -/
def mayEnter (s : State) (unit : Nat) (e : Packet × Nat) : Bool :=
  isHead (getQ s (qk 4 unit 0 0)) e.2 e.1 && (homeKind e.1.body).isSome && !((getDie s (unitDie unit)).inReset && isDeath e.1)

/-- The arrivals of a unit without the packet at a place. -/
def arrivedOff (s : State) (unit i : Nat) : State := setQ s (qk 4 unit 0 0) (delAt (getQ s (qk 4 unit 0 0)) i)

theorem getElem?_of_find?_zipIdx {α : Type} {l : List α} {f : α × Nat → Bool} {a : α} (h : l.zipIdx.find? f = some (a, i)) : l[i]? = some a :=
  List.mem_zipIdx_iff_getElem?.mp (List.mem_of_find?_eq_some h)

/-- HOME_ENQUEUE takes the first request that may enter: it is answered on a die in reset, and enters a queue with room. -/
theorem homeEnqueue_takes (h : (getQ s (qk 4 unit 0 0)).zipIdx.find? (mayEnter s unit) = some (p, i))
    (hr : (getDie s (unitDie unit)).inReset = true ∨ dieRuns s (unitDie unit) = true) :
    exec (.homeEnqueue unit 0) s = .next (
      if (getDie s (unitDie unit)).inReset then answerLost (arrivedOff s unit i) (depart (tickN s) p)
      else if (getQ s (qk 5 unit 0 0)).length ≥ 32 then s
      else enterHome (arrivalNote (arrivedOff s unit i) unit p.cls (pktSrc s (depart (tickN s) p)) (bodyAddr p.body) (retUrgent s (bodyRet p.body)))
        unit (depart (tickN s) p)) := by
  have works : ¬ (!(getDie s (unitDie unit)).inReset && !dieRuns s (unitDie unit)) = true := by
    rcases hr with h | h <;> simp [h]
  have pick : ((getQ s (qk 4 unit 0 0)).zipIdx.find? (mayEnter s unit)).map (·.2) = some i := by rw [h]; rfl
  unfold mayEnter at pick
  rw [exec_homeEnqueue, execHomeEnqueue]
  simp only [bne_self_eq_false, Bool.false_eq_true, if_false, if_neg works, pick, getElem?_of_find?_zipIdx h]
  rfl

/-- Outside replay nothing is noted of an arrival. -/
theorem arrivalNote_untraced {cls src addr : Nat} {urgent : Bool} (h : (getFn s (unitFn s unit)).replay = false) :
    arrivalNote s unit cls src addr urgent = s := by
  simp [arrivalNote, h]

theorem joinReplay_untraced (e p : Packet) (h : (getFn s (unitFn s unit)).replay = false) : joinReplay s unit e p = true := by
  simp [joinReplay, h]

/-- A request as it stands in the queue of the home that it enters. -/
def entered (s : State) (unit : Nat) (p : Packet) : Packet := { p with since := tickN s, arr := (getHome s unit).arrivals }

/-- The arrivals of a home counted. -/
def arrivalCounted (s : State) (unit : Nat) : State := modHome s unit fun h => { h with arrivals := (getHome s unit).arrivals + 1 }

/-- A request that combines with no entry goes to the end of the queue. -/
theorem enterHome_alone (h : joinAt (getQ s (qk 5 unit 0 0)) (entered s unit p) = none) :
    enterHome s unit p = setQ (arrivalCounted s unit) (qk 5 unit 0 0) (getQ s (qk 5 unit 0 0) ++ [entered s unit p]) := by
  unfold entered at h
  simp only [enterHome, h]
  rfl

/-- A request that combines with an entry takes it to the end of the queue, as its last member. -/
theorem enterHome_joins {j : Nat} {e : Packet} (h : joinAt (getQ s (qk 5 unit 0 0)) (entered s unit p) = some j)
    (he : (getQ s (qk 5 unit 0 0))[j]? = some e) (hr : (getFn s (unitFn s unit)).replay = false) :
    enterHome s unit p = setQ (arrivalCounted s unit) (qk 5 unit 0 0)
      (delAt (getQ s (qk 5 unit 0 0)) j ++ [{ entered s unit p with arr := e.arr, peers := e.peers ++ [memberOf e] }]) := by
  unfold entered at h
  simp only [enterHome, h, he, joinReplay_untraced _ _ hr, if_true]
  rfl

/-! ### Replay that waits too long (R210) -/

/-- A record that no waiting request matches, and which has been due for 65,536 ticks. -/
theorem overdue_head {j c sr a : Nat} (hl : (getHome s unit).lastRep + 65536 ≤ tickN s)
    (none_waits : ∀ p ∈ waitingAt s unit, ¬ (p.cls = c ∧ pktSrc s p = sr ∧ agentAddr s unit p = some a))
    (due : replayHead s unit 0 = some (j, c, sr, a) ∨ (replayHead s unit 0 = none ∧ (∃ p ∈ waitingAt s unit, p.cls = 5) ∧ replayHead s unit 5 = some (j, c, sr, a) ∧
      (getFn s (unitFn s unit)).rep5At + 65536 ≤ tickN s)) : overdue s unit = some (j, c, sr, a) := by
  have absent : (waitingAt s unit).any (fun p => agentAddr s unit p == some a && p.cls == c && pktSrc s p == sr) = false := by
    rw [List.any_eq_false]
    intro p hp h
    simp only [Bool.and_eq_true, beq_iff_eq] at h
    exact none_waits p hp ⟨h.1.2, h.2, h.1.1⟩
  rcases due with due | ⟨noHead, coord, due, h5⟩
  · have long : 0 + 65536 ≤ tickN s := by omega
    simp [overdue, due, Option.filter, hl, long, absent]
  · have waits : (waitingAt s unit).any (fun p => p.cls == 5) = true := by
      obtain ⟨p, hp, h⟩ := coord
      exact List.any_eq_true.mpr ⟨p, hp, by simp [h]⟩
    simp [overdue, noHead, due, Option.filter, hl, h5, absent, waits]

theorem replayTimeout_diverges {j c sr a : Nat} (hr : (getFn s (unitFn s unit)).replay = true) (hf : (getHome s unit).free = false)
    (due : overdue s unit = some (j, c, sr, a)) :
    exec (.replayTimeout unit) s = .next (afterHome (diverge s unit a c sr) unit) := by
  rw [exec_replayTimeout, execReplayTimeout, if_neg (by simp [hr, hf]), due]

/-- A home that is led out of its trace performs freely, and its partition's divergence flag is set. -/
theorem diverge_flags (s : State) (unit addr cls src : Nat) :
    (getFn (diverge s unit addr cls src) (unitFn s unit)).diverged = true ∧ (getHome (diverge s unit addr cls src) unit).free = true := by
  unfold diverge
  refine ⟨?_, by rw [getHome_modHome_same]⟩
  rw [getFn, modHome_fns]
  exact congrArg Fn.diverged (getFn_modFn_same _ _ _)

/-- On a die that works, outside replay, a request enters a queue with room as it departs. -/
theorem homeEnqueue_enters (h : (getQ s (qk 4 unit 0 0)).zipIdx.find? (mayEnter s unit) = some (p, i))
    (runs : dieRuns s (unitDie unit) = true) (room : (getQ s (qk 5 unit 0 0)).length < 32) (hr : (getFn s (unitFn s unit)).replay = false) :
    exec (.homeEnqueue unit 0) s = .next (enterHome (arrivedOff s unit i) unit (depart (tickN s) p)) := by
  have up : (getDie s (unitDie unit)).inReset = false := by
    simp only [dieRuns, Bool.and_eq_true, Bool.not_eq_true'] at runs
    exact runs.2
  rw [homeEnqueue_takes h (.inr runs), if_neg (by simp [up]), if_neg (by omega), arrivalNote_untraced (s := arrivedOff s unit i) hr]

/-- The queue that requests enter is not the arrivals. -/
theorem getQ_arrivedOff (s : State) (unit i : Nat) : getQ (arrivedOff s unit i) (qk 5 unit 0 0) = getQ s (qk 5 unit 0 0) :=
  getQ_setQ_other _ _ (by unfold qk; omega)

theorem homeServes : Claim.HomeServes := by
  unfold Claim.HomeServes
  intro unit s
  refine ⟨fun r hr i p runs pick hp hk => ?_, fun i p h => ⟨fun reset => ?_, fun runs room untraced => ⟨fun alone => ?_, fun j e joins he => ?_⟩⟩,
    fun j c sr a hr hf hl absent due => ?_⟩
  · rw [exec_servingRow hr, homeServe_picked runs pick hp hk]
    rfl
  · exact (homeEnqueue_takes h (.inl reset)).trans (congrArg _ (if_pos reset))
  · have last := enterHome_alone (s := arrivedOff s unit i) (unit := unit) (p := depart (tickN s) p) (by rw [getQ_arrivedOff]; exact alone)
    rw [homeEnqueue_enters h runs room untraced, last, getQ_arrivedOff]
    rfl
  · have joined := enterHome_joins (s := arrivedOff s unit i) (unit := unit) (p := depart (tickN s) p) (by rw [getQ_arrivedOff]; exact joins)
      (by rw [getQ_arrivedOff]; exact he) untraced
    rw [homeEnqueue_enters h runs room untraced, joined, getQ_arrivedOff]
    rfl
  · exact ⟨replayTimeout_diverges hr hf (overdue_head hl absent due), diverge_flags s unit a c sr⟩

/-! ### Memory operations (R203, R303, R308 to R313) -/

variable {r : Ret}

theorem perform_load {k n : Nat} (hb : p.body = .load k n r) :
    perform s unit p = reply (loadAt (noteOf s unit p) k n r).1 16 unit p r (loadAt (noteOf s unit p) k n r).2 := by
  simp only [perform, memPerform, hb]

/-- A load that its thread waits for answers the bytes, or the fault of a word whose check fails or that carries a mark (R203). -/
theorem loadAt_good {k n u : Nat} {t : Tid} {va : Word} (hn : n ≤ 8) (h : eccStatus s k n = 0) :
    loadAt s k n (.thread t u va) = (s, .words [wd (memRead s.mem k n)]) := by
  simp only [loadAt, h, if_pos hn]

theorem loadAt_failing {k n u : Nat} {t : Tid} {va : Word} (h : eccStatus s k n = 1) :
    loadAt s k n (.thread t u va) = (markRead s k n, .fault 0x18 va) := by
  simp only [loadAt, h, retVa]

theorem loadAt_marked {k n u : Nat} {t : Tid} {va : Word} (h : eccStatus s k n = 2) : loadAt s k n (.thread t u va) = (s, .fault 0x14 va) := by
  simp only [loadAt, h, retVa]

theorem perform_store {c : List Host.Cell} (hb : p.body = .store c r) :
    perform s unit p = reply (storeAtHome (noteOf s unit p) c) 17 unit p r .ok := by
  simp only [perform, memPerform, hb]

theorem perform_put {c : List Host.Cell} {m : List Nat} (hb : p.body = .put c m r) :
    perform s unit p = reply (putAtHome (noteOf s unit p) c m) 17 unit p r .ok := by
  simp only [perform, memPerform, hb]

/-- An atomic: its result is the reply in class 16, in the state that it leaves. -/
theorem perform_amo {fn : BitVec 4} {k : Nat} {y x : Word} (hb : p.body = .amo fn k y x r) :
    perform s unit p = reply (amoAt (noteOf s unit p) fn.toNat k y x (retVa r)).1 16 unit p r (amoAt (noteOf s unit p) fn.toNat k y x (retVa r)).2 := by
  simp only [perform, memPerform, hb]

/-- The atomics on data but the float additions act on 64-bit words. -/
theorem amoBytes_data {fn : Nat} (hf : fn < 10) : amoBytes fn = 8 := if_neg (by simp; omega)

/-- An atomic on data writes the function of the old value and answers the old value, where the word reads well (R312, R313). -/
theorem amoAt_good {fn k : Nat} {y x va : Word} (hf : fn < 10) (h : eccStatus s k 8 = 0) :
    amoAt s fn k y x va = (homeWrite s k 8 (amoNew fn (wd (memRead s.mem k 8)) y x).toNat, .words [wd (memRead s.mem k 8)]) := by
  rw [amoAt, if_neg (by omega), amoBytes_data hf]
  simp only [h]

theorem amoAt_failing {fn k : Nat} {y x va : Word} (hf : fn < 10) (h : eccStatus s k 8 = 1) :
    amoAt s fn k y x va = (markRead s k 8, .fault 0x18 va) := by
  rw [amoAt, if_neg (by omega), amoBytes_data hf]
  simp only [h]

theorem amoAt_marked {fn k : Nat} {y x va : Word} (hf : fn < 10) (h : eccStatus s k 8 = 2) : amoAt s fn k y x va = (s, .fault 0x14 va) := by
  rw [amoAt, if_neg (by omega), amoBytes_data hf]
  simp only [h]

/-- An atomic on full/empty bits answers the old bit, and changes nothing or sets the bit (R312). -/
theorem amoAt_bits {fn : Nat} (hf : 12 ≤ fn) (s : State) (k : Nat) (y x va : Word) :
    amoAt s fn k y x va = (if fn = 12 then s else setFullAt s k 4 (decide (fn = 13)), .words [wd (b2n (feGet s k))]) := by
  rw [amoAt, if_pos hf]

/-- When a synchronising access acts (R308). -/
theorem syncHolds_full {op : SyncOp} (h : op.kind ≤ 1) : syncHolds s op = true ↔ ∀ w ∈ feWords op.key op.bytes, w ∈ s.full := by
  have : op.kind = 0 ∨ op.kind = 1 := by omega
  rcases this with h | h <;> simp [syncHolds, h]

theorem syncHolds_empty {op : SyncOp} (h : op.kind = 2) : syncHolds s op = true ↔ ∀ w ∈ feWords op.key op.bytes, w ∉ s.full := by
  simp [syncHolds, h]

/-- A synchronising access whose condition fails parks, until its limit (R308, R311). -/
theorem perform_sync_parks {op : SyncOp} (hb : p.body = .sync op) (h : ¬ syncHolds s op = true) :
    perform s unit p = parkAt s unit p (.sync op) op.key (some op.limit) := by
  simp only [perform, hb, syncPerform, if_neg h]

theorem perform_sync_acts {op : SyncOp} (hb : p.body = .sync op) (h : syncHolds s op = true) :
    perform s unit p = reply (syncAct (noteOf s unit p) op).1 (syncCls op) unit p op.ret (syncAct (noteOf s unit p) op).2 := by
  simp only [perform, hb, syncPerform, if_pos h]

/-- LDS of words that read well answers them, and LDS.clr empties them. -/
theorem syncAct_reads {op : SyncOp} (h : op.kind ≤ 1) (he : eccStatus s op.key op.bytes = 0) :
    syncAct s op = (if op.kind = 1 then setFull s op.key op.bytes false else s, .words [wd (memRead s.mem op.key op.bytes)]) := by
  have : op.kind = 0 ∨ op.kind = 1 := by omega
  rcases this with h | h <;> simp [syncAct, h, he]

/-- STS and STSF write and fill. -/
theorem syncAct_writes {op : SyncOp} (h : op.kind = 2 ∨ op.kind = 3) :
    syncAct s op = (setFull (homeWrite s op.key op.bytes op.data.toNat) op.key op.bytes true, .ok) := by
  rcases h with h | h <;> simp [syncAct, h]

/-- The access or arrival that a thread has parked from one core. -/
def parkedBy (src : Nat) (r : Ret) (x : Parked) : Bool :=
  (match x.kind with | .park _ _ _ _ _ => false | _ => true) && x.src == src && (retUid r).isSome && parkedUid x == retUid r

theorem perform_withdraw {k : Nat} {x : Parked} (hb : p.body = .withdraw k r)
    (hx : (getHome (noteOf s unit p) unit).parked.find? (parkedBy p.src r) = some x) :
    perform s unit p = reply (unpark (noteOf s unit p) unit x) 16 unit p r .withdrawn := by
  have found : perform s unit p = match (getHome (noteOf s unit p) unit).parked.find? (parkedBy p.src r) with
      | some x => reply (unpark (noteOf s unit p) unit x) 16 unit p r .withdrawn
      | none => noteOf s unit p := by
    simp only [perform, hb]
    rfl
  rw [found, hx]

/-- LNEXT claims the next chunk of a nest counter that reads well (R93). -/
theorem perform_lnext {k n mc parts : Nat} (hb : p.body = .lnext k n mc parts r) (he : eccStatus (noteOf s unit p) k 8 = 0) :
    let c := memRead (noteOf s unit p).mem k 8
    let chunk := min (n - c) (max (max mc 1) (cdiv (n - c) parts))
    perform s unit p = reply (homeWrite (noteOf s unit p) k 8 (c + chunk)) 16 unit p r (.words [wd c, wd chunk]) := by
  simp only [perform, hb, lnextAt, he]

theorem homeMemory : Claim.HomeMemory := by
  unfold Claim.HomeMemory
  intro s unit p
  refine ⟨fun k n t u va hb hn => ?_, fun c r => perform_store, fun c m r => perform_put, fun fn k y x r hb hf => ?_, fun fn k y x r hb => ?_,
    fun op hb => ?_, fun k r u x hb _ hx => perform_withdraw hb hx, fun k n mc parts r hb he _ => perform_lnext hb he⟩
  · have performed := perform_load (s := s) (unit := unit) hb
    refine ⟨fun h => ?_, fun h => ?_, fun h => ?_⟩
    · rwa [loadAt_good hn h] at performed
    · rwa [loadAt_failing h] at performed
    · rwa [loadAt_marked h] at performed
  · have performed := perform_amo (s := s) (unit := unit) hb
    refine ⟨fun h => ?_, fun h => ?_, fun h => ?_⟩
    · rwa [amoAt_good hf h] at performed
    · rwa [amoAt_failing hf h] at performed
    · rwa [amoAt_marked hf h] at performed
  · have performed := perform_amo (s := s) (unit := unit) hb
    refine ⟨fun h => ?_, fun h => ?_⟩
    · rw [amoAt_bits (by rw [h]; decide), h] at performed
      exact performed
    · rw [amoAt_bits (by rcases h with rfl | rfl <;> decide)] at performed
      rcases h with rfl | rfl <;> exact performed
  · refine ⟨fun hk full he => ?_, fun hk h => ?_, fun hk h => ?_, fun h => ?_⟩
    · have cls : syncCls op = 16 := if_neg (by simp; omega)
      have performed := perform_sync_acts (unit := unit) hb ((syncHolds_full hk).mpr full)
      rwa [syncAct_reads hk he, cls] at performed
    · exact perform_sync_parks hb (mt (syncHolds_full hk).mp h)
    · exact perform_sync_parks hb (mt (syncHolds_empty hk).mp h)
    · have acts : syncHolds s op = true := by
        rcases h with ⟨hk, empty⟩ | hk
        · exact (syncHolds_empty hk).mpr empty
        · simp [syncHolds, hk]
      have kind : op.kind = 2 ∨ op.kind = 3 := h.imp_left (·.1)
      have cls : syncCls op = 17 := if_pos (by simpa using kind)
      have performed := perform_sync_acts (unit := unit) hb acts
      rwa [syncAct_writes kind, cls] at performed

/-- Settles O47, from what homes serve and take in and what memory operations do there. -/
theorem homeAccessResults : Obligations.HomeAccessResults := ⟨homeServes, homeMemory⟩

end Sys2Proof.Proofs
end

section
/-!
PROOFS. What a unit takes off its arrivals, the reply to a request, and the count of late replies (R41 to R43): the rules that
every delivery follows.
-/

namespace Sys2Proof.Proofs

open Sys2Proof.Machine Sys2Proof.Laws

variable {s s1 : State} {u net : Nat} {ok : Packet → Bool} {p : Packet} {t : Tid}

/-! ### Traffic leaves the cores and the clusters alone -/

theorem TrafficOnly.cores {s t : State} (h : TrafficOnly s t) : t.cores = s.cores := (congrArg State.cores h).trans rfl
theorem TrafficOnly.clusters {s t : State} (h : TrafficOnly s t) : t.clusters = s.clusters := (congrArg State.clusters h).trans rfl

/-! ### A packet taken -/

/-- The step of a unit that takes a packet off its arrivals, where there is one to take. -/
def onArrival (s : State) (u net : Nat) (ok : Packet → Bool) (f : Packet → State → State) : State :=
  match takeArrived s u net ok with
  | none => s
  | some (p, s) => f p s

theorem onArrival_taken (h : takeArrived s u net ok = some (p, s1)) (f : Packet → State → State) : onArrival s u net ok f = f p s1 := by
  rw [onArrival, h]

/-- Taking a packet changes the arrivals of the unit and nothing else. -/
theorem takeArrived_setQ (h : takeArrived s u net ok = some (p, s1)) : ∃ l, s1 = setQ s (qk 4 u 0 net) l := by
  unfold takeArrived at h
  split at h
  · cases h
  · split at h
    · cases h
    · simp only at h
      split at h
      · cases h
      · exact ⟨_, (congrArg Prod.snd (Option.some.inj h)).symm⟩

theorem takeArrived_cores (h : takeArrived s u net ok = some (p, s1)) : s1.cores = s.cores := by
  obtain ⟨l, rfl⟩ := takeArrived_setQ h
  rfl

theorem takeArrived_tick (h : takeArrived s u net ok = some (p, s1)) : s1.tick = s.tick := by
  obtain ⟨l, rfl⟩ := takeArrived_setQ h
  rfl

/-- A core, after a packet is taken. -/
theorem takeArrived_getCore (h : takeArrived s u net ok = some (p, s1)) (c : Nat) : getCore s1 c = getCore s c := by
  rw [getCore, takeArrived_cores h, ← getCore]

/-! ### Replies (R41) -/

theorem reply_eq_replied {r : Ret} (h : r ≠ .none) (s : State) (cls u : Nat) (p : Packet) (x : Res) :
    reply s cls u p r x = Claim.replied s cls u p r x := if_neg h

/-! ### Late replies (R42, R43) -/

theorem lateCount_eq (s : State) (t : Tid) (p : Packet) (va : Word) : lateCount s t p va = Claim.lateCounted s t p va := by
  unfold lateCount Claim.lateCounted
  cases p.late <;> rfl

theorem lateCount_inTime (h : p.late = none) (s : State) (t : Tid) (va : Word) : lateCount s t p va = s := if_pos (by simp [h])

theorem platCount_inTime (h : p.late = none) (s : State) (cl : Nat) : platCount s cl p = s := if_neg (by simp [h])

theorem lateOff_inTime (h : p.late = none) (s : State) (uid : Nat) (va : Word) : lateOff s uid p va = s := if_pos (by simp [h])

/-- A late reply counted changes the registers of its thread alone. -/
theorem getSlot_lateCounted (s : State) (t : Tid) (p : Packet) (va : Word) :
    getSlot (Claim.lateCounted s t p va) t = { getSlot s t with csr := (getSlot (Claim.lateCounted s t p va) t).csr } := by
  unfold Claim.lateCounted
  split
  · rfl
  · rw [getSlot_modCsr_same]

end Sys2Proof.Proofs
end

section
/-!
PROOFS. TLBW: its operands, the entry that it refuses and the reply that it sends (R148, R149, R397).
-/

namespace Sys2Proof.Proofs

open Sys2Proof.Machine Sys2Proof.Laws

variable {s s1 s2 : State}

/-! ### Operands of a service core's instructions (R128, R129, R397) -/

theorem exec_tlbw (a b : BitVec 7) (s : State) : exec (.tlbw a b) s = execTlbw a b s := rfl
theorem exec_tlbi (d a b : BitVec 7) (s : State) : exec (.tlbi d a b) s = execTlbi d a b s := rfl

theorem fld_eq (w : Word) (hi lo : Nat) : fld w hi lo = w.toNat / 2 ^ lo % 2 ^ (hi + 1 - lo) := by
  rw [fld, Nat.shiftRight_eq_div_pow]

theorem svcOnly_service {e : Env} (hp : e.sl.priv = true) (hc : coreIdx e.t.core = 16) : svcOnly e = .ok () := by
  simp [svcOnly, need, hp, isSvc, hc]

theorem svcOnly_other {e : Env} (h : ¬ (e.sl.priv = true ∧ coreIdx e.t.core = 16)) : svcOnly e = .error (.trap 0x04 0) := by
  have : (e.sl.priv && isSvc e.t.core) = false := by
    simpa [isSvc] using h
  simp [svcOnly, need, this, trapX]

/-- A service core has a scratchpad of 1 MiB. -/
theorem scrSize_service {core : Nat} (h : coreIdx core = 16) : scrSize core = 0x100000 := if_neg (by simp [isGateway, h])

/-- An address in the issuing service core's own scratchpad, named through the local aperture or the global one. -/
def NamesOwn (e : Env) (x : Word) (off : Nat) : Prop :=
  x.toNat = off ∨ (x.toNat = scrKey e.t.core off ∧ coreExists e.t.core = true ∧ coreFn e.s e.t.core = (getCtx e.s e.sl.ctx).fn)

theorem place_own {e : Env} {x : Word} {off nd slack : Nat} (hc : coreIdx e.t.core = 16) (hoff : off < 0x100000) (hx : NamesOwn e x off) :
    place e x nd slack = .ok (.mem (scrKey e.t.core off) {} false) := by
  have size := scrSize_service hc
  rcases hx with hx | ⟨hx, exist, mine⟩
  · have h1 : ¬ off ≥ 2 ^ 57 := by omega
    have h2 : off < 0x1000000 := by omega
    simp only [place, hx, if_neg h1, if_pos h2, if_pos hoff, size]
  · have hcore : e.t.core < 2048 := by
      simp only [coreExists, Bool.and_eq_true, decide_eq_true_eq] at exist
      exact exist.1
    have key : scrKey e.t.core off = 0x100000000000000 + e.t.core * 0x100000 + off := rfl
    have base : scrBase = 0x100000000000000 := rfl
    have h1 : ¬ scrKey e.t.core off ≥ 2 ^ 57 := by omega
    have h2 : ¬ scrKey e.t.core off < 0x1000000 := by omega
    have h3 : ¬ scrKey e.t.core off < scrBase := by omega
    have h4 : scrKey e.t.core off < scrBase + 0x80000000 := by omega
    have core : (scrKey e.t.core off - scrBase) / 0x100000 = e.t.core := by omega
    have place : scrKey e.t.core off % 0x100000 = off := by omega
    have global : globalScr e.s (getCtx e.s e.sl.ctx).fn (scrKey e.t.core off) = some (scrKey e.t.core off) := by
      simp [globalScr, core, place, exist, size, hoff, mine]
    simp only [Machine.place, hx, if_neg h1, if_neg h2, if_neg h3, if_pos h4, global]

theorem isLocal_own {e : Env} {off : Nat} (h : off < 0x100000) : isLocal e (scrKey e.t.core off) = true := by
  have key : scrKey e.t.core off = 0x100000000000000 + e.t.core * 0x100000 + off := rfl
  have base : scrBase = 0x100000000000000 := rfl
  have core : keyCore (scrKey e.t.core off) = e.t.core := by
    unfold keyCore
    omega
  have scr : isScr (scrKey e.t.core off) = true := decide_eq_true (by omega)
  simp [isLocal, core, scr]

theorem svcKey_own {e : Env} {x : Word} {off n : Nat} (hc : coreIdx e.t.core = 16) (hn : 0 < n) (hoff : off + n ≤ 0x100000) (hx : NamesOwn e x off) :
    svcKey e x n = .ok (scrKey e.t.core off) := by
  have lt : off < 0x100000 := by omega
  have key : scrKey e.t.core off = 0x100000000000000 + e.t.core * 0x100000 + off := rfl
  have base : scrBase = 0x100000000000000 := rfl
  have outside : ¬ (decide (0x1000000 ≤ x.toNat) && decide (x.toNat < scrBase)) = true := by
    simp only [Bool.and_eq_true, decide_eq_true_eq]
    rcases hx with hx | ⟨hx, -, -⟩ <;> omega
  have inside : (scrKey e.t.core off - scrBase) % 0x100000 + n ≤ scrSize e.t.core := by
    rw [scrSize_service hc]
    omega
  simp only [svcKey, if_neg outside, place_own hc lt hx, isLocal_own lt, Bind.bind, Except.bind, pure, Except.pure]
  simp [inside]


/-! ### TLBW (R148, R149, R397) -/

/-- Word i of the record at a key. -/
def recWord (s : State) (k i : Nat) : Word := wd (memRead s.mem (k + 8 * i) 8)
/-- The TLB entry of a TLBW record. -/
def recEnt (s : State) (k : Nat) : TlbEnt := { w0 := recWord s k 0, w1 := recWord s k 1, w2 := recWord s k 2 }
/-- The status of a TLBW record. -/
def recStatus (s : State) (k : Nat) : BitVec 8 := (recWord s k 3).setWidth 8

/-- The core and slot that a word 1 names. -/
def namedTid (y : Word) : Tid := { core := y.toNat / 64 % 2048, slot := y.toNat % 64 }
/-- The fill reply of a TLBW: the record at k, for the request word y, at an address. -/
def fillOf (s : State) (k : Nat) (y va : Word) : Body :=
  .xrep va (y.toNat / 2 ^ 17 % 8) (namedTid y) (y.toNat / 2 ^ 32 % 65536) [recWord s k 0, recWord s k 1, recWord s k 2] (recStatus s k)
    ((recWord s k 3).toNat / 2 ^ 32)

/-- The context that a word 1 names. -/
theorem fld_ctx (y : Word) : fld y 47 32 = y.toNat / 2 ^ 32 % 65536 := fld_eq y 47 32

theorem wordTid_named (y : Word) : wordTid (fld y 16 0) = namedTid y := by
  simp only [wordTid, namedTid, fld_eq]
  congr 1 <;> omega

theorem ofNat_fld_status (w : Word) : BitVec.ofNat 8 (fld w 7 0) = w.setWidth 8 := by
  apply BitVec.eq_of_toNat_eq
  simp [fld_eq]

theorem fld_high (w : Word) : fld w 63 32 = w.toNat / 2 ^ 32 := by
  have := w.isLt
  rw [fld_eq]
  omega

/-- A TLBW of a privileged service-core thread, with an aligned address of four words of its own scratchpad that read well; s2 is
the state after its operands were read. -/
structure TlbwReads (s s2 : State) (a b : BitVec 7) (y : Word) (off : Nat) : Prop where
  runs : Claim.Runs s
  checks : chk (envOf 4 (Enc.tlbw a b) s) [a.toNat, b.toNat] [] [] = .ok ()
  priv : (getSlot s s.cur).priv = true
  service : coreIdx s.cur.core = 16
  reads : ∃ s1 x, readR (envOf 4 (Enc.tlbw a b) s) s a.toNat = .ok (s1, x) ∧ readR (envOf 4 (Enc.tlbw a b) s) s1 b.toNat = .ok (s2, y) ∧
    NamesOwn (envOf 4 (Enc.tlbw a b) s) x off
  alignedTo : off % 32 = 0
  inside : off + 32 ≤ 0x100000
  clean : eccStatus s2 (scrKey s.cur.core off) 32 = 0

variable {a b d : BitVec 7} {x y : Word} {off : Nat}

/-- The operands, the record's key and its alignment, as the instruction's body meets them. -/
theorem TlbwReads.meets (h : TlbwReads s s2 a b y off) : let e := envOf 4 (Enc.tlbw a b) s
    svcOnly e = .ok () ∧ ∃ s1 x, readR e s a.toNat = .ok (s1, x) ∧ readR e s1 b.toNat = .ok (s2, y) ∧ aligned x 32 = .ok () ∧
      svcKey e x 32 = .ok (scrKey s.cur.core off) := by
  obtain ⟨s1, x, ha, hb, hx⟩ := h.reads
  have key : scrKey s.cur.core off = 0x100000000000000 + s.cur.core * 0x100000 + off := rfl
  have mult : x.toNat % 32 = 0 := by
    have := h.alignedTo
    rcases hx with hx | ⟨hx, -⟩
    · omega
    · rw [hx, envOf_t]
      omega
  exact ⟨svcOnly_service h.priv h.service, s1, x, ha, hb, if_pos (by simp [mult]), svcKey_own h.service (by decide) h.inside hx⟩

/-- An entry that R148 and R149 refuse traps with its cause. -/
theorem tlbw_refused (h : TlbwReads s s2 a b y off) {c : BitVec 8} (hst : recStatus s2 (scrKey s.cur.core off) = 0)
    (hc : tlbCheck s2 (getCtx s2 (y.toNat / 2 ^ 32 % 65536)).fn (recEnt s2 (scrKey s.cur.core off)) = some c) :
    exec (.tlbw a b) s = .next (takeTrap s s.cur c 0 (getSlot s s.cur).pc) := by
  obtain ⟨hsvc, s1, x, ha, hb, hal, hkey⟩ := h.meets
  rw [exec_tlbw]
  refine thr_stop h.runs.1 h.runs.2 (st := .trap c 0) ?_
  simp only [h.checks, hsvc, envOf_s, envOf_t, ha, hb, hal, hkey, h.clean, Bind.bind, Except.bind, ofNat_fld_status, fld_ctx]
  unfold recStatus recWord at hst
  unfold recEnt recWord at hc
  simp only [hst, hc, if_true, trapX]

/-- The fill that a TLBW sends: to the oldest request that it answers, else for the entry's page with the thread's slack. -/
def tlbwSend (s s2 : State) (y : Word) (k : Nat) : State :=
  let q := qk 4 (coreUnit s.cur.core) 0 0
  match tlbwFor s2 s.cur.core y with
  | some (i, p, va) => inject (setQ s2 q (delAt (getQ s2 q) i))
      { cls := 20, slack := slackLeft (tickN s2) p, late := lateAge (tickN s2) p, src := coreUnit s.cur.core, dst := coreUnit (namedTid y).core,
        body := fillOf s2 k y va }
  | none => send s2 20 (dskOf (getSlot s s.cur)) (coreUnit s.cur.core) (coreUnit (namedTid y).core) (fillOf s2 k y (wd (entBase (recEnt s2 k))))

/-- An entry that they accept, or a status that is not 0, is sent on where there is room. -/
theorem tlbw_sends (h : TlbwReads s s2 a b y off)
    (ok : recStatus s2 (scrKey s.cur.core off) ≠ 0 ∨
      tlbCheck s2 (getCtx s2 (y.toNat / 2 ^ 32 % 65536)).fn (recEnt s2 (scrKey s.cur.core off)) = none)
    (room : outRoom s2 s.cur.core 1 = true) :
    exec (.tlbw a b) s = .next (done (envOf 4 (Enc.tlbw a b) s) (tlbwSend s s2 y (scrKey s.cur.core off))) := by
  obtain ⟨hsvc, s1, x, ha, hb, hal, hkey⟩ := h.meets
  rw [exec_tlbw]
  refine thr_next h.runs.1 h.runs.2 ?_
  have kind : fld y 19 17 = y.toNat / 2 ^ 17 % 8 := fld_eq y 19 17
  simp only [h.checks, hsvc, envOf_s, envOf_t, ha, hb, hal, hkey, h.clean, Bind.bind, Except.bind, ofNat_fld_status, fld_ctx, fld_high,
    wordTid_named, kind, room, await, if_true]
  unfold recStatus recEnt recWord at ok
  split
  next hst =>
    simp only [ok.resolve_left (not_not.mpr hst)]
    unfold tlbwSend
    cases tlbwFor s2 s.cur.core y <;> rfl
  next hst =>
    unfold tlbwSend
    cases tlbwFor s2 s.cur.core y <;> rfl

/-- The packet is a translation request of the kind, thread and context that the word names, for the address va. -/
def Asks (y : Word) (p : Packet) (va : Word) : Prop :=
  ∃ t c, p.body = .xlat va (y.toNat / 2 ^ 17 % 8) t (y.toNat / 2 ^ 32 % 65536) c ∧ tidWord t = y.toNat % 2 ^ 17

/-- What TLBW looks for at a place of the service core's queue. -/
def tlbwMatch (y : Word) (x : Packet × Nat) : Option (Nat × Packet × Word) :=
  match x.1.body with
  | .xlat va kind t ctx _ => if tidWord t = fld y 16 0 && kind = fld y 19 17 && ctx = fld y 47 32 then some (x.2, x.1, va) else none
  | _ => none

theorem tlbwFor_eq (s : State) (core : Nat) (y : Word) :
    tlbwFor s core y = (getQ s (qk 4 (coreUnit core) 0 0)).zipIdx.findSome? (tlbwMatch y) := rfl

theorem tlbwMatch_eq_some {p : Packet} {i : Nat} {r : Nat × Packet × Word} :
    tlbwMatch y (p, i) = some r ↔ ∃ va, Asks y p va ∧ r = (i, p, va) := by
  unfold tlbwMatch Asks
  split
  next va kind t ctx c hb =>
    have word : (decide (tidWord t = fld y 16 0) && decide (kind = fld y 19 17) && decide (ctx = fld y 47 32)) = true ↔
        tidWord t = y.toNat % 2 ^ 17 ∧ kind = y.toNat / 2 ^ 17 % 8 ∧ ctx = y.toNat / 2 ^ 32 % 65536 := by
      simp only [Bool.and_eq_true, decide_eq_true_eq, fld_eq, and_assoc, Nat.pow_zero, Nat.div_one]
      rfl
    constructor
    · intro h
      split at h
      next hw =>
        obtain ⟨ht, rfl, rfl⟩ := word.mp hw
        exact ⟨va, ⟨t, c, hb, ht⟩, (Option.some.inj h).symm⟩
      next => cases h
    · rintro ⟨va', ⟨t', c', hb', ht⟩, rfl⟩
      obtain ⟨rfl, rfl, rfl, rfl, rfl⟩ := Body.xlat.inj (hb.symm.trans hb')
      rw [if_pos (word.mpr ⟨ht, rfl, rfl⟩)]
  next hb =>
    simp only [reduceCtorEq, false_iff, not_exists, not_and]
    rintro va ⟨t, c, h, -⟩
    exact absurd h (hb _ _ _ _ _)

theorem tlbwFor_first {core i : Nat} {p : Packet} {va : Word} (hp : (getQ s (qk 4 (coreUnit core) 0 0))[i]? = some p) (asks : Asks y p va)
    (first : ∀ (j : Nat) p' va', j < i → (getQ s (qk 4 (coreUnit core) 0 0))[j]? = some p' → ¬ Asks y p' va') :
    tlbwFor s core y = some (i, p, va) := by
  obtain ⟨l, r, hl⟩ := List.append_of_mem (List.mem_zipIdx_iff_getElem? (x := (p, i)) |>.mpr hp)
  have rising := zipIdx_rising (getQ s (qk 4 (coreUnit core) 0 0))
  rw [hl, List.pairwise_append] at rising
  rw [tlbwFor_eq, List.findSome?_eq_some_iff]
  refine ⟨l, (p, i), r, hl, tlbwMatch_eq_some.mpr ⟨va, asks, rfl⟩, fun x hx => ?_⟩
  cases hm : tlbwMatch y x with
  | none => rfl
  | some m =>
    obtain ⟨va', asks', -⟩ := tlbwMatch_eq_some.mp hm
    have place : x ∈ (getQ s (qk 4 (coreUnit core) 0 0)).zipIdx := by rw [hl]; exact List.mem_append_left _ hx
    exact absurd asks' (first x.2 x.1 va' (rising.2.2 x hx (p, i) (by simp)) (List.mem_zipIdx_iff_getElem?.mp place))

theorem tlbwFor_none {core : Nat} (h : ∀ p ∈ getQ s (qk 4 (coreUnit core) 0 0), ∀ va, ¬ Asks y p va) : tlbwFor s core y = none := by
  rw [tlbwFor_eq, List.findSome?_eq_none_iff]
  intro x hx
  cases hm : tlbwMatch y x with
  | none => rfl
  | some r =>
    obtain ⟨va, asks, -⟩ := tlbwMatch_eq_some.mp hm
    exact absurd asks (h _ (List.mem_of_getElem? (List.mem_zipIdx_iff_getElem?.mp hx)) va)

end Sys2Proof.Proofs
end

section
/-!
PROOFS. Who may maintain translations, and TLBI (R154, R155, R397).
-/

namespace Sys2Proof.Proofs

open Sys2Proof.Machine Sys2Proof.Laws

variable {s s1 s2 : State} {a b d : BitVec 7} {x y : Word} {off : Nat}

/-! ### TLBI (R154, R155, R397) -/

/-- Outside a privileged thread of a service core TLBW and TLBI trap with PRIVILEGE. -/
theorem tlbw_unprivileged (hs : Claim.Runs s) (hk : chk (envOf 4 (Enc.tlbw a b) s) [a.toNat, b.toNat] [] [] = .ok ())
    (h : ¬ ((getSlot s s.cur).priv = true ∧ coreIdx s.cur.core = 16)) :
    exec (.tlbw a b) s = .next (takeTrap s s.cur 0x04 0 (getSlot s s.cur).pc) := by
  have refused : svcOnly (envOf 4 (Enc.tlbw a b) s) = .error (.trap 0x04 0) := svcOnly_other h
  rw [exec_tlbw]
  refine thr_stop hs.1 hs.2 (st := .trap 0x04 0) ?_
  simp only [hk, refused, Bind.bind, Except.bind]

theorem tlbi_unprivileged (hs : Claim.Runs s) (hk : chk (envOf 4 (Enc.tlbi d a b) s) [a.toNat, b.toNat] [d.toNat] [] = .ok ())
    (h : ¬ ((getSlot s s.cur).priv = true ∧ coreIdx s.cur.core = 16)) :
    exec (.tlbi d a b) s = .next (takeTrap s s.cur 0x04 0 (getSlot s s.cur).pc) := by
  have refused : svcOnly (envOf 4 (Enc.tlbi d a b) s) = .error (.trap 0x04 0) := svcOnly_other h
  rw [exec_tlbi]
  refine thr_stop hs.1 hs.2 (st := .trap 0x04 0) ?_
  simp only [hk, refused, Bind.bind, Except.bind]

/-- A TLBI of a privileged service-core thread. -/
structure TlbiChecks (s : State) (d a b : BitVec 7) : Prop where
  runs : Claim.Runs s
  checks : chk (envOf 4 (Enc.tlbi d a b) s) [a.toNat, b.toNat] [d.toNat] [] = .ok ()
  priv : (getSlot s s.cur).priv = true
  service : coreIdx s.cur.core = 16

theorem TlbiChecks.svcOnly (h : TlbiChecks s d a b) : svcOnly (envOf 4 (Enc.tlbi d a b) s) = .ok () := svcOnly_service h.priv h.service

/-- A reserved bit of the operand traps with RESERVED_FIELD. -/
theorem tlbi_reserved (h : TlbiChecks s d a b) (hr : (getSlot s s.cur).res = none) (ha : readR (envOf 4 (Enc.tlbi d a b) s) s a.toNat = .ok (s1, x))
    (hb : readR (envOf 4 (Enc.tlbi d a b) s) s1 b.toNat = .ok (s2, y)) (hy : 2 ^ 18 ≤ y.toNat) :
    exec (.tlbi d a b) s = .next (takeTrap s s.cur 0x12 0 (getSlot s s.cur).pc) := by
  have bits : need (fld y 63 18 == 0) 0x12 0 = .error (.trap 0x12 0) := by
    have := y.isLt
    have nonzero : fld y 63 18 ≠ 0 := by rw [fld_eq]; omega
    simp [need, nonzero, trapX]
  rw [exec_tlbi]
  refine thr_stop h.runs.1 h.runs.2 (st := .trap 0x12 0) ?_
  simp only [h.checks, h.svcOnly, envOf_s, envOf_sl, hr, ha, hb, bits, Bind.bind, Except.bind]

/-- The generation that a TLBI of a core takes. -/
def nextGen (s : State) (core : Nat) : Nat := ((getCl s (coreCl core)).gen + 1) % 2 ^ 32

/-- The cluster of a core with its generation advanced and a shoot-down of every core begun (R154, R155). -/
def tlbiBegun (s : State) (core : Nat) (r : Ret) : State :=
  modCl s (coreCl core) fun c => { c with gen := nextGen s core
                                          shoots := c.shoots ++ [{ gen := nextGen s core, left := (clCores (coreCl core)).length, ret := r }] }

/-- An invalidation sent to every core of the cluster. -/
def tlbiSent (e : Env) (s : State) (x y : Word) (gen : Nat) : State :=
  (clCores (coreCl e.t.core)).foldl (fun s c => send s 9 (dskOf e.sl) (coreUnit e.t.core) (coreUnit c)
    (.tlbi x (fld y 15 0) (bitAt y 16) (bitAt y 17) gen (coreCl e.t.core))) s

theorem tlbiSent_trafficOnly (e : Env) (s : State) (x y : Word) (gen : Nat) : TrafficOnly s (tlbiSent e s x y gen) :=
  TrafficOnly.foldl (fun _ _ => send_trafficOnly _ _ _ _ _ _) _ _

/-- The state in which a TLBI to d waits for its acknowledgements; s2 is the state after its operands were read. -/
def tlbiWaiting (e : Env) (s2 : State) (d : BitVec 7) (x y : Word) : State :=
  modSlot (tlbiSent e (tlbiBegun s2 e.t.core (retOf e x)) x y (nextGen s2 e.t.core)) e.t fun sl =>
    { sl with wait := some .reply, ph := [wd (nextGen s2 e.t.core)], res := none, awaits := [d.toNat] }

theorem getCl_tlbiWaiting (e : Env) (s2 : State) (d : BitVec 7) (x y : Word) :
    getCl (tlbiWaiting e s2 d x y) (coreCl e.t.core) = getCl (tlbiBegun s2 e.t.core (retOf e x)) (coreCl e.t.core) := by
  rw [getCl, tlbiWaiting, modSlot_clusters, (tlbiSent_trafficOnly _ _ _ _ _).clusters, ← getCl]

theorem getSlot_tlbiWaiting (e : Env) (s2 : State) (d : BitVec 7) (x y : Word) :
    (getSlot (tlbiWaiting e s2 d x y) e.t).wait = some .reply ∧ (getSlot (tlbiWaiting e s2 d x y) e.t).ph = [wd (nextGen s2 e.t.core)] := by
  rw [tlbiWaiting, getSlot_modSlot_same]
  exact ⟨rfl, rfl⟩

/-- A TLBI with no reserved bit set sends its invalidations and waits for the acknowledgements. -/
theorem tlbi_waits (h : TlbiChecks s d a b) (hr : (getSlot s s.cur).res = none) (ha : readR (envOf 4 (Enc.tlbi d a b) s) s a.toNat = .ok (s1, x))
    (hb : readR (envOf 4 (Enc.tlbi d a b) s) s1 b.toNat = .ok (s2, y)) (hy : y.toNat < 2 ^ 18) :
    exec (.tlbi d a b) s = .next (tlbiWaiting (envOf 4 (Enc.tlbi d a b) s) s2 d x y) := by
  have bits : need (fld y 63 18 == 0) 0x12 0 = .ok () := by
    have zero : fld y 63 18 = 0 := by rw [fld_eq]; omega
    simp [need, zero]
  rw [exec_tlbi]
  refine thr_stop h.runs.1 h.runs.2 (st := .keep _) ?_
  simp only [h.checks, h.svcOnly, envOf_s, envOf_sl, hr, ha, hb, bits, Bind.bind, Except.bind]
  rfl

/-- A TLBI whose acknowledgements have come writes its generation to d. -/
theorem tlbi_completes (h : TlbiChecks s d a b) {r : Res} {g : Word} {rest : List Word} (hr : (getSlot s s.cur).res = some r)
    (hg : (getSlot s s.cur).ph = g :: rest) (hw : writeR (envOf 4 (Enc.tlbi d a b) s) s d.toNat g = .ok s1) :
    exec (.tlbi d a b) s = .next (done (envOf 4 (Enc.tlbi d a b) s) s1) := by
  have first : wAt (getSlot s s.cur).ph 0 = g := by rw [hg]; rfl
  rw [exec_tlbi]
  refine thr_next h.runs.1 h.runs.2 ?_
  simp only [h.checks, h.svcOnly, envOf_s, envOf_sl, hr, first, hw, Bind.bind, Except.bind, pure, Except.pure]

theorem translationMaintenance : Claim.TranslationMaintenance := by
  unfold Claim.TranslationMaintenance
  refine ⟨fun d a b p hp s hs hk h => ?_, fun a b s s1 s2 x y hs hk priv svc ha hb off hal hin hx hecc => ?_,
    fun d a b s s1 s2 x y hs hk priv svc hr ha hb => ?_, fun d a b s s1 r g rest hs hk priv svc hr hg hw => ?_⟩
  · simp only [List.mem_cons, List.not_mem_nil, or_false] at hp
    rcases hp with rfl | rfl
    · exact tlbw_unprivileged hs hk h
    · exact tlbi_unprivileged hs hk h
  · have reads : TlbwReads s s2 a b y off := ⟨hs, hk, priv, svc, ⟨s1, x, ha, hb, hx⟩, hal, hin, hecc⟩
    refine ⟨fun c hst hc => tlbw_refused reads hst hc, fun ok room => ?_⟩
    have sends := tlbw_sends reads ok room
    refine ⟨fun i p va hp asks first => ?_, fun none => ?_⟩
    · rw [tlbwSend, tlbwFor_first hp asks first] at sends
      exact sends
    · rw [tlbwSend, tlbwFor_none none] at sends
      exact sends
  · have checks : TlbiChecks s d a b := ⟨hs, hk, priv, svc⟩
    refine ⟨tlbi_reserved checks hr ha hb, fun hy => ⟨_, tlbi_waits checks hr ha hb hy, ?_⟩⟩
    have cluster := (getCl_tlbiWaiting (envOf 4 (Enc.tlbi d a b) s) s2 d x y).trans (getCl_modCl_same _ _ _)
    obtain ⟨wait, ph⟩ := getSlot_tlbiWaiting (envOf 4 (Enc.tlbi d a b) s) s2 d x y
    exact ⟨congrArg Cluster.gen cluster, wait, ph, (congrArg (fun c => c.shoots.length) cluster).trans (List.length_append ..)⟩
  · exact tlbi_completes ⟨hs, hk, priv, svc⟩ hr hg hw

end Sys2Proof.Proofs
end

section
/-!
PROOFS. The translation service, fills, shoot-downs and notices (R151 to R156, R169): O50.
-/

namespace Sys2Proof.Proofs

open Sys2Proof.Machine Sys2Proof.Laws

variable {s s1 : State} {core cl ctx : Nat} {p : Packet}

/-! ### The translation service (R152 to R154) -/

def isXlat (p : Packet) : Bool := match p.body with | .xlat _ _ _ _ _ => true | _ => false

/-- The words and the status with which a walk is answered. -/
def walkAnswer : Except (BitVec 8) TlbEnt → List Word × BitVec 8
  | .ok e => ([e.w0, e.w1, e.w2], 0)
  | .error c => ([0, 0, 0], c)

/-- A request is answered with the walk and the generation. -/
theorem translationRequest_answers {va : Word} {kind core : Nat} {t : Tid} (hr : clRuns s cl = true)
    (ht : takeArrived s (coreUnit (svcCore cl)) 0 isXlat = some (p, s1)) (hb : p.body = .xlat va kind t ctx core) :
    exec (.translationRequest cl) s = .next (inject s1
      { cls := 20, slack := slackLeft (tickN s1) p, late := lateAge (tickN s1) p, src := coreUnit (svcCore cl), dst := p.src,
        body := .xrep va kind t ctx (walkAnswer (walk s1 ctx va.toNat)).1 (walkAnswer (walk s1 ctx va.toNat)).2 (getCl s1 cl).gen }) := by
  have step : exec (.translationRequest cl) s = .next (if !clRuns s cl then s else onArrival s (coreUnit (svcCore cl)) 0 isXlat fun p s =>
      match p.body with
      | .xlat va kind t ctx _ =>
        let (ws, st) := walkAnswer (walk s ctx va.toNat)
        inject s { cls := 20, slack := slackLeft (tickN s) p, late := lateAge (tickN s) p, src := coreUnit (svcCore cl), dst := p.src,
                   body := .xrep va kind t ctx ws st (getCl s cl).gen }
      | _ => s) := rfl
  rw [step, hr, onArrival_taken ht]
  simp only [hb]
  rfl

/-! ### Fills (R151, R152, R154, R156, R157) -/

def isXrep (p : Packet) : Bool := match p.body with | .xrep _ _ _ _ _ _ _ => true | _ => false

/-- A fill that comes in time counts for no thread. -/
theorem xrepLate_inTime (h : p.late = none) (s : State) (core kind ctx page : Nat) (t : Tid) (va : Word) : xrepLate s core kind ctx page t p va = s := by
  unfold xrepLate
  split
  · split
    · exact lateCount_inTime h _ _ _
    · rfl
  · split
    · exact lateCount_inTime h _ _ _
    · rfl

/-- What a fill brings a core: a stale one makes it ask again, a good one goes into the TLB, a failed one brings its cause. -/
def fillTaken (s : State) (core : Nat) (va : Word) (ctx : Nat) (ws : List Word) (st : BitVec 8) (gen : Nat) : State :=
  let page := va.toNat / 4096
  let one := fun (n : Nat) => n == page
  if gen < (getCore s core).tlbGen then missDone (engFill s core ctx one fun x _ => x) core ctx one none
  else if st = 0 then
    let e : TlbEnt := { w0 := wAt ws 0, w1 := wAt ws 1, w2 := wAt ws 2 }
    let hit := fun (n : Nat) => n == page || entHit e ctx (n * 4096)
    missDone (engFill (tlbInstall s core e) core ctx hit fun x _ => { x with ents := x.ents ++ [e] }) core ctx hit none
  else missDone (engFill s core ctx one fun x n => { x with flts := x.flts ++ [(n, st)] }) core ctx one (some (st, va))

theorem translationReply_taken {va : Word} {kind gen : Nat} {t : Tid} {ws : List Word} {st : BitVec 8}
    (ht : takeArrived s (coreUnit core) 1 isXrep = some (p, s1)) (hb : p.body = .xrep va kind t ctx ws st gen) (hl : p.late = none) :
    exec (.translationReply core) s = .next (fillTaken s1 core va ctx ws st gen) := by
  have step : exec (.translationReply core) s = .next (onArrival s (coreUnit core) 1 isXrep fun p s =>
      match p.body with
      | .xrep va kind t ctx ws st gen => fillTaken (xrepLate s core kind ctx (va.toNat / 4096) t p va) core va ctx ws st gen
      | _ => s) := rfl
  rw [step, onArrival_taken ht]
  simp only [hb, xrepLate_inTime hl]

/-- The slot of one thread that missed, once its miss is over; another slot stays. -/
def missOver (ctx : Nat) (xf : Option (BitVec 8 × Word)) (sl : Slot) : Slot :=
  if sl.uid.isSome && sl.ctx == ctx && sl.wait == some .miss then { sl with wait := none, xf := sl.xf ++ xf.toList } else sl

/-- A slot whose miss is over waits for none, so that a second update leaves it alone. -/
theorem missOver_missOver (ctx : Nat) (xf : Option (BitVec 8 × Word)) (sl : Slot) : missOver ctx xf (missOver ctx xf sl) = missOver ctx xf sl := by
  by_cases h : (sl.uid.isSome && sl.ctx == ctx && sl.wait == some .miss) = true
  · have woken : missOver ctx xf sl = { sl with wait := none, xf := sl.xf ++ xf.toList } := if_pos h
    rw [woken]
    exact if_neg (by simp)
  · have stays : missOver ctx xf sl = sl := if_neg h
    rw [stays, stays]

theorem getSlot_foldl_missOver (ctx : Nat) (xf : Option (BitVec 8 × Word)) (ts : List Tid) (s : State) (t : Tid) :
    getSlot (ts.foldl (fun s t => modSlot s t (missOver ctx xf)) s) t = if t ∈ ts then missOver ctx xf (getSlot s t) else getSlot s t := by
  induction ts generalizing s with
  | nil => rfl
  | cons a r ih =>
    rw [List.foldl_cons, ih]
    by_cases ha : t = a
    · subst ha
      simp [missOver_missOver]
    · simp [getSlot_modSlot_other _ _ ha, ha]

/-- A core without the misses of a context in pages that `hit` names. -/
def withoutMisses (ctx : Nat) (hit : Nat → Bool) (c : Core) : Core := { c with misses := c.misses.filter fun m => !(m.ctx == ctx && hit m.page) }

theorem missDone_slot {hit : Nat → Bool} {xf : Option (BitVec 8 × Word)} {t : Tid}
    (ht : t ∈ ((getCore s core).misses.filter fun m => m.ctx == ctx && hit m.page).flatMap (·.ts)) (hu : (getSlot s t).uid.isSome = true)
    (hc : (getSlot s t).ctx = ctx) (hw : (getSlot s t).wait = some .miss) :
    getSlot (missDone s core ctx hit xf) t = { getSlot s t with wait := none, xf := (getSlot s t).xf ++ xf.toList } := by
  have ends : missDone s core ctx hit xf = (((getCore s core).misses.filter fun m => m.ctx == ctx && hit m.page).flatMap (·.ts)).foldl
      (fun s t => modSlot s t (missOver ctx xf)) (modCore s core (withoutMisses ctx hit)) := rfl
  rw [ends, getSlot_foldl_missOver, if_pos ht, getSlot_modCore s core (withoutMisses ctx hit) (fun _ => rfl)]
  exact if_pos (by simp [hu, hc, hw])

/-! ### Shoot-downs (R154, R155, R169, R397) -/

def isTlbi (p : Packet) : Bool := match p.body with | .tlbi _ _ _ _ _ _ => true | _ => false
def isClbi (p : Packet) : Bool := match p.body with | .clbi _ _ _ _ _ => true | _ => false

/-- Whether a core has accesses under way that were translated through entries of a context (or of any). -/
def tlbBusy (s : State) (core ctx : Nat) (all : Bool) : Bool :=
  ((getCore s core).slots.any fun x => x.2.uid.isSome && (all || x.2.ctx == ctx) && slotBusy x.2) || joinUnder s core ctx all || commitUnder s core ctx all

theorem tlbShootdown_taken {va : Word} {pages all : Bool} {gen : Nat} (ht : takeArrived s (coreUnit core) 0 isTlbi = some (p, s1))
    (hb : p.body = .tlbi va ctx pages all gen cl) :
    exec (.tlbShootdown core) s = .next (if tlbBusy s core ctx all then tlbiTake s core gen (tlbiHits va ctx pages all)
      else Claim.replied (tlbiTake s1 core gen (tlbiHits va ctx pages all)) 20 (coreUnit core) p (.shoot cl gen) .ok) := by
  have step : exec (.tlbShootdown core) s = .next (onArrival s (coreUnit core) 0 isTlbi fun p s' =>
      match p.body with
      | .tlbi va ctx pages all gen cl =>
        if tlbBusy s core ctx all then tlbiTake s core gen (tlbiHits va ctx pages all)
        else reply (tlbiTake s' core gen (tlbiHits va ctx pages all)) 20 (coreUnit core) p (.shoot cl gen) .ok
      | _ => s) := rfl
  rw [step, onArrival_taken ht]
  simp only [hb, reply_eq_replied (show Ret.shoot cl gen ≠ .none by simp)]

theorem tlbBusy_iff {all : Bool} : tlbBusy s core ctx all = true ↔
    (∃ x ∈ (getCore s core).slots, x.2.uid.isSome = true ∧ (all = true ∨ x.2.ctx = ctx) ∧ slotBusy x.2 = true) ∨ joinUnder s core ctx all = true ∨
      commitUnder s core ctx all = true := by
  simp [tlbBusy, or_assoc, and_assoc]

/-- Whether a core has accesses under way through CLB entries of a region. -/
def clbBusy (s : State) (core ctx g : Nat) : Bool := (getCore s core).slots.any fun x => x.2.uid.isSome && x.2.ctx == ctx && x.2.coordHit == some g

/-- The CLB of a core without the entries of a region that a shoot-down names, and the generation recorded. -/
def clbTake (s : State) (core ctx g : Nat) (tile : Option Nat) (gen cl : Nat) : State :=
  modCore s core fun c => { c with
    clb := c.clb.filter fun e => !(e.2.valid && e.2.ctx == ctx && e.2.region == g && (match tile with | some t => e.2.tile == t | none => true))
    clbGen := smMod 0 c.clbGen cl fun x => max x gen }

theorem clbShootdown_taken {g gen : Nat} {tile : Option Nat} (ht : takeArrived s (coreUnit core) 0 isClbi = some (p, s1))
    (hb : p.body = .clbi ctx g tile gen cl) :
    exec (.clbShootdown core) s = .next (if clbBusy s core ctx g then clbTake s core ctx g tile gen cl
      else Claim.replied (clbTake s1 core ctx g tile gen cl) 20 (coreUnit core) p (.shoot cl gen) .ok) := by
  have step : exec (.clbShootdown core) s = .next (onArrival s (coreUnit core) 0 isClbi fun p s' =>
      match p.body with
      | .clbi ctx g tile gen cl =>
        if clbBusy s core ctx g then clbTake s core ctx g tile gen cl
        else reply (clbTake s' core ctx g tile gen cl) 20 (coreUnit core) p (.shoot cl gen) .ok
      | _ => s) := rfl
  rw [step, onArrival_taken ht]
  simp only [hb, reply_eq_replied (show Ret.shoot cl gen ≠ .none by simp)]

theorem clbBusy_iff {g : Nat} : clbBusy s core ctx g = true ↔
    ∃ x ∈ (getCore s core).slots, x.2.uid.isSome = true ∧ x.2.ctx = ctx ∧ x.2.coordHit = some g := by
  simp [clbBusy, and_assoc]

theorem getCore_tlbiTake (s : State) (core gen : Nat) (hits : TlbEnt → Bool) :
    getCore (tlbiTake s core gen hits) core = { getCore s core with
      tlb := (getCore s core).tlb.filter fun e => !hits e.2
      tlbGen := max (getCore s core).tlbGen gen
      eng := (getCore s core).eng.map fun g => { g with tr := { g.tr with ents := g.tr.ents.filter fun e => !hits e } } } := by
  unfold tlbiTake
  simp only [getCore, modCl_cores]
  exact getCore_modCore_same _ _ _

/-! ### Notices (R68) -/

def isNotice (p : Packet) : Bool := match p.body with | .notice _ => true | _ => false

theorem noticeDeliver_taken {n : Notice} (room : (getCl s cl).notices.length < 256)
    (ht : takeArrived s (coreUnit (svcCore cl)) 1 isNotice = some (p, s1)) (hb : p.body = .notice n) :
    exec (.noticeDeliver cl) s = .next (modCl (platCount s1 cl p) cl fun c => { c with notices := c.notices ++ [n] }) := by
  have step : exec (.noticeDeliver cl) s = .next (if (getCl s cl).notices.length ≥ 256 then s else
      onArrival s (coreUnit (svcCore cl)) 1 isNotice fun p s =>
        match p.body with
        | .notice n => modCl (platCount s cl p) cl fun c => { c with notices := c.notices ++ [n] }
        | _ => s) := rfl
  rw [step, if_neg (by omega), onArrival_taken ht]
  simp only [hb]

theorem npostWrite_posts {n : Notice} (h : (getCl s cl).npost = some n) :
    exec (.npostWrite cl) s = .next (postNotice (modCl s cl fun c => { c with npost := none }) (coreUnit (svcCore cl)) n
      (partition s (getCtx s n.ctx).fn)) := by
  have step : exec (.npostWrite cl) s = execNpostWrite cl s := rfl
  rw [step, execNpostWrite, h]

theorem translationResults : Claim.TranslationResults := by
  unfold Claim.TranslationResults
  refine ⟨fun s cl p s1 va kind t ctx core hr ht hb => ?_, fun s core p s1 va kind t ctx ws st gen ht hb hl => ?_,
    fun s core ctx hit xf t ht hu hc hw => missDone_slot ht hu hc hw, fun s core p s1 => ⟨fun va ctx pages all gen cl ht hb => ?_,
      fun ctx g tile gen cl ht hb => ?_⟩, fun s core gen hits => ?_, fun s cl p s1 n room ht hb => noticeDeliver_taken room ht hb,
    fun s cl n h => npostWrite_posts h⟩
  · have answers := translationRequest_answers hr ht hb
    refine ⟨fun e he => ?_, fun c hc => ?_⟩
    · rw [he] at answers
      exact answers
    · rw [hc] at answers
      exact answers
  · have taken := translationReply_taken ht hb hl
    refine ⟨fun stale => ?_, fun fresh good => ?_, fun fresh bad => ?_⟩
    · exact taken.trans (congrArg _ (if_pos stale))
    · exact taken.trans (congrArg _ ((if_neg (Nat.not_lt.mpr fresh)).trans (if_pos good)))
    · exact taken.trans (congrArg _ ((if_neg (Nat.not_lt.mpr fresh)).trans (if_neg bad)))
  · have taken := tlbShootdown_taken ht hb
    have busy := tlbBusy_iff (s := s) (core := core) (ctx := ctx) (all := all)
    rw [← takeArrived_getCore ht core] at busy
    exact ⟨fun h => taken.trans (congrArg _ (if_neg (mt busy.mp h))), fun h => taken.trans (congrArg _ (if_pos (busy.mpr h)))⟩
  · have taken := clbShootdown_taken ht hb
    have busy := clbBusy_iff (s := s) (core := core) (ctx := ctx) (g := g)
    rw [← takeArrived_getCore ht core] at busy
    exact ⟨fun h => taken.trans (congrArg _ (if_neg (mt busy.mp h))), fun h => taken.trans (congrArg _ (if_pos (busy.mpr h)))⟩
  · have c' := getCore_tlbiTake s core gen hits
    refine ⟨congrArg Core.tlb c', congrArg Core.tlbGen c', fun g hg e he => ?_⟩
    simp only [c', List.mem_map] at hg
    obtain ⟨g', -, rfl⟩ := hg
    simpa using (List.mem_filter.mp he).2

/-- Settles O50, from what TLBW and TLBI do and what the service, fills, shoot-downs and notices leave. -/
theorem translationRules : Obligations.TranslationRules := ⟨translationMaintenance, translationResults⟩

end Sys2Proof.Proofs
end

section
/-!
PROOFS. What replies and wakes do to the threads that wait for them (R42, R43, R95, R106, R168).
-/

namespace Sys2Proof.Proofs

open Sys2Proof.Machine Sys2Proof.Laws

variable {s s1 : State} {p : Packet} {t : Tid} {id : Nat} {r : Res}

/-! ### Replies that a thread waits for (R95, R168, R189) -/

/-- A reply of a thread that waits for one: the late count, then the outcome. -/
theorem replyDeliver_thread {u : Nat} {va : Word} (ht : takeArrived s u 1 isReply = some (p, s1)) (hb : p.body = .reply (.thread t id va) r) :
    exec (.replyDeliver u) s =
      .next (if (getSlot s1 t).uid = some id then threadReply (Claim.lateCounted s1 t p va) t id p.src r else s1) := by
  rw [← lateCount_eq]
  change Host.Outcome.next (match takeArrived s u 1 isReply with | none => s | some (p, s) => _) = _
  simp only [ht, hb]

/-- The thread that a reply finds: the one that asked, in a blocking instruction that has no outcome yet. -/
def AwaitsReply (s : State) (t : Tid) (id : Nat) : Prop :=
  (getSlot s t).uid = some id ∧ (getSlot s t).wait = some .reply ∧ (getSlot s t).res = none

theorem AwaitsReply.lateCounted (h : AwaitsReply s t id) (p : Packet) (va : Word) : AwaitsReply (Claim.lateCounted s t p va) t id := by
  rw [AwaitsReply, getSlot_lateCounted]
  exact h

/-- What a reply does to the thread that awaits it. -/
theorem threadReply_awaited (h : AwaitsReply s t id) (src : Nat) (r : Res) :
    threadReply s t id src r = match r with
      | .withdrawn => slotWithdrawn s t
      | .coord _ (some (ctx, g, tile, fr, gen)) =>
        if fillStale s t.core (unitCl src) gen then slotReply s t none
        else slotReply (clbInstall s t.core ctx g tile fr) t (some r)
      | _ => slotReply s t (some r) := by
  obtain ⟨huid, hwait, hres⟩ := h
  unfold threadReply
  simp only [huid, hwait, hres, bne_self_eq_false, Option.isSome_none, Bool.or_self, Bool.false_eq_true, if_false] <;> rfl

/-- Any outcome but a withdrawal or a coordinate fill puts the slot back in rotation. -/
theorem threadReply_plain (h : AwaitsReply s t id) (src : Nat) (hw : r ≠ .withdrawn) (hc : ∀ v c, r ≠ .coord v (some c)) :
    threadReply s t id src r = slotReply s t (some r) := by
  rw [threadReply_awaited h]
  split
  · exact absurd rfl hw
  · exact absurd rfl (hc _ _)
  · rfl

/-- A coordinate fill of a generation that has not been shot down is installed; a stale one only readies the slot. -/
theorem threadReply_fill (h : AwaitsReply s t id) (src : Nat) (v : Word) (ctx g tile fr gen : Nat) :
    threadReply s t id src (.coord v (some (ctx, g, tile, fr, gen))) =
      if gen < smGet 0 (getCore s t.core).clbGen (unitCl src) then slotReply s t none
      else slotReply (clbInstall s t.core ctx g tile fr) t (some (.coord v (some (ctx, g, tile, fr, gen)))) := by
  rw [threadReply_awaited h]
  simp only [fillStale, decide_eq_true_eq]

theorem slotWithdrawn_eq (s : State) (t : Tid) : slotWithdrawn s t =
    modSlot s t fun sl => { readied sl with ring := sl.ring.filter fun r => ¬ (r.pc = sl.pc ∧ r.st = .pending) } := by
  have pending : ∀ sl : Slot, (fun r : RingEnt => !(r.pc == sl.pc && r.st == .pending)) = fun r => decide ¬ (r.pc = sl.pc ∧ r.st = .pending) := by
    intro sl
    funext r
    rw [Bool.eq_iff_iff]
    simp
  simp only [slotWithdrawn, pending]

/-! ### Acknowledgements of accesses, and ring entries (R42, R137) -/

/-- An acknowledgement of an access: the late count, then the access's end. -/
theorem replyDeliver_access {u n m : Nat} {va : Word} (ht : takeArrived s u 1 isReply = some (p, s1))
    (hb : p.body = .reply (.access t id n m va) r) (hu : (getSlot s1 t).uid = some id) :
    exec (.replyDeliver u) s = .next (accessReply (Claim.lateCounted s1 t p va) t id n m r) := by
  rw [← lateCount_eq]
  change Host.Outcome.next (match takeArrived s u 1 isReply with | none => s | some (p, s) => _) = _
  simp only [ht, hb, hu, if_true]

theorem replyDeliver_ringDone {u : Nat} {seq : BitVec 32} {st : RingSt} {f : BitVec 6} {va : Word} (ht : takeArrived s u 1 isReply = some (p, s1))
    (hb : p.body = .ringDone t id seq st f va) (hu : (getSlot s1 t).uid = some id) :
    exec (.replyDeliver u) s = .next (orFlags (setRing (Claim.lateCounted s1 t p va) t seq st) t f) := by
  rw [← lateCount_eq]
  change Host.Outcome.next (match takeArrived s u 1 isReply with | none => s | some (p, s) => _) = _
  simp only [ht, hb, hu, if_true]

/-- An acknowledgement whose number is a ring entry's marks the entry. -/
theorem accessReply_ring {n m : Nat} (hu : (getSlot s t).uid = some id) (hn : 2 ^ 40 ≤ n) :
    accessReply s t id n m r = setRing s t (BitVec.ofNat 32 (n - 2 ^ 40)) (match r with | .fault c _ => .faulted c | _ => .done) := by
  unfold accessReply
  simp only [hu, bne_self_eq_false, Bool.false_eq_true, if_false, ge_iff_le, hn, if_true]
  cases r <;> rfl

/-- An acknowledgement of an access that belongs to no vector operation removes it and completes its ticket. -/
theorem accessReply_scalar {n m : Nat} {i : Infl} (hu : (getSlot s t).uid = some id) (hn : n < 2 ^ 40)
    (hi : (getSlot s t).infl.find? (fun i => i.id == n) = some i) (hop : i.op = 0 ∨ 2 ^ 32 ≤ i.op) :
    accessReply s t id n m r =
      let s3 := modSlot s t fun sl => { sl with infl := sl.infl.filter fun x => x.id ≠ n }
      match i.tick with
      | some (tl, k) => completeTicket s3 t tl k (match r with | .fault c _ => some c | _ => none)
      | none => s3 := by
  have drop : (fun x : Infl => x.id != n) = fun x => decide (x.id ≠ n) := by
    funext x
    rw [Bool.eq_iff_iff]
    simp
  have scalar : (0 < i.op && i.op < 2 ^ 32) = false := by
    rcases hop with h | h
    · simp [h]
    · rw [decide_eq_false (p := i.op < 2 ^ 32) (Nat.not_lt.mpr h), Bool.and_false]
  unfold accessReply
  simp only [hu, bne_self_eq_false, Bool.false_eq_true, if_false, ge_iff_le, Nat.not_le.mpr hn, hi, drop]
  simp only [scalar, Bool.false_eq_true, if_false]
  cases r <;> rfl

/-! ### Wakes (R106, R108, R363) -/

def isWake (p : Packet) : Bool := match p.body with | .wake _ _ => true | _ => false

/-- The chain of a root FORCE that ends with its wake. -/
def wakeChain (s : State) (w : Waiter) : State := if w.kind = 0 then wfcFree s w.chain else s

theorem wakeChain_tick (s : State) (w : Waiter) : tickN (wakeChain s w) = tickN s := by
  unfold wakeChain wfcFree
  split
  · split <;> rfl
  · rfl

variable {core : Nat} {w : Waiter} {d : Deliv}

theorem wakeDeliver_eq (ht : takeArrived s (coreUnit core) 1 isWake = some (p, s1)) (hb : p.body = .wake w d) :
    exec (.wakeDeliver core) s = .next (wakeOf s1 core w p d) := by
  have step : exec (.wakeDeliver core) s = .next (onArrival s (coreUnit core) 1 isWake fun p s =>
      match p.body with
      | .wake w d => wakeOf s core w p d
      | _ => s) := rfl
  rw [step, onArrival_taken ht]
  simp only [hb]

theorem wakeOf_thread (hk : w.kind ≠ 2) (hc : w.carry = false) : wakeOf s core w p d = wakeThread (wakeChain s w) core w p d := by
  unfold wakeOf
  simp only [hk, hc, if_false, Bool.false_eq_true]
  rfl

theorem wakeOf_carry (hk : w.kind ≠ 2) (hc : w.carry = true) (hl : p.late = none) :
    wakeOf s core w p d = wakeCarry (wakeChain s w) (coreCl core) w.uid d := by
  unfold wakeOf
  simp only [hk, hc, if_false, if_true, lateOff_inTime hl]
  rfl

theorem wakeOf_operand {cl key : Nat} (hk : w.kind = 2) (hr : w.ret = .task cl key) (hl : p.late = none) :
    wakeOf s core w p d = operandGot s cl key d := by
  unfold wakeOf
  simp only [hk, hr, if_true, platCount_inTime hl]

/-- The slot that has not left takes the outcome. -/
theorem wakeThread_slot (hr : retTid w.ret = some t) (hu : (getSlot s t).uid = some w.uid) (hd : (getSlot s t).demand = some w.handle) :
    wakeThread s core w p d = modSlot (Claim.lateCounted s t p w.handle) t fun sl => { sl with deliv := some d, wait := none, toUnit := none } := by
  rw [← lateCount_eq]
  unfold wakeThread
  simp [hr, hu, hd]

/-- A continuation that has left its slot is sent to an injection queue with the outcome. -/
theorem wakeThread_cont (hr : retTid w.ret = some t) (hu : (getSlot s t).uid ≠ some w.uid) (ha : (getCont s w.uid).alive = true)
    (hbd : (getCont s w.uid).bead = some w.handle) (hl : p.late = none) :
    wakeThread s core w p d = sendEnqueue (modCont s w.uid fun k => { k with deliv := some d, bead := none }) (coreUnit core) w.uid (.mem w.cont) := by
  unfold wakeThread
  simp [hr, hu, ha, hbd, lateOff_inTime hl]

/-- A wake that finds no wait of its thread has no effect. -/
theorem wakeThread_stale (hr : retTid w.ret = some t) (hd : (getSlot s t).demand ≠ some w.handle) (hbd : (getCont s w.uid).bead ≠ some w.handle) :
    wakeThread s core w p d = s := by
  unfold wakeThread
  simp [hr, hd, hbd]

/-- A carry woken is enqueued in its cluster at its record's priority. -/
theorem wakeCarry_found {cl uid : Nat} {c : CarryIn} (hc : (getCl s cl).carries.find? (fun c => c.uid == uid) = some c) :
    wakeCarry s cl uid d = modCl (modCont s uid fun k => { k with deliv := some d }) cl fun x =>
      { x with inj := x.inj ++ [{ kind := .cont uid (.held c.ws), ctx := c.ctx, prio := recPrio c.ws, resumed := true, since := tickN s }] } := by
  unfold wakeCarry
  simp only [hc]
  rfl

/-! ### The LATE trap (R43) -/

theorem lateTrap_due {core slot : Nat} (hd : (getSlot s ⟨core, slot⟩).csr.lateDue = true) (hi : mayIssue s ⟨core, slot⟩ = true)
    (hm : midway (getSlot s ⟨core, slot⟩) = false) :
    exec (.lateTrap core slot) s = .next (takeTrap (modCsr s ⟨core, slot⟩ fun c => { c with lateTval := none, lateDue := false })
      ⟨core, slot⟩ 0x16 ((getSlot s ⟨core, slot⟩).csr.lateTval.getD 0) (getSlot s ⟨core, slot⟩).pc) :=
  congrArg Host.Outcome.next (if_pos (by rw [hd, hi, hm]; rfl))

/-! ### The clauses together -/

theorem replyResults : Claim.ReplyResults := by
  refine ⟨fun s u p s1 ht => ⟨fun t id va r hb => ?_, fun t id n m va r hb hu => ?_, fun t id seq st f va hb hu => replyDeliver_ringDone ht hb hu⟩,
    fun s core p s1 w d ht hb => ?_, fun s core slot hd hi hm => lateTrap_due hd hi hm⟩
  · refine ⟨fun hu => ?_, fun hu hw hres => ?_⟩
    · rw [replyDeliver_thread ht hb, if_neg hu]
    · have awaits := AwaitsReply.lateCounted ⟨hu, hw, hres⟩ p va
      rw [replyDeliver_thread ht hb, if_pos hu]
      refine ⟨fun hw hc => ?_, fun hw => ?_, fun v ctx g tile fr gen hr => ?_⟩
      · rw [threadReply_plain awaits _ hw hc]
        rfl
      · rw [hw, threadReply_awaited awaits, slotWithdrawn_eq]
      · subst hr
        rw [threadReply_fill awaits]
        exact ⟨fun h => by rw [if_neg (Nat.not_lt.mpr h)]; rfl, fun h => by rw [if_pos h]; rfl⟩
  · have keeps : (getSlot (Claim.lateCounted s1 t p va) t).uid = some id := by
      rw [getSlot_lateCounted]
      exact hu
    rw [replyDeliver_access ht hb hu]
    refine ⟨fun hn => congrArg _ (accessReply_ring keeps hn), fun i hn hi hop => ?_⟩
    have found : (getSlot (Claim.lateCounted s1 t p va) t).infl.find? (fun i => i.id == n) = some i := by
      rw [getSlot_lateCounted]
      exact hi
    exact congrArg _ (accessReply_scalar keeps hn found hop)
  · rw [wakeDeliver_eq ht hb]
    refine ⟨fun t v hk hc hr => ?_, fun cl key hk hr hl => by rw [wakeOf_operand hk hr hl], fun c hk hc hl hf => ?_⟩
    · have thread : retTid w.ret = some t := by rw [hr]; rfl
      rw [wakeOf_thread hk hc]
      exact ⟨fun hu hd => congrArg _ (wakeThread_slot thread hu hd), fun hu ha hbd hl => congrArg _ (wakeThread_cont thread hu ha hbd hl),
        fun hd hbd => congrArg _ (wakeThread_stale thread hd hbd)⟩
    · have found : (getCl (wakeChain s1 w) (coreCl core)).carries.find? (fun c => c.uid == w.uid) = some c := hf
      rw [wakeOf_carry hk hc hl, wakeCarry_found found, wakeChain_tick, tickN, takeArrived_tick ht]
      rfl

end Sys2Proof.Proofs
end

section
/-!
PROOFS. What a store at a home and the test of the accesses parked at a core leave of the cores, and the tail of a queue after an
element is written (R133, R310, R356).
-/

namespace Sys2Proof.Proofs

open Sys2Proof.Machine Sys2Proof.Laws

/-! ### A store at its home -/

theorem cores_foldl {β : Type} {f : State → β → State} (h : ∀ s b, (f s b).cores = s.cores) (l : List β) (s : State) :
    (l.foldl f s).cores = s.cores := foldl_keeps State.cores h l s

@[simp] theorem countError_cores (s : State) (k : Nat) : (countError s k).cores = s.cores := by
  unfold countError
  split <;> rfl

@[simp] theorem markRead_cores (s : State) (k n : Nat) : (markRead s k n).cores = s.cores := by
  refine cores_foldl (fun t w => ?_) (wordsOf k n) s
  split
  · exact countError_cores _ _
  · rfl

@[simp] theorem rawStore_cores (s : State) (k n v : Nat) : (rawStore s k n v).cores = s.cores := by
  refine cores_foldl (fun t w => ?_) (wordsOf k n) s
  simp only
  split
  · rfl
  · split
    · exact countError_cores _ _
    · rfl

@[simp] theorem sendEnqueue_cores (s : State) (unit uid : Nat) (src : RecSrc) : (sendEnqueue s unit uid src).cores = s.cores := by
  unfold sendEnqueue
  simp only
  split
  · exact (send_trafficOnly _ _ _ _ _ _).cores
  · rfl

@[simp] theorem releaseParks_cores (s : State) (k n : Nat) : (releaseParks s k n).cores = s.cores := by
  unfold releaseParks
  split
  · rfl
  · refine cores_foldl (fun t p => ?_) _ _
    split
    · split
      · exact sendEnqueue_cores _ _ _ _
      · rfl
    · rfl

@[simp] theorem homeWrite_cores (s : State) (k n v : Nat) : (homeWrite s k n v).cores = s.cores :=
  (releaseParks_cores _ _ _).trans (rawStore_cores _ _ _ _)

@[simp] theorem setFull_cores (s : State) (k n : Nat) (b : Bool) : (setFull s k n b).cores = s.cores := rfl

/-! ### The records of a home (R209, R210) -/

@[simp] theorem ringWrite_cores (s : State) (fn : Nat) (ws : List Word) : (ringWrite s fn ws).cores = s.cores := by
  unfold ringWrite
  simp only
  split
  · rfl
  · refine cores_foldl (fun t b => ?_) _ s
    split <;> rfl

@[simp] theorem diverge_cores (s : State) (unit addr cls src : Nat) : (diverge s unit addr cls src).cores = s.cores :=
  ringWrite_cores _ _ _

/-- The records of an operation are in the trace ring, its home and its partition. -/
@[simp] theorem homeNote_cores (s : State) (unit cls src srcUnit addr : Nat) (urgent : Bool) :
    (homeNote s unit cls src srcUnit addr urgent).cores = s.cores := by
  unfold homeNote
  simp only
  split
  · rfl
  · rw [modHome_cores]
    split <;> simp only [apply_ite State.cores, modFn_cores, diverge_cores, ringWrite_cores, ite_self]

/-! ### The accesses parked at a core (R310) -/

@[simp] theorem syncAct_cores (s : State) (op : SyncOp) : (syncAct s op).1.cores = s.cores := by
  have snap : ∀ l : List Nat, (l.foldl (fun s w => markRead s (w * 4) 4) s).cores = s.cores :=
    fun l => cores_foldl (fun t w => markRead_cores t _ _) l s
  unfold syncAct
  split
  case h_1 | h_2 =>
    simp only
    split
    · simp only [apply_ite State.cores, setFull_cores, ite_self]
    · exact markRead_cores _ _ _
  case h_3 | h_4 => exact homeWrite_cores _ _ _ _
  case h_5 =>
    simp only
    split
    · rfl
    · exact snap _

@[simp] theorem parkedReply_cores (s : State) (unit cls : Nat) (p : Parked) (ret : Ret) (r : Res) : (parkedReply s unit cls p ret r).cores = s.cores :=
  (inject_trafficOnly _ _).cores

theorem retestPass_cores (s : State) (unit : Nat) (l : List Parked) : (retestPass s unit l).1.cores = s.cores := by
  induction l generalizing s with
  | nil => rfl
  | cons p r ih =>
    unfold retestPass
    split
    · simp only
      split
      · rw [ih, parkedReply_cores, homeNote_cores, syncAct_cores, modHome_cores]
      · exact ih s
    · exact ih s

theorem retestGo_cores (unit n : Nat) (s : State) : (retestGo unit n s).cores = s.cores := by
  induction n generalizing s with
  | zero => rfl
  | succ n ih =>
    unfold retestGo
    simp only
    split
    · rw [ih, retestPass_cores]
    · exact retestPass_cores _ _ _

@[simp] theorem retest_cores (s : State) (core : Nat) : (retest s core).cores = s.cores := retestGo_cores _ _ _

/-! ### The tail of a queue (R133) -/

theorem qGet_qSet_same (s : State) (core q : Nat) (c : QCtl) : qGet (qSet s core q c) core q = c := by
  unfold qGet qSet
  rw [getCore_modCore_same]
  exact smGet_smSet_same _ _ _ _

/-- A queue's control words are those of its core. -/
theorem qGet_of_cores {s t : State} (h : t.cores = s.cores) (core q : Nat) : qGet t core q = qGet s core q := by
  rw [qGet, getCore, h, ← getCore, ← qGet]

/-- An element written advances the tail of its queue and nothing else of its control words. -/
theorem qGet_qPush (s : State) (core q : Nat) (v : Word) (tag : Bool) : qGet (qPush s core q v tag) core q =
    { qGet s core q with w1 := BitVec.ofNat 64 ((qTail (qGet s core q) + 1) % 2 ^ 32 * 2 ^ 32 + qHead (qGet s core q)) } := by
  unfold qPush
  simp only
  rw [qGet_of_cores (retest_cores _ _), qGet_of_cores (setFull_cores _ _ _ _), qGet_of_cores (setFull_cores _ _ _ _), qGet_qSet_same]
  rfl

end Sys2Proof.Proofs
end

section
/-!
PROOFS. Messages, queue elements, links and forwarding at a core (R124, R125, R133, R134, R202): O51.
-/

namespace Sys2Proof.Proofs

open Sys2Proof.Machine Sys2Proof.Laws

variable {s s1 : State} {core : Nat} {p : Packet} {t : Tid} {r : Ret}

/-- A home whose partition neither records nor replays keeps no records. -/
theorem homeNote_untraced {unit : Nat} (hrec : (getFn s (unitFn s unit)).recMode = false) (hrep : (getFn s (unitFn s unit)).replay = false)
    (cls src srcUnit addr : Nat) (urgent : Bool) : homeNote s unit cls src srcUnit addr urgent = s :=
  if_pos (by rw [hrec, hrep]; rfl)

/-! ### Messages (R124) -/

theorem messageArrival_eq {m : Nat} {v : Word} (ht : takeArrived s (coreUnit core) 0 (msgReady s) = some (p, s1)) (hb : p.body = .msg t m v r)
    (hrec : (getFn s1 (unitFn s1 (coreUnit core))).recMode = false) (hrep : (getFn s1 (unitFn s1 (coreUnit core))).replay = false) (hr : r ≠ .none) :
    exec (.messageArrival core) s = .next (
      if portsThread (getSlot s1 t) then
        Claim.replied (modSlot s1 t fun sl => { sl with mb := smSet {} sl.mb m { val := v, full := true } }) 17 (coreUnit core) p r .ok
      else Claim.replied s1 17 (coreUnit core) p r (.fault 0x08 0)) := by
  have step : exec (.messageArrival core) s = .next (onArrival s (coreUnit core) 0 (msgReady s) fun p s =>
      match p.body with
      | .msg t m v r =>
        if portsThread (getSlot s t) then
          let s := homeNote s (coreUnit core) 6 (pktSrc s p) p.src (mbKey t m) (retUrgent s (bodyRet p.body))
          reply (modSlot s t fun sl => { sl with mb := smSet {} sl.mb m { val := v, full := true } }) 17 (coreUnit core) p r .ok
        else reply s 17 (coreUnit core) p r (.fault 0x08 0)
      | _ => s) := rfl
  rw [step, onArrival_taken ht]
  simp only [hb, homeNote_untraced hrec hrep, reply_eq_replied hr]

/-! ### Queue elements (R133, R320) -/

theorem queueElementArrival_eq {q : Nat} {v : Word} {tag : Bool} (ht : takeArrived s (coreUnit core) 0 (elemReady s core) = some (p, s1))
    (hb : p.body = .qelem q v tag r) (hrec : (getFn s1 (unitFn s1 (coreUnit core))).recMode = false)
    (hrep : (getFn s1 (unitFn s1 (coreUnit core))).replay = false) (hr : r ≠ .none) :
    exec (.queueElementArrival core) s = .next (
      if qEn (qGet s1 core q) then Claim.replied (qPush s1 core q v tag) 17 (coreUnit core) p r .ok
      else Claim.replied s1 17 (coreUnit core) p r (.fault 0x08 0)) := by
  have step : exec (.queueElementArrival core) s = .next (onArrival s (coreUnit core) 0 (elemReady s core) fun p s =>
      match p.body with
      | .qelem q v tag r =>
        if qEn (qGet s core q) then
          reply (qPush (homeNote s (coreUnit core) 6 (pktSrc s p) p.src (qNextKey s core q) (retUrgent s (bodyRet p.body))) core q v tag)
            17 (coreUnit core) p r .ok
        else reply s 17 (coreUnit core) p r (.fault 0x08 0)
      | _ => s) := rfl
  rw [step, onArrival_taken ht]
  simp only [hb, homeNote_untraced hrec hrep, reply_eq_replied hr]

/-! ### Forwarding (R202) -/

/-- A packet that FORWARD_PACKET takes: one of the request network, else one of the response network. -/
def ComesToForward (s : State) (core : Nat) (p : Packet) (s1 : State) : Prop :=
  takeArrived s (coreUnit core) 0 (fwdReady s) = some (p, s1) ∨
    (takeArrived s (coreUnit core) 0 (fwdReady s) = none ∧ takeArrived s (coreUnit core) 1 (fwdReady s) = some (p, s1))

theorem ComesToForward.tick (h : ComesToForward s core p s1) : s1.tick = s.tick := by
  rcases h with h | ⟨-, h⟩ <;> exact takeArrived_tick h

/-- A packet carries `b` for the thread `t`: a message to it, or a packet already forwarded. -/
def CarriesFor (p : Packet) (t : Tid) (b : Body) : Prop := (p.body = b ∧ ∃ m v r, b = .msg t m v r) ∨ p.body = .forward t b

/-- What becomes of it: it goes to its thread's new place, or ends here. -/
def passOn (s : State) (core : Nat) (p : Packet) (t : Tid) (b : Body) : State :=
  match fwdOf s t with
  | some f => forwardTo s f (slackLeft (tickN s) p) (lateAge (tickN s) p) b
  | none => forwardEnd s (coreUnit core) p t b

theorem forwardPacket_carries {b : Body} (h : ComesToForward s core p s1) (hb : CarriesFor p t b) :
    exec (.forwardPacket core) s = .next (passOn s1 core p t b) := by
  have step : exec (.forwardPacket core) s = execForwardPacket core s := rfl
  rw [step, execForwardPacket]
  rcases h with h | ⟨h0, h⟩
  · rcases hb with ⟨hb, m, v, r, rfl⟩ | hb <;> simp only [h, hb] <;> rfl
  · rcases hb with ⟨hb, m, v, r, rfl⟩ | hb <;> simp only [h0, h, hb] <;> rfl

/-- The entry that a packet follows bears the old place of its thread. -/
theorem fwdOf_old {f : Fwd} (h : fwdOf s t = some f) : f.old = t := eq_of_beq (List.find?_some (p := fun f : Fwd => f.old == t) h)

/-! ### Links and the ports' timeout (R125, R134) -/

theorem exec_linkElementTransfer (core link : Nat) (s : State) : exec (.linkElementTransfer core link) s = execLinkElementTransfer core link s := rfl

theorem linkElementTransfer_east {x : LinkEl} {rest : List LinkEl} (hd : dieRuns s (coreDie core) = true) (he : qEn (qGet s core 0) = true)
    (hf : qFull (qGet s core 0) = false) (hl : (getCore s core).link0 = x :: rest) :
    exec (.linkElementTransfer core 0) s = .next (qPush (modCore s core fun c => { c with link0 := rest }) core 0 x.v x.tag) := by
  rw [exec_linkElementTransfer, execLinkElementTransfer]
  simp [hd, hl, he, hf]

theorem linkElementTransfer_south {x : LinkEl} {rest : List LinkEl} (hd : dieRuns s (coreDie core) = true) (he : qEn (qGet s core 1) = true)
    (hf : qFull (qGet s core 1) = false) (hl : (getCore s core).link1 = x :: rest) :
    exec (.linkElementTransfer core 1) s = .next (qPush (modCore s core fun c => { c with link1 := rest }) core 1 x.v x.tag) := by
  rw [exec_linkElementTransfer, execLinkElementTransfer]
  simp [hd, hl, he, hf]

/-- A port read whose deadline has passed while the port is empty traps. -/
theorem portReadTimeout_passed {slot n d : Nat} (hu : (getSlot s ⟨core, slot⟩).uid.isSome = true)
    (hw : (getSlot s ⟨core, slot⟩).wait = some (.port n (some d))) (hd : d ≤ s.tick.toNat) (he : portEmpty s ⟨core, slot⟩ n = true) :
    exec (.portReadTimeout core slot) s = .next (takeTrap s ⟨core, slot⟩ 0x0A 0 (getSlot s ⟨core, slot⟩).pc) := by
  obtain ⟨uid, hu⟩ := Option.isSome_iff_exists.mp hu
  change Host.Outcome.next (match (getSlot s ⟨core, slot⟩).uid, (getSlot s ⟨core, slot⟩).wait with
    | some _, some (.port n (some d)) => _ | _, _ => s) = _
  simp only [hu, hw]
  exact congrArg _ (if_pos (by simp [tickN, hd, he]))

/-- An entry unused for 65,536 ticks is dropped, but a carry's. -/
theorem forwardExpiry_eq {i : Nat} {f : Fwd} (h : (getCore s core).fwd[i]? = some f) : exec (.forwardExpiry core i) s =
    .next (if f.carry = true ∨ s.tick.toNat < f.tick + 65536 then s else modCore s core fun c => { c with fwd := delAt c.fwd i }) := by
  change Host.Outcome.next (match (getCore s core).fwd[i]? with
    | some f => if f.carry || tickN s < f.tick + 65536 then s else modCore s core fun c => { c with fwd := delAt c.fwd i } | none => s) = _
  simp only [h, Bool.or_eq_true, decide_eq_true_eq]
  rfl

/-! ### The clauses together -/

theorem portDeliveries : Claim.PortDeliveries := by
  refine ⟨fun s core p s1 => ⟨fun t m v r ht hb hr hrec hrep => ?_, fun q v tag r ht hb hr hrec hrep => ?_, fun t b f hc ht hb hf => ?_,
    fun fn t seq a0 a1 hc hb hf => ?_, fun t m v from' id va hc hb hf => ?_, fun i f hf => forwardExpiry_eq hf⟩,
    fun s core link x rest hd he hf => ⟨fun h0 hl => ?_, fun h1 hl => ?_⟩, fun s core slot n d hu hw hd he => portReadTimeout_passed hu hw hd he,
    qGet_qPush⟩
  · rw [messageArrival_eq ht hb hrec hrep hr]
    refine ⟨fun hp hl => congrArg _ (if_pos ?_), fun hp => congrArg _ (if_neg ?_)⟩
    · simpa [portsThread, hp] using hl
    · simp [portsThread, hp]
  · rw [queueElementArrival_eq ht hb hrec hrep hr]
    exact ⟨fun he => congrArg _ (if_pos he), fun he => congrArg _ (if_neg (by simp [he]))⟩
  · rw [forwardPacket_carries hc hb]
    simp only [passOn, hf, forwardTo, fwdOf_old hf, ht, tickN, ComesToForward.tick hc]
  · rw [forwardPacket_carries hc (.inr hb)]
    simp only [passOn, hf, forwardEnd, lateCount_eq]
  · rw [forwardPacket_carries hc (.inr hb)]
    simp only [passOn, hf, forwardEnd, retTid, tickN]
  · subst h0
    exact linkElementTransfer_east hd he hf hl
  · subst h1
    exact linkElementTransfer_south hd he hf hl

/-- Settles O51, from what replies and wakes do to the threads that wait and what arrives at a core's ports. -/
theorem deliveryResults : Obligations.DeliveryResults := ⟨replyResults, portDeliveries⟩

end Sys2Proof.Proofs
end

section
/-!
PROOFS. Control and status registers: what a read gives, which values a write takes, and what reads back (R272, R394).
-/

namespace Sys2Proof.Proofs

open Sys2Proof.Machine Sys2Proof.Laws

variable {s s1 s2 : State} {e : Env} {n : Nat} {v x : Word} {d a : BitVec 7} {c : BitVec 11}

theorem exec_csrrd (d : BitVec 7) (c : BitVec 11) (s : State) : exec (.csrrd d c) s = execCsrrd d c s := rfl
theorem exec_csrwr (d a : BitVec 7) (c : BitVec 11) (s : State) : exec (.csrwr d a c) s = execCsrwr d a c s := rfl
theorem exec_csrset (d a : BitVec 7) (c : BitVec 11) (s : State) : exec (.csrset d a c) s = execCsrset d a c s := rfl

/-! ### Words with a reserved part -/

/-- A word shares no bit with the bits from k up exactly where it is below 2^k. -/
theorem and_high_eq_zero_iff {v : Word} {k : Nat} : v &&& (BitVec.allOnes 64 <<< k) = 0 ↔ v.toNat < 2 ^ k := by
  constructor
  · intro h
    refine Nat.lt_pow_two_of_testBit _ fun i hi => ?_
    by_cases hl : i < 64
    · have bit : (v &&& (BitVec.allOnes 64 <<< k)).getLsbD i = false := by rw [h]; exact BitVec.getLsbD_zero
      have high : i - k < 64 := by omega
      rw [BitVec.getLsbD_and, BitVec.getLsbD_shiftLeft, BitVec.getLsbD_allOnes] at bit
      simp only [hl, Nat.not_lt.mpr hi, high, decide_true, decide_false, Bool.not_false, Bool.and_true] at bit
      exact bit
    · exact BitVec.getLsbD_of_ge v i (by omega)
  · intro h
    apply BitVec.eq_of_getLsbD_eq
    intro i hi
    by_cases hk : i < k
    · simp [hk]
    · have : v.getLsbD i = false := Nat.testBit_lt_two_pow (Nat.lt_of_lt_of_le h (Nat.pow_le_pow_right (by decide) (by omega)))
      simp [this]

/-- A word shares no bit with the bits below k exactly where it is a multiple of 2^k. -/
theorem and_low_eq_zero_iff {v m : Word} {k : Nat} (hm : m.toNat = 2 ^ k - 1) : v &&& m = 0 ↔ v.toNat % 2 ^ k = 0 := by
  rw [← BitVec.toNat_inj, BitVec.toNat_and, hm, Nat.and_two_pow_sub_one_eq_mod]
  rfl

theorem setWidth_setWidth_of_lt {k : Nat} {v : Word} (h : v.toNat < 2 ^ k) : (v.setWidth k).setWidth 64 = v := by
  apply BitVec.eq_of_toNat_eq
  rw [BitVec.toNat_setWidth, BitVec.toNat_setWidth, Nat.mod_eq_of_lt h, Nat.mod_eq_of_lt v.isLt]

theorem ofBit_of_lt {v : Word} (h : v.toNat < 2 ^ 1) : wd (b2n (bitAt v 0)) = v := by
  apply BitVec.eq_of_toNat_eq
  have : v.toNat = 0 ∨ v.toNat = 1 := by omega
  rcases this with h | h <;> simp [wd, b2n, bitAt, BitVec.getLsbD, h]

/-! ### The registers of R394's table -/

theorem csrGet_table (h : e.t = s.cur) : ∀ p ∈ Claim.csrTable s, csrGet e s p.1 = p.2 := by
  simp only [Claim.csrTable, List.forall_mem_cons, BitVec.ofNat_toNat, ← h]
  simp [csrGet, wd, tidWord, tattrOf, Claim.bit, b2n]


theorem csrLow_table (s : State) : (Claim.csrTable s).map (·.1) = (List.range 0x400).filter csrLow := by
  have keys : (List.range 0x400).filter csrLow = (Claim.csrTable State.reset).map (·.1) := by decide +kernel
  rw [keys]
  rfl

/-- What R394 lets be written: no bit of the mask, and no reserved rounding code. -/
def Takes (n : Nat) (mask v : Word) : Prop := v &&& mask = 0 ∧ (n = 0x40 → v.toNat % 8 ≤ 5)


theorem takes_high {mask : Word} {k : Nat} (hm : mask = BitVec.allOnes 64 <<< k) (h : Takes n mask v) : v.toNat < 2 ^ k :=
  and_high_eq_zero_iff.mp (hm ▸ h.1)

theorem fld_high_eq_zero {mask : Word} {k : Nat} (hk : k ≤ 64) (hm : mask = BitVec.allOnes 64 <<< k) : fld v 63 k = 0 ↔ v &&& mask = 0 := by
  have := v.isLt
  rw [hm, and_high_eq_zero_iff, fld_eq, Nat.mod_eq_of_lt]
  · rw [Nat.div_eq_zero_iff]
    simp
  · rw [Nat.div_lt_iff_lt_mul (by positivity), ← Nat.pow_add]
    exact Nat.lt_of_lt_of_eq this (by congr 1; omega)

theorem bitAt_zero_eq_false (v : Word) : bitAt v 0 = false ↔ v &&& 1 = 0 := by
  rw [and_low_eq_zero_iff (k := 1) rfl, bitAt, BitVec.getLsbD, Nat.testBit_zero]
  simp

/-- A value is taken exactly where the device's check of it passes. -/
theorem csrOk_writable : ∀ p ∈ Claim.csrWritable, csrOk p.1 v = true ↔ Takes p.1 p.2 v := by
  have low : fld v 5 0 = 0 ↔ v &&& 0x3F = 0 := by
    rw [and_low_eq_zero_iff (k := 6) rfl, fld_eq, Nat.pow_zero, Nat.div_one]
  have code : fld v 2 0 = v.toNat % 8 := by rw [fld_eq, Nat.pow_zero, Nat.div_one]; rfl
  have fields : (fld v 63 12 = 0 ↔ v &&& ~~~0xFFF = 0) ∧ (fld v 63 2 = 0 ↔ v &&& ~~~3 = 0) ∧ (fld v 63 1 = 0 ↔ v &&& ~~~1 = 0) ∧
      (fld v 63 4 = 0 ∧ fld v 2 0 ≤ 5 ↔ v &&& ~~~0xF = 0 ∧ v.toNat % 8 ≤ 5) ∧ (fld v 63 6 = 0 ↔ v &&& ~~~0x3F = 0) ∧
      (fld v 63 32 = 0 ↔ v &&& ~~~0xFFFFFFFF = 0) ∧ (bitAt v 0 = false ↔ v &&& 1 = 0) ∧ (fld v 5 0 = 0 ↔ v &&& 0x3F = 0) :=
    ⟨fld_high_eq_zero (by decide) rfl, fld_high_eq_zero (by decide) rfl, fld_high_eq_zero (by decide) rfl,
      and_congr (fld_high_eq_zero (by decide) rfl) (by rw [code]), fld_high_eq_zero (by decide) rfl, fld_high_eq_zero (by decide) rfl,
      bitAt_zero_eq_false v, low⟩
  simp only [Claim.csrWritable, List.forall_mem_cons]
  simpa [csrOk, Takes] using fields

/-- What is written to a register reads back, but that a zero fseed becomes the seed of R259. -/
theorem csrPut_reads : ∀ p ∈ Claim.csrWritable, Takes p.1 p.2 v →
    csrGet e (csrPut s1 e.t p.1 v) p.1 = if p.1 = 0x42 ∧ v = 0 then 0x9E3779B9 else v := by
  have narrow : ∀ {n mask k}, mask = BitVec.allOnes 64 <<< k → Takes n mask v → (v.setWidth k).setWidth 64 = v := fun hm h =>
    setWidth_setWidth_of_lt (takes_high hm h)
  have flag : ∀ {n mask}, mask = BitVec.allOnes 64 <<< 1 → Takes n mask v → wd (b2n (bitAt v 0)) = v := fun hm h =>
    ofBit_of_lt (takes_high hm h)
  have seed : Takes 0x42 (~~~0xFFFFFFFF) v → (seedOf (v.setWidth 32)).setWidth 64 = if v = 0 then 0x9E3779B9 else v := by
    intro h
    have back := narrow (k := 32) rfl h
    by_cases hv : v = 0
    · subst hv; rfl
    · rw [seedOf, if_neg (fun hz => hv (by rw [← back, hz]; rfl)), if_neg hv, back]
  have sk : ∀ n, Takes n (~~~0xFFF) v → (v.setWidth 12).setWidth 64 = v := fun _ => narrow rfl
  have fields : (Takes 0x14 (~~~3) v → (v.setWidth 2).setWidth 64 = v) ∧ (Takes 0x16 (~~~1) v → wd (b2n (bitAt v 0)) = v) ∧
      (Takes 0x22 (~~~1) v → wd (b2n (bitAt v 0)) = v) ∧ (Takes 0x40 (~~~0xF) v → (v.setWidth 4).setWidth 64 = v) ∧
      (Takes 0x41 (~~~0x3F) v → (v.setWidth 6).setWidth 64 = v) ∧
      (Takes 0x42 (~~~0xFFFFFFFF) v → (seedOf (v.setWidth 32)).setWidth 64 = if v = 0 then 0x9E3779B9 else v) :=
    ⟨narrow rfl, flag rfl, flag rfl, narrow rfl, narrow rfl, seed⟩
  simp only [Claim.csrWritable, List.forall_mem_cons]
  simpa [csrGet, csrPut] using ⟨sk 0x10, sk 0x11, sk 0x12, sk 0x13, fields⟩

/-! ### Which accesses are allowed (R198, R272) -/

theorem csrAllowed_eq (e : Env) (n : Nat) (wr : Bool) : csrAllowed e n wr =
    need ((decide (n < 0x400) || e.sl.priv && ((n != 0x404 && n != 0x405) || isSvc e.t.core)) && !(wr && csrRO n)) 0x04 0 := by
  unfold csrAllowed
  by_cases hn : n < 0x400
  · simp [hn, Nat.not_le.mpr hn]
  · cases e.sl.priv <;> cases hs : (n != 0x404 && n != 0x405) || isSvc e.t.core <;> simp [hn, Nat.not_lt.mp hn, need, trapX, Bind.bind, Except.bind]

/-- An access to a register that is assigned, allowed and not waited for. -/
structure Reaches (e : Env) (n : Nat) (wr : Bool) : Prop where
  assigned : csrGone e n = false
  allowed : csrAllowed e n wr = .ok ()
  ready : csrWait e n = .ok ()

theorem csrWait_ok (h : n = 0x41 → e.sl.defer = [] ∧ ∀ v ∈ e.sl.vops, v.isLd = false) : csrWait e n = .ok () := by
  unfold csrWait await
  refine if_pos ?_
  by_cases hn : n = 0x41
  · obtain ⟨hd, hv⟩ := h hn
    simpa [hd] using .inr hv
  · simp [hn]

/-- A thread register is reached by every thread. -/
theorem reaches_thread {wr : Bool} (hn : n < 0x400) (assigned : csrLow n = true) (ro : (wr && csrRO n) = false)
    (wait : n = 0x41 → e.sl.defer = [] ∧ ∀ v ∈ e.sl.vops, v.isLd = false) : Reaches e n wr where
  assigned := by simp [csrGone, assigned, Nat.not_lt.mpr (show n ≤ 0x405 by omega)]
  allowed := by simp [csrAllowed_eq, hn, ro, need]
  ready := csrWait_ok wait

/-- A privileged register is reached by a privileged thread, npost and hsk on a service core. -/
theorem reaches_privileged {wr : Bool} (low : 0x400 ≤ n) (high : n ≤ 0x405) (hp : e.sl.priv = true)
    (svc : n = 0x404 ∨ n = 0x405 → coreIdx e.t.core = 16) (ro : (wr && csrRO n) = false) : Reaches e n wr where
  assigned := by simp [csrGone, Nat.not_lt.mpr low, Nat.not_lt.mpr high]
  allowed := by
    have : ((n != 0x404 && n != 0x405) || isSvc e.t.core) = true := by
      by_cases hs : n = 0x404 ∨ n = 0x405
      · simp [isSvc, svc hs]
      · push Not at hs
        simp [hs]
    simp [csrAllowed_eq, hp, this, ro, need]
  ready := csrWait_ok (by omega)

/-! ### CSRRD -/

/-- The state in which a read is taken: one of npost counts a free value. -/
def csrReadFrom (s : State) (n : Nat) : State := if n = 0x404 then { s with freeCnt := s.freeCnt + 1 } else s

theorem csrrd_next (hr : Claim.Runs s) (hc : chk (envOf 4 (Enc.csrrd d c) s) [] [d.toNat] [] = .ok ())
    (h : Reaches (envOf 4 (Enc.csrrd d c) s) c.toNat false)
    (hw : writeR (envOf 4 (Enc.csrrd d c) s) (csrReadFrom s c.toNat) d.toNat (csrGet (envOf 4 (Enc.csrrd d c) s) s c.toNat) = .ok s1) :
    exec (.csrrd d c) s = .next (done (envOf 4 (Enc.csrrd d c) s) s1) := by
  rw [exec_csrrd]
  refine thr_next hr.1 hr.2 ?_
  unfold csrReadFrom at hw
  simp only [h.assigned, hc, h.allowed, h.ready, envOf_s, hw, Bind.bind, Except.bind, pure, Except.pure, Bool.false_eq_true, if_false]

theorem csrrd_gone (hr : Claim.Runs s) (h : csrGone (envOf 4 (Enc.csrrd d c) s) c.toNat = true) :
    exec (.csrrd d c) s = .next (takeTrap s s.cur 0x01 ((Enc.csrrd d c).setWidth 64) (getSlot s s.cur).pc) := by
  rw [exec_csrrd]
  refine thr_stop hr.1 hr.2 (st := .trap 0x01 _) ?_
  simp only [h, if_true]
  rfl

theorem csrrd_denied (hr : Claim.Runs s) (hc : chk (envOf 4 (Enc.csrrd d c) s) [] [d.toNat] [] = .ok ())
    (assigned : csrGone (envOf 4 (Enc.csrrd d c) s) c.toNat = false) (h : csrAllowed (envOf 4 (Enc.csrrd d c) s) c.toNat false = .error (.trap 0x04 0)) :
    exec (.csrrd d c) s = .next (takeTrap s s.cur 0x04 0 (getSlot s s.cur).pc) := by
  rw [exec_csrrd]
  refine thr_stop hr.1 hr.2 (st := .trap 0x04 0) ?_
  simp only [assigned, hc, h, Bind.bind, Except.bind, Bool.false_eq_true, if_false]

theorem csrReads : Claim.CsrReads := by
  refine ⟨fun d c s s1 hr hc p hp hn wait hw => ?_, fun d c s hr hn out => ?_, fun d c s hr hc hn hp => ?_, fun d c s hr hn hp => ?_⟩
  · have key : c.toNat ∈ (List.range 0x400).filter csrLow := by
      rw [← csrLow_table s, ← hn]
      exact List.mem_map_of_mem hp
    obtain ⟨low, assigned⟩ := List.mem_filter.mp key
    have low : c.toNat < 0x400 := List.mem_range.mp low
    refine csrrd_next hr hc (reaches_thread low assigned rfl wait) ?_
    rw [csrReadFrom, if_neg (by omega), ← hn, csrGet_table rfl p hp]
    exact hw
  · refine csrrd_gone hr ?_
    rw [csrLow_table] at out
    have : csrLow c.toNat = false := by
      by_contra h
      exact out (List.mem_filter.mpr ⟨List.mem_range.mpr hn, Bool.eq_true_of_not_eq_false h⟩)
    simp [csrGone, hn, this]
  · refine csrrd_denied hr hc ?_ ?_
    · simp [csrGone, hp, Nat.not_lt.mpr hn]
    · simp [csrAllowed_eq, hp, Nat.not_lt.mpr hn, need, trapX]
  · exact csrrd_gone hr (by simp [csrGone, hp, hn])

/-! ### CSRWR and CSRSET -/

/-- The two instructions that write a register, with the new value that each makes of the old one and g[a]. -/
noncomputable def csrWriters (d a : BitVec 7) (c : BitVec 11) : List (Instr × (Word → Word → Word)) :=
  [(.csrwr d a c, fun _ x => x), (.csrset d a c, fun old x => old ||| x)]

theorem mem_csrWriters {i : Instr} (h : i ∈ [.csrwr d a c, .csrset d a c]) : ∃ f, (i, f) ∈ csrWriters d a c := by
  rcases List.mem_pair.mp h with rfl | rfl
  · exact ⟨_, List.mem_cons_self⟩
  · exact ⟨_, List.mem_cons_of_mem _ List.mem_cons_self⟩

section
variable {i : Instr} {f : Word → Word → Word} (hi : (i, f) ∈ csrWriters d a c)
include hi

theorem exec_csrWriter (s : State) : exec i s = thr 4 (encode i) s fun e => csrWrite e d a c.toNat f := by
  simp only [csrWriters, List.mem_pair, Prod.mk.injEq] at hi
  rcases hi with ⟨rfl, rfl⟩ | ⟨rfl, rfl⟩ <;> rfl

variable (hr : Claim.Runs s)
include hr

theorem csrWriter_next {t : State} (h : csrWrite (Claim.envFor 4 i s) d a c.toNat f = .ok t) : exec i s = .next t := by
  rw [exec_csrWriter hi]
  exact thr_next hr.1 hr.2 h

theorem csrWriter_traps {k : BitVec 8} {w : Word} (h : csrWrite (Claim.envFor 4 i s) d a c.toNat f = .error (.trap k w)) :
    exec i s = .next (takeTrap s s.cur k w (getSlot s s.cur).pc) := by
  rw [exec_csrWriter hi]
  exact thr_stop (body := fun e => csrWrite e d a c.toNat f) hr.1 hr.2 h

end

section
variable {f : Word → Word → Word} (hc : chk e [a.toNat] [d.toNat] [] = .ok ())
include hc

theorem csrWrite_denied (assigned : csrGone e n = false) (h : csrAllowed e n true = .error (.trap 0x04 0)) :
    csrWrite e d a n f = .error (.trap 0x04 0) := by
  simp only [csrWrite, assigned, hc, h, Bind.bind, Except.bind, Bool.false_eq_true, if_false]

variable (h : Reaches e n true) (ha : readR e e.s a.toNat = .ok (s1, x))
include h ha

theorem csrWrite_reserved (hv : csrOk n (f (csrGet e s1 n) x) = false) : csrWrite e d a n f = .error (.trap 0x12 0) := by
  simp only [csrWrite, h.assigned, hc, h.allowed, h.ready, ha, hv, need, trapX, Bind.bind, Except.bind, Bool.false_eq_true,
    if_false]

theorem csrWrite_next (hn : n ≠ 0x404) (hv : csrOk n (f (csrGet e s1 n) x) = true)
    (hw : writeR e (csrPut s1 e.t n (f (csrGet e s1 n) x)) d.toNat (csrGet e s1 n) = .ok s2) : csrWrite e d a n f = .ok (done e s2) := by
  simp only [csrWrite, h.assigned, hc, h.allowed, h.ready, ha, hv, hn, hw, need, Bind.bind, Except.bind, pure, Except.pure, Bool.false_eq_true,
    if_false, if_true]

end

theorem csrWritable_keys : ∀ p ∈ Claim.csrWritable, p.1 < 0x400 ∧ csrLow p.1 = true ∧ csrRO p.1 = false := by decide

theorem csrReadOnly_keys : ∀ n ∈ [0, 1, 2, 3, 4, 5, 0x50, 0x51, 0x52, 0x53, 0x54, 0x58, 0x59, 0x5A, 0x5B, 0x5C, 0x80, 0x81],
    n < 0x400 ∧ csrLow n = true ∧ csrRO n = true := by decide

theorem csrWrites : Claim.CsrWrites := by
  refine ⟨fun d a c i f hi s s1 x hr hc ha p hp hn wait => ?_, fun d a c i hi s hr hc hn => ?_⟩
  · obtain ⟨low, assigned, ro⟩ := csrWritable_keys p hp
    rw [hn] at low assigned ro
    have reach : Reaches (Claim.envFor 4 i s) c.toNat true := reaches_thread low assigned (by simp [ro]) wait
    have taken := csrOk_writable (v := f (csrGet (Claim.envFor 4 i s) s1 c.toNat) x) p hp
    rw [hn] at taken
    refine ⟨fun mask code s2 hw => ⟨?_, ?_⟩, fun bad => ?_⟩
    · exact csrWriter_next hi hr (csrWrite_next hc reach ha (by omega) (taken.mpr ⟨mask, code⟩) hw)
    · have back := csrPut_reads (v := f (csrGet (Claim.envFor 4 i s) s1 c.toNat) x) (e := Claim.envFor 4 i s) (s1 := s1) p hp
        ⟨mask, fun h40 => code (hn.symm.trans h40)⟩
      rw [hn] at back
      exact back
    · refine csrWriter_traps hi hr (csrWrite_reserved hc reach ha (Bool.eq_false_iff.mpr fun ok => ?_))
      obtain ⟨mask, code⟩ := taken.mp ok
      rcases bad with bad | ⟨h40, bad⟩
      · exact bad mask
      · exact absurd (code h40) (by omega)
  · obtain ⟨f, hf⟩ := mem_csrWriters hi
    obtain ⟨low, assigned, ro⟩ : c.toNat < 0x400 ∧ csrLow c.toNat = true ∧ csrRO c.toNat = true := csrReadOnly_keys _ hn
    refine csrWriter_traps hf hr (csrWrite_denied hc ?_ ?_)
    · simp [csrGone, assigned, Nat.not_lt.mpr (show c.toNat ≤ 0x405 by omega)]
    · simp [csrAllowed_eq, low, ro, need, trapX]

/-! ### HALT and FEAT (R395, R396) -/

theorem exec_halt (s : State) : exec .halt s = execHalt s := rfl
theorem exec_feat (d a : BitVec 7) (s : State) : exec (.feat d a) s = execFeat d a s := rfl
theorem exec_seqq (d a : BitVec 7) (s : State) : exec (.seqq d a) s = execSeqq d a s := rfl

theorem halt_halts (hr : Claim.Runs s) (hp : (getSlot s s.cur).priv = true) (hd : (getFn s (coreFn s s.cur.core)).debug = true) :
    exec .halt s = .next (modFn (done (Claim.envFor 4 .halt s) s) (coreFn s s.cur.core) fun f => { f with halted := true }) := by
  rw [exec_halt]
  refine thr_next hr.1 hr.2 ?_
  simp only [envOf_s, envOf_sl, envOf_t, hp, hd, need, Bool.and_self, if_true, Bind.bind, Except.bind, pure, Except.pure]
  rfl

theorem halt_traps (hr : Claim.Runs s) (h : ¬ ((getSlot s s.cur).priv = true ∧ (getFn s (coreFn s s.cur.core)).debug = true)) :
    exec .halt s = .next (takeTrap s s.cur 0x04 0 (getSlot s s.cur).pc) := by
  have off : ((getSlot s s.cur).priv && (getFn s (coreFn s s.cur.core)).debug) = false := by simpa using h
  rw [exec_halt]
  refine thr_stop hr.1 hr.2 (st := .trap 0x04 0) ?_
  simp only [envOf_s, envOf_sl, envOf_t, off, need, trapX, Bool.false_eq_true, if_false, Bind.bind, Except.bind]

theorem feat_writes (d a : BitVec 7) : Claim.Writes1S 4 (.feat d a) d.toNat a.toNat fun s x => featWord s s.cur.core x := by
  intro s s1 s2 x hr hc ha hcur hw
  rw [exec_feat]
  refine thr_next hr.1 hr.2 ?_
  change chk (envOf 4 (Enc.feat d a) s) [a.toNat] [d.toNat] [] = .ok () at hc
  change readR (envOf 4 (Enc.feat d a) s) s a.toNat = .ok (s1, x) at ha
  change writeR (envOf 4 (Enc.feat d a) s) s1 d.toNat (featWord s1 s1.cur.core x) = .ok s2 at hw
  rw [hcur] at hw
  simp only [hc, envOf_s, envOf_t, ha, hw, Bind.bind, Except.bind, pure, Except.pure]
  rfl

/-- Word 3 holds one bit a mode of the partition. -/
theorem featWord_modes (s : State) (core i : Nat) (hi : i < 6) : (featWord s core 3).getLsbD i =
    [(getFn s (coreFn s core)).recMode, (getFn s (coreFn s core)).replay, (getFn s (coreFn s core)).debug, (getFn s (coreFn s core)).urgent,
      (getFn s (coreFn s core)).hostSh, (List.range 64).any fun c => (getCl s c).fn != 0].getD i false := by
  change (wd (b2n (getFn s (coreFn s core)).recMode + 2 * b2n (getFn s (coreFn s core)).replay + 4 * b2n (getFn s (coreFn s core)).debug +
    8 * b2n (getFn s (coreFn s core)).urgent + 16 * b2n (getFn s (coreFn s core)).hostSh +
      32 * b2n ((List.range 64).any fun c => (getCl s c).fn != 0))).getLsbD i = _
  generalize (getFn s (coreFn s core)).recMode = b0
  generalize (getFn s (coreFn s core)).replay = b1
  generalize (getFn s (coreFn s core)).debug = b2
  generalize (getFn s (coreFn s core)).urgent = b3
  generalize (getFn s (coreFn s core)).hostSh = b4
  generalize ((List.range 64).any fun c => (getCl s c).fn != 0) = b5
  revert b0 b1 b2 b3 b4 b5 i
  decide

/-- A word from 0x80 on is none of the table's. -/
theorem featWord_unlisted (s : State) (core : Nat) {m : Nat} (h : 0x80 ≤ m) (h' : m < 0x100) : featWord s core (BitVec.ofNat 64 m) = 0 := by
  have val : (BitVec.ofNat 64 m).toNat = m := by
    rw [BitVec.toNat_ofNat]
    omega
  have other : ∀ w : Word, w.toNat < 0x80 → BitVec.ofNat 64 m ≠ w := fun w hw heq => by
    rw [← heq, val] at hw
    omega
  have beyond : (decide (64 ≤ m) && decide (m < 128) && bitAt featMaj (m - 64)) = false := by simp [Nat.not_lt.mpr h]
  simp only [featWord, if_neg (other 0 (by decide)), if_neg (other 1 (by decide)), if_neg (other 2 (by decide)),
    if_neg (other 3 (by decide)), if_neg (other 8 (by decide)), val]
  split
  case h_9 => simp only [beyond, Bool.false_eq_true, if_false]
  all_goals omega

theorem haltAndFeature : Claim.HaltAndFeature := by
  refine ⟨fun s hr => ⟨fun hp hd => halt_halts hr hp hd, fun h => halt_traps hr h⟩, feat_writes, fun s core => ?_⟩
  refine ⟨rfl, rfl, rfl, rfl, rfl, rfl, rfl, fun m h h' => featWord_unlisted s core h h', rfl, rfl, featWord_modes s core 0 (by decide),
    featWord_modes s core 1 (by decide), featWord_modes s core 2 (by decide), featWord_modes s core 3 (by decide),
    featWord_modes s core 4 (by decide), ?_⟩
  simp only [List.forall_mem_cons]
  exact ⟨rfl, rfl, rfl, rfl, rfl, rfl, rfl, rfl, by simp⟩

/-! ### SEQQ (R399) -/

theorem ringWord_some (n : BitVec 32) (r : RingEnt) : ringWord n (some r) =
    BitVec.ofNat 64 (n.toNat + 2 ^ 32 * (match r.st with | .pending => 256 | .done => 512 | .faulted c => 768 + c.toNat)) := by
  cases hst : r.st with
  | pending => simp only [ringWord, hst]; rfl
  | done => simp only [ringWord, hst]; rfl
  | faulted c =>
    simp only [ringWord, hst, wd]
    congr 1
    ring

theorem ringWord_none (n : BitVec 32) : ringWord n none = BitVec.ofNat 64 n.toNat := (BitVec.ofNat_toNat 64 n).symm

theorem seqEntry_eq (sl : Slot) (n : BitVec 32) : seqEntry sl n = sl.ring.find? fun r => r.seq = n := by
  unfold seqEntry
  simp only [beq_eq_decide]

/-- The word that SEQQ writes for an operand (R399). -/
def ringAnswer (sl : Slot) (x : Word) : Word :=
  let n : BitVec 32 := x.setWidth 32
  match x.toNat / 2 ^ 32 with
  | 0 => ringWord n (seqEntry sl n)
  | 1 => match seqEntry sl n with | some r => r.pc | none => BitVec.allOnes 64
  | _ => match seqFault sl n with | some r => ringWord r.seq (some r) | none => BitVec.allOnes 64

section
variable (hr : Claim.Runs s) (hc : chk (envOf 4 (Enc.seqq d a) s) [a.toNat] [d.toNat] [] = .ok ())
  (ha : readR (envOf 4 (Enc.seqq d a) s) s a.toNat = .ok (s1, x))
include hr hc ha

theorem seqq_reserved (h : 3 * 2 ^ 32 ≤ x.toNat) : exec (.seqq d a) s = .next (takeTrap s s.cur 0x12 0 (getSlot s s.cur).pc) := by
  have bad : (fld x 63 34 == 0 && fld x 33 32 != 3) = false := by
    have := x.isLt
    simp only [fld_eq, Bool.and_eq_false_iff, beq_eq_false_iff_ne, bne_eq_false_iff_eq]
    omega
  rw [exec_seqq]
  refine thr_stop hr.1 hr.2 (st := .trap 0x12 0) ?_
  simp only [hc, envOf_s, ha, bad, need, trapX, Bool.false_eq_true, if_false, Bind.bind, Except.bind]

theorem seqq_answers (h : x.toNat / 2 ^ 32 ≤ 2) (hw : writeR (envOf 4 (Enc.seqq d a) s) s1 d.toNat (ringAnswer (getSlot s s.cur) x) = .ok s2) :
    exec (.seqq d a) s = .next (done (envOf 4 (Enc.seqq d a) s) s2) := by
  have good : (fld x 63 34 == 0 && fld x 33 32 != 3) = true := by
    simp only [fld_eq, Bool.and_eq_true, beq_iff_eq, bne_iff_ne]
    omega
  have query : fld x 33 32 = x.toNat / 2 ^ 32 := by
    rw [fld_eq]
    omega
  rw [exec_seqq]
  refine thr_next hr.1 hr.2 ?_
  simp only [hc, envOf_s, envOf_sl, ha, good, need, if_true, Bind.bind, Except.bind, pure, Except.pure]
  have cases3 : x.toNat / 2 ^ 32 = 0 ∨ x.toNat / 2 ^ 32 = 1 ∨ x.toNat / 2 ^ 32 = 2 := by omega
  have finish : ∀ w, writeR (envOf 4 (Enc.seqq d a) s) s1 d.toNat w = .ok s2 →
      (writeR (envOf 4 (Enc.seqq d a) s) s1 d.toNat w >>= fun t => pure (done (envOf 4 (Enc.seqq d a) s) t)) =
        .ok (done (envOf 4 (Enc.seqq d a) s) s2) := fun w h => by rw [h]; rfl
  rcases cases3 with q | q | q <;> simp only [ringAnswer, q] at hw <;> simp only [query, q]
  all_goals exact finish _ hw

end

theorem ringQuery : Claim.RingQuery := by
  intro d a s s1 x hr hc ha
  refine ⟨fun h => seqq_reserved hr hc ha h, fun v h0 h1 h2 hq s2 hw => seqq_answers hr hc ha hq ?_⟩
  have answer : v = ringAnswer (getSlot s s.cur) x := by
    have cases3 : x.toNat / 2 ^ 32 = 0 ∨ x.toNat / 2 ^ 32 = 1 ∨ x.toNat / 2 ^ 32 = 2 := by omega
    rcases cases3 with q | q | q
    · rw [h0 q]
      simp only [ringAnswer, q, seqEntry_eq]
      split
      next hf => rw [hf, ringWord_none]
      next r hf => rw [hf]; exact (ringWord_some _ r).symm
    · rw [h1 q]
      simp only [ringAnswer, q, seqEntry_eq]
      split
      next r hf => rw [hf]; rfl
      next hf => rw [hf]; rfl
    · rw [h2 q]
      simp only [ringAnswer, q]
      rfl
  rwa [← answer]

/-- Settles O24, from HALT and FEAT, the reads and writes of control and status registers, and SEQQ. -/
theorem systemRegisterResults : Obligations.SystemRegisterResults := ⟨haltAndFeature, csrReads, csrWrites, ringQuery⟩

end Sys2Proof.Proofs
end

section
/-!
PROOFS. The privileged registers: eviction by evict, and the notices that npost names (R68, R198, R199, R394, R440).
-/

namespace Sys2Proof.Proofs

open Sys2Proof.Machine Sys2Proof.Laws

variable {s s1 s2 : State} {e : Env} {n : Nat} {v x : Word} {d a : BitVec 7} {c : BitVec 11}

/-! ### Reads -/

theorem csrAllowed_notService {wr : Bool} (hp : e.sl.priv = true) (hn : n = 0x404 ∨ n = 0x405) (hs : coreIdx e.t.core ≠ 16) :
    csrAllowed e n wr = .error (.trap 0x04 0) := by
  rcases hn with rfl | rfl <;> simp [csrAllowed_eq, hp, isSvc, hs, need, trapX]

theorem csrGone_privileged (low : 0x400 ≤ n) (high : n ≤ 0x405) : csrGone e n = false := by
  simp [csrGone, Nat.not_lt.mpr low, Nat.not_lt.mpr high]

/-! ### A write of evict (R198, R199) -/

/-- Whether a write of v to evict names slot j, and it holds a continuation. -/
def evictNames (s : State) (core : Nat) (v : Word) (j : Nat) : Bool := v.getLsbD j && (getSlot s { core := core, slot := j }).uid.isSome

/-- What a write of evict does for slot i. -/
def evictStep (core : Nat) (v : Word) (s : State) (i : Nat) : State :=
  let t : Tid := { core := core, slot := i }
  let sl := getSlot s t
  if !bitAt v i || sl.uid.isNone then s
  else if sl.ports then modCore s core fun c => { c with evstat := c.evstat ||| wd (2 ^ i) }
  else modSlot (modCore s core fun c => { c with evict := c.evict ||| wd (2 ^ i) }) t fun sl => { sl with evicting := true }

theorem evictWrite_eq (s : State) (core : Nat) (v : Word) :
    evictWrite s core v = (List.range 63).foldl (evictStep core v) (modCore s core fun c => { c with evstat := 0 }) := rfl

theorem evictStep_unnamed {core i : Nat} (h : evictNames s core v i = false) : evictStep core v s i = s := by
  have : (!bitAt v i || (getSlot s { core := core, slot := i }).uid.isNone) = true := by
    rw [evictNames] at h
    cases hb : v.getLsbD i <;> simp_all [bitAt]
  simp only [evictStep, this, if_true]

theorem evictStep_refused {core i : Nat} (h : evictNames s core v i = true) (hp : (getSlot s { core := core, slot := i }).ports = true) :
    evictStep core v s i = modCore s core fun c => { c with evstat := c.evstat ||| wd (2 ^ i) } := by
  obtain ⟨hb, hu⟩ := Bool.and_eq_true_iff.mp h
  simp only [evictStep, bitAt, hb, hp, Option.isNone_eq_false_iff.mpr hu, Bool.not_true, Bool.or_self, Bool.false_eq_true, if_false, if_true]

theorem evictStep_drains {core i : Nat} (h : evictNames s core v i = true) (hp : (getSlot s { core := core, slot := i }).ports = false) :
    evictStep core v s i = modSlot (modCore s core fun c => { c with evict := c.evict ||| wd (2 ^ i) }) { core := core, slot := i }
      fun sl => { sl with evicting := true } := by
  obtain ⟨hb, hu⟩ := Bool.and_eq_true_iff.mp h
  simp only [evictStep, bitAt, hb, hp, Option.isNone_eq_false_iff.mpr hu, Bool.not_true, Bool.or_self, Bool.false_eq_true, if_false]

theorem getCore_modSlot (s : State) (t : Tid) (f : Slot → Slot) :
    getCore (modSlot s t f) t.core = { getCore s t.core with slots := smSet {} (getCore s t.core).slots t.slot (f (getSlot s t)) } :=
  getCore_modCore_same _ _ _

/-- The slots of a core, and the words evict and evstat, after a write of evict has come to slot n. -/
structure EvictTo (s s' : State) (core : Nat) (v : Word) (n : Nat) : Prop where
  slot : ∀ j, getSlot s' { core := core, slot := j } = { getSlot s { core := core, slot := j } with
    evicting := (getSlot s { core := core, slot := j }).evicting || (decide (j < n) && evictNames s core v j && !(getSlot s { core := core, slot := j }).ports) }
  evict : ∀ j, j < 63 → (getCore s' core).evict.getLsbD j = ((getCore s core).evict.getLsbD j ||
    (decide (j < n) && evictNames s core v j && !(getSlot s { core := core, slot := j }).ports))
  evstat : ∀ j, j < 63 → (getCore s' core).evstat.getLsbD j =
    (decide (j < n) && evictNames s core v j && (getSlot s { core := core, slot := j }).ports)

theorem getLsbD_or_bit (w : Word) {i j : Nat} (hj : j < 63) : (w ||| wd (2 ^ i)).getLsbD j = (w.getLsbD j || decide (j = i)) := by
  rw [BitVec.getLsbD_or, wd, BitVec.getLsbD_ofNat, Nat.testBit_two_pow]
  have : j < 64 := by omega
  simp [this, eq_comm]

theorem decide_lt_succ (j n : Nat) : decide (j < n + 1) = (decide (j < n) || decide (j = n)) := by
  simp only [Nat.lt_succ_iff_lt_or_eq, Bool.decide_or]

theorem evictTo (s : State) (core : Nat) (v : Word) (n : Nat) :
    EvictTo s ((List.range n).foldl (evictStep core v) (modCore s core fun c => { c with evstat := 0 })) core v n := by
  induction n with
  | zero =>
    refine ⟨fun j => ?_, fun j _ => ?_, fun j _ => ?_⟩
    · rw [List.range_zero, List.foldl_nil, getSlot_modCore s core (fun c => { c with evstat := 0 }) fun _ => rfl]
      simp
    · simp
    · simp
  | succ n ih =>
    rw [List.range_succ, List.foldl_append, List.foldl_cons, List.foldl_nil]
    generalize (List.range n).foldl (evictStep core v) (modCore s core fun c => { c with evstat := 0 }) = t at ih
    obtain ⟨slot, evict, evstat⟩ := ih
    have here : evictNames t core v n = evictNames s core v n := by simp [evictNames, slot]
    have ports : (getSlot t { core := core, slot := n }).ports = (getSlot s { core := core, slot := n }).ports := by rw [slot]
    cases hn : evictNames s core v n with
    | false =>
      rw [evictStep_unnamed (here.trans hn)]
      have same : ∀ j b, (decide (j < n + 1) && evictNames s core v j && b) = (decide (j < n) && evictNames s core v j && b) := fun j b => by
        rw [decide_lt_succ]
        by_cases hj : j = n
        · subst hj; simp [hn]
        · simp [hj]
      exact ⟨fun j => by rw [slot, same], fun j hj => by rw [evict j hj, same], fun j hj => by rw [evstat j hj, same]⟩
    | true =>
      have grown : ∀ j b, (decide (j < n + 1) && evictNames s core v j && b) =
          (decide (j < n) && evictNames s core v j && b || decide (j = n) && b) := fun j b => by
        rw [decide_lt_succ]
        by_cases hj : j = n
        · subst hj; simp [hn]
        · simp [hj]
      cases hp : (getSlot s { core := core, slot := n }).ports with
      | true =>
        rw [evictStep_refused (here.trans hn) (ports.trans hp)]
        refine ⟨fun j => ?_, fun j hj => ?_, fun j hj => ?_⟩
        · rw [getSlot_modCore t core (fun c => { c with evstat := c.evstat ||| wd (2 ^ n) }) fun _ => rfl, slot, grown]
          by_cases hj : j = n
          · subst hj; simp [hp]
          · simp [hj]
        · rw [getCore_modCore_same, evict j hj, grown]
          by_cases hj : j = n
          · subst hj; simp [hp]
          · simp [hj]
        · rw [getCore_modCore_same, getLsbD_or_bit _ hj, evstat j hj, grown]
          by_cases hj : j = n
          · subst hj; simp [hp]
          · simp [hj]
      | false =>
        rw [evictStep_drains (here.trans hn) (ports.trans hp)]
        have core' := getCore_modSlot (modCore t core fun c => { c with evict := c.evict ||| wd (2 ^ n) }) { core := core, slot := n }
          fun sl => { sl with evicting := true }
        refine ⟨fun j => ?_, fun j hj => ?_, fun j hj => ?_⟩
        · by_cases hj : j = n
          · subst hj
            rw [getSlot_modSlot_same, getSlot_modCore t core (fun c => { c with evict := c.evict ||| wd (2 ^ j) }) fun _ => rfl, slot, grown]
            simp [hp]
          · rw [getSlot_modSlot_other _ _ (by simp [hj]), getSlot_modCore t core (fun c => { c with evict := c.evict ||| wd (2 ^ n) }) fun _ => rfl,
              slot, grown]
            simp [hj]
        · rw [core', getCore_modCore_same, getLsbD_or_bit _ hj, evict j hj, grown]
          by_cases hj : j = n
          · subst hj; simp [hp]
          · simp [hj]
        · rw [core', getCore_modCore_same, evstat j hj, grown]
          by_cases hj : j = n
          · subst hj; simp [hp]
          · simp [hj]

/-! ### A write of npost (R68, R394) -/

theorem memRead_lt (m : List Host.Cell) (k n : Nat) : memRead m k n < 256 ^ n := by
  induction n generalizing k with
  | zero => simp [memRead]
  | succ n ih =>
    have byte := (memByte m k).isLt
    have rest := ih (k + 1)
    rw [memRead, Nat.pow_succ]
    omega

/-- A field of a word that is read from memory. -/
theorem fld_memRead (m : List Host.Cell) (k hi lo : Nat) : fld (wd (memRead m k 8)) hi lo = memRead m k 8 / 2 ^ lo % 2 ^ (hi + 1 - lo) := by
  rw [fld_eq, wd, BitVec.toNat_ofNat, Nat.mod_eq_of_lt (show memRead m k 8 < 2 ^ 64 from memRead_lt m k 8)]

/-- The notice of a record at a key (R68). -/
def noticeOf (s : State) (k : Nat) : Notice :=
  let w := fun j => memRead s.mem (k + 8 * j) 8
  { type := 1, status := w 0 / 2 ^ 8 % 2 ^ 8, ctx := w 0 / 2 ^ 16 % 2 ^ 16, subject := BitVec.ofNat 64 (w 2), detail := BitVec.ofNat 64 (w 3) }

section
variable {off : Nat} (hc : coreIdx e.t.core = 16) (hm : v.toNat % 64 = 0) (hoff : off + 64 ≤ 0x100000) (hx : NamesOwn e v off)
  (hecc : eccStatus s (scrKey e.t.core off) 64 = 0)
include hc hm hoff hx hecc

theorem npostPut_type (ht : memRead s.mem (scrKey e.t.core off) 8 % 256 ≠ 1) : npostPut e s v = .error (.trap 0x12 0) := by
  have type : (memRead s.mem (scrKey e.t.core off) 8 % 256 == 1) = false := beq_eq_false_iff_ne.mpr ht
  simp only [npostPut, aligned, hm, svcKey_own hc (by decide) hoff hx, hecc, fld_memRead, Bind.bind, Except.bind, need, beq_self_eq_true, if_true,
    Nat.mul_zero, Nat.add_zero, Nat.pow_zero, Nat.div_one, Nat.sub_zero, Nat.reduceAdd, Nat.reducePow, type, Bool.false_eq_true, if_false, trapX]

theorem npostPut_posts (ht : memRead s.mem (scrKey e.t.core off) 8 % 256 = 1) (free : (getCl s (coreCl e.t.core)).npost = none) :
    npostPut e s v = .ok (modCl s (coreCl e.t.core) fun c => { c with npost := some (noticeOf s (scrKey e.t.core off)) }) := by
  simp only [npostPut, aligned, hm, svcKey_own hc (by decide) hoff hx, hecc, fld_memRead, Bind.bind, Except.bind, need, beq_self_eq_true, if_true,
    Nat.mul_zero, Nat.add_zero, Nat.pow_zero, Nat.div_one, Nat.sub_zero, Nat.reduceAdd, Nat.reducePow, ht, await, free, Option.isNone_none]
  rfl

end

section
variable {f : Word → Word → Word} (hc : chk e [a.toNat] [d.toNat] [] = .ok ()) (h : Reaches e 0x404 true)
  (ha : readR e e.s a.toNat = .ok (s1, x))
include hc h ha

/-- A write of npost ends as the posting ends. -/
theorem csrWrite_npost_traps {k : BitVec 8} {w : Word} (hp : npostPut e { s1 with freeCnt := s1.freeCnt + 1 } (f (csrGet e s1 0x404) x) = .error (.trap k w)) :
    csrWrite e d a 0x404 f = .error (.trap k w) := by
  have free : csrOk 0x404 (f (csrGet e s1 0x404) x) = true := rfl
  simp only [csrWrite, h.assigned, hc, h.allowed, h.ready, ha, free, hp, need, Bind.bind, Except.bind, Bool.false_eq_true, if_false, if_true]

theorem csrWrite_npost_posts {t : State} (hp : npostPut e { s1 with freeCnt := s1.freeCnt + 1 } (f (csrGet e s1 0x404) x) = .ok t)
    (hw : writeR e t d.toNat (csrGet e s1 0x404) = .ok s2) : csrWrite e d a 0x404 f = .ok (done e s2) := by
  have free : csrOk 0x404 (f (csrGet e s1 0x404) x) = true := rfl
  simp only [csrWrite, h.assigned, hc, h.allowed, h.ready, ha, free, hp, hw, need, Bind.bind, Except.bind, pure, Except.pure, Bool.false_eq_true,
    if_false, if_true]

end

/-! ### The clauses together -/

/-- The privileged registers that are written as they stand, and the bits of each that are reserved. -/
def plainWritable : List (Nat × Word) := [(0x401, 2 ^ 63), (0x403, 0), (0x405, ~~~0xFFF)]

theorem bitAt_top_eq_false (v : Word) : bitAt v 63 = false ↔ v &&& 2 ^ 63 = 0 := by
  have mask : (2 ^ 63 : Word) = BitVec.allOnes 64 <<< 63 := by decide +kernel
  have := v.isLt
  rw [mask, and_high_eq_zero_iff, bitAt, BitVec.getLsbD, Nat.testBit_eq_decide_div_mod_eq, decide_eq_false_iff_not]
  omega

/-- A value is taken exactly where it has no reserved bit, and then it reads back. -/
theorem plainWritable_spec : ∀ p ∈ plainWritable, 0x400 ≤ p.1 ∧ p.1 ≤ 0x405 ∧ p.1 ≠ 0x404 ∧ csrRO p.1 = false ∧
    (csrOk p.1 v = true ↔ v &&& p.2 = 0) ∧ (v &&& p.2 = 0 → csrGet e (csrPut s e.t p.1 v) p.1 = v) := by
  have hsk : csrOk 0x405 v = true ↔ v &&& ~~~0xFFF = 0 := beq_iff_eq.trans (fld_high_eq_zero (by decide) rfl)
  have stat : csrOk 0x401 v = true ↔ v &&& 2 ^ 63 = 0 := Bool.not_eq_eq_eq_not.trans (bitAt_top_eq_false v)
  simp only [plainWritable, List.forall_mem_cons]
  refine ⟨⟨by decide, by decide, by decide, rfl, stat, fun _ => ?_⟩, ⟨by decide, by decide, by decide, rfl, by simp [csrOk], fun _ => ?_⟩,
    ⟨by decide, by decide, by decide, rfl, hsk, fun h => ?_⟩, by simp⟩
  · simp [csrGet, csrPut]
  · simp [csrGet, csrPut]
  · simpa [csrGet, csrPut] using setWidth_setWidth_of_lt (and_high_eq_zero_iff.mp h)

/-- Settles O23, from the rules of the reads and writes, of eviction and of npost. -/
theorem privilegedRegisters : Obligations.PrivilegedRegisters := by
  refine ⟨fun d c s s1 hr hc hp => ⟨fun p hmem hn svc hw => ?_, fun hn svc hw => ?_, fun hn svc => ?_⟩,
    fun d a c i f hi s s1 x hr hc hp ha => ⟨fun h => ?_, fun p hmem hn svc => ?_, fun hn => ?_, fun hn svc hm off hoff hin hx hecc => ?_⟩⟩
  · have value : csrGet (Claim.envFor 4 (.csrrd d c) s) s p.1 = p.2 ∧ 0x400 ≤ p.1 ∧ p.1 ≤ 0x405 ∧ p.1 ≠ 0x404 := by
      simp only [List.mem_cons, List.not_mem_nil, or_false] at hmem
      rcases hmem with rfl | rfl | rfl | rfl | rfl <;> exact ⟨rfl, by simp⟩
    obtain ⟨value, low, high, ne⟩ := value
    rw [hn] at value low high ne
    refine csrrd_next hr hc (reaches_privileged low high hp (fun h => svc (h.resolve_left ne)) rfl) ?_
    rw [csrReadFrom, if_neg ne]
    exact value ▸ hw
  · refine csrrd_next hr hc (reaches_privileged (by omega) (by omega) hp (fun _ => svc) rfl) ?_
    rw [csrReadFrom, if_pos hn, hn]
    exact hw
  · exact csrrd_denied hr hc (csrGone_privileged (by omega) (by omega)) (csrAllowed_notService hp hn svc)
  · refine csrWriter_traps hi hr (csrWrite_denied hc (csrGone_privileged (by omega) (by omega)) ?_)
    rcases h with h | ⟨h, svc⟩
    · simp [h, csrAllowed_eq, csrRO, need, trapX]
    · exact csrAllowed_notService hp h svc
  · obtain ⟨low, high, ne, ro, taken, back⟩ := plainWritable_spec (s := s1) (e := Claim.envFor 4 i s)
      (v := f (csrGet (Claim.envFor 4 i s) s1 c.toNat) x) p hmem
    rw [hn] at low high ne ro taken back
    have reach : Reaches (Claim.envFor 4 i s) c.toNat true :=
      reaches_privileged low high hp (fun h => svc (h.resolve_left ne)) (by simp [ro])
    refine ⟨fun mask s2 hw => ⟨csrWriter_next hi hr (csrWrite_next hc reach ha ne (taken.mpr mask) hw), back mask⟩, fun mask => ?_⟩
    exact csrWriter_traps hi hr (csrWrite_reserved hc reach ha (Bool.eq_false_iff.mpr fun ok => mask (taken.mp ok)))
  · have reach : Reaches (Claim.envFor 4 i s) c.toNat true := reaches_privileged (by omega) (by omega) hp (by omega) (by simp [hn]; rfl)
    have ok : csrOk c.toNat (f (csrGet (Claim.envFor 4 i s) s1 c.toNat) x) = !(f (csrGet (Claim.envFor 4 i s) s1 c.toNat) x).getLsbD 63 := by
      rw [hn]; rfl
    refine ⟨fun top => csrWriter_traps hi hr (csrWrite_reserved hc reach ha (by rw [ok, top]; rfl)), fun top s2 hw => ⟨?_, fun j hj => ?_⟩⟩
    · refine csrWriter_next hi hr (csrWrite_next hc reach ha (by omega) (by rw [ok, top]; rfl) ?_)
      rw [← hn] at hw
      exact hw
    · obtain ⟨slot, evict, evstat⟩ := evictTo s1 s.cur.core (f (csrGet (Claim.envFor 4 i s) s1 c.toNat) x) 63
      have inside : decide (j < 63) = true := decide_eq_true hj
      refine ⟨?_, ?_, ?_⟩
      · exact (congrArg Slot.evicting (slot j)).trans (by simp only [inside, Bool.true_and]; rfl)
      · exact (evict j hj).trans (by simp only [inside, Bool.true_and]; rfl)
      · exact (evstat j hj).trans (by simp only [inside, Bool.true_and]; rfl)
  · have reach : Reaches (Claim.envFor 4 i s) 0x404 true := reaches_privileged (by decide) (by decide) hp (fun _ => svc) rfl
    have names : NamesOwn (Claim.envFor 4 i s) (f (csrGet (Claim.envFor 4 i s) s1 c.toNat) x) off := hx
    rw [hn] at names hm ⊢
    refine ⟨fun type => ?_, fun type free s2 hw => ?_⟩
    · refine csrWriter_traps hi hr ?_
      rw [hn]
      exact csrWrite_npost_traps hc reach ha (npostPut_type svc hm hin names hecc type)
    · refine csrWriter_next hi hr ?_
      rw [hn]
      exact csrWrite_npost_posts hc reach ha (npostPut_posts svc hm hin names hecc type free) hw

end Sys2Proof.Proofs
end

section
/-!
PROOFS. Management commands: a slot table that lists one number twice.
-/

namespace Sys2Proof.Proofs

open Sys2Proof.Machine Sys2Proof.Laws Sys2Proof.Claim

/-- Core 0 lists slot 1 twice: first a parked call whose reply has come, then a continuation that waits for nothing. The command block
asks function 0 to resume the thread of slot 0. -/
def twiceListed : State :=
  { State.reset with
    mgmt := { busy := true, cmd := [(0, 0x13), (1, 1)] }
    fns := [(0, { debug := true })]
    cores := [(0, { slots := [(1, { wait := some .sysc, res := some (.words [1, 2]) }), (1, { uid := some 1 })] })] }

theorem twiceListed_debugged : Debugged twiceListed 1 {} := by
  unfold Debugged Command; decide +kernel

theorem twiceListed_no_sysc : ∀ x ∈ slotsOf twiceListed ((partition twiceListed (cmdFn twiceListed)).flatMap clCores), x.2.wait ≠ some .sysc := by
  decide +kernel

/-- The slot of a parked call after a command. -/
def parkedAfter (o : Host.Outcome State Fault Refusal) : Option Wait :=
  match o with
  | .next s => (getSlot s { slot := 1 }).wait
  | _ => none

theorem twiceListed_resumed : parkedAfter (exec .debugResume twiceListed) = none := by decide +kernel

theorem twiceListed_promised : parkedAfter (.next (mgmtEnd (modFn (modSlot twiceListed {} fun x => { x with halted := false, stepOne := false })
    (cmdFn twiceListed) fun f => { f with halted := false }) 0 [])) = some .sysc := by decide +kernel

/-- Refutes O41: DEBUG resume hands a parked call's reply over wherever the first entry of a listed slot number holds one, and the
statement's premise looks at the entries that the table lists. A table that lists a number twice (no run makes one, but the statement
ranges over every state) tells the two apart. -/
theorem not_managementRules : ¬ Obligations.ManagementRules := by
  rintro ⟨-, -, -, -, debug, -⟩
  obtain ⟨-, resume, -⟩ := debug twiceListed {}
  have promised := congrArg parkedAfter (resume twiceListed_debugged twiceListed_no_sysc)
  rw [twiceListed_resumed, twiceListed_promised] at promised
  cases promised

end Sys2Proof.Proofs

end

section
/-!
PROOFS. Launch entries: how they start, load an image and complete (R64 to R66, R81, R438).
-/

namespace Sys2Proof.Proofs

open Sys2Proof.Machine Sys2Proof.Laws Sys2Proof.Claim

variable {s : State} {fn q seq : Nat} {x : Entry}

/-! ### Error counts and marks -/

/-- Nothing but the homes, the failing words and the marks differs. -/
def MarksOnly (s t : State) : Prop := t = { s with homes := t.homes, bad := t.bad, marks := t.marks }

namespace MarksOnly

variable {t u : State}

theorem refl (s : State) : MarksOnly s s := rfl

theorem trans (h : MarksOnly s t) (h' : MarksOnly t u) : MarksOnly s u := by
  unfold MarksOnly at *
  rw [h', h]

theorem foldl {β : Type} {f : State → β → State} (h : ∀ s b, MarksOnly s (f s b)) (l : List β) (s : State) :
    MarksOnly s (l.foldl f s) := by
  induction l generalizing s with
  | nil => exact refl s
  | cons b r ih => exact (h s b).trans (ih _)

theorem fns (h : MarksOnly s t) : t.fns = s.fns := (congrArg State.fns h).trans rfl
theorem msix (h : MarksOnly s t) : t.msix = s.msix := (congrArg State.msix h).trans rfl
theorem mem (h : MarksOnly s t) : t.mem = s.mem := (congrArg State.mem h).trans rfl
theorem cores (h : MarksOnly s t) : t.cores = s.cores := (congrArg State.cores h).trans rfl
theorem clusters (h : MarksOnly s t) : t.clusters = s.clusters := (congrArg State.clusters h).trans rfl

end MarksOnly

theorem countError_marksOnly (s : State) (k : Nat) : MarksOnly s (countError s k) := by
  unfold countError
  split <;> rfl

theorem poison_marksOnly (s : State) (w : Nat) : MarksOnly s { s with bad := ssDel w s.bad, marks := ssIns w s.marks } := rfl

theorem markRead_marksOnly (s : State) (k n : Nat) : MarksOnly s (markRead s k n) := by
  refine MarksOnly.foldl (fun t w => ?_) (wordsOf k n) s
  split
  · exact (poison_marksOnly t w).trans (countError_marksOnly _ _)
  · rfl

theorem markStore_marksOnly (s : State) (k n : Nat) : MarksOnly s (markStore s k n) := by
  refine MarksOnly.foldl (fun t w => ?_) (wordsOf k n) s
  dsimp only
  split
  · rfl
  · split
    · exact (poison_marksOnly t w).trans (countError_marksOnly _ _)
    · rfl

/-! ### Stores to host memory -/

/-- Host memory has no home unit. -/
theorem homeOf_host {k : Nat} (h : isHost k = true) : homeOf k = none := by
  obtain ⟨low, high⟩ : hostKey ≤ k ∧ k < scrBase := by simpa [isHost] using h
  simp [homeOf, isScr, isDram, Nat.not_le.mpr high, Nat.not_lt.mpr low]

theorem isHost_hostAt (a : Nat) : isHost (hostAt a) = true := by
  have low : hostKey ≤ hostAt a := Nat.le_add_right _ _
  have high : hostAt a < scrBase := Nat.lt_of_lt_of_le (Nat.add_lt_add_left (Nat.mod_lt a (by decide)) hostKey) (by decide)
  simp [isHost, low, high]

/-- A store to host memory releases no parked access. -/
theorem homeWriteL_host {k : Nat} (h : isHost k = true) (s : State) (l : List Byte) : homeWriteL s k l = rawStore s k l.length (leNat l) := by
  unfold homeWriteL homeWrite releaseParks
  rw [homeOf_host h]

theorem rawStore_fns (s : State) (k n v : Nat) : (rawStore s k n v).fns = s.fns := (markStore_marksOnly s k n).fns
theorem rawStore_msix (s : State) (k n v : Nat) : (rawStore s k n v).msix = s.msix := (markStore_marksOnly s k n).msix
theorem rawStore_mem (s : State) (k n v : Nat) : (rawStore s k n v).mem = memWrite s.mem k n v :=
  congrArg (memWrite · k n v) (markStore_marksOnly s k n).mem

@[simp] theorem length_leBytes (n v : Nat) : (leBytes n v).length = n := by
  induction n generalizing v with
  | zero => rfl
  | succ n ih => simp [leBytes, ih]

theorem leNat_leBytes (n v : Nat) : leNat (leBytes n v) = v % 256 ^ n := by
  induction n generalizing v with
  | zero => simp [leBytes, leNat, Nat.mod_one]
  | succ n ih => simp [leBytes, leNat, ih, Nat.pow_succ, Nat.mul_comm (256 ^ n), Nat.mod_mul]

@[simp] theorem hostWrite_fns (s : State) (a : Nat) (ws : List Word) : (hostWrite s a ws).fns = s.fns := by
  rw [hostWrite, homeWriteL_host (isHost_hostAt a), rawStore_fns]

@[simp] theorem hostWrite_msix (s : State) (a : Nat) (ws : List Word) : (hostWrite s a ws).msix = s.msix := by
  rw [hostWrite, homeWriteL_host (isHost_hostAt a), rawStore_msix]

/-- A word written to host memory is read back. -/
theorem memRead_hostWrite (s : State) (a : Nat) (w : Word) : memRead (hostWrite s a [w]).mem (hostAt a) 8 = w.toNat := by
  have bytes : wordBytes [w] = leBytes 8 w.toNat := by simp [wordBytes]
  rw [hostWrite, homeWriteL_host (isHost_hostAt a), rawStore_mem, bytes, length_leBytes, memRead_memWrite_same, leNat_leBytes, Nat.mod_mod]
  exact Nat.mod_eq_of_lt w.isLt

/-! ### Queues and interrupts -/

@[simp] theorem getNq_modNq_same (s : State) (fn q : Nat) (f : NQueue → NQueue) : getNq (modNq s fn q f) fn q = f (getNq s fn q) := by
  unfold getNq modNq
  rw [getFn_modFn_same]
  exact smGet_smSet_same _ _ _ _

theorem modNq_eq (s : State) (fn q : Nat) (f : NQueue → NQueue) : modNq s fn q f =
    { s with fns := smSet {} s.fns fn { getFn s fn with queues := smSet {} (getFn s fn).queues q (f (getNq s fn q)) } } := rfl

theorem modNq_congr {f g : NQueue → NQueue} (h : f (getNq s fn q) = g (getNq s fn q)) : modNq s fn q f = modNq s fn q g := by
  rw [modNq_eq, modNq_eq, h]

theorem msixGet_modNq (s : State) (fn q i : Nat) (f : NQueue → NQueue) : msixGet (getFn (modNq s fn q f) fn) i = msixGet (getFn s fn) i := by
  unfold modNq
  rw [getFn_modFn_same]
  rfl

theorem getFn_congr {s t : State} (h : t.fns = s.fns) (fn : Nat) : getFn t fn = getFn s fn := congrArg (fun m => smGet ({} : Fn) m fn) h

@[simp] theorem getNq_hostWrite (s : State) (a : Nat) (ws : List Word) (fn q : Nat) : getNq (hostWrite s a ws) fn q = getNq s fn q :=
  congrArg (fun f : Fn => smGet ({} : NQueue) f.queues q) (getFn_congr (hostWrite_fns s a ws) fn)

@[simp] theorem raiseReg_mem (s : State) (fn : Nat) (r : Word) : (raiseReg s fn r).mem = s.mem := by
  unfold raiseReg raise
  repeat' split
  all_goals rfl

@[simp] theorem getNq_raiseReg (s : State) (fn' : Nat) (r : Word) (fn q : Nat) : getNq (raiseReg s fn' r) fn q = getNq s fn q := by
  unfold raiseReg raise getNq
  repeat' split
  · rfl
  · rfl
  · by_cases h : fn = fn'
    · subst h
      rw [getFn_modFn_same]
    · rw [getFn, modFn, smGet_smSet_other _ _ _ h]
      rfl
  · rfl

/-- A vector that is not masked is sent. -/
theorem raiseReg_unmasked {r : Word} (on : r.getLsbD 63 = false) (hv : r.toNat % 2 ^ 11 < msixCount fn)
    (hm : (msixGet (getFn s fn) (2 * (r.toNat % 2 ^ 11) + 1)).getLsbD 32 = false) :
    (raiseReg s fn r).msix = s.msix ++ [(fn, r.toNat % 2 ^ 11)] := by
  have num : fld r 10 0 = r.toNat % 2 ^ 11 := by rw [fld_eq, Nat.pow_zero, Nat.div_one]
  unfold raiseReg raise
  rw [num, bitAt, on, if_neg (Bool.false_ne_true), if_neg (Nat.not_le.mpr hv), bitAt, hm, if_neg (Bool.false_ne_true)]

/-! ### How an entry starts (R65, R81) -/

theorem targetMet_of_mayStart {e : EntryRef} (h : MayStart s e x) : targetMet (getNq s e.fn e.q) x = true := by
  obtain ⟨-, -, -, -, -, -, met⟩ := h
  rcases met with met | met <;> simp [targetMet, enTarget, met]

/-- The turn of an entry that may start, decided by its early status and its image. -/
theorem execEntryStart_of_mayStart (h : MayStart s { fn := fn, q := q, seq := seq } x) :
    execEntryStart fn q seq s = .next (match earlyStatus s (getNq s fn q) x with
      | some st => refuse s { fn := fn, q := q, seq := seq } st
      | none =>
        if enFlag x.ws 4 then s
        else match (getCtx s ((getNq s fn q).ctx.getD 0)).images.find? fun i => i.handle = enImage x.ws with
          | none => refuse s { fn := fn, q := q, seq := seq } 8
          | some im => startRun s { fn := fn, q := q, seq := seq } ((getNq s fn q).ctx.getD 0) x.ws im) := by
  have met := targetMet_of_mayStart h
  obtain ⟨admitted, start, status, failed, boot, runs, -⟩ := h
  dsimp only [Admitted] at admitted met runs
  unfold execEntryStart
  simp only [admitted, start, status, failed, met, boot, runs, Option.isSome_none, Bool.or_self, Bool.not_true, Bool.false_eq_true, if_false] <;> rfl

theorem execImageLoad_of_mayStart (h : MayStart s { fn := fn, q := q, seq := seq } x) (early : earlyStatus s (getNq s fn q) x = none)
    (load : enFlag x.ws 4 = true) :
    execImageLoad fn q seq s = .next (refuse (loadImage s ((getNq s fn q).ctx.getD 0) (enImage x.ws) (enArg x.ws)).1 { fn := fn, q := q, seq := seq }
      (loadImage s ((getNq s fn q).ctx.getD 0) (enImage x.ws) (enArg x.ws)).2) := by
  have met := targetMet_of_mayStart h
  obtain ⟨admitted, start, status, failed, boot, runs, -⟩ := h
  dsimp only [Admitted] at admitted met runs
  unfold execImageLoad
  simp only [admitted, start, status, failed, met, boot, runs, load, early, Option.isSome_none, Bool.or_self, Bool.not_true, Bool.false_eq_true, if_false]

theorem enImage_eq (ws : List Word) : enImage ws = (wAt ws 1).toNat % 2 ^ 32 := by rw [enImage, fld_eq, Nat.pow_zero, Nat.div_one]
theorem enIndex_eq (ws : List Word) : enIndex ws = (wAt ws 1).toNat / 2 ^ 32 % 2 ^ 16 := fld_eq _ _ _

theorem prio_eq (ws : List Word) : BitVec.ofNat 2 (enPrio ws) = BitVec.ofNat 2 ((wAt ws 4).toNat / 4) := by
  apply BitVec.eq_of_toNat_eq
  rw [enPrio, fld_eq, BitVec.toNat_ofNat, BitVec.toNat_ofNat]
  exact Nat.mod_mod _ _

/-- The descriptor of an entry index whose word is read and accepted. -/
theorem descAt_ok {ctx idx : Nat} {im : Image} {a d : Word} (ha : im.offs[idx]? = some a) (load : loadWords s none ctx a 1 = .ok [d])
    (ok : descOk d = true) (fits : d.toNat / 2 ^ 16 % 2 ^ 16 ≤ (getCtx s ctx).spillK) : descAt s ctx im idx = .ok (a + 8, d) := by
  have at' : wAt im.offs idx = a := by rw [wAt, List.getD_eq_getElem?_getD, ha, Option.getD_some]
  have spill : ¬ fld d 31 16 > (getCtx s ctx).spillK := by rw [fld_eq]; exact Nat.not_lt.mpr fits
  unfold descAt
  simp only [at', load, List.headD_cons, ok, Bool.not_true, Bool.false_eq_true, if_false, spill]

/-- An entry without flags that has an index, a count and a descriptor spreads its roots. -/
theorem startRun_plain {e : EntryRef} {ctx : Nat} {ws : List Word} {im : Image} {pc d : Word} (nest : enFlag ws 0 = false) (chain : enFlag ws 3 = false)
    (index : enIndex ws < im.offs.length) (one : 1 ≤ (enCount ws).toNat) (many : (enCount ws).toNat ≤ 2 ^ 32) (desc : descAt s ctx im (enIndex ws) = .ok (pc, d)) :
    startRun s e ctx ws im = spreadRoots (modEntry s e fun y => { y with start := true, live := (enCount ws).toNat }) (getCtx s ctx).fn e ctx
      (enCount ws).toNat pc (enArg ws) d (BitVec.ofNat 2 (enPrio ws)) := by
  have count : ¬ ((enCount ws).toNat = 0 ∨ (enCount ws).toNat > 2 ^ 32) := by omega
  unfold startRun
  simp only [nest, chain, Nat.not_le.mpr index, count, desc, Bool.not_false, Bool.true_and, Bool.false_and, Bool.false_eq_true, if_false,
    Bool.or_eq_true, decide_eq_true_eq]

/-! ### Roots spread over a partition's clusters (R81) -/

theorem partition_nodup (s : State) (fn : Nat) : (partition s fn).Nodup := List.nodup_range.filter _

/-- Of the clusters with their places, each whose place is below n receives one run of roots. -/
def spread (g : Nat × Nat → Inj) (n : Nat) (s : State) (x : Nat × Nat) : State := if x.2 < n then injPush s x.1 (g x) else s

theorem spread_keeps_other (g : Nat × Nat → Inj) (n : Nat) (s : State) (x : Nat × Nat) {k : Nat} (h : k ≠ x.1) : getCl (spread g n s x) k = getCl s k := by
  unfold spread injPush
  split
  · exact smGet_smSet_other _ _ _ h
  · rfl

theorem spread_same (g : Nat × Nat → Inj) (n : Nat) (s : State) (x : Nat × Nat) :
    (getCl (spread g n s x) x.1).inj = (getCl s x.1).inj ++ if x.2 < n then [{ g x with since := s.tick.toNat }] else [] := by
  unfold spread injPush
  split
  · rw [getCl_modCl_same]
    rfl
  · exact (List.append_nil _).symm

theorem spread_tick (g : Nat × Nat → Inj) (n : Nat) (s : State) (x : Nat × Nat) : (spread g n s x).tick = s.tick := by
  unfold spread
  split <;> rfl

theorem spread_fns (g : Nat × Nat → Inj) (n : Nat) (s : State) (x : Nat × Nat) : (spread g n s x).fns = s.fns := by
  unfold spread
  split <;> rfl

theorem spread_mem (g : Nat × Nat → Inj) (n : Nat) (s : State) (x : Nat × Nat) : (spread g n s x).mem = s.mem := by
  unfold spread
  split <;> rfl

theorem foldl_spread_keeps (g : Nat × Nat → Inj) (n : Nat) {k : Nat} (l : List (Nat × Nat)) (s : State) (h : k ∉ l.map (·.1)) :
    getCl (l.foldl (spread g n) s) k = getCl s k := by
  induction l generalizing s with
  | nil => rfl
  | cons x r ih =>
    obtain ⟨head, tail⟩ := not_or.mp (List.mem_cons.not.mp h)
    rw [List.foldl_cons, ih _ tail, spread_keeps_other g n s x head]

/-- Among distinct clusters each is served once. -/
theorem foldl_spread (g : Nat × Nat → Inj) (n : Nat) (l : List (Nat × Nat)) (s : State) (distinct : (l.map (·.1)).Nodup) {x : Nat × Nat} (hx : x ∈ l) :
    (getCl (l.foldl (spread g n) s) x.1).inj = (getCl s x.1).inj ++ if x.2 < n then [{ g x with since := s.tick.toNat }] else [] := by
  induction l generalizing s with
  | nil => cases hx
  | cons y r ih =>
    obtain ⟨fresh, distinct⟩ := List.nodup_cons.mp distinct
    rw [List.foldl_cons]
    rcases List.mem_cons.mp hx with rfl | hx
    · rw [foldl_spread_keeps g n r _ fresh, spread_same]
    · have other : x.1 ≠ y.1 := fun h => fresh (List.mem_map.mpr ⟨x, hx, h⟩)
      rw [ih _ distinct hx, spread_keeps_other g n s y other, spread_tick]

/-- The entry of an injection queue that root j and every c-th root after it make. -/
def rootsOf (e : EntryRef) (ctx n c : Nat) (pc arg desc : Word) (prio : BitVec 2) (x : Nat × Nat) : Inj :=
  { kind := .roots e x.2 c ((n - x.2 + c - 1) / c) pc arg desc, ctx := ctx, prio := prio }

theorem spreadRoots_eq (s : State) (fn : Nat) (e : EntryRef) (ctx n : Nat) (pc arg desc : Word) (prio : BitVec 2) :
    spreadRoots s fn e ctx n pc arg desc prio =
      (partition s fn).zipIdx.foldl (spread (rootsOf e ctx n (partition s fn).length pc arg desc prio) n) s := rfl

theorem inj_spreadRoots (s : State) (e : EntryRef) {ctx n j k : Nat} (pc arg desc : Word) (prio : BitVec 2) (hk : (partition s fn)[j]? = some k) :
    (getCl (spreadRoots s fn e ctx n pc arg desc prio) k).inj = (getCl s k).inj ++
      if j < n then [{ rootsOf e ctx n (partition s fn).length pc arg desc prio (k, j) with since := s.tick.toNat }] else [] := by
  have distinct : ((partition s fn).zipIdx.map (·.1)).Nodup := by
    rw [List.zipIdx_map_fst]
    exact partition_nodup s fn
  rw [spreadRoots_eq]
  exact foldl_spread (x := (k, j)) _ n _ s distinct (List.mk_mem_zipIdx_iff_getElem?.mpr hk)

theorem spreadRoots_fns (s : State) (fn : Nat) (e : EntryRef) (ctx n : Nat) (pc arg desc : Word) (prio : BitVec 2) :
    (spreadRoots s fn e ctx n pc arg desc prio).fns = s.fns := foldl_keeps State.fns (spread_fns _ n) _ s

theorem spreadRoots_mem (s : State) (fn : Nat) (e : EntryRef) (ctx n : Nat) (pc arg desc : Word) (prio : BitVec 2) :
    (spreadRoots s fn e ctx n pc arg desc prio).mem = s.mem := foldl_keeps State.mem (spread_mem _ n) _ s

/-! ### How an entry completes (R65, R66) -/

/-- The status with which an entry ends. -/
def EndsWith (x : Entry) (st : Nat) : Prop :=
  x.failed = some st ∨ (x.failed = none ∧ x.status = some st) ∨ (x.failed = none ∧ x.status = none ∧ x.start = true ∧ x.live = 0 ∧ st = 0)

theorem entryStatus_of_endsWith {st : Nat} (h : EndsWith x st) : entryStatus x = some st := by
  unfold entryStatus
  rcases h with h | ⟨h, h'⟩ | ⟨h, h', start, live, rfl⟩
  · rw [h]
  · rw [h, h']
  · simp [h, h', start, live]

/-- The state after an entry's completion word. -/
def worded (s : State) (fn q seq : Nat) (x : Entry) (st : Nat) : State :=
  if enFlag x.ws 1 && (getNq s fn q).compaddr != 0 then
    hostWrite s (getNq s fn q).compaddr.toNat [wd (seq % 2 ^ 48 + st % 256 * 2 ^ 48)] else s

@[simp] theorem worded_fns (s : State) (fn q seq : Nat) (x : Entry) (st : Nat) : (worded s fn q seq x st).fns = s.fns := by
  unfold worded
  split
  · exact hostWrite_fns _ _ _
  · rfl

@[simp] theorem worded_msix (s : State) (fn q seq : Nat) (x : Entry) (st : Nat) : (worded s fn q seq x st).msix = s.msix := by
  unfold worded
  split
  · exact hostWrite_msix _ _ _
  · rfl

theorem getNq_worded (s : State) (fn q seq : Nat) (x : Entry) (st : Nat) : getNq (worded s fn q seq x st) fn q = getNq s fn q :=
  congrArg (fun f : Fn => smGet ({} : NQueue) f.queues q) (getFn_congr (worded_fns s fn q seq x st) fn)

/-- A completed entry's interrupt, where its entry asks for one. -/
def interrupted (s : State) (fn q : Nat) (x : Entry) : State := if enFlag x.ws 2 then raiseReg s fn (getNq s fn q).qvec else s

theorem getNq_interrupted (s : State) (fn q : Nat) (x : Entry) : getNq (interrupted s fn q x) fn q = getNq s fn q := by
  unfold interrupted
  split
  · exact getNq_raiseReg _ _ _ _ _
  · rfl

theorem interrupted_mem (s : State) (fn q : Nat) (x : Entry) : (interrupted s fn q x).mem = s.mem := by
  unfold interrupted
  split
  · exact raiseReg_mem _ _ _
  · rfl

/-- A queue whose last entry is x. -/
def holding (x : Entry) (n : NQueue) : NQueue := { n with entries := [x] }
/-- A queue past its last entry. -/
def passed (n : NQueue) : NQueue := { n with compcnt := n.compcnt + 1, entries := [] }

/-- compcnt passes the entry that it waits for once that has its word, and stops where no entry is left. -/
theorem advanceComp_alone (s : State) {y : Entry} (entries : (getNq s fn q).entries = [y]) (next : y.seq = (getNq s fn q).compcnt) (written : y.written = true) :
    advanceComp s fn q 1 = interrupted (modNq s fn q passed) fn q y := by
  have pass : modNq s fn q (fun n => { n with compcnt := n.compcnt + 1, entries := n.entries.filter fun z => z.seq != y.seq }) = modNq s fn q passed :=
    modNq_congr (by simp [passed, entries])
  rw [advanceComp]
  simp only [entries, next, List.find?_cons, decide_true, written, if_true]
  rw [← next, pass]
  rfl

/-- An entry that is alone in its queue, completes next and ends with a status. -/
theorem completeEntry_alone {st : Nat} (admitted : Admitted s { fn := fn, q := q, seq := seq } x) (written : x.written = false)
    (entries : (getNq s fn q).entries = [x]) (next : (getNq s fn q).compcnt = seq) (hseq : seq < 2 ^ 64) (ends : EndsWith x st) :
    completeEntry s fn q seq = modNq (interrupted (modNq (modNq (worded s fn q seq x st) fn q (holding { x with written := true })) fn q passed) fn q x) fn q settle := by
  have number : x.seq = seq := by simpa using List.find?_some admitted
  dsimp only [Admitted] at admitted
  have marked : modNq (worded s fn q seq x st) fn q (fun n => { n with entries := n.entries.map fun y => if y.seq = seq then { y with written := true } else y }) =
      modNq (worded s fn q seq x st) fn q (holding { x with written := true }) :=
    modNq_congr (by simp [holding, getNq_worded, entries, number])
  have advanced := advanceComp_alone (fn := fn) (q := q) (y := { x with written := true })
    (modNq (worded s fn q seq x st) fn q (holding { x with written := true }))
    (by rw [getNq_modNq_same]; rfl) (by rw [getNq_modNq_same, getNq_worded]; exact number.trans next.symm) rfl
  unfold completeEntry
  simp only [admitted, entryStatus_of_endsWith ends, written, Nat.not_le.mpr hseq, Bool.false_eq_true, if_false]
  rw [entries]
  exact congrArg (modNq · fn q settle) ((congrArg (advanceComp · fn q 1) marked).trans advanced)

theorem settle_keeps (n : NQueue) : (settle n).compcnt = n.compcnt ∧ (settle n).entries = n.entries := by
  unfold settle
  split <;> exact ⟨rfl, rfl⟩

/-- What the completion of such an entry leaves: a queue past it, the completion word, and the interrupt. -/
theorem execEntryComplete_alone {st : Nat} (admitted : Admitted s { fn := fn, q := q, seq := seq } x) (written : x.written = false)
    (entries : (getNq s fn q).entries = [x]) (next : (getNq s fn q).compcnt = seq) (hseq : seq < 2 ^ 64) (ends : EndsWith x st) :
    ∃ t, exec (.entryComplete fn q seq) s = .next t ∧ (getNq t fn q).compcnt = seq + 1 ∧ (getNq t fn q).entries = [] ∧
      t.mem = (worded s fn q seq x st).mem ∧
      t.msix = (interrupted (modNq (modNq (worded s fn q seq x st) fn q (holding { x with written := true })) fn q passed) fn q x).msix := by
  refine ⟨_, congrArg Host.Outcome.next (completeEntry_alone admitted written entries next hseq ends), ?_, ?_, ?_, rfl⟩
  · rw [getNq_modNq_same, (settle_keeps _).1, getNq_interrupted, getNq_modNq_same, getNq_modNq_same, getNq_worded, ← next]
    rfl
  · rw [getNq_modNq_same, (settle_keeps _).2, getNq_interrupted, getNq_modNq_same]
    rfl
  · rw [modNq_mem, interrupted_mem, modNq_mem, modNq_mem]

/-- The completion word that an entry asks for, read back at the queue's address. -/
theorem memRead_worded {st : Nat} (rep : (wAt x.ws 6).getLsbD 1 = true ∧ (getNq s fn q).compaddr ≠ 0) (hst : st < 256) :
    memRead (worded s fn q seq x st).mem (0x4000000000000 + (getNq s fn q).compaddr.toNat % 2 ^ 48) 8 = seq % 2 ^ 48 + st * 2 ^ 48 := by
  obtain ⟨flag, addr⟩ := rep
  have low := Nat.mod_lt seq (show 0 < 2 ^ 48 by decide)
  have asked : (enFlag x.ws 1 && (getNq s fn q).compaddr != 0) = true := by
    rw [Bool.and_eq_true, bne_iff_ne]
    exact ⟨flag, addr⟩
  rw [worded, if_pos asked, Nat.mod_eq_of_lt hst]
  refine (memRead_hostWrite s _ _).trans ?_
  rw [wd, BitVec.toNat_ofNat]
  exact Nat.mod_eq_of_lt (by omega)

theorem worded_mem_unasked {st : Nat} (rep : ¬ ((wAt x.ws 6).getLsbD 1 = true ∧ (getNq s fn q).compaddr ≠ 0)) : (worded s fn q seq x st).mem = s.mem := by
  have asked : ¬ (enFlag x.ws 1 && (getNq s fn q).compaddr != 0) = true := by simpa [enFlag, bitAt] using rep
  rw [worded, if_neg asked]

/-- Settles O44: an entry that may start is decided by its early status, its image and its descriptor; its roots go to distinct
clusters, one run each; and one that is alone in its queue completes in one pass. -/
theorem launchResults : Obligations.LaunchResults := by
  unfold Obligations.LaunchResults
  intro s fn q seq x
  dsimp only
  refine ⟨fun may st early => ?_, fun may early nest chain load => ⟨fun absent => ?_, fun im a d found entry word ok fits one many => ?_⟩,
    fun may early load => ?_, fun st admitted written entries next hseq _ ends => ?_⟩
  · refine (execEntryStart_of_mayStart may).trans ?_
    rw [early]
    rfl
  · have missing : (getCtx s ((getNq s fn q).ctx.getD 0)).images.find? (fun i => i.handle = enImage x.ws) = none := by
      rw [List.find?_eq_none, enImage_eq]
      simpa using absent
    refine (execEntryStart_of_mayStart may).trans ?_
    rw [early, missing, enFlag, bitAt, load]
    rfl
  · have index : im.offs[enIndex x.ws]? = some a := by rw [enIndex_eq]; exact entry
    have inside : enIndex x.ws < im.offs.length := (List.getElem?_eq_some_iff.mp index).1
    have run := startRun_plain (e := { fn := fn, q := q, seq := seq }) nest chain inside one many (descAt_ok index word ok fits)
    have starts : execEntryStart fn q seq s = .next (startRun s { fn := fn, q := q, seq := seq } ((getNq s fn q).ctx.getD 0) x.ws im) := by
      rw [execEntryStart_of_mayStart may, early, enImage_eq, found, enFlag, bitAt, load]
      rfl
    refine ⟨_, starts.trans (congrArg Host.Outcome.next run), fun j k hk => ?_, spreadRoots_fns _ _ _ _ _ _ _ _ _, spreadRoots_mem _ _ _ _ _ _ _ _ _⟩
    rw [← prio_eq]
    refine (inj_spreadRoots (modEntry s _ _) _ _ _ _ _ hk).trans ?_
    rfl
  · refine (execImageLoad_of_mayStart may early load).trans ?_
    rw [enImage_eq]
    rfl
  · obtain ⟨t, completes, count, empty, mem, msix⟩ := execEntryComplete_alone admitted written entries next hseq ends
    refine ⟨t, completes, count, empty, fun rep hst _ => ?_, fun rep => mem.trans (worded_mem_unasked rep), fun flag on hv hm => ?_, fun flag => ?_⟩
    · rw [mem]
      exact memRead_worded rep hst
    · have vector : (getNq (modNq (modNq (worded s fn q seq x st) fn q (holding { x with written := true })) fn q passed) fn q).qvec = (getNq s fn q).qvec := by
        rw [getNq_modNq_same, getNq_modNq_same, getNq_worded]
        rfl
      rw [msix, interrupted, enFlag, bitAt, if_pos flag, vector, raiseReg_unmasked on hv, modNq_msix, modNq_msix, worded_msix]
      rw [msixGet_modNq, msixGet_modNq, getFn_congr (worded_fns _ _ _ _ _ _)]
      exact hm
    · rw [msix, interrupted, enFlag, bitAt, flag, if_neg Bool.false_ne_true, modNq_msix, modNq_msix, worded_msix]

end Sys2Proof.Proofs

end

section
/-!
PROOFS. Host registers, notify queues, the call ring and the device memory window (R58 to R63, R73 to R77).
-/

namespace Sys2Proof.Proofs

open Sys2Proof.Machine Sys2Proof.Laws Sys2Proof.Claim

variable {s : State} {fn q : Nat} {v : BitVec 64}

theorem hostUp_of_up (h : Up s fn) : hostUp s fn = true := by
  obtain ⟨small, supply, up⟩ := h
  rcases up with rfl | boot <;> simp [hostUp, *]

theorem nqCount_le (fn : Nat) : nqCount fn ≤ 256 := by
  unfold nqCount
  split <;> decide

theorem msixCount_le (fn : Nat) : msixCount fn ≤ 2048 := by
  unfold msixCount
  split <;> decide

/-! ### Writes of registers (R59, R61) -/

/-- An aligned 64-bit write below the MSI-X table is a write of the control block. -/
theorem execRegisterWrite_ctl (h : Up s fn) {off : Nat} (low : off < 0x10000) (aligned : off % 8 = 0) :
    execRegisterWrite fn 0 off 8 v s = .next (ctlWrite s fn off v) := by
  unfold execRegisterWrite
  simp [hostUp_of_up h, aligned, Nat.not_le.mpr low]

theorem ctlWrite_qvec (hq : q < nqCount fn) : ctlWrite s fn (0x100 + 8 * q) v = modNq s fn q fun n => { n with qvec := v &&& 0x80000000000007FF } := by
  have := nqCount_le fn
  have range : (0x100 ≤ 0x100 + 8 * q && decide (0x100 + 8 * q < 0x900)) = true := by simp; omega
  have index : (0x100 + 8 * q - 0x100) / 8 = q := by omega
  unfold ctlWrite
  rw [if_pos range, index, if_pos hq]

theorem ctlWrite_scvec : ctlWrite s fn 0x1028 v = modFn s fn fun f => { f with scvec := v &&& 0x80000000000007FF } := rfl

theorem ctlWrite_screply {i : Nat} (hi : i < 3) : ctlWrite s fn (0x2000 + 8 * i) v = modFn s fn fun f => { f with screply := smSet 0 f.screply i v } := by
  have : i = 0 ∨ i = 1 ∨ i = 2 := by omega
  rcases this with rfl | rfl | rfl <;> rfl

theorem ctlWrite_command {i : Nat} (hi : i < 32) :
    ctlWrite s 0 (0x4000 + 8 * i) v = { s with mgmt := { s.mgmt with mcmd := smSet 0 s.mgmt.mcmd i v } } := by
  have index : (0x4000 + 8 * i - 0x4000) / 8 = i := by omega
  have queue : ¬ 0x4000 + 8 * i < 0x900 := by omega
  have ring : ¬ 0x4000 + 8 * i = 0x1028 := by omega
  have reply : ¬ 0x4000 + 8 * i < 0x2018 := by omega
  have block : 0x4000 + 8 * i < 0x4100 := by omega
  unfold ctlWrite
  simp [queue, ring, reply, block]

theorem ctlWrite_doorbell : ctlWrite s 0 0x4100 v = if s.mgmt.busy then s else
    if cmdKnown { s with mgmt := { s.mgmt with busy := true, cmd := s.mgmt.mcmd } } then { s with mgmt := { s.mgmt with busy := true, cmd := s.mgmt.mcmd } }
    else mgmtEnd { s with mgmt := { s.mgmt with busy := true, cmd := s.mgmt.mcmd } } 2 [] := rfl

theorem cmdKnown_eq_true (one : 1 ≤ cmdByte s 0) (last : cmdByte s 0 ≤ 0x13) (h6 : cmdByte s 0 = 0x06 → cmdByte s 9 ≤ 1)
    (h11 : cmdByte s 0 = 0x11 → cmdByte s 8 ≤ 4) (h13 : cmdByte s 0 = 0x13 → cmdByte s 8 ≤ 5) : cmdKnown s = true := by
  unfold cmdKnown
  simp only [Bool.and_eq_true, Bool.or_eq_true, decide_eq_true_eq, bne_iff_ne]
  omega

theorem cmdKnown_eq_false (h : cmdByte s 0 = 0 ∨ 0x13 < cmdByte s 0) : cmdKnown s = false := by
  unfold cmdKnown
  rcases h with h | h
  · simp [h]
  · simp [Nat.not_le.mpr h]

/-- An aligned 64-bit write of an MSI-X word writes it, and sends a vector that is then pending and unmasked. -/
theorem execRegisterWrite_msix (h : Up s fn) {i : Nat} (hi : i < 2 * msixCount fn) :
    execRegisterWrite fn 0 (0x10000 + 8 * i) 8 v s = .next (msixFlush (modFn s fn fun f => msixSet f i v) fn (i / 2)) := by
  have range : 0x10000 + 8 * i < 0x10000 + 16 * msixCount fn := by omega
  have index : (0x10000 + 8 * i - 0x10000) / 8 = i := by omega
  have aligned : (0x10000 + 8 * i - 0x10000) % 8 = 0 := by omega
  unfold execRegisterWrite msixWrite
  rw [index, aligned, hostUp_of_up h]
  simp [range]

theorem msixFlush_stays {s : State} {vec : Nat}
    (h : (smGet 0 (getFn s fn).msixPba (vec / 64)).getLsbD (vec % 64) = false ∨ (msixGet (getFn s fn) (2 * vec + 1)).getLsbD 32 = true) :
    msixFlush s fn vec = s := by
  refine if_neg fun flush => ?_
  rw [Bool.and_eq_true, Bool.not_eq_true'] at flush
  obtain ⟨pend, on⟩ := flush
  rcases h with h | h
  · exact Bool.false_ne_true (h.symm.trans pend)
  · exact Bool.false_ne_true (on.symm.trans h)

theorem msixFlush_sends {s : State} {vec : Nat} (pend : (smGet 0 (getFn s fn).msixPba (vec / 64)).getLsbD (vec % 64) = true)
    (on : (msixGet (getFn s fn) (2 * vec + 1)).getLsbD 32 = false) :
    msixFlush s fn vec =
      { modFn s fn (fun f => { f with msixPba := smMod 0 f.msixPba (vec / 64) fun w => w &&& ~~~(wd (2 ^ (vec % 64))) }) with msix := s.msix ++ [(fn, vec)] } := by
  unfold msixFlush bitAt
  simp only [pend, on]
  rfl

/-- A write of a notify page: a register where it is aligned and 64 bits wide, else error 2 at a listed field. -/
theorem execRegisterWrite_page (h : Up s fn) (hq : q < nqCount fn) {o b : Nat} (ho : o < 4096) :
    execRegisterWrite fn 2 (4096 * q + o) b v s = .next (if b = 8 ∧ o % 8 = 0 then pageWrite s fn q o v
      else if pageListed o then modNq s fn q fun n => { n with err := 2 } else s) := by
  have page : (4096 * q + o) / 4096 = q := by omega
  have field : (4096 * q + o) % 4096 = o := by omega
  unfold execRegisterWrite
  rw [page, field, hostUp_of_up h]
  simp [hq]

/-- The registers of R59 and R61 that the host writes. -/
theorem registerWriteResults : Claim.RegisterWriteResults := by
  unfold Claim.RegisterWriteResults
  intro s fn v up
  have ctl := fun {off : Nat} (low : off < 0x10000) (aligned : off % 8 = 0) {t : State} (writes : ctlWrite s fn off v = t) =>
    (execRegisterWrite_ctl up low aligned).trans (congrArg Host.Outcome.next writes)
  have queues := nqCount_le fn
  refine ⟨fun q hq => ctl (by omega) (by omega) (ctlWrite_qvec hq), ctl (by decide) (by decide) ctlWrite_scvec,
    fun i hi => ctl (by omega) (by omega) (ctlWrite_screply hi), ?_, ?_, ?_, fun i hi => ?_, fun q hq => ?_⟩
  · rintro i rfl hi
    exact ctl (by omega) (by omega) (ctlWrite_command hi)
  · rintro rfl busy
    exact ctl (by decide) (by decide) (by rw [ctlWrite_doorbell, if_pos busy])
  · rintro rfl idle
    have idle : ¬ s.mgmt.busy = true := by simp [idle]
    refine ⟨fun ⟨one, last, h6, h11, h13⟩ => ctl (by decide) (by decide) ?_, fun other => ctl (by decide) (by decide) ?_⟩
    · rw [ctlWrite_doorbell, if_neg idle, if_pos (cmdKnown_eq_true one last h6 h11 h13)]
    · rw [ctlWrite_doorbell, if_neg idle, cmdKnown_eq_false other, if_neg Bool.false_ne_true]
  · have pba : (getFn (modFn s fn fun f => msixSet f i v) fn).msixPba = (getFn s fn).msixPba := by rw [getFn_modFn_same]; rfl
    refine ⟨fun stays => ?_, fun pend on => ?_⟩
    · exact (execRegisterWrite_msix up hi).trans (congrArg Host.Outcome.next (msixFlush_stays (by rw [pba]; exact stays)))
    · exact (execRegisterWrite_msix up hi).trans (congrArg Host.Outcome.next (msixFlush_sends (by rw [pba]; exact pend) on))
  · refine ⟨execRegisterWrite_page up hq (by decide), execRegisterWrite_page up hq (by decide), execRegisterWrite_page up hq (by decide),
      execRegisterWrite_page up hq (by decide), execRegisterWrite_page up hq (by decide), fun b o narrow listed => ?_⟩
    have field : pageListed o = true := by simp only [pageListed, Bool.or_eq_true, decide_eq_true_eq]; omega
    refine (execRegisterWrite_page up hq (by omega)).trans ?_
    rw [if_neg (fun h => narrow h.1), if_pos field]

/-! ### Reads of registers (R58, R59, R61, R73) -/

theorem hostRead_aligned (h : Up s fn) {bar off : Nat} (aligned : off % 8 = 0) (inside : off < barBytes s fn bar) : hostRead s fn bar off 8 =
    some (if bar = 0 then ctlRead s fn off else if bar = 2 then pageRead (getNq s fn (off / 4096)) (off % 4096) else 0) := by
  have place : off / 8 * 8 = off := by omega
  have field : off % 4096 / 8 * 8 = off % 4096 := by omega
  unfold hostRead
  rw [place, field, hostUp_of_up h]
  simp [aligned, Nat.not_le.mpr inside]

theorem hostRead_nothing (h : Up s fn) {bar off bytes : Nat} (out : bytes < 4 ∨ barBytes s fn bar ≤ off) : hostRead s fn bar off bytes = some 0 := by
  unfold hostRead
  rw [hostUp_of_up h]
  rcases out with narrow | beyond
  · simp [show bytes ≠ 8 by omega, show bytes ≠ 4 by omega]
  · simp [beyond, fld, wd]

theorem barBytes_control (s : State) (fn : Nat) : 0x100000 ≤ barBytes s fn 0 := by
  show 0x100000 ≤ if fn = 0 then 0x4000000 else 0x100000
  split <;> decide

theorem length_partition_le (s : State) (fn : Nat) : (partition s fn).length ≤ 64 :=
  (List.length_filter_le _ _).trans (by simp)

/-- The seven flags of fnstat, in its low bits. -/
theorem flagWord_bits : ∀ a b c d e f g : Bool,
    let w := wd (([a, b, c, d, e, f, g].zipIdx.map fun x => if x.1 then 2 ^ x.2 else 0).sum)
    w.toNat < 128 ∧ ∀ i, i < 7 → [a, b, c, d, e, f, g][i]? = some (w.getLsbD i) := by
  decide

theorem ctlRead_qvec (hq : q < nqCount fn) : ctlRead s fn (0x100 + 8 * q) = (getNq s fn q).qvec := by
  have := nqCount_le fn
  have range : (0x100 ≤ 0x100 + 8 * q && decide (0x100 + 8 * q < 0x900)) = true := by simp; omega
  have index : (0x100 + 8 * q - 0x100) / 8 = q := by omega
  unfold ctlRead
  rw [if_pos range, index, if_pos hq]

/-- Word i, j of a page's notice area. -/
theorem pageRead_area (n : NQueue) {i j : Nat} (hi : i < 32) (hj : j < 8) : pageRead n (0x800 + 64 * i + 8 * j) = wAt (smGet [] n.area i) j := by
  have range : (0x800 ≤ 0x800 + 64 * i + 8 * j && decide (0x800 + 64 * i + 8 * j < 0x1000)) = true := by simp; omega
  have record : (0x800 + 64 * i + 8 * j - 0x800) / 64 = i := by omega
  have word : (0x800 + 64 * i + 8 * j - 0x800) % 64 / 8 = j := by omega
  unfold pageRead
  rw [if_pos range, record, word]

/-- The registers of a notify page (R61, R73). -/
def pageFields (n : NQueue) : List (Nat × Nat) :=
  [(0x00, n.ringidx), (0x08, n.admitted), (0x10, n.compcnt), (0x18, n.ringbase.toNat), (0x20, n.ringlog.toNat), (0x28, n.compaddr.toNat),
    (0x30, n.st % 16 + n.err % 256 * 2 ^ 8 + n.awaited % 2 ^ 48 * 2 ^ 16), (0x40, 1), (0x48, n.ntcount), (0x50, n.nthead), (0x58, n.ntlost)]

theorem pageRead_fields (n : NQueue) : ∀ r ∈ pageFields n, r.1 % 8 = 0 ∧ r.1 < 4096 ∧ pageRead n r.1 = BitVec.ofNat 64 r.2 := by
  simp [pageFields, pageRead, qstatWord, wd]

theorem ctlRead_fnid : ctlRead s fn 0 = fnidWord s fn := by
  simp [ctlRead]

theorem ctlRead_fnstat : ctlRead s fn 8 = fnstatWord s fn := by
  simp [ctlRead]

/-- What R58, R59, R61 and R73 let the host read. -/
theorem hostReadResults : Claim.HostReadResults := by
  unfold Claim.HostReadResults
  intro s fn up
  have ctl : ∀ {off : Nat}, off % 8 = 0 → off < 0x100000 → hostRead s fn 0 off 8 = some (ctlRead s fn off) := fun aligned inside =>
    hostRead_aligned up (bar := 0) aligned (Nat.lt_of_lt_of_le inside (barBytes_control s fn))
  have queues := nqCount_le fn
  refine ⟨?_, ⟨_, ctl (by decide) (by decide), ?_⟩, fun q hq => ?_, ?_, fun q hq => ?_, fun bar off bytes out => hostRead_nothing up out⟩
  · have number : fn % 32 = fn := Nat.mod_eq_of_lt up.1
    have clusters : (partition s fn).length % 256 = (partition s fn).length := Nat.mod_eq_of_lt (Nat.lt_of_le_of_lt (length_partition_le s fn) (by decide))
    rw [ctl (by decide) (by decide), ctlRead_fnid, fnidWord, number, clusters]
    rfl
  · obtain ⟨small, bits⟩ := flagWord_bits (fnIdle s fn) (getFn s fn).recMode (getFn s fn).replay (getFn s fn).halted (getFn s fn).urgent
      (getFn s fn).hostSh (getFn s fn).diverged
    rw [ctlRead_fnstat]
    refine ⟨small, fun i b hb => ?_⟩
    have hi : i < 7 := (List.getElem?_eq_some_iff.mp hb).1
    exact Option.some.inj ((bits i hi).symm.trans hb)
  · rw [ctl (by omega) (by omega), ctlRead_qvec hq]
  · rintro rfl
    exact ctl (by decide) (by decide)
  · have page := fun {o : Nat} (aligned : o % 8 = 0) (ho : o < 4096) => by
      have read := hostRead_aligned up (bar := 2) (off := 4096 * q + o) (by omega) (show _ < 4096 * nqCount fn by omega)
      rw [show (4096 * q + o) / 4096 = q by omega, show (4096 * q + o) % 4096 = o by omega] at read
      exact read
    refine ⟨fun r hr => ?_, fun i j hi hj => ?_⟩
    · obtain ⟨aligned, small, field⟩ := pageRead_fields (getNq s fn q) r hr
      exact (page aligned small).trans (congrArg some field)
    · rw [Nat.add_assoc, Nat.add_assoc, ← Nat.add_assoc 0x800]
      refine (page (by omega) (by omega)).trans (congrArg some ?_)
      exact pageRead_area _ hi hj

/-! ### Notify queues (R61 to R63) -/

theorem low5_eq (w : Word) : fld w 4 0 = w.toNat % 32 := by
  rw [fld_eq, Nat.pow_zero, Nat.div_one]
  rfl

theorem execRingidxWrite_up (h : Up s fn) (hq : q < nqCount fn) : execRingidxWrite fn q v s = .next (ringidxPut s fn q v) := by
  simp [execRingidxWrite, hostUp_of_up h, hq]

/-- What enabling makes of a queue: its configuration is checked before its version. -/
theorem execQueueEnable_up (h : Up s fn) (hq : q < nqCount fn) (off : (getNq s fn q).st = 0 ∨ ((getNq s fn q).st = 3 ∧ ((getNq s fn q).err = 3 ∨ (getNq s fn q).err = 4))) :
    execQueueEnable fn q s = .next (modNq s fn q fun n =>
      if fld n.ringlog 63 5 != 0 || fld n.ringlog 4 0 < 4 || fld n.ringlog 4 0 > 16 then { n with st := 3, err := 3 }
      else if n.hiver != 1 then { n with st := 3, err := 4 }
      else { n with st := 1, err := 0, draining := false }) := by
  have up : (hostUp s fn && decide (q < nqCount fn)) = true := by simp [hostUp_of_up h, hq]
  have allowed : (decide ((getNq s fn q).st = 0) || decide ((getNq s fn q).st = 3) && (decide ((getNq s fn q).err = 3) || decide ((getNq s fn q).err = 4))) = true := by
    simpa using off
  unfold execQueueEnable
  simp only [up, allowed, Bool.not_true, Bool.false_eq_true, if_false]

/-- A ringlog names no ring of 2^4 to 2^16 slots. -/
theorem ringlog_bad (w : Word) : (fld w 63 5 != 0 || decide (fld w 4 0 < 4) || decide (fld w 4 0 > 16)) = true ↔ w.toNat < 4 ∨ 16 < w.toNat := by
  have := w.isLt
  have high : fld w 63 5 = w.toNat / 32 := by
    rw [fld_eq, Nat.mod_eq_of_lt (by omega)]
    rfl
  simp only [Bool.or_eq_true, bne_iff_ne, decide_eq_true_eq, low5_eq, high]
  omega

theorem execQueueDisable_up (h : Up s fn) (hq : q < nqCount fn) : execQueueDisable fn q s =
    .next (modNq s fn q fun n => if n.st = 1 || n.st = 2 then settle { n with draining := true } else n) := by
  simp [execQueueDisable, hostUp_of_up h, hq]

theorem settle_empty {n : NQueue} (h : ∀ e ∈ n.entries, e.written = true) : settle { n with draining := true } = { n with st := 0, draining := false } := by
  have all : n.entries.all (fun e => e.written) = true := List.all_eq_true.mpr h
  simp [settle, all]

theorem settle_waits {n : NQueue} {e : Entry} (he : e ∈ n.entries) (h : e.written = false) : settle { n with draining := true } = { n with draining := true } := by
  have pending : n.entries.all (fun e => e.written) = false := List.all_eq_false.mpr ⟨e, he, by simp [h]⟩
  simp [settle, pending]

/-- The queue after a reset. -/
def resetQueue (n : NQueue) : NQueue :=
  { n with ringidx := 0, admitted := 0, compcnt := 0, st := 0, err := 0, awaited := 0, retry := 64, draining := false,
           entries := n.entries.filterMap fun e => if e.written then none else some { e with seq := orphanSeq e.seq } }

/-- A reset renews the queue and renumbers what is in flight. -/
theorem execQueueReset_up (h : Up s fn) (hq : q < nqCount fn) : ∃ t, execQueueReset fn q s = .next t ∧ t.fns = (modNq s fn q resetQueue).fns ∧ t.mem = s.mem := by
  have up : (hostUp s fn && decide (q < nqCount fn)) = true := by simp [hostUp_of_up h, hq]
  unfold execQueueReset
  simp only [up, Bool.not_true, Bool.false_eq_true, if_false]
  exact ⟨_, rfl, rfl, rfl⟩

theorem resetQueue_numbers {n : NQueue} {x : Entry} (h : x ∈ (resetQueue n).entries) : 2 ^ 64 ≤ x.seq := by
  obtain ⟨e, -, he⟩ := List.mem_filterMap.mp h
  split at he
  · cases he
  · cases he
    exact Nat.le_add_left _ _

/-- A queue that runs, or waits for a stamp, reads the slot of its next entry. -/
theorem execAdmitEntry_runs (h : Up s fn) (hq : q < nqCount fn) (boot : s.boot.done = true) (run : working s = true) (drain : (getNq s fn q).draining = false)
    (st : (getNq s fn q).st = 1) (more : (getNq s fn q).admitted < (getNq s fn q).ringidx) (err : Bool) :
    execAdmitEntry fn (q, err) s = .next (tryAdmit s fn q 64 err) := by
  simp [execAdmitEntry, hostUp_of_up h, hq, boot, run, drain, st, more]

theorem execStampRetry_waits (h : Up s fn) (hq : q < nqCount fn) (boot : s.boot.done = true) (run : working s = true) (drain : (getNq s fn q).draining = false)
    (st : (getNq s fn q).st = 2) (err : Bool) : execStampRetry fn (q, err) s = .next (tryAdmit s fn q (min (2 * (getNq s fn q).retry) 8192) err) := by
  simp [execStampRetry, hostUp_of_up h, hq, boot, run, drain, st]

variable {retry : Nat} {err : Bool} {ws : List Word}

theorem tryAdmit_admits (read : readSlot s (getNq s fn q) err = some ws) (stamp : wAt ws 0 = wd (getNq s fn q).admitted) :
    tryAdmit s fn q retry err = modNq s fn q fun m =>
      { m with st := 1, admitted := (getNq s fn q).admitted + 1, retry := 64, entries := m.entries ++ [{ seq := (getNq s fn q).admitted, ws := ws }] } := by
  unfold tryAdmit
  simp only [read, stamp, if_true]
  exact modNq_congr rfl

theorem tryAdmit_waits (read : readSlot s (getNq s fn q) err = some ws) (stamp : wAt ws 0 ≠ wd (getNq s fn q).admitted) :
    tryAdmit s fn q retry err = modNq s fn q fun m => { m with st := 2, awaited := (getNq s fn q).admitted, retry := retry } := by
  unfold tryAdmit
  simp only [read, stamp, if_false]
  exact modNq_congr rfl

theorem tryAdmit_faults (read : readSlot s (getNq s fn q) err = none) : tryAdmit s fn q retry err = modNq s fn q fun m => { m with st := 3, err := 5 } := by
  unfold tryAdmit
  simp only [read]

theorem readSlot_host {n : NQueue} (h : n.ringbase.getLsbD 63 = true) : readSlot s n err = if err then none else some ((List.range 8).map fun i =>
    wd (memRead s.mem (hostAt ((n.ringbase + wd (64 * (n.admitted % 2 ^ (n.ringlog.toNat % 32)))).toNat + 8 * i)) 8)) := by
  unfold readSlot
  simp only [bitAt, h, if_true, ringSlots, low5_eq]

/-- The three outcomes of a read of the next slot. -/
theorem tryAdmit_outcomes {o : Host.Outcome State Fault Refusal} (runs : o = .next (tryAdmit s fn q retry err)) :
    (∀ ws, readSlot s (getNq s fn q) err = some ws →
      (wAt ws 0 = wd (getNq s fn q).admitted → o = .next (modNq s fn q fun m =>
        { m with st := 1, admitted := (getNq s fn q).admitted + 1, retry := 64, entries := m.entries ++ [{ seq := (getNq s fn q).admitted, ws := ws }] })) ∧
      (wAt ws 0 ≠ wd (getNq s fn q).admitted → o = .next (modNq s fn q fun m => { m with st := 2, awaited := (getNq s fn q).admitted, retry := retry }))) ∧
    (readSlot s (getNq s fn q) err = none → o = .next (modNq s fn q fun m => { m with st := 3, err := 5 })) :=
  ⟨fun _ read => ⟨fun stamp => runs.trans (congrArg _ (tryAdmit_admits read stamp)), fun stamp => runs.trans (congrArg _ (tryAdmit_waits read stamp))⟩,
    fun read => runs.trans (congrArg _ (tryAdmit_faults read))⟩

theorem queueResults : Claim.QueueResults := by
  unfold Claim.QueueResults
  intro s fn q up hq
  dsimp only
  refine ⟨fun v => ?_, fun off => ?_, fun on => ⟨fun all => ?_, fun e he unwritten => ?_⟩, ?_, fun boot run drain err => ?_, fun host => ?_⟩
  · refine (execRingidxWrite_up up hq).trans (congrArg Host.Outcome.next (modNq_congr ?_))
    rw [ringSlots, low5_eq]
  · refine (execQueueEnable_up up hq off).trans (congrArg Host.Outcome.next (modNq_congr ?_))
    simp only [ringlog_bad, bne_iff_ne]
  · have enabled : (decide ((getNq s fn q).st = 1) || decide ((getNq s fn q).st = 2)) = true := by simpa using on
    refine (execQueueDisable_up up hq).trans (congrArg Host.Outcome.next (modNq_congr ?_))
    rw [if_pos enabled, settle_empty all]
  · have enabled : (decide ((getNq s fn q).st = 1) || decide ((getNq s fn q).st = 2)) = true := by simpa using on
    refine (execQueueDisable_up up hq).trans (congrArg Host.Outcome.next (modNq_congr ?_))
    rw [if_pos enabled, settle_waits he unwritten]
  · obtain ⟨t, resets, fns, mem⟩ := execQueueReset_up up hq
    have queue : getNq t fn q = resetQueue (getNq s fn q) :=
      (congrArg (fun f : Fn => smGet ({} : NQueue) f.queues q) (getFn_congr fns fn)).trans (getNq_modNq_same _ _ _ _)
    refine ⟨t, resets, ?_, fun x hx => ?_, mem⟩
    · rw [queue]
      rfl
    · rw [queue] at hx
      exact resetQueue_numbers hx
  · simp only [List.forall_mem_cons, List.not_mem_nil, false_imp_iff, implies_true, and_true]
    exact ⟨fun st more => tryAdmit_outcomes (execAdmitEntry_runs up hq boot run drain st (more trivial) err),
      fun st _ => tryAdmit_outcomes (execStampRetry_waits up hq boot run drain st err)⟩
  · exact ⟨readSlot_host host, readSlot_host host⟩

/-! ### The call ring (R76, R77) -/

theorem scDrain_empty (s : State) (fn n : Nat) (h : (getFn s fn).held = []) : scDrain s fn n = s := by
  cases n with
  | zero => rfl
  | succ n =>
    unfold scDrain
    simp only [h]

/-- The one held message goes to the slot at the tail. -/
theorem scDrain_one {t : Tid} {ws : List Word} (s : State) (fn : Nat) (h : (getFn s fn).held = [(t, ws)]) (room : scRoom (getFn s fn) = true) :
    scDrain s fn 1 = scWrite (modFn s fn fun f => { f with held := [] }) fn ws := by
  unfold scDrain
  simp only [h, room, if_true, scDrain]

theorem scSlots_eq {f : Fn} (base : f.scbase ≠ 0) (low : 4 ≤ f.sclog.toNat % 32) (high : f.sclog.toNat % 32 ≤ 16) : scSlots f = 2 ^ (f.sclog.toNat % 32) := by
  unfold scSlots
  rw [low5_eq]
  simp only [base, Nat.not_lt.mpr low, Nat.not_lt.mpr high, decide_false, Bool.or_self, Bool.false_eq_true, if_false]

theorem scWrite_eq {f : Fn} (s : State) (fn : Nat) (ws : List Word) (hf : getFn s fn = f) (slots : scSlots f = 2 ^ (f.sclog.toNat % 32)) :
    scWrite s fn ws = raiseReg (modFn (homeWriteL s (0x4000000000000 + (f.scbase.toNat + 64 * (f.sctail % 2 ^ (f.sclog.toNat % 32))) % 2 ^ 48) (wordBytes ws)) fn
      fun f => { f with sctail := f.sctail + 1 }) fn f.scvec := by
  unfold scWrite
  simp only [hf, slots]
  rfl

/-- What the held messages of a function become once its ring is set: none, or the one that is held goes out. -/
theorem scDrain_outcomes (s : State) (fn : Nat) :
    ((getFn s fn).held = [] → scDrain s fn (getFn s fn).held.length = s) ∧
    (∀ t ws, (getFn s fn).held = [(t, ws)] → (getFn s fn).scbase ≠ 0 → 4 ≤ (getFn s fn).sclog.toNat % 32 → (getFn s fn).sclog.toNat % 32 ≤ 16 →
      (getFn s fn).sctail - (getFn s fn).schead < 2 ^ ((getFn s fn).sclog.toNat % 32) →
      scDrain s fn (getFn s fn).held.length = raiseReg (modFn (homeWriteL (modFn s fn fun f => { f with held := [] })
        (0x4000000000000 + ((getFn s fn).scbase.toNat + 64 * ((getFn s fn).sctail % 2 ^ ((getFn s fn).sclog.toNat % 32))) % 2 ^ 48) (wordBytes ws)) fn
        fun f => { f with sctail := f.sctail + 1 }) fn (getFn s fn).scvec) := by
  refine ⟨fun quiet => scDrain_empty s fn _ quiet, fun t ws one base low high free => ?_⟩
  have slots := scSlots_eq base low high
  have room : scRoom (getFn s fn) = true := by
    rw [scRoom, slots]
    exact decide_eq_true free
  rw [one, List.length_singleton, scDrain_one s fn one room]
  exact scWrite_eq (f := { getFn s fn with held := [] }) _ fn ws (getFn_modFn_same _ _ _) slots

theorem execScringConfig_base (h : Up s fn) : execScringConfig fn false v s =
    .next (scDrain (modFn s fn fun f => { f with scbase := v, sctail := 0, schead := 0 }) fn
      (getFn (modFn s fn fun f => { f with scbase := v, sctail := 0, schead := 0 }) fn).held.length) := by
  unfold execScringConfig
  simp only [hostUp_of_up h, if_true, Bool.false_eq_true, if_false]

theorem execScringConfig_log (h : Up s fn) : execScringConfig fn true v s =
    .next (scDrain (modFn s fn fun f => { f with sclog := v, sctail := 0, schead := 0 }) fn
      (getFn (modFn s fn fun f => { f with sclog := v, sctail := 0, schead := 0 }) fn).held.length) := by
  unfold execScringConfig
  simp only [hostUp_of_up h, if_true]

theorem execScheadWrite_up (h : Up s fn) : execScheadWrite fn v s =
    .next (scDrain (modFn s fn fun f => { f with schead := v.toNat }) fn (getFn (modFn s fn fun f => { f with schead := v.toNat }) fn).held.length) := by
  unfold execScheadWrite
  simp only [hostUp_of_up h, if_true]

/-! ### Replies to calls (R74, R76, R202) -/

/-- The thread that a reply's first word names. -/
theorem wordTid_reply (w : Word) : wordTid (fld w 16 0) = { core := w.toNat / 64 % 2048, slot := w.toNat % 64 } := by
  have low : fld w 16 0 = w.toNat % 2 ^ 17 := by
    rw [fld_eq, Nat.pow_zero, Nat.div_one]
  rw [low, wordTid, Tid.mk.injEq]
  constructor <;> omega

/-- A function with the value of a reply in its fourth register. -/
def keepReply (v : Word) (f : Fn) : Fn := { f with screply := smSet 0 f.screply 3 v }

theorem keepReply_below (v : Word) (f : Fn) {i : Nat} (h : i < 3) : smGet 0 (keepReply v f).screply i = smGet 0 f.screply i :=
  smGet_smSet_other _ _ _ (by omega)

theorem execSyscallReply_halted (h : Up s fn) (halted : working s = false) : execSyscallReply fn v s = .next (modFn s fn (keepReply v)) := by
  have still : (!working s) = true := by rw [halted]; rfl
  unfold execSyscallReply
  simp only [hostUp_of_up h, Bool.not_true, Bool.false_eq_true, if_false]
  exact congrArg Host.Outcome.next (if_pos still)

/-- A reply of a working package goes to its place, or after a thread that has moved. -/
theorem execSyscallReply_works (h : Up s fn) (works : working s = true) {t : Tid} (ht : t = wordTid (fld (smGet 0 (getFn s fn).screply 0) 16 0)) :
    execSyscallReply fn v s = .next (match fwdOf s t with
      | some f =>
        if f.new = t then sysAnswer (modFn s fn (keepReply v)) fn t (smGet 0 (getFn s fn).screply 1) (smGet 0 (getFn s fn).screply 2) v
        else forwardTo (modFn s fn (keepReply v)) f (hskOf s (coreUnit t.core)) (if hskOf s (coreUnit t.core) = 0 then some (tickN s) else none)
          (.sysrep fn (smGet 0 (getFn s fn).screply 1) (smGet 0 (getFn s fn).screply 2) v)
      | none => sysAnswer (modFn s fn (keepReply v)) fn t (smGet 0 (getFn s fn).screply 1) (smGet 0 (getFn s fn).screply 2) v) := by
  have words : ∀ {i : Nat}, i < 3 → smGet 0 (getFn (modFn s fn (keepReply v)) fn).screply i = smGet 0 (getFn s fn).screply i := fun hi => by
    rw [getFn_modFn_same, keepReply_below v _ hi]
  have still : ¬ (!working s) = true := by rw [works]; decide
  rw [ht, ← words (i := 0) (by decide), ← words (i := 1) (by decide), ← words (i := 2) (by decide)]
  unfold execSyscallReply
  simp only [hostUp_of_up h, Bool.not_true, Bool.false_eq_true, if_false]
  exact congrArg Host.Outcome.next (if_neg still)

/-- A reply to the call for which a thread waits. -/
theorem sysAnswer_parked {s : State} {t : Tid} {seq a0 a1 : Word} (own : coreFn s t.core = fn) (alive : (getSlot s t).uid.isSome = true) (waits : (getSlot s t).wait = some .sysc)
    (empty : (getSlot s t).res = none) (call : (getSlot s t).callSeq = seq) (plain : (getFn s fn).recMode = false) :
    ((getFn s fn).halted = false → (getSlot s t).halted = false → sysAnswer s fn t seq a0 a1 =
      modSlot (regSet (regSet s t (getSlot s t) 4 a0) t (getSlot s t) 5 a1) t fun x => { x with wait := none, res := none }) ∧
    ((getFn s fn).halted = true ∨ (getSlot s t).halted = true → sysAnswer s fn t seq a0 a1 = modSlot s t fun x => { x with res := some (.words [a0, a1]) }) := by
  have parked : callParked s fn t seq = true := by simp [callParked, own, alive, waits, empty, call]
  have record : scRecord s (coreFn s t.core) (origTid s t) (getSlot s t).callSeq a0 a1 = s := by simp [scRecord, own, plain]
  have held : sysHeld s t = ((getFn s fn).halted || (getSlot s t).halted) := by simp [sysHeld, traceRoomN, own, plain]
  constructor
  · intro on runs
    rw [sysAnswer, if_pos parked, held, on, runs, if_neg (by decide), sysDeliver, record]
  · intro halt
    have stop : sysHeld s t = true := by rw [held]; simpa using halt
    rw [sysAnswer, if_pos parked, if_pos stop]

/-- A reply to no call is counted. -/
theorem sysAnswer_lost {s : State} {t : Tid} {seq : Word} (a0 a1 : Word)
    (other : coreFn s t.core ≠ fn ∨ (getSlot s t).uid = none ∨ (getSlot s t).wait ≠ some .sysc ∨ (getSlot s t).res ≠ none ∨ (getSlot s t).callSeq ≠ seq) :
    sysAnswer s fn t seq a0 a1 = modFn s fn fun f => { f with scLost := f.scLost + 1 } := by
  have lost : ¬ callParked s fn t seq = true := by
    simp only [callParked, Bool.and_eq_true, decide_eq_true_eq, Option.isNone_iff_eq_none]
    rintro ⟨⟨⟨⟨own, alive⟩, waits⟩, empty⟩, call⟩
    rcases other with h | h | h | h | h
    · exact h own
    · rw [h] at alive; cases alive
    · exact h waits
    · exact h empty
    · exact h call
  rw [sysAnswer, if_neg lost]

/-! ### The device memory window (R58) -/

theorem partition_lt {c : Nat} (h : c ∈ partition s fn) : c < 64 := List.mem_range.mp (List.mem_filter.mp h).1

theorem windowKey_slice {i c d : Nat} (hc : (partition s fn)[i / 4]? = some c) (hd : d < 0x60000000) :
    windowKey s fn (i * 0x60000000 + d) = some ((c * 4 + i % 4) * 0x80000000 + d) := by
  have slice : (i * 0x60000000 + d) / 0x60000000 = i := by omega
  have offset : (i * 0x60000000 + d) % 0x60000000 = d := by omega
  have cluster : (partition s fn).getD (i / 4) 64 = c := by rw [List.getD_eq_getElem?_getD, hc, Option.getD_some]
  unfold windowKey
  simp only [slice, offset, cluster, if_pos (partition_lt (List.mem_of_getElem? hc))]

theorem windowKey_beyond {off : Nat} (h : (partition s fn).length * 4 ≤ off / 0x60000000) : windowKey s fn off = none := by
  have out : (partition s fn).length ≤ off / 0x60000000 / 4 := by omega
  have cluster : (partition s fn).getD (off / 0x60000000 / 4) 64 = 64 := by
    rw [List.getD_eq_getElem?_getD, List.getElem?_eq_none out, Option.getD_none]
  unfold windowKey
  simp only [cluster]
  rfl

theorem windowWord_marksOnly {t : State} (h : MarksOnly s t) (fn off n : Nat) : windowWord t fn off n = windowWord s fn off n := by
  unfold MarksOnly at h
  rw [h]
  rfl

theorem leNat_bytes (m : List Host.Cell) (k n : Nat) : leNat ((List.range n).map fun i => memByte m (k + i)) = memRead m k n := by
  induction n generalizing k with
  | zero => rfl
  | succ n ih =>
    rw [List.range_succ_eq_map, List.map_cons, List.map_map, leNat, memRead, ← ih (k + 1)]
    congr 4
    funext i
    exact congrArg (memByte m) (by simp only [Nat.succ_eq_add_one]; omega)

theorem leNat_zeros (n : Nat) : leNat ((List.range n).map fun _ => (0 : Byte)) = 0 := by
  induction n with
  | zero => rfl
  | succ n ih =>
    rw [List.range_succ_eq_map, List.map_cons, List.map_map, leNat]
    exact congrArg (fun x => 0 + 256 * x) ih

theorem windowWord_slice {i c r n : Nat} (hc : (partition s fn)[i / 4]? = some c) (hr : r + n ≤ 0x60000000) :
    windowWord s fn (i * 0x60000000 + r) n = wd (memRead s.mem ((c * 4 + i % 4) * 0x80000000 + r) n) := by
  rw [windowWord, ← leNat_bytes]
  refine congrArg (fun l => wd (leNat l)) (List.map_congr_left fun j hj => ?_)
  have inside : r + j < 0x60000000 := by have := List.mem_range.mp hj; omega
  simp only [Nat.add_assoc, windowKey_slice hc inside]

theorem windowWord_beyond {off n : Nat} (h : (partition s fn).length * 4 ≤ off / 0x60000000) : windowWord s fn off n = 0 := by
  have zeros : windowWord s fn off n = wd (leNat ((List.range n).map fun _ => (0 : Byte))) := by
    refine congrArg (fun l => wd (leNat l)) (List.map_congr_left fun j _ => ?_)
    have far : (partition s fn).length * 4 ≤ (off + j) / 0x60000000 := h.trans (Nat.div_le_div_right (Nat.le_add_right _ _))
    simp only [windowKey_beyond far]
  rw [zeros, leNat_zeros]
  rfl

/-- The bytes of a write of the window, each at its key. -/
theorem windowCells {i c r n : Nat} (hc : (partition s fn)[i / 4]? = some c) (hr : r + n ≤ 0x60000000) :
    ((List.range n).filterMap fun j => (windowKey s fn (i * 0x60000000 + r + j)).map fun k => (k, BitVec.ofNat 8 (v.toNat >>> (8 * j)))) =
      (List.range n).map fun j => ((c * 4 + i % 4) * 0x80000000 + r + j, BitVec.ofNat 8 (v.toNat / 256 ^ j)) := by
  rw [← List.filterMap_eq_map]
  refine List.filterMap_congr fun j hj => ?_
  have inside : r + j < 0x60000000 := by have := List.mem_range.mp hj; omega
  have byte : v.toNat >>> (8 * j) = v.toNat / 256 ^ j := by rw [Nat.shiftRight_eq_div_pow, Nat.pow_mul]
  simp only [Nat.add_assoc, windowKey_slice hc inside, byte]
  rfl

theorem execHostWindowAccess_write (h : Up s fn) (boot : s.boot.done = true) {off n : Nat} (hn : n ≤ 8) : execHostWindowAccess fn off true n v s =
    .next (storeAtHome s ((List.range n).filterMap fun j => (windowKey s fn (off + j)).map fun k => (k, BitVec.ofNat 8 (v.toNat >>> (8 * j))))) := by
  unfold execHostWindowAccess
  simp only [hostUp_of_up h, boot, Nat.min_eq_left hn, Bool.and_self, Bool.not_true, Bool.false_eq_true, if_false, if_true]

theorem execHostWindowAccess_read (h : Up s fn) (boot : s.boot.done = true) {off n : Nat} (hn : n ≤ 8) : execHostWindowAccess fn off false n v s =
    .next { (match windowKey s fn off with | some k => markRead s k n | none => s) with hostData := windowWord s fn off n } := by
  have same : windowWord (match windowKey s fn off with | some k => markRead s k n | none => s) fn off n = windowWord s fn off n := by
    cases windowKey s fn off with
    | none => rfl
    | some k => exact windowWord_marksOnly (markRead_marksOnly s k n) fn off n
  unfold execHostWindowAccess
  simp only [hostUp_of_up h, boot, Nat.min_eq_left hn, Bool.and_self, Bool.not_true, Bool.false_eq_true, if_false, ← same] <;> rfl

theorem fwdOf_eq_none {t : Tid} (h : ∀ f ∈ (getCore s t.core).fwd, f.old ≠ t) : fwdOf s t = none := by
  rw [fwdOf, List.find?_eq_none]
  exact fun f hf => by simpa using h f hf

theorem callRingAndWindow : Claim.CallRingAndWindow := by
  unfold Claim.CallRingAndWindow
  intro s fn v up
  refine ⟨?_, fun halted => execSyscallReply_halted up halted, fun works => ?_, fun i c r n boot hc hr one hn => ?_, fun i r n boot beyond hr hn => ?_⟩
  · have outcomes := fun {o : Host.Outcome State Fault Refusal} {s' : State} (runs : o = .next (scDrain s' fn (getFn s' fn).held.length)) =>
      And.intro (fun quiet => runs.trans (congrArg Host.Outcome.next ((scDrain_outcomes s' fn).1 quiet)))
        fun t ws one base low high free => runs.trans (congrArg Host.Outcome.next ((scDrain_outcomes s' fn).2 t ws one base low high free))
    simp only [List.forall_mem_cons, List.not_mem_nil, false_imp_iff, implies_true, and_true]
    exact ⟨outcomes (execScringConfig_base up), outcomes (execScringConfig_log up), outcomes (execScheadWrite_up up)⟩
  · have reply := execSyscallReply_works (v := v) up works (wordTid_reply _).symm
    refine ⟨fun f moved new => ?_, fun stays => ?_⟩
    · refine reply.trans ?_
      rw [show fwdOf s _ = some f from moved]
      exact congrArg Host.Outcome.next (if_neg new)
    · rw [fwdOf_eq_none stays] at reply
      refine ⟨fun own alive waits empty call plain => ?_, fun other => reply.trans (congrArg Host.Outcome.next (sysAnswer_lost _ _ other))⟩
      have kept : getFn (modFn s fn (keepReply v)) fn = keepReply v (getFn s fn) := getFn_modFn_same _ _ _
      obtain ⟨taken, held⟩ := sysAnswer_parked (s := modFn s fn (keepReply v)) (fn := fn) (a0 := smGet 0 (getFn s fn).screply 2) (a1 := v) own alive waits empty call
        (by rw [kept]; exact plain)
      refine ⟨fun on runs => reply.trans (congrArg Host.Outcome.next (taken (by rw [kept]; exact on) runs)),
        fun halt => reply.trans (congrArg Host.Outcome.next (held (by rw [kept]; exact halt)))⟩
  · refine ⟨(execHostWindowAccess_write up boot hn).trans ?_, (execHostWindowAccess_read up boot hn).trans ?_⟩
    · rw [windowCells hc hr]
    · rw [windowKey_slice hc (by omega), windowWord_slice hc hr]
      rfl
  · have far : (partition s fn).length * 4 ≤ (i * 0x60000000 + r) / 0x60000000 := by omega
    refine (execHostWindowAccess_read up boot hn).trans ?_
    rw [windowKey_beyond far, windowWord_beyond far]

/-- Settles O43: the writes and reads of the registers, the notify queues, and the call ring and the window, each from the state in
which its function answers the host. -/
theorem hostRegisterResults : Obligations.HostRegisterResults :=
  ⟨registerWriteResults, hostReadResults, queueResults, callRingAndWindow⟩

end Sys2Proof.Proofs

end

section
/-!
PROOFS. How slots find work: their own continuations, the deque, the injection queue and roots (R83, R84, R88, R98).
-/

namespace Sys2Proof.Proofs

open Sys2Proof.Machine Sys2Proof.Laws Sys2Proof.Claim

variable {s : State} {core slot : Nat} {t : Tid}

/-! ### Partitions that neither record nor replay -/

/-- The partition of a core neither records nor replays. -/
def Plain (s : State) (core : Nat) : Prop := (getFn s (coreFn s core)).recMode = false ∧ (getFn s (coreFn s core)).replay = false

theorem Plain.congr {s' : State} (h : Plain s core) (fns : s'.fns = s.fns) (clusters : s'.clusters = s.clusters) : Plain s' core := by
  unfold Plain coreFn getFn getCl at *
  rw [fns, clusters]
  exact h

theorem unitFn_coreUnit (s : State) (core : Nat) : unitFn s (coreUnit core) = coreFn s core := by
  have cluster : unitCl (coreUnit core) = coreCl core := by
    simp only [unitCl, coreUnit, coreCl, coreIdx]
    omega
  rw [unitFn, cluster, coreFn]

theorem dequeGate_plain (h : Plain s core) (src : Nat) : dequeGate s core src = true := by
  obtain ⟨recMode, replay⟩ := h
  simp [dequeGate, traceRoom, traceRoomN, recMode, replayOk, unitFn_coreUnit, replay]

theorem dequeNote_plain (h : Plain s core) (src srcUnit : Nat) (urgent : Bool) : dequeNote s core src srcUnit urgent = s :=
  homeNote_untraced (by rw [unitFn_coreUnit]; exact h.1) (by rw [unitFn_coreUnit]; exact h.2) _ _ _ _ _

/-! ### The deque's newest block -/

theorem dequeLoad_onChip (h : (getCore s core).deque ≠ []) : dequeLoad s core = s := by
  unfold dequeLoad
  dsimp only
  rw [List.isEmpty_eq_false_iff.mpr h]

theorem markBlock_marksOnly (s : State) (b : OvfBlock) (e : Nat × Nat) : MarksOnly s (markBlock s b e) :=
  MarksOnly.foldl (fun s i => markRead_marksOnly s (b.key + 64 * e.1 + 8 * i) 8) _ s

/-- A block reloaded: its records in the deque, and the marks of the words that fail. -/
theorem dequeLoad_block {b : OvfBlock} {rest : List OvfBlock} (empty : (getCore s core).deque = []) (blocks : (getCore s core).blocks = b :: rest) :
    MarksOnly (setCore s core { getCore s core with deque := blockEnts s b, blocks := rest }) (dequeLoad s core) := by
  unfold dequeLoad
  dsimp only
  rw [empty, blocks]
  exact MarksOnly.foldl (fun s e => markBlock_marksOnly s b e) _ _

theorem dequeLoad_keeps (s : State) (core : Nat) : (dequeLoad s core).fns = s.fns ∧ (dequeLoad s core).clusters = s.clusters := by
  by_cases empty : (getCore s core).deque = []
  · cases blocks : (getCore s core).blocks with
    | nil =>
      unfold dequeLoad
      dsimp only
      rw [empty, blocks]
      exact ⟨rfl, rfl⟩
    | cons b rest => exact ⟨(dequeLoad_block empty blocks).fns, (dequeLoad_block empty blocks).clusters⟩
  · rw [dequeLoad_onChip empty]
    exact ⟨rfl, rfl⟩

/-- An owner pop takes the newest record of the loaded deque. -/
theorem takeFromDeque_pop {d : DqEnt} {rest : List DqEnt} (h : Plain s t.core) (last : (getCore (dequeLoad s t.core) t.core).deque = rest ++ [d]) :
    takeFromDeque s t = takeCont (modCore (dequeLoad s t.core) t.core fun c => { c with deque := rest }) t d.uid (.held d.ws) := by
  obtain ⟨fns, clusters⟩ := dequeLoad_keeps s t.core
  have popped : modCore (dequeLoad s t.core) t.core (fun c => { c with deque := c.deque.dropLast }) = modCore (dequeLoad s t.core) t.core fun c => { c with deque := rest } := by
    simp only [modCore, last, List.dropLast_concat]
  have plain : Plain (modCore (dequeLoad s t.core) t.core fun c => { c with deque := rest }) t.core := h.congr fns clusters
  unfold takeFromDeque
  simp only [dequeGate_plain h, last, List.getLast?_append, List.getLast?_singleton, Option.some_or, popped, dequeNote_plain plain, Bool.not_true, Bool.false_eq_true, if_false]

theorem takeFromInj_first {ok : Inj → Bool} {i : Inj} {j : Nat} {rest : List (Inj × Nat)} {s2 : State} (order : injOrder s (coreCl t.core) ok = (i, j) :: rest)
    (fits : takeInj (modCl s (coreCl t.core) fun k => { k with inj := injAfter k.inj j }) t i = some s2) : takeFromInj s t ok = some s2 := by
  unfold takeFromInj
  simp only [order, List.findSome?_cons, fits]

/-! ### The turn of an empty slot (R88) -/

theorem isCompute_iff : isCompute core = true ↔ core % 32 < 16 := decide_eq_true_iff

theorem execSlotTake_reserved {u : Nat} (small : slot < 64) (runs : coreRuns s core = true) (empty : (getSlot s { core := core, slot := slot }).uid = none)
    (resv : (getSlot s { core := core, slot := slot }).resv = some u) :
    execSlotTake core slot s = .next ((takeOwn s { core := core, slot := slot } u).getD s) := by
  have low : ¬ slot > 63 := by omega
  unfold execSlotTake
  simp [low, runs, empty, resv]

/-- An empty slot that nothing reserves: urgent work for slot 63 under urgent service, else the core's deque where it holds a
record, else the cluster's queue. -/
theorem execSlotTake_free (small : slot < 64) (runs : coreRuns s core = true) (empty : (getSlot s { core := core, slot := slot }).uid = none)
    (resv : (getSlot s { core := core, slot := slot }).resv = none) (fwd : ∀ f ∈ (getCore s core).fwd, f.old ≠ { core := core, slot := slot }) :
    execSlotTake core slot s = .next (
      if (getFn s (coreFn s core)).urgent && slot == 63 then (takeUrgent s { core := core, slot := slot }).getD s
      else if isCompute core && !((getCore s core).deque.isEmpty && (getCore s core).blocks.isEmpty) then (takeFromDeque s { core := core, slot := slot }).getD s
      else (takeFromInj s { core := core, slot := slot } fun i => injFor core i && !((getFn s (coreFn s core)).urgent && injUrgent i)).getD s) := by
  have low : ¬ slot > 63 := by omega
  have holds : fwdHolds s { core := core, slot := slot } = false := by
    simpa [fwdHolds] using fwd
  unfold execSlotTake
  simp only [low, runs, empty, resv, holds, decide_false, Bool.not_true, Option.isSome_none, Bool.or_self, Bool.false_eq_true, if_false]

/-! ### Slots opened for a continuation (R83) -/

/-- The first n registers of a window at 0. -/
def clearRegs (s : State) (core base n : Nat) : State :=
  (List.range n).foldl (fun s i => modCore s core fun c => { c with regs := smSet 0 c.regs (base + i) 0 }) s

theorem clearRegs_succ (s : State) (core base n : Nat) :
    clearRegs s core base (n + 1) = modCore (clearRegs s core base n) core fun c => { c with regs := smSet 0 c.regs (base + n) 0 } := by
  simp only [clearRegs, List.range_succ, List.foldl_append, List.foldl_cons, List.foldl_nil]

theorem getSlot_clearRegs (s : State) (core base n : Nat) (t : Tid) : getSlot (clearRegs s core base n) t = getSlot s t := by
  induction n with
  | zero => rfl
  | succ n ih => rw [clearRegs_succ, getSlot_modCore _ core (fun c => { c with regs := smSet 0 c.regs (base + n) 0 }) (fun _ => rfl), ih]

theorem clearRegs_mem (s : State) (core base n : Nat) : (clearRegs s core base n).mem = s.mem :=
  foldl_keeps State.mem (fun s i => modCore_mem s core fun c => { c with regs := smSet 0 c.regs (base + i) 0 }) _ s

theorem clearRegs_zero (s : State) (core base : Nat) {n r : Nat} (h : r < n) : smGet 0 (getCore (clearRegs s core base n) core).regs (base + r) = 0 := by
  induction n with
  | zero => cases h
  | succ n ih =>
    rw [clearRegs_succ, getCore_modCore_same]
    dsimp only
    rcases Nat.lt_succ_iff_lt_or_eq.mp h with h | rfl
    · exact (smGet_smSet_other _ _ _ (show base + r ≠ base + n by omega)).trans (ih h)
    · exact smGet_smSet_same (d := 0) _ (base + r) 0

/-- The slot that a continuation opens, before its window is cleared. -/
def openedSlot (s : State) (t : Tid) (uid base : Nat) (f : Slot → Slot) : Slot := f { emptySlot (getSlot s t) with uid := some uid, wbase := base }

theorem openSlot_eq (s : State) (t : Tid) (uid base : Nat) (f : Slot → Slot) :
    openSlot s t uid base f = clearRegs (setSlot s t (openedSlot s t uid base f)) t.core base (winW (openedSlot s t uid base f)) := rfl

theorem getSlot_openSlot (s : State) (t : Tid) (uid base : Nat) (f : Slot → Slot) : getSlot (openSlot s t uid base f) t = openedSlot s t uid base f := by
  rw [openSlot_eq, getSlot_clearRegs, getSlot_setSlot_same]

theorem openSlot_mem (s : State) (t : Tid) (uid base : Nat) (f : Slot → Slot) : (openSlot s t uid base f).mem = s.mem := by
  rw [openSlot_eq, clearRegs_mem]
  rfl

theorem regGet_openSlot {uid base r : Nat} {f : Slot → Slot} (hb : (openedSlot s t uid base f).wbase = base) (hr : r < winW (openedSlot s t uid base f)) :
    regGet (openSlot s t uid base f) t (openedSlot s t uid base f) r = 0 := by
  unfold regGet
  split
  · rfl
  · rw [openSlot_eq, hb]
    exact clearRegs_zero _ _ _ hr

/-! ### Roots (R83, R122, R123) -/

/-- A root's slot, before its registers. -/
def rootSlot (ctx : Nat) (steal : BitVec 2) (pc desc : Word) (prio : BitVec 2) (a : Nat) (csr : Csrs) (sl : Slot) : Slot :=
  { sl with
    pc := pc, ctx := ctx, steal := portSteal (bitAt desc 4) steal, prio := prio, restart := bitAt desc 5, ports := bitAt desc 4,
    wsize := portSize (bitAt desc 4) (BitVec.ofNat 4 (fld desc 3 0)), spb := wd a + 128, spl := wd a + wd (fld desc 31 16 * 1024), csr := csr }

/-- The three registers that a root is given. -/
def rootRegs (s : State) (t : Tid) (a : Nat) (arg : Word) (n : Nat) : State :=
  regSet (regSet (regSet s t (getSlot s t) 2 (wd a)) t (getSlot s t) 4 arg) t (getSlot s t) 5 (wd n)

theorem getSlot_rootRegs (s : State) (t : Tid) (a : Nat) (arg : Word) (n : Nat) : getSlot (rootRegs s t a arg n) t = getSlot s t := by
  simp only [rootRegs, getSlot_regSet]

theorem rootRegs_mem (s : State) (t : Tid) (a : Nat) (arg : Word) (n : Nat) : (rootRegs s t a arg n).mem = s.mem := by
  simp only [rootRegs, regSet_mem]

theorem regGet_rootRegs (s : State) (t : Tid) (a : Nat) (arg : Word) (n : Nat) :
    regGet (rootRegs s t a arg n) t (getSlot s t) 2 = wd a ∧ regGet (rootRegs s t a arg n) t (getSlot s t) 4 = arg ∧
      regGet (rootRegs s t a arg n) t (getSlot s t) 5 = wd n ∧
      ∀ r, r ≠ 2 → r ≠ 4 → r ≠ 5 → regGet (rootRegs s t a arg n) t (getSlot s t) r = regGet s t (getSlot s t) r := by
  unfold rootRegs
  refine ⟨?_, ?_, regGet_regSet_same _ _ _ _ (by decide), fun r h2 h4 h5 => ?_⟩
  · rw [regGet_regSet_other _ _ _ _ (by decide), regGet_regSet_other _ _ _ _ (by decide), regGet_regSet_same _ _ _ _ (by decide)]
  · rw [regGet_regSet_other _ _ _ _ (by decide), regGet_regSet_same _ _ _ _ (by decide)]
  · rw [regGet_regSet_other _ _ _ _ h5, regGet_regSet_other _ _ _ _ h4, regGet_regSet_other _ _ _ _ h2]

/-- A window of 128 registers with the ports attribute is one of 120. -/
theorem winW_portSize (ports : Bool) (n : BitVec 4) (sl : Slot) : winW { sl with wsize := portSize ports n, ports := ports } = winW { sl with wsize := n, ports := ports } := by
  cases ports with
  | false => rfl
  | true =>
    by_cases h : n = 15
    · subst h
      rfl
    · have keeps : portSize true n = n := if_neg (by simpa using h)
      rw [keeps]

theorem takeRoot_eq {e : EntryRef} {n ctx : Nat} {pc arg desc : Word} {prio : BitVec 2} {b a : Nat}
    (window : fitWindow (getCore s t.core) (winW { wsize := BitVec.ofNat 4 (fld desc 3 0), ports := bitAt desc 4 }) = some b)
    (spill : fitSpill (getCtx s ctx) (fld desc 31 16) = some a) :
    ∃ s1, takeRoot s t e n ctx pc arg desc prio = some (rootRegs (openSlot s1 t s.nextUid b (rootSlot ctx
        (BitVec.ofNat 2 (min (enSteal (entryWords s e)) (getCtx s ctx).steal.toNat)) pc desc prio a (entryCsrs (entryWords s e)))) t a arg n) ∧ s1.mem = s.mem := by
  have window' : fitWindow (getCore s t.core) (winW { wsize := portSize (bitAt desc 4) (BitVec.ofNat 4 (fld desc 3 0)), ports := bitAt desc 4 }) = some b :=
    (congrArg _ (winW_portSize (bitAt desc 4) (BitVec.ofNat 4 (fld desc 3 0)) {})).trans window
  unfold takeRoot
  simp only [window', spill]
  exact ⟨_, rfl, rfl⟩

theorem extract_eq_fld (w : Word) (lo n : Nat) (h : 0 < n) : w.extractLsb' lo n = BitVec.ofNat n (fld w (lo + n - 1) lo) := by
  have size : lo + n - 1 + 1 - lo = n := by omega
  apply BitVec.eq_of_toNat_eq
  rw [BitVec.extractLsb'_toNat, BitVec.toNat_ofNat, fld, size, Nat.mod_mod]

theorem portSize_eq (ports : Bool) (desc : Word) :
    portSize ports (BitVec.ofNat 4 (fld desc 3 0)) = if ports = true ∧ fld desc 3 0 = 15 then 14 else BitVec.ofNat 4 (fld desc 3 0) := by
  have small : fld desc 3 0 < 16 := Nat.mod_lt _ (by decide)
  have code : BitVec.ofNat 4 (fld desc 3 0) = 15 ↔ fld desc 3 0 = 15 := by
    rw [← BitVec.toNat_inj, BitVec.toNat_ofNat, Nat.mod_eq_of_lt small]
    rfl
  simp only [portSize, Bool.and_eq_true, beq_iff_eq, code]

theorem takeRoot_results (s : State) (t : Tid) (e : EntryRef) (n ctx : Nat) (pc arg desc : Word) (prio : BitVec 2) (b a : Nat)
    (window : fitWindow (getCore s t.core) (winW { wsize := BitVec.ofNat 4 (fld desc 3 0), ports := bitAt desc 4 }) = some b)
    (spill : fitSpill (getCtx s ctx) (fld desc 31 16) = some a) :
    ∃ t2, takeRoot s t e n ctx pc arg desc prio = some t2 ∧
      let x := getSlot t2 t
      let w := (entryWords s e).getD 4 0
      x.uid = some s.nextUid ∧ x.pc = pc ∧ x.ctx = ctx ∧ x.prio = prio ∧ x.wbase = b ∧ x.restart = desc.getLsbD 5 ∧ x.ports = desc.getLsbD 4 ∧
      x.wsize = (if desc.getLsbD 4 = true ∧ fld desc 3 0 = 15 then 14 else BitVec.ofNat 4 (fld desc 3 0)) ∧
      x.steal = (if desc.getLsbD 4 = true then 0 else BitVec.ofNat 2 (min (w.toNat % 4) (getCtx s ctx).steal.toNat)) ∧
      x.spb = BitVec.ofNat 64 a + 128 ∧ x.spl = BitVec.ofNat 64 a + BitVec.ofNat 64 (fld desc 31 16 * 1024) ∧
      x.csr = { sk0 := w.extractLsb' 16 12, sk1 := w.extractLsb' 28 12, sk2 := w.extractLsb' 40 12, sk3 := w.extractLsb' 52 12 } ∧
      regGet t2 t x 2 = BitVec.ofNat 64 a ∧ regGet t2 t x 4 = arg ∧ regGet t2 t x 5 = BitVec.ofNat 64 n ∧
      (∀ r, r < winW x → r ≠ 2 → r ≠ 4 → r ≠ 5 → regGet t2 t x r = 0) ∧ t2.mem = s.mem := by
  obtain ⟨s1, takes, mem⟩ := takeRoot_eq (e := e) (n := n) (pc := pc) (arg := arg) (prio := prio) window spill
  refine ⟨_, takes, ?_⟩
  generalize hf : rootSlot ctx (BitVec.ofNat 2 (min (enSteal (entryWords s e)) (getCtx s ctx).steal.toNat)) pc desc prio a (entryCsrs (entryWords s e)) = f
  have opened := getSlot_openSlot s1 t s.nextUid b f
  obtain ⟨g2, g4, g5, others⟩ := regGet_rootRegs (openSlot s1 t s.nextUid b f) t a arg n
  dsimp only
  rw [getSlot_rootRegs, rootRegs_mem, openSlot_mem]
  refine ⟨?_, ?_, ?_, ?_, ?_, ?_, ?_, ?_, ?_, ?_, ?_, ?_, g2, g4, g5, fun r hr h2 h4 h5 => ?_, mem⟩
  case refine_13 =>
    rw [others r h2 h4 h5, opened]
    rw [opened] at hr
    exact regGet_openSlot (by rw [← hf]; rfl) hr
  all_goals rw [opened, ← hf]
  case refine_8 => exact portSize_eq _ _
  case refine_12 =>
    simp only [extract_eq_fld _ _ 12 (by decide)]
    rfl
  all_goals rfl

/-! ### Continuations restored from their record (R84, R86) -/

/-- No partition records or replays. -/
def AllPlain (s : State) : Prop := ∀ f, (getFn s f).recMode = false ∧ (getFn s f).replay = false

theorem lineGateOf_plain (h : AllPlain s) (cls src : Nat) (ks : List Nat) : lineGateOf s cls src ks = true := by
  refine List.all_eq_true.mpr fun k _ => ?_
  split
  · simp [traceRoomN, replayOk, (h _).1, (h _).2]
  · rfl

theorem lineNotesOf_plain (h : AllPlain s) (cls src srcUnit : Nat) (ks : List Nat) (urgent : Bool) : lineNotesOf s cls src srcUnit ks urgent = s := by
  refine foldl_stays fun k _ => ?_
  split
  · exact homeNote_untraced (h _).1 (h _).2 _ _ _ _ _
  · rfl

theorem tlbFill_fns (s : State) (core ctx : Nat) (va : Word) (n : Nat) : (tlbFill s core ctx va n).fns = s.fns := by
  refine foldl_keeps State.fns (fun s i => ?_) _ s
  dsimp only
  split
  · rfl
  · split <;> rfl

theorem slotReads_plain (h : AllPlain s) (t : Tid) (uid : Nat) (va : Word) (n : Nat) :
    slotReads s t uid va n = some (tlbFill s t.core (getCont s uid).ctx va n) := by
  have plain : AllPlain (tlbFill s t.core (getCont s uid).ctx va n) := fun f => by
    rw [getFn_congr (tlbFill_fns s t.core _ va n)]
    exact h f
  unfold slotReads
  simp only [lineGateOf_plain plain, lineNotesOf_plain plain, if_true]

theorem takeCont_held {u base : Nat} {ws : List Word} (away : ∀ x ∈ (getCore s (getCont s u).core).slots, x.2.uid ≠ some u) (ok : recOk (getCont s u).ctx ws = true)
    (window : fitWindow (getCore s t.core) (recW ws) = some base) : takeCont s t u (.held ws) = takeAt s t u base ws := by
  have free : ((getCore s (getCont s u).core).slots.any fun x => x.2.uid == some u) = false := by
    rw [List.any_eq_false]
    simpa using away
  unfold takeCont
  simp only [free, recordReads, Option.bind_some, recordAt, ok, window, Bool.not_true, Bool.false_eq_true, if_false]

theorem takeAt_restored {u base : Nat} {ws b : List Word} (carry : (getCont s u).carry = []) (fresh : (getCont s u).fresh = false)
    (carries : ∀ k ∈ (getCl s (coreCl t.core)).carries, k.uid ≠ u) (plain : AllPlain s)
    (burst : loadWords (tlbFill s t.core (getCont s u).ctx (wAt ws 4 - wd (recBurst ws)) (recBurst ws / 8)) (some t.core) (getCont s u).ctx
      (wAt ws 4 - wd (recBurst ws)) (recBurst ws / 8) = .ok b) :
    takeAt s t u base ws = some (intoSlot (tlbFill s t.core (getCont s u).ctx (wAt ws 4 - wd (recBurst ws)) (recBurst ws / 8)) t u base ws (some b)
      (wAt ws 4 - wd (recBurst ws)) (wAt ws 5)) := by
  have absent : (getCl s (coreCl t.core)).carries.find? (fun c => c.uid == u) = none := by
    rw [List.find?_eq_none]
    exact fun k hk => by simpa using carries k hk
  unfold takeAt
  simp only [carry, carryTo, absent, fresh, slotReads_plain plain, Option.map_some, burst, Bool.false_eq_true, if_false]

/-- How a slot takes work. -/
theorem slotTakeResults : Claim.SlotTakeResults := by
  unfold Claim.SlotTakeResults
  intro s core slot
  dsimp only
  refine ⟨fun small runs empty => ⟨fun u t2 resv takes => ?_, fun resv fwd => ?_⟩, fun b rest empty blocks => ?_, ?_, ?_⟩
  · exact (execSlotTake_reserved small runs empty resv).trans (by rw [takes]; rfl)
  · have turn := execSlotTake_free small runs empty resv fwd
    refine ⟨fun t2 urgent last takes => ?_, fun ordinary => ?_⟩
    · subst last
      refine turn.trans ?_
      rw [urgent, takes]
      rfl
    · have other : ¬ ((getFn s (coreFn s core)).urgent && slot == 63) = true := by
        rw [Bool.and_eq_true, beq_iff_eq]
        rintro ⟨on, last⟩
        rcases ordinary with off | ne
        · exact Bool.false_ne_true (off.symm.trans on)
        · exact ne last
      rw [if_neg other] at turn
      have pops : ∀ {d rest t2}, core % 32 < 16 → ¬ ((getCore s core).deque = [] ∧ (getCore s core).blocks = []) →
          Plain s core → (getCore (dequeLoad s core) core).deque = rest ++ [d] →
          takeCont (modCore (dequeLoad s core) core fun c => { c with deque := rest }) { core := core, slot := slot } d.uid (.held d.ws) = some t2 →
          exec (.slotTake core slot) s = .next t2 := fun compute work plain last takes => by
        refine turn.trans ?_
        rw [if_pos (by simpa [isCompute_iff, compute] using not_and_or.mp work), takeFromDeque_pop (t := { core := core, slot := slot }) plain last]
        exact congrArg (fun o => Host.Outcome.next (Option.getD o s)) takes
      refine ⟨fun d rest t2 compute deque plain takes => ?_, fun d rest t2 compute deque blocks last plain takes => ?_, fun i j rest t2 idle order fits => ?_⟩
      · have loaded : dequeLoad s core = s := dequeLoad_onChip (by rw [deque]; simp)
        exact pops compute (by simp [deque]) plain (by rw [loaded]; exact deque) (by rw [loaded]; exact takes)
      · exact pops compute (by simp [blocks]) plain last takes
      · refine turn.trans ?_
        rw [if_neg, takeFromInj_first (t := { core := core, slot := slot }) order fits]
        · rfl
        · rcases idle with service | ⟨deque, blocks⟩
          · simp [isCompute, coreIdx, Nat.not_lt.mpr service]
          · simp [deque, blocks]
  · have cores := congrArg (fun m => smGet ({} : Core) m core) (dequeLoad_block empty blocks).cores
    have loaded : getCore (dequeLoad s core) core = { getCore s core with deque := blockEnts s b, blocks := rest } := cores.trans (smGet_smSet_same _ _ _ _)
    rw [loaded]
    exact ⟨rfl, rfl⟩
  · exact fun e n ctx pc arg desc prio b a => takeRoot_results s { core := core, slot := slot } e n ctx pc arg desc prio b a
  · exact fun u ws b base away ok window carry fresh carries burst plain => (takeCont_held away ok window).trans (takeAt_restored carry fresh carries plain burst)

end Sys2Proof.Proofs

end

section
/-!
PROOFS. Steals, the injection queue and urgent work (R88, R90, R91, R98, R99, R101, R198).
-/

namespace Sys2Proof.Proofs

open Sys2Proof.Machine Sys2Proof.Laws Sys2Proof.Claim

variable {s s1 : State} {core : Nat} {p : Packet}

theorem TrafficOnly.fns {s t : State} (h : TrafficOnly s t) : t.fns = s.fns := (congrArg State.fns h).trans rfl
theorem TrafficOnly.conts {s t : State} (h : TrafficOnly s t) : t.conts = s.conts := (congrArg State.conts h).trans rfl

/-! ### What a store at a home leaves alone -/

/-- Nothing but memory, its marks, the homes and the packets differs. -/
def MemoryOnly (s t : State) : Prop :=
  t = { s with homes := t.homes, bad := t.bad, marks := t.marks, mem := t.mem, queues := t.queues, sent := t.sent }

namespace MemoryOnly

variable {t u : State}

theorem refl (s : State) : MemoryOnly s s := rfl

theorem trans (h : MemoryOnly s t) (h' : MemoryOnly t u) : MemoryOnly s u := by
  unfold MemoryOnly at *
  rw [h', h]

theorem foldl {β : Type} {f : State → β → State} (h : ∀ s b, MemoryOnly s (f s b)) (l : List β) (s : State) :
    MemoryOnly s (l.foldl f s) := by
  induction l generalizing s with
  | nil => exact refl s
  | cons b r ih => exact (h s b).trans (ih _)

theorem fns (h : MemoryOnly s t) : t.fns = s.fns := (congrArg State.fns h).trans rfl
theorem clusters (h : MemoryOnly s t) : t.clusters = s.clusters := (congrArg State.clusters h).trans rfl

end MemoryOnly

theorem TrafficOnly.memoryOnly {s t : State} (h : TrafficOnly s t) : MemoryOnly s t := by
  unfold TrafficOnly at h
  rw [h]
  rfl

theorem rawStore_memoryOnly (s : State) (k n v : Nat) : MemoryOnly s (rawStore s k n v) := by
  have marks := markStore_marksOnly s k n
  unfold MarksOnly at marks
  unfold rawStore
  rw [marks]
  rfl

theorem sendEnqueue_memoryOnly (s : State) (unit uid : Nat) (src : RecSrc) : MemoryOnly s (sendEnqueue s unit uid src) := by
  unfold sendEnqueue
  dsimp only
  split
  · exact (send_trafficOnly _ _ _ _ _ _).memoryOnly
  · rfl

theorem modHome_memoryOnly (s : State) (u : Nat) (f : HomeSt → HomeSt) : MemoryOnly s (modHome s u f) := rfl

theorem homeWrite_memoryOnly (s : State) (k n v : Nat) : MemoryOnly s (homeWrite s k n v) := by
  refine (rawStore_memoryOnly s k n v).trans ?_
  show MemoryOnly (rawStore s k n v) (releaseParks (rawStore s k n v) k n)
  unfold releaseParks
  split
  · rfl
  · refine MemoryOnly.foldl (fun t p => ?_) _ _
    split
    · split
      · exact (modHome_memoryOnly t _ _).trans (sendEnqueue_memoryOnly _ _ _ _)
      · rfl
    · rfl

theorem storeAtHome_memoryOnly (s : State) (cells : List Host.Cell) : MemoryOnly s (storeAtHome s cells) :=
  MemoryOnly.foldl (fun s (r : Nat × List Byte) => homeWrite_memoryOnly s r.1 r.2.length (leNat r.2)) (cellRuns cells) s

/-- A push changes its core's deque, and the memory of a block that overflows. -/
theorem dequePush_keeps (s : State) (core : Nat) (urg : Bool) (d : DqEnt) : (dequePush s core urg d).fns = s.fns ∧ (dequePush s core urg d).clusters = s.clusters := by
  unfold dequePush
  dsimp only
  split
  · exact ⟨rfl, rfl⟩
  · split
    · exact ⟨rfl, rfl⟩
    · exact ⟨(storeAtHome_memoryOnly _ _).fns, (storeAtHome_memoryOnly _ _).clusters⟩

/-! ### A core without work asks its victims (R91, R99) -/

theorem askWork_next {v : Nat} (few : (getCore s core).asked.length + (getCore s core).askedU.length < 4)
    (next : (victims s core)[(getCore s core).stealLvl]? = some v) (new : v ∉ (getCore s core).asked) : askWork s core =
      send (modCore s core fun c => { c with asked := c.asked ++ [v], stealLvl := c.stealLvl + 1 }) 8 0x200 (coreUnit core) (coreUnit v) (.steal core) := by
  unfold askWork
  simp [Nat.not_le.mpr few, next, new]

theorem askWork_wraps (few : (getCore s core).asked.length + (getCore s core).askedU.length < 4) (last : (victims s core).length ≤ (getCore s core).stealLvl) :
    askWork s core = modCore s core fun c => { c with stealLvl := 0 } := by
  unfold askWork
  simp [Nat.not_le.mpr few, List.getElem?_eq_none last]

theorem askUrgent_next {v : Nat} (few : (getCore s core).asked.length + (getCore s core).askedU.length < 4)
    (next : (victims s core)[(getCore s core).lvlU]? = some v) (new : v ∉ (getCore s core).askedU) : askUrgent s core =
      send (modCore s core fun c => { c with askedU := c.askedU ++ [v], lvlU := c.lvlU + 1 }) 8 0x200 (coreUnit core) (coreUnit v) (.stealU core) := by
  unfold askUrgent
  simp [Nat.not_le.mpr few, next, new]

theorem askUrgent_wraps (few : (getCore s core).asked.length + (getCore s core).askedU.length < 4) (last : (victims s core).length ≤ (getCore s core).lvlU) :
    askUrgent s core = modCore s core fun c => { c with lvlU := 0 } := by
  unfold askUrgent
  simp [Nat.not_le.mpr few, List.getElem?_eq_none last]

/-- A running compute core searches for the work that it wants. -/
theorem execStealSearch_eq {w x : Bool} (runs : coreRuns s core = true) (compute : core % 32 < 16) (work : wantsWork s core = w) (urgent : wantsUrgent s core = x) :
    execStealSearch core s = .next (if x then askUrgent (if w then askWork s core else s) core else if w then askWork s core else s) := by
  have compute : isCompute core = true := isCompute_iff.mpr compute
  unfold execStealSearch
  simp only [runs, compute, work, urgent, Bool.not_true, Bool.or_self, Bool.false_eq_true, if_false]

/-! ### Victims and thieves (R90, R91) -/

theorem takeOldest_setQ {u net : Nat} {ok : Packet → Bool} (h : takeOldest s u net ok = some (p, s1)) : ∃ l, s1 = setQ s (qk 4 u 0 net) l := by
  unfold takeOldest at h
  dsimp only at h
  split at h
  · cases h
  · split at h
    · cases h
    · exact ⟨_, (congrArg Prod.snd (Option.some.inj h)).symm⟩

/-- What a deque's far end gives a thief. -/
theorem filter_admits {o : Option DqEnt} {d : DqEnt} {thief : Nat} (far : o = some d) (admits : stealAdmits d.ws core thief = true) :
    o.filter (fun d => stealAdmits d.ws core thief) = some d := by
  rw [far]
  exact Option.filter_some_pos admits

theorem filter_refuses {o : Option DqEnt} {thief : Nat} (far : o = none ∨ ∃ d, o = some d ∧ stealAdmits d.ws core thief = false) :
    o.filter (fun d => stealAdmits d.ws core thief) = none := by
  rcases far with rfl | ⟨d, rfl, refuses⟩
  · rfl
  · exact Option.filter_some_neg (by simp [refuses])

theorem execStealRequest_steal {thief : Nat} {e : Option DqEnt} (plain : Plain s core) (h : takeOldest s (coreUnit core) 0 (stealReady s core) = some (p, s1))
    (body : p.body = .steal thief) (far : (dequeFar s1 core).filter (fun d => stealAdmits d.ws core thief) = e) :
    execStealRequest core s = .next (send (if e.isSome then modCore s1 core dequeDropFar else s1) 8 0x200 (coreUnit core) p.src (.stolen e)) := by
  obtain ⟨l, rfl⟩ := takeOldest_setQ h
  have plain : Plain (setQ s (qk 4 (coreUnit core) 0 0) l) core := plain
  unfold execStealRequest
  simp only [h, body, dequeNote_plain plain, far]

theorem execStealRequest_stealU {thief : Nat} {e : Option DqEnt} (plain : Plain s core) (h : takeOldest s (coreUnit core) 0 (stealReady s core) = some (p, s1))
    (body : p.body = .stealU thief) (far : (getCore s core).udeque.head?.filter (fun d => stealAdmits d.ws core thief) = e) :
    execStealRequest core s = .next (send (if e.isSome then modCore s1 core fun c => { c with udeque := c.udeque.drop 1 } else s1) 8 0x200 (coreUnit core) p.src
      (.stolenU e)) := by
  obtain ⟨l, rfl⟩ := takeOldest_setQ h
  have plain : Plain (setQ s (qk 4 (coreUnit core) 0 0) l) core := plain
  have far : (getCore (setQ s (qk 4 (coreUnit core) 0 0) l) core).udeque.head?.filter (fun d => stealAdmits d.ws core thief) = e := far
  unfold execStealRequest
  simp only [h, body, dequeNote_plain plain, far]

theorem execStealReply_stolen {d : DqEnt} (plain : Plain s core) (h : takeArrived s (coreUnit core) 0 (stolenReady s core) = some (p, s1))
    (body : p.body = .stolen (some d)) (alive : (getCont s1 d.uid).alive = true) : execStealReply core s =
      .next (dequePush (modCore (modCore s1 core fun c => { c with asked := c.asked.erase (unitCore p.src) }) core fun c => { c with stealLvl := 0 }) core false d) := by
  obtain ⟨l, rfl⟩ := takeArrived_setQ h
  generalize hs : modCore (setQ s (qk 4 (coreUnit core) 0 0) l) core (fun c => { c with asked := c.asked.erase (unitCore p.src) }) = s2
  have alive : (getCont s2 d.uid).alive = true := by rw [← hs]; exact alive
  have plain : Plain (modCore s2 core fun c => { c with stealLvl := 0 }) core := by rw [← hs]; exact plain
  obtain ⟨fns, clusters⟩ := dequePush_keeps (modCore s2 core fun c => { c with stealLvl := 0 }) core false d
  unfold execStealReply
  simp only [h, body, hs, alive, dequeNote_plain (plain.congr fns clusters), if_true]

theorem execStealReply_stolenU {d : DqEnt} (plain : Plain s core) (h : takeArrived s (coreUnit core) 0 (stolenReady s core) = some (p, s1))
    (body : p.body = .stolenU (some d)) (alive : (getCont s1 d.uid).alive = true) : execStealReply core s =
      .next (dequePush (modCore (modCore s1 core fun c => { c with askedU := c.askedU.erase (unitCore p.src) }) core fun c => { c with lvlU := 0 }) core
        (getFn s (coreFn s core)).urgent d) := by
  obtain ⟨l, rfl⟩ := takeArrived_setQ h
  generalize hs : modCore (setQ s (qk 4 (coreUnit core) 0 0) l) core (fun c => { c with askedU := c.askedU.erase (unitCore p.src) }) = s2
  have alive : (getCont s2 d.uid).alive = true := by rw [← hs]; exact alive
  have plain : Plain (modCore s2 core fun c => { c with lvlU := 0 }) core := by rw [← hs]; exact plain
  have service : (getFn s2 (coreFn s2 core)).urgent = (getFn s (coreFn s core)).urgent := by rw [← hs]; rfl
  obtain ⟨fns, clusters⟩ := dequePush_keeps (modCore s2 core fun c => { c with lvlU := 0 }) core (getFn s (coreFn s core)).urgent d
  unfold execStealReply
  simp only [h, body, hs, alive, service, dequeNote_plain (plain.congr fns clusters), if_true]

theorem execStealReply_empty (h : takeArrived s (coreUnit core) 0 (stolenReady s core) = some (p, s1)) :
    (p.body = .stolen none → execStealReply core s = .next (modCore s1 core fun c => { c with asked := c.asked.erase (unitCore p.src) })) ∧
    (p.body = .stolenU none → execStealReply core s = .next (modCore s1 core fun c => { c with askedU := c.askedU.erase (unitCore p.src) })) := by
  unfold execStealReply
  constructor
  · intro body
    simp only [h, body]
  · intro body
    simp only [h, body]

/-! ### The injection queue (R88) -/

theorem execInjectionAge_at {cl i : Nat} {x : Inj} (runs : dieRuns s (clDie cl) = true) (hx : (getCl s cl).inj[i]? = some x) : execInjectionAge cl i s =
    .next (modCl s cl fun c => { c with inj := c.inj.set i { x with aged := x.aged || decide (500000 < s.tick.toNat - x.since) } }) := by
  have aged : modCl s cl (fun c => { c with inj := modAt c.inj i fun y => { y with aged := isAged (tickN s) y } }) =
      modCl s cl fun c => { c with inj := c.inj.set i { x with aged := isAged (tickN s) x } } := by
    simp only [modCl, modAt_eq_set hx]
  unfold execInjectionAge
  simp only [runs, aged, Bool.not_true, Bool.false_eq_true, if_false]
  rfl

/-- Whether a packet brings a continuation that has become ready. -/
def isEnqueue (p : Packet) : Bool := match p.body with | .enqueue _ _ _ => true | _ => false

/-- What becomes of such a packet: its continuation enters the queue, or waits for its own slot. -/
def enqueued (cl : Nat) (p : Packet) (s : State) : State :=
  match p.body with
  | .enqueue uid _ src =>
    if !(getCont s uid).alive then s
    else if (getCont s uid).pinned.isSome then modCl s cl fun c => { c with enq := c.enq ++ [{ injOf s uid src with since := tickN s }] }
    else injPush s cl (injOf s uid src)
  | _ => s

theorem execEnqueueContinuation_eq (cl : Nat) (s : State) :
    execEnqueueContinuation cl s = .next (onArrival s (coreUnit (svcCore cl)) 0 isEnqueue (enqueued cl)) := rfl

theorem execEnqueueContinuation_alive {cl uid ctx : Nat} {src : RecSrc} (h : takeArrived s (coreUnit (svcCore cl)) 0 isEnqueue = some (p, s1))
    (body : p.body = .enqueue uid ctx src) (alive : (getCont s1 uid).alive = true) : execEnqueueContinuation cl s =
      .next (if (getCont s1 uid).pinned.isSome then modCl s1 cl fun c => { c with enq := c.enq ++ [{ injOf s1 uid src with since := tickN s1 }] }
        else injPush s1 cl (injOf s1 uid src)) := by
  rw [execEnqueueContinuation_eq, onArrival_taken h]
  simp only [enqueued, body, alive, Bool.not_true, Bool.false_eq_true, if_false]

/-! ### Urgent work (R98, R99, R101, R198) -/

/-- Whether a packet brings urgent work. -/
def isUrgent (p : Packet) : Bool := match p.body with | .urgent _ _ => true | _ => false

/-- What becomes of it under urgent service, and once that has ended. -/
def urgentArrived (core : Nat) (p : Packet) (s : State) : State :=
  match p.body with
  | .urgent uid src =>
    if !(getCont s uid).alive then s
    else if (getFn s (coreFn s core)).urgent then urgentAt s core { injOf s uid src with urgent := true, since := tickN s }
    else injPush s (coreCl core) { injOf s uid src with prio := 3 }
  | _ => s

/-- What a core does while no urgent work comes: firmware posts a record to it, or the next urgent entry of its cluster's queue does. -/
def urgentIdle (core : Nat) (post : List (BitVec 64)) (s : State) : State :=
  if core = svcCore (coreCl core) then (match postCtx s core post with
    | some c => startFirmware s core c post
    | none => s)
  else if !(getFn s (coreFn s core)).urgent || !isCompute core then s
  else if !post.isEmpty then (match postCtx s core post with
    | some c => postHandler s core c post
    | none => s)
  else if (getCore s core).uinbox.length ≥ 4 then s
  else match urgentNext s core with
    | none => s
    | some (i, j) =>
      let s := modCl s (coreCl core) fun c => { c with inj := injAfter c.inj j }
      let one := match i.kind with
        | .roots e n st _ pc arg d => { i with kind := InjKind.roots e n st 1 pc arg d }
        | .cont _ _ => i
      urgentAt s core one

variable {post : List (BitVec 64)} {c : Nat}

theorem execUrgentArrival_eq (core : Nat) (post : List (BitVec 64)) (s : State) : execUrgentArrival (core, post) s =
    .next (if !coreRuns s core then s else match takeArrived s (coreUnit core) 0 isUrgent with
      | some (p, s) => urgentArrived core p s
      | none => urgentIdle core post s) := rfl

theorem execUrgentArrival_taken (runs : coreRuns s core = true) (h : takeArrived s (coreUnit core) 0 isUrgent = some (p, s1)) :
    execUrgentArrival (core, post) s = .next (urgentArrived core p s1) := by
  rw [execUrgentArrival_eq, runs, h]
  rfl

theorem execUrgentArrival_idle (runs : coreRuns s core = true) (h : takeArrived s (coreUnit core) 0 isUrgent = none) :
    execUrgentArrival (core, post) s = .next (urgentIdle core post s) := by
  rw [execUrgentArrival_eq, runs, h]
  rfl

theorem urgentIdle_handler (service : (getFn s (coreFn s core)).urgent = true) (compute : core % 32 < 16) (record : postCtx s core post = some c) (nonempty : post ≠ []) :
    urgentIdle core post s = postHandler s core c post := by
  have other : ¬ core = svcCore (coreCl core) := by
    simp only [svcCore, coreCl]
    omega
  have given : post.isEmpty = false := List.isEmpty_eq_false_iff.mpr nonempty
  unfold urgentIdle
  simp only [other, service, isCompute_iff.mpr compute, given, record, Bool.not_true, Bool.not_false, Bool.or_self, Bool.false_eq_true, if_false, if_true]

theorem urgentIdle_firmware (own : core = svcCore (coreCl core)) (record : postCtx s core post = some c) : urgentIdle core post s = startFirmware s core c post := by
  unfold urgentIdle
  rw [if_pos own, record]

/-- The continuation that firmware makes of a record that it posts. -/
def firmwareCont (core ctx : Nat) (ws : List Word) : Cont := { ctx := ctx, wsize := recSize ws, core := core, priv := true, fresh := true }

theorem getCont_freshUid (s : State) (k : Cont) : getCont (freshUid s k).1 s.nextUid = k := by
  unfold freshUid
  exact getCont_modCont_same { s with nextUid := s.nextUid + 1 } s.nextUid fun _ => k

theorem getCont_postHandler (s : State) (core ctx : Nat) (ws : List Word) : getCont (postHandler s core ctx ws) s.nextUid = firmwareCont core ctx ws := by
  have conts := (send_trafficOnly (freshUid s (firmwareCont core ctx ws)).1 11 (hskOf (freshUid s (firmwareCont core ctx ws)).1 (coreUnit (svcCore (coreCl core))))
    (coreUnit (svcCore (coreCl core))) (coreUnit core) (.urgent s.nextUid (.held ws))).conts
  exact (congrArg (fun m => smGet ({ alive := false } : Cont) m s.nextUid) conts).trans (getCont_freshUid s (firmwareCont core ctx ws))

theorem getCont_startFirmware (s : State) (core ctx : Nat) (ws : List Word) : getCont (startFirmware s core ctx ws) s.nextUid = firmwareCont core ctx ws :=
  getCont_freshUid s (firmwareCont core ctx ws)

theorem inj_startFirmware (s : State) (core ctx : Nat) (ws : List Word) : (getCl (startFirmware s core ctx ws) (coreCl core)).inj = (getCl s (coreCl core)).inj ++
    [{ kind := .cont s.nextUid (.held ws), ctx := ctx, tag := some core, prio := recPrio ws, since := s.tick.toNat }] := by
  unfold startFirmware injPush
  rw [getCl_modCl_same]
  rfl

theorem urgentArrived_alive {uid : Nat} {src : RecSrc} (body : p.body = .urgent uid src) (alive : (getCont s uid).alive = true) :
    urgentArrived core p s = if (getFn s (coreFn s core)).urgent then urgentAt s core { injOf s uid src with urgent := true, since := tickN s }
      else injPush s (coreCl core) { injOf s uid src with prio := 3 } := by
  unfold urgentArrived
  simp only [body, alive, Bool.not_true, Bool.false_eq_true, if_false]

/-- Where urgent work waits while slot 63 cannot take it. -/
def urgentWaits (s : State) (core : Nat) (i : Inj) : State :=
  if (getCore s core).uinbox.length < 4 then modCore s core fun c => { c with uinbox := c.uinbox ++ [i] } else injPush s (coreCl core) { i with prio := 3, urgent := true }

theorem urgentAt_busy {i : Inj} (busy : ¬ (slotFree s { core := core, slot := 63 } = true ∧ (getCore s core).udeque = [] ∧ (getCore s core).uinbox = [])) :
    urgentAt s core i = urgentWaits s core i := by
  unfold urgentAt
  refine if_neg fun free => busy ?_
  simpa [and_assoc] using free

theorem modSlot_congr {t : Tid} {f g : Slot → Slot} (h : f (getSlot s t) = g (getSlot s t)) : modSlot s t f = modSlot s t g := congrArg (setSlot s t) h

theorem urgentAt_taken {i : Inj} {s2 : State} (free : slotFree s { core := core, slot := 63 } = true ∧ (getCore s core).udeque = [] ∧ (getCore s core).uinbox = [])
    (takes : takeInj s { core := core, slot := 63 } i = some s2) (filled : (getSlot s2 { core := core, slot := 63 }).uid.isSome = true) :
    urgentAt s core i = modSlot s2 { core := core, slot := 63 } fun sl => { sl with urgent := true } := by
  obtain ⟨slot, deque, inbox⟩ := free
  have able : (slotFree s { core := core, slot := 63 } && (getCore s core).udeque.isEmpty && (getCore s core).uinbox.isEmpty) = true := by simp [slot, deque, inbox]
  unfold urgentAt
  simp only [able, takes, if_true]
  exact modSlot_congr (if_pos filled)

theorem stealAndQueueResults : Claim.StealAndQueueResults := by
  unfold Claim.StealAndQueueResults
  intro s core
  dsimp only
  refine ⟨?_, ?_, ?_, ?_, ?_, ?_, ?_, ?_, ?_, ?_, ?_, ?_, ?_, ?_, ?_⟩
  · rintro v ⟨runs, compute, work, urgent, few⟩ next new
    refine (execStealSearch_eq runs compute work urgent).trans ?_
    rw [if_neg Bool.false_ne_true, if_pos rfl, askWork_next few next new]
  · rintro ⟨runs, compute, work, urgent, few⟩ last
    refine (execStealSearch_eq runs compute work urgent).trans ?_
    rw [if_neg Bool.false_ne_true, if_pos rfl, askWork_wraps few last]
  · rintro v ⟨runs, compute, work, urgent, few⟩ next new
    refine (execStealSearch_eq runs compute work urgent).trans ?_
    rw [if_pos rfl, if_neg Bool.false_ne_true, askUrgent_next few next new]
  · rintro ⟨runs, compute, work, urgent, few⟩ last
    refine (execStealSearch_eq runs compute work urgent).trans ?_
    rw [if_pos rfl, if_neg Bool.false_ne_true, askUrgent_wraps few last]
  · rintro ⟨runs, compute, work, urgent, few⟩
    refine (execStealSearch_eq runs compute work urgent).trans ?_
    rw [if_pos rfl, if_pos rfl]
  · intro p s1 thief plain taken body
    exact ⟨fun d far admits => execStealRequest_stealU plain taken body (filter_admits far admits), fun refuses =>
      execStealRequest_stealU plain taken body (filter_refuses (by simpa using refuses))⟩
  · intro p s1 plain taken
    exact ⟨fun d body alive => execStealReply_stolenU plain taken body alive, (execStealReply_empty taken).2⟩
  · intro p s1 thief plain taken body
    exact ⟨fun d far admits => execStealRequest_steal plain taken body (filter_admits far admits), fun refuses =>
      execStealRequest_steal plain taken body (filter_refuses refuses)⟩
  · intro p s1 plain taken
    exact ⟨fun d body alive => execStealReply_stolen plain taken body alive, (execStealReply_empty taken).1⟩
  · intro cl p s1 uid ctx src taken body alive
    have enters := execEnqueueContinuation_alive taken body alive
    refine ⟨fun free => enters.trans ?_, fun pinned => enters.trans ?_⟩
    · rw [free]
      rfl
    · rw [Option.isSome_iff_ne_none.mpr pinned]
      rfl
  · exact fun cl i x runs hx => execInjectionAge_at runs hx
  · intro post c runs service compute idle record nonempty
    refine ⟨(execUrgentArrival_idle runs idle).trans (congrArg Host.Outcome.next (urgentIdle_handler service compute record nonempty)), ?_⟩
    rw [getCont_postHandler]
    rfl
  · intro post c runs own idle record
    refine ⟨(execUrgentArrival_idle runs idle).trans (congrArg Host.Outcome.next (urgentIdle_firmware own record)), ?_, inj_startFirmware s core c post⟩
    rw [getCont_startFirmware]
    rfl
  · intro post p s1 uid src runs service taken body alive
    have arrives := execUrgentArrival_taken (post := post) runs taken
    obtain ⟨l, rfl⟩ := takeArrived_setQ taken
    refine arrives.trans (congrArg Host.Outcome.next ((urgentArrived_alive body alive).trans (if_neg ?_)))
    exact fun on => Bool.false_ne_true (service.symm.trans on)
  · intro post p s1 uid src runs service taken body alive
    have arrives := execUrgentArrival_taken (post := post) runs taken
    obtain ⟨l, rfl⟩ := takeArrived_setQ taken
    have comes := arrives.trans (congrArg Host.Outcome.next ((urgentArrived_alive body alive).trans (if_pos service)))
    refine ⟨fun t2 free takes filled => comes.trans (congrArg Host.Outcome.next (urgentAt_taken free takes filled)),
      fun busy room => (comes.trans (congrArg Host.Outcome.next (urgentAt_busy busy))).trans (congrArg Host.Outcome.next (if_pos room)),
      fun busy full => (comes.trans (congrArg Host.Outcome.next (urgentAt_busy busy))).trans (congrArg Host.Outcome.next (if_neg (Nat.not_lt.mpr full)))⟩

end Sys2Proof.Proofs

end

section
/-!
PROOFS. Eviction and the arrival of a moved thread (R199, R201, R202).
-/

namespace Sys2Proof.Proofs

open Sys2Proof.Machine Sys2Proof.Laws Sys2Proof.Claim

variable {s s1 : State} {core slot uid : Nat} {t d : Tid}

/-! ### One step of an eviction (R199) -/

/-- What a slot does once its operations are complete: a late fault is taken first, else its continuation leaves. -/
def drainedStep (s : State) (t : Tid) (uid : Nat) : State :=
  match oldest (covered (getSlot s t) true fun _ _ => true) with
  | some (_, src, c, num) => takeTrap (modSlot s t fun sl => clearFault sl src num) t 0x13 (efTval src c num.toNat) (getSlot s t).pc
  | none => (match (getSlot s t).moveTo with
    | some d => moveOut s t d uid
    | none => evictOut s t uid)

theorem execEvictWrite_eq (core slot : Nat) (s : State) : execEvictWrite core slot s = .next (
    match (getSlot s { core := core, slot := slot }).uid with
    | none => s
    | some uid =>
      if !(getSlot s { core := core, slot := slot }).evicting || (getSlot s { core := core, slot := slot }).handler.isSome || !coreRuns s core then s
      else if (getSlot s { core := core, slot := slot }).wait = some .reply && !(getSlot s { core := core, slot := slot }).wdrawn && (parkedOf s uid).isSome then
        evictWithdraw s { core := core, slot := slot } uid
      else if ((getSlot s { core := core, slot := slot }).wait = some .reply || (getSlot s { core := core, slot := slot }).wait = some .miss ||
          (getSlot s { core := core, slot := slot }).wait = some .iter) ||
          ((getSlot s { core := core, slot := slot }).wait = some .sysc && (getSlot s { core := core, slot := slot }).moveTo.isNone) ||
          midway (getSlot s { core := core, slot := slot }) || !slotDrained (getSlot s { core := core, slot := slot }) then s
      else drainedStep s { core := core, slot := slot } uid) := rfl

/-- A slot under eviction whose core runs. -/
structure Evicting (s : State) (t : Tid) (uid : Nat) : Prop where
  uid : (getSlot s t).uid = some uid
  evicting : (getSlot s t).evicting = true
  handler : (getSlot s t).handler = none
  runs : coreRuns s t.core = true

theorem Evicting.goes (h : Evicting s t uid) : ¬ (!(getSlot s t).evicting || (getSlot s t).handler.isSome || !coreRuns s t.core) = true := by
  simp [h.evicting, h.handler, h.runs]

/-- Its thread waits for a parked access, which is withdrawn first. -/
theorem execEvictWrite_withdraws {unit : Nat} {x : Parked} (h : Evicting s { core := core, slot := slot } uid)
    (wait : (getSlot s { core := core, slot := slot }).wait = some .reply) (fresh : (getSlot s { core := core, slot := slot }).wdrawn = false)
    (parked : parkedOf s uid = some (unit, x)) : execEvictWrite core slot s =
      .next (send (modSlot s { core := core, slot := slot } fun sl => { sl with wdrawn := true }) 3 (hskOf s (coreUnit core)) (coreUnit core) unit
        (.withdraw x.key (.thread { core := core, slot := slot } uid 0))) := by
  rw [execEvictWrite_eq, h.uid]
  refine congrArg Host.Outcome.next ?_
  dsimp only
  rw [if_neg h.goes, if_pos (by simp [wait, fresh, parked]), evictWithdraw, parked]

theorem slotDrained_eq_true {sl : Slot} (ring : ringPending sl = false) (complete : allComplete sl = true)
    (timelines : ∀ i, i < 5 → (tlGet sl.tls i).completed = (tlGet sl.tls i).issued) : slotDrained sl = true := by
  have all : ((List.range 5).all fun i => (tlGet sl.tls i).completed == (tlGet sl.tls i).issued) = true :=
    List.all_eq_true.mpr fun i hi => beq_iff_eq.mpr (timelines i (List.mem_range.mp hi))
  simp [slotDrained, ring, all, complete]

theorem execEvictWrite_drained (h : Evicting s { core := core, slot := slot } uid)
    (wait : (getSlot s { core := core, slot := slot }).wait = none ∨ (getSlot s { core := core, slot := slot }).wait = some .cond)
    (whole : midway (getSlot s { core := core, slot := slot }) = false) (drained : slotDrained (getSlot s { core := core, slot := slot }) = true) :
    execEvictWrite core slot s = .next (drainedStep s { core := core, slot := slot } uid) := by
  rw [execEvictWrite_eq, h.uid]
  refine congrArg Host.Outcome.next ?_
  dsimp only
  rw [if_neg h.goes, if_neg (by rcases wait with wait | wait <;> simp [wait]), if_neg (by rcases wait with wait | wait <;> simp [wait, whole, drained])]

theorem drainedStep_faults {n src : Nat} {c : BitVec 8} {num : Word} (late : oldest (covered (getSlot s t) true fun _ _ => true) = some (n, src, c, num)) :
    drainedStep s t uid = takeTrap (modSlot s t fun sl => clearFault sl src num) t 0x13 (efTval src c num.toNat) (getSlot s t).pc := by
  unfold drainedStep
  rw [late]

theorem drainedStep_evicts (clear : oldest (covered (getSlot s t) true fun _ _ => true) = none) (stays : (getSlot s t).moveTo = none) :
    drainedStep s t uid = evictOut s t uid := by
  unfold drainedStep
  rw [clear, stays]

theorem drainedStep_moves (clear : oldest (covered (getSlot s t) true fun _ _ => true) = none) (moves : (getSlot s t).moveTo = some d) :
    drainedStep s t uid = moveOut s t d uid := by
  unfold drainedStep
  rw [clear, moves]

/-- Burst and record written, the continuation enters its cluster's queue. -/
theorem evictOut_written (room : (getSlot s t).spb.toNat + burstOf (getSlot s t) ≤ (getSlot s t).spl.toNat)
    (written : writeOut (slotEnv s t) s (getSlot s t).pc = .ok s1) : evictOut s t uid =
      evictEnd (sendEnqueue (freeSlot (noteLeft s1 t (getSlot s1 t) (regGet s t (getSlot s t) 2 + 64)) t) (coreUnit t.core) uid
        (.mem (regGet s t (getSlot s t) 2 + 64))) t false := by
  have fits : roomX (slotEnv s t) = .ok () := if_pos (decide_eq_true room)
  have out : (do roomX (slotEnv s t); writeOut (slotEnv s t) s (slotEnv s t).sl.pc : X State) = .ok s1 := by
    rw [fits]
    exact written
  unfold evictOut
  dsimp only
  rw [out]
  rfl

/-! ### A thread that moves (R201, R202) -/

theorem getSlot_evictEnd (s : State) (t : Tid) (refused : Bool) : getSlot (evictEnd s t refused) t = { getSlot s t with evicting := false } := by
  unfold evictEnd
  rw [getSlot_modCore _ t.core (fun c => { c with evict := c.evict &&& ~~~(wd (2 ^ t.slot)), evstat := if refused then c.evstat ||| wd (2 ^ t.slot) else c.evstat })
    fun _ => rfl, getSlot_modSlot_same]

theorem getCore_evictEnd (s : State) (t : Tid) (refused : Bool) : (getCore (evictEnd s t refused) t.core).evict = (getCore s t.core).evict &&& ~~~(wd (2 ^ t.slot)) ∧
    (getCore (evictEnd s t refused) t.core).fwd = (getCore s t.core).fwd := by
  unfold evictEnd
  rw [getCore_modCore_same, getCore_modSlot]
  exact ⟨rfl, rfl⟩

/-- Every forwarding entry that led to a place leads to another. -/
def rerouted (s : State) (t d : Tid) : State :=
  { s with cores := s.cores.map fun (e : Nat × Core) => (e.1, { e.2 with fwd := e.2.fwd.map fun f => if f.new == t then { f with new := d } else f }) }

theorem smGet_map {α : Type} {z : α} {g : α → α} (hg : g z = z) (m : SMap α) (k : Nat) : smGet z (m.map fun e => (e.1, g e.2)) k = g (smGet z m k) := by
  induction m with
  | nil => exact hg.symm
  | cons e r ih =>
    obtain ⟨a, v⟩ := e
    rw [List.map_cons, smGet, smGet]
    split
    · rfl
    · exact ih

theorem getCore_rerouted (s : State) (t d : Tid) (c : Nat) : getCore (rerouted s t d) c =
    { getCore s c with fwd := (getCore s c).fwd.map fun f => if f.new == t then { f with new := d } else f } :=
  smGet_map (z := ({} : Core)) (g := fun c => { c with fwd := c.fwd.map fun f => if f.new == t then { f with new := d } else f }) rfl s.cores c

/-- A moving thread's continuation as the device keeps it. -/
def movedCont (s : State) (t d : Tid) (uid : Nat) (k : Cont) : Cont :=
  let sl := getSlot s t
  { k with
    core := d.core, priv := sl.priv, dev := sl.dev, carry := sl.carry, lateT := sl.csr.lateTval, lateDue := sl.csr.lateDue, fresh := false,
    orig := some ((contTid s uid).getD t) }

/-- A thread on its way, and its old core with the entry that leads after it. -/
def movedAway (s : State) (t d : Tid) (uid : Nat) : State :=
  modCore (modCont (rerouted s t d) uid (movedCont s t d uid)) t.core fun c =>
    { c with fwd := c.fwd ++ [{ old := t, new := d, tick := tickN s, ctx := (getSlot s t).ctx }] }

theorem moveOut_room (room : (getCore s t.core).fwd.length < 16) : ∃ slack body, moveOut s t d uid =
    evictEnd (setSlot (send (movedAway s t d uid) 8 slack (coreUnit t.core) (coreUnit d.core) body) t (emptySlot (getSlot s t))) t false := by
  unfold moveOut
  rw [if_neg (Nat.not_le.mpr room)]
  exact ⟨_, _, rfl⟩

/-- The slot is empty, the continuation is the new core's, the eviction is over and the forwarding entry stands. -/
theorem moveOut_results (room : (getCore s t.core).fwd.length < 16) :
    (getSlot (moveOut s t d uid) t).uid = none ∧ (getCont (moveOut s t d uid) uid).core = d.core ∧
      (getCore (moveOut s t d uid) t.core).evict = (getCore s t.core).evict &&& ~~~(wd (2 ^ t.slot)) ∧
      { old := t, new := d, tick := tickN s, ctx := (getSlot s t).ctx } ∈ (getCore (moveOut s t d uid) t.core).fwd := by
  obtain ⟨slack, body, moves⟩ := moveOut_room (d := d) (uid := uid) room
  have sent := send_trafficOnly (movedAway s t d uid) 8 slack (coreUnit t.core) (coreUnit d.core) body
  obtain ⟨evict, fwd⟩ := getCore_evictEnd (setSlot (send (movedAway s t d uid) 8 slack (coreUnit t.core) (coreUnit d.core) body) t (emptySlot (getSlot s t))) t false
  have left : getCore (setSlot (send (movedAway s t d uid) 8 slack (coreUnit t.core) (coreUnit d.core) body) t (emptySlot (getSlot s t))) t.core =
      { getCore (movedAway s t d uid) t.core with slots := smSet {} (getCore (movedAway s t d uid) t.core).slots t.slot (emptySlot (getSlot s t)) } := by
    rw [setSlot, getCore_modCore_same, getCore, sent.cores, ← getCore]
  have old : getCore (movedAway s t d uid) t.core =
      { getCore (rerouted s t d) t.core with fwd := (getCore (rerouted s t d) t.core).fwd ++ [{ old := t, new := d, tick := tickN s, ctx := (getSlot s t).ctx }] } :=
    getCore_modCore_same _ _ _
  rw [moves]
  refine ⟨?_, ?_, ?_, ?_⟩
  · rw [getSlot_evictEnd, getSlot_setSlot_same]
    rfl
  · have conts := congrArg (fun m => smGet ({ alive := false } : Cont) m uid) sent.conts
    have kept : getCont (movedAway s t d uid) uid = movedCont s t d uid (getCont (rerouted s t d) uid) := getCont_modCont_same _ _ _
    exact congrArg Cont.core (conts.trans kept)
  · rw [evict, left, old]
    rw [getCore_rerouted]
  · rw [fwd, left, old]
    exact List.mem_append_right _ (List.mem_singleton_self _)

/-! ### Arrival (R201) -/

/-- Whether a packet streams a thread. -/
def isStream (p : Packet) : Bool := match p.body with | .stream _ _ _ _ _ _ _ => true | _ => false

/-- What becomes of it: the arrival is acknowledged, and the thread resumes in the slot reserved for it. -/
def streamed (core : Nat) (p : Packet) (s : State) : State :=
  match p.body with
  | .stream uid _ d b ws mbs sysc =>
    if (getSlot s d).resv != some uid || !(getCont s uid).alive then s
    else modSlot (Machine.answer (intoSlot s d uid (getSlot s d).wbase ws (some b) (wAt ws 4) (wAt ws 5)) 17 (coreUnit core) p (.reply .none .ok)) d fun sl =>
      { sl with mb := mbs, wait := if sysc.isSome then some .sysc else sl.wait, callSeq := sysc.getD sl.callSeq }
  | _ => s

theorem execMigrationArrival_eq (core : Nat) (s : State) : execMigrationArrival core s = .next (onArrival s (coreUnit core) 0 isStream (streamed core)) := rfl

theorem streamed_reserved {p : Packet} {o : Tid} {b ws : List Word} {mbs : SMap Mb} {sysc : Option Word} (body : p.body = .stream uid o d b ws mbs sysc)
    (resv : (getSlot s d).resv = some uid) (alive : (getCont s uid).alive = true) : streamed core p s =
      modSlot (Machine.answer (intoSlot s d uid (getSlot s d).wbase ws (some b) (wAt ws 4) (wAt ws 5)) 17 (coreUnit core) p (.reply .none .ok)) d fun sl =>
        { sl with mb := mbs, wait := if sysc.isSome then some .sysc else sl.wait, callSeq := sysc.getD sl.callSeq } := by
  unfold streamed
  simp only [body, resv, alive, bne_self_eq_false, Bool.not_true, Bool.or_self, Bool.false_eq_true, if_false]

theorem evictionResults : Claim.EvictionResults := by
  unfold Claim.EvictionResults
  refine ⟨fun s core slot uid => ?_, fun s core p s1 uid o d b ws mbs sysc taken body resv alive => ?_⟩
  · dsimp only
    intro held evicting handler runs
    have under : Evicting s { core := core, slot := slot } uid := ⟨held, evicting, handler, runs⟩
    refine ⟨fun unit x wait fresh parked => execEvictWrite_withdraws under wait fresh parked, fun wait whole ring complete timelines => ?_⟩
    have leaves := execEvictWrite_drained under wait whole (slotDrained_eq_true ring complete timelines)
    refine ⟨fun n src c num late => leaves.trans (congrArg Host.Outcome.next (drainedStep_faults late)), fun clear => ⟨fun s1 stays room written => ?_, fun d moves room => ?_⟩⟩
    · rw [drainedStep_evicts clear stays, evictOut_written room written] at leaves
      exact leaves
    · rw [drainedStep_moves clear moves] at leaves
      exact ⟨_, leaves, moveOut_results room⟩
  · refine (execMigrationArrival_eq core s).trans ?_
    have taken : takeArrived s (coreUnit core) 0 isStream = some (p, s1) := taken
    rw [onArrival_taken taken, streamed_reserved body resv alive]

/-- Settles O52: a slot's turn by the work that waits for it, steals and urgent work by what has arrived, and an eviction by what its
slot still waits for. -/
theorem schedulerResults : Obligations.SchedulerResults := ⟨slotTakeResults, stealAndQueueResults, evictionResults⟩

end Sys2Proof.Proofs

end

section
/-!
SUPPORT. A turn of the machine: what the schedule names, what a slot's turn fetches (R95, R151, R178, R191, R263), and that
every turn answers a next state.
-/

namespace Sys2Proof.Proofs

open Sys2Proof.Machine Sys2Proof.Laws

variable {s s1 : State} {t : Tid} {i : Instr}

/-! ### Every instruction answers -/

/-- The scaffold of a thread instruction answers a next state where its slot is not empty. -/
theorem scaffold_answers {empty parked : Prop} [Decidable empty] [Decidable parked] {s t : State} (full : ¬ empty) :
    ∃ u, (if empty then .fault .noContinuation else if parked then .next s else .next t : Host.Outcome State Fault Refusal) = .next u := by
  rw [if_neg full]
  split
  · exact ⟨_, rfl⟩
  · exact ⟨_, rfl⟩

/-- Every arm of a device step is a next state. -/
theorem exec_event (s : State) (event : isEvent i = true) : ∃ t, exec i s = .next t := by
  cases i <;> cases event <;> exact ⟨_, rfl⟩

/-- Every arm of a thread instruction is the scaffold. -/
theorem exec_thread (full : ¬ (getSlot s s.cur).uid.isNone = true) (thread : isEvent i = false) : ∃ t, exec i s = .next t := by
  cases i <;> cases thread <;> exact scaffold_answers full

theorem exec_answers (i : Instr) (held : (getSlot s s.cur).uid.isSome = true) : ∃ t, exec i s = .next t := by
  cases kind : isEvent i with
  | true => exact exec_event s kind
  | false => exact exec_thread (by simpa [Option.isSome_iff_ne_none] using held) kind

/-! ### What a fetch leaves of the slots -/

theorem getSlot_holdHalf (s : State) (core k : Nat) (t : Tid) : getSlot (holdHalf s core k) t = getSlot s t := by
  unfold holdHalf
  refine foldl_keeps (getSlot · t) (fun s j => getSlot_modCore s core _ (fun c => ?_) t) [k, k + 1] s
  split <;> rfl

theorem getSlot_markRead (s : State) (k n : Nat) (t : Tid) : getSlot (markRead s k n) t = getSlot s t := by
  rw [getSlot, getCore, markRead_cores]
  rfl

theorem getSlot_turnTo (s : State) (t x : Tid) : getSlot (turnTo s t) x = getSlot s x :=
  getSlot_modCore s t.core (fun c => { c with lastIssue := t.slot }) (fun _ => rfl) x

theorem fetchHalf_got {va : Word} {b0 b1 : Byte} (got : fetchHalf s t va = .got s1 b0 b1) : getSlot s1 t = getSlot s t := by
  unfold fetchHalf at got
  grind [getSlot_holdHalf]

theorem fetchHalf_fault {va : Word} {c : BitVec 8} (bad : fetchHalf s t va = .fault s1 c) : getSlot s1 t = getSlot s t := by
  unfold fetchHalf at bad
  grind [getSlot_markRead]

/-- What a turn that runs something hands on: a slot that may issue, as it stood before. -/
def Handed (s : State) (t : Tid) : Fetched → Prop
  | .bytes s1 _ | .fault s1 _ _ => mayIssue s t = true ∧ getSlot s1 t = getSlot s t
  | _ => True

theorem fetch_handed (s : State) (t : Tid) : Handed s t (fetch s t) := by
  unfold fetch
  dsimp only
  split
  · trivial
  next may =>
    have may : mayIssue s t = true := by simpa using may
    split
    · trivial
    split
    · trivial
    split
    · trivial
    next bad => exact ⟨may, fetchHalf_fault bad⟩
    next first =>
      split
      · exact ⟨may, fetchHalf_got first⟩
      split
      · trivial
      next bad => exact ⟨may, (fetchHalf_fault bad).trans (fetchHalf_got first)⟩
      next second => exact ⟨may, (fetchHalf_got second).trans (fetchHalf_got first)⟩

theorem mayIssue_held (may : mayIssue s t = true) : (getSlot s t).uid.isSome = true := by
  simp only [mayIssue, Bool.and_eq_true] at may
  obtain ⟨⟨⟨⟨⟨held, -⟩, -⟩, -⟩, -⟩, -⟩ := may
  exact held

/-! ### Every turn answers (R95) -/

theorem exec_handed (i : Instr) (may : mayIssue s t = true) (kept : getSlot s1 t = getSlot s t) : ∃ u, exec i (turnTo s1 t) = .next u := by
  refine exec_answers i ?_
  have slot : getSlot (turnTo s1 t) (turnTo s1 t).cur = getSlot s t := (getSlot_turnTo s1 t t).trans kept
  rw [slot]
  exact mayIssue_held may

/-- An instruction that a turn runs answers, be it the LATE trap, a fetch fault, an undecodable pattern or a decoded one. -/
theorem issueOf_answers (runs : issueOf s t = (s1, some i)) : ∃ u, exec i s1 = .next u := by
  have handed := fetch_handed s t
  unfold issueOf at runs
  split at runs
  · cases runs
  · cases runs
    exact exec_event _ rfl
  · cases runs
  · cases runs
  next fetched =>
    rw [fetched] at handed
    cases runs
    exact exec_handed _ handed.1 handed.2
  next fetched =>
    rw [fetched] at handed
    split at runs <;> cases runs <;> exact exec_handed _ handed.1 handed.2

theorem issue_answers (s : State) (t : Tid) : ∃ u, issue s t = .next u := by
  unfold issue
  split
  · exact ⟨_, rfl⟩
  next runs =>
    obtain ⟨u, answers⟩ := issueOf_answers runs
    rw [answers]
    exact ⟨_, rfl⟩

/-- Settles O9: a turn runs an instruction only in a slot that holds a continuation, and every arm answers there. -/
theorem everyStepIsSafe : Obligations.EveryStepIsSafe := by
  intro s
  unfold SafeStep step
  split
  · exact issue_answers _ _
  · split
    next event => exact exec_event _ event
    · exact ⟨_, rfl⟩

/-! ### A slot's turn that fetches well (R263) -/

theorem nextTurn_head {x : Turn} {rest : List Turn} (next : s.sched = x :: rest) : nextTurn s = ({ s with sched := rest }, x) := by
  unfold nextTurn
  rw [next]

theorem step_issue {rest : List Turn} (next : s.sched = .issue t.core t.slot :: rest) : step s = issue { s with sched := rest } t := by
  unfold step
  rw [nextTurn_head next]

theorem step_event {rest : List Turn} (next : s.sched = .event i :: rest) (event : isEvent i = true) : step s = exec i { s with sched := rest } := by
  unfold step
  rw [nextTurn_head next]
  exact if_pos event

theorem fetchHalf_well {va : Word} {k : Nat} (leads : halfAt s t (getSlot s t) va = .at k) (whole : eccStatus s k 2 = 0) :
    fetchHalf s t va = .got (holdHalf s t.core k) (codeByte s t.core k) (codeByte s t.core (k + 1)) := by
  unfold fetchHalf
  simp only [leads, whole, ite_self, Nat.reduceEqDiff, if_false]

/-- A slot in rotation with no LATE trap and no breakpoint due. -/
structure Fetches (s : State) (t : Tid) : Prop where
  may : mayIssue s t = true
  inTime : (getSlot s t).csr.lateDue = false ∨ midway (getSlot s t) = true
  passes : (getSlot s t).stepOne = true ∨ (getSlot s t).pc ∉ (getSlot s t).bps

theorem Fetches.noLate (h : Fetches s t) : ((getSlot s t).csr.lateDue && !midway (getSlot s t)) = false := by
  rcases h.inTime with h | h <;> simp [h]

theorem Fetches.noBreak (h : Fetches s t) : (!(getSlot s t).stepOne && (getSlot s t).bps.contains (getSlot s t).pc) = false := by
  rcases h.passes with h | h <;> simp [h]

theorem Fetches.fetch_short (h : Fetches s t) {b0 b1 : Byte} (first : fetchHalf s t (getSlot s t).pc = .got s1 b0 b1)
    (short : b0.getLsbD 0 = false) : fetch s t = .bytes s1 [b0, b1] := by
  unfold fetch
  simp only [h.may, h.noLate, h.noBreak, first, short, Bool.not_true, Bool.not_false, Bool.false_eq_true, if_false, if_true]

theorem Fetches.fetch_full (h : Fetches s t) {s2 : State} {b0 b1 b2 b3 : Byte} (first : fetchHalf s t (getSlot s t).pc = .got s1 b0 b1)
    (full : b0.getLsbD 0 = true) (second : fetchHalf s1 t ((getSlot s t).pc + 2) = .got s2 b2 b3) : fetch s t = .bytes s2 [b0, b1, b2, b3] := by
  unfold fetch
  simp only [h.may, h.noLate, h.noBreak, first, full, second, Bool.not_true, Bool.false_eq_true, if_false]

theorem issue_bytes {l r : List Byte} (fetched : fetch s t = .bytes s1 l) (decoded : decode l = .ok (i, r)) :
    issue s t = (match exec i (turnTo s1 t) with | .next x => .next (afterStep t x) | x => x) := by
  have runs : issueOf s t = (turnTo s1 t, some i) := by
    unfold issueOf
    rw [fetched]
    dsimp only
    rw [decoded]
  unfold issue
  rw [runs] <;> rfl

theorem issue_idle (not : mayIssue s t = false) : issue s t = .next s := by
  have idle : fetch s t = .idle := by
    unfold fetch
    rw [not]
    rfl
  unfold issue issueOf
  rw [idle]

/-- Settles O4: the two fetches of a turn, of one halfword or two, and the turns that fetch nothing. -/
theorem stepRunsDecoded : Obligations.StepRunsDecoded := by
  refine ⟨fun s t rest k i r next => ?_, fun s core k none => ?_, fun s t rest next not => ?_, fun s i rest next event => step_event next event⟩
  · intro s0 sl may inTime passes leads whole
    have fetches : Fetches s0 t := ⟨may, inTime, passes⟩
    have first : fetchHalf s0 t (getSlot s0 t).pc = .got (holdHalf s0 t.core k) (codeByte s t.core k) (codeByte s t.core (k + 1)) :=
      fetchHalf_well leads whole
    refine ⟨fun short decoded => ?_, fun k' full => ?_⟩
    · exact (step_issue next).trans (issue_bytes (fetches.fetch_short first short) decoded)
    · intro s1 leads' whole' decoded
      exact (step_issue next).trans (issue_bytes (fetches.fetch_full first full (fetchHalf_well leads' whole')) decoded)
  · rw [codeByte, none, Option.getD_none]
  · exact (step_issue next).trans (issue_idle not)

end Sys2Proof.Proofs
end

section
/-!
SUPPORT. The checks of an instruction that leaves its slot or waits for the thread's pending work: what a drained thread, one
without late faults, and one that goes on after a reply pass (R87, R137, R189, R193, R195, R352).
-/

namespace Sys2Proof.Proofs

open Sys2Proof.Machine Sys2Proof.Laws Sys2Proof.Claim

variable {s : State} {e : Env} {sl : Slot}

/-! ### Late faults (R195) -/

theorem covered_eq_nil {cover : Nat → TFault → Bool} (none : noFault sl cover) : covered sl true cover = [] := by
  obtain ⟨ring, timelines⟩ := none
  unfold covered
  refine List.append_eq_nil_iff.mpr ⟨?_, ?_⟩
  · rw [if_pos rfl, List.filterMap_eq_nil_iff]
    intro r hr
    split
    next c faulted => exact absurd faulted (ring r hr c)
    · rfl
  · rw [List.flatMap_eq_nil_iff]
    intro i hi
    rw [List.map_eq_nil_iff, List.filter_eq_nil_iff]
    exact fun f hf => Bool.eq_false_iff.mp (timelines i (List.mem_range.mp hi) f hf)

theorem report_clean {t : State} {cover : Nat → TFault → Bool} (none : noFault (getSlot t e.t) cover) : report e t true cover = .ok () := by
  unfold report
  rw [covered_eq_nil none]
  rfl

theorem drainLate_clean (none : noFault e.sl fun _ _ => true) : drainLate e = .ok () := by
  unfold drainLate
  rw [covered_eq_nil none]
  rfl

theorem noFault_of_drained (drained : Drained sl) : noFault sl fun _ _ => true := by
  obtain ⟨ring, timelines, -⟩ := drained
  refine ⟨fun r hr c faulted => ?_, fun i hi f hf => ?_⟩
  · rw [ring r hr] at faulted
    cases faulted
  · rw [(timelines i hi).2] at hf
    cases hf

/-! ### Leaving the slot (R87, R352) -/

theorem drain_drained (own : e.sl = getSlot e.s e.t) (drained : Drained e.sl) : drain e = .ok () := by
  have clean : report e e.s true (fun _ _ => true) = .ok () := report_clean (own ▸ noFault_of_drained drained)
  obtain ⟨ring, timelines, infl, vops, defer⟩ := drained
  have pending : ringPending e.sl = false := by
    rw [ringPending, List.any_eq_false]
    intro r hr
    rw [ring r hr]
    decide
  have complete : ((List.range 5).all fun i => (tlGet e.sl.tls i).completed == (tlGet e.sl.tls i).issued) = true :=
    List.all_eq_true.mpr fun i hi => beq_iff_eq.mpr (timelines i (List.mem_range.mp hi)).1
  have accesses : allComplete e.sl = true := by
    simp [allComplete, infl, vops, defer]
  simp only [drain, pending, complete, accesses, clean, await, Bind.bind, Except.bind, Bool.not_false, if_true]

theorem suspendFirst_clean (none : noFault e.sl fun _ _ => true) (light : e.sl.handler = .none) : suspendFirst e = .ok () := by
  simp only [suspendFirst, drainLate_clean none, light, Bind.bind, Except.bind, pure, Except.pure, Option.isSome_none,
    Bool.false_eq_true, if_false, ite_self]

/-- A reply that has come makes the issue no first one. -/
theorem suspendFirst_replied {r : Res} (replied : e.sl.res = some r) : suspendFirst e = .ok () := by
  unfold suspendFirst firstIssue
  simp only [replied, Option.isNone_some, Bool.and_false, Bool.false_and, Bool.false_eq_true, if_false]

/-- The thread whose turn it is, when it may be suspended. -/
structure Suspendable (e : Env) : Prop where
  late : drainLate e = .ok ()
  first : suspendFirst e = .ok ()
  room : roomX e = .ok ()
  drained : drain e = .ok ()

theorem suspendable (len : Word) (enc : BitVec 32) (may : MaySuspend s) : Suspendable (envOf len enc s) := by
  obtain ⟨light, room, drained⟩ := may
  have clean := noFault_of_drained drained
  exact ⟨drainLate_clean clean, suspendFirst_clean clean light, if_pos (decide_eq_true room), drain_drained rfl drained⟩

theorem suspendable_checks (may : Suspendable e) : suspendChecks e = .ok () := by
  simp only [suspendChecks, may.first, may.room, Bind.bind, Except.bind]

/-! ### Alignment and waiting (R95, R302) -/

theorem aligned_ok {va : Word} {n : Nat} (h : va.toNat % n = 0) : aligned va n = .ok () := if_pos (beq_iff_eq.mpr h)

theorem aligned_trap {va : Word} {n : Nat} (h : va.toNat % n ≠ 0) : aligned va n = .error (.trap 0x03 va) :=
  if_neg fun even => h (beq_iff_eq.mp even)

end Sys2Proof.Proofs
end

section
/-!
PROOFS. YIELD, PARK, SUSP and RESUME: what they send, what the replies make of them, and the addresses that they refuse
(R355 to R357).
-/

namespace Sys2Proof.Proofs

open Sys2Proof.Machine Sys2Proof.Laws Sys2Proof.Claim

variable {s s1 s2 s3 : State} {a b d : BitVec 7} {k kr h : Nat} {x : TlbEnt} {pg : Bool} {ea v : Word} {c : BitVec 8}

theorem exec_yield (s : State) : exec .yield s = execYield s := rfl
theorem exec_park (a b : BitVec 7) (s : State) : exec (.park a b) s = execPark a b s := rfl
theorem exec_susp (a : BitVec 7) (s : State) : exec (.susp a) s = execSusp a s := rfl
theorem exec_resume (d a b : BitVec 7) (s : State) : exec (.resume d a b) s = execResume d a b s := rfl

/-! ### YIELD (R355) -/

theorem yield_ports (runs : Runs s) (may : MaySuspend s) (written : writeOut (envFor 4 .yield s) s ((getSlot s s.cur).pc + 4) = .ok s1)
    (ports : (getSlot s s.cur).ports = true) : exec .yield s = .next (done (envFor 4 .yield s) s1) := by
  have pass := suspendable 4 Enc.yield may
  have written : writeOut (envOf 4 Enc.yield s) s (envOf 4 Enc.yield s).npc = .ok s1 := written
  rw [exec_yield]
  refine thr_next runs.1 runs.2 ?_
  simp only [suspendable_checks pass, pass.drained, envOf_s, envOf_sl, written, ports, Bind.bind, Except.bind, pure, Except.pure, if_true]
  rfl

theorem yield_leaves (runs : Runs s) (may : MaySuspend s) (written : writeOut (envFor 4 .yield s) s ((getSlot s s.cur).pc + 4) = .ok s1)
    (ports : (getSlot s s.cur).ports = false) :
    exec .yield s = .next (sendEnqueue (freeSlot (noted s s1) s.cur) (coreUnit s.cur.core) (uidOf s) (.mem (framePtr s + 64))) := by
  have pass := suspendable 4 Enc.yield may
  have written : writeOut (envOf 4 Enc.yield s) s (envOf 4 Enc.yield s).npc = .ok s1 := written
  rw [exec_yield]
  refine thr_next runs.1 runs.2 ?_
  simp only [suspendable_checks pass, pass.drained, envOf_s, envOf_sl, written, ports, Bind.bind, Except.bind, pure, Except.pure, Bool.false_eq_true,
    if_false]
  rfl

/-! ### PARK (R356) -/

section
variable (runs : Runs s) (checks : chk (envOf 4 (Enc.park a b) s) [a.toNat, b.toNat] [] [] = .ok ())
include runs checks

theorem park_misaligned (res : (getSlot s s.cur).res = none) (light : (getSlot s s.cur).handler = none) (late : NoLate s)
    (address : readR (envOf 4 (Enc.park a b) s) s a.toNat = .ok (s1, ea)) (odd : ea.toNat % 8 ≠ 0) :
    exec (.park a b) s = .next (takeTrap s s.cur 0x03 ea (getSlot s s.cur).pc) := by
  rw [exec_park]
  refine thr_stop runs.1 runs.2 (st := .trap 0x03 ea) ?_
  simp only [suspendFirst_clean (e := envOf 4 (Enc.park a b) s) late light, checks, envOf_s, envOf_sl, res, address, aligned_trap odd, Bind.bind, Except.bind]

theorem park_sends (res : (getSlot s s.cur).res = none) (may : MaySuspend s) (address : readR (envOf 4 (Enc.park a b) s) s a.toNat = .ok (s1, ea))
    (even : ea.toNat % 8 = 0) (leads : place (envOf 4 (Enc.park a b) s) ea 1 (dskOf (getSlot s s.cur)) = .ok (.mem k x pg)) (device : isHost k = false)
    (home : homeOf k = some h) (expected : readR (envOf 4 (Enc.park a b) s) s1 b.toNat = .ok (s2, v))
    (written : writeOut (envOf 4 (Enc.park a b) s) s2 ((getSlot s s.cur).pc + 4) = .ok s3) :
    exec (.park a b) s = .next (requestSent s (noted s s3) [] [] 11 (dskOf (getSlot s s.cur)) h
      (.park k v (getSlot s s.cur).csr.wlimt.toNat (uidOf s) (getSlot s s.cur).ctx (framePtr s + 64) (getSlot s s.cur).pc (.thread s.cur (uidOf s) ea))) := by
  have pass := suspendable 4 (Enc.park a b) may
  rw [exec_park]
  refine thr_stop runs.1 runs.2 (st := .keep _) ?_
  simp only [pass.first, checks, envOf_s, envOf_sl, envOf_npc, res, address, aligned_ok even, leads, device, pass.room, pass.drained, expected, written,
    unitOf', home, Option.getD_some, Bind.bind, Except.bind, Bool.false_eq_true, if_false]
  rfl

theorem park_goes (res : (getSlot s s.cur).res = some .ok) : exec (.park a b) s = .next (done (envOf 4 (Enc.park a b) s) s) := by
  rw [exec_park]
  refine thr_next runs.1 runs.2 ?_
  simp only [suspendFirst_replied (e := envOf 4 (Enc.park a b) s) res, checks, envOf_s, envOf_sl, res, Bind.bind, Except.bind, pure, Except.pure]

theorem park_waits (res : (getSlot s s.cur).res = some .waits) : exec (.park a b) s = .next (leave (envOf 4 (Enc.park a b) s) s) := by
  rw [exec_park]
  refine thr_next runs.1 runs.2 ?_
  simp only [suspendFirst_replied (e := envOf 4 (Enc.park a b) s) res, checks, envOf_s, envOf_sl, res, Bind.bind, Except.bind, pure, Except.pure]

theorem park_faults (res : (getSlot s s.cur).res = some (.fault c v)) : exec (.park a b) s = .next (takeTrap s s.cur c v (getSlot s s.cur).pc) := by
  rw [exec_park]
  refine thr_stop runs.1 runs.2 (st := .trap c v) ?_
  simp only [suspendFirst_replied (e := envOf 4 (Enc.park a b) s) res, checks, envOf_sl, res, trapX, Bind.bind, Except.bind]

end

/-! ### SUSP (R357) -/

section
variable (runs : Runs s) (checks : chk (envOf 4 (Enc.susp a) s) [a.toNat] [] [] = .ok ())
include runs checks

theorem susp_misaligned (res : (getSlot s s.cur).res = none) (light : (getSlot s s.cur).handler = none) (late : NoLate s)
    (address : readR (envOf 4 (Enc.susp a) s) s a.toNat = .ok (s1, ea)) (odd : ea.toNat % 64 ≠ 0) :
    exec (.susp a) s = .next (takeTrap s s.cur 0x03 ea (getSlot s s.cur).pc) := by
  rw [exec_susp]
  refine thr_stop runs.1 runs.2 (st := .trap 0x03 ea) ?_
  simp only [suspendFirst_clean (e := envOf 4 (Enc.susp a) s) late light, checks, envOf_s, envOf_sl, res, address, aligned_trap odd, Bind.bind, Except.bind]

theorem susp_sends (res : (getSlot s s.cur).res = none) (may : MaySuspend s) (address : readR (envOf 4 (Enc.susp a) s) s a.toNat = .ok (s1, ea))
    (even : ea.toNat % 64 = 0) (leads : place (envOf 4 (Enc.susp a) s) ea 3 (dskOf (getSlot s s.cur)) = .ok (.mem k x pg)) (device : isHost k = false)
    (record : homeKey (envOf 4 (Enc.susp a) s) (ea + 64) 3 = .ok kr) (home : homeOf k = some h)
    (written : writeOut (envOf 4 (Enc.susp a) s) s1 ((getSlot s s.cur).pc + 4) = .ok s2) :
    exec (.susp a) s = .next (requestSent s (noted s s2) [] [4] 11 (dskOf (getSlot s s.cur)) h
      (.susp (k, kr) (recordOf (noted s s2) s.cur { getSlot s2 s.cur with spb := (getSlot s2 s.cur).spb + BitVec.ofNat 64 (burstOf (getSlot s2 s.cur)) }
        ((getSlot s s.cur).pc + 4)) (uidOf s) (getSlot s s.cur).ctx (.thread s.cur (uidOf s) ea))) := by
  have pass := suspendable 4 (Enc.susp a) may
  rw [exec_susp]
  refine thr_stop runs.1 runs.2 (st := .keep _) ?_
  simp only [pass.first, checks, envOf_s, envOf_sl, envOf_npc, res, address, aligned_ok even, leads, device, record, pass.room, pass.drained, written,
    unitOf', home, Option.getD_some, Bind.bind, Except.bind, Bool.false_eq_true, if_false]
  rfl

theorem susp_goes {l : List Word} (res : (getSlot s s.cur).res = some (.words (v :: l))) :
    exec (.susp a) s = .next (done (envOf 4 (Enc.susp a) s) (regSet s s.cur (getSlot s s.cur) 4 v)) := by
  rw [exec_susp]
  refine thr_next runs.1 runs.2 ?_
  simp only [suspendFirst_replied (e := envOf 4 (Enc.susp a) s) res, checks, envOf_s, envOf_sl, envOf_t, res, List.headD_cons, Bind.bind, Except.bind, pure,
    Except.pure]

theorem susp_waits (res : (getSlot s s.cur).res = some .waits) : exec (.susp a) s = .next (leave (envOf 4 (Enc.susp a) s) s) := by
  rw [exec_susp]
  refine thr_next runs.1 runs.2 ?_
  simp only [suspendFirst_replied (e := envOf 4 (Enc.susp a) s) res, checks, envOf_s, envOf_sl, res, Bind.bind, Except.bind, pure, Except.pure]

theorem susp_faults (res : (getSlot s s.cur).res = some (.fault c v)) : exec (.susp a) s = .next (takeTrap s s.cur c v (getSlot s s.cur).pc) := by
  rw [exec_susp]
  refine thr_stop runs.1 runs.2 (st := .trap c v) ?_
  simp only [suspendFirst_replied (e := envOf 4 (Enc.susp a) s) res, checks, envOf_sl, res, trapX, Bind.bind, Except.bind]

end

/-! ### RESUME (R357) -/

section
variable (runs : Runs s) (checks : chk (envOf 4 (Enc.resume d a b) s) [a.toNat, b.toNat] [d.toNat] [] = .ok ())
include runs checks

theorem resume_misaligned (res : (getSlot s s.cur).res = none) (address : readR (envOf 4 (Enc.resume d a b) s) s a.toNat = .ok (s1, ea))
    (odd : ea.toNat % 64 ≠ 0) : exec (.resume d a b) s = .next (takeTrap s s.cur 0x03 ea (getSlot s s.cur).pc) := by
  rw [exec_resume]
  refine thr_stop runs.1 runs.2 (st := .trap 0x03 ea) ?_
  simp only [checks, envOf_s, envOf_sl, res, address, aligned_trap odd, Bind.bind, Except.bind]

theorem resume_sends (res : (getSlot s s.cur).res = none) (address : readR (envOf 4 (Enc.resume d a b) s) s a.toNat = .ok (s1, ea))
    (even : ea.toNat % 64 = 0) (stores : storesDone (getSlot s s.cur) = true)
    (leads : place (envOf 4 (Enc.resume d a b) s) ea 3 (dskOf (getSlot s s.cur)) = .ok (.mem k x pg)) (device : isHost k = false)
    (record : homeKey (envOf 4 (Enc.resume d a b) s) (ea + 64) 3 = .ok kr) (home : homeOf k = some h)
    (value : readR (envOf 4 (Enc.resume d a b) s) s1 b.toNat = .ok (s2, v)) :
    exec (.resume d a b) s = .next (requestSent s s2 [] [d.toNat] 11 (dskOf (getSlot s s.cur)) h
      (.resume (k, kr) v (getSlot s s.cur).ctx (.thread s.cur (uidOf s) ea))) := by
  have released : release (envOf 4 (Enc.resume d a b) s) = .ok () := if_pos stores
  rw [exec_resume]
  refine thr_stop runs.1 runs.2 (st := .keep _) ?_
  simp only [checks, envOf_s, envOf_sl, res, address, aligned_ok even, leads, device, record, released, value, unitOf', home, Option.getD_some, Bind.bind,
    Except.bind, Bool.false_eq_true, if_false]
  rfl

theorem resume_goes {l : List Word} (res : (getSlot s s.cur).res = some (.words (v :: l)))
    (written : writeR (envOf 4 (Enc.resume d a b) s) s d.toNat v = .ok s1) : exec (.resume d a b) s = .next (done (envOf 4 (Enc.resume d a b) s) s1) := by
  rw [exec_resume]
  refine thr_next runs.1 runs.2 ?_
  simp only [checks, envOf_s, envOf_sl, res, List.headD_cons, written, Bind.bind, Except.bind, pure, Except.pure]

theorem resume_faults (res : (getSlot s s.cur).res = some (.fault c v)) :
    exec (.resume d a b) s = .next (takeTrap s s.cur c v (getSlot s s.cur).pc) := by
  rw [exec_resume]
  refine thr_stop runs.1 runs.2 (st := .trap c v) ?_
  simp only [checks, envOf_sl, res, trapX, Bind.bind, Except.bind]

end

/-- The suspensions, from what each sends and what each reply makes of it. -/
theorem suspensionResults : Claim.SuspensionResults := by
  refine ⟨fun s runs may s1 written => ⟨yield_ports runs may written, yield_leaves runs may written⟩,
    fun a b s runs => ?_, fun a s runs => ?_, fun d a b s runs => ?_⟩
  · intro i e sl checks
    refine ⟨fun res light s1 ea address => ⟨(park_misaligned runs checks res light · address),
      fun even may k x pg h s2 v s3 leads device home expected written => ?_⟩,
      park_goes runs checks, park_waits runs checks, fun c v => park_faults runs checks⟩
    exact park_sends runs checks res may address even leads device home expected written
  · intro i e sl checks
    refine ⟨fun res light s1 ea address => ⟨(susp_misaligned runs checks res light · address),
      fun even may k kr x pg h s2 leads device record home written => ?_⟩,
      fun v l => susp_goes runs checks, susp_waits runs checks, fun c v => susp_faults runs checks⟩
    exact susp_sends runs checks res may address even leads device record home written
  · intro i e sl checks
    refine ⟨fun res s1 ea address => ⟨resume_misaligned runs checks res address, fun even stores k kr x pg h s2 v leads device record home value => ?_⟩,
      fun v l s1 => resume_goes runs checks, fun c v => resume_faults runs checks⟩
    exact resume_sends runs checks res address even stores leads device record home value

end Sys2Proof.Proofs
end

section
/-!
PROOFS. A record and a burst as a slot writes them give the continuation back in any slot (R84, R86, R87, R122, R123): the sizes of
both, the fields packed into words, the registers and the predicates.
-/

namespace Sys2Proof.Proofs

open Sys2Proof.Machine Sys2Proof.Laws Sys2Proof.Claim

variable {s : State} {t : Tid} {sl : Slot}

/-! ### The predicates of a burst -/

/-- Whether predicate k(j + 1) has a place in the burst. -/
def predKept (sl : Slot) (j : Nat) : Bool := !decide (predGet sl (j + 1) = 0)

/-- What the burst holds of predicate k(j + 1). -/
def predWord (sl : Slot) (j : Nat) : Option Word := if predGet sl (j + 1) = 0 then none else some (predGet sl (j + 1))

theorem isSome_predWord (sl : Slot) (j : Nat) : (predWord sl j).isSome = predKept sl j := by
  unfold predWord predKept
  split
  next zero => rw [decide_eq_true zero]; rfl
  next other => rw [decide_eq_false other]; rfl

theorem ksum_eq_bitSum (sl : Slot) : ksum sl = bitSum (predKept sl) 7 := by
  have bit (j : Nat) : (if predGet sl (j + 1) = 0 then 0 else 2 ^ j) = if predKept sl j then 2 ^ j else 0 := by
    unfold predKept
    split
    next zero => rw [decide_eq_true zero]; rfl
    next other => rw [decide_eq_false other]; rfl
  simp only [ksum, bitSum, bit]

theorem ksum_lt (sl : Slot) : ksum sl < 128 := ksum_eq_bitSum sl ▸ bitSum_lt (predKept sl) 7

theorem ksum_bit (sl : Slot) {j : Nat} (h : j < 7) : ksum sl >>> j % 2 = if predKept sl j then 1 else 0 := by
  have bit := testBit_bitSum (predKept sl) h
  rw [← ksum_eq_bitSum, Nat.testBit_eq_decide_div_mod_eq] at bit
  rw [Nat.shiftRight_eq_div_pow, ← bit]
  split <;> simp_all

theorem popCount_ksum (sl : Slot) {n : Nat} (h : n ≤ 7) : popCount n (ksum sl) = ((List.range n).filter (predKept sl)).length := by
  induction n with
  | zero => rfl
  | succ n ih =>
    have step : popCount (n + 1) (ksum sl) = popCount n (ksum sl) + ksum sl >>> n % 2 := by simp [popCount, List.range_succ]
    rw [step, ih (by omega), ksum_bit sl h, List.range_succ, List.filter_append, List.length_append]
    cases kept : predKept sl n <;> simp [kept]

/-- Where the places of a list are counted by what is kept before them. -/
theorem getElem?_filterMap_range {α : Type} (f : Nat → Option α) {n j : Nat} (h : j < n) (kept : (f j).isSome = true) :
    ((List.range n).filterMap f)[((List.range j).filter fun i => (f i).isSome).length]? = f j := by
  induction n with
  | zero => cases h
  | succ n ih =>
    have size (m : Nat) : ((List.range m).filterMap f).length = ((List.range m).filter fun i => (f i).isSome).length := by
      rw [List.length_filterMap_eq_countP, List.countP_eq_length_filter]
    rw [List.range_succ, List.filterMap_append]
    rcases Nat.lt_succ_iff_lt_or_eq.mp h with h | rfl
    · have found := ih h
      obtain ⟨v, hv⟩ := Option.isSome_iff_exists.mp kept
      have inside := (List.getElem?_eq_some_iff.mp (found.trans hv)).1
      rw [List.getElem?_append_left inside, found]
    · rw [List.getElem?_append_right (size j).le, size, Nat.sub_self]
      obtain ⟨v, hv⟩ := Option.isSome_iff_exists.mp kept
      simp [hv]

theorem predWords_length (sl : Slot) : ((List.range 7).filterMap (predWord sl)).length = popCount 7 (ksum sl) := by
  rw [popCount_ksum sl (Nat.le_refl 7), List.length_filterMap_eq_countP, List.countP_eq_length_filter]
  simp only [isSome_predWord]

theorem predWords_at (sl : Slot) {j : Nat} (h : j < 7) (kept : predKept sl j = true) :
    ((List.range 7).filterMap (predWord sl))[popCount j (ksum sl)]? = some (predGet sl (j + 1)) := by
  have place := getElem?_filterMap_range (predWord sl) h ((isSome_predWord sl j).trans kept)
  simp only [isSome_predWord] at place
  rw [popCount_ksum sl (Nat.le_of_lt h), place]
  exact if_neg fun zero => by simp [predKept, zero] at kept

/-! ### Sizes (R84, R86) -/

theorem burstWords_eq (s : State) (t : Tid) (sl : Slot) : burstWords s t sl =
    csrBlock sl ++ (List.range (winW sl - 1)).map (fun i => regGet s t sl (i + 1)) ++ (List.range 7).filterMap (predWord sl) := rfl

theorem length_csrBlock (sl : Slot) : (csrBlock sl).length = 32 := rfl

theorem length_burstWords (s : State) (t : Tid) (sl : Slot) : (burstWords s t sl).length = 32 + (winW sl - 1) + popCount 7 (ksum sl) := by
  rw [burstWords_eq, List.length_append, List.length_append, predWords_length, List.length_map, List.length_range, length_csrBlock]

theorem burst_fits (s : State) (t : Tid) (sl : Slot) : (burstWords s t sl).length * 8 ≤ burstOf sl ∧ burstOf sl % 64 = 0 := by
  rw [length_burstWords, burstOf, burstSize]
  omega

/-! ### Where the burst's words lie -/

theorem wAt_csrBlock {i : Nat} (h : i < 32) : wAt (burstWords s t sl) i = wAt (csrBlock sl) i := by
  rw [burstWords_eq, List.append_assoc, wAt, List.getD_append _ _ _ _ (by rw [length_csrBlock]; exact h)]
  rfl

theorem burst_regs (s : State) (t : Tid) (sl : Slot) :
    ((burstWords s t sl).drop 32).take (winW sl - 1) = (List.range (winW sl - 1)).map fun i => regGet s t sl (i + 1) := by
  rw [burstWords_eq, List.append_assoc, List.drop_left' (length_csrBlock sl), List.take_left' (by simp)]

theorem winW_pos (sl : Slot) : 8 ≤ winW sl := by
  unfold winW
  dsimp only
  split <;> omega

theorem burst_pred {j : Nat} (h : j < 7) (kept : predKept sl j = true) :
    wAt (burstWords s t sl) (31 + winW sl + popCount j (ksum sl)) = predGet sl (j + 1) := by
  have size : (csrBlock sl ++ (List.range (winW sl - 1)).map fun i => regGet s t sl (i + 1)).length = 31 + winW sl := by
    have := winW_pos sl
    rw [List.length_append, List.length_map, List.length_range, length_csrBlock]
    omega
  rw [burstWords_eq, wAt, List.getD_eq_getElem?_getD, List.getElem?_append_right (by omega), size, Nat.add_sub_cancel_left, predWords_at sl h kept]
  rfl

/-! ### Fields packed into words (R84, R86) -/

theorem toNat_wd (n : Nat) : (wd n).toNat = n % 2 ^ 64 := BitVec.toNat_ofNat n 64

theorem bitAt_eq (w : Word) (i : Nat) : bitAt w i = decide (w.toNat / 2 ^ i % 2 = 1) := by
  rw [bitAt, BitVec.getLsbD, Nat.testBit_eq_decide_div_mod_eq]

theorem b2n_le (b : Bool) : b2n b ≤ 1 := by cases b <;> decide

theorem decide_b2n (b : Bool) : decide (b2n b = 1) = b := by cases b <;> rfl

theorem ofNat_of_toNat {w n : Nat} {x : BitVec w} (h : n = x.toNat) : BitVec.ofNat w n = x := by rw [h, BitVec.ofNat_toNat, BitVec.setWidth_eq]

theorem bitAt_of_b2n {w : Word} {i : Nat} {b : Bool} (h : w.toNat / 2 ^ i % 2 = b2n b) : bitAt w i = b := by
  rw [bitAt_eq, h, decide_b2n]

/-- The word of a record that names context, steal level, priority, flags and window size. -/
theorem record_flags (s : State) (t : Tid) (sl : Slot) (pc : Word) : let w := wAt (recordOf s t sl pc) 1
    BitVec.ofNat 4 (fld w 3 0) = sl.wsize ∧ bitAt w 4 = sl.ports ∧ bitAt w 5 = sl.restart ∧ BitVec.ofNat 2 (fld w 7 6) = sl.prio ∧
      BitVec.ofNat 2 (fld w 9 8) = sl.steal := by
  have word : (wAt (recordOf s t sl pc) 1).toNat =
      (sl.ctx * 65536 + sl.steal.toNat * 256 + sl.prio.toNat * 64 + b2n sl.restart * 32 + b2n sl.ports * 16 + sl.wsize.toNat) % 2 ^ 64 := toNat_wd _
  have size := sl.wsize.isLt
  have ports := b2n_le sl.ports
  have restart := b2n_le sl.restart
  have prio := sl.prio.isLt
  have steal := sl.steal.isLt
  refine ⟨ofNat_of_toNat ?_, bitAt_of_b2n ?_, bitAt_of_b2n ?_, ofNat_of_toNat ?_, ofNat_of_toNat ?_⟩ <;> simp only [fld_eq, word] <;> omega

/-- The word of a record that holds the slack classes and the predicates' places. -/
theorem record_slacks (s : State) (t : Tid) (sl : Slot) (pc : Word) : let w := wAt (recordOf s t sl pc) 6
    fld w 6 0 = ksum sl ∧ BitVec.ofNat 12 (fld w 19 8) = sl.csr.sk0 ∧ BitVec.ofNat 12 (fld w 31 20) = sl.csr.sk1 ∧
      BitVec.ofNat 12 (fld w 43 32) = sl.csr.sk2 ∧ BitVec.ofNat 12 (fld w 55 44) = sl.csr.sk3 := by
  have word : (wAt (recordOf s t sl pc) 6).toNat = (sl.csr.sk3.toNat * 2 ^ 44 + sl.csr.sk2.toNat * 2 ^ 32 + sl.csr.sk1.toNat * 2 ^ 20 +
      sl.csr.sk0.toNat * 2 ^ 8 + ksum sl) % 2 ^ 64 := toNat_wd _
  have sum := ksum_lt sl
  have sk0 := sl.csr.sk0.isLt
  have sk1 := sl.csr.sk1.isLt
  have sk2 := sl.csr.sk2.isLt
  have sk3 := sl.csr.sk3.isLt
  refine ⟨?_, ofNat_of_toNat ?_, ofNat_of_toNat ?_, ofNat_of_toNat ?_, ofNat_of_toNat ?_⟩ <;> simp only [fld_eq, word] <;> omega

/-- The first word of the CSR block. -/
theorem csrBlock_modes (sl : Slot) : let w := wAt (csrBlock sl) 0
    BitVec.ofNat 2 (fld w 1 0) = sl.csr.dsk ∧ bitAt w 2 = sl.csr.lateen ∧ bitAt w 3 = sl.csr.spolicy ∧ BitVec.ofNat 4 (fld w 7 4) = sl.csr.fmode ∧
      BitVec.ofNat 32 (fld w 63 32) = sl.csr.fseed := by
  have word : (wAt (csrBlock sl) 0).toNat = (sl.csr.dsk.toNat + 4 * b2n sl.csr.lateen + 8 * b2n sl.csr.spolicy + 16 * sl.csr.fmode.toNat +
      sl.csr.fseed.toNat * 2 ^ 32) % 2 ^ 64 := toNat_wd _
  have dsk := sl.csr.dsk.isLt
  have lateen := b2n_le sl.csr.lateen
  have spolicy := b2n_le sl.csr.spolicy
  have fmode := sl.csr.fmode.isLt
  have fseed := sl.csr.fseed.isLt
  refine ⟨ofNat_of_toNat ?_, bitAt_of_b2n ?_, bitAt_of_b2n ?_, ofNat_of_toNat ?_, ofNat_of_toNat ?_⟩ <;> simp only [fld_eq, word] <;> omega

/-- The last word of the CSR block that is not zero. -/
theorem csrBlock_actives (sl : Slot) : let w := wAt (csrBlock sl) 26
    bitAt w 0 = sl.csr.trapActive ∧ bitAt w 1 = sl.csr.upcallActive ∧ bitAt w 2 = sl.csr.spawned := by
  have word : (wAt (csrBlock sl) 26).toNat = (b2n sl.csr.trapActive + 2 * b2n sl.csr.upcallActive + 4 * b2n sl.csr.spawned) % 2 ^ 64 := toNat_wd _
  have trap := b2n_le sl.csr.trapActive
  have upcall := b2n_le sl.csr.upcallActive
  have spawned := b2n_le sl.csr.spawned
  refine ⟨bitAt_of_b2n ?_, bitAt_of_b2n ?_, bitAt_of_b2n ?_⟩ <;> simp only [word] <;> omega

/-- Record and burst give back every CSR but what the device keeps of a LATE trap. -/
theorem csrOf_written (s s' : State) (t t' : Tid) (sl : Slot) (pc : Word) :
    csrOf (burstWords s t sl) (recordOf s' t' sl pc) = { sl.csr with lateTval := none, lateDue := false } := by
  obtain ⟨dsk, lateen, spolicy, fmode, fseed⟩ := csrBlock_modes sl
  obtain ⟨trap, upcall, spawned⟩ := csrBlock_actives sl
  obtain ⟨-, sk0, sk1, sk2, sk3⟩ := record_slacks s' t' sl pc
  have flags : (wAt (csrBlock sl) 6).setWidth 6 = sl.csr.fflags :=
    (BitVec.setWidth_setWidth_of_le sl.csr.fflags (show 6 ≤ 64 by decide)).trans (BitVec.setWidth_eq _)
  unfold csrOf
  simp (disch := decide) only [wAt_csrBlock, dsk, lateen, spolicy, fmode, fseed, trap, upcall, spawned, sk0, sk1, sk2, sk3, flags]
  rfl

theorem tlsOf_written (s : State) (t : Tid) (sl : Slot) {i : Nat} (h : i < 5) :
    (tlGet (tlsOf (burstWords s t sl)) i).completed = (tlGet sl.tls i).completed := by
  unfold tlsOf
  simp (disch := decide) only [wAt_csrBlock]
  interval_cases i <;> rfl

/-! ### Tables filled from lists (R84, R86) -/

/-- Places k + 1 filled where a condition on k holds. -/
theorem smGet_foldl_range {c : Nat → Prop} [DecidablePred c] (v : Nat → Word) (n k : Nat) :
    smGet 0 ((List.range n).foldl (fun m j => if c j then smSet 0 m (j + 1) (v j) else m) ([] : SMap Word)) (k + 1) = if k < n ∧ c k then v k else 0 := by
  induction n with
  | zero => rfl
  | succ n ih =>
    rw [List.range_succ, List.foldl_append, List.foldl_cons, List.foldl_nil]
    by_cases same : k = n
    · subst same
      by_cases hk : c k
      · rw [if_pos hk, if_pos ⟨k.lt_succ_self, hk⟩, smGet_smSet_same]
      · rw [if_neg hk, ih, if_neg fun h => hk h.2, if_neg fun h => hk h.2]
    · have keeps : (k < n + 1 ∧ c k) ↔ (k < n ∧ c k) := and_congr_left' (by omega)
      rw [if_congr keeps rfl rfl, ← ih]
      split
      · exact smGet_smSet_other _ _ _ (by omega)
      · rfl

/-- Registers put from a list. -/
theorem smGet_foldl_zipIdx (l : List Word) (m : SMap Word) (base : Nat) {i : Nat} {v : Word} (h : l[i]? = some v) :
    smGet 0 (l.zipIdx.foldl (fun m e => smSet 0 m (base + e.2 + 1) e.1) m) (base + i + 1) = v := by
  induction l using List.reverseRecOn with
  | nil => cases h
  | append_singleton l w ih =>
    rw [List.zipIdx_append, List.foldl_append, List.zipIdx_singleton, List.foldl_cons, List.foldl_nil]
    dsimp only
    rcases Nat.lt_or_ge i l.length with inside | last
    · rw [List.getElem?_append_left inside] at h
      rw [smGet_smSet_other _ _ _ (by omega), ih h]
    · rw [List.getElem?_append_right last, List.getElem?_singleton] at h
      split at h
      next here =>
        obtain rfl : i = l.length := by omega
        rw [Nat.zero_add, smGet_smSet_same]
        exact Option.some.inj h
      · cases h

theorem getSlot_putRegs (s : State) (core base : Nat) (l : List Word) (t : Tid) : getSlot (putRegs s core base l) t = getSlot s t :=
  getSlot_modCore s core (fun c => { c with regs := l.zipIdx.foldl (fun m e => smSet 0 m (base + e.2 + 1) e.1) c.regs }) (fun _ => rfl) t

theorem regGet_putRegs (s : State) (t : Tid) {x : Slot} {base i : Nat} (hb : x.wbase = base) {l : List Word} {v : Word} (h : l[i]? = some v) :
    regGet (putRegs s t.core base l) t x (i + 1) = v := by
  unfold regGet
  rw [if_neg i.succ_ne_zero, hb, putRegs, getCore_modCore_same]
  exact smGet_foldl_zipIdx l _ base h

theorem predGet_restored {ks : Nat} (sl x : Slot) (s : State) (t : Tid) (hks : ks = ksum sl) (preds : x.ks = burstPreds (winW sl) ks (burstWords s t sl))
    {n : Nat} (low : 1 ≤ n) (high : n ≤ 7) : predGet x n = predGet sl n := by
  obtain ⟨j, rfl⟩ := Nat.exists_eq_add_of_le' low
  have place := smGet_foldl_range (c := fun j => ks >>> j % 2 = 1) (fun j => wAt (burstWords s t sl) (31 + winW sl + popCount j ks)) 7 j
  have bit := ksum_bit sl (show j < 7 by omega)
  rw [predGet, if_neg j.succ_ne_zero, preds, burstPreds]
  refine place.trans ?_
  rw [hks, bit]
  cases kept : predKept sl j with
  | true => rw [if_pos ⟨by omega, rfl⟩, burst_pred (by omega) kept]
  | false =>
    have zero : predGet sl (j + 1) = 0 := by simpa [predKept] using kept
    rw [if_neg (by simp), zero]

/-! ### The continuation in its new slot (R84, R86, R87) -/

/-- The state of a continuation that has taken slot t with its record ws and burst b, before the device forgets what it kept. -/
def restoredState (s : State) (t : Tid) (uid base : Nat) (ws b : List Word) (spb spl : Word) : State :=
  let k := getCont s uid
  let x := openedSlot s t uid base (restored k ws b spb spl)
  let s := putRegs (openSlot s t uid base (restored k ws b spb spl)) t.core base ((b.drop 32).take (recW ws - 1))
  regSet (regSet s t x 2 (wAt ws 2)) t x 4 (k.a0.getD (wAt ws 7))

theorem intoSlot_burst {uid base : Nat} {ws b : List Word} {spb spl : Word} (deliv : (getCont s uid).deliv = none) :
    intoSlot s t uid base ws (some b) spb spl = taken (restoredState s t uid base ws b spb spl) uid t := by
  have slot := (getSlot_putRegs (openSlot s t uid base (restored (getCont s uid) ws b spb spl)) t.core base ((b.drop 32).take (recW ws - 1)) t).trans
    (getSlot_openSlot s t uid base _)
  unfold intoSlot restoredState
  simp only [deliv, slot]
  rfl

theorem getSlot_restoredState (s : State) (t : Tid) (uid base : Nat) (ws b : List Word) (spb spl : Word) :
    getSlot (restoredState s t uid base ws b spb spl) t = openedSlot s t uid base (restored (getCont s uid) ws b spb spl) := by
  unfold restoredState
  dsimp only
  rw [getSlot_regSet, getSlot_regSet, getSlot_putRegs, getSlot_openSlot]

theorem recSize_written (s : State) (t : Tid) (pc : Word) (size : sl.wsize = portSize sl.ports sl.wsize) : recSize (recordOf s t sl pc) = sl.wsize := by
  obtain ⟨wsize, ports, -⟩ := record_flags s t sl pc
  rw [recSize, wsize, ports, ← size]

theorem recW_written (s : State) (t : Tid) (pc : Word) (size : sl.wsize = portSize sl.ports sl.wsize) : recW (recordOf s t sl pc) = winW sl := by
  rw [recW, recSize_written s t pc size, (record_flags s t sl pc).2.1]
  rfl

theorem recSteal_written (s : State) (t : Tid) (pc : Word) (level : sl.steal = portSteal sl.ports sl.steal) : recSteal (recordOf s t sl pc) = sl.steal := by
  obtain ⟨-, ports, -, -, steal⟩ := record_flags s t sl pc
  rw [recSteal, steal, ports, ← level]

/-- The registers: those of the burst, but g4, which the value that resumed the thread replaces. -/
theorem regs_restored (s s' : State) (t t' : Tid) (uid base : Nat) (pc spb spl : Word) (size : sl.wsize = portSize sl.ports sl.wsize) :
    let r := restoredState s' t' uid base (recordOf s t sl pc) (burstWords s t sl) spb spl
    (∀ n, 1 ≤ n → n < winW sl → n ≠ 4 → regGet r t' (getSlot r t') n = regGet s t sl n) ∧
      regGet r t' (getSlot r t') 4 = (getCont s' uid).a0.getD (regGet s t sl 4) := by
  intro r
  have slot : getSlot r t' = openedSlot s' t' uid base (restored (getCont s' uid) (recordOf s t sl pc) (burstWords s t sl) spb spl) :=
    getSlot_restoredState s' t' uid base _ _ spb spl
  refine ⟨fun n low inside other => ?_, ?_⟩
  · have burst : ((burstWords s t sl).drop 32).take (recW (recordOf s t sl pc) - 1) = (List.range (winW sl - 1)).map fun i => regGet s t sl (i + 1) := by
      rw [recW_written s t pc size, burst_regs]
    rw [slot]
    unfold r restoredState
    dsimp only
    rw [regGet_regSet_other _ _ _ _ other, burst]
    by_cases frame : n = 2
    · subst frame
      rw [regGet_regSet_same _ _ _ _ (by decide)]
      rfl
    · obtain ⟨i, rfl⟩ := Nat.exists_eq_add_of_le' low
      rw [regGet_regSet_other _ _ _ _ frame]
      refine regGet_putRegs _ t' (base := base) rfl ?_
      rw [List.getElem?_map, List.getElem?_range (by omega)]
      rfl
  · rw [slot]
    unfold r restoredState
    dsimp only
    rw [regGet_regSet_same _ _ _ _ (by decide)]
    rfl

/-- Record and burst give the continuation back. -/
theorem recordRestores : Claim.RecordRestores := by
  refine ⟨fun s t pc => ⟨rfl, burst_fits s t (getSlot s t)⟩, fun s s' t t' uid base pc spb => ?_⟩
  intro sl k deliv late ctx size level r x
  have into : r = taken (restoredState s' t' uid base (recordOf s t sl pc) (burstWords s t sl) spb sl.spl) uid t' := intoSlot_burst deliv
  have slot : x = openedSlot s' t' uid base (restored k (recordOf s t sl pc) (burstWords s t sl) spb sl.spl) := by
    unfold x
    rw [into]
    exact getSlot_restoredState s' t' uid base _ _ spb sl.spl
  obtain ⟨regs, value⟩ := regs_restored s s' t t' uid base pc spb sl.spl size
  obtain ⟨-, ports, restart, prio, -⟩ := record_flags s t sl pc
  obtain ⟨sum, -⟩ := record_slacks s t sl pc
  have csr : x.csr = { sl.csr with lateTval := k.lateT, lateDue := k.lateDue } := by
    rw [slot]
    unfold openedSlot restored
    dsimp only
    rw [csrOf_written, late]
    simp [show wd 0 = 0#64 from rfl]
  have preds : x.ks = burstPreds (winW sl) (fld (wAt (recordOf s t sl pc) 6) 6 0) (burstWords s t sl) := by
    rw [slot, ← recW_written s t pc size]
    rfl
  have tls : x.tls = tlsOf (burstWords s t sl) := by
    rw [slot]
    rfl
  have window : x.wsize = sl.wsize := by
    rw [slot]
    exact recSize_written s t pc size
  have level : x.steal = sl.steal := by
    rw [slot]
    exact recSteal_written s t pc level
  have registers (n : Nat) : regGet r t' x n =
      regGet (restoredState s' t' uid base (recordOf s t sl pc) (burstWords s t sl) spb sl.spl) t'
        (getSlot (restoredState s' t' uid base (recordOf s t sl pc) (burstWords s t sl) spb sl.spl) t') n := by
    unfold x
    rw [into]
    rfl
  have pcs : x.pc = pc ∧ x.uid = some uid ∧ x.wbase = base ∧ x.join = sl.join ∧ x.spb = spb ∧ x.spl = sl.spl := by
    rw [slot]
    exact ⟨rfl, rfl, rfl, rfl, rfl, rfl⟩
  have fields : x.ctx = sl.ctx ∧ x.ports = sl.ports ∧ x.restart = sl.restart ∧ x.prio = sl.prio := by
    rw [slot]
    exact ⟨ctx, ports, restart, prio⟩
  obtain ⟨hpc, huid, hbase, hjoin, hspb, hspl⟩ := pcs
  obtain ⟨hctx, hports, hrestart, hprio⟩ := fields
  refine ⟨huid, hpc, hctx, hbase, window, hports, hrestart, hprio, level, hjoin, hspb, hspl, csr,
    fun i hi => ?_, fun n => predGet_restored sl x s t sum preds, fun n low high other => ?_, ?_⟩
  · rw [tls, tlsOf_written s t sl hi]
  · rw [registers, regs n low high other]
  · rw [registers, value]

/-- Settles O35: the clauses of the four instructions, and record and burst giving the continuation back. -/
theorem suspensionRules : Obligations.SuspensionRules :=
  ⟨suspensionResults, recordRestores⟩

end Sys2Proof.Proofs
end

section
/-!
PROOFS. What waits at a home: BAR arrivals, PARKs, join records, resume cells, and the deadlines of parked accesses (R85, R308 to R311,
R318, R354, R356, R357).
-/

namespace Sys2Proof.Proofs

open Sys2Proof.Machine Sys2Proof.Laws

variable {s : State} {unit : Nat} {p : Packet} {k : Nat} {r : Ret}

/-! ### What the records of an operation leave unchanged (R209, R210) -/

section
variable {γ : Type} (part : State → γ) (mem : ∀ s m, part { s with mem := m } = part s) (fns : ∀ s n f, part (modFn s n f) = part s)
  (homes : ∀ s u f, part (modHome s u f) = part s)
include mem fns

theorem ringWrite_keeps (s : State) (fn : Nat) (ws : List Word) : part (ringWrite s fn ws) = part s := by
  unfold ringWrite
  simp only
  split
  · rfl
  · rw [fns]
    refine foldl_keeps part (fun t b => ?_) _ s
    split
    · exact mem _ _
    · rfl

include homes

theorem diverge_keeps (s : State) (unit addr cls src : Nat) : part (diverge s unit addr cls src) = part s := by
  unfold diverge
  rw [homes, fns, ringWrite_keeps part mem fns]

/-- The records of an operation touch memory, the partitions and the homes alone. -/
theorem homeNote_keeps (s : State) (unit cls src srcUnit addr : Nat) (urgent : Bool) : part (homeNote s unit cls src srcUnit addr urgent) = part s := by
  unfold homeNote
  simp only
  split
  · rfl
  · rw [homes]
    split <;> simp only [apply_ite part, fns, diverge_keeps part mem fns homes, ringWrite_keeps part mem fns, ite_self]

end

theorem markRead_noteOf_tick (s : State) (unit : Nat) (p : Packet) (k n : Nat) : (markRead (noteOf s unit p) k n).tick = s.tick :=
  (congrArg State.tick (markRead_marksOnly (noteOf s unit p) k n)).trans
    (homeNote_keeps State.tick (fun _ _ => rfl) (fun _ _ _ => rfl) (fun _ _ _ => rfl) _ _ _ _ _ _ _)

/-- An access parked after the records of its request, until wl ticks from now. -/
theorem parkAt_noted (s : State) (unit : Nat) (p : Packet) (kind : ParkKind) (k wl : Nat) :
    parkAt (markRead (noteOf s unit p) k 8) unit p kind k (wlTicks wl) = modHome (markRead (noteOf s unit p) k 8) unit fun h => { h with parked := h.parked ++
      [{ kind := kind, key := k, deadline := if wl = 0 then none else some (s.tick.toNat + wl), src := p.src
         slack := slackLeft s.tick.toNat p, late := lateAge s.tick.toNat p }] } := by
  have now : tickN (markRead (noteOf s unit p) k 8) = s.tick.toNat := congrArg BitVec.toNat (markRead_noteOf_tick s unit p k 8)
  have limit : (wlTicks wl).map (s.tick.toNat + ·) = if wl = 0 then none else some (s.tick.toNat + wl) := by
    unfold wlTicks
    split <;> rfl
  unfold parkAt
  rw [now, limit]

/-! ### Barriers (R318) -/

/-- The count that arrivals go up to: the first arrival's own, else the word's. -/
def barSize (w n : Nat) : Nat := if w % 2 ^ 16 = 0 then n else w / 2 ^ 32 % 2 ^ 16

/-- One parked arrival answered, when it waits at the word k. -/
def answerBar (unit k : Nat) (s : State) (x : Parked) : State :=
  match x.kind with
  | .bar _ r => if x.key = k then
      parkedReply (modHome s unit fun h => { h with parked := h.parked.filter fun y => y != x }) unit 16 x r .ok
    else s
  | _ => s

theorem mem_markRead (s : State) (k n : Nat) : (markRead s k n).mem = s.mem := (markRead_marksOnly s k n).mem

/-- The upper fields of a word in memory. -/
theorem word_phase (s : State) (k : Nat) : memRead s.mem k 8 / 2 ^ 48 % 2 ^ 16 = memRead s.mem k 8 / 2 ^ 48 := by
  have : memRead s.mem k 8 < 256 ^ 8 := memRead_lt _ k 8
  omega

/-- BAR at its home by the word's value. -/
theorem perform_bar_eq {n wl : Nat} (hb : p.body = .bar k n wl r) {w : Nat} (hw : memRead (noteOf s unit p).mem k 8 = w) :
    let s0 := markRead (noteOf s unit p) k 8
    perform s unit p =
      if w / 2 ^ 16 % 2 ^ 16 ≠ 0 ∨ (w / 2 ^ 32 % 2 ^ 16 = 0 ∧ w % 2 ^ 16 ≠ 0) then reply s0 16 unit p r (.fault 0x12 (retVa r))
      else if w % 2 ^ 16 ≠ 0 ∧ n ≠ w / 2 ^ 32 % 2 ^ 16 then reply s0 16 unit p r (.fault 0x08 (retVa r))
      else if w % 2 ^ 16 + 1 = barSize w n then
        homeWrite (reply ((getHome s0 unit).parked.foldl (answerBar unit k) s0) 16 unit p r .ok) k 8 ((w / 2 ^ 48 + 1) % 2 ^ 16 * 2 ^ 48)
      else homeWrite (parkAt s0 unit p (.bar n r) k (wlTicks wl)) k 8 (w / 2 ^ 48 * 2 ^ 48 + barSize w n * 2 ^ 32 + (w % 2 ^ 16 + 1)) := by
  subst hw
  have performed : perform s unit p = barPerform s unit p k n wl r := by
    unfold perform
    rw [hb]
  have high := (fld_memRead (noteOf s unit p).mem k 63 48).trans (word_phase _ k)
  have count := fld_memRead (noteOf s unit p).mem k 47 32
  have zero := fld_memRead (noteOf s unit p).mem k 31 16
  have low := (fld_memRead (noteOf s unit p).mem k 15 0).trans (by rw [pow_zero, Nat.div_one])
  rw [performed]
  unfold barPerform barSize
  simp only [mem_markRead]
  rw [high, count, zero, low]
  simp only [Bool.or_eq_true, Bool.and_eq_true, bne_iff_ne, beq_iff_eq]
  rfl

section
variable {n wl w : Nat} (hb : p.body = .bar k n wl r) (hw : memRead (noteOf s unit p).mem k 8 = w)
include hb hw

theorem perform_bar_bad (bad : w / 2 ^ 16 % 2 ^ 16 ≠ 0 ∨ (w / 2 ^ 32 % 2 ^ 16 = 0 ∧ w % 2 ^ 16 ≠ 0)) :
    perform s unit p = reply (markRead (noteOf s unit p) k 8) 16 unit p r (.fault 0x12 (retVa r)) :=
  (perform_bar_eq hb hw).trans (if_pos bad)

variable (good : ¬ (w / 2 ^ 16 % 2 ^ 16 ≠ 0 ∨ (w / 2 ^ 32 % 2 ^ 16 = 0 ∧ w % 2 ^ 16 ≠ 0)))
include good

theorem perform_bar_differs (later : w % 2 ^ 16 ≠ 0) (other : n ≠ w / 2 ^ 32 % 2 ^ 16) :
    perform s unit p = reply (markRead (noteOf s unit p) k 8) 16 unit p r (.fault 0x08 (retVa r)) :=
  (perform_bar_eq hb hw).trans ((if_neg good).trans (if_pos ⟨later, other⟩))

theorem perform_bar_parks (same : w % 2 ^ 16 = 0 ∨ n = w / 2 ^ 32 % 2 ^ 16) (more : w % 2 ^ 16 + 1 ≠ barSize w n) :
    perform s unit p = homeWrite (parkAt (markRead (noteOf s unit p) k 8) unit p (.bar n r) k (wlTicks wl)) k 8
      (w / 2 ^ 48 * 2 ^ 48 + barSize w n * 2 ^ 32 + (w % 2 ^ 16 + 1)) :=
  (perform_bar_eq hb hw).trans ((if_neg good).trans ((if_neg fun h => same.elim h.1 h.2).trans (if_neg more)))

theorem perform_bar_last (same : w % 2 ^ 16 = 0 ∨ n = w / 2 ^ 32 % 2 ^ 16) (last : w % 2 ^ 16 + 1 = barSize w n) :
    let s0 := markRead (noteOf s unit p) k 8
    perform s unit p =
      homeWrite (reply ((getHome s0 unit).parked.foldl (answerBar unit k) s0) 16 unit p r .ok) k 8 ((w / 2 ^ 48 + 1) % 2 ^ 16 * 2 ^ 48) :=
  (perform_bar_eq hb hw).trans ((if_neg good).trans ((if_neg fun h => same.elim h.1 h.2).trans (if_pos last)))

end

theorem foldl_answerBar_none {l : List Parked} (h : ∀ x ∈ l, x.key ≠ k) : l.foldl (answerBar unit k) s = s := by
  induction l with
  | nil => rfl
  | cons x l ih =>
    have passed : answerBar unit k s x = s := by
      unfold answerBar
      split
      · rw [if_neg (h x List.mem_cons_self)]
      · rfl
    rw [List.foldl_cons, passed, ih fun y hy => h y (List.mem_cons_of_mem _ hy)]

theorem answerBar_only {x : Parked} {m : Nat} {r' : Ret} (only : (getHome s unit).parked = [x]) (kind : x.kind = .bar m r') (key : x.key = k) :
    answerBar unit k s x = parkedReply (modHome s unit fun h => { h with parked := [] }) unit 16 x r' .ok := by
  have alone : modHome s unit (fun h => { h with parked := h.parked.filter fun y => y != x }) = modHome s unit fun h => { h with parked := [] } := by
    unfold modHome
    dsimp only
    rw [only, List.filter_cons_of_neg (by simp), List.filter_nil]
  unfold answerBar
  rw [kind]
  dsimp only
  rw [if_pos key, alone]

/-! ### PARKs (R356) -/

section
variable {e : Word} {wl u ctx : Nat} {a pc : Word} (hb : p.body = .park k e wl u ctx a pc r)
include hb

theorem perform_park : perform s unit p = parkPerform s unit p k e wl u ctx a pc r := by
  unfold perform
  rw [hb]

theorem perform_park_differs (other : wd (memRead (noteOf s unit p).mem k 8) ≠ e) :
    perform s unit p = reply (markRead (noteOf s unit p) k 8) 16 unit p r .ok := by
  rw [perform_park hb, parkPerform, mem_markRead]
  exact if_pos (bne_iff_ne.mpr other)

theorem perform_park_waits (equal : wd (memRead (noteOf s unit p).mem k 8) = e) :
    perform s unit p = reply (parkAt (markRead (noteOf s unit p) k 8) unit p (.park e u ctx a pc) k (wlTicks wl)) 16 unit p r .waits := by
  rw [perform_park hb, parkPerform, mem_markRead]
  exact if_neg (by rw [bne_iff_ne]; exact not_not_intro equal)

end

/-! ### Join records (R353, R354) -/

theorem perform_join (h : (∃ r, p.body = .joinInc k r) ∨ (∃ a u r, p.body = .joinSync k a u r) ∨ ∃ ctx, p.body = .joinRet k ctx) :
    perform s unit p = joinPerform s unit p := by
  unfold perform
  rcases h with ⟨r, hb⟩ | ⟨a, u, r, hb⟩ | ⟨ctx, hb⟩ <;> rw [hb]

theorem perform_joinInc (hb : p.body = .joinInc k r) :
    perform s unit p = reply (homeWrite (noteOf s unit p) k 8 (memRead (noteOf s unit p).mem k 8 + 1)) 16 unit p r .ok := by
  rw [perform_join (.inl ⟨r, hb⟩), joinPerform, hb]

theorem perform_joinSync {a : Word} {u : Nat} (hb : p.body = .joinSync k a u r) :
    perform s unit p = if memRead (noteOf s unit p).mem k 8 = 0 then reply (noteOf s unit p) 16 unit p r .ok
      else reply (homeWrite (noteOf s unit p) (k + 8) 8 a.toNat) 16 unit p r .waits := by
  rw [perform_join (.inr (.inl ⟨a, u, r, hb⟩)), joinPerform, hb]

/-- A return lowers the count, and the last one enqueues the parent that waits. -/
theorem perform_joinRet {ctx n : Nat} (hb : p.body = .joinRet k ctx) (hn : memRead (noteOf s unit p).mem k 8 + 2 ^ 64 - 1 = n) :
    let t := homeWrite (noteOf s unit p) k 8 n
    let a := wd (memRead t.mem (k + 8) 8)
    perform s unit p = if n % 2 ^ 64 = 0 ∧ a ≠ 0 then enqueueRec (homeWrite t (k + 8) 8 0) unit ctx a else t := by
  intro t a
  have performed : perform s unit p = if (decide (n % 2 ^ 64 = 0) && a != 0) = true then enqueueRec (homeWrite t (k + 8) 8 0) unit ctx a else t := by
    rw [perform_join (.inr (.inr ⟨ctx, hb⟩)), joinPerform, hb]
    simp only [hn]
    rfl
  refine performed.trans (if_congr ?_ rfl rfl)
  rw [Bool.and_eq_true, decide_eq_true_iff, bne_iff_ne]

/-! ### Resume cells (R357) -/

variable {kr ctx u : Nat} {ws : List Word} {v : Word}

theorem perform_cell (h : (∃ c ws u ctx r, p.body = .susp c ws u ctx r) ∨ ∃ c v ctx r, p.body = .resume c v ctx r) :
    perform s unit p = cellPerform s unit p := by
  unfold perform
  rcases h with ⟨c, ws, u, ctx, r, hb⟩ | ⟨c, v, ctx, r, hb⟩ <;> rw [hb]

/-- SUSP at a cell of good form, by the cell's state. -/
theorem perform_susp (hb : p.body = .susp (k, kr) ws u ctx r) (good : cellBad (markRead (noteOf s unit p) k 64) k = false) :
    let s0 := markRead (noteOf s unit p) k 64
    (memRead s0.mem k 8 = 2 → perform s unit p = reply (homeWrite s0 k 8 0) 16 unit p r (.words [wd (memRead s0.mem (k + 8) 8)])) ∧
    (memRead s0.mem k 8 = 0 →
      perform s unit p = reply (noteRec (homeWrite (homeWriteL s0 kr (wordBytes ws)) k 8 1) (cellTag ctx) (wd kr) u) 16 unit p r .waits) ∧
    (memRead s0.mem k 8 = 1 → perform s unit p = reply s0 16 unit p r (.fault 0x08 (retVa r))) := by
  intro s0
  rw [perform_cell (.inl ⟨_, _, _, _, _, hb⟩)]
  unfold cellPerform
  simp only [hb]
  rw [if_neg (by rw [good]; decide)]
  refine ⟨fun state => ?_, fun state => ?_, fun state => ?_⟩ <;> rw [state] <;> rfl

/-- RESUME at a cell of good form that holds no record leaves its value. -/
theorem perform_resume (hb : p.body = .resume (k, kr) v ctx r) (good : cellBad (markRead (noteOf s unit p) k 64) k = false) :
    let s0 := markRead (noteOf s unit p) k 64
    (memRead s0.mem k 8 = 0 → perform s unit p = reply (homeWrite (homeWrite s0 k 8 2) (k + 8) 8 v.toNat) 16 unit p r (.words [0])) ∧
    (memRead s0.mem k 8 = 2 → perform s unit p = reply (homeWrite s0 (k + 8) 8 v.toNat) 16 unit p r (.words [2])) := by
  intro s0
  rw [perform_cell (.inr ⟨_, _, _, _, hb⟩)]
  unfold cellPerform
  simp only [hb]
  rw [if_neg (by rw [good]; decide)]
  constructor <;> intro state <;> rw [state] <;> rfl

/-- RESUME of a cell that holds a record: another context's is refused, the own one's owner is enqueued with the value. -/
theorem perform_resume_held (hb : p.body = .resume (k, kr) v ctx r) (good : cellBad (markRead (noteOf s unit p) k 64) k = false)
    (state : memRead (markRead (noteOf s unit p) k 64).mem k 8 = 1) :
    let s0 := markRead (noteOf s unit p) k 64
    let ws := (List.range 8).map fun i => wd (memRead s0.mem (kr + 8 * i) 8)
    let t := homeWrite (markRead s0 kr 64) k 8 0
    (fld (wAt ws 1) 31 16 ≠ ctx → perform s unit p = reply s0 16 unit p r (.fault 0x08 (retVa r))) ∧
    (∀ u, fld (wAt ws 1) 31 16 = ctx → eccStatus s0 kr 64 = 0 → recUid t (cellTag ctx) (wd kr) = some u →
      perform s unit p = sendEnqueue (reply (modCont t u fun c => { c with a0 := some v }) 16 unit p r (.words [1])) unit u (.held ws)) := by
  intro s0 ws t
  rw [perform_cell (.inr ⟨_, _, _, _, hb⟩)]
  unfold cellPerform
  simp only [hb]
  rw [if_neg (by rw [good]; decide), state]
  refine ⟨fun other => if_pos (bne_iff_ne.mpr other), fun u own ecc found => ?_⟩
  refine (if_neg (by rw [bne_iff_ne]; exact not_not_intro own)).trans ?_
  rw [if_pos ecc, found]

/-! ### Deadlines (R311, R318, R356) -/

theorem dueAt_due {i : Nat} {x : Parked} {d : Nat} (hx : (getHome s unit).parked[i]? = some x) (hd : x.deadline = some d) (due : d ≤ s.tick.toNat) :
    dueAt s unit i = some x := by
  unfold dueAt
  rw [hx]
  dsimp only
  rw [hd]
  exact if_pos due

theorem syncCls_eq (op : SyncOp) : syncCls op = if op.kind = 2 ∨ op.kind = 3 then 17 else 16 :=
  if_congr (by simp) rfl rfl

theorem exec_deadlines {i : Nat} {x : Parked} (due : dueAt s unit i = some x) :
    (∀ op, x.kind = .sync op → exec (.syncDeadline unit i) s = .next (parkedReply (unpark s unit x) unit (syncCls op) x op.ret (.fault 0x09 op.va))) ∧
    (∀ n r, x.kind = .bar n r → exec (.barDeadline unit i) s = .next (parkedReply (unpark s unit x) unit 16 x r (.fault 0x0A 0))) ∧
    (∀ e u ctx a pc, x.kind = .park e u ctx a pc → exec (.parkDeadline unit i) s =
      .next (sendEnqueue (modCont (unpark s unit x) u fun k => { k with deliv := some (.failAt 0x0A 0 pc) }) unit u (.mem a))) := by
  refine ⟨fun op hk => ?_, fun n r hk => ?_, fun e u ctx a pc hk => ?_⟩
  · show execSyncDeadline unit i s = _
    simp only [execSyncDeadline, due, hk]
  · show execBarDeadline unit i s = _
    simp only [execBarDeadline, due, hk]
  · show execParkDeadline unit i s = _
    simp only [execParkDeadline, due, hk]

/-- Settles O48, from what each request does at its home and what a deadline does to a parked access. -/
theorem homeWaits : Obligations.HomeWaits := by
  unfold Obligations.HomeWaits
  intro s unit p s1 out word park
  refine ⟨fun k n wl r hb => ?_, fun k e wl u ctx a pc r hb => ?_, fun k r hb => ?_, fun k a u r hb => ?_, fun k ctx hb => ⟨fun more => ?_, fun last => ?_⟩,
    fun k kr ws u ctx r hb good => ?_, fun k kr v ctx r hb good => ?_, fun i x hx d hd due => ?_⟩
  · intro s0 phase c a bad size
    refine ⟨perform_bar_bad hb rfl, perform_bar_differs hb rfl, fun good same more => ?_, fun good same last absent => ?_,
      fun m r' x good same last only kind key => ?_⟩
    · refine (perform_bar_parks hb rfl good same more).trans ?_
      rw [parkAt_noted]
      rfl
    · refine (perform_bar_last hb rfl good same last).trans ?_
      rw [foldl_answerBar_none absent]
    · refine (perform_bar_last hb rfl good (.inr same) last).trans ?_
      rw [only, List.foldl_cons, List.foldl_nil, answerBar_only only kind key]
  · refine ⟨perform_park_differs hb, fun equal => ?_⟩
    refine (perform_park_waits hb equal).trans ?_
    rw [parkAt_noted]
  · exact perform_joinInc hb
  · exact ⟨fun h => (perform_joinSync hb).trans (if_pos h), fun h => (perform_joinSync hb).trans (if_neg h)⟩
  · have small : word k < 256 ^ 8 := memRead_lt _ k 8
    have count : word k + 2 ^ 64 - 1 = word k - 1 + 2 ^ 64 := by omega
    exact (perform_joinRet hb count).trans (if_neg fun h => by omega)
  · have count : word k + 2 ^ 64 - 1 = 2 ^ 64 := by omega
    intro t a
    refine (perform_joinRet hb count).trans ?_
    rw [Nat.mod_self]
    by_cases nobody : a = 0
    · exact (if_neg fun h => h.2 nobody).trans (if_pos nobody).symm
    · exact (if_pos ⟨rfl, nobody⟩).trans (if_neg nobody).symm
  · have state := mem_markRead s1 k 64
    obtain ⟨full, empty, held⟩ := perform_susp hb good
    rw [state] at full empty held
    exact ⟨full, empty, held⟩
  · have state := mem_markRead s1 k 64
    obtain ⟨empty, full⟩ := perform_resume hb good
    rw [state] at empty full
    refine ⟨empty, full, fun held => ?_⟩
    exact perform_resume_held hb good (by rw [state]; exact held)
  · simp only [← syncCls_eq]
    exact exec_deadlines (dueAt_due hx hd due)

end Sys2Proof.Proofs
end

section
/-!
PROOFS. SYNC, RETC and TEXIT: what a thread with children sends, what the replies make of it, and how a continuation ends (R354, R358).
-/

namespace Sys2Proof.Proofs

open Sys2Proof.Machine Sys2Proof.Laws Sys2Proof.Claim

variable {s s1 : State} {k h : Nat} {c : BitVec 8} {v : Word}

theorem exec_sync (s : State) : exec .sync s = execSync s := rfl
theorem exec_retc (s : State) : exec .retc s = execRetc s := rfl
theorem exec_texit (s : State) : exec .texit s = execTexit s := rfl

/-! ### The wait for the children (R354) -/

section
variable {len : Word} {enc : BitVec 32} {pc0 : Word} {go : State → X State}

/-- A thread that may be suspended asks its frame's home. -/
theorem syncBody_asks (res : (getSlot s s.cur).res = none) (may : MaySuspend s) (frame : homeKey (envOf len enc s) (framePtr s) 3 = .ok k)
    (home : homeOf k = some h)
    (written : writeOut (envOf len enc s) (modSlot s s.cur fun sl => { sl with csr := { sl.csr with spawned := false } }) pc0 = .ok s1) :
    syncBody (envOf len enc s) pc0 go = .error (.keep (requestSent s (noted s s1) [BitVec.ofNat 64 (bit (getSlot s s.cur).csr.spawned)] [] 11
      (dskOf (getSlot s s.cur)) h (.joinSync k (framePtr s + 64) (uidOf s) (.thread s.cur (uidOf s) (framePtr s))))) := by
  have pass := suspendable len enc may
  have light : (getSlot s s.cur).handler = none := may.1
  have frame : homeKey (envOf len enc s) (regGet s s.cur (getSlot s s.cur) 2) 3 = .ok k := frame
  have written : writeOut (envOf len enc s) (modCsr s s.cur fun r => { r with spawned := false }) pc0 = .ok s1 := written
  unfold syncBody
  simp only [envOf_s, envOf_sl, envOf_t, res, pass.late, light, pass.room, pass.drained, frame, written, unitOf', home, Option.getD_some, Option.isSome_none,
    Bind.bind, Except.bind, Bool.false_eq_true, if_false]
  rfl

theorem syncBody_goes (res : (getSlot s s.cur).res = some .ok) : syncBody (envOf len enc s) pc0 go = go s := by
  simp only [syncBody, envOf_sl, envOf_s, res]

theorem syncBody_waits (res : (getSlot s s.cur).res = some .waits) :
    syncBody (envOf len enc s) pc0 go = .ok (leave (envOf len enc s) s) := by
  simp only [syncBody, envOf_sl, envOf_s, res, pure, Except.pure]

theorem syncBody_faults (res : (getSlot s s.cur).res = some (.fault c v)) :
    syncBody (envOf len enc s) pc0 go = .error (.trapIn
      (modSlot s s.cur fun sl => { sl with csr := { sl.csr with spawned := decide ((getSlot s s.cur).ph.getD 0 0 ≠ 0) } }) c v (getSlot s s.cur).pc) := by
  have flag : (wAt (getSlot s s.cur).ph 0 != 0) = decide ((getSlot s s.cur).ph.getD 0 0 ≠ 0) := by
    rw [Bool.eq_iff_iff, bne_iff_ne, decide_eq_true_iff, wAt]
  simp only [syncBody, envOf_sl, envOf_s, envOf_t, res, flag]
  rfl

end

/-! ### SYNC -/

section
variable (runs : Runs s)
include runs

theorem sync_asks (res : (getSlot s s.cur).res = none) (may : MaySuspend s) (frame : homeKey (envOf 4 Enc.sync s) (framePtr s) 3 = .ok k)
    (home : homeOf k = some h)
    (written : writeOut (envOf 4 Enc.sync s) (modSlot s s.cur fun sl => { sl with csr := { sl.csr with spawned := false } })
      ((getSlot s s.cur).pc + 4) = .ok s1) :
    exec .sync s = .next (requestSent s (noted s s1) [BitVec.ofNat 64 (bit (getSlot s s.cur).csr.spawned)] [] 11
      (dskOf (getSlot s s.cur)) h (.joinSync k (framePtr s + 64) (uidOf s) (.thread s.cur (uidOf s) (framePtr s)))) := by
  rw [exec_sync]
  exact thr_stop runs.1 runs.2 (st := .keep _) (syncBody_asks res may frame home written)

theorem sync_goes (res : (getSlot s s.cur).res = some .ok) : exec .sync s = .next (done (envOf 4 Enc.sync s) s) := by
  rw [exec_sync]
  exact thr_next runs.1 runs.2 (syncBody_goes res)

theorem sync_waits (res : (getSlot s s.cur).res = some .waits) : exec .sync s = .next (leave (envOf 4 Enc.sync s) s) := by
  rw [exec_sync]
  exact thr_next runs.1 runs.2 (syncBody_waits res)

/-- The state in which a fault of the join operation is taken: spawned set back. -/
theorem sync_faults (res : (getSlot s s.cur).res = some (.fault c v)) :
    exec .sync s = .next (takeTrap (modSlot s s.cur fun sl => { sl with csr := { sl.csr with spawned := decide ((getSlot s s.cur).ph.getD 0 0 ≠ 0) } })
      s.cur c v (getSlot s s.cur).pc) := by
  rw [exec_sync]
  exact thr_stop runs.1 runs.2 (st := .trapIn _ c v _) (syncBody_faults res)

end

/-! ### The end of a continuation (R195, R196, R354, R358) -/

theorem exitChecks_pass (len : Word) (enc : BitVec 32) (may : MayEnd s) : exitChecks (envOf len enc s) = .ok () := by
  obtain ⟨ring, late, stores⟩ := may
  have clean : report (envOf len enc s) s true (fun _ _ => true) = .ok () := report_clean late
  have released : release (envOf len enc s) = .ok () := if_pos stores
  simp only [exitChecks, envOf_s, envOf_sl, ring, clean, released, await, Bind.bind, Except.bind, Bool.not_false, if_true]

theorem exitLate_clean (len : Word) (enc : BitVec 32) (late : NoLate s) : exitLate (envOf len enc s) = .ok () := by
  unfold exitLate
  rw [envOf_sl, covered_eq_nil late]
  simp

theorem exitLate_replied (len : Word) (enc : BitVec 32) {r : Res} (replied : (getSlot s s.cur).res = some r) : exitLate (envOf len enc s) = .ok () := by
  simp [exitLate, firstIssue, replied]

/-- A thread without children left: SYNC's reply has come, or it has spawned none. -/
def Childless (sl : Slot) : Prop := sl.res = some .ok ∨ (sl.res = none ∧ sl.csr.spawned = false)

/-- The part of RETC and TEXIT after their SYNC. -/
theorem synced {len : Word} {enc : BitVec 32} {pc0 : Word} {go : State → X State} (childless : Childless (getSlot s s.cur)) :
    (if syncing (envOf len enc s) then syncBody (envOf len enc s) pc0 go else go s) = go s := by
  rcases childless with res | ⟨res, spawned⟩
  · rw [syncBody_goes res, ite_self]
  · exact if_neg (by simp [syncing, res, spawned])

section
variable (runs : Runs s)
include runs

/-! ### RETC -/

theorem retc_asks (spawned : (getSlot s s.cur).csr.spawned = true) (res : (getSlot s s.cur).res = none) (may : MaySuspend s)
    (frame : homeKey (envOf 4 Enc.retc s) (framePtr s) 3 = .ok k) (home : homeOf k = some h)
    (written : writeOut (envOf 4 Enc.retc s) (modSlot s s.cur fun sl => { sl with csr := { sl.csr with spawned := false } })
      (getSlot s s.cur).pc = .ok s1) :
    exec .retc s = .next (requestSent s (noted s s1) [BitVec.ofNat 64 (bit (getSlot s s.cur).csr.spawned)] [] 11
      (dskOf (getSlot s s.cur)) h (.joinSync k (framePtr s + 64) (uidOf s) (.thread s.cur (uidOf s) (framePtr s)))) := by
  rw [exec_retc]
  refine thr_stop runs.1 runs.2 (st := .keep _) ?_
  exact (if_pos (by simp [syncing, spawned])).trans (syncBody_asks res may frame home written)

theorem retc_faults (res : (getSlot s s.cur).res = some (.fault c v)) :
    exec .retc s = .next (takeTrap (modSlot s s.cur fun sl => { sl with csr := { sl.csr with spawned := decide ((getSlot s s.cur).ph.getD 0 0 ≠ 0) } })
      s.cur c v (getSlot s s.cur).pc) := by
  rw [exec_retc]
  refine thr_stop runs.1 runs.2 (st := .trapIn _ c v _) ?_
  exact (if_pos (by simp [syncing, res])).trans (syncBody_faults res)

theorem retc_waits (res : (getSlot s s.cur).res = some .waits) : exec .retc s = .next (leave (envOf 4 Enc.retc s) s) := by
  rw [exec_retc]
  refine thr_next runs.1 runs.2 ?_
  exact (if_pos (by simp [syncing, res])).trans (syncBody_waits res)

theorem retc_ends (childless : Childless (getSlot s s.cur)) (may : MayEnd s) (orphan : (getSlot s s.cur).join = 0) :
    exec .retc s = .next (endSlot s s.cur) := by
  rw [exec_retc]
  refine thr_next runs.1 runs.2 ?_
  refine (synced childless).trans ?_
  simp only [exitChecks_pass 4 Enc.retc may, envOf_sl, envOf_t, orphan, Bind.bind, Except.bind, pure, Except.pure, if_true]

theorem retc_returns (childless : Childless (getSlot s s.cur)) (may : MayEnd s) (joins : (getSlot s s.cur).join ≠ 0)
    (record : homeKey (envOf 4 Enc.retc s) (getSlot s s.cur).join 3 = .ok k) (home : homeOf k = some h) :
    exec .retc s = .next (endSlot (send s 11 (dskOf (getSlot s s.cur)) (coreUnit s.cur.core) h (.joinRet k (getSlot s s.cur).ctx)) s.cur) := by
  rw [exec_retc]
  refine thr_next runs.1 runs.2 ?_
  refine (synced childless).trans ?_
  simp only [exitChecks_pass 4 Enc.retc may, envOf_sl, envOf_t, joins, record, unitOf', home, Option.getD_some, Bind.bind, Except.bind, pure, Except.pure,
    if_false]

/-! ### TEXIT -/

/-- TEXIT answers what its SYNC and its end answer, where it has no late fault to report, runs in no light handler and has no join. -/
theorem texit_answers {r : X State} (late : exitLate (envOf 4 Enc.texit s) = .ok ())
    (light : (syncing (envOf 4 Enc.texit s) && firstIssue (envOf 4 Enc.texit s) && (getSlot s s.cur).handler.isSome) = false)
    (orphan : (getSlot s s.cur).join = 0)
    (rest : ∀ go : State → X State, (exitChecks (envOf 4 Enc.texit s) = .ok () → go s = .ok (endSlot s s.cur)) →
      (if syncing (envOf 4 Enc.texit s) then syncBody (envOf 4 Enc.texit s) (getSlot s s.cur).pc go else go s) = r) :
    exec .texit s = thr 4 Enc.texit s fun _ => r := by
  have joined : need ((getSlot s s.cur).join == 0) 0x08 (getSlot s s.cur).join = .ok () := if_pos (beq_iff_eq.mpr orphan)
  rw [exec_texit, execTexit, thr_eq runs.1 runs.2, thr_eq runs.1 runs.2]
  simp only [late, envOf_sl, light, joined, Bind.bind, Except.bind, pure, Except.pure, Bool.false_eq_true, if_false]
  congr 2
  exact rest _ fun pass => by rw [pass]; rfl

/-- TEXIT with a reply: it is no first issue. -/
theorem texit_replied {r : X State} {a : Res} (res : (getSlot s s.cur).res = some a) (orphan : (getSlot s s.cur).join = 0)
    (rest : ∀ go : State → X State, syncBody (envOf 4 Enc.texit s) (getSlot s s.cur).pc go = r) : exec .texit s = thr 4 Enc.texit s fun _ => r := by
  refine texit_answers runs (exitLate_replied 4 Enc.texit res) (by simp [firstIssue, res]) orphan fun go _ => ?_
  exact (if_pos (by simp [syncing, res])).trans (rest go)

theorem texit_asks (orphan : (getSlot s s.cur).join = 0) (spawned : (getSlot s s.cur).csr.spawned = true) (res : (getSlot s s.cur).res = none)
    (may : MaySuspend s) (frame : homeKey (envOf 4 Enc.texit s) (framePtr s) 3 = .ok k) (home : homeOf k = some h)
    (written : writeOut (envOf 4 Enc.texit s) (modSlot s s.cur fun sl => { sl with csr := { sl.csr with spawned := false } })
      (getSlot s s.cur).pc = .ok s1) :
    exec .texit s = .next (requestSent s (noted s s1) [BitVec.ofNat 64 (bit (getSlot s s.cur).csr.spawned)] [] 11
      (dskOf (getSlot s s.cur)) h (.joinSync k (framePtr s + 64) (uidOf s) (.thread s.cur (uidOf s) (framePtr s)))) := by
  have clean := exitLate_clean 4 Enc.texit (noFault_of_drained may.2.2)
  refine (texit_answers runs clean (by simp [may.1]) orphan fun go _ => ?_).trans (thr_stop runs.1 runs.2 (st := .keep _) rfl)
  exact (if_pos (by simp [syncing, spawned])).trans (syncBody_asks res may frame home written)

theorem texit_waits (orphan : (getSlot s s.cur).join = 0) (res : (getSlot s s.cur).res = some .waits) :
    exec .texit s = .next (leave (envOf 4 Enc.texit s) s) :=
  (texit_replied runs res orphan fun _ => syncBody_waits res).trans (thr_next runs.1 runs.2 rfl)

theorem texit_faults (orphan : (getSlot s s.cur).join = 0) (res : (getSlot s s.cur).res = some (.fault c v)) :
    exec .texit s = .next (takeTrap (modSlot s s.cur fun sl => { sl with csr := { sl.csr with spawned := decide ((getSlot s s.cur).ph.getD 0 0 ≠ 0) } })
      s.cur c v (getSlot s s.cur).pc) :=
  (texit_replied runs res orphan fun _ => syncBody_faults res).trans (thr_stop runs.1 runs.2 (st := .trapIn _ c v _) rfl)

theorem texit_ends (orphan : (getSlot s s.cur).join = 0) (childless : Childless (getSlot s s.cur)) (may : MayEnd s) :
    exec .texit s = .next (endSlot s s.cur) := by
  have light : (syncing (envOf 4 Enc.texit s) && firstIssue (envOf 4 Enc.texit s) && (getSlot s s.cur).handler.isSome) = false := by
    rcases childless with res | ⟨res, spawned⟩
    · simp [firstIssue, res]
    · simp [syncing, res, spawned]
  refine (texit_answers runs (exitLate_clean 4 Enc.texit may.2.1) light orphan fun go ends => ?_).trans (thr_next runs.1 runs.2 rfl)
  exact (synced childless).trans (ends (exitChecks_pass 4 Enc.texit may))

theorem texit_light (late : NoLate s) (spawned : (getSlot s s.cur).csr.spawned = true) (res : (getSlot s s.cur).res = none)
    (deliv : (getSlot s s.cur).deliv = none) (ph : (getSlot s s.cur).ph = []) (light : (getSlot s s.cur).handler ≠ none) :
    exec .texit s = .next (takeTrap s s.cur 0x01 ((encode .texit).setWidth 64) (getSlot s s.cur).pc) := by
  have stops : (syncing (envOf 4 Enc.texit s) && firstIssue (envOf 4 Enc.texit s) && (getSlot s s.cur).handler.isSome) = true := by
    simp [syncing, firstIssue, spawned, res, deliv, ph, Option.isSome_iff_ne_none.mpr light]
  rw [exec_texit]
  refine thr_stop runs.1 runs.2 (st := .trap 0x01 (Enc.texit.setWidth 64)) ?_
  simp only [exitLate_clean 4 Enc.texit late, envOf_sl, stops, illegal, envOf_enc, trapX, Bind.bind, Except.bind, if_true]

theorem texit_joined (late : NoLate s) (joins : (getSlot s s.cur).join ≠ 0) (plain : (getSlot s s.cur).handler = none) :
    exec .texit s = .next (takeTrap s s.cur 0x08 (getSlot s s.cur).join (getSlot s s.cur).pc) := by
  have refused : need ((getSlot s s.cur).join == 0) 0x08 (getSlot s s.cur).join = .error (.trap 0x08 (getSlot s s.cur).join) :=
    if_neg fun orphan => joins (beq_iff_eq.mp orphan)
  rw [exec_texit]
  refine thr_stop runs.1 runs.2 (st := .trap 0x08 (getSlot s s.cur).join) ?_
  simp only [exitLate_clean 4 Enc.texit late, envOf_sl, plain, refused, Option.isSome_none, Bind.bind, Except.bind, Bool.and_false,
    Bool.false_eq_true, if_false]

end

/-! ### The slot afterwards (R87, R352, R354) -/

theorem getSlot_endSlot {t : Tid} (full : (getSlot s t).uid.isSome = true) : getSlot (endSlot s t) t = emptied (getSlot s t) := by
  obtain ⟨u, hu⟩ := Option.isSome_iff_exists.mp full
  unfold endSlot
  simp only [hu, getSlot_setSlot_same]
  rfl

theorem getSlot_noteLeft (s : State) (t : Tid) (sl : Slot) (addr : Word) (t' : Tid) : getSlot (noteLeft s t sl addr) t' = getSlot s t' := by
  unfold noteLeft noteCont
  cases sl.uid <;> rfl

theorem getSlot_leave {e : Env} (own : e.sl = getSlot e.s e.t) {u : Nat} (full : e.sl.uid = some u) :
    getSlot (leave e e.s) e.t = if e.sl.ports then
      { e.sl with uid := none, resv := some u, wait := none, ph := [], res := none, xf := [], demand := none, deliv := none } else emptied e.sl := by
  unfold leave freeSlot
  rw [getSlot_modSlot_same, getSlot_noteLeft, ← own]
  simp only [full]
  rfl

/-- Joins and ends, from what each instruction does in each of its phases. -/
theorem joinResults : Claim.JoinResults := by
  refine ⟨fun s runs => ?_, fun s t full => getSlot_endSlot full, fun e own full leaves => ?_, fun e own u full stays => ?_⟩
  · intro sl e asks waits fails ready
    refine ⟨fun res may k h s1 frame home written => sync_asks runs res may frame home written, sync_waits runs, fun c v => sync_faults runs, sync_goes runs,
      fun spawned res may k h s1 frame home written => retc_asks runs spawned res may frame home written, retc_waits runs, fun c v => retc_faults runs,
      fun ready orphan => retc_ends runs ready.1 ready.2 orphan, fun ready joins k h record home => retc_returns runs ready.1 ready.2 joins record home,
      texit_light runs, texit_joined runs, fun orphan => ⟨?_, texit_waits runs orphan, fun c v => texit_faults runs orphan,
      fun ready => texit_ends runs orphan ready.1 ready.2⟩⟩
    exact fun spawned res may k h s1 frame home written => texit_asks runs orphan spawned res may frame home written
  · obtain ⟨u, hu⟩ := Option.isSome_iff_exists.mp full
    rw [getSlot_leave own hu, if_neg (by simp [leaves])]
  · rw [getSlot_leave own full, if_pos stays]
    exact ⟨rfl, rfl⟩

end Sys2Proof.Proofs
end

section
/-!
PROOFS. SPAWN: what it refuses, and the child that takes the slot while the parent's record goes to the deque (R79, R89, R352, R353).
-/

namespace Sys2Proof.Proofs

open Sys2Proof.Machine Sys2Proof.Laws Sys2Proof.Claim

variable {s s1 s2 : State} {a b : BitVec 7} {t : Tid} {k : Nat} {e : Env} {sl p : Slot} {d : DqEnt} {i : Nat}

theorem exec_spawn (a b : BitVec 7) (s : State) : exec (.spawn a b) s = execSpawn a b s := rfl

/-! ### Stores leave the cores (R302) -/

theorem lineNotesOf_cores (s : State) (cls src srcUnit : Nat) (ks : List Nat) (urgent : Bool) : (lineNotesOf s cls src srcUnit ks urgent).cores = s.cores := by
  refine cores_foldl (fun t k => ?_) ks s
  split
  · exact homeNote_cores _ _ _ _ _ _ _
  · rfl

theorem storeX_cores {va : Word} {ws : List Word} (stored : storeX e s va ws = .ok s1) : s1.cores = s.cores := by
  unfold storeX at stored
  cases keys : keysX e s va 2 1 ws.length with
  | error st => rw [keys] at stored; cases stored
  | ok ks =>
    rw [keys] at stored
    cases stored
    exact (cores_foldl (fun t x => homeWrite_cores t _ _ _) _ _).trans (lineNotesOf_cores _ _ _ _ _ _)

theorem getCore_of_cores (same : s1.cores = s.cores) (c : Nat) : getCore s1 c = getCore s c := by
  rw [getCore, same, ← getCore]

theorem getSlot_of_cores (same : s1.cores = s.cores) (t : Tid) : getSlot s1 t = getSlot s t := by
  rw [getSlot, getCore_of_cores same, ← getSlot]

theorem regGet_of_cores (same : s1.cores = s.cores) (t : Tid) (sl : Slot) (n : Nat) : regGet s1 t sl n = regGet s t sl n := by
  rw [regGet, getCore_of_cores same, ← regGet]

/-- A record takes its registers from the state, and no flag of the burst from the slot. -/
theorem recordOf_parent (regs : ∀ x n, regGet s1 t x n = regGet s t x n) (sl : Slot) (c : Bool) (pc : Word) :
    recordOf s1 t { sl with csr := { sl.csr with spawned := c } } pc = recordOf s t sl pc := by
  unfold recordOf
  rw [regs, regs]
  rfl

theorem burstWords_congr (regs : ∀ x n, regGet s1 t x n = regGet s t x n) (sl : Slot) : burstWords s1 t sl = burstWords s t sl := by
  unfold burstWords
  simp only [regs]

/-! ### The parent queued (R89) -/

/-- The state with the parent's record as the newest entry of its core's deque. -/
def queued (s : State) (t : Tid) (p : Slot) (src : Nat) (d : DqEnt) : State :=
  dequeNote (dequePush (noteCont s t p) t.core false d) t.core src (coreUnit t.core) false

theorem noteCont_cores (s : State) (t : Tid) (sl : Slot) : (noteCont s t sl).cores = s.cores := by
  unfold noteCont
  split <;> rfl

theorem noteCont_nextUid (s : State) (t : Tid) (sl : Slot) : (noteCont s t sl).nextUid = s.nextUid := by
  unfold noteCont
  split <;> rfl

theorem dequePush_room {core : Nat} (room : (getCore s core).deque.length < 32) :
    dequePush s core false d = modCore s core fun c => { c with deque := c.deque ++ [d] } := by
  unfold dequePush
  simp only [room, Bool.false_eq_true, if_true, if_false]
  rfl

theorem queued_cores {src : Nat} (room : (getCore s t.core).deque.length < 32) :
    (queued s t p src d).cores = (modCore s t.core fun c => { c with deque := c.deque ++ [d] }).cores := by
  have same := noteCont_cores s t p
  have room' : (getCore (noteCont s t p) t.core).deque.length < 32 := by rwa [getCore_of_cores same]
  unfold queued
  rw [dequeNote, homeNote_cores, dequePush_room room', modCore, modCore, setCore, setCore]
  dsimp only
  rw [same, getCore_of_cores same]

theorem queued_nextUid {src : Nat} (room : (getCore s t.core).deque.length < 32) : (queued s t p src d).nextUid = s.nextUid := by
  have room' : (getCore (noteCont s t p) t.core).deque.length < 32 := by rwa [getCore_of_cores (noteCont_cores s t p)]
  unfold queued
  rw [dequeNote, homeNote_keeps State.nextUid (fun _ _ => rfl) (fun _ _ _ => rfl) (fun _ _ _ => rfl), dequePush_room room']
  exact noteCont_nextUid s t p

/-! ### The child in the slot (R353) -/

/-- A continuation that a thread creates takes a segment, and no other part of a core. -/
theorem newCont_cores (s : State) (t : Tid) (sl : Slot) (i : Nat) :
    (newCont s t sl i).1.cores = (modCore s t.core fun c => { c with segs := c.segs ++ [(sl.ctx, i)] }).cores := by
  unfold newCont
  dsimp only
  split <;> rfl

theorem newCont_uid (s : State) (t : Tid) (sl : Slot) (i : Nat) : (newCont s t sl i).2 = s.nextUid := rfl

/-- The slot of the child of p: its frame's join, its segment, nothing spawned. -/
def childSlot (u : Nat) (fp seg : Word) (sl : Slot) : Slot :=
  { sl with uid := some u, join := fp, spb := seg + 128, spl := seg + 65536, carry := [], nest := none, csr := { sl.csr with spawned := false } }

/-- The child of p in the slot t, before its join increment is sent. -/
def forked (s : State) (t : Tid) (sl p : Slot) (i : Nat) (fp seg v : Word) : State :=
  let created := modCont (newCont s t p i).1 s.nextUid fun k => { k with fresh := false, dev := p.dev }
  regSet (regSet (modSlot created t (childSlot s.nextUid fp seg)) t sl 2 seg) t sl 4 v

section
variable {fp seg v : Word}

theorem getSlot_newCont (s : State) (t : Tid) (sl : Slot) (i : Nat) (t' : Tid) : getSlot (newCont s t sl i).1 t' = getSlot s t' :=
  (getSlot_of_cores (newCont_cores s t sl i) t').trans (getSlot_modCore s t.core (fun c => { c with segs := c.segs ++ [(sl.ctx, i)] }) (fun _ => rfl) t')

theorem getSlot_forked : getSlot (forked s t sl p i fp seg v) t = childSlot s.nextUid fp seg (getSlot s t) := by
  have own : getSlot (modCont (newCont s t p i).1 s.nextUid fun k => { k with fresh := false, dev := p.dev }) t = getSlot s t := getSlot_newCont s t p i t
  unfold forked
  rw [getSlot_regSet, getSlot_regSet, getSlot_modSlot_same, own]

/-- Registers, deque and segments of the core whose slot the child takes. -/
theorem getCore_forked : (getCore (forked s t sl p i fp seg v) t.core).deque = (getCore s t.core).deque ∧
    (getCore (forked s t sl p i fp seg v) t.core).segs = (getCore s t.core).segs ++ [(p.ctx, i)] := by
  have core : getCore (modCont (newCont s t p i).1 s.nextUid fun k => { k with fresh := false, dev := p.dev }) t.core =
      { getCore s t.core with segs := (getCore s t.core).segs ++ [(p.ctx, i)] } :=
    (getCore_of_cores (newCont_cores s t p i) t.core).trans (getCore_modCore_same s t.core _)
  have set (x : State) (n : Nat) (w : Word) : (getCore (regSet x t sl n w) t.core).deque = (getCore x t.core).deque ∧
      (getCore (regSet x t sl n w) t.core).segs = (getCore x t.core).segs := by
    unfold regSet
    split
    · exact ⟨rfl, rfl⟩
    · rw [getCore_modCore_same]
      exact ⟨rfl, rfl⟩
  unfold forked
  dsimp only
  rw [(set _ _ _).1, (set _ _ _).1, (set _ _ _).2, (set _ _ _).2, getCore_modSlot, core]
  exact ⟨rfl, rfl⟩

theorem regGet_forked (n : Nat) : regGet (forked s t sl p i fp seg v) t sl n = if n = 4 then v else if n = 2 then seg else regGet s t sl n := by
  have kept : regGet (modCont (newCont s t p i).1 s.nextUid fun k => { k with fresh := false, dev := p.dev }) t sl n = regGet s t sl n := by
    refine (regGet_of_cores (newCont_cores s t p i) t sl n).trans ?_
    rw [regGet, getCore_modCore_same, ← regGet]
  unfold forked
  dsimp only
  split
  next h => rw [h, regGet_regSet_same _ _ _ _ (by decide)]
  next h =>
    rw [regGet_regSet_other _ _ _ _ h]
    split
    next h => rw [h, regGet_regSet_same _ _ _ _ (by decide)]
    next h => rw [regGet_regSet_other _ _ _ _ h, regGet_modSlot, kept]

end

/-! ### The join increment on its way (R353) -/

/-- The state from which a counted access is sent. -/
def counted (s : State) (t : Tid) (unit op : Nat) : State :=
  setSlot s t { getSlot s t with infl := (getSlot s t).infl ++ [{ id := nextAcc (getSlot s t), op := op, kind := .store, home := unit }] }

theorem sendInfl_eq (e : Env) (s : State) (cls slack unit op : Nat) (va : Word) (body : Ret → Body) :
    sendInfl e s cls slack unit op va body = send (counted s e.t unit op) cls slack (coreUnit e.t.core) unit
      (body (.access e.t ((getSlot s e.t).uid.getD 0) (nextAcc (getSlot s e.t)) 0 va)) := rfl

theorem counted_core (s : State) (t : Tid) (unit op : Nat) : (getCore (counted s t unit op) t.core).deque = (getCore s t.core).deque ∧
    (getCore (counted s t unit op) t.core).segs = (getCore s t.core).segs := by
  unfold counted setSlot
  rw [getCore_modCore_same]
  exact ⟨rfl, rfl⟩

/-- The parent queued and its child in the slot, with the join increment counted. -/
def childState (s : State) (t : Tid) (sl p : Slot) (src : Nat) (d : DqEnt) (i : Nat) (fp seg v : Word) (unit : Nat) : State :=
  counted (forked (queued s t p src d) t sl p i fp seg v) t unit (2 ^ 40)

section
variable {src unit : Nat} {fp seg v : Word} (room : (getCore s t.core).deque.length < 32)
include room

theorem getCore_queued : getCore (queued s t p src d) t.core = { getCore s t.core with deque := (getCore s t.core).deque ++ [d] } :=
  (getCore_of_cores (queued_cores room) _).trans (getCore_modCore_same _ _ _)

theorem getSlot_queued_forked (own : getSlot s t = p) :
    getSlot (forked (queued s t p src d) t sl p i fp seg v) t = childSlot s.nextUid fp seg p := by
  have kept : getSlot (queued s t p src d) t = p := by rw [getSlot, getCore_queued room, ← own, getSlot]
  rw [getSlot_forked, queued_nextUid room, kept]

theorem getSlot_childState (own : getSlot s t = p) : getSlot (childState s t sl p src d i fp seg v unit) t =
    { childSlot s.nextUid fp seg p with infl := p.infl ++ [{ id := nextAcc p, op := 2 ^ 40, kind := .store, home := unit }] } := by
  refine (getSlot_setSlot_same _ _ _).trans ?_
  rw [getSlot_queued_forked room own]
  rfl

theorem getCore_childState : (getCore (childState s t sl p src d i fp seg v unit) t.core).deque = (getCore s t.core).deque ++ [d] ∧
    (getCore (childState s t sl p src d i fp seg v unit) t.core).segs = (getCore s t.core).segs ++ [(p.ctx, i)] := by
  obtain ⟨deque, segs⟩ := counted_core (forked (queued s t p src d) t sl p i fp seg v) t unit (2 ^ 40)
  obtain ⟨deque', segs'⟩ := getCore_forked (s := queued s t p src d) (t := t) (sl := sl) (p := p) (i := i) (fp := fp) (seg := seg) (v := v)
  rw [getCore_queued room] at deque' segs'
  exact ⟨deque.trans deque', segs.trans segs'⟩

theorem regGet_childState (n : Nat) : regGet (childState s t sl p src d i fp seg v unit) t sl n = if n = 4 then v else if n = 2 then seg else regGet s t sl n := by
  refine (regGet_setSlot _ _ _ _ _ _).trans ((regGet_forked n).trans ?_)
  rw [regGet, getCore_queued room, ← regGet]

end

/-! ### SPAWN -/

section
variable (runs : Runs s)
include runs

theorem spawn_illegal (late : NoLate s) (barred : (getSlot s s.cur).ports = true ∨ (getSlot s s.cur).handler ≠ none) :
    exec (.spawn a b) s = .next (takeTrap s s.cur 0x01 ((encode (.spawn a b)).setWidth 64) (getSlot s s.cur).pc) := by
  have bars : ((getSlot s s.cur).ports || (getSlot s s.cur).handler.isSome) = true := by
    rw [Bool.or_eq_true, Option.isSome_iff_ne_none]
    exact barred
  rw [exec_spawn]
  refine thr_stop runs.1 runs.2 (st := .trap 0x01 ((Enc.spawn a b).setWidth 64)) ?_
  simp only [drainLate_clean (e := envOf 4 (Enc.spawn a b) s) late, envOf_sl, bars, illegal, envOf_enc, trapX, Bind.bind, Except.bind, if_true]

variable (plain : (getSlot s s.cur).ports = false) (heavy : (getSlot s s.cur).handler = none)
  (checks : chk (envOf 4 (Enc.spawn a b) s) [a.toNat, b.toNat] [] [] = .ok ())
include plain heavy checks

theorem spawn_odd (late : NoLate s) (odd : (regGet s s.cur (getSlot s s.cur) a.toNat).getLsbD 0 = true) :
    exec (.spawn a b) s = .next (takeTrap s s.cur 0x03 (regGet s s.cur (getSlot s s.cur) a.toNat) (getSlot s s.cur).pc) := by
  rw [exec_spawn]
  refine thr_stop runs.1 runs.2 (st := .trap 0x03 _) ?_
  simp only [drainLate_clean (e := envOf 4 (Enc.spawn a b) s) late, envOf_s, envOf_t, envOf_sl, plain, heavy, checks, need, bitAt, odd, trapX,
    Option.isSome_none, Bool.or_self, Bool.not_true, Bool.false_eq_true, if_false, Bind.bind, Except.bind]

theorem spawn_full (late : NoLate s) (even : (regGet s s.cur (getSlot s s.cur) a.toNat).getLsbD 0 = false)
    (room : (getSlot s s.cur).spb.toNat + burstOf (getSlot s s.cur) ≤ (getSlot s s.cur).spl.toNat)
    (full : freeSeg s s.cur.core (getSlot s s.cur).ctx = none) :
    exec (.spawn a b) s = .next (takeTrap s s.cur 0x0D 65536 (getSlot s s.cur).pc) := by
  have fits : roomX (envOf 4 (Enc.spawn a b) s) = .ok () := if_pos (decide_eq_true room)
  rw [exec_spawn]
  refine thr_stop runs.1 runs.2 (st := .trap 0x0D 65536) ?_
  simp only [drainLate_clean (e := envOf 4 (Enc.spawn a b) s) late, envOf_s, envOf_t, envOf_sl, plain, heavy, checks, need, bitAt, even, fits, full, trapX,
    Option.isSome_none, Bool.or_self, Bool.not_false, Bool.false_eq_true, if_true, if_false, Bind.bind, Except.bind]

theorem spawn_forks (even : (regGet s s.cur (getSlot s s.cur) a.toNat).getLsbD 0 = false) (may : MaySuspend s)
    (free : freeSeg s s.cur.core (getSlot s s.cur).ctx = some i) (calm : urgentSlot s s.cur (getSlot s s.cur) = false)
    (deque : (getCore s s.cur.core).deque.length < 32) (gate : dequeGate s s.cur.core (thrSrc (envOf 4 (Enc.spawn a b) s)) = true)
    (frame : homeKey (envOf 4 (Enc.spawn a b) s) (framePtr s) 3 = .ok k) (parent : getSlot (modCsr s s.cur fun r => { r with spawned := true }) s.cur = p)
    (full : (getCore s2 s.cur.core).deque.length < 32) (own : getSlot s2 s.cur = p)
    (burst : storeX (envOf 4 (Enc.spawn a b) s) (modCsr s s.cur fun r => { r with spawned := true }) p.spb
      (burstWords (modCsr s s.cur fun r => { r with spawned := true }) s.cur p) = .ok s1)
    (header : storeX (envOf 4 (Enc.spawn a b) s) s1 (segAddr s (getSlot s s.cur).ctx s.cur.core i) [0, 0] = .ok s2) 
    (record : d = { uid := p.uid.getD 0, ws := recordOf s2 s.cur { p with spb := p.spb + wd (burstOf p) } ((getSlot s s.cur).pc + 4) }) :
    let seg := segAddr s (getSlot s s.cur).ctx s.cur.core i
    let v := regGet s s.cur (getSlot s s.cur) b.toNat
    exec (.spawn a b) s = .next (jumpTo (envOf 4 (Enc.spawn a b) s)
      (send (childState s2 s.cur (getSlot s s.cur) p (thrSrc (envOf 4 (Enc.spawn a b) s)) d i (framePtr s) seg v (unitOf' k)) 11 (dskOf (getSlot s s.cur))
        (coreUnit s.cur.core) (unitOf' k) (.joinInc k (.access s.cur s2.nextUid (nextAcc p) 0 (framePtr s))))
      (regGet s s.cur (getSlot s s.cur) a.toNat)) := by
  intro seg v
  have pass := suspendable 4 (Enc.spawn a b) may
  have room : pushOk s s.cur (getSlot s s.cur) false = true := by simp [pushOk, deque]
  have frame : homeKey (envOf 4 (Enc.spawn a b) s) (regGet s s.cur (getSlot s s.cur) 2) 3 = .ok k := frame
  have sent : sendInfl (envOf 4 (Enc.spawn a b) s) (forked (queued s2 s.cur p (thrSrc (envOf 4 (Enc.spawn a b) s)) d) s.cur (getSlot s s.cur) p i (framePtr s) seg v)
      11 (dskOf (getSlot s s.cur)) (unitOf' k) (2 ^ 40) (framePtr s) (fun r => .joinInc k r) =
      send (childState s2 s.cur (getSlot s s.cur) p (thrSrc (envOf 4 (Enc.spawn a b) s)) d i (framePtr s) seg v (unitOf' k)) 11 (dskOf (getSlot s s.cur))
        (coreUnit s.cur.core) (unitOf' k) (.joinInc k (.access s.cur s2.nextUid (nextAcc p) 0 (framePtr s))) := by
    rw [sendInfl_eq, envOf_t, getSlot_queued_forked full own]
    rfl
  subst record
  rw [exec_spawn, ← sent]
  refine thr_next runs.1 runs.2 ?_
  simp only [pass.late, envOf_s, envOf_t, envOf_sl, envOf_npc, plain, heavy, checks, need, bitAt, even, pass.room, free, calm, room, pass.drained, await, gate,
    frame, parent, burst, header, Option.isSome_none, Bool.or_self, Bool.not_false, Bool.false_eq_true, if_true, if_false, Bind.bind, Except.bind, pure, Except.pure]
  rfl

end

theorem forkResults : Claim.ForkResults := by
  unfold Claim.ForkResults
  intro a b s runs e sl target burst h
  refine ⟨spawn_illegal runs, fun plain heavy checks => ⟨spawn_odd runs plain heavy checks, spawn_full runs plain heavy checks,
    fun even may i free calm deque gate k s1 s2 frame => ?_⟩⟩
  intro seg s0 parent written header
  have regs (x : Slot) (n : Nat) : regGet s0 s.cur x n = regGet s s.cur x n := regGet_modSlot _ _ _ _ _ _
  have own : getSlot s0 s.cur = parent := getSlot_modSlot_same _ _ _
  have stored : s2.cores = s0.cores := (storeX_cores header).trans (storeX_cores written)
  have regs2 (x : Slot) (n : Nat) : regGet s2 s.cur x n = regGet s s.cur x n := (regGet_of_cores stored _ x n).trans (regs x n)
  have own2 : getSlot s2 s.cur = parent := (getSlot_of_cores stored _).trans own
  have core2 : (getCore s2 s.cur.core).deque = (getCore s s.cur.core).deque ∧ (getCore s2 s.cur.core).segs = (getCore s s.cur.core).segs := by
    rw [getCore_of_cores stored, getCore_modSlot]
    exact ⟨rfl, rfl⟩
  have room : (getCore s2 s.cur.core).deque.length < 32 := by rwa [core2.1]
  have written : storeX e s0 parent.spb (burstWords s0 s.cur parent) = .ok s1 := by
    rw [burstWords_congr regs]
    exact written
  let v := regGet s s.cur sl b.toNat
  let d : DqEnt := { uid := uidOf s, ws := recordOf s s.cur { sl with spb := sl.spb + BitVec.ofNat 64 burst } (sl.pc + 4) }
  have record : d = { uid := parent.uid.getD 0, ws := recordOf s2 s.cur { parent with spb := parent.spb + wd (burstOf parent) } (sl.pc + 4) } :=
    congrArg (DqEnt.mk (uidOf s)) (recordOf_parent regs2 { sl with spb := sl.spb + BitVec.ofNat 64 burst } true (sl.pc + 4)).symm
  let child := childState s2 s.cur sl parent (thrSrc e) d i (framePtr s) seg v (unitOf' k)
  have slot : getSlot child s.cur = _ := getSlot_childState room own2
  have pushed : (getCore child s.cur.core).deque = _ := (getCore_childState room).1
  have taken : (getCore child s.cur.core).segs = _ := (getCore_childState room).2
  have registers (r : Nat) : regGet child s.cur sl r = _ := regGet_childState room r
  refine ⟨child, nextAcc parent, spawn_forks runs plain heavy checks even may free calm deque gate frame own room own2 written header record,
    pushed.trans (by rw [core2.1]), ?_, ?_, ?_, ?_, ?_, ?_, registers 2, registers 4, fun r notFrame notValue => ?_, taken.trans (by rw [core2.2])⟩
  case refine_7 => rw [registers, if_neg notValue, if_neg notFrame, regs2]
  all_goals
    rw [slot]
    rfl

end Sys2Proof.Proofs
end

section
/-!
PROOFS. TNEW, LSETUP and LNEXT: a new continuation's record, the nest descriptor's words, and the chunks of a nest (R92, R93, R358, R359).
-/

namespace Sys2Proof.Proofs

open Sys2Proof.Machine Sys2Proof.Laws Sys2Proof.Claim

variable {s s0 s1 s2 s3 s4 : State} {a b d : BitVec 7} {e : Env} {n : Nest} {k h c chunk i : Nat} {addr target v w0 w1 w2 w3 : Word}

theorem exec_tnew (a b : BitVec 7) (s : State) : exec (.tnew a b) s = execTnew a b s := rfl
theorem exec_lsetup (a : BitVec 7) (s : State) : exec (.lsetup a) s = execLsetup a s := rfl
theorem exec_lnext (d a : BitVec 7) (s : State) : exec (.lnext d a) s = execLnext d a s := rfl

/-! ### TNEW (R358) -/

section
variable (runs : Runs s) (checks : chk (envOf 4 (Enc.tnew a b) s) [a.toNat, b.toNat] [] [] = .ok ())
  (entry : readR (envOf 4 (Enc.tnew a b) s) s a.toNat = .ok (s1, target)) (arg : readR (envOf 4 (Enc.tnew a b) s) s1 b.toNat = .ok (s2, v))
include runs checks entry arg

theorem tnew_odd (odd : target.getLsbD 0 = true) : exec (.tnew a b) s = .next (takeTrap s s.cur 0x03 0 (getSlot s s.cur).pc) := by
  rw [exec_tnew]
  refine thr_stop runs.1 runs.2 (st := .trap 0x03 0) ?_
  simp only [envOf_s, checks, entry, arg, need, bitAt, odd, trapX, Bool.not_true, Bool.false_eq_true, if_false, Bind.bind, Except.bind]

theorem tnew_full (even : target.getLsbD 0 = false) (full : freeSeg s s.cur.core (getSlot s s.cur).ctx = none) :
    exec (.tnew a b) s = .next (takeTrap s s.cur 0x0D 65536 (getSlot s s.cur).pc) := by
  rw [exec_tnew]
  refine thr_stop runs.1 runs.2 (st := .trap 0x0D 65536) ?_
  simp only [envOf_s, envOf_t, envOf_sl, checks, entry, arg, need, bitAt, even, full, trapX, Bool.not_false, if_true, Bind.bind, Except.bind]

theorem tnew_creates (even : target.getLsbD 0 = false) (free : freeSeg s s.cur.core (getSlot s s.cur).ctx = some i)
    (header : storeX (envOf 4 (Enc.tnew a b) s) s2 (segAddr s (getSlot s s.cur).ctx s.cur.core i) (List.replicate 16 0) = .ok s3) :
    let sl := getSlot s s.cur
    let seg := segAddr s sl.ctx s.cur.core i
    exec (.tnew a b) s = .next (done (envOf 4 (Enc.tnew a b) s) (sendEnqueue (newCont s3 s.cur sl i).1 (coreUnit s.cur.core) s3.nextUid
      (.held [target, wd (sl.ctx * 65536 + sl.steal.toNat * 256 + sl.prio.toNat * 64 + sl.wsize.toNat), seg, 0, seg + 128, seg + 65536,
        wd (sl.csr.sk3.toNat * 2 ^ 44 + sl.csr.sk2.toNat * 2 ^ 32 + sl.csr.sk1.toNat * 2 ^ 20 + sl.csr.sk0.toNat * 2 ^ 8), v]))) := by
  intro sl seg
  rw [exec_tnew]
  refine thr_next runs.1 runs.2 ?_
  simp only [envOf_s, envOf_t, envOf_sl, checks, entry, arg, need, bitAt, even, free, header, Bool.not_false, if_true, Bind.bind, Except.bind, pure, Except.pure]
  rfl

end

/-! ### The nest descriptor (R92) -/

/-- The check of a descriptor n with fourth word w3 in a slot. -/
def nestFits (n : Nest) (w3 : Word) (sl : Slot) : Bool := nestOk n w3 && (nestRegs n).all fun r => r != 0 && decide (r < winW sl)

/-- What R92 asks of a descriptor. -/
theorem nestFits_iff (n : Nest) (w3 : Word) (sl : Slot) : nestFits n w3 sl = true ↔
    1 ≤ n.rank ∧ n.rank ≤ 3 ∧ n.parts ≠ 0 ∧ (∀ x ∈ extents n, x ≠ 0) ∧ n.counter.toNat % 8 = 0 ∧ w3.toNat < 2 ^ 24 ∧
      w3.getLsbD 7 = false ∧ w3.getLsbD 15 = false ∧ w3.getLsbD 23 = false ∧ (∀ r ∈ indexRegs n, r ≠ 0 ∧ r < winW sl) := by
  have high : fld w3 63 24 = 0 ↔ w3.toNat < 2 ^ 24 := by
    rw [fld_eq]
    have := w3.isLt
    omega
  simp [nestFits, nestOk, high, bitAt, and_assoc, nestExts, nestRegs, extents, indexRegs]

theorem nestOf_words (a w0 w1 w2 w3 : Word) : nestOf a [w0, w1, w2, w3] =
    { addr := a, counter := w0, ext0 := w1.toNat % 2 ^ 32, ext1 := w1.toNat / 2 ^ 32, ext2 := w2.toNat % 2 ^ 32
      rank := w2.toNat / 2 ^ 56, minchunk := w2.toNat / 2 ^ 48 % 256, parts := w2.toNat / 2 ^ 32 % 2 ^ 16
      reg0 := w3.toNat % 128, reg1 := w3.toNat / 2 ^ 8 % 128, reg2 := w3.toNat / 2 ^ 16 % 128 } := by
  have high := w1.isLt
  have top := w2.isLt
  simp [nestOf, wAt, fld_eq]
  omega

section
variable (even : addr.toNat % 8 = 0) (read0 : phaseRead e s0 [addr] [] addr 8 (dskOf e.sl) = .ok (s1, [addr, w0]))
  (read1 : phaseRead e s1 [addr, w0] [] (addr + 8) 8 (dskOf e.sl) = .ok (s2, [addr, w0, w1]))
  (read2 : phaseRead e s2 [addr, w0, w1] [] (addr + 16) 8 (dskOf e.sl) = .ok (s3, [addr, w0, w1, w2]))
  (read3 : phaseRead e s3 [addr, w0, w1, w2] [] (addr + 24) 8 (dskOf e.sl) = .ok (s4, [addr, w0, w1, w2, w3]))
include even read0 read1 read2 read3

/-- A descriptor whose four words are read is loaded where it keeps R92, and else refused. -/
theorem loadNest_read : loadNest e s0 addr = if nestFits (nestOf addr [w0, w1, w2, w3]) w3 e.sl then
      .ok (modSlot s4 e.t fun sl => { sl with nest := some (nestOf addr [w0, w1, w2, w3]) }, [addr, w0, w1, w2, w3])
    else .error (.trap 0x12 addr) := by
  have first : addr + wd (8 * 0) = addr := BitVec.add_zero addr
  have second : addr + wd (8 * 1) = addr + 8 := rfl
  have third : addr + wd (8 * 2) = addr + 16 := rfl
  have fourth : addr + wd (8 * 3) = addr + 24 := rfl
  have checked : need (nestOk (nestOf addr (List.drop 1 [addr, w0, w1, w2, w3])) (wAt [addr, w0, w1, w2, w3] 4) &&
      (nestRegs (nestOf addr (List.drop 1 [addr, w0, w1, w2, w3]))).all fun r => r != 0 && decide (r < winW e.sl)) 0x12 addr =
    if nestFits (nestOf addr [w0, w1, w2, w3]) w3 e.sl then .ok () else .error (.trap 0x12 addr) := rfl
  unfold loadNest
  simp only [aligned_ok even, List.forIn_cons, List.forIn_nil, first, second, third, fourth, read0, read1, read2, read3, Bind.bind, Except.bind, pure, Except.pure]
  rw [checked]
  by_cases fits : nestFits (nestOf addr [w0, w1, w2, w3]) w3 e.sl = true
  · rw [if_pos fits, if_pos fits]
    rfl
  · rw [if_neg fits, if_neg fits]

end

/-! ### LSETUP (R359) -/

section
variable (runs : Runs s) (checks : chk (envOf 4 (Enc.lsetup a) s) [a.toNat] [] [] = .ok ())
  (address : opnd (envOf 4 (Enc.lsetup a) s) s 0 a.toNat = .ok (s0, addr))
include runs checks address

theorem lsetup_stops {st : Stop} (refused : loadNest (envOf 4 (Enc.lsetup a) s) s0 addr = .error st) :
    exec (.lsetup a) s = .next (applyStop (envOf 4 (Enc.lsetup a) s) st) := by
  rw [exec_lsetup]
  refine thr_stop runs.1 runs.2 ?_
  simp only [envOf_s, checks, address, refused, Bind.bind, Except.bind]

theorem lsetup_misaligned (odd : addr.toNat % 8 ≠ 0) : exec (.lsetup a) s = .next (takeTrap s s.cur 0x03 addr (getSlot s s.cur).pc) :=
  lsetup_stops runs checks address (st := .trap 0x03 addr) (by simp only [loadNest, aligned_trap odd, Bind.bind, Except.bind])

theorem lsetup_loads {l : List Word} (loaded : loadNest (envOf 4 (Enc.lsetup a) s) s0 addr = .ok (s1, l)) :
    exec (.lsetup a) s = .next (done (envOf 4 (Enc.lsetup a) s) s1) := by
  rw [exec_lsetup]
  refine thr_next runs.1 runs.2 ?_
  simp only [envOf_s, checks, address, loaded, Bind.bind, Except.bind, pure, Except.pure]

end

/-! ### The chunks of a nest (R93) -/

theorem nestTotal_eq (n : Nest) : nestTotal n = (extents n).prod := List.prod_eq_foldl.symm

/-- Registers set one after the other: those that are not named stay, and the last value of a register counts. -/
theorem regGet_foldl_regSet (f : Nat → Word) (l : List Nat) (s : State) (t : Tid) (sl : Slot) :
    let x := l.zipIdx.foldl (fun s r => regSet s t sl r.1 (f r.2)) s
    (∀ r, r ∉ l → regGet x t sl r = regGet s t sl r) ∧
      ∀ i r, l[i]? = some r → r ≠ 0 → (∀ j, i < j → l[j]? ≠ some r) → regGet x t sl r = f i := by
  induction l using List.reverseRecOn with
  | nil => exact ⟨fun _ _ => rfl, fun i r h => nomatch h⟩
  | append_singleton l w ih =>
    obtain ⟨others, named⟩ := ih
    rw [List.zipIdx_append, List.foldl_append, List.zipIdx_singleton, List.foldl_cons, List.foldl_nil]
    dsimp only
    refine ⟨fun r absent => ?_, fun i r here nonzero last => ?_⟩
    · rw [List.mem_append, List.mem_singleton, not_or] at absent
      rw [regGet_regSet_other _ _ _ _ absent.2, others r absent.1]
    · rcases Nat.lt_or_ge i l.length with inside | final
      · have other : r ≠ w := fun same => last l.length inside (by rw [List.getElem?_append_right le_rfl, Nat.sub_self, same]; rfl)
        rw [List.getElem?_append_left inside] at here
        rw [regGet_regSet_other _ _ _ _ other]
        refine named i r here nonzero fun j later there => last j later ?_
        rw [List.getElem?_append_left (List.getElem?_eq_some_iff.mp there).1, there]
      · rw [List.getElem?_append_right final, List.getElem?_singleton] at here
        split at here
        next same =>
          obtain rfl : w = r := Option.some.inj here
          obtain rfl : i = l.length := by omega
          rw [regGet_regSet_same _ _ _ _ nonzero, Nat.zero_add]
        · cases here

theorem unpackNest_eq (e : Env) (n : Nest) (c : Nat) (s : State) :
    unpackNest e n c s = (indexRegs n).zipIdx.foldl (fun s r => regSet s e.t e.sl r.1 (wd (indexAt n c r.2))) s := by
  unfold unpackNest indexAt
  simp only [List.prod_eq_foldl]
  rfl

theorem unpackNest_mem (e : Env) (n : Nest) (c : Nat) (s : State) : (unpackNest e n c s).mem = s.mem := by
  rw [unpackNest_eq]
  exact foldl_keeps State.mem (fun t r => regSet_mem _ _ _ _ _) _ s

/-- A claim's reply in a thread without ports: the chunk to g[d], and the indices where there is a chunk. -/
theorem nestClaim_claims (plain : e.sl.ports = false) {l : List Word} (first : wAt l 0 = wd c) (second : wAt l 1 = wd chunk)
    (hc : c < 2 ^ 64) (hchunk : chunk < 2 ^ 64) (d : Nat) : ∃ t, nestClaim e d n s l = .ok t ∧ NestClaimed e n d c chunk s t := by
  have written : writeR e s d (wd chunk) = .ok (regSet s e.t e.sl d (wd chunk)) := writeR_window (.inl plain)
  have number : (wd c).toNat = c := (toNat_wd c).trans (Nat.mod_eq_of_lt hc)
  have empty : wd chunk = 0 ↔ chunk = 0 := by
    rw [← BitVec.toNat_inj, toNat_wd, Nat.mod_eq_of_lt hchunk]
    rfl
  have claimed : nestClaim e d n s l = .ok (done e (if chunk = 0 then regSet s e.t e.sl d (wd chunk) else unpackNest e n c (regSet s e.t e.sl d (wd chunk)))) := by
    simp only [nestClaim, first, second, written, number, empty, Bind.bind, Except.bind, pure, Except.pure]
  refine ⟨_, claimed, _, _, written, rfl, fun h => if_pos h, fun h i r here nonzero last => ?_, fun r absent => ?_, ?_⟩
  · rw [if_neg h, unpackNest_eq]
    exact (regGet_foldl_regSet (fun i => wd (indexAt n c i)) (indexRegs n) _ e.t e.sl).2 i r here nonzero last
  · split
    · rfl
    · rw [unpackNest_eq]
      exact (regGet_foldl_regSet (fun i => wd (indexAt n c i)) (indexRegs n) _ e.t e.sl).1 r absent
  · split
    · rfl
    · exact unpackNest_mem _ _ _ _

/-! ### LNEXT (R93, R359) -/

section
variable (runs : Runs s) (checks : chk (envOf 4 (Enc.lnext d a) s) [a.toNat] [d.toNat] [] = .ok ())
  (address : opnd (envOf 4 (Enc.lnext d a) s) s 0 a.toNat = .ok (s0, n.addr)) (held : (getSlot s s.cur).nest = some n)
  (kept : (getSlot s0 s.cur).nest = some n) (indices : chk (envOf 4 (Enc.lnext d a) s) [] (indexRegs n) [] = .ok ())
include runs checks address held kept indices

/-- The claim at a counter in the own scratchpad. -/
theorem lnext_local {l : List Word} {x : TlbEnt} {pg : Bool} (res : (getSlot s s.cur).res = none)
    (leads : place { envOf 4 (Enc.lnext d a) s with s := s0 } n.counter 3 (dskOf (getSlot s s.cur)) = .ok (.mem k x pg))
    (scratch : isScr k = true) (own : keyCore k = s.cur.core) (room : traceRoom s0 (coreFn s0 s.cur.core) = true)
    (turn : replayOk s0 (coreUnit s.cur.core) 2 (thrSrc (envOf 4 (Enc.lnext d a) s)) k = true) {t : State}
    (claim : lnextAt s0 k (nestTotal n) n.minchunk n.parts n.counter = (s1, .words l))
    (ends : nestClaim (envOf 4 (Enc.lnext d a) s) d.toNat n (localNote (envOf 4 (Enc.lnext d a) s) s1 2 k) l = .ok t) :
    exec (.lnext d a) s = .next t := by
  have device : isHost k = false := by
    have scratch : scrBase ≤ k := of_decide_eq_true scratch
    simp [isHost, scratch]
  have here : isLocal (envOf 4 (Enc.lnext d a) s) k = true := by simp [isLocal, scratch, own]
  have free : localGate (envOf 4 (Enc.lnext d a) s) s0 2 k = .ok () := if_pos (by rw [localFree, envOf_t, room, turn]; rfl)
  have reply : gotReply (envOf 4 (Enc.lnext d a) s) [n.addr] = none := by simp [gotReply, res]
  have leads : place ⟨s0, s.cur, getSlot s s.cur, (envOf 4 (Enc.lnext d a) s).enc, (envOf 4 (Enc.lnext d a) s).npc⟩ n.counter 3 (dskOf (getSlot s s.cur)) =
    .ok (.mem k x pg) := leads
  have regs : chk (envOf 4 (Enc.lnext d a) s) [] (nestRegs n) [] = .ok () := indices
  rw [exec_lnext]
  refine thr_next runs.1 runs.2 ?_
  simp only [envOf_s, envOf_sl, envOf_t, checks, address, held, kept, regs, reply, leads, device, here, free, claim, ends, beq_self_eq_true,
    if_true, Bool.false_eq_true, if_false, Option.getD_some, Bind.bind, Except.bind, pure, Except.pure]

/-- The claim sent to the home of a counter elsewhere. -/
theorem lnext_sends {x : TlbEnt} {pg : Bool} (res : (getSlot s s.cur).res = none)
    (leads : place { envOf 4 (Enc.lnext d a) s with s := s0 } n.counter 3 (dskOf (getSlot s s.cur)) = .ok (.mem k x pg))
    (device : isHost k = false) (away : ¬ (isScr k = true ∧ keyCore k = s.cur.core)) (home : homeOf k = some h) :
    exec (.lnext d a) s = .next (requestSent s s0 [n.addr] (d.toNat :: indexRegs n) 2 (dskOf (getSlot s s.cur)) h
      (.lnext k (nestTotal n) n.minchunk n.parts (.thread s.cur (uidOf s) n.counter))) := by
  have there : isLocal (envOf 4 (Enc.lnext d a) s) k = false := by
    rw [Bool.eq_false_iff]
    simpa [isLocal] using away
  have reply : gotReply (envOf 4 (Enc.lnext d a) s) [n.addr] = none := by simp [gotReply, res]
  have leads : place ⟨s0, s.cur, getSlot s s.cur, (envOf 4 (Enc.lnext d a) s).enc, (envOf 4 (Enc.lnext d a) s).npc⟩ n.counter 3 (dskOf (getSlot s s.cur)) =
    .ok (.mem k x pg) := leads
  have regs : chk (envOf 4 (Enc.lnext d a) s) [] (nestRegs n) [] = .ok () := indices
  rw [exec_lnext]
  refine thr_stop runs.1 runs.2 (st := .keep _) ?_
  simp only [envOf_s, envOf_sl, envOf_t, checks, address, held, kept, regs, reply, leads, device, there, unitOf', home, beq_self_eq_true,
    if_true, Bool.false_eq_true, if_false, Option.getD_some, Bind.bind, Except.bind, pure, Except.pure]
  rfl

/-- The reply of the counter's home. -/
theorem lnext_replied {l : List Word} (ph : (getSlot s s.cur).ph = [n.addr]) (res : (getSlot s s.cur).res = some (.words l)) {t : State}
    (ends : nestClaim (envOf 4 (Enc.lnext d a) s) d.toNat n s0 l = .ok t) : exec (.lnext d a) s = .next t := by
  have reply : gotReply (envOf 4 (Enc.lnext d a) s) [n.addr] = some (.words l) := by simp [gotReply, ph, res]
  have regs : chk (envOf 4 (Enc.lnext d a) s) [] (nestRegs n) [] = .ok () := indices
  rw [exec_lnext]
  refine thr_next runs.1 runs.2 ?_
  simp only [envOf_s, envOf_sl, envOf_t, checks, address, held, kept, regs, reply, ends, beq_self_eq_true, if_true, Option.getD_some,
    Bind.bind, Except.bind, pure, Except.pure]

end

/-- New continuations and nests, from what each instruction does in each of its phases. -/
theorem newContinuationResults : Claim.NewContinuationResults := by
  refine ⟨fun a b s runs => ?_, fun a s runs => ?_, fun d a s runs => ?_⟩
  · intro e sl c checks s1 target s2 v entry arg
    exact ⟨tnew_odd runs checks entry arg, tnew_full runs checks entry arg,
      fun even n s3 free header => tnew_creates runs checks entry arg even free header⟩
  · intro e sl checks s0 addr address
    refine ⟨lsetup_misaligned runs checks address, fun even s1 s2 s3 s4 w0 w1 w2 w3 read0 read1 read2 read3 => ?_⟩
    intro n good
    have loaded := loadNest_read (e := e) even read0 read1 read2 read3
    have words : nestOf addr [w0, w1, w2, w3] = n := nestOf_words addr w0 w1 w2 w3
    rw [words] at loaded
    have fits : nestFits n w3 sl = true ↔ good := nestFits_iff n w3 sl
    refine ⟨fun h => lsetup_loads runs checks address (loaded.trans (if_pos (fits.mpr h))), fun h => ?_⟩
    exact lsetup_stops runs checks address (st := .trap 0x12 addr) (loaded.trans (if_neg (mt fits.mp h)))
  · intro e sl checks s0 addr n address held same kept indices total bound
    subst same
    have sum : nestTotal n = total := nestTotal_eq n
    refine ⟨fun res k x pg leads => ⟨fun scratch own room turn ecc => ?_, fun device away h home => ?_⟩, fun plain c chunk l ph res => ?_⟩
    · intro c chunk plain
      have hc : c < 2 ^ 64 := memRead_lt _ k 8
      have hchunk : chunk < 2 ^ 64 := by
        have : chunk ≤ total - c := min_le_left _ _
        omega
      have claim : lnextAt s0 k (nestTotal n) n.minchunk n.parts n.counter = (homeWrite s0 k 8 (c + chunk), .words [wd c, wd chunk]) := by
        rw [sum]
        simp only [lnextAt, ecc]
        rfl
      obtain ⟨t, ends, claimed⟩ := nestClaim_claims (e := e) (n := n) (s := localNote e (homeWrite s0 k 8 (c + chunk)) 2 k) plain
        (l := [wd c, wd chunk]) rfl rfl hc hchunk d.toNat
      exact ⟨t, lnext_local runs checks address held kept indices res leads scratch own room turn claim ends, claimed⟩
    · exact sum ▸ lnext_sends runs checks address held kept indices res leads device away home
    · obtain ⟨t, ends, claimed⟩ := nestClaim_claims (e := e) (n := n) (s := s0) plain (l := c :: chunk :: l) (c := c.toNat) (chunk := chunk.toNat)
        (ofNat_of_toNat rfl).symm (ofNat_of_toNat rfl).symm c.isLt chunk.isLt d.toNat
      exact ⟨t, lnext_replied runs checks address held kept indices ph res ends, claimed⟩

/-- Settles O36, from the three parts: forks, joins, and new continuations with their nests. -/
theorem threadLifeResults : Obligations.ThreadLifeResults :=
  ⟨forkResults, joinResults, newContinuationResults⟩

end Sys2Proof.Proofs
end

section
/-!
PROOFS. FORCE and HWAIT: the demand that a thread sends to a bead's home, and what its outcome makes of the thread (R107, R110, R204,
R361, R363); the bead that a handle names, and the request of a bead operation.
-/

namespace Sys2Proof.Proofs

open Sys2Proof.Machine Sys2Proof.Laws Sys2Proof.Claim

variable {s s1 : State} {e : Env} {h v : Word} {k u : Nat} {c : BitVec 8}

/-! ### Beads and their requests (R105, R107, R361) -/

theorem beadAt_named (own : e.sl = getSlot s s.cur) (names : NamesBead s e h k u) :
    beadAt e h = .ok { key := k, handle := h, ctx := (getSlot s s.cur).ctx } := by
  obtain ⟨even, ⟨x, pg, leads⟩, device, -⟩ := names
  simp only [beadAt, own, aligned_ok even, leads, device, Bind.bind, Except.bind, Bool.false_eq_true, if_false, pure, Except.pure]

theorem beadAt_misaligned (odd : h.toNat % 64 ≠ 0) : beadAt e h = .error (.trap 0x03 h) := by
  simp only [beadAt, aligned_trap odd, Bind.bind, Except.bind]

/-- What e sees is the slot whose turn it is in s, with the frame pointer that it has there. -/
structure OwnTurn (s : State) (e : Env) : Prop where
  thread : e.t = s.cur
  slot : e.sl = getSlot s s.cur
  frame : recAddr e = framePtr s + 64

theorem ownTurn_envOf (len : Word) (enc : BitVec 32) (s : State) : OwnTurn s (envOf len enc s) := ⟨rfl, rfl, rfl⟩

/-- A bead operation of the thread, on its way to the home of the bead (R95, R361). -/
theorem beadWait_sent (turn : OwnTurn s e) (home : homeOf k = some u) (s' : State) (acc : List Word) (dst : List Nat) (op : BeadOp) :
    beadWait e s' acc dst { key := k, handle := h, ctx := (getSlot s s.cur).ctx } op =
      .keep (requestSent s s' acc dst 4 (dskOf (getSlot s s.cur)) u (beadBody s k h op)) := by
  simp only [beadWait, sendWait, retOf, turn.thread, turn.slot, turn.frame, unitOf', home, Option.getD_some]
  rfl

/-- An identifier of a chain of the thread. -/
theorem chainId_own (turn : OwnTurn s e) (seq : BitVec 31) : chainId e seq = chainOf s seq := by
  simp only [chainId, chainWord, turn.thread, turn.slot, tidWord, chainOf, Nat.add_assoc]
  rfl

/-- A new root chain of the thread. -/
theorem newChain_own (turn : OwnTurn s e) (s' : State) :
    newChain e s' = (advanced s s', chainOf s ((getSlot s' s.cur).chainSeq + 1)) := by
  simp only [newChain, chainId_own turn, turn.thread]
  rfl

/-! ### The first checks of an instruction that may leave its slot (R136, R193) -/

theorem suspendFirst_light {late : Bool} (clean : late = true → noFault e.sl fun _ _ => true) (light : e.sl.handler = none) :
    suspendFirst e late = .ok () := by
  unfold suspendFirst
  cases late with
  | false => simp only [light, Option.isSome_none, Bool.false_eq_true, if_false, Bind.bind, Except.bind, pure, Except.pure, ite_self]
  | true => simp only [drainLate_clean (clean rfl), light, Option.isSome_none, Bool.false_eq_true, if_false, Bind.bind, Except.bind, pure,
      Except.pure, ite_self]

/-- A later issue makes none of them. -/
theorem suspendFirst_later (late : Bool) (later : e.sl.deliv ≠ none ∨ e.sl.res ≠ none) : suspendFirst e late = .ok () := by
  refine if_neg fun first => ?_
  simp only [firstIssue, Bool.and_eq_true, Option.isNone_iff_eq_none] at first
  exact later.elim (· first.1.1) (· first.1.2)

/-! ### FORCE and HWAIT (R110, R363) -/

theorem takeOutcome_value {d : Nat} {p : Bool} {f : BitVec 6} (written : writeR e (orFlags e.s e.t f) d v = .ok s1) :
    takeOutcome e d (.value v p f) = if p then .error (.trapIn s1 0x14 0 e.npc) else .ok (done e s1) := by
  simp only [takeOutcome, written, Bind.bind, Except.bind, pure, Except.pure]

section
variable {enc : BitVec 32} {d a : Nat} {hw : Bool} (runs : Runs s) (checks : chk (envOf 4 enc s) [a] [d] [] = .ok ())
include runs checks

theorem demandOp_sends (deliv : (getSlot s s.cur).deliv = none) (res : (getSlot s s.cur).res = none) (light : (getSlot s s.cur).handler = none)
    (room : (getSlot s s.cur).spb.toNat + burstOf (getSlot s s.cur) ≤ (getSlot s s.cur).spl.toNat) (drained : hw = false → Drained (getSlot s s.cur))
    (handle : opnd (envOf 4 enc s) s 0 a = .ok (s1, h)) (names : NamesBead s (envOf 4 enc s) h k u) :
    demandOp enc d a hw s = .next (requestSent s (modSlot (if hw then s1 else advanced s s1) s.cur fun x => { x with demand := some h }) [h] [d] 4
      (dskOf (getSlot s s.cur)) u
      (beadBody s k h (if hw then .hwait (chainOf s (getSlot s s.cur).chainSeq) else .force (chainOf s ((getSlot s1 s.cur).chainSeq + 1))))) := by
  have turn := ownTurn_envOf 4 enc s
  have named := beadAt_named (e := envOf 4 enc s) rfl names
  have fits : roomX (envOf 4 enc s) = .ok () := if_pos (decide_eq_true room)
  refine thr_stop runs.1 runs.2 (st := .keep _) ?_
  cases hw with
  | false =>
    have calm := drained rfl
    have first : suspendFirst (envOf 4 enc s) = .ok () := suspendFirst_light (fun _ => noFault_of_drained calm) light
    simp only [first, checks, envOf_s, envOf_sl, deliv, res, handle, named, fits, drain_drained (e := envOf 4 enc s) rfl calm, newChain_own turn,
      beadWait_sent turn names.2.2.2, envOf_t, Bind.bind, Except.bind, Bool.not_false, if_true, Bool.false_eq_true, if_false]
    rfl
  | true =>
    have first : suspendFirst (envOf 4 enc s) false = .ok () := suspendFirst_light (fun late => nomatch late) light
    simp only [first, checks, envOf_s, envOf_sl, deliv, res, handle, named, fits, chainId_own turn,
      beadWait_sent turn names.2.2.2, envOf_t, Bind.bind, Except.bind, Bool.not_true, if_true, Bool.false_eq_true, if_false]
    rfl

/-- The outcome that has come is taken as `takeOutcome` says: delivered by the bead, or the reply of its home (R110). -/
theorem demandOp_takes {x : Deliv} (came : (getSlot s s.cur).deliv = some x ∨ (getSlot s s.cur).deliv = none ∧
      ((∃ f p, x = .value v p f ∧ (getSlot s s.cur).res = some (.value v p f)) ∨
       (∃ c, x = .fail c v ∧ (getSlot s s.cur).res = some (.fault c v)))) :
    demandOp enc d a hw s = thr 4 enc s fun e => takeOutcome e d x := by
  have first : suspendFirst (envOf 4 enc s) (!hw) = .ok () := by
    refine suspendFirst_later _ ?_
    rcases came with deliv | ⟨-, ⟨f, p, -, res⟩ | ⟨c, -, res⟩⟩
    · exact .inl (by simp only [envOf_sl, deliv, ne_eq, reduceCtorEq, not_false_eq_true])
    · exact .inr (by simp only [envOf_sl, res, ne_eq, reduceCtorEq, not_false_eq_true])
    · exact .inr (by simp only [envOf_sl, res, ne_eq, reduceCtorEq, not_false_eq_true])
  rw [demandOp, thr_eq runs.1 runs.2, thr_eq runs.1 runs.2, first, checks]
  rcases came with deliv | ⟨deliv, ⟨f, p, rfl, res⟩ | ⟨c, rfl, res⟩⟩
  · simp only [envOf_sl, deliv, Bind.bind, Except.bind]
  · simp only [envOf_sl, deliv, res, Bind.bind, Except.bind]
  · simp only [envOf_sl, deliv, res, Bind.bind, Except.bind, takeOutcome]

theorem demandOp_waits (deliv : (getSlot s s.cur).deliv = none) (res : (getSlot s s.cur).res = some .waits)
    (drained : hw = true → Drained (getSlot s s.cur)) (out : writeOut (envOf 4 enc s) s (getSlot s s.cur).pc = .ok s1) :
    demandOp enc d a hw s = .next (leave (envOf 4 enc s) s1) := by
  have first : suspendFirst (envOf 4 enc s) (!hw) = .ok () :=
    suspendFirst_later _ (.inr (by simp only [envOf_sl, res, ne_eq, reduceCtorEq, not_false_eq_true]))
  refine thr_next runs.1 runs.2 ?_
  rw [first, checks]
  cases hw with
  | false => simp only [envOf_s, envOf_sl, deliv, res, out, Bind.bind, Except.bind, pure, Except.pure, Bool.false_eq_true, if_false]
  | true => simp only [envOf_s, envOf_sl, deliv, res, out, drain_drained (e := envOf 4 enc s) rfl (drained rfl), Bind.bind, Except.bind, pure,
      Except.pure, if_true]

end

theorem exec_force (d a : BitVec 7) (s : State) : exec (.force d a) s = demandOp (Enc.force d a) d.toNat a.toNat false s := rfl
theorem exec_hwait (d a : BitVec 7) (s : State) : exec (.hwait d a) s = demandOp (Enc.hwait d a) d.toNat a.toNat true s := rfl

/-- FORCE and HWAIT as R361 and R363 say. -/
theorem demandResults : DemandResults := by
  intro d a p hp s runs
  obtain ⟨enc, hw, exec_eq, envFor_eq, sel⟩ :
      ∃ enc hw, exec p.1 s = demandOp enc d.toNat a.toNat hw s ∧ envFor 4 p.1 s = envOf 4 enc s ∧ p.2 = hw := by
    simp only [List.mem_cons, List.not_mem_nil, or_false] at hp
    rcases hp with rfl | rfl
    · exact ⟨_, _, exec_force d a s, rfl, rfl⟩
    · exact ⟨_, _, exec_hwait d a s, rfl, rfl⟩
  rw [exec_eq, envFor_eq, sel]
  intro e sl checks
  refine ⟨fun deliv res light room drained s1 h k u handle names => demandOp_sends runs checks deliv res light room drained handle names,
    fun v f came s1 written => ?_, fun v f came s1 written => ?_, fun c v came => ?_,
    fun deliv res drained s1 out => demandOp_waits runs checks deliv res drained out⟩
  · rw [demandOp_takes (v := v) (x := .value v false f) runs checks (came.imp_right fun r => ⟨r.1, .inl ⟨f, false, rfl, r.2⟩⟩)]
    exact thr_next runs.1 runs.2 (takeOutcome_value (e := envOf 4 enc s) written)
  · rw [demandOp_takes (v := v) (x := .value v true f) runs checks (came.imp_right fun r => ⟨r.1, .inl ⟨f, true, rfl, r.2⟩⟩)]
    exact thr_stop runs.1 runs.2 (st := .trapIn s1 0x14 0 (sl.pc + 4)) (takeOutcome_value (e := envOf 4 enc s) written)
  · rw [demandOp_takes (v := v) (x := .fail c v) runs checks (came.imp_right fun r => ⟨r.1, .inr ⟨c, rfl, r.2⟩⟩)]
    exact thr_stop runs.1 runs.2 (st := .trap c v) rfl

end Sys2Proof.Proofs
end

section
/-!
PROOFS. SUSPEND and TENQ: the submission of a task with its footprint and bounds, the two ways it completes, and the collapse of a
SUSPEND over its bound (R117, R118, R362, R378).
-/

namespace Sys2Proof.Proofs

open Sys2Proof.Machine Sys2Proof.Laws Sys2Proof.Claim

variable {s s1 s2 s3 : State} {e : Env} {h v : Word} {k u : Nat} {c : BitVec 8}

/-! ### What reading operands and taking a ring entry leave of a slot -/

/-- The CSRs and the chain sequence number of thread t are in s1 what they are in s. -/
def KeepsThread (t : Tid) (s s1 : State) : Prop :=
  (getSlot s1 t).csr = (getSlot s t).csr ∧ (getSlot s1 t).chainSeq = (getSlot s t).chainSeq

theorem KeepsThread.trans {t : Tid} (first : KeepsThread t s s1) (second : KeepsThread t s1 s2) : KeepsThread t s s2 :=
  ⟨second.1.trans first.1, second.2.trans first.2⟩

theorem keepsThread_of_slot {t : Tid} (same : getSlot s1 t = getSlot s t) : KeepsThread t s s1 := by rw [KeepsThread, same]; exact ⟨rfl, rfl⟩

/-- A step of an instruction that goes on had a part before it that went on. -/
theorem ok_of_bind {α β : Type} {x : X α} {f : α → X β} {b : β} (went : (x >>= f) = .ok b) : ∃ a, x = .ok a ∧ f a = .ok b := by
  cases x with
  | error _ => cases went
  | ok a => exact ⟨a, rfl, went⟩

/-- The parts of an instruction in turn: one that goes on, then one that stops. -/
theorem after {α β : Type} {x : X α} {f : α → X β} {a : α} {b : X β} (went : x = .ok a) (rest : f a = b) : (x >>= f) = b := by
  rw [went]
  exact rest

theorem stops {α β : Type} {x : X α} {f : α → X β} {st : Stop} (stopped : x = .error st) : (x >>= f) = .error st := by
  rw [stopped]
  rfl

theorem qPop_cores (s : State) (core q : Nat) :
    (qPop s core q).cores = (modCore s core fun k => { k with qctl := smSet {} k.qctl q { qGet s core q with
      w1 := wd (qTail (qGet s core q) * 2 ^ 32 + (qHead (qGet s core q) + 1) % 2 ^ 32) } }).cores :=
  retest_cores _ _

theorem getSlot_qPop (s : State) (core q : Nat) (t : Tid) : getSlot (qPop s core q) t = getSlot s t := by
  rw [getSlot_of_cores (qPop_cores s core q) t, getSlot_modCore]
  exact fun _ => rfl

/-- A read of a register takes at most a queue's head or a mailbox (R125, R133). -/
theorem readR_keepsThread {n : Nat} {w : Word} (read : readR e s n = .ok (s1, w)) : KeepsThread e.t s s1 := by
  unfold readR at read
  dsimp only at read
  split_ifs at read
  · cases read
    exact keepsThread_of_slot (getSlot_qPop s _ _ _)
  · cases read
    exact keepsThread_of_slot (getSlot_qPop s _ _ _)
  · cases read
    rw [KeepsThread, getSlot_modSlot_same]
    exact ⟨rfl, rfl⟩
  · cases read
  · cases read
    exact ⟨rfl, rfl⟩

theorem opnd_keepsThread {i n : Nat} {w : Word} (read : opnd e s i n = .ok (s1, w)) : KeepsThread e.t s s1 := by
  unfold opnd at read
  split at read
  · cases read
    exact ⟨rfl, rfl⟩
  · exact readR_keepsThread read

theorem phaseRead64_keepsThread {acc l : List Word} {va : Word} {slack : Nat} (read : phaseRead64 e s acc va slack = .ok (s1, l)) :
    KeepsThread e.t s s1 := by
  unfold phaseRead64 at read
  split at read
  · cases read
    exact ⟨rfl, rfl⟩
  · split at read
    · cases read
      exact ⟨rfl, rfl⟩
    · cases read
    · cases read
    · obtain ⟨p, -, read'⟩ := ok_of_bind read
      split at read'
      · split at read'
        · split at read'
          · dsimp only at read'
            split at read'
            · cases read'
              exact ⟨rfl, rfl⟩
            · obtain ⟨-, -, local'⟩ := ok_of_bind read'
              cases local'
              exact keepsThread_of_slot (getSlot_of_cores (homeNote_cores _ _ _ _ _ _ _) _)
          · cases read'
          · cases read'
        · cases read'
      · cases read'

theorem takeRing_keepsThread {tile spark : Bool} {n : BitVec 32} (taken : takeRing e s tile spark = .ok (s1, n)) : KeepsThread e.t s s1 := by
  obtain ⟨-, -, room⟩ := ok_of_bind taken
  dsimp only at room
  split at room
  · cases room
  · cases room
    rw [KeepsThread, getSlot_setSlot_same]
    exact ⟨rfl, rfl⟩

theorem takeRing_gate {tile spark : Bool} {n : BitVec 32} (taken : takeRing e s tile spark = .ok (s1, n)) : ringGate e = .ok () := by
  obtain ⟨_, gate, _⟩ := ok_of_bind taken
  exact gate

/-! ### The task's record (R117, R362) -/

theorem trOp_eq (r : List Word) : trOp r = (r.getD 0 0).toNat % 256 := by rw [trOp, fld_eq, Nat.pow_zero, Nat.div_one, wAt]; rfl
theorem trAfmt_eq (r : List Word) : trAfmt r = (r.getD 0 0).toNat / 2 ^ 16 % 256 := fld_eq _ _ _
theorem trM_eq (r : List Word) : trM r = (r.getD 0 0).toNat / 2 ^ 32 % 2 ^ 16 := fld_eq _ _ _
theorem trN_eq (r : List Word) : trN r = (r.getD 0 0).toNat / 2 ^ 48 := by
  rw [trN, fld_eq, wAt]
  exact Nat.mod_eq_of_lt (by have := ((r.getD 0 0)).isLt; omega)
theorem trRestart_eq (r : List Word) : b2n (trRestart r) = (r.getD 0 0).toNat / 512 % 2 := by
  rw [trRestart, bitAt_eq, wAt, b2n]
  have bit := Nat.mod_two_eq_zero_or_one ((r.getD 0 0).toNat / 2 ^ 9)
  rcases bit with bit | bit <;> simp only [bit] <;> simpa using bit.symm

/-- The format and the footprint of the output of a record r whose destination lies in a page of entry dx, typed if pg. -/
def submitFormat (r : List Word) (dx : TlbEnt) (pg : Bool) : Option Nat :=
  outFormat ((r.getD 0 0).toNat % 256) ((r.getD 0 0).toNat / 2 ^ 16 % 256) (if pg then entFmt dx else 0) (if pg then entGeom dx else 0)
def submitFoot (r : List Word) (dx : TlbEnt) (pg : Bool) : Nat :=
  footprint ((r.getD 0 0).toNat / 2 ^ 32 % 2 ^ 16) ((r.getD 0 0).toNat / 2 ^ 48) (submitFormat r dx pg)

theorem overBound_iff (c : Csrs) (foot : Nat) : overBound c foot = true ↔
    (c.sbound ≠ 0 ∧ c.sbound.toNat < c.scount.toNat + 1) ∨ (c.fbound ≠ 0 ∧ c.fbound.toNat < c.fcount.toNat + foot) := by
  simp only [overBound, Bool.or_eq_true, Bool.and_eq_true, bne_iff_ne, decide_eq_true_eq, gt_iff_lt]

/-- The record r at recA has been read in state s2; its handle names a bead, and its destination is a writable place outside the aperture. -/
structure RecordRead (s : State) (e : Env) (s1 s2 : State) (recA : Word) (r : List Word) (k u dk : Nat) (dx : TlbEnt) (pg : Bool) : Prop where
  even : recA.toNat % 64 = 0
  read : phaseRead64 e s1 [recA] recA (dskOf (getSlot s s.cur)) = .ok (s2, recA :: r)
  bead : NamesBead s e (r.getD 7 0) k u
  outside : 0x1000000 ≤ (r.getD 5 0).toNat
  dest : place e (r.getD 5 0) 2 (dskOf (getSlot s s.cur)) = .ok (.mem dk dx pg)

/-- The bead words that the submission of record r at recA writes (R104, R362). -/
def submitWords (r : List Word) (recA : Word) (f : Option Nat) (foot : Nat) : List Word :=
  [BitVec.ofNat 64 ((r.getD 0 0).toNat / 512 % 2 * 2 ^ 48 + (r.getD 0 0).toNat / 2 ^ 48 * 2 ^ 32 + (r.getD 0 0).toNat / 2 ^ 32 % 2 ^ 16 * 2 ^ 16 +
    f.getD 0 * 2 ^ 8 + 1), recA, 0, 0, BitVec.ofNat 64 foot, r.getD 2 0, r.getD 3 0, r.getD 4 0]

theorem beadWords_eq (r : List Word) (recA : Word) (f : Option Nat) (foot : Nat) : beadWords r recA f foot = submitWords r recA f foot := by
  rw [beadWords, trRestart_eq, trN_eq, trM_eq]
  rfl

theorem xorshift_steps (x : BitVec 32) : xorshift x = stepsOf 1 x := rfl

/-- The operation that a submission sends: words ws, the rounding context past its step, for TENQ a new root chain (R107, R259, R378). -/
def submitRequest (s : State) (tenq : Bool) (q : BitVec 32) (ws : List Word) (h : Word) : BeadOp :=
  let sub : Sub :=
    { rm := (getSlot s s.cur).csr.fmode.setWidth 3, sat := (getSlot s s.cur).csr.fmode.getLsbD 3,
      seed := stepsOf 1 (getSlot s s.cur).csr.fseed, seq := q, tenq := if tenq then some (.thread s.cur (uidOf s) h) else none }
  if tenq then .tenq ws sub (chainOf s ((getSlot s s.cur).chainSeq + 1)) else .suspend ws sub

/-- The state of a submission that has taken its ring entry in s3: the generator stepped, for TENQ a new root chain (R107, R259). -/
def submitState (s s3 : State) (tenq : Bool) : State :=
  let stepped := setSeed s3 s.cur (stepsOf 1 (getSlot s s.cur).csr.fseed)
  if tenq then advanced s stepped else stepped

theorem submitState_fseed (s s3 : State) (tenq : Bool) :
    (getSlot (submitState s s3 tenq) s.cur).csr.fseed = stepsOf 1 (getSlot s s.cur).csr.fseed := by
  cases tenq <;> simp [submitState, advanced, setSeed]

section
variable {enc : BitVec 32} {d a dk : Nat} {tenq pg : Bool} {recA : Word} {r : List Word} {dx : TlbEnt}
variable (runs : Runs s) (checks : chk (envOf 4 enc s) [a] [d] [] = .ok ()) (record : opnd (envOf 4 enc s) s 0 a = .ok (s1, recA))
  (first : (getSlot s s.cur).ph.length < 12)
include runs checks record first

theorem submitOp_misaligned (gate : ringGate (envOf 4 enc s) = .ok ()) (odd : recA.toNat % 64 ≠ 0) :
    submitOp enc d a tenq s = .next (takeTrap s s.cur 0x03 recA (getSlot s s.cur).pc) := by
  refine thr_stop runs.1 runs.2 (st := .trap 0x03 recA) ?_
  refine (if_pos first).trans (after gate (after checks (after record ((if_pos first).trans ?_))))
  exact stops (aligned_trap odd)

/-- A SUSPEND over its bounds under the policy bit (R118). -/
theorem submitOp_refused (gate : ringGate (envOf 4 enc s) = .ok ()) (got : RecordRead s (envOf 4 enc s) s1 s2 recA r k u dk dx pg)
    (exceeds : overBound (getSlot s s.cur).csr (submitFoot r dx pg) = true) (policy : (getSlot s s.cur).csr.spolicy = true) :
    submitOp enc d a false s = .next (takeTrap s s.cur 0x0C (r.getD 7 0) (getSlot s s.cur).pc) := by
  refine thr_stop runs.1 runs.2 (st := .trap 0x0C (r.getD 7 0)) ?_
  refine (if_pos first).trans (after gate (after checks (after record ((if_pos first).trans ?_))))
  refine after (aligned_ok got.even) (after got.read (after (beadAt_named (e := envOf 4 enc s) rfl got.bead) ?_))
  refine after (if_pos (decide_eq_true got.outside)) (after (a := (if pg then entFmt dx else 0, if pg then entGeom dx else 0)) ?_ ?_)
  · refine after got.dest ?_
    cases pg with
    | _ => rfl
  · refine stops (if_neg ?_)
    have bound : overBound (getSlot s s.cur).csr (footprint (trM r) (trN r) (outFormat (trOp r) (trAfmt r) (if pg then entFmt dx else 0)
        (if pg then entGeom dx else 0))) = true := by
      rw [trOp_eq, trAfmt_eq, trM_eq, trN_eq]
      exact exceeds
    simp only [envOf_sl, List.drop_one, List.tail_cons, bound, policy, Bool.not_false, Bool.and_self, Bool.not_true, Bool.false_eq_true, not_false_eq_true]

theorem submitOp_sends (got : RecordRead s (envOf 4 enc s) s1 s2 recA r k u dk dx pg)
    (fits : (!(!tenq && overBound (getSlot s s.cur).csr (submitFoot r dx pg) && (getSlot s s.cur).csr.spolicy)) = true)
    (stores : storesDone (getSlot s s.cur) = true) {q : BitVec 32} (taken : takeRing (envOf 4 enc s) s2 true false = .ok (s3, q)) :
    submitOp enc d a tenq s = .next (requestSent s (submitState s s3 tenq)
      (recA :: r ++ [q.setWidth 64, wd (submitFoot r dx pg), wd (b2n (!tenq && overBound (getSlot s s.cur).csr (submitFoot r dx pg)))]) [d] 4
      (dskOf (getSlot s s.cur)) u
      (beadBody s k (r.getD 7 0) (submitRequest s tenq q (submitWords r recA (submitFormat r dx pg) (submitFoot r dx pg)) (r.getD 7 0)))) := by
  have turn := ownTurn_envOf 4 enc s
  refine thr_stop runs.1 runs.2 (st := .keep _) ?_
  refine (if_pos first).trans (after (takeRing_gate taken) (after checks (after record ((if_pos first).trans ?_))))
  refine after (aligned_ok got.even) (after got.read (after (beadAt_named (e := envOf 4 enc s) rfl got.bead) ?_))
  refine after (if_pos (decide_eq_true got.outside)) (after (a := (if pg then entFmt dx else 0, if pg then entGeom dx else 0)) ?_ ?_)
  · refine after got.dest ?_
    cases pg with
    | _ => rfl
  · have form : outFormat (trOp r) (trAfmt r) (if pg then entFmt dx else 0) (if pg then entGeom dx else 0) = submitFormat r dx pg := by
      rw [trOp_eq, trAfmt_eq, submitFormat]
    have foot : footprint (trM r) (trN r) (submitFormat r dx pg) = submitFoot r dx pg := by rw [trM_eq, trN_eq, submitFoot]
    have kept : KeepsThread s.cur s s3 := by
      have s12 := (opnd_keepsThread record).trans (phaseRead64_keepsThread got.read)
      exact s12.trans (takeRing_keepsThread taken)
    have chain : newChain (envOf 4 enc s) (setSeed s3 s.cur (stepsOf 1 (getSlot s s.cur).csr.fseed)) =
        (advanced s (setSeed s3 s.cur (stepsOf 1 (getSlot s s.cur).csr.fseed)), chainOf s ((getSlot s s.cur).chainSeq + 1)) := by
      rw [newChain_own turn, setSeed, getSlot_modCsr_same, ← kept.2]
    have mode : BitVec.ofNat 3 (rcOf (getSlot s s.cur)).rm = (getSlot s s.cur).csr.fmode.setWidth 3 := ofNat_of_toNat rfl
    dsimp only
    rw [List.drop_one, List.tail_cons, form, foot, beadWords_eq]
    refine after (if_pos fits) (after (if_pos stores) (after taken (congrArg Except.error ?_)))
    refine (beadWait_sent turn got.bead.2.2.2 _ _ _ _).trans ?_
    cases tenq with
    | false =>
      simp only [envOf_sl, envOf_t, xorshift_steps, mode, Bool.false_eq_true, if_false]
      rfl
    | true =>
      simp only [envOf_sl, envOf_t, xorshift_steps, mode, chain, if_true]
      rfl

end

/-! ### The completion of a submission (R118, R362) -/

/-- Passing over operands that are 0 (R118). -/
theorem collapse_passes {d : Nat} {r acc : List Word} {foot : Word} (m : Nat) {n i : Nat} (zero : ∀ j, j < m → r.getD (2 + (i + j)) 0 = 0) :
    collapse e s d r acc foot (m + n) i = collapse e s d r acc foot n (i + m) := by
  induction m generalizing i with
  | zero => rw [Nat.zero_add, Nat.add_zero]
  | succ m ih =>
    have next : collapse e s d r acc foot (m + 1 + n) i = collapse e s d r acc foot (m + n) (i + 1) := by
      rw [Nat.succ_add]
      exact if_pos (zero 0 (Nat.succ_pos m))
    rw [next, ih fun j hj => by rw [Nat.add_assoc, Nat.add_comm 1 j]; exact zero (j + 1) (Nat.succ_lt_succ hj), Nat.add_assoc, Nat.add_comm 1 m]

theorem collapse_forces {d : Nat} {r acc : List Word} {foot : Word} {n i : Nat} (turn : OwnTurn s e) (demanded : r.getD (2 + i) 0 ≠ 0)
    (names : NamesBead s e (r.getD (2 + i) 0) k u) :
    collapse e s1 d r acc foot (n + 1) i = .error (.keep (requestSent s
      (modSlot (advanced s s1) s.cur fun x => { x with demand := some (r.getD (2 + i) 0), deliv := none }) (acc ++ [wd i]) [d] 4
      (dskOf (getSlot s s.cur)) u (beadBody s k (r.getD (2 + i) 0) (.force (chainOf s ((getSlot s1 s.cur).chainSeq + 1)))))) := by
  refine (if_neg demanded).trans ?_
  refine after (a := { key := k, handle := r.getD (2 + i) 0, ctx := (getSlot s s.cur).ctx }) ?_ (congrArg Except.error ?_)
  · rw [wAt, beadAt_named turn.slot names]
    rfl
  · rw [beadWait_sent turn names.2.2.2, chainId_own turn, turn.thread]
    rfl

section
variable {enc : BitVec 32} {d a : Nat} {tenq : Bool} {recA q foot o : Word} {r : List Word}

theorem submitted_done {acc : List Word} {f : Csrs → Csrs} (number : wAt acc 9 = q) (written : writeR e s d q = .ok s1) :
    submitted e s d acc f = .ok (done e (modCsr s1 e.t f)) := by
  refine after (a := s1) ?_ rfl
  rw [number, written]

theorem done_modCsr_id (e : Env) (s : State) : done e (modCsr s e.t id) = done e s := by
  rw [done, jumpTo, modCsr, modSlot_modSlot]
  rfl

/-- The phases of a submission that has been sent (R362). -/
structure Submitted (sl : Slot) (recA q foot o : Word) (r : List Word) : Prop where
  record : r.length = 8
  phases : sl.ph = recA :: r ++ [q, foot, o]

theorem Submitted.shape {sl : Slot} (sent : Submitted sl recA q foot o r) :
    sl.ph.length = 12 ∧ wAt sl.ph 9 = q ∧ wAt sl.ph 10 = foot ∧ wAt sl.ph 11 = o ∧ (sl.ph.drop 1).take 8 = r ∧ sl.ph.take 12 = sl.ph := by
  obtain ⟨record, phases⟩ := sent
  have length : sl.ph.length = 12 := by simp [phases, record]
  refine ⟨length, ?_, ?_, ?_, ?_, List.take_of_length_le length.le⟩ <;>
    simp [phases, wAt, record]

/-- What the reply to a submission makes of it (R118, R362). -/
def submitReplied (e : Env) (d : Nat) (tenq : Bool) (q foot o : Word) (r : List Word) : X State :=
  let fin := if tenq then e.s else setRing e.s e.t (q.setWidth 32) .done
  match e.sl.res with
  | some .ok =>
    if tenq then submitted e fin d e.sl.ph id
    else if o != 0 then collapse { e with s := fin } fin d r e.sl.ph foot 3 0
    else submitted e fin d e.sl.ph fun c => { c with scount := c.scount + 1, fcount := c.fcount + foot }
  | some (.fault c v) => .error (.trapIn (setRing e.s e.t (q.setWidth 32) .done) c v e.sl.pc)
  | _ => .error .cond

theorem setRing_chainSeq (s : State) (t : Tid) (n : BitVec 32) (st : RingSt) : (getSlot (setRing s t n st) t).chainSeq = (getSlot s t).chainSeq := by
  rw [setRing, getSlot_modSlot_same]

theorem thr_congr {len : Word} {enc : BitVec 32} {f g : Env → X State} (same : f (envOf len enc s) = g (envOf len enc s)) :
    thr len enc s f = thr len enc s g := by simp only [thr, same]

/-- A later issue of a submission goes on from the reply. -/
theorem submitOp_later (checks : chk (envOf 4 enc s) [a] [d] [] = .ok ()) (sent : Submitted (getSlot s s.cur) recA q foot o r) :
    submitOp enc d a tenq s = thr 4 enc s fun e => submitReplied e d tenq q foot o r := by
  have operand : opnd (envOf 4 enc s) s 0 a = .ok (s, recA) := by rw [opnd, envOf_sl, sent.phases]; rfl
  obtain ⟨length, rfl, rfl, rfl, rfl, whole⟩ := sent.shape
  have later : ¬ (getSlot s s.cur).ph.length < 12 := by omega
  refine thr_congr ?_
  refine (if_neg later).trans (after checks (after operand ((if_neg later).trans ((if_pos length).trans ?_))))
  dsimp only [envOf_sl, envOf_s, envOf_t]
  rw [whole]
  rfl

section
variable (runs : Runs s) (checks : chk (envOf 4 enc s) [a] [d] [] = .ok ()) (sent : Submitted (getSlot s s.cur) recA q foot o r)
include runs checks sent

theorem tenq_completes (res : (getSlot s s.cur).res = some .ok) (written : writeR (envOf 4 enc s) s d q = .ok s1) :
    submitOp enc d a true s = .next (done (envOf 4 enc s) s1) := by
  rw [submitOp_later checks sent, ← done_modCsr_id]
  refine thr_next runs.1 runs.2 ?_
  simp only [submitReplied, envOf_sl, res, if_true]
  exact submitted_done sent.shape.2.1 written

theorem suspend_completes (res : (getSlot s s.cur).res = some .ok) (within : o = 0)
    (written : writeR (envOf 4 enc s) (setRing s s.cur (q.setWidth 32) .done) d q = .ok s1) :
    submitOp enc d a false s = .next (done (envOf 4 enc s)
      (modSlot s1 s.cur fun x => { x with csr := { x.csr with scount := x.csr.scount + 1, fcount := x.csr.fcount + foot } })) := by
  rw [submitOp_later checks sent]
  refine thr_next runs.1 runs.2 ?_
  simp only [submitReplied, envOf_sl, res, within, bne_self_eq_false, Bool.false_eq_true, if_false]
  exact submitted_done sent.shape.2.1 written

theorem suspend_collapses (res : (getSlot s s.cur).res = some .ok) (exceeds : o ≠ 0) (zero : ∀ j, j < 3 → r.getD (2 + j) 0 = 0)
    (written : writeR { envOf 4 enc s with s := setRing s s.cur (q.setWidth 32) .done } (setRing s s.cur (q.setWidth 32) .done) d q = .ok s1) :
    submitOp enc d a false s = .next (done (envOf 4 enc s)
      (modSlot s1 s.cur fun x => { x with csr := { x.csr with scount := 1, fcount := foot } })) := by
  rw [submitOp_later checks sent]
  refine thr_next runs.1 runs.2 ?_
  simp only [submitReplied, envOf_sl, res, bne_iff_ne.mpr exceeds, if_true, Bool.false_eq_true, if_false]
  rw [collapse_passes (n := 0) 3 fun j hj => by rw [Nat.zero_add]; exact zero j hj]
  exact submitted_done sent.shape.2.1 written

theorem suspend_forces (res : (getSlot s s.cur).res = some .ok) (exceeds : o ≠ 0) {j : Nat} (hj : j < 3)
    (zero : ∀ i, i < j → r.getD (2 + i) 0 = 0) (demanded : r.getD (2 + j) 0 ≠ 0)
    (names : NamesBead s { envOf 4 enc s with s := setRing s s.cur (q.setWidth 32) .done } (r.getD (2 + j) 0) k u) :
    submitOp enc d a false s = .next (requestSent s
      (modSlot (advanced s (setRing s s.cur (q.setWidth 32) .done)) s.cur fun x => { x with demand := some (r.getD (2 + j) 0), deliv := none })
      (recA :: r ++ [q, foot, o, BitVec.ofNat 64 j]) [d] 4 (dskOf (getSlot s s.cur)) u
      (beadBody s k (r.getD (2 + j) 0) (.force (chainOf s ((getSlot s s.cur).chainSeq + 1))))) := by
  have turn : OwnTurn s { envOf 4 enc s with s := setRing s s.cur (q.setWidth 32) .done } :=
    ⟨rfl, rfl, congrArg (· + 64) (regGet_modSlot _ _ _ _ _ _)⟩
  obtain ⟨n, split⟩ : ∃ n, 3 = j + (n + 1) := ⟨2 - j, by omega⟩
  rw [submitOp_later checks sent]
  refine thr_stop runs.1 runs.2 (st := .keep _) ?_
  simp only [submitReplied, envOf_sl, res, bne_iff_ne.mpr exceeds, if_true, Bool.false_eq_true, if_false]
  rw [split, collapse_passes j fun i hi => by rw [Nat.zero_add]; exact zero i hi, Nat.zero_add]
  refine (collapse_forces turn demanded names).trans ?_
  rw [sent.phases, List.append_assoc]
  simp only [envOf_s, envOf_t, setRing_chainSeq]
  rfl

theorem submitOp_faults (res : (getSlot s s.cur).res = some (.fault c v)) :
    submitOp enc d a tenq s = .next (takeTrap (setRing s s.cur (q.setWidth 32) .done) s.cur c v (getSlot s s.cur).pc) := by
  rw [submitOp_later checks sent]
  refine thr_stop runs.1 runs.2 (st := .trapIn _ c v (getSlot s s.cur).pc) ?_
  simp only [submitReplied, envOf_sl, res]
  rfl

end

end

theorem exec_suspend (d a : BitVec 7) (s : State) : exec (.suspend d a) s = submitOp (Enc.suspend d a) d.toNat a.toNat false s := rfl
theorem exec_tenq (d a : BitVec 7) (s : State) : exec (.tenq d a) s = submitOp (Enc.tenq d a) d.toNat a.toNat true s := rfl

/-- SUSPEND and TENQ as R118, R362 and R378 say. -/
theorem submitResults : SubmitResults := by
  intro d a p hp s runs
  obtain ⟨enc, tenq, exec_eq, envFor_eq, sel⟩ :
      ∃ enc tenq, exec p.1 s = submitOp enc d.toNat a.toNat tenq s ∧ envFor 4 p.1 s = envOf 4 enc s ∧ p.2 = tenq := by
    simp only [List.mem_cons, List.not_mem_nil, or_false] at hp
    rcases hp with rfl | rfl
    · exact ⟨_, _, exec_suspend d a s, rfl, rfl⟩
    · exact ⟨_, _, exec_tenq d a s, rfl, rfl⟩
  rw [exec_eq, envFor_eq, sel]
  intro e sl checks
  refine ⟨fun s1 recA record first => ⟨fun gate odd => submitOp_misaligned runs checks record first gate odd, ?_⟩, ?_⟩
  · intro even s2 r k u dk dx pg read _ bead outside dest f m n foot ovr
    have got : RecordRead s e s1 s2 recA r k u dk dx pg := ⟨even, read, bead, outside, dest⟩
    have exceeds : ovr ↔ (!tenq && overBound sl.csr (submitFoot r dx pg)) = true := by
      rw [Bool.and_eq_true, overBound_iff, Bool.not_eq_true']
      rfl
    refine ⟨fun gate bound policy => ?_, fun fits stores s3 q taken => ?_⟩
    · obtain ⟨rfl, bound'⟩ : tenq = false ∧ _ := bound
      exact submitOp_refused runs checks record first gate got ((overBound_iff _ _).mpr bound') policy
    · have within : (!(!tenq && overBound sl.csr (submitFoot r dx pg) && sl.csr.spolicy)) = true := by
        rw [exceeds, ← Bool.and_eq_true, Bool.not_eq_true] at fits
        rw [fits, Bool.not_false]
      refine ⟨submitState s s3 tenq, _, submitOp_sends runs checks record first got within stores taken, ?_, submitState_fseed s s3 tenq⟩
      rw [exceeds]
      cases !tenq && overBound sl.csr (submitFoot r dx pg) <;> decide
  · intro recA r q foot o length phases fin
    have sent : Submitted sl recA q foot o r := ⟨length, phases⟩
    refine ⟨fun s1 res isTenq written => ?_, fun s1 res isSuspend within written => ?_, fun res isSuspend exceeds => ⟨fun s1 zero written => ?_, ?_⟩,
      fun c v res => submitOp_faults runs checks sent res⟩
    · subst isTenq
      exact tenq_completes runs checks sent res written
    · subst isSuspend
      exact suspend_completes runs checks sent res within written
    · subst isSuspend
      exact suspend_collapses runs checks sent res exceeds zero written
    · intro j k u hj zero demanded names
      subst isSuspend
      exact suspend_forces runs checks sent res exceeds hj zero demanded names

end Sys2Proof.Proofs
end

section
/-!
PROOFS. SPARK, the handle operations and MPROG (R364 to R366), and what is said of the bead instructions as a whole.
-/

namespace Sys2Proof.Proofs

open Sys2Proof.Machine Sys2Proof.Laws Sys2Proof.Claim

variable {s s1 s2 s3 s4 : State} {e : Env} {h v : Word} {k u : Nat} {c : BitVec 8} {a b d : BitVec 7}

theorem exec_spark (a : BitVec 7) (s : State) : exec (.spark a) s = execSpark a s := rfl
theorem exec_hstat (d a : BitVec 7) (s : State) : exec (.hstat d a) s = execHstat d a s := rfl
theorem exec_hbind (a b : BitVec 7) (s : State) : exec (.hbind a b) s = execHbind a b s := rfl
theorem exec_hdrop (a : BitVec 7) (s : State) : exec (.hdrop a) s = execHdrop a s := rfl
theorem exec_mprog (a b : BitVec 7) (s : State) : exec (.mprog a b) s = execMprog a b s := rfl

/-! ### SPARK (R114, R364) -/

section
variable (runs : Runs s) (checks : chk (envOf 4 (Enc.spark a) s) [a.toNat] [] [] = .ok ())
  (handle : readR (envOf 4 (Enc.spark a) s) s a.toNat = .ok (s1, h))
include runs checks handle

theorem spark_misaligned (gate : ringGate (envOf 4 (Enc.spark a) s) = .ok ()) (odd : h.toNat % 64 ≠ 0) :
    exec (.spark a) s = .next (takeTrap s s.cur 0x03 h (getSlot s s.cur).pc) := by
  rw [exec_spark]
  refine thr_stop runs.1 runs.2 (st := .trap 0x03 h) ?_
  exact after gate (after checks (after handle (stops (beadAt_misaligned odd))))

theorem spark_sends {n : BitVec 32} (names : NamesBead s (envOf 4 (Enc.spark a) s) h k u)
    (taken : takeRing (envOf 4 (Enc.spark a) s) s1 false true = .ok (s2, n)) :
    exec (.spark a) s = .next (done (envOf 4 (Enc.spark a) s) (send s2 4 (dskOf (getSlot s s.cur)) (coreUnit s.cur.core) u
      (.bead { key := k, handle := h, ctx := (getSlot s s.cur).ctx } .spark 0 s.cur.core 0 (.access s.cur (uidOf s) (2 ^ 40 + n.toNat) 0 h)))) := by
  rw [exec_spark]
  refine thr_next runs.1 runs.2 ?_
  refine after (takeRing_gate taken) (after checks (after handle (after (beadAt_named (e := envOf 4 (Enc.spark a) s) rfl names) (after taken ?_))))
  simp only [unitOf', names.2.2.2, Option.getD_some, envOf_sl, envOf_t, uidOf]
  rfl

end

/-! ### One operation and its reply: HSTAT, HBIND, HDROP (R365) -/

section
variable {dst : List Nat} {op : BeadOp} {fin : List Word → X State}

theorem beadOnce_misaligned (fresh : e.sl.res = none) (odd : h.toNat % 64 ≠ 0) : beadOnce e s1 h dst op fin = .error (.trap 0x03 h) := by
  simp only [beadOnce, fresh, beadAt_misaligned odd, Bind.bind, Except.bind]

theorem beadOnce_sends (turn : OwnTurn s e) (fresh : e.sl.res = none) (names : NamesBead s e h k u) :
    beadOnce e s1 h dst op fin = .error (.keep (requestSent s s1 [h] dst 4 (dskOf (getSlot s s.cur)) u (beadBody s k h op))) := by
  simp only [beadOnce, fresh, beadAt_named turn.slot names, beadWait_sent turn names.2.2.2, Bind.bind, Except.bind]

theorem beadOnce_words {l : List Word} (came : e.sl.res = some (.words l)) : beadOnce e s1 h dst op fin = fin l := by
  simp only [beadOnce, came]

theorem beadOnce_ok (came : e.sl.res = some .ok) : beadOnce e s1 h dst op fin = fin [] := by
  simp only [beadOnce, came]

theorem beadOnce_fault (came : e.sl.res = some (.fault c v)) : beadOnce e s1 h dst op fin = .error (.trap c v) := by
  simp only [beadOnce, came, trapX]

end

/-- The end of HSTAT: word 0 of the bead to d. -/
def hstatEnd (e : Env) (s : State) (d : Nat) (l : List Word) : X State := do
  let s ← writeR e s d (l.headD 0)
  return done e s

section
variable (runs : Runs s)
include runs

theorem hstat_acts {x : X State} (checks : chk (envOf 4 (Enc.hstat d a) s) [a.toNat] [d.toNat] [] = .ok ())
    (handle : opnd (envOf 4 (Enc.hstat d a) s) s 0 a.toNat = .ok (s1, h))
    (acts : beadOnce (envOf 4 (Enc.hstat d a) s) s1 h [d.toNat] .hstat (hstatEnd (envOf 4 (Enc.hstat d a) s) s1 d.toNat) = x) :
    exec (.hstat d a) s = .next (match x with | .ok t => t | .error st => applyStop (envOf 4 (Enc.hstat d a) s) st) := by
  rw [exec_hstat]
  cases x with
  | ok t =>
    refine thr_next runs.1 runs.2 ?_
    exact after checks (after handle acts)
  | error st =>
    refine thr_stop runs.1 runs.2 ?_
    exact after checks (after handle acts)

theorem hdrop_acts {x : X State} (checks : chk (envOf 4 (Enc.hdrop a) s) [a.toNat] [] [] = .ok ())
    (handle : opnd (envOf 4 (Enc.hdrop a) s) s 0 a.toNat = .ok (s1, h))
    (acts : beadOnce (envOf 4 (Enc.hdrop a) s) s1 h [] .hdrop (fun _ => .ok (done (envOf 4 (Enc.hdrop a) s) s1)) = x) :
    exec (.hdrop a) s = .next (match x with | .ok t => t | .error st => applyStop (envOf 4 (Enc.hdrop a) s) st) := by
  rw [exec_hdrop]
  cases x with
  | ok t =>
    refine thr_next runs.1 runs.2 ?_
    exact after checks (after handle acts)
  | error st =>
    refine thr_stop runs.1 runs.2 ?_
    exact after checks (after handle acts)

section
variable (checks : chk (envOf 4 (Enc.hbind a b) s) [a.toNat, b.toNat] [] [] = .ok ())
  (handle : opnd (envOf 4 (Enc.hbind a b) s) s 0 a.toNat = .ok (s1, h))
include checks handle

theorem hbind_handle_misaligned (fresh : (getSlot s s.cur).res = none) (odd : h.toNat % 64 ≠ 0) :
    exec (.hbind a b) s = .next (takeTrap s s.cur 0x03 h (getSlot s s.cur).pc) := by
  rw [exec_hbind]
  refine thr_stop runs.1 runs.2 (st := .trap 0x03 h) ?_
  refine after checks (after handle ((if_neg ?_).trans (stops (aligned_trap odd))))
  rw [envOf_sl, fresh]
  exact Bool.false_ne_true

section
variable (fresh : (getSlot s s.cur).res = none) (even : h.toNat % 64 = 0) (value : readR (envOf 4 (Enc.hbind a b) s) s1 b.toNat = .ok (s2, v))
include fresh even value

/-- A first issue with an aligned handle and a value address read. -/
theorem hbind_first {st : Stop} (rest : (do
      aligned v 64
      need (0x1000000 ≤ v.toNat) 0x08 v
      release (envOf 4 (Enc.hbind a b) s)
      beadOnce (envOf 4 (Enc.hbind a b) s) s2 h [] (.hbind v) fun _ => return done (envOf 4 (Enc.hbind a b) s) s2 : X State) = .error st) :
    exec (.hbind a b) s = .next (applyStop (envOf 4 (Enc.hbind a b) s) st) := by
  rw [exec_hbind]
  refine thr_stop runs.1 runs.2 ?_
  refine after checks (after handle ((if_neg ?_).trans (after (aligned_ok even) (after value rest))))
  rw [envOf_sl, fresh]
  exact Bool.false_ne_true

theorem hbind_value_misaligned (odd : v.toNat % 64 ≠ 0) : exec (.hbind a b) s = .next (takeTrap s s.cur 0x03 v (getSlot s s.cur).pc) :=
  hbind_first runs checks handle fresh even value (st := .trap 0x03 v) (stops (aligned_trap odd))

theorem hbind_value_local (aligned : v.toNat % 64 = 0) (inside : v.toNat < 0x1000000) :
    exec (.hbind a b) s = .next (takeTrap s s.cur 0x08 v (getSlot s s.cur).pc) :=
  hbind_first runs checks handle fresh even value (st := .trap 0x08 v)
    (after (aligned_ok aligned) (stops (if_neg (by simpa using inside))))

theorem hbind_sends (aligned : v.toNat % 64 = 0) (outside : 0x1000000 ≤ v.toNat) (stores : storesDone (getSlot s s.cur) = true)
    (names : NamesBead s (envOf 4 (Enc.hbind a b) s) h k u) :
    exec (.hbind a b) s = .next (requestSent s s2 [h] [] 4 (dskOf (getSlot s s.cur)) u (beadBody s k h (.hbind v))) :=
  hbind_first runs checks handle fresh even value (st := .keep _) (after (aligned_ok aligned) (after (if_pos (decide_eq_true outside))
    (after (if_pos stores) (beadOnce_sends (ownTurn_envOf 4 (Enc.hbind a b) s) fresh names))))

end

theorem hbind_replied {x : X State} (came : (getSlot s s.cur).res.isSome = true)
    (acts : beadOnce (envOf 4 (Enc.hbind a b) s) s1 h [] .hdrop (fun _ => .ok (done (envOf 4 (Enc.hbind a b) s) s1)) = x) :
    exec (.hbind a b) s = .next (match x with | .ok t => t | .error st => applyStop (envOf 4 (Enc.hbind a b) s) st) := by
  rw [exec_hbind]
  cases x with
  | ok t =>
    refine thr_next runs.1 runs.2 ?_
    exact after checks (after handle ((if_pos came).trans acts))
  | error st =>
    refine thr_stop runs.1 runs.2 ?_
    exact after checks (after handle ((if_pos came).trans acts))

end

end

/-! ### MPROG (R366) -/

theorem uopOk_iff {x : Nat} (small : x < 2 ^ 16) : uopOk x = true ↔
    x / 2 ^ 12 ≤ 8 ∧ (x / 2 ^ 9 % 8 = 0 ∨ x / 2 ^ 9 % 8 = 3 ∨ x / 2 ^ 9 % 8 = 4) ∧ x % 8 = 0 ∧
      (x / 2 ^ 12 = 0 ∨ x / 2 ^ 12 = 6 ∨ x / 2 ^ 12 = 7 → x / 8 % 8 = 0) := by
  have code : uopCode x = x / 2 ^ 12 := Nat.mod_eq_of_lt (by omega)
  have dst : uopDst x = x / 2 ^ 9 % 8 := rfl
  have src : uopSrc2 x = x / 8 % 8 := rfl
  simp only [uopOk, code, dst, src, Bool.and_eq_true, Bool.or_eq_true, decide_eq_true_eq, beq_iff_eq, Bool.not_eq_true',
    List.contains_eq_mem, List.mem_cons, List.not_mem_nil, or_false, decide_eq_false_iff_not, and_assoc]
  tauto

theorem mpOp_eq (w : Word) (j : Nat) : mpOp w j = w.toNat / 2 ^ (16 * j) % 2 ^ 16 := by
  rw [mpOp, fld_eq]
  congr 2
  omega

theorem mprogOk_iff (w0 w1 : Word) : mprogOk w0 w1 = true ↔
    w1.toNat < 2 ^ 16 ∧ w1.toNat / 256 ≤ 3 ∧ 1 ≤ w1.toNat % 256 ∧ w1.toNat % 256 ≤ 4 ∧
      (∀ j, w1.toNat % 256 ≤ j → j < 4 → w0.toNat / 2 ^ (16 * j) % 2 ^ 16 = 0) ∧
      ∀ j, j < w1.toNat % 256 → uopOk (w0.toNat / 2 ^ (16 * j) % 2 ^ 16) = true := by
  have count : mpCount w1 = w1.toNat % 256 := by rw [mpCount, fld_eq, Nat.pow_zero, Nat.div_one]; rfl
  have high : fld w1 63 16 = 0 ↔ w1.toNat < 2 ^ 16 := by
    have := w1.isLt
    rw [fld_eq]
    omega
  have init : w1.toNat < 2 ^ 16 → mpInit w1 = w1.toNat / 256 := fun small => by
    rw [mpInit, fld_eq]
    omega
  simp only [mprogOk, count, Bool.and_eq_true, beq_iff_eq, decide_eq_true_eq, List.all_eq_true, List.mem_range, mpOp_eq, high]
  constructor
  · rintro ⟨⟨⟨⟨small, inits⟩, least⟩, most⟩, ops⟩
    refine ⟨small, init small ▸ inits, least, most, fun j above hj => ?_, fun j below => ?_⟩
    · simpa [Nat.not_lt.mpr above] using ops j hj
    · simpa [below] using ops j (by omega)
  · rintro ⟨small, inits, least, most, zero, ops⟩
    refine ⟨⟨⟨⟨small, (init small).symm ▸ inits⟩, least⟩, most⟩, fun j hj => ?_⟩
    split
    next below => exact ops j below
    next above => exact beq_iff_eq.mpr (zero j (Nat.not_lt.mp above) hj)

section
variable {n va w0 w1 : Word}
variable (runs : Runs s) (checks : chk (envOf 4 (Enc.mprog a b) s) [a.toNat, b.toNat] [] [] = .ok ())
  (slot : opnd (envOf 4 (Enc.mprog a b) s) s 0 a.toNat = .ok (s1, n)) (record : opnd (envOf 4 (Enc.mprog a b) s) s1 1 b.toNat = .ok (s2, va))
include runs checks slot record

theorem mprog_slot (outside : ¬ (1 ≤ n.toNat ∧ n.toNat ≤ 15)) : exec (.mprog a b) s = .next (takeTrap s s.cur 0x12 0 (getSlot s s.cur).pc) := by
  rw [exec_mprog]
  refine thr_stop runs.1 runs.2 (st := .trap 0x12 0) ?_
  refine after checks (after slot (after record (stops (if_neg ?_))))
  simpa using outside

section
variable (least : 1 ≤ n.toNat) (most : n.toNat ≤ 15)
include least most

theorem mprog_misaligned (odd : va.toNat % 16 ≠ 0) : exec (.mprog a b) s = .next (takeTrap s s.cur 0x03 va (getSlot s s.cur).pc) := by
  rw [exec_mprog]
  refine thr_stop runs.1 runs.2 (st := .trap 0x03 va) ?_
  refine after checks (after slot (after record (after (if_pos ?_) (stops (aligned_trap odd)))))
  simp [least, most]

/-- With its record read, MPROG goes on from the reply of the tile scheduler. -/
theorem mprog_read (even : va.toNat % 16 = 0)
    (first : phaseRead (envOf 4 (Enc.mprog a b) s) s2 [n, va] [] va 8 (dskOf (getSlot s s.cur)) = .ok (s3, [n, va, w0]))
    (second : phaseRead (envOf 4 (Enc.mprog a b) s) s3 [n, va, w0] [] (va + 8) 8 (dskOf (getSlot s s.cur)) = .ok (s4, [n, va, w0, w1]))
    {x : X State} (rest : (match gotReply (envOf 4 (Enc.mprog a b) s) [n, va, w0, w1] with
      | some .ok => .ok (done (envOf 4 (Enc.mprog a b) s) s4)
      | some (.fault c v) => trapX c v
      | some _ => .error .cond
      | none => do
        need (mprogOk w0 w1) 0x12 0
        .error (sendWait (envOf 4 (Enc.mprog a b) s) s4 [n, va, w0, w1] [] 4 (dskOf (getSlot s s.cur)) (coreUnit (svcCore (coreCl s.cur.core)))
          (.mprog n.toNat w0 w1 (.thread s.cur (uidOf s) va))) : X State) = x) :
    exec (.mprog a b) s = .next (match x with | .ok t => t | .error st => applyStop (envOf 4 (Enc.mprog a b) s) st) := by
  have bounds : need (1 ≤ n.toNat && n.toNat ≤ 15) 0x12 0 = .ok () := if_pos (by simp [least, most])
  rw [exec_mprog]
  cases x with
  | ok t =>
    refine thr_next runs.1 runs.2 ?_
    exact after checks (after slot (after record (after bounds (after (aligned_ok even) (after first (after second rest))))))
  | error st =>
    refine thr_stop runs.1 runs.2 ?_
    exact after checks (after slot (after record (after bounds (after (aligned_ok even) (after first (after second rest))))))

end

end

theorem perform_mprog {unit n : Nat} {p : Packet} {w0 w1 : Word} {r : Ret} (body : p.body = .mprog n w0 w1 r) :
    perform s unit p = reply (modCl (noteOf s unit p) (unitCl unit) fun c => { c with mprog := smSet (0, 0) c.mprog n (w0, w1) }) 18 unit p r .ok := by
  simp only [perform, body, mprogPerform]

/-! ### The claim -/

/-- The handle operations and MPROG as R364 to R366 say. -/
theorem handleResults : HandleResults := by
  refine ⟨fun a s runs checks s1 h handle => ⟨spark_misaligned runs checks handle, fun k u s2 n names taken => spark_sends runs checks handle names taken⟩,
    fun d a p hp s runs checks s1 h handle => ?_, fun a b s runs checks s1 h handle => ?_, fun a b s runs checks s1 n s2 va slot record => ?_,
    fun s unit p n w0 w1 r body => perform_mprog body⟩
  · simp only [List.mem_cons, List.not_mem_nil, or_false] at hp
    rcases hp with rfl | rfl
    · refine ⟨fun fresh odd => hstat_acts runs checks handle (beadOnce_misaligned fresh odd),
        fun fresh k u names => hstat_acts runs checks handle (beadOnce_sends (ownTurn_envOf _ _ _) fresh names),
        fun v l came s2 written => ?_, fun empty => absurd empty (List.cons_ne_nil _ _), fun c v came => hstat_acts runs checks handle (beadOnce_fault came)⟩
      refine hstat_acts runs checks handle (x := .ok _) ((beadOnce_words came).trans (after ?_ rfl))
      exact written
    · refine ⟨fun fresh odd => hdrop_acts runs checks handle (beadOnce_misaligned fresh odd),
        fun fresh k u names => hdrop_acts runs checks handle (beadOnce_sends (ownTurn_envOf _ _ _) fresh names),
        fun v l came s2 same => ?_, fun _ came => hdrop_acts runs checks handle (beadOnce_ok came),
        fun c v came => hdrop_acts runs checks handle (beadOnce_fault came)⟩
      rw [(same : s2 = s1)]
      exact hdrop_acts runs checks handle (beadOnce_words came)
  · refine ⟨hbind_handle_misaligned runs checks handle, fun fresh even s2 v value => ⟨hbind_value_misaligned runs checks handle fresh even value,
      hbind_value_local runs checks handle fresh even value, fun aligned outside stores k u names =>
      hbind_sends runs checks handle fresh even value aligned outside stores names⟩, fun came => ?_, fun c v came => ?_⟩
    · exact hbind_replied runs checks handle (by rw [came]; rfl) (beadOnce_ok came)
    · exact hbind_replied runs checks handle (by rw [came]; rfl) (beadOnce_fault came)
  · refine ⟨mprog_slot runs checks slot record, mprog_misaligned runs checks slot record, fun least most even s3 s4 w0 w1 first second => ?_⟩
    intro op count good
    have ok : mprogOk w0 w1 = true ↔ good := by
      refine (mprogOk_iff w0 w1).trans ?_
      refine and_congr Iff.rfl (and_congr Iff.rfl (and_congr Iff.rfl (and_congr Iff.rfl (and_congr Iff.rfl ?_))))
      exact forall₂_congr fun j _ => uopOk_iff (Nat.mod_lt _ (by decide))
    have read := fun {x} => mprog_read runs checks slot record least most even first second (x := x)
    refine ⟨fun fresh kept => ?_, fun fresh broken => ?_, fun came => ?_⟩
    · refine read (x := .error (.keep (requestSent s s4 [n, va, w0, w1] [] 4 (dskOf (getSlot s s.cur)) (coreUnit (svcCore (coreCl s.cur.core)))
        (.mprog n.toNat w0 w1 (.thread s.cur (uidOf s) va))))) ?_
      rw [show gotReply (envOf 4 (Enc.mprog a b) s) [n, va, w0, w1] = none from fresh]
      exact after (if_pos (ok.mpr kept)) rfl
    · refine read (x := .error (.trap 0x12 0)) ?_
      rw [show gotReply (envOf 4 (Enc.mprog a b) s) [n, va, w0, w1] = none from fresh]
      exact stops (if_neg fun kept => broken (ok.mp kept))
    · refine read (x := .ok (done (envOf 4 (Enc.mprog a b) s) s4)) ?_
      rw [show gotReply (envOf 4 (Enc.mprog a b) s) [n, va, w0, w1] = some .ok from came]

/-- Settles O38: each bead instruction in its sending and in its completing phase. -/
theorem beadInstructionResults : Obligations.BeadInstructionResults := ⟨demandResults, submitResults, handleResults⟩

end Sys2Proof.Proofs
end

section
/-!
PROOFS. The bead table: what each operation on a bead does in each of the bead's states (R105, R106, R109 to R112, R114, R115).
-/

namespace Sys2Proof.Proofs

open Sys2Proof.Machine Sys2Proof.Laws Sys2Proof.Claim

variable {s t : State} {unit key : Nat} {p : Packet} {b : BeadRef}

/-! ### Memory under the updates of a bead -/

theorem TrafficOnly.mem (h : TrafficOnly s t) : t.mem = s.mem := (congrArg State.mem h).trans rfl

theorem send_mem (s : State) (cls slack src dst : Nat) (x : Body) : (send s cls slack src dst x).mem = s.mem := (send_trafficOnly _ _ _ _ _ _).mem

theorem sendEnqueue_mem (s : State) (unit uid : Nat) (src : RecSrc) : (sendEnqueue s unit uid src).mem = s.mem := by
  unfold sendEnqueue
  dsimp only
  split
  · exact send_mem _ _ _ _ _ _
  · rfl

/-- The PARKs that a write releases leave memory as the write made it (R356). -/
theorem homeWrite_mem (s : State) (k n v : Nat) : (homeWrite s k n v).mem = memWrite s.mem k n v := by
  rw [← rawStore_mem, homeWrite, releaseParks]
  split
  · rfl
  · refine foldl_keeps State.mem (fun t x => ?_) _ _
    split
    · split
      · exact sendEnqueue_mem _ _ _ _
      · rfl
    · rfl

/-- A word of a bead is not changed by a write of another. -/
theorem bdWord_bdPut_other {i j : Nat} (w : Word) (other : i ≠ j) : bdWord (bdPut s key i w) key j = bdWord s key j := by
  rw [bdWord, bdPut, homeWrite_mem, memRead_memWrite_apart, ← bdWord]
  omega

theorem bdWord_congr (same : t.mem = s.mem) (key i : Nat) : bdWord t key i = bdWord s key i := by rw [bdWord, same, ← bdWord]

theorem wfcFree_mem (s : State) (c : Word) : (wfcFree s c).mem = s.mem := by
  unfold wfcFree
  split <;> rfl

theorem sparkEnd_mem (s : State) (c : Word) (key : Nat) : (sparkEnd s c key).mem = s.mem := by
  unfold sparkEnd
  split
  · exact wfcFree_mem _ _
  · rfl

theorem tenqNotice_mem (s : State) (unit key : Nat) (st : RingSt) (flags : BitVec 6) : (tenqNotice s unit key st flags).mem = s.mem := by
  unfold tenqNotice
  dsimp only
  split
  · exact send_mem _ _ _ _ _ _
  · rfl

theorem leaveClaimed_mem (s : State) (unit key : Nat) (st : RingSt) (flags : BitVec 6) : (leaveClaimed s unit key st flags true).mem = s.mem :=
  (sparkEnd_mem _ _ _).trans (tenqNotice_mem _ _ _ _ _)

/-- A bead whose word 3 is 0 has no waiters (R106). -/
theorem waitersOf_empty (empty : bdWord s key 3 = 0) : waitersOf s unit key = [] := by
  rw [waitersOf, empty]
  rfl

/-! ### The record's words (R104, R105) -/

theorem bdState_eq (s : State) (key : Nat) : bdState s key = (bdWord s key 0).toNat % 16 := by
  rw [bdState, fld_eq, Nat.pow_zero, Nat.div_one]
  rfl

theorem bdBad_iff (s : State) (key : Nat) : bdBad s key = false ↔
    (bdWord s key 0).toNat / 2 ^ 50 = 0 ∧ (bdWord s key 0).toNat / 16 % 16 = 0 ∧ (bdWord s key 0).toNat % 16 < 6 := by
  have high : fld (bdWord s key 0) 63 50 = (bdWord s key 0).toNat / 2 ^ 50 := by
    rw [fld_eq]
    exact Nat.mod_eq_of_lt (by have := (bdWord s key 0).isLt; omega)
  have low : fld (bdWord s key 0) 3 0 = (bdWord s key 0).toNat % 16 := bdState_eq s key
  have mid : fld (bdWord s key 0) 7 4 = (bdWord s key 0).toNat / 16 % 16 := fld_eq _ _ _
  simp only [bdBad, high, low, mid, Bool.or_eq_false_iff, bne_eq_false_iff_eq, decide_eq_false_iff_not, ge_iff_le, not_le, and_assoc]

theorem bdCause_eq (w : Word) : BitVec.ofNat 8 (fld w 7 0) = w.setWidth 8 := by
  apply BitVec.eq_of_toNat_eq
  rw [fld_eq, BitVec.toNat_ofNat, BitVec.toNat_setWidth, Nat.pow_zero, Nat.div_one, Nat.mod_mod]

theorem bdBind_eq (s : State) (key : Nat) (v : Word) : bdBind s key v = setSub (bdPut (bdPut (bdPut s key 0
    (wd ((bdWord s key 0).toNat / 2 ^ 8 % 2 ^ 40 * 2 ^ 8 + 3))) key 1 v) key 2 0) key {} := by
  rw [bdBind, fld_eq]
  rfl

/-! ### FORCE and HWAIT by the bead's state (R109 to R111) -/

section
variable {f : Word} {w : Waiter} {out : State → Res → State}

theorem bdForce_free (st : bdState s b.key = 0) : bdForce s unit b f w out = out s (.fault 0x08 b.handle) := by simp only [bdForce, st]

theorem bdForce_suspended (st : bdState s b.key = 1) :
    bdForce s unit b f w out = appendWaiter (out (bdClaim s unit b f true) .waits) unit b.key w := by simp only [bdForce, st]

theorem bdForce_claimed (st : bdState s b.key = 2) (other : bdWord s b.key 2 ≠ f) : bdForce s unit b f w out =
    sendEdge (demandTask (appendWaiter (out s .waits) unit b.key w) unit b.key) unit f (bdWord s b.key 2) b := by
  simp only [bdForce, st, other, if_false]

theorem bdForce_own (st : bdState s b.key = 2) (own : bdWord s b.key 2 = f) : bdForce s unit b f w out =
    (if chainSpark (out s (.fault 0x0B b.handle)) f then bdFail (out s (.fault 0x0B b.handle)) unit b 0x0B else out s (.fault 0x0B b.handle)) := by
  simp only [bdForce, st, own, if_true]

theorem bdForce_value (st : bdState s b.key = 3) : bdForce s unit b f w out = out s (.value (bdWord s b.key 1) false 0) := by
  simp only [bdForce, st]
  rfl

theorem bdForce_failed (st : bdState s b.key = 4) : bdForce s unit b f w out = out s (.fault ((bdWord s b.key 2).setWidth 8) b.handle) := by
  simp only [bdForce, st, bdCause_eq]

theorem bdForce_poisoned (st : bdState s b.key = 5) : bdForce s unit b f w out = out s (.value (bdWord s b.key 1) true 0) := by
  simp only [bdForce, st]
  rfl

theorem bdHwait_free (st : bdState s b.key = 0) : bdHwait s unit b w out = out s (.fault 0x08 b.handle) := by simp only [bdHwait, st]

theorem bdHwait_waits (st : bdState s b.key = 1 ∨ bdState s b.key = 2) : bdHwait s unit b w out = appendWaiter (out s .waits) unit b.key w := by
  rcases st with st | st <;> simp only [bdHwait, st]

theorem bdHwait_value (st : bdState s b.key = 3) : bdHwait s unit b w out = out s (.value (bdWord s b.key 1) false 0) := by
  simp only [bdHwait, st]
  rfl

theorem bdHwait_failed (st : bdState s b.key = 4) : bdHwait s unit b w out = out s (.fault ((bdWord s b.key 2).setWidth 8) b.handle) := by
  simp only [bdHwait, st, bdCause_eq]

theorem bdHwait_poisoned (st : bdState s b.key = 5) : bdHwait s unit b w out = out s (.value (bdWord s b.key 1) true 0) := by
  simp only [bdHwait, st]
  rfl

end

/-! ### An operation performed at its bead's home (R109) -/

theorem reply_clusters (s : State) (cls unit : Nat) (p : Packet) (r : Ret) (x : Res) : (reply s cls unit p r x).clusters = s.clusters := by
  unfold reply
  split
  · rfl
  · exact (inject_trafficOnly _ _).clusters

theorem chainSpark_of_clusters (same : t.clusters = s.clusters) (c : Word) : chainSpark t c = chainSpark s c := by
  rw [chainSpark, getCl, same, ← getCl, ← chainSpark]

section
variable {op : BeadOp} {wl wc : Nat} {cont : Word} {r : Ret}

theorem perform_bead (body : p.body = .bead b op wl wc cont r) :
    perform s unit p = bdPerform (noteOf s unit p) unit p b op wl wc cont r := by simp only [perform, body]

theorem bdPerform_bad (bad : bdBad s b.key = true) :
    bdPerform s unit p b op wl wc cont r = if bdAsked op then reply s 18 unit p r (.fault 0x12 b.handle) else s := by
  simp only [bdPerform, bad, if_true, bdReply]

variable (good : bdBad s b.key = false)
include good

theorem bdPerform_force (f : Word) : bdPerform s unit p b (.force f) wl wc cont r =
    bdForce s unit b f (waiterOf s b p false f wl wc cont r) (fun t x => reply t 18 unit p r x) := by
  simp only [bdPerform, good, Bool.false_eq_true, if_false]
  rfl

theorem bdPerform_hwait (f : Word) : bdPerform s unit p b (.hwait f) wl wc cont r =
    bdHwait s unit b (waiterOf s b p true f wl wc cont r) (fun t x => reply t 18 unit p r x) := by
  simp only [bdPerform, good, Bool.false_eq_true, if_false]
  rfl

/-- On a bead that is not CLAIMED the events of its task come to nothing. -/
theorem bdPerform_unclaimed (event : bdAsked op = false) (st : bdState s b.key ≠ 2) : bdPerform s unit p b op wl wc cont r = s := by
  have left : (bdState s b.key != 2) = true := bne_iff_ne.mpr st
  cases op with
  | completion v f => simp only [bdPerform, good, Bool.false_eq_true, if_false, bdComplete, left, if_true]
  | poisoned v f => simp only [bdPerform, good, Bool.false_eq_true, if_false, bdComplete, left, if_true]
  | engFault c => simp only [bdPerform, good, Bool.false_eq_true, if_false, st]
  | opFail c h => simp only [bdPerform, good, Bool.false_eq_true, if_false, bdOpFail, left, if_true]
  | death => simp only [bdPerform, good, Bool.false_eq_true, if_false, st]
  | _ => cases event

theorem bdPerform_spark : bdPerform s unit p b .spark wl wc cont r =
    if bdState s b.key = 0 then reply s 18 unit p r (.fault 0x08 b.handle)
    else reply (if bdState s b.key = 1 then bdSpark s unit b else s) 18 unit p r .ok := by
  simp only [bdPerform, good, Bool.false_eq_true, if_false, bdReply]

theorem bdPerform_suspend (ws : List Word) (sub : Sub) : bdPerform s unit p b (.suspend ws sub) wl wc cont r =
    if bdState s b.key = 0 then reply (bdSubmit s b ws sub) 18 unit p r .ok else reply s 18 unit p r (.fault 0x08 b.handle) := by
  simp only [bdPerform, good, Bool.false_eq_true, if_false, bdReply]

theorem bdPerform_tenq (ws : List Word) (sub : Sub) (c : Word) : bdPerform s unit p b (.tenq ws sub c) wl wc cont r =
    if bdState s b.key = 0 then reply (bdClaim (bdSubmit s b ws sub) unit b c true) 18 unit p r .ok
    else reply s 18 unit p r (.fault 0x08 b.handle) := by
  simp only [bdPerform, good, Bool.false_eq_true, if_false, bdReply]

theorem bdPerform_hbind (v : Word) : bdPerform s unit p b (.hbind v) wl wc cont r =
    if bdState s b.key = 0 ∨ bdState s b.key = 4 then reply (bdBind s b.key v) 18 unit p r .ok
    else if bdState s b.key = 1 then wakeAll (reply (bdBind s b.key v) 18 unit p r .ok) unit b.key (.value v false 0)
    else reply s 18 unit p r (.fault 0x08 b.handle) := by
  simp only [bdPerform, good, Bool.false_eq_true, if_false, bdReply, Bool.or_eq_true, decide_eq_true_eq]

theorem bdPerform_hdrop : bdPerform s unit p b .hdrop wl wc cont r =
    if bdState s b.key = 2 then reply s 18 unit p r (.fault 0x08 b.handle)
    else if bdState s b.key = 1 then wakeAll (reply (bdFree s b.key) 18 unit p r .ok) unit b.key (.fail 0x0E b.handle)
    else reply (if bdState s b.key = 0 then s else bdFree s b.key) 18 unit p r .ok := by
  simp only [bdPerform, good, Bool.false_eq_true, if_false, bdReply]

theorem bdPerform_hstat : bdPerform s unit p b .hstat wl wc cont r = reply s 18 unit p r (.words [bdWord s b.key 0]) := by
  simp only [bdPerform, good, Bool.false_eq_true, if_false, bdReply]

theorem bdPerform_claim (c : Word) : bdPerform s unit p b (.claim c) wl wc cont r =
    reply (if bdState s b.key = 1 then bdClaim s unit b c false else sparkEnd s c b.key) 18 unit p r .ok := by
  simp only [bdPerform, good, Bool.false_eq_true, if_false, bdReply]

section
variable (st : bdState s b.key = 2)
include st

theorem bdPerform_completes {v : Word} {f : BitVec 6} (bad : Bool) (event : op = if bad then .poisoned v f else .completion v f) :
    bdPerform s unit p b op wl wc cont r =
      (let t := leaveClaimed s unit b.key .done f false
       wakeAll (bdPut (bdPut (bdPut t b.key 0 (bdW0 (bdWord t b.key 0) (if bad then 5 else 3) bad)) b.key 1 v) b.key 2 0) unit b.key
         (.value v bad f)) := by
  subst event
  cases bad <;> simp only [bdPerform, good, bdComplete, st, bne_self_eq_false, Bool.false_eq_true, if_false, if_true]

theorem bdPerform_engFault (c : BitVec 8) : bdPerform s unit p b (.engFault c) wl wc cont r = bdFail s unit b c := by
  simp only [bdPerform, good, st, Bool.false_eq_true, if_false, if_true]

theorem bdPerform_death : bdPerform s unit p b .death wl wc cont r = bdFail s unit b 0x0E := by
  simp only [bdPerform, good, st, Bool.false_eq_true, if_false, if_true]

/-- An operand's failure on a bead without waiters suspends the bead again (R112). -/
theorem bdPerform_opFail {c : BitVec 8} {h : Word} (empty : bdWord s b.key 3 = 0) : bdPerform s unit p b (.opFail c h) wl wc cont r =
    (let t := leaveClaimed s unit b.key (.faulted c) 0 true
     bdPut (bdPut t b.key 0 (bdW0 (bdWord t b.key 0) 1 (bitAt (bdWord t b.key 0) 49))) b.key 2 0) := by
  have alone (x y : Word) : waitersOf (bdPut (bdPut (leaveClaimed s unit b.key (.faulted c) 0 true) b.key 0 x) b.key 2 y) unit b.key = [] := by
    apply waitersOf_empty
    rw [bdWord_bdPut_other _ (by decide), bdWord_bdPut_other _ (by decide), bdWord_congr (leaveClaimed_mem _ _ _ _ _), empty]
  simp only [bdPerform, good, bdOpFail, st, bne_self_eq_false, Bool.false_eq_true, if_false, alone, List.filter_nil, List.foldl_nil, List.find?_nil]

end

end

/-- The bead table as R109 gives it. -/
theorem beadTable : BeadTable := by
  intro s unit p b op wl wc cont r body s1 w0 w st ok out is
  have state : bdState s1 b.key = st := bdState_eq s1 b.key
  have good : ok → bdBad s1 b.key = false := (bdBad_iff s1 b.key).mpr
  have performed : perform s unit p = bdPerform s1 unit p b op wl wc cont r := perform_bead body
  refine ⟨?_, ?_, ?_, ?_, ?_, ?_, ?_, ?_, ?_, ?_, ?_, ?_, ?_, ?_⟩
  · intro bad asked
    refine performed.trans ((bdPerform_bad ?_).trans (if_pos asked))
    rw [← Bool.not_eq_false, bdBad_iff]
    exact bad
  · rintro fine f rfl waiter
    rw [← state]
    have forced := performed.trans (bdPerform_force (good fine) f)
    refine ⟨fun st => forced.trans (bdForce_free st), fun st => forced.trans (bdForce_suspended st),
      fun st other => forced.trans (bdForce_claimed st other), fun st own chain => ?_, fun st own chain => ?_,
      fun st => forced.trans (bdForce_value st), fun st => forced.trans (bdForce_poisoned st), fun st => forced.trans (bdForce_failed st)⟩
    · refine forced.trans ((bdForce_own st own).trans (if_neg ?_))
      rw [chainSpark_of_clusters (reply_clusters _ _ _ _ _ _), chain]
      exact Bool.false_ne_true
    · refine forced.trans ((bdForce_own st own).trans (if_pos ?_))
      rw [chainSpark_of_clusters (reply_clusters _ _ _ _ _ _), chain]
  · rintro fine f rfl
    rw [← state]
    have waited := performed.trans (bdPerform_hwait (good fine) f)
    exact ⟨fun st => waited.trans (bdHwait_free st), fun st => waited.trans (bdHwait_waits st), fun st => waited.trans (bdHwait_value st),
      fun st => waited.trans (bdHwait_poisoned st), fun st => waited.trans (bdHwait_failed st)⟩
  · rintro fine rfl
    rw [← state]
    have sparked := performed.trans (bdPerform_spark (good fine))
    refine ⟨fun st => sparked.trans (if_pos st), fun st => ?_, fun st => ?_⟩
    · rw [if_neg (by omega), if_neg (by omega)] at sparked
      exact sparked
    · rw [if_neg (by omega), if_pos st] at sparked
      exact sparked
  · rintro fine ws sub rfl
    rw [← state]
    have submitted := performed.trans (bdPerform_suspend (good fine) ws sub)
    exact ⟨fun st => submitted.trans (if_pos st), fun st => submitted.trans (if_neg st)⟩
  · rintro fine ws sub c rfl
    rw [← state]
    have submitted := performed.trans (bdPerform_tenq (good fine) ws sub c)
    exact ⟨fun st => submitted.trans (if_pos st), fun st => submitted.trans (if_neg st)⟩
  · rintro fine v rfl
    rw [← state]
    have done := performed.trans (bdPerform_hbind (good fine) v)
    rw [bdBind_eq] at done
    refine ⟨fun st => done.trans (if_pos st), fun st => ?_, fun st => ?_⟩
    · rw [if_neg (by omega), if_pos st] at done
      exact done
    · rw [if_neg (by omega), if_neg (by omega)] at done
      exact done
  · rintro fine rfl
    rw [← state]
    have dropped := performed.trans (bdPerform_hdrop (good fine))
    refine ⟨fun st => dropped.trans (if_pos st), fun st => ?_, fun st => ?_, fun st => ?_⟩
    · rw [if_neg (by omega), if_pos st] at dropped
      exact dropped
    · rw [if_neg (by omega), if_neg (by omega), if_pos st] at dropped
      exact dropped
    · rw [if_neg (by omega), if_neg (by omega), if_neg (by omega)] at dropped
      exact dropped
  · rintro fine rfl
    exact performed.trans (bdPerform_hstat (good fine))
  · rintro fine c rfl
    rw [← state]
    have claimed := performed.trans (bdPerform_claim (good fine) c)
    refine ⟨fun st => ?_, fun st => ?_⟩
    · rw [if_pos st] at claimed
      exact claimed
    · rw [if_neg st] at claimed
      exact claimed
  · intro fine unclaimed event
    exact performed.trans (bdPerform_unclaimed (good fine) event (state.trans_ne unclaimed))
  · rintro fine claimed v f (rfl | rfl) bad
    · have value : bad = false := decide_eq_false (by simp)
      rw [value]
      exact performed.trans (bdPerform_completes (good fine) (state.trans claimed) false rfl)
    · have poisoned : bad = true := decide_eq_true rfl
      rw [poisoned]
      exact performed.trans (bdPerform_completes (good fine) (state.trans claimed) true rfl)
  · rintro fine claimed c (rfl | ⟨rfl, rfl⟩)
    · exact performed.trans (bdPerform_engFault (good fine) (state.trans claimed) c)
    · exact performed.trans (bdPerform_death (good fine) (state.trans claimed))
  · rintro fine claimed c h rfl empty
    exact performed.trans (bdPerform_opFail (good fine) (state.trans claimed) empty)

end Sys2Proof.Proofs
end

section
/-!
PROOFS. Deadlines of waiters and the wait-for chain tables of the roots (R108, R110, R111), and what is said of beads as a whole.
-/

namespace Sys2Proof.Proofs

open Sys2Proof.Machine Sys2Proof.Laws Sys2Proof.Claim

variable {s s1 : State} {cl : Nat} {p : Packet} {a b : Word}

/-! ### A waiter's deadline (R110) -/

theorem exec_waiterDeadline (cl i : Nat) (s : State) : exec (.waiterDeadline cl i) s = execWaiterDeadline cl i s := rfl

theorem waiterDeadline_due {i unit : Nat} {w : Waiter} (found : (getCl s cl).waiters.find? (fun w => w.1 == i) = some (i, w))
    (home : homeOf w.bead = some unit) (own : unitCl unit = cl) (limited : w.deadline ≠ 0) (due : w.deadline ≤ s.tick.toNat) :
    exec (.waiterDeadline cl i) s = .next (wakeOne (dropWaiter s unit w.bead i) unit w (.fail 0x0A 0)) := by
  have passed : ¬ tickN s < w.deadline := Nat.not_lt.mpr due
  simp only [exec_waiterDeadline, execWaiterDeadline, found, home, limited, passed, own, bne_self_eq_false, Bool.or_false, decide_false,
    Bool.false_eq_true, if_false]

/-! ### Edges, questions and answers at a root (R108, R111) -/

/-- Packets of the three kinds that a root takes. -/
def isEdge (s : State) (cl : Nat) (p : Packet) : Bool := match p.body with | .wfcEdge a _ _ _ => wfcRoom s cl a | _ => false
def isQuery (p : Packet) : Bool := match p.body with | .wfcQuery _ _ _ _ => true | _ => false
def isQueryReply (p : Packet) : Bool := match p.body with | .wfcReply _ _ _ _ => true | _ => false

/-- What the root in cluster cl makes of an edge. -/
def edgeTaken (cl : Nat) (p : Packet) (s : State) : State :=
  match p.body with
  | .wfcEdge a b h bead =>
    if (forcersOf s bead a).isEmpty then s else wfcAsk (wfcPut s cl { chain := a, on := some b, handle := h, bead := bead }) cl a b 1
  | _ => s

/-- What it makes of a question. -/
def queryTaken (cl : Nat) (p : Packet) (s : State) : State :=
  match p.body with
  | .wfcQuery a b hops _ =>
    Machine.answer s 18 (coreUnit (svcCore cl)) p (.wfcReply a ((wfcFind s cl b).bind (·.on)) (((wfcFind s cl b).map (·.bead)).getD {}) hops)
  | _ => s

/-- What it makes of an answer, in the state s that has counted it. -/
def answerTaken (cl : Nat) (p : Packet) (s : State) : State :=
  match p.body with
  | .wfcReply a (some x) bead hops =>
    (match wfcFind s cl a with
      | some e =>
        if e.on.isNone then s
        else if x = a then wfcCycle s e bead
        else if hops < 8 then wfcAsk s cl a x (hops + 1)
        else s
      | none => s)
  | _ => s

theorem exec_wfcEdge (cl : Nat) (s : State) : exec (.wfcEdge cl) s = .next (onArrival s (coreUnit (svcCore cl)) 0 (isEdge s cl) (edgeTaken cl)) := rfl
theorem exec_wfcQuery (cl : Nat) (s : State) : exec (.wfcQuery cl) s = .next (onArrival s (coreUnit (svcCore cl)) 0 isQuery (queryTaken cl)) := rfl
theorem exec_wfcQueryReply (cl : Nat) (s : State) :
    exec (.wfcQueryReply cl) s = .next (onArrival s (coreUnit (svcCore cl)) 1 isQueryReply fun p s => answerTaken cl p (platCount s cl p)) := rfl

theorem wfcFind_platCount (s : State) (cl : Nat) (p : Packet) (a : Word) : wfcFind (platCount s cl p) cl a = wfcFind s cl a := by
  unfold platCount wfcFind
  split
  · rw [getCl_modCl_same]
  · rfl

/-- A chain that no spark owns fails by its FORCE alone (R111). -/
theorem wfcCycle_plain {e : Wfc} (met : BeadRef) {unit : Nat} (plain : chainSpark s e.chain = false) (home : homeOf e.bead.key = some unit) :
    wfcCycle s e met = (forcersOf s e.bead e.chain).foldl (fun s w =>
      wakeOne (dropWaiter s unit e.bead.key w.1) unit w.2 (.fail 0x0B (e.handle ||| 1))) s := by
  unfold wfcCycle
  cases homeOf met.key with
  | none => simp only [home]
  | some _ => simp only [plain, home, Bool.false_and, Bool.false_eq_true, if_false]

section
variable {x : Option Word} {bead : BeadRef} {hops : Nat} {e : Wfc}

theorem edgeTaken_recorded {h : Word} (body : p.body = .wfcEdge a b h bead) (waits : forcersOf s bead a ≠ []) :
    edgeTaken cl p s = wfcAsk (wfcPut s cl { chain := a, on := some b, handle := h, bead := bead }) cl a b 1 := by
  simp only [edgeTaken, body, List.isEmpty_iff, waits, if_false]

theorem edgeTaken_dropped {h : Word} (body : p.body = .wfcEdge a b h bead) (ended : forcersOf s bead a = []) : edgeTaken cl p s = s := by
  simp only [edgeTaken, body, ended, List.isEmpty_nil, if_true]

theorem queryTaken_answered {start : Nat} (body : p.body = .wfcQuery a b hops start) : queryTaken cl p s =
    Machine.answer s 18 (coreUnit (svcCore cl)) p (.wfcReply a ((wfcFind s cl b).bind (·.on)) (((wfcFind s cl b).map (·.bead)).getD {}) hops) := by
  simp only [queryTaken, body]

variable (body : p.body = .wfcReply a x bead hops)
include body

theorem answerTaken_free (free : x = none) : answerTaken cl p s = s := by
  subst free
  simp only [answerTaken, body]

variable (known : wfcFind s cl a = some e) (stands : e.on.isSome = true)
include known stands

theorem answerTaken_follows {c : Word} (on : x = some c) (other : c ≠ a) :
    answerTaken cl p s = if hops < 8 then wfcAsk s cl a c (hops + 1) else s := by
  subst on
  simp only [answerTaken, body, known, Option.isNone_eq_false_iff.mpr stands, other, Bool.false_eq_true, if_false]

/-- The chain comes back to itself: its FORCE is withdrawn (R111). -/
theorem answerTaken_cycle {unit : Nat} (on : x = some a) (plain : chainSpark s a = false) (home : homeOf e.bead.key = some unit) :
    answerTaken cl p s = (forcersOf s e.bead e.chain).foldl (fun s w =>
      wakeOne (dropWaiter s unit e.bead.key w.1) unit w.2 (.fail 0x0B (e.handle ||| 1))) s := by
  have own : e.chain = a := beq_iff_eq.mp (List.find?_some (p := fun w : Wfc => w.chain == a) known)
  subst on
  simp only [answerTaken, body, known, Option.isNone_eq_false_iff.mpr stands, Bool.false_eq_true, if_false, if_true]
  exact wfcCycle_plain bead (own ▸ plain) home

end

/-- Deadlines and wait-for chains as R108, R110 and R111 say. -/
theorem chainResults : ChainResults := by
  refine ⟨fun s cl i unit w found home own limited due => waiterDeadline_due found home own limited due, fun s cl p s1 => ⟨?_, ?_, ?_⟩⟩
  · intro a b h bead taken body
    have arrived := (exec_wfcEdge cl s).trans (congrArg _ (onArrival_taken (ok := isEdge s cl) taken (edgeTaken cl)))
    exact ⟨fun waits => arrived.trans (congrArg _ (edgeTaken_recorded body waits)), fun ended => arrived.trans (congrArg _ (edgeTaken_dropped body ended))⟩
  · intro a b hops start taken body
    exact (exec_wfcQuery cl s).trans (congrArg _ ((onArrival_taken (ok := isQuery) taken (queryTaken cl)).trans (queryTaken_answered body)))
  · intro a x bead hops e taken body s2 known stands
    have arrived := (exec_wfcQueryReply cl s).trans
      (congrArg _ (onArrival_taken (ok := isQueryReply) taken fun p s => answerTaken cl p (platCount s cl p)))
    have found : wfcFind s2 cl a = some e := (wfcFind_platCount s1 cl p a).trans known
    refine ⟨fun free => arrived.trans (congrArg _ (answerTaken_free body free)), fun c on other near => ?_, fun c on other far => ?_,
      fun unit on plain home => arrived.trans (congrArg _ (answerTaken_cycle body found stands on plain home))⟩
    · exact arrived.trans (congrArg _ ((answerTaken_follows body found stands on other).trans (if_pos near)))
    · exact arrived.trans (congrArg _ ((answerTaken_follows body found stands on other).trans (if_neg (Nat.not_lt.mpr far))))

/-- Settles O49: the bead table state by state, and the chains that are followed for cycles. -/
theorem beadTableResults : Obligations.BeadTableResults := ⟨beadTable, chainResults⟩

end Sys2Proof.Proofs
end

section
/-!
PROOFS. The tile scheduler's tasks: evaluation and operand demands, dispatch and sparks (R112 to R114, R368, R377).
-/

namespace Sys2Proof.Proofs

open Sys2Proof.Machine Sys2Proof.Laws Sys2Proof.Claim

variable {s t : State} {cl : Nat} {tk : Task}

/-! ### Translation does not look at what a cluster's hardware holds (R144, R153) -/

/-- What a translation looks at is the same in both states: the partitions of the clusters, the contexts, memory, the dies and the cores. -/
structure SameMap (s t : State) : Prop where
  fn : ∀ c, (getCl t c).fn = (getCl s c).fn
  ctxs : t.ctxs = s.ctxs
  mem : t.mem = s.mem
  dies : t.dies = s.dies
  cores : t.cores = s.cores

theorem sameMap_modCl (s : State) (cl : Nat) {f : Cluster → Cluster} (keeps : ∀ c, (f c).fn = c.fn) : SameMap s (modCl s cl f) := by
  refine ⟨fun c => ?_, rfl, rfl, rfl, rfl⟩
  by_cases same : c = cl
  · rw [same, getCl_modCl_same, keeps]
  · rw [getCl, modCl, smGet_smSet_other _ _ _ same, ← getCl]

section
variable (same : SameMap s t)
include same

theorem SameMap.getCtx (ctx : Nat) : Machine.getCtx t ctx = Machine.getCtx s ctx := by rw [Machine.getCtx, same.ctxs, ← Machine.getCtx]

theorem SameMap.physKey (fn pa : Nat) : physKey t fn pa = physKey s fn pa := by
  have share : shareBytes t = shareBytes s := funext fun d => by rw [shareBytes, getDie, same.dies, ← getDie, ← shareBytes]
  unfold Machine.physKey
  rw [share]
  simp only [same.fn]

theorem SameMap.walkNative (fn ctx va n table : Nat) : walkNative t fn ctx va n table = walkNative s fn ctx va n table := by
  induction n generalizing table with
  | zero => rfl
  | succ n ih => simp only [Machine.walkNative, same.physKey, same.mem, ih]

theorem SameMap.walkHost (c : Ctx) (ctx va n table : Nat) : walkHost t c ctx va n table = walkHost s c ctx va n table := by
  induction n generalizing table with
  | zero => rfl
  | succ n ih => simp only [Machine.walkHost, same.mem, ih]

theorem SameMap.tlbCheck (fn : Nat) (x : TlbEnt) : tlbCheck t fn x = tlbCheck s fn x := by
  have placed : compPlaced t fn x = compPlaced s fn x := by simp only [compPlaced, same.physKey]
  unfold Machine.tlbCheck
  rw [placed]

theorem SameMap.walk (ctx va : Nat) : walk t ctx va = walk s ctx va := by
  simp only [Machine.walk, same.getCtx, same.walkHost, same.walkNative, same.tlbCheck]

theorem SameMap.tlbFind (core ctx va : Nat) : tlbFind t core ctx va = tlbFind s core ctx va := by
  rw [Machine.tlbFind, getCore, same.cores, ← getCore, ← Machine.tlbFind]

theorem SameMap.entKey (fn : Nat) (e : TlbEnt) (va need : Nat) : entKey t fn e va need = entKey s fn e va need := by
  rw [Machine.entKey, same.physKey, ← Machine.entKey]

theorem SameMap.globalScr (fn va : Nat) : globalScr t fn va = globalScr s fn va := by
  unfold Machine.globalScr coreFn
  dsimp only
  rw [same.fn]

theorem SameMap.vkey (core : Option Nat) (ctx va need : Nat) : vkey t core ctx va need = vkey s core ctx va need := by
  simp only [Machine.vkey, same.getCtx, same.tlbFind, same.walk, same.entKey, same.globalScr]

theorem SameMap.opndBead (ctx : Nat) (h : Word) : opndBead t ctx h = opndBead s ctx h := by
  simp only [Machine.opndBead, same.vkey]

end

/-! ### Tasks of a cluster -/

theorem modTask_modTask (s : State) (cl key : Nat) (f g : Task → Task) (keeps : ∀ x, (f x).bead = x.bead) :
    modTask (modTask s cl key f) cl key g = modTask s cl key (g ∘ f) := by
  unfold modTask
  rw [modCl_modCl]
  refine congrArg (modCl s cl) (funext fun c => ?_)
  simp only [Function.comp, List.map_map]
  congr 1
  refine List.map_congr_left fun x _ => ?_
  simp only [Function.comp]
  split
  next own => simp only [keeps, own, if_true]
  next other => rfl

theorem dropTask_eq (s : State) (cl key : Nat) :
    dropTask s cl key = modCl s cl fun c => { c with tasks := c.tasks.filter fun x => x.bead.key ≠ key } := by
  refine congrArg (modCl s cl) (funext fun c => ?_)
  congr 1
  refine List.filter_congr fun x _ => ?_
  rw [Bool.eq_iff_iff, bne_iff_ne, decide_eq_true_iff]

theorem tasks_modTask (s : State) (cl key : Nat) (f : Task → Task) :
    (getCl (modTask s cl key f) cl).tasks = (getCl s cl).tasks.map fun t => if t.bead.key = key then f t else t := by
  rw [modTask, getCl_modCl_same]

/-- The one task of a bead, as a change leaves it. -/
theorem find_modTask {f : Task → Task} (keeps : ∀ x, (f x).bead = x.bead) (held : tk ∈ (getCl s cl).tasks)
    (only : ∀ x ∈ (getCl s cl).tasks, x.bead.key = tk.bead.key → x = tk) :
    ((getCl (modTask s cl tk.bead.key f) cl).tasks.find? fun t => t.bead.key == tk.bead.key) = some (f tk) := by
  have key : ((fun x : Task => x.bead.key == tk.bead.key) ∘ fun x => if x.bead.key = tk.bead.key then f x else x) =
      fun x => x.bead.key == tk.bead.key := funext fun x => by
    simp only [Function.comp]
    split
    · rw [keeps]
    · rfl
  rw [tasks_modTask, List.find?_map, key]
  obtain ⟨x, found⟩ : ∃ x, ((getCl s cl).tasks.find? fun x => x.bead.key == tk.bead.key) = some x :=
    Option.isSome_iff_exists.mp (List.find?_isSome.mpr ⟨tk, held, beq_self_eq_true _⟩)
  have own : x = tk := only x (List.mem_of_find?_eq_some found) (beq_iff_eq.mp (List.find?_some (p := fun x : Task => x.bead.key == tk.bead.key) found))
  rw [found, own, Option.map_some, if_pos rfl]

theorem tellBead_home {b : BeadRef} {op : BeadOp} {cont : Word} {r : Ret} {h : Nat} (home : homeOf b.key = some h) :
    tellBead s cl b op cont r = send s 4 (getCl s (unitCl (coreUnit (svcCore cl)))).hsk.toNat (coreUnit (svcCore cl)) h (.bead b op 0 (svcCore cl) cont r) := by
  simp only [tellBead, home]
  rfl

/-- What a task's end with an event of its bead comes to. -/
theorem endTask_home {op : BeadOp} {h : Nat} (home : homeOf tk.bead.key = some h) : endTask s cl tk op =
    (let t := modCl s cl fun c => { c with tasks := c.tasks.filter fun x => x.bead.key ≠ tk.bead.key }
     send t 4 (getCl t (unitCl (coreUnit (svcCore cl)))).hsk.toNat (coreUnit (svcCore cl)) h (.bead tk.bead op 0 (svcCore cl) 0 .none)) := by
  rw [endTask, tellBead_home home, dropTask_eq]

/-! ### The demand of an operand (R105, R113) -/

section
variable {key n i : Nat} (found : ((getCl s cl).tasks.find? fun t => t.bead.key == key) = some tk)
include found

theorem forceNext_misaligned (odd : (wAt tk.ws (2 + i)).toNat % 64 ≠ 0) :
    forceNext s cl key (n + 1) i = endTask s cl tk (.opFail 0x03 (wAt tk.ws (2 + i))) := by
  have some : wAt tk.ws (2 + i) ≠ 0 := fun zero => odd (by rw [zero]; rfl)
  simp only [forceNext, found, some, if_false, bne_iff_ne.mpr odd, if_true]

theorem forceNext_asks {b : BeadRef} (demanded : wAt tk.ws (2 + i) ≠ 0) (even : (wAt tk.ws (2 + i)).toNat % 64 = 0)
    (names : opndBead s tk.bead.ctx (wAt tk.ws (2 + i)) = some b) : forceNext s cl key (n + 1) i =
      tellBead (modTask s cl key fun t => { t with st := .forcing i }) cl b (.force tk.chain) tk.bead.handle (.task cl key) := by
  simp only [forceNext, found, demanded, if_false, even, bne_self_eq_false, Bool.false_eq_true, names]

end

/-! ### TILE_EVALUATE (R113, R368) -/

section
variable {ws : List Word} {h : Nat} (runs : clRuns s cl = true) (oldest : (getCl s cl).tasks.find? (fun t => t.st == .claimed) = some tk)
include runs oldest

theorem tileEvaluate_unread {c : BitVec 8} {va : Word} (unread : loadWords s none tk.bead.ctx tk.recA 8 = .error (c, va)) :
    exec (.tileEvaluate cl) s = .next (endTask s cl tk (.engFault c)) := by
  have step : exec (.tileEvaluate cl) s = execTileEvaluate cl s := rfl
  rw [step]
  simp only [execTileEvaluate, runs, Bool.not_true, Bool.false_eq_true, if_false, oldest, unread]

section
variable (read : loadWords s none tk.bead.ctx tk.recA 8 = .ok ws)
include read

theorem tileEvaluate_refused {c : BitVec 8} (refused : taskCheck ws tk.bead.handle (opndW0 s tk.bead.ctx) (tkOut s { tk with ws := ws })
      (fun n => (getCl s cl).mprog.any fun m => m.1 == n) = some c) :
    exec (.tileEvaluate cl) s = .next (endTask s cl tk (.engFault c)) := by
  have step : exec (.tileEvaluate cl) s = execTileEvaluate cl s := rfl
  rw [step]
  simp only [execTileEvaluate, runs, Bool.not_true, Bool.false_eq_true, if_false, oldest, read, refused]

section
variable (good : taskCheck ws tk.bead.handle (opndW0 s tk.bead.ctx) (tkOut s { tk with ws := ws })
      (fun n => (getCl s cl).mprog.any fun m => m.1 == n) = none)
  (only : ∀ x ∈ (getCl s cl).tasks, x.bead.key = tk.bead.key → x = tk)
include good

theorem tileEvaluate_begins : exec (.tileEvaluate cl) s =
    .next (forceNext (modTask s cl tk.bead.key fun t => { t with ws := ws, vals := [], w0s := [] }) cl tk.bead.key 3 0) := by
  have step : exec (.tileEvaluate cl) s = execTileEvaluate cl s := rfl
  rw [step]
  simp only [execTileEvaluate, runs, Bool.not_true, Bool.false_eq_true, if_false, oldest, read, good]

include only

theorem tileEvaluate_misaligned (odd : (wAt ws 2).toNat % 64 ≠ 0) : exec (.tileEvaluate cl) s =
    .next (endTask (modTask s cl tk.bead.key fun t => { t with ws := ws, vals := [], w0s := [] }) cl tk (.opFail 0x03 (wAt ws 2))) := by
  rw [tileEvaluate_begins runs oldest read good]
  have found := find_modTask (f := fun t => { t with ws := ws, vals := [], w0s := [] }) (fun _ => rfl) (List.mem_of_find?_eq_some oldest) only
  exact congrArg _ (forceNext_misaligned (i := 0) found odd)

theorem tileEvaluate_demands {b : BeadRef} (demanded : wAt ws 2 ≠ 0) (even : (wAt ws 2).toNat % 64 = 0)
    (names : opndBead s tk.bead.ctx (wAt ws 2) = some b) : exec (.tileEvaluate cl) s =
    .next (tellBead (modTask s cl tk.bead.key fun t => { t with ws := ws, vals := [], w0s := [], st := .forcing 0 }) cl b (.force tk.chain)
      tk.bead.handle (.task cl tk.bead.key)) := by
  rw [tileEvaluate_begins runs oldest read good]
  have found := find_modTask (f := fun t => { t with ws := ws, vals := [], w0s := [] }) (fun _ => rfl) (List.mem_of_find?_eq_some oldest) only
  have same : SameMap s (modTask s cl tk.bead.key fun t => { t with ws := ws, vals := [], w0s := [] }) := sameMap_modCl s cl fun _ => rfl
  refine congrArg _ ((forceNext_asks (i := 0) found demanded even ((same.opndBead _ _).trans names)).trans ?_)
  rw [modTask_modTask]
  · rfl
  · exact fun _ => rfl

end

end

end

/-! ### OPERAND_REPLY (R112, R113) -/

/-- What the scheduler of cluster cl makes of the reply to an operand's demand. -/
def operandTaken (cl : Nat) (p : Packet) (s : State) : State :=
  match p.body with
  | .reply (.task _ key) (.value v b f) => operandGot (platCount s cl p) cl key (.value v b f)
  | .reply (.task _ key) (.fault c h) => operandGot (platCount s cl p) cl key (.fail c h)
  | _ => platCount s cl p

section
variable {p : Packet} {key i : Nat} (inTime : p.late = none) (found : (getCl s cl).tasks.find? (fun t => t.bead.key == key) = some tk)
  (forcing : tk.st = .forcing i)
include inTime found forcing

theorem operandTaken_last {v : Word} {b : Bool} {f : BitVec 6} (body : p.body = .reply (.task cl key) (.value v b f)) (last : i = 2) :
    operandTaken cl p s = modTask s cl tk.bead.key fun t =>
      { t with vals := t.vals ++ [v], w0s := t.w0s ++ [opndW0 s tk.bead.ctx (wAt tk.ws 4)], poison := t.poison || b, st := .staging } := by
  have own : tk.bead.key = key := beq_iff_eq.mp (List.find?_some (p := fun x : Task => x.bead.key == key) found)
  subst last
  simp only [operandTaken, body, platCount_inTime inTime, operandGot, found, forcing, own, Nat.sub_self, forceNext]
  rw [modTask_modTask]
  · rfl
  · exact fun _ => rfl

theorem operandTaken_fails {v : Word} {c : BitVec 8} (body : p.body = .reply (.task cl key) (.fault c v)) :
    operandTaken cl p s = endTask s cl tk (.opFail c v) := by
  simp only [operandTaken, body, platCount_inTime inTime, operandGot, found, forcing]

end

theorem exec_operandReply (runs : clRuns s cl = true) :
    exec (.operandReply cl) s = .next (onArrival s (coreUnit (svcCore cl)) 1 isOpndReply (operandTaken cl)) := by
  have step : exec (.operandReply cl) s = .next (if !clRuns s cl then s else onArrival s (coreUnit (svcCore cl)) 1 isOpndReply (operandTaken cl)) := rfl
  rw [step, runs]
  rfl

/-! ### Dispatch and sparks (R113, R114, R366) -/

theorem tileDispatch_next {e : Nat} (runs : clRuns s cl = true) (next : nextTask (engines s cl) (getCl s cl).tasks = some (tk, e)) :
    exec (.tileDispatch cl) s = .next (
      let s1 := modTask s cl tk.bead.key fun t => { t with st := .running e, prog := smGet (0, 0) (getCl s cl).mprog (trSlot tk.ws) }
      if trOp tk.ws = 4 then modCl s1 cl fun c => { c with prog := smSet 0 c.prog e (trSlot tk.ws) } else s1) := by
  have step : exec (.tileDispatch cl) s = execTileDispatch cl s := rfl
  rw [step]
  simp only [execTileDispatch, runs, Bool.not_true, Bool.false_eq_true, if_false, next]

theorem freeEngine_isSome {es : List Nat} {ts : List Task} {e : Nat} (works : e ∈ es) (free : ∀ t ∈ ts, t.st ≠ .running e) :
    (freeEngine es ts none).isNone = false := by
  rw [Option.isNone_eq_false_iff, freeEngine, List.find?_isSome]
  refine ⟨e, works, ?_⟩
  rw [Bool.and_eq_true, List.all_eq_true]
  exact ⟨fun t ht => bne_iff_ne.mpr (free t ht), rfl⟩

theorem sparkTake_claims {b : BeadRef} {r : List BeadRef} (runs : clRuns s cl = true)
    (idle : ∀ t ∈ (getCl s cl).tasks, t.demanded = true → isRunning t = true)
    (free : ∃ e ∈ engines s cl, ∀ t ∈ (getCl s cl).tasks, t.st ≠ .running e) (oldest : (getCl s cl).sparks = b :: r) :
    exec (.sparkTake cl) s = (let chain := BitVec.ofNat 64 (b.ctx % 65536 * 2 ^ 48 + ((getCl s cl).svcSeq + 1).toNat * 2 ^ 17 + svcCore cl * 64)
      .next (tellBead (modCl s cl fun c => { c with sparks := r, svcSeq := (getCl s cl).svcSeq + 1, sparkCh := c.sparkCh ++ [(chain, b.key)] }) cl b
        (.claim chain) 0 (.task cl b.key))) := by
  have waits : ((getCl s cl).tasks.any fun t => t.demanded && !isRunning t) = false := by
    rw [List.any_eq_false]
    intro t ht both
    rw [Bool.and_eq_true, Bool.not_eq_true'] at both
    rw [idle t ht both.1] at both
    exact Bool.true_eq_false.mp both.2
  obtain ⟨e, works, unused⟩ := free
  have step : exec (.sparkTake cl) s = execSparkTake cl s := rfl
  rw [step]
  simp only [execSparkTake, runs, waits, freeEngine_isSome works unused, Bool.not_true, Bool.or_false, Bool.false_eq_true, if_false, oldest]
  rfl

end Sys2Proof.Proofs
end

section
/-!
PROOFS. Staging: when operands are written into the service core's scratchpad, where their bytes lie, and the size of the plane
blocks (R113, R130, R371, R372); and what is said of the tile scheduler as a whole.
-/

namespace Sys2Proof.Proofs

open Sys2Proof.Machine Sys2Proof.Laws Sys2Proof.Claim

variable {s : State} {cl : Nat} {tk : Task}

/-! ### The gate of staging (R54, R113) -/

theorem lateOfN_keeps {γ : Type} (part : State → γ) (count : ∀ s n, part { s with freeCnt := n } = part s) (s : State) (slack n : Nat) :
    part (lateOfN s slack n).1 = part s := by
  unfold lateOfN
  split
  · rfl
  · exact count _ _

theorem platAdd_keeps {γ : Type} (part : State → γ) (cluster : ∀ s cl f, part (modCl s cl f) = part s) (s : State) (cl n : Nat) :
    part (platAdd s cl n) = part s := by
  unfold platAdd
  split
  · rfl
  · exact cluster _ _ _

/-- The keys outside the cluster that are read of a task's operands. -/
def farKeys (s : State) (cl : Nat) (tk : Task) : List Nat :=
  (((opnds tk).filter fun i => (opndKeys s tk i).any fun k => !inCluster cl k).flatMap (opndKeys s tk)).filter fun k => !inCluster cl k

section
variable {i base : Nat} (runs : clRuns s cl = true) (held : (getCl s cl).tasks[i]? = some tk) (staging : tk.st = .staging)
include runs held staging

theorem stagingComplete_waits (older : linesWait s (coreUnit (svcCore cl)) s.sent (linesOf (farKeys s cl tk)) = true) :
    exec (.stagingComplete cl (i, base)) s = .next s := by
  have step : exec (.stagingComplete cl (i, base)) s = execStagingComplete cl (i, base) s := rfl
  rw [step]
  refine congrArg Host.Outcome.next ((if_neg (by rw [runs]; exact Bool.false_ne_true)).trans ?_)
  rw [held]
  refine (if_neg (by rw [staging]; decide)).trans (if_pos ?_)
  exact Bool.or_eq_true_iff.mpr (.inr older)

theorem stagingComplete_writes (plain : AllPlain s) (clear : linesWait s (coreUnit (svcCore cl)) s.sent (linesOf (farKeys s cl tk)) = false) :
    exec (.stagingComplete cl (i, base)) s = .next (
      let ks := farKeys s cl tk
      let s1 := markKeys s ks
      let d := lateOfN s1 (hskOf s1 (coreUnit (svcCore cl))) (lineHomes (coreUnit (svcCore cl)) (linesOf ks)).length
      let s2 := platAdd d.1 cl d.2
      let tk1 := { tk with snap := ks.map fun k => (k, memByte s1.mem k) }
      let st := stageAt s2 cl (base % 0x100000 / 64 * 64)
        (((opnds tk).filter fun i => (opndKeys s tk i).any fun k => !inCluster cl k).flatMap (stageForm s2 tk1))
      modTask st.1 cl tk.bead.key fun t =>
        { t with st := .ready, snap := tk1.snap, staged := st.2, poison := t.poison || ks.any fun k => s1.marks.contains (k / 8) }) := by
  have step : exec (.stagingComplete cl (i, base)) s = execStagingComplete cl (i, base) s := rfl
  have notes : lineNotes s 7 (coreUnit (svcCore cl)) (linesOf (farKeys s cl tk)) = s := lineNotesOf_plain plain _ _ _ _ _
  have gate : lineGate s 7 (coreUnit (svcCore cl)) (linesOf (farKeys s cl tk)) = true := lineGateOf_plain plain _ _ _
  have open' : ¬ (!lineGate s 7 (coreUnit (svcCore cl)) (linesOf (farKeys s cl tk)) ||
      linesWait s (coreUnit (svcCore cl)) s.sent (linesOf (farKeys s cl tk))) = true := by
    rw [gate, clear]
    decide
  rw [step]
  refine congrArg Host.Outcome.next ((if_neg (by rw [runs]; exact Bool.false_ne_true)).trans ?_)
  rw [held]
  refine (if_neg (by rw [staging]; decide)).trans ((if_neg open').trans ?_)
  have mem (t : State) (h n m : Nat) : (platAdd (lateOfN t h n).1 cl m).mem = t.mem :=
    (platAdd_keeps State.mem (fun _ _ _ => rfl) _ _ _).trans (lateOfN_keeps State.mem (fun _ _ => rfl) _ _ _)
  have marks (t : State) (h n m : Nat) : (platAdd (lateOfN t h n).1 cl m).marks = t.marks :=
    (platAdd_keeps State.marks (fun _ _ _ => rfl) _ _ _).trans (lateOfN_keeps State.marks (fun _ _ => rfl) _ _ _)
  unfold farKeys at notes ⊢
  rw [notes]
  simp only [mem, marks]

end

/-! ### Where staged bytes lie (R130, R371) -/

theorem mem_ssIns {a k : Nat} {l : List Nat} : a ∈ ssIns k l ↔ a = k ∨ a ∈ l := by
  induction l with
  | nil => simp [ssIns]
  | cons b r ih =>
    unfold ssIns
    split
    · simp only [List.mem_cons]
    · split
      next _ same => simp only [List.mem_cons, same, or_self_left]
      next => simp only [List.mem_cons, ih, or_left_comm]

/-- Words put into a set are in it. -/
theorem mem_foldl_ssPut {a : Nat} {ws l : List Nat} (put : a ∈ ws ∨ a ∈ l) : a ∈ ws.foldl (fun l w => ssPut w true l) l := by
  induction ws generalizing l with
  | nil => simpa using put
  | cons w r ih =>
    rw [List.foldl_cons]
    refine ih ?_
    rcases put with inWords | inSet
    · rcases List.mem_cons.mp inWords with rfl | later
      · exact .inr (mem_ssIns.mpr (.inl rfl))
      · exact .inl later
    · exact .inr (mem_ssIns.mpr (.inr inSet))

theorem mem_feWords {k n j : Nat} (inside : j < n) : (k + j) / 4 ∈ feWords k n := by
  rw [feWords, List.mem_filterMap]
  refine ⟨(k + j) / 4 - k / 4, List.mem_range.mpr (by omega), ?_⟩
  have word : k / 4 + ((k + j) / 4 - k / 4) = (k + j) / 4 := by omega
  dsimp only
  rw [word, if_pos]
  simp only [Bool.and_eq_true, decide_eq_true_eq]
  omega

theorem mem_setFull {k n j : Nat} (inside : j < n) : (k + j) / 4 ∈ (setFull s k n true).full := mem_foldl_ssPut (.inl (mem_feWords inside))

theorem byte_of_leNat {l : List Byte} {j : Nat} {b : Byte} (byte : l[j]? = some b) : BitVec.ofNat 8 (leNat l / 256 ^ j % 256) = b := by
  induction l generalizing j with
  | nil => cases byte
  | cons c r ih =>
    have low := c.isLt
    cases j with
    | zero =>
      obtain rfl : c = b := by simpa using byte
      rw [leNat, Nat.pow_zero, Nat.div_one, Nat.add_mul_mod_self_left, Nat.mod_eq_of_lt low, BitVec.ofNat_toNat, BitVec.setWidth_eq]
    | succ j =>
      rw [leNat, Nat.pow_succ, Nat.mul_comm _ 256, ← Nat.div_div_eq_div_mul, Nat.add_mul_div_left _ _ (by decide), Nat.div_eq_of_lt low, Nat.zero_add]
      exact ih byte

theorem getHome_modHome_other (s : State) {u h : Nat} (f : HomeSt → HomeSt) (other : u ≠ h) : getHome (modHome s h f) u = getHome s u :=
  smGet_smSet_other _ _ _ other

theorem parked_countError (s : State) (k u : Nat) : (getHome (countError s k) u).parked = (getHome s u).parked := by
  unfold countError
  split
  next h _ =>
    by_cases own : u = h
    · rw [own, getHome_modHome_same]
    · rw [getHome_modHome_other _ _ own]
  · rfl

theorem parked_markStore (s : State) (k n u : Nat) : (getHome (markStore s k n) u).parked = (getHome s u).parked := by
  refine foldl_keeps (fun s => (getHome s u).parked) (fun t w => ?_) _ _
  dsimp only
  split
  · rfl
  · split
    · exact parked_countError _ _ _
    · rfl

/-- A store to a home at which nothing is parked (R203, R356). -/
theorem homeWrite_unparked {k n v u : Nat} (home : homeOf k = some u) (none : (getHome s u).parked = []) : homeWrite s k n v = rawStore s k n v := by
  have same : (getHome (rawStore s k n v) u).parked = [] := (parked_markStore s k n u).trans none
  simp only [homeWrite, releaseParks, home, same, List.foldl_nil]

theorem setFull_mem (s : State) (k n : Nat) (b : Bool) : (setFull s k n b).mem = s.mem := rfl

theorem retest_unparked {core : Nat} (none : (getHome s (coreUnit core)).parked = []) : retest s core = s := by
  simp only [retest, none, List.length_nil, retestGo, retestPass, Bool.false_eq_true, if_false]

theorem keyCore_scrKey {core off : Nat} (small : off < 0x100000) : keyCore (scrKey core off) = core := by
  unfold keyCore scrKey
  omega

theorem isScr_scrKey (core off : Nat) : isScr (scrKey core off) = true := by
  rw [isScr, decide_eq_true_iff, scrKey]
  omega

theorem homeOf_scrKey {core off : Nat} (small : off < 0x100000) : homeOf (scrKey core off) = some (coreUnit core) := by
  rw [homeOf, if_pos (isScr_scrKey core off), keyCore_scrKey small]

/-- What an engine writes into a scratchpad at which nothing is parked: bytes in memory, and their words full (R130). -/
theorem engineWrite_unparked {core off : Nat} (small : off < 0x100000) (none : (getHome s (coreUnit core)).parked = []) (l : List Byte) :
    engineWrite s (scrKey core off) l = setFull (rawStore s (scrKey core off) l.length (leNat l)) (scrKey core off) l.length true := by
  have same : (getHome (setFull (rawStore s (scrKey core off) l.length (leNat l)) (scrKey core off) l.length true) (coreUnit core)).parked = [] :=
    (parked_markStore s _ _ _).trans none
  rw [engineWrite, homeWriteL, homeWrite_unparked (homeOf_scrKey small) none]
  refine (if_pos (isScr_scrKey core off)).trans ?_
  rw [setFullAt, keyCore_scrKey small, retest_unparked same]

theorem stageAt_fst (s : State) (cl off : Nat) (l : List (Byte × Bool)) : (stageAt s cl off l).1 =
    ((l.take (0x100000 - off)).zipIdx.filter (·.1.2)).foldl (fun s x => carryMark s (scrKey (svcCore cl) off + x.2) 1)
      (engineWrite s (scrKey (svcCore cl) off) ((l.take (0x100000 - off)).map (·.1))) := by
  simp only [stageAt]

theorem carryMark_mem (k : Nat) (t : State) (x : (Byte × Bool) × Nat) : (carryMark t (k + x.2) 1).mem = t.mem := rfl
theorem carryMark_full (k : Nat) (t : State) (x : (Byte × Bool) × Nat) : (carryMark t (k + x.2) 1).full = t.full := rfl

/-- Each staged byte lies at its place in the service core's scratchpad, in a full word (R130, R371). -/
theorem stageAt_byte {off j : Nat} {l : List (Byte × Bool)} {b : Byte} {m : Bool} (none : (getHome s (coreUnit (svcCore cl))).parked = [])
    (byte : l[j]? = some (b, m)) (fits : off + j < 0x100000) :
    memByte (stageAt s cl off l).1.mem (scrKey (svcCore cl) off + j) = b ∧ (scrKey (svcCore cl) off + j) / 4 ∈ (stageAt s cl off l).1.full := by
  have small : off < 0x100000 := by omega
  have placed : ((l.take (0x100000 - off)).map (·.1))[j]? = some b := by
    rw [List.getElem?_map, List.getElem?_take_of_lt (by omega), byte]
    rfl
  have inside : j < ((l.take (0x100000 - off)).map (·.1)).length := (List.getElem?_eq_some_iff.mp placed).1
  rw [stageAt_fst, foldl_keeps State.mem (carryMark_mem _), foldl_keeps State.full (carryMark_full _), engineWrite_unparked small none]
  exact ⟨by rw [setFull_mem, rawStore_mem, memByte_memWrite_inside _ _ _ _ _ inside, byte_of_leNat placed], mem_setFull inside⟩

/-! ### The size of a plane block (R371, R372) -/

theorem length_flatMap_const {α β : Type} {f : α → List β} {n : Nat} (l : List α) (each : ∀ x ∈ l, (f x).length = n) :
    (l.flatMap f).length = l.length * n := by
  rw [List.length_flatMap, List.map_congr_left each, List.map_const', List.sum_replicate, smul_eq_mul]

theorem length_padRows {α : Type} (zero : α) {l : List α} (few : l.length ≤ 128) : (padRows zero l).length = 128 := by
  rw [padRows, List.length_append, List.length_replicate]
  omega

theorem length_planeForm {rows : List (List Int × Nat)} (p : Nat) (whole : rows.length = 128) : (planeForm p rows).length = 512 * p + 128 := by
  have plane (f : List Int × Nat → Nat) : (rows.flatMap fun r => leBytes 4 (f r)).length = 512 := by
    rw [length_flatMap_const (n := 4) rows fun _ _ => length_leBytes _ _, whole]
  rw [planeForm, List.length_append, length_flatMap_const (n := 512) _ fun q _ => plane _, List.length_range, List.length_map, whole, Nat.mul_comm]

theorem length_s24Form {rows : List (Nat × Nat)} (kept p : Nat) (whole : rows.length = 128) : (s24Form kept p rows).length = 512 * p + 1152 := by
  have plane (f : Nat × Nat → Nat) : (rows.flatMap fun r => leBytes 4 (f r)).length = 512 := by
    rw [length_flatMap_const (n := 4) rows fun _ _ => length_leBytes _ _, whole]
  have entries (f : Nat × Nat → Nat) : (rows.flatMap fun r => leBytes 8 (f r)).length = 1024 := by
    rw [length_flatMap_const (n := 8) rows fun _ _ => length_leBytes _ _, whole]
  rw [s24Form, List.length_append, List.length_append, length_flatMap_const (n := 512) _ fun q _ => plane _, entries, List.length_range,
    List.length_map, whole]
  omega

/-- A staged as blocks has one block for each K block. -/
theorem length_stageForm {n : Nat} (matrix : isMatrix (trOp tk.ws) = true) (words : opndFmt tk 0 ≠ fmtPLANE)
    (block : ∀ b, (stageBlock s tk 0 b).length = n) :
    (stageForm s tk 0).length = trK tk.ws / (if trOp tk.ws = 3 then 24 else 32) * n := by
  have blocks : (isMatrix (trOp tk.ws) && decide (0 < 2) && opndFmt tk 0 != fmtPLANE) = true := by
    rw [matrix, bne_iff_ne.mpr words]
    rfl
  rw [stageForm]
  refine (congrArg List.length (if_pos blocks)).trans ?_
  rw [length_flatMap_const (n := n), List.length_range]
  intro b _
  rw [List.length_map, block]

theorem length_stageBlock_plane (few : trM tk.ws ≤ 128) (plane : trOp tk.ws ≠ 3) (b : Nat) :
    (stageBlock s tk 0 b).length = 512 * trP tk.ws + 128 := by
  unfold stageBlock
  dsimp only
  rw [if_neg Nat.zero_ne_one, if_neg plane, length_planeForm _ (length_padRows _ _)]
  rw [List.length_map, List.length_range]
  exact few

theorem length_stageBlock_s24 (few : trM tk.ws ≤ 128) (sparse : trOp tk.ws = 3) (b : Nat) :
    (stageBlock s tk 0 b).length = 512 * trP tk.ws + 1152 := by
  unfold stageBlock
  dsimp only
  rw [if_neg Nat.zero_ne_one, if_pos sparse, length_s24Form _ _ (length_padRows _ _)]
  rw [List.length_map, List.length_range]
  exact few

/-! ### The claim -/

theorem trOp_word0 (ws : List Word) : trOp ws = (wAt ws 0).toNat % 256 := trOp_eq ws

/-- The tile scheduler as R112 to R114, R368, R371 and R372 say. -/
theorem tileSchedulerResults : TileSchedulerResults := by
  intro s cl runs c hsk tell drop change
  have ended (t : State) (tk : Task) (op : BeadOp) (h : Nat) (home : homeOf tk.bead.key = some h) :
      endTask t cl tk op = tell (drop t tk) tk.bead op 0 .none h := endTask_home home
  refine ⟨fun tk h oldest home => ⟨fun cause va unread => ?_, fun ws read => ⟨fun cause refused => ?_, fun good odd only => ?_,
    fun b g good demanded even names homeB only => ?_⟩⟩, fun p s1 key tk i taken inTime found forcing => ⟨?_, ?_⟩,
    fun i base tk held staging plain => ⟨?_, ?_, ?_⟩, fun tk words few => ⟨?_, ?_⟩, fun tk e next => ?_, fun b r h idle free oldest home => ?_⟩
  · rw [← ended s tk _ h home]
    exact tileEvaluate_unread runs oldest unread
  · rw [← ended s tk _ h home]
    exact tileEvaluate_refused runs oldest read refused
  · rw [← ended _ tk _ h home]
    exact tileEvaluate_misaligned runs oldest read good only odd
  · refine (tileEvaluate_demands runs oldest read good only demanded even names).trans (congrArg _ ?_)
    exact tellBead_home homeB
  · intro v b f last body
    refine (exec_operandReply runs).trans (congrArg _ ((onArrival_taken taken _).trans ?_))
    exact operandTaken_last inTime found forcing body last
  · intro cause v h body home
    rw [← ended s1 tk _ h home]
    exact (exec_operandReply runs).trans (congrArg _ ((onArrival_taken taken _).trans (operandTaken_fails inTime found forcing body)))
  · exact stagingComplete_waits runs held staging
  · exact stagingComplete_writes runs held staging plain
  · intro none j b m byte fits
    exact stageAt_byte none byte fits
  · intro op24
    have plane : trOp tk.ws ≠ 3 := by omega
    have matrix : isMatrix (trOp tk.ws) = true := by rw [isMatrix, Bool.and_eq_true, decide_eq_true_iff, decide_eq_true_iff]; omega
    exact (length_stageForm matrix words (length_stageBlock_plane few plane)).trans (by rw [if_neg plane])
  · intro op3
    have matrix : isMatrix (trOp tk.ws) = true := by rw [op3]; rfl
    exact (length_stageForm matrix words (length_stageBlock_s24 few op3)).trans (by rw [if_pos op3])
  · have dispatched := tileDispatch_next runs next
    rw [trOp_word0] at dispatched
    exact dispatched
  · refine (sparkTake_claims runs idle free oldest).trans (congrArg _ ?_)
    exact tellBead_home home

end Sys2Proof.Proofs
end

section
/-!
PROOFS. The completion of a tile task, its engine's faults, and the value of its elements before their rounding
(R113, R151, R152, R373 to R378); and what is said of tile schedulers as a whole.
-/

namespace Sys2Proof.Proofs

open Sys2Proof.Machine Sys2Proof.Laws Sys2Proof.Claim

variable {s : State} {cl engine : Nat} {tk : Task} {c : BitVec 8}

/-! ### TASK_COMPLETE and TASK_ENGINE_FAULT (R113, R151, R377) -/

theorem taskFault_again (again : trRestart tk.ws = true ∧ tk.retried = false) : taskFault s cl tk engine c =
    modTask s cl tk.bead.key fun t => { t with st := .staging, snap := [], staged := [], tr := {}, retried := true, avoid := some engine } :=
  if_pos (by rw [again.1, again.2]; rfl)

theorem taskFault_ends (last : ¬ (trRestart tk.ws = true ∧ tk.retried = false)) : taskFault s cl tk engine c = endTask s cl tk (.engFault c) :=
  if_neg (by rw [Bool.and_eq_true, Bool.not_eq_true']; exact last)

theorem firstCause_none {l : List (TX TOut)} (valued : ∀ x ∈ l, ∃ y, x = .ok y) : firstCause l = none := by
  rw [firstCause, List.findSome?_eq_none_iff]
  intro x hx
  obtain ⟨y, rfl⟩ := valued x hx
  rfl

/-- What becomes of a task whose engine has read what it reads, in the state s after it (R377). -/
def taskFinish (s : State) (cl engine : Nat) (tk : Task) (f : Nat) (poison : Bool) : State :=
  let res := tkResult s tk f
  let fail := fun c => taskFault (destSome s tk f res.1 poison) cl tk engine c
  match firstCause (tileOuts s tk f) with
  | some c => fail c
  | none =>
    match destAll s tk f (res.1.map (·.getD 0)) res.2.2 poison with
    | .error c => fail c
    | .ok t => endTask t cl tk (if poison then .poisoned (trDest tk.ws) res.2.1 else .completion (trDest tk.ws) res.2.1)

theorem taskFinish_fails {f : Nat} {poison : Bool} (cause : firstCause (tileOuts s tk f) = some c) :
    taskFinish s cl engine tk f poison = taskFault (destSome s tk f (tkResult s tk f).1 poison) cl tk engine c := by
  simp only [taskFinish, cause]

theorem taskFinish_ends {f : Nat} {poison : Bool} {t : State} (valued : ∀ x ∈ tileOuts s tk f, ∃ y, x = .ok y)
    (written : destAll s tk f ((tkResult s tk f).1.map (·.getD 0)) (tkResult s tk f).2.2 poison = .ok t) : taskFinish s cl engine tk f poison =
      endTask t cl tk (if poison then .poisoned (trDest tk.ws) (tkResult s tk f).2.1 else .completion (trDest tk.ws) (tkResult s tk f).2.1) := by
  simp only [taskFinish, firstCause_none valued, written]

section
variable (runs : clRuns s cl = true) (running : (getCl s cl).tasks.find? (fun t => t.st == .running engine) = some tk)
include runs running

theorem taskComplete_misses {va need : Nat} (miss : tkMiss s (withTlb s cl engine tk) = some (va, need)) :
    exec (.taskComplete cl engine) s = .next (taskMiss s cl engine (withTlb s cl engine tk) va need) := by
  have step : exec (.taskComplete cl engine) s = execTaskComplete cl engine s := rfl
  rw [step]
  refine congrArg Host.Outcome.next ((if_neg (by rw [runs]; exact Bool.false_ne_true)).trans ?_)
  rw [show taskOn s cl engine = some tk from running]
  dsimp only
  rw [miss]

theorem taskComplete_formless (found : tkMiss s (withTlb s cl engine tk) = none) (formless : tkOut s (withTlb s cl engine tk) = none) :
    exec (.taskComplete cl engine) s = .next (taskFault (tkReads s (withTlb s cl engine tk)).1 cl (withTlb s cl engine tk) engine 0x15) := by
  have step : exec (.taskComplete cl engine) s = execTaskComplete cl engine s := rfl
  rw [step]
  refine congrArg Host.Outcome.next ((if_neg (by rw [runs]; exact Bool.false_ne_true)).trans ?_)
  rw [show taskOn s cl engine = some tk from running]
  dsimp only
  rw [found, formless]

section
variable {f : Nat} (plain : AllPlain s) (form : tkOut s (withTlb s cl engine tk) = some f)
include plain form

theorem taskEngineFault_fails : exec (.taskEngineFault cl engine c) s =
    .next (let tk' := withTlb s cl engine tk
      let r := tkReads s tk'
      taskFault (destSome r.1 tk' f (tkResult r.1 tk' f).1 r.2) cl tk' engine c) := by
  have step : exec (.taskEngineFault cl engine c) s = execTaskEngineFault cl engine c s := rfl
  have gate : ¬ (!lineGate s 7 (coreUnit (engCore cl engine)) (tkLines s (withTlb s cl engine tk) f)) = true := by
    rw [lineGate, lineGateOf_plain plain]
    decide
  have notes : lineNotes s 7 (coreUnit (engCore cl engine)) (tkLines s (withTlb s cl engine tk) f) = s := lineNotesOf_plain plain _ _ _ _ _
  rw [step]
  refine congrArg Host.Outcome.next ((if_neg (by rw [runs]; exact Bool.false_ne_true)).trans ?_)
  rw [show taskOn s cl engine = some tk from running]
  dsimp only
  rw [form]
  refine (if_neg gate).trans ?_
  rw [notes]

variable (found : tkMiss s (withTlb s cl engine tk) = none)
include found

theorem taskComplete_finishes : exec (.taskComplete cl engine) s =
    .next (let tk' := withTlb s cl engine tk
      taskFinish (tkReads s tk').1 cl engine tk' f (tkReads s tk').2) := by
  have step : exec (.taskComplete cl engine) s = execTaskComplete cl engine s := rfl
  have gate : ¬ (!lineGate s 7 (coreUnit (engCore cl engine)) (tkLines s (withTlb s cl engine tk) f)) = true := by
    rw [lineGate, lineGateOf_plain plain]
    decide
  have notes : lineNotes s 7 (coreUnit (engCore cl engine)) (tkLines s (withTlb s cl engine tk) f) = s := lineNotesOf_plain plain _ _ _ _ _
  rw [step]
  refine congrArg Host.Outcome.next ((if_neg (by rw [runs]; exact Bool.false_ne_true)).trans ?_)
  rw [show taskOn s cl engine = some tk from running]
  dsimp only
  rw [found, form]
  refine (if_neg gate).trans ?_
  rw [notes]
  rfl

end

end

/-! ### Elements before their rounding (R373, R375) -/

/-- Element (i, j) of a list that is built row by row. -/
theorem getElem?_rows {α β : Type} {f : α → List β} {n i j : Nat} {l : List α} {x : α} {y : β} (each : ∀ x ∈ l, (f x).length = n) (row : l[i]? = some x)
    (element : (f x)[j]? = some y) : (l.flatMap f)[i * n + j]? = some y := by
  induction l generalizing i with
  | nil => cases row
  | cons a r ih =>
    have first : (f a).length = n := each a List.mem_cons_self
    cases i with
    | zero =>
      obtain rfl : a = x := by simpa using row
      rw [Nat.zero_mul, Nat.zero_add, List.flatMap_cons, List.getElem?_append_left (List.getElem?_eq_some_iff.mp element).1, element]
    | succ i =>
      rw [List.flatMap_cons, List.getElem?_append_right (by rw [first, Nat.succ_mul]; omega), first]
      rw [show (i + 1) * n + j - n = i * n + j by rw [Nat.succ_mul]; omega]
      exact ih (fun x hx => each x (List.mem_cons_of_mem a hx)) row

/-- Element (i, j) of m rows of n elements. -/
theorem getElem?_table {β : Type} (g : Nat → Nat → β) {m n i j : Nat} (hi : i < m) (hj : j < n) :
    ((List.range m).flatMap fun i => (List.range n).map fun j => g i j)[i * n + j]? = some (g i j) := by
  refine getElem?_rows (n := n) (x := i) (fun _ _ => by rw [List.length_map, List.length_range]) (List.getElem?_range hi) ?_
  rw [List.getElem?_map, List.getElem?_range hj]
  rfl

section
variable {f i j : Nat} (hi : i < trM tk.ws) (hj : j < trN tk.ws)
include hi hj

/-- An element of an operation that is neither a matrix one nor RECUR, in rows of N. -/
theorem tileOuts_element {g : Nat → TX TOut} {y : TX TOut} (other : isMatrix (trOp tk.ws) = false) (recur : trOp tk.ws ≠ 4)
    (rows : elemOuts s tk f (trSat tk.ws || tk.sub.sat) =
      (List.range (trM tk.ws)).flatMap fun i => (List.range (trN tk.ws)).map fun j => g (i * trN tk.ws + j))
    (element : g (i * trN tk.ws + j) = y) : (tileOuts s tk f)[i * trN tk.ws + j]? = some y := by
  have outs : tileOuts s tk f = elemOuts s tk f (trSat tk.ws || tk.sub.sat) := by
    simp only [tileOuts, other, recur, Bool.false_eq_true, if_false]
  rw [outs, rows, ← element]
  exact getElem?_table (fun i j => g (i * trN tk.ws + j)) hi hj

section
variable {x y : XV} (first : tVal s tk (trAfmt tk.ws) (opndVal tk 0) (i * trN tk.ws + j) = .ok x)
include first

theorem tileOuts_convert (op : trOp tk.ws = 9) : (tileOuts s tk f)[i * trN tk.ws + j]? = some (.ok (.val x)) := by
  refine tileOuts_element hi hj (by rw [op]; rfl) (by omega) (g := fun e => do return .val (← tVal s tk (trAfmt tk.ws) (opndVal tk 0) e)) ?_ ?_
  · simp only [elemOuts, op]
  · simp only [first, Bind.bind, Except.bind, pure, Except.pure]

variable (second : tVal s tk (trBfmt tk.ws) (opndVal tk 1) (i * trN tk.ws + j) = .ok y)
include second

theorem tileOuts_max (op : trOp tk.ws = 7) : (tileOuts s tk f)[i * trN tk.ws + j]? = some (.ok (.val (tileMax x y))) := by
  refine tileOuts_element hi hj (by rw [op]; rfl) (by omega)
    (g := fun e => do return .val (tileMax (← tVal s tk (trAfmt tk.ws) (opndVal tk 0) e) (← tVal s tk (trBfmt tk.ws) (opndVal tk 1) e))) ?_ ?_
  · simp only [elemOuts, op]
  · simp only [first, second, Bind.bind, Except.bind, pure, Except.pure]

variable (float : fmtInt f = none)
include float

theorem tileOuts_add (op : trOp tk.ws = 5) : (tileOuts s tk f)[i * trN tk.ws + j]? = some (.ok (.val (plusZero (xAdd false x y)))) := by
  refine tileOuts_element hi hj (by rw [op]; rfl) (by omega) (g := fun e => do
    let x ← tVal s tk (trAfmt tk.ws) (opndVal tk 0) e
    let y ← tVal s tk (trBfmt tk.ws) (opndVal tk 1) e
    return .val (plusZero (xAdd false x y))) ?_ ?_
  · simp only [elemOuts, op, float, Option.isSome_none, Bool.and_false, Bool.false_eq_true, if_false]
  · simp only [first, second, Bind.bind, Except.bind, pure, Except.pure]

theorem tileOuts_mul (op : trOp tk.ws = 6) : (tileOuts s tk f)[i * trN tk.ws + j]? = some (.ok (.val (plusZero (xMul x y)))) := by
  refine tileOuts_element hi hj (by rw [op]; rfl) (by omega) (g := fun e => do
    let x ← tVal s tk (trAfmt tk.ws) (opndVal tk 0) e
    let y ← tVal s tk (trBfmt tk.ws) (opndVal tk 1) e
    return .val (plusZero (xMul x y))) ?_ ?_
  · simp only [elemOuts, op, float, Option.isSome_none, Bool.and_false, Bool.false_eq_true, if_false]
  · simp only [first, second, Bind.bind, Except.bind, pure, Except.pure]

end

/-- An element of a matrix operation without accumulation: the fold of its row and its column (R373). -/
theorem tileOuts_matrix {as bs : List KBlock} (matrix : isMatrix (trOp tk.ws) = true) (fresh : trAcc tk.ws = false) (row : aRow s tk i = .ok as)
    (column : bCol s tk j = .ok bs) : (tileOuts s tk f)[i * trN tk.ws + j]? =
      some (.ok (.val ((as.zip bs).foldl (fun ax p => axFold ax p.1 p.2) (.num false 0 0 false)))) := by
  have outs : tileOuts s tk f = matOuts s tk := by simp only [tileOuts, matrix, if_true]
  rw [outs, matOuts]
  refine getElem?_rows (n := trN tk.ws) (x := (aRow s tk i, i)) (fun _ _ => ?_) ?_ ?_
  · rw [List.length_map, List.length_zipIdx, List.length_map, List.length_range]
  · rw [List.getElem?_zipIdx, List.getElem?_map, List.getElem?_range hi, Nat.zero_add]
    rfl
  · rw [List.getElem?_map, List.getElem?_zipIdx, List.getElem?_map, List.getElem?_range hj]
    simp only [Option.map_some, fresh, row, column, Bind.bind, Except.bind, pure, Except.pure, Bool.false_eq_true, if_false]

end

/-! ### The claim -/

/-- Completions, engine faults and elements as R113, R151, R152 and R373 to R378 say. -/
theorem tileCompletionResults : TileCompletionResults := by
  refine ⟨fun s cl engine tk h runs plain running home => ?_, fun s tk f i j hi hj float => ?_,
    fun s tk f i j as bs least most fresh hi hj row column => ?_⟩
  · intro tk' r tell failed
    have fault (t : State) (c : BitVec 8) : Host.Outcome.next (taskFault t cl tk' engine c) = failed t c := by
      by_cases again : trRestart tk.ws = true ∧ tk.retried = false
      · exact (congrArg Host.Outcome.next (taskFault_again (tk := tk') again)).trans (if_pos again).symm
      · refine (congrArg Host.Outcome.next ((taskFault_ends (tk := tk') again).trans ?_)).trans (if_neg again).symm
        exact endTask_home (tk := tk') home
    refine ⟨fun va need miss => taskComplete_misses runs running miss, fun f form => ?_, fun found formless => ?_⟩
    · intro res
      refine ⟨fun t found valued written => ?_, fun c found cause => ?_, fun c => ?_⟩
      · refine (taskComplete_finishes runs running plain form found).trans (congrArg _ ((taskFinish_ends valued written).trans ?_))
        exact endTask_home (tk := tk') home
      · refine (taskComplete_finishes runs running plain form found).trans ?_
        exact (congrArg Host.Outcome.next (taskFinish_fails cause)).trans (fault _ c)
      · exact (taskEngineFault_fails runs running plain form).trans (fault _ c)
    · exact (taskComplete_formless runs running found formless).trans (fault _ 0x15)
  · intro a b n x first
    exact ⟨tileOuts_convert hi hj first, fun y second =>
      ⟨tileOuts_add hi hj first second float, tileOuts_mul hi hj first second float, tileOuts_max hi hj first second⟩⟩
  · refine tileOuts_matrix hi hj ?_ fresh row column
    rw [isMatrix, Bool.and_eq_true, decide_eq_true_iff, decide_eq_true_iff]
    exact ⟨least, most⟩

/-- Settles O53: the tile scheduler's steps from a claimed task to its completion, and the elements that its engine computes. -/
theorem tileResults : Obligations.TileResults := ⟨tileSchedulerResults, tileCompletionResults⟩

end Sys2Proof.Proofs
end

section
/-!
PROOFS. MIGR and MRET: the refusals of a carry, the row and the record that a carry takes along, and what it leaves in its slot and in
its core (R217 to R220, R360).
-/

namespace Sys2Proof.Proofs

open Sys2Proof.Machine Sys2Proof.Laws Sys2Proof.Claim

variable {s s1 s2 s3 : State} {e : Env} {desc pos h v : Word} {k n u : Nat} {c : BitVec 8} {t : Tid} {r : List Word}

/-! ### Words that read well (R203) -/

theorem mem_wordsOf {w : Nat} (nonempty : 0 < n) (first : k / 8 ≤ w) (last : w * 8 < k + n) : w ∈ wordsOf k n := by
  rw [wordsOf, List.mem_filterMap]
  refine ⟨w - k / 8, List.mem_range.mpr (by omega), ?_⟩
  have place : k / 8 + (w - k / 8) = w := by omega
  simp only [place, last, gt_iff_lt, nonempty, decide_true, Bool.and_self, if_true]

/-- Every word that n bytes from k touch is sound and unmarked when they read well. -/
theorem clean_of_eccStatus {w : Nat} (well : eccStatus s k n = 0) (touched : w ∈ wordsOf k n) : s.bad.contains w = false ∧ s.marks.contains w = false := by
  unfold eccStatus at well
  dsimp only at well
  split at well
  · cases well
  next sound =>
    split at well
    · cases well
    next unmarked =>
      exact ⟨Bool.eq_false_iff.mpr fun bad => sound (List.any_eq_true.mpr ⟨w, touched, bad⟩),
        Bool.eq_false_iff.mpr fun mark => unmarked (List.any_eq_true.mpr ⟨w, touched, mark⟩)⟩

theorem markRead_sound (sound : ∀ w ∈ wordsOf k n, s.bad.contains w = false) : markRead s k n = s :=
  foldl_stays fun w touched => if_neg (by rw [sound w touched]; exact Bool.false_ne_true)

theorem rowRead_clean (well : eccStatus s k n = 0) : rowRead s k n = (s, (List.range n).map (fun i => memByte s.mem (k + i)), []) := by
  have same : markRead s k n = s := markRead_sound fun w touched => (clean_of_eccStatus well touched).1
  have none : (List.range (n / 8)).filter (fun i => s.marks.contains (k / 8 + i)) = [] := by
    refine List.filter_eq_nil_iff.mpr fun i hi => Bool.eq_false_iff.mp (clean_of_eccStatus well (mem_wordsOf ?_ (Nat.le_add_right _ i) ?_)).2 <;>
      have := List.mem_range.mp hi <;> omega
  rw [rowRead, same, none]

/-- A row gathered from bytes that read well has no marks. -/
theorem rowGather_clean {ks : List Nat} (well : ∀ k ∈ ks, eccStatus s k 1 = 0) : rowGather s ks = (s, ks.map (memByte s.mem), []) := by
  have clean : ∀ k ∈ ks, s.bad.contains (k / 8) = false ∧ s.marks.contains (k / 8) = false := fun k hk =>
    clean_of_eccStatus (well k hk) (mem_wordsOf Nat.one_pos (le_refl _) (by omega))
  have same : (ks.map (· / 8)).eraseDups.foldl (fun s w => markRead s (8 * w) 8) s = s := by
    refine foldl_stays fun w hw => markRead_sound fun x touched => ?_
    obtain ⟨k, hk, rfl⟩ := List.mem_map.mp (List.mem_eraseDups.mp hw)
    obtain ⟨i, -, lies⟩ := List.mem_filterMap.mp touched
    dsimp only at lies
    split at lies
    next inside =>
      have only : x = k / 8 := by
        have := (Bool.and_eq_true_iff.mp inside).2
        have := of_decide_eq_true this
        have := Option.some.inj lies
        omega
      rw [only]
      exact (clean k hk).1
    · cases lies
  have none : (List.range (ks.length / 8)).filter (fun i => ((ks.drop (8 * i)).take 8).any fun k => s.marks.contains (k / 8)) = [] := by
    refine List.filter_eq_nil_iff.mpr fun i _ marked => ?_
    obtain ⟨k, hk, mark⟩ := List.any_eq_true.mp marked
    exact Bool.false_ne_true ((clean k (List.mem_of_mem_drop (List.mem_of_mem_take hk))).2.symm.trans mark)
  rw [rowGather, same, none]

/-! ### Carry descriptors (R217) -/

theorem cdSrc_eq (r : List Word) : cdSrc r = (r.getD 1 0).toNat % 2 ^ 20 := by rw [cdSrc, fld_eq, Nat.pow_zero, Nat.div_one, wAt]
theorem cdIn_eq (r : List Word) : cdIn r = ((r.getD 2 0).toNat % 256 + 1) * 64 := by rw [cdIn, fld_eq, Nat.pow_zero, Nat.div_one, wAt]; rfl
theorem cdOut_eq (r : List Word) : cdOut r = ((r.getD 2 0).toNat / 2 ^ 16 % 256 + 1) * 64 := by rw [cdOut, fld_eq, wAt]; rfl

theorem cdRows_eq (r : List Word) :
    max (cdIn r) (cdOut r) = max ((r.getD 2 0).toNat % 256 + 1) ((r.getD 2 0).toNat / 2 ^ 16 % 256 + 1) * 64 := by
  rw [cdIn_eq, cdOut_eq, max_mul_mul_right]

/-! ### What the operands leave of a thread -/

/-- Reading 64 bytes makes at most a record of the access. -/
theorem phaseRead64_same {acc l : List Word} {va : Word} {slack : Nat} (read : phaseRead64 e s acc va slack = .ok (s1, l)) :
    s1 = s ∨ ∃ k, s1 = localNote e s 0 k := by
  unfold phaseRead64 at read
  split at read
  · cases read
    exact .inl rfl
  · split at read
    · cases read
      exact .inl rfl
    · cases read
    · cases read
    · obtain ⟨p, -, read'⟩ := ok_of_bind read
      split at read'
      · split at read'
        · split at read'
          · dsimp only at read'
            split at read'
            · cases read'
              exact .inl rfl
            · obtain ⟨-, -, local'⟩ := ok_of_bind read'
              cases local'
              exact .inr ⟨_, rfl⟩
          · cases read'
          · cases read'
        · cases read'
      · cases read'

theorem cdRead_same {acc : List Word} (read : cdRead e s acc desc = .ok (s1, r)) : s1 = s ∨ ∃ k, s1 = localNote e s 0 k := by
  obtain ⟨_, -, read⟩ := ok_of_bind read
  obtain ⟨⟨s2, l⟩, words, read⟩ := ok_of_bind read
  obtain ⟨_, -, read⟩ := ok_of_bind read
  cases read
  exact phaseRead64_same words

theorem cdRead_cores {acc : List Word} (read : cdRead e s acc desc = .ok (s1, r)) : s1.cores = s.cores := by
  rcases cdRead_same read with rfl | ⟨k, rfl⟩
  · rfl
  · exact homeNote_cores _ _ _ _ _ _ _

theorem cdRead_tick {acc : List Word} (read : cdRead e s acc desc = .ok (s1, r)) : s1.tick = s.tick := by
  rcases cdRead_same read with rfl | ⟨k, rfl⟩
  · rfl
  · exact homeNote_keeps State.tick (fun _ _ => rfl) (fun _ _ _ => rfl) (fun _ _ _ => rfl) _ _ _ _ _ _ _

theorem opnd_window {i m : Nat} {w : Word} (window : e.sl.ports = false) (read : opnd e s i m = .ok (s1, w)) : s1 = s := by
  unfold opnd at read
  split at read
  · cases read
    rfl
  · rw [readR_window (.inl window)] at read
    cases read
    rfl

/-- Thread t has in s1 its registers and its slot of s, but for the mailboxes that it has read. -/
def KeepsRecord (t : Tid) (s s1 : State) : Prop :=
  (∀ x m, regGet s1 t x m = regGet s t x m) ∧ ∃ mb, getSlot s1 t = { getSlot s t with mb := mb }

namespace KeepsRecord

theorem refl (t : Tid) (s : State) : KeepsRecord t s s := ⟨fun _ _ => rfl, _, rfl⟩

theorem trans (first : KeepsRecord t s s1) (second : KeepsRecord t s1 s2) : KeepsRecord t s s2 := by
  obtain ⟨regs, mb, slot⟩ := first
  obtain ⟨regs', mb', slot'⟩ := second
  exact ⟨fun x m => (regs' x m).trans (regs x m), mb', by rw [slot', slot]⟩

theorem of_cores (same : s1.cores = s.cores) (t : Tid) : KeepsRecord t s s1 := ⟨regGet_of_cores same t, _, getSlot_of_cores same t⟩

theorem recordOf (kept : KeepsRecord t s s1) (pc : Word) : recordOf s1 t (getSlot s1 t) pc = Machine.recordOf s t (getSlot s t) pc := by
  obtain ⟨regs, mb, slot⟩ := kept
  rw [slot]
  unfold Machine.recordOf
  rw [regs, regs]
  rfl

theorem burstWords (kept : KeepsRecord t s s1) : burstWords s1 t (getSlot s1 t) = Machine.burstWords s t (getSlot s t) := by
  obtain ⟨regs, mb, slot⟩ := kept
  rw [slot, burstWords_congr regs]
  rfl

theorem emptied (kept : KeepsRecord t s s1) : emptySlot (getSlot s1 t) = emptied (getSlot s t) := by
  obtain ⟨-, mb, slot⟩ := kept
  rw [slot]
  rfl

theorem uid (kept : KeepsRecord t s s1) : (getSlot s1 t).uid = (getSlot s t).uid := by
  obtain ⟨-, mb, slot⟩ := kept
  rw [slot]

end KeepsRecord

theorem qPop_keepsRecord (s : State) (core q : Nat) (t : Tid) : KeepsRecord t s (qPop s core q) := by
  refine ⟨fun x m => ?_, _, getSlot_qPop s core q t⟩
  rw [regGet_of_cores (qPop_cores s core q), regGet, regGet]
  by_cases same : t.core = core
  · rw [← same, getCore_modCore_same]
  · rw [getCore_modCore_other _ _ same]

theorem readR_keepsRecord {m : Nat} {w : Word} (read : readR e s m = .ok (s1, w)) : KeepsRecord e.t s s1 := by
  unfold readR at read
  dsimp only at read
  split_ifs at read
  · cases read
    exact qPop_keepsRecord s _ _ _
  · cases read
    exact qPop_keepsRecord s _ _ _
  · cases read
    exact ⟨fun x m => regGet_modSlot _ _ _ _ _ _, _, getSlot_modSlot_same _ _ _⟩
  · cases read
  · cases read
    exact .refl _ _

theorem opnd_keepsRecord {i m : Nat} {w : Word} (read : opnd e s i m = .ok (s1, w)) : KeepsRecord e.t s s1 := by
  unfold opnd at read
  split at read
  · cases read
    exact .refl _ _
  · exact readR_keepsRecord read

/-! ### MIGR (R217 to R219) -/

/-- The carry that MIGR sends: the record with its own pc, the burst, and the row at the descriptor's source as s3 holds it. -/
def migrCarry (s s3 : State) (r : List Word) (pos : Word) : CarryIn :=
  let sl := getSlot s s.cur
  { uid := uidOf s, ctx := sl.ctx, t := s.cur, ws := recordOf s s.cur sl sl.pc, burst := burstWords s s.cur sl,
    row := (List.range (cdIn r)).map (fun i => memByte s3.mem (scrKey s.cur.core (cdSrc r) + i)), marks := [], desc := r, pos := pos,
    limit := sl.csr.wlimt }

/-- What MIGR leaves: the continuation noted with its newest carry, the forwarding entry, and the slot reserved. -/
def migrLeft (s s3 : State) (desc pos : Word) : State :=
  let sl := getSlot s s.cur
  let s4 := modCont (noteCont s3 s.cur sl) (uidOf s) fun k => { k with carry := { home := s.cur, desc := desc, pos := pos } :: sl.carry }
  let s5 := modCore s4 s.cur.core fun c => { c with fwd := c.fwd ++ [{ old := s.cur, new := s.cur, tick := tickN s4, carry := true, ctx := sl.ctx }] }
  setSlot s5 s.cur { readied sl with uid := none, resv := some (uidOf s) }

theorem getSlot_migrLeft (s s3 : State) (desc pos : Word) :
    getSlot (migrLeft s s3 desc pos) s.cur = { readied (getSlot s s.cur) with uid := none, resv := some (uidOf s) } := getSlot_setSlot_same _ _ _

theorem getCont_migrLeft (s s3 : State) (desc pos : Word) :
    (getCont (migrLeft s s3 desc pos) (uidOf s)).carry = { home := s.cur, desc := desc, pos := pos } :: (getSlot s s.cur).carry :=
  congrArg Cont.carry (getCont_modCont_same (noteCont s3 s.cur (getSlot s s.cur)) (uidOf s)
    fun k => { k with carry := { home := s.cur, desc := desc, pos := pos } :: (getSlot s s.cur).carry })

theorem mem_noteCont (s : State) (t : Tid) (sl : Slot) : (noteCont s t sl).mem = s.mem := by
  unfold noteCont
  split <;> rfl

theorem noteCont_tick (s : State) (t : Tid) (sl : Slot) : (noteCont s t sl).tick = s.tick := by
  unfold noteCont
  split <;> rfl

theorem mem_migrLeft (s s3 : State) (desc pos : Word) : (migrLeft s s3 desc pos).mem = s3.mem := mem_noteCont _ _ _

theorem fwd_migrLeft (cores : s3.cores = s.cores) (tick : s3.tick = s.tick) (desc pos : Word) :
    (getCore (migrLeft s s3 desc pos) s.cur.core).fwd = (getCore s s.cur.core).fwd ++
      [{ old := s.cur, new := s.cur, tick := tickN s, carry := true, ctx := (getSlot s s.cur).ctx }] := by
  have same := getCore_of_cores ((noteCont_cores s3 s.cur (getSlot s s.cur)).trans cores) s.cur.core
  have now : tickN (noteCont s3 s.cur (getSlot s s.cur)) = tickN s := congrArg BitVec.toNat ((noteCont_tick _ _ _).trans tick)
  simp only [migrLeft, setSlot, getCore_modCore_same]
  exact congrArg₂ (fun c n => Core.fwd c ++ [{ old := s.cur, new := s.cur, tick := n, carry := true, ctx := (getSlot s s.cur).ctx }]) same now

/-- MIGR and its like are refused in a light handler (R136, log 73). -/
theorem suspendFirst_inHandler {late : Bool} (first : firstIssue e = true) (clean : noFault e.sl fun _ _ => true) (light : e.sl.handler ≠ none) :
    suspendFirst e late = .error (.trap 0x01 e.enc) := by
  have runs : e.sl.handler.isSome = true := Option.isSome_iff_ne_none.mpr light
  cases late <;>
    simp only [suspendFirst, first, drainLate_clean clean, runs, if_true, Bool.false_eq_true, if_false, Bind.bind, Except.bind, pure, Except.pure] <;> rfl

/-- The first refusal of a descriptor r at position pos, with its cause and tval (R217, R219, log 73). -/
def migrRefusal (s : State) (r : List Word) (pos : Word) : Option (BitVec 8 × Word) :=
  if cdSrc r % 64 ≠ 0 then some (0x03, wd (cdSrc r))
  else if ¬ (cdSrc r + max (cdIn r) (cdOut r) ≤ 0x100000 ∧ cdSrc r + max (cdIn r) (cdOut r) ≤ scrSize s.cur.core) then some (0x08, wd (cdSrc r))
  else if 0xFFFE ≤ pos.toNat then some (0x1A, pos)
  else if 16 ≤ (getCore s s.cur.core).fwd.length then some (0x1A, 0)
  else none

/-- The checks of MIGR in their order. -/
theorem migr_needs (e : Env) (turn : e.t = e.s.cur) (rest : X State) :
    (do need (cdSrc r % 64 == 0) 0x03 (wd (cdSrc r))
        need (cdSrc r + max (cdIn r) (cdOut r) ≤ 0x100000 && cdSrc r + max (cdIn r) (cdOut r) ≤ scrSize e.t.core) 0x08 (wd (cdSrc r))
        need (decide (pos.toNat < 0xFFFE)) 0x1A pos
        need (decide ((getCore e.s e.t.core).fwd.length < 16)) 0x1A 0
        rest) = (migrRefusal e.s r pos).elim rest fun x => .error (.trap x.1 x.2) := by
  rw [turn, migrRefusal]
  by_cases even : cdSrc r % 64 = 0
  · refine after (if_pos (beq_iff_eq.mpr even)) ?_
    rw [if_neg (not_not.mpr even)]
    by_cases fits : cdSrc r + max (cdIn r) (cdOut r) ≤ 0x100000 ∧ cdSrc r + max (cdIn r) (cdOut r) ≤ scrSize e.s.cur.core
    · refine after (if_pos (by rwa [Bool.and_eq_true, decide_eq_true_iff, decide_eq_true_iff])) ?_
      rw [if_neg (not_not.mpr fits)]
      by_cases high : 0xFFFE ≤ pos.toNat
      · rw [if_pos high]
        exact stops (if_neg (by rw [decide_eq_true_iff]; exact Nat.not_lt.mpr high))
      · refine after (if_pos (decide_eq_true (Nat.lt_of_not_le high))) ?_
        rw [if_neg high]
        by_cases full : 16 ≤ (getCore e.s e.s.cur.core).fwd.length
        · rw [if_pos full]
          exact stops (if_neg (by rw [decide_eq_true_iff]; exact Nat.not_lt.mpr full))
        · rw [if_neg full]
          exact after (if_pos (decide_eq_true (Nat.lt_of_not_le full))) rfl
    · rw [if_pos fits]
      exact stops (if_neg (by rwa [Bool.and_eq_true, decide_eq_true_iff, decide_eq_true_iff]))
  · rw [if_pos even]
    exact stops (if_neg (by rwa [beq_iff_eq]))

theorem exec_migr (d a b : BitVec 7) (s : State) : exec (.migr d a b) s = execMigr d a b s := rfl

section
variable {d a b : BitVec 7} (checks : chk (envFor 4 (.migr d a b) s) [a.toNat, b.toNat] [d.toNat] [] = .ok ())

theorem migr_light (runs : Runs s) (deliv : (getSlot s s.cur).deliv = none) (res : (getSlot s s.cur).res = none) (ph : (getSlot s s.cur).ph = []) (late : NoLate s)
    (light : (getSlot s s.cur).handler ≠ none) :
    exec (.migr d a b) s = .next (takeTrap s s.cur 0x01 ((encode (.migr d a b)).setWidth 64) (getSlot s s.cur).pc) := by
  have first : firstIssue (envFor 4 (.migr d a b) s) = true := by
    show ((getSlot s s.cur).deliv.isNone && (getSlot s s.cur).res.isNone && (getSlot s s.cur).ph.isEmpty) = true
    rw [deliv, res, ph]
    rfl
  exact (exec_migr ..).trans (thr_stop runs.1 runs.2 (st := .trap 0x01 _) (stops (suspendFirst_inHandler first late light)))

include checks

/-- An outcome delivered is taken as FORCE takes it. -/
theorem migr_delivered {x : Deliv} (deliv : (getSlot s s.cur).deliv = some x) :
    exec (.migr d a b) s = thr 4 (Enc.migr d a b) s fun e => takeOutcome e d.toNat x := by
  refine (exec_migr ..).trans (thr_congr ?_)
  refine after (suspendFirst_later _ (.inl ?_)) (after checks ?_)
  · rw [show (envOf 4 (Enc.migr d a b) s).sl.deliv = some x from deliv]
    exact Option.some_ne_none x
  · dsimp only [envOf_sl]
    rw [deliv]

section
variable (runs : Runs s) (deliv : (getSlot s s.cur).deliv = none) (late : NoLate s) (light : (getSlot s s.cur).handler = none)
include runs deliv late light

theorem migr_ports (ports : (getSlot s s.cur).ports = true) :
    exec (.migr d a b) s = .next (takeTrap s s.cur 0x1A 0 (getSlot s s.cur).pc) := by
  refine (exec_migr ..).trans (thr_stop runs.1 runs.2 (st := .trap 0x1A 0) ?_)
  refine after (suspendFirst_light (fun _ => late) light) (after checks ?_)
  dsimp only [envOf_sl]
  rw [deliv]
  exact stops (if_neg (by rw [ports]; exact Bool.false_ne_true))

section
variable (ports : (getSlot s s.cur).ports = false) (operand : opnd (envFor 4 (.migr d a b) s) s 0 a.toNat = .ok (s1, desc))
  (position : opnd (envFor 4 (.migr d a b) s) s1 1 b.toNat = .ok (s2, pos)) (read : cdRead (envFor 4 (.migr d a b) s) s2 [desc, pos] desc = .ok (s3, r))
include ports operand position read

theorem migr_refused (refused : migrRefusal s r pos = some (c, v)) : exec (.migr d a b) s = .next (takeTrap s s.cur c v (getSlot s s.cur).pc) := by
  refine (exec_migr ..).trans (thr_stop runs.1 runs.2 (st := .trap c v) ?_)
  refine after (suspendFirst_light (fun _ => late) light) (after checks ?_)
  dsimp only [envOf_sl, envOf_s]
  rw [deliv]
  refine after (if_pos (by rw [ports]; rfl)) (after operand (after position (after read ?_)))
  dsimp only
  refine (migr_needs (envOf 4 (Enc.migr d a b) s) rfl _).trans ?_
  rw [envOf_s, refused]
  rfl

theorem migr_sends (accepted : migrRefusal s r pos = none) (drained : Drained (getSlot s s.cur))
    (bead : NamesBead s (envFor 4 (.migr d a b) s) (wAt r 0) k u) (plain : AllPlain s3)
    (well : eccStatus s3 (scrKey s.cur.core (cdSrc r)) (cdIn r) = 0) :
    exec (.migr d a b) s = .next (send (migrLeft s s3 desc pos) 8 (dskOf (getSlot s s.cur)) (coreUnit s.cur.core)
      (coreUnit (svcCore (unitCl u))) (.carry (migrCarry s s3 r pos))) := by
  refine (exec_migr ..).trans (thr_next runs.1 runs.2 ?_)
  refine after (suspendFirst_light (fun _ => late) light) (after checks ?_)
  dsimp only [envOf_sl, envOf_s]
  rw [deliv]
  refine after (if_pos (by rw [ports]; rfl)) (after operand (after position (after read ?_)))
  dsimp only
  refine (migr_needs (envOf 4 (Enc.migr d a b) s) rfl _).trans ?_
  rw [envOf_s, accepted]
  refine after (drain_drained (e := envOf 4 (Enc.migr d a b) s) rfl drained) (after (beadAt_named (e := envOf 4 (Enc.migr d a b) s) rfl bead) ?_)
  refine after (if_pos (lineGateOf_plain plain _ _ _)) ?_
  have same := cdRead_cores read
  rw [opnd_window ports position, opnd_window ports operand] at same
  dsimp only
  rw [lineNotesOf_plain plain, envOf_t, rowRead_clean well]
  dsimp only
  have kept : KeepsRecord s.cur s s3 := .of_cores same s.cur
  have home : unitOf' k = u := by rw [unitOf', bead.2.2.2, Option.getD_some]
  rw [kept.recordOf, kept.burstWords, getSlot_of_cores same, home]
  rfl

end
end
end

/-! ### MRET (R220) -/

theorem exec_mret (a b : BitVec 7) (s : State) : exec (.mret a b) s = execMret a b s := rfl

/-- The first issue passes where no late fault stands; a later one makes no check. -/
theorem lateFirst_clean {f : Unit → X State} {x : X State} (clean : noFault e.sl fun _ _ => true) (rest : f () = x) :
    (if firstIssue e then drainLate e >>= f else f ()) = x := by
  have passed : (drainLate e >>= f) = f () := after (drainLate_clean clean) rfl
  rw [passed, ite_self, rest]

/-- The state that MRET sends the row from: the continuation noted, with its older carries and at its home core. -/
def mretLeft (s s3 : State) (home : Tid) : State :=
  let s4 := noteCont s3 s.cur (getSlot s3 s.cur)
  modCont (((getCont s4 (uidOf s)).area2.take 1).foldl freeArea s4) (uidOf s) fun k => { k with area2 := k.area2.drop 1, core := home.core }

theorem mem_freeArea (s : State) (x : Area) : (freeArea s x).mem = s.mem := by cases x <;> rfl

theorem mem_mretLeft (s s3 : State) (home : Tid) : (mretLeft s s3 home).mem = s3.mem :=
  (foldl_keeps State.mem mem_freeArea _ _).trans (mem_noteCont _ _ _)

theorem regGet_freeArea (s : State) (x : Area) (sl : Slot) (m : Nat) : regGet (freeArea s x) t sl m = regGet s t sl m := by
  cases x with
  | none => rfl
  | spill _ _ _ => rfl
  | seg core ctx i =>
    unfold regGet freeArea
    by_cases same : t.core = core
    · rw [same, getCore_modCore_same]
    · rw [getCore_modCore_other _ _ same]

theorem regGet_mretLeft (s s3 : State) (home : Tid) (sl : Slot) (m : Nat) : regGet (mretLeft s s3 home) t sl m = regGet s3 t sl m :=
  (foldl_keeps (fun s => regGet s t sl m) (fun s x => regGet_freeArea s x sl m) _ _).trans (regGet_of_cores (noteCont_cores _ _ _) t sl m)

theorem recordOf_congr (regs : ∀ x m, regGet s1 t x m = regGet s t x m) (sl : Slot) (pc : Word) : recordOf s1 t sl pc = recordOf s t sl pc := by
  unfold recordOf
  rw [regs, regs]

section
variable {a b : BitVec 7} (runs : Runs s) (late : NoLate s)
include runs late

theorem mret_noCarry (none : (getSlot s s.cur).carry = []) :
    exec (.mret a b) s = .next (takeTrap s s.cur 0x01 ((encode (.mret a b)).setWidth 64) (getSlot s s.cur).pc) := by
  refine (exec_mret ..).trans (thr_stop runs.1 runs.2 (st := .trap 0x01 _) ?_)
  refine lateFirst_clean (e := envOf 4 (Enc.mret a b) s) late ?_
  dsimp only [envOf_sl]
  rw [none]
  rfl

section
variable {cr : Carry} {rest : List Carry} (carries : (getSlot s s.cur).carry = cr :: rest)
  (checks : chk (envFor 4 (.mret a b) s) [a.toNat, b.toNat] [] [] = .ok ())
  (operand : opnd (envFor 4 (.mret a b) s) s 0 a.toNat = .ok (s1, desc)) (position : opnd (envFor 4 (.mret a b) s) s1 1 b.toNat = .ok (s2, pos))
include carries checks operand position

theorem mret_other (other : desc ≠ cr.desc ∨ pos ≠ cr.pos) :
    exec (.mret a b) s = .next (takeTrap s s.cur 0x01 ((encode (.mret a b)).setWidth 64) (getSlot s s.cur).pc) := by
  refine (exec_mret ..).trans (thr_stop runs.1 runs.2 (st := .trap 0x01 _) ?_)
  refine lateFirst_clean (e := envOf 4 (Enc.mret a b) s) late ?_
  dsimp only [envOf_sl, envOf_s]
  rw [carries]
  exact after checks (after operand (after position ((if_pos (by simpa only [Bool.or_eq_true, bne_iff_ne] using other)).trans rfl)))

theorem mret_returns {ks : List Nat} (own : desc = cr.desc ∧ pos = cr.pos) (read : cdRead (envFor 4 (.mret a b) s) s2 [desc, pos] desc = .ok (s3, r))
    (drained : Drained (getSlot s s.cur))
    (keys : rowKeys s3 (some s.cur.core) (getSlot s s.cur).ctx (wAt r 4 + pos * wd (cdOut r)) 1 (cdOut r) = .ok ks)
    (well : ∀ k ∈ ks, eccStatus s3 k 1 = 0) (plain : AllPlain s3) :
    exec (.mret a b) s = .next (setSlot (send (mretLeft s s3 cr.home) 8 (dskOf (getSlot s s.cur)) (coreUnit s.cur.core) (coreUnit cr.home.core)
      (.carryBack (uidOf s) cr.home (recordOf s s.cur (getSlot s s.cur) ((getSlot s s.cur).pc + 4)) (burstWords s s.cur (getSlot s s.cur))
        (ks.map (memByte s3.mem)) [] (cdSrc r))) s.cur (emptied (getSlot s s.cur))) := by
  refine (exec_mret ..).trans (thr_next runs.1 runs.2 ?_)
  refine lateFirst_clean (e := envOf 4 (Enc.mret a b) s) late ?_
  dsimp only [envOf_sl, envOf_s]
  rw [carries]
  refine after checks (after operand (after position ((if_neg ?_).trans ?_)))
  · simp only [own.1, own.2, bne_self_eq_false, Bool.or_self, Bool.false_eq_true, not_false_eq_true]
  refine after read (after (drain_drained (e := envOf 4 (Enc.mret a b) s) rfl drained) ?_)
  dsimp only
  rw [envOf_t, keys]
  refine after (if_pos (lineGateOf_plain plain _ _ _)) ?_
  rw [lineNotesOf_plain plain, rowGather_clean well]
  dsimp only
  have kept : KeepsRecord s.cur s s3 :=
    ((opnd_keepsRecord operand).trans (opnd_keepsRecord position)).trans (.of_cores (cdRead_cores read) s.cur)
  have regs := regGet_mretLeft (t := s.cur) s s3 cr.home
  have uid : (getSlot s3 s.cur).uid.getD 0 = uidOf s := congrArg (Option.getD · 0) kept.uid
  rw [kept.emptied, uid, envOf_npc, ← kept.recordOf, ← kept.burstWords]
  refine congrArg₂ (fun ws bs => Except.ok (setSlot (send (mretLeft s s3 cr.home) 8 (dskOf (getSlot s s.cur)) (coreUnit s.cur.core)
    (coreUnit cr.home.core) (.carryBack (uidOf s) cr.home ws bs (ks.map (memByte s3.mem)) [] (cdSrc r))) s.cur (emptied (getSlot s s.cur)))) ?_ ?_
  · exact recordOf_congr regs _ _
  · exact burstWords_congr regs _

end
end

/-- MIGR and MRET as R217 to R220 and R360 say. -/
theorem carryResults : CarryResults := by
  constructor
  · intro d a b s runs i e sl checks
    refine ⟨fun deliv res ph late light => migr_light runs deliv res ph late light,
      fun deliv late light ports => migr_ports checks runs deliv late light ports, ?_, fun v f s1 deliv written => ?_, fun v f s1 deliv written => ?_,
      fun c v deliv => ?_⟩
    · intro deliv late ports light s1 desc s2 pos s3 r operand position read src rows inSize room
      have refused : ∀ {c v}, migrRefusal s r pos = some (c, v) → exec i s = .next (takeTrap s s.cur c v sl.pc) :=
        migr_refused checks runs deliv late light ports operand position read
      have fits : room ↔ cdSrc r + max (cdIn r) (cdOut r) ≤ 0x100000 ∧ cdSrc r + max (cdIn r) (cdOut r) ≤ scrSize s.cur.core := by
        rw [cdRows_eq, cdSrc_eq]
        exact Iff.rfl
      rw [fits]
      have place : src = cdSrc r := (cdSrc_eq r).symm
      rw [place]
      refine ⟨fun odd => refused (if_pos odd), fun even beyond => refused ?_, fun even fit high => refused ?_, fun even fit low full => refused ?_,
        fun even fit low free drained k u bead well plain => ?_⟩
      · rw [migrRefusal, if_neg (not_not.mpr even), if_pos beyond]
        rfl
      · rw [migrRefusal, if_neg (not_not.mpr even), if_neg (not_not.mpr fit), if_pos high]
      · rw [migrRefusal, if_neg (not_not.mpr even), if_neg (not_not.mpr fit), if_neg (Nat.not_le.mpr low), if_pos full]
      · have accepted : migrRefusal s r pos = none := by
          rw [migrRefusal, if_neg (not_not.mpr even), if_neg (not_not.mpr fit), if_neg (Nat.not_le.mpr low), if_neg (Nat.not_le.mpr free)]
        have size : inSize = cdIn r := (cdIn_eq r).symm
        rw [size] at well ⊢
        have cores : s3.cores = s.cores := by
          have same := cdRead_cores read
          rwa [opnd_window ports position, opnd_window ports operand] at same
        have tick : s3.tick = s.tick := by
          have same := cdRead_tick read
          rwa [opnd_window ports position, opnd_window ports operand] at same
        refine ⟨migrLeft s s3 desc pos, migrCarry s s3 r pos,
          migr_sends checks runs deliv late light ports operand position read accepted drained bead plain well, rfl, rfl, rfl, rfl, rfl, rfl, rfl, rfl, rfl, rfl,
          mem_migrLeft _ _ _ _, congrArg Slot.uid (getSlot_migrLeft _ _ _ _), congrArg Slot.resv (getSlot_migrLeft _ _ _ _),
          getCont_migrLeft _ _ _ _, fwd_migrLeft cores tick _ _⟩
    · rw [migr_delivered checks deliv]
      exact thr_next runs.1 runs.2 (takeOutcome_value (e := envOf 4 (Enc.migr d a b) s) written)
    · rw [migr_delivered checks deliv]
      exact thr_stop runs.1 runs.2 (st := .trapIn s1 0x14 0 (sl.pc + 4)) (takeOutcome_value (e := envOf 4 (Enc.migr d a b) s) written)
    · rw [migr_delivered checks deliv]
      exact thr_stop runs.1 runs.2 (st := .trap c v) rfl
  · intro a b s runs i e sl
    refine ⟨fun late none => mret_noCarry runs late none, ?_⟩
    intro cr rest s1 desc s2 pos late carries checks operand position
    refine ⟨mret_other runs late carries checks operand position, fun sameDesc samePos s3 r ks read drained => ?_⟩
    intro outSize keys well plain
    have size : outSize = cdOut r := (cdOut_eq r).symm
    rw [size] at keys
    rw [← cdSrc_eq]
    exact ⟨mretLeft s s3 cr.home, mret_returns runs late carries checks operand position ⟨sameDesc, samePos⟩ read drained keys well plain,
      mem_mretLeft _ _ _⟩

end Sys2Proof.Proofs
end

section
/-!
PROOFS. A carry at its expert's cluster: the deposit of its row, the count of its arrival, the demand of its batch bead, and its return
home; and a core that stops at a parity error (R205, R218 to R220, R440).
-/

namespace Sys2Proof.Proofs

open Sys2Proof.Machine Sys2Proof.Laws Sys2Proof.Claim

variable {s s1 s2 : State} {cl uid core k h : Nat} {p : Packet} {ci : CarryIn} {c : BitVec 8} {v : Word} {ks : List Nat}

/-! ### Carries of a cluster -/

theorem uid_of_found {l : List CarryIn} (found : l.find? (fun x => x.uid == uid) = some ci) : ci.uid = uid := by
  simpa only [beq_iff_eq] using List.find?_some found

/-- A carry that a cluster holds is found under its own uid after it is replaced. -/
theorem find_setCarry {ci' : CarryIn} (found : (getCl s cl).carries.find? (fun x => x.uid == uid) = some ci) (same : ci'.uid = uid) :
    (getCl (setCarry s cl ci') cl).carries.find? (fun x => x.uid == uid) = some ci' := by
  rw [setCarry, getCl_modCl_same]
  dsimp only
  revert found
  induction (getCl s cl).carries with
  | nil => exact fun found => nomatch found
  | cons x l ih =>
    intro found
    rw [List.map_cons, List.find?_cons]
    rw [List.find?_cons] at found
    by_cases own : x.uid = uid
    · rw [if_pos (own.trans same.symm), same, beq_self_eq_true]
    · rw [if_neg (fun eq => own (eq.trans same)), beq_eq_false_iff_ne.mpr own]
      rw [beq_eq_false_iff_ne.mpr own] at found
      exact ih found

/-- The newest carry of a cluster is found where none bears its uid. -/
theorem find_appended {l : List CarryIn} (fresh : ∀ x ∈ l, x.uid ≠ ci.uid) : (l ++ [ci]).find? (fun x => x.uid == ci.uid) = some ci := by
  have none : l.find? (fun x => x.uid == ci.uid) = none := List.find?_eq_none.mpr fun x hx => by
    rw [beq_iff_eq]
    exact fresh x hx
  rw [List.find?_append, none, Option.none_or, List.find?_cons, beq_self_eq_true]

/-! ### The arrival (R218) -/

def isCarry (p : Packet) : Bool :=
  match p.body with
  | .carry _ => true
  | _ => false

/-- What a service core does with a carry that has come. -/
def carryTaken (cl : Nat) (p : Packet) (s : State) : State :=
  match p.body with
  | .carry ci =>
    if !(getCont s ci.uid).alive then s
    else carryDeposit (modCl s cl fun c => { c with carries := c.carries ++ [{ ci with slack := slackLeft (tickN s) p }] }) cl
      { ci with slack := slackLeft (tickN s) p }
  | _ => s

theorem exec_carryArrival (cl : Nat) (s : State) : exec (.carryArrival cl) s =
    .next (if !clRuns s cl then s else onArrival s (coreUnit (svcCore cl)) 0 isCarry (carryTaken cl)) := rfl

theorem carryTaken_alive (body : p.body = .carry ci) (alive : (getCont s ci.uid).alive = true) : carryTaken cl p s =
    carryDeposit (modCl s cl fun c => { c with carries := c.carries ++ [{ ci with slack := slackLeft (tickN s) p }] }) cl
      { ci with slack := slackLeft (tickN s) p } := by
  rw [carryTaken, body]
  exact if_neg (by rw [alive]; exact Bool.false_ne_true)

theorem carryDeposit_keys (keys : depositKeys s cl ci = .ok ks) : carryDeposit s cl ci =
    (depositLines ci ks).foldl (depositLine cl ci) (setCarry s cl { ci with acks := (depositLines ci ks).length }) := by
  rw [carryDeposit, keys]

theorem carryDeposit_fault (keys : depositKeys s cl ci = .error (c, v)) : carryDeposit s cl ci = wakeCarry s cl ci.uid (.fail c v) := by
  rw [carryDeposit, keys]

/-! ### The lines of a deposit (R34, R440) -/

theorem depositLine_home {k0 : Nat} {b0 : Byte} {cells : List Host.Cell} {ms : List Nat} (home : homeOf k0 = some h) :
    depositLine cl ci s ((k0, b0) :: cells, ms) =
      send s 7 ci.slack (coreUnit (svcCore cl)) h (.put ((k0, b0) :: cells) ms (.carry cl ci.uid 0)) := by
  simp only [depositLine, List.headD_cons, home]

theorem depositLine_host {k0 : Nat} {b0 : Byte} {cells : List Host.Cell} {ms : List Nat} (host : homeOf k0 = none) :
    depositLine cl ci s ((k0, b0) :: cells, ms) = send (putAtHome s ((k0, b0) :: cells) ms) 17 ci.slack (coreUnit (svcCore cl))
      (coreUnit (svcCore cl)) (.reply (.carry cl ci.uid 0) .ok) := by
  simp only [depositLine, List.headD_cons, host]

/-- The cells of one line, in the order of the row. -/
def cellsAt (ci : CarryIn) (ks : List Nat) (l : Nat) : List (Host.Cell × Nat) := (ks.zip ci.row).zipIdx.filter fun c => c.1.1 / 64 == l

theorem mem_cellsAt {x : Host.Cell} {l : Nat} : x ∈ (cellsAt ci ks l).map (·.1) ↔ x ∈ ks.zip ci.row ∧ x.1 / 64 = l := by
  rw [List.mem_map]
  constructor
  · rintro ⟨⟨y, i⟩, hy, rfl⟩
    obtain ⟨row, line⟩ := List.mem_filter.mp hy
    exact ⟨List.fst_mem_of_mem_zipIdx row, beq_iff_eq.mp line⟩
  · rintro ⟨row, line⟩
    obtain ⟨i, hi⟩ := List.mem_iff_getElem?.mp row
    exact ⟨(x, i), List.mem_filter.mpr ⟨List.mk_mem_zipIdx_iff_getElem?.mpr hi, beq_iff_eq.mpr line⟩, rfl⟩

theorem mem_depositLines {l : List Host.Cell × List Nat} (line : l ∈ depositLines ci ks) : ∃ n ∈ linesOf ks, l.1 = (cellsAt ci ks n).map (·.1) := by
  obtain ⟨n, hn, rfl⟩ := List.mem_map.mp line
  exact ⟨n, hn, rfl⟩

theorem depositLines_cover (x : Host.Cell) : x ∈ ks.zip ci.row ↔ ∃ l ∈ depositLines ci ks, x ∈ l.1 := by
  constructor
  · intro row
    have line : x.1 / 64 ∈ linesOf ks := List.mem_eraseDups.mpr (List.mem_map.mpr ⟨x.1, (List.of_mem_zip row).1, rfl⟩)
    exact ⟨_, List.mem_map.mpr ⟨_, line, rfl⟩, mem_cellsAt.mpr ⟨row, rfl⟩⟩
  · rintro ⟨l, line, inside⟩
    obtain ⟨n, -, cells⟩ := mem_depositLines line
    rw [cells] at inside
    exact (mem_cellsAt.mp inside).1

theorem depositLines_line {l : List Host.Cell × List Nat} (line : l ∈ depositLines ci ks) {x y : Host.Cell} (hx : x ∈ l.1) (hy : y ∈ l.1) :
    x.1 / 64 = y.1 / 64 := by
  obtain ⟨n, -, cells⟩ := mem_depositLines line
  rw [cells] at hx hy
  exact (mem_cellsAt.mp hx).2.trans (mem_cellsAt.mp hy).2.symm

/-! ### Acknowledgements and the count (R218) -/

/-- What a service core does with the acknowledgement of a line. -/
def depositTaken (cl : Nat) (p : Packet) (s : State) : State :=
  match p.body with
  | .reply (.carry _ uid _) r =>
    match carryAt (platCount s cl p) cl uid with
    | some ci => depositAck (platCount s cl p) cl ci p.src r
    | none => platCount s cl p
  | _ => s

theorem exec_carryDepositDone (cl : Nat) (s : State) : exec (.carryDepositDone cl) s =
    .next (if !clRuns s cl then s else onArrival s (coreUnit (svcCore cl)) 1 (isCarryReply 0) (depositTaken cl)) := rfl

theorem depositTaken_held {r : Res} {x n : Nat} (late : p.late = none) (body : p.body = .reply (.carry x uid n) r)
    (found : (getCl s cl).carries.find? (fun x => x.uid == uid) = some ci) : depositTaken cl p s = depositAck s cl ci p.src r := by
  rw [depositTaken, body]
  simp only [platCount_inTime late, carryAt, found]

/-- The first fault of a deposit, after an acknowledgement r of the home u. -/
def depositFault (s : State) (cl : Nat) (ci : CarryIn) (u : Nat) (r : Res) : Option (BitVec 8 × Word) :=
  ci.fail.or ((resCause r).map fun c => (c, depositVa s cl ci u))

/-- The carry ci after an acknowledgement r of the home u. -/
def acknowledged (s : State) (cl : Nat) (ci : CarryIn) (u : Nat) (r : Res) : CarryIn :=
  { ci with acks := ci.acks - 1, fail := depositFault s cl ci u r }

theorem depositAck_waits {u : Nat} {r : Res} (more : 2 ≤ ci.acks) : depositAck s cl ci u r = setCarry s cl (acknowledged s cl ci u r) :=
  if_pos (bne_iff_ne.mpr (show ci.acks - 1 ≠ 0 by omega))

theorem depositAck_fails {u : Nat} {r : Res} (last : ci.acks = 1) (failed : depositFault s cl ci u r = some (c, v)) :
    depositAck s cl ci u r = wakeCarry (setCarry s cl (acknowledged s cl ci u r)) cl ci.uid (.fail c v) := by
  refine (if_neg (by rw [last]; exact Bool.false_ne_true)).trans ?_
  rw [← depositFault, failed, acknowledged, failed]

theorem depositAck_counts {u : Nat} {r : Res} (last : ci.acks = 1) (good : depositFault s cl ci u r = none) :
    depositAck s cl ci u r = carryCount (setCarry s cl (acknowledged s cl ci u r)) cl (acknowledged s cl ci u r) := by
  refine (if_neg (by rw [last]; exact Bool.false_ne_true)).trans ?_
  rw [← depositFault, good, acknowledged, good]

theorem carryCount_home {pg : TlbEnt} (aligned : (wAt ci.desc 5).toNat % 8 = 0)
    (key : vkey s (some (svcCore cl)) ci.ctx (wAt ci.desc 5).toNat 3 = .ok (k, pg)) (home : homeOf k = some h) :
    carryCount s cl ci = send s 2 ci.slack (coreUnit (svcCore cl)) h (.amo 0 k (BitVec.allOnes 64) 0 (.carry cl ci.uid 1)) := by
  unfold carryCount
  simp only [aligned, bne_self_eq_false, Bool.false_eq_true, if_false, key, home]

/-! ### The batch bead (R107, R109, R218) -/

def isCountReply (p : Packet) : Bool := isCarryReply 1 p || isCarryReply 2 p

/-- What a service core does with the reply of a counter or of a batch bead. -/
def countTaken (cl : Nat) (p : Packet) (s : State) : State :=
  match p.body with
  | .reply (.carry _ uid stage) r =>
    match carryAt (platCount s cl p) cl uid with
    | none => platCount s cl p
    | some ci =>
      if stage = 2 then carryBead (platCount s cl p) cl uid r
      else match r with
        | .words l => carryDemand (platCount s cl p) cl ci (wAt l 0)
        | .fault c _ => wakeCarry (platCount s cl p) cl uid (.fail c (wAt ci.desc 5))
        | _ => platCount s cl p
  | _ => s

theorem exec_carryCountReply (cl : Nat) (s : State) : exec (.carryCountReply cl) s =
    .next (if !clRuns s cl then s else onArrival s (coreUnit (svcCore cl)) 1 isCountReply (countTaken cl)) := rfl

theorem countTaken_count {n : Word} {x : Nat} (late : p.late = none) (found : (getCl s cl).carries.find? (fun x => x.uid == uid) = some ci)
    (body : p.body = .reply (.carry x uid 1) (.words [n])) : countTaken cl p s = carryDemand s cl ci n := by
  rw [countTaken, body]
  simp only [platCount_inTime late, carryAt, found, Nat.reduceEqDiff, if_false]
  rfl

theorem countTaken_bead {r : Res} {x : Nat} (late : p.late = none) (found : (getCl s cl).carries.find? (fun x => x.uid == uid) = some ci)
    (body : p.body = .reply (.carry x uid 2) r) : countTaken cl p s = carryBead s cl uid r := by
  rw [countTaken, body]
  simp only [platCount_inTime late, carryAt, found, if_true]

/-- The counter, before the carry's −1, at which the carry is the last. -/
theorem lastCount_iff (n : Word) : (n - 1).toInt ≤ 0 ↔ n.toInt ≤ 1 ∧ n ≠ 0x8000000000000000 := by
  rw [BitVec.toInt_sub]
  have big := BitVec.toInt_lt (x := n)
  have small := BitVec.le_toInt (x := n)
  have least : n = 0x8000000000000000 ↔ n.toInt = -2 ^ 63 := by
    rw [← BitVec.toInt_inj]
    rfl
  have one : (1 : Word).toInt = 1 := rfl
  rw [Ne, least, one]
  simp only [Int.bmod]
  omega

theorem carryDemand_home {n : Word} {pg : TlbEnt}
    (key : let s2 := if n.toInt ≤ 1 ∧ n ≠ 0x8000000000000000 then modSlot s ci.t fun sl => { sl with chainSeq := sl.chainSeq + 1 } else s
      vkey s2 (some (svcCore cl)) ci.ctx (wAt ci.desc 0).toNat 1 = .ok (k, pg)) (home : homeOf k = some h) :
    carryDemand s cl ci n =
      (let last := n.toInt ≤ 1 ∧ n ≠ 0x8000000000000000
       let s2 := if last then modSlot s ci.t fun sl => { sl with chainSeq := sl.chainSeq + 1 } else s
       let chain := BitVec.ofNat 64 (ci.ctx % 65536 * 2 ^ 48 + (getSlot s2 ci.t).chainSeq.toNat * 2 ^ 17 + ci.t.core * 64 + ci.t.slot)
       send s2 4 ci.slack (coreUnit (svcCore cl)) h (.bead { key := k, handle := wAt ci.desc 0, ctx := ci.ctx }
         (if last then .force chain else .hwait chain) ci.limit.toNat (svcCore cl) (wAt ci.ws 2 + 64) (.carry cl ci.uid 2))) := by
  dsimp only at key ⊢
  unfold carryDemand
  simp only [decide_eq_true_eq, lastCount_iff, key, home, chainWord, tidWord, ← Nat.add_assoc]
  rfl

/-! ### The return (R219, R220) -/

/-- What a home core does with a carry that has come back. -/
def backTaken (core : Nat) (p : Packet) (s : State) : State :=
  match p.body with
  | .carryBack uid t ws b row marks dst =>
    if (getSlot s t).resv != some uid || !(getCont s uid).alive then s
    else
      let s2 := lineNotesOf s 7 (traceSrc s (.carry 0 uid 0) p.src) p.src (linesOf ((List.range row.length).map (scrKey core dst + ·)))
      let s3 := modCore (carryRow s2 core dst row marks) t.core fun c => { c with fwd := c.fwd.filter fun f => !(f.carry && f.old == t) }
      intoSlot (modCont s3 uid fun k => { k with carry := k.carry.drop 1 }) t uid (getSlot s t).wbase ws (some b) (getSlot s t).spb (getSlot s t).spl
  | _ => s

theorem exec_carryReturn (core : Nat) (s : State) : exec (.carryReturn core) s =
    .next (if !coreRuns s core then s else onArrival s (coreUnit core) 0 (backReady s core) (backTaken core)) := rfl

theorem backTaken_reserved {t : Tid} {ws b : List Word} {row : List Byte} {marks : List Nat} {dst : Nat} (plain : AllPlain s)
    (body : p.body = .carryBack uid t ws b row marks dst) (reserved : (getSlot s t).resv = some uid) (alive : (getCont s uid).alive = true) :
    backTaken core p s = intoSlot (modCont (modCore (carryRow s core dst row marks) t.core fun c =>
      { c with fwd := c.fwd.filter fun f => !(f.carry && f.old == t) }) uid fun k => { k with carry := k.carry.drop 1 }) t uid
      (getSlot s t).wbase ws (some b) (getSlot s t).spb (getSlot s t).spl := by
  rw [backTaken, body]
  refine (if_neg (by rw [reserved, alive, bne_self_eq_false]; exact Bool.false_ne_true)).trans ?_
  rw [lineNotesOf_plain plain]

/-! ### A core that has stopped (R205) -/

/-- Whether a core has stopped. -/
def stoppedAt (core : Nat) (s : State) : Bool := (getCore s core).stopped

theorem stopped_of_cores (same : s1.cores = s.cores) (core : Nat) : stoppedAt core s1 = stoppedAt core s :=
  congrArg Core.stopped (getCore_of_cores same core)

theorem stopped_modCore {f : Core → Core} (keeps : ∀ x, (f x).stopped = x.stopped) (s : State) (c core : Nat) :
    stoppedAt core (modCore s c f) = stoppedAt core s := by
  unfold stoppedAt
  by_cases same : core = c
  · rw [same, getCore_modCore_same, keeps]
  · rw [getCore_modCore_other _ _ same]

theorem stopped_ite {P : Prop} [Decidable P] {t u : State} (ht : stoppedAt core t = stoppedAt core s) (hu : stoppedAt core u = stoppedAt core s) :
    stoppedAt core (if P then t else u) = stoppedAt core s := by
  split
  · exact ht
  · exact hu

theorem stopped_foldl {β : Type} {f : State → β → State} (keeps : ∀ s b, stoppedAt core (f s b) = stoppedAt core s) (l : List β) (s : State) :
    stoppedAt core (l.foldl f s) = stoppedAt core s := foldl_keeps (stoppedAt core) keeps l s

theorem stopped_unpark (s : State) (u : Nat) (x : Parked) : stoppedAt core (unpark s u x) = stoppedAt core s := by
  refine stopped_of_cores ?_ core
  unfold unpark
  dsimp only
  split
  · exact homeWrite_cores _ _ _ _
  · rfl

theorem stopped_conts (s : State) (l : SMap Cont) (core : Nat) : stoppedAt core { s with conts := l } = stoppedAt core s := rfl

/-- No pass of a teardown starts a core that has stopped. -/
theorem stopped_teardown (s : State) (ctx status : Nat) : stoppedAt core (teardown s ctx status) = stoppedAt core s := by
  simp only [teardown]
  rw [stopped_of_cores (modCtx_cores _ _ _), stopped_conts, stopped_foldl, stopped_foldl, stopped_foldl, stopped_foldl, stopped_foldl, stopped_foldl,
    stopped_foldl, stopped_foldl, stopped_foldl]
  · exact fun t c => stopped_ite (stopped_modCore (by exact fun _ => rfl) t c core) rfl
  · exact fun t h => stopped_foldl (fun t x => stopped_ite (stopped_unpark t h.1 x) rfl) h.2.parked t
  · exact fun t e => stopped_modCore (by exact fun _ => rfl) t e.1 core
  · exact fun t cl => stopped_ite (stopped_of_cores (modCl_cores t cl _) core) rfl
  · refine fun t cl => stopped_foldl (fun t k => stopped_ite ?_ rfl) (getCl t cl).tasks t
    split
    · exact stopped_of_cores (send_trafficOnly _ _ _ _ _ _).cores core
    · exact stopped_of_cores (modCl_cores t cl _) core
  · refine fun t cl => stopped_foldl (fun t e => stopped_ite ?_ rfl) (getCl t cl).rq t
    exact (stopped_of_cores (modCl_cores _ cl _) core).trans
      (stopped_foldl (fun t w => stopped_ite (stopped_of_cores (inject_trafficOnly t _).cores core) rfl) (getCl t cl).rqWaits t)
  · exact fun t f => stopped_foldl (fun t q => stopped_ite (stopped_of_cores (modNq_cores t f.1 q.1 _) core) rfl) f.2.queues t
  · exact fun t d => stopped_of_cores (modDie_cores t d.1 _) core
  · exact fun t f => stopped_of_cores (modFn_cores t f.1 _) core

theorem stopped_endCont (s : State) (u : Nat) : stoppedAt core (endCont s u) = stoppedAt core s := by
  have freed : ∀ (s : State) (x : Area), stoppedAt core (freeArea s x) = stoppedAt core s := by
    intro s x
    cases x with
    | seg c ctx i => exact stopped_modCore (by exact fun _ => rfl) s c core
    | _ => rfl
  unfold endCont
  dsimp only
  rw [stopped_of_cores (s := (getCont s u).area2.foldl freeArea (freeArea s (getCont s u).area)) ?_ core, stopped_foldl freed, freed]
  split <;> rfl

theorem dropCore_empty (l : List Nat) : dropCore l {} = {} := rfl

theorem stopped_dropConts (s : State) (l : List Nat) : stoppedAt core (dropConts s l) = stoppedAt core s := by
  unfold dropConts
  dsimp only
  rw [stopped_foldl stopped_endCont, stopped_foldl]
  · exact (congrArg Core.stopped (smGet_map (dropCore_empty l) s.cores core)).trans rfl
  · exact fun t h => stopped_foldl (fun t x => stopped_ite (stopped_unpark t h.1 x) rfl) h.2.parked t

theorem stopped_rerunRoot (s : State) (cl u : Nat) (x : Cont) : stoppedAt core (rerunRoot s cl u x) = stoppedAt core s := by
  unfold rerunRoot
  split
  · exact stopped_endCont s u
  · exact stopped_endCont s u

theorem endTask_cores (s : State) (cl : Nat) (tk : Task) (op : BeadOp) : (endTask s cl tk op).cores = s.cores := by
  unfold endTask tellBead
  dsimp only
  split
  · exact (send_trafficOnly _ _ _ _ _ _).cores
  · rfl

theorem redispatch_cores (s : State) (core : Nat) : (redispatch s core).cores = s.cores := by
  unfold redispatch taskFault
  split
  · split
    · split
      · rfl
      · exact endTask_cores _ _ _ _
    · rfl
  · rfl

/-- A stopped core without its continuations. -/
def emptiedCore (c : Core) : Core :=
  { c with slots := c.slots.map fun x => (x.1, emptySlot x.2), deque := [], udeque := [], blocks := [], uinbox := [] }

theorem exec_coreParityError (core : Nat) (s : State) : exec (.coreParityError core) s = execCoreParityError core s := rfl

theorem coreParityError_stops (present : coreExists core = true) (working : (getCore s core).stopped = false) :
    ∃ t, exec (.coreParityError core) s = .next (redispatch (modCore t core emptiedCore) core) ∧ stoppedAt core t = true := by
  refine ⟨_, (exec_coreParityError core s).trans (congrArg Host.Outcome.next ((if_neg ?_).trans rfl)), ?_⟩
  · rw [present, working]
    exact Bool.false_ne_true
  · rw [stopped_foldl, stopped_foldl, stopped_dropConts, stopped_foldl]
    · exact congrArg Core.stopped (getCore_modCore_same _ _ _)
    · exact fun t x => stopped_teardown t x stDISCARDED
    · exact fun t x => stopped_rerunRoot t _ x.1 x.2
    · exact fun t x => rfl

theorem coreParityError_empties (present : coreExists core = true) (working : (getCore s core).stopped = false) :
    ∃ t, exec (.coreParityError core) s = .next t ∧ (getCore t core).stopped = true ∧ (getCore t core).deque = [] ∧ (getCore t core).blocks = [] ∧
      (getCore t core).uinbox = [] ∧ ∀ i, (getSlot t { core := core, slot := i }).uid = none := by
  obtain ⟨t, step, stopped⟩ := coreParityError_stops present working
  have left : getCore (redispatch (modCore t core emptiedCore) core) core = emptiedCore (getCore t core) := by
    rw [getCore_of_cores (redispatch_cores _ _), getCore_modCore_same]
  refine ⟨_, step, ?_⟩
  simp only [getSlot, left]
  exact ⟨stopped, rfl, rfl, rfl, fun i => congrArg Slot.uid (smGet_map (g := emptySlot) rfl (getCore t core).slots i)⟩

/-! ### The clauses together -/

theorem plain_of_takeArrived {u net : Nat} {ok : Packet → Bool} (plain : AllPlain s) (taken : takeArrived s u net ok = some (p, s1)) : AllPlain s1 := by
  obtain ⟨l, rfl⟩ := takeArrived_setQ taken
  exact plain

/-- A carry of a cluster woken with an outcome (R218, R363). -/
def carryWoken (s : State) (cl uid : Nat) (ci : CarryIn) (d : Deliv) : State :=
  modCl (modCont s uid fun k => { k with deliv := some d }) cl fun x =>
    { x with inj := x.inj ++ [{ kind := .cont uid (.held ci.ws), ctx := ci.ctx, prio := recPrio ci.ws, resumed := true, since := s.tick.toNat }] }

theorem wakeCarry_woken {d : Deliv} (found : (getCl s cl).carries.find? (fun x => x.uid == uid) = some ci) :
    wakeCarry s cl uid d = carryWoken s cl uid ci d := wakeCarry_found found

section
variable (runs : clRuns s cl = true)
include runs

theorem carryArrival_taken (taken : takeArrived s (coreUnit (svcCore cl)) 0 isCarry = some (p, s1)) :
    exec (.carryArrival cl) s = .next (carryTaken cl p s1) := by
  refine (exec_carryArrival cl s).trans (congrArg Host.Outcome.next ((if_neg (by rw [runs]; exact Bool.false_ne_true)).trans ?_))
  exact onArrival_taken taken _

theorem carryDepositDone_taken (taken : takeArrived s (coreUnit (svcCore cl)) 1 (isCarryReply 0) = some (p, s1)) :
    exec (.carryDepositDone cl) s = .next (depositTaken cl p s1) := by
  refine (exec_carryDepositDone cl s).trans (congrArg Host.Outcome.next ((if_neg (by rw [runs]; exact Bool.false_ne_true)).trans ?_))
  exact onArrival_taken taken _

theorem carryCountReply_taken (taken : takeArrived s (coreUnit (svcCore cl)) 1 isCountReply = some (p, s1)) :
    exec (.carryCountReply cl) s = .next (countTaken cl p s1) := by
  refine (exec_carryCountReply cl s).trans (congrArg Host.Outcome.next ((if_neg (by rw [runs]; exact Bool.false_ne_true)).trans ?_))
  exact onArrival_taken taken _

end

/-- Carries at their expert's cluster and core parity, as R205 and R218 to R220 say. -/
theorem carryAndParityResults : CarryAndParityResults := by
  refine ⟨fun s cl p s1 runs => ⟨fun ci taken body alive => ⟨fun ks keys => ?_, fun c v keys fresh => ?_⟩,
    fun uid ci r taken late body found => ?_, fun uid ci n taken late found => ⟨fun k h pg body => ?_, fun v b f body => ?_, fun c v body => ?_⟩⟩,
    fun cl ci s k0 b0 cells ms => ⟨fun h home => depositLine_home home, fun host => depositLine_host host⟩,
    fun ci ks _ => ⟨depositLines_cover, fun l line x hx y hy => depositLines_line line hx hy⟩, ?_,
    fun s core present working => coreParityError_empties present working⟩
  · rw [carryArrival_taken runs taken, carryTaken_alive body alive]
    exact congrArg Host.Outcome.next (carryDeposit_keys keys)
  · rw [carryArrival_taken runs taken, carryTaken_alive body alive]
    refine congrArg Host.Outcome.next ((carryDeposit_fault keys).trans (wakeCarry_woken ?_))
    rw [getCl_modCl_same]
    exact find_appended (ci := { ci with slack := slackLeft (tickN s1) p }) fresh
  · rw [carryDepositDone_taken runs taken, depositTaken_held late body found]
    obtain rfl := uid_of_found found
    intro f
    have fault : f = depositFault s1 cl ci p.src r := congrArg (Option.or ci.fail) (by cases r <;> rfl)
    clear_value f
    subst fault
    refine ⟨fun more => congrArg Host.Outcome.next (depositAck_waits more), fun c v last failed => ?_, fun k h pg last good even key home => ?_⟩
    · rw [depositAck_fails last failed]
      exact congrArg Host.Outcome.next ((wakeCarry_woken (find_setCarry (ci' := acknowledged s1 cl ci p.src r) found rfl)).trans rfl)
    · rw [depositAck_counts last good]
      exact congrArg Host.Outcome.next (carryCount_home (ci := acknowledged s1 cl ci p.src r) even key home)
  · intro last s2 chain key home
    rw [carryCountReply_taken runs taken, countTaken_count late found body, carryDemand_home key home, uid_of_found found]
  · rw [carryCountReply_taken runs taken, countTaken_bead late found body]
    exact congrArg Host.Outcome.next (wakeCarry_woken found)
  · rw [carryCountReply_taken runs taken, countTaken_bead late found body]
    exact congrArg Host.Outcome.next (wakeCarry_woken found)
  · intro s core p s1 uid t ws b row marks dst runs plain taken body reserved alive
    refine (exec_carryReturn core s).trans (congrArg Host.Outcome.next ((if_neg (by rw [runs]; exact Bool.false_ne_true)).trans ?_))
    rw [onArrival_taken taken]
    exact backTaken_reserved (plain_of_takeArrived plain taken) body reserved alive

/-- Settles O56: MIGR and MRET by their checks in order, a carry's steps at its expert's cluster, its return, and a core's parity error. -/
theorem carryRules : Obligations.CarryRules := ⟨carryResults, carryAndParityResults⟩

end Sys2Proof.Proofs
end

section
/-!
SUPPORT. Memory in its canonical form (assumption 1), as every result that holds a state keeps it: an outcome of X, an Option, an
Except, and an outcome of a step; and how the steps of a do-block hand it on.
-/

namespace Sys2Proof.Proofs

open Sys2Proof.Machine Sys2Proof.Laws

/-- Memory is in its canonical form (assumption 1). -/
def Canon (s : State) : Prop := Memory.wf s.mem = true

/-- What a state that a stop hands on must be. -/
def StopFine : Stop → Prop
  | .trapIn s _ _ _ => Canon s
  | .keep s => Canon s
  | _ => True

/-- An outcome that keeps P where it completes, and the canonical form where it stops in a changed state. -/
def Fine {α : Type} (P : α → Prop) : X α → Prop
  | .ok a => P a
  | .error st => StopFine st

/-- A result whose value, if there is one, has P. -/
def Given {α : Type} (P : α → Prop) (o : Option α) : Prop := ∀ a, o = some a → P a

def Yields {ε α : Type} (P : α → Prop) (x : Except ε α) : Prop := ∀ a, x = .ok a → P a

/-- The next state of an outcome, if it is one, has its memory in canonical form. -/
def Ends : Host.Outcome State Fault Refusal → Prop
  | .next t => Canon t
  | _ => True

variable {s t : State} {α β : Type} {P : α → Prop} {Q : β → Prop} {e : Env}

theorem Canon.of_mem (h : Canon s) (eq : t.mem = s.mem) : Canon t := by rw [Canon, eq]; exact h

theorem Canon.fst {r : State × β} {b : β} (h : Canon r.1) (eq : r = (s, b)) : Canon s := by subst eq; exact h

theorem Canon.foldl {β : Type} {f : State → β → State} {l : List β} (h : Canon s) (hf : ∀ s b, Canon s → Canon (f s b)) :
    Canon (l.foldl f s) := by
  induction l generalizing s with
  | nil => exact h
  | cons b r ih => exact ih (hf s b h)

theorem Canon.ite {c : Prop} [Decidable c] (h : Canon s) (h' : Canon t) : Canon (if c then s else t) := by
  split <;> assumption

theorem Canon.fstIte {c : Prop} [Decidable c] {r r' : State × β} (h : Canon r.1) (h' : Canon r'.1) : Canon (if c then r else r').1 := by
  split <;> assumption

theorem Canon.finished (h : Canon s) : Canon (done e s) := h

namespace Fine
theorem ok {a : α} (h : P a) : Fine P (.ok a : X α) := h
theorem pure {a : α} (h : P a) : Fine P (Pure.pure a : X α) := h
theorem bind {x : X α} {f : α → X β} (hx : Fine P x) (hf : ∀ a, P a → Fine Q (f a)) : Fine Q (x >>= f) := by
  cases x with
  | ok a => exact hf a hx
  | error st => exact hx
theorem keep (h : Canon s) : Fine P (.error (.keep s) : X α) := h
theorem trapIn {c : BitVec 8} {v pc : Word} (h : Canon s) : Fine P (.error (.trapIn s c v pc) : X α) := h
theorem trap {c : BitVec 8} {v : Word} : Fine P (.error (.trap c v) : X α) := trivial
theorem upcall {v : Word} : Fine P (.error (.upcall v) : X α) := trivial
theorem miss {v : Word} {k n : Nat} : Fine P (.error (.miss v k n) : X α) := trivial
theorem handler {v : Word} : Fine P (.error (.handler v) : X α) := trivial
theorem port {n : Nat} : Fine P (.error (.port n) : X α) := trivial
theorem cond : Fine P (.error .cond : X α) := trivial
theorem ite {c : Prop} [Decidable c] {x y : X α} (hx : Fine P x) (hy : Fine P y) : Fine P (if c then x else y) := by
  split <;> assumption
/-- Two ways to come to a value, and what follows either. -/
theorem either {c : Prop} [Decidable c] {x y : X α} {f : α → X β} (hx : Fine P x) (hy : Fine P y) (hf : ∀ a, P a → Fine Q (f a)) :
    Fine Q (if c then x >>= f else y >>= f) := .ite (.bind hx hf) (.bind hy hf)
theorem mono {P' : α → Prop} {x : X α} (hx : Fine P x) (h : ∀ a, P a → P' a) : Fine P' x := by
  cases x with
  | ok a => exact h a hx
  | error st => exact hx
end Fine

theorem Given.none : Given P (.none : Option α) := fun _ h => by cases h
theorem Given.some {a : α} (h : P a) : Given P (.some a) := fun _ e => by cases e; exact h
theorem Canon.getD {o : Option State} (ho : Given Canon o) (h : Canon s) : Canon (o.getD s) := by
  cases o with
  | none => exact h
  | some t => exact ho t rfl
theorem Given.bind {x : Option α} {f : α → Option β} (hx : Given P x) (hf : ∀ a, P a → Given Q (f a)) : Given Q (x >>= f) := by
  cases x with
  | none => exact .none
  | some a => exact hf a (hx a rfl)
theorem Yields.ok {ε : Type} {a : α} (h : P a) : Yields P (.ok a : Except ε α) := fun _ e => by cases e; exact h
theorem Yields.pure {ε : Type} {a : α} (h : P a) : Yields P (Pure.pure a : Except ε α) := fun _ e => by cases e; exact h
theorem Yields.error {ε : Type} {x : ε} : Yields P (.error x : Except ε α) := fun _ e => by cases e
theorem Yields.ite {ε : Type} {c : Prop} [Decidable c] {x y : Except ε α} (hx : Yields P x) (hy : Yields P y) :
    Yields P (if c then x else y) := by
  split <;> assumption
theorem Yields.bind {ε : Type} {x : Except ε α} {f : α → Except ε β} (hx : Yields P x) (hf : ∀ a, P a → Yields Q (f a)) :
    Yields Q (x >>= f) := by
  cases x with
  | ok a => exact hf a (hx a rfl)
  | error st => exact .error
theorem Given.seq {x : Option α} {f : α → Option β} (hf : ∀ a, Given Q (f a)) : Given Q (x >>= f) := by
  cases x with
  | none => exact .none
  | some a => exact hf a
theorem Yields.seq {ε : Type} {x : Except ε α} {f : α → Except ε β} (hf : ∀ a, Yields Q (f a)) : Yields Q (x >>= f) := by
  cases x with
  | ok a => exact hf a
  | error st => exact .error
theorem Fine.foldlM {f : α → β → X α} {a : α} (ha : P a) (hf : ∀ a b, P a → Fine P (f a b)) {l : List β} : Fine P (l.foldlM f a) := by
  induction l generalizing a with
  | nil => exact .pure ha
  | cons b r ih =>
    rw [List.foldlM_cons]
    exact .bind (hf a b ha) fun a h => ih h
theorem Fine.mapM {f : α → X β} (hf : ∀ a, Fine (fun _ => True) (f a)) (l : List α) : Fine (fun _ => True) (l.mapM f) := by
  induction l with
  | nil => exact .pure trivial
  | cons a r ih => 
    rw [List.mapM_cons]
    exact .bind (hf a) fun _ _ => .bind ih fun _ _ => .pure trivial
/-- A loop keeps what holds at its start and what each of its rounds keeps. -/
theorem Fine.forIn {σ : Type} {P : σ → Prop} {f : β → σ → X (ForInStep σ)} {b : σ} (hb : P b)
    (hf : ∀ a b, P b → Fine (fun r => P r.value) (f a b)) {l : List β} : Fine P (forIn l b f) := by
  induction l generalizing b with
  | nil => exact .pure hb
  | cons a r ih =>
    rw [List.forIn_cons]
    refine .bind (hf a b hb) fun step hs => ?_
    cases step with
    | done b => exact .pure hs
    | yield b => exact ih hs
theorem Yields.foldlM {ε : Type} {f : α → β → Except ε α} {a : α} (ha : P a) (hf : ∀ a b, P a → Yields P (f a b)) {l : List β} :
    Yields P (l.foldlM f a) := by
  induction l generalizing a with
  | nil => exact .pure ha
  | cons b r ih =>
    rw [List.foldlM_cons]
    exact .bind (hf a b ha) fun a h => ih h
theorem Given.map {x : Option α} {f : α → β} (hf : ∀ a, Q (f a)) : Given Q (x.map f) := by
  cases x with
  | none => exact .none
  | some a => exact .some (hf a)
theorem Given.onMap {x : Option α} {f : α → β} (hx : Given P x) (hf : ∀ a, P a → Q (f a)) : Given Q (x.map f) := by
  cases x with
  | none => exact .none
  | some a => exact .some (hf a (hx a rfl))
theorem Ends.next (h : Canon s) : Ends (.next s) := h

end Sys2Proof.Proofs
end

section
/-!
SUPPORT. Every operation on memory, the homes, the full/empty bits and the bead table keeps memory in its canonical form.
-/

namespace Sys2Proof.Proofs

open Sys2Proof.Machine Sys2Proof.Laws

variable {s t : State} {e : Env}

theorem Canon.countError {k : Nat} (h : Canon s) : Canon (countError s k) := by
  unfold Machine.countError
  split <;> exact h

theorem Canon.markRead {k n : Nat} (h : Canon s) : Canon (markRead s k n) := by
  unfold Machine.markRead
  refine .foldl h fun s _ h => ?_
  split
  · exact .countError h
  · exact h

theorem Canon.markStore {k n : Nat} (h : Canon s) : Canon (markStore s k n) := by
  unfold Machine.markStore
  dsimp only
  refine .foldl h fun s _ h => ?_
  split
  · exact h
  · split
    · exact .countError h
    · exact h

theorem Canon.rawStore {k n v : Nat} (h : Canon s) : Canon (rawStore s k n v) := by
  rw [Canon, rawStore_mem]
  exact memWrite_wf _ _ _ h

theorem Canon.beamOut {die w : Nat} {p : Packet} (h : Canon s) : Canon (beamOut s die w p) := by
  unfold Machine.beamOut
  dsimp only
  split <;> exact h

theorem Canon.refill {r net n : Nat} (h : Canon s) : Canon (refill s r net n) := h.of_mem (refill_trafficOnly s r net n).mem

theorem Canon.outPut {u net : Nat} {p : Packet} (h : Canon s) : Canon (outPut s u net p) := .refill h

theorem Canon.arrive {net : Nat} {p : Packet} (h : Canon s) : Canon (arrive s net p) := by
  unfold Machine.arrive
  split <;> exact h

theorem Canon.issueOne {p : Packet} (h : Canon s) : Canon (issueOne s p) := by
  unfold Machine.issueOne
  dsimp only
  split
  · exact .arrive h
  · split
    · exact .beamOut h
    · exact .outPut h

theorem Canon.inject {p : Packet} (h : Canon s) : Canon (inject s p) := h.of_mem (inject_trafficOnly s p).mem

theorem Canon.send {cls slack src dst : Nat} {b : Body} (h : Canon s) : Canon (send s cls slack src dst b) := h.of_mem (send_mem ..)

theorem Canon.answer {cls unit : Nat} {p : Packet} {b : Body} (h : Canon s) : Canon (answer s cls unit p b) := .inject h

theorem Canon.reply {cls unit : Nat} {p : Packet} {ret : Ret} {r : Res} (h : Canon s) : Canon (reply s cls unit p ret r) := by
  unfold Machine.reply
  split
  · exact h
  · exact .inject h

theorem Canon.regSet {t : Tid} {sl : Slot} {n : Nat} {v : Word} (h : Canon s) : Canon (regSet s t sl n v) := by
  unfold Machine.regSet
  split <;> exact h

theorem Canon.freeArea {a : Area} (h : Canon s) : Canon (freeArea s a) := by
  unfold Machine.freeArea
  split <;> exact h

theorem Canon.endCont {uid : Nat} (h : Canon s) : Canon (endCont s uid) := by
  unfold Machine.endCont
  dsimp only
  refine .of_mem ?_ rfl
  split
  · exact .foldl (.freeArea h) fun s _ h => .freeArea h
  · exact .foldl (.freeArea h) fun s _ h => .freeArea h

theorem Canon.sendEnqueue {unit uid : Nat} {src : RecSrc} (h : Canon s) :
    Canon (sendEnqueue s unit uid src) := h.of_mem (sendEnqueue_mem ..)

theorem Canon.releaseParks {k n : Nat} (h : Canon s) : Canon (releaseParks s k n) := by
  unfold Machine.releaseParks
  split
  · exact h
  · refine .foldl h fun s _ h => ?_
    split
    · split
      · exact .sendEnqueue h
      · exact h
    · exact h

theorem Canon.homeWrite {k n v : Nat} (h : Canon s) : Canon (homeWrite s k n v) := .releaseParks (.rawStore h)

theorem Canon.unpark {u : Nat} {p : Parked} (h : Canon s) : Canon (unpark s u p) := by
  unfold Machine.unpark
  split
  · exact .homeWrite h
  · exact h

theorem Canon.teardown {ctx status : Nat} (h : Canon s) : Canon (teardown s ctx status) := by
  unfold Machine.teardown
  extract_lets mine stopped s1 keep s2 s3 s4 s5 s6 s7 s8 s9
  have h1 : Canon s1 := .foldl (.foldl h fun s _ h => .ite h h) fun s u h => .foldl h fun s p h => .ite (.unpark h) h
  have h2 : Canon s2 := .foldl h1 fun _ _ h => h
  have h3 : Canon s3 := .foldl h2 fun s cl h => by
    dsimp only
    exact .ite h h
  have h4 : Canon s4 := .foldl h3 fun s cl h => .foldl h fun s tk h => by
    dsimp only
    split
    · split
      · exact .send h
      · exact h
    · exact h
  have h5 : Canon s5 := .foldl h4 fun s cl h => .foldl h fun s e h => by
    dsimp only
    exact .ite (.of_mem (.foldl h fun s w h => .ite (.inject h) h) rfl) h
  have h6 : Canon s6 := .foldl h5 fun s f h => .foldl h fun s q h => .ite h h
  have h7 : Canon s7 := .foldl h6 fun _ _ h => h
  have h8 : Canon s8 := .foldl h7 fun _ _ h => h
  clear_value s8
  exact h8

theorem Canon.lateAdd {t : Tid} {n : Nat} {va : Word} (h : Canon s) : Canon (lateAdd s t n va) := by
  unfold Machine.lateAdd
  split <;> exact h

theorem Canon.platCount {cl : Nat} {p : Packet} (h : Canon s) : Canon (platCount s cl p) := by
  unfold Machine.platCount
  split <;> exact h

theorem Canon.takeTrap {t : Tid} {cause : BitVec 8} {tval pc : Word} (h : Canon s) : Canon (takeTrap s t cause tval pc) := by
  unfold Machine.takeTrap
  dsimp only
  split
  · exact .teardown h
  · exact h

theorem Canon.takeUpcall {t : Tid} {va pc : Word} (h : Canon s) : Canon (takeUpcall s t va pc) := by
  unfold Machine.takeUpcall
  dsimp only
  split
  · exact .takeTrap h
  · exact h

theorem Canon.ringWrite {fn : Nat} {ws : List Word} (h : Canon s) : Canon (ringWrite s fn ws) := by
  unfold Machine.ringWrite
  dsimp only
  split
  · exact h
  · refine .of_mem (.foldl h fun s b h => ?_) rfl
    split
    · exact memPut_wf _ _ h
    · exact h

theorem Canon.diverge {unit addr cls src : Nat} (h : Canon s) : Canon (diverge s unit addr cls src) := .ringWrite h

theorem Canon.homeNote {unit cls src srcUnit addr : Nat} {urgent : Bool} (h : Canon s) : Canon
    (homeNote s unit cls src srcUnit addr urgent) := by
  unfold Machine.homeNote
  extract_lets fn f home seq s1 hit s2 s3
  have h1 : Canon s1 := .ite (.ringWrite h) h
  have h2 : Canon s2 := .ite (.ite h1 (.diverge h1)) h1
  have h3 : Canon s3 := by
    clear_value s2 hit
    cases hit with
    | some i => exact .ite h2 h2
    | none => exact h2
  exact .ite h h3

theorem Canon.arrivalNote {unit cls src addr : Nat} {urgent : Bool} (h : Canon s) : Canon (arrivalNote s unit cls src addr urgent) := by
  unfold Machine.arrivalNote
  dsimp only
  split
  · exact .diverge h
  · exact h

theorem Canon.lineNotesOf {cls src srcUnit : Nat} {ks : List Nat} {urgent : Bool} (h : Canon s) :
    Canon (lineNotesOf s cls src srcUnit ks urgent) := by
  unfold Machine.lineNotesOf
  refine .foldl h fun s _ h => ?_
  split
  · exact .homeNote h
  · exact h

theorem Canon.lineNotes {cls u : Nat} {ks : List Nat} (h : Canon s) : Canon (lineNotes s cls u ks) := .lineNotesOf h

theorem Canon.dequeNote {core src srcUnit : Nat} {urgent : Bool} (h : Canon s) : Canon (dequeNote s core src srcUnit urgent) := .homeNote h

theorem Canon.setFull {k n : Nat} {b : Bool} (h : Canon s) : Canon (setFull s k n b) := h

theorem Canon.homeWriteL {k : Nat} {l : List Byte} (h : Canon s) : Canon (homeWriteL s k l) := .homeWrite h

theorem Canon.storeAtHome {cells : List Host.Cell} (h : Canon s) : Canon (storeAtHome s cells) := .foldl h fun _ _ h => .homeWriteL h

theorem Canon.readLine {line mask : Nat} (h : Canon s) : Canon (readLine s line mask).1 := .foldl h fun _ _ h => .markRead h

theorem Canon.syncAct {op : SyncOp} (h : Canon s) : Canon (syncAct s op).1 := by
  unfold Machine.syncAct
  dsimp only
  split
  · split
    · split
      · exact .setFull h
      · exact h
    · exact .markRead h
  · split
    · exact .setFull h
    · exact .markRead h
  · exact .setFull (.homeWrite h)
  · exact .setFull (.homeWrite h)
  · split
    · exact h
    · exact .foldl h fun s _ h => .markRead h

theorem Canon.parkedReply {unit cls : Nat} {p : Parked} {ret : Ret} {r : Res} (h : Canon s) : Canon (parkedReply s unit cls p ret r) :=
  .inject h

theorem Canon.retestPass {unit : Nat} {l : List Parked} (h : Canon s) : Canon (retestPass s unit l).1 := by
  induction l generalizing s with
  | nil => exact h
  | cons p r ih =>
    unfold Machine.retestPass
    split
    · dsimp only
      split
      · exact ih (.parkedReply (.homeNote (.syncAct h)))
      · exact ih h
    · exact ih h

theorem Canon.retestGo {unit n : Nat} (h : Canon s) : Canon (retestGo unit n s) := by
  induction n generalizing s with
  | zero => exact h
  | succ n ih =>
    unfold Machine.retestGo
    dsimp only
    exact .ite (ih (.retestPass h)) (.retestPass h)

theorem Canon.retest {core : Nat} (h : Canon s) : Canon (retest s core) := .retestGo h

theorem Canon.setFullAt {k n : Nat} {b : Bool} (h : Canon s) : Canon (setFullAt s k n b) := .retest (.setFull h)

theorem Canon.engineWrite {k : Nat} {l : List Byte} (h : Canon s) : Canon (engineWrite s k l) := by
  unfold Machine.engineWrite
  split
  · exact .setFullAt (.homeWriteL h)
  · exact .homeWriteL h

theorem Canon.carried {k n : Nat} (h : Canon s) : Canon (carryMark s k n) := h

theorem Canon.putAtHome {cells : List Host.Cell} {marks : List Nat} (h : Canon s) : Canon (putAtHome s cells marks) :=
  .foldl (.storeAtHome h) fun _ _ h => h

theorem Canon.bdPut {key i : Nat} {w : Word} (h : Canon s) : Canon (bdPut s key i w) := .homeWrite h

theorem Canon.relink {unit key : Nat} {l : List (Nat × Waiter)} (h : Canon s) : Canon (relink s unit key l) :=
  .bdPut (.foldl h fun _ _ h => h)

theorem Canon.appendWaiter {unit key : Nat} {w : Waiter} (h : Canon s) : Canon (appendWaiter s unit key w) := by
  unfold Machine.appendWaiter
  dsimp only
  split
  · exact h
  · exact .relink h

theorem Canon.dropWaiter {unit key i : Nat} (h : Canon s) : Canon (dropWaiter s unit key i) := by
  unfold Machine.dropWaiter
  exact .relink h

theorem Canon.wfcFree {c : Word} (h : Canon s) : Canon (wfcFree s c) := by
  unfold Machine.wfcFree
  split <;> exact h

theorem Canon.sparkEnd {c : Word} {key : Nat} (h : Canon s) : Canon (sparkEnd s c key) := by
  unfold Machine.sparkEnd
  split
  · exact .wfcFree h
  · exact h

theorem Canon.wfcIdle {c h0 : Word} (h : Canon s) : Canon (wfcIdle s c h0) := by
  unfold Machine.wfcIdle
  split <;> exact h

theorem Canon.wakeOne {unit : Nat} {w : Waiter} {d : Deliv} (h : Canon s) : Canon (wakeOne s unit w d) := by
  unfold Machine.wakeOne
  refine .send ?_
  split
  · exact h
  · exact .wfcIdle h

theorem Canon.wakeAll {unit key : Nat} {d : Deliv} (h : Canon s) : Canon (wakeAll s unit key d) := .foldl (.bdPut h) fun _ _ h => .wakeOne h

theorem Canon.bdClaim {unit : Nat} {b : BeadRef} {c : Word} {demanded : Bool} (h : Canon s) : Canon (bdClaim s unit b c demanded) :=
  .bdPut (.bdPut h)

theorem Canon.tenqNotice {unit key : Nat} {st : RingSt} {flags : BitVec 6} (h : Canon s) : Canon (tenqNotice s unit key st flags) := by
  unfold Machine.tenqNotice
  dsimp only
  split
  · exact .send h
  · exact h

theorem Canon.leaveClaimed {unit key : Nat} {st : RingSt} {flags : BitVec 6} {keep : Bool} (h : Canon s) :
    Canon (leaveClaimed s unit key st flags keep) := by
  unfold Machine.leaveClaimed
  split <;> exact .sparkEnd (.tenqNotice h)

theorem Canon.bdFail {unit : Nat} {b : BeadRef} {cause : BitVec 8} (h : Canon s) : Canon (bdFail s unit b cause) := by
  unfold Machine.bdFail
  exact .wakeAll (.bdPut (.bdPut (.leaveClaimed h)))

theorem Canon.bdReply {unit : Nat} {p : Packet} {ret : Ret} {r : Res} (h : Canon s) : Canon (bdReply s unit p ret r) := .reply h

theorem Canon.sendEdge {unit : Nat} {a c : Word} {b : BeadRef} (h : Canon s) : Canon (sendEdge s unit a c b) := .send h

theorem Canon.bdForce {unit : Nat} {b : BeadRef} {f : Word} {w : Waiter} {out : State → Res → State} (h : Canon s)
    (hout : ∀ s y1, Canon s → Canon (out s y1)) :
    Canon (bdForce s unit b f w out) := by
  unfold Machine.bdForce
  dsimp only
  split
  · exact hout _ _ h
  · exact .appendWaiter (hout _ _ (.bdClaim h))
  · split
    · split
      · exact .bdFail (hout _ _ h)
      · exact hout _ _ h
    · exact .sendEdge (.appendWaiter (hout _ _ h))
  · exact hout _ _ h
  · exact hout _ _ h

theorem Canon.bdHwait {unit : Nat} {b : BeadRef} {w : Waiter} {out : State → Res → State} (h : Canon s)
    (hout : ∀ s y1, Canon s → Canon (out s y1)) :
    Canon (bdHwait s unit b w out) := by
  unfold Machine.bdHwait
  split
  · exact hout _ _ h
  · exact .appendWaiter (hout _ _ h)
  · exact .appendWaiter (hout _ _ h)
  · exact hout _ _ h
  · exact hout _ _ h

theorem Canon.bdSubmit {b : BeadRef} {ws : List Word} {sub : Machine.Sub} (h : Canon s) : Canon (bdSubmit s b ws sub) :=
  .foldl h fun _ _ h => .bdPut h

theorem Canon.bdBind {key : Nat} {v : Word} (h : Canon s) : Canon (bdBind s key v) := .bdPut (.bdPut (.bdPut h))

theorem Canon.bdFree {key : Nat} (h : Canon s) : Canon (bdFree s key) := .bdPut (.bdPut h)

theorem Canon.bdComplete {unit : Nat} {b : BeadRef} {v : Word} {poison : Bool} {flags : BitVec 6} (h : Canon s) :
    Canon (bdComplete s unit b v poison flags) := by
  unfold Machine.bdComplete
  split
  · exact h
  · exact .wakeAll (.bdPut (.bdPut (.bdPut (.leaveClaimed h))))

theorem Canon.bdOpFail {unit : Nat} {b : BeadRef} {cause : BitVec 8} {handle : Word} (h : Canon s) :
    Canon (bdOpFail s unit b cause handle) := by
  unfold Machine.bdOpFail
  extract_lets c s1 s2 s3 l s4
  have h4 : Canon s4 := .foldl (.bdPut (.bdPut (.leaveClaimed h))) fun s e h => .wakeOne (.dropWaiter h)
  refine .ite h ?_
  split
  · exact h4
  · exact .bdForce (.dropWaiter h4) fun s _ h => h

theorem Canon.bdPerform {unit : Nat} {p : Packet} {b : BeadRef} {op : BeadOp} {wl wcore : Nat} {cont : Word} {ret : Ret} (h : Canon s) :
    Canon (bdPerform s unit p b op wl wcore cont ret) := by
  unfold Machine.bdPerform
  dsimp only
  split
  · split
    · exact .bdReply h
    · exact h
  · split
    · exact .bdForce h (fun s _ h => .bdReply h)
    · exact .bdHwait h (fun s _ h => .bdReply h)
    · split
      · exact .bdReply h
      · refine .bdReply ?_
        split <;> exact h
    · split
      · exact .bdReply (.bdSubmit h)
      · exact .bdReply h
    · split
      · exact .bdReply (.bdClaim (.bdSubmit h))
      · exact .bdReply h
    · split
      · exact .bdReply (.bdBind h)
      · split
        · exact .wakeAll (.bdReply (.bdBind h))
        · exact .bdReply h
    · split
      · exact .bdReply h
      · split
        · exact .wakeAll (.bdReply (.bdFree h))
        · refine .bdReply ?_
          split
          · exact h
          · exact .bdFree h
    · exact .bdReply h
    · refine .bdReply ?_
      split
      · exact .bdClaim h
      · exact .sparkEnd h
    · exact .bdComplete h
    · exact .bdComplete h
    · split
      · exact .bdFail h
      · exact h
    · exact .bdOpFail h
    · split
      · exact .bdFail h
      · exact h

theorem Canon.flagged {t : Tid} {f : BitVec 6} (h : Canon s) : Canon (orFlags s t f) := h

theorem Canon.seeded {t : Tid} {x : BitVec 32} (h : Canon s) : Canon (setSeed s t x) := h

end Sys2Proof.Proofs
end

section
/-!
SUPPORT. Operands, addresses, accesses and scalar instructions keep memory in its canonical form.
-/

namespace Sys2Proof.Proofs

open Sys2Proof.Machine Sys2Proof.Laws

variable {s t : State} {e : Env}

theorem Canon.sendMiss {t : Tid} {va : Word} {kind slack : Nat} (h : Canon s) : Canon (sendMiss s t va kind slack) := by
  unfold Machine.sendMiss
  dsimp only
  split
  · exact h
  · split
    · exact .send h
    · exact h

theorem Given.askMiss {core ctx va need slack : Nat} (h : Canon s) : Given Canon (askMiss s core ctx va need slack) := by
  unfold Machine.askMiss
  dsimp only
  split
  · exact .some h
  · split
    · exact .some (.send h)
    · exact .none

theorem Canon.applyStop {st : Stop} (he : Canon e.s) (h : StopFine st) : Canon (applyStop e st) := by
  unfold Machine.applyStop
  split
  · exact .takeTrap he
  · exact .takeTrap h
  · exact .takeUpcall he
  · exact .sendMiss he
  · exact he
  · exact he
  · exact he
  · exact h

theorem Ends.thr {len : Word} {enc : BitVec 32} {body : Env → X State} (h : Canon s) (hbody : ∀ e, Canon e.s → Fine Canon (body e)) :
    Ends (thr len enc s body) := by
  unfold Machine.thr
  dsimp only
  split
  · trivial
  · split
    · exact h
    · have hb := hbody (envOf len enc s) h
      split
      next ok => rw [ok] at hb; exact hb
      next stop => rw [stop] at hb; exact .applyStop h hb

theorem Fine.trapX {P : α → Prop} {c : BitVec 8} {v : Word} : Fine P (trapX c v) := trivial

theorem Fine.illegal {P : α → Prop} : Fine P (illegal e) := trivial

theorem Fine.need {b : Bool} {c : BitVec 8} {v : Word} : Fine (fun _ => True) (need b c v) := by
  cases b <;> trivial

theorem Fine.await {b : Bool} : Fine (fun _ => True) (await b) := by
  unfold Machine.await
  split
  · exact .ok trivial
  · exact .cond

theorem Fine.chk {rd wr np vs : List Nat} : Fine (fun _ => True) (chk e rd wr np vs) := by
  unfold Machine.chk
  split
  · exact .illegal
  · split
    · exact .trapX
    · split
      · exact .cond
      · exact .ok trivial

theorem Canon.qSet {core q : Nat} {c : QCtl} (h : Canon s) : Canon (qSet s core q c) := h

theorem Canon.qPush {core q : Nat} {v : Word} {tag : Bool} (h : Canon s) : Canon (qPush s core q v tag) :=
  .retest (.setFull (.setFull (.qSet (.homeWrite h))))

theorem Canon.qPop {core q : Nat} (h : Canon s) : Canon (qPop s core q) := .setFullAt (.qSet h)

theorem Fine.readR {n : Nat} (h : Canon s) : Fine (fun r => Canon r.1) (readR e s n) := by
  unfold Machine.readR
  dsimp only
  split
  · split
    · split
      · exact .port
      · split
        · split
          · exact .handler
          · exact .ok (.qPop h)
        · split
          · exact .handler
          · exact .ok (.qPop h)
    · split
      · split
        · exact .ok h
        · exact .port
      · exact .illegal
  · exact .ok h

theorem Fine.pushLink {link : Nat} {v : Word} {tag : Bool} (h : Canon s) : Fine Canon (pushLink e s link v tag) := by
  unfold Machine.pushLink
  dsimp only
  split
  · exact .cond
  · split
    · split
      · exact .cond
      · exact .ok h
    · split
      · exact .cond
      · exact .ok h

theorem Fine.writeR {n : Nat} {v : Word} (h : Canon s) : Fine Canon (writeR e s n v) := by
  unfold Machine.writeR
  split
  · split
    · exact .pushLink h
    · split
      · exact .ok h
      · exact .illegal
  · exact .ok (.regSet h)

theorem Canon.vecSet {n v : Nat} (h : Canon s) : Canon (vecSet e s n v) := .foldl h fun _ _ h => .regSet h

theorem Fine.place {va : Word} {nd slack : Nat} : Fine (fun _ => True) (place e va nd slack) := by
  unfold Machine.place
  dsimp only
  split
  · exact .trapX
  · split
    · split
      · split
        · exact .ok trivial
        · exact .trapX
      · split
        · exact .ok trivial
        · split
          · exact .ok trivial
          · split
            · exact .ok trivial
            · exact .trapX
    · split
      · split
        · split
          · exact .trapX
          · split
            · exact .ok trivial
            · exact .trapX
        · split
          · split
            · exact .upcall
            · exact .trapX
          · exact .miss
      · split
        · split
          · exact .ok trivial
          · exact .trapX
        · exact .trapX

theorem Canon.takeTicket {t : Tid} {i : Nat} (h : Canon s) : Canon (takeTicket s t i).1 := h

theorem Fine.report {ring : Bool} {cover : Nat → TFault → Bool} (h : Canon s) : Fine (fun _ => True) (report e s ring cover) := by
  unfold Machine.report
  split
  · exact .ok trivial
  · exact .trapIn h

theorem Fine.reportAfterRing {cover : Nat → TFault → Bool} (he : Canon e.s) : Fine (fun _ => True) (reportAfterRing e cover) :=
  .bind .await fun _ _ => .report he

theorem Fine.ringGate (he : Canon e.s) : Fine (fun _ => True) (ringGate e) := by
  unfold Machine.ringGate
  split
  · exact .bind .await fun _ _ => .report he
  · exact .ok trivial

theorem Fine.takeRing {tile spark : Bool} (he : Canon e.s) (h : Canon s) : Fine (fun r => Canon r.1) (takeRing e s tile spark) := by
  unfold Machine.takeRing
  dsimp only
  refine .bind (.ringGate he) fun _ _ => ?_
  split
  · exact .cond
  · exact .ok h

theorem Fine.release : Fine (fun _ => True) (release e) := .await

theorem Fine.drain (he : Canon e.s) : Fine (fun _ => True) (drain e) :=
  .bind .await fun _ _ => .bind .await fun _ _ => .bind .await fun _ _ => .report he

theorem Fine.drainLate (he : Canon e.s) : Fine (fun _ => True) (drainLate e) := by
  unfold Machine.drainLate
  split
  · exact .ok trivial
  · exact .drain he

theorem Fine.suspendFirst {late : Bool} (he : Canon e.s) : Fine (fun _ => True) (suspendFirst e late) := by
  unfold Machine.suspendFirst
  dsimp only
  split
  · split
    · refine .bind (.drainLate he) fun _ _ => ?_
      split
      · exact .illegal
      · exact .pure trivial
    · split
      · exact .illegal
      · exact .pure trivial
  · exact .ok trivial

theorem Canon.freeBits {n : Nat} (h : Canon s) : Canon (freeBits s n).1 := h

theorem Canon.lateOfN {slack n : Nat} (h : Canon s) : Canon (lateOfN s slack n).1 := by
  unfold Machine.lateOfN
  split <;> exact h

theorem Fine.walkStop {P : α → Prop} {c : BitVec 8} {va : Word} : Fine P (walkStop c va) := by
  unfold Machine.walkStop
  split
  · trivial
  · exact .trapX

theorem Yields.storeWords {core : Option Nat} {ctx : Nat} {va : Word} {ws : List Word} (h : Canon s) :
    Yields Canon (storeWords s core ctx va ws) := by
  unfold Machine.storeWords
  split
  · exact .error
  · exact .seq fun _ => .pure (.foldl h fun s x h => .homeWrite h)

theorem Fine.wordKey {va : Word} {nd : Nat} : Fine (fun _ => True) (wordKey e va nd) := by
  unfold Machine.wordKey
  refine .bind .place fun _ _ => ?_
  split
  · exact .pure trivial
  · exact .trapX

theorem Fine.homeKey {va : Word} {nd : Nat} : Fine (fun _ => True) (homeKey e va nd) :=
  .bind .wordKey fun _ _ => .bind .need fun _ _ => .pure trivial

theorem Fine.keysX {va : Word} {nd cls n : Nat} : Fine (fun _ => True) (keysX e s va nd cls n) :=
  .bind .need fun _ _ => .bind (.mapM (fun _ => .wordKey) _) fun _ _ => .bind .await fun _ _ => .pure trivial

theorem Fine.storeX {va : Word} {ws : List Word} (h : Canon s) : Fine Canon (storeX e s va ws) :=
  .bind .keysX fun _ _ => .pure (.foldl (.lineNotesOf h) fun _ _ h => .homeWrite h)

theorem Fine.roomX : Fine (fun _ => True) (roomX e) := .need

theorem Fine.writeOut {pc0 : Word} (h : Canon s) : Fine Canon (writeOut e s pc0) := .bind (.storeX h) fun _ h => .storeX h

theorem Canon.noteCont {t : Tid} {sl : Slot} (h : Canon s) : Canon (noteCont s t sl) := by
  unfold Machine.noteCont
  split <;> exact h

theorem Canon.noteLeft {t : Tid} {sl : Slot} {addr : Word} (h : Canon s) : Canon (noteLeft s t sl addr) := by
  unfold Machine.noteLeft
  split
  · exact h
  · exact .noteCont h

theorem Canon.amoAt {fn k : Nat} {y x va : Word} (h : Canon s) : Canon (amoAt s fn k y x va).1 := by
  unfold Machine.amoAt
  dsimp only
  split
  · split
    · exact h
    · exact .setFullAt h
  · split
    · exact .homeWrite h
    · exact .markRead h
    · exact h

theorem Fine.localGate {cls k : Nat} : Fine (fun _ => True) (localGate e s cls k) := .await

theorem Canon.localNote {cls k : Nat} (h : Canon s) : Canon (localNote e s cls k) := .homeNote h

theorem Fine.sendWait {P : α → Prop} {acc : List Word} {dst : List Nat} {cls slack unit : Nat} {b : Body} (h : Canon s) :
    Fine P (.error (sendWait e s acc dst cls slack unit b)) := Canon.send h

theorem Fine.mapped {entry : Nat} {va : Word} : Fine (fun _ => True) (mapped e s entry va) := by
  unfold Machine.mapped
  split
  · split
    · exact .trapX
    · split
      · exact .cond
      · exact .ok trivial
  · exact .trapX

theorem Fine.readNow {p : Place} {n : Nat} {va : Word} (h : Canon s) : Fine (Given (fun r => Canon r.1)) (readNow e s p n va) := by
  unfold Machine.readNow
  split
  · exact .bind .mapped fun _ _ => .pure (.some h)
  · exact .bind .localGate fun _ _ => .pure (.some (.localNote h))
  · exact .bind .need fun _ _ => .bind .localGate fun _ _ => .pure (.some (.localNote h))
  · split
    · split
      · split
        · exact .pure (.some h)
        · exact .bind .localGate fun _ _ => .pure (.some (.localNote h))
      · exact .trapIn (.markRead h)
      · exact .trapX
    · exact .pure .none

theorem Fine.noReg {p : Place} {va : Word} : Fine (fun _ => True) (noReg p va) := by
  unfold Machine.noReg
  split
  · exact .trapX
  · exact .ok trivial

theorem Fine.phaseRead {acc : List Word} {dst : List Nat} {va : Word} {n slack : Nat} {ld : Bool} (h : Canon s) :
    Fine (fun r => Canon r.1) (phaseRead e s acc dst va n slack ld) := by
  unfold Machine.phaseRead
  split
  · exact .ok h
  · split
    · exact .ok h
    · exact .trapX
    · exact .cond
    · refine .bind .place fun p _ => ?_
      cases ld
      · refine .bind .noReg fun _ _ => .bind (.readNow h) fun o ho => ?_
        split
        · exact .pure (ho _ rfl)
        · split
          · exact .sendWait h
          · exact .cond
      · refine .bind (.readNow h) fun o ho => ?_
        split
        · exact .pure (ho _ rfl)
        · split
          · exact .sendWait h
          · exact .cond

theorem Canon.feStore {core off n : Nat} {v : Word} (h : Canon s) : Canon (feStore s core off n v) := .retest (.foldl h fun _ _ h => h)

theorem Fine.storeRoom : Fine (fun _ => True) (storeRoom e) := .await

theorem Fine.storeChk {p : Place} {n : Nat} {va : Word} : Fine (fun _ => True) (storeChk e s p n va) := by
  unfold Machine.storeChk
  split
  · exact .bind .mapped fun _ _ => .pure trivial
  · exact .need
  · exact .ok trivial

theorem Fine.storeAt {p : Place} {n : Nat} {va v : Word} {slack : Nat} (h : Canon s) : Fine Canon (storeAt e s p n va v slack) := by
  unfold Machine.storeAt
  split
  · refine .bind .mapped fun _ _ => .pure ?_
    split <;> exact h
  · exact .bind .localGate fun _ _ => .pure (.localNote h)
  · exact .bind .need fun _ _ => .bind .localGate fun _ _ => .pure (.feStore (.localNote h))
  · split
    · exact .bind .localGate fun _ _ => .pure (.homeWrite (.localNote h))
    · have h1 : Canon (takeTicket s e.t 4).1 := .takeTicket h
      split
      · exact .pure (.homeWrite h1)
      · exact .bind .storeRoom fun _ _ => .pure (.send h1)

theorem Fine.aligned {va : Word} {n : Nat} : Fine (fun _ => True) (aligned va n) := .need

theorem Fine.remapIdx {acc : List Word} {dst : List Nat} {mode : Nat} {x : Word} (h : Canon s) :
    Fine (fun r => Canon r.1) (remapIdx e s acc dst mode x) := by
  unfold Machine.remapIdx
  split
  · exact .pure h
  · exact .pure h
  · exact .pure h
  · exact .bind .need fun _ _ => .bind .need fun _ _ => .bind (.phaseRead h) fun ⟨s, x⟩ h => .pure h

theorem Ends.alu2 {len : Word} {enc : BitVec 32} {d a b : Nat} {f : Word → Word → Word} (h : Canon s) : Ends (alu2 len enc d a b s f) :=
  .thr h (fun _ h => .bind .chk fun _ _ => .bind (.readR h) fun ⟨_, _⟩ h => .bind (.readR h) fun ⟨_, _⟩ h => .bind (.writeR h) fun _ h =>
    .pure h)

theorem Ends.alu1 {len : Word} {enc : BitVec 32} {d a : Nat} {f : Word → Word} (h : Canon s) : Ends (alu1 len enc d a s f) :=
  .thr h (fun _ h => .bind .chk fun _ _ => .bind (.readR h) fun ⟨_, _⟩ h => .bind (.writeR h) fun _ h => .pure h)

theorem Ends.alu3 {len : Word} {enc : BitVec 32} {d a b : Nat} {f : Word → Word → Word → Word} (h : Canon s) :
    Ends (alu3 len enc d a b s f) :=
  .thr h (fun _ h => .bind .chk fun _ _ => .bind (.readR h) fun ⟨_, _⟩ h => .bind (.readR h) fun ⟨_, _⟩ h =>
    .bind (.readR h) fun ⟨_, _⟩ h => .bind (.writeR h) fun _ h => .pure h)

theorem Ends.alu0 {len : Word} {enc : BitVec 32} {d : Nat} {v : Word} (h : Canon s) : Ends (alu0 len enc d s v) :=
  .thr h (fun _ h => .bind .chk fun _ _ => .bind (.writeR h) fun _ h => .pure h)

theorem Ends.cmp2 {enc : BitVec 32} {k a b : Nat} {c : Word → Word → Bool} (h : Canon s) : Ends (cmp2 enc k a b s c) :=
  .thr h (fun _ h => .bind .chk fun _ _ => .bind (.readR h) fun ⟨_, _⟩ h => .bind (.readR h) fun ⟨_, _⟩ h => .pure h)

theorem Ends.cmp1 {enc : BitVec 32} {k a : Nat} {c : Word → Bool} (h : Canon s) : Ends (cmp1 enc k a s c) :=
  .thr h (fun _ h => .bind .chk fun _ _ => .bind (.readR h) fun ⟨_, _⟩ h => .pure h)

theorem Ends.kop {enc : BitVec 32} {d a b : Nat} {f : Word → Word → Word} (h : Canon s) : Ends (kop enc d a b s f) :=
  .thr h (fun _ h => .pure h)

theorem Ends.divOp {enc : BitVec 32} {d a b : Nat} {f : Word → Word → Word} (h : Canon s) : Ends (divOp enc d a b s f) :=
  .thr h (fun _ h => .bind .chk fun _ _ => .bind (.readR h) fun ⟨_, _⟩ h => .bind (.readR h) fun ⟨_, _⟩ h => .pure h)

end Sys2Proof.Proofs
end

section
/-!
SUPPORT. Loads, stores, atomics, messages and the life of threads keep memory in its canonical form.
-/

namespace Sys2Proof.Proofs

open Sys2Proof.Machine Sys2Proof.Laws

variable {s t : State} {e : Env}

theorem Fine.loadTo {t : Nat} {ea : Word} {n slack : Nat} {ext : Word → Word} {acc : List Word} (h : Canon s) :
    Fine Canon (loadTo e t ea n slack ext s acc) :=
  .bind .aligned fun _ _ => .bind (.phaseRead h) fun ⟨_, _⟩ h => .bind (.writeR h) fun _ h => .pure h

theorem Fine.storeFrom {t : Nat} {ea : Word} {n slack : Nat} {held : Option Word} (h : Canon s) :
    Fine Canon (storeFrom e t ea n slack s held) := by
  unfold Machine.storeFrom
  refine .bind .aligned fun _ _ => .bind .place fun _ _ => .bind .storeChk fun _ _ => ?_
  split
  · exact .bind (P := fun r => Canon r.1) (.pure h) fun ⟨s, x⟩ h => .bind (.storeAt h) fun s h => .pure h
  · exact .bind (.readR h) fun ⟨s, x⟩ h => .bind (.storeAt h) fun s h => .pure h

theorem Ends.ldOp {enc : BitVec 32} {t a z k : Nat} {off : Word} {signed : Bool} (h : Canon s) : Ends (ldOp enc t a z k off signed s) :=
  .thr h (fun _ h => .bind .chk fun _ _ => .loadTo h)

theorem Fine.indexed {dst : List Nat} {a x r z : Nat} {more : List Word} (he : Canon e.s) :
    Fine (fun r => Canon r.1) (indexed e dst a x r z more) := .bind (.remapIdx he) fun ⟨_, _, _⟩ h4 => .pure h4

theorem Ends.ldxOp {enc : BitVec 32} {t a x r z : Nat} {signed : Bool} (h : Canon s) : Ends (ldxOp enc t a x r z signed s) :=
  .thr h (fun _ h1 => .bind .chk fun _ _ => .bind (.indexed h1) fun ⟨_, _, _⟩ h5 => .loadTo h5)

theorem Fine.scrPlace {ea : Word} {slack : Nat} : Fine (fun _ => True) (scrPlace e ea slack) := by
  unfold Machine.scrPlace
  refine .bind .place fun _ _ => ?_
  split
  · split
    · exact .pure trivial
    · exact .trapX
  · exact .trapX

theorem Ends.ldsOp {enc : BitVec 32} {t a n sk kind : Nat} {off : Word} (h : Canon s) : Ends (ldsOp enc t a n sk kind off s) := by
  unfold Machine.ldsOp
  refine .thr h fun _ h => .bind .chk fun _ _ => ?_
  split
  · exact .bind (.writeR h) fun s h => .pure h
  · exact .trapX
  · exact .cond
  · exact .bind .aligned fun _ _ => .bind .scrPlace fun _ _ => .sendWait h

theorem Ends.stsOp {enc : BitVec 32} {t a n sk kind : Nat} {off : Word} (h : Canon s) : Ends (stsOp enc t a n sk kind off s) := by
  unfold Machine.stsOp
  dsimp only
  refine .thr h fun _ h => .bind .chk fun _ _ => ?_
  split
  · exact .trapX
  · exact .pure h
  · refine .bind .aligned fun _ _ => .bind .scrPlace fun _ _ => .bind .release fun _ _ => .bind (.readR h) fun ⟨s, x⟩ h => ?_
    split
    · exact .bind .storeRoom fun _ _ => .pure (.send h)
    · exact .sendWait h

theorem Ends.amoOp {enc : BitVec 32} {d a b fn : Nat} (h : Canon s) : Ends (amoOp enc d a b fn s) := by
  unfold Machine.amoOp
  refine .thr h fun e h => .bind .chk fun _ _ => ?_
  extract_lets ea n slack
  split
  · exact .bind (.writeR h) fun s h => .pure h
  · exact .trapX
  · exact .cond
  · refine .bind .aligned fun _ _ => .bind .place fun p _ => ?_
    split
    · refine .ite .trapX ?_
      extract_lets swap
      have hs r (h : Canon r.1) : Fine Canon (swap r) := by
        refine .either (P := fun r => Canon r.1) (.readR h) (.pure h) fun ⟨s, x⟩ h => .ite (.bind .localGate fun _ _ => ?_) (.sendWait h)
        dsimp only
        split
        · exact .bind (.writeR (.localNote (.amoAt h))) fun s h => .pure h
        · exact .trapIn (.amoAt h)
        · exact .cond
      clear_value swap
      exact .ite (hs _ h) (.bind (.readR h) hs)
    · exact .trapX

theorem Fine.linkChk {a : Nat} : Fine (fun _ => True) (linkChk e a) := by
  unfold Machine.linkChk
  split
  · exact .ok trivial
  · split
    · exact .cond
    · split
      · exact .illegal
      · exact .ok trivial

theorem Ends.sendOp {enc : BitVec 32} {d a b : Nat} {tag : Bool} (h : Canon s) : Ends (sendOp enc d a b tag s) := by
  unfold Machine.sendOp
  refine .thr h fun _ h => .bind .linkChk fun _ _ => .bind .chk fun _ _ => .bind .need fun _ _ => .bind .need fun _ _ => ?_
  split
  · split
    · exact .illegal
    · exact .bind (.readR h) fun ⟨s, x⟩ h => .bind (.pushLink h) fun s h => .bind (.writeR h) fun s h => .pure h
  · exact .bind .need fun _ _ => .bind .storeRoom fun _ _ => .bind (.readR h) fun ⟨s, x⟩ h => .bind (.writeR (.send h)) fun s h => .pure h

theorem Fine.ringLate (he : Canon e.s) : Fine (fun _ => True) (ringLate e) := by
  unfold Machine.ringLate
  split
  · exact .bind .await fun _ _ => .report he
  · exact .ok trivial

theorem Fine.opnd {i n : Nat} (h : Canon s) : Fine (fun r => Canon r.1) (opnd e s i n) := by
  unfold Machine.opnd
  split
  · exact .ok h
  · exact .readR h

theorem Fine.suspendChecks (he : Canon e.s) : Fine (fun _ => True) (suspendChecks e) := .bind (.suspendFirst he) fun _ _ => .roomX

theorem Canon.leave (h : Canon s) : Canon (leave e s) := .noteLeft h

theorem Canon.dropCarry {uid : Nat} {l : List Carry} (h : Canon s) : Canon (dropCarry s uid l) := .foldl h fun _ _ h => h

theorem Canon.endSlot {t : Tid} (h : Canon s) : Canon (endSlot s t) := by
  unfold Machine.endSlot
  dsimp only
  split
  · exact h
  · exact .dropCarry (.endCont h)

theorem Fine.syncBody {pc0 : Word} {go : State → X State} (he : Canon e.s) (hgo : ∀ s, Canon s → Fine Canon (go s)) :
    Fine Canon (syncBody e pc0 go) := by
  unfold Machine.syncBody
  split
  · exact hgo _ he
  · exact .pure (.leave he)
  · exact .trapIn he
  · exact .cond
  · refine .bind (.drainLate he) fun _ _ => ?_
    split
    · exact .bind (P := fun _ => True) .illegal fun _ _ => .bind .roomX fun _ _ => .bind (.drain he) fun _ _ => .bind .homeKey fun _ _ =>
        .bind (.writeOut he) fun s h => .sendWait (.noteLeft h)
    · exact .bind .roomX fun _ _ => .bind (.drain he) fun _ _ => .bind .homeKey fun _ _ => .bind (.writeOut he) fun s h =>
        .sendWait (.noteLeft h)

theorem Fine.exitLate (he : Canon e.s) : Fine (fun _ => True) (exitLate e) := by
  unfold Machine.exitLate
  split
  · exact .reportAfterRing he
  · exact .ok trivial

theorem Fine.exitChecks (he : Canon e.s) : Fine (fun _ => True) (exitChecks e) :=
  .bind .await fun _ _ => .bind (.report he) fun _ _ => .release

theorem Canon.sendInfl {cls slack unit op : Nat} {va : Word} {body : Ret → Body} (h : Canon s) :
    Canon (sendInfl e s cls slack unit op va body) := .send h

theorem Canon.dequePush {core : Nat} {urg : Bool} {d : DqEnt} (h : Canon s) : Canon (dequePush s core urg d) := by
  unfold Machine.dequePush
  dsimp only
  split
  · exact h
  · split
    · exact h
    · exact .storeAtHome h

theorem Canon.newCont {t : Tid} {sl : Slot} {i : Nat} (h : Canon s) : Canon (newCont s t sl i).1 := by
  unfold Machine.newCont
  dsimp only
  split <;> exact h

theorem Fine.loadNest {s0 : State} {a : Word} (h : Canon s0) : Fine (fun r => Canon r.1) (loadNest e s0 a) := by
  unfold Machine.loadNest
  refine .bind .aligned fun _ _ => .bind (P := fun r => Canon r.1) (.forIn (P := fun r : State × List Word => Canon r.1) h fun i r h =>
    ?_) fun r h1 => ?_
  · exact .bind (.phaseRead h) fun _ h2 => .pure h2
  · exact .bind .need fun _ _ => .pure h1

theorem Canon.lnextAt {k total minchunk parts : Nat} {va : Word} (h : Canon s) : Canon (lnextAt s k total minchunk parts va).1 := by
  unfold Machine.lnextAt
  split
  · exact .homeWrite h
  · exact .markRead h
  · exact h

theorem Canon.unpackNest {n : Nest} {c : Nat} (h : Canon s) : Canon (unpackNest e n c s) := .foldl h fun _ _ h => .regSet h

theorem Fine.nestClaim {d : Nat} {n : Nest} {l : List Word} (h : Canon s) : Fine Canon (nestClaim e d n s l) := by
  unfold Machine.nestClaim
  refine .bind (.writeR h) fun s h => .pure ?_
  refine .of_mem ?_ rfl
  split
  · exact h
  · exact .unpackNest h

end Sys2Proof.Proofs
end

section
/-!
SUPPORT. Coordinates, the host, notices and resets keep memory in its canonical form.
-/

namespace Sys2Proof.Proofs

open Sys2Proof.Machine Sys2Proof.Laws

variable {s t : State} {e : Env}

theorem Canon.elemAccess {op k fmt : Nat} {x va : Word} (h : Canon s) : Canon (elemAccess s op k fmt x va).1 := by
  unfold Machine.elemAccess
  dsimp only
  split
  · exact .homeWrite h
  · split
    · exact .homeWrite h
    · split
      · exact .markRead h
      · split
        · exact h
        · split
          · exact .homeWrite h
          · exact h

theorem Ends.coordOp {enc : BitVec 32} {op d a b : Nat} (h : Canon s) : Ends (coordOp enc op d a b s) := by
  unfold Machine.coordOp
  refine .thr h fun e h => .bind .chk fun _ _ => ?_
  split
  · exact .either (P := Canon) (.pure h) (.writeR h) fun s h => .pure h
  · exact .walkStop
  · exact .cond
  · refine .bind (.opnd h) fun ⟨s, g⟩ h => .bind (.opnd h) fun ⟨s, c⟩ h => .either (P := fun r =>
      Canon r.1) (.opnd h) (.pure h) fun ⟨s, x⟩ h => ?_
    dsimp -zeta only
    extract_lets ph g fn cl w ask
    have ha cl : Fine Canon (ask cl) := .sendWait h
    clear_value ask
    refine .bind .need fun _ _ => ?_
    split
    · split
      · exact .ite (ha _) (ha _)
      · exact ha _
    · refine .ite ?_ (ha _)
      split
      · exact ha _
      · dsimp only
        generalize (if op = 0 then 1 else 3) = need
        split
        · exact .walkStop
        · exact .keep (.send h)

theorem Fine.descRead {acc : List Word} {d : Nat} {g : Word} (h : Canon s) : Fine (fun r => Canon r.1) (descRead e s acc d g) :=
  .bind .need fun _ _ => .bind (.phaseRead h) fun ⟨_, _⟩ h => .bind (.phaseRead h) fun ⟨_, _⟩ h => .bind .need fun _ _ => .pure h

theorem Ends.linOp {enc : BitVec 32} {d a b : Nat} {f : List Word → Word → Option Word} (h : Canon s) : Ends (linOp enc d a b f s) := by
  unfold Machine.linOp
  dsimp only
  refine .thr h fun _ h => .bind .chk fun _ _ => .bind (.opnd h) fun ⟨s, x⟩ h => .bind (.opnd h) fun ⟨s, x⟩ h => ?_
  refine .bind (.descRead h) fun ⟨s, x⟩ h => ?_
  split
  · exact .trapX
  · exact .bind (.writeR h) fun s h => .pure h

theorem Canon.raise {fn vec : Nat} (h : Canon s) : Canon (raise s fn vec) := by
  unfold Machine.raise
  split
  · exact h
  · split <;> exact h

theorem Canon.raiseReg {fn : Nat} {r : Word} (h : Canon s) : Canon (raiseReg s fn r) := by
  unfold Machine.raiseReg
  split
  · exact h
  · exact .raise h

theorem Canon.hostWrite {a : Nat} {ws : List Word} (h : Canon s) : Canon (hostWrite s a ws) := .homeWriteL h

theorem Canon.advanceComp {fn q k : Nat} (h : Canon s) : Canon (advanceComp s fn q k) := by
  induction k generalizing s with
  | zero => exact h
  | succ k ih =>
    unfold Machine.advanceComp
    dsimp only
    split
    · split
      · refine ih ?_
        split
        · exact .raiseReg h
        · exact h
      · exact h
    · exact h

theorem Canon.completeEntry {fn q seq : Nat} (h : Canon s) : Canon (completeEntry s fn q seq) := by
  unfold Machine.completeEntry
  dsimp only
  split
  · exact h
  · split
    · exact h
    · split
      · exact h
      · split
        · exact h
        · refine .of_mem ?_ rfl
          refine .advanceComp ?_
          refine .of_mem ?_ rfl
          split
          · exact .hostWrite h
          · exact h

theorem Canon.scWrite {fn : Nat} {ws : List Word} (h : Canon s) : Canon (scWrite s fn ws) := .raiseReg (.hostWrite h)

theorem Canon.scDrain {fn n : Nat} (h : Canon s) : Canon (scDrain s fn n) := by
  induction n generalizing s with
  | zero => exact h
  | succ n ih =>
    unfold Machine.scDrain
    dsimp only
    split
    · exact h
    · split
      · exact ih (.scWrite h)
      · exact h

theorem Canon.scPost {fn : Nat} {t : Tid} {ws : List Word} (h : Canon s) : Canon (scPost s fn t ws) := .scDrain h

theorem Canon.scRecord {fn : Nat} {t : Tid} {seq a0 a1 : Word} (h : Canon s) : Canon (scRecord s fn t seq a0 a1) := by
  unfold Machine.scRecord
  split
  · exact .ringWrite (.ringWrite h)
  · exact h

theorem Canon.noticeTo {src : Nat} {n : Notice} {cl : Nat} (h : Canon s) : Canon (noticeTo src n s cl) := .send h

theorem Canon.postNotice {src : Nat} {n : Notice} {cls : List Nat} (h : Canon s) : Canon (postNotice s src n cls) := by
  unfold Machine.postNotice
  dsimp only
  split
  · exact .foldl h fun s _ h => .noticeTo h
  · exact .foldl (.foldl h fun s _ h => .noticeTo h) fun s _ h => h

theorem Canon.answerLost {p : Packet} (h : Canon s) : Canon (answerLost s p) := by
  unfold Machine.answerLost
  dsimp only
  split
  · exact h
  · exact h
  · split
    · refine .foldl ?_ fun s x h => ?_
      · split <;> exact h
      · split <;> exact h
    · split
      · split <;> exact h
      · exact h

theorem Canon.pickDriver (h : Canon s) : Canon (pickDriver s) := by
  unfold Machine.pickDriver
  split <;> exact h

theorem Canon.lostAt {dies : List Nat} {cls slack : Nat} {late : Option Nat} {src dst : Nat} {r : Ret} (h : Canon s) :
    Canon (lostAt s dies cls slack late src dst r) := by
  unfold Machine.lostAt
  split <;> exact h

theorem Canon.wakeLost {dies : List Nat} (h : Canon s) : Canon (wakeLost s dies) := by
  unfold Machine.wakeLost
  refine .foldl h fun s x h => ?_
  split <;> exact h

theorem Canon.filter (h : Canon s) {p : Host.Cell → Bool} (eq : t.mem = s.mem.filter p) : Canon t := by
  rw [Canon, memory_wf_iff] at h ⊢
  rw [eq]
  exact ⟨h.1.filter p, fun e he => h.2 e (List.mem_of_mem_filter he)⟩

theorem Canon.resetDies {dies : List Nat} {whole : Bool} (h : Canon s) : Canon (resetDies s dies whole) := by
  unfold Machine.resetDies
  extract_lets s1 on scr lost parked waits s2 s3 s4 s5 s6 s7
  have h1 : Canon s1 := .foldl h fun s c h => .teardown h
  have h2 : Canon s2 := .wakeLost h1
  have h3 : Canon s3 := .filter h2 rfl
  have h4 : Canon s4 := .foldl h3 fun _ _ h => h
  have h5 : Canon s5 := .foldl h4 fun s p h => .ite h (.answerLost h)
  have h6 : Canon s6 := .foldl h5 fun s e h => .lostAt h
  have h7 : Canon s7 := .foldl h6 fun s w h => .lostAt h
  exact .pickDriver (.foldl h7 fun _ _ h => h)

theorem Canon.dieReset {die : Nat} {whole : Bool} (h : Canon s) : Canon (dieReset s die whole) := .resetDies h

theorem Canon.discardEntries (h : Canon s) : Canon (discardEntries s) :=
  .foldl h fun _ _ h => .foldl h fun _ _ h => .foldl h fun _ _ h => .completeEntry h

theorem Canon.packageReset (h : Canon s) : Canon (packageReset s) := by
  unfold Machine.packageReset
  extract_lets s1 s2 pw s3
  have h1 : Canon s1 := .resetDies h
  have h2 : Canon s2 := .discardEntries (.foldl h1 fun s c h => .teardown h)
  clear_value s2
  exact .foldl (.of_mem h2 rfl) fun _ _ h => h

theorem Canon.dieBack {die : Nat} (h : Canon s) : Canon (dieBack s die) := .postNotice (.pickDriver h)

theorem Canon.dropConts {l : List Nat} (h : Canon s) : Canon (dropConts s l) := by
  unfold Machine.dropConts
  refine .foldl ?_ fun s _ h => .endCont h
  refine .foldl h fun s x h => .foldl h fun s _ h => ?_
  split
  · exact .unpark h
  · exact h

end Sys2Proof.Proofs
end

section
/-!
SUPPORT. Homes and agents keep memory in its canonical form.
-/

namespace Sys2Proof.Proofs

open Sys2Proof.Machine Sys2Proof.Laws

variable {s t : State} {e : Env}

theorem Given.takeArrived {unit net : Nat} {ok : Packet → Bool} (h : Canon s) : Given (fun r => Canon r.2) (takeArrived s unit net ok) := by
  unfold Machine.takeArrived
  dsimp only
  split
  · exact .none
  · split
    · exact .none
    · split
      · exact .none
      · exact .some h

theorem Given.takeOldest {unit net : Nat} {ok : Packet → Bool} (h : Canon s) : Given (fun r => Canon r.2) (takeOldest s unit net ok) := by
  unfold Machine.takeOldest
  dsimp only
  split
  · exact .none
  · split
    · exact .none
    · exact .some h

theorem Canon.enterHome {unit : Nat} {p : Packet} (h : Canon s) : Canon (enterHome s unit p) := by
  unfold Machine.enterHome
  dsimp only
  split
  · split
    · split <;> exact h
    · exact h
  · exact h

theorem Canon.noteOf {unit : Nat} {p : Packet} (h : Canon s) : Canon (noteOf s unit p) := .homeNote h

theorem Canon.loadAt {key n : Nat} {ret : Ret} (h : Canon s) : Canon (loadAt s key n ret).1 := by
  unfold Machine.loadAt
  split
  · exact .readLine h
  · split
    · exact h
    · exact .markRead h
    · exact h

theorem Canon.memPerform {unit : Nat} {p : Packet} (h : Canon s) : Canon (memPerform s unit p) := by
  unfold Machine.memPerform
  split
  · exact .reply (.loadAt (.noteOf h))
  · exact .reply (.storeAtHome (.noteOf h))
  · exact .reply (.putAtHome (.noteOf h))
  · exact .reply (.amoAt (.noteOf h))
  · exact .reply (.elemAccess (.noteOf h))
  · exact h

theorem Canon.syncPerform {unit : Nat} {p : Packet} {op : SyncOp} (h : Canon s) : Canon (syncPerform s unit p op) := by
  unfold Machine.syncPerform
  split
  · exact .reply (.syncAct (.noteOf h))
  · exact h

theorem Canon.withdrawPerform {unit : Nat} {p : Packet} {ret : Ret} (h : Canon s) : Canon (withdrawPerform s unit p ret) := by
  unfold Machine.withdrawPerform
  dsimp only
  split
  · exact .reply (.unpark (.noteOf h))
  · exact .noteOf h

theorem Canon.barPerform {unit : Nat} {p : Packet} {k n wl : Nat} {ret : Ret} (h : Canon s) : Canon (barPerform s unit p k n wl ret) := by
  unfold Machine.barPerform
  dsimp only
  split
  · exact .reply (.markRead (.noteOf h))
  · split
    · exact .reply (.markRead (.noteOf h))
    · split
      · split
        · refine .homeWrite ?_
          refine .reply ?_
          refine .foldl (.markRead (.noteOf h)) fun s _ h => ?_
          split
          · split
            · exact .parkedReply h
            · exact h
          · exact h
        · exact .homeWrite (.markRead (.noteOf h))
      · split
        · refine .homeWrite ?_
          refine .reply ?_
          refine .foldl (.markRead (.noteOf h)) fun s _ h => ?_
          split
          · split
            · exact .parkedReply h
            · exact h
          · exact h
        · exact .homeWrite (.markRead (.noteOf h))

theorem Canon.parkPerform {unit : Nat} {p : Packet} {k : Nat} {e : Word} {wl uid ctx : Nat} {recA pc : Word} {ret : Ret} (h : Canon s) :
    Canon (parkPerform s unit p k e wl uid ctx recA pc ret) := by
  unfold Machine.parkPerform
  dsimp only
  split <;> exact .reply (.markRead (.noteOf h))

theorem Canon.enqueueRec {unit ctx : Nat} {addr : Word} (h : Canon s) : Canon (enqueueRec s unit ctx addr) := by
  unfold Machine.enqueueRec
  split <;> exact .sendEnqueue h

theorem Canon.joinPerform {unit : Nat} {p : Packet} (h : Canon s) : Canon (joinPerform s unit p) := by
  unfold Machine.joinPerform
  dsimp only
  split
  · exact .reply (.homeWrite (.noteOf h))
  · split
    · exact .reply (.noteOf h)
    · exact .reply (.homeWrite (.noteOf h))
  · split
    · exact .enqueueRec (.homeWrite (.homeWrite (.noteOf h)))
    · exact .homeWrite (.noteOf h)
  · exact .noteOf h

theorem Canon.cellPerform {unit : Nat} {p : Packet} (h : Canon s) : Canon (cellPerform s unit p) := by
  unfold Machine.cellPerform
  extract_lets s1
  have h1 : Canon s1 := .noteOf h
  clear_value s1
  split
  · extract_lets s2
    have h2 : Canon s2 := .markRead h1
    clear_value s2
    split
    · exact .reply h2
    · split
      · exact .reply (.homeWrite h2)
      · exact .reply (.of_mem (.homeWrite (.homeWriteL h2)) rfl)
      · exact .reply h2
  · extract_lets s2
    have h2 : Canon s2 := .markRead h1
    clear_value s2
    split
    · exact .reply h2
    · split
      · exact .reply (.homeWrite (.homeWrite h2))
      next ws ws' s3 _ _ _ =>
        have h3 : Canon s3 := .homeWrite (.markRead h2)
        clear_value s3
        split
        · exact .reply h2
        · split
          next s4 u eq =>
            have h4 : Canon s4 := by
              split at eq
              all_goals
                rw [← (Prod.mk.inj eq).1]
                exact h3
            exact .sendEnqueue (.reply h4)
      · exact .reply (.homeWrite h2)
  · exact h1

theorem Canon.mprogPerform {unit : Nat} {p : Packet} {n : Nat} {w0 w1 : Word} {ret : Ret} (h : Canon s) :
    Canon (mprogPerform s unit p n w0 w1 ret) := .reply h

theorem Canon.perform {unit : Nat} {p : Packet} (h : Canon s) : Canon (perform s unit p) := by
  unfold Machine.perform
  split
  · exact .syncPerform h
  · exact .withdrawPerform h
  · exact .barPerform h
  · exact .parkPerform h
  · exact .reply (.lnextAt (.noteOf h))
  · exact .joinPerform h
  · exact .joinPerform h
  · exact .joinPerform h
  · exact .cellPerform h
  · exact .cellPerform h
  · exact .bdPerform (.noteOf h)
  · exact .mprogPerform (.noteOf h)
  · exact .memPerform h

theorem Canon.afterHome {unit : Nat} (h : Canon s) : Canon (afterHome s unit) := by
  unfold Machine.afterHome
  split
  · exact .retest h
  · exact h

theorem Canon.homeServe {unit kind : Nat} (h : Canon s) : Canon (homeServe s unit kind) := by
  unfold Machine.homeServe
  dsimp only
  split
  · exact h
  · split
    · exact h
    · split
      · exact h
      · split
        · exact h
        · exact .afterHome (.foldl h fun s _ h => .perform h)

theorem Yields.agWrite {ctx g : Nat} {va w : Word} (h : Canon s) : Yields Canon (agWrite s ctx g va w) := .seq fun _ => .pure (.homeWrite h)

theorem Yields.agWriteL {ctx g : Nat} {va : Word} {ws : List Word} (h : Canon s) : Yields Canon (agWriteL s ctx g va ws) :=
  .foldlM h fun _ _ h => .agWrite h

theorem Yields.fillFrame {ctx g : Nat} {w : List Word} {fr : Word} (h : Canon s) : Yields Canon (fillFrame s ctx g w fr) := by
  unfold Machine.fillFrame
  dsimp only
  split
  · exact .foldlM h fun s _ h => .agWrite h
  · exact .foldlM h fun s _ h => .seq fun _ => .pure (.homeWrite h)

theorem Yields.linkTables {ctx g T : Nat} {l : List Nat} {ea : Word} {fl : List Word} (h : Canon s) :
    Yields (fun r => Canon r.1) (linkTables s ctx g T l ea fl) := by
  induction l generalizing s ea fl with
  | nil => exact .ok h
  | cons sh r ih =>
    unfold Machine.linkTables
    split
    · exact .error
    · exact .bind (.agWriteL h) fun s h => .bind (.agWrite h) fun s h => ih h

theorem Yields.tileAlloc {ctx g : Nat} {w : List Word} {T : Nat} {es fl : List Word} {c : Word} (h : Canon s) :
    Yields (fun r => Canon r.1) (tileAlloc s ctx g w T es fl c) := by
  unfold Machine.tileAlloc
  dsimp only
  split
  · exact .error
  · refine .bind (.linkTables h) fun ⟨s3, x5, x4⟩ h6 => ?_
    split
    · exact .error
    · exact .bind (.fillFrame h6) fun s13 h14 => .bind (.agWrite h14) fun s15 h16 => .pure h16

theorem Yields.nodePut {ctx g : Nat} {n : EstNode} (h : Canon s) : Yields Canon (nodePut s ctx g n) := .agWriteL h

theorem Yields.innerSplit {ctx g : Nat} {n : EstNode} {j : Nat} {up : Nat × Word} {fl : List Word} (h : Canon s) :
    Yields (fun r => Canon r.1) (innerSplit s ctx g n j up fl) := by
  unfold Machine.innerSplit
  dsimp only
  split
  · exact .bind (.nodePut h) fun s h => .pure h
  · split
    · exact .error
    · exact .bind (.nodePut h) fun s h => .bind (.nodePut h) fun s h => .pure h

theorem Yields.splitUp {ctx g : Nat} {l : List (EstNode × Nat)} {up : Split} {fl : List Word} (h : Canon s) :
    Yields (fun r => Canon r.1) (splitUp ctx g l s up fl) := by
  induction l generalizing s up fl with
  | nil => exact .ok h
  | cons p r ih =>
    unfold Machine.splitUp
    split
    · exact .ok h
    · exact .bind (.innerSplit h) fun r h => ih h

theorem Yields.estInsert {ctx g : Nat} {w : List Word} {sh L : Nat} {v : Word} {path : List (EstNode × Nat)} {lf : EstNode}
    {fl : List Word} {c : Word} (h : Canon s) :
    Yields (fun r => Canon r.1) (estInsert s ctx g w sh L v path lf fl c) := by
  unfold Machine.estInsert
  extract_lets cap nd root levels i keys vals old
  clear_value nd root levels old
  split
  · exact .error
  · split
    · exact .bind (.nodePut h) fun s h => .pure h
    · split
      · exact .error
      · refine .bind (.nodePut h) fun s h => .bind (.nodePut h) fun s h => .bind (.splitUp h) fun ⟨s, up, fl⟩ h => ?_
        dsimp only
        split
        · exact .pure h
        · exact .error
        · exact .bind (.nodePut h) fun s h => .bind (.agWrite h) fun s h => .pure h

theorem Yields.estDelete {ctx g : Nat} {w : List Word} {sh i : Nat} {path : List (EstNode × Nat)} {lf : EstNode} {fl : List Word} (h :
    Canon s) :
    Yields (fun r => Canon r.1) (estDelete s ctx g w sh i path lf fl) := by
  unfold Machine.estDelete
  dsimp only
  split
  · exact .bind (.nodePut h) fun s h => .pure h
  · split
    · exact .bind (.nodePut h) fun s h => .pure h
    · refine .seq fun _ => .seq fun _ => .bind (P := Canon) ?_ fun s h => ?_
      · refine .seq fun _ => ?_
        split
        · exact .nodePut h
        · exact .pure h
      split
      · exact .bind (.nodePut h) fun s h => .pure h
      · split
        · exact .bind (.nodePut h) fun s h => .pure h
        · exact .bind (.agWrite h) fun s h => .pure h

theorem Canon.descPut {ctx g i : Nat} {v : Word} (h : Canon s) : Canon (descPut s ctx g i v) := by
  unfold Machine.descPut
  split
  · exact .homeWrite h
  · exact h

theorem Canon.shareCore {cl ctx g core : Nat} (h : Canon s) : Canon (shareCore s cl ctx g core) := by
  unfold Machine.shareCore
  dsimp only
  split
  · split
    · exact h
    · exact .descPut h
  · split
    · exact h
    · exact .descPut h

theorem Canon.shootDone {cl : Nat} {h0 : Shoot} (h : Canon s) : Canon (shootDone s cl h0) := by
  unfold Machine.shootDone
  dsimp only
  split
  · split <;> exact h
  · refine .inject ?_
    split <;> exact h

theorem Canon.startShoot {cl ctx g : Nat} {tile : Option Nat} {cores : List Nat} {h0 : Shoot} (h : Canon s) :
    Canon (startShoot s cl ctx g tile cores h0) := by
  unfold Machine.startShoot
  dsimp only
  split
  · exact .shootDone h
  · exact .foldl h fun s _ h => .send h

theorem Canon.shootAck {cl gen : Nat} {clb : Bool} {p : Packet} (h : Canon s) : Canon (shootAck s cl gen clb p) := by
  unfold Machine.shootAck
  split
  · exact h
  · split
    · split
      · exact .shootDone h
      · split <;> exact h
    · exact h

theorem Yields.tsvOp {cl ctx g op : Nat} {w : List Word} {c x : Word} {core : Nat} {p : Packet} {ret : Ret} (h : Canon s) :
    Yields (fun r => Canon r.1) (tsvOp s cl ctx g op w c x core p ret) := by
  unfold Machine.tsvOp
  extract_lets l T perform
  have hp u : Yields (fun r => Canon r.1) (perform u) := by
    unfold perform
    split
    · exact .seq fun _ => .pure h
    · refine .seq fun ⟨fr, es⟩ => .ite (.ite (.pure h) (.bind (.agWrite h) fun s h => .pure (.startShoot h))) ?_
      split
      · exact .pure h
      · refine .bind (P := fun r => Canon r.1) (.ite (.bind (.tileAlloc h) fun _ h => .pure h) (.pure h)) fun ⟨s, fr⟩ h => ?_
        have hs : Canon (shareCore s cl ctx g core) := .shareCore h
        exact .ite (.pure hs) (.ite (.pure hs) (.seq fun _ => .pure (.elemAccess hs)))
  clear_value perform
  split
  · exact .seq hp
  · exact hp ()

theorem Yields.estOp {cl ctx g op : Nat} {w : List Word} {c x : Word} (h : Canon s) :
    Yields (fun r => Canon r.1) (estOp s cl ctx g op w c x) := by
  unfold Machine.estOp
  extract_lets L sh fl fmt m perform
  have hp u : Yields (fun r => Canon r.1) (perform u) := by
    refine .seq fun ⟨path, lf⟩ => ?_
    dsimp -zeta only
    extract_lets i old drop v out
    have hd i : Yields Canon (drop i) := .bind (.estDelete h) fun _ h => .pure h
    clear_value drop out v old i
    refine .ite (.pure h) (.ite (.pure h) ?_)
    split
    · split
      · exact .bind (hd _) fun _ h => .pure h
      · exact .pure h
    · split
      · exact .ite (.bind (hd _) fun _ h => .pure h) (.bind (.nodePut h) fun _ h => .pure h)
      · exact .ite (.pure h) (.bind (.estInsert h) fun _ h => .pure h)
  clear_value perform
  split
  · exact .seq hp
  · exact hp ()

theorem Canon.passNext {cl g sh : Nat} {p : Packet} {b : Body} (h : Canon s) : Canon (passNext s cl g sh p b) := .inject h

theorem Canon.agentOp {cl : Nat} {p : Packet} {op ctx g : Nat} {c x : Word} {core : Nat} {ret : Ret} (h : Canon s) :
    Canon (agentOp s cl p op ctx g c x core ret) := by
  unfold Machine.agentOp
  extract_lets out w fin
  have hout (s : State) (r : Res) (h : Canon s) : Canon (out s r) := .reply h
  have hfin (r : AX (State × Option Res)) (hr : Yields (fun r => Canon r.1) r) : Canon (fin r) := by
    rcases r with ⟨c, v⟩ | ⟨s, _ | r⟩
    · exact hout _ _ h
    · exact hr _ rfl
    · exact hout _ _ (hr _ rfl)
  clear_value out fin
  split
  · exact hout _ _ h
  · split
    · exact hout _ _ h
    next a _ =>
      extract_lets s1
      have h1 : Canon s1 := .homeNote h
      clear_value s1
      split
      · exact hfin _ (.tsvOp h1)
      · split
        · exact hout _ _ h1
        · split
          · split
            · exact hout _ _ h1
            · split
              · exact hout _ _ h1
              · exact hout _ _ h1
              · split
                · exact hout _ _ h1
                · exact .passNext h1
          · exact hfin _ (.bind (.estOp h1) fun r h => .pure h)

theorem Given.agentNext {cl : Nat} (h : Canon s) : Given (fun r => Canon r.2) (agentNext s cl) := by
  unfold Machine.agentNext
  split
  · exact .none
  · exact .takeArrived h

theorem Yields.rgBuild {ctx g : Nat} {w : List Word} (h : Canon s) : Yields Canon (rgBuild s ctx g w) := by
  unfold Machine.rgBuild
  split
  · exact .agWriteL h
  · exact .bind (.agWriteL h) fun s h => .foldlM h fun s _ h => .bind (.agWriteL h) fun s h => .agWrite h

theorem Canon.rgInstall {cl ctx g : Nat} {w : List Word} {built : Bool} (h : Canon s) : Canon (rgInstall s cl ctx g w built) := by
  unfold Machine.rgInstall
  split <;> exact h

theorem Yields.cinvOp {cl ctx g : Nat} {p : Packet} {ret : Ret} (h : Canon s) : Yields Canon (cinvOp s cl ctx g p ret) := by
  unfold Machine.cinvOp
  extract_lets fn old held
  refine .seq fun w => ?_
  extract_lets built w1 w2 install check
  have hi r : Yields Canon (install r) := by
    refine .bind (P := fun r => Canon r.1) ?_ fun ⟨s1, w⟩ h1 => ?_
    · split
      · exact .bind (.rgBuild h) fun s h => .pure (.descPut h)
      · exact .pure h
    · have told {l : List Nat} {f : State → Nat → State} (hf : ∀ s a, Canon s → Canon (f s a)) :
          Canon (l.foldl f (rgInstall s1 cl ctx g w built)) := .foldl (.rgInstall h1) hf
      dsimp only
      split
      · exact .pure (.startShoot (told fun s a h => .send h))
      · split
        · exact .pure (.shootDone (told fun s a h => .send h))
        · exact .pure (told fun s a h => .send h)
  have hc r : Yields Canon (check r) := by
    unfold check
    split
    · exact .seq hi
    · exact hi ()
  split
  · exact .seq hc
  · exact .seq hc

end Sys2Proof.Proofs
end

section
/-!
SUPPORT. Bead instructions, carries, engine commands, power and the host queues keep memory in its canonical form.
-/

namespace Sys2Proof.Proofs

open Sys2Proof.Machine Sys2Proof.Laws

variable {s t : State} {e : Env}

theorem Fine.beadAt {h0 : Word} : Fine (fun _ => True) (beadAt e h0) := by
  unfold Machine.beadAt
  refine .bind .aligned fun _ _ => .bind .place fun _ _ => ?_
  split
  · split
    · exact .trapX
    · exact .pure trivial
  · exact .trapX

theorem Canon.newChain (h : Canon s) : Canon (newChain e s).1 := h

theorem Fine.beadWait {α : Type} {P : α → Prop} {acc : List Word} {dst : List Nat} {b : BeadRef} {op : BeadOp} (h : Canon s) :
    Fine P (.error (beadWait e s acc dst b op)) := .sendWait h

theorem Fine.takeOutcome {d : Nat} {a : Deliv} (he : Canon e.s) : Fine Canon (takeOutcome e d a) := by
  unfold Machine.takeOutcome
  split
  · refine .bind (.writeR he) fun s h => ?_
    split
    · exact .trapIn h
    · exact .pure h
  · exact .trapX
  · exact .trapIn he

theorem Ends.demandOp {enc : BitVec 32} {d a : Nat} {hw : Bool} (h : Canon s) : Ends (demandOp enc d a hw s) := by
  unfold Machine.demandOp
  refine .thr h fun e he => .bind (.suspendFirst he) fun _ _ => .bind .chk fun _ _ => ?_
  generalize e.sl.deliv = o
  cases o with
  | some => exact .takeOutcome he
  | none =>
    dsimp only
    generalize e.sl.res = r
    cases r with
    | none =>
      refine .bind (.opnd he) fun ⟨s, g⟩ h => .bind .beadAt fun b _ => .bind .roomX fun _ _ => ?_
      have h1 : Canon (newChain e s).1 := .newChain h
      cases hw
      · exact .bind (.drain he) fun _ _ => .beadWait h1
      · exact .beadWait h
    | some r =>
      cases r with
      | value v p f => exact .takeOutcome he
      | fault c v => exact .trapX
      | waits =>
        cases hw
        · exact .bind (.writeOut he) fun s h => .pure (.leave h)
        · exact .bind (.drain he) fun _ _ => .bind (.writeOut he) fun s h => .pure (.leave h)
      | ok | words | withdrawn | coord => exact .cond

theorem Fine.phaseRead64 {acc : List Word} {va : Word} {slack : Nat} (h : Canon s) :
    Fine (fun r => Canon r.1) (phaseRead64 e s acc va slack) := by
  unfold Machine.phaseRead64
  split
  · exact .ok h
  · split
    · exact .ok h
    · exact .trapX
    · exact .cond
    · refine .bind .place fun _ _ => ?_
      split
      · split
        · split
          · split
            · exact .pure h
            · exact .bind .localGate fun _ _ => .pure (.localNote h)
          · exact .trapIn (.markRead h)
          · exact .trapX
        · exact .sendWait h
      · exact .trapX

theorem Fine.faultIn {α : Type} {P : α → Prop} {x : X α} (h : Canon s) (hx : Fine P x) : Fine P (faultIn e s x) := by
  unfold Machine.faultIn
  split
  · exact .trapIn h
  · exact .keep (.takeUpcall h)
  · exact hx

theorem Fine.submitted {d : Nat} {acc : List Word} {f : Csrs → Csrs} (h : Canon s) : Fine Canon (submitted e s d acc f) :=
  .bind (.writeR h) fun _ h => .pure h

theorem Fine.collapse {d : Nat} {r acc : List Word} {foot : Word} {n i : Nat} (h : Canon s) :
    Fine Canon (collapse e s d r acc foot n i) := by
  induction n generalizing i with
  | zero => exact .submitted h
  | succ n ih =>
    unfold Machine.collapse
    dsimp only
    split
    · exact ih
    · have h1 : Canon (newChain e s).1 := .newChain h
      exact .bind (.faultIn h .beadAt) fun b _ => .beadWait h1

theorem Fine.collapseNext {d : Nat} {r acc : List Word} {foot : Word} {i : Nat} {f : BitVec 6} (h : Canon s) :
    Fine Canon (collapseNext e s d r acc foot i f) := .collapse (e := { e with s := orFlags s e.t f }) (.of_mem h rfl)

theorem Ends.submitOp {enc : BitVec 32} {d a : Nat} {tenq : Bool} (h : Canon s) : Ends (submitOp enc d a tenq s) := by
  unfold Machine.submitOp
  refine .thr h fun e he => ?_
  extract_lets x rc r acc n foot s2 i main
  have h2 : Canon s2 := .ite he (.of_mem he rfl)
  have hm (u) : Fine Canon (main u) := by
    refine .bind .chk fun _ _ => .bind (.opnd he) fun ⟨s1, a⟩ h1 => ?_
    clear_value s2 i
    dsimp only
    split
    · refine .bind .aligned fun _ _ => .bind (.phaseRead64 h1) fun ⟨s3, a⟩ h3 => .bind .beadAt fun b _ => .bind .need fun _ _ => 
        .bind (P := fun _ => True) ?_ fun cg _ => .bind .need fun _ _ => .bind .release fun _ _ =>
          .bind (.takeRing he h3) fun ⟨s4, n⟩ h4 => ?_
      · refine .bind .place fun p _ => ?_
        split
        · exact .pure trivial
        · exact .pure trivial
        · exact .trapX
      · have h5 : Canon (newChain e (setSeed s4 e.t x)).1 := .newChain (.of_mem h4 rfl)
        cases tenq
        · exact .beadWait (.of_mem h4 rfl)
        · exact .beadWait h5
    · generalize e.sl.res = o
      split
      · split
        · split
          · exact .submitted h2
          · split
            · exact .collapse (e := { e with s := s2 }) h2
            · exact .submitted h2
        · exact .trapIn (.of_mem he rfl)
        · exact .cond
      · generalize e.sl.deliv = v
        cases v with
        | some v =>
          cases v with
          | value => exact .collapseNext he
          | fail => exact .trapX
          | failAt => exact .trapIn he
        | none =>
          cases o with
          | none => exact .cond
          | some o =>
            cases o with
            | value => exact .collapseNext he
            | fault => exact .trapX
            | waits => exact .keep (.of_mem he rfl)
            | ok | words | withdrawn | coord => exact .cond
  split
  · exact .bind (.ringGate he) fun _ _ => hm ()
  · exact hm ()

theorem Fine.beadOnce {P : State → Prop} {h : Word} {dst : List Nat} {op : BeadOp} {fin : List Word → X State} (hs : Canon s)
    (hfin : ∀ l, Fine P (fin l)) : Fine P (beadOnce e s h dst op fin) := by
  unfold Machine.beadOnce
  split
  · exact hfin _
  · exact hfin _
  · exact .trapX
  · exact .cond
  · exact .bind .beadAt fun b _ => .beadWait hs

theorem Fine.cdRead {acc : List Word} {a : Word} (h : Canon s) : Fine (fun r => Canon r.1) (cdRead e s acc a) :=
  .bind .aligned fun _ _ => .bind (.phaseRead64 h) fun ⟨_, _⟩ h => .bind .need fun _ _ => .pure h

theorem Canon.rowRead {k n : Nat} (h : Canon s) : Canon (rowRead s k n).1 := .markRead h

theorem Canon.rowGather {ks : List Nat} (h : Canon s) : Canon (rowGather s ks).1 := .foldl h fun _ _ h => .markRead h

theorem Canon.engCmd {kind tl : Nat} {recA dst : Word} {p : Nat} (h : Canon s) : Canon (engCmd e s kind tl recA dst p).1 := by
  unfold Machine.engCmd
  dsimp only
  split <;> exact h

theorem Fine.copyCmd {kind : Nat} {d : BitVec 7} {recA dst : Word} {p : Nat} (h : Canon s) :
    Fine Canon (copyCmd e s kind d recA dst p) := by
  unfold Machine.copyCmd
  dsimp only
  exact .bind .await fun _ _ => .bind (.writeR (.engCmd h)) fun s h => .pure h

theorem Fine.rankCmd {kind : Nat} {d : BitVec 7} {recA : Word} (h : Canon s) : Fine Canon (rankCmd e s kind d recA) := by
  unfold Machine.rankCmd
  dsimp only
  exact .bind .await fun _ _ => .bind (.writeR (.send (.engCmd h))) fun s h => .pure h

theorem Fine.rqWord {w : Word} : Fine (fun _ => True) (rqWord e w) := .bind .need fun _ _ => .bind .need fun _ _ => .pure trivial

theorem Fine.rqReply {d : BitVec 7} {a : Res} (he : Canon e.s) : Fine Canon (rqReply e d a) := by
  unfold Machine.rqReply
  split
  · exact .bind (.writeR he) fun s h => .pure h
  · exact .trapX
  · exact .cond

theorem Fine.rqSend {α : Type} {P : α → Prop} {acc : List Word} {d : BitVec 7} {cl op entry : Nat} {ws : List Word} {blk : Nat}
    {kind : Bool} {va : Word}
    (h : Canon s) : Fine P (rqSend e s acc d cl op entry ws blk kind va : X α) := .sendWait h

theorem Canon.i3cAnswer {l : List Byte} (h : Canon s) : Canon (i3cAnswer s l) := by
  unfold Machine.i3cAnswer
  split <;> exact h

theorem Canon.i3cDo {f : State → State} (h : Canon s) (hf : ∀ s, Canon s → Canon (f s)) : Canon (i3cDo s f) := by
  unfold Machine.i3cDo
  split
  · exact .i3cAnswer (hf _ h)
  · exact h

theorem Canon.thermalStop (h : Canon s) : Canon (thermalStop s) := .foldl h fun _ _ h => h

theorem Canon.sensorRead {cl temp : Nat} (h : Canon s) : Canon (sensorRead s cl temp) := by
  unfold Machine.sensorRead
  dsimp only
  split
  · split
    · exact h
    · exact .thermalStop h
  · split <;> exact h

theorem Canon.mgmtEnd {status : Nat} {resp : List Word} (h : Canon s) : Canon (mgmtEnd s status resp) := .raise h

theorem Canon.msixFlush {fn vec : Nat} (h : Canon s) : Canon (msixFlush s fn vec) := by
  unfold Machine.msixFlush
  dsimp only
  split <;> exact h

theorem Canon.msixWrite {fn o bytes : Nat} {v : Word} (h : Canon s) : Canon (msixWrite s fn o bytes v) := by
  unfold Machine.msixWrite
  dsimp only
  split
  · exact .msixFlush h
  · exact h

theorem Canon.ctlWrite {fn off : Nat} {v : Word} (h : Canon s) : Canon (ctlWrite s fn off v) := by
  unfold Machine.ctlWrite
  dsimp only
  split
  · split <;> exact h
  · split
    · exact h
    · split
      · exact h
      · split
        · exact h
        · split
          · split
            · exact h
            · split
              · exact h
              · exact .mgmtEnd h
          · exact h

theorem Canon.tryAdmit {fn q retry : Nat} {err : Bool} (h : Canon s) : Canon (tryAdmit s fn q retry err) := by
  unfold Machine.tryAdmit
  dsimp only
  split
  · exact h
  · split <;> exact h

theorem Canon.sysDeliver {t : Tid} {a0 a1 : Word} (h : Canon s) : Canon (sysDeliver s t a0 a1) := .regSet (.regSet (.scRecord h))

theorem Canon.sysAnswer {fn : Nat} {t : Tid} {seq a0 a1 : Word} (h : Canon s) : Canon (sysAnswer s fn t seq a0 a1) := by
  unfold Machine.sysAnswer
  split
  · split
    · exact h
    · exact .sysDeliver h
  · exact h

theorem Canon.forwardTo {f : Fwd} {slack : Nat} {late : Option Nat} {b : Body} (h : Canon s) : Canon (forwardTo s f slack late b) :=
  .inject h

theorem Canon.spreadRoots {fn : Nat} {e : EntryRef} {ctx n : Nat} {pc arg desc : Word} {prio : BitVec 2} (h : Canon s) :
    Canon (spreadRoots s fn e ctx n pc arg desc prio) := by
  unfold Machine.spreadRoots
  refine .foldl h fun s x h => ?_
  split <;> exact h

theorem Yields.startNest {ctx : Nat} {a desc : Word} (h : Canon s) : Yields (fun r => Canon r.1) (startNest s ctx a desc) := by
  unfold Machine.startNest
  dsimp only
  split
  · exact .error
  · split
    · split
      next x s eq =>
        have h : Canon _ := (.storeWords h : Yields _ _) _ eq
        exact .ok h
      · exact .error
    · exact .error

theorem Canon.startRun {ref : EntryRef} {ctx : Nat} {ws : List Word} {im : Image} (h : Canon s) : Canon (startRun s ref ctx ws im) := by
  unfold Machine.startRun
  extract_lets fn prio begun nest chain
  have hb (s : State) (n : Nat) (h : Canon s) : Canon (begun s n) := h
  clear_value begun
  refine .ite h (.ite h (.ite h ?_))
  split
  · split
    · exact h
    next cs _ =>
      split
      · exact h
      next l _ =>
        split
        · exact h
        next s1 eq =>
          have h1 : Canon s1 := by
            split at eq
            · rw [Except.map.eq_def] at eq
              split at eq
              · cases eq
              next r eq' =>
                rw [← Except.ok.inj eq]
                exact Yields.startNest h _ eq'
            · rw [← Except.ok.inj eq]
              exact h
          exact .ite h1 (.foldl (hb _ _ h1) fun s x h => h)
  · split
    · exact h
    · split
      · exact h
      next s1 n eq =>
        have h1 : Canon s1 := by
          split at eq
          · exact Yields.startNest h _ eq
          · rw [← (Prod.mk.inj (Except.ok.inj eq)).1]
            exact h
        exact .spreadRoots (hb _ _ h1)

theorem Given.writeBytes {ctx : Nat} {va : Word} {need : Nat} {l : List Byte} (h : Canon s) : Given Canon (writeBytes s ctx va need l) :=
  .map fun _ => .storeAtHome h

theorem Canon.loadSections {ctx : Nat} {im : List Byte} {l : List Section} (h : Canon s) : Canon (loadSections s ctx im l).1 := by
  induction l generalizing s with
  | nil => exact h
  | cons x r ih =>
    unfold Machine.loadSections
    split
    · split
      next s' eq => exact ih (Given.writeBytes h _ eq)
      · exact h
    · exact ih h

theorem Canon.loadImage {ctx handle : Nat} {va : Word} (h : Canon s) : Canon (loadImage s ctx handle va).1 := by
  unfold Machine.loadImage
  dsimp only
  split
  · exact h
  · split
    · exact h
    · split
      · exact h
      · split
        · exact h
        · split
          · exact h
          · split
            · exact h
            · split
              · exact h
              · split
                · exact h
                · split
                  · exact .loadSections h
                  · split
                    · exact .loadSections h
                    next x s eq =>
                      have h : Canon _ := (.writeBytes (.loadSections h) : Given _ _) _ eq
                      exact h

end Sys2Proof.Proofs
end

section
/-!
SUPPORT. The copy engine, the fetch and the tile scheduler keep memory in its canonical form.
-/

namespace Sys2Proof.Proofs

open Sys2Proof.Machine Sys2Proof.Laws

variable {s t : State} {e : Env}

theorem Canon.freshUid {k : Machine.Cont} (h : Canon s) : Canon (freshUid s k).1 := h

theorem Canon.openSlot {t : Tid} {uid base : Nat} {f : Slot → Slot} (h : Canon s) : Canon (openSlot s t uid base f) :=
  .foldl h fun _ _ h => h

theorem Canon.egPut {full : Bool} {l : List (Nat × EgWrite)} (h : Canon s) : Canon (egPut full s l) := by
  unfold Machine.egPut
  refine .foldl ?_ fun s x h => ?_
  · refine .foldl (.foldl h fun s x h => .foldl h fun s x h => .markRead h) fun s x h => ?_
    split
    · exact .engineWrite h
    · exact .homeWriteL h
  · split <;> exact h

theorem Canon.egChoose {x : Xl} {l : List (EX EgWrite)} (h : Canon s) : Canon (egChoose s x l).1 := by
  unfold Machine.egChoose
  dsimp only
  split
  · exact h
  · refine .freeBits ?_
    split
    · exact .markRead h
    · exact h

theorem Canon.planDo {x : Xl} {p : EX (List (EX EgWrite))} (h : Canon s) : Canon (planDo s x p).1 := by
  unfold Machine.planDo
  split
  · split
    · exact .markRead h
    · exact h
  · exact .egChoose h

theorem Canon.cmdLate {c : EngCmd} {u : Nat} {ls : List Nat × List Nat} (h : Canon s) : Canon (cmdLate s c u ls).1 := .lateOfN h

theorem Given.runPlan {cls u : Nat} {x : Xl} {c : EngCmd} {rs : List Nat} {p : EX (List (EX EgWrite))} (h : Canon s) :
    Given (fun r => Canon r.1.1) (runPlan s cls u x c rs p) := by
  unfold Machine.runPlan
  dsimp only
  split
  · exact .some (.cmdLate (.lineNotesOf (.egPut (.planDo h))))
  · exact .none

theorem Canon.cmdEnd {c : EngCmd} {cause : Option (BitVec 8)} {late : Nat} (h : Canon s) : Canon (cmdEnd s c cause late) := by
  unfold Machine.cmdEnd
  dsimp only
  split
  · split
    · exact h
    · exact .lateAdd h
  · split
    · exact h
    · exact .lateAdd h

theorem Canon.cmdMiss {core idx : Nat} {c : EngCmd} {va need : Nat} (h : Canon s) : Canon (cmdMiss s core idx c va need) := by
  unfold Machine.cmdMiss
  split
  · exact h
  · split
    next x s eq =>
      have h : Canon _ := (.askMiss h : Given _ _) _ eq
      exact h
    · exact h

theorem Canon.holdHalf {core k : Nat} (h : Canon s) : Canon (holdHalf s core k) := .foldl h fun _ _ h => h

theorem Canon.hitBreak {t : Tid} (h : Canon s) : Canon (hitBreak s t) := by
  unfold Machine.hitBreak
  split
  · exact h
  · exact .takeTrap h

theorem Canon.afterStep {t : Tid} (h : Canon s) : Canon (afterStep t s) := by
  unfold Machine.afterStep
  split <;> exact h

theorem Canon.nextTurn (h : Canon s) : Canon (nextTurn s).1 := by
  unfold Machine.nextTurn
  split <;> exact h

theorem Canon.tellBead {cl : Nat} {b : BeadRef} {op : BeadOp} {cont : Word} {ret : Ret} (h : Canon s) :
    Canon (tellBead s cl b op cont ret) := by
  unfold Machine.tellBead
  split
  · exact .send h
  · exact h

theorem Canon.endTask {cl : Nat} {tk : Machine.Task} {op : BeadOp} (h : Canon s) : Canon (endTask s cl tk op) := .tellBead h

theorem Canon.forceNext {cl key n i : Nat} (h : Canon s) : Canon (forceNext s cl key n i) := by
  induction n generalizing s i with
  | zero => exact h
  | succ n ih =>
    unfold Machine.forceNext
    split
    · exact h
    · dsimp only
      split
      · exact ih h
      · split
        · exact .endTask h
        · split
          · exact .tellBead h
          · exact .endTask h

theorem Canon.operandGot {cl key : Nat} {d : Deliv} (h : Canon s) : Canon (operandGot s cl key d) := by
  unfold Machine.operandGot
  split
  · exact h
  · split
    · exact .forceNext h
    · exact .endTask h
    · exact .endTask h
    · exact h

theorem Canon.markKeys {ks : List Nat} (h : Canon s) : Canon (markKeys s ks) := .foldl h fun _ _ h => .markRead h

theorem Canon.stageAt {cl base : Nat} {l : List (Byte × Bool)} (h : Canon s) : Canon (stageAt s cl base l).1 := by
  unfold Machine.stageAt
  generalize scrKey (svcCore cl) base = k
  exact .foldl (.engineWrite h) fun _ _ h => .carried h

theorem Canon.platAdd {cl n : Nat} (h : Canon s) : Canon (platAdd s cl n) := by
  unfold Machine.platAdd
  split <;> exact h

theorem Yields.destPut {tk : Machine.Task} {va : Word} {l : List Byte} {poison : Bool} (h : Canon s) :
    Yields Canon (destPut s tk va l poison) := by
  unfold Machine.destPut
  refine .seq fun x => .pure ?_
  split <;> exact .homeWriteL h

theorem Yields.destAll {tk : Machine.Task} {f : Nat} {l : List Nat} {code : Nat → Nat} {poison : Bool} (h : Canon s) :
    Yields Canon (destAll s tk f l code poison) := by
  unfold Machine.destAll
  refine .bind (.foldlM h fun s x h => .destPut h) fun s h => ?_
  split
  · exact .pure h
  · refine .foldlM h fun s _ h => .seq fun x => .pure ?_
    split <;> exact .homeWriteL h

theorem Canon.destSome {tk : Machine.Task} {f : Nat} {l : List (Option Nat)} {poison : Bool} (h : Canon s) :
    Canon (destSome s tk f l poison) := by
  unfold Machine.destSome
  refine .foldl (.freeBits h) fun s x h => ?_
  split
  · split
    next x s eq =>
      have h : Canon _ := (.destPut h : Yields _ _) _ eq
      exact h
    · exact h
  · exact h

theorem Canon.tkReads {tk : Machine.Task} (h : Canon s) : Canon (tkReads s tk).1 := .markKeys h

theorem Canon.taskFault {cl : Nat} {tk : Machine.Task} {engine : Nat} {cause : BitVec 8} (h : Canon s) :
    Canon (taskFault s cl tk engine cause) := by
  unfold Machine.taskFault
  split
  · exact h
  · exact .endTask h

theorem Canon.taskMiss {cl engine : Nat} {tk : Machine.Task} {va need : Nat} (h : Canon s) : Canon (taskMiss s cl engine tk va need) := by
  unfold Machine.taskMiss
  split
  · exact h
  · split
    next x s eq =>
      have h : Canon _ := (.askMiss h : Given _ _) _ eq
      exact h
    · exact h

theorem Canon.rerunRoot {cl u : Nat} {k : Machine.Cont} (h : Canon s) : Canon (rerunRoot s cl u k) := by
  unfold Machine.rerunRoot
  split <;> exact .endCont h

theorem Canon.redispatch {core : Nat} (h : Canon s) : Canon (redispatch s core) := by
  unfold Machine.redispatch
  split
  · split
    · exact .taskFault h
    · exact h
  · exact h

end Sys2Proof.Proofs
end

section
/-!
SUPPORT. Float and vector instructions keep memory in its canonical form.
-/

namespace Sys2Proof.Proofs

open Sys2Proof.Machine Sys2Proof.Laws

variable {s t : State} {e : Env}

theorem Fine.putFR {d : Nat} {r : FR} (h : Canon s) : Fine Canon (putFR e s d r) := .bind (.writeR h) fun _ h => .pure h

theorem Ends.fop2 {len : Word} {enc : BitVec 32} {d a b : Nat} {fm : Fmt} {f : Bool → XV → XV → XV} (h : Canon s) :
    Ends (fop2 len enc d a b s fm f) :=
  .thr h (fun _ h => .bind .chk fun _ _ => .bind (.readR h) fun ⟨_, _⟩ h => .bind (.readR h) fun ⟨_, _⟩ h => .putFR h)

theorem Ends.fiter2 {enc : BitVec 32} {d a b : Nat} {fm : Fmt} {f : XV → XV → XV} (h : Canon s) : Ends (fiter2 enc d a b s fm f) :=
  .thr h (fun _ h => .bind .chk fun _ _ => .bind (.readR h) fun ⟨_, _⟩ h => .bind (.readR h) fun ⟨_, _⟩ h => .pure h)

theorem Ends.fiter1 {enc : BitVec 32} {d a : Nat} {fm : Fmt} {f : XV → XV} (h : Canon s) : Ends (fiter1 enc d a s fm f) :=
  .thr h (fun _ h => .bind .chk fun _ _ => .bind (.readR h) fun ⟨_, _⟩ h => .pure h)

theorem Ends.fmaOp {enc : BitVec 32} {d a b : Nat} {fm : Fmt} (h : Canon s) : Ends (fmaOp enc d a b s fm) :=
  .thr h (fun _ h => .bind .chk fun _ _ => .bind (.readR h) fun ⟨_, _⟩ h => .bind (.readR h) fun ⟨_, _⟩ h =>
    .bind (.readR h) fun ⟨_, _⟩ h => .putFR h)

theorem Ends.fsel2 {enc : BitVec 32} {d a b : Nat} {fm : Fmt} {f : Fmt → Nat → Nat → Nat} (h : Canon s) : Ends (fsel2 enc d a b s fm f) :=
  .alu2 h

theorem Ends.fsel1 {enc : BitVec 32} {d a : Nat} {fm : Fmt} {f : Fmt → Nat → Nat} (h : Canon s) : Ends (fsel1 enc d a s fm f) := .alu1 h

theorem Ends.fcmp {enc : BitVec 32} {k a b code p : Nat} (h : Canon s) : Ends (fcmp enc k a b s code p) := by
  unfold Machine.fcmp
  exact .cmp2 h

theorem Ends.cvtWide {enc : BitVec 32} {d a : Nat} {src dst : Fmt} (h : Canon s) : Ends (cvtWide enc d a s src dst) := .alu1 h

theorem Ends.cvtRound {enc : BitVec 32} {d a : Nat} {dst : Fmt} {val : Word → XV} (h : Canon s) : Ends (cvtRound enc d a s dst val) :=
  .thr h (fun _ h => .bind .chk fun _ _ => .bind (.readR h) fun ⟨_, _⟩ h => .putFR h)

theorem Ends.cvtInt {enc : BitVec 32} {d a : Nat} {src : Fmt} {w : Nat} (h : Canon s) : Ends (cvtInt enc d a s src w) :=
  .thr h (fun _ h => .bind .chk fun _ _ => .bind (.readR h) fun ⟨_, _⟩ h => .bind (.writeR h) fun _ h => .pure h)

theorem Ends.vthr {len : Word} {enc : BitVec 32} {vs : List Nat} {body : Env → State → State} (h : Canon s)
    (hbody : ∀ y0 s, Canon s → Canon (body y0 s)) :
    Ends (vthr len enc vs s body) :=
  .thr h (fun _ h => .bind (.ringGate h) fun _ _ => .bind .chk fun _ _ => .bind (.takeRing h h) fun ⟨_, _⟩ h => .pure (hbody _ _ h))

theorem Ends.vint {len : Word} {enc : BitVec 32} {vs : List Nat} {d a b k : Nat} {z : Bool} {lt : Nat} {f : LaneFn} (h : Canon s) :
    Ends (vint len enc vs d a b k z lt s f) :=
  .vthr h fun _ _ h => .flagged (.vecSet h)

theorem Canon.putLanes {d w n k : Nat} {z : Bool} {r : List Nat × BitVec 6 × BitVec 32} (h : Canon s) : Canon (putLanes e s d w n k z r) :=
  .seeded (.flagged (.vecSet h))

theorem Ends.vflt {len : Word} {enc : BitVec 32} {vs : List Nat} {d a b k : Nat} {z : Bool} {lt : Nat} {f : FLaneFn} (h : Canon s) :
    Ends (vflt len enc vs d a b k z lt s f) := .vthr h (fun _ _ h => .putLanes h)

theorem Ends.vdefer {enc : BitVec 32} {vs : List Nat} {d a b k : Nat} {z : Bool} {lt : Nat} {f : FLaneFn} (h : Canon s) :
    Ends (vdefer enc vs d a b k z lt s f) :=
  .thr h (fun _ h => .bind (.ringGate h) fun _ _ => .bind .chk fun _ _ => .bind (.takeRing h h) fun ⟨_, _⟩ h => .pure h)

theorem Ends.vcmp {enc : BitVec 32} {p a b k : Nat} {z : Bool} {lt : Nat} {c : Nat → Nat → Nat → Bool} (h : Canon s) :
    Ends (vcmp enc p a b k z lt s c) := .vthr h (fun _ _ h => h)

theorem Ends.vmove {len : Word} {enc : BitVec 32} {vs : List Nat} {d a b k : Nat} {z : Bool} {lt : Nat}
    {f : (Nat → Nat) → (Nat → Nat) → (Nat → Nat) → Nat → Nat → Nat} (h : Canon s) :
    Ends (vmove len enc vs d a b k z lt s f) := .vthr h (fun _ _ h => .vecSet h)

theorem Ends.vred {enc : BitVec 32} {d a k : Nat} {z : Bool} {lt : Nat} {unit : Nat → Nat} {f : Nat → Nat → Nat → Nat} (h : Canon s) :
    Ends (vred enc d a k z lt s unit f) := .vthr h (fun _ _ h => .vecSet h)

theorem Ends.vcvt {enc : BitVec 32} {d a seg k : Nat} {z : Bool} {n sw dw : Nat} {f : CvtFn} (h : Canon s) :
    Ends (vcvt enc d a seg k z n sw dw s f) :=
  .vthr h fun _ _ h => .seeded (.flagged (.vecSet h))

theorem Ends.vxg {enc : BitVec 32} {v a b : Nat} {f : Word → Word → Nat → Nat} (h : Canon s) : Ends (vxg enc v a b s f) := by
  unfold Machine.vxg
  refine .thr h fun e h => .bind (.ringGate h) fun _ _ => .bind .chk fun _ _ => .bind (.takeRing h h) fun ⟨s, n⟩ h => ?_
  refine .bind (.readR h) fun ⟨s, x⟩ h => .bind (.readR h) fun ⟨s, c⟩ h => .pure ?_
  have h1 : Canon (Machine.vecSet e (setRing s e.t n .done) v (f x c (vecGet e s v))) := .vecSet (s := setRing s e.t n .done) h
  generalize Machine.vecSet _ _ _ _ = s1 at h1 ⊢
  exact h1

theorem Fine.pageKnown {va : Word} {slack : Nat} : Fine (fun _ => True) (pageKnown e va slack) := by
  unfold Machine.pageKnown
  split
  · exact .ok trivial
  · split
    · exact .ok trivial
    · split
      · exact .ok trivial
      · exact .miss

theorem Fine.laneCheck {mode lt slack : Nat} {ld : Bool} {page : Option TlbEnt} {va : Word} :
    Fine (fun _ => True) (laneCheck e mode lt slack ld page va) := by
  unfold Machine.laneCheck
  split
  · exact .bind .pageKnown fun _ _ => .need
  · exact .bind (P := fun _ => True) (.pure trivial) fun _ _ => .need

theorem Fine.vplan {mode a b k lt slack : Nat} {ld : Bool} : Fine (fun _ => True) (vplan e mode a b k lt slack ld) := by
  unfold Machine.vplan
  extract_lets base act lanes
  have hl page : Fine (fun _ => True) (lanes page) := by
    refine .bind (.mapM (fun _ => .laneCheck) _) fun _ _ => .mapM (fun x => .bind .place fun p _ => ?_) _
    split
    · exact .pure trivial
    · exact .trapX
  split
  · exact .pure trivial
  · split
    · exact .bind .pageKnown fun page _ => hl page
    · exact hl none

theorem Canon.vopEnd {t : Tid} {op : Nat} (h : Canon s) : Canon (vopEnd s t op) := by
  unfold Machine.vopEnd
  dsimp only
  split
  · exact h
  next v _ =>
    split
    · exact h
    · cases v.isLd
      · rw [if_neg Bool.false_ne_true]
        split <;> exact h
      · rw [if_pos rfl]
        obtain ⟨ls, f, c⟩ := deliverLanes v v.plan v.seed
        dsimp only
        generalize eq : Machine.vecSet _ (setSlot s t _) _ _ = s1
        have h1 : Canon s1 := eq ▸ .vecSet (s := setSlot s t _) h
        split <;> exact h1

theorem Canon.vsend {op : Nat} {ld : Bool} {dup line mask slack : Nat} {va : Word} {cells : List Host.Cell} (h : Canon s) :
    Canon (vsend e s op ld dup line mask slack va cells) := .send h

theorem Fine.loadLine {op slack : Nat} {x : LineAcc} (h : Canon s) : Fine Canon (loadLine e op slack s x) := by
  unfold Machine.loadLine
  dsimp only
  split
  · split
    · exact .bind .localGate fun _ _ => .pure (.localNote (.readLine h))
    · exact .pure (.readLine h)
  · exact .pure (.vsend h)

theorem Canon.storeGo {op slack : Nat} {l : List (Nat × Nat × Word × List Host.Cell)} (h : Canon s) : Canon (storeGo e op slack l s).1 := by
  induction l generalizing s with
  | nil => exact h
  | cons x r ih =>
    unfold Machine.storeGo
    dsimp only
    split
    · exact h
    · split
      · split
        · exact ih (.storeAtHome (.localNote h))
        · exact h
      · split
        · exact ih (.storeAtHome h)
        · split
          · exact ih (.vsend h)
          · exact h

theorem Fine.storeOn {op slack : Nat} (h : Canon s) : Fine Canon (storeOn e op slack s) := by
  unfold Machine.storeOn
  dsimp only
  split
  · exact .pure h
  · split
    · split
      · exact .pure (.vopEnd h)
      · exact .keep h
    · split
      · exact .pure (.vopEnd (.storeGo h))
      · exact .keep (.storeGo h)

theorem Ends.vloadOp {enc : BitVec 32} {mode v a b k lt sk : Nat} (h : Canon s) : Ends (vloadOp enc mode v a b k lt sk s) := by
  unfold Machine.vloadOp
  refine .thr h fun e h => .bind (.ringGate h) fun _ _ => .bind .chk fun _ _ => ?_
  refine .bind .vplan fun plan _ => .bind (.takeRing h h) fun ⟨s, n⟩ h => ?_
  refine .bind (.foldlM (P := Canon) ?_ fun s x h => ?_) fun s h => .pure (.vopEnd h)
  · exact h
  · exact .loadLine h

theorem Ends.vstoreOp {enc : BitVec 32} {mode v a b k lt sk : Nat} (h : Canon s) : Ends (vstoreOp enc mode v a b k lt sk s) := by
  unfold Machine.vstoreOp
  dsimp only
  refine .thr h fun _ h => ?_
  split
  · exact .storeOn h
  · refine .bind (.ringGate h) fun _ _ => .bind .chk fun _ _ => .bind .vplan fun _ _ => .bind (.takeRing h h) fun ⟨s, x⟩ h => ?_
    refine .bind .await fun _ _ => .storeOn ?_
    refine .of_mem ?_ rfl
    split
    · exact h
    · exact h

theorem Ends.vldfOp {enc : BitVec 32} {v a k lt sk : Nat} (h : Canon s) : Ends (vldfOp enc v a k lt sk s) := by
  unfold Machine.vldfOp
  refine .thr h fun e h => ?_
  extract_lets ea slack main
  have hm u : Fine Canon (main u) := by
    refine .bind .chk fun _ _ => ?_
    split
    next q _ _ =>
      split
      next l _ =>
        have h1 : Canon (Machine.vecSet e e.s v (lanesPut (laneW lt) (vecGet e e.s v) (vldfLanes e k lt l))) := .vecSet h
        exact .pure (.of_mem h1 rfl)
      · split
        · exact .pure (.of_mem h rfl)
        · exact .trapIn (.of_mem h rfl)
      · exact .cond
    · refine .bind .aligned fun _ _ => .bind (P := fun _ => True) (.bind .place fun p _ => ?_) fun key _ =>
        .bind (.takeRing h h) fun _ h => .sendWait h
      split
      · split
        · exact .pure trivial
        · exact .trapX
      · exact .trapX
  split
  · exact .bind (.ringGate h) fun _ _ => hm ()
  · exact hm ()

end Sys2Proof.Proofs
end

section
/-!
SUPPORT. Delivery, the slots and the scheduler, carries and chains keep memory in its canonical form.
-/

namespace Sys2Proof.Proofs

open Sys2Proof.Machine Sys2Proof.Laws

variable {s t : State} {e : Env}

theorem Canon.lateCount {t : Tid} {p : Packet} {va : Word} (h : Canon s) : Canon (lateCount s t p va) := by
  unfold Machine.lateCount
  split
  · exact h
  · exact .lateAdd h

theorem Canon.lateOff {uid : Nat} {p : Packet} {va : Word} (h : Canon s) : Canon (lateOff s uid p va) := by
  unfold Machine.lateOff
  split <;> exact h

theorem Canon.threadReply {t : Tid} {uid src : Nat} {r : Res} (h : Canon s) : Canon (threadReply s t uid src r) := by
  unfold Machine.threadReply
  dsimp only
  split
  · exact h
  · split
    · exact h
    · split <;> exact h
    · exact h

theorem Canon.accessReply {t : Tid} {uid id m : Nat} {r : Res} (h : Canon s) : Canon (accessReply s t uid id m r) := by
  unfold Machine.accessReply
  dsimp only
  split
  · exact h
  · split
    · exact h
    · split
      · exact h
      · split
        · refine .vopEnd ?_
          refine .of_mem ?_ rfl
          split <;> exact h
        · split <;> exact h

theorem Canon.wakeCarry {cl uid : Nat} {d : Deliv} (h : Canon s) : Canon (wakeCarry s cl uid d) := by
  unfold Machine.wakeCarry
  split <;> exact h

theorem Canon.wakeThread {core : Nat} {w : Waiter} {p : Packet} {d : Deliv} (h : Canon s) : Canon (wakeThread s core w p d) := by
  unfold Machine.wakeThread
  dsimp only
  split
  · exact .lateCount h
  · split
    · exact .sendEnqueue (.lateOff h)
    · exact h

theorem Canon.wakeOf {core : Nat} {w : Waiter} {p : Packet} {d : Deliv} (h : Canon s) : Canon (wakeOf s core w p d) := by
  unfold Machine.wakeOf
  dsimp only
  split
  · split
    · exact .operandGot (.platCount h)
    · exact h
  · split
    · refine .wakeCarry ?_
      refine .lateOff ?_
      split
      · exact .wfcFree h
      · exact h
    · refine .wakeThread ?_
      split
      · exact .wfcFree h
      · exact h

theorem Canon.missDone {core ctx : Nat} {hit : Nat → Bool} {xf : Option (BitVec 8 × Word)} (h : Canon s) :
    Canon (missDone s core ctx hit xf) := .foldl h fun _ _ h => h

theorem Canon.xrepLate {core kind ctx page : Nat} {t : Tid} {p : Packet} {va : Word} (h : Canon s) :
    Canon (xrepLate s core kind ctx page t p va) := by
  unfold Machine.xrepLate
  split
  · split
    · exact .lateCount h
    · exact h
  · split
    · exact .lateCount h
    · exact h

theorem Canon.forwardEnd {unit : Nat} {p : Packet} {t : Tid} {b : Body} (h : Canon s) : Canon (forwardEnd s unit p t b) := by
  unfold Machine.forwardEnd
  split
  · refine .sysAnswer ?_
    split
    · exact .lateCount h
    · exact h
  · split
    · exact .inject h
    · exact h
  · exact h

theorem Canon.markWords {core : Option Nat} {ctx : Nat} {va : Word} {n : Nat} (h : Canon s) : Canon (markWords s core ctx va n) := by
  unfold Machine.markWords
  split
  · exact .foldl h fun s _ h => .markRead h
  · exact h

theorem Canon.tlbFill {core ctx : Nat} {va : Word} {n : Nat} (h : Canon s) : Canon (tlbFill s core ctx va n) := by
  unfold Machine.tlbFill
  dsimp only
  refine .foldl h fun s _ h => ?_
  split
  · exact h
  · split <;> exact h

theorem Given.slotReads {t : Tid} {uid : Nat} {va : Word} {n : Nat} (h : Canon s) : Given Canon (slotReads s t uid va n) := by
  unfold Machine.slotReads
  dsimp only
  split
  · split
    · exact .some (.lineNotesOf (.tlbFill h))
    · exact .none
  · split
    · exact .some (.lineNotesOf (.tlbFill h))
    · exact .none

theorem Given.recordReads {t : Tid} {uid : Nat} {src : RecSrc} (h : Canon s) : Given Canon (recordReads s t uid src) := by
  unfold Machine.recordReads
  split
  · exact .some h
  · exact .slotReads h

theorem Canon.delivTrap {t : Tid} {d : Option Deliv} (h : Canon s) : Canon (delivTrap s t d) := by
  unfold Machine.delivTrap
  split
  · exact .takeTrap h
  · exact h

theorem Canon.intoSlot {t : Tid} {uid base : Nat} {ws : List Word} {b : Option (List Word)} {spb spl : Word} (h : Canon s) :
    Canon (intoSlot s t uid base ws b spb spl) := by
  unfold Machine.intoSlot
  refine .delivTrap ?_
  refine .of_mem ?_ rfl
  refine .regSet ?_
  refine .regSet ?_
  split <;> exact .openSlot h

theorem Canon.carryTo {t : Tid} {l : List Carry} (h : Canon s) : Canon (carryTo s t l) := by
  unfold Machine.carryTo
  split <;> exact h

theorem Given.takeCarry {t : Tid} {uid base : Nat} {ci : CarryIn} {ws : List Word} (h : Canon s) :
    Given Canon (takeCarry s t uid base ci ws) := by
  unfold Machine.takeCarry
  split
  · exact .none
  · exact .some (.intoSlot h)

theorem Given.takeAt {t : Tid} {uid base : Nat} {ws : List Word} (h : Canon s) : Given Canon (takeAt s t uid base ws) := by
  unfold Machine.takeAt
  extract_lets k s1 spb
  have h1 : Canon s1 := .carryTo h
  clear_value s1
  split
  · exact .takeCarry h1
  · split
    · exact .some (.intoSlot h1)
    · refine .onMap (.slotReads h1) fun s h => ?_
      split
      · exact .intoSlot h
      · exact .teardown (.markWords h)

theorem Given.takeCont {t : Tid} {uid : Nat} {src : RecSrc} (h : Canon s) : Given Canon (takeCont s t uid src) := by
  unfold Machine.takeCont
  dsimp only
  split
  · exact .none
  · refine .bind (.recordReads h) fun s h => ?_
    split
    · refine .some ?_
      refine .teardown ?_
      split
      · exact .markWords h
      · exact h
    · split
      · exact .some (.teardown h)
      · split
        · exact .none
        · exact .takeAt h

theorem Given.takeRoot {t : Tid} {e : EntryRef} {n ctx : Nat} {pc arg desc : Word} {prio : BitVec 2} (h : Canon s) :
    Given Canon (takeRoot s t e n ctx pc arg desc prio) := by
  unfold Machine.takeRoot
  dsimp only
  split
  · exact .some (.regSet (.regSet (.regSet (.openSlot (.freshUid h)))))
  · exact .none

theorem Given.takeInj {t : Tid} {i : Inj} (h : Canon s) : Given Canon (takeInj s t i) := by
  unfold Machine.takeInj
  split
  · exact .takeRoot h
  · exact .takeCont h

theorem Given.takeFromInj {t : Tid} {ok : Inj → Bool} (h : Canon s) : Given Canon (takeFromInj s t ok) := by
  intro s' eq
  obtain ⟨i, _, eq⟩ := List.exists_of_findSome?_eq_some eq
  exact Given.takeInj (s := modCl _ _ _) h _ eq

theorem Canon.markBlock {b : OvfBlock} {e : Nat × Nat} (h : Canon s) : Canon (markBlock s b e) := .foldl h fun _ _ h => .markRead h

theorem Canon.dequeLoad {core : Nat} (h : Canon s) : Canon (dequeLoad s core) := by
  unfold Machine.dequeLoad
  dsimp only
  split
  · exact .foldl h fun s x h => .markBlock h
  · exact h

theorem Given.takeFromDeque {t : Tid} (h : Canon s) : Given Canon (takeFromDeque s t) := by
  unfold Machine.takeFromDeque
  dsimp only
  split
  · exact .none
  · split
    · exact .none
    · exact .takeCont (.dequeNote (.dequeLoad h))

theorem Given.takeUrgent {t : Tid} (h : Canon s) : Given Canon (takeUrgent s t) := by
  unfold Machine.takeUrgent
  dsimp only
  refine .onMap (P := Canon) ?_ fun s h => h
  split
  · split
    · exact .none
    · exact .takeCont (.dequeNote h)
  · split
    · exact .takeInj h
    · exact .takeFromInj h

theorem Given.takeOwn {t : Tid} {uid : Nat} (h : Canon s) : Given Canon (takeOwn s t uid) := by
  unfold Machine.takeOwn
  dsimp only
  split
  · exact .none
  · split
    · exact .none
    · refine .bind (P := Canon) (.recordReads h) fun s h => ?_
      split
      · exact .some (.teardown h)
      · split
        · exact .some (.teardown h)
        · exact .onMap (.takeAt h) fun s h => h

theorem Canon.askWork {core : Nat} (h : Canon s) : Canon (askWork s core) := by
  unfold Machine.askWork
  dsimp only
  split
  · exact h
  · split
    · exact h
    · split
      · exact h
      · exact .send h

theorem Canon.askUrgent {core : Nat} (h : Canon s) : Canon (askUrgent s core) := by
  unfold Machine.askUrgent
  dsimp only
  split
  · exact h
  · split
    · exact h
    · split
      · exact h
      · exact .send h

theorem Canon.urgentAt {core : Nat} {i : Inj} (h : Canon s) : Canon (urgentAt s core i) := by
  unfold Machine.urgentAt
  dsimp only
  split
  · split
    next x s eq =>
      have h : Canon _ := (.takeInj h : Given _ _) _ eq
      exact h
    · split <;> exact h
  · split <;> exact h

theorem Canon.postHandler {core ctx : Nat} {ws : List Word} (h : Canon s) : Canon (postHandler s core ctx ws) := .send (.freshUid h)

theorem Canon.evictWithdraw {t : Tid} {uid : Nat} (h : Canon s) : Canon (evictWithdraw s t uid) := by
  unfold Machine.evictWithdraw
  split
  · exact h
  · exact .send h

theorem Canon.evictOut {t : Tid} {uid : Nat} (h : Canon s) : Canon (evictOut s t uid) := by
  unfold Machine.evictOut
  extract_lets e
  have he : Canon e.s := h
  have hw : Fine Canon (do roomX e; writeOut e s e.sl.pc : X State) := .bind .roomX fun _ _ => .writeOut h
  clear_value e
  split
  · exact .sendMiss h
  · exact h
  next st _ _ eq =>
    rw [eq] at hw
    exact .of_mem (.applyStop he hw) rfl
  next s1 eq =>
    rw [eq] at hw
    have h1 : Canon (freeSlot (Machine.noteLeft s1 t (getSlot s1 t) (recAddr e)) t) := .of_mem (.noteLeft hw) rfl
    exact .of_mem (.sendEnqueue h1) rfl

theorem Canon.moveOut {t d : Tid} {uid : Nat} (h : Canon s) : Canon (moveOut s t d uid) := by
  unfold Machine.moveOut
  split
  · exact h
  · exact .send h

theorem Canon.depositLine {cl : Nat} {ci : CarryIn} {l : List Host.Cell × List Nat} (h : Canon s) : Canon (depositLine cl ci s l) := by
  unfold Machine.depositLine
  split
  · exact .send h
  · exact .send (.putAtHome h)

theorem Canon.carryDeposit {cl : Nat} {ci : CarryIn} (h : Canon s) : Canon (carryDeposit s cl ci) := by
  unfold Machine.carryDeposit
  split
  · exact .wakeCarry h
  · exact .foldl h fun s x h => .depositLine h

theorem Canon.carryCount {cl : Nat} {ci : CarryIn} (h : Canon s) : Canon (carryCount s cl ci) := by
  unfold Machine.carryCount
  dsimp only
  split
  · exact .wakeCarry h
  · split
    · exact .wakeCarry h
    · split
      · exact .wakeCarry h
      · exact .send h

theorem Canon.depositAck {cl : Nat} {ci : CarryIn} {home : Nat} {r : Res} (h : Canon s) : Canon (depositAck s cl ci home r) := by
  unfold Machine.depositAck
  dsimp only
  split
  · exact h
  · split
    · exact .wakeCarry h
    · exact .carryCount h

theorem Canon.carryDemand {cl : Nat} {ci : CarryIn} {old : Word} (h : Canon s) : Canon (carryDemand s cl ci old) := by
  unfold Machine.carryDemand
  dsimp only
  split
  · refine .wakeCarry ?_
    split <;> exact h
  · split
    · refine .wakeCarry ?_
      split <;> exact h
    · refine .send ?_
      split <;> exact h

theorem Canon.carryBead {cl uid : Nat} {r : Res} (h : Canon s) : Canon (carryBead s cl uid r) := by
  unfold Machine.carryBead
  split
  · exact .wakeCarry h
  · exact .wakeCarry h
  · exact h

theorem Canon.carryRow {core dst : Nat} {row : List Byte} {marks : List Nat} (h : Canon s) : Canon (carryRow s core dst row marks) := by
  unfold Machine.carryRow
  generalize scrKey core dst = k
  exact .foldl (.engineWrite h) fun _ _ h => .carried h

theorem Canon.wfcAsk {cl : Nat} {a b : Word} {hops : Nat} (h : Canon s) : Canon (wfcAsk s cl a b hops) := .send h

theorem Canon.wfcCycle {e : Wfc} {met : BeadRef} (h : Canon s) : Canon (wfcCycle s e met) := by
  unfold Machine.wfcCycle
  dsimp only
  split
  · split
    · split
      · exact .bdFail h
      · exact h
    · exact h
  · refine .foldl ?_ fun s x h => .wakeOne (.dropWaiter h)
    split
    · split
      · exact .bdFail h
      · exact h
    · exact h

end Sys2Proof.Proofs
end

section
/-!
SUPPORT. The network, the links, the management controller, the ranking engine and the reduction queues keep memory in its
canonical form.
-/

namespace Sys2Proof.Proofs

open Sys2Proof.Machine Sys2Proof.Laws

variable {s t : State} {e : Env}

theorem Ends.branch {enc : BitVec 32} {code a : Nat} {off : Word} (h : Canon s) : Ends (branch enc code a off s) := by
  unfold Machine.branch
  refine .thr h fun _ h => .bind .chk fun _ _ => .bind (.readR h) fun ⟨s, x⟩ h => .pure ?_
  split <;> exact h

theorem Canon.meshLeave {r net : Nat} {p : Packet} (h : Canon s) : Canon (meshLeave s r net p) := by
  unfold Machine.meshLeave
  split
  · exact .arrive h
  · exact .beamOut h

theorem Canon.routerTake {r dir net i : Nat} (h : Canon s) : Canon (routerTake s r dir net i) := by
  unfold Machine.routerTake
  split
  · exact .refill h
  · exact h

theorem Canon.chanPut {chan net : Nat} {p : Packet} (h : Canon s) : Canon (chanPut s chan net p) := by
  unfold Machine.chanPut
  dsimp only
  split
  · exact h
  · exact .outPut h

theorem Canon.tokenGrant {chan w : Nat} (h : Canon s) : Canon (tokenGrant s chan w) := by
  unfold Machine.tokenGrant
  dsimp only
  split
  · split
    · exact h
    · split
      · exact h
      · exact .chanPut h
  · split
    · exact h
    · split <;> exact h

theorem Canon.tokenBid {chan w : Nat} (h : Canon s) : Canon (tokenBid s chan w) := by
  unfold Machine.tokenBid
  dsimp only
  split
  · exact h
  · split <;> exact h

theorem Canon.bridgeArrive {nd port net : Nat} {p : Packet} (h : Canon s) : Canon (bridgeArrive s nd port net p) := by
  unfold Machine.bridgeArrive
  split <;> exact h

theorem Given.leaveQ {k i : Nat} (h : Canon s) : Given (fun r => Canon r.2) (leaveQ s k i) := .map (fun _ => h)

theorem Canon.chanForward {die port c : Nat} (h : Canon s) : Canon (chanForward s die port c) := by
  unfold Machine.chanForward
  dsimp only
  split
  · exact h
  · split
    · exact h
    next p s1 eq => exact (Given.leaveQ h _ eq).of_mem rfl

theorem Canon.bridgeCross {die port : Nat} (h : Canon s) : Canon (bridgeCross s die port) := by
  unfold Machine.bridgeCross
  dsimp only
  split
  · exact h
  · split
    · exact h
    next p s1 eq =>
      have h1 : Canon s1 := Given.leaveQ h _ eq
      exact .ite (.answerLost h1) (.bridgeArrive h1)

theorem Canon.portDiscard {p : Nat} {x : Packet} (h : Canon s) : Canon (portDiscard s p x) := by
  unfold Machine.portDiscard
  refine .of_mem ?_ rfl
  split
  · exact .answerLost h
  · exact h

theorem Canon.pageAccess {port id cls dev slack : Nat} {pg : Nat × Nat × Nat} {v : Word} (h : Canon s) :
    Canon (pageAccess s port id cls dev slack pg v) := by
  unfold Machine.pageAccess
  dsimp only
  split
  · split <;> exact h
  · split
    · refine .of_mem ?_ rfl
      split <;> exact h
    · exact h

theorem Canon.packetIn {port : Nat} {fs : List (BitVec 256)} (h : Canon s) : Canon (packetIn s port fs) := by
  unfold Machine.packetIn
  dsimp only
  split
  · exact h
  · split
    · split
      · split
        · exact .pageAccess h
        · exact .inject h
      · exact .inject h
    · split
      · split
        · exact .inject h
        · exact h
      · exact .inject h

theorem Canon.flitJoin {port : Nat} {f : BitVec 256} (h : Canon s) : Canon (flitJoin s port f) := by
  unfold Machine.flitJoin
  dsimp only
  split
  · exact h
  · split <;> exact h
  · split
    · exact h
    · exact .packetIn h
  · exact .packetIn h

theorem Canon.linkNotice {port status detail : Nat} (h : Canon s) : Canon (linkNotice s port status detail) := .postNotice h

theorem Canon.retrainFailed {port : Nat} (h : Canon s) : Canon (retrainFailed s port) :=
  .linkNotice (.foldl (.foldl h fun _ _ h => .answerLost h) fun _ _ h => .portDiscard h)

theorem Canon.attemptFailed {port : Nat} {ver : Bool} (h : Canon s) : Canon (attemptFailed s port ver) := by
  unfold Machine.attemptFailed
  dsimp only
  split
  · exact h
  · split
    · exact .retrainFailed h
    · exact h

theorem Canon.linkUp {port : Nat} (h : Canon s) : Canon (linkUp s port) := by
  unfold Machine.linkUp
  dsimp only
  split
  · exact .linkNotice h
  · exact h

theorem Canon.retrain {port : Nat} (h : Canon s) : Canon (retrain s port) := by
  unfold Machine.retrain
  split <;> exact h

theorem Ends.mgmtCmd {op : Nat} {sub : Bool} {used : List (Nat × Nat)} {f : State → State × Nat × List Word} (h : Canon s)
    (hf : ∀ s, Canon s → Canon (f s).1) : Ends (mgmtCmd s op sub used f) := by
  unfold Machine.mgmtCmd
  refine .next (.ite h (.ite (.mgmtEnd h) ?_))
  split
  next s1 st resp eq =>
    have h1 : Canon s1 := Canon.fst (hf s h) eq
    exact .mgmtEnd (.ite h1 h)

theorem Canon.no {st : Nat} (h : Canon s) : Canon (no s st).1 := h

theorem Canon.yes (h : Canon s) : Canon (yes s).1 := h

theorem Canon.urgentOff {core : Nat} (h : Canon s) : Canon (urgentOff s core) := .foldl (.foldl h fun _ _ h => h) fun _ _ h => .dequePush h

theorem Canon.resumeCall {t : Tid} (h : Canon s) : Canon (resumeCall s t) := by
  unfold Machine.resumeCall
  dsimp only
  split
  · split
    · exact h
    · exact .sysDeliver h
  · exact h

theorem Canon.resumeCalls {fn : Nat} (h : Canon s) : Canon (resumeCalls s fn) := .foldl h fun _ _ h => .resumeCall h

theorem Canon.pair {β : Type} {r : State × β} (h : ∀ q, r = q → Canon q.1) : Canon r.1 := h r rfl

theorem Ends.debugCmd {action : Nat} {f : State → Tid → Slot → State × Nat × List Word} (h : Canon s)
    (hf : ∀ s t sl, Canon s → Canon (f s t sl).1) : Ends (debugCmd s action f) := by
  unfold Machine.debugCmd
  refine .mgmtCmd h fun s h => .pair fun q eq => ?_
  dsimp only at eq
  split at eq
  · exact eq ▸ h
  · split at eq
    · exact eq ▸ h
    · exact eq ▸ hf _ _ _ h

theorem Canon.rankRun {die kind : Nat} {reads : State → EngCmd → List Nat} {plan : State → EngCmd → EX (List (EX EgWrite))} (h : Canon s) :
    Canon (rankRun s die kind reads plan) := by
  unfold Machine.rankRun
  split
  · exact h
  · extract_lets s1
    have h1 : Canon s1 := h
    clear_value s1
    split
    · exact h1
    · refine .ite h1 (.ite h1 (.ite h1 ?_))
      split
      next s2 n cause eq => exact .cmdEnd (Given.runPlan (s := modDie _ _ _) h1 _ eq)
      · exact h1

theorem Given.takeFirst {unit net : Nat} {ok : Packet → Bool} (h : Canon s) : Given (fun r => Canon r.2) (takeFirst s unit net ok) := by
  unfold Machine.takeFirst
  dsimp only
  split
  · exact .none
  · exact .map (fun _ => h)

theorem Canon.rqAnswer {cl : Nat} {w : RqWait} {r : Res} (h : Canon s) : Canon (rqAnswer s cl w r) := .inject h

theorem Canon.rqServe {cl i n : Nat} (h : Canon s) : Canon (rqServe cl i n s) := by
  induction n generalizing s with
  | zero => exact h
  | succ n ih =>
    unfold Machine.rqServe
    split
    · exact h
    · dsimp only
      split
      · exact ih (.rqAnswer h)
      · split
        · exact ih (.rqAnswer h)
        · exact h

theorem Canon.rqWake {cl i : Nat} (h : Canon s) : Canon (rqWake s cl i) := .rqServe h

theorem Canon.rqInit {cl : Nat} {p : Packet} {i : Nat} {ws : List Word} {ctx : Nat} {ret : Ret} (h : Canon s) :
    Canon (rqInit s cl p i ws ctx ret) := by
  unfold Machine.rqInit
  dsimp only
  split <;> exact .reply h

theorem Canon.rqGet {cl : Nat} {p : Packet} {i wl : Nat} {ret : Ret} (h : Canon s) : Canon (rqGet s cl p i wl ret) := by
  unfold Machine.rqGet
  dsimp only
  split
  · exact .reply h
  · split
    · exact .rqWake (.reply h)
    · split
      · exact .reply h
      · exact h
  · exact .reply h
  · exact .reply h

theorem Canon.rqReduced {cl : Nat} {p : Packet} {i b : Nat} {ret : Ret} (h : Canon s) : Canon (rqReduced s cl p i b ret) := by
  unfold Machine.rqReduced
  dsimp only
  split
  · exact .reply h
  · exact .rqWake h

theorem Canon.rqDone {cl : Nat} {p : Packet} {i b : Nat} {kind : Bool} {ctx : Nat} {ret : Ret} (h : Canon s) :
    Canon (rqDone s cl p i b kind ctx ret) := by
  unfold Machine.rqDone
  dsimp only
  split
  · exact .reply h
  · split
    · exact .reply h
    · split
      · exact .reply h
      · split
        · exact .reply h
        · split
          · exact .rqReduced h
          · exact .rqWake (.reply h)

theorem Canon.evictWrite {core : Nat} {v : Word} (h : Canon s) : Canon (evictWrite s core v) := by
  unfold Machine.evictWrite
  dsimp only
  refine .foldl h fun s _ h => ?_
  split
  · exact h
  · split <;> exact h

theorem Canon.csrPut {t : Tid} {n : Nat} {v : Word} (h : Canon s) : Canon (csrPut s t n v) := by
  unfold Machine.csrPut
  split
  case h_32 => exact .evictWrite h
  all_goals exact h

theorem Fine.csrAllowed {n : Nat} {wr : Bool} : Fine (fun _ => True) (csrAllowed e n wr) := by
  unfold Machine.csrAllowed
  split
  · exact .bind .need fun _ _ => .bind .need fun _ _ => .need
  · exact .need

theorem Fine.csrWait {n : Nat} : Fine (fun _ => True) (csrWait e n) := .await

theorem Fine.svcKey {va : Word} {n : Nat} : Fine (fun _ => True) (svcKey e va n) := by
  unfold Machine.svcKey
  split
  · exact .trapX
  · refine .bind .place fun _ _ => ?_
    split
    · split
      · exact .pure trivial
      · exact .trapX
    · exact .trapX

theorem Fine.npostPut {v : Word} (h : Canon s) : Fine Canon (npostPut e s v) := by
  unfold Machine.npostPut
  refine .bind .aligned fun _ _ => .bind .svcKey fun k _ => ?_
  split
  · exact .trapIn (.markRead h)
  · exact .trapX
  · extract_lets w
    clear_value w
    exact .bind .need fun _ _ => .bind .await fun _ _ => .pure (.of_mem h rfl)

theorem Fine.csrWrite {d a : BitVec 7} {n : Nat} {f : Word → Word → Word} (he : Canon e.s) : Fine Canon (csrWrite e d a n f) := by
  unfold Machine.csrWrite
  dsimp only
  split
  · refine .bind (P := fun _ => True) .illegal fun _ _ => .bind .chk fun _ _ => .bind .csrAllowed fun _ _ => .bind .csrWait fun _ _ => ?_
    refine .bind (.readR he) fun ⟨s, x⟩ h => .bind .need fun _ _ => ?_
    split
    · exact .bind (.npostPut h) fun s h => .bind (.writeR h) fun s h => .pure h
    · exact .bind (P := Canon) (.pure (.csrPut h)) fun s h => .bind (.writeR h) fun s h => .pure h
  · refine .bind .chk fun _ _ => .bind .csrAllowed fun _ _ => .bind .csrWait fun _ _ => .bind (.readR he) fun ⟨s, x⟩ h => ?_
    refine .bind .need fun _ _ => ?_
    split
    · exact .bind (.npostPut h) fun s h => .bind (.writeR h) fun s h => .pure h
    · exact .bind (P := Canon) (.pure (.csrPut h)) fun s h => .bind (.writeR h) fun s h => .pure h

theorem Canon.sysCall {seq : Word} {ws : List Word} (h : Canon s) : Canon (sysCall e s seq ws) := by
  unfold Machine.sysCall
  dsimp only
  split
  · split
    · exact .regSet (.regSet (.scRecord h))
    · exact h
  · exact .scPost h

theorem Fine.svcOnly : Fine (fun _ => True) (svcOnly e) := .need

end Sys2Proof.Proofs
end

section
/-!
SUPPORT. Each arm of exec that is more than a call of a shared operation keeps memory in its canonical form.
-/

namespace Sys2Proof.Proofs

open Sys2Proof.Machine Sys2Proof.Laws

variable {s t : State} {e : Env}

theorem Ends.execI3cSetPowerLimit {cmd : BitVec 8 × BitVec 16} (h : Canon s) : Ends (execI3cSetPowerLimit cmd s) := by
  unfold Machine.execI3cSetPowerLimit
  refine .next ?_
  split
  · exact .i3cDo h (fun s h => h)
  · split <;> exact h

theorem Ends.execI3cResetPackage (h : Canon s) : Ends (execI3cResetPackage s) := by
  unfold Machine.execI3cResetPackage
  refine .next ?_
  split
  · exact h
  · exact .i3cDo h (fun s h => .packageReset h)

theorem Ends.execI3cResetDie {die : BitVec 2} (h : Canon s) : Ends (execI3cResetDie die s) := by
  unfold Machine.execI3cResetDie
  refine .next ?_
  refine .i3cDo h fun s h => ?_
  split
  · exact h
  · exact .dieReset h

theorem Ends.execAssign (h : Canon s) : Ends (execAssign s) := by
  unfold Machine.execAssign
  dsimp only
  refine .mgmtCmd h fun s h => ?_
  split
  · exact .no h
  · split
    · exact .no h
    · exact .yes (.foldl h fun s _ h => h)

theorem Ends.execCtxnew (h : Canon s) : Ends (execCtxnew s) := by
  unfold Machine.execCtxnew
  dsimp only
  refine .mgmtCmd h fun s h => ?_
  split
  · exact .no h
  · exact .yes h

theorem Ends.execCtxend (h : Canon s) : Ends (execCtxend s) := by
  unfold Machine.execCtxend
  refine .mgmtCmd h fun s h => .pair fun q eq => ?_
  have h1 : Canon (teardown s (cmdNat s 8 2) stDISCARDED) := .teardown h
  dsimp only at eq
  split at eq
  · exact eq ▸ h
  · rw [← eq]
    generalize teardown _ _ _ = s1 at h1 ⊢
    exact h1

theorem Ends.execQbind (h : Canon s) : Ends (execQbind s) := by
  unfold Machine.execQbind
  dsimp only
  refine .mgmtCmd h fun s h => ?_
  split
  · exact .no h
  · split
    · exact .no h
    · exact .yes h

theorem Ends.execPeer (h : Canon s) : Ends (execPeer s) := by
  unfold Machine.execPeer
  dsimp only
  refine .mgmtCmd h fun s h => ?_
  split
  · exact .no h
  · exact .yes h

theorem Ends.execKeyInstall (h : Canon s) : Ends (execKeyInstall s) := by
  unfold Machine.execKeyInstall
  refine .mgmtCmd h fun s h => ?_
  split
  · exact .no h
  · exact .yes h

theorem Ends.execKeyClear (h : Canon s) : Ends (execKeyClear s) := by
  unfold Machine.execKeyClear
  refine .mgmtCmd h fun s h => ?_
  split
  · exact .no h
  · exact .yes h

theorem Ends.execSigned (h : Canon s) : Ends (execSigned s) := by
  unfold Machine.execSigned
  refine .mgmtCmd h fun s h => ?_
  split
  · exact .no h
  · exact .yes h

theorem Ends.execMode (h : Canon s) : Ends (execMode s) := by
  unfold Machine.execMode
  dsimp only
  refine .mgmtCmd h fun s h => ?_
  split
  · exact .no h
  · split
    · exact .no h
    · refine .yes ?_
      refine .of_mem ?_ rfl
      split
      · exact .foldl h fun s _ h => .urgentOff h
      · exact h

theorem Ends.execShare (h : Canon s) : Ends (execShare s) := by
  unfold Machine.execShare
  dsimp only
  refine .mgmtCmd h fun s h => ?_
  split
  · exact .no h
  · split
    · exact .no h
    · exact .yes h

theorem Ends.execTrace (h : Canon s) : Ends (execTrace s) := by
  unfold Machine.execTrace
  dsimp only
  refine .mgmtCmd h fun s h => ?_
  split
  · exact .no h
  · split
    · exact .no h
    · exact .yes h

theorem Ends.execDrain (h : Canon s) : Ends (execDrain s) := by
  unfold Machine.execDrain
  refine .mgmtCmd h fun s h => .pair fun q eq => ?_
  dsimp only at eq
  split at eq
  · exact eq ▸ h
  · exact eq ▸ .resumeCalls (.foldl (.of_mem h rfl) fun s c h => .retest h)

theorem Ends.execAttest (h : Canon s) : Ends (execAttest s) := by
  unfold Machine.execAttest
  refine .mgmtCmd h fun s h => ?_
  split
  · exact .no h
  · exact .homeWriteL h

theorem Ends.execThread (h : Canon s) : Ends (execThread s) := by
  unfold Machine.execThread
  dsimp only
  refine .mgmtCmd h fun s h => ?_
  split
  · exact .no h
  · split
    · exact .no h
    · split
      · exact .no h
      · split
        · exact .no h
        · split
          · exact .no h
          · exact .openSlot (.freshUid h)

theorem Ends.execMove (h : Canon s) : Ends (execMove s) := by
  unfold Machine.execMove
  refine .mgmtCmd h fun s h => .pair fun q eq => ?_
  dsimp only at eq
  repeat' split at eq
  all_goals exact eq ▸ h

theorem Ends.execPostmap (h : Canon s) : Ends (execPostmap s) := by
  unfold Machine.execPostmap
  dsimp only
  refine .mgmtCmd h fun s h => ?_
  split
  · exact .no h
  · exact .yes (.postNotice h)

theorem Ends.execRetrain (h : Canon s) : Ends (execRetrain s) := by
  unfold Machine.execRetrain
  refine .mgmtCmd h fun s h => ?_
  split
  · exact .no h
  · split <;> exact .yes h

theorem Ends.execResetDie (h : Canon s) : Ends (execResetDie s) := by
  unfold Machine.execResetDie
  refine .mgmtCmd h fun s h => .yes ?_
  split
  · exact h
  · exact .dieReset h

theorem Ends.execResetPackage (h : Canon s) : Ends (execResetPackage s) := by
  unfold Machine.execResetPackage
  refine .mgmtCmd h fun s h => ?_
  split
  · exact .no h
  · exact .yes (.packageReset h)

theorem Ends.execPower (h : Canon s) : Ends (execPower s) := .mgmtCmd h (fun _ h => .yes h)

theorem Ends.execDebugHalt (h : Canon s) : Ends (execDebugHalt s) := by
  unfold Machine.execDebugHalt
  refine .debugCmd h fun s _ _ h => ?_
  split
  · exact .no h
  · exact .yes h

theorem Ends.execDebugResume (h : Canon s) : Ends (execDebugResume s) := .debugCmd h (fun _ _ _ h => .yes (.resumeCalls h))

theorem Ends.execDebugStep (h : Canon s) : Ends (execDebugStep s) := by
  unfold Machine.execDebugStep
  refine .debugCmd h fun s _ _ h => ?_
  split
  · exact .no h
  · exact .yes h

theorem Ends.execDebugSetBreakpoint (h : Canon s) : Ends (execDebugSetBreakpoint s) := .debugCmd h (fun _ _ _ h => .yes h)

theorem Ends.execDebugClearBreakpoint (h : Canon s) : Ends (execDebugClearBreakpoint s) := .debugCmd h (fun _ _ _ h => .yes h)

theorem Ends.execDebugCopyState (h : Canon s) : Ends (execDebugCopyState s) := by
  unfold Machine.execDebugCopyState
  refine .debugCmd h fun s _ _ h => ?_
  split
  · exact .no h
  · exact .yes (.hostWrite h)

theorem Ends.execRegisterWrite {fn bar off bytes : Nat} {v : BitVec 64} (h : Canon s) : Ends (execRegisterWrite fn bar off bytes v s) := by
  unfold Machine.execRegisterWrite
  dsimp only
  refine .next ?_
  split
  · exact h
  · split
    · split
      · exact .msixWrite h
      · split
        · exact .ctlWrite h
        · exact h
    · split
      · split
        · exact h
        · split <;> exact h
      · exact h

theorem Ends.execRingidxWrite {fn q : Nat} {v : BitVec 64} (h : Canon s) : Ends (execRingidxWrite fn q v s) := by
  unfold Machine.execRingidxWrite
  refine .next ?_
  split <;> exact h

theorem Ends.execQueueEnable {fn q : Nat} (h : Canon s) : Ends (execQueueEnable fn q s) := by
  unfold Machine.execQueueEnable
  refine .next ?_
  split
  · exact h
  · split <;> exact h

theorem Ends.execQueueDisable {fn q : Nat} (h : Canon s) : Ends (execQueueDisable fn q s) := by
  unfold Machine.execQueueDisable
  refine .next ?_
  split <;> exact h

theorem Ends.execQueueReset {fn q : Nat} (h : Canon s) : Ends (execQueueReset fn q s) := by
  unfold Machine.execQueueReset
  refine .next ?_
  split <;> exact h

theorem Ends.execScringConfig {fn : Nat} {isLog : Bool} {v : BitVec 64} (h : Canon s) : Ends (execScringConfig fn isLog v s) := by
  unfold Machine.execScringConfig
  refine .next ?_
  split
  · exact .scDrain h
  · exact h

theorem Ends.execScheadWrite {fn : Nat} {v : BitVec 64} (h : Canon s) : Ends (execScheadWrite fn v s) := by
  unfold Machine.execScheadWrite
  refine .next ?_
  split
  · exact .scDrain h
  · exact h

theorem Ends.execSyscallReply {fn : Nat} {v : BitVec 64} (h : Canon s) : Ends (execSyscallReply fn v s) := by
  unfold Machine.execSyscallReply
  dsimp only
  refine .next ?_
  split
  · exact h
  · split
    · exact h
    · split
      · split
        · exact .sysAnswer h
        · exact .forwardTo h
      · exact .sysAnswer h

theorem Ends.execHostWindowAccess {fn off : Nat} {wr : Bool} {bytes : Nat} {v : BitVec 64} (h : Canon s) :
    Ends (execHostWindowAccess fn off wr bytes v s) := by
  unfold Machine.execHostWindowAccess
  refine .next ?_
  split
  · exact h
  · split
    · exact .storeAtHome h
    · refine .of_mem ?_ rfl
      split
      · exact .markRead h
      · exact h

theorem Ends.execAdmitEntry {fn : Nat} {q : Nat × Bool} (h : Canon s) : Ends (execAdmitEntry fn q s) := by
  unfold Machine.execAdmitEntry
  refine .next ?_
  split
  · exact .tryAdmit h
  · exact h

theorem Ends.execStampRetry {fn : Nat} {q : Nat × Bool} (h : Canon s) : Ends (execStampRetry fn q s) := by
  unfold Machine.execStampRetry
  refine .next ?_
  split
  · exact .tryAdmit h
  · exact h

theorem Ends.execEntryStart {fn q seq : Nat} (h : Canon s) : Ends (execEntryStart fn q seq s) := by
  unfold Machine.execEntryStart
  dsimp only
  refine .next ?_
  split
  · exact h
  · split
    · exact h
    · split
      · exact h
      · split
        · exact h
        · split
          · exact h
          · exact .startRun h

theorem Ends.execImageLoad {fn q seq : Nat} (h : Canon s) : Ends (execImageLoad fn q seq s) := by
  unfold Machine.execImageLoad
  refine .next ?_
  split
  · exact h
  · split
    · exact h
    · split
      · exact h
      · exact .loadImage h

theorem Ends.execBoot (h : Canon s) : Ends (execBoot s) := by
  unfold Machine.execBoot
  dsimp only
  refine .next ?_
  split
  · exact h
  · split <;> exact h

theorem Ends.execSupplyFault {volts : Nat} (h : Canon s) : Ends (execSupplyFault volts s) := by
  unfold Machine.execSupplyFault
  refine .next ?_
  split <;> exact h

theorem Ends.execThermalThrottle {cl temp : Nat} (h : Canon s) : Ends (execThermalThrottle cl temp s) := by
  unfold Machine.execThermalThrottle
  refine .next ?_
  split
  · exact h
  · exact .sensorRead h

theorem Ends.execThermalShutdown {cl temp : Nat} (h : Canon s) : Ends (execThermalShutdown cl temp s) := by
  unfold Machine.execThermalShutdown
  refine .next ?_
  split
  · exact h
  · exact .sensorRead h

theorem Ends.execPowerLimitUnmet {watts : Nat} (h : Canon s) : Ends (execPowerLimitUnmet watts s) := by
  unfold Machine.execPowerLimitUnmet
  refine .next ?_
  split <;> exact h

theorem Ends.execPowerLimitMet {watts : Nat} (h : Canon s) : Ends (execPowerLimitMet watts s) := by
  unfold Machine.execPowerLimitMet
  refine .next ?_
  split <;> exact h

theorem Ends.execClockStep {cl : Nat} {up : Bool} (h : Canon s) : Ends (execClockStep cl up s) := by
  unfold Machine.execClockStep
  refine .next ?_
  split
  · exact h
  · split <;> split <;> exact h

theorem Ends.execDieResetComplete {die : BitVec 2} (h : Canon s) : Ends (execDieResetComplete die s) := by
  unfold Machine.execDieResetComplete
  refine .next ?_
  split
  · exact .dieBack h
  · exact h

theorem Ends.execPackageResetComplete (h : Canon s) : Ends (execPackageResetComplete s) := by
  unfold Machine.execPackageResetComplete
  refine .next ?_
  split
  · exact .foldl h fun s _ h => .dieBack h
  · exact h

theorem Ends.execSlackTick (h : Canon s) : Ends (execSlackTick s) := by
  unfold Machine.execSlackTick
  refine .next ?_
  split
  · exact h
  · exact .pickDriver h

theorem Ends.execRouterForward {router out net : Nat} (h : Canon s) : Ends (execRouterForward router out net s) := by
  unfold Machine.execRouterForward
  dsimp only
  refine .next ?_
  split
  · exact h
  · split
    · exact h
    · split
      · exact h
      · split
        · split
          · exact h
          · exact .meshLeave (.routerTake h)
        · split
          · exact h
          · split
            · exact h
            · exact .routerTake h

theorem Ends.execRouterIdle {router : Nat} (h : Canon s) : Ends (execRouterIdle router s) := by
  unfold Machine.execRouterIdle
  refine .next ?_
  split
  · exact h
  · split <;> exact h

theorem Ends.execRouterPowerdownDone {router : Nat} (h : Canon s) : Ends (execRouterPowerdownDone router s) := by
  unfold Machine.execRouterPowerdownDone
  refine .next ?_
  split
  · exact h
  · split
    · exact .refill (.refill h)
    · exact h

theorem Ends.execTokenAtWriter {chan w : Nat} (h : Canon s) : Ends (execTokenAtWriter chan w s) := by
  unfold Machine.execTokenAtWriter
  refine .next ?_
  split
  · exact h
  · exact .tokenBid (.tokenGrant h)

theorem Ends.execTokenAtHome {chan : Nat} (h : Canon s) : Ends (execTokenAtHome chan s) := by
  unfold Machine.execTokenAtHome
  refine .next ?_
  split <;> exact h

theorem Ends.execBridgeForward {die port chan : Nat} (h : Canon s) : Ends (execBridgeForward die port chan s) := by
  unfold Machine.execBridgeForward
  refine .next ?_
  split
  · exact h
  · split
    · exact .chanForward h
    · exact .bridgeCross h

theorem Ends.execDirectPathForward {die inn port : Nat} (h : Canon s) : Ends (execDirectPathForward die inn port s) := by
  unfold Machine.execDirectPathForward
  refine .next ?_
  split
  · exact h
  · split
    · exact h
    · split
      · exact h
      next x x s eq =>
        have h : Canon _ := (.leaveQ h : Given _ _) _ eq
        exact h

theorem Ends.execHomeEnqueue {unit net : Nat} (h : Canon s) : Ends (execHomeEnqueue unit net s) := by
  unfold Machine.execHomeEnqueue
  refine .next ?_
  split
  · exact h
  · split
    · exact h
    · split
      · exact h
      · split
        · exact h
        · split
          · exact .answerLost h
          · split
            · exact h
            · exact .enterHome (.arrivalNote h)

theorem Ends.execReplayTimeout {unit : Nat} (h : Canon s) : Ends (execReplayTimeout unit s) := by
  unfold Machine.execReplayTimeout
  refine .next ?_
  split
  · exact h
  · split
    · exact h
    · exact .afterHome (.diverge h)

theorem Ends.execReplyDeliver {unit : Nat} (h : Canon s) : Ends (execReplyDeliver unit s) := by
  unfold Machine.execReplyDeliver
  refine .next ?_
  split
  · exact h
  next x x s eq =>
    have h : Canon _ := (.takeArrived h : Given _ _) _ eq
    split
    · split
      · exact .threadReply (.lateCount h)
      · exact h
    · split
      · exact .accessReply (.lateCount h)
      · exact h
    · split
      · exact .shootAck (.platCount h)
      · exact .shootAck h
    · exact .platCount h
    · split
      · exact .lateCount h
      · exact h
    · exact h

theorem Ends.execLateTrap {core slot : Nat} (h : Canon s) : Ends (execLateTrap core slot s) := by
  unfold Machine.execLateTrap
  refine .next ?_
  split
  · exact .takeTrap h
  · exact h

theorem Ends.execIterativeUnitDone {core : Nat} (h : Canon s) : Ends (execIterativeUnitDone core s) := by
  unfold Machine.execIterativeUnitDone
  refine .next ?_
  split
  · exact h
  next op r _ =>
    extract_lets t e popped
    have hp : Canon popped := h
    clear_value popped
    refine .ite hp ?_
    split
    next s1 eq =>
      have h1 : Canon s1 := by
        have hw : Fine Canon (writeR e popped op.d op.v) := .writeR hp
        rw [eq] at hw
        exact hw
      exact h1
    · exact h

theorem Ends.execVectorDeferredResult {core slot : Nat} (h : Canon s) : Ends (execVectorDeferredResult core slot s) := by
  unfold Machine.execVectorDeferredResult
  dsimp only
  refine .next ?_
  split
  · exact h
  · exact .foldl h fun s x h => .regSet h

theorem Ends.execFabricTransmit {port : Nat} (h : Canon s) : Ends (execFabricTransmit port s) := by
  unfold Machine.execFabricTransmit
  dsimp only
  refine .next ?_
  split
  · exact h
  · split
    · split <;> exact h
    · split
      · exact .portDiscard h
      · split
        · split <;> exact h
        · split
          · exact .portDiscard h
          · exact h

theorem Ends.execCodewordReceive {port : Nat} {sent : List (BitVec 256)} {got : List (BitVec 256) × BitVec 20} {errors : Nat} (h :
    Canon s) :
    Ends (execCodewordReceive port sent got errors s) := by
  unfold Machine.execCodewordReceive
  refine .next ?_
  split <;> exact h

theorem Ends.execFlitReceive {port : Nat} {flit : BitVec 256} (h : Canon s) : Ends (execFlitReceive port flit s) := by
  unfold Machine.execFlitReceive
  refine .next ?_
  split
  · exact h
  · split
    · exact h
    · split
      · exact h
      · split
        · exact h
        · split
          · exact h
          · split
            · exact h
            · split
              · exact h
              · exact .flitJoin h

theorem Ends.execAckReceive {port : Nat} {flit : BitVec 256} (h : Canon s) : Ends (execAckReceive port flit s) := by
  unfold Machine.execAckReceive
  refine .next ?_
  split
  · exact h
  · split <;> exact h

theorem Ends.execNakReceive {port : Nat} {flit : BitVec 256} (h : Canon s) : Ends (execNakReceive port flit s) := by
  unfold Machine.execNakReceive
  refine .next ?_
  split
  · exact h
  · split
    · exact h
    · split <;> exact h

theorem Ends.execTrainingFlitReceive {port : Nat} {flit : BitVec 256} (h : Canon s) : Ends (execTrainingFlitReceive port flit s) := by
  unfold Machine.execTrainingFlitReceive
  dsimp only
  refine .next ?_
  split
  · exact h
  · split
    · exact h
    · split
      · exact h
      · split
        · exact .attemptFailed h
        · split
          · exact .linkUp h
          · exact .attemptFailed h

theorem Ends.execLockHoldExpiry {port : Nat} {locked : BitVec 4} (h : Canon s) : Ends (execLockHoldExpiry port locked s) := by
  unfold Machine.execLockHoldExpiry
  refine .next ?_
  split
  · exact h
  · split <;> exact h

theorem Ends.execMarkersAligned {mark : Nat × BitVec 20} (h : Canon s) : Ends (execMarkersAligned mark s) := by
  unfold Machine.execMarkersAligned
  refine .next ?_
  split <;> exact h

theorem Ends.execFecCodewordCount {port : Nat} (h : Canon s) : Ends (execFecCodewordCount port s) := by
  unfold Machine.execFecCodewordCount
  refine .next ?_
  split <;> exact h

theorem Ends.execTrainingTimeout {port : Nat} (h : Canon s) : Ends (execTrainingTimeout port s) := by
  unfold Machine.execTrainingTimeout
  refine .next ?_
  split
  · exact h
  · exact .attemptFailed h

theorem Ends.execNakRateExceeded {port : Nat} (h : Canon s) : Ends (execNakRateExceeded port s) := by
  unfold Machine.execNakRateExceeded
  refine .next ?_
  split
  · exact .retrain h
  · exact h

theorem Ends.execFibreLockLoss {port fibre : Nat} (h : Canon s) : Ends (execFibreLockLoss port fibre s) := by
  unfold Machine.execFibreLockLoss
  refine .next ?_
  split
  · exact h
  · exact .retrain h

theorem Ends.execSlotTake {core slot : Nat} (h : Canon s) : Ends (execSlotTake core slot s) := by
  unfold Machine.execSlotTake
  refine .next (.ite h ?_)
  split
  · exact .getD (.takeOwn h) h
  · exact .ite h (.ite (.getD (.takeUrgent h) h) (.ite (.getD (.takeFromDeque h) h) (.getD (.takeFromInj h) h)))

theorem Ends.execStealSearch {core : Nat} (h : Canon s) : Ends (execStealSearch core s) := by
  unfold Machine.execStealSearch
  dsimp only
  refine .next ?_
  split
  · exact h
  · split
    · refine .askUrgent ?_
      split
      · exact .askWork h
      · exact h
    · split
      · exact .askWork h
      · exact h

theorem Ends.execStealRequest {core : Nat} (h : Canon s) : Ends (execStealRequest core s) := by
  unfold Machine.execStealRequest
  refine .next ?_
  split
  · exact h
  next x x s eq =>
    have h : Canon _ := (.takeOldest h : Given _ _) _ eq
    split
    · refine .send ?_
      split <;> exact .dequeNote h
    · refine .send ?_
      split <;> exact .dequeNote h
    · exact h

theorem Ends.execStealReply {core : Nat} (h : Canon s) : Ends (execStealReply core s) := by
  unfold Machine.execStealReply
  dsimp only
  refine .next ?_
  split
  · exact h
  next x x s eq =>
    have h : Canon _ := (.takeArrived h : Given _ _) _ eq
    split
    · split
      · split
        · exact .dequeNote (.dequePush h)
        · exact h
      · exact h
    · split
      · split
        · exact .dequeNote (.dequePush h)
        · exact h
      · exact h
    · exact h

theorem Ends.execEnqueueContinuation {cl : Nat} (h : Canon s) : Ends (execEnqueueContinuation cl s) := by
  unfold Machine.execEnqueueContinuation
  dsimp only
  refine .next ?_
  split
  · exact h
  next x x s eq =>
    have h : Canon _ := (.takeArrived h : Given _ _) _ eq
    split
    · split
      · exact h
      · split <;> exact h
    · exact h

theorem Ends.execInjectionAge {cl idx : Nat} (h : Canon s) : Ends (execInjectionAge cl idx s) := by
  unfold Machine.execInjectionAge
  refine .next ?_
  split <;> exact h

theorem Ends.execUrgentArrival {post : Nat × List (BitVec 64)} (h : Canon s) : Ends (execUrgentArrival post s) := by
  unfold Machine.execUrgentArrival
  refine .next ?_
  split
  · exact h
  · split
    next x x s eq =>
      have h : Canon _ := (.takeArrived h : Given _ _) _ eq
      split
      · split
        · exact h
        · split
          · exact .urgentAt h
          · exact h
      · exact h
    · split
      · split <;> exact h
      · split
        · exact h
        · split
          · split
            · exact .postHandler h
            · exact h
          · split
            · exact h
            · split
              · exact h
              · exact .urgentAt h

theorem Ends.execEvictWrite {core slot : Nat} (h : Canon s) : Ends (execEvictWrite core slot s) := by
  unfold Machine.execEvictWrite
  refine .next ?_
  split
  · exact h
  · split
    · exact h
    · split
      · exact .evictWithdraw h
      · split
        · exact h
        · split
          · exact .takeTrap h
          · split
            · exact .moveOut h
            · exact .evictOut h

theorem Ends.execNpostWrite {cl : Nat} (h : Canon s) : Ends (execNpostWrite cl s) := by
  unfold Machine.execNpostWrite
  refine .next ?_
  split
  · exact h
  · exact .postNotice h

theorem Ends.execNoticeDeliver {cl : Nat} (h : Canon s) : Ends (execNoticeDeliver cl s) := by
  unfold Machine.execNoticeDeliver
  refine .next ?_
  split
  · exact h
  · split
    · exact h
    next x x s eq =>
      have h : Canon _ := (.takeArrived h : Given _ _) _ eq
      split
      · exact .platCount h
      · exact h

theorem Ends.execTranslationRequest {cl : Nat} (h : Canon s) : Ends (execTranslationRequest cl s) := by
  unfold Machine.execTranslationRequest
  refine .next ?_
  split
  · exact h
  · split
    · exact h
    next x x s eq =>
      have h : Canon _ := (.takeArrived h : Given _ _) _ eq
      split
      · exact .inject h
      · exact h

theorem Ends.execTranslationReply {core : Nat} (h : Canon s) : Ends (execTranslationReply core s) := by
  unfold Machine.execTranslationReply
  dsimp only
  refine .next ?_
  split
  · exact h
  next x x s eq =>
    have h : Canon _ := (.takeArrived h : Given _ _) _ eq
    split
    · split
      · exact .missDone (.xrepLate h)
      · split <;> exact .missDone (.xrepLate h)
    · exact h

theorem Ends.execTlbShootdown {core : Nat} (h : Canon s) : Ends (execTlbShootdown core s) := by
  unfold Machine.execTlbShootdown
  refine .next ?_
  split
  · exact h
  next x4 x5 s6 eq7 =>
    have h8 : Canon _ := (.takeArrived h : Given _ _) _ eq7
    split
    · split
      · exact h
      · exact .reply h8
    · exact h

theorem Ends.execClbShootdown {core : Nat} (h : Canon s) : Ends (execClbShootdown core s) := by
  unfold Machine.execClbShootdown
  dsimp only
  refine .next ?_
  split
  · exact h
  next x4 x5 s6 eq7 =>
    have h8 : Canon _ := (.takeArrived h : Given _ _) _ eq7
    split
    · split
      · exact h
      · exact .reply h8
    · exact h

theorem Ends.execSyncDeadline {unit idx : Nat} (h : Canon s) : Ends (execSyncDeadline unit idx s) := by
  unfold Machine.execSyncDeadline
  refine .next ?_
  split
  · split
    · exact .parkedReply (.unpark h)
    · exact h
  · exact h

theorem Ends.execBarDeadline {unit idx : Nat} (h : Canon s) : Ends (execBarDeadline unit idx s) := by
  unfold Machine.execBarDeadline
  refine .next ?_
  split
  · split
    · exact .parkedReply (.unpark h)
    · exact h
  · exact h

theorem Ends.execParkDeadline {unit idx : Nat} (h : Canon s) : Ends (execParkDeadline unit idx s) := by
  unfold Machine.execParkDeadline
  refine .next ?_
  split
  · split
    · exact .sendEnqueue (.unpark h)
    · exact h
  · exact h

theorem Ends.execMessageArrival {core : Nat} (h : Canon s) : Ends (execMessageArrival core s) := by
  unfold Machine.execMessageArrival
  refine .next ?_
  split
  · exact h
  next x x s eq =>
    have h : Canon _ := (.takeArrived h : Given _ _) _ eq
    split
    · split
      · exact .reply (.homeNote h)
      · exact .reply h
    · exact h

theorem Ends.execQueueElementArrival {core : Nat} (h : Canon s) : Ends (execQueueElementArrival core s) := by
  unfold Machine.execQueueElementArrival
  refine .next ?_
  split
  · exact h
  next x x s eq =>
    have h : Canon _ := (.takeArrived h : Given _ _) _ eq
    split
    · split
      · exact .reply (.qPush (.homeNote h))
      · exact .reply h
    · exact h

theorem Ends.execLinkElementTransfer {core link : Nat} (h : Canon s) : Ends (execLinkElementTransfer core link s) := by
  unfold Machine.execLinkElementTransfer
  refine .next ?_
  split
  · exact h
  · split
    · exact h
    · split
      · exact h
      · exact .qPush h

theorem Ends.execPortReadTimeout {core slot : Nat} (h : Canon s) : Ends (execPortReadTimeout core slot s) := by
  unfold Machine.execPortReadTimeout
  refine .next ?_
  split
  · split
    · exact .takeTrap h
    · exact h
  · exact h

theorem Ends.execForwardPacket {core : Nat} (h : Canon s) : Ends (execForwardPacket core s) := by
  unfold Machine.execForwardPacket
  dsimp only
  refine .next ?_
  split
  next x x s eq =>
    have h : Canon _ := (.takeArrived h : Given _ _) _ eq
    split
    · split
      · exact .forwardTo h
      · exact .forwardEnd h
    · split
      · exact .forwardTo h
      · exact .forwardEnd h
    · exact h
  · split
    next x x s eq =>
      have h : Canon _ := (.takeArrived h : Given _ _) _ eq
      split
      · split
        · exact .forwardTo h
        · exact .forwardEnd h
      · split
        · exact .forwardTo h
        · exact .forwardEnd h
      · exact h
    · exact h

theorem Ends.execForwardExpiry {core idx : Nat} (h : Canon s) : Ends (execForwardExpiry core idx s) := by
  unfold Machine.execForwardExpiry
  refine .next ?_
  split
  · split <;> exact h
  · exact h

theorem Ends.execMigrationArrival {core : Nat} (h : Canon s) : Ends (execMigrationArrival core s) := by
  unfold Machine.execMigrationArrival
  dsimp only
  refine .next ?_
  split
  · exact h
  next x x s eq =>
    have h : Canon _ := (.takeArrived h : Given _ _) _ eq
    split
    · split
      · exact h
      · exact .answer (.intoSlot h)
    · exact h

theorem Ends.execWaiterDeadline {cl idx : Nat} (h : Canon s) : Ends (execWaiterDeadline cl idx s) := by
  unfold Machine.execWaiterDeadline
  refine .next ?_
  split
  · exact h
  · split
    · exact h
    · split
      · exact h
      · exact .wakeOne (.dropWaiter h)

theorem Ends.execWakeDeliver {core : Nat} (h : Canon s) : Ends (execWakeDeliver core s) := by
  unfold Machine.execWakeDeliver
  refine .next ?_
  split
  · exact h
  next x x s eq =>
    have h : Canon _ := (.takeArrived h : Given _ _) _ eq
    split
    · exact .wakeOf h
    · exact h

theorem Ends.execWfcEdge {cl : Nat} (h : Canon s) : Ends (execWfcEdge cl s) := by
  unfold Machine.execWfcEdge
  refine .next ?_
  split
  · exact h
  next x x s eq =>
    have h : Canon _ := (.takeArrived h : Given _ _) _ eq
    split
    · split
      · exact h
      · exact .wfcAsk h
    · exact h

theorem Ends.execWfcQuery {cl : Nat} (h : Canon s) : Ends (execWfcQuery cl s) := by
  unfold Machine.execWfcQuery
  refine .next ?_
  split
  · exact h
  next x x s eq =>
    have h : Canon _ := (.takeArrived h : Given _ _) _ eq
    split
    · exact .answer h
    · exact h

theorem Ends.execWfcQueryReply {cl : Nat} (h : Canon s) : Ends (execWfcQueryReply cl s) := by
  unfold Machine.execWfcQueryReply
  dsimp only
  refine .next ?_
  split
  · exact h
  next x x s eq =>
    have h : Canon _ := (.takeArrived h : Given _ _) _ eq
    split
    · split
      · split
        · exact .platCount h
        · split
          · exact .wfcCycle (.platCount h)
          · split
            · exact .wfcAsk (.platCount h)
            · exact .platCount h
      · exact .platCount h
    · exact .platCount h

theorem Ends.execTileEvaluate {cl : Nat} (h : Canon s) : Ends (execTileEvaluate cl s) := by
  unfold Machine.execTileEvaluate
  dsimp only
  refine .next ?_
  split
  · exact h
  · split
    · exact h
    · split
      · exact .endTask h
      · split
        · exact .endTask h
        · exact .forceNext h

theorem Ends.execOperandReply {cl : Nat} (h : Canon s) : Ends (execOperandReply cl s) := by
  unfold Machine.execOperandReply
  refine .next ?_
  split
  · exact h
  · split
    · exact h
    next x x s eq =>
      have h : Canon _ := (.takeArrived h : Given _ _) _ eq
      split
      · exact .operandGot (.platCount h)
      · exact .operandGot (.platCount h)
      · exact .platCount h

theorem Ends.execStagingComplete {cl : Nat} {block : Nat × Nat} (h : Canon s) : Ends (execStagingComplete cl block s) := by
  unfold Machine.execStagingComplete
  dsimp only
  refine .next ?_
  split
  · exact h
  · split
    · exact h
    · split
      · exact h
      · split
        · exact h
        · exact .stageAt (.platAdd (.lateOfN (.markKeys (.lineNotes h))))

theorem Ends.execTileDispatch {cl : Nat} (h : Canon s) : Ends (execTileDispatch cl s) := by
  unfold Machine.execTileDispatch
  refine .next ?_
  split
  · exact h
  · split
    · exact h
    · split <;> exact h

theorem Ends.execTaskComplete {cl engine : Nat} (h : Canon s) : Ends (execTaskComplete cl engine s) := by
  unfold Machine.execTaskComplete
  dsimp only
  refine .next ?_
  split
  · exact h
  · split
    · exact h
    · split
      · exact .taskMiss h
      · split
        · exact .taskFault (.tkReads h)
        · split
          · exact h
          · split
            · exact .taskFault (.destSome (.tkReads (.lineNotes h)))
            · split
              · exact .taskFault (.destSome (.tkReads (.lineNotes h)))
              next x s eq =>
                have h : Canon _ := (.destAll (.tkReads (.lineNotes h)) : Yields _ _) _ eq
                exact .endTask h

theorem Ends.execTaskEngineFault {cl engine : Nat} {cause : BitVec 8} (h : Canon s) : Ends (execTaskEngineFault cl engine cause s) := by
  unfold Machine.execTaskEngineFault
  dsimp only
  refine .next ?_
  split
  · exact h
  · split
    · exact h
    · split
      · exact .taskFault (.tkReads h)
      · split
        · exact h
        · exact .taskFault (.destSome (.tkReads (.lineNotes h)))

theorem Ends.execSparkTake {cl : Nat} (h : Canon s) : Ends (execSparkTake cl s) := by
  unfold Machine.execSparkTake
  refine .next ?_
  split
  · exact h
  · split
    · exact h
    · exact .tellBead h

theorem Ends.execCoordAtAgent {cl : Nat} (h : Canon s) : Ends (execCoordAtAgent cl s) := by
  unfold Machine.execCoordAtAgent
  refine .next ?_
  split
  next x1 x2 s3 eq4 =>
    have h5 : Canon _ := (.agentNext h : Given _ _) _ eq4
    split
    · exact .agentOp h5
    · exact h
  · exact h

theorem Ends.execCinvReload {cl : Nat} (h : Canon s) : Ends (execCinvReload cl s) := by
  unfold Machine.execCinvReload
  dsimp only
  refine .next ?_
  split
  next x1 x2 s3 eq4 =>
    have h5 : Canon _ := (.agentNext h : Given _ _) _ eq4
    split
    · split
      next x11 s12 eq13 =>
        have h14 : Canon _ := (.cinvOp (.homeNote h5) : Yields _ _) _ eq13
        exact h14
      · exact .reply (.homeNote h5)
    · exact .reply (.rgInstall (.homeNote h5))
    · exact h
  · exact h

theorem Ends.execEngineTicketComplete {core idx : Nat} (h : Canon s) : Ends (execEngineTicketComplete core idx s) := by
  unfold Machine.execEngineTicketComplete
  refine .next (.ite h ?_)
  split
  · exact h
  · dsimp only
    split
    · exact .cmdMiss h
    · refine .ite h ?_
      split
      next s1 late cause eq => exact .cmdEnd (Given.runPlan (s := modCore _ _ _) h _ eq)
      · exact h

theorem Ends.execRqOperation {cl : Nat} (h : Canon s) : Ends (execRqOperation cl s) := by
  unfold Machine.execRqOperation
  refine .next ?_
  split
  · exact h
  · split
    · exact h
    next x x s eq =>
      have h : Canon _ := (.takeFirst h : Given _ _) _ eq
      split
      · split
        · exact .rqInit h
        · exact .rqGet h
        · exact .rqDone h
      · exact h

theorem Ends.execRqCommitDone {cl entry : Nat} (h : Canon s) : Ends (execRqCommitDone cl entry s) := by
  unfold Machine.execRqCommitDone
  dsimp only
  refine .next ?_
  split
  · exact h
  · split
    · exact .inject (.lineNotes (.egPut h))
    · exact .lineNotes (.egPut h)

theorem Ends.execRqgetTimeout {cl idx : Nat} (h : Canon s) : Ends (execRqgetTimeout cl idx s) := by
  unfold Machine.execRqgetTimeout
  refine .next ?_
  split
  · exact h
  · split
    · split
      · exact h
      · exact .rqAnswer h
    · exact h

theorem Ends.execCarryArrival {cl : Nat} (h : Canon s) : Ends (execCarryArrival cl s) := by
  unfold Machine.execCarryArrival
  refine .next ?_
  split
  · exact h
  · split
    · exact h
    next x x s eq =>
      have h : Canon _ := (.takeArrived h : Given _ _) _ eq
      split
      · split
        · exact h
        · exact .carryDeposit h
      · exact h

theorem Ends.execCarryDepositDone {cl : Nat} (h : Canon s) : Ends (execCarryDepositDone cl s) := by
  unfold Machine.execCarryDepositDone
  dsimp only
  refine .next ?_
  split
  · exact h
  · split
    · exact h
    next x x s eq =>
      have h : Canon _ := (.takeArrived h : Given _ _) _ eq
      split
      · split
        · exact .depositAck (.platCount h)
        · exact .platCount h
      · exact h

theorem Ends.execCarryCountReply {cl : Nat} (h : Canon s) : Ends (execCarryCountReply cl s) := by
  unfold Machine.execCarryCountReply
  dsimp only
  refine .next ?_
  split
  · exact h
  · split
    · exact h
    next x x s eq =>
      have h : Canon _ := (.takeArrived h : Given _ _) _ eq
      split
      · split
        · exact .platCount h
        · split
          · exact .carryBead (.platCount h)
          · split
            · exact .carryDemand (.platCount h)
            · exact .wakeCarry (.platCount h)
            · exact .platCount h
      · exact h

theorem Ends.execCarryReturn {core : Nat} (h : Canon s) : Ends (execCarryReturn core s) := by
  unfold Machine.execCarryReturn
  dsimp only
  refine .next ?_
  split
  · exact h
  · split
    · exact h
    next x x s eq =>
      have h : Canon _ := (.takeArrived h : Given _ _) _ eq
      split
      · split
        · exact h
        · exact .intoSlot (.carryRow (.lineNotesOf h))
      · exact h

theorem Ends.execCoreParityError {core : Nat} (h : Canon s) : Ends (execCoreParityError core s) := by
  unfold Machine.execCoreParityError
  refine .next ?_
  split
  · exact h
  · exact .redispatch (.foldl (.foldl (.dropConts (.foldl h fun s _ h => .teardown h)) fun s x h => .rerunRoot h) fun s _ h => h)

theorem Ends.execRmap {d a b : BitVec 7} (h : Canon s) : Ends (execRmap d a b s) := by
  unfold Machine.execRmap
  refine .thr h fun _ h1 => .bind .chk fun _ _ => ?_
  split
  · exact .bind (P := fun r => Canon r.1) (.pure h1) fun ⟨s7, x9, x8⟩ h10 => .bind (.remapIdx h10) fun ⟨s11, x13, x12⟩ h14 =>
      .bind (.writeR h14) fun s15 h16 => .pure h16
  · exact .bind (.readR h1) fun ⟨s19, x20⟩ h21 => .bind (.readR h21) fun ⟨s22, x23⟩ h24 => .bind (P := fun r =>
      Canon r.1) (.pure h24) fun ⟨s25, x27, x26⟩ h28 => .bind (.remapIdx h28) fun ⟨s29, x31, x30⟩ h32 =>
      .bind (.writeR h32) fun s33 h34 => .pure h34

theorem Ends.execBar {a : BitVec 7} {i : BitVec 11} (h : Canon s) : Ends (execBar a i s) := by
  unfold Machine.execBar
  refine .thr h fun _ h => .bind .chk fun _ _ => ?_
  split
  · exact .trapX
  · exact .pure h
  · refine .bind .aligned fun _ _ => .bind .place fun _ _ => ?_
    split
    · split
      · exact .trapX
      · exact .bind .release fun _ _ => .sendWait h
    · exact .trapX

theorem Ends.execBk {k : BitVec 3} {n : BitVec 1} {o : BitVec 18} (h : Canon s) : Ends (execBk k n o s) := by
  unfold Machine.execBk
  refine .thr h fun _ h => .pure ?_
  split <;> exact h

theorem Ends.execTlwait {a : BitVec 7} {l : BitVec 4} (h : Canon s) : Ends (execTlwait a l s) := by
  unfold Machine.execTlwait
  refine .thr h fun _ h => ?_
  split
  · refine .bind (.ringLate h) fun _ _ => .bind .chk fun _ _ => .bind .await fun _ _ => ?_
    split
    · exact .bind (.report h) fun _ _ => .trapX
    · exact .bind .await fun _ _ => .bind (.report h) fun _ _ => .pure h
  · refine .bind .chk fun _ _ => .bind .await fun _ _ => ?_
    split
    · exact .bind (.report h) fun _ _ => .trapX
    · exact .bind .await fun _ _ => .bind (.report h) fun _ _ => .pure h

theorem Ends.execVredfadd {d a : BitVec 4} {k : BitVec 3} {z : BitVec 1} {l : BitVec 2} (h : Canon s) : Ends (execVredfadd d a k z l s) :=
  .vthr h fun _ _ h => .seeded (.flagged (.vecSet h))

theorem Ends.execVqnt {d a q : BitVec 4} {k : BitVec 3} {l : BitVec 2} (h : Canon s) : Ends (execVqnt d a q k l s) :=
  .vthr h fun _ _ h => .flagged (.vecSet h)

theorem Ends.execVdqnt {d a q : BitVec 4} {k : BitVec 3} {z : BitVec 1} {l : BitVec 2} (h : Canon s) : Ends (execVdqnt d a q k z l s) := by
  unfold Machine.execVdqnt
  refine .thr h fun e h => .bind (.ringGate h) fun _ _ => .bind .chk fun _ _ => .bind (.takeRing h h) fun ⟨s, n⟩ h => ?_
  have h1 : Canon (setRing s e.t n .done) := h
  extract_lets va entry
  clear_value va entry
  refine .ite ?_ (.pure h)
  exact .pure (.finished (.putLanes h1))

theorem Ends.execBaddq {d a b : BitVec 4} {l : BitVec 1} (h : Canon s) : Ends (execBaddq d a b l s) :=
  .vthr h fun _ _ h => .seeded (.flagged (.vecSet h))

theorem Ends.execCinv {a : BitVec 7} (h : Canon s) : Ends (execCinv a s) := by
  unfold Machine.execCinv
  refine .thr h fun _ h => .bind .chk fun _ _ => ?_
  split
  · exact .pure h
  · exact .walkStop
  · exact .cond
  · exact .bind (.readR h) fun ⟨s, x⟩ h => .bind .need fun _ _ => .sendWait h

theorem Ends.execSpawn {a b : BitVec 7} (h : Canon s) : Ends (execSpawn a b s) := by
  unfold Machine.execSpawn
  dsimp only
  refine .thr h fun _ h => .bind (.drainLate h) fun _ _ => ?_
  split
  · refine .bind (P := fun _ => True) .illegal fun _ _ => .bind .chk fun _ _ => .bind .need fun _ _ => .bind .roomX fun _ _ => ?_
    split
    · exact .trapX
    · exact .bind .need fun _ _ => .bind (.drain h) fun _ _ => .bind .await fun _ _ => .bind .homeKey fun _ _ =>
        .bind (.storeX h) fun s h => .bind (.storeX h) fun s h =>
        .pure (.sendInfl (.regSet (.regSet (.newCont (.dequeNote (.dequePush (.noteCont h)))))))
  · refine .bind .chk fun _ _ => .bind .need fun _ _ => .bind .roomX fun _ _ => ?_
    split
    · exact .trapX
    · exact .bind .need fun _ _ => .bind (.drain h) fun _ _ => .bind .await fun _ _ => .bind .homeKey fun _ _ =>
        .bind (.storeX h) fun s h => .bind (.storeX h) fun s h =>
        .pure (.sendInfl (.regSet (.regSet (.newCont (.dequeNote (.dequePush (.noteCont h)))))))

theorem Ends.execRetc (h : Canon s) : Ends (execRetc s) := by
  unfold Machine.execRetc
  dsimp only
  refine .thr h fun _ h1 => ?_
  split
  · refine .syncBody h1 fun s3 h4 => .bind (.exitChecks h1) fun _ _ => ?_
    split
    · exact .pure (.endSlot h4)
    · exact .bind .homeKey fun _ _ => .pure (.endSlot (.send h4))
  · refine .bind (.exitChecks h1) fun _ _ => ?_
    split
    · exact .pure (.endSlot h1)
    · exact .bind .homeKey fun _ _ => .pure (.endSlot (.send h1))

theorem Ends.execYield (h : Canon s) : Ends (execYield s) := by
  unfold Machine.execYield
  refine .thr h fun _ h => .bind (.suspendChecks h) fun _ _ => .bind (.drain h) fun _ _ => .bind (.writeOut h) fun s h => ?_
  split
  · exact .pure h
  · exact .pure (.sendEnqueue (.leave h))

theorem Ends.execPark {a b : BitVec 7} (h : Canon s) : Ends (execPark a b s) := by
  unfold Machine.execPark
  refine .thr h fun _ h1 => .bind (.suspendFirst h1) fun _ _ => .bind .chk fun _ _ => ?_
  split
  · exact .pure h1
  · exact .pure (.leave h1)
  · exact .trapX
  · exact .cond
  · refine .bind (.readR h1) fun ⟨s18, x19⟩ h20 => .bind .aligned fun _ _ => .bind .place fun _ _ => ?_
    split
    · split
      · exact .bind (P := fun _ => True) .trapX fun _ _ => .bind .roomX fun _ _ => .bind (.drain h1) fun _ _ =>
          .bind (.readR h20) fun ⟨s26, x27⟩ h28 => .bind (.writeOut h28) fun s29 h30 => .sendWait (.noteLeft h30)
      · exact .bind .roomX fun _ _ => .bind (.drain h1) fun _ _ => .bind (.readR h20) fun ⟨s32, x33⟩ h34 =>
          .bind (.writeOut h34) fun s35 h36 => .sendWait (.noteLeft h36)
    · exact .trapX

theorem Ends.execTnew {a b : BitVec 7} (h : Canon s) : Ends (execTnew a b s) := by
  unfold Machine.execTnew
  refine .thr h fun _ h => .bind .chk fun _ _ => .bind (.readR h) fun ⟨s, x⟩ h => .bind (.readR h) fun ⟨s, x⟩ h => .bind .need fun _ _ => ?_
  split
  · exact .trapX
  · exact .bind (.storeX h) fun s h => .pure (.sendEnqueue (.newCont h))

theorem Ends.execTexit (h : Canon s) : Ends (execTexit s) := by
  unfold Machine.execTexit
  dsimp only
  refine .thr h fun _ h1 => .bind (.exitLate h1) fun _ _ => ?_
  split
  · refine .bind (P := fun _ => True) .illegal fun _ _ => .bind .need fun _ _ => ?_
    split
    · exact .syncBody h1 (fun s4 h5 => .bind (.exitChecks h1) fun _ _ => .pure (.endSlot h5))
    · exact .bind (.exitChecks h1) fun _ _ => .pure (.endSlot h1)
  · refine .bind .need fun _ _ => ?_
    split
    · exact .syncBody h1 (fun s9 h10 => .bind (.exitChecks h1) fun _ _ => .pure (.endSlot h10))
    · exact .bind (.exitChecks h1) fun _ _ => .pure (.endSlot h1)

theorem Ends.execSusp {a : BitVec 7} (h : Canon s) : Ends (execSusp a s) := by
  unfold Machine.execSusp
  refine .thr h fun _ h1 => .bind (.suspendFirst h1) fun _ _ => .bind .chk fun _ _ => ?_
  split
  · exact .pure (.regSet h1)
  · exact .pure (.leave h1)
  · exact .trapX
  · exact .cond
  · refine .bind (.readR h1) fun ⟨s19, x20⟩ h21 => .bind .aligned fun _ _ => .bind .place fun _ _ => ?_
    split
    · split
      · exact .bind (P := fun _ => True) .trapX fun _ _ => .bind .homeKey fun _ _ => .bind .roomX fun _ _ => .bind (.drain h1) fun _ _ =>
          .bind (.writeOut h21) fun s27 h28 => .sendWait (.noteLeft h28)
      · exact .bind .homeKey fun _ _ => .bind .roomX fun _ _ => .bind (.drain h1) fun _ _ => .bind (.writeOut h21) fun s30 h31 =>
          .sendWait (.noteLeft h31)
    · exact .trapX

theorem Ends.execResume {d a b : BitVec 7} (h : Canon s) : Ends (execResume d a b s) := by
  unfold Machine.execResume
  refine .thr h fun _ h => .bind .chk fun _ _ => ?_
  split
  · exact .bind (.writeR h) fun s h => .pure h
  · exact .trapX
  · exact .cond
  · refine .bind (.readR h) fun ⟨s, x⟩ h => .bind .aligned fun _ _ => .bind .place fun _ _ => ?_
    split
    · split
      · exact .bind (P := fun _ => True) .trapX fun _ _ => .bind .homeKey fun _ _ => .bind .release fun _ _ =>
          .bind (.readR h) fun ⟨s, x⟩ h => .sendWait h
      · exact .bind .homeKey fun _ _ => .bind .release fun _ _ => .bind (.readR h) fun ⟨s, x⟩ h => .sendWait h
    · exact .trapX

theorem Ends.execLnext {d a : BitVec 7} (h : Canon s) : Ends (execLnext d a s) := by
  unfold Machine.execLnext
  refine .thr h fun e h => .bind .chk fun _ _ => .bind (.opnd h) fun ⟨s, addr⟩ h => ?_
  dsimp -zeta only
  extract_lets held claim
  have hc s (h : Canon s) : Fine Canon (claim s) := by
    refine .bind .chk fun _ _ => ?_
    split
    · exact .nestClaim h
    · exact .trapX
    · exact .cond
    · refine .bind .place fun p _ => ?_
      split
      · refine .ite .trapX (.ite (.bind .localGate fun _ _ => ?_) (.sendWait h))
        split
        next eq => exact .nestClaim (.localNote (.fst (.lnextAt h) eq))
        next eq => exact .trapIn (.fst (.lnextAt h) eq)
        · exact .cond
      · exact .trapX
  split
  · exact hc _ h
  · exact .bind (.loadNest h) fun _ h => hc _ h

theorem Ends.execMigr {d a b : BitVec 7} (h : Canon s) : Ends (execMigr d a b s) := by
  unfold Machine.execMigr
  refine .thr h fun _ h1 => .bind (.suspendFirst h1) fun _ _ => .bind .chk fun _ _ => ?_
  split
  · exact .takeOutcome h1
  · exact .bind .need fun _ _ => .bind (.opnd h1) fun ⟨s7, x8⟩ h9 => .bind (.opnd h9) fun ⟨s10, x11⟩ h12 =>
      .bind (.cdRead h12) fun ⟨s13, x14⟩ h15 => .bind .need fun _ _ => .bind .need fun _ _ => .bind .need fun _ _ =>
      .bind .need fun _ _ => .bind (.drain h1) fun _ _ => .bind .beadAt fun _ _ => .bind .await fun _ _ =>
      .pure (.send (.noteCont (.rowRead (.lineNotesOf h15))))

theorem Ends.execMret {a b : BitVec 7} (h : Canon s) : Ends (execMret a b s) := by
  unfold Machine.execMret
  refine .thr h fun e he => ?_
  extract_lets perform
  have hp u : Fine Canon (perform u) := by
    unfold perform
    split
    · exact .illegal
    · refine .bind .chk fun _ _ => .bind (.opnd he) fun ⟨s, desc⟩ h => .bind (.opnd h) fun ⟨s, pos⟩ h => ?_
      dsimp -zeta only
      extract_lets send
      have hs u : Fine Canon (send u) := by
        refine .bind (.cdRead h) fun ⟨s, r⟩ h => .bind (.drain he) fun _ _ => ?_
        dsimp only
        split
        · exact .walkStop
        · exact .bind .await fun _ _ => .pure (.send (.foldl (.noteCont (.rowGather (.lineNotesOf h))) fun _ _ h => .freeArea h))
      clear_value send
      split
      · exact .bind (P := fun _ => True) .illegal fun u _ => hs u
      · exact hs ()
  clear_value perform
  split
  · exact .bind (.drainLate he) fun u _ => hp u
  · exact hp ()

theorem Ends.execHbind {a b : BitVec 7} (h : Canon s) : Ends (execHbind a b s) := by
  unfold Machine.execHbind
  dsimp only
  refine .thr h fun _ h => .bind .chk fun _ _ => .bind (.opnd h) fun ⟨s, x⟩ h => ?_
  split
  · exact .beadOnce h (fun _ => .pure h)
  · exact .bind .aligned fun _ _ => .bind (.readR h) fun ⟨s, x⟩ h => .bind .aligned fun _ _ => .bind .need fun _ _ =>
      .bind .release fun _ _ => .beadOnce h (fun _ => .pure h)

theorem Ends.execMprog {a b : BitVec 7} (h : Canon s) : Ends (execMprog a b s) := by
  unfold Machine.execMprog
  dsimp only
  refine .thr h fun _ h => .bind .chk fun _ _ => .bind (.opnd h) fun ⟨s, x⟩ h => .bind (.opnd h) fun ⟨s, x⟩ h => .bind .need fun _ _ => ?_
  refine .bind .aligned fun _ _ => .bind (.phaseRead h) fun ⟨s, x⟩ h => .bind (.phaseRead h) fun ⟨s, x⟩ h => ?_
  split
  · exact .pure h
  · exact .trapX
  · exact .cond
  · exact .bind .need fun _ _ => .sendWait h

theorem Ends.execRqinit {d a b : BitVec 7} (h : Canon s) : Ends (execRqinit d a b s) := by
  unfold Machine.execRqinit
  dsimp only
  refine .thr h fun _ h1 => .bind .chk fun _ _ => .bind (.opnd h1) fun ⟨s2, x3⟩ h4 => .bind (.opnd h4) fun ⟨s5, x6⟩ h7 => ?_
  refine .bind .aligned fun _ _ => .bind .rqWord fun x8 _ => .bind (.phaseRead64 h7) fun ⟨s9, x10⟩ h11 => ?_
  split
  · exact .rqReply h1
  · exact .bind .need fun _ _ => .rqSend h11

theorem Ends.execRqget {d a : BitVec 7} (h : Canon s) : Ends (execRqget d a s) := by
  unfold Machine.execRqget
  dsimp only
  refine .thr h fun _ h1 => .bind .chk fun _ _ => .bind (.opnd h1) fun ⟨s2, x3⟩ h4 => ?_
  split
  · exact .rqReply h1
  · exact .bind .rqWord fun x10 _ => .rqSend h4

theorem Ends.execRqdone {d a b : BitVec 7} (h : Canon s) : Ends (execRqdone d a b s) := by
  unfold Machine.execRqdone
  dsimp only
  refine .thr h fun _ h1 => .bind .chk fun _ _ => .bind (.opnd h1) fun ⟨s2, x3⟩ h4 => .bind (.opnd h4) fun ⟨s5, x6⟩ h7 => ?_
  split
  · exact .rqReply h1
  · exact .bind .rqWord fun x13 _ => .bind .need fun _ _ => .bind .release fun _ _ => .rqSend h7

theorem Ends.execQcfg {d a b : BitVec 7} (h : Canon s) : Ends (execQcfg d a b s) := by
  unfold Machine.execQcfg
  refine .thr h fun _ h => .bind .chk fun _ _ => .bind .need fun _ _ => .bind (.readR h) fun ⟨s, x⟩ h => .bind .need fun _ _ => ?_
  refine .bind ?_ fun s h => .pure h
  refine .writeR ?_
  split
  · exact .setFullAt (.qSet h)
  · exact .qSet h

theorem Ends.execQret (h : Canon s) : Ends (execQret s) := by
  unfold Machine.execQret
  refine .thr h fun _ h => ?_
  split
  · exact .illegal
  · exact .pure h

theorem Ends.execCsrrd {d : BitVec 7} {c : BitVec 11} (h : Canon s) : Ends (execCsrrd d c s) := by
  unfold Machine.execCsrrd
  dsimp only
  refine .thr h fun _ h => ?_
  split
  · refine .bind (P := fun _ => True) .illegal fun _ _ => .bind .chk fun _ _ => .bind .csrAllowed fun _ _ => .bind .csrWait fun _ _ => ?_
    refine .bind ?_ fun s h => .pure h
    refine .writeR ?_
    split <;> exact h
  · refine .bind .chk fun _ _ => .bind .csrAllowed fun _ _ => .bind .csrWait fun _ _ => .bind ?_ fun s h => .pure h
    refine .writeR ?_
    split <;> exact h

theorem Ends.execSyscall (h : Canon s) : Ends (execSyscall s) := by
  unfold Machine.execSyscall
  refine .thr h fun _ h => .bind .chk fun _ _ => ?_
  split
  · exact .bind .release fun _ _ => .bind .await fun _ _ => .pure (.sysCall h)
  · exact .trapIn h

theorem Ends.execEret (h : Canon s) : Ends (execEret s) := by
  unfold Machine.execEret
  refine .thr h fun _ h => ?_
  split
  · exact .bind (P := fun _ => True) .illegal fun _ _ => .pure h
  · exact .pure h

theorem Ends.execBrk (h : Canon s) : Ends (execBrk s) := by
  unfold Machine.execBrk
  refine .thr h fun _ h => ?_
  split
  · exact .keep (.hitBreak h)
  · exact .trapX

theorem Ends.execTlbw {a b : BitVec 7} (h : Canon s) : Ends (execTlbw a b s) := by
  unfold Machine.execTlbw
  refine .thr h fun e h => .bind .chk fun _ _ => .bind .svcOnly fun _ _ => .bind (.readR h) fun ⟨s, x⟩ h => .bind (.readR h) fun ⟨s, y⟩ h =>
    .bind .aligned fun _ _ => .bind .svcKey fun k _ => ?_
  split
  · exact .trapIn (.markRead h)
  · exact .trapX
  · extract_lets w ent t st rep send
    have hs u : Fine Canon (send u) := by
      refine .bind .await fun _ _ => ?_
      clear_value rep
      split
      · exact .pure (.inject (.of_mem h rfl))
      · exact .pure (.send h)
    clear_value send
    split
    · split
      · exact .bind (P := fun _ => True) .trapX fun _ _ => hs _
      · exact hs ()
    · exact hs ()

theorem Ends.execTlbi {d a b : BitVec 7} (h : Canon s) : Ends (execTlbi d a b s) := by
  unfold Machine.execTlbi
  refine .thr h fun _ h => .bind .chk fun _ _ => .bind .svcOnly fun _ _ => ?_
  split
  · exact .bind (.writeR h) fun s h => .pure h
  · exact .bind (.readR h) fun ⟨s, x⟩ h => .bind (.readR h) fun ⟨s, x⟩ h => .bind .need fun _ _ => .keep (.foldl h fun s _ h => .send h)

theorem Ends.execUpret (h : Canon s) : Ends (execUpret s) := by
  unfold Machine.execUpret
  refine .thr h fun _ h => ?_
  split
  · exact .bind (P := fun _ => True) .illegal fun _ _ => .pure h
  · exact .pure h

theorem Ends.execFetchFault {cause : BitVec 8} {addr : BitVec 64} (h : Canon s) : Ends (execFetchFault cause addr s) := by
  unfold Machine.execFetchFault
  refine .thr h fun _ h => ?_
  split
  · exact .upcall
  · exact .trapX

end Sys2Proof.Proofs
end

section
/-!
PROOFS. A step keeps memory in its canonical form: every instruction and device step, the fetch before it, and what follows it.
-/

namespace Sys2Proof.Proofs

open Sys2Proof.Machine Sys2Proof.Laws

variable {s t : State} {e : Env}

/-- What exec answers, for every thread instruction and every device step. -/
theorem Ends.exec {i : Instr} (h : Canon s) : Ends (exec i s) := by
  cases i with
  | i3cReadStatus | i3cReadTemperatures | i3cReadPackagePower | i3cReadIdentityKey => delta Machine.exec; exact .next (.i3cAnswer h)
  | i3cSetPowerLimit => delta Machine.exec; exact .execI3cSetPowerLimit h
  | i3cResetPackage => delta Machine.exec; exact .execI3cResetPackage h
  | i3cResetDie => delta Machine.exec; exact .execI3cResetDie h
  | assign => delta Machine.exec; exact .execAssign h
  | ctxnew => delta Machine.exec; exact .execCtxnew h
  | ctxend => delta Machine.exec; exact .execCtxend h
  | qbind => delta Machine.exec; exact .execQbind h
  | peer => delta Machine.exec; exact .execPeer h
  | keyInstall => delta Machine.exec; exact .execKeyInstall h
  | keyClear => delta Machine.exec; exact .execKeyClear h
  | signed => delta Machine.exec; exact .execSigned h
  | mode => delta Machine.exec; exact .execMode h
  | share => delta Machine.exec; exact .execShare h
  | trace => delta Machine.exec; exact .execTrace h
  | drain => delta Machine.exec; exact .execDrain h
  | attest => delta Machine.exec; exact .execAttest h
  | thread => delta Machine.exec; exact .execThread h
  | move => delta Machine.exec; exact .execMove h
  | postmap => delta Machine.exec; exact .execPostmap h
  | retrain => delta Machine.exec; exact .execRetrain h
  | resetDie => delta Machine.exec; exact .execResetDie h
  | resetPackage => delta Machine.exec; exact .execResetPackage h
  | power => delta Machine.exec; exact .execPower h
  | debugHalt => delta Machine.exec; exact .execDebugHalt h
  | debugResume => delta Machine.exec; exact .execDebugResume h
  | debugStep => delta Machine.exec; exact .execDebugStep h
  | debugSetBreakpoint => delta Machine.exec; exact .execDebugSetBreakpoint h
  | debugClearBreakpoint => delta Machine.exec; exact .execDebugClearBreakpoint h
  | debugCopyState => delta Machine.exec; exact .execDebugCopyState h
  | registerWrite => delta Machine.exec; exact .execRegisterWrite h
  | ringidxWrite => delta Machine.exec; exact .execRingidxWrite h
  | queueEnable => delta Machine.exec; exact .execQueueEnable h
  | queueDisable => delta Machine.exec; exact .execQueueDisable h
  | queueReset => delta Machine.exec; exact .execQueueReset h
  | scringConfig => delta Machine.exec; exact .execScringConfig h
  | scheadWrite => delta Machine.exec; exact .execScheadWrite h
  | syscallReply => delta Machine.exec; exact .execSyscallReply h
  | hostWindowAccess => delta Machine.exec; exact .execHostWindowAccess h
  | admitEntry => delta Machine.exec; exact .execAdmitEntry h
  | stampRetry => delta Machine.exec; exact .execStampRetry h
  | entryStart => delta Machine.exec; exact .execEntryStart h
  | imageLoad => delta Machine.exec; exact .execImageLoad h
  | entryComplete => delta Machine.exec; exact .next (.completeEntry h)
  | boot => delta Machine.exec; exact .execBoot h
  | supplyFault => delta Machine.exec; exact .execSupplyFault h
  | thermalThrottle => delta Machine.exec; exact .execThermalThrottle h
  | thermalShutdown => delta Machine.exec; exact .execThermalShutdown h
  | powerLimitUnmet => delta Machine.exec; exact .execPowerLimitUnmet h
  | powerLimitMet => delta Machine.exec; exact .execPowerLimitMet h
  | clockStep => delta Machine.exec; exact .execClockStep h
  | dieResetComplete => delta Machine.exec; exact .execDieResetComplete h
  | packageResetComplete => delta Machine.exec; exact .execPackageResetComplete h
  | slackTick => delta Machine.exec; exact .execSlackTick h
  | packetLate => delta Machine.exec; exact .next h
  | routerForward => delta Machine.exec; exact .execRouterForward h
  | routerIdle => delta Machine.exec; exact .execRouterIdle h
  | routerPowerdownDone => delta Machine.exec; exact .execRouterPowerdownDone h
  | tokenAtWriter => delta Machine.exec; exact .execTokenAtWriter h
  | tokenAtHome => delta Machine.exec; exact .execTokenAtHome h
  | bridgeForward => delta Machine.exec; exact .execBridgeForward h
  | directPathForward => delta Machine.exec; exact .execDirectPathForward h
  | homeEnqueue => delta Machine.exec; exact .execHomeEnqueue h
  | homePerform | syncAccessAtOwner | withdrawal | barArrival | parkAtHome | lnextClaim | joinUpdate | resumeCellOp
  | beadRequest | sparkClaim | beadCompletion | beadCompletionPoisoned | beadEngineFault | operandFailure
  | deathNotice => delta Machine.exec; exact .next (.homeServe h)
  | replayTimeout => delta Machine.exec; exact .execReplayTimeout h
  | replyDeliver => delta Machine.exec; exact .execReplyDeliver h
  | lateTrap => delta Machine.exec; exact .execLateTrap h
  | iterativeUnitDone => delta Machine.exec; exact .execIterativeUnitDone h
  | vectorDeferredResult => delta Machine.exec; exact .execVectorDeferredResult h
  | fabricTransmit => delta Machine.exec; exact .execFabricTransmit h
  | codewordReceive => delta Machine.exec; exact .execCodewordReceive h
  | flitReceive => delta Machine.exec; exact .execFlitReceive h
  | ackReceive => delta Machine.exec; exact .execAckReceive h
  | nakReceive => delta Machine.exec; exact .execNakReceive h
  | trainingFlitReceive => delta Machine.exec; exact .execTrainingFlitReceive h
  | lockHoldExpiry => delta Machine.exec; exact .execLockHoldExpiry h
  | markersAligned => delta Machine.exec; exact .execMarkersAligned h
  | fecCodewordCount => delta Machine.exec; exact .execFecCodewordCount h
  | trainingTimeout => delta Machine.exec; exact .execTrainingTimeout h
  | fecLockLoss => delta Machine.exec; exact .next (.retrain h)
  | nakRateExceeded => delta Machine.exec; exact .execNakRateExceeded h
  | fibreLockLoss => delta Machine.exec; exact .execFibreLockLoss h
  | slotTake => delta Machine.exec; exact .execSlotTake h
  | stealSearch => delta Machine.exec; exact .execStealSearch h
  | stealRequest => delta Machine.exec; exact .execStealRequest h
  | stealReply => delta Machine.exec; exact .execStealReply h
  | enqueueContinuation => delta Machine.exec; exact .execEnqueueContinuation h
  | injectionAge => delta Machine.exec; exact .execInjectionAge h
  | urgentArrival => delta Machine.exec; exact .execUrgentArrival h
  | evictWrite => delta Machine.exec; exact .execEvictWrite h
  | npostWrite => delta Machine.exec; exact .execNpostWrite h
  | noticeDeliver => delta Machine.exec; exact .execNoticeDeliver h
  | translationRequest => delta Machine.exec; exact .execTranslationRequest h
  | translationReply => delta Machine.exec; exact .execTranslationReply h
  | tlbShootdown => delta Machine.exec; exact .execTlbShootdown h
  | clbShootdown => delta Machine.exec; exact .execClbShootdown h
  | syncDeadline => delta Machine.exec; exact .execSyncDeadline h
  | barDeadline => delta Machine.exec; exact .execBarDeadline h
  | parkDeadline => delta Machine.exec; exact .execParkDeadline h
  | messageArrival => delta Machine.exec; exact .execMessageArrival h
  | queueElementArrival => delta Machine.exec; exact .execQueueElementArrival h
  | linkElementTransfer => delta Machine.exec; exact .execLinkElementTransfer h
  | portReadTimeout => delta Machine.exec; exact .execPortReadTimeout h
  | forwardPacket => delta Machine.exec; exact .execForwardPacket h
  | forwardExpiry => delta Machine.exec; exact .execForwardExpiry h
  | migrationArrival => delta Machine.exec; exact .execMigrationArrival h
  | waiterDeadline => delta Machine.exec; exact .execWaiterDeadline h
  | wakeDeliver => delta Machine.exec; exact .execWakeDeliver h
  | wfcEdge => delta Machine.exec; exact .execWfcEdge h
  | wfcQuery => delta Machine.exec; exact .execWfcQuery h
  | wfcQueryReply => delta Machine.exec; exact .execWfcQueryReply h
  | tileEvaluate => delta Machine.exec; exact .execTileEvaluate h
  | operandReply => delta Machine.exec; exact .execOperandReply h
  | stagingComplete => delta Machine.exec; exact .execStagingComplete h
  | tileDispatch => delta Machine.exec; exact .execTileDispatch h
  | taskComplete => delta Machine.exec; exact .execTaskComplete h
  | taskEngineFault => delta Machine.exec; exact .execTaskEngineFault h
  | sparkTake => delta Machine.exec; exact .execSparkTake h
  | coordAtAgent => delta Machine.exec; exact .execCoordAtAgent h
  | cinvReload => delta Machine.exec; exact .execCinvReload h
  | engineTicketComplete => delta Machine.exec; exact .execEngineTicketComplete h
  | routePerform | pselPerform => delta Machine.exec; exact .next (.rankRun h)
  | rqOperation => delta Machine.exec; exact .execRqOperation h
  | rqCommitDone => delta Machine.exec; exact .execRqCommitDone h
  | rqgetTimeout => delta Machine.exec; exact .execRqgetTimeout h
  | carryArrival => delta Machine.exec; exact .execCarryArrival h
  | carryDepositDone => delta Machine.exec; exact .execCarryDepositDone h
  | carryCountReply => delta Machine.exec; exact .execCarryCountReply h
  | carryReturn => delta Machine.exec; exact .execCarryReturn h
  | coreParityError => delta Machine.exec; exact .execCoreParityError h
  | add | sub | and | or | xor | andn | orn | xnor | sll | srl | sra | rol | ror | min | max | minn | maxn | mul
  | mulh | mulhn | mulhsn | sext | zext | addw | subw | bfx | bfxn | shadd1 | shadd2 | shadd3 | hash | addFh | subFh
  | mulFh | andFh | orFh | xorFh | sllFh | srlFh | sraFh | minFh | maxFh => delta Machine.exec; exact .alu2 h
  | div | divn | rem | remn => delta Machine.exec; exact .divOp h
  | clz | ctz | popc | addi | andi | ori | xori | slli | srli | srai | roli | muli | cvtw2d | movFh | addiFh | slliFh =>
    delta Machine.exec; exact .alu1 h
  | bfi => delta Machine.exec; exact .alu3 h
  | rmap => delta Machine.exec; exact .execRmap h
  | clin | cunl => delta Machine.exec; exact .linOp h
  | cmpeq | cmpne | cmplt | cmpge | cmpltn | cmpgen | btst => delta Machine.exec; exact .cmp2 h
  | sel => delta Machine.exec; exact .thr h (fun _ h1 => .bind .chk fun _ _ => .bind (.readR h1) fun ⟨s2, x3⟩ h4 =>
    .bind (.readR h4) fun ⟨s5, x6⟩ h7 => .bind (.writeR h7) fun s8 h9 => .pure h9)
  | cmpeqi | cmpnei | cmplti | cmpgei | cmpltni | cmpgeni | btsti => delta Machine.exec; exact .cmp1 h
  | bar => delta Machine.exec; exact .execBar h
  | addpc | li => delta Machine.exec; exact .alu0 h
  | lis | feat => delta Machine.exec; exact .thr h (fun _ h1 => .bind .chk fun _ _ => .bind (.readR h1) fun ⟨s2, x3⟩ h4 =>
    .bind (.writeR h4) fun s5 h6 => .pure h6)
  | beqz | bnez | bltz | bgez | bgtz | blez => delta Machine.exec; exact .branch h
  | bk => delta Machine.exec; exact .execBk h
  | jal | kpopc | kfirst | ktog => delta Machine.exec; exact .thr h (fun _ h1 => .bind .chk fun _ _ => .bind (.writeR h1) fun s2 h3 =>
    .pure h3)
  | jalr | seqq => delta Machine.exec; exact .thr h (fun _ h1 => .bind .chk fun _ _ => .bind (.readR h1) fun ⟨s2, x3⟩ h4 =>
    .bind .need fun _ _ => .bind (.writeR h4) fun s5 h6 => .pure h6)
  | ld | ldn => delta Machine.exec; exact .ldOp h
  | st => delta Machine.exec; exact .thr h (fun _ h1 => .bind .chk fun _ _ => .storeFrom h1)
  | ldx | ldxn => delta Machine.exec; exact .ldxOp h
  | stx => delta Machine.exec; exact .thr h (fun _ h1 => .bind .chk fun _ _ => .bind (.indexed h1) fun ⟨s2, x4, x3⟩ h5 => .storeFrom h5)
  | lds => delta Machine.exec; exact .ldsOp h
  | sts | stsf => delta Machine.exec; exact .stsOp h
  | amoadd | amoand | amoor | amoxor | amomin | amomax | amominn | amomaxn | amoswp | amocas | amofadds | amofaddd
  | feqry | feset | feclr => delta Machine.exec; exact .amoOp h
  | fence => delta Machine.exec; exact .thr h (fun _ h1 => .bind .await fun _ _ => .bind .await fun _ _ => .bind .await fun _ _ =>
    .bind .await fun _ _ => .bind .await fun _ _ => .bind (.report h1) fun _ _ => .pure h1)
  | wait => delta Machine.exec; exact .thr h (fun _ h1 => .bind .await fun _ _ => .bind (.report h1) fun _ _ => .pure h1)
  | tlwait => delta Machine.exec; exact .execTlwait h
  | vadd | vsub | vmul | vmulh | vmulhn | vand | vor | vxor | vsll | vsrl | vsra | vmin | vmax | vminn | vmaxn
  | vsadd | vssub | vsaddn | vssubn | vabs | vneg | vma | vpopc | vclz | vaddFh | vsubFh | vmulFh | vandFh | vorFh
  | vxorFh | vsllFh | vsrlFh | vsraFh | vminFh | vmaxFh => delta Machine.exec; exact .vint h
  | vfadd | vfsub | vfmul | vfma | vfmin | vfmax | vfabs | vfneg | vfaddFh | vfmulFh => delta Machine.exec; exact .vflt h
  | vfdiv | vfsqrt | vfrcp | vfrsq | vfexp2 | vflog2 => delta Machine.exec; exact .vdefer h
  | vcmpeq | vcmpne | vcmplt | vcmpge | vcmpltn | vcmpgen | vfcmpeq | vfcmplt | vfcmple | vfcmpun => delta Machine.exec; exact .vcmp h
  | vsel | vcompress | vexpand | vscan | vdot | vbexp => delta Machine.exec; exact .vthr h (fun _ s1 h2 => .vecSet h2)
  | vperm | vslideup | vslidedn | vmov | vmovFh => delta Machine.exec; exact .vmove h
  | vredadd | vredmin | vredmax | vredminn | vredmaxn | vredfmin | vredfmax => delta Machine.exec; exact .vred h
  | vredfadd => delta Machine.exec; exact .execVredfadd h
  | vfscan | vbsc => delta Machine.exec; exact .vthr h (fun _ s1 h2 => .putLanes h2)
  | vcvtf2b | vcvtb2f | vcvtf2h | vcvth2f | vcvtf2e4 | vcvte42f | vcvtf2e5 | vcvte52f | vcvtf2w | vcvtw2f | vcvtw2i8
  | vcvti82w | vcvtw2i4 | vcvti42w | vcvtd2f | vcvtf2d => delta Machine.exec; exact .vcvt h
  | vqnt => delta Machine.exec; exact .execVqnt h
  | vdqnt => delta Machine.exec; exact .execVdqnt h
  | baddq => delta Machine.exec; exact .execBaddq h
  | vld | vlds | vgath => delta Machine.exec; exact .vloadOp h
  | vst | vsts | vscat => delta Machine.exec; exact .vstoreOp h
  | vldf => delta Machine.exec; exact .vldfOp h
  | kand | kor | kxor | kandn | knot | kmov => delta Machine.exec; exact .kop h
  | kfromg => delta Machine.exec; exact .thr h (fun _ h1 => .bind .chk fun _ _ => .bind (.readR h1) fun ⟨s2, x3⟩ h4 => .pure h4)
  | faddF32 | fsubF32 | fmulF32 | faddF64 | fsubF64 | fmulF64 | faddFh | fmulFh => delta Machine.exec; exact .fop2 h
  | fdivF32 | fdivF64 => delta Machine.exec; exact .fiter2 h
  | fsqrtF32 | fsqrtF64 => delta Machine.exec; exact .fiter1 h
  | fminF32 | fmaxF32 | fminF64 | fmaxF64 => delta Machine.exec; exact .fsel2 h
  | fmaF32 | fmaF64 => delta Machine.exec; exact .fmaOp h
  | fabsF32 | fnegF32 | fclassF32 | fabsF64 | fnegF64 | fclassF64 => delta Machine.exec; exact .fsel1 h
  | fcmpeq | fcmplt | fcmple | fcmpun | fcmpne => delta Machine.exec; exact .fcmp h
  | cvtf2d | cvtb2f | cvth2f => delta Machine.exec; exact .cvtWide h
  | cvtd2f | cvtw2f | cvtl2f | cvtl2d | cvtf2b | cvtf2h => delta Machine.exec; exact .cvtRound h
  | cvtf2w | cvtf2l | cvtd2w | cvtd2l => delta Machine.exec; exact .cvtInt h
  | vbcast | vins | viota => delta Machine.exec; exact .vxg h
  | vextr => delta Machine.exec; exact .thr h (fun _ h1 => .bind (.ringGate h1) fun _ _ => .bind .chk fun _ _ =>
    .bind (.takeRing h1 h1) fun ⟨s2, x3⟩ h4 => .bind (.readR h4) fun ⟨s5, x6⟩ h7 => .bind (.writeR h7) fun s8 h9 => .pure h9)
  | cld | cst | cadd | cnext | cdel | calloc | cfree | cqry => delta Machine.exec; exact .coordOp h
  | cinv => delta Machine.exec; exact .execCinv h
  | spawn => delta Machine.exec; exact .execSpawn h
  | sync => delta Machine.exec; exact .thr h (fun _ h1 => .syncBody h1 (fun s2 h3 => .pure h3))
  | retc => delta Machine.exec; exact .execRetc h
  | yield => delta Machine.exec; exact .execYield h
  | park => delta Machine.exec; exact .execPark h
  | tnew => delta Machine.exec; exact .execTnew h
  | texit => delta Machine.exec; exact .execTexit h
  | susp => delta Machine.exec; exact .execSusp h
  | resume => delta Machine.exec; exact .execResume h
  | lsetup => delta Machine.exec; exact .thr h (fun _ h1 => .bind .chk fun _ _ => .bind (.opnd h1) fun ⟨s2, x3⟩ h4 =>
    .bind (.loadNest h4) fun ⟨s5, x6⟩ h7 => .pure h7)
  | lnext => delta Machine.exec; exact .execLnext h
  | migr => delta Machine.exec; exact .execMigr h
  | mret => delta Machine.exec; exact .execMret h
  | suspend | tenq => delta Machine.exec; exact .submitOp h
  | force | hwait => delta Machine.exec; exact .demandOp h
  | spark => delta Machine.exec; exact .thr h (fun _ h1 => .bind (.ringGate h1) fun _ _ => .bind .chk fun _ _ =>
    .bind (.readR h1) fun ⟨s2, x3⟩ h4 => .bind .beadAt fun _ _ => .bind (.takeRing h1 h4) fun ⟨s5, x6⟩ h7 => .pure (.send h7))
  | hstat => delta Machine.exec; exact .thr h (fun _ h1 => .bind .chk fun _ _ => .bind (.opnd h1) fun ⟨s2, x3⟩ h4 =>
    .beadOnce h4 (fun _ => .bind (.writeR h4) fun s5 h6 => .pure h6))
  | hbind => delta Machine.exec; exact .execHbind h
  | hdrop => delta Machine.exec; exact .thr h (fun _ h1 => .bind .chk fun _ _ => .bind (.opnd h1) fun ⟨s2, x3⟩ h4 =>
    .beadOnce h4 (fun _ => .pure h4))
  | mprog => delta Machine.exec; exact .execMprog h
  | cpy | dense => delta Machine.exec; exact .thr h (fun _ h1 => .bind .chk fun _ _ => .bind (.readR h1) fun ⟨s2, x3⟩ h4 =>
    .bind (.readR h4) fun ⟨s5, x6⟩ h7 => .copyCmd h7)
  | plane => delta Machine.exec; exact .thr h (fun _ h1 => .bind .chk fun _ _ => .bind (.readR h1) fun ⟨s2, x3⟩ h4 =>
    .bind (.readR h4) fun ⟨s5, x6⟩ h7 => .bind (.readR h7) fun ⟨s8, x9⟩ h10 => .copyCmd h10)
  | fill => delta Machine.exec; exact .thr h (fun _ h1 => .bind .chk fun _ _ => .bind (.readR h1) fun ⟨s2, x3⟩ h4 => .copyCmd h4)
  | route | psel => delta Machine.exec; exact .thr h (fun _ h1 => .bind .chk fun _ _ => .bind (.readR h1) fun ⟨s2, x3⟩ h4 => .rankCmd h4)
  | rqinit => delta Machine.exec; exact .execRqinit h
  | rqget => delta Machine.exec; exact .execRqget h
  | rqdone => delta Machine.exec; exact .execRqdone h
  | send | qctl => delta Machine.exec; exact .sendOp h
  | qcfg => delta Machine.exec; exact .execQcfg h
  | qhnd => delta Machine.exec; exact .thr h (fun _ h1 => .bind .chk fun _ _ => .bind .need fun _ _ =>
    .bind (.readR h1) fun ⟨s2, x3⟩ h4 => .bind .need fun _ _ => .bind (.writeR h4) fun s5 h6 => .pure h6)
  | qret => delta Machine.exec; exact .execQret h
  | qstat => delta Machine.exec; exact .thr h (fun _ h1 => .bind .chk fun _ _ => .bind .need fun _ _ => .bind (.writeR h1) fun s2 h3 =>
    .pure h3)
  | csrrd => delta Machine.exec; exact .execCsrrd h
  | csrwr | csrset => delta Machine.exec; exact .thr h (fun _ h1 => .csrWrite h1)
  | trap => delta Machine.exec; exact .thr h (fun _ h1 => .bind .chk fun _ _ => .bind (.readR h1) fun ⟨s2, x3⟩ h4 => .trapIn h4)
  | syscall => delta Machine.exec; exact .execSyscall h
  | eret => delta Machine.exec; exact .execEret h
  | brk => delta Machine.exec; exact .execBrk h
  | halt => delta Machine.exec; exact .thr h (fun _ h1 => .bind .need fun _ _ => .pure h1)
  | tlbw => delta Machine.exec; exact .execTlbw h
  | tlbi => delta Machine.exec; exact .execTlbi h
  | flushi => delta Machine.exec; exact .thr h (fun _ h1 => .bind .release fun _ _ => .pure h1)
  | upret => delta Machine.exec; exact .execUpret h
  | illegalInstruction => delta Machine.exec; exact .thr h (fun _ h1 => .illegal)
  | fetchFault => delta Machine.exec; exact .execFetchFault h

/-- Each state that a fetched halfword hands on has its memory in canonical form. -/
def HalfGot.Keeps : HalfGot → Prop
  | .got s _ _ | .stall s | .fault s _ => Canon s

/-- Each state that a fetch hands on has its memory in canonical form. -/
def Fetched.Keeps : Fetched → Prop
  | .idle | .late | .brk => True
  | .stall s | .fault s _ _ | .bytes s _ => Canon s

theorem fetchHalf_keeps {t : Tid} {va : Word} (h : Canon s) : HalfGot.Keeps (fetchHalf s t va) := by
  unfold fetchHalf
  extract_lets sl
  split
  · exact Canon.sendMiss h
  · exact h
  · extract_lets held check
    clear_value check
    split
    · exact Canon.markRead h
    · split
      · exact h
      · exact Canon.holdHalf h

theorem fetch_keeps {t : Tid} (h : Canon s) : Fetched.Keeps (fetch s t) := by
  unfold fetch
  have first := fetchHalf_keeps (t := t) (va := (getSlot s t).pc) h
  dsimp only
  split
  · trivial
  · split
    · trivial
    · split
      · trivial
      · split
        next got => rwa [got] at first
        next got => rwa [got] at first
        next s1 _ _ got =>
          rw [got] at first
          have second := fetchHalf_keeps (t := t) (va := (getSlot s t).pc + 2) first
          split
          · exact first
          · split
            next got => rwa [got] at second
            next got => rwa [got] at second
            next got => rwa [got] at second

theorem Canon.issueOf {t : Tid} (h : Canon s) : Canon (issueOf s t).1 := by
  have fetched := fetch_keeps (t := t) h
  unfold Machine.issueOf
  split
  next => exact h
  next => exact h
  next => exact .hitBreak h
  next got => rwa [got] at fetched
  next got =>
    rw [got] at fetched
    exact fetched
  next got =>
    rw [got] at fetched
    split <;> exact fetched

theorem Ends.issue {t : Tid} (h : Canon s) : Ends (issue s t) := by
  unfold Machine.issue
  split
  next runs => exact .next (.fst (.issueOf h) runs)
  next s1 i runs =>
    have ends : Ends (Machine.exec i s1) := .exec (.fst (.issueOf h) runs)
    split
    next out =>
      rw [out] at ends
      exact .next (.afterStep ends)
    next => exact ends

theorem Ends.step (h : Canon s) : Ends (step s) := by
  unfold Machine.step
  split
  next next => exact .issue (.fst (.nextTurn h) next)
  next next =>
    have h1 := Canon.fst (.nextTurn h) next
    split
    · exact .exec h1
    · exact .next h1

/-- Settles O8: what every operation of the machine keeps, each step keeps. -/
theorem stepKeepsMemoryCanonical : Obligations.StepKeepsMemoryCanonical := by
  intro s s' wf runs
  have ends : Ends (step s) := .step wf
  rwa [runs] at ends

end Sys2Proof.Proofs
end


section
/-!
SUPPORT. Addresses and values of loads as the statements spell them: the scaled offset, the sign extension by size, the
reduced index of the remap stage (R158, R305).
-/

namespace Sys2Proof.Proofs

open Sys2Proof.Machine Sys2Proof.Laws Sys2Proof.Claim

theorem sextN_eq_signedLow (n : Nat) (x : Word) : sextN n x = signedLow n x := by
  simp only [sextN, signedLow, BitVec.signExtend, BitVec.toInt_setWidth]

theorem scaled_offset (o : BitVec 7) (n : Nat) : sx o * wd n = BitVec.ofInt 64 (o.toInt * n) := by
  simp only [sx, wd, BitVec.signExtend, BitVec.ofInt_mul, BitVec.ofInt_natCast]

/-- A load of a whole word keeps it; a shorter one extends its sign or nothing. -/
theorem extension_by_size (z : BitVec 2) (signed : Bool) (v : Word) :
    (if signed = true then sextN (8 * 2 ^ z.toNat % 64) v else v) = if signed = true ∧ 2 ^ z.toNat < 8 then signedLow (8 * 2 ^ z.toNat) v else v := by
  have sizes : z.toNat = 0 ∨ z.toNat = 1 ∨ z.toNat = 2 ∨ z.toNat = 3 := by omega
  cases signed
  · simp
  · rcases sizes with h | h | h | h <;> simp [h, sextN_eq_signedLow, signedLow]

/-- An index reduced by remap0; 0 reduces nothing. -/
theorem reduced_index (w m : Word) : (if m = 0 then w else w % m) = if m = 0 then w else BitVec.ofNat 64 (w.toNat % m.toNat) := by
  congr 1
  apply BitVec.eq_of_toNat_eq
  have small : w.toNat % m.toNat < 2 ^ 64 := (Nat.mod_le _ _).trans_lt w.isLt
  rw [BitVec.toNat_umod, BitVec.toNat_ofNat, Nat.mod_eq_of_lt small]

theorem ushiftRight_32 (h : Word) : h >>> 32 = BitVec.ofNat 64 (h.toNat / 2 ^ 32) := by
  apply BitVec.eq_of_toNat_eq
  rw [BitVec.toNat_ushiftRight, Nat.shiftRight_eq_div_pow, BitVec.toNat_ofNat, Nat.mod_eq_of_lt (by omega)]

theorem isHost_of_isScr {k : Nat} (h : isScr k = true) : isHost k = false := by
  simp only [isScr, isHost, decide_eq_true_eq, Bool.and_eq_false_iff, decide_eq_false_iff_not] at h ⊢
  omega

end Sys2Proof.Proofs
end

section
/-!
PROOFS. Loads, the reads that they make as precise phases, and the index remap (R158, R283, R303 to R306).
-/

namespace Sys2Proof.Proofs

open Sys2Proof.Machine Sys2Proof.Laws Sys2Proof.Claim

variable {s s1 s2 s3 s4 : State} {e : Env} {acc : List Word} {dst : List Nat} {va ea v w x y i : Word} {n slack k h r t : Nat} {ld : Bool}

/-! ### Loads (R305, R306) -/

theorem loadTo_ok {ext : Word → Word} (even : ea.toNat % n = 0) (read : phaseRead e s acc [t] ea n slack true = .ok (s1, acc ++ [v]))
    (written : writeR e s1 t (ext v) = .ok s2) : loadTo e t ea n slack ext s acc = .ok (done e s2) := by
  simp only [loadTo, aligned_ok even, read, List.getLastD_concat, written, Bind.bind, Except.bind, pure, Except.pure]

theorem loadTo_misaligned {ext : Word → Word} (odd : ea.toNat % n ≠ 0) : loadTo e t ea n slack ext s acc = .error (.trap 0x03 ea) := by
  simp only [loadTo, aligned_trap odd, Bind.bind, Except.bind]

/-- LD and LDN: the trap of a misaligned address, and the value that the read gives. -/
theorem ldOp_results {enc : BitVec 32} {a k : Nat} {z : BitVec 2} {off : Word} {signed : Bool} (runs : Runs s)
    (checks : chk (envOf 4 enc s) [] [t] [a] = .ok ())
    (address : ea = issued s 0 (regGet s s.cur (getSlot s s.cur) a + off * wd (2 ^ z.toNat))) :
    (ea.toNat % 2 ^ z.toNat ≠ 0 → ldOp enc t a z.toNat k off signed s = .next (takeTrap s s.cur 0x03 ea (getSlot s s.cur).pc)) ∧
    (ea.toNat % 2 ^ z.toNat = 0 → ∀ s1 s2 v,
      phaseRead (envOf 4 enc s) s [ea] [t] ea (2 ^ z.toNat) (skOf (getSlot s s.cur).csr k) true = .ok (s1, [ea, v]) →
      writeR (envOf 4 enc s) s1 t (if signed = true ∧ 2 ^ z.toNat < 8 then signedLow (8 * 2 ^ z.toNat) v else v) = .ok s2 →
      ldOp enc t a z.toNat k off signed s = .next (done (envOf 4 enc s) s2)) := by
  have latched : latch (envOf 4 enc s) 0 (baseReg (envOf 4 enc s) a + off * wd (2 ^ z.toNat)) = ea := address.symm
  refine ⟨fun odd => ?_, fun even s1 s2 v read written => ?_⟩
  · refine thr_stop runs.1 runs.2 (st := .trap 0x03 ea) ?_
    simp only [checks, latched, loadTo_misaligned odd, Bind.bind, Except.bind]
  · refine thr_next runs.1 runs.2 ?_
    rw [← extension_by_size] at written
    simp only [checks, latched, Bind.bind, Except.bind]
    exact loadTo_ok even read written

theorem indexed_ok {a x r z : Nat} {more : List Word} {base idx : Word} (hb : latch e 0 (baseReg e a) = base) (hi : latch e 1 (baseReg e x) = idx)
    (remapped : remapIdx e e.s ([base, idx] ++ more) dst r idx = .ok (s1, acc, i)) :
    indexed e dst a x r z more = .ok (s1, acc, base + i * wd (2 ^ z)) := by
  simp only [indexed, hb, hi, remapped, Bind.bind, Except.bind, pure, Except.pure]

/-- LDX and LDXN: the same at the base and the remapped index. -/
theorem ldxOp_results {enc : BitVec 32} {a x r : Nat} {z : BitVec 2} {signed : Bool} {base idx : Word} (runs : Runs s)
    (checks : chk (envOf 4 enc s) [] [t] [a, x] = .ok ()) (hb : base = issued s 0 (regGet s s.cur (getSlot s s.cur) a))
    (hi : idx = issued s 1 (regGet s s.cur (getSlot s s.cur) x))
    (remapped : remapIdx (envOf 4 enc s) s [base, idx] [t] r idx = .ok (s1, acc, i)) (address : ea = base + i * BitVec.ofNat 64 (2 ^ z.toNat)) :
    (ea.toNat % 2 ^ z.toNat ≠ 0 → ldxOp enc t a x r z.toNat signed s = .next (takeTrap s s.cur 0x03 ea (getSlot s s.cur).pc)) ∧
    (ea.toNat % 2 ^ z.toNat = 0 → ∀ s2 s3 v,
      phaseRead (envOf 4 enc s) s1 acc [t] ea (2 ^ z.toNat) (dskOf (getSlot s s.cur)) true = .ok (s2, acc ++ [v]) →
      writeR (envOf 4 enc s) s2 t (if signed = true ∧ 2 ^ z.toNat < 8 then signedLow (8 * 2 ^ z.toNat) v else v) = .ok s3 →
      ldxOp enc t a x r z.toNat signed s = .next (done (envOf 4 enc s) s3)) := by
  have addressed : indexed (envOf 4 enc s) [t] a x r z.toNat = .ok (s1, acc, ea) := address ▸ indexed_ok hb.symm hi.symm remapped
  refine ⟨fun odd => ?_, fun even s2 s3 v read written => ?_⟩
  · refine thr_stop runs.1 runs.2 (st := .trap 0x03 ea) ?_
    simp only [checks, addressed, loadTo_misaligned odd, Bind.bind, Except.bind]
  · refine thr_next runs.1 runs.2 ?_
    rw [← extension_by_size] at written
    simp only [checks, addressed, Bind.bind, Except.bind]
    exact loadTo_ok even read written

theorem exec_ld (t a : BitVec 7) (z k : BitVec 2) (o : BitVec 7) (s : State) :
    exec (.ld t a z k o) s = ldOp (Enc.ld t a z k o) t.toNat a.toNat z.toNat k.toNat (sx o) true s := rfl
theorem exec_ldn (t a : BitVec 7) (z k : BitVec 2) (o : BitVec 7) (s : State) :
    exec (.ldn t a z k o) s = ldOp (Enc.ldn t a z k o) t.toNat a.toNat z.toNat k.toNat (sx o) false s := rfl
theorem exec_ldx (t a x : BitVec 7) (r z : BitVec 2) (s : State) :
    exec (.ldx t a x r z) s = ldxOp (Enc.ldx t a x r z) t.toNat a.toNat x.toNat r.toNat z.toNat true s := rfl
theorem exec_ldxn (t a x : BitVec 7) (r z : BitVec 2) (s : State) :
    exec (.ldxn t a x r z) s = ldxOp (Enc.ldxn t a x r z) t.toNat a.toNat x.toNat r.toNat z.toNat false s := rfl

theorem loadResults : Claim.LoadResults := by
  refine ⟨fun t a z k o p hp s runs checks => ?_, fun t a x r z p hp s runs checks => ?_⟩
  · have address : issued s 0 (regGet s s.cur (getSlot s s.cur) a.toNat + BitVec.ofInt 64 (o.toInt * (2 ^ z.toNat : Nat))) =
        issued s 0 (regGet s s.cur (getSlot s s.cur) a.toNat + sx o * wd (2 ^ z.toNat)) := by rw [scaled_offset]
    rcases List.mem_pair.mp hp with rfl | rfl
    · rw [exec_ld]
      exact ldOp_results runs checks address
    · rw [exec_ldn]
      exact ldOp_results runs checks address
  · intro n base idx s1 acc i remapped
    rcases List.mem_pair.mp hp with rfl | rfl
    · rw [exec_ldx]
      exact ldxOp_results runs checks rfl rfl remapped rfl
    · rw [exec_ldxn]
      exact ldxOp_results runs checks rfl rfl remapped rfl

/-! ### Reads as precise phases (R127, R151, R203, R204) -/

section
variable {x : TlbEnt} {pg : Bool} (due : e.sl.ph.length ≤ acc.length) (res : e.sl.res = none) (leads : place e va 1 slack = .ok (.mem k x pg))
include due res leads

/-- A phase that is not over and has no reply, at an address of memory: performed at once, sent, or refused as its home is. -/
theorem phaseRead_mem : phaseRead e s acc dst va n slack ld = match readNow e s (.mem k x pg) n va with
    | .ok (some q) => .ok (q.1, acc ++ [q.2])
    | .ok none => .error (sendWait e s acc dst 0 slack ((homeOf k).getD 0) (.load k n (retOf e va)))
    | .error st => .error st := by
  have new : e.sl.ph[acc.length]? = none := List.getElem?_eq_none due
  have unanswered : gotReply e acc = none := by simp only [gotReply, res, ite_self]
  have named : (if !ld then noReg (.mem k x pg) va else .ok ()) = .ok () := by cases ld <;> rfl
  cases at' : readNow e s (.mem k x pg) n va with
  | error st => cases ld <;> simp only [phaseRead, new, unanswered, leads, at', noReg, Bind.bind, Except.bind] <;> rfl
  | ok o => cases o <;> cases ld <;> simp only [phaseRead, new, unanswered, leads, at', noReg, Bind.bind, Except.bind] <;> rfl

/-- A good word of the issuing core's scratchpad that the recorder and replay let it read. -/
theorem phaseRead_own (scr : isScr k = true) (own : keyCore k = e.t.core) (room : traceRoom s (coreFn s e.t.core) = true)
    (replay : replayOk s (coreUnit e.t.core) 0 (thrSrc e) k = true) (good : eccStatus s k n = 0) :
    phaseRead e s acc dst va n slack ld = .ok (localNote e s 0 k, acc ++ [BitVec.ofNat 64 (memRead s.mem k n)]) := by
  have here : isLocal e k = true := by simp [isLocal, scr, own]
  have free : localFree e s 0 k = true := by simp [localFree, room, replay]
  rw [phaseRead_mem due res leads]
  simp only [readNow, here, isHost_of_isScr scr, good, localGate, free, await, Bool.true_or, Bool.false_eq_true, if_true, if_false, Bind.bind, Except.bind,
    pure, Except.pure]
  rfl

theorem phaseRead_host (host : isHost k = true) (good : eccStatus s k n = 0) :
    phaseRead e s acc dst va n slack ld = .ok (s, acc ++ [BitVec.ofNat 64 (memRead s.mem k n)]) := by
  rw [phaseRead_mem due res leads]
  simp only [readNow, host, good, Bool.or_true, if_true, Bind.bind, Except.bind, pure, Except.pure]
  rfl

/-- A word with its poison mark. -/
theorem phaseRead_poison (scr : isScr k = true) (own : keyCore k = e.t.core) (bad : eccStatus s k n = 2) :
    phaseRead e s acc dst va n slack ld = .error (.trap 0x14 va) := by
  have here : isLocal e k = true := by simp [isLocal, scr, own]
  rw [phaseRead_mem due res leads]
  simp only [readNow, here, bad, trapX, Bool.true_or, if_true]

theorem phaseRead_away (device : isHost k = false) (away : ¬ (isScr k = true ∧ keyCore k = e.t.core)) (home : homeOf k = some h) :
    phaseRead e s acc dst va n slack ld = .error (.keep (modSlot
      (send s 0 slack (coreUnit e.t.core) h (.load k n (.thread e.t (e.sl.uid.getD 0) va)))
      e.t fun sl => { sl with wait := some .reply, ph := acc, res := none, awaits := dst, toUnit := some h })) := by
  have far : isLocal e k = false := by simpa [isLocal] using away
  rw [phaseRead_mem due res leads]
  simp only [readNow, far, device, home, Bool.or_self, Bool.false_eq_true, if_false, pure, Except.pure, sendWait, retOf, Option.getD_some]

end

/-- The register-file aperture is read by no phase but a load's (R126). -/
theorem phaseRead_register {ent off : Nat} (due : e.sl.ph.length ≤ acc.length) (res : e.sl.res = none) (leads : place e va 1 slack = .ok (.reg ent off)) :
    phaseRead e s acc dst va n slack = .error (.trap 0x08 va) := by
  have new : e.sl.ph[acc.length]? = none := List.getElem?_eq_none due
  have unanswered : gotReply e acc = none := by simp only [gotReply, res, ite_self]
  simp only [phaseRead, new, unanswered, leads, noReg, trapX, Bool.not_false, if_true, Bind.bind, Except.bind]

theorem phaseRead_replied {l : List Word} (now : acc.length = e.sl.ph.length) (res : e.sl.res = some (.words (v :: l))) :
    phaseRead e s acc dst va n slack ld = .ok (s, acc ++ [v]) := by
  have new : e.sl.ph[acc.length]? = none := List.getElem?_eq_none now.ge
  simp only [phaseRead, new, gotReply, if_pos now, res, List.headD_cons]

theorem phaseRead_faulted {c : BitVec 8} (now : acc.length = e.sl.ph.length) (res : e.sl.res = some (.fault c w)) :
    phaseRead e s acc dst va n slack ld = .error (.trap c w) := by
  have new : e.sl.ph[acc.length]? = none := List.getElem?_eq_none now.ge
  simp only [phaseRead, new, gotReply, if_pos now, res, trapX]

theorem memoryReads : Claim.MemoryReads := by
  refine ⟨fun e s acc dst va n slack ld k x pg due res leads => ⟨?_, ?_, ?_, ?_⟩, fun e s acc dst va n slack ent off => phaseRead_register,
    fun e s acc dst va n slack ld v l => phaseRead_replied, fun e s acc dst va n slack ld c w => phaseRead_faulted, fun m k => ⟨rfl, fun n => rfl⟩⟩
  · exact phaseRead_own due res leads
  · exact phaseRead_host due res leads
  · exact fun device away h => phaseRead_away due res leads device away
  · exact phaseRead_poison due res leads

/-! ### The index remap stage (R158, R283) -/

theorem remapIdx_table (even : e.sl.csr.remap2.toNat % 4 = 0) (below : x.toNat < e.sl.csr.remap2n.toNat)
    (read : phaseRead e s acc dst (e.sl.csr.remap2 + 4 * x) 4 (dskOf e.sl) = .ok (s1, acc ++ [v])) :
    remapIdx e s acc dst 3 x = .ok (s1, acc ++ [v], v) := by
  have inside : x.ult e.sl.csr.remap2n = true := by simpa [BitVec.ult] using below
  simp only [remapIdx, need, even, beq_self_eq_true, inside, read, List.getLastD_concat, if_true, Bind.bind, Except.bind, pure, Except.pure]

theorem remapIdx_misaligned (odd : e.sl.csr.remap2.toNat % 4 ≠ 0) : remapIdx e s acc dst 3 x = .error (.trap 0x03 e.sl.csr.remap2) := by
  simp only [remapIdx, need, beq_iff_eq, odd, trapX, if_false, Bind.bind, Except.bind]

theorem remapIdx_outside (even : e.sl.csr.remap2.toNat % 4 = 0) (above : e.sl.csr.remap2n.toNat ≤ x.toNat) :
    remapIdx e s acc dst 3 x = .error (.trap 0x08 x) := by
  have outside : x.ult e.sl.csr.remap2n = false := by simpa [BitVec.ult] using above
  simp only [remapIdx, need, even, beq_self_eq_true, outside, trapX, Bool.false_eq_true, if_true, if_false, Bind.bind, Except.bind]

theorem exec_rmap (d a b : BitVec 7) (s : State) : exec (.rmap d a b) s = execRmap d a b s := rfl

/-- RMAP at its issue. -/
theorem rmap_completes {d a b : BitVec 7} (runs : Runs s) (checks : chk (envFor 4 (.rmap d a b) s) [a.toNat, b.toNat] [d.toNat] [] = .ok ())
    (first : (getSlot s s.cur).ph = []) (index : readR (envFor 4 (.rmap d a b) s) s a.toNat = .ok (s1, x))
    (mode : readR (envFor 4 (.rmap d a b) s) s1 b.toNat = .ok (s2, y))
    (remapped : remapIdx (envFor 4 (.rmap d a b) s) s2 [x, y] [d.toNat] (y.toNat % 4) x = .ok (s3, acc, i))
    (written : writeR (envFor 4 (.rmap d a b) s) s3 d.toNat i = .ok s4) : exec (.rmap d a b) s = .next (done (envFor 4 (.rmap d a b) s) s4) := by
  have code : fld y 1 0 = y.toNat % 4 := by simp [fld]
  rw [exec_rmap]
  refine thr_next runs.1 runs.2 ?_
  simp only [envFor, encode] at checks index mode remapped written
  simp only [checks, envOf_s, envOf_sl, first, index, mode, code, remapped, written, Bind.bind, Except.bind, pure, Except.pure]
  rfl

theorem remapResults : Claim.RemapResults := by
  refine ⟨fun e s acc dst x => ⟨rfl, ?_, ?_, remapIdx_misaligned, remapIdx_outside, fun even below s1 v => remapIdx_table even below⟩,
    fun d a b s s1 s2 x y runs checks first index mode s3 acc i s4 => rmap_completes runs checks first index mode⟩
  · show Except.ok (s, acc, _) = _
    rw [reduced_index]
  · show Except.ok (s, acc, _) = _
    rw [reduced_index, ushiftRight_32]

/-- Settles O27, from the loads' results, the phases that read, and the remap stage. -/
theorem loadRules : Obligations.LoadRules := ⟨loadResults, memoryReads, remapResults⟩

end Sys2Proof.Proofs
end

section
/-!
SUPPORT. What the fields of a target word and of a queue's control word 0 say (R133, R319), and what passed register checks say of
one register (R121, R127).
-/

namespace Sys2Proof.Proofs

open Sys2Proof.Machine Sys2Proof.Laws Sys2Proof.Claim

/-- The kind of a target word: message register, queue, link. -/
def targetKind (tw : Word) : Nat := tw.toNat / 2 ^ 20 % 4

/-- A target word whose fields R319 allows. -/
def TargetFields (tw : Word) : Prop :=
  tw.toNat < 2 ^ 22 ∧ tw.getLsbD 19 = false ∧ targetKind tw ≠ 3 ∧ (targetKind tw = 0 ∨ tw.toNat / 2 ^ 17 % 4 = 0) ∧
    (targetKind tw = 1 → 2 ≤ tw.toNat % 64) ∧ (targetKind tw = 2 → tw.toNat % 2 ^ 17 < 2)

theorem fld_kind (tw : Word) : fld tw 21 20 = targetKind tw := fld_eq tw 21 20

theorem targetOk_iff (tw : Word) : targetOk tw = true ↔ TargetFields tw := by
  have small := tw.isLt
  have unused : fld tw 63 22 = 0 ↔ tw.toNat < 2 ^ 22 := by
    rw [fld_eq]
    omega
  have register : fld tw 18 17 = tw.toNat / 2 ^ 17 % 4 := fld_eq tw 18 17
  have queue : fld tw 5 0 = tw.toNat % 64 := by simp [fld_eq]
  have link : fld tw 16 1 = 0 ↔ tw.toNat % 2 ^ 17 < 2 := by
    rw [fld_eq]
    omega
  simp only [targetOk, TargetFields, fld_kind, register, queue, bitAt, Bool.and_eq_true, Bool.or_eq_true, beq_iff_eq, bne_iff_ne, Bool.not_eq_true',
    decide_eq_true_eq, unused, link, and_assoc, imp_iff_not_or, ne_eq, ge_iff_le]

/-- A control word 0 that QCFG accepts. -/
def QueueWord (w : Word) : Prop :=
  w.toNat / 2 ^ 39 = 0 ∧ w.toNat / 2 ^ 32 % 64 = 3 ∧ w.toNat / 2 ^ 16 % 2 ^ 16 ≠ 0 ∧ w.toNat % 2 ^ 16 * 8 + 8 * (w.toNat / 2 ^ 16 % 2 ^ 16) ≤ 0x100000

theorem fld_base (w : Word) : fld w 15 0 = w.toNat % 2 ^ 16 := by simp [fld_eq]
theorem fld_depth (w : Word) : fld w 31 16 = w.toNat / 2 ^ 16 % 2 ^ 16 := fld_eq w 31 16

theorem qOk_iff (w : Word) : qOk w = true ↔ QueueWord w := by
  have small := w.isLt
  have unused : fld w 63 39 = 0 ↔ w.toNat / 2 ^ 39 = 0 := by
    rw [fld_eq]
    omega
  have size : fld w 37 36 = 0 ∧ fld w 35 32 = 3 ↔ w.toNat / 2 ^ 32 % 64 = 3 := by
    rw [fld_eq, fld_eq]
    omega
  simp only [qOk, QueueWord, fld_base, fld_depth, Bool.and_eq_true, beq_iff_eq, bne_iff_ne, decide_eq_true_eq, unused, and_assoc, ← size]

theorem b2n_eq_bit (b : Bool) : b2n b = bit b := rfl

theorem qCount_eq (c : QCtl) : qCount c = (c.w1.toNat / 2 ^ 32 + 2 ^ 32 - c.w1.toNat % 2 ^ 32) % 2 ^ 32 := by
  have head : qHead c = c.w1.toNat % 2 ^ 32 := by simp [qHead, fld_eq]
  have tail : qTail c = c.w1.toNat / 2 ^ 32 := fld_high c.w1
  rw [qCount, head, tail]

/-- Registers that pass the checks await nothing. -/
theorem outstanding_of_chk {e : Env} {rd wr np : List Nat} {n : Nat} (checks : chk e rd wr np = .ok ()) (h : n ∈ rd ++ wr ++ np) :
    outstanding e.sl n = false := by
  unfold chk at checks
  split at checks
  · cases checks
  · split at checks
    · cases checks
    · split at checks
      · cases checks
      · next quiet =>
        rw [Bool.not_eq_true, List.any_eq_false] at quiet
        simpa using quiet n (List.mem_append_left _ h)

end Sys2Proof.Proofs
end

section
/-!
PROOFS. SEND and QCTL: their target word, the packet that they send and the link that they fill (R319, R320).
-/

namespace Sys2Proof.Proofs

open Sys2Proof.Machine Sys2Proof.Laws Sys2Proof.Claim

theorem exec_send (d a b : BitVec 7) (s : State) : exec (.send d a b) s = sendOp (Enc.send d a b) d.toNat a.toNat b.toNat false s := rfl
theorem exec_qctl (d a b : BitVec 7) (s : State) : exec (.qctl d a b) s = sendOp (Enc.qctl d a b) d.toNat a.toNat b.toNat true s := rfl

/-- The state in which the packet of a message leaves: its ticket taken, the access listed. -/
def messageListed (s : State) (t : Tid) (home : Nat) : State :=
  let taken := takeTicket s t 3
  modSlot taken.1 t fun sl =>
    { sl with infl := sl.infl ++ [{ id := nextAcc (getSlot taken.1 t), kind := .send, home := home, tick := some (3, taken.2) }] }

theorem messageListed_mem (s : State) (t : Tid) (home : Nat) : (messageListed s t home).mem = s.mem := rfl

theorem takeTicket_msg (s : State) (t : Tid) : (takeTicket s t 3).2 = (getSlot s t).tls.msg.issued + 1 := rfl

theorem messageListed_issued (s : State) (t : Tid) (home : Nat) :
    (getSlot (messageListed s t home) t).tls.msg.issued = (getSlot s t).tls.msg.issued + 1 := by
  simp only [messageListed, getSlot_modSlot_same, takeTicket, getSlot_setSlot_same]
  rfl

section
variable {enc : BitVec 32} {d a b : Nat} {tag : Bool} {s s1 s2 s3 : State} {v tw : Word}
  (runs : Runs s) (checks : chk (envOf 4 enc s) [b] [d] [a] = .ok ()) (word : tw = regGet s s.cur (getSlot s s.cur) a)
include runs checks word

omit runs in
/-- With its registers in order, an instruction whose target is no link of a thread without ports passes the check of links. -/
theorem linkChk_ok (h : (getSlot s s.cur).ports = true ∨ ¬ (TargetFields tw ∧ targetKind tw = 2)) : linkChk (envOf 4 enc s) a = .ok () := by
  have quiet : outstanding (getSlot s s.cur) a = false := outstanding_of_chk checks (by simp)
  have base : baseReg (envOf 4 enc s) a = tw := word.symm
  unfold linkChk
  split
  · rfl
  · next outside =>
    have ports : ¬ (getSlot s s.cur).ports = true := fun ports => outside (by simp [ports])
    have other : ¬ (targetOk tw && fld tw 21 20 == 2) = true := by
      simpa only [Bool.and_eq_true, targetOk_iff, fld_kind, beq_iff_eq] using h.resolve_left ports
    simp only [envOf_sl, quiet, base, other, Bool.false_eq_true, if_false]

theorem sendOp_malformed (bad : ¬ TargetFields tw) : sendOp enc d a b tag s = .next (takeTrap s s.cur 0x12 tw (getSlot s s.cur).pc) := by
  have base : baseReg (envOf 4 enc s) a = tw := word.symm
  have linked := linkChk_ok checks word (.inr fun both => bad both.1)
  refine thr_stop runs.1 runs.2 (st := .trap 0x12 tw) ?_
  simp only [linked, checks, base, need, targetOk_iff, bad, if_false, trapX, Bind.bind, Except.bind]

theorem sendOp_register (good : TargetFields tw) (kind : targetKind tw = 0) (tagged : tag = true) :
    sendOp enc d a b tag s = .next (takeTrap s s.cur 0x12 0 (getSlot s s.cur).pc) := by
  have base : baseReg (envOf 4 enc s) a = tw := word.symm
  have linked := linkChk_ok checks word (.inr fun both => by simp [kind] at both)
  refine thr_stop runs.1 runs.2 (st := .trap 0x12 0) ?_
  simp only [linked, checks, base, need, targetOk_iff, good, fld_kind, kind, tagged, trapX, Bind.bind, Except.bind, beq_self_eq_true, Bool.and_self,
    Bool.not_true, Bool.false_eq_true, if_true, if_false]

section
variable (good : TargetFields tw) (plain : ¬ (targetKind tw = 0 ∧ tag = true)) (kind : targetKind tw ≠ 2)
include good plain kind

theorem sendOp_outside (outside : ¬ (coreExists (tw.toNat / 64 % 2048) = true ∧ coreFn s (tw.toNat / 64 % 2048) = coreFn s s.cur.core)) :
    sendOp enc d a b tag s = .next (takeTrap s s.cur 0x08 tw (getSlot s s.cur).pc) := by
  have base : baseReg (envOf 4 enc s) a = tw := word.symm
  have linked := linkChk_ok checks word (.inr fun both => kind both.2)
  have core : fld tw 16 6 = tw.toNat / 64 % 2048 := fld_eq tw 16 6
  have carried : (!(targetKind tw == 0 && tag)) = true := by simpa [imp_iff_not_or] using plain
  have away : (coreExists (tw.toNat / 64 % 2048) && coreFn s (tw.toNat / 64 % 2048) == coreFn s s.cur.core) = false := by
    rw [Bool.eq_false_iff]
    simpa using outside
  refine thr_stop runs.1 runs.2 (st := .trap 0x08 tw) ?_
  simp only [linked, checks, base, need, targetOk_iff, good, fld_kind, kind, carried, core, envOf_s, envOf_t, away, trapX, Bind.bind, Except.bind,
    Bool.false_eq_true, if_true, if_false]

/-- The body that a target word names. -/
def messageBody (s : State) (tw v : Word) (tag : Bool) (id : Nat) : Body :=
  if targetKind tw = 0 then .msg { core := tw.toNat / 64 % 2048, slot := tw.toNat % 64 } (tw.toNat / 2 ^ 17 % 4) v (.access s.cur ((getSlot s s.cur).uid.getD 0) id 0 0)
  else .qelem (tw.toNat % 64) v tag (.access s.cur ((getSlot s s.cur).uid.getD 0) id 0 0)

theorem sendOp_sends (exists' : coreExists (tw.toNat / 64 % 2048) = true) (mine : coreFn s (tw.toNat / 64 % 2048) = coreFn s s.cur.core)
    (few : storesInFlight (getSlot s s.cur) < 1023) (room : outRoom s s.cur.core 0 = true) (value : readR (envOf 4 enc s) s b = .ok (s1, v)) :
    ∃ s2 id, s2.mem = s1.mem ∧ (getSlot s2 s.cur).tls.msg.issued = (getSlot s1 s.cur).tls.msg.issued + 1 ∧
      ∀ s3, writeR (envOf 4 enc s) (send s2 6 (dskOf (getSlot s s.cur)) (coreUnit s.cur.core) (coreUnit (tw.toNat / 64 % 2048)) (messageBody s tw v tag id))
          d ((getSlot s1 s.cur).tls.msg.issued + 1) = .ok s3 → sendOp enc d a b tag s = .next (done (envOf 4 enc s) s3) := by
  refine ⟨messageListed s1 s.cur (coreUnit (tw.toNat / 64 % 2048)), nextAcc (getSlot (takeTicket s1 s.cur 3).1 s.cur), rfl, messageListed_issued _ _ _,
    fun s3 written => ?_⟩
  have base : baseReg (envOf 4 enc s) a = tw := word.symm
  have linked := linkChk_ok checks word (.inr fun both => kind both.2)
  have core : fld tw 16 6 = tw.toNat / 64 % 2048 := fld_eq tw 16 6
  have thread : wordTid (fld tw 16 0) = { core := tw.toNat / 64 % 2048, slot := tw.toNat % 64 } := wordTid_named tw
  have register : fld tw 18 17 = tw.toNat / 2 ^ 17 % 4 := fld_eq tw 18 17
  have queue : fld tw 5 0 = tw.toNat % 64 := by simp [fld_eq]
  have carried : (!(targetKind tw == 0 && tag)) = true := by simpa [imp_iff_not_or] using plain
  have roomy : storeRoom (envOf 4 enc s) = .ok () := if_pos (by simp [few, room])
  refine thr_next runs.1 runs.2 ?_
  simp only [linked, checks, base, need, targetOk_iff, good, fld_kind, kind, carried, core, envOf_s, envOf_t, exists', mine, beq_self_eq_true, Bool.and_self,
    roomy, value, thread, register, queue, Bind.bind, Except.bind, if_true, if_false]
  simp only [messageListed, messageBody, takeTicket_msg] at written
  simp only [envOf_sl, takeTicket_msg, written]
  rfl

end

section
variable (good : TargetFields tw) (kind : targetKind tw = 2)
include good kind

theorem sendOp_link_illegal (ports : (getSlot s s.cur).ports = false) :
    sendOp enc d a b tag s = .next (takeTrap s s.cur 0x01 (enc.setWidth 64) (getSlot s s.cur).pc) := by
  have base : baseReg (envOf 4 enc s) a = tw := word.symm
  have quiet : outstanding (getSlot s s.cur) a = false := outstanding_of_chk checks (by simp)
  refine thr_stop runs.1 runs.2 (st := .trap 0x01 (enc.setWidth 64)) ?_
  cases outside : outWindow (getSlot s s.cur) a with
  | false =>
    simp only [linkChk, outside, quiet, base, ports, (targetOk_iff tw).mpr good, fld_kind, kind, envOf_sl, envOf_enc, illegal, trapX, Bind.bind, Except.bind,
      beq_self_eq_true, Bool.or_self, Bool.and_self, Bool.false_eq_true, if_true, if_false]
  | true =>
    have linked : linkChk (envOf 4 enc s) a = .ok () := if_pos (by simp [outside])
    simp only [linked, checks, base, ports, need, (targetOk_iff tw).mpr good, fld_kind, kind, envOf_sl, envOf_enc, illegal, trapX, Bind.bind,
      Except.bind, Bool.not_false, if_true]
    rfl

theorem sendOp_link (ports : (getSlot s s.cur).ports = true) (value : readR (envOf 4 enc s) s b = .ok (s1, v))
    (pushed : pushLink (envOf 4 enc s) s1 (tw.toNat % 2) v tag = .ok s2) (written : writeR (envOf 4 enc s) s2 d 0 = .ok s3) :
    sendOp enc d a b tag s = .next (done (envOf 4 enc s) s3) := by
  have base : baseReg (envOf 4 enc s) a = tw := word.symm
  have linked := linkChk_ok checks word (.inl ports)
  have link : fld tw 0 0 = tw.toNat % 2 := by simp [fld_eq]
  refine thr_next runs.1 runs.2 ?_
  simp only [linked, checks, base, need, targetOk_iff, good, fld_kind, kind, link, envOf_s, envOf_sl, ports, value, pushed, written, Bind.bind, Except.bind,
    pure, Except.pure, Bool.not_true, Bool.false_eq_true, if_true, if_false]
  rfl

end
end

/-- SEND and QCTL, from the six cases of the target word. -/
theorem sendOp_results {enc : BitVec 32} {d a b : Nat} {tag : Bool} {s : State} (runs : Runs s) (checks : chk (envOf 4 enc s) [b] [d] [a] = .ok ()) :
    let tw := regGet s s.cur (getSlot s s.cur) a
    let run := sendOp enc d a b tag s
    let core := tw.toNat / 64 % 2048
    (¬ TargetFields tw → run = .next (takeTrap s s.cur 0x12 tw (getSlot s s.cur).pc)) ∧
    (TargetFields tw → targetKind tw = 0 → tag = true → run = .next (takeTrap s s.cur 0x12 0 (getSlot s s.cur).pc)) ∧
    (TargetFields tw → ¬ (targetKind tw = 0 ∧ tag = true) → targetKind tw ≠ 2 →
      (¬ (coreExists core = true ∧ coreFn s core = coreFn s s.cur.core) → run = .next (takeTrap s s.cur 0x08 tw (getSlot s s.cur).pc)) ∧
      (coreExists core = true → coreFn s core = coreFn s s.cur.core → storesInFlight (getSlot s s.cur) < 1023 → outRoom s s.cur.core 0 = true →
        ∀ s1 v, readR (envOf 4 enc s) s b = .ok (s1, v) →
        ∃ s2 id, s2.mem = s1.mem ∧ (getSlot s2 s.cur).tls.msg.issued = (getSlot s1 s.cur).tls.msg.issued + 1 ∧
          ∀ s3, writeR (envOf 4 enc s) (send s2 6 (dskOf (getSlot s s.cur)) (coreUnit s.cur.core) (coreUnit core) (messageBody s tw v tag id))
            d ((getSlot s1 s.cur).tls.msg.issued + 1) = .ok s3 → run = .next (done (envOf 4 enc s) s3))) ∧
    (TargetFields tw → targetKind tw = 2 →
      ((getSlot s s.cur).ports = false → run = .next (takeTrap s s.cur 0x01 (enc.setWidth 64) (getSlot s s.cur).pc)) ∧
      ((getSlot s s.cur).ports = true → ∀ s1 s2 s3 v, readR (envOf 4 enc s) s b = .ok (s1, v) →
        pushLink (envOf 4 enc s) s1 (tw.toNat % 2) v tag = .ok s2 → writeR (envOf 4 enc s) s2 d 0 = .ok s3 → run = .next (done (envOf 4 enc s) s3))) :=
  ⟨sendOp_malformed runs checks rfl, sendOp_register runs checks rfl,
    fun good plain kind => ⟨sendOp_outside runs checks rfl good plain kind,
      fun exists' mine few room _ _ value => sendOp_sends runs checks rfl good plain kind exists' mine few room value⟩,
    fun good kind => ⟨sendOp_link_illegal runs checks rfl good kind,
      fun ports _ _ _ _ value pushed written => sendOp_link runs checks rfl good kind ports value pushed written⟩⟩

end Sys2Proof.Proofs
end

section
/-!
PROOFS. QCFG, QHND and QSTAT (R321 to R323).
-/

namespace Sys2Proof.Proofs

open Sys2Proof.Machine Sys2Proof.Laws Sys2Proof.Claim

variable {d a b : BitVec 7} {s s1 s2 s3 : State} {v w : Word}

theorem exec_qcfg (d a b : BitVec 7) (s : State) : exec (.qcfg d a b) s = execQcfg d a b s := rfl
theorem exec_qhnd (d a b : BitVec 7) (s : State) : exec (.qhnd d a b) s = execQhnd d a b s := rfl
theorem exec_qstat (d a : BitVec 7) (s : State) : exec (.qstat d a) s = execQstat d a s := rfl

/-! ### QCFG (R321) -/

section
variable (runs : Runs s) (checks : chk (envOf 4 (Enc.qcfg d a b) s) [b.toNat] [d.toNat] [a.toNat] = .ok ())
include runs checks

theorem qcfg_noQueue (high : 63 < (regGet s s.cur (getSlot s s.cur) a.toNat).toNat) :
    exec (.qcfg d a b) s = .next (takeTrap s s.cur 0x12 0 (getSlot s s.cur).pc) := by
  have none' : decide ((baseReg (envOf 4 (Enc.qcfg d a b) s) a.toNat).toNat ≤ 63) = false := decide_eq_false (Nat.not_le.mpr high)
  rw [exec_qcfg]
  refine thr_stop runs.1 runs.2 (st := .trap 0x12 0) ?_
  simp only [checks, need, none', trapX, Bool.false_eq_true, if_false, Bind.bind, Except.bind]

theorem qcfg_refused (low : (regGet s s.cur (getSlot s s.cur) a.toNat).toNat ≤ 63)
    (word : readR (envOf 4 (Enc.qcfg d a b) s) s b.toNat = .ok (s1, w)) (bad : ¬ QueueWord w) :
    exec (.qcfg d a b) s = .next (takeTrap s s.cur 0x12 0 (getSlot s s.cur).pc) := by
  have queue : decide ((baseReg (envOf 4 (Enc.qcfg d a b) s) a.toNat).toNat ≤ 63) = true := decide_eq_true low
  rw [exec_qcfg]
  refine thr_stop runs.1 runs.2 (st := .trap 0x12 0) ?_
  simp only [checks, need, queue, envOf_s, word, qOk_iff, bad, trapX, if_true, if_false, Bind.bind, Except.bind]

theorem qcfg_sets (low : (regGet s s.cur (getSlot s s.cur) a.toNat).toNat ≤ 63)
    (word : readR (envOf 4 (Enc.qcfg d a b) s) s b.toNat = .ok (s1, w)) (good : QueueWord w)
    (set : s2 = qSet s1 s.cur.core (regGet s s.cur (getSlot s s.cur) a.toNat).toNat { w0 := w, w1 := 0 })
    (written : writeR (envOf 4 (Enc.qcfg d a b) s)
      (if w.getLsbD 38 then setFullAt s2 (scrKey s.cur.core (w.toNat % 2 ^ 16 * 8)) (8 * (w.toNat / 2 ^ 16 % 2 ^ 16)) false else s2)
      d.toNat (qGet s1 s.cur.core (regGet s s.cur (getSlot s s.cur) a.toNat).toNat).w0 = .ok s3) :
    exec (.qcfg d a b) s = .next (done (envOf 4 (Enc.qcfg d a b) s) s3) := by
  have base : baseReg (envOf 4 (Enc.qcfg d a b) s) a.toNat = regGet s s.cur (getSlot s s.cur) a.toNat := rfl
  rw [exec_qcfg]
  refine thr_next runs.1 runs.2 ?_
  subst set
  simp only [checks, base, need, low, decide_true, envOf_s, envOf_t, word, qOk_iff, good, fld_base, fld_depth, bitAt, written, if_true, Bind.bind, Except.bind,
    pure, Except.pure]

end

/-! ### QHND (R322) -/

section
variable (runs : Runs s) (checks : chk (envOf 4 (Enc.qhnd d a b) s) [b.toNat] [d.toNat] [a.toNat] = .ok ())
include runs checks

theorem qhnd_noQueue (high : 1 < (regGet s s.cur (getSlot s s.cur) a.toNat).toNat) :
    exec (.qhnd d a b) s = .next (takeTrap s s.cur 0x12 0 (getSlot s s.cur).pc) := by
  have none' : decide ((baseReg (envOf 4 (Enc.qhnd d a b) s) a.toNat).toNat ≤ 1) = false := decide_eq_false (Nat.not_le.mpr high)
  rw [exec_qhnd]
  refine thr_stop runs.1 runs.2 (st := .trap 0x12 0) ?_
  simp only [checks, need, none', trapX, Bool.false_eq_true, if_false, Bind.bind, Except.bind]

section
variable (low : (regGet s s.cur (getSlot s s.cur) a.toNat).toNat ≤ 1) (address : readR (envOf 4 (Enc.qhnd d a b) s) s b.toNat = .ok (s1, v))
include low address

theorem qhnd_odd (odd : v.getLsbD 0 = true) : exec (.qhnd d a b) s = .next (takeTrap s s.cur 0x03 0 (getSlot s s.cur).pc) := by
  have queue : decide ((baseReg (envOf 4 (Enc.qhnd d a b) s) a.toNat).toNat ≤ 1) = true := decide_eq_true low
  rw [exec_qhnd]
  refine thr_stop runs.1 runs.2 (st := .trap 0x03 0) ?_
  simp only [checks, need, queue, envOf_s, address, bitAt, odd, trapX, Bool.not_true, Bool.false_eq_true, if_true, if_false, Bind.bind, Except.bind]

theorem qhnd_swaps (even : v.getLsbD 0 = false)
    (written : writeR (envOf 4 (Enc.qhnd d a b) s)
      (modCore s1 s.cur.core fun c => if (regGet s s.cur (getSlot s s.cur) a.toNat).toNat = 0 then { c with hnd0 := v } else { c with hnd1 := v }) d.toNat
      (if (regGet s s.cur (getSlot s s.cur) a.toNat).toNat = 0 then (getCore s1 s.cur.core).hnd0 else (getCore s1 s.cur.core).hnd1) = .ok s2) :
    exec (.qhnd d a b) s = .next (done (envOf 4 (Enc.qhnd d a b) s) s2) := by
  have base : baseReg (envOf 4 (Enc.qhnd d a b) s) a.toNat = regGet s s.cur (getSlot s s.cur) a.toNat := rfl
  rw [exec_qhnd]
  refine thr_next runs.1 runs.2 ?_
  simp only [checks, base, need, low, decide_true, envOf_s, envOf_t, address, bitAt, even, Bool.not_false, written, if_true, Bind.bind, Except.bind, pure,
    Except.pure]

end
end

/-! ### QSTAT (R323) -/

section
variable (runs : Runs s) (checks : chk (envOf 4 (Enc.qstat d a) s) [] [d.toNat] [a.toNat] = .ok ())
include runs checks

theorem qstat_noQueue (high : 63 < (regGet s s.cur (getSlot s s.cur) a.toNat).toNat) :
    exec (.qstat d a) s = .next (takeTrap s s.cur 0x12 0 (getSlot s s.cur).pc) := by
  have none' : decide ((baseReg (envOf 4 (Enc.qstat d a) s) a.toNat).toNat ≤ 63) = false := decide_eq_false (Nat.not_le.mpr high)
  rw [exec_qstat]
  refine thr_stop runs.1 runs.2 (st := .trap 0x12 0) ?_
  simp only [checks, need, none', trapX, Bool.false_eq_true, if_false, Bind.bind, Except.bind]

theorem qstat_gives {c : QCtl} (low : (regGet s s.cur (getSlot s s.cur) a.toNat).toNat ≤ 63)
    (queue : c = qGet s s.cur.core (regGet s s.cur (getSlot s s.cur) a.toNat).toNat)
    (written : writeR (envOf 4 (Enc.qstat d a) s) s d.toNat (BitVec.ofNat 64
      (bit (feGet s (qElem s.cur.core c (qHead c)) && feGet s (qElem s.cur.core c (qHead c) + 4)) * 2 ^ 49 + bit (qEn c) * 2 ^ 48 +
        c.w0.toNat / 2 ^ 16 % 2 ^ 16 * 2 ^ 32 + (c.w1.toNat / 2 ^ 32 + 2 ^ 32 - c.w1.toNat % 2 ^ 32) % 2 ^ 32)) = .ok s1) :
    exec (.qstat d a) s = .next (done (envOf 4 (Enc.qstat d a) s) s1) := by
  have base : baseReg (envOf 4 (Enc.qstat d a) s) a.toNat = regGet s s.cur (getSlot s s.cur) a.toNat := rfl
  rw [← fld_depth, ← qCount_eq] at written
  rw [exec_qstat]
  refine thr_next runs.1 runs.2 ?_
  subst queue
  simp only [checks, base, need, low, decide_true, envOf_s, envOf_t, b2n_eq_bit, qDepth, wd, written, if_true, Bind.bind, Except.bind, pure, Except.pure]

end

/-- Settles O30, from the cases of SEND and QCTL and of the three queue instructions. -/
theorem messagesAndQueues : Obligations.MessagesAndQueues := by
  refine ⟨fun d a b p hp s runs => ?_, fun d a b s s1 w runs checks => ⟨qcfg_noQueue runs checks, fun low word => ⟨qcfg_refused runs checks low word,
      fun good s3 => qcfg_sets runs checks low word good rfl⟩⟩,
    fun d a b s s1 v runs checks => ⟨qhnd_noQueue runs checks, fun low address => ⟨qhnd_odd runs checks low address,
      fun even s2 => qhnd_swaps runs checks low address even⟩⟩,
    fun d a s runs checks => ⟨qstat_noQueue runs checks, fun low s1 => qstat_gives runs checks low rfl⟩⟩
  rcases List.mem_pair.mp hp with rfl | rfl
  · intro e checks
    rw [exec_send]
    exact sendOp_results runs checks
  · intro e checks
    rw [exec_qctl]
    exact sendOp_results runs checks

end Sys2Proof.Proofs
end

section
/-!
SUPPORT. A ticket taken and an engine's command made (R142, R385): what they change of the thread, the core and memory.
-/

namespace Sys2Proof.Proofs

open Sys2Proof.Machine Sys2Proof.Laws Sys2Proof.Claim

variable {s s1 s2 s3 s4 : State} {e : Env} {kind tl p d : Nat} {recA dst v x y w : Word}

theorem takeTicket_copy (s : State) (t : Tid) : (getSlot (takeTicket s t 0).1 t).tls.copy.issued = (getSlot s t).tls.copy.issued + 1 := by
  simp only [takeTicket, getSlot_setSlot_same]
  rfl

theorem takeTicket_route (s : State) (t : Tid) : (getSlot (takeTicket s t 2).1 t).tls.route.issued = (getSlot s t).tls.route.issued + 1 := by
  simp only [takeTicket, getSlot_setSlot_same]
  rfl

theorem takeTicket_eng (s : State) (t : Tid) (i : Nat) : (getCore (takeTicket s t i).1 t.core).eng = (getCore s t.core).eng := by
  simp only [takeTicket, setSlot, getCore_modCore_same]

/-- The launch entry's count of live commands is no part of a core or of memory. -/
theorem engCmd_state (e : Env) (s : State) (kind tl : Nat) (recA dst : Word) (p : Nat) :
    (engCmd e s kind tl recA dst p).1.cores = (takeTicket s e.t tl).1.cores ∧ (engCmd e s kind tl recA dst p).1.mem = s.mem := by
  simp only [engCmd]
  split <;> exact ⟨rfl, rfl⟩

theorem engCmd_tls (e : Env) (s : State) (kind tl : Nat) (recA dst : Word) (p : Nat) :
    (getSlot (engCmd e s kind tl recA dst p).1 e.t).tls = (getSlot (takeTicket s e.t tl).1 e.t).tls := by
  rw [getSlot_of_cores (engCmd_state e s kind tl recA dst p).1]

/-- The command of a thread whose slot is in s1, but for its mailboxes, what it is in s. -/
theorem engCmd_isCommand {len : Word} {enc : BitVec 32} (kept : KeepsRecord s.cur s s1) :
    IsCommand s (engCmd (envOf len enc s) s1 kind tl recA dst p).2 kind recA dst p tl ((tlGet (getSlot s1 s.cur).tls tl).issued + 1) := by
  obtain ⟨-, mb, slot⟩ := kept
  have mode : ((getSlot s s.cur).csr.fmode.setWidth 3 = 5) = ((getSlot s s.cur).csr.fmode.toNat % 8 = 5) := by
    rw [← BitVec.toNat_inj, BitVec.toNat_setWidth]
    rfl
  refine ⟨rfl, rfl, rfl, ?_, rfl, rfl, rfl, rfl, rfl, ?_, ?_, ?_⟩ <;> simp only [engCmd, envOf_t, slot, mode]
  rfl

theorem gotReply_none {acc : List Word} (h : e.sl.ph.length ≠ acc.length ∨ e.sl.res = none) : gotReply e acc = none := by
  unfold gotReply
  split
  · next same => exact h.resolve_left fun other => other same.symm
  · rfl

theorem gotReply_now {acc : List Word} {r : Res} (now : e.sl.ph.length = acc.length) (res : e.sl.res = some r) : gotReply e acc = some r := by
  rw [gotReply, if_pos now.symm, res]

end Sys2Proof.Proofs
end

section
/-!
PROOFS. The copy-engine and ranking-engine instructions (R142, R384, R385).
-/

namespace Sys2Proof.Proofs

open Sys2Proof.Machine Sys2Proof.Laws Sys2Proof.Claim

variable {s s1 s2 s3 s4 : State} {d a b : BitVec 7} {kind p : Nat} {recA dst x y w : Word} {enc : BitVec 32}

theorem exec_cpy (d a b : BitVec 7) (s : State) : exec (.cpy d a b) s = execCpy d a b s := rfl
theorem exec_plane (d a b : BitVec 7) (s : State) : exec (.plane d a b) s = execPlane d a b s := rfl
theorem exec_dense (d a b : BitVec 7) (s : State) : exec (.dense d a b) s = execDense d a b s := rfl
theorem exec_fill (d a : BitVec 7) (s : State) : exec (.fill d a) s = execFill d a s := rfl
theorem exec_route (d a : BitVec 7) (s : State) : exec (.route d a) s = execRoute d a s := rfl
theorem exec_psel (d a : BitVec 7) (s : State) : exec (.psel d a) s = execPsel d a s := rfl

/-! ### Commands of the copy engine (R142) -/

/-- The state in which a copy command stands at the end of its core's list. -/
def commandListed (e : Env) (s : State) (kind : Nat) (recA dst : Word) (p : Nat) : State :=
  modCore (engCmd e s kind 0 recA dst p).1 e.t.core fun k => { k with eng := k.eng ++ [(engCmd e s kind 0 recA dst p).2] }

theorem copyCmd_ok {e : Env} (few : (getCore s e.t.core).eng.length < 128)
    (written : writeR e (commandListed e s kind recA dst p) d.toNat (engCmd e s kind 0 recA dst p).2.num = .ok s2) :
    copyCmd e s kind d recA dst p = .ok (done e s2) := by
  simp only [commandListed] at written
  simp only [copyCmd, await, few, decide_true, if_true, written, Bind.bind, Except.bind, pure, Except.pure]

theorem copyCmd_waits {e : Env} (full : 128 ≤ (getCore s e.t.core).eng.length) : copyCmd e s kind d recA dst p = .error .cond := by
  simp only [copyCmd, await, decide_eq_false (Nat.not_lt.mpr full), Bool.false_eq_true, if_false, Bind.bind, Except.bind]

theorem commandListed_eng (e : Env) (s : State) (kind : Nat) (recA dst : Word) (p : Nat) :
    (getCore (commandListed e s kind recA dst p) e.t.core).eng = (getCore s e.t.core).eng ++ [(engCmd e s kind 0 recA dst p).2] := by
  simp only [commandListed, getCore_modCore_same]
  rw [getCore_of_cores (engCmd_state e s kind 0 recA dst p).1, takeTicket_eng]

theorem commandListed_issued (e : Env) (s : State) (kind : Nat) (recA dst : Word) (p : Nat) :
    (getSlot (commandListed e s kind recA dst p) e.t).tls.copy.issued = (getSlot s e.t).tls.copy.issued + 1 := by
  rw [commandListed, getSlot_modCore, engCmd_tls, takeTicket_copy]
  exact fun _ => rfl

/-- An instruction that ends as a copy command issues it. -/
theorem issuesCopy {i : Instr} {n : Nat} (kept : KeepsRecord s.cur s s1)
    (ends : ∀ s2, copyCmd (envFor 4 i s) s1 kind d recA dst p = .ok s2 → exec i s = .next s2) (dest : n = d.toNat) :
    IssuesCopy s s1 i n kind recA dst p := by
  intro few
  subst dest
  refine ⟨commandListed (envFor 4 i s) s1 kind recA dst p, (engCmd (envFor 4 i s) s1 kind 0 recA dst p).2, engCmd_isCommand kept,
    commandListed_eng _ _ _ _ _ _, commandListed_issued _ _ _ _ _ _, (engCmd_state _ _ _ _ _ _ _).2, fun s3 written => ends _ (copyCmd_ok few written)⟩

/-- CPY and DENSE: with room the command, else the wait. -/
theorem copyOp_results {i : Instr} (runs : Runs s)
    (equation : exec i s = thr 4 (encode i) s fun e => do
      chk e [a.toNat, b.toNat] [d.toNat] []
      let (s, x) ← readR e e.s a.toNat
      let (s, y) ← readR e s b.toNat
      copyCmd e s kind d x y 0)
    (checks : chk (envFor 4 i s) [a.toNat, b.toNat] [d.toNat] [] = .ok ()) (record : readR (envFor 4 i s) s a.toNat = .ok (s1, x))
    (target : readR (envFor 4 i s) s1 b.toNat = .ok (s2, y)) :
    IssuesCopy s s2 i d.toNat kind x y 0 ∧
      (128 ≤ (getCore s2 s.cur.core).eng.length → exec i s = .next (modSlot s s.cur fun sl => { sl with wait := some .cond })) := by
  have kept : KeepsRecord s.cur s s2 := (readR_keepsRecord record).trans (readR_keepsRecord target)
  simp only [envFor] at checks record target
  refine ⟨issuesCopy kept (fun s3 ok => ?_) rfl, fun full => ?_⟩
  · rw [equation]
    refine thr_next runs.1 runs.2 ?_
    simp only [checks, envOf_s, record, target, Bind.bind, Except.bind]
    exact ok
  · rw [equation]
    refine thr_stop runs.1 runs.2 (st := .cond) ?_
    simp only [checks, envOf_s, record, target, Bind.bind, Except.bind]
    exact copyCmd_waits full

theorem plane_issues {c : Word} (runs : Runs s) (checks : chk (envFor 4 (.plane d a b) s) [a.toNat, b.toNat, d.toNat] [d.toNat] [] = .ok ())
    (record : readR (envFor 4 (.plane d a b) s) s a.toNat = .ok (s1, x)) (target : readR (envFor 4 (.plane d a b) s) s1 b.toNat = .ok (s2, y))
    (planes : readR (envFor 4 (.plane d a b) s) s2 d.toNat = .ok (s3, c)) : IssuesCopy s s3 (.plane d a b) d.toNat 1 x y (c.toNat % 32) := by
  have kept : KeepsRecord s.cur s s3 := ((readR_keepsRecord record).trans (readR_keepsRecord target)).trans (readR_keepsRecord planes)
  have count : fld c 4 0 = c.toNat % 32 := by simp [fld_eq]
  simp only [envFor, encode] at checks record target planes
  refine issuesCopy kept (fun s4 ok => ?_) rfl
  rw [exec_plane]
  refine thr_next runs.1 runs.2 ?_
  simp only [checks, envOf_s, record, target, planes, count, Bind.bind, Except.bind]
  exact ok

theorem fill_issues (runs : Runs s) (checks : chk (envFor 4 (.fill d a) s) [a.toNat] [d.toNat] [] = .ok ())
    (record : readR (envFor 4 (.fill d a) s) s a.toNat = .ok (s1, x)) : IssuesCopy s s1 (.fill d a) d.toNat 3 x 0 0 := by
  simp only [envFor, encode] at checks record
  refine issuesCopy (readR_keepsRecord record) (fun s2 ok => ?_) rfl
  rw [exec_fill]
  refine thr_next runs.1 runs.2 ?_
  simp only [checks, envOf_s, record, Bind.bind, Except.bind]
  exact ok

/-! ### Commands of the ranking engine (R211) -/

/-- ROUTE and PSEL: the command goes to the engine of the die. -/
theorem rankOp_sends {i : Instr} (runs : Runs s)
    (equation : exec i s = thr 4 (encode i) s fun e => do
      chk e [a.toNat] [d.toNat] []
      let (s, x) ← readR e e.s a.toNat
      rankCmd e s kind d x)
    (checks : chk (envFor 4 i s) [a.toNat] [d.toNat] [] = .ok ()) (record : readR (envFor 4 i s) s a.toNat = .ok (s1, x))
    (room : outRoom s1 s.cur.core 0 = true) :
    ∃ s3 c, IsCommand s c kind x 0 0 2 ((getSlot s1 s.cur).tls.route.issued + 1) ∧
      (getSlot s3 s.cur).tls.route.issued = (getSlot s1 s.cur).tls.route.issued + 1 ∧ s3.mem = s1.mem ∧
      ∀ s4, writeR (envFor 4 i s) (send s3 10 (dskOf (getSlot s s.cur)) (coreUnit s.cur.core) (rankUnit (s.cur.core / 512)) (.rank c)) d.toNat c.num = .ok s4 →
        exec i s = .next (done (envFor 4 i s) s4) := by
  simp only [envFor] at checks record
  refine ⟨(engCmd (envFor 4 i s) s1 kind 2 x 0 0).1, (engCmd (envFor 4 i s) s1 kind 2 x 0 0).2, engCmd_isCommand (readR_keepsRecord record),
    (congrArg (fun tls => tls.route.issued) (engCmd_tls (envFor 4 i s) _ _ _ _ _ _)).trans (takeTicket_route _ _), (engCmd_state _ _ _ _ _ _ _).2,
    fun s4 written => ?_⟩
  simp only [envFor] at written
  rw [equation]
  refine thr_next runs.1 runs.2 ?_
  simp only [checks, envOf_s, envOf_t, envOf_sl, record, rankCmd, await, room, coreDie, written, if_true, Bind.bind, Except.bind, pure, Except.pure]
  rfl

theorem engineResults : Claim.EngineResults := by
  refine fun d a b s s1 x s2 y runs => ⟨fun p hp => ?_, fun checks record target s3 c => plane_issues runs checks record target,
    fill_issues runs, fun p hp => ?_⟩
  · rcases List.mem_pair.mp hp with rfl | rfl
    · exact copyOp_results runs (exec_cpy d a b s)
    · exact copyOp_results runs (exec_dense d a b s)
  · rcases List.mem_pair.mp hp with rfl | rfl
    · exact rankOp_sends runs (exec_route d a s)
    · exact rankOp_sends runs (exec_psel d a s)

end Sys2Proof.Proofs
end

section
/-!
PROOFS. RQINIT, RQGET and RQDONE: the entry word, the requests to the queue of the gateway's cluster and their replies (R225, R226,
R393).
-/

namespace Sys2Proof.Proofs

open Sys2Proof.Machine Sys2Proof.Laws Sys2Proof.Claim

variable {s s1 s2 s3 s4 : State} {d a b : BitVec 7} {v x y w : Word} {e : Env} {c : BitVec 8} {l r : List Word}

theorem exec_rqinit (d a b : BitVec 7) (s : State) : exec (.rqinit d a b) s = execRqinit d a b s := rfl
theorem exec_rqget (d a : BitVec 7) (s : State) : exec (.rqget d a) s = execRqget d a s := rfl
theorem exec_rqdone (d a b : BitVec 7) (s : State) : exec (.rqdone d a b) s = execRqdone d a b s := rfl

/-! ### The entry word (R393) -/

/-- The core that an entry word names. -/
def gateOf (w : Word) : Nat := w.toNat / 16
/-- An entry word whose core is a gateway of the partition of the current context. -/
def ReachesGateway (s : State) (w : Word) : Prop :=
  gateOf w < 2048 ∧ (gateOf w % 32 = 17 ∨ gateOf w % 32 = 18) ∧ coreExists (gateOf w) = true ∧ coreFn s (gateOf w) = (getCtx s (getSlot s s.cur).ctx).fn

theorem fld_gate (w : Word) (small : w.toNat < 2 ^ 15) : fld w 14 4 = gateOf w := by
  rw [fld_eq, gateOf]
  omega

theorem fld_reserved (w : Word) : fld w 63 15 = 0 ↔ w.toNat < 2 ^ 15 := by
  have := w.isLt
  rw [fld_eq]
  omega

theorem fld_operand (y : Word) : fld y 63 17 = 0 ↔ y.toNat < 2 ^ 17 := by
  have := y.isLt
  rw [fld_eq]
  omega

theorem rqWord_reserved (large : 2 ^ 15 ≤ w.toNat) : rqWord e w = .error (.trap 0x12 0) := by
  have set : ¬ fld w 63 15 = 0 := by
    rw [fld_reserved]
    omega
  simp only [rqWord, need, beq_iff_eq, set, if_false, trapX, Bind.bind, Except.bind]

section
variable {len : Word} {enc : BitVec 32} (small : w.toNat < 2 ^ 15)
include small

theorem gateway_iff : (isGateway (gateOf w) && coreExists (gateOf w) && coreFn s (gateOf w) == (getCtx s (getSlot s s.cur).ctx).fn) = true ↔ ReachesGateway s w := by
  have inside : gateOf w < 2048 := by
    rw [gateOf]
    omega
  simp only [isGateway, coreIdx, ReachesGateway, inside, true_and, Bool.and_eq_true, Bool.or_eq_true, beq_iff_eq, and_assoc]

theorem rqWord_reaches (reach : ReachesGateway s w) : rqWord (envOf len enc s) w = .ok (w.toNat % 16, gateOf w / 32) := by
  have entry : fld w 3 0 = w.toNat % 16 := by simp [fld_eq]
  simp only [rqWord, need, beq_iff_eq, (fld_reserved w).mpr small, fld_gate w small, envOf_s, envOf_sl, (gateway_iff small).mpr reach, entry, coreCl, if_true,
    Bind.bind, Except.bind, pure, Except.pure]

theorem rqWord_elsewhere (away : ¬ ReachesGateway s w) : rqWord (envOf len enc s) w = .error (.trap 0x08 0) := by
  simp only [rqWord, need, beq_iff_eq, (fld_reserved w).mpr small, fld_gate w small, envOf_s, envOf_sl, gateway_iff small, away, if_true, if_false, trapX,
    Bind.bind, Except.bind]

end

/-- The request that an instruction sends to the queue of the cluster of the entry word's gateway. -/
def queueAsked (s s' : State) (acc : List Word) (d : BitVec 7) (w : Word) (op : Nat) (ws : List Word) (blk : Nat) (kind : Bool) : State :=
  requestSent s s' acc [d.toNat] 10 (dskOf (getSlot s s.cur)) (gateOf w / 32 * 256 + 0x2C)
    (.rq op (w.toNat % 16) ws blk kind (getSlot s s.cur).ctx (getSlot s s.cur).csr.wlimt.toNat (.thread s.cur (uidOf s) w))

theorem rqSend_asks {len : Word} {enc : BitVec 32} {acc ws : List Word} {op blk : Nat} {kind : Bool} :
    (rqSend (envOf len enc s) s1 acc d (gateOf w / 32) op (w.toNat % 16) ws blk kind w : X State) =
      .error (.keep (queueAsked s s1 acc d w op ws blk kind)) := rfl

theorem rqReply_words (written : writeR e e.s d.toNat v = .ok s1) : rqReply e d (.words (v :: l)) = .ok (done e s1) := by
  simp only [rqReply, List.headD_cons, written, Bind.bind, Except.bind, pure, Except.pure]

/-! ### RQINIT (R225) -/

/-- A descriptor whose reserved bits are 0 and whose fields are in range. -/
def DescriptorGood (r : List Word) : Prop :=
  (r.getD 0 0).toNat < 2 ^ 32 ∧ ((r.getD 0 0).toNat / 2 ^ 24 = 0x10 ∨ (r.getD 0 0).toNat / 2 ^ 24 = 0x11) ∧ 2 ≤ (r.getD 0 0).toNat / 2 ^ 16 % 256 ∧
    1 ≤ (r.getD 0 0).toNat % 2 ^ 16 ∧ r.getD 5 0 = 0 ∧ r.getD 6 0 = 0 ∧ r.getD 7 0 = 0

theorem rqDescOk_iff (r : List Word) : rqDescOk r = true ↔ DescriptorGood r := by
  generalize hw : r.getD 0 0 = w0
  have size := w0.isLt
  have upper : fld w0 63 32 = 0 ↔ w0.toNat < 2 ^ 32 := by
    rw [fld_high]
    omega
  have format (small : w0.toNat < 2 ^ 32) : fld w0 31 24 = w0.toNat / 2 ^ 24 := by
    rw [fld_eq]
    omega
  have ranks : fld w0 23 16 = w0.toNat / 2 ^ 16 % 256 := fld_eq w0 23 16
  simp only [rqDescOk, DescriptorGood, wAt, hw, Bool.and_eq_true, Bool.or_eq_true, beq_iff_eq, decide_eq_true_eq, upper, ranks, fld_base, ge_iff_le, and_assoc]
  exact and_congr_right fun small => by rw [format small]

section
variable (runs : Runs s) (checks : chk (envOf 4 (Enc.rqinit d a b) s) [a.toNat, b.toNat] [d.toNat] [] = .ok ())
  (address : opnd (envOf 4 (Enc.rqinit d a b) s) s 0 a.toNat = .ok (s1, x)) (word : opnd (envOf 4 (Enc.rqinit d a b) s) s1 1 b.toNat = .ok (s2, w))
include runs checks address word

theorem rqinit_misaligned (odd : x.toNat % 64 ≠ 0) : exec (.rqinit d a b) s = .next (takeTrap s s.cur 0x03 x (getSlot s s.cur).pc) := by
  rw [exec_rqinit]
  refine thr_stop runs.1 runs.2 (st := .trap 0x03 x) ?_
  simp only [checks, envOf_s, address, word, aligned_trap odd, Bind.bind, Except.bind]

theorem rqinit_reserved (even : x.toNat % 64 = 0) (large : 2 ^ 15 ≤ w.toNat) :
    exec (.rqinit d a b) s = .next (takeTrap s s.cur 0x12 0 (getSlot s s.cur).pc) := by
  rw [exec_rqinit]
  refine thr_stop runs.1 runs.2 (st := .trap 0x12 0) ?_
  simp only [checks, envOf_s, address, word, aligned_ok even, rqWord_reserved large, Bind.bind, Except.bind]

theorem rqinit_elsewhere (even : x.toNat % 64 = 0) (small : w.toNat < 2 ^ 15) (away : ¬ ReachesGateway s w) :
    exec (.rqinit d a b) s = .next (takeTrap s s.cur 0x08 0 (getSlot s s.cur).pc) := by
  rw [exec_rqinit]
  refine thr_stop runs.1 runs.2 (st := .trap 0x08 0) ?_
  simp only [checks, envOf_s, address, word, aligned_ok even, rqWord_elsewhere small away, Bind.bind, Except.bind]

section
variable (even : x.toNat % 64 = 0) (small : w.toNat < 2 ^ 15) (reach : ReachesGateway s w)
  (read : phaseRead64 (envOf 4 (Enc.rqinit d a b) s) s2 [x, w] x (dskOf (getSlot s s.cur)) = .ok (s3, [x, w] ++ r))
include even small reach read

theorem rqinit_asks (due : gotReply (envOf 4 (Enc.rqinit d a b) s) ([x, w] ++ r) = none) (good : DescriptorGood r) :
    exec (.rqinit d a b) s = .next (queueAsked s s3 ([x, w] ++ r) d w 0 r 0 false) := by
  have rest : ([x, w] ++ r).drop 2 = r := rfl
  rw [exec_rqinit]
  refine thr_stop runs.1 runs.2 (st := .keep _) ?_
  simp only [checks, envOf_s, envOf_sl, address, word, aligned_ok even, rqWord_reaches small reach, read, due, need, rest, rqDescOk_iff, good, rqSend_asks,
    if_true, Bind.bind, Except.bind]
  rfl

theorem rqinit_refused (due : gotReply (envOf 4 (Enc.rqinit d a b) s) ([x, w] ++ r) = none) (bad : ¬ DescriptorGood r) :
    exec (.rqinit d a b) s = .next (takeTrap s s.cur 0x12 0 (getSlot s s.cur).pc) := by
  have rest : ([x, w] ++ r).drop 2 = r := rfl
  rw [exec_rqinit]
  refine thr_stop runs.1 runs.2 (st := .trap 0x12 0) ?_
  simp only [checks, envOf_s, envOf_sl, address, word, aligned_ok even, rqWord_reaches small reach, read, due, need, rest, rqDescOk_iff, bad, trapX, if_false,
    Bind.bind, Except.bind]

theorem rqinit_answered (reply : gotReply (envOf 4 (Enc.rqinit d a b) s) ([x, w] ++ r) = some (.words (v :: l)))
    (written : writeR (envOf 4 (Enc.rqinit d a b) s) s d.toNat v = .ok s4) :
    exec (.rqinit d a b) s = .next (done (envOf 4 (Enc.rqinit d a b) s) s4) := by
  rw [exec_rqinit]
  refine thr_next runs.1 runs.2 ?_
  simp only [checks, envOf_s, envOf_sl, address, word, aligned_ok even, rqWord_reaches small reach, read, reply, Bind.bind, Except.bind]
  exact rqReply_words written

theorem rqinit_faults (reply : gotReply (envOf 4 (Enc.rqinit d a b) s) ([x, w] ++ r) = some (.fault c v)) :
    exec (.rqinit d a b) s = .next (takeTrap s s.cur c v (getSlot s s.cur).pc) := by
  rw [exec_rqinit]
  refine thr_stop runs.1 runs.2 (st := .trap c v) ?_
  simp only [checks, envOf_s, envOf_sl, address, word, aligned_ok even, rqWord_reaches small reach, read, reply, rqReply, trapX, Bind.bind, Except.bind]

end
end

/-! ### RQGET (R226) -/

section
variable (runs : Runs s) (checks : chk (envOf 4 (Enc.rqget d a) s) [a.toNat] [d.toNat] [] = .ok ())
  (word : opnd (envOf 4 (Enc.rqget d a) s) s 0 a.toNat = .ok (s1, w))
include runs checks word

theorem rqget_reserved (res : (getSlot s s.cur).res = none) (large : 2 ^ 15 ≤ w.toNat) :
    exec (.rqget d a) s = .next (takeTrap s s.cur 0x12 0 (getSlot s s.cur).pc) := by
  have due : gotReply (envOf 4 (Enc.rqget d a) s) [w] = none := gotReply_none (.inr res)
  rw [exec_rqget]
  refine thr_stop runs.1 runs.2 (st := .trap 0x12 0) ?_
  simp only [checks, envOf_s, word, due, rqWord_reserved large, Bind.bind, Except.bind]

theorem rqget_elsewhere (res : (getSlot s s.cur).res = none) (small : w.toNat < 2 ^ 15) (away : ¬ ReachesGateway s w) :
    exec (.rqget d a) s = .next (takeTrap s s.cur 0x08 0 (getSlot s s.cur).pc) := by
  have due : gotReply (envOf 4 (Enc.rqget d a) s) [w] = none := gotReply_none (.inr res)
  rw [exec_rqget]
  refine thr_stop runs.1 runs.2 (st := .trap 0x08 0) ?_
  simp only [checks, envOf_s, word, due, rqWord_elsewhere small away, Bind.bind, Except.bind]

theorem rqget_asks (res : (getSlot s s.cur).res = none) (small : w.toNat < 2 ^ 15) (reach : ReachesGateway s w) :
    exec (.rqget d a) s = .next (queueAsked s s1 [w] d w 1 [] 0 false) := by
  have due : gotReply (envOf 4 (Enc.rqget d a) s) [w] = none := gotReply_none (.inr res)
  rw [exec_rqget]
  refine thr_stop runs.1 runs.2 (st := .keep _) ?_
  simp only [checks, envOf_s, word, due, rqWord_reaches small reach, rqSend_asks, Bind.bind, Except.bind]
  rfl

theorem rqget_answered (ended : (getSlot s s.cur).ph.length = 1) (res : (getSlot s s.cur).res = some (.words (v :: l)))
    (written : writeR (envOf 4 (Enc.rqget d a) s) s d.toNat v = .ok s2) : exec (.rqget d a) s = .next (done (envOf 4 (Enc.rqget d a) s) s2) := by
  have reply : gotReply (envOf 4 (Enc.rqget d a) s) [w] = some (.words (v :: l)) := gotReply_now ended res
  rw [exec_rqget]
  refine thr_next runs.1 runs.2 ?_
  simp only [checks, envOf_s, word, reply, Bind.bind, Except.bind]
  exact rqReply_words written

theorem rqget_faults (ended : (getSlot s s.cur).ph.length = 1) (res : (getSlot s s.cur).res = some (.fault c v)) :
    exec (.rqget d a) s = .next (takeTrap s s.cur c v (getSlot s s.cur).pc) := by
  have reply : gotReply (envOf 4 (Enc.rqget d a) s) [w] = some (.fault c v) := gotReply_now ended res
  rw [exec_rqget]
  refine thr_stop runs.1 runs.2 (st := .trap c v) ?_
  simp only [checks, envOf_s, word, reply, rqReply, trapX, Bind.bind, Except.bind]

end

/-! ### RQDONE (R226) -/

section
variable (runs : Runs s) (checks : chk (envOf 4 (Enc.rqdone d a b) s) [a.toNat, b.toNat] [d.toNat] [] = .ok ())
  (word : opnd (envOf 4 (Enc.rqdone d a b) s) s 0 a.toNat = .ok (s1, w)) (block : opnd (envOf 4 (Enc.rqdone d a b) s) s1 1 b.toNat = .ok (s2, y))
include runs checks word block

section
variable (res : (getSlot s s.cur).res = none)
include res

theorem rqdone_reserved (large : 2 ^ 15 ≤ w.toNat) : exec (.rqdone d a b) s = .next (takeTrap s s.cur 0x12 0 (getSlot s s.cur).pc) := by
  have due : gotReply (envOf 4 (Enc.rqdone d a b) s) [w, y] = none := gotReply_none (.inr res)
  rw [exec_rqdone]
  refine thr_stop runs.1 runs.2 (st := .trap 0x12 0) ?_
  simp only [checks, envOf_s, word, block, due, rqWord_reserved large, Bind.bind, Except.bind]

theorem rqdone_elsewhere (small : w.toNat < 2 ^ 15) (away : ¬ ReachesGateway s w) :
    exec (.rqdone d a b) s = .next (takeTrap s s.cur 0x08 0 (getSlot s s.cur).pc) := by
  have due : gotReply (envOf 4 (Enc.rqdone d a b) s) [w, y] = none := gotReply_none (.inr res)
  rw [exec_rqdone]
  refine thr_stop runs.1 runs.2 (st := .trap 0x08 0) ?_
  simp only [checks, envOf_s, word, block, due, rqWord_elsewhere small away, Bind.bind, Except.bind]

theorem rqdone_operand (small : w.toNat < 2 ^ 15) (reach : ReachesGateway s w) (large : 2 ^ 17 ≤ y.toNat) :
    exec (.rqdone d a b) s = .next (takeTrap s s.cur 0x12 0 (getSlot s s.cur).pc) := by
  have due : gotReply (envOf 4 (Enc.rqdone d a b) s) [w, y] = none := gotReply_none (.inr res)
  have set : ¬ y.toNat < 2 ^ 17 := Nat.not_lt.mpr large
  rw [exec_rqdone]
  refine thr_stop runs.1 runs.2 (st := .trap 0x12 0) ?_
  simp only [checks, envOf_s, word, block, due, rqWord_reaches small reach, need, beq_iff_eq, fld_operand, set, trapX, if_false, Bind.bind, Except.bind]

theorem rqdone_asks (small : w.toNat < 2 ^ 15) (reach : ReachesGateway s w) (fits : y.toNat < 2 ^ 17) (stores : storesDone (getSlot s s.cur) = true) :
    exec (.rqdone d a b) s = .next (queueAsked s s2 [w, y] d w 2 [] (y.toNat % 2 ^ 16) (y.getLsbD 16)) := by
  have due : gotReply (envOf 4 (Enc.rqdone d a b) s) [w, y] = none := gotReply_none (.inr res)
  have released : release (envOf 4 (Enc.rqdone d a b) s) = .ok () := if_pos stores
  rw [exec_rqdone]
  refine thr_stop runs.1 runs.2 (st := .keep _) ?_
  simp only [checks, envOf_s, word, block, due, rqWord_reaches small reach, need, beq_iff_eq, fld_operand, fits, released, fld_base, bitAt, rqSend_asks, if_true,
    Bind.bind, Except.bind]
  rfl

end

theorem rqdone_answered (ended : (getSlot s s.cur).ph.length = 2) (res : (getSlot s s.cur).res = some (.words (v :: l)))
    (written : writeR (envOf 4 (Enc.rqdone d a b) s) s d.toNat v = .ok s3) : exec (.rqdone d a b) s = .next (done (envOf 4 (Enc.rqdone d a b) s) s3) := by
  have reply : gotReply (envOf 4 (Enc.rqdone d a b) s) [w, y] = some (.words (v :: l)) := gotReply_now ended res
  rw [exec_rqdone]
  refine thr_next runs.1 runs.2 ?_
  simp only [checks, envOf_s, word, block, reply, Bind.bind, Except.bind]
  exact rqReply_words written

theorem rqdone_faults (ended : (getSlot s s.cur).ph.length = 2) (res : (getSlot s s.cur).res = some (.fault c v)) :
    exec (.rqdone d a b) s = .next (takeTrap s s.cur c v (getSlot s s.cur).pc) := by
  have reply : gotReply (envOf 4 (Enc.rqdone d a b) s) [w, y] = some (.fault c v) := gotReply_now ended res
  rw [exec_rqdone]
  refine thr_stop runs.1 runs.2 (st := .trap c v) ?_
  simp only [checks, envOf_s, word, block, reply, rqReply, trapX, Bind.bind, Except.bind]

end

theorem reductionQueueResults : Claim.ReductionQueueResults := by
  refine fun d a b s runs => ⟨fun checks s1 x s2 w address word => ⟨rqinit_misaligned runs checks address word, rqinit_reserved runs checks address word,
      rqinit_elsewhere runs checks address word, fun even small reach s3 r read eight => ?_⟩,
    fun checks s1 w word => ⟨rqget_reserved runs checks word, rqget_elsewhere runs checks word, rqget_asks runs checks word,
      fun ended v l s2 => rqget_answered runs checks word ended, fun ended c v => rqget_faults runs checks word ended⟩,
    fun checks s1 w s2 y word block => ⟨rqdone_reserved runs checks word block, rqdone_elsewhere runs checks word block,
      rqdone_operand runs checks word block, rqdone_asks runs checks word block, fun ended v l s3 => rqdone_answered runs checks word block ended,
      fun ended c v => rqdone_faults runs checks word block ended⟩⟩
  have ten : ([x, w] ++ r).length = 10 := by simp [eight]
  have due (open' : (getSlot s s.cur).ph.length ≠ 10 ∨ (getSlot s s.cur).res = none) : gotReply (envOf 4 (Enc.rqinit d a b) s) ([x, w] ++ r) = none :=
    gotReply_none (by rwa [ten])
  have now {q : Res} (ended : (getSlot s s.cur).ph.length = 10) (res : (getSlot s s.cur).res = some q) :
      gotReply (envOf 4 (Enc.rqinit d a b) s) ([x, w] ++ r) = some q := gotReply_now (ended.trans ten.symm) res
  exact ⟨fun open' => rqinit_asks runs checks address word even small reach read (due open'),
    fun open' => rqinit_refused runs checks address word even small reach read (due open'),
    fun ended v l s4 res => rqinit_answered runs checks address word even small reach read (now ended res),
    fun ended c v res => rqinit_faults runs checks address word even small reach read (now ended res)⟩

/-- Settles O40, from the engines' commands and the reduction-queue instructions. -/
theorem engineInstructionResults : Obligations.EngineInstructionResults := ⟨engineResults, reductionQueueResults⟩

end Sys2Proof.Proofs
end

section
/-!
SUPPORT. Windows of a layout record, writes whose keys are found, and what an engine's writes leave alone (R130, R388).
-/

namespace Sys2Proof.Proofs

open Sys2Proof.Machine Sys2Proof.Laws Sys2Proof.Claim

variable {s t : State}

theorem winIdx_length (wins : List Nat) : (winIdx wins).length = wins.prod := by
  induction wins with
  | nil => rfl
  | cons w r ih => simp [winIdx, List.length_flatMap, ih]

theorem lineNotes_keeps {γ : Type} (part : State → γ) (mem : ∀ s m, part { s with mem := m } = part s) (fns : ∀ s n f, part (modFn s n f) = part s)
    (homes : ∀ s u f, part (modHome s u f) = part s) (s : State) (cls u : Nat) (ks : List Nat) : part (lineNotes s cls u ks) = part s := by
  refine foldl_keeps part (fun t k => ?_) ks s
  split
  · exact homeNote_keeps part mem fns homes _ _ _ _ _ _ _
  · rfl

theorem MarksOnly.memoryOnly (h : MarksOnly s t) : MemoryOnly s t := by
  unfold MarksOnly at h
  rw [h]
  rfl

theorem carryMark_memoryOnly (s : State) (k n : Nat) : MemoryOnly s (carryMark s k n) := rfl

theorem MemoryOnly.full (h : MemoryOnly s t) : t.full = s.full := (congrArg State.full h).trans rfl

/-- The writes of an engine that sets no full bit touch memory, its marks, the homes and the packets alone. -/
theorem egPut_memoryOnly (s : State) (l : List (Nat × EgWrite)) : MemoryOnly s (egPut false s l) := by
  have reads := MemoryOnly.foldl (f := fun s (w : Nat × EgWrite) => w.2.keys.foldl (fun s k => markRead s k.1 k.2) s)
    (fun s w => MemoryOnly.foldl (fun s (k : Nat × Nat) => (markRead_marksOnly s k.1 k.2).memoryOnly) w.2.keys s) l s
  refine (reads.trans (MemoryOnly.foldl (fun s (r : Nat × List Byte) => ?_) _ _)).trans (MemoryOnly.foldl (fun s (w : Nat × EgWrite) => ?_) l _)
  · exact homeWrite_memoryOnly s r.1 r.2.length (leNat r.2)
  · split
    · exact carryMark_memoryOnly _ _ _
    · exact .refl s

/-- A list all of whose elements give results gives them element by element. -/
theorem map_of_mapM_ok {ε α β : Type} {f : α → Except ε β} {l : List α} {ks : List β} (found : l.mapM f = .ok ks) : l.map f = ks.map .ok := by
  induction l generalizing ks with
  | nil =>
    cases found
    rfl
  | cons w r ih =>
    rw [List.mapM_cons] at found
    cases at' : f w with
    | error c => simp [at', Bind.bind, Except.bind] at found
    | ok q =>
      cases rest : r.mapM f with
      | error c => simp [at', rest, Bind.bind, Except.bind] at found
      | ok qs =>
        simp only [at', rest, Bind.bind, Except.bind, pure, Except.pure, Except.ok.injEq] at found
        rw [← found, List.map_cons, List.map_cons, ih rest, at']

/-- Writes whose keys are all found are all performed, with no fault. -/
theorem egChoose_all {x : Xl} {l : List (EX EgWrite)} {ks : List (Nat × EgWrite)}
    (found : l.mapM (fun w => do egKey s x (← w)) = .ok ks) : egChoose s x l = (s, ks, none) := by
  have each := map_of_mapM_ok found
  have good : (ks.map (Except.ok (ε := BitVec 8 × Option (Nat × Nat)))).filterMap (fun x => x.toOption) = ks := by
    rw [List.filterMap_map]
    exact List.filterMap_some
  simp only [egChoose, each, good]
  split
  · rfl
  · next first =>
    obtain ⟨q, hq, wrong⟩ := List.exists_of_findSome?_eq_some first
    obtain ⟨a, -, rfl⟩ := List.mem_map.mp hq
    cases wrong

end Sys2Proof.Proofs
end

section
/-!
PROOFS. The copy engine and the ranking engine at work: the wait, the translation and the completion of a command (R42, R142, R151,
R152, R185, R211).
-/

namespace Sys2Proof.Proofs

open Sys2Proof.Machine Sys2Proof.Laws Sys2Proof.Claim

variable {s s1 : State} {x : Xl} {c : EngCmd} {rs : List Nat} {p : EX (List (EX EgWrite))} {cls u : Nat}

theorem exec_engineTicketComplete (core i : Nat) (s : State) : exec (.engineTicketComplete core i) s = execEngineTicketComplete core i s := rfl
theorem exec_routePerform (die : Nat) (s : State) : exec (.routePerform die) s = execRoutePerform die s := rfl
theorem exec_pselPerform (die : Nat) (s : State) : exec (.pselPerform die) s = execPselPerform die s := rfl

/-! ### A command performed by a unit -/

/-- The lines of a command that is performed in s. -/
def planLines (s : State) (x : Xl) (c : EngCmd) (rs : List Nat) (p : EX (List (EX EgWrite))) : List Nat × List Nat := cmdLines (planDo s x p).1 x c rs (planDo s x p).2.1

/-- Whether the homes of those lines let the command be performed. -/
def planGate (s : State) (cls u : Nat) (x : Xl) (c : EngCmd) (rs : List Nat) (p : EX (List (EX EgWrite))) : Bool :=
  lineGate (planDo s x p).1 cls u ((planLines s x c rs p).1 ++ (planLines s x c rs p).2)

/-- The command performed: its writes, its records, and the count of its late packets. -/
def planPerformed (s : State) (cls u : Nat) (x : Xl) (c : EngCmd) (rs : List Nat) (p : EX (List (EX EgWrite))) : State × Nat :=
  cmdLate (lineNotes (egPut (cls == 7) (planDo s x p).1 (planDo s x p).2.1) cls u ((planLines s x c rs p).1 ++ (planLines s x c rs p).2)) c u (planLines s x c rs p)

theorem runPlan_performed (gate : planGate s cls u x c rs p = true) :
    runPlan s cls u x c rs p = some (planPerformed s cls u x c rs p, (planDo s x p).2.2) := if_pos gate

theorem runPlan_held (gate : planGate s cls u x c rs p = false) : runPlan s cls u x c rs p = none := if_neg (Bool.eq_false_iff.mp gate)

/-! ### The copy engine (R142) -/

section
variable {core i : Nat} (runs : coreRuns s core = true) (listed : (getCore s core).eng[i]? = some c)
include runs listed

theorem copy_misses {va need : Nat} (miss : planMiss s (engXl s (some core) core c.ctx c.tr) (copyPlan s (engXl s (some core) core c.ctx c.tr) c) = some (va, need)) :
    exec (.engineTicketComplete core i) s = .next (cmdMiss s core i c va need) := by
  simp only [exec_engineTicketComplete, execEngineTicketComplete, runs, listed, miss, Bool.not_true, Bool.false_eq_true, if_false]

section
variable (found : planMiss s (engXl s (some core) core c.ctx c.tr) (copyPlan s (engXl s (some core) core c.ctx c.tr) c) = none)
include found

theorem copy_waits
    (held : cmdWaits s (engXl s (some core) core c.ctx c.tr) c [] (copyPlan s (engXl s (some core) core c.ctx c.tr) c) = true ∨
      planGate (modCore s core fun k => { k with eng := delAt k.eng i }) 7 (coreUnit core) (engXl s (some core) core c.ctx c.tr) c []
        (copyPlan s (engXl s (some core) core c.ctx c.tr) c) = false) :
    exec (.engineTicketComplete core i) s = .next s := by
  simp only [exec_engineTicketComplete, execEngineTicketComplete, runs, listed, found, Bool.not_true, Bool.false_eq_true, if_false]
  split
  · rfl
  · next free => rw [runPlan_held (held.resolve_left free)]

theorem copy_completes (free : cmdWaits s (engXl s (some core) core c.ctx c.tr) c [] (copyPlan s (engXl s (some core) core c.ctx c.tr) c) = false)
    (gate : planGate (modCore s core fun k => { k with eng := delAt k.eng i }) 7 (coreUnit core) (engXl s (some core) core c.ctx c.tr) c []
      (copyPlan s (engXl s (some core) core c.ctx c.tr) c) = true) :
    let done := planPerformed (modCore s core fun k => { k with eng := delAt k.eng i }) 7 (coreUnit core) (engXl s (some core) core c.ctx c.tr) c []
      (copyPlan s (engXl s (some core) core c.ctx c.tr) c)
    exec (.engineTicketComplete core i) s = .next (cmdEnd done.1 c
      (planDo (modCore s core fun k => { k with eng := delAt k.eng i }) (engXl s (some core) core c.ctx c.tr)
        (copyPlan s (engXl s (some core) core c.ctx c.tr) c)).2.2 done.2) := by
  simp only [exec_engineTicketComplete, execEngineTicketComplete, runs, listed, found, free, runPlan_performed gate, Bool.not_true, Bool.false_eq_true, if_false]

end
end

/-! ### A ranking engine (R211) -/

section
variable {die kind a b : Nat} {late : Option Nat} {rest : List (EngCmd × Nat × Nat × Option Nat)} {reads : State → EngCmd → List Nat}
  {plan : State → EngCmd → EX (List (EX EgWrite))}
  (inside : die < 4) (runs : dieRuns s die = true) (oldest : (getDie (rankLoad s die) die).rank = (c, a, b, late) :: rest) (same : c.kind = kind)
  (live : (getCtx (rankLoad s die) c.ctx).live = true) (standing : (getCtx (rankLoad s die) c.ctx).torn = none)
include inside runs oldest same live standing

theorem rankRun_waits
    (held : cmdWaits (rankLoad s die) { ctx := c.ctx } c (reads (rankLoad s die) c) (plan (rankLoad s die) c) = true ∨
      planGate (modDie (rankLoad s die) die fun d => { d with rank := rest }) 10 (rankUnit die) { ctx := c.ctx } c (reads (rankLoad s die) c)
        (plan (rankLoad s die) c) = false) :
    rankRun s die kind reads plan = rankLoad s die := by
  have lives : cmdLive (rankLoad s die) c = true := by simp [cmdLive, live, standing]
  simp only [rankRun, Nat.not_le.mpr inside, runs, oldest, same, lives, decide_false, Bool.not_true, Bool.or_self, bne_self_eq_false, Bool.false_eq_true, if_false]
  split
  · rfl
  · next free => rw [runPlan_held (held.resolve_left free)]

theorem rankRun_completes (free : cmdWaits (rankLoad s die) { ctx := c.ctx } c (reads (rankLoad s die) c) (plan (rankLoad s die) c) = false)
    (gate : planGate (modDie (rankLoad s die) die fun d => { d with rank := rest }) 10 (rankUnit die) { ctx := c.ctx } c (reads (rankLoad s die) c)
      (plan (rankLoad s die) c) = true) :
    let done := planPerformed (modDie (rankLoad s die) die fun d => { d with rank := rest }) 10 (rankUnit die) { ctx := c.ctx } c (reads (rankLoad s die) c)
      (plan (rankLoad s die) c)
    rankRun s die kind reads plan = cmdEnd done.1 c
      (planDo (modDie (rankLoad s die) die fun d => { d with rank := rest }) { ctx := c.ctx } (plan (rankLoad s die) c)).2.2 (done.2 + bit late.isSome) := by
  have lives : cmdLive (rankLoad s die) c = true := by simp [cmdLive, live, standing]
  simp only [rankRun, Nat.not_le.mpr inside, runs, oldest, same, lives, free, runPlan_performed gate, b2n_eq_bit, decide_false, Bool.not_true, Bool.or_self,
    bne_self_eq_false, Bool.false_eq_true, if_false]

end

/-! ### The end of a command (R42, R65, R142) -/

theorem cmdLate_count (s : State) (c : EngCmd) (u : Nat) (ls : List Nat × List Nat) :
    (c.slack = 0 → cmdLate s c u ls = (s, (lineHomes u ls.1).length + (lineHomes u ls.2).length)) ∧
      (cmdLate s c u ls).2 ≤ (lineHomes u ls.1).length + (lineHomes u ls.2).length := by
  unfold cmdLate lateOfN
  split
  · exact ⟨fun _ => rfl, Nat.le_refl _⟩
  · next slack => exact ⟨fun zero => absurd zero slack, Nat.le_of_lt_succ (Nat.mod_lt _ (Nat.succ_pos _))⟩

theorem cmdEnd_plain (cause : Option (BitVec 8)) (late : Nat) (alone : c.entry = none) :
    ((getSlot s c.t).uid ≠ some c.uid → cmdEnd s c cause late = s) ∧
      ((getSlot s c.t).uid = some c.uid → cmdEnd s c cause late = lateAdd (completeTicket s c.t c.tl c.num cause) c.t late c.recA) := by
  simp only [cmdEnd, alone, bne_iff_ne, ne_eq, ite_not]
  exact ⟨fun other => if_neg other, fun same => if_pos same⟩

theorem lateAdd_counts (s : State) (t : Tid) (n : Nat) (va : Word) :
    lateAdd s t 0 va = s ∧ (n ≠ 0 → (getSlot (lateAdd s t n va) t).csr.late = (getSlot s t).csr.late + BitVec.ofNat 64 n) := by
  refine ⟨rfl, fun some' => ?_⟩
  rw [lateAdd, if_neg some', modCsr, getSlot_modSlot_same]
  rfl

/-! ### Windows of FILL and CPY (R388, R389, R391) -/

section
variable {l : Lay} (record : layRead s x c false = .ok l) (decode : l.decode = false) (gran : l.gran = 0)
  (format : l.fmt ≤ 4 ∨ (8 ≤ l.fmt ∧ l.fmt ≤ 13)) (start : l.base.toNat % laySize l.fmt = 0)
include record decode gran format start

theorem fillPlan_writes (cls : l.cls = 0) : fillPlan s x c = .ok (((winIdx l.wins).filter (inExts l.exts)).map fun ix =>
    .ok { va := l.base + BitVec.ofInt 64 (idxSum l.strs ix * laySize l.fmt), bytes := leBytes (laySize l.fmt) (fillBits l.fmt l.fill) }) := by
  have plain : (decide (l.fmt ≤ 4) || (decide (8 ≤ l.fmt) && decide (l.fmt ≤ 13))) = true := by simpa using format
  simp only [fillPlan, record, exNeed, decode, gran, cls, plain, start, beq_self_eq_true, Bool.not_false, Bool.and_self, if_true, Bind.bind, Except.bind, pure,
    Except.pure, wdInt]

/-- The write of a CPY for element ix of its window, the n-th. -/
def copyWrite (s : State) (x : Xl) (c : EngCmd) (l : Lay) (ix : List Nat) (n : Nat) : EX EgWrite := do
  let (v, ks) ← egBytes s x (l.base + BitVec.ofInt 64 (idxSum l.strs ix * laySize l.fmt)) (laySize l.fmt)
  return { va := c.dst + BitVec.ofNat 64 (n * laySize l.fmt), bytes := leBytes (laySize l.fmt) v, mark := ks.any fun k => eccStatus s k.1 k.2 != 0, keys := ks }

theorem cpyPlan_writes (target : c.dst.toNat % laySize l.fmt = 0) (inside : ∀ ix ∈ winIdx l.wins, inExts l.exts ix = true) :
    cpyPlan s x c = .ok ((winIdx l.wins).zipIdx.map fun i => copyWrite s x c l i.1 i.2) := by
  have plain : (decide (l.fmt ≤ 4) || (decide (8 ≤ l.fmt) && decide (l.fmt ≤ 13))) = true := by simpa using format
  have based : baseOk l.fmt none l = true := by
    have zero : l.base.toNat % (if l.fmt = 0 then 1 else (elCell l.fmt).1) = 0 := start
    simp only [baseOk, zero, beq_self_eq_true, Bool.or_true]
  simp only [cpyPlan, record, exNeed, decode, gran, plain, target, start, readFmt, based, beq_self_eq_true, Bool.not_false, Bool.and_self, Bool.false_and,
    Bool.false_or, Bool.true_or, Bool.false_eq_true, if_true, if_false, Bind.bind, Except.bind, pure, Except.pure, wdInt, wd]
  congr 1
  rw [← List.filterMap_eq_map]
  refine List.filterMap_congr fun i hi => ?_
  rw [if_pos (inside i.1 (List.fst_mem_of_mem_zipIdx hi))]
  rfl

end

theorem copyWrite_of_read {l : Lay} {ix : List Nat} {n v : Nat} {ks : List (Nat × Nat)}
    (read : egBytes s x (l.base + BitVec.ofInt 64 (idxSum l.strs ix * laySize l.fmt)) (laySize l.fmt) = .ok (v, ks)) :
    copyWrite s x c l ix n = .ok
      { va := c.dst + BitVec.ofNat 64 (n * laySize l.fmt), bytes := leBytes (laySize l.fmt) v, mark := ks.any fun k => eccStatus s k.1 k.2 != 0, keys := ks } := by
  simp only [copyWrite, read, Bind.bind, Except.bind, pure, Except.pure]

theorem copyAndRankResults : Claim.CopyAndRankResults := by
  refine ⟨fun s core i c runs listed => ⟨fun va need => copy_misses runs listed, copy_waits runs listed, copy_completes runs listed⟩,
    fun s die inside runs k hk => ?_, cmdLate_count, fun s l => (egPut_memoryOnly s l).full, fun s x l ks => egChoose_all, fun s x cause => rfl,
    fun s cls u l plain => ⟨lineGateOf_plain plain cls u l, lineNotesOf_plain plain cls u u l false⟩, fun s c cause late => cmdEnd_plain cause late, lateAdd_counts,
    fun s x c l record decode gran cls => ⟨fun format start => fillPlan_writes record decode gran format start cls, fun format start target inside =>
      ⟨_, cpyPlan_writes record decode gran format start target inside, by rw [List.length_map, List.length_zipIdx, winIdx_length], fun n ix v ks at' read =>
        ⟨_, by rw [List.getElem?_map, List.getElem?_zipIdx, at']; exact congrArg some (copyWrite_of_read read), by rw [Nat.zero_add], rfl⟩⟩⟩⟩
  rcases List.mem_pair.mp hk with rfl | rfl
  · intro s1 c a b late rest oldest same live standing
    exact ⟨fun held => congrArg Host.Outcome.next (rankRun_waits inside runs oldest same live standing held),
      fun free gate => congrArg Host.Outcome.next (rankRun_completes inside runs oldest same live standing free gate)⟩
  · intro s1 c a b late rest oldest same live standing
    exact ⟨fun held => congrArg Host.Outcome.next (rankRun_waits inside runs oldest same live standing held),
      fun free gate => congrArg Host.Outcome.next (rankRun_completes inside runs oldest same live standing free gate)⟩

end Sys2Proof.Proofs
end

section
/-!
PROOFS. The reduction queue beside a gateway core: its operations, the commit and the timeout (R197, R225 to R227).
-/

namespace Sys2Proof.Proofs

open Sys2Proof.Machine Sys2Proof.Laws Sys2Proof.Claim

variable {s s1 : State} {cl i : Nat} {p : Packet} {op b wl ctx : Nat} {ws : List Word} {kind : Bool} {r : Ret}

theorem exec_rqOperation (cl : Nat) (s : State) : exec (.rqOperation cl) s = execRqOperation cl s := rfl
theorem exec_rqCommitDone (cl i : Nat) (s : State) : exec (.rqCommitDone cl i) s = execRqCommitDone cl i s := rfl
theorem exec_rqgetTimeout (cl i : Nat) (s : State) : exec (.rqgetTimeout cl i) s = execRqgetTimeout cl i s := rfl

/-! ### Entries and waiting RQGETs -/

theorem rdNblk_eq (ws : List Word) : rdNblk ws = (wAt ws 0).toNat % 2 ^ 16 := fld_base _

theorem rqEnt_modRq (s : State) (cl i : Nat) (f : RqEnt → RqEnt) : rqEnt (modRq s cl i f) cl i = f (rqEnt s cl i) := by
  simp only [rqEnt, modRq, getCl_modCl_same, smMod, smGet_smSet_same]

theorem modRq_modRq (s : State) (cl i : Nat) (f g : RqEnt → RqEnt) : modRq (modRq s cl i f) cl i g = modRq s cl i fun e => g (f e) := by
  simp only [modRq, modCl_modCl]
  congr 1
  funext c
  simp only [Function.comp, smMod, smGet_smSet_same, Proofs.smSet_smSet]

/-- A change of an entry is what it makes of that entry. -/
theorem modRq_congr {f g : RqEnt → RqEnt} (same : f (rqEnt s cl i) = g (rqEnt s cl i)) : modRq s cl i f = modRq s cl i g := by
  unfold rqEnt at same
  simp only [modRq, modCl, smMod, same]

theorem rqWaits_modRq (s : State) (cl i : Nat) (f : RqEnt → RqEnt) : (getCl (modRq s cl i f) cl).rqWaits = (getCl s cl).rqWaits := by
  simp only [modRq, getCl_modCl_same]

/-- With no RQGET waiting on an entry, its change wakes nobody. -/
theorem rqWake_nobody (nobody : ∀ w ∈ (getCl s cl).rqWaits, w.entry ≠ i) : rqWake s cl i = s := by
  have none' : (getCl s cl).rqWaits.find? (fun w => w.entry == i) = none := by
    rw [List.find?_eq_none]
    exact fun w hw => by simpa using nobody w hw
  unfold rqWake
  cases (getCl s cl).rqWaits.length with
  | zero => rfl
  | succ n => simp only [rqServe, none']

theorem getCl_reply (s : State) (cls u : Nat) (p : Packet) (r : Ret) (x : Res) (cl : Nat) : getCl (reply s cls u p r x) cl = getCl s cl := by
  rw [getCl, reply_clusters, ← getCl]

/-! ### Operations (R225, R226) -/

/-- The state in which an operation of a queue leaves what it does with entry i of s1. -/
def rqPerform (s1 : State) (cl : Nat) (p : Packet) (op i : Nat) (ws : List Word) (b : Nat) (kind : Bool) (ctx wl : Nat) (r : Ret) : State :=
  match op with
  | 0 => rqInit s1 cl p i ws ctx r
  | 1 => rqGet s1 cl p i wl r
  | _ => rqDone s1 cl p i b kind ctx r

theorem rqOperation_performs (runs : dieRuns s (clDie cl) = true)
    (taken : takeFirst s (rqUnit cl) 0 (fun p => match p.body with | .rq _ _ _ _ _ _ _ _ => true | _ => false) = some (p, s1))
    (body : p.body = .rq op i ws b kind ctx wl r) : exec (.rqOperation cl) s = .next (rqPerform s1 cl p op i ws b kind ctx wl r) := by
  simp only [exec_rqOperation, execRqOperation, runs, Bool.not_true, Bool.false_eq_true, if_false]
  split
  · next empty => exact absurd (taken.symm.trans empty) nofun
  · next q s2 first =>
    obtain ⟨rfl, rfl⟩ := Prod.mk.inj (Option.some.inj (taken.symm.trans first))
    simp only [body]
    rfl

section
variable (answers : r ≠ .none)
include answers

theorem rqInit_open (taken : (rqEnt s cl i).st = 1 ∨ (rqEnt s cl i).st = 2) :
    rqInit s cl p i ws ctx r = replied s 16 (rqUnit cl) p r (.fault 0x08 0) := by
  have busy : ((rqEnt s cl i).st = 1 || (rqEnt s cl i).st = 2) = true := by simpa using taken
  rw [rqInit, if_pos busy, reply_eq_replied answers]

theorem rqInit_opens (one : (rqEnt s cl i).st ≠ 1) (two : (rqEnt s cl i).st ≠ 2) :
    rqInit s cl p i ws ctx r = replied (modRq s cl i fun _ => { st := 1, ws := ws, ctx := ctx }) 16 (rqUnit cl) p r (.words [0]) := by
  have idle : ¬ ((rqEnt s cl i).st = 1 || (rqEnt s cl i).st = 2) = true := by simp [one, two]
  rw [rqInit, if_neg idle, reply_eq_replied answers]

theorem rqGet_idle (st : (rqEnt s cl i).st = 0) : rqGet s cl p i wl r = replied s 16 (rqUnit cl) p r (.words [0xFFFFFFFD]) := by
  simp only [rqGet, st, reply_eq_replied answers]

theorem rqGet_failed (st : (rqEnt s cl i).st = 4) : rqGet s cl p i wl r = replied s 16 (rqUnit cl) p r (.words [0xFFFFFFFE]) := by
  simp only [rqGet, st, reply_eq_replied answers]

theorem rqGet_over (st : (rqEnt s cl i).st = 2 ∨ (rqEnt s cl i).st = 3) : rqGet s cl p i wl r = replied s 16 (rqUnit cl) p r (.words [0xFFFFFFFF]) := by
  rcases st with st | st <;> simp only [rqGet, st, reply_eq_replied answers]

section
variable (st : (rqEnt s cl i).st = 1)
include st

theorem rqGet_assigns {k : Nat} (ready : rqReady (rqEnt s cl i) = some k) (nobody : ∀ w ∈ (getCl s cl).rqWaits, w.entry ≠ i) :
    rqGet s cl p i wl r =
      replied (modRq s cl i fun e => { e with assigned := ssIns k e.assigned }) 16 (rqUnit cl) p r (.words [BitVec.ofNat 64 k]) := by
  simp only [rqGet, st, ready]
  rw [rqWake_nobody, reply_eq_replied answers]
  · rfl
  · rwa [getCl_reply, rqWaits_modRq]

theorem rqGet_none (ready : rqReady (rqEnt s cl i) = none) (all : (wAt (rqEnt s cl i).ws 0).toNat % 2 ^ 16 ≤ (rqEnt s cl i).assigned.length) :
    rqGet s cl p i wl r = replied s 16 (rqUnit cl) p r (.words [0xFFFFFFFF]) := by
  have assigned : rqAllAssigned (rqEnt s cl i) = true := decide_eq_true (by rwa [rdNblk_eq])
  simp only [rqGet, st, ready, assigned, if_true, reply_eq_replied answers]

theorem rqDone_unlisted (lists : rdLists (rqEnt s cl i).ws ctx = false) :
    rqDone s cl p i b kind ctx r = replied s 16 (rqUnit cl) p r (.fault 0x08 0) := by
  simp only [rqDone, st, lists, reply_eq_replied answers, bne_self_eq_false, Bool.not_false, Bool.false_eq_true, if_true, if_false, OfNat.one_ne_ofNat]

section
variable (lists : rdLists (rqEnt s cl i).ws ctx = true)
include lists

theorem rqDone_noBlock (outside : (wAt (rqEnt s cl i).ws 0).toNat % 2 ^ 16 ≤ b) :
    rqDone s cl p i b kind ctx r = replied s 16 (rqUnit cl) p r (.words [2]) := by
  simp only [rqDone, st, lists, rdNblk_eq, ge_iff_le, outside, reply_eq_replied answers, bne_self_eq_false, Bool.not_true, Bool.false_eq_true, if_true, if_false,
    OfNat.one_ne_ofNat]

theorem rqDone_arrives (inside : b < (wAt (rqEnt s cl i).ws 0).toNat % 2 ^ 16) (arrival : kind = false) (nobody : ∀ w ∈ (getCl s cl).rqWaits, w.entry ≠ i) :
    rqDone s cl p i b kind ctx r = replied (modRq s cl i fun e => { e with arrived := smMod 0 e.arrived b (· + 1) }) 16 (rqUnit cl) p r (.words [0]) := by
  simp only [rqDone, st, lists, rdNblk_eq, ge_iff_le, Nat.not_le.mpr inside, arrival, bne_self_eq_false, Bool.not_true, Bool.false_eq_true, if_false,
    OfNat.one_ne_ofNat]
  rw [rqWake_nobody, reply_eq_replied answers]
  rwa [getCl_reply, rqWaits_modRq]

theorem rqDone_reduces (inside : b < (wAt (rqEnt s cl i).ws 0).toNat % 2 ^ 16) (reduced : kind = true)
    (more : (ssIns b (rqEnt s cl i).reduced).length < (wAt (rqEnt s cl i).ws 0).toNat % 2 ^ 16) :
    rqDone s cl p i b kind ctx r = replied (modRq s cl i fun e => { e with reduced := ssIns b e.reduced }) 16 (rqUnit cl) p r (.words [0]) := by
  simp only [rqDone, st, lists, rdNblk_eq, ge_iff_le, Nat.not_le.mpr inside, reduced, bne_self_eq_false, Bool.not_true, Bool.false_eq_true, if_true, if_false,
    OfNat.one_ne_ofNat, rqReduced, rqEnt_modRq, more, reply_eq_replied answers]

end
end
end

/-- A claim that finds no ready block, while some are unassigned, waits. -/
theorem rqGet_waits (st : (rqEnt s cl i).st = 1) (ready : rqReady (rqEnt s cl i) = none)
    (some' : (rqEnt s cl i).assigned.length < (wAt (rqEnt s cl i).ws 0).toNat % 2 ^ 16) :
    rqGet s cl p i wl r = modCl s cl fun c => { c with rqWaits := c.rqWaits ++
      [{ src := p.src, slack := slackLeft s.tick.toNat p, late := lateAge s.tick.toNat p, entry := i,
         deadline := if wl = 0 then none else some (s.tick.toNat + wl), ret := r }] } := by
  have open' : rqAllAssigned (rqEnt s cl i) = false := decide_eq_false (by rw [rdNblk_eq]; omega)
  simp only [rqGet, st, ready, open', Bool.false_eq_true, if_false]
  rfl

/-- The entry whose last block is reported reduced: it commits, to the places that it finds now. -/
def rqCommitting (s : State) (cl i b : Nat) (last : Nat × Nat × Option Nat × Ret) (e : RqEnt) : RqEnt :=
  let s2 := modRq s cl i fun e => { e with reduced := ssIns b e.reduced }
  { e with reduced := ssIns b e.reduced, st := 2, keys := rqKeys s2 (rqEnt s2 cl i), assigned := List.range ((wAt (rqEnt s cl i).ws 0).toNat % 2 ^ 16), last := some last }

theorem rqDone_commits (st : (rqEnt s cl i).st = 1) (lists : rdLists (rqEnt s cl i).ws ctx = true)
    (inside : b < (wAt (rqEnt s cl i).ws 0).toNat % 2 ^ 16) (reduced : kind = true)
    (all : (wAt (rqEnt s cl i).ws 0).toNat % 2 ^ 16 ≤ (ssIns b (rqEnt s cl i).reduced).length) (nobody : ∀ w ∈ (getCl s cl).rqWaits, w.entry ≠ i) :
    rqDone s cl p i b kind ctx r = modRq s cl i (rqCommitting s cl i b (p.src, slackLeft s.tick.toNat p, lateAge s.tick.toNat p, r)) := by
  simp only [rqDone, st, lists, rdNblk_eq, ge_iff_le, Nat.not_le.mpr inside, reduced, bne_self_eq_false, Bool.not_true, Bool.false_eq_true, if_true, if_false,
    OfNat.one_ne_ofNat, rqReduced, rqEnt_modRq, Nat.not_lt.mpr all]
  rw [rqWake_nobody, modRq_modRq]
  · refine modRq_congr ?_
    simp only [rqCommitting, rqEnt_modRq]
    rfl
  · rwa [rqWaits_modRq, rqWaits_modRq]

theorem rqDone_failed (answers : r ≠ .none) (st : (rqEnt s cl i).st = 4) : rqDone s cl p i b kind ctx r = replied s 16 (rqUnit cl) p r (.words [1]) := by
  simp only [rqDone, st, reply_eq_replied answers, if_true]

theorem rqDone_closed (answers : r ≠ .none) (one : (rqEnt s cl i).st ≠ 1) (four : (rqEnt s cl i).st ≠ 4) :
    rqDone s cl p i b kind ctx r = replied s 16 (rqUnit cl) p r (.words [2]) := by
  simp only [rqDone, four, bne_iff_ne, one, ne_eq, not_false_eq_true, reply_eq_replied answers, if_true, if_false]

/-! ### Commit and timeout (R197, R226, R227) -/

theorem lineNotes_egPut_clusters (s : State) (l : List (Nat × EgWrite)) (cls u : Nat) (ks : List Nat) :
    (lineNotes (egPut false s l) cls u ks).clusters = s.clusters :=
  (lineNotes_keeps State.clusters (fun _ _ => rfl) (fun _ _ _ => rfl) (fun _ _ _ => rfl) _ _ _ _).trans (egPut_memoryOnly s l).clusters

theorem rqCopies_isEmpty (s : State) (e : RqEnt) : (rqCopies s e).isEmpty = decide (e.keys = []) := by
  cases h : e.keys <;> simp [rqCopies, h]

/-- The end of a commit: DONE, or FAILED where no place was reached. -/
def rqEnded (e : RqEnt) : RqEnt := { e with st := if e.keys = [] then 4 else 3, last := none }

theorem rqCommitDone_ends {src slack : Nat} {late : Option Nat} (runs : dieRuns s (clDie cl) = true) (committing : (rqEnt s cl i).st = 2)
    (last : (rqEnt s cl i).last = some (src, slack, late, r))
    {ks : List Nat} (lines : ks = ((rqCopies s (rqEnt s cl i)).flatMap fun w => w.2.keys.map fun k => k.1 / 64).eraseDups ++ egLines (rqCopies s (rqEnt s cl i)))
    (gate : lineGate s 10 (rqUnit cl) ks = true) :
    exec (.rqCommitDone cl i) s = .next (inject (modRq (lineNotes (egPut false s (rqCopies s (rqEnt s cl i))) 10 (rqUnit cl) ks) cl i rqEnded)
      { cls := 16, slack := slack, late := late, src := rqUnit cl, dst := src, body := .reply r (.words [if (rqEnt s cl i).keys = [] then 1 else 0]) }) := by
  have same : rqEnt (lineNotes (egPut false s (rqCopies s (rqEnt s cl i))) 10 (rqUnit cl) ks) cl i = rqEnt s cl i := by
    rw [rqEnt, getCl, lineNotes_egPut_clusters, ← getCl, ← rqEnt]
  subst lines
  simp only [exec_rqCommitDone, execRqCommitDone, committing, runs, gate, last, rqCopies_isEmpty, bne_self_eq_false, Bool.not_true, Bool.or_self,
    Bool.false_eq_true, if_false, decide_eq_true_eq]
  refine congrArg Host.Outcome.next (congrArg₂ inject (modRq_congr ?_) ?_)
  · rw [same]
    rfl
  · by_cases none' : (rqEnt s cl i).keys = [] <;> simp [none']

theorem rqCopies_bytes (s : State) (e : RqEnt) : (rqCopies s e).length = e.keys.length ∧
    ∀ (j : Nat) k, e.keys[j]? = some k → ∃ w, (rqCopies s e)[j]? = some (k.2, w) ∧ w.bytes = [memByte s.mem k.1] := by
  refine ⟨List.length_map _, fun j k at' => ⟨{ bytes := [memByte s.mem k.1], mark := eccStatus s k.1 1 != 0, keys := [(k.1, 1)] }, ?_, rfl⟩⟩
  rw [rqCopies, List.getElem?_map, at']
  rfl

theorem rqgetTimeout_expires {w : RqWait} {d : Nat} (waits : (getCl s cl).rqWaits[i]? = some w) (limit : w.deadline = some d) (due : d ≤ s.tick.toNat) :
    exec (.rqgetTimeout cl i) s = .next (inject (modCl s cl fun c => { c with rqWaits := delAt c.rqWaits i })
      { cls := 16, slack := w.slack, late := w.late, src := rqUnit cl, dst := w.src, body := .reply w.ret (.fault 0x0A 0) }) := by
  have reached : ¬ tickN s < d := Nat.not_lt.mpr due
  simp only [exec_rqgetTimeout, execRqgetTimeout, waits, limit, reached, if_false]
  rfl

theorem reductionResults : Claim.ReductionResults := by
  refine ⟨fun s cl p s1 op i ws b kind ctx wl r runs taken body answers => ?_, fun s cl i src slack late r runs => ?_, rqCopies_bytes,
    fun s cl i w d => rqgetTimeout_expires⟩
  · have performs {t : State} (result : rqPerform s1 cl p op i ws b kind ctx wl r = t) : exec (.rqOperation cl) s = .next t :=
      (rqOperation_performs runs taken body).trans (congrArg _ result)
    refine ⟨?_, ?_, ?_⟩
    · rintro rfl
      exact ⟨fun st => performs (rqInit_open answers st), fun one two => performs (rqInit_opens answers one two)⟩
    · rintro rfl
      exact ⟨fun st => performs (rqGet_idle answers st), fun st => performs (rqGet_failed answers st), fun st => performs (rqGet_over answers st),
        fun k st ready nobody => performs (rqGet_assigns answers st ready nobody), fun st ready all => performs (rqGet_none answers st ready all),
        fun st ready some' => performs (rqGet_waits st ready some')⟩
    · rintro rfl
      exact ⟨fun st => performs (rqDone_failed answers st), fun one four => performs (rqDone_closed answers one four),
        fun st lists => performs (rqDone_unlisted answers st lists), fun st lists outside => performs (rqDone_noBlock answers st lists outside),
        fun st lists inside arrival nobody => performs (rqDone_arrives answers st lists inside arrival nobody),
        fun st lists inside reduced more => performs (rqDone_reduces answers st lists inside reduced more),
        fun st lists inside reduced all nobody => performs (rqDone_commits st lists inside reduced all nobody)⟩
  · exact fun committing last gate => rqCommitDone_ends runs committing last rfl gate

/-- Settles O55, from the engines' commands and the reduction queues. -/
theorem engineResultsAtHomes : Obligations.EngineResultsAtHomes := ⟨copyAndRankResults, reductionResults⟩

end Sys2Proof.Proofs
end

section
/-!
SUPPORT. What an instruction leaves of its thread and its core: a relation between the state before and the states that its steps
pass through, closed under each operation that may occur (R121, R192, R326).
-/

namespace Sys2Proof.Proofs

open Sys2Proof.Machine Sys2Proof.Laws Sys2Proof.Claim

variable {s t : State} {d k : Nat} {C : Csrs → Csrs → Csrs}

/-! ### The thread -/

/-- Every register but d, predicate but k and slot but the thread's is as in s, and of its CSRs only those differ that C lets differ. -/
structure Near (s : State) (d k : Nat) (C : Csrs → Csrs → Csrs) (t : State) : Prop where
  others : OthersKept s t d k
  csr : (getSlot t s.cur).csr = C (getSlot s s.cur).csr (getSlot t s.cur).csr

/-- A permission to differ that covers no difference at all, and what taking a trap writes. -/
structure Admits (C : Csrs → Csrs → Csrs) : Prop where
  same : ∀ c, C c c = c
  trap : ∀ c x v pc, C c { c with tcause := x, tval := v, tepc := pc, trapActive := true } = { c with tcause := x, tval := v, tepc := pc, trapActive := true }

theorem admits_trapped (flags : Bool) : Admits (trapped · · flags) := by cases flags <;> exact ⟨fun _ => rfl, fun _ _ _ _ => rfl⟩
theorem admits_excepted : Admits excepted := ⟨fun _ => rfl, fun _ _ _ _ => rfl⟩

theorem Near.refl (admits : Admits C) (s : State) : Near s d k C s :=
  ⟨⟨fun _ _ => rfl, fun _ _ => rfl, fun _ _ => rfl⟩, (admits.same _).symm⟩

/-- A state with the same cores. -/
theorem Near.of_cores (near : Near s d k C t) {u : State} (same : u.cores = t.cores) : Near s d k C u := by
  obtain ⟨⟨regs, preds, slots⟩, csr⟩ := near
  refine ⟨⟨fun r h => ?_, fun m h => ?_, fun x h => ?_⟩, ?_⟩
  · rw [regGet_of_cores same, regs r h]
  · rw [getSlot_of_cores same, preds m h]
  · rw [getSlot_of_cores same, slots x h]
  · rw [getSlot_of_cores same, ← csr]

/-- The thread's slot replaced by one with its predicates. -/
theorem Near.setSlot (near : Near s d k C t) {x : Slot} (ks : x.ks = (getSlot t s.cur).ks) (csr : x.csr = C (getSlot s s.cur).csr x.csr) :
    Near s d k C (setSlot t s.cur x) := by
  obtain ⟨⟨regs, preds, slots⟩, -⟩ := near
  refine ⟨⟨fun r h => ?_, fun m h => ?_, fun y h => ?_⟩, ?_⟩
  · rw [regGet_setSlot, regs r h]
  · rw [getSlot_setSlot_same, ← preds m h, predGet, predGet, ks]
  · rw [getSlot_setSlot_other _ _ h, slots y h]
  · rw [getSlot_setSlot_same, ← csr]

/-- The thread's slot changed outside its predicates and CSRs. -/
theorem Near.modSlot (near : Near s d k C t) {f : Slot → Slot} (ks : ∀ x, (f x).ks = x.ks) (csr : ∀ x, (f x).csr = x.csr) :
    Near s d k C (modSlot t s.cur f) := near.setSlot (ks _) (by rw [csr]; exact near.csr)

theorem Near.regSet (near : Near s d k C t) (v : Word) : Near s d k C (regSet t s.cur (getSlot s s.cur) d v) := by
  obtain ⟨⟨regs, preds, slots⟩, csr⟩ := near
  refine ⟨⟨fun r h => ?_, fun m h => ?_, fun x h => ?_⟩, ?_⟩
  · rw [regGet_regSet_other _ _ _ _ h, regs r h]
  · rw [getSlot_regSet, preds m h]
  · rw [getSlot_regSet, slots x h]
  · rw [getSlot_regSet, ← csr]

theorem Near.predSet (near : Near s d k C t) (v : Word) : Near s d k C (predSet t s.cur k v) := by
  obtain ⟨⟨regs, preds, slots⟩, csr⟩ := near
  refine ⟨⟨fun r h => ?_, fun m h => ?_, fun x h => ?_⟩, ?_⟩
  · rw [Machine.predSet, regGet_modSlot, regs r h]
  · rw [predGet_predSet_other _ _ _ h, preds m h]
  · rw [Machine.predSet, getSlot_modSlot_other _ _ h, slots x h]
  · rw [Machine.predSet, getSlot_modSlot_same]
    exact csr

/-- A change of a core that is none of its registers or slots. -/
theorem Near.modCore (near : Near s d k C t) (c : Nat) {f : Core → Core} (regs : ∀ x, (f x).regs = x.regs) (slots : ∀ x, (f x).slots = x.slots) :
    Near s d k C (modCore t c f) := by
  have slot := getSlot_modCore t c f slots
  have regGet' (r : Nat) : regGet (Machine.modCore t c f) s.cur (getSlot s s.cur) r = regGet t s.cur (getSlot s s.cur) r := by
    by_cases own : s.cur.core = c
    · rw [regGet, regGet, ← own, getCore_modCore_same, regs]
    · rw [regGet, regGet, getCore_modCore_other _ _ own]
  obtain ⟨⟨kept, preds, others⟩, csr⟩ := near
  exact ⟨⟨fun r h => (regGet' r).trans (kept r h), fun m h => by rw [slot, preds m h], fun x h => by rw [slot, others x h]⟩, by rw [slot, ← csr]⟩

/-- The rounding flags and the generator state changed. -/
theorem Near.flags (near : Near s d k (trapped · · true) t) (f : BitVec 6) (x : BitVec 32) :
    Near s d k (trapped · · true) (setSeed (orFlags t s.cur f) s.cur x) := by
  have csr : { (getSlot t s.cur).csr with fflags := (getSlot t s.cur).csr.fflags ||| f, fseed := x } =
      trapped (getSlot s s.cur).csr { (getSlot t s.cur).csr with fflags := (getSlot t s.cur).csr.fflags ||| f, fseed := x } true := by
    generalize flags : (getSlot t s.cur).csr.fflags ||| f = g
    have csr := near.csr
    generalize (getSlot t s.cur).csr = c at csr ⊢
    conv_lhs => rw [csr]
    rfl
  simp only [setSeed, orFlags, modCsr, Machine.modSlot, getSlot_setSlot_same, setSlot_setSlot]
  exact near.setSlot rfl csr

theorem Near.readied (near : Near s d k C t) (target : Word) :
    Near s d k C (Machine.modSlot t s.cur fun sl => { readied sl with pc := target, ord := sl.ord + 1 }) :=
  near.modSlot (fun _ => rfl) fun _ => rfl

theorem Near.done (near : Near s d k C t) (len : Word) (enc : BitVec 32) : Near s d k C (done (envOf len enc s) t) := near.readied _
theorem Near.jumpTo (near : Near s d k C t) (len : Word) (enc : BitVec 32) (target : Word) : Near s d k C (jumpTo (envOf len enc s) t target) :=
  near.readied _

/-- A trap that the thread's handler takes. -/
theorem Near.takeTrap (near : Near s d k C t) (admits : Admits C) (handled : Handled s) (same : (getSlot t s.cur).csr = (getSlot s s.cur).csr)
    (c : BitVec 8) (v pc : Word) : Near s d k C (takeTrap t s.cur c v pc) := by
  obtain ⟨handler, outside, -⟩ := handled
  rw [takeTrap_handler (by rwa [same]) (by rwa [same])]
  refine near.setSlot rfl ?_
  rw [same, admits.trap]

/-! ### An instruction's parts -/

/-- What Q says of the state in which a part of an instruction stops, and P of its result where it goes on. -/
def Leaves {α : Type} (e : Env) (Q : State → Prop) (P : α → Prop) : X α → Prop
  | .ok a => P a
  | .error st => Q (applyStop e st)

namespace Leaves

variable {α β : Type} {e : Env} {Q : State → Prop} {P : α → Prop} {P' : β → Prop} {x : X α} {f : α → X β}

theorem bind (first : Leaves e Q P x) (rest : ∀ a, P a → Leaves e Q P' (f a)) : Leaves e Q P' (x >>= f) := by
  cases x with
  | error st => exact first
  | ok a => exact rest a first

theorem mono {P₂ : α → Prop} (h : Leaves e Q P x) (weaker : ∀ a, P a → P₂ a) : Leaves e Q P₂ x := by
  cases x with
  | error st => exact h
  | ok a => exact weaker a h

theorem need {b : Bool} {c : BitVec 8} {v : Word} (trap : Q (applyStop e (.trap c v))) : Leaves e Q (fun _ => b = true) (need b c v) := by
  cases b
  · exact trap
  · exact rfl

theorem await {b : Bool} (wait : Q (applyStop e .cond)) : Leaves e Q (fun _ => b = true) (await b) := by
  cases b
  · exact wait
  · exact rfl

/-- The checks of register fields: a trap, or a wait. -/
theorem chk {rd wr np vs : List Nat} (trap : ∀ c v, Q (applyStop e (.trap c v))) (wait : Q (applyStop e .cond)) :
    Leaves e Q (fun _ => True) (chk e rd wr np vs) := by
  unfold Machine.chk
  split
  · exact trap _ _
  · split
    · exact trap _ _
    · split
      · exact wait
      · trivial

/-- The state that a thread instruction leaves, from what its body does. -/
theorem thr {len : Word} {enc : BitVec 32} {body : Env → X State} (h : Leaves (envOf len enc s) Q Q (body (envOf len enc s)))
    (runs : Runs s) (went : thr len enc s body = .next t) : Q t := by
  rw [thr_eq runs.1 runs.2] at went
  cases result : body (envOf len enc s) with
  | ok a =>
    rw [result] at went h
    cases went
    exact h
  | error st =>
    rw [result] at went h
    cases went
    exact h

end Leaves

end Sys2Proof.Proofs
end

section
/-!
SUPPORT. What a scalar instruction leaves unchanged, through its checks, reads and writes (R121, R192, R280).
-/

namespace Sys2Proof.Proofs

open Sys2Proof.Machine Sys2Proof.Laws Sys2Proof.Claim

variable {s t : State} {d k n : Nat} {flags : Bool} {len : Word} {enc : BitVec 32}

/-- Nothing of the machine but the core of the thread, and the count of free choices, differs. -/
structure InCore (s t : State) : Prop where
  rest : t = { s with cores := t.cores, freeCnt := t.freeCnt }
  cores : ∀ c, c ≠ s.cur.core → getCore t c = getCore s c

theorem InCore.refl (s : State) : InCore s s := ⟨rfl, fun _ _ => rfl⟩

theorem InCore.modCore (inside : InCore s t) (f : Core → Core) : InCore s (modCore t s.cur.core f) :=
  ⟨(congrArg (fun u : State => { u with cores := (Machine.modCore t s.cur.core f).cores }) inside.rest).trans rfl,
    fun c h => (getCore_modCore_other _ _ h).trans (inside.cores c h)⟩

theorem InCore.setSlot (inside : InCore s t) (x : Slot) : InCore s (setSlot t s.cur x) := inside.modCore _
theorem InCore.modSlot (inside : InCore s t) (f : Slot → Slot) : InCore s (modSlot t s.cur f) := inside.setSlot (f (getSlot t s.cur))

theorem InCore.regSet (inside : InCore s t) (sl : Slot) (n : Nat) (v : Word) : InCore s (regSet t s.cur sl n v) := by
  unfold Machine.regSet
  split
  · exact inside
  · exact inside.modCore _

theorem InCore.takeTrap (inside : InCore s t) (handled : Handled s) (same : (getSlot t s.cur).csr = (getSlot s s.cur).csr) (c : BitVec 8) (v pc : Word) :
    InCore s (takeTrap t s.cur c v pc) := by
  obtain ⟨handler, outside, -⟩ := handled
  rw [takeTrap_handler (by rwa [same]) (by rwa [same])]
  exact inside.setSlot _

/-- What a scalar instruction leaves: see `Near` and `InCore`. -/
structure ScalarKept (s : State) (d k : Nat) (flags : Bool) (t : State) : Prop where
  near : Near s d k (trapped · · flags) t
  inside : InCore s t

namespace ScalarKept

theorem refl (s : State) : ScalarKept s d k flags s := ⟨.refl (admits_trapped flags) s, .refl s⟩

theorem regSet (kept : ScalarKept s d k flags t) (v : Word) : ScalarKept s d k flags (regSet t s.cur (getSlot s s.cur) d v) :=
  ⟨kept.near.regSet v, kept.inside.regSet _ _ v⟩
theorem predSet (kept : ScalarKept s d k flags t) (v : Word) : ScalarKept s d k flags (predSet t s.cur k v) := ⟨kept.near.predSet v, kept.inside.modSlot _⟩
theorem modSlot (kept : ScalarKept s d k flags t) {f : Slot → Slot} (ks : ∀ x, (f x).ks = x.ks) (csr : ∀ x, (f x).csr = x.csr) :
    ScalarKept s d k flags (modSlot t s.cur f) := ⟨kept.near.modSlot ks csr, kept.inside.modSlot f⟩
theorem rounded (kept : ScalarKept s d k true t) (f : BitVec 6) (x : BitVec 32) : ScalarKept s d k true (setSeed (orFlags t s.cur f) s.cur x) :=
  ⟨kept.near.flags f x, (kept.inside.setSlot _).setSlot _⟩
theorem done (kept : ScalarKept s d k flags t) : ScalarKept s d k flags (done (envOf len enc s) t) := ⟨kept.near.done len enc, kept.inside.setSlot _⟩
theorem jumpTo (kept : ScalarKept s d k flags t) (target : Word) : ScalarKept s d k flags (jumpTo (envOf len enc s) t target) :=
  ⟨kept.near.jumpTo len enc target, kept.inside.setSlot _⟩

/-- An operation put into the iterative unit (R279). -/
theorem iterIssue (kept : ScalarKept s d k flags t) (r : Nat) (v : Word) (f : BitVec 6) (x : BitVec 32) :
    ScalarKept s d k flags (iterIssue (envOf len enc s) t r v f x) :=
  have issued (op : IterOp) := kept.near.modCore s.cur.core (f := fun c => { c with iter := c.iter ++ [op] }) (fun _ => rfl) fun _ => rfl
  ⟨(issued _).modSlot (f := fun sl => { sl with wait := some .iter, awaits := [r] }) (fun _ => rfl) fun _ => rfl, (kept.inside.modCore _).setSlot _⟩

theorem takeTrap (kept : ScalarKept s d k flags t) (handled : Handled s) (same : (getSlot t s.cur).csr = (getSlot s s.cur).csr) (c : BitVec 8) (v pc : Word) :
    ScalarKept s d k flags (takeTrap t s.cur c v pc) :=
  ⟨kept.near.takeTrap (admits_trapped flags) handled same c v pc, kept.inside.takeTrap handled same c v pc⟩

section
variable (handled : Handled s)
include handled

theorem trap (c : BitVec 8) (v : Word) : ScalarKept s d k flags (applyStop (envOf len enc s) (.trap c v)) := (refl s).takeTrap handled rfl c v _
omit handled in
theorem waits : ScalarKept s d k flags (applyStop (envOf len enc s) .cond) :=
  (refl s).modSlot (f := fun sl => { sl with wait := some .cond }) (fun _ => rfl) fun _ => rfl

end
end ScalarKept

/-! ### The parts of a scalar instruction -/

section
variable {α β : Type} {P : β → Prop} {x : X α} (handled : Handled s)
include handled

theorem scalar_checks {rd wr np vs : List Nat} {f : Unit → X β} (rest : Leaves (envOf len enc s) (ScalarKept s d k flags) P (f ())) :
    Leaves (envOf len enc s) (ScalarKept s d k flags) P (chk (envOf len enc s) rd wr np vs >>= f) :=
  (Leaves.chk (.trap handled) .waits).bind fun _ _ => rest

theorem scalar_needs {b : Bool} {c : BitVec 8} {v : Word} {f : Unit → X β} (rest : Leaves (envOf len enc s) (ScalarKept s d k flags) P (f ())) :
    Leaves (envOf len enc s) (ScalarKept s d k flags) P (need b c v >>= f) :=
  (Leaves.need (.trap handled c v)).bind fun _ _ => rest

omit handled in
theorem scalar_awaits {b : Bool} {f : Unit → X β} (rest : Leaves (envOf len enc s) (ScalarKept s d k flags) P (f ())) :
    Leaves (envOf len enc s) (ScalarKept s d k flags) P (await b >>= f) := (Leaves.await .waits).bind fun _ _ => rest

/-- A thread without ports reads a register, and nothing changes. -/
theorem scalar_reads {Q : State → Prop} {f : State × Word → X β} (rest : ∀ v, Leaves (envOf len enc s) Q P (f (t, v))) :
    Leaves (envOf len enc s) Q P (readR (envOf len enc s) t n >>= f) := by
  rw [readR_window (.inl handled.2.2)]
  exact rest _

theorem scalar_writes {Q : State → Prop} {v : Word} {f : State → X β} (rest : Leaves (envOf len enc s) Q P (f (regSet t s.cur (getSlot s s.cur) n v))) :
    Leaves (envOf len enc s) Q P (writeR (envOf len enc s) t n v >>= f) := by
  rw [writeR_window (.inl handled.2.2)]
  exact rest

end

end Sys2Proof.Proofs
end

section
/-!
PROOFS. The frame of the scalar instructions, by operand form (R280 to R299).
-/

namespace Sys2Proof.Proofs

open Sys2Proof.Machine Sys2Proof.Laws Sys2Proof.Claim

variable {i : Instr} {d k a b : Nat} {flags : Bool} {len : Word} {enc : BitVec 32}

/-- A free value drawn. -/
theorem ScalarKept.drawn {s t : State} (kept : ScalarKept s d k flags t) (n : Nat) : ScalarKept s d k flags { t with freeCnt := n } :=
  ⟨kept.near.of_cores rfl, ⟨(congrArg (fun u : State => { u with freeCnt := n }) kept.inside.rest).trans rfl, kept.inside.cores⟩⟩

/-- The checks of a CSR number (R198, R272). -/
theorem scalar_allows {s : State} (handled : Handled s) {n : Nat} {wr : Bool} {β : Type} {P : β → Prop} {f : Unit → X β}
    (rest : Leaves (envOf len enc s) (ScalarKept s d k flags) P (f ())) :
    Leaves (envOf len enc s) (ScalarKept s d k flags) P (csrAllowed (envOf len enc s) n wr >>= f) := by
  rw [csrAllowed_eq]
  exact scalar_needs handled rest

/-! ### A place in the ring (R137, R195) -/

theorem clearFault_keeps (x : Slot) (src : Nat) (num : Word) : (clearFault x src num).ks = x.ks ∧ (clearFault x src num).csr = x.csr := by
  unfold clearFault
  split <;> exact ⟨rfl, rfl⟩

/-- The report of a late fault clears it and traps. -/
theorem report_keeps {s : State} (handled : Handled s) {ring : Bool} {cover : Nat → TFault → Bool} :
    Leaves (envOf len enc s) (ScalarKept s d k flags) (fun _ => True) (report (envOf len enc s) s ring cover) := by
  unfold report
  split
  · trivial
  next _ src c num _ =>
    have cleared : ScalarKept s d k flags (modSlot s s.cur fun sl => clearFault sl src num) :=
      (ScalarKept.refl s).modSlot (fun x => (clearFault_keeps x src num).1) fun x => (clearFault_keeps x src num).2
    refine cleared.takeTrap handled ?_ _ _ _
    rw [getSlot_modSlot_same, (clearFault_keeps _ src num).2]

theorem ringGate_keeps {s : State} (handled : Handled s) :
    Leaves (envOf len enc s) (ScalarKept s d k flags) (fun _ => True) (ringGate (envOf len enc s)) := by
  unfold ringGate
  split
  · exact scalar_awaits (report_keeps handled)
  · trivial

theorem takeRing_keeps {s : State} (handled : Handled s) {tile spark : Bool} :
    Leaves (envOf len enc s) (ScalarKept s d k flags) (fun r => ScalarKept s d k flags r.1) (takeRing (envOf len enc s) s tile spark) := by
  unfold takeRing
  refine (ringGate_keeps handled).bind fun _ _ => ?_
  dsimp only
  split
  · exact .waits
  · exact ⟨(Near.refl (admits_trapped flags) s).setSlot rfl (Near.refl (d := d) (k := k) (admits_trapped flags) s).csr, (InCore.refl s).setSlot _⟩

theorem ScalarKept.setRing {s t : State} (kept : ScalarKept s d k flags t) (n : BitVec 32) (x : RingSt) : ScalarKept s d k flags (setRing t s.cur n x) :=
  kept.modSlot (f := fun sl => { sl with ring := sl.ring.map fun r => if r.seq = n then { r with st := x } else r }) (fun _ => rfl) fun _ => rfl

/-! ### What an instruction keeps -/

/-- Where o is a next state, it has left what a scalar instruction with destinations d and k leaves. -/
def EndsKept (s : State) (d k : Nat) (flags : Bool) (o : Host.Outcome State Fault Refusal) : Prop := ∀ t, o = .next t → ScalarKept s d k flags t
section
variable {s : State} (runs : Runs s) (handled : Handled s)
include runs handled

omit handled in
theorem endsKept_of_body {body : Env → X State}
    (leaves : Leaves (envOf len enc s) (ScalarKept s d k flags) (ScalarKept s d k flags) (body (envOf len enc s))) :
    EndsKept s d k flags (thr len enc s body) := fun _ went => Leaves.thr leaves runs went

/-! ### Integer forms -/

theorem keeps_alu2 {f : Word → Word → Word} : EndsKept s d 0 false (alu2 len enc d a b s f) :=
  endsKept_of_body runs <| scalar_checks handled <| scalar_reads handled fun _ => scalar_reads handled fun _ => scalar_writes handled <|
    ((ScalarKept.refl s).regSet _).done

theorem keeps_alu1 {f : Word → Word} : EndsKept s d 0 false (alu1 len enc d a s f) :=
  endsKept_of_body runs <| scalar_checks handled <| scalar_reads handled fun _ => scalar_writes handled <|
    ((ScalarKept.refl s).regSet _).done

theorem keeps_alu3 {f : Word → Word → Word → Word} : EndsKept s d 0 false (alu3 len enc d a b s f) :=
  endsKept_of_body runs <| scalar_checks handled <| scalar_reads handled fun _ => scalar_reads handled fun _ =>
    scalar_reads handled fun _ => scalar_writes handled <| ((ScalarKept.refl s).regSet _).done

theorem keeps_written {v : Env → Word} : EndsKept s d 0 false (thr len enc s fun e => do
    chk e [] [d] []
    let s ← writeR e e.s d (v e)
    return done e s) :=
  endsKept_of_body runs <| scalar_checks handled <| scalar_writes handled <| ((ScalarKept.refl s).regSet _).done

theorem keeps_alu0 {v : Word} : EndsKept s d 0 false (alu0 len enc d s v) := keeps_written (v := fun _ => v) runs handled
theorem keeps_kpopc {d : BitVec 7} {p : BitVec 3} : EndsKept s d.toNat 0 false (execKpopc d p s) :=
  keeps_written (v := fun e => wd (popCount 64 (predGet e.sl p.toNat).toNat)) runs handled
theorem keeps_kfirst {d : BitVec 7} {p : BitVec 3} : EndsKept s d.toNat 0 false (execKfirst d p s) :=
  keeps_written (v := fun e => wd (ctzN 64 (predGet e.sl p.toNat).toNat)) runs handled
theorem keeps_ktog {d : BitVec 7} {p : BitVec 3} : EndsKept s d.toNat 0 false (execKtog d p s) :=
  keeps_written (v := fun e => predGet e.sl p.toNat) runs handled

theorem keeps_divOp {f : Word → Word → Word} : EndsKept s d 0 false (divOp enc d a b s f) :=
  endsKept_of_body runs <| scalar_checks handled <| scalar_reads handled fun _ => scalar_reads handled fun _ =>
    (ScalarKept.refl s).iterIssue _ _ _ _

/-! ### Compares, predicates and branches -/

theorem keeps_cmp2 {c : Word → Word → Bool} : EndsKept s 0 k false (cmp2 enc k a b s c) :=
  endsKept_of_body runs <| scalar_checks handled <| scalar_reads handled fun _ => scalar_reads handled fun _ =>
    ((ScalarKept.refl s).predSet _).done

theorem keeps_cmp1 {c : Word → Bool} : EndsKept s 0 k false (cmp1 enc k a s c) :=
  endsKept_of_body runs <| scalar_checks handled <| scalar_reads handled fun _ => ((ScalarKept.refl s).predSet _).done

omit handled in
theorem keeps_kop {f : Word → Word → Word} : EndsKept s 0 k false (kop enc k a b s f) :=
  endsKept_of_body runs <| ((ScalarKept.refl s).predSet _).done

theorem keeps_branch {code : Nat} {off : Word} : EndsKept s 0 0 false (branch enc code a off s) :=
  endsKept_of_body runs <| scalar_checks handled <| scalar_reads handled fun x => by
    show ScalarKept s 0 0 false (if brCond code x then _ else _)
    split
    · exact (ScalarKept.refl s).jumpTo _
    · exact (ScalarKept.refl s).done

/-! ### Float forms -/

theorem keeps_fsel2 {fm : Fmt} {f : Fmt → Nat → Nat → Nat} : EndsKept s d 0 false (fsel2 enc d a b s fm f) := keeps_alu2 runs handled
theorem keeps_fsel1 {fm : Fmt} {f : Fmt → Nat → Nat} : EndsKept s d 0 false (fsel1 enc d a s fm f) := keeps_alu1 runs handled
theorem keeps_fcmp {code p : Nat} : EndsKept s 0 k false (fcmp enc k a b s code p) := by
  unfold fcmp
  exact keeps_cmp2 runs handled
theorem keeps_cvtWide {src dst : Fmt} : EndsKept s d 0 false (cvtWide enc d a s src dst) := keeps_alu1 runs handled

omit runs in
/-- A rounded result written, with its flags and the generator state. -/
theorem putFR_kept (r : FR) :
    Leaves (envOf len enc s) (ScalarKept s d 0 true) (ScalarKept s d 0 true) (putFR (envOf len enc s) s d r) :=
  scalar_writes handled (((ScalarKept.refl s).regSet _).rounded _ _).done

theorem keeps_fop2 {fm : Fmt} {f : Bool → XV → XV → XV} : EndsKept s d 0 true (fop2 len enc d a b s fm f) :=
  endsKept_of_body runs <| scalar_checks handled <| scalar_reads handled fun _ => scalar_reads handled fun _ => putFR_kept handled _

theorem keeps_fmaOp {fm : Fmt} : EndsKept s d 0 true (fmaOp enc d a b s fm) :=
  endsKept_of_body runs <| scalar_checks handled <| scalar_reads handled fun _ => scalar_reads handled fun _ =>
    scalar_reads handled fun _ => putFR_kept handled _

theorem keeps_fiter2 {fm : Fmt} {f : XV → XV → XV} : EndsKept s d 0 true (fiter2 enc d a b s fm f) :=
  endsKept_of_body runs <| scalar_checks handled <| scalar_reads handled fun _ => scalar_reads handled fun _ =>
    (ScalarKept.refl s).iterIssue _ _ _ _

theorem keeps_fiter1 {fm : Fmt} {f : XV → XV} : EndsKept s d 0 true (fiter1 enc d a s fm f) :=
  endsKept_of_body runs <| scalar_checks handled <| scalar_reads handled fun _ => (ScalarKept.refl s).iterIssue _ _ _ _

theorem keeps_cvtRound {dst : Fmt} {val : Word → XV} : EndsKept s d 0 true (cvtRound enc d a s dst val) :=
  endsKept_of_body runs <| scalar_checks handled <| scalar_reads handled fun _ => putFR_kept handled _

theorem keeps_cvtInt {src : Fmt} {w : Nat} : EndsKept s d 0 true (cvtInt enc d a s src w) :=
  endsKept_of_body runs <| scalar_checks handled <| scalar_reads handled fun _ => scalar_writes handled <|
    (((ScalarKept.refl s).regSet _).rounded _ _).done

/-! ### Forms of one instruction each -/

theorem keeps_feat {d a : BitVec 7} : EndsKept s d.toNat 0 false (execFeat d a s) :=
  endsKept_of_body runs <| scalar_checks handled <| scalar_reads handled fun _ => scalar_writes handled <|
    ((ScalarKept.refl s).regSet _).done

theorem keeps_seqq {d a : BitVec 7} : EndsKept s d.toNat 0 false (execSeqq d a s) :=
  endsKept_of_body runs <| scalar_checks handled <| scalar_reads handled fun _ => scalar_needs handled <| scalar_writes handled <|
    ((ScalarKept.refl s).regSet _).done

theorem keeps_lis {d : BitVec 7} {w : BitVec 18} : EndsKept s d.toNat 0 false (execLis d w s) :=
  endsKept_of_body runs <| scalar_checks handled <| scalar_reads handled fun _ => scalar_writes handled <|
    ((ScalarKept.refl s).regSet _).done

theorem keeps_sel {d a b : BitVec 7} {k : BitVec 3} {z : BitVec 1} : EndsKept s d.toNat 0 false (execSel d a b k z s) :=
  endsKept_of_body runs <| scalar_checks handled <| scalar_reads handled fun _ => scalar_reads handled fun _ =>
    scalar_writes handled <| ((ScalarKept.refl s).regSet _).done

theorem keeps_jal {d : BitVec 7} {w : BitVec 18} : EndsKept s d.toNat 0 false (execJal d w s) :=
  endsKept_of_body runs <| scalar_checks handled <| scalar_writes handled <| ((ScalarKept.refl s).regSet _).jumpTo _

theorem keeps_jalr {d a : BitVec 7} {i : BitVec 11} : EndsKept s d.toNat 0 false (execJalr d a i s) :=
  endsKept_of_body runs <| scalar_checks handled <| scalar_reads handled fun _ => scalar_needs handled <| scalar_writes handled <|
    ((ScalarKept.refl s).regSet _).jumpTo _

theorem keeps_kfromg {k : BitVec 3} {a : BitVec 7} : EndsKept s 0 k.toNat false (execKfromg k a s) :=
  endsKept_of_body runs <| scalar_checks handled <| scalar_reads handled fun _ => ((ScalarKept.refl s).predSet _).done

omit handled in
theorem keeps_bk {k : BitVec 3} {z : BitVec 1} {w : BitVec 18} : EndsKept s 0 0 false (execBk k z w s) := by
  refine endsKept_of_body runs ?_
  show ScalarKept s 0 0 false (if _ then _ else _)
  split
  · exact (ScalarKept.refl s).jumpTo _
  · exact (ScalarKept.refl s).done

theorem keeps_csrrd {d : BitVec 7} {i : BitVec 11} : EndsKept s d.toNat 0 false (execCsrrd d i s) := by
  refine endsKept_of_body runs ?_
  dsimp only
  split
  · exact ScalarKept.trap handled _ _
  · refine scalar_checks handled ?_
    refine scalar_allows handled ?_
    refine scalar_awaits ?_
    split
    · exact scalar_writes handled (((ScalarKept.refl s).drawn _).regSet _).done
    · exact scalar_writes handled ((ScalarKept.refl s).regSet _).done

theorem keeps_vextr {d b : BitVec 7} {v : BitVec 4} : EndsKept s d.toNat 0 false (execVextr d v b s) :=
  endsKept_of_body runs <| (ringGate_keeps handled).bind fun _ _ => scalar_checks handled <|
    (takeRing_keeps handled).bind fun ⟨_, _⟩ taken => scalar_reads handled fun _ => scalar_writes handled <| ((taken.setRing _ _).regSet _).done

/-! ### All forms -/

theorem integerForms_keep (d a b : BitVec 7) :
    ∀ x ∈ ([.add d a b, .sub d a b, .and d a b, .or d a b, .xor d a b, .andn d a b, .orn d a b, .xnor d a b, .sll d a b, .srl d a b, .sra d a b,
      .rol d a b, .ror d a b, .min d a b, .max d a b, .minn d a b, .maxn d a b, .mul d a b, .mulh d a b, .mulhn d a b, .mulhsn d a b] : List Instr) ++
      (([.div d a b, .divn d a b, .rem d a b, .remn d a b] : List Instr) ++ (([.sext d a b, .zext d a b, .addw d a b, .subw d a b, .bfx d a b,
      .bfxn d a b] : List Instr) ++ (([.bfi d a b] : List Instr) ++ ([.shadd1 d a b, .shadd2 d a b, .shadd3 d a b, .hash d a b] : List Instr)))),
      EndsKept s d.toNat 0 false (exec x s) := by
  simp only [List.forall_mem_append, List.forall_mem_cons, List.not_mem_nil, false_implies, implies_true, and_true]
  refine ⟨?_, ?_, ?_, ?_, ?_⟩
  · and_intros <;> (delta Machine.exec; exact keeps_alu2 runs handled)
  · and_intros <;> (delta Machine.exec; exact keeps_divOp runs handled)
  · and_intros <;> (delta Machine.exec; exact keeps_alu2 runs handled)
  · delta Machine.exec
    exact keeps_alu3 runs handled
  · and_intros <;> (delta Machine.exec; exact keeps_alu2 runs handled)

theorem immediateForms_keep (d a b : BitVec 7) (k p : BitVec 3) (i : BitVec 11) (n : BitVec 6) (w : BitVec 18) (z : BitVec 1) :
    ∀ x ∈ ([.clz d a, .ctz d a, .popc d a] : List Instr) ++ (([.feat d a, .seqq d a, .csrrd d i] : List Instr) ++ (([.addi d a i, .andi d a i, .ori d a i,
      .xori d a i, .muli d a i] : List Instr) ++ (([.jalr d a i] : List Instr) ++ (([.slli d a n, .srli d a n, .srai d a n, .roli d a n] : List Instr)
      ++ ([.li d w, .lis d w, .jal d w, .addpc d i, .sel d a b k z, .kpopc d p, .kfirst d p, .ktog d p] : List Instr))))),
      EndsKept s d.toNat 0 false (exec x s) := by
  simp only [List.forall_mem_append, List.forall_mem_cons, List.not_mem_nil, false_implies, implies_true, and_true]
  refine ⟨?_, ?_, ?_, ?_, ?_, ?_⟩
  · and_intros <;> (delta Machine.exec; exact keeps_alu1 runs handled)
  · refine ⟨?_, ?_, ?_⟩ <;> delta Machine.exec
    exacts [keeps_feat runs handled, keeps_seqq runs handled, keeps_csrrd runs handled]
  · and_intros <;> (delta Machine.exec; exact keeps_alu1 runs handled)
  · delta Machine.exec
    exact keeps_jalr runs handled
  · and_intros <;> (delta Machine.exec; exact keeps_alu1 runs handled)
  · refine ⟨?_, ?_, ?_, ?_, ?_, ?_, ?_, ?_⟩ <;> delta Machine.exec
    exacts [keeps_alu0 runs handled, keeps_lis runs handled, keeps_jal runs handled, keeps_alu0 runs handled, keeps_sel runs handled,
      keeps_kpopc runs handled, keeps_kfirst runs handled, keeps_ktog runs handled]

theorem floatForms_keep (d a b : BitVec 7) (v : BitVec 4) :
    ∀ x ∈ ([.fminF32 d a b, .fmaxF32 d a b] : List Instr) ++ (([.fabsF32 d a, .fnegF32 d a, .fclassF32 d a] : List Instr) ++ (([.fminF64 d a b,
      .fmaxF64 d a b] : List Instr) ++ (([.fabsF64 d a, .fnegF64 d a, .fclassF64 d a] : List Instr) ++ ([.cvtf2d d a, .cvtw2d d a, .cvtb2f d a,
      .cvth2f d a, .vextr d v b] : List Instr)))),
      EndsKept s d.toNat 0 false (exec x s) := by
  simp only [List.forall_mem_append, List.forall_mem_cons, List.not_mem_nil, false_implies, implies_true, and_true]
  refine ⟨?_, ?_, ?_, ?_, ?_⟩
  · refine ⟨?_, ?_⟩ <;> delta Machine.exec
    exacts [keeps_fsel2 runs handled, keeps_fsel2 runs handled]
  · and_intros <;> (delta Machine.exec; exact keeps_fsel1 runs handled)
  · refine ⟨?_, ?_⟩ <;> delta Machine.exec
    exacts [keeps_fsel2 runs handled, keeps_fsel2 runs handled]
  · and_intros <;> (delta Machine.exec; exact keeps_fsel1 runs handled)
  · refine ⟨?_, ?_, ?_, ?_, ?_⟩ <;> delta Machine.exec
    exacts [keeps_cvtWide runs handled, keeps_alu1 runs handled, keeps_cvtWide runs handled, keeps_cvtWide runs handled, keeps_vextr runs handled]

theorem predicateForms_keep (k p q : BitVec 3) (a b : BitVec 7) (i : BitVec 11) (n : BitVec 6) (z : BitVec 1) :
    ∀ x ∈ ([.cmpeq k a b, .cmpne k a b, .cmplt k a b, .cmpge k a b, .cmpltn k a b, .cmpgen k a b, .btst k a b] : List Instr) ++ (([.cmpeqi k a i,
      .cmpnei k a i, .cmplti k a i, .cmpgei k a i, .cmpltni k a i, .cmpgeni k a i, .btsti k a n] : List Instr) ++ (([.kand k p q, .kor k p q,
      .kxor k p q, .kandn k p q, .knot k p, .kmov k p] : List Instr) ++ (([.kfromg k a] : List Instr) ++ ([.fcmpeq k a b z, .fcmplt k a b z,
      .fcmple k a b z, .fcmpun k a b z, .fcmpne k a b z] : List Instr)))),
      EndsKept s 0 k.toNat false (exec x s) := by
  simp only [List.forall_mem_append, List.forall_mem_cons, List.not_mem_nil, false_implies, implies_true, and_true]
  refine ⟨?_, ?_, ?_, ?_, ?_⟩
  · and_intros <;> (delta Machine.exec; exact keeps_cmp2 runs handled)
  · and_intros <;> (delta Machine.exec; exact keeps_cmp1 runs handled)
  · and_intros <;> (delta Machine.exec; exact keeps_kop runs)
  · delta Machine.exec
    exact keeps_kfromg runs handled
  · and_intros <;> (delta Machine.exec; exact keeps_fcmp runs handled)

theorem roundingForms_keep (d a b : BitVec 7) :
    ∀ x ∈ ([.faddF32 d a b, .fsubF32 d a b, .fmulF32 d a b] : List Instr) ++ (([.fdivF32 d a b, .fmaF32 d a b, .fsqrtF32 d a] : List Instr) ++
      (([.faddF64 d a b, .fsubF64 d a b, .fmulF64 d a b] : List Instr) ++ (([.fdivF64 d a b, .fmaF64 d a b, .fsqrtF64 d a, .cvtd2f d a] : List Instr)
      ++ (([.cvtf2w d a, .cvtf2l d a, .cvtd2w d a, .cvtd2l d a] : List Instr) ++ ([.cvtw2f d a, .cvtl2f d a, .cvtl2d d a, .cvtf2b d a,
      .cvtf2h d a] : List Instr))))),
      EndsKept s d.toNat 0 true (exec x s) := by
  simp only [List.forall_mem_append, List.forall_mem_cons, List.not_mem_nil, false_implies, implies_true, and_true]
  refine ⟨?_, ?_, ?_, ?_, ?_, ?_⟩
  · and_intros <;> (delta Machine.exec; exact keeps_fop2 runs handled)
  · refine ⟨?_, ?_, ?_⟩ <;> delta Machine.exec
    exacts [keeps_fiter2 runs handled, keeps_fmaOp runs handled, keeps_fiter1 runs handled]
  · and_intros <;> (delta Machine.exec; exact keeps_fop2 runs handled)
  · refine ⟨?_, ?_, ?_, ?_⟩ <;> delta Machine.exec
    exacts [keeps_fiter2 runs handled, keeps_fmaOp runs handled, keeps_fiter1 runs handled, keeps_cvtRound runs handled]
  · and_intros <;> (delta Machine.exec; exact keeps_cvtInt runs handled)
  · and_intros <;> (delta Machine.exec; exact keeps_cvtRound runs handled)

theorem branchForms_keep (a : BitVec 7) (k : BitVec 3) (o : BitVec 15) (z : BitVec 1) (w : BitVec 18) :
    ∀ x ∈ ([.beqz a o, .bnez a o, .bltz a o, .bgez a o, .bgtz a o, .blez a o] : List Instr) ++ ([.bk k z w] : List Instr),
      EndsKept s 0 0 false (exec x s) := by
  simp only [List.forall_mem_append, List.forall_mem_cons, List.not_mem_nil, false_implies, implies_true, and_true]
  refine ⟨?_, ?_⟩
  · and_intros <;> (delta Machine.exec; exact keeps_branch runs handled)
  · delta Machine.exec
    exact keeps_bk runs

theorem shortForms_keep (e f : BitVec 5) :
    ∀ x ∈ ([.addFh e f, .subFh e f, .mulFh e f, .andFh e f, .orFh e f, .xorFh e f, .sllFh e f, .srlFh e f, .sraFh e f, .minFh e f,
      .maxFh e f] : List Instr) ++ ([.movFh e f, .addiFh e f, .slliFh e f] : List Instr),
      EndsKept s e.toNat 0 false (exec x s) := by
  simp only [List.forall_mem_append, List.forall_mem_cons, List.not_mem_nil, false_implies, implies_true, and_true]
  refine ⟨?_, ?_⟩
  · and_intros <;> (delta Machine.exec; exact keeps_alu2 runs handled)
  · and_intros <;> (delta Machine.exec; exact keeps_alu1 runs handled)

theorem shortRoundingForms_keep (e f : BitVec 5) :
    ∀ x ∈ ([.faddFh e f, .fmulFh e f] : List Instr),
      EndsKept s e.toNat 0 true (exec x s) := by
  simp only [List.forall_mem_cons, List.not_mem_nil, false_implies, implies_true, and_true]
  and_intros <;> (delta Machine.exec; exact keeps_fop2 runs handled)

theorem scalarForms_keep (d a b : BitVec 7) (k p q : BitVec 3) (i : BitVec 11) (n : BitVec 6) (w : BitVec 18) (o : BitVec 15) (z : BitVec 1)
    (e f : BitVec 5) (v : BitVec 4) : ∀ x ∈ scalarForms d a b k p q i n w o z e f v, EndsKept s x.2.1 x.2.2.1 x.2.2.2 (exec x.1 s) := by
  have general := List.forall_mem_append.mpr ⟨integerForms_keep runs handled d a b,
    List.forall_mem_append.mpr ⟨immediateForms_keep runs handled d a b k p i n w z, floatForms_keep runs handled d a b v⟩⟩
  simp only [scalarForms, List.forall_mem_append, List.forall_mem_map]
  exact ⟨⟨⟨⟨⟨general, predicateForms_keep runs handled k p q a b i n z⟩, roundingForms_keep runs handled d a b⟩,
    branchForms_keep runs handled a k o z w⟩, shortForms_keep runs handled e f⟩, shortRoundingForms_keep runs handled e f⟩

end

theorem scalarFrame : Claim.ScalarFrame := by
  intro d a b k p q i n w o z e f v x mem s t runs handled went
  obtain ⟨⟨others, csr⟩, ⟨rest, cores⟩⟩ := scalarForms_keep runs handled d a b k p q i n w o z e f v x mem t went
  exact ⟨others, csr, fun y => by rw [rest], rest, cores⟩

end Sys2Proof.Proofs
end

section
/-!
PROOFS. The frame of CSRWR and CSRSET (R272, R394): the three ways in which a write of a thread register ends, and what each leaves.
-/

namespace Sys2Proof.Proofs

open Sys2Proof.Machine Sys2Proof.Laws Sys2Proof.Claim

variable {s t : State} {d n : Nat} {v : Word} {len : Word} {enc : BitVec 32}

/-! ### A write of a thread register -/

/-- R394's table as a function of a thread's slot, cycle count and time. -/
def csrRows (t : Tid) (cyc : Nat) (tick : Word) (sl : Slot) : List (Nat × Word) :=
  let c := sl.csr
  let w := BitVec.ofNat 64
  [(0x000, w (t.core * 64 + t.slot)), (0x001, w t.core), (0x002, w sl.wbase), (0x003, w (winW sl)),
   (0x004, w (sl.wsize.toNat + 16 * bit sl.ports + 32 * bit sl.restart + 64 * sl.prio.toNat + 256 * sl.steal.toNat + 1024 * bit c.trapActive +
      2048 * bit c.upcallActive + 4096 * bit sl.handler.isSome + 8192 * bit sl.priv + 16384 * bit (!sl.carry.isEmpty) + 32768 * bit c.spawned)),
   (0x005, w sl.ctx)] ++
  [(0x010, w c.sk0.toNat), (0x011, w c.sk1.toNat), (0x012, w c.sk2.toNat), (0x013, w c.sk3.toNat), (0x014, w c.dsk.toNat), (0x015, c.late),
   (0x016, w (bit c.lateen)), (0x017, c.wlimt), (0x020, c.sbound), (0x021, c.scount), (0x022, w (bit c.spolicy)), (0x023, c.fbound), (0x024, c.fcount),
   (0x030, c.remap0), (0x031, c.remap1), (0x032, c.remap2), (0x033, c.remap2n), (0x040, w c.fmode.toNat), (0x041, w c.fflags.toNat), (0x042, w c.fseed.toNat)] ++
  [(0x050, sl.tls.copy.completed), (0x051, sl.tls.tile.completed), (0x052, sl.tls.route.completed), (0x053, sl.tls.msg.completed),
   (0x054, sl.tls.rstore.completed), (0x058, sl.tls.copy.issued), (0x059, sl.tls.tile.issued), (0x05A, sl.tls.route.issued),
   (0x05B, sl.tls.msg.issued), (0x05C, sl.tls.rstore.issued)] ++
  [(0x060, c.upvec), (0x061, c.upcause), (0x062, c.upaddr), (0x063, c.upseq), (0x064, c.upepc), (0x070, c.trapvec), (0x071, c.tcause), (0x072, c.tval),
   (0x073, c.tepc)] ++ [(0x080, w cyc), (0x081, tick)] ++ [(0x0A0, sl.spb), (0x0A1, sl.spl)]

theorem csrTable_eq_rows (s : State) : csrTable s = csrRows s.cur (cycNow s s.cur.core) s.tick (getSlot s s.cur) := rfl

/-- Where the table lists a CSR. -/
def rowOf (n : Nat) : Nat := ((csrRows {} 0 0 {}).map (·.1)).idxOf n

/-- A thread register is a field of the slot that only its own row of the table shows. -/
theorem csrPut_eq : ∀ p ∈ csrWritable, ∃ f : Slot → Slot, (∀ s x, csrPut s x p.1 v = modSlot s x f) ∧ (∀ x, (f x).ks = x.ks) ∧
    ∀ y cyc tick x, ∃ r, csrRows y cyc tick (f x) = (csrRows y cyc tick x).set (rowOf p.1) (p.1, r) := by
  simp only [csrWritable, List.forall_mem_cons, List.not_mem_nil, false_implies, implies_true, and_true]
  and_intros <;> delta csrPut modCsr <;> refine ⟨_, fun _ _ => rfl, ?_⟩ <;> exact ⟨fun _ => rfl, fun _ _ _ _ => ⟨_, rfl⟩⟩

/-- In t each row of the table, but n's and those that taking a trap writes, is as in s. -/
def RowsKept (n : Nat) (s t : State) : Prop := ∀ q ∈ csrTable t, q.1 ≠ n → q.1 ∉ [0x004, 0x071, 0x072, 0x073] → q ∈ csrTable s

theorem RowsKept.of_slot (inside : InCore s t) {x : Slot} (slot : getSlot t s.cur = x)
    (rows : ∀ y cyc tick, ∀ q ∈ csrRows y cyc tick x, q.1 ≠ n → q.1 ∉ [0x004, 0x071, 0x072, 0x073] → q ∈ csrRows y cyc tick (getSlot s s.cur)) :
    RowsKept n s t := by
  have cur : t.cur = s.cur := by rw [inside.rest]
  have tick : t.tick = s.tick := by rw [inside.rest]
  have cyc : cycNow t s.cur.core = cycNow s s.cur.core := by rw [inside.rest]; rfl
  unfold RowsKept
  rw [csrTable_eq_rows, csrTable_eq_rows, cur, tick, cyc, slot]
  exact rows _ _ _

/-- What an instruction reads of a kept row. -/
theorem RowsKept.csrGet (kept : RowsKept n s t) (cur : t.cur = s.cur) {e : Env} (turn : e.t = s.cur) {m : Nat} (listed : m ∈ (csrTable s).map (·.1))
    (other : m ≠ n) (unwritten : m ∉ [0x004, 0x071, 0x072, 0x073]) : csrGet e t m = csrGet e s m := by
  obtain ⟨q, mem, rfl⟩ : ∃ q ∈ csrTable t, q.1 = m := List.mem_map.mp (show m ∈ (csrTable t).map (·.1) from listed)
  rw [csrGet_table (turn.trans cur.symm) q mem, csrGet_table turn q (kept q mem other unwritten)]

/-! ### How a write ends -/

/-- The states that CSRWR and CSRSET of a thread register answer: after a trap, waiting, and after the write. -/
inductive WriteEnd (s : State) (len : Word) (enc : BitVec 32) (d n : Nat) : State → Prop
  | traps (c : BitVec 8) (v : Word) : WriteEnd s len enc d n (takeTrap s s.cur c v (getSlot s s.cur).pc)
  | waits : WriteEnd s len enc d n (modSlot s s.cur fun sl => { sl with wait := some .cond })
  | writes (v old : Word) : WriteEnd s len enc d n (done (envOf len enc s) (regSet (csrPut s s.cur n v) s.cur (getSlot s s.cur) d old))

theorem csrWrite_ends (handled : Handled s) {d a : BitVec 7} {f : Word → Word → Word} (low : n < 0x400) :
    Leaves (envOf len enc s) (WriteEnd s len enc d.toNat n) (WriteEnd s len enc d.toNat n) (csrWrite (envOf len enc s) d a n f) := by
  have traps (c : BitVec 8) (v : Word) : WriteEnd s len enc d.toNat n (applyStop (envOf len enc s) (.trap c v)) := .traps c v
  have wait : WriteEnd s len enc d.toNat n (applyStop (envOf len enc s) .cond) := .waits
  unfold csrWrite
  dsimp only
  split
  · exact traps _ _
  · refine (Leaves.chk traps wait).bind fun _ _ => ?_
    rw [csrAllowed_eq]
    refine (Leaves.need (traps _ _)).bind fun _ _ => (Leaves.await wait).bind fun _ _ => scalar_reads handled fun x => ?_
    refine (Leaves.need (traps _ _)).bind fun _ _ => ?_
    have other : n ≠ 0x404 := by omega
    simp only [other, if_false]
    exact scalar_writes handled (WriteEnd.writes _ _)

/-- A write leaves what the other scalar instructions do, but for CSR n. -/
structure WriteKept (s : State) (d n : Nat) (t : State) : Prop where
  near : Near s d 0 (fun _ c => c) t
  inside : InCore s t
  drawn : t.freeCnt = s.freeCnt
  rows : RowsKept n s t

theorem writeKept_of_slot {x : Slot} (ks : x.ks = (getSlot s s.cur).ks)
    (rows : ∀ y cyc tick, ∀ q ∈ csrRows y cyc tick x, q.1 ≠ n → q.1 ∉ [0x004, 0x071, 0x072, 0x073] → q ∈ csrRows y cyc tick (getSlot s s.cur)) :
    WriteKept s d n (setSlot s s.cur x) :=
  have inside := (InCore.refl s).setSlot x
  ⟨(Near.refl ⟨fun _ => rfl, fun _ _ _ _ => rfl⟩ s).setSlot ks rfl, inside, rfl, .of_slot inside (getSlot_setSlot_same _ _ _) rows⟩

theorem rows_trapped {x : Slot} {c : BitVec 8} {v pc target : Word} : ∃ r₁ r₂ r₃ r₄, ∀ y cyc tick,
    csrRows y cyc tick { readied x with csr := { x.csr with tcause := c.setWidth 64, tval := v, tepc := pc, trapActive := true }, pc := target } =
      ((((csrRows y cyc tick x).set 4 (0x004, r₁)).set 42 (0x071, r₂)).set 43 (0x072, r₃)).set 44 (0x073, r₄) := ⟨_, _, _, _, fun _ _ _ => rfl⟩

theorem WriteEnd.kept (handled : Handled s) (writable : n ∈ csrWritable.map (·.1)) (ends : WriteEnd s len enc d n t) : WriteKept s d n t := by
  cases ends with
  | traps c v =>
    rw [takeTrap_handler handled.1 handled.2.1]
    refine writeKept_of_slot rfl fun y cyc tick q mem other unwritten => ?_
    obtain ⟨r₁, r₂, r₃, r₄, rows⟩ :=
      rows_trapped (x := getSlot s s.cur) (c := c) (v := v) (pc := (getSlot s s.cur).pc) (target := (getSlot s s.cur).csr.trapvec)
    rw [rows] at mem
    simp only [List.mem_cons, not_or] at unwritten
    obtain ⟨h₁, h₂, h₃, h₄, -⟩ := unwritten
    have strip {l : List (Nat × Word)} {i k : Nat} {r : Word} (mem : q ∈ l.set i (k, r)) (h : q.1 ≠ k) : q ∈ l :=
      (List.mem_or_eq_of_mem_set mem).resolve_right fun same => h (same ▸ rfl)
    exact strip (strip (strip (strip mem h₄) h₃) h₂) h₁
  | waits => exact writeKept_of_slot rfl fun _ _ _ _ mem _ _ => mem
  | writes v old =>
    obtain ⟨p, mem, rfl⟩ := List.mem_map.mp writable
    obtain ⟨f, put, ks, rows⟩ := csrPut_eq (v := v) p mem
    rw [put]
    have inside : InCore s (done (envOf len enc s) (regSet (modSlot s s.cur f) s.cur (getSlot s s.cur) d old)) :=
      (((InCore.refl s).modSlot f).regSet _ _ _).setSlot _
    have drawn : (regSet (modSlot s s.cur f) s.cur (getSlot s s.cur) d old).freeCnt = s.freeCnt := by
      unfold regSet
      split <;> rfl
    refine ⟨(((Near.refl ⟨fun _ => rfl, fun _ _ _ _ => rfl⟩ s).setSlot (ks _) rfl).regSet old).done len enc, inside, drawn,
      .of_slot inside (getSlot_done _ _) fun y cyc tick q mem other _ => ?_⟩
    obtain ⟨r, rows⟩ := rows y cyc tick (getSlot s s.cur)
    rw [getSlot_regSet, envOf_t, getSlot_modSlot_same] at mem
    have mem : q ∈ csrRows y cyc tick (f (getSlot s s.cur)) := mem
    rw [rows] at mem
    exact (List.mem_or_eq_of_mem_set mem).resolve_right fun same => other (same ▸ rfl)

theorem csrFrame : Claim.CsrFrame := by
  intro d a c i mem writable s t runs handled went
  obtain ⟨f, mem⟩ := mem_csrWriters mem
  have low : c.toNat < 0x400 := by
    obtain ⟨p, mem, same⟩ := List.mem_map.mp writable
    exact same ▸ (csrWritable_keys p mem).1
  have ends := Leaves.thr (csrWrite_ends handled low) runs ((exec_csrWriter mem s).symm.trans went)
  obtain ⟨near, inside, drawn, rows⟩ := ends.kept handled writable
  have rest : t = { s with cores := t.cores } := inside.rest.trans (by rw [drawn])
  exact ⟨fun m listed other unwritten => rows.csrGet (by rw [inside.rest]) rfl listed other unwritten, near.others, fun y => by rw [rest], rest, inside.cores⟩

/-- Settles O60, by the frame of each scalar form and of the three ends of a CSR write. -/
theorem scalarAndCsrFrame : Obligations.ScalarAndCsrFrame := ⟨scalarFrame, csrFrame⟩

end Sys2Proof.Proofs
end

section
/-!
SUPPORT. What an access leaves where it stops: the thread but for a register and the exception registers, and all of memory
(R151, R152, R156, R192, R203).
-/

namespace Sys2Proof.Proofs

open Sys2Proof.Machine Sys2Proof.Laws Sys2Proof.Claim

variable {s t : State} {d n k : Nat} {len : Word} {enc : BitVec 32}

/-- Of the thread only register d and the exception registers, and nothing of memory, differs from s. -/
structure Unstored (s : State) (d : Nat) (t : State) : Prop where
  near : Near s d 0 excepted t
  mem : t.mem = s.mem

namespace Unstored

theorem refl (s : State) : Unstored s d s := ⟨.refl admits_excepted s, rfl⟩

theorem modSlot (kept : Unstored s d t) {f : Slot → Slot} (ks : ∀ x, (f x).ks = x.ks) (csr : ∀ x, (f x).csr = x.csr) :
    Unstored s d (modSlot t s.cur f) := ⟨kept.near.modSlot ks csr, kept.mem⟩

theorem modCore (kept : Unstored s d t) (c : Nat) {f : Core → Core} (regs : ∀ x, (f x).regs = x.regs) (slots : ∀ x, (f x).slots = x.slots) :
    Unstored s d (modCore t c f) := ⟨kept.near.modCore c regs slots, kept.mem⟩

theorem sent (kept : Unstored s d t) (cls slack src dst : Nat) (b : Body) : Unstored s d (send t cls slack src dst b) :=
  ⟨kept.near.of_cores (send_trafficOnly _ _ _ _ _ _).cores, (send_mem _ _ _ _ _ _).trans kept.mem⟩

theorem marked (kept : Unstored s d t) (k n : Nat) : Unstored s d (markRead t k n) :=
  ⟨kept.near.of_cores (markRead_marksOnly _ _ _).cores, (markRead_marksOnly _ _ _).mem.trans kept.mem⟩

theorem regSet (kept : Unstored s d t) (v : Word) : Unstored s d (regSet t s.cur (getSlot s s.cur) d v) := by
  refine ⟨kept.near.regSet v, ?_⟩
  unfold Machine.regSet
  split <;> exact kept.mem

theorem done (kept : Unstored s d t) : Unstored s d (done (envOf len enc s) t) := ⟨kept.near.done len enc, kept.mem⟩

theorem takeTrap (kept : Unstored s d t) (handled : Handled s) (same : (getSlot t s.cur).csr = (getSlot s s.cur).csr) (c : BitVec 8) (v pc : Word) :
    Unstored s d (takeTrap t s.cur c v pc) := by
  refine ⟨kept.near.takeTrap admits_excepted handled same c v pc, ?_⟩
  obtain ⟨handler, outside, -⟩ := handled
  rw [takeTrap_handler (by rwa [same]) (by rwa [same])]
  exact kept.mem

theorem takeUpcall (handled : Handled s) (va pc : Word) : Unstored s d (takeUpcall s s.cur va pc) := by
  by_cases taken : (getSlot s s.cur).csr.upcallActive = true ∨ (getSlot s s.cur).csr.upvec = 0
  · rw [takeUpcall_trap taken]
    exact (refl s).takeTrap handled rfl _ _ _
  · simp only [not_or, Bool.not_eq_true] at taken
    rw [takeUpcall_upcall taken.2 taken.1]
    exact ⟨(Near.refl admits_excepted s).setSlot rfl rfl, rfl⟩

/-- The thread waits, with the list of misses of its core changed. -/
theorem missing (kept : Unstored s d t) (l : Core → List Miss) :
    Unstored s d (Machine.modCore t s.cur.core fun c => { c with misses := l c }) :=
  kept.modCore s.cur.core (f := fun c => { c with misses := l c }) (fun _ => rfl) fun _ => rfl

theorem waiting (kept : Unstored s d t) (w : Wait) : Unstored s d (Machine.modSlot t s.cur fun sl => { sl with wait := some w }) :=
  kept.modSlot (f := fun sl => { sl with wait := some w }) (fun _ => rfl) fun _ => rfl

theorem sendMiss (va : Word) (kind slack : Nat) : Unstored s d (sendMiss s s.cur va kind slack) := by
  unfold Machine.sendMiss
  dsimp only
  split
  · exact ((refl s).missing _).waiting _
  · split
    · exact (((refl s).missing _).sent _ _ _ _ _).waiting _
    · exact (refl s).waiting _

/-- A request sent, whose reply the slot awaits. -/
theorem sendWait (acc : List Word) (dst : List Nat) (cls slack unit : Nat) (b : Body) :
    Unstored s d (applyStop (envOf len enc s) (sendWait (envOf len enc s) s acc dst cls slack unit b)) :=
  ((refl s).sent _ _ _ _ _).modSlot (f := fun sl => { sl with wait := some .reply, ph := acc, res := none, awaits := dst, toUnit := some unit })
    (fun _ => rfl) fun _ => rfl

section
variable (handled : Handled s)
include handled

theorem trap (c : BitVec 8) (v : Word) : Unstored s d (applyStop (envOf len enc s) (.trap c v)) := (refl s).takeTrap handled rfl c v _

theorem badRead (k n : Nat) (va pc : Word) (c : BitVec 8) : Unstored s d (applyStop (envOf len enc s) (.trapIn (markRead s k n) c va pc)) :=
  ((refl s).marked k n).takeTrap handled (by rw [getSlot_of_cores (markRead_cores _ _ _)]) c va pc

omit handled in
theorem waits : Unstored s d (applyStop (envOf len enc s) .cond) :=
  (refl s).waiting _

end
end Unstored

/-! ### The parts of an access -/

/-- A part's value with what is known of it. -/
theorem Leaves.bind_eq {α β : Type} {e : Env} {Q : State → Prop} {P : α → Prop} {P' : β → Prop} {x : X α} {f : α → X β} (first : Leaves e Q P x)
    (rest : ∀ a, x = .ok a → P a → Leaves e Q P' (f a)) : Leaves e Q P' (x >>= f) := by
  cases x with
  | error st => exact first
  | ok a => exact rest a rfl first

theorem Leaves.weaken {α : Type} {e : Env} {Q Q' : State → Prop} {P : α → Prop} {x : X α} (h : Leaves e Q P x) (weaker : ∀ t, Q t → Q' t) :
    Leaves e Q' P x := by
  cases x with
  | error st => exact weaker _ h
  | ok a => exact h

/-- An access whose partition neither records nor replays is not recorded, nor is it once memory has changed. -/
theorem localNote_untraced (untraced : Untraced s) (memory : MemoryOnly s t) (cls k : Nat) : localNote (envOf len enc s) t cls k = t := by
  have plain : Plain t s.cur.core := Plain.congr untraced memory.fns memory.clusters
  exact homeNote_untraced (by rw [unitFn_coreUnit]; exact plain.1) (by rw [unitFn_coreUnit]; exact plain.2) _ _ _ _ _

section
variable (handled : Handled s)
include handled

theorem access_checks {rd wr np vs : List Nat} : Leaves (envOf len enc s) (Unstored s d) (fun _ => True) (chk (envOf len enc s) rd wr np vs) :=
  .chk (.trap handled) .waits

theorem access_needs {b : Bool} {c : BitVec 8} {v : Word} : Leaves (envOf len enc s) (Unstored s d) (fun _ => b = true) (need b c v) :=
  .need (.trap handled c v)

theorem place_unstored {va : Word} {nd slack : Nat} : Leaves (envOf len enc s) (Unstored s d) (fun _ => True) (place (envOf len enc s) va nd slack) := by
  have trap (c : BitVec 8) : Unstored s d (applyStop (envOf len enc s) (.trap c va)) := .trap handled c va
  unfold place
  dsimp only
  split
  · exact trap _
  · split
    · split
      · split
        · trivial
        · exact trap _
      · split
        · trivial
        · split
          · trivial
          · split
            · trivial
            · exact trap _
    · split
      · split
        · split
          · exact trap _
          · split
            · trivial
            · exact trap _
        · split
          · split
            · exact .takeUpcall handled _ _
            · exact trap _
          · exact .sendMiss _ _ _
      · split
        · split
          · trivial
          · exact trap _
        · exact trap _

theorem mapped_unstored {ent : Nat} {va : Word} : Leaves (envOf len enc s) (Unstored s d) (fun _ => True) (mapped (envOf len enc s) s ent va) := by
  unfold mapped
  split
  · split
    · exact .trap handled _ _
    · split
      · exact .waits
      · trivial
  · exact .trap handled _ _

/-- A read performed at once leaves the state as it is. -/
theorem readNow_unstored (untraced : Untraced s) {p : Place} {va : Word} : Leaves (envOf len enc s) (Unstored s d)
    (fun r => ∀ x ∈ r, x.1 = s) (readNow (envOf len enc s) s p n va) := by
  have note (cls k : Nat) (v : Word) : ∀ x ∈ some (localNote (envOf len enc s) s cls k, v), x.1 = s := by
    rintro x ⟨⟩
    exact localNote_untraced untraced (.refl s) _ _
  unfold readNow
  split
  · refine (mapped_unstored handled).bind fun r _ => ?_
    rintro x ⟨⟩
    rfl
  · exact (Leaves.await .waits).bind fun _ _ => note _ _ _
  · exact (access_needs handled).bind fun _ _ => (Leaves.await .waits).bind fun _ _ => note _ _ _
  next k _ _ =>
    split
    · split
      · split
        · rintro x ⟨⟩
          rfl
        · exact (Leaves.await .waits).bind fun _ _ => note _ _ _
      · exact .badRead handled _ _ _ _ _
      · exact .trap handled _ _
    · exact fun x none => nomatch none

theorem noReg_unstored {p : Place} {va : Word} : Leaves (envOf len enc s) (Unstored s d) (fun _ => True) (noReg p va) := by
  unfold noReg
  split
  · exact .trap handled _ _
  · trivial

/-- So does a read made as a precise phase. -/
theorem phaseRead_unstored (untraced : Untraced s) {acc : List Word} {dst : List Nat} {va : Word} {slack : Nat} {ld : Bool} :
    Leaves (envOf len enc s) (Unstored s d) (fun r => r.1 = s) (phaseRead (envOf len enc s) s acc dst va n slack ld) := by
  have reads (p : Place) : Leaves (envOf len enc s) (Unstored s d) (fun r => r.1 = s) (do
      match ← readNow (envOf len enc s) s p n va with
      | some (s, v) => return (s, acc ++ [v])
      | none =>
        match p with
        | .mem k _ _ => .error (sendWait (envOf len enc s) s acc dst 0 slack ((homeOf k).getD 0) (.load k n (retOf (envOf len enc s) va)))
        | _ => .error .cond : X (State × List Word)) := by
    refine (readNow_unstored handled untraced).bind fun r same => ?_
    split
    next got => exact same _ rfl
    next =>
      split
      · exact .sendWait _ _ _ _ _ _
      · exact .waits
  unfold phaseRead
  split
  · rfl
  · split
    · rfl
    · exact .trap handled _ _
    · exact .waits
    · refine (place_unstored handled).bind fun p _ => ?_
      dsimp only
      split
      · exact (noReg_unstored handled).bind fun _ _ => reads p
      · exact reads p

/-- And the remap stage. -/
theorem remapIdx_unstored (untraced : Untraced s) {acc : List Word} {dst : List Nat} {mode : Nat} {x : Word} :
    Leaves (envOf len enc s) (Unstored s d) (fun r => r.1 = s) (remapIdx (envOf len enc s) s acc dst mode x) := by
  unfold remapIdx
  dsimp only
  split
  · rfl
  · rfl
  · rfl
  · exact (access_needs handled).bind fun _ _ => (access_needs handled).bind fun _ _ => (phaseRead_unstored handled untraced).bind fun _ same => same

end

end Sys2Proof.Proofs
end

section
/-!
PROOFS. The frame of loads, stores and atomics (R302 to R306, R312, R313).
-/

namespace Sys2Proof.Proofs

open Sys2Proof.Machine Sys2Proof.Laws Sys2Proof.Claim

variable {s t : State} {d n k : Nat} {len : Word} {enc : BitVec 32}

/-! ### Loads -/

section
variable (runs : Runs s) (handled : Handled s) (untraced : Untraced s)
include runs handled untraced

omit runs in
theorem loadTo_unstored {ea : Word} {slack : Nat} {ext : Word → Word} {acc : List Word} :
    Leaves (envOf len enc s) (Unstored s d) (Unstored s d) (loadTo (envOf len enc s) d ea n slack ext s acc) :=
  (access_needs handled).bind fun _ _ => (phaseRead_unstored handled untraced).bind fun ⟨_, _⟩ same => by
    subst same
    exact scalar_writes handled ((Unstored.refl _).regSet _).done

theorem ldOp_unstored {a z k : Nat} {off : Word} {signed : Bool} (went : ldOp enc d a z k off signed s = .next t) : Unstored s d t :=
  Leaves.thr ((access_checks handled).bind fun _ _ => loadTo_unstored handled untraced) runs went

omit runs in
/-- The address of an indexed access, and the remapped index that gives it. -/
theorem indexed_unstored {dst : List Nat} {a x r z : Nat} {more : List Word} :
    Leaves (envOf len enc s) (Unstored s d) (fun i => i.1 = s) (indexed (envOf len enc s) dst a x r z more) :=
  (remapIdx_unstored handled untraced).bind fun _ same => same

theorem ldxOp_unstored {a x r z : Nat} {signed : Bool} (went : ldxOp enc d a x r z signed s = .next t) : Unstored s d t :=
  Leaves.thr ((access_checks handled).bind fun _ _ => (indexed_unstored handled untraced).bind fun ⟨_, _, _⟩ same => by
    subst same
    exact loadTo_unstored handled untraced) runs went

end

/-! ### Atomics -/

/-- Of the thread only register d and the exception registers, and of memory no byte outside, differs from s. -/
structure Stored (s : State) (d : Nat) (outside : Nat → Prop) (t : State) : Prop where
  near : Near s d 0 excepted t
  mem : ∀ y, outside y → memByte t.mem y = memByte s.mem y

variable {outside : Nat → Prop}

theorem Unstored.stored (kept : Unstored s d t) : Stored s d outside t := ⟨kept.near, fun y _ => by rw [kept.mem]⟩

namespace Stored

/-- A state with the same cores whose memory differs inside alone. -/
theorem of_cores {u : State} (kept : Unstored s d t) (same : u.cores = t.cores) (mem : ∀ y, outside y → memByte u.mem y = memByte s.mem y) :
    Stored s d outside u := ⟨kept.near.of_cores same, mem⟩

theorem regSet (kept : Stored s d outside t) (v : Word) : Stored s d outside (regSet t s.cur (getSlot s s.cur) d v) :=
  ⟨kept.near.regSet v, fun y h => by rw [regSet_mem, kept.mem y h]⟩

theorem done (kept : Stored s d outside t) : Stored s d outside (done (envOf len enc s) t) := ⟨kept.near.done len enc, kept.mem⟩

theorem modSlot (kept : Stored s d outside t) {f : Slot → Slot} (ks : ∀ x, (f x).ks = x.ks) (csr : ∀ x, (f x).csr = x.csr) :
    Stored s d outside (modSlot t s.cur f) := ⟨kept.near.modSlot ks csr, kept.mem⟩

theorem takeTrap (kept : Stored s d outside t) (handled : Handled s) (same : (getSlot t s.cur).csr = (getSlot s s.cur).csr) (c : BitVec 8) (v pc : Word) :
    Stored s d outside (takeTrap t s.cur c v pc) := by
  refine ⟨kept.near.takeTrap admits_excepted handled same c v pc, ?_⟩
  obtain ⟨handler, inactive, -⟩ := handled
  rw [takeTrap_handler (by rwa [same]) (by rwa [same])]
  exact kept.mem

end Stored

theorem amoAt_memoryOnly {fn : Nat} (data : fn ≤ 12) (y x va : Word) : MemoryOnly s (amoAt s fn k y x va).1 := by
  unfold amoAt
  dsimp only
  split
  · rw [if_pos (by omega)]
    rfl
  · split
    · exact homeWrite_memoryOnly _ _ _ _
    · exact (markRead_marksOnly _ _ _).memoryOnly
    · rfl

/-- An atomic at its home changes no byte but those of its operand; a query changes none. -/
theorem amoAt_outside {fn : Nat} (data : fn ≤ 12) (y x va : Word) {j : Nat} (h : fn = 12 ∨ j < k ∨ k + amoBytes fn ≤ j) :
    memByte (amoAt s fn k y x va).1.mem j = memByte s.mem j := by
  unfold amoAt
  dsimp only
  split
  · rw [if_pos (by omega)]
  · split
    · rw [homeWrite_mem, memByte_memWrite_outside _ _ _ _ _ (h.resolve_left (by omega))]
    · rw [(markRead_marksOnly _ _ _).mem]
    · rfl

/-- Where an atomic of function fn at an address leaves memory as it is: everywhere for a query, else outside its operand. -/
def Beside (fn : Nat) (at_ : X Place) (y : Nat) : Prop := fn = 12 ∨ ∀ key ent pg, at_ = .ok (.mem key ent pg) → y < key ∨ key + amoBytes fn ≤ y

section
variable (runs : Runs s) (handled : Handled s) (untraced : Untraced s)
include runs handled untraced

omit runs in
/-- An atomic whose operand lies at k: performed where the issuing core is its home, else sent. -/
theorem amo_at_key {fn : Nat} (data : fn ≤ 12) (y x ea : Word) (inside : ∀ j, outside j → fn = 12 ∨ j < k ∨ k + amoBytes fn ≤ j) :
    let e := envOf len enc s
    Leaves e (Stored s d outside) (Stored s d outside) (if isLocal e k then do
        localGate e s 2 k
        let (s', r) := amoAt s fn k y x ea
        match r with
        | .words l => do
          let s' ← writeR e (localNote e s' 2 k) d (l.headD 0)
          return done e s'
        | .fault c v => .error (.trapIn s' c v e.sl.pc)
        | _ => .error .cond
      else .error (sendWait e s [] [d] 2 (dskOf e.sl) ((homeOf k).getD 0) (.amo (BitVec.ofNat 4 fn) k y x (retOf e ea)))) := by
  intro e
  have memory := amoAt_memoryOnly (s := s) (k := k) data y x ea
  have cores : (amoAt s fn k y x ea).1.cores = s.cores := (congrArg State.cores memory).trans rfl
  have performed : Stored s d outside (amoAt s fn k y x ea).1 := .of_cores (.refl s) cores fun j h => amoAt_outside data y x ea (inside j h)
  split
  · refine (Leaves.await Unstored.waits.stored).bind fun _ _ => ?_
    dsimp only
    split
    · rw [localNote_untraced untraced memory]
      exact scalar_writes handled (performed.regSet _).done
    · exact performed.takeTrap handled (by rw [getSlot_of_cores cores]) _ _ _
    · exact Unstored.waits.stored
  · exact (Unstored.sendWait _ _ _ _ _ _).stored

theorem amoOp_stored {a b fn : Nat} (data : fn ≤ 12) (went : amoOp enc d a b fn s = .next t) :
    Stored s d (Beside fn (place (envOf 4 enc s) (regGet s s.cur (getSlot s s.cur) a) 3 (dskOf (getSlot s s.cur)))) t := by
  have stored {outside : Nat → Prop} (t : State) : Unstored s d t → Stored s d outside t := Unstored.stored
  refine Leaves.thr (((access_checks handled).weaken stored).bind fun _ _ => ?_) runs went
  dsimp only
  split
  · exact scalar_writes handled ((Unstored.refl s).regSet _).done.stored
  · exact (Unstored.trap handled _ _).stored
  · exact Unstored.waits.stored
  · refine ((access_needs handled).weaken stored).bind fun _ _ => ((place_unstored handled).weaken stored).bind_eq fun p placed _ => ?_
    split
    next k x pg =>
      split
      · exact (Unstored.trap handled _ _).stored
      · have inside (j : Nat) (h : Beside fn (place (envOf 4 enc s) (regGet s s.cur (getSlot s s.cur) a) 3 (dskOf (getSlot s s.cur))) j) :
            fn = 12 ∨ j < k ∨ k + amoBytes fn ≤ j := h.imp_right fun h => h _ _ _ placed
        have performs (y x : Word) := amo_at_key (d := d) (len := 4) (enc := enc) handled untraced data y x (baseReg (envOf 4 enc s) a) inside
        split
        · split
          · exact scalar_reads handled fun x => performs 0 x
          · exact performs 0 0
        · refine scalar_reads handled fun y => ?_
          dsimp only
          split
          · exact scalar_reads handled fun x => performs y x
          · exact performs y 0
    · exact (Unstored.trap handled _ _).stored

end

theorem exec_amoTable (d a b : BitVec 7) : ∀ p ∈ amoTable d a b, ∀ s, exec p.1 s = amoOp (encode p.1) d.toNat a.toNat b.toNat p.2.1 s := by
  simp only [amoTable, List.forall_mem_cons, List.not_mem_nil, false_implies, implies_true, and_true]
  and_intros <;> exact fun _ => rfl

theorem amoTable_data (d a b : BitVec 7) : ∀ p ∈ amoTable d a b, p.2.1 < 12 ∧ amoBytes p.2.1 = p.2.2.1 := by
  simp [amoTable, amoBytes]

/-! ### Stores -/

/-- What a store of n bytes leaves, by the place that its address has. -/
structure StoreKept (s : State) (at_ : X Place) (n : Nat) (t : State) : Prop where
  csr : (getSlot t s.cur).csr = excepted (getSlot s s.cur).csr (getSlot t s.cur).csr
  others : (∀ ent off, at_ ≠ .ok (.reg ent off)) → (∀ off, at_ ≠ .ok (.fe off)) → OthersKept s t 0 0
  mem : ∀ y, (∀ off, at_ ≠ .ok (.fe off)) → (∀ key ent pg, at_ = .ok (.mem key ent pg) → y < key ∨ key + n ≤ y) → memByte t.mem y = memByte s.mem y

theorem Unstored.storeKept {at_ : X Place} (kept : Unstored s 0 t) : StoreKept s at_ n t :=
  ⟨kept.near.csr, fun _ _ => kept.near.others, fun y _ _ => by rw [kept.mem]⟩

theorem Stored.storeKept {key : Nat} {x : TlbEnt} {pg : Bool} (kept : Stored s 0 (fun y => y < key ∨ key + n ≤ y) t) :
    StoreKept s (.ok (.mem key x pg)) n t :=
  ⟨kept.near.csr, fun _ _ => kept.near.others, fun y _ outside => kept.mem y (outside _ _ _ rfl)⟩

theorem getSlot_registers (core : Nat) (r : Core → SMap Word) (x : Tid) : getSlot (modCore s core fun c => { c with regs := r c }) x = getSlot s x :=
  getSlot_modCore s core (fun c => { c with regs := r c }) (fun _ => rfl) x

theorem takeTicket_unstored (i : Nat) : Unstored s d (takeTicket s s.cur i).1 :=
  ⟨(Near.refl admits_excepted s).setSlot rfl (admits_excepted.same _).symm, rfl⟩

theorem Unstored.inFlight (kept : Unstored s d t) (l : Slot → List Infl) :
    Unstored s d (Machine.modSlot t s.cur fun sl => { sl with infl := l sl }) :=
  kept.modSlot (f := fun sl => { sl with infl := l sl }) (fun _ => rfl) fun _ => rfl

theorem qSet_unstored (core q : Nat) (c : QCtl) : Unstored s d (qSet s core q c) :=
  (Unstored.refl s).modCore core (f := fun k => { k with qctl := smSet {} k.qctl q c }) (fun _ => rfl) fun _ => rfl

/-- A store to the full/empty view changes no core. -/
theorem feStore_cores (core off : Nat) (v : Word) : (feStore s core off n v).cores = s.cores := by
  unfold feStore
  rw [retest_cores]
  generalize List.range (8 * n) = l
  induction l generalizing s with
  | nil => rfl
  | cons i l ih => exact ih

section
variable (runs : Runs s) (handled : Handled s) (untraced : Untraced s)
include runs handled untraced

omit runs in
theorem storeAt_kept {p : Place} {va v : Word} {slack : Nat} :
    let e := envOf len enc s
    Leaves e (Unstored s 0) (StoreKept s (.ok p) n) (do return done e (← storeAt e s p n va v slack)) := by
  intro e
  have note (cls k : Nat) : localNote e s cls k = s := localNote_untraced untraced (.refl s) cls k
  have here : Unstored s 0 s := .refl s
  cases p with
  | reg ent off =>
    refine Leaves.bind (P := fun t => (getSlot t s.cur).csr = (getSlot s s.cur).csr ∧ t.mem = s.mem)
      ((mapped_unstored handled).bind fun r _ => ?_) fun t same => ?_
    · split
      · exact ⟨rfl, rfl⟩
      · exact ⟨by rw [getSlot_registers], rfl⟩
    · obtain ⟨csr, mem⟩ := same
      refine ⟨?_, fun named => absurd rfl (named ent off), fun y _ _ => by rw [done_mem, mem]⟩
      rw [show getSlot (done e t) s.cur = _ from getSlot_done e t]
      show (getSlot t s.cur).csr = excepted (getSlot s s.cur).csr (getSlot t s.cur).csr
      rw [csr, admits_excepted.same]
  | qw off =>
    refine Leaves.bind (P := Unstored s 0) ((Leaves.await .waits).bind fun _ _ => ?_) fun _ kept => kept.done.storeKept
    rw [note]
    exact qSet_unstored _ _ _
  | fe off =>
    refine Leaves.bind (P := Near s 0 0 excepted) ((access_needs handled).bind fun _ _ => (Leaves.await .waits).bind fun _ _ => ?_)
      fun t near => ⟨(near.done len enc).csr, fun _ named => absurd rfl (named off), fun _ named => absurd rfl (named off)⟩
    rw [note]
    exact here.near.of_cores (feStore_cores _ _ _)
  | mem key x pg =>
    refine Leaves.bind (P := Stored s 0 fun y => y < key ∨ key + n ≤ y) ?_ fun _ kept => kept.done.storeKept
    have written {t : State} (kept : Unstored s 0 t) : Stored s 0 (fun y => y < key ∨ key + n ≤ y) (homeWrite t key n v.toNat) :=
      .of_cores kept (homeWrite_cores _ _ _ _) fun y h => by rw [homeWrite_mem, memByte_memWrite_outside _ _ _ _ _ h, kept.mem]
    have ticketed : Unstored s 0 (takeTicket s s.cur 4).1 := takeTicket_unstored 4
    dsimp only [storeAt]
    split
    · refine (Leaves.await .waits).bind fun _ _ => ?_
      rw [note]
      exact written here
    · split
      · exact (written ticketed).modSlot (f := fun sl => { sl with tls := tlMod sl.tls 4 (ticketDone (takeTicket s s.cur 4).2 none) })
          (fun _ => rfl) fun _ => rfl
      · refine (Leaves.await .waits).bind fun _ _ => ?_
        exact ((ticketed.inFlight _).sent _ _ _ _ _).stored

omit runs untraced in
theorem storeChk_unstored {p : Place} {va : Word} : Leaves (envOf len enc s) (Unstored s d) (fun _ => True) (storeChk (envOf len enc s) s p n va) := by
  cases p with
  | reg ent off => exact (mapped_unstored handled).bind fun _ _ => trivial
  | qw off => trivial
  | fe off => exact (access_needs handled).mono fun _ _ => trivial
  | mem key x pg => trivial

omit runs in
theorem storeFrom_kept {r : Nat} {ea : Word} {slack : Nat} {held : Option Word} :
    let e := envOf len enc s
    Leaves e (StoreKept s (place e ea 2 slack) n) (StoreKept s (place e ea 2 slack) n) (storeFrom e r ea n slack s held) := by
  intro e
  have stop (t : State) : Unstored s 0 t → StoreKept s (place e ea 2 slack) n t := Unstored.storeKept
  refine ((access_needs handled).weaken stop).bind fun _ _ => ((place_unstored handled).weaken stop).bind_eq fun p placed _ => ?_
  refine ((storeChk_unstored handled).weaken stop).bind fun _ _ => ?_
  have stores (v : Word) := (storeAt_kept (len := len) (enc := enc) (n := n) (p := p) (va := ea) (v := v) (slack := slack) handled untraced).weaken
    fun _ kept => Unstored.storeKept (at_ := .ok p) (n := n) kept
  rw [placed]
  cases held with
  | some v => exact stores v
  | none => exact scalar_reads handled stores

theorem execSt_kept {r a : BitVec 7} {z k : BitVec 2} {o : BitVec 7} (went : exec (.st r a z k o) s = .next t) :
    let n : Nat := 2 ^ z.toNat
    let ea := regGet s s.cur (getSlot s s.cur) a.toNat + BitVec.ofInt 64 (o.toInt * n)
    StoreKept s (place (envFor 4 (.st r a z k o) s) ea 2 (skOf (getSlot s s.cur).csr k.toNat)) n t := by
  intro n ea
  have address : baseReg (envFor 4 (.st r a z k o) s) a.toNat + sx o * wd n = ea := by rw [scaled_offset]; rfl
  refine Leaves.thr (len := 4) (enc := Enc.st r a z k o) ?_ runs (show execSt r a z k o s = .next t from went)
  refine ((access_checks handled).weaken fun _ => Unstored.storeKept).bind fun _ _ => ?_
  rw [← address]
  exact storeFrom_kept handled untraced

/-- What an indexed store leaves, by the remapped index and the place of each index. -/
structure IndexedStoreKept (s : State) (idx : X (State × List Word × Word)) (at_ : Word → X Place) (n : Nat) (t : State) : Prop where
  csr : (getSlot t s.cur).csr = excepted (getSlot s s.cur).csr (getSlot t s.cur).csr
  others : (∀ s1 acc i ent off, idx = .ok (s1, acc, i) → at_ i ≠ .ok (.reg ent off) ∧ at_ i ≠ .ok (.fe off)) → OthersKept s t 0 0
  mem : ∀ y, (∀ s1 acc i off, idx = .ok (s1, acc, i) → at_ i ≠ .ok (.fe off)) →
    (∀ s1 acc i key ent pg, idx = .ok (s1, acc, i) → at_ i = .ok (.mem key ent pg) → y < key ∨ key + n ≤ y) → memByte t.mem y = memByte s.mem y

omit runs handled untraced in
theorem Unstored.indexedStoreKept {idx : X (State × List Word × Word)} {at_ : Word → X Place} (kept : Unstored s 0 t) : IndexedStoreKept s idx at_ n t :=
  ⟨kept.near.csr, fun _ => kept.near.others, fun y _ _ => by rw [kept.mem]⟩

omit runs handled untraced in
theorem StoreKept.indexed {idx : X (State × List Word × Word)} {at_ : Word → X Place} {s1 : State} {acc : List Word} {i : Word}
    (remapped : idx = .ok (s1, acc, i)) (kept : StoreKept s (at_ i) n t) : IndexedStoreKept s idx at_ n t :=
  ⟨kept.csr, fun named => kept.others (fun ent off => (named _ _ _ ent off remapped).1) fun off => (named _ _ _ 0 off remapped).2,
    fun y named outside => kept.mem y (fun off => named _ _ _ off remapped) fun key ent pg => outside _ _ _ key ent pg remapped⟩

omit runs in
theorem indexedStore_kept {r a x m z slack : Nat} {held : Option Word} :
    let e := envOf len enc s
    let base := latch e 0 (baseReg e a)
    let x0 := latch e 1 (baseReg e x)
    let Q := IndexedStoreKept s (remapIdx e s ([base, x0] ++ held.toList) [] m x0) (fun i => place e (base + i * wd (2 ^ z)) 2 slack) (2 ^ z)
    Leaves e Q Q (do
      let (s', _, ea) ← indexed e [] a x m z held.toList
      storeFrom e r ea (2 ^ z) slack s' held) := by
  intro e base x0 Q
  have unchanged : Leaves e (Unstored s 0) (fun i => i.1 = s) (remapIdx e s ([base, x0] ++ held.toList) [] m x0) := remapIdx_unstored handled untraced
  have spelled : indexed e [] a x m z held.toList = (do
      let (s', acc, i) ← remapIdx e s ([base, x0] ++ held.toList) [] m x0
      return (s', acc, base + i * wd (2 ^ z))) := rfl
  rw [spelled]
  cases remapped : remapIdx e s ([base, x0] ++ held.toList) [] m x0 with
  | error st =>
    rw [remapped] at unchanged
    exact Unstored.indexedStoreKept unchanged
  | ok i =>
    obtain ⟨s', acc, i⟩ := i
    rw [remapped] at unchanged
    obtain rfl : s' = s := unchanged
    have stored := storeFrom_kept (len := len) (enc := enc) (n := 2 ^ z) (r := r) (ea := base + i * wd (2 ^ z)) (slack := slack) (held := held) handled untraced
    exact (stored.weaken fun _ kept => kept.indexed remapped).mono fun _ kept => kept.indexed remapped

theorem execStx_kept {r a x : BitVec 7} {m z : BitVec 2} (went : exec (.stx r a x m z) s = .next t) :
    let n : Nat := 2 ^ z.toNat
    let e := envFor 4 (.stx r a x m z) s
    let base := issued s 0 (regGet s s.cur (getSlot s s.cur) a.toNat)
    let x0 := issued s 1 (regGet s s.cur (getSlot s s.cur) x.toNat)
    let held := if (getSlot s s.cur).ports && r.toNat ≥ 120 then [] else [issued s 2 (regGet s s.cur (getSlot s s.cur) r.toNat)]
    IndexedStoreKept s (remapIdx e s ([base, x0] ++ held) [] m.toNat x0) (fun i => place e (base + i * BitVec.ofNat 64 n) 2 (dskOf (getSlot s s.cur))) n t := by
  intro n e base x0 held
  have ports : (getSlot s s.cur).ports = false := handled.2.2
  refine Leaves.thr (len := 4) (enc := Enc.stx r a x m z) ?_ runs (show execStx r a x m z s = .next t from went)
  refine ((access_checks handled).weaken fun _ => Unstored.indexedStoreKept).bind fun _ _ => ?_
  have window : ((getSlot s s.cur).ports && decide (r.toNat ≥ 120)) = false := by rw [ports]; rfl
  simp only [held, envOf_sl, window, Bool.false_eq_true, if_false]
  exact indexedStore_kept handled untraced

end

/-! ### The statement -/

theorem loads_kept (t a x : BitVec 7) (z k r : BitVec 2) (o : BitVec 7) :
    ∀ i ∈ [Instr.ld t a z k o, .ldn t a z k o, .ldx t a x r z, .ldxn t a x r z, .feqry t a],
    ∀ s s', Runs s → Handled s → Untraced s → exec i s = .next s' → Stored s t.toNat (fun _ => True) s' := by
  simp only [List.forall_mem_cons, List.not_mem_nil, false_implies, implies_true, and_true]
  refine ⟨?_, ?_, ?_, ?_, ?_⟩ <;> intro s s' runs handled untraced went
  · exact (ldOp_unstored runs handled untraced went).stored
  · exact (ldOp_unstored runs handled untraced went).stored
  · exact (ldxOp_unstored runs handled untraced went).stored
  · exact (ldxOp_unstored runs handled untraced went).stored
  · obtain ⟨near, mem⟩ := amoOp_stored (fn := 12) runs handled untraced le_rfl (show execFeqry t a s = .next s' from went)
    exact ⟨near, fun y _ => mem y (.inl rfl)⟩

/-- Settles O59, from what each part of an access leaves where it stops and where it goes on. -/
theorem memoryFrame : Obligations.MemoryFrame := by
  refine ⟨fun t a x z k r o i mem s s' runs handled untraced went => ?_, fun t a z k o s s' runs handled untraced went => ?_,
    fun t a x r z s s' runs handled untraced went => ?_, fun d a b p mem s s' runs handled untraced went => ?_⟩
  · obtain ⟨near, mem⟩ := loads_kept t a x z k r o i mem s s' runs handled untraced went
    exact ⟨near.others, near.csr, fun y => mem y trivial⟩
  · obtain ⟨csr, others, mem⟩ := execSt_kept runs handled untraced went
    exact ⟨csr, others, mem⟩
  · obtain ⟨csr, others, mem⟩ := execStx_kept runs handled untraced went
    exact ⟨csr, others, mem⟩
  · obtain ⟨data, bytes⟩ := amoTable_data d a b p mem
    obtain ⟨near, mem⟩ := amoOp_stored runs handled untraced data.le ((exec_amoTable d a b p mem s).symm.trans went)
    exact ⟨near.others, near.csr, fun y outside => mem y (.inr (bytes ▸ outside))⟩

end Sys2Proof.Proofs
end
